-- ==== Sys2Proof/Word.lean ====
section
/-!
DEFINITION. The word types of the DK-128 model: bytes, 32-bit register words and the sparse table that every
addressed memory of the package is held in. Rules R5 (little-endian) and R6 (register offsets) use them.
-/
namespace Sys2Proof

/-- One byte of pool memory, host memory or a frame. -/
abbrev Byte := BitVec 8

/-- One 32-bit register word (R6, R7). -/
abbrev W32 := BitVec 32

/-- A sparse table: (key, value) pairs with strictly rising keys, holding no entry equal to what an unlisted key
reads as. `Tbl Byte` is the list of `Host.Cell`s that pool memory is. -/
abbrev Tbl (α : Type) := List (Nat × α)

end Sys2Proof
end

