-- ==== Sys2Proof/Syntax.lean ====
section
/-!
DEFINITION. The commands of the DK-128 package: one constructor of `Instr` for each row of spec/opcode_table.json,
with what the command carries: a register value, a request or frame as it arrives, an answer, or the physical reading
that an event reports. Each command is one whole, indivisible event (log entry 1).
-/
namespace Sys2Proof

/-- The master of a register access (R507): 0 management core, 1 host, 2 fabric manager. -/
inductive Master where
  | mgmt | host | fm
  deriving DecidableEq, Repr

/-- What has befallen a line of the arrays when a command reads it: the symbols that have gone wrong since. Of a near line they are bits,
numbered 72 × word + bit over the 8 words of 64 bits with their 8 check bits (R164); of a bulk line they are bytes, the line's 64 and its 4
check bytes (R170). The physical medium decides; the command carries it, line by line in ascending order. -/
structure Media where
  errs : List Nat := []
  deriving DecidableEq, Repr, Inhabited

/-- A line of the arrays that a command names, and what has befallen it. -/
structure LineMedia where
  line : Nat
  media : Media
  deriving DecidableEq, Repr, Inhabited

/-- A command that comes either as a register write whose operands stand in staging registers, or as a CTRL message
from node `src` (R70, R75, R198, R422, R499, R521). A message from the package's own node is one that its own
fabric-manager queue executes locally (R615). -/
inductive Cmd (α : Type) where
  | reg (m : Master)
  | msg (src : Nat) (a : α)
  deriving DecidableEq, Repr

/-- PROT_BIND by message (R198): the extent, the entry, and whether a ward passes on a bind of its own. -/
structure BindMsg where
  index : Nat := 0
  word : Nat := 0
  passed : Bool := false
  deriving DecidableEq, Repr, Inhabited

/-- The operand slot of a request (R463). -/
structure Opd where
  addr : Nat := 0
  ctx : Nat := 0
  lengthM1 : Nat := 0
  aop : Nat := 0
  fetch : Bool := false
  cache : Bool := false
  order : Nat := 0
  mfmt : Nat := 0
  cfmt : Nat := 0
  deriving DecidableEq, Repr, Inhabited

/-- The header slot of a frame (R446). -/
structure Hdr where
  dest : Nat := 0
  srcNode : Nat := 0
  srcEngine : Nat := 0
  cls : Nat := 0
  channel : Nat := 0
  len : Nat := 1
  epoch : Bool := false
  bounces : Nat := 0
  cmark : Nat := 0
  echo : Nat := 0
  ticket : Nat := 0
  dstPort : Nat := 0
  opcode : Nat := 0
  manifest : Nat := 0
  mv : Bool := false
  reqLanding : Nat := 0
  status : Nat := 0
  tag : Nat := 0
  after : Nat := 0
  av : Bool := false
  deriving DecidableEq, Repr, Inhabited

/-- A pool request as it stands at its home: header slot, operand slot and the data of both frames of a linked pair
(R463, R466). -/
structure Req where
  hdr : Hdr
  opd : Opd
  data : List Byte
  /-- offsets in `data` of bytes that a combined write does not write (R142) -/
  holes : List Nat := []
  /-- a read of an array job's program image, which the sampler does not consider (R187, R274) -/
  image : Bool := false
  deriving DecidableEq, Repr, Inhabited

/-- A frame as the switch sees it (R379): its header slot and its payload slots as bytes. -/
structure Frame where
  hdr : Hdr
  pay : List Byte
  deriving DecidableEq, Repr, Inhabited

/-- A request of the landing protocol (R462–R464): landing, TAG, operand slot and the data of its request frame. -/
structure LReq where
  n : Fin 4
  tag : Nat
  o : Opd
  data : List Byte
  deriving DecidableEq, Repr, Inhabited

/-- An answer that reaches a source engine (R486): the engine, the TAG it returns, its status, the congestion level
of R427, the data it carries. -/
structure Ans where
  eng : Nat
  tag : Nat
  status : Nat
  level : Nat := 0
  data : List Byte := []
  deriving DecidableEq, Repr, Inhabited

/-- How a request was answered: its status, and the congestion level of the answer, the larger of its ECHO and its CMARK (R427). -/
structure AnsHow where
  status : Nat
  level : Nat := 0
  deriving DecidableEq, Repr, Inhabited

/-- The four bitmaps of an extent command (R63, R70), one bit for each global landing number. -/
structure Bitmaps where
  read : Nat
  write : Nat
  atomic : Nat
  reduce : Nat
  deriving DecidableEq, Repr, Inhabited

/-- Operands of EXT_GRANT, EXT_WIDEN, EXT_REVOKE, EXT_RESERVE and EXT_RELEASE (R70). -/
structure ExtArgs where
  index : Nat
  region : Nat := 0
  bm : Bitmaps := ⟨0, 0, 0, 0⟩
  protect : Bool := false
  deriving DecidableEq, Repr, Inhabited

/-- Operands of REGION_CREATE and REGION_DESTROY (R75). -/
structure RegionArgs where
  index : Nat
  cls : Nat := 0
  pages : Nat := 0
  ptBase : Nat := 0
  publish : Nat := 0
  deriving DecidableEq, Repr, Inhabited

/-- Operands of an invalidation (R98). -/
structure InvArgs where
  kind : Nat
  region : Nat := 0
  first : Nat := 0
  count : Nat := 0
  ctx : Nat := 0
  deriving DecidableEq, Repr, Inhabited

/-- Operands of a recovery command (R499): a node and the generation. -/
structure NodeGen where
  node : Nat
  gen : Nat
  deriving DecidableEq, Repr, Inhabited

/-- An order record (R217): source node, SRC_ENGINE, manifest number and status. -/
structure OrderRec where
  src : Nat
  eng : Nat
  man : Nat
  status : Nat
  /-- 0 a write; 1 the pair has entered BROKEN; 2 it has started afresh (DESIGN CHOICE, log entry 69) -/
  ev : Nat := 0
  deriving DecidableEq, Repr, Inhabited

/-- A mirror write (R211): the node that sends it, the ward it speaks for and the node it is addressed to, the
partner's extent and the ward's, the byte offset of its first line in both, whole lines (tenant ciphertext, or plaintext
metadata, R215), the ticket, and the order record it carries. -/
structure MirrorMsg where
  src : Nat
  ward : Nat
  forNode : Nat
  ext : Nat
  wardExt : Nat
  off : Nat
  bytes : List Byte
  ticket : Nat
  record : Option OrderRec
  tag : Nat
  manifest : Nat
  cmark : Nat := 0
  deriving DecidableEq, Repr, Inhabited

/-- A journal message (R217): sender, the ward whose order table it concerns, addressee, and the order record. -/
structure JournalMsg where
  src : Nat
  ward : Nat
  forNode : Nat
  record : OrderRec
  ticket : Nat
  tag : Nat
  manifest : Nat
  cmark : Nat := 0
  deriving DecidableEq, Repr, Inhabited

/-- A parity delta (R204): sender, the group member it speaks for, addressee, extent, byte offset of the line in it
and the 64 bytes. -/
structure DeltaMsg where
  src : Nat
  member : Nat
  forNode : Nat
  ext : Nat
  off : Nat
  bytes : List Byte
  ticket : Nat
  tag : Nat
  manifest : Nat
  cmark : Nat := 0
  deriving DecidableEq, Repr, Inhabited

/-- RC_READ and RC_RELEASE (R208): the reconstructor, extent and byte offset of the line; `parity` marks the read of
the holder's parity line, which holds nothing. -/
structure RcMsg where
  src : Nat
  ext : Nat
  off : Nat
  parity : Bool
  ticket : Nat
  tag : Nat
  cmark : Nat := 0
  deriving DecidableEq, Repr, Inhabited

/-- What a rebuild copy or forwarded write carries (R223–R226). -/
inductive RebuildItem where
  /-- an extent whole: its lines by byte offset, ciphertext or plaintext metadata; a line not listed is zero -/
  | extent (ext : Nat) (metadata : Bool) (lines : List (Nat × List Byte))
  /-- one line of an extent as ciphertext -/
  | line (ext off : Nat) (bytes : List Byte)
  /-- a protection-table entry as its 32-bit word -/
  | protEntry (index word : Nat)
  /-- an order-table entry of the served node: source, engine, EXPECT, statuses by manifest number -/
  | orderEntry (src eng expect : Nat) (hist : List (Nat × Nat))
  /-- a write forwarded with its order record (R224, R225): lines of one extent from a byte offset on -/
  | forwarded (op ext off : Nat) (bytes : List Byte) (record : Option OrderRec)
  /-- a parity delta forwarded from phase 4 on, with its order record (R224, R225) -/
  | parity (ext off : Nat) (bytes : List Byte) (record : Option OrderRec)
  /-- the last line of a phase (R223) -/
  | phaseEnd (phase : Nat)
  deriving DecidableEq, Repr

/-- What a rebuild copy carries beside its sender and the takeover it belongs to: item, ticket, tag, manifest number (R126). -/
structure RebuildBody where
  item : RebuildItem
  ticket : Nat
  tag : Nat
  manifest : Nat
  cmark : Nat := 0
  deriving DecidableEq, Repr

/-- A bounce that returns (R392, R393): its header, and, where the frame was a COLL_DATA, the tags of its segment (COLL_ID, step, chunk,
segment). -/
structure BounceMsg where
  hdr : Hdr
  coll : Option (Nat × Nat × Nat × Nat)
  deriving DecidableEq, Repr

/-- REBUILD_DONE (R226): who reports, and the node that was lost. -/
structure RebuildReport where
  src : Nat
  lost : Nat
  deriving DecidableEq, Repr

/-- REBUILD_COPY (R126, R223–R226): sender, node the item is of, recovery generation, item, ticket, tag, manifest number. -/
structure RebuildMsg where
  src : Nat
  node : Nat
  gen : Nat
  item : RebuildItem
  ticket : Nat
  tag : Nat
  manifest : Nat
  bounces : Nat := 0
  cmark : Nat := 0
  deriving DecidableEq, Repr

/-- Domain shape and place (R26, R27, R590): X and Y, x and y, node ID. -/
structure JoinVals where
  xDim : Nat
  yDim : Nat
  x : Nat
  y : Nat
  node : Nat
  deriving DecidableEq, Repr, Inhabited

/-- What the far side of a link sends in PARAM (R447). -/
structure ParamMsg where
  node : Nat
  port : Nat
  role : Nat
  group : Nat
  credits : List Nat
  deriving DecidableEq, Repr, Inhabited

/-- A codeword that a block of a flit stood in (R434): its lane, how many of its symbols were in error, and whether this flit is the first
with a block in it. -/
structure FecWord where
  lane : Nat
  errors : Nat
  first : Bool
  deriving DecidableEq, Repr, Inhabited

/-- A flit as it comes out of the FEC (R434, R443): its 256 bytes, and the codewords that its blocks stood in. -/
structure FlitMsg where
  bytes : List Byte
  words : List FecWord
  deriving DecidableEq, Repr, Inhabited

/-- What TRAIN has found and agreed (R432, R436), as masks of lanes: those that met the pass figure, those for which this receiver would
have precoding, those for which the partner asks this transmitter for it. -/
structure Trained where
  passed : Nat
  wish : Nat
  asked : Nat
  deriving DecidableEq, Repr, Inhabited

/-- What the far side of a link brings to RETRAIN (R439): its healthy lanes and its MAX_WIDTH as it encodes it. -/
structure FarLanes where
  healthy : Nat
  maxWidth : Nat
  deriving DecidableEq, Repr, Inhabited

/-- What the ROM found of one boot image (R530): its header fields and the verdicts of the two hash and signature
checks. -/
structure ImageCheck where
  /-- SHA-384 of the image (R533, R535) -/
  digest : Nat
  magic : Nat
  hdrVersion : Nat
  svn : Nat
  keyIndex : Nat
  keyHashMatches : Bool
  signatureVerifies : Bool
  version : Nat
  deriving DecidableEq, Repr, Inhabited

/-- A register of the configuration space of the host port's function (R474, R475), named by what it holds: Vendor and Device ID, class code,
one word of a BAR (0, 1, 2 for BAR0, BAR2, BAR4), the MSI-X table size, the power state, the error reporting and DOE capabilities; another
offset holds nothing. -/
inductive CfgReg where
  | identity
  | classCode
  | bar (i : Fin 3) (high : Bool)
  | msix
  | power
  | errors
  | doe
  | other (off : Nat)
  deriving DecidableEq, Repr, Inhabited

/-- A configuration request of the host (R474, R587): its tag, the register, and the value of a write. -/
structure CfgReq where
  id : Nat
  reg : CfgReg := .identity
  write : Option W32 := none
  deriving DecidableEq, Repr, Inhabited

/-- What a read within a page names: the low word of a counter (R610), or `size` bytes at an offset (R476). -/
inductive PageRead where
  | low (index : Nat)
  | reg (off size : Nat)
  deriving DecidableEq, Repr, Inhabited

/-- The outcome of the work of a boot stage (R586, R588). -/
inductive BootWork where
  | done
  | images (primary secondary : ImageCheck)
  /-- REPAIR: bank group and bank that no spare repairs -/
  | repairFailed (group bank : Nat)
  /-- MEMTRAIN: device and step that failed -/
  | trainFailed (device step : Nat)
  /-- MEMINIT: tier (true = near) and GPA of the line that read back uncorrectable -/
  | initFailed (near : Bool) (gpa : Nat)
  deriving DecidableEq, Repr

/-- A key wrapped for KEY_LOAD (R519): the session it came in (none: outside any), the key identifier, the key as it
unwraps, and whether the integrity check of the unwrap passed. -/
structure KeyLoadMsg where
  session : Option Nat
  keyId : Nat
  key : Nat
  unwraps : Bool
  deriving DecidableEq, Repr, Inhabited

/-- An SPDM request that a sideband MSG carries over MCTP (R534, R611); `other` is a request that is not supported. -/
inductive SpdmMsg where
  | getVersion
  | getCapabilities (version : Nat)
  | negotiateAlgorithms (offered : Nat)
  | getDigests
  | getCertificate (slot off len : Nat)
  | challenge (slot nonce : Nat)
  | getMeasurements (index nonce : Nat)
  | keyExchange (share rootDigest : Nat) (mutualAuth good : Bool)
  | finish (session : Nat) (good : Bool)
  | heartbeat (session : Nat)
  | keyUpdate (session : Nat)
  | endSession (session : Nat)
  | keyLoad (k : KeyLoadMsg)
  | other (code : Nat)
  deriving DecidableEq, Repr

/-- The four captures of an exchange (R544), in 1/256 ns, and the far side's state. -/
structure SyncReply where
  t1 : Nat
  t2 : Nat
  t3 : Nat
  t4 : Nat
  replayed : Bool
  deriving DecidableEq, Repr, Inhabited

/-- Which wake source was seen (R566). -/
inductive WakeKind where
  | lane (port lane : Nat)
  | pcie
  deriving DecidableEq, Repr

/-- COLL_DATA (R307): COLL_ID, source and destination global landing numbers, step or exchange, chunk and segment index
within it, ticket, SRC_ENGINE of the sending array, and the segment: elements, then with MX its scale bytes. -/
structure CollData where
  collId : Nat
  src : Nat
  dst : Nat
  step : Nat
  chunk : Nat
  seg : Nat
  ticket : Nat
  eng : Nat
  data : List Byte
  cmark : Nat := 0
  bounces : Nat := 0
  deriving DecidableEq, Repr, Inhabited

/-- COLL_CREDIT (R308, R309): the step it belongs to, the credits it grants, the segment it acknowledges as (step, chunk,
segment), in a step's first credit the digest OP, RED, P, COUNT, WIRE_FMT, SEG_LOG2; its ECHO and CMARK (R427). -/
structure CollCredit where
  collId : Nat
  src : Nat
  dst : Nat
  step : Nat
  slots : Nat
  ack : Option (Nat × Nat × Nat)
  digest : Option (List Nat)
  echo : Nat := 0
  cmark : Nat := 0
  deriving DecidableEq, Repr, Inhabited

/-- COLL_ABORT (R315): sender and receiver as global landing numbers, the status, rank and step of its origin. -/
structure CollAbort where
  collId : Nat
  src : Nat
  dst : Nat
  status : Nat
  rank : Nat
  step : Nat
  deriving DecidableEq, Repr, Inhabited

/-- ATTN_QUERY (R325): requester, request and group, the node ID it is addressed to, ticket and requester landing, T, D,
KV_FMT, GRAIN and SCALE, the queries as MX FP8 E4M3 (elements, then scale bytes), and the pages as (GPA, valid positions). -/
structure AttnQuery where
  src : Nat
  op : Nat
  grp : Nat
  node : Nat
  ticket : Nat
  landing : Nat
  t : Nat
  d : Nat
  kvFmt : Nat
  group : Bool
  scale : Nat
  nq : Nat
  elems : List Byte
  scales : List Byte
  pages : List (Nat × Nat)
  cmark : Nat := 0
  deriving DecidableEq, Repr, Inhabited

/-- ATTN_PARTIAL (R329): request, group, place of the page within it (0 under GRAIN GROUP), status, and m, l and o as FP32
codes, o row by row. -/
structure AttnPartial where
  op : Nat
  grp : Nat
  k : Nat
  status : Nat
  m : List Nat
  l : List Nat
  o : List Nat
  echo : Nat := 0
  cmark : Nat := 0
  deriving DecidableEq, Repr, Inhabited



/-- The commands: one constructor for each row of spec/opcode_table.json, those without operands last. -/
inductive Instr where
  /-- REGISTER_WRITE (R7): A write to a register field that has no row of its own takes effect according to its access code. -/
  | registerWrite (m : Master) (a : Nat) (size : Nat) (v : Nat)
  /-- BLK_OWNER_WRITE (R508): A write to BLK_OWNER changes the page owner if the writer is the owner or the management core, unless the page is LOCKED. -/
  | blkOwnerWrite (m : Master) (page : Nat) (v : W32)
  /-- BLK_QUIESCE (R604): A write of BLK_CTRL.QUIESCE makes the block take no new work, or releases it. -/
  | blkQuiesce (m : Master) (page : Nat) (v : W32)
  /-- BLK_ENABLE (R604): A write of BLK_CTRL.ENABLE takes the block out of or back into service, effective only while it is quiesced. -/
  | blkEnable (m : Master) (page : Nat) (v : W32)
  /-- QUIESCE_COMPLETE (R604): A quiesced block finishes its work in hand and sets QUIESCED. -/
  | quiesceComplete (page : Nat)
  /-- SOFT_RESET (R605): A write of BLK_CTRL.SOFT_RESET starts a soft reset of a disabled, quiesced block. -/
  | softReset (m : Master) (page : Nat) (v : W32)
  /-- SOFT_RESET_DONE (R605): A soft reset completes and clears SRST_BUSY. -/
  | softResetDone (page : Nat)
  /-- CNT_FREEZE (R610): A write of BLK_CTRL.CNT_FREEZE stops or restarts counting in the page. -/
  | cntFreeze (m : Master) (page : Nat) (v : W32)
  /-- CNT_CLEAR (R610): A write of BLK_CTRL.CNT_CLEAR sets every counter of the page to 0. -/
  | cntClear (m : Master) (page : Nat) (v : W32)
  /-- COUNTER_LOW_READ (R610): A 4-byte read of a counter's low word latches its high word. It stands for the host's other reads of a page too,
  for which the table has no row (R476). -/
  | counterLowRead (m : Master) (page : Nat) (a : PageRead)
  /-- BLK_ISR_CLEAR (R608): A write-1-to-clear of BLK_ISR bits clears the events serialised before it. -/
  | blkIsrClear (m : Master) (page : Nat) (v : W32)
  /-- BLK_ITR (R603): A write of BLK_ITR sets the matching BLK_ISR bits as the events would. -/
  | blkItr (m : Master) (page : Nat) (v : W32)
  /-- BLK_IER_WRITE (R606): A write of BLK_IER enables page interrupts and sends an MSI-X message if the page becomes pending. -/
  | blkIerWrite (m : Master) (page : Nat) (v : W32)
  /-- CAP_REARM (R487): Writing 1 to BLK_ERR_CAP0.VALID clears VALID and OVERFLOW and re-arms first-error capture. -/
  | capRearm (m : Master) (page : Nat) (v : W32)
  /-- PACE_WINDOW_END (R40): At the end of each 1 µs tide-time window, PACE and PACE_LOW update. -/
  | paceWindowEnd (paces : List (Nat × Nat))
  /-- LOW_CLR (R39): A write of 1 to BLK_PACE.LOW_CLR sets PACE_LOW to 0xFFF. -/
  | lowClr (m : Master) (page : Nat) (v : W32)
  /-- VDD_CORE_CHANGE (R47): VDD_CORE moves, and core pace follows it with no other effect. -/
  | vddCoreChange (mv : Nat)
  /-- VCORE_LOW (R49): VDD_CORE falls below 0.60 V; VCORE_LOW is set, counted and captured as DEGRADED. -/
  | vcoreLow (mv : Nat)
  /-- DOMAIN_ON (R557): A power domain whose condition becomes true turns on and its pages return to reset or restored values. -/
  | domainOn (i : Fin 30)
  /-- DOMAIN_OFF (R50): A power domain is quiesced and then powered off. -/
  | domainOff (i : Fin 30)
  /-- LOAD (R470): A landing takes a LOAD request, translates it and serves it from the read cache or sends it to the home. -/
  | load (q : LReq)
  /-- STORE (R142): A landing takes a STORE, removes the line from its read cache and combines it into an open block or sends it. -/
  | store (q : LReq)
  /-- ATOMIC (R148): A landing takes an ATOMIC request, checks its form and sends it to the home. -/
  | atomic (q : LReq)
  /-- REDUCE (R182): A landing takes a REDUCE request and sends it to the home as a reduce-write. -/
  | reduce (q : LReq)
  /-- BULK_READ (R468): A landing takes a BULK_READ, splits it into pool requests and returns DATA frames and a completion. -/
  | bulkRead (q : LReq)
  /-- BULK_WRITE (R468): A landing takes a BULK_WRITE and splits it and its DATA frames into pool writes. -/
  | bulkWrite (q : LReq)
  /-- DATA (R466): A DATA continuation frame arrives and completes a linked pair or bulk write. -/
  | dataFrame (n : Fin 4) (tag : Nat) (data : List Byte)
  /-- LOCAL_FENCE (R144): An engine takes a local fence and holds later accesses until earlier ones complete. -/
  | localFence (q : LReq)
  /-- DOMAIN_FENCE (R145): A domain fence of a context is accepted and covers every outstanding access of that context. -/
  | domainFence (q : LReq)
  /-- FENCE_COMPLETE (R146): Every access covered by a fence has completed; the fence completes with ERR_SEEN. -/
  | fenceComplete (id : Nat)
  /-- LND_FENCE_GO (R147): A write of LND_FENCE_CMD.GO issues a domain fence on CONTEXT, or is dropped. -/
  | lndFenceGo (m : Master) (n : Fin 4) (v : W32)
  /-- RC_INV (R143): RC_INV removes every line from the landing's read cache. -/
  | rcInv (q : LReq)
  /-- WC_FLUSH (R143): WC_FLUSH closes every open write-combining block of the landing. -/
  | wcFlush (q : LReq)
  /-- WC_BLOCK_TIMEOUT (R142): An open write-combining block reaches 50 ns of age and closes into one write. -/
  | wcBlockTimeout (n : Fin 4) (dest : Nat)
  /-- VERSION_READ (R156): A landing takes VERSION_READ and sends it with its ORDER form. -/
  | versionRead (q : LReq)
  /-- PUBLISH (R157): A landing takes PUBLISH, runs the release fence if asked and sends it unless a covered write failed. -/
  | publish (q : LReq)
  /-- STREAM_DECLARE (R469): STREAM_DECLARE opens a prefetch stream for a context and returns its number. -/
  | streamDeclare (q : LReq)
  /-- STREAM_END (R469): STREAM_END ends a prefetch stream. -/
  | streamEnd (q : LReq)
  /-- DOORBELL (R353): A landing takes a DOORBELL and applies it locally or sends it as FRY_DOORBELL. -/
  | doorbell (q : LReq)
  /-- DOCK_READ (R375): DOCK_READ returns 4 or 8 bytes of the dock window within 40 ns. -/
  | dockRead (q : LReq)
  /-- PTE_WRITE (R464): A landing takes PTE_WRITE and sends it to the region's home. -/
  | pteWrite (q : LReq)
  /-- FAULT_BATCH_DUE (R110): A fault batch reaches the end of its window and is delivered to its ring. -/
  | faultBatchDue (ctx : Nat)
  /-- FLT_RING_CONS (R112): Software writes FLT_RING_CONS, freeing slots so that waiting records are delivered. -/
  | fltRingCons (m : Master) (ring : Fin 16) (v : W32)
  /-- WALK_READ_ANSWER (R91): A walker's table read returns and the walk continues, installs entries or ends in a fault. -/
  | walkReadAnswer (walk : Nat) (how : AnsHow) (data : List Byte)
  /-- PREFETCH_ANSWER (R95): A prefetched group of page-table entries returns and valid entries are installed in the FTC. -/
  | prefetchAnswer (id : Nat) (how : AnsHow) (data : List Byte)
  /-- XLT_INV_GO (R104): A write of XLT_INV_CMD.GO queues an invalidation of the given KIND, or is dropped if the queue is full. -/
  | xltInvGo (m : Master) (v : W32)
  /-- CTRL_INVALIDATION (R102): A CTRL invalidation message is queued in the XLT block. -/
  | ctrlInvalidation (src : Nat) (a : InvArgs)
  /-- BAR2_READ (R477): A BAR2 read TLP becomes pool loads in a window's context, answered in address order. -/
  | bar2Read (id : Nat) (off : Nat) (len : Nat)
  /-- BAR2_WRITE (R477): A BAR2 posted write becomes pool stores in a window's context. -/
  | bar2Write (off : Nat) (data : List Byte)
  /-- BAR2_ATOMIC (R474): A PCI Express AtomicOp on BAR2 becomes a pool atomic. -/
  | bar2Atomic (id : Nat) (off : Nat) (aop : Nat) (data : List Byte)
  /-- BAR4_DOORBELL (R353): A host write to BAR4 rings a submission or completion doorbell. -/
  | bar4Doorbell (off : Nat) (v : W32)
  /-- TIME_FRAME_SEND (R472): At each whole microsecond a landing sends a TIME frame, or skips and counts it. -/
  | timeFrameSend (n : Fin 4)
  /-- HOME_READ (R128): A home takes a pool read, checks and admits it, reads and decrypts the line and responds. -/
  | homeRead (r : Req) (media : List Media)
  /-- HOME_WRITE (R137): A home takes a write, passes it through the order table and applies, holds or refuses it. -/
  | homeWrite (r : Req) (media : List Media)
  /-- HOME_ATOMIC (R149): A home takes an atomic and executes it indivisibly at memory. -/
  | homeAtomic (r : Req) (media : List Media)
  /-- HOME_REDUCE_WRITE (R182): A home takes a reduce-write and adds its vector into memory. -/
  | homeReduceWrite (r : Req) (media : List Media)
  /-- HOME_MIGRATION_WRITE (R192): A destination home takes a migration line, re-encrypts it and writes it. -/
  | homeMigrationWrite (r : Req) (srcGpa : Nat) (media : List Media)
  /-- HOME_TABLE_READ (R91): A home serves a walker or prefetcher read of a SYSTEM extent. -/
  | homeTableRead (r : Req) (media : List Media)
  /-- WRITE_PERFORMED (R127): A write's protection step completes; it is performed and acknowledged. -/
  | writePerformed (op : Nat)
  /-- ORDER_HOLE_TIMEOUT (R495): A pair's hole window ends with the hole open; the pair enters BROKEN and held writes are refused. -/
  | orderHoleTimeout (node : Nat) (src : Nat) (eng : Nat)
  /-- HOME_PTE_WRITE (R77): The region's home checks a PTE_WRITE and writes the page-table entry. -/
  | homePteWrite (r : Req) (media : List Media)
  /-- REGION_PTE (R77): A fabric-manager REGION_PTE command writes a page-table entry. -/
  | regionPte (src : Nat) (region : Nat) (page : Nat) (entry : Nat) (media : List Media)
  /-- HOME_VERSION_READ (R152): The region's home checks a VERSION_READ and returns VERSION. -/
  | homeVersionRead (r : Req)
  /-- HOME_PUBLISH (R153): The region's home applies a PUBLISH as one compare-and-swap on VERSION. -/
  | homePublish (r : Req)
  /-- EXT_GRANT (R70): EXT_GRANT grants a FREE extent to a region with four bitmaps. -/
  | extGrant (c : Cmd ExtArgs)
  /-- EXT_WIDEN (R70): EXT_WIDEN ORs bitmaps into a GRANTED extent. -/
  | extWiden (c : Cmd ExtArgs)
  /-- EXT_REVOKE (R120): EXT_REVOKE puts a GRANTED extent into REVOKING. -/
  | extRevoke (c : Cmd ExtArgs)
  /-- EXT_RESERVE (R70): EXT_RESERVE puts a FREE extent into SYSTEM or PROTECT. -/
  | extReserve (c : Cmd ExtArgs)
  /-- EXT_RELEASE (R70): EXT_RELEASE returns a SYSTEM or PROTECT extent to FREE. -/
  | extRelease (c : Cmd ExtArgs)
  /-- REGION_CREATE (R75): REGION_CREATE fills an invalid region descriptor. -/
  | regionCreate (c : Cmd RegionArgs)
  /-- REGION_DESTROY (R75): REGION_DESTROY clears a region descriptor's VALID. -/
  | regionDestroy (c : Cmd RegionArgs)
  /-- HOME_BITMAP_CLR (R617): A write of HOME_BITMAP_CLR.GO sets every HOME_BITMAP word to 0. -/
  | homeBitmapClr (m : Master) (v : W32)
  /-- REVOCATION_COMPLETE (R121): A REVOKING extent's in-flight counter reaches zero; it becomes FREE and the completion record is sent. -/
  | revocationComplete (index : Nat)
  /-- NEAR_SCRUB (R165): The near-store scrub visits a word, correcting or recording it. -/
  | nearScrub (off : Nat) (media : Media)
  /-- BULK_SCRUB (R175): The bulk-store patrol reads a line and corrects or records it. -/
  | bulkScrub (off : Nat) (media : Media)
  /-- BULK_CFG_WRITE (R169): A write of BULK_CFG sets the interleave mode, only while every bulk extent is FREE, and the scrub period. -/
  | bulkCfgWrite (m : Master) (v : W32)
  /-- SNAPSHOT (R190): A write of SMP_SNAP_CMD.GO takes a snapshot instant and starts copying counters to host memory. -/
  | snapshot (m : Master) (v : W32)
  /-- PROT_BIND (R198): PROT_BIND sets an extent's protection-table entry and passes it to the partner. -/
  | protBind (c : Cmd BindMsg)
  /-- PARITY_COMPUTE_DONE (R203): A holder's bind of extent `ext` finishes computing the parity of every one of its `lines` lines and returns DONE. -/
  | parityComputeDone (ext : Nat) (lines : Nat)
  /-- PARITY_DELTA (R204): A holder takes a parity delta and XORs it into the parity line. -/
  | parityDelta (d : DeltaMsg)
  /-- DELTA_ANSWER (R207): The answer to a parity delta returns and the data home writes the new line. -/
  | deltaAnswer (op : Nat) (line : Nat) (status : Nat)
  /-- MIRROR_WRITE (R212): A partner takes a mirror write and stores it in its COPY extent, or refuses it. -/
  | mirrorWrite (w : MirrorMsg)
  /-- MIRROR_ANSWER (R213): The answer to a mirror write returns and the write is performed or degraded. -/
  | mirrorAnswer (op : Nat) (status : Nat)
  /-- JOURNAL_MESSAGE (R217): A partner takes a journal message and records it in the ward's shadow. -/
  | journalMessage (j : JournalMsg)
  /-- JOURNAL_ANSWER (R622): The answer to a journal message returns and the write proceeds, degrades or fails. -/
  | journalAnswer (op : Nat) (status : Nat)
  /-- PROT_REPAIR (R207): PROT_REPAIR recomputes or copies a logged stale line and removes it from the log. -/
  | protRepair (src : Nat) (line : Nat)
  /-- RC_READ (R208): A survivor serialises RC_READ, returns the line and holds later writes to it. -/
  | rcRead (r : RcMsg)
  /-- RC_RELEASE (R208): A survivor takes RC_RELEASE and releases the held line. -/
  | rcRelease (r : RcMsg)
  /-- RC_HOLD_TIMEOUT (R209): A survivor gets no RC_RELEASE within the request timeout and releases the line itself. -/
  | rcHoldTimeout (ext : Nat) (off : Nat)
  /-- RECONSTRUCT_ANSWER (R208): The last answer of a reconstruction arrives and the line is rebuilt by XOR. -/
  | reconstructAnswer (op : Nat) (member : Nat) (status : Nat) (stale : Bool) (data : List Byte)
  /-- PROT_MEMBER_LOST (R219): PROT_MEMBER_LOST marks a member LOST and degrades the extents that relied on it. -/
  | protMemberLost (src : Nat) (a : NodeGen)
  /-- PROT_STANDIN (R220): PROT_STANDIN makes the partner serve the lost package's node ID by alias. -/
  | protStandin (src : Nat) (a : NodeGen)
  /-- PROT_MEMBER_RESTORE (R224): PROT_MEMBER_RESTORE makes group members resume deltas for stripes the lost package held. -/
  | protMemberRestore (src : Nat) (a : NodeGen)
  /-- REBUILD_START (R223): REBUILD_START begins copying a lost package to a spare in phases. -/
  | rebuildStart (src : Nat) (a : NodeGen) (spare : Nat) (spareRole : Bool) (spareTicket : Nat) (lostTicket : Nat)
  /-- REBUILD_COPY (R223): A spare takes a rebuild copy or forwarded write into its extents. -/
  | rebuildCopy (src : Nat) (node : Nat) (gen : Nat) (b : RebuildBody)
  /-- REBUILD_PHASE_ACK (R223): The spare acknowledges the last line of a phase and the next phase starts. -/
  | rebuildPhaseAck (phase : Nat)
  /-- WARDS_PHASE (R226): A ward of the lost package takes the spare as partner and copies its MIRROR extents to it. -/
  | wardsPhase (src : Nat) (lost : Nat) (spare : Nat)
  /-- REBUILD_DONE (R226): Every ward has finished; REBUILD_DONE is reported and DEGRADED and LOST clear. -/
  | rebuildDone (r : RebuildReport)
  /-- ALIAS_CLEAR (R225): The fabric manager clears the stand-in's alias after the drain interval. -/
  | aliasClear (src : Nat) (node : Nat)
  /-- PROT_CFG_WRITE (R216): A write of PROT_CFG sets partner, role and META_COPY, with partner changes only while nothing is GRANTED. -/
  | protCfgWrite (m : Master) (v : W32)
  /-- PROT_GROUP_WRITE (R196): A write of PROT_GROUP or PROT_MEMBERS0-2 is checked for tray conflicts and applied or refused. -/
  | protGroupWrite (m : Master) (reg : Fin 4) (v : W32)
  /-- SLICE_ISSUE (R278): The ferryman issues a slice of an array job to a free, powered array. -/
  | sliceIssue (op : Nat) (a : Fin 16)
  /-- PROGRAM_LOAD (R274): An array program image arrives, is checked and becomes resident, or the job is refused. -/
  | programLoad (a : Fin 16)
  /-- LOOP (R269): LOOP repeats the following instructions COUNT times. -/
  | arrLoop (a : Fin 16)
  /-- MAC (R269): MAC feeds A and B for COUNT handshakes and accumulates into a bank. -/
  | arrMac (a : Fin 16) (near : List LineMedia) (bulk : List LineMedia)
  /-- ELT (R269): ELT applies an element operation to a bank. -/
  | arrElt (a : Fin 16) (near : List LineMedia) (bulk : List LineMedia)
  /-- ROWRED (R269): ROWRED reduces each row of a bank by SUM or MAX. -/
  | arrRowred (a : Fin 16)
  /-- CMPX (R269): CMPX compares and exchanges column pairs with their indexes. -/
  | arrCmpx (a : Fin 16)
  /-- IDX (R269): IDX loads each index register with its column or row number. -/
  | arrIdx (a : Fin 16)
  /-- DRAIN (R269): DRAIN sends a bank's rows to a slot and advances the tile cursor. -/
  | arrDrain (a : Fin 16)
  /-- END (R269): END ends a slice. -/
  | endSlice (a : Fin 16)
  /-- ARRAY_JOB_COMPLETE (R279): Every slice has ended and every write is acknowledged; the array job completes. -/
  | arrayJobComplete (op : Nat)
  /-- PNT_PROG_INV (R291): A write of PNT_PROG_INV.GO removes resident programs. -/
  | pntProgInv (m : Master) (a : Fin 16) (v : W32)
  /-- ARRAY_PAIR_ON (R559): An array pair is requested and turns on. -/
  | arrayPairOn (k : Fin 8)
  /-- ARRAY_PAIR_IDLE_OFF (R559): An array pair has run no slice for ARR_IDLE_US and turns off. -/
  | arrayPairIdleOff (k : Fin 8)
  /-- OPERATION_ACCEPT (R289): The ferryman accepts an operation header into the scoreboard, or refuses it. -/
  | operationAccept (ring : Fin 64)
  /-- WAIT_READ_ANSWER (R285): A COUNTER_GE wait read returns and the wait is re-evaluated. -/
  | waitReadAnswer (op : Nat) (w : Fin 2) (how : AnsHow) (data : List Byte)
  /-- SEM_ACQUIRE_ANSWER (R286): A SEM_ACQUIRE CAS returns; the semaphore is taken or the attempt retries. -/
  | semAcquireAnswer (op : Nat) (w : Fin 2) (how : AnsHow) (data : List Byte)
  /-- WATCH_TRIGGER (R288): A write performed to a watched line causes re-evaluation of its waits. -/
  | watchTrigger (line : Nat)
  /-- WAIT_POLL (R288): An unwatched wait re-reads its word every POLL_US. -/
  | waitPoll (op : Nat) (w : Fin 2)
  /-- WAIT_WINDOW_END (R289): A wait window ends unmet and the operation completes with TIMEOUT. -/
  | waitWindowEnd (op : Nat)
  /-- OPERATION_ISSUE (R290): A READY operation is issued to its engines, oldest first. -/
  | operationIssue (op : Nat)
  /-- SIGNAL_ANSWER (R289): The answer to an operation's signal returns and the operation completes. -/
  | signalAnswer (op : Nat) (how : AnsHow)
  /-- COMPLETION_RECORD_WRITE (R370): A completed operation's record is written into a free completion-ring slot. -/
  | completionRecordWrite (ring : Fin 64)
  /-- FRY_DOORBELL (R353): A FRY_DOORBELL CTRL message rings a doorbell if DB_FABRIC and the ticket allow. -/
  | fryDoorbell (ring : Fin 64) (completion : Bool) (v : W32) (ticket : Nat)
  /-- DESCRIPTOR_FETCH_RETURN (R355): A descriptor fetch read returns; the descriptor is accepted or the ring halts. -/
  | descriptorFetchReturn (ring : Fin 64) (how : AnsHow) (data : List Byte)
  /-- FRY_SUB_CFG_WRITE (R357): A write of FRY_SUB_CFG enables, disables or configures a submission ring. -/
  | frySubCfgWrite (m : Master) (ring : Fin 64) (v : W32)
  /-- FRY_CMP_CFG_WRITE (R371): A write of FRY_CMP_CFG enables, disables or configures a completion ring. -/
  | fryCmpCfgWrite (m : Master) (ring : Fin 64) (v : W32)
  /-- FERRY_FENCE_DONE (R363): A ferry descriptor's fence completes and its move starts. -/
  | ferryFenceDone (e : Fin 32)
  /-- TILE_ISSUE (R366): A ferry tile's footprint is translated and its elements are issued. -/
  | tileIssue (e : Fin 32)
  /-- FERRY_COMPLETE (R368): A ferry descriptor stops or finishes and completes with status, stop tile and masks. -/
  | ferryComplete (e : Fin 32)
  /-- COLL_RUNNING (R313): A collective enters RUNNING, copies its rank entries, translates and sends first credits. -/
  | collRunning (op : Nat)
  /-- COLL_DATA (R307): A COLL_DATA segment arrives and is placed, reduced or forwarded, or discarded. -/
  | collData (c : CollData)
  /-- COLL_CREDIT (R308): A COLL_CREDIT arrives, granting credit and acknowledging a segment. -/
  | collCredit (c : CollCredit)
  /-- COLL_SEGMENT_RETRY (R308): A segment unacknowledged within the request timeout is sent again. -/
  | collSegmentRetry (op : Nat) (step : Nat) (chunk : Nat) (seg : Nat)
  /-- COLL_ABORT (R315): A COLL_ABORT arrives and the rank enters ABORTING and forwards it. -/
  | collAbort (c : CollAbort)
  /-- COLL_STEP_TIMEOUT (R314): A collective's step window ends and it aborts with TIMEOUT. -/
  | collStepTimeout (op : Nat)
  /-- COLL_COMPLETE (R313): A rank's chunks are final and acknowledged; the collective completes. -/
  | collComplete (op : Nat)
  /-- COLL_ABORT_DONE (R313): An aborting collective's writes are acknowledged and it completes with the abort status. -/
  | collAbortDone (op : Nat)
  /-- ATTN_RUNNING (R325): An attention request enters RUNNING, converts queries and sends its groups. -/
  | attnRunning (op : Nat)
  /-- ATTN_QUERY (R326): A home takes an ATTN_QUERY group into its serve queue and admits its pages. -/
  | attnQuery (q : AttnQuery)
  /-- ATTN_PAGE_SERVED (R327): A serving array finishes scoring a KV page into a partial. -/
  | attnPageServed (src : Nat) (op : Nat) (grp : Nat) (k : Nat) (a : Fin 16) (near : List LineMedia) (bulk : List LineMedia)
  /-- ATTN_GROUP_DONE (R328): A group's partials are merged and sent back as ATTN_PARTIAL. -/
  | attnGroupDone (src : Nat) (op : Nat) (grp : Nat)
  /-- ATTN_PARTIAL (R329): An ATTN_PARTIAL arrives and its record is written, or it is discarded as a duplicate. -/
  | attnPartial (p : AttnPartial)
  /-- ATTN_COMPLETE (R330): Every record is written and acknowledged; the attention request completes. -/
  | attnComplete (op : Nat)
  /-- DISPATCH_RUNNING (R337): A dispatch enters RUNNING, translates its areas and copies the expert table. -/
  | dispatchRunning (op : Nat)
  /-- ROUTING_DONE (R338): The routing logits are computed and each token's choices are selected. -/
  | routingDone (op : Nat) (media : List LineMedia)
  /-- TAIL_FETCH_ANSWER (R340): A tail or spill counter fetch ADD returns; a slot is allocated or the overflow policy applies. -/
  | tailFetchAnswer (op : Nat) (how : AnsHow) (data : List Byte)
  /-- DISPATCH_COMPLETE (R344): Every route entry is written and acknowledged; the dispatch completes. -/
  | dispatchComplete (op : Nat)
  /-- FRAME_ARRIVE (R382): A frame's header slot leaves an input crossing; its route is looked up and it joins a VOQ. -/
  | frameArrive (inp : Fin 35) (f : Frame) (tie : Nat)
  /-- FRAME_DEPART (R386): An output grants a VOQ head and the frame departs on a channel. -/
  | frameDepart (out : Fin 35) (inp : Fin 35) (cls : Fin 4) (channel : Nat)
  /-- SPILL_RETURN (R384): Spilled frames return to the head cache in VOQ order as the head drains. -/
  | spillReturn (inp : Fin 35) (out : Fin 35) (cls : Fin 4)
  /-- BOUNCE_RECEIVE (R393): A bounce reaches its source engine, which resends the frame at once. -/
  | bounceReceive (b : BounceMsg)
  /-- RTE_LOAD (R422): An RTE_LOAD message writes entries of a RETIRED bank. -/
  | rteLoad (src : Nat) (bank : Bool) (entries : List (Nat × Nat))
  /-- ROUTE_ENTRY_WRITE (R422): A register write of a route entry takes effect only in a RETIRED bank. -/
  | routeEntryWrite (m : Master) (page : Nat) (off : Nat) (v : W32)
  /-- ARM (R422): ARM sets a bank ARMED with flip time T. -/
  | arm (c : Cmd (Bool × Nat))
  /-- DISARM (R422): DISARM returns an ARMED bank to RETIRED. -/
  | disarm (c : Cmd Bool)
  /-- RTE_PORT_ROLE_WRITE (R405): A write of RTE_PORT_ROLE sets a port's role, group and dateline while its link is down. -/
  | rtePortRoleWrite (m : Master) (p : Fin 24) (v : W32)
  /-- RTE_CFG_WRITE (R421): A write of RTE_CFG sets deadlock mode while every link is down, and bias and drain time. -/
  | rteCfgWrite (m : Master) (v : W32)
  /-- ANSWER_RECEIVE (R486): A source engine receives an answer, completes its request and updates its congestion window. -/
  | answerReceive (a : Ans)
  /-- LINK_ENABLE (R436): A write of ENABLE = 1 moves a port from DOWN to DETECT. -/
  | linkEnable (m : Master) (p : Fin 28) (v : W32)
  /-- LINK_DISABLE (R436): A write of ENABLE = 0 takes a port to DOWN. -/
  | linkDisable (m : Master) (p : Fin 28) (v : W32)
  /-- DETECT_TIMER (R436): Every 1 ms in DETECT, the port sends the wake tone and training pattern. -/
  | detectTimer (p : Fin 28)
  /-- PARTNER_DETECTED (R436): The partner's tone or training pattern is seen and the port enters TRAIN. -/
  | partnerDetected (p : Fin 28)
  /-- TRAIN_COMPLETE (R436): Lanes are adapted and the port enters ALIGN. -/
  | trainComplete (p : Fin 28) (r : Trained) (reversed : Bool)
  /-- ALIGN_COMPLETE (R439): Codeword and flit lock are reached at the chosen width and the port enters PARAM. -/
  | alignComplete (p : Fin 28) (partnerHealthy : Nat) (partnerMax : Nat)
  /-- PARAM (R438): A PARAM message arrives; credits load and the link goes UP. -/
  | linkParam (p : Fin 28) (a : ParamMsg)
  /-- TRAINING_BOUND_EXCEEDED (R437): A training or retrain bound is exceeded and the port goes DOWN. -/
  | trainingBoundExceeded (p : Fin 28)
  /-- LOSS_OF_SIGNAL (R436): Every active lane lacks signal or lock for 1 µs and the link goes DOWN. -/
  | lossOfSignal (p : Fin 28)
  /-- LANE_FAILURE (R440): A lane loses lock or exceeds its error rate and the link enters RETRAIN. -/
  | laneFailure (p : Fin 28) (lane : Nat)
  /-- RETRAIN_COMPLETE (R436): A retraining link realigns on remaining lanes and resumes by replay. -/
  | retrainComplete (p : Fin 28) (far : FarLanes)
  /-- FLIT_RECEIVE (R450): A flit arrives and is accepted, discarded or NAKed, with its ACK and grants taken. -/
  | flitReceive (p : Fin 28) (f : FlitMsg)
  /-- NAK_REPEAT (R450): A receiver waiting for a replay sends NAK again every 1 µs. -/
  | nakRepeat (p : Fin 28)
  /-- REPLAY_TIMER (R451): Buffered flits see no ACK progress for TIMER_NS and are replayed, or the link retrains. -/
  | replayTimer (p : Fin 28)
  /-- RETRAIN_REQ (R447): A RETRAIN_REQ message arrives and the receiver enters RETRAIN. -/
  | retrainReq (p : Fin 28)
  /-- WIDTH_REQ (R441): A WIDTH_REQ message arrives and the width exchange proceeds. -/
  | widthReq (p : Fin 28) (width : Nat) (mask : Nat)
  /-- WIDTH_ACK (R441): A WIDTH_ACK message arrives naming the new width and the switch sequence. -/
  | widthAck (p : Fin 28) (width : Nat) (mask : Nat) (atSeq : Nat)
  /-- PRT_WIDTH_CMD (R441): A write of PRT_WIDTH_CMD.GO sends WIDTH_REQ, or is dropped. -/
  | prtWidthCmd (m : Master) (p : Fin 28) (v : W32)
  /-- AUTO_WIDEN_TIMER (R441): A failed lane has been in SLACK for 1 s and AUTO_WIDEN sends WIDTH_REQ. -/
  | autoWidenTimer (p : Fin 28)
  /-- WIDEN_ABANDON (R441): Added lanes fail to adapt within 50 µs and the widening is abandoned. -/
  | widenAbandon (p : Fin 28)
  /-- EYE_SCAN_GO (R453): A write of PHY_EYE_CMD.GO starts an eye scan. -/
  | eyeScanGo (m : Master) (page : Nat) (v : W32)
  /-- EYE_SCAN_STOP (R453): A write of PHY_EYE_CMD.STOP aborts an eye scan. -/
  | eyeScanStop (m : Master) (page : Nat) (v : W32)
  /-- REQUEST_TIMEOUT (R485): A request's timeout window ends unanswered; it completes with TIMEOUT or NODE_LOST. -/
  | requestTimeout (eng : Nat) (tag : Nat)
  /-- RETRANSMIT_TIMER (R492): A request's retransmit window ends unanswered and it is sent again. -/
  | retransmitTimer (eng : Nat) (tag : Nat)
  /-- RESYNC_DRAIN_DONE (R496): The engine's writes to the destination are answered or timed out and it sends ORDER_RESYNC. -/
  | resyncDrainDone (eng : Nat) (dest : Nat)
  /-- ORDER_RESYNC_RETRY (R496): ORDER_RESYNC_DONE has not arrived within RETX_US and ORDER_RESYNC is sent again. -/
  | orderResyncRetry (eng : Nat) (dest : Nat)
  /-- ORDER_RESYNC (R497): A home takes ORDER_RESYNC and quarantines or re-answers the pair. -/
  | orderResync (node : Nat) (src : Nat) (eng : Nat) (rseq : Nat)
  /-- QUARANTINE_END (R497): A pair's quarantine window ends; it returns to NORMAL with EXPECT 0 and ORDER_RESYNC_DONE is sent. -/
  | quarantineEnd (node : Nat) (src : Nat) (eng : Nat)
  /-- ORDER_RESYNC_DONE (R496): The source receives ORDER_RESYNC_DONE, zeroes its manifest counter and releases held writes. -/
  | orderResyncDone (eng : Nat) (dest : Nat) (rseq : Nat)
  /-- FATAL_ERROR (R483): A FATAL error makes the package fail-stop within 1 µs. -/
  | fatalError (page : Nat) (code : Nat)
  /-- RCV_NODE_LOST (R500): RCV_NODE_LOST marks a node lost, breaks its pairs and aborts its collectives. -/
  | rcvNodeLost (c : Cmd NodeGen)
  /-- RCV_NODE_FOUND (R500): RCV_NODE_FOUND clears a node's lost bit. -/
  | rcvNodeFound (c : Cmd NodeGen)
  /-- RCV_SOURCE_RESET (R501): RCV_SOURCE_RESET returns every order-table entry of a source node to NORMAL with EXPECT 0. -/
  | rcvSourceReset (c : Cmd NodeGen)
  /-- SLIPWAY_TRANSIT (R502): SLIPWAY(TRANSIT) makes a package a spare that only switches transit traffic. -/
  | slipwayTransit (c : Cmd Nat)
  /-- SLIPWAY_SERVING (R504): SLIPWAY(SERVING, g, T) schedules the package's return to service at T. -/
  | slipwayServing (c : Cmd (Nat × Nat))
  /-- RCV_CFG_WRITE (R494): A write of RCV_CFG or RCV_RETX is applied unless it breaks the timeout relations. -/
  | rcvCfgWrite (m : Master) (retx : Bool) (v : W32)
  /-- KEY_LOAD (R519): KEY_LOAD unwraps a tenant key into the STAGED slot, or is refused and counted. -/
  | keyLoad (k : KeyLoadMsg)
  /-- STAGED_CLEAR (R519): STAGED_CLEAR zeroises the STAGED key slot. -/
  | stagedClear (c : Cmd Unit)
  /-- ASSIGN (R521): ASSIGN moves the staged key to ACTIVE and sets the ticket. -/
  | assign (c : Cmd Nat)
  /-- CLOSE (R521): CLOSE makes landings refuse new work and rings stop fetching. -/
  | close (c : Cmd Unit)
  /-- BUMP (R522): BUMP sets the ticket to 0, retires scoreboard entries and opens the drain window. -/
  | bump (c : Cmd Unit)
  /-- SCRUB (R527): SCRUB starts an overwrite scrub of both tiers. -/
  | scrub (c : Cmd Unit)
  /-- SVN_COMMIT (R532): SVN_COMMIT raises the fused SVN floor to the running image's SVN. -/
  | svnCommit (m : Master)
  /-- GET_VERSION (R534): The SPDM Responder answers GET_VERSION. -/
  | getVersion (mctp : Bool)
  /-- GET_CAPABILITIES (R534): The SPDM Responder answers GET_CAPABILITIES. -/
  | getCapabilities (mctp : Bool) (version : Nat)
  /-- NEGOTIATE_ALGORITHMS (R534): The SPDM Responder answers NEGOTIATE_ALGORITHMS. -/
  | negotiateAlgorithms (mctp : Bool) (offered : Nat)
  /-- GET_DIGESTS (R534): The SPDM Responder returns its certificate digests. -/
  | getDigests (mctp : Bool)
  /-- GET_MEASUREMENTS (R535): The SPDM Responder returns signed measurement blocks. -/
  | getMeasurements (mctp : Bool) (index : Nat) (nonce : Nat)
  /-- KEY_EXCHANGE (R534): The SPDM Responder starts a secured session by ECDHE. -/
  | keyExchange (mctp : Bool) (share : Nat) (rootDigest : Nat) (mutualAuth : Bool) (good : Bool)
  /-- FINISH (R534): The SPDM Responder completes session establishment. -/
  | finish (session : Nat) (good : Bool)
  /-- TIME_SYNC (R544): A package takes TIME_SYNC and answers with TIME_SYNC_REPLY if locked or root. -/
  | timeSync (port : Fin 24) (t1 : Nat)
  /-- TIME_SYNC_REPLY (R544): A TIME_SYNC_REPLY arrives; offset and delay are computed and the servo acts. -/
  | timeSyncReply (r : SyncReply)
  /-- SET (R548): TIME_CMD SET loads the tide counter from TIME_SET. -/
  | timeSet (m : Master) (v : W32)
  /-- SET_AT_PPS (R548): TIME_CMD SET_AT_PPS arms a load of TIME_SET at the next PPS edge. -/
  | timeSetAtPps (m : Master) (v : W32)
  /-- REACQUIRE (R546): TIME_CMD REACQUIRE returns a LOCKED or HOLDOVER package to ACQUIRE. -/
  | reacquire (m : Master) (v : W32)
  /-- TIME_ROOT_WRITE (R546): A write of TIME_CFG.ROOT makes a package root or moves it to HOLDOVER. -/
  | timeRootWrite (m : Master) (v : W32)
  /-- TIME_NOW_LO_READ (R542): A read of TIME_NOW_LO latches the whole tide value. -/
  | timeNowLoRead (m : Master)
  /-- IDLE (R561): PWR_CMD IDLE turns off every idle array pair. -/
  | idle (m : Master) (v : W32)
  /-- MOOR (R562): PWR_CMD MOOR from the host starts MOORED entry with step E1. -/
  | moor (m : Master) (v : W32)
  /-- WAKE_SOURCE (R566): An enabled wake source is captured, aborting entry or waking from MOORED. -/
  | wakeSource (k : WakeKind)
  /-- WAKE (R566): PWR_CMD WAKE over the sideband acts as a wake source. -/
  | wake (m : Master) (v : W32)
  /-- CAP_WRITE (R568): A write of PWR_CAP.CAP_W orders a new power cap. -/
  | capWrite (m : Master) (v : W32)
  /-- LIMIT_STROBE (R568): A rising edge of LIMIT_STROBE samples PWR_LIMIT and orders a cap. -/
  | limitStrobe (code : Fin 64)
  /-- THERMAL_READING (R575): Every 10 µs the hottest junction is read and the thermal cap applied or withdrawn. -/
  | thermalReading (tj : Nat)
  /-- TELEMETRY_WINDOW_END (R576): A power averaging window ends; AVG_W and PEAK_W update and the cap loop acts. -/
  | telemetryWindowEnd (watts : Nat)
  /-- PEAK_CLR (R576): A write of PWR_AVG.PEAK_CLR sets PEAK_W to 0. -/
  | peakClr (m : Master) (v : W32)
  /-- PWR_ENERGY_LO_READ (R577): A read of PWR_ENERGY_LO latches both halves of the energy count. -/
  | pwrEnergyLoRead (m : Master) (mj : Nat)
  /-- PWR_DOM_REQ_WRITE (R558): A write of PWR_DOM_REQ holds domains off or releases them. -/
  | pwrDomReqWrite (m : Master) (v : W32)
  /-- RESET_N_RELEASE (R583): RESET_N is released; registers clear, tide time zeroes, keys zeroise and straps are sampled. -/
  | resetNRelease (tray : Nat) (slot : Nat)
  /-- BOOT_STAGE_COMPLETE (R586): A boot stage completes and the next begins, or the package fails. -/
  | bootStageComplete (w : BootWork)
  /-- JOIN (R590): A write of GLB_JOIN_CMD.GO executes domain join with the GLB_JOIN values. -/
  | join (m : Master) (v : W32)
  /-- EOFF_N (R593): EOFF_N is asserted and the package stops writes and idles transmitters until power is removed. -/
  | eoffN (ns : Nat)
  /-- PWRFAIL_N (R594): PWRFAIL_N falls and the warning is recorded and captured. -/
  | pwrfailN (low : Bool)
  /-- REG_READ (R611): A sideband REG_READ returns a register value. -/
  | regRead (a : Nat)
  /-- REG_WRITE (R611): A sideband REG_WRITE writes a register with the management core as master. -/
  | regWrite (a : Nat) (v : W32)
  /-- MSG (R611): A sideband MSG carries SPDM over MCTP. -/
  | sidebandMsg (m : SpdmMsg)
  /-- FM_REG_READ (R612): A CTRL REG_READ is answered with REG_REPLY. -/
  | fmRegRead (src : Nat) (a : Nat) (size : Nat)
  /-- FM_REG_WRITE (R612): A CTRL REG_WRITE writes a register with the fabric manager as master and is answered with REG_REPLY. -/
  | fmRegWrite (src : Nat) (a : Nat) (size : Nat) (v : Nat)
  /-- FMQ_GO (R615): A write of MGMT_FMQ_CMD.GO queues the staged fabric-manager message. -/
  | fmqGo (m : Master) (v : W32)
  /-- FMQ_RECEIVE (R615): A message for the fabric manager is written into the receive ring, or counted MISSED. -/
  | fmqReceive (bytes : List Byte)
  /-- WIDENING_LANES_READY (R441): The lanes added by a widening finish adapting on the training pattern, and the side sends WIDTH_ACK naming the new width and AT_SEQ. -/
  | wideningLanesReady (p : Fin 28)
  /-- CONFIGURATION_REQUEST (R587): A PCI Express configuration request arrives and is answered with Request Retry Status until MEMTRAIN, and served after that. -/
  | configurationRequest (q : CfgReq)
  /-- FLT_RING_CFG_WRITE (R113): A write of FLT_RING_CFG.ENABLE from 0 to 1 sets PROD and CONS to 0 and lets the ring's waiting batches leave the coalescing table. -/
  | fltRingCfgWrite (m : Master) (ring : Fin 16) (v : W32)
  /-- LND_CFG_WRITE (R480): A write of LND_CFG that clears RC_EN removes every read-cache line, clears WC_EN to close every open block into writes, or changes HOST_FIRST. -/
  | lndCfgWrite (m : Master) (n : Fin 4) (v : W32)
  /-- LND_RANK_DATA_WRITE (R295): A write of LND_RANK_DATA stores the rank-table entry at INDEX and then increments INDEX. -/
  | lndRankDataWrite (m : Master) (n : Fin 4) (v : W32)
  /-- CORRECTION_WRITEBACK (R172): A corrected bulk line and its check burst are written back unless the line was written since. -/
  | correctionWriteback (line : Nat)
  /-- REFRESH (R174): A controller refreshes a bank of an LPDDR5X device. -/
  | refresh (device : Fin 12) (bank : Nat)
  /-- WAKE_TONE_DETECT (R456): A lane detector recognises the wake tone after 1 µs. -/
  | wakeToneDetect (p : Fin 28) (lane : Nat)
  /-- EYE_POINT_DONE (R454): An eye-scan point reaches its dwell or error limit and its record is written. -/
  | eyePointDone (page : Nat) (errors : Nat) (compared : Nat)
  /-- DEBUG_UNLOCK (R537): An authenticated debug unlock zeroises both key slots and erases the tenancy. -/
  | debugUnlock (authentic : Bool)
  /-- GET_CERTIFICATE (R534): The SPDM Responder returns its slot 0 certificate chain. -/
  | getCertificate (mctp : Bool) (slot : Nat) (off : Nat) (len : Nat)
  /-- CHALLENGE (R534): The SPDM Responder answers CHALLENGE with a signature. -/
  | challenge (mctp : Bool) (slot : Nat) (nonce : Nat)
  /-- HEARTBEAT (R534): The SPDM Responder answers a session HEARTBEAT. -/
  | heartbeat (session : Nat)
  /-- KEY_UPDATE (R534): The SPDM Responder updates session keys. -/
  | keyUpdate (session : Nat)
  /-- END_SESSION (R534): The SPDM Responder ends a secured session. -/
  | endSession (session : Nat)
  /-- CORE_UV (R49): VDD_CORE stays below 0.55 V for 1 µs; CORE_UV is recorded and the core is held as in reset. -/
  | coreUv
  /-- WALK_START (R90): A queued translation miss takes a free walker and starts its walk. -/
  | walkStart
  /-- INVALIDATION_COMPLETE (R100): An invalidation has removed its entries and every matching walk has ended. -/
  | invalidationComplete
  /-- PERST_N_ASSERT (R584): PERST_N falls; the PCI Express controller and PCIE page reset and host writes are dropped. -/
  | perstNAssert
  /-- PERST_N_RELEASE (R587): PERST_N rises and the controller starts link training. -/
  | perstNRelease
  /-- SNAPSHOT_COMPLETE (R191): The last record of a snapshot is visible; BUSY clears and DONE_COUNT increments. -/
  | snapshotComplete
  /-- MIRROR_SEND (R399): A capture record leaves the mirror buffer for the analysis port or the host ring. -/
  | mirrorSend
  /-- BANK_FLIP (R423): Tide time reaches T; the ARMED bank becomes ACTIVE and the other DRAINING. -/
  | bankFlip
  /-- BANK_RETIRE (R422): A DRAINING bank reaches T + DRAIN_US and becomes RETIRED, releasing held frames. -/
  | bankRetire
  /-- SERVING_AT_T (R504): Tide time reaches T and the package's stage becomes SERVING. -/
  | servingAtT
  /-- TRAINED_REACHED (R592): Join, a live port and time lock hold together and the stage moves to TRAINED. -/
  | trainedReached
  /-- DRAIN_COMPLETE (R524): Every drain counter reaches zero; the tenancy enters ERASING and the key is zeroised. -/
  | drainComplete
  /-- DRAIN_WINDOW_END (R524): The 10 ms drain window ends and the tenancy enters ERASING with DRAIN_EXPIRED set. -/
  | drainWindowEnd
  /-- ERASE_COMPLETE (R526): Plaintext state is cleared; the package reaches VACANT and sends TENANT_VACANT. -/
  | eraseComplete
  /-- SCRUB_COMPLETE (R527): The overwrite scrub finishes and SCRUBBED is set. -/
  | scrubComplete
  /-- TIME_SYNC_SEND (R544): Every SYNC_INTERVAL a disciplined package sends TIME_SYNC upstream. -/
  | timeSyncSend
  /-- EXCHANGE_TIMEOUT (R545): No reply arrives within 4 × SYNC_INTERVAL and the exchange is discarded. -/
  | exchangeTimeout
  /-- PPS_IN_EDGE (R551): A rising edge of TIME_PPS_IN is captured and the root steers its rate. -/
  | ppsInEdge
  /-- PPS_MISSED (R551): No PPS edge comes within 1.5 s and PPS_MISSED is counted. -/
  | ppsMissed
  /-- PPS_OUT_EDGE (R550): TIME_PPS_OUT rises at each whole second of tide time. -/
  | ppsOutEdge
  /-- MGMT_HEARTBEAT (R614): At each whole millisecond, MGMT_HEARTBEAT increments while firmware runs. -/
  | mgmtHeartbeat
  /-- MOOR_QUIESCED (R563): The E1 drain counters reach zero and entry proceeds to E2. -/
  | moorQuiesced
  /-- MOOR_STEP_COMPLETE (R563): An entry step E2-E5 completes and the next starts, or MOORED is reached. -/
  | moorStepComplete
  /-- MOOR_ENTRY_TIMEOUT (R563): E1 exceeds 10 ms and entry is undone with TIMEOUT. -/
  | moorEntryTimeout
  /-- MOOR_EXIT_COMPLETE (R567): Exit steps finish and the package returns to ACTIVE. -/
  | moorExitComplete
  /-- VSET_REACHED (R571): VDD_CORE reaches its new setpoint and throttling is adjusted. -/
  | vsetReached
  /-- BRAKE_ASSERT (R574): PWR_BRAKE_N falls and arrays, BULK frames and issue stop. -/
  | brakeAssert
  /-- BRAKE_RELEASE (R574): PWR_BRAKE_N rises and work resumes. -/
  | brakeRelease
  /-- RESET_N_ASSERT (R583): RESET_N is asserted and the package goes OFF with transmitters high-impedance. -/
  | resetNAssert
  /-- VDD_AON_LOSS (R560): VDD_AON is lost and all register state is lost. -/
  | vddAonLoss
  /-- FMQ_SEND (R615): A queued fabric-manager message is stamped and sent in GO order. -/
  | fmqSend
  /-- TIDE_HOLD_END (R546): In ACQUIRE, upstream time reaches the held tide counter, which resumes advancing, and the 16-exchange lock count starts. -/
  | tideHoldEnd
  deriving DecidableEq, Repr

end Sys2Proof
end

