-- ==== Sys2Proof/Decode.lean ====
section
/-!
DEFINITION. Words of the opcode table. Every row of the table is a command that is given by its operands: no row has bits,
so no word spells one.
-/
namespace Sys2Proof

/-- The command that `nbits` bits `w` spell by the table's bits: none, since no row of the table gives bits. -/
def decodeTableWord (_nbits _w : Nat) : Option Instr := none

end Sys2Proof
end

