-- ==== Sys2Proof/Machine/Bits.lean ====
section
/-!
DEFINITION. Bit fields, byte order and small list helpers: how a field [msb:lsb] is read out of a word and put
back, how bytes make a little-endian number (R5), saturating counts.
-/
namespace Sys2Proof.Machine

/-- `f n`, in a form that evaluates `n` before `f`: long folds over numbers stay cheap to evaluate. -/
def strict {α : Type} (n : Nat) (f : Nat → α) : α :=
  match n with
  | 0 => f 0
  | k + 1 => f (k + 1)

/-- The field of width `w` whose least significant bit is bit `lo`. -/
def bits (n lo w : Nat) : Nat := n / 2 ^ lo % 2 ^ w

/-- Bit `i` of `n`. -/
def bit (n i : Nat) : Bool := n / 2 ^ i % 2 == 1

/-- `n` with the field of width `w` at `lo` replaced by `v` (cut to the width). -/
def putBits (n lo w v : Nat) : Nat := n - bits n lo w * 2 ^ lo + (v % 2 ^ w) * 2 ^ lo

/-- `n` with bit `i` set to `b`. -/
def putBit (n i : Nat) (b : Bool) : Nat := putBits n i 1 (if b then 1 else 0)

/-- Bytes read as one little-endian number (R5). -/
def leNat : List Byte → Nat
  | [] => 0
  | b :: bs => b.toNat + 256 * leNat bs

/-- The `k` low bytes of `n`, least significant first (R5). -/
def natLE : Nat → Nat → List Byte
  | 0, _ => []
  | k + 1, n => BitVec.ofNat 8 n :: natLE k (n / 256)

/-- A number read as two's complement of width `w`. -/
def toSigned (w n : Nat) : Int := if n % 2 ^ w < 2 ^ (w - 1) then (n % 2 ^ w : Nat) else ((n % 2 ^ w : Nat) : Int) - 2 ^ w

/-- An integer wrapped into `w` bits of two's complement. -/
def ofSigned (w : Nat) (i : Int) : Nat := (i % (2 ^ w : Nat)).toNat

/-- `n` plus `k`, saturating at the largest value of width `w`. -/
def satAdd (w n k : Nat) : Nat := min (n + k) (2 ^ w - 1)

/-- `b` as a number. -/
def b2n (b : Bool) : Nat := if b then 1 else 0

/-- The bytes of `l` from `off`, exactly `len` of them, zero where `l` has none. -/
def sliceBytes (l : List Byte) (off len : Nat) : List Byte :=
  let m := (l.drop off).take len
  m ++ List.replicate (len - m.length) 0

/-- `l` with the bytes from `off` on overwritten by `v`, its length kept. -/
def overlay (l : List Byte) (off : Nat) (v : List Byte) : List Byte :=
  (l.take off ++ v ++ l.drop (off + v.length)).take l.length

/-- Byte-wise exclusive OR of two lists of one length (R202, R204). -/
def xorBytes (a b : List Byte) : List Byte := List.zipWith (· ^^^ ·) a b

/-- The number of set bits among the low `w` bits. -/
def popCount : Nat → Nat → Nat
  | 0, _ => 0
  | w + 1, n => n % 2 + popCount w (n / 2)

/-- Index of the lowest set bit among the low `w` bits, if any. -/
def lowestBit (w n : Nat) : Option Nat := (List.range w).find? (fun i => bit n i)

/-- `n` divided by `d`, rounded up. -/
def ceilDiv (n d : Nat) : Nat := (n + d - 1) / d

/-- The first element of `l` that `p` accepts, with `l` without it. -/
def takeFirst {α : Type} (p : α → Bool) : List α → Option (α × List α)
  | [] => none
  | x :: xs => if p x then some (x, xs) else (takeFirst p xs).map (fun r => (r.1, x :: r.2))

/-- `l` with its first element that `p` accepts replaced by `f` of it. -/
def mapFirst {α : Type} (p : α → Bool) (f : α → α) : List α → List α
  | [] => []
  | x :: xs => if p x then f x :: xs else x :: mapFirst p f xs

/-- `l` with element `i` replaced by `f` of it. -/
def modAt {α : Type} (f : α → α) : List α → Nat → List α
  | [], _ => []
  | x :: xs, 0 => f x :: xs
  | x :: xs, i + 1 => x :: modAt f xs i

/-- Element `i`, or `d` beyond the end. -/
def nth {α : Type} (l : List α) (i : Nat) (d : α) : α := (l[i]?).getD d

/-- The smallest number below `n` that is not in `l`, if any. -/
def firstFree (n : Nat) (l : List Nat) : Option Nat := (List.range n).find? (fun i => !l.contains i)

end Sys2Proof.Machine
end

