-- ==== Sys2Proof/Machine/Regs.lean ====
section
/-!
DEFINITION. The registers of BAR0 as data: one `Fld` for each field of each register table of the spec, with its
page, offset, bits, access code (R7), reset value and reserved encodings (R9). The tables are those of R39, R104,
R113, R147, R166, R176, R191, R230, R291, R295, R319, R346, R377, R402, R403, R429, R430, R459-R461, R480, R481,
R487, R488, R507, R511, R512, R539, R555, R578, R600, R603, R614 and R617; the pages are those of R601.
-/
namespace Sys2Proof.Machine

/-- The access codes of R7. -/
inductive Access where
  | rw | ro | wo | rw1c | rws | rwo
  deriving DecidableEq, Repr

/-- The values of a field that are no reserved encodings (R9). DESIGN CHOICE (log entry 68): a value outside the range that a register's table
states for a field counts as one. -/
inductive Rsv where
  | none
  | allow (lo hi : Nat)
  | oneOf (vs : List Nat)
  deriving DecidableEq, Repr

/-- One field of a register: the first page of its kind, how many pages carry it, its offset in the page, the
stride and count where the register is repeated, its bits, access, reset value and reserved encodings. -/
structure Fld where
  page : Nat
  pages : Nat
  off : Nat
  stride : Nat
  count : Nat
  lo : Nat
  w : Nat
  acc : Access
  rst : Nat
  rsv : Rsv
  deriving DecidableEq, Repr

/-- Whether the field accepts `v`, that is, `v` is no reserved encoding of it (R9). -/
def Fld.accepts (f : Fld) (v : Nat) : Bool :=
  match f.rsv with
  | .none => true
  | .allow lo hi => decide (lo ≤ v) && decide (v ≤ hi)
  | .oneOf vs => vs.contains v

/-- The page offset of number `i` of the field's register. -/
def Fld.at (f : Fld) (i : Nat) : Nat := f.off + f.stride * i

/-- Whether the field stands at page offset `off`. -/
def Fld.here (f : Fld) (off : Nat) : Bool :=
  (List.range f.count).any (fun i => f.at i == off)

/-! ### The common header (R39, R487, R488, R507, R603) -/
def F.BLK_ERR_CAP0_VALID : Fld := ⟨0, 4096, 0x20, 0, 1, 0, 1, .rw1c, 0, .none⟩
def F.BLK_ERR_CAP0_OVERFLOW : Fld := ⟨0, 4096, 0x20, 0, 1, 1, 1, .ro, 0, .none⟩
def F.BLK_ERR_CAP0_CLASS : Fld := ⟨0, 4096, 0x20, 0, 1, 2, 2, .ro, 0, .none⟩
def F.BLK_ERR_CAP0_STATUS : Fld := ⟨0, 4096, 0x20, 0, 1, 4, 4, .ro, 0, .none⟩
def F.BLK_ERR_CAP0_CODE : Fld := ⟨0, 4096, 0x20, 0, 1, 8, 8, .ro, 0, .none⟩
def F.BLK_ERR_CAP0_PORT : Fld := ⟨0, 4096, 0x20, 0, 1, 16, 6, .ro, 0x3f, .none⟩
def F.BLK_ERR_CAP1_DETAIL_LO : Fld := ⟨0, 4096, 0x24, 0, 1, 0, 32, .ro, 0, .none⟩
def F.BLK_ERR_CAP2_DETAIL_HI : Fld := ⟨0, 4096, 0x28, 0, 1, 0, 32, .ro, 0, .none⟩
def F.BLK_ERR_CAP3_TIME_LO : Fld := ⟨0, 4096, 0x2c, 0, 1, 0, 32, .ro, 0, .none⟩
def F.BLK_ID_TYPE : Fld := ⟨0, 4096, 0, 0, 1, 0, 8, .ro, 0, .none⟩
def F.BLK_ID_INSTANCE : Fld := ⟨0, 4096, 0, 0, 1, 8, 8, .ro, 0, .none⟩
def F.BLK_ID_LAYOUT : Fld := ⟨0, 4096, 0, 0, 1, 16, 8, .ro, 1, .none⟩
def F.BLK_CAP_COUNTERS : Fld := ⟨0, 4096, 4, 0, 1, 0, 8, .ro, 0, .none⟩
def F.BLK_CAP_QUIESCE_OK : Fld := ⟨0, 4096, 4, 0, 1, 8, 1, .ro, 0, .none⟩
def F.BLK_CAP_SRST_OK : Fld := ⟨0, 4096, 4, 0, 1, 9, 1, .ro, 0, .none⟩
def F.BLK_CAP_EXT_CNT : Fld := ⟨0, 4096, 4, 0, 1, 10, 1, .ro, 0, .none⟩
def F.BLK_CTRL_ENABLE : Fld := ⟨0, 4096, 0xc, 0, 1, 0, 1, .rwo, 1, .none⟩
def F.BLK_CTRL_QUIESCE : Fld := ⟨0, 4096, 0xc, 0, 1, 1, 1, .rwo, 0, .none⟩
def F.BLK_CTRL_SOFT_RESET : Fld := ⟨0, 4096, 0xc, 0, 1, 2, 1, .wo, 0, .none⟩
def F.BLK_CTRL_CNT_FREEZE : Fld := ⟨0, 4096, 0xc, 0, 1, 3, 1, .rwo, 0, .none⟩
def F.BLK_CTRL_CNT_CLEAR : Fld := ⟨0, 4096, 0xc, 0, 1, 4, 1, .wo, 0, .none⟩
def F.BLK_STAT_QUIESCED : Fld := ⟨0, 4096, 0x10, 0, 1, 0, 1, .ro, 0, .none⟩
def F.BLK_STAT_DISABLED : Fld := ⟨0, 4096, 0x10, 0, 1, 1, 1, .ro, 0, .none⟩
def F.BLK_STAT_SRST_BUSY : Fld := ⟨0, 4096, 0x10, 0, 1, 2, 1, .ro, 0, .none⟩
def F.BLK_STAT_CNT_FROZEN : Fld := ⟨0, 4096, 0x10, 0, 1, 3, 1, .ro, 0, .none⟩
def F.BLK_STAT_BLOCK : Fld := ⟨0, 4096, 0x10, 0, 1, 8, 24, .ro, 0, .none⟩
def F.BLK_ISR_EVENT : Fld := ⟨0, 4096, 0x14, 0, 1, 0, 24, .rw1c, 0, .none⟩
def F.BLK_ISR_ERRCAP : Fld := ⟨0, 4096, 0x14, 0, 1, 31, 1, .rw1c, 0, .none⟩
def F.BLK_IER_EVENT_EN : Fld := ⟨0, 4096, 0x18, 0, 1, 0, 24, .rwo, 0, .none⟩
def F.BLK_IER_ALERT : Fld := ⟨0, 4096, 0x18, 0, 1, 30, 1, .rwo, 0, .none⟩
def F.BLK_IER_ERRCAP_EN : Fld := ⟨0, 4096, 0x18, 0, 1, 31, 1, .rwo, 0, .none⟩
def F.BLK_ITR_EVENT : Fld := ⟨0, 4096, 0x1c, 0, 1, 0, 24, .wo, 0, .none⟩
def F.BLK_ITR_ERRCAP : Fld := ⟨0, 4096, 0x1c, 0, 1, 31, 1, .wo, 0, .none⟩
def F.BLK_OWNER_OWNER : Fld := ⟨0, 4096, 8, 0, 1, 0, 2, .rwo, 0, .none⟩
def F.BLK_ERR_CNT_ERRORS : Fld := ⟨0, 4096, 0x30, 0, 1, 0, 16, .rw, 0, .none⟩
def F.BLK_ERR_CNT_CORRECTED : Fld := ⟨0, 4096, 0x30, 0, 1, 16, 16, .rw, 0, .none⟩
def F.BLK_PACE_PACE : Fld := ⟨0, 4096, 0x34, 0, 1, 0, 12, .ro, 0, .none⟩
def F.BLK_PACE_PACE_LOW : Fld := ⟨0, 4096, 0x34, 0, 1, 16, 12, .ro, 0xfff, .none⟩
def F.BLK_PACE_LOW_CLR : Fld := ⟨0, 4096, 0x34, 0, 1, 31, 1, .wo, 0, .none⟩

/-! ### Page GLB -/
def F.GLB_STRAP_TRAY : Fld := ⟨0, 1, 0x100, 0, 1, 0, 6, .ro, 0, .none⟩
def F.GLB_STRAP_SLOT : Fld := ⟨0, 1, 0x100, 0, 1, 6, 1, .ro, 0, .none⟩
def F.GLB_BOOT_STAT_STAGE : Fld := ⟨0, 1, 0x104, 0, 1, 0, 3, .ro, 0, .none⟩
def F.GLB_BOOT_STAT_READY_MS : Fld := ⟨0, 1, 0x104, 0, 1, 16, 16, .ro, 0, .none⟩
def F.GLB_JOIN_XCODE : Fld := ⟨0, 1, 0x108, 0, 1, 0, 2, .rwo, 0, .allow 0 2⟩
def F.GLB_JOIN_Y : Fld := ⟨0, 1, 0x108, 0, 1, 2, 5, .rwo, 0, .allow 1 16⟩
def F.GLB_JOIN_X_POS : Fld := ⟨0, 1, 0x108, 0, 1, 7, 3, .rwo, 0, .none⟩
def F.GLB_JOIN_Y_POS : Fld := ⟨0, 1, 0x108, 0, 1, 10, 4, .rwo, 0, .none⟩
def F.GLB_JOIN_NODE : Fld := ⟨0, 1, 0x108, 0, 1, 14, 7, .rwo, 0, .none⟩
def F.GLB_JOIN_CMD_GO : Fld := ⟨0, 1, 0x10c, 0, 1, 31, 1, .wo, 0, .none⟩
def F.GLB_JOIN_STAT_RESULT : Fld := ⟨0, 1, 0x110, 0, 1, 0, 2, .ro, 0, .none⟩
def F.GLB_JOIN_STAT_JOINED : Fld := ⟨0, 1, 0x110, 0, 1, 2, 1, .ro, 0, .none⟩
def F.GLB_PIN_STAT_PWRFAIL : Fld := ⟨0, 1, 0x114, 0, 1, 0, 1, .ro, 0, .none⟩
def F.GLB_PIN_STAT_PWRFAIL_SEEN : Fld := ⟨0, 1, 0x114, 0, 1, 1, 1, .rw1c, 0, .none⟩
def F.GLB_PIN_STAT_EOFF : Fld := ⟨0, 1, 0x114, 0, 1, 2, 1, .ro, 0, .none⟩
def F.GLB_PIN_STAT_PERST : Fld := ⟨0, 1, 0x114, 0, 1, 3, 1, .ro, 0, .none⟩

/-! ### Page PWR -/
def F.PWR_CFG_PIN_EN : Fld := ⟨1, 1, 0x100, 0, 1, 0, 1, .rwo, 1, .none⟩
def F.PWR_CFG_NARROW_EN : Fld := ⟨1, 1, 0x100, 0, 1, 1, 1, .rwo, 1, .none⟩
def F.PWR_CFG_AVG_100US : Fld := ⟨1, 1, 0x100, 0, 1, 8, 8, .rwo, 0xa, .allow 1 255⟩
def F.PWR_CFG_ARR_IDLE_US : Fld := ⟨1, 1, 0x100, 0, 1, 16, 8, .rwo, 0x40, .none⟩
def F.PWR_CFG_THROTTLE_C : Fld := ⟨1, 1, 0x100, 0, 1, 24, 7, .rwo, 0x64, .allow 80 110⟩
def F.PWR_CAP_CAP_W : Fld := ⟨1, 1, 0x104, 0, 1, 0, 10, .rwo, 0x3b6, .none⟩
def F.PWR_STAT_STATE : Fld := ⟨1, 1, 0x108, 0, 1, 0, 3, .ro, 0, .none⟩
def F.PWR_STAT_BRAKE : Fld := ⟨1, 1, 0x108, 0, 1, 3, 1, .ro, 0, .none⟩
def F.PWR_STAT_CAP_STATUS : Fld := ⟨1, 1, 0x108, 0, 1, 4, 4, .ro, 0, .none⟩
def F.PWR_STAT_CAP_SRC : Fld := ⟨1, 1, 0x108, 0, 1, 8, 2, .ro, 0, .none⟩
def F.PWR_STAT_CAP_EFF : Fld := ⟨1, 1, 0x108, 0, 1, 10, 10, .ro, 0x3b6, .none⟩
def F.PWR_STAT_THROTTLE : Fld := ⟨1, 1, 0x108, 0, 1, 20, 3, .ro, 0, .none⟩
def F.PWR_STAT_VSET : Fld := ⟨1, 1, 0x108, 0, 1, 24, 2, .ro, 0, .none⟩
def F.PWR_CMD_OP : Fld := ⟨1, 1, 0x10c, 0, 1, 0, 3, .rwo, 0, .allow 1 3⟩
def F.PWR_CMD_GO : Fld := ⟨1, 1, 0x10c, 0, 1, 31, 1, .wo, 0, .none⟩
def F.PWR_CMD_RESULT_RESULT : Fld := ⟨1, 1, 0x110, 0, 1, 0, 2, .ro, 0, .none⟩
def F.PWR_CMD_RESULT_STATUS : Fld := ⟨1, 1, 0x110, 0, 1, 4, 4, .ro, 0, .none⟩
def F.PWR_RETAIN_NG : Fld := ⟨1, 1, 0x114, 0, 1, 0, 4, .rwo, 1, .none⟩
def F.PWR_RETAIN_DEV : Fld := ⟨1, 1, 0x114, 0, 1, 16, 12, .rwo, 0, .none⟩
def F.PWR_WAKE_EN_LANE : Fld := ⟨1, 1, 0x118, 0, 1, 0, 1, .rwo, 1, .none⟩
def F.PWR_WAKE_EN_PCIE : Fld := ⟨1, 1, 0x118, 0, 1, 1, 1, .rwo, 1, .none⟩
def F.PWR_WAKE_SRC_SOURCE : Fld := ⟨1, 1, 0x11c, 0, 1, 0, 2, .ro, 0, .none⟩
def F.PWR_WAKE_SRC_DURING_ENTRY : Fld := ⟨1, 1, 0x11c, 0, 1, 2, 1, .ro, 0, .none⟩
def F.PWR_WAKE_SRC_PORT : Fld := ⟨1, 1, 0x11c, 0, 1, 4, 6, .ro, 0x3f, .none⟩
def F.PWR_WAKE_SRC_LANE : Fld := ⟨1, 1, 0x11c, 0, 1, 10, 4, .ro, 0, .none⟩
def F.PWR_WAKE_TIME_LO_T_LO : Fld := ⟨1, 1, 0x120, 0, 1, 0, 32, .ro, 0, .none⟩
def F.PWR_WAKE_TIME_HI_T_HI : Fld := ⟨1, 1, 0x124, 0, 1, 0, 32, .ro, 0, .none⟩
def F.PWR_DOM_REQ_REQ : Fld := ⟨1, 1, 0x128, 0, 1, 0, 30, .rwo, 0x3fffffff, .none⟩
def F.PWR_DOM_STAT_ON : Fld := ⟨1, 1, 0x12c, 0, 1, 0, 30, .ro, 0, .none⟩
def F.PWR_AVG_AVG_W : Fld := ⟨1, 1, 0x130, 0, 1, 0, 11, .ro, 0, .none⟩
def F.PWR_AVG_PEAK_W : Fld := ⟨1, 1, 0x130, 0, 1, 16, 11, .ro, 0, .none⟩
def F.PWR_AVG_PEAK_CLR : Fld := ⟨1, 1, 0x130, 0, 1, 31, 1, .wo, 0, .none⟩
def F.PWR_ENERGY_LO_MJ_LO : Fld := ⟨1, 1, 0x134, 0, 1, 0, 32, .ro, 0, .none⟩
def F.PWR_ENERGY_HI_MJ_HI : Fld := ⟨1, 1, 0x138, 0, 1, 0, 32, .ro, 0, .none⟩
def F.PWR_TEMP_TJ : Fld := ⟨1, 1, 0x13c, 0, 1, 0, 8, .ro, 0, .none⟩
def F.PWR_TEMP_TJ_PEAK : Fld := ⟨1, 1, 0x13c, 0, 1, 8, 8, .ro, 0, .none⟩

/-! ### Page TIME -/
def F.TIME_CFG_ROOT : Fld := ⟨2, 1, 0x100, 0, 1, 0, 1, .rwo, 0, .none⟩
def F.TIME_CFG_PPS_OUT_EN : Fld := ⟨2, 1, 0x100, 0, 1, 1, 1, .rwo, 0, .none⟩
def F.TIME_CFG_PPS_IN_EN : Fld := ⟨2, 1, 0x100, 0, 1, 2, 1, .rwo, 0, .none⟩
def F.TIME_CFG_UPSTREAM : Fld := ⟨2, 1, 0x100, 0, 1, 8, 5, .rwo, 0, .allow 0 23⟩
def F.TIME_CFG_UP_EN : Fld := ⟨2, 1, 0x100, 0, 1, 13, 1, .rwo, 0, .none⟩
def F.TIME_CFG_SYNC_INTERVAL : Fld := ⟨2, 1, 0x100, 0, 1, 16, 8, .rwo, 8, .allow 1 255⟩
def F.TIME_STAT_STATE : Fld := ⟨2, 1, 0x104, 0, 1, 0, 3, .ro, 0, .none⟩
def F.TIME_STAT_STEPPED : Fld := ⟨2, 1, 0x104, 0, 1, 3, 1, .rw1c, 0, .none⟩
def F.TIME_OFFSET_OFFSET : Fld := ⟨2, 1, 0x108, 0, 1, 0, 32, .ro, 0, .none⟩
def F.TIME_DELAY_DELAY : Fld := ⟨2, 1, 0x10c, 0, 1, 0, 32, .ro, 0, .none⟩
def F.TIME_RATE_RATE : Fld := ⟨2, 1, 0x110, 0, 1, 0, 32, .ro, 0, .none⟩
def F.TIME_NOW_LO_NS_LO : Fld := ⟨2, 1, 0x118, 0, 1, 0, 32, .ro, 0, .none⟩
def F.TIME_NOW_HI_NS_HI : Fld := ⟨2, 1, 0x11c, 0, 1, 0, 32, .ro, 0, .none⟩
def F.TIME_NOW_FRAC_FRAC : Fld := ⟨2, 1, 0x120, 0, 1, 0, 8, .ro, 0, .none⟩
def F.TIME_SET_LO_NS_LO : Fld := ⟨2, 1, 0x128, 0, 1, 0, 32, .rwo, 0, .none⟩
def F.TIME_SET_HI_NS_HI : Fld := ⟨2, 1, 0x12c, 0, 1, 0, 32, .rwo, 0, .none⟩
def F.TIME_SET_FRAC_FRAC : Fld := ⟨2, 1, 0x130, 0, 1, 0, 8, .rwo, 0, .none⟩
def F.TIME_CMD_OP : Fld := ⟨2, 1, 0x134, 0, 1, 0, 2, .rwo, 0, .allow 1 3⟩
def F.TIME_CMD_GO : Fld := ⟨2, 1, 0x134, 0, 1, 31, 1, .wo, 0, .none⟩
def F.TIME_CMD_RESULT_RESULT : Fld := ⟨2, 1, 0x138, 0, 1, 0, 2, .ro, 0, .none⟩
def F.TIME_PPS_CAP_LO_NS_LO : Fld := ⟨2, 1, 0x140, 0, 1, 0, 32, .ro, 0, .none⟩
def F.TIME_PPS_CAP_HI_NS_HI : Fld := ⟨2, 1, 0x144, 0, 1, 0, 32, .ro, 0, .none⟩
def F.TIME_PPS_CAP_FRAC_FRAC : Fld := ⟨2, 1, 0x148, 0, 1, 0, 8, .ro, 0, .none⟩
def F.TIME_ASYM_ASYM : Fld := ⟨2, 1, 0x200, 4, 24, 0, 16, .rwo, 0, .none⟩

/-! ### Page SEC -/
def F.SEC_TENANT_TICKET : Fld := ⟨3, 1, 0x100, 0, 1, 0, 4, .ro, 0, .none⟩
def F.SEC_TENANT_STATE : Fld := ⟨3, 1, 0x100, 0, 1, 4, 3, .ro, 0, .none⟩
def F.SEC_TENANT_STAGED : Fld := ⟨3, 1, 0x100, 0, 1, 7, 1, .ro, 0, .none⟩
def F.SEC_KEY_ID_ACTIVE_ID : Fld := ⟨3, 1, 0x104, 0, 1, 0, 32, .ro, 0, .none⟩
def F.SEC_STAGED_ID_STAGED_ID : Fld := ⟨3, 1, 0x108, 0, 1, 0, 32, .ro, 0, .none⟩
def F.SEC_CMD_ARG_TICKET : Fld := ⟨3, 1, 0x110, 0, 1, 0, 4, .rwo, 0, .none⟩
def F.SEC_CMD_OP : Fld := ⟨3, 1, 0x114, 0, 1, 0, 3, .rwo, 0, .allow 1 6⟩
def F.SEC_CMD_GO : Fld := ⟨3, 1, 0x114, 0, 1, 31, 1, .wo, 0, .none⟩
def F.SEC_CMD_RESULT_RESULT : Fld := ⟨3, 1, 0x118, 0, 1, 0, 2, .ro, 0, .none⟩
def F.SEC_RETIRE_STAT_DRAIN_EXPIRED : Fld := ⟨3, 1, 0x11c, 0, 1, 0, 1, .ro, 0, .none⟩
def F.SEC_RETIRE_STAT_SCRUBBED : Fld := ⟨3, 1, 0x11c, 0, 1, 1, 1, .ro, 0, .none⟩
def F.SEC_RETIRE_STAT_PROGRESS : Fld := ⟨3, 1, 0x11c, 0, 1, 16, 10, .ro, 0, .none⟩
def F.SEC_VACANT_TIME_LO_T_LO : Fld := ⟨3, 1, 0x120, 0, 1, 0, 32, .ro, 0, .none⟩
def F.SEC_VACANT_TIME_HI_T_HI : Fld := ⟨3, 1, 0x124, 0, 1, 0, 32, .ro, 0, .none⟩
def F.SEC_KA_ROOT_DIGEST : Fld := ⟨3, 1, 0x130, 4, 12, 0, 32, .rwo, 0, .none⟩
def F.SEC_BOOT_STAT_IMAGE : Fld := ⟨3, 1, 0x160, 0, 1, 0, 2, .ro, 0, .none⟩
def F.SEC_BOOT_STAT_KEY_INDEX : Fld := ⟨3, 1, 0x160, 0, 1, 2, 2, .ro, 0, .none⟩
def F.SEC_BOOT_STAT_DEBUG_UNLOCKED : Fld := ⟨3, 1, 0x160, 0, 1, 4, 1, .ro, 0, .none⟩
def F.SEC_BOOT_STAT_SVN : Fld := ⟨3, 1, 0x160, 0, 1, 16, 16, .ro, 0, .none⟩
def F.SEC_SVN_FLOOR_FLOOR : Fld := ⟨3, 1, 0x164, 0, 1, 0, 16, .ro, 0, .none⟩
def F.SEC_SVN_FLOOR_REVOKED : Fld := ⟨3, 1, 0x164, 0, 1, 16, 4, .ro, 0, .none⟩

/-! ### Page MGMT -/
def F.MGMT_FW_VERSION_PATCH : Fld := ⟨4, 1, 0x100, 0, 1, 0, 8, .ro, 0, .none⟩
def F.MGMT_FW_VERSION_MINOR : Fld := ⟨4, 1, 0x100, 0, 1, 8, 8, .ro, 0, .none⟩
def F.MGMT_FW_VERSION_MAJOR : Fld := ⟨4, 1, 0x100, 0, 1, 16, 8, .ro, 0, .none⟩
def F.MGMT_HEARTBEAT_COUNT : Fld := ⟨4, 1, 0x104, 0, 1, 0, 32, .ro, 0, .none⟩
def F.MGMT_SMB_ADDR : Fld := ⟨4, 1, 0x108, 0, 1, 0, 7, .rwo, 0x60, .allow 8 119⟩
def F.MGMT_FM_CFG_FM_EN : Fld := ⟨4, 1, 0x10c, 0, 1, 0, 1, .rwo, 0, .none⟩
def F.MGMT_FM_NODES_NODES : Fld := ⟨4, 1, 0x110, 4, 4, 0, 32, .rwo, 0, .none⟩
def F.MGMT_FMQ_TX_WORD : Fld := ⟨4, 1, 0x200, 4, 12, 0, 32, .rw, 0, .none⟩
def F.MGMT_FMQ_CMD_SLOTS : Fld := ⟨4, 1, 0x230, 0, 1, 0, 2, .rw, 0, .allow 0 2⟩
def F.MGMT_FMQ_CMD_GO : Fld := ⟨4, 1, 0x230, 0, 1, 31, 1, .wo, 0, .none⟩
def F.MGMT_FMQ_STAT_PENDING : Fld := ⟨4, 1, 0x234, 0, 1, 0, 4, .ro, 0, .none⟩
def F.MGMT_FMQ_STAT_SENT : Fld := ⟨4, 1, 0x234, 0, 1, 16, 16, .ro, 0, .none⟩
def F.MGMT_FMQ_RX_BASE_LO_BASE_LO : Fld := ⟨4, 1, 0x240, 0, 1, 12, 20, .rw, 0, .none⟩
def F.MGMT_FMQ_RX_BASE_HI_BASE_HI : Fld := ⟨4, 1, 0x244, 0, 1, 0, 32, .rw, 0, .none⟩
def F.MGMT_FMQ_RX_CFG_ENABLE : Fld := ⟨4, 1, 0x248, 0, 1, 0, 1, .rw, 0, .none⟩
def F.MGMT_FMQ_RX_CFG_INT_EN : Fld := ⟨4, 1, 0x248, 0, 1, 1, 1, .rw, 0, .none⟩
def F.MGMT_FMQ_RX_CFG_LOG2_SIZE : Fld := ⟨4, 1, 0x248, 0, 1, 4, 5, .rw, 6, .allow 6 16⟩
def F.MGMT_FMQ_RX_CFG_VECTOR : Fld := ⟨4, 1, 0x248, 0, 1, 16, 11, .rw, 0, .none⟩
def F.MGMT_FMQ_RX_PROD_PROD : Fld := ⟨4, 1, 0x24c, 0, 1, 0, 32, .ro, 0, .none⟩
def F.MGMT_FMQ_RX_CONS_CONS : Fld := ⟨4, 1, 0x250, 0, 1, 0, 32, .rw, 0, .none⟩
def F.MGMT_FMQ_RX_STAT_MISSED : Fld := ⟨4, 1, 0x254, 0, 1, 0, 16, .ro, 0, .none⟩

/-! ### Page LND -/
def F.LND_FENCE_CMD_CONTEXT : Fld := ⟨0x10, 4, 0x180, 0, 1, 0, 8, .rwo, 0, .none⟩
def F.LND_FENCE_CMD_GO : Fld := ⟨0x10, 4, 0x180, 0, 1, 31, 1, .wo, 0, .none⟩
def F.LND_FENCE_STAT_PENDING : Fld := ⟨0x10, 4, 0x184, 0, 1, 0, 3, .ro, 0, .none⟩
def F.LND_FENCE_STAT_ERR_SEEN : Fld := ⟨0x10, 4, 0x184, 0, 1, 3, 1, .rw1c, 0, .none⟩
def F.LND_FENCE_STAT_DONE_COUNT : Fld := ⟨0x10, 4, 0x184, 0, 1, 16, 16, .ro, 0, .none⟩
def F.LND_RANK_CTX_CONTEXT : Fld := ⟨0x10, 4, 0x200, 0, 1, 0, 8, .rwo, 0, .none⟩
def F.LND_RANK_WIN_BASE : Fld := ⟨0x10, 4, 0x204, 0, 1, 0, 14, .rwo, 0, .none⟩
def F.LND_RANK_WIN_SIZE : Fld := ⟨0x10, 4, 0x204, 0, 1, 16, 15, .rwo, 0, .none⟩
def F.LND_RANK_ADDR_INDEX : Fld := ⟨0x10, 4, 0x208, 0, 1, 0, 14, .rwo, 0, .none⟩
def F.LND_RANK_DATA_ENTRY : Fld := ⟨0x10, 4, 0x20c, 0, 1, 0, 16, .rwo, 0, .none⟩
def F.LNDL_CFG_ENABLE : Fld := ⟨0x10, 4, 0x300, 0, 1, 0, 1, .rwo, 0, .none⟩
def F.LNDL_CFG_MAX_WIDTH : Fld := ⟨0x10, 4, 0x300, 0, 1, 1, 3, .rwo, 4, .allow 0 4⟩
def F.LNDL_CFG_AUTO_WIDEN : Fld := ⟨0x10, 4, 0x300, 0, 1, 4, 1, .rwo, 1, .none⟩
def F.LNDL_CFG_LANE_DISABLE : Fld := ⟨0x10, 4, 0x300, 0, 1, 16, 16, .rwo, 0, .none⟩
def F.LNDL_STAT_STATE : Fld := ⟨0x10, 4, 0x304, 0, 1, 0, 3, .ro, 0, .none⟩
def F.LNDL_STAT_WIDTH : Fld := ⟨0x10, 4, 0x304, 0, 1, 3, 5, .ro, 0, .none⟩
def F.LNDL_STAT_REVERSED : Fld := ⟨0x10, 4, 0x304, 0, 1, 8, 1, .ro, 0, .none⟩
def F.LNDL_STAT_LANE_MAP : Fld := ⟨0x10, 4, 0x304, 0, 1, 16, 16, .ro, 0, .none⟩
def F.LNDL_WIDTH_CMD_WIDTH : Fld := ⟨0x10, 4, 0x30c, 0, 1, 0, 5, .rwo, 0, .oneOf [1, 2, 4, 8, 16]⟩
def F.LNDL_WIDTH_CMD_LANE_MASK : Fld := ⟨0x10, 4, 0x30c, 0, 1, 15, 16, .rwo, 0, .none⟩
def F.LNDL_WIDTH_CMD_GO : Fld := ⟨0x10, 4, 0x30c, 0, 1, 31, 1, .wo, 0, .none⟩
def F.LNDL_CREDIT0_REQ : Fld := ⟨0x10, 4, 0x310, 0, 1, 0, 14, .rwo, 0x1000, .allow 34 16383⟩
def F.LNDL_CREDIT0_RSP : Fld := ⟨0x10, 4, 0x310, 0, 1, 16, 14, .rwo, 0x1000, .allow 34 16383⟩
def F.LNDL_CREDIT1_BULK : Fld := ⟨0x10, 4, 0x314, 0, 1, 0, 14, .rwo, 0x2000, .allow 34 16383⟩
def F.LNDL_CREDIT1_CTRL : Fld := ⟨0x10, 4, 0x314, 0, 1, 16, 8, .rwo, 0xff, .allow 34 255⟩
def F.LNDL_CREDIT1_TOW : Fld := ⟨0x10, 4, 0x314, 0, 1, 24, 8, .rwo, 0x40, .allow 17 255⟩
def F.LNDL_REPLAY_CFG_TIMER_NS : Fld := ⟨0x10, 4, 0x318, 0, 1, 0, 12, .rwo, 0xc8, .allow 20 4095⟩
def F.LNDL_REPLAY_CFG_REPLAY_MAX : Fld := ⟨0x10, 4, 0x318, 0, 1, 12, 4, .rwo, 4, .allow 1 15⟩
def F.LNDL_LANES_SLACK_LANES : Fld := ⟨0x10, 4, 0x31c, 0, 1, 0, 16, .ro, 0xffff, .none⟩
def F.LNDL_LANES_FAILED_LANES : Fld := ⟨0x10, 4, 0x31c, 0, 1, 16, 16, .ro, 0, .none⟩
def F.LND_CFG_RC_EN : Fld := ⟨0x10, 4, 0x100, 0, 1, 0, 1, .rwo, 1, .none⟩
def F.LND_CFG_WC_EN : Fld := ⟨0x10, 4, 0x100, 0, 1, 1, 1, .rwo, 1, .none⟩
def F.LND_CFG_TIME_EN : Fld := ⟨0x10, 4, 0x100, 0, 1, 2, 1, .rwo, 1, .none⟩
def F.LND_CFG_HOST_FIRST : Fld := ⟨0x10, 1, 0x100, 0, 1, 8, 9, .rwo, 0x100, .allow 0 256⟩
def F.LNDL_PARTNER_NODE : Fld := ⟨0x10, 4, 0x308, 0, 1, 0, 12, .ro, 0, .none⟩
def F.LNDL_PARTNER_PORT : Fld := ⟨0x10, 4, 0x308, 0, 1, 12, 5, .ro, 0, .none⟩
def F.LNDL_PARTNER_ROLE : Fld := ⟨0x10, 4, 0x308, 0, 1, 17, 3, .ro, 0, .none⟩
def F.LNDL_PARTNER_GROUP : Fld := ⟨0x10, 4, 0x308, 0, 1, 20, 3, .ro, 0, .none⟩
def F.LNDL_PARTNER_VALID : Fld := ⟨0x10, 4, 0x308, 0, 1, 23, 1, .ro, 0, .none⟩

/-! ### Page PCIE -/
def F.PCIE_WIN_CFG_ENABLE : Fld := ⟨0x18, 1, 0x100, 0x10, 4, 0, 1, .rwo, 0, .none⟩
def F.PCIE_WIN_CFG_CONTEXT : Fld := ⟨0x18, 1, 0x100, 0x10, 4, 8, 8, .rwo, 0, .none⟩
def F.PCIE_WIN_BASE_LO_BASE_LO : Fld := ⟨0x18, 1, 0x104, 0x10, 4, 21, 11, .rwo, 0, .none⟩
def F.PCIE_WIN_BASE_HI_BASE_HI : Fld := ⟨0x18, 1, 0x108, 0x10, 4, 0, 25, .rwo, 0, .none⟩
def F.PCIE_WIN_STAT_LAST_STATUS : Fld := ⟨0x18, 1, 0x10c, 0x10, 4, 0, 4, .ro, 0, .none⟩
def F.PCIE_WIN_STAT_ERRORS : Fld := ⟨0x18, 1, 0x10c, 0x10, 4, 16, 16, .rw1c, 0, .none⟩

/-! ### Page XLT -/
def F.XLT_INV_ARG0_REGION : Fld := ⟨0x20, 1, 0x100, 0, 1, 0, 20, .rwo, 0, .none⟩
def F.XLT_INV_ARG1_FIRST_PAGE : Fld := ⟨0x20, 1, 0x104, 0, 1, 0, 23, .rwo, 0, .none⟩
def F.XLT_INV_ARG2_PAGE_COUNT : Fld := ⟨0x20, 1, 0x108, 0, 1, 0, 24, .rwo, 0, .allow 1 16777215⟩
def F.XLT_INV_CMD_KIND : Fld := ⟨0x20, 1, 0x10c, 0, 1, 0, 3, .rwo, 0, .allow 1 4⟩
def F.XLT_INV_CMD_CONTEXT : Fld := ⟨0x20, 1, 0x10c, 0, 1, 8, 8, .rwo, 0, .none⟩
def F.XLT_INV_CMD_GO : Fld := ⟨0x20, 1, 0x10c, 0, 1, 31, 1, .wo, 0, .none⟩
def F.XLT_INV_STAT_PENDING : Fld := ⟨0x20, 1, 0x110, 0, 1, 0, 5, .ro, 0, .none⟩
def F.XLT_INV_STAT_DONE_COUNT : Fld := ⟨0x20, 1, 0x110, 0, 1, 16, 16, .ro, 0, .none⟩

/-! ### Page FLT -/
def F.FLT_RING_BASE_LO_BASE_LO : Fld := ⟨0x21, 1, 0x100, 0x20, 16, 12, 20, .rwo, 0, .none⟩
def F.FLT_RING_BASE_HI_BASE_HI : Fld := ⟨0x21, 1, 0x104, 0x20, 16, 0, 32, .rwo, 0, .none⟩
def F.FLT_RING_CFG_ENABLE : Fld := ⟨0x21, 1, 0x108, 0x20, 16, 0, 1, .rwo, 0, .none⟩
def F.FLT_RING_CFG_LOG2_SIZE : Fld := ⟨0x21, 1, 0x108, 0x20, 16, 4, 5, .rwo, 6, .allow 6 16⟩
def F.FLT_RING_CFG_VECTOR : Fld := ⟨0x21, 1, 0x108, 0x20, 16, 16, 11, .rwo, 0, .none⟩
def F.FLT_RING_PROD_PROD : Fld := ⟨0x21, 1, 0x10c, 0x20, 16, 0, 32, .ro, 0, .none⟩
def F.FLT_RING_CONS_CONS : Fld := ⟨0x21, 1, 0x110, 0x20, 16, 0, 32, .rwo, 0, .none⟩
def F.FLT_RING_STAT_FULL : Fld := ⟨0x21, 1, 0x114, 0x20, 16, 0, 1, .ro, 0, .none⟩
def F.FLT_RING_STAT_OVERFLOW : Fld := ⟨0x21, 1, 0x114, 0x20, 16, 1, 1, .rw1c, 0, .none⟩

/-! ### Page HOME -/
def F.HOME_CMD_ARG0_INDEX : Fld := ⟨0x28, 1, 0x100, 0, 1, 0, 13, .rwo, 0, .none⟩
def F.HOME_CMD_ARG0_RES_STATE : Fld := ⟨0x28, 1, 0x100, 0, 1, 16, 1, .rwo, 0, .none⟩
def F.HOME_CMD_ARG0_CLASS : Fld := ⟨0x28, 1, 0x100, 0, 1, 17, 1, .rwo, 0, .none⟩
def F.HOME_CMD_ARG1_REGION : Fld := ⟨0x28, 1, 0x104, 0, 1, 0, 20, .rwo, 0, .none⟩
def F.HOME_CMD_ARG2_PAGES : Fld := ⟨0x28, 1, 0x108, 0, 1, 0, 24, .rwo, 0, .none⟩
def F.HOME_CMD_PT_LO_PT_LO : Fld := ⟨0x28, 1, 0x10c, 0, 1, 12, 20, .rwo, 0, .none⟩
def F.HOME_CMD_PT_HI_PT_HI : Fld := ⟨0x28, 1, 0x110, 0, 1, 0, 20, .rwo, 0, .none⟩
def F.HOME_CMD_OP : Fld := ⟨0x28, 1, 0x114, 0, 1, 0, 3, .rwo, 0, .allow 1 7⟩
def F.HOME_CMD_GO : Fld := ⟨0x28, 1, 0x114, 0, 1, 31, 1, .wo, 0, .none⟩
def F.HOME_CMD_RESULT_RESULT : Fld := ⟨0x28, 1, 0x118, 0, 1, 0, 2, .ro, 0, .none⟩
def F.HOME_CMD_RESULT_BUSY : Fld := ⟨0x28, 1, 0x118, 0, 1, 2, 1, .ro, 0, .none⟩
def F.HOME_CMD_RESULT_GRANT_GEN : Fld := ⟨0x28, 1, 0x118, 0, 1, 16, 16, .ro, 0, .none⟩
def F.HOME_BITMAP_CLR_GO : Fld := ⟨0x28, 1, 0x11c, 0, 1, 31, 1, .wo, 0, .none⟩
def F.HOME_REV_STAT_PENDING : Fld := ⟨0x28, 1, 0x120, 0, 1, 0, 5, .ro, 0, .none⟩
def F.HOME_REV_STAT_DONE_COUNT : Fld := ⟨0x28, 1, 0x120, 0, 1, 16, 16, .ro, 0, .none⟩
def F.HOME_REV_REC_WORD : Fld := ⟨0x28, 1, 0x124, 4, 4, 0, 32, .ro, 0, .none⟩
def F.HOME_BITMAP_BITS : Fld := ⟨0x28, 1, 0x200, 4, 64, 0, 32, .rwo, 0, .none⟩

/-! ### Page NEAR -/
def F.NEAR_ARB_W_HOME : Fld := ⟨0x29, 1, 0x100, 0, 1, 0, 4, .rwo, 4, .allow 1 15⟩
def F.NEAR_ARB_W_VOQ : Fld := ⟨0x29, 1, 0x100, 0, 1, 4, 4, .rwo, 2, .allow 1 15⟩
def F.NEAR_ARB_W_ARRAY : Fld := ⟨0x29, 1, 0x100, 0, 1, 8, 4, .rwo, 2, .allow 1 15⟩

/-! ### Page BULK -/
def F.BULK_CFG_INTERLEAVE : Fld := ⟨0x2a, 1, 0x100, 0, 1, 0, 1, .rws, 0, .none⟩
def F.BULK_CFG_SCRUB_HOURS : Fld := ⟨0x2a, 1, 0x100, 0, 1, 4, 8, .rwo, 0x18, .allow 0 168⟩

/-! ### Page PROT -/
def F.PROT_CFG_PARTNER : Fld := ⟨0x2b, 1, 0x100, 0, 1, 0, 7, .rwo, 0, .none⟩
def F.PROT_CFG_PARTNER_EN : Fld := ⟨0x2b, 1, 0x100, 0, 1, 7, 1, .rwo, 0, .none⟩
def F.PROT_CFG_ROLE : Fld := ⟨0x2b, 1, 0x100, 0, 1, 8, 2, .rwo, 0, .allow 0 1⟩
def F.PROT_CFG_ALIAS_NODE : Fld := ⟨0x2b, 1, 0x100, 0, 1, 16, 7, .ro, 0, .none⟩
def F.PROT_CFG_ALIAS_EN : Fld := ⟨0x2b, 1, 0x100, 0, 1, 23, 1, .ro, 0, .none⟩
def F.PROT_CFG_META_COPY : Fld := ⟨0x2b, 1, 0x100, 0, 1, 24, 8, .rwo, 0, .allow 1 159⟩
def F.PROT_GROUP_GROUP_EN : Fld := ⟨0x2b, 1, 0x104, 0, 1, 0, 1, .rwo, 0, .none⟩
def F.PROT_GROUP_POSITION : Fld := ⟨0x2b, 1, 0x104, 0, 1, 1, 4, .rwo, 0, .allow 0 8⟩
def F.PROT_GROUP_LOST : Fld := ⟨0x2b, 1, 0x104, 0, 1, 5, 9, .ro, 0, .none⟩
def F.PROT_MEMBERS0_M0 : Fld := ⟨0x2b, 1, 0x108, 0, 1, 0, 7, .rwo, 0, .none⟩
def F.PROT_MEMBERS0_M1 : Fld := ⟨0x2b, 1, 0x108, 0, 1, 8, 7, .rwo, 0, .none⟩
def F.PROT_MEMBERS0_M2 : Fld := ⟨0x2b, 1, 0x108, 0, 1, 16, 7, .rwo, 0, .none⟩
def F.PROT_MEMBERS0_M3 : Fld := ⟨0x2b, 1, 0x108, 0, 1, 24, 7, .rwo, 0, .none⟩
def F.PROT_MEMBERS1_M4 : Fld := ⟨0x2b, 1, 0x10c, 0, 1, 0, 7, .rwo, 0, .none⟩
def F.PROT_MEMBERS1_M5 : Fld := ⟨0x2b, 1, 0x10c, 0, 1, 8, 7, .rwo, 0, .none⟩
def F.PROT_MEMBERS1_M6 : Fld := ⟨0x2b, 1, 0x10c, 0, 1, 16, 7, .rwo, 0, .none⟩
def F.PROT_MEMBERS1_M7 : Fld := ⟨0x2b, 1, 0x10c, 0, 1, 24, 7, .rwo, 0, .none⟩
def F.PROT_MEMBERS2_M8 : Fld := ⟨0x2b, 1, 0x110, 0, 1, 0, 7, .rwo, 0, .none⟩
def F.PROT_REBUILD_RATE : Fld := ⟨0x2b, 1, 0x114, 0, 1, 0, 6, .rwo, 0xa, .allow 1 40⟩
def F.PROT_REBUILD_STAT_PHASE : Fld := ⟨0x2b, 1, 0x118, 0, 1, 0, 3, .ro, 0, .none⟩
def F.PROT_REBUILD_STAT_PROGRESS : Fld := ⟨0x2b, 1, 0x118, 0, 1, 16, 10, .ro, 0, .none⟩
def F.PROT_STALE_COUNT : Fld := ⟨0x2b, 1, 0x11c, 0, 1, 0, 11, .ro, 0, .none⟩
def F.PROT_BIND_ENTRY_ENTRY : Fld := ⟨0x2b, 1, 0x120, 0, 1, 0, 32, .rwo, 0, .none⟩
def F.PROT_BIND_CMD_EXTENT : Fld := ⟨0x2b, 1, 0x124, 0, 1, 0, 12, .rwo, 0, .none⟩
def F.PROT_BIND_CMD_GO : Fld := ⟨0x2b, 1, 0x124, 0, 1, 31, 1, .wo, 0, .none⟩
def F.PROT_BIND_RESULT_RESULT : Fld := ⟨0x2b, 1, 0x128, 0, 1, 0, 2, .ro, 0, .none⟩
def F.PROT_BIND_RESULT_BUSY : Fld := ⟨0x2b, 1, 0x128, 0, 1, 2, 1, .ro, 0, .none⟩

/-! ### Page SMP -/
def F.SMP_CFG_ENABLE : Fld := ⟨0x2c, 1, 0x100, 0, 1, 0, 1, .rwo, 0, .none⟩
def F.SMP_CFG_LOG2_N_BULK : Fld := ⟨0x2c, 1, 0x100, 0, 1, 8, 5, .rwo, 0xa, .allow 4 16⟩
def F.SMP_CFG_LOG2_N_NEAR : Fld := ⟨0x2c, 1, 0x100, 0, 1, 16, 5, .rwo, 0xa, .allow 4 16⟩
def F.SMP_SNAP_BASE_LO_BASE_LO : Fld := ⟨0x2c, 1, 0x104, 0, 1, 12, 20, .rwo, 0, .none⟩
def F.SMP_SNAP_BASE_HI_BASE_HI : Fld := ⟨0x2c, 1, 0x108, 0, 1, 0, 32, .rwo, 0, .none⟩
def F.SMP_SNAP_CMD_CLEAR : Fld := ⟨0x2c, 1, 0x10c, 0, 1, 0, 1, .rwo, 0, .none⟩
def F.SMP_SNAP_CMD_GO : Fld := ⟨0x2c, 1, 0x10c, 0, 1, 31, 1, .wo, 0, .none⟩
def F.SMP_SNAP_STAT_BUSY : Fld := ⟨0x2c, 1, 0x110, 0, 1, 0, 1, .ro, 0, .none⟩
def F.SMP_SNAP_STAT_DONE_COUNT : Fld := ⟨0x2c, 1, 0x110, 0, 1, 16, 16, .ro, 0, .none⟩
def F.SMP_SNAP_TIME_LO_TIME_LO : Fld := ⟨0x2c, 1, 0x118, 0, 1, 0, 32, .ro, 0, .none⟩
def F.SMP_SNAP_TIME_HI_TIME_HI : Fld := ⟨0x2c, 1, 0x11c, 0, 1, 0, 32, .ro, 0, .none⟩

/-! ### Page FRY -/
def F.FRY_SCB_CFG_CTX_MAX : Fld := ⟨0x30, 1, 0x800, 0, 1, 0, 13, .rwo, 0x400, .allow 1 4096⟩
def F.FRY_SCB_CFG_POLL_US : Fld := ⟨0x30, 1, 0x800, 0, 1, 16, 8, .rwo, 0xa, .allow 1 255⟩
def F.FRY_SCB_STAT_IN_USE : Fld := ⟨0x30, 1, 0x804, 0, 1, 0, 13, .ro, 0, .none⟩
def F.FRY_SCB_STAT_WAITING : Fld := ⟨0x30, 1, 0x804, 0, 1, 16, 13, .ro, 0, .none⟩
def F.FRY_SCB_WATCH_WATCHES : Fld := ⟨0x30, 1, 0x808, 0, 1, 0, 11, .ro, 0, .none⟩
def F.FRY_SUB_BASE_LO_BASE_LO : Fld := ⟨0x30, 4, 0x100, 0x40, 16, 12, 20, .rwo, 0, .none⟩
def F.FRY_SUB_BASE_HI_BASE_HI : Fld := ⟨0x30, 4, 0x104, 0x40, 16, 0, 32, .rwo, 0, .none⟩
def F.FRY_SUB_CFG_ENABLE : Fld := ⟨0x30, 4, 0x108, 0x40, 16, 0, 1, .rwo, 0, .none⟩
def F.FRY_SUB_CFG_HOST : Fld := ⟨0x30, 4, 0x108, 0x40, 16, 1, 1, .rwo, 0, .none⟩
def F.FRY_SUB_CFG_DB_HOST : Fld := ⟨0x30, 4, 0x108, 0x40, 16, 2, 1, .rwo, 0, .none⟩
def F.FRY_SUB_CFG_DB_FABRIC : Fld := ⟨0x30, 4, 0x108, 0x40, 16, 3, 1, .rwo, 0, .none⟩
def F.FRY_SUB_CFG_LOG2_SIZE : Fld := ⟨0x30, 4, 0x108, 0x40, 16, 4, 5, .rwo, 6, .allow 6 16⟩
def F.FRY_SUB_CFG_CONTEXT : Fld := ⟨0x30, 4, 0x108, 0x40, 16, 16, 8, .rwo, 0, .none⟩
def F.FRY_SUB_CFG_WEIGHT : Fld := ⟨0x30, 4, 0x108, 0x40, 16, 24, 4, .rwo, 1, .allow 1 15⟩
def F.FRY_SUB_CMP_CMP_RING : Fld := ⟨0x30, 4, 0x10c, 0x40, 16, 0, 6, .rwo, 0, .none⟩
def F.FRY_SUB_PROD_PROD : Fld := ⟨0x30, 4, 0x110, 0x40, 16, 0, 32, .ro, 0, .none⟩
def F.FRY_SUB_CONS_CONS : Fld := ⟨0x30, 4, 0x114, 0x40, 16, 0, 32, .ro, 0, .none⟩
def F.FRY_SUB_STAT_HALTED : Fld := ⟨0x30, 4, 0x118, 0x40, 16, 0, 1, .ro, 0, .none⟩
def F.FRY_SUB_STAT_HALT_STATUS : Fld := ⟨0x30, 4, 0x118, 0x40, 16, 1, 4, .ro, 0, .none⟩
def F.FRY_SUB_STAT_STALE_DB : Fld := ⟨0x30, 4, 0x118, 0x40, 16, 16, 16, .ro, 0, .none⟩
def F.FRY_CMP_BASE_LO_BASE_LO : Fld := ⟨0x30, 4, 0x500, 0x20, 16, 12, 20, .rwo, 0, .none⟩
def F.FRY_CMP_BASE_HI_BASE_HI : Fld := ⟨0x30, 4, 0x504, 0x20, 16, 0, 32, .rwo, 0, .none⟩
def F.FRY_CMP_CFG_ENABLE : Fld := ⟨0x30, 4, 0x508, 0x20, 16, 0, 1, .rwo, 0, .none⟩
def F.FRY_CMP_CFG_HOST : Fld := ⟨0x30, 4, 0x508, 0x20, 16, 1, 1, .rwo, 0, .none⟩
def F.FRY_CMP_CFG_INT_EN : Fld := ⟨0x30, 4, 0x508, 0x20, 16, 2, 1, .rwo, 0, .none⟩
def F.FRY_CMP_CFG_LOG2_SIZE : Fld := ⟨0x30, 4, 0x508, 0x20, 16, 4, 5, .rwo, 6, .allow 6 16⟩
def F.FRY_CMP_CFG_LANDING : Fld := ⟨0x30, 4, 0x508, 0x20, 16, 16, 2, .rwo, 0, .none⟩
def F.FRY_CMP_CFG_VECTOR : Fld := ⟨0x30, 4, 0x508, 0x20, 16, 20, 11, .rwo, 0, .none⟩
def F.FRY_CMP_PROD_PROD : Fld := ⟨0x30, 4, 0x50c, 0x20, 16, 0, 32, .ro, 0, .none⟩
def F.FRY_CMP_CONS_CONS : Fld := ⟨0x30, 4, 0x510, 0x20, 16, 0, 32, .ro, 0, .none⟩
def F.FRY_CMP_STAT_HALTED : Fld := ⟨0x30, 4, 0x514, 0x20, 16, 0, 1, .ro, 0, .none⟩
def F.FRY_CMP_STAT_HALT_STATUS : Fld := ⟨0x30, 4, 0x514, 0x20, 16, 1, 4, .ro, 0, .none⟩
def F.FRY_ENG_STAT_BUSY : Fld := ⟨0x30, 4, 0x700, 4, 8, 0, 1, .ro, 0, .none⟩
def F.FRY_ENG_STAT_CONTEXT : Fld := ⟨0x30, 4, 0x700, 4, 8, 8, 8, .ro, 0, .none⟩
def F.FRY_ENG_STAT_SUB_RING : Fld := ⟨0x30, 4, 0x700, 4, 8, 16, 6, .ro, 0, .none⟩

/-! ### Page PNT -/
def F.PNT_PROG_STAT_RESIDENT : Fld := ⟨0x40, 16, 0x100, 0, 1, 0, 4, .ro, 0, .none⟩
def F.PNT_PROG_STAT_IN_USE : Fld := ⟨0x40, 16, 0x100, 0, 1, 4, 4, .ro, 0, .none⟩
def F.PNT_PROG_STAT_CONTEXT : Fld := ⟨0x40, 16, 0x100, 0, 1, 8, 8, .ro, 0, .none⟩
def F.PNT_PROG_STAT_RUNNING : Fld := ⟨0x40, 16, 0x100, 0, 1, 16, 1, .ro, 0, .none⟩
def F.PNT_PROG_INV_CONTEXT : Fld := ⟨0x40, 16, 0x104, 0, 1, 0, 8, .rwo, 0, .none⟩
def F.PNT_PROG_INV_ALL : Fld := ⟨0x40, 16, 0x104, 0, 1, 8, 1, .rwo, 0, .none⟩
def F.PNT_PROG_INV_GO : Fld := ⟨0x40, 16, 0x104, 0, 1, 31, 1, .wo, 0, .none⟩

/-! ### Page COLL -/
def F.COLL_CFG_STEP_TIMEOUT_US : Fld := ⟨0x50, 1, 0x100, 0, 1, 0, 16, .rwo, 0x2710, .allow 1 65535⟩
def F.COLL_STAT_RUNNING : Fld := ⟨0x50, 1, 0x104, 0, 1, 0, 5, .ro, 0, .none⟩
def F.COLL_STAT_DONE_COUNT : Fld := ⟨0x50, 1, 0x104, 0, 1, 16, 16, .ro, 0, .none⟩
def F.COLL_ABORT_ID_ID : Fld := ⟨0x50, 1, 0x108, 0, 1, 0, 32, .ro, 0, .none⟩
def F.COLL_ABORT_INFO_STATUS : Fld := ⟨0x50, 1, 0x10c, 0, 1, 0, 4, .ro, 0, .none⟩
def F.COLL_ABORT_INFO_FAILED_RANK : Fld := ⟨0x50, 1, 0x10c, 0, 1, 8, 9, .ro, 0, .none⟩
def F.COLL_ABORT_INFO_FAILED_STEP : Fld := ⟨0x50, 1, 0x10c, 0, 1, 17, 10, .ro, 0, .none⟩
def F.COLL_ABORT_INFO_ORIGIN : Fld := ⟨0x50, 1, 0x10c, 0, 1, 31, 1, .ro, 0, .none⟩

/-! ### Page ATTN -/
def F.ATTN_CFG_SERVE_MASK : Fld := ⟨0x51, 1, 0x100, 0, 1, 0, 16, .rwo, 0xffff, .none⟩
def F.ATTN_STAT_SERVING : Fld := ⟨0x51, 1, 0x104, 0, 1, 0, 9, .ro, 0, .none⟩
def F.ATTN_STAT_DONE_COUNT : Fld := ⟨0x51, 1, 0x104, 0, 1, 16, 16, .ro, 0, .none⟩
def F.ATTN_REQ_RUNNING : Fld := ⟨0x51, 1, 0x108, 0, 1, 0, 5, .ro, 0, .none⟩

/-! ### Page DISP -/
def F.DISP_STAT_RUNNING : Fld := ⟨0x52, 1, 0x100, 0, 1, 0, 3, .ro, 0, .none⟩
def F.DISP_STAT_DONE_COUNT : Fld := ⟨0x52, 1, 0x100, 0, 1, 16, 16, .ro, 0, .none⟩

/-! ### Page SWC -/
def F.SWC_CFG_BUFMODE : Fld := ⟨0x60, 1, 0x100, 0, 1, 0, 1, .ro, 0, .none⟩
def F.SWC_CFG_PROTECT_AFTER : Fld := ⟨0x60, 1, 0x100, 0, 1, 2, 2, .rwo, 3, .allow 1 3⟩
def F.SWC_ARB_W_RSP : Fld := ⟨0x60, 1, 0x104, 0, 1, 0, 4, .rwo, 4, .allow 1 15⟩
def F.SWC_ARB_W_REQ : Fld := ⟨0x60, 1, 0x104, 0, 1, 4, 4, .rwo, 4, .allow 1 15⟩
def F.SWC_ARB_W_BULK : Fld := ⟨0x60, 1, 0x104, 0, 1, 8, 4, .rwo, 2, .allow 1 15⟩
def F.SWC_FLOOR_REQ : Fld := ⟨0x60, 1, 0x108, 0, 1, 0, 8, .rwo, 0x10, .none⟩
def F.SWC_FLOOR_RSP : Fld := ⟨0x60, 1, 0x108, 0, 1, 8, 8, .rwo, 0x10, .none⟩
def F.SWC_FLOOR_BULK : Fld := ⟨0x60, 1, 0x108, 0, 1, 16, 8, .rwo, 4, .none⟩
def F.SWC_FLOOR_CTRL : Fld := ⟨0x60, 1, 0x108, 0, 1, 24, 8, .rwo, 4, .none⟩
def F.SWC_PART_STAT_AVAIL : Fld := ⟨0x60, 1, 0x10c, 0, 1, 0, 15, .ro, 0x4000, .none⟩
def F.SWC_PART_STAT_USED : Fld := ⟨0x60, 1, 0x10c, 0, 1, 16, 15, .ro, 0, .none⟩
def F.SWC_LIMIT_A_REQ : Fld := ⟨0x60, 1, 0x200, 8, 35, 0, 16, .rwo, 0x40, .allow 1 65535⟩
def F.SWC_LIMIT_A_RSP : Fld := ⟨0x60, 1, 0x200, 8, 35, 16, 16, .rwo, 0x80, .allow 1 65535⟩
def F.SWC_LIMIT_B_BULK : Fld := ⟨0x60, 1, 0x204, 8, 35, 0, 16, .rwo, 0x100, .allow 1 65535⟩
def F.SWC_LIMIT_B_CTRL : Fld := ⟨0x60, 1, 0x204, 8, 35, 16, 16, .rwo, 8, .allow 1 65535⟩

/-! ### Page RTE -/
def F.RTE_CFG_MODE : Fld := ⟨0x61, 1, 0x100, 0, 1, 0, 1, .rwo, 0, .none⟩
def F.RTE_CFG_EXP_BIAS : Fld := ⟨0x61, 1, 0x100, 0, 1, 4, 4, .rwo, 2, .none⟩
def F.RTE_CFG_DRAIN_US : Fld := ⟨0x61, 1, 0x100, 0, 1, 16, 16, .rwo, 0x3e8, .allow 1 65535⟩
def F.RTE_BANK_ACTIVE : Fld := ⟨0x61, 1, 0x104, 0, 1, 0, 1, .ro, 0, .none⟩
def F.RTE_BANK_STATE_A : Fld := ⟨0x61, 1, 0x104, 0, 1, 4, 2, .ro, 2, .none⟩
def F.RTE_BANK_STATE_B : Fld := ⟨0x61, 1, 0x104, 0, 1, 6, 2, .ro, 0, .none⟩
def F.RTE_FLIP_TIME_LO_T_LO : Fld := ⟨0x61, 1, 0x108, 0, 1, 0, 32, .rwo, 0, .none⟩
def F.RTE_FLIP_TIME_HI_T_HI : Fld := ⟨0x61, 1, 0x10c, 0, 1, 0, 32, .rwo, 0, .none⟩
def F.RTE_CMD_OP : Fld := ⟨0x61, 1, 0x110, 0, 1, 0, 2, .rwo, 0, .allow 1 2⟩
def F.RTE_CMD_BANK : Fld := ⟨0x61, 1, 0x110, 0, 1, 2, 1, .rwo, 0, .none⟩
def F.RTE_CMD_GO : Fld := ⟨0x61, 1, 0x110, 0, 1, 31, 1, .wo, 0, .none⟩
def F.RTE_CMD_RESULT_RESULT : Fld := ⟨0x61, 1, 0x114, 0, 1, 0, 2, .ro, 0, .none⟩
def F.RTE_PORT_ROLE_ROLE : Fld := ⟨0x61, 1, 0x200, 4, 24, 0, 3, .rwo, 0, .allow 0 4⟩
def F.RTE_PORT_ROLE_GROUP : Fld := ⟨0x61, 1, 0x200, 4, 24, 4, 3, .rwo, 0, .none⟩
def F.RTE_PORT_ROLE_DATELINE : Fld := ⟨0x61, 1, 0x200, 4, 24, 7, 1, .rwo, 0, .none⟩

/-! ### Page CNG -/
def F.CNG_THRESH_T1 : Fld := ⟨0x68, 1, 0x100, 0, 1, 0, 10, .rwo, 0x10, .allow 1 1023⟩
def F.CNG_THRESH_T2 : Fld := ⟨0x68, 1, 0x100, 0, 1, 10, 10, .rwo, 0x40, .allow 1 1023⟩
def F.CNG_THRESH_T3 : Fld := ⟨0x68, 1, 0x100, 0, 1, 20, 10, .rwo, 0x100, .allow 1 1023⟩
def F.CNG_WIN_MAX : Fld := ⟨0x68, 1, 0x104, 0, 1, 0, 12, .rwo, 0x200, .allow 4 4095⟩
def F.CNG_WIN_MIN : Fld := ⟨0x68, 1, 0x104, 0, 1, 16, 12, .rwo, 4, .allow 4 4095⟩
def F.CNG_AIMD_ADD : Fld := ⟨0x68, 1, 0x108, 0, 1, 0, 8, .rwo, 4, .allow 1 255⟩
def F.CNG_AIMD_HOLD_NS : Fld := ⟨0x68, 1, 0x108, 0, 1, 16, 16, .rwo, 0x3e8, .allow 1 65535⟩

/-! ### Page MIR -/
def F.MIR_SESS_CFG_ENABLE : Fld := ⟨0x69, 1, 0x100, 0x20, 4, 0, 1, .rwo, 0, .none⟩
def F.MIR_SESS_CFG_INGRESS : Fld := ⟨0x69, 1, 0x100, 0x20, 4, 1, 1, .rwo, 0, .none⟩
def F.MIR_SESS_CFG_EGRESS : Fld := ⟨0x69, 1, 0x100, 0x20, 4, 2, 1, .rwo, 0, .none⟩
def F.MIR_SESS_CFG_EVICT : Fld := ⟨0x69, 1, 0x100, 0x20, 4, 3, 1, .rwo, 0, .none⟩
def F.MIR_SESS_CFG_CLASS_MASK : Fld := ⟨0x69, 1, 0x100, 0x20, 4, 4, 4, .rwo, 0, .none⟩
def F.MIR_SESS_CFG_PORT : Fld := ⟨0x69, 1, 0x100, 0x20, 4, 8, 6, .rwo, 0, .allow 0 34⟩
def F.MIR_SESS_CFG_PORT_ANY : Fld := ⟨0x69, 1, 0x100, 0x20, 4, 14, 1, .rwo, 0, .none⟩
def F.MIR_SESS_CFG_SNAP : Fld := ⟨0x69, 1, 0x100, 0x20, 4, 15, 2, .rwo, 0, .allow 0 2⟩
def F.MIR_SESS_CFG_DEST : Fld := ⟨0x69, 1, 0x100, 0x20, 4, 17, 1, .rwo, 0, .none⟩
def F.MIR_SESS_MATCH0_SRC_NODE : Fld := ⟨0x69, 1, 0x104, 0x20, 4, 0, 7, .rwo, 0, .none⟩
def F.MIR_SESS_MATCH0_SRC_MASK : Fld := ⟨0x69, 1, 0x104, 0x20, 4, 8, 7, .rwo, 0, .none⟩
def F.MIR_SESS_MATCH0_DST_NODE : Fld := ⟨0x69, 1, 0x104, 0x20, 4, 16, 7, .rwo, 0, .none⟩
def F.MIR_SESS_MATCH0_DST_MASK : Fld := ⟨0x69, 1, 0x104, 0x20, 4, 24, 7, .rwo, 0, .none⟩
def F.MIR_SESS_MATCH1_ENGINE : Fld := ⟨0x69, 1, 0x108, 0x20, 4, 0, 6, .rwo, 0, .none⟩
def F.MIR_SESS_MATCH1_ENGINE_MASK : Fld := ⟨0x69, 1, 0x108, 0x20, 4, 8, 6, .rwo, 0, .none⟩
def F.MIR_SESS_SEQ_SEQ : Fld := ⟨0x69, 1, 0x10c, 0x20, 4, 0, 32, .ro, 0, .none⟩
def F.MIR_DEST_PORT : Fld := ⟨0x69, 1, 0x180, 0, 1, 0, 5, .rwo, 0, .allow 0 23⟩
def F.MIR_DEST_PORT_EN : Fld := ⟨0x69, 1, 0x180, 0, 1, 7, 1, .rwo, 0, .none⟩
def F.MIR_RING_BASE_LO_BASE_LO : Fld := ⟨0x69, 1, 0x1a0, 0, 1, 12, 20, .rwo, 0, .none⟩
def F.MIR_RING_BASE_HI_BASE_HI : Fld := ⟨0x69, 1, 0x1a4, 0, 1, 0, 32, .rwo, 0, .none⟩
def F.MIR_RING_CFG_ENABLE : Fld := ⟨0x69, 1, 0x1a8, 0, 1, 0, 1, .rwo, 0, .none⟩
def F.MIR_RING_CFG_INT_EN : Fld := ⟨0x69, 1, 0x1a8, 0, 1, 1, 1, .rwo, 0, .none⟩
def F.MIR_RING_CFG_LOG2_SIZE : Fld := ⟨0x69, 1, 0x1a8, 0, 1, 4, 5, .rwo, 6, .allow 6 16⟩
def F.MIR_RING_CFG_VECTOR : Fld := ⟨0x69, 1, 0x1a8, 0, 1, 16, 11, .rwo, 0, .none⟩
def F.MIR_RING_PROD_PROD : Fld := ⟨0x69, 1, 0x1ac, 0, 1, 0, 32, .ro, 0, .none⟩
def F.MIR_RING_CONS_CONS : Fld := ⟨0x69, 1, 0x1b0, 0, 1, 0, 32, .rwo, 0, .none⟩
def F.MIR_RING_STAT_FULL : Fld := ⟨0x69, 1, 0x1b4, 0, 1, 0, 1, .ro, 0, .none⟩

/-! ### Page PRT -/
def F.PRT_CFG_ENABLE : Fld := ⟨0x80, 24, 0x100, 0, 1, 0, 1, .rwo, 0, .none⟩
def F.PRT_CFG_MAX_WIDTH : Fld := ⟨0x80, 24, 0x100, 0, 1, 1, 3, .rwo, 3, .allow 0 3⟩
def F.PRT_CFG_AUTO_WIDEN : Fld := ⟨0x80, 24, 0x100, 0, 1, 4, 1, .rwo, 1, .none⟩
def F.PRT_CFG_LANE_DISABLE : Fld := ⟨0x80, 24, 0x100, 0, 1, 8, 8, .rwo, 0, .none⟩
def F.PRT_STAT_STATE : Fld := ⟨0x80, 24, 0x104, 0, 1, 0, 3, .ro, 0, .none⟩
def F.PRT_STAT_WIDTH : Fld := ⟨0x80, 24, 0x104, 0, 1, 3, 4, .ro, 0, .none⟩
def F.PRT_STAT_REVERSED : Fld := ⟨0x80, 24, 0x104, 0, 1, 7, 1, .ro, 0, .none⟩
def F.PRT_STAT_LANE_MAP : Fld := ⟨0x80, 24, 0x104, 0, 1, 8, 8, .ro, 0, .none⟩
def F.PRT_STAT_SLACK_LANES : Fld := ⟨0x80, 24, 0x104, 0, 1, 16, 8, .ro, 0xff, .none⟩
def F.PRT_STAT_FAILED_LANES : Fld := ⟨0x80, 24, 0x104, 0, 1, 24, 8, .ro, 0, .none⟩
def F.PRT_PARTNER_NODE : Fld := ⟨0x80, 24, 0x108, 0, 1, 0, 12, .ro, 0, .none⟩
def F.PRT_PARTNER_PORT : Fld := ⟨0x80, 24, 0x108, 0, 1, 12, 5, .ro, 0, .none⟩
def F.PRT_PARTNER_ROLE : Fld := ⟨0x80, 24, 0x108, 0, 1, 17, 3, .ro, 0, .none⟩
def F.PRT_PARTNER_GROUP : Fld := ⟨0x80, 24, 0x108, 0, 1, 20, 3, .ro, 0, .none⟩
def F.PRT_PARTNER_VALID : Fld := ⟨0x80, 24, 0x108, 0, 1, 23, 1, .ro, 0, .none⟩
def F.PRT_WIDTH_CMD_WIDTH : Fld := ⟨0x80, 24, 0x10c, 0, 1, 0, 4, .rwo, 0, .oneOf [1, 2, 4, 8]⟩
def F.PRT_WIDTH_CMD_LANE_MASK : Fld := ⟨0x80, 24, 0x10c, 0, 1, 8, 8, .rwo, 0, .none⟩
def F.PRT_WIDTH_CMD_GO : Fld := ⟨0x80, 24, 0x10c, 0, 1, 31, 1, .wo, 0, .none⟩
def F.PRT_CREDIT0_REQ : Fld := ⟨0x80, 24, 0x110, 0, 1, 0, 14, .rwo, 0x1000, .allow 34 16383⟩
def F.PRT_CREDIT0_RSP : Fld := ⟨0x80, 24, 0x110, 0, 1, 16, 14, .rwo, 0x1000, .allow 34 16383⟩
def F.PRT_CREDIT1_BULK : Fld := ⟨0x80, 24, 0x114, 0, 1, 0, 14, .rwo, 0x2000, .allow 34 16383⟩
def F.PRT_CREDIT1_CTRL : Fld := ⟨0x80, 24, 0x114, 0, 1, 16, 8, .rwo, 0xff, .allow 34 255⟩
def F.PRT_CREDIT1_TOW : Fld := ⟨0x80, 24, 0x114, 0, 1, 24, 8, .rwo, 0x40, .allow 17 255⟩
def F.PRT_REPLAY_CFG_TIMER_NS : Fld := ⟨0x80, 24, 0x118, 0, 1, 0, 12, .rwo, 0xc8, .allow 20 4095⟩
def F.PRT_REPLAY_CFG_REPLAY_MAX : Fld := ⟨0x80, 24, 0x118, 0, 1, 12, 4, .rwo, 4, .allow 1 15⟩

/-! ### Page PHY -/
def F.PHY_LANE_CFG_PRECODE : Fld := ⟨0xa0, 24, 0x100, 4, 8, 0, 2, .rwo, 0, .allow 0 2⟩
def F.PHY_LANE_CFG_TX_PRESET : Fld := ⟨0xa0, 24, 0x100, 4, 8, 2, 4, .rwo, 1, .allow 1 5⟩
def F.PHY_EYE_BASE_LO_BASE_LO : Fld := ⟨0xa0, 24, 0x200, 0, 1, 12, 20, .rwo, 0, .none⟩
def F.PHY_EYE_BASE_HI_BASE_HI : Fld := ⟨0xa0, 24, 0x204, 0, 1, 0, 32, .rwo, 0, .none⟩
def F.PHY_EYE_CFG0_LANE : Fld := ⟨0xa0, 24, 0x208, 0, 1, 0, 4, .rwo, 0, .allow 0 7⟩
def F.PHY_EYE_CFG0_EYE : Fld := ⟨0xa0, 24, 0x208, 0, 1, 4, 2, .rwo, 1, .allow 0 2⟩
def F.PHY_EYE_CFG0_DWELL_LOG2 : Fld := ⟨0xa0, 24, 0x208, 0, 1, 8, 6, .rwo, 0x20, .allow 16 40⟩
def F.PHY_EYE_CFG0_ERR_LIMIT : Fld := ⟨0xa0, 24, 0x208, 0, 1, 16, 16, .rwo, 0x10, .allow 1 65535⟩
def F.PHY_EYE_CFG1_V_FIRST : Fld := ⟨0xa0, 24, 0x20c, 0, 1, 0, 6, .rwo, 0, .none⟩
def F.PHY_EYE_CFG1_V_LAST : Fld := ⟨0xa0, 24, 0x20c, 0, 1, 8, 6, .rwo, 0x3f, .none⟩
def F.PHY_EYE_CFG1_P_FIRST : Fld := ⟨0xa0, 24, 0x20c, 0, 1, 16, 7, .rwo, 0, .none⟩
def F.PHY_EYE_CFG1_P_LAST : Fld := ⟨0xa0, 24, 0x20c, 0, 1, 24, 7, .rwo, 0x7f, .none⟩
def F.PHY_EYE_CMD_STOP : Fld := ⟨0xa0, 24, 0x210, 0, 1, 0, 1, .wo, 0, .none⟩
def F.PHY_EYE_CMD_GO : Fld := ⟨0xa0, 24, 0x210, 0, 1, 31, 1, .wo, 0, .none⟩
def F.PHY_EYE_STAT_BUSY : Fld := ⟨0xa0, 24, 0x214, 0, 1, 0, 1, .ro, 0, .none⟩
def F.PHY_EYE_STAT_ABORTED : Fld := ⟨0xa0, 24, 0x214, 0, 1, 1, 1, .ro, 0, .none⟩
def F.PHY_EYE_STAT_POINTS_DONE : Fld := ⟨0xa0, 24, 0x214, 0, 1, 16, 16, .ro, 0, .none⟩

/-! ### Page ERR -/
def F.ERR_PEND_PEND : Fld := ⟨0xc0, 1, 0x100, 4, 8, 0, 32, .ro, 0, .none⟩
def F.ERR_RING_BASE_LO_BASE_LO : Fld := ⟨0xc0, 1, 0x120, 0, 1, 12, 20, .rwo, 0, .none⟩
def F.ERR_RING_BASE_HI_BASE_HI : Fld := ⟨0xc0, 1, 0x124, 0, 1, 0, 32, .rwo, 0, .none⟩
def F.ERR_RING_CFG_ENABLE : Fld := ⟨0xc0, 1, 0x128, 0, 1, 0, 1, .rwo, 0, .none⟩
def F.ERR_RING_CFG_INT_EN : Fld := ⟨0xc0, 1, 0x128, 0, 1, 1, 1, .rwo, 0, .none⟩
def F.ERR_RING_CFG_LOG2_SIZE : Fld := ⟨0xc0, 1, 0x128, 0, 1, 4, 5, .rwo, 6, .allow 6 16⟩
def F.ERR_RING_CFG_VECTOR : Fld := ⟨0xc0, 1, 0x128, 0, 1, 16, 11, .rwo, 0, .none⟩
def F.ERR_RING_PROD_PROD : Fld := ⟨0xc0, 1, 0x12c, 0, 1, 0, 32, .ro, 0, .none⟩
def F.ERR_RING_CONS_CONS : Fld := ⟨0xc0, 1, 0x130, 0, 1, 0, 32, .rwo, 0, .none⟩
def F.ERR_RING_STAT_FULL : Fld := ⟨0xc0, 1, 0x134, 0, 1, 0, 1, .ro, 0, .none⟩
def F.ERR_RING_STAT_MISSED : Fld := ⟨0xc0, 1, 0x134, 0, 1, 16, 16, .ro, 0, .none⟩
def F.ERR_FATAL_CORE_UV : Fld := ⟨0xc0, 1, 0x140, 0, 1, 0, 1, .rws, 0, .none⟩
def F.ERR_FATAL_THERMAL_TRIP : Fld := ⟨0xc0, 1, 0x140, 0, 1, 1, 1, .rws, 0, .none⟩
def F.ERR_FATAL_EOFF : Fld := ⟨0xc0, 1, 0x140, 0, 1, 2, 1, .rws, 0, .none⟩
def F.ERR_FATAL_INTERNAL : Fld := ⟨0xc0, 1, 0x140, 0, 1, 3, 1, .rws, 0, .none⟩
def F.ERR_FATAL_PAGE : Fld := ⟨0xc0, 1, 0x140, 0, 1, 12, 8, .rws, 0, .none⟩
def F.ERR_FATAL_CODE : Fld := ⟨0xc0, 1, 0x140, 0, 1, 20, 8, .rws, 0, .none⟩
def F.ERR_FATAL_TIME_LO_T_LO : Fld := ⟨0xc0, 1, 0x144, 0, 1, 0, 32, .rws, 0, .none⟩
def F.ERR_FATAL_TIME_HI_T_HI : Fld := ⟨0xc0, 1, 0x148, 0, 1, 0, 32, .rws, 0, .none⟩

/-! ### Page RCV -/
def F.RCV_CFG_REQ_TIMEOUT_US : Fld := ⟨0xc1, 1, 0x100, 0, 1, 0, 16, .rwo, 0x2710, .allow 100 65535⟩
def F.RCV_CFG_ORDER_TIMEOUT_US : Fld := ⟨0xc1, 1, 0x100, 0, 1, 16, 16, .rwo, 0xfa0, .allow 1 65535⟩
def F.RCV_RETX_RETX_US : Fld := ⟨0xc1, 1, 0x104, 0, 1, 0, 16, .rwo, 0x1f4, .allow 10 65535⟩
def F.RCV_RETX_RESYNC_QUIET_US : Fld := ⟨0xc1, 1, 0x104, 0, 1, 16, 16, .rwo, 0x4e20, .allow 1 65535⟩
def F.RCV_GEN_GEN : Fld := ⟨0xc1, 1, 0x108, 0, 1, 0, 32, .ro, 0, .none⟩
def F.RCV_LOST_LOST : Fld := ⟨0xc1, 1, 0x10c, 4, 4, 0, 32, .ro, 0, .none⟩
def F.RCV_SLIPWAY_STAGE : Fld := ⟨0xc1, 1, 0x11c, 0, 1, 0, 3, .ro, 0, .none⟩
def F.RCV_CMD_ARG_NODE : Fld := ⟨0xc1, 1, 0x120, 0, 1, 0, 7, .rwo, 0, .none⟩
def F.RCV_CMD_ARG_STAGE : Fld := ⟨0xc1, 1, 0x120, 0, 1, 8, 3, .rwo, 0, .oneOf [2, 4]⟩
def F.RCV_CMD_GEN_GEN : Fld := ⟨0xc1, 1, 0x124, 0, 1, 0, 32, .rwo, 0, .none⟩
def F.RCV_CMD_TIME_LO_T_LO : Fld := ⟨0xc1, 1, 0x128, 0, 1, 0, 32, .rwo, 0, .none⟩
def F.RCV_CMD_TIME_HI_T_HI : Fld := ⟨0xc1, 1, 0x12c, 0, 1, 0, 32, .rwo, 0, .none⟩
def F.RCV_CMD_OP : Fld := ⟨0xc1, 1, 0x130, 0, 1, 0, 3, .rwo, 0, .allow 1 4⟩
def F.RCV_CMD_GO : Fld := ⟨0xc1, 1, 0x130, 0, 1, 31, 1, .wo, 0, .none⟩
def F.RCV_CMD_RESULT_RESULT : Fld := ⟨0xc1, 1, 0x134, 0, 1, 0, 2, .ro, 0, .none⟩
def F.RCV_BROKEN_PAIRS : Fld := ⟨0xc1, 1, 0x138, 0, 1, 0, 15, .ro, 0, .none⟩

/-! ### The fields of each kind of page -/
def fldsHDR : List Fld :=
    [F.BLK_ERR_CAP0_VALID, F.BLK_ERR_CAP0_OVERFLOW, F.BLK_ERR_CAP0_CLASS, F.BLK_ERR_CAP0_STATUS, F.BLK_ERR_CAP0_CODE, F.BLK_ERR_CAP0_PORT, F.BLK_ERR_CAP1_DETAIL_LO, F.BLK_ERR_CAP2_DETAIL_HI, F.BLK_ERR_CAP3_TIME_LO, F.BLK_ID_TYPE, F.BLK_ID_INSTANCE, F.BLK_ID_LAYOUT, F.BLK_CAP_COUNTERS, F.BLK_CAP_QUIESCE_OK, F.BLK_CAP_SRST_OK, F.BLK_CAP_EXT_CNT, F.BLK_CTRL_ENABLE, F.BLK_CTRL_QUIESCE, F.BLK_CTRL_SOFT_RESET, F.BLK_CTRL_CNT_FREEZE, F.BLK_CTRL_CNT_CLEAR, F.BLK_STAT_QUIESCED, F.BLK_STAT_DISABLED, F.BLK_STAT_SRST_BUSY, F.BLK_STAT_CNT_FROZEN, F.BLK_STAT_BLOCK, F.BLK_ISR_EVENT, F.BLK_ISR_ERRCAP, F.BLK_IER_EVENT_EN, F.BLK_IER_ALERT, F.BLK_IER_ERRCAP_EN, F.BLK_ITR_EVENT, F.BLK_ITR_ERRCAP, F.BLK_OWNER_OWNER, F.BLK_ERR_CNT_ERRORS, F.BLK_ERR_CNT_CORRECTED, F.BLK_PACE_PACE, F.BLK_PACE_PACE_LOW, F.BLK_PACE_LOW_CLR]
def fldsGLB : List Fld :=
    [F.GLB_STRAP_TRAY, F.GLB_STRAP_SLOT, F.GLB_BOOT_STAT_STAGE, F.GLB_BOOT_STAT_READY_MS, F.GLB_JOIN_XCODE, F.GLB_JOIN_Y, F.GLB_JOIN_X_POS, F.GLB_JOIN_Y_POS, F.GLB_JOIN_NODE, F.GLB_JOIN_CMD_GO, F.GLB_JOIN_STAT_RESULT, F.GLB_JOIN_STAT_JOINED, F.GLB_PIN_STAT_PWRFAIL, F.GLB_PIN_STAT_PWRFAIL_SEEN, F.GLB_PIN_STAT_EOFF, F.GLB_PIN_STAT_PERST]
def fldsPWR : List Fld :=
    [F.PWR_CFG_PIN_EN, F.PWR_CFG_NARROW_EN, F.PWR_CFG_AVG_100US, F.PWR_CFG_ARR_IDLE_US, F.PWR_CFG_THROTTLE_C, F.PWR_CAP_CAP_W, F.PWR_STAT_STATE, F.PWR_STAT_BRAKE, F.PWR_STAT_CAP_STATUS, F.PWR_STAT_CAP_SRC, F.PWR_STAT_CAP_EFF, F.PWR_STAT_THROTTLE, F.PWR_STAT_VSET, F.PWR_CMD_OP, F.PWR_CMD_GO, F.PWR_CMD_RESULT_RESULT, F.PWR_CMD_RESULT_STATUS, F.PWR_RETAIN_NG, F.PWR_RETAIN_DEV, F.PWR_WAKE_EN_LANE, F.PWR_WAKE_EN_PCIE, F.PWR_WAKE_SRC_SOURCE, F.PWR_WAKE_SRC_DURING_ENTRY, F.PWR_WAKE_SRC_PORT, F.PWR_WAKE_SRC_LANE, F.PWR_WAKE_TIME_LO_T_LO, F.PWR_WAKE_TIME_HI_T_HI, F.PWR_DOM_REQ_REQ, F.PWR_DOM_STAT_ON, F.PWR_AVG_AVG_W, F.PWR_AVG_PEAK_W, F.PWR_AVG_PEAK_CLR, F.PWR_ENERGY_LO_MJ_LO, F.PWR_ENERGY_HI_MJ_HI, F.PWR_TEMP_TJ, F.PWR_TEMP_TJ_PEAK]
def fldsTIME : List Fld :=
    [F.TIME_CFG_ROOT, F.TIME_CFG_PPS_OUT_EN, F.TIME_CFG_PPS_IN_EN, F.TIME_CFG_UPSTREAM, F.TIME_CFG_UP_EN, F.TIME_CFG_SYNC_INTERVAL, F.TIME_STAT_STATE, F.TIME_STAT_STEPPED, F.TIME_OFFSET_OFFSET, F.TIME_DELAY_DELAY, F.TIME_RATE_RATE, F.TIME_NOW_LO_NS_LO, F.TIME_NOW_HI_NS_HI, F.TIME_NOW_FRAC_FRAC, F.TIME_SET_LO_NS_LO, F.TIME_SET_HI_NS_HI, F.TIME_SET_FRAC_FRAC, F.TIME_CMD_OP, F.TIME_CMD_GO, F.TIME_CMD_RESULT_RESULT, F.TIME_PPS_CAP_LO_NS_LO, F.TIME_PPS_CAP_HI_NS_HI, F.TIME_PPS_CAP_FRAC_FRAC, F.TIME_ASYM_ASYM]
def fldsSEC : List Fld :=
    [F.SEC_TENANT_TICKET, F.SEC_TENANT_STATE, F.SEC_TENANT_STAGED, F.SEC_KEY_ID_ACTIVE_ID, F.SEC_STAGED_ID_STAGED_ID, F.SEC_CMD_ARG_TICKET, F.SEC_CMD_OP, F.SEC_CMD_GO, F.SEC_CMD_RESULT_RESULT, F.SEC_RETIRE_STAT_DRAIN_EXPIRED, F.SEC_RETIRE_STAT_SCRUBBED, F.SEC_RETIRE_STAT_PROGRESS, F.SEC_VACANT_TIME_LO_T_LO, F.SEC_VACANT_TIME_HI_T_HI, F.SEC_KA_ROOT_DIGEST, F.SEC_BOOT_STAT_IMAGE, F.SEC_BOOT_STAT_KEY_INDEX, F.SEC_BOOT_STAT_DEBUG_UNLOCKED, F.SEC_BOOT_STAT_SVN, F.SEC_SVN_FLOOR_FLOOR, F.SEC_SVN_FLOOR_REVOKED]
def fldsMGMT : List Fld :=
    [F.MGMT_FW_VERSION_PATCH, F.MGMT_FW_VERSION_MINOR, F.MGMT_FW_VERSION_MAJOR, F.MGMT_HEARTBEAT_COUNT, F.MGMT_SMB_ADDR, F.MGMT_FM_CFG_FM_EN, F.MGMT_FM_NODES_NODES, F.MGMT_FMQ_TX_WORD, F.MGMT_FMQ_CMD_SLOTS, F.MGMT_FMQ_CMD_GO, F.MGMT_FMQ_STAT_PENDING, F.MGMT_FMQ_STAT_SENT, F.MGMT_FMQ_RX_BASE_LO_BASE_LO, F.MGMT_FMQ_RX_BASE_HI_BASE_HI, F.MGMT_FMQ_RX_CFG_ENABLE, F.MGMT_FMQ_RX_CFG_INT_EN, F.MGMT_FMQ_RX_CFG_LOG2_SIZE, F.MGMT_FMQ_RX_CFG_VECTOR, F.MGMT_FMQ_RX_PROD_PROD, F.MGMT_FMQ_RX_CONS_CONS, F.MGMT_FMQ_RX_STAT_MISSED]
def fldsLND : List Fld :=
    [F.LND_FENCE_CMD_CONTEXT, F.LND_FENCE_CMD_GO, F.LND_FENCE_STAT_PENDING, F.LND_FENCE_STAT_ERR_SEEN, F.LND_FENCE_STAT_DONE_COUNT, F.LND_RANK_CTX_CONTEXT, F.LND_RANK_WIN_BASE, F.LND_RANK_WIN_SIZE, F.LND_RANK_ADDR_INDEX, F.LND_RANK_DATA_ENTRY, F.LNDL_CFG_ENABLE, F.LNDL_CFG_MAX_WIDTH, F.LNDL_CFG_AUTO_WIDEN, F.LNDL_CFG_LANE_DISABLE, F.LNDL_STAT_STATE, F.LNDL_STAT_WIDTH, F.LNDL_STAT_REVERSED, F.LNDL_STAT_LANE_MAP, F.LNDL_WIDTH_CMD_WIDTH, F.LNDL_WIDTH_CMD_LANE_MASK, F.LNDL_WIDTH_CMD_GO, F.LNDL_CREDIT0_REQ, F.LNDL_CREDIT0_RSP, F.LNDL_CREDIT1_BULK, F.LNDL_CREDIT1_CTRL, F.LNDL_CREDIT1_TOW, F.LNDL_REPLAY_CFG_TIMER_NS, F.LNDL_REPLAY_CFG_REPLAY_MAX, F.LNDL_LANES_SLACK_LANES, F.LNDL_LANES_FAILED_LANES, F.LND_CFG_RC_EN, F.LND_CFG_WC_EN, F.LND_CFG_TIME_EN, F.LND_CFG_HOST_FIRST, F.LNDL_PARTNER_NODE, F.LNDL_PARTNER_PORT, F.LNDL_PARTNER_ROLE, F.LNDL_PARTNER_GROUP, F.LNDL_PARTNER_VALID]
def fldsPCIE : List Fld :=
    [F.PCIE_WIN_CFG_ENABLE, F.PCIE_WIN_CFG_CONTEXT, F.PCIE_WIN_BASE_LO_BASE_LO, F.PCIE_WIN_BASE_HI_BASE_HI, F.PCIE_WIN_STAT_LAST_STATUS, F.PCIE_WIN_STAT_ERRORS]
def fldsXLT : List Fld :=
    [F.XLT_INV_ARG0_REGION, F.XLT_INV_ARG1_FIRST_PAGE, F.XLT_INV_ARG2_PAGE_COUNT, F.XLT_INV_CMD_KIND, F.XLT_INV_CMD_CONTEXT, F.XLT_INV_CMD_GO, F.XLT_INV_STAT_PENDING, F.XLT_INV_STAT_DONE_COUNT]
def fldsFLT : List Fld :=
    [F.FLT_RING_BASE_LO_BASE_LO, F.FLT_RING_BASE_HI_BASE_HI, F.FLT_RING_CFG_ENABLE, F.FLT_RING_CFG_LOG2_SIZE, F.FLT_RING_CFG_VECTOR, F.FLT_RING_PROD_PROD, F.FLT_RING_CONS_CONS, F.FLT_RING_STAT_FULL, F.FLT_RING_STAT_OVERFLOW]
def fldsHOME : List Fld :=
    [F.HOME_CMD_ARG0_INDEX, F.HOME_CMD_ARG0_RES_STATE, F.HOME_CMD_ARG0_CLASS, F.HOME_CMD_ARG1_REGION, F.HOME_CMD_ARG2_PAGES, F.HOME_CMD_PT_LO_PT_LO, F.HOME_CMD_PT_HI_PT_HI, F.HOME_CMD_OP, F.HOME_CMD_GO, F.HOME_CMD_RESULT_RESULT, F.HOME_CMD_RESULT_BUSY, F.HOME_CMD_RESULT_GRANT_GEN, F.HOME_BITMAP_CLR_GO, F.HOME_REV_STAT_PENDING, F.HOME_REV_STAT_DONE_COUNT, F.HOME_REV_REC_WORD, F.HOME_BITMAP_BITS]
def fldsNEAR : List Fld :=
    [F.NEAR_ARB_W_HOME, F.NEAR_ARB_W_VOQ, F.NEAR_ARB_W_ARRAY]
def fldsBULK : List Fld :=
    [F.BULK_CFG_INTERLEAVE, F.BULK_CFG_SCRUB_HOURS]
def fldsPROT : List Fld :=
    [F.PROT_CFG_PARTNER, F.PROT_CFG_PARTNER_EN, F.PROT_CFG_ROLE, F.PROT_CFG_ALIAS_NODE, F.PROT_CFG_ALIAS_EN, F.PROT_CFG_META_COPY, F.PROT_GROUP_GROUP_EN, F.PROT_GROUP_POSITION, F.PROT_GROUP_LOST, F.PROT_MEMBERS0_M0, F.PROT_MEMBERS0_M1, F.PROT_MEMBERS0_M2, F.PROT_MEMBERS0_M3, F.PROT_MEMBERS1_M4, F.PROT_MEMBERS1_M5, F.PROT_MEMBERS1_M6, F.PROT_MEMBERS1_M7, F.PROT_MEMBERS2_M8, F.PROT_REBUILD_RATE, F.PROT_REBUILD_STAT_PHASE, F.PROT_REBUILD_STAT_PROGRESS, F.PROT_STALE_COUNT, F.PROT_BIND_ENTRY_ENTRY, F.PROT_BIND_CMD_EXTENT, F.PROT_BIND_CMD_GO, F.PROT_BIND_RESULT_RESULT, F.PROT_BIND_RESULT_BUSY]
def fldsSMP : List Fld :=
    [F.SMP_CFG_ENABLE, F.SMP_CFG_LOG2_N_BULK, F.SMP_CFG_LOG2_N_NEAR, F.SMP_SNAP_BASE_LO_BASE_LO, F.SMP_SNAP_BASE_HI_BASE_HI, F.SMP_SNAP_CMD_CLEAR, F.SMP_SNAP_CMD_GO, F.SMP_SNAP_STAT_BUSY, F.SMP_SNAP_STAT_DONE_COUNT, F.SMP_SNAP_TIME_LO_TIME_LO, F.SMP_SNAP_TIME_HI_TIME_HI]
def fldsFRY : List Fld :=
    [F.FRY_SCB_CFG_CTX_MAX, F.FRY_SCB_CFG_POLL_US, F.FRY_SCB_STAT_IN_USE, F.FRY_SCB_STAT_WAITING, F.FRY_SCB_WATCH_WATCHES, F.FRY_SUB_BASE_LO_BASE_LO, F.FRY_SUB_BASE_HI_BASE_HI, F.FRY_SUB_CFG_ENABLE, F.FRY_SUB_CFG_HOST, F.FRY_SUB_CFG_DB_HOST, F.FRY_SUB_CFG_DB_FABRIC, F.FRY_SUB_CFG_LOG2_SIZE, F.FRY_SUB_CFG_CONTEXT, F.FRY_SUB_CFG_WEIGHT, F.FRY_SUB_CMP_CMP_RING, F.FRY_SUB_PROD_PROD, F.FRY_SUB_CONS_CONS, F.FRY_SUB_STAT_HALTED, F.FRY_SUB_STAT_HALT_STATUS, F.FRY_SUB_STAT_STALE_DB, F.FRY_CMP_BASE_LO_BASE_LO, F.FRY_CMP_BASE_HI_BASE_HI, F.FRY_CMP_CFG_ENABLE, F.FRY_CMP_CFG_HOST, F.FRY_CMP_CFG_INT_EN, F.FRY_CMP_CFG_LOG2_SIZE, F.FRY_CMP_CFG_LANDING, F.FRY_CMP_CFG_VECTOR, F.FRY_CMP_PROD_PROD, F.FRY_CMP_CONS_CONS, F.FRY_CMP_STAT_HALTED, F.FRY_CMP_STAT_HALT_STATUS, F.FRY_ENG_STAT_BUSY, F.FRY_ENG_STAT_CONTEXT, F.FRY_ENG_STAT_SUB_RING]
def fldsPNT : List Fld :=
    [F.PNT_PROG_STAT_RESIDENT, F.PNT_PROG_STAT_IN_USE, F.PNT_PROG_STAT_CONTEXT, F.PNT_PROG_STAT_RUNNING, F.PNT_PROG_INV_CONTEXT, F.PNT_PROG_INV_ALL, F.PNT_PROG_INV_GO]
def fldsCOLL : List Fld :=
    [F.COLL_CFG_STEP_TIMEOUT_US, F.COLL_STAT_RUNNING, F.COLL_STAT_DONE_COUNT, F.COLL_ABORT_ID_ID, F.COLL_ABORT_INFO_STATUS, F.COLL_ABORT_INFO_FAILED_RANK, F.COLL_ABORT_INFO_FAILED_STEP, F.COLL_ABORT_INFO_ORIGIN]
def fldsATTN : List Fld :=
    [F.ATTN_CFG_SERVE_MASK, F.ATTN_STAT_SERVING, F.ATTN_STAT_DONE_COUNT, F.ATTN_REQ_RUNNING]
def fldsDISP : List Fld :=
    [F.DISP_STAT_RUNNING, F.DISP_STAT_DONE_COUNT]
def fldsSWC : List Fld :=
    [F.SWC_CFG_BUFMODE, F.SWC_CFG_PROTECT_AFTER, F.SWC_ARB_W_RSP, F.SWC_ARB_W_REQ, F.SWC_ARB_W_BULK, F.SWC_FLOOR_REQ, F.SWC_FLOOR_RSP, F.SWC_FLOOR_BULK, F.SWC_FLOOR_CTRL, F.SWC_PART_STAT_AVAIL, F.SWC_PART_STAT_USED, F.SWC_LIMIT_A_REQ, F.SWC_LIMIT_A_RSP, F.SWC_LIMIT_B_BULK, F.SWC_LIMIT_B_CTRL]
def fldsRTE : List Fld :=
    [F.RTE_CFG_MODE, F.RTE_CFG_EXP_BIAS, F.RTE_CFG_DRAIN_US, F.RTE_BANK_ACTIVE, F.RTE_BANK_STATE_A, F.RTE_BANK_STATE_B, F.RTE_FLIP_TIME_LO_T_LO, F.RTE_FLIP_TIME_HI_T_HI, F.RTE_CMD_OP, F.RTE_CMD_BANK, F.RTE_CMD_GO, F.RTE_CMD_RESULT_RESULT, F.RTE_PORT_ROLE_ROLE, F.RTE_PORT_ROLE_GROUP, F.RTE_PORT_ROLE_DATELINE]
def fldsCNG : List Fld :=
    [F.CNG_THRESH_T1, F.CNG_THRESH_T2, F.CNG_THRESH_T3, F.CNG_WIN_MAX, F.CNG_WIN_MIN, F.CNG_AIMD_ADD, F.CNG_AIMD_HOLD_NS]
def fldsMIR : List Fld :=
    [F.MIR_SESS_CFG_ENABLE, F.MIR_SESS_CFG_INGRESS, F.MIR_SESS_CFG_EGRESS, F.MIR_SESS_CFG_EVICT, F.MIR_SESS_CFG_CLASS_MASK, F.MIR_SESS_CFG_PORT, F.MIR_SESS_CFG_PORT_ANY, F.MIR_SESS_CFG_SNAP, F.MIR_SESS_CFG_DEST, F.MIR_SESS_MATCH0_SRC_NODE, F.MIR_SESS_MATCH0_SRC_MASK, F.MIR_SESS_MATCH0_DST_NODE, F.MIR_SESS_MATCH0_DST_MASK, F.MIR_SESS_MATCH1_ENGINE, F.MIR_SESS_MATCH1_ENGINE_MASK, F.MIR_SESS_SEQ_SEQ, F.MIR_DEST_PORT, F.MIR_DEST_PORT_EN, F.MIR_RING_BASE_LO_BASE_LO, F.MIR_RING_BASE_HI_BASE_HI, F.MIR_RING_CFG_ENABLE, F.MIR_RING_CFG_INT_EN, F.MIR_RING_CFG_LOG2_SIZE, F.MIR_RING_CFG_VECTOR, F.MIR_RING_PROD_PROD, F.MIR_RING_CONS_CONS, F.MIR_RING_STAT_FULL]
def fldsPRT : List Fld :=
    [F.PRT_CFG_ENABLE, F.PRT_CFG_MAX_WIDTH, F.PRT_CFG_AUTO_WIDEN, F.PRT_CFG_LANE_DISABLE, F.PRT_STAT_STATE, F.PRT_STAT_WIDTH, F.PRT_STAT_REVERSED, F.PRT_STAT_LANE_MAP, F.PRT_STAT_SLACK_LANES, F.PRT_STAT_FAILED_LANES, F.PRT_PARTNER_NODE, F.PRT_PARTNER_PORT, F.PRT_PARTNER_ROLE, F.PRT_PARTNER_GROUP, F.PRT_PARTNER_VALID, F.PRT_WIDTH_CMD_WIDTH, F.PRT_WIDTH_CMD_LANE_MASK, F.PRT_WIDTH_CMD_GO, F.PRT_CREDIT0_REQ, F.PRT_CREDIT0_RSP, F.PRT_CREDIT1_BULK, F.PRT_CREDIT1_CTRL, F.PRT_CREDIT1_TOW, F.PRT_REPLAY_CFG_TIMER_NS, F.PRT_REPLAY_CFG_REPLAY_MAX]
def fldsPHY : List Fld :=
    [F.PHY_LANE_CFG_PRECODE, F.PHY_LANE_CFG_TX_PRESET, F.PHY_EYE_BASE_LO_BASE_LO, F.PHY_EYE_BASE_HI_BASE_HI, F.PHY_EYE_CFG0_LANE, F.PHY_EYE_CFG0_EYE, F.PHY_EYE_CFG0_DWELL_LOG2, F.PHY_EYE_CFG0_ERR_LIMIT, F.PHY_EYE_CFG1_V_FIRST, F.PHY_EYE_CFG1_V_LAST, F.PHY_EYE_CFG1_P_FIRST, F.PHY_EYE_CFG1_P_LAST, F.PHY_EYE_CMD_STOP, F.PHY_EYE_CMD_GO, F.PHY_EYE_STAT_BUSY, F.PHY_EYE_STAT_ABORTED, F.PHY_EYE_STAT_POINTS_DONE]
def fldsERR : List Fld :=
    [F.ERR_PEND_PEND, F.ERR_RING_BASE_LO_BASE_LO, F.ERR_RING_BASE_HI_BASE_HI, F.ERR_RING_CFG_ENABLE, F.ERR_RING_CFG_INT_EN, F.ERR_RING_CFG_LOG2_SIZE, F.ERR_RING_CFG_VECTOR, F.ERR_RING_PROD_PROD, F.ERR_RING_CONS_CONS, F.ERR_RING_STAT_FULL, F.ERR_RING_STAT_MISSED, F.ERR_FATAL_CORE_UV, F.ERR_FATAL_THERMAL_TRIP, F.ERR_FATAL_EOFF, F.ERR_FATAL_INTERNAL, F.ERR_FATAL_PAGE, F.ERR_FATAL_CODE, F.ERR_FATAL_TIME_LO_T_LO, F.ERR_FATAL_TIME_HI_T_HI]
def fldsRCV : List Fld :=
    [F.RCV_CFG_REQ_TIMEOUT_US, F.RCV_CFG_ORDER_TIMEOUT_US, F.RCV_RETX_RETX_US, F.RCV_RETX_RESYNC_QUIET_US, F.RCV_GEN_GEN, F.RCV_LOST_LOST, F.RCV_SLIPWAY_STAGE, F.RCV_CMD_ARG_NODE, F.RCV_CMD_ARG_STAGE, F.RCV_CMD_GEN_GEN, F.RCV_CMD_TIME_LO_T_LO, F.RCV_CMD_TIME_HI_T_HI, F.RCV_CMD_OP, F.RCV_CMD_GO, F.RCV_CMD_RESULT_RESULT, F.RCV_BROKEN_PAIRS]

/-! ### Page APHY: as PHY with 16 lanes (R461) -/
def F.APHY_LANE_CFG_PRECODE : Fld := ⟨0xb8, 4, 0x100, 4, 16, 0, 2, .rwo, 0, .allow 0 2⟩
def F.APHY_LANE_CFG_TX_PRESET : Fld := ⟨0xb8, 4, 0x100, 4, 16, 2, 4, .rwo, 1, .allow 1 5⟩
def F.APHY_EYE_BASE_LO_BASE_LO : Fld := ⟨0xb8, 4, 0x200, 0, 1, 12, 20, .rwo, 0, .none⟩
def F.APHY_EYE_BASE_HI_BASE_HI : Fld := ⟨0xb8, 4, 0x204, 0, 1, 0, 32, .rwo, 0, .none⟩
def F.APHY_EYE_CFG0_LANE : Fld := ⟨0xb8, 4, 0x208, 0, 1, 0, 4, .rwo, 0, .none⟩
def F.APHY_EYE_CFG0_EYE : Fld := ⟨0xb8, 4, 0x208, 0, 1, 4, 2, .rwo, 1, .allow 0 2⟩
def F.APHY_EYE_CFG0_DWELL_LOG2 : Fld := ⟨0xb8, 4, 0x208, 0, 1, 8, 6, .rwo, 0x20, .allow 16 40⟩
def F.APHY_EYE_CFG0_ERR_LIMIT : Fld := ⟨0xb8, 4, 0x208, 0, 1, 16, 16, .rwo, 0x10, .allow 1 65535⟩
def F.APHY_EYE_CFG1_V_FIRST : Fld := ⟨0xb8, 4, 0x20c, 0, 1, 0, 6, .rwo, 0, .none⟩
def F.APHY_EYE_CFG1_V_LAST : Fld := ⟨0xb8, 4, 0x20c, 0, 1, 8, 6, .rwo, 0x3f, .none⟩
def F.APHY_EYE_CFG1_P_FIRST : Fld := ⟨0xb8, 4, 0x20c, 0, 1, 16, 7, .rwo, 0, .none⟩
def F.APHY_EYE_CFG1_P_LAST : Fld := ⟨0xb8, 4, 0x20c, 0, 1, 24, 7, .rwo, 0x7f, .none⟩
def F.APHY_EYE_CMD_STOP : Fld := ⟨0xb8, 4, 0x210, 0, 1, 0, 1, .wo, 0, .none⟩
def F.APHY_EYE_CMD_GO : Fld := ⟨0xb8, 4, 0x210, 0, 1, 31, 1, .wo, 0, .none⟩
def F.APHY_EYE_STAT_BUSY : Fld := ⟨0xb8, 4, 0x214, 0, 1, 0, 1, .ro, 0, .none⟩
def F.APHY_EYE_STAT_ABORTED : Fld := ⟨0xb8, 4, 0x214, 0, 1, 1, 1, .ro, 0, .none⟩
def F.APHY_EYE_STAT_POINTS_DONE : Fld := ⟨0xb8, 4, 0x214, 0, 1, 16, 16, .ro, 0, .none⟩
def fldsAPHY : List Fld :=
    [F.APHY_LANE_CFG_PRECODE, F.APHY_LANE_CFG_TX_PRESET, F.APHY_EYE_BASE_LO_BASE_LO, F.APHY_EYE_BASE_HI_BASE_HI, F.APHY_EYE_CFG0_LANE, F.APHY_EYE_CFG0_EYE, F.APHY_EYE_CFG0_DWELL_LOG2, F.APHY_EYE_CFG0_ERR_LIMIT, F.APHY_EYE_CFG1_V_FIRST, F.APHY_EYE_CFG1_V_LAST, F.APHY_EYE_CFG1_P_FIRST, F.APHY_EYE_CFG1_P_LAST, F.APHY_EYE_CMD_STOP, F.APHY_EYE_CMD_GO, F.APHY_EYE_STAT_BUSY, F.APHY_EYE_STAT_ABORTED, F.APHY_EYE_STAT_POINTS_DONE]

/-- One row of the page index (R601): name, first page, number of pages, whether BLK_CTRL quiesces (Q) and soft
resets (S) the page, and how many counters it holds (R610). -/
structure PageKind where
  name : String
  base : Nat
  n : Nat
  quiesce : Bool
  srst : Bool
  counters : Nat
  flds : List Fld
  deriving Repr

/-- The page index of R601, with the counters of R610. RTE0 and FRY0 have counters of their own (`pageCounters`). -/
def pageIndex : List PageKind :=
  [⟨"GLB", 0x000, 1, false, false, 0, fldsGLB⟩, ⟨"PWR", 0x001, 1, false, false, 6, fldsPWR⟩,
   ⟨"TIME", 0x002, 1, false, false, 4, fldsTIME⟩, ⟨"SEC", 0x003, 1, false, false, 4, fldsSEC⟩,
   ⟨"MGMT", 0x004, 1, false, false, 0, fldsMGMT⟩, ⟨"LND", 0x010, 4, true, true, 17, fldsLND⟩,
   ⟨"PCIE", 0x018, 1, true, false, 3, fldsPCIE⟩, ⟨"XLT", 0x020, 1, true, true, 6, fldsXLT⟩,
   ⟨"FLT", 0x021, 1, true, true, 3, fldsFLT⟩, ⟨"HOME", 0x028, 1, true, false, 9, fldsHOME⟩,
   ⟨"NEAR", 0x029, 1, false, false, 3, fldsNEAR⟩, ⟨"BULK", 0x02A, 1, false, false, 4, fldsBULK⟩,
   ⟨"PROT", 0x02B, 1, false, false, 5, fldsPROT⟩, ⟨"SMP", 0x02C, 1, true, true, 1, fldsSMP⟩,
   ⟨"FRY", 0x030, 4, true, true, 9, fldsFRY⟩, ⟨"PNT", 0x040, 16, true, true, 8, fldsPNT⟩,
   ⟨"COLL", 0x050, 1, true, true, 4, fldsCOLL⟩, ⟨"ATTN", 0x051, 1, true, true, 3, fldsATTN⟩,
   ⟨"DISP", 0x052, 1, true, true, 5, fldsDISP⟩, ⟨"SWC", 0x060, 1, false, false, 175, fldsSWC⟩,
   ⟨"RTE", 0x061, 4, false, false, 0, fldsRTE⟩, ⟨"CNG", 0x068, 1, false, false, 6, fldsCNG⟩,
   ⟨"MIR", 0x069, 1, true, true, 8, fldsMIR⟩, ⟨"PRT", 0x080, 24, true, true, 10, fldsPRT⟩,
   ⟨"PHY", 0x0A0, 24, true, true, 16, fldsPHY⟩, ⟨"APHY", 0x0B8, 4, true, true, 32, fldsAPHY⟩,
   ⟨"ERR", 0x0C0, 1, false, false, 0, fldsERR⟩, ⟨"RCV", 0x0C1, 1, false, false, 7, fldsRCV⟩]

/-- The row of the page index that lists page `p`, if one does (R602). -/
def pageKind (p : Nat) : Option PageKind :=
  pageIndex.find? (fun k => decide (k.base ≤ p) && decide (p < k.base + k.n))

/-- The fields at offset `off` of page `p`: the common header below 0x100, the page's own fields above. A field that
only the first page of a kind carries (FRY0, LND0, RTE0) is listed for that page alone. -/
def fieldsAt (p off : Nat) : List Fld :=
  if off < 0x100 then fldsHDR.filter (fun f => f.here off)
  else match pageKind p with
    | none => []
    | some k => k.flds.filter (fun f => decide (p < f.page + f.pages) && f.here off)

/-- How many counters page `p` holds (R610). -/
def pageCounters (p : Nat) : Nat :=
  match pageKind p with
  | none => 0
  | some k => if p = 0x030 then 18 else if p = 0x061 then 7 else k.counters

/-- The role of RTE_PORT_ROLE at reset for fabric port `p`: the role and group of the direction the port faces
(R29, R404); ports 16 to 23 start in the role R404 gives them. -/
def roleReset (p : Nat) : Nat :=
  if p < 16 then 1 + 16 * (p / 4) else 2 + 16 * (4 + (p - 16) / 2)

/-- What the register word at BAR0 offset `a` holds at reset (R7): its fields' reset values. -/
def resetWord (a : Nat) : W32 :=
  let p := a / 0x1000
  let off := a % 0x1000
  let v := (fieldsAt p off).foldl (fun n f => n + f.rst * 2 ^ f.lo) 0
  BitVec.ofNat 32 (if p = 0x061 ∧ 0x200 ≤ off ∧ off < 0x260 ∧ off % 4 = 0 then roleReset ((off - 0x200) / 4) else v)

end Sys2Proof.Machine
end

