-- ==== Sys2Proof/Config.lean ====
section
/-!
DEFINITION. What the spec leaves open, as constants without a body: no proof can see what they are, so a claim holds
whatever they are. `freeNat` is the one source of free values: the model applies it to a counter of the state that
every use advances, so each use is a fresh value (log entry 2).
-/
namespace Sys2Proof.Config

/-- A fresh value that nothing constrains: draw number `i`. Used for random draws (R188, R272), for undefined data
bytes (R468, R484), for orders and choices the spec calls unspecified (R19, R54). -/
opaque freeNat (i : Nat) : Nat

/-- The 4 check bytes of a bulk line that holds the bytes `v` (R170): the code over GF(2⁸) whose polynomials the spec does not give. -/
opaque checkBytes (v : Nat) : Nat

/-- What the line at place `l` holds after a loss of its contents (R558, R563); `draw` is the free value of that loss. -/
opaque lostLine (draw l : Nat) : BitVec 512

/-- The parity group of a node as a stand-in outside that group knows it: the node at each position, and the position of the node itself.
The spec lets a stand-in rebuild for its ward (R221) and gives the group's list to the members alone (R201). -/
opaque groupMember (node position : Nat) : Nat
opaque groupPosition (node : Nat) : Nat

/-- The PCI Vendor ID of Nymlan Semiconductor (R474). -/
opaque vendorId : BitVec 16

/-- The 256-bit device secret in the fuses (R533). -/
opaque deviceSecret : Nat

/-- The identity key that HKDF-SHA-384 derives from a device secret (R533). -/
opaque identityKey (secret : Nat) : Nat

/-- The alias key derived from an identity secret, the SHA-384 of an image and its SVN (R533). -/
opaque aliasKey (identity digest svn : Nat) : Nat

/-- An ECDSA P-384 signature with a private key over what the list names; `draw` is its random part. -/
opaque signature (key draw : Nat) (msg : List Nat) : Nat

/-- The `len` bytes from `off` on of the certificate chain of slot 0 that ends in an alias certificate, and the digest of that chain (R534). -/
opaque certChain (aliasCert off len : Nat) : Nat
opaque certDigest (aliasCert : Nat) : Nat

/-- SHA-384 of the ROM (R535). -/
opaque romDigest : Nat

/-- The metadata key the security engine draws at the `g`-th release of RESET_N (R186). -/
opaque metaKey (g : Nat) : Nat

/-- The order in which the 64 columns of a row enter the fixed tree of a ROWRED SUM (R272). -/
opaque rowLeaf : Fin 64 ≃ Fin 64

end Sys2Proof.Config
end

