-- ==== Sys2Proof/Machine/State.lean ====
section
/-!
DEFINITION. The state of one DK-128 package: the bytes of its pool memory (`Store`), everything else it holds (`Dev`),
and the queue of waiting commands. Registers of BAR0 stand in one table of words (`Dev.regs`), counters in another;
what no register shows (queues, tables, engines, timers) has fields of its own. All of it is plain data.
-/
namespace Sys2Proof.Machine

/-- Why a command stops the machine. -/
inductive Fault where
  /-- A register access at a BAR0 offset of 16 MiB or more: BAR0 has 4,096 pages of 4 KiB (R602), so the address does
  not exist. Raised by the meanings of the commands that carry a register address. Safe: no such access reaches the
  package. -/
  | outsideBar0 (offset : Nat)
  deriving DecidableEq, Repr

/-- Why a command has no meaning. -/
inductive Refusal where
  /-- The model has no meaning for the command. Raised by the dispatch only. Safe. -/
  | notModelled (mnemonic : String)
  deriving DecidableEq, Repr

/-! ## What the package sends -/

/-- CTRL messages the package sends (R380, R446): to the fabric manager, to another package's agents. -/
inductive CtrlMsg where
  /-- result of a fabric-manager command: 1 DONE, 2 NO_CHANGE, 3 BAD_STATE (R70, R499, R521) -/
  | result (op : String) (r : Nat)
  /-- REG_REPLY (R612): status and, for a read, the value -/
  | regReply (status : Nat) (data : List Byte)
  /-- revocation completion record (R123) -/
  | revocation (record : List Byte)
  /-- acknowledgement of a domain invalidation (R103) -/
  | invAck
  | tenantVacant
  | rebuildReady (lost : Nat)
  | rebuildDone (lost : Nat)
  | wardDone (lost : Nat)
  /-- PROT_BIND passed on to the partner (R198) -/
  | bindCopy (index word : Nat)
  | memberRestore (lost gen : Nat)
  | memberCleared (lost : Nat)
  /-- the spare has the last line of a phase (R223); phase 5 begins at a ward (R226) -/
  | rebuildAck (phase : Nat)
  | wardsPhase (lost spare : Nat)
  | orderResync (eng rseq : Nat)
  | orderResyncDone (eng rseq : Nat)
  | timeSync (port : Nat) (t1 : Nat)
  | timeSyncReply (port : Nat) (t1 t2 t3 : Nat)
  | fryDoorbell (ring : Nat) (completion : Bool) (v ticket : Nat)
  | collCredit (m : CollCredit)
  | collAbort (m : CollAbort)
  /-- a message staged in the fabric-manager queue, as its bytes (R615) -/
  | staged (bytes : List Byte)
  deriving DecidableEq, Repr

/-- What leaves the package, in the order it leaves. -/
inductive Emit where
  /-- a request frame an engine of this package hands to the crossbar, with its first 240 bytes of data; the DATA frame of a linked pair
  behind it (R466) -/
  | req (r : Req)
  | pairData (h : Hdr) (data : List Byte)
  /-- a response or acknowledgement handed to the crossbar -/
  | rsp (h : Hdr) (data : List Byte)
  | ctrl (dest : Nat) (m : CtrlMsg)
  /-- protection-engine traffic to another package -/
  | delta (dest : Nat) (d : DeltaMsg)
  | mirror (dest : Nat) (w : MirrorMsg)
  | journal (dest : Nat) (j : JournalMsg)
  | rcRead (dest : Nat) (r : RcMsg)
  | rcRelease (dest : Nat) (r : RcMsg)
  | rebuild (dest : Nat) (m : RebuildMsg)
  /-- migration line to the destination home: ciphertext with its source GPA (R192) -/
  | migrate (r : Req) (srcGpa : Nat)
  /-- response of a landing to its accelerator: opcode, TAG, status, data (R464) -/
  | attach (n op tag status : Nat) (data : List Byte)
  /-- a frame that departs through external output `out` on a channel -/
  | depart (out channel : Nat) (f : Frame)
  /-- a capture record sent on the analysis port -/
  | analysis (port : Nat) (bytes : List Byte)
  /-- a posted write to host memory -/
  | hostWrite (addr : Nat) (bytes : List Byte)
  | hostRead (addr len tag : Nat)
  | msix (entry : Nat)
  /-- PCI Express completion: request, 0 successful, 1 Unsupported Request, 4 Completer Abort, 2 Request Retry -/
  | cpl (id status : Nat) (data : List Byte)
  /-- answer of a register read to its master -/
  | regData (m : Master) (status : Nat) (data : List Byte)
  /-- an SPDM response over the DOE mailbox or MCTP -/
  | spdm (mctp : Bool) (name : String) (data : List Nat)
  /-- a flit: port, its 256 bytes -/
  | flit (port : Nat) (bytes : List Byte)
  /-- the wake tone for 8 µs, the training pattern: port, mask of the lanes that send it (R436, R441) -/
  | tone (port lanes : Nat)
  | pattern (port lanes : Nat)
  | pin (name : String) (v : Nat)
  /-- a collective segment, an attention group, a partial record handed to the crossbar (R307, R325, R329) -/
  | coll (dest : Nat) (m : CollData)
  | attnQuery (dest : Nat) (m : AttnQuery)
  | attnPartial (dest : Nat) (m : AttnPartial)
  deriving DecidableEq, Repr

/-! ## Global state, pins and start-up (R483, R491, R560, R583–R594) -/

/-- Why the core is held (R49, R483, R531, R575, R593). -/
inductive Hold where
  | none | coreUv | failStop | thermal | eoff | boot
  deriving DecidableEq, Repr

/-- Pins, straps, fuses and what start-up leaves outside the registers. -/
structure Glb where
  /-- OFF: RESET_N low or VDD_AON absent (R560) -/
  off : Bool := false
  vddAon : Bool := true
  hold : Hold := .none
  straps : Nat × Nat := (0, 0)
  fuseFloor : Nat := 0
  fuseRevoked : Nat := 0
  /-- VDD_CORE at the die in mV and since when it has been below 550 mV (R49) -/
  vddMv : Nat := 750
  uvSince : Option Nat := none
  join : Option JoinVals := none
  transmitters : Bool := true
  perstReleased : Nat := 0
  pcieTraining : Bool := false
  thermtrip : Bool := false
  /-- PCI Express link power: brought down by E3 -/
  pcieIdle : Bool := false
  bootMs : Nat := 0
  /-- the microsecond of tide time in which PACE was last updated (R40), and the tide time at which each power domain
  last turned on (R39) -/
  paceAt : Nat := 0
  domAt : Tbl Nat := []
  deriving DecidableEq, Repr

/-! ## Translation (R84–R104) -/

/-- A translation entry (R85–R89, R95). -/
structure TEntry where
  ctx : Nat
  page : Nat
  gpaPage : Nat
  perm : Nat
  seg : Nat
  region : Nat
  rpage : Nat
  landing : Nat
  pf : Bool := false
  deriving DecidableEq, Repr

/-- A segment entry of a context (R81). -/
structure Seg where
  valid : Bool
  perm : Nat
  base : Nat
  limit : Nat
  region : Nat
  rpage : Nat
  deriving DecidableEq, Repr

/-- A context entry as the context cache holds it (R80, R81, R109). -/
structure CtxEnt where
  valid : Bool
  landing : Nat
  ring : Nat
  thresh : Nat
  timer : Nat
  segs : List Seg
  deriving DecidableEq, Repr

/-- What the descriptor cache holds of a region descriptor (R74). -/
structure DescEnt where
  valid : Bool
  pages : Nat
  ptBase : Nat
  deriving DecidableEq, Repr

/-- The kinds of pool access (R66, R148, R152, R153, R192). -/
inductive AKind where
  | read | write | atomic | reduce | verRead | publish | pteWrite | table | migRead | migWrite | spanRead
  deriving DecidableEq, Repr

/-- What an access is for: whom its answer serves. -/
inductive Purpose where
  /-- LOAD of a landing; the fill of one line of a cached LOAD -/
  | lndLoad (n tag : Nat)
  | lndFill (n id line : Nat)
  /-- a write of the write-combining buffer: the STOREs it serves as (TAG, context, access id) -/
  | wcBlock (n : Nat) (stores : List (Nat × Nat × Nat))
  | lndStore (n tag : Nat)
  | lndAtomic (n tag : Nat) (fetch : Bool)
  | lndReduce (n tag : Nat)
  | lndVersion (n tag order : Nat)
  | lndPublish (n tag order : Nat)
  | lndPte (n tag : Nat)
  /-- part `part` of a bulk request, `page` its bit of the mask -/
  | bulk (n id part page : Nat)
  | bar2Read (id part win : Nat)
  | bar2Write (win : Nat)
  | bar2Atomic (id win : Nat)
  | walk (w : Nat)
  | prefetch (id : Nat)
  /-- ferryman: the read of wait `w` of operation `op`, its CAS, the ADD that gives a semaphore back, the signal -/
  | waitRead (op w : Nat)
  | sem (op w : Nat)
  | semBack
  | signal (op : Nat)
  /-- the near-tier completion record of an operation; a slot read of a submission ring since its `gen`th enable -/
  | record (ring op gen : Nat)
  | fetch (ring gen : Nat)
  /-- access `k` of a transfer -/
  | xfer (id k : Nat)
  /-- fetch ADD of a dispatch -/
  | tail (op : Nat)
  /-- a group of an attention request -/
  | attnGroup (op grp : Nat)
  /-- traffic of the protection engine: a delta of a line, a mirror write, a journal message of a home operation, an
  RC_READ of a member, a rebuild copy -/
  | delta (op line : Nat)
  | mirrorCopy (op : Nat)
  | journal (op : Nat)
  | rcRead (recon member : Nat)
  | copy
  /-- a copy of phase 5 (R226): the extent, or 4095 -/
  | wardCopy (item : Nat)
  deriving DecidableEq, Repr

/-- A pool access of one of the package's engines, translated, until its answer. `id` orders the accesses of an engine
(R131); `landing` is the requester landing as a landing of this package (R65), `ticket` the one of R515. -/
structure Acc where
  id : Nat := 0
  eng : Nat
  ctx : Nat
  landing : Nat
  ticket : Nat
  kind : AKind
  gpa : Nat := 0
  len : Nat := 0
  data : List Byte := []
  /-- bytes of a combined write that no store gave, as offsets in `data` (R142) -/
  holes : List Nat := []
  aop : Nat := 0
  fetch : Bool := false
  mfmt : Nat := 0
  cfmt : Nat := 0
  /-- region of a version operation or page-table write, and its page -/
  region : Nat := 0
  page : Nat := 0
  srcGpa : Nat := 0
  /-- a read of a program image (R274) -/
  image : Bool := false
  purpose : Purpose
  deriving DecidableEq, Repr

/-- Where a walk or a prefetch stands (R84, R91, R95): the table it reads next, with what it has read: the context
entry, the segment that covers the page, the region descriptor. -/
inductive WalkStage where
  | ctx
  | desc (c : CtxEnt) (seg : Nat)
  | pte (c : CtxEnt) (seg : Nat) (d : DescEnt)
  deriving DecidableEq, Repr

/-- What a translation is for: page `page` of the footprint of a request of landing or host port `port` (R83, R114), or a
page of an operation (R276, R301, R325, R337, R366). -/
inductive XFor where
  | port (port id page : Nat)
  /-- a page of side `side` of an operation's addresses -/
  | op (id side : Nat)
  deriving DecidableEq, Repr

/-- A request for a translation (R84): context, landing virtual address, what the access needs (R66), who asks. -/
structure XReq where
  ctx : Nat
  lva : Nat
  /-- how many bytes of the page the request names from there on -/
  len : Nat := 1
  kind : AKind
  eng : Nat
  /-- the landing whose request it is; for other engines that to which the context is bound -/
  landing : Nat
  ticket : Nat
  tile : Bool
  for_ : XFor
  deriving DecidableEq, Repr

/-- The outcome of a translation: the GPA page with the landing the context is bound to, a fault cause (R105), or no
tenant (R91). -/
inductive XRes where
  | hit (gpaPage landing : Nat)
  | fault (cause : Nat)
  | retired
  deriving DecidableEq, Repr

/-- A walk for one (context, page): its stage, the requests merged into it, and whether an invalidation
serialised since it started makes it start again (R90, R100). -/
structure Walk where
  id : Nat
  ctx : Nat
  page : Nat
  stage : WalkStage
  stale : Bool
  waiters : List XReq
  deriving DecidableEq, Repr

/-- A stream of the prefetcher (R93, R94, R469): counts and tile in units of dimension 0, strides of dimensions 1 to 3
in bytes, the tiles issued so far, when the last one was. -/
structure Stream where
  num : Nat
  ctx : Nat
  base : Nat
  counts : List Nat
  strides : List Nat
  tile : List Nat
  /-- bits of one unit of dimension 0 -/
  unit : Nat
  look : Nat
  issued : List Nat
  used : Nat
  /-- 0 declared by a landing, 1 + 2e + side for a side of ferry engine e -/
  owner : Nat
  deriving DecidableEq, Repr

/-- An outstanding prefetch for the page of a landing virtual address (R95). -/
structure Prefetch where
  id : Nat
  ctx : Nat
  page : Nat
  stage : WalkStage
  stale : Bool
  deriving DecidableEq, Repr

/-- An invalidation in the queue of R102: its operands and who asked (none: the registers). -/
structure Inv where
  a : InvArgs
  src : Option Nat
  /-- walks in progress when it was serialised whose result it discards (R100) -/
  waits : List Nat
  deriving DecidableEq, Repr

/-- The XLT block and the landings' translation buffers. -/
structure Xlt where
  ltb : List (List TEntry) := [[], [], [], []]
  ftc : List TEntry := []
  ctxCache : List (Nat × CtxEnt) := []
  descCache : List (Nat × DescEnt) := []
  walks : List Walk := []
  missQ : List Walk := []
  /-- requests of operations waiting at their engines because the miss queue is full (R90) or XLT takes none (R604) -/
  blocked : List XReq := []
  streams : List Stream := []
  prefetches : List Prefetch := []
  invQ : List Inv := []
  /-- invalidation messages that wait for room in the queue, with the nodes that sent them (R102) -/
  invWait : List (Nat × InvArgs) := []
  clock : Nat := 0
  deriving DecidableEq, Repr

/-! ## Fault batching (R107–R113) -/

/-- A fault record in the coalescing table (R107, R108). -/
structure FRec where
  cause : Nat
  ctx : Nat
  page : Nat
  landing : Nat
  ops : Nat
  tile : Bool
  count : Nat
  lva : Nat
  first : Nat
  seg : Nat
  region : Nat
  deriving DecidableEq, Repr

/-- A batch of one context (R109, R110, R112): its ring and settings, when it opened, whether it is due. -/
structure Batch where
  ctx : Nat
  ring : Nat
  thresh : Nat
  timerUs : Nat
  opened : Nat
  due : Bool
  recs : List FRec
  deriving DecidableEq, Repr

/-- A fault with the settings of its context (R109) and the tide time of its capture (R110). -/
structure FltIn where
  ring : Nat
  thresh : Nat
  timer : Nat
  at_ : Nat
  rec_ : FRec
  deriving DecidableEq, Repr

/-! ## Landings and the host port (R141–R143, R462–R481) -/

/-- An open write-combining block (R142): its block number GPA/256, the bytes present, when it opened, and the STOREs
it will answer as (TAG, context, access id). -/
structure WcBlock where
  block : Nat
  bytes : List (Nat × Byte)
  openedAt : Nat
  ticket : Nat
  stores : List (Nat × Nat × Nat)
  deriving DecidableEq, Repr

/-- A request of a landing or the host port in its in-order queue (R131): opcode, TAG, operands, data received so far,
the ticket it took at acceptance (R515), and the outcome of the translation of each page it touches (none: awaited). For
the host port, `tag` names the TLP and `part` the part of it; `win` the window. -/
structure PortReq where
  id : Nat
  op : Nat
  tag : Nat
  o : Opd
  data : List Byte
  ticket : Nat
  xl : List (Option XRes) := []
  part : Nat := 0
  win : Nat := 0
  deriving DecidableEq, Repr

/-- A LOAD of cached lines in progress (R470): each line with its bytes once they are known, and its status so far. -/
structure CLoad where
  id : Nat
  tag : Nat
  gpa : Nat
  len : Nat
  lines : List (Nat × Option (List Byte))
  status : Nat
  deriving DecidableEq, Repr

/-- A bulk request of a landing in progress (R468): the 256-byte parts still awaited, what came back, the mask and the
failures so far (R116). -/
structure Bulk where
  id : Nat
  tag : Nat
  isRead : Bool
  lva : Nat
  len : Nat
  data : List Byte
  waiting : List Nat
  okParts : Nat
  faults : Nat
  /-- lowest home status among the failures, 16 = none -/
  low : Nat
  mask : Nat
  deriving DecidableEq, Repr

/-- A request of a landing that is not accepted yet: its second frame or the landing is awaited (R466; R50, R90, R604). The number that
fences know it by while it waits at the boundary (R145), its opcode, and the slots of receive space that its frames hold, as (4 × class +
channel, slots); none once the link has gone down (R452). -/
structure LWait where
  id : Option Nat := none
  op : Nat
  q : LReq
  slots : List (Nat × Nat)
  deriving DecidableEq, Repr

/-- One landing. -/
structure Lnd where
  /-- read cache: line GPA/64 with its bytes, most recently used first (R470) -/
  rc : List (Nat × List Byte) := []
  /-- fills in flight that must install nothing (R470): access id and line -/
  noFill : List (Nat × Nat) := []
  wc : List WcBlock := []
  /-- TAGs outstanding (R467) -/
  tags : List Nat := []
  /-- first halves of linked pairs waiting for their DATA frame (R466) -/
  halves : List LWait := []
  /-- requests accepted and not yet issued, in acceptance order (R131) -/
  inQ : List PortReq := []
  loads : List CLoad := []
  bulks : List Bulk := []
  /-- acquires pending (R156): context and number of the request; later accesses of the context wait -/
  acquiring : List (Nat × Nat) := []
  /-- requests that wait at the landing's boundary, accepted by nobody yet (R50, R90, R604), oldest first -/
  gate : List LWait := []
  /-- frames for the accelerator that have not left, oldest first (R458, R462) -/
  outQ : List Frame := []
  /-- rank table (R295): index → entry -/
  ranks : Tbl Nat := []
  /-- rank windows (R293, R295): context → LND_RANK_WIN -/
  wins : Tbl Nat := []
  /-- index of the last microsecond considered for a TIME frame (R472) -/
  timeAt : Nat := 0
  deriving DecidableEq, Repr

/-- A BAR2 read or AtomicOp in progress (R477): TLP, window, the bytes of each part once they are known. -/
structure Bar2 where
  id : Nat
  win : Nat
  parts : List (Option (List Byte))
  failed : Bool
  deriving DecidableEq, Repr

/-- A TLP to BAR2 or BAR4 (R474, R477, R353). -/
inductive HTlp where
  | read (id off len : Nat)
  | write (off : Nat) (data : List Byte)
  | atomic (id off aop : Nat) (data : List Byte)
  | bell (off v : Nat)
  deriving DecidableEq, Repr

/-- A TLP with what its window's registers held when it arrived (R477): landing virtual address, context, ENABLE. -/
structure HWin where
  lva : Nat
  ctx : Nat
  enable : Bool
  deriving DecidableEq, Repr

/-- A TLP that waits at the port's boundary, with the number that fences know it by (R145). -/
structure HWait where
  id : Nat
  tlp : HTlp
  win : HWin
  deriving DecidableEq, Repr

/-- The host port: TLPs in progress, its in-order queue (R131), TLPs that wait at its boundary (R50, R90, R604). -/
structure HostPort where
  ops : List Bar2 := []
  inQ : List PortReq := []
  gate : List HWait := []
  /-- the base addresses in BAR0, BAR2 and BAR4 (R475), and power state D3hot (R474) -/
  bars : List Nat := [0, 0, 0]
  d3hot : Bool := false
  deriving DecidableEq, Repr

/-! ## Source engines (R129–R135, R144–R147, R428, R485, R492, R496) -/

/-- An outstanding request of a source engine. -/
structure OutReq where
  acc : Acc
  /-- what was sent, to be sent again (R135) -/
  msg : Emit
  dest : Nat
  tag : Nat
  /-- manifest number of a write -/
  man : Option Nat
  bytes : Nat
  /-- GPA lines it names (R129) -/
  lines : List Nat
  firstAt : Nat
  sentAt : Nat
  bounces : Nat
  deriving DecidableEq, Repr

/-- What waits for a fence (R144–R147, R156, R363). -/
inductive FenceThen where
  /-- a FENCE of a landing, answered with ERR_SEEN (R146) -/
  | lndFence (n tag : Nat)
  /-- WC_FLUSH: answered when the block writes it covers have ended (R143) -/
  | wcFlush (n tag : Nat)
  /-- a fence issued by the registers of a landing's page (R147) -/
  | lndReg (n : Nat)
  /-- a PUBLISH that waits for its release fence (R157) -/
  | publish (n : Nat) (q : PortReq)
  | ferry (e : Nat)
  deriving DecidableEq, Repr

/-- A fence: what it covers (access ids still open), what engine or context it holds back, and what it has seen. -/
structure Fence where
  id : Nat
  covered : List Nat
  /-- the engine (local) or context (domain) whose later accesses wait -/
  holdEng : Option Nat
  holdCtx : Option Nat
  errSeen : Bool
  /-- lowest status other than OK among covered writes (R157), 16 = none -/
  lowest : Nat
  next : FenceThen
  /-- attention requests that a domain fence covers (R331) -/
  ops : List Nat := []
  deriving DecidableEq, Repr

/-- A resync of a (engine, destination) pair (R496). -/
structure Resync where
  eng : Nat
  dest : Nat
  rseq : Nat
  sent : Bool
  sentAt : Nat
  deriving DecidableEq, Repr

/-- A write that has ended with TIMEOUT or NODE_LOST: a copy of it may still be applied until its pair is resynchronised (R129, R496). -/
structure LostWrite where
  eng : Nat
  dest : Nat
  man : Nat
  lines : List Nat
  deriving DecidableEq, Repr

/-- The source engines of the package. -/
structure Src where
  /-- next manifest number, key 128 × engine + destination (R133) -/
  mani : Tbl Nat := []
  /-- source window in bytes, same key; 0 = the initial window (R428) -/
  win : Tbl Nat := []
  winInit : Nat := 0x200 * 1024
  /-- 1 + time of the last decrease, same key -/
  winDec : Tbl Nat := []
  rseq : Tbl Nat := []
  reqs : List OutReq := []
  /-- requests that wait at their engine (R129, R134, R428, R496), in issue order -/
  held : List OutReq := []
  /-- requests that name no node of the domain: never sent (R32, R57), they end at their engine -/
  noNode : List OutReq := []
  fences : List Fence := []
  resyncs : List Resync := []
  /-- writes ended unanswered and not yet resynchronised, oldest first -/
  lost : List LostWrite := []
  /-- how the last request of (engine, tag) ended: 1 answered, 2 timed out; key 4096 × engine + tag (R486) -/
  ended : Tbl Nat := []
  /-- 1 + the tag last given to a request of an engine -/
  tags : Tbl Nat := []
  nextId : Nat := 1
  deriving DecidableEq, Repr

/-! ## The home (R61–R77, R118–R123, R136–R139, R187–R191, R493–R497) -/

/-- An extent-table entry (R63). -/
structure ExtEnt where
  state : Nat := 0
  region : Nat := 0
  gen : Nat := 0
  bm : Bitmaps := ⟨0, 0, 0, 0⟩
  deriving DecidableEq, Repr

/-- A region descriptor (R74). -/
structure Region where
  version : Nat := 0
  valid : Bool := false
  cls : Nat := 0
  pages : Nat := 0
  ptBase : Nat := 0
  publish : Nat := 0
  deriving DecidableEq, Repr

/-- A protection-table entry (R197). -/
structure ProtEnt where
  mode : Nat := 0
  degraded : Bool := false
  holder : Nat := 0
  peerNode : Nat := 0
  peerExt : Nat := 0
  deriving DecidableEq, Repr

/-- The state of a pair (R136, R497). -/
inductive PairState where
  | normal | broken | quarantine
  deriving DecidableEq, Repr

/-- An order-table entry (R136, R495, R497). `hist` holds (manifest number, status), newest first. -/
structure OrdEnt where
  expect : Nat := 0
  st : PairState := .normal
  hist : List (Nat × Nat) := []
  /-- taken and not yet performed -/
  open_ : List Nat := []
  holeAt : Option Nat := none
  lastRseq : Option Nat := none
  rseq : Nat := 0
  quietEnd : Nat := 0
  deriving DecidableEq, Repr

/-- A write as it waits at a home: a pool write with its kind, the medium it will find and, for a migration line, its
source GPA; or a write of another package's protection engine. -/
inductive Wr where
  | pool (r : Req) (kind : AKind) (media : List Media) (srcGpa : Nat)
  | delta (m : DeltaMsg)
  | mirror (m : MirrorMsg)
  | journal (m : JournalMsg)
  | rebuild (m : RebuildMsg)
  deriving DecidableEq, Repr

/-- An early write in the reorder store (R137, R138): the node ID it is for, its pair and manifest number. -/
structure HeldWrite where
  node : Nat
  src : Nat
  eng : Nat
  man : Nat
  wr : Wr
  deriving DecidableEq, Repr

/-- A fetch-log entry (R493). -/
structure FetchEnt where
  node : Nat
  src : Nat
  eng : Nat
  man : Nat
  status : Nat
  old : List Byte
  deriving DecidableEq, Repr

/-- Where a home operation stands after stage 4 (R205, R211, R217, R622): its journal message is outstanding;
protection answers are outstanding; an uncorrectable old line is being rebuilt; or it may be performed. -/
inductive Phase where
  | journal | protect | recon | ready
  deriving DecidableEq, Repr

/-- What a home operation is, beyond its lines. -/
inductive HKind where
  /-- a write of a pair, to be acknowledged -/
  | write
  /-- a refused write whose order record is with the partner -/
  | refused
  /-- a read that waits for the reconstruction of its lines (R210, R221) -/
  | read
  /-- page `k` of an attention group (requesting node, operation, group) whose lines are reconstructed (R331) -/
  | attn (src op grp k : Nat)
  /-- a parity delta of another member, or a mirror write of a ward, taken here (R204, R212): extent and byte offset -/
  | deltaIn (ext off : Nat)
  | mirrorIn (m : MirrorMsg)
  /-- a command that changed near extent 0 (R214): who asked (none: the registers), its name, result, generation -/
  | command (src : Option Nat) (name : String) (result gen : Nat)
  /-- an overwrite scrub of a line (R527) -/
  | scrub
  /-- a REGION_PTE of node `src` (R77) -/
  | regionPte (src : Nat)
  /-- a publish waiting for its mirror write (R214): the previous version -/
  | publish (prev : Nat)
  /-- a rebuild copy, taken here (R223–R226) -/
  | rebuildIn (m : RebuildMsg)
  /-- a pair's change of state on its way to the partner (R218) -/
  | note (q : OrderRec)
  /-- a repair that copies a line to the partner (R213) -/
  | repair
  /-- a completed revocation (R121, R123): generation, requests refused, time, who issued it -/
  | revocation (gen refused ns : Nat) (src : Option Nat)
  deriving DecidableEq, Repr

/-- The operation holds an entry for channel-1 requests (R412). -/
def HKind.chan1 : HKind → Bool
  | .deltaIn _ _ | .mirrorIn _ => true
  | _ => false

/-- A line a home operation writes: its GPA divided by 64, where it lies in this package (none: in a lost member's
stripe, R221), how it is covered, its new bytes under that cover, and the old ciphertext once it is known. -/
structure LineW where
  line : Nat
  phys : Option Nat
  key : Option (Nat × Nat)
  metadata : Bool
  bytes : List Byte
  old : Option (List Byte)
  deriving DecidableEq, Repr

/-- A home operation from stage 4 to its response (R127, R177). `phase` says what it waits for; `journaled` that its
order record is with the partner. -/
structure HOp where
  id : Nat
  kind : HKind
  /-- the node ID served -/
  node : Nat
  req : Req
  akind : AKind
  srcGpa : Nat
  gpa : Nat
  len : Nat
  ext : Nat
  /-- counted in flight -/
  counted : Bool
  ws : List LineW
  applied : Bool
  phase : Phase
  status : Nat
  /-- lines whose deltas, and number of mirror or forwarded writes, whose answers are outstanding -/
  deltas : List Nat
  copies : Nat
  oldData : List Byte
  /-- a stand-in has forwarded it to the spare (R224, R225) -/
  fwd : Bool := false
  deriving DecidableEq, Repr

/-- An access that has passed its checks and waits at the home in serialisation order: behind a line hazard, for an
AFTER write, for power (R127, R180, R208, R620). -/
inductive HItem where
  | write (node : Nat) (r : Req) (kind : AKind) (media : List Media) (srcGpa gpa len ext : Nat)
  | read (node : Nat) (r : Req) (kind : AKind) (media : List Media) (ext : Nat)
  | rc (m : RcMsg)
  /-- a REGION_PTE of node `src` that passed its checks: the entry's GPA and value -/
  | pte (src node region gpa entry : Nat) (media : List Media)
  /-- a parity delta, mirror write or rebuild copy of another package, as the operation it becomes -/
  | prot (o : HOp)
  /-- this package's own line of a reconstruction it runs itself: for member `member`, or as the holder's parity line (R208) -/
  | rcOwn (id member ext off : Nat) (parity : Bool)
  /-- page `k` of an attention group, admitted and not yet read (R128, R326) -/
  | page (src op grp k node gpa len : Nat)
  deriving DecidableEq, Repr

/-- A request at the home's boundary (R50, R179, R604): a write, a read, a version operation, a REGION_PTE, an RC_READ, an ATTN_QUERY. -/
inductive HArr where
  | write (n : Nat) (w : Wr)
  | read (kind : AKind) (r : Req) (media : List Media)
  | region (pub : Bool) (r : Req)
  | pte (src region page entry : Nat) (media : List Media)
  | rc (m : RcMsg)
  | query (q : AttnQuery)
  deriving DecidableEq, Repr

/-- What a reconstruction is for (R207, R210, R223). -/
inductive ReconFor where
  | op (id : Nat)
  | repair (line : Nat)
  | rebuild
  /-- a parity line that a holder's bind computes (R203) -/
  | bind
  deriving DecidableEq, Repr

/-- A reconstruction in progress (R208): extent, byte offset, missing position, positions whose answers are awaited,
the XOR so far, whether the parity line is still to read. `member` is the node ID reconstructed for. -/
structure Recon where
  id : Nat
  node : Nat
  ext : Nat
  off : Nat
  missing : Nat
  waiting : List Nat
  held : List Nat
  parityDone : Bool
  acc : List Byte
  failed : Bool
  why : ReconFor
  /-- what has been read locally and not yet taken: member, whether it fails the reconstruction, the line (R208) -/
  own : List (Nat × Bool × List Byte) := []
  deriving DecidableEq, Repr

/-- A line that RC_READ holds at a survivor (R208, R209). -/
structure RcHold where
  ext : Nat
  off : Nat
  by_ : Nat
  since : Nat
  deriving DecidableEq, Repr

/-- A ward's shadow (R218): its order table and protection table. -/
structure Shadow where
  ward : Nat
  ord : Tbl OrdEnt := []
  prot : Tbl ProtEnt := []
  deriving DecidableEq, Repr

/-- A takeover in progress at the stand-in (R223, R224): the lost node, the spare, its generation and phase, the
extents still to rebuild in phases 3 and 4 with the byte offset of the next line, and the wards. -/
structure Rebuild where
  lost : Nat
  spare : Nat
  gen : Nat
  phase : Nat
  todo : List Nat
  next : Nat
  total : Nat
  wards : List Nat
  /-- the fabric-manager node that started it -/
  fm : Nat
  /-- items of phases 1 and 2, or wards in phase 5, and how many have finished (R230) -/
  items : Nat := 0
  acked : Nat := 0
  deriving DecidableEq, Repr

/-- Phase 5 at a ward (R226): the stand-in that called for it, the lost node, what its new partner has still to acknowledge (extents by
index, 4095 for each order-table entry), and the extents sent. -/
structure WardRun where
  standin : Nat
  lost : Nat
  left : List Nat
  sent : List Nat
  deriving DecidableEq, Repr

/-- The home agent, the protection engine and the sampler. -/
structure Home where
  ext : Tbl ExtEnt := []
  region : Tbl Region := []
  prot : Tbl ProtEnt := []
  /-- in-flight counters (R119): own extents by index, a stand-in's at 4096 × (1 + node) + index -/
  infl : Tbl Nat := []
  /-- requests refused with EXTENT_REVOKED during the present revocation (R123) -/
  refused : Tbl Nat := []
  /-- who issued each open revocation: (extent, none = registers, some node = CTRL) -/
  revs : List (Nat × Option Nat) := []
  /-- order tables: key 8192 × (0 own, 1 + alias) + 64 × source + engine -/
  ord : Tbl OrdEnt := []
  store : List HeldWrite := []
  /-- duplicates that wait for their original (R619): node served, header and address -/
  dups : List (Nat × Hdr × Nat) := []
  fetchLog : List FetchEnt := []
  ops : List HOp := []
  /-- requests that wait at the home's boundary (R50, R179, R604), oldest first -/
  gate : List HArr := []
  /-- where the arbiter of the boundary goes on (R53) -/
  gatePtr : Nat := 0
  queue : List HItem := []
  recons : List Recon := []
  rcHolds : List RcHold := []
  /-- stale-line log (R207, R213): GPA / 64 of each line -/
  stale : List Nat := []
  shadows : List Shadow := []
  /-- the aliases served, oldest first (R138): each as stand-in from COPY extents (R220), or as spare after takeover (R225) -/
  aliases : List (Nat × Bool) := []
  partnerLost : Bool := false
  /-- the takeover this package runs as stand-in, and the one it takes as spare: sender and last phase ended -/
  rebuild : Option Rebuild := none
  rebuildFrom : Option Nat := none
  /-- group positions whose holder takes deltas again though DEGRADED stands (R224) -/
  resumed : List Nat := []
  rebuildSeen : Nat := 0
  /-- generation of the takeover whose copies this spare has taken last (R228) -/
  rebuildGen : Nat := 0
  /-- phase 5 at this package as a ward (R226) -/
  wardRun : Option WardRun := none
  /-- the holder's bind whose parity is being computed (R203): its index, who asked, the byte offset of the next line, whether a line could
  not be computed -/
  bindBusy : Option (Nat × Option Nat × Nat × Bool) := none
  /-- sampler: countdown (0 = not loaded), samples, last page and landing of each extent (R188, R189) -/
  cntdn : Tbl Nat := []
  rdSmp : Tbl Nat := []
  wrSmp : Tbl Nat := []
  lastPage : Tbl Nat := []
  lastLnd : Tbl Nat := []
  /-- LOG2_N in effect, bulk and near (R191) -/
  logN : Nat × Nat := (10, 10)
  nextOp : Nat := 1
  /-- places of corrected bulk lines waiting for their write-back, and whether written since (R172, R175) -/
  fixes : List (Nat × Bool) := []
  /-- check bursts cached: device, offset in its check region, written since it was read; newest first (R170, R171) -/
  checkCache : List (Nat × Nat × Bool) := []
  /-- the wrong symbols of the lines of the arrays, by place (R164, R170) -/
  damage : Tbl (List Nat) := []
  /-- the patrols of the near and the bulk tier: the line next to be visited, and 1 + the tide time at which the last pass began
  (R165, R175) -/
  nearPatrol : Nat × Nat := (0, 0)
  bulkPatrol : Nat × Nat := (0, 0)
  /-- the sampler's tables before the first sample of the latest nanosecond with one, and that time (R190) -/
  smpPrev : Nat × Tbl Nat × Tbl Nat × Tbl Nat × Tbl Nat := (0, [], [], [], [])
  deriving DecidableEq, Repr

/-! ## The switch (R378–R403) -/

/-- A frame in a VOQ: the second frame of a linked pair behind it (R466), whether it spilled and uses its floor (R384,
R390), the ordinary-channel credit taken for it (R416), where and on which channel it came in. -/
structure QFrame where
  f : Frame
  tail : Option Frame
  spilled : Bool
  inFloor : Bool
  credit : Option Nat
  inp : Nat
  arrChan : Nat
  /-- its slots of the VOQ partition while it is spilled (R385): slot `c` is 16 bytes of bank group `c / 2 ^ 22`, in address order of that
  group's VOQ extents -/
  cells : List Nat := []
  /-- it holds no receive space of its input that a credit would return (R448): made here, requeued, or come before the link last went down -/
  paid : Bool := false
  /-- no later frame of its class has come from its input: a DATA frame goes directly behind it (R466) -/
  last : Bool := false
  /-- it has been counted in STRAY_EPOCH (R424) -/
  stray : Bool := false
  deriving DecidableEq, Repr

/-- A virtual output queue (R382). -/
structure Voq where
  inp : Nat
  out : Nat
  cls : Nat
  q : List QFrame
  deriving DecidableEq, Repr

/-- A capture record waiting in the mirror buffer (R398), with the DEST of its session and the class of the frame at the capture (R399,
R403). -/
structure Capture where
  session : Nat
  dest : Nat
  cls : Nat
  bytes : List Byte
  deriving DecidableEq, Repr

/-- The switch core and the mirror block. -/
structure Swc where
  voqs : List Voq := []
  /-- frames that wait in receive space (R389, R391, R420), oldest first -/
  recvSpace : List QFrame := []
  /-- frames held for want of a live port (R395) -/
  heldFrames : List QFrame := []
  /-- 1 + the output by which the last frame of (input, class) has left, key 4 × input + class (R466) -/
  lastOut : Tbl Nat := []
  /-- consecutive CTRL departures of each output; bytes that each class has had of an output while RSP, REQ and BULK could all depart, key
  4 × output + class (R386) -/
  ctrlRun : Tbl Nat := []
  served : Tbl Nat := []
  /-- 1 + the last input granted, key 4 × output + class (R53) -/
  lastGrant : Tbl Nat := []
  /-- bank group that takes the next 256 bytes spilled (R385) -/
  spillNext : Nat := 0
  mirror : List Capture := []
  deriving DecidableEq, Repr

/-! ## Routes (R404–R425) -/

/-- The two route-table banks: entries by key 4 × destination + class, and what each bank's timers hold. -/
structure Rte where
  bankA : Tbl Nat := []
  bankB : Tbl Nat := []
  /-- flip time of an ARMED bank, in ns -/
  flipA : Nat := 0
  flipB : Nat := 0
  /-- flip that started the drain, in ns -/
  drainA : Nat := 0
  drainB : Nat := 0
  /-- tide time at which a bank became ACTIVE (R506) -/
  sinceA : Nat := 0
  sinceB : Nat := 0
  deriving DecidableEq, Repr

/-! ## Links (R436–R461) -/

/-- A width exchange in progress (R441): the width and mask asked for, whether it widens, whether the lanes it adds are ready, which side
asked, whether this side's WIDTH_ACK has been given, the AT_SEQ of the partner's, when it began. -/
structure WidthEx where
  width : Nat
  mask : Nat
  widening : Bool
  lanesReady : Bool
  askedByUs : Bool
  ackSent : Bool
  atSeq : Option Nat
  since : Nat
  deriving DecidableEq, Repr

/-- A link control message that an accepted flit brought (R447). -/
inductive Lctl where
  | param (a : ParamMsg)
  | widthReq (width mask : Nat)
  | widthAck (width mask atSeq : Nat)
  | retrainReq
  deriving DecidableEq, Repr

/-- The transmitter of a lane (R432, R433): the last 58 bits out of its scrambler, the last one highest; the 257-bit blocks of the codeword
under way, oldest first; how many codewords it has sent, modulo 16; the last symbol sent, which precoding needs. -/
structure LaneTx where
  scram : Nat := 0
  blocks : List Nat := []
  count : Nat := 0
  last : Nat := 0
  deriving DecidableEq, Repr

/-- A codeword that has left on a lane: its 2,720 PAM4 levels, −3, −1, +1 or +3, in the order sent (R431, R433). -/
structure LaneWord where
  port : Nat
  lane : Nat
  levels : List Int
  deriving DecidableEq, Repr

/-- What a flit carries but its acknowledgement (R443): SEQ, KIND, START, its grants as (class, channel, slots), its 15 slots. -/
structure Flit where
  seq : Nat
  kind : Nat
  start : Nat := 15
  grants : List (Nat × Nat × Nat) := []
  slots : List Byte := []
  deriving DecidableEq, Repr

/-- One link (R431–R458): fabric ports 0–23, attach ports 24–27. Its state, width and lanes stand in its PRT or LND page. -/
structure Link where
  /-- tide time of entry into TRAIN, RETRAIN (R437) and of the last entry into UP from PARAM (R506) -/
  since : Nat := 0
  upAt : Nat := 0
  /-- lanes that passed TRAIN (R435, R439) -/
  usable : Nat := 0
  /-- RETRAIN re-adapts a lane (R437) -/
  readapt : Bool := false
  /-- sequence numbers (R443, R450): last sent, last acknowledged by the partner, last accepted -/
  txSeq : Nat := 0
  acked : Nat := 0
  rxSeq : Nat := 0
  nakWait : Bool := false
  nakAt : Nat := 0
  progressAt : Nat := 0
  replays : Nat := 0
  flitsSinceAck : Nat := 0
  /-- credits held toward the partner, key 4 × class + channel (R448) -/
  credits : Tbl Nat := []
  /-- slots to return to the partner, same key -/
  owed : Tbl Nat := []
  /-- credits that the partner holds toward this port, same key; those advertised in the last PARAM (R44, R448) -/
  lent : Tbl Nat := []
  adv : List Nat := []
  /-- frames accepted that have not left the receive crossing, in order, and the slots of a frame of which some are to come (R43, R445) -/
  rx : List Frame := []
  /-- how many of them, the first ones, came before the link last went down: no credit is owed for them any more (R452) -/
  rxFree : Nat := 0
  rxPart : List Byte := []
  /-- the replay buffer: sequenced flits sent and not acknowledged, oldest first (R450) -/
  buffer : List Flit := []
  /-- link control messages that wait for room in it -/
  lctlWait : List (List Byte) := []
  width : Option WidthEx := none
  /-- link control messages of accepted flits that have not taken effect, oldest first (R447) -/
  lctlIn : List Lctl := []
  /-- 1 + tide time at which each lane entered SLACK (R441, R455) -/
  slackAt : Tbl Nat := []
  /-- the lane map of the transmitter, and the one that it takes after the flit of that sequence number (R434, R441) -/
  txMask : Nat := 0
  txSwitch : Option (Nat × Nat) := none
  /-- lanes that precode, by this receiver's request and by the partner's (R432) -/
  precRx : Nat := 0
  precTx : Nat := 0
  /-- the lanes' transmitters, and the place of the next block in the flit stream, modulo 16 (R433, R434) -/
  lanes : List LaneTx := List.replicate 16 {}
  blockAt : Nat := 0
  /-- uncorrectable codewords of the last millisecond: lane and tide time (R440) -/
  badWords : List (Nat × Nat) := []
  /-- 1 + tide time of the last RETRAIN or width change, and of the last replay (R545) -/
  changedSince : Nat := 0
  replayedSince : Nat := 0
  deriving DecidableEq, Repr

/-- An eye scan of a PHY or APHY page (R453), as PHY_EYE_CFG0 and PHY_EYE_CFG1 stood at GO: lane and eye, the limits of a point (symbols as
a power of two, disagreements), the last voltage step, the phase steps; and the next point (v, p). -/
structure Eye where
  page : Nat
  lane : Nat
  eye : Nat
  dwell : Nat
  limit : Nat
  vLast : Nat
  pFirst : Nat
  pLast : Nat
  v : Nat
  p : Nat
  deriving DecidableEq, Repr

/-! ## Recovery, tenancy, time, power, management -/

/-- What recovery keeps outside the RCV page (R500–R504). -/
structure Rcv where
  /-- 1 + tide time at which NODE_LOST(L) was last applied -/
  lostAt : Tbl Nat := []
  /-- last generation at which each command was executed: (op, node) -/
  done : List (Nat × Nat × Nat) := []
  servingAt : Option Nat := none
  phase4Last : Bool := false
  deriving DecidableEq, Repr

/-- An SPDM session (R534). -/
structure Session where
  id : Nat
  mctp : Bool
  established : Bool
  mutualAuth : Bool
  rootDigest : Nat
  keyGen : Nat
  deriving DecidableEq, Repr

/-- The security engine (R513–R537). -/
structure Sec where
  /-- the two key slots: 512-bit keys (R518); their KEY_IDs stand in SEC_KEY_ID and SEC_STAGED_ID -/
  active : Option Nat := none
  staged : Option Nat := none
  /-- which release of RESET_N drew the metadata key (R186) -/
  metaGen : Nat := 0
  /-- the node whose command asked for the retirement (none: registers) -/
  bumpSrc : Option Nat := none
  /-- BUMP's place in tide time (R524) and the entry into ERASING (R526) -/
  bumpAt : Nat := 0
  eraseAt : Nat := 0
  /-- SPDM: negotiated version, capabilities and algorithms exchanged, sessions (R534) -/
  spdmVersion : Nat := 0
  spdmCaps : Bool := false
  spdmAlgs : Bool := false
  sessions : List Session := []
  nextSession : Nat := 1
  /-- the verified image (R530): its version, its SHA-384, and whether the secondary was taken -/
  imageVersion : Nat := 0
  imageDigest : Nat := 0
  secondary : Bool := false
  /-- the ROM has locked the identity key until the next RESET_N (R533) -/
  identityLocked : Bool := false
  /-- the alias key, and the alias certificate that the identity key signed, once the ROM has made them (R533) -/
  aliasKey : Option Nat := none
  aliasCert : Nat := 0
  deriving DecidableEq, Repr

/-- Tide time (R540–R551): the counter in 1/256 ns, what the servo and the exchanges keep. -/
structure Tim where
  tide : Nat := 0
  /-- remainder of the rate scaling, in 10⁻⁹ of 1/256 ns -/
  rem : Int := 0
  /-- the counter is held until upstream reaches it: that value (R546) -/
  holdFor : Option Nat := none
  /-- length of hold so far, to stretch open windows (R554) -/
  upstream : Int := 0
  /-- t1 of the exchanges whose reply is awaited (R544) -/
  exchange : List Nat := []
  firstDone : Bool := false
  /-- accepted exchanges within 8 ns since the step or hold; discards in a row (R546) -/
  good : Nat := 0
  badRun : Nat := 0
  nextSync : Nat := 0
  ppsArmed : Bool := false
  ppsLast : Option Nat := none
  ppsHigh : Nat := 0
  latch : Nat := 0
  lastPpsOut : Nat := 0
  lastBeat : Nat := 0
  deriving DecidableEq, Repr

/-- Steps of the entry into MOORED (R563). -/
inductive MoorStep where
  | none | e1 | e2 | e3 | e4 | e5
  deriving DecidableEq, Repr

/-- A wake seen: source, port, lane and time in ns (R566). -/
structure WakeRec where
  source : Nat
  port : Nat
  lane : Nat
  ns : Nat
  deriving DecidableEq, Repr

/-- Power (R556–R577). -/
structure Pwr where
  /-- entry into MOORED (R563): the step, when it began, whether a wake aborts it, a wake seen in E5 (R565) -/
  step : MoorStep := .none
  stepAt : Nat := 0
  abort : Bool := false
  wakeAtE5 : Option WakeRec := none
  /-- the last-wake record may be written (R566) -/
  wakeOpen : Bool := true
  /-- when the exit from MOORED began -/
  exitAt : Nat := 0
  /-- ports whose lanes are armed for wake: bit p (R563) -/
  armed : Nat := 0
  /-- configuration store (R564): register words, protection table, route banks -/
  savedRegs : Tbl W32 := []
  savedProt : Tbl ProtEnt := []
  savedBanks : Tbl Nat × Tbl Nat := ([], [])
  /-- most recent register or pin order: cap and CAP_SRC; whether an order waits to act (R568, R571) -/
  order : Nat := 950
  orderSrc : Nat := 0
  pendingOrder : Bool := false
  /-- the thermal order is in force; readings at or above 115 °C in a row (R575) -/
  thermal : Bool := false
  hot : Nat := 0
  /-- links are narrowed, array pairs held off under the cap (R570) -/
  narrowed : Bool := false
  arraysHeld : Bool := false
  /-- pairs that the IDLE command turns off: bit k (R561) -/
  idleReq : Nat := 0
  /-- energy in mJ as last measured (R577) -/
  mj : Nat := 0
  /-- index of the telemetry window last closed (R576) -/
  windowAt : Nat := 0
  deriving DecidableEq, Repr

/-- The management core's fabric-manager queue (R615). -/
structure Mgmt where
  sendQ : List (List Byte) := []
  deriving DecidableEq, Repr
/-! ## The ferryman and what it runs (R256–R377) -/

/-- States of an operation on the scoreboard (R289). -/
inductive OpState where
  | waiting | ready | running | signalling | complete
  deriving DecidableEq, Repr

/-- A page of an operation's addresses: side (a slot, or source and destination), landing virtual page, outcome. -/
structure OpPage where
  side : Nat
  page : Nat
  res : Option XRes
  deriving DecidableEq, Repr

/-- A wait of an operation (R285, R288): met; on the watch table, or polled; an access outstanding, with the value its CAS
expects; the watched line written since; when its word was last read. -/
structure WaitSt where
  met : Bool := false
  armed : Bool := false
  busy : Bool := false
  expect : Nat := 0
  hit : Bool := false
  readAt : Nat := 0
  deriving DecidableEq, Repr

/-- An operation from acceptance to its completion record (R282–R290, R373). `seq` orders operations within a state;
`scored` is false for a refused header (R284). -/
structure FOp where
  id : Nat
  desc : List Byte
  kind : Nat
  ctx : Nat
  ticket : Nat
  /-- the landing its context is bound to, if it is valid -/
  landing : Option Nat
  subRing : Nat
  cmpRing : Nat
  state : OpState
  scored : Bool
  acceptAt : Nat
  seq : Nat
  waits : List WaitSt := [{}, {}]
  retired : Bool := false
  status : Nat := 0
  result : Nat := 0
  stop : Nat := 0
  srcMask : Nat := 0
  dstMask : Nat := 0
  fenceErr : Bool := false
  pages : List OpPage := []
  /-- where the sides of a ferry's tiles lay: side, page, page of GPAs (R365) -/
  maps : List (Nat × Nat × Nat) := []
  deriving DecidableEq, Repr

/-- What a transfer of an operation carries. -/
inductive XKey where
  /-- the source data of a ferry tile; its writes -/
  | tileRead (t : Nat)
  | tileWrite (t : Nat)
  /-- a program image for an array: the part that holds its header, the rest -/
  | image (arr : Nat)
  | imageRest (arr : Nat)
  | drain (arr : Nat)
  /-- collective: the local data of a segment; a segment of OUT; a progress count -/
  | collIn (step chunk seg : Nat)
  | collOut (chunk seg : Nat)
  | collProgress
  /-- attention: queries and list, a record -/
  | attnIn (list : Bool)
  | attnRecord (i : Nat)
  /-- dispatch: an area read (0 tokens, 1 expert table, 2 biases), the row or the header of the current choice's slot at a GPA, a route entry -/
  | dispIn (area : Nat)
  | dispSlot (gpa : Nat) (header : Bool)
  | dispRoute
  deriving DecidableEq, Repr

/-- The transfer reads a program image (R274). -/
def XKey.isImage : XKey → Bool
  | .image _ | .imageRest _ => true
  | _ => false

/-- One access of a transfer: side and address in the operation's own space, GPA, length, data and status once known. -/
structure XPart where
  side : Nat
  addr : Nat
  gpa : Nat
  len : Nat
  data : List Byte := []
  status : Option Nat := none
  /-- source GPA of a migration line (R192) -/
  srcGpa : Nat := 0
  deriving DecidableEq, Repr

/-- A transfer: the accesses an engine makes for one purpose. -/
structure Xfer where
  id : Nat
  op : Nat
  eng : Nat
  key : XKey
  kind : AKind
  parts : List XPart
  deriving DecidableEq, Repr

/-- A submission ring beyond its registers (R355, R356): the slots read so far of the descriptor being fetched, whether a
slot read is outstanding, how often the ring has been enabled. -/
structure SubRing where
  got : List Byte := []
  busy : Bool := false
  gen : Nat := 0
  deriving DecidableEq, Repr

/-- A tile of a running ferry descriptor (R359, R366–R368): page masks so far, whether some of it failed, its reads once they have ended
and until its writes are issued, whether those are. -/
structure FTile where
  t : Nat
  srcMask : Nat
  dstMask : Nat
  bad : Bool
  got : Option (List XPart) := none
  wrote : Bool := false
  deriving DecidableEq, Repr

/-- A ferry engine (R348, R363–R369): its operation, the first tile of the run, the next one, whether it waits for its
fence or for translations of the next tile, whether it issues no further tile, tiles in hand, tiles that failed with their
masks, tiles completed in full, whether some element was moved, whether some translation failed, the lowest home status
(16 = none). -/
structure FerryEng where
  op : Option Nat := none
  first : Nat := 0
  next : Nat := 0
  fencing : Bool := false
  xlating : Bool := false
  halted : Bool := false
  live : List FTile := []
  failed : List FTile := []
  done : List Nat := []
  moved : Bool := false
  xf : Bool := false
  low : Nat := 16
  deriving DecidableEq, Repr

/-- A program store (R274): its key, image, and whether it is removed at END (R291). -/
structure ArrProg where
  ctx : Nat
  gpa : Nat
  image : List Byte
  used : Nat
  drop : Bool := false
  deriving DecidableEq, Repr

/-- A slice on an array (R269–R271, R277): job, slice number, program store, the tiles still to do (the cursor first), the
elements of K it takes and its K position, program counter, LOOPs open (first instruction, one past the last, runs left,
innermost first). Before `started` its program is loaded (the image as far as it is read, its worst status; 16 = none) and
its pages are translated. -/
structure ArrSlice where
  op : Nat
  num : Nat
  store : Nat
  tiles : List Nat
  k0 : Nat
  k1 : Nat
  kpos : Nat
  pc : Nat := 0
  loops : List (Nat × Nat × Nat) := []
  loading : Bool := false
  image : List Byte := []
  bad : Nat := 16
  started : Bool := false
  /-- PNT_PROG_INV named the program while it was loading (R291) -/
  drop : Bool := false
  deriving DecidableEq, Repr

/-- An exact value: NaN, an infinity, or (−1)^neg × m × 2^e; a zero keeps its sign. -/
inductive XVal where
  | nan
  | inf (neg : Bool)
  | fin (neg : Bool) (m : Nat) (e : Int)
  deriving DecidableEq, Repr

/-- The exact sum of products that a cell has formed of a pair of MX blocks not yet complete (R248): none yet, whether an operand was NaN,
whether an element of it is undefined (R264). -/
structure MacSum where
  val : Option XVal := none
  nanIn : Bool := false
  lost : Bool := false
  deriving DecidableEq, Repr

/-- A pontoon array (R256, R274): four program stores, its slice, accumulator banks and index registers row by row, the
A and B latches of its cells row by row, the pairs of MX blocks that its MACs left open (R248): bank, number along K, sums; the operation
that holds it beside slices (R310), when it last ran a slice. -/
structure Arr where
  progs : List (Option ArrProg) := [none, none, none, none]
  slice : Option ArrSlice := none
  banks : List (List Nat) := [[], [], [], []]
  index : List Nat := []
  latchA : List Nat := []
  latchB : List Nat := []
  pend : List (Nat × Nat × List MacSum) := []
  heldBy : Option Nat := none
  lastRun : Nat := 0
  clock : Nat := 0
  deriving DecidableEq, Repr

/-- An array job in RUNNING (R262, R276–R279): slices not yet issued and not yet ended, whether its slots are translated,
the span accesses it holds (node, extent), the lowest failure (16 = none). -/
structure Job where
  op : Nat
  toIssue : List Nat
  left : Nat
  xlated : Bool := false
  spans : List (Nat × Nat) := []
  low : Nat := 16
  deriving DecidableEq, Repr

/-- A segment of a collective (R297, R307): step or exchange, chunk, index, its wire data. -/
structure CSeg where
  step : Nat
  chunk : Nat
  seg : Nat
  data : List Byte
  /-- CMARK with which it came (R427) -/
  cmark : Nat := 0
  deriving DecidableEq, Repr

/-- A segment sent and not yet acknowledged (R308). -/
structure CSent where
  peer : Nat
  s : CSeg
  eng : Nat
  sentAt : Nat
  /-- BOUNCES of its frame (R392) -/
  bounces : Nat := 0
  deriving DecidableEq, Repr

/-- A collective that holds a receive-stage slot (R292–R317): its ranks, whether it runs yet (translations made) or aborts
(status, rank, step), the time of its last progress event, segments received and not yet taken into an array, all received,
segments that wait for a credit with their peer rank, segments unacknowledged, credits by peer rank, steps whose first
credit has been sent, segments final in OUT, chunks counted as progress, segments that an array reduces while their local
data is read, the exchange credited last, the step it has reached, its step window in µs. -/
structure Coll where
  op : Nat
  ranks : List Nat := []
  running : Bool := false
  abort : Option (Nat × Nat × Nat) := none
  progressAt : Nat := 0
  stage : List CSeg := []
  seen : List (Nat × Nat × Nat) := []
  ready : List (Nat × CSeg) := []
  sent : List CSent := []
  credits : Tbl Nat := []
  digested : List Nat := []
  final : List (Nat × Nat) := []
  counted : List Nat := []
  work : List CSeg := []
  exchange : Nat := 1
  step : Nat := 0
  window : Nat := 0
  /-- bounced segments that wait for the release of the brake (R307, R310) -/
  again : List CSent := []
  /-- first bytes of a piece that came with the segment before its own (R297) -/
  tails : List CSeg := []
  /-- pieces ready to be sent, out of which segments are made (R297) -/
  pieces : List CSeg := []
  deriving DecidableEq, Repr

/-- An entry of an attention request's page list (R323): its address and valid positions, its GPA once known, its failure
(0 = none). -/
structure AttnEntry where
  addr : Nat
  valid : Nat
  gpa : Option Nat := none
  fail : Nat := 0
  deriving DecidableEq, Repr

/-- A record of an attention request (R329): group and place of the page within it, first list entry, home (none where no
page of it translates), pages, its status once placed, and whether its write has been acknowledged. -/
structure AttnRec where
  grp : Nat
  k : Nat
  first : Nat
  home : Option Nat
  pages : Nat
  status : Option Nat := none
  /-- lowest failure among a group's entries before it was sent (R329) -/
  fail : Option Nat := none
  written : Bool := false
  deriving DecidableEq, Repr

/-- An attention request in RUNNING (R325, R329, R330): the stage of its start (0 bases translate, 1 queries and list are
read, 2 pages translate, 3 groups are out), queries, entries, records, and the lowest status of a failed record write. -/
structure AttnReq where
  op : Nat
  stage : Nat := 0
  q : Option (List Byte) := none
  entries : Option (List AttnEntry) := none
  recs : List AttnRec := []
  low : Nat := 16
  deriving DecidableEq, Repr

/-- Every group has left and has returned its record, or has ended without (R331). -/
def AttnReq.returned (a : AttnReq) : Bool := a.stage == 4 && a.recs.all (fun r => r.status.isSome)

/-- A partial (m, l, o) for each query row (R327, R328), as FP32 codes. -/
structure Partial where
  m : List Nat
  l : List Nat
  o : List Nat
  deriving DecidableEq, Repr

/-- A group in the serve queue of a home (R326, R333): the query, each page's status at admission, whether it has been
scored, its own partial under GRAIN PAGE, and the running partial of each array under GRAIN GROUP. -/
structure ServeGroup where
  q : AttnQuery
  status : List Nat
  /-- its place among what waits for arrays (R290, R333) -/
  seq : Nat := 0
  scored : List Nat := []
  /-- pages whose lines are being rebuilt; the bytes of those that are (R172, R331) -/
  waiting : List Nat := []
  rebuilt : List (Nat × List Byte) := []
  pages : List (Nat × Partial) := []
  arrs : List (Nat × Partial) := []
  deriving DecidableEq, Repr

/-- A choice of a token (R338–R342): rank, first expert, gate. -/
structure Choice where
  token : Nat
  rank : Nat
  first : Nat
  gate : Nat
  deriving DecidableEq, Repr

/-- The choice a dispatch is resolving (R340–R343): the expert tried, attempts at re-routing so far, whether the spill
counter is asked, outcome and slot once allocated. -/
structure Resolving where
  c : Choice
  expert : Nat
  tries : Nat := 0
  spill : Bool := false
  outcome : Nat := 0
  slot : Nat := 0xFFFFFFFF
  status : Nat := 0
  deriving DecidableEq, Repr

/-- A dispatch in RUNNING (R337–R344): the stage of its start (0 areas translate, 1 areas are read, 4 its spans wait for room at the home,
2 its tokens are there, 3 choices are resolved), its copy of the expert table, biases, tokens and their re-route candidates not yet tried, the choices still to
resolve, the current one, counts, the lowest failure (16 = none), its span accesses. -/
structure DispReq where
  op : Nat
  stage : Nat := 0
  table : Option (List Byte) := none
  bias : Option (List Byte) := none
  tokens : Option (List Byte) := none
  cands : List (Nat × List Nat) := []
  todo : List Choice := []
  cur : Option Resolving := none
  dropped : Nat := 0
  low : Nat := 16
  spans : List (Nat × Nat) := []
  deriving DecidableEq, Repr

/-- The ferryman, its engines and units. -/
structure Fry where
  ops : List FOp := []
  nextOp : Nat := 1
  seq : Nat := 0
  /-- operations that ended with TIMEOUT while the CAS of a wait was outstanding: as they waited (R289) -/
  late : List FOp := []
  /-- the ring whose descriptor was fetched last, and how many of it in a row (R355) -/
  fetchLast : Nat := 63
  fetchRun : Nat := 0
  subs : List SubRing := List.replicate 64 {}
  /-- completion rings whose near-tier record is being written (R371) -/
  cmpBusy : List Nat := []
  /-- how often each completion ring has been enabled or reset: an answer to a record written before is void (R371, R377) -/
  cmpGen : Tbl Nat := []
  xfers : List Xfer := []
  engs : List FerryEng := List.replicate 32 {}
  arrs : List Arr := List.replicate 16 {}
  jobs : List Job := []
  /-- array pairs asked for (R278, R559): bit k -/
  pairReq : Nat := 0
  colls : List Coll := []
  /-- credits that came before their collective entered RUNNING here (R308, R318) -/
  early : List CollCredit := []
  attn : List AttnReq := []
  serve : List ServeGroup := []
  disp : List DispReq := []
  deriving DecidableEq, Repr


/-! ## The package -/

/-- Everything the package holds but the bytes of its pool memory. -/
structure Dev where
  /-- registers of BAR0 by byte offset; an unlisted one holds its reset word (R6, R7) -/
  regs : Tbl W32 := []
  /-- counters, key 1024 × page + index (R610) -/
  cnts : Tbl Nat := []
  /-- latched high words of counters, same key -/
  cntLatch : Tbl Nat := []
  /-- what has left the package, oldest first; and the codewords that have left on the lanes of its links -/
  out : List Emit := []
  /-- the EPOCH at the time when each of them left, which those handed to the crossbar carry (R423) -/
  epochs : List Bool := []
  line : List LaneWord := []
  /-- the model's own field: how many free values have been drawn (log entry 2) -/
  freeCtr : Nat := 0
  glb : Glb := {}
  xlt : Xlt := {}
  flt : List Batch := []
  /-- faults that wait for a quiesced FLT block (R604) -/
  fltWait : List FltIn := []
  src : Src := {}
  lnd : List Lnd := [{}, {}, {}, {}]
  host : HostPort := {}
  home : Home := {}
  swc : Swc := {}
  rte : Rte := {}
  links : List Link := List.replicate 28 {}
  eyes : List Eye := []
  rcv : Rcv := {}
  sec : Sec := {}
  tim : Tim := {}
  pwr : Pwr := {}
  mgmt : Mgmt := {}
  fry : Fry := {}
  deriving DecidableEq, Repr

/-- How the bytes of a 64-byte line of a tier stand in the arrays (R184, R186, R202): as they are, as the ciphertext
of the listed plaintext under a tenant key and data unit number, or under the metadata key for the line at which they were stored; or they
are gone, and free, since a loss of power (R558, R563). -/
inductive Cover where
  | raw
  | key (k unit : Nat)
  | metadata (line : Nat)
  | lost (draw : Nat)
  deriving DecidableEq, Repr

/-- The pool memory of the package: the bytes of both tiers, keyed by 64 × place + byte (R168), as the plaintext under the cover of their
line. -/
structure Store where
  mem : List Host.Cell := []
  covers : Tbl Cover := []
  /-- places whose contents were lost with their power (R558, R563): the first, one past the last, and the free value drawn at the loss,
  to which what they hold is applied -/
  lost : List (Nat × Nat × Nat) := []
  deriving DecidableEq, Repr

/-- The state of the block: its memory, everything else, and the queue of commands that wait, first in, first out. -/
structure State where
  pending : List Instr
  store : Store
  dev : Dev
  deriving DecidableEq, Repr

/-- The package right after the first release of RESET_N (R583): every register at its reset value, tide time 0, no
tenant, boot stage REPAIR, straps 0, nothing in memory, no command waiting. -/
def State.reset : State := ⟨[], {}, {}⟩

end Sys2Proof.Machine
end

