-- ==== Sys2Proof/Machine/Tbl.lean ====
section
/-!
DEFINITION. The sparse tables: reading, writing and the canonical form. A key that is not listed reads as what
`dflt` says; a write of that value removes the entry, so equal tables are equal data.
-/
namespace Sys2Proof.Machine

variable {α : Type}

/-- What key `k` holds. -/
def tget (dflt : Nat → α) : Tbl α → Nat → α
  | [], k => dflt k
  | (a, v) :: t, k => if a = k then v else tget dflt t k

/-- The table without key `k`. -/
def terase : Tbl α → Nat → Tbl α
  | [], _ => []
  | (a, v) :: t, k => if a = k then terase t k else (a, v) :: terase t k

/-- The table with key `k` listed as `v`. -/
def tput : Tbl α → Nat → α → Tbl α
  | [], k, v => [(k, v)]
  | (a, w) :: t, k, v => if a = k then (k, v) :: t else if k < a then (k, v) :: (a, w) :: t else (a, w) :: tput t k v

/-- The table after `v` is written at `k`: writing what an unlisted key reads as removes the entry. -/
def tset [DecidableEq α] (dflt : Nat → α) (t : Tbl α) (k : Nat) (v : α) : Tbl α :=
  if v = dflt k then terase t k else tput t k v

/-- A table of numbers in which an unlisted key reads 0. -/
def nget (t : Tbl Nat) (k : Nat) : Nat := tget (fun _ => 0) t k

/-- A table of numbers after `v` is written at `k`. -/
def nset (t : Tbl Nat) (k v : Nat) : Tbl Nat := tset (fun _ => 0) t k v

/-- Every key above `k`. -/
def tabove (k : Nat) : Tbl α → Bool
  | [] => true
  | (a, _) :: _ => decide (k < a)

/-- The canonical form: keys strictly rising, no entry equal to what an unlisted key reads as. -/
def twf [DecidableEq α] (dflt : Nat → α) : Tbl α → Bool
  | [] => true
  | (a, v) :: t => tabove a t && !(decide (v = dflt a)) && twf dflt t

/-- The table without the keys that `p` accepts. -/
def tdrop (p : Nat → Bool) (t : Tbl α) : Tbl α := t.filter (fun e => !p e.1)

end Sys2Proof.Machine
end

