-- ==== Sys2Proof/Machine/Ops.lean ====
section
/-!
DEFINITION. The shared operations of the package: reading and writing register fields, counters, interrupts (R606),
first-error capture with the error ring (R487, R490), host-memory rings, what leaves the package, free values.
-/
namespace Sys2Proof.Machine

/-! ### How a meaning acts on the state -/

/-- A command that acts on everything but the bytes of pool memory. -/
def onDev (f : Dev → Dev) (s : State) : Host.Outcome State Fault Refusal := .next { s with dev := f s.dev }

/-- A command that acts on pool memory too. -/
def onAll (f : Store × Dev → Store × Dev) (s : State) : Host.Outcome State Fault Refusal :=
  .next { s with store := (f (s.store, s.dev)).1, dev := (f (s.store, s.dev)).2 }

/-! ### Registers (R6, R7) -/

/-- The stored word of the register at BAR0 offset `a`. -/
def Dev.word (d : Dev) (a : Nat) : Nat := (tget resetWord d.regs a).toNat

/-- The register at BAR0 offset `a` set to `v`. -/
def Dev.setWord (d : Dev) (a v : Nat) : Dev := { d with regs := tset resetWord d.regs a (BitVec.ofNat 32 v) }

/-- BAR0 offset of number `i` of field `f`'s register in page `p` (R6). -/
def Fld.addr (f : Fld) (p i : Nat) : Nat := p * 0x1000 + f.at i

/-- Field `f` of page `p`, number `i`. -/
def Dev.rdpi (d : Dev) (f : Fld) (p i : Nat) : Nat := bits (d.word (f.addr p i)) f.lo f.w

/-- Field `f` of page `p`. -/
def Dev.rdp (d : Dev) (f : Fld) (p : Nat) : Nat := d.rdpi f p 0

/-- Field `f` of the first page of its kind, number `i`. -/
def Dev.rdi (d : Dev) (f : Fld) (i : Nat) : Nat := d.rdpi f f.page i

/-- Field `f` of the first page of its kind. -/
def Dev.rd (d : Dev) (f : Fld) : Nat := d.rdpi f f.page 0

/-- Field `f` of page `p`, number `i`, set to `v`. -/
def Dev.wrpi (d : Dev) (f : Fld) (p i v : Nat) : Dev :=
  d.setWord (f.addr p i) (putBits (d.word (f.addr p i)) f.lo f.w v)

/-- Field `f` of page `p` set to `v`. -/
def Dev.wrp (d : Dev) (f : Fld) (p v : Nat) : Dev := d.wrpi f p 0 v

/-- Field `f`, number `i`, set to `v`. -/
def Dev.wri (d : Dev) (f : Fld) (i v : Nat) : Dev := d.wrpi f f.page i v

/-- Field `f` set to `v`. -/
def Dev.wr (d : Dev) (f : Fld) (v : Nat) : Dev := d.wrpi f f.page 0 v

/-- Field `f` counted up by `k`, wrapping at its width. -/
def Dev.bump (d : Dev) (f : Fld) (k : Nat) : Dev := d.wr f (d.rd f + k)

/-- Tide time in nanoseconds (R540). -/
def Dev.ns (d : Dev) : Nat := d.tim.tide / 256

/-- A length in µs as tide units of 1/256 ns. -/
def us (n : Nat) : Nat := n * 1000 * 256

/-- A length in ns as tide units. -/
def nsT (n : Nat) : Nat := n * 256

/-! ### Power domains (R556, R476) -/

/-- The power domain whose state decides how page `p` answers (R601). -/
def pageDomain (p : Nat) : Nat :=
  if 0x80 ≤ p ∧ p < 0x98 then (p - 0x80) / 4
  else if 0xA0 ≤ p ∧ p < 0xB8 then (p - 0xA0) / 4
  else if 0x10 ≤ p ∧ p < 0x14 then 6 + (p - 0x10)
  else if 0xB8 ≤ p ∧ p < 0xBC then 6 + (p - 0xB8)
  else if p = 0x18 then 10
  else if 0x40 ≤ p ∧ p < 0x50 then 12 + (p - 0x40) / 2
  else if p = 0x20 ∨ p = 0x21 ∨ (0x30 ≤ p ∧ p < 0x34) ∨ (0x50 ≤ p ∧ p < 0x53) then 27
  else if p = 3 then 28
  else if p = 0x69 then 29
  else if p ≤ 4 ∨ p = 0xC0 ∨ p = 0xC1 then 26
  else 11

/-- Whether power domain `i` is on: AON always is (R556), the others as PWR_DOM_STAT says. -/
def Dev.domOn (d : Dev) (i : Nat) : Bool := i == 26 || bit (d.rd F.PWR_DOM_STAT_ON) i

/-- Whether page `p`'s block has power. -/
def Dev.pageOn (d : Dev) (p : Nat) : Bool := d.domOn (pageDomain p)

/-- Domain `i` turns on or off; PACE counts from the time at which it turned on (R39, R557). -/
def Dev.setDom (i : Nat) (on : Bool) (d : Dev) : Dev :=
  { d with glb := { d.glb with domAt := if on then nset d.glb.domAt i d.tim.tide else d.glb.domAt } }.wr F.PWR_DOM_STAT_ON
    (putBit (d.rd F.PWR_DOM_STAT_ON) i on)

/-- The cap in force (R568): with the thermal order, the lower of 380 W and the most recent order. -/
def Dev.capInForce (d : Dev) : Nat := min 950 (if d.pwr.thermal then min 380 d.pwr.order else d.pwr.order)

/-- Some fabric port of group `g` has PRT_CFG.ENABLE = 1. -/
def Dev.groupEnabled (d : Dev) (g : Nat) : Bool := [0, 1, 2, 3].any (fun i => d.rdp F.PRT_CFG_ENABLE (0x80 + 4 * g + i) == 1)

/-- Some mirror session is enabled. -/
def Dev.mirrorEnabled (d : Dev) : Bool := [0, 1, 2, 3].any (fun s => d.rdi F.MIR_SESS_CFG_ENABLE s == 1)

/-- The rule under which domain `i` is on in ACTIVE and IDLE (R556); array pairs, 12 to 19, turn on under R559. -/
def Dev.domCond (d : Dev) (i : Nat) : Bool :=
  let req := bit (d.rd F.PWR_DOM_REQ_REQ) i
  if i < 6 then req && d.groupEnabled i
  else if i < 10 then req
  else if 12 ≤ i ∧ i < 20 then false
  else if 21 ≤ i ∧ i < 24 then req
  else if i = 29 then req || decide (d.capInForce < 950) || d.mirrorEnabled
  else true

/-- The power controller quiesces the block of page `p` before it turns its domain off (R50, R604): the condition of a port group, a
landing or the mirror no longer holds, or the bit of an array pair in PWR_DOM_REQ has been cleared. The bank groups NG1 to NG3 have no
page of their own; their bit can be cleared only while all their extents are FREE (R558). -/
def Dev.powerHeld (d : Dev) (p : Nat) : Bool :=
  let i := pageDomain p
  if 12 ≤ i ∧ i < 20 then !bit (d.rd F.PWR_DOM_REQ_REQ) i else (decide (i < 10) || i == 29) && !d.domCond i

/-- The block of page `p` takes new work: it has power, and is neither quiesced nor held out of service (R50, R604). -/
def Dev.takes (d : Dev) (p : Nat) : Bool :=
  d.pageOn p && d.rdp F.BLK_CTRL_QUIESCE p == 0 && d.rdp F.BLK_CTRL_ENABLE p == 1 && !d.powerHeld p

/-! ### What leaves the package -/

/-- States of a bank: 0 RETIRED, 1 ARMED, 2 ACTIVE, 3 DRAINING (R422); `b` = true names bank B. -/
def Dev.bankState (d : Dev) (b : Bool) : Nat := if b then d.rd F.RTE_BANK_STATE_B else d.rd F.RTE_BANK_STATE_A

/-- The bank that the last flip made ACTIVE. -/
def Dev.activeBank (d : Dev) : Bool := d.rd F.RTE_BANK_ACTIVE == 1

/-- Whether a half-open window that ends at flip time T of an armed bank has ended (R423). -/
def Dev.flipDue (d : Dev) (b : Bool) : Bool :=
  d.bankState b == 1 && decide ((if b then d.rte.flipB else d.rte.flipA) * 256 ≤ d.tim.tide)

/-- The bank that is ACTIVE at the present time, and so the EPOCH of what is injected now (R423): an armed one from its time T on, whether or
not the flip has been carried out. -/
def Dev.epochNow (d : Dev) : Bool := if d.flipDue true then true else if d.flipDue false then false else d.activeBank

/-- `e` leaves the package; what it hands to the crossbar carries the EPOCH of the present time (R423). -/
def Dev.emit (d : Dev) (e : Emit) : Dev := { d with out := d.out ++ [e], epochs := d.epochs ++ [d.epochNow] }

/-- Counter `i` of page `p` counted up by `k`: saturating, and not while CNT_FREEZE is 1 (R610). -/
def Dev.count (d : Dev) (p i k : Nat) : Dev :=
  if d.rdp F.BLK_CTRL_CNT_FREEZE p = 1 then d
  else { d with cnts := nset d.cnts (1024 * p + i) (satAdd 64 (nget d.cnts (1024 * p + i)) k) }

/-- The value of counter `i` of page `p`. -/
def Dev.counter (d : Dev) (p i : Nat) : Nat := nget d.cnts (1024 * p + i)

/-- A write to host memory, dropped and counted in HOST_WRITES_DROPPED while PERST_N is low (R584). -/
def Dev.hostWrite (d : Dev) (a : Nat) (v : List Byte) : Dev :=
  if d.rd F.GLB_PIN_STAT_PERST = 1 then d.count 0x18 2 1 else (d.count 0x18 1 1).emit (.hostWrite a v)

/-- An MSI-X message: a posted write like any other (R584, R606). -/
def Dev.msix (d : Dev) (e : Nat) : Dev :=
  if d.rd F.GLB_PIN_STAT_PERST = 1 then d.count 0x18 2 1 else (d.count 0x18 1 1).emit (.msix e)

/-- A free value and the state after it is drawn. -/
def Dev.draw (d : Dev) : Nat × Dev := (Config.freeNat d.freeCtr, { d with freeCtr := d.freeCtr + 1 })

/-- `k` free bytes: what the spec calls undefined data. -/
def Dev.freeBytes (d : Dev) (k : Nat) : List Byte × Dev :=
  ((List.range k).map (fun i => BitVec.ofNat 8 (Config.freeNat (d.freeCtr + i))), { d with freeCtr := d.freeCtr + k })

/-- The answer to a register read of master `m`; the host's request and completion are TLPs (R610). -/
def Dev.regAnswer (d : Dev) (m : Master) (status : Nat) (data : List Byte) : Dev :=
  (if m = .host then (d.count 0x18 0 1).count 0x18 1 1 else d).emit (.regData m status data)

/-! ### Interrupts (R606–R608) -/

/-- The bits of BLK_ISR that BLK_IER lets raise the page interrupt. -/
def Dev.pendingBits (d : Dev) (p : Nat) : Nat :=
  Nat.land (Nat.land (d.word (p * 0x1000 + 0x14)) (d.word (p * 0x1000 + 0x18))) 0x80FFFFFF

/-- Whether the page is pending (R606). -/
def Dev.isPending (d : Dev) (p : Nat) : Bool := d.pendingBits p != 0

/-- The page interrupt: one MSI-X message on entry 1,024 + page when the page has become pending (R606). -/
def Dev.ifPending (d before : Dev) (p : Nat) : Dev :=
  if !before.isPending p && d.isPending p then d.msix (1024 + p) else d

/-- Event `i` of page `p`: its BLK_ISR bit is set (R606, R608). -/
def Dev.event (d : Dev) (p i : Nat) : Dev :=
  (d.setWord (p * 0x1000 + 0x14) (putBit (d.word (p * 0x1000 + 0x14)) i true)).ifPending d p

/-! ### First-error capture (R487–R490) -/

/-- A free slot of a ring of 2^log entries (R112, R400, R490, R615). -/
def ringFree (prod cons log : Nat) : Bool := decide ((prod + 2 ^ 32 - cons) % 2 ^ 32 < 2 ^ log)

/-- Ring address of entry `prod` of `size` bytes. -/
def ringAddr (lo hi prod log size : Nat) : Nat := lo * 4096 + hi * 2 ^ 32 + (prod % 2 ^ log) * size

/-- The error-ring record of page `p`'s capture (R490). -/
def Dev.errRecord (d : Dev) (p : Nat) : List Byte :=
  natLE 8 d.ns ++ natLE 4 (d.word (p * 0x1000 + 0x20)) ++ natLE 2 (p % 4096) ++ natLE 2 (d.rdp F.BLK_ERR_CNT_ERRORS p)
    ++ natLE 4 (d.word (p * 0x1000 + 0x24)) ++ natLE 4 (d.word (p * 0x1000 + 0x28))
    ++ natLE 4 (d.rd F.RCV_GEN_GEN) ++ natLE 4 (d.rd F.ERR_RING_PROD_PROD)

/-- The ERR block logs a new capture of page `p`, or counts it missed: the event of counting sets ERR's bit 1
(R490, R608). A ring that is not enabled accepts no record. -/
def Dev.errLog (d : Dev) (p : Nat) : Dev :=
  let prod := d.rd F.ERR_RING_PROD_PROD
  let log := d.rd F.ERR_RING_CFG_LOG2_SIZE
  if d.rd F.ERR_RING_CFG_ENABLE = 0 then d
  else if ringFree prod (d.rd F.ERR_RING_CONS_CONS) log then
    let d := d.hostWrite (ringAddr (d.rd F.ERR_RING_BASE_LO_BASE_LO) (d.rd F.ERR_RING_BASE_HI_BASE_HI) prod log 32) (d.errRecord p)
    let d := d.bump F.ERR_RING_PROD_PROD 1
    if d.rd F.ERR_RING_CFG_INT_EN = 1 then d.msix (d.rd F.ERR_RING_CFG_VECTOR) else d
  else
    (d.wr F.ERR_RING_STAT_MISSED (satAdd 16 (d.rd F.ERR_RING_STAT_MISSED) 1)).event 0xC0 1

/-- Error classes of R482 that are captured. -/
inductive ECls where
  | config | request | degraded | fatal
  deriving DecidableEq, Repr

/-- The CLASS code (R482). -/
def ECls.code : ECls → Nat
  | .config => 0
  | .request => 1
  | .degraded => 2
  | .fatal => 3

/-- Page `p` records an error: counted, and captured if no capture is held, else OVERFLOW (R487, R488). The capture
sets BLK_ISR.ERRCAP and is logged in the error ring (R490). -/
def Dev.capture (d : Dev) (p : Nat) (c : ECls) (status code port detail : Nat) : Dev :=
  let d := d.wrp F.BLK_ERR_CNT_ERRORS p (satAdd 16 (d.rdp F.BLK_ERR_CNT_ERRORS p) 1)
  if d.rdp F.BLK_ERR_CAP0_VALID p = 1 then d.wrp F.BLK_ERR_CAP0_OVERFLOW p 1
  else
    let d := d.setWord (p * 0x1000 + 0x20)
      (1 + c.code * 4 + (status % 16) * 16 + (code % 256) * 256 + (port % 64) * 65536)
    let d := d.setWord (p * 0x1000 + 0x24) (detail % 2 ^ 32)
    let d := d.setWord (p * 0x1000 + 0x28) (detail / 2 ^ 32 % 2 ^ 32)
    let d := d.setWord (p * 0x1000 + 0x2C) (d.ns % 2 ^ 32)
    (d.event p 31).errLog p

/-- A CORRECTED error of page `p`: counted only (R482, R488). -/
def Dev.corrected (d : Dev) (p : Nat) : Dev :=
  d.wrp F.BLK_ERR_CNT_CORRECTED p (satAdd 16 (d.rdp F.BLK_ERR_CNT_CORRECTED p) 1)

/-- The code of a master in a capture's detail (R489). -/
def masterCode : Master → Nat
  | .mgmt => 0
  | .host => 1
  | .fm => 2

/-- The detail of a dropped register write: value, page offset, master (R489). -/
def writeDetail (m : Master) (off v : Nat) : Nat := v % 2 ^ 32 + off * 2 ^ 32 + masterCode m * 2 ^ 44

/-- A CONFIG capture of a register write that was dropped (R489): `code` 1 NOT_OWNER, 2 RESERVED_ENCODING,
3 NOT_EFFECTIVE, 4 QUEUE_FULL. -/
def Dev.dropWrite (d : Dev) (m : Master) (p off v code : Nat) : Dev :=
  d.capture p .config 0 code 0x3F (writeDetail m off v)

/-! ### Fatal errors (R483, R491) -/

/-- The tide time of the first FATAL since reset is recorded (R491). -/
def Dev.fatalTime (d : Dev) : Dev :=
  if d.word (0xC0 * 0x1000 + 0x140) % 16 = 0 then
    (d.wr F.ERR_FATAL_TIME_LO_T_LO (d.ns % 2 ^ 32)).wr F.ERR_FATAL_TIME_HI_T_HI (d.ns / 2 ^ 32 % 2 ^ 32)
  else d

/-- Every transmitter to electrical idle. -/
def Dev.txIdle (d : Dev) : Dev := { d with glb := { d.glb with transmitters := false } }.emit (.pin "TX_IDLE" 1)

/-- A FATAL error of page `p` with CODE `code` (R482, R483): captured, recorded in ERR_FATAL, and the package
fail-stops: transmitters idle, nothing further admitted or applied until RESET_N. -/
def Dev.failStop (d : Dev) (p code detail : Nat) : Dev :=
  let d := d.capture p .fatal 0 code 0x3F detail
  let d := d.fatalTime
  let d := ((d.wr F.ERR_FATAL_INTERNAL 1).wr F.ERR_FATAL_PAGE (p % 256)).wr F.ERR_FATAL_CODE code
  let d := if d.glb.hold = .none then { d with glb := { d.glb with hold := .failStop } } else d
  d.txIdle

/-- Whether the core runs: not OFF and held by nothing (R49, R483, R560, R593). -/
def Dev.running (d : Dev) : Bool := !d.glb.off && d.glb.hold == .none

/-- `f` while the core runs; a held or reset core does nothing (R49, R483, R560). -/
def Dev.ifRuns (f : Dev → Dev) (d : Dev) : Dev := if d.running then f d else d

/-- `f` unless the package is in reset or unpowered: what the always-on domain does (R556, R560). -/
def Dev.ifPowered (f : Dev → Dev) (d : Dev) : Dev := if d.glb.off then d else f d

/-- The brake is applied: PWR_BRAKE_N low, or the thermal trip (R574, R575). -/
def Dev.braked (d : Dev) : Bool := d.rd F.PWR_STAT_BRAKE == 1 || d.glb.hold == .thermal

/-- SMB_ALERT_N is driven low (R607). -/
def Dev.smbAlert (d : Dev) : Bool :=
  d.word (0xC0 * 0x1000 + 0x140) != 0 ||
    pageIndex.any (fun k => (List.range k.n).any (fun i =>
      d.rdp F.BLK_IER_ALERT (k.base + i) == 1 && d.isPending (k.base + i)))

/-! ### Who the package is -/

/-- The package's node ID: that of the accepted join (R591), 0xFFF before (R438). -/
def Dev.node (d : Dev) : Nat := (d.glb.join.map (·.node)).getD 0xFFF

/-- X × Y of the accepted join; 0 before. -/
def Dev.domainSize (d : Dev) : Nat := (d.glb.join.map (fun j => j.xDim * j.yDim)).getD 0

/-- The tray of a node (R28, R196): its y and half its x. -/
def Dev.trayOf (d : Dev) (n : Nat) : Nat × Nat :=
  match d.glb.join with
  | some j => (n / j.xDim, n % j.xDim / 2)
  | none => (0, n)

/-- The current ticket (R514). -/
def Dev.ticket (d : Dev) : Nat := d.rd F.SEC_TENANT_TICKET

/-- Tenancy states (R521): 0 VACANT, 1 ACTIVE, 2 CLOSING, 3 DRAINING, 4 ERASING, 5 SCRUBBING. -/
def Dev.tenancy (d : Dev) : Nat := d.rd F.SEC_TENANT_STATE

/-- Slipway stages (R502): 0 JOINING, 1 TRAINED, 2 TRANSIT, 3 RESYNC, 4 SERVING. -/
def Dev.stage (d : Dev) : Nat := d.rd F.RCV_SLIPWAY_STAGE

/-- READY has been reached (R586). -/
def Dev.booted (d : Dev) : Bool := d.rd F.GLB_BOOT_STAT_STAGE == 4

/-! ### Link states (R436) -/

/-- The link of fabric port `p` carries frames: UP or RETRAIN (R436). -/
def Dev.portCarries (d : Dev) (p : Nat) : Bool := decide (5 ≤ d.rdp F.PRT_STAT_STATE (0x80 + p))

/-! ### CTRL messages to this package (R613) -/

/-- Whether a fabric-manager message from node `src` is accepted: it came through the package's own queue, or its
node's bit is set in MGMT_FM_NODES (R613). -/
def Dev.fmAllowed (d : Dev) (src : Nat) : Bool :=
  src == d.node || (decide (src < 128) && bit (d.rdi F.MGMT_FM_NODES_NODES (src / 32)) (src % 32))

/-- A fabric-manager message from a node that may not send one is dropped and counted in MGMT BLK_ERR_CNT. -/
def Dev.fmDropped (d : Dev) : Dev := d.wrp F.BLK_ERR_CNT_ERRORS 4 (satAdd 16 (d.rdp F.BLK_ERR_CNT_ERRORS 4) 1)

/-- `f` if the fabric-manager message from `src` is accepted, else the drop. -/
def Dev.fromFm (d : Dev) (src : Nat) (f : Dev → Dev) : Dev := if d.fmAllowed src then f d else d.fmDropped

/-- A packet may name node `dest`: the package's own, or one below X × Y (R32). -/
def Dev.hasNode (d : Dev) (dest : Nat) : Bool := dest == d.node || decide (dest < d.domainSize)

/-- `e` leaves for node `dest`; a packet to a node that the domain does not have is never sent (R32). -/
def Dev.emitTo (d : Dev) (dest : Nat) (e : Emit) : Dev := if d.hasNode dest then d.emit e else d

/-- A CTRL message leaves for node `dest`. -/
def Dev.ctrl (d : Dev) (dest : Nat) (m : CtrlMsg) : Dev := d.emitTo dest (.ctrl dest m)

/-! ### Status codes (R11) -/

def sOk : Nat := 0x0
def sPartial : Nat := 0x1
def sFault : Nat := 0x2
def sRevoked : Nat := 0x3
def sConflict : Nat := 0x4
def sOrderBroken : Nat := 0x5
def sNodeLost : Nat := 0x6
def sDataError : Nat := 0x7
def sRetired : Nat := 0x8
def sCapUnreachable : Nat := 0x9
def sEntryAborted : Nat := 0xA
def sBounced : Nat := 0xB
def sRights : Nat := 0xC
def sTimeout : Nat := 0xD

/-- Results of commands: DONE, NO_CHANGE, BAD_STATE. -/
def rDone : Nat := 1
def rNoChange : Nat := 2
def rBadState : Nat := 3

end Sys2Proof.Machine
end

