-- ==== Sys2Proof/Machine/Fec.lean ====
section
/-!
DEFINITION. What a lane transmits (R431–R434): the flit stream cut into blocks, the scrambler, the sync bits, the RS(544,514) code, Gray
mapping and precoding. How the bits of a block, a codeword and a symbol are ordered, which the spec takes from IEEE 802.3dj, says log
entry 63.
-/
namespace Sys2Proof.Machine

/-! ### The scrambler (R433) -/

/-- 32 bits through the scrambler 1 + x³⁹ + x⁵⁸, whose last 58 output bits are `st`: what comes out, and the last 58 then. -/
def scrambleWord (st w : Nat) : Nat × Nat :=
  let o := Nat.xor w (Nat.xor (bits st 19 32) (bits st 0 32))
  (o, (st + o * 2 ^ 58) / 2 ^ 32)

/-- A 256-bit block through the scrambler. -/
def scrambleBlock (st block : Nat) : Nat × Nat :=
  (List.range 8).foldl (fun a i => let r := scrambleWord a.2 (bits block (32 * i) 32); (a.1 + r.1 * 2 ^ (32 * i), r.2)) (0, st)

/-- The sync bits of a codeword (R433): the pattern 0xB5C, the lane number, the codeword count modulo 16. -/
def syncBits (lane count : Nat) : Nat := 0xB5C + lane % 16 * 2 ^ 12 + count % 16 * 2 ^ 16

/-! ### RS(544,514) over 10-bit symbols (R433) -/

/-- A field element times α, modulo x¹⁰ + x³ + 1. -/
def gfDouble (a : Nat) : Nat := if 512 ≤ a then Nat.xor (2 * a) 0x409 else 2 * a

/-- Product in GF(2¹⁰). -/
def gfMul (a b : Nat) : Nat :=
  (List.range 10).foldl (fun r i => if bit b (9 - i) then Nat.xor (gfDouble r) a else gfDouble r) 0

/-- α to the power `n`. -/
def gfPow : Nat → Nat
  | 0 => 1
  | n + 1 => gfDouble (gfPow n)

/-- The polynomial `p`, highest coefficient first, times x + `a`. -/
def gfTimesRoot (p : List Nat) (a : Nat) : List Nat := List.zipWith Nat.xor (p ++ [0]) (0 :: p.map (gfMul a))

/-- The generator of degree 30, highest coefficient first: its roots are α⁰ to α²⁹. -/
def rsGenerator : List Nat := (List.range 30).foldl (fun p j => gfTimesRoot p (gfPow j)) [1]

/-- One message symbol into the division by the generator: the 30 symbols of the remainder, highest first. -/
def rsStep (rest : List Nat) (m : Nat) : List Nat :=
  let q := Nat.xor m (rest.headD 0)
  List.zipWith Nat.xor (rest.drop 1 ++ [0]) (rsGenerator.tail.map (gfMul q))

/-- The 30 parity symbols of a message. -/
def rsParity (msg : List Nat) : List Nat := msg.foldl rsStep (List.replicate 30 0)

/-- A number of `10 × n` bits as symbols, the first from its lowest bits. -/
def symbolsOf (n v : Nat) : List Nat := (List.range n).map (fun i => bits v (10 * i) 10)

/-- The 5,440 bits of the codeword of twenty 257-bit blocks: 514 symbols of message, then 30 of parity. -/
def codeword (blocks : List Nat) : Nat :=
  let msg := symbolsOf 514 ((blocks.zipIdx.map (fun b => b.1 * 2 ^ (257 * b.2))).sum)
  ((msg ++ rsParity msg).zipIdx.map (fun s => s.1 * 2 ^ (10 * s.2))).sum

/-! ### Symbols (R431, R432) -/

/-- The place among the four levels of a bit pair, its first bit the more significant (R431): 00, 01, 11, 10 from the lowest level on. -/
def grayLevel (first second : Bool) : Nat :=
  match first, second with
  | false, false => 0
  | false, true => 1
  | true, true => 2
  | true, false => 3

/-- The levels −3, −1, +1, +3 (R431). -/
def pamLevel (n : Nat) : Int := 2 * (n : Int) - 3

/-- 1/(1+D) precoding modulo 4 after the symbol `last` (R432). -/
def precode : Nat → List Nat → List Nat
  | _, [] => []
  | last, s :: l => let t := (s + 4 - last) % 4; t :: precode t l

/-- The symbols of a codeword, precoded after `last` or as they are. -/
def codewordSymbols (pre : Bool) (last word : Nat) : List Nat :=
  let s := (List.range 2720).map (fun i => grayLevel (bit word (2 * i)) (bit word (2 * i + 1)))
  if pre then precode last s else s

/-! ### Blocks on lanes (R433, R434) -/

/-- A block leaves on lane `lane` of port `p`; the twentieth completes a codeword, which goes out as symbols. -/
def LaneTx.block (p lane : Nat) (pre : Bool) (block : Nat) (t : LaneTx) : LaneTx × List LaneWord :=
  let r := scrambleBlock t.scram block
  let bs := t.blocks ++ [b2n (bit (syncBits lane t.count) t.blocks.length) + 2 * r.1]
  if bs.length < 20 then ({ t with scram := r.2, blocks := bs }, [])
  else
    let s := codewordSymbols pre t.last (codeword bs)
    ({ scram := r.2, blocks := [], count := (t.count + 1) % 16, last := s.getLastD 0 }, [⟨p, lane, s.map pamLevel⟩])

/-- The lanes of a mask, in ascending order (R434). -/
def lanesOf (mask : Nat) : List Nat := (List.range 16).filter (fun i => bit mask i)

/-- Block `i` of the flit stream goes to the `i` mod `w`-th lane of the transmitter's map of `w` lanes (R434). -/
def Dev.sendBlock (p : Nat) (d : Dev) (block : Nat) : Dev :=
  let l := nth d.links p {}
  let map := lanesOf l.txMask
  match map[l.blockAt % map.length]? with
  | none => d
  | some lane =>
    let r := (nth l.lanes lane {}).block p lane (bit l.precTx lane) block
    { d with
      links := modAt (fun l => { l with lanes := modAt (fun _ => r.1) l.lanes lane, blockAt := (l.blockAt + 1) % 16 }) d.links p
      line := d.line ++ r.2 }

/-- The 256 bytes of a flit leave on port `p`, as eight blocks on its lanes (R433, R434). -/
def Dev.sendFlit (p : Nat) (bytes : List Byte) (d : Dev) : Dev :=
  (List.range 8).foldl (fun (d : Dev) i => d.sendBlock p (leNat (sliceBytes bytes (32 * i) 32))) (d.emit (.flit p bytes))

end Sys2Proof.Machine
end

