-- ==== Sys2Proof/Machine/Operands.lean ====
section
/-!
DEFINITION. The operand forms: header and operand slots as bits (R446, R463), the engines and landings that requests
name (R31, R126), the sizes of operations (R465), GPAs and LVAs (R55–R58, R78).
-/
namespace Sys2Proof.Machine

/-- Fields packed from bit 0 on: (width, value) pairs. -/
def packBits : List (Nat × Nat) → Nat
  | [] => 0
  | (w, v) :: r => v % 2 ^ w + 2 ^ w * packBits r

/-- The 128 bits of a header slot (R446). -/
def hdrBits (h : Hdr) : Nat :=
  packBits [(12, h.dest), (12, h.srcNode), (6, h.srcEngine), (2, h.cls), (2, h.channel), (5, h.len), (1, b2n h.epoch),
    (2, h.bounces), (2, h.cmark), (2, h.echo), (4, h.ticket), (6, h.dstPort), (8, h.opcode), (16, h.manifest),
    (1, b2n h.mv), (9, h.reqLanding), (4, h.status), (12, h.tag), (16, h.after), (1, b2n h.av)]

/-- The 16 bytes of a header slot, little-endian (R446). -/
def hdrBytes (h : Hdr) : List Byte := natLE 16 (hdrBits h)

/-- A header slot read out of its 128 bits (R446). -/
def hdrOfBits (n : Nat) : Hdr :=
  { dest := bits n 0 12, srcNode := bits n 12 12, srcEngine := bits n 24 6, cls := bits n 30 2, channel := bits n 32 2,
    len := bits n 34 5, epoch := bit n 39, bounces := bits n 40 2, cmark := bits n 42 2, echo := bits n 44 2,
    ticket := bits n 46 4, dstPort := bits n 50 6, opcode := bits n 56 8, manifest := bits n 64 16, mv := bit n 80,
    reqLanding := bits n 81 9, status := bits n 90 4, tag := bits n 94 12, after := bits n 106 16, av := bit n 122 }

/-- The 128 bits of an operand slot (R463). -/
def opdBits (o : Opd) : Nat :=
  packBits [(57, o.addr), (7, 0), (8, o.ctx), (16, o.lengthM1), (4, o.aop), (1, b2n o.fetch), (1, b2n o.cache),
    (2, o.order), (8, o.mfmt), (8, o.cfmt), (16, 0)]

/-- An operand slot read out of its 128 bits (R463). -/
def opdOfBits (n : Nat) : Opd :=
  { addr := bits n 0 57, ctx := bits n 64 8, lengthM1 := bits n 72 16, aop := bits n 88 4, fetch := bit n 92,
    cache := bit n 93, order := bits n 94 2, mfmt := bits n 96 8, cfmt := bits n 104 8 }

/-- LENGTH in bytes of an operand slot (R463). -/
def opdLen (o : Opd) : Nat := o.lengthM1 + 1

/-- The crossbar port of a source engine (R17, R126, R378). -/
def enginePort (e : Nat) : Nat :=
  if e < 4 then 24 + e else if e = 4 then 28 else if e = 5 then 29 else if e = 6 then 32 else if e = 7 then 32
  else if e < 0x28 then 32 else if e < 0x38 then 31 else 34

/-- The global landing number of landing `n` of a node (R31). -/
def globalLanding (node n : Nat) : Nat := 4 * node + n

/-! ### Flits (R443–R446) -/

/-- One bit of CRC-64 (R444). -/
def crcBit (c : Nat) : Nat := strict c (fun c => if bit c 63 then Nat.xor (c * 2 % 2 ^ 64) 0x42F0E1EBA9EA3693 else c * 2 % 2 ^ 64)

/-- CRC-64 over bytes from `c`. -/
def crcRun : List Byte → Nat → Nat
  | [], c => c
  | b :: l, c => strict ((List.range 8).foldl (fun c _ => crcBit c) (Nat.xor c (b.toNat * 2 ^ 56))) (crcRun l)

/-- CRC-64 with polynomial 0x42F0_E1EB_A9EA_3693, initial value and final exclusive OR all ones, no reflection (R444). -/
def crc64 (l : List Byte) : Nat := Nat.xor (crcRun l (2 ^ 64 - 1)) (2 ^ 64 - 1)

/-- The 256 bytes of a flit, with the acknowledgement and the CRC (R443, R444). Slots not used are pad slots. -/
def Flit.bytes (f : Flit) (ack : Nat) (nak : Bool) : List Byte :=
  let g := fun (i : Nat) => nth f.grants i (0, 0, 0)
  let head := packBits ([(12, f.seq), (12, ack), (1, b2n nak), (2, f.kind), (4, f.start), (1, 0)]
    ++ [g 0, g 1].flatMap (fun g => [(2, g.1), (2, g.2.1), (8, g.2.2)]))
  let body := natLE 8 head ++ sliceBytes f.slots 0 240
  body ++ natLE 8 (crc64 body)

end Sys2Proof.Machine

namespace Sys2Proof

/-- The ordinary channels of a frame (R412, R413): in the REQ class channel 1 is that of what a home sends on account of a request, channel 0
that of every other frame; in the other classes a frame may use either. -/
def Hdr.ordinary (h : Hdr) : List Nat := if h.cls = 0 then (if h.srcEngine = 5 then [1] else [0]) else [0, 1]

open Machine

/-- The header of a received flit. -/
def FlitMsg.head (f : FlitMsg) : Nat := leNat (sliceBytes f.bytes 0 8)

def FlitMsg.seq (f : FlitMsg) : Nat := bits f.head 0 12
def FlitMsg.ack (f : FlitMsg) : Nat := bits f.head 12 12
def FlitMsg.nak (f : FlitMsg) : Bool := bit f.head 24
def FlitMsg.kind (f : FlitMsg) : Nat := bits f.head 25 2

/-- Its credit grants. -/
def FlitMsg.grants (f : FlitMsg) : List (Nat × Nat × Nat) :=
  [32, 44].map (fun i => (bits f.head i 2, bits f.head (i + 2) 2, bits f.head (i + 4) 8))

/-- Its slots 0 to 14. -/
def FlitMsg.slots (f : FlitMsg) : List Byte := sliceBytes f.bytes 8 240

/-- The RS(544,514) code of a lane corrects up to 15 symbols of a codeword (R434). -/
def FecWord.bad (w : FecWord) : Bool := decide (15 < w.errors)

/-- One of its blocks stood in a codeword that the code cannot correct (R434). -/
def FlitMsg.uncorrectable (f : FlitMsg) : Bool := f.words.any FecWord.bad

/-- Its CRC holds, and no codeword of it was uncorrectable (R434, R444, R450). -/
def FlitMsg.good (f : FlitMsg) : Bool :=
  !f.uncorrectable && leNat (sliceBytes f.bytes 248 8) == crc64 (sliceBytes f.bytes 0 248)

/-- A frame as its slots (R446). -/
def Frame.slots (f : Frame) : List Byte := hdrBytes f.hdr ++ sliceBytes f.pay 0 (16 * (f.hdr.len - 1))

/-- The link control message in slots 0 to 2 of an LCTL flit; none where MSG is reserved (R447). -/
def FlitMsg.lctl (f : FlitMsg) : Option Lctl :=
  let n := leNat (sliceBytes f.slots 0 16)
  let credits := (List.range 16).map (fun i => leNat (sliceBytes f.slots (16 + 2 * i) 2))
  match bits n 0 8 with
  | 1 => some (.param { node := bits n 16 12, port := bits n 32 5, role := bits n 40 3, group := bits n 44 3, credits := credits })
  | 2 => some (.widthReq (bits n 8 8) (bits n 16 16))
  | 3 => some (.widthAck (bits n 8 8) (bits n 16 16) (bits n 32 12))
  | 4 => some .retrainReq
  | _ => none

end Sys2Proof

namespace Sys2Proof.Machine

/-- The frames that stand whole in a run of slots, pad slots discarded, and the slots of one not yet whole (R445). -/
def takeFrames : Nat → List Byte → List Frame × List Byte
  | 0, l => ([], l)
  | n + 1, l =>
    let h := hdrOfBits (leNat (l.take 16))
    if l.isEmpty then ([], [])
    else if h.len = 0 then takeFrames n (l.drop 16)
    else if l.length < 16 * h.len then ([], l)
    else
      let r := takeFrames n (l.drop (16 * h.len))
      (⟨h, (l.take (16 * h.len)).drop 16⟩ :: r.1, r.2)

end Sys2Proof.Machine
end

