-- ==== Sys2Proof/Machine/Route.lean ====
section
/-!
DEFINITION. Routes (R404–R425): port roles, the two banks and their epochs, the lookup of a frame's output with the
rules of BUBBLE and TOWPATH mode, and the commands that load, arm, flip and retire a bank.
-/
namespace Sys2Proof.Machine

/-- The state of a bank at the present time: a flip whose time T has come counts as done (R422, R423). -/
def Dev.bankNow (d : Dev) (b : Bool) : Nat :=
  if d.flipDue b then 2 else if d.flipDue (!b) && d.bankState b == 2 then 3 else d.bankState b

def Dev.setBankState (d : Dev) (b : Bool) (v : Nat) : Dev :=
  if b then d.wr F.RTE_BANK_STATE_B v else d.wr F.RTE_BANK_STATE_A v

/-- The entry of a bank for (DEST, CLASS), 0 at reset (R407, R422). -/
def Dev.routeEntry (d : Dev) (b : Bool) (dest cls : Nat) : Nat :=
  nget (if b then d.rte.bankB else d.rte.bankA) (4 * dest + cls)

/-- The bits of an entry that hold a field (R407). -/
def routeMask : Nat := 0xFFFFFFFFFFFF + 0x1F * 2 ^ 48 + 2 ^ 55

/-- An entry written over `old`: reserved bits stay 0, a reserved TOW leaves TOW as it was (R9, R407). -/
def routeMerge (old new : Nat) : Nat :=
  let v := Nat.land new routeMask
  if bits v 48 5 ≤ 23 then v else putBits v 48 5 (bits old 48 5)

/-- One entry of a bank set. -/
def Dev.setRoute (d : Dev) (b : Bool) (key v : Nat) : Dev :=
  if b then { d with rte := { d.rte with bankB := nset d.rte.bankB key v } }
  else { d with rte := { d.rte with bankA := nset d.rte.bankA key v } }

/-- The role of a fabric port (R404): 0 UNUSED, 1 NEIGHBOUR, 2 EXPRESS, 3 SPARE, 4 ANALYSIS. -/
def Dev.role (d : Dev) (p : Nat) : Nat := d.rdi F.RTE_PORT_ROLE_ROLE p

def Dev.group (d : Dev) (p : Nat) : Nat := d.rdi F.RTE_PORT_ROLE_GROUP p

/-- The phase of a direction group (R414): X express, X neighbour, Y express, Y neighbour. -/
def groupPhase (g : Nat) : Nat :=
  if g = 4 ∨ g = 5 then 0 else if g ≤ 1 then 1 else if g = 6 ∨ g = 7 then 2 else 3

/-- A frame's phase: that of the port it arrived on, 0 for a frame from no fabric port (R414). -/
def Dev.framePhase (d : Dev) (inp : Nat) : Nat := if inp < 24 then groupPhase (d.group inp) else 0

/-- The tide time at which a bank became ACTIVE: T, where its flip is due. -/
def Dev.bankSince (d : Dev) (b : Bool) : Nat :=
  if d.flipDue b then (if b then d.rte.flipB else d.rte.flipA) * 256 else if b then d.rte.sinceB else d.rte.sinceA

/-- Whether a fabric port carries routed frames of a bank: its link is UP or in RETRAIN and the bank became ACTIVE
since it came up (R395, R437, R506). -/
def Dev.live (d : Dev) (b : Bool) (p : Nat) : Bool :=
  d.portCarries p && decide ((nth d.links p {}).upAt ≤ d.bankSince b)

/-- The ports 0 to 23. -/
def fabricPorts : List Nat := List.range 24

/-- The down NEIGHBOUR and EXPRESS ports of a group (R406). -/
def Dev.downOf (d : Dev) (g : Nat) : List Nat :=
  fabricPorts.filter (fun p => d.group p == g && (d.role p == 1 || d.role p == 2) && !d.portCarries p)

/-- Whether the spare port `p` counts as set in mask `m` (R406): some port of its group is down, and `p` itself or a
down port of its group is set. -/
def Dev.spareSet (d : Dev) (m p : Nat) : Bool :=
  !(d.downOf (d.group p)).isEmpty && (bit m p || (d.downOf (d.group p)).any (fun q => bit m q))

/-- The candidate ports of a frame before the deadlock mode (R407, R408, R410): port, and whether by an EXP bit. -/
def Dev.candidates (d : Dev) (b : Bool) (dest cls : Nat) : List (Nat × Bool) :=
  let e := d.routeEntry b dest cls
  if !bit e 55 then []
  else
    (fabricPorts.filterMap (fun p =>
      let mn := bits e 0 24
      let ex := bits e 24 24
      if d.role p = 1 then (if bit mn p then some (p, false) else none)
      else if d.role p = 2 then (if bit ex p then some (p, true) else none)
      else if d.role p = 3 then
        (if d.spareSet mn p then some (p, false) else if d.spareSet ex p then some (p, true) else none)
      else none)).filter (fun c => d.live b c.1)

/-- Whether the package runs in TOWPATH mode (R421). -/
def Dev.towpath (d : Dev) : Bool := d.rd F.RTE_CFG_MODE == 1

/-- Whether node `n` is one the package's home serves: its own, or an alias (R18, R138, R220). -/
def Dev.isOwn (d : Dev) (n : Nat) : Bool := n == d.node || d.home.aliases.any (fun a => a.1 == n)

/-- Whether a frame for the package's own node is taken locally (R408, R503). -/
def Dev.takenLocally (d : Dev) (h : Hdr) : Bool :=
  d.isOwn h.dest && !(h.dest == d.node && decide (1 ≤ d.stage) && decide (d.stage ≤ 3) && h.dstPort == 29 && h.srcEngine != 5)

/-- Whether a destination is impossible (R32): 128 and above, or not below X × Y once the domain is joined. -/
def Dev.badDest (d : Dev) (dest : Nat) : Bool :=
  decide (128 ≤ dest) || (d.glb.join.isSome && decide (d.domainSize ≤ dest))

/-- The bank that routes a frame: its EPOCH's while ACTIVE or DRAINING, else the ACTIVE one (R424). -/
def Dev.bankFor (d : Dev) (epoch : Bool) : Bool := if 2 ≤ d.bankNow epoch then epoch else d.epochNow

/-! ### Loading and flipping banks -/

/-- RTE_LOAD (R422): entries of a RETIRED bank are written and acknowledged; otherwise dropped and recorded. -/
def Dev.rteLoad (src : Nat) (b : Bool) (es : List (Nat × Nat)) (d : Dev) : Dev :=
  if d.bankState b = 0 then
    (es.foldl (fun d e => if e.1 < 512 then
        d.setRoute b e.1 (routeMerge (d.routeEntry b (e.1 / 4) (e.1 % 4)) e.2) else d) d).ctrl src (.result "RTE_LOAD" rDone)
  else d.dropWrite .fm 0x61 0 0 3

/-- A bank becomes ACTIVE at flip time `t` in ns (R422): the other one drains from `t`. -/
def Dev.flipBank (b : Bool) (t : Nat) (d : Dev) : Dev :=
  let d := if d.bankState (!b) = 2 then
      let d := d.setBankState (!b) 3
      if b then { d with rte := { d.rte with drainA := t } } else { d with rte := { d.rte with drainB := t } }
    else d
  let d := (d.setBankState b 2).wr F.RTE_BANK_ACTIVE (b2n b)
  let d := if b then { d with rte := { d.rte with sinceB := d.tim.tide } }
    else { d with rte := { d.rte with sinceA := d.tim.tide } }
  d.event 0x61 0

/-- DISARM (R422). -/
def Dev.disarm (b : Bool) (d : Dev) : Nat × Dev :=
  match d.bankState b with
  | 0 => (rNoChange, d)
  | 1 => (rDone, d.setBankState b 0)
  | _ => (rBadState, d)

/-- DISARM by CTRL message (R422). -/
def Dev.disarmMsg (src : Nat) (b : Bool) (d : Dev) : Dev :=
  let r := d.disarm b
  r.2.ctrl src (.result "DISARM" r.1)

/-- A bank whose drain interval has passed is RETIRED (R422). -/
def Dev.retireDue (d : Dev) (b : Bool) : Bool :=
  d.bankState b == 3 && decide (((if b then d.rte.drainB else d.rte.drainA) + d.rd F.RTE_CFG_DRAIN_US * 1000) * 256 ≤ d.tim.tide)

end Sys2Proof.Machine
end

