-- ==== Sys2Proof/Machine/Switch.lean ====
section
/-!
DEFINITION. The switch core (R378–R403): virtual output queues, spilling and eviction, departures and their credits,
requeues, and the mirror block.
-/
namespace Sys2Proof.Machine

/-! ### Queues and space -/

/-- Bytes of a frame in slots of 16. -/
def frameBytes (f : Frame) : Nat := 16 * f.hdr.len

/-- A frame as it comes in at input `inp`. -/
def queued (f : Frame) (inp : Nat) : QFrame := { f := f, tail := none, spilled := false, inFloor := false, credit := none, inp := inp, arrChan := f.hdr.channel }

/-- Frames of a queued frame: two of a linked pair. -/
def QFrame.frames (q : QFrame) : List Frame := q.f :: q.tail.toList

/-- Slots of a queued frame, the second frame of a linked pair included. -/
def QFrame.slots (q : QFrame) : Nat := q.f.hdr.len + (q.tail.map (fun t => t.hdr.len)).getD 0

def QFrame.bytes (q : QFrame) : Nat := 16 * q.slots

/-- The queue of (input, output, class), empty if none is listed (R382). -/
def Dev.voq (d : Dev) (inp out cls : Nat) : List QFrame :=
  ((d.swc.voqs.find? (fun v => v.inp == inp && v.out == out && v.cls == cls)).map (·.q)).getD []

/-- That queue replaced; an empty one is not listed. -/
def Dev.setVoq (d : Dev) (inp out cls : Nat) (q : List QFrame) : Dev :=
  let rest := d.swc.voqs.filter (fun v => !(v.inp == inp && v.out == out && v.cls == cls))
  { d with swc := { d.swc with voqs := if q.isEmpty then rest else rest ++ [⟨inp, out, cls, q⟩] } }

/-- Sum of `f` over the queued frames of the VOQs that `p` accepts. -/
def Dev.voqSum (d : Dev) (p : Voq → Bool) (f : QFrame → Nat) : Nat :=
  ((d.swc.voqs.filter p).map (fun v => (v.q.map f).sum)).sum

/-- Bytes queued toward an output in a class, over all inputs (R410, R426). -/
def Dev.outBytes (d : Dev) (out cls : Nat) : Nat := d.voqSum (fun v => v.out == out && v.cls == cls) QFrame.bytes

/-- Bytes of an input's frames in its head cache (R384). -/
def Dev.headBytes (d : Dev) (inp : Nat) : Nat :=
  d.voqSum (fun v => v.inp == inp) (fun q => if q.spilled then 0 else q.bytes)

/-- Bytes of the head cache of input `inp` that its receive space leaves to queued frames (R384): 2 MiB less the credits it advertises. -/
def Dev.headLimit (d : Dev) (inp : Nat) : Nat := 2 * 1024 * 1024 - 16 * (nth d.links inp {}).adv.sum

/-- Bytes of (input, class) in the partition (R389). -/
def Dev.spilledOf (d : Dev) (inp cls : Nat) : Nat :=
  d.voqSum (fun v => v.inp == inp && v.cls == cls) (fun q => if q.spilled then q.bytes else 0)

/-- Bytes of (input, class) within its floor (R390). -/
def Dev.floorOf (d : Dev) (inp cls : Nat) : Nat :=
  d.voqSum (fun v => v.inp == inp && v.cls == cls) (fun q => if q.spilled && q.inFloor then q.bytes else 0)

/-- Bytes in the shared space (R390). -/
def Dev.sharedBytes (d : Dev) : Nat := d.voqSum (fun _ => true) (fun q => if q.spilled && !q.inFloor then q.bytes else 0)

/-- Bytes of spilled frames in the partition (R402). -/
def Dev.spilledBytes (d : Dev) : Nat := d.voqSum (fun _ => true) (fun q => if q.spilled then q.bytes else 0)

/-- Partition units available (R385, R402). -/
def Dev.partAvail (d : Dev) : Nat := d.rd F.SWC_PART_STAT_AVAIL

/-- SWC_LIMIT of (input, class) in bytes, scaled by the available space (R389). -/
def Dev.staticLimit (d : Dev) (inp cls : Nat) : Nat :=
  let l := match cls with
    | 0 => d.rdi F.SWC_LIMIT_A_REQ inp
    | 1 => d.rdi F.SWC_LIMIT_A_RSP inp
    | 2 => d.rdi F.SWC_LIMIT_B_BULK inp
    | _ => d.rdi F.SWC_LIMIT_B_CTRL inp
  (l * d.partAvail / 0x4000) * 0x4000

/-- The floor of a class in bytes (R390). -/
def Dev.floorLimit (d : Dev) (cls : Nat) : Nat :=
  (match cls with
    | 0 => d.rd F.SWC_FLOOR_REQ
    | 1 => d.rd F.SWC_FLOOR_RSP
    | 2 => d.rd F.SWC_FLOOR_BULK
    | _ => d.rd F.SWC_FLOOR_CTRL) * 0x4000

/-- The shared space in bytes (R390). -/
def Dev.sharedLimit (d : Dev) : Nat :=
  d.partAvail * 0x4000 - 35 * (d.floorLimit 0 + d.floorLimit 1 + d.floorLimit 2 + d.floorLimit 3)

/-! ### The VOQ partition (R60, R385) -/

/-- Bank groups in power. -/
def Dev.groupsOn (d : Dev) : List Nat := [0, 1, 2, 3].filter (fun g => d.domOn (20 + g))

/-- Partition slots in use. -/
def Dev.usedCells (d : Dev) : List Nat := d.swc.voqs.flatMap (fun v => v.q.flatMap (·.cells))

/-- The lowest `k` free slots of bank group `g`, as far as it has them: 2^22 slots of 16 bytes. -/
def freeCells (used : List Nat) (g k : Nat) : List Nat :=
  let mine := used.filter (fun c => c / 2 ^ 22 == g)
  (((List.range (min (mine.length + k) (2 ^ 22))).map (g * 2 ^ 22 + ·)).filter (fun c => !mine.contains c)).take k

/-- Slots for `n` slots of a frame among the groups `gs`, in units of 256 bytes round-robin from group `next` on (R385); with the group
that is next. -/
def cutCells (gs : List Nat) : Nat → List Nat → Nat → Nat → List Nat × Nat
  | 0, _, next, _ => ([], next)
  | fuel + 1, used, next, n =>
    if n = 0 then ([], next)
    else
      let order := gs.filter (fun g => decide (next ≤ g)) ++ gs.filter (fun g => decide (g < next))
      let cs := (order.flatMap (fun g => freeCells used g (min n 16))).take (min n 16)
      let r := cutCells gs fuel (used ++ cs) (((order.head?).getD 0 + 1) % 4) (n - min n 16)
      (cs ++ r.1, r.2)

/-- A frame is written to the partition: its slots there. -/
def Dev.spillAt (q : QFrame) (d : Dev) : QFrame × Dev :=
  let n := q.slots - q.cells.length
  let r := cutCells d.groupsOn n (d.usedCells ++ q.cells) d.swc.spillNext n
  ({ q with spilled := true, cells := q.cells ++ r.1 }, { d with swc := { d.swc with spillNext := r.2 } })

/-- The spilled frames of bank group `g` move to the groups that stay on (R385). -/
def Dev.moveSpilled (g : Nat) (d : Dev) : Dev :=
  let gs := d.groupsOn.filter (· != g)
  let move := fun (a : List QFrame × List Nat × Nat) (q : QFrame) =>
    let stay := q.cells.filter (fun c => c / 2 ^ 22 != g)
    let n := q.cells.length - stay.length
    let r := cutCells gs n a.2.1 a.2.2 n
    (a.1 ++ [{ q with cells := stay ++ r.1 }], a.2.1 ++ r.1, r.2)
  let all := d.swc.voqs.foldl (fun (a : List Voq × List Nat × Nat) v =>
    let r := v.q.foldl move ([], a.2.1, a.2.2)
    (a.1 ++ [{ v with q := r.1 }], r.2.1, r.2.2)) ([], d.usedCells, d.swc.spillNext)
  { d with swc := { d.swc with voqs := all.1, spillNext := all.2.2 } }

/-- PUSHOUT mode (R388). -/
def Dev.pushout (d : Dev) : Bool := d.rd F.SWC_CFG_BUFMODE == 1

/-- A protected frame (R392). -/
def Dev.protected (d : Dev) (f : Frame) : Bool := decide (d.rd F.SWC_CFG_PROTECT_AFTER ≤ f.hdr.bounces)

/-- SWC counter `k` of port index `p`: FRAMES, SPILLS, EVICTIONS, BOUNCES_SENT, REQUEUES (R610). -/
def Dev.swcCount (d : Dev) (p k n : Nat) : Dev := d.count 0x60 (5 * p + k) n

/-! ### The mirror block (R396–R401) -/

/-- Whether session `s` copies frame `f` at port `p` (R396). -/
def Dev.mirMatch (d : Dev) (s p : Nat) (f : Frame) : Bool :=
  d.rdi F.MIR_SESS_CFG_ENABLE s == 1 && bit (d.rdi F.MIR_SESS_CFG_CLASS_MASK s) f.hdr.cls
    && (d.rdi F.MIR_SESS_CFG_PORT_ANY s == 1 || d.rdi F.MIR_SESS_CFG_PORT s == p)
    && Nat.land (Nat.xor f.hdr.srcNode (d.rdi F.MIR_SESS_MATCH0_SRC_NODE s)) (d.rdi F.MIR_SESS_MATCH0_SRC_MASK s) == 0
    && Nat.land (Nat.xor f.hdr.dest (d.rdi F.MIR_SESS_MATCH0_DST_NODE s)) (d.rdi F.MIR_SESS_MATCH0_DST_MASK s) == 0
    && Nat.land (Nat.xor f.hdr.srcEngine (d.rdi F.MIR_SESS_MATCH1_ENGINE s)) (d.rdi F.MIR_SESS_MATCH1_ENGINE_MASK s) == 0

/-- The capture record of a frame (R401): `point` 0 INGRESS, 1 EGRESS, 2 EVICT. -/
def Dev.mirRecord (d : Dev) (s p point : Nat) (f : Frame) : List Byte :=
  let keep := match d.rdi F.MIR_SESS_CFG_SNAP s with
    | 0 => 0
    | 1 => 64
    | _ => 256
  hdrBytes f.hdr ++ natLE 8 d.ns ++ natLE 1 (d.tim.tide % 256) ++ natLE 1 s ++ natLE 1 p
    ++ natLE 1 (point + 4 * b2n (decide (keep < f.pay.length))) ++ natLE 1 f.hdr.len ++ natLE 3 0
    ++ natLE 4 (d.rdi F.MIR_SESS_SEQ_SEQ s) ++ List.replicate 28 0 ++ f.pay.take keep

/-- One session's copy of a frame (R398): the sequence number advances whether the copy finds room or not. -/
def Dev.mirCopy (s p point : Nat) (f : Frame) (d : Dev) : Dev :=
  let r := d.mirRecord s p point f
  let d := d.wri F.MIR_SESS_SEQ_SEQ s (d.rdi F.MIR_SESS_SEQ_SEQ s + 1)
  if (d.swc.mirror.map (fun c => c.bytes.length)).sum + r.length ≤ 4 * 1024 * 1024 then
    ({ d with swc := { d.swc with mirror := d.swc.mirror ++ [Capture.mk s (d.rdi F.MIR_SESS_CFG_DEST s) f.hdr.cls r] } }).count 0x69 (2 * s) 1
  else (d.count 0x69 (2 * s + 1) 1).event 0x69 0

/-- The copies of a frame at a capture point (R396, R397); a MIR block without power or quiesced takes none. -/
def Dev.mirAt (p point : Nat) (f : Frame) (d : Dev) : Dev :=
  if d.takes 0x69 then
    (List.range 4).foldl (fun d s =>
      let want := match point with
        | 0 => d.rdi F.MIR_SESS_CFG_INGRESS s == 1
        | 1 => d.rdi F.MIR_SESS_CFG_EGRESS s == 1
        | _ => d.rdi F.MIR_SESS_CFG_EVICT s == 1
      if want && d.mirMatch s p f then d.mirCopy s p point f else d) d
  else d

/-! ### Where a frame goes (R408–R420) -/

/-- Credits of (port, class, channel) that no queued frame has taken (R416). -/
def Dev.freeCredit (d : Dev) (p cls ch : Nat) : Nat :=
  nget (nth d.links p {}).credits (4 * cls + ch)
    - d.voqSum (fun v => v.out == p && v.cls == cls) (fun q => if q.credit == some ch then q.slots else 0)

/-- The lowest ordinary channel of a frame with free credit for `slots` slots. -/
def Dev.takeCredit (d : Dev) (p : Nat) (h : Hdr) (slots : Nat) : Option Nat :=
  h.ordinary.find? (fun ch => decide (slots ≤ d.freeCredit p h.cls ch))

/-- The score of a candidate (R410). -/
def Dev.score (d : Dev) (cls : Nat) (c : Nat × Bool) : Nat :=
  d.outBytes c.1 cls - (if c.2 then d.rd F.RTE_CFG_EXP_BIAS * 4096 else 0)

/-- The candidates of lowest score. -/
def Dev.bestOf (d : Dev) (cls : Nat) (cs : List (Nat × Bool)) : List Nat :=
  let m := (cs.map (d.score cls)).min?.getD 0
  (cs.filter (fun c => d.score cls c == m)).map (·.1)

/-- The port that wins among candidates (R410, R411): the lowest-numbered one for CTRL, else one of lowest score; `tie` breaks ties (R54). -/
def Dev.winner (d : Dev) (cls tie : Nat) (cs : List (Nat × Bool)) : Option Nat :=
  if cls = 3 then (cs.map (·.1)).min? else (d.bestOf cls cs)[tie % (d.bestOf cls cs).length]?

/-- What the lookup of a frame gives: an output with the credit taken for it, held for want of a live port, or a wait
in receive space. -/
inductive Lookup where
  | to (out : Nat) (credit : Option Nat)
  | held
  | wait
  deriving DecidableEq, Repr

/-- The live port of TOW's group that a frame takes (R404, R406, R411, R416, R417): the least occupied, for CTRL the lowest-numbered; a SPARE
port only while a port of the group is down. An entry that holds no route names none (R408). -/
def Dev.towPort (d : Dev) (b : Bool) (dest cls : Nat) : Option Nat :=
  let e := d.routeEntry b dest cls
  let g := d.group (bits e 48 5)
  let ps := fabricPorts.filter (fun p => d.group p == g
    && (d.role p == 1 || d.role p == 2 || (d.role p == 3 && !(d.downOf g).isEmpty)) && d.live b p)
  if bit e 55 then d.winner cls 0 (ps.map (fun p => (p, false))) else none

/-- The output, or none: the frame is held. -/
def Lookup.ofPort (p : Option Nat) (credit : Nat → Option Nat) : Lookup :=
  match p with
  | some p => .to p (credit p)
  | none => .held

/-- The lookup of a frame at its head of line (R408, R410, R411, R414, R416, R417, R420); `tie` breaks equal scores
(R54). -/
def Dev.lookup (d : Dev) (q : QFrame) (tie : Nat) : Lookup :=
  let h := q.f.hdr
  if d.takenLocally h then (if h.dstPort < 35 then .to h.dstPort none else .held)
  else
    let b := d.bankFor h.epoch
    let all := d.candidates b h.dest h.cls
    if d.towpath then
      if 2 ≤ q.arrChan then .ofPort (d.towPort b h.dest h.cls) (fun _ => none)
      else
        match d.winner h.cls tie (all.filter (fun c => (d.takeCredit c.1 h q.slots).isSome)) with
        | some p => .to p (d.takeCredit p h q.slots)
        | none =>
          match d.towPort b h.dest h.cls with
          | some p => .to p none
          | none => if all.isEmpty then .held else .wait
    else
      .ofPort (d.winner h.cls tie (all.filter (fun c => decide (d.framePhase q.inp ≤ groupPhase (d.group c.1))))) (fun _ => none)

/-- A frame that is routed by the ACTIVE bank because its own is neither ACTIVE nor DRAINING is counted, once (R424). -/
def Dev.strayCount (d : Dev) (q : QFrame) : QFrame × Dev :=
  if q.stray ∨ d.takenLocally q.f.hdr ∨ 2 ≤ d.bankNow q.f.hdr.epoch then (q, d) else ({ q with stray := true }, d.count 0x61 1 1)

/-! ### Placing, spilling and evicting (R384, R389–R394) -/

/-- Whether a frame of (input, class) that must spill finds room: `some true` in its floor, `some false` in the limit
or the shared space. -/
def Dev.spillRoom (d : Dev) (q : QFrame) : Option Bool :=
  let cls := q.f.hdr.cls
  if d.partAvail * 0x4000 < d.spilledBytes + q.bytes then none
  else if d.pushout then
    if d.floorOf q.inp cls + q.bytes ≤ d.floorLimit cls then some true
    else if d.sharedBytes + q.bytes ≤ d.sharedLimit then some false
    else none
  else if d.spilledOf q.inp cls + q.bytes ≤ d.staticLimit q.inp cls then some false
  else none

/-- A frame that an eviction may take (R391). -/
def Dev.evictable (d : Dev) (q : QFrame) : Bool := q.spilled && !q.inFloor && !d.protected q.f

/-- The BULK VOQ to evict from (R391): the most bytes in the shared space among those with a victim; `tie` breaks
ties. -/
def Dev.victimVoq (d : Dev) (tie : Nat) : Option Voq :=
  let vs := d.swc.voqs.filter (fun v => v.cls == 2 && v.q.any d.evictable)
  let shared := fun (v : Voq) => (v.q.map (fun q => if q.spilled && !q.inFloor then q.bytes else 0)).sum
  let m := (vs.map shared).max?.getD 0
  let best := vs.filter (fun v => shared v == m)
  best[tie % best.length]?

/-- A queue without its evictable frame nearest the tail, and that frame. -/
def takeLastFrom (p : QFrame → Bool) (l : List QFrame) : Option (QFrame × List QFrame) :=
  (takeFirst p l.reverse).map (fun r => (r.1, r.2.reverse))

/-- The bounce of an evicted frame (R393). -/
def Dev.bounceOf (d : Dev) (f : Frame) : Frame :=
  { hdr := { dest := f.hdr.srcNode, srcNode := d.node, srcEngine := f.hdr.srcEngine, cls := 1, channel := 0, len := 2,
             epoch := d.epochNow, bounces := f.hdr.bounces, ticket := f.hdr.ticket,
             dstPort := enginePort f.hdr.srcEngine, opcode := f.hdr.opcode, reqLanding := f.hdr.reqLanding,
             status := sBounced, tag := f.hdr.tag },
    pay := hdrBytes f.hdr }

/-- A frame at the tail of a VOQ. -/
def Dev.enqueue (d : Dev) (out : Nat) (q : QFrame) : Dev :=
  d.setVoq q.inp out q.f.hdr.cls (d.voq q.inp out q.f.hdr.cls ++ [q])

/-- Slots of a fabric port leave its receive space, and their credits go back to the link partner (R448). -/
def Dev.freeSlots (d : Dev) (inp cls ch slots : Nat) : Dev :=
  if inp < 24 then
    let k := 4 * cls + ch
    { d with links := modAt (fun l => { l with owed := nset l.owed k (nget l.owed k + slots) }) d.links inp }
  else d

/-- A frame leaves the receive space of its input. -/
def Dev.freeFrame (d : Dev) (q : QFrame) : Dev := if q.paid then d else d.freeSlots q.inp q.f.hdr.cls q.arrChan q.slots

/-- A frame waits in receive space. -/
def Dev.recvWait (q : QFrame) (d : Dev) : Dev := { d with swc := { d.swc with recvSpace := d.swc.recvSpace ++ [q] } }

/-- A frame is held for want of a live port (R395). -/
def Dev.holdFrame (q : QFrame) (d : Dev) : Dev := { d with swc := { d.swc with heldFrames := d.swc.heldFrames ++ [q] } }

/-- The head cache of an input has room for `k` bytes more (R384). -/
def Dev.headRoom (d : Dev) (inp k : Nat) : Bool := decide (d.headBytes inp + k ≤ d.headLimit inp)

/-- In STATIC mode the input stands at its limit for the frame's class, so that it takes none out of its receive space (R389): it holds
spilled frames, and has no room for this one beside them. -/
def Dev.atLimit (d : Dev) (q : QFrame) : Bool :=
  let n := d.spilledOf q.inp q.f.hdr.cls
  !d.pushout && n != 0 && decide (d.staticLimit q.inp q.f.hdr.cls < n + q.bytes)

/-- A frame for the VOQ of `out` spills (R384): that has spilled frames, or the head cache has no room for it. -/
def Dev.mustSpill (d : Dev) (out : Nat) (q : QFrame) : Bool :=
  (d.voq q.inp out q.f.hdr.cls).any (·.spilled) || !d.headRoom q.inp q.bytes

/-- A frame goes to the tail of the VOQ of `out` in the head cache. -/
def Dev.cacheFrame (out : Nat) (q : QFrame) (d : Dev) : Dev := (d.freeFrame q).enqueue out { q with paid := true }

/-- A frame goes to the tail of the VOQ of `out` in the partition where that has room for it, as `spillRoom` says; else it waits in receive
space (R389, R391). -/
def Dev.spillFrame (out : Nat) (q : QFrame) (room : Option Bool) (d : Dev) : Dev :=
  match room with
  | some fl =>
    let r := (d.freeFrame q).spillAt { q with inFloor := fl, paid := true }
    (r.2.enqueue out r.1).swcCount q.inp 1 q.frames.length
  | none => d.recvWait q

/-- A victim leaves its VOQ `v`, of which `rest` stays (R391, R393, R397): both frames of a linked pair are captured and counted. -/
def Dev.evict (v : Voq) (x : QFrame) (rest : List QFrame) (d : Dev) : Dev :=
  let d := x.frames.foldl (fun (d : Dev) f => d.mirAt x.inp 2 f) (d.setVoq v.inp v.out v.cls rest)
  (d.swcCount v.inp 2 x.frames.length).swcCount v.inp 3 1

/-- Room in the partition for a frame that must spill: in PUSHOUT mode a frame of another class than BULK that finds none evicts until it does
(R391); each eviction sends a bounce, placed in its turn (R393). `fuel` bounds the evictions. -/
def Dev.makeRoom : Nat → QFrame → Nat → Dev → Option Bool × Dev
  | 0, _, _, d => (none, d)
  | fuel + 1, q, tie, d =>
    match d.spillRoom q with
    | some fl => (some fl, d)
    | none =>
      if d.pushout ∧ q.f.hdr.cls ≠ 2 then
        match d.victimVoq tie with
        | none => (none, d)
        | some v =>
          match takeLastFrom d.evictable v.q with
          | none => (none, d)
          | some (x, rest) =>
            let d := d.evict v x rest
            let b : QFrame := { queued (d.bounceOf x.f) v.inp with arrChan := 0, paid := true }
            let d := match d.lookup b tie with
              | .to o c =>
                let b := { b with credit := c }
                if d.mustSpill o b then let r := Dev.makeRoom fuel b tie d; r.2.spillFrame o b r.1 else d.cacheFrame o b
              | .held => d.holdFrame b
              | .wait => d.recvWait b
            Dev.makeRoom fuel q tie d
      else (none, d)

/-- How many evictions one arrival can bring about, at most: one for each frame queued, and one more. -/
def Dev.placeFuel (d : Dev) : Nat := (d.swc.voqs.map (fun v => v.q.length)).sum + 2

/-- A frame leaves receive space for the VOQ of `out` (R384, R389–R391), or waits there. -/
def Dev.place (out : Nat) (q : QFrame) (tie : Nat) (d : Dev) : Dev :=
  if d.atLimit q then d.recvWait q
  else if d.mustSpill out q then let r := d.makeRoom d.placeFuel q tie; r.2.spillFrame out q r.1
  else d.cacheFrame out q

/-- The frame behind which a DATA frame of (input, class) goes (R466). -/
def QFrame.leads (inp cls : Nat) (q : QFrame) : Bool := q.last && q.inp == inp && q.f.hdr.cls == cls

/-- A frame with the DATA frame behind it. -/
def QFrame.pair (f : Frame) (q : QFrame) : QFrame := { q with tail := some f, last := false }

/-- A DATA frame goes behind frame number `i` of VOQ `v`, its head (R384, R466): in the head cache where there is room for it and the head
stands there; else the pair is in the partition, where there is room for it; else the DATA frame waits in receive space. -/
def Dev.pairInVoq (v : Voq) (i : Nat) (q : QFrame) (w : QFrame) (tie : Nat) (d : Dev) : Dev :=
  let p := q.pair w.f
  let put := fun (d : Dev) (q : QFrame) => let l := d.voq v.inp v.out v.cls; d.setVoq v.inp v.out v.cls (l.take i ++ q :: l.drop i)
  let bare := d.setVoq v.inp v.out v.cls (v.q.eraseIdx i)
  if d.atLimit w then d.recvWait w
  else if !q.spilled ∧ d.headRoom v.inp w.bytes then put (bare.freeFrame w) p
  else if q.spilled ∨ i + 1 = v.q.length then
    let r := bare.makeRoom d.placeFuel p tie
    match r.1 with
    | some fl =>
      let c := (r.2.freeFrame w).spillAt { p with inFloor := fl }
      (put c.2 c.1).swcCount v.inp 1 (if q.spilled then 1 else 2)
    | none => (put r.2 q).recvWait w
  else d.recvWait w

/-- A DATA frame of a linked pair goes directly behind the frame of its class that preceded it from its input (R466), wherever that is: in
receive space, held, in a VOQ, or on its way, when it comes first in that VOQ. One whose head has been evicted goes with it. -/
def Dev.attachData (w : QFrame) (tie : Nat) (d : Dev) : Dev :=
  let cls := w.f.hdr.cls
  let mine := QFrame.leads w.inp cls
  if d.swc.recvSpace.any mine then { d with swc := { d.swc with recvSpace := mapFirst mine (QFrame.pair w.f) d.swc.recvSpace } }
  else if d.swc.heldFrames.any mine then
    let d := d.freeFrame w
    { d with swc := { d.swc with heldFrames := mapFirst mine (QFrame.pair w.f) d.swc.heldFrames } }
  else match d.swc.voqs.find? (fun v => v.q.any mine) with
    | some v =>
      match v.q.zipIdx.find? (fun e => mine e.1) with
      | some e => d.pairInVoq v e.2 e.1 w tie
      | none => d
    | none =>
      match nget d.swc.lastOut (4 * w.inp + cls) with
      | 0 => d.freeFrame w
      | o + 1 =>
        if d.headRoom w.inp w.bytes then (d.freeFrame w).setVoq w.inp o cls ({ w with paid := true } :: d.voq w.inp o cls) else d.recvWait w

/-- The switch takes a frame out of its input's receive space: lookup and placing (R382, R395, R408), or the place behind its head. -/
def Dev.admitFrame (q : QFrame) (tie : Nat) (d : Dev) : Dev :=
  if q.f.hdr.opcode = 0x07 then d.attachData q tie
  else
    let r := d.strayCount q
    match r.2.lookup r.1 tie with
    | .to o c => r.2.place o { r.1 with credit := c } tie
    | .held => (r.2.freeFrame r.1).holdFrame { r.1 with paid := true }
    | .wait => r.2.recvWait r.1

/-- A frame of the input and class waits in receive space: a later one waits behind it (R383). -/
def Dev.behind (d : Dev) (q : QFrame) : Bool := d.swc.recvSpace.any (fun w => w.inp == q.inp && w.f.hdr.cls == q.f.hdr.cls)

/-- The frames in receive space try again, oldest first. -/
def Dev.retryRecv (d : Dev) : Dev :=
  let ws := d.swc.recvSpace
  ws.foldl (fun d q => if d.behind q then d.recvWait q else d.admitFrame q 0) { d with swc := { d.swc with recvSpace := [] } }

/-- A new frame has come from (input, class): none before it takes a DATA frame any more. -/
def Dev.newLast (d : Dev) (inp cls : Nat) : Dev :=
  let off := fun (q : QFrame) => if q.leads inp cls then { q with last := false } else q
  { d with swc := { d.swc with
      voqs := d.swc.voqs.map (fun v => { v with q := v.q.map off })
      heldFrames := d.swc.heldFrames.map off, recvSpace := d.swc.recvSpace.map off, lastOut := nset d.swc.lastOut (4 * inp + cls) 0 } }

/-- A frame comes in at input `inp` (R382): an impossible destination is discarded at a fabric port (R32), a DATA frame follows its request
frame (R466), a frame behind an older one of its input and class that waits in receive space waits too. `paid`: its link has gone down. -/
def Dev.frameIn (inp : Nat) (f : Frame) (tie : Nat) (paid : Bool) (d : Dev) : Dev :=
  let q := { queued f inp with paid := paid }
  if inp < 24 ∧ d.badDest f.hdr.dest then
    ((d.count (0x80 + inp) 9 1).freeFrame q).capture (0x80 + inp) .config 0 0x10 inp
      (f.hdr.dest % 4096 + (f.hdr.srcNode % 4096) * 4096 + f.hdr.cls * 2 ^ 24)
  else
    let d := d.mirAt inp 0 f
    if f.hdr.opcode = 0x07 then
      (if d.behind q ∧ !d.swc.recvSpace.any (QFrame.leads inp f.hdr.cls) then d.recvWait q else d.attachData q tie)
    else
      let d := d.newLast inp f.hdr.cls
      let q := { q with last := true }
      if d.behind q then d.recvWait q else d.admitFrame q tie

/-- The first frame leaves the receive crossing of port `p`, in which `rest` stand then. -/
def Dev.crossed (d : Dev) (p : Nat) (rest : List Frame) : Dev :=
  { d with links := modAt (fun l => { l with rx := rest, rxFree := l.rxFree - 1 }) d.links p }

/-- A frame's header slot leaves the receive crossing of input `inp` (R43, R382). A fabric port's crossing delivers what it has accepted, in
that order: another frame than its first does not leave it. -/
def Dev.frameArrive (inp : Nat) (f : Frame) (tie : Nat) (d : Dev) : Dev :=
  if 24 ≤ inp then d.frameIn inp f tie false
  else match (nth d.links inp {}).rx with
    | [] => d
    | g :: rest =>
      if g = f then (d.crossed inp rest).frameIn inp f tie (decide (0 < (nth d.links inp {}).rxFree)) else d

/-! ### Departures (R383, R386, R415–R418, R426) -/

/-- Whether a frame from `inp` continues in its ring when it leaves by `out` (R414): opposite groups of one kind. -/
def Dev.continues (d : Dev) (inp out : Nat) : Bool :=
  decide (inp < 24) && decide (out < 24) && d.group inp / 2 == d.group out / 2 && d.group inp != d.group out

/-- Whether two fabric ports face along one dimension. -/
def Dev.sameDim (d : Dev) (p q : Nat) : Bool := d.group p / 2 % 2 == d.group q / 2 % 2

/-- The towpath channel of a departure (R418). -/
def Dev.towChannel (d : Dev) (inp arrChan out : Nat) : Nat :=
  if d.rdi F.RTE_PORT_ROLE_DATELINE out = 1 then 3
  else if arrChan = 3 ∧ inp < 24 ∧ d.sameDim inp out then 3
  else 2

/-- The state of the link behind an external output: fabric ports and attach ports. -/
def Dev.linkState (d : Dev) (p : Nat) : Nat :=
  if p < 24 then d.rdp F.PRT_STAT_STATE (0x80 + p) else d.rdp F.LNDL_STAT_STATE (0x10 + (p - 24))

/-- Credits held toward the partner of `p`. -/
def Dev.creditOf (d : Dev) (p cls ch : Nat) : Nat := nget (nth d.links p {}).credits (4 * cls + ch)

/-- The head is in need of no DATA frame that waits in receive space for room (R466). -/
def Dev.whole (d : Dev) (q : QFrame) : Bool :=
  !(q.last && d.swc.recvSpace.any (fun w => w.f.hdr.opcode == 0x07 && w.inp == q.inp && w.f.hdr.cls == q.f.hdr.cls))

/-- Channel `ch` of fabric port `out` holds the credit that a head needs in BUBBLE mode (R415). -/
def Dev.bubbleCredit (d : Dev) (out ch : Nat) (q : QFrame) : Bool :=
  decide ((if d.continues q.inp out then q.slots else max q.slots 34) ≤ d.creditOf out q.f.hdr.cls ch)

/-- The replay buffer of port `p` has room for the flits of `n` slots (R450), and no link control message waits for it. -/
def Dev.flitRoom (d : Dev) (p n : Nat) : Bool :=
  let l := nth d.links p {}
  decide ((l.txSeq + 4096 - l.acked) % 4096 + ceilDiv n 15 ≤ 1024) && l.lctlWait.isEmpty

/-- Whether a head may depart by `out` on channel `ch` now (R386, R412–R418, R437, R604): the link is UP and takes work, the replay buffer
has room, the route permits the channel and it holds the credit. -/
def Dev.mayDepart (d : Dev) (out ch : Nat) (q : QFrame) : Bool :=
  let cls := q.f.hdr.cls
  let ord := q.f.hdr.ordinary.contains ch
  if out < 24 then
    d.linkState out == 5 && d.takes (0x80 + out) && d.flitRoom out q.slots
      && (if d.towpath then
            decide (q.slots ≤ d.creditOf out cls ch) &&
              (if 2 ≤ q.arrChan then ch == d.towChannel q.inp q.arrChan out
              else match q.credit with
                | some c => ch == c
                | none => ord || ch == d.towChannel q.inp q.arrChan out)
          else ord && d.bubbleCredit out ch q)
  else ord

/-- The head of a VOQ, if it stands in the head cache (R384). -/
def Dev.headOf (d : Dev) (inp out cls : Nat) : Option QFrame :=
  match d.voq inp out cls with
  | q :: _ => if q.spilled || !d.whole q then none else some q
  | [] => none

/-- Whether the head of a VOQ can depart on some channel. -/
def Dev.headReady (d : Dev) (inp out cls : Nat) : Bool :=
  match d.headOf inp out cls with
  | some q => [0, 1, 2, 3].any (fun ch => d.mayDepart out ch q)
  | none => false

/-- Whether some input has a head of the class that can depart by the output. -/
def Dev.classReady (d : Dev) (out cls : Nat) : Bool := (List.range 35).any (fun i => d.headReady i out cls)

/-- The weight of a class at the switch outputs (R386, R402). -/
def Dev.weight (d : Dev) (cls : Nat) : Nat :=
  match cls with
  | 0 => d.rd F.SWC_ARB_W_REQ
  | 1 => d.rd F.SWC_ARB_W_RSP
  | _ => d.rd F.SWC_ARB_W_BULK

/-- RSP, REQ and BULK all have a head that can depart by the output (R386). -/
def Dev.allReady (d : Dev) (out : Nat) : Bool := [0, 1, 2].all (d.classReady out)

/-- Among RSP, REQ and BULK, while all three can depart, the class goes that has had the fewest bytes of the output for its weight (R386). -/
def Dev.shareDue (d : Dev) (out cls : Nat) : Bool :=
  !d.allReady out || [0, 1, 2].all (fun o => decide (nget d.swc.served (4 * out + cls) * d.weight o ≤ nget d.swc.served (4 * out + o) * d.weight cls))

/-- Strict priority of CTRL with its limit of 16, and the shares of the others (R386). -/
def Dev.classMayGo (d : Dev) (out cls : Nat) : Bool :=
  let others := d.classReady out 0 || d.classReady out 1 || d.classReady out 2
  if cls = 3 then !(decide (16 ≤ nget d.swc.ctrlRun out) && others)
  else (!d.classReady out 3 || decide (16 ≤ nget d.swc.ctrlRun out)) && d.shareDue out cls

/-- The bytes that the classes of an output have had, after `n` of class `cls`: counted while all three can depart, else from 0 again. -/
def Dev.serve (d : Dev) (out cls n : Nat) : Tbl Nat :=
  if d.allReady out then nset d.swc.served (4 * out + cls) (nget d.swc.served (4 * out + cls) + n)
  else [0, 1, 2].foldl (fun t c => nset t (4 * out + c) 0) d.swc.served

/-- The input whose turn it is at an output's class: the first after the last one granted whose head can depart
(R53, R386). -/
def Dev.turn (d : Dev) (out cls : Nat) : Option Nat :=
  let start := nget d.swc.lastGrant (4 * out + cls)
  ((List.range 35).map (fun i => (start + i) % 35)).find? (fun i => d.headReady i out cls)

/-- The level of the output's queues against CNG_THRESH (R426). -/
def Dev.markLevel (d : Dev) (out cls : Nat) : Nat :=
  let b := d.outBytes out cls
  if d.rd F.CNG_THRESH_T3 * 0x4000 ≤ b then 3 else if d.rd F.CNG_THRESH_T2 * 0x4000 ≤ b then 2
  else if d.rd F.CNG_THRESH_T1 * 0x4000 ≤ b then 1 else 0

/-- The register page of port `p`'s link: PRT of a fabric port, LND of an attach port (R458). -/
def linkPage (p : Nat) : Nat := if p < 24 then 0x80 + p else 0x10 + (p - 24)

/-- Counter `k` of the link in PRT order (R610). -/
def Dev.linkCount (d : Dev) (p k n : Nat) : Dev := d.count (linkPage p) (if p < 24 then k else 7 + k) n

/-- The replay buffer has room for another sequenced flit (R450). -/
def Link.room (l : Link) : Bool := decide ((l.txSeq + 4096 - l.acked) % 4096 < 1024)

/-- A flit leaves on port `p` (R443, R449, R450): sequenced, and kept until it is acknowledged, unless it is IDLE (KIND 1); a sequenced flit
returns at most two grants of up to 255 slots. With a full replay buffer only IDLE flits leave. After the flit that this side's WIDTH_ACK
names the transmitter takes the new lane map (R441). -/
def Dev.flitOut (p kind : Nat) (nak : Bool) (start : Nat) (slots : List Byte) (d : Dev) : Dev :=
  let l := nth d.links p {}
  let kind := if l.room then kind else 1
  let idle := kind == 1
  let gs := if idle then [] else (l.owed.take 2).map (fun g => (g.1, min g.2 255))
  let f : Flit :=
    { seq := if idle then l.txSeq else (l.txSeq + 1) % 4096, kind := kind, start := if idle then 15 else start,
      grants := gs.map (fun g => (g.1 / 4, g.1 % 4, g.2)), slots := if idle then [] else slots }
  let l' := { l with
    txSeq := f.seq, flitsSinceAck := 0, buffer := if idle then l.buffer else l.buffer ++ [f],
    owed := gs.foldl (fun t g => nset t g.1 (nget t g.1 - g.2)) l.owed,
    lent := gs.foldl (fun t g => nset t g.1 (nget t g.1 + g.2)) l.lent,
    progressAt := if l.txSeq = l.acked then d.tim.tide else l.progressAt }
  let d := { d with links := modAt (fun _ => l') d.links p }
  let d := (d.sendFlit p (f.bytes l.rxSeq nak)).linkCount p 0 1
  match l.txSwitch with
  | some w =>
    if !idle && w.1 == f.seq then { d with links := modAt (fun l => { l with txMask := w.2, txSwitch := none }) d.links p } else d
  | none => d

/-- Slots of class `cls` leave on channel `ch` of link `p`: their credits are consumed, and sequenced flits carry them (R443, R445, R448);
`start` gives each flit its START. -/
def Dev.sendRun (p cls ch : Nat) (slots : List Byte) (start : Nat → Nat) (d : Dev) : Dev :=
  let k := 4 * cls + ch
  let n := slots.length / 16
  let d := { d with links := modAt (fun l => { l with credits := nset l.credits k (nget l.credits k - n) }) d.links p }
  (List.range (ceilDiv n 15)).foldl (fun d i => d.flitOut p 0 false (start i) ((slots.drop (240 * i)).take 240)) d

/-- A frame or linked pair leaves on channel `ch` of link `p`. -/
def Dev.sendSlots (p cls ch : Nat) (f : Frame) (tail : Option Frame) (d : Dev) : Dev :=
  d.sendRun p cls ch (f.slots ++ (tail.map Frame.slots).getD [])
    (fun i => if i = 0 then 0 else if tail.isSome ∧ f.hdr.len / 15 = i then f.hdr.len % 15 else 15)

/-- The heads of output `out` that are passed over when the head of (`inp`, `cls`) is granted (R386): those of its class whose turn comes
before, and those of CTRL, which go first. -/
def Dev.passedOver (d : Dev) (out inp cls : Nat) : List QFrame :=
  let start := nget d.swc.lastGrant (4 * out + cls)
  let before := ((List.range 35).map (fun i => (start + i) % 35)).takeWhile (· != inp)
  before.filterMap (fun i => d.headOf i out cls) ++ (if cls = 3 then [] else (List.range 35).filterMap (fun i => d.headOf i out 3))

/-- A head lacks the credit that it needs in BUBBLE mode (R415). -/
def Dev.bubbleWaits (d : Dev) (out : Nat) (q : QFrame) : Bool :=
  !d.towpath && decide (out < 24) && d.linkState out == 5 && !q.f.hdr.ordinary.any (fun ch => d.bubbleCredit out ch q)

/-- A frame departs through output `out` from input `inp` on a channel (R383, R386, R426): the head of its VOQ in its
turn, CHANNEL and CMARK rewritten. A head without the credit it needs is passed over, counted in BUBBLE_WAIT in BUBBLE
mode (R415). -/
def Dev.frameDepart (out inp cls ch : Nat) (d : Dev) : Dev :=
  match d.headOf inp out cls with
  | none => d
  | some q =>
    if d.mayDepart out ch q ∧ d.classMayGo out cls ∧ d.turn out cls = some inp then
      let lvl := if cls = 3 then 0 else d.markLevel out cls
      let waits := ((d.passedOver out inp cls).filter (d.bubbleWaits out)).length
      let served := if cls = 3 then d.swc.served else d.serve out cls q.bytes
      let d := if waits = 0 then d else d.count 0x61 0 waits
      let marked := (q.frames.filter (fun f => decide (f.hdr.cmark < lvl))).length
      let d := if marked = 0 then d else d.count 0x68 (2 * (lvl - 1)) marked
      let set := fun (f : Frame) => { f with hdr := { f.hdr with channel := ch, cmark := max f.hdr.cmark lvl } }
      let d := (d.setVoq inp out cls (d.voq inp out cls).tail).mirAt out 1 (set q.f)
      let d := (if out < 24 then d.sendSlots out cls ch (set q.f) (q.tail.map set) else d).swcCount out 0 q.frames.length
      let d := if 2 ≤ ch then d.count 0x61 (3 + cls) q.frames.length else d
      let d := { d with swc := { d.swc with
        ctrlRun := nset d.swc.ctrlRun out (if cls = 3 then nget d.swc.ctrlRun out + 1 else 0), served := served,
        lastGrant := nset d.swc.lastGrant (4 * out + cls) (inp + 1)
        lastOut := if q.last then nset d.swc.lastOut (4 * inp + cls) (out + 1) else d.swc.lastOut } }
      let d := d.emit (.depart out ch (set q.f))
      let d := match q.tail with
        | some t => (d.mirAt out 1 (set t)).emit (.depart out ch (set t))
        | none => d
      d.retryRecv
    else if d.bubbleWaits out q then d.count 0x61 0 1
    else d

/-! ### Capture records leave (R398–R400) -/

/-- The channel of the analysis port on which a record can leave now (R399): the port is in its role, its link is UP with room in the replay
buffer, and the channel holds credit for the record's slots. DESIGN CHOICE (log entry 67): the credit is that of the class of the frame
copied, on an ordinary channel. -/
def Dev.mirChannel (d : Dev) (c : Capture) : Option Nat :=
  let p := d.rd F.MIR_DEST_PORT
  let n := ceilDiv c.bytes.length 16
  if d.rd F.MIR_DEST_PORT_EN == 1 && d.role p == 4 && d.linkState p == 5 && d.flitRoom p n then
    [0, 1].find? (fun ch => decide (n ≤ d.creditOf p c.cls ch))
  else none

/-- Whether a record's destination takes it now (R399, R400). -/
def Dev.mirTakes (d : Dev) (c : Capture) : Bool :=
  if c.dest = 0 then (d.mirChannel c).isSome
  else d.rd F.MIR_RING_CFG_ENABLE == 1
    && ringFree (d.rd F.MIR_RING_PROD_PROD) (d.rd F.MIR_RING_CONS_CONS) (d.rd F.MIR_RING_CFG_LOG2_SIZE)

/-- The oldest capture record of each destination (R399), oldest first. -/
def Dev.mirFirsts (d : Dev) : List Capture :=
  d.swc.mirror.zipIdx.filterMap (fun e => if (d.swc.mirror.take e.2).any (fun c => c.dest == e.1.dest) then none else some e.1)

/-- The oldest capture record of a destination that takes it is sent (R398–R400). -/
def Dev.mirrorSend (d : Dev) : Dev :=
  match d.mirFirsts.find? d.mirTakes with
  | none => d
  | some c =>
    let ch := d.mirChannel c
    let d := { d with swc := { d.swc with mirror := d.swc.mirror.erase c } }
    if c.dest = 0 then
      let p := d.rd F.MIR_DEST_PORT
      (d.emit (.analysis p c.bytes)).sendRun p c.cls (ch.getD 0) c.bytes (fun i => if i = 0 then 0 else 15)
    else
      let prod := d.rd F.MIR_RING_PROD_PROD
      let d := d.hostWrite (ringAddr (d.rd F.MIR_RING_BASE_LO_BASE_LO) (d.rd F.MIR_RING_BASE_HI_BASE_HI) prod
        (d.rd F.MIR_RING_CFG_LOG2_SIZE) 320) (sliceBytes c.bytes 0 320)
      let d := d.bump F.MIR_RING_PROD_PROD 1
      if d.rd F.MIR_RING_CFG_INT_EN = 1 then d.msix (d.rd F.MIR_RING_CFG_VECTOR) else d

/-- The first spilled frame of a VOQ returns to the head cache, in VOQ order, as the head drains (R384). -/
def Dev.spillReturn (inp out cls : Nat) (d : Dev) : Dev :=
  let v := d.voq inp out cls
  match v.find? (·.spilled) with
  | none => d
  | some q =>
    if d.headRoom inp q.bytes then
      (d.setVoq inp out cls (mapFirst (·.spilled) (fun q => { q with spilled := false, inFloor := false, cells := [] }) v)).retryRecv
    else d

/-! ### Requeue and held frames (R395, R424) -/

/-- A frame looked up afresh: to the tail of the VOQ it now belongs to, or held; or it is among those that wait, as is every later frame of
its queue (R383). -/
def Dev.relook (a : Dev × List QFrame) (q : QFrame) : Dev × List QFrame :=
  let d := a.1
  let q := { q with credit := none, paid := true }
  let waits := a.2.any (fun w => w.inp == q.inp && w.f.hdr.cls == q.f.hdr.cls)
  let r := d.strayCount q
  let q := r.1
  let d := r.2
  match d.lookup q 0 with
  | .to o c => if waits then (d, a.2 ++ [q]) else (d.setVoq q.inp o q.f.hdr.cls (d.voq q.inp o q.f.hdr.cls ++ [{ q with credit := c }]), a.2)
  | .held => if waits then (d, a.2 ++ [q]) else (d.holdFrame q, a.2)
  | .wait => (d, a.2 ++ [q])

/-- Frames looked up afresh, in order; those that wait do so ahead of what stands in receive space. -/
def Dev.relookAll (qs : List QFrame) (d : Dev) : Dev :=
  let r := qs.foldl Dev.relook (d, [])
  { r.1 with swc := { r.1.swc with recvSpace := r.2 ++ r.1.swc.recvSpace } }

/-- Output `out` went down: each frame of its VOQs is looked up afresh in VOQ order (R395). -/
def Dev.requeue (out : Nat) (d : Dev) : Dev :=
  let qs := (d.swc.voqs.filter (fun v => v.out == out)).flatMap (·.q)
  let d := { d with swc := { d.swc with voqs := d.swc.voqs.filter (fun v => v.out != out) } }
  (qs.foldl (fun (d : Dev) q => d.swcCount out 4 q.frames.length) d).relookAll qs

/-- A bank has flipped or retired: held frames are looked up afresh, those of a DRAINING bank apart (R395, R424). -/
def Dev.releaseHeld (d : Dev) : Dev :=
  let go := d.swc.heldFrames.filter (fun q => d.bankNow q.f.hdr.epoch != 3)
  let stay := d.swc.heldFrames.filter (fun q => d.bankNow q.f.hdr.epoch == 3)
  (Dev.relookAll go { d with swc := { d.swc with heldFrames := stay } }).retryRecv

/-- An armed bank flips at its time T (R422, R423). -/
def Dev.bankFlip (d : Dev) : Dev :=
  let one := fun (b : Bool) (d : Dev) => if d.flipDue b then (d.flipBank b (if b then d.rte.flipB else d.rte.flipA)).releaseHeld else d
  one true (one false d)

/-- A draining bank retires at the end of its interval, and the frames held in its epoch move on (R422, R424). -/
def Dev.bankRetire (d : Dev) : Dev :=
  let one := fun (b : Bool) (d : Dev) => if d.retireDue b then (d.setBankState b 0).releaseHeld else d
  one true (one false d)

/-- ARM of a bank with flip time `t` (R422, R423): the result, and the state after. One that comes too late flips at once. -/
def Dev.arm (b : Bool) (t : Nat) (m : Master) (v : Nat) (d : Dev) : Nat × Dev :=
  let st := d.bankState b
  let old := if b then d.rte.flipB else d.rte.flipA
  if 2 ≤ st then (rBadState, d.dropWrite m 0x61 0x110 v 3)
  else if st = 1 ∧ old = t then (rNoChange, d)
  else
    let d := d.setBankState b 1
    let d := if b then { d with rte := { d.rte with flipB := t } } else { d with rte := { d.rte with flipA := t } }
    if t * 256 < d.tim.tide then (rDone, (((d.count 0x61 2 1).event 0x61 1).flipBank b t).releaseHeld) else (rDone, d)

/-- What GO of RTE_CMD does (R429): the operands stand in RTE_CMD and RTE_FLIP_TIME. -/
def Dev.rteCmd (m : Master) (d : Dev) : Dev :=
  let b := d.rd F.RTE_CMD_BANK == 1
  let t := d.rd F.RTE_FLIP_TIME_LO_T_LO + d.rd F.RTE_FLIP_TIME_HI_T_HI * 2 ^ 32
  match d.rd F.RTE_CMD_OP with
  | 1 => let r := d.arm b t m (d.word 0x61110 + 2 ^ 31); r.2.wr F.RTE_CMD_RESULT_RESULT r.1
  | 2 => let r := d.disarm b; r.2.wr F.RTE_CMD_RESULT_RESULT r.1
  | _ => d

/-- ARM by CTRL message (R422, R425): T is held in RTE_FLIP_TIME, the result goes back to its sender. -/
def Dev.armMsg (src : Nat) (b : Bool) (t : Nat) (d : Dev) : Dev :=
  let r := d.arm b t .fm 0
  let d := if r.1 = rDone then (r.2.wr F.RTE_FLIP_TIME_LO_T_LO (t % 2 ^ 32)).wr F.RTE_FLIP_TIME_HI_T_HI (t / 2 ^ 32)
    else r.2
  d.ctrl src (.result "ARM" r.1)

/-! ### The commands -/

/-- FRAME_ARRIVE (R382). -/
def execFrameArrive (inp : Fin 35) (f : Frame) (tie : Nat) (s : State) : Host.Outcome State Fault Refusal :=
  onDev (Dev.ifRuns (Dev.frameArrive inp f tie)) s

/-- FRAME_DEPART (R386). -/
def execFrameDepart (out inp : Fin 35) (cls : Fin 4) (channel : Nat) (s : State) : Host.Outcome State Fault Refusal :=
  onDev (Dev.ifRuns (Dev.frameDepart out inp cls channel)) s

/-- SPILL_RETURN (R384). -/
def execSpillReturn (inp out : Fin 35) (cls : Fin 4) (s : State) : Host.Outcome State Fault Refusal :=
  onDev (Dev.ifRuns (Dev.spillReturn inp out cls)) s

/-- MIRROR_SEND (R398–R400). -/
def execMirrorSend (s : State) : Host.Outcome State Fault Refusal := onDev (Dev.ifRuns Dev.mirrorSend) s

/-- RTE_LOAD (R422). -/
def execRteLoad (src : Nat) (bank : Bool) (entries : List (Nat × Nat)) (s : State) : Host.Outcome State Fault Refusal :=
  onDev (Dev.ifRuns (fun d => d.fromFm src (Dev.rteLoad src bank entries))) s

/-- BANK_FLIP (R422, R423). -/
def execBankFlip (s : State) : Host.Outcome State Fault Refusal := onDev (Dev.ifRuns Dev.bankFlip) s

/-- BANK_RETIRE (R422). -/
def execBankRetire (s : State) : Host.Outcome State Fault Refusal := onDev (Dev.ifRuns Dev.bankRetire) s

end Sys2Proof.Machine
end

