-- ==== Sys2Proof/Machine/Tide.lean ====
section
/-!
DEFINITION. Tide time (R540–R555): the counter, TIME_SYNC exchanges and the servo's states, TIME_CMD, the pulse pins
and the heartbeat of the management core. Times are in 1/256 ns.
-/
namespace Sys2Proof.Machine

/-- Time states of R546: 0 FREE, 1 ACQUIRE, 2 LOCKED, 3 HOLDOVER, 4 ROOT. -/
def Dev.timeState (d : Dev) : Nat := d.rd F.TIME_STAT_STATE

/-- The UPSTREAM port. -/
def Dev.upstream (d : Dev) : Nat := d.rd F.TIME_CFG_UPSTREAM

/-- The adjustment of TIME_RATE that the servo makes (R546): any value within `limit` parts per 10⁹. -/
def Dev.servo (limit : Nat) (d : Dev) : Dev :=
  let (v, d) := d.draw
  d.wr F.TIME_RATE_RATE (ofSigned 32 ((v % (2 * limit + 1) : Nat) - (limit : Int)))

/-- The counter after one period of the 25 MHz oscillator, 40 ns, scaled by TIME_RATE (R540, R595). The remainder
of the scaling is kept. A held counter does not advance (R546). -/
def Dev.advance (d : Dev) : Dev :=
  match d.tim.holdFor with
  | some _ => d
  | none =>
    let n : Int := 10240 * (1000000000 + toSigned 32 (d.rd F.TIME_RATE_RATE)) + d.tim.rem
    { d with tim := { d.tim with tide := (d.tim.tide + (n / 1000000000).toNat) % 2 ^ 72, rem := n % 1000000000 } }

/-- One oscillator period passes. -/
def Dev.tick (d : Dev) : Dev := d.ifPowered Dev.advance

/-- A forward step to `t`, counted in STEPS and marked STEPPED (R541); a value not above the count changes nothing. -/
def Dev.stepTo (d : Dev) (t : Nat) : Dev :=
  if d.tim.tide < t then
    (({ d with tim := { d.tim with tide := t } }).wr F.TIME_STAT_STEPPED 1).count 2 2 1
  else d

/-- Half of `i`, ties to even (R544). -/
def halfEven (i : Int) : Int := if i % 2 = 0 then i / 2 else if (i / 2) % 2 = 0 then i / 2 else i / 2 + 1

/-- Entry into HOLDOVER from LOCKED (R546): rate kept, DEGRADED capture TIME_HOLDOVER, BLK_ISR bit 1. -/
def Dev.toHoldover (d : Dev) : Dev := ((d.wr F.TIME_STAT_STATE 3).capture 2 .degraded 0 0x10 0x3F 0).event 2 1

/-- Entry into ACQUIRE: exchanges start afresh (R546). -/
def Dev.toAcquire (d : Dev) : Dev :=
  { d.wr F.TIME_STAT_STATE 1 with
    tim := { d.tim with exchange := [], firstDone := false, good := 0, badRun := 0, nextSync := d.tim.tide, holdFor := none } }

/-- FREE goes to ACQUIRE once UP_EN is 1 and the UPSTREAM link is UP (R546). -/
def Dev.timeLinkUp (d : Dev) : Dev :=
  if d.timeState = 0 ∧ d.rd F.TIME_CFG_UP_EN = 1 ∧ d.portCarries d.upstream then d.toAcquire else d

/-- LOCKED goes to HOLDOVER while the UPSTREAM link is DOWN (R546). -/
def Dev.timeLinkDown (d : Dev) : Dev :=
  if d.timeState = 2 ∧ !d.portCarries d.upstream then d.toHoldover else d

/-- Exit from MOORED (R546): any state but ROOT goes to ACQUIRE. -/
def Dev.timeMoorExit (d : Dev) : Dev := if d.timeState = 4 then d else d.toAcquire

/-- What a write of TIME_CFG brings about (R546, R551): `root` is ROOT before the write. -/
def Dev.timeCfgWritten (root : Nat) (d : Dev) : Dev :=
  if root = 0 ∧ d.rd F.TIME_CFG_ROOT = 1 then d.wr F.TIME_STAT_STATE 4
  else if root = 1 ∧ d.rd F.TIME_CFG_ROOT = 0 then
    ((((d.wr F.TIME_STAT_STATE 3).wr F.TIME_PPS_CAP_LO_NS_LO 0).wr F.TIME_PPS_CAP_HI_NS_HI 0).wr
      F.TIME_PPS_CAP_FRAC_FRAC 0).event 2 1
  else d.timeLinkUp.timeLinkDown

/-- TIME_SYNC leaves on the UPSTREAM port every SYNC_INTERVAL (R544). -/
def Dev.timeSyncSend (d : Dev) : Dev :=
  if (d.timeState = 1 ∨ d.timeState = 2 ∨ d.timeState = 3) ∧ d.rd F.TIME_CFG_UP_EN = 1 ∧ d.portCarries d.upstream
      ∧ d.tim.nextSync ≤ d.tim.tide then
    let d := d.ctrl (d.rdp F.PRT_PARTNER_NODE (0x80 + d.upstream)) (.timeSync d.upstream d.tim.tide)
    { d with tim := { d.tim with
        exchange := d.tim.exchange ++ [d.tim.tide], nextSync := d.tim.tide + us (8 * d.rd F.TIME_CFG_SYNC_INTERVAL) } }
  else d

/-- TIME_SYNC arrives on `port` and is answered in LOCKED, HOLDOVER and ROOT only (R544). -/
def Dev.timeSync (port t1 : Nat) (d : Dev) : Dev :=
  if 2 ≤ d.timeState ∧ d.timeState ≤ 4 ∧ d.portCarries port then
    d.ctrl (d.rdp F.PRT_PARTNER_NODE (0x80 + port)) (.timeSyncReply port t1 d.tim.tide d.tim.tide)
  else d

/-- An exchange is discarded and counted; the fourth in a row ends LOCKED (R545, R546). -/
def Dev.discardExchange (d : Dev) : Dev :=
  let d := d.count 2 1 1
  if d.timeState = 2 then
    let d := { d with tim := { d.tim with badRun := d.tim.badRun + 1 } }
    if d.tim.badRun = 4 then ({ d with tim := { d.tim with badRun := 0 } }).toHoldover else d
  else d

/-- The offset of an exchange (R544). -/
def syncOffset (r : SyncReply) (asym : Nat) : Int :=
  halfEven (((r.t2 : Int) - r.t1) - ((r.t4 : Int) - r.t3) - toSigned 16 asym)

/-- The delay of an exchange (R544). -/
def syncDelay (r : SyncReply) : Int := halfEven (((r.t2 : Int) - r.t1) + ((r.t4 : Int) - r.t3))

/-- An accepted exchange of offset `off` in ACQUIRE (R546). -/
def Dev.acquireExchange (off : Int) (d : Dev) : Dev :=
  if !d.tim.firstDone then
    let d := { d with tim := { d.tim with firstDone := true, good := 0 } }
    if 0 < off then d.stepTo (d.tim.tide + off.toNat)
    else if off < 0 then { d with tim := { d.tim with holdFor := some d.tim.tide } }
    else d
  else if d.tim.holdFor.isSome then d
  else
    let d := d.servo 500000
    let good := if off.natAbs ≤ 8 * 256 then d.tim.good + 1 else 0
    let d := { d with tim := { d.tim with good := good, badRun := 0 } }
    if 16 ≤ good then (d.wr F.TIME_STAT_STATE 2).event 2 0 else d

/-- An accepted exchange of offset `off` (R546): counted, reported, and what the time state makes of it. -/
def Dev.acceptExchange (off delay : Int) (d : Dev) : Dev :=
  let d := ((d.count 2 0 1).wr F.TIME_OFFSET_OFFSET (ofSigned 32 off)).wr F.TIME_DELAY_DELAY (ofSigned 32 delay)
  let d := { d with tim := { d.tim with badRun := 0 } }
  if d.timeState = 1 then d.acquireExchange off
  else if d.timeState = 2 then d.servo 500000
  else if d.timeState = 3 then
    if off.natAbs ≤ us 1 then (d.servo 500000).wr F.TIME_STAT_STATE 2
    else d.capture 2 .degraded 0 0x11 0x3F (ofSigned 32 off)
  else d

/-- The reply of an exchange arrives (R544, R545): discarded if a frame was replayed or the link retrained or changed
width since t1. -/
def Dev.timeSyncReply (r : SyncReply) (d : Dev) : Dev :=
  if d.tim.exchange.contains r.t1 ∧ 1 ≤ d.timeState ∧ d.timeState ≤ 3 then
    let link := nth d.links d.upstream {}
    let d := { d with tim := { d.tim with exchange := d.tim.exchange.erase r.t1 } }
    if r.replayed ∨ r.t1 < link.changedSince ∨ r.t1 < link.replayedSince then d.discardExchange
    else d.acceptExchange (syncOffset r (d.rdi F.TIME_ASYM_ASYM d.upstream)) (syncDelay r)
  else d

/-- The reply of the oldest exchange has not come within 4 × SYNC_INTERVAL (R545). -/
def Dev.exchangeTimeout (d : Dev) : Dev :=
  match d.tim.exchange with
  | t1 :: rest =>
    if t1 + us (32 * d.rd F.TIME_CFG_SYNC_INTERVAL) ≤ d.tim.tide then
      ({ d with tim := { d.tim with exchange := rest } }).discardExchange
    else d
  | [] => d

/-- Upstream time has reached the held counter, which advances again (R546). -/
def Dev.tideHoldEnd (d : Dev) : Dev := { d with tim := { d.tim with holdFor := none } }

/-- The value of TIME_SET in 1/256 ns. -/
def Dev.timeSetValue (d : Dev) : Nat :=
  (d.rd F.TIME_SET_LO_NS_LO + d.rd F.TIME_SET_HI_NS_HI * 2 ^ 32) * 256 + d.rd F.TIME_SET_FRAC_FRAC

/-- What GO of TIME_CMD does (R546, R548): 1 SET, 2 SET_AT_PPS, 3 REACQUIRE; OP 0 does nothing. -/
def Dev.timeCmd (d : Dev) : Dev :=
  let settable := (d.timeState = 0 ∨ d.timeState = 4) ∧ d.tim.tide ≤ d.timeSetValue
  match d.rd F.TIME_CMD_OP with
  | 1 =>
    if settable then (d.stepTo d.timeSetValue).wr F.TIME_CMD_RESULT_RESULT rDone
    else d.wr F.TIME_CMD_RESULT_RESULT rBadState
  | 2 =>
    if settable then ({ d with tim := { d.tim with ppsArmed := true } }).wr F.TIME_CMD_RESULT_RESULT rDone
    else d.wr F.TIME_CMD_RESULT_RESULT rBadState
  | 3 =>
    if d.timeState = 2 ∨ d.timeState = 3 then d.toAcquire.wr F.TIME_CMD_RESULT_RESULT rDone
    else d.wr F.TIME_CMD_RESULT_RESULT (if d.timeState = 1 then rNoChange else rBadState)
  | _ => d

/-- A rising edge on TIME_PPS_IN (R551): used on the root with PPS_IN_EN only. It is captured, steers the rate within
±10 ppm, and loads TIME_SET where SET_AT_PPS armed it; a value the count has passed is not loaded (R541). -/
def Dev.ppsInEdge (d : Dev) : Dev :=
  if d.timeState = 4 ∧ d.rd F.TIME_CFG_PPS_IN_EN = 1 then
    let d := if d.tim.ppsArmed then ({ d with tim := { d.tim with ppsArmed := false } }).stepTo d.timeSetValue else d
    let d := ((d.wr F.TIME_PPS_CAP_LO_NS_LO (d.ns % 2 ^ 32)).wr F.TIME_PPS_CAP_HI_NS_HI (d.ns / 2 ^ 32)).wr
      F.TIME_PPS_CAP_FRAC_FRAC (d.tim.tide % 256)
    ({ d with tim := { d.tim with ppsLast := some d.tim.tide } }).servo 10000
  else d

/-- No edge within 1.5 s of the previous one (R551): counted once, BLK_ISR bit 2. -/
def Dev.ppsMissed (d : Dev) : Dev :=
  match d.tim.ppsLast with
  | some t =>
    if d.timeState = 4 ∧ d.rd F.TIME_CFG_PPS_IN_EN = 1 ∧ t + us 1500000 ≤ d.tim.tide then
      (({ d with tim := { d.tim with ppsLast := none } }).count 2 3 1).event 2 2
    else d
  | none => d

/-- TIME_PPS_OUT (R550): it rises at each whole second of the count with PPS_OUT_EN = 1 and falls after 1 ms, or when
PPS_OUT_EN is 0. -/
def Dev.ppsOutEdge (d : Dev) : Dev :=
  let sec := d.ns / 1000000000
  if 0 < d.tim.ppsHigh then
    if d.rd F.TIME_CFG_PPS_OUT_EN = 0 ∨ d.tim.ppsHigh - 1 + us 1000 ≤ d.tim.tide then
      ({ d with tim := { d.tim with ppsHigh := 0 } }).emit (.pin "TIME_PPS_OUT" 0)
    else d
  else if d.rd F.TIME_CFG_PPS_OUT_EN = 1 ∧ d.tim.lastPpsOut < sec then
    ({ d with tim := { d.tim with lastPpsOut := sec, ppsHigh := 1 + sec * 1000000000 * 256 } }).emit (.pin "TIME_PPS_OUT" 1)
  else d

/-- A read of TIME_NOW_LO latches the whole tide value (R542): what the low word then reads. -/
def Dev.latchTime (d : Dev) : Dev :=
  ((d.wr F.TIME_NOW_LO_NS_LO (d.ns % 2 ^ 32)).wr F.TIME_NOW_HI_NS_HI (d.ns / 2 ^ 32)).wr
    F.TIME_NOW_FRAC_FRAC (d.tim.tide % 256)

/-- The heartbeat of the firmware, at each whole millisecond of tide time (R614); firmware runs once IMAGE is done. -/
def Dev.heartbeat (d : Dev) : Dev :=
  if 1 < d.rd F.GLB_BOOT_STAT_STAGE ∧ d.tim.lastBeat < d.ns / 1000000 then
    ({ d with tim := { d.tim with lastBeat := d.ns / 1000000 } }).bump F.MGMT_HEARTBEAT_COUNT 1
  else d

/-! ### The commands -/

/-- TIME_SYNC_SEND (R544). -/
def execTimeSyncSend (s : State) : Host.Outcome State Fault Refusal := onDev (Dev.ifRuns Dev.timeSyncSend) s

/-- TIME_SYNC (R544). -/
def execTimeSync (port : Fin 24) (t1 : Nat) (s : State) : Host.Outcome State Fault Refusal :=
  onDev (Dev.ifRuns (Dev.timeSync port t1)) s

/-- TIME_SYNC_REPLY (R544–R546). -/
def execTimeSyncReply (r : SyncReply) (s : State) : Host.Outcome State Fault Refusal :=
  onDev (Dev.ifRuns (Dev.timeSyncReply r)) s

/-- EXCHANGE_TIMEOUT (R545). -/
def execExchangeTimeout (s : State) : Host.Outcome State Fault Refusal := onDev (Dev.ifPowered Dev.exchangeTimeout) s

/-- TIDE_HOLD_END (R546). -/
def execTideHoldEnd (s : State) : Host.Outcome State Fault Refusal := onDev (Dev.ifPowered Dev.tideHoldEnd) s

/-- PPS_IN_EDGE (R551). -/
def execPpsInEdge (s : State) : Host.Outcome State Fault Refusal := onDev (Dev.ifPowered Dev.ppsInEdge) s

/-- PPS_MISSED (R551). -/
def execPpsMissed (s : State) : Host.Outcome State Fault Refusal := onDev (Dev.ifPowered Dev.ppsMissed) s

/-- PPS_OUT_EDGE (R550). -/
def execPpsOutEdge (s : State) : Host.Outcome State Fault Refusal := onDev (Dev.ifPowered Dev.ppsOutEdge) s

/-- TIME_NOW_LO_READ (R542): latched, and the low word answered. -/
def execTimeNowLoRead (m : Master) (s : State) : Host.Outcome State Fault Refusal :=
  onDev (Dev.ifPowered (fun d => (d.latchTime).regAnswer m 0 (natLE 4 (d.ns % 2 ^ 32)))) s

/-- MGMT_HEARTBEAT (R614). -/
def execMgmtHeartbeat (s : State) : Host.Outcome State Fault Refusal := onDev (Dev.ifPowered Dev.heartbeat) s

end Sys2Proof.Machine
end

