-- ==== Sys2Proof/Machine/Link.lean ====
section
/-!
DEFINITION. Links (R431–R461): the training states, width, flits with their credits and replay, wake tones and the eye
scan. Port `p` is a fabric port (0–23) or an attach port (24–27, R458).
-/
namespace Sys2Proof.Machine

/-! ### The registers of a link, fabric or attach (R459, R460) -/

/-- A field of the port's link: `f` of its PRT page, `g` of its LND page. -/
def Dev.lrd (d : Dev) (p : Nat) (f g : Fld) : Nat := d.rdp (if p < 24 then f else g) (linkPage p)

def Dev.lwr (d : Dev) (p : Nat) (f g : Fld) (v : Nat) : Dev := d.wrp (if p < 24 then f else g) (linkPage p) v

/-- Lanes of a port (R431, R458). -/
def laneCount (p : Nat) : Nat := if p < 24 then 8 else 16

/-- Every lane of a port. -/
def allLanes (p : Nat) : Nat := 2 ^ laneCount p - 1

def Dev.linkEnabled (d : Dev) (p : Nat) : Bool := d.lrd p F.PRT_CFG_ENABLE F.LNDL_CFG_ENABLE == 1

def Dev.laneMap (d : Dev) (p : Nat) : Nat := d.lrd p F.PRT_STAT_LANE_MAP F.LNDL_STAT_LANE_MAP

def Dev.failedLanes (d : Dev) (p : Nat) : Nat := d.lrd p F.PRT_STAT_FAILED_LANES F.LNDL_LANES_FAILED_LANES

def Dev.linkWidth (d : Dev) (p : Nat) : Nat := d.lrd p F.PRT_STAT_WIDTH F.LNDL_STAT_WIDTH

def Dev.slackLanes (d : Dev) (p : Nat) : Nat := d.lrd p F.PRT_STAT_SLACK_LANES F.LNDL_LANES_SLACK_LANES

def Dev.setLinkState (d : Dev) (p v : Nat) : Dev := d.lwr p F.PRT_STAT_STATE F.LNDL_STAT_STATE v

def Dev.setFailed (d : Dev) (p v : Nat) : Dev := d.lwr p F.PRT_STAT_FAILED_LANES F.LNDL_LANES_FAILED_LANES v

def Dev.link (d : Dev) (p : Nat) : Link := nth d.links p {}

def Dev.setLink (d : Dev) (p : Nat) (l : Link) : Dev := { d with links := modAt (fun _ => l) d.links p }

/-- Lanes of `a` that are not in `b`. -/
def maskMinus (a b : Nat) : Nat := a - Nat.land a b

/-- The lanes that LANE_DISABLE holds (R459, R460). -/
def Dev.disabledLanes (d : Dev) (p : Nat) : Nat :=
  Nat.land (d.lrd p F.PRT_CFG_LANE_DISABLE F.LNDL_CFG_LANE_DISABLE) (allLanes p)

/-- The lanes of `mask` are in SLACK, the others are not (R455). A lane that enters SLACK is noted with the time (R441). -/
def Dev.setSlack (d : Dev) (p mask : Nat) : Dev :=
  let new := maskMinus mask (d.slackLanes p)
  let l := d.link p
  (d.setLink p { l with slackAt := (lanesOf new).foldl (fun t i => nset t i (d.tim.tide + 1)) l.slackAt }).lwr p
    F.PRT_STAT_SLACK_LANES F.LNDL_LANES_SLACK_LANES mask

/-- The power domain of a port's link (R556). -/
def Dev.linkPowered (d : Dev) (p : Nat) : Bool := d.pageOn (linkPage p)

/-- The BLK_ISR bits of LINK_UP and LINK_DOWN (R608). -/
def Dev.linkUpEvent (d : Dev) (p : Nat) : Dev := d.event (linkPage p) (if p < 24 then 0 else 1)

def Dev.linkDownEvent (d : Dev) (p : Nat) : Dev := d.event (linkPage p) (if p < 24 then 1 else 2)

/-! ### Eye scans (R453, R454) -/

/-- The PHY or APHY page of a port. -/
def phyPage (p : Nat) : Nat := if p < 24 then 0xA0 + p else 0xB8 + (p - 24)

/-- An eye scan ends, complete or aborted: BLK_ISR bit 0 (R608). -/
def Dev.eyeEnd (d : Dev) (page : Nat) (aborted : Bool) : Dev :=
  (({ d with eyes := d.eyes.filter (fun e => e.page != page) }.wrp F.PHY_EYE_STAT_BUSY page 0).wrp
    F.PHY_EYE_STAT_ABORTED page (b2n aborted)).event page 0

/-- A lane that enters SLACK or RETRAIN aborts its scan (R453). -/
def Dev.eyeAbort (d : Dev) (p mask : Nat) : Dev :=
  if d.eyes.any (fun e => e.page == phyPage p && bit mask e.lane) then d.eyeEnd (phyPage p) true else d

/-- Width and lane map set; the lanes outside the map are in SLACK (R439), and their scans are aborted (R453). -/
def Dev.setMap (d : Dev) (p w mask : Nat) : Dev :=
  let out := maskMinus (allLanes p) mask
  let d := (d.setSlack p out).eyeAbort p out
  (d.lwr p F.PRT_STAT_WIDTH F.LNDL_STAT_WIDTH w).lwr p F.PRT_STAT_LANE_MAP F.LNDL_STAT_LANE_MAP mask

/-- Lanes of `mask` leave SLACK and adapt on the training pattern (R441, R455). -/
def Dev.wakeLanes (d : Dev) (p mask : Nat) : Dev :=
  if mask = 0 then d else (d.setSlack p (maskMinus (d.slackLanes p) mask)).emit (.pattern p mask)

/-- The scan that GO starts in a page (R453). -/
def Dev.eyeOf (d : Dev) (page : Nat) : Eye :=
  { page := page, lane := d.rdp F.PHY_EYE_CFG0_LANE page, eye := d.rdp F.PHY_EYE_CFG0_EYE page
    dwell := d.rdp F.PHY_EYE_CFG0_DWELL_LOG2 page, limit := d.rdp F.PHY_EYE_CFG0_ERR_LIMIT page
    vLast := d.rdp F.PHY_EYE_CFG1_V_LAST page, pFirst := d.rdp F.PHY_EYE_CFG1_P_FIRST page, pLast := d.rdp F.PHY_EYE_CFG1_P_LAST page
    v := d.rdp F.PHY_EYE_CFG1_V_FIRST page, p := d.rdp F.PHY_EYE_CFG1_P_FIRST page }

/-- What a write of PHY_EYE_CMD does (R453, R461): STOP aborts, GO starts unless a scan runs. -/
def Dev.eyeCmd (m : Master) (page v : Nat) (d : Dev) : Dev :=
  let busy := d.rdp F.PHY_EYE_STAT_BUSY page == 1
  let d := if bit v 0 && busy then d.eyeEnd page true else d
  if bit v 31 then
    if d.rdp F.PHY_EYE_STAT_BUSY page = 1 then d.dropWrite m page 0x210 v 3
    else
      let vf := d.rdp F.PHY_EYE_CFG1_V_FIRST page
      let pf := d.rdp F.PHY_EYE_CFG1_P_FIRST page
      let d := ((d.wrp F.PHY_EYE_STAT_BUSY page 1).wrp F.PHY_EYE_STAT_ABORTED page 0).wrp F.PHY_EYE_STAT_POINTS_DONE page 0
      if d.rdp F.PHY_EYE_CFG1_V_LAST page < vf ∨ d.rdp F.PHY_EYE_CFG1_P_LAST page < pf then d.eyeEnd page false
      else { d with eyes := d.eyes ++ [d.eyeOf page] }
  else d

/-- A point ends at one of its two limits (R453): 2^DWELL_LOG2 symbols compared, or ERR_LIMIT disagreements. -/
def Eye.ends (e : Eye) (errors compared : Nat) : Bool :=
  decide (errors ≤ e.limit) && decide (errors ≤ compared) && decide (compared ≤ 2 ^ e.dwell)
    && (compared == 2 ^ e.dwell || errors == e.limit)

/-- A point of the running scan is done (R453, R454): its record goes to host memory, and the next point follows. Counts at which no point
ends are none. -/
def Dev.eyePoint (page errors compared : Nat) (d : Dev) : Dev :=
  match d.eyes.find? (fun e => e.page == page) with
  | none => d
  | some e =>
    if !e.ends errors compared then d else
    let base := d.rdp F.PHY_EYE_BASE_LO_BASE_LO page * 4096 + d.rdp F.PHY_EYE_BASE_HI_BASE_HI page * 2 ^ 32
    let rec_ := min errors 0xFFFF + (min (Nat.log2 compared) 40) * 2 ^ 16 + 2 ^ 31
    let d := d.hostWrite (base + (e.v * 128 + e.p) * 4) (natLE 4 rec_)
    let d := d.wrp F.PHY_EYE_STAT_POINTS_DONE page (d.rdp F.PHY_EYE_STAT_POINTS_DONE page + 1)
    if e.p < e.pLast then
      { d with eyes := mapFirst (fun x => x.page == page) (fun x => { x with p := x.p + 1 }) d.eyes }
    else if e.v < e.vLast then
      { d with eyes := mapFirst (fun x => x.page == page) (fun x => { x with v := x.v + 1, p := x.pFirst }) d.eyes }
    else d.eyeEnd page false

/-! ### Training (R436–R439, R621) -/

/-- The wake tone for 8 µs on every lane not held by LANE_DISABLE, then the training pattern; those lanes are out of SLACK (R436, R455). -/
def Dev.sendTone (p : Nat) (d : Dev) : Dev :=
  let lanes := maskMinus (allLanes p) (d.disabledLanes p)
  ((d.setSlack p (d.disabledLanes p)).emit (.tone p lanes)).emit (.pattern p lanes)

/-- A port with ENABLE = 1, a role other than UNUSED and power enters DETECT from DOWN, once the package is READY
(R436, R586, R624). -/
def Dev.tryDetect (p : Nat) (d : Dev) : Dev :=
  if d.linkState p = 0 ∧ d.linkEnabled p ∧ d.linkPowered p ∧ d.booted ∧ (24 ≤ p ∨ d.role p ≠ 0)
      ∧ (d.rd F.PWR_STAT_STATE ≤ 1 ∨ d.rd F.PWR_STAT_STATE = 4) then
    ((d.setLinkState p 1).setLink p { d.link p with since := d.tim.tide }).sendTone p
  else d

/-- The link forgets what it holds (R452): a frame of which slots are missing is discarded, as are the flits not acknowledged; frames whose
last slot was accepted stay in the crossing and go on, and no credit is owed for them any more. -/
def Dev.setLinkDown (p : Nat) (d : Dev) : Dev :=
  let free := fun (q : QFrame) => if q.inp = p then { q with paid := true } else q
  let drop := fun (w : LWait) => { w with slots := [] }
  let d := { d with swc := { d.swc with recvSpace := d.swc.recvSpace.map free } }
  let d := if p < 24 then d else
    { d with lnd := modAt (fun l => { l with gate := l.gate.map drop, halves := l.halves.map drop }) d.lnd (p - 24) }
  d.setLink p { rx := (d.link p).rx, rxFree := (d.link p).rx.length }

/-- A link leaves for DOWN (R436, R621): its lanes go to SLACK; `record` says that LINK_DOWN is recorded, which ends
replay and starts the requeue, and `capture` that it is a first-error capture. An enabled port then enters DETECT. -/
def Dev.linkGoDown (p : Nat) (record capture : Bool) (d : Dev) : Dev :=
  let d := (d.setLinkState p 0).setMap p 0 0
  let d := d.setLinkDown p
  let d := d.lwr p F.PRT_PARTNER_VALID F.LNDL_PARTNER_VALID 0
  let d := if record then
      let d := (d.linkDownEvent p).linkCount p 6 1
      let d := if capture then d.capture (linkPage p) .degraded 0 0x08 (min p 0x3F) 0 else d
      if p < 24 then (d.requeue p).retryRecv else d
    else d
  (d.timeLinkDown).tryDetect p

/-- What a write of PRT_CFG or LNDL_CFG brings about (R436): ENABLE = 0 takes the link DOWN, ENABLE = 1 to DETECT. -/
def Dev.linkCfgWritten (p : Nat) (d : Dev) : Dev :=
  if d.linkEnabled p then d.tryDetect p
  else if d.linkState p = 0 then d
  else d.linkGoDown p (decide (5 ≤ d.linkState p)) false

/-- Lanes that both sides can use: this side's healthy lanes and the partner's (R439). -/
def Dev.healthy (d : Dev) (p partner : Nat) : Nat :=
  Nat.land (Nat.land (d.link p).usable (maskMinus (allLanes p) (d.failedLanes p))) partner

/-- The largest power of two that is at most `n`, 0 for 0. -/
def pow2Below (n : Nat) : Nat := if n = 0 then 0 else 2 ^ Nat.log2 n

/-- The `w` lowest-numbered lanes of a mask (R439). -/
def lowestLanes (lanes w mask : Nat) : Nat :=
  ((((List.range lanes).filter (fun i => bit mask i)).take w).map (fun i => 2 ^ i)).sum

/-- MAX_WIDTH of a port in lanes. -/
def Dev.maxWidth (d : Dev) (p : Nat) : Nat := 2 ^ d.lrd p F.PRT_CFG_MAX_WIDTH F.LNDL_CFG_MAX_WIDTH

/-- The width and lane map that a link takes with healthy lanes `h` and MAX_WIDTH of both sides (R439). -/
def chosenMap (p maxW h : Nat) : Nat × Nat :=
  let w := min maxW (pow2Below (popCount (laneCount p) h))
  (w, lowestLanes (laneCount p) w h)

/-- A RETRAIN now would have to re-adapt a lane (R437): one that this side's own lanes bring into the map, outside the present one. -/
def Dev.mustReadapt (d : Dev) (p : Nat) : Bool :=
  maskMinus (chosenMap p (d.maxWidth p) (d.healthy p (allLanes p))).2 (d.laneMap p) != 0

/-- A link enters RETRAIN (R436, R437, R442): a width exchange in progress is abandoned, the lanes it would have added are in SLACK again;
scans of its lanes abort. -/
def Dev.toRetrain (p : Nat) (d : Dev) : Dev :=
  let d := (((d.setLinkState p 6).eyeAbort p (allLanes p)).linkCount p 5 1).setSlack p (maskMinus (allLanes p) (d.laneMap p))
  d.setLink p { d.link p with
    since := d.tim.tide, readapt := d.mustReadapt p, width := none, txSwitch := none, changedSince := d.tim.tide + 1 }

/-- The PARAM message a port sends (R438, R447): node, port, role, group and the credits it advertises; in BUBBLE mode
the towpath channels advertise none (R414). -/
def Dev.ownParam (d : Dev) (p : Nat) : List Nat :=
  let tow := if d.towpath then d.lrd p F.PRT_CREDIT1_TOW F.LNDL_CREDIT1_TOW else 0
  let cls := [d.lrd p F.PRT_CREDIT0_REQ F.LNDL_CREDIT0_REQ, d.lrd p F.PRT_CREDIT0_RSP F.LNDL_CREDIT0_RSP,
    d.lrd p F.PRT_CREDIT1_BULK F.LNDL_CREDIT1_BULK, d.lrd p F.PRT_CREDIT1_CTRL F.LNDL_CREDIT1_CTRL]
  [d.node, if p < 24 then p else p - 24, if p < 24 then d.role p else 0, if p < 24 then d.group p else 0]
    ++ (cls.map (fun c => [c, c, tow, tow])).flatten

/-- The slots of a link control message (R447): its fields as numbers with their bytes, from byte 0 of slot 0 on. -/
def lctlSlots (fields : List (Nat × Nat)) : List Byte := fields.flatMap (fun f => natLE f.1 f.2)

/-- PARAM: NODE, PORT, ROLE and GROUP in slot 0, the credit counts in slots 1 and 2. -/
def paramSlots (l : List Nat) : List Byte :=
  sliceBytes (lctlSlots [(2, 1), (2, nth l 0 0), (1, nth l 1 0), (1, nth l 2 0 + nth l 3 0 * 16)]) 0 16 ++ lctlSlots ((l.drop 4).map (fun c => (2, c)))

/-- WIDTH_REQ, and WIDTH_ACK with its AT_SEQ. -/
def widthSlots (msg w mask : Nat) (atSeq : Option Nat) : List Byte :=
  lctlSlots ([(1, msg), (1, w), (2, mask)] ++ (atSeq.map (fun n => (2, n))).toList)

/-- RETRAIN_REQ. -/
def retrainSlots : List Byte := lctlSlots [(1, 4)]

/-- A link control message leaves in a sequenced flit (R447), once the replay buffer has room and none waits before it (R450). -/
def Dev.lctlOut (p : Nat) (slots : List Byte) (d : Dev) : Dev :=
  let l := d.link p
  if l.room ∧ l.lctlWait = [] then d.flitOut p 2 false 15 slots else d.setLink p { l with lctlWait := l.lctlWait ++ [slots] }

/-- PARAM leaves (R447). -/
def Dev.sendParam (p : Nat) (d : Dev) : Dev := d.lctlOut p (paramSlots (d.ownParam p))

/-- Every 1 ms in DETECT the wake tone is sent again (R436). -/
def Dev.detectTimer (p : Nat) (d : Dev) : Dev :=
  if d.linkState p = 1 ∧ (d.link p).since + us 1000 ≤ d.tim.tide then
    (d.setLink p { d.link p with since := d.tim.tide }).sendTone p
  else d

/-- The partner is seen in DETECT (R436). -/
def Dev.partnerDetected (p : Nat) (d : Dev) : Dev :=
  if d.linkState p = 1 then (d.setLinkState p 2).setLink p { d.link p with since := d.tim.tide } else d

/-- The lanes for which this receiver asks its partner for precoding (R432): as it would have it, unless PHY_LANE_CFG.PRECODE forces the
request on or off. -/
def Dev.precodeRequest (d : Dev) (p wish : Nat) : Nat :=
  let on := fun (l : Nat) =>
    let f := d.rdpi F.PHY_LANE_CFG_PRECODE (phyPage p) l
    f == 1 || (f == 0 && bit wish l)
  (((List.range (laneCount p)).filter on).map (fun l => 2 ^ l)).sum

/-- TRAIN is complete (R432, R436, R440): lanes not held by LANE_DISABLE that fail the pass figure are marked failed, those that had failed
before stay so; each direction of each lane precodes as its receiver has asked. -/
def Dev.trainComplete (p : Nat) (r : Trained) (reversed : Bool) (d : Dev) : Dev :=
  if d.linkState p = 2 then
    let use := maskMinus (allLanes p) (d.disabledLanes p)
    let failed := Nat.lor (d.failedLanes p) (maskMinus use r.passed)
    let d := (d.setFailed p failed).lwr p F.PRT_STAT_REVERSED F.LNDL_STAT_REVERSED (b2n reversed)
    if maskMinus use failed = 0 then d.linkGoDown p true false
    else (d.setLinkState p 3).setLink p { d.link p with
      usable := use, precRx := d.precodeRequest p r.wish, precTx := Nat.land r.asked (allLanes p) }
  else d

/-- ALIGN is complete (R436, R439): the width is chosen, and PARAM goes out as the first sequenced flit, so that sequence numbers start at 0;
the partner holds the credits that it advertises (R448; log entry 62). -/
def Dev.alignComplete (p partnerHealthy partnerMax : Nat) (d : Dev) : Dev :=
  if d.linkState p = 3 then
    let c := chosenMap p (min (d.maxWidth p) (2 ^ partnerMax)) (d.healthy p partnerHealthy)
    if c.1 = 0 then d.linkGoDown p true false
    else
      let d := (d.setLinkState p 4).setMap p c.1 c.2
      let adv := (d.ownParam p).drop 4
      let lent := adv.zipIdx.foldl (fun t a => nset t a.2 a.1) ([] : Tbl Nat)
      (d.setLink p { d.link p with
        txSeq := 4095, acked := 4095, rxSeq := 4095, adv := adv, lent := lent, txMask := c.2, progressAt := d.tim.tide }).sendParam p
  else d

/-- The partner's PARAM reported in PRT_PARTNER (R438, R591). -/
def Dev.setPartner (p : Nat) (a : ParamMsg) (d : Dev) : Dev :=
  let d := (d.lwr p F.PRT_PARTNER_NODE F.LNDL_PARTNER_NODE a.node).lwr p F.PRT_PARTNER_PORT F.LNDL_PARTNER_PORT a.port
  let d := (d.lwr p F.PRT_PARTNER_ROLE F.LNDL_PARTNER_ROLE a.role).lwr p F.PRT_PARTNER_GROUP F.LNDL_PARTNER_GROUP a.group
  d.lwr p F.PRT_PARTNER_VALID F.LNDL_PARTNER_VALID 1

/-- A link control message takes effect (R447): it stands first among those that accepted flits have brought; another one has none. -/
def Dev.withLctl (p : Nat) (m : Lctl) (f : Dev → Dev) (d : Dev) : Dev :=
  match (d.link p).lctlIn with
  | [] => d
  | x :: rest => if x = m then f (d.setLink p { d.link p with lctlIn := rest }) else d

/-- PARAM arrives (R436, R438, R449): in PARAM the link goes UP with the partner's credits; on a link that is UP it only renews PRT_PARTNER
(R591). -/
def Dev.paramArrive (p : Nat) (a : ParamMsg) (d : Dev) : Dev :=
  if d.linkState p = 4 then
    let d := (d.setPartner p a).setLinkState p 5
    let cr : Tbl Nat := (List.range 16).foldl (fun t k => nset t k (nth a.credits k 0)) []
    ((d.setLink p { d.link p with credits := cr, upAt := d.tim.tide }).linkUpEvent p).timeLinkUp
  else if 5 ≤ d.linkState p then d.setPartner p a
  else d

/-- Training has exceeded the bound of R437 (R436): the link goes DOWN and records it. -/
def Dev.boundExceeded (p : Nat) (d : Dev) : Dev :=
  let st := d.linkState p
  let l := d.link p
  if 2 ≤ st ∧ st ≤ 4 ∧ l.since + us 50000 ≤ d.tim.tide then d.linkGoDown p true false
  else if st = 6 ∧ l.since + us (if l.readapt then 5000 else 20) ≤ d.tim.tide then d.linkGoDown p true true
  else d

/-- Every active lane is without signal or lock for 1 µs (R436, R621). -/
def Dev.lossOfSignal (p : Nat) (d : Dev) : Dev := if 5 ≤ d.linkState p then d.linkGoDown p true true else d

/-- A lane in use fails (R440): the link retrains without it, and a DEGRADED error is captured (R482), whose CODE the spec leaves open (R489;
log entry 64). In RETRAIN the lane is marked failed, so that the width chosen at its end leaves it out. -/
def Dev.laneFailure (p lane : Nat) (d : Dev) : Dev :=
  if (d.linkState p = 5 ∨ d.linkState p = 6) ∧ bit (d.laneMap p) lane then
    let code := d.draw
    let d := (code.2.setFailed p (Nat.lor (d.failedLanes p) (2 ^ lane))).capture (linkPage p) .degraded 0 (code.1 % 256) (min p 0x3F) lane
    if d.linkState p = 5 then d.toRetrain p else d.setLink p { d.link p with readapt := d.mustReadapt p }
  else d

/-- The flits not yet acknowledged are sent again, in order, each with the present ACK and so with a new CRC (R436, R450, R451). Each is a
CORRECTED error of the link's page (R482). -/
def Dev.replay (p : Nat) (d : Dev) : Dev :=
  let l := d.link p
  if l.buffer.isEmpty then d
  else
    let again := fun (d : Dev) (f : Flit) => ((d.sendFlit p (f.bytes l.rxSeq false)).linkCount p 0 1).corrected (linkPage p)
    let d := (l.buffer.foldl again d).linkCount p 4 1
    d.setLink p { d.link p with replayedSince := d.tim.tide + 1 }

/-- A width and map take effect; a changed width is counted and raised (R441, R460). Lanes that join the map are no
longer failed; the transmitters of lanes that leave it start afresh when they are used again. -/
def Dev.newMap (p w mask : Nat) (d : Dev) : Dev :=
  let old := d.linkWidth p
  let d := (d.setMap p w mask).setFailed p (maskMinus (d.failedLanes p) mask)
  let l := d.link p
  let d := d.setLink p { l with
    width := none, txMask := mask, txSwitch := none, changedSince := d.tim.tide + 1
    lanes := l.lanes.zipIdx.map (fun t => if bit mask t.2 then t.1 else {}) }
  if old = w then d
  else
    let d := d.linkCount p 7 1
    if p < 24 then d.event (linkPage p) 2 else d

/-- RETRAIN is complete (R436, R439): the width is chosen again and the oldest unacknowledged flits are replayed. -/
def Dev.retrainComplete (p : Nat) (far : FarLanes) (d : Dev) : Dev :=
  if d.linkState p = 6 then
    let c := chosenMap p (min (d.maxWidth p) (2 ^ far.maxWidth)) (d.healthy p far.healthy)
    if c.1 = 0 then d.linkGoDown p true true
    else
      let d := (d.setLinkState p 5).newMap p c.1 c.2
      ((d.setLink p { d.link p with progressAt := d.tim.tide }).replay p).retryRecv
  else d

/-! ### Flits, credits and replay (R448–R452) -/

/-- The receiver asks for a replay: NAK at once, counted (R450). -/
def Dev.sendNak (p : Nat) (d : Dev) : Dev :=
  let d := (d.flitOut p 1 true 15 []).linkCount p 3 1
  d.setLink p { d.link p with nakWait := true, nakAt := d.tim.tide }

/-- A width exchange is complete (R441): this side's WIDTH_ACK is given and the flit it names has left, and the flit that the partner's names
has been accepted. -/
def Dev.widthDone (p : Nat) (d : Dev) : Dev :=
  let l := d.link p
  match l.width with
  | some e =>
    if e.ackSent ∧ l.txSwitch = none ∧ e.atSeq.any (fun a => decide ((l.rxSeq + 4096 - a) % 4096 < 2048)) then d.newMap p e.width e.mask else d
  | none => d

/-- The ACK field of a good flit is taken (R450). -/
def Dev.takeAck (p ack : Nat) (d : Dev) : Dev :=
  let l := d.link p
  let k := (ack + 4096 - l.acked) % 4096
  if 0 < k ∧ k ≤ (l.txSeq + 4096 - l.acked) % 4096 then
    let d := d.setLink p { l with acked := ack % 4096, replays := 0, progressAt := d.tim.tide, buffer := l.buffer.drop k, lctlWait := [] }
    (l.lctlWait.foldl (fun (d : Dev) m => d.lctlOut p m) d).widthDone p
  else d

/-- Credit grants are added (R449); in TOWPATH mode a frame that waits in receive space for a credit may go on (R420). -/
def Dev.takeGrants (p : Nat) (gs : List (Nat × Nat × Nat)) (d : Dev) : Dev :=
  let d := d.setLink p { d.link p with
    credits := gs.foldl (fun t g => nset t (4 * g.1 + g.2.1) (nget t (4 * g.1 + g.2.1) + g.2.2)) (d.link p).credits }
  if p < 24 ∧ d.towpath then d.retryRecv else d

/-- The slots of frames, key 4 × class + channel. -/
def slotsBy (fs : List Frame) (k : Nat) : Nat := ((fs.filter (fun f => 4 * f.hdr.cls + f.hdr.channel == k)).map (·.hdr.len)).sum

/-- What port `p` has once it accepts DATA flit `f`: whole frames, and the slots of one that is not. -/
def Dev.accepted (d : Dev) (p : Nat) (f : FlitMsg) : List Frame × List Byte :=
  let l := (d.link p).rxPart ++ f.slots
  takeFrames (l.length / 16) l

/-- The depth of a receive crossing in flits (R42): 16 of a fabric PHY, 16 pairs of an attach PHY. -/
def crossDepth (p : Nat) : Nat := if p < 24 then 16 else 32

/-- Port `p` can take sequenced flit `f`: its receive crossing has room for what a DATA flit brings (R42), and the partner holds the credits
for the frames that it completes: it sends no other (R44, R448). -/
def Dev.flitFits (d : Dev) (p : Nat) (f : FlitMsg) : Bool :=
  f.kind != 0 ||
    (decide (ceilDiv ((((d.link p).rx ++ (d.accepted p f).1).map (·.hdr.len)).sum + (d.accepted p f).2.length / 16) 15 ≤ crossDepth p)
      && (List.range 16).all (fun k => decide (slotsBy (d.accepted p f).1 k ≤ nget (d.link p).lent k)))

/-- A sequenced flit is accepted (R43, R445, R447, R449): its grants are added, the frames that a DATA flit completes stand in the receive
crossing in order, and the message of an LCTL flit waits to take effect. -/
def Dev.flitAccept (p : Nat) (f : FlitMsg) (d : Dev) : Dev :=
  let l := d.link p
  let r := if f.kind = 0 then d.accepted p f else ([], l.rxPart)
  let took := (List.range 16).foldl (fun t k => nset t k (nget t k - slotsBy r.1 k)) l.lent
  let msgs := if f.kind = 2 then l.lctlIn ++ f.lctl.toList else l.lctlIn
  let d := d.setLink p { l with rxSeq := f.seq, nakWait := false, rxPart := r.2, lent := took, rx := l.rx ++ r.1, lctlIn := msgs }
  (d.takeGrants p f.grants).widthDone p

/-- RETRAIN_REQ goes out and the link retrains (R451). -/
def Dev.askRetrain (p : Nat) (d : Dev) : Dev := (d.lctlOut p retrainSlots).toRetrain p

/-- A replay that a NAK or the timer asks for (R450, R451): after REPLAY_MAX in a row without progress the link retrains instead. -/
def Dev.replayAgain (p : Nat) (d : Dev) : Dev :=
  let l := d.link p
  if l.buffer.isEmpty then d
  else if d.linkState p = 5 ∧ d.lrd p F.PRT_REPLAY_CFG_REPLAY_MAX F.LNDL_REPLAY_CFG_REPLAY_MAX ≤ l.replays then
    (d.setLink p { l with replays := 0 }).askRetrain p
  else (d.setLink p { l with replays := l.replays + 1 }).replay p

/-- The codewords of which a flit is the first to have a block are counted lane by lane (R461), corrected symbols as a CORRECTED error of the
lanes' page (R482). A lane with more than 64 uncorrectable ones within 1 ms fails (R440). -/
def Dev.fecCount (p : Nat) (d : Dev) (w : FecWord) : Dev :=
  if !w.first ∨ laneCount p ≤ w.lane ∨ w.errors = 0 then d
  else if !w.bad then (d.count (phyPage p) (2 * w.lane) w.errors).corrected (phyPage p)
  else
    let d := d.count (phyPage p) (2 * w.lane + 1) 1
    let l := d.link p
    let recent := (l.badWords.filter (fun b => decide (d.tim.tide < b.2 + us 1000))) ++ [(w.lane, d.tim.tide)]
    let d := d.setLink p { l with badWords := recent }
    if 64 < (recent.filter (fun b => b.1 == w.lane)).length then d.laneFailure p w.lane else d

/-- A flit counts toward the ACK that is due at least once in every 32 flits received (R450). -/
def Dev.ackDue (p : Nat) (d : Dev) : Dev :=
  let d := d.setLink p { d.link p with flitsSinceAck := (d.link p).flitsSinceAck + 1 }
  if 32 ≤ (d.link p).flitsSinceAck then d.flitOut p (if (d.link p).owed.isEmpty then 1 else 0) false 15 [] else d

/-- A flit arrives (R450): KIND 0 DATA, 1 IDLE, 2 LCTL; one of the reserved KIND 3 is dropped. A flit that the crossing cannot take, or for
whose frames the partner holds no credit, does not come (R42, R44). -/
def Dev.flitReceive (p : Nat) (f : FlitMsg) (d : Dev) : Dev :=
  let l := d.link p
  let next := decide ((f.seq + 4096 - l.rxSeq) % 4096 = 1) && f.kind != 1 && f.kind != 3
  if d.linkState p < 4 ∨ (f.good ∧ next ∧ !d.flitFits p f) then d
  else
    let d := f.words.foldl (Dev.fecCount p) (d.linkCount p 1 1)
    if !f.good then
      let d := d.linkCount p 2 1
      (if (d.link p).nakWait then d else d.sendNak p).ackDue p
    else
      let d := d.takeAck p f.ack
      let d := if f.nak then d.replayAgain p else d
      let l := d.link p
      let ahead := (f.seq + 4096 - l.rxSeq) % 4096
      let d :=
        if f.kind = 1 then
          if 0 < ahead ∧ ahead < 2048 ∧ !l.nakWait then d.sendNak p else d
        else if next then d.flitAccept p f
        else d
      d.ackDue p

/-- NAK again every 1 µs while the receiver waits (R450). -/
def Dev.nakRepeat (p : Nat) (d : Dev) : Dev :=
  if 4 ≤ d.linkState p ∧ (d.link p).nakWait ∧ (d.link p).nakAt + us 1 ≤ d.tim.tide then d.sendNak p else d

/-- The replay timer (R451): after REPLAY_MAX replays without progress the link retrains. -/
def Dev.replayTimer (p : Nat) (d : Dev) : Dev :=
  let l := d.link p
  if (d.linkState p = 4 ∨ d.linkState p = 5) ∧ l.txSeq ≠ l.acked
      ∧ l.progressAt + nsT (10 * d.lrd p F.PRT_REPLAY_CFG_TIMER_NS F.LNDL_REPLAY_CFG_TIMER_NS) ≤ d.tim.tide then
    (d.setLink p { l with progressAt := d.tim.tide }).replayAgain p
  else d

/-- With grants to return and no frame that can go, a DATA flit of pad slots leaves (R449). -/
def Dev.returnGrants (d : Dev) (p : Nat) : Dev :=
  let l := d.link p
  if d.linkState p = 5 ∧ !l.owed.isEmpty ∧ l.room ∧ l.lctlWait = [] ∧ (24 ≤ p ∨ !(List.range 4).any (fun c => d.classReady p c)) then
    d.flitOut p 0 false 15 []
  else d

/-! ### Width exchanges (R441, R442) -/

/-- WIDTH_REQ goes out (R441); the lanes that a widening adds adapt. -/
def Dev.askWidth (p w mask : Nat) (d : Dev) : Dev :=
  let d := d.lctlOut p (widthSlots 2 w mask none)
  let d := d.setLink p { d.link p with
    width := some ⟨w, mask, decide (d.linkWidth p < w), false, true, false, none, d.tim.tide⟩ }
  d.wakeLanes p (maskMinus mask (d.laneMap p))

/-- WIDTH_ACK goes out (R441): it names a width, a mask and, as AT_SEQ, the sequence number of its own flit, after which this side's
transmitter takes the map. -/
def Dev.sendWidthAck (p w mask : Nat) (d : Dev) : Dev :=
  let l := d.link p
  let at_ := (l.txSeq + 1 + l.lctlWait.length) % 4096
  (d.setLink p { l with txSwitch := some (at_, mask) }).lctlOut p (widthSlots 3 w mask (some at_))

/-- An exchange is abandoned (R441): the present map stays, its other lanes in SLACK; `tell` says that a WIDTH_ACK names it. -/
def Dev.dropExchange (p : Nat) (tell : Bool) (d : Dev) : Dev :=
  let d := if tell then d.sendWidthAck p (d.linkWidth p) (d.laneMap p) else d
  (d.setLink p { d.link p with width := none }).setSlack p (maskMinus (allLanes p) (d.laneMap p))

/-- What a write of PRT_WIDTH_CMD or LNDL_WIDTH_CMD with GO does (R441, R460): dropped and recorded unless the link is
UP, no exchange is in progress and LANE_MASK holds WIDTH bits. -/
def Dev.widthCmd (m : Master) (p v : Nat) (d : Dev) : Dev :=
  let w := d.lrd p F.PRT_WIDTH_CMD_WIDTH F.LNDL_WIDTH_CMD_WIDTH
  let mask := d.lrd p F.PRT_WIDTH_CMD_LANE_MASK F.LNDL_WIDTH_CMD_LANE_MASK
  if d.linkState p = 5 ∧ (d.link p).width = none ∧ popCount (laneCount p) mask = w ∧ w ≠ 0 then d.askWidth p w mask
  else d.dropWrite m (linkPage p) (if p < 24 then 0x10C else 0x30C) v 3

/-- The width and mask of an exchange that both sides asked for (R442): the narrower width, the lanes of both masks; where those are fewer,
as many of them as a width takes (log entry 64). -/
def bothAsked (p w mask w' mask' : Nat) : Nat × Nat := chosenMap p (min w w') (Nat.land mask mask')

/-- WIDTH_REQ arrives (R441, R442): where this side has asked too and neither has acknowledged, both take the narrower
width and the intersection of the masks; without a lane in common the exchange is abandoned, since a link that is UP keeps a lane (R455). A
narrowing is acknowledged at once, a widening once its lanes have adapted. A mask that does not hold WIDTH lanes asks for nothing. -/
def Dev.widthReq (p w mask : Nat) (d : Dev) : Dev :=
  if d.linkState p = 5 ∧ popCount 16 mask = w ∧ mask ≤ allLanes p ∧ w ≠ 0 then
    let ex := match (d.link p).width with
      | some e => if e.askedByUs && !e.ackSent then (bothAsked p e.width e.mask w mask, true) else ((w, mask), e.askedByUs)
      | none => ((w, mask), false)
    if ex.1.1 = 0 then d.dropExchange p false
    else
      let widening := decide (d.linkWidth p < ex.1.1)
      let d := d.setLink p { d.link p with
        width := some ⟨ex.1.1, ex.1.2, widening, false, ex.2, !widening, none, d.tim.tide⟩ }
      let d := d.setSlack p (maskMinus (allLanes p) (Nat.lor (d.laneMap p) (if widening then ex.1.2 else 0)))
      if widening then d.emit (.pattern p (maskMinus ex.1.2 (d.laneMap p))) else d.sendWidthAck p ex.1.1 ex.1.2
  else d

/-- WIDTH_ACK arrives (R441): one that names the present map abandons the exchange, which this side's then names too; one that names the
exchange's map is answered, unless lanes are still to adapt, and completes the exchange at the flits that both name. -/
def Dev.widthAck (p w mask atSeq : Nat) (d : Dev) : Dev :=
  match (d.link p).width with
  | none => d
  | some e =>
    if d.linkState p ≠ 5 then d
    else if w = d.linkWidth p ∧ mask = d.laneMap p then d.dropExchange p true
    else if w ≠ e.width ∨ mask ≠ e.mask then d
    else
      let send := !e.ackSent && (!e.widening || e.lanesReady)
      let d := if send then d.sendWidthAck p e.width e.mask else d
      (d.setLink p { d.link p with width := some { e with atSeq := some atSeq, ackSent := e.ackSent || send } }).widthDone p

/-- The lanes of a widening are adapted (R441). -/
def Dev.wideningReady (p : Nat) (d : Dev) : Dev :=
  match (d.link p).width with
  | none => d
  | some e =>
    if d.linkState p = 5 ∧ e.widening ∧ !e.lanesReady then
      let d := d.sendWidthAck p e.width e.mask
      (d.setLink p { d.link p with width := some { e with lanesReady := true, ackSent := true } }).widthDone p
    else d

/-- A widening whose lanes do not adapt within 50 µs is abandoned (R441). -/
def Dev.widenAbandon (p : Nat) (d : Dev) : Dev :=
  match (d.link p).width with
  | none => d
  | some e => if e.widening ∧ !e.lanesReady ∧ e.since + us 50 ≤ d.tim.tide then d.dropExchange p true else d

/-- The failed lanes that have been in SLACK for 1 s (R441). -/
def Dev.lanesDue (d : Dev) (p : Nat) : Nat :=
  let due := fun (l : Nat) => bit (Nat.land (d.failedLanes p) (d.slackLanes p)) l && decide (nget (d.link p).slackAt l + us 1000000 ≤ d.tim.tide + 1)
  (((List.range (laneCount p)).filter due).map (fun l => 2 ^ l)).sum

/-- AUTO_WIDEN (R441): once a failed lane has been in SLACK for 1 s, WIDTH_REQ names it again, with the lanes that have not failed; the time
starts afresh for the lanes named. -/
def Dev.autoWiden (p : Nat) (d : Dev) : Dev :=
  let l := d.link p
  let due := d.lanesDue p
  let c := chosenMap p (d.maxWidth p) (Nat.lor (maskMinus l.usable (d.failedLanes p)) (Nat.land due l.usable))
  if d.lrd p F.PRT_CFG_AUTO_WIDEN F.LNDL_CFG_AUTO_WIDEN = 1 ∧ d.linkState p = 5 ∧ l.width = none ∧ !d.pwr.narrowed
      ∧ d.linkWidth p < c.1 ∧ Nat.land c.2 due ≠ 0 then
    d.askWidth p c.1 c.2
  else d

/-- A wake tone on a lane (R436, R456, R457). -/
def Dev.wakeTone (p lane : Nat) (d : Dev) : Dev :=
  let l := d.link p
  if d.linkState p ≤ 1 ∧ d.linkEnabled p ∧ d.linkPowered p ∧ (24 ≤ p ∨ d.role p ≠ 0) ∧ d.booted then
    let d := if d.linkState p = 0 then d.setSlack p (d.disabledLanes p) else d
    (d.setLinkState p 2).setLink p { d.link p with since := d.tim.tide }
  else if d.linkState p = 5 then
    match l.width with
    | some e =>
      if e.ackSent ∧ bit (d.laneMap p) lane ∧ !bit e.mask lane then
        (d.linkCount p 8 1).setLink p { l with width := none, txMask := d.laneMap p, txSwitch := none }
      else if bit (d.slackLanes p) lane then d.linkCount p 8 1 else d
    | none => if bit (d.slackLanes p) lane then d.linkCount p 8 1 else d
  else d

/-! ### The commands -/

/-- DETECT_TIMER (R436). -/
def execDetectTimer (p : Fin 28) (s : State) : Host.Outcome State Fault Refusal :=
  onDev (Dev.ifRuns (Dev.detectTimer p)) s

/-- PARTNER_DETECTED (R436). -/
def execPartnerDetected (p : Fin 28) (s : State) : Host.Outcome State Fault Refusal :=
  onDev (Dev.ifRuns (Dev.partnerDetected p)) s

/-- TRAIN_COMPLETE (R436). -/
def execTrainComplete (p : Fin 28) (r : Trained) (reversed : Bool) (s : State) : Host.Outcome State Fault Refusal :=
  onDev (Dev.ifRuns (Dev.trainComplete p r reversed)) s

/-- ALIGN_COMPLETE (R439). -/
def execAlignComplete (p : Fin 28) (partnerHealthy partnerMax : Nat) (s : State) : Host.Outcome State Fault Refusal :=
  onDev (Dev.ifRuns (Dev.alignComplete p partnerHealthy partnerMax)) s

/-- PARAM (R438). -/
def execLinkParam (p : Fin 28) (a : ParamMsg) (s : State) : Host.Outcome State Fault Refusal :=
  onDev (Dev.ifRuns (Dev.withLctl p (.param a) (Dev.paramArrive p a))) s

/-- TRAINING_BOUND_EXCEEDED (R437). -/
def execTrainingBoundExceeded (p : Fin 28) (s : State) : Host.Outcome State Fault Refusal :=
  onDev (Dev.ifRuns (Dev.boundExceeded p)) s

/-- LOSS_OF_SIGNAL (R436, R621). -/
def execLossOfSignal (p : Fin 28) (s : State) : Host.Outcome State Fault Refusal :=
  onDev (Dev.ifRuns (Dev.lossOfSignal p)) s

/-- LANE_FAILURE (R440). -/
def execLaneFailure (p : Fin 28) (lane : Nat) (s : State) : Host.Outcome State Fault Refusal :=
  onDev (Dev.ifRuns (Dev.laneFailure p lane)) s

/-- RETRAIN_COMPLETE (R436, R439). -/
def execRetrainComplete (p : Fin 28) (far : FarLanes) (s : State) : Host.Outcome State Fault Refusal :=
  onDev (Dev.ifRuns (Dev.retrainComplete p far)) s

/-- FLIT_RECEIVE (R450). -/
def execFlitReceive (p : Fin 28) (f : FlitMsg) (s : State) : Host.Outcome State Fault Refusal :=
  onDev (Dev.ifRuns (Dev.flitReceive p f)) s

/-- NAK_REPEAT (R450). -/
def execNakRepeat (p : Fin 28) (s : State) : Host.Outcome State Fault Refusal := onDev (Dev.ifRuns (Dev.nakRepeat p)) s

/-- REPLAY_TIMER (R451). -/
def execReplayTimer (p : Fin 28) (s : State) : Host.Outcome State Fault Refusal := onDev (Dev.ifRuns (Dev.replayTimer p)) s

/-- RETRAIN_REQ (R447): the receiver enters RETRAIN. -/
def execRetrainReq (p : Fin 28) (s : State) : Host.Outcome State Fault Refusal :=
  onDev (Dev.ifRuns (Dev.withLctl p .retrainReq (fun d => if d.linkState p = 5 then d.toRetrain p else d))) s

/-- WIDTH_REQ (R441). -/
def execWidthReq (p : Fin 28) (width mask : Nat) (s : State) : Host.Outcome State Fault Refusal :=
  onDev (Dev.ifRuns (Dev.withLctl p (.widthReq width mask) (Dev.widthReq p width mask))) s

/-- WIDTH_ACK (R441). -/
def execWidthAck (p : Fin 28) (width mask atSeq : Nat) (s : State) : Host.Outcome State Fault Refusal :=
  onDev (Dev.ifRuns (Dev.withLctl p (.widthAck width mask atSeq) (Dev.widthAck p width mask atSeq))) s

/-- WIDENING_LANES_READY (R441). -/
def execWideningLanesReady (p : Fin 28) (s : State) : Host.Outcome State Fault Refusal :=
  onDev (Dev.ifRuns (Dev.wideningReady p)) s

/-- AUTO_WIDEN_TIMER (R441). -/
def execAutoWidenTimer (p : Fin 28) (s : State) : Host.Outcome State Fault Refusal :=
  onDev (Dev.ifRuns (Dev.autoWiden p)) s

/-- WIDEN_ABANDON (R441). -/
def execWidenAbandon (p : Fin 28) (s : State) : Host.Outcome State Fault Refusal :=
  onDev (Dev.ifRuns (Dev.widenAbandon p)) s

/-- WAKE_TONE_DETECT (R456, R457). -/
def execWakeToneDetect (p : Fin 28) (lane : Nat) (s : State) : Host.Outcome State Fault Refusal :=
  onDev (Dev.ifRuns (Dev.wakeTone p lane)) s

/-- EYE_POINT_DONE (R453, R454). -/
def execEyePointDone (page errors compared : Nat) (s : State) : Host.Outcome State Fault Refusal :=
  onDev (Dev.ifRuns (Dev.eyePoint page errors compared)) s

end Sys2Proof.Machine
end

