-- ==== Sys2Proof/Machine/Power.lean ====
section
/-!
DEFINITION. Power (R47–R49, R556–R577): VDD_CORE, cap orders and the setpoint, admission throttling, brake and thermal
limits, telemetry, the last-wake record and PWR_CMD. Entry into and exit from MOORED stand in Moor.lean.
-/
namespace Sys2Proof.Machine

/-- PWR_STAT.STATE (R560): 0 ACTIVE, 1 IDLE, 2 MOORING, 3 MOORED, 4 WAKING. -/
def Dev.pwrState (d : Dev) : Nat := d.rd F.PWR_STAT_STATE

/-- The package is in ACTIVE or IDLE. -/
def Dev.awake (d : Dev) : Bool := decide (d.pwrState ≤ 1)

/-! ### VDD_CORE (R47, R49) -/

/-- What VCORE_LOW reads (R49): 1 below 0.60 V, 0 otherwise. -/
def Dev.railLow (d : Dev) : Nat := b2n (decide (d.glb.vddMv < 600))

/-- The always-on monitor sees VDD_CORE at `mv` millivolts (R49). Under RESET_N it measures, and no register shows it. -/
def Dev.railAt (mv : Nat) (d : Dev) : Dev :=
  let since := if mv < 550 then some (d.glb.uvSince.getD d.tim.tide) else none
  let d := { d with glb := { d.glb with vddMv := mv, uvSince := since } }
  if d.glb.off then d else d.wr F.BLK_STAT_BLOCK d.railLow

/-- VDD_CORE at `mv` millivolts, at or above 0.60 V (R47, R49). -/
def Dev.railMoves (mv : Nat) (d : Dev) : Dev := if 600 ≤ mv then d.railAt mv else d

/-- VDD_CORE below 0.60 V (R49): VCORE_LOW reads 1; each entry is an event, counted and captured. -/
def Dev.vcoreLow (mv : Nat) (d : Dev) : Dev :=
  if 600 ≤ mv then d
  else
    let entry := decide (600 ≤ d.glb.vddMv) && !d.glb.off
    let d := d.railAt mv
    if entry then (d.event 0 1).capture 0 .degraded 0 0x11 0x3F 0 else d

/-- VDD_CORE has stayed below 0.55 V for 1 µs (R49): CORE_UV is recorded and the core is held as in reset. -/
def Dev.coreUv (d : Dev) : Dev :=
  match d.glb.uvSince with
  | none => d
  | some t =>
    if t + us 1 ≤ d.tim.tide ∧ d.glb.hold ≠ Hold.coreUv ∧ d.glb.hold ≠ Hold.eoff then
      let d := (d.fatalTime).wr F.ERR_FATAL_CORE_UV 1
      let d := { d with glb := { d.glb with hold := .coreUv } }
      (d.wr F.BLK_STAT_BLOCK d.railLow).txIdle
    else d

/-- `f` while VDD_AON is present: what the monitor of the rail does, under RESET_N too (R49, R556). -/
def Dev.ifMonitored (f : Dev → Dev) (d : Dev) : Dev := if d.glb.vddAon then f d else d

/-! ### The cap (R568–R573) -/

/-- The setpoint of a cap in the encoding of VSET (R570). -/
def capSetpoint (w : Nat) : Nat := if 800 ≤ w then 0 else if 640 ≤ w then 1 else if 500 ≤ w then 2 else 3

/-- WIDTH_REQ to width 2 on every link that is UP and wider (R570). -/
def Dev.narrowLinks (d : Dev) : Dev :=
  if d.rd F.PWR_CFG_NARROW_EN = 1 then
    (List.range 28).foldl (fun d p =>
        if d.linkState p = 5 ∧ 2 < d.linkWidth p ∧ (d.link p).width = none then
          d.askWidth p 2 (lowestLanes (laneCount p) 2 (d.laneMap p)) else d)
      { d with pwr := { d.pwr with narrowed := true } }
  else d

/-- Links widen again once the cap allows (R441, R570). -/
def Dev.widenLinks (d : Dev) : Dev :=
  if d.pwr.narrowed then
    (List.range 28).foldl (fun d p =>
        let good := (d.link p).usable - Nat.land (d.link p).usable (d.failedLanes p)
        let w := min (d.maxWidth p) (pow2Below (popCount (laneCount p) good))
        if d.linkState p = 5 ∧ d.linkWidth p < w ∧ (d.link p).width = none then
          d.askWidth p w (lowestLanes (laneCount p) w good) else d)
      { d with pwr := { d.pwr with narrowed := false } }
  else d

/-- CAP_UNREACHABLE is raised (R573): status, event, count and capture, and every measure of the 380 W row. -/
def Dev.capUnreachable (d : Dev) : Dev :=
  let cap := d.capInForce
  let d := if d.rd F.PWR_STAT_CAP_STATUS = 0 then
      (((d.wr F.PWR_STAT_CAP_STATUS sCapUnreachable).event 1 1).count 1 4 1).capture 1 .degraded sCapUnreachable 0x10 0x3F cap
    else d
  (({ d with pwr := { d.pwr with arraysHeld := true } }).wr F.PWR_STAT_THROTTLE 7).narrowLinks

/-- A throttling level that the last window's average calls for (R571): a free one of 1 to 7 above the cap, 0 at or
below it. -/
def Dev.throttleFor (d : Dev) (watts cap : Nat) : Nat × Dev :=
  if watts ≤ cap ∨ 950 ≤ cap then (0, d) else (1 + (d.draw).1 % 7, (d.draw).2)

/-- The cap in force takes effect (R568–R573): CAP_EFF, CAP_SRC and the setpoint on VCORE_SEL; a lowered cap throttles
at once as the last average calls for. -/
def Dev.capApply (d : Dev) : Dev :=
  let cap := d.capInForce
  let old := d.rd F.PWR_STAT_CAP_EFF
  let d := ({ d with pwr := { d.pwr with pendingOrder := false } }).wr F.PWR_STAT_CAP_EFF cap
  let d := d.wr F.PWR_STAT_CAP_SRC (if d.pwr.thermal ∧ 380 ≤ d.pwr.order then 2 else d.pwr.orderSrc)
  let set := capSetpoint cap
  let d := if d.rd F.PWR_STAT_VSET = set then d else (d.wr F.PWR_STAT_VSET set).emit (.pin "VCORE_SEL" set)
  if cap < 380 then d.capUnreachable
  else
    let d := d.wr F.PWR_STAT_CAP_STATUS 0
    let d := if 500 ≤ cap then ({ d with pwr := { d.pwr with arraysHeld := false } }).widenLinks else d
    if cap < old then
      let r := d.throttleFor (d.rd F.PWR_AVG_AVG_W) cap
      r.2.wr F.PWR_STAT_THROTTLE r.1
    else d

/-- The cap takes effect now, or on release of the brake or entry to ACTIVE (R509, R571). -/
def Dev.capNow (d : Dev) : Dev :=
  if d.braked ∨ !d.awake then { d with pwr := { d.pwr with pendingOrder := true } } else d.capApply

/-- A register (`src` 0) or pin (`src` 1) order (R568). -/
def Dev.capOrder (w src : Nat) (d : Dev) : Dev :=
  ({ d with pwr := { d.pwr with order := w, orderSrc := src } }).count 1 3 1 |>.capNow

/-- A rising edge of LIMIT_STROBE with code `c` (R568). -/
def Dev.limitStrobe (c : Nat) (d : Dev) : Dev :=
  if d.rd F.PWR_CFG_PIN_EN = 1 then d.capOrder (if 60 ≤ c then 950 else 16 * c) 1 else d

/-- An order that waited acts once nothing holds it (R571). -/
def Dev.capPending (d : Dev) : Dev := if d.pwr.pendingOrder then d.capNow else d

/-- The rail has reached the setpoint (R571): throttling is lifted unless the last average exceeds the cap. -/
def Dev.vsetReached (d : Dev) : Dev :=
  let d := d.railMoves (750 - 50 * d.rd F.PWR_STAT_VSET)
  if d.rd F.PWR_AVG_AVG_W ≤ d.rd F.PWR_STAT_CAP_EFF ∧ d.rd F.PWR_STAT_CAP_STATUS = 0 then d.wr F.PWR_STAT_THROTTLE 0 else d

/-! ### Brake and thermal limits (R574, R575) -/

def Dev.brakeAssert (d : Dev) : Dev :=
  if d.rd F.PWR_STAT_BRAKE = 1 then d else (d.wr F.PWR_STAT_BRAKE 1).count 1 2 1

def Dev.brakeRelease (d : Dev) : Dev := (d.wr F.PWR_STAT_BRAKE 0).capPending

/-- The thermal trip (R575): brake, transmitters idle, 0.60 V, ERR_FATAL and THERMTRIP_N, until RESET_N. -/
def Dev.thermalTrip (d : Dev) : Dev :=
  let d := ((d.fatalTime).wr F.ERR_FATAL_THERMAL_TRIP 1).wr F.PWR_STAT_VSET 3
  let d := (d.emit (.pin "VCORE_SEL" 3)).emit (.pin "THERMTRIP_N" 0)
  ({ d with glb := { d.glb with hold := if d.glb.hold = Hold.eoff then .eoff else .thermal, thermtrip := true } }).txIdle

/-- A reading of the hottest junction (R575). -/
def Dev.thermalReading (tj : Nat) (d : Dev) : Dev :=
  let d := (d.wr F.PWR_TEMP_TJ (min tj 255)).wr F.PWR_TEMP_TJ_PEAK (max (d.rd F.PWR_TEMP_TJ_PEAK) (min tj 255))
  if d.glb.thermtrip then d
  else
    let d := { d with pwr := { d.pwr with hot := if 115 ≤ tj then d.pwr.hot + 1 else 0 } }
    if 2 ≤ d.pwr.hot then d.thermalTrip
    else
      let t := d.rd F.PWR_CFG_THROTTLE_C
      if t ≤ tj ∧ !d.pwr.thermal then
        ((({ d with pwr := { d.pwr with thermal := true } }).count 1 5 1).count 1 3 1 |>.event 1 2).capNow
      else if tj + 5 < t ∧ d.pwr.thermal then ({ d with pwr := { d.pwr with thermal := false } }).capNow
      else d

/-! ### Telemetry (R576, R577) -/

/-- Every measure of R570 for the cap in force is applied. -/
def Dev.measuresApplied (d : Dev) : Bool :=
  d.rd F.PWR_STAT_THROTTLE == 7
    && (decide (500 ≤ d.capInForce) || (d.pwr.arraysHeld && (d.pwr.narrowed || d.rd F.PWR_CFG_NARROW_EN == 0)))

/-- The cap loop at a window's end (R570, R573). -/
def Dev.capLoop (watts : Nat) (d : Dev) : Dev :=
  let cap := d.capInForce
  if 950 ≤ cap ∨ cap < 380 then d
  else if watts ≤ cap then
    let r := d.draw
    r.2.wr F.PWR_STAT_THROTTLE (r.1 % (d.rd F.PWR_STAT_THROTTLE + 1))
  else if d.measuresApplied then d.capUnreachable
  else
    let r := d.throttleFor watts cap
    let d := r.2.wr F.PWR_STAT_THROTTLE r.1
    if cap < 500 then ({ d with pwr := { d.pwr with arraysHeld := true } }).narrowLinks else d

/-- The end of an averaging window (R576): AVG_W and PEAK_W, and the cap loop. -/
def Dev.windowEnd (watts : Nat) (d : Dev) : Dev :=
  let k := d.ns / (d.rd F.PWR_CFG_AVG_100US * 100000)
  if d.domOn 29 ∧ d.pwr.windowAt < k then
    let w := min watts 2047
    let d := { d with pwr := { d.pwr with windowAt := k } }
    let d := (d.wr F.PWR_AVG_AVG_W w).wr F.PWR_AVG_PEAK_W (max (d.rd F.PWR_AVG_PEAK_W) w)
    if d.awake then d.capLoop w else d
  else d

/-- A read of PWR_ENERGY_LO latches both halves (R577): energy never falls. -/
def Dev.energyRead (m : Master) (mj : Nat) (d : Dev) : Dev :=
  let v := max d.pwr.mj mj % 2 ^ 64
  let d := (({ d with pwr := { d.pwr with mj := v } }).wr F.PWR_ENERGY_LO_MJ_LO (v % 2 ^ 32)).wr F.PWR_ENERGY_HI_MJ_HI (v / 2 ^ 32)
  d.regAnswer m 0 (natLE 4 (v % 2 ^ 32))

/-! ### Wake and PWR_CMD (R561, R562, R565, R566) -/

/-- The last-wake record is written (R566): only the first source since the last MOOR. -/
def Dev.wakeRecord (w : WakeRec) (duringEntry : Bool) (d : Dev) : Dev :=
  if d.pwr.wakeOpen then
    let d := (d.wr F.PWR_WAKE_SRC_SOURCE w.source).wr F.PWR_WAKE_SRC_DURING_ENTRY (b2n duringEntry)
    let d := (d.wr F.PWR_WAKE_SRC_PORT w.port).wr F.PWR_WAKE_SRC_LANE w.lane
    let d := (d.wr F.PWR_WAKE_TIME_LO_T_LO (w.ns % 2 ^ 32)).wr F.PWR_WAKE_TIME_HI_T_HI (w.ns / 2 ^ 32)
    ({ d with pwr := { d.pwr with wakeOpen := false } }).event 1 3
  else d

/-- A wake source is captured (R560, R565, R566): in E1–E4 it aborts the entry, in E5 it waits for MOORED, in MOORED
the package starts to wake. -/
def Dev.wake (source port lane : Nat) (d : Dev) : Dev :=
  let w : WakeRec := ⟨source, port, lane, d.ns⟩
  if d.pwrState = 2 then
    if d.pwr.step = .e5 then { d with pwr := { d.pwr with wakeAtE5 := some (d.pwr.wakeAtE5.getD w) } }
    else ({ d with pwr := { d.pwr with abort := true } }).wakeRecord w true
  else if d.pwrState = 3 then
    (({ d with pwr := { d.pwr with exitAt := d.tim.tide } }).wakeRecord w false).wr F.PWR_STAT_STATE 4
  else d

/-- PWR_CMD_RESULT is written (R608). -/
def Dev.pwrResult (r : Nat) (d : Dev) : Dev := (d.wr F.PWR_CMD_RESULT_RESULT r).event 1 0

/-- What GO of PWR_CMD does (R561, R562, R566): 1 IDLE, 2 MOOR, 3 WAKE; `owned` says that the master may write RWO
fields of the page. -/
def Dev.pwrCmd (m : Master) (v op : Nat) (owned : Bool) (d : Dev) : Dev :=
  match op with
  | 1 =>
    if !owned then d
    else if d.awake then ({ d with pwr := { d.pwr with idleReq := 0xFF } }).pwrResult rDone
    else d.pwrResult rBadState
  | 2 =>
    if m ≠ .host ∨ d.rdp F.BLK_OWNER_OWNER 1 ≠ 1 then d.dropWrite m 1 0x10C v 1
    else if !d.awake ∨ (d.rd F.BULK_CFG_INTERLEAVE = 0 ∧ d.rd F.PWR_RETAIN_DEV ≠ 0 ∧ d.rd F.PWR_RETAIN_DEV ≠ 0xFFF) then
      d.pwrResult rBadState
    else
      let d := { d with pwr := { d.pwr with
        step := .e1, stepAt := d.tim.tide, abort := false, wakeAtE5 := none, wakeOpen := true } }
      (((d.wr F.PWR_STAT_STATE 2).count 1 0 1).wr F.PWR_CMD_RESULT_STATUS 0).pwrResult rDone
  | 3 =>
    if m ≠ .mgmt then d.dropWrite m 1 0x10C v 1
    else if d.pwrState = 2 ∨ d.pwrState = 3 then (d.wake 3 0x3F 0).pwrResult rDone
    else d.pwrResult rNoChange
  | _ => d

/-- A wake source of R566 that PWR_WAKE_EN enables is seen. -/
def Dev.wakeSource (k : WakeKind) (d : Dev) : Dev :=
  match k with
  | .lane p l => if d.rd F.PWR_WAKE_EN_LANE = 1 ∧ p < 28 ∧ bit d.pwr.armed p then d.wake 1 p l else d
  | .pcie => if d.rd F.PWR_WAKE_EN_PCIE = 1 then d.wake 2 28 0 else d

/-! ### The commands -/

/-- VDD_CORE_CHANGE (R47). -/
def execVddCoreChange (mv : Nat) (s : State) : Host.Outcome State Fault Refusal :=
  onDev (Dev.ifMonitored (Dev.railMoves mv)) s

/-- VCORE_LOW (R49). -/
def execVcoreLow (mv : Nat) (s : State) : Host.Outcome State Fault Refusal := onDev (Dev.ifMonitored (Dev.vcoreLow mv)) s

/-- CORE_UV (R49). -/
def execCoreUv (s : State) : Host.Outcome State Fault Refusal := onDev (Dev.ifPowered Dev.coreUv) s

/-- LIMIT_STROBE (R568). -/
def execLimitStrobe (code : Fin 64) (s : State) : Host.Outcome State Fault Refusal :=
  onDev (Dev.ifPowered (Dev.limitStrobe code)) s

/-- VSET_REACHED (R571). -/
def execVsetReached (s : State) : Host.Outcome State Fault Refusal := onDev (Dev.ifPowered Dev.vsetReached) s

/-- THERMAL_READING (R575). -/
def execThermalReading (tj : Nat) (s : State) : Host.Outcome State Fault Refusal :=
  onDev (Dev.ifPowered (Dev.thermalReading tj)) s

/-- BRAKE_ASSERT (R574). -/
def execBrakeAssert (s : State) : Host.Outcome State Fault Refusal := onDev (Dev.ifPowered Dev.brakeAssert) s

/-- TELEMETRY_WINDOW_END (R576). -/
def execTelemetryWindowEnd (watts : Nat) (s : State) : Host.Outcome State Fault Refusal :=
  onDev (Dev.ifPowered (Dev.windowEnd watts)) s

/-- PWR_ENERGY_LO_READ (R577). -/
def execPwrEnergyLoRead (m : Master) (mj : Nat) (s : State) : Host.Outcome State Fault Refusal :=
  onDev (Dev.ifPowered (Dev.energyRead m mj)) s

/-- WAKE_SOURCE (R566). -/
def execWakeSource (k : WakeKind) (s : State) : Host.Outcome State Fault Refusal :=
  onDev (Dev.ifPowered (Dev.wakeSource k)) s

end Sys2Proof.Machine
end

