-- ==== Sys2Proof/Machine/Security.lean ====
section
/-!
DEFINITION. Keys and attestation (R518, R519, R530–R537): the key slots, KEY_LOAD, SVN_COMMIT, and the SPDM responder.
What the cryptography itself answers (signatures, certificates, digests) are free values.
-/
namespace Sys2Proof.Machine

/-- The verified image runs: the boot stage is past IMAGE and the core is not held for want of an image (R531, R586). -/
def Dev.firmware (d : Dev) : Bool :=
  !d.glb.off && d.glb.hold != .boot && decide (1 < d.rd F.GLB_BOOT_STAT_STAGE) && d.rd F.GLB_BOOT_STAT_STAGE != 7

/-- `f` while the firmware runs. -/
def Dev.ifFirmware (f : Dev → Dev) (d : Dev) : Dev := if d.firmware then f d else d

/-- The STAGED slot zeroised (R518). -/
def Dev.clearStaged (d : Dev) : Dev :=
  (({ d with sec := { d.sec with staged := none } }).wr F.SEC_STAGED_ID_STAGED_ID 0).wr F.SEC_TENANT_STAGED 0

/-- The ACTIVE slot zeroised (R518). -/
def Dev.clearActive (d : Dev) : Dev := ({ d with sec := { d.sec with active := none } }).wr F.SEC_KEY_ID_ACTIVE_ID 0

/-- The SHA-384 of the key authority root (R519), word 0 least significant. -/
def Dev.kaRoot (d : Dev) : Nat :=
  ((List.range 12).map (fun i => d.rdi F.SEC_KA_ROOT_DIGEST i * 2 ^ (32 * i))).sum

/-- A KEY_LOAD that meets R519: inside an established session with mutual authentication whose chain ends in the key
authority root, the key unwraps and its two halves differ. -/
def Dev.keyLoadOk (d : Dev) (k : KeyLoadMsg) : Bool :=
  match k.session with
  | none => false
  | some n =>
    match d.sec.sessions.find? (fun x => x.id == n) with
    | none => false
    | some x => x.established && x.mutualAuth && d.kaRoot != 0 && x.rootDigest == d.kaRoot && k.unwraps
        && bits k.key 0 256 != bits k.key 256 256

/-- The transport of the session a KEY_LOAD came in. -/
def Dev.sessionMctp (d : Dev) (n : Option Nat) : Bool :=
  ((d.sec.sessions.find? (fun x => some x.id == n)).map (·.mctp)).getD false

/-- KEY_LOAD (R519). -/
def Dev.keyLoad (k : KeyLoadMsg) (d : Dev) : Dev :=
  if d.keyLoadOk k then
    (((({ d with sec := { d.sec with staged := some (k.key % 2 ^ 512) } }).wr F.SEC_STAGED_ID_STAGED_ID k.keyId).wr
      F.SEC_TENANT_STAGED 1).count 3 0 1).emit (.spdm (d.sessionMctp k.session) "VENDOR_DEFINED_RESPONSE" [k.keyId])
  else (d.count 3 1 1).emit (.spdm (d.sessionMctp k.session) "ERROR" [])

/-- STAGED_CLEAR (R519): its result, and the state after. -/
def Dev.stagedClear (d : Dev) : Nat × Dev :=
  (if d.sec.staged.isSome then rDone else rNoChange, d.clearStaged)

/-- SVN_COMMIT (R532): the fuse floor rises to the running image's SVN and never falls. -/
def Dev.svnCommit (d : Dev) : Nat × Dev :=
  let svn := d.rd F.SEC_BOOT_STAT_SVN
  if d.glb.fuseFloor < svn then
    (rDone, ({ d with glb := { d.glb with fuseFloor := svn } }).wr F.SEC_SVN_FLOOR_FLOOR svn)
  else (rNoChange, d)

/-! ### SPDM (R534, R535) -/

def Dev.spdmError (mctp : Bool) (d : Dev) : Dev := d.emit (.spdm mctp "ERROR" [])

/-- An answer signed with the alias key (R533, R535). -/
def Dev.spdmSigned (mctp : Bool) (name : String) (args : List Nat) (d : Dev) : Dev :=
  match d.sec.aliasKey with
  | none => d.spdmError mctp
  | some k =>
    let r := d.draw
    r.2.emit (.spdm mctp name (args ++ [Config.signature k r.1 args]))

/-- GET_VERSION: versions 1.2 and 1.3; the connection starts afresh. -/
def Dev.getVersion (mctp : Bool) (d : Dev) : Dev :=
  ({ d with sec := { d.sec with spdmVersion := 0, spdmCaps := false, spdmAlgs := false } }).emit
    (.spdm mctp "VERSION" [0x12, 0x13])

/-- GET_CAPABILITIES at version 1.2 or 1.3. -/
def Dev.getCapabilities (mctp : Bool) (version : Nat) (d : Dev) : Dev :=
  if version = 0x12 ∨ version = 0x13 then
    ({ d with sec := { d.sec with spdmVersion := version, spdmCaps := true } }).emit (.spdm mctp "CAPABILITIES" [version])
  else d.spdmError mctp

/-- NEGOTIATE_ALGORITHMS: bit 0 of `offered` says that the suite of R534 is among those offered. -/
def Dev.negotiate (mctp : Bool) (offered : Nat) (d : Dev) : Dev :=
  if d.sec.spdmCaps ∧ bit offered 0 then
    ({ d with sec := { d.sec with spdmAlgs := true } }).emit (.spdm mctp "ALGORITHMS" [1])
  else d.spdmError mctp

/-- A request that needs the negotiation done. -/
def Dev.negotiated (mctp : Bool) (f : Dev → Dev) (d : Dev) : Dev := if d.sec.spdmAlgs then f d else d.spdmError mctp

/-- GET_DIGESTS: of the chain in slot 0 (R534). -/
def Dev.getDigests (mctp : Bool) (d : Dev) : Dev := d.emit (.spdm mctp "DIGESTS" [1, Config.certDigest d.sec.aliasCert])

/-- GET_CERTIFICATE: slot 0 holds the chain; another slot is an error (R534). -/
def Dev.getCertificate (mctp : Bool) (slot off len : Nat) (d : Dev) : Dev :=
  if slot = 0 then d.emit (.spdm mctp "CERTIFICATE" [off, len, Config.certChain d.sec.aliasCert off len]) else d.spdmError mctp

/-- CHALLENGE: signed with the alias key (R533, R534). -/
def Dev.challenge (mctp : Bool) (slot nonce : Nat) (d : Dev) : Dev :=
  if slot = 0 then d.spdmSigned mctp "CHALLENGE_AUTH" [nonce] else d.spdmError mctp

/-- The content of a measurement block (R535): 1 and 2 are digests, 3 to 6 raw. -/
def Dev.measurement (d : Dev) (i : Nat) : Option (List Nat) :=
  match i with
  | 1 => some [Config.romDigest]
  | 2 => some [d.sec.imageDigest]
  | 3 => some [d.rd F.SEC_BOOT_STAT_SVN, d.glb.fuseFloor]
  | 4 => some [d.rd F.SEC_BOOT_STAT_DEBUG_UNLOCKED, d.rd F.SEC_BOOT_STAT_KEY_INDEX, b2n d.sec.secondary]
  | 5 => some [d.glb.straps.1, d.glb.straps.2]
  | 6 => some [d.tenancy, d.ticket, d.rd F.SEC_KEY_ID_ACTIVE_ID]
  | _ => none

/-- GET_MEASUREMENTS (R535): signed with the ALIAS key. -/
def Dev.getMeasurements (mctp : Bool) (index nonce : Nat) (d : Dev) : Dev :=
  match d.measurement index with
  | some l => d.spdmSigned mctp "MEASUREMENTS" (index :: l ++ [nonce])
  | none => d.spdmError mctp

/-- KEY_EXCHANGE: at most two sessions across both transports (R534). This side's share is drawn. -/
def Dev.keyExchange (mctp : Bool) (share root : Nat) (mutualAuth good : Bool) (d : Dev) : Dev :=
  if good ∧ d.sec.sessions.length < 2 then
    let n := d.sec.nextSession
    let d := { d with sec := { d.sec with
      sessions := d.sec.sessions ++ [Session.mk n mctp false mutualAuth root 0], nextSession := n + 1 } }
    let r := d.draw
    r.2.spdmSigned mctp "KEY_EXCHANGE_RSP" [n, share, r.1]
  else d.spdmError mctp

/-- `f` on an open session, else an error. -/
def Dev.onSession (n : Nat) (needs : Bool) (f : Session → Dev → Dev) (d : Dev) : Dev :=
  match d.sec.sessions.find? (fun x => x.id == n) with
  | none => d.spdmError false
  | some x => if needs && !x.established then d.spdmError x.mctp else f x d

def Dev.setSession (n : Nat) (f : Session → Session) (d : Dev) : Dev :=
  { d with sec := { d.sec with sessions := mapFirst (fun x => x.id == n) f d.sec.sessions } }

def Dev.dropSession (n : Nat) (d : Dev) : Dev :=
  { d with sec := { d.sec with sessions := d.sec.sessions.filter (fun x => x.id != n) } }

/-- FINISH: the handshake ends; a bad one ends the session. -/
def Dev.finish (n : Nat) (good : Bool) (d : Dev) : Dev :=
  d.onSession n false (fun x d =>
    if good then (d.setSession n (fun x => { x with established := true })).emit (.spdm x.mctp "FINISH_RSP" [n])
    else (d.dropSession n).spdmError x.mctp)

/-! ### The commands -/

/-- KEY_LOAD (R519). -/
def execKeyLoad (k : KeyLoadMsg) (s : State) : Host.Outcome State Fault Refusal :=
  onDev (Dev.ifFirmware (Dev.keyLoad k)) s

/-- GET_VERSION (R534). -/
def execGetVersion (mctp : Bool) (s : State) : Host.Outcome State Fault Refusal :=
  onDev (Dev.ifFirmware (Dev.getVersion mctp)) s

/-- GET_CAPABILITIES (R534). -/
def execGetCapabilities (mctp : Bool) (version : Nat) (s : State) : Host.Outcome State Fault Refusal :=
  onDev (Dev.ifFirmware (Dev.getCapabilities mctp version)) s

/-- NEGOTIATE_ALGORITHMS (R534). -/
def execNegotiateAlgorithms (mctp : Bool) (offered : Nat) (s : State) : Host.Outcome State Fault Refusal :=
  onDev (Dev.ifFirmware (Dev.negotiate mctp offered)) s

/-- GET_DIGESTS (R534): slot 0. -/
def execGetDigests (mctp : Bool) (s : State) : Host.Outcome State Fault Refusal :=
  onDev (Dev.ifFirmware (Dev.negotiated mctp (Dev.getDigests mctp))) s

/-- GET_CERTIFICATE (R534): slot 0 holds the chain; another slot is an error. -/
def execGetCertificate (mctp : Bool) (slot off len : Nat) (s : State) : Host.Outcome State Fault Refusal :=
  onDev (Dev.ifFirmware (Dev.negotiated mctp (Dev.getCertificate mctp slot off len))) s

/-- CHALLENGE (R534). -/
def execChallenge (mctp : Bool) (slot nonce : Nat) (s : State) : Host.Outcome State Fault Refusal :=
  onDev (Dev.ifFirmware (Dev.negotiated mctp (Dev.challenge mctp slot nonce))) s

/-- GET_MEASUREMENTS (R535). -/
def execGetMeasurements (mctp : Bool) (index nonce : Nat) (s : State) : Host.Outcome State Fault Refusal :=
  onDev (Dev.ifFirmware (Dev.negotiated mctp (Dev.getMeasurements mctp index nonce))) s

/-- KEY_EXCHANGE (R534). -/
def execKeyExchange (mctp : Bool) (share rootDigest : Nat) (mutualAuth good : Bool) (s : State) :
    Host.Outcome State Fault Refusal :=
  onDev (Dev.ifFirmware (Dev.negotiated mctp (Dev.keyExchange mctp share rootDigest mutualAuth good))) s

/-- FINISH (R534). -/
def execFinish (session : Nat) (good : Bool) (s : State) : Host.Outcome State Fault Refusal :=
  onDev (Dev.ifFirmware (Dev.finish session good)) s

/-- HEARTBEAT (R534). -/
def execHeartbeat (session : Nat) (s : State) : Host.Outcome State Fault Refusal :=
  onDev (Dev.ifFirmware (Dev.onSession session true (fun x d => d.emit (.spdm x.mctp "HEARTBEAT_ACK" [session])))) s

/-- KEY_UPDATE (R534). -/
def execKeyUpdate (session : Nat) (s : State) : Host.Outcome State Fault Refusal :=
  onDev (Dev.ifFirmware (Dev.onSession session true (fun x d =>
    (d.setSession session (fun x => { x with keyGen := x.keyGen + 1 })).emit (.spdm x.mctp "KEY_UPDATE_ACK" [session])))) s

/-- END_SESSION (R534). -/
def execEndSession (session : Nat) (s : State) : Host.Outcome State Fault Refusal :=
  onDev (Dev.ifFirmware (Dev.onSession session true (fun x d =>
    (d.dropSession session).emit (.spdm x.mctp "END_SESSION_ACK" [session])))) s

end Sys2Proof.Machine
end

