-- ==== Sys2Proof/Machine/Boot.lean ====
section
/-!
DEFINITION. Pins, reset, the stages from reset to READY and the domain join (R483, R530, R531, R583–R594).
-/
namespace Sys2Proof.Machine

/-! ### Reset pins (R560, R583, R585, R593, R594) -/

/-- What outlives RESET_N: fuses (R583), the levels of pins, what has left the package, and the model's counters of
draws. `aon` says whether VDD_AON is present. -/
def Dev.afterReset (aon : Bool) (d : Dev) : Dev :=
  let e : Dev := { out := d.out, freeCtr := d.freeCtr, sec := { metaGen := d.sec.metaGen } }
  let e := { e with glb := { e.glb with
    off := true, vddAon := aon, fuseFloor := d.glb.fuseFloor, fuseRevoked := d.glb.fuseRevoked, vddMv := d.glb.vddMv,
    hold := if aon ∧ d.glb.hold = Hold.coreUv then Hold.coreUv else .none, transmitters := false } }
  let e := (e.wr F.GLB_PIN_STAT_PERST (d.rd F.GLB_PIN_STAT_PERST)).wr F.GLB_PIN_STAT_PWRFAIL (d.rd F.GLB_PIN_STAT_PWRFAIL)
  let e := e.wr F.PWR_STAT_BRAKE (d.rd F.PWR_STAT_BRAKE)
  (e.wr F.SEC_SVN_FLOOR_FLOOR e.glb.fuseFloor).wr F.SEC_SVN_FLOOR_REVOKED e.glb.fuseRevoked

/-- RESET_N goes low (R560, R583): OFF, every register lost, transmitters high-impedance. EOFF_N holds above it
(R593). -/
def Dev.resetAssert (d : Dev) : Dev :=
  if d.glb.hold = Hold.eoff then d else (d.afterReset d.glb.vddAon).emit (.pin "TX_HIGHZ" 1)

/-- RESET_N is released (R583, R585, R186): the straps are sampled, the metadata key is drawn, start-up begins. The monitor goes on
with the rail as it stands; a core that CORE_UV held stays held unless the rail is back in range (R49). -/
def Dev.resetRelease (tray slot : Nat) (d : Dev) : Dev :=
  if d.glb.off ∧ d.glb.hold ≠ Hold.eoff then
    let held := d.glb.hold = Hold.coreUv ∧ d.glb.vddMv < 600
    let d := { d with
      glb := { d.glb with off := false, vddAon := true, straps := (tray % 64, slot % 2), transmitters := !decide held
                          hold := if held then Hold.coreUv else .none
                          uvSince := if d.glb.vddMv < 550 then some 0 else none }
      sec := { d.sec with metaGen := d.sec.metaGen + 1 } }
    let d := d.wr F.BLK_STAT_BLOCK d.railLow
    ((d.wr F.GLB_STRAP_TRAY tray).wr F.GLB_STRAP_SLOT slot).wr F.MGMT_SMB_ADDR (0x60 + slot % 2)
  else d

/-- EOFF_N low for `ns` (R593): 50 ns or longer is an assertion. Nothing but the loss of VDD_AON releases it. -/
def Dev.eoff (ns : Nat) (d : Dev) : Dev :=
  if 50 ≤ ns ∧ d.glb.vddAon ∧ d.glb.hold ≠ Hold.eoff then
    let d := ((d.fatalTime).wr F.ERR_FATAL_EOFF 1).wr F.GLB_PIN_STAT_EOFF 1
    ({ d with glb := { d.glb with hold := .eoff } }).txIdle
  else d

/-- PWRFAIL_N moves (R594): the fall is recorded and captured, and changes nothing else. -/
def Dev.pwrfail (low : Bool) (d : Dev) : Dev :=
  if !low then d.wr F.GLB_PIN_STAT_PWRFAIL 0
  else if d.rd F.GLB_PIN_STAT_PWRFAIL = 1 then d
  else (((d.wr F.GLB_PIN_STAT_PWRFAIL 1).wr F.GLB_PIN_STAT_PWRFAIL_SEEN 1).event 0 0).capture 0 .degraded 0 0x10 0x3F 0

/-! ### From reset to READY (R530, R531, R586–R588) -/

/-- Whether the ROM accepts an image (R530). -/
def Dev.imageOk (d : Dev) (i : ImageCheck) : Bool :=
  i.magic == 0x4B44594E && i.keyHashMatches && !bit d.glb.fuseRevoked i.keyIndex && decide (d.glb.fuseFloor ≤ i.svn)
    && i.signatureVerifies

/-- The identity key, which the ROM alone can use until it locks it (R533). -/
def Dev.identityKey (d : Dev) : Option Nat := if d.sec.identityLocked then none else some (Config.identityKey Config.deviceSecret)

/-- The ROM derives the alias key from the identity secret and the verified image, signs its certificate, and locks the identity key
(R533). -/
def Dev.deriveAlias (i : ImageCheck) (d : Dev) : Dev :=
  match d.identityKey with
  | none => d
  | some k =>
    let a := Config.aliasKey k i.digest i.svn
    let r := d.draw
    { r.2 with sec := { r.2.sec with aliasKey := some a, aliasCert := Config.signature k r.1 [a], identityLocked := true } }

/-- The verified image runs (R531, R533, R614). -/
def Dev.runImage (i : ImageCheck) (which : Nat) (d : Dev) : Dev :=
  let d := d.deriveAlias i
  let d := { d with sec := { d.sec with imageVersion := i.version, imageDigest := i.digest, secondary := which == 2 } }
  let d := ((d.wr F.SEC_BOOT_STAT_IMAGE which).wr F.SEC_BOOT_STAT_KEY_INDEX i.keyIndex).wr F.SEC_BOOT_STAT_SVN i.svn
  let d := ((d.wr F.MGMT_FW_VERSION_PATCH i.version).wr F.MGMT_FW_VERSION_MINOR (i.version / 256)).wr
    F.MGMT_FW_VERSION_MAJOR (i.version / 65536)
  d.wr F.GLB_BOOT_STAT_STAGE 2

/-- IMAGE (R530, R531): the primary, else the secondary; with neither, ports stay DOWN and PCI Express in reset. -/
def Dev.bootImage (p s : ImageCheck) (d : Dev) : Dev :=
  if d.imageOk p then d.runImage p 1
  else if d.imageOk s then d.runImage s 2
  else ({ d with glb := { d.glb with hold := .boot } }).wr F.SEC_BOOT_STAT_IMAGE 3

/-- A stage fails (R588): STAGE reads FAILED, and the package stops. -/
def Dev.bootFail (page code detail : Nat) (d : Dev) : Dev := (d.wr F.GLB_BOOT_STAT_STAGE 7).failStop page code detail

/-- READY (R586): the time is recorded and enabled ports enter DETECT. -/
def Dev.ready (d : Dev) : Dev :=
  let d := (d.wr F.GLB_BOOT_STAT_STAGE 4).wr F.GLB_BOOT_STAT_READY_MS (d.ns / 1000000)
  (List.range 28).foldl (fun d p => d.tryDetect p) d

/-- The work of the present boot stage ends (R586, R588); MEMINIT leaves every line zero, and near extent 0 at its
reset values under the metadata key. -/
def bootStage (w : BootWork) (x : Store × Dev) : Store × Dev :=
  let d := x.2
  match d.rd F.GLB_BOOT_STAT_STAGE, w with
  | 0, .done => (x.1, d.wr F.GLB_BOOT_STAT_STAGE 1)
  | 0, .repairFailed g b => (x.1, d.bootFail 0x29 0x10 (g % 4 + (b % 64) * 4))
  | 1, .images p s => (x.1, d.bootImage p s)
  | 2, .done => (x.1, d.wr F.GLB_BOOT_STAT_STAGE 3)
  | 2, .trainFailed dev st => (x.1, d.bootFail 0x2A 0x10 (dev % 16 + (st % 16) * 16))
  | 3, .done => ({}, d.ready)
  | 3, .initFailed near gpa => (x.1, d.bootFail (if near then 0x29 else 0x2A) 0x06 gpa)
  | _, _ => x

/-- Loss of VDD_AON (R560): everything but the fuses is lost, memory too. -/
def vddAonLoss (x : Store × Dev) : Store × Dev :=
  ({}, (x.2.afterReset false).emit (.pin "TX_HIGHZ" 1))

/-! ### Domain join (R590–R592) -/

/-- The values in GLB_JOIN (R600). -/
def Dev.joinVals (d : Dev) : JoinVals :=
  ⟨2 ^ (d.rd F.GLB_JOIN_XCODE + 1), d.rd F.GLB_JOIN_Y, d.rd F.GLB_JOIN_X_POS, d.rd F.GLB_JOIN_Y_POS, d.rd F.GLB_JOIN_NODE⟩

/-- Whether the values of a join are in order (R590). -/
def Dev.joinOk (d : Dev) (j : JoinVals) : Bool :=
  decide (j.x < j.xDim) && decide (j.y < j.yDim) && j.node == j.xDim * j.y + j.x && j.x % 2 == d.rd F.GLB_STRAP_SLOT
    && decide (1 ≤ j.yDim) && decide (j.yDim ≤ 16) && decide (j.xDim ≤ 8)

/-- Domain join (R590, R591): what GO of GLB_JOIN_CMD does. -/
def Dev.joinCmd (d : Dev) : Dev :=
  let j := d.joinVals
  if d.glb.join = some j then d.wr F.GLB_JOIN_STAT_RESULT rNoChange
  else if d.glb.join.isSome ∨ d.stage ≠ 0 ∨ !d.booted ∨ !d.joinOk j then d.wr F.GLB_JOIN_STAT_RESULT rBadState
  else
    let d := { d with
      glb := { d.glb with join := some j }
      src := { d.src with mani := [], win := [], winDec := [], winInit := d.rd F.CNG_WIN_MAX * 1024 } }
    let d := (d.wr F.GLB_JOIN_STAT_RESULT rDone).wr F.GLB_JOIN_STAT_JOINED 1
    let d := d.wr F.SWC_CFG_BUFMODE (b2n (decide (32 < j.xDim * j.yDim)))
    (List.range 24).foldl (fun d p => if d.linkState p = 5 then d.sendParam p else d) d

/-- JOINING becomes TRAINED (R502, R592): join accepted, a fabric port UP, TIME_STAT.STATE LOCKED or ROOT. -/
def Dev.trainedReached (d : Dev) : Dev :=
  if d.stage = 0 ∧ d.glb.join.isSome ∧ (List.range 24).any (fun p => d.linkState p == 5)
      ∧ (d.timeState = 2 ∨ d.timeState = 4) then d.wr F.RCV_SLIPWAY_STAGE 1
  else d

/-! ### The commands -/

/-- RESET_N_ASSERT (R583). -/
def execResetNAssert (s : State) : Host.Outcome State Fault Refusal := onDev Dev.resetAssert s

/-- RESET_N_RELEASE (R583, R585). -/
def execResetNRelease (tray slot : Nat) (s : State) : Host.Outcome State Fault Refusal :=
  onDev (Dev.resetRelease tray slot) s

/-- VDD_AON_LOSS (R560). -/
def execVddAonLoss (s : State) : Host.Outcome State Fault Refusal := onAll vddAonLoss s

/-- EOFF_N (R593). -/
def execEoffN (ns : Nat) (s : State) : Host.Outcome State Fault Refusal := onDev (Dev.eoff ns) s

/-- PWRFAIL_N (R594). -/
def execPwrfailN (low : Bool) (s : State) : Host.Outcome State Fault Refusal := onDev (Dev.ifPowered (Dev.pwrfail low)) s

/-- BOOT_STAGE_COMPLETE (R586). -/
def execBootStageComplete (w : BootWork) (s : State) : Host.Outcome State Fault Refusal :=
  onAll (fun x => if x.2.running then bootStage w x else x) s

/-- TRAINED_REACHED (R592). -/
def execTrainedReached (s : State) : Host.Outcome State Fault Refusal := onDev (Dev.ifRuns Dev.trainedReached) s

/-- FATAL_ERROR (R482, R483). -/
def execFatalError (page code : Nat) (s : State) : Host.Outcome State Fault Refusal :=
  onDev (Dev.ifRuns (fun d => d.failStop page code 0)) s

end Sys2Proof.Machine
end

