-- ==== Sys2Proof/Machine/Aes.lean ====
section
/-!
DEFINITION. AES-256-XTS of one 64-byte data unit as IEEE 1619 defines it, which R184 names: AES-256 (FIPS 197) on 16-byte blocks, tweaked
by the encrypted data unit number and its multiples by α. Bytes are numbers below 256.
-/
namespace Sys2Proof.Machine.Aes

/-- The S-box and its inverse, entry `b` in bits [8b + 7:8b]. -/
def sboxWord : Nat := 0x16bb54b00f2d99416842e6bf0d89a18cdf2855cee9871e9b948ed9691198f8e19e1dc186b95735610ef6034866b53e708a8bbd4b1f74dde8c6b4a61c2e2578ba08ae7a65eaf4566ca94ed58d6d37c8e779e4959162acd3c25c2406490a3a32e0db0b5ede14b8ee4688902a22dc4f816073195d643d7ea7c41744975fec130ccdd2f3ff1021dab6bcf5389d928f40a351a89f3c507f02f94585334d43fbaaefd0cf584c4a39becb6a5bb1fc20ed00d153842fe329b3d63b52a05a6e1b1a2c830975b227ebe28012079a059618c323c7041531d871f1e5a534ccf73f362693fdb7c072a49cafa2d4adf04759fa7dc982ca76abd7fe2b670130c56f6bf27b777c63
def invSboxWord : Nat := 0x7d0c2155631469e126d677ba7e042b17619953833cbbebc8b0f52aae4d3be0a0ef9cc9939f7ae52d0d4ab519a97f51605fec8027591012b131c7078833a8dd1ff45acd78fec0db9a2079d2c64b3e56fc1bbe18aa0e62b76f89c5291d711af1476edf751ce837f9e28535ade72274ac9673e6b4f0cecff297eadc674f4111913a6b8a130103bdafc1020f3fca8f1e2cd00645b3b80558e4f70ad3bc8c00abd890849d8da75746155edab9edfd5048706c92b6655dcc5ca4d41698688664f6f87225d18b6d49a25b76b224d92866a12e084ec3fa420b954cee3d23c2a632947b54cbe9dec444438e3487ff2f9b8239e37cfbd7f3819ea340bf38a53630d56a0952

def sbox (b : Nat) : Nat := bits sboxWord (8 * b) 8
def invSbox (b : Nat) : Nat := bits invSboxWord (8 * b) 8

def xor (a b : Nat) : Nat := Nat.xor a b

/-- Multiplication by x in GF(2⁸). -/
def xtime (b : Nat) : Nat := if b < 128 then 2 * b else xor (2 * b) 0x11B

/-- Multiplication of `b` by a constant below 16. -/
def gmul (c b : Nat) : Nat :=
  let b2 := xtime b
  let b4 := xtime b2
  let pick := fun (i v : Nat) => if bit c i then v else 0
  xor (xor (pick 0 b) (pick 1 b2)) (xor (pick 2 b4) (pick 3 (xtime b4)))

def xorAll (a b : List Nat) : List Nat := List.zipWith xor a b

/-- The next word of the AES-256 key schedule; `ws` are the words so far, newest first, `i` its index. -/
def nextWord (ws : List (List Nat)) (i : Nat) : List Nat :=
  let last := nth ws 0 []
  let t := if i % 8 = 0 then
      (xorAll ((last.drop 1 ++ last.take 1).map sbox) [2 ^ (i / 8 - 1), 0, 0, 0])
    else if i % 8 = 4 then last.map sbox else last
  xorAll (nth ws 7 []) t

/-- The fifteen round keys of a 32-byte key. -/
def roundKeys (key : List Nat) : List (List Nat) :=
  let w0 := (List.range 8).map (fun i => (key.drop (4 * i)).take 4)
  let ws := ((List.range 52).foldl (fun ws i => nextWord ws (i + 8) :: ws) w0.reverse).reverse
  (List.range 15).map (fun r => ((ws.drop (4 * r)).take 4).flatten)

/-- ShiftRows reads byte 5i mod 16 for byte i, its inverse byte 13i. -/
def permute (k : Nat) (s : List Nat) : List Nat := (List.range 16).map (fun i => nth s (k * i % 16) 0)

/-- MixColumns with the row of coefficients `m`. -/
def mix (m : List Nat) (s : List Nat) : List Nat :=
  (List.range 16).map (fun i => (List.range 4).foldl (fun a j => xor a (gmul (nth m ((j + 4 - i % 4) % 4) 0) (nth s (i / 4 * 4 + j) 0))) 0)

/-- One block under the round keys `ks`. -/
def encBlock (ks : List (List Nat)) (p : List Nat) : List Nat :=
  let s := (List.range 13).foldl (fun s r => xorAll (mix [2, 3, 1, 1] (permute 5 (s.map sbox))) (nth ks (r + 1) [])) (xorAll p (nth ks 0 []))
  xorAll (permute 5 (s.map sbox)) (nth ks 14 [])

/-- Its inverse. -/
def decBlock (ks : List (List Nat)) (c : List Nat) : List Nat :=
  let s := (List.range 13).foldl (fun s r => mix [14, 11, 13, 9] (xorAll ((permute 13 s).map invSbox) (nth ks (13 - r) [])))
    (xorAll c (nth ks 14 []))
  xorAll ((permute 13 s).map invSbox) (nth ks 0 [])

/-- Little-endian bytes of a number, and back. -/
def toBytes (n v : Nat) : List Nat := (List.range n).map (fun i => v / 2 ^ (8 * i) % 256)
def ofBytes (l : List Nat) : Nat := l.foldr (fun b a => b + 256 * a) 0

/-- The tweak times α. -/
def timesAlpha (t : Nat) : Nat := if t < 2 ^ 127 then 2 * t else xor (2 * t - 2 ^ 128) 0x87

/-- The four blocks of a data unit: `f` is the block cipher under Key1, Key2 encrypts the data unit number. -/
def xts (f : List (List Nat) → List Nat → List Nat) (key : List Nat) (unit : Nat) (v : List Nat) : List Nat :=
  let k1 := roundKeys (key.take 32)
  let t0 := ofBytes (encBlock (roundKeys ((key.drop 32).take 32)) (toBytes 16 unit))
  ((List.range 4).foldl (fun (a : List Nat × Nat) j =>
    let t := toBytes 16 a.2
    (a.1 ++ xorAll (f k1 (xorAll ((v.drop (16 * j)).take 16) t)) t, timesAlpha a.2)) ([], t0)).1

end Sys2Proof.Machine.Aes
end

