-- ==== Sys2Proof/Machine/Arith.lean ====
section
/-!
DEFINITION. Number formats and arithmetic (R231–R255): the eleven element formats, exact values, rounding, conversion,
MX blocks, the FP32 and INT32 accumulators and the reduce-write.
-/
namespace Sys2Proof.Machine

/-! ### Formats and format words (R231, R235, R237) -/

/-- A floating-point format: mantissa bits, bias, magnitude code of the largest finite value, and whether it holds
infinities and NaN (R231, R235). -/
structure FloatFmt where
  bitsOf : Nat
  mant : Nat
  bias : Nat
  maxCode : Nat
  hasInf : Bool
  hasNaN : Bool
  nan : Nat
  deriving DecidableEq, Repr

/-- What a format code names: a float format, an integer of a width, or a reserved code (R231). -/
inductive FmtKind where
  | flt (f : FloatFmt)
  | int (w : Nat)
  | reserved
  deriving DecidableEq, Repr

/-- The formats by code (R231, R235). -/
def fmtOf : Nat → FmtKind
  | 0x0 => .flt ⟨32, 23, 127, 0x7F7FFFFF, true, true, 0x7FC00000⟩
  | 0x1 => .flt ⟨16, 7, 127, 0x7F7F, true, true, 0x7FC0⟩
  | 0x2 => .flt ⟨16, 10, 15, 0x7BFF, true, true, 0x7E00⟩
  | 0x3 => .flt ⟨8, 2, 15, 0x7B, true, true, 0x7E⟩
  | 0x4 => .flt ⟨8, 3, 7, 0x7E, false, true, 0x7F⟩
  | 0x5 => .flt ⟨6, 2, 3, 0x1F, false, false, 0⟩
  | 0x6 => .flt ⟨6, 3, 1, 0x1F, false, false, 0⟩
  | 0x7 => .flt ⟨4, 1, 1, 0x7, false, false, 0⟩
  | 0x8 => .int 32
  | 0x9 => .int 8
  | 0xA => .int 4
  | _ => .reserved

/-- A format word (R237). -/
structure FmtWord where
  fmt : Nat
  mx : Bool
  stoch : Bool
  sat : Bool
  deriving DecidableEq, Repr

/-- The fields of a format word (R237). -/
def fmtWord (n : Nat) : FmtWord := ⟨n % 16, bit n 4, bit n 5, bit n 6⟩

/-- A format word that is no reserved encoding (R237). -/
def fmtWordOk (n : Nat) : Bool :=
  decide (n % 16 ≤ 0xA) && !bit n 7 && (!bit n 4 || (decide (3 ≤ n % 16) && decide (n % 16 ≤ 7)) || n % 16 == 9)

/-- Element width in bits of a format code. -/
def fmtBits (c : Nat) : Nat :=
  match fmtOf c with
  | .flt f => f.bitsOf
  | .int w => w
  | .reserved => 8

/-- Whether a format code is floating point. -/
def fmtIsFloat (c : Nat) : Bool :=
  match fmtOf c with
  | .flt _ => true
  | _ => false

/-- The FP32 format. -/
def fp32 : FloatFmt := ⟨32, 23, 127, 0x7F7FFFFF, true, true, 0x7FC00000⟩

/-! ### Exact values -/

/-- The value of an element of a float format (R232, R235). -/
def FloatFmt.value (f : FloatFmt) (n : Nat) : XVal :=
  let c := n % 2 ^ (f.bitsOf - 1)
  let neg := bit n (f.bitsOf - 1)
  if c ≤ f.maxCode then
    let e := c / 2 ^ f.mant
    let m := c % 2 ^ f.mant
    if e = 0 then .fin neg m (1 - (f.bias : Int) - f.mant)
    else .fin neg (2 ^ f.mant + m) ((e : Int) - f.bias - f.mant)
  else if f.hasInf && c == f.maxCode + 1 then .inf neg
  else .nan

/-- The value of an element of an integer format. -/
def intValue (w n : Nat) : XVal :=
  let i := toSigned w n
  .fin (decide (i < 0)) i.natAbs 0

/-- The exact value of element bits `n` in format code `c` (R241). -/
def elemValue (c n : Nat) : XVal :=
  match fmtOf c with
  | .flt f => f.value n
  | .int w => intValue w n
  | .reserved => .nan

/-- The element value of an MX element before scaling: MX INT8 counts in 2⁻⁶ (R238). -/
def mxElemValue (c n : Nat) : XVal :=
  match elemValue c n with
  | .fin neg m e => .fin neg m (if c = 9 then e - 6 else e)
  | v => v

/-- `v` times 2^k. -/
def XVal.scale (v : XVal) (k : Int) : XVal :=
  match v with
  | .fin neg m e => .fin neg m (e + k)
  | v => v

/-- An MX element under its scale byte (R238). -/
def mxValue (c scale n : Nat) : XVal :=
  if scale = 0xFF then .nan else (mxElemValue c n).scale ((scale : Int) - 127)

def XVal.isNaN : XVal → Bool
  | .nan => true
  | _ => false

def XVal.isZero : XVal → Bool
  | .fin _ 0 _ => true
  | _ => false

/-- The value with its sign turned. -/
def XVal.negate : XVal → XVal
  | .nan => .nan
  | .inf s => .inf !s
  | .fin s m e => .fin (!s) m e

/-- The signed mantissa of a finite value. -/
def signedMant (neg : Bool) (m : Nat) : Int := if neg then -(m : Int) else m

/-- Exact sum (R249): opposite infinities give NaN; a zero sum is +0 unless both terms are −0. -/
def XVal.add : XVal → XVal → XVal
  | .nan, _ => .nan
  | _, .nan => .nan
  | .inf a, .inf b => if a = b then .inf a else .nan
  | .inf a, .fin .. => .inf a
  | .fin .., .inf b => .inf b
  | .fin s m e, .fin t n f =>
    let g := min e f
    let i := signedMant s (m * 2 ^ (e - g).toNat) + signedMant t (n * 2 ^ (f - g).toNat)
    if i = 0 then .fin (s && t && m == 0 && n == 0) 0 g else .fin (decide (i < 0)) i.natAbs g

/-- Exact product: zero times infinity is NaN. -/
def XVal.mul : XVal → XVal → XVal
  | .nan, _ => .nan
  | _, .nan => .nan
  | .inf a, .inf b => .inf (a != b)
  | .inf a, .fin t n _ => if n = 0 then .nan else .inf (a != t)
  | .fin s m _, .inf b => if m = 0 then .nan else .inf (s != b)
  | .fin s m e, .fin t n f => .fin (s != t) (m * n) (e + f)

/-- `a < b` of two values that are no NaN; the zeros are equal. -/
def XVal.lt : XVal → XVal → Bool
  | .nan, _ => false
  | _, .nan => false
  | .inf a, .inf b => a && !b
  | .inf a, .fin .. => a
  | .fin .., .inf b => !b
  | .fin s m e, .fin t n f =>
    let g := min e f
    decide (signedMant s (m * 2 ^ (e - g).toNat) < signedMant t (n * 2 ^ (f - g).toNat))

/-- |v|. -/
def XVal.abs : XVal → XVal
  | .nan => .nan
  | .inf _ => .inf false
  | .fin _ m e => .fin false m e

/-! ### Events and rounding (R241, R244, R245, R255) -/

/-- The counted events, in counter order (R255). -/
inductive Ev where
  | saturated | infProduced | nanProduced | nanToZero | mxNanBlock | intSat
  deriving DecidableEq, Repr

/-- Place of an event among an engine's counters (R255, R610). -/
def Ev.index : Ev → Nat
  | .saturated => 0
  | .infProduced => 1
  | .nanProduced => 2
  | .nanToZero => 3
  | .mxNanBlock => 4
  | .intSat => 5

/-- A result with the events it caused and the number of free values drawn so far. -/
structure Conv where
  code : Nat
  evs : List Ev
  ctr : Nat
  deriving DecidableEq, Repr

/-- m × 2^e as a whole number of steps of 2^q: rounded to nearest even, or up with the probability of R245 on the
16-bit draw number `ctr`. -/
def roundSteps (stoch : Bool) (ctr m : Nat) (e q : Int) : Nat × Nat :=
  if q ≤ e then (m * 2 ^ (e - q).toNat, ctr)
  else
    let s := (q - e).toNat
    let n := m / 2 ^ s
    let r := m % 2 ^ s
    if r = 0 then (n, ctr)
    else if stoch then
      (if Config.freeNat ctr % 65536 < r * 65536 / 2 ^ s then n + 1 else n, ctr + 1)
    else (if 2 ^ s < 2 * r ∨ (2 * r = 2 ^ s ∧ n % 2 = 1) then n + 1 else n, ctr)

/-- floor(log2 (m × 2^e)) of a value that is not zero. -/
def xlog2 (m : Nat) (e : Int) : Int := (Nat.log2 m : Int) + e

/-- The sign bit of a format. -/
def FloatFmt.signed (f : FloatFmt) (neg : Bool) (c : Nat) : Nat := if neg then c + 2 ^ (f.bitsOf - 1) else c

/-- The magnitude code nearest to m × 2^e, as if the exponent range had no upper limit (R244). -/
def FloatFmt.magCode (f : FloatFmt) (stoch : Bool) (ctr m : Nat) (e : Int) : Nat × Nat :=
  if m = 0 then (0, ctr)
  else
    let emin : Int := 1 - (f.bias : Int)
    let q := max (xlog2 m e) emin - (f.mant : Int)
    let r := roundSteps stoch ctr m e q
    (r.1 + (q - (emin - f.mant)).toNat * 2 ^ f.mant, r.2)

/-- overflow(v, D) of R241. -/
def FloatFmt.overflow (f : FloatFmt) (sat neg : Bool) (ctr : Nat) : Conv :=
  if sat || (!f.hasInf && !f.hasNaN) then ⟨f.signed neg f.maxCode, [.saturated], ctr⟩
  else if f.hasInf then ⟨f.signed neg (f.maxCode + 1), [.infProduced], ctr⟩
  else ⟨f.nan, [.nanProduced], ctr⟩

/-- A value rounded into a float format (R241). DESIGN CHOICE (log entry 58): an infinity is an overflow by R241's procedure, counted or
saturated, into a destination too that holds infinity, where R243 says that no event can occur. -/
def FloatFmt.convert (f : FloatFmt) (stoch sat : Bool) (ctr : Nat) : XVal → Conv
  | .nan => if f.hasNaN then ⟨f.nan, [], ctr⟩ else ⟨0, [.nanToZero], ctr⟩
  | .inf neg => f.overflow sat neg ctr
  | .fin neg m e =>
    let r := f.magCode stoch ctr m e
    if f.maxCode < r.1 then f.overflow sat neg r.2 else ⟨f.signed neg r.1, [], r.2⟩

/-- A value rounded into an integer format of width `w`, clamped (R241). -/
def intConvert (w : Nat) (stoch : Bool) (ctr : Nat) : XVal → Conv
  | .nan => ⟨0, [.nanToZero], ctr⟩
  | .inf neg => ⟨if neg then 2 ^ (w - 1) else 2 ^ (w - 1) - 1, [.saturated], ctr⟩
  | .fin neg m e =>
    let r := roundSteps stoch ctr m e 0
    if neg then (if 2 ^ (w - 1) < r.1 then ⟨2 ^ (w - 1), [.saturated], r.2⟩ else ⟨(2 ^ w - r.1) % 2 ^ w, [], r.2⟩)
    else if 2 ^ (w - 1) - 1 < r.1 then ⟨2 ^ (w - 1) - 1, [.saturated], r.2⟩
    else ⟨r.1, [], r.2⟩

/-- A value into the destination format of a word without MX (R241). -/
def convertTo (d : FmtWord) (ctr : Nat) (v : XVal) : Conv :=
  match fmtOf d.fmt with
  | .flt f => f.convert d.stoch d.sat ctr v
  | .int w => intConvert w d.stoch ctr v
  | .reserved => ⟨0, [], ctr⟩

/-- One element between two words without MX: the same format copies the bits (R241, R242). -/
def convertElem (s d : FmtWord) (ctr n : Nat) : Conv :=
  if s.fmt = d.fmt then ⟨n, [], ctr⟩ else convertTo d ctr (elemValue s.fmt n)

/-! ### MX blocks (R238–R240) -/

/-- Exponent of a format's largest finite value (R240). -/
def mxEmax : Nat → Int
  | 3 => 15
  | 4 => 8
  | 5 => 4
  | 6 => 2
  | 7 => 2
  | _ => 0

/-- The largest magnitude of a list of finite values, 0 of an empty one. -/
def maxMag (l : List XVal) : XVal := l.foldl (fun a v => if a.lt v.abs then v.abs else a) (.fin false 0 0)

/-- The scale exponent k of R240. -/
def mxScaleExp (fmt : Nat) (l : List XVal) : Int :=
  match maxMag l with
  | .fin _ m e => if m = 0 then -127 else max (-127) (min 127 (xlog2 m e - mxEmax fmt))
  | _ => -127

/-- A block's scale byte, element codes, events and the draws so far. -/
structure MxBlock where
  scale : Nat
  elems : List Nat
  evs : List Ev
  ctr : Nat
  deriving DecidableEq, Repr

/-- One MX element: SAT is forced (R240). MX INT8 counts in 2⁻⁶ (R238). -/
def mxElem (d : FmtWord) (k : Int) (ctr : Nat) (v : XVal) : Conv :=
  match fmtOf d.fmt with
  | .flt f => f.convert d.stoch true ctr (v.scale (-k))
  | .int w => intConvert w d.stoch ctr ((v.scale (-k)).scale 6)
  | .reserved => ⟨0, [], ctr⟩

/-- encode_mx_block of R240. -/
def mxEncode (d : FmtWord) (ctr : Nat) (l : List XVal) : MxBlock :=
  if l.any (fun v => match v with | .fin .. => false | _ => true) then
    ⟨0xFF, l.map (fun _ => 0), [.mxNanBlock], ctr⟩
  else
    let k := mxScaleExp d.fmt l
    l.foldl (fun b v => let r := mxElem d k b.ctr v; ⟨b.scale, b.elems ++ [r.code], b.evs ++ r.evs, r.ctr⟩)
      ⟨(k + 127).toNat, [], [], ctr⟩

/-! ### Accumulators (R248–R250) -/

/-- An FP32 accumulator plus an exact sum, one RNE rounding; exceeding the range gives infinity (R249). The first
infinite term given, NaN from opposite infinities counts NAN_PRODUCED. -/
def fp32Add (acc : Nat) (v : XVal) : Nat × List Ev :=
  let a := fp32.value acc
  let s := a.add v
  let r := fp32.convert false false 0 s
  match s with
  | .inf neg => (fp32.signed neg (fp32.maxCode + 1), [])
  | .nan => (fp32.nan, if a.isNaN || v.isNaN then [] else [.nanProduced])
  | .fin .. => (r.code, r.evs)

/-- An INT32 accumulator plus an exact integer, saturating (R250). -/
def int32Add (acc : Nat) (i : Int) : Nat × List Ev :=
  let s := toSigned 32 acc + i
  if s < -2 ^ 31 then (2 ^ 31, [.intSat])
  else if 2 ^ 31 - 1 < s then (2 ^ 31 - 1, [.intSat])
  else (ofSigned 32 s, [])

/-! ### Packed vectors (R234) -/

/-- Element `i` of a packed vector of width `w`. -/
def packedElem (w : Nat) (l : List Byte) (i : Nat) : Nat := bits (leNat l) (w * i) w

/-- Elements packed little-endian into `k` bytes. -/
def packElems (w k : Nat) (l : List Nat) : List Byte := natLE k (packBits (l.map (fun v => (w, v))))

/-! ### The reduce-write (R182, R252, R253) -/

/-- Formats that may be reduced at memory: as MFMT, as CFMT (R252). -/
def mfmtOk (c : Nat) : Bool := c == 0 || c == 1 || c == 2 || c == 8
def cfmtOk (c : Nat) : Bool := c ≤ 4 || c == 8 || c == 9

/-- Elements of a reduce-write of `len` carried bytes. -/
def reduceCount (cw len : Nat) : Nat := len * 8 / fmtBits (cw % 16)

/-- Bytes of a reduce-write's target. -/
def reduceBytes (mw cw len : Nat) : Nat := reduceCount cw len * (fmtBits (mw % 16) / 8)

/-- The rules of R182, R252 and R253 on a reduce-write to `gpa` of `len` carried bytes. -/
def reduceOk (mw cw len gpa : Nat) : Bool :=
  fmtWordOk mw && fmtWordOk cw && !bit mw 4 && !bit cw 4 && mfmtOk (mw % 16) && cfmtOk (cw % 16)
    && fmtIsFloat (mw % 16) == fmtIsFloat (cw % 16) && decide (len ≤ 256)
    && len * 8 % fmtBits (cw % 16) == 0 && gpa % (fmtBits (mw % 16) / 8) == 0
    && decide (gpa % 256 + reduceBytes mw cw len ≤ 256)

/-- One element of a reduce-write (R253). -/
def reduceElem (mw : FmtWord) (cfmt ctr old carried : Nat) : Conv :=
  match fmtOf mw.fmt with
  | .flt f =>
    let a := f.value old
    let b := elemValue cfmt carried
    match a.add b with
    | .nan => ⟨f.nan, if a.isNaN || b.isNaN then [] else [.nanProduced], ctr⟩
    | v => f.convert mw.stoch mw.sat ctr v
  | .int _ =>
    let r := int32Add old (toSigned (fmtBits cfmt) carried)
    ⟨r.1, r.2, ctr⟩
  | .reserved => ⟨old, [], ctr⟩

/-- A reduce-write's new target bytes, its events and the draws so far. -/
def reduceVec (mw cw : Nat) (old carried : List Byte) (ctr : Nat) : List Byte × List Ev × Nat :=
  let m := fmtWord mw
  let r := (List.range (reduceCount cw carried.length)).foldl
    (fun (a : List Nat × List Ev × Nat) i =>
      let c := reduceElem m (cw % 16) a.2.2 (packedElem (fmtBits m.fmt) old i) (packedElem (fmtBits (cw % 16)) carried i)
      (a.1 ++ [c.code], a.2.1 ++ c.evs, c.ctr)) ([], [], ctr)
  (packElems (fmtBits m.fmt) old.length r.1, r.2)

/-- The events counted in page `p` from counter `base` on (R255, R610). -/
def Dev.countEvs (d : Dev) (p base : Nat) (l : List Ev) : Dev := l.foldl (fun (d : Dev) e => d.count p (base + e.index) 1) d

/-! ### Atomics (R148) -/

/-- The new value of an atomic over `w` bits (R148). -/
def atomicNew (aop w old a b : Nat) : Nat :=
  match aop with
  | 0 => a
  | 1 => if old = a then b else old
  | 2 => (old + a) % 2 ^ w
  | 3 => Nat.land old a
  | 4 => Nat.lor old a
  | 5 => Nat.xor old a
  | 6 => if toSigned w old ≤ toSigned w a then old else a
  | 7 => if toSigned w old ≤ toSigned w a then a else old
  | 8 => min old a
  | 9 => max old a
  | _ => old

/-- Operand size in bytes of an atomic that carries `n` bytes: CAS carries two operands (R148, R464). -/
def atomicSize (aop n : Nat) : Nat := if aop = 1 then n / 2 else n

/-- The rules of R148 on an atomic of `size` bytes at `gpa`. -/
def atomicOk (aop size gpa : Nat) : Bool :=
  decide (aop ≤ 9) && (size == 4 || size == 8 || (size == 16 && aop == 1)) && gpa % size == 0

/-- The new bytes of an atomic's target. -/
def atomicBytes (aop : Nat) (old operand : List Byte) : List Byte :=
  let k := old.length
  natLE k (atomicNew aop (8 * k) (leNat old) (leNat (operand.take k)) (leNat (operand.drop k)))

end Sys2Proof.Machine
end

