-- ==== Sys2Proof/Machine/Store.lean ====
section
/-!
DEFINITION. Pool memory: lines and extents (R55–R63), the metadata tables of near extent 0 as bytes (R62, R63, R74),
encryption at rest (R184–R186), inline codes and the check cache (R164, R170–R172).
-/
namespace Sys2Proof.Machine

/-- The bytes of pool memory with everything else the package holds. -/
abbrev Pkg := Store × Dev

/-- `f` on everything but pool memory. -/
def Pkg.dev (f : Dev → Dev) (x : Pkg) : Pkg := (x.1, f x.2)

/-- `f` while the core runs and the SWITCH domain, without which no request moves, has power (R50, R556). -/
def Pkg.ifRuns (f : Pkg → Pkg) (x : Pkg) : Pkg := if x.2.running && x.2.domOn 11 then f x else x

/-- A package command that runs only while the core does (R49, R483, R556). -/
def onPkg (f : Pkg → Pkg) (s : State) : Host.Outcome State Fault Refusal := onAll (Pkg.ifRuns f) s

/-! ### GPAs, lines and extents (R55–R60) -/

/-- NODE of a GPA (R55). -/
def gpaNode (gpa : Nat) : Nat := bits gpa 45 7

/-- OFFSET lies within its tier (R56). -/
def gpaOk (gpa : Nat) : Bool :=
  if bit gpa 44 then decide (bits gpa 0 44 < 0xA0000000) else decide (bits gpa 0 44 < 0xC000000000)

/-- Extent-table index of a GPA (R59). -/
def gpaExt (gpa : Nat) : Nat := if bit gpa 44 then 3072 + bits gpa 24 20 else bits gpa 28 16

/-- GPA bits [44:0] of the first byte of an extent (R59). -/
def extBase (k : Nat) : Nat := if k < 3072 then k * 2 ^ 28 else 2 ^ 44 + (k - 3072) * 2 ^ 24

/-- Bytes of an extent (R59). -/
def extSize (k : Nat) : Nat := if k < 3072 then 2 ^ 28 else 2 ^ 24

/-- GPA of byte `off` of extent `k` at `node`. -/
def extGpa (node k off : Nat) : Nat := node * 2 ^ 45 + extBase k + off

/-- Byte offset of a GPA within its extent. -/
def gpaOff (gpa : Nat) : Nat := if bit gpa 44 then bits gpa 0 24 else bits gpa 0 28

/-- The fixed VOQ extents (R60). -/
def isVoqExt (k : Nat) : Bool := decide (3072 ≤ k) && decide (k < 3232) && decide (36 ≤ (k - 3072) % 40)

/-- The extents no command applies to (R60, R71). -/
def isFixedExt (k : Nat) : Bool := k == 3072 || isVoqExt k

/-- What an extent-table entry reads at reset (R60, R63): SYSTEM, VOQ or FREE. -/
def extDflt (k : Nat) : ExtEnt := { state := if k = 3072 then 3 else if isVoqExt k then 4 else 0 }

/-- The extent-table entry of index `k` (R61, R63). -/
def Dev.ext (d : Dev) (k : Nat) : ExtEnt := tget extDflt d.home.ext k

/-- The region descriptor of index `r` (R74). -/
def Dev.region (d : Dev) (r : Nat) : Region := tget (fun _ => {}) d.home.region r

/-- The protection-table entry of index `k` (R197). -/
def Dev.prot (d : Dev) (k : Nat) : ProtEnt := tget (fun _ => {}) d.home.prot k

def Dev.setExt (d : Dev) (k : Nat) (e : ExtEnt) : Dev := { d with home := { d.home with ext := tset extDflt d.home.ext k e } }

def Dev.setRegion (d : Dev) (r : Nat) (e : Region) : Dev :=
  { d with home := { d.home with region := tset (fun _ => {}) d.home.region r e } }

def Dev.setProt (d : Dev) (k : Nat) (e : ProtEnt) : Dev :=
  { d with home := { d.home with prot := tset (fun _ => {}) d.home.prot k e } }

/-! ### The metadata tables as bytes (R62, R63, R74, R197) -/

/-- Line `i` (0 to 4) of an extent-table entry. -/
def extEntLine (e : ExtEnt) (i : Nat) : List Byte :=
  match i with
  | 0 => natLE 64 (packBits [(3, e.state), (5, 0), (20, e.region), (4, 0), (16, e.gen)])
  | 1 => natLE 64 e.bm.read
  | 2 => natLE 64 e.bm.write
  | 3 => natLE 64 e.bm.atomic
  | _ => natLE 64 e.bm.reduce

/-- Line `i` (0 or 1) of a region descriptor. -/
def regionLine (r : Region) (i : Nat) : List Byte :=
  match i with
  | 0 => natLE 64 (packBits [(32, r.version), (1, b2n r.valid), (1, r.cls), (30, 0), (24, r.pages), (8, 0), (32, 0), (52, r.ptBase)])
  | _ => natLE 64 r.publish

/-- Line `i` of the two tables, counted from the start of near extent 0. -/
def Dev.tableLine (d : Dev) (i : Nat) : List Byte :=
  if i < 16160 then extEntLine (d.ext (i / 5)) (i % 5)
  else if i < 16384 then List.replicate 64 0
  else regionLine (d.region ((i - 16384) / 2)) ((i - 16384) % 2)

/-- A region descriptor read out of its two lines (R74). -/
def regionOfLines (a b : List Byte) : Region :=
  let n := leNat a
  { version := bits n 0 32, valid := bit n 32, cls := bits n 33 1, pages := bits n 64 24, ptBase := bits n 128 52,
    publish := leNat b }

/-- An extent-table entry read out of its five lines (R63). -/
def extOfLines (h r w a u : List Byte) : ExtEnt :=
  let n := leNat h
  { state := bits n 0 3, region := bits n 8 20, gen := bits n 32 16, bm := ⟨leNat r, leNat w, leNat a, leNat u⟩ }

/-- A protection-table entry as its word (R197). -/
def protWord (e : ProtEnt) : Nat :=
  packBits [(3, e.mode), (1, b2n e.degraded), (4, e.holder), (7, e.peerNode), (1, 0), (12, e.peerExt), (4, 0)]

/-- A protection-table entry read out of its word (R197). -/
def protOfWord (n : Nat) : ProtEnt :=
  { mode := bits n 0 3, degraded := bit n 3, holder := bits n 4 4, peerNode := bits n 8 7, peerExt := bits n 16 12 }

/-! ### Lines and their cover (R184–R186, R202) -/

/-- First line of near extent 0, as GPA bits [44:6]. -/
def metaLine0 : Nat := 2 ^ 38

/-- How a line is covered when nothing has been written: near extent 0 under the metadata key, all else zero
ciphertext (R586, R588). -/
def coverDflt (l : Nat) : Cover := if metaLine0 ≤ l ∧ l < metaLine0 + 2 ^ 18 then .metadata l else .raw

/-- Whether a line lies in the extent table or the region descriptor table (R64). -/
def isTableLine (l : Nat) : Bool := decide (metaLine0 ≤ l) && decide (l < metaLine0 + 32768)

/-! A line of the package is named by its GPA bits [44:6]. Where it stands in the arrays is its *place*: of a near line that number itself;
of a bulk line 2^30 × its device + its line within the device's data region (R168). Bytes, covers and errors are held by place: a change of
INTERLEAVE leaves them where they are. -/

/-- The place of line `l`, any node bits of whose GPA are ignored. -/
def linePlace (contiguous : Bool) (l : Nat) : Nat :=
  let l := l % 2 ^ 39
  if metaLine0 ≤ l ∨ contiguous then l else l / 16 % 12 * 2 ^ 30 + l / 16 / 12 * 16 + l % 16

/-- The line at place `p`. -/
def lineAt (contiguous : Bool) (p : Nat) : Nat :=
  if metaLine0 ≤ p ∨ contiguous then p else (p % 2 ^ 30 / 16 * 12 + p / 2 ^ 30) * 16 + p % 16

/-- INTERLEAVE is CONTIGUOUS (R168). -/
def Dev.contiguous (d : Dev) : Bool := d.rd F.BULK_CFG_INTERLEAVE == 1

def Dev.placeOf (d : Dev) (l : Nat) : Nat := linePlace d.contiguous l

def zeroByte (_ : Nat) : Byte := 0

/-- `len` bytes of memory from key `a`. -/
def Store.bytes (s : Store) (a len : Nat) : List Byte := (List.range len).map (fun i => tget zeroByte s.mem (a + i))

/-- Memory with bytes `v` at key `a`. -/
def putMem : List Host.Cell → Nat → List Byte → List Host.Cell
  | m, _, [] => m
  | m, a, b :: v => putMem (tset zeroByte m a b) (a + 1) v

/-- How a line is covered that has not been written since start-up, or since its contents were lost (R558, R563): what a
lost line holds is free. -/
def Store.dflt (s : Store) (l : Nat) : Cover :=
  match s.lost.find? (fun e => decide (e.1 ≤ l) && decide (l < e.2.1)) with
  | some e => .lost e.2.2
  | none => coverDflt l

/-- The cover of the line at place `l`. -/
def Store.cover (s : Store) (l : Nat) : Cover := tget s.dflt s.covers l

/-- The line at place `l` set to bytes `v` under cover `c`. -/
def Store.setLine (s : Store) (l : Nat) (v : List Byte) (c : Cover) : Store :=
  { s with mem := putMem s.mem (64 * l) v, covers := tset s.dflt s.covers l c }

/-- Places [lo, hi) without anything listed. -/
def Store.unlist (s : Store) (lo hi : Nat) : Store :=
  { s with mem := tdrop (fun a => decide (64 * lo ≤ a) && decide (a < 64 * hi)) s.mem
           covers := tdrop (fun l => decide (lo ≤ l) && decide (l < hi)) s.covers }

/-- The lost ranges without the places [lo, hi). -/
def lostOutside (lo hi : Nat) (l : List (Nat × Nat × Nat)) : List (Nat × Nat × Nat) :=
  l.flatMap (fun e => [(e.1, min e.2.1 lo, e.2.2), (max e.1 hi, e.2.1, e.2.2)].filter (fun f => decide (f.1 < f.2.1)))

/-- The contents of places [lo, hi) are lost: what they read as is free. -/
def Store.lose (s : Store) (lo hi key : Nat) : Store :=
  { s.unlist lo hi with lost := lostOutside lo hi s.lost ++ [(lo, hi, key)] }

/-- Places [lo, hi) cleared to what start-up leaves. -/
def Store.clearLines (s : Store) (lo hi : Nat) : Store := { s.unlist lo hi with lost := lostOutside lo hi s.lost }

/-- A line through `f` under a 512-bit key: bytes 0 to 31 of the key are Key1, bytes 32 to 63 Key2 of IEEE 1619 (R184). -/
def xtsLine (f : List (List Nat) → List Nat → List Nat) (key unit : Nat) (v : List Byte) : List Byte :=
  (Aes.xts f (Aes.toBytes 64 key) unit ((sliceBytes v 0 64).map BitVec.toNat)).map (BitVec.ofNat 8)

/-- AES-256-XTS of a 64-byte line (R184). -/
def encLine (key unit : Nat) (v : List Byte) : List Byte := xtsLine Aes.encBlock key unit v

/-- Its inverse. -/
def decLine (key unit : Nat) (v : List Byte) : List Byte := xtsLine Aes.decBlock key unit v

/-- The metadata key (R186). -/
def Dev.metaKey (d : Dev) : Nat := Config.metaKey d.sec.metaGen

/-- The data unit number of a stored line of this package (R184, R186): GPA[51:6]. -/
def Dev.unitOf (d : Dev) (l : Nat) : Nat := d.node % 128 * 2 ^ 39 + l

/-- The cover of line `l`. -/
def Pkg.cover (x : Pkg) (l : Nat) : Cover := x.1.cover (x.2.placeOf l)

/-- The bytes of line `l` under its cover: those of a table line come from the tables. -/
def Pkg.lineBytes (x : Pkg) (l : Nat) : List Byte :=
  if isTableLine l then x.2.tableLine (l - metaLine0) else x.1.bytes (64 * x.2.placeOf l) 64

/-- Line `l` as it stands in the arrays. -/
def Pkg.cipher (x : Pkg) (l : Nat) : List Byte :=
  match x.cover l with
  | .raw => x.lineBytes l
  | .key k u => encLine k u (x.lineBytes l)
  | .metadata u => encLine x.2.metaKey (x.2.unitOf u) (x.lineBytes l)
  | .lost k => natLE 64 (Config.lostLine k (x.2.placeOf l)).toNat

/-- Line `l` read under cover `c`: the plaintext if the line was written so, else what that key makes of it. -/
def Pkg.plain (x : Pkg) (l : Nat) (c : Cover) : List Byte :=
  if x.cover l = c then x.lineBytes l
  else match c with
    | .raw => x.cipher l
    | .key k u => decLine k u (x.cipher l)
    | .metadata u => decLine x.2.metaKey (x.2.unitOf u) (x.cipher l)
    | .lost _ => x.cipher l

/-- Line `l` written with plaintext `v` under cover `c`. -/
def Pkg.setLine (x : Pkg) (l : Nat) (v : List Byte) (c : Cover) : Pkg := (x.1.setLine (x.2.placeOf l) v c, x.2)

/-! ### Inline codes (R164, R170–R173) -/

/-- NEAR or BULK page of a line. -/
def tierPage (l : Nat) : Nat := if metaLine0 ≤ l then 0x29 else 0x2A

/-- Device of a bulk line (R168). -/
def Dev.bulkDevice (d : Dev) (l : Nat) : Nat := d.placeOf l / 2 ^ 30

/-- Device offset of a bulk line (R168). -/
def Dev.bulkPlace (d : Dev) (l : Nat) : Nat := d.placeOf l % 2 ^ 30 * 64

/-- Offset in the 4 GiB check region of its device at which the check burst of a bulk line lies: 64 bytes for each granule of the data region
(R167, R170). -/
def Dev.checkPlace (d : Dev) (l : Nat) : Nat := d.bulkPlace l / 1024 * 64

/-- Byte `off` of the check region of device `dev` (R167, R170), but for bursts cached and not yet written back: 4 check bytes for each of
the 16 lines of a granule. The code's polynomials are not given (log entry 7): the bytes are a free function of the line. -/
def Pkg.checkByte (x : Pkg) (dev off : Nat) : Byte :=
  let l := lineAt x.2.contiguous (dev * 2 ^ 30 + off / 64 * 16 + off % 64 / 4)
  (natLE 4 (Config.checkBytes (leNat (x.cipher l)) % 2 ^ 32)).getD (off % 4) 0

/-- Bank group and bank of a near line (R60, R161). -/
def nearGroup (l : Nat) : Nat := (l - metaLine0) / 0xA00000
def nearBank (l : Nat) : Nat := (l - metaLine0) % 0xA00000 / 4 % 64

/-- The power domains a line needs (R180): its bank group; both PHY halves in ALL12, else that of its device. -/
def Dev.linePowered (d : Dev) (l : Nat) : Bool :=
  if metaLine0 ≤ l then d.domOn (20 + nearGroup l)
  else if !d.contiguous then d.domOn 24 && d.domOn 25
  else d.domOn (24 + d.bulkDevice l / 6)

/-- A bulk access uses the check burst of its granule (R171): a miss is counted and the burst cached, one of a full controller's 256
bursts leaving (written back if it has been written); a write updates it. No request covers a whole granule of 1 KiB (R464). -/
def Dev.checkBurst (wr : Bool) (l : Nat) (d : Dev) : Dev :=
  if metaLine0 ≤ l then d
  else
    let dev := d.bulkDevice l
    let off := d.checkPlace l
    let c := d.home.checkCache
    if c.any (fun e => e.1 == dev && e.2.1 == off) then
      { d with home := { d.home with checkCache := c.map (fun (e : Nat × Nat × Bool) => if e.1 = dev ∧ e.2.1 = off then (dev, off, e.2.2 || wr) else e) } }
    else
      let mine := c.filter (fun e => e.1 == dev)
      let r := d.draw
      let cache := if mine.length < 256 then c else c.erase (nth mine (r.1 % 256) (dev, off, wr))
      let d := if mine.length < 256 then d else r.2
      { d with home := { d.home with checkCache := (dev, off, wr) :: cache } }.count 0x2A 2 1

/-! The inline codes. What software sees of a code is what it does with an error; so the arrays hold, for each line, which of its symbols are
wrong: bits of a near word with its check bits, of which the code corrects one and detects two (R164), bytes of a bulk line with its check
bytes, of which it corrects one and detects two or three (R170). DESIGN CHOICE (log entry 7): more are detected too; the rules promise
nothing of them. -/

/-- The wrong symbols of line `l`. -/
def Dev.errsOf (d : Dev) (l : Nat) : List Nat := tget (fun _ => []) d.home.damage (d.placeOf l)

def Dev.setErrs (l : Nat) (es : List Nat) (d : Dev) : Dev :=
  { d with home := { d.home with damage := tset (fun _ => []) d.home.damage (d.placeOf l) es } }

/-- The words of line `l` that a read of [gpa, gpa + len) needs: those of the AES blocks it touches (R164, R184). -/
def spanWords (gpa len l : Nat) : List Nat :=
  (List.range 8).filter (fun w => decide (gpa / 16 ≤ (64 * l + 8 * w) / 16) && decide ((64 * l + 8 * w) / 16 ≤ (gpa + max len 1 - 1) / 16))

/-- What the code finds in words `ws` of line `l`, in a bulk line always in all: 0 nothing, 1 what it corrects, 2 what it only detects. -/
def Dev.partErr (d : Dev) (l : Nat) (ws : List Nat) : Nat :=
  if metaLine0 ≤ l then (ws.map (fun w => min 2 ((d.errsOf l).countP (fun e => e / 72 == w)))).foldl max 0
  else min 2 (d.errsOf l).length

/-- What the code finds in the whole of line `l`. -/
def Dev.lineErr (d : Dev) (l : Nat) : Nat := d.partErr l (List.range 8)

/-- Line `l` of the arrays takes an error, which stays until the line is written whole or corrected. -/
def Dev.strikeOne (l : Nat) (m : Media) (d : Dev) : Dev :=
  if m.errs.isEmpty then d else d.setErrs l (d.errsOf l ++ m.errs.filter (fun e => !(d.errsOf l).contains e)).dedup

/-- Lines take the errors listed. -/
def Dev.strike (ls : List Nat) (ms : List Media) (d : Dev) : Dev := (ls.zip ms).foldl (fun (d : Dev) p => d.strikeOne p.1 p.2) d

/-- Line `l` holds good words again. -/
def Dev.mend (l : Nat) (d : Dev) : Dev := d.setErrs l []

/-- Word `w` of near line `l` is corrected: counted, and written back in the same access (R164). -/
def Dev.mendWord (l w : Nat) (d : Dev) : Dev :=
  ((d.count 0x29 0 1).corrected 0x29).setErrs l ((d.errsOf l).filter (fun e => e / 72 != w))

/-- Words `ws` of line `l` are read out of the arrays and the code corrects what it can: a bulk line is counted and waits for its write-back
(R164, R172). -/
def Dev.readPart (l : Nat) (ws : List Nat) (d : Dev) : Dev :=
  if metaLine0 ≤ l then (ws.filter (fun w => d.partErr l [w] == 1)).foldl (fun (d : Dev) w => d.mendWord l w) d
  else if d.lineErr l = 1 then
    let d := (d.count 0x2A 0 1).corrected 0x2A
    { d with home := { d.home with fixes := d.home.fixes ++ [(d.placeOf l, false)] } }
  else d

/-- The whole of line `l` is read out of the arrays. -/
def Dev.readFix (l : Nat) (d : Dev) : Dev := d.readPart l (List.range 8)

/-- Words `ws` of line `l` hold an error that the code only detects: each such word, or the bulk line, is counted, and the line captured with
CODE UNCORRECTABLE (R489). -/
def Dev.badPart (l : Nat) (ws : List Nat) (cls : Nat) (d : Dev) : Dev :=
  (d.count (tierPage l) 1 (if metaLine0 ≤ l then ws.countP (fun w => d.partErr l [w] == 2) else 1)).capture (tierPage l)
    (if cls = 0 then .request else .degraded) sDataError 6 0x3F (d.unitOf l * 64)

def Dev.mediaBad (d : Dev) (l cls : Nat) : Dev := d.badPart l (List.range 8) cls

/-- Lines are read in place for an array (R164, R170, R264), those listed having taken an error: whole lines (DEDUCED, log entry 7). -/
def Dev.readLines (ls : List Nat) (ms : List LineMedia) (d : Dev) : Dev :=
  ls.dedup.foldl (fun (d : Dev) l =>
    (((ms.filter (fun m => m.line == l)).foldl (fun (d : Dev) m => d.strikeOne l m.media) d).checkBurst false l).readFix l) d

/-- The lines of `ls` that their codes cannot correct. -/
def Dev.badLines (d : Dev) (ls : List Nat) : List Nat := ls.dedup.filter (fun l => d.lineErr l == 2)

/-- A write of the whole of line `l` with its check bits (R173): a pending correction of it is void (R175). -/
def Dev.fixWritten (d : Dev) (l : Nat) : Dev :=
  let p := d.placeOf l
  { d with home := { d.home with fixes := d.home.fixes.map (fun (e : Nat × Bool) => if e.1 = p then (p, true) else e) } }.mend l

/-- GPA of the word that wait `w` of an operation names (R283). -/
def FOp.waitGpa (o : FOp) (w : Nat) : Nat := leNat (sliceBytes o.desc (8 + 16 * w) 8) % 2 ^ 52

/-- A write to line `p` is performed: the ferryman's watches on it have something to re-evaluate (R288). -/
def Dev.watchNote (p : Nat) (d : Dev) : Dev :=
  let note := fun (o : FOp) => if o.state = .waiting then
      { o with waits := o.waits.zipIdx.map (fun (e : WaitSt × Nat) =>
          if e.1.armed && o.waitGpa e.2 / 64 % 2 ^ 39 == p then { e.1 with hit := true } else e.1) }
    else o
  { d with fry := { d.fry with ops := d.fry.ops.map note } }

/-- Line `l` of the arrays is written whole (R171, R173, R288): plaintext `v` under cover `c`, with its check bits or check burst. -/
def Pkg.writeLine (x : Pkg) (l : Nat) (v : List Byte) (c : Cover) : Pkg :=
  (x.setLine l v c).dev (fun d => ((d.checkBurst true l).fixWritten l).watchNote l)

/-! ### Lines of an extent -/

/-- The places of extent `k`, as ranges: in ALL12 one on each device (R168). -/
def Dev.extRanges (d : Dev) (k : Nat) : List (Nat × Nat) :=
  let lo := extBase k / 64
  let hi := (extBase k + extSize k) / 64
  if 3072 ≤ k ∨ d.contiguous then [(lo, hi)]
  else (List.range 12).map (fun i => (i * 2 ^ 30 + (lo / 16 + 11 - i) / 12 * 16, i * 2 ^ 30 + (hi / 16 + 11 - i) / 12 * 16))

/-- The lines of an extent that are listed in memory, under a cover of their own, or lost, as byte offsets. -/
def Pkg.listed (x : Pkg) (k : Nat) : List Nat :=
  let rs := x.2.extRanges k
  let inExt := fun (p : Nat) => rs.any (fun r => decide (r.1 ≤ p) && decide (p < r.2))
  let lost := x.1.lost.flatMap (fun (e : Nat × Nat × Nat) => rs.flatMap (fun r =>
    let lo := max e.1 r.1
    (List.range (min e.2.1 r.2 - lo)).map (fun i => lo + i)))
  ((x.1.mem.map (fun (c : Host.Cell) => c.1 / 64) ++ x.1.covers.map (fun (c : Nat × Cover) => c.1)).filter inExt ++ lost).dedup.map
    (fun p => 64 * lineAt x.2.contiguous p - extBase k)

/-- Every line of an extent is written, with zero ciphertext and good codes. -/
def Pkg.clearExt (x : Pkg) (k : Nat) : Pkg :=
  let rs := x.2.extRanges k
  let inExt := fun (p : Nat) => rs.any (fun r => decide (r.1 ≤ p) && decide (p < r.2))
  (rs.foldl (fun (s : Store) r => s.clearLines r.1 r.2) x.1,
    { x.2 with home := { x.2.home with
      damage := tdrop inExt x.2.home.damage, fixes := x.2.home.fixes.map (fun (e : Nat × Bool) => (e.1, e.2 || inExt e.1)) } })

end Sys2Proof.Machine
end

