-- ==== Sys2Proof/Machine/Send.lean ====
section
/-!
DEFINITION. Source engines: manifest numbers (R133), the hazards and limits that hold a request at its engine (R129,
R134, R428, R496), sending, retransmission (R135, R492), windows (R428), fences' bookkeeping (R144–R146), and the
resync of a pair (R496).
-/
namespace Sys2Proof.Machine

/-- Requests that change pool bytes carry a manifest number (R133, R150). -/
def AKind.isWrite : AKind → Bool
  | .write | .atomic | .reduce | .pteWrite | .migWrite => true
  | _ => false

/-- Key of a (engine, destination) pair. -/
def pairKey (eng dest : Nat) : Nat := 128 * eng + dest

/-- Outstanding writes of an engine to a node, and of the package (R134). -/
def Dev.unacked (d : Dev) (eng dest : Nat) : Nat :=
  (d.src.reqs.filter (fun o => o.acc.kind.isWrite && o.acc.eng == eng && o.dest == dest)).length

def Dev.unackedAll (d : Dev) (dest : Nat) : Nat :=
  (d.src.reqs.filter (fun o => o.acc.kind.isWrite && o.dest == dest)).length

/-- Bytes of collective segments of an engine to a node sent and not yet acknowledged (R428). -/
def Dev.segBytesTo (d : Dev) (eng dest : Nat) : Nat :=
  (d.fry.colls.map (fun c =>
    ((c.sent.filter (fun s => s.eng == eng && nth c.ranks s.peer 0 % 512 / 4 == dest)).map (fun s => s.s.data.length)).sum)).sum

/-- Bytes of an engine to a node sent and not yet answered (R428): requests, and segments of collectives. -/
def Dev.outBytesTo (d : Dev) (eng dest : Nat) : Nat :=
  ((d.src.reqs.filter (fun o => o.acc.eng == eng && o.dest == dest)).map (·.bytes)).sum + d.segBytesTo eng dest

/-- The window W of a pair in bytes (R428). -/
def Dev.window (d : Dev) (eng dest : Nat) : Nat :=
  let w := nget d.src.win (pairKey eng dest)
  if w = 0 then d.src.winInit else w

/-- The window of an engine to a node lets `n` bytes more go: the home atomic unit keeps none (R428). -/
def Dev.windowRoom (d : Dev) (eng dest n : Nat) : Bool :=
  eng == 5 || d.outBytesTo eng dest == 0 || decide (d.outBytesTo eng dest + n ≤ d.window eng dest)

/-- The window lets `o` go (R428). -/
def Dev.windowOpen (d : Dev) (o : OutReq) : Bool := d.windowRoom o.acc.eng o.dest o.bytes

/-- The number of the request that an access belongs to: a combined write's is that of its oldest store. -/
def Acc.reqId (a : Acc) : Nat :=
  match a.purpose with
  | .wcBlock _ stores => ((stores.head?).map (·.2.2)).getD a.id
  | .bulk _ id _ _ => id
  | .lndFill _ id _ => id
  | _ => a.id

/-- An acquire with a number below `id` is pending in context `ctx` (R156). -/
def Dev.acquireHolds (d : Dev) (ctx id : Nat) : Bool := d.lnd.any (fun l => l.acquiring.any (fun e => e.1 == ctx && decide (e.2 < id)))

/-- An access with which an attention request reads its inputs or sends a group: a fence that covers the request waits for it (R331). -/
def Dev.ofAttn (d : Dev) (ops : List Nat) (a : Acc) : Bool :=
  match a.purpose with
  | .attnGroup op _ => ops.contains op
  | .xfer id _ => d.fry.xfers.any (fun x => x.id == id && ops.contains x.op && (match x.key with | .attnIn _ => true | _ => false))
  | _ => false

/-- A fence accepted before `a` still waits and holds it, or a pending acquire does (R144, R145, R156): table reads and the home's own are
held by none. -/
def Dev.fenced (d : Dev) (a : Acc) : Bool :=
  a.eng != 5 && a.eng != 7 &&
    (d.src.fences.any (fun f => decide (f.id < a.reqId) && !f.covered.contains a.reqId && (f.holdEng == some a.eng || f.holdCtx == some a.ctx) && !d.ofAttn f.ops a) || d.acquireHolds a.ctx a.reqId)

/-- Two line lists meet. -/
def meets (a b : List Nat) : Bool := a.any (fun l => b.contains l)

/-- The class of the frames that carry a message to another package or through the crossbar (R380); none for what leaves otherwise. -/
def Emit.cls : Emit → Option Nat
  | .req r | .migrate r _ => some r.hdr.cls
  | .rsp h _ | .pairData h _ => some h.cls
  | .delta _ _ | .mirror _ _ | .journal _ _ | .rcRead _ _ | .rcRelease _ _ | .attnQuery _ _ => some 0
  | .attnPartial _ _ => some 1
  | .coll _ _ | .rebuild _ _ => some 2
  | .ctrl _ _ => some 3
  | .depart _ _ f => some f.hdr.cls
  | _ => none

/-- A BULK frame of a ferry or an array, which starts none while the brake is applied (R574): the protection engine is none of them. -/
def Dev.bulkBraked (d : Dev) (o : OutReq) : Bool := d.braked && o.msg.cls == some 2 && decide (8 ≤ o.acc.eng) && decide (o.acc.eng < 0x38)

/-- The tag of engine `eng`'s next request: the next number in turn that no outstanding request of the engine holds, so
that a late answer finds no other request under its tag for as long as can be (R486). -/
def Dev.nextTag (d : Dev) (eng : Nat) : Option Nat :=
  let used := (d.src.reqs.filter (fun p => p.acc.eng == eng)).map (·.tag)
  let start := nget d.src.tags eng
  ((List.range 4096).find? (fun i => !used.contains ((start + i) % 4096))).map (fun i => (start + i) % 4096)

/-- A ferry engine keeps at most 2,048 reads outstanding (R348). -/
def Dev.readRoom (d : Dev) (a : Acc) : Bool :=
  a.kind.isWrite || decide (a.eng < 8) || decide (0x28 ≤ a.eng)
    || decide ((d.src.reqs.filter (fun p => p.acc.eng == a.eng && !p.acc.kind.isWrite)).length < 2048)

/-- Whether `o` may be sent: `kept` are the requests held before it (R129, R130, R134, R144, R348, R428, R496, R574). -/
def Dev.mayIssue (d : Dev) (kept : List OutReq) (o : OutReq) : Bool :=
  let mine := (kept ++ d.src.reqs).filter (fun p => p.acc.eng == o.acc.eng && p.dest == o.dest)
  let tagFree := (d.nextTag o.acc.eng).isSome
  d.readRoom o.acc && !d.fenced o.acc && !d.bulkBraked o && d.windowOpen o && tagFree &&
    (if o.acc.kind.isWrite then
      !kept.any (fun p => p.acc.kind.isWrite && p.acc.eng == o.acc.eng && p.dest == o.dest)
        && !mine.any (fun p => !p.acc.kind.isWrite && meets p.lines o.lines)
        && decide (d.unacked o.acc.eng o.dest < 256) && decide (d.unackedAll o.dest < 512)
        && !d.src.resyncs.any (fun r => r.eng == o.acc.eng && r.dest == o.dest)
    else
      !mine.any (fun p => !p.acc.kind.isWrite && meets p.lines o.lines)
        && !kept.any (fun p => p.acc.kind.isWrite && p.acc.eng == o.acc.eng && meets p.lines o.lines))

/-- Most recent write of the engine to a line that the read names, among those outstanding and those that have ended unanswered (R129): a copy
of one of these may still be applied until the pair is resynchronised. -/
def Dev.afterOf (d : Dev) (o : OutReq) : Option Nat :=
  if o.acc.kind.isWrite then none
  else
    let mine := fun (p : OutReq) => p.acc.kind.isWrite && p.acc.eng == o.acc.eng && meets p.lines o.lines
    let lost := d.src.lost.filter (fun w => w.eng == o.acc.eng && w.dest == o.dest && meets w.lines o.lines)
    let open_ := ((d.src.reqs.filter mine).filterMap (·.man)).getLast?
    let gone := (lost.map (·.man)).getLast?
    match open_, gone with
    | some a, some b => some (if (a + 65536 - b) % 65536 < 32768 then a else b)
    | some a, none => some a
    | none, g => g

/-- A message with its tag, manifest number, AFTER and epoch filled in. -/
def fillMsg (tag : Nat) (man after : Option Nat) (epoch : Bool) : Emit → Emit
  | .req r => .req { r with hdr := { r.hdr with
      tag := tag, manifest := man.getD 0, mv := man.isSome, after := after.getD 0, av := after.isSome, epoch := epoch } }
  | .delta dest m => .delta dest { m with tag := tag, manifest := man.getD 0 }
  | .mirror dest m => .mirror dest { m with tag := tag, manifest := man.getD 0 }
  | .journal dest m => .journal dest { m with tag := tag, manifest := man.getD 0 }
  | .rebuild dest m => .rebuild dest { m with tag := tag, manifest := man.getD 0 }
  | .rcRead dest m => .rcRead dest { m with tag := tag }
  | .migrate r g => .migrate { r with hdr := { r.hdr with
      tag := tag, manifest := man.getD 0, mv := man.isSome, epoch := epoch } } g
  | e => e

/-- A message is handed to the crossbar: a request with more data than a frame holds as a linked pair, a DATA frame of LEN 2 with the same TAG,
MANIFEST and EPOCH at once behind the first (R466). -/
def Dev.emitMsg (e : Emit) (d : Dev) : Dev :=
  match e with
  | .req r =>
    if r.data.length ≤ 240 then d.emit e
    else (d.emit (.req { r with data := r.data.take 240 })).emit (.pairData { r.hdr with len := 2, opcode := 0x07 } (r.data.drop 240))
  | _ => d.emit e

/-- `o` is sent: its tag, the next manifest number of a write (R133), the timers (R485, R492). -/
def Dev.sendOut (o : OutReq) (d : Dev) : Dev :=
  let tag := (d.nextTag o.acc.eng).getD 0
  let k := pairKey o.acc.eng o.dest
  let man := if o.acc.kind.isWrite then some (nget d.src.mani k) else none
  let msg := fillMsg tag man (d.afterOf o) d.epochNow o.msg
  let o' := { o with tag := tag, man := man, msg := msg, firstAt := d.tim.tide, sentAt := d.tim.tide }
  let src := { d.src with
    reqs := d.src.reqs ++ [o'],
    mani := if o.acc.kind.isWrite then nset d.src.mani k ((nget d.src.mani k + 1) % 65536) else d.src.mani,
    tags := nset d.src.tags o.acc.eng (tag + 1),
    ended := terase d.src.ended (4096 * o.acc.eng + tag) }
  { d with src := src }.emitMsg msg

/-- The held requests that may go are sent, in issue order (R130). -/
def Dev.pumpSrc (d : Dev) : Dev :=
  let r := d.src.held.foldl
    (fun (a : Dev × List OutReq) o => if a.1.mayIssue a.2 o then (a.1.sendOut o, a.2) else (a.1, a.2 ++ [o])) (d, [])
  { r.1 with src := { r.1.src with held := r.2 } }

/-- `o` takes its place in issue order. One that names a node outside the domain is not sent and ends at its engine (R32, R57). -/
def Dev.issue (o : OutReq) (d : Dev) : Dev :=
  if d.hasNode o.dest then { d with src := { d.src with held := d.src.held ++ [o] } }.pumpSrc
  else { d with src := { d.src with noNode := d.src.noNode ++ [o] } }

/-- The next access id: issue order across the package's engines. -/
def Dev.newId (d : Dev) : Nat × Dev := (d.src.nextId, { d with src := { d.src with nextId := d.src.nextId + 1 } })

/-! ### Fences' bookkeeping -/

/-- Access `id` ended with `status`: every fence that covers it takes note (R146, R157). -/
def Dev.fenceNoteId (id : Nat) (isWrite : Bool) (status : Nat) (d : Dev) : Dev :=
  let note := fun (f : Fence) =>
    if f.covered.contains id then
      { f with
        covered := f.covered.filter (· != id), errSeen := f.errSeen || status != sOk,
        lowest := if isWrite && status != sOk then min f.lowest status else f.lowest }
    else f
  { d with src := { d.src with fences := d.src.fences.map note } }

/-- A pool access ended; one of an attention request that a fence covers shows its failure there (R146, R331). -/
def Dev.fenceNote (a : Acc) (status : Nat) (d : Dev) : Dev :=
  let d := d.fenceNoteId a.id a.kind.isWrite status
  if status = sOk then d
  else { d with src := { d.src with fences := d.src.fences.map (fun f => if d.ofAttn f.ops a then { f with errSeen := true } else f) } }

/-! ### Windows (R427, R428) -/

/-- A decrease to `w`, unless one fell within HOLD_NS before (R428); counted at its level (R430). -/
def Dev.windowCut (d : Dev) (k w lvl : Nat) : Dev :=
  let last := nget d.src.winDec k
  if last ≠ 0 ∧ d.tim.tide < last - 1 + nsT (d.rd F.CNG_AIMD_HOLD_NS) then d
  else
    let w := max w (d.rd F.CNG_WIN_MIN * 1024)
    let d := { d with src := { d.src with win := nset d.src.win k w, winDec := nset d.src.winDec k (d.tim.tide + 1) } }
    if lvl = 0 then d else d.count 0x68 (2 * (lvl - 1) + 1) 1

/-- The window of a pair after an answer of congestion level `lvl` for `bytes` bytes (R428). -/
def Dev.windowAnswer (eng dest lvl bytes : Nat) (d : Dev) : Dev :=
  let k := pairKey eng dest
  let w := d.window eng dest
  if eng = 5 then d
  else match lvl with
    | 0 =>
      let up := min (w + d.rd F.CNG_AIMD_ADD * 1024 * bytes / max w 1) (d.rd F.CNG_WIN_MAX * 1024)
      { d with src := { d.src with win := nset d.src.win k (max up (d.rd F.CNG_WIN_MIN * 1024)) } }
    | 1 => d.windowCut k (w * 7 / 8) 1
    | 2 => d.windowCut k (w * 3 / 4) 2
    | _ => d.windowCut k (w / 2) 3

/-- The window after TIMEOUT or NODE_LOST: MIN (R428). -/
def Dev.windowMin (eng dest : Nat) (d : Dev) : Dev :=
  if eng = 5 then d else d.windowCut (pairKey eng dest) (d.rd F.CNG_WIN_MIN * 1024) 0

/-! ### Bounces and retransmission (R135, R492) -/

/-- AFTER of a message that carries one. -/
def msgAfter : Emit → Option Nat
  | .req r => if r.hdr.av then some r.hdr.after else none
  | _ => none

/-- `o` is sent again under its tag and manifest number on the active bank's route. -/
def Dev.resend (o : OutReq) (d : Dev) : Dev :=
  let msg := fillMsg o.tag o.man (msgAfter o.msg) d.epochNow o.msg
  let again := fun (p : OutReq) => { p with sentAt := d.tim.tide, msg := msg }
  let d := { d with src := { d.src with
    reqs := mapFirst (fun p => p.acc.eng == o.acc.eng && p.tag == o.tag) again d.src.reqs } }
  d.emitMsg msg

/-- The outstanding request of (engine, tag). -/
def Dev.outOf (d : Dev) (eng tag : Nat) : Option OutReq := d.src.reqs.find? (fun o => o.acc.eng == eng && o.tag == tag)

/-- The request timeout of `o` has ended (R485): an answer that comes now is late. -/
def Dev.expired (d : Dev) (o : OutReq) : Bool := decide (o.firstAt + us (d.rd F.RCV_CFG_REQ_TIMEOUT_US) ≤ d.tim.tide)

/-- RETRANSMIT_TIMER (R492): the window of the last transmission ended without an answer. Version operations are not
sent again, nor is anything once the request timeout has ended. -/
def Dev.retransmit (eng tag : Nat) (d : Dev) : Dev :=
  match d.outOf eng tag with
  | none => d
  | some o =>
    if o.acc.kind = .verRead ∨ o.acc.kind = .publish ∨ d.expired o ∨ d.tim.tide < o.sentAt + us (d.rd F.RCV_RETX_RETX_US) then d
    else (d.count 0xC1 0 1).resend o

/-- BOUNCE_RECEIVE for a pool request (R135, R393, R428): level 3, and the write goes again at once. The bounce's own
BOUNCES field rises by one (R392). -/
def Dev.bounced (h : Hdr) (d : Dev) : Dev :=
  match d.outOf h.srcEngine h.tag with
  | none => d.count 0xC1 1 1
  | some o =>
    if d.expired o then d.count 0xC1 1 1
    else
      let up := fun (e : Emit) => match e with
        | .req r => Emit.req { r with hdr := { r.hdr with bounces := min 3 (h.bounces + 1) } }
        | .migrate r g => Emit.migrate { r with hdr := { r.hdr with bounces := min 3 (h.bounces + 1) } } g
        | .rebuild dest m => Emit.rebuild dest { m with bounces := min 3 (h.bounces + 1) }
        | e => e
      let o := { o with msg := up o.msg, bounces := o.bounces + 1 }
      let d := { d with src := { d.src with reqs := mapFirst (fun p => p.acc.eng == o.acc.eng && p.tag == o.tag) (fun _ => o) d.src.reqs } }
      (d.windowAnswer o.acc.eng o.dest 3 0).resend o

/-! ### Ends of requests -/

/-- The request of (engine, tag) leaves the list: how it ended is kept for late answers (R486), and a write that has ended unanswered for
later reads (R129). -/
def Dev.endOut (o : OutReq) (how : Nat) (d : Dev) : Dev :=
  let gone := if how = 2 ∧ o.acc.kind.isWrite then (o.man.map (fun n => (⟨o.acc.eng, o.dest, n, o.lines⟩ : LostWrite))).toList else []
  { d with src := { d.src with
    lost := d.src.lost ++ gone
    reqs := d.src.reqs.filter (fun p => !(p.acc.eng == o.acc.eng && p.tag == o.tag))
    ended := nset d.src.ended (4096 * o.acc.eng + o.tag) how } }

/-- An answer that no outstanding request awaits is discarded and counted (R486). -/
def Dev.strayAnswer (eng tag : Nat) (d : Dev) : Dev :=
  if nget d.src.ended (4096 * eng + tag) = 1 then d.count 0xC1 2 1 else d.count 0xC1 1 1

/-- RESYNC_START (R496): new writes of the engine to the node wait; one procedure at a time. -/
def Dev.resyncStart (eng dest : Nat) (d : Dev) : Dev :=
  if d.src.resyncs.any (fun r => r.eng == eng && r.dest == dest) then d
  else
    let r := Resync.mk eng dest (nget d.src.rseq (pairKey eng dest) + 1) false 0
    { d with src := { d.src with resyncs := d.src.resyncs ++ [r] } }.count 0xC1 5 1

/-- What the end of a request with `status` means for its pair (R496). -/
def Dev.resyncIf (o : OutReq) (status : Nat) (d : Dev) : Dev :=
  if o.acc.kind.isWrite ∧ (status = sOrderBroken ∨ status = sTimeout ∨ status = sNodeLost) then d.resyncStart o.acc.eng o.dest
  else d

def Dev.setResync (eng dest : Nat) (f : Resync → Resync) (d : Dev) : Dev :=
  { d with src := { d.src with resyncs := mapFirst (fun r => r.eng == eng && r.dest == dest) f d.src.resyncs } }

/-- ORDER_RESYNC goes out in the CTRL class. -/
def Dev.sendResync (r : Resync) (d : Dev) : Dev :=
  (d.setResync r.eng r.dest (fun r => { r with sent := true, sentAt := d.tim.tide })).ctrl r.dest (.orderResync r.eng r.rseq)

/-- RESYNC_DRAIN_DONE (R496): every write already sent is answered or timed out. -/
def Dev.resyncDrained (eng dest : Nat) (d : Dev) : Dev :=
  match d.src.resyncs.find? (fun r => r.eng == eng && r.dest == dest) with
  | none => d
  | some r =>
    if r.sent ∨ d.unacked eng dest ≠ 0 then d
    else { d with src := { d.src with rseq := nset d.src.rseq (pairKey eng dest) r.rseq } }.sendResync r

/-- ORDER_RESYNC_RETRY: RETX_US passed without the answer (R496). -/
def Dev.resyncRetry (eng dest : Nat) (d : Dev) : Dev :=
  match d.src.resyncs.find? (fun r => r.eng == eng && r.dest == dest) with
  | none => d
  | some r => if r.sent ∧ r.sentAt + us (d.rd F.RCV_RETX_RETX_US) ≤ d.tim.tide then d.sendResync r else d

/-- A message that names no earlier write any more. -/
def Emit.noAfter : Emit → Emit
  | .req r => .req { r with hdr := { r.hdr with after := 0, av := false } }
  | e => e

/-- ORDER_RESYNC_DONE with the RSEQ awaited (R496): the manifest counter starts at 0 and the held writes go. No read that is sent again names
a manifest number from before (R620). -/
def Dev.resyncDone (eng dest rseq : Nat) (d : Dev) : Dev :=
  match d.src.resyncs.find? (fun r => r.eng == eng && r.dest == dest) with
  | none => d
  | some r =>
    if r.sent ∧ r.rseq = rseq then
      { d with src := { d.src with
        resyncs := d.src.resyncs.filter (fun r => !(r.eng == eng && r.dest == dest))
        lost := d.src.lost.filter (fun w => !(w.eng == eng && w.dest == dest))
        reqs := d.src.reqs.map (fun (p : OutReq) => if p.acc.eng = eng ∧ p.dest = dest then { p with msg := p.msg.noAfter } else p)
        mani := nset d.src.mani (pairKey eng dest) 0 } }.pumpSrc
    else d

/-! ### Protection-engine traffic (R126, R206, R217, R412, R515) -/

/-- A message of the home atomic unit, SRC_ENGINE 0x05: `isW` gives it a manifest number. -/
def Dev.protSend (dest : Nat) (isW : Bool) (p : Purpose) (msg : Emit) (d : Dev) : Dev :=
  let r := d.newId
  let a : Acc := { id := r.1, eng := 5, ctx := 0, landing := 0, ticket := d.ticket, kind := if isW then .write else .read, purpose := p }
  r.2.issue { acc := a, msg := msg, dest := dest, tag := 0, man := none, bytes := 0, lines := [], firstAt := 0, sentAt := 0, bounces := 0 }

/-- The protection request with this purpose has its answer (R486). -/
def Dev.protEnded (p : Purpose) (d : Dev) : Dev :=
  match d.src.reqs.find? (fun o => o.acc.eng == 5 && o.acc.purpose == p) with
  | some o => (d.endOut o 1).pumpSrc
  | none => d

end Sys2Proof.Machine
end

