-- ==== Sys2Proof/Machine/Home.lean ====
section
/-!
DEFINITION. The home agent, stages 1 to 3 of R177: the node IDs it serves (R220, R225), the grant check (R64–R68), the
order table (R136–R139, R619, R620, R495), in-flight counters (R119), the sampler (R187, R188) and responses.
-/
namespace Sys2Proof.Machine

/-! ### The node IDs served (R18, R220, R225) -/

/-- How a node ID is served: as the package's own, as stand-in from COPY extents, or as the spare that took over. -/
inductive Served where
  | own | stand | spare
  deriving DecidableEq, Repr

/-- How node ID `n` is served here, if at all: as the own one, or as one of the aliases (R138). -/
def Dev.serves (d : Dev) (n : Nat) : Option Served :=
  if n = d.node then some .own
  else (d.home.aliases.find? (fun a => a.1 == n)).map (fun a => if a.2 then .stand else .spare)

/-- ALIAS_NODE and ALIAS_EN show the alias taken last (DESIGN CHOICE, log entry 69: R230 has room for one, R138 for two). -/
def Dev.showAlias (d : Dev) : Dev :=
  match d.home.aliases.getLast? with
  | some a => (d.wr F.PROT_CFG_ALIAS_NODE a.1).wr F.PROT_CFG_ALIAS_EN 1
  | none => (d.wr F.PROT_CFG_ALIAS_EN 0).wr F.PROT_CFG_ALIAS_NODE 0

/-- Node ID `n` is served from now on (R220, R225). -/
def Dev.addAlias (n : Nat) (stand : Bool) (d : Dev) : Dev :=
  { d with home := { d.home with aliases := d.home.aliases ++ [(n, stand)] } }.showAlias

/-- Node ID `n` is an alias no longer: its order table goes. -/
def Dev.dropAlias (n : Nat) (d : Dev) : Dev :=
  { d with home := { d.home with
    aliases := d.home.aliases.filter (fun a => a.1 != n), ord := tdrop (fun k => k / 8192 == 1 + n) d.home.ord } }.showAlias

/-- How a pool request to node ID `n` is homed here: a spare homes nothing of its own (R222). -/
def Dev.homes (d : Dev) (n : Nat) : Option Served := if n = d.node ∧ d.rd F.PROT_CFG_ROLE = 1 then none else d.serves n

/-- Node `n` is served from COPY extents and reconstruction. -/
def Dev.stands (d : Dev) (n : Nat) : Bool := d.serves n == some .stand

/-- The shadow this package keeps for ward `n` (R218). -/
def Dev.shadow (d : Dev) (n : Nat) : Shadow := ((d.home.shadows.find? (fun s => s.ward == n)).getD { ward := n })

/-- The COPY extent that holds ward `n`'s extent `k` (R197). -/
def Dev.copyOf (d : Dev) (n k : Nat) : Option Nat :=
  (d.home.prot.find? (fun e => e.2.mode == 4 && e.2.peerNode == n && e.2.peerExt == k)).map (·.1)

/-- Bytes of a line of the copy of ward `n`'s metadata (R215, R220). -/
def Pkg.wardLine (x : Pkg) (n i : Nat) : List Byte :=
  match x.2.copyOf n 3072 with
  | some c => x.plain (extBase c / 64 + i) (.metadata (extBase c / 64 + i))
  | none => List.replicate 64 0

/-- The extent-table entry `k` of served node `n`. -/
def Pkg.extOf (x : Pkg) (n k : Nat) : ExtEnt :=
  if x.2.stands n then
    extOfLines (x.wardLine n (5 * k)) (x.wardLine n (5 * k + 1)) (x.wardLine n (5 * k + 2)) (x.wardLine n (5 * k + 3))
      (x.wardLine n (5 * k + 4))
  else x.2.ext k

/-- The region descriptor `r` of served node `n`. -/
def Pkg.regionOf (x : Pkg) (n r : Nat) : Region :=
  if x.2.stands n then regionOfLines (x.wardLine n (16384 + 2 * r)) (x.wardLine n (16384 + 2 * r + 1)) else x.2.region r

/-- Region descriptor `r` of served node `n` written. -/
def Pkg.setRegionOf (x : Pkg) (n r : Nat) (e : Region) : Pkg :=
  if x.2.stands n then
    match x.2.copyOf n 3072 with
    | some c =>
      let l := extBase c / 64 + 16384 + 2 * r
      x.writeLine l (regionLine e 0) (.metadata l)
    | none => x
  else (x.1, x.2.setRegion r e)

/-- The protection-table entry `k` of served node `n` (R221). -/
def Dev.protOf (d : Dev) (n k : Nat) : ProtEnt :=
  if d.stands n then tget (fun _ => {}) (d.shadow n).prot k else d.prot k

/-- Where GPA line `l` of served node `n` lies in this package: nowhere for a lost member's stripe (R221). -/
def Dev.physOf (d : Dev) (n l : Nat) : Option Nat :=
  if d.stands n then
    let g := l * 64
    if (d.protOf n (gpaExt g)).mode = 1 then none
    else (d.copyOf n (gpaExt g)).map (fun c => (extBase c + gpaOff g) / 64)
  else some (l % 2 ^ 39)

/-- Key of an in-flight counter (R119). -/
def Dev.inflKey (d : Dev) (n k : Nat) : Nat := if d.stands n then 4096 * (1 + n) + k else k

def Dev.inflAdd (d : Dev) (n k : Nat) : Dev :=
  { d with home := { d.home with infl := nset d.home.infl (d.inflKey n k) (nget d.home.infl (d.inflKey n k) + 1) } }

def Dev.inflSub (d : Dev) (n k : Nat) : Dev :=
  { d with home := { d.home with infl := nset d.home.infl (d.inflKey n k) (nget d.home.infl (d.inflKey n k) - 1) } }

/-- Requests admitted and not finished (R179, R524). -/
def Dev.inflSum (d : Dev) : Nat := (d.home.infl.map (·.2)).sum

/-- The home is at work: READY reached (R586), not quiesced or disabled (R604). -/
def Dev.homeOn (d : Dev) : Bool := d.booted && d.takes 0x28

/-- The home takes requests: it is at work, with fewer than 16,384 in hand (R179). -/
def Dev.homeTakes (d : Dev) : Bool := d.homeOn && decide (d.inflSum < 16384)

/-- Channel-1 requests in hand (R412): parity deltas, mirror writes, journal messages and RC_READs. -/
def Dev.chan1Held (d : Dev) : Nat :=
  d.home.queue.countP (fun i => match i with
    | .rc _ => true
    | .prot o => o.kind.chan1
    | _ => false)
  + d.home.ops.countP (fun o => o.kind.chan1)

/-- The home takes channel-1 requests, for which it holds 1,024 entries of their own (R412). -/
def Dev.chan1Takes (d : Dev) : Bool := d.homeOn && decide (d.chan1Held < 1024)

/-- What waits at the boundary came in channel 1 (R412). -/
def HArr.chan1 : HArr → Bool
  | .write _ (.delta _) | .write _ (.mirror _) | .write _ (.journal _) | .rc _ => true
  | _ => false

/-- A request that arrives now is taken: no other waits before it at the boundary. -/
def Dev.homeOpen (d : Dev) : Bool := d.homeTakes && d.home.gate.isEmpty

/-- A channel-1 request that arrives now is taken: it passes what waits there of channel 0 (R412). -/
def Dev.chan1Open (d : Dev) : Bool := d.chan1Takes && !d.home.gate.any HArr.chan1

/-- A request waits at the home's boundary (R50, R179, R604). -/
def Dev.homeGate (a : HArr) (d : Dev) : Dev := { d with home := { d.home with gate := d.home.gate ++ [a] } }

/-- Nothing waits for the home, and it takes whatever comes. -/
def Dev.homeIdle (d : Dev) : Bool := d.homeTakes && d.chan1Takes && d.home.gate.isEmpty && d.home.recons.isEmpty

/-! ### Responses and refusals (R66, R67, R427, R482) -/

/-- A response or acknowledgement to the sender of `h` (R446): its TAG, its CMARK as ECHO (R427). None goes to a node outside the domain
(R32). -/
def Dev.respond (d : Dev) (h : Hdr) (status : Nat) (data : List Byte) : Dev :=
  let a : Hdr := { dest := h.srcNode, srcNode := d.node, srcEngine := h.srcEngine, cls := 1, channel := 0,
                   len := 1 + ceilDiv data.length 16, epoch := d.epochNow, echo := h.cmark, ticket := h.ticket,
                   dstPort := enginePort h.srcEngine, opcode := h.opcode, reqLanding := h.reqLanding, status := status, tag := h.tag }
  d.emitTo h.srcNode (.rsp a data)

/-- A status other than OK that the home gives a request is captured (R482, R489): `addr` its GPA, or the ADDR operand of a region
request. -/
def Dev.homeStatus (d : Dev) (status addr src : Nat) : Dev :=
  d.capture 0x28 .request status 5 0x3F (addr % 2 ^ 57 + src % 128 * 2 ^ 57)

/-- A refused request is counted and captured. -/
def Dev.homeRefused (d : Dev) (status addr src : Nat) : Dev := (d.count 0x28 1 1).homeStatus status addr src

/-- The ticket check of R67 and R516: ticket 0 matches nothing (R514). -/
def Dev.ticketOk (d : Dev) (t : Nat) : Bool := t != 0 && t == d.ticket

/-- A request of the home itself or of the management core of this package (R64). -/
def Dev.ownSystem (d : Dev) (h : Hdr) : Bool := h.srcNode == d.node && (h.srcEngine == 5 || h.srcEngine == 0x38)

/-- The bitmap of the right that an operation needs (R66). -/
def rightMap (k : AKind) (bm : Bitmaps) : Nat :=
  match k with
  | .write | .migWrite => bm.write
  | .atomic => bm.atomic
  | .reduce => bm.reduce
  | _ => bm.read

/-- The grant check (R64, R67) of a request to `gpa` at served node `n`: its status, and the counts it makes. -/
def Pkg.grantCheck (x : Pkg) (n : Nat) (h : Hdr) (k : AKind) (gpa : Nat) : Nat × Dev :=
  let d := x.2
  let e := x.extOf n (gpaExt gpa)
  if !gpaOk gpa then (sRights, d)
  else if k.isWrite ∧ isTableLine (gpa / 64 % 2 ^ 39) then (sRights, d)
  else if e.state = 3 ∧ d.ownSystem h then (sOk, d)
  else if !d.ticketOk h.ticket then (sRights, d.count 0x28 2 1)
  else if k = .table then (if e.state = 3 then sOk else sRights, d)
  else if e.state = 2 then
    (sRevoked, { d with home := { d.home with
      refused := nset d.home.refused (gpaExt gpa) (satAdd 32 (nget d.home.refused (gpaExt gpa)) 1) } })
  else if e.state ≠ 1 then (sRights, d)
  else (if bit (rightMap k e.bm) h.reqLanding then sOk else sRights, d)

/-- The rules that refuse an atomic or reduce-write before admission (R148, R182): the CODE and DETAIL, if broken. -/
def ruleBroken (r : Req) (k : AKind) : Option (Nat × Nat) :=
  let gpa := r.opd.addr % 2 ^ 52
  match k with
  | .atomic =>
    if atomicOk r.opd.aop (opdLen r.opd) gpa then none
    else some (0x11, gpa + r.opd.aop % 16 * 2 ^ 52 + opdLen r.opd % 32 * 2 ^ 56)
  | .reduce =>
    if reduceOk r.opd.mfmt r.opd.cfmt (opdLen r.opd) gpa then none else some (0x10, gpa + r.opd.mfmt % 256 * 2 ^ 52)
  | _ => none

/-! ### Sampling (R187–R191) -/

/-- A value drawn uniformly from [1, 2N − 1] (R188). -/
def Dev.drawCountdown (d : Dev) (k : Nat) : Nat × Dev :=
  let n := 2 ^ (if k < 3072 then d.home.logN.1 else d.home.logN.2)
  let r := d.draw
  (1 + r.1 % (2 * n - 1), r.2)

/-- An admitted request of extent `k` is considered; one that brings the countdown to zero is sampled (R188). DESIGN CHOICE (log entry 58):
a countdown that nothing has loaded since reset is drawn at the first request considered; R188 gives none. -/
def Dev.sample (wr : Bool) (k page landing : Nat) (d : Dev) : Dev :=
  if d.rd F.SMP_CFG_ENABLE = 0 ∨ !d.takes 0x2C then d
  else
    let c := nget d.home.cntdn k
    let r := if c = 0 then d.drawCountdown k else (c, d)
    let d := r.2
    if 1 < r.1 then { d with home := { d.home with cntdn := nset d.home.cntdn k (r.1 - 1) } }
    else
      let r := d.drawCountdown k
      let h := r.2.home
      let h := if h.smpPrev.1 = d.ns + 1 then h else { h with smpPrev := (d.ns + 1, h.rdSmp, h.wrSmp, h.lastPage, h.lastLnd) }
      let h := { h with cntdn := nset h.cntdn k r.1, lastPage := nset h.lastPage k page, lastLnd := nset h.lastLnd k landing }
      let h := if wr then { h with wrSmp := nset h.wrSmp k (satAdd 32 (nget h.wrSmp k) 1) }
        else { h with rdSmp := nset h.rdSmp k (satAdd 32 (nget h.rdSmp k) 1) }
      { r.2 with home := h }.count 0x2C 0 1

/-- The requests the sampler considers (R187, R193): loads and fills of landings, the host port's, and what ferries and arrays read and
write, program images apart. DEDUCED (log entry 58): of the ferryman's only its atomics, of the management core's none. -/
def sampled (h : Hdr) (image : Bool) : AKind → Bool
  | .read | .write | .reduce => !image && (h.srcEngine ≤ 4 || (decide (8 ≤ h.srcEngine) && decide (h.srcEngine < 0x38)))
  | .atomic => h.srcEngine != 0x38
  | _ => false

/-- Admission (R118, R119): counted in flight, and sampled. DESIGN CHOICE (log entry 58), where R188 does not say: a request served by alias
uses the countdown and the counters of its extent-table index at the lost node, which are those of the package's own extent of that index. -/
def Dev.admitted (d : Dev) (n : Nat) (h : Hdr) (image : Bool) (k : AKind) (gpa : Nat) : Dev :=
  let d := (d.inflAdd n (gpaExt gpa)).count 0x28 0 1
  if sampled h image k then d.sample k.isWrite (gpaExt gpa) (gpaOff gpa / 2 ^ 21) h.reqLanding else d

/-! ### The order table (R136, R137, R493, R495, R619, R620) -/

/-- Key of a pair in the order table that serves node `n`. -/
def Dev.ordKey (d : Dev) (n src eng : Nat) : Nat := 8192 * (if n = d.node then 0 else 1 + n) + 64 * src + eng

def Dev.ord (d : Dev) (k : Nat) : OrdEnt := tget (fun _ => {}) d.home.ord k

def Dev.setOrd (d : Dev) (k : Nat) (e : OrdEnt) : Dev := { d with home := { d.home with ord := tset (fun _ => {}) d.home.ord k e } }

/-- (a − b) mod 65,536. -/
def manDiff (a b : Nat) : Nat := (a + 65536 - b % 65536) % 65536

/-- Statuses among the last 256 manifest numbers before `expect`. -/
def keepHist (expect : Nat) (l : List (Nat × Nat)) : List (Nat × Nat) := l.filter (fun p => decide (manDiff expect (p.1 + 1) < 256))

/-- The old value that a fetch-form atomic of the pair logged (R493). -/
def Dev.fetched (d : Dev) (n src eng man : Nat) : Option FetchEnt :=
  d.home.fetchLog.find? (fun f => f.node == n && f.src == src && f.eng == eng && f.man == man)

/-- The answer to a duplicate whose original ended with `st` (R137, R493). A status that this answer is the first to give is captured; one
recorded was captured with its original (R482). -/
def Dev.answerDup (d : Dev) (n : Nat) (h : Hdr) (addr : Nat) (fetch : Bool) (st : Nat) : Dev :=
  if fetch ∧ st = sOk then
    match d.fetched n h.srcNode h.srcEngine h.manifest with
    | some f => d.respond h f.status f.old
    | none => ((d.count 0xC1 6 1).homeStatus sDataError addr h.srcNode).respond h sDataError []
  else (if st = sOrderBroken then d.homeStatus st addr h.srcNode else d).respond h st []

/-- The status of manifest number `man` of a pair is recorded (R137), and duplicates that waited for it are answered
(R619). -/
def Dev.recordStatus (d : Dev) (n src eng man st : Nat) (fetch : Bool) : Dev :=
  let k := d.ordKey n src eng
  let e := d.ord k
  let d := d.setOrd k { e with hist := keepHist e.expect ((man, st) :: e.hist), open_ := e.open_.filter (· != man) }
  let mine := fun (p : Nat × Hdr × Nat) => p.1 == n && p.2.1.srcNode == src && p.2.1.srcEngine == eng && p.2.1.manifest == man
  let d' := { d with home := { d.home with dups := d.home.dups.filter (fun p => !mine p) } }
  (d.home.dups.filter mine).foldl (fun (a : Dev) p => a.answerDup n p.2.1 p.2.2 fetch st) d'

/-- Header under which a protection-engine write is answered: SRC_ENGINE 0x05 (R126). -/
def protHdr (src tag man ticket cmark : Nat) : Hdr :=
  { dest := 0, srcNode := src, srcEngine := 5, cmark := cmark, tag := tag, manifest := man, mv := true, ticket := ticket, dstPort := 29 }

/-- The header of a write. -/
def Wr.hdr : Wr → Hdr
  | .pool r _ _ _ => r.hdr
  | .delta m => protHdr m.src m.tag m.manifest m.ticket m.cmark
  | .mirror m => protHdr m.src m.tag m.manifest m.ticket m.cmark
  | .journal m => protHdr m.src m.tag m.manifest m.ticket m.cmark
  | .rebuild m => protHdr m.src m.tag m.manifest m.ticket m.cmark

/-- The address a refusal of a write captures. -/
def Wr.addr : Wr → Nat
  | .pool r _ _ _ => r.opd.addr
  | .delta m => extGpa m.forNode m.ext m.off
  | .mirror m => extGpa m.forNode m.ext m.off
  | .journal _ | .rebuild _ => 0

/-- Whether a write is a fetch-form atomic. -/
def Wr.fetch : Wr → Bool
  | .pool r .atomic _ _ => r.opd.fetch
  | _ => false

/-- A write refused without taking its manifest number: ORDER_BROKEN, or RIGHTS at ERASING. -/
def Dev.refuseWr (d : Dev) (w : Wr) (st : Nat) : Dev :=
  (d.homeRefused st w.addr w.hdr.srcNode).respond w.hdr st []

/-- The held writes of a pair leave the reorder store refused with `st` (R139, R497, R501). -/
def Dev.refuseHeld (d : Dev) (n src eng st : Nat) : Dev :=
  let mine := fun (w : HeldWrite) => w.node == n && w.src == src && w.eng == eng
  let d' := { d with home := { d.home with store := d.home.store.filter (fun w => !mine w) } }
  (d.home.store.filter mine).foldl (fun (a : Dev) w => a.refuseWr w.wr st) d'

/-! ### Order records (R217, R218) -/

/-- The partner takes journal messages and mirror writes: PARTNER_EN, and not lost (R213, R622). -/
def Dev.partnerOn (d : Dev) : Bool := d.rd F.PROT_CFG_PARTNER_EN == 1 && !d.home.partnerLost

def Dev.partner (d : Dev) : Nat := d.rd F.PROT_CFG_PARTNER

/-- An operation template for a write. -/
def blankOp (n : Nat) (r : Req) (kind : AKind) (srcGpa gpa len k : Nat) : HOp :=
  { id := 0, kind := .write, node := n, req := r, akind := kind, srcGpa := srcGpa, gpa := gpa, len := len, ext := k,
    counted := true, ws := [], applied := false, phase := .ready, status := sOk, deltas := [], copies := 0, oldData := [] }

/-- A new operation takes the next number. -/
def Dev.addOp (d : Dev) (o : HOp) : HOp × Dev :=
  let o := { o with id := d.home.nextOp }
  (o, { d with home := { d.home with ops := d.home.ops ++ [o], nextOp := d.home.nextOp + 1 } })

/-- The order record of an operation with status `st` (R217). -/
def HOp.record (o : HOp) (st : Nat) : OrderRec := { src := o.req.hdr.srcNode, eng := o.req.hdr.srcEngine, man := o.req.hdr.manifest, status := st }

/-- Record `q` of operation `o` goes to the partner as a journal message (R217). -/
def Dev.sendRecord (o : HOp) (q : OrderRec) (d : Dev) : Dev :=
  let m : JournalMsg := { src := d.node, ward := o.node, forNode := d.partner, record := q, ticket := d.ticket, tag := 0, manifest := 0 }
  (d.protSend d.partner true (.journal o.id) (.journal d.partner m)).count 0x2B 2 1

def Dev.sendJournal (o : HOp) (st : Nat) (d : Dev) : Dev := d.sendRecord o (o.record st)

/-- A pair's change of state goes to the partner, whose shadow holds the state of each pair (R136, R218): to BROKEN, or afresh. DESIGN CHOICE
(log entry 69): as a journal message; R217 names none for it. -/
def Dev.notePair (n src eng ev : Nat) (d : Dev) : Dev :=
  let q : OrderRec := { src := src, eng := eng, man := 0, status := 0, ev := ev }
  if d.partnerOn then
    let o := d.addOp { blankOp n default .write 0 0 0 0 with kind := .note q, counted := false, phase := .journal }
    o.2.sendRecord o.1 q
  else d

/-- The pair enters BROKEN (R139, R495): captured as DEGRADED, held writes refused with ORDER_BROKEN. -/
def Dev.breakPair (d : Dev) (n src eng : Nat) : Dev :=
  let k := d.ordKey n src eng
  let e := d.ord k
  let d := d.setOrd k { e with st := .broken, holeAt := none }
  let d := d.capture 0x28 .degraded sOrderBroken 7 0x3F (src % 128 + eng % 64 * 256 + e.expect % 65536 * 65536)
  (d.refuseHeld n src eng sOrderBroken).notePair n src eng 1

/-- What stage 1 does with a write (R137, R619). -/
inductive OrderAct where
  | take | hold | drop | dupWait | dupAnswer (st : Nat) | outside | broken
  deriving DecidableEq, Repr

/-- The class of manifest number `man` of a pair (R137, R619). -/
def Dev.orderAct (d : Dev) (n src eng man : Nat) : OrderAct :=
  let e := d.ord (d.ordKey n src eng)
  let k := manDiff man e.expect
  if e.st ≠ .normal then .broken
  else if k = 0 then .take
  else if k < 256 then
    (if d.home.store.any (fun w => w.node == n && w.src == src && w.eng == eng && w.man == man) then .drop else .hold)
  else if 65280 ≤ k then
    (if e.open_.contains man then .dupWait
    else match e.hist.find? (fun p => p.1 == man) with
      | some p => .dupAnswer p.2
      | none => .dupAnswer sOrderBroken)
  else .outside

/-- An early write is stored; the first of a pair opens its hole window (R137, R495). -/
def Dev.holdEarly (d : Dev) (w : HeldWrite) : Dev :=
  let k := d.ordKey w.node w.src w.eng
  let e := d.ord k
  let e := { e with holeAt := if e.holeAt.isNone then some d.tim.tide else e.holeAt }
  let d := d.setOrd k e
  { d with home := { d.home with store := d.home.store ++ [w] } }

/-- The manifest number at EXPECT is taken: EXPECT rises, the hole window closes or restarts (R137, R495), and fetch-log
entries that EXPECT has passed by 256 are freed (R493). -/
def Dev.takeMan (d : Dev) (n src eng : Nat) : Dev :=
  let k := d.ordKey n src eng
  let e := d.ord k
  let x := (e.expect + 1) % 65536
  let more := d.home.store.any (fun w => w.node == n && w.src == src && w.eng == eng && w.man != e.expect)
  let d := d.setOrd k { e with
    expect := x, open_ := e.open_ ++ [e.expect], hist := keepHist x e.hist, holeAt := if more then some d.tim.tide else none }
  { d with home := { d.home with
    fetchLog := d.home.fetchLog.filter (fun f => !(f.node == n && f.src == src && f.eng == eng) || decide (manDiff x (f.man + 1) < 256))
    store := d.home.store.filter (fun w => !(w.node == n && w.src == src && w.eng == eng && w.man == e.expect)) } }

/-- A fetch-form atomic's old value is logged; a full log loses its oldest entry (R493). -/
def Dev.logFetch (d : Dev) (f : FetchEnt) : Dev :=
  let l := if d.home.fetchLog.length < 65536 then d.home.fetchLog else d.home.fetchLog.tail
  { d with home := { d.home with fetchLog := l ++ [f] } }

/-- How far a read's AFTER is (R620): `none` it may go on, `some false` it waits, `some true` it is answered
ORDER_BROKEN. -/
def Dev.afterHold (d : Dev) (n : Nat) (h : Hdr) : Option Bool :=
  if h.av then
    let e := d.ord (d.ordKey n h.srcNode h.srcEngine)
    if e.st ≠ .normal then some true
    else if manDiff h.after e.expect < 256 ∨ e.open_.contains h.after then some false
    else none
  else none

/-! ### Shadows of wards (R217, R218, R225) -/

/-- An order record reaches an order-table entry: EXPECT rises past its manifest number, whose status is recorded; or the pair's state
changes. -/
def OrdEnt.noted (e : OrdEnt) (q : OrderRec) : OrdEnt :=
  match q.ev with
  | 0 =>
    let x := if manDiff (q.man + 1) e.expect < 32768 then (q.man + 1) % 65536 else e.expect
    { e with expect := x, hist := keepHist x ((q.man, q.status) :: e.hist) }
  | 1 => { e with st := .broken }
  | _ => {}

/-- An order record enters the shadow of a ward (R217, R218). -/
def Shadow.record (s : Shadow) (q : OrderRec) : Shadow :=
  let k := 64 * q.src + q.eng
  { s with ord := tset (fun _ => {}) s.ord k ((tget (fun _ => {}) s.ord k).noted q) }

/-- A package keeps a shadow for each of up to two wards (R218). -/
def Dev.shadowRoom (d : Dev) (n : Nat) : Bool := d.home.shadows.any (fun s => s.ward == n) || decide (d.home.shadows.length < 2)

def Dev.setShadow (d : Dev) (n : Nat) (f : Shadow → Shadow) : Dev :=
  let l := if d.home.shadows.any (fun s => s.ward == n) then d.home.shadows else d.home.shadows ++ [{ ward := n }]
  { d with home := { d.home with shadows := l.map (fun s => if s.ward = n then f s else s) } }

end Sys2Proof.Machine
end

