-- ==== Sys2Proof/Machine/Protect.lean ====
section
/-!
DEFINITION. The home agent, stages 4 to 6 of R177, with the protection step of each class (R181–R186, R195–R230):
forming the new lines, journal, mirror writes and deltas, reconstruction, performing a write, and the queue of accesses
that wait behind a line hazard.
-/
namespace Sys2Proof.Machine

/-! ### The protection engine's view of its group and partner -/

/-- Node ID at a position of the parity group (R201). -/
def Dev.member (d : Dev) (p : Nat) : Nat :=
  match p with
  | 0 => d.rd F.PROT_MEMBERS0_M0
  | 1 => d.rd F.PROT_MEMBERS0_M1
  | 2 => d.rd F.PROT_MEMBERS0_M2
  | 3 => d.rd F.PROT_MEMBERS0_M3
  | 4 => d.rd F.PROT_MEMBERS1_M4
  | 5 => d.rd F.PROT_MEMBERS1_M5
  | 6 => d.rd F.PROT_MEMBERS1_M6
  | 7 => d.rd F.PROT_MEMBERS1_M7
  | _ => d.rd F.PROT_MEMBERS2_M8

/-- Position of a node in the group, if the package has one. -/
def Dev.positionOf (d : Dev) (n : Nat) : Option Nat :=
  if d.rd F.PROT_GROUP_GROUP_EN = 1 then (List.range 9).find? (fun p => d.member p == n) else none

/-- Node ID at position `p` of the parity group of served node `n`: a stand-in outside its ward's group knows it in a way that the spec
leaves open (R201, R221; log entry 61). -/
def Dev.groupOf (d : Dev) (n p : Nat) : Nat :=
  if n = d.node ∨ (d.positionOf n).isSome then d.member p else Config.groupMember n p % 128

/-- The position a served node holds in its group. -/
def Dev.ownPosition (d : Dev) (n : Nat) : Nat :=
  if n = d.node then d.rd F.PROT_GROUP_POSITION else (d.positionOf n).getD (Config.groupPosition n % 9)

/-- Node `m` is a member of the parity group of served node `n` (R204). -/
def Dev.inGroup (d : Dev) (n m : Nat) : Bool :=
  if n = d.node then (d.positionOf m).isSome else (List.range 9).any (fun p => d.groupOf n p == m)

/-- Position `p` of node `n`'s group is known to be lost (R209, R219): by PROT_GROUP, or for another group by RCV_LOST. -/
def Dev.positionLost (d : Dev) (n p : Nat) : Bool :=
  if n = d.node ∨ (d.positionOf n).isSome then bit (d.rd F.PROT_GROUP_LOST) p
  else bit (d.rdi F.RCV_LOST_LOST (d.groupOf n p / 32)) (d.groupOf n p % 32)

/-- One event sets DEGRADED on the extents listed: BLK_ISR bit 2 and one capture if it sets any (R623). -/
def Dev.degrade (ks : List Nat) (code detail : Nat) (first : Nat → Nat) (d : Dev) : Dev :=
  let new := ks.filter (fun k => !(d.prot k).degraded)
  match new with
  | [] => d
  | k :: _ =>
    let d := new.foldl (fun (d : Dev) k => d.setProt k { d.prot k with degraded := true }) d
    (d.event 0x2B 2).capture 0x2B .degraded 0 code 0x3F (detail + first k)

/-- The extents of a protection mode, in table order. -/
def Dev.extsOfMode (d : Dev) (p : ProtEnt → Bool) : List Nat := (d.home.prot.filter (fun e => p e.2)).map (·.1)

/-- Node `n` is lost to the protection engine (R207, R213, R219, R622): its group bit, the extents that relied on it,
the partner. -/
def Dev.peerLost (n : Nat) (d : Dev) : Dev :=
  let pos := d.positionOf n
  let d := match pos with
    | some p => d.wr F.PROT_GROUP_LOST (putBit (d.rd F.PROT_GROUP_LOST) p true)
    | none => d
  let isPartner := d.rd F.PROT_CFG_PARTNER_EN == 1 && d.partner == n
  let d := if isPartner then { d with home := { d.home with partnerLost := true } } else d
  let ks := d.extsOfMode (fun e => (isPartner && e.mode == 3) || (e.mode == 1 && pos == some e.holder))
  d.degrade ks 0x13 (n % 128) (fun k => k % 4096 * 65536)

/-- A line enters the stale-line log; a full log degrades its extent (R207, R213). -/
def Dev.staleAdd (l : Nat) (d : Dev) : Dev :=
  if d.home.stale.contains l then d
  else if d.home.stale.length < 1024 then { d with home := { d.home with stale := d.home.stale ++ [l] } }
  else d.degrade [gpaExt (l * 64)] 0x12 0 (fun k => k % 4096)

def Dev.staleDrop (l : Nat) (d : Dev) : Dev := { d with home := { d.home with stale := d.home.stale.filter (· != l) } }

/-! ### Operations in hand -/

def Dev.opOf (d : Dev) (id : Nat) : Option HOp := d.home.ops.find? (fun o => o.id == id)

def Dev.setOp (d : Dev) (o : HOp) : Dev :=
  { d with home := { d.home with ops := mapFirst (fun p => p.id == o.id) (fun _ => o) d.home.ops } }

def Dev.dropOp (d : Dev) (id : Nat) : Dev := { d with home := { d.home with ops := d.home.ops.filter (fun p => p.id != id) } }

/-- The ciphertext, or plaintext metadata, of a line to be written (R211, R215). -/
def LineW.wire (w : LineW) : List Byte :=
  match w.key with
  | some k => encLine k.1 k.2 w.bytes
  | none => w.bytes

/-- The cover under which a line is written that this package stores as its line `p` (R184, R186). -/
def LineW.cover (w : LineW) (p : Nat) : Cover :=
  if w.metadata then .metadata p
  else match w.key with
    | some k => .key k.1 k.2
    | none => .raw

/-- Line `w` reaches the tier. -/
def Pkg.applyLine (w : LineW) (x : Pkg) : Pkg :=
  match w.phys with
  | some p => x.writeLine p w.bytes (w.cover p)
  | none => x

def Pkg.applyLines (ws : List LineW) (x : Pkg) : Pkg := ws.foldl (fun x w => x.applyLine w) x

/-- Byte offset of a GPA line within its extent. -/
def lineOff (l : Nat) : Nat := gpaOff (l * 64)

/-! ### Sending protection traffic (R204–R206, R211, R217) -/

def Dev.sendMirror (o : HOp) (copyExt off : Nat) (bytes : List Byte) (rec? : Option OrderRec) (d : Dev) : Dev :=
  let m : MirrorMsg := { src := d.node, ward := o.node, forNode := d.partner, ext := copyExt, wardExt := o.ext, off := off, bytes := bytes, ticket := d.ticket, record := rec?, tag := 0, manifest := 0 }
  (d.protSend d.partner true (.mirrorCopy o.id) (.mirror d.partner m)).count 0x2B 1 1

def Dev.sendDelta (o : HOp) (holder : Nat) (w : LineW) (d : Dev) : Dev :=
  let m : DeltaMsg := { src := d.node, member := o.node, forNode := holder, ext := o.ext, off := lineOff w.line, bytes := xorBytes (w.old.getD []) w.wire, ticket := d.ticket, tag := 0, manifest := 0 }
  (d.protSend holder true (.delta o.id w.line) (.delta holder m)).count 0x2B 0 1

/-- A rebuild copy or forwarded item for package `dest`: node it is of, recovery generation (R126, R223). -/
def Dev.sendRebuild (dest node gen : Nat) (i : RebuildItem) (p : Purpose) (d : Dev) : Dev :=
  d.protSend dest true p (.rebuild dest { src := d.node, node := node, gen := gen, item := i, ticket := d.ticket, tag := 0, manifest := 0 })

/-- A write at the stand-in to a line that the takeover has already sent goes to the spare too (R224). -/
def Dev.rebuildSent (d : Dev) (k off : Nat) (p : ProtEnt) (system : Bool) : Option Rebuild :=
  match d.home.rebuild with
  | some r =>
    if 5 ≤ r.phase ∨ system ∨ (p.mode = 3 ∧ 2 ≤ r.phase) then some r
    else if p.mode = 1 ∧ (4 ≤ r.phase ∨ (r.phase = 3 ∧ (!r.todo.contains k ∨ (r.todo.head? = some k ∧ off < r.next)))) then some r
    else none
  | none => none

/-- The deltas of a bulk-class write, or none where the extent is degraded (R205, R207). DESIGN CHOICE (log entry 58): R207 says that no
later write of the extent sends a delta for NODE_LOST; the model says so for a full stale-line log too. -/
def Dev.startDeltas (o : HOp) (d : Dev) : Dev :=
  let p := d.protOf o.node o.ext
  if (p.degraded ∧ !d.home.resumed.contains p.holder) ∨ o.ws.isEmpty then d.setOp { o with phase := .ready, deltas := [] }
  else
    let d := d.setOp { o with phase := .protect, deltas := o.ws.map (·.line) }
    o.ws.foldl (fun (d : Dev) w => d.sendDelta o (d.groupOf o.node p.holder) w) d

/-- Stage 5 once the order record is with the partner, or none is needed (R205, R221, R622). -/
def Dev.pastJournal (o : HOp) (d : Dev) : Dev :=
  if (d.protOf o.node o.ext).mode = 1 ∧ o.kind ≠ .scrub then d.startDeltas o else d.setOp { o with phase := .ready }

/-- Phase 5 at this ward has sent extent `k` to its new partner (R224, R226). -/
def Dev.wardSent (d : Dev) (k : Nat) : Bool := d.home.wardRun.any (fun w => w.sent.contains k)

/-- Whether extent `k` of served node `n` is mirrored to the partner (R195, R211, R214), and where; in phase 5 from when it has been sent. -/
def Dev.mirrorExt (d : Dev) (n k : Nat) : Option Nat :=
  let p := d.protOf n k
  if !d.partnerOn ∨ d.stands n then none
  else if k = 3072 then some (3072 + d.rd F.PROT_CFG_META_COPY)
  else if p.mode = 3 ∧ (!p.degraded ∨ d.wardSent k) then some p.peerExt
  else none

/-- Stage 5 of an operation whose new lines are formed (R205, R211, R214, R217, R221). -/
def Pkg.protect (o : HOp) (x : Pkg) : Pkg :=
  let d := x.2
  let rec? := if o.akind.isWrite ∧ o.kind = .write then some (o.record o.status) else none
  match d.mirrorExt o.node o.ext, o.ws with
  | some c, w :: _ =>
    let x := x.applyLines o.ws
    x.dev (fun d => (d.setOp { o with phase := .protect, applied := true, copies := 1 }).sendMirror o c (lineOff w.line)
      (o.ws.flatMap (fun w => if w.metadata then w.bytes else w.wire)) rec?)
  | _, _ =>
    if d.partnerOn ∧ rec?.isSome then (x.1, (d.setOp { o with phase := .journal }).sendJournal o o.status)
    else (x.1, d.pastJournal o)

/-- The lines of an operation as they cross to another package. -/
def HOp.wire (o : HOp) : List Byte := o.ws.flatMap (fun w => if w.metadata then w.bytes else w.wire)

/-- Where a stand-in's operation must still be sent: to the spare that has its lines already (R224). A refused write takes its order record
there (R225), and a delta its bytes. -/
def Pkg.forwardTo (o : HOp) (x : Pkg) : Option Rebuild :=
  if o.fwd || !x.2.stands o.node then none
  else match o.kind, o.ws with
    | .refused, _ | .deltaIn _ _, _ => x.2.home.rebuild
    | _, [] => none
    | _, w :: _ => x.2.rebuildSent o.ext (lineOff w.line) (x.2.protOf o.node o.ext) ((x.extOf o.node o.ext).state == 3)

/-- What a forwarded operation carries. -/
def HOp.item (o : HOp) : RebuildItem :=
  let off := lineOff ((o.ws.head?.map (·.line)).getD 0)
  match o.kind with
  | .deltaIn k off => .parity k off o.req.data (some (o.record o.status))
  | .refused => .forwarded o.id o.ext off [] (some (o.record o.status))
  | .write => .forwarded o.id o.ext off o.wire (some (o.record o.status))
  | _ => .forwarded o.id o.ext off o.wire none

/-- Operation `o` is forwarded to the spare with its order record (R224, R225). -/
def Dev.forward (o : HOp) (r : Rebuild) (d : Dev) : Dev :=
  (d.setOp { o with phase := .protect, copies := 1, fwd := true }).sendRebuild r.spare o.node r.gen o.item (.mirrorCopy o.id)

/-! ### Rebuild copies (R126, R207, R223–R226) -/

/-- A line of the metadata tables arrives: the part of the entry that it holds. -/
def Dev.setTableLine (i : Nat) (v : List Byte) (d : Dev) : Dev :=
  if i < 16160 then
    let e := d.ext (i / 5)
    let n := leNat v
    d.setExt (i / 5) (match i % 5 with
      | 0 => { e with state := bits n 0 3, region := bits n 8 20, gen := bits n 32 16 }
      | 1 => { e with bm := { e.bm with read := n } }
      | 2 => { e with bm := { e.bm with write := n } }
      | 3 => { e with bm := { e.bm with atomic := n } }
      | _ => { e with bm := { e.bm with reduce := n } })
  else if i < 16384 then d
  else
    let r := (i - 16384) / 2
    let e := d.region r
    d.setRegion r (if i % 2 = 0 then { regionOfLines v [] with publish := e.publish } else { e with publish := leNat v })

/-- Lines `ls` of extent `k` as they arrive, plaintext metadata or ciphertext; those of the two tables go into the tables. -/
def Pkg.takeLines (k : Nat) (metadata : Bool) (ls : List (Nat × List Byte)) (x : Pkg) : Pkg :=
  ls.foldl (fun (x : Pkg) p =>
    let l := extBase k / 64 + p.1 / 64
    let v := sliceBytes p.2 0 64
    if extSize k ≤ p.1 then x
    else if isTableLine l then x.dev (Dev.setTableLine (l - metaLine0) v)
    else x.writeLine l v (if metadata then .metadata l else .raw)) x

/-- The lines that an item brings: extent, byte offset of each, bytes. -/
def rebuildLines : RebuildItem → Option (Nat × List (Nat × List Byte))
  | .extent k _ ls => some (k, ls)
  | .line k off v | .parity k off v _ => some (k, [(off, v)])
  | .forwarded _ k off v _ => some (k, (List.range (v.length / 64)).map (fun i => (off + 64 * i, sliceBytes v (64 * i) 64)))
  | _ => none

/-- A forwarded order record enters the order table of node `node` (R225). -/
def Dev.noteAlias (node : Nat) (q : Option OrderRec) (d : Dev) : Dev :=
  match q with
  | some q => d.setOrd (d.ordKey node q.src q.eng) ((d.ord (d.ordKey node q.src q.eng)).noted q)
  | none => d

/-- What a package does with an item that its role lets it take (R207, R223–R226): `node` is the node it is of, `src` the sender. -/
def Pkg.takeItem (src node : Nat) (i : RebuildItem) (x : Pkg) : Pkg :=
  let ls := ((rebuildLines i).map (·.2)).getD []
  match i with
  | .extent k m _ =>
    let x := x.clearExt k
    (if k = 3072 then x.dev (fun d => { d with home := { d.home with ext := [], region := [] } }) else x).takeLines k m ls
  | .line k _ _ => x.takeLines k false ls
  | .protEntry k w => if k < 3232 then x.dev (fun d => d.setProt k { protOfWord w with degraded := (d.prot k).degraded }) else x
  | .orderEntry s e ex hist =>
    let q : OrdEnt := { expect := ex % 65536, hist := keepHist ex hist }
    if src = node then x.dev (fun d => if d.shadowRoom node then d.setShadow node (fun sh => { sh with ord := tset (fun _ => {}) sh.ord (64 * s + e) q }) else d)
    else x.dev (fun d => d.setOrd (d.ordKey node s e) q)
  | .forwarded _ k _ _ q =>
    (x.takeLines k ((x.2.ext k).state == 3) ls).dev (Dev.noteAlias node q)
  | .parity k off v q =>
    let l := extBase k / 64 + off / 64
    let x := x.dev (fun d => ((d.checkBurst false l).readFix l).noteAlias node q)
    x.writeLine l (xorBytes (x.cipher l) (sliceBytes v 0 64)) .raw
  | .phaseEnd p => x.dev (fun d => { d with home := { d.home with rebuildSeen := p } }.ctrl src (.rebuildAck p))

/-! ### Ends (R119, R127, R137, R217) -/

/-- A read or version request ends: its response, and its in-flight count. -/
def Dev.endRead (n : Nat) (r : Req) (k : Nat) (status : Nat) (data : List Byte) (d : Dev) : Dev :=
  (d.inflSub n k).respond r.hdr status data

/-- A taken write that will not be applied ends with `st`: at once, or once its record is with the partner (R217, R622) and with the spare
(R225). -/
def Dev.endUnapplied (n : Nat) (r : Req) (kind : AKind) (k st : Nat) (counted : Bool) (d : Dev) : Dev :=
  let b := { blankOp n r kind 0 r.opd.addr 0 k with kind := .refused, counted := counted, status := st, phase := .journal }
  if d.partnerOn then
    let o := d.addOp b
    o.2.sendJournal o.1 st
  else if d.stands n ∧ d.home.rebuild.isSome then
    let o := d.addOp b
    match d.home.rebuild with
    | some q => o.2.forward o.1 q
    | none => o.2
  else
    let d := d.recordStatus n r.hdr.srcNode r.hdr.srcEngine r.hdr.manifest st (kind == .atomic && r.opd.fetch)
    (if counted then d.inflSub n k else d).respond r.hdr st []

/-- The result of a command, to the registers or by message (R70, R618). -/
def Dev.commandResult (src : Option Nat) (name : String) (result gen : Nat) (d : Dev) : Dev :=
  match src with
  | some n => d.ctrl n (.result name result)
  | none =>
    let d := (d.wr F.HOME_CMD_RESULT_RESULT result).wr F.HOME_CMD_RESULT_BUSY 0
    (d.wr F.HOME_CMD_RESULT_GRANT_GEN gen).event 0x28 0

/-- The completion record of a revocation goes to its issuer (R121, R123, R618). -/
def Dev.revocationRecord (k gen refused ns : Nat) (src : Option Nat) (d : Dev) : Dev :=
  match src with
  | some n => d.ctrl n (.revocation (natLE 2 k ++ natLE 2 gen ++ natLE 4 refused ++ natLE 8 ns))
  | none =>
    let d := d.wr F.HOME_REV_STAT_PENDING (d.rd F.HOME_REV_STAT_PENDING - 1)
    let d := d.bump F.HOME_REV_STAT_DONE_COUNT 1
    let d := ((d.wri F.HOME_REV_REC_WORD 0 (k % 4096 + gen % 65536 * 65536)).wri F.HOME_REV_REC_WORD 1 refused)
    let d := (d.wri F.HOME_REV_REC_WORD 2 (ns % 2 ^ 32)).wri F.HOME_REV_REC_WORD 3 (ns / 2 ^ 32 % 2 ^ 32)
    d.event 0x28 1

/-- An operation is performed and answered (R127, R150, R153, R493); one to mirrored lines that ends with OK takes them off the stale-line
log (R213). -/
def Pkg.finishOp (o : HOp) (x : Pkg) : Pkg :=
  let x := if o.applied then x else match o.kind with
    | .deltaIn k off =>
      let l := extBase k / 64 + off / 64
      x.writeLine l (xorBytes (x.cipher l) o.req.data) .raw
    | .rebuildIn m => x.takeItem m.src m.node m.item
    | _ => x.applyLines o.ws
  let h := o.req.hdr
  x.dev (fun d =>
    let d := d.dropOp o.id
    let d := if o.counted then d.inflSub o.node o.ext else d
    let d := if o.status = sOk ∧ (d.protOf o.node o.ext).mode ≠ 1 then o.ws.foldl (fun (d : Dev) w => d.staleDrop w.line) d else d
    let fetch := o.akind == .atomic && o.req.opd.fetch
    match o.kind with
    | .write | .refused | .deltaIn _ _ | .mirrorIn _ | .rebuildIn _ =>
      let d := if fetch ∧ o.status = sOk then d.logFetch ⟨o.node, h.srcNode, h.srcEngine, h.manifest, o.status, o.oldData⟩ else d
      let d := d.recordStatus o.node h.srcNode h.srcEngine h.manifest o.status fetch
      d.respond h o.status (if fetch ∧ o.status = sOk then o.oldData else [])
    | .read | .attn .. => d
    | .command src name result gen => d.commandResult src name result gen
    | .regionPte src => d.ctrl src (.result "REGION_PTE" rDone)
    | .publish prev => d.respond h o.status (natLE 4 prev)
    | .revocation gen refused ns src => d.revocationRecord o.ext gen refused ns src
    | .scrub | .repair | .note _ => d)

/-- An operation whose order record, if it has one, is with the partner: on to the spare, or to its end (R217, R224, R225). -/
def Pkg.recorded (o : HOp) (x : Pkg) : Pkg :=
  match x.forwardTo o with
  | some r => x.dev (Dev.forward o r)
  | none => x.finishOp o

/-! ### Reconstruction (R208–R210) -/

/-- The line of position `p` is asked for, for reconstruction `id` (R208): by RC_READ, or locally where the member is this package. -/
def Dev.rcAsk (id n k off p : Nat) (parity : Bool) (d : Dev) : Dev :=
  let m := d.groupOf n p
  if m = d.node then { d with home := { d.home with queue := d.home.queue ++ [.rcOwn id p k off parity] } }
  else d.protSend m false (.rcRead id p) (.rcRead m { src := d.node, ext := k, off := off, parity := parity, ticket := d.ticket, tag := 0 })

/-- A reconstruction of line `off` of extent `k` for the member at position `m`, whose served node is `n` (R208): the line of every member
of R, a member that is this package among them. -/
def Pkg.startRecon (n k off m holder : Nat) (why : ReconFor) (x : Pkg) : Pkg :=
  let d := x.2
  let ps := (List.range 9).filter (fun p => p != m && p != holder)
  let bad := (n == d.node && d.rd F.PROT_GROUP_GROUP_EN == 0) || (List.range 9).any (fun p => p != m && d.positionLost n p)
  let id := d.home.nextOp
  let r : Recon := { id := id, node := n, ext := k, off := off, missing := m, waiting := ps, held := ps, parityDone := m == holder, acc := List.replicate 64 0, failed := bad, why := why }
  let d := { d with home := { d.home with recons := d.home.recons ++ [r], nextOp := id + 1 } }.count 0x2B 3 1
  (x.1, ps.foldl (fun (d : Dev) p => d.rcAsk id n k off p false) d)

/-- An operation some of whose lines must be rebuilt first: one reconstruction for each of those (R172, R210, R221). -/
def Pkg.reconOp (o : HOp) (x : Pkg) : Pkg :=
  let r := x.2.addOp { o with phase := .recon }
  let p := x.2.protOf o.node o.ext
  (r.1.ws.filter (fun w => w.old.isNone)).foldl (fun (x : Pkg) w => x.startRecon o.node o.ext (lineOff w.line) (x.2.ownPosition o.node) p.holder (.op r.1.id)) (x.1, r.2)

/-! ### Stage 4 (R164, R170–R173, R181–R186, R192, R199, R525) -/

/-- The GPA lines of `len` bytes at `gpa`. -/
def linesOf (gpa len : Nat) : List Nat := (List.range ((gpa + max len 1 - 1) / 64 - gpa / 64 + 1)).map (fun i => gpa / 64 + i)

/-- The key under which the home address of line `l` in an extent of state `st` is read and written: none without a
tenant key (R184, R186, R525). -/
def Pkg.lineKey (x : Pkg) (st l : Nat) : Option (Option (Nat × Nat) × Bool) :=
  if st = 1 ∨ st = 2 then x.2.sec.active.map (fun k => (some (k, l), false))
  else if st = 3 then some (none, true)
  else some (none, false)

/-- Plaintext of a line whose ciphertext is `c`. -/
def openLine (w : LineW) (c : List Byte) : List Byte :=
  match w.key with
  | some k => decLine k.1 k.2 c
  | none => c

/-- Bytes [gpa, gpa + len) out of whole lines. -/
def spanBytes (gpa len : Nat) (lines : List (List Byte)) : List Byte := sliceBytes lines.flatten (gpa % 64) len

/-- The carried data of a write, exactly as long as its operation needs (R464). -/
def payload (r : Req) (kind : AKind) : List Byte :=
  sliceBytes r.data 0 (if kind = .atomic ∧ r.opd.aop = 1 then 2 * opdLen r.opd else opdLen r.opd)

/-- The new bytes of a write's target from the old, with the old value of an atomic (R148, R182, R192). -/
def Dev.newBytes (d : Dev) (o : HOp) (old : List Byte) : List Byte × Dev :=
  let v := payload o.req o.akind
  match o.akind with
  | .atomic => (atomicBytes o.req.opd.aop old v, d)
  | .reduce =>
    let r := reduceVec o.req.opd.mfmt o.req.opd.cfmt old v d.freeCtr
    (r.1, { d with freeCtr := r.2.2 }.countEvs 0x28 3 r.2.1)
  | .migWrite =>
    match d.sec.active with
    | some k => ((List.range (o.len / 64)).flatMap (fun i => decLine k (o.srcGpa / 64 + i) (sliceBytes v (64 * i) 64)), d)
    | none => (v, d)
  | _ => (v.zipIdx.map (fun b => if o.req.holes.contains b.2 then (old[b.2]?).getD 0 else b.1), d)

/-- The operation with its new lines, formed out of the old plaintext of each (R183, R185). -/
def Dev.newLines (o : HOp) (olds : List (List Byte)) (d : Dev) : HOp × Dev :=
  let span := spanBytes o.gpa o.len olds
  let r := d.newBytes o span
  let flat := overlay olds.flatten (o.gpa % 64) r.1
  ({ o with ws := o.ws.zipIdx.map (fun p => { p.1 with bytes := sliceBytes flat (64 * p.2) 64 }), oldData := span }, r.2)

/-- New lines are formed; the operation goes on to stage 5. -/
def Pkg.formLines (o : HOp) (olds : List (List Byte)) (x : Pkg) : Pkg :=
  let r := x.2.newLines o olds
  Pkg.protect r.1 (x.1, r.2.setOp r.1)

/-- A write covers the whole of line `l`, which needs no old line (R173). -/
def coversLine (r : Req) (gpa len : Nat) (kind : AKind) (l : Nat) : Bool :=
  (kind == .write || kind == .migWrite) && decide (gpa ≤ 64 * l) && decide (64 * l + 64 ≤ gpa + len)
    && r.holes.all (fun h => decide (gpa + h < 64 * l) || decide (64 * l + 64 ≤ gpa + h))

/-- Stage 4 of an admitted write: without a key TENANT_RETIRED (R525); MODE UNSET refuses (R199); an uncorrectable old
line refuses what needs it (R173), and is rebuilt where only the delta needs it. -/
def Pkg.startWrite (n : Nat) (r : Req) (kind : AKind) (media : List Media) (srcGpa gpa len k : Nat) (hk : HKind) (x : Pkg) : Pkg :=
  let st := (x.extOf n k).state
  let p := x.2.protOf n k
  let stop := fun (x : Pkg) (status : Nat) => match hk with
    | .regionPte src => x.dev (fun d => ((d.inflSub n k).capture 0x28 .request status 5 0x3F (gpa + src % 128 * 2 ^ 57)).ctrl src (.result "REGION_PTE" rBadState))
    | _ => x.dev (Dev.endUnapplied n r kind k status true)
  match x.lineKey st (gpa / 64) with
  | none => stop (x.dev (fun d => d.homeStatus sRetired gpa r.hdr.srcNode)) sRetired
  | some _ =>
    if (st = 1 ∨ st = 2) ∧ p.mode = 0 then
      stop (x.dev (fun d => d.capture 0x2B .request sRights 0x11 0x3F (gpa % 2 ^ 52))) sRights
    else
      let ws := (linesOf gpa len).map (fun l =>
        let key := (x.lineKey st l).getD (none, false)
        LineW.mk l (x.2.physOf n l) key.1 key.2 [] none)
      let o := { blankOp n r kind srcGpa gpa len k with kind := hk, ws := ws }
      if x.2.stands n ∧ p.mode = 1 then x.reconOp o
      else
        let ps := ws.filterMap (·.phys)
        let need := (ws.filter (fun w => !coversLine r gpa len kind w.line)).filterMap (·.phys)
        let parity := p.mode == 1 && !p.degraded && x.2.rd F.PROT_GROUP_GROUP_EN == 1
        let x := x.dev (Dev.strike ps media)
        let bad := fun (l : Nat) => x.2.lineErr l == 2
        let x := x.dev (fun d => (if parity then ps else need).foldl (fun (d : Dev) l => (d.checkBurst false l).readFix l) d)
        match need.find? bad with
        | some l => stop (x.dev (fun d => d.mediaBad l 0)) sDataError
        | none =>
        let ws := ws.map (fun w => { w with old := if parity && w.phys.any bad then none else some ((w.phys.map x.cipher).getD []) })
        if parity && ps.any bad then (x.dev (fun d => (ps.filter bad).foldl (fun (d : Dev) l => d.mediaBad l 1) d)).reconOp { o with ws := ws }
        else
          let olds := ws.map (fun w => (w.phys.map (fun q => x.plain q (w.cover q))).getD (List.replicate 64 0))
          let r := x.2.addOp { o with ws := ws }
          Pkg.formLines r.1 olds (x.1, r.2)

/-- The data of a read out of its lines: ciphertext for a migration line (R192), else plaintext. -/
def Pkg.readData (x : Pkg) (n : Nat) (kind : AKind) (st gpa len : Nat) : List Byte :=
  let ls := (linesOf gpa len).map (fun l =>
    let key := (x.lineKey st l).getD (none, false)
    let w := LineW.mk l (x.2.physOf n l) key.1 key.2 [] none
    match w.phys with
    | some q => if kind = .migRead then x.cipher q else x.plain q (w.cover q)
    | none => List.replicate 64 0)
  spanBytes gpa len ls

/-- Stages 4 and 6 of a read whose hazards are clear (R164, R172, R210, R221, R484, R525). -/
def Pkg.serveRead (n : Nat) (r : Req) (kind : AKind) (media : List Media) (k : Nat) (x : Pkg) : Pkg :=
  let gpa := r.opd.addr % 2 ^ 52
  let len := opdLen r.opd
  let st := (x.extOf n k).state
  let p := x.2.protOf n k
  match x.lineKey st (gpa / 64) with
  | none => x.dev (fun d => (d.homeStatus sRetired gpa r.hdr.srcNode).endRead n r k sRetired [])
  | some _ =>
    let ws := (linesOf gpa len).map (fun l =>
      let key := (x.lineKey st l).getD (none, false)
      LineW.mk l (x.2.physOf n l) key.1 key.2 [] none)
    let o := { blankOp n r kind 0 gpa len k with kind := .read, ws := ws }
    if x.2.stands n ∧ p.mode = 1 then x.reconOp o
    else
      let part := fun (w : LineW) => spanWords gpa len w.line
      let here := ws.filterMap (fun w => w.phys.map (fun p => (p, part w)))
      let ps := ws.filterMap (·.phys)
      let x := x.dev (fun d => here.foldl (fun (d : Dev) p => (d.checkBurst false p.1).readPart p.1 p.2) (d.strike ps media))
      let hit := here.filter (fun p => x.2.partErr p.1 p.2 == 2)
      let bad := fun (l : Nat) => x.2.lineErr l == 2
      if !hit.isEmpty then
        let y := x.dev (fun d => hit.foldl (fun (d : Dev) p => d.badPart p.1 p.2 0) d)
        if p.mode = 1 ∧ ps.all (fun l => decide (l < metaLine0)) ∧ !x.2.stands n then
          y.reconOp { o with ws := ws.map (fun w => { w with old := if w.phys.any bad then none else some ((w.phys.map x.cipher).getD []) }) }
        else y.dev (fun d => let b := d.freeBytes len; b.2.endRead n r k sDataError b.1)
      else x.dev (Dev.endRead n r k sOk (x.readData n kind st gpa len))

/-! ### The queue behind the line hazards (R127, R129, R180, R208, R620) -/

/-- The GPA lines an item names, and whether it holds later accesses to them. -/
def HItem.lines (d : Dev) : HItem → List Nat
  | .write _ _ _ _ _ gpa len _ => linesOf gpa len
  | .read _ r _ _ _ => linesOf (r.opd.addr % 2 ^ 52) (opdLen r.opd)
  | .rc m => [extGpa d.node m.ext m.off / 64]
  | .pte _ _ _ gpa _ _ => linesOf gpa 8
  | .prot o => o.ws.map (·.line)
  | .rcOwn _ _ k off _ => [extGpa d.node k off / 64]
  | .page _ _ _ _ _ gpa len => linesOf gpa len

def HItem.holds : HItem → Bool
  | .read .. | .page .. => false
  | .rc m => !m.parity
  | .rcOwn _ _ _ _ parity => !parity
  | _ => true

/-- Served node and write flag of an item. -/
def HItem.node (d : Dev) : HItem → Nat
  | .write n .. => n
  | .read n .. => n
  | .rc _ => d.node
  | .pte _ n .. => n
  | .prot o => o.node
  | .rcOwn .. => d.node
  | .page _ _ _ _ n .. => n

def HItem.isRead : HItem → Bool
  | .read .. | .page .. => true
  | .rc m => m.parity
  | .rcOwn _ _ _ _ parity => parity
  | _ => false

/-- The reconstruction of this package's own that an item belongs to. -/
def HItem.recon : HItem → Option Nat
  | .rcOwn id .. => some id
  | _ => none

/-- A page of an attention group waits for the array that reads it. -/
def HItem.isPage : HItem → Bool
  | .page .. => true
  | _ => false

/-- Protection traffic, which no reconstruction holds up (R208). -/
def HItem.isProt : HItem → Bool
  | .prot _ => true
  | _ => false

/-- A read whose lines are being rebuilt. -/
def HKind.reads : HKind → Bool
  | .read | .attn .. => true
  | _ => false

/-- Lines that operations in hand hold: a read being rebuilt holds only writes. -/
def Dev.opLines (d : Dev) (forRead : Bool) : List Nat :=
  (d.home.ops.filter (fun o => !(forRead && o.kind.reads))).flatMap (fun o => o.ws.map (·.line))

/-- Lines that survivors' holds and reconstructions keep from writes (R208), reconstruction `but` apart. -/
def Dev.rcLines (d : Dev) (but : Option Nat) : List Nat :=
  d.home.rcHolds.map (fun r => extGpa d.node r.ext r.off / 64)
    ++ (d.home.recons.filter (fun r => some r.id != but)).map (fun r => extGpa r.node r.ext r.off / 64)

/-- An item has its place in the serialisation before what comes after it: a read that waits for its AFTER write has none yet (R128, R620), and
a write after an attention page may be read with it (R326). -/
def Dev.serialised (d : Dev) : HItem → Bool
  | .read n r _ _ _ => d.afterHold n r.hdr != some false
  | .page .. => false
  | _ => true

/-- Whether an item waits: `before` are the items still ahead of it. -/
def Dev.itemWaits (d : Dev) (before : List HItem) (i : HItem) : Bool :=
  let ls := i.lines d
  meets ls (d.opLines i.isRead)
    || before.any (fun b => (b.holds || (!i.isRead && d.serialised b)) && meets ls (b.lines d))
    || (!i.isRead && !i.isProt && meets ls (d.rcLines i.recon))
    || ls.any (fun l => match d.physOf (i.node d) l with
        | some q => !d.linePowered q
        | none => false)

/-- This package's line of a stripe is read for reconstructor `by_` (R172, R208): whether it is STALE, whether its code can not correct it,
and the line, which is held but for a parity read. -/
def Pkg.rcLine (by_ k off : Nat) (parity : Bool) (x : Pkg) : (Bool × Bool × List Byte) × Pkg :=
  let l := extBase k / 64 + off / 64
  let stale := if parity then (x.2.prot k).degraded else x.2.home.stale.contains (extGpa x.2.node k off / 64)
  let x := x.dev (fun d => (d.checkBurst false l).readFix l)
  let x := if parity then x
    else x.dev (fun d => { d with home := { d.home with rcHolds := d.home.rcHolds ++ [RcHold.mk k off by_ d.tim.tide] } })
  if x.2.lineErr l = 2 then
    let b := (x.2.mediaBad l 0).freeBytes 64
    ((stale, true, b.1), (x.1, b.2))
  else ((stale, false, x.cipher l), x)

/-- A survivor answers RC_READ and holds the line (R208); the holder answers the parity read. The bytes of a DATA_ERROR are free (R484). -/
def Pkg.serveRc (m : RcMsg) (x : Pkg) : Pkg :=
  let r := x.rcLine m.src m.ext m.off m.parity
  r.2.dev (fun d => d.respond (protHdr m.src m.tag 0 m.ticket m.cmark) (if r.1.2.1 then sDataError else sOk) (natLE 1 (b2n r.1.1) ++ r.1.2.2))

/-- The own line of a reconstruction that this package runs is read locally (R208). That it is logged as stale is no bar where its parity is
what is being repaired (R207). -/
def Pkg.serveOwn (id member k off : Nat) (parity : Bool) (x : Pkg) : Pkg :=
  let r := x.rcLine x.2.node k off parity
  let take := fun (c : Recon) =>
    let repair := match c.why with | .repair _ => true | _ => false
    { c with own := c.own ++ [(member, r.1.2.1 || (r.1.1 && !repair), r.1.2.2)] }
  r.2.dev (fun d => { d with home := { d.home with recons := d.home.recons.map (fun c => if c.id = id then take c else c) } })

/-- An operation of incoming protection traffic: performed at once, or once its record is with the partner (R127, R217). A parity line that
cannot be read refuses its delta, as it would an atomic (R173, R204). -/
def Pkg.protStart (o : HOp) (x : Pkg) : Pkg :=
  let old := match o.kind with
    | .deltaIn k off => if x.2.stands o.node then none else some (extBase k / 64 + off / 64)
    | _ => none
  let x := match old with
    | some l => x.dev (fun d => (d.checkBurst false l).readFix l)
    | none => x
  if old.any (fun l => x.2.lineErr l == 2) then
    x.dev (fun d => (d.mediaBad (old.getD 0) 0).endUnapplied o.node o.req .write o.ext sDataError false)
  else
    let r := x.2.addOp o
    if r.2.partnerOn then (x.1, (r.2.setOp { r.1 with phase := .journal }).sendJournal r.1 sOk)
    else Pkg.recorded r.1 (x.1, r.2)

/-- An item that waits for nothing is served. -/
def Pkg.startItem (i : HItem) (x : Pkg) : Pkg :=
  match i with
  | .write n r kind media srcGpa gpa len k => x.startWrite n r kind media srcGpa gpa len k .write
  | .read n r kind media k => x.serveRead n r kind media k
  | .rc m => x.serveRc m
  | .pte src n _ gpa entry media =>
    let r : Req := { hdr := { srcNode := src }, opd := { addr := gpa, lengthM1 := 7 }, data := natLE 8 entry }
    let l := (x.2.physOf n (gpa / 64)).getD 0
    if x.readData n .read 3 gpa 8 = natLE 8 entry ∧ (x.2.strike [l] media).lineErr l ≠ 2 then
      x.dev (fun d => (d.inflSub n (gpaExt gpa)).ctrl src (.result "REGION_PTE" rNoChange))
    else x.startWrite n r .write media 0 gpa 8 (gpaExt gpa) (.regionPte src)
  | .prot o => x.protStart o
  | .rcOwn id member k off parity => x.serveOwn id member k off parity
  | .page .. => x

/-- One pass over the queue: what may go goes, the rest stays in order. A read whose pair is broken is answered
ORDER_BROKEN (R620). -/
def Pkg.pumpPass (x : Pkg) : Pkg :=
  let q := x.2.home.queue
  let x0 : Pkg := (x.1, { x.2 with home := { x.2.home with queue := [] } })
  let r := q.foldl (fun (a : Pkg × List HItem) i =>
    let after := match i with
      | .read n r _ _ _ => a.1.2.afterHold n r.hdr
      | _ => none
    match after, i with
    | some true, .read n r _ _ k => (a.1.dev (fun d => (d.homeRefused sOrderBroken r.opd.addr r.hdr.srcNode).endRead n r k sOrderBroken []), a.2)
    | some false, i => (a.1, a.2 ++ [i])
    | _, i => if i.isPage || a.1.2.itemWaits a.2 i then (a.1, a.2 ++ [i]) else (a.1.startItem i, a.2)) (x0, [])
  (r.1.1, { r.1.2 with home := { r.1.2.home with queue := r.2 ++ r.1.2.home.queue } })

/-- Passes until nothing more goes, at most `fuel`. -/
def Pkg.pumpN : Nat → Pkg → Pkg
  | 0, x => x
  | f + 1, x =>
    let y := x.pumpPass
    if y.2.home.queue = x.2.home.queue then y else Pkg.pumpN f y

/-- The queue after something changed: each pass but the last serves an item, which may bring up to nine of its own. -/
def Pkg.pump (x : Pkg) : Pkg := Pkg.pumpN (10 * x.2.home.queue.length + 1) x

/-- An access joins the queue in serialisation order. -/
def Pkg.enqueue (i : HItem) (x : Pkg) : Pkg :=
  Pkg.pump (x.1, { x.2 with home := { x.2.home with queue := x.2.home.queue ++ [i] } })

end Sys2Proof.Machine
end

