-- ==== Sys2Proof/Machine/HomeOps.lean ====
section
/-!
DEFINITION. The commands of the home agent: reads, writes through the order table, version operations, page-table
writes, the order table's timers and resync (R127–R160, R177–R183, R192, R493–R497).
-/
namespace Sys2Proof.Machine

/-! ### Taking a write at its manifest number -/

/-- A table for ENTRY writes: where the entry of page `page` of region `r` lies, if it may be written: steps 2 and 4
of R77 (`none`), and step 5's place (R77). -/
def Pkg.ptePlace (x : Pkg) (n region page : Nat) : Option Nat :=
  let e := x.regionOf n (region % 8192)
  if e.valid ∧ page < e.pages then some (e.ptBase + page * 8) else none

/-- Step 5 of R77: the entry lies in a SYSTEM extent of the region's home, and in neither table (R64). -/
def Pkg.pteOk (x : Pkg) (n gpa : Nat) : Bool :=
  gpaNode gpa == n && gpaOk gpa && (x.extOf n (gpaExt gpa)).state == 3 && !isTableLine (gpa / 64 % 2 ^ 39)

/-- A refused write that has taken its manifest number (R137): counted, captured, recorded. -/
def Dev.refuseTaken (n : Nat) (r : Req) (kind : AKind) (st : Nat) (d : Dev) : Dev :=
  (d.homeRefused st r.opd.addr r.hdr.srcNode).endUnapplied n r kind (gpaExt r.opd.addr) st false

/-- PTE_WRITE at the region's home (R77), taken from its pair. -/
def Pkg.takePte (n : Nat) (r : Req) (media : List Media) (x : Pkg) : Pkg :=
  let region := bits r.opd.addr 0 20
  let page := bits r.opd.addr 20 23
  let e := x.regionOf n (region % 8192)
  if !x.2.ticketOk r.hdr.ticket then (x.1, (x.2.count 0x28 2 1).refuseTaken n r .pteWrite sRights)
  else match (if region / 8192 = n ∧ bit e.publish r.hdr.reqLanding then x.ptePlace n region page else none) with
    | none => x.dev (Dev.refuseTaken n r .pteWrite sRights)
    | some gpa =>
      if x.pteOk n gpa then
        let r' := { r with opd := { addr := gpa, lengthM1 := 7 } }
        Pkg.enqueue (.write n r' .pteWrite media 0 gpa 8 (gpaExt gpa)) (x.1, x.2.admitted n r.hdr false .pteWrite gpa)
      else x.dev (Dev.refuseTaken n r .pteWrite sRights)

/-- A pool write taken from its pair: rules, grant check, admission (R64, R67, R118, R148, R182). -/
def Pkg.takePool (n : Nat) (r : Req) (kind : AKind) (media : List Media) (srcGpa : Nat) (x : Pkg) : Pkg :=
  if kind = .pteWrite then x.takePte n r media
  else match ruleBroken r kind with
    | some c => (x.1, ((x.2.count 0x28 1 1).capture 0x28 .request sRights c.1 0x3F c.2).endUnapplied n r kind (gpaExt r.opd.addr) sRights false)
    | none =>
      let c := x.grantCheck n r.hdr kind (r.opd.addr % 2 ^ 52)
      if c.1 ≠ sOk then (x.1, c.2.refuseTaken n r kind c.1)
      else
        let gpa := r.opd.addr % 2 ^ 52
        let len := if kind = .reduce then reduceBytes r.opd.mfmt r.opd.cfmt (opdLen r.opd) else opdLen r.opd
        Pkg.enqueue (.write n r kind media srcGpa gpa len (gpaExt gpa)) (x.1, c.2.admitted n r.hdr r.image kind gpa)

/-- A protection-engine write as a request, for its record and answer. -/
def protReq (w : Wr) (data : List Byte) : Req := { hdr := w.hdr, opd := { addr := w.addr }, data := data }

/-- Incoming protection traffic takes its place behind earlier accesses to its lines (R127). -/
def Pkg.protIn (o : HOp) (x : Pkg) : Pkg := x.enqueue (.prot o)

/-- A write of another protection engine that a stand-in answers with NODE_LOST (R221). -/
def Dev.endLost (n : Nat) (r : Req) (k : Nat) (d : Dev) : Dev :=
  (d.homeStatus sNodeLost r.opd.addr r.hdr.srcNode).endUnapplied n r .write k sNodeLost false

/-- A takeover's phase 4 has still to compute the parity line at byte `off` of extent `k` (R224). -/
def Rebuild.before (r : Rebuild) (k off : Nat) : Bool :=
  r.phase == 4 && r.todo.contains k && !(r.todo.head? == some k && decide (off < r.next))

/-- A parity delta taken from its pair (R204, R221, R224). DEDUCED (log entry 58): its sender, whose membership R204 asks for, is the member
for which it speaks, where a stand-in sends it for its ward. -/
def Pkg.takeDelta (m : DeltaMsg) (x : Pkg) : Pkg :=
  let d := x.2
  let n := m.forNode
  let g := extGpa n m.ext m.off
  let o := { blankOp n (protReq (.delta m) (sliceBytes m.bytes 0 64)) .write 0 g 64 m.ext with
    kind := .deltaIn m.ext m.off, counted := false, ws := [LineW.mk (g / 64) none none false [] none] }
  if !gpaOk g ∨ 3232 ≤ m.ext ∨ (d.protOf n m.ext).mode ≠ 2 ∨ !d.inGroup n m.member then x.dev (Dev.refuseTaken n o.req .write sRights)
  else if d.stands n then
    match d.home.rebuild with
    | some r =>
      if r.phase < 4 then x.dev (Dev.endLost n o.req m.ext)
      else if r.before m.ext m.off then x.dev (Dev.endUnapplied n o.req .write m.ext sOk false)
      else x.protIn { o with applied := true }
    | none => x.dev (Dev.endLost n o.req m.ext)
  else x.protIn o

/-- A mirror write taken from its pair (R212, R215, R221). -/
def Pkg.takeMirror (m : MirrorMsg) (x : Pkg) : Pkg :=
  let d := x.2
  let n := m.forNode
  let system := (d.ext m.ext).state == 3
  let p := d.prot m.ext
  let len := m.bytes.length
  let ws := (List.range (len / 64)).map (fun i =>
    let l := extGpa n m.ext m.off / 64 + i
    LineW.mk l (some (l % 2 ^ 39)) none system (sliceBytes m.bytes (64 * i) 64) none)
  let o := { blankOp n (protReq (.mirror m) m.bytes) .write 0 (extGpa n m.ext m.off) len m.ext with
    kind := .mirrorIn m, counted := false, ws := ws }
  if d.stands n then x.dev (Dev.endLost n o.req m.ext)
  else if gpaOk (extGpa n m.ext m.off) ∧ m.ext < 3232 ∧ (system ∨ d.ticketOk m.ticket) ∧ p.mode = 4 ∧ p.peerNode = m.ward
      ∧ p.peerExt = m.wardExt ∧ d.shadowRoom m.ward then
    let x := match m.record with
      | some q => x.dev (fun d => d.setShadow m.ward (fun s => s.record q))
      | none => x
    x.protIn o
  else x.dev (Dev.refuseTaken n o.req .write sRights)

/-- A journal message taken from its pair (R217, R218, R221): it causes no further request (R412). One of a third ward is refused with
RIGHTS; what becomes of it R218 does not say (DESIGN CHOICE, log entry 58). -/
def Dev.takeJournal (m : JournalMsg) (d : Dev) : Dev :=
  let h := protHdr m.src m.tag m.manifest m.ticket m.cmark
  let st := if d.stands m.forNode then sNodeLost else if d.shadowRoom m.ward then sOk else sRights
  let d := if st = sOk then d.setShadow m.ward (fun s => s.record m.record) else d.homeStatus st 0 m.src
  (d.recordStatus m.forNode m.src 5 m.manifest st false).respond h st []

/-- An item writes a line of the two tables (R64): of the extent table, or of the region descriptors. -/
def rebuildTable (i : RebuildItem) (ext : Bool) : Bool :=
  match rebuildLines i with
  | some (k, ls) => k == 3072 && ls.any (fun p => decide (p.1 < 0x200000) && (!ext || decide (p.1 < 64 * 16160)))
  | none => false

/-- Whether the package takes an item (R222–R226): a spare in TRANSIT or RESYNC takes the copies of a takeover; one that serves takes what
the takeover's stand-in still forwards, copies that a ward sends for its COPY extents, and repaired parity lines of its group. The tables of
near extent 0 come in phase 1 alone (R64), but for a region descriptor that a publish forwarded since has changed (R153). -/
def Dev.rebuildFits (m : RebuildMsg) (d : Dev) : Bool :=
  let repaired := match m.item with
    | .line k _ _ => (d.prot k).mode == 2 && (d.positionOf m.src).isSome
    | _ => false
  let wards := m.src == m.node && (match m.item with
    | .extent k _ _ | .line k _ _ => k != 3072 && (d.prot k).mode == 4 && (d.prot k).peerNode == m.src
    | .orderEntry _ _ _ _ => true
    | _ => false)
  let takeover := m.src != m.node && (match m.item with
    | .forwarded _ _ _ _ _ | .parity _ _ _ _ => d.home.rebuildFrom == some m.src
    | _ => false)
  let tables := match m.item with
    | .extent 3072 _ _ => (d.stage == 2 || d.stage == 3) && m.src != m.node && (d.home.rebuildSeen == 0 || decide (d.home.rebuildGen < m.gen))
    | .forwarded .. => !rebuildTable m.item true
    | i => !rebuildTable i false
  let inRange := match rebuildLines m.item with
    | some (k, _) => decide (k < 3232)
    | none => true
  inRange && tables &&
    (if d.stage = 2 ∨ d.stage = 3 then d.rd F.PROT_CFG_ROLE == 1 else d.stage == 4 && (repaired || wards || takeover))

/-- The lines that an item waits behind (R127): those it brings and, where it brings an extent whole, those of that extent that writes in hand
hold; at the end of a phase, those of every item that waits. -/
def Dev.itemLines (m : RebuildMsg) (d : Dev) : List Nat :=
  let held := d.opLines false ++ d.home.queue.flatMap (fun i => if i.holds then i.lines d else [])
  match m.item with
  | .extent k _ ls =>
    (ls.map (fun p => extGpa d.node k p.1 / 64) ++ held.filter (fun l => l / 2 ^ 39 == d.node % 128 && gpaExt (l * 64) == k)).dedup
  | .phaseEnd _ => (d.home.queue.flatMap (fun i => match i with
      | .prot o => (match o.kind with | .rebuildIn _ => o.ws.map (·.line) | _ => [])
      | _ => []) ++ d.home.ops.flatMap (fun o => match o.kind with | .rebuildIn _ => o.ws.map (·.line) | _ => [])).dedup
  | i => match rebuildLines i with
    | some (k, ls) => ls.map (fun p => extGpa d.node k p.1 / 64)
    | none => []

/-- REBUILD_COPY taken from its pair (R126, R223–R226, R502): the first copy takes a spare in TRANSIT to RESYNC, the first of a higher
generation starts the takeover again (R228). A copy of a lower generation, or one that the package does not take, is refused with RIGHTS. -/
def Pkg.takeRebuild (m : RebuildMsg) (x : Pkg) : Pkg :=
  let r := protReq (.rebuild m) []
  if m.gen < x.2.rd F.RCV_GEN_GEN ∨ !x.2.rebuildFits m then x.dev (Dev.refuseTaken x.2.node r .write sRights)
  else
    let x := x.dev (fun d =>
      let d := if d.stage = 2 then { d with home := { d.home with rebuildSeen := 0 } }.wr F.RCV_SLIPWAY_STAGE 3 else d
      if d.stage = 3 then { d with home := { d.home with
        rebuildFrom := some m.src, rebuildSeen := if d.home.rebuildGen < m.gen then 0 else d.home.rebuildSeen
        rebuildGen := max d.home.rebuildGen m.gen } } else d)
    x.protIn { blankOp x.2.node r .write 0 0 0 3072 with
      kind := .rebuildIn m, counted := false, ws := (x.2.itemLines m).map (fun l => LineW.mk l none none false [] none) }

/-- A write whose manifest number is next (R137). -/
def Pkg.takeWr (n : Nat) (w : Wr) (x : Pkg) : Pkg :=
  let x := x.dev (fun d => d.takeMan n w.hdr.srcNode w.hdr.srcEngine)
  match w with
  | .pool r kind media srcGpa => x.takePool n r kind media srcGpa
  | .delta m => x.takeDelta m
  | .mirror m => x.takeMirror m
  | .journal m => x.dev (Dev.takeJournal m)
  | .rebuild m => x.takeRebuild m

/-- The home has room for a write: a channel-1 request uses entries of its own (R179, R412). -/
def Dev.roomFor (d : Dev) (n : Nat) (w : Wr) : Bool :=
  if (HArr.write n w).chan1 then decide (d.chan1Held < 1024) else decide (d.inflSum < 16384)

/-- A held write whose turn has come (R137) and for which there is room. -/
def Dev.dueEarly (d : Dev) : Option HeldWrite :=
  d.home.store.find? (fun w =>
    let e := d.ord (d.ordKey w.node w.src w.eng)
    e.st == .normal && w.man == e.expect && d.roomFor w.node w.wr)

/-- Held writes are taken in turn while the next one of a pair is present (R137) and the home has room; at most `fuel`. -/
def Pkg.releaseEarly : Nat → Pkg → Pkg
  | 0, x => x
  | f + 1, x => match x.2.dueEarly with
    | some w => Pkg.releaseEarly f (x.takeWr w.node w.wr)
    | none => x

/-- A write reaches stage 1 for served node `n` (R137, R139, R619, R620). -/
def Pkg.orderWrite (n : Nat) (w : Wr) (x : Pkg) : Pkg :=
  let h := w.hdr
  match x.2.orderAct n h.srcNode h.srcEngine h.manifest with
  | .take =>
    let y := x.takeWr n w
    (Pkg.releaseEarly y.2.home.store.length y).pump
  | .hold => x.dev (fun d => d.holdEarly ⟨n, h.srcNode, h.srcEngine, h.manifest, w⟩)
  | .drop => x
  | .dupWait => x.dev (fun d => { d with home := { d.home with dups := d.home.dups ++ [(n, h, w.addr)] } })
  | .dupAnswer st => x.dev (fun d => d.answerDup n h w.addr w.fetch st)
  | .outside => (x.dev (fun d => (d.breakPair n h.srcNode h.srcEngine).refuseWr w sOrderBroken)).pump
  | .broken => x.dev (fun d => d.refuseWr w sOrderBroken)

/-- A write that the home takes: for a node ID that it serves. A management-core write names a manifest number too (R126). -/
def Pkg.writeIn (n : Nat) (w : Wr) (x : Pkg) : Pkg :=
  let served := match w with
    | .pool .. => x.2.homes n
    | _ => x.2.serves n
  match served with
  | none => x.dev (fun d => d.refuseWr w sRights)
  | some _ => x.orderWrite n w

/-- A write arrives at the home. -/
def Pkg.arriveWrite (n : Nat) (w : Wr) (x : Pkg) : Pkg :=
  let a := HArr.write n w
  if (if a.chan1 then x.2.chan1Open else x.2.homeOpen) then x.writeIn n w else x.dev (Dev.homeGate a)

/-- A pool write arrives. -/
def Pkg.poolWrite (kind : AKind) (r : Req) (srcGpa : Nat) (media : List Media) (x : Pkg) : Pkg :=
  x.arriveWrite (if kind = .pteWrite then bits r.opd.addr 13 7 else gpaNode r.opd.addr) (.pool r kind media srcGpa)

/-! ### Reads (R106, R118, R128, R620) -/

/-- OPCODE of a migration read between packages, which the spec does not number: the model's own (log entry). -/
def opMigRead : Nat := 0xC0

/-- A read that the home takes: checked, admitted, and served once nothing holds it. -/
def Pkg.readIn (kind : AKind) (r : Req) (media : List Media) (x : Pkg) : Pkg :=
  let n := gpaNode r.opd.addr
  if (x.2.homes n).isNone then x.dev (fun d => (d.homeRefused sRights r.opd.addr r.hdr.srcNode).respond r.hdr sRights [])
  else
    let gpa := r.opd.addr % 2 ^ 52
    let c := x.grantCheck n r.hdr kind gpa
    if c.1 ≠ sOk then (x.1, (c.2.homeRefused c.1 r.opd.addr r.hdr.srcNode).respond r.hdr c.1 [])
    else Pkg.enqueue (.read n r kind media (gpaExt gpa)) (x.1, c.2.admitted n r.hdr r.image kind gpa)

/-- A read arrives at the home. -/
def Pkg.poolRead (kind : AKind) (r : Req) (media : List Media) (x : Pkg) : Pkg :=
  if x.2.homeOpen then x.readIn kind r media else x.dev (Dev.homeGate (.read kind r media))

/-! ### Version operations (R152–R154, R214) -/

/-- A refused version operation. -/
def Dev.refuseRegion (r : Req) (st : Nat) (data : List Byte) (d : Dev) : Dev :=
  (d.homeRefused st r.opd.addr r.hdr.srcNode).respond r.hdr st data

/-- `f` on the region descriptor that a version operation names, once the ticket and VALID pass (R152, R153). -/
def Pkg.onRegion (r : Req) (f : Nat → Nat → Region → Pkg → Pkg) (x : Pkg) : Pkg :=
  let n := bits r.opd.addr 13 7
  let e := x.regionOf n (bits r.opd.addr 0 13)
  if (x.2.homes n).isNone then x.dev (Dev.refuseRegion r sRights [])
  else if !x.2.ticketOk r.hdr.ticket then (x.1, (x.2.count 0x28 2 1).refuseRegion r sRights [])
  else if !e.valid then x.dev (Dev.refuseRegion r sRights [])
  else f n (bits r.opd.addr 0 13) e x

/-- VERSION_READ (R152) as the home takes it. -/
def Pkg.versionIn (r : Req) (x : Pkg) : Pkg :=
  x.onRegion r (fun _ _ e x => x.dev (fun d => d.respond r.hdr sOk (natLE 4 e.version)))

/-- PUBLISH (R153, R214) as the home takes it: one compare-and-swap; its answer waits for the mirror write of the descriptor. -/
def Pkg.publishIn (r : Req) (x : Pkg) : Pkg :=
  x.onRegion r (fun n i e x =>
    let exp := leNat (sliceBytes r.data 0 4)
    let new := leNat (sliceBytes r.data 4 4)
    if !bit e.publish r.hdr.reqLanding then x.dev (Dev.refuseRegion r sRights [])
    else if e.version ≠ exp then x.dev (Dev.refuseRegion r sConflict (natLE 4 e.version))
    else
      let e' := { e with version := new }
      let x := x.setRegionOf n i e'
      match x.2.mirrorExt n 3072 with
      | some c =>
        let l := n * 2 ^ 39 + metaLine0 + 16384 + 2 * i
        let o := { blankOp n r .publish 0 (l * 64) 64 3072 with
          kind := .publish e.version, counted := false, phase := .protect, copies := 1, applied := true,
          ws := [LineW.mk l none none true (regionLine e' 0) none] }
        let q := x.2.addOp o
        (x.1, q.2.sendMirror q.1 c (lineOff l) (regionLine e' 0) none)
      | none =>
        let l := n * 2 ^ 39 + metaLine0 + 16384 + 2 * i
        let o := { blankOp n r .publish 0 (l * 64) 64 3072 with
          kind := .publish e.version, counted := false, applied := true, ws := [LineW.mk l none none true (regionLine e' 0) none] }
        match x.forwardTo o with
        | some q => let a := x.2.addOp o; (x.1, a.2.forward a.1 q)
        | none => x.dev (fun d => d.respond r.hdr sOk (natLE 4 e.version)))

/-- A version operation arrives at the home. -/
def Pkg.regionOp (pub : Bool) (r : Req) (x : Pkg) : Pkg :=
  if x.2.homeOpen then (if pub then x.publishIn r else x.versionIn r) else x.dev (Dev.homeGate (.region pub r))

/-! ### REGION_PTE (R77) -/

/-- REGION_PTE from the fabric manager (R77), as the home takes it. -/
def Pkg.regionPteIn (src region page entry : Nat) (media : List Media) (x : Pkg) : Pkg :=
  let n := x.2.node
  let bad := fun (x : Pkg) => x.dev (fun d => d.ctrl src (.result "REGION_PTE" rBadState))
  if !x.2.fmAllowed src then x.dev Dev.fmDropped
  else if region / 8192 % 128 ≠ n then bad x
  else match x.ptePlace n region page with
    | none => bad x
    | some gpa =>
      if x.pteOk n gpa then
        Pkg.enqueue (.pte src n region gpa (entry % 2 ^ 64) media) (x.1, (x.2.inflAdd n (gpaExt gpa)).count 0x28 0 1)
      else bad (x.dev (fun d => d.capture 0x28 .request sRights 5 0x3F (gpa % 2 ^ 57 + src % 128 * 2 ^ 57)))

/-- REGION_PTE arrives. -/
def Pkg.regionPte (src region page entry : Nat) (media : List Media) (x : Pkg) : Pkg :=
  if x.2.homeOpen then x.regionPteIn src region page entry media else x.dev (Dev.homeGate (.pte src region page entry media))

/-! ### Attention groups at their home (R326, R333) -/

/-- The next place among what becomes ready, is issued or waits for arrays (R290). -/
def Dev.nextSeq (d : Dev) : Nat × Dev := (d.fry.seq, { d with fry := { d.fry with seq := d.fry.seq + 1 } })

/-- The arrays of a mask, lowest first. -/
def maskArrays (mask : Nat) : List Nat := (List.range 16).filter (fun a => bit mask a)

/-- PNTa has power and takes work (R278, R559, R604). -/
def Dev.arrOn (d : Dev) (a : Nat) : Bool := d.pageOn (0x40 + a)

/-- The pair of the lowest array of `mask` is asked for where no array of it has power (R278, R559). -/
def Dev.askPair (mask : Nat) (d : Dev) : Dev :=
  match maskArrays mask with
  | [] => d
  | a :: as => if (a :: as).any d.arrOn then d else { d with fry := { d.fry with pairReq := putBit d.fry.pairReq (a / 2) true } }

/-- The group that a requester knows by operation and number. -/
def Dev.serveOf (d : Dev) (src op grp : Nat) : Option ServeGroup :=
  d.fry.serve.find? (fun g => g.q.src == src && g.q.op == op && g.q.grp == grp)

def Dev.setServe (src op grp : Nat) (f : ServeGroup → ServeGroup) (d : Dev) : Dev :=
  { d with fry := { d.fry with serve := mapFirst (fun g => g.q.src == src && g.q.op == op && g.q.grp == grp) f d.fry.serve } }

/-- The header a page's read is checked with (R67). -/
def queryHdr (q : AttnQuery) : Hdr := { dest := q.node, srcNode := q.src, srcEngine := 0x28, ticket := q.ticket, reqLanding := q.landing }

/-- The unit takes groups: in power, not quiesced, and with room in its queue (R333, R604). -/
def Dev.attnOpen (d : Dev) : Bool :=
  d.takes 0x51 && decide (d.fry.serve.length < 256)

/-- The unit takes the group: it is open, and the home has room for its pages (R179, R333). -/
def Dev.queryTakes (d : Dev) (q : AttnQuery) : Bool := d.attnOpen && decide (d.inflSum + q.pages.length ≤ 16384)

/-- Bytes of the K or V elements of a page, and of their scales (R320). -/
def kvElemBytes (t d fmt : Nat) : Nat := t * d * fmtBits (fmt % 16) / 8

def kvScaleBytes (t d : Nat) : Nat := t * d / 32

/-- Page size S. -/
def kvPageBytes (t d fmt : Nat) : Nat := 2 * (kvElemBytes t d fmt + kvScaleBytes t d)

/-- The bytes of a page of a group. -/
def queryPageBytes (q : AttnQuery) : Nat := kvPageBytes q.t q.d q.kvFmt

/-- ATTN_QUERY as the home takes it (R326): each page is checked and admitted, and takes its place behind the writes serialised before it
(R128). -/
def Pkg.queryIn (q : AttnQuery) (x : Pkg) : Pkg :=
  let h := queryHdr q
  let r := q.pages.zipIdx.foldl (fun (a : List Nat × Pkg) (p : (Nat × Nat) × Nat) =>
    let gpa := p.1.1
    let g := if (a.2.2.homes q.node).isNone ∨ gpaNode gpa ≠ q.node then (sRights, a.2.2) else a.2.grantCheck q.node h .read gpa
    if g.1 = sOk then
      let d := g.2.admitted q.node h false .read gpa
      (a.1 ++ [sOk], (a.2.1, { d with home := { d.home with queue := d.home.queue ++ [.page q.src q.op q.grp p.2 q.node (gpa % 2 ^ 52) (queryPageBytes q)] } }))
    else (a.1 ++ [g.1], (a.2.1, g.2.homeRefused g.1 gpa q.src))) ([], x)
  r.2.dev (fun d =>
    let s := d.nextSeq
    let g : ServeGroup := { q := q, status := r.1, seq := s.1 }
    Dev.askPair (d.rd F.ATTN_CFG_SERVE_MASK) { s.2 with fry := { s.2.fry with serve := s.2.fry.serve ++ [g] } })

/-- ATTN_QUERY (R326, R333): taken, or left to wait at the boundary. A group that is here already is not taken twice. -/
def Pkg.attnQuery (q : AttnQuery) (x : Pkg) : Pkg :=
  if (x.2.serveOf q.src q.op q.grp).isSome ∨ x.2.home.gate.contains (.query q) then x
  else if x.2.homeOpen ∧ x.2.queryTakes q then x.queryIn q
  else x.dev (Dev.homeGate (.query q))

/-! ### Performing (R127, R622) -/

/-- An operation whose protection step is complete is performed, unless something has changed since its lines were formed: its line has gone
to the spare, or its extent has a partner again (R224–R226). -/
def Pkg.performNext (o : HOp) (x : Pkg) : Pkg :=
  match x.forwardTo o with
  | some r => x.dev (Dev.forward o r)
  | none =>
    if !o.applied && !o.ws.isEmpty && (x.2.mirrorExt o.node o.ext).isSome then x.protect o else x.finishOp o

/-- WRITE_PERFORMED: the protection step is complete (R127). -/
def Pkg.writePerformed (id : Nat) (x : Pkg) : Pkg :=
  match x.2.opOf id with
  | some o => if o.phase = .ready then (x.performNext o).pump else x
  | none => x

/-! ### The order table's timers and resync (R495, R497) -/

/-- ORDER_HOLE_TIMEOUT (R495): the hole window of the pair has ended with the hole open. -/
def Pkg.holeTimeout (n src eng : Nat) (x : Pkg) : Pkg :=
  let e := x.2.ord (x.2.ordKey n src eng)
  match e.holeAt with
  | some t =>
    if e.st = .normal ∧ t + us (x.2.rd F.RCV_CFG_ORDER_TIMEOUT_US) ≤ x.2.tim.tide then (x.dev (fun d => d.breakPair n src eng)).pump
    else x
  | none => x

/-- ORDER_RESYNC (R497). -/
def Pkg.orderResync (n src eng rseq : Nat) (x : Pkg) : Pkg :=
  let k := x.2.ordKey n src eng
  let e := x.2.ord k
  let quiet := fun (x : Pkg) =>
    let d := x.2.setOrd k { e with st := .quarantine, rseq := rseq, quietEnd := x.2.tim.tide + us (x.2.rd F.RCV_RETX_RESYNC_QUIET_US), holeAt := none }
    let d := d.refuseHeld n src eng sOrderBroken
    Pkg.pump (x.1, if e.st = .normal then d.notePair n src eng 1 else d)
  if (x.2.serves n).isNone then x
  else match e.st with
    | .quarantine => if rseq = e.rseq ∨ some rseq = e.lastRseq then x else quiet x
    | _ => if some rseq = e.lastRseq then x.dev (fun d => d.ctrl src (.orderResyncDone eng rseq)) else quiet x

/-- The pair starts afresh: EXPECT 0, no history, its fetch-log entries freed (R497, R501). -/
def Dev.freshPair (n src eng : Nat) (last : Option Nat) (d : Dev) : Dev :=
  let k := d.ordKey n src eng
  let d := d.setOrd k { (d.ord k) with expect := 0, st := .normal, hist := [], open_ := [], holeAt := none, lastRseq := last, quietEnd := 0, rseq := 0 }
  { d with home := { d.home with fetchLog := d.home.fetchLog.filter (fun f => !(f.node == n && f.src == src && f.eng == eng)) } }

/-- QUARANTINE_END (R497): the quiet window has ended. -/
def Pkg.quarantineEnd (n src eng : Nat) (x : Pkg) : Pkg :=
  let e := x.2.ord (x.2.ordKey n src eng)
  if e.st = .quarantine ∧ e.quietEnd ≤ x.2.tim.tide then
    (x.dev (fun d => ((d.freshPair n src eng (some e.rseq)).notePair n src eng 2).ctrl src (.orderResyncDone eng e.rseq))).pump
  else x

/-! ### The commands -/

/-- HOME_READ (R118, R128). -/
def execHomeRead (r : Req) (media : List Media) (s : State) : Host.Outcome State Fault Refusal :=
  onPkg (Pkg.poolRead (if r.hdr.opcode = opMigRead then .migRead else .read) r media) s

/-- HOME_WRITE (R137). -/
def execHomeWrite (r : Req) (media : List Media) (s : State) : Host.Outcome State Fault Refusal :=
  onPkg (Pkg.poolWrite .write r 0 media) s

/-- HOME_ATOMIC (R148–R150). -/
def execHomeAtomic (r : Req) (media : List Media) (s : State) : Host.Outcome State Fault Refusal :=
  onPkg (Pkg.poolWrite .atomic r 0 media) s

/-- HOME_REDUCE_WRITE (R182, R253). -/
def execHomeReduceWrite (r : Req) (media : List Media) (s : State) : Host.Outcome State Fault Refusal :=
  onPkg (Pkg.poolWrite .reduce r 0 media) s

/-- HOME_MIGRATION_WRITE (R192). -/
def execHomeMigrationWrite (r : Req) (srcGpa : Nat) (media : List Media) (s : State) : Host.Outcome State Fault Refusal :=
  onPkg (Pkg.poolWrite .migWrite r srcGpa media) s

/-- HOME_TABLE_READ (R64, R91). -/
def execHomeTableRead (r : Req) (media : List Media) (s : State) : Host.Outcome State Fault Refusal :=
  onPkg (Pkg.poolRead .table r media) s

/-- HOME_PTE_WRITE (R77). -/
def execHomePteWrite (r : Req) (media : List Media) (s : State) : Host.Outcome State Fault Refusal :=
  onPkg (Pkg.poolWrite .pteWrite r 0 media) s

/-- REGION_PTE (R77). -/
def execRegionPte (src region page entry : Nat) (media : List Media) (s : State) : Host.Outcome State Fault Refusal :=
  onPkg (Pkg.regionPte src region page entry media) s

/-- HOME_VERSION_READ (R152). -/
def execHomeVersionRead (r : Req) (s : State) : Host.Outcome State Fault Refusal := onPkg (Pkg.regionOp false r) s

/-- HOME_PUBLISH (R153). -/
def execHomePublish (r : Req) (s : State) : Host.Outcome State Fault Refusal := onPkg (Pkg.regionOp true r) s

end Sys2Proof.Machine
end

