-- ==== Sys2Proof/Machine/Extents.lean ====
section
/-!
DEFINITION. Extent and region commands (R70–R75, R120–R123, R214, R617, R618), the background work of the two tiers
(R165, R172, R174, R175) and the snapshot of the sampler (R189–R191).
-/
namespace Sys2Proof.Machine

/-! ### Commands on the tables -/

/-- The five lines of extent-table entry `k`, counted from the start of near extent 0 (R62). -/
def extLines (k : Nat) : List Nat := (List.range 5).map (fun i => 5 * k + i)

/-- The two lines of region descriptor `r`. -/
def regLines (r : Nat) : List Nat := [16384 + 2 * r, 16384 + 2 * r + 1]

/-- A table operation: lines `ls` of near extent 0 go to the partner before the answer (R214). -/
def Dev.tableOp (d : Dev) (ls : List Nat) (k : HKind) (ext : Nat) : HOp :=
  { blankOp d.node default .table 0 (extGpa d.node 3072 (64 * ls.headD 0)) (64 * ls.length) ext with
    kind := k, counted := false, phase := .protect, copies := 1, applied := true,
    ws := ls.map (fun i => LineW.mk (d.node * 2 ^ 39 + metaLine0 + i) none none true (d.tableLine i) none) }

/-- A change of near extent 0 is mirrored before it is reported (R214): `done` reports it at once where there is no
partner. -/
def Dev.tableChanged (ls : List Nat) (k : HKind) (ext : Nat) (done : Dev → Dev) (d : Dev) : Dev :=
  match d.mirrorExt d.node 3072 with
  | some c =>
    let q := d.addOp (d.tableOp ls k ext)
    q.2.sendMirror { q.1 with ext := 3072 } c (64 * ls.headD 0) (ls.flatMap d.tableLine) none
  | none => done d

/-- A command ends: its result, now or when the mirror write of the table lines `ls` it changed has returned (R214,
R618). -/
def Dev.endCommand (src : Option Nat) (name : String) (result gen : Nat) (ls : List Nat) (d : Dev) : Dev :=
  if ls.isEmpty then d.commandResult src name result gen
  else d.tableChanged ls (.command src name result gen) 3072 (fun d => d.commandResult src name result gen)

def mod512 (b : Bitmaps) : Bitmaps := ⟨b.read % 2 ^ 512, b.write % 2 ^ 512, b.atomic % 2 ^ 512, b.reduce % 2 ^ 512⟩

def orMaps (a b : Bitmaps) : Bitmaps :=
  ⟨Nat.lor a.read b.read, Nat.lor a.write b.write, Nat.lor a.atomic b.atomic, Nat.lor a.reduce b.reduce⟩

/-- The extent commands of R70 that a table row names. -/
inductive ExtOp where
  | grant | widen | revoke | reserve | release
  deriving DecidableEq, Repr

def ExtOp.name : ExtOp → String
  | .grant => "EXT_GRANT"
  | .widen => "EXT_WIDEN"
  | .revoke => "EXT_REVOKE"
  | .reserve => "EXT_RESERVE"
  | .release => "EXT_RELEASE"

/-- GRANT_GEN plus 1, wrapping at 0xFFFF (R63). -/
def nextGen (g : Nat) : Nat := (g + 1) % 65536

/-- An extent command on entry `e`: the entry after it with DONE, NO_CHANGE or BAD_STATE (R70). -/
def extStep (op : ExtOp) (a : ExtArgs) (e : ExtEnt) : Nat × ExtEnt :=
  let bm := mod512 a.bm
  match op with
  | .grant =>
    if e.state = 0 then (rDone, { state := 1, region := a.region % 2 ^ 20, gen := nextGen e.gen, bm := bm })
    else if e.state = 1 ∧ e.region = a.region % 2 ^ 20 ∧ e.bm = bm then (rNoChange, e)
    else (rBadState, e)
  | .widen =>
    if e.state = 1 then
      (if orMaps e.bm bm = e.bm then (rNoChange, e) else (rDone, { e with bm := orMaps e.bm bm, gen := nextGen e.gen }))
    else (rBadState, e)
  | .revoke =>
    if e.state = 1 then (rDone, { e with state := 2, gen := nextGen e.gen })
    else if e.state = 2 ∨ e.state = 0 then (rNoChange, e)
    else (rBadState, e)
  | .reserve =>
    let t := if a.protect then 5 else 3
    if e.state = 0 then (rDone, { e with state := t, bm := ⟨0, 0, 0, 0⟩, gen := nextGen e.gen })
    else if e.state = t then (rNoChange, e)
    else (rBadState, e)
  | .release =>
    if e.state = 3 ∨ e.state = 5 then (rDone, { e with state := 0, gen := nextGen e.gen })
    else if e.state = 0 then (rNoChange, e)
    else (rBadState, e)

/-- A revocation completes in one step (R121): the entry is FREE, its record goes to the issuer (R123). -/
def Dev.completeRevocation (k : Nat) (d : Dev) : Dev :=
  let e := d.ext k
  let src := ((d.home.revs.find? (fun r => r.1 == k)).map (·.2)).join
  let g := nextGen e.gen
  let ref := nget d.home.refused k
  let d := d.setExt k { e with state := 0, region := 0, gen := g, bm := ⟨0, 0, 0, 0⟩ }
  let d := { d with home := { d.home with
    revs := d.home.revs.filter (fun r => r.1 != k), refused := nset d.home.refused k 0 } }
  d.tableChanged (extLines k) (.revocation g ref d.ns src) k (Dev.revocationRecord k g ref d.ns src)

/-- REVOCATION_COMPLETE (R121): the counter is zero and the state REVOKING. -/
def Dev.revocationComplete (k : Nat) (d : Dev) : Dev :=
  if (d.ext k).state = 2 ∧ nget d.home.infl k = 0 then d.completeRevocation k else d

/-- An extent command in the address pipeline (R68, R70, R71, R120, R121, R222). -/
def Dev.extCommand (op : ExtOp) (src : Option Nat) (a : ExtArgs) (d : Dev) : Dev :=
  let k := a.index
  if 3232 ≤ k then d.endCommand src op.name rBadState 0 []
  else
    let e := d.ext k
    let r := if isFixedExt k ∨ (op = .grant ∧ d.rd F.PROT_CFG_ROLE = 1) then (rBadState, e) else extStep op a e
    if r.1 = rDone then
      let d := d.setExt k r.2
      let d := if op = .revoke then
          let d := { d with home := { d.home with revs := d.home.revs ++ [(k, src)], refused := nset d.home.refused k 0 } }
          if src.isNone then d.wr F.HOME_REV_STAT_PENDING (d.rd F.HOME_REV_STAT_PENDING + 1) else d
        else d
      let d := d.endCommand src op.name rDone r.2.gen (extLines k)
      if op = .revoke then d.revocationComplete k else d
    else d.endCommand src op.name r.1 e.gen []

/-- Whether REGION_CREATE's PAGES and PT_BASE are in order (R75). -/
def Dev.regionOk (d : Dev) (a : RegionArgs) : Bool :=
  let g := a.ptBase % 2 ^ 52
  let last := g + a.pages * 8 - 1
  decide (1 ≤ a.pages) && decide (a.pages ≤ 8388608) && g % 4096 == 0 && gpaNode g == d.node && bit g 44 && gpaOk g
    && gpaOk last && gpaNode last == d.node && bit last 44
    && (List.range (gpaExt last + 1 - gpaExt g)).all (fun i => (d.ext (gpaExt g + i)).state == 3)

/-- REGION_CREATE or REGION_DESTROY (R75). -/
def Dev.regionCommand (create : Bool) (src : Option Nat) (a : RegionArgs) (d : Dev) : Dev :=
  let i := a.index % 8192
  let e := d.region i
  let name := if create then "REGION_CREATE" else "REGION_DESTROY"
  let new : Region := { version := e.version, valid := true, cls := a.cls % 2, pages := a.pages, ptBase := a.ptBase % 2 ^ 52, publish := a.publish % 2 ^ 512 }
  if create then
    if e = new then d.endCommand src name rNoChange 0 []
    else if e.valid ∨ !d.regionOk a then d.endCommand src name rBadState 0 []
    else (d.setRegion i new).endCommand src name rDone 0 (regLines i)
  else if e.valid then (d.setRegion i { e with valid := false }).endCommand src name rDone 0 (regLines i)
  else d.endCommand src name rNoChange 0 []

/-! ### The HOME command registers (R617, R618) -/

/-- Bitmap `m` out of its 16 staging words. -/
def Dev.stagedBitmap (d : Dev) (m : Nat) : Nat :=
  ((List.range 16).map (fun w => d.rdi F.HOME_BITMAP_BITS (16 * m + w) * 2 ^ (32 * w))).sum

/-- Operands of an extent command in the staging registers (R617). -/
def Dev.stagedExt (d : Dev) : ExtArgs :=
  { index := d.rd F.HOME_CMD_ARG0_INDEX, region := d.rd F.HOME_CMD_ARG1_REGION, protect := d.rd F.HOME_CMD_ARG0_RES_STATE == 1,
    bm := ⟨d.stagedBitmap 0, d.stagedBitmap 1, d.stagedBitmap 2, d.stagedBitmap 3⟩ }

/-- Operands of a region command in the staging registers (R617). -/
def Dev.stagedRegion (d : Dev) : RegionArgs :=
  { index := d.rd F.HOME_CMD_ARG0_INDEX, cls := d.rd F.HOME_CMD_ARG0_CLASS, pages := d.rd F.HOME_CMD_ARG2_PAGES,
    ptBase := d.rd F.HOME_CMD_PT_LO_PT_LO * 4096 + d.rd F.HOME_CMD_PT_HI_PT_HI * 2 ^ 32, publish := d.stagedBitmap 0 }

/-- GO of HOME_CMD with OP `op` (R617, R618); what may not start is dropped with QUEUE_FULL. -/
def Dev.homeCmd (m : Master) (v op : Nat) (d : Dev) : Dev :=
  if d.rd F.HOME_CMD_RESULT_BUSY = 1 ∨ (op = 3 ∧ 16 ≤ d.rd F.HOME_REV_STAT_PENDING) then d.dropWrite m 0x28 0x114 v 4
  else
    let d := d.wr F.HOME_CMD_RESULT_BUSY 1
    match op with
    | 1 => d.extCommand .grant none d.stagedExt
    | 2 => d.extCommand .widen none d.stagedExt
    | 3 => d.extCommand .revoke none d.stagedExt
    | 4 => d.extCommand .reserve none d.stagedExt
    | 5 => d.extCommand .release none d.stagedExt
    | 6 => d.regionCommand true none d.stagedRegion
    | _ => d.regionCommand false none d.stagedRegion

/-- GO of HOME_BITMAP_CLR (R617): every staging word is 0. -/
def Dev.bitmapClr (d : Dev) : Dev := (List.range 64).foldl (fun (d : Dev) i => d.wri F.HOME_BITMAP_BITS i 0) d

/-! ### Background work of the tiers (R164, R165, R172, R174, R175) -/

/-- A patrol goes on behind the line it has visited: one pass over all `lines` lines in each window of `hours` hours of tide time (R165,
R175). It keeps the next line, and 1 + the tide at which the last pass began. DESIGN CHOICE (log entry 60): in ascending order, each pass
begun as its window begins or later. -/
def Dev.patrolNext (d : Dev) (lines : Nat) (p : Nat × Nat) : Nat × Nat :=
  ((p.1 + 1) % lines, if p.1 = 0 then d.tim.tide + 1 else p.2)

/-- The patrol's turn has come to line `i`: within a pass, or in a window, of the length now in force, in which none has begun. -/
def Dev.patrolDue (d : Dev) (i hours : Nat) (p : Nat × Nat) : Bool :=
  p.1 == i && (i != 0 || p.2 == 0 || decide ((p.2 - 1) / us (hours * 3600000000) < d.tim.tide / us (hours * 3600000000)))

/-- Scrub reads line `l` out of the arrays, which have taken an error `m`: what its code corrects it corrects, an uncorrectable line is
recorded and left (R165, R175). -/
def Dev.scrubLine (l : Nat) (m : Media) (d : Dev) : Dev :=
  let d := (d.strikeOne l m).readFix l
  if d.lineErr l = 2 then d.mediaBad l 1 else d

/-- NEAR_SCRUB visits the line at near offset `off` (R165), the next of its patrol; a bank group without power has none to correct.
SCRUB_PASSES counts the end of a pass. -/
def Pkg.nearScrub (off : Nat) (media : Media) (x : Pkg) : Pkg :=
  let i := off % 0xA0000000 / 64
  let l := metaLine0 + i
  if !x.2.patrolDue i 1 x.2.home.nearPatrol then x
  else x.dev (fun d =>
    let d := if d.linePowered l then d.scrubLine l media else d
    let d := { d with home := { d.home with nearPatrol := d.patrolNext 0x2800000 d.home.nearPatrol } }
    if i = 0x2800000 - 1 then d.count 0x29 2 1 else d)

/-- BULK_SCRUB reads the line at bulk offset `off`, the next of its patrol (R172, R175), serialised like a write to it; 0 hours stops the
patrol. -/
def Pkg.bulkScrub (off : Nat) (media : Media) (x : Pkg) : Pkg :=
  let l := off % 0xC000000000 / 64
  let hours := x.2.rd F.BULK_CFG_SCRUB_HOURS
  if hours = 0 ∨ !x.2.patrolDue l hours x.2.home.bulkPatrol ∨ (x.2.opLines false).contains (x.2.unitOf l) then x
  else x.dev (fun d =>
    let d := if d.linePowered l then (d.checkBurst false l).scrubLine l media else d
    { d with home := { d.home with bulkPatrol := d.patrolNext 0x300000000 d.home.bulkPatrol } })

/-- CORRECTION_WRITEBACK (R172, R175): the corrected line and its burst are written; skipped if the line was written since. -/
def Pkg.correctionWriteback (l : Nat) (x : Pkg) : Pkg :=
  if (x.2.opLines false).contains (x.2.unitOf l) then x
  else x.dev (fun d =>
    let d := if d.home.fixes.contains (d.placeOf l, false) ∧ d.lineErr l = 1 then (d.checkBurst true l).mend l else d
    { d with home := { d.home with fixes := d.home.fixes.filter (fun e => e.1 != d.placeOf l) } })

/-- REFRESH of a bank of a device (R174): of the home operations that use the device, some number meets the refresh and
waits; which bank a line lies in is not given, so the number is free. -/
def Dev.refresh (dev : Nat) (d : Dev) : Dev :=
  let n := ((d.home.ops.flatMap (fun o => o.ws.filterMap (·.phys))).filter (fun l => decide (l < metaLine0) && d.bulkDevice l == dev)).length
  if n = 0 then d
  else
    let r := d.draw
    r.2.count 0x2A 3 (r.1 % (n + 1))

/-! ### Snapshots (R189–R191) -/

/-- The sampler's tables as the window that ends now leaves them: a request admitted at the snapshot instant is not in it (R190). -/
def Dev.smpWindow (d : Dev) : Tbl Nat × Tbl Nat × Tbl Nat × Tbl Nat :=
  if d.home.smpPrev.1 = d.ns + 1 then d.home.smpPrev.2 else (d.home.rdSmp, d.home.wrSmp, d.home.lastPage, d.home.lastLnd)

/-- A snapshot record (R189). -/
def Dev.smpRecord (d : Dev) (k : Nat) : List Byte :=
  let w := d.smpWindow
  natLE 4 (nget w.1 k) ++ natLE 4 (nget w.2.1 k) ++ natLE 2 (nget w.2.2.1 k % 128) ++ natLE 2 (nget w.2.2.2 k % 512) ++ natLE 4 0

/-- What a table has counted beyond `before`. -/
def tblMinus (now before : Tbl Nat) : Tbl Nat := (now.map (fun e => (e.1, e.2 - nget before e.1))).filter (fun e => e.2 != 0)

/-- GO of SMP_SNAP_CMD (R190, R191): the instant, the records on their way, the counters' next window, LOG2_N taken. -/
def Dev.snapshot (m : Master) (old v : Nat) (d : Dev) : Dev :=
  if d.rd F.SMP_SNAP_STAT_BUSY = 1 then (d.setWord (0x2C * 0x1000 + F.SMP_SNAP_CMD_GO.off) old).dropWrite m 0x2C 0x10C v 3
  else
    let d := (d.wr F.SMP_SNAP_TIME_LO_TIME_LO (d.ns % 2 ^ 32)).wr F.SMP_SNAP_TIME_HI_TIME_HI (d.ns / 2 ^ 32 % 2 ^ 32)
    let d := d.wr F.SMP_SNAP_STAT_BUSY 1
    let base := d.rd F.SMP_SNAP_BASE_LO_BASE_LO * 4096 + d.rd F.SMP_SNAP_BASE_HI_BASE_HI * 2 ^ 32
    let d := (List.range 3232).foldl (fun (d : Dev) k => d.hostWrite (base + 16 * k) (d.smpRecord k)) d
    let h := { d.home with logN := (d.rd F.SMP_CFG_LOG2_N_BULK, d.rd F.SMP_CFG_LOG2_N_NEAR) }
    let w := d.smpWindow
    let clear := d.rd F.SMP_SNAP_CMD_CLEAR == 1
    let h := if clear then { h with rdSmp := tblMinus h.rdSmp w.1, wrSmp := tblMinus h.wrSmp w.2.1 } else h
    { d with home := { h with smpPrev := (d.ns + 1, if clear then [] else w.1, if clear then [] else w.2.1, w.2.2) } }

/-- SNAPSHOT_COMPLETE (R191): the last record is visible in host memory. -/
def Dev.snapshotComplete (d : Dev) : Dev :=
  if d.rd F.SMP_SNAP_STAT_BUSY = 1 then ((d.wr F.SMP_SNAP_STAT_BUSY 0).bump F.SMP_SNAP_STAT_DONE_COUNT 1).event 0x2C 0 else d

/-! ### The commands -/

/-- NEAR_SCRUB (R165). -/
def execNearScrub (off : Nat) (media : Media) (s : State) : Host.Outcome State Fault Refusal := onPkg (Pkg.nearScrub off media) s

/-- BULK_SCRUB (R175). -/
def execBulkScrub (off : Nat) (media : Media) (s : State) : Host.Outcome State Fault Refusal := onPkg (Pkg.bulkScrub off media) s

/-- CORRECTION_WRITEBACK (R172). -/
def execCorrectionWriteback (line : Nat) (s : State) : Host.Outcome State Fault Refusal := onPkg (Pkg.correctionWriteback line) s

/-- REFRESH (R174). -/
def execRefresh (device : Fin 12) (_bank : Nat) (s : State) : Host.Outcome State Fault Refusal :=
  onDev (Dev.ifRuns (Dev.refresh device)) s

/-- REVOCATION_COMPLETE (R121). -/
def execRevocationComplete (index : Nat) (s : State) : Host.Outcome State Fault Refusal :=
  onDev (Dev.ifRuns (Dev.revocationComplete index)) s

/-- SNAPSHOT_COMPLETE (R191). -/
def execSnapshotComplete (s : State) : Host.Outcome State Fault Refusal := onDev (Dev.ifRuns Dev.snapshotComplete) s

end Sys2Proof.Machine
end

