-- ==== Sys2Proof/Machine/Prot.lean ====
section
/-!
DEFINITION. The protection engine's commands (R195–R230, R622, R623): binds, answers to its traffic, reconstruction,
loss of a member, stand-in, takeover by a spare.
-/
namespace Sys2Proof.Machine

/-! ### Recovery generations (R499) -/

/-- A procedure of a lower generation stops (R499). -/
def Dev.stopLower (g : Nat) (d : Dev) : Dev :=
  match d.home.rebuild with
  | some r => if r.gen < g then { d with home := { d.home with rebuild := none } }.wr F.PROT_REBUILD_STAT_PHASE 0 else d
  | none => d

/-- A recovery command of generation `g` (R499): `rule` gives its result and effect once the generation admits it. -/
def Dev.recovery (g : Nat) (rule : Dev → Nat × Dev) (d : Dev) : Nat × Dev :=
  if g < d.rd F.RCV_GEN_GEN then (rBadState, d)
  else if d.rd F.RCV_GEN_GEN < g then rule ((d.stopLower g).wr F.RCV_GEN_GEN g)
  else rule d

/-- A recovery command that came as a message: its result goes back (R499). -/
def Dev.recoveryMsg (src : Nat) (name : String) (g : Nat) (rule : Dev → Nat × Dev) (d : Dev) : Dev :=
  let r := d.recovery g rule
  r.2.ctrl src (.result name r.1)

/-! ### PROT_BIND (R197–R203) -/

/-- The result of a bind, to the registers or by message. -/
def Dev.bindResult (src : Option Nat) (result : Nat) (d : Dev) : Dev :=
  match src with
  | some n => d.ctrl n (.result "PROT_BIND" result)
  | none => ((d.wr F.PROT_BIND_RESULT_RESULT result).wr F.PROT_BIND_RESULT_BUSY 0).event 0x2B 0

/-- The DONE bind is passed on to the partner: the entry as it now stands (R198). -/
def Dev.passBind (k : Nat) (d : Dev) : Dev := if d.partnerOn then d.ctrl d.partner (.bindCopy k (protWord (d.prot k))) else d

/-- PROT_BIND of entry `word` to extent `k` (R198); a holder's bind computes parity first (R203). DESIGN CHOICE (log entry 58), where R198
does not say: an operand equal to the entry returns NO_CHANGE in any state of the extent; an index of 3,232 or more returns BAD_STATE. -/
def Dev.protBind (src : Option Nat) (k word : Nat) (d : Dev) : Dev :=
  let new := protOfWord word
  let old := d.prot k
  if 3232 ≤ k ∨ 4 < new.mode ∨ bit word 15 ∨ bits word 28 4 ≠ 0 then d.bindResult src rBadState
  else if { new with degraded := old.degraded } = old then d.bindResult src rNoChange
  else if (d.ext k).state ≠ 0 ∧ (d.ext k).state ≠ 5 then d.bindResult src rBadState
  else
    let d := d.setProt k { new with degraded := old.degraded }
    if new.mode = 2 then
      { d with home := { d.home with bindBusy := some (k, src, 0, false) } }.wr F.PROT_BIND_RESULT_BUSY 1
    else (d.passBind k).bindResult src rDone

/-- GO of PROT_BIND_CMD (R198, R230); one bind at a time. -/
def Dev.bindCmd (m : Master) (v : Nat) (d : Dev) : Dev :=
  if d.rd F.PROT_BIND_RESULT_BUSY = 1 ∨ d.home.bindBusy.isSome then d.dropWrite m 0x2B 0x124 v 4
  else d.protBind none (d.rd F.PROT_BIND_CMD_EXTENT) (d.rd F.PROT_BIND_ENTRY_ENTRY)

/-- A bind that a ward passes on enters its shadow protection table (R198, R218), which this package keeps for up to two wards. -/
def Dev.wardBind (ward k word : Nat) (d : Dev) : Dev :=
  if d.shadowRoom ward ∧ k < 3232 then
    d.setShadow ward (fun s => { s with prot := tset (fun _ => {}) s.prot k (protOfWord word) })
  else d

/-- The holder's bind in progress computes its next line: the XOR of the eight data lines, under the holds of R208 (R203). -/
def Pkg.bindNext (x : Pkg) : Pkg :=
  match x.2.home.bindBusy with
  | some (k, _, off, _) =>
    if x.2.home.recons.any (fun r => r.why == .bind) ∨ extSize k ≤ off then x
    else
      let p := x.2.ownPosition x.2.node
      x.startRecon x.2.node k off p p .bind
  | none => x

/-- PROT_BIND by message or by registers, and the first line of a holder's bind. -/
def Pkg.binding (f : Dev → Dev) (x : Pkg) : Pkg := (x.dev f).bindNext

/-- PROT_BIND by message: from the fabric manager, or passed on by a ward. -/
def Dev.protBindMsg (src : Nat) (m : BindMsg) (d : Dev) : Dev :=
  if m.passed then d.wardBind src m.index m.word
  else if d.fmAllowed src then
    if d.home.bindBusy.isSome then d.bindResult (some src) rBadState else d.protBind (some src) m.index m.word
  else d.fmDropped

/-- PARITY_COMPUTE_DONE (R203): the last of the `lines` parity lines of extent `ext` is written; before that the command has no effect. A
line that could not be computed gives BAD_STATE and leaves the entry PARITY_HOLD; R203 gives no result for it (DESIGN CHOICE, log entry
58). -/
def Dev.parityDone (ext lines : Nat) (d : Dev) : Dev :=
  match d.home.bindBusy with
  | none => d
  | some (k, src, off, bad) =>
    if off < extSize k ∨ k ≠ ext ∨ off ≠ 64 * lines then d
    else
      let d := { d with home := { d.home with bindBusy := none } }.wr F.PROT_BIND_RESULT_BUSY 0
      if bad then d.bindResult src rBadState else (d.passBind k).bindResult src rDone

/-- A parity line that a holder's bind has computed is written, and the next one follows. -/
def Pkg.bindLine (c : Recon) (x : Pkg) : Pkg :=
  match x.2.home.bindBusy with
  | some (k, src, off, bad) =>
    if k = c.ext ∧ off = c.off then
      let l := extBase k / 64 + off / 64
      let x := if c.failed then x else x.writeLine l c.acc .raw
      (x.dev (fun d => { d with home := { d.home with bindBusy := some (k, src, off + 64, bad || c.failed) } })).bindNext
    else x
  | none => x

/-! ### Answers to protection traffic (R207, R213, R622) -/

/-- The holds of `by_` on line `off` of extent `k` end (R208). -/
def Dev.dropHold (k off by_ : Nat) (d : Dev) : Dev :=
  { d with home := { d.home with rcHolds := d.home.rcHolds.filter (fun r => !(r.ext == k && r.off == off && r.by_ == by_)) } }

/-- The holds that a reconstruction for node `n` has at positions `ps` are released (R208, R221): an own one locally. -/
def Dev.releaseHolds (n k off : Nat) (ps : List Nat) (d : Dev) : Dev :=
  ps.foldl (fun (d : Dev) p =>
    let m := d.groupOf n p
    if m = d.node then d.dropHold k off m
    else d.emitTo m (.rcRelease m { src := d.node, ext := k, off := off, parity := false, ticket := d.ticket, tag := 0 })) d

/-- The answer to the protection request with purpose `p` (R485, R486): one that comes when the request timeout has ended, or to a request that
has ended, is late and discarded. -/
def Pkg.protAnswer (p : Purpose) (f : Pkg → Pkg) (x : Pkg) : Pkg :=
  match x.2.src.reqs.find? (fun o => o.acc.eng == 5 && o.acc.purpose == p) with
  | some o => if x.2.expired o then x.dev (fun d => d.count 0xC1 1 1) else f (x.dev (Dev.protEnded p))
  | none => x.dev (fun d => d.count 0xC1 1 1)

/-- JOURNAL_ANSWER (R622): a write not yet applied that ends with another status is refused with it, at a stand-in with its record at the spare
(R225). -/
def Pkg.journalAnswer (id status : Nat) (x : Pkg) : Pkg :=
  match x.2.opOf id with
  | none => x
  | some o =>
    if o.phase ≠ .journal then x
    else
      let x := if status = sNodeLost then x.dev (fun d => d.peerLost d.partner) else x
      let x := if status = sOk ∨ status = sNodeLost then
          (match o.kind with
          | .write => x.dev (Dev.pastJournal o)
          | _ => x.recorded o)
        else match o.kind with
          | .refused => x.recorded o
          | .note _ => x.finishOp o
          | _ => x.recorded { o with kind := .refused, status := status, applied := true, ws := [] }
      x.pump

/-- Where an operation goes once no answer is outstanding. -/
def Pkg.settleOp (o : HOp) (x : Pkg) : Pkg :=
  if o.deltas.isEmpty ∧ o.copies = 0 then
    match o.kind with
    | .write | .regionPte _ => x.dev (fun d => d.setOp { o with phase := .ready })
    | _ => x.finishOp o
  else x.dev (fun d => d.setOp o)

/-- DELTA_ANSWER (R205, R207): the data home writes the new line. -/
def Pkg.deltaAnswer (id line status : Nat) (x : Pkg) : Pkg :=
  match x.2.opOf id with
  | none => x
  | some o =>
    if !o.deltas.contains line then x
    else
      let p := x.2.protOf o.node o.ext
      let x := if status = sNodeLost then x.dev (fun d => d.peerLost (d.groupOf o.node p.holder))
        else if status ≠ sOk then x.dev (Dev.staleAdd line) else x
      let x := match o.ws.find? (fun w => w.line == line) with
        | some w => if o.applied then x else x.applyLine w
        | none => x
      let x := if x.2.stands o.node then
          x.dev (Dev.releaseHolds o.node o.ext (lineOff line) ((List.range 9).filter (fun q => q != x.2.ownPosition o.node && q != p.holder)))
        else x
      let left := o.deltas.filter (· != line)
      let bad := status != sOk && status != sNodeLost && o.status == sOk
      (x.settleOp { o with deltas := left, applied := o.applied || left.isEmpty, status := if bad then status else o.status }).pump

/-- MIRROR_ANSWER: a mirror write's answer (R213, R214), or a spare's to a forwarded write (R224). -/
def Pkg.mirrorAnswer (id status : Nat) (x : Pkg) : Pkg :=
  match x.2.opOf id with
  | none => x
  | some o =>
    if o.copies = 0 ∨ o.phase ≠ .protect then x
    else
      let ls := o.ws.map (·.line)
      let fwd := x.2.stands o.node
      let x := if fwd then x
        else if status = sOk then x.dev (fun d => ls.foldl (fun (d : Dev) l => d.staleDrop l) d)
        else if status = sNodeLost then x.dev (fun d => d.peerLost d.partner)
        else x.dev (fun d => ls.foldl (fun (d : Dev) l => d.staleAdd l) d)
      let bad := !fwd && status != sOk && status != sNodeLost
      (x.settleOp { o with copies := o.copies - 1, status := if bad then status else o.status }).pump

/-! ### Reconstruction (R208–R210) -/

/-- A survivor takes RC_READ (R208); a repeated one is answered again from the hold it has. -/
def Pkg.rcIn (m : RcMsg) (x : Pkg) : Pkg :=
  if 3232 ≤ m.ext then x
  else if !m.parity ∧ x.2.home.rcHolds.any (fun r => r.ext == m.ext && r.off == m.off && r.by_ == m.src) then
    (x.dev (Dev.dropHold m.ext m.off m.src)).serveRc m
  else x.enqueue (.rc m)

/-- RC_READ arrives in channel 1 (R412). -/
def Pkg.rcRead (m : RcMsg) (x : Pkg) : Pkg :=
  if x.2.chan1Open then x.rcIn m else x.dev (Dev.homeGate (.rc m))

/-- RC_RELEASE (R208). -/
def Pkg.rcRelease (m : RcMsg) (x : Pkg) : Pkg := (x.dev (Dev.dropHold m.ext m.off m.src)).pump

/-- RC_HOLD_TIMEOUT (R209): a hold for another package's reconstruction. -/
def Pkg.rcTimeout (k off : Nat) (x : Pkg) : Pkg :=
  match x.2.home.rcHolds.find? (fun r => r.ext == k && r.off == off && r.by_ != x.2.node) with
  | none => x
  | some r =>
    if r.since + us (x.2.rd F.RCV_CFG_REQ_TIMEOUT_US) ≤ x.2.tim.tide then
      (x.dev (fun d => { d with home := { d.home with rcHolds := d.home.rcHolds.filter (fun q => q != r) } }.count 0x2B 4 1)).pump
    else x

/-- Positions of the members that hold line for a reconstruction. -/
def Recon.parityHolder (r : Recon) (d : Dev) : Nat := (d.protOf r.node r.ext).holder

/-- Bad lines that a reconstruction gave are written back (R172, R210). -/
def Pkg.writeBack (o : HOp) (plain : List (List Byte)) (x : Pkg) : Pkg :=
  (o.ws.zip plain).foldl (fun (x : Pkg) (p : LineW × List Byte) =>
    if p.1.phys.any (fun l => x.2.lineErr l == 2) then x.applyLine { p.1 with bytes := p.2 } else x) x

/-- An operation whose last line is rebuilt goes on (R205, R210, R221): a failed line is one without bytes. DESIGN CHOICE (log entry 58), where
R207 and R210 do not say: a live home's write of whole lines whose old line cannot be reconstructed is applied without a delta, the lines are
logged as stale, and the write ends with DATA_ERROR. -/
def Pkg.reconReady (o : HOp) (x : Pkg) : Pkg :=
  let bad := o.ws.any (fun w => w.old == some [])
  let plain : List (List Byte) := o.ws.map (fun w => openLine w (w.old.getD []))
  match o.kind with
  | .read =>
    let x := x.dev (fun d => d.dropOp o.id)
    if bad then x.dev (fun d => let b := d.freeBytes o.len; b.2.endRead o.node o.req o.ext sDataError b.1)
    else
      let x := x.writeBack o plain
      let data := if o.akind = .migRead then o.ws.map (fun (w : LineW) => w.old.getD []) else plain
      x.dev (Dev.endRead o.node o.req o.ext sOk (spanBytes o.gpa o.len data))
  | .attn src op grp k =>
    let x := if bad then x else x.writeBack o plain
    let done := fun (g : ServeGroup) =>
      if bad then { g with waiting := g.waiting.filter (· != k), scored := g.scored ++ [k], status := modAt (fun _ => sDataError) g.status k }
      else { g with waiting := g.waiting.filter (· != k), rebuilt := g.rebuilt ++ [(k, spanBytes o.gpa o.len plain)] }
    x.dev (fun d => (d.dropOp o.id).setServe src op grp done)
  | _ =>
    if !bad then x.formLines o plain
    else if x.2.stands o.node then
      let x := x.dev (fun d => d.dropOp o.id)
      x.dev (Dev.endUnapplied o.node o.req o.akind o.ext sDataError true)
    else
      let olds := o.ws.map (fun (w : LineW) => if w.old == some [] then List.replicate 64 (0 : Byte) else openLine w (w.old.getD []))
      let r := x.2.newLines o olds
      (x.1, (r.1.ws.foldl (fun (d : Dev) w => d.staleAdd w.line) r.2).setOp { r.1 with status := sDataError, phase := .ready })

/-- The next line of a takeover's phase 3 or 4 (R223). -/
def Pkg.rebuildNext (x : Pkg) : Pkg :=
  match x.2.home.rebuild with
  | none => x
  | some r =>
    match r.todo with
    | [] => x.dev (Dev.sendRebuild r.spare r.lost r.gen (.phaseEnd r.phase) .copy)
    | k :: _ =>
      let p := x.2.protOf r.lost k
      let pos := x.2.ownPosition r.lost
      x.startRecon r.lost k r.next pos (if r.phase = 4 then pos else p.holder) .rebuild

/-- The cursor moves past a line (R224). -/
def Rebuild.advance (r : Rebuild) : Rebuild :=
  match r.todo with
  | [] => r
  | k :: l => if r.next + 64 < extSize k then { r with next := r.next + 64 } else { r with todo := l, next := 0 }

/-- PROGRESS of the present phase in thousandths (R230): the lines of phases 3 and 4, the items of phases 1 and 2, the wards of phase 5. -/
def Dev.setProgress (d : Dev) : Dev :=
  match d.home.rebuild with
  | some r =>
    let of := fun (done all : Nat) => d.wr F.PROT_REBUILD_STAT_PROGRESS (if all = 0 then 1000 else min 1000 (done * 1000 / all))
    if r.phase = 3 ∨ r.phase = 4 then of (r.total - ((r.todo.map extSize).sum - r.next) / 64) r.total else of r.acked r.items
  | none => d

/-- The spare has acknowledged a rebuild copy: one more item of the phase is done (R230). -/
def Dev.copyAcked (d : Dev) : Dev :=
  match d.home.rebuild with
  | some r => if r.phase ≤ 2 then { d with home := { d.home with rebuild := some { r with acked := r.acked + 1 } } }.setProgress else d
  | none => d

/-- A reconstruction has its last answer (R208): the line goes to what it was for, and the holds are released, except
those that a stand-in's write keeps until its delta is answered (R221). DESIGN CHOICE (log entry 32): a line of phase 3 or 4 that cannot be
reconstructed is passed over, and the spare keeps what it held; R223 does not say. -/
def Pkg.reconDone (c : Recon) (x : Pkg) : Pkg :=
  let x := x.dev (fun d => { d with home := { d.home with recons := d.home.recons.filter (fun r => r.id != c.id) } })
  let keep : Bool := match c.why with
    | .op id => match x.2.opOf id with
      | some o => o.kind == .write && x.2.stands c.node && !c.failed
      | none => false
    | _ => false
  let x := if keep then x else x.dev (Dev.releaseHolds c.node c.ext c.off c.held)
  let l := extGpa c.node c.ext c.off / 64
  let x := match c.why with
    | .op id =>
      match x.2.opOf id with
      | none => x
      | some o =>
        let o := { o with ws := o.ws.map (fun (w : LineW) => if w.line = l then { w with old := some (if c.failed then [] else c.acc) } else w) }
        let x := x.dev (fun d => d.setOp o)
        if o.ws.any (fun w => w.old.isNone) then x else x.reconReady o
    | .repair line =>
      if c.failed then x
      else x.dev (fun d => (d.staleDrop line).sendRebuild (d.groupOf c.node (c.parityHolder d)) d.node (d.rd F.RCV_GEN_GEN) (.line c.ext c.off c.acc) .copy)
    | .bind => x.bindLine c
    | .rebuild =>
      match x.2.home.rebuild with
      | none => x
      | some r =>
        let x := if c.failed then x else x.dev (Dev.sendRebuild r.spare r.lost r.gen (.line c.ext c.off c.acc) .copy)
        (x.dev (fun d => { d with home := { d.home with rebuild := some r.advance } }.setProgress)).rebuildNext
  x.pump

/-- The line of position `member` has come for reconstruction `id`, or has failed it (R208, R209); after the survivors the parity line is
read. -/
def Pkg.reconTake (id member : Nat) (bad : Bool) (data : List Byte) (x : Pkg) : Pkg :=
  match x.2.home.recons.find? (fun r => r.id == id) with
  | none => x
  | some c =>
    if !c.waiting.contains member then x
    else
      let left := c.waiting.filter (· != member)
      let c := { c with waiting := left, failed := c.failed || bad, acc := if bad then c.acc else xorBytes c.acc (sliceBytes data 0 64) }
      let h := c.parityHolder x.2
      let askParity := left.isEmpty && !c.parityDone
      let c := if askParity then { c with parityDone := true, waiting := [h] } else c
      let x := x.dev (fun d => { d with home := { d.home with recons := d.home.recons.map (fun r => if r.id = id then c else r) } })
      if askParity then Pkg.pump (x.dev (Dev.rcAsk id c.node c.ext c.off h true))
      else if c.waiting.isEmpty then x.reconDone c
      else x

/-- RECONSTRUCT_ANSWER (R208, R209): the answer of a member. -/
def Pkg.reconAnswer (id member status : Nat) (stale : Bool) (data : List Byte) (x : Pkg) : Pkg :=
  x.reconTake id member (stale || status != sOk) data

/-- What has been read locally for a reconstruction is taken (R208). -/
def Pkg.reconStep (x : Pkg) : Option Pkg :=
  x.2.home.recons.findSome? (fun c => match c.own with
    | [] => none
    | v :: l => some (Pkg.reconTake c.id v.1 v.2.1 v.2.2 (x.dev (fun d => { d with home := { d.home with
        recons := d.home.recons.map (fun r => if r.id = c.id then { r with own := l } else r) } }))))

/-- PROT_REPAIR names a logged line (R207, R213): its parity is recomputed, or it is copied to the partner. -/
def Pkg.protRepair (src line : Nat) (x : Pkg) : Pkg :=
  let k := gpaExt (line * 64)
  let n := x.2.node
  let p := x.2.prot k
  if !x.2.fmAllowed src then x.dev Dev.fmDropped
  else if !x.2.home.stale.contains line then x.dev (fun d => d.ctrl src (.result "PROT_REPAIR" rNoChange))
  else if p.mode = 1 then
    (Pkg.pump (x.startRecon n k (lineOff line) p.holder p.holder (.repair line))).dev (fun d => d.ctrl src (.result "PROT_REPAIR" rDone))
  else match x.2.mirrorExt n k with
    | some c =>
      let l := line % 2 ^ 39
      let meta? := (x.2.ext k).state == 3
      let bytes := if meta? then x.plain l (.metadata l) else x.cipher l
      let o := { blankOp n default .table 0 (line * 64) 64 k with
        kind := .repair, counted := false, applied := true, phase := .protect, copies := 1, ws := [LineW.mk line none none meta? bytes none] }
      let q := x.2.addOp o
      (x.1, (q.2.sendMirror q.1 c (lineOff line) bytes none).ctrl src (.result "PROT_REPAIR" rDone))
    | none => x.dev (fun d => d.ctrl src (.result "PROT_REPAIR" rBadState))

/-! ### Loss of a member, stand-in (R219–R221) -/

/-- PROT_MEMBER_LOST (R219, R499). -/
def Dev.memberLost (a : NodeGen) (d : Dev) : Nat × Dev :=
  let pos := d.positionOf a.node
  let isPartner := d.rd F.PROT_CFG_PARTNER_EN == 1 && d.partner == a.node
  let present := (match pos with | some p => bit (d.rd F.PROT_GROUP_LOST) p | none => true) && (!isPartner || d.home.partnerLost)
  if present then (rNoChange, d) else (rDone, d.peerLost a.node)

/-- PROT_STANDIN (R220) at the partner; at a spare in RESYNC it makes the takeover's ALIAS (R225). A package that keeps no shadow of the
node answers BAD_STATE, for which R220 has no rule (DESIGN CHOICE, log entry 58); it keeps shadows of two at most, and so stands in for two at
most (R138). -/
def Dev.standin (a : NodeGen) (d : Dev) : Nat × Dev :=
  if d.home.aliases.any (fun e => e.1 == a.node) then (rNoChange, d)
  else if d.stage = 3 then
    match d.home.rebuildFrom with
    | some p =>
      let d := (d.wr F.PROT_CFG_PARTNER p).wr F.PROT_CFG_PARTNER_EN 1
      (rDone, { d with home := { d.home with partnerLost := false } }.addAlias a.node false)
    | none => (rBadState, d)
  else match d.home.shadows.find? (fun s => s.ward == a.node) with
    | none => (rBadState, d)
    | some s => (rDone, (s.ord.foldl (fun (d : Dev) e => d.setOrd (8192 * (1 + a.node) + e.1) e.2) d).addAlias a.node true)

/-- PROT_MEMBER_RESTORE (R224): deltas to the lost holder resume. -/
def Dev.memberRestore (a : NodeGen) (d : Dev) : Nat × Dev :=
  match d.positionOf a.node with
  | none => (rBadState, d)
  | some p =>
    if d.home.resumed.contains p then (rNoChange, d)
    else (rDone, { d with home := { d.home with resumed := d.home.resumed ++ [p] } })

/-! ### Takeover (R222–R228) -/

def Dev.setPhase (p : Nat) (d : Dev) : Dev := (d.wr F.PROT_REBUILD_STAT_PHASE p).event 0x2B 1

/-- L's extents of a kind, out of its shadow protection table and its metadata copy. -/
def Pkg.lostExts (x : Pkg) (lost : Nat) (p : ProtEnt → Nat → Bool) : List Nat :=
  ((x.2.shadow lost).prot.filter (fun e => p e.2 (x.extOf lost e.1).state)).map (·.1)

/-- A whole extent as it stands in this package's copy at extent `c`, for the spare. -/
def Pkg.extentItem (x : Pkg) (k c : Nat) (metadata : Bool) : RebuildItem :=
  .extent k metadata ((x.listed c).map (fun off =>
    let l := extBase c / 64 + off / 64
    (off, if metadata then x.plain l (.metadata l) else x.cipher l)))

/-- A phase of the takeover is under way, with these extents to rebuild and this many items to send. -/
def Dev.startPhase (r : Rebuild) (todo : List Nat) (items : Nat) (d : Dev) : Dev :=
  ({ d with home := { d.home with
    rebuild := some { r with todo := todo, next := 0, total := (todo.map extSize).sum / 64, items := items, acked := 0 } } }.setPhase r.phase).setProgress

/-- What phases 1 and 2 send at once (R223): L's extents out of P's copies, in phase 1 its shadow tables too. -/
def Pkg.phaseItems (r : Rebuild) (x : Pkg) : List RebuildItem :=
  let l := r.lost
  let copies := fun (ks : List Nat) (m : Bool) => ks.filterMap (fun k => (x.2.copyOf l k).map (fun c => x.extentItem k c m))
  if r.phase = 1 then
    copies (3072 :: x.lostExts l (fun e st => e.mode == 3 && st == 3)) true
      ++ (x.2.shadow l).prot.map (fun e => .protEntry e.1 (protWord e.2))
      ++ (x.2.home.ord.filter (fun e => e.1 / 8192 == 1 + l)).map (fun e => .orderEntry (e.1 % 8192 / 64) (e.1 % 64) e.2.expect e.2.hist)
  else copies (x.lostExts l (fun e st => e.mode == 3 && st != 3)) false

/-- A phase begins (R223): phases 1 and 2 send P's copies at once, 3 and 4 rebuild line by line. -/
def Pkg.beginPhase (r : Rebuild) (x : Pkg) : Pkg :=
  let l := r.lost
  let send := fun (d : Dev) (i : RebuildItem) => d.sendRebuild r.spare l r.gen i .copy
  match r.phase with
  | 1 | 2 =>
    let items := x.phaseItems r
    x.dev (fun d => send (items.foldl send (d.startPhase r [] items.length)) (.phaseEnd r.phase))
  | 3 => (x.dev (Dev.startPhase r (x.lostExts l (fun e _ => e.mode == 1)) 0)).rebuildNext
  | _ =>
    let x := x.dev (Dev.startPhase r (x.lostExts l (fun e _ => e.mode == 2)) 0)
    let x := x.dev (fun d => ((List.range 9).filter (fun p => d.groupOf l p != d.node && d.groupOf l p != l)).foldl
      (fun (d : Dev) p => d.ctrl (d.groupOf l p) (.memberRestore l r.gen)) d)
    let x := x.dev (fun d => if (d.positionOf l).isSome then (d.memberRestore ⟨l, r.gen⟩).2 else d)
    x.rebuildNext

/-- REBUILD_START (R223, R228) at the stand-in. DEDUCED: a spare that is L itself (R505) does not crowd its own place. DESIGN CHOICE (log entry
58): a package that does not stand in for L returns BAD_STATE, a case that R223 does not list. -/
def Pkg.rebuildStart (src : Nat) (a : NodeGen) (spare : Nat) (spareRole : Bool) (st lt : Nat) (x : Pkg) : Pkg :=
  let answer := fun (r : Nat) (x : Pkg) => x.dev (fun d => d.ctrl src (.result "REBUILD_START" r))
  if a.gen < x.2.rd F.RCV_GEN_GEN then answer rBadState x
  else
    let x := if x.2.rd F.RCV_GEN_GEN < a.gen then x.dev (fun d => (d.stopLower a.gen).wr F.RCV_GEN_GEN a.gen) else x
    let tray := x.2.trayOf spare
    let grouped := (x.2.positionOf a.node).isSome || (x.2.shadow a.node).prot.any (fun e => e.2.mode == 1 || e.2.mode == 2)
    let members := (a.node :: (List.range 9).map (x.2.groupOf a.node)).filter (fun n => n != a.node || spare != a.node)
    let crowded := tray == x.2.trayOf x.2.node || (grouped && members.any (fun n => x.2.trayOf n == tray))
    let same := match x.2.home.rebuild with
      | some r => r.gen == a.gen && r.lost == a.node
      | none => false
    if same then answer rNoChange x
    else if !spareRole ∨ st ≠ lt ∨ crowded ∨ !x.2.stands a.node then answer rBadState x
    else
      let r : Rebuild := { lost := a.node, spare := spare, gen := a.gen, phase := 1, todo := [], next := 0, total := 0, wards := [], fm := src }
      (answer rDone x).beginPhase r

/-- REBUILD_PHASE_ACK (R223, R225): the spare has the phase's last line. -/
def Pkg.phaseAck (phase : Nat) (x : Pkg) : Pkg :=
  match x.2.home.rebuild with
  | none => x
  | some r =>
    if r.phase ≠ phase ∨ !r.todo.isEmpty ∨ 4 < phase then x
    else if phase < 4 then x.beginPhase { r with phase := phase + 1 }
    else x.dev (fun d => ({ d with home := { d.home with rebuild := some { r with phase := 6 } } }.setPhase 6).ctrl r.fm (.rebuildReady r.lost))

/-- DEGRADED and LOST clear at a member of L's group (R226). -/
def Dev.memberClear (lost : Nat) (d : Dev) : Dev :=
  match d.positionOf lost with
  | some p =>
    let d := (d.extsOfMode (fun e => e.mode == 1 && e.holder == p)).foldl (fun (d : Dev) k => d.setProt k { d.prot k with degraded := false }) d
    { d with home := { d.home with resumed := d.home.resumed.filter (· != p) } }.wr F.PROT_GROUP_LOST (putBit (d.rd F.PROT_GROUP_LOST) p false)
  | none => d

/-- Phase 5 ends once every ward has finished (R226): REBUILD_DONE is reported, and the members of L's group clear. -/
def Dev.rebuildOver (d : Dev) : Dev :=
  match d.home.rebuild with
  | some r =>
    if r.phase = 5 ∧ r.wards.isEmpty then
      let d := { d with home := { d.home with rebuild := some { r with phase := 7 } } }.setPhase 7
      let d := ((List.range 9).filter (fun p => d.groupOf r.lost p != d.node)).foldl (fun (d : Dev) p => d.ctrl (d.groupOf r.lost p) (.memberCleared r.lost)) d
      (d.ctrl r.fm (.rebuildDone r.lost)).memberClear r.lost
    else d
  | none => d

/-- REBUILD_DONE (R226): at the stand-in, the report of a ward that has finished; at a member of L's group, the stand-in's. -/
def Dev.rebuildDone (src lost : Nat) (d : Dev) : Dev :=
  match d.home.rebuild with
  | some r =>
    if r.lost = lost ∧ r.phase = 5 then
      let left := r.wards.filter (· != src)
      ({ d with home := { d.home with rebuild := some { r with wards := left, acked := r.items - left.length } } }.setProgress).rebuildOver
    else d.memberClear lost
  | none => d.memberClear lost

/-- ALIAS_CLEAR (R225): after the drain interval the stand-in's ALIAS goes; phase 5 begins at the wards of L (R226). -/
def Dev.aliasClear (src node : Nat) (d : Dev) : Dev :=
  if !d.fmAllowed src then d.fmDropped
  else if !d.home.aliases.any (fun e => e.1 == node) then d.ctrl src (.result "ALIAS_CLEAR" rNoChange)
  else
    let wards := (((d.shadow node).prot.filter (fun e => e.2.mode == 4)).map (fun e => e.2.peerNode)).dedup
    let d := d.dropAlias node
    let d := match d.home.rebuild with
      | some r =>
        if r.lost = node ∧ r.phase = 6 then
          let d := ({ d with home := { d.home with rebuild := some { r with phase := 5, wards := wards, items := wards.length, acked := 0 } } }.setPhase 5).setProgress
          (wards.foldl (fun (d : Dev) w => d.ctrl w (.wardsPhase node r.spare)) d).rebuildOver
        else d
      | none => d
    d.ctrl src (.result "ALIAS_CLEAR" rDone)

/-- Near extent 0 as this package sends it to a new partner (R214, R226): its tables and what else it holds. -/
def Pkg.metaItem (x : Pkg) : RebuildItem :=
  let tables := ((List.range 32768).filter (fun i => x.2.tableLine i != List.replicate 64 0)).map (fun i => (64 * i, x.2.tableLine i))
  let rest := (x.listed 3072).filter (fun off => decide (0x200000 ≤ off))
  .extent (3072 + x.2.rd F.PROT_CFG_META_COPY) true
    (tables ++ rest.map (fun off => (off, x.plain (extBase 3072 / 64 + off / 64) (.metadata (extBase 3072 / 64 + off / 64)))))

/-- WARDS_PHASE at a ward of the lost package (R226): the spare becomes its partner and takes its order table and the copies of its MIRROR and
SYSTEM extents. Each extent stays DEGRADED until its copy is acknowledged, while later writes to it go to the spare too. -/
def Pkg.wardsPhase (src lost spare : Nat) (x : Pkg) : Pkg :=
  if x.2.rd F.PROT_CFG_PARTNER_EN = 0 ∨ x.2.partner ≠ lost then x
  else
    let x := x.dev (fun d => { d with home := { d.home with partnerLost := false } }.wr F.PROT_CFG_PARTNER spare)
    let ks := x.2.extsOfMode (fun e => e.mode == 3)
    let own := (x.2.home.ord.filter (fun e => e.1 / 8192 == 0)).map
      (fun e => (4095, RebuildItem.orderEntry (e.1 % 8192 / 64) (e.1 % 64) e.2.expect e.2.hist))
    let items := own ++ [(3072, x.metaItem)]
      ++ ks.map (fun k => (k, x.extentItem (x.2.prot k).peerExt k ((x.2.ext k).state == 3)))
    x.dev (fun d =>
      let d := { d with home := { d.home with wardRun := some ⟨src, lost, items.map (·.1), ks⟩ } }
      items.foldl (fun (d : Dev) i => d.sendRebuild spare d.node (d.rd F.RCV_GEN_GEN) i.2 (.wardCopy i.1)) d)

/-- The spare has acknowledged a copy of phase 5 (R226): the extent is redundant again; after the last the stand-in hears of it. DESIGN CHOICE
(log entry 69): a copy that the spare refuses stays outstanding, and phase 5 does not end. -/
def Dev.wardAcked (k status : Nat) (d : Dev) : Dev :=
  match d.home.wardRun with
  | none => d
  | some w =>
    if status ≠ sOk ∨ !w.left.contains k then d
    else
      let left := w.left.erase k
      let d := if k = 4095 ∨ k = 3072 then d else d.setProt k { d.prot k with degraded := false }
      if left.isEmpty then { d with home := { d.home with wardRun := none } }.ctrl w.standin (.wardDone w.lost)
      else { d with home := { d.home with wardRun := some { w with left := left } } }

/-! ### What waited at the home's boundary (R50, R53, R179, R412, R604) -/

/-- The requester that a waiting request comes from: its source engine. DESIGN CHOICE (log entry 59): these are the requesters of the home's
arbiter. -/
def HArr.source : HArr → Nat
  | .write _ w => 64 * w.hdr.srcNode + w.hdr.srcEngine
  | .read _ r _ | .region _ r => 64 * r.hdr.srcNode + r.hdr.srcEngine
  | .pte src .. => 64 * src + 63
  | .rc m => 64 * m.src + 5
  | .query q => 64 * q.src + 0x28

/-- The home has room for a waiting request (R179, R333, R412). -/
def Dev.gateRoom (d : Dev) : HArr → Bool
  | .write n w => d.roomFor n w
  | .rc _ => decide (d.chan1Held < 1024)
  | .query q => d.queryTakes q
  | _ => decide (d.inflSum < 16384)

/-- The first of `l` at or after the arbiter's pointer (R53): of one requester the oldest. -/
def Dev.gateFirst (d : Dev) (l : List HArr) : Option HArr :=
  let key := fun (a : HArr) => (a.source + 2 ^ 20 - d.home.gatePtr % 2 ^ 20) % 2 ^ 20
  l.foldl (fun (best : Option HArr) a => match best with
    | none => some a
    | some b => if key a < key b then some a else best) none

/-- Which waiting request is taken next: one of channel 1 before all others (R412). -/
def Dev.gatePick (d : Dev) : Option HArr :=
  let l := d.home.gate.filter d.gateRoom
  match d.gateFirst (l.filter HArr.chan1) with
  | some a => some a
  | none => d.gateFirst l

/-- A request that waited is taken. -/
def Pkg.enterHome (a : HArr) (x : Pkg) : Pkg :=
  match a with
  | .write n w => x.writeIn n w
  | .read kind r media => x.readIn kind r media
  | .region pub r => if pub then x.publishIn r else x.versionIn r
  | .pte src region page entry media => x.regionPteIn src region page entry media
  | .rc m => x.rcIn m
  | .query q => x.queryIn q

/-- What the home does next of itself: a line read locally is taken, a held write whose turn has come, a request at the boundary. -/
def Pkg.homeStep (x : Pkg) : Option Pkg :=
  match x.reconStep with
  | some y => some y
  | none =>
    if !x.2.homeOn then none
    else match x.2.dueEarly with
      | some w => some (x.takeWr w.node w.wr).pump
      | none => x.2.gatePick.map (fun a =>
          Pkg.enterHome a (x.1, { x.2 with home := { x.2.home with gate := x.2.home.gate.erase a, gatePtr := a.source + 1 } }))

/-- Steps of `homeStep` while there are any, at most `fuel`. -/
def Pkg.homeGoFor : Nat → Pkg → Pkg
  | 0, x => x
  | f + 1, x => match x.homeStep with
    | some y => Pkg.homeGoFor f y
    | none => x

/-- The home goes on as far as it can. -/
def Pkg.homeGo (x : Pkg) : Pkg := Pkg.homeGoFor (x.2.home.gate.length + x.2.home.store.length + 10 * x.2.home.recons.length) x

/-- `f`, and where something waited for the home before it, the home then goes on as far as it can (R179). -/
def Pkg.thenHome (f : Pkg → Pkg) (x : Pkg) : Pkg := if x.2.homeIdle then f x else (f x).homeGo

/-- A command that may end requests of the home. -/
def onHome (f : Pkg → Pkg) (s : State) : Host.Outcome State Fault Refusal := onPkg (Pkg.thenHome f) s

/-! ### The commands -/

/-- WRITE_PERFORMED (R127). -/
def execWritePerformed (op : Nat) (s : State) : Host.Outcome State Fault Refusal := onHome (Pkg.writePerformed op) s

/-- ORDER_HOLE_TIMEOUT (R495). -/
def execOrderHoleTimeout (node src eng : Nat) (s : State) : Host.Outcome State Fault Refusal :=
  onHome (Pkg.holeTimeout node src eng) s

/-- ORDER_RESYNC (R497). -/
def execOrderResync (node src eng rseq : Nat) (s : State) : Host.Outcome State Fault Refusal :=
  onHome (Pkg.orderResync node src eng rseq) s

/-- QUARANTINE_END (R497). -/
def execQuarantineEnd (node src eng : Nat) (s : State) : Host.Outcome State Fault Refusal :=
  onHome (Pkg.quarantineEnd node src eng) s

/-- PARITY_COMPUTE_DONE (R203). -/
def execParityComputeDone (ext lines : Nat) (s : State) : Host.Outcome State Fault Refusal := onPkg (Pkg.dev (Dev.parityDone ext lines)) s

/-- PARITY_DELTA (R204, R206). -/
def execParityDelta (d : DeltaMsg) (s : State) : Host.Outcome State Fault Refusal := onPkg (Pkg.arriveWrite d.forNode (.delta d)) s

/-- DELTA_ANSWER (R207). -/
def execDeltaAnswer (op line status : Nat) (s : State) : Host.Outcome State Fault Refusal := onHome (Pkg.protAnswer (.delta op line) (Pkg.deltaAnswer op line status)) s

/-- MIRROR_WRITE (R212). -/
def execMirrorWrite (w : MirrorMsg) (s : State) : Host.Outcome State Fault Refusal := onPkg (Pkg.arriveWrite w.forNode (.mirror w)) s

/-- MIRROR_ANSWER (R213). -/
def execMirrorAnswer (op status : Nat) (s : State) : Host.Outcome State Fault Refusal := onHome (Pkg.protAnswer (.mirrorCopy op) (Pkg.mirrorAnswer op status)) s

/-- JOURNAL_MESSAGE (R217, R218). -/
def execJournalMessage (j : JournalMsg) (s : State) : Host.Outcome State Fault Refusal := onPkg (Pkg.arriveWrite j.forNode (.journal j)) s

/-- JOURNAL_ANSWER (R622). -/
def execJournalAnswer (op status : Nat) (s : State) : Host.Outcome State Fault Refusal := onHome (Pkg.protAnswer (.journal op) (Pkg.journalAnswer op status)) s

/-- PROT_REPAIR (R207, R213). -/
def execProtRepair (src line : Nat) (s : State) : Host.Outcome State Fault Refusal := onPkg (fun x => (x.protRepair src line).homeGo) s

/-- RC_READ (R208). -/
def execRcRead (r : RcMsg) (s : State) : Host.Outcome State Fault Refusal := onPkg (Pkg.rcRead r) s

/-- RC_RELEASE (R208). -/
def execRcRelease (r : RcMsg) (s : State) : Host.Outcome State Fault Refusal := onHome (Pkg.rcRelease r) s

/-- RC_HOLD_TIMEOUT (R209). -/
def execRcHoldTimeout (ext off : Nat) (s : State) : Host.Outcome State Fault Refusal := onHome (Pkg.rcTimeout ext off) s

/-- RECONSTRUCT_ANSWER (R208, R209). -/
def execReconstructAnswer (op member status : Nat) (stale : Bool) (data : List Byte) (s : State) : Host.Outcome State Fault Refusal :=
  onHome (Pkg.protAnswer (.rcRead op member) (Pkg.reconAnswer op member status stale data)) s

/-- PROT_MEMBER_LOST (R219). -/
def execProtMemberLost (src : Nat) (a : NodeGen) (s : State) : Host.Outcome State Fault Refusal :=
  onDev (Dev.ifRuns (fun d => d.fromFm src (Dev.recoveryMsg src "PROT_MEMBER_LOST" a.gen (Dev.memberLost a)))) s

/-- PROT_STANDIN (R220, R225). -/
def execProtStandin (src : Nat) (a : NodeGen) (s : State) : Host.Outcome State Fault Refusal :=
  onDev (Dev.ifRuns (fun d => d.fromFm src (Dev.recoveryMsg src "PROT_STANDIN" a.gen (Dev.standin a)))) s

/-- PROT_MEMBER_RESTORE (R224). -/
def execProtMemberRestore (src : Nat) (a : NodeGen) (s : State) : Host.Outcome State Fault Refusal :=
  onDev (Dev.ifRuns (Dev.recoveryMsg src "PROT_MEMBER_RESTORE" a.gen (Dev.memberRestore a))) s

/-- REBUILD_START (R223, R228). -/
def execRebuildStart (src : Nat) (a : NodeGen) (spare : Nat) (spareRole : Bool) (spareTicket lostTicket : Nat) (s : State) : Host.Outcome State Fault Refusal :=
  onPkg (fun x => if x.2.fmAllowed src then x.rebuildStart src a spare spareRole spareTicket lostTicket else x.dev Dev.fmDropped) s

/-- REBUILD_COPY (R126, R223–R226). -/
def execRebuildCopy (src node gen : Nat) (b : RebuildBody) (s : State) : Host.Outcome State Fault Refusal :=
  onPkg (fun x => x.arriveWrite x.2.node (.rebuild { src := src, node := node, gen := gen, item := b.item, ticket := b.ticket, tag := b.tag, manifest := b.manifest, cmark := b.cmark })) s

/-- REBUILD_PHASE_ACK (R223). -/
def execRebuildPhaseAck (phase : Nat) (s : State) : Host.Outcome State Fault Refusal := onPkg (fun x => (x.phaseAck phase).pump.homeGo) s

/-- WARDS_PHASE (R226). -/
def execWardsPhase (src lost spare : Nat) (s : State) : Host.Outcome State Fault Refusal := onPkg (Pkg.wardsPhase src lost spare) s

/-- REBUILD_DONE (R226). -/
def execRebuildDone (r : RebuildReport) (s : State) : Host.Outcome State Fault Refusal := onDev (Dev.ifRuns (Dev.rebuildDone r.src r.lost)) s

/-- ALIAS_CLEAR (R225). -/
def execAliasClear (src node : Nat) (s : State) : Host.Outcome State Fault Refusal := onDev (Dev.ifRuns (Dev.aliasClear src node)) s

end Sys2Proof.Machine
end

