-- ==== Sys2Proof/Machine/Access.lean ====
section
/-!
DEFINITION. How an engine's pool access becomes a request (R65, R126, R380, R446, R463, R464), and context entries as
they stand in near extent 0 (R62, R80, R81, R109).
-/
namespace Sys2Proof.Machine

/-! ### From an access to its request -/

/-- OPCODE of an access (R464). -/
def AKind.opcode : AKind → Nat
  | .read | .table | .spanRead => 0x01
  | .write | .migWrite => 0x02
  | .atomic => 0x03
  | .reduce => 0x04
  | .verRead => 0x0B
  | .publish => 0x0C
  | .pteWrite => 0x11
  | .migRead => opMigRead

/-- Whether an access names a region in place of a GPA. -/
def AKind.byRegion : AKind → Bool
  | .verRead | .publish | .pteWrite => true
  | _ => false

/-- Destination node of an access (R77, R152). -/
def Acc.dest (a : Acc) : Nat := if a.kind.byRegion then bits a.region 13 7 else gpaNode a.gpa

/-- Class of an access (R380): the writes of ferries and arrays are BULK. -/
def Acc.cls (a : Acc) : Nat := if a.kind.isWrite && decide (8 ≤ a.eng) && decide (a.eng < 0x38) then 2 else 0

/-- The operand slot of an access (R463). -/
def Acc.opd (a : Acc) : Opd :=
  { addr := if a.kind.byRegion then a.region % 2 ^ 20 + a.page % 2 ^ 23 * 2 ^ 20 else a.gpa
    lengthM1 := a.len - 1, aop := a.aop, fetch := a.fetch, mfmt := a.mfmt, cfmt := a.cfmt }

/-- The request of an access, before its tag and manifest number. -/
def Dev.accReq (d : Dev) (a : Acc) : Req :=
  { hdr := { dest := a.dest, srcNode := d.node, srcEngine := a.eng, cls := a.cls, len := min 17 (2 + ceilDiv a.data.length 16)
             ticket := a.ticket, dstPort := 29, opcode := a.kind.opcode, reqLanding := globalLanding d.node a.landing }
    opd := a.opd, data := a.data, holes := a.holes, image := a.image }

/-- The access goes to its source engine (R129–R134). -/
def Dev.issueAcc (a : Acc) (d : Dev) : Dev :=
  let msg := match a.kind with
    | .migWrite => Emit.migrate (d.accReq a) a.srcGpa
    | _ => Emit.req (d.accReq a)
  d.issue { acc := a, msg := msg, dest := a.dest, tag := 0, man := none, bytes := a.len,
            lines := if a.kind.byRegion then [] else linesOf a.gpa (if a.kind = .reduce then reduceBytes a.mfmt a.cfmt a.len else a.len), firstAt := 0, sentAt := 0, bounces := 0 }

/-- A table read of the XLT block (R91). -/
def Dev.tableRead (p : Purpose) (ctx landing ticket gpa len : Nat) (d : Dev) : Dev :=
  let r := d.newId
  r.2.issueAcc { id := r.1, eng := 7, ctx := ctx, landing := landing, ticket := ticket, kind := .table, gpa := gpa, len := len, purpose := p }

/-! ### Context entries -/

/-- A segment out of its 32 bytes (R81); BASE and LIMIT as landing virtual pages. -/
def parseSeg (v : List Byte) : Seg :=
  let a := leNat (sliceBytes v 0 8)
  { valid := bit a 0, perm := bits a 1 4, base := bits a 21 36, limit := bits (leNat (sliceBytes v 8 8)) 21 36,
    region := bits (leNat (sliceBytes v 16 4)) 0 20, rpage := bits (leNat (sliceBytes v 24 8)) 0 23 }

/-- A context entry out of its first 576 bytes (R80, R81, R109). -/
def parseCtx (v : List Byte) : CtxEnt :=
  let a := leNat (sliceBytes v 0 8)
  let b := leNat (sliceBytes v 8 8)
  { valid := bit a 0, landing := bits a 1 2, ring := bits b 0 4, thresh := bits b 16 16, timer := bits b 32 20,
    segs := (List.range 16).map (fun s => parseSeg (sliceBytes v (64 + 32 * s) 32)) }

/-- GPA of context entry `c` of this package (R80). -/
def Dev.ctxGpa (d : Dev) (c : Nat) : Nat := extGpa d.node 3072 (0x200000 + c * 0x400)

/-- Context entry `c` as the table holds it. -/
def Pkg.ctxTable (x : Pkg) (c : Nat) : CtxEnt :=
  parseCtx ((List.range 9).flatMap (fun i =>
    let l := metaLine0 + 32768 + 16 * c + i
    x.plain l (.metadata l)))

/-- Context entry `c`: the cached copy, else the table's. -/
def Pkg.ctxEntry (x : Pkg) (c : Nat) : CtxEnt :=
  match x.2.xlt.ctxCache.find? (fun e => e.1 == c) with
  | some e => e.2
  | none => x.ctxTable c

/-- The lowest-numbered valid segment that covers a landing virtual page (R82). -/
def findSeg (c : CtxEnt) (page : Nat) : Option Nat :=
  (List.range 16).find? (fun i => match c.segs[i]? with
    | some s => s.valid && decide (s.base ≤ page) && decide (page < s.limit)
    | none => false)

/-- Segment `i` of a context entry. -/
def segAt (c : CtxEnt) (i : Nat) : Seg := nth c.segs i ⟨false, 0, 0, 0, 0, 0⟩

/-- The PERM bit that an access needs (R66, R81): 0 read, 1 write, 2 atomic, 3 reduce. -/
def permBit : AKind → Nat
  | .write | .migWrite | .pteWrite => 1
  | .atomic => 2
  | .reduce => 3
  | _ => 0

end Sys2Proof.Machine
end

