-- ==== Sys2Proof/Machine/Faults.lean ====
section
/-!
DEFINITION. Fault records and the fault rings (R105–R113): coalescing, batches, delivery.
-/
namespace Sys2Proof.Machine

/-! ### Fault causes (R105) -/

def fNoContext : Nat := 1
def fNoSegment : Nat := 2
def fPerm : Nat := 3
def fRegionInvalid : Nat := 4
def fBeyondRegion : Nat := 5
def fPageInvalid : Nat := 6
def fBadNode : Nat := 7
def fWalkError : Nat := 8

/-- The 32 bytes of a fault record (R107). -/
def frecBytes (f : FRec) (seq : Nat) : List Byte :=
  natLE 4 (packBits [(4, f.cause), (4, 0), (8, f.ctx), (2, f.landing), (4, f.ops), (1, b2n f.tile), (9, 0)])
    ++ natLE 4 f.count ++ natLE 8 f.lva ++ natLE 8 f.first ++ natLE 4 (packBits [(4, f.seg), (20, f.region)]) ++ natLE 4 seq

/-- Ring `r` is enabled and has a free slot (R112). -/
def Dev.fltRoom (d : Dev) (r : Nat) : Bool :=
  d.rdi F.FLT_RING_CFG_ENABLE r == 1
    && ringFree (d.rdi F.FLT_RING_PROD_PROD r) (d.rdi F.FLT_RING_CONS_CONS r) (d.rdi F.FLT_RING_CFG_LOG2_SIZE r)

/-- A record is written to ring `r` (R111). -/
def Dev.fltWrite (r : Nat) (f : FRec) (d : Dev) : Dev :=
  let prod := d.rdi F.FLT_RING_PROD_PROD r
  let a := ringAddr (d.rdi F.FLT_RING_BASE_LO_BASE_LO r) (d.rdi F.FLT_RING_BASE_HI_BASE_HI r) prod (d.rdi F.FLT_RING_CFG_LOG2_SIZE r) 32
  ((d.hostWrite a (frecBytes f prod)).wri F.FLT_RING_PROD_PROD r (prod + 1)).count 0x21 1 1

/-- A due batch is written as far as its ring has room, and the ring's message is sent (R111, R112). -/
def Dev.fltBatch (b : Batch) (d : Dev) : List FRec × Dev :=
  let step := fun (a : List FRec × Dev) (f : FRec) =>
    if a.1.isEmpty && a.2.fltRoom b.ring then (a.1, a.2.fltWrite b.ring f) else (a.1 ++ [f], a.2)
  let r := b.recs.foldl step ([], d)
  (r.1, if r.1.length < b.recs.length then r.2.msix (d.rdi F.FLT_RING_CFG_VECTOR b.ring) else r.2)

/-- The due batches of ring `r` are delivered, oldest first (R110–R112). -/
def Dev.fltDeliver (r : Nat) (d : Dev) : Dev :=
  let step := fun (a : List Batch × Dev) (b : Batch) =>
    if b.due && b.ring == r then
      let q := a.2.fltBatch b
      (if q.1.isEmpty then a.1 else a.1 ++ [{ b with recs := q.1 }], q.2)
    else (a.1 ++ [b], a.2)
  let q := d.flt.foldl step ([], d)
  { q.2 with flt := q.1 }

/-- Batches that `p` accepts become due, and are delivered. -/
def Dev.fltDue (p : Batch → Bool) (d : Dev) : Dev :=
  let rings := ((d.flt.filter (fun b => !b.due && p b)).map (·.ring)).dedup
  let d := { d with flt := d.flt.map (fun b => if p b then { b with due := true } else b) }
  rings.foldl (fun (d : Dev) r => d.fltDeliver r) d

/-- The window of a batch has ended (R110). -/
def Dev.batchOver (d : Dev) (b : Batch) : Bool := decide (b.opened + us b.timerUs ≤ d.tim.tide)

/-- Records in the coalescing table (R108). -/
def Dev.fltCount (d : Dev) : Nat := (d.flt.map (fun b => b.recs.length)).sum

/-- Room in the coalescing table, by delivering open batches early, oldest first (R110). -/
def Dev.fltMakeRoom (d : Dev) : Dev :=
  (d.flt.filter (fun b => !b.due)).foldl (fun (d : Dev) b => if d.fltCount < 1024 then d else d.fltDue (fun c => c == b)) d

/-- A fault enters the coalescing table (R108–R112). Windows are those of its capture timestamp T, also where it has waited for a
quiesced FLT block (R110). -/
def Dev.fltAdd (a : FltIn) (d : Dev) : Dev :=
  let f := a.rec_
  let d := d.count 0x21 0 1
  let d := d.fltDue (fun b => b.ctx == f.ctx && decide (b.opened + us b.timerUs ≤ a.at_))
  let same := fun (g : FRec) => g.ctx == f.ctx && g.page == f.page && g.cause == f.cause
  if d.flt.any (fun b => b.recs.any same) then
    let join := fun (g : FRec) => if same g then
      { g with count := satAdd 32 g.count 1, ops := Nat.lor g.ops f.ops, tile := g.tile || f.tile } else g
    { d with flt := d.flt.map (fun b => { b with recs := b.recs.map join }) }
  else
    let d := if d.fltCount < 1024 then d else d.fltMakeRoom
    if 1024 ≤ d.fltCount then
      ((d.wri F.FLT_RING_STAT_OVERFLOW a.ring 1).event 0x21 0).count 0x21 2 1
    else
      let open_ := fun (b : Batch) => b.ctx == f.ctx && !b.due && b.ring == a.ring
      let d := if a.timer ≠ 0 ∧ d.flt.any open_ then
          { d with flt := mapFirst open_ (fun b => { b with recs := b.recs ++ [f] }) d.flt }
        else { d with flt := d.flt ++ [Batch.mk f.ctx a.ring a.thresh a.timer a.at_ false [f]] }
      d.fltDue (fun b => b.ctx == f.ctx && (b.timerUs == 0 || decide (max 1 b.thresh ≤ b.recs.length)))

/-- A translation fault is recorded (R106–R109), or waits for a quiesced FLT block (R604): a context entry that is not valid gives no settings. -/
def Pkg.fault (r : XReq) (cause seg region : Nat) (x : Pkg) : Pkg :=
  let c := x.ctxEntry r.ctx
  let f : FRec := ⟨cause, r.ctx, r.lva / 2 ^ 21, r.landing, 2 ^ permBit r.kind, r.tile, 1, r.lva, x.2.ns, seg, region⟩
  let a : FltIn := if c.valid then ⟨c.ring, c.thresh, c.timer, x.2.tim.tide, f⟩ else ⟨0, 1, 0, x.2.tim.tide, f⟩
  x.dev (fun d => if d.takes 0x21 then d.fltAdd a else { d with fltWait := d.fltWait ++ [a] })

/-- Faults that waited at the boundary of a quiesced FLT block enter it (R604). -/
def Dev.fltRelease (d : Dev) : Dev :=
  if d.takes 0x21 then
    d.fltWait.foldl (fun (d : Dev) a => d.fltAdd a) { d with fltWait := [] }
  else d

/-! ### The commands -/

/-- FAULT_BATCH_DUE (R110): the windows of the context's open batches that have ended. -/
def Dev.fltDueCtx (ctx : Nat) (d : Dev) : Dev := d.fltDue (fun b => b.ctx == ctx && d.batchOver b)

/-- FLT_RING_CFG.ENABLE of ring `r` rises (R113): the ring starts empty and waiting batches leave. -/
def Dev.fltEnabled (r : Nat) (d : Dev) : Dev := ((d.wri F.FLT_RING_PROD_PROD r 0).wri F.FLT_RING_CONS_CONS r 0).fltDeliver r

/-- FAULT_BATCH_DUE (R110, R111). -/
def execFaultBatchDue (ctx : Nat) (s : State) : Host.Outcome State Fault Refusal := onDev (Dev.ifRuns (Dev.fltDueCtx ctx)) s

end Sys2Proof.Machine
end

