-- ==== Sys2Proof/Machine/Xlt.lean ====
section
/-!
DEFINITION. Translation (R84–R104): translation buffers, walkers, the stream prefetcher, invalidation.
-/
namespace Sys2Proof.Machine

/-! ### The caches (R85–R89) -/

/-- The set of an entry in a landing translation buffer (R86). -/
def ltbSet (e : TEntry) : Nat := Nat.xor (e.page % 64) (e.ctx % 64)

/-- The set of an entry in the fabric translation cache (R86). -/
def ftcSet (e : TEntry) : Nat := Nat.xor (e.page % 1024) (e.ctx % 256)

/-- Entry for (context, page). -/
def findT (ctx page : Nat) (l : List TEntry) : Option TEntry := l.find? (fun e => e.ctx == ctx && e.page == page)

/-- `e` enters a cache as its set's most recently used entry; a full set loses its least recently used one (R85). -/
def putT (setOf : TEntry → Nat) (ways : Nat) (e : TEntry) (l : List TEntry) : List TEntry :=
  let l := l.filter (fun f => !(f.ctx == e.ctx && f.page == e.page))
  let mine := l.filter (fun f => setOf f == setOf e)
  match (if mine.length < ways then none else mine.getLast?) with
  | some v => e :: l.erase v
  | none => e :: l

/-- `e` enters landing `n`'s translation buffer. -/
def Dev.ltbPut (n : Nat) (e : TEntry) (d : Dev) : Dev :=
  { d with xlt := { d.xlt with ltb := modAt (putT ltbSet 8 { e with pf := false }) d.xlt.ltb n } }

/-- `e` enters the fabric translation cache. -/
def Dev.ftcPut (e : TEntry) (d : Dev) : Dev := { d with xlt := { d.xlt with ftc := putT ftcSet 16 e d.xlt.ftc } }

/-- A request of a landing or of the host port, which use a landing's translation buffer (R85). -/
def XReq.port (r : XReq) : Bool := decide (r.eng ≤ 4)

/-- A lookup (R85, R87, R89, R95): the entry that answers the request, if a cache holds one. A port's first use of a
prefetched entry copies it to its translation buffer. -/
def Dev.xltLookup (r : XReq) (d : Dev) : Option TEntry × Dev :=
  let page := r.lva / 2 ^ 21
  match (if r.port then findT r.ctx page (nth d.xlt.ltb r.landing []) else none) with
  | some e => (some e, d.ltbPut r.landing e)
  | none =>
    let d := if r.port then d.count 0x20 0 1 else d
    match findT r.ctx page d.xlt.ftc with
    | some e =>
      let d := (d.count 0x20 1 1).ftcPut { e with pf := false }
      (some e, if r.port && e.landing == r.landing then d.ltbPut r.landing e else d)
    | none => (none, d.count 0x20 2 1)

/-- A cache without a policy of its own loses a free entry when full (R87). -/
def cachePut {α : Type} (cap : Nat) (k : Nat) (v : α) (l : List (Nat × α)) (victim : Nat) : List (Nat × α) :=
  let l := l.filter (fun e => e.1 != k)
  (k, v) :: (if l.length < cap then l else l.eraseIdx (victim % cap))

/-- A context entry that a walk has read enters the context cache (R87, R88), unless it stands there. -/
def Dev.ctxPut (c : Nat) (e : CtxEnt) (d : Dev) : Dev :=
  if d.xlt.ctxCache.any (fun q => q.1 == c) then d
  else
    let r := d.draw
    { r.2 with xlt := { r.2.xlt with ctxCache := cachePut 64 c e r.2.xlt.ctxCache r.1 } }

/-- A region descriptor that a walk has read enters the descriptor cache (R87, R88), unless it stands there. -/
def Dev.descPut (g : Nat) (e : DescEnt) (d : Dev) : Dev :=
  if d.xlt.descCache.any (fun q => q.1 == g) then d
  else
    let r := d.draw
    { r.2 with xlt := { r.2.xlt with descCache := cachePut 256 g e r.2.xlt.descCache r.1 } }

/-- A walk or prefetch that ends in a translation installs the context entry and the descriptor it has used; one that ends in a fault
installs nothing (R88, R96). -/
def Dev.tablesPut (ctx : Nat) (c : CtxEnt) (seg : Nat) (de : DescEnt) (d : Dev) : Dev :=
  (d.ctxPut ctx c).descPut (segAt c seg).region de

/-! ### The steps of a walk (R84, R91) -/

/-- What a walk or prefetch does next: it reads a table, or it ends with a fault cause, the context entry it has read,
segment and region. -/
inductive XStep where
  | read (stage : WalkStage) (gpa len : Nat)
  | fault (cause : Nat) (c : Option CtxEnt) (seg region : Nat)
  deriving DecidableEq, Repr

/-- The page-table entry is next, or for a prefetch its group of eight (R84, R91, R95). -/
def Dev.atPte (d : Dev) (page : Nat) (group : Bool) (c : CtxEnt) (seg : Nat) (de : DescEnt) : XStep :=
  let s := segAt c seg
  let rp := s.rpage + (page - s.base)
  let gpa := de.ptBase + (if group then rp / 8 * 64 else rp * 8)
  if !de.valid then .fault fRegionInvalid (some c) seg s.region
  else if de.pages ≤ rp then .fault fBeyondRegion (some c) seg s.region
  else if d.domainSize ≤ gpaNode gpa then .fault fBadNode (some c) seg s.region
  else .read (.pte c seg de) gpa (if group then 64 else 8)

/-- The region descriptor is next (R84). -/
def Dev.atDesc (d : Dev) (page : Nat) (group : Bool) (c : CtxEnt) (seg : Nat) : XStep :=
  let g := (segAt c seg).region
  match d.xlt.descCache.find? (fun e => e.1 == g) with
  | some e => d.atPte page group c seg e.2
  | none =>
    if d.domainSize ≤ g / 8192 then .fault fBadNode (some c) seg g
    else .read (.desc c seg) (extGpa (g / 8192) 3072 (0x100000 + g % 8192 * 128)) 64

/-- The context entry is known; `alive` says whether some merged request may go on past the PERM step (R90). -/
def Dev.atCtx (d : Dev) (page : Nat) (group : Bool) (alive : CtxEnt → Nat → Bool) (c : CtxEnt) : XStep :=
  if !c.valid then .fault fNoContext none 0 0
  else match findSeg c page with
    | none => .fault fNoSegment (some c) 0 0
    | some i => if alive c i then d.atDesc page group c i else .fault fPerm (some c) i (segAt c i).region

/-- The first step that no cache answers. -/
def Dev.atStart (d : Dev) (ctx page : Nat) (group : Bool) (alive : CtxEnt → Nat → Bool) : XStep :=
  match d.xlt.ctxCache.find? (fun e => e.1 == ctx) with
  | some e => d.atCtx page group alive e.2
  | none => .read .ctx (d.ctxGpa ctx) 576

/-- A region descriptor out of the first 32 bytes of its entry (R74). -/
def parseDesc (v : List Byte) : DescEnt :=
  let n := leNat (sliceBytes v 0 32)
  { valid := bit n 32, pages := bits n 64 24, ptBase := bits n 128 52 }

/-- A table read has returned `v`: the next step of a walk or prefetch. The page-table entry itself is the caller's. -/
def Dev.afterRead (d : Dev) (page : Nat) (group : Bool) (alive : CtxEnt → Nat → Bool) (st : WalkStage) (v : List Byte) : XStep :=
  match st with
  | .ctx => d.atCtx page group alive (parseCtx v)
  | .desc c seg => d.atPte page group c seg (parseDesc v)
  | .pte c seg de => d.atPte page group c seg de

/-! ### Walks (R90, R91, R100) -/

/-- Why a request fails at the binding or PERM check of a walk, whatever the walk's outcome (R89, R90). -/
def XReq.refused (r : XReq) (c : CtxEnt) (seg : Option Nat) : Option (Nat × Nat × Nat) :=
  if r.port && c.landing != r.landing then some (fNoContext, 0, 0)
  else match seg with
    | none => none
    | some i => if bit (segAt c i).perm (permBit r.kind) then none else some (fPerm, i, (segAt c i).region)

/-- Some merged request passes the binding and PERM checks (R90). -/
def aliveIn (ws : List XReq) (c : CtxEnt) (seg : Nat) : Bool := ws.any (fun r => (r.refused c (some seg)).isNone)

/-- Translations that have an outcome, with the package after it. -/
abbrev XOut := List (XReq × XRes) × Pkg

def Dev.dropWalk (id : Nat) (d : Dev) : Dev :=
  { d with xlt := { d.xlt with walks := d.xlt.walks.filter (fun w => w.id != id) } }

/-- A walk ends with a fault: each merged request has its own result (R90). -/
def Pkg.walkFault (w : Walk) (cause : Nat) (c : Option CtxEnt) (seg region : Nat) (x : Pkg) : XOut :=
  let x := x.dev (Dev.dropWalk w.id)
  let segOf := if cause = fNoSegment then none else some seg
  w.waiters.foldl (fun (a : XOut) r =>
    let f := ((c.map (fun c => r.refused c segOf)).join).getD (cause, seg, region)
    (a.1 ++ [(r, .fault f.1)], a.2.fault r f.1 f.2.1 f.2.2)) ([], x)

/-- A walk ends with a translation: installed in the FTC and the translation buffers of the ports it serves (R87), and what it has read
in the two table caches (R88). -/
def Pkg.walkHit (w : Walk) (c : CtxEnt) (seg : Nat) (de : DescEnt) (gpaPage : Nat) (x : Pkg) : XOut :=
  let s := segAt c seg
  let e : TEntry := ⟨w.ctx, w.page, gpaPage, s.perm, seg, s.region, s.rpage + (w.page - s.base), c.landing, false⟩
  let x := x.dev (fun d => ((d.dropWalk w.id).tablesPut w.ctx c seg de).ftcPut e)
  w.waiters.foldl (fun (a : XOut) r =>
    match r.refused c (some seg) with
    | some f => (a.1 ++ [(r, .fault f.1)], a.2.fault r f.1 f.2.1 f.2.2)
    | none => (a.1 ++ [(r, .hit gpaPage c.landing)], if r.port then a.2.dev (Dev.ltbPut r.landing e) else a.2)) ([], x)

/-- The tenant's ticket a walk's reads carry: that of its first request (R91, R515). -/
def Walk.ticket (w : Walk) : Nat := (w.waiters.head?.map (·.ticket)).getD 0

/-- A walk takes its next step; without a tenant its requests end with TENANT_RETIRED (R91). -/
def Pkg.walkStep (w : Walk) (st : XStep) (x : Pkg) : XOut :=
  match st with
  | .fault cause c seg region => x.walkFault w cause c seg region
  | .read stage gpa len =>
    if x.2.ticket = 0 then (w.waiters.map (fun r => (r, XRes.retired)), x.dev (Dev.dropWalk w.id))
    else
      let landing := (w.waiters.head?.map (·.landing)).getD 0
      let set := fun (v : Walk) => if v.id = w.id then { w with stage := stage, stale := false } else v
      ([], x.dev (fun d => ({ d with xlt := { d.xlt with walks := d.xlt.walks.map set } }).tableRead (.walk w.id) w.ctx landing w.ticket gpa len))

/-- A walk runs from the first step that no cache answers. -/
def Pkg.walkRun (w : Walk) (x : Pkg) : XOut :=
  x.walkStep w (x.2.atStart w.ctx w.page false (aliveIn w.waiters))

/-- A walk's read is answered (R91, R100): a stale walk starts again, any status but OK is WALK_ERROR. -/
def Pkg.walkAnswer (id status : Nat) (v : List Byte) (x : Pkg) : XOut :=
  match x.2.xlt.walks.find? (fun w => w.id == id) with
  | none => ([], x)
  | some w =>
    if w.stale then
      let gone := fun (i : Inv) => { i with waits := i.waits.filter (· != id) }
      (x.dev (fun d => { d with xlt := { d.xlt with invQ := d.xlt.invQ.map gone } })).walkRun { w with stale := false }
    else if status ≠ sOk then
      match w.stage with
      | .ctx => x.walkFault w fWalkError none 0 0
      | .desc c seg => x.walkFault w fWalkError (some c) seg (segAt c seg).region
      | .pte c seg _ => x.walkFault w fWalkError (some c) seg (segAt c seg).region
    else match w.stage with
      | .pte c seg de =>
        let e := leNat (sliceBytes v 0 8)
        let g := (segAt c seg).region
        if !bit e 0 then x.walkFault w fPageInvalid (some c) seg g
        else if x.2.domainSize ≤ bits e 45 7 then x.walkFault w fBadNode (some c) seg g
        else x.walkHit w c seg de (bits e 21 31)
      | st => x.walkStep w (x.2.afterRead w.page false (aliveIn w.waiters) st v)

/-! ### Tiles and streams (R93–R97, R114, R359, R469) -/

/-- Number of tiles of a move. -/
def tileCount (counts tile : List Nat) : Nat := (List.zipWith (fun c t => ceilDiv c (max t 1)) counts tile).prod

/-- Start and extent of tile `t` in each dimension, dimension 0 fastest (R359). -/
def tileBox : List Nat → List Nat → Nat → List (Nat × Nat)
  | c :: cs, n :: ns, t =>
    let m := max n 1
    let k := max (ceilDiv c m) 1
    (t % k * m, min m (c - t % k * m)) :: tileBox cs ns (t / k)
  | _, _, _ => []

/-- The index lists (i1, i2, …) of a box's rows in element order, dimension 1 fastest. -/
def rowIndexes : List (Nat × Nat) → List (List Nat)
  | [] => [[]]
  | (lo, n) :: bs => (rowIndexes bs).flatMap (fun r => (List.range n).map (fun i => (lo + i) :: r))

/-- The rows of a box: first byte and bytes of each (R359); `unit` bits per element of dimension 0. -/
def boxRows (base unit : Nat) (strides : List Nat) : List (Nat × Nat) → List (Nat × Nat)
  | [] => []
  | (lo, n) :: bs => (rowIndexes bs).map (fun is =>
      (base + lo * unit / 8 + (List.zipWith (· * ·) is strides).sum, ceilDiv (n * unit) 8))

/-- The 2 MiB pages that rows touch, ascending (R114). -/
def rowPages (rows : List (Nat × Nat)) : List Nat :=
  ((rows.flatMap (fun r => (List.range ((r.1 + max r.2 1 - 1) / 2 ^ 21 - r.1 / 2 ^ 21 + 1)).map (fun i => r.1 / 2 ^ 21 + i))).dedup).mergeSort

/-- The rows of tile `t` of a stream. -/
def Stream.rows (s : Stream) (t : Nat) : List (Nat × Nat) := boxRows s.base s.unit s.strides (tileBox s.counts s.tile t)

/-- A prefetch takes its next step: any fault ends it in silence (R96); a group already being fetched is not fetched
again. -/
def Dev.prefetchStep (p : Prefetch) (st : XStep) (d : Dev) : Dev :=
  let rest := d.xlt.prefetches.filter (fun q => q.id != p.id)
  match st with
  | .fault _ _ _ _ => { d with xlt := { d.xlt with prefetches := rest } }
  | .read stage gpa len =>
    if d.ticket = 0 ∨ (len = 64 ∧ d.src.reqs.any (fun o => o.acc.gpa == gpa && o.acc.len == 64 &&
        (match o.acc.purpose, stage with | .prefetch _, .pte _ _ _ => o.acc.ctx == p.ctx | _, _ => false))) then
      { d with xlt := { d.xlt with prefetches := rest } }
    else
      let d := { d with xlt := { d.xlt with prefetches := rest ++ [{ p with stage := stage, stale := false }] } }
      let d := match stage with
        | .pte _ _ _ => d.count 0x20 4 1
        | _ => d
      d.tableRead (.prefetch p.id) p.ctx 0 d.ticket gpa len

/-- A page wanted by a stream is fetched unless its translation exists or is under way (R94, R95). -/
def Dev.prefetchPage (ctx page : Nat) (d : Dev) : Dev :=
  if (findT ctx page d.xlt.ftc).isSome ∨ d.xlt.prefetches.any (fun p => p.ctx == ctx && p.page == page) then d
  else
    let r := d.newId
    r.2.prefetchStep ⟨r.1, ctx, page, .ctx, false⟩ (d.atStart ctx page true (fun _ _ => true))

/-- Tile `t` of a stream is issued (R94). -/
def Dev.streamTile (num t : Nat) (d : Dev) : Dev :=
  match d.xlt.streams.find? (fun s => s.num == num) with
  | none => d
  | some s =>
    if s.issued.contains t then d
    else
      let clock := d.xlt.clock + 1
      let note := fun (q : Stream) => if q.num = num then { q with issued := q.issued ++ [t], used := clock } else q
      let d := { d with xlt := { d.xlt with clock := clock, streams := d.xlt.streams.map note } }
      let ahead := ((List.range s.look).map (fun i => t + 1 + i)).filter (fun i => decide (i < tileCount s.counts s.tile))
      (rowPages (ahead.flatMap s.rows)).foldl (fun (d : Dev) p => d.prefetchPage s.ctx p) d

/-- A landing translates the `len` addresses from `lva` on: each declared stream of the context counts every tile that one of them lies in
(R469). -/
def Dev.streamTouch (ctx lva len : Nat) (d : Dev) : Dev :=
  (d.xlt.streams.filter (fun s => s.owner == 0 && s.ctx == ctx)).foldl (fun (d : Dev) s =>
    ((List.range (tileCount s.counts s.tile)).filter (fun t =>
      (s.rows t).any (fun r => decide (r.1 < lva + len) && decide (lva < r.1 + r.2)))).foldl (fun (d : Dev) t => d.streamTile s.num t) d) d

/-- A stream opens (R93): when all 64 are in use it replaces the one whose last tile was issued longest ago. DESIGN CHOICE (log entry 58):
a stream that has issued no tile yet, of whose age R93 says nothing, counts from its opening. -/
def Dev.openStream (s : Stream) (d : Dev) : Nat × Dev :=
  let clock := d.xlt.clock + 1
  let put := fun (num : Nat) (l : List Stream) =>
    (num, { d with xlt := { d.xlt with clock := clock, streams := l ++ [{ s with num := num, used := clock }] } })
  match firstFree 64 (d.xlt.streams.map (·.num)) with
  | some i => put i d.xlt.streams
  | none =>
    let oldest := (d.xlt.streams.map (·.used)).min?.getD 0
    match takeFirst (fun (q : Stream) => q.used == oldest) d.xlt.streams with
    | some r => put r.1.num r.2
    | none => put 0 []

/-- Streams that `p` accepts end (R97). -/
def Dev.endStreams (p : Stream → Bool) (d : Dev) : Dev :=
  { d with xlt := { d.xlt with streams := d.xlt.streams.filter (fun s => !p s) } }

/-- A prefetched group is installed (R95): each valid entry within PAGES whose page the segment covers; the tables read, if the page
that was wanted translates (R88, R96). DESIGN CHOICE (log entry 58): where the page that was wanted is invalid, the valid ones beside it are
installed by R95 all the same; R96 has a prefetch that finds an invalid page install nothing. -/
def Dev.prefetchInstall (p : Prefetch) (c : CtxEnt) (seg : Nat) (de : DescEnt) (v : List Byte) (d : Dev) : Dev :=
  let s := segAt c seg
  let own := s.rpage + (p.page - s.base)
  let g := own / 8
  let mine := leNat (sliceBytes v (8 * (own % 8)) 8)
  let d := if bit mine 0 ∧ bits mine 45 7 < d.domainSize then d.tablesPut p.ctx c seg de else d
  (List.range 8).foldl (fun (d : Dev) j =>
    let rp := 8 * g + j
    let page := s.base + (rp - s.rpage)
    let e := leNat (sliceBytes v (8 * j) 8)
    if bit e 0 ∧ rp < de.pages ∧ s.rpage ≤ rp ∧ findSeg c page = some seg ∧ bits e 45 7 < d.domainSize ∧ (findT p.ctx page d.xlt.ftc).isNone then
      d.ftcPut ⟨p.ctx, page, bits e 21 31, s.perm, seg, s.region, rp, c.landing, true⟩
    else d) d

/-- PREFETCH_ANSWER (R95, R96): a stale or failed prefetch installs nothing. -/
def Dev.prefetchAnswer (id status : Nat) (v : List Byte) (d : Dev) : Dev :=
  match d.xlt.prefetches.find? (fun p => p.id == id) with
  | none => d
  | some p =>
    let gone := { d with xlt := { d.xlt with prefetches := d.xlt.prefetches.filter (fun q => q.id != id) } }
    if p.stale ∨ status ≠ sOk then gone
    else match p.stage with
      | .pte c seg de => gone.prefetchInstall p c seg de v
      | st => d.prefetchStep p (d.afterRead p.page true (fun _ _ => true) st v)

/-! ### Translating (R84, R85, R89, R90, R473, R502) -/

/-- A port's request that no context may serve: before SERVING (R502), at a spare (R222), or on the wrong side of HOST_FIRST (R473). -/
def Dev.ctxBarred (r : XReq) (d : Dev) : Bool :=
  r.port && (d.stage != 4 || d.rd F.PROT_CFG_ROLE == 1 || (r.eng == 0 && decide (d.rdp F.LND_CFG_HOST_FIRST 0x10 ≤ r.ctx))
    || (r.eng == 4 && decide (r.ctx < d.rdp F.LND_CFG_HOST_FIRST 0x10)))

/-- A miss (R90, R91): merged into the walk of its page, queued, or left at its landing while the queue is full. -/
def Dev.miss (r : XReq) (d : Dev) : Option XRes × Dev :=
  let page := r.lva / 2 ^ 21
  let same := fun (w : Walk) => w.ctx == r.ctx && w.page == page
  let add := fun (w : Walk) => { w with waiters := w.waiters ++ [r] }
  if d.ticket = 0 then (some .retired, d)
  else if d.xlt.walks.any same then (none, { d with xlt := { d.xlt with walks := mapFirst same add d.xlt.walks } })
  else if d.xlt.missQ.any same then (none, { d with xlt := { d.xlt with missQ := mapFirst same add d.xlt.missQ } })
  else if d.xlt.missQ.length < 64 then
    let n := d.newId
    (none, { n.2 with xlt := { n.2.xlt with missQ := n.2.xlt.missQ ++ [⟨n.1, r.ctx, page, .ctx, false, [r]⟩] } })
  else (none, { d with xlt := { d.xlt with blocked := d.xlt.blocked ++ [r] } })

/-- The XLT block takes misses: powered and not quiesced (R50, R604). -/
def Dev.xltTakes (d : Dev) : Bool :=
  d.takes 0x20

/-- A translation of a request whose context the landing lets pass: its outcome, or none while it is awaited. -/
def Pkg.translateOn (r : XReq) (x : Pkg) : Option XRes × Pkg :=
  let stop := fun (x : Pkg) (cause seg region : Nat) => (some (XRes.fault cause), x.fault r cause seg region)
  let inLtb := r.port && (findT r.ctx (r.lva / 2 ^ 21) (nth x.2.xlt.ltb r.landing [])).isSome
  if !inLtb && !x.2.xltTakes then
    (none, x.dev (fun d => { d with xlt := { d.xlt with blocked := d.xlt.blocked ++ [r] } }))
  else
    let q := x.2.xltLookup r
    let d := if r.port then q.2.streamTouch r.ctx r.lva r.len else q.2
    match q.1 with
    | some e =>
      if r.port && e.landing != r.landing then stop (x.1, d) fNoContext 0 0
      else if !bit e.perm (permBit r.kind) then stop (x.1, d) fPerm e.seg e.region
      else (some (.hit e.gpaPage e.landing), (x.1, d))
    | none => let m := d.miss r; (m.1, (x.1, m.2))

/-- A translation of a request as it is accepted: what bars its context then (R473) is not looked at again. -/
def Pkg.translate (r : XReq) (x : Pkg) : Option XRes × Pkg :=
  if x.2.ctxBarred r then (some (.fault fNoContext), x.fault r fNoContext 0 0) else x.translateOn r

/-- Requests left at their landings try again (R90). -/
def Pkg.retryBlocked (x : Pkg) : XOut :=
  let l := x.2.xlt.blocked
  l.foldl (fun (a : XOut) r =>
    let t := a.2.translateOn r
    (match t.1 with | some v => a.1 ++ [(r, v)] | none => a.1, t.2))
    ([], x.dev (fun d => { d with xlt := { d.xlt with blocked := [] } }))

/-- WALK_START (R90): the oldest queued miss takes a free walker. -/
def Pkg.walkStart (x : Pkg) : XOut :=
  match x.2.xlt.missQ with
  | [] => ([], x)
  | w :: q =>
    if 8 ≤ x.2.xlt.walks.length then ([], x)
    else
      let a := (x.dev (fun d => { d with xlt := { d.xlt with walks := d.xlt.walks ++ [w], missQ := q } }.count 0x20 3 1)).walkRun w
      let b := a.2.retryBlocked
      (a.1 ++ b.1, b.2)

/-! ### Invalidation (R98–R104) -/

/-- Whether an invalidation removes a translation entry. -/
def invHits (a : InvArgs) (e : TEntry) : Bool :=
  match a.kind with
  | 1 => e.region == a.region && decide (a.first ≤ e.rpage) && decide (e.rpage < a.first + a.count)
  | 2 => e.region == a.region
  | 3 => e.ctx == a.ctx
  | 4 => true
  | _ => false

/-- Whether an invalidation matches a walk or prefetch in progress (R100): one whose segment is not yet known matches any region. A
walk reads the entry of its own page, a prefetch the `span` entries of its aligned group (R95): one of them suffices. -/
def invHitsWalk (a : InvArgs) (ctx page span : Nat) (st : WalkStage) : Bool :=
  match a.kind, st with
  | 1, .ctx | 2, .ctx => true
  | 1, .desc c i | 1, .pte c i _ =>
    let s := segAt c i
    let lo := (s.rpage + (page - s.base)) / span * span
    s.region == a.region && decide (a.first < lo + span) && decide (lo < a.first + a.count)
  | 2, .desc c i | 2, .pte c i _ => (segAt c i).region == a.region
  | 3, _ => ctx == a.ctx
  | 4, _ => true
  | _, _ => false

/-- An invalidation takes its place: entries go, matching walks and prefetches will discard what they return (R98,
R100); streams of the context end (R97). -/
def Dev.invSerialise (a : InvArgs) (src : Option Nat) (d : Dev) : Dev :=
  let x := d.xlt
  let keep := fun (l : List TEntry) => l.filter (fun e => !invHits a e)
  let hit := fun (w : Walk) => invHitsWalk a w.ctx w.page 1 w.stage
  let x := { x with
    ltb := x.ltb.map keep, ftc := keep x.ftc
    ctxCache := x.ctxCache.filter (fun e => !(a.kind == 4 || (a.kind == 3 && e.1 == a.ctx)))
    descCache := x.descCache.filter (fun e => !(a.kind == 4 || (a.kind == 2 && e.1 == a.region)))
    streams := x.streams.filter (fun s => !(a.kind == 4 || (a.kind == 3 && s.ctx == a.ctx)))
    walks := x.walks.map (fun w => { w with stale := w.stale || hit w })
    prefetches := x.prefetches.map (fun (p : Prefetch) => { p with stale := p.stale || invHitsWalk a p.ctx p.page 8 p.stage })
    invQ := x.invQ ++ [Inv.mk a src ((d.xlt.walks.filter hit).map (·.id))] }
  { d with xlt := x }

/-- GO of XLT_INV_CMD (R102, R104); `old` is XLT_INV_CMD before the write. A write of GO that finds the queue full is dropped whole: KIND
and CONTEXT keep their values (DEDUCED, log entry 58). -/
def Dev.xltInvGo (m : Master) (old v : Nat) (d : Dev) : Dev :=
  let a : InvArgs := { kind := d.rd F.XLT_INV_CMD_KIND, region := d.rd F.XLT_INV_ARG0_REGION, first := d.rd F.XLT_INV_ARG1_FIRST_PAGE
                       count := d.rd F.XLT_INV_ARG2_PAGE_COUNT, ctx := d.rd F.XLT_INV_CMD_CONTEXT }
  if 16 ≤ d.xlt.invQ.length then (d.setWord 0x2010C old).dropWrite m 0x20 0x10C v 4
  else if a.kind = 0 ∨ 4 < a.kind then d
  else d.invSerialise a none

/-- Invalidation messages that wait are serialised in turn while the block takes them and the queue has room (R102). -/
def Dev.invEnter (d : Dev) : Dev :=
  d.xlt.invWait.foldl (fun (d : Dev) q =>
      if d.xltTakes ∧ d.xlt.invQ.length < 16 then d.invSerialise q.2 (some q.1)
      else { d with xlt := { d.xlt with invWait := d.xlt.invWait ++ [q] } })
    { d with xlt := { d.xlt with invWait := [] } }

/-- An invalidation message of the fabric manager (R102, R103); one that finds the queue full, or the block quiesced or off, waits. -/
def Dev.ctrlInv (src : Nat) (a : InvArgs) (d : Dev) : Dev :=
  d.fromFm src (fun d => { d with xlt := { d.xlt with invWait := d.xlt.invWait ++ [(src, a)] } }.invEnter)

/-- The oldest invalidation completes once every walk it discards has ended (R100, R103, R104). -/
def Dev.invComplete (d : Dev) : Dev :=
  match d.xlt.invQ with
  | [] => d
  | i :: q =>
    if !i.waits.isEmpty then d
    else
      let d := ({ d with xlt := { d.xlt with invQ := q } }.bump F.XLT_INV_STAT_DONE_COUNT 1).count 0x20 5 1
      let d := d.event 0x20 0
      let d := match i.src with
        | some n => d.ctrl n .invAck
        | none => d
      d.invEnter

/-! ### The commands -/

/-- CTRL_INVALIDATION (R102). -/
def execCtrlInvalidation (src : Nat) (a : InvArgs) (s : State) : Host.Outcome State Fault Refusal :=
  onDev (Dev.ifRuns (Dev.ctrlInv src a)) s

/-- INVALIDATION_COMPLETE (R100). -/
def execInvalidationComplete (s : State) : Host.Outcome State Fault Refusal := onDev (Dev.ifRuns Dev.invComplete) s

end Sys2Proof.Machine
end

