-- ==== Sys2Proof/Machine/Landing.lean ====
section
/-!
DEFINITION. Landings (R129–R131, R141–R147, R156, R157, R462–R473): accepting requests in order, the read cache, write
combining, fences, bulk requests, what an answer does. The host port shares the in-order queue and the translation.
-/
namespace Sys2Proof.Machine

def Dev.lndOf (d : Dev) (n : Nat) : Lnd := nth d.lnd n {}

def Dev.setLnd (n : Nat) (f : Lnd → Lnd) (d : Dev) : Dev := { d with lnd := modAt f d.lnd n }

/-- Page LND`n`. -/
def lndPage (n : Nat) : Nat := 0x10 + n

/-- A landing takes requests: powered, neither quiesced nor disabled (R604), the package not on its way to MOORED (R563). What it does not
take waits at its boundary, and its credits with it (R44). -/
def Dev.lndOpen (d : Dev) (n : Nat) : Bool := d.booted && d.takes (lndPage n) && d.awake

/-- The package serves a tenant that is not closing (R515, R521). -/
def Dev.tenantOpen (d : Dev) : Bool := d.tenancy == 1 && d.ticket != 0

/-- The class of a frame that a landing sends (R380, R464): DATA goes as its request did, TIME is CTRL, the others are responses. -/
def lndClass (op : Nat) : Nat := if op = 0x07 then 0 else if op = 0x20 then 3 else 1

/-- A frame that a landing sends (R462): every field but these is 0, CHANNEL until it leaves. -/
def lndFrame (op tag status : Nat) (data : List Byte) : Frame :=
  { hdr := { cls := lndClass op, len := 1 + ceilDiv data.length 16, opcode := op, tag := tag, status := status }, pay := data }

/-- The landing hands a frame to its link, where it waits for credit (R448, R458). -/
def Dev.attachOut (n op tag status : Nat) (data : List Byte) (d : Dev) : Dev :=
  (d.setLnd n (fun l => { l with outQ := l.outQ ++ [lndFrame op tag status data] })).emit (.attach n op tag status data)

/-- The response of a landing to its accelerator, by TAG (R467). -/
def Dev.attach (n op tag status : Nat) (data : List Byte) (d : Dev) : Dev :=
  (d.setLnd n (fun l => { l with tags := l.tags.erase tag })).attachOut n op tag status data

/-- Bytes of data in the response of an operation (R464). DESIGN CHOICE (log entry 65): a LENGTH that R465 refuses brings 256 bytes at most,
what one frame holds. -/
def rspLen (op : Nat) (o : Opd) : Nat :=
  match op with
  | 1 | 0x10 => min (opdLen o) 256
  | 3 => if o.fetch then min (opdLen o) 256 else 0
  | 5 | 6 => 8
  | 8 | 0x0D => 1
  | 0x0B | 0x0C => 4
  | _ => 0

/-- A request that ends at the landing with a status other than OK: nothing fills the data of its response, which are undefined (R464,
R484). -/
def Dev.lndEnd (n : Nat) (r : PortReq) (status : Nat) (d : Dev) : Dev :=
  let v := d.freeBytes (rspLen r.op r.o)
  v.2.attach n r.op r.tag status v.1

/-- Data of a response: what returned, or undefined bytes where nothing did (R484). -/
def Dev.answerData (len status : Nat) (data : List Byte) (d : Dev) : List Byte × Dev :=
  if status = sOk then (sliceBytes data 0 len, d) else d.freeBytes len

/-! ### The read cache (R141, R470) -/

/-- A fill line enters the read cache of 1,024 sets of 16 ways; a full set loses a free line. -/
def Dev.rcPut (n line : Nat) (v : List Byte) (d : Dev) : Dev :=
  let l := (d.lndOf n).rc.filter (fun e => e.1 != line)
  let mine := l.filter (fun e => e.1 % 1024 == line % 1024)
  if mine.length < 16 then d.setLnd n (fun q => { q with rc := (line, v) :: l })
  else
    let r := d.draw
    r.2.setLnd n (fun q => { q with rc := (line, v) :: l.erase (nth mine (r.1 % 16) (0, [])) })

/-- Fills in flight of a landing: access id and line. -/
def Dev.fillsOf (d : Dev) (n : Nat) : List (Nat × Nat) :=
  (d.src.reqs.map (·.acc) ++ d.src.held.map (·.acc)).filterMap (fun a => match a.purpose with
    | .lndFill m _ line => if m = n then some (a.id, line) else none
    | _ => none)

/-- A write of the landing removes its lines, and fills of them in flight install nothing (R141, R470). -/
def Dev.rcDrop (n gpa len : Nat) (d : Dev) : Dev :=
  let ls := linesOf gpa len
  let stop := (d.fillsOf n).filter (fun f => ls.contains f.2)
  d.setLnd n (fun l => { l with rc := l.rc.filter (fun e => !ls.contains e.1), noFill := l.noFill ++ stop })

/-- RC_INV (R143, R470). -/
def Dev.rcClear (n : Nat) (d : Dev) : Dev :=
  let stop := d.fillsOf n
  d.setLnd n (fun l => { l with rc := [], noFill := l.noFill ++ stop })

/-- Whether a line lies in an enabled near-tier completion ring that names landing `n` (R371). -/
def Dev.recordLine (d : Dev) (n line : Nat) : Bool :=
  (List.range 64).any (fun r =>
    let p := 0x30 + r / 16
    let i := r % 16
    let base := (d.rdpi F.FRY_CMP_BASE_LO_BASE_LO p i * 4096 + d.rdpi F.FRY_CMP_BASE_HI_BASE_HI p i * 2 ^ 32) % 2 ^ 52
    d.rdpi F.FRY_CMP_CFG_ENABLE p i == 1 && d.rdpi F.FRY_CMP_CFG_HOST p i == 0 && d.rdpi F.FRY_CMP_CFG_LANDING p i == n
      && decide (base / 64 ≤ line) && decide (line * 64 < base + 32 * 2 ^ d.rdpi F.FRY_CMP_CFG_LOG2_SIZE p i))

/-! ### Write combining (R142, R471) -/

/-- The write of a closed block: from its first to its last byte, the bytes no store gave left as they are. -/
def blockWrite (n id : Nat) (b : WcBlock) : Acc :=
  let offs := b.bytes.map (·.1)
  let lo := offs.min?.getD 0
  let hi := offs.max?.getD 0
  let at_ := fun (o : Nat) => ((b.bytes.find? (fun e => e.1 == o)).map (·.2)).getD 0
  { id := id, eng := n, ctx := ((b.stores.head?).map (·.2.1)).getD 0, landing := n, ticket := b.ticket, kind := .write,
    gpa := b.block * 256 + lo, len := hi - lo + 1, data := (List.range (hi - lo + 1)).map (fun i => at_ (lo + i)),
    holes := (List.range (hi - lo + 1)).filter (fun i => !offs.contains (lo + i)), purpose := .wcBlock n b.stores }

/-- A block closes and becomes one write (R142). -/
def Dev.closeBlock (n : Nat) (b : WcBlock) (d : Dev) : Dev :=
  let d := (d.setLnd n (fun l => { l with wc := l.wc.erase b })).count (lndPage n) 3 1
  let r := d.newId
  r.2.issueAcc (blockWrite n r.1 b)

/-- Node of a block. -/
def WcBlock.node (b : WcBlock) : Nat := gpaNode (b.block * 256)

/-- Every open block of the landing that `p` accepts closes. -/
def Dev.closeBlocks (n : Nat) (p : WcBlock → Bool) (d : Dev) : Dev :=
  ((d.lndOf n).wc.filter p).foldl (fun (d : Dev) b => d.closeBlock n b) d

/-- The block of a node closes: on a load, atomic or reduce-write to it (R142). -/
def Dev.closeNode (n node : Nat) (d : Dev) : Dev := d.closeBlocks n (fun b => b.node == node)

/-- A STORE joins the open block of its node, or closes it and opens another (R142, R471). -/
def Dev.combine (n : Nat) (r : PortReq) (gpa : Nat) (d : Dev) : Dev :=
  let node := gpaNode gpa
  let len := opdLen r.o
  let d := d.closeBlocks n (fun b => b.node == node && b.block != gpa / 256)
  let d := if (d.lndOf n).wc.any (fun b => b.node == node) ∨ (d.lndOf n).wc.length < 64 then d
    else match (d.lndOf n).wc with
      | b :: _ => d.closeBlock n b
      | [] => d
  let old := ((d.lndOf n).wc.find? (fun b => b.node == node)).getD ⟨gpa / 256, [], d.tim.tide, r.ticket, []⟩
  let new := (sliceBytes r.data 0 len).zipIdx.map (fun b => (gpa % 256 + b.2, b.1))
  let b := { old with
    bytes := old.bytes.filter (fun e => !(decide (gpa % 256 ≤ e.1) && decide (e.1 < gpa % 256 + len))) ++ new
    stores := old.stores ++ [(r.tag, r.o.ctx, r.id)] }
  let d := d.setLnd n (fun l => { l with wc := if l.wc.contains old then l.wc.map (fun q => if q = old then b else q) else l.wc ++ [b] })
  if b.bytes.length = 256 then d.closeBlock n b else d

/-- WC_BLOCK_TIMEOUT: 50 ns of tide time after it opened (R142). -/
def Dev.wcTimeout (n dest : Nat) (d : Dev) : Dev :=
  d.closeBlocks n (fun b => b.node == dest && decide (b.openedAt + nsT 50 ≤ d.tim.tide))

/-! ### What is live, and fences (R144–R147) -/

def Dev.liveAccs (d : Dev) : List Acc := d.src.reqs.map (·.acc) ++ d.src.held.map (·.acc) ++ d.src.noNode.map (·.acc)

/-- Requests of port `p` (landings 0 to 3, the host port 4) accepted and not yet issued. -/
def Dev.portQ (d : Dev) (p : Nat) : List PortReq := if p < 4 then (d.lndOf p).inQ else d.host.inQ

def Dev.setPortQ (p : Nat) (q : List PortReq) (d : Dev) : Dev :=
  if p < 4 then d.setLnd p (fun l => { l with inQ := q }) else { d with host := { d.host with inQ := q } }

/-- Whether a request is a pool access, which fences wait for: none of fences, cache operations, streams, doorbells and
dock reads is. -/
def opAccess (op : Nat) : Bool := (decide (1 ≤ op) && decide (op ≤ 6)) || op == 0x0B || op == 0x0C || op == 0x11

/-- One access that is not yet complete: its number, its engine, its context. -/
abbrev Open := Nat × Nat × Nat

/-- The accesses that end with `a`: those of a combined write are its stores, a part or fill ends one of its request. -/
def Acc.opens (a : Acc) : List Open :=
  match a.purpose with
  | .wcBlock _ stores => stores.map (fun s => (s.2.2, a.eng, s.2.1))
  | .bulk _ id _ _ => [(a.id, a.eng, a.ctx), (id, a.eng, a.ctx)]
  | .lndFill _ id _ => [(a.id, a.eng, a.ctx), (id, a.eng, a.ctx)]
  | _ => [(a.id, a.eng, a.ctx)]

/-- Every access that is accepted and not yet complete (R144, R145), table reads and the home's own apart: issued, in a queue, in an open block,
or a PUBLISH that waits for its release. -/
def Dev.opens (d : Dev) : List Open :=
  (d.liveAccs.filter (fun a => a.eng != 5 && a.eng != 7)).flatMap Acc.opens
    ++ (List.range 5).flatMap (fun p => ((d.portQ p).filter (fun r => opAccess r.op)).map (fun r => (r.id, p, r.o.ctx)))
    ++ (List.range 4).flatMap (fun n => (d.lndOf n).wc.flatMap (fun b => b.stores.map (fun s => (s.2.2, n, s.2.1))))
    ++ d.src.fences.filterMap (fun f => match f.next with
      | .publish n r => some (f.id, n, r.o.ctx)
      | _ => none)

/-- A TLP that accesses pool memory. -/
def HTlp.access : HTlp → Bool
  | .bell _ _ => false
  | _ => true

/-- Accesses that wait at the boundary of a landing or of the host port (R50, R145). -/
def Dev.atBoundary (d : Dev) : List Open :=
  (List.range 4).flatMap (fun n => ((d.lndOf n).gate.filter (fun w => opAccess w.op)).filterMap (fun w => w.id.map (fun i => (i, n, w.q.o.ctx))))
    ++ (d.host.gate.filter (fun w => w.tlp.access)).map (fun w => (w.id, 4, w.win.ctx))

/-- A fence is accepted. -/
def Dev.openFence (f : Fence) (d : Dev) : Dev := { d with src := { d.src with fences := d.src.fences ++ [f] } }

/-- Attention requests of context `c` some group of which has not returned its record (R331). -/
def Dev.attnOf (d : Dev) (c : Nat) : List Nat :=
  (d.fry.attn.filter (fun a => !a.returned && d.fry.ops.any (fun o => o.id == a.op && o.ctx == c))).map (·.op)

/-- A domain fence of context `c` is accepted (R145, R331): it covers every access of `c` that is not yet complete, what waits at a boundary
among them, and the attention requests of `c`. -/
def Dev.domainFence (id c : Nat) (next : FenceThen) (d : Dev) : Dev :=
  d.openFence ⟨id, (((d.opens ++ d.atBoundary).filter (fun e => e.2.2 == c)).map (·.1)).dedup, none, some c, false, 16, next, d.attnOf c⟩

/-- Everything that a fence covers has ended (R145, R331). -/
def Dev.fenceClear (d : Dev) (f : Fence) : Bool :=
  f.covered.isEmpty && f.ops.all (fun op => d.fry.attn.all (fun a => a.op != op || a.returned))

/-- A local fence of engine `n` is accepted (R144). -/
def Dev.localFence (id n : Nat) (next : FenceThen) (d : Dev) : Dev :=
  d.openFence ⟨id, ((d.opens.filter (fun e => e.2.1 == n)).map (·.1)).dedup, some n, none, false, 16, next, []⟩

/-- The fence that request `r` of landing `n` is, or brings with it as a release (R144, R145, R156). -/
def Dev.fenceIn (n : Nat) (r : PortReq) (d : Dev) : Dev :=
  if r.op = 8 then
    if r.o.order = 1 then d.domainFence r.id r.o.ctx (.lndFence n r.tag) else d.localFence r.id n (.lndFence n r.tag)
  else if r.op = 0x0C ∧ r.o.order % 2 = 1 then d.domainFence r.id r.o.ctx (.publish n r)
  else d

/-- A fence's own request still waits in its landing's queue. -/
def Dev.fenceQueued (d : Dev) (f : Fence) : Bool :=
  (List.range 4).any (fun n => (d.portQ n).any (fun r => r.id == f.id))

/-- WC_FLUSH answers once every block write has been acknowledged (R143). -/
def Dev.flushDone (d : Dev) : Dev :=
  let done := fun (f : Fence) => f.covered.isEmpty && (match f.next with | .wcFlush _ _ => true | _ => false)
  (d.src.fences.filter done).foldl (fun (d : Dev) f => match f.next with
      | .wcFlush n tag => d.attach n 0x0A tag sOk []
      | _ => d)
    { d with src := { d.src with fences := d.src.fences.filter (fun f => !done f) } }

/-- What waited at a boundary as `old` is accepted as the requests `new`: a fence that covered it covers those (R145). -/
def Dev.fenceSplit (old : Nat) (new : List Nat) (d : Dev) : Dev :=
  let swap := fun (f : Fence) => { f with covered := f.covered.flatMap (fun i => if i = old then new else [i]) }
  { d with src := { d.src with fences := d.src.fences.map swap } }

/-- Register-issued fences of a landing not yet complete (R147). -/
def Dev.regFences (d : Dev) (n : Nat) : Nat :=
  (d.src.fences.filter (fun f => f.next == .lndReg n)).length

/-- GO of LND_FENCE_CMD (R147); `old` is the register before the write, which a dropped write of GO leaves (DEDUCED, log entry 58). -/
def Pkg.lndFenceGo (n old : Nat) (x : Pkg) : Pkg :=
  let c := x.2.rdp F.LND_FENCE_CMD_CONTEXT (lndPage n)
  let e := x.ctxEntry c
  let full := decide (4 ≤ x.2.regFences n)
  if !(e.valid && e.landing == n) || full then
    x.dev (fun d => (d.setWord (lndPage n * 0x1000 + 0x180) old).capture (lndPage n) .config 0 0x13 0x3F (c + 256 * b2n full))
  else
    let r := x.2.newId
    (x.1, (r.2.closeBlocks n (fun _ => true)).domainFence r.1 c (.lndReg n))

/-! ### Accepting a request (R465, R467, R473, R521) -/

/-- Sizes and alignments of R465 and R148: the CODE of the refusal, if any. Formats that are not reducible are left to
the home (R182). -/
def sizeBroken (op : Nat) (o : Opd) : Option Nat :=
  let len := opdLen o
  let a := o.addr
  match op with
  | 1 | 2 => if len ≤ 256 ∧ a % 256 + len ≤ 256 then none else some 0x11
  | 3 =>
    if 9 < o.aop then some 0x12
    else if !(len == 4 || len == 8 || (len == 16 && o.aop == 1)) then some 0x11
    else if a % len ≠ 0 then some 0x12
    else none
  | 4 =>
    if !(fmtWordOk o.mfmt && fmtWordOk o.cfmt) then (if len ≤ 256 then none else some 0x11)
    else if len ≤ 256 ∧ len * 8 % fmtBits (o.cfmt % 16) = 0 ∧ (fmtBits (o.mfmt % 16) < 8 ∨
        (a % (fmtBits (o.mfmt % 16) / 8) = 0 ∧ a % 256 + reduceBytes o.mfmt o.cfmt len ≤ 256)) then none
    else some 0x11
  | 5 | 6 => if 64 ≤ len ∧ len % 64 = 0 ∧ a % 64 = 0 then none else some 0x11
  | 0x10 => if (len = 4 ∨ len = 8) ∧ a % len = 0 then none else some 0x11
  | 0x11 => if len = 8 then none else some 0x11
  | _ => none

/-- The kind of access of a translated operation. -/
def opKind (op : Nat) : AKind :=
  match op with
  | 1 | 5 => .read
  | 3 => .atomic
  | 4 => .reduce
  | _ => .write

/-- Whether an operation names pool memory by landing virtual address. -/
def opTranslates (op : Nat) : Bool := op == 1 || op == 2 || op == 3 || op == 4 || op == 5 || op == 6

/-- The landing that translates for a port (R20). -/
def portLanding (p : Nat) : Nat := if p < 4 then p else 0

/-- The pages of a request's footprint, by landing virtual page (R114). A reduce-write stays within 256 bytes at its target (R465). -/
def PortReq.pages (r : PortReq) : List Nat :=
  let a := r.o.addr % 2 ^ 57
  if r.op = 4 then [a / 2 ^ 21]
  else (List.range ((a + opdLen r.o - 1) / 2 ^ 21 - a / 2 ^ 21 + 1)).map (fun i => a / 2 ^ 21 + i)

/-- The bytes that a request names from its address on. -/
def PortReq.span (r : PortReq) : Nat := if r.op = 4 then reduceBytes r.o.mfmt r.o.cfmt (opdLen r.o) else opdLen r.o

/-- The translation request for page `i` of the footprint: its bytes there. -/
def PortReq.xreq (r : PortReq) (p i page : Nat) : XReq :=
  let a := r.o.addr % 2 ^ 57
  let lva := max a (page * 2 ^ 21)
  { ctx := r.o.ctx, lva := lva, len := min (a + r.span) ((page + 1) * 2 ^ 21) - lva, kind := opKind r.op, eng := p, landing := portLanding p,
    ticket := r.ticket, tile := r.op == 5 || r.op == 6, for_ := .port p r.id i }

/-- A request enters its port's queue, and its pages are translated (R83). -/
def Pkg.portEnter (p : Nat) (r : PortReq) (x : Pkg) : Pkg :=
  if opTranslates r.op then
    let step := fun (a : List (Option XRes) × Pkg) (q : Nat × Nat) =>
      let t := a.2.translate (r.xreq p q.2 q.1)
      (a.1 ++ [t.1], t.2)
    let t := (r.pages.zipIdx).foldl step ([], x)
    t.2.dev (fun d => d.setPortQ p (d.portQ p ++ [{ r with xl := t.1 }]))
  else x.dev (fun d => d.setPortQ p (d.portQ p ++ [r]))

/-- Bytes of data that follow an operand slot in the request frame (R466). -/
def opDataLen (op : Nat) (o : Opd) : Nat := if op = 2 ∨ op = 4 then opdLen o else 0

/-- The region's home of an operation that names a region in place of an address, if node IDs of the domain do not reach it (R57). -/
def Dev.regionAway (d : Dev) (r : PortReq) : Bool :=
  (r.op == 0x0B || r.op == 0x0C || r.op == 0x11) && !d.hasNode (bits r.o.addr 13 7)

/-- An operation that is not translated ends with FAULT, its cause recorded (R57, R79). Its record names the address only where the
operation has one (STREAM_DECLARE). DESIGN CHOICE (log entry 58): it names 0 for the others, and as its REGION the operation's, where the
operation names one that no node of the domain homes. -/
def Pkg.plainFault (n cause : Nat) (r : PortReq) (x : Pkg) : Pkg :=
  let q := { r.xreq n 0 0 with lva := if r.op = 0x0D then r.o.addr % 2 ^ 57 else 0 }
  (x.fault q cause 0 (if cause = fBadNode then r.o.addr % 2 ^ 20 else 0)).dev (fun d => d.lndEnd n r sFault)

/-- A request that may be taken: the context of an operation that names no address must serve the landing (R79), and the node of its region
must be one of the domain's (R57). `old`: its number at the boundary. -/
def Pkg.lndEnter (n : Nat) (old : Option Nat) (r : PortReq) (x : Pkg) : Pkg :=
  let e := x.ctxEntry r.o.ctx
  let barred := x.2.ctxBarred (r.xreq n 0 0)
  let ends := fun (x : Pkg) => match old with
    | some i => x.dev (Dev.fenceNoteId i (r.op != 0x0B) sFault)
    | none => x
  if !opTranslates r.op && (barred || !e.valid || e.landing != n) then (ends x).plainFault n fNoContext r
  else if x.2.regionAway r then (ends x).plainFault n fBadNode r
  else
    let i := x.2.newId
    let d := match old with
      | some o => i.2.fenceSplit o [i.1]
      | none => i.2
    let r := { r with id := i.1 }
    Pkg.portEnter n r (x.1, d.fenceIn n r)

/-- A request of port `p` waits at the boundary: a page of it would miss, and the XLT block takes no miss or its queue has no room for it
(R50, R90, R604). One that hits, or that joins a walk, goes on. -/
def Dev.missWaits (p : Nat) (r : PortReq) (d : Dev) : Bool :=
  let cold := r.pages.filter (fun g => (findT r.o.ctx g (nth d.xlt.ltb (portLanding p) [])).isNone)
  let new := cold.filter (fun g => (findT r.o.ctx g d.xlt.ftc).isNone && !(d.xlt.walks ++ d.xlt.missQ).any (fun w => w.ctx == r.o.ctx && w.page == g))
  opTranslates r.op && d.ticket != 0 && !d.ctxBarred (r.xreq p 0 0) && !cold.isEmpty
    && (!d.xltTakes || (!new.isEmpty && decide (64 < d.xlt.missQ.length + new.length)))

/-- Slots of the receive space of landing `n`'s link are returned (R44, R448). -/
def Dev.returnSlots (n : Nat) (slots : List (Nat × Nat)) (d : Dev) : Dev :=
  let give := fun (l : Link) => { l with owed := slots.foldl (fun t s => nset t s.1 (nget t s.1 + s.2)) l.owed }
  if slots.isEmpty then d else { d with links := modAt give d.links (24 + n) }

/-- Operations that write pool memory. -/
def opWrites (op : Nat) : Bool := op == 2 || op == 3 || op == 4 || op == 6 || op == 0x11

/-- The request as its landing accepts it (R515), with the data its frames have brought. -/
def LWait.request (w : LWait) (ticket : Nat) : PortReq :=
  { id := 0, op := w.op, tag := w.q.tag, o := w.q.o, data := w.q.data, ticket := ticket }

/-- A landing takes a request (R465, R515, R521), and returns the slots of its frames (R448); or it must wait: the landing takes none (R50,
R604), a page of it would miss (R90), or it is a DOORBELL behind a write that waits (R354). `before`: what has waited longer. -/
def Pkg.lndTake (w : LWait) (before : List LWait) (x : Pkg) : Option Pkg :=
  let n := w.q.n.val
  let r := w.request x.2.ticket
  let detail := w.op % 256 + w.q.o.lengthM1 % 65536 * 2 ^ 8 + w.q.o.addr % 2 ^ 40 * 2 ^ 24
  let y := x.dev (Dev.returnSlots n w.slots)
  let ends := fun (d : Dev) (status : Nat) => match w.id with
    | some i => d.fenceNoteId i (opWrites w.op) status
    | none => d
  if !x.2.lndOpen n || (w.op == 0x0F && before.any (fun v => opWrites v.op)) then none
  else if !x.2.tenantOpen then some (y.dev (fun d => (ends d sRetired).lndEnd n r sRetired))
  else match sizeBroken w.op w.q.o with
    | some code => some (y.dev (fun d => ((ends d sRights).capture (lndPage n) .request sRights code 0x3F detail).lndEnd n r sRights))
    | none => if x.2.missWaits n r then none else some (y.lndEnter n w.id r)

/-- A request whose frames are all there is taken, or waits at the boundary, under a number that fences know. -/
def Pkg.lndOffer (w : LWait) (x : Pkg) : Pkg :=
  match x.lndTake w (x.2.lndOf w.q.n.val).gate with
  | some y => y
  | none => x.dev (fun d => d.newId.2.setLnd w.q.n.val (fun l => { l with gate := l.gate ++ [{ w with id := some d.newId.1 }] }))

/-- Frame `f` is the request of opcode `op` (R462, R463): OPCODE, TAG, the operand slot, and the data up to the padding of its last slot. What
the other fields of its header hold the landing ignores. -/
def broughtBy (op : Nat) (q : LReq) (f : Frame) : Bool :=
  f.hdr.opcode == op && f.hdr.tag == q.tag && opdOfBits (leNat (f.pay.take 16)) == q.o && decide (16 ≤ f.pay.length)
    && (f.pay.drop 16).take q.data.length == q.data && decide (f.pay.length < 32 + q.data.length)

/-- The first frame in the receive crossing of landing `n`'s link leaves it if it is of the form `p` (R43): the slots that it holds of receive
space, none if it came before the link last went down, and the package without it. -/
def Dev.lndCross (n : Nat) (p : Frame → Bool) (d : Dev) : Option (List (Nat × Nat) × Dev) :=
  let l := d.link (24 + n)
  match l.rx with
  | [] => none
  | f :: rest =>
    if p f then some (if l.rxFree = 0 then [(4 * f.hdr.cls + f.hdr.channel, f.hdr.len)] else [], d.crossed (24 + n) rest) else none

/-- A request arrives at a landing (R466, R467): the first frame of the receive crossing brings it. One that reuses a TAG is discarded; one
with more data than a frame holds waits for its DATA frame. -/
def Pkg.lndRequest (op : Nat) (q : LReq) (x : Pkg) : Pkg :=
  let n := q.n.val
  match x.2.lndCross n (broughtBy op q) with
  | none => x
  | some c =>
    if (x.2.lndOf n).tags.contains q.tag then
      (x.1, ((c.2.returnSlots n c.1).count (lndPage n) 6 1).capture (lndPage n) .request 0 0x10 0x3F (q.tag % 4096))
    else
      let w : LWait := { op := op, q := q, slots := c.1 }
      let d := c.2.setLnd n (fun l => { l with tags := l.tags ++ [q.tag] })
      if 240 < opDataLen op q.o then (x.1, d.setLnd n (fun l => { l with halves := l.halves ++ [w] }))
      else Pkg.lndOffer w (x.1, d)

/-- The first request at landing `n`'s boundary that may be taken is taken. -/
def Pkg.lndGateStep (n : Nat) (x : Pkg) : Option Pkg :=
  let g := (x.2.lndOf n).gate
  g.zipIdx.findSome? (fun e => Pkg.lndTake e.1 (g.take e.2) (x.dev (fun d => d.setLnd n (fun l => { l with gate := g.eraseIdx e.2 }))))

/-- Frame `f` is the DATA frame of a TAG with these data, up to the padding of its last slot (R466, R468). -/
def dataIn (tag : Nat) (data : List Byte) (f : Frame) : Bool :=
  f.hdr.opcode == 0x07 && f.hdr.tag == tag && f.pay.take data.length == data && decide (f.pay.length < 16 + data.length)

/-- A DATA frame (R466, R468): the rest of a linked pair, which is then complete, or the next 256 bytes of a BULK_WRITE; that of a request at
the boundary waits with it. -/
def Pkg.lndData (n tag : Nat) (data : List Byte) (x : Pkg) : Pkg :=
  match x.2.lndCross n (dataIn tag data) with
  | none => x
  | some c =>
    match takeFirst (fun (w : LWait) => w.q.tag == tag) (x.2.lndOf n).halves with
    | some t =>
      let w := { t.1 with q := { t.1.q with data := sliceBytes t.1.q.data 0 240 ++ sliceBytes data 0 (opdLen t.1.q.o - 240) }, slots := t.1.slots ++ c.1 }
      Pkg.lndOffer w (x.1, c.2.setLnd n (fun l => { l with halves := t.2 }))
    | none =>
      let mine := fun (w : LWait) => w.op == 6 && w.q.tag == tag
      if (x.2.lndOf n).gate.any mine then
        let more := fun (w : LWait) => { w with q := { w.q with data := w.q.data ++ sliceBytes data 0 (min 256 (opdLen w.q.o - w.q.data.length)) }
                                                slots := w.slots ++ c.1 }
        (x.1, c.2.setLnd n (fun l => { l with gate := mapFirst mine more l.gate }))
      else
        let more := fun (r : PortReq) =>
          if r.op == 6 && r.tag == tag && decide (r.data.length < opdLen r.o) then
            { r with data := r.data ++ sliceBytes data 0 (min 256 (opdLen r.o - r.data.length)) } else r
        let d := c.2.returnSlots n c.1
        (x.1, d.setPortQ n ((d.portQ n).map more))

/-- The outcome of a translation reaches the request that waits for it. -/
def Dev.portXlt (p id page : Nat) (res : XRes) (d : Dev) : Dev :=
  let set := fun (r : PortReq) => if r.id = id then { r with xl := modAt (fun _ => some res) r.xl page } else r
  d.setPortQ p ((d.portQ p).map set)

/-! ### Issuing (R129–R131, R142, R468, R470) -/

/-- A pool access of a landing or host port for request `r`. -/
def PortReq.acc (r : PortReq) (p id gpa : Nat) (kind : AKind) (purpose : Purpose) : Acc :=
  { id := id, eng := p, ctx := r.o.ctx, landing := portLanding p, ticket := r.ticket, kind := kind, gpa := gpa, len := opdLen r.o,
    data := r.data, aop := r.o.aop, fetch := r.o.fetch, mfmt := r.o.mfmt, cfmt := r.o.cfmt, purpose := purpose }

/-- GPA of a landing virtual address in a translated page. -/
def gpaIn (gpaPage lva : Nat) : Nat := gpaPage * 2 ^ 21 + lva % 2 ^ 21

/-- A LOAD that may use the read cache (R470): lines present answer at once, each other line is filled whole. -/
def Dev.cachedLoad (n : Nat) (r : PortReq) (gpa : Nat) (d : Dev) : Dev :=
  let ls := linesOf gpa (opdLen r.o)
  let have_ := fun (l : Nat) => ((d.lndOf n).rc.find? (fun e => e.1 == l)).map (·.2)
  let lines := ls.map (fun l => (l, have_ l))
  let miss := (lines.filter (fun e => e.2.isNone)).map (·.1)
  let hits := (lines.filterMap (fun e => e.2.map (fun v => (e.1, v))))
  let d := (d.count (lndPage n) 0 hits.length).count (lndPage n) 1 miss.length
  let d := hits.foldl (fun (d : Dev) e => d.setLnd n (fun l => { l with rc := e :: l.rc.filter (fun f => f.1 != e.1) })) d
  if miss.isEmpty then
    (d.fenceNoteId r.id false sOk).attach n 1 r.tag sOk (sliceBytes (hits.flatMap (·.2)) (gpa % 64) (opdLen r.o))
  else
    let d := d.setLnd n (fun l => { l with loads := l.loads ++ [⟨r.id, r.tag, gpa, opdLen r.o, lines, sOk⟩] })
    miss.foldl (fun (d : Dev) line =>
      let i := d.newId
      i.2.issueAcc { r.acc n i.1 (line * 64) .read (.lndFill n r.id line) with len := 64, data := [] }) d

/-- The 256-byte parts of a bulk request: offset, length, index of the page (R468). -/
def bulkParts (lva len : Nat) : List (Nat × Nat × Nat) :=
  (List.range ((lva + len - 1) / 256 - lva / 256 + 1)).map (fun i =>
    let lo := max lva ((lva / 256 + i) * 256)
    let hi := min (lva + len) ((lva / 256 + i + 1) * 256)
    (lo - lva, hi - lo, lo / 2 ^ 21 - lva / 2 ^ 21))

/-- A bulk request whose last part has ended completes (R116, R468): data in ascending order, then status and mask. -/
def Dev.bulkDone (n : Nat) (b : Bulk) (d : Dev) : Dev :=
  let status := if b.mask = 0 then sOk
    else if b.low < 16 then b.low
    else if b.okParts = 0 then sFault else sPartial
  let d := d.setLnd n (fun l => { l with bulks := l.bulks.filter (fun c => c.id != b.id) })
  let worst := if b.faults = 0 then b.low else min b.low sFault
  let d := d.fenceNoteId b.id (!b.isRead) (if worst < 16 then worst else sOk)
  if b.isRead then
    let r := d.freeBytes b.len
    let page0 := 2 ^ 21 - b.lva % 2 ^ 21
    let flagged := fun (i : Nat) => bit b.mask (if i < page0 then 0 else 1)
    let data := b.data.zipIdx.map (fun e => if flagged e.2 then (r.1[e.2]?).getD 0 else e.1)
    let d := (List.range (ceilDiv b.len 256)).foldl
      (fun (d : Dev) k => d.attachOut n 0x07 b.tag sOk (sliceBytes data (256 * k) (min 256 (b.len - 256 * k)))) r.2
    d.attach n 0x05 b.tag status (natLE 8 b.mask)
  else d.attach n 0x06 b.tag status (natLE 8 b.mask)

/-- A bulk request is issued (R115, R468): every part whose page translates. -/
def Dev.bulkIssue (n : Nat) (r : PortReq) (d : Dev) : Dev :=
  let lva := r.o.addr % 2 ^ 57
  let isRead := r.op == 5
  let step := fun (a : Bulk × Dev) (part : Nat × Nat × Nat) =>
    let page := part.2.2
    match (r.xl[page]?).join with
    | some (.hit g _) =>
      let gpa := gpaIn g (lva + part.1)
      let d := a.2.closeNode n (gpaNode gpa)
      let d := if isRead then d else d.rcDrop n gpa part.2.1
      let i := d.newId
      ({ a.1 with waiting := a.1.waiting ++ [part.1] },
        i.2.issueAcc { r.acc n i.1 gpa (if isRead then .read else .write) (.bulk n r.id part.1 page) with
          len := part.2.1, data := if isRead then [] else sliceBytes r.data part.1 part.2.1 })
    | some .retired => ({ a.1 with low := min a.1.low sRetired, mask := putBit a.1.mask page true }, a.2)
    | _ => ({ a.1 with faults := a.1.faults + 1, mask := putBit a.1.mask page true }, a.2)
  let b0 : Bulk := ⟨r.id, r.tag, isRead, lva, opdLen r.o, if isRead then List.replicate (opdLen r.o) 0 else [], [], 0, 0, 16, 0⟩
  let q := (bulkParts lva (opdLen r.o)).foldl step (b0, d)
  let d := q.2.setLnd n (fun l => { l with bulks := l.bulks ++ [q.1] })
  if q.1.waiting.isEmpty then d.bulkDone n q.1 else d

/-- A part of a bulk request ends (R116). -/
def Dev.bulkPart (n id part page status : Nat) (data : List Byte) (d : Dev) : Dev :=
  match (d.lndOf n).bulks.find? (fun b => b.id == id) with
  | none => d
  | some b =>
    let ok := status == sOk
    let b := { b with
      waiting := b.waiting.filter (· != part)
      okParts := b.okParts + b2n ok
      low := if ok then b.low else min b.low status
      mask := if ok then b.mask else putBit b.mask page true
      data := if ok && b.isRead then overlay b.data part data else b.data }
    let d := d.setLnd n (fun l => { l with bulks := l.bulks.map (fun c => if c.id = id then b else c) })
    if b.waiting.isEmpty then d.bulkDone n b else d

/-- A STREAM_DECLARE (R469); a reserved LOOKAHEAD or an empty dimension is refused with RIGHTS. -/
def Dev.streamDeclare (n : Nat) (r : PortReq) (d : Dev) : Dev :=
  let v := fun (off len : Nat) => leNat (sliceBytes r.data off len)
  let counts := (List.range 4).map (fun i => v (4 * i) 4)
  let strides := (List.range 3).map (fun i => v (16 + 8 * i) 8 % 2 ^ 48)
  let tile := (List.range 4).map (fun i => v (40 + 4 * i) 4)
  let look := v 56 1
  let good := decide (look ≤ 64) && counts.all (fun c => c != 0) && (List.zipWith (fun c t => decide (1 ≤ t) && decide (t ≤ c)) counts tile).all id
  if good then
    let q := d.openStream ⟨0, r.o.ctx, r.o.addr % 2 ^ 57, counts, strides, tile, 8, if look = 0 then 8 else look, [], 0, 0⟩
    q.2.attach n 0x0D r.tag sOk (natLE 1 q.1)
  else d.lndEnd n r sRights

/-- STREAM_END (R469): a stream of the context that a landing declared ends. -/
def Dev.streamEnd (n : Nat) (r : PortReq) (d : Dev) : Dev :=
  (d.endStreams (fun s => s.num == r.o.addr % 64 && s.owner == 0 && s.ctx == r.o.ctx)).attach n 0x0E r.tag sOk []

/-- A version operation leaves for the region's home (R152, R153). -/
def Dev.versionSend (n : Nat) (r : PortReq) (d : Dev) : Dev :=
  let pub := r.op == 0x0C
  let kind := if pub then AKind.publish else .verRead
  d.issueAcc { r.acc n r.id 0 kind (if pub then .lndPublish n r.tag r.o.order else .lndVersion n r.tag r.o.order) with
    len := if pub then 8 else 4, data := if pub then sliceBytes r.data 0 8 else [], region := r.o.addr % 2 ^ 20 }

/-- A request at the head of its landing's queue is carried out (R131): `none` while it must wait. DOORBELL and
DOCK_READ are the ferryman's. -/
def Dev.lndIssue (n : Nat) (r : PortReq) (d : Dev) : Option Dev :=
  match r.op with
  | 5 => if r.xl.all (·.isSome) then some (d.bulkIssue n r) else none
  | 6 => if r.xl.all (·.isSome) && decide (opdLen r.o ≤ r.data.length) then some (d.bulkIssue n r) else none
  | 1 | 2 | 3 | 4 =>
    match r.xl with
    | [some (.hit g _)] =>
      let gpa := gpaIn g (r.o.addr % 2 ^ 57)
      if r.op = 2 ∧ d.rdp F.LND_CFG_WC_EN (lndPage n) = 1 then some ((d.rcDrop n gpa (opdLen r.o)).combine n r gpa)
      else
        let d := d.closeNode n (gpaNode gpa)
        if r.op = 1 then
          if r.o.cache ∧ d.rdp F.LND_CFG_RC_EN (lndPage n) = 1 then some (d.cachedLoad n r gpa)
          else some (d.issueAcc { r.acc n r.id gpa .read (.lndLoad n r.tag) with data := [] })
        else
          let purpose := match r.op with
            | 2 => Purpose.lndStore n r.tag
            | 3 => .lndAtomic n r.tag r.o.fetch
            | _ => .lndReduce n r.tag
          some ((d.rcDrop n gpa (if r.op = 4 then reduceBytes r.o.mfmt r.o.cfmt (opdLen r.o) else opdLen r.o)).issueAcc (r.acc n r.id gpa (opKind r.op) purpose))
    | [some (.fault _)] => some ((d.fenceNoteId r.id (r.op != 1) sFault).lndEnd n r sFault)
    | [some .retired] => some ((d.fenceNoteId r.id (r.op != 1) sRetired).lndEnd n r sRetired)
    | _ => none
  | 8 => some (d.closeBlocks n (fun _ => true))
  | 9 => some ((d.rcClear n).attach n 9 r.tag sOk [])
  | 0x0A =>
    let d := d.closeBlocks n (fun _ => true)
    let ids := (d.liveAccs.filter (fun a => match a.purpose with | .wcBlock m _ => m == n | _ => false)).map (·.id)
    some ((d.openFence ⟨r.id, ids, none, none, false, 16, .wcFlush n r.tag, []⟩).flushDone)
  | 0x0B =>
    let r := { r with o := { r.o with order := r.o.order / 2 * 2 } }
    let d := if r.o.order = 2 then d.setLnd n (fun l => { l with acquiring := l.acquiring ++ [(r.o.ctx, r.id)] }) else d
    some (d.versionSend n r)
  | 0x0C =>
    let d := if 2 ≤ r.o.order then d.setLnd n (fun l => { l with acquiring := l.acquiring ++ [(r.o.ctx, r.id)] }) else d
    some (if r.o.order % 2 = 1 then d.closeBlocks n (fun _ => true) else d.versionSend n r)
  | 0x0D => some (d.streamDeclare n r)
  | 0x0E => some (d.streamEnd n r)
  | 0x11 =>
    let d := d.closeNode n (bits r.o.addr 13 7)
    some (d.issueAcc { r.acc n r.id 0 .pteWrite (.lndPte n r.tag) with
      len := 8, data := sliceBytes r.data 0 8, region := r.o.addr % 2 ^ 20, page := bits r.o.addr 20 23 })
  | _ => none

/-- Whether a fence or an acquire holds a request of port `p` (R144, R145, R156). A doorbell of the host names no context. -/
def Dev.portHeld (d : Dev) (p : Nat) (r : PortReq) : Bool :=
  let named := !(p == 4 && r.op == 0x0F)
  d.src.fences.any (fun f => decide (f.id < r.id) && !f.covered.contains r.id && (f.holdEng == some p || (named && f.holdCtx == some r.o.ctx)))
    || (named && d.acquireHolds r.o.ctx r.id)

/-! ### Answers (R467, R470, R484) -/

/-- A line of a cached LOAD returns (R470): installed unless an RC_INV or a write came between, or the line is one of
R371. -/
def Dev.fillAnswer (n id line accId status : Nat) (data : List Byte) (d : Dev) : Dev :=
  let v := sliceBytes data 0 64
  let stop := (d.lndOf n).noFill.contains (accId, line)
  let d := d.setLnd n (fun l => { l with noFill := l.noFill.filter (fun e => e.1 != accId) })
  let d := if status = sOk ∧ !stop ∧ d.rdp F.LND_CFG_RC_EN (lndPage n) = 1 ∧ !d.recordLine n line then
      (d.rcPut n line v).count (lndPage n) 2 1 else d
  match (d.lndOf n).loads.find? (fun c => c.id == id) with
  | none => d
  | some c =>
    let c : CLoad := { c with
      lines := c.lines.map (fun (e : Nat × Option (List Byte)) => if e.1 = line then (line, some v) else e)
      status := if status = sOk then c.status else if c.status = sOk then status else min c.status status }
    if c.lines.all (fun e => e.2.isSome) then
      let d := (d.setLnd n (fun l => { l with loads := l.loads.filter (fun (e : CLoad) => e.id != id) })).fenceNoteId id false c.status
      let r := d.answerData c.len c.status (sliceBytes (c.lines.flatMap (fun e => e.2.getD [])) (c.gpa % 64) c.len)
      r.2.attach n 1 c.tag c.status r.1
    else d.setLnd n (fun l => { l with loads := l.loads.map (fun (e : CLoad) => if e.id = id then c else e) })

/-- An acquire's response has returned (R156): the read cache empties and the context goes on. -/
def Dev.acquired (n ctx : Nat) (d : Dev) : Dev :=
  (d.rcClear n).setLnd n (fun l => { l with acquiring := l.acquiring.filter (fun e => e.1 != ctx) })

/-- A landing's access has its answer. -/
def Dev.lndAnswer (a : Acc) (status : Nat) (data : List Byte) (d : Dev) : Dev :=
  match a.purpose with
  | .lndLoad n tag => let r := d.answerData a.len status data; r.2.attach n 1 tag status r.1
  | .lndFill n id line => d.fillAnswer n id line a.id status data
  | .wcBlock n stores =>
    (stores.foldl (fun (d : Dev) e => (d.fenceNoteId e.2.2 true status).attach n 2 e.1 status []) d).flushDone
  | .lndStore n tag => d.attach n 2 tag status []
  | .lndReduce n tag => d.attach n 4 tag status []
  | .lndPte n tag => d.attach n 0x11 tag status []
  | .lndAtomic n tag fetch =>
    if fetch then let r := d.answerData a.len status data; r.2.attach n 3 tag status r.1
    else d.attach n 3 tag status []
  | .lndVersion n tag order =>
    let d := if order = 2 then d.acquired n a.ctx else d
    let v := if data.isEmpty then d.freeBytes 4 else (sliceBytes data 0 4, d)
    v.2.attach n 0x0B tag status v.1
  | .lndPublish n tag order =>
    let d := if 2 ≤ order then d.acquired n a.ctx else d
    let v := if data.isEmpty then d.freeBytes 4 else (sliceBytes data 0 4, d)
    v.2.attach n 0x0C tag status v.1
  | .bulk n id part page => d.bulkPart n id part page status data
  | _ => d

/-- A landing's fence completes (R146, R147, R157). -/
def Dev.lndFenced (f : Fence) (d : Dev) : Dev :=
  match f.next with
  | .lndFence n tag => d.attach n 8 tag sOk [if f.errSeen then 1 else 0]
  | .lndReg n =>
    let d := if f.errSeen then d.wrp F.LND_FENCE_STAT_ERR_SEEN (lndPage n) 1 else d
    (d.wrp F.LND_FENCE_STAT_DONE_COUNT (lndPage n) (d.rdp F.LND_FENCE_STAT_DONE_COUNT (lndPage n) + 1)).event (lndPage n) 0
  | .publish n r =>
    if f.lowest < 16 then
      let d := if 2 ≤ r.o.order then d.acquired n r.o.ctx else d
      (d.fenceNoteId r.id false f.lowest).lndEnd n r f.lowest
    else d.versionSend n r
  | _ => d

/-! ### Time messages, LND_CFG (R472, R480) -/

/-- The ordinary channel on which frame `f` of landing `n` can leave now: the link is UP, the replay buffer has room for it, no link control
message waits before it, and the channel holds its credit (R448, R450, R458). -/
def Dev.lndChannel (d : Dev) (n : Nat) (f : Frame) : Option Nat :=
  let l := d.link (24 + n)
  if d.linkState (24 + n) = 5 ∧ (l.txSeq + 4096 - l.acked) % 4096 + ceilDiv f.hdr.len 15 ≤ 1024 ∧ l.lctlWait = [] then
    [0, 1].find? (fun c => decide (f.hdr.len ≤ nget l.credits (4 * f.hdr.cls + c)))
  else none

/-- Frame `f` of landing `n` leaves on channel `c` as flits (R445, R448, R458). -/
def Dev.lndSend (n : Nat) (f : Frame) (c : Nat) (d : Dev) : Dev :=
  d.sendSlots (24 + n) f.hdr.cls c { f with hdr := { f.hdr with channel := c } } none

/-- The frames that a landing has for its accelerator leave, oldest first, as far as they can. -/
def Dev.lndSends (n : Nat) (d : Dev) : Dev :=
  (d.lndOf n).outQ.foldl (fun (d : Dev) f =>
    match (if (d.lndOf n).outQ.head? = some f then d.lndChannel n f else none) with
    | some c => (d.setLnd n (fun l => { l with outQ := l.outQ.tail })).lndSend n f c
    | none => d) d

/-- Whether landing `n` is to send TIME frames (R472). -/
def Dev.timeOn (d : Dev) (n : Nat) : Bool :=
  d.rdp F.LND_CFG_TIME_EN (lndPage n) == 1 && d.pageOn (lndPage n) && decide (5 ≤ d.linkState (24 + n))

/-- The present microsecond, if landing `n` has not yet dealt with it (R472). -/
def Dev.timeDue (d : Dev) (n : Nat) : Option Nat := if (d.lndOf n).timeAt < d.ns / 1000 then some (d.ns / 1000) else none

/-- TIME_FRAME_SEND (R472): the frame of a microsecond leaves in the oscillator period in which that begins (log entry 3), ahead of what waits,
or is skipped. -/
def Dev.timeFrame (n : Nat) (d : Dev) : Dev :=
  match d.timeDue n with
  | none => d
  | some t =>
    if d.timeOn n then
      let data := natLE 8 (t * 1000) ++ natLE 8 0
      let d := d.setLnd n (fun l => { l with timeAt := t })
      let f := lndFrame 0x20 0 0 data
      match (if d.tim.tide % us 1 < nsT 40 then d.lndChannel n f else none) with
      | some c => ((d.count (lndPage n) 4 1).emit (.attach n 0x20 0 0 data)).lndSend n f c
      | none => d.count (lndPage n) 5 1
    else d

/-- The period in which a microsecond began is over: a TIME frame that has not gone is skipped (R472). -/
def Dev.timeMissed (n : Nat) (d : Dev) : Dev :=
  match d.timeDue n with
  | none => d
  | some t =>
    let e := d.setLnd n (fun l => { l with timeAt := t })
    if d.timeOn n then e.count (lndPage n) 5 1 else e

/-- What a write of LND_CFG brings about, from RC_EN and WC_EN before it (R471, R480). -/
def Dev.lndCfgWritten (n rc wc : Nat) (d : Dev) : Dev :=
  let d := if rc = 1 ∧ d.rdp F.LND_CFG_RC_EN (lndPage n) = 0 then d.rcClear n else d
  if wc = 1 ∧ d.rdp F.LND_CFG_WC_EN (lndPage n) = 0 then d.closeBlocks n (fun _ => true) else d

/-- What the block does on an empty queue (log entry 3): the landings' frames leave, each link returns the grants it owes, and one oscillator
period passes. -/
def Dev.idle (d : Dev) : Dev :=
  (d.ifRuns (fun d => (List.range 28).foldl Dev.returnGrants ((List.range 4).foldl (fun d n => (d.timeMissed n).lndSends n) d))).tick

/-! ### The commands -/

/-- WC_BLOCK_TIMEOUT (R142). -/
def execWcBlockTimeout (n : Fin 4) (dest : Nat) (s : State) : Host.Outcome State Fault Refusal :=
  onDev (Dev.ifRuns (Dev.wcTimeout n dest)) s

/-- TIME_FRAME_SEND (R472). -/
def execTimeFrameSend (n : Fin 4) (s : State) : Host.Outcome State Fault Refusal := onDev (Dev.ifRuns (Dev.timeFrame n)) s

end Sys2Proof.Machine
end

