-- ==== Sys2Proof/Machine/HostPort.lean ====
section
/-!
DEFINITION. The host port (R20, R132, R473–R479, R584, R587): BAR2 windows, AtomicOps, PERST_N, configuration requests.
-/
namespace Sys2Proof.Machine

/-- The host port takes TLPs: PERST_N high, powered, neither quiesced nor disabled (R604), the package not on its way to
MOORED (R563). -/
def Dev.hostOpen (d : Dev) : Bool :=
  d.rd F.GLB_PIN_STAT_PERST == 0 && d.takes 0x18 && d.awake

/-- A completion TLP. -/
def Dev.cpl (id status : Nat) (data : List Byte) (d : Dev) : Dev := (d.count 0x18 1 1).emit (.cpl id status data)

/-- A failed BAR2 access of window `w` (R478, R481). -/
def Dev.winFail (w status : Nat) (d : Dev) : Dev :=
  (d.wri F.PCIE_WIN_STAT_LAST_STATUS w status).wri F.PCIE_WIN_STAT_ERRORS w (satAdd 16 (d.rdi F.PCIE_WIN_STAT_ERRORS w) 1)

/-- Landing virtual address of window offset `o` of window `w` (R477). -/
def Dev.winLva (d : Dev) (w o : Nat) : Nat :=
  (d.rdi F.PCIE_WIN_BASE_LO_BASE_LO w * 2 ^ 21 + d.rdi F.PCIE_WIN_BASE_HI_BASE_HI w * 2 ^ 32 + o) % 2 ^ 57

/-- The window of a BAR2 offset, and what a TLP that arrives now at that offset takes from its registers (R477). -/
def bar2Win (off : Nat) : Nat := off / 2 ^ 34 % 4

def Dev.winAt (d : Dev) (off : Nat) : HWin :=
  let w := bar2Win off
  ⟨d.winLva w (off % 2 ^ 34), d.rdi F.PCIE_WIN_CFG_CONTEXT w, d.rdi F.PCIE_WIN_CFG_ENABLE w == 1⟩

/-- Why a window passes no TLP: before READY none (R587); without an open tenancy (R521); while its ENABLE is 0
(R478). `none`: the completion is an abort without a status. -/
def Dev.winStop (d : Dev) (v : HWin) : Option (Option Nat) :=
  if !d.booted then some none
  else if !d.tenantOpen then some (some sRetired)
  else if !v.enable then some (some sFault)
  else none

/-- The parts of a TLP at 256-byte boundaries: offset and length (R477). -/
def tlpParts (lva len : Nat) : List (Nat × Nat) := (bulkParts lva len).map (fun p => (p.1, p.2.1))

/-- The parts of a TLP to window `w` enter the host port's queue in address order (R477). -/
def Pkg.hostEnter (op id w : Nat) (v : HWin) (len : Nat) (data : List Byte) (x : Pkg) : Pkg :=
  (tlpParts v.lva len).zipIdx.foldl (fun (x : Pkg) p =>
    let i := x.2.newId
    let r : PortReq := { id := i.1, op := op, tag := id, o := { addr := (v.lva + p.1.1) % 2 ^ 57, ctx := v.ctx, lengthM1 := p.1.2 - 1 }
                         data := if data.isEmpty then [] else sliceBytes data p.1.1 p.1.2, ticket := i.2.ticket, part := p.2, win := w }
    Pkg.portEnter 4 r (x.1, i.2)) x

/-- BAR2_READ (R477, R478). -/
def Pkg.bar2Read (id off len : Nat) (v : HWin) (x : Pkg) : Pkg :=
  let w := bar2Win off
  match x.2.winStop v with
  | some none => x.dev (fun d => d.cpl id 4 [])
  | some (some st) => x.dev (fun d => (d.winFail w st).cpl id 4 [])
  | none =>
    if len = 0 then x.dev (fun d => d.cpl id 0 [])
    else
      let parts := (tlpParts v.lva len).map (fun _ => (none : Option (List Byte)))
      (x.dev (fun d => { d with host := { d.host with ops := d.host.ops ++ [⟨id, w, parts, false⟩] } })).hostEnter 1 id w v len []

/-- BAR2_WRITE (R477, R478): posted, so a failed one is dropped. -/
def Pkg.bar2Write (off : Nat) (data : List Byte) (v : HWin) (x : Pkg) : Pkg :=
  let w := bar2Win off
  match x.2.winStop v with
  | some none => x
  | some (some st) => x.dev (Dev.winFail w st)
  | none => if data.isEmpty then x else x.hostEnter 2 0 w v data.length data

/-- BAR2_ATOMIC (R474): FetchAdd, Swap and CAS as the fetch forms of ADD, SWAP and CAS. -/
def Pkg.bar2Atomic (id off aop : Nat) (data : List Byte) (v : HWin) (x : Pkg) : Pkg :=
  let w := bar2Win off
  let len := if aop = 1 then data.length / 2 else data.length
  if 2 < aop ∨ !(len == 4 || len == 8 || (len == 16 && aop == 1)) ∨ (aop = 1 ∧ data.length % 2 = 1) then x.dev (fun d => d.cpl id 1 [])
  else match x.2.winStop v with
    | some none => x.dev (fun d => d.cpl id 4 [])
    | some (some st) => x.dev (fun d => (d.winFail w st).cpl id 4 [])
    | none =>
      let o : Opd := { addr := v.lva, ctx := v.ctx, lengthM1 := len - 1, aop := aop, fetch := true }
      match sizeBroken 3 o with
      | some code =>
        let detail := 3 + (len - 1) * 2 ^ 8 + v.lva % 2 ^ 40 * 2 ^ 24
        x.dev (fun d => ((d.capture (lndPage 0) .request sRights code 0x3F detail).winFail w sRights).cpl id 4 [])
      | none =>
        let i := x.2.newId
        let d := { i.2 with host := { i.2.host with ops := i.2.host.ops ++ [⟨id, w, [none], false⟩] } }
        Pkg.portEnter 4 { id := i.1, op := 3, tag := id, o := o, data := data, ticket := d.ticket, win := w } (x.1, d)

/-! ### The boundary of the port (R50, R90, R604) -/

/-- The BAR2 offset that a TLP names, and how many bytes. -/
def HTlp.span : HTlp → Option (Nat × Nat)
  | .read _ off len => some (off, len)
  | .write off data => some (off, data.length)
  | .atomic _ off _ data => some (off, data.length)
  | .bell _ _ => none

/-- What a TLP takes from its window's registers as it arrives (R477). -/
def Dev.tlpWin (d : Dev) (t : HTlp) : HWin := d.winAt ((t.span.map (·.1)).getD 0)

/-- The request that the first part of a TLP would make, as to its translation. -/
def HWin.probe (v : HWin) (len ticket : Nat) : PortReq :=
  { id := 0, op := 2, tag := 0, o := { addr := v.lva, ctx := v.ctx, lengthM1 := len - 1 }, data := [], ticket := ticket }

/-- A TLP that asks for a completion. -/
def HTlp.nonPosted : HTlp → Bool
  | .read _ _ _ | .atomic _ _ _ _ => true
  | _ => false

/-- A TLP waits at the boundary: the port takes none, 512 non-posted ones are outstanding (R474), or a page of it would miss with no room in
the miss queue. -/
def Dev.tlpWaits (t : HTlp) (v : HWin) (d : Dev) : Bool :=
  !d.hostOpen || (t.nonPosted && decide (512 ≤ d.host.ops.length)) || (match t.span with
    | none => false
    | some (_, len) => (d.winStop v).isNone && decide (0 < len) && d.missWaits 4 (v.probe len d.ticket))

/-- In D3hot the function takes no memory request: one that asks for a completion gets Unsupported Request (PRESUMED, log entry 66). -/
def Dev.tlpAsleep (t : HTlp) (d : Dev) : Dev :=
  match t with
  | .read id _ _ | .atomic id _ _ _ => d.cpl id 1 []
  | _ => d

/-- A part of a TLP has its bytes, or failed (R477, R478): the last one completes the TLP. Parts of a TLP that a host
reset has discarded are stray answers (R584). -/
def Dev.hostPart (id part status : Nat) (data : List Byte) (d : Dev) : Dev :=
  match d.host.ops.find? (fun o => o.id == id) with
  | none => d.count 0xC1 1 1
  | some o =>
    let ok := status == sOk
    let o := { o with parts := modAt (fun _ => some (if ok then data else [])) o.parts part, failed := o.failed || !ok }
    let d := if ok then d else d.winFail o.win status
    if o.parts.all (·.isSome) then
      let d := { d with host := { d.host with ops := d.host.ops.filter (fun q => q.id != id) } }
      if o.failed then d.cpl id 4 [] else d.cpl id 0 (o.parts.flatMap (fun p => p.getD []))
    else { d with host := { d.host with ops := d.host.ops.map (fun q => if q.id = id then o else q) } }

/-- How a request of the host port ends without an access. -/
def Dev.hostRefused (r : PortReq) (status : Nat) (d : Dev) : Dev :=
  let d := d.fenceNoteId r.id (r.op != 1) status
  if r.op = 2 then d.winFail r.win status else d.hostPart r.tag r.part status []

/-- BAR2 writes not yet acknowledged (R132). -/
def Dev.hostWriting (d : Dev) : Bool := d.liveAccs.any (fun a => match a.purpose with | .bar2Write _ => true | _ => false)

/-- A request at the head of the host port's queue (R131, R132): a read waits for every earlier write. -/
def Dev.hostIssue (r : PortReq) (d : Dev) : Option Dev :=
  if r.op = 1 ∧ d.hostWriting then none
  else match r.xl with
    | [some (.hit g _)] =>
      let purpose := match r.op with
        | 1 => Purpose.bar2Read r.tag r.part r.win
        | 2 => .bar2Write r.win
        | _ => .bar2Atomic r.tag r.win
      some (d.issueAcc (r.acc 4 r.id (gpaIn g r.o.addr) (opKind r.op) purpose))
    | [some (.fault _)] => some (d.hostRefused r sFault)
    | [some .retired] => some (d.hostRefused r sRetired)
    | _ => none

/-- A host-port access has its answer. -/
def Dev.hostAnswer (a : Acc) (status : Nat) (data : List Byte) (d : Dev) : Dev :=
  match a.purpose with
  | .bar2Read id part _ => d.hostPart id part status (sliceBytes data 0 a.len)
  | .bar2Atomic id _ => d.hostPart id 0 status (sliceBytes data 0 a.len)
  | .bar2Write w => if status = sOk then d else d.winFail w status
  | _ => d

/-! ### PERST_N and configuration requests (R584, R587) -/

/-- PERST_N falls (R584): the controller and the PCIE page reset; the windows keep their configuration. -/
def Dev.perstAssert (d : Dev) : Dev :=
  if d.rd F.GLB_PIN_STAT_PERST = 1 then d
  else
    let keep := fun (k : Nat) => k / 4096 == 0x18 && !(decide (0x100 ≤ k % 4096) && decide (k % 4096 < 0x140) && k % 16 != 0xC)
    let d := { d with
      regs := tdrop keep d.regs, cnts := tdrop (fun k => k / 1024 == 0x18) d.cnts
      glb := { d.glb with pcieTraining := false }, host := { d.host with ops := [], gate := [], bars := [0, 0, 0], d3hot := false } }
    (d.wr F.GLB_PIN_STAT_PERST 1).emit (.pin "PCIE_TX_IDLE" 1)

/-- PERST_N rises (R587): link training starts, unless the controller is held in reset (R531). -/
def Dev.perstRelease (d : Dev) : Dev :=
  if d.rd F.GLB_PIN_STAT_PERST = 0 then d
  else { d.wr F.GLB_PIN_STAT_PERST 0 with glb := { d.glb with perstReleased := d.tim.tide, pcieTraining := d.glb.hold == .none } }

/-- Bytes of BAR0, BAR2 and BAR4 (R475). -/
def barSize (i : Nat) : Nat := nth [2 ^ 24, 2 ^ 36, 2 ^ 18] i 1

/-- What a register of the configuration space reads (R474, R475). The bits that name a 64-bit BAR and a prefetchable one, the code of a table
size and the capability IDs are those of PCI Express (PRESUMED, log entry 66); what the spec does not give of them is free. -/
def Dev.configRead (r : CfgReg) (d : Dev) : List Byte × Dev :=
  match r with
  | .identity => (natLE 2 Config.vendorId.toNat ++ natLE 2 0xD128, d)
  | .classCode => let v := d.freeBytes 1; (v.1 ++ natLE 3 0x058000, v.2)
  | .bar i high =>
    let a := nth d.host.bars i.val 0
    (natLE 4 (if high then a / 2 ^ 32 else a % 2 ^ 32 + 4 + (if i.val = 1 then 8 else 0)), d)
  | .msix => (natLE 2 2047, d)
  | .power => (natLE 4 (if d.host.d3hot then 3 else 0), d)
  | .errors => let v := d.freeBytes 2; (natLE 2 0x0001 ++ v.1, v.2)
  | .doe => let v := d.freeBytes 2; (natLE 2 0x002E ++ v.1, v.2)
  | .other _ => (natLE 4 0, d)

/-- What a write of a register of the configuration space does: a BAR keeps the bits above its size; the power state takes D0 and D3hot. -/
def Dev.configWrite (r : CfgReg) (v : Nat) (d : Dev) : Dev :=
  match r with
  | .bar i high =>
    let size := barSize i.val
    let set := fun (a : Nat) => (if high then v * 2 ^ 32 + a % 2 ^ 32 else a / 2 ^ 32 * 2 ^ 32 + v) / size * size
    { d with host := { d.host with bars := modAt set d.host.bars i.val } }
  | .power => if v % 4 = 0 ∨ v % 4 = 3 then { d with host := { d.host with d3hot := v % 4 == 3 } } else d
  | _ => d

/-- A configuration request (R474, R587): Request Retry Status until the stage reaches MEMTRAIN. -/
def Dev.configRequest (q : CfgReq) (d : Dev) : Dev :=
  if d.rd F.GLB_PIN_STAT_PERST = 1 ∨ !d.pageOn 0x18 then d
  else
    let d := d.count 0x18 0 1
    if d.rd F.GLB_BOOT_STAT_STAGE < 2 then d.cpl q.id 2 []
    else match q.write with
      | some v => (d.configWrite q.reg v.toNat).cpl q.id 0 []
      | none => let r := d.configRead q.reg; r.2.cpl q.id 0 r.1

/-! ### The commands -/

/-- PERST_N_ASSERT (R584). -/
def execPerstNAssert (s : State) : Host.Outcome State Fault Refusal := onDev (Dev.ifPowered Dev.perstAssert) s

/-- PERST_N_RELEASE (R587). -/
def execPerstNRelease (s : State) : Host.Outcome State Fault Refusal := onDev (Dev.ifPowered Dev.perstRelease) s

/-- CONFIGURATION_REQUEST (R474, R587). -/
def execConfigurationRequest (q : CfgReq) (s : State) : Host.Outcome State Fault Refusal := onDev (Dev.ifRuns (Dev.configRequest q)) s

end Sys2Proof.Machine
end

