-- ==== Sys2Proof/Machine/Ferryman.lean ====
section
/-!
DEFINITION. The ferryman (R282–R290, R347–R357, R370–R376): submission rings, the scoreboard, waits, signals, completion
records, doorbells, the dock window; and transfers, the accesses that its engines make for an operation.
-/
namespace Sys2Proof.Machine

/-! ### Operations -/

def Dev.fop (d : Dev) (id : Nat) : Option FOp := d.fry.ops.find? (fun o => o.id == id)

def Dev.setFop (id : Nat) (f : FOp → FOp) (d : Dev) : Dev :=
  { d with fry := { d.fry with ops := mapFirst (fun o => o.id == id) f d.fry.ops } }

/-- Bits `lo` to `lo + w − 1` counted from byte `b` of a descriptor. -/
def FOp.fld (o : FOp) (b lo w : Nat) : Nat := bits (leNat (sliceBytes o.desc b 8)) lo w

/-- Operations on the scoreboard (R282). -/
def Dev.scored (d : Dev) : List FOp := d.fry.ops.filter (·.scored)

/-- The landing that context `c` is bound to, if the context is valid (R80). -/
def Pkg.bound (x : Pkg) (c : Nat) : Option Nat := let e := x.ctxEntry c; if e.valid then some e.landing else none

/-- Every bit of a descriptor outside the listed fields (bit position, width) is 0. -/
def reservedZero (desc : List Byte) (used : List (Nat × Nat)) : Bool :=
  let n := leNat desc
  used.foldl (fun m f => putBits m f.1 f.2 0) n == 0

/-- The fields of the operation header (R283). -/
def headerFields : List (Nat × Nat) :=
  [(0, 32), (32, 32), (64, 53), (128, 32), (192, 53), (256, 32), (320, 52), (384, 32)]

/-! ### Transfers -/

/-- GPA of address `a` of side `side` of an operation: through its translations, or as it is. -/
def FOp.gpaOf (o : FOp) (side : Nat) (lva : Bool) (a : Nat) : Option Nat :=
  if lva then
    match o.pages.find? (fun p => p.side == side && p.page == a / 2 ^ 21) with
    | some ⟨_, _, some (.hit g _)⟩ => some (gpaIn g a)
    | _ => none
  else some (a % 2 ^ 52)

/-- A run of bytes cut into pieces that each lie in one 256-byte-aligned block (R359). -/
def cut256 (a len : Nat) : List (Nat × Nat) :=
  if len = 0 then []
  else (List.range ((a + len - 1) / 256 - a / 256 + 1)).map (fun i =>
    let lo := max a ((a / 256 + i) * 256)
    (lo, min (a + len) ((a / 256 + i + 1) * 256) - lo))

/-- The accesses of a run of side `side`: pieces whose page does not translate are left out. -/
def FOp.parts (o : FOp) (side : Nat) (lva : Bool) (a len : Nat) : List XPart :=
  (cut256 a len).filterMap (fun p => (o.gpaOf side lva p.1).map (fun g => { side := side, addr := p.1, gpa := g, len := p.2 }))

/-- The accesses that write bytes `v` from address `a` on. -/
def FOp.writes (o : FOp) (side : Nat) (lva : Bool) (a : Nat) (v : List Byte) : List XPart :=
  (o.parts side lva a v.length).map (fun p => { p with data := sliceBytes v (p.addr - a) p.len })

/-- A transfer starts: its accesses are issued in order by engine `eng` for the operation's context and bound landing
(R65); without a bound landing there is no right, and each ends with RIGHTS. -/
def Dev.xferGo (o : FOp) (eng : Nat) (key : XKey) (kind : AKind) (mfmt cfmt : Nat) (parts : List XPart) (d : Dev) : Dev :=
  let i := d.newId
  let put := fun (d : Dev) (ps : List XPart) => { d with fry := { d.fry with xfers := d.fry.xfers ++ [⟨i.1, o.id, eng, key, kind, ps⟩] } }
  match o.landing with
  | none => put i.2 (parts.map (fun p => { p with status := some sRights }))
  | some l =>
    (parts.zipIdx).foldl (fun (d : Dev) (p : XPart × Nat) =>
      let n := d.newId
      n.2.issueAcc {
        id := n.1, eng := eng, ctx := o.ctx, landing := l, ticket := o.ticket, kind := kind, gpa := p.1.gpa, len := p.1.len
        data := p.1.data, mfmt := mfmt, cfmt := cfmt, aop := if kind = .atomic then 2 else 0, srcGpa := p.1.srcGpa, image := key.isImage
        purpose := .xfer i.1 p.2 }) (put i.2 parts)

/-- Access `k` of transfer `id` has its answer; bytes that a ferry moved are counted (R610), and a ferry engine with a failed access
issues no further tile (R367). -/
def Dev.xferPart (id k status : Nat) (data : List Byte) (d : Dev) : Dev :=
  match d.fry.xfers.find? (fun x => x.id == id) with
  | none => d
  | some x =>
    let set := fun (p : XPart) => { p with status := some status, data := if x.kind = .read ∨ x.kind = .migRead then sliceBytes data 0 p.len else p.data }
    let x' := { x with parts := modAt set x.parts k }
    let halt := fun (g : FerryEng) => if status = sOk ∨ g.op ≠ some x.op then g else { g with halted := true }
    let d := { d with fry := { d.fry with
      xfers := d.fry.xfers.map (fun y => if y.id = id then x' else y)
      engs := if 8 ≤ x.eng ∧ x.eng < 0x28 then modAt halt d.fry.engs (x.eng - 8) else d.fry.engs } }
    if status = sOk ∧ 8 ≤ x.eng ∧ x.eng < 0x28 then
      d.count (0x30 + (x.eng - 8) / 8) (if x.kind.isWrite then 8 else 7) ((x.parts[k]?).map (·.len) |>.getD 0)
    else d

/-- What a collective has read waits for its handshakes while the brake holds the arrays (R310). -/
def Dev.xferPaused (d : Dev) (x : Xfer) : Bool := d.braked && (match x.key with | .collIn _ _ _ => true | _ => false)

/-- A finished transfer leaves the list. -/
def Dev.xferTake (d : Dev) : Option (Xfer × Dev) :=
  (takeFirst (fun (x : Xfer) => x.parts.all (fun p => p.status.isSome) && !d.xferPaused x) d.fry.xfers).map
    (fun r => (r.1, { d with fry := { d.fry with xfers := r.2 } }))

/-- Lowest status other than OK of a transfer's accesses; 16 = none. -/
def Xfer.low (x : Xfer) : Nat := (x.parts.map (fun p => match p.status with | some 0 | none => 16 | some s => s)).foldl min 16

/-- The bytes read by a transfer, in the order of its accesses. -/
def Xfer.data (x : Xfer) : List Byte := x.parts.flatMap (fun p => p.data)

/-- Operation that an access serves. -/
def Purpose.opId (xfers : List Xfer) : Purpose → Option Nat
  | .waitRead o _ | .sem o _ | .signal o | .tail o | .attnGroup o _ => some o
  | .xfer id _ => (xfers.find? (fun x => x.id == id)).map (·.op)
  | _ => none

/-- An operation has an access or a transfer that is not over. -/
def Dev.opBusy (d : Dev) (id : Nat) : Bool :=
  d.fry.xfers.any (fun x => x.op == id) || d.liveAccs.any (fun a => a.purpose.opId d.fry.xfers == some id)

/-- The translation of a page of an operation starts or is done: the page is noted once. -/
def Pkg.opPage (id side lva : Nat) (kind : AKind) (tile : Bool) (x : Pkg) : Pkg :=
  match x.2.fop id with
  | none => x
  | some o =>
    if o.pages.any (fun p => p.side == side && p.page == lva / 2 ^ 21) then x
    else
      let eng := match o.kind with | 1 => 8 | 2 => 6 | _ => 0x28
      let r : XReq := { ctx := o.ctx, lva := lva, kind := kind, eng := eng, landing := o.landing.getD 0, ticket := o.ticket, tile := tile, for_ := .op id side }
      let t := x.translate r
      t.2.dev (Dev.setFop id (fun o => { o with pages := o.pages ++ [⟨side, lva / 2 ^ 21, t.1⟩] }))

/-- The outcome of a translation reaches its operation. -/
def Dev.opXlt (id side page : Nat) (res : XRes) (d : Dev) : Dev :=
  let set := fun (p : OpPage) => if p.side = side ∧ p.page = page ∧ p.res.isNone then { p with res := some res } else p
  d.setFop id (fun o => { o with pages := o.pages.map set })

/-- Every translation asked for has its outcome. -/
def FOp.xlated (o : FOp) : Bool := o.pages.all (fun p => p.res.isSome)

/-- A page that does not translate. -/
def OpPage.bad (p : OpPage) : Bool := match p.res with | some (.hit _ _) => false | _ => true

/-- Lowest status of the pages that do not translate: TENANT_RETIRED where there is no tenant, else FAULT; 16 = none. -/
def FOp.xltLow (o : FOp) (p : OpPage → Bool) : Nat :=
  ((o.pages.filter p).map (fun q => match q.res with | some (.fault _) => sFault | some .retired => sRetired | _ => 16)).foldl min 16

/-! ### States of an operation (R289) -/

/-- An operation enters COMPLETE with `status`. -/
def Dev.opComplete (id status : Nat) (d : Dev) : Dev :=
  let s := d.nextSeq
  s.2.setFop id (fun o => { o with state := .complete, status := status, seq := s.1, pages := [], waits := [{}, {}] })

/-- An operation becomes READY. -/
def Dev.opReady (id : Nat) (d : Dev) : Dev :=
  let s := d.nextSeq
  s.2.setFop id (fun o => { o with state := .ready, seq := s.1, waits := [{}, {}] })

/-- A request of the ferryman, engine 0x06 (R126). -/
def Dev.fryAcc (p : Purpose) (ctx landing ticket : Nat) (kind : AKind) (gpa len : Nat) (data : List Byte) (aop : Nat) (fetch : Bool)
    (d : Dev) : Dev :=
  let n := d.newId
  n.2.issueAcc {
    id := n.1, eng := 6, ctx := ctx, landing := landing, ticket := ticket, kind := kind, gpa := gpa, len := len, data := data
    aop := aop, fetch := fetch, purpose := p }

/-- The posted ADD of a signal or a progress count (R287, R317). -/
def Dev.signalGo (o : FOp) (d : Dev) : Dev :=
  match o.landing with
  | none => d.opComplete o.id (if o.status = sOk then sRights else o.status)
  | some l => d.fryAcc (.signal o.id) o.ctx l o.ticket .atomic (o.fld 40 0 52) 8 (natLE 8 (o.fld 48 0 32)) 2 false

/-- A running operation has ended with `status`, every write acknowledged (R287, R289). -/
def Dev.opEnded (id status : Nat) (d : Dev) : Dev :=
  match d.fop id with
  | none => d
  | some o =>
    if o.retired then d.opComplete id sRetired
    else if o.fld 0 14 1 = 1 ∧ (status = sOk ∨ o.fld 0 15 1 = 1) then
      let o := { o with state := .signalling, status := status, pages := [] }
      (d.setFop id (fun _ => o)).signalGo o
    else d.opComplete id status

/-- SIGNAL_ANSWER (R289). -/
def Dev.signalAnswer (id status : Nat) (d : Dev) : Dev :=
  match d.fop id with
  | none => d
  | some o =>
    if o.state ≠ .signalling then d
    else d.opComplete id (if o.retired then sRetired else if o.status = sOk then status else o.status)

/-! ### Waits (R285–R288) -/

def FOp.waitEn (o : FOp) (w : Nat) : Bool := o.fld 0 (12 + w) 1 == 1
def FOp.waitSem (o : FOp) (w : Nat) : Bool := o.fld (8 + 16 * w) 52 1 == 1
def FOp.waitValue (o : FOp) (w : Nat) : Nat := o.fld (16 + 16 * w) 0 32
def FOp.wait (o : FOp) (w : Nat) : WaitSt := nth o.waits w {}

/-- The wait window has ended (R289). -/
def Dev.windowOver (d : Dev) (o : FOp) : Bool :=
  o.fld 0 16 16 != 0 && decide (o.acceptAt + us (o.fld 0 16 16) ≤ d.tim.tide)

def Dev.setWait (id w : Nat) (f : WaitSt → WaitSt) (d : Dev) : Dev := d.setFop id (fun o => { o with waits := modAt f o.waits w })

/-- The words on the watch table (R288): operations that wait on one word share a watch. -/
def Dev.watched (d : Dev) : List Nat :=
  (d.fry.ops.flatMap (fun o => ([0, 1].filter (fun w => (o.wait w).armed)).map o.waitGpa)).dedup

/-- The ferryman asks about a wait: a read of the word, or the CAS of a semaphore. -/
def Dev.waitAsk (o : FOp) (w expect : Nat) (d : Dev) : Dev :=
  let d := d.setWait o.id w (fun s => { s with busy := true, expect := expect, hit := false, readAt := d.tim.tide + 1 })
  match o.landing with
  | none => d.opComplete o.id sRights
  | some l =>
    if o.waitSem w then
      d.fryAcc (.sem o.id w) o.ctx l o.ticket .atomic (o.waitGpa w) 8 (natLE 8 expect ++ natLE 8 (expect - o.waitValue w)) 1 true
    else d.fryAcc (.waitRead o.id w) o.ctx l o.ticket .read (o.waitGpa w) 8 [] 0 false

/-- A wait begins: its watch is armed before its word is read; a full table leaves it to be polled (R288). The first CAS
of a semaphore expects the amount itself. -/
def Dev.waitStart (id w : Nat) (d : Dev) : Dev :=
  match d.fop id with
  | none => d
  | some o =>
    if o.state ≠ .waiting ∨ !o.waitEn w ∨ (o.wait w).met ∨ (o.wait w).busy ∨ (o.wait w).readAt ≠ 0 then d
    else
      let arm := d.watched.contains (o.waitGpa w) || decide (d.watched.length < 1024)
      (d.setWait id w (fun s => { s with armed := arm, readAt := 1 })).waitAsk o w (o.waitValue w)

/-- Counters that are enabled are asked first; a semaphore once every one of them is met; all met is READY (R285, R289). -/
def Dev.waitsGo (id : Nat) (d : Dev) : Dev :=
  match d.fop id with
  | none => d
  | some o =>
    if o.state ≠ .waiting then d
    else
      let open_ := fun (sem : Bool) => [0, 1].filter (fun w => o.waitEn w && o.waitSem w == sem && !(o.wait w).met)
      let go := fun (ws : List Nat) => ws.foldl (fun (d : Dev) w => d.waitStart id w) d
      if !(open_ false).isEmpty then go (open_ false)
      else if !(open_ true).isEmpty then go (open_ true)
      else d.opReady id

/-- A semaphore taken too late is given back by an ADD, so that none is taken (R289). -/
def Dev.semReturn (o : FOp) (w : Nat) (d : Dev) : Dev :=
  match o.landing with
  | some l => d.fryAcc .semBack o.ctx l o.ticket .atomic (o.waitGpa w) 8 (natLE 8 (o.waitValue w)) 2 false
  | none => d

/-- A waiting or ready operation of a retired tenant ends once nothing of it is outstanding (R523). -/
def Dev.retiredDone (id : Nat) (d : Dev) : Dev :=
  match d.fop id with
  | some o => if o.retired ∧ (o.state = .waiting ∨ o.state = .ready) ∧ !d.opBusy id then d.opComplete id sRetired else d
  | none => d

/-- The CAS of an operation whose window ended meanwhile has its answer: a semaphore that it took goes back (R289). -/
def Dev.lateAnswer (o : FOp) (w status : Nat) (data : List Byte) (d : Dev) : Dev :=
  let d := { d with fry := { d.fry with late := d.fry.late.filter (fun p => p.id != o.id) } }
  if o.waitSem w ∧ status = sOk ∧ leNat (sliceBytes data 0 8) = (o.wait w).expect then d.semReturn o w else d

/-- The answer to a wait read or a CAS (R285, R286, R289). -/
def Dev.waitAnswer (id w status : Nat) (data : List Byte) (d : Dev) : Dev :=
  match d.fry.late.find? (fun o => o.id == id), d.fop id with
  | some o, _ => d.lateAnswer o w status data
  | none, none => d
  | none, some o =>
    let s := o.wait w
    let v := leNat (sliceBytes data 0 8)
    let took := o.waitSem w && status == sOk && v == s.expect
    if o.state ≠ .waiting ∨ o.retired ∨ d.windowOver o then
      let d := if o.waitEn w ∧ took then d.semReturn o w else d
      (d.setWait id w (fun s => { s with busy := false })).retiredDone id
    else
      let d := d.setWait id w (fun s => { s with busy := false })
      if status ≠ sOk then d.opComplete id status
      else if took ∨ (!o.waitSem w ∧ o.waitValue w ≤ v) then
        (d.setWait id w (fun s => { s with met := true, armed := false })).waitsGo id
      else if o.waitSem w ∧ o.waitValue w ≤ v then d.waitAsk o w v
      else d

/-- WATCH_TRIGGER (R288): the waits on a line written since are asked again. -/
def Dev.watchTrigger (line : Nat) (d : Dev) : Dev :=
  d.fry.ops.foldl (fun (d : Dev) o => [0, 1].foldl (fun (d : Dev) w =>
    let s := o.wait w
    if o.state = .waiting ∧ !o.retired ∧ s.hit ∧ !s.busy ∧ o.waitGpa w / 64 % 2 ^ 39 = line then d.waitAsk o w s.expect else d) d) d

/-- WAIT_POLL (R288). -/
def Dev.waitPoll (id w : Nat) (d : Dev) : Dev :=
  match d.fop id with
  | none => d
  | some o =>
    let s := o.wait w
    if o.state = .waiting ∧ !o.retired ∧ o.waitEn w ∧ !s.met ∧ !s.armed ∧ !s.busy ∧ s.readAt ≠ 0
        ∧ s.readAt + us (d.rd F.FRY_SCB_CFG_POLL_US) ≤ d.tim.tide + 1 then d.waitAsk o w s.expect
    else d

/-- WAIT_WINDOW_END (R289): the operation ends with no semaphore taken. One whose CAS is outstanding is remembered, so that what the CAS
takes is given back. -/
def Dev.waitEnd (id : Nat) (d : Dev) : Dev :=
  match d.fop id with
  | none => d
  | some o =>
    if o.state = .waiting ∧ !o.retired ∧ d.windowOver o then
      let asked := [0, 1].any (fun w => o.waitEn w && o.waitSem w && (o.wait w).busy)
      let d := if asked then { d with fry := { d.fry with late := d.fry.late ++ [o] } } else d
      (d.count 0x30 11 1).opComplete id sTimeout
    else d

/-! ### Submission rings (R349–R357) -/

def fryPage (r : Nat) : Nat := 0x30 + r / 16

def Dev.ring (d : Dev) (f : Fld) (r : Nat) : Nat := d.rdpi f (fryPage r) (r % 16)

def Dev.wrRing (f : Fld) (r v : Nat) (d : Dev) : Dev := d.wrpi f (fryPage r) (r % 16) v

def Dev.subOf (d : Dev) (r : Nat) : SubRing := nth d.fry.subs r {}

def Dev.setSub (r : Nat) (f : SubRing → SubRing) (d : Dev) : Dev := { d with fry := { d.fry with subs := modAt f d.fry.subs r } }

/-- Slots published and not read: PROD − CONS. -/
def Dev.subFill (d : Dev) (r : Nat) : Nat := (d.ring F.FRY_SUB_PROD_PROD r + 2 ^ 32 - d.ring F.FRY_SUB_CONS_CONS r) % 2 ^ 32

/-- Slots of a descriptor by KIND (R350); none for a reserved KIND. -/
def kindSlots : Nat → Option Nat
  | 1 => some 4
  | 2 => some 6
  | 3 => some 3
  | 4 => some 2
  | 5 => some 3
  | _ => none

/-- The ring may be fetched from (R355–R357, R521, R604). -/
def Dev.mayFetch (d : Dev) (r : Nat) : Bool :=
  d.ring F.FRY_SUB_CFG_ENABLE r == 1 && d.ring F.FRY_SUB_STAT_HALTED r == 0 && d.tenancy == 1 && d.awake && d.takes (fryPage r)

/-- The scoreboard and the context's share have room (R282). -/
def Dev.scbRoom (d : Dev) (ctx : Nat) : Bool :=
  decide (d.scored.length < 4096) && decide ((d.scored.filter (fun o => o.ctx == ctx)).length < d.rd F.FRY_SCB_CFG_CTX_MAX)

/-- A ring halts (R356). -/
def Dev.subHalt (r status : Nat) (d : Dev) : Dev :=
  let d := (d.wrRing F.FRY_SUB_STAT_HALTED r 1).wrRing F.FRY_SUB_STAT_HALT_STATUS r status
  ((d.setSub r (fun s => { s with got := [], busy := false })).capture (fryPage r) .request status 0x11 0x3F (r + status * 64)).event (fryPage r) 0

/-- The next slot of the descriptor at CONS is read: from host memory, or as a pool read of the ring's context (R349). -/
def Pkg.slotRead (r : Nat) (x : Pkg) : Pkg :=
  let d := x.2
  let i := d.ring F.FRY_SUB_CONS_CONS r + (d.subOf r).got.length / 64
  let a := ringAddr (d.ring F.FRY_SUB_BASE_LO_BASE_LO r) (d.ring F.FRY_SUB_BASE_HI_BASE_HI r) i (d.ring F.FRY_SUB_CFG_LOG2_SIZE r) 64
  let ctx := d.ring F.FRY_SUB_CFG_CONTEXT r
  let d' := d.setSub r (fun s => { s with busy := true })
  if d.ring F.FRY_SUB_CFG_HOST r = 1 then (x.1, (d'.count 0x18 1 1).emit (.hostRead a 64 r))
  else match x.bound ctx with
    | none => (x.1, d.subHalt r sRights)
    | some l => (x.1, d'.fryAcc (.fetch r (d.subOf r).gen) ctx l d.ticket .read (a % 2 ^ 52) 64 [] 0 false)

/-- A header is refused (R284). -/
def Dev.headerBad (d : Dev) (o : FOp) : Bool :=
  [0, 1].any (fun w => o.waitEn w && !(gpaNode (o.waitGpa w) == d.node && bit (o.waitGpa w) 44))
    || (o.waitEn 0 && o.waitSem 0 && o.waitEn 1 && o.waitSem 1)

/-- A descriptor fetched whole is accepted, or refused without an entry (R282, R284, R289); with no room it waits. -/
def Pkg.opAccept (r : Nat) (x : Pkg) : Pkg :=
  let d := x.2
  let desc := (d.subOf r).got
  let kind := bits (leNat (sliceBytes desc 0 4)) 0 4
  let ctx := bits (leNat (sliceBytes desc 0 4)) 4 8
  let o : FOp := {
    id := d.fry.nextOp, desc := desc, kind := kind, ctx := ctx, ticket := d.ticket, landing := x.bound ctx, subRing := r
    cmpRing := d.ring F.FRY_SUB_CMP_CMP_RING r, state := .waiting, scored := true, acceptAt := d.tim.tide, seq := 0 }
  let add := fun (o : FOp) => (d.setSub r (fun s => { s with got := [] })) |> fun (d : Dev) =>
    { d with fry := { d.fry with ops := d.fry.ops ++ [o], nextOp := d.fry.nextOp + 1 } }
  if desc.isEmpty ∨ some (desc.length / 64) ≠ kindSlots kind ∨ d.ring F.FRY_SUB_CFG_ENABLE r = 0 ∨ d.tenancy ≠ 1 then x
  else if d.headerBad o then (x.1, (add { o with scored := false }).opComplete o.id sRights)
  else if !d.scbRoom ctx then x
  else (x.1, ((add o).count 0x30 9 1).waitsGo o.id)

/-- The ring reads its next slot if it may: the first of a descriptor, or one more of a descriptor whose slots all lie
below PROD (R355). -/
def Pkg.fetchGo (r : Nat) (x : Pkg) : Pkg :=
  let s := x.2.subOf r
  if s.busy ∨ !x.2.mayFetch r ∨ !x.2.scbRoom (x.2.ring F.FRY_SUB_CFG_CONTEXT r)
      ∨ (x.2.ring F.FRY_SUB_CFG_HOST r = 1 ∧ x.2.rd F.GLB_PIN_STAT_PERST = 1) then x
  else match s.got with
    | [] => if 1 ≤ x.2.subFill r then x.slotRead r else x
    | g =>
      let n := (kindSlots (bits (leNat (sliceBytes g 0 4)) 0 4)).getD 1
      if g.length < 64 * n ∧ n ≤ x.2.subFill r then x.slotRead r else x

/-- The rings in the order in which the ferryman chooses among them (R53, R355): the one fetched last until it has had WEIGHT descriptors
in a row, then those after it in turn. -/
def Dev.ringOrder (d : Dev) : List Nat :=
  let r := d.fry.fetchLast
  let after := (List.range 63).map (fun i => (r + 1 + i) % 64)
  if d.fry.fetchRun < d.ring F.FRY_SUB_CFG_WEIGHT r then r :: after else after ++ [r]

/-- Ring `r` fetches, if it may: a descriptor that it begins to fetch counts in its share (R355). -/
def Pkg.ringFetch (r : Nat) (x : Pkg) : Pkg :=
  let y := x.fetchGo r
  if (x.2.subOf r).got.isEmpty ∧ !(x.2.subOf r).busy ∧ (y.2.subOf r).busy then
    let run := if y.2.fry.fetchLast = r then y.2.fry.fetchRun + 1 else 1
    (y.1, { y.2 with fry := { y.2.fry with fetchLast := r, fetchRun := run } })
  else y

/-- Ring `r` goes on, if it can: what it has fetched whole is accepted, and it fetches. -/
def Pkg.ringGo (r : Nat) (x : Pkg) : Pkg := (x.opAccept r).ringFetch r

/-- The rings that may fetch do, in their order: after room was made. -/
def Pkg.fetchAll (x : Pkg) : Pkg := x.2.ringOrder.foldl (fun (x : Pkg) r => x.ringGo r) x

/-- A slot read of ring `r` returns (R355, R356); after the last one of a descriptor the ferryman chooses again among the rings. -/
def Pkg.slotReturn (r status : Nat) (data : List Byte) (x : Pkg) : Pkg :=
  let d := x.2
  let s := d.subOf r
  if !s.busy ∨ d.ring F.FRY_SUB_CFG_ENABLE r = 0 then x
  else if status ≠ sOk then (x.1, d.subHalt r status)
  else
    let got := s.got ++ sliceBytes data 0 64
    let h := leNat (sliceBytes got 0 4)
    match kindSlots (bits h 0 4) with
    | none => (x.1, d.subHalt r sRights)
    | some n =>
      if bits h 4 8 ≠ d.ring F.FRY_SUB_CFG_CONTEXT r then (x.1, d.subHalt r sRights)
      else
        let d := d.setSub r (fun s => { s with got := got, busy := false })
        if got.length < 64 * n then Pkg.fetchGo r (x.1, d)
        else Pkg.fetchAll (x.1, d.wrRing F.FRY_SUB_CONS_CONS r (d.ring F.FRY_SUB_CONS_CONS r + n))

/-- OPERATION_ACCEPT (R289): a fetched descriptor that waited for room. -/
def Pkg.acceptWaiting (r : Nat) (x : Pkg) : Pkg := x.ringGo r

/-- ENABLE of a submission ring has changed (R356, R377). -/
def Dev.subEnabled (r : Nat) (on : Bool) (d : Dev) : Dev :=
  let d := d.setSub r (fun s => { got := [], busy := false, gen := s.gen + 1 })
  if on then
    let d := (d.wrRing F.FRY_SUB_PROD_PROD r 0).wrRing F.FRY_SUB_CONS_CONS r 0
    ((d.wrRing F.FRY_SUB_STAT_HALTED r 0).wrRing F.FRY_SUB_STAT_HALT_STATUS r 0).wrRing F.FRY_SUB_STAT_STALE_DB r 0
  else d

/-- The records of a completion ring that are being written are void. -/
def Dev.cmpVoid (r : Nat) (d : Dev) : Dev :=
  { d with fry := { d.fry with cmpBusy := d.fry.cmpBusy.filter (· != r), cmpGen := nset d.fry.cmpGen r (nget d.fry.cmpGen r + 1) } }

/-- ENABLE of a completion ring has changed (R371, R377). -/
def Dev.cmpEnabled (r : Nat) (on : Bool) (d : Dev) : Dev :=
  if on then
    let d := d.cmpVoid r
    let d := (d.wrRing F.FRY_CMP_PROD_PROD r 0).wrRing F.FRY_CMP_CONS_CONS r 0
    (d.wrRing F.FRY_CMP_STAT_HALTED r 0).wrRing F.FRY_CMP_STAT_HALT_STATUS r 0
  else d

/-! ### Doorbells (R351–R354) -/

/-- A doorbell that fails its source's condition, or names a value out of range, is recorded: `code` 0x12 or 0x13; `via` 0
landing, 1 host, 2 fabric (R616). -/
def Dev.doorbellBad (code via r : Nat) (completion : Bool) (v : Nat) (d : Dev) : Dev :=
  d.capture (fryPage r) .config 0 code 0x3F (r + 64 * b2n completion + (if code = 0x13 then 128 * via else 0) + v % 2 ^ 32 * 2 ^ 32)

/-- A doorbell of value `v` for ring `r` whose source's condition is `ok` (R351–R353, R357). -/
def Pkg.doorbell (via : Nat) (ok : Bool) (r : Nat) (completion : Bool) (v : Nat) (x : Pkg) : Pkg :=
  let d := x.2
  if completion then
    let gap := fun (a : Nat) => (a + 2 ^ 32 - d.ring F.FRY_CMP_CONS_CONS r) % 2 ^ 32
    if !ok ∨ d.ring F.FRY_CMP_CFG_ENABLE r = 0 then (x.1, d.doorbellBad 0x13 via r true v)
    else if gap v ≤ gap (d.ring F.FRY_CMP_PROD_PROD r) then (x.1, d.wrRing F.FRY_CMP_CONS_CONS r v)
    else (x.1, d.doorbellBad 0x12 via r true v)
  else
    let a := (v + 2 ^ 32 - d.ring F.FRY_SUB_CONS_CONS r) % 2 ^ 32
    let p := d.subFill r
    if !ok ∨ d.ring F.FRY_SUB_CFG_ENABLE r = 0 then (x.1, d.doorbellBad 0x13 via r false v)
    else if 2 ^ d.ring F.FRY_SUB_CFG_LOG2_SIZE r < a then (x.1, d.doorbellBad 0x12 via r false v)
    else if p < a then Pkg.ringGo r (x.1, d.wrRing F.FRY_SUB_PROD_PROD r v)
    else if a < p then (x.1, d.wrRing F.FRY_SUB_STAT_STALE_DB r (satAdd 16 (d.ring F.FRY_SUB_STAT_STALE_DB r) 1))
    else x

/-- The condition of a landing's doorbell on this package (R353); for a completion doorbell that of submission ring `r`. -/
def Pkg.ringOfLanding (x : Pkg) (r n : Nat) : Bool := x.bound (x.2.ring F.FRY_SUB_CFG_CONTEXT r) == some n

/-- FRY_DOORBELL (R353). -/
def Pkg.fabricDoorbell (r : Nat) (completion : Bool) (v ticket : Nat) (x : Pkg) : Pkg :=
  x.doorbell 2 (x.2.ring F.FRY_SUB_CFG_DB_FABRIC r == 1 && x.2.ticketOk ticket) r completion v

/-- DOORBELL of landing `n` (R353, R464): ADDR names the ring and the kind of doorbell, and its node; the data is V. -/
def Pkg.lndDoorbell (n node r : Nat) (completion : Bool) (v ticket : Nat) (x : Pkg) : Pkg :=
  if node = x.2.node then x.doorbell 0 (x.ringOfLanding r n) r completion v
  else x.dev (fun d => d.ctrl node (.fryDoorbell r completion v ticket))

/-! ### Completion records (R370–R374) -/

/-- The 32 bytes of a completion record (R373). -/
def FOp.record (o : FOp) (phase : Bool) : List Byte :=
  natLE 4 (packBits [(4, o.status), (4, o.kind), (8, o.ctx), (6, o.subRing), (1, b2n o.fenceErr), (8, 0), (1, b2n phase)])
    ++ natLE 4 (o.fld 4 0 32) ++ natLE 4 o.result ++ natLE 4 o.stop ++ natLE 8 o.srcMask ++ natLE 8 o.dstMask

/-- An entry is freed, and fetching goes on where it waited for room (R282, R289). -/
def Pkg.opFree (o : FOp) (x : Pkg) : Pkg :=
  let d := { x.2 with fry := { x.2.fry with ops := x.2.fry.ops.filter (fun p => p.id != o.id) } }
  Pkg.fetchAll (x.1, if o.scored then d.count 0x30 10 1 else d)

/-- PROD passes a visible record and the ring's message is sent (R372). -/
def Pkg.recordDone (c : Nat) (o : FOp) (x : Pkg) : Pkg :=
  let d := x.2.wrRing F.FRY_CMP_PROD_PROD c (x.2.ring F.FRY_CMP_PROD_PROD c + 1)
  Pkg.opFree o (x.1, if d.ring F.FRY_CMP_CFG_INT_EN c = 1 then d.msix (d.ring F.FRY_CMP_CFG_VECTOR c) else d)

/-- COMPLETION_RECORD_WRITE (R370–R374, R523): the oldest completed operation of ring `c`. -/
def Pkg.recordWrite (c : Nat) (x : Pkg) : Pkg :=
  let d := x.2
  let mine := d.fry.ops.filter (fun o => o.state == .complete && o.cmpRing == c)
  let oldest := (mine.map (·.seq)).min?.getD 0
  let prod := d.ring F.FRY_CMP_PROD_PROD c
  let log := d.ring F.FRY_CMP_CFG_LOG2_SIZE c
  let a := ringAddr (d.ring F.FRY_CMP_BASE_LO_BASE_LO c) (d.ring F.FRY_CMP_BASE_HI_BASE_HI c) prod log 32
  match mine.find? (fun o => o.seq == oldest) with
  | none => x
  | some o =>
    if d.ring F.FRY_CMP_CFG_ENABLE c = 0 ∨ d.ring F.FRY_CMP_STAT_HALTED c = 1 ∨ d.fry.cmpBusy.contains c
        ∨ !ringFree prod (d.ring F.FRY_CMP_CONS_CONS c) log then x
    else
      let bytes := o.record (prod / 2 ^ log % 2 == 0)
      if d.ring F.FRY_CMP_CFG_HOST c = 1 then Pkg.recordDone c o (x.1, d.hostWrite a bytes)
      else if d.ticket = 0 then Pkg.opFree o (x.1, d.count 3 2 1)
      else
        let d := { d with fry := { d.fry with cmpBusy := d.fry.cmpBusy ++ [c] } }
        (x.1, d.fryAcc (.record c o.id (nget d.fry.cmpGen c)) 256 (d.ring F.FRY_CMP_CFG_LANDING c) d.ticket .write (a % 2 ^ 52) 32 bytes 0 false)

/-- A near-tier record has its answer (R371, R372); one written before the ring was enabled again has none. -/
def Pkg.recordAnswer (c op gen status : Nat) (x : Pkg) : Pkg :=
  if nget x.2.fry.cmpGen c ≠ gen then x
  else
  let d := { x.2 with fry := { x.2.fry with cmpBusy := x.2.fry.cmpBusy.filter (· != c) } }
  match d.fop op with
  | none => (x.1, d)
  | some o =>
    if status = sOk then Pkg.recordDone c o (x.1, d)
    else
      let d := (d.wrRing F.FRY_CMP_STAT_HALTED c 1).wrRing F.FRY_CMP_STAT_HALT_STATUS c status
      (x.1, (d.capture (fryPage c) .request status 0x11 0x3F (c + status * 64)).event (fryPage c) 1)

/-! ### The dock window (R375) -/

/-- The 8 bytes of landing `n`'s dock window at offset `off`, as a number. -/
def Pkg.dockWord (n off : Nat) (x : Pkg) : Nat :=
  let d := x.2
  let r := (off - 0x400) / 16
  if off = 0 then d.ns
  else if off = 8 then d.tim.tide % 256 + d.ns % 2 ^ 56 * 256
  else if off < 0x400 ∨ !x.ringOfLanding r n then 0
  else if off % 16 = 0 then d.ring F.FRY_SUB_PROD_PROD r + d.ring F.FRY_SUB_CONS_CONS r * 2 ^ 32
  else (2 ^ d.ring F.FRY_SUB_CFG_LOG2_SIZE r + 2 ^ 32 - d.subFill r) % 2 ^ 32 + d.ring F.FRY_CMP_PROD_PROD (d.ring F.FRY_SUB_CMP_CMP_RING r) * 2 ^ 32

/-- DOCK_READ of `len` bytes at `off`, an aligned offset. -/
def Pkg.dockRead (n off len : Nat) (x : Pkg) : List Byte :=
  sliceBytes (natLE 8 (x.dockWord n (off % 2048 / 8 * 8))) (off % 8) len

/-! ### Retirement (R523) -/

/-- BUMP: the ferryman stops issuing for every operation; those that wait end once their answers are in. -/
def Dev.fryRetire (d : Dev) : Dev :=
  let late := fun (o : FOp) => if o.state = .complete then o else { o with retired := true }
  let d := { d with fry := { d.fry with ops := d.fry.ops.map late } }
  d.fry.ops.foldl (fun (d : Dev) o => d.retiredDone o.id) d

end Sys2Proof.Machine
end

