-- ==== Sys2Proof/Machine/Array.lean ====
section
/-!
DEFINITION. Pontoon arrays (R256–R281): array programs and their check, array jobs, slices, span reads and the
instructions.
-/
namespace Sys2Proof.Machine

/-! ### Operand pairs (R247) -/

/-- FMAs per cell and handshake of an operand pair, and whether it accumulates in INT32 (R247). DESIGN CHOICE (log entry 58): a pair in which
one INT8 side alone carries MX has no row in R247's table and no accumulator, and is none. -/
def pairOf (a b : FmtWord) : Option (Nat × Bool) :=
  let half := fun (c : Nat) => c == 1 || c == 2
  let small := fun (c : Nat) => decide (3 ≤ c) && decide (c ≤ 6)
  if a.fmt = 0 ∧ b.fmt = 0 then some (1, false)
  else if half a.fmt && half b.fmt then some (2, false)
  else if a.fmt = 7 ∧ b.fmt = 7 then some (8, false)
  else if small a.fmt && (small b.fmt || b.fmt == 7) then some (4, false)
  else if a.mx || b.mx then (if a.mx && b.mx && a.fmt == 9 && b.fmt == 9 then some (4, false) else none)
  else if a.fmt = 10 ∧ b.fmt = 10 then some (8, true)
  else if (a.fmt = 9 ∨ a.fmt = 10) ∧ (b.fmt = 9 ∨ b.fmt = 10) then some (4, true)
  else none

/-! ### Programs (R267–R269, R273) -/

/-- An instruction's fields (R268). -/
structure AIns where
  op : Nat
  bank : Nat
  rsv : Nat
  slot : Nat
  sub : Nat
  count : Nat
  imm : Nat
  deriving DecidableEq, Repr

/-- LEN of a program image (R267). -/
def progLen (image : List Byte) : Nat := bits (leNat (sliceBytes image 0 2)) 0 9

def progA (image : List Byte) : Nat := leNat (sliceBytes image 2 1)

def progB (image : List Byte) : Nat := leNat (sliceBytes image 3 1)

/-- ACC = 1: INT32 accumulators. -/
def progInt (image : List Byte) : Bool := bit (leNat (sliceBytes image 4 1)) 0

/-- Instruction `i` of a program image. -/
def progIns (image : List Byte) (i : Nat) : AIns :=
  let n := leNat (sliceBytes image (64 + 8 * i) 8)
  ⟨bits n 58 6, bits n 56 2, bits n 55 1, bits n 52 3, bits n 48 4, bits n 32 16, bits n 0 32⟩

def opLoop : Nat := 0x01
def opMac : Nat := 0x08
def opElt : Nat := 0x10
def opRowred : Nat := 0x14
def opCmpx : Nat := 0x15
def opIdx : Nat := 0x16
def opDrain : Nat := 0x18
def opEnd : Nat := 0x3F

/-- ELT reads a vector: ADDROW, ADDCOL and MULROW. -/
def eltVector (sub : Nat) : Bool := decide (3 ≤ sub) && decide (sub ≤ 5)

/-- Slots an instruction reads. -/
def AIns.reads (i : AIns) : List Nat :=
  if i.op = opMac then [i.slot, i.imm % 8] else if i.op = opElt ∧ eltVector i.sub then [i.slot] else []

/-- Handshakes of an instruction (R269). -/
def AIns.handshakes (i : AIns) : Nat :=
  if i.op = opMac then i.count
  else if i.op = opElt then (if i.sub = 6 ∨ i.sub = 7 then 4 else 1)
  else if i.op = opRowred then 128
  else if i.op = opCmpx then 2
  else if i.op = opIdx then 1
  else if i.op = opDrain then 64
  else 0

/-- A reserved opcode or SUB value, or a CMPX distance that is none of those named (R269, R273). -/
def AIns.reserved (i : AIns) : Bool :=
  !([opLoop, opMac, opElt, opRowred, opCmpx, opIdx, opDrain, opEnd].contains i.op)
    || (i.op == opElt && decide (12 ≤ i.sub)) || (i.op == opRowred && decide (2 ≤ i.sub)) || (i.op == opDrain && decide (3 ≤ i.sub))
    || (i.op == opCmpx && !([1, 2, 4, 8, 16, 32].contains (i.imm % 64)))

/-- Every field that the opcode does not use is 0 (R268, R269). -/
def AIns.unusedZero (i : AIns) : Bool :=
  let none_ := fun (l : List Nat) => l.all (· == 0)
  i.rsv == 0 &&
    (if i.op = opLoop then none_ [i.bank, i.slot, i.sub, i.imm / 256]
     else if i.op = opMac then none_ [i.sub / 2, i.imm / 8]
     else if i.op = opElt then none_ [i.count]
     else if i.op = opRowred then none_ [i.slot, i.count, i.imm]
     else if i.op = opCmpx then none_ [i.slot, i.sub / 2, i.count, i.imm / 64]
     else if i.op = opIdx then none_ [i.bank, i.slot, i.sub / 2, i.count, i.imm]
     else if i.op = opDrain then none_ [i.imm]
     else none_ [i.bank, i.slot, i.sub, i.count, i.imm])

/-- LOOPs whose body holds instruction `i`. -/
def loopsAround (image : List Byte) (i : Nat) : Nat :=
  ((List.range i).filter (fun j => (progIns image j).op == opLoop && decide (i ≤ j + (progIns image j).imm % 256))).length

/-- Why instruction `i` makes an array refuse its image (R273, R616); 0 = it does not. -/
def insBad (image : List Byte) (i : Nat) : Nat :=
  let s := progIns image i
  let slots := leNat (sliceBytes image 5 1)
  if s.reserved then 1
  else if !s.unusedZero then 2
  else if s.op = opLoop ∧ (4 ≤ loopsAround image i ∨ progLen image ≤ i + s.imm % 256) then 3
  else if (s.reads ++ (if s.op = opDrain then [s.slot] else [])).any (fun k => !bit slots k) then 5
  else if s.op = opElt ∧ progInt image ∧ !([0, 8, 9, 10, 11].contains s.sub) then 8
  else 0

/-- Why an array refuses an image (R273, R616): reason and instruction index. The header is checked first. -/
def progBad (image : List Byte) : Option (Nat × Nat) :=
  let n := progLen image
  let a := progA image
  let b := progB image
  let pair := pairOf (fmtWord a) (fmtWord b)
  if !fmtWordOk a || !fmtWordOk b then some (7, 0)
  else if pair.map (·.2) ≠ some (progInt image) then some (6, 0)
  else if n = 0 ∨ 256 < n ∨ (List.range n).all (fun i => (progIns image i).op != opEnd) then some (4, 0)
  else match (List.range n).find? (fun i => insBad image i != 0) with
    | some i => some (insBad image i, i)
    | none => none

/-! ### Job descriptors (R275) -/

/-- An operand slot (R275). -/
structure ASlot where
  addr : Nat
  lva : Bool
  kind : Nat
  stride : Nat
  sstride : Nat
  scale : Nat
  fmt : Nat
  deriving DecidableEq, Repr

/-- Slot `s` of an array job. -/
def FOp.slot (o : FOp) (s : Nat) : ASlot :=
  let b := 128 + 32 * s
  ⟨o.fld b 0 57, o.fld b 57 1 == 1, o.fld b 58 2, o.fld (b + 8) 0 32, o.fld (b + 12) 0 32, o.fld (b + 16) 0 57, o.fld (b + 24) 0 8⟩

def FOp.progAddr (o : FOp) : Nat := o.fld 64 0 52
def FOp.reload (o : FOp) : Bool := o.fld 64 52 1 == 1
def FOp.arrayMask (o : FOp) : Nat := o.fld 72 0 16
def FOp.fanout (o : FOp) : Nat := o.fld 74 0 5
def FOp.splitK (o : FOp) : Bool := o.fld 75 0 2 == 1
def FOp.rowsM (o : FOp) : Nat := o.fld 76 0 32
def FOp.colsN (o : FOp) : Nat := o.fld 80 0 32
def FOp.lenK (o : FOp) : Nat := o.fld 84 0 32

/-- The fields of an array job's descriptor. -/
def jobFields : List (Nat × Nat) :=
  headerFields ++ [(512, 53), (576, 16), (592, 5), (600, 2), (608, 32), (640, 32), (672, 32)]
    ++ (List.range 8).flatMap (fun s => [(1024 + 256 * s, 60), (1088 + 256 * s, 32), (1120 + 256 * s, 32), (1152 + 256 * s, 57), (1216 + 256 * s, 8)])

/-- A descriptor that R275 allows; the format words of all eight slots are judged here, before any access (R237). -/
def FOp.jobOk (o : FOp) : Bool :=
  reservedZero o.desc jobFields && (List.range 8).all (fun s => fmtWordOk (o.slot s).fmt) && o.progAddr % 64 == 0 && decide (1 ≤ o.fanout) && decide (o.fanout ≤ 16)
    && decide (o.fanout ≤ popCount 16 o.arrayMask) && decide (o.fld 75 0 2 ≤ 1) && decide (1 ≤ o.rowsM) && decide (1 ≤ o.colsN)

/-- The tiles of slice `s` (R277). -/
def FOp.sliceTiles (o : FOp) (s : Nat) : List Nat :=
  let t := ceilDiv o.rowsM 64 * ceilDiv o.colsN 64
  if o.splitK then List.range t
  else
    let q := t / o.fanout
    let r := t % o.fanout
    List.range' (s * q + min s r) (q + b2n (decide (s < r)))

/-- The K elements of slice `s`: first, one past the last (R277). -/
def FOp.sliceK (o : FOp) (s : Nat) : Nat × Nat :=
  if o.splitK then
    let q := ceilDiv (ceilDiv o.lenK o.fanout) 32 * 32
    (s * q, min ((s + 1) * q) o.lenK)
  else (0, o.lenK)

/-- A DRAIN's elements as they leave (R269): the slot's format word, INT32 for WRITE_IDX. -/
def drainFmt (i : AIns) (sl : ASlot) : Nat := if i.sub = 2 then 8 else sl.fmt

/-- What a program does with slots: (slot, 0 A, 1 B, 2 vector, 3 DRAIN, 4 DRAIN REDUCE, 5 DRAIN WRITE_IDX). -/
def slotUses (image : List Byte) : List (Nat × Nat) :=
  ((List.range (progLen image)).flatMap (fun k =>
    let i := progIns image k
    if i.op = opMac then [(i.slot, 0), (i.imm % 8, 1)]
    else if i.op = opElt ∧ eltVector i.sub then [(i.slot, 2)]
    else if i.op = opDrain then [(i.slot, 3 + (if i.sub = 1 then 1 else if i.sub = 2 then 2 else 0))]
    else [])).dedup

/-- Side under which an operation keeps a slot's pages: reduce-writes apart. -/
def useSide (u : Nat × Nat) : Nat := 2 * u.1 + b2n (u.2 == 4)

/-- Elements `i0 … i0 + n − 1` of row `row` of a slot as byte runs: the elements, and with MX their scale bytes (R239). -/
def ASlot.runs (sl : ASlot) (fmt row i0 n : Nat) : List (Nat × Nat) :=
  let w := fmtBits (fmt % 16)
  let a := sl.addr + row * sl.stride
  if n = 0 then []
  else (a + i0 * w / 8, ((i0 + n) * w + 7) / 8 - i0 * w / 8)
    :: (if bit fmt 4 then [(sl.scale + row * sl.sstride + i0 / 32, (i0 + n - 1) / 32 - i0 / 32 + 1)] else [])

/-- Every byte run of a use of a slot, over the whole job (R276). -/
def FOp.useRuns (o : FOp) (u : Nat × Nat) : List (Nat × Nat) :=
  let sl := o.slot u.1
  let rows := fun (fmt rows n : Nat) => (List.range rows).flatMap (fun r => sl.runs fmt r 0 n)
  match u.2 with
  | 0 => rows sl.fmt o.rowsM o.lenK
  | 1 => rows sl.fmt o.lenK o.colsN
  | 2 => rows sl.fmt 1 64
  | 5 => rows 8 o.rowsM o.colsN
  | _ => rows sl.fmt o.rowsM o.colsN

/-- Where a slice goes on from program counter `pc`: a LOOP body that ends there runs again or is done. -/
def loopNext : List (Nat × Nat × Nat) → Nat → Nat × List (Nat × Nat × Nat)
  | [], pc => (pc, [])
  | (first, last, left) :: l, pc =>
    if pc < last then (pc, (first, last, left) :: l)
    else if 2 ≤ left then (first, (first, last, left - 1) :: l)
    else loopNext l pc

/-- What LOOP at `pc` does (R269): where the slice goes on, and the body it opens. DESIGN CHOICE (log entry 58): COUNT is 1 to 65,535 (R268), and
no rule says what 0 does: a LOOP with it skips its body, a MAC feeds nothing, a DRAIN writes nothing and moves the cursor. -/
def AIns.loop (i : AIns) (pc : Nat) : Nat × List (Nat × Nat × Nat) :=
  let body := i.imm % 256
  if i.count = 0 ∨ body = 0 then (pc + 1 + body, []) else (pc + 1, [(pc + 1, pc + 1 + body, i.count)])

/-- A DRAIN of tile `t` to an MX slot ends at a whole block, or at the end of its row (R239). -/
def FOp.drainFits (o : FOp) (i : AIns) (t : Nat) : Bool :=
  let n := t % ceilDiv o.colsN 64
  let cols := min (min i.count 64) (o.colsN - 64 * n)
  i.sub == 2 || !bit (o.slot i.slot).fmt 4 || cols % 32 == 0 || 64 * n + cols == o.colsN

/-- The DRAINs of a slice from `pc` on, in the order in which they meet its tiles, all fit; at most `fuel` instructions, a LOOP without a
DRAIN in its body being one. -/
def FOp.drainsFrom (o : FOp) (image : List Byte) : Nat → Nat → List (Nat × Nat × Nat) → List Nat → Bool
  | 0, _, _, _ => true
  | _ + 1, _, _, [] => true
  | f + 1, pc, loops, t :: ts =>
    let i := progIns image pc
    let drains := (List.range (i.imm % 256)).any (fun j => (progIns image (pc + 1 + j)).op == opDrain)
    if 256 ≤ pc ∨ i.op = opEnd then true
    else if i.op = opLoop then
      let l := if drains then i.loop pc else (pc + 1 + i.imm % 256, [])
      let r := loopNext (l.2 ++ loops) l.1
      FOp.drainsFrom o image f r.1 r.2 (t :: ts)
    else
      let r := loopNext loops (pc + 1)
      if i.op = opDrain then o.drainFits i t && FOp.drainsFrom o image f r.1 r.2 ts
      else FOp.drainsFrom o image f r.1 r.2 (t :: ts)

/-- Every DRAIN to an MX slot ends at a whole block, or at the end of its row (R239, R276). -/
def FOp.drainsFit (o : FOp) (image : List Byte) : Bool :=
  (List.range (progLen image)).all (fun k => let i := progIns image k; i.op != opDrain || i.sub == 2 || !bit (o.slot i.slot).fmt 4)
    || (List.range o.fanout).all (fun s => o.drainsFrom image (2 ^ 32 * ((o.sliceTiles s).length + 1)) 0 [] (o.sliceTiles s))

/-- The slots fit the program (R239, R275–R277). -/
def FOp.slotsFit (o : FOp) (image : List Byte) : Bool :=
  let a := progA image
  let b := progB image
  let e := ((pairOf (fmtWord a) (fmtWord b)).map (·.1)).getD 1
  o.drainsFit image && (slotUses image).all (fun u =>
      let sl := o.slot u.1
      sl.kind == (if u.2 ≤ 2 then 0 else 2)
        && (u.2 != 0 || sl.fmt == a) && (u.2 != 1 || sl.fmt == b)
        && !(o.splitK && decide (1 < o.fanout) && u.2 == 3))
    && o.lenK % e == 0 && (!(bit a 4 || bit b 4) || o.lenK % 32 == 0)

/-- The first address of byte runs that lies in page `p`. -/
def firstTouch (rs : List (Nat × Nat)) (p : Nat) : Nat :=
  ((rs.find? (fun r => decide (r.1 / 2 ^ 21 ≤ p) && decide (p ≤ (r.1 + max r.2 1 - 1) / 2 ^ 21))).map (fun r => max r.1 (p * 2 ^ 21))).getD (p * 2 ^ 21)

/-! ### Jobs (R276–R279) -/

def Dev.arr (d : Dev) (a : Nat) : Arr := nth d.fry.arrs a {}

def Dev.setArr (a : Nat) (f : Arr → Arr) (d : Dev) : Dev := { d with fry := { d.fry with arrs := modAt f d.fry.arrs a } }

def Dev.job (d : Dev) (op : Nat) : Option Job := d.fry.jobs.find? (fun j => j.op == op)

def Dev.setJob (op : Nat) (f : Job → Job) (d : Dev) : Dev :=
  { d with fry := { d.fry with jobs := mapFirst (fun j => j.op == op) f d.fry.jobs } }

/-- Jobs with slices to issue ask for power. -/
def Dev.askPairs (d : Dev) : Dev :=
  d.fry.jobs.foldl (fun (d : Dev) j => if j.toIssue.isEmpty then d else d.askPair (((d.fop j.op).map FOp.arrayMask).getD 0)) d

/-- An array job enters RUNNING, or is refused (R261, R275). -/
def Dev.jobGo (o : FOp) (d : Dev) : Dev :=
  if !o.jobOk then d.opEnded o.id sRights
  else match (List.range 8).find? (fun s => (o.slot s).kind % 2 == 1) with
    | some s => (d.capture 0x30 .request sRights 0x10 0x3F s).opEnded o.id sRights
    | none =>
      let j : Job := { op := o.id, toIssue := List.range o.fanout, left := o.fanout }
      Dev.askPairs { d with fry := { d.fry with jobs := d.fry.jobs ++ [j] } }

/-- The slice of an array leaves it: programs that PNT_PROG_INV named meanwhile leave too (R291). -/
def Arr.leave (r : Arr) : Arr :=
  { r with slice := none, pend := [], progs := r.progs.map (fun p => p.bind (fun q => if q.drop then none else some q)) }

/-- A job fails before its next slice starts: its slices that run go on, no other does. -/
def Dev.jobFail (op status : Nat) (d : Dev) : Dev :=
  let mine := fun (a : Arr) => a.slice.any (fun s => s.op == op)
  let drop := fun (a : Arr) => if a.slice.any (fun s => s.op == op && !s.started) then a.leave else a
  let arrs := d.fry.arrs.map drop
  { d with fry := { d.fry with arrs := arrs } }.setJob op
    (fun j => { j with toIssue := [], left := (arrs.filter mine).length, low := min j.low status })

/-- The slice of array `a` starts: its first handshake may follow. -/
def Dev.sliceStart (a : Nat) (d : Dev) : Dev :=
  (d.setArr a (fun r => { r with slice := r.slice.map (fun s => { s with started := true, kpos := s.k0, pc := 0, loops := [], image := [] }) })).count
    (0x40 + a) 7 1

/-- GPAs of a byte run of side `side`, as (GPA, length) pieces. -/
def FOp.gpaRuns (o : FOp) (side : Nat) (lva : Bool) (r : Nat × Nat) : List (Nat × Nat) :=
  (cut256 r.1 r.2).filterMap (fun p => (o.gpaOf side lva p.1).map (fun g => (g, p.2)))

/-- The extents that each SPAN_IN slot of a job touches, slot by slot and ascending: one span access for each (R262); where a span
leaves the local near tier, the slot (R261). -/
def Dev.jobSpans (o : FOp) (uses : List (Nat × Nat)) (d : Dev) : Except Nat (List Nat) :=
  let pieces := fun (u : Nat × Nat) => (o.useRuns u).flatMap (o.gpaRuns (useSide u) (o.slot u.1).lva)
  let spans := uses.filter (fun u => decide (u.2 ≤ 2))
  match spans.find? (fun u => (pieces u).any (fun p => gpaNode p.1 != d.node || !bit p.1 44)) with
  | some u => .error u.1
  | none => .ok ((List.range 8).flatMap (fun s =>
      ((((spans.filter (fun u => u.1 == s)).flatMap pieces).flatMap (fun p => [gpaExt p.1, gpaExt (p.1 + p.2 - 1)])).dedup).mergeSort))

/-- The header a span access is checked with (R262). -/
def Dev.spanHdr (o : FOp) (d : Dev) : Hdr :=
  { dest := d.node, srcNode := d.node, srcEngine := 6, ticket := o.ticket, reqLanding := globalLanding d.node (o.landing.getD 0) }

/-- SPAN_ACCESS (R262): the spans of extents `ks` are admitted in turn; the first refusal stops. -/
def Pkg.spanAccess (o : FOp) (ks : List Nat) (x : Pkg) : Nat × List (Nat × Nat) × Pkg :=
  ks.foldl (fun (a : Nat × List (Nat × Nat) × Pkg) k =>
    if a.1 ≠ sOk then a
    else
      let n := a.2.2.2.node
      let gpa := extGpa n k 0
      let h := a.2.2.2.spanHdr o
      let g := if o.landing.isNone then (sRights, a.2.2.2) else a.2.2.grantCheck n h .spanRead gpa
      if g.1 = sOk then (sOk, a.2.1 ++ [(n, k)], (a.2.2.1, g.2.admitted n h false .spanRead gpa))
      else (g.1, a.2.1, (a.2.2.1, g.2.homeRefused g.1 gpa n))) (sOk, [], x)

/-- Span accesses end: their extents' in-flight counters fall (R119, R262). -/
def Dev.spansEnd (l : List (Nat × Nat)) (d : Dev) : Dev := l.foldl (fun (d : Dev) s => d.inflSub s.1 s.2) d

/-- The arrays that hold a loaded slice of a job, not yet started. -/
def Dev.jobLoaded (op : Nat) (d : Dev) : List Nat :=
  (List.range 16).filter (fun a => match (d.arr a).slice with | some s => s.op == op && !s.loading && !s.started | none => false)

/-- Every translation of a job has its outcome, and it has loaded slices to start. -/
def Dev.jobReady (op : Nat) (d : Dev) : Bool :=
  match d.fop op, d.job op with
  | some o, some j => !j.xlated && !(d.jobLoaded op).isEmpty && o.xlated
  | _, _ => false

/-- What becomes of a job that is ready: it fails with a status, over a slot where one is named, or its spans are admitted. -/
def Dev.jobPlan (o : FOp) (d : Dev) : Except (Nat × Option Nat) (List Nat) :=
  let img := match (d.jobLoaded o.id).head?.bind (fun a => (d.arr a).slice.bind (fun s => nth (d.arr a).progs s.store none)) with
    | some p => p.image
    | none => []
  if o.pages.any OpPage.bad then .error (o.xltLow OpPage.bad, none)
  else match d.jobSpans o (slotUses img) with
    | .error s => .error (sRights, some s)
    | .ok ks => .ok ks

/-- The home has room for the span accesses of a job (R179). -/
def Dev.spansFit (ks : List Nat) (d : Dev) : Bool := ks.isEmpty || (d.homeOn && decide (d.inflSum + ks.length ≤ 16384))

/-- A job that is ready fails, or its spans are admitted and its loaded slices start; it waits while the home has no room for its spans (R179,
R261, R262, R276). -/
def Pkg.jobXlated (op : Nat) (x : Pkg) : Pkg :=
  match x.2.fop op with
  | none => x
  | some o =>
    if !x.2.jobReady op then x
    else match x.2.jobPlan o with
      | .error e => x.dev (fun d => (match e.2 with
          | some s => d.capture 0x30 .request sRights 0x10 0x3F (s + 8)
          | none => d).jobFail op e.1)
      | .ok ks =>
        if !x.2.spansFit ks then x
        else
          let r := x.spanAccess o ks
          let y := r.2.2.dev (Dev.setJob op (fun j => { j with spans := r.2.1, xlated := true }))
          if r.1 = sOk then (x.2.jobLoaded op).foldl (fun (y : Pkg) a => y.dev (Dev.sliceStart a)) y
          else y.dev (Dev.jobFail op r.1)

/-- A job whose spans waited for room at the home goes on. -/
def Pkg.jobStep (x : Pkg) : Option Pkg :=
  x.2.fry.jobs.findSome? (fun j => match x.2.fop j.op with
    | some o => if x.2.jobReady j.op && (match x.2.jobPlan o with | .ok ks => x.2.spansFit ks | .error _ => true) then some (x.jobXlated j.op) else none
    | none => none)

/-- The program of the slice of array `a` is resident: the first such slice of a job has every slot page translated (R276);
after that a slice starts at once. -/
def Pkg.sliceReady (a : Nat) (x : Pkg) : Pkg :=
  match (x.2.arr a).slice with
  | none => x
  | some s =>
    match x.2.fop s.op, x.2.job s.op with
    | some o, some j =>
      let img := ((nth (x.2.arr a).progs s.store none).map (·.image)).getD []
      if !o.slotsFit img then x.dev (Dev.jobFail s.op sRights)
      else if j.xlated then x.dev (Dev.sliceStart a)
      else if !o.pages.isEmpty then x
      else
        let page := fun (x : Pkg) (u : Nat × Nat) =>
          if (o.slot u.1).lva then
            (rowPages (o.useRuns u)).foldl (fun (x : Pkg) p => x.opPage s.op (useSide u) (firstTouch (o.useRuns u) p)
              (if u.2 = 4 then .reduce else if u.2 ≤ 2 then .read else .write) false) x
          else x
        ((slotUses img).foldl page x).jobXlated s.op
    | _, _ => x

/-- The program store that a load goes to: one that holds the key already, an empty one, or the least recently used. -/
def Arr.storeFor (r : Arr) (ctx gpa : Nat) : Nat :=
  let used := fun (i : Nat) => match nth r.progs i none with
    | some p => if p.ctx = ctx ∧ p.gpa = gpa then 0 else p.used + 2
    | none => 1
  let least := (([0, 1, 2, 3].map used).min?).getD 0
  (([0, 1, 2, 3].find? (fun i => used i == least))).getD 0

/-- The store that holds a program, if it is resident. -/
def Arr.resident (r : Arr) (ctx gpa : Nat) : Option Nat :=
  [0, 1, 2, 3].find? (fun i => match nth r.progs i none with | some p => p.ctx == ctx && p.gpa == gpa | none => false)

/-- Array `a` may take a slice (R278, R310, R604). -/
def Dev.arrFree (d : Dev) (a : Nat) : Bool :=
  d.arrOn a && !d.braked && d.awake && (d.arr a).slice.isNone && (d.arr a).heldBy.isNone
    && d.takes (0x40 + a)

/-- Arrays that an operation may work on: of a job, a collective, a dispatch. -/
def FOp.arrays (o : FOp) : Nat :=
  match o.kind with
  | 2 => o.fld 72 0 16
  | 3 => o.fld 66 0 16
  | 5 => o.fld 124 0 16
  | _ => 0

/-- An operation waits for array `a`: a READY job or collective, a job with slices to issue, a dispatch that is to route. -/
def Dev.wantsArray (d : Dev) (a : Nat) (o : FOp) : Bool :=
  bit o.arrays a && !o.retired && match o.state with
    | .ready => o.kind == 2 || o.kind == 3
    | .running => (d.job o.id).any (fun j => !j.toIssue.isEmpty) || d.fry.disp.any (fun r => r.op == o.id && r.stage == 2)
    | _ => false

/-- A group waits for array `a`: some page of it is not scored and not being rebuilt (R333). -/
def Dev.groupWants (d : Dev) (a : Nat) (g : ServeGroup) : Bool :=
  bit (d.rd F.ATTN_CFG_SERVE_MASK) a && (List.range g.q.pages.length).any (fun k =>
    nth g.status k 0 == sOk && !g.scored.contains k && !g.waiting.contains k)

/-- It is the turn of what became ready at `seq` to take array `a`: nothing older waits for that array (R290, R310, R333). -/
def Dev.arrTurn (d : Dev) (seq a : Nat) : Bool :=
  !d.fry.ops.any (fun o => decide (o.seq < seq) && d.wantsArray a o) && !d.fry.serve.any (fun g => decide (g.seq < seq) && d.groupWants a g)

/-- SLICE_ISSUE (R274, R278): the oldest slice of the job that is not issued goes to array `a`. -/
def Pkg.sliceIssue (op a : Nat) (x : Pkg) : Pkg :=
  match x.2.fop op, x.2.job op with
  | some o, some j =>
    match j.toIssue with
    | [] => x
    | num :: rest =>
      if !bit o.arrayMask a ∨ !x.2.arrFree a ∨ !x.2.arrTurn o.seq a ∨ o.retired then x
      else
        let r := x.2.arr a
        let k := o.sliceK num
        let at_ := if o.reload then none else r.resident o.ctx o.progAddr
        let st := at_.getD (r.storeFor o.ctx o.progAddr)
        let s : ArrSlice := { op := op, num := num, store := st, tiles := o.sliceTiles num, k0 := k.1, k1 := k.2, kpos := k.1, loading := at_.isNone }
        let touch := fun (p : Option ArrProg) => if at_.isSome then p.map (fun q => { q with used := r.clock }) else none
        let d := (x.2.setJob op (fun j => { j with toIssue := rest })).setArr a
          (fun r => { r with slice := some s, clock := r.clock + 1, progs := modAt touch r.progs st })
        if at_.isSome then Pkg.sliceReady a (x.1, d)
        else (x.1, d.xferGo o (0x28 + a) (.image a) .read 0 0 (o.parts 0 false o.progAddr (256 - o.progAddr % 256)))
  | _, _ => x

/-- Bytes of an image: header and instructions, a LEN out of range read as the nearest within it. -/
def imageBytes (image : List Byte) : Nat := 64 + 8 * max 1 (min 256 (progLen image))

/-- An image read has ended (R274): the rest of the image follows its first block. -/
def Dev.imageIn (xf : Xfer) (a : Nat) (first : Bool) (d : Dev) : Dev :=
  match (d.arr a).slice, d.fop xf.op with
  | some s, some o =>
    if s.op ≠ xf.op then d
    else
      let img := s.image ++ xf.data
      let set := fun (more : Bool) => d.setArr a (fun r =>
        { r with slice := some { s with image := img, bad := min s.bad xf.low, loading := more } })
      if first ∧ xf.low = 16 ∧ img.length < imageBytes img ∧ !o.retired then
        (set true).xferGo o (0x28 + a) (.imageRest a) .read 0 0 (o.parts 0 false (o.progAddr + img.length) (imageBytes img - img.length))
      else set false
  | _, _ => d

/-- PROGRAM_LOAD (R273, R274): an image that has arrived is checked and becomes resident, or the job is refused. -/
def Pkg.programLoad (a : Nat) (x : Pkg) : Pkg :=
  match (x.2.arr a).slice with
  | none => x
  | some s =>
    match x.2.fop s.op with
    | none => x
    | some o =>
      if s.loading ∨ s.started ∨ (s.image.isEmpty ∧ s.bad = 16) ∨ o.retired then x
      else if s.bad ≠ 16 then x.dev (Dev.jobFail s.op s.bad)
      else match progBad s.image with
        | some (reason, i) => x.dev (fun d => (d.capture (0x40 + a) .request sRights 0x10 0x3F (i % 256 + reason * 256)).jobFail s.op sRights)
        | none =>
          let p : ArrProg := { ctx := o.ctx, gpa := o.progAddr, image := s.image.take (imageBytes s.image), used := (x.2.arr a).clock, drop := s.drop }
          (x.dev (Dev.setArr a (fun r =>
            { r with clock := r.clock + 1, progs := modAt (fun _ => some p) r.progs s.store, slice := some { s with image := [] } }))).sliceReady a

/-- A slice has reached END (R269, R278, R291). -/
def Dev.sliceEnd (a : Nat) (d : Dev) : Dev :=
  match (d.arr a).slice with
  | none => d
  | some s =>
    (d.setArr a (fun r => { r.leave with lastRun := d.tim.tide })).setJob s.op (fun j => { j with left := j.left - 1 })

/-- ARRAY_JOB_COMPLETE (R262, R279, R523). -/
def Dev.jobComplete (op : Nat) (d : Dev) : Dev :=
  match d.fop op, d.job op with
  | some o, some j =>
    let gone := fun (r : Arr) => if r.slice.any (fun s => s.op == op) then { r.leave with lastRun := d.tim.tide } else r
    if (j.left = 0 ∨ o.retired) ∧ !d.opBusy op then
      let d := { d with fry := { d.fry with jobs := d.fry.jobs.filter (fun k => k.op != op), arrs := d.fry.arrs.map gone } }
      (d.spansEnd j.spans).opEnded op (if j.low = 16 then sOk else j.low)
    else d
  | _, _ => d

/-! ### Span reads (R263, R264) -/

/-- `len` bytes of a span from address `a`. -/
def Pkg.spanRead (o : FOp) (side : Nat) (lva : Bool) (a len : Nat) (x : Pkg) : List Byte :=
  (List.range len).flatMap (fun i => match o.gpaOf side lva (a + i) with
    | some g => x.readData x.2.node .spanRead 1 g 1
    | none => [0])

/-- The near-store lines of a byte run. -/
def FOp.runLines (o : FOp) (side : Nat) (lva : Bool) (r : Nat × Nat) : List Nat :=
  (o.gpaRuns side lva r).flatMap (fun p => (linesOf p.1 p.2).map (· % 2 ^ 39))

/-- The bits of element `j` of row `row` of slot `k`, with MX its scale byte; none if a line of it is among `bad`. -/
def Pkg.spanCode (o : FOp) (k row j : Nat) (bad : List Nat) (x : Pkg) : Option (Nat × Option Nat) :=
  let sl := o.slot k
  let w := fmtBits (sl.fmt % 16)
  let rs := sl.runs sl.fmt row j 1
  if rs.any (fun r => (o.runLines (2 * k) sl.lva r).any bad.contains) then none
  else match rs with
    | e :: more => some (bits (leNat (x.spanRead o (2 * k) sl.lva e.1 e.2)) (j * w % 8) w,
        more.head?.map (fun s => leNat (x.spanRead o (2 * k) sl.lva s.1 1)))
    | [] => none

/-- Element `j` of row `row` of slot `k` as its exact value; none if a line of it is among `bad`. -/
def Pkg.spanElem (o : FOp) (k row j : Nat) (bad : List Nat) (x : Pkg) : Option XVal :=
  let f := (o.slot k).fmt % 16
  (x.spanCode o k row j bad).map (fun c => match c.2 with
    | some s => mxValue f s c.1
    | none => elemValue f c.1)

/-! ### Cells -/

/-- Accumulator (r, c) of a bank; one that nothing has written reads 0. -/
def cell (b : List Nat) (r c : Nat) : Nat := nth b (64 * r + c) 0

/-- Cells `i` on, `k` of them, from `f row column draws`: their codes, the events and the draws so far. -/
def cellsGo (f : Nat → Nat → Nat → Conv) : Nat → Nat → Nat → List Nat × List Ev × Nat
  | 0, _, ctr => ([], [], ctr)
  | k + 1, i, ctr =>
    let v := f (i / 64) (i % 64) ctr
    let r := cellsGo f k (i + 1) v.ctr
    (v.code :: r.1, v.evs ++ r.2.1, r.2.2)

/-- Events that array `a` counts, in its page and in FRY0 (R255, R610). -/
def Dev.arrEvs (a : Nat) (l : List Ev) (d : Dev) : Dev := (d.countEvs (0x40 + a) 0 l).countEvs 0x30 12 l

/-- Bank `b` of array `a` becomes what `f` makes of its cells. -/
def Dev.setBank (a b : Nat) (f : Nat → Nat → Nat → Conv) (d : Dev) : Dev :=
  let r := cellsGo f 4096 0 d.freeCtr
  (({ d with freeCtr := r.2.2 }).setArr a (fun (x : Arr) => { x with banks := modAt (fun _ => r.1) x.banks b })).arrEvs a r.2.1

def Dev.bank (d : Dev) (a b : Nat) : List Nat := nth (d.arr a).banks b []

/-- A result with its events. -/
def conv2 (ctr : Nat) (r : Nat × List Ev) : Conv := ⟨r.1, r.2, ctr⟩

/-- A free accumulator value: what the spec calls undefined. -/
def freeCode (ctr : Nat) : Conv := ⟨Config.freeNat ctr % 2 ^ 32, [], ctr + 1⟩

/-- An FP32 product, one rounding. -/
def fp32Mul (acc : Nat) (v : XVal) : Nat × List Ev :=
  let a := fp32.value acc
  match a.mul v with
  | .nan => (fp32.nan, if a.isNaN || v.isNaN then [] else [.nanProduced])
  | .inf neg => (fp32.signed neg (fp32.maxCode + 1), [])
  | p => let r := fp32.convert false false 0 p; (r.code, r.evs)

/-- The larger of two accumulators; NaN if either is one; of two equal ones a free one. -/
def maxCode (int : Bool) (p q ctr : Nat) : Conv :=
  let a := if int then intValue 32 p else fp32.value p
  let b := if int then intValue 32 q else fp32.value q
  if a.isNaN || b.isNaN then ⟨fp32.nan, [], ctr⟩
  else if a.lt b then ⟨q, [], ctr⟩
  else if b.lt a ∨ p = q then ⟨p, [], ctr⟩
  else ⟨if Config.freeNat ctr % 2 = 0 then p else q, [], ctr + 1⟩

/-- Accumulator plus accumulator. -/
def addCode (int : Bool) (p q : Nat) : Nat × List Ev := if int then int32Add p (toSigned 32 q) else fp32Add p (fp32.value q)

/-- The largest FP32 magnitude code whose value is at most num ÷ den, as if the exponent had no upper limit. -/
def floorCode (num den : Nat) : Nat :=
  let up : Int := if den ≤ num then (Nat.log2 (num / den) : Int) else -(Nat.log2 ((den - 1) / num) : Int) - 1
  let q := max up (-126) - 23
  let m := if 0 ≤ q then num / (den * 2 ^ q.toNat) else num * 2 ^ (-q).toNat / den
  m + (q + 149).toNat * 2 ^ 23

/-- A magnitude code beyond the largest finite value is infinity, an overflow. -/
def capCode (neg : Bool) (c ctr : Nat) : Conv :=
  if fp32.maxCode < c then ⟨fp32.signed neg (fp32.maxCode + 1), [.infProduced], ctr⟩ else ⟨fp32.signed neg c, [], ctr⟩

/-- 2^160 × e^(n ÷ 2^160) for 0 ≤ n < 2^160: thirty-nine terms of the series. -/
def expSeries (n : Nat) : Nat :=
  ((List.range 39).foldl (fun (a : Nat × Nat) i => let t := a.2 * n / 2 ^ 160 / (i + 1); (a.1 + t, t)) (2 ^ 160, 2 ^ 160)).1

/-- e^x of an accumulator within 2 units in the last place (R272): which of those values is free. -/
def expCode (p ctr : Nat) : Conv :=
  match fp32.value p with
  | .nan => ⟨fp32.nan, [], ctr⟩
  | .inf neg => ⟨if neg then 0 else fp32.maxCode + 1, [], ctr⟩
  | .fin neg m e =>
    let n := if 0 ≤ e then m * 2 ^ (160 + e.toNat) else m * 2 ^ 160 / 2 ^ (-e).toNat
    if m = 0 then ⟨0x3F800000 - 2 + Config.freeNat ctr % 5, [], ctr + 1⟩
    else
      let whole := n / 2 ^ 160
      let k := min whole 110
      let f := if whole ≤ 110 then expSeries (n % 2 ^ 160) else expSeries 0
      let pow := (List.range k).foldl (fun (a : Nat) _ => a * expSeries (2 ^ 160) / 2 ^ 160) f
      let c := if neg then floorCode (2 ^ 160) pow else floorCode pow (2 ^ 160)
      let lo := c - 1
      capCode false (lo + Config.freeNat ctr % (c + 3 - lo)) (ctr + 1)

/-- 1 ÷ x of an accumulator within 1 unit in the last place (R272): which of those values is free. -/
def rcpCode (p ctr : Nat) : Conv :=
  match fp32.value p with
  | .nan => ⟨fp32.nan, [], ctr⟩
  | .inf neg => ⟨fp32.signed neg 0, [], ctr⟩
  | .fin neg m e =>
    if m = 0 then ⟨fp32.signed neg (fp32.maxCode + 1), [], ctr⟩
    else
      let num := 2 ^ (-e).toNat
      let den := m * 2 ^ e.toNat
      let c := floorCode num den
      let exact := match fp32.value c with
        | .fin _ n f => n * 2 ^ (f + 149).toNat * den == num * 2 ^ 149
        | _ => false
      let lo := if exact then c - 1 else c
      capCode neg (lo + Config.freeNat ctr % (c + 2 - lo)) (ctr + 1)

/-! ### Instructions (R269–R272) -/

/-- Everything an instruction of array `a` needs: its slice, operation, program image and the instruction. -/
structure ArrNow where
  s : ArrSlice
  o : FOp
  image : List Byte
  i : AIns
  deriving DecidableEq, Repr

/-- The instruction that array `a` runs next, if it is `op` and the array may issue a handshake (R278, R523, R574). -/
def Dev.arrNow (a op : Nat) (d : Dev) : Option ArrNow :=
  match (d.arr a).slice with
  | none => none
  | some s =>
    match d.fop s.op, nth (d.arr a).progs s.store none with
    | some o, some p =>
      let i := progIns p.image s.pc
      if s.started ∧ i.op = op ∧ d.arrOn a ∧ !d.braked ∧ !o.retired then some ⟨s, o, p.image, i⟩ else none
    | _, _ => none

/-- The slice of array `a` moves past its instruction; `push` opens a LOOP. -/
def Dev.arrNext (a pc : Nat) (push : List (Nat × Nat × Nat)) (hs : Nat) (d : Dev) : Dev :=
  let step := fun (s : ArrSlice) => let r := loopNext (push ++ s.loops) pc; { s with pc := r.1, loops := r.2 }
  (d.setArr a (fun r => { r with slice := r.slice.map step })).count (0x40 + a) 6 hs

/-- LOOP (R269). -/
def Dev.arrLoop (a : Nat) (d : Dev) : Dev :=
  match d.arrNow a opLoop with
  | none => d
  | some n =>
    let l := n.i.loop n.s.pc
    d.arrNext a l.1 l.2 0

/-- Tile (m, n) of the cursor; none beyond the slice's last tile. -/
def ArrNow.tile (n : ArrNow) : Option (Nat × Nat) :=
  n.s.tiles.head?.map (fun t => (t / ceilDiv n.o.colsN 64, t % ceilDiv n.o.colsN 64))

/-- Lines are read for a job, those of `ms` having taken an error: an uncorrectable one gives the job DATA_ERROR (R164, R264). -/
def Dev.spanMedia (op : Nat) (lines : List Nat) (ms : List LineMedia) (d : Dev) : Dev :=
  let d := d.readLines lines ms
  let hit := d.badLines lines
  let d := hit.foldl (fun (d : Dev) l => d.mediaBad l 0) d
  if hit.isEmpty then d else d.setJob op (fun j => { j with low := min j.low sDataError })

/-- The integer that an exact integer value is. -/
def XVal.toInt : XVal → Int
  | .fin neg m e => signedMant neg (m * 2 ^ e.toNat)
  | _ => 0

/-- The K positions of a MAC, in the groups that are summed exactly before one rounding, and those of a pair of blocks that its
handshakes leave open (R248). The blocks of a slot run along its rows (R239, R275): A's along K, B's along N. DESIGN CHOICE (log entry
58): where both carry MX, the pair of blocks is the 32 K positions of A's block, and each B element stands under the scale of its own
block. -/
def macGroups (kpos count per : Nat) (both : Bool) : List (List Nat) × List Nat :=
  let last := kpos + count * per
  if both then
    let l := (List.range (ceilDiv last 32 - kpos / 32)).map (fun i =>
      let lo := max kpos ((kpos / 32 + i) * 32)
      List.range' lo (min last ((kpos / 32 + i + 1) * 32) - lo))
    if last % 32 = 0 then (l, []) else (l.dropLast, l.getLastD [])
  else ((List.range count).map (fun h => List.range' (kpos + h * per) per), [])

/-- Products added to the exact sum of a cell; none where an element is undefined (R264). -/
def MacSum.add (s : MacSum) (p : Option XVal × Option XVal) : MacSum :=
  match p with
  | (some a, some b) =>
    let v := a.mul b
    { s with val := some (match s.val with | some u => u.add v | none => v), nanIn := s.nanIn || a.isNaN || b.isNaN }
  | _ => { s with lost := true }

/-- The exact sum of a cell added to its FP32 accumulator with one rounding (R248, R249): a NaN that no operand held is counted. -/
def MacSum.close (s : MacSum) (acc ctr : Nat) : Conv :=
  if s.lost then freeCode ctr
  else match s.val with
    | none => ⟨acc, [], ctr⟩
    | some v => if v.isNaN && !s.nanIn && !(fp32.value acc).isNaN then ⟨fp32.nan, [.nanProduced], ctr⟩ else conv2 ctr (fp32Add acc v)

/-- The pair of blocks that array `a` has open for a bank, if any: its number along K, and the sums (R248). -/
def Dev.openPair (a bank : Nat) (d : Dev) : Option (Nat × List MacSum) := ((d.arr a).pend.find? (fun p => p.1 == bank)).map (·.2)

/-- The pairs of blocks that array `a` has open for `banks` are closed: their sums go into the banks (R248). -/
def Dev.macFlush (a : Nat) (banks : List Nat) (d : Dev) : Dev :=
  ((d.arr a).pend.filter (fun p => banks.contains p.1)).foldl (fun (d : Dev) p =>
    let old := d.bank a p.1
    (d.setBank a p.1 (fun r c ctr => (nth p.2.2 (64 * r + c) {}).close (cell old r c) ctr)).setArr a
      (fun r => { r with pend := r.pend.filter (fun q => q.1 != p.1) })) d

/-- Every open pair of blocks is closed: the K position goes back, or the slice ends. -/
def Dev.macFlushAll (a : Nat) (d : Dev) : Dev := d.macFlush a [0, 1, 2, 3]

/-- One group of products added to an accumulator, beside the sum `s` that its pair of blocks has from before (R248–R250). -/
def macStep (int : Bool) (s : MacSum) (acc ctr : Nat) (ps : List (Option XVal × Option XVal)) : Conv :=
  if int then
    if ps.any (fun p => p.1.isNone || p.2.isNone) then freeCode ctr
    else conv2 ctr (int32Add acc ((ps.map (fun p => (p.1.getD .nan).toInt * (p.2.getD .nan).toInt)).sum))
  else (ps.foldl MacSum.add s).close acc ctr

/-- FMAs per cell and handshake of the program's operand pair (R247). -/
def ArrNow.per (n : ArrNow) : Nat := ((pairOf (fmtWord (progA n.image)) (fmtWord (progB n.image))).map (·.1)).getD 1

/-- The near-store lines that a MAC reads: the rows of the A slot and the K rows of the B slot that its tile takes (R271). -/
def ArrNow.macLines (n : ArrNow) : List Nat :=
  let sb := n.i.imm % 8
  let kEnd := min (n.s.kpos + n.i.count * n.per) n.s.k1
  match n.tile with
  | none => []
  | some t =>
    ((List.range (min 64 (n.o.rowsM - 64 * t.1))).flatMap (fun r =>
        ((n.o.slot n.i.slot).runs (progA n.image) (64 * t.1 + r) n.s.kpos (kEnd - n.s.kpos)).flatMap
          (n.o.runLines (2 * n.i.slot) (n.o.slot n.i.slot).lva)))
      ++ (List.range' n.s.kpos (kEnd - n.s.kpos)).flatMap (fun k =>
        ((n.o.slot sb).runs (progB n.image) k (64 * t.2) (min 64 (n.o.colsN - 64 * t.2))).flatMap (n.o.runLines (2 * sb) (n.o.slot sb).lva))

/-- The near-store lines that an ELT reads: those of its vector, if it takes one (R269). -/
def ArrNow.eltLines (n : ArrNow) : List Nat :=
  let sl := n.o.slot n.i.slot
  if eltVector n.i.sub then (sl.runs sl.fmt 0 0 64).flatMap (n.o.runLines (2 * n.i.slot) sl.lva) else []

/-- What a feeder gives row or column `r` of the tile at K position `k`: zeros beyond M, N and the slice's K (R271). -/
def ArrNow.feed (n : ArrNow) {α : Type} (zero v : α) (isA : Bool) (r k : Nat) : α :=
  match n.tile with
  | none => zero
  | some t => if (if isA then decide (64 * t.1 + r < n.o.rowsM) else decide (64 * t.2 + r < n.o.colsN)) && decide (k < n.s.k1) then v else zero

/-- Row and column in their slot of what feeds row (or column) `r` at K position `k`. -/
def ArrNow.feedAt (n : ArrNow) (isA : Bool) (r k : Nat) : Nat × Nat :=
  let t := n.tile.getD (0, 0)
  if isA then (64 * t.1 + r, k) else (k, 64 * t.2 + r)

/-- The 32 bits that a latch of row (or column) `r` holds in the handshake at K position `k` (R256): its elements packed in equal parts, the
first lowest, but four FP6 elements as one 3-byte group in 24 bits (R259). One that is undefined is free, drawn from `ctr` on. -/
def Pkg.latchWord (n : ArrNow) (isA : Bool) (bad : List Nat) (ctr k r : Nat) (x : Pkg) : Nat :=
  let slot := if isA then n.i.slot else n.i.imm % 8
  let code := fun (i : Nat) =>
    let p := n.feedAt isA r (k + i)
    n.feed 0 (match x.spanCode n.o slot p.1 p.2 bad with
      | some c => c.1
      | none => Config.freeNat (ctr + 8 * (r + (if isA then 0 else 64)) + i)) isA r (k + i)
  let w := if fmtBits ((n.o.slot slot).fmt % 16) = 6 then 6 else 32 / n.per
  packBits ((List.range n.per).map (fun i => (w, code i)))

/-- MAC (R247–R250, R257, R269, R271): lines of `near` and `bulk` have taken an error. Every cell adds
the products of its latches, handshake by handshake, and passes its A latch east and its B latch south: after the last one every cell of
a row has held that row's A elements and every cell of a column that column's B elements, and columns and rows 63 have discarded theirs. -/
def Pkg.arrMac (a : Nat) (near bulk : List LineMedia) (x : Pkg) : Pkg :=
  match x.2.arrNow a opMac with
  | none => x
  | some n =>
    let both := (fmtWord (progA n.image)).mx && (fmtWord (progB n.image)).mx
    let per := n.per
    let int := progInt n.image
    let sb := n.i.imm % 8
    let lines := n.macLines
    if lines.any (fun l => !x.2.linePowered l) then x
    else
      let free := x.2.freeCtr
      let x := x.dev (fun d => ({ d with freeCtr := free + 1024 }).spanMedia n.s.op lines (near ++ bulk))
      let bad := x.2.badLines lines
      let zero : Option XVal := some (.fin false 0 0)
      let av := fun (r k : Nat) => let p := n.feedAt true r k; n.feed zero (x.spanElem n.o n.i.slot p.1 p.2 bad) true r k
      let bv := fun (k c : Nat) => let p := n.feedAt false c k; n.feed zero (x.spanElem n.o sb p.1 p.2 bad) false c k
      let groups := macGroups n.s.kpos n.i.count per both
      let from_ := x.2.openPair a n.i.bank
      let goesOn := both && n.s.kpos % 32 != 0 && n.i.sub % 2 == 0 && from_.any (fun p => p.1 == n.s.kpos / 32)
      let d := if goesOn then x.2 else x.2.macFlush a [n.i.bank]
      let old := d.bank a n.i.bank
      let start := fun (r c : Nat) => if goesOn then nth ((from_.map (·.2)).getD []) (64 * r + c) {} else {}
      let pairs := fun (r c : Nat) (g : List Nat) => g.map (fun k => (av r k, bv k c))
      let one := fun (r c ctr : Nat) =>
        let lost := (groups.2 :: groups.1).any (fun g => (pairs r c g).any (fun p => p.1.isNone || p.2.isNone)) || (start r c).lost
        if lost then freeCode ctr
        else
          let s := groups.1.foldl (fun (q : Conv × MacSum) g =>
            let v := macStep int q.2 q.1.code q.1.ctr (pairs r c g)
            ({ v with evs := q.1.evs ++ v.evs }, {})) (⟨if n.i.sub % 2 = 1 then 0 else cell old r c, [], ctr⟩, start r c)
          s.1
      let open_ := fun (i : Nat) =>
        (pairs (i / 64) (i % 64) groups.2).foldl MacSum.add (if groups.1.isEmpty then start (i / 64) (i % 64) else {})
      let last := n.s.kpos + (n.i.count - 1) * per
      let word := fun (isA : Bool) (i : Nat) => x.latchWord n isA bad free last (if isA then i / 64 else i % 64)
      let cells := fun (f : Nat → Nat) => (List.range 4096).map f
      let d := d.setBank a n.i.bank one
      let d := d.setArr a (fun r => { r with
        slice := r.slice.map (fun s => { s with kpos := s.kpos + n.i.count * per })
        pend := if goesOn ∧ n.i.count = 0 then r.pend else r.pend.filter (fun p => p.1 != n.i.bank) ++ (if groups.2.isEmpty then [] else [(n.i.bank, (n.s.kpos + n.i.count * per) / 32, (List.range 4096).map open_)])
        latchA := if n.i.count = 0 then r.latchA else cells (word true)
        latchB := if n.i.count = 0 then r.latchB else cells (word false) })
      (x.1, d.arrNext a (n.s.pc + 1) [] n.i.handshakes)

/-- ELT (R269, R272). -/
def Pkg.arrElt (a : Nat) (near bulk : List LineMedia) (x : Pkg) : Pkg :=
  match x.2.arrNow a opElt with
  | none => x
  | some n =>
    let int := progInt n.image
    let lines := n.eltLines
    if lines.any (fun l => !x.2.linePowered l) then x
    else
      let uses := n.i.bank :: (if 8 ≤ n.i.sub then [n.i.imm % 4] else [])
      let x := x.dev (fun d => (d.spanMedia n.s.op lines (near ++ bulk)).macFlush a uses)
      let bad := x.2.badLines lines
      let old := x.2.bank a n.i.bank
      let other := x.2.bank a (n.i.imm % 4)
      let vec := fun (i : Nat) => x.spanElem n.o n.i.slot 0 i bad
      let imm := fp32.value n.i.imm
      let by_ := fun (f : Nat → XVal → Nat × List Ev) (v : Option XVal) (p ctr : Nat) => match v with
        | some v => conv2 ctr (f p v)
        | none => freeCode ctr
      let one := fun (r c ctr : Nat) =>
        let p := cell old r c
        match n.i.sub with
        | 0 => Conv.mk 0 [] ctr
        | 1 => conv2 ctr (fp32Add p imm)
        | 2 => conv2 ctr (fp32Mul p imm)
        | 3 => by_ fp32Add (vec r) p ctr
        | 4 => by_ fp32Add (vec c) p ctr
        | 5 => by_ fp32Mul (vec r) p ctr
        | 6 => expCode p ctr
        | 7 => rcpCode p ctr
        | 8 => maxCode int p (cell other r c) ctr
        | 9 => conv2 ctr (addCode int p (cell other r c))
        | 10 => conv2 ctr (if int then int32Add p (-(toSigned 32 (cell other r c))) else fp32Add p (fp32.value (cell other r c)).negate)
        | _ => Conv.mk (cell other r c) [] ctr
      let d := x.2.setBank a n.i.bank one
      (x.1, d.arrNext a (n.s.pc + 1) [] n.i.handshakes)

/-- Neighbours of a list joined by `f`: one level of a tree. -/
def treeLevel (f : Conv → Conv → Conv) : List Conv → List Conv
  | p :: q :: l => f p q :: treeLevel f l
  | l => l

/-- A row's sum in a fixed tree of six levels, or its maximum (R272). -/
def rowReduce (int max : Bool) (row : List Nat) (ctr : Nat) : Conv :=
  let join := fun (p q : Conv) =>
    if max then let v := maxCode int p.code q.code (p.ctr + q.ctr); { v with evs := p.evs ++ q.evs ++ v.evs }
    else let v := addCode int p.code q.code; ⟨v.1, p.evs ++ q.evs ++ v.2, 0⟩
  if max then
    match row with
    | [] => ⟨0, [], ctr⟩
    | p :: l => l.foldl (fun (q : Conv) v => join q ⟨v, [], 0⟩) ⟨p, [], ctr⟩
  else
    let leaves := (List.finRange 64).map (fun i => Conv.mk (nth row (Config.rowLeaf i) 0) [] 0)
    let top := (List.range 6).foldl (fun (l : List Conv) _ => treeLevel join l) leaves
    { (top.headD ⟨0, [], 0⟩) with ctr := ctr }

/-- ROWRED (R269, R272): the events of a row are counted once. -/
def Dev.arrRowred (a : Nat) (d : Dev) : Dev :=
  match d.arrNow a opRowred with
  | none => d
  | some n =>
    let d := d.macFlush a [n.i.bank]
    let old := d.bank a n.i.bank
    let rows := (List.range 64).foldl (fun (q : List Conv × Nat) r =>
      let v := rowReduce (progInt n.image) (n.i.sub == 1) ((List.range 64).map (fun c => cell old r c)) q.2
      (q.1 ++ [v], v.ctr)) ([], d.freeCtr)
    let d := { d with freeCtr := rows.2 }.setBank a n.i.bank (fun r _ ctr => ⟨(nth rows.1 r ⟨0, [], 0⟩).code, [], ctr⟩)
    (d.arrEvs a (rows.1.flatMap (·.evs))).arrNext a (n.s.pc + 1) [] n.i.handshakes

/-- Whether columns of a compared pair exchange: the lower column is to hold the larger value, or the smaller; where the
values are equal or one is NaN it is free. -/
def cmpxSwaps (int smaller : Bool) (p q ctr : Nat) : Bool :=
  let a := if int then intValue 32 p else fp32.value p
  let b := if int then intValue 32 q else fp32.value q
  if a.lt b then !smaller else if b.lt a then smaller else Config.freeNat ctr % 2 == 1

/-- CMPX (R269). -/
def Dev.arrCmpx (a : Nat) (d : Dev) : Dev :=
  match d.arrNow a opCmpx with
  | none => d
  | some n =>
    let d := d.macFlush a [n.i.bank]
    let old := d.bank a n.i.bank
    let ix := (d.arr a).index
    let dist := n.i.imm % 64
    let from_ := fun (r c : Nat) =>
      let lo := min c (Nat.xor c dist)
      let hi := max c (Nat.xor c dist)
      if cmpxSwaps (progInt n.image) (n.i.sub % 2 == 1) (cell old r lo) (cell old r hi) (d.freeCtr + 64 * r + lo) then Nat.xor c dist else c
    let d' := { d with freeCtr := d.freeCtr + 4096 }
    let d' := d'.setBank a n.i.bank (fun r c ctr => ⟨cell old r (from_ r c), [], ctr⟩)
    let index := (cellsGo (fun r c ctr => ⟨cell ix r (from_ r c), [], ctr⟩) 4096 0 0).1
    (d'.setArr a (fun r => { r with index := index })).arrNext a (n.s.pc + 1) [] n.i.handshakes

/-- IDX (R269). -/
def Dev.arrIdx (a : Nat) (d : Dev) : Dev :=
  match d.arrNow a opIdx with
  | none => d
  | some n =>
    let index := (cellsGo (fun r c ctr => ⟨if n.i.sub % 2 = 0 then c else r, [], ctr⟩) 4096 0 0).1
    (d.setArr a (fun r => { r with index := index })).arrNext a (n.s.pc + 1) [] n.i.handshakes

/-- Elements packed into whole bytes; bits of the last byte beyond them are free. -/
def packRow (w : Nat) (l : List Nat) (ctr : Nat) : List Byte × Nat :=
  let pad := (8 - l.length * w % 8) % 8
  (natLE (ceilDiv (l.length * w) 8) (packBits (l.map (fun v => (w, v)) ++ [(pad, Config.freeNat ctr)])), if pad = 0 then ctr else ctr + 1)

/-- Values converted into a format word, as the bytes of the elements and of the scales (R239–R241). -/
def encodeRow (src : Nat) (f : FmtWord) (codes : List Nat) (ctr : Nat) : List Byte × List Byte × List Ev × Nat :=
  if f.mx then
    let blocks := (List.range (ceilDiv codes.length 32)).foldl (fun (q : List Nat × List Byte × List Ev × Nat) i =>
      let b := mxEncode f q.2.2.2 (((codes.drop (32 * i)).take 32).map (elemValue src))
      (q.1 ++ b.elems, q.2.1 ++ [BitVec.ofNat 8 b.scale], q.2.2.1 ++ b.evs, b.ctr)) ([], [], [], ctr)
    let p := packRow (fmtBits f.fmt) blocks.1 blocks.2.2.2
    (p.1, blocks.2.1, blocks.2.2.1, p.2)
  else
    let r := codes.foldl (fun (q : List Nat × List Ev × Nat) v =>
      let c := convertElem ⟨src, false, false, false⟩ f q.2.2 v
      (q.1 ++ [c.code], q.2.1 ++ c.evs, c.ctr)) ([], [], ctr)
    let p := packRow (fmtBits f.fmt) r.1 r.2.2
    (p.1, [], r.2.1, p.2)

/-- The write of a drained row, or of its scale bytes (R265): one, and one more only where the row enters another 2 MiB page. -/
def FOp.rowWrite (o : FOp) (side : Nat) (lva : Bool) (a : Nat) (v : List Byte) : List XPart :=
  let k := min v.length (2 ^ 21 - a % 2 ^ 21)
  [(a, v.take k), (a + k, v.drop k)].filterMap (fun p =>
    if p.2.isEmpty then none
    else (o.gpaOf side lva p.1).map (fun g => { side := side, addr := p.1, gpa := g, len := p.2.length, data := p.2 }))

/-- DRAIN (R265, R269, R271): each row is one write, with MX followed by its scale bytes. -/
def Dev.arrDrain (a : Nat) (d : Dev) : Dev :=
  match d.arrNow a opDrain with
  | none => d
  | some n =>
    let d := d.macFlushAll a
    let sl := n.o.slot n.i.slot
    let fw := drainFmt n.i sl
    let f := fmtWord fw
    let side := useSide (n.i.slot, if n.i.sub = 1 then 4 else 3)
    let src := if n.i.sub = 2 ∨ progInt n.image then 8 else 0
    let vals := if n.i.sub = 2 then (d.arr a).index else d.bank a n.i.bank
    let t := n.tile.getD (0, 0)
    let rows := if n.tile.isNone then 0 else min 64 (n.o.rowsM - 64 * t.1)
    let cols := min (min n.i.count 64) (n.o.colsN - 64 * t.2)
    let out := (List.range rows).foldl (fun (q : List XPart × List Ev × Nat) r =>
      let e := encodeRow src f ((List.range cols).map (fun c => cell vals r c)) q.2.2
      let m := 64 * t.1 + r
      let ps := n.o.rowWrite side sl.lva (sl.addr + m * sl.stride + 64 * t.2 * fmtBits f.fmt / 8) e.1
        ++ n.o.rowWrite side sl.lva (sl.scale + m * sl.sstride + 2 * t.2) e.2.1
      (q.1 ++ ps, q.2.1 ++ e.2.2.1, e.2.2.2)) ([], [], d.freeCtr)
    let d := ({ d with freeCtr := out.2.2 }).arrEvs a out.2.1
    let d := d.setArr a (fun r => { r with slice := r.slice.map (fun s => { s with tiles := s.tiles.drop 1, kpos := s.k0 }) })
    let d := if out.1.isEmpty then d else d.xferGo n.o (0x28 + a) (.drain a) (if n.i.sub = 1 then .reduce else .write) fw fw out.1
    d.arrNext a (n.s.pc + 1) [] n.i.handshakes

/-- END (R269). -/
def Dev.arrEnd (a : Nat) (d : Dev) : Dev := if (d.arrNow a opEnd).isSome then (d.macFlushAll a).sliceEnd a else d

/-! ### Program stores and pairs (R291, R559) -/

/-- GO of PNT_PROG_INV (R291): programs of the context, or all, leave; one in use leaves when its slice ends. -/
def Dev.progInv (a : Nat) (d : Dev) : Dev :=
  let all := d.rdp F.PNT_PROG_INV_ALL (0x40 + a) == 1
  let ctx := d.rdp F.PNT_PROG_INV_CONTEXT (0x40 + a)
  let inUse := fun (r : Arr) (i : Nat) => r.slice.any (fun s => s.store == i)
  let gone := fun (r : Arr) (p : Option ArrProg × Nat) => p.1.bind (fun q =>
    if all ∨ q.ctx = ctx then (if inUse r p.2 then some { q with drop := true } else none) else some q)
  let mark := fun (s : ArrSlice) => { s with drop := s.drop || (!s.started && (all || (d.fop s.op).any (fun o => o.ctx == ctx))) }
  d.setArr a (fun r => { r with progs := r.progs.zipIdx.map (gone r), slice := r.slice.map mark })

/-- Arrays `2k` and `2k + 1` run a slice or work for a unit. -/
def Dev.pairBusy (d : Dev) (k : Nat) : Bool :=
  [2 * k, 2 * k + 1].any (fun a => (d.arr a).slice.isSome || (d.arr a).heldBy.isSome)

/-- ARRAY_PAIR_ON (R559): a pair that is asked for, and that PWR_DOM_REQ and the cap allow, turns on. -/
def Dev.pairOn (k : Nat) (d : Dev) : Dev :=
  if bit d.fry.pairReq k ∧ bit (d.rd F.PWR_DOM_REQ_REQ) (12 + k) ∧ !d.pwr.arraysHeld ∧ d.awake ∧ !d.domOn (12 + k) then
    let fresh := fun (d : Dev) (a : Nat) => d.setArr a (fun _ => { lastRun := d.tim.tide })
    let d := { d with fry := { d.fry with pairReq := putBit d.fry.pairReq k false } }
    ((fresh (fresh d (2 * k)) (2 * k + 1)).setDom (12 + k) true).wr F.PWR_STAT_STATE 0
  else d

/-- The registers and counters of page `p` read as after reset, but for BLK_OWNER, which a page without power still
answers with (R476, R557, R610). -/
def Dev.pageReset (p : Nat) (d : Dev) : Dev :=
  { d with regs := tdrop (fun a => a / 0x1000 == p && a % 0x1000 != 8) d.regs, cnts := tdrop (fun c => c / 1024 == p) d.cnts }

/-- ARRAY_PAIR_IDLE_OFF (R559, R560): the last pair off is IDLE. -/
def Dev.pairOff (k : Nat) (d : Dev) : Dev :=
  let t := d.rd F.PWR_CFG_ARR_IDLE_US
  let idle := t ≠ 0 ∧ [2 * k, 2 * k + 1].all (fun a => decide ((d.arr a).lastRun + us t ≤ d.tim.tide)) = true
  if d.domOn (12 + k) ∧ !d.pairBusy k ∧ (idle ∨ bit d.pwr.idleReq k ∨ d.pwr.arraysHeld) then
    let d := (d.pageReset (0x40 + 2 * k)).pageReset (0x41 + 2 * k)
    let d := (d.setArr (2 * k) (fun _ => {})).setArr (2 * k + 1) (fun _ => {})
    let d := { d with pwr := { d.pwr with idleReq := putBit d.pwr.idleReq k false } }
    let d := d.setDom (12 + k) false
    (if bits (d.rd F.PWR_DOM_STAT_ON) 12 8 = 0 ∧ d.pwrState = 0 then d.wr F.PWR_STAT_STATE 1 else d).askPairs
  else d

/-! ### The commands -/

/-- LOOP (R269). -/
def execArrLoop (a : Fin 16) (s : State) : Host.Outcome State Fault Refusal := onDev (Dev.ifRuns (Dev.arrLoop a)) s

/-- MAC (R269). -/
def execArrMac (a : Fin 16) (near bulk : List LineMedia) (s : State) : Host.Outcome State Fault Refusal := onPkg (Pkg.arrMac a near bulk) s

/-- ELT (R269). -/
def execArrElt (a : Fin 16) (near bulk : List LineMedia) (s : State) : Host.Outcome State Fault Refusal := onPkg (Pkg.arrElt a near bulk) s

/-- ROWRED (R269). -/
def execArrRowred (a : Fin 16) (s : State) : Host.Outcome State Fault Refusal := onDev (Dev.ifRuns (Dev.arrRowred a)) s

/-- CMPX (R269). -/
def execArrCmpx (a : Fin 16) (s : State) : Host.Outcome State Fault Refusal := onDev (Dev.ifRuns (Dev.arrCmpx a)) s

/-- IDX (R269). -/
def execArrIdx (a : Fin 16) (s : State) : Host.Outcome State Fault Refusal := onDev (Dev.ifRuns (Dev.arrIdx a)) s

/-- END (R269). -/
def execEndSlice (a : Fin 16) (s : State) : Host.Outcome State Fault Refusal := onDev (Dev.ifRuns (Dev.arrEnd a)) s

/-- ARRAY_JOB_COMPLETE (R279). -/
def execArrayJobComplete (op : Nat) (s : State) : Host.Outcome State Fault Refusal := onDev (Dev.ifRuns (Dev.jobComplete op)) s

/-- ARRAY_PAIR_ON (R559). -/
def execArrayPairOn (k : Fin 8) (s : State) : Host.Outcome State Fault Refusal := onDev (Dev.ifRuns (Dev.pairOn k)) s

/-- ARRAY_PAIR_IDLE_OFF (R559). -/
def execArrayPairIdleOff (k : Fin 8) (s : State) : Host.Outcome State Fault Refusal := onDev (Dev.ifRuns (Dev.pairOff k)) s

end Sys2Proof.Machine
end

