-- ==== Sys2Proof/Machine/Ferry.lean ====
section
/-!
DEFINITION. Ferry engines (R347, R348, R358–R369): descriptors, tiles, conversion, migration, stops and resume.
-/
namespace Sys2Proof.Machine

/-! ### Descriptors (R358, R365) -/

/-- One side of a move: its first element, whether its addresses are landing virtual, its scale array, format word, bits of
one element and strides. -/
structure FSide where
  addr : Nat
  lva : Bool
  scale : Nat
  fmt : Nat
  unit : Nat
  strides : List Nat
  deriving DecidableEq, Repr

def FOp.reduces (o : FOp) : Bool := o.fld 98 0 1 == 1
def FOp.migrates (o : FOp) : Bool := o.fld 98 1 1 == 1
def FOp.resumes (o : FOp) : Bool := o.fld 98 2 1 == 1
def FOp.fences (o : FOp) : Bool := o.fld 98 3 1 == 1
def FOp.counts (o : FOp) : List Nat := (List.range 4).map (fun i => o.fld (104 + 4 * i) 0 32)
def FOp.tiles (o : FOp) : List Nat := (List.range 4).map (fun i => o.fld (168 + 4 * i) 0 32)
def FOp.look (o : FOp) : Nat := o.fld 99 0 7
def FOp.resumeTile (o : FOp) : Nat := o.fld 184 0 32

/-- Tiles of the move. -/
def FOp.tileNum (o : FOp) : Nat := tileCount o.counts o.tiles

/-- The source (side 0) or destination (side 1) of a ferry descriptor. -/
def FOp.side (o : FOp) (s : Nat) : FSide :=
  let b := 64 + 8 * s
  let fmt := o.fld (96 + s) 0 8
  { addr := o.fld b 0 57, lva := o.fld b 57 1 == 1, scale := o.fld (80 + 8 * s) 0 57, fmt := fmt
    unit := if o.migrates then 512 else fmtBits (fmt % 16)
    strides := (List.range 3).map (fun i => o.fld (120 + 24 * s + 8 * i) 0 48) }

/-- The fields of a ferry descriptor. -/
def ferryFields : List (Nat × Nat) :=
  headerFields ++ [(512, 58), (576, 58), (640, 57), (704, 57), (768, 8), (776, 8), (784, 4), (792, 7), (832, 128)]
    ++ (List.range 6).map (fun i => (960 + 64 * i, 48)) ++ [(1344, 128), (1472, 32), (1536, 64), (1600, 64)]

/-- A descriptor that the rules of R360–R362 and R365 allow. -/
def FOp.ferryOk (o : FOp) : Bool :=
  let s := o.side 0
  let t := o.side 1
  let c := o.counts
  let n := o.tiles
  let mx := bit s.fmt 4 || bit t.fmt 4
  reservedZero o.desc ferryFields && decide (o.look ≤ 64) && fmtWordOk s.fmt && fmtWordOk t.fmt
    && (List.zipWith (fun c t => decide (1 ≤ t) && decide (t ≤ c)) c n).all (fun b => b)
    && decide (o.tileNum < 2 ^ 32)
    && (!mx || nth n 0 0 % 32 == 0 || nth n 0 0 == nth c 0 0)
    && (!o.reduces || (!mx && mfmtOk (t.fmt % 16) && cfmtOk (s.fmt % 16) && fmtIsFloat (t.fmt % 16) == fmtIsFloat (s.fmt % 16)))
    && (!o.migrates || (!s.lva && !t.lva && s.addr % 64 == 0 && t.addr % 64 == 0 && (c.drop 1).all (· == 1) && (n.drop 1).all (· == 1)
        && s.fmt == 0 && t.fmt == 0 && !o.reduces))
    && (!o.resumes || decide (o.resumeTile < o.tileNum))

/-! ### Units of a tile (R359, R360, R114) -/

/-- Elements that are moved together: an MX block, or the elements of one packing group, in row (i1, i2, i3). A byte in which two tiles
meet is written whole by each (log entry 52): its unit takes the elements of the group that lie in the row, of either tile. -/
structure FUnit where
  row : List Nat
  first : Nat
  count : Nat
  deriving DecidableEq, Repr

/-- Elements of a unit. -/
def FOp.group (o : FOp) : Nat :=
  let s := o.side 0
  let t := o.side 1
  if o.migrates then 1
  else if bit s.fmt 4 || bit t.fmt 4 then 32
  else if s.unit = 6 ∨ t.unit = 6 then 4
  else if s.unit = 4 ∨ t.unit = 4 then 2
  else 1

/-- The units of a box in element order. -/
def FOp.unitsOf (o : FOp) (box : List (Nat × Nat)) : List (List FUnit) :=
  match box with
  | [] => []
  | (lo, n) :: rest =>
    let g := o.group
    let whole := decide ((o.side 1).unit < 8)
    let first := if whole then lo / g * g else lo
    let last := if whole then min ((lo + n + g - 1) / g * g) (nth o.counts 0 0) else lo + n
    (rowIndexes rest).map (fun r =>
      (List.range ((lo + n - 1) / g - lo / g + 1)).map (fun i =>
        let a := max first ((lo / g + i) * g)
        ⟨r, a, min last ((lo / g + i + 1) * g) - a⟩))

/-- The rows of tile `t`, each its units. -/
def FOp.tileRows (o : FOp) (t : Nat) : List (List FUnit) := o.unitsOf (tileBox o.counts o.tiles t)

/-- First byte and bytes of a unit's elements on a side. -/
def FSide.elems (s : FSide) (u : FUnit) : Nat × Nat :=
  let a := s.addr + (List.zipWith (· * ·) u.row s.strides).sum
  (a + u.first * s.unit / 8, ((u.first + u.count) * s.unit + 7) / 8 - u.first * s.unit / 8)

/-- The scale byte of a unit on an MX side (R360). -/
def FSide.scaleByte (s : FSide) (counts : List Nat) (u : FUnit) : List (Nat × Nat) :=
  if bit s.fmt 4 then
    let row := (nth u.row 2 0 * nth counts 2 0 + nth u.row 1 0) * nth counts 1 0 + nth u.row 0 0
    [(s.scale + row * ceilDiv (nth counts 0 0) 32 + u.first / 32, 1)]
  else []

/-- The byte runs of a unit on a side. -/
def FOp.unitRuns (o : FOp) (s : Nat) (u : FUnit) : List (Nat × Nat) := (o.side s).elems u :: (o.side s).scaleByte o.counts u

/-- Pages of a unit on a side; none for a side given by GPA. -/
def FOp.unitPages (o : FOp) (s : Nat) (u : FUnit) : List Nat := if (o.side s).lva then rowPages (o.unitRuns s u) else []

/-- Footprint of tile `t` on a side: its pages, ascending (R114). -/
def FOp.footprint (o : FOp) (s t : Nat) : List Nat := (((o.tileRows t).flatten.flatMap (o.unitPages s)).dedup).mergeSort

/-- Page mask of the pages that `p` accepts (R114). -/
def pageMask (pages : List Nat) (p : Nat → Bool) : Nat :=
  (pages.zipIdx.filter (fun q => p q.1)).foldl (fun m q => putBit m (q.2 % 64) true) 0

/-- Side number under which an operation keeps tile `t`'s pages and accesses. -/
def tileSide (t s : Nat) : Nat := 2 * t + s

/-- Units of tile `t` that a run processes: all of them, or where it resumes, those with a page in a resume mask (R117). -/
def FOp.inRun (o : FOp) (t : Nat) (u : FUnit) : Bool :=
  !o.resumes || t != o.resumeTile || [0, 1].any (fun s =>
    let fp := o.footprint s t
    (o.unitPages s u).any (fun p => bit (o.fld (192 + 8 * s) 0 64) (fp.findIdx (· == p))))

/-- Every page of a unit translates. -/
def FOp.unitHits (o : FOp) (t : Nat) (u : FUnit) : Bool :=
  [0, 1].all (fun s => (o.unitPages s u).all (fun p => (o.gpaOf (tileSide t s) true (p * 2 ^ 21)).isSome))

/-- What is issued of a unit (R115): all of it, or where a page of it faults, the runs of its elements all of whose own pages translate.
DESIGN CHOICE (log entry 52): a block of which elements are missing is encoded out of the others, as a short one is. -/
def FOp.unitParts (o : FOp) (t : Nat) (u : FUnit) : List FUnit :=
  if o.unitHits t u then [u]
  else (((List.range u.count).map (fun i => FUnit.mk u.row (u.first + i) 1)).filter (o.unitHits t)).foldl (fun (l : List FUnit) e =>
    match l.getLast? with
    | some v => if v.first + v.count = e.first then l.dropLast ++ [{ v with count := v.count + 1 }] else l ++ [e]
    | none => [e]) []

/-- The rows of tile `t` with the units, or parts of units, that are issued (R115). -/
def FOp.issued (o : FOp) (t : Nat) : List (List FUnit) :=
  (o.tileRows t).map (fun r => (r.filter (o.inRun t)).flatMap (o.unitParts t))

/-! ### Runs (R359) -/

/-- A run of a side: its address, the bytes of the side it covers, the data it carries. -/
abbrev Chunk := Nat × Nat × List Byte

/-- Chunks after `c` joined to it where they go on within one 256-byte block (R359) and carry at most 256 bytes (R253). -/
def joinFrom (c : Chunk) : List Chunk → List Chunk
  | [] => [c]
  | d :: l =>
    if c.1 + c.2.1 = d.1 ∧ c.1 / 256 = d.1 / 256 ∧ c.2.2.length + d.2.2.length ≤ 256 then joinFrom (c.1, c.2.1 + d.2.1, c.2.2 ++ d.2.2) l
    else c :: joinFrom d l

/-- Consecutive chunks joined. -/
def joinChunks : List Chunk → List Chunk
  | [] => []
  | c :: l => joinFrom c l

/-- The bytes of runs one by one. -/
def byteChunks (rs : List (Nat × Nat)) : List Chunk := rs.flatMap (fun r => (List.range r.2).map (fun i => (r.1 + i, 1, [])))

/-- Chunks as accesses of side `side`; `len` gives an access its length. -/
def FOp.chunkParts (o : FOp) (side : Nat) (lva : Bool) (len : Chunk → Nat) (cs : List Chunk) : List XPart :=
  (joinChunks cs).filterMap (fun c => (o.gpaOf side lva c.1).map (fun g => { side := side, addr := c.1, gpa := g, len := len c, data := c.2.2 }))

/-- The reads of tile `t`: the elements of each row, then its scale bytes. -/
def FOp.tileReads (o : FOp) (t : Nat) : List XPart :=
  let s := o.side 0
  (o.issued t).flatMap (fun r =>
    o.chunkParts (tileSide t 0) s.lva (·.2.1) (byteChunks (r.map s.elems))
      ++ o.chunkParts (tileSide t 0) s.lva (·.2.1) (byteChunks (r.flatMap (s.scaleByte o.counts))))

/-! ### Conversion (R241, R242, R253, R361) -/

/-- The byte at an address of a finished read, if it was read with OK. -/
def byteAt (ps : List XPart) (a : Nat) : Option Byte :=
  (ps.find? (fun p => p.status == some sOk && decide (p.addr ≤ a) && decide (a < p.addr + p.len))).bind (fun p => p.data[a - p.addr]?)

/-- The bytes of a run of a finished read. -/
def runAt (ps : List XPart) (r : Nat × Nat) : Option (List Byte) := (List.range r.2).mapM (fun i => byteAt ps (r.1 + i))

/-- Codes packed from bit `lead` on; bits of the first and last byte beyond them are free. -/
def packAt (lead w : Nat) (l : List Nat) (ctr : Nat) : List Byte × Nat :=
  let n := lead + l.length * w
  let pad := (8 - n % 8) % 8
  (natLE (ceilDiv n 8) (packBits ((lead, Config.freeNat ctr) :: l.map (fun v => (w, v)) ++ [(pad, Config.freeNat (ctr + 1))])), ctr + 2)

/-- A unit converted: its destination bytes, its scale byte with MX, the events, the draws so far. -/
structure FConv where
  bytes : List Byte
  scale : List Byte
  evs : List Ev
  ctr : Nat
  deriving DecidableEq, Repr

/-- The elements of a unit converted from side to side (R241, R242). -/
def FOp.convert (o : FOp) (u : FUnit) (src : List Byte) (scale : Nat) (ctr : Nat) : FConv :=
  let s := o.side 0
  let t := o.side 1
  let sf := fmtWord s.fmt
  let tf := fmtWord t.fmt
  let codes := (List.range u.count).map (fun i => bits (leNat src) (u.first * s.unit % 8 + i * s.unit) s.unit)
  let value := fun c => if sf.mx then mxValue sf.fmt scale c else elemValue sf.fmt c
  let pack := fun (l : List Nat) (sc : List Byte) (evs : List Ev) (ctr : Nat) =>
    let p := packAt (u.first * t.unit % 8) t.unit l ctr
    FConv.mk p.1 sc evs p.2
  if sf.fmt = tf.fmt ∧ sf.mx = tf.mx then pack codes (if tf.mx then [BitVec.ofNat 8 scale] else []) [] ctr
  else if tf.mx then
    let b := mxEncode tf ctr (codes.map value)
    pack b.elems [BitVec.ofNat 8 b.scale] b.evs b.ctr
  else
    let r := codes.foldl (fun (q : List Nat × List Ev × Nat) c =>
      let v := convertTo tf q.2.2 (value c)
      (q.1 ++ [v.code], q.2.1 ++ v.evs, v.ctr)) ([], [], ctr)
    pack r.1 [] r.2.1 r.2.2

/-- GPA of a source byte, through the translations that the move has: those of tiles in hand where the side is an LVA. -/
def FOp.srcGpa (o : FOp) (a : Nat) : Option Nat :=
  if (o.side 0).lva then
    o.pages.findSome? (fun p => match p with
      | ⟨s, q, some (.hit g _)⟩ => if s % 2 = 0 ∧ q = a / 2 ^ 21 then some (gpaIn g a) else none
      | _ => none)
  else some (a % 2 ^ 52)

/-- A byte of the destination, at address `a` and with GPA `g`, that the source names too: what it holds afterwards is undefined (R365).
Addresses of one space are compared as such; a landing virtual address with another side by their GPAs, as far as the source is translated
(log entry 52). -/
def FOp.overlaps (o : FOp) (a : Nat) (g : Option Nat) : Bool :=
  let within := fun (r : Nat × Nat) =>
    ((o.side 0).lva == (o.side 1).lva && decide (r.1 ≤ a) && decide (a < r.1 + r.2))
      || (((o.side 0).lva || (o.side 1).lva) && g.isSome && (rowPages [r]).any (fun p =>
        let lo := max r.1 (p * 2 ^ 21)
        let hi := min (r.1 + r.2) ((p + 1) * 2 ^ 21)
        (o.srcGpa lo).any (fun s => g.any (fun g => decide (s ≤ g) && decide (g < s + (hi - lo))))))
  (o.unitsOf (o.counts.map (fun c => (0, c)))).flatten.any (fun u => (o.unitRuns 0 u).any within)

/-- Bytes written at `a` in tile `t`, free where the sides overlap. -/
def FOp.outBytes (o : FOp) (t a : Nat) (v : List Byte) (ctr : Nat) : List Chunk × Nat :=
  let free := fun (b : Byte × Nat) => o.overlaps (a + b.2) (o.gpaOf (tileSide t 1) (o.side 1).lva (a + b.2))
  (v.zipIdx.map (fun b => (a + b.2, 1, [if free b then BitVec.ofNat 8 (Config.freeNat (ctr + b.2)) else b.1])), ctr + v.length)

/-- What a reduce-write or a migration line of destination bytes [a, a + len) carries: free where the sides overlap. -/
def FOp.carried (o : FOp) (t a len : Nat) (v : List Byte) (ctr : Nat) : Chunk × Nat :=
  if (List.range len).any (fun i => o.overlaps (a + i) (o.gpaOf (tileSide t 1) (o.side 1).lva (a + i))) then
    ((a, len, (List.range v.length).map (fun i => BitVec.ofNat 8 (Config.freeNat (ctr + i)))), ctr + v.length)
  else ((a, len, v), ctr)

/-- What a row of tile `n` writes: chunks of elements and of scale bytes, events, draws so far. A unit whose read failed writes nothing. -/
def FOp.rowWrites (o : FOp) (n : Nat) (ps : List XPart) (r : List FUnit) (ctr : Nat) : List Chunk × List Chunk × List Ev × Nat :=
  let s := o.side 0
  let t := o.side 1
  r.foldl (fun (q : List Chunk × List Chunk × List Ev × Nat) u =>
    match runAt ps (s.elems u), (s.scaleByte o.counts u).mapM (runAt ps) with
    | some v, some sc =>
      if o.migrates ∨ o.reduces then
        let c := o.carried n (t.elems u).1 (t.elems u).2 v q.2.2.2
        (q.1 ++ [c.1], q.2.1, q.2.2.1, c.2)
      else
        let c := o.convert u v (leNat (sc.flatten)) q.2.2.2
        let e := o.outBytes n (t.elems u).1 c.bytes c.ctr
        let z := match t.scaleByte o.counts u with
          | m :: _ => o.outBytes n m.1 c.scale e.2
          | [] => ([], e.2)
        (q.1 ++ e.1, q.2.1 ++ z.1, q.2.2.1 ++ c.evs, z.2)
    | _, _ => q) ([], [], [], ctr)

/-- The writes of tile `t` out of its reads, the events and the draws so far. -/
def FOp.tileWrites (o : FOp) (t : Nat) (ps : List XPart) (ctr : Nat) : List XPart × List Ev × Nat :=
  let d := o.side 1
  (o.issued t).foldl (fun (q : List XPart × List Ev × Nat) r =>
    let w := o.rowWrites t ps r q.2.2
    let len := fun (c : Chunk) => c.2.2.length
    (q.1 ++ o.chunkParts (tileSide t 1) d.lva len w.1 ++ o.chunkParts (tileSide t 1) d.lva len w.2.1, q.2.1 ++ w.2.2.1, w.2.2.2)) ([], [], ctr)

/-- The GPA of address `a` of a side, through the translations that the run has had. -/
def FOp.runGpa (o : FOp) (side a : Nat) : Option Nat :=
  if (o.side side).lva then (o.maps.find? (fun m => m.1 == side && m.2.1 == a / 2 ^ 21)).map (fun m => gpaIn m.2.2 a) else some (a % 2 ^ 52)

/-- The GPAs of a side, in pieces that each lie in one 256-byte block. -/
def FOp.sideGpas (o : FOp) (side : Nat) : List (Nat × Nat) :=
  ((o.unitsOf (o.counts.map (fun c => (0, c)))).flatten.flatMap (o.unitRuns side)).flatMap (fun r =>
    (cut256 r.1 r.2).filterMap (fun p => (o.runGpa side p.1).map (fun g => (g, p.2))))

/-- Where the destination of a run meets its source by GPA, as far as `outBytes` and `carried` had not both translations to see it (R365). -/
def FOp.meets (o : FOp) : List (Nat × Nat) :=
  if !(o.side 0).lva && !(o.side 1).lva then []
  else (o.sideGpas 1).flatMap (fun p => (o.sideGpas 0).filterMap (fun q =>
    let lo := max p.1 q.1
    let hi := min (p.1 + p.2) (q.1 + q.2)
    if lo < hi then some (lo, hi - lo) else none))

/-- The bytes of an access that this node is home of, and that the operation may write, become free values: they are undefined. -/
def Pkg.freePart (o : FOp) (kind : AKind) (p : XPart) (x : Pkg) : Pkg :=
  match o.landing with
  | none => x
  | some n =>
    let k := gpaExt p.gpa
    let h := (x.2.accReq { eng := 0x28, ctx := o.ctx, landing := n, ticket := o.ticket, kind := kind, gpa := p.gpa, len := p.len, purpose := .xfer 0 0 }).hdr
    match x.lineKey (x.2.ext k).state (p.gpa / 64) with
    | none => x
    | some key =>
      if gpaNode p.gpa ≠ x.2.node ∨ (x.grantCheck x.2.node h kind p.gpa).1 ≠ sOk then x
      else
        let ws := (linesOf p.gpa p.len).map (fun l => LineW.mk l (x.2.physOf x.2.node l) (key.1.map (fun q => (q.1, l))) key.2 [] none)
        let olds := ws.map (fun w => (w.phys.map (fun q => x.plain q (w.cover q))).getD (List.replicate 64 0))
        let b := x.2.freeBytes p.len
        let flat := overlay olds.flatten (p.gpa % 64) b.1
        ws.zipIdx.foldl (fun (x : Pkg) (w : LineW × Nat) => match w.1.phys with
          | some q => x.writeLine q (sliceBytes flat (64 * w.2) 64) (w.1.cover q)
          | none => x) (x.1, b.2)

/-- The destination of a run is undefined where its source overlaps it (R365). -/
def Pkg.ferrySpoil (o : FOp) (x : Pkg) : Pkg :=
  o.meets.foldl (fun (x : Pkg) p => x.freePart o (if o.reduces then .reduce else .write) { side := 1, addr := p.1, gpa := p.1, len := p.2 }) x

/-! ### Engines (R348, R363–R369) -/

def Dev.ferryEng (d : Dev) (e : Nat) : FerryEng := nth d.fry.engs e {}

def Dev.setFerryEng (e : Nat) (f : FerryEng → FerryEng) (d : Dev) : Dev := { d with fry := { d.fry with engs := modAt f d.fry.engs e } }

/-- Engine `e` is free and its page takes work (R348, R604). -/
def Dev.ferryFree (d : Dev) (e : Nat) : Bool :=
  (d.ferryEng e).op.isNone && d.takes (0x30 + e / 8)

/-- The lowest-numbered free engine. -/
def Dev.freeFerry (d : Dev) : Option Nat := (List.range 32).find? d.ferryFree

/-- The stream of a side opens (R364). -/
def Dev.ferryStream (o : FOp) (e s : Nat) (d : Dev) : Dev :=
  let v := o.side s
  if v.lva then
    (d.openStream ⟨0, o.ctx, v.addr, o.counts, v.strides, o.tiles, v.unit, if o.look = 0 then 8 else o.look, [], 0, 1 + 2 * e + s⟩).2
  else d

/-- A ferry descriptor enters RUNNING on engine `e`, or is refused (R348, R363–R365). -/
def Dev.ferryGo (o : FOp) (e : Nat) (d : Dev) : Dev :=
  if !o.ferryOk then d.opEnded o.id sRights
  else
    let start := if o.resumes then o.resumeTile else 0
    let d := d.setFerryEng e (fun _ => { op := some o.id, first := start, next := start, fencing := o.fences })
    let d := (d.ferryStream o e 0).ferryStream o e 1
    if o.fences then let n := d.newId; (n.2.closeBlocks (o.landing.getD 0) (fun _ => true)).domainFence n.1 o.ctx (.ferry e) else d

/-- FERRY_FENCE_DONE (R363): the engine's domain fence has completed. -/
def Dev.ferryFenced (e : Nat) (d : Dev) : Dev :=
  match d.src.fences.find? (fun f => f.next == .ferry e && d.fenceClear f) with
  | none => d
  | some f =>
    let d := { d with src := { d.src with fences := d.src.fences.filter (fun g => g.id != f.id) } }
    let d := match (d.ferryEng e).op with
      | some id => if f.errSeen then d.setFop id (fun o => { o with fenceErr := true }) else d
      | none => d
    d.setFerryEng e (fun g => { g with fencing := false })

/-- Tile `t` is over: its masks, and whether it completed in full. -/
def Dev.tileOver (e : Nat) (t : FTile) (d : Dev) : Dev :=
  d.setFerryEng e (fun g =>
    if t.bad then { g with live := g.live.filter (fun u => u.t != t.t), failed := g.failed ++ [t], halted := true }
    else { g with live := g.live.filter (fun u => u.t != t.t), done := g.done ++ [t.t] })

/-- The pages of tile `t` are forgotten, but where its sides lay. -/
def Dev.tilePagesGone (id t : Nat) (d : Dev) : Dev :=
  d.setFop id (fun o => { o with
    pages := o.pages.filter (fun p => p.side / 2 != t)
    maps := (o.maps ++ o.pages.filterMap (fun p => match p with
      | ⟨s, q, some (.hit g _)⟩ => if s / 2 = t then some (s % 2, q, g) else none
      | _ => none)).dedup })

/-- Every page of the next tile has its outcome: its reads are issued (R115, R366). -/
def Dev.tileGo (e : Nat) (d : Dev) : Dev :=
  let g := d.ferryEng e
  match g.op.bind d.fop with
  | none => d
  | some o =>
    if !g.xlating ∨ !o.xlated then d
    else if g.halted ∨ o.retired then (d.setFerryEng e (fun g => { g with xlating := false })).tilePagesGone o.id g.next
    else
      let t := g.next
      let miss := fun (s : Nat) => (o.footprint s t).filter (fun p => o.pages.any (fun q => q.side == tileSide t s && q.page == p && q.bad))
      let bad := !(miss 0).isEmpty || !(miss 1).isEmpty
      let tile : FTile := {
        t := t, srcMask := pageMask (o.footprint 0 t) (fun p => (miss 0).contains p)
        dstMask := pageMask (o.footprint 1 t) (fun p => (miss 1).contains p), bad := bad }
      let retired := o.pages.any (fun q => q.res == some .retired)
      let reads := o.tileReads t
      let d := d.setFerryEng e (fun g => { g with
        next := t + 1, xlating := false, halted := g.halted || bad, xf := g.xf || bad, live := g.live ++ [tile]
        low := if retired then min g.low sRetired else g.low })
      let d := ((d.xlt.streams.filter (fun s => s.owner == 1 + 2 * e || s.owner == 2 + 2 * e)).map (·.num)).foldl
        (fun (d : Dev) n => d.streamTile n t) d
      if reads.isEmpty then (d.tileOver e tile).tilePagesGone o.id t
      else d.xferGo o (8 + e) (.tileRead t) (if o.migrates then .migRead else .read) 0 0 reads

/-- TILE_ISSUE (R366): the pages of the engine's next tile are translated, and its reads issued once they are. -/
def Pkg.tileIssue (e : Nat) (x : Pkg) : Pkg :=
  let g := x.2.ferryEng e
  match g.op.bind x.2.fop with
  | none => x
  | some o =>
    let t := g.next
    if g.fencing ∨ g.xlating ∨ g.halted ∨ o.retired ∨ o.tileNum ≤ t then x
    else if [0, 1].any (fun s => decide (64 < (o.footprint s t).length)) then
      let all := fun (s : Nat) => if (o.side s).lva then 2 ^ 64 - 1 else 0
      x.dev (fun d => (d.setFerryEng e (fun g => { g with next := t + 1, low := min g.low sRights })).tileOver e { t := t, srcMask := all 0, dstMask := all 1, bad := true })
    else
      let kinds := fun (s : Nat) => if s = 0 then AKind.read else if o.reduces then .reduce else .write
      let runs := fun (s : Nat) => if (o.side s).lva then ((o.tileRows t).flatten.filter (o.inRun t)).flatMap (o.unitRuns s) else []
      let ask := fun (x : Pkg) (s : Nat) => (rowPages (runs s)).foldl (fun (x : Pkg) p =>
        x.opPage o.id (tileSide t s) (firstTouch (runs s) p) (kinds s) true) x
      (ask (ask (x.dev (Dev.setFerryEng e (fun g => { g with xlating := true }))) 0) 1).dev (Dev.tileGo e)

/-- The failed accesses of a tile: their pages in its mask, the lowest status. -/
def Dev.tileFail (e s : Nat) (xf : Xfer) (o : FOp) (t : FTile) (d : Dev) : FTile × Dev :=
  let gone := (xf.parts.filter (fun p => p.status != some sOk)).map (fun p => p.addr / 2 ^ 21)
  let m := if (o.side s).lva then pageMask (o.footprint s t.t) (fun p => gone.contains p) else 0
  let t' := if xf.low = 16 then t
    else if s = 0 then { t with srcMask := Nat.lor t.srcMask m, bad := true } else { t with dstMask := Nat.lor t.dstMask m, bad := true }
  (t', d.setFerryEng e (fun g => { g with
    low := min g.low xf.low, halted := g.halted || t'.bad
    moved := g.moved || (s == 1 && xf.parts.any (fun p => p.status == some sOk))
    live := g.live.map (fun u => if u.t = t.t then t' else u) }))

/-- The engine issues the writes of its tiles in element order (R359): of the lowest tiles in hand, as far as their reads have ended. A tile
of a retired operation whose writes are not issued did not complete (R368, R523). -/
def Dev.tileFlush (e : Nat) : Nat → Dev → Dev
  | 0, d => d
  | n + 1, d =>
    let g := d.ferryEng e
    match g.op.bind d.fop, g.live.find? (fun u => !u.wrote) with
    | some o, some tile => match tile.got with
      | none => d
      | some ps =>
        let t := tile.t
        let gone := fun (d : Dev) => d.tilePagesGone o.id t
        if o.retired then
          let all := fun (s : Nat) => if (o.side s).lva then pageMask (o.footprint s t) (fun _ => true) else 0
          Dev.tileFlush e n (gone (d.tileOver e { tile with srcMask := all 0, dstMask := all 1, bad := true }))
        else
          let w := o.tileWrites t ps d.freeCtr
          let d := { d with freeCtr := w.2.2 }.countEvs (0x30 + e / 8) 0 w.2.1
          let ps := if o.migrates then w.1.map (fun p => { p with srcGpa := (o.side 0).addr % 2 ^ 52 + (p.addr - (o.side 1).addr) }) else w.1
          if ps.isEmpty then Dev.tileFlush e n (gone (d.tileOver e tile))
          else
            let d := d.setFerryEng e (fun g => { g with live := g.live.map (fun u => if u.t = t then { u with wrote := true, got := none } else u) })
            Dev.tileFlush e n (d.xferGo o (8 + e) (.tileWrite t) (if o.migrates then .migWrite else if o.reduces then .reduce else .write)
              (o.side 1).fmt (o.side 0).fmt ps)
    | _, _ => d

/-- The reads or writes of a tile have ended (R359, R367). -/
def Dev.tileIn (xf : Xfer) (t : Nat) (wrote : Bool) (d : Dev) : Dev :=
  let e := xf.eng - 8
  match d.fop xf.op, (d.ferryEng e).live.find? (fun u => u.t == t) with
  | some o, some tile =>
    let r := d.tileFail e (b2n wrote) xf o tile
    if wrote then (r.2.tileOver e r.1).tilePagesGone o.id t
    else
      let d := r.2.setFerryEng e (fun g => { g with live := g.live.map (fun u => if u.t = t then { u with got := some xf.parts } else u) })
      d.tileFlush e (d.ferryEng e).live.length
  | _, _ => d

/-- The status of a run (R116, R368). -/
def FerryEng.status (g : FerryEng) : Nat :=
  if g.low ≠ 16 then g.low else if g.failed.isEmpty then sOk else if g.moved then sPartial else sFault

/-- The run of engine `e` is over and every write issued has been acknowledged. -/
def Dev.ferryOver (e : Nat) (d : Dev) : Bool :=
  let g := d.ferryEng e
  match g.op.bind d.fop with
  | none => false
  | some o => !(g.fencing || !g.live.isEmpty || d.opBusy o.id || (!o.retired && (g.xlating || (!g.halted && decide (g.next < o.tileNum)))))

/-- A run that is over completes (R366–R368). -/
def Dev.ferryComplete (e : Nat) (d : Dev) : Dev :=
  let g := d.ferryEng e
  match g.op.bind d.fop with
  | none => d
  | some o =>
    let stop := match (g.failed.map (·.t)).min? with
      | some t => t
      | none => g.next
    let tile := (g.failed.find? (fun t => t.t == stop)).getD { t := 0, srcMask := 0, dstMask := 0, bad := false }
    let d := (d.endStreams (fun s => s.owner == 1 + 2 * e || s.owner == 2 + 2 * e)).setFerryEng e (fun _ => {})
    let d := d.setFop o.id (fun o => { o with result := g.done.length, stop := stop, srcMask := tile.srcMask, dstMask := tile.dstMask })
    (d.count (0x30 + e / 8) 6 1).opEnded o.id g.status

/-- FERRY_COMPLETE (R365–R368). -/
def Pkg.ferryComplete (e : Nat) (x : Pkg) : Pkg :=
  if x.2.ferryOver e then
    (match (x.2.ferryEng e).op.bind x.2.fop with
      | some o => x.ferrySpoil o
      | none => x).dev (Dev.ferryComplete e)
  else x

/-! ### The commands -/

/-- FERRY_COMPLETE (R367, R368). -/
def execFerryComplete (e : Fin 32) (s : State) : Host.Outcome State Fault Refusal := onPkg (Pkg.ferryComplete e) s

end Sys2Proof.Machine
end

