-- ==== Sys2Proof/Machine/Coll.lean ====
section
/-!
DEFINITION. Collective units (R292–R319): descriptors, ranks, segments, credits, reductions, aborts.
-/
namespace Sys2Proof.Machine

/-! ### Vectors in a format word (R239–R242) -/

/-- The values of `n` elements in a format word, of their element and scale bytes. -/
def decodeVals (f : FmtWord) (n : Nat) (elems scales : List Byte) : List XVal :=
  (List.range n).map (fun i =>
    let c := bits (leNat elems) (i * fmtBits f.fmt) (fmtBits f.fmt)
    if f.mx then mxValue f.fmt ((scales[i / 32]?).getD 0).toNat c else elemValue f.fmt c)

/-- Values as elements of a format word, with MX as blocks of 32. -/
def encodeVals (f : FmtWord) (l : List XVal) (ctr : Nat) : FConv :=
  let r := if f.mx then
      (List.range (ceilDiv l.length 32)).foldl (fun (q : List Nat × List Byte × List Ev × Nat) i =>
        let b := mxEncode f q.2.2.2 ((l.drop (32 * i)).take 32)
        (q.1 ++ b.elems, q.2.1 ++ [BitVec.ofNat 8 b.scale], q.2.2.1 ++ b.evs, b.ctr)) ([], [], [], ctr)
    else
      l.foldl (fun (q : List Nat × List Byte × List Ev × Nat) v =>
        let c := convertTo f q.2.2.2 v
        (q.1 ++ [c.code], [], q.2.2.1 ++ c.evs, c.ctr)) ([], [], [], ctr)
  let p := packRow (fmtBits f.fmt) r.1 r.2.2.2
  ⟨p.1, r.2.1, r.2.2.1, p.2⟩

/-- A vector converted between format words: the same format is copied (R241, R242). -/
def convertVec (s d : FmtWord) (n : Nat) (elems scales : List Byte) (ctr : Nat) : FConv :=
  if s.fmt = d.fmt ∧ s.mx = d.mx then ⟨elems, scales, [], ctr⟩ else encodeVals d (decodeVals s n elems scales) ctr

/-! ### Descriptors (R296–R300) -/

def FOp.collOp (o : FOp) : Nat := o.fld 64 0 4
def FOp.collRed (o : FOp) : Nat := o.fld 64 4 4
def FOp.collAcc (o : FOp) : Bool := o.fld 65 0 1 == 1
def FOp.collMask (o : FOp) : Nat := o.fld 66 0 16
def FOp.collId (o : FOp) : Nat := o.fld 68 0 32
def FOp.collP (o : FOp) : Nat := o.fld 72 0 10
def FOp.collRank (o : FOp) : Nat := o.fld 74 0 9
def FOp.collRoot (o : FOp) : Nat := o.fld 76 0 9
def FOp.collOff (o : FOp) : Nat := o.fld 78 0 14
def FOp.collCount (o : FOp) : Nat := o.fld 80 0 40
def FOp.inFmt (o : FOp) : Nat := o.fld 88 0 8
def FOp.wireFmt (o : FOp) : Nat := o.fld 89 0 8
def FOp.outFmt (o : FOp) : Nat := o.fld 90 0 8
def FOp.segLog (o : FOp) : Nat := o.fld 91 0 5
def FOp.progOn (o : FOp) : Bool := o.fld 128 52 1 == 1

/-- The fields of a collective descriptor. -/
def collFields : List (Nat × Nat) :=
  headerFields ++ [(512, 4), (516, 4), (520, 1), (528, 16), (544, 32), (576, 10), (592, 9), (608, 9), (624, 14), (640, 40), (704, 8),
    (712, 8), (720, 8), (728, 5), (768, 58), (832, 57), (896, 58), (960, 57), (1024, 53)]

/-- Elements of a chunk but the last: C (R297). -/
def FOp.chunkC (o : FOp) : Nat := ceilDiv (ceilDiv o.collCount (max o.collP 1)) 64 * 64

/-- Elements of chunk `c`. -/
def FOp.chunkLen (o : FOp) (c : Nat) : Nat := min ((c + 1) * o.chunkC) o.collCount - min (c * o.chunkC) o.collCount

/-- Elements of IN that this rank reads, and of OUT. -/
def FOp.inLen (o : FOp) : Nat :=
  if o.collOp = 2 then o.chunkLen o.collRank else if o.collOp = 4 ∧ o.collRank ≠ o.collRoot then 0 else o.collCount

def FOp.outLen (o : FOp) : Nat := if o.collOp = 1 then o.chunkLen o.collRank else o.collCount

/-- A vector of `n` elements at `addr` that R234 allows. -/
def packedOk (fmt addr n : Nat) : Bool :=
  n == 0 || (match fmtBits (fmt % 16) with
    | 6 => addr % 3 == 0 && n % 4 == 0
    | 4 => n % 2 == 0
    | w => addr % (w / 8) == 0)

/-- A descriptor that R296–R300 allow, its vectors packed as R298 says. -/
def FOp.collOk (o : FOp) : Bool :=
  let fmts := [o.inFmt, o.wireFmt, o.outFmt]
  reservedZero o.desc collFields && decide (o.collOp ≤ 4) && (decide (2 ≤ o.collOp) || decide (o.collRed ≤ 1)) && o.collMask != 0
    && decide (1 ≤ o.collCount) && fmts.all fmtWordOk && decide (16 ≤ o.segLog) && decide (o.segLog ≤ 20)
    && (decide (2 ≤ o.collOp) || fmts.all (fun f => fmtIsFloat (f % 16)) || fmts.all (fun f => !fmtIsFloat (f % 16)))
    && (!o.collAcc || (mfmtOk (o.outFmt % 16) && !bit o.outFmt 4)) && (!o.progOn || o.fld 128 0 3 == 0)
    && packedOk o.inFmt (o.fld 96 0 57) o.inLen && packedOk o.outFmt (o.fld 112 0 57) o.outLen

/-! ### Segments and pieces (R297)

A segment is 2^SEG_LOG2 element bytes of a chunk. The arrays work on whole blocks of 32 elements: piece `j` of a chunk is the blocks from
the one that holds the first byte of segment `j` up to the one that holds the first byte of segment `j + 1`. The two differ with FP6 on the
wire only, where a block has 24 bytes: piece `j` then begins with the last bytes of segment `j - 1` (log entry 53). -/

/-- Element bytes of a whole segment, of chunk `c` on the wire, of a block. -/
def FOp.segBytes (o : FOp) : Nat := 2 ^ o.segLog

def FOp.chunkBytes (o : FOp) (c : Nat) : Nat := ceilDiv (o.chunkLen c * fmtBits (o.wireFmt % 16)) 8

def FOp.blockBytes (o : FOp) : Nat := 4 * fmtBits (o.wireFmt % 16)

/-- Segments of chunk `c`. -/
def FOp.segNum (o : FOp) (c : Nat) : Nat := ceilDiv (o.chunkBytes c) o.segBytes

/-- Element bytes of segment `j` of chunk `c`. -/
def FOp.segSize (o : FOp) (c j : Nat) : Nat := min o.segBytes (o.chunkBytes c - j * o.segBytes)

/-- First element of piece `j`. -/
def FOp.pieceAt (o : FOp) (j : Nat) : Nat := j * o.segBytes / o.blockBytes * 32

/-- Elements of piece `j` of chunk `c`. -/
def FOp.segLen (o : FOp) (c j : Nat) : Nat :=
  let stop := if o.segNum c ≤ j + 1 then o.chunkLen c else o.pieceAt (j + 1)
  if o.segNum c ≤ j then 0 else stop - o.pieceAt j

/-- Bytes of piece `j` that segment `j - 1` carries. -/
def FOp.lead (o : FOp) (c j : Nat) : Nat := if o.segNum c ≤ j then 0 else j * o.segBytes % o.blockBytes

/-- First credits of a sender (R308). -/
def FOp.firstCredits (o : FOp) : Nat := 2 ^ (21 - o.segLog)

/-- Rank `k` places further round the ring. -/
def FOp.rankAt (o : FOp) (k : Nat) : Nat := (o.collRank + k) % max o.collP 1

/-- What this rank receives, as (step, chunk) (R302, R305, R306). -/
def FOp.expects (o : FOp) : List (Nat × Nat) :=
  let p := o.collP
  let rs := (List.range (p - 1)).map (fun s => (s, o.rankAt (2 * p - s - 2)))
  let ag := fun (base : Nat) => (List.range (p - 1)).map (fun s => (base + s, o.rankAt (p - 1 + p - s)))
  match o.collOp with
  | 0 => rs ++ ag (p - 1)
  | 1 => rs
  | 2 => ag 0
  | 3 => (List.range (p - 1)).map (fun k => (k + 1, o.collRank))
  | _ => if o.collRank = o.collRoot then [] else (List.range p).map (fun c => ((o.rankAt (2 * p - 1) + p - o.collRoot) % p, c))

/-- Rank that sends this rank step `step`, and rank to which it sends step `step`. -/
def FOp.fromRank (o : FOp) (step : Nat) : Nat := if o.collOp = 3 then o.rankAt (o.collP - step % o.collP) else o.rankAt (o.collP - 1)

def FOp.toRank (o : FOp) (step : Nat) : Nat := if o.collOp = 3 then o.rankAt step else o.rankAt 1

/-- What this rank sends out of its own IN, as (step, chunk): step 0 of ALL_TO_ALL stays here. -/
def FOp.sources (o : FOp) : List (Nat × Nat) :=
  match o.collOp with
  | 0 | 1 => [(0, o.rankAt (o.collP - 1))]
  | 2 => [(0, o.collRank)]
  | 3 => (List.range o.collP).map (fun k => (k, o.rankAt k))
  | _ => if o.collRank = o.collRoot then (List.range o.collP).map (fun c => (0, c)) else []

/-- Segments that this rank owes its OUT, as (chunk, segment) (R298). -/
def FOp.owes (o : FOp) : List (Nat × Nat) :=
  let all := fun (c n : Nat) => (List.range n).map (fun j => (c, j))
  match o.collOp with
  | 1 => all o.collRank (o.segNum o.collRank)
  | 3 => (List.range o.collP).flatMap (fun c => all c (o.segNum o.collRank))
  | _ => (List.range o.collP).flatMap (fun c => all c (o.segNum c))

/-- The accumulator is INT32: integer data without MX (R254). -/
def FOp.collInt (o : FOp) : Bool :=
  [o.inFmt, o.wireFmt].all (fun f => !fmtIsFloat (f % 16) && !bit f 4)

/-- Byte runs of `n` elements from element `i` on: elements, then scale bytes with MX. -/
def vecRuns (addr scale fmt i n : Nat) : List (Nat × Nat) :=
  let w := fmtBits (fmt % 16)
  if n = 0 then [] else (addr + i * w / 8, ceilDiv (n * w) 8) :: (if bit fmt 4 then [(scale + i / 32, ceilDiv n 32)] else [])

/-- Runs of IN or OUT. -/
def FOp.inRuns (o : FOp) (i n : Nat) : List (Nat × Nat) := vecRuns (o.fld 96 0 57) (o.fld 104 0 57) o.inFmt i n

def FOp.outRuns (o : FOp) (i n : Nat) : List (Nat × Nat) := vecRuns (o.fld 112 0 57) (o.fld 120 0 57) o.outFmt i n

def FOp.inLva (o : FOp) : Bool := o.fld 96 57 1 == 1
def FOp.outLva (o : FOp) : Bool := o.fld 112 57 1 == 1

/-- First element in IN of piece `j` of chunk `c`; in OUT. -/
def FOp.inAt (o : FOp) (c j : Nat) : Nat := (if o.collOp = 2 then 0 else c * o.chunkC) + o.pieceAt j

def FOp.outAt (o : FOp) (c j : Nat) : Nat := (if o.collOp = 1 then 0 else c * o.chunkC) + o.pieceAt j

/-- Runs with their GPAs, cut at pages. -/
def FOp.pageRuns (o : FOp) (side : Nat) (lva : Bool) (runs : List (Nat × Nat)) : List (Nat × Nat) :=
  runs.flatMap (fun r => (rowPages [r]).filterMap (fun p =>
    let lo := max r.1 (p * 2 ^ 21)
    (o.gpaOf side lva lo).map (fun g => (g, min (r.1 + r.2) ((p + 1) * 2 ^ 21) - lo))))

/-- IN and OUT overlap otherwise than R298 allows, which leaves OUT undefined. -/
def FOp.collOverlap (o : FOp) : Bool :=
  let a := o.pageRuns 0 o.inLva (o.inRuns 0 o.inLen)
  let b := o.pageRuns 1 o.outLva (o.outRuns 0 o.outLen)
  a.any (fun p => b.any (fun q => decide (p.1 < q.1 + q.2) && decide (q.1 < p.1 + p.2)))
    && !((o.collOp == 0 || decide (3 ≤ o.collOp)) && a == b)

/-- The array that works on segment `j` (R311): the unit spreads a step's segments over its arrays. -/
def FOp.collArray (o : FOp) (j : Nat) : Nat := let l := maskArrays o.collMask; nth l (j % max l.length 1) 0

/-! ### The unit's state -/

def Dev.coll (d : Dev) (op : Nat) : Option Coll := d.fry.colls.find? (fun c => c.op == op)

def Dev.setColl (op : Nat) (f : Coll → Coll) (d : Dev) : Dev :=
  { d with fry := { d.fry with colls := mapFirst (fun c => c.op == op) f d.fry.colls } }

/-- A progress event of a collective: its step window starts again (R314, R319). -/
def Dev.collProgress (op step : Nat) (d : Dev) : Dev :=
  d.setColl op (fun c => { c with progressAt := d.tim.tide, window := d.rd F.COLL_CFG_STEP_TIMEOUT_US, step := max c.step step })

/-- The step window has ended. -/
def Dev.collOver (d : Dev) (c : Coll) : Bool := c.abort.isNone && decide (c.progressAt + us c.window ≤ d.tim.tide)

/-- Work of a collective is counted in handshakes of an array, 64 elements each (R311). -/
def Dev.collWork (a n : Nat) (evs : List Ev) (d : Dev) : Dev := (d.arrEvs a evs).count (0x40 + a) 6 (ceilDiv n 64)

/-! ### Aborts (R313–R316) -/

/-- A COLL_ABORT to the landing of rank `r`, if its entry names one of the domain. -/
def Dev.abortTo (o : FOp) (c : Coll) (a : Nat × Nat × Nat) (r : Nat) (d : Dev) : Dev :=
  let e := nth c.ranks r 0
  if bit e 15 ∧ e % 512 / 4 < d.domainSize then
    d.ctrl (e % 512 / 4) (.collAbort { collId := o.collId, src := globalLanding d.node (o.landing.getD 0), dst := e % 512
                                       status := a.1, rank := a.2.1, step := a.2.2 })
  else d

/-- A collective processes an abort (status, rank, step) and tells the ranks `to_` (R313, R315, R319). -/
def Dev.collAbort (op : Nat) (a : Nat × Nat × Nat) (origin : Bool) (to_ : List Nat) (d : Dev) : Dev :=
  match d.coll op, d.fop op with
  | some c, some o =>
    if c.abort.isSome then d
    else
      let d := d.setColl op (fun c => { c with abort := some a, stage := [], ready := [], sent := [], work := [], again := [], tails := [], pieces := [] })
      let d := ((d.wr F.COLL_ABORT_ID_ID o.collId).wr F.COLL_ABORT_INFO_STATUS a.1).wr F.COLL_ABORT_INFO_FAILED_RANK a.2.1
      let d := (d.wr F.COLL_ABORT_INFO_FAILED_STEP a.2.2).wr F.COLL_ABORT_INFO_ORIGIN (b2n origin)
      let d := (d.count 0x50 3 1).event 0x50 0
      to_.foldl (fun (d : Dev) r => d.abortTo o c a r) d
  | _, _ => d

/-- The ring predecessor and successor of a rank. -/
def FOp.neighbours (o : FOp) : List Nat := [o.rankAt (o.collP - 1), o.rankAt 1].dedup

/-- Ranks that an aborting rank tells: its neighbours, in ALL_TO_ALL every other rank. -/
def FOp.abortRanks (o : FOp) : List Nat := if o.collOp = 3 then (List.range o.collP).filter (· != o.collRank) else o.neighbours

/-- The collective fails of its own (R313); where its step window has ended before, it has aborted with TIMEOUT (R314). -/
def Dev.collFail (op status : Nat) (d : Dev) : Dev :=
  match d.coll op, d.fop op with
  | some c, some o => d.collAbort op (if d.collOver c then sTimeout else status, o.collRank, c.step) true o.abortRanks
  | _, _ => d

/-- A step window that has ended aborts before anything later counts (R314). -/
def Dev.collTimeout (op : Nat) (d : Dev) : Dev :=
  match d.coll op with
  | some c => if d.collOver c then d.collFail op sTimeout else d
  | none => d

/-! ### Reads of IN and writes of OUT (R301) -/

/-- The local data of segment `j` of chunk `c` is read, for `step`. -/
def Dev.collRead (o : FOp) (step c j : Nat) (d : Dev) : Dev :=
  d.xferGo o (0x28 + o.collArray j) (.collIn step c j) .read 0 0
    ((o.inRuns (o.inAt c j) (o.segLen c j)).flatMap (fun r => o.parts 0 o.inLva r.1 r.2))

/-- The count at PROGRESS_ADDR goes up by 1 (R317). -/
def Dev.collCountUp (o : FOp) (d : Dev) : Dev :=
  d.xferGo o (0x28 + o.collArray 0) .collProgress .atomic 0 0 [{ side := 1, addr := 0, gpa := o.fld 128 0 52, len := 8, data := natLE 8 1 }]

/-- Segment `j` of OUT chunk `c` is final, its writes acknowledged. -/
def Dev.collFinal (o : FOp) (c j : Nat) (d : Dev) : Dev :=
  let d := d.setColl o.id (fun x => { x with final := x.final ++ [(c, j)] })
  match d.coll o.id with
  | none => d
  | some x =>
    let whole := o.owes.all (fun q => q.1 != c || x.final.contains q)
    if whole ∧ !x.counted.contains c then
      let d := d.setColl o.id (fun x => { x with counted := x.counted ++ [c] })
      if o.progOn then d.collCountUp o else d
    else d

/-- Data in OUT_FMT is written to piece `j` of OUT chunk `c`, by reduce-writes with ACCUMULATE (R300). Elements at or
beyond COUNT are not written; where OUT is undefined (R298), what is written is free. -/
def Dev.collWrite (o : FOp) (c j n : Nat) (v : FConv) (d : Dev) : Dev :=
  let at_ := o.outAt c j
  let b := d.freeBytes v.bytes.length
  let z := b.2.freeBytes v.scale.length
  let (v, d) := if o.collOverlap then ({ v with bytes := b.1, scale := z.1 }, z.2) else (v, d)
  let n := min n ((if o.collOp = 1 then o.outLen else o.collCount) - at_)
  let ps := ((o.outRuns at_ n).zip [v.bytes, v.scale]).flatMap (fun r => o.writes 1 o.outLva r.1.1 (sliceBytes r.2 0 r.1.2))
  if ps.isEmpty then d.collFinal o c j
  else d.xferGo o (0x28 + o.collArray j) (.collOut c j) (if o.collAcc then .reduce else .write) o.outFmt o.outFmt ps

/-- The element bytes and scale bytes of wire data of `n` elements. -/
def FOp.wireParts (o : FOp) (n : Nat) (v : List Byte) : List Byte × List Byte :=
  let k := ceilDiv (n * fmtBits (o.wireFmt % 16)) 8
  (sliceBytes v 0 k, v.drop k)

/-- Wire data is written to OUT: under RNE (R299). -/
def Dev.collStore (o : FOp) (c j n : Nat) (wire : List Byte) (d : Dev) : Dev :=
  let p := o.wireParts n wire
  let v := convertVec (fmtWord o.wireFmt) { fmtWord o.outFmt with stoch := false } n p.1 p.2 d.freeCtr
  ({ d with freeCtr := v.ctr }.collWork (o.collArray j) n v.evs).collWrite o c j n v

/-! ### Sending (R307, R308) -/

/-- A segment leaves for the landing of its rank. -/
def Dev.collSend (o : FOp) (c : Coll) (g : CSent) (d : Dev) : Dev :=
  let dst := nth c.ranks g.peer 0 % 512
  let m : CollData :=
    { collId := o.collId, src := globalLanding d.node (o.landing.getD 0), dst := dst, step := g.s.step, chunk := g.s.chunk,
      seg := g.s.seg, ticket := o.ticket, eng := g.eng, data := g.s.data, bounces := g.bounces }
  d.emitTo (dst / 4) (.coll (dst / 4) m)

/-- Segments that have a credit and room in the window of their array leave, in order, unless the step window has ended (R308, R314, R428): one
that the window holds is held with those behind it of the same array and rank. -/
def Dev.collSends (o : FOp) (d : Dev) : Dev :=
  let d := d.collTimeout o.id
  match d.coll o.id with
  | none => d
  | some c =>
    (c.ready.foldl (fun (a : Dev × List (Nat × Nat)) (q : Nat × CSeg) =>
      let eng := 0x28 + o.collArray q.2.seg
      match a.1.coll o.id with
      | none => a
      | some x =>
        if nget x.credits q.1 = 0 ∨ a.2.contains (eng, q.1) then a
        else if !a.1.windowRoom eng (nth x.ranks q.1 0 % 512 / 4) q.2.data.length then (a.1, a.2 ++ [(eng, q.1)])
        else
          let gone : CSent := { peer := q.1, s := q.2, eng := eng, sentAt := a.1.tim.tide }
          let d := a.1.setColl o.id (fun x => { x with
            credits := nset x.credits q.1 (nget x.credits q.1 - 1), ready := x.ready.erase q, sent := x.sent ++ [gone] })
          ((d.collSend o x gone).collProgress o.id q.2.step, a.2)) (d, [])).1

/-- A segment waits for its credit. -/
def Dev.collQueue (o : FOp) (s : CSeg) (d : Dev) : Dev :=
  d.setColl o.id (fun c => { c with ready := c.ready ++ [(o.toRank s.step, { s with cmark := 0 })] })

/-- A segment that was sent leaves again under its tags (R307, R308), unless the step window has ended. -/
def Dev.collResend (o : FOp) (s : CSent) (d : Dev) : Dev :=
  let d := d.collTimeout o.id
  match d.coll o.id with
  | none => d
  | some c =>
    if !c.sent.contains s then d
    else
      let again := fun (t : CSent) => if t = s then { t with sentAt := d.tim.tide } else t
      ((d.setColl o.id (fun c => { c with sent := c.sent.map again })).collSend o c s).collProgress o.id s.s.step

/-- The wire data of segment `k` of a chunk out of its pieces, once they are there. -/
def FOp.segOf (o : FOp) (l : List CSeg) (step c k : Nat) : Option CSeg :=
  let piece := fun (j : Nat) => (l.find? (fun p => p.step == step && p.chunk == c && p.seg == j)).map (fun p => o.wireParts (o.segLen c j) p.data)
  match piece k, piece (k + 1) with
  | some a, b =>
    let n := o.lead c (k + 1)
    if n = 0 then some { step := step, chunk := c, seg := k, data := a.1.drop (o.lead c k) ++ a.2 }
    else b.map (fun b => { step := step, chunk := c, seg := k, data := a.1.drop (o.lead c k) ++ b.1.take n ++ a.2 ++ b.2.take 1 })
  | none, _ => none

/-- A piece is ready to be sent at its step: the segments that it completes wait for their credits. -/
def Dev.collPiece (o : FOp) (s : CSeg) (d : Dev) : Dev :=
  if o.lead s.chunk s.seg = 0 ∧ o.lead s.chunk (s.seg + 1) = 0 then d.collQueue o s
  else
    let d := d.setColl o.id (fun c => { c with pieces := c.pieces ++ [s] })
    let l := ((d.coll o.id).map (·.pieces)).getD []
    let ks := (if o.lead s.chunk s.seg = 0 then [] else [s.seg - 1]) ++ [s.seg]
    (ks.filterMap (o.segOf l s.step s.chunk)).foldl (fun (d : Dev) g => d.collQueue o g) d

/-- Credits for rank `r` (R308, R309, R427): the first of a step carries the digest; `echo` is the CMARK of the segment acknowledged. -/
def Dev.collGrant (o : FOp) (r step slots : Nat) (ack : Option (Nat × Nat × Nat)) (echo : Nat) (d : Dev) : Dev :=
  match d.coll o.id with
  | none => d
  | some c =>
    let dst := nth c.ranks r 0 % 512
    let digest := if c.digested.contains step then none
      else some [o.collOp, o.collRed, o.collP, o.collCount, o.wireFmt, o.segLog]
    (d.setColl o.id (fun c => { c with digested := if c.digested.contains step then c.digested else c.digested ++ [step] })).ctrl (dst / 4)
      (.collCredit { collId := o.collId, src := globalLanding d.node (o.landing.getD 0), dst := dst, step := step, slots := slots, ack := ack, digest := digest, echo := echo })

/-! ### Segments in the arrays (R302–R306) -/

/-- The larger of two values: +0 above −0, NaN if either is one (R304). -/
def maxVal (x y : XVal) : XVal :=
  if x.isNaN || y.isNaN then .nan
  else if x.lt y then y else if y.lt x then x
  else match x with
    | .fin true 0 _ => y
    | _ => x

/-- A value as an FP32 accumulator takes it (R254): an infinity as it is, no event. -/
def fp32Load : XVal → Nat × List Ev
  | .inf neg => (fp32.signed neg (fp32.maxCode + 1), [])
  | v => let r := fp32.convert false false 0 v; (r.code, r.evs)

/-- An incoming and a local element reduced (R303, R304): the accumulator's code, of FP32 or of INT32. -/
def reduceVal (int max : Bool) (x y : XVal) : Nat × List Ev :=
  if int then (if max then (ofSigned 32 (maxVal x y).toInt, []) else int32Add (ofSigned 32 x.toInt) y.toInt)
  else if max then fp32Load (maxVal x y)
  else
    let a := fp32Load x
    let r := fp32Add a.1 y
    (r.1, a.2 ++ r.2)

/-- Accumulators, of INT32 or of FP32, written in a format word: their own format is copied (R241, R242, R303). -/
def encodeAcc (int : Bool) (f : FmtWord) (codes : List Nat) (ctr : Nat) : FConv :=
  let r := encodeRow (if int then 8 else 0) f codes ctr
  ⟨r.1, r.2.1, r.2.2.1, r.2.2.2⟩

/-- A reduced segment goes on (R302, R303): the last step's result is final. -/
def Dev.collReduced (o : FOp) (s : CSeg) (vals : List Nat) (d : Dev) : Dev :=
  let a := o.collArray s.seg
  let n := vals.length
  if s.step + 2 = o.collP ∧ o.collOp = 1 then
    let v := encodeAcc o.collInt { fmtWord o.outFmt with stoch := bit o.outFmt 5 && !o.collAcc } vals d.freeCtr
    ({ d with freeCtr := v.ctr }.collWork a n v.evs).collWrite o s.chunk s.seg n v
  else
    let v := encodeAcc o.collInt (fmtWord o.wireFmt) vals d.freeCtr
    let d := { d with freeCtr := v.ctr }.collWork a n v.evs
    let wire := v.bytes ++ v.scale
    let d := d.collPiece o { s with step := s.step + 1, data := wire }
    if s.step + 2 = o.collP then d.collStore o s.chunk s.seg n wire else d

/-- The local data of a piece has been read. -/
def Dev.collLocal (xf : Xfer) (step c j : Nat) (d : Dev) : Dev :=
  let d := d.collTimeout xf.op
  match d.fop xf.op, d.coll xf.op with
  | some o, some x =>
    if x.abort.isSome then d
    else if xf.low ≠ 16 then d.collFail o.id xf.low
    else
      let n := o.segLen c j
      let k := ceilDiv (n * fmtBits (o.inFmt % 16)) 8
      let el := sliceBytes xf.data 0 k
      let sc := xf.data.drop k
      let inF := fmtWord o.inFmt
      let wire := fun (d : Dev) =>
        let v := convertVec inF (fmtWord o.wireFmt) n el sc d.freeCtr
        (v.bytes ++ v.scale, { d with freeCtr := v.ctr }.collWork (o.collArray j) n v.evs)
      match x.work.find? (fun s => s.step + 1 == step && s.chunk == c && s.seg == j) with
      | some s =>
        let p := o.wireParts n s.data
        let rs := List.zipWith (reduceVal o.collInt (o.collRed == 1)) (decodeVals (fmtWord o.wireFmt) n p.1 p.2) (decodeVals inF n el sc)
        let d := (d.setColl o.id (fun x => { x with work := x.work.erase s })).arrEvs (o.collArray j) (rs.flatMap (·.2))
        (d.collReduced o s (rs.map (·.1))).collSends o
      | none =>
        if o.collOp = 3 ∧ step = 0 then
          let v := convertVec inF { fmtWord o.outFmt with stoch := false } n el sc d.freeCtr
          ({ d with freeCtr := v.ctr }.collWork (o.collArray j) n v.evs).collWrite o c j n v
        else
          let w := wire d
          let d := w.2.collPiece o { step := step, chunk := c, seg := j, data := w.1 }
          (if o.collOp = 2 ∨ o.collOp = 4 then d.collStore o c j n w.1 else d).collSends o
  | _, _ => d

/-- A piece of OUT has its answers (R313). -/
def Dev.collStored (xf : Xfer) (c j : Nat) (d : Dev) : Dev :=
  let d := d.collTimeout xf.op
  match d.fop xf.op, d.coll xf.op with
  | some o, some x =>
    if x.abort.isSome then d else if xf.low ≠ 16 then d.collFail o.id xf.low else d.collFinal o c j
  | _, _ => d

/-- A progress count has its answer. -/
def Dev.collCounted (xf : Xfer) (d : Dev) : Dev := if xf.low = 16 then d else d.collFail xf.op xf.low

/-- A received segment is forwarded at the next step unless this rank is the last (R302, R306). -/
def FOp.forwards (o : FOp) (step : Nat) : Bool :=
  match o.collOp with
  | 0 => step + 1 != 2 * o.collP - 2
  | 2 => step + 2 != o.collP
  | 4 => o.rankAt 1 != o.collRoot
  | _ => false

/-- The bytes of piece `j + 1` that segment `j` carries, if any. -/
def FOp.tailOf (o : FOp) (s : CSeg) : List CSeg :=
  let n := o.lead s.chunk (s.seg + 1)
  if n = 0 then [] else let k := o.segSize s.chunk s.seg; [{ s with seg := s.seg + 1, data := sliceBytes s.data (k - n) n }]

/-- The piece that a received segment completes: none while the segment before it is missing that carries its first bytes. -/
def FOp.pieceOf (o : FOp) (c : Coll) (s : CSeg) : Option CSeg :=
  let k := o.segSize s.chunk s.seg
  let body := sliceBytes s.data 0 (k - o.lead s.chunk (s.seg + 1)) ++ (s.data.drop k).take (ceilDiv (o.segLen s.chunk s.seg) 32)
  if o.lead s.chunk s.seg = 0 then some { s with data := body }
  else (c.tails.find? (fun t => t.step == s.step && t.chunk == s.chunk && t.seg == s.seg)).map (fun t => { s with data := t.data ++ body })

/-- Segment `s` leaves the stage into an array, which works on piece `q`: its credit returns (R308), and the piece is reduced, or written and
the segment forwarded. -/
def Dev.collTake (o : FOp) (s q : CSeg) (d : Dev) : Dev :=
  let d := d.setColl o.id (fun c => { c with stage := c.stage.erase s })
  let d := d.collGrant o (o.fromRank s.step) s.step 1 (some (s.step, s.chunk, s.seg)) s.cmark
  if o.collOp ≤ 1 ∧ s.step + 1 < o.collP then
    (d.setColl o.id (fun c => { c with work := c.work ++ [q] })).collRead o (s.step + 1) s.chunk s.seg
  else
    let out := if o.collOp = 3 then o.fromRank s.step else s.chunk
    let n := o.segLen s.chunk s.seg
    let d := d.collStore o out s.seg n q.data
    let d := if o.forwards s.step then d.collQueue o { s with step := s.step + 1 } else d
    match d.coll o.id with
    | none => d
    | some c =>
      let done := (List.range (o.segNum o.collRank)).all (fun j => c.seen.contains (s.step, o.collRank, j)) && c.stage.isEmpty
      if o.collOp = 3 ∧ done ∧ c.exchange = s.step then
        let d := d.setColl o.id (fun c => { c with exchange := c.exchange + 1 })
        if s.step + 1 < o.collP then d.collGrant o (o.fromRank (s.step + 1)) (s.step + 1) o.firstCredits none 0 else d
      else d

/-- A collective goes on with what its stage and its credits allow, unless the brake holds its arrays (R310). -/
def Dev.collGoOn (op : Nat) (d : Dev) : Dev :=
  let d := d.collTimeout op
  match d.fop op, d.coll op with
  | some o, some c =>
    if c.abort.isSome ∨ !c.running ∨ d.braked then d
    else
      let d := c.again.foldl (fun (d : Dev) s => d.collResend o s) (d.setColl op (fun c => { c with again := [] }))
      (c.stage.foldl (fun (d : Dev) s => match (d.coll op).bind (fun c => o.pieceOf c s) with
        | some q => d.collTake o s q
        | none => d) d).collSends o
  | _, _ => d

/-- Every collective goes on: the brake is released. -/
def Dev.collsGoOn (d : Dev) : Dev := d.fry.colls.foldl (fun (d : Dev) c => d.collGoOn c.op) d

/-! ### Entry to RUNNING (R294, R301, R310, R313) -/

/-- Arrays of a mask that are off are asked for (R559). -/
def Dev.askAll (mask : Nat) (d : Dev) : Dev :=
  (maskArrays mask).foldl (fun (d : Dev) a =>
    if d.arrOn a then d else { d with fry := { d.fry with pairReq := putBit d.fry.pairReq (a / 2) true } }) d

/-- The rank-table entries of a collective. -/
def Dev.rankEntries (o : FOp) (d : Dev) : List Nat :=
  let l := d.lndOf (o.landing.getD 0)
  let base := bits (nget l.wins o.ctx) 0 14 + o.collOff
  (List.range o.collP).map (fun r => if base + r < 16384 then nget l.ranks (base + r) else 0)

/-- The condition of R294 that a collective breaks, counted from 1, and the rank concerned. -/
def Dev.rankBad (o : FOp) (d : Dev) : Option (Nat × Nat) :=
  let l := d.lndOf (o.landing.getD 0)
  let size := bits (nget l.wins o.ctx) 16 15
  let es := d.rankEntries o
  let mine := globalLanding d.node (o.landing.getD 0)
  let twin := fun (r : Nat) => (List.range r).any (fun q => nth es q 0 % 512 == nth es r 0 % 512)
  let running := fun (c : Coll) => c.op != o.id && c.abort.isNone && (d.fop c.op).any (fun p => p.landing == o.landing && p.collId == o.collId)
  if o.collP < 2 ∨ 512 < o.collP ∨ size < o.collOff + o.collP then some (1, o.collRank)
  else match es.findIdx? (fun e => !bit e 15 || decide (d.domainSize ≤ e % 512 / 4)) with
    | some r => some (2, r)
    | none => match (List.range o.collP).find? twin with
      | some r => some (3, r)
      | none =>
        if o.landing.isNone ∨ o.collP ≤ o.collRank ∨ nth es o.collRank 0 % 512 ≠ mine then some (4, o.collRank)
        else if o.collOp = 4 ∧ o.collP ≤ o.collRoot then some (5, o.collRoot)
        else if d.fry.colls.any running then some (6, o.collRank)
        else none

/-- Every translation is made: the first credits leave and this rank's own data is read (R301, R313). -/
def Dev.collStart (o : FOp) (d : Dev) : Dev :=
  let d := d.setColl o.id (fun c => { c with running := true })
  let d := match o.expects with
    | [] => d
    | (step, _) :: _ => d.collGrant o (o.fromRank step) step o.firstCredits none 0
  let segs := o.sources.flatMap (fun q => (List.range (o.segNum q.2)).map (fun j => (q.1, q.2, j)))
  segs.foldl (fun (d : Dev) q => d.collRead o q.1 q.2.1 q.2.2) d

/-- The translations of a collective have their outcomes. -/
def Dev.collXlated (op : Nat) (d : Dev) : Dev :=
  let d := d.collTimeout op
  match d.fop op, d.coll op with
  | some o, some c =>
    if c.running ∨ c.abort.isSome ∨ !o.xlated then d
    else if o.pages.any OpPage.bad then d.collFail op (o.xltLow OpPage.bad)
    else (d.collStart o).collGoOn op
  | _, _ => d

/-- Every array of the mask is free and a slot is (R310). -/
def Dev.collRoom (o : FOp) (d : Dev) : Bool :=
  (maskArrays o.collMask).all d.arrFree && decide (d.fry.colls.length < 16) && d.takes 0x50

/-! ### What arrives (R307–R309, R315) -/

/-- The collective of this package that a message names: COLL_ID and landing. -/
def Dev.collOf (d : Dev) (collId dst : Nat) : Option (FOp × Coll) :=
  if dst / 4 ≠ d.node then none
  else d.fry.colls.findSome? (fun c => (d.fop c.op).bind (fun o =>
    if o.collId = collId ∧ o.landing = some (dst % 4) ∧ c.abort.isNone then some (o, c) else none))

/-- Step windows that have ended take effect before what arrives now. -/
def Dev.collsLate (d : Dev) : Dev := d.fry.colls.foldl (fun (d : Dev) c => d.collTimeout c.op) d

/-- COLL_DATA (R307, R308). DESIGN CHOICE (log entry 53): a segment that the collective does not expect is counted in LATE_DISCARD, as R32 says
that every such discard is counted. -/
def Dev.collData (m : CollData) (d : Dev) : Dev :=
  let d := d.collsLate
  if m.ticket = 0 ∨ m.ticket ≠ d.ticket then d.count 0x50 2 1
  else match d.collOf m.collId m.dst with
    | none => d.count 0x50 1 1
    | some (o, c) =>
      if c.seen.contains (m.step, m.chunk, m.seg) then d.count 0x50 0 1
      else if !o.expects.contains (m.step, m.chunk) ∨ o.segNum m.chunk ≤ m.seg ∨ nth c.ranks (o.fromRank m.step) 0 % 512 ≠ m.src then d.count 0x50 1 1
      else
        let s : CSeg := { step := m.step, chunk := m.chunk, seg := m.seg, data := m.data, cmark := m.cmark }
        let d := d.setColl o.id (fun c => { c with
          stage := c.stage ++ [s], seen := c.seen ++ [(m.step, m.chunk, m.seg)], tails := c.tails ++ o.tailOf s })
        (d.collProgress o.id m.step).collGoOn o.id

/-- A collective of this package, running or aborting, bears a message's COLL_ID and landing. -/
def Dev.collKnown (d : Dev) (collId dst : Nat) : Bool :=
  d.fry.colls.any (fun c => (d.fop c.op).any (fun o => o.collId == collId && o.landing == some (dst % 4)))

/-- COLL_CREDIT (R308, R309). A credit for a collective that has not entered RUNNING here yet is kept until it does (R318; log entry 53). -/
def Dev.collCredit (m : CollCredit) (d : Dev) : Dev :=
  let d := d.collsLate
  match d.collOf m.collId m.dst with
  | none =>
    if m.dst / 4 ≠ d.node ∨ d.collKnown m.collId m.dst then d
    else { d with fry := { d.fry with early := d.fry.early ++ [m] } }
  | some (o, c) =>
    match (List.range o.collP).find? (fun r => nth c.ranks r 0 % 512 == m.src) with
    | none => d
    | some r =>
      if m.digest.any (fun g => g != [o.collOp, o.collRed, o.collP, o.collCount, o.wireFmt, o.segLog]) then
        (d.capture 0x50 .request sRights 0x11 0x3F o.collId).collFail o.id sRights
      else
        let left := fun (s : CSent) => !(s.peer == r && m.ack == some (s.s.step, s.s.chunk, s.s.seg))
        let acked := c.sent.filter (fun s => !left s)
        let d := d.setColl o.id (fun c => { c with credits := nset c.credits r (nget c.credits r + m.slots), sent := c.sent.filter left })
        let d := acked.foldl (fun (d : Dev) s => d.windowAnswer s.eng (m.src / 4) (max m.echo m.cmark) s.s.data.length) d
        (((d.collProgress o.id 0).collGoOn o.id).pumpSrc).collsGoOn

/-- The credits that came before the collective entered RUNNING reach it. -/
def Dev.collEarly (o : FOp) (d : Dev) : Dev :=
  let mine := fun (m : CollCredit) => m.collId == o.collId && o.landing == some (m.dst % 4)
  let l := d.fry.early.filter mine
  let d := { d with fry := { d.fry with early := d.fry.early.filter (fun m => !mine m) } }
  l.foldl (fun (d : Dev) m => if d.collKnown m.collId m.dst then d.collCredit m else d) d

/-- A collective enters RUNNING (R294, R301, R310). -/
def Pkg.collGo (o : FOp) (x : Pkg) : Pkg :=
  let d := x.2
  let hold := fun (r : Arr × Nat) => if bit o.collMask r.2 then { r.1 with heldBy := some o.id } else r.1
  let c : Coll := { op := o.id, ranks := d.rankEntries o, progressAt := d.tim.tide, window := d.rd F.COLL_CFG_STEP_TIMEOUT_US }
  let d' := { d with fry := { d.fry with colls := d.fry.colls ++ [c], arrs := d.fry.arrs.zipIdx.map hold } }
  match d.rankBad o with
  | some b => (x.1, (d'.capture 0x50 .request sRights 0x10 0x3F (b.1 + b.2 * 8)).collFail o.id sRights)
  | none =>
    let ask := fun (x : Pkg) (side : Nat) (runs : List (Nat × Nat)) (k : AKind) =>
      (rowPages runs).foldl (fun (x : Pkg) p => x.opPage o.id side (firstTouch runs p) k false) x
    let y : Pkg := (x.1, d')
    let y := if o.inLva then ask y 0 (o.inRuns 0 o.inLen) .read else y
    let y := if o.outLva then ask y 1 (o.outRuns 0 o.outLen) (if o.collAcc then .reduce else .write) else y
    (y.dev (Dev.collXlated o.id)).dev (Dev.collEarly o)

/-- COLL_SEGMENT_RETRY (R308): a segment not acknowledged within the request timeout is sent again. -/
def Dev.collRetry (op step chunk seg : Nat) (d : Dev) : Dev :=
  match d.fop op, d.coll op with
  | some o, some c =>
    match c.sent.find? (fun s => s.s.step == step && s.s.chunk == chunk && s.s.seg == seg) with
    | none => d
    | some s => if d.tim.tide < s.sentAt + us (d.rd F.RCV_CFG_REQ_TIMEOUT_US) ∨ d.braked then d else d.collResend o s
  | _, _ => d

/-- A bounced COLL_DATA frame with tags COLL_ID, step, chunk and segment (R307): the array sends that segment again at once, or where the
brake holds it, when that is released (R310): level 3 for its window (R427), BOUNCES one more than the bounce returned (R392). -/
def Dev.collBounce (h : Hdr) (t : Nat × Nat × Nat × Nat) (d : Dev) : Dev :=
  match d.fry.colls.findSome? (fun c => (d.fop c.op).bind (fun o =>
      if o.collId = t.1 then
        (c.sent.find? (fun s => s.eng == h.srcEngine && nth c.ranks s.peer 0 % 512 / 4 == h.dest && (s.s.step, s.s.chunk, s.s.seg) == t.2)).map
          (fun s => (o, s))
      else none)) with
  | none => d.count 0xC1 1 1
  | some (o, s) =>
    let g := { s with bounces := min 3 (h.bounces + 1) }
    let up := fun (t : CSent) => if t = s then g else t
    let d := (d.setColl o.id (fun c => { c with sent := c.sent.map up, again := c.again.map up })).windowAnswer s.eng h.dest 3 0
    if d.braked then d.setColl o.id (fun c => { c with again := c.again ++ (if c.again.contains g then [] else [g]) }) else d.collResend o g

/-- COLL_ABORT (R313, R315): forwarded once, to the neighbour it did not come from. In ALL_TO_ALL the neighbours are those of the ring too
(log entry 53). -/
def Dev.collAbortIn (m : CollAbort) (d : Dev) : Dev :=
  let d := d.collsLate
  match d.collOf m.collId m.dst with
  | none => d
  | some (o, c) =>
    let from_ := (List.range o.collP).find? (fun r => nth c.ranks r 0 % 512 == m.src)
    d.collAbort o.id (m.status, m.rank, m.step) false (o.neighbours.filter (fun r => some r != from_))

/-! ### Completion (R313, R317) -/

/-- A collective that has ended frees its arrays and slot. -/
def Dev.collFree (op : Nat) (d : Dev) : Dev :=
  let free := fun (r : Arr) => if r.heldBy = some op then { r with heldBy := none, lastRun := d.tim.tide } else r
  let stale := fun (m : CollCredit) => (d.fop op).any (fun o => o.collId == m.collId && o.landing == some (m.dst % 4))
  { d with fry := { d.fry with
      colls := d.fry.colls.filter (fun c => c.op != op), arrs := d.fry.arrs.map free, early := d.fry.early.filter (fun m => !stale m) } }.bump F.COLL_STAT_DONE_COUNT 1

/-- COLL_COMPLETE (R313): everything this rank owes is final and acknowledged. -/
def Dev.collComplete (op : Nat) (d : Dev) : Dev :=
  let d := d.collTimeout op
  match d.fop op, d.coll op with
  | some o, some c =>
    let all := o.owes.all c.final.contains
      && o.expects.all (fun q => (List.range (o.segNum q.2)).all (fun j => c.seen.contains (q.1, q.2, j)))
    if c.running ∧ c.abort.isNone ∧ all ∧ c.stage.isEmpty ∧ c.work.isEmpty ∧ c.ready.isEmpty ∧ c.sent.isEmpty ∧ !d.opBusy op then
      (d.collFree op).opEnded op sOk
    else d
  | _, _ => d

/-- Where page `page` of a context lies by the tables as they stand in this node's memory, read from step `st` on. -/
def Pkg.pageFrom (x : Pkg) (page : Nat) : Nat → XStep → Option Nat
  | _, .fault .. => none
  | 0, _ => none
  | n + 1, .read st gpa len =>
    if gpaNode gpa ≠ x.2.node ∨ !gpaOk gpa then none
    else
      let v := x.readData x.2.node .table 3 gpa len
      match st with
      | .pte .. => if bit (leNat v) 0 then some (bits (leNat v) 21 31) else none
      | st => x.pageFrom page n (x.2.afterRead page false (fun _ _ => true) st v)

/-- The page of GPAs behind a page of a context, as a translation would find it here. -/
def Pkg.pageAt (x : Pkg) (ctx page : Nat) : Option Nat :=
  match findT ctx page x.2.xlt.ftc with
  | some e => some e.gpaPage
  | none => x.pageFrom page 3 (x.2.atStart ctx page false (fun _ _ => true))

/-- OUT is undefined after a status other than OK (R316): what stands in this node's memory, translated for the collective or not. -/
def Pkg.collSpoil (o : FOp) (x : Pkg) : Pkg :=
  ((o.outRuns 0 o.outLen).flatMap (fun r => cut256 r.1 r.2)).foldl (fun (x : Pkg) p =>
    let g := match o.gpaOf 1 o.outLva p.1 with
      | some g => some g
      | none => (x.pageAt o.ctx (p.1 / 2 ^ 21)).map (fun q => gpaIn q p.1)
    match g with
    | some g => x.freePart o (if o.collAcc then .reduce else .write) { side := 1, addr := p.1, gpa := g, len := p.2 }
    | none => x) x

/-- Every access of an aborting collective has ended. -/
def Dev.collAborted (op : Nat) (d : Dev) : Dev :=
  match d.coll op with
  | none => d
  | some c => match c.abort with
    | none => d
    | some a =>
      if d.opBusy op then d
      else ((d.collFree op).setFop op (fun o => { o with stop := a.2.1 % 512 + a.2.2 % 1024 * 512 })).opEnded op a.1

/-- COLL_ABORT_DONE (R313, R316, R317): every access of an aborting collective has ended, and what it moved into OUT is undefined. -/
def Pkg.collAbortDone (op : Nat) (x : Pkg) : Pkg :=
  match x.2.coll op, x.2.fop op with
  | some c, some o => if c.abort.isNone ∨ x.2.opBusy op then x else (x.collSpoil o).dev (Dev.collAborted op)
  | _, _ => x

/-- BUMP (R313, R523): every collective aborts with TENANT_RETIRED. -/
def Dev.collRetire (d : Dev) : Dev :=
  let d := { d with fry := { d.fry with early := [] } }
  d.fry.colls.foldl (fun (d : Dev) c => d.collFail c.op sRetired) d

/-! ### The commands -/

/-- COLL_ABORT (R315). -/
def execCollAbort (m : CollAbort) (s : State) : Host.Outcome State Fault Refusal := onDev (Dev.ifRuns (Dev.collAbortIn m)) s

/-- COLL_SEGMENT_RETRY (R308). -/
def execCollSegmentRetry (op step chunk seg : Nat) (s : State) : Host.Outcome State Fault Refusal :=
  onDev (Dev.ifRuns (Dev.collRetry op step chunk seg)) s

/-- COLL_STEP_TIMEOUT (R314). -/
def execCollStepTimeout (op : Nat) (s : State) : Host.Outcome State Fault Refusal := onDev (Dev.ifRuns (Dev.collTimeout op)) s

/-- COLL_COMPLETE (R313). -/
def execCollComplete (op : Nat) (s : State) : Host.Outcome State Fault Refusal := onDev (Dev.ifRuns (Dev.collComplete op)) s

/-- COLL_ABORT_DONE (R313). -/
def execCollAbortDone (op : Nat) (s : State) : Host.Outcome State Fault Refusal := onPkg (Pkg.collAbortDone op) s

end Sys2Proof.Machine
end

