-- ==== Sys2Proof/Machine/Attn.lean ====
section
/-!
DEFINITION. Attention units (R320–R333): requests, groups, pages scored at their home, partial records.
-/
namespace Sys2Proof.Machine

/-! ### Descriptors (R320–R324, R329) -/

def FOp.qAddr (o : FOp) : Nat := o.fld 64 0 57
def FOp.qLva (o : FOp) : Bool := o.fld 64 57 1 == 1
def FOp.listAddr (o : FOp) : Nat := o.fld 72 0 57
def FOp.listLva (o : FOp) : Bool := o.fld 72 57 1 == 1
def FOp.pageGpa (o : FOp) : Bool := o.fld 72 58 1 == 1
def FOp.attnOut (o : FOp) : Nat := o.fld 80 0 57
def FOp.attnOutLva (o : FOp) : Bool := o.fld 80 57 1 == 1
def FOp.listCount (o : FOp) : Nat := o.fld 88 0 17
def FOp.nq (o : FOp) : Nat := o.fld 92 0 7
def FOp.headDim (o : FOp) : Nat := 64 * 2 ^ o.fld 93 0 2
def FOp.pageT (o : FOp) : Nat := 64 * 2 ^ o.fld 93 2 1
def FOp.byGroup (o : FOp) : Bool := o.fld 93 3 1 == 1
def FOp.qFmt (o : FOp) : Nat := o.fld 94 0 8
def FOp.kvFmt (o : FOp) : Nat := o.fld 95 0 8
def FOp.partFmt (o : FOp) : Nat := o.fld 96 0 8
def FOp.attnMask (o : FOp) : Nat := o.fld 98 0 16

/-- The fields of an attention descriptor. -/
def attnFields : List (Nat × Nat) :=
  headerFields ++ [(512, 58), (576, 59), (640, 58), (704, 17), (736, 7), (744, 4), (752, 8), (760, 8), (768, 8), (784, 16), (800, 32)]

/-- A descriptor that R322 and R324 allow. -/
def FOp.attnOk (o : FOp) : Bool :=
  reservedZero o.desc attnFields && o.attnOut % 256 == 0 && decide (1 ≤ o.listCount) && decide (o.listCount ≤ 65536)
    && decide (1 ≤ o.nq) && decide (o.nq ≤ 64) && o.fld 93 0 2 != 3 && o.attnMask != 0
    && fmtWordOk o.qFmt && !bit o.qFmt 4 && decide (o.qFmt % 16 ≤ 4)
    && fmtWordOk o.kvFmt && bit o.kvFmt 4 && [3, 4, 7].contains (o.kvFmt % 16)
    && fmtWordOk o.partFmt && !bit o.partFmt 4 && decide (o.partFmt % 16 ≤ 1)

/-- Record stride R (R329). -/
def FOp.recStride (o : FOp) : Nat := ceilDiv (16 + 8 * o.nq + o.nq * o.headDim * (fmtBits (o.partFmt % 16) / 8)) 256 * 256

/-- The array that issues the accesses of a request: the lowest of its mask. -/
def FOp.attnArray (o : FOp) : Nat := (maskArrays o.attnMask).headD 0

/-! ### The requesting unit (R325, R329, R330) -/

def Dev.attnReq (d : Dev) (op : Nat) : Option AttnReq := d.fry.attn.find? (fun a => a.op == op)

def Dev.setAttn (op : Nat) (f : AttnReq → AttnReq) (d : Dev) : Dev :=
  { d with fry := { d.fry with attn := mapFirst (fun a => a.op == op) f d.fry.attn } }

/-- A request of this package leaves RUNNING. -/
def Dev.attnEnd (op status : Nat) (d : Dev) : Dev :=
  ({ d with fry := { d.fry with attn := d.fry.attn.filter (fun a => a.op != op) } }.bump F.ATTN_STAT_DONE_COUNT 1).opEnded op status

/-- Bytes of the queries. -/
def FOp.qBytes (o : FOp) : Nat := o.nq * o.headDim * fmtBits (o.qFmt % 16) / 8

/-- The page list out of its bytes (R321, R323): an entry that breaks R321 fails with RIGHTS. -/
def FOp.entries (o : FOp) (v : List Byte) : List AttnEntry :=
  (List.range o.listCount).map (fun i =>
    let n := leNat (sliceBytes v (8 * i) 8)
    let a := if o.pageGpa then bits n 8 44 * 256 else bits n 8 49 * 256
    let whole := decide (a % 2 ^ 21 + kvPageBytes o.pageT o.headDim o.kvFmt ≤ 2 ^ 21)
    { addr := a, valid := bits n 0 8 + 1, gpa := if o.pageGpa then some a else none, fail := if whole then 0 else sRights })

/-- A list entry with a reserved bit set, or with VALID_M1 at or above T (R324). -/
def FOp.listBad (o : FOp) (v : List Byte) : Bool :=
  (List.range o.listCount).any (fun i => let n := leNat (sliceBytes v (8 * i) 8); bits n 57 7 != 0 || decide (o.pageT ≤ bits n 0 8))

/-- An attention request enters RUNNING, or is refused (R324, R325). -/
def Pkg.attnGo (o : FOp) (x : Pkg) : Pkg :=
  if !o.attnOk then x.dev (Dev.attnEnd o.id sRights)
  else
    let x := x.dev (fun d => { d with fry := { d.fry with attn := d.fry.attn ++ [{ op := o.id }] } })
    let ask := fun (x : Pkg) (side : Nat) (lva : Bool) (r : Nat × Nat) (k : AKind) =>
      if lva then (rowPages [r]).foldl (fun (x : Pkg) p => x.opPage o.id side (firstTouch [r] p) k false) x else x
    let x := ask x 0 o.qLva (o.qAddr, o.qBytes) .read
    let x := ask x 1 o.listLva (o.listAddr, 8 * o.listCount) .read
    ask x 2 o.attnOutLva (o.attnOut, 1) .write

/-- Records of a request whose entries are known (R325, R329): (home, list indexes) of each group in order; entries without
a GPA form groups of their own. -/
def attnGroups (es : List AttnEntry) : List (Option Nat × List Nat) :=
  let home := fun (e : AttnEntry) => e.gpa.map gpaNode
  let homes := (es.map home).reverse.dedup.reverse
  homes.flatMap (fun h =>
    let mine := (List.range es.length).filter (fun i => (es[i]?).any (fun e => home e == h))
    (List.range (ceilDiv mine.length 64)).map (fun k => (h, (mine.drop (64 * k)).take 64)))

/-- The records of a request: under GROUP one for each group, under PAGE one for each entry. An entry that has failed already fails its
record: alone at once, a group's once the rest of the group is back (R329). -/
def FOp.records (o : FOp) (es : List AttnEntry) : List AttnRec :=
  let gs := attnGroups es
  let failOf := fun (i : Nat) => ((es[i]?).map (·.fail)).getD 0
  if o.byGroup then
    gs.zipIdx.map (fun g =>
      let fails := (g.1.2.map failOf).filter (· != 0)
      let all := fails.length == g.1.2.length
      { grp := g.2, k := 0, first := g.1.2.headD 0, home := g.1.1, pages := g.1.2.length, status := if all then fails.min? else none
        fail := if all then none else fails.min? })
  else
    (List.range es.length).map (fun i =>
      let g := gs.findIdx (fun g => g.2.contains i)
      let good := ((nth gs g (none, [])).2).filter (fun j => failOf j == 0)
      { grp := g, k := good.findIdx (· == i), first := i, home := (nth gs g (none, [])).1, pages := 1
        status := if failOf i = 0 then none else some (failOf i) })

/-- A group is sent to its home (R325). -/
def Dev.attnSend (o : FOp) (q : FConv) (es : List AttnEntry) (grp : Nat) (home : Nat) (idx : List Nat) (d : Dev) : Dev :=
  let n := d.newId
  let pages := idx.filterMap (fun i => (es[i]?).bind (fun e => if e.fail = 0 then e.gpa.map (fun g => (g, e.valid)) else none))
  let m : AttnQuery := {
    src := d.node, op := o.id, grp := grp, node := home, ticket := o.ticket, landing := globalLanding d.node (o.landing.getD 0)
    t := o.pageT, d := o.headDim, kvFmt := o.kvFmt, group := o.byGroup, scale := o.fld 100 0 32, nq := o.nq
    elems := q.bytes, scales := q.scale, pages := pages }
  let a : Acc := {
    id := n.1, eng := 0x28 + o.attnArray, ctx := o.ctx, landing := o.landing.getD 0, ticket := o.ticket, kind := .read
    gpa := (pages.map (·.1)).headD 0, purpose := .attnGroup o.id grp }
  if pages.isEmpty then d
  else n.2.issue {
    acc := a, msg := .attnQuery home m, dest := home, tag := 0, man := none, bytes := q.bytes.length + q.scale.length, lines := [], firstAt := 0
    sentAt := 0, bounces := 0 }

/-- The bytes of a record (R329), its events and the draws so far: O is converted to PART_FMT, or copied where that is FP32 (R242); M, L and
O of one that is not OK are undefined, and so is its padding. -/
def FOp.recBytes (o : FOp) (r : AttnRec) (p : AttnPartial) (ctr : Nat) : List Byte × List Ev × Nat :=
  let head := natLE 16 (packBits [(4, p.status), (4, 0), (7, r.home.getD 0), (17, 0), (32, r.first), (32, r.pages)])
  let free := fun (k ctr : Nat) => (List.range k).map (fun i => BitVec.ofNat 8 (Config.freeNat (ctr + i)))
  if p.status ≠ sOk then (head ++ free (o.recStride - 16) ctr, [], ctr + o.recStride)
  else
    let v := convertVec (fmtWord 0) (fmtWord o.partFmt) p.o.length (p.o.flatMap (natLE 4)) [] ctr
    let body := head ++ (p.m ++ p.l).flatMap (natLE 4) ++ v.bytes
    (body ++ free (o.recStride - body.length) v.ctr, v.evs, v.ctr + o.recStride)

/-- Record `i` is written at its place (R329). -/
def Dev.recWrite (o : FOp) (i : Nat) (r : AttnRec) (p : AttnPartial) (d : Dev) : Dev :=
  let b := o.recBytes r p d.freeCtr
  (({ d with freeCtr := b.2.2 }).arrEvs o.attnArray b.2.1).xferGo o (0x28 + o.attnArray) (.attnRecord i) .write 0 0 (o.writes 2 o.attnOutLva (o.attnOut + i * o.recStride) b.1)

/-- A partial without sums, for a record that fails. -/
def failedPartial (op grp k status : Nat) : AttnPartial := { op := op, grp := grp, k := k, status := status, m := [], l := [], o := [] }

/-- OUT is translated too: the queries are converted once, the groups leave, and records that fail here are written (R325). -/
def Dev.attnSends (o : FOp) (d : Dev) : Dev :=
  match d.attnReq o.id with
  | none => d
  | some a =>
    let es := a.entries.getD []
    let q := encodeVals ⟨4, true, false, false⟩ (decodeVals (fmtWord o.qFmt) (o.nq * o.headDim) (a.q.getD []) []) d.freeCtr
    let d := ({ d with freeCtr := q.ctr }.arrEvs o.attnArray q.evs).setAttn o.id (fun a => { a with stage := 4 })
    let d := (attnGroups es).zipIdx.foldl (fun (d : Dev) g => match g.1.1 with
      | some h => d.attnSend o q es g.2 h g.1.2
      | none => d) d
    a.recs.zipIdx.foldl (fun (d : Dev) r => match r.1.status with
      | some st => d.recWrite o r.2 r.1 (failedPartial o.id r.1.grp r.1.k st)
      | none => d) d

/-- A request goes on as far as its translations and reads allow (R325): 0 bases translate, 1 queries and list are read,
2 pages translate, 3 the record area translates, 4 groups are out. -/
def Pkg.attnGoOn (op : Nat) (x : Pkg) : Pkg :=
  match x.2.fop op, x.2.attnReq op with
  | some o, some a =>
    let eng := 0x28 + o.attnArray
    let base := fun (p : OpPage) => decide (p.side ≤ 2) && p.bad
    if o.retired ∨ !o.xlated then x
    else if a.stage = 0 then
      if o.pages.any base then x.dev (Dev.attnEnd op (o.xltLow base))
      else x.dev (fun d =>
        ((d.setAttn op (fun a => { a with stage := 1 })).xferGo o eng (.attnIn false) .read 0 0 (o.parts 0 o.qLva o.qAddr o.qBytes)).xferGo
          o eng (.attnIn true) .read 0 0 (o.parts 1 o.listLva o.listAddr (8 * o.listCount)))
    else if a.stage = 2 then
      let fix := fun (e : AttnEntry) =>
        if o.pageGpa then e
        else match o.gpaOf 3 true e.addr with
          | some g => { e with gpa := some g }
          | none =>
            let st := o.xltLow (fun p => p.side == 3 && p.page == e.addr / 2 ^ 21)
            { e with fail := if e.fail = 0 then (if st = 16 then sFault else st) else e.fail }
      let es := (a.entries.getD []).map fix
      let recs := o.records es
      let r := (o.attnOut, recs.length * o.recStride)
      let x := x.dev (Dev.setAttn op (fun a => { a with stage := 3, entries := some es, recs := recs }))
      let x := if o.attnOutLva then (rowPages [r]).foldl (fun (x : Pkg) p => x.opPage op 2 (firstTouch [r] p) .write false) x else x
      match x.2.fop op with
      | some o => if o.xlated then (if o.pages.any base then x.dev (Dev.attnEnd op (o.xltLow base)) else x.dev (Dev.attnSends o)) else x
      | none => x
    else if a.stage = 3 then
      if o.pages.any base then x.dev (Dev.attnEnd op (o.xltLow base)) else x.dev (Dev.attnSends o)
    else x
  | _, _ => x

/-- The queries or the list have been read (R324, R325). -/
def Pkg.attnRead (xf : Xfer) (list : Bool) (x : Pkg) : Pkg :=
  let op := xf.op
  match x.2.fop op, x.2.attnReq op with
  | some o, some a =>
    if o.retired then x
    else if xf.low ≠ 16 then x.dev (Dev.attnEnd op xf.low)
    else if list ∧ o.listBad xf.data then x.dev (Dev.attnEnd op sRights)
    else
      let a := if list then { a with entries := some (o.entries xf.data) } else { a with q := some xf.data }
      let x := x.dev (Dev.setAttn op (fun _ => a))
      if a.q.isNone ∨ a.entries.isNone then x
      else
        let x := x.dev (Dev.setAttn op (fun a => { a with stage := 2 }))
        let es := if o.pageGpa then [] else a.entries.getD []
        (es.foldl (fun (x : Pkg) e => x.opPage op 3 e.addr .read false) x).attnGoOn op
  | _, _ => x

/-- A partial, or the end of a group without an answer, gives records their status (R329, R331). -/
def Dev.attnPlace (o : FOp) (i : Nat) (p : AttnPartial) (d : Dev) : Dev :=
  match (d.attnReq o.id).bind (fun a => a.recs[i]?) with
  | none => d
  | some r =>
    let p := match r.fail with
      | some f => { p with status := if p.status = sOk then f else min f p.status }
      | none => p
    let d := d.setAttn o.id (fun a => { a with recs := modAt (fun r => { r with status := some p.status }) a.recs i })
    if o.retired then d else d.recWrite o i r p

/-- The request to a home is over once every record of the group has its status. -/
def Dev.attnGroupOver (op grp : Nat) (d : Dev) : Dev :=
  match d.attnReq op with
  | none => d
  | some a =>
    if a.recs.any (fun r => r.grp == grp && r.status.isNone) then d
    else match d.src.reqs.find? (fun q => q.acc.purpose == .attnGroup op grp) with
      | some q => ((d.endOut q 1).fenceNote q.acc sOk).pumpSrc
      | none => d

/-- The window of a group's array after a partial of the group: the last one acknowledges the group's bytes (R427, R428). -/
def Dev.attnWindow (p : AttnPartial) (d : Dev) : Dev :=
  match d.src.reqs.find? (fun q => q.acc.purpose == .attnGroup p.op p.grp) with
  | none => d
  | some q =>
    let last := !((d.attnReq p.op).any (fun a => a.recs.any (fun r => r.grp == p.grp && r.status.isNone)))
    d.windowAnswer q.acc.eng q.dest (max p.echo p.cmark) (if last then q.bytes else 0)

/-- ATTN_PARTIAL (R329): placed by request and record; a repeated one is discarded, and so is one that comes at the end of its group's request
timeout or after it (R485). -/
def Dev.attnPartial (p : AttnPartial) (d : Dev) : Dev :=
  match d.fop p.op, d.attnReq p.op with
  | some o, some a =>
    match a.recs.findIdx? (fun r => r.grp == p.grp && (o.byGroup || r.k == p.k) && r.status.isNone) with
    | some i =>
      if (d.src.reqs.find? (fun q => q.acc.purpose == .attnGroup p.op p.grp)).any d.expired then d.count 0xC1 1 1
      else (((d.attnPlace o i p).attnWindow p).attnGroupOver p.op p.grp).collsGoOn
    | none => d.count 0x51 2 1
  | _, _ => d.count 0x51 2 1

/-- A group whose home does not answer (R331). -/
def Dev.attnLost (op grp status : Nat) (d : Dev) : Dev :=
  match d.fop op, d.attnReq op with
  | some o, some a =>
    a.recs.zipIdx.foldl (fun (d : Dev) (r : AttnRec × Nat) =>
      if r.1.grp = grp ∧ r.1.status.isNone then d.attnPlace o r.2 (failedPartial op grp r.1.k status) else d) d
  | _, _ => d

/-- A record's write has its answer. -/
def Dev.attnWritten (xf : Xfer) (i : Nat) (d : Dev) : Dev :=
  let ok := xf.low == 16
  let d := d.setAttn xf.op (fun a => { a with
    recs := modAt (fun r => { r with written := ok }) a.recs i, low := if ok then a.low else min a.low xf.low })
  if ok then d.count 0x51 1 1 else d

/-- Status of a request (R116, R330). -/
def AttnReq.status (a : AttnReq) : Nat :=
  let fails := a.recs.filterMap (fun r => r.status.bind (fun s => if s = sOk then none else some s))
  let home := (fails.filter (· != sFault)) ++ (if a.low = 16 then [] else [a.low])
  match home.min? with
  | some s => s
  | none => if fails.isEmpty then sOk else if fails.length = a.recs.length then sFault else sPartial

/-- ATTN_COMPLETE (R330): every record is written and acknowledged. -/
def Dev.attnComplete (op : Nat) (d : Dev) : Dev :=
  match d.fop op, d.attnReq op with
  | some o, some a =>
    if (o.retired ∨ (a.stage = 4 ∧ a.recs.all (fun r => r.status.isSome))) ∧ !d.opBusy op then
      (d.setFop op (fun o => { o with result := (a.recs.filter (·.written)).length })).attnEnd op a.status
    else d
  | _, _ => d

/-! ### Scores (R327) -/

/-- The value of K (or V) element `i` of position `t` of a page (R320). -/
def kvVal (q : AttnQuery) (page : List Byte) (v : Bool) (t i : Nat) : XVal :=
  let e := kvElemBytes q.t q.d q.kvFmt
  let base := if v then e + kvScaleBytes q.t q.d else 0
  let w := fmtBits (q.kvFmt % 16)
  let k := t * q.d + i
  let c := bits ((page[base + k * w / 8]?).getD 0).toNat (k * w % 8) w
  mxValue (q.kvFmt % 16) ((page[base + e + k / 32]?).getD 0).toNat c

/-- The value of element `j` of query row `i`. -/
def queryVal (q : AttnQuery) (i j : Nat) : XVal :=
  let k := i * q.d + j
  mxValue 4 ((q.scales[k / 32]?).getD 0).toNat ((q.elems[k]?).getD 0).toNat

/-- FP32 sum of blocks of 32 products, each block exact and added with one rounding (R248). -/
def dotBlocks (n : Nat) (a b : Nat → XVal) : Nat × List Ev :=
  (List.range (ceilDiv n 32)).foldl (fun (q : Nat × List Ev) k =>
    let r := macStep false {} q.1 0 ((List.range (min 32 (n - 32 * k))).map (fun i => (some (a (32 * k + i)), some (b (32 * k + i)))))
    (r.code, q.2 ++ r.evs)) (0, [])

/-- One query row's partial of a page (R327): m, l, the D values of o, events, draws so far. -/
structure RowPart where
  m : Nat
  l : Nat
  o : List Nat
  evs : List Ev
  ctr : Nat
  deriving DecidableEq, Repr

/-- −∞ as an FP32 code. -/
def fp32NegInf : Nat := 0xFF800000

/-- The weights e^(s − m) of scores: masked positions give +0. -/
def weights (valid m : Nat) (ss : List Nat) (ctr : Nat) : List Nat × List Ev × Nat :=
  ss.zipIdx.foldl (fun (q : List Nat × List Ev × Nat) s =>
    if valid ≤ s.2 then (q.1 ++ [0], q.2)
    else
      let x := fp32Add s.1 (fp32.value m).negate
      let e := expCode x.1 q.2.2
      (q.1 ++ [e.code], q.2.1 ++ x.2 ++ e.evs, e.ctr)) ([], [], ctr)

/-- The sum of weights: the tree of ROWRED over each 64 positions, added in order. -/
def weightSum (ps : List Nat) : Nat × List Ev :=
  (List.range (ceilDiv ps.length 64)).foldl (fun (q : Nat × List Ev) k =>
    let r := rowReduce false false ((ps.drop (64 * k)).take 64) 0
    if k = 0 then (r.code, r.evs) else let a := fp32Add q.1 (fp32.value r.code); (a.1, q.2 ++ r.evs ++ a.2)) (0, [])

/-- Row `i` of a query against a page of `valid` positions (R327): the events are those of the arithmetic (R255); a NaN in the query or in
the page makes m, l and o NaN. -/
def scoreRow (q : AttnQuery) (page : List Byte) (valid i ctr : Nat) : RowPart :=
  let kNaN := (List.range valid).any (fun t => (List.range q.d).any (fun j => (kvVal q page false t j).isNaN || (kvVal q page true t j).isNaN))
  let qNaN := (List.range q.d).any (fun j => (queryVal q i j).isNaN)
  let ss := (List.range q.t).map (fun t =>
    if valid ≤ t then (fp32NegInf, [])
    else
      let p := dotBlocks q.d (queryVal q i) (kvVal q page false t)
      let s := fp32Mul p.1 (fp32.value q.scale)
      (s.1, p.2 ++ s.2))
  let mx := (ss.map (·.1)).foldl (fun (a : Conv) s => maxCode false a.code s a.ctr) ⟨fp32NegInf, [], ctr⟩
  let ps := weights valid mx.code (ss.map (·.1)) mx.ctr
  let l := weightSum ps.1
  let enc := encodeVals ⟨4, true, false, false⟩ (ps.1.map fp32.value) ps.2.2
  let pv := decodeVals ⟨4, true, false, false⟩ q.t enc.bytes enc.scale
  let os := (List.range q.d).map (fun j =>
    dotBlocks q.t (fun t => nth pv t .nan) (fun t => if valid ≤ t then .fin false 0 0 else kvVal q page true t j))
  let fix := fun (c : Nat) => if kNaN || qNaN then fp32.nan else c
  ⟨fix mx.code, fix l.1, os.map (fun o => fix o.1), ss.flatMap (·.2) ++ ps.2.1 ++ l.2 ++ enc.evs ++ os.flatMap (·.2), enc.ctr⟩

/-- The partial of a page, its events and the draws so far. -/
def scorePage (q : AttnQuery) (page : List Byte) (valid ctr : Nat) : Partial × List Ev × Nat :=
  (List.range q.nq).foldl (fun (a : Partial × List Ev × Nat) i =>
    let r := scoreRow q page valid i a.2.2
    (⟨a.1.m ++ [r.m], a.1.l ++ [r.l], a.1.o ++ r.o⟩, a.2.1 ++ r.evs, r.ctr)) (⟨[], [], []⟩, [], ctr)

/-- Two partials merged (R328): `d` values of o for each row. -/
def mergePartials (d : Nat) (p q : Partial) (ctr : Nat) : Partial × List Ev × Nat :=
  (List.range p.m.length).foldl (fun (a : Partial × List Ev × Nat) i =>
    let mx := maxCode false (nth p.m i 0) (nth q.m i 0) a.2.2
    let down := fun (m ctr : Nat) => let x := fp32Add m (fp32.value mx.code).negate; (expCode x.1 ctr, x.2)
    let e := down (nth p.m i 0) mx.ctr
    let f := down (nth q.m i 0) e.1.ctr
    let both := fun (x y : Nat) =>
      let u := fp32Mul x (fp32.value e.1.code)
      let v := fp32Mul y (fp32.value f.1.code)
      let s := fp32Add u.1 (fp32.value v.1)
      (s.1, u.2 ++ v.2 ++ s.2)
    let l := both (nth p.l i 0) (nth q.l i 0)
    let os := (List.range d).map (fun j => both (nth p.o (i * d + j) 0) (nth q.o (i * d + j) 0))
    (⟨a.1.m ++ [mx.code], a.1.l ++ [l.1], a.1.o ++ os.map (·.1)⟩,
      a.2.1 ++ e.2 ++ e.1.evs ++ f.2 ++ f.1.evs ++ l.2 ++ os.flatMap (·.2), f.1.ctr)) (⟨[], [], []⟩, [], ctr)

/-! ### The home (R326, R328, R333) -/

/-- Page `k` of a group starts on the reconstruction of the lines that need it: all of a lost member's, else those found bad (R172, R210,
R221, R331). -/
def Pkg.attnRecon (g : ServeGroup) (k gpa len st : Nat) (x : Pkg) : Pkg :=
  let n := g.q.node
  let ws := (linesOf gpa len).map (fun l =>
    let key := (x.lineKey st l).getD (none, false)
    let w := LineW.mk l (x.2.physOf n l) key.1 key.2 [] none
    { w with old := if x.2.stands n || w.phys.any (fun q => x.2.lineErr q == 2) then none else some ((w.phys.map x.cipher).getD []) })
  let r : Req := { hdr := queryHdr g.q, opd := { addr := gpa }, data := [] }
  let o := { blankOp n r .read 0 gpa len (gpaExt gpa) with kind := .attn g.q.src g.q.op g.q.grp k, counted := false, ws := ws }
  (x.dev (Dev.setServe g.q.src g.q.op g.q.grp (fun g => { g with waiting := g.waiting ++ [k] }))).reconOp o

/-- Page `k` of a group is scored out of its bytes by array `a` (R327, R328). -/
def Dev.attnScore (g : ServeGroup) (k a valid : Nat) (page : List Byte) (d : Dev) : Dev :=
  let r := scorePage g.q page valid d.freeCtr
  let m := match g.arrs.find? (fun p => p.1 == a) with
    | some p => if g.q.group then mergePartials g.q.d p.2 r.1 r.2.2 else (r.1, [], r.2.2)
    | none => (r.1, [], r.2.2)
  let add := fun (g : ServeGroup) =>
    if g.q.group then { g with scored := g.scored ++ [k], arrs := g.arrs.filter (fun p => p.1 != a) ++ [(a, m.1)] }
    else { g with scored := g.scored ++ [k], pages := g.pages ++ [(k, r.1)] }
  (({ d with freeCtr := m.2.2 }).arrEvs a (r.2.1 ++ m.2.1)).setServe g.q.src g.q.op g.q.grp add

/-- What page `k` of a group waits behind at its home: the page, and the accesses admitted before it (R128). -/
def Dev.pageItem (src op grp k : Nat) (d : Dev) : Option (List HItem × HItem) :=
  let mine := fun (i : HItem) => match i with
    | .page s o g j .. => s == src && o == op && g == grp && j == k
    | _ => false
  (d.home.queue.find? mine).map (fun i => (d.home.queue.takeWhile (fun j => !mine j), i))

/-- ATTN_PAGE_SERVED (R326–R328, R333): page `k` of a group is read and scored by array `a`, whose turn it is, behind the writes serialised
before it (R128). Lines listed have taken an error. A page of a lost member, or of a bulk-class region with a bad line, is scored once its
lines are reconstructed (R172, R210, R221, R331); any other bad line fails it (R264). -/
def Pkg.attnPage (src op grp k a : Nat) (near bulk : List LineMedia) (x : Pkg) : Pkg :=
  match x.2.serveOf src op grp with
  | none => x
  | some g =>
    match g.q.pages[k]?, g.status[k]? with
    | some (gpa, valid), some 0 =>
      let n := g.q.node
      let len := queryPageBytes g.q
      let here := (linesOf gpa len).filterMap (x.2.physOf n)
      let st := (x.extOf n (gpaExt gpa)).state
      let parity := (x.2.protOf n (gpaExt gpa)).mode == 1
      let item := x.2.pageItem src op grp k
      if g.scored.contains k ∨ g.waiting.contains k ∨ !bit (x.2.rd F.ATTN_CFG_SERVE_MASK) a ∨ !x.2.arrFree a ∨ !x.2.arrTurn g.seq a
          ∨ item.any (fun i => x.2.itemWaits i.1 i.2) then x
      else
        let run := fun (d : Dev) => (d.count 0x51 0 1).setArr a (fun r => { r with lastRun := d.tim.tide })
        let x := x.dev (fun d => { d with home := { d.home with queue := d.home.queue.filter (fun i => some i != item.map (·.2)) } })
        let y : Pkg := match g.rebuilt.find? (fun p => p.1 == k) with
          | some p => x.dev (fun d => (run d).attnScore g k a valid p.2)
          | none =>
            if x.2.stands n && parity then x.attnRecon g k gpa len st
            else
              let e := x.2.readLines here (near ++ bulk)
              let hit := e.badLines here
              let y : Pkg := (x.1, hit.foldl (fun (d : Dev) l => d.mediaBad l 0) e)
              if hit.isEmpty then (x.1, (run e).attnScore g k a valid (x.readData n .spanRead st gpa len))
              else if parity && !x.2.stands n then y.attnRecon g k gpa len st
              else y.dev (fun d => (run d).setServe src op grp
                (fun g => { g with scored := g.scored ++ [k], status := modAt (fun _ => sDataError) g.status k }))
        y.pump
    | _, _ => x

/-- A list in a free order. -/
def freeOrder {α : Type} : Nat → List α → Nat → List α
  | 0, l, _ => l
  | n + 1, l, ctr => match l with
    | [] => []
    | y :: ys =>
      let i := Config.freeNat ctr % l.length
      nth l i y :: freeOrder n ((y :: ys).eraseIdx i) (ctr + 1)

/-- ATTN_GROUP_DONE (R326, R328, R329): every page is scored; the partials are handed on and the extents released. -/
def Dev.attnGroupDone (src op grp : Nat) (d : Dev) : Dev :=
  match d.serveOf src op grp with
  | none => d
  | some g =>
    let ks := List.range g.q.pages.length
    let ok := fun (k : Nat) => nth g.status k 0 == sOk
    if ks.any (fun k => ok k && !g.scored.contains k) then d
    else
      let admitted := ks.filter (fun k => ok k || nth g.status k 0 == sDataError)
      let d := admitted.foldl (fun (d : Dev) k => d.inflSub g.q.node (gpaExt ((g.q.pages[k]?).map (·.1) |>.getD 0))) d
      let d := { d with fry := { d.fry with serve := d.fry.serve.filter (fun h => !(h.q.src == src && h.q.op == op && h.q.grp == grp)) } }
      let send := fun (d : Dev) (k st : Nat) (p : Partial) =>
        d.emitTo src (.attnPartial src { op := op, grp := grp, k := k, status := st, m := p.m, l := p.l, o := p.o, echo := g.q.cmark })
      if g.q.group then
        match (g.status.filter (· != sOk)).min? with
        | some st => send d 0 st ⟨[], [], []⟩
        | none =>
          let l := freeOrder g.arrs.length g.arrs d.freeCtr
          let r := match l with
            | [] => ((⟨[], [], []⟩ : Partial), [], d.freeCtr + g.arrs.length)
            | p :: ps => ps.foldl (fun (q : Partial × List Ev × Nat) (p : Nat × Partial) =>
                let m := mergePartials g.q.d q.1 p.2 q.2.2
                (m.1, q.2.1 ++ m.2.1, m.2.2)) (p.2, [], d.freeCtr + g.arrs.length)
          let a := (l.head?.map (·.1)).getD 0
          send (({ d with freeCtr := r.2.2 }).arrEvs a r.2.1) 0 sOk r.1
      else ks.foldl (fun (d : Dev) k =>
        send d k (nth g.status k 0) (((g.pages.find? (fun p => p.1 == k)).map (·.2)).getD ⟨[], [], []⟩)) d

/-! ### The commands -/

/-- ATTN_QUERY (R326). -/
def execAttnQuery (q : AttnQuery) (s : State) : Host.Outcome State Fault Refusal := onPkg (Pkg.attnQuery q) s

/-- ATTN_PAGE_SERVED (R326, R327). -/
def execAttnPageServed (src op grp k : Nat) (a : Fin 16) (near bulk : List LineMedia) (s : State) : Host.Outcome State Fault Refusal :=
  onHome (Pkg.attnPage src op grp k a near bulk) s

/-- ATTN_GROUP_DONE (R328, R329). -/
def execAttnGroupDone (src op grp : Nat) (s : State) : Host.Outcome State Fault Refusal :=
  onHome (Pkg.dev (Dev.attnGroupDone src op grp)) s

/-- ATTN_COMPLETE (R330). -/
def execAttnComplete (op : Nat) (s : State) : Host.Outcome State Fault Refusal := onDev (Dev.ifRuns (Dev.attnComplete op)) s

end Sys2Proof.Machine
end

