-- ==== Sys2Proof/Machine/Disp.lean ====
section
/-!
DEFINITION. Dispatch units (R334–R345): expert tables, routing, gates, slots, re-routes and spills, route entries.
-/
namespace Sys2Proof.Machine

/-! ### Descriptors (R334–R337) -/

def FOp.tokens (o : FOp) : Nat := o.fld 104 0 17
def FOp.hidden (o : FOp) : Nat := o.fld 108 0 15
def FOp.experts (o : FOp) : Nat := o.fld 110 0 11
def FOp.choices (o : FOp) : Nat := o.fld 112 0 4
def FOp.rerouteMax (o : FOp) : Nat := o.fld 112 4 4
def FOp.policy (o : FOp) : Nat := o.fld 113 0 2
def FOp.gateMode (o : FOp) : Nat := o.fld 113 2 2
def FOp.tokenFmt (o : FOp) : Nat := o.fld 114 0 8
def FOp.gateFmt (o : FOp) : Nat := o.fld 115 0 8
def FOp.sendFmt (o : FOp) : Nat := o.fld 116 0 8
def FOp.dispMask (o : FOp) : Nat := o.fld 124 0 16
def FOp.tokenStride (o : FOp) : Nat := o.fld 128 0 32
def FOp.biasOn (o : FOp) : Bool := o.fld 80 58 1 == 1

/-- Address of area `i`, and whether it is a landing virtual address: 0 tokens, 1 router weights, 2 biases, 3 expert table,
4 route entries. -/
def FOp.area (o : FOp) (i : Nat) : Nat × Bool := (o.fld (64 + 8 * i) 0 57, o.fld (64 + 8 * i) 57 1 == 1)

/-- The fields of a dispatch descriptor. -/
def dispFields : List (Nat × Nat) :=
  headerFields ++ [(512, 58), (576, 58), (640, 59), (704, 58), (768, 58), (832, 17), (864, 15), (880, 11), (896, 4), (900, 4), (904, 2),
    (906, 2), (912, 8), (920, 8), (928, 8), (960, 32), (992, 16), (1024, 32)]

/-- A descriptor that R336 and R337 allow, as far as it shows by itself. -/
def FOp.dispOk (o : FOp) : Bool :=
  reservedZero o.desc dispFields && decide (1 ≤ o.tokens) && decide (o.tokens ≤ 65536)
    && decide (64 ≤ o.hidden) && decide (o.hidden ≤ 16384) && o.hidden % 64 == 0
    && decide (2 ≤ o.experts) && decide (o.experts ≤ 1024) && decide (1 ≤ o.choices) && decide (o.choices ≤ 8)
    && decide (1 ≤ o.rerouteMax) && decide (o.rerouteMax ≤ 8) && o.policy != 3 && o.gateMode != 3
    && fmtWordOk o.tokenFmt && fmtWordOk o.gateFmt && fmtWordOk o.sendFmt && !bit o.tokenFmt 4 && !bit o.gateFmt 4
    && (pairOf (fmtWord o.tokenFmt) (fmtWord o.gateFmt)).isSome && o.dispMask != 0

/-- Bytes of a row of router weights: padded to a multiple of 256 (R336). -/
def FOp.gateStride (o : FOp) : Nat := ceilDiv (ceilDiv (o.experts * fmtBits (o.gateFmt % 16)) 8) 256 * 256

/-- The byte runs of an area. -/
def FOp.areaRuns (o : FOp) (i : Nat) : List (Nat × Nat) :=
  let a := (o.area i).1
  match i with
  | 0 => (List.range o.tokens).map (fun n => (a + n * o.tokenStride, o.hidden * fmtBits (o.tokenFmt % 16) / 8))
  | 1 => [(a, o.hidden * o.gateStride)]
  | 2 => if o.biasOn then [(a, 4 * o.experts)] else []
  | 3 => [(a, 32 * o.experts)]
  | _ => [(a, o.tokens * o.choices * 16)]

/-- Bytes of a token row as it is sent: elements, then scales (R335). -/
def FOp.sendElems (o : FOp) : Nat := o.hidden * fmtBits (o.sendFmt % 16) / 8

/-- Slot stride (R335). -/
def FOp.slotStride (o : FOp) : Nat := ceilDiv (64 + o.sendElems + (if bit o.sendFmt 4 then o.hidden / 32 else 0)) 256 * 256

/-- A field of entry `x` of the expert table (R334). -/
def expertField (table : List Byte) (x b w : Nat) : Nat := bits (leNat (sliceBytes table (32 * x + b) 8)) 0 w

def expertQueue (t : List Byte) (x : Nat) : Nat := expertField t x 0 52
def expertTail (t : List Byte) (x : Nat) : Nat := expertField t x 8 52
def expertCap (t : List Byte) (x : Nat) : Nat := expertField t x 16 32
def expertSpillCap (t : List Byte) (x : Nat) : Nat := expertField t x 20 32
def expertSpill (t : List Byte) (x : Nat) : Nat := expertField t x 24 52

/-- Experts with a CAPACITY above 0. -/
def FOp.enabled (o : FOp) (t : List Byte) : List Nat := (List.range o.experts).filter (fun x => expertCap t x != 0)

/-- The array that issues the accesses of a dispatch: the lowest of its mask. -/
def FOp.dispArray (o : FOp) : Nat := (maskArrays o.dispMask).headD 0

/-! ### The unit's state -/

def Dev.dispReq (d : Dev) (op : Nat) : Option DispReq := d.fry.disp.find? (fun a => a.op == op)

def Dev.setDisp (op : Nat) (f : DispReq → DispReq) (d : Dev) : Dev :=
  { d with fry := { d.fry with disp := mapFirst (fun a => a.op == op) f d.fry.disp } }

/-- A dispatch leaves RUNNING: its span accesses end. -/
def Dev.dispEnd (op status : Nat) (d : Dev) : Dev :=
  let spans := ((d.dispReq op).map (·.spans)).getD []
  ((({ d with fry := { d.fry with disp := d.fry.disp.filter (fun a => a.op != op) } }).spansEnd spans).bump F.DISP_STAT_DONE_COUNT 1).opEnded
    op status

/-- A dispatch enters RUNNING, or is refused (R337): every page of its areas is translated. -/
def Pkg.dispGo (o : FOp) (x : Pkg) : Pkg :=
  if !o.dispOk then x.dev (Dev.dispEnd o.id sRights)
  else
    let x := x.dev (fun d => { d with fry := { d.fry with disp := d.fry.disp ++ [{ op := o.id }] } })
    [0, 1, 2, 3, 4].foldl (fun (x : Pkg) i =>
      if (o.area i).2 then
        (rowPages (o.areaRuns i)).foldl (fun (x : Pkg) p => x.opPage o.id i (firstTouch (o.areaRuns i) p) (if i = 4 then .write else .read) false) x
      else x) x

/-- The extents of the router weights; none where they leave the local near tier (R337). -/
def Dev.gateSpans (o : FOp) (d : Dev) : Option (List Nat) :=
  let ps := (o.areaRuns 1).flatMap (o.gpaRuns 1 (o.area 1).2)
  if ps.any (fun p => gpaNode p.1 != d.node || !bit p.1 44) then none
  else some (((ps.flatMap (fun p => [gpaExt p.1, gpaExt (p.1 + p.2 - 1)])).dedup).mergeSort)

/-- Area `i` of a dispatch is read. -/
def Dev.dispAsk (o : FOp) (i : Nat) (d : Dev) : Dev :=
  d.xferGo o (0x28 + o.dispArray) (.dispIn i) .read 0 0 ((o.areaRuns i).flatMap (fun (p : Nat × Nat) => o.parts i (o.area i).2 p.1 p.2))

/-- The translations of a dispatch are made (R337): its expert table and biases are read, before any other access. -/
def Pkg.dispGoOn (op : Nat) (x : Pkg) : Pkg :=
  match x.2.fop op, x.2.dispReq op with
  | some o, some a =>
    if o.retired ∨ !o.xlated ∨ a.stage ≠ 0 then x
    else if o.pages.any OpPage.bad then x.dev (Dev.dispEnd op (o.xltLow OpPage.bad))
    else if (x.2.gateSpans o).isNone then x.dev (Dev.dispEnd op sRights)
    else
      let x := x.dev (Dev.setDisp op (fun a => { a with stage := 1, bias := if o.biasOn then none else some [] }))
      let x := x.dev (Dev.dispAsk o 3)
      if o.biasOn then x.dev (Dev.dispAsk o 2) else x
  | _, _ => x

/-- The table and the biases are there (R337, R338): with K enabled experts the router weights are admitted as spans, once the home has room
for them (R179), and the token rows read. -/
def Pkg.dispStart (o : FOp) (table : List Byte) (x : Pkg) : Pkg :=
  if (o.enabled table).length < o.choices then x.dev (Dev.dispEnd o.id sRights)
  else match x.2.gateSpans o with
    | none => x.dev (Dev.dispEnd o.id sRights)
    | some ks =>
      if !x.2.spansFit ks then x.dev (Dev.setDisp o.id (fun a => { a with stage := 4 }))
      else
      let r := x.spanAccess o ks
      let y := r.2.2.dev (Dev.setDisp o.id (fun a => { a with spans := r.2.1, stage := 1 }))
      if r.1 ≠ sOk then y.dev (Dev.dispEnd o.id r.1) else y.dev (Dev.dispAsk o 0)

/-- A dispatch whose spans waited for room at the home goes on. -/
def Pkg.dispStep (x : Pkg) : Option Pkg :=
  x.2.fry.disp.findSome? (fun a => match x.2.fop a.op with
    | some o =>
      if a.stage = 4 ∧ !o.retired ∧ (x.2.gateSpans o).all (fun ks => x.2.spansFit ks) then
        some (x.dispStart o (a.table.getD []))
      else none
    | none => none)

/-- An area has been read (R337). -/
def Pkg.dispRead (xf : Xfer) (area : Nat) (x : Pkg) : Pkg :=
  let op := xf.op
  match x.2.fop op, x.2.dispReq op with
  | some o, some a =>
    if o.retired then x
    else if xf.low ≠ 16 then x.dev (Dev.dispEnd op xf.low)
    else match area with
      | 0 => x.dev (fun d => (d.setDisp op (fun a => { a with tokens := some xf.data, stage := 2 })).askPair o.dispMask)
      | _ =>
        let a := if area = 3 then { a with table := some xf.data } else { a with bias := some xf.data }
        let x := x.dev (Dev.setDisp op (fun _ => a))
        if a.table.isNone ∨ a.bias.isNone then x else x.dispStart o (a.table.getD [])
  | _, _ => x

/-! ### Routing (R338, R339) -/

/-- The logit of a token and an expert: FP32 over H, one rounding a handshake; none where a line of the weights is bad. -/
def Pkg.logit (o : FOp) (tokens : List Byte) (bad : List Nat) (n x : Nat) (p : Pkg) : Option (Nat × List Ev) :=
  let tw := fmtBits (o.tokenFmt % 16)
  let gw := fmtBits (o.gateFmt % 16)
  let per := ((pairOf (fmtWord o.tokenFmt) (fmtWord o.gateFmt)).map (·.1)).getD 1
  let row := sliceBytes tokens (n * (o.hidden * tw / 8)) (o.hidden * tw / 8)
  let tv := fun (h : Nat) => elemValue (o.tokenFmt % 16) (bits (leNat (sliceBytes row (h * tw / 8) 5)) (h * tw % 8) tw)
  let run := fun (h : Nat) => ((o.area 1).1 + h * o.gateStride + x * gw / 8, (x * gw % 8 + gw + 7) / 8)
  let gv := fun (h : Nat) => elemValue (o.gateFmt % 16) (bits (leNat (p.spanRead o 1 (o.area 1).2 (run h).1 (run h).2)) (x * gw % 8) gw)
  if (List.range o.hidden).any (fun h => (o.runLines 1 (o.area 1).2 (run h)).any bad.contains) then none
  else some ((List.range (ceilDiv o.hidden per)).foldl (fun (q : Nat × List Ev) g =>
    let r := macStep false {} q.1 0 ((List.range per).map (fun i => (some (tv (g * per + i)), some (gv (g * per + i)))))
    (r.code, q.2 ++ r.evs)) (0, []))

/-- Whether key `p` ranks below key `q` (R338): NaN below every number. -/
def keyBelow (p q : Nat) : Bool :=
  let a := fp32.value p
  let b := fp32.value q
  if a.isNaN then !b.isNaN else a.lt b

/-- Experts with their keys in rank order: of equal keys the lower number first. -/
def rankExperts (l : List (Nat × Nat)) : List Nat := (l.mergeSort (fun p q => !keyBelow p.2 q.2)).map (·.1)

/-- The gates of `zs` over the logits `all` (R339): e^(z − zmax) times the reciprocal of the sum, whose order is free. -/
def softGates (zs all : List Nat) (ctr : Nat) : List Nat × List Ev × Nat :=
  let mx := all.foldl (fun (a : Nat) z => if keyBelow a z then z else a) (all.headD 0)
  let exps := fun (l : List Nat) (ctr : Nat) => l.foldl (fun (q : List (Nat × Nat) × List Ev × Nat) z =>
    let x := fp32Add z (fp32.value mx).negate
    let e := expCode x.1 q.2.2
    (q.1 ++ [(z, e.code)], q.2.1 ++ x.2 ++ e.evs, e.ctr)) ([], [], ctr)
  let es := exps all ctr
  let sum := (freeOrder all.length (es.1.map (fun (e : Nat × Nat) => e.2)) es.2.2).foldl (fun (q : Nat × List Ev) e =>
    let r := fp32Add q.1 (fp32.value e)
    (r.1, q.2 ++ r.2)) (0, [])
  let r := rcpCode sum.1 (es.2.2 + all.length)
  let gate := fun (z : Nat) => fp32Mul (((es.1.find? (fun e => e.1 == z)).map (·.2)).getD 0) (fp32.value r.code)
  (zs.map (fun z => (gate z).1), es.2.1 ++ sum.2 ++ r.evs ++ zs.flatMap (fun z => (gate z).2), r.ctr)

/-- A token routed: its choices, its re-route candidates, the events and the draws so far. -/
def FOp.route (o : FOp) (n : Nat) (bias : List Byte) (zs : List (Nat × Nat)) (ctr : Nat) : List Choice × List Nat × List Ev × Nat :=
  let keyOf := fun (p : Nat × Nat) => if o.biasOn then fp32Add p.2 (fp32.value (leNat (sliceBytes bias (4 * p.1) 4))) else (p.2, [])
  let ranked := (rankExperts (zs.map (fun p => (p.1, (keyOf p).1)))).take (min o.experts (2 * o.choices))
  let first := ranked.take o.choices
  let zOf := fun (x : Nat) => ((zs.find? (fun p => p.1 == x)).map (·.2)).getD 0
  let g := match o.gateMode with
    | 0 => softGates (first.map zOf) (zs.map (fun (p : Nat × Nat) => p.2)) ctr
    | 1 => softGates (first.map zOf) (first.map zOf) ctr
    | _ => (first.map zOf, [], ctr)
  (first.zipIdx.map (fun x => ⟨n, x.2, x.1, nth g.1 x.2 0⟩), ranked.drop o.choices, zs.flatMap (fun p => (keyOf p).2) ++ g.2.1, g.2.2)

/-! ### Scatter (R340–R343) -/

/-- The current choice asks a counter: the tail counter of its expert, or its spill counter (R340, R341). -/
def Dev.tailAsk (o : FOp) (table : List Byte) (r : Resolving) (d : Dev) : Dev :=
  let d := d.setDisp o.id (fun a => { a with cur := some r })
  match o.landing with
  | none => d
  | some l =>
    let n := d.newId
    n.2.issueAcc {
      id := n.1, eng := 0x28 + o.dispArray, ctx := o.ctx, landing := l, ticket := o.ticket, kind := .atomic
      gpa := expertTail table r.expert + (if r.spill then 8 else 0), len := 8, data := natLE 8 1, aop := 2, fetch := true, purpose := .tail o.id }

/-- The route entry of a resolved choice (R342). -/
def Resolving.entry (r : Resolving) : List Byte :=
  let expert := if r.outcome = 3 then r.c.first else r.expert
  natLE 16 (packBits [(10, expert), (6, 0), (10, r.c.first), (6, 0), (3, r.outcome), (5, 0), (4, r.status), (4, 0), (3, r.c.rank), (13, 0),
    (32, r.slot), (32, r.c.gate)])

/-- The current choice is resolved: counted, and its route entry written (R342, R344). -/
def Dev.dispResolved (o : FOp) (r : Resolving) (d : Dev) : Dev :=
  let d := d.setDisp o.id (fun a => { a with
    cur := none, dropped := a.dropped + (if r.outcome = 3 then 1 else 0), low := if r.outcome = 4 then min a.low r.status else a.low })
  let a := (o.area 4).1 + (r.c.token * o.choices + r.c.rank) * 16
  (d.count 0x52 r.outcome 1).xferGo o (0x28 + o.dispArray) .dispRoute .write 0 0 (o.writes 4 (o.area 4).2 a r.entry)

/-- The header of a slot (R335). -/
def FOp.slotHeader (o : FOp) (node : Nat) (r : Resolving) : List Byte :=
  natLE 64 (packBits [(32, o.fld 120 0 32), (9, globalLanding node (o.landing.getD 0)), (7, 0), (3, r.c.rank), (5, 0), (2, r.outcome), (6, 0),
    (32, r.c.token), (32, r.c.gate), (10, r.c.first), (6, 0)])

/-- The row, then the scales of an allocated slot are written (R335, R343). -/
def Dev.slotWrite (o : FOp) (tokens : List Byte) (gpa : Nat) (r : Resolving) (d : Dev) : Dev :=
  let tb := o.hidden * fmtBits (o.tokenFmt % 16) / 8
  let v := convertVec (fmtWord o.tokenFmt) (fmtWord o.sendFmt) o.hidden (sliceBytes tokens (r.c.token * tb) tb) [] d.freeCtr
  let d := { d with freeCtr := v.ctr }.arrEvs o.dispArray v.evs
  (d.setDisp o.id (fun a => { a with cur := some r })).xferGo o (0x28 + o.dispArray) (.dispSlot gpa false) .write 0 0
    (o.writes 5 false (gpa + 64) (v.bytes ++ v.scale))

/-- The next choice in turn asks its counter (R340). -/
def Dev.dispNext (o : FOp) (d : Dev) : Dev :=
  match d.dispReq o.id with
  | none => d
  | some a =>
    match a.cur, a.todo with
    | none, c :: rest =>
      if o.retired then d
      else (d.setDisp o.id (fun a => { a with todo := rest })).tailAsk o (a.table.getD []) { c := c, expert := c.first }
    | _, _ => d

/-- An overflowing choice (R341). -/
def Dev.dispOverflow (o : FOp) (a : DispReq) (r : Resolving) (d : Dev) : Dev :=
  let t := a.table.getD []
  let drop := fun (d : Dev) => (d.dispResolved o { r with outcome := 3 }).dispNext o
  match o.policy with
  | 1 => if r.spill then drop d else d.tailAsk o t { r with spill := true }
  | 2 =>
    match a.cands.find? (fun c => c.1 == r.c.token) with
    | some (_, x :: xs) =>
      if r.tries < o.rerouteMax then
        let left := fun (c : Nat × List Nat) => if c.1 = r.c.token then (c.1, xs) else c
        (d.setDisp o.id (fun a => { a with cands := a.cands.map left })).tailAsk o t { r with expert := x, tries := r.tries + 1 }
      else drop d
    | _ => drop d
  | _ => drop d

/-- TAIL_FETCH_ANSWER (R340, R341, R343). -/
def Dev.tailAnswer (op status : Nat) (data : List Byte) (d : Dev) : Dev :=
  match d.fop op, d.dispReq op with
  | some o, some a =>
    match a.cur with
    | none => d
    | some r =>
      let t := a.table.getD []
      let j := leNat (sliceBytes data 0 8)
      let cap := if r.spill then expertSpillCap t r.expert else expertCap t r.expert
      if o.retired then d.setDisp op (fun a => { a with cur := none })
      else if status ≠ sOk then (d.dispResolved o { r with outcome := 4, status := status }).dispNext o
      else if j < cap then
        let base := if r.spill then expertSpill t r.expert else expertQueue t r.expert
        d.slotWrite o (a.tokens.getD []) (base + j * o.slotStride)
          { r with outcome := if r.spill then 2 else if r.tries = 0 then 0 else 1, slot := j }
      else d.dispOverflow o a r
  | _, _ => d

/-- The writes of a slot at `gpa` have their answers (R343): the header follows a row and scales that were written, so that a slot not
completed keeps the header it held. -/
def Dev.slotWritten (xf : Xfer) (gpa : Nat) (header : Bool) (d : Dev) : Dev :=
  match d.fop xf.op, d.dispReq xf.op with
  | some o, some a =>
    match a.cur with
    | none => d
    | some r =>
      if o.retired then d.setDisp o.id (fun a => { a with cur := none })
      else if xf.low = 16 ∧ !header then
        d.xferGo o (0x28 + o.dispArray) (.dispSlot gpa true) .write 0 0 (o.writes 5 false gpa (o.slotHeader d.node r))
      else (d.dispResolved o (if xf.low = 16 then r else { r with outcome := 4, status := xf.low })).dispNext o
  | _, _ => d

/-- ROUTING_DONE (R338, R339): logits, choices and gates of every token; then the choices are resolved in turn. Lines of the router weights
listed have taken an error: the logits that need one that cannot be read are undefined, and the status is DATA_ERROR (R264). -/
def Pkg.routingDone (op : Nat) (media : List LineMedia) (x : Pkg) : Pkg :=
  match x.2.fop op, x.2.dispReq op with
  | some o, some a =>
    let lines := (o.areaRuns 1).flatMap (o.runLines 1 (o.area 1).2)
    let free := (maskArrays o.dispMask).find? (fun a => x.2.arrFree a && x.2.arrTurn o.seq a)
    if a.stage ≠ 2 ∨ o.retired ∨ free.isNone ∨ lines.any (fun l => !x.2.linePowered l) then x
    else
      let t := a.table.getD []
      let e := x.2.readLines lines media
      let hit := e.badLines lines
      let d := hit.foldl (fun (d : Dev) l => d.mediaBad l 0) e
      let r := (List.range o.tokens).foldl (fun (q : List Choice × List (Nat × List Nat) × List Ev × Nat) n =>
        let zs := (o.enabled t).foldl (fun (w : List (Nat × Nat) × List Ev × Nat) e =>
          match x.logit o (a.tokens.getD []) hit n e with
          | some z => (w.1 ++ [(e, z.1)], w.2.1 ++ z.2, w.2.2)
          | none => (w.1 ++ [(e, Config.freeNat w.2.2 % 2 ^ 32)], w.2.1, w.2.2 + 1)) ([], [], q.2.2.2)
        let c := o.route n (a.bias.getD []) zs.1 zs.2.2
        (q.1 ++ c.1, q.2.1 ++ [(n, c.2.1)], q.2.2.1 ++ zs.2.1 ++ c.2.2.1, c.2.2.2)) ([], [], [], d.freeCtr)
      let run := free.getD 0
      let d := ({ d with freeCtr := r.2.2.2 }.arrEvs run r.2.2.1).setArr run (fun y => { y with lastRun := d.tim.tide })
      let d := d.setDisp op (fun a => { a with
        stage := 3, todo := r.1, cands := r.2.1, low := if hit.isEmpty then a.low else min a.low sDataError })
      (x.1, d.dispNext o)
  | _, _ => x

/-- DISPATCH_COMPLETE (R344): every route entry is written and acknowledged. -/
def Dev.dispComplete (op : Nat) (d : Dev) : Dev :=
  match d.fop op, d.dispReq op with
  | some o, some a =>
    if (o.retired ∨ (a.stage = 3 ∧ a.todo.isEmpty ∧ a.cur.isNone)) ∧ !d.opBusy op then
      (d.setFop op (fun o => { o with result := a.dropped })).dispEnd op (if a.low = 16 then sOk else a.low)
    else d
  | _, _ => d

/-! ### The commands -/

/-- DISPATCH_COMPLETE (R344). -/
def execDispatchComplete (op : Nat) (s : State) : Host.Outcome State Fault Refusal := onDev (Dev.ifRuns (Dev.dispComplete op)) s

end Sys2Proof.Machine
end

