-- ==== Sys2Proof/Machine/Source.lean ====
section
/-!
DEFINITION. How the package goes on of itself after an event: finished transfers, the queues of the landings and of the
host port, outcomes of translations; answers, timeouts and bounces at the source engines (R135, R393, R485, R486, R492,
R496); and the commands of landings, host port, ferryman and units that set such work going.
-/
namespace Sys2Proof.Machine

/-! ### Transfers and queues -/

/-- A transfer has ended: its operation's unit goes on. -/
def Pkg.xferEnded (xf : Xfer) (x : Pkg) : Pkg :=
  match xf.key with
  | .tileRead t => x.dev (Dev.tileIn xf t false)
  | .tileWrite t => x.dev (Dev.tileIn xf t true)
  | .image a => x.dev (Dev.imageIn xf a true)
  | .imageRest a => x.dev (Dev.imageIn xf a false)
  | .drain _ => x.dev (Dev.setJob xf.op (fun j => { j with low := min j.low xf.low }))
  | .collIn step c j => x.dev (Dev.collLocal xf step c j)
  | .collOut c j => x.dev (Dev.collStored xf c j)
  | .collProgress => x.dev (Dev.collCounted xf)
  | .attnIn list => x.attnRead xf list
  | .attnRecord i => x.dev (Dev.attnWritten xf i)
  | .dispIn area => x.dispRead xf area
  | .dispSlot gpa header => x.dev (Dev.slotWritten xf gpa header)
  | .dispRoute => x

/-- A DOORBELL at the head of landing `n`'s queue (R353, R354): its open blocks close, and it waits for every earlier
write of the landing. -/
def Pkg.doorbellStep (n : Nat) (r : PortReq) (q : List PortReq) (x : Pkg) : Option Pkg :=
  if !(x.2.lndOf n).wc.isEmpty then some (x.dev (Dev.closeBlocks n (fun _ => true)))
  else if x.2.liveAccs.any (fun a => a.eng == n && a.kind.isWrite) then none
  else
    let x := x.dev (Dev.setPortQ n q)
    some ((x.lndDoorbell n (bits r.o.addr 32 7) (bits r.o.addr 39 6) (bit r.o.addr 45) (bits r.o.addr 0 32) r.ticket).dev
      (Dev.attach n 0x0F r.tag sOk []))

/-- A DOCK_READ is answered at once, wherever it stands in its landing's queue (R375). -/
def Pkg.dockStep (n : Nat) (x : Pkg) : Option Pkg :=
  (takeFirst (fun (r : PortReq) => r.op == 0x10) (x.2.portQ n)).map (fun t =>
    let v := x.dockRead n (bits t.1.o.addr 0 11) (opdLen t.1.o)
    x.dev (fun d => (d.setPortQ n t.2).attach n 0x10 t.1.tag sOk v))

/-- The request at the head of port `p`'s queue is carried out, if it can be (R131, R132, R144, R145, R354). -/
def Pkg.portStep (p : Nat) (x : Pkg) : Option Pkg :=
  match x.2.portQ p with
  | [] => none
  | r :: q =>
    let d := x.2.setPortQ p q
    if x.2.portHeld p r then none
    else if p = 4 then
      if r.op = 0x0F then
        if x.2.hostWriting then none
        else some (Pkg.doorbell 1 (d.ring F.FRY_SUB_CFG_DB_HOST r.part == 1) r.part (r.win == 1) r.o.addr (x.1, d))
      else (d.hostIssue r).map (fun d => (x.1, d))
    else if r.op = 0x0F then x.doorbellStep p r q
    else (d.lndIssue p r).map (fun d => (x.1, d))

/-- The unit that made a request takes its outcome. -/
def Pkg.deliver (a : Acc) (status : Nat) (data : List Byte) (x : Pkg) : XOut :=
  match a.purpose with
  | .lndLoad _ _ | .lndFill _ _ _ | .wcBlock _ _ | .lndStore _ _ | .lndAtomic _ _ _ | .lndReduce _ _ | .lndVersion _ _ _
  | .lndPublish _ _ _ | .lndPte _ _ | .bulk _ _ _ _ => ([], x.dev (Dev.lndAnswer a status data))
  | .bar2Read _ _ _ | .bar2Write _ | .bar2Atomic _ _ => ([], x.dev (Dev.hostAnswer a status data))
  | .walk w => x.walkAnswer w status data
  | .prefetch id => ([], x.dev (Dev.prefetchAnswer id status data))
  | .waitRead op w | .sem op w => ([], x.dev (Dev.waitAnswer op w status data))
  | .semBack => ([], x)
  | .copy => ([], if status = sOk then x.dev Dev.copyAcked else x)
  | .wardCopy k => ([], x.dev (Dev.wardAcked k status))
  | .signal op => ([], x.dev (Dev.signalAnswer op status))
  | .record ring op gen => ([], x.recordAnswer ring op gen status)
  | .fetch ring gen => ([], if (x.2.subOf ring).gen = gen then x.slotReturn ring status data else x)
  | .xfer id k => ([], x.dev (Dev.xferPart id k status data))
  | .tail op => ([], x.dev (Dev.tailAnswer op status data))
  | .attnGroup op grp => ([], x.dev (Dev.attnLost op grp status))
  | .delta op line => ([], x.deltaAnswer op line status)
  | .mirrorCopy op => ([], x.mirrorAnswer op status)
  | .journal op => ([], x.journalAnswer op status)
  | .rcRead recon member => ([], x.reconAnswer recon member status (leNat (data.take 1) != 0) (data.drop 1))

/-- A request that names no node of the domain ends at its engine (R32, R57). DESIGN CHOICE (log entry 59): with RIGHTS. -/
def Pkg.noNodeStep (x : Pkg) : Option Pkg :=
  match x.2.src.noNode with
  | [] => none
  | o :: l => some (Pkg.deliver o.acc sRights [] (x.1, ({ x.2 with src := { x.2.src with noNode := l } }.fenceNote o.acc sRights).pumpSrc)).2

/-- BAR4_DOORBELL (R353, R354, R476): it waits in the host port's queue for the BAR2 writes before it. -/
def Pkg.bar4 (off v : Nat) (x : Pkg) : Pkg :=
  if 0x40000 ≤ off ∨ (off % 0x1000 ≠ 0 ∧ off % 0x1000 ≠ 8) then x
  else
    let i := x.2.newId
    let r : PortReq := { id := i.1, op := 0x0F, tag := 0, o := { addr := v }, data := [], ticket := i.2.ticket, part := off / 0x1000
                         win := if off % 0x1000 = 8 then 1 else 0 }
    (x.1, i.2.setPortQ 4 (i.2.portQ 4 ++ [r]))

/-- The port takes a TLP with the window settings `v` of its arrival. -/
def Pkg.tlpIn (t : HTlp) (v : HWin) (x : Pkg) : Pkg :=
  match t with
  | .read id off len => x.bar2Read id off len v
  | .write off data => x.bar2Write off data v
  | .atomic id off aop data => x.bar2Atomic id off aop data v
  | .bell off v => x.bar4 off v

/-- The oldest TLP at the boundary is taken, once it need not wait: none passes another (R131). Fences that covered it cover its parts. -/
def Pkg.hostGateStep (x : Pkg) : Option Pkg :=
  match x.2.host.gate with
  | [] => none
  | w :: rest =>
    if x.2.tlpWaits w.tlp w.win then none
    else
      let k := (x.2.portQ 4).length
      let y := Pkg.tlpIn w.tlp w.win (x.1, { x.2 with host := { x.2.host with gate := rest } })
      some (y.dev (fun d => (d.fenceSplit w.id (((d.portQ 4).drop k).map (·.id))).pumpSrc))

/-- One thing the package does of itself: a finished transfer is taken, or a port carries out a request, or a request at a boundary is
taken. -/
def Pkg.settleOne (x : Pkg) : Option Pkg :=
  match x.2.xferTake with
  | some t => some (Pkg.xferEnded t.1 (x.1, t.2))
  | none =>
    match (List.range 4).findSome? (fun n => x.dockStep n) with
    | some y => some y
    | none => match (List.range 5).findSome? (fun p => x.portStep p) with
      | some y => some y
      | none => match (List.range 4).findSome? (fun n => x.lndGateStep n) with
        | some y => some y
        | none => match x.hostGateStep with
          | some y => some y
          | none => match x.noNodeStep with
            | some y => some y
            | none => match x.jobStep with
              | some y => some y
              | none => x.dispStep

/-- The package goes on until it waits for something from outside. -/
def Pkg.settleFor : Nat → Pkg → Pkg
  | 0, x => x
  | n + 1, x => match x.settleOne with
    | some y => Pkg.settleFor n y
    | none => x

/-- How often `settle` looks at most: beyond anything that 4,096 operations and the port queues hold. -/
def settleFuel : Nat := 2 ^ 20

def Pkg.settle (x : Pkg) : Pkg := Pkg.settleFor settleFuel x

/-! ### Outcomes of translations -/

/-- An operation some of whose translations have ended goes on. -/
def Pkg.opGoOn (id : Nat) (x : Pkg) : Pkg :=
  match x.2.fop id with
  | none => x
  | some o =>
    if o.state ≠ .running then x
    else match o.kind with
      | 1 => match (List.range 32).find? (fun e => (x.2.ferryEng e).op == some id) with
        | some e => x.dev (Dev.tileGo e)
        | none => x
      | 2 => x.jobXlated id
      | 3 => x.dev (Dev.collXlated id)
      | 4 => x.attnGoOn id
      | _ => x.dispGoOn id

/-- The outcomes of translations reach those who asked, and the package goes on. -/
def Pkg.takeXlt (t : XOut) : Pkg :=
  let x := t.1.foldl (fun (x : Pkg) (o : XReq × XRes) => match o.1.for_ with
    | .port p id page => x.dev (Dev.portXlt p id page o.2)
    | .op id side => (x.dev (Dev.opXlt id side (o.1.lva / 2 ^ 21) o.2)).opGoOn id) t.2
  x.settle

/-! ### Answers (R485, R486) -/

/-- Request `o` ends: it leaves its engine, fences note it, its pair resynchronises where it must (R146, R486, R496). -/
def Pkg.requestEnds (o : OutReq) (how status : Nat) (data : List Byte) (x : Pkg) : Pkg :=
  Pkg.thenHome (fun x =>
    let x := x.dev (fun d => ((d.endOut o how).fenceNote o.acc status).resyncIf o status)
    Pkg.takeXlt ((x.deliver o.acc status data).1, (x.deliver o.acc status data).2.dev (fun d => d.pumpSrc.collsGoOn))) x

/-- Request `o` has its answer (R428, R485, R486): one that comes at the end of the request timeout or after it is late, and discarded. -/
def Pkg.answered (o : OutReq) (how : AnsHow) (data : List Byte) (x : Pkg) : Pkg :=
  if x.2.expired o then x.dev (fun d => d.count 0xC1 1 1)
  else (x.dev (Dev.windowAnswer o.acc.eng o.dest how.level o.bytes)).requestEnds o 1 how.status data

/-- ANSWER_RECEIVE (R428, R485, R486). -/
def Pkg.answer (a : Ans) (x : Pkg) : Pkg :=
  match x.2.outOf a.eng a.tag with
  | none => x.dev (Dev.strayAnswer a.eng a.tag)
  | some o => x.answered o ⟨a.status, a.level⟩ a.data

/-- The outstanding request that `p` accepts has its answer. -/
def Pkg.answerFor (p : Purpose → Bool) (how : AnsHow) (data : List Byte) (x : Pkg) : Pkg :=
  match x.2.src.reqs.find? (fun o => p o.acc.purpose) with
  | none => x
  | some o => x.answered o how data

/-- REQUEST_TIMEOUT (R485): NODE_LOST if the destination is lost at that moment, else TIMEOUT. -/
def Pkg.requestTimeout (eng tag : Nat) (x : Pkg) : Pkg :=
  match x.2.outOf eng tag with
  | none => x
  | some o =>
    if !x.2.expired o then x
    else
      let lost := bit (x.2.rdi F.RCV_LOST_LOST (o.dest / 32)) (o.dest % 32)
      let x := x.dev (fun d => (d.count 0xC1 (if lost then 4 else 3) 1).windowMin eng o.dest)
      x.requestEnds o 2 (if lost then sNodeLost else sTimeout) []

/-- BOUNCE_RECEIVE (R135, R307, R393): that of a COLL_DATA frame names it by its tags, COLL_ID, step, chunk and segment. -/
def Dev.bounceIn (h : Hdr) (coll : Option (Nat × Nat × Nat × Nat)) (d : Dev) : Dev :=
  match coll with
  | some t => d.collBounce h t
  | none => d.bounced h

/-- FENCE_COMPLETE (R146, R147, R157, R363): every access that the fence covers has ended, and its request
has had its turn. -/
def Dev.fenceOver (id : Nat) (d : Dev) : Dev :=
  match d.src.fences.find? (fun f => f.id == id && d.fenceClear f && !d.fenceQueued f) with
  | none => d
  | some f => match f.next with
    | .ferry e => d.ferryFenced e
    | .wcFlush _ _ => d.flushDone
    | _ => { d with src := { d.src with fences := d.src.fences.filter (fun g => g.id != id) } }.lndFenced f

/-- A fence has ended: what it held goes on. -/
def Pkg.fenceEnds (f : Dev → Dev) (x : Pkg) : Pkg := (x.dev (fun d => (f d).pumpSrc)).settle

/-! ### Issuing operations (R290, R310, R325, R337, R348, R574) -/

/-- Operations that compete for engines of one kind: ferries; arrays (jobs and collectives alike, R310); the attention unit; the dispatch
unit. -/
def FOp.engines (o : FOp) : Nat := match o.kind with | 1 => 1 | 4 => 4 | 5 => 5 | _ => 2

/-- The engines of operation `o` are free. -/
def Dev.enginesFree (d : Dev) (o : FOp) : Bool :=
  match o.kind with
  | 1 => d.freeFerry.isSome
  | 2 => !o.jobOk || (maskArrays o.arrayMask).any (fun a => d.arrFree a && d.arrTurn o.seq a)
  | 3 => !o.collOk || (d.collRoom o && (maskArrays o.collMask).all (d.arrTurn o.seq))
  | 4 => decide (d.fry.attn.length < 16)
  | _ => decide (d.fry.disp.length < 4) && d.takes 0x52

/-- A READY operation that the ferryman may issue: it has stopped issuing for a retired one (R523). -/
def FOp.issuable (o : FOp) : Bool := o.state == .ready && !o.retired

/-- The operation became READY first of those for its kind of engine (R290, R310). -/
def Dev.firstReady (d : Dev) (o : FOp) : Bool :=
  !d.fry.ops.any (fun p => p.issuable && p.engines == o.engines && decide (p.seq < o.seq))

/-- OPERATION_ISSUE: a READY operation is issued to its engines. A job or a collective that waits for its arrays asks for their
power (R278, R559). -/
def Pkg.operationIssue (id : Nat) (x : Pkg) : Pkg :=
  match x.2.fop id with
  | none => x
  | some o =>
    if !o.issuable ∨ x.2.braked then x
    else if !x.2.enginesFree o then (if o.kind = 3 then x.dev (Dev.askAll o.collMask) else if o.kind = 2 then x.dev (Dev.askPair o.arrayMask) else x)
    else if !x.2.firstReady o then x
    else
      let o := { o with state := .running, waits := [{}, {}] }
      let x := x.dev (Dev.setFop id (fun _ => o))
      let x := match o.kind with
        | 1 => match x.2.freeFerry with
          | some e => x.dev (Dev.ferryGo o e)
          | none => x
        | 2 => x.dev (Dev.jobGo o)
        | 3 => if o.collOk then x.collGo o else (x.collSpoil o).dev (fun d => (d.bump F.COLL_STAT_DONE_COUNT 1).opEnded id sRights)
        | 4 => (x.attnGo o).attnGoOn id
        | _ => (x.dispGo o).dispGoOn id
      x.settle

/-- OPERATION_ISSUE of an operation of one kind. -/
def Pkg.issueKind (kind id : Nat) (x : Pkg) : Pkg :=
  if (x.2.fop id).any (fun o => o.kind == kind) then x.operationIssue id else x

/-- BRAKE_RELEASE (R574): what the brake held goes on. -/
def Pkg.brakeOver (x : Pkg) : Pkg := (x.dev (fun d => (d.brakeRelease.pumpSrc).collsGoOn)).settle

/-! ### Requests of landings and the host port -/

/-- A request of a landing (R462–R465), and what follows from it. -/
def Pkg.landingOp (op : Nat) (q : LReq) (x : Pkg) : Pkg := (x.lndRequest op q).settle

/-- A TLP to BAR2 or BAR4: taken, or left at the port's boundary behind those that wait there (R50, R90, R131, R604). While PERST_N is low none
arrives (R584). -/
def Pkg.hostTlp (t : HTlp) (x : Pkg) : Pkg :=
  if x.2.rd F.GLB_PIN_STAT_PERST = 1 then x
  else
    let x := x.dev (fun d => d.count 0x18 0 1)
    let v := x.2.tlpWin t
    if x.2.host.d3hot then x.dev (Dev.tlpAsleep t)
    else if x.2.tlpWaits t v || !x.2.host.gate.isEmpty then
      let i := x.2.newId
      (x.1, { i.2 with host := { i.2.host with gate := i.2.host.gate ++ [⟨i.1, t, v⟩] } })
    else (x.tlpIn t v).settle

/-! ### What waited at a boundary (R50, R604) -/

/-- What waits at the boundaries of blocks goes on as far as they take it: translations, faults, home requests, ring
fetches, held operations. -/
def Pkg.released (x : Pkg) : Pkg :=
  let x := x.dev Dev.fltRelease
  let x := x.dev (fun d => if d.xltTakes then d.invEnter else d)
  let x := if x.2.xltTakes then Pkg.takeXlt x.retryBlocked else x
  Pkg.settle (Pkg.fetchAll (Pkg.homeGo (Pkg.pump x)))

/-! ### The commands: landings -/

/-- LOAD (R470). -/
def execLoad (q : LReq) (s : State) : Host.Outcome State Fault Refusal := onPkg (Pkg.landingOp 1 q) s

/-- STORE (R142). -/
def execStore (q : LReq) (s : State) : Host.Outcome State Fault Refusal := onPkg (Pkg.landingOp 2 q) s

/-- ATOMIC (R148). -/
def execAtomic (q : LReq) (s : State) : Host.Outcome State Fault Refusal := onPkg (Pkg.landingOp 3 q) s

/-- REDUCE (R182). -/
def execReduce (q : LReq) (s : State) : Host.Outcome State Fault Refusal := onPkg (Pkg.landingOp 4 q) s

/-- BULK_READ (R468). -/
def execBulkRead (q : LReq) (s : State) : Host.Outcome State Fault Refusal := onPkg (Pkg.landingOp 5 q) s

/-- BULK_WRITE (R468). -/
def execBulkWrite (q : LReq) (s : State) : Host.Outcome State Fault Refusal := onPkg (Pkg.landingOp 6 q) s

/-- DATA (R466, R468). -/
def execDataFrame (n : Fin 4) (tag : Nat) (data : List Byte) (s : State) : Host.Outcome State Fault Refusal :=
  onPkg (fun x => (x.lndData n tag data).settle) s

/-- LOCAL_FENCE (R144). -/
def execLocalFence (q : LReq) (s : State) : Host.Outcome State Fault Refusal :=
  onPkg (Pkg.landingOp 8 { q with o := { q.o with order := 0 } }) s

/-- DOMAIN_FENCE (R145). -/
def execDomainFence (q : LReq) (s : State) : Host.Outcome State Fault Refusal :=
  onPkg (Pkg.landingOp 8 { q with o := { q.o with order := 1 } }) s

/-- RC_INV (R143). -/
def execRcInv (q : LReq) (s : State) : Host.Outcome State Fault Refusal := onPkg (Pkg.landingOp 9 q) s

/-- WC_FLUSH (R143). -/
def execWcFlush (q : LReq) (s : State) : Host.Outcome State Fault Refusal := onPkg (Pkg.landingOp 0x0A q) s

/-- VERSION_READ (R156). -/
def execVersionRead (q : LReq) (s : State) : Host.Outcome State Fault Refusal := onPkg (Pkg.landingOp 0x0B q) s

/-- PUBLISH (R157). -/
def execPublish (q : LReq) (s : State) : Host.Outcome State Fault Refusal := onPkg (Pkg.landingOp 0x0C q) s

/-- STREAM_DECLARE (R469). -/
def execStreamDeclare (q : LReq) (s : State) : Host.Outcome State Fault Refusal := onPkg (Pkg.landingOp 0x0D q) s

/-- STREAM_END (R469). -/
def execStreamEnd (q : LReq) (s : State) : Host.Outcome State Fault Refusal := onPkg (Pkg.landingOp 0x0E q) s

/-- DOORBELL (R353). -/
def execDoorbell (q : LReq) (s : State) : Host.Outcome State Fault Refusal := onPkg (Pkg.landingOp 0x0F q) s

/-- DOCK_READ (R375). -/
def execDockRead (q : LReq) (s : State) : Host.Outcome State Fault Refusal := onPkg (Pkg.landingOp 0x10 q) s

/-- PTE_WRITE (R464). -/
def execPteWrite (q : LReq) (s : State) : Host.Outcome State Fault Refusal := onPkg (Pkg.landingOp 0x11 q) s

/-- FENCE_COMPLETE (R146). -/
def execFenceComplete (id : Nat) (s : State) : Host.Outcome State Fault Refusal := onPkg (Pkg.fenceEnds (Dev.fenceOver id)) s

/-! ### The commands: translation and the host port -/

/-- WALK_START (R90). -/
def execWalkStart (s : State) : Host.Outcome State Fault Refusal := onPkg (fun x => Pkg.takeXlt x.walkStart) s

/-- WALK_READ_ANSWER (R91). -/
def execWalkReadAnswer (walk : Nat) (how : AnsHow) (data : List Byte) (s : State) : Host.Outcome State Fault Refusal :=
  onPkg (Pkg.answerFor (fun p => p == .walk walk) how data) s

/-- PREFETCH_ANSWER (R95). -/
def execPrefetchAnswer (id : Nat) (how : AnsHow) (data : List Byte) (s : State) : Host.Outcome State Fault Refusal :=
  onPkg (Pkg.answerFor (fun p => p == .prefetch id) how data) s

/-- BAR2_READ (R477). -/
def execBar2Read (id off len : Nat) (s : State) : Host.Outcome State Fault Refusal :=
  onPkg (Pkg.hostTlp (.read id off len)) s

/-- BAR2_WRITE (R477). -/
def execBar2Write (off : Nat) (data : List Byte) (s : State) : Host.Outcome State Fault Refusal :=
  onPkg (Pkg.hostTlp (.write off data)) s

/-- BAR2_ATOMIC (R474). -/
def execBar2Atomic (id off aop : Nat) (data : List Byte) (s : State) : Host.Outcome State Fault Refusal :=
  onPkg (Pkg.hostTlp (.atomic id off aop data)) s

/-- BAR4_DOORBELL (R353). -/
def execBar4Doorbell (off : Nat) (v : W32) (s : State) : Host.Outcome State Fault Refusal :=
  onPkg (Pkg.hostTlp (.bell off v.toNat)) s

/-! ### The commands: source engines -/

/-- ANSWER_RECEIVE (R486). -/
def execAnswerReceive (a : Ans) (s : State) : Host.Outcome State Fault Refusal := onPkg (Pkg.answer a) s

/-- REQUEST_TIMEOUT (R485). -/
def execRequestTimeout (eng tag : Nat) (s : State) : Host.Outcome State Fault Refusal := onPkg (Pkg.requestTimeout eng tag) s

/-- RETRANSMIT_TIMER (R492). -/
def execRetransmitTimer (eng tag : Nat) (s : State) : Host.Outcome State Fault Refusal :=
  onDev (Dev.ifRuns (Dev.retransmit eng tag)) s

/-- BOUNCE_RECEIVE (R393). -/
def execBounceReceive (b : BounceMsg) (s : State) : Host.Outcome State Fault Refusal :=
  onDev (Dev.ifRuns (Dev.bounceIn b.hdr b.coll)) s

/-- RESYNC_DRAIN_DONE (R496). -/
def execResyncDrainDone (eng dest : Nat) (s : State) : Host.Outcome State Fault Refusal :=
  onDev (Dev.ifRuns (Dev.resyncDrained eng dest)) s

/-- ORDER_RESYNC_RETRY (R496). -/
def execOrderResyncRetry (eng dest : Nat) (s : State) : Host.Outcome State Fault Refusal :=
  onDev (Dev.ifRuns (Dev.resyncRetry eng dest)) s

/-- ORDER_RESYNC_DONE (R496). -/
def execOrderResyncDone (eng dest rseq : Nat) (s : State) : Host.Outcome State Fault Refusal :=
  onDev (Dev.ifRuns (Dev.resyncDone eng dest rseq)) s

/-! ### The commands: the ferryman and its engines -/

/-- OPERATION_ACCEPT (R289). -/
def execOperationAccept (ring : Fin 64) (s : State) : Host.Outcome State Fault Refusal := onPkg (Pkg.acceptWaiting ring) s

/-- WAIT_READ_ANSWER (R285). -/
def execWaitReadAnswer (op : Nat) (w : Fin 2) (how : AnsHow) (data : List Byte) (s : State) : Host.Outcome State Fault Refusal :=
  onPkg (Pkg.answerFor (fun p => p == .waitRead op w) how data) s

/-- SEM_ACQUIRE_ANSWER (R286). -/
def execSemAcquireAnswer (op : Nat) (w : Fin 2) (how : AnsHow) (data : List Byte) (s : State) : Host.Outcome State Fault Refusal :=
  onPkg (Pkg.answerFor (fun p => p == .sem op w) how data) s

/-- WATCH_TRIGGER (R288). -/
def execWatchTrigger (line : Nat) (s : State) : Host.Outcome State Fault Refusal := onDev (Dev.ifRuns (Dev.watchTrigger line)) s

/-- WAIT_POLL (R288). -/
def execWaitPoll (op : Nat) (w : Fin 2) (s : State) : Host.Outcome State Fault Refusal := onDev (Dev.ifRuns (Dev.waitPoll op w)) s

/-- WAIT_WINDOW_END (R289). -/
def execWaitWindowEnd (op : Nat) (s : State) : Host.Outcome State Fault Refusal := onDev (Dev.ifRuns (Dev.waitEnd op)) s

/-- OPERATION_ISSUE (R290). -/
def execOperationIssue (op : Nat) (s : State) : Host.Outcome State Fault Refusal := onPkg (Pkg.operationIssue op) s

/-- SIGNAL_ANSWER (R289). -/
def execSignalAnswer (op : Nat) (how : AnsHow) (s : State) : Host.Outcome State Fault Refusal :=
  onPkg (Pkg.answerFor (fun p => p == .signal op) how []) s

/-- COMPLETION_RECORD_WRITE (R370). -/
def execCompletionRecordWrite (ring : Fin 64) (s : State) : Host.Outcome State Fault Refusal := onPkg (Pkg.recordWrite ring) s

/-- FRY_DOORBELL (R353). -/
def execFryDoorbell (ring : Fin 64) (completion : Bool) (v : W32) (ticket : Nat) (s : State) : Host.Outcome State Fault Refusal :=
  onPkg (Pkg.fabricDoorbell ring completion v.toNat ticket) s

/-- DESCRIPTOR_FETCH_RETURN (R355): a ring in host memory has the completion of its read, one in the near tier the answer
to its request. -/
def execDescriptorFetchReturn (ring : Fin 64) (how : AnsHow) (data : List Byte) (s : State) : Host.Outcome State Fault Refusal :=
  onPkg (fun x => if x.2.ring F.FRY_SUB_CFG_HOST ring = 1 then x.slotReturn ring how.status data
    else x.answerFor (fun p => p == .fetch ring (x.2.subOf ring).gen) how data) s

/-- FERRY_FENCE_DONE (R363). -/
def execFerryFenceDone (e : Fin 32) (s : State) : Host.Outcome State Fault Refusal := onPkg (Pkg.fenceEnds (Dev.ferryFenced e)) s

/-- TILE_ISSUE (R366). -/
def execTileIssue (e : Fin 32) (s : State) : Host.Outcome State Fault Refusal := onPkg (fun x => (x.tileIssue e).settle) s

/-- SLICE_ISSUE (R278). -/
def execSliceIssue (op : Nat) (a : Fin 16) (s : State) : Host.Outcome State Fault Refusal :=
  onPkg (fun x => (x.sliceIssue op a).settle) s

/-- PROGRAM_LOAD (R274). -/
def execProgramLoad (a : Fin 16) (s : State) : Host.Outcome State Fault Refusal := onPkg (fun x => (x.programLoad a).settle) s

/-- DRAIN (R269). -/
def execArrDrain (a : Fin 16) (s : State) : Host.Outcome State Fault Refusal := onPkg (fun x => (x.dev (Dev.arrDrain a)).settle) s

/-- COLL_RUNNING (R313). -/
def execCollRunning (op : Nat) (s : State) : Host.Outcome State Fault Refusal := onPkg (Pkg.issueKind 3 op) s

/-- COLL_DATA (R307). -/
def execCollData (c : CollData) (s : State) : Host.Outcome State Fault Refusal :=
  onPkg (fun x => (x.dev (Dev.collData c)).settle) s

/-- COLL_CREDIT (R308). -/
def execCollCredit (c : CollCredit) (s : State) : Host.Outcome State Fault Refusal :=
  onPkg (fun x => (x.dev (Dev.collCredit c)).settle) s

/-- ATTN_RUNNING (R325). -/
def execAttnRunning (op : Nat) (s : State) : Host.Outcome State Fault Refusal := onPkg (Pkg.issueKind 4 op) s

/-- ATTN_PARTIAL (R329). -/
def execAttnPartial (p : AttnPartial) (s : State) : Host.Outcome State Fault Refusal :=
  onPkg (fun x => (x.dev (Dev.attnPartial p)).settle) s

/-- DISPATCH_RUNNING (R337). -/
def execDispatchRunning (op : Nat) (s : State) : Host.Outcome State Fault Refusal := onPkg (Pkg.issueKind 5 op) s

/-- ROUTING_DONE (R338). -/
def execRoutingDone (op : Nat) (media : List LineMedia) (s : State) : Host.Outcome State Fault Refusal :=
  onPkg (fun x => (x.routingDone op media).settle) s

/-- TAIL_FETCH_ANSWER (R340). -/
def execTailFetchAnswer (op : Nat) (how : AnsHow) (data : List Byte) (s : State) : Host.Outcome State Fault Refusal :=
  onPkg (Pkg.answerFor (fun p => p == .tail op) how data) s

/-- BRAKE_RELEASE (R574). -/
def execBrakeRelease (s : State) : Host.Outcome State Fault Refusal :=
  onAll (fun x => if x.2.running then Pkg.brakeOver x else (x.1, x.2.ifPowered Dev.brakeRelease)) s

end Sys2Proof.Machine
end

