-- ==== Sys2Proof/Machine/Recovery.lean ====
section
/-!
DEFINITION. Recovery at one package (R499–R504, R511): lost and found nodes, source reset, the slipway.
-/
namespace Sys2Proof.Machine

/-! ### Lost nodes (R500, R501) -/

/-- Node IDs whose order tables this home keeps (R136, R220). -/
def Dev.ordNodes (d : Dev) : List Nat := d.node :: d.home.aliases.map (·.1)

/-- The source engines (R126). -/
def engineNumbers : List Nat := List.range 57

/-- Every pair of source node `l` at this home, as (node served, engine). -/
def Dev.pairsOf (d : Dev) : List (Nat × Nat) := d.ordNodes.flatMap (fun n => engineNumbers.map (fun e => (n, e)))

/-- Node `l`'s bit of RCV_LOST. -/
def Dev.isLost (d : Dev) (l : Nat) : Bool := bit (d.rdi F.RCV_LOST_LOST (l / 32)) (l % 32)

def Dev.setLost (l : Nat) (v : Bool) (d : Dev) : Dev := d.wri F.RCV_LOST_LOST (l / 32) (putBit (d.rdi F.RCV_LOST_LOST (l / 32)) (l % 32) v)

/-- A pair enters BROKEN on a command: its held writes are refused (R139). -/
def Dev.pairBroken (n src eng : Nat) (d : Dev) : Dev :=
  let k := d.ordKey n src eng
  (d.setOrd k { d.ord k with st := .broken, holeAt := none }).refuseHeld n src eng sOrderBroken

/-- Every collective with a rank on node `l` stops with NODE_LOST (R315, R500). -/
def Dev.collNodeLost (l : Nat) (d : Dev) : Dev :=
  (d.fry.colls.filter (fun c => c.ranks.any (fun r => r % 512 / 4 == l))).foldl (fun (d : Dev) c => d.collFail c.op sNodeLost) d

/-- The pairs of source node `l` in the shadows of wards (R218), each with the change of state `ev`. DESIGN CHOICE (log entry 69): R500 and R501
do not name the shadows, whose wards obey the same commands. -/
def Dev.shadowPairs (l ev : Nat) (d : Dev) : Dev :=
  { d with home := { d.home with shadows := d.home.shadows.map (fun s =>
      engineNumbers.foldl (fun (s : Shadow) e => s.record { src := l, eng := e, man := 0, status := 0, ev := ev }) s) } }

/-- RCV_NODE_LOST (R499, R500): its effect is present while the bit is set and every entry of the node BROKEN. -/
def Dev.nodeLost (l : Nat) (d : Dev) : Nat × Dev :=
  if d.isLost l ∧ d.pairsOf.all (fun p => (d.ord (d.ordKey p.1 l p.2)).st == .broken) then (rNoChange, d)
  else
    let d := (d.setLost l true).event 0xC1 1
    let d := { d with rcv := { d.rcv with lostAt := nset d.rcv.lostAt l (d.tim.tide + 1), done := d.rcv.done.filter (fun e => e.2.1 != l) } }
    let d := (d.pairsOf.foldl (fun (d : Dev) p => d.pairBroken p.1 l p.2) d).shadowPairs l 1
    (rDone, d.collNodeLost l)

/-- RCV_NODE_FOUND (R500). -/
def Dev.nodeFound (l : Nat) (d : Dev) : Nat × Dev := if d.isLost l then (rDone, d.setLost l false) else (rNoChange, d)

/-- Every entry of source `l` is as a source reset leaves it (R501). -/
def Dev.sourceFresh (d : Dev) (l : Nat) : Bool :=
  d.pairsOf.all (fun p =>
    let e := d.ord (d.ordKey p.1 l p.2)
    e.st == .normal && e.expect == 0 && e.hist.isEmpty)

/-- RCV_SOURCE_RESET (R501): once after each NODE_LOST of the node. -/
def Dev.sourceReset (l : Nat) (d : Dev) : Nat × Dev :=
  let at_ := nget d.rcv.lostAt l
  if at_ = 0 then (if d.sourceFresh l then rNoChange else rBadState, d)
  else if d.tim.tide < at_ - 1 + us (d.rd F.RCV_RETX_RESYNC_QUIET_US) then (rBadState, d)
  else if d.rcv.done.any (fun e => e.2.1 == l) then (rNoChange, d)
  else
    let reset := fun (d : Dev) (p : Nat × Nat) =>
      (d.refuseHeld p.1 l p.2 sOrderBroken).freshPair p.1 l p.2 (d.ord (d.ordKey p.1 l p.2)).lastRseq
    let d := (d.pairsOf.foldl reset d).shadowPairs l 2
    (rDone, { d with rcv := { d.rcv with done := d.rcv.done ++ [(3, l, d.rd F.RCV_GEN_GEN)] } })

/-! ### The slipway (R502–R504) -/

/-- Some extent is in one of the states `p` accepts. -/
def Dev.anyExt (d : Dev) (p : Nat → Bool) : Bool := d.home.ext.any (fun e => p e.2.state)

/-- SLIPWAY(TRANSIT) (R502). -/
def Dev.slipTransit (d : Dev) : Nat × Dev :=
  let s := d.stage
  if s = 2 then (rNoChange, d)
  else if s = 0 ∨ (s = 4 ∧ d.anyExt (fun st => st == 1)) then (rBadState, d)
  else
    let d := { d with rcv := { d.rcv with servingAt := none } }
    let d := { d with home := { d.home with rebuildFrom := none, rebuildSeen := 0 } }
    (rDone, (d.wr F.RCV_SLIPWAY_STAGE 2).wr F.PROT_CFG_ROLE 1)

/-- SLIPWAY(SERVING) at tide time `t` (R502, R504): from TRAINED, or from RESYNC once phase 4 has arrived. -/
def Dev.slipServing (t : Nat) (d : Dev) : Nat × Dev :=
  let s := d.stage
  if s = 4 ∨ d.rcv.servingAt = some t then (rNoChange, d)
  else if s = 1 ∨ (s = 3 ∧ d.home.rebuildSeen = 4) then (rDone, { d with rcv := { d.rcv with servingAt := some t } })
  else (rBadState, d)

/-- SERVING_AT_T (R504): tide time has reached T. -/
def Dev.servingNow (d : Dev) : Dev :=
  match d.rcv.servingAt with
  | some t =>
    if t ≤ d.ns then
      ({ d with rcv := { d.rcv with servingAt := none } }.wr F.RCV_SLIPWAY_STAGE 4).wr
        F.PROT_CFG_ROLE 0
    else d
  | none => d

/-! ### Commands of either form -/

/-- The rule of RCV_CMD operation `op` with node `l` and time `t` (R511). -/
def Dev.rcvRule (op l t stage : Nat) (d : Dev) : Nat × Dev :=
  match op with
  | 1 => d.nodeLost l
  | 2 => d.nodeFound l
  | 3 => d.sourceReset l
  | _ => if stage = 2 then d.slipTransit else if stage = 4 then d.slipServing t else (rBadState, d)

/-- GO of RCV_CMD (R499, R511). -/
def Pkg.rcvCmd (x : Pkg) : Pkg :=
  let d := x.2
  let t := d.rd F.RCV_CMD_TIME_LO_T_LO + d.rd F.RCV_CMD_TIME_HI_T_HI * 2 ^ 32
  let r := d.recovery (d.rd F.RCV_CMD_GEN_GEN)
    (Dev.rcvRule (d.rd F.RCV_CMD_OP) (d.rd F.RCV_CMD_ARG_NODE) t (d.rd F.RCV_CMD_ARG_STAGE))
  Pkg.settle (Pkg.pump (x.1, (r.2.wr F.RCV_CMD_RESULT_RESULT r.1).event 0xC1 0))

/-- A recovery command by message (R499). -/
def Pkg.rcvMsg (src : Nat) (name : String) (gen : Nat) (rule : Dev → Nat × Dev) (x : Pkg) : Pkg :=
  Pkg.settle (Pkg.pump (x.dev (fun d => d.fromFm src (Dev.recoveryMsg src name gen rule))))

/-! ### The commands -/

/-- SERVING_AT_T (R504). -/
def execServingAtT (s : State) : Host.Outcome State Fault Refusal := onDev (Dev.ifRuns Dev.servingNow) s

end Sys2Proof.Machine
end

