-- ==== Sys2Proof/Machine/Tenancy.lean ====
section
/-!
DEFINITION. Retiring a tenant (R521–R527, R537): assign, close, bump, drain, crypto-erase, overwrite scrub, debug unlock.
-/
namespace Sys2Proof.Machine

/-! ### ASSIGN, CLOSE, BUMP (R521–R523) -/

/-- Records of a tenant that is gone are forgotten: no ring will carry them (R523, R526). -/
def Dev.dropRecords (d : Dev) : Dev :=
  let gone := fun (o : FOp) => o.retired && o.state == .complete
  let n := (d.fry.ops.filter gone).length
  if n = 0 then d
  else { d with fry := { d.fry with ops := d.fry.ops.filter (fun o => !gone o) } }.count 3 2 n

/-- ASSIGN(t) (R521). -/
def Dev.assign (t : Nat) (d : Dev) : Nat × Dev :=
  let stagedId := d.rd F.SEC_STAGED_ID_STAGED_ID
  if d.tenancy = 1 then
    (if t = d.ticket ∧ (d.sec.staged.isNone ∨ stagedId = d.rd F.SEC_KEY_ID_ACTIVE_ID) then rNoChange else rBadState, d)
  else if d.tenancy ≠ 0 ∨ t = 0 ∨ 15 < t ∨ d.sec.staged.isNone ∨ d.anyExt (fun st => st == 1 || st == 2) then (rBadState, d)
  else
    let d := d.dropRecords
    let d := { d with sec := { d.sec with active := d.sec.staged } }.wr F.SEC_KEY_ID_ACTIVE_ID stagedId
    let d := (d.clearStaged.wr F.SEC_TENANT_TICKET t).wr F.SEC_TENANT_STATE 1
    (rDone, d.wr F.SEC_RETIRE_STAT_SCRUBBED 0)

/-- CLOSE (R521): landings, windows and rings refuse from here on by the state itself. -/
def Dev.close (d : Dev) : Nat × Dev :=
  match d.tenancy with
  | 1 => (rDone, d.wr F.SEC_TENANT_STATE 2)
  | 2 | 3 | 4 => (rNoChange, d)
  | _ => (rBadState, d)

/-- What BUMP does (R522, R523): the ticket goes, every operation is retired, the drain window opens. -/
def Dev.retireAll (src : Option Nat) (d : Dev) : Dev :=
  let d := (d.wr F.SEC_TENANT_TICKET 0).wr F.SEC_TENANT_STATE 3
  (({ d with sec := { d.sec with bumpSrc := src, bumpAt := d.tim.tide } }).fryRetire).collRetire

/-- BUMP (R521). -/
def Dev.bumpCmd (src : Option Nat) (d : Dev) : Nat × Dev :=
  match d.tenancy with
  | 2 => (rDone, d.retireAll src)
  | 1 => (rBadState, d)
  | _ => (rNoChange, d)

/-! ### The drain (R524) -/

/-- The drain counters are all zero: in-flight accesses of the home, scoreboard entries, requests of landings and host port
awaiting answers, writes without acknowledgement. -/
def Dev.drained (d : Dev) : Bool :=
  d.home.infl.isEmpty && d.scored.isEmpty && d.lnd.all (fun l => l.tags.isEmpty) && d.host.ops.isEmpty && d.host.inQ.isEmpty
    && !(d.src.reqs.any (fun o => o.acc.kind.isWrite || o.acc.eng == 4)) && !(d.src.held.any (fun o => o.acc.kind.isWrite))

/-- The drain window is 10 ms of tide time (R524). -/
def Dev.drainOver (d : Dev) : Bool := decide (d.sec.bumpAt + us 10000 ≤ d.tim.tide)

/-! ### Crypto-erase (R525, R526) -/

/-- A landing's plaintext goes: read cache, open blocks, which are discarded unwritten and their STOREs answered
TENANT_RETIRED, rank tables (R526). -/
def Dev.lndErase (n : Nat) (d : Dev) : Dev :=
  let d := d.rcClear n
  let open_ := (d.lndOf n).wc.flatMap (·.stores)
  let d := d.setLnd n (fun l => { l with wc := [], ranks := [], wins := [] })
  open_.foldl (fun (d : Dev) e => (d.fenceNoteId e.2.2 true sRetired).attach n 2 e.1 sRetired []) d

/-- Invalidation of kind ALL (R98), without an entry of the queue. -/
def Dev.xltErase (d : Dev) : Dev :=
  let q := d.xlt.invQ
  let d := d.invSerialise { kind := 4 } none
  { d with xlt := { d.xlt with invQ := q } }

/-- Arrays: latches, accumulators and program stores zeroed; slices still running at the end of the drain window stop. -/
def Dev.arrErase (d : Dev) : Dev :=
  { d with fry := { d.fry with
      arrs := d.fry.arrs.map (fun (a : Arr) => { heldBy := a.heldBy, lastRun := a.lastRun })
      jobs := d.fry.jobs.map (fun (j : Job) => { j with toIssue := [], left := 0, low := min j.low sRetired })
      colls := d.fry.colls.map (fun (c : Coll) => { c with stage := [], work := [], tails := [], pieces := [] })
      serve := []
      disp := d.fry.disp.map (fun (r : DispReq) => { r with table := r.table.map (fun v => List.replicate v.length 0)
                                                            bias := none, tokens := none }) } }

/-- Held writes are refused with RIGHTS, the fetch log is emptied; order state is kept (R136, R526). -/
def Dev.homeErase (d : Dev) : Dev :=
  let d := d.home.store.foldl (fun (d : Dev) w =>
    let k := d.ordKey w.node w.src w.eng
    (d.setOrd k { d.ord k with holeAt := none }).refuseWr w.wr sRights) d
  { d with home := { d.home with store := [], fetchLog := [] } }

/-- Ring configurations and ring words of the FRY pages zeroed; what a ring was fetching is forgotten. -/
def Dev.ringErase (d : Dev) : Dev :=
  let fs := [F.FRY_SUB_BASE_LO_BASE_LO, F.FRY_SUB_BASE_HI_BASE_HI, F.FRY_SUB_CFG_ENABLE, F.FRY_SUB_CMP_CMP_RING, F.FRY_SUB_PROD_PROD,
    F.FRY_SUB_CONS_CONS, F.FRY_SUB_STAT_HALTED, F.FRY_CMP_BASE_LO_BASE_LO, F.FRY_CMP_BASE_HI_BASE_HI, F.FRY_CMP_CFG_ENABLE,
    F.FRY_CMP_PROD_PROD, F.FRY_CMP_CONS_CONS, F.FRY_CMP_STAT_HALTED]
  let d := (List.range 64).foldl (fun (d : Dev) r => fs.foldl (fun (d : Dev) (f : Fld) => d.setWord (f.addr (fryPage r) (r % 16)) 0) d) d
  { d with fry := { d.fry with subs := d.fry.subs.map (fun (s : SubRing) => { gen := s.gen + 1 }) } }

/-- Entry to ERASING (R521, R525, R526). -/
def Dev.eraseEntry (d : Dev) : Dev :=
  let d := (d.clearActive.wr F.SEC_TENANT_STATE 4).wr F.SEC_TENANT_TICKET 0
  let d := { d with sec := { d.sec with eraseAt := d.tim.tide } }
  let d := [0, 1, 2, 3].foldl (fun (d : Dev) n => d.lndErase n) d
  (((d.xltErase.arrErase).homeErase).ringErase).dropRecords

/-- DRAIN_COMPLETE (R521, R524). -/
def Dev.drainComplete (d : Dev) : Dev :=
  if d.tenancy = 3 ∧ d.drained ∧ !d.drainOver then (d.wr F.SEC_RETIRE_STAT_DRAIN_EXPIRED 0).eraseEntry else d

/-- DRAIN_WINDOW_END (R521, R524). -/
def Dev.drainExpired (d : Dev) : Dev :=
  if d.tenancy = 3 ∧ d.drainOver then ((d.wr F.SEC_RETIRE_STAT_DRAIN_EXPIRED 1).count 3 3 1).eraseEntry else d

/-- ERASE_COMPLETE (R521, R526). -/
def Dev.eraseComplete (d : Dev) : Dev :=
  if d.tenancy ≠ 4 then d
  else
    let d := (d.dropRecords.wr F.SEC_TENANT_STATE 0).event 3 1
    let d := (d.wr F.SEC_VACANT_TIME_LO_T_LO (d.ns % 2 ^ 32)).wr F.SEC_VACANT_TIME_HI_T_HI (d.ns / 2 ^ 32)
    match d.sec.bumpSrc with
    | some n => d.ctrl n .tenantVacant
    | none => d

/-- What a retired package goes on with: held requests of the home, transfers. -/
def Pkg.afterTenancy (f : Dev → Dev) (x : Pkg) : Pkg := Pkg.settle (Pkg.pump (x.dev f))

/-! ### Overwrite scrub (R527) -/

/-- Extents an overwrite scrub leaves: SYSTEM, VOQ and PARITY_HOLD. -/
def Dev.scrubSkips (d : Dev) (k : Nat) : Bool := (d.ext k).state == 3 || (d.ext k).state == 4 || (d.prot k).mode == 2

/-- A line of a PARITY_DATA extent is scrubbed: a delta equal to its old ciphertext goes to the holder first (R205, R207),
unless the extent is degraded or the line is zero already. -/
def Pkg.scrubLine (k off : Nat) (x : Pkg) : Pkg :=
  let l := extBase k / 64 + off / 64
  let old := x.cipher l
  let w : LineW := { line := x.2.node % 128 * 2 ^ 39 + l, phys := some l, key := none, metadata := false, bytes := List.replicate 64 0, old := some old }
  let p := x.2.prot k
  if old = List.replicate 64 0 ∨ (p.degraded ∧ !x.2.home.resumed.contains p.holder) then x.applyLine w
  else
    let o : HOp := { blankOp x.2.node { hdr := {}, opd := {}, data := [] } .write 0 (extGpa x.2.node k off) 64 k with
      kind := .scrub, counted := false, ws := [w] }
    let r := x.2.addOp o
    (x.1, r.2.startDeltas r.1)

/-- The scrub of both tiers: whole extents at once, PARITY_DATA extents line by line. -/
def Pkg.scrubGo (x : Pkg) : Pkg :=
  (List.range 3232).foldl (fun (x : Pkg) k =>
    if x.2.scrubSkips k then x
    else if (x.2.prot k).mode = 1 then (x.listed k).foldl (fun (x : Pkg) off => x.scrubLine k off) x
    else x.clearExt k) x

/-- SCRUB (R521, R527). -/
def Pkg.scrub (x : Pkg) : Nat × Pkg :=
  match x.2.tenancy with
  | 0 => (rDone, (x.dev (fun d => (d.wr F.SEC_TENANT_STATE 5).wr F.SEC_RETIRE_STAT_PROGRESS 0)).scrubGo)
  | 5 => (rNoChange, x)
  | _ => (rBadState, x)

/-- SCRUB_COMPLETE (R527): no line waits for its delta any more. -/
def Dev.scrubComplete (d : Dev) : Dev :=
  if d.tenancy = 5 ∧ !d.home.ops.any (fun o => o.kind == .scrub) then
    let d := (d.wr F.SEC_TENANT_STATE 0).wr F.SEC_RETIRE_STAT_SCRUBBED 1
    (d.wr F.SEC_RETIRE_STAT_PROGRESS 1000).event 3 2
  else d

/-! ### Debug unlock (R537) -/

/-- DEBUG_UNLOCK: an unlock that is not authentic changes nothing. -/
def Dev.debugUnlock (authentic : Bool) (d : Dev) : Dev :=
  if !authentic then d
  else
    let t := d.tenancy
    let d := (d.wr F.SEC_BOOT_STAT_DEBUG_UNLOCKED 1).clearStaged.clearActive
    if t = 1 ∨ t = 2 then (d.retireAll none).eraseEntry
    else if t = 3 then d.eraseEntry
    else d

/-! ### Commands of either form (R521, R539) -/

/-- The names of SEC_CMD operations. -/
def secName : Nat → String
  | 1 => "ASSIGN"
  | 2 => "CLOSE"
  | 3 => "BUMP"
  | 4 => "SCRUB"
  | 5 => "STAGED_CLEAR"
  | _ => "SVN_COMMIT"

/-- The rule of SEC_CMD operation `op` with ticket `t`, asked by node `src` or the registers. -/
def Pkg.secRule (op t : Nat) (src : Option Nat) (x : Pkg) : Nat × Pkg :=
  let on := fun (r : Nat × Dev) => (r.1, ((x.1, r.2) : Pkg))
  match op with
  | 1 => on (x.2.assign t)
  | 2 => on x.2.close
  | 3 => on (x.2.bumpCmd src)
  | 4 => x.scrub
  | 5 => on x.2.stagedClear
  | _ => on x.2.svnCommit

/-- GO of SEC_CMD (R521, R532, R539): SVN_COMMIT only from the management core as owner. -/
def Pkg.secCmd (m : Master) (v : Nat) (x : Pkg) : Pkg :=
  let op := x.2.rd F.SEC_CMD_OP
  if op = 6 ∧ m ≠ .mgmt then x.dev (fun d => d.dropWrite m 3 0x114 v 1)
  else
    let r := x.secRule op (x.2.rd F.SEC_CMD_ARG_TICKET) none
    Pkg.settle (Pkg.pump (r.2.dev (fun d => (d.wr F.SEC_CMD_RESULT_RESULT r.1).event 3 0)))

/-- A tenancy command by message (R521). -/
def Pkg.secMsg (src op t : Nat) (x : Pkg) : Pkg :=
  if !x.2.fmAllowed src then x.dev Dev.fmDropped
  else
    let r := x.secRule op t (some src)
    Pkg.settle (Pkg.pump (r.2.dev (fun d => d.ctrl src (.result (secName op) r.1))))

/-! ### The commands -/

/-- DRAIN_COMPLETE (R524). -/
def execDrainComplete (s : State) : Host.Outcome State Fault Refusal := onPkg (Pkg.afterTenancy Dev.drainComplete) s

/-- DRAIN_WINDOW_END (R524). -/
def execDrainWindowEnd (s : State) : Host.Outcome State Fault Refusal := onPkg (Pkg.afterTenancy Dev.drainExpired) s

/-- ERASE_COMPLETE (R526). -/
def execEraseComplete (s : State) : Host.Outcome State Fault Refusal := onDev (Dev.ifRuns Dev.eraseComplete) s

/-- SCRUB_COMPLETE (R527). -/
def execScrubComplete (s : State) : Host.Outcome State Fault Refusal := onDev (Dev.ifRuns Dev.scrubComplete) s

/-- DEBUG_UNLOCK (R537). -/
def execDebugUnlock (authentic : Bool) (s : State) : Host.Outcome State Fault Refusal :=
  onPkg (Pkg.afterTenancy (Dev.debugUnlock authentic)) s

end Sys2Proof.Machine
end

