-- ==== Sys2Proof/Machine/Moor.lean ====
section
/-!
DEFINITION. MOORED (R560–R567, R624): the steps of the entry and how it is undone, what is lost and what the
configuration store keeps, and the exit.
-/
namespace Sys2Proof.Machine

/-! ### The configuration store (R564, R624) -/

/-- The registers of fabric ports that the AON domain holds (R624). -/
def isAonPort (a : Nat) : Bool :=
  let p := a / 0x1000
  let o := a % 0x1000
  (decide (0x80 ≤ p) && decide (p < 0x98)
      && (fieldsAt p o).any (fun f => [F.PRT_CFG_ENABLE, F.PRT_CREDIT0_REQ, F.PRT_CREDIT1_BULK, F.PRT_REPLAY_CFG_REPLAY_MAX].contains f))
    || (decide (0xA0 ≤ p) && decide (p < 0xB8) && (fieldsAt p o).any (fun f => f == F.PHY_LANE_CFG_PRECODE))

/-- Words that outlive their page's power: those of AON, of R624, BLK_OWNER (R476), and of the security engine what the
retention latches and its own state hold (R514, R518). -/
def outlives (a : Nat) : Bool :=
  pageDomain (a / 0x1000) == 26 || isAonPort a || a % 0x1000 == 8 || [0x3100, 0x3104, 0x3108, 0x3160, 0x3164].contains a

/-- A word as the configuration store keeps it: its RW, RWO and RWS fields, the others at reset. -/
def savedWord (a w : Nat) : Nat :=
  (fieldsAt (a / 0x1000) (a % 0x1000)).foldl (fun v f =>
    if f.acc = .rw ∨ f.acc = .rwo ∨ f.acc = .rws then putBits v f.lo f.w (bits w f.lo f.w) else v) (resetWord a).toNat

/-- E2 saves the configuration store (R564). -/
def Dev.saveConfig (d : Dev) : Dev :=
  let keep := d.regs.filter (fun (e : Nat × W32) => !outlives e.1)
  { d with pwr := { d.pwr with
      savedRegs := keep.map (fun (e : Nat × W32) => (e.1, BitVec.ofNat 32 (savedWord e.1 e.2.toNat)))
      savedProt := d.home.prot
      savedBanks := (d.rte.bankA, d.rte.bankB) } }

/-- The configuration store is restored (R564, R567). -/
def Dev.restoreConfig (d : Dev) : Dev :=
  let d := d.pwr.savedRegs.foldl (fun (d : Dev) (e : Nat × W32) => d.setWord e.1 e.2.toNat) d
  { d with
    home := { d.home with prot := d.pwr.savedProt }
    rte := { d.rte with bankA := d.pwr.savedBanks.1, bankB := d.pwr.savedBanks.2 } }

/-! ### Entry (R563, R565) -/

/-- No frame stands in a VOQ, in receive space or held (R563). -/
def Dev.voqsEmpty (d : Dev) : Bool := d.swc.voqs.all (fun v => v.q.isEmpty) && d.swc.recvSpace.isEmpty && d.swc.heldFrames.isEmpty

/-- The ports whose lanes are armed for wake: those with ENABLE = 1 (R563). -/
def Dev.enabledPorts (d : Dev) : Nat := (List.range 28).foldl (fun n p => if d.linkEnabled p then n + 2 ^ p else n) 0

/-- E3 (R563): every port DOWN, wake detectors armed, the PCI Express link idle. -/
def Dev.linksOff (d : Dev) : Dev :=
  let d := { d with pwr := { d.pwr with armed := d.enabledPorts } }
  let d := (List.range 28).foldl (fun (d : Dev) p => if d.linkState p = 0 then d else d.linkGoDown p (5 ≤ d.linkState p) true) d
  { d with glb := { d.glb with pcieIdle := true, pcieTraining := false } }

/-- The entry ends: the steps taken are undone, the package is ACTIVE again (R560, R565). -/
def Pkg.moorUndo (status : Nat) (x : Pkg) : Pkg :=
  let links := x.2.glb.pcieIdle
  let d := (x.2.wr F.PWR_STAT_STATE 0).wr F.PWR_CMD_RESULT_STATUS status
  let d := if status = sEntryAborted then d.count 1 1 1 else d
  let d := { d with
    pwr := { d.pwr with step := .none, abort := false, armed := 0 }
    glb := { d.glb with pcieIdle := false, pcieTraining := links && d.rd F.GLB_PIN_STAT_PERST == 0 } }
  let d := if links then (List.range 28).foldl (fun (d : Dev) p => d.tryDetect p) d else d
  Pkg.released (x.1, d.capPending)

/-- The contents of lines [lo, hi) are lost. -/
def Pkg.loseLines (lo hi : Nat) (x : Pkg) : Pkg := let r := x.2.draw; (x.1.lose lo hi r.1, r.2)

/-- Near bank group `g` loses its contents (R558, R563). -/
def Pkg.loseGroup (g : Nat) (x : Pkg) : Pkg := x.loseLines (metaLine0 + g * 0xA00000) (metaLine0 + (g + 1) * 0xA00000)

/-- The near bank groups and bulk devices that the entry does not retain lose their contents (R563): near group `g` holds
GPA offsets from g × 640 MiB, device `i` under CONTIGUOUS those from i × 64 GiB; under ALL12 every device holds a part of
each line's neighbourhood, and either all are retained or none. -/
def Pkg.loseMemory (x : Pkg) : Pkg :=
  let ng := x.2.rd F.PWR_RETAIN_NG
  let dev := x.2.rd F.PWR_RETAIN_DEV
  let x := [1, 2, 3].foldl (fun (x : Pkg) g =>
    if bit ng g then x else x.loseGroup g) x
  if x.2.rd F.BULK_CFG_INTERLEAVE = 0 then (if dev = 0xFFF then x else x.loseLines 0 (12 * 2 ^ 30))
  else (List.range 12).foldl (fun (x : Pkg) i => if bit dev i then x else x.loseLines (i * 2 ^ 30) ((i + 1) * 2 ^ 30)) x

/-- Every domain other than AON turns off (R563, R564): what they hold is lost. DESIGN CHOICE (log entry 58): after the exit the sampling
exponents in force are those of reset, until a snapshot takes over the LOG2_N that the exit restored (R191). -/
def Dev.powerOff (d : Dev) : Dev :=
  let d := { d with
    regs := d.regs.filter (fun (e : Nat × W32) => outlives e.1)
    cnts := d.cnts.filter (fun (e : Nat × Nat) => pageDomain (e.1 / 1024) == 26)
    cntLatch := d.cntLatch.filter (fun (e : Nat × Nat) => pageDomain (e.1 / 1024) == 26)
    xlt := {}
    flt := []
    fltWait := []
    src := { nextId := d.src.nextId }
    lnd := [{}, {}, {}, {}]
    host := {}
    home := { ext := d.home.ext, region := d.home.region, nextOp := d.home.nextOp }
    swc := {}
    rte := {}
    links := List.replicate 28 {}
    eyes := []
    rcv := { d.rcv with servingAt := none, phase4Last := false }
    sec := { d.sec with spdmVersion := 0, spdmCaps := false, spdmAlgs := false, sessions := [] }
    fry := { nextOp := d.fry.nextOp } }
  d.wr F.PWR_DOM_STAT_ON (2 ^ 26)

/-- E5 has ended: MOORED, the last-wake record cleared; a wake captured since E5 began is one from MOORED (R560, R565). -/
def Dev.moored (d : Dev) : Dev :=
  let d := (d.wr F.PWR_WAKE_SRC_SOURCE 0).wr F.PWR_WAKE_SRC_DURING_ENTRY 0
  let d := (d.wr F.PWR_WAKE_SRC_PORT 0x3F).wr F.PWR_WAKE_SRC_LANE 0
  let d := (d.wr F.PWR_WAKE_TIME_LO_T_LO 0).wr F.PWR_WAKE_TIME_HI_T_HI 0
  let d := { d with pwr := { d.pwr with step := .none, wakeOpen := true } }.wr F.PWR_STAT_STATE 3
  match d.pwr.wakeAtE5 with
  | none => d
  | some w =>
    ({ d with pwr := { d.pwr with exitAt := d.tim.tide, wakeAtE5 := none } }.wakeRecord w false).wr F.PWR_STAT_STATE 4

/-- MOOR_QUIESCED (R563): E1's drain counters have reached zero within 10 ms. -/
def Pkg.moorQuiesced (x : Pkg) : Pkg :=
  let d := x.2
  if d.pwrState = 2 ∧ d.pwr.step = .e1 ∧ d.drained ∧ d.tim.tide < d.pwr.stepAt + us 10000 then
    if d.pwr.abort then x.moorUndo sEntryAborted
    else (x.1, { d with pwr := { d.pwr with step := .e2, stepAt := d.tim.tide } })
  else x

/-- MOOR_ENTRY_TIMEOUT (R560, R563): E1 has taken 10 ms. -/
def Pkg.moorTimeout (x : Pkg) : Pkg :=
  let d := x.2
  if d.pwrState = 2 ∧ d.pwr.step = .e1 ∧ d.pwr.stepAt + us 10000 ≤ d.tim.tide then x.moorUndo sTimeout else x

/-- The step in progress has ended with `x`: the next begins, or the entry is undone (R565). -/
def Pkg.moorNext (s : MoorStep) (x : Pkg) : Pkg :=
  if x.2.pwr.abort then x.moorUndo sEntryAborted
  else x.dev (fun d => { d with pwr := { d.pwr with step := s, stepAt := d.tim.tide } })

/-- MOOR_STEP_COMPLETE (R563). -/
def Pkg.moorStep (x : Pkg) : Pkg :=
  if x.2.pwrState ≠ 2 then x
  else match x.2.pwr.step with
    | .e2 =>
      if !x.2.voqsEmpty then x
      else (x.dev (fun d => { d.saveConfig with home := { d.home with checkCache := [] } })).moorNext .e3
    | .e3 => (x.dev Dev.linksOff).moorNext .e4
    | .e4 => x.moorNext .e5
    | .e5 => (x.loseMemory).dev (fun d => d.powerOff.moored)
    | _ => x

/-! ### Exit (R567) -/

/-- The domains that are on after the exit: every one whose condition holds, array pairs by their bits. -/
def Dev.exitDomains (d : Dev) : Nat :=
  (List.range 30).foldl (fun n i =>
    let on := if 12 ≤ i ∧ i < 20 then bit (d.rd F.PWR_DOM_REQ_REQ) i && !d.pwr.arraysHeld else d.domCond i
    if on then n + 2 ^ i else n) 0

/-- SWC_PART_STAT.AVAIL: 4,096 units of 16 KiB for each bank group in power (R385). -/
def Dev.setAvail (d : Dev) : Dev :=
  d.wr F.SWC_PART_STAT_AVAIL (0x1000 * ([20, 21, 22, 23].filter (fun i => d.domOn i)).length)

/-- MOOR_EXIT_COMPLETE (R567). The buffer mode is that of the domain joined, as before (R388). -/
def Pkg.moorExit (x : Pkg) : Pkg :=
  if x.2.pwrState ≠ 4 then x
  else
    let d := x.2.restoreConfig
    let on := d.exitDomains
    let d := ((List.range 30).foldl (fun (d : Dev) i => if i ≠ 26 ∧ bit on i then d.setDom i true else d) d).setAvail
    let d := { d with
      src := { d.src with winInit := d.rd F.CNG_WIN_MAX * 1024 }
      fry := { d.fry with arrs := d.fry.arrs.map (fun (a : Arr) => { a with lastRun := d.tim.tide }) }
      pwr := { d.pwr with step := .none, armed := 0 }
      glb := { d.glb with pcieIdle := false, pcieTraining := d.rd F.GLB_PIN_STAT_PERST == 0 } }
    let d := (List.range 28).foldl (fun (d : Dev) p => d.tryDetect p) d
    let d := d.timeMoorExit.wr F.RCV_SLIPWAY_STAGE 0
    let d := d.wr F.SWC_CFG_BUFMODE (b2n (d.glb.join.isSome && decide (32 < d.domainSize)))
    let d := (d.wr F.PWR_STAT_STATE 0).capPending
    Pkg.released (x.1, d)

/-! ### The commands -/

/-- What the always-on domain drives: unless the package is OFF or held (R509, R560). -/
def Pkg.ifAwakeable (f : Pkg → Pkg) (x : Pkg) : Pkg := if x.2.running then f x else x

/-- MOOR_QUIESCED (R563). -/
def execMoorQuiesced (s : State) : Host.Outcome State Fault Refusal := onAll (Pkg.ifAwakeable Pkg.moorQuiesced) s

/-- MOOR_STEP_COMPLETE (R563). -/
def execMoorStepComplete (s : State) : Host.Outcome State Fault Refusal := onAll (Pkg.ifAwakeable Pkg.moorStep) s

/-- MOOR_ENTRY_TIMEOUT (R563). -/
def execMoorEntryTimeout (s : State) : Host.Outcome State Fault Refusal := onAll (Pkg.ifAwakeable Pkg.moorTimeout) s

/-- MOOR_EXIT_COMPLETE (R567). -/
def execMoorExitComplete (s : State) : Host.Outcome State Fault Refusal := onAll (Pkg.ifAwakeable Pkg.moorExit) s

end Sys2Proof.Machine
end

