-- ==== Sys2Proof/Machine/Control.lean ====
section
/-!
DEFINITION. The common header's control (R39, R40, R603–R605, R610): work in hand, quiesce, soft reset; power domains
turning on and off (R50, R557, R558); pace windows; releasing what waits at a block's boundary.
-/
namespace Sys2Proof.Machine

/-! ### Work in hand (R604) -/

/-- The source engines of page `p`'s block (R126). -/
def pageEngines (p : Nat) : List Nat :=
  if 0x10 ≤ p ∧ p < 0x14 then [p - 0x10]
  else if p = 0x18 then [4]
  else if p = 0x20 then [7]
  else if p = 0x28 then [5]
  else if 0x30 ≤ p ∧ p < 0x34 then (if p = 0x30 then [6] else []) ++ (List.range 8).map (fun e => 8 + 8 * (p - 0x30) + e)
  else if 0x40 ≤ p ∧ p < 0x50 then [0x28 + (p - 0x40)]
  else []

/-- Some request of the page's engines awaits its answer, or waits to leave. -/
def Dev.requestsOf (d : Dev) (p : Nat) : Bool :=
  let es := pageEngines p
  d.src.reqs.any (fun o => es.contains o.acc.eng) || d.src.held.any (fun o => es.contains o.acc.eng)

/-- A landing holds requests, fences or an open write-combining block. -/
def Dev.lndBusy (d : Dev) (n : Nat) : Bool :=
  let l := d.lndOf n
  !(l.tags.isEmpty && l.inQ.isEmpty && l.halves.isEmpty && l.loads.isEmpty && l.bulks.isEmpty && l.wc.isEmpty) || d.regFences n != 0

/-- The home holds requests, early writes or reconstructions. -/
def Dev.homeBusy (d : Dev) : Bool :=
  !(d.home.ops.isEmpty && d.home.queue.isEmpty && d.home.store.isEmpty && d.home.infl.isEmpty && d.home.recons.isEmpty)
    || d.home.bindBusy.isSome

/-- The ferryman page `k` holds work: the scoreboard for FRY0, slot reads and records of its rings, its engines. -/
def Dev.fryBusy (d : Dev) (k : Nat) : Bool :=
  (k == 0 && !d.scored.isEmpty)
    || (List.range 16).any (fun i => (d.subOf (16 * k + i)).busy || d.fry.cmpBusy.contains (16 * k + i))
    || (List.range 8).any (fun e => (d.ferryEng (8 * k + e)).op.isSome)

/-- Whether the block of page `p` has work in hand (R604). Fault records are in hand while their ring is enabled, frames
for a port while its partner has not acknowledged them. -/
def Dev.workInHand (d : Dev) (p : Nat) : Bool :=
  d.requestsOf p ||
  (if 0x10 ≤ p ∧ p < 0x14 then d.lndBusy (p - 0x10)
  else if p = 0x18 then !(d.host.ops.isEmpty && d.host.inQ.isEmpty)
  else if p = 0x20 then !(d.xlt.walks.isEmpty && d.xlt.missQ.isEmpty && d.xlt.prefetches.isEmpty && d.xlt.invQ.isEmpty)
  else if p = 0x21 then d.flt.any (fun b => d.rdi F.FLT_RING_CFG_ENABLE b.ring == 1)
  else if p = 0x28 then d.homeBusy
  else if p = 0x2C then d.rd F.SMP_SNAP_STAT_BUSY == 1
  else if 0x30 ≤ p ∧ p < 0x34 then d.fryBusy (p - 0x30)
  else if 0x40 ≤ p ∧ p < 0x50 then (d.arr (p - 0x40)).slice.isSome || (d.arr (p - 0x40)).heldBy.isSome
  else if p = 0x50 then !d.fry.colls.isEmpty
  else if p = 0x51 then !(d.fry.attn.isEmpty && d.fry.serve.isEmpty)
  else if p = 0x52 then !d.fry.disp.isEmpty
  else if p = 0x69 then !d.swc.mirror.isEmpty
  else if 0x80 ≤ p ∧ p < 0x98 then
    5 ≤ d.linkState (p - 0x80) && ((d.link (p - 0x80)).txSeq != (d.link (p - 0x80)).acked || (d.link (p - 0x80)).width.isSome)
  else if (0xA0 ≤ p ∧ p < 0xB8) ∨ (0xB8 ≤ p ∧ p < 0xBC) then d.eyes.any (fun e => e.page == p)
  else false)

/-- QUIESCE_COMPLETE (R604): a quiesced block without work in hand sets QUIESCED. -/
def Dev.quiesceComplete (p : Nat) (d : Dev) : Dev :=
  let asked := d.rdp F.BLK_CTRL_QUIESCE p == 1 || d.rdp F.BLK_CTRL_ENABLE p == 0 || d.powerHeld p
  if d.pageOn p ∧ (pageKind p).isSome ∧ asked ∧ !d.workInHand p then d.wrp F.BLK_STAT_QUIESCED p 1 else d

/-! ### Soft reset (R605) -/

/-- Offsets of the header that a soft reset leaves: BLK_ID, BLK_CAP, BLK_OWNER, BLK_CTRL, BLK_STAT, BLK_ERR_CAP0–3,
BLK_ERR_CNT, BLK_PACE. -/
def softKeeps (off : Nat) : Bool := off < 0x14 || (decide (0x20 ≤ off) && off < 0x38)

/-- The page's registers and counters as a soft reset leaves them. -/
def Dev.softRegs (p : Nat) (d : Dev) : Dev :=
  { d with
    regs := tdrop (fun a => a / 0x1000 == p && !softKeeps (a % 0x1000)) d.regs
    cnts := tdrop (fun c => c / 1024 == p) d.cnts
    cntLatch := tdrop (fun c => c / 1024 == p) d.cntLatch }

/-- A landing as a soft reset leaves it: read cache, open blocks and rank tables empty. -/
def Dev.lndFresh (n : Nat) (d : Dev) : Dev := d.setLnd n (fun l => { timeAt := l.timeAt })

/-- The translation block, with the landings' buffers, as a soft reset leaves it; requests that wait at their landings
keep waiting. -/
def Dev.xltFresh (d : Dev) : Dev :=
  { d with xlt := { blocked := d.xlt.blocked, clock := d.xlt.clock } }

/-- The sampler as a soft reset leaves it. -/
def Dev.smpFresh (d : Dev) : Dev :=
  { d with home := { d.home with cntdn := [], rdSmp := [], wrSmp := [], lastPage := [], lastLnd := [], smpPrev := (0, [], [], [], []), logN := (10, 10) } }

/-- Ferryman page `k` as a soft reset leaves it: rings off, engines idle. -/
def Dev.fryFresh (k : Nat) (d : Dev) : Dev :=
  let d := (List.range' (16 * k) 16).foldl (fun (d : Dev) r => d.cmpVoid r) d
  { d with fry := { d.fry with
      subs := d.fry.subs.zipIdx.map (fun (s : SubRing × Nat) => if s.2 / 16 = k then { gen := s.1.gen + 1 } else s.1)
      engs := d.fry.engs.zipIdx.map (fun (e : FerryEng × Nat) => if e.2 / 8 = k then {} else e.1) } }

/-- The link of port `p` goes DOWN because its page resets (R605): ENABLE is 0 from here on where the page holds it. The reset of the port's
own page makes no capture, that of its PHY page does (R621). -/
def Dev.resetLink (p : Nat) (holds : Bool) (d : Dev) : Dev :=
  let d := if holds then d.lwr p F.PRT_CFG_ENABLE F.LNDL_CFG_ENABLE 0 else d
  if d.linkState p = 0 then d else d.linkGoDown p (5 ≤ d.linkState p) (!holds)

/-- What page `p`'s block holds beside its registers, as a soft reset leaves it (R605). -/
def Dev.blockFresh (p : Nat) (d : Dev) : Dev :=
  if 0x10 ≤ p ∧ p < 0x14 then d.lndFresh (p - 0x10)
  else if p = 0x20 then d.xltFresh
  else if p = 0x21 then { d with flt := [] }
  else if p = 0x2C then d.smpFresh
  else if 0x30 ≤ p ∧ p < 0x34 then d.fryFresh (p - 0x30)
  else if 0x40 ≤ p ∧ p < 0x50 then d.setArr (p - 0x40) (fun (a : Arr) => { lastRun := a.lastRun })
  else if p = 0x69 then { d with swc := { d.swc with mirror := [] } }
  else { d with eyes := d.eyes.filter (fun e => e.page != p) }

/-- The port whose link a soft reset of page `p` takes DOWN, and whether the page holds its ENABLE (R605). -/
def pagePort (p : Nat) : Option (Nat × Bool) :=
  if 0x80 ≤ p ∧ p < 0x98 then some (p - 0x80, true)
  else if 0x10 ≤ p ∧ p < 0x14 then some (24 + (p - 0x10), true)
  else if 0xA0 ≤ p ∧ p < 0xB8 then some (p - 0xA0, false)
  else if 0xB8 ≤ p ∧ p < 0xBC then some (24 + (p - 0xB8), false)
  else none

/-- A soft reset starts (R605). -/
def Dev.softReset (p : Nat) (d : Dev) : Dev :=
  let d := match pagePort p with
    | some q => d.resetLink q.1 q.2
    | none => d
  ((d.softRegs p).blockFresh p).wrp F.BLK_STAT_SRST_BUSY p 1

/-- SOFT_RESET_DONE (R605). -/
def Dev.softResetDone (p : Nat) (d : Dev) : Dev :=
  if d.pageOn p ∧ d.rdp F.BLK_STAT_SRST_BUSY p = 1 then d.wrp F.BLK_STAT_SRST_BUSY p 0 else d

/-! ### Domains (R50, R557, R558) -/

/-- The pages of domain `i` (R601). -/
def domainPages (i : Nat) : List Nat :=
  (pageIndex.flatMap (fun k => (List.range k.n).map (fun j => k.base + j))).filter (fun p => pageDomain p == i)

/-- DOMAIN_ON (R557): a domain whose condition holds turns on in ACTIVE and IDLE; ports of it that are enabled enter
DETECT, accesses that waited for it go on. -/
def Pkg.domainOn (i : Nat) (x : Pkg) : Pkg :=
  if 12 ≤ i ∧ i < 20 then Pkg.settle (x.dev (Dev.pairOn (i - 12)))
  else if !x.2.awake ∨ bit (x.2.rd F.PWR_DOM_STAT_ON) i ∨ !x.2.domCond i then x
  else
    let d := x.2.setDom i true
    let d := if 20 ≤ i ∧ i < 24 then d.setAvail else d
    let d := if i < 6 then [0, 1, 2, 3].foldl (fun (d : Dev) j => d.tryDetect (4 * i + j)) d
      else if 6 ≤ i ∧ i < 10 then d.tryDetect (24 + (i - 6)) else d
    if d.domOn 11 then Pkg.released (x.1, d) else (x.1, d)

/-- The registers and counters of page `p` without power: BLK_OWNER and what R624 holds in AON stay (R476, R557). -/
def Dev.pageOff (p : Nat) (d : Dev) : Dev :=
  { d with
    regs := tdrop (fun a => a / 0x1000 == p && a % 0x1000 != 8 && !isAonPort a) d.regs
    cnts := tdrop (fun c => c / 1024 == p) d.cnts
    cntLatch := tdrop (fun c => c / 1024 == p) d.cntLatch }

/-- The link of port `p` goes DOWN with its power, which is captured (R621). -/
def Dev.unpowerLink (p : Nat) (d : Dev) : Dev :=
  if d.linkState p = 0 then d else d.linkGoDown p (5 ≤ d.linkState p) true

/-- The spilled frames fit in the bank groups that stay on (R385). -/
def Dev.spillFits (d : Dev) (i : Nat) : Bool :=
  decide (d.spilledBytes ≤ 0x1000 * 0x4000 * ([20, 21, 22, 23].filter (fun j => j != i && d.domOn j)).length)

/-- DOMAIN_OFF (R50, R557, R558): a domain whose condition no longer holds, once none of its blocks has work in hand. -/
def Pkg.domainOff (i : Nat) (x : Pkg) : Pkg :=
  let d := x.2
  let pages := domainPages i
  if !d.awake ∨ i = 26 ∨ !d.domOn i ∨ d.domCond i ∨ (12 ≤ i ∧ i < 20 ∧ bit (d.rd F.PWR_DOM_REQ_REQ) i) then x
  else if pages.any d.workInHand then x
  else if 20 ≤ i ∧ i < 24 then
    if d.spillFits i then ((x.dev (Dev.moveSpilled (i - 20))).loseGroup (i - 20)).dev (fun d => (d.setDom i false).setAvail) else x
  else
    let ports := if i < 6 then [4 * i, 4 * i + 1, 4 * i + 2, 4 * i + 3] else if i < 10 then [24 + (i - 6)] else []
    let d := (d.setDom i false)
    let d := ports.foldl (fun (d : Dev) p => d.unpowerLink p) d
    let d := pages.foldl (fun (d : Dev) p => (d.blockFresh p).pageOff p) d
    let d := if 12 ≤ i ∧ i < 20 ∧ bits (d.rd F.PWR_DOM_STAT_ON) 12 8 = 0 ∧ d.pwrState = 0 then d.wr F.PWR_STAT_STATE 1 else d
    (x.1, d)

/-! ### Pace (R39, R40) -/

/-- The count that page `p` reports (R41): the lowest of those counted for it, so that BULK, for which each of the twelve crossings
counts, reports the lowest of them. -/
def paceOf (paces : List (Nat × Nat)) (p : Nat) : Option Nat :=
  ((paces.filter (fun e => e.1 == p)).map (·.2)).min?

/-- Page `p` at the end of the window [`lo`, `lo` + 1 µs) of tide time (R39, R40): PACE and PACE_LOW take its count; a block whose
domain is off, or turned on after the window began, keeps PACE 0 and PACE_LOW. -/
def Dev.pacePage (paces : List (Nat × Nat)) (lo p : Nat) (d : Dev) : Dev :=
  match paceOf paces p with
  | none => d
  | some n =>
    if (pageKind p).isNone then d
    else if !d.pageOn p ∨ lo < nget d.glb.domAt (pageDomain p) then d.wrp F.BLK_PACE_PACE p 0
    else
      let v := min n 0xFFF
      (d.wrp F.BLK_PACE_PACE p v).wrp F.BLK_PACE_PACE_LOW p (min v (d.rdp F.BLK_PACE_PACE_LOW p))

/-- The replicas of the core run: not in a reset, CORE_UV's among them, nor under EOFF_N; a core that is held otherwise keeps its pace (R40,
R483). -/
def Dev.paced (d : Dev) : Bool := !d.glb.off && d.glb.hold != .coreUv && d.glb.hold != .eoff

/-- PACE_WINDOW_END (R40): the last whole microsecond of tide time has ended, and its counts of replica handshakes are taken once. -/
def Dev.paceWindow (paces : List (Nat × Nat)) (d : Dev) : Dev :=
  let k := d.ns / 1000
  if d.paced ∧ d.glb.paceAt < k then
    (paces.map (·.1)).dedup.foldl (fun (d : Dev) p => d.pacePage paces (us (k - 1)) p)
      { d with glb := { d.glb with paceAt := k } }
  else d

/-! ### The commands -/

/-- QUIESCE_COMPLETE (R604). -/
def execQuiesceComplete (page : Nat) (s : State) : Host.Outcome State Fault Refusal := onDev (Dev.ifRuns (Dev.quiesceComplete page)) s

/-- SOFT_RESET_DONE (R605). -/
def execSoftResetDone (page : Nat) (s : State) : Host.Outcome State Fault Refusal := onDev (Dev.ifRuns (Dev.softResetDone page)) s

/-- DOMAIN_ON (R557). -/
def execDomainOn (i : Fin 30) (s : State) : Host.Outcome State Fault Refusal := onAll (Pkg.ifAwakeable (Pkg.domainOn i)) s

/-- DOMAIN_OFF (R50). -/
def execDomainOff (i : Fin 30) (s : State) : Host.Outcome State Fault Refusal := onAll (Pkg.ifAwakeable (Pkg.domainOff i)) s

/-- PACE_WINDOW_END (R40). -/
def execPaceWindowEnd (paces : List (Nat × Nat)) (s : State) : Host.Outcome State Fault Refusal :=
  onDev (Dev.paceWindow paces) s

end Sys2Proof.Machine
end

