-- ==== Sys2Proof/Machine/RegRead.lean ====
section
/-!
DEFINITION. Reading registers: the paths and what each reaches (R476, R531, R593, R602, R611, R612), the words that are
computed when they are read (R490, R603, R610 and the pages' status registers), the latches (R542, R577, R610).
-/
namespace Sys2Proof.Machine

/-! ### Words computed at the read -/

/-- BLK_ID (R601, R603). -/
def blkId (p : Nat) : Nat :=
  match pageKind p with
  | none => 0
  | some k => k.base % 256 + (p - k.base) * 256 + 0x10000

/-- BLK_CAP (R603, R610). -/
def blkCap (p : Nat) : Nat :=
  match pageKind p with
  | none => 0
  | some k => pageCounters p + 256 * b2n k.quiesce + 512 * b2n k.srst + 1024 * b2n (decide (24 < pageCounters p))

/-- BLK_STAT (R603): DISABLED and CNT_FROZEN follow BLK_CTRL. -/
def Dev.blkStat (d : Dev) (p : Nat) : Nat :=
  let w := d.word (p * 0x1000 + 0x10)
  putBit (putBit w 1 (d.rdp F.BLK_CTRL_ENABLE p == 0)) 3 (d.rdp F.BLK_CTRL_CNT_FREEZE p == 1)

/-- The index of the counter whose words stand at offset `off` of page `p` (R610). -/
def counterAt (p off : Nat) : Option Nat :=
  if 0x40 ≤ off ∧ off < 0x100 ∧ (off - 0x40) / 8 < pageCounters p then some ((off - 0x40) / 8)
  else if 24 < pageCounters p ∧ 0xA00 ≤ off ∧ 24 + (off - 0xA00) / 8 < pageCounters p then some (24 + (off - 0xA00) / 8)
  else none

/-- ERR_PEND word `k` (R490). -/
def Dev.errPend (d : Dev) (k : Nat) : Nat :=
  ((List.range 32).filter (fun b => d.rdp F.BLK_ERR_CAP0_VALID (32 * k + b) == 1)).foldl (fun n b => n + 2 ^ b) 0

/-- A ring of 2^log entries is full. -/
def ringFull (prod cons log : Nat) : Bool := (prod + 2 ^ 32 - cons) % 2 ^ 32 == 2 ^ log

/-- Pairs in BROKEN or QUARANTINE over the order tables this home keeps (R511). -/
def Dev.brokenPairs (d : Dev) : Nat := (d.home.ord.filter (fun (e : Nat × OrdEnt) => e.2.st != .normal)).length

/-- FRY_ENG_STAT of engine `e` (R377). -/
def Dev.engStat (d : Dev) (e : Nat) : Nat :=
  match (d.ferryEng e).op with
  | none => 0
  | some id => match d.fop id with
    | none => 0
    | some o => 1 + o.ctx % 256 * 256 + o.subRing % 64 * 65536

/-- PNT_PROG_STAT of array `a` (R291). -/
def Dev.progStat (d : Dev) (a : Nat) : Nat :=
  let r := d.arr a
  let res := ([0, 1, 2, 3].filter (fun i => (nth r.progs i none).isSome)).foldl (fun n i => n + 2 ^ i) 0
  match r.slice with
  | none => res
  | some s => res + 2 ^ (4 + s.store % 4) + ((d.fop s.op).map (·.ctx)).getD 0 % 256 * 256 + 65536

/-- The words of route entries, 0x800 up in the RTE pages (R429): bank, key, and whether the word is the high one. -/
def routeAt (p off : Nat) : Option (Bool × Nat × Bool) :=
  if 0x61 ≤ p ∧ p < 0x65 ∧ 0x800 ≤ off then
    let i := (off - 0x800) / 8
    some (decide (0x63 ≤ p), 4 * (64 * ((p - 0x61) % 2)) + i, off / 4 % 2 == 1)
  else none

/-- LND_RANK_WIN and LND_RANK_DATA of landing `n` (R293, R295). -/
def Dev.rankWin (d : Dev) (n : Nat) : Nat := nget (d.lndOf n).wins (d.rdp F.LND_RANK_CTX_CONTEXT (lndPage n))

def Dev.rankData (d : Dev) (n : Nat) : Nat := nget (d.lndOf n).ranks (d.rdp F.LND_RANK_ADDR_INDEX (lndPage n))

/-- The status words of the blocks' own pages that are computed when they are read; `w` is the stored word. -/
def Dev.statWord (d : Dev) (p off w : Nat) : Nat :=
  if p = 0x04 then (if off = 0x234 then putBits w 0 4 d.mgmt.sendQ.length else w)
  else if 0x10 ≤ p ∧ p < 0x14 then
    if off = 0x184 then putBits w 0 3 (d.regFences (p - 0x10))
    else if off = 0x204 then d.rankWin (p - 0x10)
    else if off = 0x20C then d.rankData (p - 0x10)
    else w
  else if p = 0x20 then (if off = 0x110 then putBits w 0 5 d.xlt.invQ.length else w)
  else if p = 0x21 then
    if 0x100 ≤ off ∧ off < 0x300 ∧ off % 0x20 = 0x14 then
      let r := (off - 0x100) / 0x20
      putBit w 0 (ringFull (d.rdi F.FLT_RING_PROD_PROD r) (d.rdi F.FLT_RING_CONS_CONS r) (d.rdi F.FLT_RING_CFG_LOG2_SIZE r))
    else w
  else if p = 0x2B then (if off = 0x11C then putBits w 0 11 d.home.stale.length else w)
  else if 0x30 ≤ p ∧ p < 0x34 then
    if 0x700 ≤ off ∧ off < 0x720 then d.engStat (8 * (p - 0x30) + (off - 0x700) / 4)
    else if p = 0x30 ∧ off = 0x804 then
      d.scored.length + (d.scored.filter (fun o => o.state == .waiting)).length * 65536
    else if p = 0x30 ∧ off = 0x808 then d.watched.length
    else w
  else if 0x40 ≤ p ∧ p < 0x50 then (if off = 0x100 then d.progStat (p - 0x40) else w)
  else if p = 0x50 then (if off = 0x104 then putBits w 0 5 d.fry.colls.length else w)
  else if p = 0x51 then
    if off = 0x104 then putBits w 0 9 d.fry.serve.length
    else if off = 0x108 then d.fry.attn.length
    else w
  else if p = 0x52 then (if off = 0x100 then putBits w 0 3 d.fry.disp.length else w)
  else if p = 0x60 then (if off = 0x10C then putBits w 16 15 (ceilDiv d.spilledBytes 0x4000) else w)
  else if p = 0x69 then
    if off = 0x1B4 then
      putBit w 0 (ringFull (d.rd F.MIR_RING_PROD_PROD) (d.rd F.MIR_RING_CONS_CONS) (d.rd F.MIR_RING_CFG_LOG2_SIZE))
    else w
  else if p = 0xC0 then
    if 0x100 ≤ off ∧ off < 0x120 then d.errPend ((off - 0x100) / 4)
    else if off = 0x134 then
      putBit w 0 (ringFull (d.rd F.ERR_RING_PROD_PROD) (d.rd F.ERR_RING_CONS_CONS) (d.rd F.ERR_RING_CFG_LOG2_SIZE))
    else w
  else if p = 0xC1 then (if off = 0x138 then d.brokenPairs else w)
  else w

/-- What a 4-byte read of offset `a` returns, before latches (R10, R476, R602). -/
def Dev.readWord (d : Dev) (a : Nat) : Nat :=
  let p := a / 0x1000
  let off := a % 0x1000
  if (pageKind p).isNone then 0
  else if off = 0 then blkId p
  else if off = 8 then d.word a
  else if !d.pageOn p && !isAonPort a then 0
  else if off = 4 then blkCap p
  else if off = 0x10 then d.blkStat p
  else match routeAt p off with
    | some r => let e := nget (if r.1 then d.rte.bankB else d.rte.bankA) r.2.1; (if r.2.2 then e / 2 ^ 32 else e % 2 ^ 32)
    | none => d.statWord p off (d.word a) % 2 ^ 32

/-- A 4-byte read of a counter's word (R610): the low word latches the high one, which the next read of it returns. -/
def Dev.counterRead (p i : Nat) (high : Bool) (d : Dev) : Nat × Dev :=
  let k := 1024 * p + i
  let v := nget d.cnts k
  if high then
    let l := nget d.cntLatch k
    (if l = 0 then v / 2 ^ 32 else l - 1, { d with cntLatch := nset d.cntLatch k 0 })
  else (v % 2 ^ 32, { d with cntLatch := nset d.cntLatch k (1 + v / 2 ^ 32) })

/-- A 4-byte read of offset `a`, with what it latches: counters, tide time (R542), energy (R577: what it has grown by is
free). The progress of an overwrite scrub is free below 1,000 (R539). -/
def Dev.readReg (a : Nat) (d : Dev) : Nat × Dev :=
  let p := a / 0x1000
  let off := a % 0x1000
  if !d.pageOn p then (d.readWord a, d)
  else match counterAt p off with
    | some i => d.counterRead p i (off / 4 % 2 == 1)
    | none =>
      if a = 0x2118 then (d.ns % 2 ^ 32, d.latchTime)
      else if a = F.PWR_ENERGY_LO_MJ_LO.addr 1 0 then
        let r := d.draw
        let v := satAdd 64 d.pwr.mj r.1
        (v % 2 ^ 32, (({ r.2 with pwr := { r.2.pwr with mj := v } }).wr F.PWR_ENERGY_LO_MJ_LO (v % 2 ^ 32)).wr F.PWR_ENERGY_HI_MJ_HI
          (v / 2 ^ 32))
      else if a = 0x311C ∧ d.tenancy = 5 then
        let r := d.draw
        (putBits (d.readWord a) 16 10 (r.1 % 1000), r.2)
      else (d.readWord a, d)

/-! ### The paths (R531, R593, R611, R612) -/

/-- The pages that the sideband reaches whatever holds the core (R611). -/
def aonPage (p : Nat) : Bool := [0x000, 0x001, 0x002, 0x003, 0x004, 0x0C0].contains p

/-- Whether the sideband reaches page `p`: for a write, or a read only (R491, R531, R593, R611). -/
def Dev.sidebandReaches (d : Dev) (write : Bool) (p : Nat) : Bool :=
  !d.glb.off && (match d.glb.hold with
    | .none => true
    | .boot => !write && (p == 0x003 || p == 0x0C0)
    | .eoff => !write && (p == 0x000 || p == 0x001 || p == 0x0C0)
    | _ => aonPage p)

/-- The host reaches BAR0 (R584, R587): the core runs, PERST_N is high, MEMTRAIN has been reached, PCIE has power, and the function is in D0
(log entry 66). -/
def Dev.barOpen (d : Dev) : Bool :=
  d.running && !d.host.d3hot && d.rd F.GLB_PIN_STAT_PERST == 0 && d.pageOn 0x18 && decide (2 ≤ d.rd F.GLB_BOOT_STAT_STAGE)

/-- An access by master `m` to page `p` reaches its register. -/
def Dev.reaches (d : Dev) (m : Master) (write : Bool) (p : Nat) : Bool :=
  match m with
  | .mgmt => d.sidebandReaches write p
  | .host => d.barOpen
  | .fm => d.running

/-- An access of `size` bytes at `a` is 4 or 8 bytes, aligned (R476). -/
def accessOk (a size : Nat) : Bool := (size == 4 || size == 8) && a % size == 0

/-- A read of `size` bytes: two 4-byte accesses in ascending order where it is 8 (R476). -/
def Dev.readBytes (a size : Nat) (d : Dev) : List Byte × Dev :=
  let lo := d.readReg a
  if size = 8 then let hi := lo.2.readReg (a + 4); (natLE 4 lo.1 ++ natLE 4 hi.1, hi.2)
  else (natLE 4 lo.1, lo.2)

/-- REG_READ over the sideband (R611): status 0 and the value, or 1 where the access is dropped. -/
def Dev.sidebandRead (a : Nat) (d : Dev) : Dev :=
  if d.glb.off then d
  else if !accessOk a 4 ∨ !d.sidebandReaches false (a / 0x1000) then d.regAnswer .mgmt 1 (natLE 4 0)
  else
    let r := d.readBytes a 4
    r.2.regAnswer .mgmt 0 r.1

/-- REG_READ by message (R612). -/
def Dev.fmRead (src a size : Nat) (d : Dev) : Dev :=
  d.fromFm src (fun d =>
    if accessOk a size then let r := d.readBytes a size; r.2.ctrl src (.regReply sOk r.1)
    else d.ctrl src (.regReply sRights []))

/-- A read of BAR0 by the host (R476): one that is not 4 or 8 bytes, aligned, is completed with Unsupported Request (1) and captured in the
PCIE page. -/
def Dev.hostRegRead (a size : Nat) (d : Dev) : Dev :=
  if !d.barOpen then d
  else if !accessOk a size then (d.capture 0x18 .config 0 0x10 0x3F a).regAnswer .host 1 []
  else let r := d.readBytes a size; r.2.regAnswer .host 0 r.1

/-- COUNTER_LOW_READ (R610): the low word is answered and the high one latched. A read of another register of the page takes its master's
path (R476, R611); a fabric manager reads by messages (R612). -/
def Dev.counterLowRead (m : Master) (p : Nat) (a : PageRead) (d : Dev) : Dev :=
  match a with
  | .low i =>
    if !d.reaches m false p then d
    else if !d.pageOn p ∨ pageCounters p ≤ i then d.regAnswer m 0 (natLE 4 0)
    else let r := d.counterRead p i false; r.2.regAnswer m 0 (natLE 4 r.1)
  | .reg off size =>
    match m with
    | .host => d.hostRegRead (p * 0x1000 + off % 0x1000) size
    | .mgmt => d.sidebandRead (p * 0x1000 + off % 0x1000)
    | .fm => d

/-! ### The commands -/

/-- COUNTER_LOW_READ (R476, R610). -/
def execCounterLowRead (m : Master) (page : Nat) (a : PageRead) (s : State) : Host.Outcome State Fault Refusal :=
  onDev (Dev.counterLowRead m page a) s

/-- REG_READ (R611). -/
def execRegRead (a : Nat) (s : State) : Host.Outcome State Fault Refusal :=
  if 2 ^ 24 ≤ a then .fault (.outsideBar0 a) else onDev (Dev.sidebandRead a) s

/-- REG_READ by message (R612): the operand slot gives bits [23:0] of the offset. -/
def execFmRegRead (src a size : Nat) (s : State) : Host.Outcome State Fault Refusal :=
  onDev (Dev.ifRuns (Dev.fmRead src (a % 2 ^ 24) size)) s

end Sys2Proof.Machine
end

