-- ==== Sys2Proof/Machine/RegWrite.lean ====
section
/-!
DEFINITION. Writing registers (R7–R10, R476, R487, R508, R602–R608): access codes, owners, reserved encodings, the writes that
take effect only at certain times, BLK_CTRL, and what a write sets going.
-/
namespace Sys2Proof.Machine

/-! ### Owners (R507, R508) -/

/-- Master `m` is the owner of page `p`. -/
def Dev.owns (d : Dev) (m : Master) (p : Nat) : Bool := d.rdp F.BLK_OWNER_OWNER p == masterCode m

/-- The fabric-manager queue's registers, which only the host port writes (R615). -/
def isFmq (p off : Nat) : Bool := p == 4 && decide (0x200 ≤ off) && decide (off < 0x258)

/-- Master `m` may write the RWO and WO fields of this register (R508, R615). -/
def Dev.mayWrite (d : Dev) (m : Master) (p off : Nat) : Bool :=
  if isFmq p off then m == .host && d.rd F.MGMT_FM_CFG_FM_EN == 1 else d.owns m p

/-! ### Reserved encodings (R9) -/

/-- Positions of the dimension that a direction group lies in, once a join has been accepted (R404). DESIGN CHOICE (log entry 58), where R30 and
R405 do not say: before a join no dimension is known, any ROLE and GROUP is accepted, and a role that the join's shape would reserve
stays as it stands. -/
def Dev.groupDim (d : Dev) (g : Nat) : Option Nat := d.glb.join.map (fun j => if g % 4 < 2 then j.xDim else j.yDim)

/-- A role that the domain's shape reserves (R405): ROLE as written, with GROUP as written. -/
def Dev.roleReserved (d : Dev) (v : Nat) : Bool :=
  let role := bits v 0 3
  match d.groupDim (bits v 4 3) with
  | some n => (role == 2 && decide (n < 8)) || (role == 1 && n == 1)
  | none => false

/-- A group that the domain's shape reserves (R405). -/
def Dev.groupReserved (d : Dev) (v : Nat) : Bool :=
  let role := bits v 0 3
  match d.groupDim (bits v 4 3) with
  | some n => decide (4 ≤ bits v 4 3) && decide (n < 8) && role != 0 && role != 4
  | none => false

/-- Whether a BASE_HI that is written belongs to a ring in the near tier (R377). -/
def Dev.nearRing (d : Dev) (p : Nat) (f : Fld) (off : Nat) : Bool :=
  if f = F.FRY_SUB_BASE_HI_BASE_HI then d.rdpi F.FRY_SUB_CFG_HOST p ((off - f.off) / f.stride) == 0
  else if f = F.FRY_CMP_BASE_HI_BASE_HI then d.rdpi F.FRY_CMP_CFG_HOST p ((off - f.off) / f.stride) == 0
  else false

/-- Value `v` holds a reserved encoding of field `f` (R9): by the field's own table, by the domain's shape, by the other
fields of its register, or by the ring it belongs to. DESIGN CHOICE (log entry 58): SEC_CMD_ARG.TICKET 0, a reserved encoding for ASSIGN
(R539), counts at the write of SEC_CMD that holds ASSIGN with GO: the write keeps OP, is captured with CODE 2, and starts nothing. -/
def Dev.reserved (d : Dev) (p off v : Nat) (f : Fld) : Bool :=
  !f.accepts (bits v f.lo f.w)
    || (f == F.RTE_PORT_ROLE_ROLE && d.roleReserved v) || (f == F.RTE_PORT_ROLE_GROUP && d.groupReserved v)
    || ((f == F.LND_RANK_WIN_BASE || f == F.LND_RANK_WIN_SIZE) && decide (16384 < bits v 0 14 + bits v 16 15))
    || (d.nearRing p f off && bits v 20 12 != 0)
    || (f == F.SEC_CMD_OP && bits v 0 3 == 1 && bit v 31 && d.rd F.SEC_CMD_ARG_TICKET == 0)

/-! ### Parts of a write that take effect only at certain times -/

/-- Every bulk extent is FREE (R169). -/
def Dev.bulkFree (d : Dev) : Bool := d.home.ext.all (fun (e : Nat × ExtEnt) => decide (3072 ≤ e.1) || e.2.state == 0)

/-- Every fabric port's link is down (R421). -/
def Dev.linksDown (d : Dev) : Bool := (List.range 24).all (fun p => d.linkState p == 0)

/-- Field `f` of the register takes no value now (R169, R357, R421): its part of the write is dropped. -/
def Dev.partHeld (d : Dev) (p off : Nat) (f : Fld) : Bool :=
  (f == F.BULK_CFG_INTERLEAVE && !d.bulkFree) || (f == F.RTE_CFG_MODE && !d.linksDown)
    || (decide (0x30 ≤ p) && decide (p < 0x34) && decide (0x100 ≤ off) && decide (off < 0x500)
        && f != F.FRY_SUB_CFG_ENABLE && d.rdpi F.FRY_SUB_CFG_ENABLE p ((off - 0x100) / 0x40) == 1)
    || (decide (0x30 ≤ p) && decide (p < 0x34) && decide (0x500 ≤ off) && decide (off < 0x700)
        && f != F.FRY_CMP_CFG_ENABLE && d.rdpi F.FRY_CMP_CFG_ENABLE p ((off - 0x500) / 0x20) == 1)

/-- Whether master's write reaches field `f` at all (R7, R176, R508). -/
def fieldOpen (own : Bool) (f : Fld) : Bool :=
  match f.acc with
  | .rw => true
  | .rws => own || f != F.BULK_CFG_INTERLEAVE
  | .rwo => own
  | _ => false

/-- The word after field `f` of a write of `v` (R7): RW1C clears, a reserved encoding or a held part changes nothing. -/
def Dev.fieldWord (d : Dev) (own : Bool) (p off v w : Nat) (f : Fld) : Nat :=
  let x := bits v f.lo f.w
  if f.acc = .rw1c then putBits w f.lo f.w (bits w f.lo f.w - Nat.land (bits w f.lo f.w) x)
  else if fieldOpen own f ∧ !d.reserved p off v f ∧ !d.partHeld p off f then putBits w f.lo f.w x
  else w

/-- The word after a write of `v` to offset `off` of page `p`. -/
def Dev.newWord (d : Dev) (own : Bool) (p off v : Nat) : Nat :=
  let w := (fieldsAt p off).foldl (fun w f => d.fieldWord own p off v w f) (d.word (p * 0x1000 + off))
  if p = 1 ∧ off = 0x114 then putBit w 0 true else w

/-- The write carries a reserved encoding to a field it reaches (R9). -/
def Dev.anyReserved (d : Dev) (own : Bool) (p off v : Nat) : Bool :=
  (fieldsAt p off).any (fun f => fieldOpen own f && d.reserved p off v f)

/-- The write holds a part that takes no value now. R169 and R357 record every such write; one to RTE_CFG only where it would change MODE. -/
def Dev.anyHeld (d : Dev) (own : Bool) (p off v : Nat) : Bool :=
  (fieldsAt p off).any (fun f => fieldOpen own f && d.partHeld p off f
    && (f != F.RTE_CFG_MODE || bits v f.lo f.w != bits (d.word (p * 0x1000 + off)) f.lo f.w))

/-! ### Writes that are refused whole -/

/-- Two nodes that a configuration puts in one tray, or that its list misplaces (R196). -/
def Dev.groupConflict (d : Dev) : Option (Nat × Nat) :=
  let ms := (List.range 9).map d.member
  let pairs := (List.range 9).flatMap (fun i => ((List.range 9).filter (fun j => decide (i < j))).map (fun j => (nth ms i 0, nth ms j 0)))
  match pairs.find? (fun q => q.1 == q.2 || d.trayOf q.1 == d.trayOf q.2) with
  | some q => some q
  | none =>
    let own := nth ms (d.rd F.PROT_GROUP_POSITION) 0x7F
    if own = d.node then none else some (own, d.node)

/-- Why a write of PROT_CFG is refused (R196, R216): CODE and, for TRAY_CONFLICT, the two nodes; `e` is the state with the
fields written. -/
def Dev.protCfgRefused (d e : Dev) : Option (Nat × Nat) :=
  let changes := d.rd F.PROT_CFG_PARTNER != e.rd F.PROT_CFG_PARTNER || d.rd F.PROT_CFG_PARTNER_EN != e.rd F.PROT_CFG_PARTNER_EN
  let on := e.rd F.PROT_CFG_PARTNER_EN == 1
  if (on ∧ d.glb.join.isNone) ∨ (changes ∧ d.anyExt (fun st => st == 1)) then some (3, 0)
  else if on ∧ d.trayOf (e.rd F.PROT_CFG_PARTNER) = d.trayOf d.node then some (0x10, d.node % 128 + 256 * e.rd F.PROT_CFG_PARTNER)
  else none

/-- Why a write of PROT_GROUP or PROT_MEMBERS is refused (R196, R230). -/
def Dev.protGroupRefused (d e : Dev) : Option (Nat × Nat) :=
  if d.home.prot.any (fun (q : Nat × ProtEnt) => q.2.mode == 1 || q.2.mode == 2) then some (3, 0)
  else if e.rd F.PROT_GROUP_GROUP_EN = 0 then none
  else if d.glb.join.isNone then some (3, 0)
  else match e.groupConflict with
    | some q => some (0x10, q.1 % 128 + 256 * (q.2 % 128))
    | none => none

/-- The timeout relations hold (R494). -/
def Dev.timeoutsOk (d : Dev) : Bool :=
  decide (4 * d.rd F.RCV_RETX_RETX_US ≤ d.rd F.RCV_CFG_ORDER_TIMEOUT_US)
    && decide (2 * d.rd F.RCV_CFG_ORDER_TIMEOUT_US ≤ d.rd F.RCV_CFG_REQ_TIMEOUT_US)

/-- The thresholds stand in order (R430). -/
def Dev.threshOk (d : Dev) : Bool :=
  decide (1 ≤ d.rd F.CNG_THRESH_T1) && decide (d.rd F.CNG_THRESH_T1 ≤ d.rd F.CNG_THRESH_T2)
    && decide (d.rd F.CNG_THRESH_T2 ≤ d.rd F.CNG_THRESH_T3)

/-- The floors fit (R402). -/
def Dev.floorsOk (d : Dev) : Bool :=
  decide (35 * (d.rd F.SWC_FLOOR_REQ + d.rd F.SWC_FLOOR_RSP + d.rd F.SWC_FLOOR_BULK + d.rd F.SWC_FLOOR_CTRL) ≤ 16384)

/-- The sum of all 140 limits (R402). -/
def Dev.limitSum (d : Dev) : Nat :=
  ((List.range 35).map (fun i => d.rdi F.SWC_LIMIT_A_REQ i + d.rdi F.SWC_LIMIT_A_RSP i + d.rdi F.SWC_LIMIT_B_BULK i
    + d.rdi F.SWC_LIMIT_B_CTRL i)).sum

/-- The slots that port `p` advertises (R460). -/
def Dev.slotTotal (d : Dev) (p : Nat) : Nat :=
  2 * (d.lrd p F.PRT_CREDIT0_REQ F.LNDL_CREDIT0_REQ + d.lrd p F.PRT_CREDIT0_RSP F.LNDL_CREDIT0_RSP
    + d.lrd p F.PRT_CREDIT1_BULK F.LNDL_CREDIT1_BULK + d.lrd p F.PRT_CREDIT1_CTRL F.LNDL_CREDIT1_CTRL)
    + 8 * d.lrd p F.PRT_CREDIT1_TOW F.LNDL_CREDIT1_TOW

/-- Every near extent of bank group `g` but its VOQ extents is FREE (R558). -/
def Dev.groupFree (d : Dev) (g : Nat) : Bool :=
  (List.range 40).all (fun i => isVoqExt (3072 + 40 * g + i) || (d.ext (3072 + 40 * g + i)).state == 0)

/-- Why a write is refused whole: CODE, and the detail where it is not that of a dropped write; `e` is the state with the
fields written (R196, R216, R230, R402, R405, R430, R460, R494, R539, R558). -/
def Dev.writeRefused (d e : Dev) (p off : Nat) : Option (Nat × Nat) :=
  let need := fun (ok : Bool) => if ok then none else some (3, 0)
  if p = 0x2B ∧ off = 0x100 then d.protCfgRefused e
  else if p = 0x2B ∧ 0x104 ≤ off ∧ off ≤ 0x110 then d.protGroupRefused e
  else if p = 0x61 ∧ 0x200 ≤ off ∧ off < 0x260 then need (d.linkState ((off - 0x200) / 4) == 0)
  else if p = 0xC1 ∧ (off = 0x100 ∨ off = 0x104) then need e.timeoutsOk
  else if p = 0x68 ∧ off = 0x100 then need e.threshOk
  else if p = 0x68 ∧ off = 0x104 then need (decide (e.rd F.CNG_WIN_MIN ≤ e.rd F.CNG_WIN_MAX))
  else if p = 0x60 ∧ off = 0x108 then need e.floorsOk
  else if p = 0x60 ∧ 0x200 ≤ off ∧ off < 0x318 then need (decide (e.limitSum ≤ 16384) || decide (e.limitSum ≤ d.limitSum))
  else if 0x80 ≤ p ∧ p < 0x98 ∧ (off = 0x110 ∨ off = 0x114) then
    need (decide (e.slotTotal (p - 0x80) ≤ 65536) || decide (e.slotTotal (p - 0x80) ≤ d.slotTotal (p - 0x80)))
  else if 0x10 ≤ p ∧ p < 0x14 ∧ (off = 0x310 ∨ off = 0x314) then
    need (decide (e.slotTotal (24 + (p - 0x10)) ≤ 65536) || decide (e.slotTotal (24 + (p - 0x10)) ≤ d.slotTotal (24 + (p - 0x10))))
  else if p = 0x03 ∧ 0x130 ≤ off ∧ off < 0x160 then need (d.tenancy == 0)
  else if p = 0x01 ∧ off = 0x128 then
    need ([1, 2, 3].all (fun g => !(bit (d.rd F.PWR_DOM_REQ_REQ) (20 + g) && !bit (e.rd F.PWR_DOM_REQ_REQ) (20 + g)) || d.groupFree g))
  else none

/-! ### Headers: owner, control, interrupts, capture (R39, R487, R508, R603–R608, R610) -/

/-- A write of BLK_OWNER (R508): the result says whether it was dropped. -/
def Dev.ownerWrite (m : Master) (p v : Nat) (d : Dev) : Bool × Dev :=
  let o := d.rdp F.BLK_OWNER_OWNER p
  if o ≠ 3 ∧ (o = masterCode m ∨ m = .mgmt) then (false, d.wrp F.BLK_OWNER_OWNER p v)
  else (true, d.dropWrite m p 8 v 1)

/-- CNT_CLEAR: every counter of the page is 0 (R610). -/
def Dev.clearCounters (p : Nat) (d : Dev) : Dev :=
  { d with cnts := tdrop (fun c => c / 1024 == p) d.cnts, cntLatch := tdrop (fun c => c / 1024 == p) d.cntLatch }

/-- The ENABLE and QUIESCE parts of a BLK_CTRL write (R604): whether some part is dropped, and the state after. -/
def Dev.ctrlParts (p v : Nat) (d : Dev) : Bool × Dev :=
  match pageKind p with
  | none => (false, d)
  | some k =>
    if !k.quiesce then (bit v 1 || !bit v 0, d)
    else
      let quiesced := d.rdp F.BLK_STAT_QUIESCED p == 1
      let drop := !bit v 0 && d.rdp F.BLK_CTRL_ENABLE p == 1 && !quiesced
      let d := if drop then d else d.wrp F.BLK_CTRL_ENABLE p (bits v 0 1)
      let d := d.wrp F.BLK_CTRL_QUIESCE p (bits v 1 1)
      let free := d.rdp F.BLK_CTRL_QUIESCE p == 0 && d.rdp F.BLK_CTRL_ENABLE p == 1 && !d.powerHeld p
      (drop, if free then d.wrp F.BLK_STAT_QUIESCED p 0 else d)

/-- SOFT_RESET is accepted (R605). -/
def Dev.softOk (d : Dev) (p : Nat) : Bool :=
  ((pageKind p).map (·.srst)).getD false && d.rdp F.BLK_CTRL_ENABLE p == 0 && d.rdp F.BLK_STAT_QUIESCED p == 1

/-- A write of BLK_CTRL by the owner (R603–R605, R610): a part that is dropped is captured, once for the write. -/
def Dev.ctrlWrite (m : Master) (p v : Nat) (d : Dev) : Dev :=
  let ok := d.softOk p
  let r := d.ctrlParts p v
  let d := if bit v 2 ∧ ok then r.2.softReset p else r.2
  let d := if bit v 4 then d.clearCounters p else d
  let d := d.wrp F.BLK_CTRL_CNT_FREEZE p (bits v 3 1)
  if r.1 ∨ (bit v 2 ∧ !ok) then d.dropWrite m p 0x0C v 3 else d

/-- BLK_ISR with the bits of `v` set, as their events would (R603). -/
def Dev.isrSet (p v : Nat) (d : Dev) : Dev :=
  let a := p * 0x1000 + 0x14
  (d.setWord a (Nat.lor (d.word a) (Nat.land v 0x80FFFFFF))).ifPending d p

/-- BLK_IER is written: a page that becomes pending sends its message (R606). -/
def Dev.ierSet (p w : Nat) (d : Dev) : Dev := (d.setWord (p * 0x1000 + 0x18) w).ifPending d p

/-- A write of 1 to BLK_ERR_CAP0.VALID (R487). -/
def Dev.rearm (p v : Nat) (d : Dev) : Dev :=
  if bit v 0 then (d.wrp F.BLK_ERR_CAP0_VALID p 0).wrp F.BLK_ERR_CAP0_OVERFLOW p 0 else d

/-! ### What a write sets going -/

/-- The fabric-manager message staged in the TX words: its header and SLOTS further slots, 48 bytes (R614, R615). -/
def Dev.stagedMsg (d : Dev) : List Byte :=
  let all := (List.range 12).flatMap (fun i => natLE 4 (d.rdi F.MGMT_FMQ_TX_WORD i))
  sliceBytes (all.take (16 * (1 + d.rd F.MGMT_FMQ_CMD_SLOTS))) 0 48

/-- GO of MGMT_FMQ_CMD (R615). -/
def Dev.fmqQueue (m : Master) (v : Nat) (d : Dev) : Dev :=
  if 8 ≤ d.mgmt.sendQ.length then d.dropWrite m 4 0x230 v 4
  else { d with mgmt := { d.mgmt with sendQ := d.mgmt.sendQ ++ [d.stagedMsg] } }

/-- ENABLE of a host-memory ring has gone from 0 to 1: its indices are 0 (R403, R512, R614). -/
def Dev.ringStart (old new : Nat) (fs : List Fld) (d : Dev) : Dev :=
  if !bit old 0 && bit new 0 then fs.foldl (fun (d : Dev) f => d.wr f 0) d else d

/-- LND_RANK_WIN is written: the window of the context that LND_RANK_CTX names (R295). -/
def Dev.rankWinSet (n w : Nat) (d : Dev) : Dev :=
  let c := d.rdp F.LND_RANK_CTX_CONTEXT (lndPage n)
  d.setLnd n (fun l => { l with wins := nset l.wins c w })

/-- LND_RANK_DATA is written: the entry at INDEX, and INDEX advances (R293, R295). -/
def Dev.rankDataSet (n v : Nat) (d : Dev) : Dev :=
  let i := d.rdp F.LND_RANK_ADDR_INDEX (lndPage n)
  (d.setLnd n (fun l => { l with ranks := nset l.ranks i (Nat.land v 0x81FF) })).wrp F.LND_RANK_ADDR_INDEX (lndPage n) ((i + 1) % 16384)

/-- A field that is written to page `p`, offset `off`, has begun something outside the registers: `old` and `w` are the
word before and after, `v` what was written, `act` that no reserved encoding keeps it from acting (R9), `go` that bit 31 acts. The
landing pages. -/
def Pkg.lndWritten (m : Master) (n off old w v : Nat) (act go : Bool) (x : Pkg) : Pkg :=
  if off = 0x100 then Pkg.settle (x.dev (Dev.lndCfgWritten n (bits old 0 1) (bits old 1 1)))
  else if off = 0x180 then (if go then Pkg.settle (x.lndFenceGo n old) else x)
  else if off = 0x204 then (if act then x.dev (Dev.rankWinSet n w) else x)
  else if off = 0x20C then x.dev (Dev.rankDataSet n v)
  else if off = 0x300 then Pkg.settle (x.dev (Dev.linkCfgWritten (24 + n)))
  else if off = 0x30C then (if go then x.dev (Dev.widthCmd m (24 + n) v) else x)
  else x

/-- The ferryman's pages: a ring's ENABLE (R357, R371, R377). -/
def Pkg.fryWritten (k off old w : Nat) (x : Pkg) : Pkg :=
  if 0x100 ≤ off ∧ off < 0x500 ∧ (off - 0x100) % 0x40 = 8 then
    let r := 16 * k + (off - 0x100) / 0x40
    Pkg.settle (Pkg.fetchAll (if bits old 0 1 = bits w 0 1 then x else x.dev (Dev.subEnabled r (bit w 0))))
  else if 0x500 ≤ off ∧ off < 0x700 ∧ (off - 0x500) % 0x20 = 8 then
    let r := 16 * k + (off - 0x500) / 0x20
    Pkg.settle (if bits old 0 1 = bits w 0 1 then x else x.dev (Dev.cmpEnabled r (bit w 0)))
  else Pkg.settle (Pkg.fetchAll x)

/-- The fault rings (R112, R113). -/
def Dev.fltWritten (off old w : Nat) (d : Dev) : Dev :=
  let r := (off - 0x100) / 0x20
  if (off - 0x100) % 0x20 = 8 then (if !bit old 0 && bit w 0 then d.fltEnabled r else d)
  else if (off - 0x100) % 0x20 = 0x10 then d.fltDeliver r
  else d

/-- PWR, TIME, SEC and MGMT (R539, R548, R555, R561–R568, R576, R615). -/
def Pkg.aonWritten (m : Master) (p off old w v : Nat) (go : Bool) (x : Pkg) : Pkg :=
  if p = 0 then (if off = 0x10C ∧ go then Pkg.settle (x.dev Dev.joinCmd) else x)
  else if p = 1 then
    if off = 0x104 then x.dev (Dev.capOrder (bits w 0 10) 0)
    else if off = 0x130 then (if go then x.dev (fun d => d.wr F.PWR_AVG_PEAK_W 0) else x)
    else x
  else if p = 2 then
    if off = 0x100 then x.dev (Dev.timeCfgWritten (bits old 0 1))
    else if off = 0x134 then (if go then x.dev Dev.timeCmd else x)
    else x
  else if p = 3 then (if off = 0x114 ∧ go then x.secCmd m v else x)
  else
    if off = 0x230 then (if go then x.dev (Dev.fmqQueue m v) else x)
    else if off = 0x248 then x.dev (Dev.ringStart old w [F.MGMT_FMQ_RX_PROD_PROD, F.MGMT_FMQ_RX_CONS_CONS])
    else x

/-- HOME, PROT and SMP commands (R190, R198, R617). -/
def Pkg.homeWritten (m : Master) (p off old v : Nat) (go : Bool) (x : Pkg) : Pkg :=
  if !go then x
  else if p = 0x28 ∧ off = 0x114 then Pkg.settle (Pkg.pump (x.dev (fun d => d.homeCmd m v (d.rd F.HOME_CMD_OP))))
  else if p = 0x28 ∧ off = 0x11C then x.dev Dev.bitmapClr
  else if p = 0x2B ∧ off = 0x124 then Pkg.settle (Pkg.pump (x.binding (Dev.bindCmd m v)))
  else if p = 0x2C ∧ off = F.SMP_SNAP_CMD_GO.off then x.dev (Dev.snapshot m old v)
  else x

/-- Routing, switch, mirror and link pages (R402, R403, R405, R422, R436, R441, R453). -/
def Dev.fabricWritten (m : Master) (p off old w v : Nat) (go : Bool) (d : Dev) : Dev :=
  if p = 0x60 then d.retryRecv
  else if p = 0x61 then
    if off = 0x110 then (if go then d.rteCmd m else d)
    else if 0x200 ≤ off ∧ off < 0x260 then d.tryDetect ((off - 0x200) / 4)
    else d
  else if p = 0x69 then (if off = 0x1A8 then d.ringStart old w [F.MIR_RING_PROD_PROD, F.MIR_RING_CONS_CONS] else d)
  else if 0x80 ≤ p ∧ p < 0x98 then
    if off = 0x100 then d.linkCfgWritten (p - 0x80)
    else if off = 0x10C ∧ go then d.widthCmd m (p - 0x80) v
    else d
  else if 0xA0 ≤ p ∧ p < 0xBC ∧ off = 0x210 then d.eyeCmd m p v
  else d

/-- What a write that took effect sets going, while the core runs; `act` says that WO fields act (R9, R508). -/
def Pkg.written (m : Master) (p off old w v : Nat) (act : Bool) (x : Pkg) : Pkg :=
  let go := act && bit v 31
  if p ≤ 4 then x.aonWritten m p off old w v go
  else if 0x10 ≤ p ∧ p < 0x14 then x.lndWritten m (p - 0x10) off old w v act go
  else if p = 0x20 then (if off = 0x10C ∧ go then Pkg.settle (x.dev (Dev.xltInvGo m old v)) else x)
  else if p = 0x21 then x.dev (Dev.fltWritten off old w)
  else if p = 0x28 ∨ p = 0x2B ∨ p = 0x2C then x.homeWritten m p off old v go
  else if 0x30 ≤ p ∧ p < 0x34 then x.fryWritten (p - 0x30) off old w
  else if 0x40 ≤ p ∧ p < 0x50 then (if off = 0x104 ∧ go then x.dev (Dev.progInv (p - 0x40)) else x)
  else if p = 0xC0 then
    (if off = 0x128 then x.dev (Dev.ringStart old w [F.ERR_RING_PROD_PROD, F.ERR_RING_CONS_CONS, F.ERR_RING_STAT_MISSED]) else x)
  else if p = 0xC1 then (if off = 0x130 ∧ go then x.rcvCmd else x)
  else Pkg.settle (x.dev (Dev.fabricWritten m p off old w (if act then v else 0) go))

/-! ### One 4-byte write -/

/-- A write of a header register other than BLK_OWNER (R487, R603–R608). -/
def Pkg.headerWrite (m : Master) (p off v : Nat) (own : Bool) (x : Pkg) : Bool × Pkg :=
  if !own ∧ [0x0C, 0x18, 0x1C, 0x34].contains off then (true, x.dev (fun d => d.dropWrite m p off v 1))
  else
    (false,
      if off = 0x0C then
        let y := x.dev (Dev.ctrlWrite m p v)
        if x.2.running then Pkg.released y else y
      else if off = 0x18 then x.dev (fun d => d.ierSet p (d.newWord own p off v))
      else if off = 0x1C then x.dev (Dev.isrSet p v)
      else if off = 0x20 then x.dev (Dev.rearm p v)
      else if off = 0x34 then (if bit v 31 then x.dev (fun d => d.wrp F.BLK_PACE_PACE_LOW p 0xFFF) else x)
      else x.dev (fun d => d.setWord (p * 0x1000 + off) (d.newWord own p off v)))

/-- A write of PWR_CMD (R561, R562, R566): WAKE acts over the sideband whoever owns the page. -/
def Pkg.pwrCmdWrite (m : Master) (v : Nat) (own : Bool) (x : Pkg) : Bool × Pkg :=
  let op := bits v 0 3
  if own then
    let bad := x.2.anyReserved true 1 0x10C v
    let d := x.2.setWord 0x110C (x.2.newWord true 1 0x10C v)
    if bad then (false, (x.1, d.dropWrite m 1 0x10C v 2))
    else (false, (x.1, if bit v 31 then d.pwrCmd m v op true else d))
  else if op = 3 ∧ bit v 31 ∧ m = .mgmt then (false, x.dev (Dev.pwrCmd m v op false))
  else (true, x.dev (fun d => d.dropWrite m 1 0x10C v 1))

/-- A write of half a route entry (R407, R422, R429): only in a RETIRED bank, by the page's owner. -/
def Pkg.routeWrite (m : Master) (p off v : Nat) (own : Bool) (r : Bool × Nat × Bool) (x : Pkg) : Bool × Pkg :=
  if !own then (true, x.dev (fun d => d.dropWrite m p off v 1))
  else if x.2.bankState r.1 ≠ 0 then (true, x.dev (fun d => d.dropWrite m p off v 3))
  else
    let old := nget (if r.1 then x.2.rte.bankB else x.2.rte.bankA) r.2.1
    let new := if r.2.2 then old % 2 ^ 32 + v * 2 ^ 32 else old / 2 ^ 32 * 2 ^ 32 + v
    let d := x.2.setRoute r.1 r.2.1 (routeMerge old new)
    (false, (x.1, if r.2.2 ∧ 24 ≤ bits new 48 5 then d.dropWrite m p off v 2 else d))

/-- A write of a page's own register (R7–R9, R508). -/
def Pkg.fieldsWrite (m : Master) (p off v : Nat) (own : Bool) (x : Pkg) : Bool × Pkg :=
  let d := x.2
  let a := p * 0x1000 + off
  let guarded := (fieldsAt p off).any (fun f => f.acc == .rwo || f.acc == .wo || f == F.BULK_CFG_INTERLEAVE || isFmq p off)
  if guarded ∧ !own then
    let w := d.newWord false p off v
    (true, x.dev (fun d => (if isFmq p off then d else d.setWord a w).dropWrite m p off v 1))
  else
    let old := d.word a
    let w := d.newWord own p off v
    let e := d.setWord a w
    match d.writeRefused e p off with
    | some (0x10, detail) => (true, x.dev (fun d => d.capture p .config 0 0x10 0x3F detail))
    | some (code, _) => (true, x.dev (fun d => d.dropWrite m p off v code))
    | none =>
      let bad := d.anyReserved own p off v
      let e := if bad then e.dropWrite m p off v 2 else e
      let e := if d.anyHeld own p off v then e.dropWrite m p off v 3 else e
      if d.running then (false, Pkg.written m p off old w v (!bad) (x.1, e)) else (false, (x.1, e))

/-- A write of the 4-byte word at BAR0 offset `a` by master `m`, with the answer whether it was dropped (R476, R508, R602). -/
def Pkg.write4 (m : Master) (a v : Nat) (x : Pkg) : Bool × Pkg :=
  let p := a / 0x1000
  let off := a % 0x1000
  let d := x.2
  let v := v % 2 ^ 32
  if (pageKind p).isNone then
    (false, if m = .host then x.dev (fun d => d.capture 0x18 .config 0 0x11 0x3F a) else x)
  else if !d.pageOn p ∧ !isAonPort a then
    (true, if d.pageOn 0x18 then x.dev (fun d => d.capture 0x18 .config 0 0x12 0x3F (a + masterCode m * 2 ^ 24)) else x)
  else if off = 8 then let r := d.ownerWrite m p v; (r.1, (x.1, r.2))
  else if off < 0x100 then x.headerWrite m p off v (d.mayWrite m p off)
  else if p = 1 ∧ off = 0x10C then x.pwrCmdWrite m v (d.mayWrite m p off)
  else match routeAt p off with
    | some r => x.routeWrite m p off v (d.mayWrite m p off) r
    | none => x.fieldsWrite m p off v (d.mayWrite m p off)

/-- A write of `size` bytes (R476): 8 bytes act as two 4-byte writes in ascending order; any other size or alignment is
refused, and captured where the host asked. -/
def Pkg.regWrite (m : Master) (a size v : Nat) (x : Pkg) : Bool × Pkg :=
  if !x.2.reaches m true (a / 0x1000) then (true, x)
  else
    let x := if m = .host then x.dev (fun d => d.count 0x18 0 1) else x
    if !accessOk a size then
      (true, if m = .host then x.dev (fun d => d.capture 0x18 .config 0 0x10 0x3F (a % 2 ^ 24 + (2 ^ min size 4 - 1) % 16 * 2 ^ 24)) else x)
    else
      let r := x.write4 m a v
      if size = 8 then let q := r.2.write4 m (a + 4) (v / 2 ^ 32); (r.1 || q.1, q.2) else r

/-- A register write as a command: an offset beyond BAR0 does not exist (R602). -/
def regOut (m : Master) (a size v : Nat) (s : State) : Host.Outcome State Fault Refusal :=
  if 2 ^ 24 ≤ a then .fault (.outsideBar0 a) else onAll (fun x => (Pkg.regWrite m a size v x).2) s

end Sys2Proof.Machine
end

