-- ==== Sys2Proof/Machine/RegCmds.lean ====
section
/-!
DEFINITION. The commands that are register writes with a row of their own, each the write of its register (R602); the
commands that also come as messages of the fabric manager (R613); the sideband and the fabric-manager queue (R611–R615).
-/
namespace Sys2Proof.Machine

/-! ### Register writes and messages -/

/-- The register write of a command register whose OP is field `f`: OP holds `op`, GO is 1, the other bits as they stand. -/
def goWord (f : Fld) (op : Nat) (s : State) : Nat :=
  putBit (putBits (s.dev.word (f.addr f.page 0)) f.lo f.w op) 31 true

/-- A write of the register of field `f` in its first page. -/
def regField (m : Master) (f : Fld) (v : Nat) (s : State) : Host.Outcome State Fault Refusal :=
  regOut m (f.addr f.page 0) 4 v s

/-- GO with operation `op` of the command register whose OP is field `f`. -/
def regGo (m : Master) (f : Fld) (op : Nat) (s : State) : Host.Outcome State Fault Refusal := regField m f (goWord f op s) s

/-- A fabric-manager message to HOME or PROT (R613): what it changes moves the queue. -/
def onFm (src : Nat) (f : Dev → Dev) (s : State) : Host.Outcome State Fault Refusal :=
  onPkg (fun x => Pkg.settle (Pkg.pump (x.dev (fun d => d.fromFm src f)))) s

/-- An extent command of either form (R70, R613, R617). -/
def extForm (o : ExtOp) (op : Nat) (c : Cmd ExtArgs) (s : State) : Host.Outcome State Fault Refusal :=
  match c with
  | .reg m => regGo m F.HOME_CMD_OP op s
  | .msg src a => onFm src (Dev.extCommand o (some src) a) s

/-- A region command of either form (R75, R613, R617). -/
def regionForm (create : Bool) (op : Nat) (c : Cmd RegionArgs) (s : State) : Host.Outcome State Fault Refusal :=
  match c with
  | .reg m => regGo m F.HOME_CMD_OP op s
  | .msg src a => onFm src (Dev.regionCommand create (some src) a) s

/-- A recovery command of either form (R499, R511, R613). -/
def rcvForm (name : String) (op : Nat) (rule : Nat → Dev → Nat × Dev) (c : Cmd NodeGen) (s : State) :
    Host.Outcome State Fault Refusal :=
  match c with
  | .reg m => regGo m F.RCV_CMD_OP op s
  | .msg src a => onPkg (Pkg.rcvMsg src name a.gen (rule (a.node % 128))) s

/-- A tenancy command of either form (R521, R539, R613); `t` is the ticket that its message carries. -/
def secForm {α : Type} (op : Nat) (t : α → Nat) (c : Cmd α) (s : State) : Host.Outcome State Fault Refusal :=
  match c with
  | .reg m => regGo m F.SEC_CMD_OP op s
  | .msg src a => onPkg (Pkg.secMsg src op (t a % 16)) s

/-! ### Any register, and the common header (R7, R508, R603–R608, R610) -/

/-- REGISTER_WRITE (R7). -/
def execRegisterWrite (m : Master) (a size v : Nat) (s : State) : Host.Outcome State Fault Refusal := regOut m a size v s

/-- BLK_OWNER_WRITE (R508). -/
def execBlkOwnerWrite (m : Master) (page : Nat) (v : W32) (s : State) : Host.Outcome State Fault Refusal :=
  regOut m (page * 0x1000 + 0x08) 4 v.toNat s

/-- BLK_QUIESCE (R604). -/
def execBlkQuiesce (m : Master) (page : Nat) (v : W32) (s : State) : Host.Outcome State Fault Refusal :=
  regOut m (page * 0x1000 + 0x0C) 4 v.toNat s

/-- BLK_ENABLE (R604). -/
def execBlkEnable (m : Master) (page : Nat) (v : W32) (s : State) : Host.Outcome State Fault Refusal :=
  regOut m (page * 0x1000 + 0x0C) 4 v.toNat s

/-- SOFT_RESET (R605). -/
def execSoftReset (m : Master) (page : Nat) (v : W32) (s : State) : Host.Outcome State Fault Refusal :=
  regOut m (page * 0x1000 + 0x0C) 4 (putBit v.toNat 2 true) s

/-- CNT_FREEZE (R610). -/
def execCntFreeze (m : Master) (page : Nat) (v : W32) (s : State) : Host.Outcome State Fault Refusal :=
  regOut m (page * 0x1000 + 0x0C) 4 v.toNat s

/-- CNT_CLEAR (R610). -/
def execCntClear (m : Master) (page : Nat) (v : W32) (s : State) : Host.Outcome State Fault Refusal :=
  regOut m (page * 0x1000 + 0x0C) 4 (putBit v.toNat 4 true) s

/-- BLK_ISR_CLEAR (R606). -/
def execBlkIsrClear (m : Master) (page : Nat) (v : W32) (s : State) : Host.Outcome State Fault Refusal :=
  regOut m (page * 0x1000 + 0x14) 4 v.toNat s

/-- BLK_ITR (R603). -/
def execBlkItr (m : Master) (page : Nat) (v : W32) (s : State) : Host.Outcome State Fault Refusal :=
  regOut m (page * 0x1000 + 0x1C) 4 v.toNat s

/-- BLK_IER_WRITE (R606). -/
def execBlkIerWrite (m : Master) (page : Nat) (v : W32) (s : State) : Host.Outcome State Fault Refusal :=
  regOut m (page * 0x1000 + 0x18) 4 v.toNat s

/-- CAP_REARM (R487). -/
def execCapRearm (m : Master) (page : Nat) (v : W32) (s : State) : Host.Outcome State Fault Refusal :=
  regOut m (page * 0x1000 + 0x20) 4 (putBit v.toNat 0 true) s

/-- LOW_CLR (R39). -/
def execLowClr (m : Master) (page : Nat) (v : W32) (s : State) : Host.Outcome State Fault Refusal :=
  regOut m (page * 0x1000 + 0x34) 4 (putBit v.toNat 31 true) s

/-! ### Landings, faults, translation -/

/-- LND_FENCE_GO (R147). -/
def execLndFenceGo (m : Master) (n : Fin 4) (v : W32) (s : State) : Host.Outcome State Fault Refusal :=
  regOut m (0x10180 + 0x1000 * n.val) 4 (putBit v.toNat 31 true) s

/-- LND_CFG_WRITE (R144). -/
def execLndCfgWrite (m : Master) (n : Fin 4) (v : W32) (s : State) : Host.Outcome State Fault Refusal :=
  regOut m (0x10100 + 0x1000 * n.val) 4 v.toNat s

/-- LND_RANK_DATA_WRITE (R295). -/
def execLndRankDataWrite (m : Master) (n : Fin 4) (v : W32) (s : State) : Host.Outcome State Fault Refusal :=
  regOut m (0x1020C + 0x1000 * n.val) 4 v.toNat s

/-- FLT_RING_CONS (R112). -/
def execFltRingCons (m : Master) (ring : Fin 16) (v : W32) (s : State) : Host.Outcome State Fault Refusal :=
  regOut m (0x21110 + 0x20 * ring.val) 4 v.toNat s

/-- FLT_RING_CFG_WRITE (R113). -/
def execFltRingCfgWrite (m : Master) (ring : Fin 16) (v : W32) (s : State) : Host.Outcome State Fault Refusal :=
  regOut m (0x21108 + 0x20 * ring.val) 4 v.toNat s

/-- XLT_INV_GO (R104). -/
def execXltInvGo (m : Master) (v : W32) (s : State) : Host.Outcome State Fault Refusal :=
  regField m F.XLT_INV_CMD_GO (putBit v.toNat 31 true) s

/-! ### Home, stores, protection -/

/-- EXT_GRANT (R70). -/
def execExtGrant (c : Cmd ExtArgs) (s : State) : Host.Outcome State Fault Refusal := extForm .grant 1 c s

/-- EXT_WIDEN (R70). -/
def execExtWiden (c : Cmd ExtArgs) (s : State) : Host.Outcome State Fault Refusal := extForm .widen 2 c s

/-- EXT_REVOKE (R120). -/
def execExtRevoke (c : Cmd ExtArgs) (s : State) : Host.Outcome State Fault Refusal := extForm .revoke 3 c s

/-- EXT_RESERVE (R70). -/
def execExtReserve (c : Cmd ExtArgs) (s : State) : Host.Outcome State Fault Refusal := extForm .reserve 4 c s

/-- EXT_RELEASE (R70). -/
def execExtRelease (c : Cmd ExtArgs) (s : State) : Host.Outcome State Fault Refusal := extForm .release 5 c s

/-- REGION_CREATE (R75). -/
def execRegionCreate (c : Cmd RegionArgs) (s : State) : Host.Outcome State Fault Refusal := regionForm true 6 c s

/-- REGION_DESTROY (R75). -/
def execRegionDestroy (c : Cmd RegionArgs) (s : State) : Host.Outcome State Fault Refusal := regionForm false 7 c s

/-- HOME_BITMAP_CLR (R617). -/
def execHomeBitmapClr (m : Master) (v : W32) (s : State) : Host.Outcome State Fault Refusal :=
  regField m F.HOME_BITMAP_CLR_GO (putBit v.toNat 31 true) s

/-- BULK_CFG_WRITE (R169, R176). -/
def execBulkCfgWrite (m : Master) (v : W32) (s : State) : Host.Outcome State Fault Refusal :=
  regField m F.BULK_CFG_INTERLEAVE v.toNat s

/-- SNAPSHOT (R190). -/
def execSnapshot (m : Master) (v : W32) (s : State) : Host.Outcome State Fault Refusal :=
  regField m F.SMP_SNAP_CMD_GO (putBit v.toNat 31 true) s

/-- PROT_BIND (R198). -/
def execProtBind (c : Cmd BindMsg) (s : State) : Host.Outcome State Fault Refusal :=
  match c with
  | .reg m => regField m F.PROT_BIND_CMD_GO (putBit (s.dev.word 0x2B124) 31 true) s
  | .msg src a => onPkg (fun x => Pkg.settle (Pkg.pump (x.binding (Dev.protBindMsg src a)))) s

/-- PROT_CFG_WRITE (R196, R216). -/
def execProtCfgWrite (m : Master) (v : W32) (s : State) : Host.Outcome State Fault Refusal :=
  regField m F.PROT_CFG_PARTNER v.toNat s

/-- PROT_GROUP_WRITE (R196, R230). -/
def execProtGroupWrite (m : Master) (reg : Fin 4) (v : W32) (s : State) : Host.Outcome State Fault Refusal :=
  regOut m (0x2B104 + 4 * reg.val) 4 v.toNat s

/-! ### Arrays and the ferryman -/

/-- PNT_PROG_INV (R291). -/
def execPntProgInv (m : Master) (a : Fin 16) (v : W32) (s : State) : Host.Outcome State Fault Refusal :=
  regOut m (0x40104 + 0x1000 * a.val) 4 (putBit v.toNat 31 true) s

/-- FRY_SUB_CFG_WRITE (R357, R377). -/
def execFrySubCfgWrite (m : Master) (ring : Fin 64) (v : W32) (s : State) : Host.Outcome State Fault Refusal :=
  regOut m (0x30108 + 0x1000 * (ring.val / 16) + 0x40 * (ring.val % 16)) 4 v.toNat s

/-- FRY_CMP_CFG_WRITE (R371, R377). -/
def execFryCmpCfgWrite (m : Master) (ring : Fin 64) (v : W32) (s : State) : Host.Outcome State Fault Refusal :=
  regOut m (0x30508 + 0x1000 * (ring.val / 16) + 0x20 * (ring.val % 16)) 4 v.toNat s

/-! ### Routes, links, diagnosis -/

/-- ROUTE_ENTRY_WRITE (R422, R429). -/
def execRouteEntryWrite (m : Master) (page off : Nat) (v : W32) (s : State) : Host.Outcome State Fault Refusal :=
  regOut m (page * 0x1000 + off) 4 v.toNat s

/-- ARM (R422, R423). -/
def execArm (c : Cmd (Bool × Nat)) (s : State) : Host.Outcome State Fault Refusal :=
  match c with
  | .reg m => regGo m F.RTE_CMD_OP 1 s
  | .msg src a => onPkg (fun x => Pkg.settle (x.dev (fun d => d.fromFm src (Dev.armMsg src a.1 (a.2 % 2 ^ 64))))) s

/-- DISARM (R422). -/
def execDisarm (c : Cmd Bool) (s : State) : Host.Outcome State Fault Refusal :=
  match c with
  | .reg m => regGo m F.RTE_CMD_OP 2 s
  | .msg src a => onPkg (fun x => Pkg.settle (x.dev (fun d => d.fromFm src (Dev.disarmMsg src a)))) s

/-- RTE_PORT_ROLE_WRITE (R404, R405). -/
def execRtePortRoleWrite (m : Master) (p : Fin 24) (v : W32) (s : State) : Host.Outcome State Fault Refusal :=
  regOut m (0x61200 + 4 * p.val) 4 v.toNat s

/-- RTE_CFG_WRITE (R421). -/
def execRteCfgWrite (m : Master) (v : W32) (s : State) : Host.Outcome State Fault Refusal := regField m F.RTE_CFG_MODE v.toNat s

/-- PRT_CFG of fabric port `p`, or LNDL_CFG of landing `p` − 24 (R436, R456). -/
def linkCfgAddr (p : Nat) : Nat := if p < 24 then 0x80100 + 0x1000 * p else 0x10300 + 0x1000 * (p - 24)

/-- PRT_WIDTH_CMD of fabric port `p`, or LNDL_WIDTH_CMD of landing `p` − 24 (R441, R456). -/
def widthCmdAddr (p : Nat) : Nat := linkCfgAddr p + 0x0C

/-- LINK_ENABLE (R436). -/
def execLinkEnable (m : Master) (p : Fin 28) (v : W32) (s : State) : Host.Outcome State Fault Refusal :=
  regOut m (linkCfgAddr p.val) 4 (putBit v.toNat 0 true) s

/-- LINK_DISABLE (R436). -/
def execLinkDisable (m : Master) (p : Fin 28) (v : W32) (s : State) : Host.Outcome State Fault Refusal :=
  regOut m (linkCfgAddr p.val) 4 (putBit v.toNat 0 false) s

/-- PRT_WIDTH_CMD (R441). -/
def execPrtWidthCmd (m : Master) (p : Fin 28) (v : W32) (s : State) : Host.Outcome State Fault Refusal :=
  regOut m (widthCmdAddr p.val) 4 (putBit v.toNat 31 true) s

/-- EYE_SCAN_GO (R453). -/
def execEyeScanGo (m : Master) (page : Nat) (v : W32) (s : State) : Host.Outcome State Fault Refusal :=
  regOut m (page * 0x1000 + 0x210) 4 (putBit v.toNat 31 true) s

/-- EYE_SCAN_STOP (R453). -/
def execEyeScanStop (m : Master) (page : Nat) (v : W32) (s : State) : Host.Outcome State Fault Refusal :=
  regOut m (page * 0x1000 + 0x210) 4 (putBit v.toNat 0 true) s

/-! ### Recovery -/

/-- RCV_NODE_LOST (R499, R500). -/
def execRcvNodeLost (c : Cmd NodeGen) (s : State) : Host.Outcome State Fault Refusal := rcvForm "NODE_LOST" 1 Dev.nodeLost c s

/-- RCV_NODE_FOUND (R500). -/
def execRcvNodeFound (c : Cmd NodeGen) (s : State) : Host.Outcome State Fault Refusal := rcvForm "NODE_FOUND" 2 Dev.nodeFound c s

/-- RCV_SOURCE_RESET (R501). -/
def execRcvSourceReset (c : Cmd NodeGen) (s : State) : Host.Outcome State Fault Refusal :=
  rcvForm "SOURCE_RESET" 3 Dev.sourceReset c s

/-- A write of RCV_CMD with OP SLIPWAY: the stage stands in RCV_CMD_ARG, which the command's form fixes (R511). -/
def slipForm (m : Master) (stage : Nat) (s : State) : Host.Outcome State Fault Refusal :=
  if s.dev.rd F.RCV_CMD_ARG_STAGE = stage then regGo m F.RCV_CMD_OP 4 s else .next s

/-- SLIPWAY_TRANSIT (R502). -/
def execSlipwayTransit (c : Cmd Nat) (s : State) : Host.Outcome State Fault Refusal :=
  match c with
  | .reg m => slipForm m 2 s
  | .msg src g => onPkg (Pkg.rcvMsg src "SLIPWAY" g Dev.slipTransit) s

/-- SLIPWAY_SERVING (R502, R504). -/
def execSlipwayServing (c : Cmd (Nat × Nat)) (s : State) : Host.Outcome State Fault Refusal :=
  match c with
  | .reg m => slipForm m 4 s
  | .msg src a => onPkg (Pkg.rcvMsg src "SLIPWAY" a.1 (Dev.slipServing (a.2 % 2 ^ 64))) s

/-- RCV_CFG_WRITE (R494). -/
def execRcvCfgWrite (m : Master) (retx : Bool) (v : W32) (s : State) : Host.Outcome State Fault Refusal :=
  regOut m (if retx then 0xC1104 else 0xC1100) 4 v.toNat s

/-! ### Tenancy and keys -/

/-- STAGED_CLEAR (R518). -/
def execStagedClear (c : Cmd Unit) (s : State) : Host.Outcome State Fault Refusal := secForm 5 (fun _ => 0) c s

/-- ASSIGN (R521). -/
def execAssign (c : Cmd Nat) (s : State) : Host.Outcome State Fault Refusal := secForm 1 (fun t => t) c s

/-- CLOSE (R521). -/
def execClose (c : Cmd Unit) (s : State) : Host.Outcome State Fault Refusal := secForm 2 (fun _ => 0) c s

/-- BUMP (R521). -/
def execBump (c : Cmd Unit) (s : State) : Host.Outcome State Fault Refusal := secForm 3 (fun _ => 0) c s

/-- SCRUB (R521, R527). -/
def execScrub (c : Cmd Unit) (s : State) : Host.Outcome State Fault Refusal := secForm 4 (fun _ => 0) c s

/-- SVN_COMMIT (R532). -/
def execSvnCommit (m : Master) (s : State) : Host.Outcome State Fault Refusal := regGo m F.SEC_CMD_OP 6 s

/-! ### Time -/

/-- SET (R548, R555). -/
def execTimeSet (m : Master) (v : W32) (s : State) : Host.Outcome State Fault Refusal :=
  regField m F.TIME_CMD_GO (putBit (putBits v.toNat 0 2 1) 31 true) s

/-- SET_AT_PPS (R548, R555). -/
def execTimeSetAtPps (m : Master) (v : W32) (s : State) : Host.Outcome State Fault Refusal :=
  regField m F.TIME_CMD_GO (putBit (putBits v.toNat 0 2 2) 31 true) s

/-- REACQUIRE (R547, R555). -/
def execReacquire (m : Master) (v : W32) (s : State) : Host.Outcome State Fault Refusal :=
  regField m F.TIME_CMD_GO (putBit (putBits v.toNat 0 2 3) 31 true) s

/-- TIME_ROOT_WRITE (R541, R555). -/
def execTimeRootWrite (m : Master) (v : W32) (s : State) : Host.Outcome State Fault Refusal :=
  regField m F.TIME_CFG_ROOT v.toNat s

/-! ### Power and join -/

/-- IDLE (R561). -/
def execIdle (m : Master) (v : W32) (s : State) : Host.Outcome State Fault Refusal :=
  regField m F.PWR_CMD_GO (putBit (putBits v.toNat 0 3 1) 31 true) s

/-- MOOR (R562). -/
def execMoor (m : Master) (v : W32) (s : State) : Host.Outcome State Fault Refusal :=
  regField m F.PWR_CMD_GO (putBit (putBits v.toNat 0 3 2) 31 true) s

/-- WAKE (R566). -/
def execWake (m : Master) (v : W32) (s : State) : Host.Outcome State Fault Refusal :=
  regField m F.PWR_CMD_GO (putBit (putBits v.toNat 0 3 3) 31 true) s

/-- CAP_WRITE (R568). -/
def execCapWrite (m : Master) (v : W32) (s : State) : Host.Outcome State Fault Refusal := regField m F.PWR_CAP_CAP_W v.toNat s

/-- PEAK_CLR (R578). -/
def execPeakClr (m : Master) (v : W32) (s : State) : Host.Outcome State Fault Refusal :=
  regField m F.PWR_AVG_PEAK_CLR (putBit v.toNat 31 true) s

/-- PWR_DOM_REQ_WRITE (R558). -/
def execPwrDomReqWrite (m : Master) (v : W32) (s : State) : Host.Outcome State Fault Refusal :=
  regField m F.PWR_DOM_REQ_REQ v.toNat s

/-- JOIN (R591, R600). -/
def execJoin (m : Master) (v : W32) (s : State) : Host.Outcome State Fault Refusal :=
  regField m F.GLB_JOIN_CMD_GO (putBit v.toNat 31 true) s

/-! ### The sideband (R611) -/

/-- REG_WRITE over the sideband (R611). -/
def execRegWrite (a : Nat) (v : W32) (s : State) : Host.Outcome State Fault Refusal := regOut .mgmt a 4 v.toNat s

/-- The SPDM request that an MSG carries, answered over MCTP (R534, R611). -/
def Dev.spdmOverMctp (m : SpdmMsg) (d : Dev) : Dev :=
  match m with
  | .getVersion => d.getVersion true
  | .getCapabilities v => d.getCapabilities true v
  | .negotiateAlgorithms o => d.negotiate true o
  | .getDigests => d.negotiated true (Dev.getDigests true)
  | .getCertificate slot off len =>
    d.negotiated true (Dev.getCertificate true slot off len)
  | .challenge slot nonce =>
    d.negotiated true (Dev.challenge true slot nonce)
  | .getMeasurements i nonce => d.negotiated true (Dev.getMeasurements true i nonce)
  | .keyExchange share root mutualAuth good => d.negotiated true (Dev.keyExchange true share root mutualAuth good)
  | .finish n good => d.finish n good
  | .heartbeat n => d.onSession n true (fun x d => d.emit (.spdm x.mctp "HEARTBEAT_ACK" [n]))
  | .keyUpdate n => d.onSession n true (fun x d =>
      (d.setSession n (fun x => { x with keyGen := x.keyGen + 1 })).emit (.spdm x.mctp "KEY_UPDATE_ACK" [n]))
  | .endSession n => d.onSession n true (fun x d => (d.dropSession n).emit (.spdm x.mctp "END_SESSION_ACK" [n]))
  | .keyLoad k => d.keyLoad k
  | .other _ => d.spdmError true

/-- MSG (R534, R611). -/
def execSidebandMsg (m : SpdmMsg) (s : State) : Host.Outcome State Fault Refusal :=
  onDev (Dev.ifFirmware (Dev.spdmOverMctp m)) s

/-! ### Register access by message, and the fabric-manager queue (R612–R615) -/

/-- REG_WRITE by message (R612): answered with REG_REPLY, RIGHTS where the access was dropped. -/
def Pkg.fmWrite (src a size v : Nat) (x : Pkg) : Pkg :=
  if x.2.fmAllowed src then
    let r := Pkg.regWrite .fm a size v x
    r.2.dev (fun d => d.ctrl src (.regReply (if r.1 then sRights else sOk) []))
  else x.dev Dev.fmDropped

/-- FM_REG_WRITE (R612): the operand slot gives bits [23:0] of the offset. -/
def execFmRegWrite (src a size v : Nat) (s : State) : Host.Outcome State Fault Refusal :=
  onAll (fun x => if x.2.running then Pkg.fmWrite src (a % 2 ^ 24) size v x else x) s

/-- FMQ_GO (R615). -/
def execFmqGo (m : Master) (v : W32) (s : State) : Host.Outcome State Fault Refusal :=
  regField m F.MGMT_FMQ_CMD_GO (putBit v.toNat 31 true) s

/-- The message with the package's own SRC_NODE and class CTRL in its header slot (R446, R615). -/
def Dev.stamped (d : Dev) (b : List Byte) : List Byte :=
  overlay b 0 (natLE 4 (putBits (putBits (leNat (b.take 4)) 12 12 d.node) 30 2 3))

/-- A message to the package's own node is executed here (R612, R615): a register access; every other message is the
command of its own row. -/
def Pkg.fmLocal (b : List Byte) (x : Pkg) : Pkg :=
  let op := leNat (sliceBytes b 7 1)
  let opd := leNat (sliceBytes b 16 16)
  let a := bits opd 0 24
  let size := bits opd 72 16 + 1
  if op = 0x40 then x.dev (Dev.fmRead x.2.node a size)
  else if op = 0x41 then x.fmWrite x.2.node a size (leNat (sliceBytes b 32 (min size 8)))
  else x.dev (fun d => d.ctrl d.node (.staged b))

/-- FMQ_SEND (R615): the oldest queued message is stamped and sent, in GO order. -/
def Pkg.fmqSend (x : Pkg) : Pkg :=
  match x.2.mgmt.sendQ with
  | [] => x
  | b :: rest =>
    let d := { x.2 with mgmt := { x.2.mgmt with sendQ := rest } }
    let d := d.wr F.MGMT_FMQ_STAT_SENT (d.rd F.MGMT_FMQ_STAT_SENT + 1)
    let m := d.stamped b
    if leNat (m.take 2) % 4096 = d.node then Pkg.fmLocal m (x.1, d) else (x.1, d.ctrl (leNat (m.take 2) % 4096) (.staged m))

/-- FMQ_SEND (R615). -/
def execFmqSend (s : State) : Host.Outcome State Fault Refusal := onPkg Pkg.fmqSend s

/-- A message for the fabric manager (R615): a 64-byte entry of the receive ring, or counted MISSED. -/
def Dev.fmqReceive (b : List Byte) (d : Dev) : Dev :=
  let prod := d.rd F.MGMT_FMQ_RX_PROD_PROD
  let log := d.rd F.MGMT_FMQ_RX_CFG_LOG2_SIZE
  if d.rd F.MGMT_FMQ_RX_CFG_ENABLE = 1 ∧ ringFree prod (d.rd F.MGMT_FMQ_RX_CONS_CONS) log then
    let entry := sliceBytes b 0 48 ++ natLE 8 d.ns ++ natLE 8 0
    let d := d.hostWrite (ringAddr (d.rd F.MGMT_FMQ_RX_BASE_LO_BASE_LO) (d.rd F.MGMT_FMQ_RX_BASE_HI_BASE_HI) prod log 64) entry
    let d := d.bump F.MGMT_FMQ_RX_PROD_PROD 1
    if d.rd F.MGMT_FMQ_RX_CFG_INT_EN = 1 then d.msix (d.rd F.MGMT_FMQ_RX_CFG_VECTOR) else d
  else d.wr F.MGMT_FMQ_RX_STAT_MISSED (satAdd 16 (d.rd F.MGMT_FMQ_RX_STAT_MISSED) 1)

/-- FMQ_RECEIVE (R615). -/
def execFmqReceive (bytes : List Byte) (s : State) : Host.Outcome State Fault Refusal :=
  onDev (Dev.ifRuns (Dev.fmqReceive bytes)) s

end Sys2Proof.Machine
end

