-- ==== Sys2Proof/Machine/Dispatch.lean ====
section
/-!
DEFINITION. The dispatch: one arm for each command, each a direct call of its meaning.
-/
namespace Sys2Proof.Machine

def exec (i : Instr) (s : State) : Host.Outcome State Fault Refusal :=
  match i with
  | .registerWrite m a size v => Sys2Proof.Machine.execRegisterWrite m a size v s
  | .blkOwnerWrite m page v => Sys2Proof.Machine.execBlkOwnerWrite m page v s
  | .blkQuiesce m page v => Sys2Proof.Machine.execBlkQuiesce m page v s
  | .blkEnable m page v => Sys2Proof.Machine.execBlkEnable m page v s
  | .quiesceComplete page => Sys2Proof.Machine.execQuiesceComplete page s
  | .softReset m page v => Sys2Proof.Machine.execSoftReset m page v s
  | .softResetDone page => Sys2Proof.Machine.execSoftResetDone page s
  | .cntFreeze m page v => Sys2Proof.Machine.execCntFreeze m page v s
  | .cntClear m page v => Sys2Proof.Machine.execCntClear m page v s
  | .counterLowRead m page a => Sys2Proof.Machine.execCounterLowRead m page a s
  | .blkIsrClear m page v => Sys2Proof.Machine.execBlkIsrClear m page v s
  | .blkItr m page v => Sys2Proof.Machine.execBlkItr m page v s
  | .blkIerWrite m page v => Sys2Proof.Machine.execBlkIerWrite m page v s
  | .capRearm m page v => Sys2Proof.Machine.execCapRearm m page v s
  | .paceWindowEnd paces => Sys2Proof.Machine.execPaceWindowEnd paces s
  | .lowClr m page v => Sys2Proof.Machine.execLowClr m page v s
  | .vddCoreChange mv => Sys2Proof.Machine.execVddCoreChange mv s
  | .vcoreLow mv => Sys2Proof.Machine.execVcoreLow mv s
  | .coreUv => Sys2Proof.Machine.execCoreUv s
  | .domainOn dom => Sys2Proof.Machine.execDomainOn dom s
  | .domainOff dom => Sys2Proof.Machine.execDomainOff dom s
  | .load q => Sys2Proof.Machine.execLoad q s
  | .store q => Sys2Proof.Machine.execStore q s
  | .atomic q => Sys2Proof.Machine.execAtomic q s
  | .reduce q => Sys2Proof.Machine.execReduce q s
  | .bulkRead q => Sys2Proof.Machine.execBulkRead q s
  | .bulkWrite q => Sys2Proof.Machine.execBulkWrite q s
  | .dataFrame n tag data => Sys2Proof.Machine.execDataFrame n tag data s
  | .localFence q => Sys2Proof.Machine.execLocalFence q s
  | .domainFence q => Sys2Proof.Machine.execDomainFence q s
  | .fenceComplete id => Sys2Proof.Machine.execFenceComplete id s
  | .lndFenceGo m n v => Sys2Proof.Machine.execLndFenceGo m n v s
  | .rcInv q => Sys2Proof.Machine.execRcInv q s
  | .wcFlush q => Sys2Proof.Machine.execWcFlush q s
  | .wcBlockTimeout n dest => Sys2Proof.Machine.execWcBlockTimeout n dest s
  | .versionRead q => Sys2Proof.Machine.execVersionRead q s
  | .publish q => Sys2Proof.Machine.execPublish q s
  | .streamDeclare q => Sys2Proof.Machine.execStreamDeclare q s
  | .streamEnd q => Sys2Proof.Machine.execStreamEnd q s
  | .doorbell q => Sys2Proof.Machine.execDoorbell q s
  | .dockRead q => Sys2Proof.Machine.execDockRead q s
  | .pteWrite q => Sys2Proof.Machine.execPteWrite q s
  | .faultBatchDue ctx => Sys2Proof.Machine.execFaultBatchDue ctx s
  | .fltRingCons m ring v => Sys2Proof.Machine.execFltRingCons m ring v s
  | .walkStart => Sys2Proof.Machine.execWalkStart s
  | .walkReadAnswer walk how data => Sys2Proof.Machine.execWalkReadAnswer walk how data s
  | .prefetchAnswer id how data => Sys2Proof.Machine.execPrefetchAnswer id how data s
  | .xltInvGo m v => Sys2Proof.Machine.execXltInvGo m v s
  | .ctrlInvalidation src a => Sys2Proof.Machine.execCtrlInvalidation src a s
  | .invalidationComplete => Sys2Proof.Machine.execInvalidationComplete s
  | .bar2Read id off len => Sys2Proof.Machine.execBar2Read id off len s
  | .bar2Write off data => Sys2Proof.Machine.execBar2Write off data s
  | .bar2Atomic id off aop data => Sys2Proof.Machine.execBar2Atomic id off aop data s
  | .bar4Doorbell off v => Sys2Proof.Machine.execBar4Doorbell off v s
  | .perstNAssert => Sys2Proof.Machine.execPerstNAssert s
  | .perstNRelease => Sys2Proof.Machine.execPerstNRelease s
  | .timeFrameSend n => Sys2Proof.Machine.execTimeFrameSend n s
  | .homeRead r media => Sys2Proof.Machine.execHomeRead r media s
  | .homeWrite r media => Sys2Proof.Machine.execHomeWrite r media s
  | .homeAtomic r media => Sys2Proof.Machine.execHomeAtomic r media s
  | .homeReduceWrite r media => Sys2Proof.Machine.execHomeReduceWrite r media s
  | .homeMigrationWrite r srcGpa media => Sys2Proof.Machine.execHomeMigrationWrite r srcGpa media s
  | .homeTableRead r media => Sys2Proof.Machine.execHomeTableRead r media s
  | .writePerformed op => Sys2Proof.Machine.execWritePerformed op s
  | .orderHoleTimeout node src eng => Sys2Proof.Machine.execOrderHoleTimeout node src eng s
  | .homePteWrite r media => Sys2Proof.Machine.execHomePteWrite r media s
  | .regionPte src region page entry media => Sys2Proof.Machine.execRegionPte src region page entry media s
  | .homeVersionRead r => Sys2Proof.Machine.execHomeVersionRead r s
  | .homePublish r => Sys2Proof.Machine.execHomePublish r s
  | .extGrant c => Sys2Proof.Machine.execExtGrant c s
  | .extWiden c => Sys2Proof.Machine.execExtWiden c s
  | .extRevoke c => Sys2Proof.Machine.execExtRevoke c s
  | .extReserve c => Sys2Proof.Machine.execExtReserve c s
  | .extRelease c => Sys2Proof.Machine.execExtRelease c s
  | .regionCreate c => Sys2Proof.Machine.execRegionCreate c s
  | .regionDestroy c => Sys2Proof.Machine.execRegionDestroy c s
  | .homeBitmapClr m v => Sys2Proof.Machine.execHomeBitmapClr m v s
  | .revocationComplete index => Sys2Proof.Machine.execRevocationComplete index s
  | .nearScrub off media => Sys2Proof.Machine.execNearScrub off media s
  | .bulkScrub off media => Sys2Proof.Machine.execBulkScrub off media s
  | .correctionWriteback line => Sys2Proof.Machine.execCorrectionWriteback line s
  | .refresh device bank => Sys2Proof.Machine.execRefresh device bank s
  | .bulkCfgWrite m v => Sys2Proof.Machine.execBulkCfgWrite m v s
  | .snapshot m v => Sys2Proof.Machine.execSnapshot m v s
  | .snapshotComplete => Sys2Proof.Machine.execSnapshotComplete s
  | .protBind c => Sys2Proof.Machine.execProtBind c s
  | .parityComputeDone ext lines => Sys2Proof.Machine.execParityComputeDone ext lines s
  | .parityDelta d => Sys2Proof.Machine.execParityDelta d s
  | .deltaAnswer op line status => Sys2Proof.Machine.execDeltaAnswer op line status s
  | .mirrorWrite w => Sys2Proof.Machine.execMirrorWrite w s
  | .mirrorAnswer op status => Sys2Proof.Machine.execMirrorAnswer op status s
  | .journalMessage j => Sys2Proof.Machine.execJournalMessage j s
  | .journalAnswer op status => Sys2Proof.Machine.execJournalAnswer op status s
  | .protRepair src line => Sys2Proof.Machine.execProtRepair src line s
  | .rcRead r => Sys2Proof.Machine.execRcRead r s
  | .rcRelease r => Sys2Proof.Machine.execRcRelease r s
  | .rcHoldTimeout ext off => Sys2Proof.Machine.execRcHoldTimeout ext off s
  | .reconstructAnswer op member status stale data => Sys2Proof.Machine.execReconstructAnswer op member status stale data s
  | .protMemberLost src a => Sys2Proof.Machine.execProtMemberLost src a s
  | .protStandin src a => Sys2Proof.Machine.execProtStandin src a s
  | .protMemberRestore src a => Sys2Proof.Machine.execProtMemberRestore src a s
  | .rebuildStart src a spare spareRole spareTicket lostTicket => Sys2Proof.Machine.execRebuildStart src a spare spareRole spareTicket lostTicket s
  | .rebuildCopy src node gen b => Sys2Proof.Machine.execRebuildCopy src node gen b s
  | .rebuildPhaseAck phase => Sys2Proof.Machine.execRebuildPhaseAck phase s
  | .wardsPhase src lost spare => Sys2Proof.Machine.execWardsPhase src lost spare s
  | .rebuildDone r => Sys2Proof.Machine.execRebuildDone r s
  | .aliasClear src node => Sys2Proof.Machine.execAliasClear src node s
  | .protCfgWrite m v => Sys2Proof.Machine.execProtCfgWrite m v s
  | .protGroupWrite m reg v => Sys2Proof.Machine.execProtGroupWrite m reg v s
  | .sliceIssue op a => Sys2Proof.Machine.execSliceIssue op a s
  | .programLoad a => Sys2Proof.Machine.execProgramLoad a s
  | .arrLoop a => Sys2Proof.Machine.execArrLoop a s
  | .arrMac a near bulk => Sys2Proof.Machine.execArrMac a near bulk s
  | .arrElt a near bulk => Sys2Proof.Machine.execArrElt a near bulk s
  | .arrRowred a => Sys2Proof.Machine.execArrRowred a s
  | .arrCmpx a => Sys2Proof.Machine.execArrCmpx a s
  | .arrIdx a => Sys2Proof.Machine.execArrIdx a s
  | .arrDrain a => Sys2Proof.Machine.execArrDrain a s
  | .endSlice a => Sys2Proof.Machine.execEndSlice a s
  | .arrayJobComplete op => Sys2Proof.Machine.execArrayJobComplete op s
  | .pntProgInv m a v => Sys2Proof.Machine.execPntProgInv m a v s
  | .arrayPairOn k => Sys2Proof.Machine.execArrayPairOn k s
  | .arrayPairIdleOff k => Sys2Proof.Machine.execArrayPairIdleOff k s
  | .operationAccept ring => Sys2Proof.Machine.execOperationAccept ring s
  | .waitReadAnswer op w how data => Sys2Proof.Machine.execWaitReadAnswer op w how data s
  | .semAcquireAnswer op w how data => Sys2Proof.Machine.execSemAcquireAnswer op w how data s
  | .watchTrigger line => Sys2Proof.Machine.execWatchTrigger line s
  | .waitPoll op w => Sys2Proof.Machine.execWaitPoll op w s
  | .waitWindowEnd op => Sys2Proof.Machine.execWaitWindowEnd op s
  | .operationIssue op => Sys2Proof.Machine.execOperationIssue op s
  | .signalAnswer op how => Sys2Proof.Machine.execSignalAnswer op how s
  | .completionRecordWrite ring => Sys2Proof.Machine.execCompletionRecordWrite ring s
  | .fryDoorbell ring completion v ticket => Sys2Proof.Machine.execFryDoorbell ring completion v ticket s
  | .descriptorFetchReturn ring how data => Sys2Proof.Machine.execDescriptorFetchReturn ring how data s
  | .frySubCfgWrite m ring v => Sys2Proof.Machine.execFrySubCfgWrite m ring v s
  | .fryCmpCfgWrite m ring v => Sys2Proof.Machine.execFryCmpCfgWrite m ring v s
  | .ferryFenceDone e => Sys2Proof.Machine.execFerryFenceDone e s
  | .tileIssue e => Sys2Proof.Machine.execTileIssue e s
  | .ferryComplete e => Sys2Proof.Machine.execFerryComplete e s
  | .collRunning op => Sys2Proof.Machine.execCollRunning op s
  | .collData c => Sys2Proof.Machine.execCollData c s
  | .collCredit c => Sys2Proof.Machine.execCollCredit c s
  | .collSegmentRetry op step chunk seg => Sys2Proof.Machine.execCollSegmentRetry op step chunk seg s
  | .collAbort c => Sys2Proof.Machine.execCollAbort c s
  | .collStepTimeout op => Sys2Proof.Machine.execCollStepTimeout op s
  | .collComplete op => Sys2Proof.Machine.execCollComplete op s
  | .collAbortDone op => Sys2Proof.Machine.execCollAbortDone op s
  | .attnRunning op => Sys2Proof.Machine.execAttnRunning op s
  | .attnQuery q => Sys2Proof.Machine.execAttnQuery q s
  | .attnPageServed src op grp k a near bulk => Sys2Proof.Machine.execAttnPageServed src op grp k a near bulk s
  | .attnGroupDone src op grp => Sys2Proof.Machine.execAttnGroupDone src op grp s
  | .attnPartial p => Sys2Proof.Machine.execAttnPartial p s
  | .attnComplete op => Sys2Proof.Machine.execAttnComplete op s
  | .dispatchRunning op => Sys2Proof.Machine.execDispatchRunning op s
  | .routingDone op media => Sys2Proof.Machine.execRoutingDone op media s
  | .tailFetchAnswer op how data => Sys2Proof.Machine.execTailFetchAnswer op how data s
  | .dispatchComplete op => Sys2Proof.Machine.execDispatchComplete op s
  | .frameArrive inp f tie => Sys2Proof.Machine.execFrameArrive inp f tie s
  | .frameDepart out inp cls channel => Sys2Proof.Machine.execFrameDepart out inp cls channel s
  | .spillReturn inp out cls => Sys2Proof.Machine.execSpillReturn inp out cls s
  | .mirrorSend => Sys2Proof.Machine.execMirrorSend s
  | .bounceReceive b => Sys2Proof.Machine.execBounceReceive b s
  | .rteLoad src bank entries => Sys2Proof.Machine.execRteLoad src bank entries s
  | .routeEntryWrite m page off v => Sys2Proof.Machine.execRouteEntryWrite m page off v s
  | .arm c => Sys2Proof.Machine.execArm c s
  | .disarm c => Sys2Proof.Machine.execDisarm c s
  | .bankFlip => Sys2Proof.Machine.execBankFlip s
  | .bankRetire => Sys2Proof.Machine.execBankRetire s
  | .rtePortRoleWrite m p v => Sys2Proof.Machine.execRtePortRoleWrite m p v s
  | .rteCfgWrite m v => Sys2Proof.Machine.execRteCfgWrite m v s
  | .answerReceive a => Sys2Proof.Machine.execAnswerReceive a s
  | .linkEnable m p v => Sys2Proof.Machine.execLinkEnable m p v s
  | .linkDisable m p v => Sys2Proof.Machine.execLinkDisable m p v s
  | .detectTimer p => Sys2Proof.Machine.execDetectTimer p s
  | .partnerDetected p => Sys2Proof.Machine.execPartnerDetected p s
  | .trainComplete p r reversed => Sys2Proof.Machine.execTrainComplete p r reversed s
  | .alignComplete p partnerHealthy partnerMax => Sys2Proof.Machine.execAlignComplete p partnerHealthy partnerMax s
  | .linkParam p a => Sys2Proof.Machine.execLinkParam p a s
  | .trainingBoundExceeded p => Sys2Proof.Machine.execTrainingBoundExceeded p s
  | .lossOfSignal p => Sys2Proof.Machine.execLossOfSignal p s
  | .laneFailure p lane => Sys2Proof.Machine.execLaneFailure p lane s
  | .retrainComplete p far => Sys2Proof.Machine.execRetrainComplete p far s
  | .flitReceive p f => Sys2Proof.Machine.execFlitReceive p f s
  | .nakRepeat p => Sys2Proof.Machine.execNakRepeat p s
  | .replayTimer p => Sys2Proof.Machine.execReplayTimer p s
  | .retrainReq p => Sys2Proof.Machine.execRetrainReq p s
  | .widthReq p width mask => Sys2Proof.Machine.execWidthReq p width mask s
  | .widthAck p width mask atSeq => Sys2Proof.Machine.execWidthAck p width mask atSeq s
  | .prtWidthCmd m p v => Sys2Proof.Machine.execPrtWidthCmd m p v s
  | .autoWidenTimer p => Sys2Proof.Machine.execAutoWidenTimer p s
  | .widenAbandon p => Sys2Proof.Machine.execWidenAbandon p s
  | .wakeToneDetect p lane => Sys2Proof.Machine.execWakeToneDetect p lane s
  | .eyeScanGo m page v => Sys2Proof.Machine.execEyeScanGo m page v s
  | .eyeScanStop m page v => Sys2Proof.Machine.execEyeScanStop m page v s
  | .eyePointDone page errors compared => Sys2Proof.Machine.execEyePointDone page errors compared s
  | .requestTimeout eng tag => Sys2Proof.Machine.execRequestTimeout eng tag s
  | .retransmitTimer eng tag => Sys2Proof.Machine.execRetransmitTimer eng tag s
  | .resyncDrainDone eng dest => Sys2Proof.Machine.execResyncDrainDone eng dest s
  | .orderResyncRetry eng dest => Sys2Proof.Machine.execOrderResyncRetry eng dest s
  | .orderResync node src eng rseq => Sys2Proof.Machine.execOrderResync node src eng rseq s
  | .quarantineEnd node src eng => Sys2Proof.Machine.execQuarantineEnd node src eng s
  | .orderResyncDone eng dest rseq => Sys2Proof.Machine.execOrderResyncDone eng dest rseq s
  | .fatalError page code => Sys2Proof.Machine.execFatalError page code s
  | .rcvNodeLost c => Sys2Proof.Machine.execRcvNodeLost c s
  | .rcvNodeFound c => Sys2Proof.Machine.execRcvNodeFound c s
  | .rcvSourceReset c => Sys2Proof.Machine.execRcvSourceReset c s
  | .slipwayTransit c => Sys2Proof.Machine.execSlipwayTransit c s
  | .slipwayServing c => Sys2Proof.Machine.execSlipwayServing c s
  | .servingAtT => Sys2Proof.Machine.execServingAtT s
  | .trainedReached => Sys2Proof.Machine.execTrainedReached s
  | .rcvCfgWrite m retx v => Sys2Proof.Machine.execRcvCfgWrite m retx v s
  | .keyLoad k => Sys2Proof.Machine.execKeyLoad k s
  | .stagedClear c => Sys2Proof.Machine.execStagedClear c s
  | .assign c => Sys2Proof.Machine.execAssign c s
  | .close c => Sys2Proof.Machine.execClose c s
  | .bump c => Sys2Proof.Machine.execBump c s
  | .drainComplete => Sys2Proof.Machine.execDrainComplete s
  | .drainWindowEnd => Sys2Proof.Machine.execDrainWindowEnd s
  | .eraseComplete => Sys2Proof.Machine.execEraseComplete s
  | .scrub c => Sys2Proof.Machine.execScrub c s
  | .scrubComplete => Sys2Proof.Machine.execScrubComplete s
  | .svnCommit m => Sys2Proof.Machine.execSvnCommit m s
  | .debugUnlock authentic => Sys2Proof.Machine.execDebugUnlock authentic s
  | .getVersion mctp => Sys2Proof.Machine.execGetVersion mctp s
  | .getCapabilities mctp version => Sys2Proof.Machine.execGetCapabilities mctp version s
  | .negotiateAlgorithms mctp offered => Sys2Proof.Machine.execNegotiateAlgorithms mctp offered s
  | .getDigests mctp => Sys2Proof.Machine.execGetDigests mctp s
  | .getCertificate mctp slot off len => Sys2Proof.Machine.execGetCertificate mctp slot off len s
  | .challenge mctp slot nonce => Sys2Proof.Machine.execChallenge mctp slot nonce s
  | .getMeasurements mctp index nonce => Sys2Proof.Machine.execGetMeasurements mctp index nonce s
  | .keyExchange mctp share rootDigest mutualAuth good => Sys2Proof.Machine.execKeyExchange mctp share rootDigest mutualAuth good s
  | .finish session good => Sys2Proof.Machine.execFinish session good s
  | .heartbeat session => Sys2Proof.Machine.execHeartbeat session s
  | .keyUpdate session => Sys2Proof.Machine.execKeyUpdate session s
  | .endSession session => Sys2Proof.Machine.execEndSession session s
  | .timeSyncSend => Sys2Proof.Machine.execTimeSyncSend s
  | .timeSync port t1 => Sys2Proof.Machine.execTimeSync port t1 s
  | .timeSyncReply r => Sys2Proof.Machine.execTimeSyncReply r s
  | .exchangeTimeout => Sys2Proof.Machine.execExchangeTimeout s
  | .timeSet m v => Sys2Proof.Machine.execTimeSet m v s
  | .timeSetAtPps m v => Sys2Proof.Machine.execTimeSetAtPps m v s
  | .reacquire m v => Sys2Proof.Machine.execReacquire m v s
  | .timeRootWrite m v => Sys2Proof.Machine.execTimeRootWrite m v s
  | .ppsInEdge => Sys2Proof.Machine.execPpsInEdge s
  | .ppsMissed => Sys2Proof.Machine.execPpsMissed s
  | .ppsOutEdge => Sys2Proof.Machine.execPpsOutEdge s
  | .timeNowLoRead m => Sys2Proof.Machine.execTimeNowLoRead m s
  | .mgmtHeartbeat => Sys2Proof.Machine.execMgmtHeartbeat s
  | .idle m v => Sys2Proof.Machine.execIdle m v s
  | .moor m v => Sys2Proof.Machine.execMoor m v s
  | .moorQuiesced => Sys2Proof.Machine.execMoorQuiesced s
  | .moorStepComplete => Sys2Proof.Machine.execMoorStepComplete s
  | .moorEntryTimeout => Sys2Proof.Machine.execMoorEntryTimeout s
  | .wakeSource k => Sys2Proof.Machine.execWakeSource k s
  | .wake m v => Sys2Proof.Machine.execWake m v s
  | .moorExitComplete => Sys2Proof.Machine.execMoorExitComplete s
  | .capWrite m v => Sys2Proof.Machine.execCapWrite m v s
  | .limitStrobe code => Sys2Proof.Machine.execLimitStrobe code s
  | .vsetReached => Sys2Proof.Machine.execVsetReached s
  | .thermalReading tj => Sys2Proof.Machine.execThermalReading tj s
  | .brakeAssert => Sys2Proof.Machine.execBrakeAssert s
  | .brakeRelease => Sys2Proof.Machine.execBrakeRelease s
  | .telemetryWindowEnd watts => Sys2Proof.Machine.execTelemetryWindowEnd watts s
  | .peakClr m v => Sys2Proof.Machine.execPeakClr m v s
  | .pwrEnergyLoRead m mj => Sys2Proof.Machine.execPwrEnergyLoRead m mj s
  | .pwrDomReqWrite m v => Sys2Proof.Machine.execPwrDomReqWrite m v s
  | .resetNAssert => Sys2Proof.Machine.execResetNAssert s
  | .resetNRelease tray slot => Sys2Proof.Machine.execResetNRelease tray slot s
  | .vddAonLoss => Sys2Proof.Machine.execVddAonLoss s
  | .bootStageComplete w => Sys2Proof.Machine.execBootStageComplete w s
  | .join m v => Sys2Proof.Machine.execJoin m v s
  | .eoffN ns => Sys2Proof.Machine.execEoffN ns s
  | .pwrfailN low => Sys2Proof.Machine.execPwrfailN low s
  | .regRead a => Sys2Proof.Machine.execRegRead a s
  | .regWrite a v => Sys2Proof.Machine.execRegWrite a v s
  | .sidebandMsg m => Sys2Proof.Machine.execSidebandMsg m s
  | .fmRegRead src a size => Sys2Proof.Machine.execFmRegRead src a size s
  | .fmRegWrite src a size v => Sys2Proof.Machine.execFmRegWrite src a size v s
  | .fmqGo m v => Sys2Proof.Machine.execFmqGo m v s
  | .fmqSend => Sys2Proof.Machine.execFmqSend s
  | .fmqReceive bytes => Sys2Proof.Machine.execFmqReceive bytes s
  | .wideningLanesReady p => Sys2Proof.Machine.execWideningLanesReady p s
  | .tideHoldEnd => Sys2Proof.Machine.execTideHoldEnd s
  | .configurationRequest q => Sys2Proof.Machine.execConfigurationRequest q s
  | .fltRingCfgWrite m ring v => Sys2Proof.Machine.execFltRingCfgWrite m ring v s
  | .lndCfgWrite m n v => Sys2Proof.Machine.execLndCfgWrite m n v s
  | .lndRankDataWrite m n v => Sys2Proof.Machine.execLndRankDataWrite m n v s

end Sys2Proof.Machine
end

