-- ==== Sys2Proof/Machine/Step.lean ====
section
/-!
DEFINITION. The step: the command at the front of the queue, run on the state with the rest of the queue. On an empty queue the
always-on oscillator ticks once, the links return grants, and what waited at the home or a boundary goes on as far as it can (R449, R540, R595,
log entry 3).
-/
namespace Sys2Proof.Machine

/-- One step of the block. -/
def step (s : State) : Host.Outcome State Fault Refusal :=
  match s.pending with
  | [] => onAll (fun x => Pkg.ifRuns (fun x => Pkg.settle (Pkg.thenHome id x)) (Pkg.dev Dev.idle x)) s
  | c :: rest => exec c { s with pending := rest }

/-- `s` with the command that the word spells at the front of its queue; unchanged where it spells none. -/
def State.withFetchWord (s : State) (nbits w : Nat) : State :=
  match Sys2Proof.decodeTableWord nbits w with
  | some c => { s with pending := c :: s.pending }
  | none => s

end Sys2Proof.Machine
end

