-- ==== Sys2Proof/Safety.lean ====
section
/-!
DEFINITION. What counts as a safe run, in the terms the claims use: pool memory and its covers in canonical form, and a step that
answers.
-/
namespace Sys2Proof

open Machine

/-- Pool memory is in canonical form: addresses strictly rising, no byte listed that an unlisted address reads as. -/
abbrev Memory.wf (m : List Host.Cell) : Bool := twf zeroByte m

/-- The store is in canonical form: the bytes, the covers of lines, the lost ranges. -/
def Store.wf (s : Store) : Bool := Memory.wf s.mem && twf s.dflt s.covers

/-- The invariant of every run: the store is in canonical form. -/
abbrev Safe (s : State) : Prop := Store.wf s.store = true

/-- The outcome is a next state. -/
def Answers (o : Host.Outcome State Fault Refusal) : Prop := ∃ t, o = .next t

/-! ### What the statements speak of -/

/-- `s` with the package `x`. -/
def withPkg (s : State) (x : Pkg) : State := { s with store := x.1, dev := x.2 }

/-- `d` once a register access of master `m` has arrived: the host's is a TLP, which the host port counts (R610). -/
def tlp (m : Master) (d : Dev) : Dev := if m = .host then d.count 0x18 0 1 else d

/-- `d` with a host write at BAR0 offset `a`, in a page that is not listed, captured (R602). -/
def Machine.Dev.undefinedPage (a : Nat) (d : Dev) : Dev := d.capture 0x18 .config 0 0x11 0x3F a

/-- Master `m` reaches the registers of page `p`: the core runs, the page is listed (R601) and its block has power (R476, R602). -/
abbrev pageOpen (d : Dev) (m : Master) (p : Nat) : Prop :=
  d.running = true ∧ d.reaches m true p = true ∧ (pageKind p).isSome = true ∧ d.pageOn p = true

/-- A register of a page's own, at 0x100 and above, that is neither a route entry (R429) nor PWR_CMD. -/
abbrev plainRegister (d : Dev) (p off : Nat) : Prop :=
  0x100 ≤ off ∧ off < 0x1000 ∧ off % 4 = 0 ∧ routeAt p off = none ∧ ¬(p = 1 ∧ off = 0x10C) ∧ d.pageOn p = true

/-- Some field of the register takes values from the page's owner only (R508). -/
def ownerOnly (p off : Nat) : Bool :=
  (fieldsAt p off).any (fun f => f.acc == .rwo || f.acc == .wo || f == F.BULK_CFG_INTERLEAVE || isFmq p off)

/-- Master `m` may write the register, no rule refuses the value whole, and no part of it takes no value now. -/
abbrev fieldsOpen (d : Dev) (m : Master) (p off v : Nat) : Prop :=
  (ownerOnly p off = true → d.mayWrite m p off = true) ∧
  d.writeRefused (d.setWord (p * 0x1000 + off) (d.newWord (d.mayWrite m p off) p off v)) p off = none ∧
  d.anyHeld (d.mayWrite m p off) p off v = false

/-- As `fieldsOpen`, and the value carries no reserved encoding (R9). -/
abbrev fieldsTaken (d : Dev) (m : Master) (p off v : Nat) : Prop :=
  fieldsOpen d m p off v ∧ d.anyReserved (d.mayWrite m p off) p off v = false

/-- As `fieldsOpen`, and the value carries a reserved encoding (R9). -/
abbrev fieldsReserved (d : Dev) (m : Master) (p off v : Nat) : Prop :=
  fieldsOpen d m p off v ∧ d.anyReserved (d.mayWrite m p off) p off v = true

/-- The package once the register holds its new word: captured where the value carried a reserved encoding (`act` false), and gone on
as the register's rules say. -/
def fieldsStored (m : Master) (p off v : Nat) (act : Bool) (x : Pkg) : Pkg :=
  let w := x.2.newWord (x.2.mayWrite m p off) p off v
  let e := x.2.setWord (p * 0x1000 + off) w
  Pkg.written m p off (x.2.word (p * 0x1000 + off)) w v act (x.1, if act then e else e.dropWrite m p off v 2)

/-! ### A package at rest, and requests of a landing -/

/-- Nothing in the package waits to go on of itself: no transfer is in hand, every port's queue is empty, no request waits at a port's
boundary, and none for a node outside the domain. -/
abbrev quiet (d : Dev) : Prop :=
  d.fry.xfers = [] ∧ (∀ p < 5, d.portQ p = []) ∧ (∀ n < 4, (d.lndOf n).gate = []) ∧ d.host.gate = [] ∧ d.src.noNode = [] ∧
  (∀ j ∈ d.fry.jobs, d.jobReady j.op = false) ∧ ∀ a ∈ d.fry.disp, a.stage ≠ 4

/-- The fixed numbers of units of a package: four landings with a translation buffer each, 28 links, 64 submission rings, 32 ferry
engines, 16 arrays of four program stores and four accumulator banks (R17, R85, R256, R274, R348, R349). -/
abbrev shaped (d : Dev) : Prop :=
  d.lnd.length = 4 ∧ d.xlt.ltb.length = 4 ∧ d.links.length = 28 ∧ d.fry.subs.length = 64 ∧ d.fry.engs.length = 32 ∧
  d.fry.arrs.length = 16 ∧ ∀ r ∈ d.fry.arrs, r.progs.length = 4 ∧ r.banks.length = 4

/-- The access writes a block of the landing's combining buffer. -/
def ofBlock (n : Nat) : Purpose → Bool
  | .wcBlock m _ => m == n
  | _ => false

/-- A landing takes the request `q`: the core runs, the landing is open (R465), and nothing waits in the package. -/
abbrev lndUp (q : LReq) (s : State) : Prop :=
  s.dev.running = true ∧ s.dev.domOn 11 = true ∧ s.dev.lndOpen q.n.val = true ∧ quiet s.dev ∧ shaped s.dev

/-- The first frame in the receive crossing of the landing's link brings the request `q` with opcode `op` (R43, R462). -/
abbrev offered (op : Nat) (q : LReq) (s : State) : Prop := (s.dev.lndCross q.n.val (broughtBy op q)).isSome = true

/-- `d` once the first frame of landing `n`'s crossing, one of the form `p`, has left it, its slots returned (R448). -/
def Machine.Dev.uncrossed (n : Nat) (p : Frame → Bool) (d : Dev) : Dev :=
  match d.lndCross n p with
  | some c => c.2.returnSlots n c.1
  | none => d

/-- A fence request of scope `k`: 0 LOCAL, 1 DOMAIN (R464). -/
def LReq.fence (k : Nat) (q : LReq) : LReq := { q with o := { q.o with order := k } }

/-- The package has a place in a domain: a node ID of 7 bits below X × Y (R590). -/
abbrev joined (d : Dev) : Prop := d.node < d.domainSize ∧ d.node < 128

/-- No fence or acquire holds engine `eng` or context `c` back (R144, R145, R156). -/
abbrev unheld (d : Dev) (eng c : Nat) : Prop :=
  (∀ f ∈ d.src.fences, f.holdEng ≠ some eng ∧ f.holdCtx ≠ some c) ∧ ∀ l ∈ d.lnd, ∀ e ∈ l.acquiring, e.1 ≠ c

/-- Every open block of landing `n` lies at a node of the domain (R32). -/
abbrev blocksAtNodes (d : Dev) (n : Nat) : Prop := ∀ b ∈ (d.lndOf n).wc, d.hasNode (blockWrite n 0 b).dest = true

/-- As `lndUp`, in a domain; the TAG is free, the tenancy open (R521), and no fence or acquire holds the context back. -/
abbrev lndReady (q : LReq) (s : State) : Prop :=
  lndUp q s ∧ joined s.dev ∧ (s.dev.lndOf q.n.val).tags.contains q.tag = false ∧ s.dev.tenantOpen = true ∧
  unheld s.dev q.n.val q.o.ctx ∧ blocksAtNodes s.dev q.n.val

/-- The request with opcode `op` of a landing, as it is accepted in `s`, its pages translated as `xl` says. -/
def landed (op : Nat) (q : LReq) (xl : List (Option XRes)) (s : State) : PortReq :=
  { id := s.dev.src.nextId, op := op, tag := q.tag, o := q.o, data := q.data, ticket := s.dev.ticket, xl := xl }

/-- Landing virtual address of a request. -/
def lvaOf (q : LReq) : Nat := q.o.addr % 2 ^ 57

/-- The landing's translation buffer holds the translation `e` of the one page the request touches, a page at a node of the domain (R57),
no rule of R473 or R502 bars the context, and the entry is bound to the landing (R89). -/
abbrev mapped (q : LReq) (e : TEntry) (s : State) : Prop :=
  s.dev.hasNode (gpaNode (gpaIn e.gpaPage (lvaOf q))) = true ∧
  findT q.o.ctx (lvaOf q / 2 ^ 21) (nth s.dev.xlt.ltb q.n.val []) = some e ∧ e.landing = q.n.val ∧
  (lvaOf q + opdLen q.o - 1) / 2 ^ 21 = lvaOf q / 2 ^ 21 ∧ s.dev.ctxBarred ((landed 0 q [] s).xreq q.n.val 0 0) = false

/-- The context of an operation that names no address serves the landing (R79). -/
abbrev served (q : LReq) (s : State) : Prop :=
  s.dev.ctxBarred ((landed 0 q [] s).xreq q.n.val 0 0) = false ∧
  (Pkg.ctxEntry (s.store, s.dev) q.o.ctx).valid = true ∧ (Pkg.ctxEntry (s.store, s.dev) q.o.ctx).landing = q.n.val

/-- The requests of a landing, each with its opcode and what its frame carries (R464). -/
def landingRows : List (Nat × (LReq → LReq) × (LReq → Instr)) :=
  [(1, id, .load), (2, id, .store), (3, id, .atomic), (4, id, .reduce), (5, id, .bulkRead), (6, id, .bulkWrite),
   (8, LReq.fence 0, .localFence), (8, LReq.fence 1, .domainFence), (9, id, .rcInv), (0x0A, id, .wcFlush), (0x0B, id, .versionRead),
   (0x0C, id, .publish), (0x0D, id, .streamDeclare), (0x0E, id, .streamEnd), (0x0F, id, .doorbell), (0x10, id, .dockRead),
   (0x11, id, .pteWrite)]

/-! ### The host port -/

/-- The host port takes a TLP: the core runs, the port is open, and nothing waits in the package. -/
abbrev hostUp (s : State) : Prop := s.dev.running = true ∧ s.dev.domOn 11 = true ∧ s.dev.hostOpen = true ∧ s.dev.host.d3hot = false ∧
  s.dev.host.ops.length < 512 ∧ quiet s.dev ∧ shaped s.dev

/-- The window of a BAR2 offset (R477). -/
def winOf (off : Nat) : Nat := off / 2 ^ 34 % 4

/-- Landing virtual address of a BAR2 offset (R477). -/
def winAddr (off : Nat) (s : State) : Nat := s.dev.winLva (winOf off) (off % 2 ^ 34)

/-- Context of the window of a BAR2 offset (R478). -/
def winCtx (off : Nat) (s : State) : Nat := s.dev.rdi F.PCIE_WIN_CFG_CONTEXT (winOf off)

/-- The window of `off` passes TLPs of `len` bytes that stay in one 256-byte block, landing 0's translation buffer holds `e` for their
page, which lies at a node of the domain, and no fence or acquire holds the host port or the context back. -/
abbrev winMapped (off len : Nat) (e : TEntry) (s : State) : Prop :=
  s.dev.winStop (s.dev.winAt off) = none ∧ 1 ≤ len ∧ winAddr off s % 256 + len ≤ 256 ∧
  findT (winCtx off s) (winAddr off s / 2 ^ 21) (nth s.dev.xlt.ltb 0 []) = some e ∧ e.landing = 0 ∧ s.dev.stage = 4 ∧
  s.dev.rd F.PROT_CFG_ROLE ≠ 1 ∧ s.dev.hasNode (gpaNode (gpaIn e.gpaPage (winAddr off s))) = true ∧
  s.dev.rdp F.LND_CFG_HOST_FIRST 0x10 ≤ winCtx off s ∧ unheld s.dev 4 (winCtx off s)

/-! ### Requests at the home -/

/-- The home takes requests and nothing of it waits: no queue, no operation, no partner, no node of another served (R177, R586, R604). -/
abbrev homeIdle (s : State) : Prop :=
  s.dev.running = true ∧ s.dev.domOn 11 = true ∧ s.dev.homeOpen = true ∧ s.dev.home.queue = [] ∧ s.dev.home.ops = [] ∧
  s.dev.home.rcHolds = [] ∧ s.dev.home.recons = [] ∧ s.dev.home.store = [] ∧ s.dev.home.dups = [] ∧ s.dev.home.aliases = [] ∧
  s.dev.rd F.PROT_CFG_PARTNER_EN = 0

/-- As `homeIdle`, at a package that is no spare: it homes its own extents (R222). -/
abbrev homeUp (s : State) : Prop := homeIdle s ∧ s.dev.rd F.PROT_CFG_ROLE ≠ 1

/-- Nothing waits at the home's boundary, in its reorder store or for a reconstruction (R50, R137, R179, R208). -/
abbrev noneAtHome (d : Dev) : Prop := d.home.gate = [] ∧ d.home.store = [] ∧ d.home.recons = []

/-- GPA of a request. -/
def Req.gpa (r : Req) : Nat := r.opd.addr % 2 ^ 52

/-- Extent of a request. -/
def Req.ext (r : Req) : Nat := gpaExt r.gpa

/-- The GPA of a request is one of this package, and every line of it has power. -/
abbrev poweredHome (r : Req) (len : Nat) (s : State) : Prop :=
  gpaNode r.opd.addr = s.dev.node ∧ gpaOk r.gpa = true ∧ ∀ l ∈ linesOf r.gpa len, s.dev.linePowered (l % 2 ^ 39) = true

/-- As `poweredHome`, and no line holds an error that its code cannot correct (R164, R170). -/
abbrev atHome (r : Req) (len : Nat) (s : State) : Prop :=
  poweredHome r len s ∧ ∀ l ∈ linesOf r.gpa len, s.dev.lineErr (l % 2 ^ 39) ≠ 2

/-- The grant check passes (R64–R67): the tenant's ticket, an extent in LIVE, the landing's bit in the bitmap of the right. -/
abbrev granted (r : Req) (k : AKind) (s : State) : Prop :=
  s.dev.ticketOk r.hdr.ticket = true ∧ (s.dev.ext r.ext).state = 1 ∧ bit (rightMap k (s.dev.ext r.ext).bm) r.hdr.reqLanding = true

/-- The lines of a request as they read under the tenant key `key` (R184). -/
def oldLines (r : Req) (len key : Nat) (s : State) : List (List Byte) :=
  (linesOf r.gpa len).map (fun l => Pkg.plain (s.store, s.dev) (l % 2 ^ 39) (.key key l))

/-- The write is the next of its pair (R136, R137). -/
abbrev nextOfPair (r : Req) (s : State) : Prop :=
  let e := s.dev.ord (s.dev.ordKey s.dev.node r.hdr.srcNode r.hdr.srcEngine)
  e.st = .normal ∧ e.expect = r.hdr.manifest ∧ r.hdr.manifest < 65536

/-! ### Arrays -/

/-- Array `a` runs a slice whose next instruction has the opcode `op`: `n` is what the instruction needs (R269, R270, R278). -/
abbrev arrRuns (a op : Nat) (n : ArrNow) (s : State) : Prop :=
  s.dev.running = true ∧ s.dev.domOn 11 = true ∧ shaped s.dev ∧ s.dev.arrNow a op = some n

/-- The slice past its instruction: at the next one, or at the first of a LOOP body that runs again (R269). -/
def Machine.ArrNow.past (n : ArrNow) : ArrSlice :=
  { n.s with pc := (loopNext n.s.loops (n.s.pc + 1)).1, loops := (loopNext n.s.loops (n.s.pc + 1)).2 }

/-- Exact integer of element `j` of row `i` of slot `k`; zero outside `rows` and `cols` (R271). -/
def Machine.ArrNow.int (n : ArrNow) (x : Pkg) (k rows cols i j : Nat) : Int :=
  if i < rows ∧ j < cols then ((Pkg.spanElem n.o k i j [] x).getD .nan).toInt else 0

/-! ### Collectives -/

/-- A collective of this package runs: the only one, within its step window, nothing else in hand (R310, R314). -/
abbrev collRuns (op : Nat) (o : FOp) (c : Coll) (s : State) : Prop :=
  s.dev.running = true ∧ s.dev.domOn 11 = true ∧ quiet s.dev ∧ s.dev.fry.colls = [c] ∧ c.op = op ∧ s.dev.fop op = some o ∧
  o.retired = false ∧ c.running = true ∧ c.abort = none ∧ s.dev.collOver c = false

/-- The collective after a progress event of step `n` at the present time (R314, R319). -/
def Machine.Coll.at (c : Coll) (n : Nat) (s : State) : Coll :=
  { c with progressAt := s.dev.tim.tide, window := s.dev.rd F.COLL_CFG_STEP_TIMEOUT_US, step := max c.step n }

/-! ### Switch, links, source engines -/

/-- No mirror session copies frames (R396). -/
abbrev mirrorsOff (d : Dev) : Prop := ∀ i < 4, d.rdi F.MIR_SESS_CFG_ENABLE i = 0

/-- The frame `f` as it arrives at input `inp`. -/
def arrived (f : Frame) (inp : Nat) : QFrame :=
  { f := f, tail := none, spilled := false, inFloor := false, credit := none, inp := inp, arrChan := f.hdr.channel, cells := [], paid := false }

/-- What a link control message of the slots `sl` puts on port `p` at once: a sequenced flit with the grants that are owed, or nothing while
the replay buffer is full or another message waits for it (R447, R450). -/
def lctlSent (d : Dev) (p : Nat) (sl : List Byte) : List Emit :=
  let l := d.link p
  let gs := (l.owed.take 2).map (fun g => (g.1 / 4, g.1 % 4, min g.2 255))
  if l.room = true ∧ l.lctlWait = [] then
    [.flit p (Flit.bytes { seq := (l.txSeq + 1) % 4096, kind := 2, grants := gs, slots := sl } l.rxSeq false)]
  else []

/-- The wake tone and the training pattern on every lane of port `p` that LANE_DISABLE does not hold (R436). -/
def toneSent (d : Dev) (p : Nat) : List Emit :=
  [.tone p (maskMinus (allLanes p) (d.disabledLanes p)), .pattern p (maskMinus (allLanes p) (d.disabledLanes p))]

/-- What a message is handed to the crossbar as: a request with more data than a frame holds as a linked pair (R466). -/
def msgFrames : Emit → List Emit
  | .req r => if r.data.length ≤ 240 then [.req r]
    else [.req { r with data := r.data.take 240 }, .pairData { r.hdr with len := 2, opcode := 0x07 } (r.data.drop 240)]
  | e => [e]

/-- The IDLE flit that asks port `p`'s partner for a replay (R450). -/
def nakSent (d : Dev) (p : Nat) : Emit := .flit p (Flit.bytes { seq := (d.link p).txSeq, kind := 1 } (d.link p).rxSeq true)

end Sys2Proof
end

