-- ==== Sys2Proof/WellFormed.lean ====
section
/-!
DEFINITION. Well-formed commands: every operand fits the field that carries it (R446, R463, R464, R11, R63, R70, R74, R126, R217,
R443, R602). The meanings cut their operands to these fields themselves; no meaning rests on well-formedness.
-/
namespace Sys2Proof

/-- Operand slot (R463). -/
def Opd.wf (o : Opd) : Bool :=
  decide (o.addr < 2 ^ 57) && decide (o.ctx < 256) && decide (o.lengthM1 < 65536) && decide (o.aop < 16) && decide (o.order < 4)
    && decide (o.mfmt < 256) && decide (o.cfmt < 256)

/-- Header slot (R446). -/
def Hdr.wf (h : Hdr) : Bool :=
  decide (h.dest < 4096) && decide (h.srcNode < 4096) && decide (h.srcEngine < 64) && decide (h.cls < 4) && decide (h.channel < 4)
    && decide (1 ≤ h.len) && decide (h.len ≤ 17) && decide (h.bounces < 4) && decide (h.cmark < 4) && decide (h.echo < 4)
    && decide (h.ticket < 16) && decide (h.dstPort < 64) && decide (h.opcode < 256) && decide (h.manifest < 65536)
    && decide (h.reqLanding < 512) && decide (h.status < 16) && decide (h.tag < 4096) && decide (h.after < 65536)

/-- A request with the data of its linked pair (R466). -/
def Req.wf (r : Req) : Bool := r.hdr.wf && r.opd.wf && decide (r.data.length ≤ 256) && r.holes.all (fun i => decide (i < r.data.length))

/-- A frame's payload fills its slots (R446). -/
def Frame.wf (f : Frame) : Bool := f.hdr.wf && decide (f.pay.length = 16 * (f.hdr.len - 1))

/-- A landing's request with the data of its request frame (R463, R464, R466). -/
def LReq.wf (q : LReq) : Bool := decide (q.tag < 4096) && q.o.wf && decide (q.data.length ≤ 240)

/-- An answer (R11, R427, R446). -/
def Ans.wf (a : Ans) : Bool := decide (a.eng < 64) && decide (a.tag < 4096) && decide (a.status < 16) && decide (a.level < 4)

/-- The bitmaps of 512 global landings (R63, R65). -/
def Bitmaps.wf (b : Bitmaps) : Bool :=
  decide (b.read < 2 ^ 512) && decide (b.write < 2 ^ 512) && decide (b.atomic < 2 ^ 512) && decide (b.reduce < 2 ^ 512)

/-- Operands of an extent command (R70, R617). -/
def ExtArgs.wf (a : ExtArgs) : Bool := decide (a.index < 8192) && decide (a.region < 2 ^ 20) && a.bm.wf

/-- Operands of a region command (R74, R75). -/
def RegionArgs.wf (a : RegionArgs) : Bool :=
  decide (a.index < 8192) && decide (a.cls < 2) && decide (a.pages < 2 ^ 24) && decide (a.ptBase < 2 ^ 52) && decide (a.publish < 2 ^ 512)

/-- Operands of a recovery command (R499, R511). -/
def NodeGen.wf (a : NodeGen) : Bool := decide (a.node < 128) && decide (a.gen < 2 ^ 32)

/-- Operands of an invalidation (R98, R104). -/
def InvArgs.wf (a : InvArgs) : Bool :=
  decide (1 ≤ a.kind) && decide (a.kind ≤ 4) && decide (a.region < 2 ^ 20) && decide (a.first < 2 ^ 23) && decide (a.count < 2 ^ 24)
    && decide (a.ctx < 256)

/-- A command of either form. -/
def Cmd.wf {α : Type} (p : α → Bool) : Cmd α → Bool
  | .reg _ => true
  | .msg src a => decide (src < 4096) && p a

/-- An order record (R217). -/
def OrderRec.wf (r : OrderRec) : Bool := decide (r.src < 4096) && decide (r.eng < 64) && decide (r.man < 65536) && decide (r.status < 16)

/-- A mirror write (R211). -/
def MirrorMsg.wf (w : MirrorMsg) : Bool := decide (w.src < 4096) && decide (w.ext < 3232) && w.bytes.length % 64 == 0 && decide (w.cmark < 4)

/-- A journal message (R217). -/
def JournalMsg.wf (j : JournalMsg) : Bool := decide (j.src < 4096) && j.record.wf && decide (j.cmark < 4)

/-- A parity delta (R204): one line. -/
def DeltaMsg.wf (d : DeltaMsg) : Bool := decide (d.src < 4096) && decide (d.ext < 3232) && d.bytes.length == 64 && d.off % 64 == 0 && decide (d.cmark < 4)

/-- RC_READ and RC_RELEASE (R208). -/
def RcMsg.wf (r : RcMsg) : Bool := decide (r.src < 4096) && decide (r.ext < 3232) && decide (r.cmark < 4)

/-- A flit's header (R443). -/
def FlitMsg.wf (f : FlitMsg) : Bool := decide (f.bytes.length = 256)

/-- PARAM (R447). -/
def ParamMsg.wf (a : ParamMsg) : Bool := decide (a.node < 4096) && decide (a.role < 8) && decide (a.group < 8)

/-- How a request was answered: a status code and a congestion level (R11, R427). -/
def AnsHow.wf (a : AnsHow) : Bool := decide (a.status < 16) && decide (a.level < 4)

/-- COLL_DATA (R307): landings are global landing numbers. -/
def CollData.wf (c : CollData) : Bool := decide (c.src < 512) && decide (c.dst < 512) && decide (c.ticket < 16) && decide (c.cmark < 4) && decide (c.bounces < 4)

/-- COLL_CREDIT (R308, R309). -/
def CollCredit.wf (c : CollCredit) : Bool := decide (c.src < 512) && decide (c.dst < 512) && decide (c.echo < 4) && decide (c.cmark < 4)

/-- COLL_ABORT (R315). -/
def CollAbort.wf (c : CollAbort) : Bool := decide (c.src < 512) && decide (c.dst < 512) && decide (c.status < 16)

/-- Every operand of the command fits its field. -/
def Instr.wf (i : Instr) : Bool :=
  match i with
  | .registerWrite _ a _ _ => decide (a < 2 ^ 24)
  | .blkOwnerWrite _ page _ => decide (page < 4096)
  | .blkQuiesce _ page _ => decide (page < 4096)
  | .blkEnable _ page _ => decide (page < 4096)
  | .quiesceComplete page => decide (page < 4096)
  | .softReset _ page _ => decide (page < 4096)
  | .softResetDone page => decide (page < 4096)
  | .cntFreeze _ page _ => decide (page < 4096)
  | .cntClear _ page _ => decide (page < 4096)
  | .counterLowRead _ page _ => decide (page < 4096)
  | .blkIsrClear _ page _ => decide (page < 4096)
  | .blkItr _ page _ => decide (page < 4096)
  | .blkIerWrite _ page _ => decide (page < 4096)
  | .capRearm _ page _ => decide (page < 4096)
  | .paceWindowEnd _ => true
  | .lowClr _ page _ => decide (page < 4096)
  | .vddCoreChange _ => true
  | .vcoreLow _ => true
  | .coreUv => true
  | .domainOn _ => true
  | .domainOff _ => true
  | .load q => LReq.wf q
  | .store q => LReq.wf q
  | .atomic q => LReq.wf q
  | .reduce q => LReq.wf q
  | .bulkRead q => LReq.wf q
  | .bulkWrite q => LReq.wf q
  | .dataFrame _ tag _ => decide (tag < 4096)
  | .localFence q => LReq.wf q
  | .domainFence q => LReq.wf q
  | .fenceComplete _ => true
  | .lndFenceGo _ _ _ => true
  | .rcInv q => LReq.wf q
  | .wcFlush q => LReq.wf q
  | .wcBlockTimeout _ _ => true
  | .versionRead q => LReq.wf q
  | .publish q => LReq.wf q
  | .streamDeclare q => LReq.wf q
  | .streamEnd q => LReq.wf q
  | .doorbell q => LReq.wf q
  | .dockRead q => LReq.wf q
  | .pteWrite q => LReq.wf q
  | .faultBatchDue _ => true
  | .fltRingCons _ _ _ => true
  | .walkStart => true
  | .walkReadAnswer _ how _ => how.wf
  | .prefetchAnswer _ how _ => how.wf
  | .xltInvGo _ _ => true
  | .ctrlInvalidation src a => decide (src < 4096) && InvArgs.wf a
  | .invalidationComplete => true
  | .bar2Read id _ _ => decide (id < 2 ^ 14)
  | .bar2Write _ _ => true
  | .bar2Atomic id _ _ _ => decide (id < 2 ^ 14)
  | .bar4Doorbell _ _ => true
  | .perstNAssert => true
  | .perstNRelease => true
  | .timeFrameSend _ => true
  | .homeRead r _ => Req.wf r
  | .homeWrite r _ => Req.wf r
  | .homeAtomic r _ => Req.wf r
  | .homeReduceWrite r _ => Req.wf r
  | .homeMigrationWrite r _ _ => Req.wf r
  | .homeTableRead r _ => Req.wf r
  | .writePerformed _ => true
  | .orderHoleTimeout node src eng => decide (node < 4096) && decide (src < 4096) && decide (eng < 64)
  | .homePteWrite r _ => Req.wf r
  | .regionPte src region page _ _ => decide (src < 4096) && decide (region < 2 ^ 20) && decide (page < 2 ^ 23)
  | .homeVersionRead r => Req.wf r
  | .homePublish r => Req.wf r
  | .extGrant c => Cmd.wf ExtArgs.wf c
  | .extWiden c => Cmd.wf ExtArgs.wf c
  | .extRevoke c => Cmd.wf ExtArgs.wf c
  | .extReserve c => Cmd.wf ExtArgs.wf c
  | .extRelease c => Cmd.wf ExtArgs.wf c
  | .regionCreate c => Cmd.wf RegionArgs.wf c
  | .regionDestroy c => Cmd.wf RegionArgs.wf c
  | .homeBitmapClr _ _ => true
  | .revocationComplete _ => true
  | .nearScrub _ _ => true
  | .bulkScrub _ _ => true
  | .correctionWriteback _ => true
  | .refresh _ _ => true
  | .bulkCfgWrite _ _ => true
  | .snapshot _ _ => true
  | .snapshotComplete => true
  | .protBind _ => true
  | .parityComputeDone ext lines => decide (ext < 3232) && decide (lines < 2 ^ 32)
  | .parityDelta d => DeltaMsg.wf d
  | .deltaAnswer _ _ status => decide (status < 16)
  | .mirrorWrite w => MirrorMsg.wf w
  | .mirrorAnswer _ status => decide (status < 16)
  | .journalMessage j => JournalMsg.wf j
  | .journalAnswer _ status => decide (status < 16)
  | .protRepair src _ => decide (src < 4096)
  | .rcRead r => RcMsg.wf r
  | .rcRelease r => RcMsg.wf r
  | .rcHoldTimeout _ _ => true
  | .reconstructAnswer _ _ status _ _ => decide (status < 16)
  | .protMemberLost src a => decide (src < 4096) && NodeGen.wf a
  | .protStandin src a => decide (src < 4096) && NodeGen.wf a
  | .protMemberRestore src a => decide (src < 4096) && NodeGen.wf a
  | .rebuildStart src a spare _ _ _ => decide (src < 4096) && NodeGen.wf a && decide (spare < 128)
  | .rebuildCopy src node _ b => decide (src < 4096) && decide (node < 4096) && decide (b.manifest < 65536) && decide (b.tag < 4096)
  | .rebuildPhaseAck phase => decide (phase < 6)
  | .wardsPhase src lost spare => decide (src < 4096) && decide (lost < 128) && decide (spare < 128)
  | .rebuildDone r => decide (r.src < 4096) && decide (r.lost < 128)
  | .aliasClear src node => decide (src < 4096) && decide (node < 4096)
  | .protCfgWrite _ _ => true
  | .protGroupWrite _ _ _ => true
  | .sliceIssue _ _ => true
  | .programLoad _ => true
  | .arrLoop _ => true
  | .arrMac _ _ _ => true
  | .arrElt _ _ _ => true
  | .arrRowred _ => true
  | .arrCmpx _ => true
  | .arrIdx _ => true
  | .arrDrain _ => true
  | .endSlice _ => true
  | .arrayJobComplete _ => true
  | .pntProgInv _ _ _ => true
  | .arrayPairOn _ => true
  | .arrayPairIdleOff _ => true
  | .operationAccept _ => true
  | .waitReadAnswer _ _ how _ => how.wf
  | .semAcquireAnswer _ _ how _ => how.wf
  | .watchTrigger _ => true
  | .waitPoll _ _ => true
  | .waitWindowEnd _ => true
  | .operationIssue _ => true
  | .signalAnswer _ how => how.wf
  | .completionRecordWrite _ => true
  | .fryDoorbell _ _ _ ticket => decide (ticket < 16)
  | .descriptorFetchReturn _ how _ => how.wf
  | .frySubCfgWrite _ _ _ => true
  | .fryCmpCfgWrite _ _ _ => true
  | .ferryFenceDone _ => true
  | .tileIssue _ => true
  | .ferryComplete _ => true
  | .collRunning _ => true
  | .collData c => CollData.wf c
  | .collCredit c => CollCredit.wf c
  | .collSegmentRetry _ _ _ _ => true
  | .collAbort c => CollAbort.wf c
  | .collStepTimeout _ => true
  | .collComplete _ => true
  | .collAbortDone _ => true
  | .attnRunning _ => true
  | .attnQuery q => decide (q.src < 4096) && decide (q.cmark < 4)
  | .attnPageServed src _ _ _ _ _ _ => decide (src < 4096)
  | .attnGroupDone src _ _ => decide (src < 4096)
  | .attnPartial p => decide (p.status < 16) && decide (p.echo < 4) && decide (p.cmark < 4)
  | .attnComplete _ => true
  | .dispatchRunning _ => true
  | .routingDone _ _ => true
  | .tailFetchAnswer _ how _ => how.wf
  | .dispatchComplete _ => true
  | .frameArrive _ f _ => Frame.wf f
  | .frameDepart _ _ _ _ => true
  | .spillReturn _ _ _ => true
  | .mirrorSend => true
  | .bounceReceive b => Hdr.wf b.hdr
  | .rteLoad src _ _ => decide (src < 4096)
  | .routeEntryWrite _ page _ _ => decide (page < 4096)
  | .arm _ => true
  | .disarm _ => true
  | .bankFlip => true
  | .bankRetire => true
  | .rtePortRoleWrite _ _ _ => true
  | .rteCfgWrite _ _ => true
  | .answerReceive a => Ans.wf a
  | .linkEnable _ _ _ => true
  | .linkDisable _ _ _ => true
  | .detectTimer _ => true
  | .partnerDetected _ => true
  | .trainComplete _ _ _ => true
  | .alignComplete _ _ _ => true
  | .linkParam _ a => ParamMsg.wf a
  | .trainingBoundExceeded _ => true
  | .lossOfSignal _ => true
  | .laneFailure _ lane => decide (lane < 16)
  | .retrainComplete _ _ => true
  | .flitReceive _ f => FlitMsg.wf f
  | .nakRepeat _ => true
  | .replayTimer _ => true
  | .retrainReq _ => true
  | .widthReq _ _ _ => true
  | .widthAck _ _ _ _ => true
  | .prtWidthCmd _ _ _ => true
  | .autoWidenTimer _ => true
  | .widenAbandon _ => true
  | .wakeToneDetect _ lane => decide (lane < 16)
  | .eyeScanGo _ page _ => decide (page < 4096)
  | .eyeScanStop _ page _ => decide (page < 4096)
  | .eyePointDone page _ _ => decide (page < 4096)
  | .requestTimeout eng tag => decide (eng < 64) && decide (tag < 4096)
  | .retransmitTimer eng tag => decide (eng < 64) && decide (tag < 4096)
  | .resyncDrainDone eng _ => decide (eng < 64)
  | .orderResyncRetry eng _ => decide (eng < 64)
  | .orderResync node src eng _ => decide (node < 4096) && decide (src < 4096) && decide (eng < 64)
  | .quarantineEnd node src eng => decide (node < 4096) && decide (src < 4096) && decide (eng < 64)
  | .orderResyncDone eng _ _ => decide (eng < 64)
  | .fatalError page _ => decide (page < 4096)
  | .rcvNodeLost c => Cmd.wf NodeGen.wf c
  | .rcvNodeFound c => Cmd.wf NodeGen.wf c
  | .rcvSourceReset c => Cmd.wf NodeGen.wf c
  | .slipwayTransit _ => true
  | .slipwayServing _ => true
  | .servingAtT => true
  | .trainedReached => true
  | .rcvCfgWrite _ _ _ => true
  | .keyLoad _ => true
  | .stagedClear _ => true
  | .assign _ => true
  | .close _ => true
  | .bump _ => true
  | .drainComplete => true
  | .drainWindowEnd => true
  | .eraseComplete => true
  | .scrub _ => true
  | .scrubComplete => true
  | .svnCommit _ => true
  | .debugUnlock _ => true
  | .getVersion _ => true
  | .getCapabilities _ _ => true
  | .negotiateAlgorithms _ _ => true
  | .getDigests _ => true
  | .getCertificate _ _ _ _ => true
  | .challenge _ _ _ => true
  | .getMeasurements _ _ _ => true
  | .keyExchange _ _ _ _ _ => true
  | .finish _ _ => true
  | .heartbeat _ => true
  | .keyUpdate _ => true
  | .endSession _ => true
  | .timeSyncSend => true
  | .timeSync _ _ => true
  | .timeSyncReply _ => true
  | .exchangeTimeout => true
  | .timeSet _ _ => true
  | .timeSetAtPps _ _ => true
  | .reacquire _ _ => true
  | .timeRootWrite _ _ => true
  | .ppsInEdge => true
  | .ppsMissed => true
  | .ppsOutEdge => true
  | .timeNowLoRead _ => true
  | .mgmtHeartbeat => true
  | .idle _ _ => true
  | .moor _ _ => true
  | .moorQuiesced => true
  | .moorStepComplete => true
  | .moorEntryTimeout => true
  | .wakeSource _ => true
  | .wake _ _ => true
  | .moorExitComplete => true
  | .capWrite _ _ => true
  | .limitStrobe _ => true
  | .vsetReached => true
  | .thermalReading _ => true
  | .brakeAssert => true
  | .brakeRelease => true
  | .telemetryWindowEnd _ => true
  | .peakClr _ _ => true
  | .pwrEnergyLoRead _ _ => true
  | .pwrDomReqWrite _ _ => true
  | .resetNAssert => true
  | .resetNRelease _ _ => true
  | .vddAonLoss => true
  | .bootStageComplete _ => true
  | .join _ _ => true
  | .eoffN _ => true
  | .pwrfailN _ => true
  | .regRead a => decide (a < 2 ^ 24)
  | .regWrite a _ => decide (a < 2 ^ 24)
  | .sidebandMsg _ => true
  | .fmRegRead src a _ => decide (src < 4096) && decide (a < 2 ^ 24)
  | .fmRegWrite src a _ _ => decide (src < 4096) && decide (a < 2 ^ 24)
  | .fmqGo _ _ => true
  | .fmqSend => true
  | .fmqReceive _ => true
  | .wideningLanesReady _ => true
  | .tideHoldEnd => true
  | .configurationRequest q => decide (q.id < 2 ^ 14)
  | .fltRingCfgWrite _ _ _ => true
  | .lndCfgWrite _ _ _ => true
  | .lndRankDataWrite _ _ _ => true

end Sys2Proof
end

