-- ==== Sys2Proof/Certificates/Slice0/Obligations.lean ====
section
/-!
DEFINITION. The statements about the package, each a formal reading of rules of the spec or a property of the whole block. Those that
rest on a choice of the model's own say so and name the log entry.
-/

open Sys2Proof Sys2Proof.Machine

/-! ### The queue and the step -/

/-- A step takes the command at the front of the queue and runs it on the state with the rest of the queue. -/
def Obligations.StepRunsFrontCommand : Prop :=
  ∀ (s : State) (c : Instr) (rest : List Instr), s.pending = c :: rest →
    step s = exec c { s with pending := rest }

/-- No command touches the queue: what it answers has the queue it was given. -/
def Obligations.CommandsKeepQueue : Prop :=
  ∀ (c : Instr) (s t : State), exec c s = .next t → t.pending = s.pending

/-- Every command of every form answers a next state, but for a register access at an offset of 16 MiB or more, which lies outside
BAR0 (R602): such an offset is the one thing that faults. Nothing is refused. -/
def Obligations.EveryCommandAnswers : Prop :=
  ∀ (c : Instr) (s : State), (∃ t, exec c s = .next t) ∨ (∃ a, 2 ^ 24 ≤ a ∧ exec c s = .fault (.outsideBar0 a))

/-! ### Registers (R6–R9, R476, R487, R507, R508, R602–R612) -/

/-- R508: OWNER takes the value written by the owner, or by the management core while OWNER is not LOCKED; any other write of it is
dropped and captured NOT_OWNER. Nothing else changes but the host port's count of TLPs (R610). -/
def Said.OwnerWrite : Prop :=
  ∀ (m : Master) (p : Nat) (v : W32) (s : State), pageOpen s.dev m p →
    (s.dev.rdp F.BLK_OWNER_OWNER p ≠ 3 ∧ (s.dev.rdp F.BLK_OWNER_OWNER p = masterCode m ∨ m = .mgmt) →
      exec (.blkOwnerWrite m p v) s = .next { s with dev := (tlp m s.dev).wrp F.BLK_OWNER_OWNER p v.toNat } ∧
      ((tlp m s.dev).wrp F.BLK_OWNER_OWNER p v.toNat).rdp F.BLK_OWNER_OWNER p = bits v.toNat 0 2) ∧
    (¬(s.dev.rdp F.BLK_OWNER_OWNER p ≠ 3 ∧ (s.dev.rdp F.BLK_OWNER_OWNER p = masterCode m ∨ m = .mgmt)) →
      exec (.blkOwnerWrite m p v) s = .next { s with dev := (tlp m s.dev).dropWrite m p 8 v.toNat 1 })

/-- R7, R508: what a write does to each field of a register by its access code: RO and WO fields keep their value, an RW field takes the
value written, each 1 written to an RW1C field clears its bit, an RWO field takes the value only from the page's owner. A reserved
encoding (R9) or a part that takes no value now keeps the field. -/
def Obligations.AccessCodes : Prop :=
  ∀ (d : Dev) (own : Bool) (p off v : Nat) (f : Fld), f ∈ fieldsAt p off → ¬(p = 1 ∧ off = 0x114) →
    (f.acc = .ro ∨ f.acc = .wo →
      bits (d.newWord own p off v) f.lo f.w = bits (d.word (p * 0x1000 + off)) f.lo f.w) ∧
    (f.acc = .rw1c → ∀ i < f.w,
      bit (d.newWord own p off v) (f.lo + i) = (bit (d.word (p * 0x1000 + off)) (f.lo + i) && !bit v (f.lo + i))) ∧
    (f.acc = .rw → d.reserved p off v f = false → d.partHeld p off f = false →
      bits (d.newWord own p off v) f.lo f.w = bits v f.lo f.w) ∧
    (f.acc = .rwo → own = true → d.reserved p off v f = false → d.partHeld p off f = false →
      bits (d.newWord own p off v) f.lo f.w = bits v f.lo f.w) ∧
    (f.acc = .rwo → own = false →
      bits (d.newWord own p off v) f.lo f.w = bits (d.word (p * 0x1000 + off)) f.lo f.w) ∧
    (d.reserved p off v f = true → f.acc ≠ .rw1c →
      bits (d.newWord own p off v) f.lo f.w = bits (d.word (p * 0x1000 + off)) f.lo f.w)

/-- R7, R9: a write that its page accepts stores the new word of the register and sets going what the register's rules say
(`Pkg.written`); a write that carries a reserved encoding stores the other fields, is captured RESERVED_ENCODING and starts nothing.
Said for REGISTER_WRITE by any master, REG_WRITE over the sideband and REG_WRITE by message, which is also answered OK (R612). -/
def Obligations.RegisterWrites : Prop :=
  ∀ (p off v : Nat) (s : State), plainRegister s.dev p off → v < 2 ^ 32 →
    (∀ m, pageOpen s.dev m p → fieldsTaken (tlp m s.dev) m p off v →
      exec (.registerWrite m (p * 0x1000 + off) 4 v) s =
        .next (withPkg s (fieldsStored m p off v true (s.store, tlp m s.dev)))) ∧
    (∀ m, pageOpen s.dev m p → fieldsReserved (tlp m s.dev) m p off v →
      exec (.registerWrite m (p * 0x1000 + off) 4 v) s =
        .next (withPkg s (fieldsStored m p off v false (s.store, (tlp m s.dev))))) ∧
    (pageOpen s.dev .mgmt p → fieldsTaken s.dev .mgmt p off v →
      exec (.regWrite (p * 0x1000 + off) (BitVec.ofNat 32 v)) s =
        .next (withPkg s (fieldsStored .mgmt p off v true (s.store, s.dev)))) ∧
    (∀ src, pageOpen s.dev .fm p → s.dev.fmAllowed src = true → fieldsTaken s.dev .fm p off v →
      exec (.fmRegWrite src (p * 0x1000 + off) 4 v) s =
        .next (withPkg s ((fieldsStored .fm p off v true (s.store, s.dev)).dev (fun d => d.ctrl src (.regReply sOk [])))))

/-- R508: a write of an RWO or WO field by a master that is not the owner stores nothing and is captured NOT_OWNER, with the value, the
page offset and the master as detail (R489); by message it is answered RIGHTS (R612). No other register of the page at 0x40 and above
changes. -/
def Said.NotOwnerDropped : Prop :=
  ∀ (m : Master) (p off v : Nat) (s : State), plainRegister s.dev p off → v < 2 ^ 32 → pageOpen s.dev m p →
    isFmq p off = false → s.dev.owns m p = false → (fieldsAt p off).all (fun f => f.acc == .rwo || f.acc == .ro || f.acc == .wo) = true →
    (fieldsAt p off).any (fun f => f.acc == .rwo || f.acc == .wo) = true →
    ∃ t, exec (.registerWrite m (p * 0x1000 + off) 4 v) s = .next t ∧
      t.store = s.store ∧
      (s.dev.rdp F.BLK_ERR_CAP0_VALID p = 0 →
        t.dev.rdp F.BLK_ERR_CAP0_VALID p = 1 ∧ t.dev.rdp F.BLK_ERR_CAP0_CODE p = 1 ∧
        t.dev.rdp F.BLK_ERR_CAP1_DETAIL_LO p = v ∧ t.dev.rdp F.BLK_ERR_CAP2_DETAIL_HI p = off + masterCode m * 2 ^ 12) ∧
      (∀ a, a / 0x1000 ≠ 0xC0 → 0x40 ≤ a % 0x1000 → t.dev.word a = s.dev.word a)

/-- Who may write the registers of a page, and what happens to a write of another master. -/
def Obligations.Ownership : Prop := Said.OwnerWrite ∧ Said.NotOwnerDropped

/-- R39, R487, R606: the header's interrupt and capture registers. Each 1 written to BLK_ISR clears its bit; BLK_ITR sets the bits
written; BLK_IER takes the bits written by its owner; a 1 written to BLK_ERR_CAP0.VALID re-arms capture; LOW_CLR sets PACE_LOW to its
largest value. BLK_ITR and BLK_IER may make the page pending, which sends one MSI-X message. -/
def Said.HeaderWrites : Prop :=
  ∀ (m : Master) (p : Nat) (v : W32) (s : State), pageOpen s.dev m p →
    (∃ t, exec (.blkIsrClear m p v) s = .next t ∧ t.store = s.store ∧
      (∀ i, i < 24 ∨ i = 31 → bit (t.dev.word (p * 0x1000 + 0x14)) i = (bit (s.dev.word (p * 0x1000 + 0x14)) i && !bit v.toNat i)) ∧
      (∀ a, a ≠ p * 0x1000 + 0x14 → t.dev.word a = s.dev.word a) ∧ t.dev.out = s.dev.out) ∧
    (s.dev.owns m p = true →
      (∃ t, exec (.blkItr m p v) s = .next t ∧ t.store = s.store ∧
        (∀ i, i < 24 ∨ i = 31 → bit (t.dev.word (p * 0x1000 + 0x14)) i = (bit (s.dev.word (p * 0x1000 + 0x14)) i || bit v.toNat i)) ∧
        (∀ a, a ≠ p * 0x1000 + 0x14 → t.dev.word a = s.dev.word a)) ∧
      (∃ t, exec (.blkIerWrite m p v) s = .next t ∧ t.store = s.store ∧
        (∀ i, i < 24 ∨ i = 31 → bit (t.dev.word (p * 0x1000 + 0x18)) i = bit v.toNat i) ∧
        (∀ a, a ≠ p * 0x1000 + 0x18 → t.dev.word a = s.dev.word a)) ∧
      exec (.lowClr m p v) s = .next { s with dev := (tlp m s.dev).wrp F.BLK_PACE_PACE_LOW p 0xFFF }) ∧
    exec (.capRearm m p v) s =
      .next { s with dev := ((tlp m s.dev).wrp F.BLK_ERR_CAP0_VALID p 0).wrp F.BLK_ERR_CAP0_OVERFLOW p 0 }

/-- R606: a page that becomes pending sends one MSI-X message on entry 1,024 + page; a page that stays pending, or is not pending,
sends none. Said of every event (its BLK_ISR bit), while PERST_N is high. -/
def Said.PendingMessage : Prop :=
  ∀ (d : Dev) (p i : Nat), d.rd F.GLB_PIN_STAT_PERST = 0 →
    (d.event p i).out =
      d.out ++ (if !d.isPending p && (d.event p i).isPending p then [Emit.msix (1024 + p)] else [])

/-- The interrupt and capture registers of a page header, and the message of a pending event. -/
def Obligations.HeaderRegisters : Prop := Said.HeaderWrites ∧ Said.PendingMessage

/-- R604, R605, R610: the parts of a BLK_CTRL write by the owner, on a page that quiesces: the write gives the package `ctrlWrite` and
then lets go what waited at the block's boundary. QUIESCE takes the bit written; ENABLE = 0 takes effect only while QUIESCED is 1;
SOFT_RESET is accepted only with ENABLE = 0 and QUIESCED = 1 and then sets SRST_BUSY and clears the counters; CNT_FREEZE takes its bit;
CNT_CLEAR sets every counter of the page to 0. -/
def Said.ControlWrites : Prop :=
  ∀ (m : Master) (p : Nat) (v : W32) (k : PageKind) (s : State), pageOpen s.dev m p → s.dev.owns m p = true → pageKind p = some k →
    (exec (.blkQuiesce m p v) s = .next (withPkg s (Pkg.released (s.store, (tlp m s.dev).ctrlWrite m p v.toNat))) ∧
      exec (.blkEnable m p v) s = .next (withPkg s (Pkg.released (s.store, (tlp m s.dev).ctrlWrite m p v.toNat))) ∧
      exec (.cntFreeze m p v) s = .next (withPkg s (Pkg.released (s.store, (tlp m s.dev).ctrlWrite m p v.toNat))) ∧
      exec (.cntClear m p v) s = .next (withPkg s (Pkg.released (s.store, (tlp m s.dev).ctrlWrite m p (putBit v.toNat 4 true)))) ∧
      exec (.softReset m p v) s = .next (withPkg s (Pkg.released (s.store, (tlp m s.dev).ctrlWrite m p (putBit v.toNat 2 true))))) ∧
    (∀ (d : Dev) (w : Nat),
      (k.quiesce = true → (Dev.ctrlWrite m p w d).rdp F.BLK_CTRL_QUIESCE p = bits w 1 1) ∧
      (k.quiesce = true → bit w 0 = false → d.rdp F.BLK_STAT_QUIESCED p = 0 → d.rdp F.BLK_CTRL_ENABLE p = 1 →
        (Dev.ctrlWrite m p w d).rdp F.BLK_CTRL_ENABLE p = 1) ∧
      (k.quiesce = true → bit w 0 = false → d.rdp F.BLK_STAT_QUIESCED p = 1 → (Dev.ctrlWrite m p w d).rdp F.BLK_CTRL_ENABLE p = 0) ∧
      (k.quiesce = false → (Dev.ctrlWrite m p w d).rdp F.BLK_CTRL_ENABLE p = d.rdp F.BLK_CTRL_ENABLE p ∧
        (Dev.ctrlWrite m p w d).rdp F.BLK_CTRL_QUIESCE p = d.rdp F.BLK_CTRL_QUIESCE p) ∧
      (Dev.ctrlWrite m p w d).rdp F.BLK_CTRL_CNT_FREEZE p = bits w 3 1 ∧
      (bit w 4 = true → bit w 2 = false → bits w 0 2 = 1 → ∀ i < 1024, (Dev.ctrlWrite m p w d).counter p i = 0) ∧
      (d.softOk p = true → bit w 2 = true → (Dev.ctrlWrite m p w d).rdp F.BLK_STAT_SRST_BUSY p = 1 ∧
        ∀ i < 1024, (Dev.ctrlWrite m p w d).counter p i = 0))

/-- R604: a block that QUIESCE, ENABLE = 0 or the power controller holds, and that has no work in hand, sets QUIESCED and changes
nothing else; one that has work in hand does not. R605: SOFT_RESET_DONE clears SRST_BUSY and changes nothing else. -/
def Said.QuiesceAndResetEnd : Prop :=
  ∀ (p : Nat) (s : State), s.dev.running = true → s.dev.pageOn p = true →
    ((pageKind p).isSome = true →
      (s.dev.rdp F.BLK_CTRL_QUIESCE p = 1 ∨ s.dev.rdp F.BLK_CTRL_ENABLE p = 0 ∨ s.dev.powerHeld p = true) →
      exec (.quiesceComplete p) s =
        .next (if s.dev.workInHand p then s else { s with dev := s.dev.wrp F.BLK_STAT_QUIESCED p 1 })) ∧
    (s.dev.rdp F.BLK_STAT_SRST_BUSY p = 1 →
      exec (.softResetDone p) s = .next { s with dev := s.dev.wrp F.BLK_STAT_SRST_BUSY p 0 })

/-- What BLK_CTRL does, and how a drain and a soft reset end. -/
def Obligations.BlockControl : Prop := Said.ControlWrites ∧ Said.QuiesceAndResetEnd

/-- R39, R40, R41: at the end of a window, which is a whole microsecond of tide time and is taken once, each listed page's PACE is its
count of handshakes in the window, the lowest one where several crossings count for it (BULK), cut to 12 bits' largest value, and PACE_LOW
falls to it; a block that is off, or turned on after the window began, reads PACE 0 and keeps PACE_LOW. Every other register keeps its
value. -/
def Said.PaceWindow : Prop :=
  ∀ (paces : List (Nat × Nat)) (s : State), s.dev.paced = true →
    (s.dev.ns / 1000 ≤ s.dev.glb.paceAt → exec (.paceWindowEnd paces) s = .next s) ∧
    (s.dev.glb.paceAt < s.dev.ns / 1000 →
      ∃ t, exec (.paceWindowEnd paces) s = .next t ∧ t.store = s.store ∧ t.dev.glb = { s.dev.glb with paceAt := s.dev.ns / 1000 } ∧
        (∀ p n, (p, n) ∈ paces → (∀ m, (p, m) ∈ paces → n ≤ m) → (pageKind p).isSome = true →
          (s.dev.pageOn p = true → nget s.dev.glb.domAt (pageDomain p) ≤ us (s.dev.ns / 1000 - 1) →
            t.dev.rdp F.BLK_PACE_PACE p = min n 0xFFF ∧
            t.dev.rdp F.BLK_PACE_PACE_LOW p = min (min n 0xFFF) (s.dev.rdp F.BLK_PACE_PACE_LOW p)) ∧
          (s.dev.pageOn p = false ∨ us (s.dev.ns / 1000 - 1) < nget s.dev.glb.domAt (pageDomain p) →
            t.dev.rdp F.BLK_PACE_PACE p = 0 ∧ t.dev.rdp F.BLK_PACE_PACE_LOW p = s.dev.rdp F.BLK_PACE_PACE_LOW p)) ∧
        (∀ a, a % 0x1000 ≠ 0x34 → t.dev.word a = s.dev.word a))

/-- R610: a counter counts by saturating addition while CNT_FREEZE is 0 and not at all while it is 1, and no other counter moves;
COUNTER_LOW_READ answers the low word and latches the high word, which the next read of the high word returns. -/
def Said.Counters : Prop :=
  (∀ (d : Dev) (p i k : Nat), i < 1024 →
    (d.rdp F.BLK_CTRL_CNT_FREEZE p = 0 → (d.count p i k).counter p i = min (d.counter p i + k) (2 ^ 64 - 1)) ∧
    (d.rdp F.BLK_CTRL_CNT_FREEZE p = 1 → d.count p i k = d) ∧
    (∀ q j, j < 1024 → (q, j) ≠ (p, i) → (d.count p i k).counter q j = d.counter q j)) ∧
  (∀ (m : Master) (p i : Nat) (s : State), s.dev.reaches m false p = true → s.dev.pageOn p = true → i < pageCounters p →
    ∃ t, exec (.counterLowRead m p (.low i)) s = .next t ∧ t.store = s.store ∧
      t.dev.out = s.dev.out ++ [.regData m 0 (natLE 4 (s.dev.counter p i % 2 ^ 32))] ∧
      (t.dev.counterRead p i true).1 = s.dev.counter p i / 2 ^ 32)

/-- The pace registers and the counters of a page. -/
def Obligations.PaceAndCounters : Prop := Said.PaceWindow ∧ Said.Counters

/-- R611, R612: a register read over the sideband answers status 0 and the value (a page that R602 does not list reads 0); one by
message is answered with REG_REPLY, status OK and the value. Said for registers without a latch; the read changes nothing else. -/
def Said.RegisterReads : Prop :=
  ∀ (p off : Nat) (s : State), off < 0x1000 → off % 4 = 0 → counterAt p off = none →
    p * 0x1000 + off ≠ 0x2118 → p * 0x1000 + off ≠ F.PWR_ENERGY_LO_MJ_LO.addr 1 0 →
    ¬(p * 0x1000 + off = 0x311C ∧ s.dev.tenancy = 5) → p < 4096 →
    (s.dev.glb.off = false → s.dev.sidebandReaches false p = true →
      exec (.regRead (p * 0x1000 + off)) s =
        .next { s with dev := s.dev.emit (.regData .mgmt 0 (natLE 4 (s.dev.readWord (p * 0x1000 + off)))) }) ∧
    (∀ src, s.dev.running = true → s.dev.fmAllowed src = true →
      exec (.fmRegRead src (p * 0x1000 + off) 4) s =
        .next { s with dev := s.dev.ctrl src (.regReply sOk (natLE 4 (s.dev.readWord (p * 0x1000 + off)))) }) ∧
    ((pageKind p).isNone = true → s.dev.readWord (p * 0x1000 + off) = 0)

/-- R602: a page that the table does not list reads 0 at every offset and ignores writes; a host write to it is captured in the PCIE page
with CODE 0x11 and the offset, once for each of the one or two words written. The host port counts the TLP (R610). -/
def Said.UnlistedPages : Prop :=
  ∀ (m : Master) (p off size v : Nat) (s : State), p < 4096 → off < 0x1000 → accessOk off size = true → pageKind p = none →
    s.dev.reaches m true p = true →
    s.dev.readWord (p * 0x1000 + off) = 0 ∧ (s.dev.readReg (p * 0x1000 + off)).1 = 0 ∧
    (m ≠ .host → exec (.registerWrite m (p * 0x1000 + off) size v) s = .next s) ∧
    (m = .host → size = 4 →
      ∃ t, exec (.registerWrite m (p * 0x1000 + off) size v) s = .next t ∧ t.store = s.store ∧ t.pending = s.pending ∧
        t.dev = (s.dev.count 0x18 0 1).undefinedPage (p * 0x1000 + off)) ∧
    (m = .host → size = 8 →
      ∃ t, exec (.registerWrite m (p * 0x1000 + off) size v) s = .next t ∧ t.store = s.store ∧ t.pending = s.pending ∧
        t.dev = ((s.dev.count 0x18 0 1).undefinedPage (p * 0x1000 + off)).undefinedPage (p * 0x1000 + off + 4))

/-- Register reads over the sideband and by message, and the pages that are not listed. -/
def Obligations.RegisterAccess : Prop := Said.RegisterReads ∧ Said.UnlistedPages

/-- R613: a fabric-manager message from a node that may not send one is dropped and counted in MGMT's BLK_ERR_CNT. Said for the two
register messages. -/
def Said.FabricManagerNodes : Prop :=
  ∀ (src a size v : Nat) (s : State), s.dev.running = true → s.dev.fmAllowed src = false →
    exec (.fmRegRead src a size) s = .next { s with dev := s.dev.fmDropped } ∧
    (a < 2 ^ 24 → exec (.fmRegWrite src a size v) s = .next { s with dev := s.dev.fmDropped }) ∧
    s.dev.fmDropped.rdp F.BLK_ERR_CNT_ERRORS 4 = min (s.dev.rdp F.BLK_ERR_CNT_ERRORS 4 + 1) 0xFFFF

/-- R615: GO copies the staged message into the 8-deep send queue, or is dropped and captured QUEUE_FULL; the queued messages leave in
GO order, each with the package's own SRC_NODE and class CTRL; a message for the fabric manager is written to the receive ring as a
64-byte entry at PROD, or counted in MISSED where the ring is full or off. -/
def Said.FabricManagerQueue : Prop :=
  (∀ (v : W32) (s : State), pageOpen s.dev .host 4 → s.dev.rd F.MGMT_FM_CFG_FM_EN = 1 → bits v.toNat 0 2 ≤ 2 →
    ∃ t, exec (.fmqGo .host v) s = .next t ∧ t.store = s.store ∧ t.dev.rd F.MGMT_FMQ_CMD_SLOTS = bits v.toNat 0 2 ∧
      (s.dev.mgmt.sendQ.length < 8 → ∃ b, t.dev.mgmt.sendQ = s.dev.mgmt.sendQ ++ [b] ∧ b.length = 48) ∧
      (8 ≤ s.dev.mgmt.sendQ.length → t.dev.mgmt.sendQ = s.dev.mgmt.sendQ ∧
        (s.dev.rdp F.BLK_ERR_CAP0_VALID 4 = 0 → t.dev.rdp F.BLK_ERR_CAP0_CODE 4 = 4))) ∧
  (∀ (b : List Byte) (q : List (List Byte)) (s : State), s.dev.running = true → s.dev.domOn 11 = true →
    s.dev.mgmt.sendQ = b :: q → leNat ((s.dev.stamped b).take 2) % 4096 ≠ s.dev.node →
    s.dev.hasNode (leNat ((s.dev.stamped b).take 2) % 4096) = true →
    ∃ t, exec .fmqSend s = .next t ∧ t.store = s.store ∧ t.dev.mgmt.sendQ = q ∧
      t.dev.out = s.dev.out ++ [.ctrl (leNat ((s.dev.stamped b).take 2) % 4096) (.staged (s.dev.stamped b))] ∧
      t.dev.rd F.MGMT_FMQ_STAT_SENT = (s.dev.rd F.MGMT_FMQ_STAT_SENT + 1) % 2 ^ 16) ∧
  (∀ (b : List Byte) (s : State), s.dev.running = true → s.dev.rd F.GLB_PIN_STAT_PERST = 0 →
    s.dev.rd F.MGMT_FMQ_RX_CFG_INT_EN = 0 →
    ∃ t, exec (.fmqReceive b) s = .next t ∧ t.store = s.store ∧
      (if s.dev.rd F.MGMT_FMQ_RX_CFG_ENABLE = 1 ∧
          ringFree (s.dev.rd F.MGMT_FMQ_RX_PROD_PROD) (s.dev.rd F.MGMT_FMQ_RX_CONS_CONS) (s.dev.rd F.MGMT_FMQ_RX_CFG_LOG2_SIZE) = true then
        t.dev.out = s.dev.out ++ [.hostWrite
          (ringAddr (s.dev.rd F.MGMT_FMQ_RX_BASE_LO_BASE_LO) (s.dev.rd F.MGMT_FMQ_RX_BASE_HI_BASE_HI)
            (s.dev.rd F.MGMT_FMQ_RX_PROD_PROD) (s.dev.rd F.MGMT_FMQ_RX_CFG_LOG2_SIZE) 64)
          (sliceBytes b 0 48 ++ natLE 8 s.dev.ns ++ natLE 8 0)] ∧
        t.dev.rd F.MGMT_FMQ_RX_PROD_PROD = (s.dev.rd F.MGMT_FMQ_RX_PROD_PROD + 1) % 2 ^ 32
      else t.dev.out = s.dev.out ∧
        t.dev.rd F.MGMT_FMQ_RX_STAT_MISSED = min (s.dev.rd F.MGMT_FMQ_RX_STAT_MISSED + 1) 0xFFFF))

/-- Whose messages the package acts on, and the message queues of the fabric manager. -/
def Obligations.FabricManager : Prop := Said.FabricManagerNodes ∧ Said.FabricManagerQueue

/-! ### Power (R47–R50, R556–R577) -/

/-- R47: a change of VDD_CORE within 0.60 V and above changes nothing but what the monitor knows. R49: below 0.60 V VCORE_LOW reads 1,
and each entry sets GLB BLK_ISR bit 1 and counts one error; a rail that has been below 0.55 V for 1 µs holds the core (CORE_UV), which
then takes no work, with its transmitters idle. Under RESET_N the monitor goes on (log entry 58). -/
def Obligations.CoreVoltage : Prop :=
  (∀ (mv : Nat) (s : State), s.dev.glb.off = true → s.dev.glb.vddAon = true → 600 ≤ mv →
    exec (.vddCoreChange mv) s = .next { s with
      dev := { s.dev with glb := { s.dev.glb with vddMv := mv, uvSince := none } } }) ∧
  ∀ (mv : Nat) (s : State), s.dev.glb.off = false → s.dev.glb.vddAon = true →
    (600 ≤ mv → exec (.vddCoreChange mv) s = .next { s with
      dev := ({ s.dev with glb := { s.dev.glb with vddMv := mv, uvSince := none } }).wr F.BLK_STAT_BLOCK 0 }) ∧
    (mv < 600 → ∃ t, exec (.vcoreLow mv) s = .next t ∧ t.store = s.store ∧
      t.dev.rd F.BLK_STAT_BLOCK = 1 ∧ t.dev.glb.vddMv = mv ∧ (t.dev.glb.uvSince.isSome = true ↔ mv < 550) ∧
      (600 ≤ s.dev.glb.vddMv → bit (t.dev.word 0x14) 1 = true ∧
        t.dev.rd F.BLK_ERR_CNT_ERRORS = min (s.dev.rd F.BLK_ERR_CNT_ERRORS + 1) 0xFFFF)) ∧
    (∀ t0, s.dev.glb.uvSince = some t0 → t0 + us 1 ≤ s.dev.tim.tide → s.dev.glb.hold ≠ .coreUv → s.dev.glb.hold ≠ .eoff →
      ∃ t, exec .coreUv s = .next t ∧ t.store = s.store ∧ t.dev.glb.hold = .coreUv ∧ t.dev.running = false ∧
        t.dev.glb.transmitters = false ∧ t.dev.rd F.ERR_FATAL_CORE_UV = 1 ∧ t.dev.out = s.dev.out ++ [.pin "TX_IDLE" 1])

/-- R568–R571: a cap order by register (any cap value) or by LIMIT_STROBE with PIN_EN = 1 (16 W times the code, codes 60 to 63 no
cap) becomes the most recent order; in ACTIVE and IDLE, with no brake and no thermal order, the cap in force is the order, at most
950 W, CAP_SRC names its source and VSET its setpoint. While the brake holds, or in another power state, it only waits. -/
def Said.CapOrders : Prop :=
  (∀ (w src : Nat) (d : Dev), d.pwr.narrowed = false → d.pwr.thermal = false → 380 ≤ w → w < 1024 → src < 4 →
    (d.braked = false ∧ d.awake = true →
      (d.capOrder w src).rd F.PWR_STAT_CAP_EFF = min 950 w ∧ (d.capOrder w src).rd F.PWR_STAT_CAP_SRC = src ∧
      (d.capOrder w src).rd F.PWR_STAT_VSET = (if 800 ≤ w then 0 else if 640 ≤ w then 1 else if 500 ≤ w then 2 else 3) ∧
      (d.capOrder w src).rd F.PWR_STAT_CAP_STATUS = 0) ∧
    (d.braked = true ∨ d.awake = false →
      (d.capOrder w src).rd F.PWR_STAT_CAP_EFF = d.rd F.PWR_STAT_CAP_EFF ∧ (d.capOrder w src).pwr.pendingOrder = true) ∧
    (d.capOrder w src).pwr.order = w ∧ (d.capOrder w src).pwr.orderSrc = src) ∧
  (∀ (c : Fin 64) (s : State), s.dev.glb.off = false →
    exec (.limitStrobe c) s = .next (if s.dev.rd F.PWR_CFG_PIN_EN = 1 then
      { s with dev := s.dev.capOrder (if 60 ≤ c.val then 950 else 16 * c.val) 1 } else s)) ∧
  (∀ (m : Master) (v : W32) (s : State), pageOpen s.dev m 1 → s.dev.owns m 1 = true →
    exec (.capWrite m v) s = .next { s with
      dev := Dev.capOrder (bits v.toNat 0 10) 0 ((tlp m s.dev).setWord 0x1104 ((tlp m s.dev).newWord true 1 0x104 v.toNat)) })

/-- R573: a cap below 380 W in ACTIVE or IDLE raises CAP_UNREACHABLE: CAP_STATUS reads its status, full throttling, arrays held. Said with
NARROW_EN = 0, so that no link is asked to narrow. -/
def Said.CapUnreachable : Prop :=
  ∀ (w src : Nat) (d : Dev), d.pwr.thermal = false → d.braked = false → d.awake = true → w < 380 → d.rd F.PWR_CFG_NARROW_EN = 0 →
    d.rd F.PWR_STAT_CAP_STATUS = 0 ∨ d.rd F.PWR_STAT_CAP_STATUS = sCapUnreachable →
    (d.capOrder w src).rd F.PWR_STAT_CAP_STATUS = sCapUnreachable ∧ (d.capOrder w src).rd F.PWR_STAT_THROTTLE = 7 ∧
    (d.capOrder w src).pwr.arraysHeld = true ∧ (d.capOrder w src).rd F.PWR_STAT_CAP_EFF = w ∧
    (d.rd F.PWR_STAT_CAP_STATUS = 0 → bit ((d.capOrder w src).word 0x1014) 1 = true)

/-- The order in which the power cap throttles, and what an unreachable cap does. -/
def Obligations.PowerCap : Prop := Said.CapOrders ∧ Said.CapUnreachable

/-- R571, R574, R575: the rail at its setpoint lifts throttling once the last average is within the cap; PWR_BRAKE_N low counts and
sets BRAKE, its release clears it, and what the brake held goes on; a junction reading is reported with its peak, and the second reading in a row at or above 115 °C
takes the thermal trip: ERR_FATAL, THERMTRIP_N low, transmitters idle, the core held. -/
def Said.SetpointBrakeAndThermal : Prop :=
  ∀ (s : State), s.dev.glb.off = false →
    (∃ t, exec .vsetReached s = .next t ∧ t.store = s.store ∧ t.dev.glb.vddMv = 750 - 50 * s.dev.rd F.PWR_STAT_VSET ∧
      (s.dev.rd F.PWR_AVG_AVG_W ≤ s.dev.rd F.PWR_STAT_CAP_EFF → s.dev.rd F.PWR_STAT_CAP_STATUS = 0 →
        t.dev.rd F.PWR_STAT_THROTTLE = 0) ∧
      (s.dev.rd F.PWR_STAT_CAP_EFF < s.dev.rd F.PWR_AVG_AVG_W → t.dev.rd F.PWR_STAT_THROTTLE = s.dev.rd F.PWR_STAT_THROTTLE)) ∧
    (s.dev.rd F.PWR_STAT_BRAKE = 0 → exec .brakeAssert s = .next { s with dev := (s.dev.wr F.PWR_STAT_BRAKE 1).count 1 2 1 } ∧
      ((s.dev.wr F.PWR_STAT_BRAKE 1).count 1 2 1).braked = true) ∧
    (s.dev.running = true → exec .brakeRelease s = .next (withPkg s (Pkg.brakeOver (s.store, s.dev)))) ∧
    (s.dev.pwr.pendingOrder = false → s.dev.running = false ∨ (quiet s.dev ∧ s.dev.src.held = [] ∧ s.dev.fry.colls = []) →
      exec .brakeRelease s = .next { s with dev := s.dev.wr F.PWR_STAT_BRAKE 0 }) ∧
    (∀ tj, s.dev.glb.thermtrip = false → ∃ t, exec (.thermalReading tj) s = .next t ∧ t.store = s.store ∧
      (115 ≤ tj → s.dev.pwr.hot = 1 → t.dev.rd F.PWR_TEMP_TJ = min tj 255 ∧
        t.dev.rd F.PWR_TEMP_TJ_PEAK = max (s.dev.rd F.PWR_TEMP_TJ_PEAK) (min tj 255) ∧ t.dev.rd F.ERR_FATAL_THERMAL_TRIP = 1 ∧
        t.dev.glb.thermtrip = true ∧ t.dev.glb.transmitters = false ∧ t.dev.running = false ∧
        Emit.pin "THERMTRIP_N" 0 ∈ t.dev.out) ∧
      (tj < 115 → tj < s.dev.rd F.PWR_CFG_THROTTLE_C → s.dev.pwr.thermal = false →
        t.dev.rd F.PWR_TEMP_TJ = min tj 255 ∧ t.dev.pwr = { s.dev.pwr with hot := 0 } ∧ t.dev.glb = s.dev.glb))

/-- R576, R577: at the end of a telemetry window AVG_W is its average and PEAK_W the highest since PEAK_CLR; a write of 1 to PEAK_CLR
by the owner sets PEAK_W to 0; a read of PWR_ENERGY_LO latches both halves of a count that never falls. -/
def Said.Telemetry : Prop :=
  (∀ (w : Nat) (s : State), s.dev.glb.off = false → s.dev.domOn 29 = true → 950 ≤ s.dev.capInForce →
    s.dev.pwr.windowAt < s.dev.ns / (s.dev.rd F.PWR_CFG_AVG_100US * 100000) →
    ∃ t, exec (.telemetryWindowEnd w) s = .next t ∧ t.store = s.store ∧ t.dev.rd F.PWR_AVG_AVG_W = min w 2047 ∧
      t.dev.rd F.PWR_AVG_PEAK_W = max (s.dev.rd F.PWR_AVG_PEAK_W) (min w 2047) ∧
      (∀ a, a ≠ 0x1130 → t.dev.word a = s.dev.word a)) ∧
  (∀ (m : Master) (v : W32) (s : State), pageOpen s.dev m 1 → s.dev.owns m 1 = true →
    ∃ t, exec (.peakClr m v) s = .next t ∧ t.store = s.store ∧ t.dev.rd F.PWR_AVG_PEAK_W = 0 ∧
      t.dev.rd F.PWR_AVG_AVG_W = s.dev.rd F.PWR_AVG_AVG_W) ∧
  (∀ (m : Master) (mj : Nat) (s : State), s.dev.glb.off = false → mj < 2 ^ 64 → s.dev.pwr.mj < 2 ^ 64 →
    ∃ t, exec (.pwrEnergyLoRead m mj) s = .next t ∧ t.store = s.store ∧ t.dev.pwr.mj = max s.dev.pwr.mj mj ∧
      t.dev.rd F.PWR_ENERGY_LO_MJ_LO = t.dev.pwr.mj % 2 ^ 32 ∧ t.dev.rd F.PWR_ENERGY_HI_MJ_HI = t.dev.pwr.mj / 2 ^ 32 ∧
      t.dev.out = s.dev.out ++ [.regData m 0 (natLE 4 (t.dev.pwr.mj % 2 ^ 32))])

/-- Setpoints, the brake, the thermal limits and the telemetry. -/
def Obligations.PowerAndHeat : Prop := Said.SetpointBrakeAndThermal ∧ Said.Telemetry

/-- R50, R556–R558: PWR_DOM_REQ takes the value its owner writes (none of the near groups loses its bit here); a domain whose condition
holds turns on in ACTIVE and IDLE, and what waited for it then goes on; one whose condition no longer holds turns off once none of its
blocks has work in hand, and a near bank group then loses its contents, read from then on as free bytes. -/
def Obligations.PowerDomains : Prop :=
  (∀ (m : Master) (v : W32) (s : State), pageOpen s.dev m 1 → s.dev.owns m 1 = true →
    bit v.toNat 21 = true → bit v.toNat 22 = true → bit v.toNat 23 = true →
    ∃ t, exec (.pwrDomReqWrite m v) s = .next t ∧ t.store = s.store ∧ t.dev.rd F.PWR_DOM_REQ_REQ = bits v.toNat 0 30 ∧
      (∀ a, a ≠ 0x1128 → t.dev.word a = s.dev.word a)) ∧
  (∀ (i : Fin 30) (s : State), s.dev.running = true → s.dev.awake = true → ¬(12 ≤ i.val ∧ i.val < 20) →
    bit (s.dev.rd F.PWR_DOM_STAT_ON) i.val = false → s.dev.domCond i.val = true →
    ∃ d, d.domOn i.val = true ∧ (∀ j, j ≠ i.val → d.domOn j = s.dev.domOn j) ∧
      exec (.domainOn i) s = .next (withPkg s (if d.domOn 11 then Pkg.released (s.store, d) else (s.store, d)))) ∧
  (∀ (s : State), s.dev.running = true → s.dev.awake = true → s.dev.domOn 29 = true → s.dev.domCond 29 = false →
    (domainPages 29).any s.dev.workInHand = false →
    ∃ t, exec (.domainOff 29) s = .next t ∧ t.store = s.store ∧ t.dev.domOn 29 = false ∧ (∀ j, j ≠ 29 → t.dev.domOn j = s.dev.domOn j)) ∧
  (∀ (i : Fin 30) (s : State), 20 ≤ i.val ∧ i.val < 24 → s.dev.running = true → s.dev.awake = true → s.dev.domOn i.val = true →
    s.dev.domCond i.val = false → (domainPages i.val).any s.dev.workInHand = false → s.dev.spillFits i.val = true →
    ∃ t, exec (.domainOff i) s = .next t ∧ t.dev.domOn i.val = false ∧
      t.store = s.store.lose (metaLine0 + (i.val - 20) * 0xA00000) (metaLine0 + (i.val - 19) * 0xA00000) (Config.freeNat s.dev.freeCtr))

/-- R561, R562, R566: PWR_CMD. IDLE asks for every array pair to turn off, DONE. MOOR by the host, which owns the page, in ACTIVE or IDLE
begins entry step E1, DONE. WAKE over the sideband in MOORED starts the exit and writes the last-wake record, in ACTIVE it returns
NO_CHANGE. -/
def Said.PowerCommands : Prop :=
  (∀ (m : Master) (v : W32) (s : State), pageOpen s.dev m 1 → s.dev.owns m 1 = true → s.dev.awake = true →
    ∃ t, exec (.idle m v) s = .next t ∧ t.store = s.store ∧ t.dev.pwr = { s.dev.pwr with idleReq := 0xFF } ∧
      t.dev.rd F.PWR_CMD_RESULT_RESULT = rDone) ∧
  (∀ (v : W32) (s : State), pageOpen s.dev .host 1 → s.dev.owns .host 1 = true → s.dev.awake = true →
    (s.dev.rd F.BULK_CFG_INTERLEAVE = 0 → s.dev.rd F.PWR_RETAIN_DEV = 0 ∨ s.dev.rd F.PWR_RETAIN_DEV = 0xFFF) →
    ∃ t, exec (.moor .host v) s = .next t ∧ t.store = s.store ∧ t.dev.rd F.PWR_STAT_STATE = 2 ∧ t.dev.pwr.step = .e1 ∧
      t.dev.pwr.stepAt = s.dev.tim.tide ∧ t.dev.rd F.PWR_CMD_RESULT_RESULT = rDone) ∧
  (∀ (v : W32) (s : State), pageOpen s.dev .mgmt 1 →
    (s.dev.pwrState = 3 → ∃ t, exec (.wake .mgmt v) s = .next t ∧ t.store = s.store ∧ t.dev.rd F.PWR_STAT_STATE = 4 ∧
      t.dev.rd F.PWR_CMD_RESULT_RESULT = rDone ∧ (s.dev.pwr.wakeOpen = true → t.dev.rd F.PWR_WAKE_SRC_SOURCE = 3)) ∧
    (s.dev.awake = true → ∃ t, exec (.wake .mgmt v) s = .next t ∧ t.store = s.store ∧ t.dev.pwr = s.dev.pwr ∧
      t.dev.rd F.PWR_CMD_RESULT_RESULT = rNoChange))

/-- R566: a wake source that PWR_WAKE_EN enables is seen: in MOORED it writes the last-wake record (its source, port and lane) and the
package starts to wake; in entry steps E1 to E4 it marks the entry for abortion. Said of a tone on an armed port and of the host. -/
def Said.WakeSources : Prop :=
  (∀ (p l : Nat) (s : State), s.dev.glb.off = false → s.dev.rd F.PWR_WAKE_EN_LANE = 1 → p < 28 → l < 16 → bit s.dev.pwr.armed p = true →
    (s.dev.pwrState = 3 → s.dev.pwr.wakeOpen = true → ∃ t, exec (.wakeSource (.lane p l)) s = .next t ∧ t.store = s.store ∧
      t.dev.rd F.PWR_STAT_STATE = 4 ∧ t.dev.rd F.PWR_WAKE_SRC_SOURCE = 1 ∧ t.dev.rd F.PWR_WAKE_SRC_PORT = p ∧
      t.dev.rd F.PWR_WAKE_SRC_LANE = l ∧ t.dev.rd F.PWR_WAKE_SRC_DURING_ENTRY = 0 ∧ t.dev.pwr.wakeOpen = false) ∧
    (s.dev.pwrState = 2 → s.dev.pwr.step ≠ .e5 → ∃ t, exec (.wakeSource (.lane p l)) s = .next t ∧ t.store = s.store ∧
      t.dev.pwr.abort = true ∧ t.dev.rd F.PWR_STAT_STATE = 2)) ∧
  (∀ (s : State), s.dev.glb.off = false → s.dev.rd F.PWR_WAKE_EN_PCIE = 1 → s.dev.pwrState = 3 → s.dev.pwr.wakeOpen = true →
    ∃ t, exec (.wakeSource .pcie) s = .next t ∧ t.store = s.store ∧ t.dev.rd F.PWR_STAT_STATE = 4 ∧
      t.dev.rd F.PWR_WAKE_SRC_SOURCE = 2 ∧ t.dev.rd F.PWR_WAKE_SRC_PORT = 28)

/-- The power commands and the wake sources. -/
def Obligations.WakeAndPowerCommands : Prop := Said.PowerCommands ∧ Said.WakeSources

/-- R563, R565: the entry into MOORED step by step. E1 ends when everything has drained; E2 saves the configuration store; E3 takes
the links down and arms them for wake; E4 ends as it stands; E5 leaves the package MOORED with every domain but AON off, and no byte
of memory is written by any step but E5. -/
def Said.MoorEntry : Prop :=
  ∀ (s : State), s.dev.running = true → s.dev.pwrState = 2 → s.dev.pwr.abort = false →
    (s.dev.pwr.step = .e1 → s.dev.drained = true → s.dev.tim.tide < s.dev.pwr.stepAt + us 10000 →
      exec .moorQuiesced s = .next { s with dev := { s.dev with pwr := { s.dev.pwr with step := .e2, stepAt := s.dev.tim.tide } } }) ∧
    (s.dev.pwr.step = .e2 → s.dev.voqsEmpty = true → ∃ t, exec .moorStepComplete s = .next t ∧ t.store = s.store ∧
      t.dev.pwr.step = .e3 ∧ t.dev.pwr.savedProt = s.dev.home.prot ∧ t.dev.pwr.savedBanks = (s.dev.rte.bankA, s.dev.rte.bankB) ∧
      t.dev.regs = s.dev.regs) ∧
    (s.dev.pwr.step = .e3 → (∀ p < 28, s.dev.linkState p = 0) → ∃ t, exec .moorStepComplete s = .next t ∧ t.store = s.store ∧
      t.dev.pwr.step = .e4 ∧ t.dev.glb.pcieIdle = true ∧ (∀ p < 28, bit t.dev.pwr.armed p = s.dev.linkEnabled p)) ∧
    (s.dev.pwr.step = .e4 → exec .moorStepComplete s =
      .next { s with dev := { s.dev with pwr := { s.dev.pwr with step := .e5, stepAt := s.dev.tim.tide } } }) ∧
    (s.dev.pwr.step = .e5 → ∃ t, exec .moorStepComplete s = .next t ∧
      t.dev.rd F.PWR_STAT_STATE = (if s.dev.pwr.wakeAtE5.isSome then 4 else 3) ∧
      (∀ i, i < 30 → t.dev.domOn i = decide (i = 26)) ∧ t.dev.home.ext = s.dev.home.ext)

/-- R560, R565, R567: an entry whose step E1 takes 10 ms is undone with STATUS TIMEOUT, the package ACTIVE again; the exit from MOORED
restores the configuration store and leaves the package ACTIVE in slipway stage JOINING. What waited then goes on. Said while no order
waits. -/
def Said.MoorUndoneAndExit : Prop :=
  (∀ (s : State), s.dev.running = true → s.dev.pwrState = 2 → s.dev.pwr.step = .e1 → s.dev.glb.pcieIdle = false →
    s.dev.pwr.stepAt + us 10000 ≤ s.dev.tim.tide → s.dev.pwr.pendingOrder = false →
    ∃ d, d.rd F.PWR_STAT_STATE = 0 ∧ d.rd F.PWR_CMD_RESULT_STATUS = sTimeout ∧ d.pwr.step = .none ∧
      exec .moorEntryTimeout s = .next (withPkg s (Pkg.released (s.store, d)))) ∧
  (∀ (s : State), s.dev.running = true → s.dev.pwrState = 4 → s.dev.pwr.pendingOrder = false →
    ∃ d, d.pwr.step = .none ∧ d.home.prot = s.dev.pwr.savedProt ∧ d.rte.bankA = s.dev.pwr.savedBanks.1 ∧
      d.rte.bankB = s.dev.pwr.savedBanks.2 ∧ d.rd F.PWR_STAT_STATE = 0 ∧ d.rd F.RCV_SLIPWAY_STAGE = 0 ∧
      exec .moorExitComplete s = .next (withPkg s (Pkg.released (s.store, d))))

/-- Entry into MOORED, an entry undone, and the exit. -/
def Obligations.Moored : Prop := Said.MoorEntry ∧ Said.MoorUndoneAndExit

/-! ### Tide time (R540–R555, R614) -/

/-- Log entry 3: on an empty queue the 25 MHz oscillator of R595 ticks once: tide time grows by 40 ns, scaled by TIME_RATE in 10⁻⁹ with
the remainder kept (R540, R546), unless the package is off or the counter is held; nothing else changes while no link owes a grant, no
landing has a frame or a TIME message for its accelerator and nothing waits in the package. A link that is UP and owes grants, and has no
frame that can go, returns them in a DATA flit of pad slots (R449). That these happen then is the model's choice. -/
def Obligations.IdleTick : Prop :=
  ∀ (s : State), s.pending = [] →
    (s.dev.running = true → (∀ n < 4, (s.dev.lndOf n).outQ = [] ∧ s.dev.timeDue n = none) ∧
      (s.dev.domOn 11 = true → s.dev.homeIdle = true ∧ quiet s.dev)) →
    ((∀ p < 28, (s.dev.link p).owed = []) →
      (s.dev.glb.off = true ∨ s.dev.tim.holdFor.isSome = true → step s = .next s) ∧
      (s.dev.glb.off = false → s.dev.tim.holdFor = none → ∃ t, step s = .next t ∧ t.store = s.store ∧ t.pending = [] ∧
        t.dev.regs = s.dev.regs ∧ t.dev.out = s.dev.out ∧ 0 ≤ t.dev.tim.rem ∧ t.dev.tim.rem < 1000000000 ∧
        (s.dev.rd F.TIME_RATE_RATE = 0 → s.dev.tim.rem = 0 → s.dev.tim.tide + 10240 < 2 ^ 72 →
          t.dev.tim.tide = s.dev.tim.tide + 10240 ∧ t.dev.tim.rem = 0))) ∧
    (∀ p < 28, s.dev.running = true → shaped s.dev → s.dev.linkState p = 5 → (s.dev.link p).owed ≠ [] → (s.dev.link p).room = true →
      (s.dev.link p).lctlWait = [] → (∀ c < 4, s.dev.classReady p c = false) → (∀ q < 28, q ≠ p → (s.dev.link q).owed = []) →
      ∃ t f, step s = .next t ∧ t.store = s.store ∧ f.kind = 0 ∧ f.slots = [] ∧ f.seq = ((s.dev.link p).txSeq + 1) % 4096 ∧
        f.grants = ((s.dev.link p).owed.take 2).map (fun g => (g.1 / 4, g.1 % 4, min g.2 255)) ∧
        (t.dev.link p).buffer = (s.dev.link p).buffer ++ [f] ∧
        t.dev.out = s.dev.out ++ [.flit p (f.bytes (s.dev.link p).rxSeq false)])

/-- R544, R546: exchanges. TIME_SYNC leaves when due in ACQUIRE, LOCKED and HOLDOVER with the time of departure; it is answered in LOCKED,
HOLDOVER and ROOT with the times of arrival and departure, and dropped in FREE and ACQUIRE. -/
def Said.TimeExchange : Prop :=
  (∀ (s : State), s.dev.running = true → 1 ≤ s.dev.timeState → s.dev.timeState ≤ 3 → s.dev.rd F.TIME_CFG_UP_EN = 1 →
    s.dev.portCarries s.dev.upstream = true → s.dev.tim.nextSync ≤ s.dev.tim.tide →
    s.dev.hasNode (s.dev.rdp F.PRT_PARTNER_NODE (0x80 + s.dev.upstream)) = true →
    ∃ t, exec .timeSyncSend s = .next t ∧ t.store = s.store ∧ t.dev.regs = s.dev.regs ∧
      t.dev.out = s.dev.out ++ [.ctrl (s.dev.rdp F.PRT_PARTNER_NODE (0x80 + s.dev.upstream)) (.timeSync s.dev.upstream s.dev.tim.tide)] ∧
      t.dev.tim = { s.dev.tim with exchange := s.dev.tim.exchange ++ [s.dev.tim.tide]
                                   nextSync := s.dev.tim.tide + us (8 * s.dev.rd F.TIME_CFG_SYNC_INTERVAL) }) ∧
  (∀ (p : Fin 24) (t1 : Nat) (s : State), s.dev.running = true → s.dev.portCarries p.val = true →
    (2 ≤ s.dev.timeState → s.dev.timeState ≤ 4 → exec (.timeSync p t1) s = .next { s with
      dev := s.dev.ctrl (s.dev.rdp F.PRT_PARTNER_NODE (0x80 + p.val)) (.timeSyncReply p.val t1 s.dev.tim.tide s.dev.tim.tide) }) ∧
    (s.dev.timeState ≤ 1 → exec (.timeSync p t1) s = .next s))

/-- R544, R545: a reply whose exchange was disturbed (a frame replayed, the link retrained or changed width since t1) is discarded and
counted; one that was not reports offset and delay of R544, halves rounded to even, and counts as accepted. -/
def Said.TimeReply : Prop :=
  ∀ (r : SyncReply) (s : State), s.dev.running = true → r.t1 ∈ s.dev.tim.exchange → 1 ≤ s.dev.timeState → s.dev.timeState ≤ 3 →
    s.dev.rdp F.BLK_CTRL_CNT_FREEZE 2 = 0 → s.dev.counter 2 0 < 2 ^ 63 → s.dev.counter 2 1 < 2 ^ 63 →
    (r.replayed = true → ∃ t, exec (.timeSyncReply r) s = .next t ∧ t.store = s.store ∧
      t.dev.counter 2 1 = s.dev.counter 2 1 + 1 ∧ t.dev.rd F.TIME_OFFSET_OFFSET = s.dev.rd F.TIME_OFFSET_OFFSET ∧
      t.dev.tim.exchange = s.dev.tim.exchange.erase r.t1) ∧
    (r.replayed = false → (nth s.dev.links s.dev.upstream {}).changedSince ≤ r.t1 →
      (nth s.dev.links s.dev.upstream {}).replayedSince ≤ r.t1 → s.dev.timeState = 2 →
      ∃ t, exec (.timeSyncReply r) s = .next t ∧ t.store = s.store ∧ t.dev.counter 2 0 = s.dev.counter 2 0 + 1 ∧
        t.dev.rd F.TIME_OFFSET_OFFSET = ofSigned 32 (halfEven (((r.t2 : Int) - r.t1) - ((r.t4 : Int) - r.t3)
          - toSigned 16 (s.dev.rdi F.TIME_ASYM_ASYM s.dev.upstream))) ∧
        t.dev.rd F.TIME_DELAY_DELAY = ofSigned 32 (halfEven (((r.t2 : Int) - r.t1) + ((r.t4 : Int) - r.t3))) ∧
        t.dev.rd F.TIME_STAT_STATE = 2 ∧
        -500000 ≤ toSigned 32 (t.dev.rd F.TIME_RATE_RATE) ∧ toSigned 32 (t.dev.rd F.TIME_RATE_RATE) ≤ 500000)

/-- R545, R546, R548: an exchange whose reply has not come within 4 SYNC_INTERVALs is discarded and counted (in LOCKED the fourth in a
row ends in HOLDOVER with a capture); the hold of a counter ends when upstream time reaches it. -/
def Said.TimeDiscards : Prop :=
  (∀ (t1 : Nat) (l : List Nat) (s : State), s.dev.glb.off = false → s.dev.tim.exchange = t1 :: l →
    t1 + us (32 * s.dev.rd F.TIME_CFG_SYNC_INTERVAL) ≤ s.dev.tim.tide → s.dev.rdp F.BLK_CTRL_CNT_FREEZE 2 = 0 →
    s.dev.counter 2 1 < 2 ^ 63 →
    ∃ t, exec .exchangeTimeout s = .next t ∧ t.store = s.store ∧ t.dev.tim.exchange = l ∧
      t.dev.counter 2 1 = s.dev.counter 2 1 + 1 ∧
      (s.dev.timeState = 2 → s.dev.tim.badRun = 3 → t.dev.timeState = 3 ∧ bit (t.dev.word 0x2014) 1 = true) ∧
      (s.dev.timeState = 2 → s.dev.tim.badRun < 3 → t.dev.timeState = 2 ∧ t.dev.tim.badRun = s.dev.tim.badRun + 1)) ∧
  (∀ (s : State), s.dev.glb.off = false →
    exec .tideHoldEnd s = .next { s with dev := { s.dev with tim := { s.dev.tim with holdFor := none } } })

/-- The exchange of time with the parent, and which exchanges are discarded. -/
def Obligations.TimeExchanges : Prop := Said.TimeExchange ∧ Said.TimeReply ∧ Said.TimeDiscards

/-- R541, R546, R548, R555: TIME_CMD and TIME_CFG by the owner of the page. SET in FREE or ROOT loads TIME_SET where it is not behind
the count, a forward step counted in STEPS; in any other state, or where it would move the count back, it returns BAD_STATE and tide
time stands. SET_AT_PPS arms. REACQUIRE takes LOCKED and HOLDOVER to ACQUIRE. Writing ROOT 1 makes the package the root. -/
def Said.TimeCommands : Prop :=
  ∀ (m : Master) (v : W32) (s : State), pageOpen s.dev m 2 → s.dev.owns m 2 = true →
    (∃ t, exec (.timeSet m v) s = .next t ∧ t.store = s.store ∧
      ((s.dev.timeState = 0 ∨ s.dev.timeState = 4) ∧ s.dev.tim.tide < s.dev.timeSetValue →
        t.dev.tim.tide = s.dev.timeSetValue ∧ t.dev.rd F.TIME_STAT_STEPPED = 1 ∧ t.dev.rd F.TIME_CMD_RESULT_RESULT = rDone) ∧
      (¬(s.dev.timeState = 0 ∨ s.dev.timeState = 4) ∨ s.dev.timeSetValue < s.dev.tim.tide →
        t.dev.tim = s.dev.tim ∧ t.dev.rd F.TIME_CMD_RESULT_RESULT = rBadState)) ∧
    ((s.dev.timeState = 0 ∨ s.dev.timeState = 4) ∧ s.dev.tim.tide ≤ s.dev.timeSetValue →
      ∃ t, exec (.timeSet m v) s = .next t ∧ t.dev.rd F.TIME_CMD_RESULT_RESULT = rDone) ∧
    (¬((s.dev.timeState = 0 ∨ s.dev.timeState = 4) ∧ s.dev.tim.tide ≤ s.dev.timeSetValue) →
      ∃ t, exec (.timeSetAtPps m v) s = .next t ∧ t.store = s.store ∧ t.dev.tim = s.dev.tim ∧
        t.dev.rd F.TIME_CMD_RESULT_RESULT = rBadState) ∧
    ((s.dev.timeState = 0 ∨ s.dev.timeState = 4) → s.dev.tim.tide ≤ s.dev.timeSetValue →
      ∃ t, exec (.timeSetAtPps m v) s = .next t ∧ t.store = s.store ∧ t.dev.tim = { s.dev.tim with ppsArmed := true } ∧
        t.dev.rd F.TIME_CMD_RESULT_RESULT = rDone) ∧
    (s.dev.timeState = 2 ∨ s.dev.timeState = 3 →
      ∃ t, exec (.reacquire m v) s = .next t ∧ t.store = s.store ∧ t.dev.timeState = 1 ∧ t.dev.tim.exchange = [] ∧
        t.dev.tim.tide = s.dev.tim.tide ∧ t.dev.rd F.TIME_CMD_RESULT_RESULT = rDone) ∧
    (s.dev.rd F.TIME_CFG_ROOT = 0 → bit v.toNat 0 = true → bits v.toNat 8 5 < 24 → 1 ≤ bits v.toNat 16 8 →
      ∃ t, exec (.timeRootWrite m v) s = .next t ∧ t.store = s.store ∧ t.dev.timeState = 4 ∧ t.dev.rd F.TIME_CFG_ROOT = 1 ∧
        t.dev.tim = s.dev.tim)

/-- R541: no command but a reset, the loss of power and a restart of the count takes tide time back: SET, the pulse and the servo only
move it forward. Said of the commands of the TIME block. -/
def Obligations.TideNeverFalls : Prop :=
  ∀ (c : Instr) (s t : State), exec c s = .next t →
    (c = .ppsInEdge ∨ c = .ppsMissed ∨ c = .ppsOutEdge ∨ c = .timeSyncSend ∨ c = .exchangeTimeout ∨ c = .tideHoldEnd ∨
      (∃ p t1, c = .timeSync p t1) ∨ (∃ r, c = .timeSyncReply r) ∨ (∃ m v, c = .timeSet m v) ∨
      (∃ m v, c = .timeSetAtPps m v) ∨ (∃ m v, c = .reacquire m v) ∨ (∃ m v, c = .timeRootWrite m v) ∨ (∃ m, c = .timeNowLoRead m)) →
    s.dev.tim.tide ≤ t.dev.tim.tide

/-- R542, R550, R551, R614: an edge of TIME_PPS_IN on the root with PPS_IN_EN is captured and loads TIME_SET where armed; an edge that
does not come within 1.5 s counts PPS_MISSED; TIME_PPS_OUT rises at a whole second and falls after 1 ms; a read of TIME_NOW_LO latches
the whole count; the heartbeat counts each whole millisecond while firmware runs. -/
def Said.PulsesAndLatch : Prop :=
  ∀ (s : State), s.dev.glb.off = false →
    (s.dev.timeState = 4 → s.dev.rd F.TIME_CFG_PPS_IN_EN = 1 → s.dev.tim.ppsArmed = false → s.dev.ns < 2 ^ 64 →
      ∃ t, exec .ppsInEdge s = .next t ∧ t.store = s.store ∧ t.dev.tim = { s.dev.tim with ppsLast := some s.dev.tim.tide } ∧
        t.dev.rd F.TIME_PPS_CAP_LO_NS_LO + t.dev.rd F.TIME_PPS_CAP_HI_NS_HI * 2 ^ 32 = s.dev.ns ∧
        t.dev.rd F.TIME_PPS_CAP_FRAC_FRAC = s.dev.tim.tide % 256) ∧
    (∀ t0, s.dev.timeState = 4 → s.dev.rd F.TIME_CFG_PPS_IN_EN = 1 → s.dev.tim.ppsLast = some t0 →
      t0 + us 1500000 ≤ s.dev.tim.tide → ∃ t, exec .ppsMissed s = .next t ∧ t.store = s.store ∧ t.dev.tim.ppsLast = none ∧
        bit (t.dev.word 0x2014) 2 = true) ∧
    (s.dev.tim.ppsHigh = 0 → s.dev.rd F.TIME_CFG_PPS_OUT_EN = 1 → s.dev.tim.lastPpsOut < s.dev.ns / 1000000000 →
      ∃ t, exec .ppsOutEdge s = .next t ∧ t.store = s.store ∧ t.dev.out = s.dev.out ++ [.pin "TIME_PPS_OUT" 1] ∧
        t.dev.regs = s.dev.regs ∧ t.dev.tim.lastPpsOut = s.dev.ns / 1000000000) ∧
    (0 < s.dev.tim.ppsHigh → s.dev.tim.ppsHigh - 1 + us 1000 ≤ s.dev.tim.tide →
      ∃ t, exec .ppsOutEdge s = .next t ∧ t.store = s.store ∧ t.dev.out = s.dev.out ++ [.pin "TIME_PPS_OUT" 0] ∧
        t.dev.tim.ppsHigh = 0) ∧
    (∀ m, s.dev.ns < 2 ^ 64 → ∃ t, exec (.timeNowLoRead m) s = .next t ∧ t.store = s.store ∧
      t.dev.out = s.dev.out ++ [.regData m 0 (natLE 4 (s.dev.ns % 2 ^ 32))] ∧
      t.dev.rd F.TIME_NOW_LO_NS_LO + t.dev.rd F.TIME_NOW_HI_NS_HI * 2 ^ 32 = s.dev.ns ∧
      t.dev.rd F.TIME_NOW_FRAC_FRAC = s.dev.tim.tide % 256 ∧ t.dev.tim = s.dev.tim) ∧
    (1 < s.dev.rd F.GLB_BOOT_STAT_STAGE → s.dev.tim.lastBeat < s.dev.ns / 1000000 →
      ∃ t, exec .mgmtHeartbeat s = .next t ∧ t.store = s.store ∧
        t.dev.rd F.MGMT_HEARTBEAT_COUNT = (s.dev.rd F.MGMT_HEARTBEAT_COUNT + 1) % 2 ^ 32 ∧
        t.dev.tim.lastBeat = s.dev.ns / 1000000)

/-- The time commands, the pulse inputs and the latch. -/
def Obligations.TimeCommandsAndPulses : Prop := Said.TimeCommands ∧ Said.PulsesAndLatch

/-! ### Reset, start-up and join (R483, R530, R531, R583–R594) -/

/-- R583, R7: the state a release of RESET_N leaves: every register but the pins' levels and what the fuses, straps and slot fix reads its
reset value, tide time is 0, the key slots are empty, no command waits on it, and the package starts at stage REPAIR. Metadata keys are
drawn anew (R186). A core that CORE_UV holds stays held unless the rail is back in range (R49). -/
def Said.ResetClears : Prop :=
  (∀ (tray slot : Nat) (s : State), s.dev.glb.off = true → s.dev.glb.hold = .coreUv → s.dev.glb.vddMv < 600 →
    ∃ t, exec (.resetNRelease tray slot) s = .next t ∧ t.store = s.store ∧ t.dev.glb.off = false ∧ t.dev.glb.hold = .coreUv ∧
      t.dev.running = false ∧ t.dev.glb.transmitters = false) ∧
  ∀ (s : State), s.dev.glb.hold ≠ .eoff → ¬(s.dev.glb.vddAon = true ∧ s.dev.glb.hold = .coreUv ∧ s.dev.glb.vddMv < 600) →
    ∃ t, exec .resetNAssert s = .next t ∧ t.store = s.store ∧ t.dev.glb.off = true ∧ t.dev.running = false ∧
      t.dev.out = s.dev.out ++ [.pin "TX_HIGHZ" 1] ∧
      (∀ tray slot, tray < 64 → slot < 2 → ∃ u, exec (.resetNRelease tray slot) t = .next u ∧ u.store = s.store ∧
        u.dev.running = true ∧ u.dev.tim = {} ∧ u.dev.cnts = [] ∧ u.dev.home = {} ∧ u.dev.rte = {} ∧
        u.dev.sec = { metaGen := s.dev.sec.metaGen + 1 } ∧
        u.dev.rd F.GLB_STRAP_TRAY = tray ∧ u.dev.rd F.GLB_STRAP_SLOT = slot ∧ u.dev.rd F.MGMT_SMB_ADDR = 0x60 + slot ∧
        u.dev.rd F.GLB_BOOT_STAT_STAGE = 0 ∧ u.dev.rd F.BLK_STAT_BLOCK = b2n (decide (s.dev.glb.vddMv < 600)) ∧
        (∀ a, (600 ≤ s.dev.glb.vddMv ∨ a ≠ 0x10) → a ≠ 0x100 → a ≠ 0x114 → a ≠ 0x1108 → a ≠ 0x4108 → a ≠ F.SEC_SVN_FLOOR_FLOOR.addr 3 0 → a ≠ F.SEC_SVN_FLOOR_REVOKED.addr 3 0 →
          u.dev.word a = (resetWord a).toNat))

/-- R560: loss of VDD_AON leaves nothing: memory unwritten, every register at reset. R593: EOFF_N low for 50 ns or more holds the package
with its transmitters idle and ERR_FATAL.EOFF set, and RESET_N does not release it; a shorter pulse changes nothing. R594: the fall of
PWRFAIL_N sets PWRFAIL_SEEN and GLB BLK_ISR bit 0 and changes nothing else but the error record. -/
def Said.PowerPins : Prop :=
  (∀ (s : State), ∃ t, exec .vddAonLoss s = .next t ∧ t.store = {} ∧ t.dev.glb.off = true ∧ t.dev.glb.vddAon = false ∧
    t.dev.sec.active = none ∧ t.dev.tim = {}) ∧
  (∀ (ns : Nat) (s : State), s.dev.glb.vddAon = true → s.dev.glb.hold ≠ .eoff →
    (ns < 50 → exec (.eoffN ns) s = .next s) ∧
    (50 ≤ ns → ∃ t, exec (.eoffN ns) s = .next t ∧ t.store = s.store ∧ t.dev.glb.hold = .eoff ∧ t.dev.running = false ∧
      t.dev.rd F.ERR_FATAL_EOFF = 1 ∧ t.dev.out = s.dev.out ++ [.pin "TX_IDLE" 1] ∧ exec .resetNAssert t = .next t)) ∧
  (∀ (s : State), s.dev.glb.off = false → s.dev.rd F.GLB_PIN_STAT_PWRFAIL = 0 →
    ∃ t, exec (.pwrfailN true) s = .next t ∧ t.store = s.store ∧ t.dev.rd F.GLB_PIN_STAT_PWRFAIL_SEEN = 1 ∧
      bit (t.dev.word 0x14) 0 = true ∧ t.dev.glb = s.dev.glb ∧ t.dev.home = s.dev.home ∧ t.dev.links = s.dev.links ∧
      exec (.pwrfailN false) t = .next { t with dev := t.dev.wr F.GLB_PIN_STAT_PWRFAIL 0 })

/-- Reset, loss of the always-on rail, and the power pins. -/
def Obligations.ResetAndPins : Prop := Said.ResetClears ∧ Said.PowerPins

/-- R584, R587: PERST_N resets the host port only, once; its release starts link training; a configuration request is answered with
Request Retry Status (2) until the stage reaches MEMTRAIN and completes (0) after. -/
def Obligations.HostReset : Prop :=
  ∀ (s : State), s.dev.glb.off = false →
    (s.dev.rd F.GLB_PIN_STAT_PERST = 0 → ∃ t, exec .perstNAssert s = .next t ∧ t.store = s.store ∧ t.dev.rd F.GLB_PIN_STAT_PERST = 1 ∧
      t.dev.host.ops = [] ∧ t.dev.out = s.dev.out ++ [.pin "PCIE_TX_IDLE" 1] ∧ t.dev.home = s.dev.home ∧ t.dev.lnd = s.dev.lnd ∧
      t.dev.src = s.dev.src ∧ (∀ a, a / 0x1000 ≠ 0x18 → a ≠ 0x114 → t.dev.word a = s.dev.word a)) ∧
    (s.dev.rd F.GLB_PIN_STAT_PERST = 1 → ∃ t, exec .perstNRelease s = .next t ∧ t.store = s.store ∧
      t.dev.rd F.GLB_PIN_STAT_PERST = 0 ∧ t.dev.glb.pcieTraining = decide (s.dev.glb.hold = .none) ∧ t.dev.out = s.dev.out) ∧
    (∀ q, s.dev.running = true → s.dev.rd F.GLB_PIN_STAT_PERST = 0 → s.dev.pageOn 0x18 = true →
      ∃ t, exec (.configurationRequest q) s = .next t ∧ t.store = s.store ∧ t.dev.regs = s.dev.regs ∧
        (s.dev.rd F.GLB_BOOT_STAT_STAGE < 2 → t.dev.out = s.dev.out ++ [.cpl q.id 2 []] ∧ t.dev.host = s.dev.host) ∧
        (2 ≤ s.dev.rd F.GLB_BOOT_STAT_STAGE → ∃ b, t.dev.out = s.dev.out ++ [.cpl q.id 0 b] ∧
          (q.write = none → t.dev.host = s.dev.host ∧ (q.reg = .identity → b = natLE 2 Config.vendorId.toNat ++ natLE 2 0xD128) ∧
            (q.reg = .msix → b = natLE 2 2047)) ∧
          (∀ v, q.write = some v → q.reg = .power → v.toNat % 4 = 3 → t.dev.host = { s.dev.host with d3hot := true })))

/-- R530, R531, R533, R586, R588: start-up. The stages run in order; MEMINIT leaves every line of memory zero; an image that verifies runs,
the primary first; the ROM first derives the alias key from the identity key and the image, and locks the identity key until the next reset;
with neither image nothing goes on; a stage that fails reads FAILED and stops the package. READY is stage 4. -/
def Said.StartUp : Prop :=
  ∀ (s : State), s.dev.running = true →
    (s.dev.rd F.GLB_BOOT_STAT_STAGE = 0 → exec (.bootStageComplete .done) s = .next { s with dev := s.dev.wr F.GLB_BOOT_STAT_STAGE 1 }) ∧
    (∀ p q, s.dev.rd F.GLB_BOOT_STAT_STAGE = 1 → ∃ t, exec (.bootStageComplete (.images p q)) s = .next t ∧ t.store = s.store ∧
      (s.dev.imageOk p = true → t.dev.rd F.GLB_BOOT_STAT_STAGE = 2 ∧ t.dev.rd F.SEC_BOOT_STAT_IMAGE = 1) ∧
      (s.dev.imageOk p = false → s.dev.imageOk q = true → t.dev.rd F.GLB_BOOT_STAT_STAGE = 2 ∧ t.dev.rd F.SEC_BOOT_STAT_IMAGE = 2) ∧
      (s.dev.imageOk p = false → s.dev.imageOk q = false → t.dev.running = false ∧ t.dev.rd F.SEC_BOOT_STAT_IMAGE = 3 ∧
        t.dev.rd F.GLB_BOOT_STAT_STAGE = 1)) ∧
    (s.dev.rd F.GLB_BOOT_STAT_STAGE = 2 → exec (.bootStageComplete .done) s = .next { s with dev := s.dev.wr F.GLB_BOOT_STAT_STAGE 3 }) ∧
    (s.dev.rd F.GLB_BOOT_STAT_STAGE = 3 → ∃ t, exec (.bootStageComplete .done) s = .next t ∧ t.store = {} ∧
      t.dev.rd F.GLB_BOOT_STAT_STAGE = 4 ∧ t.dev.rd F.GLB_BOOT_STAT_READY_MS = s.dev.ns / 1000000 % 2 ^ 16) ∧
    (∀ g b, s.dev.rd F.GLB_BOOT_STAT_STAGE = 0 → s.dev.glb.hold = .none →
      ∃ t, exec (.bootStageComplete (.repairFailed g b)) s = .next t ∧ t.store = s.store ∧
        t.dev.rd F.GLB_BOOT_STAT_STAGE = 7 ∧ t.dev.running = false) ∧
    (∀ p q, s.dev.rd F.GLB_BOOT_STAT_STAGE = 1 → s.dev.imageOk p = true ∨ s.dev.imageOk q = true →
      ∃ t, exec (.bootStageComplete (.images p q)) s = .next t ∧ t.dev.identityKey = none ∧
        let i := if s.dev.imageOk p = true then p else q
        t.dev.sec.imageDigest = i.digest ∧ t.dev.sec.aliasKey = (if s.dev.sec.identityLocked then s.dev.sec.aliasKey
          else some (Config.aliasKey (Config.identityKey Config.deviceSecret) i.digest i.svn)))

/-- R482, R483: a FATAL error is recorded in ERR_FATAL and makes the package fail-stop: transmitters idle, the core held. -/
def Said.FatalFailStops : Prop :=
  ∀ (p code : Nat) (s : State), s.dev.running = true → p < 256 → code < 256 → ∃ t, exec (.fatalError p code) s = .next t ∧ t.store = s.store ∧
    t.dev.glb.hold = .failStop ∧ t.dev.glb.transmitters = false ∧ t.dev.rd F.ERR_FATAL_INTERNAL = 1 ∧
    t.dev.rd F.ERR_FATAL_PAGE = p ∧ t.dev.rd F.ERR_FATAL_CODE = code ∧ t.dev.home = s.dev.home

/-- The start-up stages and the fail-stop. -/
def Obligations.StartUpAndFailStop : Prop := Said.StartUp ∧ Said.FatalFailStops

/-- R590, R591, R592: a join in order, at READY and in stage JOINING, sets the node's place and the domain's shape, starts every manifest
counter and source window afresh and fixes BUFMODE; the same values again return NO_CHANGE, other values BAD_STATE. TRAINED_REACHED takes
JOINING to TRAINED once the join is accepted, a fabric port is UP and time is LOCKED or ROOT. -/
def Obligations.DomainJoin : Prop :=
  (∀ (d : Dev), d.glb.join = none → d.stage = 0 → d.booted = true → d.joinOk d.joinVals = true → (∀ p < 24, d.linkState p ≠ 5) →
    d.joinCmd.glb.join = some d.joinVals ∧ d.joinCmd.src.mani = [] ∧ d.joinCmd.src.win = [] ∧
    d.joinCmd.src.winInit = d.rd F.CNG_WIN_MAX * 1024 ∧ d.joinCmd.rd F.GLB_JOIN_STAT_RESULT = rDone ∧
    d.joinCmd.rd F.GLB_JOIN_STAT_JOINED = 1 ∧ d.joinCmd.node = d.rd F.GLB_JOIN_NODE) ∧
  (∀ (d : Dev) (j : JoinVals), d.glb.join = some j →
    (d.joinVals = j → d.joinCmd = d.wr F.GLB_JOIN_STAT_RESULT rNoChange) ∧
    (d.joinVals ≠ j → d.joinCmd = d.wr F.GLB_JOIN_STAT_RESULT rBadState)) ∧
  (∀ (m : Master) (v : W32) (s : State), pageOpen s.dev m 0 → s.dev.owns m 0 = true →
    exec (.join m v) s = .next (withPkg s (Pkg.settle (s.store,
      ((tlp m s.dev).setWord 0x10C ((tlp m s.dev).newWord true 0 0x10C (putBit v.toNat 31 true))).joinCmd)))) ∧
  (∀ (s : State), s.dev.running = true → s.dev.stage = 0 → s.dev.glb.join.isSome = true →
    (∃ p < 24, s.dev.linkState p = 5) → s.dev.timeState = 2 ∨ s.dev.timeState = 4 →
    exec .trainedReached s = .next { s with dev := s.dev.wr F.RCV_SLIPWAY_STAGE 1 })

/-! ### Landings (R141–R147, R156, R157, R462–R473) -/

/-- R43, R462, R467, R521, R465, R79, R105: what a landing turns away, for each of its requests, whose frame is the first in the receive
crossing of its link. A TAG in use is counted and captured and the request dropped, its frame's slots returned; without an open tenancy it
is answered TENANT_RETIRED; a size or alignment out of order RIGHTS, with a capture; a context that does not serve the landing FAULT, with a
fault record of cause NO_CONTEXT (said where a quiesced FLT block leaves it at the boundary), and a page without the permission FAULT. The
data of such an answer are bytes that no rule gives, as many as the operation's response has (R464). R604: a landing that takes no
requests leaves them waiting at its boundary, under a number of their own. -/
def Obligations.LandingRefusals : Prop :=
  (∀ e ∈ landingRows, ∀ (q : LReq) (s : State), s.dev.running = true → s.dev.domOn 11 = true → quiet s.dev → shaped s.dev →
    offered e.1 (e.2.1 q) s → opDataLen e.1 q.o ≤ 240 →
    s.dev.lndOpen q.n.val = false → (s.dev.lndOf q.n.val).tags.contains q.tag = false →
    ∃ t w, exec (e.2.2 q) s = .next t ∧ t.store = s.store ∧ t.dev.src = { s.dev.src with nextId := s.dev.src.nextId + 1 } ∧
      t.dev.regs = s.dev.regs ∧ t.dev.out = s.dev.out ∧
      (t.dev.lndOf q.n.val).gate = [w] ∧ w.id = some s.dev.src.nextId ∧ w.op = e.1 ∧ w.q = e.2.1 q ∧
      (t.dev.lndOf q.n.val).tags = (s.dev.lndOf q.n.val).tags ++ [q.tag]) ∧
  ∀ e ∈ landingRows, ∀ (q : LReq) (s : State), lndUp q s → offered e.1 (e.2.1 q) s →
    ((s.dev.lndOf q.n.val).tags.contains q.tag = true → exec (e.2.2 q) s = .next { s with
      dev := ((s.dev.uncrossed q.n.val (broughtBy e.1 (e.2.1 q))).count (lndPage q.n.val) 6 1).capture (lndPage q.n.val) .request 0 0x10 0x3F
        (q.tag % 4096) }) ∧
    ((s.dev.lndOf q.n.val).tags.contains q.tag = false → opDataLen e.1 q.o ≤ 240 →
      (s.dev.tenantOpen = false → ∃ t v, v.length = rspLen e.1 q.o ∧ exec (e.2.2 q) s = .next t ∧ t.store = s.store ∧
        t.dev.src = s.dev.src ∧ t.dev.regs = s.dev.regs ∧ t.dev.out = s.dev.out ++ [.attach q.n.val e.1 q.tag sRetired v]) ∧
      (∀ code, s.dev.tenantOpen = true → sizeBroken e.1 q.o = some code → ∃ t v, v.length = rspLen e.1 q.o ∧
        exec (e.2.2 q) s = .next t ∧ t.store = s.store ∧
        t.dev.src = s.dev.src ∧ t.dev.out.getLast? = some (.attach q.n.val e.1 q.tag sRights v) ∧
        t.dev.rdp F.BLK_ERR_CNT_ERRORS (lndPage q.n.val) = satAdd 16 (s.dev.rdp F.BLK_ERR_CNT_ERRORS (lndPage q.n.val)) 1) ∧
      (s.dev.tenantOpen = true → sizeBroken e.1 q.o = none → opTranslates e.1 = false → ¬served q s → ∃ t v, v.length = rspLen e.1 q.o ∧
        exec (e.2.2 q) s = .next t ∧
        t.store = s.store ∧ t.dev.src = s.dev.src ∧ t.dev.out.getLast? = some (.attach q.n.val e.1 q.tag sFault v) ∧
        (s.dev.takes 0x21 = false → t.dev.out = s.dev.out ++ [.attach q.n.val e.1 q.tag sFault v] ∧
          ∃ a, t.dev.fltWait = s.dev.fltWait ++ [a] ∧ a.rec_.cause = fNoContext ∧ a.rec_.ctx = q.o.ctx ∧ a.rec_.landing = q.n.val)) ∧
      (∀ h, lndReady q s → e.1 ≤ 4 → sizeBroken e.1 q.o = none → mapped q h s →
        bit h.perm (permBit (opKind e.1)) = false → ∃ t v, v.length = rspLen e.1 q.o ∧ exec (e.2.2 q) s = .next t ∧ t.store = s.store ∧
        t.dev.out.getLast? = some (.attach q.n.val e.1 q.tag sFault v)))

/-- R129, R131, R141, R142, R148, R182, R466, R468, R470: what the accesses of a landing become, once their frame is the first in the
crossing and their page is translated: a read or write of pool memory of their own (LOAD, STORE, ATOMIC, REDUCE) that carries the operands,
one for each part of 256 bytes (BULK_READ), a line fill of 64 bytes where the read cache is used and lacks the line, an open block where
stores are combined; a LOAD whose lines the cache holds is answered at once. Nothing is written to memory here. -/
def Said.LandingAccesses : Prop :=
  ∀ (q : LReq) (h : TEntry) (s : State), lndReady q s → mapped q h s →
    let n := q.n.val
    let gpa := gpaIn h.gpaPage (lvaOf q)
    let len := opdLen q.o
    let r := fun (op : Nat) => landed op q [some (.hit h.gpaPage n)] s
    (offered 1 q s → bit h.perm 0 = true → sizeBroken 1 q.o = none →
      (¬(q.o.cache = true ∧ s.dev.rdp F.LND_CFG_RC_EN (lndPage n) = 1) → ∃ t, exec (.load q) s = .next t ∧ t.store = s.store ∧
        q.tag ∈ (t.dev.lndOf n).tags ∧ quiet t.dev ∧
        { (r 1).acc n s.dev.src.nextId gpa .read (.lndLoad n q.tag) with data := [] } ∈ t.dev.liveAccs) ∧
      (q.o.cache = true → s.dev.rdp F.LND_CFG_RC_EN (lndPage n) = 1 →
        ((∀ l ∈ linesOf gpa len, ((s.dev.lndOf n).rc.find? (fun e => e.1 == l)).isSome = true) → ∃ t, exec (.load q) s = .next t ∧
          t.store = s.store ∧ t.dev.out.getLast? = some (.attach n 1 q.tag sOk (sliceBytes ((linesOf gpa len).flatMap (fun (l : Nat) =>
            (((s.dev.lndOf n).rc.find? (fun e => e.1 == l)).map (·.2)).getD [])) (gpa % 64) len))) ∧
        (∀ l ∈ linesOf gpa len, (s.dev.lndOf n).rc.find? (fun e => e.1 == l) = none → ∃ t, exec (.load q) s = .next t ∧ t.store = s.store ∧
          ∃ a ∈ t.dev.liveAccs, a.kind = .read ∧ a.gpa = 64 * l ∧ a.len = 64 ∧ a.eng = n ∧ a.purpose = .lndFill n s.dev.src.nextId l))) ∧
    (offered 2 q s → bit h.perm 1 = true → sizeBroken 2 q.o = none → len ≤ 240 →
      (s.dev.rdp F.LND_CFG_WC_EN (lndPage n) = 0 → ∃ t, exec (.store q) s = .next t ∧ t.store = s.store ∧
        (r 2).acc n s.dev.src.nextId gpa .write (.lndStore n q.tag) ∈ t.dev.liveAccs) ∧
      (s.dev.rdp F.LND_CFG_WC_EN (lndPage n) = 1 → (s.dev.lndOf n).wc = [] → q.data.length = len →
        ∃ t, exec (.store q) s = .next t ∧ t.store = s.store ∧ (t.dev.lndOf n).wc =
          [⟨gpa / 256, q.data.zipIdx.map (fun (b : Byte × Nat) => (gpa % 256 + b.2, b.1)), s.dev.tim.tide, s.dev.ticket,
            [(q.tag, q.o.ctx, s.dev.src.nextId)]⟩])) ∧
    (offered 3 q s → bit h.perm 2 = true → sizeBroken 3 q.o = none → ∃ t, exec (.atomic q) s = .next t ∧ t.store = s.store ∧
      (r 3).acc n s.dev.src.nextId gpa .atomic (.lndAtomic n q.tag q.o.fetch) ∈ t.dev.liveAccs) ∧
    (offered 4 q s → bit h.perm 3 = true → sizeBroken 4 q.o = none → len ≤ 240 → ∃ t, exec (.reduce q) s = .next t ∧ t.store = s.store ∧
      (r 4).acc n s.dev.src.nextId gpa .reduce (.lndReduce n q.tag) ∈ t.dev.liveAccs) ∧
    (offered 5 q s → bit h.perm 0 = true → sizeBroken 5 q.o = none → ∀ part ∈ bulkParts (lvaOf q) len, ∃ t, exec (.bulkRead q) s = .next t ∧
      t.store = s.store ∧ ∃ a ∈ t.dev.liveAccs, a.kind = .read ∧ a.gpa = gpaIn h.gpaPage (lvaOf q + part.1) ∧ a.len = part.2.1 ∧
        a.purpose = .bulk n s.dev.src.nextId part.1 0) ∧
    (offered 6 q s → bit h.perm 1 = true → sizeBroken 6 q.o = none → q.data.length < len → ∃ t, exec (.bulkWrite q) s = .next t ∧
      t.store = s.store ∧ t.dev.portQ n = [r 6] ∧ ∀ a ∈ t.dev.liveAccs, a ∈ s.dev.liveAccs ∨ a.eng = 7)

/-- R466, R468: a DATA frame brings a BULK_WRITE that waits at the head of its queue its next 256 bytes; with the last of them every part
is written; one that belongs to no request only leaves the crossing, its slots returned; and none comes that is not the first there (R43). -/
def Said.DataFrames : Prop :=
  ∀ (n : Fin 4) (tag : Nat) (data : List Byte) (r : PortReq) (g : Nat) (s : State), s.dev.running = true → s.dev.domOn 11 = true →
    s.dev.lndOpen n.val = true → s.dev.fry.xfers = [] → (s.dev.lndOf n.val).halves = [] → (∀ p < 5, p ≠ n.val → s.dev.portQ p = []) →
    (∀ k < 4, (s.dev.lndOf k).gate = []) → s.dev.host.gate = [] → s.dev.src.noNode = [] →
    (∀ j ∈ s.dev.fry.jobs, s.dev.jobReady j.op = false) →
    (s.dev.portQ n.val = [] → s.dev.lndCross n.val (dataIn tag data) = none → exec (.dataFrame n tag data) s = .next s) ∧
    ((s.dev.lndCross n.val (dataIn tag data)).isSome = true →
      (s.dev.portQ n.val = [] → exec (.dataFrame n tag data) s = .next { s with dev := s.dev.uncrossed n.val (dataIn tag data) }) ∧
      (s.dev.portQ n.val = [r] → r.op = 6 → r.tag = tag → r.xl = [some (.hit g n.val)] → s.dev.portHeld n.val r = false →
        (data.length = 256 → r.data.length + 256 < opdLen r.o → ∃ t, exec (.dataFrame n tag data) s = .next t ∧ t.store = s.store ∧
          t.dev.portQ n.val = [{ r with data := r.data ++ data }] ∧ t.dev.src = s.dev.src) ∧
        (opdLen r.o ≤ 256 → 1 ≤ opdLen r.o → (r.o.addr % 2 ^ 57) % 256 = 0 → r.data = [] → data.length = opdLen r.o →
          s.dev.hasNode (gpaNode (gpaIn g (r.o.addr % 2 ^ 57))) = true → blocksAtNodes s.dev n.val →
          ∃ t, exec (.dataFrame n tag data) s = .next t ∧ t.store = s.store ∧ t.dev.portQ n.val = [] ∧
            ∃ a ∈ t.dev.liveAccs, a.kind = .write ∧ a.gpa = gpaIn g (r.o.addr % 2 ^ 57) ∧ a.len = opdLen r.o ∧ a.data = data ∧
              a.purpose = .bulk n.val r.id 0 0)))

/-- The requests of a landing that carry an address, and their DATA frames. -/
def Obligations.LandingData : Prop := Said.LandingAccesses ∧ Said.DataFrames

/-- R142–R147, R331: fences and the cache operations of a landing. A local fence covers the open accesses of its landing and holds the
landing back, a domain fence those of its context, its attention requests among them, and holds the context; a fence that covers nothing more is answered with ERR_SEEN. A fence of
the registers needs a context bound to the landing and a place among four, else it is captured. RC_INV empties the read cache; WC_FLUSH
is answered at once where no block is open and no block write outstanding; a block open for 50 ns becomes one write. -/
def Said.FencesAndCaches : Prop :=
  (∀ (q : LReq) (s : State), lndReady q s → served q s →
    (offered 8 (q.fence 0) s → ∃ t, exec (.localFence q) s = .next t ∧ t.store = s.store ∧ t.dev.src.fences = s.dev.src.fences ++
      [⟨s.dev.src.nextId, ((s.dev.opens.filter (fun (e : Open) => e.2.1 == q.n.val)).map (·.1)).dedup, some q.n.val, none, false, 16,
        .lndFence q.n.val q.tag, []⟩]) ∧
    (offered 8 (q.fence 1) s → ∃ t, exec (.domainFence q) s = .next t ∧ t.store = s.store ∧ t.dev.src.fences = s.dev.src.fences ++
      [⟨s.dev.src.nextId, ((s.dev.opens.filter (fun (e : Open) => e.2.2 == q.o.ctx)).map (·.1)).dedup, none, some q.o.ctx, false, 16,
        .lndFence q.n.val q.tag, s.dev.attnOf q.o.ctx⟩]) ∧
    (offered 9 q s → ∃ t, exec (.rcInv q) s = .next t ∧ t.store = s.store ∧ t.dev.out = s.dev.out ++ [.attach q.n.val 9 q.tag sOk []] ∧
      (t.dev.lndOf q.n.val).rc = []) ∧
    (offered 0x0A q s → (s.dev.lndOf q.n.val).wc = [] → s.dev.src.fences = [] →
      (∀ a ∈ s.dev.liveAccs, ofBlock q.n.val a.purpose = false) →
      ∃ t, exec (.wcFlush q) s = .next t ∧ t.store = s.store ∧ t.dev.out = s.dev.out ++ [.attach q.n.val 0x0A q.tag sOk []] ∧
        t.dev.src.fences = [])) ∧
  (∀ (f : Fence) (n : Fin 4) (tag : Nat) (s : State), s.dev.running = true → s.dev.domOn 11 = true → quiet s.dev →
    s.dev.src.fences = [f] → s.dev.fenceClear f = true → s.dev.src.held = [] →
    (f.next = .lndFence n.val tag → ∃ t, exec (.fenceComplete f.id) s = .next t ∧ t.store = s.store ∧ t.dev.src.fences = [] ∧
      t.dev.out = s.dev.out ++ [.attach n.val 8 tag sOk [if f.errSeen then 1 else 0]]) ∧
    (f.next = .lndReg n.val → s.dev.rdp F.LND_FENCE_STAT_DONE_COUNT (lndPage n.val) < 255 → ∃ t, exec (.fenceComplete f.id) s = .next t ∧
      t.store = s.store ∧ t.dev.src.fences = [] ∧ bit (t.dev.word (lndPage n.val * 0x1000 + 0x14)) 0 = true ∧
      t.dev.rdp F.LND_FENCE_STAT_DONE_COUNT (lndPage n.val) = s.dev.rdp F.LND_FENCE_STAT_DONE_COUNT (lndPage n.val) + 1 ∧
      (f.errSeen = true → t.dev.rdp F.LND_FENCE_STAT_ERR_SEEN (lndPage n.val) = 1))) ∧
  (∀ (m : Master) (n : Fin 4) (v : W32) (s : State), pageOpen s.dev m (lndPage n.val) → s.dev.owns m (lndPage n.val) = true →
    s.dev.domOn 11 = true → quiet s.dev → blocksAtNodes s.dev n.val → ∃ t, exec (.lndFenceGo m n v) s = .next t ∧ t.store = s.store ∧
      let c := bits v.toNat 0 8
      let e := Pkg.ctxEntry (s.store, s.dev) c
      ((e.valid = true ∧ e.landing = n.val ∧ s.dev.regFences n.val < 4 → ∃ f, f.next = .lndReg n.val ∧ f.holdCtx = some c ∧
          t.dev.src.fences = s.dev.src.fences ++ [f]) ∧
        (¬(e.valid = true ∧ e.landing = n.val ∧ s.dev.regFences n.val < 4) → t.dev.src = s.dev.src ∧
          t.dev.rdp F.BLK_ERR_CNT_ERRORS (lndPage n.val) = satAdd 16 (s.dev.rdp F.BLK_ERR_CNT_ERRORS (lndPage n.val)) 1))) ∧
  (∀ (n : Fin 4) (b : WcBlock) (s : State), s.dev.running = true → (s.dev.lndOf n.val).wc = [b] → b.openedAt + nsT 50 ≤ s.dev.tim.tide →
    ∃ t, exec (.wcBlockTimeout n b.node) s = .next t ∧ t.store = s.store ∧ (t.dev.lndOf n.val).wc = [] ∧
      blockWrite n.val s.dev.src.nextId b ∈ t.dev.liveAccs)

/-- R57: VERSION_READ, PUBLISH and PTE_WRITE of a region whose home is no node of the domain end with FAULT. -/
def Said.RegionAway : Prop :=
  ∀ (q : LReq) (s : State), lndReady q s → served q s → s.dev.hasNode (bits q.o.addr 13 7) = false → opdLen q.o = 8 →
    ∀ e ∈ [((0x0B : Nat), Instr.versionRead q), (0x0C, .publish q), (0x11, .pteWrite q)], offered e.1 q s →
      ∃ t v, v.length = rspLen e.1 q.o ∧ exec e.2 s = .next t ∧ t.store = s.store ∧ t.dev.src = s.dev.src ∧
        t.dev.out.getLast? = some (.attach q.n.val e.1 q.tag sFault v)

/-- R156, R464: VERSION_READ completes at the landing: it leaves as an access of the region's home that reads 4 bytes; one of ACQUIRE order
remembers it. -/
def Said.VersionReadCompletes : Prop :=
  ∀ (q : LReq) (s : State), lndReady q s → served q s → offered 0x0B q s → s.dev.hasNode (bits q.o.addr 13 7) = true →
    ∃ t, exec (.versionRead q) s = .next t ∧ t.store = s.store ∧
      ∃ a ∈ t.dev.liveAccs, a.id = s.dev.src.nextId ∧ a.kind = .verRead ∧ a.eng = q.n.val ∧ a.region = q.o.addr % 2 ^ 20 ∧ a.len = 4 ∧
        a.data = [] ∧ a.purpose = .lndVersion q.n.val q.tag (q.o.order / 2 * 2)

/-- R152, R153, R157: PUBLISH completes at the landing: without RELEASE it leaves as an access of the region's home with its 8 bytes; with
RELEASE it waits behind a domain fence of its context. -/
def Said.PublishCompletes : Prop :=
  ∀ (q : LReq) (s : State), lndReady q s → served q s → offered 0x0C q s → s.dev.hasNode (bits q.o.addr 13 7) = true →
    ∃ t, exec (.publish q) s = .next t ∧ t.store = s.store ∧
      (q.o.order % 2 = 0 → ∃ a ∈ t.dev.liveAccs, a.id = s.dev.src.nextId ∧ a.kind = .publish ∧ a.eng = q.n.val ∧
        a.region = q.o.addr % 2 ^ 20 ∧ a.data = sliceBytes q.data 0 8 ∧ a.purpose = .lndPublish q.n.val q.tag q.o.order) ∧
      (q.o.order % 2 = 1 → ∃ f ∈ t.dev.src.fences, f.id = s.dev.src.nextId ∧ f.holdCtx = some q.o.ctx ∧
        f.next = .publish q.n.val (landed 0x0C q [] s))

/-- R464, R465: PTE_WRITE of 8 bytes completes at the landing: it leaves as an access of the region's home that names the region, the page
and the entry. -/
def Said.PteWriteCompletes : Prop :=
  ∀ (q : LReq) (s : State), lndReady q s → served q s → offered 0x11 q s → s.dev.hasNode (bits q.o.addr 13 7) = true → opdLen q.o = 8 →
    ∃ t, exec (.pteWrite q) s = .next t ∧ t.store = s.store ∧ ∃ a ∈ t.dev.liveAccs, a.id = s.dev.src.nextId ∧ a.kind = .pteWrite ∧
      a.eng = q.n.val ∧ a.region = q.o.addr % 2 ^ 20 ∧ a.page = bits q.o.addr 20 23 ∧ a.data = sliceBytes q.data 0 8

/-- R469: STREAM_DECLARE completes: it opens a stream of its context at its address and answers OK with the stream's number, or, where the
declaration is out of order, answers RIGHTS and opens none. -/
def Said.StreamDeclareCompletes : Prop :=
  ∀ (q : LReq) (s : State), lndReady q s → served q s → offered 0x0D q s →
    ∃ t k v, exec (.streamDeclare q) s = .next t ∧ t.store = s.store ∧ v.length = 1 ∧
      (t.dev.out = s.dev.out ++ [.attach q.n.val 0x0D q.tag sOk (natLE 1 k)] ∧ (∃ st ∈ t.dev.xlt.streams, st.num = k ∧ st.ctx = q.o.ctx ∧
          st.base = lvaOf q ∧ st.owner = 0) ∨
        t.dev.out = s.dev.out ++ [.attach q.n.val 0x0D q.tag sRights v] ∧ t.dev.xlt = s.dev.xlt)

/-- R469: STREAM_END completes: the stream of its number that a landing declared for its context is open no more, and it is answered OK. -/
def Said.StreamEndCompletes : Prop :=
  ∀ (q : LReq) (s : State), lndReady q s → served q s → offered 0x0E q s →
    ∃ t, exec (.streamEnd q) s = .next t ∧ t.store = s.store ∧ t.dev.out = s.dev.out ++ [.attach q.n.val 0x0E q.tag sOk []] ∧
      ∀ st ∈ t.dev.xlt.streams, ¬(st.num = q.o.addr % 64 ∧ st.owner = 0 ∧ st.ctx = q.o.ctx)

/-- R353, R354, R464: DOORBELL completes: once no block of its landing is open and no write of it outstanding, the ring it names is rung, here
or by a message, and it is answered OK. -/
def Said.DoorbellCompletes : Prop :=
  ∀ (q : LReq) (s : State), lndReady q s → served q s → offered 0x0F q s → (s.dev.lndOf q.n.val).wc = [] →
    (∀ a ∈ s.dev.liveAccs, a.eng ≠ q.n.val ∨ a.kind.isWrite = false) →
    ∃ t d, exec (.doorbell q) s = .next t ∧ d.regs = s.dev.regs ∧ d.fry = s.dev.fry ∧ d.out = s.dev.out ∧
      t = withPkg s (Pkg.settleFor (settleFuel - 1)
        ((Pkg.lndDoorbell q.n.val (bits q.o.addr 32 7) (bits q.o.addr 39 6) (bit q.o.addr 45) (bits q.o.addr 0 32) s.dev.ticket (s.store, d)).dev
          (Dev.attach q.n.val 0x0F q.tag sOk [])))

/-- R375: DOCK_READ of 4 or 8 aligned bytes completes: it is answered at once with the bytes of the dock. -/
def Said.DockReadCompletes : Prop :=
  ∀ (q : LReq) (s : State), lndReady q s → served q s → offered 0x10 q s → sizeBroken 0x10 q.o = none →
    ∃ t, exec (.dockRead q) s = .next t ∧ t.store = s.store ∧ t.dev.regs = s.dev.regs ∧
      t.dev.out = s.dev.out ++ [.attach q.n.val 0x10 q.tag sOk (Pkg.dockRead q.n.val (bits q.o.addr 0 11) (opdLen q.o) (s.store, s.dev))]

/-- Where the operations of a landing that name no address complete, and what they then do: VERSION_READ, PUBLISH, PTE_WRITE, STREAM_DECLARE,
STREAM_END, DOORBELL and DOCK_READ. -/
def Obligations.LandingOperations : Prop :=
  Said.RegionAway ∧ Said.VersionReadCompletes ∧ Said.PublishCompletes ∧ Said.PteWriteCompletes ∧ Said.StreamDeclareCompletes ∧
    Said.StreamEndCompletes ∧ Said.DoorbellCompletes ∧ Said.DockReadCompletes

/-- R295, R471, R472, R480: a landing's own registers. LND_CFG takes the value written; RC_EN going to 0 empties the read cache. A write
of LND_RANK_DATA sets the rank entry at INDEX and moves INDEX on, modulo 16,384. TIME_FRAME_SEND hands the attached accelerator the time
of the microsecond once for each, in the oscillator period in which that begins, in one flit that takes two CTRL credits; where the link
cannot take it or the period is over the microsecond is skipped. -/
def Said.LandingRegisters : Prop :=
  (∀ (m : Master) (n : Fin 4) (v : W32) (s : State), pageOpen s.dev m (lndPage n.val) → s.dev.owns m (lndPage n.val) = true → quiet s.dev →
    fieldsTaken (tlp m s.dev) m (lndPage n.val) 0x100 v.toNat →
    ∃ t, exec (.lndCfgWrite m n v) s = .next t ∧ t.store = s.store ∧ t.dev.rdp F.LND_CFG_RC_EN (lndPage n.val) = bits v.toNat 0 1 ∧
      t.dev.rdp F.LND_CFG_WC_EN (lndPage n.val) = bits v.toNat 1 1 ∧
      (s.dev.rdp F.LND_CFG_RC_EN (lndPage n.val) = 1 → bit v.toNat 0 = false → (t.dev.lndOf n.val).rc = [])) ∧
  (∀ (m : Master) (n : Fin 4) (v : W32) (s : State), pageOpen s.dev m (lndPage n.val) → s.dev.owns m (lndPage n.val) = true →
    n.val < s.dev.lnd.length → fieldsTaken (tlp m s.dev) m (lndPage n.val) 0x20C v.toNat →
    let i := s.dev.rdp F.LND_RANK_ADDR_INDEX (lndPage n.val)
    ∃ t, exec (.lndRankDataWrite m n v) s = .next t ∧ t.store = s.store ∧
      nget (t.dev.lndOf n.val).ranks i = Nat.land v.toNat 0x81FF ∧
      (∀ j, j ≠ i → nget (t.dev.lndOf n.val).ranks j = nget (s.dev.lndOf n.val).ranks j) ∧
      t.dev.rdp F.LND_RANK_ADDR_INDEX (lndPage n.val) = (i + 1) % 16384) ∧
  (∀ (n : Fin 4) (s : State), s.dev.running = true → s.dev.rdp F.LND_CFG_TIME_EN (lndPage n.val) = 1 →
    s.dev.pageOn (lndPage n.val) = true → (s.dev.lndOf n.val).timeAt < s.dev.ns / 1000 →
    (s.dev.tim.tide % us 1 < nsT 40 → s.dev.linkState (24 + n.val) = 5 → s.dev.links.length = 28 → s.dev.lnd.length = 4 →
      (s.dev.link (24 + n.val)).room = true → (s.dev.link (24 + n.val)).lctlWait = [] →
      2 ≤ nget (s.dev.link (24 + n.val)).credits 12 → ∃ t b, exec (.timeFrameSend n) s = .next t ∧ t.store = s.store ∧
        t.dev.out = s.dev.out ++ [.attach n.val 0x20 0 0 (natLE 8 (s.dev.ns / 1000 * 1000) ++ natLE 8 0), .flit (24 + n.val) b] ∧
        (t.dev.lndOf n.val).timeAt = s.dev.ns / 1000) ∧
    (5 ≤ s.dev.linkState (24 + n.val) → s.dev.linkState (24 + n.val) = 6 ∨ nsT 40 ≤ s.dev.tim.tide % us 1 →
      ∃ t, exec (.timeFrameSend n) s = .next t ∧ t.store = s.store ∧ t.dev.out = s.dev.out))

/-- Fences, the read and combining caches, and the registers of a landing. -/
def Obligations.LandingControl : Prop := Said.FencesAndCaches ∧ Said.LandingRegisters

/-! ### Host port, translation, faults (R84–R113, R473–R479) -/

/-- R353, R474, R477, R478, R587: TLPs. Before READY a BAR2 read is completed with Completer Abort (4); a window whose ENABLE is 0 does the
same, writes FAULT to LAST_STATUS and counts the error; an AtomicOp of a size out of order gets Unsupported Request (1). Through an open
window a read, write or AtomicOp becomes an access of the window's context at the translated address. A BAR4 write at 0 or 8 of a ring's
page is that ring's doorbell, any other changes nothing. -/
def Obligations.HostPort : Prop :=
  ∀ (s : State), hostUp s →
    (∀ id off len, s.dev.booted = false → ∃ t, exec (.bar2Read id off len) s = .next t ∧ t.store = s.store ∧
      t.dev.out = s.dev.out ++ [.cpl id 4 []] ∧ t.dev.regs = s.dev.regs) ∧
    (∀ id off len, s.dev.booted = true → s.dev.tenantOpen = true → s.dev.rdi F.PCIE_WIN_CFG_ENABLE (winOf off) = 0 →
      ∃ t, exec (.bar2Read id off len) s = .next t ∧ t.store = s.store ∧ t.dev.out = s.dev.out ++ [.cpl id 4 []] ∧
        t.dev.rdi F.PCIE_WIN_STAT_LAST_STATUS (winOf off) = sFault ∧
        t.dev.rdi F.PCIE_WIN_STAT_ERRORS (winOf off) = satAdd 16 (s.dev.rdi F.PCIE_WIN_STAT_ERRORS (winOf off)) 1) ∧
    (∀ id off len e, winMapped off len e s → bit e.perm 0 = true → s.dev.hostWriting = false →
      ∃ t, exec (.bar2Read id off len) s = .next t ∧ t.store = s.store ∧ ∃ a ∈ t.dev.liveAccs, a.id = s.dev.src.nextId ∧ a.eng = 4 ∧
        a.ctx = winCtx off s ∧ a.kind = .read ∧ a.gpa = gpaIn e.gpaPage (winAddr off s) ∧ a.len = len ∧
        a.purpose = .bar2Read id 0 (winOf off)) ∧
    (∀ off data e, winMapped off data.length e s → bit e.perm 1 = true → ∃ t, exec (.bar2Write off data) s = .next t ∧ t.store = s.store ∧
      ∃ a ∈ t.dev.liveAccs, a.id = s.dev.src.nextId ∧ a.eng = 4 ∧ a.ctx = winCtx off s ∧ a.kind = .write ∧
        a.gpa = gpaIn e.gpaPage (winAddr off s) ∧ a.len = data.length ∧ a.data = data ∧ a.purpose = .bar2Write (winOf off)) ∧
    (∀ id off data e, winMapped off data.length e s → bit e.perm 2 = true → data.length = 4 ∨ data.length = 8 →
      winAddr off s % data.length = 0 → ∃ t, exec (.bar2Atomic id off 0 data) s = .next t ∧ t.store = s.store ∧
      ∃ a ∈ t.dev.liveAccs, a.id = s.dev.src.nextId ∧ a.eng = 4 ∧ a.kind = .atomic ∧ a.aop = 0 ∧ a.fetch = true ∧ a.data = data ∧
        a.gpa = gpaIn e.gpaPage (winAddr off s) ∧ a.purpose = .bar2Atomic id (winOf off)) ∧
    (∀ id off data, data.length = 3 → s.dev.tlpWaits (.atomic id off 0 data) (s.dev.winAt off) = false → ∃ t, exec (.bar2Atomic id off 0 data) s = .next t ∧ t.store = s.store ∧
      t.dev.out = s.dev.out ++ [.cpl id 1 []]) ∧
    (∀ (off : Nat) (v : W32), 0x40000 ≤ off ∨ (off % 0x1000 ≠ 0 ∧ off % 0x1000 ≠ 8) →
      exec (.bar4Doorbell off v) s = .next { s with dev := s.dev.count 0x18 0 1 }) ∧
    (∀ (off : Nat) (v : W32), off < 0x40000 → off % 0x1000 = 0 ∨ off % 0x1000 = 8 → s.dev.hostWriting = false →
      (∀ f ∈ s.dev.src.fences, f.holdEng ≠ some 4) → ∃ d, d.regs = s.dev.regs ∧ d.fry = s.dev.fry ∧ d.out = s.dev.out ∧
      exec (.bar4Doorbell off v) s = .next (withPkg s (Pkg.settleFor (settleFuel - 1)
        (Pkg.doorbell 1 (s.dev.ring F.FRY_SUB_CFG_DB_HOST (off / 0x1000) == 1) (off / 0x1000) (off % 0x1000 == 8) v.toNat (s.store, d)))))

/-- R84, R87, R90, R91, R95, R96: walks and prefetches. The oldest miss takes a free walker, which reads the context entry where no cache
holds it. The answer of a walk's last read gives a translation to each request that waits for it and installs it; an answer with any
status but OK ends it with WALK_ERROR and installs nothing (R88); a stale prefetch, or one whose read failed, installs nothing. An answer
counts while the request timeout of its read has not ended (R485). Answers are said while nothing waits for the home, so that they release
nothing there. -/
def Said.Walks : Prop :=
  (∀ (w : Walk) (q : List Walk) (s : State), s.dev.running = true → s.dev.domOn 11 = true → quiet s.dev → joined s.dev →
    s.dev.xlt.missQ = w :: q →
    s.dev.xlt.walks = [] → s.dev.xlt.blocked = [] → s.dev.ticket ≠ 0 → s.dev.xlt.ctxCache.find? (fun e => e.1 == w.ctx) = none →
    ∃ t, exec .walkStart s = .next t ∧ t.store = s.store ∧ t.dev.xlt.missQ = q ∧
      t.dev.xlt.walks = [{ w with stage := .ctx, stale := false }] ∧ ∃ a ∈ t.dev.liveAccs, a.eng = 7 ∧ a.kind = .table ∧ a.ctx = w.ctx ∧
        a.gpa = s.dev.ctxGpa w.ctx ∧ a.len = 576 ∧ a.purpose = .walk w.id) ∧
  (∀ (w : Walk) (o : OutReq) (c : CtxEnt) (seg : Nat) (de : DescEnt) (data : List Byte) (s : State), s.dev.running = true →
    s.dev.domOn 11 = true → s.dev.homeIdle = true → s.dev.xlt.walks = [w] → w.stale = false →
    s.dev.src.reqs.find? (fun o => o.acc.purpose == .walk w.id) = some o → o.acc.purpose = .walk w.id → s.dev.expired o = false →
    w.stage = .pte c seg de → (∀ r ∈ w.waiters, r.refused c (some seg) = none) →
    (∀ how : AnsHow, how.status = sOk → bit (leNat (sliceBytes data 0 8)) 0 = true → bits (leNat (sliceBytes data 0 8)) 45 7 < s.dev.domainSize →
      ∃ d, d.xlt.walks = [] ∧ findT w.ctx w.page d.xlt.ftc = some ⟨w.ctx, w.page, bits (leNat (sliceBytes data 0 8)) 21 31,
          (segAt c seg).perm, seg, (segAt c seg).region, (segAt c seg).rpage + (w.page - (segAt c seg).base), c.landing, false⟩ ∧
        exec (.walkReadAnswer w.id how data) s = .next (withPkg s (Pkg.takeXlt
          (w.waiters.map (fun r => (r, .hit (bits (leNat (sliceBytes data 0 8)) 21 31) c.landing)), (s.store, d))))) ∧
    (∀ how : AnsHow, how.status ≠ sOk → ∃ d, d.xlt.walks = [] ∧ d.xlt.ftc = s.dev.xlt.ftc ∧ d.xlt.ctxCache = s.dev.xlt.ctxCache ∧
      d.xlt.descCache = s.dev.xlt.descCache ∧ exec (.walkReadAnswer w.id how data) s =
      .next (withPkg s (Pkg.takeXlt (w.waiters.map (fun r => (r, .fault fWalkError)), (s.store, d)))))) ∧
  (∀ (p : Prefetch) (o : OutReq) (how : AnsHow) (data : List Byte) (s : State), s.dev.running = true → s.dev.domOn 11 = true → quiet s.dev →
    s.dev.homeIdle = true →
    s.dev.src.reqs.find? (fun o => o.acc.purpose == .prefetch p.id) = some o → o.acc.purpose = .prefetch p.id → s.dev.expired o = false →
    s.dev.xlt.prefetches = [p] →
    (p.stale = true ∨ how.status ≠ sOk → ∃ t, exec (.prefetchAnswer p.id how data) s = .next t ∧ t.store = s.store ∧ t.dev.xlt.prefetches = [] ∧
      t.dev.xlt.ftc = s.dev.xlt.ftc) ∧
    (∀ c seg de, p.stale = false → how.status = sOk → p.stage = .pte c seg de → ∃ t, exec (.prefetchAnswer p.id how data) s = .next t ∧
      t.store = s.store ∧ t.dev.xlt.prefetches = [] ∧
      ∀ e ∈ t.dev.xlt.ftc, e ∈ s.dev.xlt.ftc ∨ (e.ctx = p.ctx ∧ e.pf = true ∧ e.seg = seg ∧ e.landing = c.landing)))

/-- R98, R100, R102–R104: an invalidation, by GO of XLT_INV_CMD or by a message of the fabric manager, removes every translation it
names at once and joins a queue of 16; with the queue full GO is dropped and captured, with the rest of its write (log entry 58), and a
message waits. The oldest completes once the walks it overtook
are over: DONE_COUNT rises, BLK_ISR bit 0 is set, and a message is acknowledged. -/
def Said.Invalidations : Prop :=
  (∀ (m : Master) (v : W32) (s : State), pageOpen s.dev m 0x20 → s.dev.owns m 0x20 = true → quiet s.dev →
    1 ≤ bits v.toNat 0 3 → bits v.toNat 0 3 ≤ 4 →
    let a : InvArgs := { kind := bits v.toNat 0 3, region := s.dev.rd F.XLT_INV_ARG0_REGION, first := s.dev.rd F.XLT_INV_ARG1_FIRST_PAGE
                         count := s.dev.rd F.XLT_INV_ARG2_PAGE_COUNT, ctx := bits v.toNat 8 8 }
    ∃ t, exec (.xltInvGo m v) s = .next t ∧ t.store = s.store ∧
      (s.dev.xlt.invQ.length < 16 → (∀ e ∈ t.dev.xlt.ftc, invHits a e = false) ∧ (∀ l ∈ t.dev.xlt.ltb, ∀ e ∈ l, invHits a e = false) ∧
        (∀ e ∈ s.dev.xlt.ftc, invHits a e = false → e ∈ t.dev.xlt.ftc) ∧ t.dev.xlt.invQ.length = s.dev.xlt.invQ.length + 1) ∧
      (16 ≤ s.dev.xlt.invQ.length → t.dev.xlt = s.dev.xlt ∧ t.dev.word 0x2010C = s.dev.word 0x2010C ∧
        t.dev.rdp F.BLK_ERR_CNT_ERRORS 0x20 = satAdd 16 (s.dev.rdp F.BLK_ERR_CNT_ERRORS 0x20) 1)) ∧
  (∀ (src : Nat) (a : InvArgs) (s : State), s.dev.running = true → s.dev.xltTakes = true → s.dev.xlt.invWait = [] →
    (s.dev.fmAllowed src = true → 16 ≤ s.dev.xlt.invQ.length → exec (.ctrlInvalidation src a) s = .next { s with
      dev := { s.dev with xlt := { s.dev.xlt with invWait := [(src, a)] } } }) ∧
    (s.dev.fmAllowed src = true → s.dev.xlt.invQ.length < 16 → ∃ t, exec (.ctrlInvalidation src a) s = .next t ∧ t.store = s.store ∧
      (∀ e ∈ t.dev.xlt.ftc, invHits a e = false) ∧ (∀ l ∈ t.dev.xlt.ltb, ∀ e ∈ l, invHits a e = false) ∧
      ∃ i, i.a = a ∧ i.src = some src ∧ t.dev.xlt.invQ = s.dev.xlt.invQ ++ [i]) ∧
    (s.dev.fmAllowed src = false → exec (.ctrlInvalidation src a) s = .next { s with dev := s.dev.fmDropped })) ∧
  (∀ (i : Inv) (q : List Inv) (s : State), s.dev.running = true → s.dev.xlt.invQ = i :: q → s.dev.xlt.invWait = [] →
    (i.waits ≠ [] → exec .invalidationComplete s = .next s) ∧
    (i.waits = [] → ∃ t, exec .invalidationComplete s = .next t ∧ t.store = s.store ∧ t.dev.xlt = { s.dev.xlt with invQ := q } ∧
      t.dev.rd F.XLT_INV_STAT_DONE_COUNT = (s.dev.rd F.XLT_INV_STAT_DONE_COUNT + 1) % 65536 ∧ bit (t.dev.word 0x20014) 0 = true ∧
      (∀ n, i.src = some n → s.dev.hasNode n = true → t.dev.out.getLast? = some (.ctrl n .invAck))))

/-- Walks of the page tables and the invalidation of what they leave. -/
def Obligations.Translation : Prop := Said.Walks ∧ Said.Invalidations

/-- R107, R110–R113: a batch whose window has ended is due, and its records are written to its ring in host memory, 32 bytes each, PROD
moving past each, followed by the ring's message; before that nothing happens. CONS takes what its owner writes; ENABLE going to 1 starts
the ring empty. -/
def Obligations.FaultRings : Prop :=
  (∀ (b : Batch) (f : FRec) (s : State), s.dev.running = true → s.dev.flt = [b] → b.due = false → b.recs = [f] → b.ring < 16 →
    (s.dev.tim.tide < b.opened + us b.timerUs → exec (.faultBatchDue b.ctx) s = .next s) ∧
    (b.opened + us b.timerUs ≤ s.dev.tim.tide → s.dev.fltRoom b.ring = true → s.dev.rd F.GLB_PIN_STAT_PERST = 0 →
      ∃ t, exec (.faultBatchDue b.ctx) s = .next t ∧ t.store = s.store ∧ t.dev.flt = [] ∧
        t.dev.rdi F.FLT_RING_PROD_PROD b.ring = (s.dev.rdi F.FLT_RING_PROD_PROD b.ring + 1) % 2 ^ 32 ∧
        t.dev.out = s.dev.out ++ [.hostWrite (ringAddr (s.dev.rdi F.FLT_RING_BASE_LO_BASE_LO b.ring) (s.dev.rdi F.FLT_RING_BASE_HI_BASE_HI b.ring)
            (s.dev.rdi F.FLT_RING_PROD_PROD b.ring) (s.dev.rdi F.FLT_RING_CFG_LOG2_SIZE b.ring) 32) (frecBytes f (s.dev.rdi F.FLT_RING_PROD_PROD b.ring)),
          .msix (s.dev.rdi F.FLT_RING_CFG_VECTOR b.ring)])) ∧
  (∀ (m : Master) (ring : Fin 16) (v : W32) (s : State), pageOpen s.dev m 0x21 → s.dev.owns m 0x21 = true → s.dev.flt = [] →
    (∃ t, exec (.fltRingCons m ring v) s = .next t ∧ t.store = s.store ∧ t.dev.rdi F.FLT_RING_CONS_CONS ring.val = v.toNat) ∧
    (s.dev.rdi F.FLT_RING_CFG_ENABLE ring.val = 0 → bit v.toNat 0 = true → 6 ≤ bits v.toNat 4 5 → bits v.toNat 4 5 ≤ 16 →
      ∃ t, exec (.fltRingCfgWrite m ring v) s = .next t ∧ t.store = s.store ∧ t.dev.rdi F.FLT_RING_CFG_ENABLE ring.val = 1 ∧
        t.dev.rdi F.FLT_RING_CFG_LOG2_SIZE ring.val = bits v.toNat 4 5 ∧ t.dev.rdi F.FLT_RING_PROD_PROD ring.val = 0 ∧
        t.dev.rdi F.FLT_RING_CONS_CONS ring.val = 0))

/-! ### The home (R61–R77, R118–R123, R136–R160, R177–R191, R493–R497) -/

/-- R64–R67, R118, R128, R152–R154, R184: reads at the home. A granted read of memory in order is answered OK with the lines' plaintext;
with DATA_ERROR where a line of an extent without parity holds an error that its code cannot correct; without the right, the ticket or a
LIVE extent RIGHTS, at a REVOKING extent EXTENT_REVOKED, each counted as an error of the page. A table read of a SYSTEM extent is answered with its bytes. VERSION_READ answers the region's version; PUBLISH swaps it where it is the one
expected and the landing may publish, else CONFLICT with the version that stands. No byte of memory changes. -/
def Obligations.HomeReads : Prop :=
  ∀ (r : Req) (s : State), homeUp s →
    (poweredHome r (opdLen r.opd) s → r.hdr.av = false → r.hdr.opcode ≠ opMigRead → granted r .read s → s.dev.sec.active.isSome = true →
      (s.dev.prot r.ext).mode = 3 ∨ (s.dev.prot r.ext).mode = 4 → (∃ l ∈ linesOf r.gpa (opdLen r.opd),
        s.dev.partErr (l % 2 ^ 39) (spanWords r.gpa (opdLen r.opd) l) = 2) →
      ∃ t v, exec (.homeRead r []) s = .next t ∧ t.store = s.store ∧ v.length = opdLen r.opd ∧
        (s.dev.hasNode r.hdr.srcNode = true → t.dev.out.getLast? = (s.dev.respond r.hdr sDataError v).out.getLast?) ∧ nget t.dev.home.infl r.ext = nget s.dev.home.infl r.ext) ∧
    (atHome r (opdLen r.opd) s → r.hdr.av = false → r.hdr.opcode ≠ opMigRead →
      (∀ key, granted r .read s → s.dev.sec.active = some key → ∃ t, exec (.homeRead r []) s = .next t ∧ t.store = s.store ∧
        t.dev.out = (s.dev.respond r.hdr sOk (spanBytes r.gpa (opdLen r.opd) (oldLines r (opdLen r.opd) key s))).out ∧
        nget t.dev.home.infl r.ext = nget s.dev.home.infl r.ext) ∧
      (s.dev.ownSystem r.hdr = false → (s.dev.ext r.ext).state = 2 → s.dev.ticketOk r.hdr.ticket = true →
        ∃ t, exec (.homeRead r []) s = .next t ∧ t.store = s.store ∧
          (s.dev.hasNode r.hdr.srcNode = true → t.dev.out.getLast? = (s.dev.respond r.hdr sRevoked []).out.getLast?) ∧
          t.dev.home.ops = [] ∧ t.dev.rdp F.BLK_ERR_CNT_ERRORS 0x28 = satAdd 16 (s.dev.rdp F.BLK_ERR_CNT_ERRORS 0x28) 1) ∧
      (s.dev.ownSystem r.hdr = false → s.dev.ticketOk r.hdr.ticket = false ∨ ((s.dev.ext r.ext).state ≠ 1 ∧ (s.dev.ext r.ext).state ≠ 2) ∨
          ((s.dev.ext r.ext).state = 1 ∧ bit (s.dev.ext r.ext).bm.read r.hdr.reqLanding = false) →
        ∃ t, exec (.homeRead r []) s = .next t ∧ t.store = s.store ∧
          (s.dev.hasNode r.hdr.srcNode = true → t.dev.out.getLast? = (s.dev.respond r.hdr sRights []).out.getLast?) ∧
          t.dev.home.ops = [] ∧ t.dev.rdp F.BLK_ERR_CNT_ERRORS 0x28 = satAdd 16 (s.dev.rdp F.BLK_ERR_CNT_ERRORS 0x28) 1) ∧
      (s.dev.ticketOk r.hdr.ticket = true → (s.dev.ext r.ext).state = 3 → ∃ t, exec (.homeTableRead r []) s = .next t ∧ t.store = s.store ∧
        t.dev.out = (s.dev.respond r.hdr sOk (spanBytes r.gpa (opdLen r.opd) ((linesOf r.gpa (opdLen r.opd)).map (fun l =>
          Pkg.plain (s.store, s.dev) (l % 2 ^ 39) (.metadata (l % 2 ^ 39)))))).out)) ∧
    (bits r.opd.addr 13 7 = s.dev.node →
      let e := s.dev.region (bits r.opd.addr 0 13)
      (s.dev.ticketOk r.hdr.ticket = true → e.valid = true →
        (∃ t, exec (.homeVersionRead r) s = .next t ∧ t.store = s.store ∧ t.dev = s.dev.respond r.hdr sOk (natLE 4 e.version)) ∧
        (bit e.publish r.hdr.reqLanding = true → e.version = leNat (sliceBytes r.data 0 4) →
          exec (.homePublish r) s = .next { s with
            dev := (s.dev.setRegion (bits r.opd.addr 0 13) { e with version := leNat (sliceBytes r.data 4 4) }).respond r.hdr sOk
              (natLE 4 e.version) }) ∧
        (bit e.publish r.hdr.reqLanding = true → e.version ≠ leNat (sliceBytes r.data 0 4) → ∃ t, exec (.homePublish r) s = .next t ∧
          t.store = s.store ∧ t.dev.home = s.dev.home ∧
          (s.dev.hasNode r.hdr.srcNode = true → t.dev.out.getLast? = (s.dev.respond r.hdr sConflict (natLE 4 e.version)).out.getLast?))) ∧
      (s.dev.ticketOk r.hdr.ticket = true → e.valid = false → ∃ t, exec (.homePublish r) s = .next t ∧ t.store = s.store ∧
        t.dev.home = s.dev.home ∧ (s.dev.hasNode r.hdr.srcNode = true → t.dev.out.getLast? = (s.dev.respond r.hdr sRights []).out.getLast?)) ∧
      (s.dev.ticketOk r.hdr.ticket = false ∨ e.valid = false → ∃ t, exec (.homeVersionRead r) s = .next t ∧ t.store = s.store ∧
        t.dev.home = s.dev.home ∧ (s.dev.hasNode r.hdr.srcNode = true → t.dev.out.getLast? = (s.dev.respond r.hdr sRights []).out.getLast?)))

/-- R127, R137, R148, R182, R185, R192: a granted write that is the next of its pair is taken: EXPECT moves on and one operation stands
ready whose lines hold the old bytes overlaid with the new: the data of a write, the atomic's result, the sums of a reduce-write, the
plaintext of a migrated line. Memory changes only when it is performed. Said of a package without a partner and an extent in no parity
group. -/
def Said.HomeWrites : Prop :=
  ∀ (r : Req) (key : Nat) (s : State), homeUp s → nextOfPair r s → s.dev.sec.active = some key →
    (s.dev.prot r.ext).mode = 3 ∨ (s.dev.prot r.ext).mode = 4 → isTableLine (r.gpa / 64 % 2 ^ 39) = false →
    let len := opdLen r.opd
    let taken := fun (t : State) (gpaLen : Nat) (v : List Byte) => t.store = s.store ∧
      (t.dev.ord (s.dev.ordKey s.dev.node r.hdr.srcNode r.hdr.srcEngine)).expect = (r.hdr.manifest + 1) % 65536 ∧
      ∃ o, t.dev.home.ops = [o] ∧ o.phase = .ready ∧ o.req = r ∧ o.status = sOk ∧ o.ws.map (·.line) = linesOf r.gpa gpaLen ∧
        o.ws.flatMap (·.bytes) = overlay (oldLines r gpaLen key s).flatten (r.gpa % 64) v
    (atHome r len s → r.holes = [] → granted r .write s → ∃ t, exec (.homeWrite r []) s = .next t ∧ taken t len (sliceBytes r.data 0 len)) ∧
    (atHome r len s → atomicOk r.opd.aop len r.gpa = true → granted r .atomic s → ∃ t, exec (.homeAtomic r []) s = .next t ∧
      taken t len (atomicBytes r.opd.aop (spanBytes r.gpa len (oldLines r len key s)) (payload r .atomic))) ∧
    (atHome r (reduceBytes r.opd.mfmt r.opd.cfmt len) s → reduceOk r.opd.mfmt r.opd.cfmt len r.gpa = true → granted r .reduce s →
      ∃ t c, exec (.homeReduceWrite r []) s = .next t ∧ taken t (reduceBytes r.opd.mfmt r.opd.cfmt len) (reduceVec r.opd.mfmt r.opd.cfmt
        (spanBytes r.gpa (reduceBytes r.opd.mfmt r.opd.cfmt len) (oldLines r (reduceBytes r.opd.mfmt r.opd.cfmt len) key s)) (payload r .reduce) c).1) ∧
    (∀ src, atHome r len s → granted r .migWrite s → ∃ t, exec (.homeMigrationWrite r src []) s = .next t ∧ taken t len
      ((List.range (len / 64)).flatMap (fun i => decLine key (src / 64 + i) (sliceBytes (payload r .migWrite) (64 * i) 64))))

/-- R77: a page-table write from the fabric manager, or from a landing as PTE_WRITE: the 8 bytes of the entry at PT_BASE + 8 × PAGE in the
region's home, taken into an operation that stands ready where they differ; an entry of a region that does not stand, or beyond its pages,
is answered BAD_STATE, and PTE_WRITE without the right to publish RIGHTS. -/
def Obligations.PageTableWrites : Prop :=
  (∀ (src region page entry : Nat) (s : State), homeUp s → s.dev.fmAllowed src = true →
    let e := s.dev.region (region % 8192)
    let gpa := e.ptBase + page * 8
    (region / 8192 % 128 ≠ s.dev.node ∨ e.valid = false ∨ e.pages ≤ page → exec (.regionPte src region page entry []) s =
      .next { s with dev := s.dev.ctrl src (.result "REGION_PTE" rBadState) }) ∧
    (region / 8192 % 128 = s.dev.node → e.valid = true → page < e.pages → gpaNode gpa = s.dev.node → gpaOk gpa = true → gpa < 2 ^ 52 →
      (s.dev.ext (gpaExt gpa)).state = 3 → isTableLine (gpa / 64 % 2 ^ 39) = false → s.dev.linePowered (gpa / 64 % 2 ^ 39) = true →
      s.dev.lineErr (gpa / 64 % 2 ^ 39) ≠ 2 → e.ptBase % 8 = 0 → (s.dev.prot (gpaExt gpa)).mode ≠ 1 →
      Pkg.readData (s.store, s.dev) s.dev.node .read 3 gpa 8 ≠ natLE 8 (entry % 2 ^ 64) →
      ∃ t o, exec (.regionPte src region page entry []) s = .next t ∧ t.store = s.store ∧ t.dev.home.ops = [o] ∧ o.phase = .ready ∧
        o.gpa = gpa ∧ o.kind = .regionPte src ∧ spanBytes gpa 8 (o.ws.map (·.bytes)) = natLE 8 (entry % 2 ^ 64))) ∧
  (∀ (r : Req) (s : State), homeUp s → nextOfPair r s → bits r.opd.addr 13 7 = s.dev.node →
    let e := s.dev.region (bits r.opd.addr 0 20 % 8192)
    let gpa := e.ptBase + bits r.opd.addr 20 23 * 8
    (s.dev.ticketOk r.hdr.ticket = true → e.valid = false ∨ bit e.publish r.hdr.reqLanding = false → ∃ t, exec (.homePteWrite r []) s = .next t ∧
      t.store = s.store ∧ t.dev.home.ops = [] ∧
      (s.dev.hasNode r.hdr.srcNode = true → t.dev.out.getLast? = (s.dev.respond r.hdr sRights []).out.getLast?)) ∧
    (s.dev.ticketOk r.hdr.ticket = true → e.valid = true → bit e.publish r.hdr.reqLanding = true → bits r.opd.addr 20 23 < e.pages →
      gpaNode gpa = s.dev.node → gpaOk gpa = true → gpa < 2 ^ 52 → (s.dev.ext (gpaExt gpa)).state = 3 →
      isTableLine (gpa / 64 % 2 ^ 39) = false → s.dev.linePowered (gpa / 64 % 2 ^ 39) = true → s.dev.lineErr (gpa / 64 % 2 ^ 39) ≠ 2 →
      e.ptBase % 8 = 0 → (s.dev.prot (gpaExt gpa)).mode ≠ 1 → r.holes = [] →
      ∃ t o, exec (.homePteWrite r []) s = .next t ∧ t.store = s.store ∧ t.dev.home.ops = [o] ∧ o.phase = .ready ∧ o.gpa = gpa ∧
        spanBytes gpa 8 (o.ws.map (·.bytes)) = sliceBytes r.data 0 8))

/-- R127, R137, R493: performing a write. Its lines, and no other byte of memory, take the bytes formed; its status is recorded for its
pair; the sender is answered, with the old value where a fetch form asked. -/
def Said.WritePerformed : Prop :=
  ∀ (o : HOp) (s : State), s.dev.running = true → s.dev.domOn 11 = true → s.dev.home.ops = [o] → s.dev.home.queue = [] →
    s.dev.home.dups = [] → noneAtHome s.dev → s.dev.stands o.node = false → s.dev.mirrorExt o.node o.ext = none →
    o.phase = .ready → o.kind = .write → o.applied = false → (∀ w ∈ o.ws, w.bytes.length = 64) →
    ∃ t, exec (.writePerformed o.id) s = .next t ∧ t.store = (Pkg.applyLines o.ws (s.store, s.dev)).1 ∧ t.dev.home.ops = [] ∧
      t.dev.regs = s.dev.regs ∧
      t.dev.out = (s.dev.respond o.req.hdr o.status (if o.akind = .atomic ∧ o.req.opd.fetch = true ∧ o.status = sOk then o.oldData else [])).out ∧
      (∀ a, (∀ w ∈ o.ws, ∀ p, w.phys = some p → s.dev.placeOf p ≠ a / 64) → tget zeroByte t.store.mem a = tget zeroByte s.store.mem a)

/-- Writes at their home, from admission to the moment they are performed. -/
def Obligations.HomeWritesDone : Prop := Said.HomeWrites ∧ Said.WritePerformed

/-- R137, R139, R493–R497, R619: the order table. A write ahead of its turn is held in the reorder store; one outside the window, or the end
of the hole window, breaks the pair, and its held writes are refused; a repeat of a recorded write is answered with the status recorded.
ORDER_RESYNC puts the pair into quarantine, and after the quiet window it starts afresh and the sender is told. -/
def Obligations.OrderTable : Prop :=
  (∀ (r : Req) (s : State), homeUp s → gpaNode r.opd.addr = s.dev.node →
    let k := s.dev.ordKey s.dev.node r.hdr.srcNode r.hdr.srcEngine
    let e := s.dev.ord k
    let diff := manDiff r.hdr.manifest e.expect
    e.st = .normal →
    (1 ≤ diff → diff < 256 → ∃ t, exec (.homeWrite r []) s = .next t ∧ t.store = s.store ∧
      t.dev.home.store = [⟨s.dev.node, r.hdr.srcNode, r.hdr.srcEngine, r.hdr.manifest, .pool r .write [] 0⟩] ∧
      (t.dev.ord k).expect = e.expect ∧ (t.dev.ord k).holeAt.isSome = true) ∧
    (256 ≤ diff → diff < 65280 → ∃ t, exec (.homeWrite r []) s = .next t ∧ t.store = s.store ∧ (t.dev.ord k).st = .broken ∧
      t.dev.home.store = [] ∧ (s.dev.hasNode r.hdr.srcNode = true → t.dev.out.getLast? = (s.dev.respond r.hdr sOrderBroken []).out.getLast?)) ∧
    (∀ st, 65280 ≤ diff → e.open_.contains r.hdr.manifest = false → e.hist.find? (fun p => p.1 == r.hdr.manifest) = some (r.hdr.manifest, st) →
      ∃ t, exec (.homeWrite r []) s = .next t ∧ t.store = s.store ∧ t.dev.home = s.dev.home ∧
        (s.dev.hasNode r.hdr.srcNode = true → t.dev.out.getLast? = (s.dev.respond r.hdr st []).out.getLast?) ∧
        (st ≠ sOrderBroken → t = { s with dev := s.dev.respond r.hdr st [] }))) ∧
  (∀ (n src eng : Nat) (s : State), s.dev.running = true → s.dev.domOn 11 = true → s.dev.home.queue = [] → noneAtHome s.dev →
    s.dev.rd F.PROT_CFG_PARTNER_EN = 0 →
    let k := s.dev.ordKey n src eng
    let e := s.dev.ord k
    (∀ t0, e.holeAt = some t0 → e.st = .normal → t0 + us (s.dev.rd F.RCV_CFG_ORDER_TIMEOUT_US) ≤ s.dev.tim.tide →
      ∃ t, exec (.orderHoleTimeout n src eng) s = .next t ∧ t.store = s.store ∧ (t.dev.ord k).st = .broken ∧ (t.dev.ord k).holeAt = none) ∧
    (∀ rseq, (s.dev.serves n).isSome = true → e.st ≠ .quarantine → some rseq ≠ e.lastRseq → ∃ t, exec (.orderResync n src eng rseq) s = .next t ∧
      t.store = s.store ∧ (t.dev.ord k).st = .quarantine ∧ (t.dev.ord k).rseq = rseq ∧
      (t.dev.ord k).quietEnd = s.dev.tim.tide + us (s.dev.rd F.RCV_RETX_RESYNC_QUIET_US)) ∧
    (e.st = .quarantine → e.quietEnd ≤ s.dev.tim.tide → s.dev.hasNode src = true → ∃ t, exec (.quarantineEnd n src eng) s = .next t ∧ t.store = s.store ∧
      (t.dev.ord k).st = .normal ∧ (t.dev.ord k).expect = 0 ∧ (t.dev.ord k).lastRseq = some e.rseq ∧
      t.dev.out = s.dev.out ++ [.ctrl src (.orderResyncDone eng e.rseq)]))

/-- R68, R70, R71, R120–R123: extent commands by message, at a package without a partner. A GRANT needs a FREE extent, WIDEN a LIVE one,
REVOKE takes LIVE to REVOKING and at once to FREE where no request is in flight, RESERVE takes FREE to SYSTEM or PROTECT, RELEASE back;
the result goes to the sender, GRANT_GEN counts each change, and an extent the map fixes changes never. A revocation completes with its
record when its last request ends. -/
def Obligations.ExtentCommands : Prop :=
  (∀ (src : Nat) (a : ExtArgs) (s : State), s.dev.running = true → s.dev.domOn 11 = true → quiet s.dev → s.dev.home.queue = [] →
    s.dev.fmAllowed src = true → s.dev.rd F.PROT_CFG_PARTNER_EN = 0 → s.dev.rd F.PROT_CFG_ROLE = 0 → a.index < 3232 →
    let e := s.dev.ext a.index
    let g := nextGen e.gen
    (isFixedExt a.index = false →
      (e.state = 0 → exec (.extGrant (.msg src a)) s = .next { s with
        dev := (s.dev.setExt a.index { state := 1, region := a.region % 2 ^ 20, gen := g, bm := mod512 a.bm }).ctrl src (.result "EXT_GRANT" rDone) }) ∧
      (e.state = 1 → orMaps e.bm (mod512 a.bm) ≠ e.bm → exec (.extWiden (.msg src a)) s = .next { s with
        dev := (s.dev.setExt a.index { e with bm := orMaps e.bm (mod512 a.bm), gen := g }).ctrl src (.result "EXT_WIDEN" rDone) }) ∧
      (e.state = 1 → ∃ t, exec (.extRevoke (.msg src a)) s = .next t ∧ t.store = s.store ∧
        (nget s.dev.home.infl a.index ≠ 0 → t.dev.ext a.index = { e with state := 2, gen := g }) ∧
        (nget s.dev.home.infl a.index ≠ 0 → s.dev.hasNode src = true → t.dev.out = s.dev.out ++ [.ctrl src (.result "EXT_REVOKE" rDone)]) ∧
        (nget s.dev.home.infl a.index = 0 → s.dev.hasNode src = true → s.dev.home.revs.find? (fun r => r.1 == a.index) = none →
          t.dev.ext a.index = { state := 0, region := 0, gen := nextGen g, bm := ⟨0, 0, 0, 0⟩ } ∧
          t.dev.out = s.dev.out ++ [.ctrl src (.result "EXT_REVOKE" rDone), .ctrl src (.revocation (natLE 2 a.index ++ natLE 2 (nextGen g) ++ natLE 4 0 ++
            natLE 8 s.dev.ns))])) ∧
      (e.state = 0 → exec (.extReserve (.msg src a)) s = .next { s with
        dev := (s.dev.setExt a.index { e with state := if a.protect then 5 else 3, bm := ⟨0, 0, 0, 0⟩, gen := g }).ctrl src (.result "EXT_RESERVE" rDone) }) ∧
      (e.state = 3 ∨ e.state = 5 → exec (.extRelease (.msg src a)) s = .next { s with
        dev := (s.dev.setExt a.index { e with state := 0, gen := g }).ctrl src (.result "EXT_RELEASE" rDone) }) ∧
      (e.state = 0 → exec (.extRevoke (.msg src a)) s = .next { s with dev := s.dev.ctrl src (.result "EXT_REVOKE" rNoChange) }) ∧
      (e.state = 4 → exec (.extGrant (.msg src a)) s = .next { s with dev := s.dev.ctrl src (.result "EXT_GRANT" rBadState) })) ∧
    (isFixedExt a.index = true → ∀ c ∈ [(Instr.extGrant (.msg src a), "EXT_GRANT"), (.extWiden (.msg src a), "EXT_WIDEN"),
      (.extRevoke (.msg src a), "EXT_REVOKE"), (.extReserve (.msg src a), "EXT_RESERVE"), (.extRelease (.msg src a), "EXT_RELEASE")],
      exec c.1 s = .next { s with dev := s.dev.ctrl src (.result c.2 rBadState) })) ∧
  (∀ (k : Nat) (s : State), s.dev.running = true → s.dev.rd F.PROT_CFG_PARTNER_EN = 0 →
    ((s.dev.ext k).state = 2 → nget s.dev.home.infl k = 0 → ∃ t, exec (.revocationComplete k) s = .next t ∧ t.store = s.store ∧
      t.dev.ext k = { s.dev.ext k with state := 0, region := 0, gen := nextGen (s.dev.ext k).gen, bm := ⟨0, 0, 0, 0⟩ } ∧
      (∀ j, j ≠ k → t.dev.ext j = s.dev.ext j)) ∧
    ((s.dev.ext k).state ≠ 2 ∨ nget s.dev.home.infl k ≠ 0 → exec (.revocationComplete k) s = .next s)) ∧
  (∀ (m : Master) (s : State), exec (.extGrant (.reg m)) s = exec (.registerWrite m 0x28114 4 (goWord F.HOME_CMD_OP 1 s)) s ∧
    exec (.extWiden (.reg m)) s = exec (.registerWrite m 0x28114 4 (goWord F.HOME_CMD_OP 2 s)) s ∧
    exec (.extRevoke (.reg m)) s = exec (.registerWrite m 0x28114 4 (goWord F.HOME_CMD_OP 3 s)) s ∧
    exec (.extReserve (.reg m)) s = exec (.registerWrite m 0x28114 4 (goWord F.HOME_CMD_OP 4 s)) s ∧
    exec (.extRelease (.reg m)) s = exec (.registerWrite m 0x28114 4 (goWord F.HOME_CMD_OP 5 s)) s)

/-- R75, R165, R172, R174, R175, R189–R191, R617: region commands, staging, and the upkeep of the tiers. REGION_CREATE sets a descriptor
that is not VALID, keeping its version, where PAGES and PT_BASE are in order; REGION_DESTROY clears VALID. HOME_BITMAP_CLR zeroes every
staging word. A patrol's next line alone is scrubbed: one wrong bit of a near line, or byte of a bulk line, is corrected and counted,
written back at once in the near tier, and in the bulk tier by its write-back, which mends the line. A 256-byte block of a bank group lies in one of 64 banks, in turn. A snapshot writes 3,232
records of 16 bytes to host memory and is BUSY until the last is visible. BULK_CFG takes a new INTERLEAVE only while no bulk extent is
in use. -/
def Obligations.RegionsAndUpkeep : Prop :=
  (∀ (src : Nat) (a : RegionArgs) (s : State), s.dev.running = true → s.dev.domOn 11 = true → quiet s.dev → s.dev.home.queue = [] →
    s.dev.fmAllowed src = true → s.dev.rd F.PROT_CFG_PARTNER_EN = 0 → a.index < 8192 →
    let e := s.dev.region a.index
    (e.valid = false → s.dev.regionOk a = true → exec (.regionCreate (.msg src a)) s = .next { s with
      dev := (s.dev.setRegion a.index { version := e.version, valid := true, cls := a.cls % 2, pages := a.pages, ptBase := a.ptBase % 2 ^ 52,
                                        publish := a.publish % 2 ^ 512 }).ctrl src (.result "REGION_CREATE" rDone) }) ∧
    (e.valid = false → s.dev.regionOk a = false → exec (.regionCreate (.msg src a)) s = .next { s with
      dev := s.dev.ctrl src (.result "REGION_CREATE" rBadState) }) ∧
    (e.valid = true → exec (.regionDestroy (.msg src a)) s = .next { s with
      dev := (s.dev.setRegion a.index { e with valid := false }).ctrl src (.result "REGION_DESTROY" rDone) }) ∧
    (e.valid = false → exec (.regionDestroy (.msg src a)) s = .next { s with dev := s.dev.ctrl src (.result "REGION_DESTROY" rNoChange) })) ∧
  (∀ (m : Master) (v : W32) (s : State), pageOpen s.dev m 0x28 → s.dev.owns m 0x28 = true → ∃ t, exec (.homeBitmapClr m v) s = .next t ∧
    t.store = s.store ∧ (∀ i < 64, t.dev.rdi F.HOME_BITMAP_BITS i = 0) ∧ t.dev.home = s.dev.home) ∧
  (∀ (off b : Nat) (m : Media) (s : State), s.dev.running = true → s.dev.domOn 11 = true → b < 576 →
    let i := off % 0xA0000000 / 64
    let l := metaLine0 + i
    (s.dev.patrolDue i 1 s.dev.home.nearPatrol = false → exec (.nearScrub off m) s = .next s) ∧
    (s.dev.patrolDue i 1 s.dev.home.nearPatrol = true → s.dev.linePowered l = true → s.dev.lineErr l = 0 →
      s.dev.rdp F.BLK_CTRL_CNT_FREEZE 0x29 = 0 → s.dev.counter 0x29 0 < 2 ^ 63 →
      ∃ t, exec (.nearScrub off ⟨[b]⟩) s = .next t ∧ t.store = s.store ∧ t.dev.counter 0x29 0 = s.dev.counter 0x29 0 + 1 ∧
        t.dev.lineErr l = 0 ∧ t.dev.home.nearPatrol = s.dev.patrolNext 0x2800000 s.dev.home.nearPatrol) ∧
    (nearGroup l = off % 0xA0000000 / 0x28000000 ∧ nearBank l = off % 0xA0000000 % 0x28000000 / 256 % 64)) ∧
  (∀ (off b : Nat) (m : Media) (s : State), s.dev.running = true → s.dev.domOn 11 = true → s.dev.home.ops = [] →
    let l := off % 0xC000000000 / 64
    let hours := s.dev.rd F.BULK_CFG_SCRUB_HOURS
    (hours = 0 ∨ s.dev.patrolDue l hours s.dev.home.bulkPatrol = false → exec (.bulkScrub off m) s = .next s) ∧
    (hours ≠ 0 → s.dev.patrolDue l hours s.dev.home.bulkPatrol = true → s.dev.linePowered l = true → s.dev.lineErr l = 0 →
      s.dev.rdp F.BLK_CTRL_CNT_FREEZE 0x2A = 0 → s.dev.counter 0x2A 0 < 2 ^ 63 →
      ∃ t, exec (.bulkScrub off ⟨[b]⟩) s = .next t ∧ t.store = s.store ∧ t.dev.counter 0x2A 0 = s.dev.counter 0x2A 0 + 1 ∧
        t.dev.lineErr l = 1 ∧ t.dev.home.fixes = s.dev.home.fixes ++ [(s.dev.placeOf l, false)] ∧
        t.dev.home.bulkPatrol = s.dev.patrolNext 0x300000000 s.dev.home.bulkPatrol) ∧
    (∀ k, s.dev.lineErr k ≠ 1 → exec (.correctionWriteback k) s = .next { s with
      dev := { s.dev with home := { s.dev.home with fixes := s.dev.home.fixes.filter (fun e => e.1 != s.dev.placeOf k) } } }) ∧
    (∀ k, s.dev.lineErr k = 1 → s.dev.home.fixes.contains (s.dev.placeOf k, false) = true → ∃ t, exec (.correctionWriteback k) s = .next t ∧
      t.store = s.store ∧ t.dev.lineErr k = 0 ∧ t.dev.home.fixes = s.dev.home.fixes.filter (fun e => e.1 != s.dev.placeOf k)) ∧
    (∀ dev b, ∃ t, exec (.refresh dev b) s = .next t ∧ t.store = s.store ∧ t.dev.regs = s.dev.regs ∧ t.dev.home = s.dev.home)) ∧
  (∀ (m : Master) (v : W32) (s : State), pageOpen s.dev m 0x2A → s.dev.owns m 0x2A = true → quiet s.dev →
    (fieldsTaken (tlp m s.dev) m 0x2A 0x100 v.toNat → ∃ t, exec (.bulkCfgWrite m v) s = .next t ∧ t.store = s.store ∧
      t.dev.rd F.BULK_CFG_INTERLEAVE = bits v.toNat 0 1) ∧
    (s.dev.bulkFree = false → (tlp m s.dev).anyReserved true 0x2A 0x100 v.toNat = false → ∃ t, exec (.bulkCfgWrite m v) s = .next t ∧
      t.store = s.store ∧ t.dev.rd F.BULK_CFG_INTERLEAVE = s.dev.rd F.BULK_CFG_INTERLEAVE ∧
      t.dev.rdp F.BLK_ERR_CNT_ERRORS 0x2A = satAdd 16 (s.dev.rdp F.BLK_ERR_CNT_ERRORS 0x2A) 1)) ∧
  (∀ (m : Master) (v : W32) (s : State), pageOpen s.dev m 0x2C → s.dev.owns m 0x2C = true → s.dev.rd F.SMP_SNAP_STAT_BUSY = 0 →
    s.dev.rd F.GLB_PIN_STAT_PERST = 0 →
    ∃ t, exec (.snapshot m v) s = .next t ∧ t.store = s.store ∧ t.dev.rd F.SMP_SNAP_STAT_BUSY = 1 ∧
      t.dev.out = s.dev.out ++ (List.range 3232).map (fun k => .hostWrite (s.dev.rd F.SMP_SNAP_BASE_LO_BASE_LO * 4096
        + s.dev.rd F.SMP_SNAP_BASE_HI_BASE_HI * 2 ^ 32 + 16 * k) (s.dev.smpRecord k))) ∧
  (∀ (s : State), s.dev.running = true → s.dev.rd F.SMP_SNAP_STAT_BUSY = 1 → ∃ t, exec .snapshotComplete s = .next t ∧ t.store = s.store ∧
    t.dev.rd F.SMP_SNAP_STAT_BUSY = 0 ∧ bit (t.dev.word 0x2C014) 0 = true ∧
    t.dev.rd F.SMP_SNAP_STAT_DONE_COUNT = (s.dev.rd F.SMP_SNAP_STAT_DONE_COUNT + 1) % 65536)

/-! ### Protection (R195–R230, R622) -/

/-- R197, R198, R203–R213, R217, R218, R622: binds and the traffic of protection, at a package that has no partner of its own. A bind of a
FREE extent sets its entry and is DONE; a holder's starts by rebuilding the first line of its parity from the eight others, and is DONE when
every line of the extent is computed, BAD_STATE if one could not be (the model's choice, log entry 58); a delta is added (exclusive or) to its line, a mirror write takes its
line's place, a journal message enters the ward's shadow, each answered OK. -/
def Said.ProtectionIn : Prop :=
  (∀ (src k word : Nat) (s : State), s.dev.running = true → s.dev.domOn 11 = true → quiet s.dev → s.dev.home.queue = [] →
    s.dev.fmAllowed src = true → s.dev.home.bindBusy = none → s.dev.rd F.PROT_CFG_PARTNER_EN = 0 → k < 3232 →
    (protOfWord word).mode ≤ 4 → bit word 15 = false → bits word 28 4 = 0 →
    { protOfWord word with degraded := (s.dev.prot k).degraded } ≠ s.dev.prot k →
    let e := s.dev.setProt k { protOfWord word with degraded := (s.dev.prot k).degraded }
    ((s.dev.ext k).state = 0 → (protOfWord word).mode ≠ 2 → exec (.protBind (.msg src ⟨k, word, false⟩)) s =
      .next { s with dev := e.ctrl src (.result "PROT_BIND" rDone) }) ∧
    ((s.dev.ext k).state = 0 → (protOfWord word).mode = 2 → (∀ c ∈ s.dev.home.recons, c.why ≠ .bind) →
      let y := Pkg.startRecon s.dev.node k 0 (s.dev.ownPosition s.dev.node) (s.dev.ownPosition s.dev.node) .bind
        (s.store, { e with home := { e.home with bindBusy := some (k, some src, 0, false) } }.wr F.PROT_BIND_RESULT_BUSY 1)
      exec (.protBind (.msg src ⟨k, word, false⟩)) s = .next (withPkg s (Pkg.settle (Pkg.pump y))) ∧ y.1 = s.store ∧
      y.2.rd F.PROT_BIND_RESULT_BUSY = 1 ∧ y.2.home.bindBusy = some (k, some src, 0, false) ∧
      ∃ c, y.2.home.recons = s.dev.home.recons ++ [c] ∧ c.ext = k ∧ c.off = 0 ∧ c.why = .bind ∧
        c.waiting = (List.range 9).filter (fun q => q != s.dev.ownPosition s.dev.node)) ∧
    ((s.dev.ext k).state = 1 → exec (.protBind (.msg src ⟨k, word, false⟩)) s =
      .next { s with dev := s.dev.ctrl src (.result "PROT_BIND" rBadState) })) ∧
  (∀ (k n : Nat) (bad : Bool) (s : State), s.dev.running = true → s.dev.domOn 11 = true → s.dev.rd F.PROT_CFG_PARTNER_EN = 0 →
    (s.dev.home.bindBusy = none → exec (.parityComputeDone k n) s = .next s) ∧
    (∀ who i m, s.dev.home.bindBusy = some (i, who, m, bad) → m < extSize i ∨ i ≠ k ∨ m ≠ 64 * n →
      exec (.parityComputeDone k n) s = .next s) ∧
    (∀ src, s.dev.home.bindBusy = some (k, some src, 64 * n, bad) → extSize k ≤ 64 * n → exec (.parityComputeDone k n) s = .next { s with
      dev := ({ s.dev with home := { s.dev.home with bindBusy := none } }.wr F.PROT_BIND_RESULT_BUSY 0).ctrl src
        (.result "PROT_BIND" (if bad then rBadState else rDone)) }) ∧
    (s.dev.home.bindBusy = some (k, none, 64 * n, bad) → extSize k ≤ 64 * n → ∃ t, exec (.parityComputeDone k n) s = .next t ∧ t.store = s.store ∧
      t.dev.home.bindBusy = none ∧ t.dev.rd F.PROT_BIND_RESULT_BUSY = 0 ∧
      t.dev.rd F.PROT_BIND_RESULT_RESULT = (if bad then rBadState else rDone) ∧ bit (t.dev.word 0x2B014) 0 = true)) ∧
  (∀ (m : DeltaMsg) (s : State), homeUp s → m.forNode = s.dev.node → m.manifest < 65536 → m.ext < 3232 →
    (s.dev.ord (s.dev.ordKey s.dev.node m.src 5)).st = .normal → (s.dev.ord (s.dev.ordKey s.dev.node m.src 5)).expect = m.manifest →
    gpaOk (extGpa m.forNode m.ext m.off) = true → (s.dev.prot m.ext).mode = 2 → (s.dev.positionOf m.member).isSome = true →
    s.dev.linePowered (extGpa m.forNode m.ext m.off / 64 % 2 ^ 39) = true →
    let l := extBase m.ext / 64 + m.off / 64
    s.dev.lineErr l ≠ 2 → ∃ t, exec (.parityDelta m) s = .next t ∧
      t.store = s.store.setLine (s.dev.placeOf l) (xorBytes (Pkg.cipher (s.store, s.dev) l) (sliceBytes m.bytes 0 64)) .raw ∧
      t.dev.out = (s.dev.respond (protHdr m.src m.tag m.manifest m.ticket m.cmark) sOk []).out) ∧
  (∀ (m : MirrorMsg) (s : State), homeUp s → m.forNode = s.dev.node → m.manifest < 65536 → m.ext < 3232 →
    (s.dev.ord (s.dev.ordKey s.dev.node m.src 5)).st = .normal → (s.dev.ord (s.dev.ordKey s.dev.node m.src 5)).expect = m.manifest →
    gpaOk (extGpa m.forNode m.ext m.off) = true → (s.dev.ext m.ext).state ≠ 3 → s.dev.ticketOk m.ticket = true →
    (s.dev.prot m.ext).mode = 4 → (s.dev.prot m.ext).peerNode = m.ward → (s.dev.prot m.ext).peerExt = m.wardExt →
    s.dev.shadowRoom m.ward = true → m.bytes.length = 64 → s.dev.linePowered (extGpa m.forNode m.ext m.off / 64 % 2 ^ 39) = true → ∃ t, exec (.mirrorWrite m) s = .next t ∧
      t.store = s.store.setLine (s.dev.placeOf (extGpa m.forNode m.ext m.off / 64 % 2 ^ 39)) m.bytes .raw ∧
      t.dev.out = (s.dev.respond (protHdr m.src m.tag m.manifest m.ticket m.cmark) sOk []).out) ∧
  (∀ (m : JournalMsg) (s : State), homeUp s → m.forNode = s.dev.node → m.manifest < 65536 →
    (s.dev.ord (s.dev.ordKey s.dev.node m.src 5)).st = .normal → (s.dev.ord (s.dev.ordKey s.dev.node m.src 5)).expect = m.manifest →
    s.dev.shadowRoom m.ward = true → ∃ t, exec (.journalMessage m) s = .next t ∧ t.store = s.store ∧
      t.dev.shadow m.ward = (s.dev.shadow m.ward).record m.record ∧
      t.dev.out = (s.dev.respond (protHdr m.src m.tag m.manifest m.ticket m.cmark) sOk []).out)

/-- R205, R207–R210, R213, R622: answers to protection traffic. A data home writes its line when the delta is answered, and the operation
may then be performed; so too once the mirror write or the journal message is answered; NODE_LOST from the partner marks it lost.
A survivor answers RC_READ with the line as it stands, DATA_ERROR where its code cannot correct it, and holds it until RC_RELEASE or the
request timeout. The last answer of a repair sends the line rebuilt to the parity's holder, that of a holder's bind writes its parity line;
a line that is not logged needs no repair. -/
def Said.ProtectionAnswers : Prop :=
  (∀ (o : HOp) (w : LineW) (q : OutReq) (s : State), s.dev.running = true → s.dev.domOn 11 = true → s.dev.home.ops = [o] →
    s.dev.home.queue = [] → noneAtHome s.dev → s.dev.home.aliases = [] → s.dev.src.reqs = [q] → q.acc.eng = 5 → s.dev.expired q = false →
    s.dev.src.held = [] → o.node = s.dev.node → o.kind = .write → o.status = sOk →
    (q.acc.purpose = .delta o.id w.line → o.phase = .protect → o.deltas = [w.line] → o.copies = 0 → o.applied = false → o.ws = [w] → ∃ t,
      exec (.deltaAnswer o.id w.line sOk) s = .next t ∧ t.store = (Pkg.applyLine w (s.store, s.dev)).1 ∧
      t.dev.home.ops = [{ o with deltas := [], applied := true, phase := .ready }]) ∧
    (q.acc.purpose = .mirrorCopy o.id → o.phase = .protect → o.deltas = [] → o.copies = 1 → ∃ t, exec (.mirrorAnswer o.id sOk) s = .next t ∧ t.store = s.store ∧
      t.dev.home.ops = [{ o with copies := 0, phase := .ready }]) ∧
    (q.acc.purpose = .mirrorCopy o.id → o.phase = .protect → o.deltas = [] → o.copies = 1 → s.dev.rd F.PROT_CFG_PARTNER_EN = 1 → ∃ t,
      exec (.mirrorAnswer o.id sNodeLost) s = .next t ∧ t.store = s.store ∧ t.dev.home.partnerLost = true ∧
      t.dev.home.ops = [{ o with copies := 0, phase := .ready }]) ∧
    (q.acc.purpose = .journal o.id → o.phase = .journal → (s.dev.prot o.ext).mode ≠ 1 → ∃ t, exec (.journalAnswer o.id sOk) s = .next t ∧ t.store = s.store ∧
      t.dev.home.ops = [{ o with phase := .ready }])) ∧
  (∀ (m : RcMsg) (s : State), homeUp s → m.ext < 3232 → m.parity = false →
    let l := extBase m.ext / 64 + m.off / 64
    (s.dev.linePowered (extGpa s.dev.node m.ext m.off / 64 % 2 ^ 39) = true → ∃ t v, exec (.rcRead m) s = .next t ∧ t.store = s.store ∧
      t.dev.home.rcHolds = [⟨m.ext, m.off, m.src, s.dev.tim.tide⟩] ∧ (s.dev.lineErr l = 2 → v.length = 64) ∧
      (s.dev.lineErr l ≠ 2 → v = Pkg.cipher (s.store, s.dev) l) ∧
      (s.dev.hasNode m.src = true → t.dev.out.getLast? = (s.dev.respond (protHdr m.src m.tag 0 m.ticket m.cmark)
        (if s.dev.lineErr l = 2 then sDataError else sOk)
        (natLE 1 (b2n (s.dev.home.stale.contains (extGpa s.dev.node m.ext m.off / 64))) ++ v)).out.getLast?))) ∧
  (∀ (h : RcHold) (m : RcMsg) (s : State), s.dev.running = true → s.dev.domOn 11 = true → s.dev.home.queue = [] → noneAtHome s.dev →
    s.dev.home.rcHolds = [h] →
    (m.ext = h.ext → m.off = h.off → m.src = h.by_ → ∃ t, exec (.rcRelease m) s = .next t ∧ t.store = s.store ∧ t.dev.home.rcHolds = []) ∧
    (m.src ≠ h.by_ → exec (.rcRelease m) s = .next s) ∧
    (h.by_ ≠ s.dev.node → h.since + us (s.dev.rd F.RCV_CFG_REQ_TIMEOUT_US) ≤ s.dev.tim.tide → ∃ t, exec (.rcHoldTimeout h.ext h.off) s = .next t ∧
      t.store = s.store ∧ t.dev.home.rcHolds = []) ∧
    (s.dev.tim.tide < h.since + us (s.dev.rd F.RCV_CFG_REQ_TIMEOUT_US) → exec (.rcHoldTimeout h.ext h.off) s = .next s)) ∧
  (∀ (c : Recon) (p : Nat) (data : List Byte) (q : OutReq) (s : State), s.dev.running = true → s.dev.domOn 11 = true →
    s.dev.home.queue = [] → s.dev.home.gate = [] → s.dev.home.store = [] → s.dev.home.recons = [c] → c.waiting = [p] → c.own = [] →
    c.parityDone = true → c.failed = false → c.held = [] → s.dev.src.reqs = [q] → q.acc.eng = 5 → q.acc.purpose = .rcRead c.id p →
    s.dev.expired q = false → s.dev.src.held = [] → s.dev.src.resyncs = [] →
    let v := xorBytes c.acc (sliceBytes data 0 64)
    let dest := s.dev.groupOf c.node (s.dev.protOf c.node c.ext).holder
    (∀ line, c.why = .repair line → s.dev.hasNode dest = true → ∃ t tag, exec (.reconstructAnswer c.id p sOk false data) s = .next t ∧
      t.store = s.store ∧ t.dev.home.recons = [] ∧ t.dev.home.stale = s.dev.home.stale.filter (fun l => l != line) ∧
      t.dev.out = s.dev.out ++ [.rebuild dest ⟨s.dev.node, s.dev.node, s.dev.rd F.RCV_GEN_GEN, .line c.ext c.off v, s.dev.ticket, tag,
        nget s.dev.src.mani (pairKey 5 dest), 0, 0⟩]) ∧
    (∀ who bad, c.why = .bind → s.dev.home.bindBusy = some (c.ext, who, c.off, bad) → extSize c.ext ≤ c.off + 64 → ∃ t,
      exec (.reconstructAnswer c.id p sOk false data) s = .next t ∧ t.dev.home.recons = [] ∧
      t.store = s.store.setLine (s.dev.placeOf (extBase c.ext / 64 + c.off / 64)) v .raw ∧ t.dev.home.bindBusy = some (c.ext, who, c.off + 64, bad))) ∧
  (∀ (src line : Nat) (s : State), s.dev.running = true → s.dev.domOn 11 = true → s.dev.fmAllowed src = true → noneAtHome s.dev →
    (s.dev.home.stale.contains line = false → exec (.protRepair src line) s = .next { s with
      dev := s.dev.ctrl src (.result "PROT_REPAIR" rNoChange) }) ∧
    (s.dev.home.stale.contains line = true → (s.dev.prot (gpaExt (line * 64))).mode = 1 → s.dev.home.queue = [] →
      (∃ p < 9, p ≠ (s.dev.prot (gpaExt (line * 64))).holder ∧ s.dev.member p ≠ s.dev.node) → ∃ t c, exec (.protRepair src line) s = .next t ∧
      t.store = s.store ∧ t.dev.home.recons = [c] ∧ c.why = .repair line ∧ c.ext = gpaExt (line * 64) ∧ c.off = lineOff line ∧
      (s.dev.hasNode src = true → t.dev.out.getLast? = some (.ctrl src (.result "PROT_REPAIR" rDone)))))

/-- Binds, protection traffic and its answers. -/
def Obligations.Protection : Prop := Said.ProtectionIn ∧ Said.ProtectionAnswers

/-- R196, R215, R219–R226, R499: loss and takeover. PROT_MEMBER_LOST sets the member's LOST bit; a lower generation is BAD_STATE;
PROT_STANDIN makes a ward's node ID the ALIAS; PROT_MEMBER_RESTORE resumes its deltas; REBUILD_START needs a spare and begins phase 1; the
first copy takes the spare to RESYNC, and its line replaces the one that stood; the end of phase 4 is REBUILD_READY; ALIAS_CLEAR drops the
ALIAS; a ward takes the spare for its partner; phase 5 waits for every ward; REBUILD_DONE clears LOST. The configuration registers take the values written. -/
def Obligations.Takeover : Prop :=
  (∀ (src : Nat) (a : NodeGen) (s : State), s.dev.running = true → s.dev.domOn 11 = true → s.dev.fmAllowed src = true → a.node < 128 →
    (a.gen < s.dev.rd F.RCV_GEN_GEN →
      exec (.protMemberLost src a) s = .next { s with dev := s.dev.ctrl src (.result "PROT_MEMBER_LOST" rBadState) } ∧
      exec (.protStandin src a) s = .next { s with dev := s.dev.ctrl src (.result "PROT_STANDIN" rBadState) } ∧
      exec (.protMemberRestore src a) s = .next { s with dev := s.dev.ctrl src (.result "PROT_MEMBER_RESTORE" rBadState) }) ∧
    (a.gen = s.dev.rd F.RCV_GEN_GEN →
      (∀ p, s.dev.positionOf a.node = some p → bit (s.dev.rd F.PROT_GROUP_LOST) p = false → ∃ t, exec (.protMemberLost src a) s = .next t ∧
        t.store = s.store ∧ bit (t.dev.rd F.PROT_GROUP_LOST) p = true ∧
        (s.dev.hasNode src = true → t.dev.out.getLast? = some (.ctrl src (.result "PROT_MEMBER_LOST" rDone)))) ∧
      (∀ p, s.dev.positionOf a.node = some p → s.dev.home.resumed.contains p = false → ∃ t,
        exec (.protMemberRestore src a) s = .next t ∧ t.store = s.store ∧
        t.dev.home = { s.dev.home with resumed := s.dev.home.resumed ++ [p] } ∧
        (s.dev.hasNode src = true → t.dev.out = s.dev.out ++ [.ctrl src (.result "PROT_MEMBER_RESTORE" rDone)])) ∧
      (∀ sh, s.dev.home.aliases.any (fun e => e.1 == a.node) = false → s.dev.stage ≠ 3 →
        s.dev.home.shadows.find? (fun h => h.ward == a.node) = some sh → ∃ t,
        exec (.protStandin src a) s = .next t ∧ t.store = s.store ∧ t.dev.home.aliases = s.dev.home.aliases ++ [(a.node, true)] ∧
        t.dev.rd F.PROT_CFG_ALIAS_EN = 1 ∧ t.dev.rd F.PROT_CFG_ALIAS_NODE = a.node ∧ (s.dev.hasNode src = true → t.dev.out = s.dev.out ++ [.ctrl src (.result "PROT_STANDIN" rDone)])) ∧
      (∀ spare st lt, s.dev.home.rebuild = none → exec (.rebuildStart src a spare false st lt) s = .next { s with
        dev := s.dev.ctrl src (.result "REBUILD_START" rBadState) }) ∧
      (∀ spare st, s.dev.home.rebuild = none → s.dev.stands a.node = true → s.dev.rd F.PROT_GROUP_GROUP_EN = 0 →
        (∀ e ∈ (s.dev.shadow a.node).prot, e.2.mode ≠ 1 ∧ e.2.mode ≠ 2) → s.dev.trayOf spare ≠ s.dev.trayOf s.dev.node →
        s.dev.hasNode spare = true → ∃ t r, exec (.rebuildStart src a spare true st st) s = .next t ∧ t.store = s.store ∧
        t.dev.rd F.PROT_REBUILD_STAT_PHASE = 1 ∧ t.dev.home.rebuild = some r ∧ r.lost = a.node ∧ r.spare = spare ∧ r.phase = 1 ∧ r.fm = src ∧
        (∃ o ∈ t.dev.src.reqs ++ t.dev.src.held, o.acc.eng = 5 ∧ o.dest = spare ∧ ∃ m, o.msg = .rebuild spare m ∧ m.node = a.node ∧
          m.gen = a.gen ∧ m.item = .phaseEnd 1) ∧
        (s.dev.hasNode src = true → .ctrl src (.result "REBUILD_START" rDone) ∈ t.dev.out))) ∧
    (s.dev.home.aliases.any (fun e => e.1 == a.node) = false → exec (.aliasClear src a.node) s = .next { s with
      dev := s.dev.ctrl src (.result "ALIAS_CLEAR" rNoChange) }) ∧
    (s.dev.home.aliases.any (fun e => e.1 == a.node) = true → s.dev.home.rebuild = none → ∃ t, exec (.aliasClear src a.node) s = .next t ∧
      t.store = s.store ∧ t.dev.home.aliases = s.dev.home.aliases.filter (fun e => e.1 != a.node) ∧
      (s.dev.hasNode src = true → t.dev.out = s.dev.out ++ [.ctrl src (.result "ALIAS_CLEAR" rDone)]))) ∧
  (∀ (m : RebuildMsg) (s : State), homeIdle s → m.manifest < 65536 → (s.dev.ord (s.dev.ordKey s.dev.node m.src 5)).st = .normal →
    (s.dev.ord (s.dev.ordKey s.dev.node m.src 5)).expect = m.manifest → s.dev.stage = 2 →
    (∀ k off v, s.dev.rd F.PROT_CFG_ROLE = 1 → s.dev.rd F.RCV_GEN_GEN ≤ m.gen → m.item = .line k off v → k < 3232 → off < extSize k →
      isTableLine (extBase k / 64 + off / 64) = false → s.dev.linePowered (extGpa s.dev.node k off / 64 % 2 ^ 39) = true → ∃ t, exec (.rebuildCopy m.src m.node m.gen ⟨m.item, m.ticket, m.tag, m.manifest, m.cmark⟩) s = .next t ∧ t.dev.stage = 3 ∧
      t.dev.home.rebuildFrom = some m.src ∧ t.store = s.store.setLine (s.dev.placeOf (extBase k / 64 + off / 64)) (sliceBytes v 0 64) .raw ∧
      t.dev.out = (s.dev.respond (protHdr m.src m.tag m.manifest m.ticket m.cmark) sOk []).out) ∧
    (m.gen < s.dev.rd F.RCV_GEN_GEN ∨ s.dev.rd F.PROT_CFG_ROLE ≠ 1 → ∃ t, exec (.rebuildCopy m.src m.node m.gen ⟨m.item, m.ticket, m.tag, m.manifest, m.cmark⟩) s = .next t ∧ t.store = s.store ∧
      t.dev.stage = 2 ∧ (s.dev.hasNode m.src = true →
        t.dev.out.getLast? = (s.dev.respond (protHdr m.src m.tag m.manifest m.ticket m.cmark) sRights []).out.getLast?))) ∧
  (∀ (r : Rebuild) (s : State), s.dev.running = true → s.dev.domOn 11 = true → s.dev.home.rebuild = some r → s.dev.home.queue = [] →
    noneAtHome s.dev →
    (∀ p, p ≠ r.phase → exec (.rebuildPhaseAck p) s = .next s) ∧
    (r.phase = 4 → r.todo = [] → ∃ t, exec (.rebuildPhaseAck 4) s = .next t ∧ t.store = s.store ∧ t.dev.rd F.PROT_REBUILD_STAT_PHASE = 6 ∧
      t.dev.home.rebuild = some { r with phase := 6 } ∧
      (s.dev.hasNode r.fm = true → t.dev.out.getLast? = some (.ctrl r.fm (.rebuildReady r.lost)))) ∧
    (∀ src, r.phase = 5 → r.wards.filter (fun w => w != src) ≠ [] → ∃ t, exec (.rebuildDone ⟨src, r.lost⟩) s = .next t ∧
      t.store = s.store ∧ t.dev.out = s.dev.out ∧ t.dev.home.rebuild = some { r with
        wards := r.wards.filter (fun w => w != src), acked := r.items - (r.wards.filter (fun w => w != src)).length })) ∧
  (∀ (src lost spare : Nat) (s : State), s.dev.running = true → s.dev.domOn 11 = true → spare < 128 →
    (s.dev.rd F.PROT_CFG_PARTNER_EN = 0 → exec (.wardsPhase src lost spare) s = .next s) ∧
    (s.dev.rd F.PROT_CFG_PARTNER_EN = 1 → s.dev.partner = lost → ∃ t, exec (.wardsPhase src lost spare) s = .next t ∧ t.store = s.store ∧
      t.dev.partner = spare ∧ t.dev.home.partnerLost = false ∧ ∃ w, t.dev.home.wardRun = some w ∧ w.standin = src ∧ w.lost = lost ∧
        3072 ∈ w.left ∧ ∀ e ∈ s.dev.home.prot, e.2.mode = 3 → e.1 ∈ w.left)) ∧
  (∀ (src lost p : Nat) (s : State), s.dev.running = true → s.dev.home.rebuild = none → s.dev.positionOf lost = some p → ∃ t,
    exec (.rebuildDone ⟨src, lost⟩) s = .next t ∧ t.store = s.store ∧ bit (t.dev.rd F.PROT_GROUP_LOST) p = false ∧
      t.dev.home.resumed.contains p = false) ∧
  (∀ (m : Master) (v : W32) (s : State), pageOpen s.dev m 0x2B → s.dev.owns m 0x2B = true →
    (fieldsTaken (tlp m s.dev) m 0x2B 0x100 v.toNat → ∃ t, exec (.protCfgWrite m v) s = .next t ∧ t.store = s.store ∧
      t.dev.rd F.PROT_CFG_PARTNER = bits v.toNat 0 7 ∧ t.dev.rd F.PROT_CFG_PARTNER_EN = bits v.toNat 7 1 ∧
      t.dev.rd F.PROT_CFG_META_COPY = bits v.toNat 24 8 ∧
      t.dev.rd F.PROT_CFG_ALIAS_EN = s.dev.rd F.PROT_CFG_ALIAS_EN ∧ t.dev.home = s.dev.home) ∧
    (fieldsTaken (tlp m s.dev) m 0x2B 0x104 v.toNat → ∃ t, exec (.protGroupWrite m 0 v) s = .next t ∧ t.store = s.store ∧
      t.dev.rd F.PROT_GROUP_GROUP_EN = bits v.toNat 0 1 ∧ t.dev.rd F.PROT_GROUP_POSITION = bits v.toNat 1 4 ∧
      t.dev.rd F.PROT_GROUP_LOST = s.dev.rd F.PROT_GROUP_LOST) ∧
    (fieldsTaken (tlp m s.dev) m 0x2B 0x108 v.toNat → ∃ t, exec (.protGroupWrite m 1 v) s = .next t ∧ t.store = s.store ∧
      (∀ p < 4, t.dev.member p = bits v.toNat (8 * p) 7)))

/-! ### Arrays (R247–R279, R291, R559) -/

/-- R247–R250, R257, R269–R272: the instructions of an array program, on a slice that runs. Each moves its slice on and leaves every bank
but its own as it is. LOOP opens its body or skips it; MAC adds the exact sum of each handshake's products to INT32 accumulators, which
saturate; ELT replaces each accumulator by its sum, product, maximum or copy; ROWRED leaves a row's reduction in all its cells; CMPX orders
column pairs and moves index registers with them; IDX loads these; DRAIN starts the writes of the tile, and moves to the next one; END frees
the array. Sums of a pair of MX blocks that a MAC has left open reach the banks that an instruction uses first: `d` of those (R248). -/
def Said.ArrayInstructions : Prop :=
  ∀ (a : Fin 16) (n : ArrNow) (s : State),
    let d := fun (banks : List Nat) => s.dev.macFlush a banks
    let pair := fun (b : Nat) => ∃ p ∈ (s.dev.arr a).pend, p.1 = b
    (∀ banks, (∀ b ∈ banks, ¬ pair b) → d banks = s.dev) ∧
    (arrRuns a opLoop n s →
      (1 ≤ n.i.count → 1 ≤ n.i.imm % 256 → ∃ t, exec (.arrLoop a) s = .next t ∧ t.store = s.store ∧
        (t.dev.arr a).banks = (s.dev.arr a).banks ∧ (t.dev.arr a).slice = some { n.s with
          pc := n.s.pc + 1, loops := (n.s.pc + 1, n.s.pc + 1 + n.i.imm % 256, n.i.count) :: n.s.loops }) ∧
      (n.i.count = 0 → ∃ t, exec (.arrLoop a) s = .next t ∧ t.store = s.store ∧ (t.dev.arr a).banks = (s.dev.arr a).banks ∧
        (t.dev.arr a).slice = some { n.s with
          pc := (loopNext n.s.loops (n.s.pc + 1 + n.i.imm % 256)).1, loops := (loopNext n.s.loops (n.s.pc + 1 + n.i.imm % 256)).2 })) ∧
    (arrRuns a opMac n s → (∀ l ∈ n.macLines, s.dev.linePowered l = true) → ∀ near bulk,
      ∃ t, exec (.arrMac a near bulk) s = .next t ∧ t.store = s.store ∧
        (t.dev.arr a).slice = some { n.past with kpos := n.s.kpos + n.i.count * n.per } ∧
        (∀ b, b ≠ n.i.bank → t.dev.bank a b = s.dev.bank a b) ∧
        (near = [] → bulk = [] → (∀ l ∈ n.macLines, s.dev.lineErr l ≠ 2) → ¬ pair n.i.bank → progInt n.image = true → (fmtWord (progB n.image)).mx = false → ∀ tm tn, n.tile = some (tm, tn) → ∀ r < 64, ∀ c < 64,
          cell (t.dev.bank a n.i.bank) r c = (List.range n.i.count).foldl (fun (acc : Nat) (h : Nat) => (int32Add acc
              ((List.range' (n.s.kpos + h * n.per) n.per).map (fun k =>
                n.int (s.store, s.dev) n.i.slot n.o.rowsM n.s.k1 (64 * tm + r) k *
                n.int (s.store, s.dev) (n.i.imm % 8) n.s.k1 n.o.colsN k (64 * tn + c))).sum).1)
            (if n.i.sub % 2 = 1 then 0 else cell (s.dev.bank a n.i.bank) r c))) ∧
    (arrRuns a opElt n s → (∀ l ∈ n.eltLines, s.dev.linePowered l = true) → ∀ near bulk, ∃ t, exec (.arrElt a near bulk) s = .next t ∧
      t.store = s.store ∧ (t.dev.arr a).slice = some n.past ∧
      (∀ b, b ≠ n.i.bank → (8 ≤ n.i.sub → b ≠ n.i.imm % 4) → t.dev.bank a b = s.dev.bank a b) ∧
      (n.eltLines = [] ∨ ¬ pair n.i.bank → ∀ r < 64, ∀ c < 64,
        let e := d (n.i.bank :: (if 8 ≤ n.i.sub then [n.i.imm % 4] else []))
        let sound := near = [] ∧ bulk = [] ∧ ∀ l ∈ n.eltLines, s.dev.lineErr l ≠ 2
        let p := cell (e.bank a n.i.bank) r c
        let q := cell (e.bank a (n.i.imm % 4)) r c
        let v := cell (t.dev.bank a n.i.bank) r c
        let int := progInt n.image
        let vec := fun (i : Nat) => (Pkg.spanElem n.o n.i.slot 0 i [] (s.store, s.dev)).getD .nan
        (n.i.sub = 0 → v = 0) ∧ (n.i.sub = 1 → v = (fp32Add p (fp32.value n.i.imm)).1) ∧
        (n.i.sub = 2 → v = (fp32Mul p (fp32.value n.i.imm)).1) ∧ (n.i.sub = 3 → sound → v = (fp32Add p (vec r)).1) ∧
        (n.i.sub = 4 → sound → v = (fp32Add p (vec c)).1) ∧ (n.i.sub = 5 → sound → v = (fp32Mul p (vec r)).1) ∧
        (n.i.sub = 6 ∨ n.i.sub = 7 → fp32.value p = .nan → v = fp32.nan) ∧
        (n.i.sub = 8 → int = true → (v = p ∨ v = q) ∧ toSigned 32 v = max (toSigned 32 p) (toSigned 32 q)) ∧
        (n.i.sub = 9 → v = if int then (int32Add p (toSigned 32 q)).1 else (fp32Add p (fp32.value q)).1) ∧
        (n.i.sub = 10 → int = true → v = (int32Add p (-(toSigned 32 q))).1) ∧ (n.i.sub = 11 → v = q))) ∧
    (arrRuns a opRowred n s → ∃ t, exec (.arrRowred a) s = .next t ∧ t.store = s.store ∧ (t.dev.arr a).slice = some n.past ∧
      (∀ b, b ≠ n.i.bank → t.dev.bank a b = s.dev.bank a b) ∧ ∀ r < 64,
        (∀ c < 64, cell (t.dev.bank a n.i.bank) r c = cell (t.dev.bank a n.i.bank) r 0) ∧
        (progInt n.image = true → n.i.sub = 1 →
          (∃ c < 64, cell (t.dev.bank a n.i.bank) r 0 = cell ((d [n.i.bank]).bank a n.i.bank) r c) ∧
          ∀ c < 64, toSigned 32 (cell ((d [n.i.bank]).bank a n.i.bank) r c) ≤ toSigned 32 (cell (t.dev.bank a n.i.bank) r 0)) ∧
        (progInt n.image = true → n.i.sub = 0 →
          ((List.range 64).map (fun c => (toSigned 32 (cell ((d [n.i.bank]).bank a n.i.bank) r c)).natAbs)).sum < 2 ^ 31 →
          cell (t.dev.bank a n.i.bank) r 0 =
            ofSigned 32 ((List.range 64).map (fun c => toSigned 32 (cell ((d [n.i.bank]).bank a n.i.bank) r c))).sum)) ∧
    (arrRuns a opCmpx n s → ∃ t, exec (.arrCmpx a) s = .next t ∧ t.store = s.store ∧ (t.dev.arr a).slice = some n.past ∧
      (∀ b, b ≠ n.i.bank → t.dev.bank a b = s.dev.bank a b) ∧ ∀ r < 64, ∀ c < 64,
        let e := Nat.xor c (n.i.imm % 64)
        let p := fun (k : Nat) => (cell ((d [n.i.bank]).bank a n.i.bank) r k, cell (s.dev.arr a).index r k)
        let q := fun (k : Nat) => (cell (t.dev.bank a n.i.bank) r k, cell (t.dev.arr a).index r k)
        ((q c = p c ∧ q e = p e) ∨ (q c = p e ∧ q e = p c)) ∧
        (progInt n.image = true → c < e → if n.i.sub % 2 = 0 then toSigned 32 (q e).1 ≤ toSigned 32 (q c).1
          else toSigned 32 (q c).1 ≤ toSigned 32 (q e).1)) ∧
    (arrRuns a opIdx n s → ∃ t, exec (.arrIdx a) s = .next t ∧ t.store = s.store ∧ (t.dev.arr a).slice = some n.past ∧
      (t.dev.arr a).banks = (s.dev.arr a).banks ∧
      ∀ r < 64, ∀ c < 64, cell (t.dev.arr a).index r c = if n.i.sub % 2 = 0 then c else r) ∧
    (arrRuns a opDrain n s → ∃ e, (e.arr a).slice = some { n.past with tiles := n.s.tiles.drop 1, kpos := n.s.k0 } ∧
      (e.arr a).banks = ((s.dev.macFlushAll a).arr a).banks ∧ (n.s.tiles = [] → e.fry.xfers = s.dev.fry.xfers) ∧
      (∀ tm tn, n.tile = some (tm, tn) → 64 * tm < n.o.rowsM → 64 * tn < n.o.colsN → 1 ≤ n.i.count → n.i.sub = 2 →
        (n.o.slot n.i.slot).lva = false → ∃ x ∈ e.fry.xfers, x.op = n.s.op ∧ x.key = .drain a ∧ x.kind = .write ∧
          ((x.parts.head?).map (·.gpa)) = some (((n.o.slot n.i.slot).addr + 64 * tm * (n.o.slot n.i.slot).stride + 256 * tn) % 2 ^ 52)) ∧
      exec (.arrDrain a) s = .next (withPkg s (Pkg.settle (s.store, e)))) ∧
    (arrRuns a opEnd n s → ∃ t, exec (.endSlice a) s = .next t ∧ t.store = s.store ∧ (t.dev.arr a).slice = none ∧
      (t.dev.arr a).banks = ((s.dev.macFlushAll a).arr a).banks ∧ (t.dev.arr a).lastRun = s.dev.tim.tide ∧
      ∀ j, s.dev.job n.s.op = some j → t.dev.job n.s.op = some { j with left := j.left - 1 })

/-- R262, R273, R274, R277–R279, R291, R559: array jobs. The next slice of a job goes to a free array of its mask, with the tiles and the K
run that its number gives; an array that holds the program runs it at once, another reads the image first. An image that R273 refuses ends
the job with RIGHTS, captured at the array; a good one becomes resident. A job is complete when its slices have ended and none of its
accesses is open. PNT_PROG_INV drops the programs it names. A pair turns on when asked for, and off when idle, its arrays fresh. -/
def Said.ArrayJobs : Prop :=
  (∀ (op : Nat) (a : Fin 16) (o : FOp) (j : Job) (num : Nat) (rest : List Nat) (s : State), s.dev.running = true → s.dev.domOn 11 = true →
    shaped s.dev → s.dev.fop op = some o → s.dev.job op = some j → j.toIssue = num :: rest →
    let sl : ArrSlice := { op := op, num := num, store := 0, tiles := o.sliceTiles num, k0 := (o.sliceK num).1, k1 := (o.sliceK num).2
                           kpos := (o.sliceK num).1 }
    (s.dev.arrFree a = false ∨ s.dev.arrTurn o.seq a = false → quiet s.dev → exec (.sliceIssue op a) s = .next s) ∧
    (bit o.arrayMask a = true → s.dev.arrFree a = true → s.dev.arrTurn o.seq a = true → o.retired = false →
      (∀ st, o.reload = false → (s.dev.arr a).resident o.ctx o.progAddr = some st → ∃ d, (d.arr a).slice = some { sl with store := st } ∧
        d.job op = some { j with toIssue := rest } ∧ exec (.sliceIssue op a) s =
          .next (withPkg s (Pkg.settle (Pkg.sliceReady a (s.store, d))))) ∧
      (∀ st p, o.reload = false → (s.dev.arr a).resident o.ctx o.progAddr = some st → nth (s.dev.arr a).progs st none = some p →
        o.slotsFit p.image = true → j.xlated = true → quiet s.dev → ∃ t, exec (.sliceIssue op a) s = .next t ∧ t.store = s.store ∧
          (t.dev.arr a).slice = some { sl with store := st, started := true }) ∧
      (o.reload = true ∨ (s.dev.arr a).resident o.ctx o.progAddr = none → ∃ d,
        (d.arr a).slice = some { sl with store := (s.dev.arr a).storeFor o.ctx o.progAddr, loading := true } ∧
        d.job op = some { j with toIssue := rest } ∧ (∃ x ∈ d.fry.xfers, x.op = op ∧ x.key = .image a ∧ x.kind = .read ∧
          (x.parts.head?).map (·.gpa) = some o.progAddr) ∧
        exec (.sliceIssue op a) s = .next (withPkg s (Pkg.settle (s.store, d)))))) ∧
  (∀ (a : Fin 16) (sl : ArrSlice) (o : FOp) (j : Job) (s : State), s.dev.running = true → s.dev.domOn 11 = true → shaped s.dev →
    (s.dev.arr a).slice = some sl → s.dev.fop sl.op = some o → s.dev.job sl.op = some j → sl.loading = false → sl.started = false →
    sl.image ≠ [] → o.retired = false →
    (∀ reason i, sl.bad = 16 → progBad sl.image = some (reason, i) → quiet s.dev → ∃ t, exec (.programLoad a) s = .next t ∧
      t.store = s.store ∧ (t.dev.arr a).slice = none ∧
      t.dev.job sl.op = some { j with toIssue := [], left := (t.dev.fry.arrs.filter (fun r => r.slice.any (fun q => q.op == sl.op))).length
                                      low := min j.low sRights } ∧
      t.dev.rdp F.BLK_ERR_CNT_ERRORS (0x40 + a.val) = satAdd 16 (s.dev.rdp F.BLK_ERR_CNT_ERRORS (0x40 + a.val)) 1) ∧
    (sl.bad ≠ 16 → quiet s.dev → ∃ t, exec (.programLoad a) s = .next t ∧ t.store = s.store ∧ (t.dev.arr a).slice = none ∧
      (t.dev.job sl.op).map (·.low) = some (min j.low sl.bad)) ∧
    (sl.bad = 16 → progBad sl.image = none → sl.store < 4 → ∃ d, (∃ p, nth (d.arr a).progs sl.store none = some p ∧ p.ctx = o.ctx ∧
        p.gpa = o.progAddr ∧ p.image = sl.image.take (64 + 8 * progLen sl.image)) ∧
      (d.arr a).slice = some { sl with image := [] } ∧
      exec (.programLoad a) s = .next (withPkg s (Pkg.settle (Pkg.sliceReady a (s.store, d)))))) ∧
  (∀ (op : Nat) (o : FOp) (j : Job) (s : State), s.dev.running = true → s.dev.fop op = some o → s.dev.job op = some j → o.retired = false →
    (j.left ≠ 0 ∨ s.dev.opBusy op = true → exec (.arrayJobComplete op) s = .next s) ∧
    (j.left = 0 → s.dev.opBusy op = false → o.fld 0 14 1 = 0 → ∃ t q, exec (.arrayJobComplete op) s = .next t ∧ t.store = s.store ∧
      t.dev.job op = none ∧ t.dev.fop op = some q ∧ q.state = .complete ∧ q.status = if j.low = 16 then sOk else j.low)) ∧
  (∀ (m : Master) (a : Fin 16) (v : W32) (s : State), pageOpen s.dev m (0x40 + a.val) → s.dev.owns m (0x40 + a.val) = true → shaped s.dev →
    (s.dev.arr a).slice = none → ∃ t, exec (.pntProgInv m a v) s = .next t ∧ t.store = s.store ∧ ∀ i,
      nth (t.dev.arr a).progs i none = (nth (s.dev.arr a).progs i none).bind (fun q =>
        if bit v.toNat 8 = true ∨ q.ctx = bits v.toNat 0 8 then none else some q)) ∧
  (∀ (k : Fin 8) (s : State), s.dev.running = true → shaped s.dev →
    (bit s.dev.fry.pairReq k = true → bit (s.dev.rd F.PWR_DOM_REQ_REQ) (12 + k.val) = true → s.dev.pwr.arraysHeld = false → s.dev.awake = true →
      s.dev.domOn (12 + k.val) = false → ∃ t, exec (.arrayPairOn k) s = .next t ∧ t.store = s.store ∧ t.dev.domOn (12 + k.val) = true ∧
        t.dev.rd F.PWR_STAT_STATE = 0 ∧ t.dev.arr (2 * k.val) = { lastRun := s.dev.tim.tide } ∧
        t.dev.arr (2 * k.val + 1) = { lastRun := s.dev.tim.tide }) ∧
    (bit s.dev.fry.pairReq k = false → exec (.arrayPairOn k) s = .next s) ∧
    (s.dev.pairBusy k = true → exec (.arrayPairIdleOff k) s = .next s) ∧
    (s.dev.domOn (12 + k.val) = true → s.dev.pairBusy k = false → s.dev.rd F.PWR_CFG_ARR_IDLE_US ≠ 0 →
      (s.dev.arr (2 * k.val)).lastRun + us (s.dev.rd F.PWR_CFG_ARR_IDLE_US) ≤ s.dev.tim.tide →
      (s.dev.arr (2 * k.val + 1)).lastRun + us (s.dev.rd F.PWR_CFG_ARR_IDLE_US) ≤ s.dev.tim.tide → ∃ t,
        exec (.arrayPairIdleOff k) s = .next t ∧ t.store = s.store ∧ t.dev.domOn (12 + k.val) = false ∧ t.dev.arr (2 * k.val) = {} ∧
        t.dev.arr (2 * k.val + 1) = {} ∧ ((∀ i < 8, i ≠ k.val → s.dev.domOn (12 + i) = false) → s.dev.pwrState = 0 →
          t.dev.rd F.PWR_STAT_STATE = 1)))

/-- The array instructions, and the jobs that run them. -/
def Obligations.Arrays : Prop := Said.ArrayInstructions ∧ Said.ArrayJobs

/-! ### The ferryman and the ferries (R282–R290, R349–R374, R359–R368) -/

/-- R351–R353, R355–R357, R371, R377: rings. A doorbell of the fabric is dropped and recorded without DB_FABRIC or the ticket; a good one moves
PROD to a value within the ring, or counts as stale, or is recorded, and a completion doorbell moves CONS. A slot that returns with a status
other than OK halts the ring with that status, and with RIGHTS for a reserved KIND or another context; else CONS passes a whole descriptor.
ENABLE going to 1 starts a ring empty and not halted. -/
def Said.Rings : Prop :=
  (∀ (r : Fin 64) (v : W32) (tk : Nat) (s : State), s.dev.running = true → s.dev.domOn 11 = true →
    let a := (v.toNat + 2 ^ 32 - s.dev.ring F.FRY_SUB_CONS_CONS r) % 2 ^ 32
    let c := fun (n : Nat) => (n + 2 ^ 32 - s.dev.ring F.FRY_CMP_CONS_CONS r) % 2 ^ 32
    (∀ completion, s.dev.ring F.FRY_SUB_CFG_DB_FABRIC r = 0 ∨ s.dev.ticketOk tk = false →
      ∃ t, exec (.fryDoorbell r completion v tk) s = .next t ∧ t.store = s.store ∧ t.dev.fry = s.dev.fry ∧
        t.dev.rdp F.BLK_ERR_CNT_ERRORS (fryPage r) = satAdd 16 (s.dev.rdp F.BLK_ERR_CNT_ERRORS (fryPage r)) 1 ∧
        t.dev.ring F.FRY_SUB_PROD_PROD r = s.dev.ring F.FRY_SUB_PROD_PROD r ∧
        t.dev.ring F.FRY_CMP_CONS_CONS r = s.dev.ring F.FRY_CMP_CONS_CONS r) ∧
    (s.dev.ring F.FRY_SUB_CFG_DB_FABRIC r = 1 → s.dev.ticketOk tk = true →
      (s.dev.ring F.FRY_SUB_CFG_ENABLE r = 1 →
        (s.dev.subFill r < a → a ≤ 2 ^ s.dev.ring F.FRY_SUB_CFG_LOG2_SIZE r → exec (.fryDoorbell r false v tk) s =
          .next (withPkg s (Pkg.ringGo r (s.store, s.dev.wrRing F.FRY_SUB_PROD_PROD r v.toNat)))) ∧
        (a < s.dev.subFill r → a ≤ 2 ^ s.dev.ring F.FRY_SUB_CFG_LOG2_SIZE r → exec (.fryDoorbell r false v tk) s = .next { s with
          dev := s.dev.wrRing F.FRY_SUB_STAT_STALE_DB r (satAdd 16 (s.dev.ring F.FRY_SUB_STAT_STALE_DB r) 1) }) ∧
        (a = s.dev.subFill r → a ≤ 2 ^ s.dev.ring F.FRY_SUB_CFG_LOG2_SIZE r → exec (.fryDoorbell r false v tk) s = .next s) ∧
        (2 ^ s.dev.ring F.FRY_SUB_CFG_LOG2_SIZE r < a → ∃ t, exec (.fryDoorbell r false v tk) s = .next t ∧ t.store = s.store ∧
          t.dev.rdp F.BLK_ERR_CNT_ERRORS (fryPage r) = satAdd 16 (s.dev.rdp F.BLK_ERR_CNT_ERRORS (fryPage r)) 1 ∧
          t.dev.ring F.FRY_SUB_PROD_PROD r = s.dev.ring F.FRY_SUB_PROD_PROD r)) ∧
      (s.dev.ring F.FRY_CMP_CFG_ENABLE r = 1 → c v.toNat ≤ c (s.dev.ring F.FRY_CMP_PROD_PROD r) → exec (.fryDoorbell r true v tk) s =
        .next { s with dev := s.dev.wrRing F.FRY_CMP_CONS_CONS r v.toNat }))) ∧
  (∀ (r : Fin 64) (how : AnsHow) (data : List Byte) (s : State), s.dev.running = true → s.dev.domOn 11 = true → shaped s.dev → how.status < 16 →
    s.dev.ring F.FRY_SUB_CFG_HOST r = 1 → s.dev.ring F.FRY_SUB_CFG_ENABLE r = 1 → (s.dev.subOf r).busy = true →
    let got := (s.dev.subOf r).got ++ sliceBytes data 0 64
    let h := leNat (sliceBytes got 0 4)
    (how.status ≠ sOk → ∃ t, exec (.descriptorFetchReturn r how data) s = .next t ∧ t.store = s.store ∧ t.dev.ring F.FRY_SUB_STAT_HALTED r = 1 ∧
      t.dev.ring F.FRY_SUB_STAT_HALT_STATUS r = how.status ∧ t.dev.fry.ops = s.dev.fry.ops ∧
      t.dev.rdp F.BLK_ERR_CNT_ERRORS (fryPage r) = satAdd 16 (s.dev.rdp F.BLK_ERR_CNT_ERRORS (fryPage r)) 1) ∧
    (how.status = sOk → kindSlots (bits h 0 4) = none ∨ bits h 4 8 ≠ s.dev.ring F.FRY_SUB_CFG_CONTEXT r →
      ∃ t, exec (.descriptorFetchReturn r how data) s = .next t ∧ t.store = s.store ∧ t.dev.ring F.FRY_SUB_STAT_HALTED r = 1 ∧
        t.dev.ring F.FRY_SUB_STAT_HALT_STATUS r = sRights ∧ t.dev.fry.ops = s.dev.fry.ops) ∧
    (∀ n, how.status = sOk → kindSlots (bits h 0 4) = some n → bits h 4 8 = s.dev.ring F.FRY_SUB_CFG_CONTEXT r →
      (got.length < 64 * n → ∃ d, d.subOf r = { s.dev.subOf r with got := got, busy := false } ∧ d.regs = s.dev.regs ∧
        exec (.descriptorFetchReturn r how data) s = .next (withPkg s (Pkg.fetchGo r (s.store, d)))) ∧
      (64 * n ≤ got.length → ∃ d, d.subOf r = { s.dev.subOf r with got := got, busy := false } ∧
        d.ring F.FRY_SUB_CONS_CONS r = (s.dev.ring F.FRY_SUB_CONS_CONS r + n) % 2 ^ 32 ∧
        exec (.descriptorFetchReturn r how data) s = .next (withPkg s (Pkg.fetchAll (s.store, d)))))) ∧
  (∀ (m : Master) (r : Fin 64) (v : W32) (s : State), pageOpen s.dev m (fryPage r) → s.dev.owns m (fryPage r) = true → shaped s.dev →
    (s.dev.ring F.FRY_SUB_CFG_ENABLE r = 0 → bit v.toNat 0 = true →
      fieldsTaken (tlp m s.dev) m (fryPage r) (0x108 + 0x40 * (r.val % 16)) v.toNat → ∃ d, d.ring F.FRY_SUB_CFG_ENABLE r = 1 ∧
        d.ring F.FRY_SUB_CFG_LOG2_SIZE r = bits v.toNat 4 5 ∧ d.ring F.FRY_SUB_CFG_CONTEXT r = bits v.toNat 16 8 ∧
        d.ring F.FRY_SUB_PROD_PROD r = 0 ∧ d.ring F.FRY_SUB_CONS_CONS r = 0 ∧ d.ring F.FRY_SUB_STAT_HALTED r = 0 ∧ (d.subOf r).got = [] ∧
        exec (.frySubCfgWrite m r v) s = .next (withPkg s (Pkg.settle (Pkg.fetchAll (s.store, d))))) ∧
    (s.dev.ring F.FRY_CMP_CFG_ENABLE r = 0 → bit v.toNat 0 = true → quiet s.dev →
      fieldsTaken (tlp m s.dev) m (fryPage r) (0x508 + 0x20 * (r.val % 16)) v.toNat → ∃ t, exec (.fryCmpCfgWrite m r v) s = .next t ∧
        t.store = s.store ∧ t.dev.ring F.FRY_CMP_CFG_ENABLE r = 1 ∧ t.dev.ring F.FRY_CMP_CFG_LANDING r = bits v.toNat 16 2 ∧
        t.dev.ring F.FRY_CMP_PROD_PROD r = 0 ∧ t.dev.ring F.FRY_CMP_CONS_CONS r = 0 ∧ t.dev.ring F.FRY_CMP_STAT_HALTED r = 0))

/-- R282, R284–R286, R288–R290: from acceptance to issue. A descriptor with a refused header completes with RIGHTS; with no room it waits; else
it enters READY, or WAITING with its waits begun. A COUNTER_GE wait is met by a word at or above VALUE, a SEM_ACQUIRE by its CAS; a smaller
word leaves it waiting, another value lets the CAS be tried again, a status other than OK ends it. A watch that was hit, or a poll that is
due, asks again. Once the window has ended the status is TIMEOUT. A READY operation goes to its engines. -/
def Said.Waits : Prop :=
  (∀ (r : Fin 64) (s : State), s.dev.running = true → s.dev.domOn 11 = true → shaped s.dev → s.dev.ring F.FRY_SUB_CFG_ENABLE r = 1 →
    s.dev.tenancy = 1 → s.dev.fry.ops = [] → s.dev.src.reqs = [] → s.dev.src.held = [] →
    let desc := (s.dev.subOf r).got
    let h := leNat (sliceBytes desc 0 4)
    let o : FOp := { id := s.dev.fry.nextOp, desc := desc, kind := bits h 0 4, ctx := bits h 4 8, ticket := s.dev.ticket
                     landing := Pkg.bound (s.store, s.dev) (bits h 4 8), subRing := r, cmpRing := s.dev.ring F.FRY_SUB_CMP_CMP_RING r
                     state := .waiting, scored := true, acceptAt := s.dev.tim.tide, seq := 0 }
    desc ≠ [] → kindSlots (bits h 0 4) = some (desc.length / 64) →
    (s.dev.headerBad o = true → ∃ d q, d.fry.ops = [{ o with scored := false, state := .complete, status := sRights, seq := q }] ∧
      (d.subOf r).got = [] ∧ exec (.operationAccept r) s = .next (withPkg s (Pkg.ringFetch r (s.store, d)))) ∧
    (s.dev.headerBad o = false → s.dev.scbRoom o.ctx = false → exec (.operationAccept r) s =
      .next (withPkg s (Pkg.ringFetch r (s.store, s.dev)))) ∧
    (s.dev.headerBad o = false → s.dev.scbRoom o.ctx = true → bits h 12 2 = 0 → ∃ d q, d.fry.ops = [{ o with state := .ready, seq := q }] ∧
      (d.subOf r).got = [] ∧ exec (.operationAccept r) s = .next (withPkg s (Pkg.ringFetch r (s.store, d)))) ∧
    (∀ l, s.dev.headerBad o = false → s.dev.scbRoom o.ctx = true → bits h 12 2 = 1 → o.waitSem 0 = false → o.landing = some l →
      ∃ d q, d.fop o.id = some q ∧ q.state = .waiting ∧ (q.wait 0).armed = true ∧ (q.wait 0).busy = true ∧
        (∃ a ∈ d.liveAccs, a.purpose = .waitRead o.id 0 ∧ a.kind = .read ∧ a.gpa = o.waitGpa 0 ∧ a.len = 8 ∧ a.eng = 6) ∧
        exec (.operationAccept r) s = .next (withPkg s (Pkg.ringFetch r (s.store, d))))) ∧
  (∀ (op : Nat) (how : AnsHow) (data : List Byte) (o : FOp) (q : OutReq) (s : State), s.dev.running = true → s.dev.domOn 11 = true → quiet s.dev → s.dev.homeIdle = true ∨ noneAtHome s.dev → s.dev.expired q = false →
    s.dev.fop op = some o → o.state = .waiting → o.retired = false → s.dev.windowOver o = false → o.waits.length = 2 →
    s.dev.fry.late.find? (fun l => l.id == op) = none → o.waitEn 0 = true → o.waitEn 1 = false ∨ (o.wait 1).met = true →
    let v := leNat (sliceBytes data 0 8)
    (o.waitSem 0 = false → s.dev.src.reqs.find? (fun p => p.acc.purpose == .waitRead op 0) = some q → q.acc.purpose = .waitRead op 0 →
      (how.status = sOk → o.waitValue 0 ≤ v → ∃ t p, exec (.waitReadAnswer op 0 how data) s = .next t ∧ t.store = s.store ∧
        t.dev.fop op = some p ∧ p.state = .ready) ∧
      (how.status = sOk → v < o.waitValue 0 → ∃ t p, exec (.waitReadAnswer op 0 how data) s = .next t ∧ t.store = s.store ∧
        t.dev.fop op = some p ∧ p.state = .waiting ∧ (p.wait 0).busy = false ∧ (p.wait 0).met = (o.wait 0).met) ∧
      (how.status ≠ sOk → ∃ t p, exec (.waitReadAnswer op 0 how data) s = .next t ∧ t.store = s.store ∧ t.dev.fop op = some p ∧
        p.state = .complete ∧ p.status = how.status)) ∧
    (o.waitSem 0 = true → s.dev.src.reqs.find? (fun p => p.acc.purpose == .sem op 0) = some q → q.acc.purpose = .sem op 0 →
      (how.status = sOk → v = (o.wait 0).expect → ∃ t p, exec (.semAcquireAnswer op 0 how data) s = .next t ∧ t.store = s.store ∧
        t.dev.fop op = some p ∧ p.state = .ready) ∧
      (∀ l, how.status = sOk → v ≠ (o.wait 0).expect → o.waitValue 0 ≤ v → o.landing = some l → ∃ t p,
        exec (.semAcquireAnswer op 0 how data) s = .next t ∧ t.store = s.store ∧ t.dev.fop op = some p ∧ p.state = .waiting ∧
        (p.wait 0).busy = true ∧ (p.wait 0).expect = v ∧
        ∃ a ∈ t.dev.liveAccs, a.purpose = .sem op 0 ∧ a.kind = .atomic ∧ a.data = natLE 8 v ++ natLE 8 (v - o.waitValue 0)))) ∧
  (∀ (op : Nat) (o : FOp) (s : State), s.dev.running = true → s.dev.fop op = some o → o.state = .waiting → o.retired = false →
    (s.dev.windowOver o = false → exec (.waitWindowEnd op) s = .next s) ∧
    (s.dev.windowOver o = true → ∃ t p, exec (.waitWindowEnd op) s = .next t ∧ t.store = s.store ∧ t.dev.fop op = some p ∧
      p.state = .complete ∧ p.status = sTimeout ∧ (o.waitEn 0 = true → o.waitSem 0 = true → (o.wait 0).busy = true →
        t.dev.fry.late = s.dev.fry.late ++ [o])) ∧
    ((o.wait 0).armed = true → exec (.waitPoll op 0) s = .next s) ∧
    (∀ l, o.waitEn 0 = true → o.waits.length = 2 → (o.wait 0).met = false → (o.wait 0).armed = false → (o.wait 0).busy = false →
      (o.wait 0).readAt ≠ 0 → (o.wait 0).readAt + us (s.dev.rd F.FRY_SCB_CFG_POLL_US) ≤ s.dev.tim.tide + 1 → o.landing = some l →
      ∃ t p, exec (.waitPoll op 0) s = .next t ∧ t.store = s.store ∧ t.dev.fop op = some p ∧ (p.wait 0).busy = true) ∧
    (∀ line, s.dev.fry.ops = [o] → (o.wait 0).hit = false → (o.wait 1).hit = false → exec (.watchTrigger line) s = .next s) ∧
    (∀ l, s.dev.fry.ops = [o] → o.waits.length = 2 → (o.wait 0).hit = true → (o.wait 0).busy = false → (o.wait 1).hit = false →
      o.landing = some l → ∃ t p, exec (.watchTrigger (o.waitGpa 0 / 64 % 2 ^ 39)) s = .next t ∧ t.store = s.store ∧
        t.dev.fop op = some p ∧ (p.wait 0).busy = true ∧ (p.wait 0).hit = false)) ∧
  (∀ (op : Nat) (o : FOp) (s : State), s.dev.running = true → s.dev.domOn 11 = true → quiet s.dev → s.dev.fop op = some o →
    let o' : FOp := { o with state := .running, waits := [{}, {}] }
    (o.state ≠ .ready ∨ o.retired = true ∨ s.dev.braked = true → exec (.operationIssue op) s = .next s) ∧
    (o.issuable = true → s.dev.braked = false → s.dev.firstReady o = true →
      (∀ e, o.kind = 1 → s.dev.freeFerry = some e → exec (.operationIssue op) s =
        .next (withPkg s (Pkg.settle (s.store, Dev.ferryGo o' e (s.dev.setFop op (fun _ => o')))))) ∧
      (o.kind = 2 → s.dev.enginesFree o = false → exec (.operationIssue op) s = .next { s with dev := s.dev.askPair o.arrayMask }) ∧
      (o.kind = 2 → s.dev.enginesFree o = true → exec (.operationIssue op) s =
        .next (withPkg s (Pkg.settle (s.store, Dev.jobGo o' (s.dev.setFop op (fun _ => o')))))) ∧
      (o.kind = 1 → s.dev.freeFerry = none → exec (.operationIssue op) s = .next s)))

/-- R287, R289, R370–R373: the signal's answer completes an operation, with the signal's status if its own was OK. The oldest completed
operation of a ring writes its record of 32 bytes, to host memory at once, PROD passing it and its entry freed, or as a write to the near
tier; a ring that is disabled, halted or full holds its records. -/
def Said.Completions : Prop :=
  (∀ (op : Nat) (how : AnsHow) (o : FOp) (q : OutReq) (s : State), s.dev.running = true → s.dev.domOn 11 = true → quiet s.dev → s.dev.fop op = some o →
    s.dev.homeIdle = true ∨ noneAtHome s.dev → s.dev.expired q = false →
    o.state = .signalling → o.retired = false → s.dev.src.reqs.find? (fun p => p.acc.purpose == .signal op) = some q →
    q.acc.purpose = .signal op → ∃ t p, exec (.signalAnswer op how) s = .next t ∧ t.store = s.store ∧ t.dev.fop op = some p ∧
      p.state = .complete ∧ p.status = if o.status = sOk then how.status else o.status) ∧
  (∀ (c : Fin 64) (o : FOp) (s : State), s.dev.running = true → s.dev.domOn 11 = true → s.dev.fry.ops = [o] → o.state = .complete →
    o.cmpRing = c.val →
    let prod := s.dev.ring F.FRY_CMP_PROD_PROD c
    let log := s.dev.ring F.FRY_CMP_CFG_LOG2_SIZE c
    let a := ringAddr (s.dev.ring F.FRY_CMP_BASE_LO_BASE_LO c) (s.dev.ring F.FRY_CMP_BASE_HI_BASE_HI c) prod log 32
    (s.dev.ring F.FRY_CMP_CFG_ENABLE c = 0 ∨ s.dev.ring F.FRY_CMP_STAT_HALTED c = 1 ∨
      ringFree prod (s.dev.ring F.FRY_CMP_CONS_CONS c) log = false → exec (.completionRecordWrite c) s = .next s) ∧
    (s.dev.ring F.FRY_CMP_CFG_ENABLE c = 1 → s.dev.ring F.FRY_CMP_STAT_HALTED c = 0 → s.dev.fry.cmpBusy.contains c.val = false →
      ringFree prod (s.dev.ring F.FRY_CMP_CONS_CONS c) log = true →
      (s.dev.ring F.FRY_CMP_CFG_HOST c = 1 → s.dev.rd F.GLB_PIN_STAT_PERST = 0 → ∃ d, d.fry.ops = [] ∧
        d.ring F.FRY_CMP_PROD_PROD c = (prod + 1) % 2 ^ 32 ∧ d.out = s.dev.out ++ [.hostWrite a (o.record (prod / 2 ^ log % 2 == 0))] ++
          (if s.dev.ring F.FRY_CMP_CFG_INT_EN c = 1 then [.msix (s.dev.ring F.FRY_CMP_CFG_VECTOR c)] else []) ∧
        exec (.completionRecordWrite c) s = .next (withPkg s (Pkg.fetchAll (s.store, d)))) ∧
      (s.dev.ring F.FRY_CMP_CFG_HOST c = 0 → s.dev.ticket ≠ 0 → ∃ t, exec (.completionRecordWrite c) s = .next t ∧ t.store = s.store ∧
        t.dev.fry.ops = [o] ∧ ∃ q ∈ t.dev.liveAccs, q.purpose = .record c o.id (nget s.dev.fry.cmpGen c) ∧ q.kind = .write ∧ q.gpa = a % 2 ^ 52 ∧ q.len = 32 ∧
          q.data = o.record (prod / 2 ^ log % 2 == 0) ∧ q.landing = s.dev.ring F.FRY_CMP_CFG_LANDING c)))

/-- The submission rings, the waits of operations, and their completions. -/
def Obligations.Ferryman : Prop := Said.Rings ∧ Said.Waits ∧ Said.Completions

/-- R348, R363, R365–R368: ferries. The next tile of a run, both sides given by GPA, has its reads issued by the engine; an engine that waits,
or has no tile left, does nothing. The domain fence of a run ends with its errors noted. A run that is over frees its engine and completes
its operation with the tiles done, the tile it stopped at, and OK, PARTIAL, FAULT or the lowest status of the home. -/
def Obligations.Ferries : Prop :=
  (∀ (e : Fin 32) (o : FOp) (op : Nat) (s : State), s.dev.running = true → s.dev.domOn 11 = true → shaped s.dev →
    (s.dev.ferryEng e).op = some op → s.dev.fop op = some o →
    let g := s.dev.ferryEng e
    (g.fencing = true ∨ g.xlating = true ∨ g.halted = true ∨ o.retired = true ∨ o.tileNum ≤ g.next → quiet s.dev →
      exec (.tileIssue e) s = .next s) ∧
    (g.fencing = false → g.xlating = false → g.halted = false → o.retired = false → g.next < o.tileNum → (o.side 0).lva = false →
      (o.side 1).lva = false → o.pages = [] → (∀ q ∈ s.dev.xlt.streams, q.owner ≠ 1 + 2 * e.val ∧ q.owner ≠ 2 + 2 * e.val) →
      o.tileReads g.next ≠ [] →
      ∃ d, (d.ferryEng e).next = g.next + 1 ∧ (d.ferryEng e).live = g.live ++ [{ t := g.next, srcMask := 0, dstMask := 0, bad := false }] ∧
        (∃ x ∈ d.fry.xfers, x.op = op ∧ x.eng = 8 + e.val ∧ x.key = .tileRead g.next ∧
          x.parts.map (fun p => (p.gpa, p.len)) = (o.tileReads g.next).map (fun p => (p.gpa, p.len))) ∧
        exec (.tileIssue e) s = .next (withPkg s (Pkg.settle (s.store, d))))) ∧
  (∀ (e : Fin 32) (f : Fence) (s : State), s.dev.running = true → s.dev.domOn 11 = true → quiet s.dev → shaped s.dev →
    s.dev.src.held = [] → s.dev.src.fences = [f] →
    (f.next ≠ .ferry e ∨ s.dev.fenceClear f = false → exec (.ferryFenceDone e) s = .next s) ∧
    (f.next = .ferry e → s.dev.fenceClear f = true → ∃ t, exec (.ferryFenceDone e) s = .next t ∧ t.store = s.store ∧ t.dev.src.fences = [] ∧
      (t.dev.ferryEng e).fencing = false ∧ ∀ op o, (s.dev.ferryEng e).op = some op → s.dev.fop op = some o →
        t.dev.fop op = some { o with fenceErr := o.fenceErr || f.errSeen })) ∧
  (∀ (e : Fin 32) (o : FOp) (op : Nat) (s : State), s.dev.running = true → s.dev.domOn 11 = true → shaped s.dev → (s.dev.ferryEng e).op = some op →
    s.dev.fop op = some o → o.retired = false →
    let g := s.dev.ferryEng e
    (g.fencing = true ∨ g.live ≠ [] ∨ s.dev.opBusy op = true ∨ g.xlating = true ∨ (g.halted = false ∧ g.next < o.tileNum) →
      exec (.ferryComplete e) s = .next s) ∧
    (g.fencing = false → g.live = [] → s.dev.opBusy op = false → g.xlating = false → g.halted = true ∨ o.tileNum ≤ g.next →
      o.fld 0 14 1 = 0 → ∃ t q, exec (.ferryComplete e) s = .next t ∧ (o.meets = [] → t.store = s.store) ∧ (t.dev.ferryEng e).op = none ∧
        t.dev.fop op = some q ∧ q.state = .complete ∧ q.result = g.done.length ∧
        (g.failed = [] → g.low = 16 → q.status = sOk ∧ q.stop = g.next) ∧
        (g.failed ≠ [] → g.low = 16 → q.status = if g.moved then sPartial else sFault) ∧ (g.low ≠ 16 → q.status = g.low) ∧
        (∀ f, g.failed = [f] → q.stop = f.t ∧ q.srcMask = f.srcMask ∧ q.dstMask = f.dstMask)))

/-! ### Collectives, attention, dispatch (R292–R345) -/

/-- R294, R307–R310, R313–R315: collectives. One whose rank table breaks R294 aborts with RIGHTS; a good one holds its arrays. A segment with
another ticket is counted TICKET_DISCARD, one for no collective LATE_DISCARD, one received before DUP_DISCARD; a new one enters the stage and
opens the step window again. Credits add up, acknowledge, and abort on another digest; those for a collective that is not here yet are kept. A segment unacknowledged too long is sent again.
COLL_ABORT and the window's end abort. A complete one frees its arrays with OK, an aborted one with the abort's status, its OUT undefined. -/
def Said.Collectives : Prop :=
  (∀ (op : Nat) (o : FOp) (s : State), s.dev.running = true → s.dev.domOn 11 = true → quiet s.dev → shaped s.dev → s.dev.fop op = some o →
    s.dev.coll op = none →
    let o' : FOp := { o with state := .running, waits := [{}, {}] }
    (o.kind ≠ 3 → exec (.collRunning op) s = .next s) ∧
    (o.kind = 3 → o.issuable = true → s.dev.braked = false →
      (o.collOk = true → s.dev.collRoom o = false → exec (.collRunning op) s = .next { s with dev := s.dev.askAll o.collMask }) ∧
      (o.collOk = false → s.dev.firstReady o = true → o.fld 0 14 1 = 0 → ∃ t q, exec (.collRunning op) s = .next t ∧
        t.store = (Pkg.collSpoil o' (s.store, s.dev.setFop op (fun _ => o'))).1 ∧ (o.outLen = 0 → t.store = s.store) ∧
        t.dev.fop op = some q ∧ q.state = .complete ∧ q.status = sRights) ∧
      (o.collOk = true → s.dev.collRoom o = true → (∀ a ∈ maskArrays o.collMask, s.dev.arrTurn o.seq a = true) → s.dev.firstReady o = true →
        0 < s.dev.rd F.COLL_CFG_STEP_TIMEOUT_US →
        (∀ b, s.dev.rankBad o' = some b → ∃ t c, exec (.collRunning op) s = .next t ∧
          t.store = s.store ∧ t.dev.coll op = some c ∧ c.abort = some (sRights, o.collRank, 0) ∧
          t.dev.rd F.COLL_ABORT_INFO_STATUS = sRights) ∧
        (s.dev.rankBad o' = none → o.inLva = false → o.outLva = false → o.pages = [] →
          ∃ d c, d.coll op = some c ∧ c.running = true ∧ (∀ a < 16, bit o.collMask a = true → (d.arr a).heldBy = some op) ∧
            exec (.collRunning op) s = .next (withPkg s (Pkg.settle (s.store, d))))))) ∧
  (∀ (op : Nat) (o : FOp) (c : Coll) (m : CollData) (s : State), collRuns op o c s →
    (m.ticket ≠ s.dev.ticket → exec (.collData m) s = .next { s with dev := s.dev.count 0x50 2 1 }) ∧
    (m.ticket = s.dev.ticket → s.dev.ticket ≠ 0 → m.collId ≠ o.collId → exec (.collData m) s =
      .next { s with dev := s.dev.count 0x50 1 1 }) ∧
    (m.ticket = s.dev.ticket → s.dev.ticket ≠ 0 → m.collId = o.collId → m.dst / 4 = s.dev.node → o.landing = some (m.dst % 4) →
      (c.seen.contains (m.step, m.chunk, m.seg) = true → exec (.collData m) s = .next { s with dev := s.dev.count 0x50 0 1 }) ∧
      (c.seen.contains (m.step, m.chunk, m.seg) = false → o.expects.contains (m.step, m.chunk) = true → m.seg < o.segNum m.chunk →
        nth c.ranks (o.fromRank m.step) 0 % 512 = m.src → ∃ d, d.coll op = some { c.at m.step s with
            stage := c.stage ++ [⟨m.step, m.chunk, m.seg, m.data, m.cmark⟩], seen := c.seen ++ [(m.step, m.chunk, m.seg)]
            tails := c.tails ++ o.tailOf ⟨m.step, m.chunk, m.seg, m.data, m.cmark⟩ } ∧
          exec (.collData m) s = .next (withPkg s (Pkg.settle (s.store, Dev.collGoOn op d)))))) ∧
  (∀ (m : CollCredit) (s : State), s.dev.running = true → s.dev.domOn 11 = true → quiet s.dev → s.dev.fry.colls = [] →
    m.dst / 4 = s.dev.node → exec (.collCredit m) s = .next { s with
      dev := { s.dev with fry := { s.dev.fry with early := s.dev.fry.early ++ [m] } } }) ∧
  (∀ (op r : Nat) (o : FOp) (c : Coll) (m : CollCredit) (s : State), collRuns op o c s → m.collId = o.collId → m.dst / 4 = s.dev.node →
    o.landing = some (m.dst % 4) → (List.range o.collP).find? (fun r => nth c.ranks r 0 % 512 == m.src) = some r →
    let mine := [o.collOp, o.collRed, o.collP, o.collCount, o.wireFmt, o.segLog]
    (∀ g, m.digest = some g → g ≠ mine → ∃ t q, exec (.collCredit m) s = .next t ∧ t.store = s.store ∧ t.dev.coll op = some q ∧
      q.abort = some (sRights, o.collRank, c.step) ∧
      t.dev.rdp F.BLK_ERR_CNT_ERRORS 0x50 = satAdd 16 (s.dev.rdp F.BLK_ERR_CNT_ERRORS 0x50) 1) ∧
    (m.digest = none ∨ m.digest = some mine → ∃ d, d.coll op = some { c.at 0 s with
        credits := nset c.credits r (nget c.credits r + m.slots)
        sent := c.sent.filter (fun x => !(x.peer == r && m.ack == some (x.s.step, x.s.chunk, x.s.seg))) } ∧
      exec (.collCredit m) s = .next (withPkg s (Pkg.settle (s.store, ((Dev.collGoOn op d).pumpSrc).collsGoOn))))) ∧
  (∀ (op : Nat) (o : FOp) (c : Coll) (q : CSent) (s : State), collRuns op o c s → c.sent = [q] →
    (s.dev.tim.tide < q.sentAt + us (s.dev.rd F.RCV_CFG_REQ_TIMEOUT_US) ∨ s.dev.braked = true →
      exec (.collSegmentRetry op q.s.step q.s.chunk q.s.seg) s = .next s) ∧
    (q.sentAt + us (s.dev.rd F.RCV_CFG_REQ_TIMEOUT_US) ≤ s.dev.tim.tide → s.dev.braked = false →
      s.dev.hasNode (nth c.ranks q.peer 0 % 512 / 4) = true → ∃ t m,
      exec (.collSegmentRetry op q.s.step q.s.chunk q.s.seg) s = .next t ∧ t.store = s.store ∧
      t.dev.coll op = some { c.at q.s.step s with sent := [{ q with sentAt := s.dev.tim.tide }] } ∧
      t.dev.out = s.dev.out ++ [.coll (nth c.ranks q.peer 0 % 512 / 4) m] ∧ m.collId = o.collId ∧ m.step = q.s.step ∧ m.chunk = q.s.chunk ∧
      m.seg = q.s.seg ∧ m.ticket = o.ticket ∧ m.data = q.s.data)) ∧
  (∀ (op : Nat) (o : FOp) (c : Coll) (m : CollAbort) (s : State), collRuns op o c s →
    (m.collId ≠ o.collId → exec (.collAbort m) s = .next s) ∧
    (m.collId = o.collId → m.dst / 4 = s.dev.node → o.landing = some (m.dst % 4) → ∃ t q, exec (.collAbort m) s = .next t ∧
      t.store = s.store ∧ t.dev.coll op = some q ∧ q.abort = some (m.status, m.rank, m.step) ∧ q.stage = [] ∧ q.ready = [] ∧ q.sent = []) ∧
    exec (.collStepTimeout op) s = .next s) ∧
  (∀ (op : Nat) (o : FOp) (c : Coll) (s : State), s.dev.running = true → s.dev.fry.colls = [c] → c.op = op → s.dev.fop op = some o →
    c.abort = none → c.progressAt + us c.window ≤ s.dev.tim.tide → ∃ t q, exec (.collStepTimeout op) s = .next t ∧ t.store = s.store ∧
      t.dev.coll op = some q ∧ q.abort = some (sTimeout, o.collRank, c.step)) ∧
  (∀ (op : Nat) (o : FOp) (c : Coll) (s : State), collRuns op o c s → shaped s.dev → o.fld 0 14 1 = 0 →
    let whole := o.owes.all c.final.contains
      && o.expects.all (fun q => (List.range (o.segNum q.2)).all (fun j => c.seen.contains (q.1, q.2, j)))
    (whole = false ∨ c.stage ≠ [] ∨ c.work ≠ [] ∨ c.ready ≠ [] ∨ c.sent ≠ [] ∨ s.dev.opBusy op = true →
      exec (.collComplete op) s = .next s) ∧
    (whole = true → c.stage = [] → c.work = [] → c.ready = [] → c.sent = [] → s.dev.opBusy op = false → ∃ t q,
      exec (.collComplete op) s = .next t ∧ t.store = s.store ∧ t.dev.fry.colls = [] ∧ t.dev.fop op = some q ∧ q.state = .complete ∧
      q.status = sOk ∧ ∀ a < 16, (s.dev.arr a).heldBy = some op → (t.dev.arr a).heldBy = none) ∧
    exec (.collAbortDone op) s = .next s) ∧
  (∀ (op st r n : Nat) (o : FOp) (c : Coll) (s : State), s.dev.running = true → s.dev.domOn 11 = true → s.dev.fry.colls = [c] → c.op = op → s.dev.fop op = some o →
    o.retired = false → o.fld 0 14 1 = 0 → c.abort = some (st, r, n) →
    (s.dev.opBusy op = true → exec (.collAbortDone op) s = .next s) ∧
    (s.dev.opBusy op = false → ∃ t q, exec (.collAbortDone op) s = .next t ∧ t.store = (Pkg.collSpoil o (s.store, s.dev)).1 ∧
      (o.outLen = 0 → t.store = s.store) ∧ t.dev.fry.colls = [] ∧
      t.dev.fop op = some q ∧ q.state = .complete ∧ q.status = st ∧ q.stop = r % 512 + n % 1024 * 512))

/-- R302, R305: around the ring, what a rank expects at a step is what its predecessor has at that step: of its own IN at the first step, and
of what it received at the step before after that. -/
def Said.CollectiveRing : Prop :=
  ∀ (p q : FOp), p.collOp ≤ 2 → q.collOp = p.collOp → q.collP = p.collP → 2 ≤ p.collP → p.collRank < p.collP →
    q.collRank = (p.collRank + 1) % p.collP → ∀ s c, (s, c) ∈ q.expects →
      (s = 0 ∧ (0, c) ∈ p.sources) ∨ (0 < s ∧ (s - 1, c) ∈ p.expects)

/-- The commands of a collective unit, and the ring. -/
def Obligations.Collectives : Prop := Said.Collectives ∧ Said.CollectiveRing

/-- R322, R324–R331: attention. A descriptor that breaks R322 completes with RIGHTS; a good one reads its queries and its list. At the home a
group is admitted page by page with the status of each; a page is scored by an array of SERVE_MASK in its turn, and one that cannot be read
has DATA_ERROR, or in a parity group waits for its lines to be rebuilt; the group's partials leave once all pages are scored. A partial is placed in its record, one more is DUP_DISCARD. A request is
complete when every record is written. -/
def Obligations.Attention : Prop :=
  (∀ (op : Nat) (o : FOp) (s : State), s.dev.running = true → s.dev.domOn 11 = true → quiet s.dev → s.dev.fop op = some o →
    s.dev.attnReq op = none →
    (o.kind ≠ 4 → exec (.attnRunning op) s = .next s) ∧
    (o.kind = 4 → o.issuable = true → s.dev.braked = false → s.dev.fry.attn.length < 16 → s.dev.firstReady o = true →
      (o.attnOk = false → o.fld 0 14 1 = 0 → ∃ t q, exec (.attnRunning op) s = .next t ∧ t.store = s.store ∧ t.dev.fop op = some q ∧
        q.state = .complete ∧ q.status = sRights) ∧
      (o.attnOk = true → o.qLva = false → o.listLva = false → o.attnOutLva = false → o.pages = [] → ∃ d,
        d.attnReq op = some { op := op, stage := 1 } ∧
        (∃ x ∈ d.fry.xfers, x.op = op ∧ x.key = .attnIn false ∧ x.kind = .read ∧ ((x.parts.map (·.len)).sum = o.qBytes)) ∧
        (∃ x ∈ d.fry.xfers, x.op = op ∧ x.key = .attnIn true ∧ x.kind = .read ∧ ((x.parts.map (·.len)).sum = 8 * o.listCount)) ∧
        exec (.attnRunning op) s = .next (withPkg s (Pkg.settle (s.store, d)))))) ∧
  (∀ (q : AttnQuery) (p : Nat × Nat) (s : State), s.dev.running = true → s.dev.domOn 11 = true →
    ((s.dev.serveOf q.src q.op q.grp).isSome = true ∨ s.dev.home.gate.contains (.query q) = true → exec (.attnQuery q) s = .next s) ∧
    (s.dev.serveOf q.src q.op q.grp = none → s.dev.home.gate.contains (.query q) = false → s.dev.homeOpen = false ∨ s.dev.queryTakes q = false →
      exec (.attnQuery q) s = .next { s with dev := s.dev.homeGate (.query q) }) ∧
    (s.dev.homeOpen = true → s.dev.queryTakes q = true → s.dev.serveOf q.src q.op q.grp = none → q.pages = [p] →
      (s.dev.homes q.node = none → ∃ t g, exec (.attnQuery q) s = .next t ∧ t.store = s.store ∧
        t.dev.serveOf q.src q.op q.grp = some g ∧ g.q = q ∧ g.status = [sRights]) ∧
      (s.dev.homes q.node ≠ none → gpaNode p.1 = q.node → ∃ t g, exec (.attnQuery q) s = .next t ∧ t.store = s.store ∧
        t.dev.serveOf q.src q.op q.grp = some g ∧ g.q = q ∧
        g.status = [(Pkg.grantCheck (s.store, s.dev) q.node (queryHdr q) .read p.1).1]))) ∧
  (∀ (src op grp k gpa valid : Nat) (a : Fin 16) (near bulk : List LineMedia) (g : ServeGroup) (s : State),
    s.dev.running = true → s.dev.domOn 11 = true → s.dev.homeIdle = true ∨ noneAtHome s.dev → s.dev.serveOf src op grp = some g →
    g.q.pages[k]? = some (gpa, valid) → gpa < 2 ^ 52 → g.status[k]? = some sOk → s.dev.stands g.q.node = false →
    s.dev.home.queue = [.page src op grp k g.q.node gpa (queryPageBytes g.q)] →
    let served := exec (.attnPageServed src op grp k a near bulk) s
    let ls := linesOf gpa (queryPageBytes g.q)
    let page := Pkg.readData (s.store, s.dev) g.q.node .spanRead (Pkg.extOf (s.store, s.dev) g.q.node (gpaExt gpa)).state gpa (queryPageBytes g.q)
    (g.scored.contains k = true ∨ g.waiting.contains k = true ∨ bit (s.dev.rd F.ATTN_CFG_SERVE_MASK) a = false ∨ s.dev.arrFree a = false ∨
      s.dev.arrTurn g.seq a = false ∨ (∃ o ∈ s.dev.home.ops, o.kind.reads = false ∧ ∃ w ∈ o.ws, w.line ∈ ls) ∨
      (∃ l ∈ ls, s.dev.linePowered (l % 2 ^ 39) = false) → served = .next s) ∧
    (g.scored.contains k = false → g.waiting.contains k = false → bit (s.dev.rd F.ATTN_CFG_SERVE_MASK) a = true → s.dev.arrFree a = true →
      s.dev.arrTurn g.seq a = true → s.dev.home.ops = [] → (∀ l ∈ ls, s.dev.linePowered (l % 2 ^ 39) = true) →
      (∀ v, g.rebuilt.find? (fun p => p.1 == k) = some (k, v) → g.q.group = false → ∃ t ctr, served = .next t ∧ t.store = s.store ∧
        t.dev.serveOf src op grp = some { g with scored := g.scored ++ [k], pages := g.pages ++ [(k, (scorePage g.q v valid ctr).1)] }) ∧
      (g.rebuilt.find? (fun p => p.1 == k) = none →
        (near = [] → bulk = [] → (∀ l ∈ ls, s.dev.lineErr (l % 2 ^ 39) ≠ 2) → g.q.group = false → ∃ t ctr, served = .next t ∧
          t.store = s.store ∧ t.dev.home.queue = [] ∧ t.dev.serveOf src op grp = some { g with
            scored := g.scored ++ [k], pages := g.pages ++ [(k, (scorePage g.q page valid ctr).1)] }) ∧
        ((∃ l ∈ ls, s.dev.lineErr (l % 2 ^ 39) = 2) → (s.dev.protOf g.q.node (gpaExt gpa)).mode ≠ 1 → ∃ t, served = .next t ∧
          t.store = s.store ∧
          t.dev.serveOf src op grp = some { g with scored := g.scored ++ [k], status := modAt (fun _ => sDataError) g.status k }) ∧
        (s.dev.homeIdle = true → (∃ l ∈ ls, s.dev.lineErr (l % 2 ^ 39) = 2) → (s.dev.protOf g.q.node (gpaExt gpa)).mode = 1 → ∃ t,
          served = .next t ∧ t.store = s.store ∧ t.dev.serveOf src op grp = some { g with waiting := g.waiting ++ [k] } ∧
          s.dev.home.recons.length < t.dev.home.recons.length)))) ∧
  (∀ (src op grp : Nat) (g : ServeGroup) (s : State), s.dev.running = true → s.dev.domOn 11 = true →
    s.dev.homeIdle = true ∨ noneAtHome s.dev → s.dev.serveOf src op grp = some g →
    let ks := List.range g.q.pages.length
    (∀ k ∈ ks, nth g.status k 0 = sOk → g.scored.contains k = false → exec (.attnGroupDone src op grp) s = .next s) ∧
    ((∀ k ∈ ks, nth g.status k 0 = sOk → g.scored.contains k = true) → s.dev.hasNode src = true →
      (g.q.group = false → ∃ t, exec (.attnGroupDone src op grp) s = .next t ∧ t.store = s.store ∧ t.dev.serveOf src op grp = none ∧
        t.dev.out = s.dev.out ++ ks.map (fun k =>
          let p := ((g.pages.find? (fun p => p.1 == k)).map (·.2)).getD ⟨[], [], []⟩
          .attnPartial src { op := op, grp := grp, k := k, status := nth g.status k 0, m := p.m, l := p.l, o := p.o, echo := g.q.cmark })) ∧
      (g.q.group = true → ∃ t p, exec (.attnGroupDone src op grp) s = .next t ∧ t.store = s.store ∧ t.dev.serveOf src op grp = none ∧
        t.dev.out = s.dev.out ++ [.attnPartial src p] ∧ p.op = op ∧ p.grp = grp ∧
        (∀ st, (g.status.filter (· != sOk)).min? = some st → p.status = st ∧ p.m = []) ∧
        ((∀ st ∈ g.status, st = sOk) → p.status = sOk)))) ∧
  (∀ (p : AttnPartial) (s : State), s.dev.running = true → s.dev.domOn 11 = true → quiet s.dev →
    (s.dev.attnReq p.op = none → exec (.attnPartial p) s = .next { s with dev := s.dev.count 0x51 2 1 }) ∧
    (∀ o a i, s.dev.fop p.op = some o → s.dev.attnReq p.op = some a → o.retired = false →
      a.recs.findIdx? (fun r => r.grp == p.grp && (o.byGroup || r.k == p.k) && r.status.isNone) = some i →
      ((∃ q, s.dev.src.reqs.find? (fun q => q.acc.purpose == .attnGroup p.op p.grp) = some q ∧ s.dev.expired q = true) →
        exec (.attnPartial p) s = .next { s with dev := s.dev.count 0xC1 1 1 }) ∧
      ((∀ q, s.dev.src.reqs.find? (fun q => q.acc.purpose == .attnGroup p.op p.grp) = some q → s.dev.expired q = false) → ∃ d b, d.attnReq p.op = some b ∧ (b.recs[i]?).map (·.status) = some (some (match (a.recs[i]?).bind (·.fail) with
          | some f => if p.status = sOk then f else min f p.status
          | none => p.status)) ∧
        (∃ x ∈ d.fry.xfers, x.op = p.op ∧ x.key = .attnRecord i ∧ x.kind = .write) ∧
        exec (.attnPartial p) s = .next (withPkg s (Pkg.settle (s.store, d)))))) ∧
  (∀ (op : Nat) (o : FOp) (a : AttnReq) (s : State), s.dev.running = true → s.dev.fop op = some o → s.dev.fry.attn = [a] → a.op = op →
    o.retired = false → o.fld 0 14 1 = 0 →
    (a.stage ≠ 4 ∨ (∃ r ∈ a.recs, r.status = none) ∨ s.dev.opBusy op = true → exec (.attnComplete op) s = .next s) ∧
    (a.stage = 4 → (∀ r ∈ a.recs, r.status ≠ none) → s.dev.opBusy op = false → ∃ t q, exec (.attnComplete op) s = .next t ∧
      t.store = s.store ∧ t.dev.fry.attn = [] ∧ t.dev.fop op = some q ∧ q.state = .complete ∧ q.status = a.status ∧
      q.result = (a.recs.filter (·.written)).length))

/-- R336–R344: dispatch. A descriptor that breaks the rules, or router weights outside the local near tier, complete with RIGHTS; else its
expert table and biases are read. Once routed, every token has as many choices as CHOICES says, resolved one at a time. A counter's answer below the capacity
gives the choice its slot, whose row is written; at or above it a DROP leaves the choice dropped, and a status other than OK fails it; a
route entry tells the outcome. -/
def Obligations.DispatchUnit : Prop :=
  (∀ (op : Nat) (o : FOp) (s : State), s.dev.running = true → s.dev.domOn 11 = true → quiet s.dev → s.dev.fop op = some o →
    s.dev.fry.disp = [] →
    (o.kind ≠ 5 → exec (.dispatchRunning op) s = .next s) ∧
    (o.kind = 5 → o.issuable = true → s.dev.braked = false → s.dev.takes 0x52 = true → s.dev.firstReady o = true → o.fld 0 14 1 = 0 →
      (o.dispOk = false → ∃ t q, exec (.dispatchRunning op) s = .next t ∧ t.store = s.store ∧ t.dev.fop op = some q ∧
        q.state = .complete ∧ q.status = sRights) ∧
      (o.dispOk = true → (∀ i < 5, (o.area i).2 = false) → o.pages = [] →
        (s.dev.gateSpans o = none → ∃ t q, exec (.dispatchRunning op) s = .next t ∧ t.store = s.store ∧ t.dev.fry.disp = [] ∧
          t.dev.fop op = some q ∧ q.state = .complete ∧ q.status = sRights) ∧
        ((s.dev.gateSpans o).isSome = true → ∃ d a, d.dispReq op = some a ∧ a.stage = 1 ∧ a.spans = [] ∧
          (∃ x ∈ d.fry.xfers, x.op = op ∧ x.key = .dispIn 3) ∧ (o.biasOn = true → ∃ x ∈ d.fry.xfers, x.op = op ∧ x.key = .dispIn 2) ∧
          exec (.dispatchRunning op) s = .next (withPkg s (Pkg.settle (s.store, d))))))) ∧
  (∀ (op : Nat) (media : List LineMedia) (o : FOp) (a : DispReq) (s : State), s.dev.running = true → s.dev.domOn 11 = true →
    s.dev.fop op = some o → s.dev.dispReq op = some a →
    (a.stage ≠ 2 ∨ o.retired = true → quiet s.dev → exec (.routingDone op media) s = .next s) ∧
    (a.stage = 2 → o.retired = false → a.cur = none → (∃ n ∈ maskArrays o.dispMask, s.dev.arrFree n = true ∧ s.dev.arrTurn o.seq n = true) →
      (∀ l ∈ (o.areaRuns 1).flatMap (o.runLines 1 (o.area 1).2), s.dev.linePowered l = true) → 1 ≤ o.tokens → 1 ≤ o.choices →
      o.choices ≤ (o.enabled (a.table.getD [])).length → ∃ d b, d.dispReq op = some b ∧ b.stage = 3 ∧ b.cur.isSome = true ∧
        b.todo.length + 1 = o.tokens * o.choices ∧ exec (.routingDone op media) s = .next (withPkg s (Pkg.settle (s.store, d))))) ∧
  (∀ (op : Nat) (how : AnsHow) (data : List Byte) (o : FOp) (a : DispReq) (r : Resolving) (q : OutReq) (s : State), s.dev.running = true →
    s.dev.domOn 11 = true → s.dev.fop op = some o → s.dev.dispReq op = some a → a.cur = some r → o.retired = false →
    s.dev.src.reqs.find? (fun p => p.acc.purpose == .tail op) = some q → q.acc.purpose = .tail op → r.spill = false → o.dispOk = true →
    s.dev.homeIdle = true ∨ noneAtHome s.dev → s.dev.expired q = false →
    let j := leNat (sliceBytes data 0 8)
    (how.status = sOk → j < expertCap (a.table.getD []) r.expert → ∃ d b, d.dispReq op = some b ∧
      b.cur = some { r with outcome := if r.tries = 0 then 0 else 1, slot := j } ∧
      (∃ x ∈ d.fry.xfers, x.op = op ∧ x.key = .dispSlot (expertQueue (a.table.getD []) r.expert + j * o.slotStride) false ∧ x.kind = .write ∧ (x.parts.head?).map (·.gpa) =
        some ((expertQueue (a.table.getD []) r.expert + j * o.slotStride + 64) % 2 ^ 52)) ∧
      exec (.tailFetchAnswer op how data) s = .next (withPkg s (Pkg.settle (s.store, d)))) ∧
    (how.status = sOk → expertCap (a.table.getD []) r.expert ≤ j → o.policy = 0 → a.todo = [] → ∃ d b, d.dispReq op = some b ∧ b.cur = none ∧
      b.dropped = a.dropped + 1 ∧ (∃ x ∈ d.fry.xfers, x.op = op ∧ x.key = .dispRoute ∧ x.kind = .write) ∧
      exec (.tailFetchAnswer op how data) s = .next (withPkg s (Pkg.settle (s.store, d)))) ∧
    (how.status ≠ sOk → a.todo = [] → ∃ d b, d.dispReq op = some b ∧ b.cur = none ∧ b.dropped = a.dropped ∧ b.low = min a.low how.status ∧
      (∃ x ∈ d.fry.xfers, x.op = op ∧ x.key = .dispRoute ∧ x.kind = .write) ∧
      exec (.tailFetchAnswer op how data) s = .next (withPkg s (Pkg.settle (s.store, d))))) ∧
  (∀ (op : Nat) (o : FOp) (a : DispReq) (s : State), s.dev.running = true → s.dev.fop op = some o → s.dev.fry.disp = [a] → a.op = op →
    o.retired = false → o.fld 0 14 1 = 0 →
    (a.stage ≠ 3 ∨ a.todo ≠ [] ∨ a.cur ≠ none ∨ s.dev.opBusy op = true → exec (.dispatchComplete op) s = .next s) ∧
    (a.stage = 3 → a.todo = [] → a.cur = none → s.dev.opBusy op = false → ∃ t q, exec (.dispatchComplete op) s = .next t ∧
      t.store = s.store ∧ t.dev.fry.disp = [] ∧ t.dev.fop op = some q ∧ q.state = .complete ∧ q.result = a.dropped ∧
      q.status = if a.low = 16 then sOk else a.low))

/-! ### Switch and routes (R32, R378–R430) -/

/-- R32, R43, R382, R384, R385, R389, R391, R395, R420, R466: a frame that leaves its receive crossing. No other than its first leaves it.
At a fabric port an impossible destination is discarded and captured, its slots returned; else the frame joins the tail of its output's
queue, in the head cache or, where that has no room or the queue has spilled, in free places of the partition in power; without room, or
at the input's limit in STATIC mode, it waits in receive space, without a live port it is held. A frame behind an older one of its input
and class that waits, waits too; a DATA frame goes behind its request frame, in receive space, held or queued, and spills with it where
the head cache has no room. In STATIC mode, and of every class but BULK in any mode, no queued frame leaves or changes place. -/
def Said.FrameArrival : Prop :=
  ∀ (inp : Fin 35) (f : Frame) (tie : Nat) (s : State), s.dev.running = true → mirrorsOff s.dev →
    let e := s.dev.newLast inp.val f.hdr.cls
    let q := { arrived f inp.val with last := true }
    let x := (s.dev.strayCount q).1
    (inp.val < 24 → (s.dev.link inp.val).rx.head? ≠ some f → exec (.frameArrive inp f tie) s = .next s) ∧
    ((inp.val < 24 → (s.dev.link inp.val).rx.head? = some f ∧ (s.dev.link inp.val).rxFree = 0) →
      (inp.val < 24 → ∀ t, exec (.frameArrive inp f tie) s = .next t → (t.dev.link inp.val).rx = (s.dev.link inp.val).rx.tail) ∧
      (inp.val < 24 → s.dev.badDest f.hdr.dest = true → shaped s.dev →
        ∃ t, exec (.frameArrive inp f tie) s = .next t ∧ t.store = s.store ∧ t.dev.swc = s.dev.swc ∧
          t.dev.rdp F.BLK_ERR_CNT_ERRORS (0x80 + inp.val) = min (s.dev.rdp F.BLK_ERR_CNT_ERRORS (0x80 + inp.val) + 1) 0xFFFF ∧
          nget (t.dev.link inp.val).owed (4 * f.hdr.cls + f.hdr.channel) =
            nget (s.dev.link inp.val).owed (4 * f.hdr.cls + f.hdr.channel) + f.hdr.len) ∧
      (¬(inp.val < 24 ∧ s.dev.badDest f.hdr.dest = true) →
        (f.hdr.opcode ≠ 0x07 → s.dev.swc.recvSpace = [] →
          let head := (e.voq inp.val · f.hdr.cls)
          (∀ o c, s.dev.lookup q tie = .to o c →
            (s.dev.atLimit q = false → (head o).any (·.spilled) = false → s.dev.headBytes inp.val + q.bytes ≤ s.dev.headLimit inp.val →
              ∃ t, exec (.frameArrive inp f tie) s = .next t ∧ t.store = s.store ∧ t.dev.out = s.dev.out ∧
                t.dev.voq inp.val o f.hdr.cls = head o ++ [{ x with credit := c, paid := true }] ∧ t.dev.swc.recvSpace = [] ∧
                t.dev.swc.heldFrames = e.swc.heldFrames ∧
                (∀ i p k, (i, p, k) ≠ (inp.val, o, f.hdr.cls) → t.dev.voq i p k = e.voq i p k)) ∧
            (s.dev.atLimit q = false → (head o).any (·.spilled) = true ∨ s.dev.headLimit inp.val < s.dev.headBytes inp.val + q.bytes →
              (∀ fl, s.dev.spillRoom q = some fl → ∃ t cs, exec (.frameArrive inp f tie) s = .next t ∧ t.store = s.store ∧
                (∀ y ∈ cs, y ∉ s.dev.usedCells ∧ s.dev.domOn (20 + y / 2 ^ 22) = true) ∧
                t.dev.voq inp.val o f.hdr.cls = head o ++ [{ x with credit := c, spilled := true, inFloor := fl, cells := cs, paid := true }] ∧
                (∀ i p k, (i, p, k) ≠ (inp.val, o, f.hdr.cls) → t.dev.voq i p k = e.voq i p k)) ∧
              (s.dev.spillRoom q = none → s.dev.pushout = false ∨ f.hdr.cls = 2 ∨ s.dev.victimVoq tie = none →
                ∃ t, exec (.frameArrive inp f tie) s = .next t ∧
                  t.store = s.store ∧ t.dev.swc.recvSpace = [{ x with credit := c }] ∧ t.dev.swc.voqs = e.swc.voqs)) ∧
            (s.dev.atLimit q = true → ∃ t, exec (.frameArrive inp f tie) s = .next t ∧
              t.store = s.store ∧ t.dev.swc.recvSpace = [{ x with credit := c }] ∧ t.dev.swc.voqs = e.swc.voqs)) ∧
          (s.dev.lookup q tie = .held → ∃ t, exec (.frameArrive inp f tie) s = .next t ∧ t.store = s.store ∧
            t.dev.swc.heldFrames = e.swc.heldFrames ++ [{ x with paid := true }] ∧ t.dev.swc.voqs = e.swc.voqs) ∧
          (s.dev.lookup q tie = .wait → ∃ t, exec (.frameArrive inp f tie) s = .next t ∧ t.store = s.store ∧
            t.dev.swc.recvSpace = [x] ∧ t.dev.swc.voqs = e.swc.voqs)) ∧
        (f.hdr.opcode ≠ 0x07 → s.dev.swc.recvSpace.any (fun w => w.inp == inp.val && w.f.hdr.cls == f.hdr.cls) = true →
          ∃ t, exec (.frameArrive inp f tie) s = .next t ∧ t.store = s.store ∧ t.dev.swc.recvSpace = e.swc.recvSpace ++ [q] ∧
            t.dev.swc.voqs = e.swc.voqs) ∧
        (f.hdr.opcode ≠ 0x07 → ∀ t, exec (.frameArrive inp f tie) s = .next t → ∀ i o k, s.dev.pushout = false ∨ k ≠ 2 →
          e.voq i o k <+: t.dev.voq i o k) ∧
        (f.hdr.opcode = 0x07 → ∀ l y r, l.any (QFrame.leads inp.val f.hdr.cls) = false → y.leads inp.val f.hdr.cls = true →
          (s.dev.swc.recvSpace = l ++ y :: r → ∃ t, exec (.frameArrive inp f tie) s = .next t ∧ t.store = s.store ∧
            t.dev.swc.recvSpace = l ++ y.pair f :: r ∧ t.dev.swc.voqs = s.dev.swc.voqs) ∧
          (s.dev.swc.recvSpace = [] → s.dev.swc.heldFrames = l ++ y :: r → ∃ t, exec (.frameArrive inp f tie) s = .next t ∧ t.store = s.store ∧
            t.dev.swc.heldFrames = l ++ y.pair f :: r ∧ t.dev.swc.voqs = s.dev.swc.voqs) ∧
          (∀ o, s.dev.swc.recvSpace = [] → s.dev.swc.heldFrames.any (QFrame.leads inp.val f.hdr.cls) = false →
            (∀ v ∈ s.dev.swc.voqs, (v.inp, v.out, v.cls) ≠ (inp.val, o, f.hdr.cls) → v.q.any (QFrame.leads inp.val f.hdr.cls) = false) →
            s.dev.voq inp.val o f.hdr.cls = l ++ [y] →
            let w := arrived f inp.val
            let bare := s.dev.setVoq inp.val o f.hdr.cls l
            let queue := fun (t : State) => t.dev.voq inp.val o f.hdr.cls
            (s.dev.atLimit w = false → y.spilled = false → s.dev.headBytes inp.val + w.bytes ≤ s.dev.headLimit inp.val →
              ∃ t, exec (.frameArrive inp f tie) s = .next t ∧ t.store = s.store ∧ queue t = l ++ [y.pair f] ∧ t.dev.swc.recvSpace = []) ∧
            (s.dev.atLimit w = false → y.spilled = true ∨ s.dev.headLimit inp.val < s.dev.headBytes inp.val + w.bytes →
              (∀ fl, bare.spillRoom (y.pair f) = some fl → ∃ t cs, exec (.frameArrive inp f tie) s = .next t ∧ t.store = s.store ∧
                (∀ c ∈ cs, c ∉ bare.usedCells ∧ c ∉ y.cells) ∧ t.dev.swc.recvSpace = [] ∧
                queue t = l ++ [{ y.pair f with spilled := true, inFloor := fl, cells := y.cells ++ cs }]) ∧
              (bare.spillRoom (y.pair f) = none → s.dev.pushout = false ∨ f.hdr.cls = 2 → ∃ t, exec (.frameArrive inp f tie) s = .next t ∧
                t.store = s.store ∧ queue t = l ++ [y] ∧ t.dev.swc.recvSpace = [w])) ∧
            (s.dev.atLimit w = true → ∃ t, exec (.frameArrive inp f tie) s = .next t ∧ t.store = s.store ∧
              t.dev.swc.voqs = s.dev.swc.voqs ∧ t.dev.swc.recvSpace = [w])))))

/-- R383, R384, R386, R415, R426, R443, R445: a frame that departs. The head of a queue leaves when it may, in its class's and its input's
turn: CHANNEL is the one it departs on, CMARK no lower than the queue's level; its DATA frame follows it, its slots are taken from the
credit and go out in sequenced flits of at most 15, which the replay buffer keeps. A head without its credit in BUBBLE mode only counts
BUBBLE_WAIT, as does each such head passed over; a class waits while a CTRL head can go, until 16 have gone, and, while all three others
can go, behind one that has had fewer bytes for its weight. Spilled frames return in queue order while the head cache has room. -/
def Said.FrameDeparture : Prop :=
  ∀ (out inp : Fin 35) (cls : Fin 4) (s : State), s.dev.running = true → mirrorsOff s.dev → s.dev.swc.recvSpace = [] →
    (∀ ch, s.dev.headOf inp.val out.val cls.val = none → exec (.frameDepart out inp cls ch) s = .next s) ∧
    (∀ ch q, s.dev.headOf inp.val out.val cls.val = some q →
      (s.dev.mayDepart out.val ch q = true → s.dev.classMayGo out.val cls.val = true → s.dev.turn out.val cls.val = some inp.val →
        let lvl := if cls.val = 3 then 0 else s.dev.markLevel out.val cls.val
        let sent := fun (f : Frame) => { f with hdr := { f.hdr with channel := ch, cmark := max f.hdr.cmark lvl } }
        ∃ t, exec (.frameDepart out inp cls ch) s = .next t ∧ t.store = s.store ∧
          t.dev.voq inp.val out.val cls.val = (s.dev.voq inp.val out.val cls.val).tail ∧
          (∀ i p k, (i, p, k) ≠ (inp.val, out.val, cls.val) → t.dev.voq i p k = s.dev.voq i p k) ∧
          (q.tail = none → t.dev.out.getLast? = some (.depart out.val ch (sent q.f))) ∧
          (∀ d, q.tail = some d → ∃ l, t.dev.out = l ++ [.depart out.val ch (sent q.f), .depart out.val ch (sent d)]) ∧
          ((cls.val = 3 → nget t.dev.swc.ctrlRun out.val = nget s.dev.swc.ctrlRun out.val + 1) ∧
            (cls.val ≠ 3 → nget t.dev.swc.ctrlRun out.val = 0 ∧ (s.dev.allReady out.val = true →
              nget t.dev.swc.served (4 * out.val + cls.val) = nget s.dev.swc.served (4 * out.val + cls.val) + q.bytes))) ∧
          nget t.dev.swc.lastGrant (4 * out.val + cls.val) = inp.val + 1 ∧
          (let n := ((s.dev.passedOver out.val inp.val cls.val).filter (s.dev.bubbleWaits out.val)).length
           s.dev.towpath = false → s.dev.rdp F.BLK_CTRL_CNT_FREEZE 0x61 = 0 → s.dev.counter 0x61 0 + n < 2 ^ 64 → ch < 2 →
            t.dev.counter 0x61 0 = s.dev.counter 0x61 0 + n) ∧
          (out.val < 24 → shaped s.dev → 0 < q.f.hdr.len → (∀ d, q.tail = some d → 0 < d.hdr.len) →
            t.dev.creditOf out.val cls.val ch = s.dev.creditOf out.val cls.val ch - q.slots ∧
            ∃ fs : List Flit, (t.dev.link out.val).buffer = (s.dev.link out.val).buffer ++ fs ∧
              (∀ g ∈ fs, g.kind = 0 ∧ g.slots.length ≤ 240 ∧ .flit out.val (g.bytes (s.dev.link out.val).rxSeq false) ∈ t.dev.out) ∧
              fs.flatMap (·.slots) = (sent q.f).slots ++ ((q.tail.map sent).map Frame.slots).getD [])) ∧
      (s.dev.towpath = false → out.val < 24 → s.dev.linkState out.val = 5 → (∀ ch < 2, s.dev.bubbleCredit out.val ch q = false) →
        exec (.frameDepart out inp cls ch) s = .next { s with dev := s.dev.count 0x61 0 1 }) ∧
      (cls.val ≠ 3 → s.dev.classReady out.val 3 = true → nget s.dev.swc.ctrlRun out.val < 16 →
        s.dev.headReady inp.val out.val cls.val = true → exec (.frameDepart out inp cls ch) s = .next s) ∧
      (cls.val ≠ 3 → s.dev.allReady out.val = true → s.dev.headReady inp.val out.val cls.val = true →
        (∃ o < 3, nget s.dev.swc.served (4 * out.val + o) * s.dev.weight cls.val < nget s.dev.swc.served (4 * out.val + cls.val) * s.dev.weight o) →
        exec (.frameDepart out inp cls ch) s = .next s)) ∧
    ((s.dev.voq inp.val out.val cls.val).any (·.spilled) = false → exec (.spillReturn inp out cls) s = .next s) ∧
    (∀ l q r, s.dev.voq inp.val out.val cls.val = l ++ q :: r → l.any (·.spilled) = false → q.spilled = true →
      s.dev.headBytes inp.val + q.bytes ≤ s.dev.headLimit inp.val → ∃ t, exec (.spillReturn inp out cls) s = .next t ∧ t.store = s.store ∧
        t.dev.out = s.dev.out ∧ t.dev.voq inp.val out.val cls.val = l ++ { q with spilled := false, inFloor := false, cells := [] } :: r ∧
        (∀ i p k, (i, p, k) ≠ (inp.val, out.val, cls.val) → t.dev.voq i p k = s.dev.voq i p k))

/-- R385, R393, R395, R398–R400: what becomes of copies, victims and the frames of a lost output or bank group. A copy takes its session's
next number and waits in the mirror buffer where it fits; the oldest of a destination that takes it is sent, by the analysis port in flits
on its credit, or into the ring in host memory. A victim is the evictable frame nearest the tail of a BULK queue; its bounce is a response
of two slots to its sender that carries the victim's header. Every frame queued for an output that goes down stays in the package. Before
a bank group goes off, no spilled frame has a place in it. -/
def Said.MirrorAndRequeue : Prop :=
  (∀ (s : State), s.dev.running = true →
    ((∀ c ∈ s.dev.swc.mirror, s.dev.mirTakes c = false) → exec .mirrorSend s = .next s) ∧
    (∀ l c r, s.dev.swc.mirror = l ++ c :: r → (∀ x ∈ l, x.dest ≠ c.dest ∧ s.dev.mirTakes x = false) → s.dev.mirTakes c = true →
      (c.dest = 0 →
        let p := s.dev.rd F.MIR_DEST_PORT
        p < 24 → shaped s.dev → c.bytes.length % 16 = 0 → ∃ t ch, exec .mirrorSend s = .next t ∧ t.store = s.store ∧
          t.dev.swc.mirror = l ++ r ∧ .analysis p c.bytes ∈ t.dev.out ∧ ch < 2 ∧
          t.dev.creditOf p c.cls ch + c.bytes.length / 16 = s.dev.creditOf p c.cls ch ∧
          ∃ fs : List Flit, (t.dev.link p).buffer = (s.dev.link p).buffer ++ fs ∧ fs.flatMap (·.slots) = c.bytes ∧
            ∀ g ∈ fs, g.kind = 0 ∧ .flit p (g.bytes (s.dev.link p).rxSeq false) ∈ t.dev.out) ∧
      (c.dest = 1 → s.dev.rd F.GLB_PIN_STAT_PERST = 0 → s.dev.rd F.MIR_RING_CFG_INT_EN = 0 →
        ∃ t, exec .mirrorSend s = .next t ∧ t.store = s.store ∧ t.dev.swc.mirror = l ++ r ∧
          t.dev.rd F.MIR_RING_PROD_PROD = (s.dev.rd F.MIR_RING_PROD_PROD + 1) % 2 ^ 32 ∧
          t.dev.out = s.dev.out ++ [.hostWrite (ringAddr (s.dev.rd F.MIR_RING_BASE_LO_BASE_LO) (s.dev.rd F.MIR_RING_BASE_HI_BASE_HI)
            (s.dev.rd F.MIR_RING_PROD_PROD) (s.dev.rd F.MIR_RING_CFG_LOG2_SIZE) 320) (sliceBytes c.bytes 0 320)]))) ∧
  (∀ (i p point : Nat) (f : Frame) (d : Dev), i < 4 →
    (Dev.mirCopy i p point f d).rdi F.MIR_SESS_SEQ_SEQ i = (d.rdi F.MIR_SESS_SEQ_SEQ i + 1) % 2 ^ 32 ∧
    ((d.swc.mirror.map (fun c => c.bytes.length)).sum + (d.mirRecord i p point f).length ≤ 4 * 1024 * 1024 →
      (Dev.mirCopy i p point f d).swc.mirror = d.swc.mirror ++ [⟨i, d.rdi F.MIR_SESS_CFG_DEST i, f.hdr.cls, d.mirRecord i p point f⟩]) ∧
    (4 * 1024 * 1024 < (d.swc.mirror.map (fun c => c.bytes.length)).sum + (d.mirRecord i p point f).length →
      (Dev.mirCopy i p point f d).swc.mirror = d.swc.mirror)) ∧
  (∀ (f : Frame) (d : Dev), (d.bounceOf f).hdr.dest = f.hdr.srcNode ∧ (d.bounceOf f).hdr.srcEngine = f.hdr.srcEngine ∧
    (d.bounceOf f).hdr.cls = 1 ∧ (d.bounceOf f).hdr.len = 2 ∧ (d.bounceOf f).hdr.status = sBounced ∧ (d.bounceOf f).pay = hdrBytes f.hdr) ∧
  (∀ (tie : Nat) (d : Dev) (v : Voq), d.victimVoq tie = some v → v ∈ d.swc.voqs ∧ v.cls = 2 ∧
    ∃ l x r, v.q = l ++ x :: r ∧ takeLastFrom d.evictable v.q = some (x, l ++ r) ∧ d.evictable x = true ∧ (∀ y ∈ r, d.evictable y = false) ∧
      (Dev.evict v x (l ++ r) d).voq v.inp v.out v.cls = l ++ r) ∧
  (∀ (out : Nat) (d : Dev) (v : Voq) (q : QFrame), v ∈ d.swc.voqs → v.out = out → q ∈ v.q →
    ∃ w : QFrame, w.f = q.f ∧ w.tail = q.tail ∧
      (w ∈ (d.requeue out).swc.heldFrames ∨ w ∈ (d.requeue out).swc.recvSpace ∨ ∃ u ∈ (d.requeue out).swc.voqs, w ∈ u.q)) ∧
  (∀ (g : Nat) (d : Dev), ∀ v ∈ (d.moveSpilled g).swc.voqs, ∀ q ∈ v.q, ∀ c ∈ q.cells, c / 2 ^ 22 ≠ g)

/-- Frames through the crossbar: arrival, departure, mirroring and requeueing. -/
def Obligations.SwitchFrames : Prop := Said.FrameArrival ∧ Said.FrameDeparture ∧ Said.MirrorAndRequeue

/-- R404, R407, R408, R410, R411, R414, R416, R417: the choice of an output. A frame for the package itself goes to the port it names. A
candidate is a live port that the entry of the frame's bank names for its role. In BUBBLE mode none of a lower phase counts; the lowest
score wins, for CTRL the lowest port, and without a candidate the frame is held. In TOWPATH mode a frame of the towpath stays in the group
of TOW, and one that takes a credit takes an ordinary one that is free. -/
def Said.RouteChoice : Prop :=
  (∀ (d : Dev) (b : Bool) (dest cls p : Nat) (e : Bool), (p, e) ∈ d.candidates b dest cls →
    bit (d.routeEntry b dest cls) 55 = true ∧ p < 24 ∧ d.live b p = true ∧
    ((d.role p = 1 ∧ e = false ∧ bit (d.routeEntry b dest cls) p = true) ∨
      (d.role p = 2 ∧ e = true ∧ bit (d.routeEntry b dest cls) (24 + p) = true) ∨
      (d.role p = 3 ∧ d.spareSet (bits (d.routeEntry b dest cls) (if e then 24 else 0) 24) p = true))) ∧
  (∀ (d : Dev) (q : QFrame) (tie : Nat),
    let h := q.f.hdr
    let b := d.bankFor h.epoch
    (d.takenLocally h = true → h.dstPort < 35 → d.lookup q tie = .to h.dstPort none) ∧
    (d.takenLocally h = false → d.towpath = false →
      let cs := (d.candidates b h.dest h.cls).filter (fun c => decide (d.framePhase q.inp ≤ groupPhase (d.group c.1)))
      (d.lookup q tie = .held ↔ cs = []) ∧ d.lookup q tie ≠ .wait ∧
      (∀ p c, d.lookup q tie = .to p c → c = none ∧ ∃ e, (p, e) ∈ cs ∧
        (h.cls = 3 → ∀ x ∈ cs, p ≤ x.1) ∧ (h.cls ≠ 3 → ∀ x ∈ cs, d.score h.cls (p, e) ≤ d.score h.cls x))) ∧
    (d.takenLocally h = false → d.towpath = true → 2 ≤ q.arrChan → ∀ p c, d.lookup q tie = .to p c →
      c = none ∧ p < 24 ∧ d.group p = d.group (bits (d.routeEntry b h.dest h.cls) 48 5) ∧ d.live b p = true ∧
      bit (d.routeEntry b h.dest h.cls) 55 = true ∧
      (d.role p = 1 ∨ d.role p = 2 ∨ (d.role p = 3 ∧ d.downOf (d.group p) ≠ []))) ∧
    (d.takenLocally h = false → d.towpath = true → q.arrChan < 2 →
      let cs := (d.candidates b h.dest h.cls).filter (fun c => (d.takeCredit c.1 h q.slots).isSome)
      (∀ p ch, d.lookup q tie = .to p (some ch) → ch < 2 ∧ q.slots ≤ d.freeCredit p h.cls ch ∧ (∃ e, (p, e) ∈ cs) ∧
        (h.cls = 3 → ∀ x ∈ cs, p ≤ x.1)) ∧
      (∀ p, d.lookup q tie = .to p none → cs = [] ∧ d.towPort b h.dest h.cls = some p) ∧
      (d.lookup q tie = .wait → cs = [] ∧ d.towPort b h.dest h.cls = none ∧ d.candidates b h.dest h.cls ≠ []) ∧
      (d.lookup q tie = .held → d.towPort b h.dest h.cls = none ∧ d.candidates b h.dest h.cls = [])))

/-- R405, R421, R422, R424, R429: route tables. RTE_LOAD writes its entries into a RETIRED bank and no other, as does a write of half an
entry by the owner. ARM takes RETIRED to ARMED with T, an armed bank with the same T is NO_CHANGE, one that is ACTIVE or DRAINING
BAD_STATE; a T already past flips at once. At T the bank becomes ACTIVE and the other, if it was, DRAINING, which retires after its
interval. DISARM takes ARMED to RETIRED. A port's role changes only while its link is down, MODE while every link is. -/
def Said.RouteTables : Prop :=
  (∀ (src : Nat) (b : Bool) (es : List (Nat × Nat)) (s : State), s.dev.running = true → s.dev.fmAllowed src = true →
    (s.dev.bankState b = 0 → (es.map (·.1)).Nodup → ∃ t, exec (.rteLoad src b es) s = .next t ∧ t.store = s.store ∧ t.dev.regs = s.dev.regs ∧
      (s.dev.hasNode src = true → t.dev.out = s.dev.out ++ [.ctrl src (.result "RTE_LOAD" rDone)]) ∧
      (∀ e ∈ es, e.1 < 512 → t.dev.routeEntry b (e.1 / 4) (e.1 % 4) = routeMerge (s.dev.routeEntry b (e.1 / 4) (e.1 % 4)) e.2) ∧
      (∀ k, k ∉ es.map (·.1) → t.dev.routeEntry b (k / 4) (k % 4) = s.dev.routeEntry b (k / 4) (k % 4)) ∧
      (∀ dest cls, t.dev.routeEntry (!b) dest cls = s.dev.routeEntry (!b) dest cls)) ∧
    (s.dev.bankState b ≠ 0 → ∃ t, exec (.rteLoad src b es) s = .next t ∧ t.store = s.store ∧ t.dev.rte = s.dev.rte ∧
      t.dev.rdp F.BLK_ERR_CNT_ERRORS 0x61 = min (s.dev.rdp F.BLK_ERR_CNT_ERRORS 0x61 + 1) 0xFFFF)) ∧
  (∀ (m : Master) (p off : Nat) (v : W32) (b hi : Bool) (key : Nat) (s : State), pageOpen s.dev m p → s.dev.owns m p = true →
    off < 0x1000 → off % 4 = 0 → routeAt p off = some (b, key, hi) →
    let old := nget (if b then s.dev.rte.bankB else s.dev.rte.bankA) key
    let new := if hi then old % 2 ^ 32 + v.toNat * 2 ^ 32 else old / 2 ^ 32 * 2 ^ 32 + v.toNat
    (s.dev.bankState b = 0 → ¬(hi = true ∧ 24 ≤ bits new 48 5) →
      exec (.routeEntryWrite m p off v) s = .next { s with dev := (tlp m s.dev).setRoute b key (routeMerge old new) }) ∧
    (s.dev.bankState b ≠ 0 → exec (.routeEntryWrite m p off v) s = .next { s with dev := (tlp m s.dev).dropWrite m p off v.toNat 3 })) ∧
  (∀ (src : Nat) (b : Bool) (T : Nat) (s : State), s.dev.running = true → s.dev.domOn 11 = true → quiet s.dev → s.dev.fmAllowed src = true →
    T < 2 ^ 64 →
    let at_ := if b then s.dev.rte.flipB else s.dev.rte.flipA
    (s.dev.bankState b = 0 ∨ (s.dev.bankState b = 1 ∧ at_ ≠ T) →
      ∃ t, exec (.arm (.msg src (b, T))) s = .next t ∧ t.store = s.store ∧ (s.dev.hasNode src = true → t.dev.out.getLast? = some (.ctrl src (.result "ARM" rDone))) ∧
        t.dev.rd F.RTE_FLIP_TIME_LO_T_LO = T % 2 ^ 32 ∧ t.dev.rd F.RTE_FLIP_TIME_HI_T_HI = T / 2 ^ 32 ∧
        (if b then t.dev.rte.flipB else t.dev.rte.flipA) = T ∧
        (s.dev.tim.tide ≤ T * 256 → t.dev.bankState b = 1 ∧ t.dev.bankState (!b) = s.dev.bankState (!b)) ∧
        (T * 256 < s.dev.tim.tide → t.dev.bankState b = 2 ∧ t.dev.activeBank = b ∧ (s.dev.bankState (!b) = 2 → t.dev.bankState (!b) = 3))) ∧
    (s.dev.bankState b = 1 → at_ = T →
      exec (.arm (.msg src (b, T))) s = .next { s with dev := s.dev.ctrl src (.result "ARM" rNoChange) }) ∧
    (2 ≤ s.dev.bankState b → ∃ t, exec (.arm (.msg src (b, T))) s = .next t ∧ t.store = s.store ∧ t.dev.rte = s.dev.rte ∧
      t.dev.bankState b = s.dev.bankState b ∧ (s.dev.hasNode src = true → t.dev.out.getLast? = some (.ctrl src (.result "ARM" rBadState)))) ∧
    (s.dev.bankState b = 1 → exec (.disarm (.msg src b)) s = .next { s with
      dev := (s.dev.setBankState b 0).ctrl src (.result "DISARM" rDone) }) ∧
    (s.dev.bankState b = 0 → exec (.disarm (.msg src b)) s = .next { s with dev := s.dev.ctrl src (.result "DISARM" rNoChange) }) ∧
    (2 ≤ s.dev.bankState b → exec (.disarm (.msg src b)) s = .next { s with dev := s.dev.ctrl src (.result "DISARM" rBadState) })) ∧
  (∀ (m : Master) (s : State), exec (.arm (.reg m)) s = exec (.registerWrite m 0x61110 4 (goWord F.RTE_CMD_OP 1 s)) s ∧
    exec (.disarm (.reg m)) s = exec (.registerWrite m 0x61110 4 (goWord F.RTE_CMD_OP 2 s)) s) ∧
  (∀ (b : Bool) (s : State), s.dev.running = true → s.dev.swc.heldFrames = [] → s.dev.swc.recvSpace = [] →
    (s.dev.flipDue b = true → s.dev.flipDue (!b) = false → ∃ t, exec .bankFlip s = .next t ∧ t.store = s.store ∧ t.dev.bankState b = 2 ∧
      t.dev.activeBank = b ∧ t.dev.bankState (!b) = (if s.dev.bankState (!b) = 2 then 3 else s.dev.bankState (!b)) ∧
      (s.dev.bankState (!b) = 2 → (if b then t.dev.rte.drainA else t.dev.rte.drainB) = (if b then s.dev.rte.flipB else s.dev.rte.flipA)) ∧
      t.dev.rte.bankA = s.dev.rte.bankA ∧ t.dev.rte.bankB = s.dev.rte.bankB) ∧
    (s.dev.flipDue b = false → s.dev.flipDue (!b) = false → exec .bankFlip s = .next s) ∧
    (s.dev.retireDue b = true → s.dev.retireDue (!b) = false → exec .bankRetire s = .next { s with dev := s.dev.setBankState b 0 }) ∧
    (s.dev.retireDue b = false → s.dev.retireDue (!b) = false → exec .bankRetire s = .next s)) ∧
  (∀ (m : Master) (v : W32) (s : State), pageOpen s.dev m 0x61 → s.dev.owns m 0x61 = true → quiet s.dev →
    (∀ p : Fin 24,
      (fieldsTaken (tlp m s.dev) m 0x61 (0x200 + 4 * p.val) v.toNat → ∃ t, exec (.rtePortRoleWrite m p v) s = .next t ∧ t.store = s.store ∧
        t.dev.role p.val = bits v.toNat 0 3 ∧ t.dev.group p.val = bits v.toNat 4 3 ∧
        t.dev.rdi F.RTE_PORT_ROLE_DATELINE p.val = bits v.toNat 7 1) ∧
      (s.dev.linkState p.val ≠ 0 → exec (.rtePortRoleWrite m p v) s = .next { s with
        dev := (tlp m s.dev).dropWrite m 0x61 (0x200 + 4 * p.val) v.toNat 3 })) ∧
    (fieldsTaken (tlp m s.dev) m 0x61 0x100 v.toNat → ∃ t, exec (.rteCfgWrite m v) s = .next t ∧ t.store = s.store ∧
      t.dev.rd F.RTE_CFG_MODE = bits v.toNat 0 1 ∧ t.dev.rd F.RTE_CFG_EXP_BIAS = bits v.toNat 4 4 ∧
      t.dev.rd F.RTE_CFG_DRAIN_US = bits v.toNat 16 16) ∧
    (s.dev.linksDown = false → ∃ t, exec (.rteCfgWrite m v) s = .next t ∧ t.store = s.store ∧
      t.dev.rd F.RTE_CFG_MODE = s.dev.rd F.RTE_CFG_MODE))

/-- The choice of a route, and the tables it comes from. -/
def Obligations.Routes : Prop := Said.RouteChoice ∧ Said.RouteTables

/-! ### Links (R431–R461, R621) -/

/-- R432, R436, R437, R439, R440, R449, R452, R621: the states of a link. ENABLE = 1 takes a port from DOWN to DETECT with a wake tone and
the training pattern, ENABLE = 0 any state to DOWN; a link that leaves TRAIN, ALIGN, PARAM or RETRAIN past its bound, that has no lane left or loses its signal goes DOWN and
records it. TRAIN marks the lanes that fail and settles precoding lane by lane, ALIGN and RETRAIN choose the width of both sides and the lowest healthy
lanes; PARAM leaves as flit 0, and the partner's, once its flit is accepted, loads the credits. A failed lane takes a link that is UP to
RETRAIN and is captured; RETRAIN keeps its credits and what awaits an acknowledgement, and replays it. -/
def Said.LinkTraining : Prop :=
  ∀ (p : Fin 28) (s : State), s.dev.running = true → shaped s.dev →
    let st := s.dev.linkState p.val
    let l := s.dev.link p.val
    let pg := linkPage p.val
    let isr := fun (t : State) (i : Nat) => bit (t.dev.word (pg * 0x1000 + 0x14)) i
    let down := fun (t : State) => t.store = s.store ∧ t.dev.linkState p.val ≤ 1 ∧ isr t (if p.val < 24 then 1 else 2) = true ∧
      (t.dev.link p.val).credits = [] ∧ (t.dev.link p.val).txSeq = (t.dev.link p.val).acked
    let keeps := fun (t : State) => t.store = s.store ∧ (t.dev.link p.val).credits = l.credits ∧ (t.dev.link p.val).txSeq = l.txSeq ∧
      (t.dev.link p.val).acked = l.acked
    (∀ (m : Master) (v : W32), pageOpen s.dev m pg → s.dev.owns m pg = true → quiet s.dev →
      (fieldsTaken (tlp m s.dev) m pg (if p.val < 24 then 0x100 else 0x300) (putBit v.toNat 0 true) → st = 0 → s.dev.booted = true →
        24 ≤ p.val ∨ s.dev.role p.val ≠ 0 → s.dev.rd F.PWR_STAT_STATE ≤ 1 → ∃ t, exec (.linkEnable m p v) s = .next t ∧ t.store = s.store ∧
          t.dev.linkState p.val = 1 ∧ t.dev.out = s.dev.out ++ toneSent t.dev p.val ∧ t.dev.slackLanes p.val = t.dev.disabledLanes p.val) ∧
      (fieldsTaken (tlp m s.dev) m pg (if p.val < 24 then 0x100 else 0x300) (putBit v.toNat 0 false) → st ≠ 0 →
        ∃ t, exec (.linkDisable m p v) s = .next t ∧ t.store = s.store ∧ t.dev.linkState p.val = 0 ∧ t.dev.linkWidth p.val = 0 ∧
          (5 ≤ st → isr t (if p.val < 24 then 1 else 2) = true))) ∧
    (st = 1 → l.since + us 1000 ≤ s.dev.tim.tide → ∃ t, exec (.detectTimer p) s = .next t ∧ t.store = s.store ∧
      (t.dev.link p.val).since = s.dev.tim.tide ∧ t.dev.linkState p.val = 1 ∧ t.dev.out = s.dev.out ++ toneSent s.dev p.val) ∧
    (st ≠ 1 ∨ s.dev.tim.tide < l.since + us 1000 → exec (.detectTimer p) s = .next s) ∧
    (st = 1 → exec (.partnerDetected p) s = .next { s with
      dev := (s.dev.setLinkState p.val 2).setLink p.val { l with since := s.dev.tim.tide } }) ∧
    (∀ (r : Trained) (rev : Bool), st = 2 →
      let use := maskMinus (allLanes p.val) (s.dev.disabledLanes p.val)
      let failed := Nat.lor (s.dev.failedLanes p.val) (maskMinus use r.passed)
      (maskMinus use failed ≠ 0 → ∃ t, exec (.trainComplete p r rev) s = .next t ∧ t.store = s.store ∧ t.dev.linkState p.val = 3 ∧
        (failed ≤ allLanes p.val → t.dev.failedLanes p.val = failed) ∧ (t.dev.link p.val).usable = use ∧
        t.dev.lrd p.val F.PRT_STAT_REVERSED F.LNDL_STAT_REVERSED = b2n rev ∧
        (∀ i < laneCount p.val,
          bit (t.dev.link p.val).precTx i = bit r.asked i ∧
          bit (t.dev.link p.val).precRx i = (match s.dev.rdpi F.PHY_LANE_CFG_PRECODE (phyPage p.val) i with
            | 0 => bit r.wish i
            | 1 => true
            | _ => false))) ∧
      (maskMinus use failed = 0 → ∃ t, exec (.trainComplete p r rev) s = .next t ∧ down t)) ∧
    (∀ healthy pmax, st = 3 →
      let c := chosenMap p.val (min (s.dev.maxWidth p.val) (2 ^ pmax)) (s.dev.healthy p.val healthy)
      (c.1 ≠ 0 → ∃ t, exec (.alignComplete p healthy pmax) s = .next t ∧ t.store = s.store ∧ t.dev.linkState p.val = 4 ∧
        t.dev.linkWidth p.val = c.1 ∧ t.dev.laneMap p.val = c.2 ∧ t.dev.slackLanes p.val = maskMinus (allLanes p.val) c.2 ∧
        (t.dev.link p.val).adv = (s.dev.ownParam p.val).drop 4 ∧
        (l.owed = [] → ∀ k, nget (t.dev.link p.val).lent k = nth ((s.dev.ownParam p.val).drop 4) k 0) ∧
        (l.lctlWait = [] → l.owed = [] → (∀ e ∈ s.dev.eyes, e.page ≠ phyPage p.val) → ∃ f : Flit, f.seq = 0 ∧ f.kind = 2 ∧
          f.slots = paramSlots (s.dev.ownParam p.val) ∧ (t.dev.link p.val).buffer = l.buffer ++ [f] ∧
          t.dev.out = s.dev.out ++ [.flit p.val (f.bytes 4095 false)])) ∧
      (c.1 = 0 → ∃ t, exec (.alignComplete p healthy pmax) s = .next t ∧ down t)) ∧
    (∀ a : ParamMsg,
      (l.lctlIn.head? ≠ some (.param a) → exec (.linkParam p a) s = .next s) ∧
      (∀ rest, l.lctlIn = .param a :: rest →
        (st = 4 → ∃ t, exec (.linkParam p a) s = .next t ∧ t.store = s.store ∧ t.dev.linkState p.val = 5 ∧ isr t (if p.val < 24 then 0 else 1) = true ∧
          (t.dev.link p.val).txSeq = l.txSeq ∧ (t.dev.link p.val).acked = l.acked ∧ (t.dev.link p.val).rxSeq = l.rxSeq ∧
          (∀ k < 16, nget (t.dev.link p.val).credits k = nth a.credits k 0) ∧ (t.dev.link p.val).lent = l.lent ∧
          (t.dev.link p.val).buffer = l.buffer ∧ (t.dev.link p.val).lctlIn = rest ∧
          t.dev.lrd p.val F.PRT_PARTNER_NODE F.LNDL_PARTNER_NODE = a.node % 4096 ∧
          t.dev.lrd p.val F.PRT_PARTNER_PORT F.LNDL_PARTNER_PORT = a.port % 32 ∧
          t.dev.lrd p.val F.PRT_PARTNER_VALID F.LNDL_PARTNER_VALID = 1) ∧
        (st < 4 → exec (.linkParam p a) s = .next { s with dev := s.dev.setLink p.val { l with lctlIn := rest } }) ∧
        (4 < st → exec (.linkParam p a) s = .next { s with dev := (s.dev.setLink p.val { l with lctlIn := rest }).setPartner p.val a }))) ∧
    (2 ≤ st ∧ st ≤ 4 → l.since + us 50000 ≤ s.dev.tim.tide → ∃ t, exec (.trainingBoundExceeded p) s = .next t ∧ down t) ∧
    (st = 6 → l.since + us (if l.readapt then 5000 else 20) ≤ s.dev.tim.tide → ∃ t, exec (.trainingBoundExceeded p) s = .next t ∧ down t) ∧
    (2 ≤ st ∧ st ≤ 4 → s.dev.tim.tide < l.since + us 50000 → exec (.trainingBoundExceeded p) s = .next s) ∧
    (5 ≤ st → ∃ t, exec (.lossOfSignal p) s = .next t ∧ down t) ∧
    (st < 5 → exec (.lossOfSignal p) s = .next s) ∧
    (∀ lane,
      (st = 5 ∨ st = 6 → lane < laneCount p.val → bit (s.dev.laneMap p.val) lane = true → ∃ t, exec (.laneFailure p lane) s = .next t ∧ keeps t ∧
        t.dev.linkState p.val = 6 ∧ bit (t.dev.failedLanes p.val) lane = true ∧
        (t.dev.link p.val).readapt = t.dev.mustReadapt p.val ∧
        t.dev.rdp F.BLK_ERR_CNT_ERRORS pg = min (s.dev.rdp F.BLK_ERR_CNT_ERRORS pg + 1) 0xFFFF) ∧
      ((st ≠ 5 ∧ st ≠ 6) ∨ bit (s.dev.laneMap p.val) lane = false → exec (.laneFailure p lane) s = .next s)) ∧
    (∀ far : FarLanes, st = 6 →
      let c := chosenMap p.val (min (s.dev.maxWidth p.val) (2 ^ far.maxWidth)) (s.dev.healthy p.val far.healthy)
      (c.1 ≠ 0 → ∃ t, exec (.retrainComplete p far) s = .next t ∧ keeps t ∧ t.dev.linkState p.val = 5 ∧ t.dev.linkWidth p.val = c.1 ∧
        t.dev.laneMap p.val = c.2 ∧ (t.dev.link p.val).txMask = c.2 ∧
        (t.dev.link p.val).buffer = l.buffer ∧ (∀ g ∈ l.buffer, Emit.flit p.val (g.bytes l.rxSeq false) ∈ t.dev.out)) ∧
      (c.1 = 0 → ∃ t, exec (.retrainComplete p far) s = .next t ∧ down t))

/-- R43–R45, R444, R445, R447–R451: flits. A flit whose CRC-64 does not hold or that stood in an uncorrectable codeword takes nothing and is
answered with NAK at once, and again every 1 µs; an uncorrectable codeword counts for its lane; the next flit in sequence is taken with its
grants, the frames it completes stand in the receive crossing in their order, and its link control message waits to take effect; any other
flit is discarded with its grants; none comes for which the crossing has no room or the partner no credit. The ACK field of every good flit
is taken, and a NAK sends every flit not acknowledged again in order. Without progress for TIMER_NS the transmitter replays, after
REPLAY_MAX replays it asks for RETRAIN, as the partner may by a message whose flit is accepted. -/
def Said.LinkFlits : Prop :=
  ∀ (p : Fin 28) (s : State), s.dev.running = true → shaped s.dev →
    let st := s.dev.linkState p.val
    let l := s.dev.link p.val
    let keeps := fun (t : State) => t.store = s.store ∧ (t.dev.link p.val).credits = l.credits ∧ (t.dev.link p.val).txSeq = l.txSeq ∧
      (t.dev.link p.val).acked = l.acked
    (∀ f : FlitMsg,
      let k := (f.ack + 4096 - l.acked) % 4096
      let acked := if 0 < k ∧ k ≤ (l.txSeq + 4096 - l.acked) % 4096 then f.ack % 4096 else l.acked
      let rest := if 0 < k ∧ k ≤ (l.txSeq + 4096 - l.acked) % 4096 then l.buffer.drop k else l.buffer
      let ahead := (f.seq + 4096 - l.rxSeq) % 4096
      let isNext := f.kind ≠ 1 ∧ f.kind ≠ 3 ∧ ahead = 1
      (f.good = (!f.uncorrectable && leNat (sliceBytes f.bytes 248 8) == crc64 (sliceBytes f.bytes 0 248))) ∧
      (st < 4 → exec (.flitReceive p f) s = .next s) ∧
      (f.good = true → isNext → s.dev.flitFits p.val f = false → exec (.flitReceive p f) s = .next s) ∧
      (4 ≤ st → f.good = false → ∃ t, exec (.flitReceive p f) s = .next t ∧ t.store = s.store ∧ (t.dev.link p.val).rxSeq = l.rxSeq ∧
        (t.dev.link p.val).credits = l.credits ∧ (t.dev.link p.val).acked = l.acked ∧ (t.dev.link p.val).nakWait = true ∧
        (t.dev.link p.val).rx = l.rx ∧
        (l.nakWait = false → (∀ w ∈ f.words, w.first = false) → t.dev.out = s.dev.out ++ [nakSent s.dev p.val])) ∧
      (∀ w, f.words = [w] → w.first = true → w.lane < laneCount p.val → 4 ≤ st → f.good = false → 15 < w.errors →
        s.dev.rdp F.BLK_CTRL_CNT_FREEZE (phyPage p.val) = 0 → s.dev.counter (phyPage p.val) (2 * w.lane + 1) < 2 ^ 63 →
        ∃ t, exec (.flitReceive p f) s = .next t ∧
          t.dev.counter (phyPage p.val) (2 * w.lane + 1) = s.dev.counter (phyPage p.val) (2 * w.lane + 1) + 1) ∧
      (4 ≤ st → f.good = true → ¬(isNext ∧ s.dev.flitFits p.val f = false) → ∃ t, exec (.flitReceive p f) s = .next t ∧ t.store = s.store ∧
        (t.dev.link p.val).acked = acked ∧
        (f.nak = true → l.lctlWait = [] →
          (if acked = l.acked then l.replays else 0) < s.dev.lrd p.val F.PRT_REPLAY_CFG_REPLAY_MAX F.LNDL_REPLAY_CFG_REPLAY_MAX →
          ∀ g ∈ rest, Emit.flit p.val (g.bytes l.rxSeq false) ∈ t.dev.out) ∧
        (isNext → (t.dev.link p.val).rxSeq = f.seq ∧ (t.dev.link p.val).nakWait = false ∧
          (f.kind = 0 → (t.dev.link p.val).rxPart = (s.dev.accepted p.val f).2 ∧
            (t.dev.link p.val).rx = l.rx ++ (s.dev.accepted p.val f).1 ∧ (t.dev.link p.val).lctlIn = l.lctlIn) ∧
          (f.kind ≠ 0 → (t.dev.link p.val).rx = l.rx ∧ (t.dev.link p.val).rxPart = l.rxPart ∧
            (t.dev.link p.val).lctlIn = l.lctlIn ++ f.lctl.toList) ∧
          (t.dev.link p.val).credits = f.grants.foldl
            (fun (c : Tbl Nat) (g : Nat × Nat × Nat) => nset c (4 * g.1 + g.2.1) (nget c (4 * g.1 + g.2.1) + g.2.2)) l.credits) ∧
        (¬isNext → (t.dev.link p.val).rxSeq = l.rxSeq ∧ (t.dev.link p.val).credits = l.credits ∧ (t.dev.link p.val).rx = l.rx ∧
          (t.dev.link p.val).lctlIn = l.lctlIn) ∧
        (f.kind = 1 → 0 < ahead → ahead < 2048 → (t.dev.link p.val).nakWait = true))) ∧
    (4 ≤ st → l.nakWait = true → l.nakAt + us 1 ≤ s.dev.tim.tide → ∃ t, exec (.nakRepeat p) s = .next t ∧ keeps t ∧
      t.dev.out = s.dev.out ++ [nakSent s.dev p.val]) ∧
    (l.nakWait = false ∨ s.dev.tim.tide < l.nakAt + us 1 → exec (.nakRepeat p) s = .next s) ∧
    (let due := l.progressAt + nsT (10 * s.dev.lrd p.val F.PRT_REPLAY_CFG_TIMER_NS F.LNDL_REPLAY_CFG_TIMER_NS)
      let most := s.dev.lrd p.val F.PRT_REPLAY_CFG_REPLAY_MAX F.LNDL_REPLAY_CFG_REPLAY_MAX
      (st = 5 → l.txSeq ≠ l.acked → l.buffer ≠ [] → due ≤ s.dev.tim.tide → l.replays < most → ∃ t, exec (.replayTimer p) s = .next t ∧ keeps t ∧
        t.dev.linkState p.val = 5 ∧ (t.dev.link p.val).replays = l.replays + 1 ∧
        t.dev.out = s.dev.out ++ l.buffer.map (fun g => .flit p.val (g.bytes l.rxSeq false))) ∧
      (st = 5 → l.txSeq ≠ l.acked → l.buffer ≠ [] → due ≤ s.dev.tim.tide → most ≤ l.replays → ∃ t, exec (.replayTimer p) s = .next t ∧ t.store = s.store ∧
        t.dev.linkState p.val = 6 ∧ (t.dev.link p.val).credits = l.credits ∧ (t.dev.link p.val).acked = l.acked ∧
        (∀ e ∈ lctlSent s.dev p.val retrainSlots, e ∈ t.dev.out) ∧
        (lctlSent s.dev p.val retrainSlots = [] → (t.dev.link p.val).lctlWait = l.lctlWait ++ [retrainSlots])) ∧
      (l.txSeq = l.acked ∨ s.dev.tim.tide < due → exec (.replayTimer p) s = .next s)) ∧
    (∀ rest, l.lctlIn = .retrainReq :: rest →
      (st = 5 → ∃ t, exec (.retrainReq p) s = .next t ∧ keeps t ∧ t.dev.linkState p.val = 6 ∧ (t.dev.link p.val).width = none ∧
        (t.dev.link p.val).lctlIn = rest) ∧
      (st ≠ 5 → exec (.retrainReq p) s = .next { s with dev := s.dev.setLink p.val { l with lctlIn := rest } })) ∧
    (l.lctlIn.head? ≠ some .retrainReq → exec (.retrainReq p) s = .next s)

/-- R441, R442, R447, R455–R457: width exchanges. GO of PRT_WIDTH_CMD on a link that is UP sends WIDTH_REQ where the mask holds as many bits
as WIDTH, else it is dropped; AUTO_WIDEN names the failed lanes that have been in SLACK for 1 s. A message takes effect when it stands first
among those that accepted flits have brought. A narrowing is acknowledged at once, a widening once its lanes, out of SLACK on the training
pattern, are ready; where both sides asked, the narrower width and the common lanes count. Each WIDTH_ACK names its own flit, after which
its side's transmitter takes the map; the map holds, with its other lanes in SLACK, once both flits have gone over; a widening not ready
within 50 µs, or an answer with the old map, leaves the old one. A wake tone takes a port that is DOWN or in DETECT to TRAIN, and counts
where it names a lane in SLACK. -/
def Said.LinkWidth : Prop :=
  ∀ (p : Fin 28) (s : State), s.dev.running = true → shaped s.dev →
    let st := s.dev.linkState p.val
    let l := s.dev.link p.val
    let pg := linkPage p.val
    let off := if p.val < 24 then 0x10C else 0x30C
    let all := allLanes p.val
    let map := s.dev.laneMap p.val
    let next := (l.txSeq + 1 + l.lctlWait.length) % 4096
    let ackOf := fun (w mask : Nat) => lctlSent s.dev p.val (widthSlots 3 w mask (some next))
    let patterns := fun (mask : Nat) => if maskMinus mask map = 0 then [] else [Emit.pattern p.val (maskMinus mask map)]
    (∀ (m : Master) (v : W32), pageOpen s.dev m pg → s.dev.owns m pg = true → quiet s.dev → fieldsTaken (tlp m s.dev) m pg off (putBit v.toNat 31 true) →
      let w := if p.val < 24 then bits v.toNat 0 4 else bits v.toNat 0 5
      let mask := if p.val < 24 then bits v.toNat 8 8 else bits v.toNat 15 16
      (st = 5 → l.width = none → popCount (laneCount p.val) mask = w → w ≠ 0 → ∃ t e, exec (.prtWidthCmd m p v) s = .next t ∧ t.store = s.store ∧
        t.dev.out = s.dev.out ++ lctlSent s.dev p.val (widthSlots 2 w mask none) ++ patterns mask ∧
        (t.dev.link p.val).width = some e ∧ e.width = w ∧ e.mask = mask ∧ e.askedByUs = true) ∧
      (st ≠ 5 ∨ l.width ≠ none ∨ popCount (laneCount p.val) mask ≠ w → ∃ t, exec (.prtWidthCmd m p v) s = .next t ∧ t.store = s.store ∧
        t.dev.links = s.dev.links ∧ t.dev.rdp F.BLK_ERR_CNT_ERRORS pg = min (s.dev.rdp F.BLK_ERR_CNT_ERRORS pg + 1) 0xFFFF)) ∧
    (∀ w mask,
      (l.lctlIn.head? ≠ some (.widthReq w mask) → exec (.widthReq p w mask) s = .next s) ∧
      (∀ rest, l.lctlIn = .widthReq w mask :: rest → st = 5 → popCount 16 mask = w → mask ≤ all → w ≠ 0 →
        (l.width = none → w ≤ s.dev.linkWidth p.val → ∃ t, exec (.widthReq p w mask) s = .next t ∧ t.store = s.store ∧
          (t.dev.link p.val).width = some ⟨w, mask, false, false, false, true, none, s.dev.tim.tide⟩ ∧ t.dev.out = s.dev.out ++ ackOf w mask ∧
          (l.room = true → l.lctlWait = [] → (t.dev.link p.val).txMask = mask)) ∧
        (l.width = none → s.dev.linkWidth p.val < w → ∃ t, exec (.widthReq p w mask) s = .next t ∧ t.store = s.store ∧
          (t.dev.link p.val).width = some ⟨w, mask, true, false, false, false, none, s.dev.tim.tide⟩ ∧
          t.dev.out = s.dev.out ++ [.pattern p.val (maskMinus mask map)] ∧ t.dev.slackLanes p.val = maskMinus all (Nat.lor map mask)) ∧
        (∀ e, l.width = some e → e.askedByUs = true → e.ackSent = false →
          let c := chosenMap p.val (min e.width w) (Nat.land e.mask mask)
          (c.1 ≠ 0 → ∃ t x, exec (.widthReq p w mask) s = .next t ∧ t.store = s.store ∧ (t.dev.link p.val).width = some x ∧
            x.width = c.1 ∧ x.mask = c.2 ∧ x.width ≤ min e.width w ∧ (∀ i, bit x.mask i = true → bit e.mask i = true ∧ bit mask i = true) ∧
            x.askedByUs = true) ∧
          (c.1 = 0 → ∃ t, exec (.widthReq p w mask) s = .next t ∧ t.store = s.store ∧ (t.dev.link p.val).width = none ∧
            t.dev.laneMap p.val = map ∧ t.dev.linkWidth p.val = s.dev.linkWidth p.val)))) ∧
    (∀ e, l.width = some e → st = 5 →
      let takes := fun (t : State) => t.store = s.store ∧ t.dev.linkState p.val = 5 ∧ t.dev.linkWidth p.val = e.width ∧
        t.dev.laneMap p.val = e.mask ∧ t.dev.slackLanes p.val = maskMinus all e.mask ∧ (t.dev.link p.val).txMask = e.mask ∧
        (t.dev.link p.val).width = none
      let kept := fun (t : State) => t.store = s.store ∧ (t.dev.link p.val).width = none ∧ t.dev.linkWidth p.val = s.dev.linkWidth p.val ∧
        t.dev.laneMap p.val = map ∧ t.dev.slackLanes p.val = maskMinus all map ∧
        t.dev.out = s.dev.out ++ ackOf (s.dev.linkWidth p.val) map
      let reached := fun (a : Nat) => (l.rxSeq + 4096 - a) % 4096 < 2048
      let fits := e.width ≤ laneCount p.val ∧ e.mask ≤ all
      (∀ a rest, l.lctlIn = .widthAck (s.dev.linkWidth p.val) map a :: rest →
        ∃ t, exec (.widthAck p (s.dev.linkWidth p.val) map a) s = .next t ∧ kept t) ∧
      (∀ a rest, l.lctlIn = .widthAck e.width e.mask a :: rest → e.width ≠ s.dev.linkWidth p.val ∨ e.mask ≠ map →
        (e.ackSent = true → l.txSwitch = none → reached a → fits → ∃ t, exec (.widthAck p e.width e.mask a) s = .next t ∧ takes t) ∧
        (e.ackSent = true → l.txSwitch ≠ none ∨ ¬ reached a → ∃ t, exec (.widthAck p e.width e.mask a) s = .next t ∧ t.store = s.store ∧
          (t.dev.link p.val).width = some { e with atSeq := some a } ∧ t.dev.laneMap p.val = map) ∧
        (e.ackSent = false → e.widening = false ∨ e.lanesReady = true → l.room = true → l.lctlWait = [] → reached a → fits →
          ∃ t, exec (.widthAck p e.width e.mask a) s = .next t ∧ takes t ∧ ∀ x ∈ ackOf e.width e.mask, x ∈ t.dev.out) ∧
        (e.ackSent = false → e.widening = true → e.lanesReady = false → exec (.widthAck p e.width e.mask a) s = .next { s with
          dev := s.dev.setLink p.val { l with lctlIn := rest, width := some { e with atSeq := some a } } })) ∧
      (e.widening = true → e.lanesReady = false →
        (∀ a, e.atSeq = some a → reached a → l.room = true → l.lctlWait = [] → fits → ∃ t, exec (.wideningLanesReady p) s = .next t ∧ takes t ∧
          ∀ x ∈ ackOf e.width e.mask, x ∈ t.dev.out) ∧
        (e.atSeq = none → ∃ t, exec (.wideningLanesReady p) s = .next t ∧ t.store = s.store ∧
          (t.dev.link p.val).width = some { e with lanesReady := true, ackSent := true } ∧ t.dev.out = s.dev.out ++ ackOf e.width e.mask) ∧
        (e.since + us 50 ≤ s.dev.tim.tide → ∃ t, exec (.widenAbandon p) s = .next t ∧ kept t) ∧
        (s.dev.tim.tide < e.since + us 50 → exec (.widenAbandon p) s = .next s))) ∧
    (∀ w mask a, l.lctlIn.head? ≠ some (.widthAck w mask a) → exec (.widthAck p w mask a) s = .next s) ∧
    (let due := s.dev.lanesDue p.val
      let c := chosenMap p.val (s.dev.maxWidth p.val) (Nat.lor (maskMinus l.usable (s.dev.failedLanes p.val)) (Nat.land due l.usable))
      let on := s.dev.lrd p.val F.PRT_CFG_AUTO_WIDEN F.LNDL_CFG_AUTO_WIDEN
      (∀ i < laneCount p.val, bit due i = true ↔ bit (s.dev.failedLanes p.val) i = true ∧ bit (s.dev.slackLanes p.val) i = true ∧
        nget l.slackAt i + us 1000000 ≤ s.dev.tim.tide + 1) ∧
      (on = 1 → st = 5 → l.width = none → s.dev.pwr.narrowed = false → s.dev.linkWidth p.val < c.1 → Nat.land c.2 due ≠ 0 →
        ∃ t, exec (.autoWidenTimer p) s = .next t ∧ t.store = s.store ∧ (t.dev.link p.val).width.isSome = true ∧
          t.dev.out = s.dev.out ++ lctlSent s.dev p.val (widthSlots 2 c.1 c.2 none) ++ patterns c.2) ∧
      (on = 0 ∨ due = 0 → exec (.autoWidenTimer p) s = .next s)) ∧
    (∀ lane,
      (st ≤ 1 → s.dev.linkEnabled p.val = true → s.dev.linkPowered p.val = true → 24 ≤ p.val ∨ s.dev.role p.val ≠ 0 → s.dev.booted = true →
        ∃ t, exec (.wakeToneDetect p lane) s = .next t ∧ t.store = s.store ∧ t.dev.out = s.dev.out ∧ t.dev.linkState p.val = 2 ∧
          (t.dev.link p.val).since = s.dev.tim.tide ∧
          t.dev.slackLanes p.val = if st = 0 then s.dev.disabledLanes p.val else s.dev.slackLanes p.val) ∧
      (st = 5 → l.width = none → bit (s.dev.slackLanes p.val) lane = true →
        exec (.wakeToneDetect p lane) s = .next { s with dev := s.dev.linkCount p.val 8 1 }))

/-- Flits over a link, and the width it runs at. -/
def Obligations.LinkTraffic : Prop := Said.LinkFlits ∧ Said.LinkWidth

/-- R453, R454, R461: eye scans. GO starts a scan of the rectangle at its first point, unless one runs; STOP aborts the one that runs; a point
ends at 2^DWELL_LOG2 symbols or ERR_LIMIT disagreements, and no sooner; its record goes to host memory at its place, the errors saturated, and the scan ends with its last point. -/
def Said.EyeScans : Prop :=
  ∀ (pg : Nat) (s : State), 0xA0 ≤ pg → pg < 0xBC →
    (∀ (m : Master) (v : W32), pageOpen s.dev m pg → s.dev.owns m pg = true → quiet s.dev →
      (s.dev.rdp F.PHY_EYE_STAT_BUSY pg = 0 → s.dev.rdp F.PHY_EYE_CFG1_V_FIRST pg ≤ s.dev.rdp F.PHY_EYE_CFG1_V_LAST pg →
        s.dev.rdp F.PHY_EYE_CFG1_P_FIRST pg ≤ s.dev.rdp F.PHY_EYE_CFG1_P_LAST pg → ∃ t, exec (.eyeScanGo m pg v) s = .next t ∧
          t.store = s.store ∧ t.dev.rdp F.PHY_EYE_STAT_BUSY pg = 1 ∧ t.dev.rdp F.PHY_EYE_STAT_POINTS_DONE pg = 0 ∧
          t.dev.eyes = s.dev.eyes ++ [⟨pg, s.dev.rdp F.PHY_EYE_CFG0_LANE pg, s.dev.rdp F.PHY_EYE_CFG0_EYE pg,
            s.dev.rdp F.PHY_EYE_CFG0_DWELL_LOG2 pg, s.dev.rdp F.PHY_EYE_CFG0_ERR_LIMIT pg, s.dev.rdp F.PHY_EYE_CFG1_V_LAST pg,
            s.dev.rdp F.PHY_EYE_CFG1_P_FIRST pg, s.dev.rdp F.PHY_EYE_CFG1_P_LAST pg, s.dev.rdp F.PHY_EYE_CFG1_V_FIRST pg,
            s.dev.rdp F.PHY_EYE_CFG1_P_FIRST pg⟩]) ∧
      (s.dev.rdp F.PHY_EYE_STAT_BUSY pg = 1 → bit v.toNat 0 = false → ∃ t, exec (.eyeScanGo m pg v) s = .next t ∧ t.store = s.store ∧
        t.dev.eyes = s.dev.eyes ∧ t.dev.rdp F.PHY_EYE_STAT_BUSY pg = 1 ∧
        t.dev.rdp F.BLK_ERR_CNT_ERRORS pg = min (s.dev.rdp F.BLK_ERR_CNT_ERRORS pg + 1) 0xFFFF) ∧
      (s.dev.rdp F.PHY_EYE_STAT_BUSY pg = 1 → bit v.toNat 31 = false → ∃ t, exec (.eyeScanStop m pg v) s = .next t ∧ t.store = s.store ∧
        t.dev.rdp F.PHY_EYE_STAT_BUSY pg = 0 ∧ t.dev.rdp F.PHY_EYE_STAT_ABORTED pg = 1 ∧ bit (t.dev.word (pg * 0x1000 + 0x14)) 0 = true ∧
        ∀ e ∈ t.dev.eyes, e.page ≠ pg)) ∧
    (∀ errors compared, s.dev.running = true →
      (s.dev.eyes.find? (fun e => e.page == pg) = none → exec (.eyePointDone pg errors compared) s = .next s) ∧
      (∀ e, s.dev.eyes.find? (fun e => e.page == pg) = some e →
        ¬((compared = 2 ^ e.dwell ∧ errors ≤ e.limit ∨ errors = e.limit ∧ compared ≤ 2 ^ e.dwell) ∧ errors ≤ compared) →
        exec (.eyePointDone pg errors compared) s = .next s) ∧
      (∀ e, s.dev.eyes.find? (fun e => e.page == pg) = some e → s.dev.rd F.GLB_PIN_STAT_PERST = 0 →
        (compared = 2 ^ e.dwell ∧ errors ≤ e.limit) ∨ (errors = e.limit ∧ compared ≤ 2 ^ e.dwell) → errors ≤ compared →
        let base := s.dev.rdp F.PHY_EYE_BASE_LO_BASE_LO pg * 4096 + s.dev.rdp F.PHY_EYE_BASE_HI_BASE_HI pg * 2 ^ 32
        let sent := Emit.hostWrite (base + (e.v * 128 + e.p) * 4)
          (natLE 4 (min errors 0xFFFF + (min (Nat.log2 compared) 40) * 2 ^ 16 + 2 ^ 31))
        (e.p < e.pLast → ∃ t, exec (.eyePointDone pg errors compared) s = .next t ∧ t.store = s.store ∧
          t.dev.out = s.dev.out ++ [sent] ∧ t.dev.eyes.find? (fun e => e.page == pg) = some { e with p := e.p + 1 } ∧
          t.dev.rdp F.PHY_EYE_STAT_POINTS_DONE pg = (s.dev.rdp F.PHY_EYE_STAT_POINTS_DONE pg + 1) % 65536) ∧
        (e.pLast ≤ e.p → e.v < e.vLast → ∃ t,
          exec (.eyePointDone pg errors compared) s = .next t ∧ t.store = s.store ∧ t.dev.out = s.dev.out ++ [sent] ∧
          t.dev.eyes.find? (fun e => e.page == pg) = some { e with v := e.v + 1, p := e.pFirst }) ∧
        (e.pLast ≤ e.p → e.vLast ≤ e.v → ∃ t,
          exec (.eyePointDone pg errors compared) s = .next t ∧ t.store = s.store ∧ sent ∈ t.dev.out ∧
          t.dev.rdp F.PHY_EYE_STAT_BUSY pg = 0 ∧ t.dev.rdp F.PHY_EYE_STAT_ABORTED pg = 0 ∧
          bit (t.dev.word (pg * 0x1000 + 0x14)) 0 = true)))

/-- Training of a link, and eye scans of its lanes. -/
def Obligations.LinkBringUp : Prop := Said.LinkTraining ∧ Said.EyeScans

/-! ### Source engines and recovery (R126–R135, R427, R428, R484–R504, R511) -/

/-- R129, R133, R134, R428: what an engine sends and when. A write takes the pair's next manifest number, which then moves on modulo 65,536; a
read of a line that a write of its engine names, which awaits its answer or ended without one, carries AFTER; no request
goes beyond 256 writes of the engine or 512 of the package that await their acknowledgement, nor beyond the window while something is
outstanding. An answer of level 0 widens the window, one of level 1 to 3 narrows it, unless it was narrowed within HOLD_NS; never below
MIN. -/
def Said.ManifestsAndWindows : Prop :=
  (∀ (o : OutReq) (d : Dev), o.acc.kind.isWrite = true →
    let k := pairKey o.acc.eng o.dest
    nget (Dev.sendOut o d).src.mani k = (nget d.src.mani k + 1) % 65536 ∧ (∃ m, (Dev.sendOut o d).out = d.out ++ msgFrames m) ∧
    (∃ r, (Dev.sendOut o d).src.reqs = d.src.reqs ++ [r] ∧ r.acc = o.acc ∧ r.man = some (nget d.src.mani k)) ∧
    (∀ j, j ≠ k → nget (Dev.sendOut o d).src.mani j = nget d.src.mani j)) ∧
  (∀ (o : OutReq) (r : Req) (d : Dev), o.msg = .req r → o.acc.kind.isWrite = false →
    (∃ q m, (Dev.sendOut o d).src.reqs = d.src.reqs ++ [q] ∧ q.msg = .req m ∧ m.hdr.av = (d.afterOf o).isSome ∧
      m.hdr.after = (d.afterOf o).getD 0 ∧ m.hdr.mv = false ∧ m.hdr.epoch = d.epochNow) ∧
    (∀ w ∈ d.src.lost, w.eng = o.acc.eng → w.dest = o.dest → meets w.lines o.lines = true → (d.afterOf o).isSome = true) ∧
    (∀ p ∈ d.src.reqs, p.acc.kind.isWrite = true → p.man.isSome = true → p.acc.eng = o.acc.eng → meets p.lines o.lines = true →
      (d.afterOf o).isSome = true)) ∧
  (∀ (kept : List OutReq) (o : OutReq) (d : Dev), d.mayIssue kept o = true →
    (o.acc.eng = 5 ∨ d.outBytesTo o.acc.eng o.dest = 0 ∨ d.outBytesTo o.acc.eng o.dest + o.bytes ≤ d.window o.acc.eng o.dest) ∧
    (o.acc.kind.isWrite = true → d.unacked o.acc.eng o.dest < 256 ∧ d.unackedAll o.dest < 512 ∧
      ∀ r ∈ d.src.resyncs, r.eng = o.acc.eng → r.dest ≠ o.dest)) ∧
  (∀ (eng dest lvl bytes : Nat) (d : Dev), eng ≠ 5 → 0 < d.rd F.CNG_WIN_MIN →
    let k := pairKey eng dest
    let w := d.window eng dest
    let least := d.rd F.CNG_WIN_MIN * 1024
    (lvl = 0 → (Dev.windowAnswer eng dest lvl bytes d).window eng dest =
      max (min (w + d.rd F.CNG_AIMD_ADD * 1024 * bytes / max w 1) (d.rd F.CNG_WIN_MAX * 1024)) least) ∧
    (nget d.src.winDec k = 0 ∨ nget d.src.winDec k - 1 + nsT (d.rd F.CNG_AIMD_HOLD_NS) ≤ d.tim.tide →
      (lvl = 1 → (Dev.windowAnswer eng dest lvl bytes d).window eng dest = max (w * 7 / 8) least) ∧
      (lvl = 2 → (Dev.windowAnswer eng dest lvl bytes d).window eng dest = max (w * 3 / 4) least) ∧
      (lvl = 3 → (Dev.windowAnswer eng dest lvl bytes d).window eng dest = max (w / 2) least)) ∧
    (nget d.src.winDec k ≠ 0 → d.tim.tide < nget d.src.winDec k - 1 + nsT (d.rd F.CNG_AIMD_HOLD_NS) → 1 ≤ lvl → lvl ≤ 3 →
      Dev.windowAnswer eng dest lvl bytes d = d))

/-- R135, R392, R393, R485, R486, R492, R496: the end of a request. An answer ends the request it names, with its status, and one that no
request awaits, or that comes at the end of its request timeout or later, is discarded and counted; a landing's request is answered on its attach port. Without an answer the request is sent again
under its TAG and manifest number after RETX_US, unless it is a version operation, and ends after REQ_TIMEOUT_US with TIMEOUT, or with
NODE_LOST where its node is lost. A bounce is sent again at once, its BOUNCES one more; that of a
COLL_DATA frame names it by its collective's tags, and none that this package has no collective for is sent. -/
def Obligations.RequestEnds : Prop :=
  ∀ (eng tag : Nat) (s : State), s.dev.running = true →
    (s.dev.outOf eng tag = none → s.dev.domOn 11 = true →
      (∀ st lvl data, exec (.answerReceive ⟨eng, tag, st, lvl, data⟩) s = .next { s with dev := s.dev.strayAnswer eng tag }) ∧
      exec (.requestTimeout eng tag) s = .next s ∧ exec (.retransmitTimer eng tag) s = .next s) ∧
    (∀ o, s.dev.outOf eng tag = some o →
      (s.dev.domOn 11 = true → ∀ st lvl data,
        (s.dev.expired o = true → exec (.answerReceive ⟨eng, tag, st, lvl, data⟩) s = .next { s with dev := s.dev.count 0xC1 1 1 }) ∧
        (s.dev.expired o = false → exec (.answerReceive ⟨eng, tag, st, lvl, data⟩) s =
          .next (withPkg s (Pkg.requestEnds o 1 st data (s.store, s.dev.windowAnswer o.acc.eng o.dest lvl o.bytes)))) ∧
        (s.dev.expired o = false → quiet s.dev → s.dev.homeIdle = true ∨ noneAtHome s.dev → s.dev.src.held = [] → s.dev.fry.colls = [] → ∀ n t0 op,
          (o.acc.purpose = .lndStore n t0 ∧ op = 2) ∨ (o.acc.purpose = .lndAtomic n t0 false ∧ op = 3) ∨
            (o.acc.purpose = .lndReduce n t0 ∧ op = 4) ∨ (o.acc.purpose = .lndPte n t0 ∧ op = 0x11) →
          ∃ t, exec (.answerReceive ⟨eng, tag, st, lvl, data⟩) s = .next t ∧ t.store = s.store ∧ t.dev.outOf eng tag = none ∧
            t.dev.out = s.dev.out ++ [.attach n op t0 st []])) ∧
      (s.dev.domOn 11 = true →
        (s.dev.tim.tide < o.firstAt + us (s.dev.rd F.RCV_CFG_REQ_TIMEOUT_US) → exec (.requestTimeout eng tag) s = .next s) ∧
        (o.firstAt + us (s.dev.rd F.RCV_CFG_REQ_TIMEOUT_US) ≤ s.dev.tim.tide →
          let lost := bit (s.dev.rdi F.RCV_LOST_LOST (o.dest / 32)) (o.dest % 32)
          exec (.requestTimeout eng tag) s = .next (withPkg s (Pkg.requestEnds o 2 (if lost then sNodeLost else sTimeout) []
            (s.store, (s.dev.count 0xC1 (if lost then 4 else 3) 1).windowMin eng o.dest))))) ∧
      ((o.acc.kind = .verRead ∨ o.acc.kind = .publish) ∨ s.dev.expired o = true ∨ s.dev.tim.tide < o.sentAt + us (s.dev.rd F.RCV_RETX_RETX_US) →
        exec (.retransmitTimer eng tag) s = .next s) ∧
      (o.acc.kind ≠ .verRead → o.acc.kind ≠ .publish → o.sentAt + us (s.dev.rd F.RCV_RETX_RETX_US) ≤ s.dev.tim.tide →
        s.dev.expired o = false →
        let msg := fillMsg o.tag o.man (msgAfter o.msg) s.dev.epochNow o.msg
        ∃ t, exec (.retransmitTimer eng tag) s = .next t ∧ t.store = s.store ∧ t.dev.out = s.dev.out ++ msgFrames msg ∧
          t.dev.outOf eng tag = some { o with sentAt := s.dev.tim.tide, msg := msg })) ∧
    (∀ (h : Hdr) (c : Nat × Nat × Nat × Nat), s.dev.fry.colls = [] →
      exec (.bounceReceive ⟨h, some c⟩) s = .next { s with dev := s.dev.count 0xC1 1 1 }) ∧
    (∀ h : Hdr, h.srcEngine = eng → h.tag = tag →
      (s.dev.outOf eng tag = none → exec (.bounceReceive ⟨h, none⟩) s = .next { s with dev := s.dev.count 0xC1 1 1 }) ∧
      (∀ o, s.dev.outOf eng tag = some o → s.dev.expired o = true →
        exec (.bounceReceive ⟨h, none⟩) s = .next { s with dev := s.dev.count 0xC1 1 1 }) ∧
      (∀ o r, s.dev.outOf eng tag = some o → s.dev.expired o = false → o.msg = .req r → ∃ t q, exec (.bounceReceive ⟨h, none⟩) s = .next t ∧
        t.store = s.store ∧ t.dev.out = s.dev.out ++ msgFrames (.req q) ∧ q.opd = r.opd ∧ q.data = r.data ∧ q.hdr.bounces = min 3 (h.bounces + 1) ∧ q.hdr.tag = o.tag ∧
        q.hdr.manifest = o.man.getD 0 ∧ q.hdr.mv = o.man.isSome ∧ q.hdr.epoch = s.dev.epochNow ∧
        ∃ o', t.dev.outOf eng tag = some o' ∧ o'.man = o.man ∧ o'.bounces = o.bounces + 1 ∧ o'.sentAt = s.dev.tim.tide)) ∧
  (∀ (x : Pkg) (o : OutReq) (how st : Nat) (data : List Byte), x.2.outOf o.acc.eng o.tag = some o → quiet x.2 →
    x.2.homeIdle = true ∨ noneAtHome x.2 → x.2.src.held = [] → x.2.fry.colls = [] →
    (o.acc.purpose = .copy ∧ st ≠ sOk) ∨ o.acc.purpose = .semBack →
    Pkg.requestEnds o how st data x = (x.1, ((x.2.endOut o how).fenceNote o.acc st).resyncIf o st) ∧
    (Pkg.requestEnds o how st data x).2.outOf o.acc.eng o.tag = none ∧
    nget (Pkg.requestEnds o how st data x).2.src.ended (4096 * o.acc.eng + o.tag) = how ∧
    (o.acc.kind.isWrite = true → st = sOrderBroken ∨ st = sTimeout ∨ st = sNodeLost →
      (Pkg.requestEnds o how st data x).2.src.resyncs.any (fun r => r.eng == o.acc.eng && r.dest == o.dest) = true))

/-- R133, R496, R620: the resync of a pair. Once every write sent is answered, ORDER_RESYNC goes out under the next RSEQ, and again each RETX_US;
the answer that carries that RSEQ ends it: the manifest counter starts at 0, and no request names a write from before. Another RSEQ is ignored. -/
def Said.Resynchronise : Prop :=
  ∀ (eng dest : Nat) (r : Resync) (s : State), s.dev.running = true →
    s.dev.src.resyncs.find? (fun r => r.eng == eng && r.dest == dest) = some r →
    (r.sent = false → s.dev.unacked eng dest = 0 → ∃ t, exec (.resyncDrainDone eng dest) s = .next t ∧ t.store = s.store ∧
      (s.dev.hasNode dest = true → t.dev.out = s.dev.out ++ [.ctrl dest (.orderResync eng r.rseq)]) ∧ nget t.dev.src.rseq (pairKey eng dest) = r.rseq ∧
      t.dev.src.resyncs.find? (fun r => r.eng == eng && r.dest == dest) = some { r with sent := true, sentAt := s.dev.tim.tide }) ∧
    (r.sent = true ∨ s.dev.unacked eng dest ≠ 0 → exec (.resyncDrainDone eng dest) s = .next s) ∧
    (r.sent = true → r.sentAt + us (s.dev.rd F.RCV_RETX_RETX_US) ≤ s.dev.tim.tide → ∃ t, exec (.orderResyncRetry eng dest) s = .next t ∧
      t.store = s.store ∧ (s.dev.hasNode dest = true → t.dev.out = s.dev.out ++ [.ctrl dest (.orderResync eng r.rseq)]) ∧
      t.dev.src.resyncs.find? (fun r => r.eng == eng && r.dest == dest) = some { r with sentAt := s.dev.tim.tide }) ∧
    (r.sent = false ∨ s.dev.tim.tide < r.sentAt + us (s.dev.rd F.RCV_RETX_RETX_US) → exec (.orderResyncRetry eng dest) s = .next s) ∧
    (r.sent = true → s.dev.src.held = [] → ∃ t, exec (.orderResyncDone eng dest r.rseq) s = .next t ∧ t.store = s.store ∧
      t.dev.out = s.dev.out ∧ nget t.dev.src.mani (pairKey eng dest) = 0 ∧ (∀ w ∈ t.dev.src.lost, w.eng = eng → w.dest ≠ dest) ∧
      (∀ p ∈ t.dev.src.reqs, p.acc.eng = eng → p.dest = dest → ∀ q, p.msg = .req q → q.hdr.av = false) ∧
      t.dev.src.resyncs.any (fun r => r.eng == eng && r.dest == dest) = false) ∧
    (∀ q, r.sent = false ∨ r.rseq ≠ q → exec (.orderResyncDone eng dest q) s = .next s)

/-- Manifest numbers and windows at the source, and the resynchronisation of a home. -/
def Obligations.SourceWindows : Prop := Said.ManifestsAndWindows ∧ Said.Resynchronise

/-- R494, R499–R504, R511: recovery commands, by message and by register. One of a lower generation is BAD_STATE and changes nothing; one of
a higher generation raises RCV_GEN. NODE_LOST sets the node's bit and breaks every pair of it, NODE_FOUND clears the bit only,
SOURCE_RESET, once the quiet window has passed, makes every pair of it NORMAL with EXPECT 0 and no history. SLIPWAY takes the stages of
the table and no others, and SERVING comes at its T. The timeouts take values in their relations only. -/
def Obligations.Recovery : Prop :=
  (∀ (src : Nat) (a : NodeGen) (s : State), s.dev.running = true → s.dev.domOn 11 = true → quiet s.dev → s.dev.home.queue = [] →
    s.dev.home.store = [] → s.dev.fry.colls = [] → s.dev.fmAllowed src = true → a.node < 128 →
    let at_ := nget s.dev.rcv.lostAt a.node
    let pair := fun (t : State) (e : Nat) => t.dev.ord (t.dev.ordKey t.dev.node a.node e)
    let done := fun (t : State) (name : String) => t.store = s.store ∧
      (s.dev.hasNode src = true → t.dev.out.getLast? = some (.ctrl src (.result name rDone)))
    let said := fun (name : String) (r : Nat) => (.next { s with dev := s.dev.ctrl src (.result name r) } : Host.Outcome State Fault Refusal)
    (a.gen < s.dev.rd F.RCV_GEN_GEN →
      exec (.rcvNodeLost (.msg src a)) s = said "NODE_LOST" rBadState ∧ exec (.rcvNodeFound (.msg src a)) s = said "NODE_FOUND" rBadState ∧
      exec (.rcvSourceReset (.msg src a)) s = said "SOURCE_RESET" rBadState ∧
      exec (.slipwayTransit (.msg src a.gen)) s = said "SLIPWAY" rBadState ∧
      ∀ T, exec (.slipwayServing (.msg src (a.gen, T))) s = said "SLIPWAY" rBadState) ∧
    (s.dev.rd F.RCV_GEN_GEN ≤ a.gen → a.gen < 2 ^ 32 → s.dev.isLost a.node = false →
      ∃ t, exec (.rcvNodeLost (.msg src a)) s = .next t ∧ done t "NODE_LOST" ∧ t.dev.rd F.RCV_GEN_GEN = a.gen ∧ t.dev.isLost a.node = true ∧
        (∀ l < 128, l ≠ a.node → t.dev.isLost l = s.dev.isLost l) ∧ ∀ e < 57, (pair t e).st = .broken) ∧
    (a.gen = s.dev.rd F.RCV_GEN_GEN →
      (s.dev.isLost a.node = true → (∀ p ∈ s.dev.pairsOf, (s.dev.ord (s.dev.ordKey p.1 a.node p.2)).st = .broken) →
        exec (.rcvNodeLost (.msg src a)) s = said "NODE_LOST" rNoChange) ∧
      (s.dev.isLost a.node = true → ∃ t, exec (.rcvNodeFound (.msg src a)) s = .next t ∧ done t "NODE_FOUND" ∧ t.dev.isLost a.node = false ∧
        t.dev.home = s.dev.home) ∧
      (s.dev.isLost a.node = false → exec (.rcvNodeFound (.msg src a)) s = said "NODE_FOUND" rNoChange) ∧
      ((at_ = 0 → exec (.rcvSourceReset (.msg src a)) s = said "SOURCE_RESET" (if s.dev.sourceFresh a.node then rNoChange else rBadState)) ∧
        (at_ ≠ 0 → s.dev.tim.tide < at_ - 1 + us (s.dev.rd F.RCV_RETX_RESYNC_QUIET_US) →
          exec (.rcvSourceReset (.msg src a)) s = said "SOURCE_RESET" rBadState) ∧
        (at_ ≠ 0 → at_ - 1 + us (s.dev.rd F.RCV_RETX_RESYNC_QUIET_US) ≤ s.dev.tim.tide → s.dev.rcv.done.any (fun e => e.2.1 == a.node) = false →
          ∃ t, exec (.rcvSourceReset (.msg src a)) s = .next t ∧ done t "SOURCE_RESET" ∧
            ∀ e < 57, (pair t e).st = .normal ∧ (pair t e).expect = 0 ∧ (pair t e).hist = [])) ∧
      (s.dev.stage = 1 ∨ s.dev.stage = 3 ∨ (s.dev.stage = 4 ∧ s.dev.anyExt (fun st => st == 1) = false) →
        ∃ t, exec (.slipwayTransit (.msg src a.gen)) s = .next t ∧ done t "SLIPWAY" ∧ t.dev.stage = 2 ∧ t.dev.rd F.PROT_CFG_ROLE = 1) ∧
      (s.dev.stage = 2 → exec (.slipwayTransit (.msg src a.gen)) s = said "SLIPWAY" rNoChange) ∧
      (s.dev.stage = 0 ∨ (s.dev.stage = 4 ∧ s.dev.anyExt (fun st => st == 1) = true) →
        exec (.slipwayTransit (.msg src a.gen)) s = said "SLIPWAY" rBadState) ∧
      (∀ T, T < 2 ^ 64 →
        (s.dev.stage = 1 ∨ (s.dev.stage = 3 ∧ s.dev.home.rebuildSeen = 4) → s.dev.rcv.servingAt ≠ some T →
          exec (.slipwayServing (.msg src (a.gen, T))) s = .next { s with
            dev := { s.dev with rcv := { s.dev.rcv with servingAt := some T } }.ctrl src (.result "SLIPWAY" rDone) }) ∧
        (s.dev.stage = 4 → exec (.slipwayServing (.msg src (a.gen, T))) s = said "SLIPWAY" rNoChange) ∧
        (s.dev.stage = 0 ∨ s.dev.stage = 2 → s.dev.rcv.servingAt = none →
          exec (.slipwayServing (.msg src (a.gen, T))) s = said "SLIPWAY" rBadState)))) ∧
  (∀ s : State, s.dev.running = true →
    (∀ T, s.dev.rcv.servingAt = some T → T ≤ s.dev.ns → ∃ t, exec .servingAtT s = .next t ∧ t.store = s.store ∧ t.dev.stage = 4 ∧
      t.dev.rd F.PROT_CFG_ROLE = 0 ∧ t.dev.rcv.servingAt = none ∧ t.dev.out = s.dev.out) ∧
    (∀ T, s.dev.rcv.servingAt = some T → s.dev.ns < T → exec .servingAtT s = .next s) ∧
    (s.dev.rcv.servingAt = none → exec .servingAtT s = .next s)) ∧
  (∀ (m : Master) (s : State),
    exec (.rcvNodeLost (.reg m)) s = exec (.registerWrite m 0xC1130 4 (goWord F.RCV_CMD_OP 1 s)) s ∧
    exec (.rcvNodeFound (.reg m)) s = exec (.registerWrite m 0xC1130 4 (goWord F.RCV_CMD_OP 2 s)) s ∧
    exec (.rcvSourceReset (.reg m)) s = exec (.registerWrite m 0xC1130 4 (goWord F.RCV_CMD_OP 3 s)) s ∧
    (s.dev.rd F.RCV_CMD_ARG_STAGE = 2 →
      exec (.slipwayTransit (.reg m)) s = exec (.registerWrite m 0xC1130 4 (goWord F.RCV_CMD_OP 4 s)) s) ∧
    (s.dev.rd F.RCV_CMD_ARG_STAGE = 4 →
      exec (.slipwayServing (.reg m)) s = exec (.registerWrite m 0xC1130 4 (goWord F.RCV_CMD_OP 4 s)) s)) ∧
  (∀ (m : Master) (v : W32) (s : State), pageOpen s.dev m 0xC1 → s.dev.owns m 0xC1 = true →
    let a := bits v.toNat 0 16
    let b := bits v.toNat 16 16
    (fieldsTaken (tlp m s.dev) m 0xC1 0x100 v.toNat → ∃ t, exec (.rcvCfgWrite m false v) s = .next t ∧ t.store = s.store ∧
      t.dev.rd F.RCV_CFG_REQ_TIMEOUT_US = a ∧ t.dev.rd F.RCV_CFG_ORDER_TIMEOUT_US = b) ∧
    (fieldsTaken (tlp m s.dev) m 0xC1 0x104 v.toNat → ∃ t, exec (.rcvCfgWrite m true v) s = .next t ∧ t.store = s.store ∧
      t.dev.rd F.RCV_RETX_RETX_US = a ∧ t.dev.rd F.RCV_RETX_RESYNC_QUIET_US = b) ∧
    (100 ≤ a → 1 ≤ b → a < 2 * b ∨ b < 4 * s.dev.rd F.RCV_RETX_RETX_US →
      exec (.rcvCfgWrite m false v) s = .next { s with dev := (tlp m s.dev).dropWrite m 0xC1 0x100 v.toNat 3 }) ∧
    (10 ≤ a → 1 ≤ b → s.dev.rd F.RCV_CFG_ORDER_TIMEOUT_US < 4 * a →
      exec (.rcvCfgWrite m true v) s = .next { s with dev := (tlp m s.dev).dropWrite m 0xC1 0x104 v.toNat 3 }))

/-! ### Keys, tenancy and attestation (R513–R539) -/

/-- R518, R519, R532–R535: keys and attestation, by the firmware. KEY_LOAD puts its key into STAGED only inside an established session
with mutual authentication whose chain ends in the key authority root, where the key unwraps and its halves differ; a refused one leaves
the slots. The responder offers versions 1.2 and 1.3; until capabilities and algorithms are exchanged every later request is an error. It
answers from certificate slot 0 only, signs with the alias key, gives the measurements of the table, and keeps at most two sessions, over both transports. A
request over the sideband is answered as over MCTP. -/
def Obligations.KeysAndAttestation : Prop :=
  (∀ (k : KeyLoadMsg) (d : Dev), d.keyLoadOk k = true → d.kaRoot ≠ 0 ∧ k.unwraps = true ∧ bits k.key 0 256 ≠ bits k.key 256 256 ∧
    ∃ n x, k.session = some n ∧ x ∈ d.sec.sessions ∧ x.id = n ∧ x.established = true ∧ x.mutualAuth = true ∧ x.rootDigest = d.kaRoot) ∧
  (∀ s : State, s.dev.firmware = true →
    let err := fun (mctp : Bool) => (.next { s with dev := s.dev.emit (.spdm mctp "ERROR" []) } : Host.Outcome State Fault Refusal)
    let answers := fun (c : Instr) (mctp : Bool) (name : String) (args : List Nat) =>
      ∀ key, s.dev.sec.aliasKey = some key → ∃ t n, exec c s = .next t ∧ t.store = s.store ∧ t.dev.regs = s.dev.regs ∧
        t.dev.out = s.dev.out ++ [.spdm mctp name (args ++ [Config.signature key n args])]
    (∀ k, (s.dev.keyLoadOk k = true → ∃ t, exec (.keyLoad k) s = .next t ∧ t.store = s.store ∧ t.dev.sec = { s.dev.sec with staged := some (k.key % 2 ^ 512) } ∧
        t.dev.rd F.SEC_STAGED_ID_STAGED_ID = k.keyId % 2 ^ 32 ∧ t.dev.rd F.SEC_TENANT_STAGED = 1 ∧
        t.dev.out = s.dev.out ++ [.spdm (s.dev.sessionMctp k.session) "VENDOR_DEFINED_RESPONSE" [k.keyId]]) ∧
      (s.dev.keyLoadOk k = false → exec (.keyLoad k) s = .next { s with
        dev := (s.dev.count 3 1 1).emit (.spdm (s.dev.sessionMctp k.session) "ERROR" []) })) ∧
    (∀ mctp,
      exec (.getVersion mctp) s = .next { s with
        dev := { s.dev with sec := { s.dev.sec with spdmVersion := 0, spdmCaps := false, spdmAlgs := false } }.emit (.spdm mctp "VERSION" [0x12, 0x13]) } ∧
      (∀ v, (v = 0x12 ∨ v = 0x13 → exec (.getCapabilities mctp v) s = .next { s with
          dev := { s.dev with sec := { s.dev.sec with spdmVersion := v, spdmCaps := true } }.emit (.spdm mctp "CAPABILITIES" [v]) }) ∧
        (v ≠ 0x12 → v ≠ 0x13 → exec (.getCapabilities mctp v) s = err mctp)) ∧
      (∀ o, (s.dev.sec.spdmCaps = true → bit o 0 = true → exec (.negotiateAlgorithms mctp o) s = .next { s with
          dev := { s.dev with sec := { s.dev.sec with spdmAlgs := true } }.emit (.spdm mctp "ALGORITHMS" [1]) }) ∧
        (s.dev.sec.spdmCaps = false ∨ bit o 0 = false → exec (.negotiateAlgorithms mctp o) s = err mctp)) ∧
      (s.dev.sec.spdmAlgs = false → ∀ a b c root ma good, exec (.getDigests mctp) s = err mctp ∧ exec (.getCertificate mctp a b c) s = err mctp ∧
        exec (.challenge mctp a b) s = err mctp ∧ exec (.getMeasurements mctp a b) s = err mctp ∧
        exec (.keyExchange mctp c root ma good) s = err mctp) ∧
      (s.dev.sec.spdmAlgs = true →
        exec (.getDigests mctp) s = .next { s with dev := s.dev.emit (.spdm mctp "DIGESTS" [1, Config.certDigest s.dev.sec.aliasCert]) } ∧
        (∀ off len, exec (.getCertificate mctp 0 off len) s = .next { s with
          dev := s.dev.emit (.spdm mctp "CERTIFICATE" [off, len, Config.certChain s.dev.sec.aliasCert off len]) }) ∧
        (∀ nonce, answers (.challenge mctp 0 nonce) mctp "CHALLENGE_AUTH" [nonce]) ∧
        (∀ slot a b, slot ≠ 0 → exec (.getCertificate mctp slot a b) s = err mctp ∧ exec (.challenge mctp slot a) s = err mctp) ∧
        (∀ nonce,
          answers (.getMeasurements mctp 1 nonce) mctp "MEASUREMENTS" [1, Config.romDigest, nonce] ∧
          answers (.getMeasurements mctp 2 nonce) mctp "MEASUREMENTS" [2, s.dev.sec.imageDigest, nonce] ∧
          answers (.getMeasurements mctp 5 nonce) mctp "MEASUREMENTS" [5, s.dev.glb.straps.1, s.dev.glb.straps.2, nonce] ∧
          answers (.getMeasurements mctp 3 nonce) mctp "MEASUREMENTS" [3, s.dev.rd F.SEC_BOOT_STAT_SVN, s.dev.glb.fuseFloor, nonce] ∧
          answers (.getMeasurements mctp 4 nonce) mctp "MEASUREMENTS" [4, s.dev.rd F.SEC_BOOT_STAT_DEBUG_UNLOCKED,
            s.dev.rd F.SEC_BOOT_STAT_KEY_INDEX, b2n s.dev.sec.secondary, nonce] ∧
          answers (.getMeasurements mctp 6 nonce) mctp "MEASUREMENTS" [6, s.dev.tenancy, s.dev.ticket, s.dev.rd F.SEC_KEY_ID_ACTIVE_ID, nonce] ∧
          ∀ i, i = 0 ∨ 6 < i → exec (.getMeasurements mctp i nonce) s = err mctp) ∧
        (∀ share root ma,
          (s.dev.sec.sessions.length < 2 → ∀ key, s.dev.sec.aliasKey = some key → ∃ t x n, exec (.keyExchange mctp share root ma true) s = .next t ∧ t.store = s.store ∧
            t.dev.sec = { s.dev.sec with sessions := s.dev.sec.sessions ++ [⟨s.dev.sec.nextSession, mctp, false, ma, root, 0⟩],
                                         nextSession := s.dev.sec.nextSession + 1 } ∧
            t.dev.out = s.dev.out ++ [.spdm mctp "KEY_EXCHANGE_RSP" ([s.dev.sec.nextSession, share, x] ++
              [Config.signature key n [s.dev.sec.nextSession, share, x]])]) ∧
          (2 ≤ s.dev.sec.sessions.length → exec (.keyExchange mctp share root ma true) s = err mctp) ∧
          exec (.keyExchange mctp share root ma false) s = err mctp))) ∧
    (∀ n, s.dev.sec.sessions.find? (fun x => x.id == n) = none → exec (.finish n true) s = err false ∧ exec (.heartbeat n) s = err false ∧
      exec (.keyUpdate n) s = err false ∧ exec (.endSession n) s = err false) ∧
    (∀ n x, s.dev.sec.sessions.find? (fun x => x.id == n) = some x →
      (∃ t, exec (.finish n true) s = .next t ∧ t.store = s.store ∧ t.dev.regs = s.dev.regs ∧
        t.dev.sec.sessions.find? (fun x => x.id == n) = some { x with established := true } ∧
        t.dev.out = s.dev.out ++ [.spdm x.mctp "FINISH_RSP" [n]]) ∧
      (∃ t, exec (.finish n false) s = .next t ∧ t.store = s.store ∧ t.dev.sec.sessions = s.dev.sec.sessions.filter (fun x => x.id != n) ∧
        t.dev.out = s.dev.out ++ [.spdm x.mctp "ERROR" []]) ∧
      (x.established = false → exec (.heartbeat n) s = err x.mctp ∧ exec (.keyUpdate n) s = err x.mctp ∧ exec (.endSession n) s = err x.mctp) ∧
      (x.established = true →
        exec (.heartbeat n) s = .next { s with dev := s.dev.emit (.spdm x.mctp "HEARTBEAT_ACK" [n]) } ∧
        (∃ t, exec (.keyUpdate n) s = .next t ∧ t.store = s.store ∧
          t.dev.sec.sessions.find? (fun x => x.id == n) = some { x with keyGen := x.keyGen + 1 } ∧
          t.dev.out = s.dev.out ++ [.spdm x.mctp "KEY_UPDATE_ACK" [n]]) ∧
        (∃ t, exec (.endSession n) s = .next t ∧ t.store = s.store ∧ t.dev.sec.sessions = s.dev.sec.sessions.filter (fun x => x.id != n) ∧
          t.dev.out = s.dev.out ++ [.spdm x.mctp "END_SESSION_ACK" [n]]))) ∧
    (∀ a b c d e f k, exec (.sidebandMsg .getVersion) s = exec (.getVersion true) s ∧
      exec (.sidebandMsg (.getCapabilities a)) s = exec (.getCapabilities true a) s ∧
      exec (.sidebandMsg (.negotiateAlgorithms a)) s = exec (.negotiateAlgorithms true a) s ∧
      exec (.sidebandMsg .getDigests) s = exec (.getDigests true) s ∧
      exec (.sidebandMsg (.getCertificate a b c)) s = exec (.getCertificate true a b c) s ∧
      exec (.sidebandMsg (.challenge a b)) s = exec (.challenge true a b) s ∧
      exec (.sidebandMsg (.getMeasurements a b)) s = exec (.getMeasurements true a b) s ∧
      exec (.sidebandMsg (.keyExchange a d e f)) s = exec (.keyExchange true a d e f) s ∧
      exec (.sidebandMsg (.finish a e)) s = exec (.finish a e) s ∧ exec (.sidebandMsg (.heartbeat a)) s = exec (.heartbeat a) s ∧
      exec (.sidebandMsg (.keyUpdate a)) s = exec (.keyUpdate a) s ∧ exec (.sidebandMsg (.endSession a)) s = exec (.endSession a) s ∧
      exec (.sidebandMsg (.keyLoad k)) s = exec (.keyLoad k) s ∧ exec (.sidebandMsg (.other a)) s = err true)) ∧
  (∀ (s : State) (mctp : Bool) (k : KeyLoadMsg), s.dev.firmware = false → exec (.getVersion mctp) s = .next s ∧ exec (.keyLoad k) s = .next s ∧
    ∀ m, exec (.sidebandMsg m) s = .next s)

/-- R518, R521–R524, R532: tenancy commands. ASSIGN takes VACANT to ACTIVE where a key is staged and no extent is granted or being revoked:
the staged key becomes ACTIVE and the ticket is set. CLOSE takes ACTIVE to CLOSING, BUMP that to DRAINING with ticket 0 and every
operation not complete retired. A command whose effect is present is NO_CHANGE, any other BAD_STATE. STAGED_CLEAR zeroes the STAGED slot
only. SVN_COMMIT, from the management core as owner, raises the floor to the running image's SVN and never lowers it. -/
def Said.TenancyCommands : Prop :=
  (∀ (src : Nat) (s : State), s.dev.running = true → s.dev.domOn 11 = true → quiet s.dev → s.dev.home.queue = [] → s.dev.fmAllowed src = true →
    let said := fun (d : Dev) (name : String) (r : Nat) =>
      (.next { s with dev := d.ctrl src (.result name r) } : Host.Outcome State Fault Refusal)
    let granted := s.dev.anyExt (fun st => st == 1 || st == 2)
    let idSame := s.dev.sec.staged.isNone = true ∨ s.dev.rd F.SEC_STAGED_ID_STAGED_ID = s.dev.rd F.SEC_KEY_ID_ACTIVE_ID
    (∀ t < 16,
      (s.dev.tenancy = 0 → t ≠ 0 → granted = false → ∀ key, s.dev.sec.staged = some key → ∃ u, exec (.assign (.msg src t)) s = .next u ∧
        u.store = s.store ∧ u.dev.tenancy = 1 ∧ u.dev.ticket = t ∧ u.dev.sec.active = some key ∧ u.dev.sec.staged = none ∧
        u.dev.rd F.SEC_KEY_ID_ACTIVE_ID = s.dev.rd F.SEC_STAGED_ID_STAGED_ID ∧ u.dev.rd F.SEC_STAGED_ID_STAGED_ID = 0 ∧
        (s.dev.hasNode src = true → u.dev.out = s.dev.out ++ [.ctrl src (.result "ASSIGN" rDone)])) ∧
      (s.dev.tenancy = 0 → t = 0 ∨ granted = true ∨ s.dev.sec.staged = none → exec (.assign (.msg src t)) s = said s.dev "ASSIGN" rBadState) ∧
      (s.dev.tenancy = 1 → t = s.dev.ticket → idSame → exec (.assign (.msg src t)) s = said s.dev "ASSIGN" rNoChange) ∧
      (s.dev.tenancy = 1 → t ≠ s.dev.ticket ∨ ¬idSame → exec (.assign (.msg src t)) s = said s.dev "ASSIGN" rBadState) ∧
      (2 ≤ s.dev.tenancy → exec (.assign (.msg src t)) s = said s.dev "ASSIGN" rBadState)) ∧
    (s.dev.tenancy = 1 → exec (.close (.msg src ())) s = said (s.dev.wr F.SEC_TENANT_STATE 2) "CLOSE" rDone) ∧
    (2 ≤ s.dev.tenancy → s.dev.tenancy ≤ 4 → exec (.close (.msg src ())) s = said s.dev "CLOSE" rNoChange) ∧
    (s.dev.tenancy = 0 ∨ s.dev.tenancy = 5 → exec (.close (.msg src ())) s = said s.dev "CLOSE" rBadState) ∧
    (s.dev.tenancy = 2 → s.dev.fry.ops = [] → s.dev.fry.colls = [] → ∃ u, exec (.bump (.msg src ())) s = .next u ∧ u.store = s.store ∧
      u.dev.tenancy = 3 ∧ u.dev.ticket = 0 ∧ u.dev.sec = { s.dev.sec with bumpSrc := some src, bumpAt := s.dev.tim.tide } ∧
      (s.dev.hasNode src = true → u.dev.out = s.dev.out ++ [.ctrl src (.result "BUMP" rDone)])) ∧
    (s.dev.tenancy = 1 → exec (.bump (.msg src ())) s = said s.dev "BUMP" rBadState) ∧
    (s.dev.tenancy = 3 ∨ s.dev.tenancy = 4 → exec (.bump (.msg src ())) s = said s.dev "BUMP" rNoChange) ∧
    (∃ u, exec (.stagedClear (.msg src ())) s = .next u ∧ u.store = s.store ∧ u.dev.sec = { s.dev.sec with staged := none } ∧
      u.dev.rd F.SEC_STAGED_ID_STAGED_ID = 0 ∧ u.dev.rd F.SEC_TENANT_STAGED = 0 ∧
      (s.dev.hasNode src = true → u.dev.out = s.dev.out ++ [.ctrl src (.result "STAGED_CLEAR" (if s.dev.sec.staged.isSome then rDone else rNoChange))]))) ∧
  (∀ d : Dev, ∀ o ∈ d.fryRetire.fry.ops, o.state = .complete ∨ o.retired = true) ∧
  (∀ s : State, pageOpen s.dev .mgmt 3 → s.dev.owns .mgmt 3 = true → quiet s.dev → s.dev.home.queue = [] →
    let svn := s.dev.rd F.SEC_BOOT_STAT_SVN
    (s.dev.glb.fuseFloor < svn → ∃ u, exec (.svnCommit .mgmt) s = .next u ∧ u.store = s.store ∧ u.dev.glb.fuseFloor = svn ∧
      u.dev.rd F.SEC_SVN_FLOOR_FLOOR = svn ∧ u.dev.rd F.SEC_CMD_RESULT_RESULT = rDone) ∧
    (svn ≤ s.dev.glb.fuseFloor → ∃ u, exec (.svnCommit .mgmt) s = .next u ∧ u.store = s.store ∧ u.dev.glb = s.dev.glb ∧
      u.dev.rd F.SEC_CMD_RESULT_RESULT = rNoChange)) ∧
  (∀ (m : Master) (s : State), m ≠ .mgmt → pageOpen s.dev m 3 → s.dev.owns m 3 = true → ∃ u, exec (.svnCommit m) s = .next u ∧
    u.store = s.store ∧ u.dev.glb = s.dev.glb ∧ u.dev.rdp F.BLK_ERR_CNT_ERRORS 3 = min (s.dev.rdp F.BLK_ERR_CNT_ERRORS 3 + 1) 0xFFFF) ∧
  (∀ (m : Master) (s : State),
    exec (.assign (.reg m)) s = exec (.registerWrite m 0x3114 4 (goWord F.SEC_CMD_OP 1 s)) s ∧
    exec (.close (.reg m)) s = exec (.registerWrite m 0x3114 4 (goWord F.SEC_CMD_OP 2 s)) s ∧
    exec (.bump (.reg m)) s = exec (.registerWrite m 0x3114 4 (goWord F.SEC_CMD_OP 3 s)) s ∧
    exec (.scrub (.reg m)) s = exec (.registerWrite m 0x3114 4 (goWord F.SEC_CMD_OP 4 s)) s ∧
    exec (.stagedClear (.reg m)) s = exec (.registerWrite m 0x3114 4 (goWord F.SEC_CMD_OP 5 s)) s)

/-- R521, R524–R527, R537: from DRAINING to VACANT. The tenancy is erased once nothing is in flight within the drain window, or at its end,
which DRAIN_EXPIRED records. Erasing zeroes the ACTIVE key, the home's held writes and its fetch log, the read caches and open blocks of
every landing, the arrays' accumulators and program stores, and the rings' ENABLE. Its end records the time and tells the node whose BUMP
it was. SCRUB takes VACANT to SCRUBBING and clears every extent but SYSTEM, VOQ and PARITY_HOLD ones; its end sets SCRUBBED. A debug
unlock zeroes both slots, and erases at once where there is a tenant. -/
def Said.Retirement : Prop :=
  (∀ s : State, s.dev.running = true → s.dev.domOn 11 = true → quiet s.dev → s.dev.home.queue = [] →
    (s.dev.tenancy = 3 → s.dev.drained = true → s.dev.drainOver = false → exec .drainComplete s =
      .next (withPkg s (Pkg.settle (Pkg.pump (s.store, (s.dev.wr F.SEC_RETIRE_STAT_DRAIN_EXPIRED 0).eraseEntry))))) ∧
    (s.dev.drained = false ∨ s.dev.drainOver = true → exec .drainComplete s = .next s) ∧
    (s.dev.tenancy = 3 → s.dev.drainOver = true → exec .drainWindowEnd s =
      .next (withPkg s (Pkg.settle (Pkg.pump (s.store, ((s.dev.wr F.SEC_RETIRE_STAT_DRAIN_EXPIRED 1).count 3 3 1).eraseEntry))))) ∧
    (s.dev.drainOver = false → exec .drainWindowEnd s = .next s) ∧
    exec (.debugUnlock false) s = .next s ∧
    (s.dev.tenancy = 0 → ∃ t, exec (.debugUnlock true) s = .next t ∧ t.store = s.store ∧ t.dev.sec = { s.dev.sec with active := none, staged := none } ∧
      t.dev.rd F.SEC_BOOT_STAT_DEBUG_UNLOCKED = 1 ∧ t.dev.rd F.SEC_KEY_ID_ACTIVE_ID = 0 ∧ t.dev.tenancy = 0 ∧ t.dev.out = s.dev.out) ∧
    (s.dev.tenancy = 1 ∨ s.dev.tenancy = 2 → exec (.debugUnlock true) s = .next (withPkg s (Pkg.settle (Pkg.pump (s.store,
      (Dev.retireAll none ((s.dev.wr F.SEC_BOOT_STAT_DEBUG_UNLOCKED 1).clearStaged.clearActive)).eraseEntry)))))) ∧
  (∀ d : Dev, d.eraseEntry.tenancy = 4 ∧ d.eraseEntry.ticket = 0 ∧ d.eraseEntry.sec.active = none ∧ d.eraseEntry.rd F.SEC_KEY_ID_ACTIVE_ID = 0 ∧
    d.eraseEntry.home.store = [] ∧ d.eraseEntry.home.fetchLog = [] ∧ d.eraseEntry.xlt.ftc = [] ∧ d.eraseEntry.xlt.ctxCache = [] ∧
    (∀ b ∈ d.eraseEntry.xlt.ltb, b = []) ∧ (shaped d → ∀ n < 4, (d.eraseEntry.lndOf n).rc = [] ∧ (d.eraseEntry.lndOf n).wc = [] ∧
      (d.eraseEntry.lndOf n).ranks = []) ∧
    (∀ a ∈ d.eraseEntry.fry.arrs, a.slice = none ∧ a.banks = ({} : Arr).banks ∧ a.progs = ({} : Arr).progs) ∧
    (∀ r < 64, d.eraseEntry.rdpi F.FRY_SUB_CFG_ENABLE (fryPage r) (r % 16) = 0 ∧ d.eraseEntry.rdpi F.FRY_CMP_CFG_ENABLE (fryPage r) (r % 16) = 0)) ∧
  (∀ s : State, s.dev.running = true → s.dev.tenancy = 4 → s.dev.ns < 2 ^ 64 → ∃ t, exec .eraseComplete s = .next t ∧ t.store = s.store ∧
    t.dev.tenancy = 0 ∧ bit (t.dev.word 0x3014) 1 = true ∧ t.dev.rd F.SEC_VACANT_TIME_LO_T_LO = s.dev.ns % 2 ^ 32 ∧
    t.dev.rd F.SEC_VACANT_TIME_HI_T_HI = s.dev.ns / 2 ^ 32 ∧ (∀ o ∈ t.dev.fry.ops, o.state = .complete → o.retired = false) ∧
    (∀ n, s.dev.sec.bumpSrc = some n → s.dev.hasNode n = true → t.dev.out.getLast? = some (.ctrl n .tenantVacant))) ∧
  (∀ (src : Nat) (s : State), s.dev.running = true → s.dev.domOn 11 = true → quiet s.dev → s.dev.home.queue = [] → s.dev.fmAllowed src = true →
    (s.dev.tenancy = 0 → (∀ k, (s.dev.prot k).mode ≠ 1) → ∃ t, exec (.scrub (.msg src ())) s = .next t ∧ t.dev.tenancy = 5 ∧
      (s.dev.hasNode src = true → t.dev.out = s.dev.out ++ [.ctrl src (.result "SCRUB" rDone)]) ∧
      (∀ k < 3232, ∀ l, extBase k ≤ 64 * l → 64 * l < extBase k + extSize k → isTableLine l = false →
        Pkg.lineBytes (t.store, t.dev) l = if s.dev.scrubSkips k then Pkg.lineBytes (s.store, s.dev) l else List.replicate 64 0)) ∧
    (s.dev.tenancy = 5 → exec (.scrub (.msg src ())) s = .next { s with dev := s.dev.ctrl src (.result "SCRUB" rNoChange) }) ∧
    (s.dev.tenancy ≠ 0 → s.dev.tenancy ≠ 5 → exec (.scrub (.msg src ())) s = .next { s with dev := s.dev.ctrl src (.result "SCRUB" rBadState) })) ∧
  (∀ s : State, s.dev.running = true →
    (s.dev.tenancy = 5 → s.dev.home.ops.any (fun o => o.kind == .scrub) = false → ∃ t, exec .scrubComplete s = .next t ∧ t.store = s.store ∧
      t.dev.tenancy = 0 ∧ t.dev.rd F.SEC_RETIRE_STAT_SCRUBBED = 1 ∧ t.dev.rd F.SEC_RETIRE_STAT_PROGRESS = 1000 ∧ bit (t.dev.word 0x3014) 2 = true) ∧
    (s.dev.tenancy = 5 → s.dev.home.ops.any (fun o => o.kind == .scrub) = true → exec .scrubComplete s = .next s) ∧
    (s.dev.tenancy ≠ 5 → exec .scrubComplete s = .next s))

/-- The tenancy commands, and the retirement of a tenant. -/
def Obligations.Tenancy : Prop := Said.TenancyCommands ∧ Said.Retirement

/-! ### Completion of the commands of the package's own blocks -/

/-- R39, R487, R508, R604–R606, R610: the commands of a page header complete. -/
def Said.HeaderCommandsComplete : Prop :=
  ∀ (m : Master) (p : Nat) (v : W32) (k : PageKind) (s : State), pageOpen s.dev m p → s.dev.owns m p = true → pageKind p = some k →
    let ctrl := fun (w : Nat) => (tlp m s.dev).ctrlWrite m p w
    (s.dev.rdp F.BLK_OWNER_OWNER p ≠ 3 → ∃ t, exec (.blkOwnerWrite m p v) s = .next t ∧ t.store = s.store ∧
      t.dev.rdp F.BLK_OWNER_OWNER p = bits v.toNat 0 2) ∧
    (k.quiesce = true → exec (.blkQuiesce m p v) s = .next (withPkg s (Pkg.released (s.store, ctrl v.toNat))) ∧
      (ctrl v.toNat).rdp F.BLK_CTRL_QUIESCE p = bits v.toNat 1 1) ∧
    (k.quiesce = true → s.dev.rdp F.BLK_STAT_QUIESCED p = 1 → bit v.toNat 2 = false →
      exec (.blkEnable m p v) s = .next (withPkg s (Pkg.released (s.store, ctrl v.toNat))) ∧
      (ctrl v.toNat).rdp F.BLK_CTRL_ENABLE p = bits v.toNat 0 1) ∧
    (exec (.cntFreeze m p v) s = .next (withPkg s (Pkg.released (s.store, ctrl v.toNat))) ∧
      (ctrl v.toNat).rdp F.BLK_CTRL_CNT_FREEZE p = bits v.toNat 3 1) ∧
    (bit v.toNat 2 = false → bits v.toNat 0 2 = 1 →
      exec (.cntClear m p v) s = .next (withPkg s (Pkg.released (s.store, ctrl (putBit v.toNat 4 true)))) ∧
      ∀ i < 1024, (ctrl (putBit v.toNat 4 true)).counter p i = 0) ∧
    ((tlp m s.dev).softOk p = true → exec (.softReset m p v) s = .next (withPkg s (Pkg.released (s.store, ctrl (putBit v.toNat 2 true)))) ∧
      (ctrl (putBit v.toNat 2 true)).rdp F.BLK_STAT_SRST_BUSY p = 1) ∧
    (s.dev.rdp F.BLK_CTRL_QUIESCE p = 1 → s.dev.workInHand p = false → ∃ t, exec (.quiesceComplete p) s = .next t ∧ t.store = s.store ∧
      t.dev.rdp F.BLK_STAT_QUIESCED p = 1) ∧
    (s.dev.rdp F.BLK_STAT_SRST_BUSY p = 1 → ∃ t, exec (.softResetDone p) s = .next t ∧ t.store = s.store ∧
      t.dev.rdp F.BLK_STAT_SRST_BUSY p = 0) ∧
    (∀ i < pageCounters p, s.dev.reaches m false p = true → ∃ t, exec (.counterLowRead m p (.low i)) s = .next t ∧ t.store = s.store ∧
      t.dev.out = s.dev.out ++ [.regData m 0 (natLE 4 (s.dev.counter p i % 2 ^ 32))]) ∧
    (∃ t, exec (.blkIsrClear m p v) s = .next t ∧ t.store = s.store ∧
      ∀ i, i < 24 ∨ i = 31 → bit (t.dev.word (p * 0x1000 + 0x14)) i = (bit (s.dev.word (p * 0x1000 + 0x14)) i && !bit v.toNat i)) ∧
    (∃ t, exec (.blkItr m p v) s = .next t ∧ t.store = s.store ∧
      ∀ i, i < 24 ∨ i = 31 → bit (t.dev.word (p * 0x1000 + 0x14)) i = (bit (s.dev.word (p * 0x1000 + 0x14)) i || bit v.toNat i)) ∧
    (∃ t, exec (.blkIerWrite m p v) s = .next t ∧ t.store = s.store ∧
      ∀ i, i < 24 ∨ i = 31 → bit (t.dev.word (p * 0x1000 + 0x18)) i = bit v.toNat i) ∧
    (∃ t, exec (.capRearm m p v) s = .next t ∧ t.store = s.store ∧ t.dev.rdp F.BLK_ERR_CAP0_VALID p = 0) ∧
    (∃ t, exec (.lowClr m p v) s = .next t ∧ t.store = s.store ∧ t.dev.rdp F.BLK_PACE_PACE_LOW p = 0xFFF)

/-- R40, R49, R50, R482, R556–R577, R583–R594: the commands of power, reset and start-up complete. -/
def Said.PowerCommandsComplete : Prop :=
  (∀ (s : State), s.dev.paced = true → ∀ paces, s.dev.glb.paceAt < s.dev.ns / 1000 → ∃ t, exec (.paceWindowEnd paces) s = .next t ∧
    t.store = s.store ∧ t.dev.glb.paceAt = s.dev.ns / 1000) ∧
  (∀ (s : State), s.dev.running = true →
    (∀ (i : Fin 30), s.dev.awake = true → ¬(12 ≤ i.val ∧ i.val < 20) → bit (s.dev.rd F.PWR_DOM_STAT_ON) i.val = false →
      s.dev.domCond i.val = true → ∃ d, d.domOn i.val = true ∧
        exec (.domainOn i) s = .next (withPkg s (if d.domOn 11 then Pkg.released (s.store, d) else (s.store, d)))) ∧
    (s.dev.awake = true → s.dev.domOn 29 = true → s.dev.domCond 29 = false → (domainPages 29).any s.dev.workInHand = false →
      ∃ t, exec (.domainOff 29) s = .next t ∧ t.store = s.store ∧ t.dev.domOn 29 = false) ∧
    (∀ p code, p < 256 → code < 256 → ∃ t, exec (.fatalError p code) s = .next t ∧ t.store = s.store ∧ t.dev.glb.hold = .failStop ∧
      t.dev.rd F.ERR_FATAL_PAGE = p ∧ t.dev.rd F.ERR_FATAL_CODE = code) ∧
    (s.dev.stage = 0 → s.dev.glb.join.isSome = true → (∃ p < 24, s.dev.linkState p = 5) → s.dev.timeState = 2 ∨ s.dev.timeState = 4 →
      ∃ t, exec .trainedReached s = .next t ∧ t.store = s.store ∧ t.dev.stage = 1) ∧
    (∀ q : CfgReq, s.dev.rd F.GLB_PIN_STAT_PERST = 0 → s.dev.pageOn 0x18 = true → ∃ t v, exec (.configurationRequest q) s = .next t ∧
      t.store = s.store ∧ t.dev.out = s.dev.out ++ [.cpl q.id (if s.dev.rd F.GLB_BOOT_STAT_STAGE < 2 then 2 else 0) v]) ∧
    (s.dev.rd F.GLB_BOOT_STAT_STAGE = 0 → ∃ t, exec (.bootStageComplete .done) s = .next t ∧ t.store = s.store ∧
      t.dev.rd F.GLB_BOOT_STAT_STAGE = 1) ∧
    (s.dev.pwrState = 2 → s.dev.pwr.abort = false →
      (s.dev.pwr.step = .e1 → s.dev.drained = true → s.dev.tim.tide < s.dev.pwr.stepAt + us 10000 →
        ∃ t, exec .moorQuiesced s = .next t ∧ t.store = s.store ∧ t.dev.pwr.step = .e2) ∧
      (s.dev.pwr.step = .e4 → ∃ t, exec .moorStepComplete s = .next t ∧ t.store = s.store ∧ t.dev.pwr.step = .e5)) ∧
    (s.dev.pwrState = 2 → s.dev.pwr.step = .e1 → s.dev.glb.pcieIdle = false → s.dev.pwr.stepAt + us 10000 ≤ s.dev.tim.tide →
      s.dev.pwr.pendingOrder = false → ∃ d, d.rd F.PWR_STAT_STATE = 0 ∧ d.rd F.PWR_CMD_RESULT_STATUS = sTimeout ∧
        exec .moorEntryTimeout s = .next (withPkg s (Pkg.released (s.store, d)))) ∧
    (s.dev.pwrState = 4 → s.dev.pwr.pendingOrder = false → ∃ d, d.rd F.PWR_STAT_STATE = 0 ∧ d.home.prot = s.dev.pwr.savedProt ∧
      exec .moorExitComplete s = .next (withPkg s (Pkg.released (s.store, d))))) ∧
  (∀ (s : State), s.dev.glb.off = false →
    (∀ mv, s.dev.glb.vddAon = true → 600 ≤ mv → ∃ t, exec (.vddCoreChange mv) s = .next t ∧ t.store = s.store ∧ t.dev.glb.vddMv = mv) ∧
    (∀ mv, s.dev.glb.vddAon = true → mv < 600 → s.dev.glb.hold ≠ .coreUv → ∃ t, exec (.vcoreLow mv) s = .next t ∧ t.store = s.store ∧
      t.dev.glb.vddMv = mv ∧ t.dev.rd F.BLK_STAT_BLOCK = 1) ∧
    (∀ t0, s.dev.glb.vddAon = true → s.dev.glb.uvSince = some t0 → t0 + us 1 ≤ s.dev.tim.tide → s.dev.glb.hold ≠ .coreUv →
      s.dev.glb.hold ≠ .eoff → ∃ t, exec .coreUv s = .next t ∧ t.store = s.store ∧ t.dev.glb.hold = .coreUv ∧ t.dev.rd F.ERR_FATAL_CORE_UV = 1) ∧
    (s.dev.rd F.GLB_PIN_STAT_PERST = 0 → ∃ t, exec .perstNAssert s = .next t ∧ t.store = s.store ∧ t.dev.rd F.GLB_PIN_STAT_PERST = 1) ∧
    (s.dev.rd F.GLB_PIN_STAT_PERST = 1 → ∃ t, exec .perstNRelease s = .next t ∧ t.store = s.store ∧ t.dev.rd F.GLB_PIN_STAT_PERST = 0) ∧
    (∀ c : Fin 64, s.dev.rd F.PWR_CFG_PIN_EN = 1 → exec (.limitStrobe c) s = .next { s with
      dev := s.dev.capOrder (if 60 ≤ c.val then 950 else 16 * c.val) 1 }) ∧
    (∃ t, exec .vsetReached s = .next t ∧ t.store = s.store ∧ t.dev.glb.vddMv = 750 - 50 * s.dev.rd F.PWR_STAT_VSET) ∧
    (∀ tj, s.dev.glb.thermtrip = false → tj < 115 → tj < s.dev.rd F.PWR_CFG_THROTTLE_C → s.dev.pwr.thermal = false →
      ∃ t, exec (.thermalReading tj) s = .next t ∧ t.store = s.store ∧ t.dev.rd F.PWR_TEMP_TJ = min tj 255) ∧
    (s.dev.rd F.PWR_STAT_BRAKE = 0 → ∃ t, exec .brakeAssert s = .next t ∧ t.store = s.store ∧ t.dev.braked = true) ∧
    (s.dev.pwr.pendingOrder = false → s.dev.running = false ∨ (quiet s.dev ∧ s.dev.src.held = [] ∧ s.dev.fry.colls = []) →
      exec .brakeRelease s = .next { s with dev := s.dev.wr F.PWR_STAT_BRAKE 0 }) ∧
    (∀ w, s.dev.domOn 29 = true → 950 ≤ s.dev.capInForce → s.dev.pwr.windowAt < s.dev.ns / (s.dev.rd F.PWR_CFG_AVG_100US * 100000) →
      ∃ t, exec (.telemetryWindowEnd w) s = .next t ∧ t.store = s.store ∧ t.dev.rd F.PWR_AVG_AVG_W = min w 2047) ∧
    (∀ m mj, mj < 2 ^ 64 → s.dev.pwr.mj < 2 ^ 64 → ∃ t, exec (.pwrEnergyLoRead m mj) s = .next t ∧ t.store = s.store ∧
      t.dev.out = s.dev.out ++ [.regData m 0 (natLE 4 (max s.dev.pwr.mj mj % 2 ^ 32))]) ∧
    (s.dev.rd F.PWR_WAKE_EN_PCIE = 1 → s.dev.pwrState = 3 → s.dev.pwr.wakeOpen = true → ∃ t, exec (.wakeSource .pcie) s = .next t ∧
      t.store = s.store ∧ t.dev.rd F.PWR_STAT_STATE = 4) ∧
    (s.dev.rd F.GLB_PIN_STAT_PWRFAIL = 0 → ∃ t, exec (.pwrfailN true) s = .next t ∧ t.store = s.store ∧
      t.dev.rd F.GLB_PIN_STAT_PWRFAIL_SEEN = 1)) ∧
  (∀ (m : Master) (v : W32) (s : State), pageOpen s.dev m 1 → s.dev.owns m 1 = true →
    (bit v.toNat 21 = true → bit v.toNat 22 = true → bit v.toNat 23 = true → ∃ t, exec (.pwrDomReqWrite m v) s = .next t ∧
      t.store = s.store ∧ t.dev.rd F.PWR_DOM_REQ_REQ = bits v.toNat 0 30) ∧
    (∃ t, exec (.capWrite m v) s = .next t ∧ t.store = s.store ∧ t.dev.pwr.order = bits v.toNat 0 10) ∧
    (∃ t, exec (.peakClr m v) s = .next t ∧ t.store = s.store ∧ t.dev.rd F.PWR_AVG_PEAK_W = 0) ∧
    (s.dev.awake = true → ∃ t, exec (.idle m v) s = .next t ∧ t.store = s.store ∧ t.dev.rd F.PWR_CMD_RESULT_RESULT = rDone) ∧
    (m = .host → s.dev.awake = true → (s.dev.rd F.BULK_CFG_INTERLEAVE = 0 → s.dev.rd F.PWR_RETAIN_DEV = 0 ∨ s.dev.rd F.PWR_RETAIN_DEV = 0xFFF) →
      ∃ t, exec (.moor m v) s = .next t ∧ t.store = s.store ∧ t.dev.rd F.PWR_STAT_STATE = 2 ∧ t.dev.pwr.step = .e1)) ∧
  (∀ (v : W32) (s : State), pageOpen s.dev .mgmt 1 → s.dev.pwrState = 3 → ∃ t, exec (.wake .mgmt v) s = .next t ∧ t.store = s.store ∧
    t.dev.rd F.PWR_STAT_STATE = 4) ∧
  (∀ (m : Master) (v : W32) (s : State), pageOpen s.dev m 0 → s.dev.owns m 0 = true → exec (.join m v) s = .next (withPkg s (Pkg.settle
    (s.store, ((tlp m s.dev).setWord 0x10C ((tlp m s.dev).newWord true 0 0x10C (putBit v.toNat 31 true))).joinCmd)))) ∧
  (∀ (s : State), s.dev.glb.hold ≠ .eoff → ¬(s.dev.glb.vddAon = true ∧ s.dev.glb.hold = .coreUv ∧ s.dev.glb.vddMv < 600) →
    ∃ t, exec .resetNAssert s = .next t ∧ t.store = s.store ∧ t.dev.glb.off = true ∧
      ∀ tray slot, tray < 64 → slot < 2 → ∃ u, exec (.resetNRelease tray slot) t = .next u ∧ u.store = s.store ∧ u.dev.running = true) ∧
  (∀ (s : State), (∃ t, exec .vddAonLoss s = .next t ∧ t.store = {} ∧ t.dev.glb.off = true) ∧
    (∀ ns, s.dev.glb.vddAon = true → s.dev.glb.hold ≠ .eoff → 50 ≤ ns → ∃ t, exec (.eoffN ns) s = .next t ∧ t.store = s.store ∧
      t.dev.glb.hold = .eoff))

/-- R541–R555, R614: the commands of the TIME page complete. -/
def Said.TimeCommandsComplete : Prop :=
  (∀ (s : State), s.dev.running = true →
    (1 ≤ s.dev.timeState → s.dev.timeState ≤ 3 → s.dev.rd F.TIME_CFG_UP_EN = 1 → s.dev.portCarries s.dev.upstream = true →
      s.dev.tim.nextSync ≤ s.dev.tim.tide → ∃ t, exec .timeSyncSend s = .next t ∧ t.store = s.store ∧
        t.dev.tim.exchange = s.dev.tim.exchange ++ [s.dev.tim.tide]) ∧
    (∀ (p : Fin 24) t1, s.dev.portCarries p.val = true → 2 ≤ s.dev.timeState → s.dev.timeState ≤ 4 →
      exec (.timeSync p t1) s = .next { s with
        dev := s.dev.ctrl (s.dev.rdp F.PRT_PARTNER_NODE (0x80 + p.val)) (.timeSyncReply p.val t1 s.dev.tim.tide s.dev.tim.tide) }) ∧
    (∀ r : SyncReply, r.t1 ∈ s.dev.tim.exchange → s.dev.timeState = 2 → r.replayed = false →
      (nth s.dev.links s.dev.upstream {}).changedSince ≤ r.t1 → (nth s.dev.links s.dev.upstream {}).replayedSince ≤ r.t1 →
      ∃ t, exec (.timeSyncReply r) s = .next t ∧ t.store = s.store ∧
        t.dev.rd F.TIME_DELAY_DELAY = ofSigned 32 (halfEven (((r.t2 : Int) - r.t1) + ((r.t4 : Int) - r.t3))))) ∧
  (∀ (s : State), s.dev.glb.off = false →
    (∀ t1 l, s.dev.tim.exchange = t1 :: l → t1 + us (32 * s.dev.rd F.TIME_CFG_SYNC_INTERVAL) ≤ s.dev.tim.tide →
      ∃ t, exec .exchangeTimeout s = .next t ∧ t.store = s.store ∧ t.dev.tim.exchange = l) ∧
    (∃ t, exec .tideHoldEnd s = .next t ∧ t.store = s.store ∧ t.dev.tim.holdFor = none) ∧
    (s.dev.timeState = 4 → s.dev.rd F.TIME_CFG_PPS_IN_EN = 1 → s.dev.tim.ppsArmed = false → ∃ t, exec .ppsInEdge s = .next t ∧
      t.store = s.store ∧ t.dev.tim.ppsLast = some s.dev.tim.tide) ∧
    (∀ t0, s.dev.timeState = 4 → s.dev.rd F.TIME_CFG_PPS_IN_EN = 1 → s.dev.tim.ppsLast = some t0 → t0 + us 1500000 ≤ s.dev.tim.tide →
      ∃ t, exec .ppsMissed s = .next t ∧ t.store = s.store ∧ t.dev.tim.ppsLast = none) ∧
    (s.dev.tim.ppsHigh = 0 → s.dev.rd F.TIME_CFG_PPS_OUT_EN = 1 → s.dev.tim.lastPpsOut < s.dev.ns / 1000000000 →
      ∃ t, exec .ppsOutEdge s = .next t ∧ t.store = s.store ∧ t.dev.out = s.dev.out ++ [.pin "TIME_PPS_OUT" 1]) ∧
    (∀ m, ∃ t, exec (.timeNowLoRead m) s = .next t ∧ t.store = s.store ∧ t.dev.out = s.dev.out ++ [.regData m 0 (natLE 4 (s.dev.ns % 2 ^ 32))]) ∧
    (1 < s.dev.rd F.GLB_BOOT_STAT_STAGE → s.dev.tim.lastBeat < s.dev.ns / 1000000 → ∃ t, exec .mgmtHeartbeat s = .next t ∧
      t.store = s.store ∧ t.dev.rd F.MGMT_HEARTBEAT_COUNT = (s.dev.rd F.MGMT_HEARTBEAT_COUNT + 1) % 2 ^ 32)) ∧
  (∀ (m : Master) (v : W32) (s : State), pageOpen s.dev m 2 → s.dev.owns m 2 = true →
    (s.dev.timeState = 0 ∨ s.dev.timeState = 4 → s.dev.tim.tide ≤ s.dev.timeSetValue →
      (∃ t, exec (.timeSet m v) s = .next t ∧ t.store = s.store ∧ t.dev.rd F.TIME_CMD_RESULT_RESULT = rDone) ∧
      (∃ t, exec (.timeSetAtPps m v) s = .next t ∧ t.store = s.store ∧ t.dev.tim.ppsArmed = true)) ∧
    (s.dev.timeState = 2 ∨ s.dev.timeState = 3 → ∃ t, exec (.reacquire m v) s = .next t ∧ t.store = s.store ∧ t.dev.timeState = 1) ∧
    (s.dev.rd F.TIME_CFG_ROOT = 0 → bit v.toNat 0 = true → bits v.toNat 8 5 < 24 → 1 ≤ bits v.toNat 16 8 →
      ∃ t, exec (.timeRootWrite m v) s = .next t ∧ t.store = s.store ∧ t.dev.timeState = 4))

/-- R611–R613, R615: register accesses over the sideband and by message, and the queue of the fabric manager, complete. -/
def Said.ManagementCommandsComplete : Prop :=
  (∀ (p off : Nat) (s : State), plainRegister s.dev p off → counterAt p off = none → p * 0x1000 + off ≠ 0x2118 →
    p * 0x1000 + off ≠ F.PWR_ENERGY_LO_MJ_LO.addr 1 0 → ¬(p * 0x1000 + off = 0x311C ∧ s.dev.tenancy = 5) → p < 4096 →
    (s.dev.glb.off = false → s.dev.sidebandReaches false p = true → exec (.regRead (p * 0x1000 + off)) s = .next { s with
      dev := s.dev.emit (.regData .mgmt 0 (natLE 4 (s.dev.readWord (p * 0x1000 + off)))) }) ∧
    (s.dev.barOpen = true → exec (.counterLowRead .host p (.reg off 4)) s = .next { s with
      dev := s.dev.regAnswer .host 0 (natLE 4 (s.dev.readWord (p * 0x1000 + off))) }) ∧
    (∀ src, s.dev.running = true → s.dev.fmAllowed src = true → exec (.fmRegRead src (p * 0x1000 + off) 4) s = .next { s with
      dev := s.dev.ctrl src (.regReply sOk (natLE 4 (s.dev.readWord (p * 0x1000 + off)))) }) ∧
    (∀ v, v < 2 ^ 32 → pageOpen s.dev .mgmt p → fieldsTaken s.dev .mgmt p off v →
      exec (.regWrite (p * 0x1000 + off) (BitVec.ofNat 32 v)) s = .next (withPkg s (fieldsStored .mgmt p off v true (s.store, s.dev)))) ∧
    (∀ src v, v < 2 ^ 32 → pageOpen s.dev .fm p → s.dev.fmAllowed src = true → fieldsTaken s.dev .fm p off v →
      exec (.fmRegWrite src (p * 0x1000 + off) 4 v) s =
        .next (withPkg s ((fieldsStored .fm p off v true (s.store, s.dev)).dev (fun d => d.ctrl src (.regReply sOk [])))))) ∧
  (∀ (v : W32) (s : State), pageOpen s.dev .host 4 → s.dev.rd F.MGMT_FM_CFG_FM_EN = 1 → bits v.toNat 0 2 ≤ 2 → s.dev.mgmt.sendQ.length < 8 →
    ∃ t b, exec (.fmqGo .host v) s = .next t ∧ t.store = s.store ∧ t.dev.mgmt.sendQ = s.dev.mgmt.sendQ ++ [b]) ∧
  (∀ (b : List Byte) (q : List (List Byte)) (s : State), s.dev.running = true → s.dev.domOn 11 = true → s.dev.mgmt.sendQ = b :: q →
    leNat ((s.dev.stamped b).take 2) % 4096 ≠ s.dev.node → ∃ t, exec .fmqSend s = .next t ∧ t.store = s.store ∧ t.dev.mgmt.sendQ = q) ∧
  (∀ (b : List Byte) (s : State), s.dev.running = true → s.dev.rd F.GLB_PIN_STAT_PERST = 0 → s.dev.rd F.MGMT_FMQ_RX_CFG_INT_EN = 0 →
    s.dev.rd F.MGMT_FMQ_RX_CFG_ENABLE = 1 →
    ringFree (s.dev.rd F.MGMT_FMQ_RX_PROD_PROD) (s.dev.rd F.MGMT_FMQ_RX_CONS_CONS) (s.dev.rd F.MGMT_FMQ_RX_CFG_LOG2_SIZE) = true →
    ∃ t, exec (.fmqReceive b) s = .next t ∧ t.store = s.store ∧
      t.dev.rd F.MGMT_FMQ_RX_PROD_PROD = (s.dev.rd F.MGMT_FMQ_RX_PROD_PROD + 1) % 2 ^ 32)

/-- Every command of the page headers, of power, reset and start-up, of tide time and of the management paths completes, under the
conditions that its rules give, with the effect it is for. -/
def Obligations.PackageCommandsComplete : Prop :=
  Said.HeaderCommandsComplete ∧ Said.PowerCommandsComplete ∧ Said.TimeCommandsComplete ∧ Said.ManagementCommandsComplete

/-! ### What every step keeps -/

/-- The headline invariant: pool memory and the covers of its lines are in canonical form (addresses strictly rising, no entry that an
unlisted address already reads as), and every step from every state that meets this answers a state that meets it. -/
def Obligations.EveryStepKeepsStoreForm : Prop := ∀ s t : State, Safe s → step s = .next t → Safe t

/-- Every step keeps the fixed numbers of units of a package (R17, R85, R256, R274, R348, R349). -/
def Obligations.EveryStepKeepsUnits : Prop := ∀ s t : State, shaped s.dev → step s = .next t → shaped t.dev

/-- After reset: memory and covers in canonical form with nothing listed, the units in their numbers, nothing under way, no command
waiting. -/
def Obligations.ResetForm : Prop :=
  Safe State.reset ∧ shaped State.reset.dev ∧ quiet State.reset.dev ∧ State.reset.pending = [] ∧
  State.reset.store.mem = [] ∧ State.reset.store.covers = [] ∧ State.reset.store.lost = []

/-- R483, and the same for every hold of the core: while the core does not run no command writes pool memory. VDD_AON_LOSS alone, which
loses every contents, does (R560). -/
def Obligations.HeldCoreKeepsMemory : Prop :=
  ∀ (c : Instr) (s t : State), s.dev.running = false → c ≠ .vddAonLoss → exec c s = .next t → t.store = s.store
end

