-- ==== Sys2Proof/Laws/Bits.lean ====
section
/-!
SUPPORT. The laws of bit fields: a field read back after it is put, and a field beside it unchanged.
-/
namespace Sys2Proof.Machine

theorem bits_lt (n lo w : Nat) : bits n lo w < 2 ^ w := Nat.mod_lt _ (Nat.two_pow_pos w)

theorem testBit_bits (n lo w i : Nat) : (bits n lo w).testBit i = (decide (i < w) && n.testBit (lo + i)) := by
  unfold bits
  rw [Nat.testBit_mod_two_pow, ← Nat.shiftRight_eq_div_pow, Nat.testBit_shiftRight]

theorem bit_eq_testBit (n i : Nat) : bit n i = n.testBit i := by
  unfold bit
  rw [Nat.testBit_eq_decide_div_mod_eq]
  by_cases h : n / 2 ^ i % 2 = 1 <;> simp [h]

/-- A number with one field replaced, as its three parts. -/
theorem putBits_eq (n lo w v : Nat) :
    putBits n lo w v = 2 ^ lo * (2 ^ w * (n / 2 ^ lo / 2 ^ w) + v % 2 ^ w) + n % 2 ^ lo := by
  unfold putBits bits
  have h1 := Nat.div_add_mod n (2 ^ lo)
  have h2 := Nat.div_add_mod (n / 2 ^ lo) (2 ^ w)
  generalize n / 2 ^ lo / 2 ^ w = a at *
  generalize n / 2 ^ lo % 2 ^ w = b at *
  generalize n % 2 ^ lo = c at *
  generalize v % 2 ^ w = u
  rw [← h2] at h1
  have h3 : n = 2 ^ lo * (2 ^ w * a) + b * 2 ^ lo + c := by rw [← h1]; ring
  have h4 : n - b * 2 ^ lo = 2 ^ lo * (2 ^ w * a) + c := by omega
  rw [h4]; ring

theorem testBit_putBits (n lo w v i : Nat) :
    (putBits n lo w v).testBit i =
      if lo ≤ i ∧ i < lo + w then v.testBit (i - lo) else n.testBit i := by
  rw [putBits_eq, Nat.testBit_two_pow_mul_add _ (Nat.mod_lt _ (Nat.two_pow_pos lo)),
    Nat.testBit_two_pow_mul_add _ (Nat.mod_lt _ (Nat.two_pow_pos w))]
  by_cases h : i < lo
  · rw [if_pos h, if_neg (by omega), Nat.testBit_mod_two_pow]; simp [h]
  · rw [if_neg h]
    by_cases hw : i - lo < w
    · rw [if_pos hw, if_pos (by omega), Nat.testBit_mod_two_pow]; simp [hw]
    · rw [if_neg hw, if_neg (by omega), ← Nat.shiftRight_eq_div_pow, ← Nat.shiftRight_eq_div_pow,
        Nat.testBit_shiftRight, Nat.testBit_shiftRight]
      congr 1; omega

/-- A field reads back what was put. -/
@[simp] theorem bits_putBits_same (n lo w v : Nat) : bits (putBits n lo w v) lo w = v % 2 ^ w := by
  apply Nat.eq_of_testBit_eq; intro i
  rw [testBit_bits, testBit_putBits, Nat.testBit_mod_two_pow]
  by_cases h : i < w
  · have h2 : lo ≤ lo + i ∧ lo + i < lo + w := ⟨by omega, by omega⟩
    simp [h]
  · simp [h]

/-- A field that does not overlap the one put is unchanged. -/
theorem bits_putBits_ne (n lo w v lo' w' : Nat) (h : lo' + w' ≤ lo ∨ lo + w ≤ lo') :
    bits (putBits n lo w v) lo' w' = bits n lo' w' := by
  apply Nat.eq_of_testBit_eq; intro i
  rw [testBit_bits, testBit_bits, testBit_putBits]
  by_cases hi : i < w'
  · rw [if_neg (by omega)]
  · simp [hi]

theorem bits_mod (n k lo w : Nat) (h : lo + w ≤ k) : bits (n % 2 ^ k) lo w = bits n lo w := by
  apply Nat.eq_of_testBit_eq; intro i
  rw [testBit_bits, testBit_bits, Nat.testBit_mod_two_pow]
  by_cases hi : i < w
  · have : lo + i < k := by omega
    simp [this]
  · simp [hi]

theorem bit_putBit_same (n i : Nat) (b : Bool) : bit (putBit n i b) i = b := by
  rw [bit_eq_testBit]; unfold putBit; rw [testBit_putBits, if_pos (by omega)]
  cases b <;> simp

theorem bit_putBit_ne (n i j : Nat) (b : Bool) (h : j ≠ i) : bit (putBit n i b) j = bit n j := by
  rw [bit_eq_testBit, bit_eq_testBit]; unfold putBit; rw [testBit_putBits, if_neg (by omega)]

theorem satAdd_le (w n k : Nat) : satAdd w n k ≤ 2 ^ w - 1 := Nat.min_le_right _ _

theorem natLE_length (k n : Nat) : (natLE k n).length = k := by
  induction k generalizing n with
  | zero => rfl
  | succ k ih => simp [natLE, ih]

/-- Bytes written little-endian read back (R5). -/
theorem leNat_natLE (k n : Nat) : leNat (natLE k n) = n % 256 ^ k := by
  induction k generalizing n with
  | zero => simp [natLE, leNat, Nat.mod_one]
  | succ k ih =>
    have h : n % 256 ^ (k + 1) = n % 256 + 256 * (n / 256 % 256 ^ k) := by
      rw [pow_succ, Nat.mul_comm (256 ^ k) 256, Nat.mod_mul]
    simp only [natLE, leNat, ih, BitVec.toNat_ofNat, h]

@[simp] theorem strict_eq {α : Type} (n : Nat) (f : Nat → α) : strict n f = f n := by
  cases n <;> rfl

theorem leNat_lt (l : List Byte) : leNat l < 256 ^ l.length := by
  induction l with
  | nil => simp [leNat]
  | cons b l ih =>
    have hb : b.toNat < 256 := b.isLt
    simp only [leNat, List.length_cons, pow_succ]
    omega

theorem sliceBytes_length (l : List Byte) (off len : Nat) : (sliceBytes l off len).length = len := by
  simp [sliceBytes]

end Sys2Proof.Machine
end

