-- ==== Sys2Proof/Laws/State.lean ====
section
/-!
SUPPORT. What the shared operations leave alone: for each, the fields of the package it does not touch, as one set of simp lemmas, so
that no later proof unfolds a record update.
-/
namespace Sys2Proof.Machine

/-! ### The state -/

@[simp] theorem onDev_eq (f : Dev → Dev) (s : State) : onDev f s = .next { s with dev := f s.dev } := rfl

@[simp] theorem onAll_eq (f : Store × Dev → Store × Dev) (s : State) :
    onAll f s = .next { s with store := (f (s.store, s.dev)).1, dev := (f (s.store, s.dev)).2 } := rfl

/-! ### The shared operations -/

@[simp] theorem Dev.setWord_frame (d : Dev) (a v : Nat) :
    (d.setWord a v).cnts = d.cnts ∧ (d.setWord a v).cntLatch = d.cntLatch ∧ (d.setWord a v).out = d.out ∧
    (d.setWord a v).freeCtr = d.freeCtr ∧ (d.setWord a v).glb = d.glb ∧ (d.setWord a v).xlt = d.xlt ∧ (d.setWord a v).flt = d.flt ∧
    (d.setWord a v).fltWait = d.fltWait ∧ (d.setWord a v).src = d.src ∧ (d.setWord a v).lnd = d.lnd ∧ (d.setWord a v).host = d.host ∧
    (d.setWord a v).home = d.home ∧ (d.setWord a v).swc = d.swc ∧ (d.setWord a v).rte = d.rte ∧ (d.setWord a v).links = d.links ∧
    (d.setWord a v).eyes = d.eyes ∧ (d.setWord a v).rcv = d.rcv ∧ (d.setWord a v).sec = d.sec ∧ (d.setWord a v).tim = d.tim ∧
    (d.setWord a v).pwr = d.pwr ∧ (d.setWord a v).mgmt = d.mgmt ∧ (d.setWord a v).fry = d.fry := by
  simp [Dev.setWord]

@[simp] theorem Dev.wrpi_frame (d : Dev) (f : Fld) (p i v : Nat) :
    (d.wrpi f p i v).cnts = d.cnts ∧ (d.wrpi f p i v).cntLatch = d.cntLatch ∧ (d.wrpi f p i v).out = d.out ∧
    (d.wrpi f p i v).freeCtr = d.freeCtr ∧ (d.wrpi f p i v).glb = d.glb ∧ (d.wrpi f p i v).xlt = d.xlt ∧ (d.wrpi f p i v).flt = d.flt ∧
    (d.wrpi f p i v).fltWait = d.fltWait ∧ (d.wrpi f p i v).src = d.src ∧ (d.wrpi f p i v).lnd = d.lnd ∧ (d.wrpi f p i v).host = d.host ∧
    (d.wrpi f p i v).home = d.home ∧ (d.wrpi f p i v).swc = d.swc ∧ (d.wrpi f p i v).rte = d.rte ∧ (d.wrpi f p i v).links = d.links ∧
    (d.wrpi f p i v).eyes = d.eyes ∧ (d.wrpi f p i v).rcv = d.rcv ∧ (d.wrpi f p i v).sec = d.sec ∧ (d.wrpi f p i v).tim = d.tim ∧
    (d.wrpi f p i v).pwr = d.pwr ∧ (d.wrpi f p i v).mgmt = d.mgmt ∧ (d.wrpi f p i v).fry = d.fry := by
  simp [Dev.wrpi]

@[simp] theorem Dev.wrp_frame (d : Dev) (f : Fld) (p v : Nat) :
    (d.wrp f p v).cnts = d.cnts ∧ (d.wrp f p v).cntLatch = d.cntLatch ∧ (d.wrp f p v).out = d.out ∧ (d.wrp f p v).freeCtr = d.freeCtr ∧
    (d.wrp f p v).glb = d.glb ∧ (d.wrp f p v).xlt = d.xlt ∧ (d.wrp f p v).flt = d.flt ∧ (d.wrp f p v).fltWait = d.fltWait ∧
    (d.wrp f p v).src = d.src ∧ (d.wrp f p v).lnd = d.lnd ∧ (d.wrp f p v).host = d.host ∧ (d.wrp f p v).home = d.home ∧
    (d.wrp f p v).swc = d.swc ∧ (d.wrp f p v).rte = d.rte ∧ (d.wrp f p v).links = d.links ∧ (d.wrp f p v).eyes = d.eyes ∧
    (d.wrp f p v).rcv = d.rcv ∧ (d.wrp f p v).sec = d.sec ∧ (d.wrp f p v).tim = d.tim ∧ (d.wrp f p v).pwr = d.pwr ∧
    (d.wrp f p v).mgmt = d.mgmt ∧ (d.wrp f p v).fry = d.fry := by
  simp [Dev.wrp]

@[simp] theorem Dev.wri_frame (d : Dev) (f : Fld) (i v : Nat) :
    (d.wri f i v).cnts = d.cnts ∧ (d.wri f i v).cntLatch = d.cntLatch ∧ (d.wri f i v).out = d.out ∧ (d.wri f i v).freeCtr = d.freeCtr ∧
    (d.wri f i v).glb = d.glb ∧ (d.wri f i v).xlt = d.xlt ∧ (d.wri f i v).flt = d.flt ∧ (d.wri f i v).fltWait = d.fltWait ∧
    (d.wri f i v).src = d.src ∧ (d.wri f i v).lnd = d.lnd ∧ (d.wri f i v).host = d.host ∧ (d.wri f i v).home = d.home ∧
    (d.wri f i v).swc = d.swc ∧ (d.wri f i v).rte = d.rte ∧ (d.wri f i v).links = d.links ∧ (d.wri f i v).eyes = d.eyes ∧
    (d.wri f i v).rcv = d.rcv ∧ (d.wri f i v).sec = d.sec ∧ (d.wri f i v).tim = d.tim ∧ (d.wri f i v).pwr = d.pwr ∧
    (d.wri f i v).mgmt = d.mgmt ∧ (d.wri f i v).fry = d.fry := by
  simp [Dev.wri]

@[simp] theorem Dev.wr_frame (d : Dev) (f : Fld) (v : Nat) :
    (d.wr f v).cnts = d.cnts ∧ (d.wr f v).cntLatch = d.cntLatch ∧ (d.wr f v).out = d.out ∧ (d.wr f v).freeCtr = d.freeCtr ∧
    (d.wr f v).glb = d.glb ∧ (d.wr f v).xlt = d.xlt ∧ (d.wr f v).flt = d.flt ∧ (d.wr f v).fltWait = d.fltWait ∧ (d.wr f v).src = d.src ∧
    (d.wr f v).lnd = d.lnd ∧ (d.wr f v).host = d.host ∧ (d.wr f v).home = d.home ∧ (d.wr f v).swc = d.swc ∧ (d.wr f v).rte = d.rte ∧
    (d.wr f v).links = d.links ∧ (d.wr f v).eyes = d.eyes ∧ (d.wr f v).rcv = d.rcv ∧ (d.wr f v).sec = d.sec ∧ (d.wr f v).tim = d.tim ∧
    (d.wr f v).pwr = d.pwr ∧ (d.wr f v).mgmt = d.mgmt ∧ (d.wr f v).fry = d.fry := by
  simp [Dev.wr]

@[simp] theorem Dev.bump_frame (d : Dev) (f : Fld) (k : Nat) :
    (d.bump f k).cnts = d.cnts ∧ (d.bump f k).cntLatch = d.cntLatch ∧ (d.bump f k).out = d.out ∧ (d.bump f k).freeCtr = d.freeCtr ∧
    (d.bump f k).glb = d.glb ∧ (d.bump f k).xlt = d.xlt ∧ (d.bump f k).flt = d.flt ∧ (d.bump f k).fltWait = d.fltWait ∧
    (d.bump f k).src = d.src ∧ (d.bump f k).lnd = d.lnd ∧ (d.bump f k).host = d.host ∧ (d.bump f k).home = d.home ∧
    (d.bump f k).swc = d.swc ∧ (d.bump f k).rte = d.rte ∧ (d.bump f k).links = d.links ∧ (d.bump f k).eyes = d.eyes ∧
    (d.bump f k).rcv = d.rcv ∧ (d.bump f k).sec = d.sec ∧ (d.bump f k).tim = d.tim ∧ (d.bump f k).pwr = d.pwr ∧ (d.bump f k).mgmt = d.mgmt ∧
    (d.bump f k).fry = d.fry := by
  simp [Dev.bump]

@[simp] theorem Dev.emit_frame (d : Dev) (e : Emit) :
    (d.emit e).regs = d.regs ∧ (d.emit e).cnts = d.cnts ∧ (d.emit e).cntLatch = d.cntLatch ∧ (d.emit e).freeCtr = d.freeCtr ∧
    (d.emit e).glb = d.glb ∧ (d.emit e).xlt = d.xlt ∧ (d.emit e).flt = d.flt ∧ (d.emit e).fltWait = d.fltWait ∧ (d.emit e).src = d.src ∧
    (d.emit e).lnd = d.lnd ∧ (d.emit e).host = d.host ∧ (d.emit e).home = d.home ∧ (d.emit e).swc = d.swc ∧ (d.emit e).rte = d.rte ∧
    (d.emit e).links = d.links ∧ (d.emit e).eyes = d.eyes ∧ (d.emit e).rcv = d.rcv ∧ (d.emit e).sec = d.sec ∧ (d.emit e).tim = d.tim ∧
    (d.emit e).pwr = d.pwr ∧ (d.emit e).mgmt = d.mgmt ∧ (d.emit e).fry = d.fry := by
  simp [Dev.emit]

@[simp] theorem Dev.emitTo_frame (d : Dev) (n : Nat) (e : Emit) :
    (d.emitTo n e).regs = d.regs ∧ (d.emitTo n e).cnts = d.cnts ∧ (d.emitTo n e).cntLatch = d.cntLatch ∧ (d.emitTo n e).freeCtr = d.freeCtr ∧
    (d.emitTo n e).glb = d.glb ∧ (d.emitTo n e).xlt = d.xlt ∧ (d.emitTo n e).flt = d.flt ∧ (d.emitTo n e).fltWait = d.fltWait ∧
    (d.emitTo n e).src = d.src ∧ (d.emitTo n e).lnd = d.lnd ∧ (d.emitTo n e).host = d.host ∧ (d.emitTo n e).home = d.home ∧
    (d.emitTo n e).swc = d.swc ∧ (d.emitTo n e).rte = d.rte ∧ (d.emitTo n e).links = d.links ∧ (d.emitTo n e).eyes = d.eyes ∧
    (d.emitTo n e).rcv = d.rcv ∧ (d.emitTo n e).sec = d.sec ∧ (d.emitTo n e).tim = d.tim ∧ (d.emitTo n e).pwr = d.pwr ∧ (d.emitTo n e).mgmt = d.mgmt ∧
    (d.emitTo n e).fry = d.fry := by
  unfold Dev.emitTo; split <;> simp

@[simp] theorem Dev.ctrl_frame (d : Dev) (n : Nat) (m : CtrlMsg) :
    (d.ctrl n m).regs = d.regs ∧ (d.ctrl n m).cnts = d.cnts ∧ (d.ctrl n m).cntLatch = d.cntLatch ∧ (d.ctrl n m).freeCtr = d.freeCtr ∧
    (d.ctrl n m).glb = d.glb ∧ (d.ctrl n m).xlt = d.xlt ∧ (d.ctrl n m).flt = d.flt ∧ (d.ctrl n m).fltWait = d.fltWait ∧
    (d.ctrl n m).src = d.src ∧ (d.ctrl n m).lnd = d.lnd ∧ (d.ctrl n m).host = d.host ∧ (d.ctrl n m).home = d.home ∧
    (d.ctrl n m).swc = d.swc ∧ (d.ctrl n m).rte = d.rte ∧ (d.ctrl n m).links = d.links ∧ (d.ctrl n m).eyes = d.eyes ∧
    (d.ctrl n m).rcv = d.rcv ∧ (d.ctrl n m).sec = d.sec ∧ (d.ctrl n m).tim = d.tim ∧ (d.ctrl n m).pwr = d.pwr ∧ (d.ctrl n m).mgmt = d.mgmt ∧
    (d.ctrl n m).fry = d.fry := by
  simp [Dev.ctrl]

@[simp] theorem Dev.corrected_frame (d : Dev) (p : Nat) :
    (d.corrected p).cnts = d.cnts ∧ (d.corrected p).cntLatch = d.cntLatch ∧ (d.corrected p).out = d.out ∧
    (d.corrected p).freeCtr = d.freeCtr ∧ (d.corrected p).glb = d.glb ∧ (d.corrected p).xlt = d.xlt ∧ (d.corrected p).flt = d.flt ∧
    (d.corrected p).fltWait = d.fltWait ∧ (d.corrected p).src = d.src ∧ (d.corrected p).lnd = d.lnd ∧ (d.corrected p).host = d.host ∧
    (d.corrected p).home = d.home ∧ (d.corrected p).swc = d.swc ∧ (d.corrected p).rte = d.rte ∧ (d.corrected p).links = d.links ∧
    (d.corrected p).eyes = d.eyes ∧ (d.corrected p).rcv = d.rcv ∧ (d.corrected p).sec = d.sec ∧ (d.corrected p).tim = d.tim ∧
    (d.corrected p).pwr = d.pwr ∧ (d.corrected p).mgmt = d.mgmt ∧ (d.corrected p).fry = d.fry := by
  simp [Dev.corrected]

@[simp] theorem Dev.count_frame (d : Dev) (p i k : Nat) :
    (d.count p i k).regs = d.regs ∧ (d.count p i k).cntLatch = d.cntLatch ∧ (d.count p i k).out = d.out ∧
    (d.count p i k).freeCtr = d.freeCtr ∧ (d.count p i k).glb = d.glb ∧ (d.count p i k).xlt = d.xlt ∧ (d.count p i k).flt = d.flt ∧
    (d.count p i k).fltWait = d.fltWait ∧ (d.count p i k).src = d.src ∧ (d.count p i k).lnd = d.lnd ∧ (d.count p i k).host = d.host ∧
    (d.count p i k).home = d.home ∧ (d.count p i k).swc = d.swc ∧ (d.count p i k).rte = d.rte ∧ (d.count p i k).links = d.links ∧
    (d.count p i k).eyes = d.eyes ∧ (d.count p i k).rcv = d.rcv ∧ (d.count p i k).sec = d.sec ∧ (d.count p i k).tim = d.tim ∧
    (d.count p i k).pwr = d.pwr ∧ (d.count p i k).mgmt = d.mgmt ∧ (d.count p i k).fry = d.fry := by
  unfold Dev.count; split <;> simp

@[simp] theorem Dev.hostWrite_frame (d : Dev) (a : Nat) (v : List Byte) :
    (d.hostWrite a v).regs = d.regs ∧ (d.hostWrite a v).cntLatch = d.cntLatch ∧ (d.hostWrite a v).freeCtr = d.freeCtr ∧
    (d.hostWrite a v).glb = d.glb ∧ (d.hostWrite a v).xlt = d.xlt ∧ (d.hostWrite a v).flt = d.flt ∧ (d.hostWrite a v).fltWait = d.fltWait ∧
    (d.hostWrite a v).src = d.src ∧ (d.hostWrite a v).lnd = d.lnd ∧ (d.hostWrite a v).host = d.host ∧ (d.hostWrite a v).home = d.home ∧
    (d.hostWrite a v).swc = d.swc ∧ (d.hostWrite a v).rte = d.rte ∧ (d.hostWrite a v).links = d.links ∧ (d.hostWrite a v).eyes = d.eyes ∧
    (d.hostWrite a v).rcv = d.rcv ∧ (d.hostWrite a v).sec = d.sec ∧ (d.hostWrite a v).tim = d.tim ∧ (d.hostWrite a v).pwr = d.pwr ∧
    (d.hostWrite a v).mgmt = d.mgmt ∧ (d.hostWrite a v).fry = d.fry := by
  unfold Dev.hostWrite; split <;> simp

@[simp] theorem Dev.msix_frame (d : Dev) (e : Nat) :
    (d.msix e).regs = d.regs ∧ (d.msix e).cntLatch = d.cntLatch ∧ (d.msix e).freeCtr = d.freeCtr ∧ (d.msix e).glb = d.glb ∧
    (d.msix e).xlt = d.xlt ∧ (d.msix e).flt = d.flt ∧ (d.msix e).fltWait = d.fltWait ∧ (d.msix e).src = d.src ∧ (d.msix e).lnd = d.lnd ∧
    (d.msix e).host = d.host ∧ (d.msix e).home = d.home ∧ (d.msix e).swc = d.swc ∧ (d.msix e).rte = d.rte ∧ (d.msix e).links = d.links ∧
    (d.msix e).eyes = d.eyes ∧ (d.msix e).rcv = d.rcv ∧ (d.msix e).sec = d.sec ∧ (d.msix e).tim = d.tim ∧ (d.msix e).pwr = d.pwr ∧
    (d.msix e).mgmt = d.mgmt ∧ (d.msix e).fry = d.fry := by
  unfold Dev.msix; split <;> simp

@[simp] theorem Dev.ifPending_frame (d : Dev) (b : Dev) (p : Nat) :
    (d.ifPending b p).regs = d.regs ∧ (d.ifPending b p).cntLatch = d.cntLatch ∧ (d.ifPending b p).freeCtr = d.freeCtr ∧
    (d.ifPending b p).glb = d.glb ∧ (d.ifPending b p).xlt = d.xlt ∧ (d.ifPending b p).flt = d.flt ∧ (d.ifPending b p).fltWait = d.fltWait ∧
    (d.ifPending b p).src = d.src ∧ (d.ifPending b p).lnd = d.lnd ∧ (d.ifPending b p).host = d.host ∧ (d.ifPending b p).home = d.home ∧
    (d.ifPending b p).swc = d.swc ∧ (d.ifPending b p).rte = d.rte ∧ (d.ifPending b p).links = d.links ∧ (d.ifPending b p).eyes = d.eyes ∧
    (d.ifPending b p).rcv = d.rcv ∧ (d.ifPending b p).sec = d.sec ∧ (d.ifPending b p).tim = d.tim ∧ (d.ifPending b p).pwr = d.pwr ∧
    (d.ifPending b p).mgmt = d.mgmt ∧ (d.ifPending b p).fry = d.fry := by
  unfold Dev.ifPending; split <;> simp

@[simp] theorem Dev.event_frame (d : Dev) (p i : Nat) :
    (d.event p i).cntLatch = d.cntLatch ∧ (d.event p i).freeCtr = d.freeCtr ∧ (d.event p i).glb = d.glb ∧ (d.event p i).xlt = d.xlt ∧
    (d.event p i).flt = d.flt ∧ (d.event p i).fltWait = d.fltWait ∧ (d.event p i).src = d.src ∧ (d.event p i).lnd = d.lnd ∧
    (d.event p i).host = d.host ∧ (d.event p i).home = d.home ∧ (d.event p i).swc = d.swc ∧ (d.event p i).rte = d.rte ∧
    (d.event p i).links = d.links ∧ (d.event p i).eyes = d.eyes ∧ (d.event p i).rcv = d.rcv ∧ (d.event p i).sec = d.sec ∧
    (d.event p i).tim = d.tim ∧ (d.event p i).pwr = d.pwr ∧ (d.event p i).mgmt = d.mgmt ∧ (d.event p i).fry = d.fry := by
  simp [Dev.event]

@[simp] theorem Dev.errLog_frame (d : Dev) (p : Nat) :
    (d.errLog p).cntLatch = d.cntLatch ∧ (d.errLog p).freeCtr = d.freeCtr ∧ (d.errLog p).glb = d.glb ∧ (d.errLog p).xlt = d.xlt ∧
    (d.errLog p).flt = d.flt ∧ (d.errLog p).fltWait = d.fltWait ∧ (d.errLog p).src = d.src ∧ (d.errLog p).lnd = d.lnd ∧
    (d.errLog p).host = d.host ∧ (d.errLog p).home = d.home ∧ (d.errLog p).swc = d.swc ∧ (d.errLog p).rte = d.rte ∧
    (d.errLog p).links = d.links ∧ (d.errLog p).eyes = d.eyes ∧ (d.errLog p).rcv = d.rcv ∧ (d.errLog p).sec = d.sec ∧
    (d.errLog p).tim = d.tim ∧ (d.errLog p).pwr = d.pwr ∧ (d.errLog p).mgmt = d.mgmt ∧ (d.errLog p).fry = d.fry := by
  unfold Dev.errLog; dsimp only; split_ifs <;> simp

@[simp] theorem Dev.capture_frame (d : Dev) (p : Nat) (c : ECls) (status code port detail : Nat) :
    (d.capture p c status code port detail).cntLatch = d.cntLatch ∧ (d.capture p c status code port detail).freeCtr = d.freeCtr ∧
    (d.capture p c status code port detail).glb = d.glb ∧ (d.capture p c status code port detail).xlt = d.xlt ∧
    (d.capture p c status code port detail).flt = d.flt ∧ (d.capture p c status code port detail).fltWait = d.fltWait ∧
    (d.capture p c status code port detail).src = d.src ∧ (d.capture p c status code port detail).lnd = d.lnd ∧
    (d.capture p c status code port detail).host = d.host ∧ (d.capture p c status code port detail).home = d.home ∧
    (d.capture p c status code port detail).swc = d.swc ∧ (d.capture p c status code port detail).rte = d.rte ∧
    (d.capture p c status code port detail).links = d.links ∧ (d.capture p c status code port detail).eyes = d.eyes ∧
    (d.capture p c status code port detail).rcv = d.rcv ∧ (d.capture p c status code port detail).sec = d.sec ∧
    (d.capture p c status code port detail).tim = d.tim ∧ (d.capture p c status code port detail).pwr = d.pwr ∧
    (d.capture p c status code port detail).mgmt = d.mgmt ∧ (d.capture p c status code port detail).fry = d.fry := by
  unfold Dev.capture; dsimp only; split_ifs <;> simp

@[simp] theorem Dev.dropWrite_frame (d : Dev) (m : Master) (p off v code : Nat) :
    (d.dropWrite m p off v code).cntLatch = d.cntLatch ∧ (d.dropWrite m p off v code).freeCtr = d.freeCtr ∧
    (d.dropWrite m p off v code).glb = d.glb ∧ (d.dropWrite m p off v code).xlt = d.xlt ∧ (d.dropWrite m p off v code).flt = d.flt ∧
    (d.dropWrite m p off v code).fltWait = d.fltWait ∧ (d.dropWrite m p off v code).src = d.src ∧ (d.dropWrite m p off v code).lnd = d.lnd ∧
    (d.dropWrite m p off v code).host = d.host ∧ (d.dropWrite m p off v code).home = d.home ∧ (d.dropWrite m p off v code).swc = d.swc ∧
    (d.dropWrite m p off v code).rte = d.rte ∧ (d.dropWrite m p off v code).links = d.links ∧ (d.dropWrite m p off v code).eyes = d.eyes ∧
    (d.dropWrite m p off v code).rcv = d.rcv ∧ (d.dropWrite m p off v code).sec = d.sec ∧ (d.dropWrite m p off v code).tim = d.tim ∧
    (d.dropWrite m p off v code).pwr = d.pwr ∧ (d.dropWrite m p off v code).mgmt = d.mgmt ∧ (d.dropWrite m p off v code).fry = d.fry := by
  simp [Dev.dropWrite]

@[simp] theorem Dev.regAnswer_frame (d : Dev) (m : Master) (st : Nat) (b : List Byte) :
    (d.regAnswer m st b).regs = d.regs ∧ (d.regAnswer m st b).cntLatch = d.cntLatch ∧ (d.regAnswer m st b).freeCtr = d.freeCtr ∧
    (d.regAnswer m st b).glb = d.glb ∧ (d.regAnswer m st b).xlt = d.xlt ∧ (d.regAnswer m st b).flt = d.flt ∧
    (d.regAnswer m st b).fltWait = d.fltWait ∧ (d.regAnswer m st b).src = d.src ∧ (d.regAnswer m st b).lnd = d.lnd ∧
    (d.regAnswer m st b).host = d.host ∧ (d.regAnswer m st b).home = d.home ∧ (d.regAnswer m st b).swc = d.swc ∧
    (d.regAnswer m st b).rte = d.rte ∧ (d.regAnswer m st b).links = d.links ∧ (d.regAnswer m st b).eyes = d.eyes ∧
    (d.regAnswer m st b).rcv = d.rcv ∧ (d.regAnswer m st b).sec = d.sec ∧ (d.regAnswer m st b).tim = d.tim ∧
    (d.regAnswer m st b).pwr = d.pwr ∧ (d.regAnswer m st b).mgmt = d.mgmt ∧ (d.regAnswer m st b).fry = d.fry := by
  unfold Dev.regAnswer; split_ifs <;> simp

@[simp] theorem Dev.fmDropped_frame (d : Dev) :
    (d.fmDropped).cnts = d.cnts ∧ (d.fmDropped).cntLatch = d.cntLatch ∧ (d.fmDropped).out = d.out ∧ (d.fmDropped).freeCtr = d.freeCtr ∧
    (d.fmDropped).glb = d.glb ∧ (d.fmDropped).xlt = d.xlt ∧ (d.fmDropped).flt = d.flt ∧ (d.fmDropped).fltWait = d.fltWait ∧
    (d.fmDropped).src = d.src ∧ (d.fmDropped).lnd = d.lnd ∧ (d.fmDropped).host = d.host ∧ (d.fmDropped).home = d.home ∧
    (d.fmDropped).swc = d.swc ∧ (d.fmDropped).rte = d.rte ∧ (d.fmDropped).links = d.links ∧ (d.fmDropped).eyes = d.eyes ∧
    (d.fmDropped).rcv = d.rcv ∧ (d.fmDropped).sec = d.sec ∧ (d.fmDropped).tim = d.tim ∧ (d.fmDropped).pwr = d.pwr ∧
    (d.fmDropped).mgmt = d.mgmt ∧ (d.fmDropped).fry = d.fry := by
  simp [Dev.fmDropped]

@[simp] theorem Dev.fatalTime_frame (d : Dev) :
    (d.fatalTime).cnts = d.cnts ∧ (d.fatalTime).cntLatch = d.cntLatch ∧ (d.fatalTime).out = d.out ∧ (d.fatalTime).freeCtr = d.freeCtr ∧
    (d.fatalTime).glb = d.glb ∧ (d.fatalTime).xlt = d.xlt ∧ (d.fatalTime).flt = d.flt ∧ (d.fatalTime).fltWait = d.fltWait ∧
    (d.fatalTime).src = d.src ∧ (d.fatalTime).lnd = d.lnd ∧ (d.fatalTime).host = d.host ∧ (d.fatalTime).home = d.home ∧
    (d.fatalTime).swc = d.swc ∧ (d.fatalTime).rte = d.rte ∧ (d.fatalTime).links = d.links ∧ (d.fatalTime).eyes = d.eyes ∧
    (d.fatalTime).rcv = d.rcv ∧ (d.fatalTime).sec = d.sec ∧ (d.fatalTime).tim = d.tim ∧ (d.fatalTime).pwr = d.pwr ∧
    (d.fatalTime).mgmt = d.mgmt ∧ (d.fatalTime).fry = d.fry := by
  unfold Dev.fatalTime; split_ifs <;> simp

end Sys2Proof.Machine
end

