-- ==== Sys2Proof/Laws/Tbl.lean ====
section
/-!
SUPPORT. The laws of the sparse tables: a read after a write, and that every operation keeps the canonical form.
-/
namespace Sys2Proof.Machine

variable {α : Type}

@[simp] theorem tget_nil (dflt : Nat → α) (k : Nat) : tget dflt [] k = dflt k := rfl

theorem tget_terase_same (dflt : Nat → α) (t : Tbl α) (k : Nat) : tget dflt (terase t k) k = dflt k := by
  induction t with
  | nil => rfl
  | cons e t ih =>
    obtain ⟨a, v⟩ := e
    by_cases h : a = k <;> simp [terase, tget, h, ih]

theorem tget_terase_ne (dflt : Nat → α) (t : Tbl α) {j k : Nat} (h : j ≠ k) :
    tget dflt (terase t k) j = tget dflt t j := by
  induction t with
  | nil => rfl
  | cons e t ih =>
    obtain ⟨a, v⟩ := e
    by_cases ha : a = k
    · subst ha; simp [terase, tget, ih, Ne.symm h]
    · by_cases hj : a = j
      · subst hj; simp [terase, tget, ha]
      · simp [terase, tget, ha, hj, ih]

theorem tget_tput_same (dflt : Nat → α) (t : Tbl α) (k : Nat) (v : α) : tget dflt (tput t k v) k = v := by
  induction t with
  | nil => simp [tput, tget]
  | cons e t ih =>
    obtain ⟨a, w⟩ := e
    by_cases ha : a = k
    · simp [tput, tget, ha]
    · by_cases hk : k < a <;> simp [tput, tget, ha, hk, ih]

theorem tget_tput_ne (dflt : Nat → α) (t : Tbl α) {j k : Nat} (v : α) (h : j ≠ k) :
    tget dflt (tput t k v) j = tget dflt t j := by
  induction t with
  | nil => simp [tput, tget, Ne.symm h]
  | cons e t ih =>
    obtain ⟨a, w⟩ := e
    by_cases ha : a = k
    · subst ha; simp [tput, tget, Ne.symm h]
    · by_cases hk : k < a
      · simp [tput, tget, ha, hk, Ne.symm h]
      · simp [tput, tget, ha, hk, ih]

/-- A read of the key just written gives the value written. -/
theorem tget_tset_same [DecidableEq α] (dflt : Nat → α) (t : Tbl α) (k : Nat) (v : α) :
    tget dflt (tset dflt t k v) k = v := by
  unfold tset; split
  · next h => rw [tget_terase_same, h]
  · exact tget_tput_same dflt t k v

/-- A write leaves every other key alone. -/
theorem tget_tset_ne [DecidableEq α] (dflt : Nat → α) (t : Tbl α) {j k : Nat} (v : α) (h : j ≠ k) :
    tget dflt (tset dflt t k v) j = tget dflt t j := by
  unfold tset; split
  · exact tget_terase_ne dflt t h
  · exact tget_tput_ne dflt t v h

theorem tget_tset [DecidableEq α] (dflt : Nat → α) (t : Tbl α) (j k : Nat) (v : α) :
    tget dflt (tset dflt t k v) j = if j = k then v else tget dflt t j := by
  split
  · next h => rw [h, tget_tset_same]
  · next h => exact tget_tset_ne dflt t v h

@[simp] theorem nget_nset_same (t : Tbl Nat) (k v : Nat) : nget (nset t k v) k = v := tget_tset_same _ t k v

theorem nget_nset_ne (t : Tbl Nat) {j k : Nat} (v : Nat) (h : j ≠ k) : nget (nset t k v) j = nget t j :=
  tget_tset_ne _ t v h

theorem nget_nset (t : Tbl Nat) (j k v : Nat) : nget (nset t k v) j = if j = k then v else nget t j :=
  tget_tset _ t j k v

/-! ### The canonical form -/

theorem twf_cons [DecidableEq α] {dflt : Nat → α} {a : Nat} {v : α} {t : Tbl α} :
    twf dflt ((a, v) :: t) = true ↔ tabove a t = true ∧ v ≠ dflt a ∧ twf dflt t = true := by
  simp [twf, and_assoc]

theorem tabove_of_lt {j k : Nat} (h : j ≤ k) {t : Tbl α} (ht : tabove k t = true) : tabove j t = true := by
  cases t with
  | nil => rfl
  | cons e t => obtain ⟨a, v⟩ := e; simp [tabove] at *; omega

theorem tabove_tput {t : Tbl α} {j k : Nat} {v : α} (ht : tabove j t = true) (hj : j < k) :
    tabove j (tput t k v) = true := by
  cases t with
  | nil => simpa [tput, tabove] using hj
  | cons e t =>
    obtain ⟨a, w⟩ := e
    simp only [tput]
    split
    · simpa [tabove] using hj
    · split
      · simpa [tabove] using hj
      · simpa [tabove] using ht

theorem twf_tput [DecidableEq α] {dflt : Nat → α} {t : Tbl α} {k : Nat} {v : α} (h : twf dflt t = true)
    (hv : v ≠ dflt k) : twf dflt (tput t k v) = true := by
  induction t with
  | nil => simpa [tput, twf, tabove] using hv
  | cons e t ih =>
    obtain ⟨a, w⟩ := e
    rw [twf_cons] at h
    obtain ⟨h1, h2, h3⟩ := h
    simp only [tput]
    split
    · next ha => subst ha; exact twf_cons.2 ⟨h1, hv, h3⟩
    · split
      · next hk => exact twf_cons.2 ⟨by simpa [tabove] using hk, hv, twf_cons.2 ⟨h1, h2, h3⟩⟩
      · next ha hk => exact twf_cons.2 ⟨tabove_tput h1 (by omega), h2, ih h3⟩

theorem tabove_filter [DecidableEq α] {dflt : Nat → α} {t : Tbl α} {k : Nat} (p : Nat × α → Bool)
    (h : twf dflt t = true) (ha : tabove k t = true) : tabove k (t.filter p) = true := by
  induction t with
  | nil => rfl
  | cons e t ih =>
    obtain ⟨a, w⟩ := e
    rw [twf_cons] at h
    have hk : k < a := by simpa [tabove] using ha
    simp only [List.filter_cons]
    split
    · simpa [tabove] using hk
    · exact ih h.2.2 (tabove_of_lt (Nat.le_of_lt hk) h.1)

/-- Dropping entries keeps the canonical form. -/
theorem twf_filter [DecidableEq α] {dflt : Nat → α} {t : Tbl α} (p : Nat × α → Bool) (h : twf dflt t = true) :
    twf dflt (t.filter p) = true := by
  induction t with
  | nil => rfl
  | cons e t ih =>
    obtain ⟨a, w⟩ := e
    rw [twf_cons] at h
    simp only [List.filter_cons]
    split
    · exact twf_cons.2 ⟨tabove_filter p h.2.2 h.1, h.2.1, ih h.2.2⟩
    · exact ih h.2.2

theorem terase_eq_filter (t : Tbl α) (k : Nat) : terase t k = t.filter (fun e => e.1 != k) := by
  induction t with
  | nil => rfl
  | cons e t ih =>
    obtain ⟨a, v⟩ := e
    by_cases h : a = k <;> simp [terase, h, ih]

theorem twf_terase [DecidableEq α] {dflt : Nat → α} {t : Tbl α} (k : Nat) (h : twf dflt t = true) :
    twf dflt (terase t k) = true := by
  rw [terase_eq_filter]; exact twf_filter _ h

/-- A write keeps the canonical form. -/
theorem twf_tset [DecidableEq α] {dflt : Nat → α} {t : Tbl α} (k : Nat) (v : α) (h : twf dflt t = true) :
    twf dflt (tset dflt t k v) = true := by
  unfold tset; split
  · exact twf_terase k h
  · next hv => exact twf_tput h hv

theorem twf_tdrop [DecidableEq α] {dflt : Nat → α} {t : Tbl α} (p : Nat → Bool) (h : twf dflt t = true) :
    twf dflt (tdrop p t) = true := twf_filter _ h

theorem tget_tdrop (dflt : Nat → α) (p : Nat → Bool) (t : Tbl α) (k : Nat) :
    tget dflt (tdrop p t) k = if p k then dflt k else tget dflt t k := by
  unfold tdrop
  induction t with
  | nil => simp
  | cons e t ih =>
    obtain ⟨a, v⟩ := e
    simp only [List.filter_cons]
    by_cases h : a = k
    · subst h
      by_cases hp : p a = true
      · simp [hp, ih]
      · simp [hp, tget]
    · by_cases hp : p a = true
      · simp [hp, ih, tget, h]
      · simp [hp, ih, tget, h]

end Sys2Proof.Machine
end

