-- ==== Sys2Proof/Laws/Ops.lean ====
section
/-!
SUPPORT. The laws of the register table: what a word and a field read after the shared operations.
-/
namespace Sys2Proof.Machine

theorem Dev.word_lt (d : Dev) (a : Nat) : d.word a < 2 ^ 32 := (tget resetWord d.regs a).isLt

/-- A word read after a word is written. -/
theorem Dev.word_setWord (d : Dev) (a b v : Nat) : (d.setWord a v).word b = if b = a then v % 2 ^ 32 else d.word b := by
  unfold Dev.word Dev.setWord
  simp only [tget_tset]
  split <;> simp

@[simp] theorem Dev.word_setWord_same (d : Dev) (a v : Nat) : (d.setWord a v).word a = v % 2 ^ 32 := by
  simp [Dev.word_setWord]

theorem Dev.word_setWord_ne (d : Dev) {a b : Nat} (v : Nat) (h : b ≠ a) : (d.setWord a v).word b = d.word b := by
  simp [Dev.word_setWord, h]

/-- Words depend on the register table only. -/
theorem Dev.word_congr {d e : Dev} (h : d.regs = e.regs) (a : Nat) : d.word a = e.word a := by
  unfold Dev.word; rw [h]

theorem Dev.rdpi_congr {d e : Dev} (h : d.regs = e.regs) (f : Fld) (p i : Nat) : d.rdpi f p i = e.rdpi f p i := by
  unfold Dev.rdpi; rw [Dev.word_congr h]

@[simp] theorem Dev.word_emit (d : Dev) (e : Emit) (a : Nat) : (d.emit e).word a = d.word a := Dev.word_congr (by simp) a
@[simp] theorem Dev.word_ctrl (d : Dev) (n : Nat) (m : CtrlMsg) (a : Nat) : (d.ctrl n m).word a = d.word a := Dev.word_congr (by simp) a
@[simp] theorem Dev.word_count (d : Dev) (p i k a : Nat) : (d.count p i k).word a = d.word a := Dev.word_congr (by simp) a
@[simp] theorem Dev.word_msix (d : Dev) (e a : Nat) : (d.msix e).word a = d.word a := Dev.word_congr (by simp) a
@[simp] theorem Dev.word_hostWrite (d : Dev) (b : Nat) (v : List Byte) (a : Nat) : (d.hostWrite b v).word a = d.word a :=
  Dev.word_congr (by simp) a
@[simp] theorem Dev.word_ifPending (d b : Dev) (p a : Nat) : (d.ifPending b p).word a = d.word a := Dev.word_congr (by simp) a
@[simp] theorem Dev.word_regAnswer (d : Dev) (m : Master) (s : Nat) (b : List Byte) (a : Nat) :
    (d.regAnswer m s b).word a = d.word a := Dev.word_congr (by simp) a

@[simp] theorem Dev.rdpi_emit (d : Dev) (e : Emit) (f : Fld) (p i : Nat) : (d.emit e).rdpi f p i = d.rdpi f p i :=
  Dev.rdpi_congr (by simp) f p i
@[simp] theorem Dev.rdpi_ctrl (d : Dev) (n : Nat) (m : CtrlMsg) (f : Fld) (p i : Nat) : (d.ctrl n m).rdpi f p i = d.rdpi f p i :=
  Dev.rdpi_congr (by simp) f p i
@[simp] theorem Dev.rdpi_count (d : Dev) (q c k : Nat) (f : Fld) (p i : Nat) : (d.count q c k).rdpi f p i = d.rdpi f p i :=
  Dev.rdpi_congr (by simp) f p i
@[simp] theorem Dev.rdpi_msix (d : Dev) (e : Nat) (f : Fld) (p i : Nat) : (d.msix e).rdpi f p i = d.rdpi f p i :=
  Dev.rdpi_congr (by simp) f p i
@[simp] theorem Dev.rdpi_hostWrite (d : Dev) (b : Nat) (v : List Byte) (f : Fld) (p i : Nat) :
    (d.hostWrite b v).rdpi f p i = d.rdpi f p i := Dev.rdpi_congr (by simp) f p i
@[simp] theorem Dev.rdpi_regAnswer (d : Dev) (m : Master) (s : Nat) (b : List Byte) (f : Fld) (p i : Nat) :
    (d.regAnswer m s b).rdpi f p i = d.rdpi f p i := Dev.rdpi_congr (by simp) f p i

/-- A field reads back what was written, cut to its width. -/
theorem Dev.rdpi_wrpi_same (d : Dev) (f : Fld) (p i v : Nat) (h : f.lo + f.w ≤ 32) :
    (d.wrpi f p i v).rdpi f p i = v % 2 ^ f.w := by
  unfold Dev.rdpi Dev.wrpi
  rw [Dev.word_setWord_same, bits_mod _ _ _ _ h, bits_putBits_same]

/-- A field of another register, or beside the one written, is unchanged. -/
theorem Dev.rdpi_wrpi_ne (d : Dev) (f g : Fld) (p i q j v : Nat)
    (h : g.addr q j ≠ f.addr p i ∨ (g.lo + g.w ≤ 32 ∧ (g.lo + g.w ≤ f.lo ∨ f.lo + f.w ≤ g.lo))) :
    (d.wrpi f p i v).rdpi g q j = d.rdpi g q j := by
  unfold Dev.rdpi Dev.wrpi
  by_cases ha : g.addr q j = f.addr p i
  · obtain h | ⟨h1, h2⟩ := h
    · exact absurd ha h
    · rw [ha, Dev.word_setWord_same, bits_mod _ _ _ _ h1, bits_putBits_ne _ _ _ _ _ _ h2]
  · rw [Dev.word_setWord_ne _ _ ha]

theorem Dev.rdpi_setWord_ne (d : Dev) (g : Fld) (q j a v : Nat) (h : g.addr q j ≠ a) :
    (d.setWord a v).rdpi g q j = d.rdpi g q j := by
  unfold Dev.rdpi; rw [Dev.word_setWord_ne _ _ h]

theorem Dev.word_wrpi_ne (d : Dev) (f : Fld) (p i v a : Nat) (h : a ≠ f.addr p i) :
    (d.wrpi f p i v).word a = d.word a := Dev.word_setWord_ne _ _ h

/-! ### Interrupts and captures -/

/-- An event sets its BLK_ISR bit and touches no other register (R606). -/
theorem Dev.word_event (d : Dev) (p i a : Nat) :
    (d.event p i).word a = if a = p * 0x1000 + 0x14 then putBit (d.word a) i true % 2 ^ 32 else d.word a := by
  unfold Dev.event
  rw [Dev.word_ifPending, Dev.word_setWord]
  split
  · next h => rw [h]
  · rfl

theorem Dev.word_errLog (d : Dev) (p a : Nat) (h : a / 0x1000 ≠ 0xC0) : (d.errLog p).word a = d.word a := by
  have h1 : a ≠ F.ERR_RING_PROD_PROD.addr F.ERR_RING_PROD_PROD.page 0 := by
    intro e; apply h; rw [e]; decide
  have h2 : a ≠ F.ERR_RING_STAT_MISSED.addr F.ERR_RING_STAT_MISSED.page 0 := by
    intro e; apply h; rw [e]; decide
  unfold Dev.errLog; dsimp only
  split_ifs
  · rfl
  · simp [Dev.bump, Dev.wr, Dev.word_wrpi_ne _ _ _ _ _ _ h1]
  · simp [Dev.bump, Dev.wr, Dev.word_wrpi_ne _ _ _ _ _ _ h1]
  · rw [Dev.word_event, if_neg (by omega)]; exact Dev.word_wrpi_ne _ _ _ _ _ _ h2

/-- A capture touches the error registers of its page and those of the ERR page only (R487, R490). -/
theorem Dev.word_capture (d : Dev) (p : Nat) (c : ECls) (st code port det a : Nat) (h : a / 0x1000 ≠ 0xC0)
    (ha : 0x40 ≤ a % 0x1000) : (d.capture p c st code port det).word a = d.word a := by
  have e1 : ∀ q, F.BLK_ERR_CNT_ERRORS.addr q 0 = q * 4096 + F.BLK_ERR_CNT_ERRORS.off := fun q => rfl
  have e2 : ∀ q, F.BLK_ERR_CAP0_OVERFLOW.addr q 0 = q * 4096 + F.BLK_ERR_CAP0_OVERFLOW.off := fun q => rfl
  have o1 : F.BLK_ERR_CNT_ERRORS.off < 0x40 := by decide
  have o2 : F.BLK_ERR_CAP0_OVERFLOW.off < 0x40 := by decide
  unfold Dev.capture; dsimp only
  split_ifs
  · simp only [Dev.wrp]
    rw [Dev.word_wrpi_ne _ _ _ _ _ _ (by rw [e2]; omega), Dev.word_wrpi_ne _ _ _ _ _ _ (by rw [e1]; omega)]
  · rw [Dev.word_errLog _ _ _ h, Dev.word_event, if_neg (by omega)]
    simp only [Dev.wrp]
    rw [Dev.word_setWord_ne _ _ (by omega), Dev.word_setWord_ne _ _ (by omega), Dev.word_setWord_ne _ _ (by omega),
      Dev.word_setWord_ne _ _ (by omega), Dev.word_wrpi_ne _ _ _ _ _ _ (by rw [e1]; omega)]

/-! ### Counters -/

/-- A counter counts up, saturating, unless its page is frozen (R610). -/
theorem Dev.counter_count (d : Dev) (p i k q j : Nat) (hi : i < 1024) (hj : j < 1024) :
    (d.count p i k).counter q j =
      if q = p ∧ j = i ∧ d.rdp F.BLK_CTRL_CNT_FREEZE p ≠ 1 then satAdd 64 (d.counter p i) k else d.counter q j := by
  unfold Dev.count Dev.counter
  split
  · next h => rw [if_neg (by simp [h])]
  · next h =>
    simp only [nget_nset]
    by_cases e : 1024 * q + j = 1024 * p + i
    · have : q = p ∧ j = i := by omega
      rw [if_pos e, if_pos ⟨this.1, this.2, h⟩]
    · rw [if_neg e, if_neg (by omega)]

end Sys2Proof.Machine
end

