-- ==== Sys2Proof/Laws/Reg.lean ====
section
/-!
SUPPORT. The laws of register access: which pages there are, that the fields of a register do not overlap, what a write does to each
field, and a 4-byte access as one write of a word.
-/
namespace Sys2Proof.Machine

theorem page_div (p off : Nat) (h : off < 0x1000) : (p * 0x1000 + off) / 0x1000 = p := by omega
theorem page_mod (p off : Nat) (h : off < 0x1000) : (p * 0x1000 + off) % 0x1000 = off := by omega

/-- Every page of the index lies below 0x100 (R601). -/
theorem pageKind_lt {p : Nat} (h : (pageKind p).isSome = true) : p < 0x100 := by
  unfold pageKind at h
  rw [List.find?_isSome] at h
  obtain ⟨k, hk, hp⟩ := h
  have hb : pageIndex.all (fun k => decide (k.base + k.n ≤ 0x100)) = true := by decide
  have hb := List.all_eq_true.1 hb k hk
  simp only [Bool.and_eq_true, decide_eq_true_eq] at hp hb
  omega

/-! ### The fields of a register -/

/-- Fields `f` and `g` share a page offset. -/
def Fld.meets (f g : Fld) : Bool := (List.range f.count).any (fun i => g.here (f.at i))

/-- Fields that share a page offset do not share a bit. -/
def Fld.apart (f g : Fld) : Bool := !f.meets g || decide (f.lo + f.w ≤ g.lo) || decide (g.lo + g.w ≤ f.lo)

theorem fldsHDR_apart : fldsHDR.Pairwise (fun f g => f.apart g = true) := by decide +kernel

theorem fldsHDR_width : ∀ f ∈ fldsHDR, f.lo + f.w ≤ 32 := by decide +kernel

theorem pageIndex_apart : ∀ k ∈ pageIndex, k.flds.Pairwise (fun f g => f.apart g = true) := by decide +kernel

theorem pageIndex_width : ∀ k ∈ pageIndex, ∀ f ∈ k.flds, f.lo + f.w ≤ 32 := by decide +kernel

theorem Fld.meets_of_here {f g : Fld} {off : Nat} (hf : f.here off = true) (hg : g.here off = true) : f.meets g = true := by
  unfold Fld.here at hf
  unfold Fld.meets
  rw [List.any_eq_true] at hf ⊢
  obtain ⟨i, hi, h⟩ := hf
  exact ⟨i, hi, by rw [beq_iff_eq.1 h]; exact hg⟩

theorem Fld.disjoint_of_here {f g : Fld} {off : Nat} (h : f.apart g = true) (hf : f.here off = true) (hg : g.here off = true) :
    f.lo + f.w ≤ g.lo ∨ g.lo + g.w ≤ f.lo := by
  unfold Fld.apart at h
  simp [Fld.meets_of_here hf hg] at h
  exact h

/-- The fields of one register lie apart. -/
theorem fieldsAt_apart (p off : Nat) :
    (fieldsAt p off).Pairwise (fun f g => f.lo + f.w ≤ g.lo ∨ g.lo + g.w ≤ f.lo) := by
  unfold fieldsAt
  split
  · apply List.Pairwise.imp_of_mem _ (List.Pairwise.filter _ fldsHDR_apart)
    intro f g hf hg h
    exact Fld.disjoint_of_here h (List.mem_filter.1 hf).2 (List.mem_filter.1 hg).2
  · split
    · exact List.Pairwise.nil
    · next k hk =>
      apply List.Pairwise.imp_of_mem _ (List.Pairwise.filter _ (pageIndex_apart k (List.mem_of_find?_eq_some hk)))
      intro f g hf hg h
      have h1 := (List.mem_filter.1 hf).2
      have h2 := (List.mem_filter.1 hg).2
      simp only [Bool.and_eq_true] at h1 h2
      exact Fld.disjoint_of_here h h1.2 h2.2

/-- The fields of a register lie in its 32 bits. -/
theorem fieldsAt_width (p off : Nat) : ∀ f ∈ fieldsAt p off, f.lo + f.w ≤ 32 := by
  intro f hf
  unfold fieldsAt at hf
  split at hf
  · exact fldsHDR_width f (List.mem_filter.1 hf).1
  · split at hf
    · simp at hf
    · next k hk => exact pageIndex_width k (List.mem_of_find?_eq_some hk) f (List.mem_filter.1 hf).1

/-- What a write does to one field leaves every field apart from it alone. -/
theorem Dev.fieldWord_apart (d : Dev) (own : Bool) (p off v w : Nat) (f g : Fld)
    (h : g.lo + g.w ≤ f.lo ∨ f.lo + f.w ≤ g.lo) : bits (d.fieldWord own p off v w f) g.lo g.w = bits w g.lo g.w := by
  unfold Dev.fieldWord; dsimp only
  split_ifs
  · exact bits_putBits_ne _ _ _ _ _ _ h
  · exact bits_putBits_ne _ _ _ _ _ _ h
  · rfl

theorem Dev.foldl_fieldWord_apart (d : Dev) (own : Bool) (p off v : Nat) (g : Fld) (l : List Fld)
    (h : ∀ f ∈ l, g.lo + g.w ≤ f.lo ∨ f.lo + f.w ≤ g.lo) (w : Nat) :
    bits (l.foldl (fun w f => d.fieldWord own p off v w f) w) g.lo g.w = bits w g.lo g.w := by
  induction l generalizing w with
  | nil => rfl
  | cons f l ih =>
    rw [List.foldl_cons, ih (fun f hf => h f (List.mem_cons_of_mem _ hf)),
      Dev.fieldWord_apart _ _ _ _ _ _ _ _ (h f List.mem_cons_self)]

/-- What one field's rule makes of it does not depend on the rest of the word. -/
theorem Dev.fieldWord_congr (d : Dev) (own : Bool) (p off v w w' : Nat) (f : Fld) (h : bits w f.lo f.w = bits w' f.lo f.w) :
    bits (d.fieldWord own p off v w f) f.lo f.w = bits (d.fieldWord own p off v w' f) f.lo f.w := by
  unfold Dev.fieldWord; dsimp only
  split_ifs
  · rw [bits_putBits_same, bits_putBits_same, h]
  · rw [bits_putBits_same, bits_putBits_same]
  · exact h

theorem Dev.foldl_fieldWord (d : Dev) (own : Bool) (p off v : Nat) (f : Fld) (l : List Fld)
    (hl : l.Pairwise (fun f g => f.lo + f.w ≤ g.lo ∨ g.lo + g.w ≤ f.lo)) (hf : f ∈ l) (w : Nat) :
    bits (l.foldl (fun w f => d.fieldWord own p off v w f) w) f.lo f.w = bits (d.fieldWord own p off v w f) f.lo f.w := by
  induction l generalizing w with
  | nil => simp at hf
  | cons g l ih =>
    rw [List.foldl_cons]
    obtain ⟨h1, h2⟩ := List.pairwise_cons.1 hl
    by_cases e : f ∈ l
    · rw [ih h2 e]
      apply Dev.fieldWord_congr
      exact Dev.fieldWord_apart _ _ _ _ _ _ _ _ (by have := h1 f e; tauto)
    · have : f = g := by simpa [e] using hf
      subst this
      exact Dev.foldl_fieldWord_apart _ _ _ _ _ _ _ (fun g hg => h1 g hg) _

/-- A field of the new word is what its own rule makes of it (R7). -/
theorem Dev.newWord_field (d : Dev) (own : Bool) (p off v : Nat) (f : Fld) (hf : f ∈ fieldsAt p off) (h : ¬(p = 1 ∧ off = 0x114)) :
    bits (d.newWord own p off v) f.lo f.w = bits (d.fieldWord own p off v (d.word (p * 0x1000 + off)) f) f.lo f.w := by
  unfold Dev.newWord; dsimp only
  rw [if_neg h]
  exact Dev.foldl_fieldWord _ _ _ _ _ _ _ (fieldsAt_apart p off) hf _

/-! ### One access -/

@[simp] theorem tlp_regs (m : Master) (d : Dev) : (tlp m d).regs = d.regs := by unfold tlp; split <;> simp
@[simp] theorem tlp_glb (m : Master) (d : Dev) : (tlp m d).glb = d.glb := by unfold tlp; split <;> simp
@[simp] theorem tlp_out (m : Master) (d : Dev) : (tlp m d).out = d.out := by unfold tlp; split <;> simp
@[simp] theorem tlp_word (m : Master) (d : Dev) (a : Nat) : (tlp m d).word a = d.word a := Dev.word_congr (by simp) a
@[simp] theorem tlp_rdpi (m : Master) (d : Dev) (f : Fld) (p i : Nat) : (tlp m d).rdpi f p i = d.rdpi f p i :=
  Dev.rdpi_congr (by simp) f p i
@[simp] theorem tlp_pageOn (m : Master) (d : Dev) (p : Nat) : (tlp m d).pageOn p = d.pageOn p := by
  simp [Dev.pageOn, Dev.domOn, Dev.rd]
@[simp] theorem tlp_running (m : Master) (d : Dev) : (tlp m d).running = d.running := by simp [Dev.running]

/-- A 4-byte access that reaches its page is one 4-byte write. -/
theorem regOut_four (m : Master) (p off v : Nat) (s : State) (ho : off < 0x1000) (h4 : off % 4 = 0) (hp : p < 0x1000)
    (hr : s.dev.reaches m true p = true) :
    regOut m (p * 0x1000 + off) 4 v s =
      .next (withPkg s ((Pkg.write4 m (p * 0x1000 + off) v (s.store, tlp m s.dev)).2)) := by
  have ha : accessOk (p * 0x1000 + off) 4 = true := by
    unfold accessOk; simp; omega
  unfold regOut
  rw [if_neg (by omega)]
  simp only [onAll_eq, Pkg.regWrite, page_div p off ho, hr, ha]
  simp [withPkg, tlp, Pkg.dev]
  cases m <;> simp

/-- A write to a header register other than BLK_OWNER goes to the header's rules. -/
theorem write4_header (m : Master) (p off v : Nat) (x : Pkg) (hk : (pageKind p).isSome = true) (hon : x.2.pageOn p = true)
    (ho : off < 0x100) (h8 : off ≠ 8) :
    Pkg.write4 m (p * 0x1000 + off) v x = x.headerWrite m p off (v % 2 ^ 32) (x.2.mayWrite m p off) := by
  unfold Pkg.write4
  have hk' : (pageKind p).isNone = false := by simpa using hk
  have e1 := page_div p off (by omega)
  have e2 := page_mod p off (by omega)
  simp [e1, e2, hk', hon, ho, h8]

theorem write4_owner (m : Master) (p v : Nat) (x : Pkg) (hk : (pageKind p).isSome = true) (hon : x.2.pageOn p = true) :
    Pkg.write4 m (p * 0x1000 + 8) v x = ((x.2.ownerWrite m p (v % 2 ^ 32)).1, (x.1, (x.2.ownerWrite m p (v % 2 ^ 32)).2)) := by
  unfold Pkg.write4
  have hk' : (pageKind p).isNone = false := by simpa using hk
  simp [page_div p 8 (by omega), page_mod p 8 (by omega), hk', hon]

/-- A write to a register of the page's own goes to the rules of its fields. -/
theorem write4_plain (m : Master) (p off v : Nat) (x : Pkg) (hk : (pageKind p).isSome = true) (hon : x.2.pageOn p = true)
    (ho : 0x100 ≤ off) (ho2 : off < 0x1000) (hr : routeAt p off = none) (hp : ¬(p = 1 ∧ off = 0x10C)) :
    Pkg.write4 m (p * 0x1000 + off) v x = x.fieldsWrite m p off (v % 2 ^ 32) (x.2.mayWrite m p off) := by
  unfold Pkg.write4
  have hk' : (pageKind p).isNone = false := by simpa using hk
  have e1 := page_div p off ho2
  have e2 := page_mod p off ho2
  have h8 : off ≠ 8 := by omega
  have hl : ¬off < 0x100 := by omega
  simp [e1, e2, hk', hon, hl, h8, hr, hp]

end Sys2Proof.Machine
end

