-- ==== Sys2Proof/Laws/Settle.lean ====
section
/-!
SUPPORT. When the package goes on of itself and when it rests.
-/
namespace Sys2Proof.Machine

theorem dockStep_none {x : Pkg} {n : Nat} (h : x.2.portQ n = []) : x.dockStep n = none := by
  simp [Pkg.dockStep, h, takeFirst]

theorem portStep_none {x : Pkg} {p : Nat} (h : x.2.portQ p = []) : x.portStep p = none := by
  simp [Pkg.portStep, h]

theorem lndGateStep_none {x : Pkg} {n : Nat} (h : (x.2.lndOf n).gate = []) : x.lndGateStep n = none := by
  simp [Pkg.lndGateStep, h]

theorem hostGateStep_none {x : Pkg} (h : x.2.host.gate = []) : x.hostGateStep = none := by
  simp [Pkg.hostGateStep, h]

theorem noNodeStep_none {x : Pkg} (h : x.2.src.noNode = []) : x.noNodeStep = none := by
  simp [Pkg.noNodeStep, h]

theorem jobStep_none {x : Pkg} (h : ∀ j ∈ x.2.fry.jobs, x.2.jobReady j.op = false) : x.jobStep = none := by
  unfold Pkg.jobStep
  rw [List.findSome?_eq_none_iff]
  intro j hj
  simp only [h j hj]
  split <;> simp

theorem dispStep_none {x : Pkg} (h : ∀ a ∈ x.2.fry.disp, a.stage ≠ 4) : x.dispStep = none := by
  unfold Pkg.dispStep
  rw [List.findSome?_eq_none_iff]
  intro a ha
  split
  · simp [h a ha]
  · rfl

/-- A package at rest does nothing of itself. -/
theorem settleOne_quiet {x : Pkg} (h : quiet x.2) : x.settleOne = none := by
  have h1 : x.2.xferTake = none := by simp [Dev.xferTake, h.1, takeFirst]
  have h2 : (List.range 4).findSome? (fun n => x.dockStep n) = none := by
    rw [List.findSome?_eq_none_iff]
    intro n hn
    exact dockStep_none (h.2.1 n (by simp at hn; omega))
  have h3 : (List.range 5).findSome? (fun p => x.portStep p) = none := by
    rw [List.findSome?_eq_none_iff]
    intro n hn
    exact portStep_none (h.2.1 n (by simpa using hn))
  have h4 : (List.range 4).findSome? (fun n => x.lndGateStep n) = none := by
    rw [List.findSome?_eq_none_iff]
    intro n hn
    exact lndGateStep_none (h.2.2.1 n (by simpa using hn))
  unfold Pkg.settleOne
  rw [h1, h2, h3, h4, hostGateStep_none h.2.2.2.1, noNodeStep_none h.2.2.2.2.1, jobStep_none h.2.2.2.2.2.1]
  exact dispStep_none h.2.2.2.2.2.2

theorem settleFor_none {x : Pkg} (h : x.settleOne = none) (n : Nat) : Pkg.settleFor n x = x := by
  cases n with
  | zero => rfl
  | succ n => unfold Pkg.settleFor; rw [h]

theorem settle_of_none {x : Pkg} (h : x.settleOne = none) : Pkg.settle x = x := settleFor_none h _

/-- At rest `settle` changes nothing. -/
theorem settle_quiet {x : Pkg} (h : quiet x.2) : Pkg.settle x = x := settle_of_none (settleOne_quiet h)

/-- One thing to do, and then rest. -/
theorem settle_one {x y : Pkg} (h : x.settleOne = some y) (hy : quiet y.2) : Pkg.settle x = y := by
  unfold Pkg.settle settleFuel
  rw [show (2 ^ 20 : Nat) = 1048575 + 1 from rfl]
  unfold Pkg.settleFor
  rw [h]
  exact settleFor_none (settleOne_quiet hy) _

/-- What the package has to do of itself comes first. -/
theorem settleOne_port {x : Pkg} {p : Nat} (hx : x.2.fry.xfers = []) (hd : ∀ n < 4, x.dockStep n = none) (hp : p < 5)
    (hl : ∀ q < p, x.2.portQ q = []) {y : Pkg} (h : x.portStep p = some y) : x.settleOne = some y := by
  have h1 : x.2.xferTake = none := by simp [Dev.xferTake, hx, takeFirst]
  have h2 : (List.range 4).findSome? (fun n => x.dockStep n) = none := by
    rw [List.findSome?_eq_none_iff]
    intro n hn
    exact hd n (by simpa using hn)
  unfold Pkg.settleOne
  rw [h1, h2]
  have e : List.range 5 = [0, 1, 2, 3, 4] := by decide
  simp only [e, List.findSome?_cons, List.findSome?_nil]
  have z : ∀ q < p, x.portStep q = none := fun q hq => portStep_none (hl q hq)
  interval_cases p <;> simp_all

end Sys2Proof.Machine
end

