-- ==== Sys2Proof/Tests/Slice0.lean ====
section
/-!
SUPPORT. Tests: ill-formed commands that the check refuses, figures the spec works out (each test names its rule), single steps, and
states that meet the hypotheses the statements share. The kernel evaluates them one after the other.
-/

open Sys2Proof Sys2Proof.Machine

set_option Elab.async false

namespace Sys2Proof.Tests

/-! ### Ill-formed commands are refused, one for each check of WellFormed -/

/-- A header, an operand slot and a landing request that are well-formed. -/
def hdr0 : Hdr := {}
def opd0 : Opd := {}
def lreq0 : LReq := { n := 1, tag := 5, o := { addr := 0x7F0000000040, ctx := 0x2A, lengthM1 := 63 }, data := [] }

theorem test_wf_load : (Instr.load lreq0).wf = true := by decide
theorem test_wf_reset : Instr.resetNAssert.wf = true := by decide
theorem test_ill_addr : Opd.wf { opd0 with addr := 2 ^ 57 } = false := by decide
theorem test_ill_ctx : Opd.wf { opd0 with ctx := 256 } = false := by decide
theorem test_ill_length : Opd.wf { opd0 with lengthM1 := 65536 } = false := by decide
theorem test_ill_aop : Opd.wf { opd0 with aop := 16 } = false := by decide
theorem test_ill_order : Opd.wf { opd0 with order := 4 } = false := by decide
theorem test_ill_format_word : Opd.wf { opd0 with mfmt := 256 } = false ∧ Opd.wf { opd0 with cfmt := 256 } = false := by decide
theorem test_ill_dest : Hdr.wf { hdr0 with dest := 4096 } = false := by decide
theorem test_ill_source : Hdr.wf { hdr0 with srcNode := 4096 } = false ∧ Hdr.wf { hdr0 with srcEngine := 64 } = false := by decide
theorem test_ill_class : Hdr.wf { hdr0 with cls := 4 } = false ∧ Hdr.wf { hdr0 with channel := 4 } = false := by decide
theorem test_ill_slots : Hdr.wf { hdr0 with len := 0 } = false ∧ Hdr.wf { hdr0 with len := 18 } = false := by decide
theorem test_ill_marks : Hdr.wf { hdr0 with bounces := 4 } = false ∧ Hdr.wf { hdr0 with cmark := 4 } = false ∧
    Hdr.wf { hdr0 with echo := 4 } = false := by decide
theorem test_ill_ticket : Hdr.wf { hdr0 with ticket := 16 } = false ∧ Hdr.wf { hdr0 with dstPort := 64 } = false := by decide
theorem test_ill_opcode : Hdr.wf { hdr0 with opcode := 256 } = false ∧ Hdr.wf { hdr0 with status := 16 } = false := by decide
theorem test_ill_numbers : Hdr.wf { hdr0 with manifest := 65536 } = false ∧ Hdr.wf { hdr0 with after := 65536 } = false ∧
    Hdr.wf { hdr0 with tag := 4096 } = false ∧ Hdr.wf { hdr0 with reqLanding := 512 } = false := by decide
theorem test_ill_request_data : Req.wf ⟨hdr0, opd0, List.replicate 257 0, [], false⟩ = false ∧ Req.wf ⟨hdr0, opd0, [0], [1], false⟩ = false := by
  decide +kernel
theorem test_ill_payload : Frame.wf ⟨{ hdr0 with len := 2 }, []⟩ = false := by decide
theorem test_ill_landing_request : LReq.wf { lreq0 with tag := 4096 } = false ∧ LReq.wf { lreq0 with data := List.replicate 257 0 } = false := by
  decide +kernel
theorem test_ill_answer : Ans.wf ⟨64, 0, 0, 0, []⟩ = false ∧ Ans.wf ⟨0, 4096, 0, 0, []⟩ = false ∧ Ans.wf ⟨0, 0, 16, 0, []⟩ = false ∧
    Ans.wf ⟨0, 0, 0, 4, []⟩ = false := by decide
theorem test_ill_bitmaps : Bitmaps.wf ⟨2 ^ 512, 0, 0, 0⟩ = false ∧ Bitmaps.wf ⟨0, 2 ^ 512, 0, 0⟩ = false ∧
    Bitmaps.wf ⟨0, 0, 2 ^ 512, 0⟩ = false ∧ Bitmaps.wf ⟨0, 0, 0, 2 ^ 512⟩ = false := by decide +kernel
theorem test_ill_extent : ExtArgs.wf { index := 8192 } = false ∧ ExtArgs.wf { index := 0, region := 2 ^ 20 } = false := by decide
theorem test_ill_region : RegionArgs.wf { index := 8192 } = false ∧ RegionArgs.wf { index := 0, cls := 2 } = false ∧
    RegionArgs.wf { index := 0, pages := 2 ^ 24 } = false ∧ RegionArgs.wf { index := 0, ptBase := 2 ^ 52 } = false ∧
    RegionArgs.wf { index := 0, publish := 2 ^ 512 } = false := by decide +kernel
theorem test_ill_generation : NodeGen.wf ⟨128, 0⟩ = false ∧ NodeGen.wf ⟨0, 2 ^ 32⟩ = false := by decide
theorem test_ill_invalidation : InvArgs.wf { kind := 0 } = false ∧ InvArgs.wf { kind := 5 } = false ∧
    InvArgs.wf { kind := 1, region := 2 ^ 20 } = false ∧ InvArgs.wf { kind := 1, first := 2 ^ 23 } = false ∧
    InvArgs.wf { kind := 1, count := 2 ^ 24 } = false ∧ InvArgs.wf { kind := 3, ctx := 256 } = false := by decide
theorem test_ill_message_source : (Instr.extGrant (.msg 4096 { index := 0 })).wf = false := by decide
theorem test_ill_register_address : (Instr.registerWrite .host (2 ^ 24) 4 0).wf = false := by decide
theorem test_ill_page : (Instr.softReset .mgmt 4096 0).wf = false := by decide

/-! ### Addresses (R55, R56, R59; the worked translation of "Global Pool Addresses, Extents and Regions") -/

theorem test_gpa_node : gpaNode 0x2C01F38B67890 = 22 := by decide
theorem test_gpa_bulk_extent : gpaExt 0x2C01F38B67890 = 499 ∧ gpaOff 0x2C01F38B67890 = 0x8B67890 := by decide +kernel
theorem test_descriptor_gpa : gpaNode 0x1B00000100180 = 13 := by decide

/-! ### Formats (R231–R246, R253; the worked figures of "Number Formats and Arithmetic Rules") -/

/-- FP8 E5M2 and E4M3 under RNE without saturation. -/
def e5m2 : FmtWord := ⟨3, false, false, false⟩
def e4m3 : FmtWord := ⟨4, false, false, false⟩

/-- R241: 61,440 into E5M2 overflows to infinity, 61,439 rounds to 57,344. -/
theorem test_e5m2_overflow : (convertTo e5m2 0 (.fin false 61440 0)).evs = [.infProduced] := by decide +kernel
theorem test_e5m2_largest : (convertTo e5m2 0 (.fin false 61439 0)).code = 0x7B := by decide +kernel
/-- R244: 464 into E4M3 rounds to 448, 464.5 overflows. -/
theorem test_e4m3_tie : (convertTo e4m3 0 (.fin false 464 0)).code = 0x7E := by decide +kernel
theorem test_e4m3_overflow : (convertTo e4m3 0 (.fin false 929 (-1))).code = 0x7F ∧
    (convertTo e4m3 0 (.fin false 929 (-1))).evs = [.nanProduced] := by decide +kernel
/-- R240: the worked block of 1,000, −3.1 and 0.01, the last two as 31 ÷ 10 and 1 ÷ 100 cut to 2⁻⁴⁰. -/
theorem test_mx_block : (mxEncode { e4m3 with mx := true } 0
    [.fin false 1000 0, .fin true (31 * 2 ^ 40 / 10) (-40), .fin false (2 ^ 40 / 100) (-40)]).scale = 0x80 ∧
    (mxEncode { e4m3 with mx := true } 0
      [.fin false 1000 0, .fin true (31 * 2 ^ 40 / 10) (-40), .fin false (2 ^ 40 / 100) (-40)]).elems = [0x7E, 0xBC, 0x03] := by decide +kernel
/-- R253: the worked reduce-write of E4M3 into BF16. -/
theorem test_reduce_write : (reduceElem ⟨1, false, false, false⟩ 4 0 0x3FC0 0x5C).code = 0x41CC ∧
    (reduceElem ⟨1, false, false, false⟩ 4 0 0x4380 0x3C).code = 0x4381 := by decide +kernel
/-- R250: INT32 saturates. -/
theorem test_int32_saturates : int32Add 0x7FFFFFFF 1 = (0x7FFFFFFF, [.intSat]) := by decide
/-- R148: signed MIN against unsigned MIN of −1 and 1, and CAS that fails. -/
theorem test_atomic_min : atomicNew 6 32 0xFFFFFFFF 1 0 = 0xFFFFFFFF ∧ atomicNew 8 32 0xFFFFFFFF 1 0 = 1 := by decide
theorem test_atomic_cas : atomicNew 1 32 7 8 9 = 7 ∧ atomicNew 1 32 7 7 9 = 9 := by decide
theorem test_atomic_add_wraps : atomicNew 2 64 (2 ^ 64 - 1) 1 0 = 0 := by decide

/-! ### Tide time (R544; the worked exchange of "Tide Time") -/

/-- The captures of the worked exchange in 1/256 ns. -/
def exchange : SyncReply := { t1 := 256000000, t2 := 256034176, t3 := 256051200, t4 := 256083968, replayed := false }

theorem test_offset : syncOffset exchange 0x0080 = 0x280 := by decide +kernel
theorem test_delay : syncDelay exchange = 0x82C0 := by decide +kernel

/-! ### Power (R569, R571) -/

theorem test_setpoint_edges : capSetpoint 800 = 0 ∧ capSetpoint 799 = 1 ∧ capSetpoint 640 = 1 ∧ capSetpoint 500 = 2 ∧ capSetpoint 499 = 3 := by
  decide

/-! ### The queue and the step -/

/-- The state that an outcome answers, the reset state where it answers none. -/
def after (o : Host.Outcome State Fault Refusal) : State :=
  match o with
  | .next s => s
  | _ => State.reset

theorem test_step_front : step { State.reset with pending := [.mgmtHeartbeat, .mirrorSend] } =
    exec .mgmtHeartbeat { State.reset with pending := [.mirrorSend] } := rfl
/-- R540, R595: 40 ns in 1/256 ns. -/
theorem test_tick : (after (step State.reset)).dev.tim.tide = 10240 := by decide +kernel
theorem test_no_word : decodeTableWord 8 0 = none := by decide
theorem test_outside_bar0 : exec (.regRead (2 ^ 24)) State.reset = .fault (.outsideBar0 (2 ^ 24)) := by rfl

/-- R586: the stages follow one another as their work ends. -/
theorem test_repair_done : (after (exec (.bootStageComplete .done) State.reset)).dev.rd F.GLB_BOOT_STAT_STAGE = 1 := by decide +kernel
/-- R588: a stage that fails leaves STAGE at FAILED and the core held. -/
theorem test_repair_failed : (after (exec (.bootStageComplete (.repairFailed 0 0)) State.reset)).dev.rd F.GLB_BOOT_STAT_STAGE = 7 ∧
    (after (exec (.bootStageComplete (.repairFailed 0 0)) State.reset)).dev.running = false := by decide +kernel
/-- R583: RESET_N low turns the package off. -/
theorem test_reset_n : (after (exec .resetNAssert State.reset)).dev.running = false := by decide +kernel

/-! ### Witnesses: states that meet the hypotheses of the statements -/

/-- Node 22 at (6, 2) of an 8 × 16 domain: every domain on, boot at READY, SERVING a tenant with ticket 5. -/
def serving : Dev :=
  let d := (((((State.reset.dev.wr F.PWR_DOM_STAT_ON (2 ^ 30 - 1)).wr F.GLB_BOOT_STAT_STAGE 4).wr F.RCV_SLIPWAY_STAGE 4).wr F.SEC_TENANT_STATE 1).wr
    F.SEC_TENANT_TICKET 5).wrp F.LNDL_STAT_STATE 0x11 5
  { d with glb := { d.glb with join := some ⟨8, 16, 6, 2, 22⟩ } }

def served : State := { State.reset with dev := serving }

theorem witness_running : serving.running = true ∧ serving.domOn 11 = true ∧ serving.tenantOpen = true := by decide +kernel
theorem witness_pageOpen : pageOpen serving .host 0x28 ∧ pageOpen serving .mgmt 0x60 := by decide +kernel
theorem witness_quiet : quiet serving := by unfold quiet; decide +kernel
theorem witness_shaped : shaped serving := by unfold shaped; decide +kernel
theorem witness_lndUp : lndUp lreq0 served := ⟨by decide +kernel, by decide +kernel, by decide +kernel, witness_quiet, witness_shaped⟩
theorem witness_lndReady : lndReady lreq0 served :=
  ⟨witness_lndUp, by decide +kernel, by decide +kernel, by decide +kernel, by decide +kernel⟩
theorem witness_hostUp : hostUp served :=
  ⟨by decide +kernel, by decide +kernel, by decide +kernel, by decide +kernel, by decide +kernel, witness_quiet, witness_shaped⟩

/-- A translation of the page that `lreq0` touches, bound to landing 1. -/
def entry0 : TEntry := { ctx := 0x2A, page := 0x3F80000, gpaPage := 0, perm := 3, seg := 0, region := 0, rpage := 0, landing := 1 }

def mappedState : State := { served with dev := { serving with xlt := { serving.xlt with
  ltb := [[], [entry0], [], []] } } }

theorem witness_mapped : mapped lreq0 entry0 mappedState := by unfold mapped; decide +kernel

/-- The package with its bulk extent 499 granted to landing 37 (the worked translation). -/
def home22 : Dev :=
  { serving with
    home := { serving.home with ext := [(499, { state := 1, region := 0x1A003, bm := ⟨2 ^ 37, 2 ^ 37, 2 ^ 37, 2 ^ 37⟩ })] }
    sec := { serving.sec with active := some 1 } }

def grantedState : State := { served with dev := home22 }

/-- The load of the worked translation as it stands at its home, cut to its line. -/
def readReq : Req :=
  { hdr := { dest := 22, srcNode := 9, srcEngine := 1, ticket := 5, reqLanding := 37 }
    opd := { addr := 0x2C01F38B67880, lengthM1 := 63 }, data := [] }

theorem witness_homeUp : homeUp grantedState := by unfold homeUp; decide +kernel
theorem witness_atHome : atHome readReq 64 grantedState := by unfold atHome; decide +kernel
theorem witness_granted : granted readReq .read grantedState := by unfold granted; decide +kernel
theorem witness_nextOfPair : nextOfPair readReq grantedState := by unfold nextOfPair; decide +kernel

/-- R67: without the landing's bit in the READ bitmap the request is not admitted. -/
theorem test_ungranted : ¬ granted { readReq with hdr := { readReq.hdr with reqLanding := 38 } } .read grantedState := by
  unfold granted; decide +kernel
theorem test_stale_ticket : ¬ granted { readReq with hdr := { readReq.hdr with ticket := 6 } } .read grantedState := by
  unfold granted; decide +kernel

/-- Window 0 of the host port enabled at landing virtual address 0 for context 16, the first of the host, and landing 0's translation. -/
def hostEntry : TEntry := { ctx := 16, page := 0, gpaPage := 0, perm := 3, seg := 0, region := 0, rpage := 0, landing := 0 }

def hostState : State := { served with dev :=
  { (((serving.wri F.PCIE_WIN_CFG_ENABLE 0 1).wri F.PCIE_WIN_CFG_CONTEXT 0 16).wrp F.LND_CFG_HOST_FIRST 0x10 16) with
    xlt := { serving.xlt with ltb := [[hostEntry], [], [], []] } } }

theorem witness_winMapped : winMapped 0 8 hostEntry hostState := by unfold winMapped; decide +kernel

/-! ### Registers, the switch -/

/-- HOME_CMD_ARG0 is a plain register, which the management core owns after reset. -/
theorem witness_plainRegister : plainRegister serving 0x28 0x100 := by decide +kernel
theorem witness_fieldsTaken : fieldsTaken serving .mgmt 0x28 0x100 0 := by decide +kernel
theorem witness_mirrorsOff : mirrorsOff serving := by unfold mirrorsOff; decide +kernel
/-- R508: the host, which does not own the page after reset, is captured NOT_OWNER. -/
theorem test_not_owner : (after (exec (.registerWrite .host (0x28 * 0x1000 + 0x100) 4 1) served)).dev.rdp F.BLK_ERR_CAP0_CODE 0x28 = 1 := by
  decide +kernel

/-! ### Arrays and collectives -/

/-- A program of two instructions, IDX and END (R267, R268), and the operation whose job runs it. -/
def image0 : List Byte := natLE 2 2 ++ List.replicate 62 0 ++ natLE 8 (opIdx * 2 ^ 58) ++ natLE 8 (opEnd * 2 ^ 58)

def job0 : FOp :=
  { id := 1, desc := List.replicate 384 0, kind := 2, ctx := 0, ticket := 5, landing := some 1, subRing := 0, cmpRing := 0, state := .running
    scored := true, acceptAt := 0, seq := 0 }

def slice0 : ArrSlice := { op := 1, num := 0, store := 0, tiles := [0], k0 := 0, k1 := 64, kpos := 0, started := true }

def arrDev : Dev :=
  { serving with fry := { serving.fry with
      ops := [job0]
      arrs := { progs := [some ⟨0, 0, image0, 0, false⟩, none, none, none], slice := some slice0 } :: List.replicate 15 {} } }

def arrState : State := { served with dev := arrDev }

theorem witness_arrRuns : arrRuns 0 opIdx ⟨slice0, job0, image0, progIns image0 0⟩ arrState := by
  unfold arrRuns shaped; decide +kernel

/-- R269: after IDX the program counter stands at END, and index register (1, 3) holds its column. -/
theorem test_idx_next : (((after (exec (.arrIdx 0) arrState)).dev.arr 0).slice.map (·.pc)) = some 1 ∧
    nth ((after (exec (.arrIdx 0) arrState)).dev.arr 0).index 67 0 = 3 := by decide +kernel

/-- A collective of two ranks that runs, alone in its package. -/
def coll0 : Coll := { op := 1, running := true, progressAt := 0, window := 10000 }

def collState : State := { served with dev := { serving with fry := { serving.fry with ops := [{ job0 with kind := 3 }], colls := [coll0] } } }

theorem witness_collRuns : collRuns 1 { job0 with kind := 3 } coll0 collState := by unfold collRuns quiet; decide +kernel

/-! ### Witnesses, statement by statement -/

/-- The package 20 ms after its count started. -/
def later : Dev := { serving with tim := { serving.tim with tide := us 20000 } }

/-- A page header: the XLT page is quiesced, its soft reset due. -/
def quiesced : Dev := ((serving.wrp F.BLK_CTRL_ENABLE 0x20 0).wrp F.BLK_CTRL_QUIESCE 0x20 1).wrp F.BLK_STAT_QUIESCED 0x20 1

theorem witness_header : serving.owns .mgmt 0x28 = true ∧ serving.owns .host 0x28 = false ∧ serving.rdp F.BLK_OWNER_OWNER 0x28 ≠ 3 ∧
    quiesced.softOk 0x20 = true ∧ quiesced.workInHand 0x20 = false ∧ 0 < pageCounters 0x28 ∧ pageKind 0x300 = none := by decide +kernel
theorem witness_paceWindow : later.glb.paceAt < later.ns / 1000 ∧ nget later.glb.domAt (pageDomain 0x28) ≤ us (later.ns / 1000 - 1) := by
  decide +kernel
theorem witness_reserved : fieldsReserved serving .mgmt 0x28 0x114 0 := by decide +kernel
theorem witness_fabricManager : serving.fmAllowed 22 = true ∧ serving.fmAllowed 9 = false ∧ serving.hasNode 9 = true := by decide +kernel

/-- A message of 48 bytes to node 9 stands in the send queue of the fabric manager. -/
def fmDev : Dev := { serving.wr F.MGMT_FM_CFG_FM_EN 1 with mgmt := { sendQ := [natLE 2 9 ++ List.replicate 46 0] } }

theorem witness_fabricManagerQueue : pageOpen fmDev .host 4 ∧ fmDev.rd F.MGMT_FM_CFG_FM_EN = 1 ∧
    (∀ b ∈ fmDev.mgmt.sendQ, leNat ((fmDev.stamped b).take 2) % 4096 ≠ fmDev.node ∧ fmDev.hasNode (leNat ((fmDev.stamped b).take 2) % 4096) = true) := by
  decide +kernel

/-- VDD_CORE below 0.55 V for 20 ms. -/
def lowRail : Dev := { later with glb := { later.glb with vddMv := 540, uvSince := some 0 } }

theorem witness_coreVoltage : lowRail.glb.off = false ∧ lowRail.glb.uvSince = some 0 ∧ 0 + us 1 ≤ lowRail.tim.tide ∧ lowRail.glb.hold ≠ .coreUv := by
  decide +kernel
theorem witness_cap : later.awake = true ∧ later.braked = false ∧ later.pwr.narrowed = false ∧ later.pwr.thermal = false ∧
    later.pwr.pendingOrder = false ∧ 950 ≤ later.capInForce ∧ later.pwr.windowAt < later.ns / (later.rd F.PWR_CFG_AVG_100US * 100000) := by
  decide +kernel
theorem witness_hot : ({ later.pwr with hot := 1 } : Pwr).hot = 1 ∧ later.glb.thermtrip = false := by decide +kernel

/-- The analysis domain is on with nothing that asks for it; a near group is on and no longer asked for. -/
def offDue : Dev := later.wr F.PWR_DOM_REQ_REQ 0

theorem witness_domainOff : offDue.domOn 29 = true ∧ offDue.domCond 29 = false ∧ (domainPages 29).any offDue.workInHand = false ∧
    offDue.domOn 21 = true ∧ offDue.domCond 21 = false ∧ (domainPages 21).any offDue.workInHand = false ∧ offDue.spillFits 21 = true := by
  decide +kernel
theorem witness_domainOn : (later.wr F.PWR_DOM_STAT_ON 0).domCond 26 = true ∧ (later.wr F.PWR_DOM_STAT_ON 0).awake = true := by decide +kernel

/-- Entry into MOORED at step E1, and the package in MOORED. -/
def mooring : Dev := { later.wr F.PWR_STAT_STATE 2 with pwr := { later.pwr with step := .e1, stepAt := us 15000, armed := 1 } }
def moored : Dev := (({ mooring with pwr := { mooring.pwr with step := .e5 } }.wr F.PWR_STAT_STATE 3).wr F.PWR_WAKE_EN_LANE 1).wr F.PWR_WAKE_EN_PCIE 1

theorem witness_mooring : mooring.running = true ∧ mooring.pwrState = 2 ∧ mooring.pwr.abort = false ∧ mooring.drained = true ∧
    mooring.tim.tide < mooring.pwr.stepAt + us 10000 ∧ mooring.voqsEmpty = true := by decide +kernel
theorem witness_moored : moored.glb.off = false ∧ moored.pwrState = 3 ∧ bit moored.pwr.armed 0 = true ∧ moored.pwr.wakeOpen = true := by
  decide +kernel

/-- In LOCKED below port 0, which carries frames, with an exchange open. -/
def locked : Dev :=
  let d := (((later.wr F.TIME_STAT_STATE 2).wr F.TIME_CFG_UP_EN 1).wrp F.PRT_STAT_STATE 0x80 5).wrp F.PRT_PARTNER_NODE 0x80 9
  { d with tim := { d.tim with exchange := [7] } }

theorem witness_timeExchange : locked.timeState = 2 ∧ locked.portCarries locked.upstream = true ∧ locked.tim.nextSync ≤ locked.tim.tide ∧
    locked.hasNode (locked.rdp F.PRT_PARTNER_NODE (0x80 + locked.upstream)) = true ∧ (7 ∈ locked.tim.exchange) ∧
    7 + us (32 * locked.rd F.TIME_CFG_SYNC_INTERVAL) ≤ locked.tim.tide := by decide +kernel
theorem witness_timeCommands : pageOpen later .mgmt 2 ∧ later.owns .mgmt 2 = true ∧ later.timeState = 0 ∧
    (later.wr F.TIME_SET_LO_NS_LO 0xFFFFFFFF).tim.tide < (later.wr F.TIME_SET_LO_NS_LO 0xFFFFFFFF).timeSetValue := by decide +kernel
/-- The root with the pulse input on, the last pulse at the start of the count. -/
def root : Dev := { (later.wr F.TIME_STAT_STATE 4).wr F.TIME_CFG_PPS_IN_EN 1 with tim := { later.tim with tide := us 1600000, ppsLast := some 0 } }

theorem witness_pulses : root.timeState = 4 ∧ root.rd F.TIME_CFG_PPS_IN_EN = 1 ∧ 0 + us 1500000 ≤ root.tim.tide ∧
    root.tim.lastPpsOut < root.ns / 1000000000 ∧ 1 < root.rd F.GLB_BOOT_STAT_STAGE ∧ root.tim.lastBeat < root.ns / 1000000 := by decide +kernel

/-- Booted, before its join, with the values of node 22 staged. -/
def unjoined : Dev := ((((State.reset.dev.wr F.GLB_BOOT_STAT_STAGE 4).wr F.GLB_JOIN_XCODE 2).wr F.GLB_JOIN_Y 16).wr F.GLB_JOIN_X_POS 6).wr
  F.GLB_JOIN_Y_POS 2 |>.wr F.GLB_JOIN_NODE 22

theorem witness_join : unjoined.glb.join = none ∧ unjoined.stage = 0 ∧ unjoined.booted = true ∧ unjoined.joinOk unjoined.joinVals = true ∧
    ∀ p < 24, unjoined.linkState p ≠ 5 := by decide +kernel
/-- The host port takes configuration requests; its window of BAR0 answers reads. -/
theorem witness_config : serving.rd F.GLB_PIN_STAT_PERST = 0 ∧ serving.pageOn 0x18 = true ∧ serving.barOpen = true ∧ plainRegister serving 0x28 0x100 ∧
    counterAt 0x28 0x100 = none := by decide +kernel
theorem witness_paced : later.paced = true := by decide +kernel
theorem witness_reset : State.reset.dev.glb.hold ≠ .eoff ∧ State.reset.dev.running = true ∧ State.reset.dev.rd F.GLB_PIN_STAT_PERST = 0 := by
  decide +kernel

/-- A load that breaks the size rules, and one whose context no entry names. -/
theorem witness_landingRefused : sizeBroken 1 { lreq0.o with lengthM1 := 255 } ≠ none ∧ (served.dev.lndOf 1).tags.contains 5 = false ∧
    Pkg.ctxEntry (served.store, served.dev) 0x2A ≠ { valid := true, landing := 1, ring := 0, thresh := 0, timer := 0, segs := [] } := by decide +kernel

/-- Context 0x2A serves landing 1, by the context cache. -/
def ctxState : State := { served with dev := { serving with xlt := { serving.xlt with
  ctxCache := [(0x2A, { valid := true, landing := 1, ring := 0, thresh := 0, timer := 0, segs := [] })] } } }

theorem witness_lndServed : lndReady lreq0 ctxState ∧ Sys2Proof.served lreq0 ctxState := by decide +kernel

/-- The frame that brings request `q` of opcode `op` to its landing (R462, R463), and `s` with it in the receive crossing of that landing's
link, with the slots of its receive space still to be returned. -/
def reqFrame (op : Nat) (q : LReq) : Frame := ⟨{ len := 2, opcode := op, tag := q.tag }, natLE 16 (opdBits q.o) ++ q.data⟩
def bringing (op : Nat) (q : LReq) (s : State) : State :=
  { s with dev := s.dev.setLink (24 + q.n.val) { s.dev.link (24 + q.n.val) with rx := [reqFrame op q] } }

/-- A request of landing 1 that names region 5 of node `node`, and 8 bytes of data. -/
def regionReq (node : Nat) : LReq :=
  { n := 1, tag := 5, o := { addr := 3 * 2 ^ 20 + node * 2 ^ 13 + 5, ctx := 0x2A, lengthM1 := 7 }, data := List.replicate 8 1 }

/-- The statements of the operations that name no address, one opcode after the other, each with its frame at the head of the crossing. -/
theorem witness_landingOperations : ∀ op ∈ [(0x0B : Nat), 0x0C, 0x0D, 0x0E, 0x0F, 0x10, 0x11],
    offered op (regionReq 9) (bringing op (regionReq 9) ctxState) := by decide +kernel
theorem witness_landingServed : lndReady (regionReq 9) (bringing 0x0B (regionReq 9) ctxState) ∧
    Sys2Proof.served (regionReq 9) (bringing 0x0B (regionReq 9) ctxState) := by decide +kernel
theorem witness_landingArguments : ctxState.dev.hasNode (bits (regionReq 9).o.addr 13 7) = true ∧ opdLen (regionReq 9).o = 8 ∧
    sizeBroken 0x10 { (regionReq 9).o with addr := 0x48 } = none ∧ (ctxState.dev.lndOf 1).wc = [] ∧ ctxState.dev.liveAccs = [] := by decide +kernel
/-- The same with RELEASE and ACQUIRE order. -/
theorem witness_landingOrders : ({ (regionReq 9).o with order := 1 } : Opd).order % 2 = 1 ∧
    offered 0x0C { regionReq 9 with o := { (regionReq 9).o with order := 1 } }
      (bringing 0x0C { regionReq 9 with o := { (regionReq 9).o with order := 1 } } ctxState) := by decide +kernel
/-- A smaller domain, in which node 100 does not exist. -/
def smallState : State := { ctxState with dev := { ctxState.dev with glb := { ctxState.dev.glb with join := some ⟨8, 8, 6, 2, 22⟩ } } }

theorem witness_regionAway : lndReady (regionReq 100) (bringing 0x0C (regionReq 100) smallState) ∧
    Sys2Proof.served (regionReq 100) (bringing 0x0C (regionReq 100) smallState) ∧ smallState.dev.hasNode 100 = false ∧
    offered 0x0C (regionReq 100) (bringing 0x0C (regionReq 100) smallState) := by decide +kernel
/-- A landing that its page holds quiesced takes no request. -/
theorem witness_landingHeld : ({ serving.wrp F.BLK_CTRL_QUIESCE 0x11 1 with lnd := serving.lnd } : Dev).lndOpen 1 = false ∧
    opDataLen 2 (regionReq 9).o ≤ 240 := by decide +kernel
/-- The slots of a frame that has left the crossing are owed to the partner. -/
theorem test_landing_slots : ((after (exec (.streamEnd (regionReq 9)) (bringing 0x0E (regionReq 9) ctxState))).dev.link 25).owed = [(0, 2)] ∧
    ((after (exec (.streamEnd (regionReq 9)) (bringing 0x0E (regionReq 9) ctxState))).dev.link 25).rx = [] := by decide +kernel

/-- A domain fence of landing 1 that covers nothing more, and a combining block open for 20 ms. -/
def fence0 : Fence := ⟨1, [], none, some 0x2A, true, 16, .lndFence 1 5, []⟩
def block0 : WcBlock := ⟨0x7F00000, [(0, 1)], 0, 5, [(5, 0x2A, 1)]⟩

theorem witness_fence : ({ later with src := { later.src with fences := [fence0] } } : Dev).fenceClear fence0 = true ∧
    block0.openedAt + nsT 50 ≤ later.tim.tide := by decide +kernel

/-- A BULK_WRITE of 256 bytes at the head of landing 1's queue, its page at this node. -/
def bulk0 : PortReq := { id := 1, op := 6, tag := 5, o := { addr := 0x7F0000000000, ctx := 0x2A, lengthM1 := 255 }, data := [], ticket := 5
                         xl := [some (.hit 0x58000000 1)] }
def bulkDev : Dev :=
  { serving with lnd := [{}, { inQ := [bulk0], tags := [5] }, {}, {}] }.setLink 25
    { serving.link 25 with rx := [⟨{ len := 17, opcode := 0x07, tag := 5 }, List.replicate 256 7⟩] }

theorem witness_dataFrame : (bulkDev.lndCross 1 (dataIn 5 (List.replicate 256 7))).isSome = true ∧ bulkDev.lndOpen 1 = true ∧ bulkDev.portQ 1 = [bulk0] ∧ bulkDev.portHeld 1 bulk0 = false ∧
    (bulkDev.lndOf 1).halves = [] ∧ bulkDev.hasNode (gpaNode (gpaIn 0x58000000 (bulk0.o.addr % 2 ^ 57))) = true := by decide +kernel
theorem witness_landingRegisters : pageOpen later .mgmt 0x10 ∧ fieldsTaken later .mgmt 0x10 0x100 0 ∧ fieldsTaken later .mgmt 0x10 0x20C 9 ∧
    (later.lndOf 1).timeAt < later.ns / 1000 := by decide +kernel
/-- The attach link of landing 1 is UP with credit for a TIME frame at the start of a microsecond. -/
def timeDev : Dev := ((later.wrp F.LND_CFG_TIME_EN 0x11 1).setLinkState 25 5).setLink 25 { later.link 25 with credits := [(12, 2)] }

theorem witness_timeFrame : timeDev.rdp F.LND_CFG_TIME_EN 0x11 = 1 ∧ timeDev.pageOn 0x11 = true ∧ timeDev.tim.tide % us 1 < nsT 40 ∧
    timeDev.linkState 25 = 5 ∧ timeDev.links.length = 28 ∧ timeDev.lnd.length = 4 ∧ (timeDev.link 25).room = true ∧
    (timeDev.link 25).lctlWait = [] ∧ 2 ≤ nget (timeDev.link 25).credits 12 := by decide +kernel

/-- A walk that reads its page-table entry, and an invalidation that waits for none. -/
def ctx0 : CtxEnt := { valid := true, landing := 1, ring := 0, thresh := 0, timer := 0, segs := List.replicate 16 ⟨true, 15, 0, 0x10000000, 0, 0⟩ }
def walk0 : Walk := ⟨1, 0x2A, 0x3F80000, .pte ctx0 0 ⟨true, 1, 0⟩, false, []⟩
def walkDev : Dev := { serving with
  xlt := { serving.xlt with walks := [walk0], missQ := [], invQ := [⟨{ kind := 4, ctx := 0x2A }, some 22, []⟩] }
  src := { serving.src with reqs := [{ acc := { id := 1, eng := 7, ctx := 0x2A, landing := 1, ticket := 5, kind := .table, purpose := .walk 1 }
                                       msg := .msix 0, dest := 22, tag := 1, man := none, bytes := 8, lines := [], firstAt := 0, sentAt := 0
                                       bounces := 0 }] } }

theorem witness_walk : walkDev.homeIdle = true ∧ walkDev.src.reqs.any (fun o => o.acc.purpose == .walk walk0.id && !walkDev.expired o) = true ∧
    walk0.stale = false ∧ quiet walkDev ∧ joined walkDev ∧ walkDev.xltTakes = true := by decide +kernel

/-- A prefetch that reads its page-table entry. -/
def prefetch0 : Prefetch := { id := 3, ctx := 0x2A, page := 0x3F80000, stage := .pte ctx0 0 ⟨true, 1, 0⟩, stale := false }
def prefetchDev : Dev := { walkDev with
  xlt := { walkDev.xlt with walks := [], prefetches := [prefetch0] }
  src := { walkDev.src with reqs := walkDev.src.reqs.map (fun o => { o with acc := { o.acc with purpose := .prefetch 3 } }) } }

theorem witness_prefetch : prefetchDev.homeIdle = true ∧ prefetchDev.src.reqs.any (fun o => o.acc.purpose == .prefetch 3 &&
    !prefetchDev.expired o) = true ∧ quiet prefetchDev ∧ prefetchDev.xlt.prefetches = [prefetch0] := by decide +kernel

/-- A fault batch of one record, open for 20 ms. -/
def batch0 : Batch := ⟨0x2A, 0, 1, 100, 0, false, [⟨2, 0x2A, 0x3F80000, 1, 1, false, 1, 0, 0, 0, 0⟩]⟩
def fltDev : Dev := { (later.wri F.FLT_RING_CFG_ENABLE 0 1).wri F.FLT_RING_CFG_LOG2_SIZE 0 6 with flt := [batch0] }

theorem witness_faultBatch : fltDev.flt = [batch0] ∧ batch0.opened + us batch0.timerUs ≤ fltDev.tim.tide ∧ fltDev.fltRoom batch0.ring = true := by
  decide +kernel

/-- Extent 498 is being revoked with nothing in flight, extent 0 is free. -/
def revoking : Dev := { home22 with home := { home22.home with ext := [(498, { state := 2, region := 0x1A003 }), (499, { state := 1, region := 0x1A003 })] } }

theorem witness_extents : (revoking.ext 498).state = 2 ∧ nget revoking.home.infl 498 = 0 ∧ (revoking.ext 0).state = 0 ∧ isFixedExt 0 = false ∧
    revoking.rd F.PROT_CFG_PARTNER_EN = 0 := by decide +kernel
theorem witness_patrol : ({ later with tim := { later.tim with tide := us 3600000000 } } : Dev).patrolDue 0 1 later.home.nearPatrol = true ∧
    later.linePowered metaLine0 = true ∧ later.lineErr metaLine0 = 0 := by decide +kernel

/-- A write that stands ready at its home. -/
def opReady : HOp :=
  { id := 1, kind := .write, node := 22, req := readReq, akind := .write, srcGpa := 0, gpa := 0, len := 64, ext := 499, counted := true
    ws := [⟨5, some 5, none, false, List.replicate 64 1, none⟩], applied := false, phase := .ready, status := sOk, deltas := [], copies := 0, oldData := [] }
def opDev : Dev := { home22 with home := { home22.home with ops := [opReady] } }

theorem witness_writePerformed : noneAtHome opDev ∧ opDev.stands opReady.node = false ∧ opDev.mirrorExt opReady.node opReady.ext = none ∧
    ∀ w ∈ opReady.ws, w.bytes.length = 64 := by decide +kernel
theorem witness_order : (home22.ord (home22.ordKey 22 9 1)).st = .normal ∧
    gpaNode readReq.opd.addr = home22.node ∧ manDiff 7 (home22.ord (home22.ordKey 22 9 1)).expect = 7 := by decide +kernel
theorem witness_pageTable : let d := home22.setRegion 5 { valid := true, pages := 16, ptBase := extGpa 22 3072 0x300000 }
    (d.region 5).valid = true ∧ gpaNode ((d.region 5).ptBase + 8) = d.node ∧ gpaOk ((d.region 5).ptBase + 8) = true ∧
      (d.ext (gpaExt ((d.region 5).ptBase + 8))).state = 3 := by decide +kernel

/-- A bind by message 22 for extent 0; a reconstruction of its last line, one survivor of which is missing, its answer awaited. -/
def recon0 : Recon := ⟨1, 22, 0, extSize 0 - 64, 9, [3], [], true, List.replicate 64 0, false, .bind, []⟩
def rcReq : OutReq :=
  { acc := { id := 1, eng := 5, ctx := 0, landing := 0, ticket := 5, kind := .read, purpose := .rcRead 1 3 }, msg := .msix 0, dest := 9, tag := 1
    man := none, bytes := 64, lines := [], firstAt := 0, sentAt := 0, bounces := 0 }
def bindDev : Dev := { serving with
  home := { serving.home with bindBusy := some (0, some 22, extSize 0 - 64, false), recons := [recon0] }
  src := { serving.src with reqs := [rcReq] } }

theorem witness_bind : bindDev.rd F.PROT_CFG_PARTNER_EN = 0 ∧ bindDev.home.gate = [] ∧ bindDev.home.store = [] ∧ bindDev.home.queue = [] ∧
    bindDev.home.recons = [recon0] ∧ rcReq.acc.purpose = .rcRead recon0.id 3 ∧ recon0.waiting = [3] ∧ bindDev.expired rcReq = false ∧
    bindDev.src.held = [] ∧ bindDev.src.resyncs = [] ∧ extSize recon0.ext ≤ recon0.off + 64 ∧
    (serving.ext 0).state = 0 ∧ (protOfWord 3).mode ≤ 4 ∧ { protOfWord 3 with degraded := (serving.prot 0).degraded } ≠ serving.prot 0 := by
  decide +kernel

def bindDone : Dev := { bindDev with home := { bindDev.home with bindBusy := some (0, some 22, 64 * (extSize 0 / 64), false) } }

/-- R203: DONE comes with the last line, and not before; no other count of lines ends the bind. -/
theorem witness_bindDone : bindDone.running = true ∧ bindDone.domOn 11 = true ∧ extSize 0 ≤ 64 * (extSize 0 / 64) ∧
    (bindDone.parityDone 0 (extSize 0 / 64)).home.bindBusy = none ∧ (bindDone.parityDone 0 1).home.bindBusy.isSome = true := by
  decide +kernel

/-- A stand-in for node 9, with a shadow of it and a rebuild in phase 4. -/
def standDev : Dev :=
  let d := (serving.wr F.PROT_CFG_ALIAS_NODE 9).wr F.PROT_CFG_ALIAS_EN 1
  { d with home := { d.home with shadows := [⟨9, [], []⟩], aliases := [(9, true)], rebuild := some ⟨9, 10, 0, 4, [], 0, 0, [], 22, 0, 0⟩ } }

theorem witness_takeover : standDev.home.aliases.any (fun e => e.1 == 9) = true ∧ standDev.stands 9 = true ∧
    standDev.trayOf 10 ≠ standDev.trayOf standDev.node ∧ standDev.hasNode 10 = true ∧ standDev.rd F.PROT_GROUP_GROUP_EN = 0 ∧
    standDev.home.queue = [] ∧ noneAtHome standDev ∧ ({ standDev with home := { standDev.home with rebuild := none } } : Dev).stands 9 = true ∧
    (∀ e ∈ (standDev.shadow 9).prot, e.2.mode ≠ 1 ∧ e.2.mode ≠ 2) := by decide +kernel

/-- A spare in TRANSIT, and a ward whose partner is lost. -/
def spareDev : Dev := ((serving.wr F.RCV_SLIPWAY_STAGE 2).wr F.PROT_CFG_ROLE 1)
def wardDev : Dev := (serving.wr F.PROT_CFG_PARTNER_EN 1).wr F.PROT_CFG_PARTNER 9

theorem witness_spare : homeIdle { served with dev := spareDev } ∧ spareDev.stage = 2 ∧ spareDev.rd F.PROT_CFG_ROLE = 1 ∧
    spareDev.rd F.RCV_GEN_GEN ≤ 0 ∧ isTableLine (extBase 5 / 64 + 64 / 64) = false ∧ 64 < extSize 5 ∧
    (spareDev.ord (spareDev.ordKey spareDev.node 9 5)).st = .normal ∧ (spareDev.ord (spareDev.ordKey spareDev.node 9 5)).expect = 0 ∧
    spareDev.linePowered (extGpa spareDev.node 5 64 / 64 % 2 ^ 39) = true ∧ wardDev.partner = 9 ∧ wardDev.rd F.PROT_CFG_PARTNER_EN = 1 := by
  decide +kernel

/-- An operation that is ready, one that waits for a word of this node's near tier, one that is complete. -/
def op0 : FOp := { job0 with state := .ready, kind := 1, desc := natLE 8 1 ++ List.replicate 248 0 }
def opWait : FOp := { op0 with state := .waiting, landing := some 1, waits := [{ busy := true, armed := true }, {}]
                               desc := natLE 8 (1 + 2 ^ 12) ++ natLE 8 (22 * 2 ^ 45 + 2 ^ 44) ++ natLE 8 7 ++ List.replicate 232 0 }
def opDone : FOp := { op0 with state := .complete }

/-- A read of the word waited for is outstanding. -/
def waitReq : OutReq :=
  { acc := { id := 1, eng := 6, ctx := 0, landing := 1, ticket := 5, kind := .read, len := 8, purpose := .waitRead 1 0 }, msg := .msix 0, dest := 22
    tag := 1, man := none, bytes := 8, lines := [], firstAt := 0, sentAt := 0, bounces := 0 }
def waitDev : Dev := { serving with fry := { serving.fry with ops := [opWait] }, src := { serving.src with reqs := [waitReq] } }

theorem witness_wait : quiet waitDev ∧ waitDev.expired waitReq = false ∧ waitDev.fop 1 = some opWait ∧ waitDev.windowOver opWait = false ∧ opWait.waitEn 0 = true ∧
    opWait.waitEn 1 = false ∧ opWait.waitSem 0 = false ∧ opWait.waitValue 0 = 7 ∧ waitDev.headerBad opWait = false ∧
    waitDev.src.reqs.find? (fun p => p.acc.purpose == .waitRead 1 0) = some waitReq := by decide +kernel

/-- Submission and completion ring 3 stand, with a completed operation; ferry engine 0 is free. -/
def ringDev : Dev :=
  let d := (((serving.wrRing F.FRY_SUB_CFG_ENABLE 3 1).wrRing F.FRY_SUB_CFG_DB_FABRIC 3 1).wrRing F.FRY_SUB_CFG_HOST 3 1).wrRing F.FRY_SUB_CFG_LOG2_SIZE 3 4
  let d := ((d.wrRing F.FRY_CMP_CFG_ENABLE 3 1).wrRing F.FRY_CMP_CFG_HOST 3 1).wrRing F.FRY_CMP_CFG_LOG2_SIZE 3 4
  { d with fry := { d.fry with ops := [{ opDone with cmpRing := 3 }] } }

theorem witness_rings : ringDev.ring F.FRY_SUB_CFG_DB_FABRIC 3 = 1 ∧ ringDev.ticketOk 5 = true ∧ ringDev.subFill 3 < 9 ∧
    9 ≤ 2 ^ ringDev.ring F.FRY_SUB_CFG_LOG2_SIZE 3 ∧ ringDev.scbRoom 0 = true ∧
    ringFree (ringDev.ring F.FRY_CMP_PROD_PROD 3) (ringDev.ring F.FRY_CMP_CONS_CONS 3) (ringDev.ring F.FRY_CMP_CFG_LOG2_SIZE 3) = true := by decide +kernel
theorem witness_issue : let d : Dev := { serving with fry := { serving.fry with ops := [op0] } }
    d.fop 1 = some op0 ∧ op0.issuable = true ∧ d.firstReady op0 = true ∧ d.freeFerry = some 0 ∧ d.braked = false := by decide +kernel

/-- A job whose slice 0 is not issued, its program resident in array 0. -/
def jobDev : Dev := { arrDev with fry := { arrDev.fry with
  arrs := { progs := [some ⟨0, 0, image0, 0, false⟩, none, none, none] } :: List.replicate 15 {}
  ops := [{ job0 with desc := List.replicate 72 0 ++ natLE 8 1 ++ List.replicate 304 0 }], jobs := [⟨1, [0], 1, false, [], 16⟩] } }

theorem witness_sliceIssue : shaped jobDev ∧ jobDev.arrFree 0 = true ∧ jobDev.arrTurn 0 0 = true ∧ (jobDev.arr 0).resident 0 0 = some 0 ∧
    (jobDev.job 1).map (·.toIssue) = some [0] ∧ (jobDev.fop 1).map (fun o => bit o.arrayMask 0) = some true := by decide +kernel
theorem witness_jobComplete : let d : Dev := { jobDev with fry := { jobDev.fry with jobs := [⟨1, [], 0, true, [], 16⟩] } }
    d.opBusy 1 = false ∧ (d.fop 1).map (fun o => o.fld 0 14 1) = some 0 := by decide +kernel
theorem witness_pair : let d := (later.wr F.PWR_CFG_ARR_IDLE_US 10)
    d.pairBusy 0 = false ∧ (d.arr 0).lastRun + us (d.rd F.PWR_CFG_ARR_IDLE_US) ≤ d.tim.tide := by decide +kernel

/-- Ferry engine 0 runs an operation whose tiles are done. -/
def ferryDev : Dev := { serving with fry := { serving.fry with
  ops := [{ op0 with state := .running }], engs := { op := some 1, next := 1, done := [0] } :: List.replicate 31 {} } }

theorem witness_ferry : shaped ferryDev ∧ (ferryDev.ferryEng 0).op = some 1 ∧ ferryDev.opBusy 1 = false ∧
    (ferryDev.fop 1).map (fun o => o.tileNum) = some 0 := by decide +kernel

/-- An attention request of one record, and a group of one page served at the home. -/
def attn0 : AttnReq := { op := 1, stage := 4, recs := [{ grp := 0, k := 0, first := 0, home := some 22, pages := 1 }] }
def query0 : AttnQuery := { src := 9, op := 3, grp := 0, node := 22, ticket := 5, landing := 37, t := 16, d := 64, kvFmt := 0x14, group := false, scale := 0
                            nq := 1, elems := List.replicate 64 0, scales := [127, 127], pages := [(0x2C01F38B67800, 16)] }
def attnDev : Dev := { home22 with fry := { home22.fry with ops := [{ op0 with kind := 4, state := .running }], attn := [attn0]
                                                            serve := [{ q := query0, status := [sOk] }] } }

/-- A page of the group stands next at the home. -/
def pageDev : Dev := { attnDev with home := { attnDev.home with queue := [.page 9 3 0 0 22 0x2C01F38B67800 (queryPageBytes query0)] } }

theorem witness_page : pageDev.stands 22 = false ∧ pageDev.home.ops = [] ∧
    (pageDev.serveOf 9 3 0).map (fun g => (g.status, g.scored, g.waiting, g.q.pages.length)) = some ([sOk], [], [], 1) ∧
    (∀ l ∈ linesOf 0x2C01F38B67800 (queryPageBytes query0), pageDev.linePowered (l % 2 ^ 39) = true ∧ pageDev.lineErr (l % 2 ^ 39) ≠ 2) ∧
    bit (pageDev.rd F.ATTN_CFG_SERVE_MASK) 0 = true := by decide +kernel
theorem witness_attention : attnDev.attnReq 1 = some attn0 ∧ attnDev.attnOpen = true ∧ attnDev.homeOpen = true ∧ noneAtHome attnDev ∧
    gpaNode 0x2C01F38B67800 = query0.node ∧ (attnDev.serveOf 9 3 0).isSome = true ∧ attnDev.arrFree 0 = true ∧ attnDev.arrTurn 0 0 = true ∧
    attn0.recs.findIdx? (fun r => r.grp == 0 && (false || r.k == 0) && r.status.isNone) = some 0 := by decide +kernel

/-- A dispatch all of whose choices are resolved, and one that is being resolved. -/
def dispDev : Dev := { serving with fry := { serving.fry with ops := [{ op0 with kind := 5, state := .running }], disp := [{ op := 1, stage := 3 }] } }

theorem witness_dispatch : dispDev.dispReq 1 = some { op := 1, stage := 3 } ∧ dispDev.opBusy 1 = false ∧ dispDev.takes 0x52 = true := by decide +kernel

/-- A frame of three slots for an attach port stands first in port 3's crossing; the link of landing 1 holds credits. -/
def frame0 : Frame := ⟨{ dest := 22, srcNode := 9, len := 3, channel := 1, dstPort := 25, opcode := 2 }, List.replicate 32 7⟩
def frameDev : Dev := serving.setLink 3 { serving.link 3 with rx := [frame0] }

theorem witness_frameArrive : mirrorsOff frameDev ∧ (frameDev.link 3).rx.head? = some frame0 ∧ (frameDev.link 3).rxFree = 0 ∧
    frameDev.badDest 22 = false ∧ frameDev.badDest 200 = true ∧ frameDev.swc.recvSpace = [] ∧
    frameDev.lookup { arrived frame0 3 with last := true } 0 = .to 25 none ∧ frameDev.atLimit (arrived frame0 3) = false ∧
    (frameDev.voq 3 25 0).any (·.spilled) = false ∧ frameDev.headBytes 3 + (arrived frame0 3).bytes ≤ frameDev.headLimit 3 := by decide +kernel

/-- A DATA frame behind its head that is queued, that waits in receive space, that is held. -/
def head0 : QFrame := { arrived { frame0 with hdr := { frame0.hdr with len := 17 } } 3 with last := true }
def pairDev : Dev := { frameDev with swc := { frameDev.swc with voqs := [⟨3, 25, 0, [head0]⟩] } }

theorem witness_pairFrames : head0.leads 3 0 = true ∧ pairDev.voq 3 25 0 = [] ++ [head0] ∧ pairDev.atLimit (arrived frame0 3) = false ∧
    pairDev.headBytes 3 + (arrived frame0 3).bytes ≤ pairDev.headLimit 3 ∧
    (∀ v ∈ pairDev.swc.voqs, (v.inp, v.out, v.cls) ≠ (3, 25, 0) → v.q.any (QFrame.leads 3 0) = false) ∧
    ({ pairDev.swc with recvSpace := [head0] } : Swc).recvSpace = [] ++ head0 :: [] ∧
    ({ pairDev.swc with heldFrames := [head0] } : Swc).heldFrames = [] ++ head0 :: [] := by decide +kernel

/-- A request of landing 1 queued for fabric port 4, which is UP and holds credit for it. -/
def leaving : QFrame := { arrived { frame0 with hdr := { frame0.hdr with dest := 9, srcNode := 22, srcEngine := 1, channel := 0 } } 25 with paid := true }
def departDev : Dev :=
  let d := ((serving.wrp F.PRT_CFG_ENABLE 0x84 1).wrp F.PRT_STAT_STATE 0x84 5).setLink 4 { serving.link 4 with credits := [(0, 40)] }
  { d with swc := { d.swc with voqs := [⟨25, 4, 0, [leaving]⟩] } }

theorem witness_frameDepart : departDev.headOf 25 4 0 = some leaving ∧ departDev.mayDepart 4 0 leaving = true ∧
    departDev.classMayGo 4 0 = true ∧ departDev.turn 4 0 = some 25 ∧ departDev.towpath = false ∧ shaped departDev ∧
    departDev.swc.recvSpace = [] := by decide +kernel
/-- Without the credit of R415 the head waits. -/
theorem witness_bubbleWait : (departDev.setLink 4 { departDev.link 4 with credits := [(0, 33)] }).bubbleCredit 4 0 leaving = false ∧
    (departDev.setLink 4 { departDev.link 4 with credits := [(0, 33)] }).bubbleCredit 4 1 leaving = false := by decide +kernel
/-- Heads of all three shares at one output, REQ well ahead of the others. -/
def shareDev : Dev :=
  let q := fun (c : Nat) => { leaving with f := { leaving.f with hdr := { leaving.f.hdr with cls := c } } }
  let d := departDev.setLink 4 { departDev.link 4 with credits := [(0, 40), (4, 40), (8, 40)] }
  { d with swc := { d.swc with voqs := [⟨25, 4, 0, [q 0]⟩, ⟨25, 4, 1, [q 1]⟩, ⟨25, 4, 2, [q 2]⟩], served := [(16, 1000000)] } }

theorem witness_shares : shareDev.allReady 4 = true ∧ shareDev.headReady 25 4 0 = true ∧
    nget shareDev.swc.served (4 * 4 + 1) * shareDev.weight 0 < nget shareDev.swc.served (4 * 4 + 0) * shareDev.weight 1 := by decide +kernel
/-- R43, R445, R466: the frame sent over a link is the frame that its far end takes, once, in the next place of its crossing. -/
theorem test_frame_crosses : let sent := ((departDev.frameDepart 4 25 0 0).link 4).buffer.map (fun g => (⟨g.bytes 0 false, []⟩ : FlitMsg))
    let far := sent.foldl (fun (d : Dev) f => d.flitReceive 3 f)
      ((serving.wrp F.PRT_STAT_STATE 0x83 5).setLink 3 { serving.link 3 with lent := [(0, 3)] })
    (far.link 3).rx = [leaving.f] ∧ (far.link 3).rxPart = [] := by decide +kernel

/-- Two copies wait for the analysis port, fabric port 5, which is UP and holds credit; its role is ANALYSIS. -/
def mirDev : Dev :=
  let d := (((serving.wrp F.PRT_STAT_STATE 0x85 5).wri F.RTE_PORT_ROLE_ROLE 5 4).wr F.MIR_DEST_PORT 5).wr F.MIR_DEST_PORT_EN 1
  let d := d.setLink 5 { serving.link 5 with credits := [(0, 40), (1, 40)] }
  { d with swc := { d.swc with mirror := [⟨0, 0, 0, List.replicate 320 1⟩, ⟨1, 0, 0, List.replicate 64 2⟩] } }

theorem witness_mirrorSend : mirDev.rd F.MIR_DEST_PORT < 24 ∧ shaped mirDev ∧
    mirDev.mirTakes ⟨0, 0, 0, List.replicate 320 1⟩ = true ∧ mirDev.swc.mirror = [] ++ ⟨0, 0, 0, List.replicate 320 1⟩ :: [⟨1, 0, 0, List.replicate 64 2⟩] := by
  decide +kernel

theorem witness_link : let d := serving.wrp F.PRT_STAT_STATE 0x83 5
    shaped d ∧ d.linkState 3 = 5 ∧ bit (d.laneMap 3) 0 = false ∧ (d.link 3).width = none := by decide +kernel

/-- Port 3 is UP on its eight lanes, with one link control message of each form at the head of those that have come. -/
def upDev (m : Lctl) : Dev :=
  let d := ((serving.wrp F.PRT_STAT_STATE 0x83 5).setMap 3 8 0xFF)
  d.setLink 3 { d.link 3 with lctlIn := [m], txMask := 0xFF, usable := 0xFF }

theorem witness_linkControl : ((upDev .retrainReq).link 3).lctlIn = .retrainReq :: [] ∧ (upDev .retrainReq).linkState 3 = 5 ∧
    ((upDev (.widthReq 4 0x0F)).link 3).lctlIn = .widthReq 4 0x0F :: [] ∧ popCount 16 0x0F = 4 ∧ 0x0F ≤ allLanes 3 ∧
    4 ≤ (upDev (.widthReq 4 0x0F)).linkWidth 3 ∧ ((upDev (.widthReq 4 0x0F)).link 3).width = none ∧
    ((upDev .retrainReq).link 3).room = true ∧ ((upDev .retrainReq).link 3).lctlWait = [] ∧
    (upDev (.widthReq 4 0x0F)).laneMap 3 = 0xFF ∧ shaped (upDev .retrainReq) := by decide +kernel

/-- PARAM in state PARAM; a lane that fails while UP. -/
def paramDev : Dev := (upDev (.param ⟨9, 4, 1, 0, List.replicate 16 40⟩)).setLinkState 3 4

theorem witness_param : paramDev.linkState 3 = 4 ∧ (paramDev.link 3).lctlIn = .param ⟨9, 4, 1, 0, List.replicate 16 40⟩ :: [] ∧
    bit ((upDev .retrainReq).laneMap 3) 2 = true := by decide +kernel

/-- A narrowing to four lanes that this side has asked for, both sides' flits sent, its WIDTH_ACK at the head; a widening of four lanes. -/
def widthDev : Dev := (upDev (.widthAck 4 0x0F 4095)).setLink 3 { (upDev (.widthAck 4 0x0F 4095)).link 3 with
  width := some ⟨4, 0x0F, false, false, true, true, none, 0⟩ }

theorem witness_width : (widthDev.link 3).width = some ⟨4, 0x0F, false, false, true, true, none, 0⟩ ∧ (widthDev.link 3).txSwitch = none ∧
    ((widthDev.link 3).rxSeq + 4096 - 4095) % 4096 < 2048 ∧ 4 ≤ laneCount 3 ∧ widthDev.linkWidth 3 = 8 ∧
    (chosenMap 3 (min 4 2) (Nat.land 0x0F 0x33)).1 ≠ 0 ∧
    0 + us 50 ≤ ({ widthDev with tim := later.tim } : Dev).tim.tide := by decide +kernel

/-- A flit that is the next in sequence and brings a frame, one that is not good, and a timer that is due. -/
def flit0 : FlitMsg := ⟨({ seq := 1, kind := 0, slots := frame0.slots } : Flit).bytes 0 false, []⟩
def flitDev : Dev := (upDev .retrainReq).setLink 3 { (upDev .retrainReq).link 3 with
  lent := [(1, 3)], buffer := [{ seq := 1, kind := 0 }], txSeq := 1 }

theorem witness_flits : flit0.good = true ∧ (flit0.seq + 4096 - (flitDev.link 3).rxSeq) % 4096 = 1 ∧ flitDev.flitFits 3 flit0 = true ∧
    (upDev .retrainReq).flitFits 3 flit0 = false ∧ ({ flit0 with words := [⟨2, 16, true⟩] } : FlitMsg).good = false ∧
    (flitDev.link 3).txSeq ≠ (flitDev.link 3).acked ∧ (flitDev.link 3).buffer ≠ [] ∧
    (flitDev.link 3).progressAt + nsT (10 * flitDev.lrd 3 F.PRT_REPLAY_CFG_TIMER_NS F.LNDL_REPLAY_CFG_TIMER_NS) ≤ later.tim.tide := by
  decide +kernel

/-- One eye scan under way, at its first point. -/
def eyeDev : Dev := { serving.wrp F.PHY_EYE_STAT_BUSY 0xA3 1 with eyes := [⟨0xA3, 0, 0, 20, 100, 3, 0, 5, 0, 0⟩] }

theorem witness_eyePoint : eyeDev.eyes.find? (fun e => e.page == 0xA3) = some ⟨0xA3, 0, 0, 20, 100, 3, 0, 5, 0, 0⟩ ∧
    eyeDev.rd F.GLB_PIN_STAT_PERST = 0 ∧ 7 ≤ 100 := by decide +kernel
/-- The check value of the CRC-64 with R444's polynomial, preset and last inversion, over the digits 1 to 9. -/
theorem test_crc64 : crc64 ((List.range 9).map (fun i => BitVec.ofNat 8 (0x31 + i))) = 0x62EC59E3F1A4F00A := by decide +kernel
theorem witness_eye : let d := serving.wrp F.PHY_EYE_STAT_BUSY 0xA0 1
    pageOpen d .mgmt 0xA0 ∧ d.owns .mgmt 0xA0 = true ∧ quiet d ∧ d.rdp F.PHY_EYE_CFG1_V_FIRST 0xA0 ≤ d.rdp F.PHY_EYE_CFG1_V_LAST 0xA0 := by decide +kernel
theorem witness_routes : (serving.rd F.RTE_BANK_STATE_B) = 0 ∧ serving.bankState true = 0 ∧ serving.bankState false = 2 ∧
    serving.fmAllowed 22 = true ∧ (serving.setBankState true 1).bankState true = 1 := by decide +kernel

/-- A store of landing 1 has had no answer for 20 ms. -/
def storeReq : OutReq := { waitReq with acc := { waitReq.acc with eng := 1, kind := .write, purpose := .lndStore 1 5 }, dest := 9, man := some 0
                                        msg := .req { readReq with data := List.replicate 64 0 } }
def storeDev : Dev := { later with src := { later.src with reqs := [storeReq], resyncs := [⟨8, 9, 1, false, 0⟩] } }

theorem witness_requestEnds : storeDev.outOf 1 1 = some storeReq ∧ storeDev.outOf 1 2 = none ∧ quiet storeDev ∧ storeDev.homeIdle = true ∧ storeDev.expired { storeReq with firstAt := us 19990 } = false ∧ storeDev.src.held = [] ∧
    storeDev.fry.colls = [] ∧
    storeReq.firstAt + us (storeDev.rd F.RCV_CFG_REQ_TIMEOUT_US) ≤ storeDev.tim.tide ∧
    storeReq.sentAt + us (storeDev.rd F.RCV_RETX_RETX_US) ≤ storeDev.tim.tide := by decide +kernel
theorem witness_resync : storeDev.src.resyncs.find? (fun r => r.eng == 8 && r.dest == 9) = some ⟨8, 9, 1, false, 0⟩ ∧ storeDev.unacked 8 9 = 0 ∧
    storeDev.hasNode 9 = true := by decide +kernel
theorem witness_recovery : later.rd F.RCV_GEN_GEN ≤ 1 ∧ later.isLost 9 = false ∧ later.stage = 4 ∧ later.anyExt (fun st => st == 1) = false ∧
    { later.rcv with servingAt := some 5 }.servingAt = some 5 ∧ 5 ≤ later.ns := by decide +kernel

/-- Firmware runs with an alias key and an established session; a key is staged for a vacant package. -/
def secDev : Dev := { serving.wr F.SEC_TENANT_STATE 0 with sec := { serving.sec with
  staged := some 3, spdmCaps := true, spdmAlgs := true, aliasKey := some 1, sessions := [⟨1, false, true, true, 0, 0⟩] } }

theorem witness_keys : secDev.firmware = true ∧ secDev.sec.spdmAlgs = true ∧ secDev.sec.sessions.length < 2 ∧
    (secDev.sec.sessions.find? (fun x => x.id == 1)).map (·.established) = some true := by decide +kernel
theorem witness_tenancy : secDev.tenancy = 0 ∧ secDev.anyExt (fun st => st == 1 || st == 2) = false ∧ quiet secDev ∧
    secDev.fmAllowed 22 = true ∧ (serving.wr F.SEC_TENANT_STATE 3).drained = true ∧ (serving.wr F.SEC_TENANT_STATE 3).drainOver = false := by decide +kernel
theorem witness_held : (after (exec .resetNAssert State.reset)).dev.running = false ∧ Safe State.reset := by decide +kernel

/-- R184 names AES-256: the example of FIPS 197, appendix C.3. -/
theorem test_aes256 : Aes.encBlock (Aes.roundKeys (List.range 32)) ((List.range 16).map (fun i => 17 * i)) =
    [0x8E, 0xA2, 0xB7, 0xCA, 0x51, 0x67, 0x45, 0xBF, 0xEA, 0xFC, 0x49, 0x90, 0x4B, 0x49, 0x60, 0x89] := by decide +kernel

end Sys2Proof.Tests
end

/-!
SUPPORT. O33, what a request leaves as it found it: the parts of the package that a request at the home looks at and that serving a read,
or refusing, does not change.
-/
namespace Sys2Proof.Machine

/-- The home without what serving a read notes there: the counts in flight, the sampler's tables, the check bursts, the errors of lines and
the corrections that wait, the requests refused. -/
def Home.bare (h : Home) : Home :=
  { h with infl := [], cntdn := [], rdSmp := [], wrSmp := [], lastPage := [], lastLnd := [], smpPrev := (0, [], [], [], []),
           fixes := [], checkCache := [], damage := [], refused := [] }

/-- `e` is `d` in what the home looks at: its tables, its queues, and every register but the error page's and the first of each header. -/
structure Dev.Kept (d e : Dev) : Prop where
  glb : e.glb = d.glb
  sec : e.sec = d.sec
  tim : e.tim = d.tim
  rte : e.rte = d.rte
  bare : e.home.bare = d.home.bare
  word : ∀ a, 0x40 ≤ a % 0x1000 → a / 0x1000 ≠ 0xC0 → e.word a = d.word a

/-- As `Kept`, and nothing has left the package nor ended. -/
structure Dev.Silent (d e : Dev) : Prop extends Dev.Kept d e where
  out : e.out = d.out
  infl : e.home.infl = d.home.infl

/-- As `Silent`, and the errors of lines stand as they stood. -/
structure Dev.Aside (d e : Dev) : Prop extends Dev.Silent d e where
  damage : e.home.damage = d.home.damage

theorem Dev.Kept.refl (d : Dev) : d.Kept d := ⟨rfl, rfl, rfl, rfl, rfl, fun _ _ _ => rfl⟩

theorem Dev.Kept.trans {d e f : Dev} (h : d.Kept e) (k : e.Kept f) : d.Kept f :=
  ⟨k.glb.trans h.glb, k.sec.trans h.sec, k.tim.trans h.tim, k.rte.trans h.rte, k.bare.trans h.bare,
    fun a ha hp => (k.word a ha hp).trans (h.word a ha hp)⟩

theorem Dev.Silent.refl (d : Dev) : d.Silent d := ⟨.refl d, rfl, rfl⟩

theorem Dev.Silent.trans {d e f : Dev} (h : d.Silent e) (k : e.Silent f) : d.Silent f :=
  ⟨h.toKept.trans k.toKept, k.out.trans h.out, k.infl.trans h.infl⟩

theorem Dev.Aside.refl (d : Dev) : d.Aside d := ⟨.refl d, rfl⟩

theorem Dev.Aside.trans {d e f : Dev} (h : d.Aside e) (k : e.Aside f) : d.Aside f :=
  ⟨h.toSilent.trans k.toSilent, k.damage.trans h.damage⟩

/-! ### What keeps it -/

/-- A change of the home's notes alone. -/
theorem Dev.kept_of_notes (d : Dev) (h : Home) (hb : h.bare = d.home.bare) : d.Kept { d with home := h } :=
  ⟨rfl, rfl, rfl, rfl, hb, fun _ _ _ => rfl⟩

/-- A change of the home's notes other than the counts in flight. -/
theorem Dev.silent_of_notes (d : Dev) (h : Home) (hb : h.bare = d.home.bare) (hi : h.infl = d.home.infl) :
    d.Silent { d with home := h } := ⟨d.kept_of_notes h hb, rfl, hi⟩

/-- A change of the home's notes other than the counts in flight and the errors of lines. -/
theorem Dev.aside_of_notes (d : Dev) (h : Home) (hb : h.bare = d.home.bare) (hi : h.infl = d.home.infl)
    (hd : h.damage = d.home.damage) : d.Aside { d with home := h } := ⟨d.silent_of_notes h hb hi, hd⟩

theorem Dev.aside_freeCtr (d : Dev) (k : Nat) : d.Aside { d with freeCtr := k } :=
  ⟨⟨⟨rfl, rfl, rfl, rfl, rfl, fun _ _ _ => rfl⟩, rfl, rfl⟩, rfl⟩

theorem Dev.aside_freeBytes (d : Dev) (k : Nat) : d.Aside (d.freeBytes k).2 := d.aside_freeCtr _

theorem Dev.aside_count (d : Dev) (p i k : Nat) : d.Aside (d.count p i k) :=
  ⟨⟨⟨by simp, by simp, by simp, by simp, by simp, by simp⟩, by simp, by simp⟩, by simp⟩

theorem Dev.aside_corrected (d : Dev) (p : Nat) : d.Aside (d.corrected p) := by
  refine ⟨⟨⟨by simp, by simp, by simp, by simp, by simp, fun a ha _ => ?_⟩, by simp, by simp⟩, by simp⟩
  have haddr : F.BLK_ERR_CNT_CORRECTED.addr p 0 = p * 0x1000 + 0x30 := rfl
  exact Dev.word_wrpi_ne _ _ _ _ _ _ (by omega)

theorem Dev.kept_capture (d : Dev) (p : Nat) (c : ECls) (st code port det : Nat) : d.Kept (d.capture p c st code port det) :=
  ⟨by simp, by simp, by simp, by simp, by simp, fun a ha hp => Dev.word_capture d p c st code port det a hp ha⟩

theorem Dev.kept_homeRefused (d : Dev) (st addr src : Nat) : d.Kept (d.homeRefused st addr src) :=
  (d.aside_count 0x28 1 1).toKept.trans (Dev.kept_capture ..)

@[simp] theorem Dev.homeRefused_home (d : Dev) (st addr src : Nat) : (d.homeRefused st addr src).home = d.home := by
  simp [Dev.homeRefused, Dev.homeStatus]

theorem Dev.kept_inflAdd (d : Dev) (n k : Nat) : d.Kept (d.inflAdd n k) := d.kept_of_notes _ rfl

theorem Dev.kept_inflSub (d : Dev) (n k : Nat) : d.Kept (d.inflSub n k) := d.kept_of_notes _ rfl

theorem Dev.aside_drawCountdown (d : Dev) (k : Nat) : d.Aside (d.drawCountdown k).2 := d.aside_freeCtr _

/-- The sampler notes, draws and counts (R188). -/
theorem Dev.aside_sample (d : Dev) (wr : Bool) (k page landing : Nat) : d.Aside (d.sample wr k page landing) := by
  unfold Dev.sample
  split
  · exact .refl d
  · have hfirst : d.Aside (if nget d.home.cntdn k = 0 then d.drawCountdown k else (nget d.home.cntdn k, d)).2 := by
      split
      · exact d.aside_drawCountdown k
      · exact .refl d
    dsimp only
    generalize (if nget d.home.cntdn k = 0 then d.drawCountdown k else (nget d.home.cntdn k, d)) = r at hfirst ⊢
    split
    · exact hfirst.trans (Dev.aside_of_notes _ _ rfl rfl rfl)
    · refine (hfirst.trans (r.2.aside_drawCountdown k)).trans (.trans (Dev.aside_of_notes _ _ ?_ ?_ ?_) (Dev.aside_count ..))
      all_goals split <;> split <;> rfl

theorem Dev.aside_admitted (d : Dev) (n : Nat) (h : Hdr) (image : Bool) (k : AKind) (gpa : Nat) :
    (d.inflAdd n (gpaExt gpa)).Aside (d.admitted n h image k gpa) := by
  unfold Dev.admitted
  dsimp only
  split
  · exact (Dev.aside_count ..).trans (Dev.aside_sample ..)
  · exact Dev.aside_count ..

theorem Dev.aside_checkBurst (d : Dev) (wr : Bool) (l : Nat) : d.Aside (d.checkBurst wr l) := by
  unfold Dev.checkBurst
  split
  · exact .refl d
  · dsimp only
    split
    · exact d.aside_of_notes _ rfl rfl rfl
    · split
      · refine .trans (d.aside_of_notes _ ?_ ?_ ?_) (Dev.aside_count ..) <;> rfl
      · refine (d.aside_freeCtr (d.freeCtr + 1)).trans (.trans (Dev.aside_of_notes _ _ ?_ ?_ ?_) (Dev.aside_count ..)) <;> rfl

theorem Dev.silent_mendWord (d : Dev) (l w : Nat) : d.Silent (d.mendWord l w) :=
  ((d.aside_count 0x29 0 1).trans (Dev.aside_corrected ..)).toSilent.trans (Dev.silent_of_notes _ _ rfl rfl)

/-- A bulk line is corrected where it lies only later (R172). -/
theorem Dev.aside_readPart_bulk (d : Dev) {l : Nat} (hl : l < metaLine0) (ws : List Nat) : d.Aside (d.readPart l ws) := by
  unfold Dev.readPart
  rw [if_neg (by omega)]
  split
  · refine ((d.aside_count 0x2A 0 1).trans (Dev.aside_corrected _ 0x2A)).trans (Dev.aside_of_notes _ _ ?_ ?_ ?_) <;> rfl
  · exact .refl d

theorem Dev.silent_readPart (d : Dev) (l : Nat) (ws : List Nat) : d.Silent (d.readPart l ws) := by
  by_cases hl : metaLine0 ≤ l
  · unfold Dev.readPart
    rw [if_pos hl]
    exact List.foldlRecOn _ _ (.refl d) fun e he w _ => he.trans (e.silent_mendWord l w)
  · exact (d.aside_readPart_bulk (by omega) ws).toSilent

theorem Dev.kept_badPart (d : Dev) (l : Nat) (ws : List Nat) (cls : Nat) : d.Kept (d.badPart l ws cls) :=
  (Dev.aside_count ..).toKept.trans (Dev.kept_capture ..)

@[simp] theorem Dev.badPart_home (d : Dev) (l : Nat) (ws : List Nat) (cls : Nat) : (d.badPart l ws cls).home = d.home := by
  simp [Dev.badPart]

/-! ### What the home reads off it -/

namespace Dev.Kept
variable {d e : Dev}

/-- A part of the home that is no note. -/
theorem home {α : Type} (h : d.Kept e) (f : Home → α) (hf : ∀ k : Home, f k.bare = f k) : f e.home = f d.home := by
  rw [← hf e.home, h.bare, hf]

theorem ops (h : d.Kept e) : e.home.ops = d.home.ops := h.home Home.ops fun _ => rfl
theorem queue (h : d.Kept e) : e.home.queue = d.home.queue := h.home Home.queue fun _ => rfl
theorem aliases (h : d.Kept e) : e.home.aliases = d.home.aliases := h.home Home.aliases fun _ => rfl

theorem ext (h : d.Kept e) (k : Nat) : e.ext k = d.ext k := by
  unfold Dev.ext
  rw [h.home Home.ext fun _ => rfl]

theorem region (h : d.Kept e) (k : Nat) : e.region k = d.region k := by
  unfold Dev.region
  rw [h.home Home.region fun _ => rfl]

theorem prot (h : d.Kept e) (k : Nat) : e.prot k = d.prot k := by
  unfold Dev.prot
  rw [h.home Home.prot fun _ => rfl]

theorem node (h : d.Kept e) : e.node = d.node := by unfold Dev.node; rw [h.glb]

/-- A field outside the first registers of a header and the error page. -/
theorem rd (h : d.Kept e) (f : Fld) (ha : 0x40 ≤ f.addr f.page 0 % 0x1000) (hp : f.addr f.page 0 / 0x1000 ≠ 0xC0) : e.rd f = d.rd f := by
  unfold Dev.rd Dev.rdpi
  rw [h.word _ ha hp]

theorem hasNode (h : d.Kept e) (n : Nat) : e.hasNode n = d.hasNode n := by
  unfold Dev.hasNode Dev.domainSize
  rw [h.node, h.glb]

theorem domOn (h : d.Kept e) (i : Nat) : e.domOn i = d.domOn i := by
  unfold Dev.domOn
  rw [h.rd F.PWR_DOM_STAT_ON (by decide) (by decide)]

theorem contiguous (h : d.Kept e) : e.contiguous = d.contiguous := by
  unfold Dev.contiguous
  rw [h.rd F.BULK_CFG_INTERLEAVE (by decide) (by decide)]

theorem placeOf (h : d.Kept e) (l : Nat) : e.placeOf l = d.placeOf l := by
  unfold Dev.placeOf
  rw [h.contiguous]

theorem linePowered (h : d.Kept e) (l : Nat) : e.linePowered l = d.linePowered l := by
  unfold Dev.linePowered Dev.bulkDevice
  simp only [h.domOn, h.contiguous, h.placeOf]

theorem epochNow (h : d.Kept e) : e.epochNow = d.epochNow := by
  unfold Dev.epochNow Dev.flipDue Dev.bankState Dev.activeBank
  simp only [h.rd F.RTE_BANK_STATE_A (by decide) (by decide), h.rd F.RTE_BANK_STATE_B (by decide) (by decide),
    h.rd F.RTE_BANK_ACTIVE (by decide) (by decide), h.rte, h.tim]

theorem stands (h : d.Kept e) (n : Nat) : e.stands n = d.stands n := by
  unfold Dev.stands Dev.serves
  rw [h.node, h.aliases]

theorem tableLine (h : d.Kept e) (i : Nat) : e.tableLine i = d.tableLine i := by
  unfold Dev.tableLine
  simp only [h.ext, h.region]

/-- A line reads the same. -/
theorem plain (h : d.Kept e) (m : Store) (l : Nat) (c : Cover) : Pkg.plain (m, e) l c = Pkg.plain (m, d) l c := by
  unfold Pkg.plain Pkg.cipher Pkg.lineBytes Pkg.cover Dev.metaKey Dev.unitOf
  simp only [h.placeOf, h.tableLine, h.sec, h.node]

theorem lineKey (h : d.Kept e) (m : Store) (st l : Nat) : Pkg.lineKey (m, e) st l = Pkg.lineKey (m, d) st l := by
  unfold Pkg.lineKey
  rw [h.sec]

/-- What an answer would say, and whether it leaves. -/
theorem respond_out (h : d.Kept e) (r : Hdr) (st : Nat) (v : List Byte) :
    ∃ sent, (d.respond r st v).out = d.out ++ sent ∧ (e.respond r st v).out = e.out ++ sent ∧
      (d.hasNode r.srcNode = true → sent ≠ []) := by
  unfold Dev.respond Dev.emitTo Dev.emit
  simp only [h.node, h.epochNow, h.hasNode]
  split
  · exact ⟨[_], rfl, rfl, fun _ => by simp⟩
  · next hn => exact ⟨[], by simp, by simp, fun hs => absurd hs hn⟩

/-- The last that leaves is the answer. -/
theorem respond_last (h : d.Kept e) (r : Hdr) (st : Nat) (v : List Byte) (hn : d.hasNode r.srcNode = true) :
    (e.respond r st v).out.getLast? = (d.respond r st v).out.getLast? := by
  obtain ⟨sent, hd, he, hs⟩ := h.respond_out r st v
  rw [hd, he, List.getLast?_append_of_ne_nil _ (hs hn), List.getLast?_append_of_ne_nil _ (hs hn)]

/-- Where nothing else has left, the answer is all that does. -/
theorem respond_out_eq (h : d.Kept e) (ho : e.out = d.out) (r : Hdr) (st : Nat) (v : List Byte) :
    (e.respond r st v).out = (d.respond r st v).out := by
  obtain ⟨sent, hd, he, -⟩ := h.respond_out r st v
  rw [hd, he, ho]

end Dev.Kept

end Sys2Proof.Machine

/-!
SUPPORT. O33, errors in the lines that a read takes out of the arrays: what the code finds, and that correcting never clears what it only
detects nor makes a good line bad.
-/
namespace Sys2Proof.Machine

/-- The part of line `p.1` that a read needs, the words `p.2`, as the read takes it out of the arrays. -/
def Dev.readBurst (d : Dev) (p : Nat × List Nat) : Dev := (d.checkBurst false p.1).readPart p.1 p.2

theorem Dev.silent_readBurst (d : Dev) (p : Nat × List Nat) : d.Silent (d.readBurst p) :=
  (d.aside_checkBurst false p.1).toSilent.trans (Dev.silent_readPart ..)

theorem Dev.silent_readBursts (d : Dev) (ps : List (Nat × List Nat)) : d.Silent (ps.foldl Dev.readBurst d) :=
  List.foldlRecOn _ _ (.refl d) fun e he p _ => he.trans (e.silent_readBurst p)

/-! ### What the code finds -/

/-- What the largest of some numbers reaches, one of them reaches. -/
theorem le_foldl_max (k : Nat) (l : List Nat) (a : Nat) : k ≤ l.foldl max a ↔ k ≤ a ∨ ∃ x ∈ l, k ≤ x := by
  induction l generalizing a with
  | nil => simp
  | cons x l ih => simp [ih, or_assoc]

/-- The wrong bits of word `w` of line `l`. -/
def Dev.wordErrs (d : Dev) (l w : Nat) : Nat := (d.errsOf l).countP (fun e => e / 72 == w)

/-- In a near line two errors or more in one of the words; in a bulk line two or more in all. -/
theorem Dev.partErr_eq_two (d : Dev) (l : Nat) (ws : List Nat) : d.partErr l ws = 2 ↔
    if metaLine0 ≤ l then ∃ w ∈ ws, 2 ≤ d.wordErrs l w else 2 ≤ (d.errsOf l).length := by
  unfold Dev.partErr
  split
  · rw [Nat.le_antisymm_iff, ← not_lt, Nat.lt_iff_add_one_le, le_foldl_max, le_foldl_max]
    simp [Dev.wordErrs]
  · omega

/-- Fewer errors and fewer words: no more is found. -/
theorem Dev.partErr_ne_two {d e : Dev} {l : Nat} {ws vs : List Nat} (hes : (e.errsOf l).Sublist (d.errsOf l)) (hws : ws ⊆ vs)
    (h : d.partErr l vs ≠ 2) : e.partErr l ws ≠ 2 := by
  rw [Ne, Dev.partErr_eq_two] at h ⊢
  split at h
  · next hl =>
    rw [if_pos hl]
    rintro ⟨w, hw, hc⟩
    exact h ⟨w, hws hw, hc.trans (hes.countP_le)⟩
  · next hl =>
    rw [if_neg hl]
    exact fun hc => h (hc.trans hes.length_le)

theorem spanWords_subset (gpa len l : Nat) : spanWords gpa len l ⊆ List.range 8 := List.filter_subset_self ..

/-! ### What reading does to the errors -/

theorem Dev.Aside.errsOf {d e : Dev} (h : d.Aside e) (l : Nat) : e.errsOf l = d.errsOf l := by
  unfold Dev.errsOf
  rw [h.placeOf, h.damage]

theorem Dev.partErr_congr {d e : Dev} {l : Nat} (h : e.errsOf l = d.errsOf l) (ws : List Nat) : e.partErr l ws = d.partErr l ws := by
  unfold Dev.partErr
  rw [h]

/-- Correcting a word takes its errors from the line, and no other error. -/
theorem Dev.errsOf_mendWord (d : Dev) (l w q : Nat) : (d.mendWord l w).errsOf q =
    if d.placeOf q = d.placeOf l then (d.errsOf q).filter (fun e => e / 72 != w) else d.errsOf q := by
  have hq := (d.silent_mendWord l w).toKept.placeOf q
  have hl := ((d.aside_count 0x29 0 1).trans (Dev.aside_corrected _ 0x29)).placeOf l
  unfold Dev.errsOf
  rw [hq]
  simp only [Dev.mendWord, Dev.setErrs, Dev.errsOf, tget_tset, hl, Dev.corrected_frame, Dev.count_frame]
  split
  · next h => rw [h]
  · rfl

/-- Reading takes errors from lines and adds none. -/
theorem Dev.errsOf_readPart_sublist (d : Dev) (l : Nat) (ws : List Nat) (q : Nat) : ((d.readPart l ws).errsOf q).Sublist (d.errsOf q) := by
  by_cases hl : metaLine0 ≤ l
  · unfold Dev.readPart
    rw [if_pos hl]
    refine List.foldlRecOn (motive := fun e : Dev => (e.errsOf q).Sublist (d.errsOf q)) _ _ (List.Sublist.refl _) fun e he w _ => .trans ?_ he
    rw [Dev.errsOf_mendWord]
    split
    · exact List.filter_sublist
    · exact List.Sublist.refl _
  · rw [(d.aside_readPart_bulk (by omega) ws).errsOf]

/-- Places of bulk lines lie below those of near lines. -/
theorem Dev.placeOf_lt (d : Dev) {q : Nat} (hq : q < metaLine0) : d.placeOf q < metaLine0 := by
  unfold Dev.placeOf linePlace metaLine0 at *
  dsimp only
  split <;> omega

theorem Dev.placeOf_near (d : Dev) {l : Nat} (hl : metaLine0 ≤ l) (hs : l < 2 ^ 39) : d.placeOf l = l := by
  unfold Dev.placeOf linePlace
  rw [Nat.mod_eq_of_lt hs, if_pos (Or.inl hl)]

/-- Reading a line leaves the errors of another place. -/
theorem Dev.errsOf_readPart_ne (d : Dev) (l : Nat) (ws : List Nat) {q : Nat} (h : d.placeOf q ≠ d.placeOf l) :
    (d.readPart l ws).errsOf q = d.errsOf q := by
  by_cases hl : metaLine0 ≤ l
  · unfold Dev.readPart
    rw [if_pos hl]
    refine (List.foldlRecOn (motive := fun e => d.Kept e ∧ e.errsOf q = d.errsOf q) _ _ ⟨.refl d, rfl⟩ ?_).2
    intro e ⟨hk, he⟩ w _
    exact ⟨hk.trans (e.silent_mendWord l w).toKept, by rw [Dev.errsOf_mendWord, hk.placeOf, hk.placeOf, if_neg h, he]⟩
  · exact (d.aside_readPart_bulk (by omega) ws).errsOf q

/-- Correcting a word leaves the wrong bits of the others. -/
theorem Dev.wordErrs_mendWord_ne (d : Dev) (l q : Nat) {v w : Nat} (h : v ≠ w) : (d.mendWord l v).wordErrs q w = d.wordErrs q w := by
  unfold Dev.wordErrs
  rw [Dev.errsOf_mendWord]
  split
  · rw [List.countP_filter]
    refine List.countP_congr fun x _ => ?_
    simp only [Bool.and_eq_true, beq_iff_eq, bne_iff_ne]
    omega
  · rfl

/-- A word with two wrong bits or more keeps them when words with one are corrected. -/
theorem Dev.wordErrs_readPart (d : Dev) (l : Nat) (ws : List Nat) (q w : Nat) (hl : metaLine0 ≤ l) (hw : 2 ≤ d.wordErrs q w) :
    2 ≤ (d.readPart l ws).wordErrs q w := by
  have hmended : ∀ v ∈ ws.filter (fun v => d.partErr l [v] == 1), d.placeOf q = d.placeOf l → v ≠ w := by
    rintro v hv hp rfl
    have hone : d.partErr l [v] = 1 := by simpa using (List.mem_filter.1 hv).2
    have hsame : d.wordErrs q v = d.wordErrs l v := by unfold Dev.wordErrs Dev.errsOf; rw [hp]
    have htwo := (d.partErr_eq_two l [v]).2 (by rw [if_pos hl]; exact ⟨v, List.mem_singleton_self v, hsame ▸ hw⟩)
    omega
  unfold Dev.readPart
  rw [if_pos hl]
  refine (List.foldlRecOn (motive := fun e => d.Kept e ∧ 2 ≤ e.wordErrs q w) _ _ ⟨.refl d, hw⟩ ?_).2
  intro e ⟨hk, he⟩ v hv
  refine ⟨hk.trans (e.silent_mendWord l v).toKept, ?_⟩
  by_cases hp : d.placeOf q = d.placeOf l
  · rwa [e.wordErrs_mendWord_ne l q (hmended v hv hp)]
  · rwa [Dev.wordErrs, Dev.errsOf_mendWord, hk.placeOf, hk.placeOf, if_neg hp]

/-- An error that the code only detects is still there once other lines, or its own, are read. -/
theorem Dev.partErr_readBurst_two (d : Dev) (p : Nat × List Nat) {q : Nat} {ws : List Nat} (hp : p.1 < 2 ^ 39)
    (h : d.partErr q ws = 2) : (d.readBurst p).partErr q ws = 2 := by
  unfold Dev.readBurst
  rw [← Dev.partErr_congr ((d.aside_checkBurst false p.1).errsOf q)] at h
  generalize d.checkBurst false p.1 = d at h ⊢
  by_cases hl : metaLine0 ≤ p.1
  · rw [Dev.partErr_eq_two] at h ⊢
    split at h
    · next hq =>
      obtain ⟨w, hw, hc⟩ := h
      rw [if_pos hq]
      exact ⟨w, hw, d.wordErrs_readPart _ _ q w hl hc⟩
    · next hq =>
      have hne : d.placeOf q ≠ d.placeOf p.1 := by
        have := d.placeOf_lt (Nat.lt_of_not_le hq)
        rw [d.placeOf_near hl hp]
        omega
      rwa [if_neg hq, d.errsOf_readPart_ne _ _ hne]
  · rwa [Dev.partErr_congr ((d.aside_readPart_bulk (by omega) _).errsOf q)]

/-- A good line stays good. -/
theorem Dev.errsOf_readBursts_sublist (d : Dev) (ps : List (Nat × List Nat)) (q : Nat) :
    ((ps.foldl Dev.readBurst d).errsOf q).Sublist (d.errsOf q) := by
  refine List.foldlRecOn (motive := fun e : Dev => (e.errsOf q).Sublist (d.errsOf q)) _ _ (List.Sublist.refl _) fun e he p _ => .trans ?_ he
  rw [← (e.aside_checkBurst false p.1).errsOf q]
  exact Dev.errsOf_readPart_sublist ..

theorem Dev.partErr_readBursts_two (d : Dev) {ps : List (Nat × List Nat)} {q : Nat} {ws : List Nat} (hp : ∀ p ∈ ps, p.1 < 2 ^ 39)
    (h : d.partErr q ws = 2) : (ps.foldl Dev.readBurst d).partErr q ws = 2 :=
  List.foldlRecOn (motive := fun e : Dev => e.partErr q ws = 2) _ _ h fun e he p hm => e.partErr_readBurst_two p (hp p hm) he

end Sys2Proof.Machine

/-!
SUPPORT. O33, a read at the home from its admission to its answer: the queue lets it pass where nothing holds it, and it ends with OK and
its lines' plaintext, or with DATA_ERROR.
-/
namespace Sys2Proof.Machine

/-! ### Passing the queue -/

/-- The package with the queue `q` at its home. -/
def Pkg.withQueue (q : List HItem) (x : Pkg) : Pkg := (x.1, { x.2 with home := { x.2.home with queue := q } })

theorem Pkg.withQueue_self {x : Pkg} {q : List HItem} (h : x.2.home.queue = q) : x.withQueue q = x := by
  rw [← h]
  rfl

theorem Pkg.enqueue_eq (i : HItem) (x : Pkg) : Pkg.enqueue i x = Pkg.pump (x.withQueue (x.2.home.queue ++ [i])) := rfl

/-- An empty queue has nothing to pass. -/
theorem Pkg.pumpPass_nil {x : Pkg} (h : x.2.home.queue = []) : x.pumpPass = x := by
  have hx : Pkg.pumpPass x = x.withQueue ([] ++ (x.withQueue []).2.home.queue) := by
    unfold Pkg.pumpPass
    rw [h]
    rfl
  rw [hx, Pkg.withQueue_self h, h]
  exact Pkg.withQueue_self h

/-- The home has power for every line of the request and nothing else in hand. -/
structure Dev.ReadPasses (d : Dev) (n : Nat) (r : Req) : Prop where
  queue : d.home.queue = []
  ops : d.home.ops = []
  after : r.hdr.av = false
  power : ∀ l ∈ linesOf (r.opd.addr % 2 ^ 52) (opdLen r.opd), ∀ q, d.physOf n l = some q → d.linePowered q = true

theorem Dev.ReadPasses.itemWaits {d : Dev} {n : Nat} {r : Req} (h : d.ReadPasses n r) (kind : AKind) (media : List Media) (k : Nat) :
    d.itemWaits [] (.read n r kind media k) = false := by
  simp only [Dev.itemWaits, HItem.lines, HItem.isRead, HItem.node, Dev.opLines, h.ops, meets, List.filter_nil, List.flatMap_nil,
    List.contains_nil, List.any_nil, Bool.not_true, Bool.false_and, Bool.or_eq_false_iff, List.any_eq_false]
  refine ⟨by simp, fun l hl => ?_⟩
  split
  · next q hq => simp [h.power l hl q hq]
  · simp

/-- A pass over the one read that nothing holds serves it. -/
theorem Pkg.pumpPass_read {x : Pkg} {n : Nat} {r : Req} {kind : AKind} {media : List Media} {k : Nat}
    (hq : x.2.home.queue = [.read n r kind media k]) (h : (x.withQueue []).2.ReadPasses n r) :
    x.pumpPass = ((x.withQueue []).serveRead n r kind media k).withQueue
      ((x.withQueue []).serveRead n r kind media k).2.home.queue := by
  have hafter : (x.withQueue []).2.afterHold n r.hdr = none := by simp [Dev.afterHold, h.after]
  have hwait := h.itemWaits kind media k
  unfold Pkg.pumpPass
  rw [hq]
  simp only [List.foldl_cons, List.foldl_nil]
  simp only [Pkg.withQueue] at hafter hwait
  simp only [hafter, hwait, HItem.isPage]
  rfl

/-- A read that nothing holds is served at once (R127, R128). -/
theorem Pkg.enqueue_read {x : Pkg} {n : Nat} {r : Req} {kind : AKind} {media : List Media} {k : Nat} (h : x.2.ReadPasses n r)
    (hkeep : (x.serveRead n r kind media k).2.home.queue = []) :
    Pkg.enqueue (.read n r kind media k) x = x.serveRead n r kind media k := by
  have hstart : (x.withQueue [.read n r kind media k]).withQueue [] = x := Pkg.withQueue_self h.queue
  have hpass : (x.withQueue [.read n r kind media k]).pumpPass = x.serveRead n r kind media k := by
    rw [Pkg.pumpPass_read rfl (by rw [hstart]; exact h), hstart]
    exact Pkg.withQueue_self rfl
  rw [Pkg.enqueue_eq, h.queue, List.nil_append]
  change Pkg.pumpN (10 + 1) _ = _
  unfold Pkg.pumpN
  dsimp only
  rw [hpass, hkeep, if_neg (by simp [Pkg.withQueue])]
  unfold Pkg.pumpN
  dsimp only
  rw [Pkg.pumpPass_nil hkeep, if_pos rfl]

/-! ### Serving it -/

/-- The lines of a request at this package's own node, each with the words that a read of it needs. -/
def readSpans (r : Req) : List (Nat × List Nat) :=
  (linesOf r.gpa (opdLen r.opd)).map (fun l => (l % 2 ^ 39, spanWords r.gpa (opdLen r.opd) l))

theorem readSpans_lt (r : Req) : ∀ p ∈ readSpans r, p.1 < 2 ^ 39 := by
  intro p hp
  obtain ⟨l, -, rfl⟩ := List.mem_map.1 hp
  exact Nat.mod_lt _ (by decide)

/-- The package once the lines of a request have been read out of the arrays. -/
def Dev.spansRead (r : Req) (d : Dev) : Dev := (readSpans r).foldl Dev.readBurst d

/-- Those of them that then hold an error that the code only detects. -/
def Dev.badSpans (r : Req) (d : Dev) : List (Nat × List Nat) :=
  (readSpans r).filter (fun p => (d.spansRead r).partErr p.1 p.2 == 2)

theorem Dev.silent_spansRead (d : Dev) (r : Req) : d.Silent (d.spansRead r) := d.silent_readBursts _

theorem Dev.badSpans_eq_nil {d : Dev} {r : Req} (h : ∀ l ∈ linesOf r.gpa (opdLen r.opd), d.lineErr (l % 2 ^ 39) ≠ 2) :
    d.badSpans r = [] := by
  refine List.filter_eq_nil_iff.2 fun p hp => ?_
  obtain ⟨l, hl, rfl⟩ := List.mem_map.1 hp
  simpa [Dev.spansRead] using Dev.partErr_ne_two (d.errsOf_readBursts_sublist (readSpans r) (l % 2 ^ 39))
    (spanWords_subset r.gpa (opdLen r.opd) l) (h l hl)

theorem Dev.badSpans_ne_nil {d : Dev} {r : Req}
    (h : ∃ l ∈ linesOf r.gpa (opdLen r.opd), d.partErr (l % 2 ^ 39) (spanWords r.gpa (opdLen r.opd) l) = 2) :
    d.badSpans r ≠ [] := by
  obtain ⟨l, hl, hbad⟩ := h
  refine List.ne_nil_of_mem (a := (l % 2 ^ 39, spanWords r.gpa (opdLen r.opd) l)) (List.mem_filter.2 ⟨List.mem_map_of_mem hl, ?_⟩)
  simpa [Dev.spansRead] using d.partErr_readBursts_two (readSpans_lt r) hbad

section
variable {x : Pkg} {n : Nat}

theorem Pkg.extOf_own (hst : x.2.stands n = false) (k : Nat) : x.extOf n k = x.2.ext k := by simp [Pkg.extOf, hst]

theorem Pkg.regionOf_own (hst : x.2.stands n = false) (k : Nat) : x.regionOf n k = x.2.region k := by simp [Pkg.regionOf, hst]

theorem Dev.physOf_own {d : Dev} (hst : d.stands n = false) (l : Nat) : d.physOf n l = some (l % 2 ^ 39) := by simp [Dev.physOf, hst]

theorem Dev.protOf_own {d : Dev} (hst : d.stands n = false) (k : Nat) : d.protOf n k = d.prot k := by simp [Dev.protOf, hst]

variable {r : Req} {kind : AKind} {k : Nat} {key : Option (Nat × Nat) × Bool}

/-- A read of the package's own memory, but for one that parity may rebuild (R164, R172, R484). -/
theorem Pkg.serveRead_eq (hst : x.2.stands n = false) (hkey : x.lineKey (x.2.ext k).state (r.gpa / 64) = some key)
    (hmode : x.2.badSpans r = [] ∨ (x.2.prot k).mode ≠ 1) :
    x.serveRead n r kind [] k = (x.1,
      if x.2.badSpans r = [] then
        (x.2.spansRead r).endRead n r k sOk (Pkg.readData (x.1, x.2.spansRead r) n kind (x.2.ext k).state r.gpa (opdLen r.opd))
      else
        let b := ((x.2.badSpans r).foldl (fun (d : Dev) p => d.badPart p.1 p.2 0) (x.2.spansRead r)).freeBytes (opdLen r.opd)
        b.2.endRead n r k sDataError b.1) := by
  rw [← Dev.protOf_own hst] at hmode
  unfold Dev.badSpans Dev.spansRead readSpans Dev.readBurst at hmode ⊢
  unfold Pkg.serveRead
  rw [Pkg.extOf_own hst]
  simp only [show r.opd.addr % 2 ^ 52 = r.gpa from rfl, hkey, hst, Dev.physOf_own hst, Bool.false_eq_true, false_and, if_false,
    List.filterMap_map, Function.comp_def, Option.map_some, List.filterMap_eq_map', Dev.strike, List.zip_nil_right, List.foldl_nil,
    Pkg.dev, Bool.not_eq_true', List.isEmpty_eq_false_iff, ite_not]
  split
  · rfl
  · next h => rw [if_neg fun hm => (hmode.resolve_left h) hm.1]

/-- A read none of whose lines holds an error that the code only detects ends with OK and its data. -/
theorem Pkg.serveRead_ok (hst : x.2.stands n = false) (hkey : x.lineKey (x.2.ext k).state (r.gpa / 64) = some key)
    (hgood : ∀ l ∈ linesOf r.gpa (opdLen r.opd), x.2.lineErr (l % 2 ^ 39) ≠ 2) :
    ∃ d, x.2.Silent d ∧ x.serveRead n r kind [] k =
      (x.1, d.endRead n r k sOk (Pkg.readData (x.1, d) n kind (x.2.ext k).state r.gpa (opdLen r.opd))) := by
  have hnil := Dev.badSpans_eq_nil hgood
  exact ⟨_, x.2.silent_spansRead r, by rw [Pkg.serveRead_eq hst hkey (.inl hnil), if_pos hnil]⟩

/-- A read of a line that does, in an extent without parity, ends with DATA_ERROR. -/
theorem Pkg.serveRead_bad (hst : x.2.stands n = false) (hkey : x.lineKey (x.2.ext k).state (r.gpa / 64) = some key)
    (hmode : (x.2.prot k).mode ≠ 1)
    (hbad : ∃ l ∈ linesOf r.gpa (opdLen r.opd), x.2.partErr (l % 2 ^ 39) (spanWords r.gpa (opdLen r.opd) l) = 2) :
    ∃ d v, x.2.Kept d ∧ d.home.infl = x.2.home.infl ∧ v.length = opdLen r.opd ∧
      x.serveRead n r kind [] k = (x.1, d.endRead n r k sDataError v) := by
  have hread := x.2.silent_spansRead r
  have hcapt : x.2.Kept ((x.2.badSpans r).foldl (fun (d : Dev) p => d.badPart p.1 p.2 0) (x.2.spansRead r)) ∧
      ((x.2.badSpans r).foldl (fun (d : Dev) p => d.badPart p.1 p.2 0) (x.2.spansRead r)).home.infl = x.2.home.infl :=
    List.foldlRecOn (motive := fun d : Dev => x.2.Kept d ∧ d.home.infl = x.2.home.infl) _ _ ⟨hread.toKept, hread.infl⟩
      fun d hd p _ => ⟨hd.1.trans (d.kept_badPart ..), by rw [Dev.badPart_home, hd.2]⟩
  refine ⟨_, _, hcapt.1.trans (Dev.aside_freeBytes _ (opdLen r.opd)).toKept, hcapt.2, ?_,
    by rw [Pkg.serveRead_eq hst hkey (.inr hmode), if_neg (Dev.badSpans_ne_nil hbad)]⟩
  simp [Dev.freeBytes]

end

/-! ### Its answer -/

theorem Dev.endRead_infl (d : Dev) (n : Nat) (r : Req) (k st : Nat) (v : List Byte) :
    (d.endRead n r k st v).home.infl = (d.inflSub n k).home.infl := by
  simp [Dev.endRead, Dev.respond]

theorem Dev.endRead_queue (d : Dev) (n : Nat) (r : Req) (k st : Nat) (v : List Byte) :
    (d.endRead n r k st v).home.queue = d.home.queue := by
  simp [Dev.endRead, Dev.respond, Dev.inflSub]

/-- The end of a read sends its response and no more. -/
theorem Dev.endRead_out (d : Dev) (n : Nat) (r : Req) (k st : Nat) (v : List Byte) :
    (d.endRead n r k st v).out = (d.respond r.hdr st v).out :=
  (d.kept_inflSub n k).respond_out_eq rfl r.hdr st v

/-- A request counted in flight and off again leaves the count as it was. -/
theorem Dev.infl_add_sub {d e : Dev} (hk : d.Kept e) (n k : Nat) (hst : d.stands n = false)
    (hi : e.home.infl = (d.inflAdd n k).home.infl) : nget (e.inflSub n k).home.infl k = nget d.home.infl k := by
  have hs : e.stands n = false := (hk.stands n).trans hst
  simp [Dev.inflSub, Dev.inflKey, hs, hi, Dev.inflAdd, hst]

/-- The data of a read under the tenant key (R184). -/
theorem Pkg.readData_tenant {x : Pkg} {n key gpa len : Nat} {kind : AKind} (hst : x.2.stands n = false) (hkind : kind ≠ .migRead)
    (hkey : x.2.sec.active = some key) : x.readData n kind 1 gpa len =
      spanBytes gpa len ((linesOf gpa len).map (fun l => x.plain (l % 2 ^ 39) (.key key l))) := by
  simp [Pkg.readData, Pkg.lineKey, hkey, Dev.physOf_own hst, hkind, LineW.cover]

/-- The bytes of a SYSTEM extent (R64, R186). -/
theorem Pkg.readData_system {x : Pkg} {n gpa len : Nat} {kind : AKind} (hst : x.2.stands n = false) (hkind : kind ≠ .migRead) :
    x.readData n kind 3 gpa len =
      spanBytes gpa len ((linesOf gpa len).map (fun l => x.plain (l % 2 ^ 39) (.metadata (l % 2 ^ 39)))) := by
  simp [Pkg.readData, Pkg.lineKey, Dev.physOf_own hst, hkind, LineW.cover]

end Sys2Proof.Machine

/-!
SUPPORT. O33, the grant check and the two ways on from it.
-/
namespace Sys2Proof.Machine

/-! ### The home's own node -/

@[simp] theorem Dev.stands_node (d : Dev) : d.stands d.node = false := by simp [Dev.stands, Dev.serves]

theorem Dev.homes_node {d : Dev} (h : d.rd F.PROT_CFG_ROLE ≠ 1) : d.homes d.node = some .own := by
  simp [Dev.homes, Dev.serves, h]

/-- A command of the package while its core runs. -/
theorem onPkg_running {s : State} (hrun : s.dev.running = true) (hdom : s.dev.domOn 11 = true) (f : Pkg → Pkg) :
    onPkg f s = .next (withPkg s (f (s.store, s.dev))) := by
  simp [onPkg, Pkg.ifRuns, hrun, hdom, withPkg]

/-! ### The grant check (R64–R67) -/

theorem Pkg.grantCheck_kept (x : Pkg) (n : Nat) (h : Hdr) (k : AKind) (gpa : Nat) :
    x.2.Kept (x.grantCheck n h k gpa).2 ∧ (x.grantCheck n h k gpa).2.regs = x.2.regs := by
  have same : x.2.Kept x.2 ∧ x.2.regs = x.2.regs := ⟨.refl _, rfl⟩
  unfold Pkg.grantCheck
  dsimp only
  split_ifs
  · exact same
  · exact same
  · exact same
  · exact ⟨(Dev.aside_count ..).toKept, by simp⟩
  · exact same
  · exact same
  · exact ⟨Dev.kept_of_notes _ _ rfl, rfl⟩
  · exact same
  · exact same
  · exact same

section
variable {x : Pkg} {h : Hdr} {gpa : Nat}

/-- A read with ticket, extent and right. -/
theorem Pkg.grantCheck_read_ok (hgpa : gpaOk gpa = true) (ht : x.2.ticketOk h.ticket = true) (he : (x.2.ext (gpaExt gpa)).state = 1)
    (hb : bit (rightMap .read (x.2.ext (gpaExt gpa)).bm) h.reqLanding = true) :
    x.grantCheck x.2.node h .read gpa = (sOk, x.2) := by
  simp [Pkg.grantCheck, Pkg.extOf_own, hgpa, AKind.isWrite, ht, he, hb]

/-- A table read of a SYSTEM extent with the ticket. -/
theorem Pkg.grantCheck_table_ok (hgpa : gpaOk gpa = true) (ht : x.2.ticketOk h.ticket = true)
    (he : (x.2.ext (gpaExt gpa)).state = 3) : x.grantCheck x.2.node h .table gpa = (sOk, x.2) := by
  simp [Pkg.grantCheck, Pkg.extOf_own, hgpa, AKind.isWrite, ht, he]

/-- At a REVOKING extent. -/
theorem Pkg.grantCheck_read_revoking (hgpa : gpaOk gpa = true) (ht : x.2.ticketOk h.ticket = true)
    (he : (x.2.ext (gpaExt gpa)).state = 2) : (x.grantCheck x.2.node h .read gpa).1 = sRevoked := by
  simp [Pkg.grantCheck, Pkg.extOf_own, hgpa, AKind.isWrite, ht, he]

/-- Without the ticket, a LIVE extent or the right. -/
theorem Pkg.grantCheck_read_rights (hgpa : gpaOk gpa = true) (hown : x.2.ownSystem h = false)
    (hno : x.2.ticketOk h.ticket = false ∨ ((x.2.ext (gpaExt gpa)).state ≠ 1 ∧ (x.2.ext (gpaExt gpa)).state ≠ 2) ∨
      ((x.2.ext (gpaExt gpa)).state = 1 ∧ bit (x.2.ext (gpaExt gpa)).bm.read h.reqLanding = false)) :
    (x.grantCheck x.2.node h .read gpa).1 = sRights := by
  unfold Pkg.grantCheck
  simp only [Pkg.extOf_own, Dev.stands_node, hgpa, hown, AKind.isWrite, rightMap]
  obtain ht | ⟨h1, h2⟩ | ⟨h1, hb⟩ := hno
  · simp [ht]
  · simp [h1, h2]; split <;> rfl
  · simp [h1, hb]; split <;> rfl

end

/-! ### A read on its way -/

section
variable {r : Req} {s : State} {kind : AKind}

/-- A refused read is counted, captured and answered with its status. -/
theorem poolRead_refused (hup : homeUp s) (hn : gpaNode r.opd.addr = s.dev.node) {st : Nat} (hst : st ≠ sOk)
    (hg : (Pkg.grantCheck (s.store, s.dev) s.dev.node r.hdr kind r.gpa).1 = st) :
    Pkg.poolRead kind r [] (s.store, s.dev) =
      (s.store, ((Pkg.grantCheck (s.store, s.dev) s.dev.node r.hdr kind r.gpa).2.homeRefused st r.opd.addr r.hdr.srcNode).respond
        r.hdr st []) := by
  obtain ⟨⟨-, -, hopen, -⟩, hrole⟩ := hup
  have hgpa : r.opd.addr % 2 ^ 52 = r.gpa := rfl
  simp only [Pkg.poolRead, hopen, if_true, Pkg.readIn, hn, Dev.homes_node hrole, Option.isNone_some, Bool.false_eq_true, if_false, hgpa,
    hg, hst, ne_eq, not_false_eq_true]

/-- A granted read that nothing holds is served as soon as it is admitted. -/
theorem poolRead_served (hup : homeUp s) (hp : poweredHome r (opdLen r.opd) s) (hav : r.hdr.av = false)
    (hg : Pkg.grantCheck (s.store, s.dev) s.dev.node r.hdr kind r.gpa = (sOk, s.dev)) {y : Pkg}
    (hy : Pkg.serveRead s.dev.node r kind [] r.ext (s.store, s.dev.admitted s.dev.node r.hdr r.image kind r.gpa) = y)
    (hq : y.2.home.queue = []) : Pkg.poolRead kind r [] (s.store, s.dev) = y := by
  obtain ⟨⟨-, -, hopen, hqueue, hops, -⟩, hrole⟩ := hup
  obtain ⟨hn, -, hpow⟩ := hp
  have hgpa : r.opd.addr % 2 ^ 52 = r.gpa := rfl
  have hk := (s.dev.kept_inflAdd _ _).trans (s.dev.aside_admitted s.dev.node r.hdr r.image kind r.gpa).toKept
  have hpass : (s.dev.admitted s.dev.node r.hdr r.image kind r.gpa).ReadPasses s.dev.node r := by
    refine ⟨hk.queue.trans hqueue, hk.ops.trans hops, hav, fun l hl q hlq => ?_⟩
    rw [Dev.physOf_own ((hk.stands _).trans s.dev.stands_node)] at hlq
    obtain rfl := Option.some.inj hlq
    exact (hk.linePowered _).trans (hpow l hl)
  simp only [Pkg.poolRead, hopen, if_true, Pkg.readIn, hn, Dev.homes_node hrole, Option.isNone_some, Bool.false_eq_true, if_false, hgpa,
    hg, ne_eq, not_true_eq_false]
  rw [← hy] at hq ⊢
  exact Pkg.enqueue_read hpass hq

end

end Sys2Proof.Machine

/-!
SUPPORT. O33, what a read at the home answers.
-/
namespace Sys2Proof.Machine

/-! ### Refusals -/

/-- An error recorded at a page but the error page's own is counted there (R487). -/
theorem Dev.errors_capture (d : Dev) {p : Nat} (hp : p ≠ 0xC0) (c : ECls) (st code port det : Nat) :
    (d.capture p c st code port det).rdp F.BLK_ERR_CNT_ERRORS p = satAdd 16 (d.rdp F.BLK_ERR_CNT_ERRORS p) 1 := by
  have haddr : F.BLK_ERR_CNT_ERRORS.addr p 0 = p * 0x1000 + 0x30 := rfl
  have hover : F.BLK_ERR_CAP0_OVERFLOW.addr p 0 = p * 0x1000 + 0x20 := rfl
  have hcount : (d.wrp F.BLK_ERR_CNT_ERRORS p (satAdd 16 (d.rdp F.BLK_ERR_CNT_ERRORS p) 1)).rdpi F.BLK_ERR_CNT_ERRORS p 0 =
      satAdd 16 (d.rdp F.BLK_ERR_CNT_ERRORS p) 1 := by
    refine (Dev.rdpi_wrpi_same d F.BLK_ERR_CNT_ERRORS p 0 _ (by decide)).trans (Nat.mod_eq_of_lt ?_)
    have := satAdd_le 16 (d.rdp F.BLK_ERR_CNT_ERRORS p) 1
    change satAdd 16 (d.rdp F.BLK_ERR_CNT_ERRORS p) 1 < 2 ^ 16
    omega
  unfold Dev.capture
  dsimp only
  generalize d.wrp F.BLK_ERR_CNT_ERRORS p (satAdd 16 (d.rdp F.BLK_ERR_CNT_ERRORS p) 1) = e at hcount ⊢
  rw [← hcount]
  split
  · exact Dev.rdpi_wrpi_ne _ _ _ _ _ _ _ _ (Or.inl (by omega))
  · unfold Dev.rdp Dev.rdpi
    rw [Dev.word_errLog _ _ _ (by omega), Dev.word_event, if_neg (by omega), Dev.word_setWord_ne _ _ (by omega),
      Dev.word_setWord_ne _ _ (by omega), Dev.word_setWord_ne _ _ (by omega), Dev.word_setWord_ne _ _ (by omega)]

/-- A refused request is counted among the errors of page HOME. -/
theorem Dev.errors_homeRefused (d : Dev) (st addr src : Nat) :
    (d.homeRefused st addr src).rdp F.BLK_ERR_CNT_ERRORS 0x28 = satAdd 16 (d.rdp F.BLK_ERR_CNT_ERRORS 0x28) 1 := by
  unfold Dev.homeRefused Dev.homeStatus
  rw [Dev.errors_capture _ (by decide)]
  simp [Dev.rdp]

@[simp] theorem Dev.respond_home (d : Dev) (h : Hdr) (st : Nat) (v : List Byte) : (d.respond h st v).home = d.home := by simp [Dev.respond]

@[simp] theorem Dev.respond_regs (d : Dev) (h : Hdr) (st : Nat) (v : List Byte) : (d.respond h st v).regs = d.regs := by simp [Dev.respond]

section
variable {r : Req} {s : State}

/-- The command of a read that is no migration read. -/
theorem exec_homeRead (hup : homeUp s) (hop : r.hdr.opcode ≠ opMigRead) :
    exec (.homeRead r []) s = .next (withPkg s (Pkg.poolRead .read r [] (s.store, s.dev))) := by
  obtain ⟨⟨hrun, hdom, -⟩, -⟩ := hup
  refine Eq.trans ?_ (onPkg_running hrun hdom _)
  simp [exec, execHomeRead, hop]

theorem exec_homeTableRead (hup : homeUp s) :
    exec (.homeTableRead r []) s = .next (withPkg s (Pkg.poolRead .table r [] (s.store, s.dev))) := by
  obtain ⟨⟨hrun, hdom, -⟩, -⟩ := hup
  exact onPkg_running hrun hdom _

/-- What a refused read leaves (R66, R67, R482). -/
theorem homeRead_refused (hup : homeUp s) (hn : gpaNode r.opd.addr = s.dev.node) (hop : r.hdr.opcode ≠ opMigRead) {st : Nat}
    (hst : st ≠ sOk) (hg : (Pkg.grantCheck (s.store, s.dev) s.dev.node r.hdr .read r.gpa).1 = st) :
    ∃ t, exec (.homeRead r []) s = .next t ∧ t.store = s.store ∧
      (s.dev.hasNode r.hdr.srcNode = true → t.dev.out.getLast? = (s.dev.respond r.hdr st []).out.getLast?) ∧
      t.dev.home.ops = [] ∧ t.dev.rdp F.BLK_ERR_CNT_ERRORS 0x28 = satAdd 16 (s.dev.rdp F.BLK_ERR_CNT_ERRORS 0x28) 1 := by
  obtain ⟨hk, hregs⟩ := Pkg.grantCheck_kept (s.store, s.dev) s.dev.node r.hdr .read r.gpa
  have href := hk.trans (Dev.kept_homeRefused _ st r.opd.addr r.hdr.srcNode)
  obtain ⟨⟨-, -, -, -, hops, -⟩, -⟩ := id hup
  refine ⟨_, exec_homeRead hup hop, ?_, ?_, ?_, ?_⟩ <;> rw [poolRead_refused hup hn hst hg]
  · rfl
  · exact href.respond_last r.hdr st []
  · simpa [withPkg] using hk.ops.trans hops
  · refine (Dev.rdpi_congr (Dev.respond_regs ..) _ _ _).trans ((Dev.errors_homeRefused ..).trans ?_)
    simp only [Dev.rdp, Dev.rdpi_congr hregs]

/-! ### Answers -/

/-- An admitted request has left what the home looks at, and the errors of its lines. -/
theorem Dev.admitted_kept (d : Dev) (n : Nat) (h : Hdr) (image : Bool) (k : AKind) (gpa : Nat) :
    d.Kept (d.admitted n h image k gpa) ∧ ∀ q ws, (d.admitted n h image k gpa).partErr q ws = d.partErr q ws := by
  have hadm := d.aside_admitted n h image k gpa
  exact ⟨(d.kept_inflAdd n (gpaExt gpa)).trans hadm.toKept, fun q ws => Dev.partErr_congr (hadm.errsOf q) ws⟩

/-- A granted read whose lines the codes can correct ends with OK and its data. -/
theorem poolRead_ok {kind : AKind} {key : Option (Nat × Nat) × Bool} (hup : homeUp s) (hh : atHome r (opdLen r.opd) s)
    (hav : r.hdr.av = false) (hg : Pkg.grantCheck (s.store, s.dev) s.dev.node r.hdr kind r.gpa = (sOk, s.dev))
    (hkey : Pkg.lineKey (s.store, s.dev) (s.dev.ext r.ext).state (r.gpa / 64) = some key) :
    ∃ d, s.dev.Kept d ∧ d.out = s.dev.out ∧ d.home.infl = (s.dev.inflAdd s.dev.node r.ext).home.infl ∧
      Pkg.poolRead kind r [] (s.store, s.dev) = (s.store, d.endRead s.dev.node r r.ext sOk
        (Pkg.readData (s.store, d) s.dev.node kind (s.dev.ext r.ext).state r.gpa (opdLen r.opd))) := by
  obtain ⟨hp, hgood⟩ := hh
  obtain ⟨⟨-, -, -, hqueue, -⟩, -⟩ := id hup
  have hadm := s.dev.aside_admitted s.dev.node r.hdr r.image kind r.gpa
  obtain ⟨hk, herr⟩ := s.dev.admitted_kept s.dev.node r.hdr r.image kind r.gpa
  generalize hd : s.dev.admitted s.dev.node r.hdr r.image kind r.gpa = a at hadm hk herr
  have hkey' : Pkg.lineKey (s.store, a) (a.ext r.ext).state (r.gpa / 64) = some key := by rw [hk.lineKey, hk.ext, hkey]
  obtain ⟨d, hsil, hserve⟩ := Pkg.serveRead_ok (x := (s.store, a)) (kind := kind) ((hk.stands _).trans s.dev.stands_node) hkey'
    fun l hl => (herr _ _).trans_ne (hgood l hl)
  have hkept := hk.trans hsil.toKept
  refine ⟨d, hkept, hsil.out.trans hadm.out, hsil.infl.trans hadm.infl, ?_⟩
  rw [← hk.ext]
  exact poolRead_served hup hp hav hg (hd ▸ hserve) ((Dev.endRead_queue ..).trans (hkept.queue.trans hqueue))

/-- A granted read of a line that the code cannot correct, in an extent without parity, ends with DATA_ERROR. -/
theorem poolRead_bad {kind : AKind} {key : Option (Nat × Nat) × Bool} (hup : homeUp s) (hp : poweredHome r (opdLen r.opd) s)
    (hav : r.hdr.av = false) (hg : Pkg.grantCheck (s.store, s.dev) s.dev.node r.hdr kind r.gpa = (sOk, s.dev))
    (hkey : Pkg.lineKey (s.store, s.dev) (s.dev.ext r.ext).state (r.gpa / 64) = some key) (hmode : (s.dev.prot r.ext).mode ≠ 1)
    (hbad : ∃ l ∈ linesOf r.gpa (opdLen r.opd), s.dev.partErr (l % 2 ^ 39) (spanWords r.gpa (opdLen r.opd) l) = 2) :
    ∃ d v, s.dev.Kept d ∧ d.home.infl = (s.dev.inflAdd s.dev.node r.ext).home.infl ∧ v.length = opdLen r.opd ∧
      Pkg.poolRead kind r [] (s.store, s.dev) = (s.store, d.endRead s.dev.node r r.ext sDataError v) := by
  have hadm := s.dev.aside_admitted s.dev.node r.hdr r.image kind r.gpa
  obtain ⟨hk, herr⟩ := s.dev.admitted_kept s.dev.node r.hdr r.image kind r.gpa
  generalize hd : s.dev.admitted s.dev.node r.hdr r.image kind r.gpa = a at hadm hk herr
  have hkey' : Pkg.lineKey (s.store, a) (a.ext r.ext).state (r.gpa / 64) = some key := by rw [hk.lineKey, hk.ext, hkey]
  obtain ⟨⟨-, -, -, hqueue, -⟩, -⟩ := id hup
  have hmode' : (a.prot r.ext).mode ≠ 1 := by rwa [hk.prot]
  obtain ⟨l, hl, hle⟩ := hbad
  obtain ⟨d, v, hkd, hinfl, hv, hserve⟩ := Pkg.serveRead_bad (x := (s.store, a)) (kind := kind)
    ((hk.stands _).trans s.dev.stands_node) hkey' hmode' ⟨l, hl, (herr _ _).trans hle⟩
  have hkept := hk.trans hkd
  exact ⟨d, v, hkept, hinfl.trans hadm.infl, hv,
    poolRead_served hup hp hav hg (hd ▸ hserve) ((Dev.endRead_queue ..).trans (hkept.queue.trans hqueue))⟩

/-- The count in flight after a read is what it was before (R119). -/
theorem endRead_count {d : Dev} (hk : s.dev.Kept d) (hi : d.home.infl = (s.dev.inflAdd s.dev.node r.ext).home.infl) (st : Nat)
    (v : List Byte) : nget (d.endRead s.dev.node r r.ext st v).home.infl r.ext = nget s.dev.home.infl r.ext := by
  rw [Dev.endRead_infl]
  exact Dev.infl_add_sub hk _ _ s.dev.stands_node hi

/-- A granted read of good lines (R64, R184). -/
theorem homeRead_granted (hup : homeUp s) (hh : atHome r (opdLen r.opd) s) (hav : r.hdr.av = false) (hop : r.hdr.opcode ≠ opMigRead)
    {key : Nat} (hgr : granted r .read s) (hkey : s.dev.sec.active = some key) :
    ∃ t, exec (.homeRead r []) s = .next t ∧ t.store = s.store ∧
      t.dev.out = (s.dev.respond r.hdr sOk (spanBytes r.gpa (opdLen r.opd) (oldLines r (opdLen r.opd) key s))).out ∧
      nget t.dev.home.infl r.ext = nget s.dev.home.infl r.ext := by
  obtain ⟨hticket, hlive, hright⟩ := hgr
  obtain ⟨⟨-, hgpa, -⟩, -⟩ := id hh
  have hg := Pkg.grantCheck_read_ok (x := (s.store, s.dev)) hgpa hticket hlive hright
  have hlk : Pkg.lineKey (s.store, s.dev) (s.dev.ext r.ext).state (r.gpa / 64) = some (some (key, r.gpa / 64), false) := by
    simp [Pkg.lineKey, hlive, hkey]
  obtain ⟨d, hk, hout, hinfl, hread⟩ := poolRead_ok hup hh hav hg hlk
  have hdata : Pkg.readData (s.store, d) s.dev.node .read (s.dev.ext r.ext).state r.gpa (opdLen r.opd) =
      spanBytes r.gpa (opdLen r.opd) (oldLines r (opdLen r.opd) key s) := by
    rw [hlive, Pkg.readData_tenant ((hk.stands _).trans s.dev.stands_node) (by decide) (hk.sec ▸ hkey), oldLines]
    simp only [hk.plain]
  refine ⟨_, exec_homeRead hup hop, ?_⟩
  rw [hread, hdata]
  exact ⟨rfl, (Dev.endRead_out ..).trans (hk.respond_out_eq hout ..), endRead_count hk hinfl ..⟩

/-- A table read of a SYSTEM extent (R64, R91). -/
theorem homeTableRead_system (hup : homeUp s) (hh : atHome r (opdLen r.opd) s) (hav : r.hdr.av = false)
    (hticket : s.dev.ticketOk r.hdr.ticket = true) (hsys : (s.dev.ext r.ext).state = 3) :
    ∃ t, exec (.homeTableRead r []) s = .next t ∧ t.store = s.store ∧
      t.dev.out = (s.dev.respond r.hdr sOk (spanBytes r.gpa (opdLen r.opd) ((linesOf r.gpa (opdLen r.opd)).map (fun l =>
        Pkg.plain (s.store, s.dev) (l % 2 ^ 39) (.metadata (l % 2 ^ 39)))))).out := by
  obtain ⟨⟨-, hgpa, -⟩, -⟩ := id hh
  have hg := Pkg.grantCheck_table_ok (x := (s.store, s.dev)) hgpa hticket hsys
  have hlk : Pkg.lineKey (s.store, s.dev) (s.dev.ext r.ext).state (r.gpa / 64) = some (none, true) := by simp [Pkg.lineKey, hsys]
  obtain ⟨d, hk, hout, -, hread⟩ := poolRead_ok hup hh hav hg hlk
  refine ⟨_, exec_homeTableRead hup, ?_⟩
  rw [hread, hsys, Pkg.readData_system ((hk.stands _).trans s.dev.stands_node) (by decide)]
  simp only [hk.plain]
  exact ⟨rfl, (Dev.endRead_out ..).trans (hk.respond_out_eq hout ..)⟩

/-- A granted read of a line that its code cannot correct (R164, R170, R484). -/
theorem homeRead_dataError (hup : homeUp s) (hp : poweredHome r (opdLen r.opd) s) (hav : r.hdr.av = false)
    (hop : r.hdr.opcode ≠ opMigRead) (hgr : granted r .read s) (hkey : s.dev.sec.active.isSome = true)
    (hmode : (s.dev.prot r.ext).mode = 3 ∨ (s.dev.prot r.ext).mode = 4)
    (hbad : ∃ l ∈ linesOf r.gpa (opdLen r.opd), s.dev.partErr (l % 2 ^ 39) (spanWords r.gpa (opdLen r.opd) l) = 2) :
    ∃ t v, exec (.homeRead r []) s = .next t ∧ t.store = s.store ∧ v.length = opdLen r.opd ∧
      (s.dev.hasNode r.hdr.srcNode = true → t.dev.out.getLast? = (s.dev.respond r.hdr sDataError v).out.getLast?) ∧
      nget t.dev.home.infl r.ext = nget s.dev.home.infl r.ext := by
  obtain ⟨hticket, hlive, hright⟩ := hgr
  obtain ⟨-, hgpa, -⟩ := id hp
  obtain ⟨key, hkey⟩ := Option.isSome_iff_exists.1 hkey
  have hg := Pkg.grantCheck_read_ok (x := (s.store, s.dev)) hgpa hticket hlive hright
  have hlk : Pkg.lineKey (s.store, s.dev) (s.dev.ext r.ext).state (r.gpa / 64) = some (some (key, r.gpa / 64), false) := by
    simp [Pkg.lineKey, hlive, hkey]
  obtain ⟨d, v, hk, hinfl, hv, hread⟩ := poolRead_bad hup hp hav hg hlk (by omega) hbad
  refine ⟨_, v, exec_homeRead hup hop, ?_⟩
  rw [hread]
  refine ⟨rfl, hv, fun hn => ?_, endRead_count hk hinfl ..⟩
  exact (congrArg List.getLast? (Dev.endRead_out ..)).trans (hk.respond_last _ _ _ hn)

end

end Sys2Proof.Machine

/-!
SUPPORT. O33, version operations at the home, and the statement.
-/
namespace Sys2Proof.Machine

/-- A package without a partner mirrors nothing (R195). -/
theorem Dev.mirrorExt_alone {d : Dev} (h : d.rd F.PROT_CFG_PARTNER_EN = 0) (n k : Nat) : d.mirrorExt n k = none := by
  simp [Dev.mirrorExt, Dev.partnerOn, h]

section
variable {r : Req} {s : State}

theorem exec_homeVersionRead (hup : homeUp s) : exec (.homeVersionRead r) s = .next (withPkg s (Pkg.versionIn r (s.store, s.dev))) := by
  obtain ⟨⟨hrun, hdom, hopen, -⟩, -⟩ := hup
  refine (onPkg_running hrun hdom _).trans ?_
  simp [Pkg.regionOp, hopen]

theorem exec_homePublish (hup : homeUp s) : exec (.homePublish r) s = .next (withPkg s (Pkg.publishIn r (s.store, s.dev))) := by
  obtain ⟨⟨hrun, hdom, hopen, -⟩, -⟩ := hup
  refine (onPkg_running hrun hdom _).trans ?_
  simp [Pkg.regionOp, hopen]

/-- The region descriptor of a version operation, with the ticket and VALID (R152, R153). -/
theorem onRegion_valid (hup : homeUp s) (hn : bits r.opd.addr 13 7 = s.dev.node) (ht : s.dev.ticketOk r.hdr.ticket = true)
    (hv : (s.dev.region (bits r.opd.addr 0 13)).valid = true) (f : Nat → Nat → Region → Pkg → Pkg) :
    Pkg.onRegion r f (s.store, s.dev) =
      f s.dev.node (bits r.opd.addr 0 13) (s.dev.region (bits r.opd.addr 0 13)) (s.store, s.dev) := by
  simp [Pkg.onRegion, hn, Dev.homes_node hup.2, Pkg.regionOf_own, ht, hv]

/-- Without either it is refused: nothing of the home changes, and RIGHTS is the last that leaves. -/
theorem onRegion_refused (hup : homeUp s) (hn : bits r.opd.addr 13 7 = s.dev.node)
    (hno : s.dev.ticketOk r.hdr.ticket = false ∨ (s.dev.region (bits r.opd.addr 0 13)).valid = false) (f : Nat → Nat → Region → Pkg → Pkg) :
    ∃ d, s.dev.Kept d ∧ d.home = s.dev.home ∧ Pkg.onRegion r f (s.store, s.dev) = (s.store, d.refuseRegion r sRights []) := by
  by_cases ht : s.dev.ticketOk r.hdr.ticket = true
  · have hv := hno.resolve_left (by simp [ht])
    exact ⟨s.dev, .refl _, rfl, by simp [Pkg.onRegion, hn, Dev.homes_node hup.2, Pkg.regionOf_own, ht, hv, Pkg.dev]⟩
  · exact ⟨s.dev.count 0x28 2 1, (Dev.aside_count ..).toKept, by simp,
      by simp [Pkg.onRegion, hn, Dev.homes_node hup.2, ht]⟩

/-- A refused version operation leaves the home as it was, and its answer leaves last. -/
theorem Dev.refuseRegion_kept {d e : Dev} (hk : d.Kept e) (hh : e.home = d.home) (st : Nat) (v : List Byte) :
    (e.refuseRegion r st v).home = d.home ∧
      (d.hasNode r.hdr.srcNode = true → (e.refuseRegion r st v).out.getLast? = (d.respond r.hdr st v).out.getLast?) :=
  ⟨by simp [Dev.refuseRegion, hh], (hk.trans (e.kept_homeRefused st r.opd.addr r.hdr.srcNode)).respond_last r.hdr st v⟩

/-- A command that ends in a refused version operation. -/
theorem refused_of_onRegion {i : Instr} {f : Nat → Nat → Region → Pkg → Pkg} (hup : homeUp s) (hn : bits r.opd.addr 13 7 = s.dev.node)
    (hexec : exec i s = .next (withPkg s (Pkg.onRegion r f (s.store, s.dev))))
    (hno : s.dev.ticketOk r.hdr.ticket = false ∨ (s.dev.region (bits r.opd.addr 0 13)).valid = false) :
    ∃ t, exec i s = .next t ∧ t.store = s.store ∧ t.dev.home = s.dev.home ∧
      (s.dev.hasNode r.hdr.srcNode = true → t.dev.out.getLast? = (s.dev.respond r.hdr sRights []).out.getLast?) := by
  obtain ⟨d, hk, hh, hreg⟩ := onRegion_refused hup hn hno f
  rw [hexec, hreg]
  exact ⟨_, rfl, rfl, Dev.refuseRegion_kept hk hh ..⟩

/-- VERSION_READ (R152). -/
theorem homeVersionRead_current (hup : homeUp s) (hn : bits r.opd.addr 13 7 = s.dev.node) (ht : s.dev.ticketOk r.hdr.ticket = true)
    (hv : (s.dev.region (bits r.opd.addr 0 13)).valid = true) :
    ∃ t, exec (.homeVersionRead r) s = .next t ∧ t.store = s.store ∧
      t.dev = s.dev.respond r.hdr sOk (natLE 4 (s.dev.region (bits r.opd.addr 0 13)).version) :=
  ⟨_, exec_homeVersionRead hup, by rw [Pkg.versionIn, onRegion_valid hup hn ht hv]; exact ⟨rfl, rfl⟩⟩

/-- PUBLISH of the version expected, by a landing that may: it is swapped (R153). -/
theorem homePublish_swaps (hup : homeUp s) (hn : bits r.opd.addr 13 7 = s.dev.node) (ht : s.dev.ticketOk r.hdr.ticket = true)
    (hv : (s.dev.region (bits r.opd.addr 0 13)).valid = true)
    (hp : bit (s.dev.region (bits r.opd.addr 0 13)).publish r.hdr.reqLanding = true)
    (he : (s.dev.region (bits r.opd.addr 0 13)).version = leNat (sliceBytes r.data 0 4)) :
    exec (.homePublish r) s = .next { s with
      dev := (s.dev.setRegion (bits r.opd.addr 0 13)
        { s.dev.region (bits r.opd.addr 0 13) with version := leNat (sliceBytes r.data 4 4) }).respond r.hdr sOk
        (natLE 4 (s.dev.region (bits r.opd.addr 0 13)).version) } := by
  obtain ⟨⟨-, -, -, -, -, -, -, -, -, -, hpartner⟩, -⟩ := id hup
  rw [exec_homePublish hup, Pkg.publishIn, onRegion_valid hup hn ht hv]
  generalize s.dev.region (bits r.opd.addr 0 13) = e at hp he ⊢
  have hmirror : ∀ e', (s.dev.setRegion (bits r.opd.addr 0 13) e').mirrorExt s.dev.node 3072 = none := fun e' =>
    Dev.mirrorExt_alone hpartner ..
  have hstands : ∀ e', (s.dev.setRegion (bits r.opd.addr 0 13) e').stands s.dev.node = false := fun e' =>
    (s.dev.setRegion (bits r.opd.addr 0 13) e').stands_node
  simp [hp, he, Pkg.setRegionOf, hmirror, hstands, Pkg.forwardTo, blankOp, Pkg.dev, withPkg]

/-- PUBLISH of another version: CONFLICT with the one that stands (R153). -/
theorem homePublish_conflict (hup : homeUp s) (hn : bits r.opd.addr 13 7 = s.dev.node) (ht : s.dev.ticketOk r.hdr.ticket = true)
    (hv : (s.dev.region (bits r.opd.addr 0 13)).valid = true)
    (hp : bit (s.dev.region (bits r.opd.addr 0 13)).publish r.hdr.reqLanding = true)
    (he : (s.dev.region (bits r.opd.addr 0 13)).version ≠ leNat (sliceBytes r.data 0 4)) :
    ∃ t, exec (.homePublish r) s = .next t ∧ t.store = s.store ∧ t.dev.home = s.dev.home ∧
      (s.dev.hasNode r.hdr.srcNode = true → t.dev.out.getLast? =
        (s.dev.respond r.hdr sConflict (natLE 4 (s.dev.region (bits r.opd.addr 0 13)).version)).out.getLast?) := by
  have hconflict : Pkg.publishIn r (s.store, s.dev) =
      (s.store, s.dev.refuseRegion r sConflict (natLE 4 (s.dev.region (bits r.opd.addr 0 13)).version)) := by
    rw [Pkg.publishIn, onRegion_valid hup hn ht hv]
    simp [hp, he, Pkg.dev]
  exact ⟨_, exec_homePublish hup, by rw [hconflict]; exact ⟨rfl, Dev.refuseRegion_kept (.refl _) rfl ..⟩⟩

end

/-- Settles O33: the grant check and what the codes find decide the answer of a read, and serving it leaves what the home looks at; a version
operation is decided by ticket, VALID, the right to publish and the version expected. -/
theorem homeReads : Obligations.HomeReads := by
  intro r s hup
  refine ⟨fun hp hav hop hgr hkey hmode hbad => homeRead_dataError hup hp hav hop hgr hkey hmode hbad, fun hh hav hop => ?_, fun hn => ?_⟩
  · obtain ⟨⟨hnode, hgpa, -⟩, -⟩ := id hh
    refine ⟨fun key hgr hkey => ?_, fun _ he ht => ?_, fun hown hno => ?_, fun ht he => ?_⟩
    · exact homeRead_granted hup hh hav hop hgr hkey
    · exact homeRead_refused hup hnode hop (by decide) (Pkg.grantCheck_read_revoking hgpa ht he)
    · exact homeRead_refused hup hnode hop (by decide) (Pkg.grantCheck_read_rights hgpa hown hno)
    · exact homeTableRead_system hup hh hav ht he
  · refine ⟨fun ht hv => ⟨?_, fun hp he => ?_, fun hp he => ?_⟩, fun _ hv => ?_, fun hno => ?_⟩
    · exact homeVersionRead_current hup hn ht hv
    · exact homePublish_swaps hup hn ht hv hp he
    · exact homePublish_conflict hup hn ht hv hp he
    · exact refused_of_onRegion hup hn (exec_homePublish hup) (.inr hv)
    · exact refused_of_onRegion hup hn (exec_homeVersionRead hup) hno

end Sys2Proof.Machine

/-!
SUPPORT. O21, register writes: a field read after another is written, a write that its register takes whole, and the registers of the TIME
page.
-/
namespace Sys2Proof.Machine

/-! ### Fields of the register table -/

theorem Dev.rd_wr_same (d : Dev) (f : Fld) (v : Nat) (h : f.lo + f.w ≤ 32) : (d.wr f v).rd f = v % 2 ^ f.w :=
  Dev.rdpi_wrpi_same d f f.page 0 v h

theorem Dev.rd_wr_ne (d : Dev) (f g : Fld) (v : Nat)
    (h : g.addr g.page 0 ≠ f.addr f.page 0 ∨ (g.lo + g.w ≤ 32 ∧ (g.lo + g.w ≤ f.lo ∨ f.lo + f.w ≤ g.lo))) :
    (d.wr f v).rd g = d.rd g := Dev.rdpi_wrpi_ne d f g f.page 0 g.page 0 v h

@[simp] theorem Dev.rd_count (d : Dev) (p i k : Nat) (f : Fld) : (d.count p i k).rd f = d.rd f := Dev.rdpi_count ..

@[simp] theorem Dev.rd_regAnswer (d : Dev) (m : Master) (st : Nat) (b : List Byte) (f : Fld) : (d.regAnswer m st b).rd f = d.rd f :=
  Dev.rdpi_regAnswer ..

@[simp] theorem tlp_tim (m : Master) (d : Dev) : (tlp m d).tim = d.tim := by unfold tlp; split <;> simp

@[simp] theorem Dev.emit_out (d : Dev) (e : Emit) : (d.emit e).out = d.out ++ [e] := rfl

theorem Dev.regAnswer_out (d : Dev) (m : Master) (st : Nat) (b : List Byte) :
    (d.regAnswer m st b).out = d.out ++ [.regData m st b] := by
  unfold Dev.regAnswer
  split <;> simp

/-- `e` is `d` in its tide time and in every register but the word at `a`. -/
structure Dev.ButWord (a : Nat) (d e : Dev) : Prop where
  tim : e.tim = d.tim
  word : ∀ b, b ≠ a → e.word b = d.word b

theorem Dev.ButWord.rd {a : Nat} {d e : Dev} (h : d.ButWord a e) (f : Fld) (hf : f.addr f.page 0 ≠ a) : e.rd f = d.rd f := by
  unfold Dev.rd Dev.rdpi
  rw [h.word _ hf]

theorem Dev.ButWord.timeState {a : Nat} {d e : Dev} (h : d.ButWord a e) (ha : a ≠ 0x2104) : e.timeState = d.timeState :=
  h.rd F.TIME_STAT_STATE ha.symm

/-! ### A write of a register that takes it whole -/

theorem fieldsWrite_taken {m : Master} {p off v : Nat} {x : Pkg} (hrun : x.2.running = true) (h : fieldsTaken x.2 m p off v) :
    (x.fieldsWrite m p off v (x.2.mayWrite m p off)).2 = fieldsStored m p off v true x := by
  obtain ⟨⟨hmay, hnone, hheld⟩, hres⟩ := h
  have hguard : ¬(ownerOnly p off = true ∧ (!x.2.mayWrite m p off) = true) := by
    rintro ⟨ho, hn⟩
    simp [hmay ho] at hn
  rw [ownerOnly] at hguard
  unfold Pkg.fieldsWrite fieldsStored
  dsimp only
  rw [if_neg hguard, hnone]
  simp [hheld, hres, hrun]

theorem regOut_taken {m : Master} {p off v : Nat} {s : State} (hopen : pageOpen s.dev m p) (hreg : plainRegister s.dev p off)
    (hv : v < 2 ^ 32) (h : fieldsTaken (tlp m s.dev) m p off v) :
    regOut m (p * 0x1000 + off) 4 v s = .next (withPkg s (fieldsStored m p off v true (s.store, tlp m s.dev))) := by
  obtain ⟨hrun, hreach, hkind, hon⟩ := hopen
  obtain ⟨ho, ho2, h4, hroute, hcmd, -⟩ := hreg
  rw [regOut_four m p off v s ho2 h4 (by have := pageKind_lt hkind; omega) hreach,
    write4_plain m p off v _ hkind (by simpa using hon) ho ho2 hroute hcmd, Nat.mod_eq_of_lt hv,
    fieldsWrite_taken (x := (s.store, tlp m s.dev)) ((tlp_running m s.dev).trans hrun) h]

/-- A field that a write reaches holds what was written. -/
theorem Dev.newWord_taken {d : Dev} {own : Bool} {p off v : Nat} {f : Fld} (hf : f ∈ fieldsAt p off) (hfix : ¬(p = 1 ∧ off = 0x114))
    (hopen : fieldOpen own f = true) (hacc : f.acc ≠ .rw1c) (hres : d.reserved p off v f = false) (hheld : d.partHeld p off f = false) :
    bits (d.newWord own p off v) f.lo f.w = bits v f.lo f.w := by
  rw [Dev.newWord_field _ _ _ _ _ f hf hfix, Dev.fieldWord]
  have hcut : bits v f.lo f.w % 2 ^ f.w = bits v f.lo f.w := Nat.mod_eq_of_lt (bits_lt v f.lo f.w)
  simp [hacc, hopen, hres, hheld, hcut]

/-! ### The registers of the TIME page (R555) -/

theorem fieldsAt_time_page {off : Nat} (ho : 0x100 ≤ off) : ∀ f ∈ fieldsAt 2 off, f.page = 2 := by
  have hflds : ∀ f ∈ fldsTIME, f.page = 2 := by decide
  intro f hf
  rw [fieldsAt, if_neg (by omega)] at hf
  exact hflds f (List.mem_filter.1 hf).1

theorem Dev.partHeld_time (d : Dev) (off : Nat) {f : Fld} (hf : f.page = 2) : d.partHeld 2 off f = false := by
  have hbulk : f ≠ F.BULK_CFG_INTERLEAVE := by rintro rfl; cases hf
  have hmode : f ≠ F.RTE_CFG_MODE := by rintro rfl; cases hf
  simp [Dev.partHeld, hbulk, hmode]

theorem Dev.reserved_time (d : Dev) (off v : Nat) {f : Fld} (hf : f.page = 2) : d.reserved 2 off v f = !f.accepts (bits v f.lo f.w) := by
  have hne : ∀ g : Fld, g.page ≠ 2 → (f == g) = false := fun g hg => beq_false_of_ne fun e => hg (e ▸ hf)
  have hring : d.nearRing 2 f off = false := by
    simp [Dev.nearRing, beq_eq_false_iff_ne.1 (hne F.FRY_SUB_BASE_HI_BASE_HI (by decide)),
      beq_eq_false_iff_ne.1 (hne F.FRY_CMP_BASE_HI_BASE_HI (by decide))]
  simp [Dev.reserved, hring, hne F.RTE_PORT_ROLE_ROLE (by decide), hne F.RTE_PORT_ROLE_GROUP (by decide),
    hne F.LND_RANK_WIN_BASE (by decide), hne F.LND_RANK_WIN_SIZE (by decide), hne F.SEC_CMD_OP (by decide)]

/-- No rule refuses a write of the owner to the TIME page whole, and it carries no reserved encoding where every field accepts its part. -/
theorem fieldsTaken_time {d : Dev} {m : Master} {off v : Nat} (ho : 0x100 ≤ off) (hown : d.owns m 2 = true)
    (hacc : ∀ f ∈ fieldsAt 2 off, f.accepts (bits v f.lo f.w) = true) : fieldsTaken d m 2 off v := by
  refine ⟨⟨fun _ => by simpa [Dev.mayWrite, isFmq] using hown, by simp [Dev.writeRefused], ?_⟩, ?_⟩
  · simp only [Dev.anyHeld, List.any_eq_false]
    intro f hf
    simp [Dev.partHeld_time d off (fieldsAt_time_page ho f hf)]
  · simp only [Dev.anyReserved, List.any_eq_false]
    intro f hf
    simp [Dev.reserved_time d off v (fieldsAt_time_page ho f hf), hacc f hf]

/-- A write of the owner that every field of a TIME register accepts is stored, and then does what the register's rules say. -/
theorem timeWrite_taken {m : Master} {off v : Nat} {s : State} (hopen : pageOpen s.dev m 2) (hown : s.dev.owns m 2 = true)
    (ho : 0x100 ≤ off) (ho2 : off < 0x1000) (h4 : off % 4 = 0) (hv : v < 2 ^ 32)
    (hacc : ∀ f ∈ fieldsAt 2 off, f.accepts (bits v f.lo f.w) = true) :
    ∃ e, s.dev.ButWord (2 * 0x1000 + off) e ∧
      (∀ f ∈ fieldsAt 2 off, f.acc = .rwo → bits (e.word (2 * 0x1000 + off)) f.lo f.w = bits v f.lo f.w) ∧
      regOut m (2 * 0x1000 + off) 4 v s = .next (withPkg s (Pkg.aonWritten m 2 off (s.dev.word (2 * 0x1000 + off))
        ((tlp m s.dev).newWord true 2 off v) v (bit v 31) (s.store, e))) := by
  have hown' : (tlp m s.dev).owns m 2 = true := by simpa [Dev.owns, Dev.rdp] using hown
  have hmay : (tlp m s.dev).mayWrite m 2 off = true := by simpa [Dev.mayWrite, isFmq] using hown'
  obtain ⟨-, -, -, hon⟩ := id hopen
  refine ⟨(tlp m s.dev).setWord (2 * 0x1000 + off) ((tlp m s.dev).newWord true 2 off v), ⟨by simp, fun b hb => ?_⟩,
    fun f hf hrwo => ?_, ?_⟩
  · rw [Dev.word_setWord_ne _ _ hb, tlp_word]
  · have hpage := fieldsAt_time_page ho f hf
    rw [Dev.word_setWord_same, bits_mod _ _ _ _ (fieldsAt_width _ _ f hf)]
    exact Dev.newWord_taken hf (by omega) (by simp [fieldOpen, hrwo]) (by simp [hrwo])
      (by simp [Dev.reserved_time _ off v hpage, hacc f hf]) (Dev.partHeld_time _ off hpage)
  · rw [regOut_taken hopen ⟨ho, ho2, h4, by simp [routeAt], by omega, hon⟩ hv (fieldsTaken_time ho hown' hacc), fieldsStored, hmay]
    simp [Pkg.written]

end Sys2Proof.Machine

/-!
SUPPORT. O21, TIME_CMD and TIME_CFG by the owner of the page.
-/
namespace Sys2Proof.Machine

/-! ### TIME_CMD (R546, R548) -/

/-- The conditions of SET and SET_AT_PPS (R548). -/
abbrev Dev.settable (d : Dev) : Prop := (d.timeState = 0 ∨ d.timeState = 4) ∧ d.tim.tide ≤ d.timeSetValue

theorem Dev.timeCmd_refused {d : Dev} (hop : d.rd F.TIME_CMD_OP = 1 ∨ d.rd F.TIME_CMD_OP = 2) (h : ¬d.settable) :
    d.timeCmd = d.wr F.TIME_CMD_RESULT_RESULT rBadState := by
  unfold Dev.timeCmd
  obtain hop | hop := hop <;> simp only [hop] <;> exact if_neg h

theorem Dev.timeCmd_set {d : Dev} (hop : d.rd F.TIME_CMD_OP = 1) (h : d.settable) :
    d.timeCmd = (d.stepTo d.timeSetValue).wr F.TIME_CMD_RESULT_RESULT rDone := by
  unfold Dev.timeCmd
  simp only [hop]
  exact if_pos h

theorem Dev.timeCmd_setAtPps {d : Dev} (hop : d.rd F.TIME_CMD_OP = 2) (h : d.settable) :
    d.timeCmd = ({ d with tim := { d.tim with ppsArmed := true } } : Dev).wr F.TIME_CMD_RESULT_RESULT rDone := by
  unfold Dev.timeCmd
  simp only [hop]
  exact if_pos h

theorem Dev.timeCmd_reacquire {d : Dev} (hop : d.rd F.TIME_CMD_OP = 3) (h : d.timeState = 2 ∨ d.timeState = 3) :
    d.timeCmd = d.toAcquire.wr F.TIME_CMD_RESULT_RESULT rDone := by
  unfold Dev.timeCmd
  simp only [hop]
  exact if_pos h

theorem Dev.timeResult_wr (d : Dev) {r : Nat} (hr : r < 4) : (d.wr F.TIME_CMD_RESULT_RESULT r).rd F.TIME_CMD_RESULT_RESULT = r :=
  (Dev.rd_wr_same d _ r (by decide)).trans (Nat.mod_eq_of_lt hr)

/-- A step to a later time (R541). -/
theorem Dev.stepTo_later {d : Dev} {t : Nat} (h : d.tim.tide < t) :
    (d.stepTo t).tim.tide = t ∧ (d.stepTo t).rd F.TIME_STAT_STEPPED = 1 := by
  rw [Dev.stepTo, if_pos h]
  exact ⟨by simp, by rw [Dev.rd_count, Dev.rd_wr_same _ _ _ (by decide)]; rfl⟩

theorem Dev.toAcquire_timeState (d : Dev) : d.toAcquire.timeState = 1 :=
  Dev.rd_wr_same d F.TIME_STAT_STATE 1 (by decide)

theorem fieldsAt_timeCmd : fieldsAt 2 0x134 = [F.TIME_CMD_OP, F.TIME_CMD_GO] := by decide

theorem fieldsAt_timeCfg : fieldsAt 2 0x100 = [F.TIME_CFG_ROOT, F.TIME_CFG_PPS_OUT_EN, F.TIME_CFG_PPS_IN_EN, F.TIME_CFG_UPSTREAM,
    F.TIME_CFG_UP_EN, F.TIME_CFG_SYNC_INTERVAL] := by decide

theorem putBit_putBits_lt {n op : Nat} (hn : n < 2 ^ 32) : putBit (putBits n 0 2 op) 31 true < 2 ^ 32 := by
  refine Nat.lt_pow_two_of_testBit _ fun i hi => ?_
  rw [putBit, testBit_putBits, testBit_putBits, if_neg (by omega), if_neg (by omega)]
  exact Nat.testBit_lt_two_pow (hn.trans_le (Nat.pow_le_pow_right (by decide) hi))

/-- GO with operation `op` of TIME_CMD by the owner of the page: the register holds `op`, and the operation runs. -/
theorem timeGo_taken {m : Master} {op : Nat} {s : State} (hopen : pageOpen s.dev m 2) (hown : s.dev.owns m 2 = true) (h1 : 1 ≤ op)
    (h3 : op ≤ 3) (v : W32) : ∃ e, s.dev.ButWord 0x2134 e ∧ e.rd F.TIME_CMD_OP = op ∧
      regField m F.TIME_CMD_GO (putBit (putBits v.toNat 0 2 op) 31 true) s = .next { s with dev := e.timeCmd } := by
  have hbits : bits (putBit (putBits v.toNat 0 2 op) 31 true) 0 2 = op := by
    rw [putBit, bits_putBits_ne _ _ _ _ _ _ (by omega), bits_putBits_same]
    omega
  have hacc : ∀ f ∈ fieldsAt 2 0x134, f.accepts (bits (putBit (putBits v.toNat 0 2 op) 31 true) f.lo f.w) = true := by
    simp [fieldsAt_timeCmd, Fld.accepts, F.TIME_CMD_OP, F.TIME_CMD_GO, hbits, h1, h3]
  obtain ⟨e, he, hrwo, hwrite⟩ := timeWrite_taken hopen hown (by decide) (by decide) (by decide) (putBit_putBits_lt v.isLt) hacc
  refine ⟨e, he, (hrwo F.TIME_CMD_OP (by simp [fieldsAt_timeCmd]) rfl).trans hbits, hwrite.trans ?_⟩
  simp [Pkg.aonWritten, bit_putBit_same, Pkg.dev, withPkg]

theorem Dev.ButWord.timeSetValue {d e : Dev} (h : d.ButWord 0x2134 e) : e.timeSetValue = d.timeSetValue := by
  unfold Dev.timeSetValue
  rw [h.rd _ (by decide), h.rd _ (by decide), h.rd _ (by decide)]

theorem Dev.ButWord.settable {d e : Dev} (h : d.ButWord 0x2134 e) : e.settable ↔ d.settable := by
  rw [Dev.settable, h.timeState (by decide), h.tim, h.timeSetValue]

section
variable {m : Master} {s : State}

/-- SET where it is accepted (R541, R548). -/
theorem timeSet_done (hopen : pageOpen s.dev m 2) (hown : s.dev.owns m 2 = true) (hset : s.dev.settable) (v : W32) :
    ∃ t, exec (.timeSet m v) s = .next t ∧ t.store = s.store ∧ t.dev.rd F.TIME_CMD_RESULT_RESULT = rDone ∧
      (s.dev.tim.tide < s.dev.timeSetValue → t.dev.tim.tide = s.dev.timeSetValue ∧ t.dev.rd F.TIME_STAT_STEPPED = 1) := by
  obtain ⟨e, he, hop, hexec⟩ := timeGo_taken hopen hown (op := 1) (by decide) (by decide) v
  refine ⟨_, hexec, rfl, ?_⟩
  rw [Dev.timeCmd_set hop (he.settable.2 hset), he.timeSetValue, ← he.tim]
  refine ⟨Dev.timeResult_wr _ (by decide), fun hlt => ?_⟩
  rw [Dev.rd_wr_ne _ _ _ _ (by decide)]
  simpa using Dev.stepTo_later hlt

/-- SET and SET_AT_PPS where they are not (R548). -/
theorem timeGo_refused (hopen : pageOpen s.dev m 2) (hown : s.dev.owns m 2 = true) (hset : ¬s.dev.settable) {op : Nat}
    (hop : op = 1 ∨ op = 2) (v : W32) :
    ∃ t, regField m F.TIME_CMD_GO (putBit (putBits v.toNat 0 2 op) 31 true) s = .next t ∧ t.store = s.store ∧
      t.dev.tim = s.dev.tim ∧ t.dev.rd F.TIME_CMD_RESULT_RESULT = rBadState := by
  obtain ⟨e, he, hrd, hexec⟩ := timeGo_taken hopen hown (op := op) (by omega) (by omega) v
  refine ⟨_, hexec, rfl, ?_⟩
  rw [Dev.timeCmd_refused (by rwa [hrd]) (he.settable.not.2 hset), ← he.tim]
  exact ⟨by simp, Dev.timeResult_wr _ (by decide)⟩

/-- SET_AT_PPS where it is accepted (R548). -/
theorem timeSetAtPps_armed (hopen : pageOpen s.dev m 2) (hown : s.dev.owns m 2 = true) (hset : s.dev.settable) (v : W32) :
    ∃ t, exec (.timeSetAtPps m v) s = .next t ∧ t.store = s.store ∧ t.dev.tim = { s.dev.tim with ppsArmed := true } ∧
      t.dev.rd F.TIME_CMD_RESULT_RESULT = rDone := by
  obtain ⟨e, he, hop, hexec⟩ := timeGo_taken hopen hown (op := 2) (by decide) (by decide) v
  refine ⟨_, hexec, rfl, ?_⟩
  rw [Dev.timeCmd_setAtPps hop (he.settable.2 hset), ← he.tim]
  exact ⟨by simp, Dev.timeResult_wr _ (by decide)⟩

/-- REACQUIRE in LOCKED and HOLDOVER (R547). -/
theorem reacquire_done (hopen : pageOpen s.dev m 2) (hown : s.dev.owns m 2 = true) (hst : s.dev.timeState = 2 ∨ s.dev.timeState = 3)
    (v : W32) : ∃ t, exec (.reacquire m v) s = .next t ∧ t.store = s.store ∧ t.dev.timeState = 1 ∧ t.dev.tim.exchange = [] ∧
      t.dev.tim.tide = s.dev.tim.tide ∧ t.dev.rd F.TIME_CMD_RESULT_RESULT = rDone := by
  obtain ⟨e, he, hop, hexec⟩ := timeGo_taken hopen hown (op := 3) (by decide) (by decide) v
  refine ⟨_, hexec, rfl, ?_⟩
  rw [Dev.timeCmd_reacquire hop (by rwa [he.timeState (by decide)]), ← he.tim]
  refine ⟨?_, by simp [Dev.toAcquire], by simp [Dev.toAcquire], Dev.timeResult_wr _ (by decide)⟩
  exact (Dev.rd_wr_ne _ _ F.TIME_STAT_STATE _ (by decide)).trans e.toAcquire_timeState

/-- ROOT written from 0 to 1 (R546). -/
theorem timeRootWrite_root (hopen : pageOpen s.dev m 2) (hown : s.dev.owns m 2 = true) {v : W32} (hroot : s.dev.rd F.TIME_CFG_ROOT = 0)
    (hbit : bit v.toNat 0 = true) (hport : bits v.toNat 8 5 < 24) (hsync : 1 ≤ bits v.toNat 16 8) :
    ∃ t, exec (.timeRootWrite m v) s = .next t ∧ t.store = s.store ∧ t.dev.timeState = 4 ∧ t.dev.rd F.TIME_CFG_ROOT = 1 ∧
      t.dev.tim = s.dev.tim := by
  have hacc : ∀ f ∈ fieldsAt 2 0x100, f.accepts (bits v.toNat f.lo f.w) = true := by
    have hcut := bits_lt v.toNat 16 8
    simp only [fieldsAt_timeCfg, List.forall_mem_cons, List.not_mem_nil, false_implies, implies_true, and_true, Fld.accepts,
      F.TIME_CFG_ROOT, F.TIME_CFG_PPS_OUT_EN, F.TIME_CFG_PPS_IN_EN, F.TIME_CFG_UPSTREAM, F.TIME_CFG_UP_EN, F.TIME_CFG_SYNC_INTERVAL,
      Bool.and_eq_true, decide_eq_true_eq, true_and]
    omega
  obtain ⟨e, he, hrwo, hwrite⟩ := timeWrite_taken hopen hown (by decide) (by decide) (by decide) v.isLt hacc
  have hnew : e.rd F.TIME_CFG_ROOT = 1 := by
    refine (hrwo F.TIME_CFG_ROOT (by simp [fieldsAt_timeCfg]) rfl).trans ?_
    simpa [bit, bits, F.TIME_CFG_ROOT] using hbit
  have hcfg : e.timeCfgWritten (bits (s.dev.word (2 * 0x1000 + 0x100)) 0 1) = e.wr F.TIME_STAT_STATE 4 := if_pos ⟨hroot, hnew⟩
  have hwritten : ∀ w x, Pkg.aonWritten m 2 0x100 (s.dev.word (2 * 0x1000 + 0x100)) w v.toNat x (s.store, e) =
      (s.store, e.wr F.TIME_STAT_STATE 4) := fun _ _ => congrArg (Prod.mk s.store) hcfg
  rw [hwritten] at hwrite
  refine ⟨_, hwrite, rfl, Dev.rd_wr_same e _ 4 (by decide), ?_, by simpa [withPkg] using he.tim⟩
  exact (Dev.rd_wr_ne e _ F.TIME_CFG_ROOT 4 (by decide)).trans hnew

end

/-- The commands of the TIME page by its owner. -/
theorem timeCommands : Said.TimeCommands := by
  intro m v s hopen hown
  refine ⟨?_, fun hset => ?_, fun hset => ?_, fun hst hval => ?_, fun hst => ?_, fun hroot hbit hport hsync => ?_⟩
  · by_cases hset : s.dev.settable
    · obtain ⟨t, hexec, hstore, hres, hlater⟩ := timeSet_done hopen hown hset v
      obtain ⟨hst, hle⟩ := hset
      refine ⟨t, hexec, hstore, fun ⟨_, hlt⟩ => ?_, fun hno => by omega⟩
      obtain ⟨htide, hstep⟩ := hlater hlt
      exact ⟨htide, hstep, hres⟩
    · obtain ⟨t, hexec, hstore, htim, hres⟩ := timeGo_refused hopen hown hset (.inl rfl) v
      exact ⟨t, hexec, hstore, fun ⟨hst, hlt⟩ => absurd ⟨hst, hlt.le⟩ hset, fun _ => ⟨htim, hres⟩⟩
  · obtain ⟨t, hexec, -, hres, -⟩ := timeSet_done hopen hown hset v
    exact ⟨t, hexec, hres⟩
  · exact timeGo_refused hopen hown hset (.inr rfl) v
  · exact timeSetAtPps_armed hopen hown ⟨hst, hval⟩ v
  · exact reacquire_done hopen hown hst v
  · exact timeRootWrite_root hopen hown hroot hbit hport hsync

end Sys2Proof.Machine

/-!
SUPPORT. O21, the pulses, the latch and the heartbeat (R542, R550, R551, R614), and the statement.
-/
namespace Sys2Proof.Machine

theorem Dev.ifPowered_on {d : Dev} (h : d.glb.off = false) (f : Dev → Dev) : d.ifPowered f = f d := by simp [Dev.ifPowered, h]

/-- A command of the always-on domain, while the package is powered. -/
theorem onDev_ifPowered {s : State} (h : s.dev.glb.off = false) (f : Dev → Dev) :
    onDev (Dev.ifPowered f) s = .next { s with dev := f s.dev } := by
  rw [onDev_eq, Dev.ifPowered_on h]

theorem Dev.servo_tim (limit : Nat) (d : Dev) : (d.servo limit).tim = d.tim := by simp [Dev.servo, Dev.draw]

/-- The servo writes no register but TIME_RATE. -/
theorem Dev.servo_rd (limit : Nat) (d : Dev) (f : Fld) (h : f.addr f.page 0 ≠ 0x2110) : (d.servo limit).rd f = d.rd f :=
  Dev.rd_wr_ne _ _ f _ (.inl h)

/-- The present time written to three registers: the two words of its ns, and the fraction. -/
def Dev.wrNow (d : Dev) (lo hi frac : Fld) : Dev :=
  ((d.wr lo (d.ns % 2 ^ 32)).wr hi (d.ns / 2 ^ 32)).wr frac (d.tim.tide % 256)

@[simp] theorem Dev.wrNow_frame (d : Dev) (lo hi frac : Fld) : (d.wrNow lo hi frac).tim = d.tim ∧ (d.wrNow lo hi frac).out = d.out := by
  simp [Dev.wrNow]

theorem Dev.latchTime_eq (d : Dev) : d.latchTime = d.wrNow F.TIME_NOW_LO_NS_LO F.TIME_NOW_HI_NS_HI F.TIME_NOW_FRAC_FRAC := rfl

/-- The three registers read the present time back, where its ns have 64 bits. -/
theorem Dev.rd_wrNow {d : Dev} {lo hi frac : Fld} (hns : d.ns < 2 ^ 64)
    (hlo : lo.lo = 0 ∧ lo.w = 32 ∧ lo.addr lo.page 0 ≠ hi.addr hi.page 0 ∧ lo.addr lo.page 0 ≠ frac.addr frac.page 0)
    (hhi : hi.lo = 0 ∧ hi.w = 32 ∧ hi.addr hi.page 0 ≠ frac.addr frac.page 0) (hfrac : frac.lo = 0 ∧ frac.w = 8) :
    (d.wrNow lo hi frac).rd lo + (d.wrNow lo hi frac).rd hi * 2 ^ 32 = d.ns ∧ (d.wrNow lo hi frac).rd frac = d.tim.tide % 256 := by
  obtain ⟨hlo0, hloW, hloHi, hloFrac⟩ := hlo
  obtain ⟨hhi0, hhiW, hhiFrac⟩ := hhi
  obtain ⟨hfrac0, hfracW⟩ := hfrac
  rw [Dev.wrNow, Dev.rd_wr_ne _ frac lo _ (.inl hloFrac), Dev.rd_wr_ne _ hi lo _ (.inl hloHi), Dev.rd_wr_ne _ frac hi _ (.inl hhiFrac),
    Dev.rd_wr_same _ lo _ (by omega), Dev.rd_wr_same _ hi _ (by omega), Dev.rd_wr_same _ frac _ (by omega), hloW, hhiW, hfracW]
  omega

/-- An edge on the root that loads nothing is captured and steers the rate (R551). -/
theorem Dev.ppsInEdge_unarmed {d : Dev} (hst : d.timeState = 4) (hen : d.rd F.TIME_CFG_PPS_IN_EN = 1) (harm : d.tim.ppsArmed = false) :
    d.ppsInEdge = ({ d.wrNow F.TIME_PPS_CAP_LO_NS_LO F.TIME_PPS_CAP_HI_NS_HI F.TIME_PPS_CAP_FRAC_FRAC with
      tim := { d.tim with ppsLast := some d.tim.tide } } : Dev).servo 10000 := by
  rw [Dev.ppsInEdge, if_pos ⟨hst, hen⟩]
  simp only [harm, Bool.false_eq_true, if_false, Dev.wr_frame]
  rfl

section
variable {s : State}

/-- An edge on the root with PPS_IN_EN is captured (R551). -/
theorem ppsInEdge_captures (hon : s.dev.glb.off = false) (hst : s.dev.timeState = 4) (hen : s.dev.rd F.TIME_CFG_PPS_IN_EN = 1)
    (harm : s.dev.tim.ppsArmed = false) (hns : s.dev.ns < 2 ^ 64) :
    ∃ t, exec .ppsInEdge s = .next t ∧ t.store = s.store ∧ t.dev.tim = { s.dev.tim with ppsLast := some s.dev.tim.tide } ∧
      t.dev.rd F.TIME_PPS_CAP_LO_NS_LO + t.dev.rd F.TIME_PPS_CAP_HI_NS_HI * 2 ^ 32 = s.dev.ns ∧
      t.dev.rd F.TIME_PPS_CAP_FRAC_FRAC = s.dev.tim.tide % 256 := by
  refine ⟨_, onDev_ifPowered hon Dev.ppsInEdge, rfl, ?_⟩
  rw [Dev.ppsInEdge_unarmed hst hen harm, Dev.servo_rd _ _ _ (by decide), Dev.servo_rd _ _ _ (by decide), Dev.servo_rd _ _ _ (by decide)]
  exact ⟨Dev.servo_tim .., Dev.rd_wrNow hns (by decide) (by decide) (by decide)⟩

/-- An edge that has not come within 1.5 s of the last one (R551). -/
theorem ppsMissed_counts (hon : s.dev.glb.off = false) {t0 : Nat} (hst : s.dev.timeState = 4) (hen : s.dev.rd F.TIME_CFG_PPS_IN_EN = 1)
    (hlast : s.dev.tim.ppsLast = some t0) (hlate : t0 + us 1500000 ≤ s.dev.tim.tide) :
    ∃ t, exec .ppsMissed s = .next t ∧ t.store = s.store ∧ t.dev.tim.ppsLast = none ∧ bit (t.dev.word 0x2014) 2 = true := by
  have hmissed : s.dev.ppsMissed = (({ s.dev with tim := { s.dev.tim with ppsLast := none } } : Dev).count 2 3 1).event 2 2 := by
    rw [Dev.ppsMissed, hlast]
    exact if_pos ⟨hst, hen, hlate⟩
  refine ⟨_, onDev_ifPowered hon Dev.ppsMissed, rfl, ?_⟩
  rw [hmissed]
  refine ⟨by simp, ?_⟩
  rw [Dev.word_event, if_pos rfl, bit_eq_testBit, Nat.testBit_mod_two_pow, ← bit_eq_testBit, bit_putBit_same]
  rfl

/-- The rise of TIME_PPS_OUT at a whole second (R550). -/
theorem ppsOutEdge_rises (hon : s.dev.glb.off = false) (hlow : s.dev.tim.ppsHigh = 0) (hen : s.dev.rd F.TIME_CFG_PPS_OUT_EN = 1)
    (hsec : s.dev.tim.lastPpsOut < s.dev.ns / 1000000000) :
    ∃ t, exec .ppsOutEdge s = .next t ∧ t.store = s.store ∧ t.dev.out = s.dev.out ++ [.pin "TIME_PPS_OUT" 1] ∧
      t.dev.regs = s.dev.regs ∧ t.dev.tim.lastPpsOut = s.dev.ns / 1000000000 := by
  refine ⟨_, onDev_ifPowered hon Dev.ppsOutEdge, rfl, ?_⟩
  rw [Dev.ppsOutEdge, if_neg (by omega), if_pos ⟨hen, hsec⟩]
  simp

/-- Its fall after 1 ms (R550). -/
theorem ppsOutEdge_falls (hon : s.dev.glb.off = false) (hhigh : 0 < s.dev.tim.ppsHigh)
    (hend : s.dev.tim.ppsHigh - 1 + us 1000 ≤ s.dev.tim.tide) :
    ∃ t, exec .ppsOutEdge s = .next t ∧ t.store = s.store ∧ t.dev.out = s.dev.out ++ [.pin "TIME_PPS_OUT" 0] ∧
      t.dev.tim.ppsHigh = 0 := by
  refine ⟨_, onDev_ifPowered hon Dev.ppsOutEdge, rfl, ?_⟩
  rw [Dev.ppsOutEdge, if_pos hhigh, if_pos (.inr hend)]
  simp

/-- A read of TIME_NOW_LO answers the low word and latches the whole count (R542). -/
theorem timeNowLoRead_latches (hon : s.dev.glb.off = false) (m : Master) (hns : s.dev.ns < 2 ^ 64) :
    ∃ t, exec (.timeNowLoRead m) s = .next t ∧ t.store = s.store ∧
      t.dev.out = s.dev.out ++ [.regData m 0 (natLE 4 (s.dev.ns % 2 ^ 32))] ∧
      t.dev.rd F.TIME_NOW_LO_NS_LO + t.dev.rd F.TIME_NOW_HI_NS_HI * 2 ^ 32 = s.dev.ns ∧
      t.dev.rd F.TIME_NOW_FRAC_FRAC = s.dev.tim.tide % 256 ∧ t.dev.tim = s.dev.tim := by
  obtain ⟨hwords, hfrac⟩ := Dev.rd_wrNow (d := s.dev) (lo := F.TIME_NOW_LO_NS_LO) (hi := F.TIME_NOW_HI_NS_HI)
    (frac := F.TIME_NOW_FRAC_FRAC) hns (by decide) (by decide) (by decide)
  refine ⟨_, onDev_ifPowered hon _, rfl, ?_⟩
  simp only [Dev.latchTime_eq, Dev.rd_regAnswer, Dev.regAnswer_frame, Dev.regAnswer_out, Dev.wrNow_frame]
  exact ⟨trivial, hwords, hfrac, trivial⟩

/-- The heartbeat at a whole millisecond, while firmware runs (R614). -/
theorem mgmtHeartbeat_counts (hon : s.dev.glb.off = false) (hrun : 1 < s.dev.rd F.GLB_BOOT_STAT_STAGE)
    (hms : s.dev.tim.lastBeat < s.dev.ns / 1000000) :
    ∃ t, exec .mgmtHeartbeat s = .next t ∧ t.store = s.store ∧
      t.dev.rd F.MGMT_HEARTBEAT_COUNT = (s.dev.rd F.MGMT_HEARTBEAT_COUNT + 1) % 2 ^ 32 ∧ t.dev.tim.lastBeat = s.dev.ns / 1000000 := by
  refine ⟨_, onDev_ifPowered hon Dev.heartbeat, rfl, ?_⟩
  rw [Dev.heartbeat, if_pos ⟨hrun, hms⟩]
  exact ⟨Dev.rd_wr_same _ F.MGMT_HEARTBEAT_COUNT _ (by decide), by simp⟩

end

theorem pulsesAndLatch : Said.PulsesAndLatch := fun _ hon =>
  ⟨ppsInEdge_captures hon, fun _ => ppsMissed_counts hon, ppsOutEdge_rises hon, ppsOutEdge_falls hon, timeNowLoRead_latches hon,
    mgmtHeartbeat_counts hon⟩

/-- Settles O21: a write of the owner to the TIME page is stored whole and then does what TIME_CMD or TIME_CFG says of the state it finds;
each pulse, latch and heartbeat is the rule of its case. -/
theorem timeCommandsAndPulses : Obligations.TimeCommandsAndPulses := ⟨timeCommands, pulsesAndLatch⟩

end Sys2Proof.Machine

/-!
SUPPORT. O10, register reads (R610–R612) and the pages that are not listed (R602), and the statement.
-/
namespace Sys2Proof.Machine

/-- An access is of 4 or of 8 bytes, aligned (R476). -/
theorem accessOk_iff {a size : Nat} : accessOk a size = true ↔ (size = 4 ∧ a % 4 = 0) ∨ (size = 8 ∧ a % 8 = 0) := by
  simp only [accessOk, Bool.and_eq_true, Bool.or_eq_true, beq_iff_eq]
  constructor
  · rintro ⟨rfl | rfl, ha⟩
    · exact .inl ⟨rfl, ha⟩
    · exact .inr ⟨rfl, ha⟩
  · rintro (⟨rfl, ha⟩ | ⟨rfl, ha⟩)
    · exact ⟨.inl rfl, ha⟩
    · exact ⟨.inr rfl, ha⟩

theorem tlp_host (d : Dev) : tlp .host d = d.count 0x18 0 1 := if_pos rfl

theorem tlp_other {m : Master} (hm : m ≠ .host) (d : Dev) : tlp m d = d := if_neg hm

/-- An 8-byte access that reaches its page is two 4-byte writes in ascending order (R476). -/
theorem regOut_eight {m : Master} {p off : Nat} {s : State} (hoff : off < 0x1000) (h8 : off % 8 = 0) (hp : p < 0x1000)
    (hreach : s.dev.reaches m true p = true) (v : Nat) :
    regOut m (p * 0x1000 + off) 8 v s = .next (withPkg s (Pkg.write4 m (p * 0x1000 + off + 4) (v / 2 ^ 32)
      (Pkg.write4 m (p * 0x1000 + off) v (s.store, tlp m s.dev)).2).2) := by
  have hacc : accessOk (p * 0x1000 + off) 8 = true := accessOk_iff.2 (.inr ⟨rfl, by omega⟩)
  have htlp : (if m = .host then Pkg.dev (fun d => d.count 0x18 0 1) (s.store, s.dev) else (s.store, s.dev)) =
      (s.store, tlp m s.dev) := by
    unfold tlp
    split <;> rfl
  unfold regOut
  rw [if_neg (by omega)]
  simp [Pkg.regWrite, page_div p off hoff, hreach, hacc, htlp, withPkg]

/-! ### A read without a latch -/

/-- Where no counter stands and neither tide time, energy nor a running scrub is read, a read answers the word and latches nothing. -/
theorem Dev.readReg_plain (d : Dev) {a : Nat} (hcnt : counterAt (a / 0x1000) (a % 0x1000) = none) (htime : a ≠ 0x2118)
    (hmj : a ≠ F.PWR_ENERGY_LO_MJ_LO.addr 1 0) (hscrub : ¬(a = 0x311C ∧ d.tenancy = 5)) : d.readReg a = (d.readWord a, d) := by
  unfold Dev.readReg
  dsimp only
  rw [if_neg htime, if_neg hmj, if_neg hscrub, hcnt, ite_self]

theorem Dev.readBytes_four {d : Dev} {a : Nat} (h : d.readReg a = (d.readWord a, d)) : d.readBytes a 4 = (natLE 4 (d.readWord a), d) := by
  simp [Dev.readBytes, h]

section
variable {a : Nat} {s : State}

/-- REG_READ over the sideband (R611). -/
theorem regRead_plain (ha : a < 2 ^ 24) (h4 : a % 4 = 0) (hread : s.dev.readReg a = (s.dev.readWord a, s.dev))
    (hon : s.dev.glb.off = false) (hreach : s.dev.sidebandReaches false (a / 0x1000) = true) :
    exec (.regRead a) s = .next { s with dev := s.dev.emit (.regData .mgmt 0 (natLE 4 (s.dev.readWord a))) } := by
  have hanswer : s.dev.sidebandRead a = s.dev.emit (.regData .mgmt 0 (natLE 4 (s.dev.readWord a))) := by
    simp [Dev.sidebandRead, hon, accessOk_iff, h4, hreach, Dev.readBytes_four hread, Dev.regAnswer]
  refine (if_neg (by omega) : execRegRead a s = _).trans ?_
  rw [onDev_eq, hanswer]

/-- REG_READ by message (R612). -/
theorem fmRegRead_plain (ha : a < 2 ^ 24) (h4 : a % 4 = 0) (hread : s.dev.readReg a = (s.dev.readWord a, s.dev)) {src : Nat}
    (hrun : s.dev.running = true) (hfm : s.dev.fmAllowed src = true) :
    exec (.fmRegRead src a 4) s = .next { s with dev := s.dev.ctrl src (.regReply sOk (natLE 4 (s.dev.readWord a))) } := by
  have hanswer : s.dev.fmRead src (a % 2 ^ 24) 4 = s.dev.ctrl src (.regReply sOk (natLE 4 (s.dev.readWord a))) := by
    rw [Nat.mod_eq_of_lt ha]
    simp [Dev.fmRead, Dev.fromFm, hfm, accessOk_iff, h4, Dev.readBytes_four hread]
  refine (onDev_eq _ s).trans ?_
  rw [Dev.ifRuns, if_pos hrun, hanswer]

end

/-! ### Pages that the table does not list (R602) -/

section
variable {p off : Nat}

theorem Dev.readWord_unlisted (d : Dev) (hoff : off < 0x1000) (hk : pageKind p = none) : d.readWord (p * 0x1000 + off) = 0 := by
  simp [Dev.readWord, page_div p off hoff, hk]

theorem counterAt_unlisted (hk : pageKind p = none) (off : Nat) : counterAt p off = none := by
  simp [counterAt, pageCounters, hk]

/-- The registers with a latch stand on listed pages. -/
theorem Dev.readReg_unlisted (d : Dev) (hoff : off < 0x1000) (hk : pageKind p = none) :
    d.readReg (p * 0x1000 + off) = (0, d) := by
  have hne : ∀ q, (pageKind q).isSome = true → p ≠ q := by
    rintro _ hq rfl
    simp [hk] at hq
  have hpwr := hne 1 (by decide)
  have htime := hne 2 (by decide)
  have hsec := hne 3 (by decide)
  have henergy : F.PWR_ENERGY_LO_MJ_LO.addr 1 0 / 0x1000 = 1 := by decide
  rw [Dev.readReg_plain d (by rw [page_div p off hoff]; exact counterAt_unlisted hk _) (by omega) (by omega) (by omega),
    Dev.readWord_unlisted d hoff hk]

/-- A word written by the host to such a page is captured in the PCIE page. -/
theorem write4_unlisted_host (hoff : off < 0x1000) (hk : pageKind p = none) (v : Nat) (x : Pkg) :
    Pkg.write4 .host (p * 0x1000 + off) v x = (false, x.dev (Dev.undefinedPage (p * 0x1000 + off))) := by
  simp only [Pkg.write4, page_div p off hoff, hk]
  rfl

/-- One written by another master is ignored. -/
theorem write4_unlisted_other {m : Master} (hm : m ≠ .host) (hoff : off < 0x1000) (hk : pageKind p = none) (v : Nat) (x : Pkg) :
    Pkg.write4 m (p * 0x1000 + off) v x = (false, x) := by
  simp [Pkg.write4, page_div p off hoff, hk, hm]

variable {s : State} (hp : p < 4096) (hoff : off < 0x1000) (hk : pageKind p = none)
include hp hoff hk

theorem registerWrite_unlisted_other {m : Master} {size : Nat} (hm : m ≠ .host) (hacc : accessOk off size = true)
    (hreach : s.dev.reaches m true p = true) (v : Nat) : exec (.registerWrite m (p * 0x1000 + off) size v) s = .next s := by
  obtain ⟨rfl, h4⟩ | ⟨rfl, h8⟩ := accessOk_iff.1 hacc
  · refine (regOut_four m p off v s hoff h4 hp hreach).trans ?_
    rw [write4_unlisted_other hm hoff hk, tlp_other hm]
    rfl
  · refine (regOut_eight hoff h8 hp hreach v).trans ?_
    rw [write4_unlisted_other hm hoff hk, Nat.add_assoc, write4_unlisted_other hm (by omega) hk, tlp_other hm]
    rfl

theorem registerWrite_unlisted_host_four (h4 : off % 4 = 0) (hreach : s.dev.reaches .host true p = true) (v : Nat) :
    exec (.registerWrite .host (p * 0x1000 + off) 4 v) s =
      .next { s with dev := (s.dev.count 0x18 0 1).undefinedPage (p * 0x1000 + off) } := by
  refine (regOut_four .host p off v s hoff h4 hp hreach).trans ?_
  rw [write4_unlisted_host hoff hk, tlp_host]
  rfl

theorem registerWrite_unlisted_host_eight (h8 : off % 8 = 0) (hreach : s.dev.reaches .host true p = true) (v : Nat) :
    exec (.registerWrite .host (p * 0x1000 + off) 8 v) s = .next { s with
      dev := ((s.dev.count 0x18 0 1).undefinedPage (p * 0x1000 + off)).undefinedPage (p * 0x1000 + off + 4) } := by
  refine (regOut_eight hoff h8 hp hreach v).trans ?_
  rw [write4_unlisted_host hoff hk, Nat.add_assoc, write4_unlisted_host (by omega) hk, tlp_host]
  rfl

end

theorem registerReads : Said.RegisterReads := by
  intro p off s hoff h4 hcnt htime hmj hscrub hp
  have hread : s.dev.readReg (p * 0x1000 + off) = (s.dev.readWord (p * 0x1000 + off), s.dev) :=
    s.dev.readReg_plain (by rwa [page_div p off hoff, page_mod p off hoff]) htime hmj hscrub
  refine ⟨fun hon hreach => ?_, fun src hrun hfm => ?_, fun hk => ?_⟩
  · exact regRead_plain (by omega) (by omega) hread hon (by rwa [page_div p off hoff])
  · exact fmRegRead_plain (by omega) (by omega) hread hrun hfm
  · exact s.dev.readWord_unlisted hoff (Option.isNone_iff_eq_none.1 hk)

theorem unlistedPages : Said.UnlistedPages := by
  intro m p off size v s hp hoff hacc hk hreach
  refine ⟨s.dev.readWord_unlisted hoff hk, congrArg Prod.fst (s.dev.readReg_unlisted hoff hk), fun hm => ?_, ?_, ?_⟩
  · exact registerWrite_unlisted_other hp hoff hk hm hacc hreach v
  · rintro rfl rfl
    have h4 : off % 4 = 0 := by simpa [accessOk_iff] using hacc
    exact ⟨_, registerWrite_unlisted_host_four hp hoff hk h4 hreach v, rfl, rfl, rfl⟩
  · rintro rfl rfl
    have h8 : off % 8 = 0 := by simpa [accessOk_iff] using hacc
    exact ⟨_, registerWrite_unlisted_host_eight hp hoff hk h8 hreach v, rfl, rfl, rfl⟩

/-- Settles O10: a read that meets no latch answers the word of its register and changes nothing else; no latch stands on a page that is not
listed, and each word written there is ignored, or captured where the host wrote it. -/
theorem registerAccess : Obligations.RegisterAccess := ⟨registerReads, unlistedPages⟩

end Sys2Proof.Machine


/-!
SUPPORT. O1 to O3, O58, O59: how a command acts on the state. Every command takes one of few paths, and none of them touches the queue,
or writes pool memory while the core does not run.
-/
namespace Sys2Proof.Machine

/-- The ways in which a command acts on `s`, with what it answers: on everything but pool memory; on the whole package while the core runs
(and the SWITCH domain has power); as a register access; or as one of the three rows that act on the package otherwise. -/
inductive Path (s : State) : Host.Outcome State Fault Refusal → Prop
  | dev (f : Dev → Dev) : Path s (onDev f s)
  | running (f : Pkg → Pkg) : Path s (onAll (fun x => if x.2.running then f x else x) s)
  | pkg (f : Pkg → Pkg) : Path s (onPkg f s)
  | write (m : Master) (a size v : Nat) : Path s (regOut m a size v s)
  | read (a : Nat) : Path s (execRegRead a s)
  | stay : Path s (.next s)
  | brake : Path s (execBrakeRelease s)

theorem Path.field {s : State} (m : Master) (f : Fld) (v : Nat) : Path s (regField m f v s) := by
  unfold regField
  exact .write m _ 4 v

theorem Path.go {s : State} (m : Master) (f : Fld) (op : Nat) : Path s (regGo m f op s) := by
  unfold regGo
  exact .field m f _

theorem Path.slipForm {s : State} (m : Master) (stage : Nat) : Path s (slipForm m stage s) := by
  unfold Machine.slipForm
  split
  · exact .go m _ 4
  · exact .stay

/-- A command of either form. -/
theorem Path.extForm {s : State} (o : ExtOp) (op : Nat) (c : Cmd ExtArgs) : Path s (extForm o op c s) := by
  cases c with
  | reg m => exact .go m _ op
  | msg src a => exact .pkg _

theorem Path.regionForm {s : State} (b : Bool) (op : Nat) (c : Cmd RegionArgs) : Path s (regionForm b op c s) := by
  cases c with
  | reg m => exact .go m _ op
  | msg src a => exact .pkg _

theorem Path.rcvForm {s : State} (n : String) (op : Nat) (r : Nat → Dev → Nat × Dev) (c : Cmd NodeGen) :
    Path s (rcvForm n op r c s) := by
  cases c with
  | reg m => exact .go m _ op
  | msg src a => exact .pkg _

theorem Path.secForm {s : State} {α : Type} (op : Nat) (t : α → Nat) (c : Cmd α) : Path s (secForm op t c s) := by
  cases c with
  | reg m => exact .go m _ op
  | msg src a => exact .pkg _

/-- The path of each command but the loss of VDD_AON. -/
theorem exec_path (c : Instr) (hc : c ≠ .vddAonLoss) (s : State) : Path s (exec c s) := by
  cases c
  case vddAonLoss => exact absurd rfl hc
  case regRead a => exact .read a
  case brakeRelease => exact .brake
  case extGrant | extWiden | extRevoke | extReserve | extRelease => exact .extForm ..
  case regionCreate | regionDestroy => exact .regionForm ..
  case rcvNodeLost | rcvNodeFound | rcvSourceReset => exact .rcvForm ..
  case stagedClear | assign | close | bump | scrub => exact .secForm ..
  case protBind c =>
    cases c with
    | reg m => dsimp only [exec, execProtBind]; exact .field ..
    | msg src a => exact .pkg _
  case arm c | disarm c =>
    cases c with
    | reg m => dsimp only [exec, execArm, execDisarm]; exact .go ..
    | msg src a => exact .pkg _
  case slipwayTransit c | slipwayServing c =>
    cases c with
    | reg m => exact .slipForm m _
    | msg src a => exact .pkg _
  case bootStageComplete | moorQuiesced | moorStepComplete | moorEntryTimeout | moorExitComplete | domainOn | domainOff | fmRegWrite =>
    exact .running _
  case xltInvGo | homeBitmapClr | bulkCfgWrite | snapshot | protCfgWrite | rteCfgWrite | timeSet | timeSetAtPps | reacquire |
      timeRootWrite | idle | moor | wake | capWrite | peakClr | pwrDomReqWrite | join | fmqGo =>
    dsimp only [exec, execXltInvGo, execHomeBitmapClr, execBulkCfgWrite, execSnapshot, execProtCfgWrite, execRteCfgWrite, execTimeSet,
      execTimeSetAtPps, execReacquire, execTimeRootWrite, execIdle, execMoor, execWake, execCapWrite, execPeakClr,
      execPwrDomReqWrite, execJoin, execFmqGo]
    exact .field ..
  case registerWrite | blkOwnerWrite | blkQuiesce | blkEnable | softReset | cntFreeze | cntClear | blkIsrClear | blkItr |
      blkIerWrite | capRearm | lowClr | lndFenceGo | fltRingCons | protGroupWrite | pntProgInv | frySubCfgWrite |
      fryCmpCfgWrite | routeEntryWrite | rtePortRoleWrite | linkEnable | linkDisable | prtWidthCmd | eyeScanGo | eyeScanStop |
      rcvCfgWrite | regWrite | fltRingCfgWrite | lndCfgWrite | lndRankDataWrite =>
    dsimp only [exec, execRegisterWrite, execBlkOwnerWrite, execBlkQuiesce, execBlkEnable, execSoftReset, execCntFreeze, execCntClear,
      execBlkIsrClear, execBlkItr, execBlkIerWrite, execCapRearm, execLowClr, execLndFenceGo, execFltRingCons,
      execProtGroupWrite, execPntProgInv, execFrySubCfgWrite, execFryCmpCfgWrite, execRouteEntryWrite, execRtePortRoleWrite,
      execLinkEnable, execLinkDisable, execPrtWidthCmd, execEyeScanGo, execEyeScanStop, execRcvCfgWrite, execRegWrite,
      execFltRingCfgWrite, execLndCfgWrite, execLndRankDataWrite]
    exact .write ..
  case svnCommit => dsimp only [exec, execSvnCommit]; exact .go ..
  all_goals first | exact .dev _ | exact .pkg _

/-! ### What each path keeps -/

/-- A path ends with a next state that has the queue it was given, or with a fault, outside BAR0. -/
theorem Path.answers {s : State} {o : Host.Outcome State Fault Refusal} (h : Path s o) :
    (∃ x : Pkg, o = .next (withPkg s x)) ∨ ∃ a, 2 ^ 24 ≤ a ∧ o = .fault (.outsideBar0 a) := by
  cases h with
  | dev f => exact .inl ⟨(s.store, f s.dev), rfl⟩
  | running f | pkg f => exact .inl ⟨_, rfl⟩
  | stay => exact .inl ⟨(s.store, s.dev), rfl⟩
  | brake => exact .inl ⟨_, rfl⟩
  | write m a size v =>
    unfold regOut
    split
    · exact .inr ⟨a, ‹_›, rfl⟩
    · exact .inl ⟨_, rfl⟩
  | read a =>
    unfold execRegRead
    split
    · exact .inr ⟨a, ‹_›, rfl⟩
    · exact .inl ⟨(s.store, _), rfl⟩

/-- As `Path.answers`, of every command. -/
theorem exec_answers (c : Instr) (s : State) :
    (∃ x : Pkg, exec c s = .next (withPkg s x)) ∨ ∃ a, 2 ^ 24 ≤ a ∧ exec c s = .fault (.outsideBar0 a) := by
  by_cases hc : c = .vddAonLoss
  · subst hc
    exact .inl ⟨vddAonLoss (s.store, s.dev), rfl⟩
  · exact (exec_path c hc s).answers

/-- Settles O1: `step` is that case of its definition. -/
theorem stepRunsFrontCommand : Obligations.StepRunsFrontCommand := by
  intro s c rest h
  simp only [step, h]

/-- Settles O2: every path ends with the package changed in the state it was given. -/
theorem commandsKeepQueue : Obligations.CommandsKeepQueue := by
  intro c s t h
  obtain ⟨x, hx⟩ | ⟨a, -, ha⟩ := exec_answers c s
  · rw [h] at hx
    have ht : t = withPkg s x := Host.Outcome.next.inj hx
    rw [ht]
    rfl
  · rw [h] at ha
    cases ha

/-- Settles O3. -/
theorem everyCommandAnswers : Obligations.EveryCommandAnswers := fun c s =>
  (exec_answers c s).imp_left fun ⟨x, hx⟩ => ⟨withPkg s x, hx⟩

/-! ### Register writes while the core does not run -/

@[simp] theorem Dev.setRoute_glb (d : Dev) (b : Bool) (k v : Nat) : (d.setRoute b k v).glb = d.glb := by
  unfold Dev.setRoute
  split <;> rfl

@[simp] theorem Pkg.dev_fst (f : Dev → Dev) (x : Pkg) : (x.dev f).1 = x.1 := rfl

@[simp] theorem Pkg.dev_snd (f : Dev → Dev) (x : Pkg) : (x.dev f).2 = f x.2 := rfl

section
variable {m : Master} {p off v : Nat} {own : Bool} {x : Pkg}

/-- BLK_CTRL alone goes on to the package, and only while the core runs. -/
theorem Pkg.headerWrite_store (hr : x.2.running = false) : (x.headerWrite m p off v own).2.1 = x.1 := by
  have hn : ¬x.2.running = true := by simp [hr]
  unfold Pkg.headerWrite
  split
  · exact Pkg.dev_fst _ _
  · dsimp only
    split
    · exact Pkg.dev_fst _ _
    · split
      · exact Pkg.dev_fst _ _
      · split
        · exact Pkg.dev_fst _ _
        · split
          · exact Pkg.dev_fst _ _
          · split
            · split
              · exact Pkg.dev_fst _ _
              · rfl
            · exact Pkg.dev_fst _ _

@[simp] theorem Dev.isrSet_glb (d : Dev) (p v : Nat) : (d.isrSet p v).glb = d.glb := by simp [Dev.isrSet]

@[simp] theorem Dev.ierSet_glb (d : Dev) (p w : Nat) : (d.ierSet p w).glb = d.glb := by simp [Dev.ierSet]

@[simp] theorem Dev.rearm_glb (d : Dev) (p v : Nat) : (d.rearm p v).glb = d.glb := by
  unfold Dev.rearm
  split <;> simp

theorem Pkg.headerWrite_glb (hoff : off ≠ 0x0C) : (x.headerWrite m p off v own).2.2.glb = x.2.glb := by
  unfold Pkg.headerWrite
  rw [if_neg hoff]
  split
  · exact (by simp : (x.2.dropWrite m p off v 1).glb = x.2.glb)
  · dsimp only
    split
    · exact Dev.ierSet_glb ..
    · split
      · exact Dev.isrSet_glb ..
      · split
        · exact Dev.rearm_glb ..
        · split
          · split <;> simp
          · simp

theorem Pkg.routeWrite_store {r : Bool × Nat × Bool} : (x.routeWrite m p off v own r).2.1 = x.1 := by
  unfold Pkg.routeWrite
  split_ifs <;> rfl

theorem Pkg.routeWrite_glb {r : Bool × Nat × Bool} : (x.routeWrite m p off v own r).2.2.glb = x.2.glb := by
  unfold Pkg.routeWrite
  split
  · simp
  · split
    · simp
    · dsimp only
      rw [apply_ite Dev.glb]
      simp

theorem Pkg.pwrCmdWrite_store : (x.pwrCmdWrite m v own).2.1 = x.1 := by
  unfold Pkg.pwrCmdWrite
  dsimp only
  split_ifs <;> rfl

/-- What a register write sets going waits for the core. -/
theorem Pkg.fieldsWrite_held (hr : x.2.running = false) :
    (x.fieldsWrite m p off v own).2.1 = x.1 ∧ (x.fieldsWrite m p off v own).2.2.glb = x.2.glb := by
  unfold Pkg.fieldsWrite
  dsimp only
  split
  · refine ⟨rfl, ?_⟩
    rw [Pkg.dev_snd]
    split <;> simp
  · split
    · simp
    · simp
    · rw [if_neg (by simp [hr] : ¬x.2.running = true)]
      refine ⟨rfl, ?_⟩
      split_ifs <;> simp

theorem Pkg.write4_store {a : Nat} (hr : x.2.running = false) : (x.write4 m a v).2.1 = x.1 := by
  unfold Pkg.write4
  dsimp only
  split
  · split <;> rfl
  · split
    · split <;> rfl
    · split
      · rfl
      · split
        · exact Pkg.headerWrite_store hr
        · split
          · exact Pkg.pwrCmdWrite_store
          · split
            · exact Pkg.routeWrite_store
            · exact (Pkg.fieldsWrite_held hr).1

@[simp] theorem Dev.ownerWrite_glb (d : Dev) (m : Master) (p v : Nat) : (d.ownerWrite m p v).2.glb = d.glb := by
  unfold Dev.ownerWrite
  dsimp only
  split <;> simp

/-- The first half of an access of 8 bytes does not let the core run: neither BLK_CTRL nor PWR_CMD lies at a multiple of 8. -/
theorem Pkg.write4_glb {a : Nat} (hr : x.2.running = false) (ha : a % 8 = 0) : (x.write4 m a v).2.2.glb = x.2.glb := by
  unfold Pkg.write4
  dsimp only
  split
  · split <;> simp
  · split
    · split <;> simp
    · split
      · simp
      · split
        · exact Pkg.headerWrite_glb (by omega)
        · rw [if_neg (by omega)]
          split
          · exact Pkg.routeWrite_glb
          · exact (Pkg.fieldsWrite_held hr).2

theorem Pkg.regWrite_store {a size : Nat} (hr : x.2.running = false) : (x.regWrite m a size v).2.1 = x.1 := by
  unfold Pkg.regWrite
  split
  · rfl
  · dsimp only
    have hy : (if m = .host then x.dev (fun d => d.count 0x18 0 1) else x).2.running = false := by
      split
      · simpa [Dev.running] using hr
      · exact hr
    have hfst : (if m = .host then x.dev (fun d => d.count 0x18 0 1) else x).1 = x.1 := by split <;> rfl
    generalize (if m = .host then x.dev (fun d => d.count 0x18 0 1) else x) = y at hy hfst ⊢
    rw [← hfst]
    split
    · split <;> rfl
    · next hok =>
      split
      · next h8 =>
        have ha : a % 8 = 0 := by simpa [accessOk, h8] using hok
        have hz : (y.write4 m a v).2.2.running = false := by
          simpa [Dev.running, Pkg.write4_glb hy ha] using hy
        exact (Pkg.write4_store hz).trans (Pkg.write4_store hy)
      · exact Pkg.write4_store hy

end

/-- No path but the loss of VDD_AON writes pool memory while the core does not run. -/
theorem Path.store_held {s t : State} {o : Host.Outcome State Fault Refusal} (h : Path s o) (hr : s.dev.running = false)
    (ht : o = .next t) : t.store = s.store := by
  cases h with
  | dev f => cases ht; rfl
  | running f => cases ht; simp [hr]
  | pkg f => cases ht; simp [Pkg.ifRuns, hr]
  | stay => cases ht; rfl
  | brake => cases ht; simp [hr]
  | write m a size v =>
    unfold regOut at ht
    split at ht
    · cases ht
    · cases ht
      exact Pkg.regWrite_store hr
  | read a =>
    unfold execRegRead at ht
    split at ht <;> cases ht
    rfl

/-- Settles O59: by the paths of the commands. -/
theorem heldCoreKeepsMemory : Obligations.HeldCoreKeepsMemory := fun c s _ hr hc ht => (exec_path c hc s).store_held hr ht

/-- Settles O58: by evaluation of the reset state. -/
theorem resetForm : Obligations.ResetForm := by
  unfold Obligations.ResetForm
  decide +kernel

end Sys2Proof.Machine


/-!
SUPPORT. O4, what the access code of a field makes of a write (R7, R9, R508).
-/
namespace Sys2Proof.Machine

/-- The bits of `b` without those of `x`. -/
theorem testBit_sub_land (b x i : Nat) : (b - Nat.land b x).testBit i = (b.testBit i && !x.testBit i) := by
  change (b - (b &&& x)).testBit i = _
  induction i generalizing b x with
  | zero =>
    have hmod : (b &&& x) % 2 = b % 2 &&& x % 2 := Nat.and_mod_two_pow (n := 1)
    have hsub : ∀ c, c ≤ b → c % 2 ≤ b % 2 → (b - c) % 2 = b % 2 - c % 2 := by omega
    have hle : (b &&& x) % 2 ≤ b % 2 := hmod.trans_le Nat.and_le_left
    simp only [Nat.testBit_zero, hsub _ Nat.and_le_left hle, hmod]
    obtain hb | hb := Nat.mod_two_eq_zero_or_one b <;> obtain hx | hx := Nat.mod_two_eq_zero_or_one x <;> simp [hb, hx]
  | succ i ih =>
    have hdiv : (b &&& x) / 2 = b / 2 &&& x / 2 := Nat.and_div_two
    have hmod : (b &&& x) % 2 ≤ b % 2 := (Nat.and_mod_two_pow (n := 1)).trans_le Nat.and_le_left
    have hhalf : ∀ c, c % 2 ≤ b % 2 → c ≤ b → (b - c) / 2 = b / 2 - c / 2 := by omega
    rw [Nat.testBit_succ, hhalf _ hmod Nat.and_le_left, hdiv, ih, Nat.testBit_succ, Nat.testBit_succ]

section
variable {d : Dev} {own : Bool} {p off v w : Nat} {f : Fld}

/-- A field that the write does not reach, or that takes no value, keeps its bits. -/
theorem Dev.fieldWord_keeps (hacc : f.acc ≠ .rw1c) (h : fieldOpen own f = false ∨ d.reserved p off v f = true) :
    d.fieldWord own p off v w f = w := by
  unfold Dev.fieldWord
  dsimp only
  rw [if_neg hacc, if_neg]
  rintro ⟨ho, hr, -⟩
  obtain h | h := h
  · simp [h] at ho
  · simp [h] at hr

theorem Dev.fieldWord_rw1c (hacc : f.acc = .rw1c) {i : Nat} (hi : i < f.w) :
    bit (d.fieldWord own p off v w f) (f.lo + i) = (bit w (f.lo + i) && !bit v (f.lo + i)) := by
  unfold Dev.fieldWord
  dsimp only
  have hput : f.lo ≤ f.lo + i ∧ f.lo + i < f.lo + f.w := by omega
  simp only [if_pos hacc, bit_eq_testBit, testBit_putBits, if_pos hput, testBit_sub_land, testBit_bits]
  simp [hi]

end

/-- A bit of a field is one of its word. -/
theorem bit_of_bits {n k lo w i : Nat} (h : bits n lo w = bits k lo w) (hi : i < w) : bit n (lo + i) = bit k (lo + i) := by
  have := congrArg (fun m => m.testBit i) h
  simpa [testBit_bits, hi, bit_eq_testBit] using this

/-- Settles O4: a field of the new word is what its own rule makes of the old one. -/
theorem accessCodes : Obligations.AccessCodes := by
  intro d own p off v f hf hfix
  have hnew := d.newWord_field own p off v f hf hfix
  have hkeep : f.acc ≠ .rw1c → fieldOpen own f = false ∨ d.reserved p off v f = true →
      bits (d.newWord own p off v) f.lo f.w = bits (d.word (p * 0x1000 + off)) f.lo f.w := fun hacc h => by
    rw [hnew, Dev.fieldWord_keeps hacc h]
  refine ⟨fun h => ?_, fun hacc i hi => ?_, fun hacc hres hheld => ?_, fun hacc hown hres hheld => ?_, fun hacc hown => ?_,
    fun hres hacc => hkeep hacc (.inr hres)⟩
  · obtain h | h := h
    · exact hkeep (by simp [h]) (.inl (by simp [fieldOpen, h]))
    · exact hkeep (by simp [h]) (.inl (by simp [fieldOpen, h]))
  · rw [bit_of_bits hnew hi, Dev.fieldWord_rw1c hacc hi]
  · exact Dev.newWord_taken hf hfix (by simp [fieldOpen, hacc]) (by simp [hacc]) hres hheld
  · exact Dev.newWord_taken hf hfix (by simp [fieldOpen, hacc, hown]) (by simp [hacc]) hres hheld
  · exact hkeep (by simp [hacc]) (.inl (by simp [fieldOpen, hacc, hown]))

end Sys2Proof.Machine


/-!
SUPPORT. O5, the writes that a page accepts, by each of their paths (R7, R9, R612).
-/
namespace Sys2Proof.Machine

section
variable {m : Master} {p off v : Nat}

/-- A write of a register that no rule refuses, and that is not held in part, by a master that may write it. -/
theorem fieldsWrite_open {x : Pkg} {act : Bool} (hrun : x.2.running = true) (h : fieldsOpen x.2 m p off v)
    (hact : x.2.anyReserved (x.2.mayWrite m p off) p off v = !act) :
    x.fieldsWrite m p off v (x.2.mayWrite m p off) = (false, fieldsStored m p off v act x) := by
  obtain ⟨hmay, hnone, hheld⟩ := h
  have hguard : ¬(ownerOnly p off = true ∧ (!x.2.mayWrite m p off) = true) := by
    rintro ⟨ho, hn⟩
    simp [hmay ho] at hn
  rw [ownerOnly] at hguard
  unfold Pkg.fieldsWrite fieldsStored
  dsimp only
  rw [if_neg hguard, hnone]
  cases act <;> simp [hheld, hact, hrun]

/-- The same write as one access of 4 bytes. -/
theorem write4_open {x : Pkg} {act : Bool} (hopen : pageOpen x.2 m p) (hreg : plainRegister x.2 p off) (hv : v < 2 ^ 32)
    (h : fieldsOpen x.2 m p off v) (hact : x.2.anyReserved (x.2.mayWrite m p off) p off v = !act) :
    x.write4 m (p * 0x1000 + off) v = (false, fieldsStored m p off v act x) := by
  obtain ⟨hrun, -, hkind, hon⟩ := hopen
  obtain ⟨ho, ho2, -, hroute, hcmd, -⟩ := hreg
  rw [write4_plain m p off v x hkind hon ho ho2 hroute hcmd, Nat.mod_eq_of_lt hv, fieldsWrite_open hrun h hact]

@[simp] theorem tlp_rd (m : Master) (d : Dev) (f : Fld) : (tlp m d).rd f = d.rd f := tlp_rdpi ..

theorem tlp_reaches (m' : Master) (d : Dev) (w : Bool) : (tlp m' d).reaches m w p = d.reaches m w p := by
  have hport : (tlp m' d).host = d.host := by
    unfold tlp
    split <;> simp
  cases m <;> simp [Dev.reaches, Dev.sidebandReaches, Dev.barOpen, hport]

/-- A register write that arrives as a command of its own. -/
theorem regOut_open {s : State} {act : Bool} (hopen : pageOpen s.dev m p) (hreg : plainRegister s.dev p off) (hv : v < 2 ^ 32)
    (h : fieldsOpen (tlp m s.dev) m p off v)
    (hact : (tlp m s.dev).anyReserved ((tlp m s.dev).mayWrite m p off) p off v = !act) :
    regOut m (p * 0x1000 + off) 4 v s = .next (withPkg s (fieldsStored m p off v act (s.store, tlp m s.dev))) := by
  obtain ⟨hrun, hreach, hkind, hon⟩ := id hopen
  obtain ⟨ho, ho2, h4, hroute, hcmd, -⟩ := id hreg
  have hopen' : pageOpen (tlp m s.dev) m p := ⟨by simpa using hrun, by rwa [tlp_reaches], hkind, by simpa using hon⟩
  rw [regOut_four m p off v s ho2 h4 (by have := pageKind_lt hkind; omega) hreach,
    write4_open (x := (s.store, tlp m s.dev)) hopen' ⟨ho, ho2, h4, hroute, hcmd, by simpa using hon⟩ hv h hact]

/-- A register write by message is answered OK (R612). -/
theorem fmRegWrite_open {src : Nat} {s : State} {act : Bool} (hopen : pageOpen s.dev .fm p) (hreg : plainRegister s.dev p off)
    (hv : v < 2 ^ 32) (hsrc : s.dev.fmAllowed src = true) (h : fieldsOpen s.dev .fm p off v)
    (hact : s.dev.anyReserved (s.dev.mayWrite .fm p off) p off v = !act) :
    exec (.fmRegWrite src (p * 0x1000 + off) 4 v) s =
      .next (withPkg s ((fieldsStored .fm p off v act (s.store, s.dev)).dev (fun d => d.ctrl src (.regReply sOk [])))) := by
  obtain ⟨hrun, hreach, hkind, -⟩ := id hopen
  obtain ⟨ho, ho2, h4, -⟩ := id hreg
  have hp := pageKind_lt hkind
  have hcut : (p * 0x1000 + off) % 2 ^ 24 = p * 0x1000 + off := Nat.mod_eq_of_lt (by omega)
  have hok : accessOk (p * 0x1000 + off) 4 = true := by
    simp [accessOk]
    omega
  have hwrite := write4_open (x := (s.store, s.dev)) hopen hreg hv h hact
  have hpage := page_div p off ho2
  show execFmRegWrite .. = _
  unfold execFmRegWrite
  simp only [onAll_eq, hrun, if_true, Pkg.fmWrite, hsrc, hcut, Pkg.regWrite, hpage, hreach, hok]
  simp [withPkg, Pkg.dev, hwrite]

end

/-- Settles O5: each path brings the write to `fieldsWrite`, which stores the word and goes on with `written`. -/
theorem registerWrites : Obligations.RegisterWrites := by
  intro p off v s hreg hv
  refine ⟨fun m hopen h => ?_, fun m hopen h => ?_, fun hopen h => ?_, fun src hopen hsrc h => ?_⟩
  · exact regOut_open hopen hreg hv h.1 h.2
  · exact regOut_open hopen hreg hv h.1 h.2
  · have hcut : (BitVec.ofNat 32 v).toNat = v := Nat.mod_eq_of_lt hv
    have hwrite := regOut_open (m := .mgmt) (act := true) hopen hreg hv h.1 h.2
    show regOut _ _ _ (BitVec.ofNat 32 v).toNat _ = _
    rw [hcut]
    exact hwrite
  · exact fmRegWrite_open hopen hreg hv hsrc h.1 h.2

end Sys2Proof.Machine


/-!
SUPPORT. O6, a write of PWR_RETAIN by a master that does not own the page. Bit 0 of that word is set by every write that reaches the new
word (R563), so a word in which it is clear does not stay as it was.
-/
namespace Sys2Proof.Machine

/-- The package after reset, but with PWR_RETAIN all zero: no bank group and no device retained. -/
def retainNone : State := { State.reset with dev := State.reset.dev.setWord 0x1114 0 }

/-- What the word of PWR_RETAIN is once the fabric manager, which does not own the PWR page, has written 0 to it. -/
def retainAfterFm : Option Nat :=
  match exec (.registerWrite .fm 0x1114 4 0) retainNone with
  | .next t => some (t.dev.word 0x1114)
  | _ => none

theorem retainAfterFm_eq : retainAfterFm = some 1 := by decide +kernel

theorem retainNone_word : retainNone.dev.word 0x1114 = 0 := by decide +kernel

/-- Refutes O6: from `retainNone` the dropped write of the fabric manager changes the word of PWR_RETAIN from 0 to 1. -/
theorem not_ownership : ¬ Obligations.Ownership := by
  rintro ⟨-, h⟩
  obtain ⟨t, hexec, -, -, hword⟩ := h .fm 1 0x114 0 retainNone (by decide +kernel) (by decide) (by decide +kernel) (by decide)
    (by decide +kernel) (by decide +kernel) (by decide +kernel)
  have hafter : retainAfterFm = some (t.dev.word 0x1114) := by
    unfold retainAfterFm
    rw [show (0x1114 : Nat) = 1 * 0x1000 + 0x114 from rfl, hexec]
  rw [retainAfterFm_eq, hword 0x1114 (by decide) (by decide), retainNone_word] at hafter
  cases hafter

end Sys2Proof.Machine


/-!
SUPPORT. O7, the interrupt and capture registers of a page header (R39, R487, R606).
-/
namespace Sys2Proof.Machine

/-! ### The header's fields -/

theorem fieldsAt_header {p off : Nat} (ho : off < 0x100) : fieldsAt p off = fldsHDR.filter (fun f => f.here off) := if_pos ho

/-- A field of a header, with one place and no table of encodings, has no reserved encoding and is never held. -/
theorem Dev.reserved_header (d : Dev) (p v : Nat) {off : Nat} {f : Fld} (hf : f ∈ fldsHDR) : d.reserved p off v f = false := by
  have hall : ∀ f ∈ fldsHDR, f.rsv = .none ∧ f ≠ F.RTE_PORT_ROLE_ROLE ∧ f ≠ F.RTE_PORT_ROLE_GROUP ∧ f ≠ F.LND_RANK_WIN_BASE ∧
      f ≠ F.LND_RANK_WIN_SIZE ∧ f ≠ F.FRY_SUB_BASE_HI_BASE_HI ∧ f ≠ F.FRY_CMP_BASE_HI_BASE_HI ∧ f ≠ F.SEC_CMD_OP := by decide
  obtain ⟨hrsv, hrole, hgroup, hbase, hsize, hsub, hcmp, hsec⟩ := hall f hf
  simp [Dev.reserved, Fld.accepts, Dev.nearRing, hrsv, hrole, hgroup, hbase, hsize, hsub, hcmp, hsec]

theorem Dev.partHeld_header (d : Dev) {p off : Nat} (ho : off < 0x100) {f : Fld} (hf : f ∈ fldsHDR) : d.partHeld p off f = false := by
  have hall : ∀ f ∈ fldsHDR, f ≠ F.BULK_CFG_INTERLEAVE ∧ f ≠ F.RTE_CFG_MODE := by decide
  obtain ⟨hbulk, hmode⟩ := hall f hf
  have h1 : ¬0x100 ≤ off := by omega
  have h2 : ¬0x500 ≤ off := by omega
  simp [Dev.partHeld, hbulk, hmode, h1, h2]

section
variable {m : Master} {p : Nat} {s : State}

/-- A write of a header register by a master that may write it, as a command. -/
theorem regOut_header (hopen : pageOpen s.dev m p) {off v : Nat} (ho : off < 0x100) (h4 : off % 4 = 0) (h8 : off ≠ 8) (hv : v < 2 ^ 32) :
    regOut m (p * 0x1000 + off) 4 v s =
      .next (withPkg s (Pkg.headerWrite m p off v ((tlp m s.dev).mayWrite m p off) (s.store, tlp m s.dev)).2) := by
  obtain ⟨-, hreach, hkind, hon⟩ := hopen
  rw [regOut_four m p off v s (by omega) h4 (by have := pageKind_lt hkind; omega) hreach,
    write4_header m p off v (s.store, tlp m s.dev) hkind (by simpa using hon) ho h8, Nat.mod_eq_of_lt hv]

theorem mayWrite_header {off : Nat} (ho : off < 0x100) : (tlp m s.dev).mayWrite m p off = s.dev.owns m p := by
  have h : ¬0x200 ≤ off := by omega
  simp [Dev.mayWrite, isFmq, h, Dev.owns, Dev.rdp]

/-! ### BLK_ISR, BLK_ITR, BLK_IER -/

/-- The bits of BLK_ISR lie in its two fields. -/
theorem newWord_isr (d : Dev) (own : Bool) (v : Nat) {i : Nat} (hi : i < 24 ∨ i = 31) :
    bit (d.newWord own p 0x14 v) i = (bit (d.word (p * 0x1000 + 0x14)) i && !bit v i) := by
  have hflds : fieldsAt p 0x14 = [F.BLK_ISR_EVENT, F.BLK_ISR_ERRCAP] := by
    rw [fieldsAt_header (by decide)]
    decide
  obtain hi | rfl := hi
  · have h := (accessCodes d own p 0x14 v F.BLK_ISR_EVENT (by simp [hflds]) (by omega)).2.1 rfl i hi
    have h0 : F.BLK_ISR_EVENT.lo + i = i := Nat.zero_add i
    rwa [h0] at h
  · exact (accessCodes d own p 0x14 v F.BLK_ISR_ERRCAP (by simp [hflds]) (by omega)).2.1 rfl 0 (by decide)

/-- The bits of BLK_IER that the owner writes. -/
theorem newWord_ier (d : Dev) (v : Nat) {i : Nat} (hi : i < 24 ∨ i = 31) : bit (d.newWord true p 0x18 v) i = bit v i := by
  have hflds : fieldsAt p 0x18 = [F.BLK_IER_EVENT_EN, F.BLK_IER_ALERT, F.BLK_IER_ERRCAP_EN] := by
    rw [fieldsAt_header (by decide)]
    decide
  have hfield : ∀ f ∈ fieldsAt p 0x18, bits (d.newWord true p 0x18 v) f.lo f.w = bits v f.lo f.w := fun f hf => by
    have hhdr : f ∈ fldsHDR := by
      rw [fieldsAt_header (by decide)] at hf
      exact (List.mem_filter.1 hf).1
    have hrwo : f.acc = .rwo := by
      rw [hflds] at hf
      revert f
      decide
    exact (accessCodes d true p 0x18 v f hf (by omega)).2.2.2.1 hrwo rfl (d.reserved_header p v hhdr) (d.partHeld_header (by decide) hhdr)
  obtain hi | rfl := hi
  · have h := bit_of_bits (hfield F.BLK_IER_EVENT_EN (by simp [hflds])) (i := i) hi
    have h0 : F.BLK_IER_EVENT_EN.lo + i = i := Nat.zero_add i
    rwa [h0] at h
  · exact bit_of_bits (hfield F.BLK_IER_ERRCAP_EN (by simp [hflds])) (i := 0) (by decide)

/-- A bit of a word stays when the word is stored. -/
theorem bit_mod (n : Nat) {i : Nat} (hi : i < 32) : bit (n % 2 ^ 32) i = bit n i := by
  rw [bit_eq_testBit, bit_eq_testBit, Nat.testBit_mod_two_pow]
  simp [hi]

theorem testBit_isrMask {i : Nat} (hi : i < 24 ∨ i = 31) : (0x80FFFFFF : Nat).testBit i = true := by
  obtain hi | rfl := hi
  · interval_cases i <;> decide
  · decide

theorem Dev.word_isrSet (d : Dev) (v a : Nat) :
    (d.isrSet p v).word a = if a = p * 0x1000 + 0x14 then Nat.lor (d.word (p * 0x1000 + 0x14)) (Nat.land v 0x80FFFFFF) % 2 ^ 32 else d.word a := by
  simp [Dev.isrSet, Dev.word_setWord]

theorem Dev.word_ierSet (d : Dev) (w a : Nat) :
    (d.ierSet p w).word a = if a = p * 0x1000 + 0x18 then w % 2 ^ 32 else d.word a := by
  simp [Dev.ierSet, Dev.word_setWord]

theorem blkIsrClear_clears (hopen : pageOpen s.dev m p) (v : W32) :
    ∃ t, exec (.blkIsrClear m p v) s = .next t ∧ t.store = s.store ∧
      (∀ i, i < 24 ∨ i = 31 → bit (t.dev.word (p * 0x1000 + 0x14)) i = (bit (s.dev.word (p * 0x1000 + 0x14)) i && !bit v.toNat i)) ∧
      (∀ a, a ≠ p * 0x1000 + 0x14 → t.dev.word a = s.dev.word a) ∧ t.dev.out = s.dev.out := by
  refine ⟨{ s with
      dev := (tlp m s.dev).setWord (p * 0x1000 + 0x14) ((tlp m s.dev).newWord ((tlp m s.dev).mayWrite m p 0x14) p 0x14 v.toNat) },
    (regOut_header hopen (by decide) (by decide) (by decide) v.isLt).trans ?_, rfl, fun i hi => ?_, fun a ha => ?_, by simp⟩
  · simp [Pkg.headerWrite, withPkg, Pkg.dev]
  · rw [Dev.word_setWord_same, bit_mod _ (by omega), newWord_isr _ _ _ hi, tlp_word]
  · rw [Dev.word_setWord_ne _ _ ha, tlp_word]

theorem blkItr_sets (hopen : pageOpen s.dev m p) (hown : s.dev.owns m p = true) (v : W32) :
    ∃ t, exec (.blkItr m p v) s = .next t ∧ t.store = s.store ∧
      (∀ i, i < 24 ∨ i = 31 → bit (t.dev.word (p * 0x1000 + 0x14)) i = (bit (s.dev.word (p * 0x1000 + 0x14)) i || bit v.toNat i)) ∧
      (∀ a, a ≠ p * 0x1000 + 0x14 → t.dev.word a = s.dev.word a) := by
  refine ⟨{ s with dev := (tlp m s.dev).isrSet p v.toNat },
    (regOut_header hopen (by decide) (by decide) (by decide) v.isLt).trans ?_, rfl, fun i hi => ?_, fun a ha => ?_⟩
  · simp [Pkg.headerWrite, withPkg, Pkg.dev, mayWrite_header, hown]
  · rw [Dev.word_isrSet, if_pos rfl, bit_mod _ (by omega), tlp_word]
    show bit (s.dev.word (p * 0x1000 + 0x14) ||| v.toNat &&& 0x80FFFFFF) i = _
    rw [bit_eq_testBit, bit_eq_testBit, bit_eq_testBit, Nat.testBit_or, Nat.testBit_and, testBit_isrMask hi, Bool.and_true]
  · rw [Dev.word_isrSet, if_neg ha, tlp_word]

theorem blkIerWrite_writes (hopen : pageOpen s.dev m p) (hown : s.dev.owns m p = true) (v : W32) :
    ∃ t, exec (.blkIerWrite m p v) s = .next t ∧ t.store = s.store ∧
      (∀ i, i < 24 ∨ i = 31 → bit (t.dev.word (p * 0x1000 + 0x18)) i = bit v.toNat i) ∧
      (∀ a, a ≠ p * 0x1000 + 0x18 → t.dev.word a = s.dev.word a) := by
  refine ⟨{ s with dev := (tlp m s.dev).ierSet p ((tlp m s.dev).newWord true p 0x18 v.toNat) },
    (regOut_header hopen (by decide) (by decide) (by decide) v.isLt).trans ?_, rfl, fun i hi => ?_, fun a ha => ?_⟩
  · simp [Pkg.headerWrite, withPkg, Pkg.dev, mayWrite_header, hown]
  · rw [Dev.word_ierSet, if_pos rfl, bit_mod _ (by omega), newWord_ier _ _ hi]
  · rw [Dev.word_ierSet, if_neg ha, tlp_word]

theorem putBit_top_lt {n i : Nat} (b : Bool) (hn : n < 2 ^ 32) (hi : i < 32) : putBit n i b < 2 ^ 32 := by
  refine Nat.lt_pow_two_of_testBit _ fun j hj => ?_
  rw [putBit, testBit_putBits, if_neg (by omega)]
  exact Nat.testBit_lt_two_pow (hn.trans_le (Nat.pow_le_pow_right (by decide) hj))

theorem lowClr_sets (hopen : pageOpen s.dev m p) (hown : s.dev.owns m p = true) (v : W32) :
    exec (.lowClr m p v) s = .next { s with dev := (tlp m s.dev).wrp F.BLK_PACE_PACE_LOW p 0xFFF } := by
  refine (regOut_header hopen (by decide) (by decide) (by decide) (putBit_top_lt true v.isLt (by decide))).trans ?_
  simp [Pkg.headerWrite, withPkg, Pkg.dev, mayWrite_header, hown, bit_putBit_same]

theorem capRearm_rearms (hopen : pageOpen s.dev m p) (v : W32) :
    exec (.capRearm m p v) s =
      .next { s with dev := ((tlp m s.dev).wrp F.BLK_ERR_CAP0_VALID p 0).wrp F.BLK_ERR_CAP0_OVERFLOW p 0 } := by
  refine (regOut_header hopen (by decide) (by decide) (by decide) (putBit_top_lt true v.isLt (by decide))).trans ?_
  simp [Pkg.headerWrite, withPkg, Pkg.dev, Dev.rearm, bit_putBit_same]

theorem headerWrites : Said.HeaderWrites := fun _ _ v _ hopen =>
  ⟨blkIsrClear_clears hopen v, fun hown => ⟨blkItr_sets hopen hown v, blkIerWrite_writes hopen hown v, lowClr_sets hopen hown v⟩,
    capRearm_rearms hopen v⟩

end

/-! ### The message of a pending page -/

theorem Dev.isPending_congr {d e : Dev} (p : Nat) (h : ∀ a, e.word a = d.word a) : e.isPending p = d.isPending p := by
  simp [Dev.isPending, Dev.pendingBits, h]

theorem Dev.msix_out {d : Dev} (h : d.rd F.GLB_PIN_STAT_PERST = 0) (n : Nat) : (d.msix n).out = d.out ++ [.msix n] := by
  simp [Dev.msix, h]

theorem pendingMessage : Said.PendingMessage := by
  intro d p i hpin
  unfold Dev.event
  generalize he : d.setWord (p * 0x1000 + 0x14) (putBit (d.word (p * 0x1000 + 0x14)) i true) = e
  have hout : e.out = d.out := by simp [← he]
  have hpin' : e.rd F.GLB_PIN_STAT_PERST = 0 := by
    rw [← hpin, ← he]
    refine Dev.rdpi_setWord_ne d _ _ _ _ _ ?_
    show (0x114 : Nat) ≠ _
    omega
  rw [Dev.isPending_congr p (fun a => Dev.word_ifPending e d p a), ← hout]
  unfold Dev.ifPending
  split
  · exact Dev.msix_out hpin' _
  · simp

/-- Settles O7. -/
theorem headerRegisters : Obligations.HeaderRegisters := ⟨headerWrites, pendingMessage⟩

end Sys2Proof.Machine


/-!
SUPPORT. O9, pace windows and counters (R39 to R41, R610).
-/
namespace Sys2Proof.Machine

/-! ### One page at the end of a window -/

section
variable {paces : List (Nat × Nat)} {lo p : Nat} {d : Dev}

/-- A page's window touches BLK_PACE of the page. -/
theorem Dev.pacePage_frame (paces : List (Nat × Nat)) (lo p : Nat) (d : Dev) :
    (d.pacePage paces lo p).glb = d.glb ∧ ∀ a, a ≠ p * 0x1000 + 0x34 → (d.pacePage paces lo p).word a = d.word a := by
  have hpace : F.BLK_PACE_PACE.addr p 0 = p * 0x1000 + 0x34 := rfl
  have hlow : F.BLK_PACE_PACE_LOW.addr p 0 = p * 0x1000 + 0x34 := rfl
  unfold Dev.pacePage
  split
  · exact ⟨rfl, fun _ _ => rfl⟩
  · split
    · exact ⟨rfl, fun _ _ => rfl⟩
    · split
      · exact ⟨by simp, fun a ha => Dev.word_wrpi_ne _ _ _ _ _ _ (by rwa [hpace])⟩
      · refine ⟨by simp, fun a ha => ?_⟩
        exact (Dev.word_wrpi_ne _ _ _ _ _ _ (by rwa [hlow])).trans (Dev.word_wrpi_ne _ _ _ _ _ _ (by rwa [hpace]))

/-- The count reported is the lowest one listed. -/
theorem paceOf_lowest {n : Nat} (hn : (p, n) ∈ paces) (hmin : ∀ m, (p, m) ∈ paces → n ≤ m) : paceOf paces p = some n := by
  unfold paceOf
  rw [List.min?_eq_some_iff]
  refine ⟨List.mem_map.2 ⟨(p, n), List.mem_filter.2 ⟨hn, by simp⟩, rfl⟩, fun m hm => ?_⟩
  obtain ⟨⟨q, k⟩, hq, rfl⟩ := List.mem_map.1 hm
  obtain ⟨hmem, he⟩ := List.mem_filter.1 hq
  obtain rfl : q = p := by simpa using he
  exact hmin k hmem

/-- A page's pace, read back. -/
def Dev.paceWord (d : Dev) (p : Nat) : Nat × Nat := (d.rdp F.BLK_PACE_PACE p, d.rdp F.BLK_PACE_PACE_LOW p)

theorem Dev.paceWord_congr {d e : Dev} (h : e.word (p * 0x1000 + 0x34) = d.word (p * 0x1000 + 0x34)) : e.paceWord p = d.paceWord p := by
  show (bits (e.word (p * 0x1000 + 0x34)) _ _, bits (e.word (p * 0x1000 + 0x34)) _ _) = _
  rw [h]
  rfl

/-- A block that ran for the whole window. -/
theorem Dev.pacePage_on {n : Nat} (hn : paceOf paces p = some n) (hk : (pageKind p).isSome = true) (hon : d.pageOn p = true)
    (hat : nget d.glb.domAt (pageDomain p) ≤ lo) :
    (d.pacePage paces lo p).paceWord p = (min n 0xFFF, min (min n 0xFFF) (d.rdp F.BLK_PACE_PACE_LOW p)) := by
  have hk' : ¬(pageKind p).isNone = true := by simpa [Option.isSome_iff_ne_none] using hk
  have hon' : ¬((!d.pageOn p) = true ∨ lo < nget d.glb.domAt (pageDomain p)) := by
    rw [hon]
    simpa using hat
  have hcut : min n 0xFFF < 2 ^ 12 := by omega
  have hcut2 : min (min n 0xFFF) (d.rdp F.BLK_PACE_PACE_LOW p) < 2 ^ 12 := by omega
  unfold Dev.pacePage
  rw [hn]
  dsimp only
  rw [if_neg hk', if_neg hon']
  refine Prod.ext ?_ ?_
  · refine (Dev.rdpi_wrpi_ne _ _ _ _ _ _ _ _ (.inr ⟨by decide, by decide⟩)).trans ?_
    exact (Dev.rdpi_wrpi_same _ _ _ _ _ (by decide)).trans (Nat.mod_eq_of_lt hcut)
  · exact (Dev.rdpi_wrpi_same _ _ _ _ _ (by decide)).trans (Nat.mod_eq_of_lt hcut2)

/-- A block that is off, or that turned on after the window began. -/
theorem Dev.pacePage_off {n : Nat} (hn : paceOf paces p = some n) (hk : (pageKind p).isSome = true)
    (hoff : d.pageOn p = false ∨ lo < nget d.glb.domAt (pageDomain p)) :
    (d.pacePage paces lo p).paceWord p = (0, d.rdp F.BLK_PACE_PACE_LOW p) := by
  have hk' : ¬(pageKind p).isNone = true := by simpa [Option.isSome_iff_ne_none] using hk
  have hoff' : (!d.pageOn p) = true ∨ lo < nget d.glb.domAt (pageDomain p) := by simpa using hoff
  unfold Dev.pacePage
  rw [hn]
  dsimp only
  rw [if_neg hk', if_pos hoff']
  refine Prod.ext (Dev.rdpi_wrpi_same _ _ _ _ _ (by decide)) ?_
  exact Dev.rdpi_wrpi_ne _ _ _ _ _ _ _ _ (.inr ⟨by decide, by decide⟩)

theorem Dev.pageOn_congr {d e : Dev} (h : e.word 0x112C = d.word 0x112C) (p : Nat) : e.pageOn p = d.pageOn p := by
  have hrd : e.rd F.PWR_DOM_STAT_ON = d.rd F.PWR_DOM_STAT_ON := congrArg (fun w => bits w _ _) h
  simp [Dev.pageOn, Dev.domOn, hrd]

/-- The windows of the pages listed, each once: of a page's own, what its step makes of the state before. -/
theorem Dev.pacePages {l : List Nat} (hl : l.Nodup) (d : Dev) :
    (l.foldl (fun d q => d.pacePage paces lo q) d).glb = d.glb ∧
    (∀ a, a % 0x1000 ≠ 0x34 → (l.foldl (fun d q => d.pacePage paces lo q) d).word a = d.word a) ∧
    (∀ p, p ∉ l → (l.foldl (fun d q => d.pacePage paces lo q) d).word (p * 0x1000 + 0x34) = d.word (p * 0x1000 + 0x34)) ∧
    ∀ p ∈ l, ∃ e : Dev, e.glb = d.glb ∧ e.word 0x112C = d.word 0x112C ∧ e.paceWord p = d.paceWord p ∧
      (l.foldl (fun d q => d.pacePage paces lo q) d).paceWord p = (e.pacePage paces lo p).paceWord p := by
  induction l generalizing d with
  | nil => exact ⟨rfl, fun _ _ => rfl, fun _ _ => rfl, by simp⟩
  | cons q l ih =>
    obtain ⟨hq, hl⟩ := List.nodup_cons.1 hl
    obtain ⟨hglb, hword⟩ := d.pacePage_frame paces lo q
    obtain ⟨ihg, ihw, iho, ihp⟩ := ih hl (d.pacePage paces lo q)
    simp only [List.foldl_cons]
    refine ⟨ihg.trans hglb, fun a ha => (ihw a ha).trans (hword a (by omega)), fun p hp => ?_, fun p hp => ?_⟩
    · obtain ⟨hne, hp⟩ := not_or.1 (mt List.mem_cons.2 hp)
      exact (iho p hp).trans (hword _ (by omega))
    · obtain rfl | hp := List.mem_cons.1 hp
      · exact ⟨d, rfl, rfl, rfl, Dev.paceWord_congr (iho p hq)⟩
      · have hne : p ≠ q := fun e => hq (e ▸ hp)
        obtain ⟨e, heg, hew, hep, he⟩ := ihp p hp
        exact ⟨e, heg.trans hglb, hew.trans (hword _ (by omega)), hep.trans (Dev.paceWord_congr (hword _ (by omega))), he⟩

end

theorem paceWindow : Said.PaceWindow := by
  intro paces s hpaced
  refine ⟨fun hle => ?_, fun hlt => ?_⟩
  · show onDev _ s = _
    have hn : ¬(s.dev.paced = true ∧ s.dev.glb.paceAt < s.dev.ns / 1000) := by omega
    rw [onDev, Dev.paceWindow, if_neg hn]
  · refine ⟨_, rfl, rfl, ?_⟩
    show (s.dev.paceWindow paces).glb = _ ∧ _
    rw [Dev.paceWindow, if_pos ⟨hpaced, hlt⟩]
    obtain ⟨hglb, hword, -, hpage⟩ := Dev.pacePages (paces := paces) (lo := us (s.dev.ns / 1000 - 1))
      (List.nodup_dedup (paces.map (·.1))) { s.dev with glb := { s.dev.glb with paceAt := s.dev.ns / 1000 } }
    refine ⟨hglb, fun p n hn hmin hk => ?_, hword⟩
    obtain ⟨e, heg, hew, hep, he⟩ := hpage p (List.mem_dedup.2 (List.mem_map.2 ⟨_, hn, rfl⟩))
    have hlow : e.rdp F.BLK_PACE_PACE_LOW p = s.dev.rdp F.BLK_PACE_PACE_LOW p := congrArg Prod.snd hep
    have hdom : e.glb.domAt = s.dev.glb.domAt := by rw [heg]
    have hon := e.pageOn_congr (d := s.dev) hew p
    refine ⟨fun h hat => ?_, fun h => ?_⟩
    · have := he.trans (Dev.pacePage_on (paceOf_lowest hn hmin) hk (hon.trans h) (by rwa [hdom]))
      rw [hlow] at this
      exact ⟨congrArg Prod.fst this, congrArg Prod.snd this⟩
    · have := he.trans (Dev.pacePage_off (paceOf_lowest hn hmin) hk (by rwa [hdom, hon]))
      rw [hlow] at this
      exact ⟨congrArg Prod.fst this, congrArg Prod.snd this⟩

/-! ### Counters -/

theorem counters : Said.Counters := by
  refine ⟨fun d p i k hi => ⟨fun hz => ?_, fun h1 => ?_, fun q j hj hne => ?_⟩, fun m p i s hreach hon hi => ?_⟩
  · rw [Dev.counter_count _ _ _ _ _ _ hi hi, if_pos ⟨rfl, rfl, by omega⟩]
    rfl
  · exact if_pos h1
  · rw [Dev.counter_count _ _ _ _ _ _ hi hj, if_neg]
    rintro ⟨rfl, rfl, -⟩
    exact hne rfl
  · have hi' : ¬pageCounters p ≤ i := by omega
    refine ⟨_, rfl, rfl, ?_⟩
    have hread : s.dev.counterLowRead m p (.low i) =
        (s.dev.counterRead p i false).2.regAnswer m 0 (natLE 4 (s.dev.counterRead p i false).1) := by
      simp [Dev.counterLowRead, hreach, hon, hi']
    show (s.dev.counterLowRead m p (.low i)).out = _ ∧ ((s.dev.counterLowRead m p (.low i)).counterRead p i true).1 = _
    rw [hread]
    refine ⟨Dev.regAnswer_out .., ?_⟩
    simp [Dev.counterRead, Dev.counter, Nat.add_comm]

/-- Settles O9. -/
theorem paceAndCounters : Obligations.PaceAndCounters := ⟨paceWindow, counters⟩

end Sys2Proof.Machine


/-!
SUPPORT. What a field of a register reads after the shared operations, with side conditions that `decide` closes for two given fields: for
`simp (disch := decide)`.
-/
namespace Sys2Proof.Machine

theorem Dev.rd_congr {d e : Dev} (h : d.regs = e.regs) (f : Fld) : d.rd f = e.rd f := Dev.rdpi_congr h f _ _

/-- Fields read off one word. -/
theorem Dev.rd_of_word {d e : Dev} (f : Fld) (h : d.word (f.addr f.page 0) = e.word (f.addr f.page 0)) : d.rd f = e.rd f := by
  unfold Dev.rd Dev.rdpi
  rw [h]

@[simp] theorem Dev.rd_emit (d : Dev) (e : Emit) (f : Fld) : (d.emit e).rd f = d.rd f := Dev.rdpi_emit ..
@[simp] theorem Dev.rd_ctrl (d : Dev) (n : Nat) (m : CtrlMsg) (f : Fld) : (d.ctrl n m).rd f = d.rd f := Dev.rdpi_ctrl ..
@[simp] theorem Dev.rd_msix (d : Dev) (n : Nat) (f : Fld) : (d.msix n).rd f = d.rd f := Dev.rdpi_msix ..
@[simp] theorem Dev.rd_hostWrite (d : Dev) (b : Nat) (v : List Byte) (f : Fld) : (d.hostWrite b v).rd f = d.rd f := Dev.rdpi_hostWrite ..
@[simp] theorem Dev.rd_draw (d : Dev) (f : Fld) : d.draw.2.rd f = d.rd f := rfl

/-- Field `f` of the first page of its kind, read off a register table. -/
def fieldOf (t : Tbl W32) (f : Fld) : Nat := bits (tget resetWord t (f.addr f.page 0)).toNat f.lo f.w

/-- The word at `a`, read off a register table. -/
def wordOf (t : Tbl W32) (a : Nat) : Nat := (tget resetWord t a).toNat

@[simp] theorem fieldOf_regs (d : Dev) (f : Fld) : fieldOf d.regs f = d.rd f := rfl

@[simp] theorem wordOf_regs (d : Dev) (a : Nat) : wordOf d.regs a = d.word a := rfl

section
variable {regs : Tbl W32} {cnts cntLatch : Tbl Nat} {out : List Emit} {epochs : List Bool} {line : List LaneWord} {freeCtr : Nat} {glb : Glb}
  {xlt : Xlt} {flt : List Batch} {fltWait : List FltIn} {src : Src} {lnd : List Lnd} {host : HostPort} {home : Home} {swc : Swc} {rte : Rte}
  {links : List Link} {eyes : List Eye} {rcv : Rcv} {sec : Sec} {tim : Tim} {pwr : Pwr} {mgmt : Mgmt} {fry : Fry}

/-- Registers do not depend on what else a package holds. -/
@[simp] theorem Dev.rd_mk (f : Fld) :
    (Dev.mk regs cnts cntLatch out epochs line freeCtr glb xlt flt fltWait src lnd host home swc rte links eyes rcv sec tim pwr mgmt fry).rd f =
      fieldOf regs f := rfl

@[simp] theorem Dev.word_mk (a : Nat) :
    (Dev.mk regs cnts cntLatch out epochs line freeCtr glb xlt flt fltWait src lnd host home swc rte links eyes rcv sec tim pwr mgmt fry).word a =
      wordOf regs a := rfl

end

/-- An event is seen in BLK_ISR of its page alone. -/
theorem Dev.rd_event (d : Dev) (p i : Nat) (f : Fld) (h : f.addr f.page 0 ≠ p * 0x1000 + 0x14) : (d.event p i).rd f = d.rd f :=
  Dev.rd_of_word f (by rw [Dev.word_event, if_neg h])

/-- A capture leaves what no header and no page ERR holds. -/
theorem Dev.rd_capture (d : Dev) (p : Nat) (c : ECls) (st code port det : Nat) (f : Fld)
    (h : f.addr f.page 0 / 0x1000 ≠ 0xC0 ∧ 0x40 ≤ f.addr f.page 0 % 0x1000) : (d.capture p c st code port det).rd f = d.rd f :=
  Dev.rd_of_word f (Dev.word_capture d p c st code port det _ h.1 h.2)

theorem Dev.rd_dropWrite (d : Dev) (m : Master) (p off v code : Nat) (f : Fld)
    (h : f.addr f.page 0 / 0x1000 ≠ 0xC0 ∧ 0x40 ≤ f.addr f.page 0 % 0x1000) : (d.dropWrite m p off v code).rd f = d.rd f :=
  Dev.rd_capture _ _ _ _ _ _ _ f h

/-- The time of the first FATAL error stands in the ERR page. -/
theorem Dev.rd_fatalTime (d : Dev) (f : Fld)
    (h : f.addr f.page 0 ≠ F.ERR_FATAL_TIME_LO_T_LO.addr F.ERR_FATAL_TIME_LO_T_LO.page 0 ∧
      f.addr f.page 0 ≠ F.ERR_FATAL_TIME_HI_T_HI.addr F.ERR_FATAL_TIME_HI_T_HI.page 0) : d.fatalTime.rd f = d.rd f := by
  unfold Dev.fatalTime
  split
  · rw [Dev.rd_wr_ne _ _ _ _ (.inl h.2), Dev.rd_wr_ne _ _ _ _ (.inl h.1)]
  · rfl

/-- A word other than the field's. -/
theorem Dev.word_wr_ne (d : Dev) (f : Fld) (v a : Nat) (h : a ≠ f.addr f.page 0) : (d.wr f v).word a = d.word a :=
  Dev.word_wrpi_ne d f f.page 0 v a h

end Sys2Proof.Machine


/-!
SUPPORT. O12, the monitor of VDD_CORE (R47, R49).
-/
namespace Sys2Proof.Machine

theorem Dev.ifMonitored_on {f : Dev → Dev} {d : Dev} (h : d.glb.vddAon = true) : d.ifMonitored f = f d := if_pos h

/-- The rail as it is while it stands at 0.60 V or above. -/
theorem Dev.railMoves_high {d : Dev} {mv : Nat} (h : 600 ≤ mv) :
    d.railMoves mv = if d.glb.off then { d with glb := { d.glb with vddMv := mv, uvSince := none } }
      else ({ d with glb := { d.glb with vddMv := mv, uvSince := none } } : Dev).wr F.BLK_STAT_BLOCK 0 := by
  have h5 : ¬mv < 550 := by omega
  have h6 : ¬mv < 600 := by omega
  simp [Dev.railMoves, h, Dev.railAt, h5, Dev.railLow, h6, b2n]

/-- A rail below 0.60 V, as the monitor sees it. -/
theorem Dev.railAt_low {d : Dev} {mv : Nat} (hoff : d.glb.off = false) (h : mv < 600) :
    (d.railAt mv).rd F.BLK_STAT_BLOCK = 1 ∧ (d.railAt mv).glb.vddMv = mv ∧ ((d.railAt mv).glb.uvSince.isSome = true ↔ mv < 550) ∧
      (d.railAt mv).rd F.BLK_ERR_CNT_ERRORS = d.rd F.BLK_ERR_CNT_ERRORS := by
  simp only [Dev.railAt, hoff]
  refine ⟨?_, by simp, ?_, ?_⟩
  · simp (disch := decide) [Dev.rd_wr_same, Dev.railLow, h, b2n, F.BLK_STAT_BLOCK]
  · by_cases h5 : mv < 550 <;> simp [h5]
  · simp (disch := decide) [Dev.rd_wr_ne]

/-- A capture touches BLK_ISR, the capture registers and the error counts of its page, and the ERR page. -/
theorem Dev.word_capture_ne (d : Dev) (p : Nat) (c : ECls) (st code port det a : Nat) (h : a / 0x1000 ≠ 0xC0)
    (hisr : a ≠ p * 0x1000 + 0x14) (hcap : a < p * 0x1000 + 0x20 ∨ p * 0x1000 + 0x30 < a) :
    (d.capture p c st code port det).word a = d.word a := by
  have hne : ∀ k, 0x20 ≤ k → k ≤ 0x30 → a ≠ p * 0x1000 + k := fun k _ _ => by omega
  have herr : ∀ p, F.BLK_ERR_CNT_ERRORS.addr p 0 = p * 0x1000 + 0x30 := fun _ => rfl
  have hover : ∀ p, F.BLK_ERR_CAP0_OVERFLOW.addr p 0 = p * 0x1000 + 0x20 := fun _ => rfl
  have hcount : ∀ v, (d.wrp F.BLK_ERR_CNT_ERRORS p v).word a = d.word a := fun v => Dev.word_wrpi_ne _ _ _ _ _ _ (by rw [herr]; exact hne _ (by decide) (by decide))
  unfold Dev.capture
  dsimp only
  split
  · exact (Dev.word_wrpi_ne _ _ _ _ _ _ (by rw [hover]; exact hne _ (by decide) (by decide))).trans (hcount _)
  · rw [Dev.word_errLog _ _ _ h, Dev.word_event, if_neg hisr, Dev.word_setWord_ne _ _ (hne _ (by decide) (by decide)), Dev.word_setWord_ne _ _ (hne _ (by decide) (by decide)),
      Dev.word_setWord_ne _ _ (hne _ (by decide) (by decide)), Dev.word_setWord_ne _ _ (hne _ (by decide) (by decide)), hcount]

/-- A capture sets ERRCAP in BLK_ISR, or nothing there. -/
theorem Dev.isr_capture (d : Dev) {p : Nat} (hp : p ≠ 0xC0) (c : ECls) (st code port det : Nat) {i : Nat} (hi : i < 31) :
    bit ((d.capture p c st code port det).word (p * 0x1000 + 0x14)) i = bit (d.word (p * 0x1000 + 0x14)) i := by
  have herr : ∀ p, F.BLK_ERR_CNT_ERRORS.addr p 0 = p * 0x1000 + 0x30 := fun _ => rfl
  have hover : ∀ p, F.BLK_ERR_CAP0_OVERFLOW.addr p 0 = p * 0x1000 + 0x20 := fun _ => rfl
  have hcount : ∀ v, (d.wrp F.BLK_ERR_CNT_ERRORS p v).word (p * 0x1000 + 0x14) = d.word (p * 0x1000 + 0x14) :=
    fun v => Dev.word_wrpi_ne _ _ _ _ _ _ (by rw [herr]; omega)
  unfold Dev.capture
  dsimp only
  split
  · exact congrArg (bit · i) ((Dev.word_wrpi_ne _ _ _ _ _ _ (by rw [hover]; omega)).trans (hcount _))
  · rw [Dev.word_errLog _ _ _ (by omega), Dev.word_event, if_pos rfl, bit_mod _ (by omega), bit_putBit_ne _ _ _ _ (by omega),
      Dev.word_setWord_ne _ _ (by omega), Dev.word_setWord_ne _ _ (by omega), Dev.word_setWord_ne _ _ (by omega),
      Dev.word_setWord_ne _ _ (by omega), hcount]

theorem Dev.isr_event (d : Dev) (p : Nat) {i : Nat} (hi : i < 32) : bit ((d.event p i).word (p * 0x1000 + 0x14)) i = true := by
  rw [Dev.word_event, if_pos rfl, bit_mod _ hi, bit_putBit_same]

theorem vcoreLow_low {mv : Nat} {s : State} (hoff : s.dev.glb.off = false) (haon : s.dev.glb.vddAon = true) (h : mv < 600) :
    ∃ t, exec (.vcoreLow mv) s = .next t ∧ t.store = s.store ∧
      t.dev.rd F.BLK_STAT_BLOCK = 1 ∧ t.dev.glb.vddMv = mv ∧ (t.dev.glb.uvSince.isSome = true ↔ mv < 550) ∧
      (600 ≤ s.dev.glb.vddMv → bit (t.dev.word 0x14) 1 = true ∧
        t.dev.rd F.BLK_ERR_CNT_ERRORS = min (s.dev.rd F.BLK_ERR_CNT_ERRORS + 1) 0xFFFF) := by
  obtain ⟨hlow, hmv, huv, herr⟩ := Dev.railAt_low hoff h
  have hdev : s.dev.vcoreLow mv = if 600 ≤ s.dev.glb.vddMv then
      ((s.dev.railAt mv).event 0 1).capture 0 .degraded 0 0x11 0x3F 0 else s.dev.railAt mv := by
    simp [Dev.vcoreLow, show ¬600 ≤ mv by omega, hoff]
  refine ⟨{ s with dev := s.dev.vcoreLow mv }, by simp [exec, execVcoreLow, Dev.ifMonitored_on haon], rfl, ?_⟩
  simp only [hdev]
  split
  · refine ⟨?_, by simpa using hmv, by simpa using huv, fun _ => ⟨?_, ?_⟩⟩
    · refine (Dev.rd_of_word _ ?_).trans hlow
      rw [Dev.word_capture_ne _ _ _ _ _ _ _ _ (by decide) (by decide) (by decide), Dev.word_event, if_neg (by decide)]
    · exact (Dev.isr_capture _ (by decide) _ _ _ _ _ (by decide)).trans (Dev.isr_event _ 0 (by decide))
    · refine (Dev.errors_capture _ (by decide) _ _ _ _ _).trans ?_
      rw [← herr]
      exact congrArg (satAdd 16 · 1) (Dev.rd_event _ 0 1 F.BLK_ERR_CNT_ERRORS (by decide))
  · exact ⟨hlow, hmv, huv, fun h => absurd h ‹_›⟩

theorem coreUv_holds {t0 : Nat} {s : State} (hoff : s.dev.glb.off = false) (huv : s.dev.glb.uvSince = some t0)
    (ht : t0 + us 1 ≤ s.dev.tim.tide) (hne : s.dev.glb.hold ≠ .coreUv) (heoff : s.dev.glb.hold ≠ .eoff) :
    ∃ t, exec .coreUv s = .next t ∧ t.store = s.store ∧ t.dev.glb.hold = .coreUv ∧ t.dev.running = false ∧
      t.dev.glb.transmitters = false ∧ t.dev.rd F.ERR_FATAL_CORE_UV = 1 ∧ t.dev.out = s.dev.out ++ [.pin "TX_IDLE" 1] := by
  refine ⟨{ s with dev := s.dev.coreUv }, by simp [exec, execCoreUv, Dev.ifPowered, hoff], rfl, ?_⟩
  have hdev : s.dev.coreUv = (let d := s.dev.fatalTime.wr F.ERR_FATAL_CORE_UV 1
      let d : Dev := { d with glb := { d.glb with hold := .coreUv } }
      (d.wr F.BLK_STAT_BLOCK d.railLow).txIdle) := by
    simp [Dev.coreUv, huv, ht, hne, heoff]
  simp only [hdev, Dev.txIdle]
  refine ⟨by simp, by simp [Dev.running], by simp, ?_, by simp⟩
  simp (disch := decide) [Dev.rd_wr_ne, Dev.rd_wr_same, F.ERR_FATAL_CORE_UV]

/-- Settles O12. -/
theorem coreVoltage : Obligations.CoreVoltage := by
  refine ⟨fun mv s hoff haon hmv => ?_, fun mv s hoff haon => ⟨fun hmv => ?_, vcoreLow_low hoff haon,
    fun t0 huv ht hne heoff => coreUv_holds hoff huv ht hne heoff⟩⟩ <;>
  simp [exec, execVddCoreChange, Dev.ifMonitored_on haon, Dev.railMoves_high hmv, hoff]

end Sys2Proof.Machine


/-!
SUPPORT. O13, cap orders (R568 to R573).
-/
namespace Sys2Proof.Machine

/-! ### Writes of the always-on pages GLB, PWR, TIME and MGMT -/

section
variable {m : Master} {p off v : Nat} {s : State}

theorem fieldsAt_aon_page (hp : p ≤ 4) (ho : 0x100 ≤ off) : ∀ f ∈ fieldsAt p off, f.page = p := by
  have hflds : ∀ q ≤ 4, ∀ k ∈ pageKind q, ∀ f ∈ k.flds, f.page = q := by decide
  intro f hf
  rw [fieldsAt, if_neg (by omega)] at hf
  cases hk : pageKind p with
  | none =>
    rw [hk] at hf
    cases hf
  | some k =>
    rw [hk] at hf
    exact hflds p hp k hk f (List.mem_filter.1 hf).1

theorem Dev.partHeld_aon (d : Dev) (off : Nat) {f : Fld} (hp : p ≤ 4) (hf : f.page = p) : d.partHeld p off f = false := by
  have hne : ∀ g : Fld, 4 < g.page → (f == g) = false := fun g hg => beq_false_of_ne fun e => by rw [← e, hf] at hg; omega
  have h30 : ¬0x30 ≤ p := by omega
  simp [Dev.partHeld, hne F.BULK_CFG_INTERLEAVE (by decide), hne F.RTE_CFG_MODE (by decide), h30]

theorem Dev.reserved_aon (d : Dev) (off v : Nat) {f : Fld} (hp : p ≤ 4) (hsec : p ≠ 3) (hf : f.page = p) :
    d.reserved p off v f = !f.accepts (bits v f.lo f.w) := by
  have hne : ∀ g : Fld, 4 < g.page ∨ g.page = 3 → (f == g) = false := fun g hg => beq_false_of_ne fun e => by
    rw [← e, hf] at hg
    omega
  have hring : d.nearRing p f off = false := by
    simp [Dev.nearRing, beq_eq_false_iff_ne.1 (hne F.FRY_SUB_BASE_HI_BASE_HI (by decide)),
      beq_eq_false_iff_ne.1 (hne F.FRY_CMP_BASE_HI_BASE_HI (by decide))]
  simp [Dev.reserved, hring, hne F.RTE_PORT_ROLE_ROLE (by decide), hne F.RTE_PORT_ROLE_GROUP (by decide),
    hne F.LND_RANK_WIN_BASE (by decide), hne F.LND_RANK_WIN_SIZE (by decide), hne F.SEC_CMD_OP (by decide)]

/-- A write that every field accepts, by a master that may, and that asks to turn no near bank group off. -/
theorem fieldsTaken_aon {d : Dev} (hp : p ≤ 4) (hsec : p ≠ 3) (ho : 0x100 ≤ off) (hmay : d.mayWrite m p off = true)
    (hnear : p = 1 → off = 0x128 → d.writeRefused (d.setWord (p * 0x1000 + off) (d.newWord (d.mayWrite m p off) p off v)) p off = none)
    (hacc : ∀ f ∈ fieldsAt p off, f.accepts (bits v f.lo f.w) = true) : fieldsTaken d m p off v := by
  refine ⟨⟨fun _ => hmay, ?_, ?_⟩, ?_⟩
  · by_cases h : p = 1 ∧ off = 0x128
    · exact hnear h.1 h.2
    · have hne : ∀ q, 4 < q → p ≠ q := fun q hq => by omega
      have hlt : ∀ q, 4 < q → ¬q ≤ p := fun q hq => by omega
      simp [Dev.writeRefused, h, hsec, hne, hlt]
  · simp only [Dev.anyHeld, List.any_eq_false]
    intro f hf
    simp [Dev.partHeld_aon d off hp (fieldsAt_aon_page hp ho f hf)]
  · simp only [Dev.anyReserved, List.any_eq_false]
    intro f hf
    simp [Dev.reserved_aon d off v hp hsec (fieldsAt_aon_page hp ho f hf), hacc f hf]

/-- Such a write as a command, on a register other than PWR_CMD. -/
theorem aonWrite_taken (hopen : pageOpen s.dev m p) (hp : p ≤ 4) (hsec : p ≠ 3) (ho : 0x100 ≤ off) (ho2 : off < 0x1000)
    (h4 : off % 4 = 0) (hv : v < 2 ^ 32) (hcmd : ¬(p = 1 ∧ off = 0x10C)) (hmay : (tlp m s.dev).mayWrite m p off = true)
    (hnear : p = 1 → off = 0x128 → (tlp m s.dev).writeRefused
      ((tlp m s.dev).setWord (p * 0x1000 + off) ((tlp m s.dev).newWord ((tlp m s.dev).mayWrite m p off) p off v)) p off = none)
    (hacc : ∀ f ∈ fieldsAt p off, f.accepts (bits v f.lo f.w) = true) :
    regOut m (p * 0x1000 + off) 4 v s = .next (withPkg s (Pkg.aonWritten m p off (s.dev.word (p * 0x1000 + off))
      ((tlp m s.dev).newWord true p off v) v (bit v 31)
      (s.store, (tlp m s.dev).setWord (p * 0x1000 + off) ((tlp m s.dev).newWord true p off v)))) := by
  obtain ⟨-, -, -, hon⟩ := id hopen
  have hroute : routeAt p off = none := by
    have hlt : ¬0x61 ≤ p := by omega
    simp [routeAt, hlt]
  rw [regOut_taken hopen ⟨ho, ho2, h4, hroute, hcmd, hon⟩ hv (fieldsTaken_aon hp hsec ho hmay hnear hacc), fieldsStored, hmay]
  simp [Pkg.written, hp]

/-- The owner of a page may write what stands outside the queue of the fabric manager. -/
theorem mayWrite_owner (hown : s.dev.owns m p = true) (hfmq : isFmq p off = false) : (tlp m s.dev).mayWrite m p off = true := by
  simpa [Dev.mayWrite, hfmq, Dev.owns, Dev.rdp] using hown

/-- A field that its writer reaches. -/
theorem newWord_aon {d : Dev} {f : Fld} (hp : p ≤ 4) (hsec : p ≠ 3) (ho : 0x100 ≤ off) (hfix : ¬(p = 1 ∧ off = 0x114))
    (hf : f ∈ fieldsAt p off) (hopen : fieldOpen true f = true) (hrw : f.acc ≠ .rw1c)
    (hacc : f.accepts (bits v f.lo f.w) = true) : bits (d.newWord true p off v) f.lo f.w = bits v f.lo f.w :=
  Dev.newWord_taken hf hfix hopen hrw (by simp [Dev.reserved_aon d off v hp hsec (fieldsAt_aon_page hp ho f hf), hacc])
    (Dev.partHeld_aon d off hp (fieldsAt_aon_page hp ho f hf))

end

/-! ### The cap in force -/

theorem capWrite_orders {m : Master} {v : W32} {s : State} (hopen : pageOpen s.dev m 1) (hown : s.dev.owns m 1 = true) :
    exec (.capWrite m v) s = .next { s with
      dev := Dev.capOrder (bits v.toNat 0 10) 0 ((tlp m s.dev).setWord 0x1104 ((tlp m s.dev).newWord true 1 0x104 v.toNat)) } := by
  have hflds : fieldsAt 1 0x104 = [F.PWR_CAP_CAP_W] := by decide
  have hacc : ∀ f ∈ fieldsAt 1 0x104, f.accepts (bits v.toNat f.lo f.w) = true := by simp [hflds, Fld.accepts, F.PWR_CAP_CAP_W]
  refine (aonWrite_taken (p := 1) hopen (by decide) (by decide) (by decide) (by decide) (by decide) v.isLt (by decide)
    (mayWrite_owner hown (by decide)) (by simp) hacc).trans ?_
  have hnew := newWord_aon (d := tlp m s.dev) (p := 1) (off := 0x104) (v := v.toNat) (f := F.PWR_CAP_CAP_W) (by decide) (by decide)
    (by decide) (by decide) (by simp [hflds]) (by decide) (by decide) (hacc _ (by simp [hflds]))
  have hbits : bits ((tlp m s.dev).newWord true 1 0x104 v.toNat) 0 10 = bits v.toNat 0 10 := hnew
  simp [Pkg.aonWritten, hbits, Pkg.dev, withPkg]

theorem Dev.awake_congr {d e : Dev} (h : d.rd F.PWR_STAT_STATE = e.rd F.PWR_STAT_STATE) : d.awake = e.awake := by
  unfold Dev.awake Dev.pwrState
  rw [h]

/-- The package with the order noted and counted. -/
def Dev.ordered (w src : Nat) (d : Dev) : Dev := ({ d with pwr := { d.pwr with order := w, orderSrc := src } } : Dev).count 1 3 1

section
variable {w src : Nat} {d : Dev}

@[simp] theorem Dev.ordered_frame : (d.ordered w src).glb = d.glb ∧ (d.ordered w src).freeCtr = d.freeCtr ∧
    (d.ordered w src).pwr = { d.pwr with order := w, orderSrc := src } := by
  simp [Dev.ordered]

@[simp] theorem Dev.rd_ordered (f : Fld) : (d.ordered w src).rd f = d.rd f := by simp [Dev.ordered]

/-- An order that waits, and one that takes effect. -/
theorem Dev.capOrder_waits (h : d.braked = true ∨ d.awake = false) :
    d.capOrder w src = { d.ordered w src with pwr := { (d.ordered w src).pwr with pendingOrder := true } } := by
  have ha : (d.ordered w src).awake = d.awake := Dev.awake_congr (Dev.rd_ordered _)
  have hb : (d.ordered w src).braked = d.braked := by simp [Dev.braked]
  have h' : (d.ordered w src).braked = true ∨ (!(d.ordered w src).awake) = true := by simpa [ha, hb] using h
  rw [show d.capOrder w src = (d.ordered w src).capNow from rfl, Dev.capNow, if_pos h']

theorem Dev.capOrder_acts (hb : d.braked = false) (ha : d.awake = true) : d.capOrder w src = (d.ordered w src).capApply := by
  have ha' : (d.ordered w src).awake = d.awake := Dev.awake_congr (Dev.rd_ordered _)
  have hb' : (d.ordered w src).braked = d.braked := by simp [Dev.braked]
  rw [show d.capOrder w src = (d.ordered w src).capNow from rfl, Dev.capNow, if_neg (by simp [ha', hb', ha, hb])]

/-- CAP_EFF and CAP_SRC as an order sets them (R568). -/
def Dev.capPlaced (d : Dev) : Dev :=
  (({ d with pwr := { d.pwr with pendingOrder := false } } : Dev).wr F.PWR_STAT_CAP_EFF d.capInForce).wr
    F.PWR_STAT_CAP_SRC (if d.pwr.thermal ∧ 380 ≤ d.pwr.order then 2 else d.pwr.orderSrc)

/-- These and VSET, with its pins (R570), before throttling. -/
def Dev.capSet (d : Dev) : Dev :=
  if d.capPlaced.rd F.PWR_STAT_VSET = capSetpoint d.capInForce then d.capPlaced
  else (d.capPlaced.wr F.PWR_STAT_VSET (capSetpoint d.capInForce)).emit (.pin "VCORE_SEL" (capSetpoint d.capInForce))

theorem capSetpoint_lt (w : Nat) : capSetpoint w < 4 := by
  unfold capSetpoint
  split_ifs <;> decide

theorem Dev.capApply_eq (d : Dev) : d.capApply = if d.capInForce < 380 then d.capSet.capUnreachable else
    let e := d.capSet.wr F.PWR_STAT_CAP_STATUS 0
    let e := if 500 ≤ d.capInForce then ({ e with pwr := { e.pwr with arraysHeld := false } } : Dev).widenLinks else e
    if d.capInForce < d.rd F.PWR_STAT_CAP_EFF then
      let r := e.throttleFor (e.rd F.PWR_AVG_AVG_W) d.capInForce
      r.2.wr F.PWR_STAT_THROTTLE r.1
    else e := rfl

theorem Dev.capInForce_lt (d : Dev) : d.capInForce < 2 ^ 10 := by
  unfold Dev.capInForce
  omega

@[simp] theorem Dev.capPlaced_pwr : d.capPlaced.pwr = { d.pwr with pendingOrder := false } := by simp [Dev.capPlaced]

theorem Dev.capPlaced_stat (hth : d.pwr.thermal = false) : d.capPlaced.rd F.PWR_STAT_CAP_EFF = d.capInForce ∧
    d.capPlaced.rd F.PWR_STAT_CAP_SRC = d.pwr.orderSrc % 4 ∧ d.capPlaced.rd F.PWR_STAT_CAP_STATUS = d.rd F.PWR_STAT_CAP_STATUS := by
  have hcap : d.capInForce % 2 ^ 10 = d.capInForce := Nat.mod_eq_of_lt d.capInForce_lt
  unfold Dev.capPlaced
  refine ⟨?_, ?_, ?_⟩
  · rw [Dev.rd_wr_ne _ _ _ _ (by decide), Dev.rd_wr_same _ _ _ (by decide)]
    exact hcap
  · rw [Dev.rd_wr_same _ _ _ (by decide)]
    simp [hth, F.PWR_STAT_CAP_SRC]
  · simp (disch := decide) [Dev.rd_wr_ne]

theorem Dev.word_capPlaced {a : Nat} (ha : a ≠ 0x1108) : d.capPlaced.word a = d.word a :=
  (Dev.word_wr_ne _ _ _ _ ha).trans (Dev.word_wr_ne _ _ _ _ ha)

/-- What `capSet` leaves in PWR_STAT, and that it touches no other register. -/
theorem Dev.capSet_stat (d : Dev) (hth : d.pwr.thermal = false) :
    d.capSet.rd F.PWR_STAT_CAP_EFF = d.capInForce ∧ d.capSet.rd F.PWR_STAT_CAP_SRC = d.pwr.orderSrc % 4 ∧
    d.capSet.rd F.PWR_STAT_VSET = capSetpoint d.capInForce ∧ d.capSet.rd F.PWR_STAT_CAP_STATUS = d.rd F.PWR_STAT_CAP_STATUS ∧
    d.capSet.pwr = { d.pwr with pendingOrder := false } ∧ ∀ a, a ≠ 0x1108 → d.capSet.word a = d.word a := by
  obtain ⟨heff, hsrc, hstat⟩ := d.capPlaced_stat hth
  unfold Dev.capSet
  split
  · next h => exact ⟨heff, hsrc, h, hstat, d.capPlaced_pwr, fun _ => Dev.word_capPlaced⟩
  · refine ⟨?_, ?_, ?_, ?_, ?_, fun a ha => ?_⟩
    · simpa (disch := decide) [Dev.rd_wr_ne] using heff
    · simpa (disch := decide) [Dev.rd_wr_ne] using hsrc
    · rw [Dev.rd_emit, Dev.rd_wr_same _ _ _ (by decide)]
      exact Nat.mod_eq_of_lt (capSetpoint_lt d.capInForce)
    · simpa (disch := decide) [Dev.rd_wr_ne] using hstat
    · simp
    · rw [Dev.word_emit]
      exact (Dev.word_wr_ne _ _ _ _ ha).trans (Dev.word_capPlaced ha)

/-- A cap that can be reached, while no link is narrowed: only the throttling level follows (R571). -/
theorem Dev.capApply_reached (hn : d.pwr.narrowed = false) (hth : d.pwr.thermal = false) (hcap : 380 ≤ d.capInForce) :
    d.capApply.rd F.PWR_STAT_CAP_EFF = d.capInForce ∧ d.capApply.rd F.PWR_STAT_CAP_SRC = d.pwr.orderSrc % 4 ∧
    d.capApply.rd F.PWR_STAT_VSET = capSetpoint d.capInForce ∧ d.capApply.rd F.PWR_STAT_CAP_STATUS = 0 ∧
    d.capApply.pwr.order = d.pwr.order ∧ d.capApply.pwr.orderSrc = d.pwr.orderSrc := by
  obtain ⟨heff, hsrc, hset, -, hpwr, -⟩ := d.capSet_stat hth
  have happly : d.capApply = (let e := d.capSet.wr F.PWR_STAT_CAP_STATUS 0
      let e := if 500 ≤ d.capInForce then ({ e with pwr := { e.pwr with arraysHeld := false } } : Dev).widenLinks else e
      if d.capInForce < d.rd F.PWR_STAT_CAP_EFF then
        let r := e.throttleFor (e.rd F.PWR_AVG_AVG_W) d.capInForce
        r.2.wr F.PWR_STAT_THROTTLE r.1
      else e) := by
    rw [Dev.capApply_eq, if_neg (Nat.not_lt.2 hcap)]
  have hthr : ∀ (e : Dev) (k c : Nat) (f : Fld), (e.throttleFor k c).2.rd f = e.rd f ∧ (e.throttleFor k c).2.pwr = e.pwr := by
    intro e k c f
    unfold Dev.throttleFor
    split <;> exact ⟨rfl, rfl⟩
  have hwide : ∀ e : Dev, e.pwr.narrowed = false → e.widenLinks = e := fun e he => by simp [Dev.widenLinks, he]
  rw [happly]
  dsimp only
  rw [hwide _ (by simp [hpwr, hn])]
  split_ifs <;> refine ⟨?_, ?_, ?_, ?_, ?_, ?_⟩ <;>
    simp (disch := decide) [Dev.rd_wr_ne, Dev.rd_wr_same, (hthr _ _ _ _).1, (hthr _ _ _ F.PWR_STAT_VSET).2, heff, hsrc, hset, hpwr]

/-- A cap that cannot be reached (R573), NARROW_EN = 0. -/
theorem Dev.capApply_unreachable (hth : d.pwr.thermal = false) (hcap : d.capInForce < 380) (hnarrow : d.rd F.PWR_CFG_NARROW_EN = 0)
    (hstat : d.rd F.PWR_STAT_CAP_STATUS = 0 ∨ d.rd F.PWR_STAT_CAP_STATUS = sCapUnreachable) :
    d.capApply.rd F.PWR_STAT_CAP_STATUS = sCapUnreachable ∧ d.capApply.rd F.PWR_STAT_THROTTLE = 7 ∧
    d.capApply.pwr.arraysHeld = true ∧ d.capApply.pwr.order = d.pwr.order ∧ d.capApply.pwr.orderSrc = d.pwr.orderSrc ∧
    d.capApply.rd F.PWR_STAT_CAP_EFF = d.capInForce ∧
    (d.rd F.PWR_STAT_CAP_STATUS = 0 → bit (d.capApply.word 0x1014) 1 = true) := by
  obtain ⟨heff, -, -, hst, hpwr, hword⟩ := d.capSet_stat hth
  rw [d.capApply_eq, if_pos hcap, Dev.capUnreachable]
  have hnarr : ∀ e : Dev, e.rd F.PWR_CFG_NARROW_EN = 0 → e.narrowLinks = e := fun e he => by simp [Dev.narrowLinks, he]
  have hnen : d.capSet.rd F.PWR_CFG_NARROW_EN = 0 := (Dev.rd_of_word _ (hword _ (by decide))).trans hnarrow
  dsimp only
  split
  · next h0 =>
    rw [hnarr _ (by simp (disch := decide) [Dev.rd_wr_ne, Dev.rd_capture, Dev.rd_event, hnen])]
    refine ⟨?_, ?_, ?_, ?_, ?_, ?_, fun _ => ?_⟩
    · simp (disch := decide) [Dev.rd_wr_ne, Dev.rd_wr_same, Dev.rd_capture, Dev.rd_event, sCapUnreachable, F.PWR_STAT_CAP_STATUS]
    · simp (disch := decide) [Dev.rd_wr_same, F.PWR_STAT_THROTTLE]
    · simp
    · simp [hpwr]
    · simp [hpwr]
    · simp (disch := decide) [Dev.rd_wr_ne, Dev.rd_capture, Dev.rd_event, heff]
    · rw [Dev.word_wr_ne _ _ _ _ (by decide)]
      refine (Dev.isr_capture _ (by decide) _ _ _ _ _ (by decide)).trans ?_
      rw [Dev.word_count]
      exact Dev.isr_event _ 1 (by decide)
  · next h0 =>
    have hset : d.rd F.PWR_STAT_CAP_STATUS = sCapUnreachable := hstat.resolve_left (hst ▸ h0)
    rw [hnarr _ (by simp (disch := decide) [Dev.rd_wr_ne, hnen])]
    refine ⟨?_, ?_, ?_, ?_, ?_, ?_, fun h => absurd (hst.trans h) h0⟩
    · simp (disch := decide) [Dev.rd_wr_ne, hst, hset]
    · simp (disch := decide) [Dev.rd_wr_same, F.PWR_STAT_THROTTLE]
    · simp
    · simp [hpwr]
    · simp [hpwr]
    · simp (disch := decide) [Dev.rd_wr_ne, heff]

end

/-- Cap orders of 380 W and more (R568 to R571). -/
theorem Dev.capOrder_reached {w src : Nat} {d : Dev} (hnar : d.pwr.narrowed = false) (hth : d.pwr.thermal = false) (hw : 380 ≤ w)
    (hsrc : src < 4) :
    (d.braked = false ∧ d.awake = true →
      (d.capOrder w src).rd F.PWR_STAT_CAP_EFF = min 950 w ∧ (d.capOrder w src).rd F.PWR_STAT_CAP_SRC = src ∧
      (d.capOrder w src).rd F.PWR_STAT_VSET = (if 800 ≤ w then 0 else if 640 ≤ w then 1 else if 500 ≤ w then 2 else 3) ∧
      (d.capOrder w src).rd F.PWR_STAT_CAP_STATUS = 0) ∧
    (d.braked = true ∨ d.awake = false →
      (d.capOrder w src).rd F.PWR_STAT_CAP_EFF = d.rd F.PWR_STAT_CAP_EFF ∧ (d.capOrder w src).pwr.pendingOrder = true) ∧
    (d.capOrder w src).pwr.order = w ∧ (d.capOrder w src).pwr.orderSrc = src := by
  obtain ⟨-, -, hpwr⟩ := d.ordered_frame (w := w) (src := src)
  have hcap : (d.ordered w src).capInForce = min 950 w := by simp [Dev.capInForce, hth]
  have hset : capSetpoint (min 950 w) = (if 800 ≤ w then 0 else if 640 ≤ w then 1 else if 500 ≤ w then 2 else 3) := by
    unfold capSetpoint
    split_ifs <;> omega
  obtain ⟨heff, hs, hv, hst, ho, hos⟩ := Dev.capApply_reached (d := d.ordered w src) (by simp [hnar]) (by simp [hth])
    (by omega)
  by_cases hact : d.braked = false ∧ d.awake = true
  · rw [Dev.capOrder_acts hact.1 hact.2]
    refine ⟨fun _ => ⟨heff.trans hcap, ?_, (hv.trans (by rw [hcap])).trans hset, hst⟩, fun h => ?_, ho.trans (by rw [hpwr]), hos.trans (by rw [hpwr])⟩
    · simp [hs, Nat.mod_eq_of_lt hsrc]
    · simp [hact.1, hact.2] at h
  · have hwait : d.braked = true ∨ d.awake = false := by
      cases hb : d.braked <;> cases ha : d.awake <;> simp_all
    rw [Dev.capOrder_waits hwait]
    exact ⟨fun h => absurd h hact, fun _ => ⟨Dev.rd_ordered _, rfl⟩, by simp, by simp⟩

/-- LIMIT_STROBE (R568). -/
theorem limitStrobe_orders {c : Fin 64} {s : State} (hoff : s.dev.glb.off = false) :
    exec (.limitStrobe c) s = .next (if s.dev.rd F.PWR_CFG_PIN_EN = 1 then
      { s with dev := s.dev.capOrder (if 60 ≤ c.val then 950 else 16 * c.val) 1 } else s) := by
  dsimp only [exec, execLimitStrobe]
  rw [onDev_ifPowered hoff, Dev.limitStrobe]
  split <;> rfl

/-- Cap orders below 380 W (R573). -/
theorem capOrder_unreachable : Said.CapUnreachable := by
  intro w src d hth hb ha hw hnarrow hstat
  obtain ⟨-, -, hpwr⟩ := d.ordered_frame (w := w) (src := src)
  have hcap : (d.ordered w src).capInForce = w := by
    simp only [Dev.capInForce, hpwr, hth]
    simp only [Bool.false_eq_true, if_false]
    omega
  rw [Dev.capOrder_acts hb ha]
  obtain ⟨hst, hthr, harr, -, -, heff, hisr⟩ := Dev.capApply_unreachable (d := d.ordered w src) (by simp [hth]) (by omega)
    (by simpa using hnarrow) (by simpa using hstat)
  exact ⟨hst, hthr, harr, heff.trans hcap, fun h => hisr (by simpa using h)⟩

/-- Settles O13: by the branches of a cap order, over the registers that each of them writes. -/
theorem powerCap : Obligations.PowerCap :=
  ⟨⟨fun _ _ _ hnar hth hw _ hsrc => Dev.capOrder_reached hnar hth hw hsrc, fun _ _ hoff => limitStrobe_orders hoff,
    fun _ _ _ hopen hown => capWrite_orders hopen hown⟩, capOrder_unreachable⟩

end Sys2Proof.Machine


/-!
SUPPORT. O56: the form of pool memory under the operations that write it: a line set, lines lost, lines cleared.
-/
namespace Sys2Proof.Machine

/-! ### The store -/

/-- Memory and covers in canonical form. -/
def Store.Canon (s : Store) : Prop := Memory.wf s.mem = true ∧ twf s.dflt s.covers = true

theorem safe_iff {s : State} : Safe s ↔ s.store.Canon := by
  simp [Safe, Store.Canon, Sys2Proof.Store.wf]

theorem wf_putMem (v : List Byte) : ∀ {m : List Host.Cell} {a : Nat}, Memory.wf m = true → Memory.wf (putMem m a v) = true := by
  induction v with
  | nil => exact id
  | cons b v ih => exact fun h => ih (twf_tset _ _ h)

@[simp] theorem Store.setLine_canon {s : Store} {l : Nat} {v : List Byte} {c : Cover} (h : s.Canon) : (s.setLine l v c).Canon :=
  ⟨wf_putMem v h.1, twf_tset l c h.2⟩

/-- A table keeps its canonical form under another default that agrees on the keys listed. -/
theorem twf_congr {α : Type} [DecidableEq α] {f g : Nat → α} {t : Tbl α} (he : ∀ e ∈ t, f e.1 = g e.1) (h : twf f t = true) :
    twf g t = true := by
  induction t with
  | nil => rfl
  | cons e t ih =>
    obtain ⟨a, v⟩ := e
    obtain ⟨ha, hv, ht⟩ := twf_cons.1 h
    exact twf_cons.2 ⟨ha, he _ (List.mem_cons_self) ▸ hv, ih (fun e h => he e (List.mem_cons_of_mem _ h)) ht⟩

/-- The range of a list of lost ranges that holds place `l`. -/
def lostAt (l : Nat) (r : List (Nat × Nat × Nat)) : Option (Nat × Nat × Nat) :=
  r.find? (fun e => decide (e.1 ≤ l) && decide (l < e.2.1))

theorem Store.dflt_eq (s : Store) (l : Nat) : s.dflt l = ((lostAt l s.lost).map fun e => Cover.lost e.2.2).getD (coverDflt l) := by
  unfold Store.dflt lostAt
  split <;> simp [*]

/-- Cut to what lies outside [lo, hi), the range that holds a place out there still does. -/
theorem lostAt_outside {lo hi l : Nat} (hl : l < lo ∨ hi ≤ l) (r : List (Nat × Nat × Nat)) :
    (lostAt l (lostOutside lo hi r)).map (·.2.2) = (lostAt l r).map (·.2.2) := by
  induction r with
  | nil => rfl
  | cons e r ih =>
    have hcons : lostOutside lo hi (e :: r) = [(e.1, min e.2.1 lo, e.2.2), (max e.1 hi, e.2.1, e.2.2)].filter (fun f => decide (f.1 < f.2.1))
        ++ lostOutside lo hi r := rfl
    rw [hcons]
    unfold lostAt at ih ⊢
    rw [List.find?_append, List.find?_cons]
    by_cases hin : e.1 ≤ l ∧ l < e.2.1
    · have hpiece : ∃ f : Nat × Nat × Nat, f.2.2 = e.2.2 ∧
          ([(e.1, min e.2.1 lo, e.2.2), (max e.1 hi, e.2.1, e.2.2)].filter (fun f => decide (f.1 < f.2.1))).find?
            (fun e => decide (e.1 ≤ l) && decide (l < e.2.1)) = some f := by
        by_cases hlo : l < lo
        · refine ⟨(e.1, min e.2.1 lo, e.2.2), rfl, ?_⟩
          have h1 : e.1 < min e.2.1 lo := by omega
          have h2 : l < min e.2.1 lo := by omega
          simp only [List.filter_cons, decide_eq_true h1, if_true, List.find?_cons, decide_eq_true hin.1, decide_eq_true h2,
            Bool.and_self]
        · refine ⟨(max e.1 hi, e.2.1, e.2.2), rfl, ?_⟩
          have h1 : max e.1 hi < e.2.1 := by omega
          have h2 : max e.1 hi ≤ l := by omega
          have h3 : ¬l < min e.2.1 lo := by omega
          by_cases h4 : e.1 < min e.2.1 lo <;>
            simp only [List.filter_cons, List.filter_nil, h4, h1, h2, h3, hin.2, decide_true, decide_false, if_true, if_false,
              Bool.false_eq_true, List.find?_cons, Bool.and_self, Bool.and_false]
      obtain ⟨f, hf, hfind⟩ := hpiece
      rw [hfind]
      simp [hin, hf]
    · have hnone : ([(e.1, min e.2.1 lo, e.2.2), (max e.1 hi, e.2.1, e.2.2)].filter (fun f => decide (f.1 < f.2.1))).find?
            (fun e => decide (e.1 ≤ l) && decide (l < e.2.1)) = none := by
        refine List.find?_eq_none.2 fun f hf => ?_
        have hf := (List.mem_filter.1 hf).1
        simp only [List.mem_cons, List.not_mem_nil, or_false] at hf
        have hbound : e.1 ≤ f.1 ∧ f.2.1 ≤ e.2.1 := by
          rcases hf with rfl | rfl
          · exact ⟨le_rfl, min_le_left _ _⟩
          · exact ⟨le_max_left _ _, le_rfl⟩
        simp only [Bool.and_eq_true, decide_eq_true_eq]
        omega
      have hnot : (decide (e.1 ≤ l) && decide (l < e.2.1)) = false := by
        simpa using hin
      rw [hnone, hnot, Option.none_or]
      exact ih

/-- Losing or clearing a range leaves the default covers outside it. -/
theorem dflt_lost {s t : Store} {lo hi l : Nat} (hl : l < lo ∨ hi ≤ l) {k : Nat}
    (ht : t.lost = lostOutside lo hi s.lost ++ [(lo, hi, k)] ∨ t.lost = lostOutside lo hi s.lost) : t.dflt l = s.dflt l := by
  have hout : lostAt l [(lo, hi, k)] = none := by
    simp only [lostAt, List.find?_eq_none, List.mem_cons, List.not_mem_nil, or_false, forall_eq, Bool.and_eq_true, decide_eq_true_eq]
    omega
  have hcut : (lostAt l t.lost).map (·.2.2) = (lostAt l s.lost).map (·.2.2) := by
    rw [← lostAt_outside hl s.lost]
    rcases ht with h | h
    · rw [h, lostAt, List.find?_append]
      change ((lostAt l (lostOutside lo hi s.lost)).or (lostAt l [(lo, hi, k)])).map _ = _
      rw [hout, Option.or_none]
    · rw [h]
  have hcov : ∀ r, (lostAt l r).map (fun e => Cover.lost e.2.2) = ((lostAt l r).map (·.2.2)).map Cover.lost := fun r => by
    rw [Option.map_map]
    rfl
  rw [Store.dflt_eq, Store.dflt_eq, hcov, hcov, hcut]

theorem Store.unlist_outside {s : Store} {lo hi : Nat} : ∀ e ∈ (s.unlist lo hi).covers, e.1 < lo ∨ hi ≤ e.1 := by
  intro e he
  have h := (List.mem_filter.1 he).2
  simp only [Bool.not_eq_true', Bool.and_eq_false_iff, decide_eq_false_iff_not] at h
  omega

theorem Store.unlist_canon {s : Store} {lo hi : Nat} (h : s.Canon) : (s.unlist lo hi).Canon :=
  ⟨twf_filter _ h.1, twf_filter _ h.2⟩

@[simp] theorem Store.lose_canon {s : Store} {lo hi key : Nat} (h : s.Canon) : (s.lose lo hi key).Canon :=
  ⟨(Store.unlist_canon h).1, twf_congr (fun e he => (dflt_lost (Store.unlist_outside e he) (.inl rfl)).symm) (Store.unlist_canon h).2⟩

@[simp] theorem Store.clearLines_canon {s : Store} {lo hi : Nat} (h : s.Canon) : (s.clearLines lo hi).Canon :=
  ⟨(Store.unlist_canon h).1,
    twf_congr (fun e he => (dflt_lost (k := 0) (Store.unlist_outside e he) (.inr rfl)).symm) (Store.unlist_canon h).2⟩

@[simp] theorem Store.empty_canon : ({} : Store).Canon := ⟨rfl, rfl⟩

end Sys2Proof.Machine


/-!
SUPPORT. O56: every operation of the package keeps the form of pool memory: one lemma each, in the order of the definitions, which `simp`
chains. The home agent and protection.
-/
namespace Sys2Proof.Machine

/-! ### Loops -/

theorem foldl_canon {α : Type} {f : Pkg → α → Pkg} (hf : ∀ (x : Pkg) (a : α), x.1.Canon → (f x a).1.Canon) {x : Pkg} (h : x.1.Canon)
    (l : List α) : (l.foldl f x).1.Canon := by
  induction l generalizing x with
  | nil => exact h
  | cons a l ih => exact ih (hf x a h)

/-- As `foldl_canon`, of a loop that also collects results. -/
theorem foldl_canon_snd {α β : Type} {f : β × Pkg → α → β × Pkg} (hf : ∀ (y : β × Pkg) (a : α), y.2.1.Canon → (f y a).2.1.Canon)
    {y : β × Pkg} (h : y.2.1.Canon) (l : List α) : (l.foldl f y).2.1.Canon := by
  induction l generalizing y with
  | nil => exact h
  | cons a l ih => exact ih (hf y a h)

theorem foldl_canon_fst {α β : Type} {f : Pkg × β → α → Pkg × β} (hf : ∀ (y : Pkg × β) (a : α), y.1.1.Canon → (f y a).1.1.Canon)
    {y : Pkg × β} (h : y.1.1.Canon) (l : List α) : (l.foldl f y).1.1.Canon := by
  induction l generalizing y with
  | nil => exact h
  | cons a l ih => exact ih (hf y a h)

theorem ite_canon {c : Prop} [Decidable c] {x y : Pkg} (hx : x.1.Canon) (hy : y.1.Canon) : (if c then x else y).1.Canon := by
  split <;> assumption

theorem ite_canon_snd {β : Type} {c : Prop} [Decidable c] {x y : β × Pkg} (hx : x.2.1.Canon) (hy : y.2.1.Canon) :
    (if c then x else y).2.1.Canon := by
  split <;> assumption

theorem Pkg.dev_canon {x : Pkg} {f : Dev → Dev} (h : x.1.Canon) : (x.dev f).1.Canon := h

/-- The store of a pair, so that the rest of the package is not compared. -/
theorem pair_canon {s : Store} {d : Dev} (h : s.Canon) : ((s, d) : Pkg).1.Canon := h

/-! ### The home agent -/

@[simp] theorem Pkg.writeLine_canon {x : Pkg} {l : Nat} {v : List Byte} {c : Cover} (h : x.1.Canon) :
    (Pkg.writeLine x l v c).1.Canon := by
  simp [Pkg.writeLine, Pkg.setLine, h]

@[simp] theorem Pkg.clearExt_canon {x : Pkg} {k : Nat} (h : x.1.Canon) : (Pkg.clearExt x k).1.Canon := by
  unfold Pkg.clearExt
  exact List.foldlRecOn _ _ h fun s hs r _ => Store.clearLines_canon hs

@[simp] theorem Pkg.setRegionOf_canon {x : Pkg} {n r : Nat} {e : Region} (h : x.1.Canon) : (Pkg.setRegionOf x n r e).1.Canon := by
  unfold Pkg.setRegionOf
  (repeat' split) <;> simp [h]

@[simp] theorem Pkg.applyLine_canon {w : LineW} {x : Pkg} (h : x.1.Canon) : (Pkg.applyLine w x).1.Canon := by
  unfold Pkg.applyLine
  split <;> simp [h]


@[simp] theorem Pkg.applyLines_canon {ws : List LineW} {x : Pkg} (h : x.1.Canon) : (Pkg.applyLines ws x).1.Canon := by
  exact foldl_canon (fun _ _ h => Pkg.applyLine_canon h) h ws

@[simp] theorem Pkg.protect_canon {o : HOp} {x : Pkg} (h : x.1.Canon) : (Pkg.protect o x).1.Canon := by
  unfold Pkg.protect
  dsimp only
  (repeat' split) <;> simp [h]


@[simp] theorem Pkg.takeLines_canon {k : Nat} {metadata : Bool} {ls : List (Nat × List Byte)} {x : Pkg} (h : x.1.Canon) :
    (Pkg.takeLines k metadata ls x).1.Canon := by
  unfold Pkg.takeLines
  exact foldl_canon (fun y p hy => ite_canon hy (ite_canon (Pkg.dev_canon hy) (Pkg.writeLine_canon hy))) h ls

@[simp] theorem Pkg.takeItem_canon {src node : Nat} {i : RebuildItem} {x : Pkg} (h : x.1.Canon) :
    (Pkg.takeItem src node i x).1.Canon := by
  unfold Pkg.takeItem
  cases i with
  | extent k m _ => exact Pkg.takeLines_canon (ite_canon (Pkg.dev_canon (Pkg.clearExt_canon h)) (Pkg.clearExt_canon h))
  | protEntry k w =>
    dsimp only
    split <;> simp [h]
  | orderEntry s e ex hist =>
    dsimp only
    split <;> simp [h]
  | line => exact Pkg.takeLines_canon h
  | forwarded => exact Pkg.dev_canon (Pkg.takeLines_canon h)
  | parity => exact Pkg.writeLine_canon (Pkg.dev_canon h)
  | phaseEnd => exact Pkg.dev_canon h

@[simp] theorem Pkg.finishOp_canon {o : HOp} {x : Pkg} (h : x.1.Canon) : (Pkg.finishOp o x).1.Canon := by
  unfold Pkg.finishOp
  (repeat' split) <;> simp [h]

@[simp] theorem Pkg.recorded_canon {o : HOp} {x : Pkg} (h : x.1.Canon) : (Pkg.recorded o x).1.Canon := by
  unfold Pkg.recorded
  split <;> simp [h]

@[simp] theorem Pkg.startRecon_canon {n k off m holder : Nat} {why : ReconFor} {x : Pkg} (h : x.1.Canon) :
    (Pkg.startRecon n k off m holder why x).1.Canon := by
  unfold Pkg.startRecon
  simp [h]


@[simp] theorem Pkg.reconOp_canon {o : HOp} {x : Pkg} (h : x.1.Canon) : (Pkg.reconOp o x).1.Canon := by
  unfold Pkg.reconOp
  dsimp only
  exact foldl_canon (fun _ _ h => Pkg.startRecon_canon h) (by exact h) _

@[simp] theorem Pkg.formLines_canon {o : HOp} {olds : List (List Byte)} {x : Pkg} (h : x.1.Canon) : (Pkg.formLines o olds x).1.Canon := by
  unfold Pkg.formLines
  simp [h]


@[simp] theorem Pkg.startWrite_canon {n : Nat} {r : Req} {kind : AKind} {media : List Media} {srcGpa gpa len k : Nat} {hk : HKind} {x : Pkg}
    (h : x.1.Canon) : (Pkg.startWrite n r kind media srcGpa gpa len k hk x).1.Canon := by
  unfold Pkg.startWrite
  lift_lets
  intro st p stop
  have hstop : ∀ (y : Pkg) (s : Nat), y.1.Canon → (stop y s).1.Canon := by
    intro y s hy
    simp only [stop]
    split <;> exact Pkg.dev_canon hy
  split
  · exact hstop _ _ (Pkg.dev_canon h)
  · refine ite_canon (hstop _ _ (Pkg.dev_canon h)) (ite_canon (Pkg.reconOp_canon h) ?_)
    dsimp only
    split
    · exact hstop _ _ (by simp [h])
    · exact ite_canon (Pkg.reconOp_canon (by simp [h])) (Pkg.formLines_canon (by simp [h]))

@[simp] theorem Pkg.serveRead_canon {n : Nat} {r : Req} {kind : AKind} {media : List Media} {k : Nat} {x : Pkg} (h : x.1.Canon) :
    (Pkg.serveRead n r kind media k x).1.Canon := by
  unfold Pkg.serveRead
  dsimp only
  split
  · exact Pkg.dev_canon h
  · exact ite_canon (Pkg.reconOp_canon h) (ite_canon (ite_canon (Pkg.reconOp_canon (by simp [h])) (by simp [h])) (by simp [h]))

@[simp] theorem Pkg.rcLine_canon {by_ k off : Nat} {parity : Bool} {x : Pkg} (h : x.1.Canon) :
    (Pkg.rcLine by_ k off parity x).2.1.Canon := by
  unfold Pkg.rcLine
  dsimp only
  split_ifs <;> simp [h]

@[simp] theorem Pkg.serveRc_canon {m : RcMsg} {x : Pkg} (h : x.1.Canon) : (Pkg.serveRc m x).1.Canon := by
  unfold Pkg.serveRc
  simp [h]

@[simp] theorem Pkg.serveOwn_canon {id member k off : Nat} {parity : Bool} {x : Pkg} (h : x.1.Canon) :
    (Pkg.serveOwn id member k off parity x).1.Canon := by
  unfold Pkg.serveOwn
  simp [h]

@[simp] theorem Pkg.protStart_canon {o : HOp} {x : Pkg} (h : x.1.Canon) : (Pkg.protStart o x).1.Canon := by
  unfold Pkg.protStart
  dsimp only
  (repeat' split) <;> simp [h]

@[simp] theorem Pkg.startItem_canon {i : HItem} {x : Pkg} (h : x.1.Canon) : (Pkg.startItem i x).1.Canon := by
  unfold Pkg.startItem
  dsimp only
  (repeat' split) <;> simp [h]


@[simp] theorem Pkg.pumpPass_canon {x : Pkg} (h : x.1.Canon) : (Pkg.pumpPass x).1.Canon := by
  unfold Pkg.pumpPass
  refine foldl_canon_fst (fun y i hy => ?_) (by exact h) _
  dsimp only
  split
  · exact Pkg.dev_canon hy
  · exact hy
  · split
    · exact hy
    · exact Pkg.startItem_canon hy

theorem Pkg.pumpN_canon (n : Nat) : ∀ {x : Pkg}, x.1.Canon → (Pkg.pumpN n x).1.Canon := by
  induction n with
  | zero => exact id
  | succ n ih => exact fun h => ite_canon (Pkg.pumpPass_canon h) (ih (Pkg.pumpPass_canon h))

@[simp] theorem Pkg.pump_canon {x : Pkg} (h : x.1.Canon) : (Pkg.pump x).1.Canon := by
  exact Pkg.pumpN_canon _ h

@[simp] theorem Pkg.enqueue_canon {i : HItem} {x : Pkg} (h : x.1.Canon) : (Pkg.enqueue i x).1.Canon := by
  unfold Pkg.enqueue
  simp [h]

@[simp] theorem Pkg.takePte_canon {n : Nat} {r : Req} {media : List Media} {x : Pkg} (h : x.1.Canon) :
    (Pkg.takePte n r media x).1.Canon := by
  unfold Pkg.takePte
  dsimp only
  (repeat' split) <;> simp [h]

@[simp] theorem Pkg.takePool_canon {n : Nat} {r : Req} {kind : AKind} {media : List Media} {srcGpa : Nat} {x : Pkg} (h : x.1.Canon) :
    (Pkg.takePool n r kind media srcGpa x).1.Canon := by
  unfold Pkg.takePool
  dsimp only
  (repeat' split) <;> simp [h]

@[simp] theorem Pkg.protIn_canon {o : HOp} {x : Pkg} (h : x.1.Canon) : (Pkg.protIn o x).1.Canon := by
  unfold Pkg.protIn
  simp [h]


@[simp] theorem Pkg.takeDelta_canon {m : DeltaMsg} {x : Pkg} (h : x.1.Canon) : (Pkg.takeDelta m x).1.Canon := by
  unfold Pkg.takeDelta
  refine ite_canon (Pkg.dev_canon h) (ite_canon ?_ (Pkg.protIn_canon h))
  split
  · exact ite_canon (Pkg.dev_canon h) (ite_canon (Pkg.dev_canon h) (Pkg.protIn_canon h))
  · exact Pkg.dev_canon h

@[simp] theorem Pkg.takeMirror_canon {m : MirrorMsg} {x : Pkg} (h : x.1.Canon) : (Pkg.takeMirror m x).1.Canon := by
  unfold Pkg.takeMirror
  refine ite_canon (Pkg.dev_canon h) (ite_canon (Pkg.protIn_canon ?_) (Pkg.dev_canon h))
  split
  · exact Pkg.dev_canon h
  · exact h

@[simp] theorem Pkg.takeRebuild_canon {m : RebuildMsg} {x : Pkg} (h : x.1.Canon) : (Pkg.takeRebuild m x).1.Canon := by
  unfold Pkg.takeRebuild
  lift_lets
  intro r y
  refine ite_canon (Pkg.dev_canon h) ?_
  exact Pkg.protIn_canon (Pkg.dev_canon h)

@[simp] theorem Pkg.takeWr_canon {n : Nat} {w : Wr} {x : Pkg} (h : x.1.Canon) : (Pkg.takeWr n w x).1.Canon := by
  unfold Pkg.takeWr
  lift_lets
  intro y
  have hy : y.1.Canon := Pkg.dev_canon h
  clear_value y
  cases w with
  | pool => exact Pkg.takePool_canon hy
  | delta => exact Pkg.takeDelta_canon hy
  | mirror => exact Pkg.takeMirror_canon hy
  | journal => exact Pkg.dev_canon hy
  | rebuild => exact Pkg.takeRebuild_canon hy

theorem Pkg.releaseEarly_canon (n : Nat) : ∀ {x : Pkg}, x.1.Canon → (Pkg.releaseEarly n x).1.Canon := by
  induction n with
  | zero => exact id
  | succ n ih =>
    intro x h
    unfold Pkg.releaseEarly
    split
    · exact ih (Pkg.takeWr_canon h)
    · exact h

@[simp] theorem Pkg.orderWrite_canon {n : Nat} {w : Wr} {x : Pkg} (h : x.1.Canon) : (Pkg.orderWrite n w x).1.Canon := by
  unfold Pkg.orderWrite
  dsimp only
  split
  case h_1 => exact Pkg.pump_canon (Pkg.releaseEarly_canon _ (Pkg.takeWr_canon h))
  case h_6 => exact Pkg.pump_canon (Pkg.dev_canon h)
  all_goals simp [h]

@[simp] theorem Pkg.writeIn_canon {n : Nat} {w : Wr} {x : Pkg} (h : x.1.Canon) : (Pkg.writeIn n w x).1.Canon := by
  unfold Pkg.writeIn
  dsimp only
  split <;> simp [h]

@[simp] theorem Pkg.arriveWrite_canon {n : Nat} {w : Wr} {x : Pkg} (h : x.1.Canon) : (Pkg.arriveWrite n w x).1.Canon := by
  unfold Pkg.arriveWrite
  dsimp only
  split_ifs <;> simp [h]

@[simp] theorem Pkg.poolWrite_canon {kind : AKind} {r : Req} {srcGpa : Nat} {media : List Media} {x : Pkg} (h : x.1.Canon) :
    (Pkg.poolWrite kind r srcGpa media x).1.Canon := by
  unfold Pkg.poolWrite
  simp [h]

@[simp] theorem Pkg.readIn_canon {kind : AKind} {r : Req} {media : List Media} {x : Pkg} (h : x.1.Canon) :
    (Pkg.readIn kind r media x).1.Canon := by
  unfold Pkg.readIn
  dsimp only
  split_ifs <;> simp [h]

@[simp] theorem Pkg.poolRead_canon {kind : AKind} {r : Req} {media : List Media} {x : Pkg} (h : x.1.Canon) :
    (Pkg.poolRead kind r media x).1.Canon := by
  unfold Pkg.poolRead
  split <;> simp [h]


theorem Pkg.onRegion_canon {r : Req} {f : Nat → Nat → Region → Pkg → Pkg} {x : Pkg} (h : x.1.Canon)
    (hf : ∀ n i e, (f n i e x).1.Canon) : (Pkg.onRegion r f x).1.Canon := by
  unfold Pkg.onRegion
  exact ite_canon (Pkg.dev_canon h) (ite_canon h (ite_canon (Pkg.dev_canon h) (hf _ _ _)))

@[simp] theorem Pkg.versionIn_canon {r : Req} {x : Pkg} (h : x.1.Canon) : (Pkg.versionIn r x).1.Canon := by
  exact Pkg.onRegion_canon h fun _ _ _ => Pkg.dev_canon h

@[simp] theorem Pkg.publishIn_canon {r : Req} {x : Pkg} (h : x.1.Canon) : (Pkg.publishIn r x).1.Canon := by
  refine Pkg.onRegion_canon h fun n i e => ite_canon (Pkg.dev_canon h) (ite_canon (Pkg.dev_canon h) ?_)
  have hs := Pkg.setRegionOf_canon (n := n) (r := i) (e := { e with version := leNat (sliceBytes r.data 4 4) }) h
  dsimp only
  split
  · exact hs
  · split
    · exact hs
    · exact Pkg.dev_canon hs

@[simp] theorem Pkg.regionOp_canon {pub : Bool} {r : Req} {x : Pkg} (h : x.1.Canon) : (Pkg.regionOp pub r x).1.Canon := by
  unfold Pkg.regionOp
  split_ifs <;> simp [h]

@[simp] theorem Pkg.regionPteIn_canon {src region page entry : Nat} {media : List Media} {x : Pkg} (h : x.1.Canon) :
    (Pkg.regionPteIn src region page entry media x).1.Canon := by
  unfold Pkg.regionPteIn
  dsimp only
  (repeat' split) <;> simp [h]

@[simp] theorem Pkg.regionPte_canon {src region page entry : Nat} {media : List Media} {x : Pkg} (h : x.1.Canon) :
    (Pkg.regionPte src region page entry media x).1.Canon := by
  unfold Pkg.regionPte
  split <;> simp [h]


@[simp] theorem Pkg.queryIn_canon {q : AttnQuery} {x : Pkg} (h : x.1.Canon) : (Pkg.queryIn q x).1.Canon := by
  unfold Pkg.queryIn
  refine Pkg.dev_canon (foldl_canon_snd (fun y p hy => ?_) (by exact h) _)
  exact ite_canon_snd (by exact hy) (by exact hy)

@[simp] theorem Pkg.attnQuery_canon {q : AttnQuery} {x : Pkg} (h : x.1.Canon) : (Pkg.attnQuery q x).1.Canon := by
  unfold Pkg.attnQuery
  split_ifs <;> simp [h]

@[simp] theorem Pkg.performNext_canon {o : HOp} {x : Pkg} (h : x.1.Canon) : (Pkg.performNext o x).1.Canon := by
  unfold Pkg.performNext
  (repeat' split) <;> simp [h]

@[simp] theorem Pkg.writePerformed_canon {id : Nat} {x : Pkg} (h : x.1.Canon) : (Pkg.writePerformed id x).1.Canon := by
  unfold Pkg.writePerformed
  (repeat' split) <;> simp [h]


@[simp] theorem Pkg.holeTimeout_canon {n src eng : Nat} {x : Pkg} (h : x.1.Canon) : (Pkg.holeTimeout n src eng x).1.Canon := by
  unfold Pkg.holeTimeout
  dsimp only
  split
  · exact ite_canon (Pkg.pump_canon (Pkg.dev_canon h)) h
  · exact h

@[simp] theorem Pkg.orderResync_canon {n src eng rseq : Nat} {x : Pkg} (h : x.1.Canon) : (Pkg.orderResync n src eng rseq x).1.Canon := by
  unfold Pkg.orderResync
  dsimp only
  (repeat' split) <;> simp [h]


@[simp] theorem Pkg.quarantineEnd_canon {n src eng : Nat} {x : Pkg} (h : x.1.Canon) : (Pkg.quarantineEnd n src eng x).1.Canon := by
  exact ite_canon (Pkg.pump_canon (Pkg.dev_canon h)) h

@[simp] theorem Pkg.nearScrub_canon {off : Nat} {media : Media} {x : Pkg} (h : x.1.Canon) : (Pkg.nearScrub off media x).1.Canon := by
  unfold Pkg.nearScrub
  dsimp only
  split_ifs <;> simp [h]

@[simp] theorem Pkg.bulkScrub_canon {off : Nat} {media : Media} {x : Pkg} (h : x.1.Canon) : (Pkg.bulkScrub off media x).1.Canon := by
  unfold Pkg.bulkScrub
  dsimp only
  split_ifs <;> simp [h]

@[simp] theorem Pkg.correctionWriteback_canon {l : Nat} {x : Pkg} (h : x.1.Canon) : (Pkg.correctionWriteback l x).1.Canon := by
  unfold Pkg.correctionWriteback
  split <;> simp [h]


/-! ### Protection -/

@[simp] theorem Pkg.bindNext_canon {x : Pkg} (h : x.1.Canon) : (Pkg.bindNext x).1.Canon := by
  unfold Pkg.bindNext
  (repeat' split) <;> simp [h]


@[simp] theorem Pkg.bindLine_canon {c : Recon} {x : Pkg} (h : x.1.Canon) : (Pkg.bindLine c x).1.Canon := by
  unfold Pkg.bindLine
  split
  · exact ite_canon (Pkg.bindNext_canon (Pkg.dev_canon (ite_canon h (Pkg.writeLine_canon h)))) h
  · exact h

theorem Pkg.protAnswer_canon {p : Purpose} {f : Pkg → Pkg} {x : Pkg} (hf : ∀ y : Pkg, y.1.Canon → (f y).1.Canon) (h : x.1.Canon) :
    (Pkg.protAnswer p f x).1.Canon := by
  unfold Pkg.protAnswer
  split
  · exact ite_canon (Pkg.dev_canon h) (hf _ (Pkg.dev_canon h))
  · exact Pkg.dev_canon h

@[simp] theorem Pkg.journalAnswer_canon {id status : Nat} {x : Pkg} (h : x.1.Canon) : (Pkg.journalAnswer id status x).1.Canon := by
  unfold Pkg.journalAnswer
  split
  · exact h
  · refine ite_canon h (Pkg.pump_canon (ite_canon ?_ ?_))
    · split
      · exact Pkg.dev_canon (ite_canon (Pkg.dev_canon h) h)
      · exact Pkg.recorded_canon (ite_canon (Pkg.dev_canon h) h)
    · split
      · exact Pkg.recorded_canon (ite_canon (Pkg.dev_canon h) h)
      · exact Pkg.finishOp_canon (ite_canon (Pkg.dev_canon h) h)
      · exact Pkg.recorded_canon (ite_canon (Pkg.dev_canon h) h)

@[simp] theorem Pkg.settleOp_canon {o : HOp} {x : Pkg} (h : x.1.Canon) : (Pkg.settleOp o x).1.Canon := by
  unfold Pkg.settleOp
  (repeat' split) <;> simp [h]


@[simp] theorem Pkg.deltaAnswer_canon {id line status : Nat} {x : Pkg} (h : x.1.Canon) : (Pkg.deltaAnswer id line status x).1.Canon := by
  unfold Pkg.deltaAnswer
  split
  · exact h
  · lift_lets
    intro p y z w left bad
    have hy : y.1.Canon := ite_canon (Pkg.dev_canon h) (ite_canon (Pkg.dev_canon h) h)
    clear_value y
    have hz : z.1.Canon := by
      simp only [z]
      split
      · exact ite_canon hy (Pkg.applyLine_canon hy)
      · exact hy
    clear_value z
    exact ite_canon h (Pkg.pump_canon (Pkg.settleOp_canon (ite_canon (Pkg.dev_canon hz) hz)))

@[simp] theorem Pkg.mirrorAnswer_canon {id status : Nat} {x : Pkg} (h : x.1.Canon) : (Pkg.mirrorAnswer id status x).1.Canon := by
  unfold Pkg.mirrorAnswer
  split
  · exact h
  · refine ite_canon h (Pkg.pump_canon (Pkg.settleOp_canon ?_))
    exact ite_canon h (ite_canon (Pkg.dev_canon h) (ite_canon (Pkg.dev_canon h) (Pkg.dev_canon h)))

@[simp] theorem Pkg.rcIn_canon {m : RcMsg} {x : Pkg} (h : x.1.Canon) : (Pkg.rcIn m x).1.Canon := by
  exact ite_canon h (ite_canon (Pkg.serveRc_canon (Pkg.dev_canon h)) (Pkg.enqueue_canon h))

@[simp] theorem Pkg.rcRead_canon {m : RcMsg} {x : Pkg} (h : x.1.Canon) : (Pkg.rcRead m x).1.Canon := by
  unfold Pkg.rcRead
  split <;> simp [h]


@[simp] theorem Pkg.rcRelease_canon {m : RcMsg} {x : Pkg} (h : x.1.Canon) : (Pkg.rcRelease m x).1.Canon := by
  exact Pkg.pump_canon (Pkg.dev_canon h)

@[simp] theorem Pkg.rcTimeout_canon {k off : Nat} {x : Pkg} (h : x.1.Canon) : (Pkg.rcTimeout k off x).1.Canon := by
  unfold Pkg.rcTimeout
  split
  · exact h
  · exact ite_canon (Pkg.pump_canon (Pkg.dev_canon h)) h

@[simp] theorem Pkg.writeBack_canon {o : HOp} {plain : List (List Byte)} {x : Pkg} (h : x.1.Canon) :
    (Pkg.writeBack o plain x).1.Canon := by
  exact foldl_canon (fun _ _ hy => ite_canon (Pkg.applyLine_canon hy) hy) h _

@[simp] theorem Pkg.reconReady_canon {o : HOp} {x : Pkg} (h : x.1.Canon) : (Pkg.reconReady o x).1.Canon := by
  unfold Pkg.reconReady
  dsimp only
  split
  · exact ite_canon (Pkg.dev_canon h) (Pkg.dev_canon (Pkg.writeBack_canon (Pkg.dev_canon h)))
  · exact Pkg.dev_canon (ite_canon h (Pkg.writeBack_canon h))
  · exact ite_canon (Pkg.formLines_canon h) (ite_canon (Pkg.dev_canon (Pkg.dev_canon h)) h)

@[simp] theorem Pkg.rebuildNext_canon {x : Pkg} (h : x.1.Canon) : (Pkg.rebuildNext x).1.Canon := by
  unfold Pkg.rebuildNext
  (repeat' split) <;> simp [h]


@[simp] theorem Pkg.reconDone_canon {c : Recon} {x : Pkg} (h : x.1.Canon) : (Pkg.reconDone c x).1.Canon := by
  unfold Pkg.reconDone
  lift_lets
  intro y keep z l
  have hz : z.1.Canon := ite_canon (Pkg.dev_canon h) (Pkg.dev_canon (Pkg.dev_canon h))
  clear_value z
  refine Pkg.pump_canon ?_
  split
  · split
    · exact hz
    · exact ite_canon (Pkg.dev_canon hz) (Pkg.reconReady_canon (Pkg.dev_canon hz))
  · exact ite_canon hz (Pkg.dev_canon hz)
  · exact Pkg.bindLine_canon hz
  · split
    · exact hz
    · exact Pkg.rebuildNext_canon (Pkg.dev_canon (ite_canon hz (Pkg.dev_canon hz)))

@[simp] theorem Pkg.reconTake_canon {id member : Nat} {bad : Bool} {data : List Byte} {x : Pkg} (h : x.1.Canon) :
    (Pkg.reconTake id member bad data x).1.Canon := by
  unfold Pkg.reconTake
  split
  · exact h
  · dsimp only
    refine ite_canon h (ite_canon (Pkg.pump_canon ?_) (ite_canon (Pkg.reconDone_canon ?_) ?_)) <;> simp [h]

@[simp] theorem Pkg.reconAnswer_canon {id member status : Nat} {stale : Bool} {data : List Byte} {x : Pkg} (h : x.1.Canon) :
    (Pkg.reconAnswer id member status stale data x).1.Canon := by
  unfold Pkg.reconAnswer
  simp [h]


theorem Pkg.reconStep_canon {x y : Pkg} (hy : x.reconStep = some y) (h : x.1.Canon) : y.1.Canon := by
  obtain ⟨c, -, hc⟩ := List.exists_of_findSome?_eq_some hy
  split at hc
  · cases hc
  · cases hc
    exact Pkg.reconTake_canon (Pkg.dev_canon h)

@[simp] theorem Pkg.protRepair_canon {src line : Nat} {x : Pkg} (h : x.1.Canon) : (Pkg.protRepair src line x).1.Canon := by
  unfold Pkg.protRepair
  dsimp only
  (repeat' split) <;> simp [h]


@[simp] theorem Pkg.beginPhase_canon {r : Rebuild} {x : Pkg} (h : x.1.Canon) : (Pkg.beginPhase r x).1.Canon := by
  unfold Pkg.beginPhase
  dsimp only
  split
  · exact Pkg.dev_canon h
  · exact Pkg.dev_canon h
  · exact Pkg.rebuildNext_canon (Pkg.dev_canon h)
  · exact Pkg.rebuildNext_canon (Pkg.dev_canon (Pkg.dev_canon (Pkg.dev_canon h)))

@[simp] theorem Pkg.rebuildStart_canon {src : Nat} {a : NodeGen} {spare : Nat} {spareRole : Bool} {st lt : Nat} {x : Pkg} (h : x.1.Canon) :
    (Pkg.rebuildStart src a spare spareRole st lt x).1.Canon := by
  unfold Pkg.rebuildStart
  lift_lets
  intro answer y
  have hans : ∀ (r : Nat) (z : Pkg), z.1.Canon → (answer r z).1.Canon := fun r z hz => Pkg.dev_canon hz
  have hy : y.1.Canon := ite_canon (Pkg.dev_canon h) h
  clear_value y answer
  intros
  exact ite_canon (hans _ _ h) (ite_canon (hans _ _ hy) (ite_canon (hans _ _ hy) (Pkg.beginPhase_canon (hans _ _ hy))))

@[simp] theorem Pkg.phaseAck_canon {phase : Nat} {x : Pkg} (h : x.1.Canon) : (Pkg.phaseAck phase x).1.Canon := by
  unfold Pkg.phaseAck
  (repeat' split) <;> simp [h]

@[simp] theorem Pkg.wardsPhase_canon {src lost spare : Nat} {x : Pkg} (h : x.1.Canon) : (Pkg.wardsPhase src lost spare x).1.Canon := by
  unfold Pkg.wardsPhase
  split <;> simp [h]


/-! ### What the home goes on with -/

@[simp] theorem Pkg.enterHome_canon {a : HArr} {x : Pkg} (h : x.1.Canon) : (Pkg.enterHome a x).1.Canon := by
  unfold Pkg.enterHome
  (repeat' split) <;> simp [h]


theorem Pkg.homeStep_canon {x y : Pkg} (hy : x.homeStep = some y) (h : x.1.Canon) : y.1.Canon := by
  unfold Pkg.homeStep at hy
  split at hy
  · next hr =>
    cases hy
    exact Pkg.reconStep_canon hr h
  · split at hy
    · cases hy
    · split at hy
      · cases hy
        exact Pkg.pump_canon (Pkg.takeWr_canon h)
      · obtain ⟨a, -, rfl⟩ := Option.map_eq_some_iff.1 hy
        exact Pkg.enterHome_canon h

theorem Pkg.homeGoFor_canon (n : Nat) : ∀ {x : Pkg}, x.1.Canon → (Pkg.homeGoFor n x).1.Canon := by
  induction n with
  | zero => exact id
  | succ n ih =>
    intro x h
    unfold Pkg.homeGoFor
    split
    · next hy => exact ih (Pkg.homeStep_canon hy h)
    · exact h

@[simp] theorem Pkg.homeGo_canon {x : Pkg} (h : x.1.Canon) : (Pkg.homeGo x).1.Canon := by
  exact Pkg.homeGoFor_canon _ h

theorem Pkg.thenHome_canon {f : Pkg → Pkg} {x : Pkg} (h : (f x).1.Canon) : (Pkg.thenHome f x).1.Canon :=
  ite_canon h (Pkg.homeGo_canon h)
end Sys2Proof.Machine


/-!
SUPPORT. O56, continued: translation, the landings and the host port, the Ferryman, arrays, ferries, collectives, attention and dispatch.
-/
namespace Sys2Proof.Machine

/-! ### Translation -/

@[simp] theorem Pkg.fault_canon {r : XReq} {cause seg region : Nat} {x : Pkg} (h : x.1.Canon) :
    (Pkg.fault r cause seg region x).1.Canon := by
  unfold Pkg.fault
  simp [h]


@[simp] theorem Pkg.walkFault_canon {w : Walk} {cause : Nat} {c : Option CtxEnt} {seg region : Nat} {x : Pkg} (h : x.1.Canon) :
    (Pkg.walkFault w cause c seg region x).2.1.Canon := by
  unfold Pkg.walkFault
  refine foldl_canon_snd (fun y r hy => ?_) (by exact Pkg.dev_canon h) _
  exact Pkg.fault_canon hy

@[simp] theorem Pkg.walkHit_canon {w : Walk} {c : CtxEnt} {seg : Nat} {de : DescEnt} {gpaPage : Nat} {x : Pkg} (h : x.1.Canon) :
    (Pkg.walkHit w c seg de gpaPage x).2.1.Canon := by
  unfold Pkg.walkHit
  refine foldl_canon_snd (fun y r hy => ?_) (by exact Pkg.dev_canon h) _
  split
  · exact Pkg.fault_canon hy
  · exact ite_canon (Pkg.dev_canon hy) hy

@[simp] theorem Pkg.walkStep_canon {w : Walk} {st : XStep} {x : Pkg} (h : x.1.Canon) : (Pkg.walkStep w st x).2.1.Canon := by
  unfold Pkg.walkStep
  cases st with
  | fault => exact Pkg.walkFault_canon h
  | read => exact ite_canon_snd (Pkg.dev_canon h) (Pkg.dev_canon h)

@[simp] theorem Pkg.walkRun_canon {w : Walk} {x : Pkg} (h : x.1.Canon) : (Pkg.walkRun w x).2.1.Canon := by
  exact Pkg.walkStep_canon h

@[simp] theorem Pkg.walkAnswer_canon {id status : Nat} {v : List Byte} {x : Pkg} (h : x.1.Canon) :
    (Pkg.walkAnswer id status v x).2.1.Canon := by
  unfold Pkg.walkAnswer
  split
  · exact h
  · refine ite_canon_snd (Pkg.walkRun_canon (Pkg.dev_canon h)) ?_
    refine ite_canon_snd ?_ ?_
    · split <;> exact Pkg.walkFault_canon h
    · split
      · exact ite_canon_snd (Pkg.walkFault_canon h) (ite_canon_snd (Pkg.walkFault_canon h) (Pkg.walkHit_canon h))
      · exact Pkg.walkStep_canon h

@[simp] theorem Pkg.translateOn_canon {r : XReq} {x : Pkg} (h : x.1.Canon) : (Pkg.translateOn r x).2.1.Canon := by
  unfold Pkg.translateOn
  dsimp only
  (repeat' split) <;> simp [h]

@[simp] theorem Pkg.translate_canon {r : XReq} {x : Pkg} (h : x.1.Canon) : (Pkg.translate r x).2.1.Canon := by
  unfold Pkg.translate
  split <;> simp [h]


@[simp] theorem Pkg.retryBlocked_canon {x : Pkg} (h : x.1.Canon) : (Pkg.retryBlocked x).2.1.Canon := by
  unfold Pkg.retryBlocked
  refine foldl_canon_snd (fun y r hy => ?_) (by exact Pkg.dev_canon h) _
  exact Pkg.translateOn_canon hy

@[simp] theorem Pkg.walkStart_canon {x : Pkg} (h : x.1.Canon) : (Pkg.walkStart x).2.1.Canon := by
  unfold Pkg.walkStart
  split
  · exact h
  · exact ite_canon_snd h (Pkg.retryBlocked_canon (Pkg.walkRun_canon (Pkg.dev_canon h)))

/-! ### Landings and the host port -/

@[simp] theorem Pkg.lndFenceGo_canon {n old : Nat} {x : Pkg} (h : x.1.Canon) : (Pkg.lndFenceGo n old x).1.Canon := by
  unfold Pkg.lndFenceGo
  dsimp only
  split_ifs <;> simp [h]


@[simp] theorem Pkg.portEnter_canon {p : Nat} {r : PortReq} {x : Pkg} (h : x.1.Canon) : (Pkg.portEnter p r x).1.Canon := by
  unfold Pkg.portEnter
  refine ite_canon (Pkg.dev_canon ?_) (Pkg.dev_canon h)
  refine foldl_canon_snd (fun y q hy => ?_) (by exact h) _
  exact Pkg.translate_canon hy

@[simp] theorem Pkg.plainFault_canon {n cause : Nat} {r : PortReq} {x : Pkg} (h : x.1.Canon) : (Pkg.plainFault n cause r x).1.Canon := by
  unfold Pkg.plainFault
  simp [h]


@[simp] theorem Pkg.lndEnter_canon {n : Nat} {old : Option Nat} {r : PortReq} {x : Pkg} (h : x.1.Canon) :
    (Pkg.lndEnter n old r x).1.Canon := by
  unfold Pkg.lndEnter
  lift_lets
  intro e barred ends i d r'
  have hends : ∀ y : Pkg, y.1.Canon → (ends y).1.Canon := by
    intro y hy
    simp only [ends]
    split
    · exact Pkg.dev_canon hy
    · exact hy
  exact ite_canon (Pkg.plainFault_canon (hends _ h)) (ite_canon (Pkg.plainFault_canon (hends _ h)) (Pkg.portEnter_canon (by exact h)))

theorem Pkg.lndTake_canon {w : LWait} {before : List LWait} {x y : Pkg} (hy : x.lndTake w before = some y) (h : x.1.Canon) : y.1.Canon := by
  unfold Pkg.lndTake at hy
  dsimp only at hy
  split at hy
  · cases hy
  · split at hy
    · cases hy
      exact h
    · split at hy
      · cases hy
        exact h
      · split at hy
        · cases hy
        · cases hy
          exact Pkg.lndEnter_canon (Pkg.dev_canon h)

@[simp] theorem Pkg.lndOffer_canon {w : LWait} {x : Pkg} (h : x.1.Canon) : (Pkg.lndOffer w x).1.Canon := by
  unfold Pkg.lndOffer
  split
  · next hy => exact Pkg.lndTake_canon hy h
  · exact Pkg.dev_canon h

@[simp] theorem Pkg.lndRequest_canon {op : Nat} {q : LReq} {x : Pkg} (h : x.1.Canon) : (Pkg.lndRequest op q x).1.Canon := by
  unfold Pkg.lndRequest
  dsimp only
  (repeat' split) <;> simp [h]


theorem Pkg.lndGateStep_canon {n : Nat} {x y : Pkg} (hy : x.lndGateStep n = some y) (h : x.1.Canon) : y.1.Canon := by
  obtain ⟨e, -, he⟩ := List.exists_of_findSome?_eq_some hy
  exact Pkg.lndTake_canon he (Pkg.dev_canon h)

@[simp] theorem Pkg.lndData_canon {n tag : Nat} {data : List Byte} {x : Pkg} (h : x.1.Canon) : (Pkg.lndData n tag data x).1.Canon := by
  unfold Pkg.lndData
  dsimp only
  (repeat' split) <;> simp [h]


@[simp] theorem Pkg.hostEnter_canon {op id w : Nat} {v : HWin} {len : Nat} {data : List Byte} {x : Pkg} (h : x.1.Canon) :
    (Pkg.hostEnter op id w v len data x).1.Canon := by
  exact foldl_canon (fun _ _ hy => Pkg.portEnter_canon (by exact hy)) h _

@[simp] theorem Pkg.bar2Read_canon {id off len : Nat} {v : HWin} {x : Pkg} (h : x.1.Canon) : (Pkg.bar2Read id off len v x).1.Canon := by
  unfold Pkg.bar2Read
  dsimp only
  split
  · exact h
  · exact h
  · exact ite_canon (Pkg.dev_canon h) (Pkg.hostEnter_canon (Pkg.dev_canon h))

@[simp] theorem Pkg.bar2Write_canon {off : Nat} {data : List Byte} {v : HWin} {x : Pkg} (h : x.1.Canon) :
    (Pkg.bar2Write off data v x).1.Canon := by
  unfold Pkg.bar2Write
  (repeat' split) <;> simp [h]

@[simp] theorem Pkg.bar2Atomic_canon {id off aop : Nat} {data : List Byte} {v : HWin} {x : Pkg} (h : x.1.Canon) :
    (Pkg.bar2Atomic id off aop data v x).1.Canon := by
  unfold Pkg.bar2Atomic
  dsimp only
  (repeat' split) <;> simp [h]


/-! ### The Ferryman -/

@[simp] theorem Pkg.opPage_canon {id side lva : Nat} {kind : AKind} {tile : Bool} {x : Pkg} (h : x.1.Canon) :
    (Pkg.opPage id side lva kind tile x).1.Canon := by
  unfold Pkg.opPage
  (repeat' split) <;> simp [h]


@[simp] theorem Pkg.slotRead_canon {r : Nat} {x : Pkg} (h : x.1.Canon) : (Pkg.slotRead r x).1.Canon := by
  unfold Pkg.slotRead
  refine ite_canon (pair_canon h) ?_
  split <;> exact pair_canon h

@[simp] theorem Pkg.opAccept_canon {r : Nat} {x : Pkg} (h : x.1.Canon) : (Pkg.opAccept r x).1.Canon := by
  unfold Pkg.opAccept
  dsimp only
  split_ifs <;> simp [h]

@[simp] theorem Pkg.fetchGo_canon {r : Nat} {x : Pkg} (h : x.1.Canon) : (Pkg.fetchGo r x).1.Canon := by
  unfold Pkg.fetchGo
  dsimp only
  (repeat' split) <;> simp [h]

@[simp] theorem Pkg.ringFetch_canon {r : Nat} {x : Pkg} (h : x.1.Canon) : (Pkg.ringFetch r x).1.Canon := by
  unfold Pkg.ringFetch
  dsimp only
  split_ifs <;> simp [h]

@[simp] theorem Pkg.ringGo_canon {r : Nat} {x : Pkg} (h : x.1.Canon) : (Pkg.ringGo r x).1.Canon := by
  unfold Pkg.ringGo
  simp [h]


@[simp] theorem Pkg.fetchAll_canon {x : Pkg} (h : x.1.Canon) : (Pkg.fetchAll x).1.Canon := by
  exact foldl_canon (fun _ _ hy => Pkg.ringGo_canon hy) h _

@[simp] theorem Pkg.slotReturn_canon {r status : Nat} {data : List Byte} {x : Pkg} (h : x.1.Canon) :
    (Pkg.slotReturn r status data x).1.Canon := by
  unfold Pkg.slotReturn
  dsimp only
  (repeat' split) <;> simp [h]

@[simp] theorem Pkg.acceptWaiting_canon {r : Nat} {x : Pkg} (h : x.1.Canon) : (Pkg.acceptWaiting r x).1.Canon := by
  unfold Pkg.acceptWaiting
  simp [h]

@[simp] theorem Pkg.doorbell_canon {via : Nat} {ok : Bool} {r : Nat} {completion : Bool} {v : Nat} {x : Pkg} (h : x.1.Canon) :
    (Pkg.doorbell via ok r completion v x).1.Canon := by
  unfold Pkg.doorbell
  dsimp only
  split_ifs <;> simp [h]

@[simp] theorem Pkg.fabricDoorbell_canon {r : Nat} {completion : Bool} {v ticket : Nat} {x : Pkg} (h : x.1.Canon) :
    (Pkg.fabricDoorbell r completion v ticket x).1.Canon := by
  unfold Pkg.fabricDoorbell
  simp [h]

@[simp] theorem Pkg.lndDoorbell_canon {n node r : Nat} {completion : Bool} {v ticket : Nat} {x : Pkg} (h : x.1.Canon) :
    (Pkg.lndDoorbell n node r completion v ticket x).1.Canon := by
  unfold Pkg.lndDoorbell
  split <;> simp [h]

@[simp] theorem Pkg.opFree_canon {o : FOp} {x : Pkg} (h : x.1.Canon) : (Pkg.opFree o x).1.Canon := by
  unfold Pkg.opFree
  simp [h]

@[simp] theorem Pkg.recordDone_canon {c : Nat} {o : FOp} {x : Pkg} (h : x.1.Canon) : (Pkg.recordDone c o x).1.Canon := by
  unfold Pkg.recordDone
  simp [h]

@[simp] theorem Pkg.recordWrite_canon {c : Nat} {x : Pkg} (h : x.1.Canon) : (Pkg.recordWrite c x).1.Canon := by
  unfold Pkg.recordWrite
  dsimp only
  (repeat' split) <;> simp [h]

@[simp] theorem Pkg.recordAnswer_canon {c op gen status : Nat} {x : Pkg} (h : x.1.Canon) :
    (Pkg.recordAnswer c op gen status x).1.Canon := by
  unfold Pkg.recordAnswer
  dsimp only
  (repeat' split) <;> simp [h]


/-! ### Arrays -/

@[simp] theorem Pkg.spanAccess_canon {o : FOp} {ks : List Nat} {x : Pkg} (h : x.1.Canon) : (Pkg.spanAccess o ks x).2.2.1.Canon := by
  unfold Pkg.spanAccess
  refine List.foldlRecOn (motive := fun y : Nat × List (Nat × Nat) × Pkg => y.2.2.1.Canon) ks _ h fun y hy k _ => ?_
  dsimp only
  rw [apply_ite (fun z : Nat × List (Nat × Nat) × Pkg => z.2.2.1), apply_ite (fun z : Nat × List (Nat × Nat) × Pkg => z.2.2.1)]
  dsimp only
  rwa [ite_self, ite_self]

@[simp] theorem Pkg.jobXlated_canon {op : Nat} {x : Pkg} (h : x.1.Canon) : (Pkg.jobXlated op x).1.Canon := by
  unfold Pkg.jobXlated
  split
  · exact h
  · refine ite_canon h ?_
    split
    · exact Pkg.dev_canon h
    · refine ite_canon h (ite_canon ?_ ?_)
      · exact foldl_canon (fun _ _ hy => Pkg.dev_canon hy) (Pkg.dev_canon (Pkg.spanAccess_canon h)) _
      · exact Pkg.dev_canon (Pkg.dev_canon (Pkg.spanAccess_canon h))

theorem Pkg.jobStep_canon {x y : Pkg} (hy : x.jobStep = some y) (h : x.1.Canon) : y.1.Canon := by
  obtain ⟨j, -, hj⟩ := List.exists_of_findSome?_eq_some hy
  split at hj
  · obtain ⟨-, hj⟩ := Option.ite_none_right_eq_some.1 hj
    cases hj
    exact Pkg.jobXlated_canon h
  · cases hj

@[simp] theorem Pkg.sliceReady_canon {a : Nat} {x : Pkg} (h : x.1.Canon) : (Pkg.sliceReady a x).1.Canon := by
  unfold Pkg.sliceReady
  split
  · exact h
  · split
    · refine ite_canon (Pkg.dev_canon h) (ite_canon (Pkg.dev_canon h) (ite_canon h (Pkg.jobXlated_canon ?_)))
      exact foldl_canon (fun _ _ hy => ite_canon (foldl_canon (fun _ _ hz => Pkg.opPage_canon hz) hy _) hy) h _
    · exact h

@[simp] theorem Pkg.sliceIssue_canon {op a : Nat} {x : Pkg} (h : x.1.Canon) : (Pkg.sliceIssue op a x).1.Canon := by
  unfold Pkg.sliceIssue
  dsimp only
  (repeat' split) <;> simp [h]


@[simp] theorem Pkg.programLoad_canon {a : Nat} {x : Pkg} (h : x.1.Canon) : (Pkg.programLoad a x).1.Canon := by
  unfold Pkg.programLoad
  split
  · exact h
  · split
    · exact h
    · refine ite_canon h (ite_canon (Pkg.dev_canon h) ?_)
      split
      · exact Pkg.dev_canon h
      · exact Pkg.sliceReady_canon (Pkg.dev_canon h)

@[simp] theorem Pkg.arrMac_canon {a : Nat} {near bulk : List LineMedia} {x : Pkg} (h : x.1.Canon) :
    (Pkg.arrMac a near bulk x).1.Canon := by
  unfold Pkg.arrMac
  dsimp only
  (repeat' split) <;> simp [h]

@[simp] theorem Pkg.arrElt_canon {a : Nat} {near bulk : List LineMedia} {x : Pkg} (h : x.1.Canon) :
    (Pkg.arrElt a near bulk x).1.Canon := by
  unfold Pkg.arrElt
  dsimp only
  (repeat' split) <;> simp [h]


@[simp] theorem Pkg.freePart_canon {o : FOp} {kind : AKind} {p : XPart} {x : Pkg} (h : x.1.Canon) :
    (Pkg.freePart o kind p x).1.Canon := by
  unfold Pkg.freePart
  split
  · exact h
  · dsimp only
    split
    · exact h
    · refine ite_canon h (foldl_canon (fun y w hy => ?_) (by exact h) _)
      split
      · exact Pkg.writeLine_canon hy
      · exact hy

@[simp] theorem Pkg.ferrySpoil_canon {o : FOp} {x : Pkg} (h : x.1.Canon) : (Pkg.ferrySpoil o x).1.Canon := by
  exact foldl_canon (fun _ _ hy => Pkg.freePart_canon hy) h _

/-! ### Ferries, collectives, attention and dispatch -/

@[simp] theorem Pkg.tileIssue_canon {e : Nat} {x : Pkg} (h : x.1.Canon) : (Pkg.tileIssue e x).1.Canon := by
  unfold Pkg.tileIssue
  dsimp only
  split
  · exact h
  · refine ite_canon h (ite_canon (Pkg.dev_canon h) (Pkg.dev_canon ?_))
    exact foldl_canon (fun _ _ hy => Pkg.opPage_canon hy) (foldl_canon (fun _ _ hy => Pkg.opPage_canon hy) (Pkg.dev_canon h) _) _

@[simp] theorem Pkg.ferryComplete_canon {e : Nat} {x : Pkg} (h : x.1.Canon) : (Pkg.ferryComplete e x).1.Canon := by
  unfold Pkg.ferryComplete
  (repeat' split) <;> simp [h]


@[simp] theorem Pkg.collGo_canon {o : FOp} {x : Pkg} (h : x.1.Canon) : (Pkg.collGo o x).1.Canon := by
  unfold Pkg.collGo
  dsimp only
  split
  · exact h
  · exact Pkg.dev_canon (Pkg.dev_canon (ite_canon (foldl_canon (fun _ _ hz => Pkg.opPage_canon hz)
      (ite_canon (foldl_canon (fun _ _ hz => Pkg.opPage_canon hz) (by exact h) _) (by exact h)) _)
      (ite_canon (foldl_canon (fun _ _ hz => Pkg.opPage_canon hz) (by exact h) _) (by exact h))))

@[simp] theorem Pkg.collSpoil_canon {o : FOp} {x : Pkg} (h : x.1.Canon) : (Pkg.collSpoil o x).1.Canon := by
  unfold Pkg.collSpoil
  refine foldl_canon (fun y p hy => ?_) h _
  dsimp only
  split
  · exact Pkg.freePart_canon hy
  · exact hy

@[simp] theorem Pkg.collAbortDone_canon {op : Nat} {x : Pkg} (h : x.1.Canon) : (Pkg.collAbortDone op x).1.Canon := by
  unfold Pkg.collAbortDone
  (repeat' split) <;> simp [h]


@[simp] theorem Pkg.attnGo_canon {o : FOp} {x : Pkg} (h : x.1.Canon) : (Pkg.attnGo o x).1.Canon := by
  unfold Pkg.attnGo
  lift_lets
  intro y ask
  have hask : ∀ (z : Pkg) side lva r k, z.1.Canon → (ask z side lva r k).1.Canon := fun z side lva r k hz =>
    ite_canon (foldl_canon (fun _ _ hw => Pkg.opPage_canon hw) hz _) hz
  have hy : y.1.Canon := Pkg.dev_canon h
  clear_value y ask
  exact ite_canon (Pkg.dev_canon h) (hask _ _ _ _ _ (hask _ _ _ _ _ (hask _ _ _ _ _ hy)))

@[simp] theorem Pkg.attnGoOn_canon {op : Nat} {x : Pkg} (h : x.1.Canon) : (Pkg.attnGoOn op x).1.Canon := by
  unfold Pkg.attnGoOn
  split
  · refine ite_canon h (ite_canon (ite_canon (Pkg.dev_canon h) (Pkg.dev_canon h)) (ite_canon ?_ (ite_canon
      (ite_canon (Pkg.dev_canon h) (Pkg.dev_canon h)) h)))
    lift_lets
    intro fix es recs r y z
    have hz : z.1.Canon := ite_canon (foldl_canon (fun _ _ hw => Pkg.opPage_canon hw) (Pkg.dev_canon h) _) (Pkg.dev_canon h)
    clear_value z
    split
    · exact ite_canon (ite_canon (Pkg.dev_canon hz) (Pkg.dev_canon hz)) hz
    · exact hz
  · exact h

@[simp] theorem Pkg.attnRead_canon {xf : Xfer} {list : Bool} {x : Pkg} (h : x.1.Canon) : (Pkg.attnRead xf list x).1.Canon := by
  unfold Pkg.attnRead
  dsimp only
  split
  · refine ite_canon h (ite_canon (Pkg.dev_canon h) (ite_canon (Pkg.dev_canon h) (ite_canon (Pkg.dev_canon h) (Pkg.attnGoOn_canon ?_))))
    exact foldl_canon (fun _ _ hw => Pkg.opPage_canon hw) (Pkg.dev_canon (Pkg.dev_canon h)) _
  · exact h

@[simp] theorem Pkg.attnRecon_canon {g : ServeGroup} {k gpa len st : Nat} {x : Pkg} (h : x.1.Canon) :
    (Pkg.attnRecon g k gpa len st x).1.Canon := by
  exact Pkg.reconOp_canon (Pkg.dev_canon h)

@[simp] theorem Pkg.attnPage_canon {src op grp k a : Nat} {near bulk : List LineMedia} {x : Pkg} (h : x.1.Canon) :
    (Pkg.attnPage src op grp k a near bulk x).1.Canon := by
  unfold Pkg.attnPage
  split
  · exact h
  · split
    · refine ite_canon h (Pkg.pump_canon ?_)
      split
      · exact Pkg.dev_canon (Pkg.dev_canon h)
      · exact ite_canon (Pkg.attnRecon_canon (Pkg.dev_canon h)) (ite_canon (pair_canon h) (ite_canon
          (Pkg.attnRecon_canon (pair_canon h)) (Pkg.dev_canon (pair_canon h))))
    · exact h

@[simp] theorem Pkg.dispGo_canon {o : FOp} {x : Pkg} (h : x.1.Canon) : (Pkg.dispGo o x).1.Canon := by
  unfold Pkg.dispGo
  refine ite_canon (Pkg.dev_canon h) (foldl_canon (fun y i hy => ite_canon ?_ hy) (Pkg.dev_canon h) _)
  exact foldl_canon (fun _ _ hz => Pkg.opPage_canon hz) hy _

@[simp] theorem Pkg.dispGoOn_canon {op : Nat} {x : Pkg} (h : x.1.Canon) : (Pkg.dispGoOn op x).1.Canon := by
  unfold Pkg.dispGoOn
  (repeat' split) <;> simp [h]

@[simp] theorem Pkg.dispStart_canon {o : FOp} {table : List Byte} {x : Pkg} (h : x.1.Canon) : (Pkg.dispStart o table x).1.Canon := by
  unfold Pkg.dispStart
  dsimp only
  (repeat' split) <;> simp [h]


theorem Pkg.dispStep_canon {x y : Pkg} (hy : x.dispStep = some y) (h : x.1.Canon) : y.1.Canon := by
  obtain ⟨a, -, ha⟩ := List.exists_of_findSome?_eq_some hy
  split at ha
  · split at ha
    · cases ha
      exact Pkg.dispStart_canon h
    · cases ha
  · cases ha

@[simp] theorem Pkg.dispRead_canon {xf : Xfer} {area : Nat} {x : Pkg} (h : x.1.Canon) : (Pkg.dispRead xf area x).1.Canon := by
  unfold Pkg.dispRead
  dsimp only
  split
  · refine ite_canon h (ite_canon (Pkg.dev_canon h) ?_)
    split
    · exact Pkg.dev_canon h
    · exact ite_canon (Pkg.dev_canon h) (Pkg.dispStart_canon (Pkg.dev_canon h))
  · exact h

@[simp] theorem Pkg.routingDone_canon {op : Nat} {media : List LineMedia} {x : Pkg} (h : x.1.Canon) :
    (Pkg.routingDone op media x).1.Canon := by
  unfold Pkg.routingDone
  dsimp only
  (repeat' split) <;> simp [h]

@[simp] theorem Pkg.xferEnded_canon {xf : Xfer} {x : Pkg} (h : x.1.Canon) : (Pkg.xferEnded xf x).1.Canon := by
  unfold Pkg.xferEnded
  split <;> simp [h]

end Sys2Proof.Machine


/-!
SUPPORT. O56, concluded: what the package goes on with, recovery, tenancy, power, register writes and messages, and the step.
-/
namespace Sys2Proof.Machine

/-! ### What the package goes on with -/

theorem Pkg.doorbellStep_canon {n : Nat} {r : PortReq} {q : List PortReq} {x y : Pkg} (hy : x.doorbellStep n r q = some y)
    (h : x.1.Canon) : y.1.Canon := by
  unfold Pkg.doorbellStep at hy
  split at hy
  · cases hy
    exact Pkg.dev_canon h
  · split at hy
    · cases hy
    · cases hy
      exact Pkg.dev_canon (Pkg.lndDoorbell_canon (Pkg.dev_canon h))

theorem Pkg.dockStep_canon {n : Nat} {x y : Pkg} (hy : x.dockStep n = some y) (h : x.1.Canon) : y.1.Canon := by
  obtain ⟨t, -, rfl⟩ := Option.map_eq_some_iff.1 hy
  exact Pkg.dev_canon h

theorem Pkg.portStep_canon {p : Nat} {x y : Pkg} (hy : x.portStep p = some y) (h : x.1.Canon) : y.1.Canon := by
  unfold Pkg.portStep at hy
  split at hy
  · cases hy
  · dsimp only at hy
    split at hy
    · cases hy
    · split at hy
      · split at hy
        · split at hy
          · cases hy
          · cases hy
            exact Pkg.doorbell_canon (pair_canon h)
        · obtain ⟨d, -, rfl⟩ := Option.map_eq_some_iff.1 hy
          exact pair_canon h
      · split at hy
        · exact Pkg.doorbellStep_canon hy h
        · obtain ⟨d, -, rfl⟩ := Option.map_eq_some_iff.1 hy
          exact pair_canon h

@[simp] theorem Pkg.deliver_canon {a : Acc} {status : Nat} {data : List Byte} {x : Pkg} (h : x.1.Canon) :
    (Pkg.deliver a status data x).2.1.Canon := by
  unfold Pkg.deliver
  cases a.purpose with
  | walk => exact Pkg.walkAnswer_canon h
  | record => exact Pkg.recordAnswer_canon h
  | fetch => exact ite_canon (Pkg.slotReturn_canon h) h
  | copy => exact ite_canon (Pkg.dev_canon h) h
  | delta => exact Pkg.deltaAnswer_canon h
  | mirrorCopy => exact Pkg.mirrorAnswer_canon h
  | journal => exact Pkg.journalAnswer_canon h
  | rcRead => exact Pkg.reconAnswer_canon h
  | semBack => exact h
  | _ => exact Pkg.dev_canon h

theorem Pkg.noNodeStep_canon {x y : Pkg} (hy : x.noNodeStep = some y) (h : x.1.Canon) : y.1.Canon := by
  unfold Pkg.noNodeStep at hy
  split at hy
  · cases hy
  · cases hy
    exact Pkg.deliver_canon (pair_canon h)

@[simp] theorem Pkg.bar4_canon {off v : Nat} {x : Pkg} (h : x.1.Canon) : (Pkg.bar4 off v x).1.Canon := by
  unfold Pkg.bar4
  split <;> simp [h]

@[simp] theorem Pkg.tlpIn_canon {t : HTlp} {v : HWin} {x : Pkg} (h : x.1.Canon) : (Pkg.tlpIn t v x).1.Canon := by
  unfold Pkg.tlpIn
  split <;> simp [h]


theorem Pkg.hostGateStep_canon {x y : Pkg} (hy : x.hostGateStep = some y) (h : x.1.Canon) : y.1.Canon := by
  unfold Pkg.hostGateStep at hy
  split at hy
  · cases hy
  · split at hy
    · cases hy
    · cases hy
      exact Pkg.dev_canon (Pkg.tlpIn_canon (pair_canon h))

theorem Pkg.settleOne_canon {x y : Pkg} (hy : x.settleOne = some y) (h : x.1.Canon) : y.1.Canon := by
  unfold Pkg.settleOne at hy
  split at hy
  · cases hy
    exact Pkg.xferEnded_canon (pair_canon h)
  · split at hy
    · next hd =>
      cases hy
      obtain ⟨n, -, hn⟩ := List.exists_of_findSome?_eq_some hd
      exact Pkg.dockStep_canon hn h
    · split at hy
      · next hp =>
        cases hy
        obtain ⟨n, -, hn⟩ := List.exists_of_findSome?_eq_some hp
        exact Pkg.portStep_canon hn h
      · split at hy
        · next hg =>
          cases hy
          obtain ⟨n, -, hn⟩ := List.exists_of_findSome?_eq_some hg
          exact Pkg.lndGateStep_canon hn h
        · split at hy
          · next hg =>
            cases hy
            exact Pkg.hostGateStep_canon hg h
          · split at hy
            · next hn =>
              cases hy
              exact Pkg.noNodeStep_canon hn h
            · split at hy
              · next hj =>
                cases hy
                exact Pkg.jobStep_canon hj h
              · exact Pkg.dispStep_canon hy h

theorem Pkg.settleFor_canon (n : Nat) : ∀ {x : Pkg}, x.1.Canon → (Pkg.settleFor n x).1.Canon := by
  induction n with
  | zero => exact id
  | succ n ih =>
    intro x h
    unfold Pkg.settleFor
    split
    · next hy => exact ih (Pkg.settleOne_canon hy h)
    · exact h

@[simp] theorem Pkg.settle_canon {x : Pkg} (h : x.1.Canon) : (Pkg.settle x).1.Canon := by
  exact Pkg.settleFor_canon _ h

/-! ### Answers, and operations issued -/

@[simp] theorem Pkg.opGoOn_canon {id : Nat} {x : Pkg} (h : x.1.Canon) : (Pkg.opGoOn id x).1.Canon := by
  unfold Pkg.opGoOn
  (repeat' split) <;> simp [h]


@[simp] theorem Pkg.takeXlt_canon {t : XOut} (h : t.2.1.Canon) : (Pkg.takeXlt t).1.Canon := by
  unfold Pkg.takeXlt
  refine Pkg.settle_canon (foldl_canon (fun y o hy => ?_) h _)
  split
  · exact Pkg.dev_canon hy
  · exact Pkg.opGoOn_canon (Pkg.dev_canon hy)

@[simp] theorem Pkg.requestEnds_canon {o : OutReq} {how status : Nat} {data : List Byte} {x : Pkg} (h : x.1.Canon) :
    (Pkg.requestEnds o how status data x).1.Canon := by
  exact Pkg.thenHome_canon (Pkg.takeXlt_canon (Pkg.dev_canon (Pkg.deliver_canon (Pkg.dev_canon h))))

@[simp] theorem Pkg.answered_canon {o : OutReq} {how : AnsHow} {data : List Byte} {x : Pkg} (h : x.1.Canon) :
    (Pkg.answered o how data x).1.Canon := by
  exact ite_canon (Pkg.dev_canon h) (Pkg.requestEnds_canon (Pkg.dev_canon h))

@[simp] theorem Pkg.answer_canon {a : Ans} {x : Pkg} (h : x.1.Canon) : (Pkg.answer a x).1.Canon := by
  unfold Pkg.answer
  split <;> simp [h]

@[simp] theorem Pkg.answerFor_canon {p : Purpose → Bool} {how : AnsHow} {data : List Byte} {x : Pkg} (h : x.1.Canon) :
    (Pkg.answerFor p how data x).1.Canon := by
  unfold Pkg.answerFor
  split <;> simp [h]


@[simp] theorem Pkg.requestTimeout_canon {eng tag : Nat} {x : Pkg} (h : x.1.Canon) : (Pkg.requestTimeout eng tag x).1.Canon := by
  unfold Pkg.requestTimeout
  split
  · exact h
  · exact ite_canon h (Pkg.requestEnds_canon (Pkg.dev_canon h))

@[simp] theorem Pkg.fenceEnds_canon {f : Dev → Dev} {x : Pkg} (h : x.1.Canon) : (Pkg.fenceEnds f x).1.Canon :=
  Pkg.settle_canon (Pkg.dev_canon h)

@[simp] theorem Pkg.operationIssue_canon {id : Nat} {x : Pkg} (h : x.1.Canon) : (Pkg.operationIssue id x).1.Canon := by
  unfold Pkg.operationIssue
  split
  · exact h
  · refine ite_canon h (ite_canon (ite_canon (Pkg.dev_canon h) (ite_canon (Pkg.dev_canon h) h)) (ite_canon h (Pkg.settle_canon ?_)))
    dsimp only
    split
    · split
      · exact Pkg.dev_canon (Pkg.dev_canon h)
      · exact Pkg.dev_canon h
    · exact Pkg.dev_canon (Pkg.dev_canon h)
    · exact ite_canon (Pkg.collGo_canon (Pkg.dev_canon h)) (Pkg.dev_canon (Pkg.collSpoil_canon (Pkg.dev_canon h)))
    · exact Pkg.attnGoOn_canon (Pkg.attnGo_canon (Pkg.dev_canon h))
    · exact Pkg.dispGoOn_canon (Pkg.dispGo_canon (Pkg.dev_canon h))

@[simp] theorem Pkg.issueKind_canon {kind id : Nat} {x : Pkg} (h : x.1.Canon) : (Pkg.issueKind kind id x).1.Canon := by
  unfold Pkg.issueKind
  split <;> simp [h]


@[simp] theorem Pkg.brakeOver_canon {x : Pkg} (h : x.1.Canon) : (Pkg.brakeOver x).1.Canon := by
  exact Pkg.settle_canon (Pkg.dev_canon h)

@[simp] theorem Pkg.landingOp_canon {op : Nat} {q : LReq} {x : Pkg} (h : x.1.Canon) : (Pkg.landingOp op q x).1.Canon := by
  unfold Pkg.landingOp
  simp [h]


@[simp] theorem Pkg.hostTlp_canon {t : HTlp} {x : Pkg} (h : x.1.Canon) : (Pkg.hostTlp t x).1.Canon := by
  unfold Pkg.hostTlp
  refine ite_canon h (ite_canon (Pkg.dev_canon (Pkg.dev_canon h)) (ite_canon (pair_canon h) ?_))
  exact Pkg.settle_canon (Pkg.tlpIn_canon (Pkg.dev_canon h))

@[simp] theorem Pkg.released_canon {x : Pkg} (h : x.1.Canon) : (Pkg.released x).1.Canon := by
  unfold Pkg.released
  lift_lets
  intro y z w
  have hz : z.1.Canon := Pkg.dev_canon (Pkg.dev_canon h)
  exact Pkg.settle_canon (Pkg.fetchAll_canon (Pkg.homeGo_canon (Pkg.pump_canon (ite_canon (Pkg.takeXlt_canon (Pkg.retryBlocked_canon hz)) hz))))

/-! ### Recovery and tenancy -/

@[simp] theorem Pkg.rcvCmd_canon {x : Pkg} (h : x.1.Canon) : (Pkg.rcvCmd x).1.Canon := by
  unfold Pkg.rcvCmd
  simp [h]


@[simp] theorem Pkg.rcvMsg_canon {src : Nat} {name : String} {gen : Nat} {rule : Dev → Nat × Dev} {x : Pkg} (h : x.1.Canon) :
    (Pkg.rcvMsg src name gen rule x).1.Canon := by
  exact Pkg.settle_canon (Pkg.pump_canon (Pkg.dev_canon h))

@[simp] theorem Pkg.afterTenancy_canon {f : Dev → Dev} {x : Pkg} (h : x.1.Canon) : (Pkg.afterTenancy f x).1.Canon :=
  Pkg.settle_canon (Pkg.pump_canon (Pkg.dev_canon h))

@[simp] theorem Pkg.scrubLine_canon {k off : Nat} {x : Pkg} (h : x.1.Canon) : (Pkg.scrubLine k off x).1.Canon := by
  unfold Pkg.scrubLine
  dsimp only
  split_ifs <;> simp [h]


@[simp] theorem Pkg.scrubGo_canon {x : Pkg} (h : x.1.Canon) : (Pkg.scrubGo x).1.Canon := by
  refine foldl_canon (fun y k hy => ite_canon hy (ite_canon ?_ (Pkg.clearExt_canon hy))) h _
  exact foldl_canon (fun _ _ hz => Pkg.scrubLine_canon hz) hy _

@[simp] theorem Pkg.scrub_canon {x : Pkg} (h : x.1.Canon) : (Pkg.scrub x).2.1.Canon := by
  unfold Pkg.scrub
  split
  · dsimp only
    exact Pkg.scrubGo_canon (Pkg.dev_canon h)
  · exact h
  · exact h

@[simp] theorem Pkg.secRule_canon {op t : Nat} {src : Option Nat} {x : Pkg} (h : x.1.Canon) : (Pkg.secRule op t src x).2.1.Canon := by
  unfold Pkg.secRule
  split <;> simp [h]


@[simp] theorem Pkg.secCmd_canon {m : Master} {v : Nat} {x : Pkg} (h : x.1.Canon) : (Pkg.secCmd m v x).1.Canon := by
  exact ite_canon (Pkg.dev_canon h) (Pkg.settle_canon (Pkg.pump_canon (Pkg.dev_canon (Pkg.secRule_canon h))))

@[simp] theorem Pkg.secMsg_canon {src op t : Nat} {x : Pkg} (h : x.1.Canon) : (Pkg.secMsg src op t x).1.Canon := by
  exact ite_canon (Pkg.dev_canon h) (Pkg.settle_canon (Pkg.pump_canon (Pkg.dev_canon (Pkg.secRule_canon h))))

/-! ### Power -/

@[simp] theorem Pkg.moorUndo_canon {status : Nat} {x : Pkg} (h : x.1.Canon) : (Pkg.moorUndo status x).1.Canon := by
  unfold Pkg.moorUndo
  simp [h]

@[simp] theorem Pkg.loseLines_canon {lo hi : Nat} {x : Pkg} (h : x.1.Canon) : (Pkg.loseLines lo hi x).1.Canon := by
  unfold Pkg.loseLines
  simp [h]

@[simp] theorem Pkg.loseGroup_canon {g : Nat} {x : Pkg} (h : x.1.Canon) : (Pkg.loseGroup g x).1.Canon := by
  unfold Pkg.loseGroup
  simp [h]


@[simp] theorem Pkg.loseMemory_canon {x : Pkg} (h : x.1.Canon) : (Pkg.loseMemory x).1.Canon := by
  unfold Pkg.loseMemory
  lift_lets
  intro ng dev y
  have hy : y.1.Canon := foldl_canon (fun _ _ hy => ite_canon hy (Pkg.loseGroup_canon hy)) h _
  clear_value y
  exact ite_canon (ite_canon hy (Pkg.loseLines_canon hy)) (foldl_canon (fun _ _ hz => ite_canon hz (Pkg.loseLines_canon hz)) hy _)

@[simp] theorem Pkg.moorQuiesced_canon {x : Pkg} (h : x.1.Canon) : (Pkg.moorQuiesced x).1.Canon := by
  unfold Pkg.moorQuiesced
  dsimp only
  split_ifs <;> simp [h]

@[simp] theorem Pkg.moorTimeout_canon {x : Pkg} (h : x.1.Canon) : (Pkg.moorTimeout x).1.Canon := by
  unfold Pkg.moorTimeout
  dsimp only
  split_ifs <;> simp [h]

@[simp] theorem Pkg.moorNext_canon {s : MoorStep} {x : Pkg} (h : x.1.Canon) : (Pkg.moorNext s x).1.Canon := by
  unfold Pkg.moorNext
  split <;> simp [h]


@[simp] theorem Pkg.moorStep_canon {x : Pkg} (h : x.1.Canon) : (Pkg.moorStep x).1.Canon := by
  unfold Pkg.moorStep
  refine ite_canon h ?_
  split
  · exact ite_canon h (Pkg.moorNext_canon (Pkg.dev_canon h))
  · exact Pkg.moorNext_canon (Pkg.dev_canon h)
  · exact Pkg.moorNext_canon h
  · exact Pkg.dev_canon (Pkg.loseMemory_canon h)
  · exact h

@[simp] theorem Pkg.moorExit_canon {x : Pkg} (h : x.1.Canon) : (Pkg.moorExit x).1.Canon := by
  unfold Pkg.moorExit
  split <;> simp [h]


theorem Pkg.ifAwakeable_canon {f : Pkg → Pkg} {x : Pkg} (hf : (f x).1.Canon) (h : x.1.Canon) : (Pkg.ifAwakeable f x).1.Canon :=
  ite_canon hf h

@[simp] theorem Pkg.domainOn_canon {i : Nat} {x : Pkg} (h : x.1.Canon) : (Pkg.domainOn i x).1.Canon := by
  unfold Pkg.domainOn
  exact ite_canon (Pkg.settle_canon (Pkg.dev_canon h)) (ite_canon h (ite_canon (Pkg.released_canon (pair_canon h)) (pair_canon h)))

@[simp] theorem Pkg.domainOff_canon {i : Nat} {x : Pkg} (h : x.1.Canon) : (Pkg.domainOff i x).1.Canon := by
  unfold Pkg.domainOff
  exact ite_canon h (ite_canon h (ite_canon (ite_canon (Pkg.dev_canon (Pkg.loseGroup_canon (Pkg.dev_canon h))) h) (pair_canon h)))

/-! ### Register writes -/

@[simp] theorem Pkg.lndWritten_canon {m : Master} {n off old w v : Nat} {act go : Bool} {x : Pkg} (h : x.1.Canon) :
    (Pkg.lndWritten m n off old w v act go x).1.Canon := by
  exact ite_canon (Pkg.settle_canon (Pkg.dev_canon h)) (ite_canon (ite_canon (Pkg.settle_canon (Pkg.lndFenceGo_canon h)) h)
    (ite_canon (ite_canon (Pkg.dev_canon h) h) (ite_canon (Pkg.dev_canon h) (ite_canon (Pkg.settle_canon (Pkg.dev_canon h))
    (ite_canon (ite_canon (Pkg.dev_canon h) h) h)))))

@[simp] theorem Pkg.fryWritten_canon {k off old w : Nat} {x : Pkg} (h : x.1.Canon) : (Pkg.fryWritten k off old w x).1.Canon := by
  unfold Pkg.fryWritten
  exact ite_canon (Pkg.settle_canon (Pkg.fetchAll_canon (ite_canon h (Pkg.dev_canon h))))
    (ite_canon (Pkg.settle_canon (ite_canon h (Pkg.dev_canon h))) (Pkg.settle_canon (Pkg.fetchAll_canon h)))

@[simp] theorem Pkg.aonWritten_canon {m : Master} {p off old w v : Nat} {go : Bool} {x : Pkg} (h : x.1.Canon) :
    (Pkg.aonWritten m p off old w v go x).1.Canon := by
  exact ite_canon (ite_canon (Pkg.settle_canon (Pkg.dev_canon h)) h)
    (ite_canon (ite_canon (Pkg.dev_canon h) (ite_canon (ite_canon (Pkg.dev_canon h) h) h))
    (ite_canon (ite_canon (Pkg.dev_canon h) (ite_canon (ite_canon (Pkg.dev_canon h) h) h))
    (ite_canon (ite_canon (Pkg.secCmd_canon h) h) (ite_canon (ite_canon (Pkg.dev_canon h) h) (ite_canon (Pkg.dev_canon h) h)))))

theorem Pkg.binding_canon {f : Dev → Dev} {x : Pkg} (h : x.1.Canon) : (Pkg.binding f x).1.Canon := Pkg.bindNext_canon (Pkg.dev_canon h)

@[simp] theorem Pkg.homeWritten_canon {m : Master} {p off old v : Nat} {go : Bool} {x : Pkg} (h : x.1.Canon) :
    (Pkg.homeWritten m p off old v go x).1.Canon := by
  exact ite_canon h (ite_canon (Pkg.settle_canon (Pkg.pump_canon (Pkg.dev_canon h))) (ite_canon (Pkg.dev_canon h)
    (ite_canon (Pkg.settle_canon (Pkg.pump_canon (Pkg.binding_canon h))) (ite_canon (Pkg.dev_canon h) h))))

@[simp] theorem Pkg.written_canon {m : Master} {p off old w v : Nat} {act : Bool} {x : Pkg} (h : x.1.Canon) :
    (Pkg.written m p off old w v act x).1.Canon := by
  exact ite_canon (Pkg.aonWritten_canon h) (ite_canon (Pkg.lndWritten_canon h) (ite_canon (ite_canon (Pkg.settle_canon (Pkg.dev_canon h)) h)
    (ite_canon (Pkg.dev_canon h) (ite_canon (Pkg.homeWritten_canon h) (ite_canon (Pkg.fryWritten_canon h) (ite_canon
    (ite_canon (Pkg.dev_canon h) h) (ite_canon (ite_canon (Pkg.dev_canon h) h) (ite_canon (ite_canon (Pkg.rcvCmd_canon h) h)
    (Pkg.settle_canon (Pkg.dev_canon h))))))))))

@[simp] theorem Pkg.headerWrite_canon {m : Master} {p off v : Nat} {own : Bool} {x : Pkg} (h : x.1.Canon) :
    (Pkg.headerWrite m p off v own x).2.1.Canon := by
  unfold Pkg.headerWrite
  refine ite_canon_snd (Pkg.dev_canon h) ?_
  exact ite_canon (ite_canon (Pkg.released_canon (Pkg.dev_canon h)) (Pkg.dev_canon h)) (ite_canon (Pkg.dev_canon h) (ite_canon
    (Pkg.dev_canon h) (ite_canon (Pkg.dev_canon h) (ite_canon (ite_canon (Pkg.dev_canon h) h) (Pkg.dev_canon h)))))

@[simp] theorem Pkg.pwrCmdWrite_canon {m : Master} {v : Nat} {own : Bool} {x : Pkg} (h : x.1.Canon) :
    (Pkg.pwrCmdWrite m v own x).2.1.Canon := by
  unfold Pkg.pwrCmdWrite
  dsimp only
  split_ifs <;> simp [h]

@[simp] theorem Pkg.routeWrite_canon {m : Master} {p off v : Nat} {own : Bool} {r : Bool × Nat × Bool} {x : Pkg} (h : x.1.Canon) :
    (Pkg.routeWrite m p off v own r x).2.1.Canon := by
  unfold Pkg.routeWrite
  split_ifs <;> simp [h]

@[simp] theorem Pkg.fieldsWrite_canon {m : Master} {p off v : Nat} {own : Bool} {x : Pkg} (h : x.1.Canon) :
    (Pkg.fieldsWrite m p off v own x).2.1.Canon := by
  unfold Pkg.fieldsWrite
  dsimp only
  (repeat' split) <;> simp [h]

@[simp] theorem Pkg.write4_canon {m : Master} {a v : Nat} {x : Pkg} (h : x.1.Canon) : (Pkg.write4 m a v x).2.1.Canon := by
  unfold Pkg.write4
  dsimp only
  (repeat' split) <;> simp [h]


@[simp] theorem Pkg.regWrite_canon {m : Master} {a size v : Nat} {x : Pkg} (h : x.1.Canon) : (Pkg.regWrite m a size v x).2.1.Canon := by
  unfold Pkg.regWrite
  lift_lets
  intro y r q
  have hy : y.1.Canon := ite_canon (Pkg.dev_canon h) h
  clear_value y
  refine ite_canon_snd h (ite_canon_snd (ite_canon (Pkg.dev_canon hy) hy) ?_)
  exact ite_canon_snd (Pkg.write4_canon (Pkg.write4_canon hy)) (Pkg.write4_canon hy)

@[simp] theorem Pkg.fmWrite_canon {src a size v : Nat} {x : Pkg} (h : x.1.Canon) : (Pkg.fmWrite src a size v x).1.Canon := by
  unfold Pkg.fmWrite
  split <;> simp [h]

@[simp] theorem Pkg.fmLocal_canon {b : List Byte} {x : Pkg} (h : x.1.Canon) : (Pkg.fmLocal b x).1.Canon := by
  unfold Pkg.fmLocal
  dsimp only
  split_ifs <;> simp [h]

@[simp] theorem Pkg.fmqSend_canon {x : Pkg} (h : x.1.Canon) : (Pkg.fmqSend x).1.Canon := by
  unfold Pkg.fmqSend
  dsimp only
  (repeat' split) <;> simp [h]


/-! ### The commands -/

/-- Every next state of the outcome has pool memory in canonical form. -/
def CanonNext (o : Host.Outcome State Fault Refusal) : Prop := ∀ t, o = .next t → t.store.Canon

section
variable {s : State} (h : s.store.Canon)
include h

theorem onAll_canon {f : Pkg → Pkg} (hf : ∀ x : Pkg, x.1.Canon → (f x).1.Canon) : CanonNext (onAll f s) := by
  intro t ht
  cases ht
  exact hf _ h

theorem onDev_canon {f : Dev → Dev} : CanonNext (onDev f s) := by
  intro t ht
  cases ht
  exact h

theorem onPkg_canon {f : Pkg → Pkg} (hf : ∀ x : Pkg, x.1.Canon → (f x).1.Canon) : CanonNext (onPkg f s) :=
  onAll_canon h fun x hx => ite_canon (hf x hx) hx

theorem onHome_canon {f : Pkg → Pkg} (hf : ∀ x : Pkg, x.1.Canon → (f x).1.Canon) : CanonNext (onHome f s) :=
  onPkg_canon h fun x hx => Pkg.thenHome_canon (hf x hx)

theorem ifAwakeable_canon {f : Pkg → Pkg} (hf : ∀ x : Pkg, x.1.Canon → (f x).1.Canon) : CanonNext (onAll (Pkg.ifAwakeable f) s) :=
  onAll_canon h fun x hx => Pkg.ifAwakeable_canon (hf x hx) hx

theorem next_canon : CanonNext (.next s) := by
  intro t ht
  cases ht
  exact h

theorem regOut_canon {m : Master} {a size v : Nat} : CanonNext (regOut m a size v s) := by
  unfold regOut
  split
  · intro t ht
    cases ht
  · exact onAll_canon h fun x hx => Pkg.regWrite_canon hx

theorem regField_canon {m : Master} {f : Fld} {v : Nat} : CanonNext (regField m f v s) := by
  unfold regField
  exact regOut_canon h

theorem regGo_canon {m : Master} {f : Fld} {op : Nat} : CanonNext (regGo m f op s) := by
  unfold regGo
  exact regField_canon h

theorem extForm_canon {o : ExtOp} {op : Nat} {c : Cmd ExtArgs} : CanonNext (extForm o op c s) := by
  cases c with
  | reg m => exact regGo_canon h
  | msg src a => exact onPkg_canon h fun x hx => Pkg.settle_canon (Pkg.pump_canon (Pkg.dev_canon hx))

theorem regionForm_canon {create : Bool} {op : Nat} {c : Cmd RegionArgs} : CanonNext (regionForm create op c s) := by
  cases c with
  | reg m => exact regGo_canon h
  | msg src a => exact onPkg_canon h fun x hx => Pkg.settle_canon (Pkg.pump_canon (Pkg.dev_canon hx))

theorem rcvForm_canon {n : String} {op : Nat} {r : Nat → Dev → Nat × Dev} {c : Cmd NodeGen} : CanonNext (rcvForm n op r c s) := by
  cases c with
  | reg m => exact regGo_canon h
  | msg src a => exact onPkg_canon h fun x hx => Pkg.rcvMsg_canon hx

theorem secForm_canon {α : Type} {op : Nat} {t : α → Nat} {c : Cmd α} : CanonNext (secForm op t c s) := by
  cases c with
  | reg m => exact regGo_canon h
  | msg src a => exact onPkg_canon h fun x hx => Pkg.secMsg_canon hx

theorem slipForm_canon {m : Master} {stage : Nat} : CanonNext (slipForm m stage s) := by
  unfold slipForm
  split
  · exact regGo_canon h
  · exact next_canon h

end

theorem bootStage_canon {w : BootWork} {x : Pkg} (h : x.1.Canon) : (bootStage w x).1.Canon := by
  unfold bootStage
  dsimp only
  split
  case h_6 => exact Store.empty_canon
  all_goals exact h

/-- No command leaves pool memory out of form. -/
theorem exec_canon (c : Instr) {s : State} (h : s.store.Canon) : CanonNext (exec c s) := by
  cases c with
  | vddAonLoss => exact onAll_canon h fun x _ => Store.empty_canon
  | bootStageComplete w => dsimp only [exec, execBootStageComplete]; exact onAll_canon h fun x hx => ite_canon (bootStage_canon hx) hx
  | moorQuiesced => exact ifAwakeable_canon h fun x hx => Pkg.moorQuiesced_canon hx
  | moorStepComplete => exact ifAwakeable_canon h fun x hx => Pkg.moorStep_canon hx
  | moorEntryTimeout => exact ifAwakeable_canon h fun x hx => Pkg.moorTimeout_canon hx
  | moorExitComplete => exact ifAwakeable_canon h fun x hx => Pkg.moorExit_canon hx
  | domainOn i => exact ifAwakeable_canon h fun x hx => Pkg.domainOn_canon hx
  | domainOff i => exact ifAwakeable_canon h fun x hx => Pkg.domainOff_canon hx
  | brakeRelease => exact onAll_canon h fun x hx => ite_canon (Pkg.brakeOver_canon hx) (pair_canon hx)
  | fmRegWrite => dsimp only [exec, execFmRegWrite]; exact onAll_canon h fun x hx => ite_canon (Pkg.fmWrite_canon hx) hx
  | regRead a =>
    dsimp only [exec, execRegRead]
    split
    · intro t ht
      cases ht
    · exact onDev_canon h
  | deltaAnswer => exact onHome_canon h fun x hx => Pkg.protAnswer_canon (fun y hy => Pkg.deltaAnswer_canon hy) hx
  | mirrorAnswer => exact onHome_canon h fun x hx => Pkg.protAnswer_canon (fun y hy => Pkg.mirrorAnswer_canon hy) hx
  | journalAnswer => exact onHome_canon h fun x hx => Pkg.protAnswer_canon (fun y hy => Pkg.journalAnswer_canon hy) hx
  | reconstructAnswer => exact onHome_canon h fun x hx => Pkg.protAnswer_canon (fun y hy => Pkg.reconAnswer_canon hy) hx
  | writePerformed | orderHoleTimeout | rcRelease | rcHoldTimeout | attnPageServed | attnGroupDone | orderResync |
      quarantineEnd => exact onHome_canon h fun x hx => by simp [hx]
  | protBind c =>
    cases c with
    | reg m => dsimp only [exec, execProtBind]; exact regField_canon h
    | msg src a => exact onPkg_canon h fun x hx => Pkg.settle_canon (Pkg.pump_canon (Pkg.binding_canon hx))
  | arm c | disarm c =>
    cases c with
    | reg m => dsimp only [exec, execArm, execDisarm]; exact regGo_canon h
    | msg src a => exact onPkg_canon h fun x hx => Pkg.settle_canon (Pkg.dev_canon hx)
  | slipwayTransit c | slipwayServing c =>
    cases c with
    | reg m => exact slipForm_canon h
    | msg src a => exact onPkg_canon h fun x hx => Pkg.rcvMsg_canon hx
  | extGrant | extWiden | extRevoke | extReserve | extRelease => exact extForm_canon h
  | regionCreate | regionDestroy => exact regionForm_canon h
  | rcvNodeLost | rcvNodeFound | rcvSourceReset => exact rcvForm_canon h
  | stagedClear | assign | close | bump | scrub => exact secForm_canon h
  | svnCommit => dsimp only [exec, execSvnCommit]; exact regGo_canon h
  | xltInvGo | homeBitmapClr | bulkCfgWrite | snapshot | protCfgWrite | rteCfgWrite | timeSet | timeSetAtPps |
      reacquire | timeRootWrite | idle | moor | wake | capWrite | peakClr | pwrDomReqWrite | join | fmqGo =>
    dsimp only [exec, execXltInvGo, execHomeBitmapClr, execBulkCfgWrite, execSnapshot, execProtCfgWrite, execRteCfgWrite, execTimeSet, execTimeSetAtPps, execReacquire, execTimeRootWrite, execIdle, execMoor, execWake, execCapWrite, execPeakClr, execPwrDomReqWrite, execJoin, execFmqGo]
    exact regField_canon h
  | registerWrite | blkOwnerWrite | blkQuiesce | blkEnable | softReset | cntFreeze | cntClear | blkIsrClear | blkItr |
      blkIerWrite | capRearm | lowClr | lndFenceGo | fltRingCons | protGroupWrite | pntProgInv | frySubCfgWrite |
      fryCmpCfgWrite | routeEntryWrite | rtePortRoleWrite | linkEnable | linkDisable | prtWidthCmd | eyeScanGo |
      eyeScanStop | rcvCfgWrite | regWrite | fltRingCfgWrite | lndCfgWrite | lndRankDataWrite =>
    dsimp only [exec, execRegisterWrite, execBlkOwnerWrite, execBlkQuiesce, execBlkEnable, execSoftReset, execCntFreeze, execCntClear, execBlkIsrClear, execBlkItr, execBlkIerWrite, execCapRearm, execLowClr, execLndFenceGo, execFltRingCons, execProtGroupWrite, execPntProgInv, execFrySubCfgWrite, execFryCmpCfgWrite, execRouteEntryWrite, execRtePortRoleWrite, execLinkEnable, execLinkDisable, execPrtWidthCmd, execEyeScanGo, execEyeScanStop, execRcvCfgWrite, execRegWrite, execFltRingCfgWrite, execLndCfgWrite, execLndRankDataWrite]
    exact regOut_canon h
  | rebuildStart =>
    dsimp only [exec, execRebuildStart]
    exact onPkg_canon h fun x hx => ite_canon (Pkg.rebuildStart_canon hx) (Pkg.dev_canon hx)
  | rebuildPhaseAck =>
    dsimp only [exec, execRebuildPhaseAck]
    exact onPkg_canon h fun x hx => Pkg.homeGo_canon (Pkg.pump_canon (Pkg.phaseAck_canon hx))
  | descriptorFetchReturn =>
    dsimp only [exec, execDescriptorFetchReturn]
    exact onPkg_canon h fun x hx => ite_canon (Pkg.slotReturn_canon hx) (Pkg.answerFor_canon hx)
  | arrDrain | collData | collCredit | attnPartial =>
    dsimp only [exec, execArrDrain, execCollData, execCollCredit, execAttnPartial]
    exact onPkg_canon h fun x hx => Pkg.settle_canon (Pkg.dev_canon hx)
  | protRepair => exact onPkg_canon h fun x hx => Pkg.homeGo_canon (Pkg.protRepair_canon hx)
  | load | store | atomic | reduce | bulkRead | bulkWrite | dataFrame | localFence | domainFence | fenceComplete |
      rcInv | wcFlush | versionRead | publish | streamDeclare | streamEnd | doorbell | dockRead | pteWrite | walkStart |
      walkReadAnswer | prefetchAnswer | bar2Read | bar2Write | bar2Atomic | bar4Doorbell | homeRead | homeWrite |
      homeAtomic | homeReduceWrite | homeMigrationWrite | homeTableRead | homePteWrite | regionPte | homeVersionRead |
      homePublish | nearScrub | bulkScrub | correctionWriteback | parityComputeDone | parityDelta | mirrorWrite |
      journalMessage | rcRead | rebuildCopy | wardsPhase | sliceIssue | programLoad |
      arrMac | arrElt | operationAccept | waitReadAnswer | semAcquireAnswer | operationIssue | signalAnswer |
      completionRecordWrite | fryDoorbell | ferryFenceDone | tileIssue | ferryComplete |
      collRunning | collAbortDone | attnRunning | attnQuery | dispatchRunning |
      routingDone | tailFetchAnswer | answerReceive | requestTimeout | drainComplete | drainWindowEnd | debugUnlock |
      fmqSend => exact onPkg_canon h fun x hx => by simp [hx]
  | _ => exact onDev_canon h

/-- Settles O56: the step runs the front command, or goes on with what waits, and neither leaves pool memory out of form. -/
theorem everyStepKeepsStoreForm : Obligations.EveryStepKeepsStoreForm := by
  intro s t hs hstep
  rw [safe_iff] at hs ⊢
  unfold step at hstep
  split at hstep
  · refine onAll_canon hs (fun x hx => ?_) t hstep
    exact ite_canon (Pkg.settle_canon (Pkg.thenHome_canon (Pkg.dev_canon hx))) (Pkg.dev_canon hx)
  · next c rest _ => exact exec_canon c (s := { s with pending := rest }) hs t hstep
end Sys2Proof.Machine


/-!
SUPPORT. O11, the messages of the fabric manager and its queues (R613, R615).
-/
namespace Sys2Proof.Machine

/-- A command of a running package whose SWITCH domain has power, once it is known what it leaves. -/
theorem onPkg_leaves {s : State} (hrun : s.dev.running = true) (hdom : s.dev.domOn 11 = true) {f : Pkg → Pkg} {x : Pkg}
    (h : f (s.store, s.dev) = x) : onPkg f s = .next (withPkg s x) := h ▸ onPkg_running hrun hdom f

theorem Dev.hasNode_congr {d e : Dev} (h : d.glb = e.glb) (n : Nat) : d.hasNode n = e.hasNode n := by
  unfold Dev.hasNode Dev.node Dev.domainSize
  rw [h]

/-- A message to a node of the domain leaves. -/
theorem Dev.ctrl_out {d : Dev} {n : Nat} (h : d.hasNode n = true) (m : CtrlMsg) : (d.ctrl n m).out = d.out ++ [.ctrl n m] := by
  rw [Dev.ctrl, Dev.emitTo, if_pos h]
  rfl

theorem fabricManagerNodes : Said.FabricManagerNodes := by
  intro src a size v s hrun hno
  refine ⟨?_, fun ha => ?_, ?_⟩
  · dsimp only [exec, execFmRegRead, onDev, onAll]
    simp [Dev.ifRuns, hrun, Dev.fmRead, Dev.fromFm, hno]
  · dsimp only [exec, execFmRegWrite, onAll]
    simp [hrun, Pkg.fmWrite, hno, Pkg.dev]
  · rw [Dev.fmDropped, Dev.wrp, Dev.rdp, Dev.rdpi_wrpi_same _ _ _ _ _ (by decide)]
    simp only [F.BLK_ERR_CNT_ERRORS, satAdd]
    omega

theorem length_sliceBytes (l : List Byte) (off len : Nat) : (sliceBytes l off len).length = len := by
  simp [sliceBytes]

theorem Dev.fmqQueue_room {d : Dev} {m : Master} {v : Nat} (h : d.mgmt.sendQ.length < 8) :
    d.fmqQueue m v = { d with mgmt := { d.mgmt with sendQ := d.mgmt.sendQ ++ [d.stagedMsg] } } := by
  rw [Dev.fmqQueue, if_neg (by omega)]

theorem Dev.fmqQueue_full {d : Dev} {m : Master} {v : Nat} (h : 8 ≤ d.mgmt.sendQ.length) :
    d.fmqQueue m v = d.dropWrite m 4 0x230 v 4 := if_pos h

/-- A capture that finds capture armed leaves its CODE (R487). -/
theorem Dev.code_capture (d : Dev) {p : Nat} (hp : p ≠ 0xC0) (c : ECls) (st code port det : Nat)
    (h : d.rdp F.BLK_ERR_CAP0_VALID p = 0) : (d.capture p c st code port det).rdp F.BLK_ERR_CAP0_CODE p = code % 256 := by
  have herr : ∀ p, F.BLK_ERR_CNT_ERRORS.addr p 0 = p * 0x1000 + 0x30 := fun _ => rfl
  have hcap : ∀ p, F.BLK_ERR_CAP0_CODE.addr p 0 = p * 0x1000 + 0x20 := fun _ => rfl
  have hval : ∀ p, F.BLK_ERR_CAP0_VALID.addr p 0 = p * 0x1000 + 0x20 := fun _ => rfl
  have harmed : ∀ v, (d.wrp F.BLK_ERR_CNT_ERRORS p v).rdp F.BLK_ERR_CAP0_VALID p = 0 := fun v =>
    (Dev.rdpi_wrpi_ne _ _ _ _ _ _ _ _ (.inl (by rw [herr, hval]; omega))).trans h
  have hcode : c.code < 4 := by cases c <;> decide
  unfold Dev.capture
  dsimp only
  rw [if_neg (by rw [harmed]; decide), Dev.rdp, Dev.rdpi, hcap, Dev.word_errLog _ _ _ (by omega), Dev.word_event, if_neg (by omega),
    Dev.word_setWord_ne _ _ (by omega), Dev.word_setWord_ne _ _ (by omega), Dev.word_setWord_ne _ _ (by omega), Dev.word_setWord_same]
  simp only [bits, F.BLK_ERR_CAP0_CODE]
  omega

/-- The package once the host's GO holds MGMT_FMQ_CMD (R615). -/
def Dev.fmqCmdSet (v : Nat) (d : Dev) : Dev := (tlp .host d).setWord 0x4230 ((tlp .host d).newWord true 4 0x230 (putBit v 31 true))

section
variable {v : W32} {s : State} (hslots : bits v.toNat 0 2 ≤ 2)
include hslots

theorem fmqCmd_accepts : ∀ f ∈ fieldsAt 4 0x230, f.accepts (bits (putBit v.toNat 31 true) f.lo f.w) = true := by
  have hflds : fieldsAt 4 0x230 = [F.MGMT_FMQ_CMD_SLOTS, F.MGMT_FMQ_CMD_GO] := by decide
  have hlow : bits (putBit v.toNat 31 true) 0 2 = bits v.toNat 0 2 := by
    rw [putBit, bits_putBits_ne _ _ _ _ _ _ (by decide)]
  simp [hflds, Fld.accepts, F.MGMT_FMQ_CMD_SLOTS, F.MGMT_FMQ_CMD_GO, hlow, hslots]

theorem fmqGo_writes (hopen : pageOpen s.dev .host 4) (hfm : s.dev.rd F.MGMT_FM_CFG_FM_EN = 1) :
    exec (.fmqGo .host v) s =
      .next (withPkg s (s.store, (s.dev.fmqCmdSet v.toNat).fmqQueue .host (putBit v.toNat 31 true))) := by
  have hmay : (tlp .host s.dev).mayWrite .host 4 0x230 = true := by
    simp [Dev.mayWrite, isFmq, hfm]
  have hgo : bit (putBit v.toNat 31 true) 31 = true := bit_putBit_same _ _ _
  refine (aonWrite_taken (p := 4) (off := 0x230) (v := putBit v.toNat 31 true) hopen (by decide) (by decide) (by decide) (by decide)
    (by decide) (putBit_top_lt true v.isLt (by decide)) (by decide) hmay (by simp) (fmqCmd_accepts hslots)).trans ?_
  simp [Pkg.aonWritten, Pkg.dev, hgo, Dev.fmqCmdSet]

theorem Dev.fmqCmdSet_slots (d : Dev) : (d.fmqCmdSet v.toNat).rd F.MGMT_FMQ_CMD_SLOTS = bits v.toNat 0 2 := by
  have hnew := newWord_aon (d := tlp .host d) (p := 4) (off := 0x230) (v := putBit v.toNat 31 true) (f := F.MGMT_FMQ_CMD_SLOTS)
    (by decide) (by decide) (by decide) (by decide) (by decide) (by decide) (by decide) (fmqCmd_accepts hslots _ (by decide))
  have haddr : F.MGMT_FMQ_CMD_SLOTS.addr F.MGMT_FMQ_CMD_SLOTS.page 0 = 0x4230 := rfl
  rw [Dev.rd, Dev.rdpi, haddr, Dev.fmqCmdSet, Dev.word_setWord_same, bits_mod _ _ _ _ (by decide), hnew]
  exact bits_putBits_ne _ _ _ _ _ _ (by decide)

end

theorem Dev.fmqCmdSet_mgmt (d : Dev) (v : Nat) : (d.fmqCmdSet v).mgmt = d.mgmt := by
  simp [Dev.fmqCmdSet, tlp]

theorem Dev.fmqCmdSet_valid (d : Dev) (v : Nat) :
    (d.fmqCmdSet v).rdp F.BLK_ERR_CAP0_VALID 4 = d.rdp F.BLK_ERR_CAP0_VALID 4 := by
  rw [Dev.fmqCmdSet, Dev.rdp, Dev.rdpi_setWord_ne _ _ _ _ _ _ (by decide)]
  simp [Dev.rdp, tlp]

theorem Dev.rd_slots_fmqQueue (d : Dev) (m : Master) (v : Nat) :
    (d.fmqQueue m v).rd F.MGMT_FMQ_CMD_SLOTS = d.rd F.MGMT_FMQ_CMD_SLOTS := by
  by_cases hroom : d.mgmt.sendQ.length < 8
  · rw [Dev.fmqQueue_room hroom]
    exact Dev.rd_congr rfl _
  · rw [Dev.fmqQueue_full (by omega)]
    simp (disch := decide) [Dev.rd_dropWrite]

theorem Dev.fmqQueue_sendQ_room {d : Dev} {m : Master} {v : Nat} (h : d.mgmt.sendQ.length < 8) :
    (d.fmqQueue m v).mgmt.sendQ = d.mgmt.sendQ ++ [d.stagedMsg] := by
  rw [Dev.fmqQueue_room h]

theorem Dev.fmqQueue_sendQ_full {d : Dev} {m : Master} {v : Nat} (h : 8 ≤ d.mgmt.sendQ.length) :
    (d.fmqQueue m v).mgmt.sendQ = d.mgmt.sendQ := by
  rw [Dev.fmqQueue_full h]
  simp

theorem Dev.fmqQueue_code_full {d : Dev} {m : Master} {v : Nat} (h : 8 ≤ d.mgmt.sendQ.length)
    (harm : d.rdp F.BLK_ERR_CAP0_VALID 4 = 0) : (d.fmqQueue m v).rdp F.BLK_ERR_CAP0_CODE 4 = 4 := by
  rw [Dev.fmqQueue_full h]
  exact Dev.code_capture _ (by decide) _ _ _ _ _ harm

theorem fmqGo_queues {v : W32} {s : State} (hopen : pageOpen s.dev .host 4) (hfm : s.dev.rd F.MGMT_FM_CFG_FM_EN = 1)
    (hslots : bits v.toNat 0 2 ≤ 2) :
    ∃ t, exec (.fmqGo .host v) s = .next t ∧ t.store = s.store ∧ t.dev.rd F.MGMT_FMQ_CMD_SLOTS = bits v.toNat 0 2 ∧
      (s.dev.mgmt.sendQ.length < 8 → ∃ b, t.dev.mgmt.sendQ = s.dev.mgmt.sendQ ++ [b] ∧ b.length = 48) ∧
      (8 ≤ s.dev.mgmt.sendQ.length → t.dev.mgmt.sendQ = s.dev.mgmt.sendQ ∧
        (s.dev.rdp F.BLK_ERR_CAP0_VALID 4 = 0 → t.dev.rdp F.BLK_ERR_CAP0_CODE 4 = 4)) := by
  have hq := s.dev.fmqCmdSet_mgmt v.toNat
  refine ⟨_, fmqGo_writes hslots hopen hfm, rfl, (Dev.rd_slots_fmqQueue _ _ _).trans (Dev.fmqCmdSet_slots hslots s.dev),
    fun h => ⟨(s.dev.fmqCmdSet v.toNat).stagedMsg, ?_, length_sliceBytes _ _ _⟩, fun h => ⟨?_, fun harm => ?_⟩⟩
  · exact (Dev.fmqQueue_sendQ_room (by rwa [hq])).trans (congrArg (·.sendQ ++ _) hq)
  · exact (Dev.fmqQueue_sendQ_full (by rwa [hq])).trans (congrArg (·.sendQ) hq)
  · exact Dev.fmqQueue_code_full (by rwa [hq]) ((s.dev.fmqCmdSet_valid v.toNat).trans harm)

/-- The oldest message leaves the queue, for a node that is not this one. -/
theorem fmqSend_leaves {b : List Byte} {q : List (List Byte)} {x : Pkg} (hq : x.2.mgmt.sendQ = b :: q)
    (hother : leNat ((x.2.stamped b).take 2) % 4096 ≠ x.2.node) :
    Pkg.fmqSend x = (x.1, Dev.ctrl (({ x.2 with mgmt := { x.2.mgmt with sendQ := q } } : Dev).wr
      F.MGMT_FMQ_STAT_SENT (x.2.rd F.MGMT_FMQ_STAT_SENT + 1)) (leNat ((x.2.stamped b).take 2) % 4096) (.staged (x.2.stamped b))) := by
  unfold Pkg.fmqSend
  rw [hq]
  exact if_neg hother

theorem fmqSend_sends {b : List Byte} {q : List (List Byte)} {s : State} (hrun : s.dev.running = true) (hdom : s.dev.domOn 11 = true)
    (hq : s.dev.mgmt.sendQ = b :: q) (hother : leNat ((s.dev.stamped b).take 2) % 4096 ≠ s.dev.node)
    (hnode : s.dev.hasNode (leNat ((s.dev.stamped b).take 2) % 4096) = true) :
    ∃ t, exec .fmqSend s = .next t ∧ t.store = s.store ∧ t.dev.mgmt.sendQ = q ∧
      t.dev.out = s.dev.out ++ [.ctrl (leNat ((s.dev.stamped b).take 2) % 4096) (.staged (s.dev.stamped b))] ∧
      t.dev.rd F.MGMT_FMQ_STAT_SENT = (s.dev.rd F.MGMT_FMQ_STAT_SENT + 1) % 2 ^ 16 := by
  refine ⟨_, onPkg_leaves hrun hdom (fmqSend_leaves (x := (s.store, s.dev)) hq hother), rfl, ?_, ?_, ?_⟩
  · simp [withPkg]
  · simp only [withPkg]
    rw [Dev.ctrl_out ((Dev.hasNode_congr (by simp) _).trans hnode)]
    simp
  · simp only [withPkg]
    rw [Dev.rd_ctrl, Dev.rd_wr_same _ _ _ (by decide)]
    rfl

theorem fmqReceive_receives {b : List Byte} {s : State} (hrun : s.dev.running = true) (hperst : s.dev.rd F.GLB_PIN_STAT_PERST = 0)
    (hint : s.dev.rd F.MGMT_FMQ_RX_CFG_INT_EN = 0) :
    ∃ t, exec (.fmqReceive b) s = .next t ∧ t.store = s.store ∧
      (if s.dev.rd F.MGMT_FMQ_RX_CFG_ENABLE = 1 ∧
          ringFree (s.dev.rd F.MGMT_FMQ_RX_PROD_PROD) (s.dev.rd F.MGMT_FMQ_RX_CONS_CONS) (s.dev.rd F.MGMT_FMQ_RX_CFG_LOG2_SIZE) = true then
        t.dev.out = s.dev.out ++ [.hostWrite
          (ringAddr (s.dev.rd F.MGMT_FMQ_RX_BASE_LO_BASE_LO) (s.dev.rd F.MGMT_FMQ_RX_BASE_HI_BASE_HI)
            (s.dev.rd F.MGMT_FMQ_RX_PROD_PROD) (s.dev.rd F.MGMT_FMQ_RX_CFG_LOG2_SIZE) 64)
          (sliceBytes b 0 48 ++ natLE 8 s.dev.ns ++ natLE 8 0)] ∧
        t.dev.rd F.MGMT_FMQ_RX_PROD_PROD = (s.dev.rd F.MGMT_FMQ_RX_PROD_PROD + 1) % 2 ^ 32
      else t.dev.out = s.dev.out ∧
        t.dev.rd F.MGMT_FMQ_RX_STAT_MISSED = min (s.dev.rd F.MGMT_FMQ_RX_STAT_MISSED + 1) 0xFFFF) := by
  refine ⟨{ s with dev := s.dev.fmqReceive b }, ?_, rfl, ?_⟩
  · dsimp only [exec, execFmqReceive, onDev, onAll]
    simp [Dev.ifRuns, hrun]
  · unfold Dev.fmqReceive
    dsimp only
    split
    · have hno : ∀ (a : Nat) (e : List Byte) (k : Nat), ((s.dev.hostWrite a e).bump F.MGMT_FMQ_RX_PROD_PROD k).rd F.MGMT_FMQ_RX_CFG_INT_EN ≠ 1 :=
        fun a e k => by simp (disch := decide) [Dev.bump, Dev.rd_wr_ne, hint]
      rw [if_neg (hno _ _ _)]
      refine ⟨?_, ?_⟩
      · simp [Dev.hostWrite, hperst]
      · rw [Dev.bump, Dev.rd_wr_same _ _ _ (by decide), Dev.rd_hostWrite]
        rfl
    · refine ⟨by simp, ?_⟩
      rw [Dev.rd_wr_same _ _ _ (by decide)]
      simp only [satAdd, F.MGMT_FMQ_RX_STAT_MISSED]
      omega

/-- Settles O11. -/
theorem fabricManager : Obligations.FabricManager :=
  ⟨fabricManagerNodes, fun _ _ hopen hfm hslots => fmqGo_queues hopen hfm hslots,
    fun _ _ _ hrun hdom hq hother hnode => fmqSend_sends hrun hdom hq hother hnode,
    fun _ _ hrun hperst hint => fmqReceive_receives hrun hperst hint⟩

end Sys2Proof.Machine


/-!
SUPPORT. O14, the setpoint, the brake, the thermal limits and the telemetry (R571, R574 to R577).
-/
namespace Sys2Proof.Machine

/-! ### The rail at its setpoint (R571) -/

theorem Dev.vddMv_railMoves {d : Dev} {mv : Nat} (hoff : d.glb.off = false) (h : 600 ≤ mv) : (d.railMoves mv).glb.vddMv = mv := by
  simp [Dev.railMoves_high h, hoff]

/-- The monitor of the rail writes BLK_STAT of GLB alone. -/
theorem Dev.rd_railMoves {d : Dev} {mv : Nat} (hoff : d.glb.off = false) (h : 600 ≤ mv) (f : Fld) (hf : f.addr f.page 0 ≠ 0x10) :
    (d.railMoves mv).rd f = d.rd f := by
  rw [Dev.railMoves_high h, hoff, if_neg (by decide), Dev.rd_wr_ne _ _ _ _ (.inl hf)]
  exact Dev.rd_congr rfl f

theorem Dev.vsetReached_lifts {d : Dev} (hoff : d.glb.off = false) :
    d.vsetReached.glb.vddMv = 750 - 50 * d.rd F.PWR_STAT_VSET ∧
      (d.rd F.PWR_AVG_AVG_W ≤ d.rd F.PWR_STAT_CAP_EFF → d.rd F.PWR_STAT_CAP_STATUS = 0 → d.vsetReached.rd F.PWR_STAT_THROTTLE = 0) ∧
      (d.rd F.PWR_STAT_CAP_EFF < d.rd F.PWR_AVG_AVG_W → d.vsetReached.rd F.PWR_STAT_THROTTLE = d.rd F.PWR_STAT_THROTTLE) := by
  have hset : d.rd F.PWR_STAT_VSET < 2 ^ 2 := bits_lt _ _ _
  have hmv : 600 ≤ 750 - 50 * d.rd F.PWR_STAT_VSET := by omega
  have hrd := Dev.rd_railMoves hoff hmv
  rw [← Dev.vddMv_railMoves hoff hmv, ← hrd F.PWR_AVG_AVG_W (by decide), ← hrd F.PWR_STAT_CAP_EFF (by decide),
    ← hrd F.PWR_STAT_CAP_STATUS (by decide), ← hrd F.PWR_STAT_THROTTLE (by decide), Dev.vsetReached]
  generalize d.railMoves (750 - 50 * d.rd F.PWR_STAT_VSET) = e
  split
  · exact ⟨by simp, fun _ _ => Dev.rd_wr_same _ _ _ (by decide), fun hlt => absurd hlt (by omega)⟩
  · next h => exact ⟨rfl, fun h1 h2 => absurd ⟨h1, h2⟩ h, fun _ => rfl⟩

/-! ### The brake (R574) -/

theorem Dev.brakeAssert_brakes {d : Dev} (h : d.rd F.PWR_STAT_BRAKE = 0) :
    d.brakeAssert = (d.wr F.PWR_STAT_BRAKE 1).count 1 2 1 ∧ ((d.wr F.PWR_STAT_BRAKE 1).count 1 2 1).braked = true := by
  refine ⟨if_neg (by omega), ?_⟩
  have hbrake : ((d.wr F.PWR_STAT_BRAKE 1).count 1 2 1).rd F.PWR_STAT_BRAKE = 1 := by
    simp (disch := decide) [Dev.rd_wr_same, F.PWR_STAT_BRAKE]
  simp [Dev.braked, hbrake]

/-- A write of a register lets nothing go on of itself. -/
theorem quiet_wr {d : Dev} (f : Fld) (v : Nat) (h : quiet d) : quiet (d.wr f v) := by
  simpa [quiet, Dev.portQ, Dev.lndOf, Dev.jobReady, Dev.fop, Dev.job, Dev.jobLoaded, Dev.arr] using h

theorem Dev.brakeRelease_orderless {d : Dev} (h : d.pwr.pendingOrder = false) : d.brakeRelease = d.wr F.PWR_STAT_BRAKE 0 := by
  simp [Dev.brakeRelease, Dev.capPending, h]

theorem Dev.pumpSrc_none {d : Dev} (h : d.src.held = []) : d.pumpSrc = d := by
  rw [Dev.pumpSrc, h]
  change ({ d with src := { d.src with held := [] } } : Dev) = d
  rw [← h]

/-- A release of the brake that finds nothing held. -/
theorem brakeOver_idle {x : Pkg} (hord : x.2.pwr.pendingOrder = false) (hq : quiet x.2) (hheld : x.2.src.held = [])
    (hcolls : x.2.fry.colls = []) : x.brakeOver = (x.1, x.2.wr F.PWR_STAT_BRAKE 0) := by
  have hpump : (x.2.wr F.PWR_STAT_BRAKE 0).pumpSrc = x.2.wr F.PWR_STAT_BRAKE 0 := Dev.pumpSrc_none (by simpa using hheld)
  have hrel : x.dev (fun d => d.brakeRelease.pumpSrc.collsGoOn) = (x.1, x.2.wr F.PWR_STAT_BRAKE 0) := by
    simp [Pkg.dev, Dev.brakeRelease_orderless hord, hpump, Dev.collsGoOn, hcolls]
  rw [Pkg.brakeOver, hrel]
  exact settle_quiet (quiet_wr _ _ hq)

theorem brakeRelease_releases {s : State} (hoff : s.dev.glb.off = false) (hord : s.dev.pwr.pendingOrder = false)
    (h : s.dev.running = false ∨ (quiet s.dev ∧ s.dev.src.held = [] ∧ s.dev.fry.colls = [])) :
    exec .brakeRelease s = .next { s with dev := s.dev.wr F.PWR_STAT_BRAKE 0 } := by
  dsimp only [exec, execBrakeRelease]
  rw [onAll_eq]
  cases hrun : s.dev.running with
  | false => simp [Dev.ifPowered, hoff, Dev.brakeRelease_orderless hord]
  | true =>
    obtain ⟨hq, hheld, hcolls⟩ := h.resolve_left (by simp [hrun])
    simp [brakeOver_idle (x := (s.store, s.dev)) hord hq hheld hcolls]

/-! ### The thermal limits (R575) -/

/-- PWR_TEMP as a reading leaves it. -/
def Dev.temped (tj : Nat) (d : Dev) : Dev := (d.wr F.PWR_TEMP_TJ (min tj 255)).wr F.PWR_TEMP_TJ_PEAK (max (d.rd F.PWR_TEMP_TJ_PEAK) (min tj 255))

theorem Dev.temped_temp (tj : Nat) (d : Dev) : (d.temped tj).rd F.PWR_TEMP_TJ = min tj 255 ∧
    (d.temped tj).rd F.PWR_TEMP_TJ_PEAK = max (d.rd F.PWR_TEMP_TJ_PEAK) (min tj 255) := by
  have hpeak : d.rd F.PWR_TEMP_TJ_PEAK < 2 ^ 8 := bits_lt _ _ _
  unfold Dev.temped
  refine ⟨?_, ?_⟩
  · rw [Dev.rd_wr_ne _ _ _ _ (by decide), Dev.rd_wr_same _ _ _ (by decide)]
    exact Nat.mod_eq_of_lt (show min tj 255 < 256 by omega)
  · rw [Dev.rd_wr_same _ _ _ (by decide)]
    exact Nat.mod_eq_of_lt (show max (d.rd F.PWR_TEMP_TJ_PEAK) (min tj 255) < 256 by omega)

theorem Dev.thermalTrip_trips (d : Dev) : d.thermalTrip.rd F.PWR_TEMP_TJ = d.rd F.PWR_TEMP_TJ ∧
    d.thermalTrip.rd F.PWR_TEMP_TJ_PEAK = d.rd F.PWR_TEMP_TJ_PEAK ∧ d.thermalTrip.rd F.ERR_FATAL_THERMAL_TRIP = 1 ∧
    d.thermalTrip.glb.thermtrip = true ∧ d.thermalTrip.glb.transmitters = false ∧ d.thermalTrip.running = false ∧
    Emit.pin "THERMTRIP_N" 0 ∈ d.thermalTrip.out := by
  unfold Dev.thermalTrip Dev.txIdle
  dsimp only
  refine ⟨?_, ?_, ?_, by simp, by simp, ?_, by simp⟩
  · simp (disch := decide) [Dev.rd_wr_ne, Dev.rd_fatalTime]
  · simp (disch := decide) [Dev.rd_wr_ne, Dev.rd_fatalTime]
  · simp (disch := decide) [Dev.rd_wr_ne, Dev.rd_wr_same, F.ERR_FATAL_THERMAL_TRIP]
  · simp only [Dev.running, Dev.emit_frame]
    split <;> simp

/-- The reading noted: PWR_TEMP, and whether it is one of several in a row at 115 °C or above. -/
def Dev.heated (tj : Nat) (d : Dev) : Dev := { d.temped tj with pwr := { d.pwr with hot := if 115 ≤ tj then d.pwr.hot + 1 else 0 } }

/-- A reading before any trip. -/
theorem Dev.thermalReading_eq {tj : Nat} {d : Dev} (htrip : d.glb.thermtrip = false) :
    d.thermalReading tj = if 2 ≤ (d.heated tj).pwr.hot then (d.heated tj).thermalTrip
      else if d.rd F.PWR_CFG_THROTTLE_C ≤ tj ∧ !d.pwr.thermal then
        ((({ d.heated tj with pwr := { (d.heated tj).pwr with thermal := true } } : Dev).count 1 5 1).count 1 3 1 |>.event 1 2).capNow
      else if tj + 5 < d.rd F.PWR_CFG_THROTTLE_C ∧ d.pwr.thermal then
        ({ d.heated tj with pwr := { (d.heated tj).pwr with thermal := false } } : Dev).capNow
      else d.heated tj := by
  have hthr : (d.temped tj).rd F.PWR_CFG_THROTTLE_C = d.rd F.PWR_CFG_THROTTLE_C := by
    simp (disch := decide) [Dev.temped, Dev.rd_wr_ne]
  have hpwr : (d.temped tj).pwr = d.pwr := by simp [Dev.temped]
  have hglb : (d.temped tj).glb = d.glb := by simp [Dev.temped]
  rw [show d.thermalReading tj = (if (d.temped tj).glb.thermtrip then d.temped tj else
    let e : Dev := { d.temped tj with pwr := { (d.temped tj).pwr with hot := if 115 ≤ tj then (d.temped tj).pwr.hot + 1 else 0 } }
    if 2 ≤ e.pwr.hot then e.thermalTrip
    else
      let t := e.rd F.PWR_CFG_THROTTLE_C
      if t ≤ tj ∧ !e.pwr.thermal then
        ((({ e with pwr := { e.pwr with thermal := true } } : Dev).count 1 5 1).count 1 3 1 |>.event 1 2).capNow
      else if tj + 5 < t ∧ e.pwr.thermal then ({ e with pwr := { e.pwr with thermal := false } } : Dev).capNow
      else e) from rfl]
  rw [hglb, htrip, if_neg (by decide), hpwr]
  simp [Dev.heated, fieldOf_regs, hthr]

theorem thermalReading_reports {tj : Nat} {s : State} (hoff : s.dev.glb.off = false) (htrip : s.dev.glb.thermtrip = false) :
    ∃ t, exec (.thermalReading tj) s = .next t ∧ t.store = s.store ∧
      (115 ≤ tj → s.dev.pwr.hot = 1 → t.dev.rd F.PWR_TEMP_TJ = min tj 255 ∧
        t.dev.rd F.PWR_TEMP_TJ_PEAK = max (s.dev.rd F.PWR_TEMP_TJ_PEAK) (min tj 255) ∧ t.dev.rd F.ERR_FATAL_THERMAL_TRIP = 1 ∧
        t.dev.glb.thermtrip = true ∧ t.dev.glb.transmitters = false ∧ t.dev.running = false ∧
        Emit.pin "THERMTRIP_N" 0 ∈ t.dev.out) ∧
      (tj < 115 → tj < s.dev.rd F.PWR_CFG_THROTTLE_C → s.dev.pwr.thermal = false →
        t.dev.rd F.PWR_TEMP_TJ = min tj 255 ∧ t.dev.pwr = { s.dev.pwr with hot := 0 } ∧ t.dev.glb = s.dev.glb) := by
  obtain ⟨htemp, hpeak⟩ := s.dev.temped_temp tj
  refine ⟨_, onDev_ifPowered hoff (Dev.thermalReading tj), rfl, fun htj hhot => ?_, fun htj hcool hth => ?_⟩
  · have h2 : 2 ≤ (s.dev.heated tj).pwr.hot := by simp [Dev.heated, htj, hhot]
    have hrd : ∀ f, (s.dev.heated tj).rd f = (s.dev.temped tj).rd f := fun f => Dev.rd_congr rfl f
    obtain ⟨ht, hp, hrest⟩ := (s.dev.heated tj).thermalTrip_trips
    dsimp only
    rw [Dev.thermalReading_eq htrip, if_pos h2]
    exact ⟨ht.trans ((hrd _).trans htemp), hp.trans ((hrd _).trans hpeak), hrest⟩
  · have hcool' : ¬s.dev.rd F.PWR_CFG_THROTTLE_C ≤ tj := by omega
    have hne : ¬115 ≤ tj := by omega
    have hheat : s.dev.thermalReading tj = s.dev.heated tj := by
      rw [Dev.thermalReading_eq htrip, if_neg (by simp [Dev.heated, hne]), if_neg (by simp [hcool']), if_neg (by simp [hth])]
    dsimp only
    rw [hheat, Dev.heated, if_neg hne]
    exact ⟨(Dev.rd_congr rfl _).trans htemp, rfl, by simp [Dev.temped]⟩

theorem setpointBrakeAndThermal : Said.SetpointBrakeAndThermal := by
  intro s hoff
  refine ⟨⟨_, onDev_ifPowered hoff Dev.vsetReached, rfl, Dev.vsetReached_lifts hoff⟩, fun h => ?_, fun hrun => ?_,
    fun hord h => brakeRelease_releases hoff hord h, fun tj htrip => thermalReading_reports hoff htrip⟩
  · obtain ⟨heq, hbrake⟩ := Dev.brakeAssert_brakes h
    exact ⟨(onDev_ifPowered hoff Dev.brakeAssert).trans (by rw [heq]), hbrake⟩
  · dsimp only [exec, execBrakeRelease]
    rw [onAll_eq, if_pos hrun]
    rfl

/-! ### Telemetry (R576, R577) -/

/-- What a window's end leaves while no cap is in force. -/
theorem Dev.windowEnd_uncapped {w : Nat} {d : Dev} (hdom : d.domOn 29 = true) (hcap : 950 ≤ d.capInForce)
    (hat : d.pwr.windowAt < d.ns / (d.rd F.PWR_CFG_AVG_100US * 100000)) :
    d.windowEnd w = (({ d with pwr := { d.pwr with windowAt := d.ns / (d.rd F.PWR_CFG_AVG_100US * 100000) } } : Dev).wr
      F.PWR_AVG_AVG_W (min w 2047)).wr F.PWR_AVG_PEAK_W (max (d.rd F.PWR_AVG_PEAK_W) (min w 2047)) := by
  have hloop : ∀ e : Dev, e.pwr.thermal = d.pwr.thermal → e.pwr.order = d.pwr.order → e.capLoop (min w 2047) = e := fun e h1 h2 => by
    have hcap' : 950 ≤ e.capInForce := by simpa [Dev.capInForce, h1, h2] using hcap
    rw [Dev.capLoop, if_pos (.inl hcap')]
  rw [Dev.windowEnd, if_pos ⟨hdom, hat⟩]
  dsimp only
  rw [hloop _ (by simp) (by simp), ite_self]
  rfl

theorem telemetryWindowEnd_averages {w : Nat} {s : State} (hoff : s.dev.glb.off = false) (hdom : s.dev.domOn 29 = true)
    (hcap : 950 ≤ s.dev.capInForce) (hat : s.dev.pwr.windowAt < s.dev.ns / (s.dev.rd F.PWR_CFG_AVG_100US * 100000)) :
    ∃ t, exec (.telemetryWindowEnd w) s = .next t ∧ t.store = s.store ∧ t.dev.rd F.PWR_AVG_AVG_W = min w 2047 ∧
      t.dev.rd F.PWR_AVG_PEAK_W = max (s.dev.rd F.PWR_AVG_PEAK_W) (min w 2047) ∧
      (∀ a, a ≠ 0x1130 → t.dev.word a = s.dev.word a) := by
  have hpeak : s.dev.rd F.PWR_AVG_PEAK_W < 2 ^ 11 := bits_lt _ _ _
  refine ⟨_, onDev_ifPowered hoff (Dev.windowEnd w), rfl, ?_⟩
  dsimp only
  rw [Dev.windowEnd_uncapped hdom hcap hat]
  refine ⟨?_, ?_, fun a ha => ?_⟩
  · rw [Dev.rd_wr_ne _ _ _ _ (by decide), Dev.rd_wr_same _ _ _ (by decide)]
    exact Nat.mod_eq_of_lt (show min w 2047 < 2048 by omega)
  · rw [Dev.rd_wr_same _ _ _ (by decide)]
    exact Nat.mod_eq_of_lt (show max (s.dev.rd F.PWR_AVG_PEAK_W) (min w 2047) < 2048 by omega)
  · exact (Dev.word_wr_ne _ _ _ _ ha).trans ((Dev.word_wr_ne _ _ _ _ ha).trans (Dev.word_congr rfl a))

theorem peakClr_clears {m : Master} {v : W32} {s : State} (hopen : pageOpen s.dev m 1) (hown : s.dev.owns m 1 = true) :
    ∃ t, exec (.peakClr m v) s = .next t ∧ t.store = s.store ∧ t.dev.rd F.PWR_AVG_PEAK_W = 0 ∧
      t.dev.rd F.PWR_AVG_AVG_W = s.dev.rd F.PWR_AVG_AVG_W := by
  have hflds : fieldsAt 1 0x130 = [F.PWR_AVG_AVG_W, F.PWR_AVG_PEAK_W, F.PWR_AVG_PEAK_CLR] := by decide
  have hacc : ∀ w, ∀ f ∈ fieldsAt 1 0x130, f.accepts (bits w f.lo f.w) = true := by
    simp [hflds, Fld.accepts, F.PWR_AVG_AVG_W, F.PWR_AVG_PEAK_W, F.PWR_AVG_PEAK_CLR]
  have hwrite := aonWrite_taken (p := 1) (off := 0x130) (v := putBit v.toNat 31 true) hopen (by decide) (by decide) (by decide) (by decide) (by decide)
    (putBit_top_lt true v.isLt (by decide)) (by decide) (mayWrite_owner hown (by decide)) (by simp) (hacc _)
  refine ⟨_, (show exec (.peakClr m v) s = regOut m (1 * 0x1000 + 0x130) 4 (putBit v.toNat 31 true) s from rfl).trans hwrite, ?_⟩
  have hgo : bit (putBit v.toNat 31 true) 31 = true := bit_putBit_same _ _ _
  rw [hgo]
  generalize putBit v.toNat 31 true = w
  simp only [Pkg.aonWritten, Pkg.dev, withPkg, if_pos, Nat.reduceEqDiff, if_false, one_ne_zero]
  refine ⟨trivial, ?_, ?_⟩
  · rw [Dev.rd_wr_same _ _ _ (by decide)]
    rfl
  · have hkeep := (tlp m s.dev).newWord_field true 1 0x130 w F.PWR_AVG_AVG_W (by simp [hflds]) (by decide)
    rw [Dev.fieldWord_keeps (by decide) (.inl (by decide)), tlp_word] at hkeep
    rw [Dev.rd_wr_ne _ _ _ _ (by decide)]
    change bits (Dev.word _ 0x1130) 0 11 = bits (s.dev.word 0x1130) 0 11
    rw [Dev.word_setWord_same, bits_mod _ _ _ _ (by decide)]
    exact hkeep

theorem pwrEnergyLoRead_latches {m : Master} {mj : Nat} {s : State} (hoff : s.dev.glb.off = false) (hmj : mj < 2 ^ 64)
    (hold : s.dev.pwr.mj < 2 ^ 64) :
    ∃ t, exec (.pwrEnergyLoRead m mj) s = .next t ∧ t.store = s.store ∧ t.dev.pwr.mj = max s.dev.pwr.mj mj ∧
      t.dev.rd F.PWR_ENERGY_LO_MJ_LO = t.dev.pwr.mj % 2 ^ 32 ∧ t.dev.rd F.PWR_ENERGY_HI_MJ_HI = t.dev.pwr.mj / 2 ^ 32 ∧
      t.dev.out = s.dev.out ++ [.regData m 0 (natLE 4 (t.dev.pwr.mj % 2 ^ 32))] := by
  have hmax : max s.dev.pwr.mj mj % 2 ^ 64 = max s.dev.pwr.mj mj := Nat.mod_eq_of_lt (by omega)
  refine ⟨_, onDev_ifPowered hoff (Dev.energyRead m mj), rfl, ?_⟩
  dsimp only [Dev.energyRead]
  rw [hmax]
  have hlt : max s.dev.pwr.mj mj < 2 ^ 64 := by omega
  generalize max s.dev.pwr.mj mj = v at hlt
  have hans : ∀ e : Dev, (e.regAnswer m 0 (natLE 4 (v % 2 ^ 32))).pwr = e.pwr ∧
      (e.regAnswer m 0 (natLE 4 (v % 2 ^ 32))).out = e.out ++ [.regData m 0 (natLE 4 (v % 2 ^ 32))] ∧
      ∀ f, (e.regAnswer m 0 (natLE 4 (v % 2 ^ 32))).rd f = e.rd f := fun e => by
    unfold Dev.regAnswer
    split <;> simp
  obtain ⟨hpwr, hout, hrd⟩ := hans ((({ s.dev with pwr := { s.dev.pwr with mj := v } } : Dev).wr F.PWR_ENERGY_LO_MJ_LO (v % 2 ^ 32)).wr
    F.PWR_ENERGY_HI_MJ_HI (v / 2 ^ 32))
  have hmjv := congrArg Pwr.mj hpwr
  simp only [Dev.wr_frame] at hmjv
  refine ⟨hmjv, ?_, ?_, ?_⟩
  · rw [hrd, hmjv, Dev.rd_wr_ne _ _ _ _ (by decide), Dev.rd_wr_same _ _ _ (by decide)]
    exact Nat.mod_mod _ _
  · rw [hrd, hmjv, Dev.rd_wr_same _ _ _ (by decide)]
    exact Nat.mod_eq_of_lt (show v / 2 ^ 32 < 2 ^ 32 by omega)
  · rw [hout, hmjv]
    simp

theorem telemetry : Said.Telemetry :=
  ⟨fun _ _ hoff hdom hcap hat => telemetryWindowEnd_averages hoff hdom hcap hat, fun _ _ _ hopen hown => peakClr_clears hopen hown,
    fun _ _ _ hoff hmj hold => pwrEnergyLoRead_latches hoff hmj hold⟩

/-- Settles O14. -/
theorem powerAndHeat : Obligations.PowerAndHeat := ⟨setpointBrakeAndThermal, telemetry⟩

end Sys2Proof.Machine


/-!
SUPPORT. O15, power domains (R50, R556 to R558).
-/
namespace Sys2Proof.Machine

/-! ### What a port's link writes outside its own page -/

section
variable {d : Dev} {p a : Nat}

theorem linkPage_ge (p : Nat) : 0x10 ≤ linkPage p := by
  unfold linkPage
  split <;> omega

theorem Dev.word_lwr_near (f g : Fld) (v : Nat) (ha : a < 0x10000) : (d.lwr p f g v).word a = d.word a := by
  have hp := linkPage_ge p
  unfold Dev.lwr Dev.wrp
  split <;> exact Dev.word_wrpi_ne _ _ _ _ _ _ (by rw [Fld.addr]; omega)

theorem Dev.word_sendTone_near (ha : a < 0x10000) : (d.sendTone p).word a = d.word a := by
  unfold Dev.sendTone Dev.setSlack
  rw [Dev.word_emit, Dev.word_emit, Dev.word_lwr_near _ _ _ ha]
  exact Dev.word_congr rfl a

/-- A port that enters DETECT changes no register of the always-on pages. -/
theorem Dev.word_tryDetect_near (ha : a < 0x10000) : (d.tryDetect p).word a = d.word a := by
  unfold Dev.tryDetect
  split
  · rw [Dev.word_sendTone_near ha]
    exact (Dev.word_congr rfl a).trans (Dev.word_lwr_near _ _ _ ha)
  · rfl

theorem Dev.word_tryDetects_near (ha : a < 0x10000) (port : Nat → Nat) (l : List Nat) :
    (l.foldl (fun (d : Dev) j => d.tryDetect (port j)) d).word a = d.word a := by
  induction l generalizing d with
  | nil => rfl
  | cons j l ih => exact ih.trans (Dev.word_tryDetect_near ha)

/-! ### PWR_DOM_STAT -/

theorem putBit_lt {n i k : Nat} (b : Bool) (hn : n < 2 ^ k) (hi : i < k) : putBit n i b < 2 ^ k := by
  refine Nat.lt_pow_two_of_testBit _ fun j hj => ?_
  rw [← bit_eq_testBit, bit_putBit_ne _ _ _ _ (by omega), bit_eq_testBit]
  exact Nat.testBit_lt_two_pow (hn.trans_le (Nat.pow_le_pow_right (by decide) hj))

theorem Dev.domOn_congr {e : Dev} (h : e.word 0x112C = d.word 0x112C) (i : Nat) : e.domOn i = d.domOn i := by
  have hrd : e.rd F.PWR_DOM_STAT_ON = d.rd F.PWR_DOM_STAT_ON := Dev.rd_of_word _ h
  rw [Dev.domOn, Dev.domOn, hrd]

theorem Dev.domOn_setDom {i : Nat} (hi : i < 30) (on : Bool) (j : Nat) :
    (d.setDom i on).domOn j = if j = i then j == 26 || on else d.domOn j := by
  have hstat : (d.setDom i on).rd F.PWR_DOM_STAT_ON = putBit (d.rd F.PWR_DOM_STAT_ON) i on % 2 ^ 30 := Dev.rd_wr_same _ _ _ (by decide)
  have hlt : d.rd F.PWR_DOM_STAT_ON < 2 ^ 30 := bits_lt _ _ _
  have hput : putBit (d.rd F.PWR_DOM_STAT_ON) i on < 2 ^ 30 := putBit_lt on hlt hi
  rw [Dev.domOn, hstat, Nat.mod_eq_of_lt hput]
  split
  · next h => rw [h, bit_putBit_same]
  · next h => rw [bit_putBit_ne _ _ _ _ (by omega), Dev.domOn]

end

/-! ### The commands -/

theorem pwrDomReqWrite_writes {m : Master} {v : W32} {s : State} (hopen : pageOpen s.dev m 1) (hown : s.dev.owns m 1 = true)
    (h1 : bit v.toNat 21 = true) (h2 : bit v.toNat 22 = true) (h3 : bit v.toNat 23 = true) :
    ∃ t, exec (.pwrDomReqWrite m v) s = .next t ∧ t.store = s.store ∧ t.dev.rd F.PWR_DOM_REQ_REQ = bits v.toNat 0 30 ∧
      (∀ a, a ≠ 0x1128 → t.dev.word a = s.dev.word a) := by
  have hflds : fieldsAt 1 0x128 = [F.PWR_DOM_REQ_REQ] := by decide
  have hacc : ∀ f ∈ fieldsAt 1 0x128, f.accepts (bits v.toNat f.lo f.w) = true := by
    simp [hflds, Fld.accepts, F.PWR_DOM_REQ_REQ]
  have hmay : (tlp m s.dev).mayWrite m 1 0x128 = true := mayWrite_owner hown (by decide)
  have hnew := newWord_aon (d := tlp m s.dev) (p := 1) (off := 0x128) (v := v.toNat) (f := F.PWR_DOM_REQ_REQ) (by decide) (by decide)
    (by decide) (by decide) (by simp [hflds]) (by decide) (by decide) (hacc _ (by simp [hflds]))
  have hreq : ∀ d : Dev, (d.setWord 0x1128 ((tlp m s.dev).newWord true 1 0x128 v.toNat)).rd F.PWR_DOM_REQ_REQ = bits v.toNat 0 30 := fun d => by
    change bits (Dev.word _ 0x1128) 0 30 = _
    rw [Dev.word_setWord_same, bits_mod _ _ _ _ (by decide)]
    exact hnew
  have hbit : ∀ k, k < 30 → bit v.toNat k = true → bit (bits v.toNat 0 30) k = true := fun k hk h => by
    rw [bit_eq_testBit, testBit_bits, Nat.zero_add, ← bit_eq_testBit, h, decide_eq_true hk, Bool.true_and]
  have hnear : (tlp m s.dev).writeRefused ((tlp m s.dev).setWord (1 * 0x1000 + 0x128) ((tlp m s.dev).newWord ((tlp m s.dev).mayWrite m 1 0x128) 1 0x128 v.toNat))
      1 0x128 = none := by
    rw [hmay]
    change (if _ then none else some (3, 0)) = none
    rw [if_pos]
    simp [hreq, hbit 21 (by decide) h1, hbit 22 (by decide) h2, hbit 23 (by decide) h3]
  have hwrite := aonWrite_taken (p := 1) (off := 0x128) (v := v.toNat) hopen (by decide) (by decide) (by decide) (by decide) (by decide)
    v.isLt (by decide) hmay (fun _ _ => hnear) hacc
  refine ⟨_, (show exec (.pwrDomReqWrite m v) s = regOut m (1 * 0x1000 + 0x128) 4 v.toNat s from rfl).trans hwrite, ?_⟩
  simp only [Pkg.aonWritten, withPkg, Nat.reduceEqDiff, if_false, if_pos, one_ne_zero]
  refine ⟨trivial, hreq _, fun a ha => ?_⟩
  rw [Dev.word_setWord_ne _ _ ha, tlp_word]

/-- The package with domain `i` turned on, its enabled ports in DETECT. -/
def Dev.domainUp (i : Nat) (d : Dev) : Dev :=
  let d := d.setDom i true
  let d := if 20 ≤ i ∧ i < 24 then d.setAvail else d
  if i < 6 then [0, 1, 2, 3].foldl (fun (d : Dev) j => d.tryDetect (4 * i + j)) d
  else if 6 ≤ i ∧ i < 10 then d.tryDetect (24 + (i - 6)) else d

theorem Dev.domOn_domainUp {i : Nat} (hi : i < 30) (d : Dev) (j : Nat) :
    (d.domainUp i).domOn j = if j = i then true else d.domOn j := by
  have hset : (d.setDom i true).domOn j = if j = i then true else d.domOn j := by
    rw [Dev.domOn_setDom hi, Bool.or_true]
  have havail : (d.setDom i true).setAvail.domOn j = (d.setDom i true).domOn j := Dev.domOn_congr (Dev.word_wr_ne _ _ _ _ (by decide)) j
  have hports : ∀ (e : Dev) (l : List Nat) (port : Nat → Nat), (l.foldl (fun (d : Dev) j => d.tryDetect (port j)) e).domOn j = e.domOn j :=
    fun e l port => Dev.domOn_congr (Dev.word_tryDetects_near (by decide) port l) j
  have hport : ∀ (e : Dev) (p : Nat), (e.tryDetect p).domOn j = e.domOn j := fun e p => Dev.domOn_congr (Dev.word_tryDetect_near (by decide)) j
  rw [← hset]
  unfold Dev.domainUp
  dsimp only
  by_cases hgroup : 20 ≤ i ∧ i < 24
  · rw [if_pos hgroup, if_neg (by omega), if_neg (by omega), havail]
  · rw [if_neg hgroup]
    split
    · exact hports _ _ (fun j => 4 * i + j)
    · split
      · exact hport _ _
      · rfl

theorem domainOn_turnsOn {i : Fin 30} {s : State} (hrun : s.dev.running = true) (hawake : s.dev.awake = true)
    (hpair : ¬(12 ≤ i.val ∧ i.val < 20)) (hoff : bit (s.dev.rd F.PWR_DOM_STAT_ON) i.val = false) (hcond : s.dev.domCond i.val = true) :
    ∃ d, d.domOn i.val = true ∧ (∀ j, j ≠ i.val → d.domOn j = s.dev.domOn j) ∧
      exec (.domainOn i) s = .next (withPkg s (if d.domOn 11 then Pkg.released (s.store, d) else (s.store, d))) := by
  refine ⟨s.dev.domainUp i, ?_, fun j hj => ?_, ?_⟩
  · rw [Dev.domOn_domainUp i.isLt, if_pos rfl]
  · rw [Dev.domOn_domainUp i.isLt, if_neg hj]
  · dsimp only [exec, execDomainOn]
    rw [onAll_eq, Pkg.ifAwakeable, if_pos hrun, Pkg.domainOn, if_neg hpair, if_neg (by simp [hawake, hoff, hcond])]
    rfl

/-- A page without power: words of other pages stay. -/
theorem Dev.word_pageOff_ne {d : Dev} {p a : Nat} (h : a / 0x1000 ≠ p) : (d.pageOff p).word a = d.word a := by
  simp [Dev.word, Dev.pageOff, tget_tdrop, h]

theorem domainOff_mirror {s : State} (hrun : s.dev.running = true) (hawake : s.dev.awake = true) (hon : s.dev.domOn 29 = true)
    (hcond : s.dev.domCond 29 = false) (hwork : (domainPages 29).any s.dev.workInHand = false) :
    ∃ t, exec (.domainOff 29) s = .next t ∧ t.store = s.store ∧ t.dev.domOn 29 = false ∧ (∀ j, j ≠ 29 → t.dev.domOn j = s.dev.domOn j) := by
  have hpages : domainPages 29 = [0x69] := by decide
  have hstay : ¬(!s.dev.awake ∨ (29 : Nat) = 26 ∨ !s.dev.domOn 29 ∨ s.dev.domCond 29 ∨
      (12 ≤ 29 ∧ 29 < 20 ∧ bit (s.dev.rd F.PWR_DOM_REQ_REQ) 29)) := by
    simp [hawake, hon, hcond]
  have hoff : Pkg.domainOff 29 (s.store, s.dev) = (s.store, ((s.dev.setDom 29 false).blockFresh 0x69).pageOff 0x69) := by
    rw [Pkg.domainOff, if_neg hstay, if_neg (by simpa using hwork), if_neg (by decide), hpages]
    rfl
  have hword : ∀ d : Dev, ((d.blockFresh 0x69).pageOff 0x69).word 0x112C = d.word 0x112C := fun d =>
    (Dev.word_pageOff_ne (by decide)).trans (Dev.word_congr rfl _)
  refine ⟨{ s with store := s.store, dev := ((s.dev.setDom 29 false).blockFresh 0x69).pageOff 0x69 }, ?_, rfl, ?_, fun j hj => ?_⟩
  · dsimp only [exec, execDomainOff]
    rw [onAll_eq, Pkg.ifAwakeable, if_pos hrun]
    simp only [show ((29 : Fin 30) : Nat) = 29 from rfl, hoff]
  · exact (Dev.domOn_congr (hword _) _).trans ((Dev.domOn_setDom (by decide) _ _).trans (if_pos rfl))
  · exact (Dev.domOn_congr (hword _) _).trans ((Dev.domOn_setDom (by decide) _ _).trans (if_neg hj))

theorem domainOff_group {i : Fin 30} {s : State} (hi : 20 ≤ i.val ∧ i.val < 24) (hrun : s.dev.running = true) (hawake : s.dev.awake = true)
    (hon : s.dev.domOn i.val = true) (hcond : s.dev.domCond i.val = false) (hwork : (domainPages i.val).any s.dev.workInHand = false)
    (hfits : s.dev.spillFits i.val = true) :
    ∃ t, exec (.domainOff i) s = .next t ∧ t.dev.domOn i.val = false ∧
      t.store = s.store.lose (metaLine0 + (i.val - 20) * 0xA00000) (metaLine0 + (i.val - 19) * 0xA00000) (Config.freeNat s.dev.freeCtr) := by
  have hstay : ¬(!s.dev.awake ∨ i.val = 26 ∨ !s.dev.domOn i.val ∨ s.dev.domCond i.val ∨
      (12 ≤ i.val ∧ i.val < 20 ∧ bit (s.dev.rd F.PWR_DOM_REQ_REQ) i.val)) := by
    simp [hawake, hon, hcond]
    omega
  have hnext : i.val - 20 + 1 = i.val - 19 := by omega
  refine ⟨{ s with store := (Pkg.domainOff i (s.store, s.dev)).1, dev := (Pkg.domainOff i (s.store, s.dev)).2 }, ?_, ?_, ?_⟩
  · dsimp only [exec, execDomainOff]
    rw [onAll_eq, Pkg.ifAwakeable, if_pos hrun]
  · dsimp only
    rw [Pkg.domainOff, if_neg hstay, if_neg (by simpa using hwork), if_pos hi, if_pos hfits]
    refine (Dev.domOn_congr (Dev.word_wr_ne _ _ _ _ (by decide)) _).trans ?_
    rw [Dev.domOn_setDom i.isLt, if_pos rfl]
    simp
    omega
  · dsimp only
    rw [Pkg.domainOff, if_neg hstay, if_neg (by simpa using hwork), if_pos hi, if_pos hfits]
    simp only [Pkg.loseGroup, Pkg.loseLines, Pkg.dev, hnext]
    rfl

/-- Settles O15. -/
theorem powerDomains : Obligations.PowerDomains :=
  ⟨fun _ _ _ hopen hown h1 h2 h3 => pwrDomReqWrite_writes hopen hown h1 h2 h3,
    fun _ _ hrun hawake hpair hoff hcond => domainOn_turnsOn hrun hawake hpair hoff hcond,
    fun _ hrun hawake hon hcond hwork => domainOff_mirror hrun hawake hon hcond hwork,
    fun _ _ hi hrun hawake hon hcond hwork hfits => domainOff_group hi hrun hawake hon hcond hwork hfits⟩

end Sys2Proof.Machine


/-!
SUPPORT. O16, PWR_CMD and the wake sources (R561, R562, R566).
-/
namespace Sys2Proof.Machine

/-! ### A write of PWR_CMD -/

/-- A value of PWR_CMD: GO, with operation `op`. -/
def pwrGoWord (v : W32) (op : Nat) : Nat := putBit (putBits v.toNat 0 3 op) 31 true

section
variable {m : Master} {v : W32} {s : State} {op : Nat}

theorem pwrGoWord_lt : pwrGoWord v op < 2 ^ 32 := by
  refine putBit_top_lt true (Nat.lt_pow_two_of_testBit _ fun j hj => ?_) (by decide)
  rw [testBit_putBits, if_neg (by omega)]
  exact Nat.testBit_lt_two_pow (v.isLt.trans_le (Nat.pow_le_pow_right (by decide) hj))

theorem pwrGoWord_op (hop : op < 8) : bits (pwrGoWord v op) 0 3 = op := by
  rw [pwrGoWord, putBit, bits_putBits_ne _ _ _ _ _ _ (by decide), bits_putBits_same]
  exact Nat.mod_eq_of_lt hop

theorem pwrGoWord_go : bit (pwrGoWord v op) 31 = true := bit_putBit_same _ _ _

/-- The package as PWR_CMD is written by the page's owner. -/
def Dev.pwrCmdSet (m : Master) (v : W32) (op : Nat) (d : Dev) : Dev :=
  (tlp m d).setWord 0x110C ((tlp m d).newWord true 1 0x10C (pwrGoWord v op))

/-- What a write of PWR_CMD by the page's owner, or by another master, does. -/
theorem pwrCmdWrite_of {own : Bool} (hopen : pageOpen s.dev m 1) (hown : s.dev.owns m 1 = own) (hop : 1 ≤ op) (hop3 : op ≤ 3)
    (hact : own = true ∨ (op = 3 ∧ m = .mgmt)) :
    regOut m (1 * 0x1000 + 0x10C) 4 (pwrGoWord v op) s =
      .next (withPkg s (s.store, (if own then s.dev.pwrCmdSet m v op else tlp m s.dev).pwrCmd m (pwrGoWord v op) op own)) := by
  obtain ⟨-, hreach, hkind, hon⟩ := hopen
  have hmay : (tlp m s.dev).mayWrite m 1 0x10C = own := by
    simpa [Dev.mayWrite, isFmq, Dev.owns, Dev.rdp] using hown
  have hflds : fieldsAt 1 0x10C = [F.PWR_CMD_OP, F.PWR_CMD_GO] := by decide
  have hop' : bits (pwrGoWord v op) F.PWR_CMD_OP.lo F.PWR_CMD_OP.w = op := pwrGoWord_op (by omega)
  have hacc : ∀ f ∈ fieldsAt 1 0x10C, f.accepts (bits (pwrGoWord v op) f.lo f.w) = true := by
    simp only [hflds, List.mem_cons, List.not_mem_nil, or_false, forall_eq_or_imp, forall_eq, hop']
    simp [Fld.accepts, F.PWR_CMD_OP, F.PWR_CMD_GO, hop, hop3]
  have hgood : (tlp m s.dev).anyReserved true 1 0x10C (pwrGoWord v op) = false := by
    rw [Dev.anyReserved, List.any_eq_false]
    intro f hf
    simp [Dev.reserved_aon _ 0x10C (pwrGoWord v op) (by decide) (by decide) (fieldsAt_aon_page (by decide) (by decide) f hf), hacc f hf]
  have hwrite : Pkg.pwrCmdWrite m (pwrGoWord v op) own (s.store, tlp m s.dev) =
      (false, (s.store, (if own then s.dev.pwrCmdSet m v op else tlp m s.dev).pwrCmd m (pwrGoWord v op) op own)) := by
    have hop3' : bits (pwrGoWord v op) 0 3 = op := hop'
    unfold Pkg.pwrCmdWrite
    cases own with
    | true => simp [hop3', hgood, pwrGoWord_go, Dev.pwrCmdSet]
    | false =>
      obtain ⟨rfl, rfl⟩ := hact.resolve_left (by decide)
      simp [hop3', pwrGoWord_go, Pkg.dev]
  refine (regOut_four m 1 0x10C _ s (by decide) (by decide) (by decide) hreach).trans ?_
  have hw : Pkg.write4 m (1 * 0x1000 + 0x10C) (pwrGoWord v op) (s.store, tlp m s.dev) =
      (false, (s.store, (if own then s.dev.pwrCmdSet m v op else tlp m s.dev).pwrCmd m (pwrGoWord v op) op own)) := by
    unfold Pkg.write4
    dsimp only
    rw [if_neg (by decide), if_neg (by simpa using fun h => absurd hon (by simp [h])), if_neg (by decide), if_neg (by decide),
      if_pos (by decide), Nat.mod_eq_of_lt pwrGoWord_lt, hmay, hwrite]
  rw [hw]

@[simp] theorem Dev.pwrCmdSet_frame (d : Dev) : (d.pwrCmdSet m v op).glb = d.glb ∧ (d.pwrCmdSet m v op).pwr = d.pwr ∧
    (d.pwrCmdSet m v op).tim = d.tim := by
  simp [Dev.pwrCmdSet, tlp]
  split <;> simp

theorem Dev.word_pwrCmdSet {d : Dev} {a : Nat} (ha : a ≠ 0x110C) : (d.pwrCmdSet m v op).word a = d.word a := by
  rw [Dev.pwrCmdSet, Dev.word_setWord_ne _ _ ha, tlp_word]

theorem Dev.rd_pwrCmdSet {d : Dev} (f : Fld) (hf : f.addr f.page 0 ≠ 0x110C) : (d.pwrCmdSet m v op).rd f = d.rd f :=
  Dev.rd_of_word f (Dev.word_pwrCmdSet hf)

end

/-! ### The three operations -/

/-- A command that leaves the store. -/
theorem next_keepsStore {i : Instr} {s : State} {d : Dev} {P : State → Prop} (h : exec i s = .next (withPkg s (s.store, d)))
    (hP : P (withPkg s (s.store, d))) : ∃ t, exec i s = .next t ∧ t.store = s.store ∧ P t := ⟨_, h, rfl, hP⟩

theorem next_keepsStore_dev {i : Instr} {s : State} {d : Dev} {P : State → Prop} (h : exec i s = .next { s with dev := d })
    (hP : P { s with dev := d }) : ∃ t, exec i s = .next t ∧ t.store = s.store ∧ P t := ⟨_, h, rfl, hP⟩

@[simp] theorem Dev.pwrResult_frame (d : Dev) (r : Nat) : (d.pwrResult r).pwr = d.pwr ∧ (d.pwrResult r).tim = d.tim := by
  simp [Dev.pwrResult]

theorem Dev.rd_pwrResult (d : Dev) (r : Nat) (f : Fld) (hf : f.addr f.page 0 ≠ 0x1110 ∧ f.addr f.page 0 ≠ 0x1014) :
    (d.pwrResult r).rd f = d.rd f := by
  rw [Dev.pwrResult, Dev.rd_event _ _ _ _ hf.2, Dev.rd_wr_ne _ _ _ _ (.inl hf.1)]

theorem Dev.result_pwrResult (d : Dev) (r : Nat) : (d.pwrResult r).rd F.PWR_CMD_RESULT_RESULT = r % 4 := by
  rw [Dev.pwrResult, Dev.rd_event _ _ _ _ (by decide), Dev.rd_wr_same _ _ _ (by decide)]
  rfl

theorem idle_asks {m : Master} {v : W32} {s : State} (hopen : pageOpen s.dev m 1) (hown : s.dev.owns m 1 = true)
    (hawake : s.dev.awake = true) :
    ∃ t, exec (.idle m v) s = .next t ∧ t.store = s.store ∧ t.dev.pwr = { s.dev.pwr with idleReq := 0xFF } ∧
      t.dev.rd F.PWR_CMD_RESULT_RESULT = rDone := by
  have hset : (s.dev.pwrCmdSet m v 1).awake = true := (Dev.awake_congr (Dev.rd_pwrCmdSet _ (by decide))).trans hawake
  have hcmd : (s.dev.pwrCmdSet m v 1).pwrCmd m (pwrGoWord v 1) 1 true =
      Dev.pwrResult rDone { s.dev.pwrCmdSet m v 1 with pwr := { (s.dev.pwrCmdSet m v 1).pwr with idleReq := 0xFF } } := by
    rw [Dev.pwrCmd]
    simp [hset]
  refine next_keepsStore ((show exec (.idle m v) s = regOut m (1 * 0x1000 + 0x10C) 4 (pwrGoWord v 1) s from rfl).trans (pwrCmdWrite_of (own := true) (op := 1) (v := v) hopen hown (by decide) (by decide) (.inl rfl))) ?_
  simp only [withPkg, if_true, hcmd]
  exact ⟨by simp, Dev.result_pwrResult _ _⟩

theorem Dev.pwrCmd_moor {d : Dev} {v : Nat} (hown : d.rdp F.BLK_OWNER_OWNER 1 = 1) (hawake : d.awake = true)
    (hdev : d.rd F.BULK_CFG_INTERLEAVE = 0 → d.rd F.PWR_RETAIN_DEV = 0 ∨ d.rd F.PWR_RETAIN_DEV = 0xFFF) :
    d.pwrCmd .host v 2 true = (((({ d with pwr := { d.pwr with
      step := .e1, stepAt := d.tim.tide, abort := false, wakeAtE5 := none, wakeOpen := true } } : Dev).wr F.PWR_STAT_STATE 2).count 1 0 1).wr
        F.PWR_CMD_RESULT_STATUS 0).pwrResult rDone := by
  have hretain : ¬(d.rd F.BULK_CFG_INTERLEAVE = 0 ∧ d.rd F.PWR_RETAIN_DEV ≠ 0 ∧ d.rd F.PWR_RETAIN_DEV ≠ 0xFFF) := by
    rintro ⟨h, h0, h1⟩
    exact (hdev h).elim h0 h1
  simp [Dev.pwrCmd, hown, hawake, hretain]

theorem moor_begins {v : W32} {s : State} (hopen : pageOpen s.dev .host 1) (hown : s.dev.owns .host 1 = true) (hawake : s.dev.awake = true)
    (hdev : s.dev.rd F.BULK_CFG_INTERLEAVE = 0 → s.dev.rd F.PWR_RETAIN_DEV = 0 ∨ s.dev.rd F.PWR_RETAIN_DEV = 0xFFF) :
    ∃ t, exec (.moor .host v) s = .next t ∧ t.store = s.store ∧ t.dev.rd F.PWR_STAT_STATE = 2 ∧ t.dev.pwr.step = .e1 ∧
      t.dev.pwr.stepAt = s.dev.tim.tide ∧ t.dev.rd F.PWR_CMD_RESULT_RESULT = rDone := by
  have hown' : (s.dev.pwrCmdSet .host v 2).rdp F.BLK_OWNER_OWNER 1 = 1 := by
    have howner : s.dev.rdp F.BLK_OWNER_OWNER 1 = 1 := by simpa [Dev.owns, masterCode] using hown
    exact (congrArg (bits · _ _) (Dev.word_pwrCmdSet (by decide))).trans howner
  have hcmd := Dev.pwrCmd_moor (d := s.dev.pwrCmdSet .host v 2) (v := pwrGoWord v 2) hown'
    ((Dev.awake_congr (Dev.rd_pwrCmdSet _ (by decide))).trans hawake)
    (by rwa [Dev.rd_pwrCmdSet _ (by decide), Dev.rd_pwrCmdSet _ (by decide)])
  refine next_keepsStore ((show exec (.moor .host v) s = regOut .host (1 * 0x1000 + 0x10C) 4 (pwrGoWord v 2) s from rfl).trans
    (pwrCmdWrite_of (own := true) (op := 2) (v := v) hopen hown (by decide) (by decide) (.inl rfl))) ?_
  simp only [withPkg, if_true, hcmd]
  refine ⟨?_, by simp, by simp, Dev.result_pwrResult _ _⟩
  rw [Dev.rd_pwrResult _ _ _ (by decide), Dev.rd_wr_ne _ _ _ _ (by decide)]
  simp (disch := decide) [Dev.rd_wr_same, F.PWR_STAT_STATE]

/-! ### Wake (R566) -/

/-- The last-wake record holds the first source since the last MOOR. -/
theorem Dev.wakeRecord_records {d : Dev} {w : WakeRec} (b : Bool) (hopen : d.pwr.wakeOpen = true) (hs : w.source < 4) (hp : w.port < 64)
    (hl : w.lane < 16) :
    (d.wakeRecord w b).rd F.PWR_WAKE_SRC_SOURCE = w.source ∧ (d.wakeRecord w b).rd F.PWR_WAKE_SRC_PORT = w.port ∧
    (d.wakeRecord w b).rd F.PWR_WAKE_SRC_LANE = w.lane ∧ (d.wakeRecord w b).rd F.PWR_WAKE_SRC_DURING_ENTRY = b2n b ∧
    (d.wakeRecord w b).pwr.wakeOpen = false := by
  have hb : b2n b ≤ 1 := by cases b <;> decide
  rw [Dev.wakeRecord, if_pos hopen]
  dsimp only
  refine ⟨?_, ?_, ?_, ?_, by simp⟩ <;> rw [Dev.rd_event _ _ _ _ (by decide)] <;>
    simp (disch := decide) [Dev.rd_wr_ne, Dev.rd_wr_same, F.PWR_WAKE_SRC_SOURCE, F.PWR_WAKE_SRC_PORT, F.PWR_WAKE_SRC_LANE,
      F.PWR_WAKE_SRC_DURING_ENTRY, hs, hp, hl, hb]

/-- The record leaves what stands in no wake register. -/
theorem Dev.wakeRecord_keeps (d : Dev) (w : WakeRec) (b : Bool) : (d.wakeRecord w b).rd F.PWR_STAT_STATE = d.rd F.PWR_STAT_STATE ∧
    (d.wakeRecord w b).pwr.abort = d.pwr.abort := by
  unfold Dev.wakeRecord
  split
  · refine ⟨?_, by simp⟩
    rw [Dev.rd_event _ _ _ _ (by decide)]
    simp (disch := decide) [Dev.rd_wr_ne]
  · exact ⟨rfl, rfl⟩

/-- A wake source seen in MOORED. -/
theorem Dev.wake_moored {d : Dev} {src port lane : Nat} (h : d.pwrState = 3) (hs : src < 4) (hp : port < 64) (hl : lane < 16) :
    (d.wake src port lane).rd F.PWR_STAT_STATE = 4 ∧
    (d.pwr.wakeOpen = true → (d.wake src port lane).rd F.PWR_WAKE_SRC_SOURCE = src ∧ (d.wake src port lane).rd F.PWR_WAKE_SRC_PORT = port ∧
      (d.wake src port lane).rd F.PWR_WAKE_SRC_LANE = lane ∧ (d.wake src port lane).rd F.PWR_WAKE_SRC_DURING_ENTRY = 0 ∧
      (d.wake src port lane).pwr.wakeOpen = false) := by
  have hwake : d.wake src port lane = (({ d with pwr := { d.pwr with exitAt := d.tim.tide } } : Dev).wakeRecord
      ⟨src, port, lane, d.ns⟩ false).wr F.PWR_STAT_STATE 4 := by
    simp [Dev.wake, h]
  rw [hwake]
  refine ⟨Dev.rd_wr_same _ _ _ (by decide), fun hopen => ?_⟩
  obtain ⟨h1, h2, h3, h4, h5⟩ := Dev.wakeRecord_records (d := { d with pwr := { d.pwr with exitAt := d.tim.tide } })
    (w := ⟨src, port, lane, d.ns⟩) false hopen hs hp hl
  refine ⟨?_, ?_, ?_, ?_, ?_⟩
  · rwa [Dev.rd_wr_ne _ _ _ _ (by decide)]
  · rwa [Dev.rd_wr_ne _ _ _ _ (by decide)]
  · rwa [Dev.rd_wr_ne _ _ _ _ (by decide)]
  · rwa [Dev.rd_wr_ne _ _ _ _ (by decide)]
  · simpa using h5

theorem wake_over_sideband {v : W32} {s : State} (hopen : pageOpen s.dev .mgmt 1) :
    (s.dev.pwrState = 3 → ∃ t, exec (.wake .mgmt v) s = .next t ∧ t.store = s.store ∧ t.dev.rd F.PWR_STAT_STATE = 4 ∧
      t.dev.rd F.PWR_CMD_RESULT_RESULT = rDone ∧ (s.dev.pwr.wakeOpen = true → t.dev.rd F.PWR_WAKE_SRC_SOURCE = 3)) ∧
    (s.dev.awake = true → ∃ t, exec (.wake .mgmt v) s = .next t ∧ t.store = s.store ∧ t.dev.pwr = s.dev.pwr ∧
      t.dev.rd F.PWR_CMD_RESULT_RESULT = rNoChange) := by
  have hget : ∀ own, s.dev.owns .mgmt 1 = own → exec (.wake .mgmt v) s = .next (withPkg s (s.store,
      (if own then s.dev.pwrCmdSet .mgmt v 3 else tlp .mgmt s.dev).pwrCmd .mgmt (pwrGoWord v 3) 3 own)) := fun own hown =>
    (show exec (.wake .mgmt v) s = regOut .mgmt (1 * 0x1000 + 0x10C) 4 (pwrGoWord v 3) s from rfl).trans
      (pwrCmdWrite_of (op := 3) (v := v) hopen hown (by decide) (by decide) (.inr ⟨rfl, rfl⟩))
  have hexec := hget _ rfl
  obtain ⟨d, hd, hpwr, hrd⟩ : ∃ d : Dev, (if s.dev.owns .mgmt 1 then s.dev.pwrCmdSet .mgmt v 3 else tlp .mgmt s.dev) = d ∧
      d.pwr = s.dev.pwr ∧ d.rd F.PWR_STAT_STATE = s.dev.rd F.PWR_STAT_STATE := by
    refine ⟨_, rfl, ?_⟩
    split
    · exact ⟨by simp, Dev.rd_pwrCmdSet _ (by decide)⟩
    · exact ⟨rfl, rfl⟩
  rw [hd] at hexec
  refine ⟨fun h => next_keepsStore hexec ?_, fun h => next_keepsStore hexec ?_⟩
  · have hst : d.pwrState = 3 := hrd.trans h
    have hcmd : d.pwrCmd .mgmt (pwrGoWord v 3) 3 (s.dev.owns .mgmt 1) = (d.wake 3 0x3F 0).pwrResult rDone := by simp [Dev.pwrCmd, hst]
    obtain ⟨hstate, hrec⟩ := Dev.wake_moored (src := 3) (port := 0x3F) (lane := 0) hst (by decide) (by decide) (by decide)
    simp only [withPkg, hcmd]
    refine ⟨(Dev.rd_pwrResult _ _ _ (by decide)).trans hstate, Dev.result_pwrResult _ _, fun hwake => ?_⟩
    exact (Dev.rd_pwrResult _ _ _ (by decide)).trans (hrec (by rwa [hpwr])).1
  · have hst : d.pwrState ≤ 1 := hrd.trans_le (of_decide_eq_true h)
    have hcmd : d.pwrCmd .mgmt (pwrGoWord v 3) 3 (s.dev.owns .mgmt 1) = d.pwrResult rNoChange := by
      have hne : d.pwrState ≠ 2 ∧ d.pwrState ≠ 3 := by omega
      simp [Dev.pwrCmd, hne]
    simp only [withPkg, hcmd]
    exact ⟨by simp [hpwr], Dev.result_pwrResult _ _⟩

/-- A wake source seen in entry steps E1 to E4. -/
theorem Dev.wake_entry {d : Dev} {src port lane : Nat} (h : d.pwrState = 2) (hstep : d.pwr.step ≠ .e5) :
    (d.wake src port lane).pwr.abort = true ∧ (d.wake src port lane).rd F.PWR_STAT_STATE = 2 := by
  have hwake : d.wake src port lane =
      ({ d with pwr := { d.pwr with abort := true } } : Dev).wakeRecord ⟨src, port, lane, d.ns⟩ true := by
    simp [Dev.wake, h, hstep]
  obtain ⟨hstate, habort⟩ := ({ d with pwr := { d.pwr with abort := true } } : Dev).wakeRecord_keeps ⟨src, port, lane, d.ns⟩ true
  rw [hwake]
  exact ⟨habort, hstate.trans ((Dev.rd_congr rfl _).trans h)⟩

theorem wakeSource_lane {p l : Nat} {s : State} (hoff : s.dev.glb.off = false) (hen : s.dev.rd F.PWR_WAKE_EN_LANE = 1) (hp : p < 28)
    (hl : l < 16) (harm : bit s.dev.pwr.armed p = true) :
    (s.dev.pwrState = 3 → s.dev.pwr.wakeOpen = true → ∃ t, exec (.wakeSource (.lane p l)) s = .next t ∧ t.store = s.store ∧
      t.dev.rd F.PWR_STAT_STATE = 4 ∧ t.dev.rd F.PWR_WAKE_SRC_SOURCE = 1 ∧ t.dev.rd F.PWR_WAKE_SRC_PORT = p ∧
      t.dev.rd F.PWR_WAKE_SRC_LANE = l ∧ t.dev.rd F.PWR_WAKE_SRC_DURING_ENTRY = 0 ∧ t.dev.pwr.wakeOpen = false) ∧
    (s.dev.pwrState = 2 → s.dev.pwr.step ≠ .e5 → ∃ t, exec (.wakeSource (.lane p l)) s = .next t ∧ t.store = s.store ∧
      t.dev.pwr.abort = true ∧ t.dev.rd F.PWR_STAT_STATE = 2) := by
  have hsrc : s.dev.wakeSource (.lane p l) = s.dev.wake 1 p l := by simp [Dev.wakeSource, hen, hp, harm]
  have hexec : exec (.wakeSource (.lane p l)) s = .next { s with dev := s.dev.wake 1 p l } :=
    (onDev_ifPowered hoff (Dev.wakeSource (.lane p l))).trans (by rw [hsrc])
  refine ⟨fun hst hopen => next_keepsStore_dev hexec ?_, fun hst hstep => next_keepsStore_dev hexec (Dev.wake_entry hst hstep)⟩
  obtain ⟨hstate, hrec⟩ := Dev.wake_moored (src := 1) (port := p) (lane := l) hst (by decide) (by omega) hl
  exact ⟨hstate, hrec hopen⟩

theorem wakeSource_host {s : State} (hoff : s.dev.glb.off = false) (hen : s.dev.rd F.PWR_WAKE_EN_PCIE = 1) (hst : s.dev.pwrState = 3)
    (hopen : s.dev.pwr.wakeOpen = true) :
    ∃ t, exec (.wakeSource .pcie) s = .next t ∧ t.store = s.store ∧ t.dev.rd F.PWR_STAT_STATE = 4 ∧
      t.dev.rd F.PWR_WAKE_SRC_SOURCE = 2 ∧ t.dev.rd F.PWR_WAKE_SRC_PORT = 28 := by
  have hsrc : s.dev.wakeSource .pcie = s.dev.wake 2 28 0 := by simp [Dev.wakeSource, hen]
  have hexec : exec (.wakeSource .pcie) s = .next { s with dev := s.dev.wake 2 28 0 } :=
    (onDev_ifPowered hoff (Dev.wakeSource .pcie)).trans (by rw [hsrc])
  obtain ⟨hstate, hrec⟩ := Dev.wake_moored (src := 2) (port := 28) (lane := 0) hst (by decide) (by decide) (by decide)
  obtain ⟨h1, h2, -⟩ := hrec hopen
  exact next_keepsStore_dev hexec ⟨hstate, h1, h2⟩

/-- Settles O16. -/
theorem wakeAndPowerCommands : Obligations.WakeAndPowerCommands :=
  ⟨⟨fun _ _ _ hopen hown hawake => idle_asks hopen hown hawake, fun _ _ hopen hown hawake hdev => moor_begins hopen hown hawake hdev,
    fun _ _ hopen => wake_over_sideband hopen⟩,
    fun _ _ _ hoff hen hp hl harm => wakeSource_lane hoff hen hp hl harm, fun _ hoff hen hst hopen => wakeSource_host hoff hen hst hopen⟩

end Sys2Proof.Machine


/-!
SUPPORT. O17, the entry into MOORED, an entry undone, and the exit (R560, R563 to R567).
-/
namespace Sys2Proof.Machine

theorem List.foldl_fixed_of_mem {α β : Type} {f : α → β → α} {a : α} {l : List β} (h : ∀ b ∈ l, f a b = a) : l.foldl f a = a := by
  induction l with
  | nil => rfl
  | cons b l ih =>
    rw [List.foldl_cons, h b (by simp)]
    exact ih fun c hc => h c (by simp [hc])

/-! ### The steps of the entry -/

section
variable {i : Instr} {f : Pkg → Pkg} {s : State}

theorem ifAwakeable_next {x : Pkg} (hi : exec i s = onAll (Pkg.ifAwakeable f) s) (hrun : s.dev.running = true) (h : f (s.store, s.dev) = x) :
    exec i s = .next (withPkg s x) := by
  rw [hi, onAll_eq, Pkg.ifAwakeable, if_pos hrun, h]
  rfl

theorem ifAwakeable_next_dev {d : Dev} (hi : exec i s = onAll (Pkg.ifAwakeable f) s) (hrun : s.dev.running = true)
    (h : f (s.store, s.dev) = (s.store, d)) : exec i s = .next { s with dev := d } := ifAwakeable_next hi hrun h

end

theorem moorNext_goesOn {x : Pkg} (step : MoorStep) (h : x.2.pwr.abort = false) :
    x.moorNext step = (x.1, { x.2 with pwr := { x.2.pwr with step := step, stepAt := x.2.tim.tide } }) := by
  simp [Pkg.moorNext, h, Pkg.dev]

theorem bit_maskOf (f : Nat → Bool) (n : Nat) :
    (List.range n).foldl (fun m p => if f p then m + 2 ^ p else m) 0 < 2 ^ n ∧
    ∀ p < n, bit ((List.range n).foldl (fun m p => if f p then m + 2 ^ p else m) 0) p = f p := by
  induction n with
  | zero => simp
  | succ n ih =>
    rw [List.range_succ, List.foldl_append, List.foldl_cons, List.foldl_nil]
    generalize (List.range n).foldl (fun m p => if f p then m + 2 ^ p else m) 0 = k at ih
    obtain ⟨hlt, hbit⟩ := ih
    have htop : k.testBit n = false := Nat.testBit_lt_two_pow hlt
    split
    · next h =>
      refine ⟨by omega, fun p hp => ?_⟩
      rw [bit_eq_testBit, Nat.add_comm]
      obtain rfl | hne := Nat.eq_or_lt_of_le (Nat.le_of_lt_succ hp)
      · rw [Nat.testBit_two_pow_add_eq, htop, h, Bool.not_false]
      · rw [Nat.testBit_two_pow_add_gt hne, ← bit_eq_testBit, hbit p hne]
    · next h =>
      refine ⟨by omega, fun p hp => ?_⟩
      obtain rfl | hne := Nat.eq_or_lt_of_le (Nat.le_of_lt_succ hp)
      · rw [bit_eq_testBit, htop, Bool.eq_false_iff.2 h]
      · exact hbit p hne

theorem Dev.bit_enabledPorts (d : Dev) {p : Nat} (hp : p < 28) : bit d.enabledPorts p = d.linkEnabled p := (bit_maskOf d.linkEnabled 28).2 p hp

theorem Dev.linksOff_down {d : Dev} (h : ∀ p < 28, d.linkState p = 0) :
    d.linksOff = { d with pwr := { d.pwr with armed := d.enabledPorts }, glb := { d.glb with pcieIdle := true, pcieTraining := false } } := by
  have hfix : (List.range 28).foldl (fun (d : Dev) p => if d.linkState p = 0 then d else d.linkGoDown p (5 ≤ d.linkState p) true)
      { d with pwr := { d.pwr with armed := d.enabledPorts } } = { d with pwr := { d.pwr with armed := d.enabledPorts } } :=
    List.foldl_fixed_of_mem fun p hp => if_pos (h p (List.mem_range.1 hp))
  rw [Dev.linksOff]
  dsimp only
  rw [hfix]

/-- A package of which only the count of free values has moved. -/
def Pkg.drawn (x y : Pkg) : Prop := ∃ n, y.2 = { x.2 with freeCtr := n }

theorem Pkg.drawn_foldl {β : Type} {f : Pkg → β → Pkg} (hf : ∀ (x : Pkg) b, x.drawn (f x b)) (l : List β) (x : Pkg) : x.drawn (l.foldl f x) := by
  induction l generalizing x with
  | nil => exact ⟨x.2.freeCtr, rfl⟩
  | cons b l ih =>
    obtain ⟨n, hn⟩ := hf x b
    obtain ⟨k, hk⟩ := ih (f x b)
    exact ⟨k, by rw [List.foldl_cons, hk, hn]⟩

theorem Pkg.drawn_loseLines (x : Pkg) (c : Bool) (lo hi : Nat) : x.drawn (if c then x else x.loseLines lo hi) := by
  cases c with
  | true => exact ⟨x.2.freeCtr, rfl⟩
  | false => exact ⟨_, rfl⟩

theorem Pkg.drawn_trans {x y z : Pkg} (h : x.drawn y) (g : y.drawn z) : x.drawn z := by
  obtain ⟨n, hn⟩ := h
  obtain ⟨k, hk⟩ := g
  exact ⟨k, by rw [hk, hn]⟩

theorem Pkg.drawn_loseMemory (x : Pkg) : x.drawn x.loseMemory := by
  have hnear : x.drawn ([1, 2, 3].foldl (fun (y : Pkg) g => if bit (x.2.rd F.PWR_RETAIN_NG) g then y else y.loseGroup g) x) :=
    Pkg.drawn_foldl (fun y g => y.drawn_loseLines _ _ _) _ _
  refine Pkg.drawn_trans hnear ?_
  unfold Pkg.loseMemory
  dsimp only
  generalize [1, 2, 3].foldl _ x = y
  split
  · split
    · exact ⟨y.2.freeCtr, rfl⟩
    · exact ⟨_, rfl⟩
  · exact Pkg.drawn_foldl (fun z i => z.drawn_loseLines _ _ _) _ _

theorem Dev.powerOff_domOn (d : Dev) {i : Nat} (hi : i < 30) : d.powerOff.domOn i = decide (i = 26) := by
  have hbits : ∀ i < 30, (i == 26 || bit (2 ^ 26 % 2 ^ 30) i) = decide (i = 26) := by decide
  have hstat : d.powerOff.rd F.PWR_DOM_STAT_ON = 2 ^ 26 % 2 ^ 30 := Dev.rd_wr_same _ _ _ (by decide)
  rw [Dev.domOn, hstat]
  exact hbits i hi

/-- STATE and the last-wake record as E5 leaves them. -/
def Dev.wakeCleared (d : Dev) : Dev :=
  let d := (d.wr F.PWR_WAKE_SRC_SOURCE 0).wr F.PWR_WAKE_SRC_DURING_ENTRY 0
  let d := (d.wr F.PWR_WAKE_SRC_PORT 0x3F).wr F.PWR_WAKE_SRC_LANE 0
  let d := (d.wr F.PWR_WAKE_TIME_LO_T_LO 0).wr F.PWR_WAKE_TIME_HI_T_HI 0
  ({ d with pwr := { d.pwr with step := .none, wakeOpen := true } } : Dev).wr F.PWR_STAT_STATE 3

theorem Dev.moored_eq (d : Dev) : d.moored = match d.wakeCleared.pwr.wakeAtE5 with
    | none => d.wakeCleared
    | some w => (({ d.wakeCleared with pwr := { d.wakeCleared.pwr with exitAt := d.wakeCleared.tim.tide, wakeAtE5 := none } } : Dev).wakeRecord
        w false).wr F.PWR_STAT_STATE 4 := rfl

theorem Dev.wakeRecord_frame (d : Dev) (p : Pwr) (w : WakeRec) (b : Bool) :
    (({ d with pwr := p } : Dev).wakeRecord w b).rd F.PWR_DOM_STAT_ON = d.rd F.PWR_DOM_STAT_ON ∧
    (({ d with pwr := p } : Dev).wakeRecord w b).home = d.home := by
  unfold Dev.wakeRecord
  split
  · refine ⟨?_, by simp⟩
    rw [Dev.rd_event _ _ _ _ (by decide)]
    simp (disch := decide) [Dev.rd_wr_ne]
  · exact ⟨rfl, rfl⟩

theorem Dev.wakeCleared_frame (d : Dev) : d.wakeCleared.rd F.PWR_STAT_STATE = 3 ∧
    d.wakeCleared.rd F.PWR_DOM_STAT_ON = d.rd F.PWR_DOM_STAT_ON ∧ d.wakeCleared.home = d.home ∧
    d.wakeCleared.pwr.wakeAtE5 = d.pwr.wakeAtE5 := by
  refine ⟨Dev.rd_wr_same _ _ _ (by decide), ?_, by simp [Dev.wakeCleared], by simp [Dev.wakeCleared]⟩
  simp (disch := decide) [Dev.wakeCleared, Dev.rd_wr_ne]

theorem Dev.home_wr (d : Dev) (f : Fld) (v : Nat) : (d.wr f v).home = d.home := by simp

theorem Dev.moored_ends (d : Dev) : d.moored.rd F.PWR_STAT_STATE = (if d.pwr.wakeAtE5.isSome then 4 else 3) ∧
    (∀ i, d.moored.domOn i = d.domOn i) ∧ d.moored.home = d.home := by
  obtain ⟨hst, hdom, hhome, hw⟩ := d.wakeCleared_frame
  have hon : ∀ e : Dev, e.rd F.PWR_DOM_STAT_ON = d.rd F.PWR_DOM_STAT_ON → ∀ i, e.domOn i = d.domOn i := fun e he i => by
    rw [Dev.domOn, Dev.domOn, he]
  rw [Dev.moored_eq, hw]
  generalize d.wakeCleared = e at hst hdom hhome
  cases d.pwr.wakeAtE5 with
  | none => exact ⟨hst, hon _ hdom, hhome⟩
  | some w =>
    obtain ⟨hrec, hrechome⟩ := e.wakeRecord_frame { e.pwr with exitAt := e.tim.tide, wakeAtE5 := none } w false
    refine ⟨Dev.rd_wr_same _ _ _ (by decide), hon _ ?_, ?_⟩
    · rw [Dev.rd_wr_ne _ _ _ _ (by decide), hrec, hdom]
    · exact (Dev.home_wr _ _ _).trans (hrechome.trans hhome)

/-- An entry step in progress. -/
theorem moorStep_of {x : Pkg} (h : x.2.pwrState = 2) :
    (x.2.pwr.step = .e2 → x.2.voqsEmpty = true →
      x.moorStep = Pkg.moorNext .e3 (x.dev (fun d => { d.saveConfig with home := { d.home with checkCache := [] } }))) ∧
    (x.2.pwr.step = .e3 → x.moorStep = Pkg.moorNext .e4 (x.dev Dev.linksOff)) ∧ (x.2.pwr.step = .e4 → x.moorStep = x.moorNext .e5) ∧
    (x.2.pwr.step = .e5 → x.moorStep = x.loseMemory.dev (fun d => d.powerOff.moored)) := by
  refine ⟨fun hstep hempty => ?_, fun hstep => ?_, fun hstep => ?_, fun hstep => ?_⟩ <;> rw [Pkg.moorStep, if_neg (by simp [h]), hstep]
  dsimp only
  rw [if_neg (by simp [hempty])]

theorem moorEntry : Said.MoorEntry := by
  intro s hrun hst habort
  refine ⟨fun hstep hdrain hat => ?_, fun hstep hempty => ?_, fun hstep hdown => ?_, fun hstep => ?_, fun hstep => ?_⟩
  · refine ifAwakeable_next_dev (f := Pkg.moorQuiesced) rfl hrun ?_
    rw [Pkg.moorQuiesced, if_pos ⟨hst, hstep, hdrain, hat⟩, if_neg (by simp [habort])]
  · have hmoor := (moorStep_of (x := (s.store, s.dev)) hst).1 hstep hempty
    rw [moorNext_goesOn _ habort] at hmoor
    exact next_keepsStore_dev (ifAwakeable_next_dev (f := Pkg.moorStep) rfl hrun hmoor) ⟨rfl, rfl, rfl, rfl⟩
  · have hmoor := (moorStep_of (x := (s.store, s.dev)) hst).2.1 hstep
    rw [Pkg.dev, Dev.linksOff_down hdown, moorNext_goesOn _ habort] at hmoor
    exact next_keepsStore_dev (ifAwakeable_next_dev (f := Pkg.moorStep) rfl hrun hmoor)
      ⟨rfl, rfl, fun p hp => s.dev.bit_enabledPorts hp⟩
  · have hmoor := (moorStep_of (x := (s.store, s.dev)) hst).2.2.1 hstep
    rw [moorNext_goesOn _ habort] at hmoor
    exact ifAwakeable_next_dev (f := Pkg.moorStep) rfl hrun hmoor
  · obtain ⟨n, hn⟩ := Pkg.drawn_loseMemory (s.store, s.dev)
    have hmoor := (moorStep_of (x := (s.store, s.dev)) hst).2.2.2 hstep
    rw [Pkg.dev, hn] at hmoor
    refine ⟨_, ifAwakeable_next (f := Pkg.moorStep) rfl hrun hmoor, ?_⟩
    obtain ⟨hstate, hdom, hhome⟩ := ({ s.dev with freeCtr := n } : Dev).powerOff.moored_ends
    have hpwr : ∀ d : Dev, d.powerOff.pwr = d.pwr := fun d => by simp [Dev.powerOff]
    have hext : ∀ d : Dev, d.powerOff.home.ext = d.home.ext := fun d => by simp [Dev.powerOff]
    refine ⟨hstate.trans ?_, fun i hi => (hdom i).trans (Dev.powerOff_domOn _ hi), ?_⟩
    · rw [hpwr]
    · exact (congrArg Home.ext hhome).trans (hext _)

/-! ### An entry undone, and the exit -/

theorem Dev.capPending_none {d : Dev} (h : d.pwr.pendingOrder = false) : d.capPending = d := by simp [Dev.capPending, h]

/-- The package as a timeout of step E1, before E3, leaves it. -/
def Dev.timedOut (d : Dev) : Dev :=
  let e := (d.wr F.PWR_STAT_STATE 0).wr F.PWR_CMD_RESULT_STATUS sTimeout
  { e with
    pwr := { e.pwr with step := .none, abort := false, armed := 0 }
    glb := { e.glb with pcieIdle := false, pcieTraining := false } }

theorem moorUndo_timeout {x : Pkg} (hlinks : x.2.glb.pcieIdle = false) (hord : x.2.pwr.pendingOrder = false) :
    ∃ d, d.rd F.PWR_STAT_STATE = 0 ∧ d.rd F.PWR_CMD_RESULT_STATUS = sTimeout ∧ d.pwr.step = .none ∧
      x.moorUndo sTimeout = Pkg.released (x.1, d) := by
  have hne : ¬sTimeout = sEntryAborted := by decide
  refine ⟨x.2.timedOut, ?_, ?_, rfl, ?_⟩
  · rw [Dev.timedOut, Dev.rd_mk, fieldOf_regs, Dev.rd_wr_ne _ _ _ _ (by decide), Dev.rd_wr_same _ _ _ (by decide), Nat.zero_mod]
  · rw [Dev.timedOut, Dev.rd_mk, fieldOf_regs, Dev.rd_wr_same _ _ _ (by decide)]
    decide
  · simp only [Pkg.moorUndo, hlinks, if_neg hne, Bool.false_and, Bool.false_eq_true, if_false]
    rw [Dev.capPending_none (by simpa using hord)]
    rfl

/-- What the exit takes from the configuration store, beside the registers. -/
def Dev.moorKept (d : Dev) : Pwr × Home × Rte := (d.pwr, d.home, d.rte)

section
variable {d : Dev}

@[simp] theorem Dev.moorKept_wr (f : Fld) (v : Nat) : (d.wr f v).moorKept = d.moorKept := by simp [Dev.moorKept]

@[simp] theorem Dev.moorKept_setDom (i : Nat) (on : Bool) : (d.setDom i on).moorKept = d.moorKept := by simp [Dev.moorKept, Dev.setDom]

@[simp] theorem Dev.moorKept_tryDetect (p : Nat) : (d.tryDetect p).moorKept = d.moorKept := by
  unfold Dev.tryDetect
  split
  · simp [Dev.moorKept, Dev.sendTone, Dev.setSlack, Dev.lwr, Dev.wrp, Dev.setLink, Dev.setLinkState]
  · rfl

@[simp] theorem Dev.moorKept_timeMoorExit : d.timeMoorExit.moorKept = d.moorKept := by
  unfold Dev.timeMoorExit
  split
  · rfl
  · simp [Dev.toAcquire, Dev.moorKept]

theorem Dev.moorKept_foldl {β : Type} {f : Dev → β → Dev} (hf : ∀ d b, (f d b).moorKept = d.moorKept) (l : List β) :
    (l.foldl f d).moorKept = d.moorKept := by
  induction l generalizing d with
  | nil => rfl
  | cons b l ih => exact (ih (d := f d b)).trans (hf d b)

theorem Dev.moorKept_restoreConfig : d.restoreConfig.moorKept =
    (d.pwr, { d.home with prot := d.pwr.savedProt }, { d.rte with bankA := d.pwr.savedBanks.1, bankB := d.pwr.savedBanks.2 }) := by
  have hwords : (d.pwr.savedRegs.foldl (fun (d : Dev) (e : Nat × W32) => d.setWord e.1 e.2.toNat) d).moorKept = d.moorKept :=
    Dev.moorKept_foldl (fun d e => by simp [Dev.moorKept]) _
  unfold Dev.restoreConfig
  generalize d.pwr.savedRegs.foldl (fun (d : Dev) (e : Nat × W32) => d.setWord e.1 e.2.toNat) d = e at hwords
  obtain ⟨hpwr, hhome, hrte⟩ : e.pwr = d.pwr ∧ e.home = d.home ∧ e.rte = d.rte := by simpa [Dev.moorKept] using hwords
  simp [Dev.moorKept, hpwr, hhome, hrte]

end

/-- The configuration store restored, and the domains whose conditions hold turned on. -/
def Dev.exitDomained (d : Dev) : Dev :=
  ((List.range 30).foldl (fun (e : Dev) i => if i ≠ 26 ∧ bit d.restoreConfig.exitDomains i then e.setDom i true else e) d.restoreConfig).setAvail

/-- The package awake, its enabled ports in DETECT. -/
def Dev.exitAwake (d : Dev) : Dev :=
  let d := { d with
    src := { d.src with winInit := d.rd F.CNG_WIN_MAX * 1024 }
    fry := { d.fry with arrs := d.fry.arrs.map (fun (a : Arr) => { a with lastRun := d.tim.tide }) }
    pwr := { d.pwr with step := .none, armed := 0 }
    glb := { d.glb with pcieIdle := false, pcieTraining := d.rd F.GLB_PIN_STAT_PERST == 0 } }
  (List.range 28).foldl (fun (d : Dev) p => d.tryDetect p) d

/-- The stage, the buffer mode and STATE of the exit. -/
def Dev.exitActive (d : Dev) : Dev :=
  let d := d.timeMoorExit.wr F.RCV_SLIPWAY_STAGE 0
  let d := d.wr F.SWC_CFG_BUFMODE (b2n (d.glb.join.isSome && decide (32 < d.domainSize)))
  d.wr F.PWR_STAT_STATE 0

theorem Dev.moorKept_exitDomained (d : Dev) : d.exitDomained.moorKept = d.restoreConfig.moorKept := by
  rw [Dev.exitDomained, Dev.setAvail, Dev.moorKept_wr]
  refine Dev.moorKept_foldl (fun e i => ?_) _
  split
  · exact Dev.moorKept_setDom _ _
  · rfl

theorem Dev.moorKept_exitAwake (d : Dev) : d.exitAwake.moorKept = ({ d.pwr with step := .none, armed := 0 }, d.home, d.rte) :=
  Dev.moorKept_foldl (fun _ p => Dev.moorKept_tryDetect p) _

theorem Dev.exitActive_stage (d : Dev) : d.exitActive.moorKept = d.moorKept ∧ d.exitActive.rd F.PWR_STAT_STATE = 0 ∧
    d.exitActive.rd F.RCV_SLIPWAY_STAGE = 0 := by
  refine ⟨by simp [Dev.exitActive], Dev.rd_wr_same _ _ _ (by decide), ?_⟩
  unfold Dev.exitActive
  dsimp only
  rw [Dev.rd_wr_ne _ _ _ _ (by decide), Dev.rd_wr_ne _ _ _ _ (by decide), Dev.rd_wr_same _ _ _ (by decide),
    Nat.zero_mod]

theorem moorExit_exits {x : Pkg} (hst : x.2.pwrState = 4) (hord : x.2.pwr.pendingOrder = false) :
    ∃ d, d.pwr.step = .none ∧ d.home.prot = x.2.pwr.savedProt ∧ d.rte.bankA = x.2.pwr.savedBanks.1 ∧
      d.rte.bankB = x.2.pwr.savedBanks.2 ∧ d.rd F.PWR_STAT_STATE = 0 ∧ d.rd F.RCV_SLIPWAY_STAGE = 0 ∧
      x.moorExit = Pkg.released (x.1, d) := by
  have hexit : x.moorExit = Pkg.released (x.1, x.2.exitDomained.exitAwake.exitActive.capPending) := by
    rw [Pkg.moorExit, if_neg (by simp [hst])]
    rfl
  have hdom := x.2.moorKept_exitDomained
  have hawake := x.2.exitDomained.moorKept_exitAwake
  obtain ⟨hkept, hstate, hstage⟩ := x.2.exitDomained.exitAwake.exitActive_stage
  rw [hawake] at hkept
  rw [Dev.moorKept_restoreConfig] at hdom
  generalize x.2.exitDomained.exitAwake.exitActive = e at hkept hstate hstage hexit
  generalize x.2.exitDomained = c at hdom hkept
  obtain ⟨hpwr, hhome, hrte⟩ : c.pwr = x.2.pwr ∧ c.home = _ ∧ c.rte = _ := by simpa [Dev.moorKept] using hdom
  obtain ⟨hpwr', hhome', hrte'⟩ : e.pwr = _ ∧ e.home = _ ∧ e.rte = _ := by simpa [Dev.moorKept] using hkept
  rw [Dev.capPending_none (by rw [hpwr', hpwr]; exact hord)] at hexit
  exact ⟨e, by rw [hpwr'], by rw [hhome', hhome], by rw [hrte', hrte], by rw [hrte', hrte], hstate, hstage, hexit⟩

theorem moorUndoneAndExit : Said.MoorUndoneAndExit := by
  refine ⟨fun s hrun hst hstep hlinks hat hord => ?_, fun s hrun hst hord => ?_⟩
  · obtain ⟨d, hstate, hstatus, hnone, hundo⟩ := moorUndo_timeout (x := (s.store, s.dev)) hlinks hord
    refine ⟨d, hstate, hstatus, hnone, ifAwakeable_next (f := Pkg.moorTimeout) rfl hrun ?_⟩
    rw [← hundo]
    exact if_pos ⟨hst, hstep, hat⟩
  · obtain ⟨d, h1, h2, h3, h4, h5, h6, hexit⟩ := moorExit_exits (x := (s.store, s.dev)) hst hord
    exact ⟨d, h1, h2, h3, h4, h5, h6, ifAwakeable_next (f := Pkg.moorExit) rfl hrun hexit⟩

/-- Settles O17. -/
theorem moored : Obligations.Moored := ⟨moorEntry, moorUndoneAndExit⟩

end Sys2Proof.Machine


/-!
SUPPORT. O20, tide time under the commands of the TIME block (R541).
-/
namespace Sys2Proof.Machine

/-- Tide time has not gone back. -/
def Dev.Later (d e : Dev) : Prop := d.tim.tide ≤ e.tim.tide

theorem Dev.Later.of_tim {d e : Dev} (h : e.tim = d.tim) : d.Later e := by rw [Dev.Later, h]

theorem Dev.Later.trans {d e f : Dev} (h : d.Later e) (k : e.Later f) : d.Later f := Nat.le_trans h k

section
variable {d : Dev}

theorem Dev.later_stepTo (t : Nat) : d.Later (d.stepTo t) := by
  unfold Dev.stepTo
  split
  · simp [Dev.Later]
    omega
  · exact .of_tim rfl

theorem Dev.tide_toHoldover : d.toHoldover.tim = d.tim := by simp [Dev.toHoldover]

theorem Dev.later_toAcquire : d.Later d.toAcquire := Nat.le_refl _

theorem Dev.later_discardExchange : d.Later d.discardExchange := by
  unfold Dev.discardExchange
  dsimp only
  split
  · split
    · simp [Dev.Later, Dev.tide_toHoldover]
    · simp [Dev.Later]
  · exact .of_tim (by simp)

theorem Dev.later_acquireExchange (off : Int) : d.Later (d.acquireExchange off) := by
  unfold Dev.acquireExchange
  split
  · dsimp only
    split
    · exact Dev.later_stepTo (d := { d with tim := { d.tim with firstDone := true, good := 0 } }) _
    · split <;> exact Nat.le_refl _
  · split
    · exact Nat.le_refl _
    · dsimp only
      generalize (if off.natAbs ≤ 8 * 256 then (d.servo 500000).tim.good + 1 else 0) = good
      split <;> simp [Dev.Later, Dev.servo_tim]

theorem Dev.later_acceptExchange (off delay : Int) : d.Later (d.acceptExchange off delay) := by
  unfold Dev.acceptExchange
  dsimp only
  generalize he : ((d.count 2 0 1).wr F.TIME_OFFSET_OFFSET (ofSigned 32 off)).wr F.TIME_DELAY_DELAY (ofSigned 32 delay) = e
  have htim : e.tim = d.tim := by simp [← he]
  have hlater : d.Later { e with tim := { e.tim with badRun := 0 } } := by simp [Dev.Later, htim]
  refine hlater.trans ?_
  generalize ({ e with tim := { e.tim with badRun := 0 } } : Dev) = f
  split
  · exact Dev.later_acquireExchange off
  · split
    · exact .of_tim (Dev.servo_tim _ _)
    · split
      · split
        · exact .of_tim (by simp [Dev.servo_tim])
        · exact .of_tim (by simp)
      · exact Nat.le_refl _

theorem Dev.later_timeSyncReply (r : SyncReply) : d.Later (d.timeSyncReply r) := by
  unfold Dev.timeSyncReply
  split
  · dsimp only
    have hlater : d.Later { d with tim := { d.tim with exchange := d.tim.exchange.erase r.t1 } } := Nat.le_refl _
    refine hlater.trans ?_
    generalize ({ d with tim := { d.tim with exchange := d.tim.exchange.erase r.t1 } } : Dev) = e
    split
    · exact Dev.later_discardExchange
    · exact Dev.later_acceptExchange _ _
  · exact Nat.le_refl _

theorem Dev.later_exchangeTimeout : d.Later d.exchangeTimeout := by
  unfold Dev.exchangeTimeout
  split
  · next rest _ =>
    split
    · exact (show d.Later { d with tim := { d.tim with exchange := rest } } from Nat.le_refl _).trans Dev.later_discardExchange
    · exact Nat.le_refl _
  · exact Nat.le_refl _

theorem Dev.later_timeSyncSend : d.Later d.timeSyncSend := by
  unfold Dev.timeSyncSend
  split
  · simp [Dev.Later]
  · exact Nat.le_refl _

theorem Dev.later_timeSync (p t1 : Nat) : d.Later (d.timeSync p t1) := by
  unfold Dev.timeSync
  split
  · exact .of_tim (by simp)
  · exact Nat.le_refl _

theorem Dev.later_ppsInEdge : d.Later d.ppsInEdge := by
  unfold Dev.ppsInEdge
  split
  · dsimp only
    have hload : d.Later (if d.tim.ppsArmed then ({ d with tim := { d.tim with ppsArmed := false } } : Dev).stepTo d.timeSetValue else d) := by
      split
      · exact Dev.later_stepTo (d := { d with tim := { d.tim with ppsArmed := false } }) _
      · exact Nat.le_refl _
    refine hload.trans ?_
    generalize (if d.tim.ppsArmed then ({ d with tim := { d.tim with ppsArmed := false } } : Dev).stepTo _ else d) = e
    simp [Dev.Later, Dev.servo_tim]
  · exact Nat.le_refl _

theorem Dev.later_ppsMissed : d.Later d.ppsMissed := by
  unfold Dev.ppsMissed
  split
  · split
    · simp [Dev.Later]
    · exact Nat.le_refl _
  · exact Nat.le_refl _

theorem Dev.later_ppsOutEdge : d.Later d.ppsOutEdge := by
  unfold Dev.ppsOutEdge
  dsimp only
  split_ifs <;> simp [Dev.Later]

theorem Dev.later_timeCmd : d.Later d.timeCmd := by
  unfold Dev.timeCmd
  dsimp only
  split
  · split
    · exact (Dev.later_stepTo d.timeSetValue).trans (.of_tim (by simp))
    · exact .of_tim (by simp)
  · split
    · simp [Dev.Later]
    · exact .of_tim (by simp)
  · split
    · exact Dev.later_toAcquire.trans (.of_tim (by simp))
    · exact .of_tim (by simp)
  · exact Nat.le_refl _

theorem Dev.later_timeCfgWritten (root : Nat) : d.Later (d.timeCfgWritten root) := by
  unfold Dev.timeCfgWritten
  split
  · exact .of_tim (by simp)
  · split
    · exact .of_tim (by simp)
    · have hup : d.Later d.timeLinkUp := by
        unfold Dev.timeLinkUp
        split <;> exact Nat.le_refl _
      refine hup.trans ?_
      unfold Dev.timeLinkDown
      split
      · exact .of_tim Dev.tide_toHoldover
      · exact Nat.le_refl _

end

/-! ### Register writes of the TIME page -/

theorem later_written (m : Master) (off old w v : Nat) (act : Bool) (x : Pkg) : x.2.Later (Pkg.written m 2 off old w v act x).2 := by
  simp only [Pkg.written, Pkg.aonWritten, Nat.reduceLeDiff, if_true, Nat.reduceEqDiff, if_false, OfNat.ofNat_ne_zero, OfNat.ofNat_ne_one]
  split
  · exact Dev.later_timeCfgWritten _
  · split
    · split
      · exact Dev.later_timeCmd
      · exact Nat.le_refl _
    · exact Nat.le_refl _

theorem Dev.tim_dropWrite (d : Dev) (m : Master) (p off v code : Nat) : (d.dropWrite m p off v code).tim = d.tim := by simp [Dev.dropWrite]

theorem later_fieldsWrite (m : Master) (off v : Nat) (own : Bool) (x : Pkg) : x.2.Later (x.fieldsWrite m 2 off v own).2.2 := by
  unfold Pkg.fieldsWrite
  dsimp only
  split
  · refine .of_tim ?_
    simp only [Pkg.dev, Dev.tim_dropWrite]
    split <;> simp
  · split
    · exact .of_tim (by simp [Pkg.dev])
    · exact .of_tim (Dev.tim_dropWrite _ _ _ _ _ _)
    · generalize he : x.2.setWord (2 * 0x1000 + off) (x.2.newWord own 2 off v) = e
      have hstored : x.2.Later e := .of_tim (by simp [← he])
      have hbad : e.Later (if x.2.anyReserved own 2 off v then e.dropWrite m 2 off v 2 else e) := by
        split
        · exact .of_tim (Dev.tim_dropWrite _ _ _ _ _ _)
        · exact Nat.le_refl _
      generalize (if x.2.anyReserved own 2 off v then e.dropWrite m 2 off v 2 else e) = f at hbad
      have hheld : f.Later (if x.2.anyHeld own 2 off v then f.dropWrite m 2 off v 3 else f) := by
        split
        · exact .of_tim (Dev.tim_dropWrite _ _ _ _ _ _)
        · exact Nat.le_refl _
      refine (hstored.trans hbad).trans (hheld.trans ?_)
      generalize (if x.2.anyHeld own 2 off v then f.dropWrite m 2 off v 3 else f) = g
      cases x.2.running with
      | true => exact later_written m off (x.2.word (2 * 0x1000 + off)) (x.2.newWord own 2 off v) v (!x.2.anyReserved own 2 off v) (x.1, g)
      | false => exact Nat.le_refl _

/-- A register write of the TIME page, by any master and whether it is accepted or not. -/
theorem later_regOut {m : Master} {off v : Nat} {s t : State} (ho : 0x100 ≤ off) (ho2 : off < 0x1000) (h4 : off % 4 = 0)
    (h : regOut m (2 * 0x1000 + off) 4 v s = .next t) : s.dev.Later t.dev := by
  have hroute : routeAt 2 off = none := by simp [routeAt]
  have hon : ∀ d : Dev, d.pageOn 2 = true := fun d => by simp [Dev.pageOn, Dev.domOn, show pageDomain 2 = 26 by decide]
  cases hreach : s.dev.reaches m true 2 with
  | false =>
    rw [regOut, if_neg (by omega), onAll_eq, Pkg.regWrite, page_div 2 off ho2, if_pos (by simp [hreach])] at h
    cases h
    exact Nat.le_refl _
  | true =>
    rw [regOut_four m 2 off v s ho2 h4 (by decide) hreach,
      write4_plain m 2 off v (s.store, tlp m s.dev) (by decide) (hon _) ho ho2 hroute (by omega)] at h
    cases h
    exact (Dev.Later.of_tim (tlp_tim m s.dev)).trans (later_fieldsWrite m off _ _ (s.store, tlp m s.dev))

theorem later_onDev_ifPowered {f : Dev → Dev} (hf : ∀ d : Dev, d.Later (f d)) {s t : State} (h : onDev (Dev.ifPowered f) s = .next t) :
    s.dev.Later t.dev := by
  rw [onDev_eq] at h
  cases h
  unfold Dev.ifPowered
  dsimp only
  split
  · exact Nat.le_refl _
  · exact hf _

theorem later_onDev_ifRuns {f : Dev → Dev} (hf : ∀ d : Dev, d.Later (f d)) {s t : State} (h : onDev (Dev.ifRuns f) s = .next t) :
    s.dev.Later t.dev := by
  rw [onDev_eq] at h
  cases h
  unfold Dev.ifRuns
  dsimp only
  split
  · exact hf _
  · exact Nat.le_refl _

/-- Settles O20: by the commands, each through what its rule does to the count. -/
theorem tideNeverFalls : Obligations.TideNeverFalls := by
  rintro c s t h (rfl | rfl | rfl | rfl | rfl | rfl | ⟨p, t1, rfl⟩ | ⟨r, rfl⟩ | ⟨m, v, rfl⟩ | ⟨m, v, rfl⟩ | ⟨m, v, rfl⟩ | ⟨m, v, rfl⟩ | ⟨m, rfl⟩)
  · exact later_onDev_ifPowered (fun _ => Dev.later_ppsInEdge) h
  · exact later_onDev_ifPowered (fun _ => Dev.later_ppsMissed) h
  · exact later_onDev_ifPowered (fun _ => Dev.later_ppsOutEdge) h
  · exact later_onDev_ifRuns (fun _ => Dev.later_timeSyncSend) h
  · exact later_onDev_ifPowered (fun _ => Dev.later_exchangeTimeout) h
  · exact later_onDev_ifPowered (f := Dev.tideHoldEnd) (fun _ => Nat.le_refl _) h
  · exact later_onDev_ifRuns (fun _ => Dev.later_timeSync _ _) h
  · exact later_onDev_ifRuns (fun _ => Dev.later_timeSyncReply _) h
  · have hreg : exec (.timeSet m v) s = regOut m (2 * 0x1000 + 0x134) 4 (putBit (putBits v.toNat 0 2 1) 31 true) s := rfl
    exact later_regOut (by decide) (by decide) (by decide) (hreg.symm.trans h)
  · have hreg : exec (.timeSetAtPps m v) s = regOut m (2 * 0x1000 + 0x134) 4 (putBit (putBits v.toNat 0 2 2) 31 true) s := rfl
    exact later_regOut (by decide) (by decide) (by decide) (hreg.symm.trans h)
  · have hreg : exec (.reacquire m v) s = regOut m (2 * 0x1000 + 0x134) 4 (putBit (putBits v.toNat 0 2 3) 31 true) s := rfl
    exact later_regOut (by decide) (by decide) (by decide) (hreg.symm.trans h)
  · have hreg : exec (.timeRootWrite m v) s = regOut m (2 * 0x1000 + 0x100) 4 v.toNat s := rfl
    exact later_regOut (by decide) (by decide) (by decide) (hreg.symm.trans h)
  · exact later_onDev_ifPowered (f := fun d => d.latchTime.regAnswer m 0 (natLE 4 (d.ns % 2 ^ 32))) (fun d => .of_tim (by simp [Dev.latchTime, Dev.regAnswer]; split <;> simp)) h

end Sys2Proof.Machine


/-!
SUPPORT. O19, exchanges of tide time (R544 to R546, R548), and the counters under events and captures.
-/
namespace Sys2Proof.Machine

/-! ### Counters of pages other than PCIE's -/

section
variable {d : Dev} {q j : Nat}

theorem Dev.counter_congr {e : Dev} (h : e.cnts = d.cnts) (q j : Nat) : e.counter q j = d.counter q j := by
  rw [Dev.counter, Dev.counter, h]

theorem Dev.counter_count_ne (hj : j < 1024) {p i : Nat} (hi : i < 1024) (k : Nat) (h : q ≠ p ∨ j ≠ i) :
    (d.count p i k).counter q j = d.counter q j := by
  rw [Dev.counter_count _ _ _ _ _ _ hi hj, if_neg (by omega)]

theorem Dev.counter_wr (f : Fld) (v : Nat) : (d.wr f v).counter q j = d.counter q j := Dev.counter_congr (by simp) _ _

variable (hq : q ≠ 0x18) (hj : j < 1024)
include hq hj

theorem Dev.counter_hostWrite (a : Nat) (v : List Byte) : (d.hostWrite a v).counter q j = d.counter q j := by
  unfold Dev.hostWrite
  split
  · exact Dev.counter_count_ne hj (by decide) _ (.inl hq)
  · exact Dev.counter_count_ne hj (by decide) _ (.inl hq)

theorem Dev.counter_msix (n : Nat) : (d.msix n).counter q j = d.counter q j := by
  unfold Dev.msix
  split
  · exact Dev.counter_count_ne hj (by decide) _ (.inl hq)
  · exact Dev.counter_count_ne hj (by decide) _ (.inl hq)

theorem Dev.counter_event (p i : Nat) : (d.event p i).counter q j = d.counter q j := by
  unfold Dev.event Dev.ifPending
  split
  · exact (Dev.counter_msix hq hj _).trans (Dev.counter_congr (by simp) _ _)
  · exact Dev.counter_congr (by simp) _ _

theorem Dev.counter_errLog (p : Nat) : (d.errLog p).counter q j = d.counter q j := by
  unfold Dev.errLog
  dsimp only
  split
  · rfl
  · split
    · have hlog : ∀ a v, ((d.hostWrite a v).bump F.ERR_RING_PROD_PROD 1).counter q j = d.counter q j := fun a v =>
        (Dev.counter_congr (by simp) _ _).trans (Dev.counter_hostWrite hq hj a v)
      split
      · exact (Dev.counter_msix hq hj _).trans (hlog _ _)
      · exact hlog _ _
    · exact (Dev.counter_event hq hj _ _).trans (Dev.counter_wr _ _)

theorem Dev.counter_capture (p : Nat) (c : ECls) (st code port det : Nat) : (d.capture p c st code port det).counter q j = d.counter q j := by
  unfold Dev.capture
  dsimp only
  split
  · exact Dev.counter_congr (by simp) _ _
  · exact (Dev.counter_errLog hq hj _).trans ((Dev.counter_event hq hj _ _).trans (Dev.counter_congr (by simp) _ _))

end

/-! ### TIME_SYNC and its answer (R544) -/

theorem ifRuns_next {i : Instr} {f : Dev → Dev} {s : State} (hi : exec i s = onDev (Dev.ifRuns f) s) (hrun : s.dev.running = true) :
    exec i s = .next { s with dev := f s.dev } := by
  rw [hi, onDev_eq, Dev.ifRuns, if_pos hrun]

theorem timeSyncSend_sends {s : State} (hrun : s.dev.running = true) (hst : 1 ≤ s.dev.timeState) (hst3 : s.dev.timeState ≤ 3)
    (hup : s.dev.rd F.TIME_CFG_UP_EN = 1) (hcarry : s.dev.portCarries s.dev.upstream = true) (hdue : s.dev.tim.nextSync ≤ s.dev.tim.tide)
    (hnode : s.dev.hasNode (s.dev.rdp F.PRT_PARTNER_NODE (0x80 + s.dev.upstream)) = true) :
    ∃ t, exec .timeSyncSend s = .next t ∧ t.store = s.store ∧ t.dev.regs = s.dev.regs ∧
      t.dev.out = s.dev.out ++ [.ctrl (s.dev.rdp F.PRT_PARTNER_NODE (0x80 + s.dev.upstream)) (.timeSync s.dev.upstream s.dev.tim.tide)] ∧
      t.dev.tim = { s.dev.tim with exchange := s.dev.tim.exchange ++ [s.dev.tim.tide]
                                   nextSync := s.dev.tim.tide + us (8 * s.dev.rd F.TIME_CFG_SYNC_INTERVAL) } := by
  have hstate : s.dev.timeState = 1 ∨ s.dev.timeState = 2 ∨ s.dev.timeState = 3 := by omega
  refine next_keepsStore_dev (ifRuns_next (f := Dev.timeSyncSend) rfl hrun) ?_
  dsimp only
  rw [Dev.timeSyncSend, if_pos ⟨hstate, hup, hcarry, hdue⟩]
  refine ⟨by simp, Dev.ctrl_out hnode _, ?_⟩
  dsimp only
  rw [Dev.rd_ctrl]
  simp

theorem timeExchange : Said.TimeExchange := by
  refine ⟨fun s hrun hst hst3 hup hcarry hdue hnode => timeSyncSend_sends hrun hst hst3 hup hcarry hdue hnode,
    fun p t1 s hrun hcarry => ⟨fun hst hst4 => ?_, fun hst => ?_⟩⟩
  · refine (ifRuns_next (f := Dev.timeSync p t1) rfl hrun).trans ?_
    rw [Dev.timeSync, if_pos ⟨hst, hst4, hcarry⟩]
  · refine (ifRuns_next (f := Dev.timeSync p t1) rfl hrun).trans ?_
    rw [Dev.timeSync, if_neg (by omega)]

/-! ### Exchanges discarded (R545, R546) -/

theorem Dev.timeState_toHoldover (d : Dev) : d.toHoldover.timeState = 3 ∧ bit (d.toHoldover.word 0x2014) 1 = true ∧
    d.toHoldover.rd F.TIME_OFFSET_OFFSET = d.rd F.TIME_OFFSET_OFFSET ∧ d.toHoldover.counter 2 1 = d.counter 2 1 := by
  refine ⟨?_, Dev.isr_event _ 2 (by decide), ?_, ?_⟩
  · simp (disch := decide) [Dev.timeState, Dev.toHoldover, Dev.rd_event, Dev.rd_capture, Dev.rd_wr_same, F.TIME_STAT_STATE]
  · simp (disch := decide) [Dev.toHoldover, Dev.rd_event, Dev.rd_capture, Dev.rd_wr_ne]
  · exact (Dev.counter_event (by decide) (by decide) _ _).trans ((Dev.counter_capture (by decide) (by decide) _ _ _ _ _ _).trans (Dev.counter_wr _ _))

theorem Dev.counter_count_one {d : Dev} {p i : Nat} (hi : i < 1024) (hfreeze : d.rdp F.BLK_CTRL_CNT_FREEZE p = 0)
    (hlt : d.counter p i < 2 ^ 63) : (d.count p i 1).counter p i = d.counter p i + 1 := by
  rw [Dev.counter_count _ _ _ _ _ _ hi hi, if_pos ⟨rfl, rfl, by omega⟩]
  exact Nat.min_eq_left (by omega)

theorem Dev.discardExchange_counts {d : Dev} (hfreeze : d.rdp F.BLK_CTRL_CNT_FREEZE 2 = 0) (hlt : d.counter 2 1 < 2 ^ 63) :
    d.discardExchange.counter 2 1 = d.counter 2 1 + 1 ∧ d.discardExchange.rd F.TIME_OFFSET_OFFSET = d.rd F.TIME_OFFSET_OFFSET ∧
    d.discardExchange.tim.exchange = d.tim.exchange ∧
    (d.timeState = 2 → d.tim.badRun = 3 → d.discardExchange.timeState = 3 ∧ bit (d.discardExchange.word 0x2014) 1 = true) ∧
    (d.timeState = 2 → d.tim.badRun < 3 → d.discardExchange.timeState = 2 ∧ d.discardExchange.tim.badRun = d.tim.badRun + 1) := by
  have hcount := Dev.counter_count_one (by decide) hfreeze hlt
  have hstate : (d.count 2 1 1).timeState = d.timeState := Dev.rd_count _ _ _ _ _
  have hoff : (d.count 2 1 1).rd F.TIME_OFFSET_OFFSET = d.rd F.TIME_OFFSET_OFFSET := Dev.rd_count _ _ _ _ _
  have htim : (d.count 2 1 1).tim = d.tim := by simp
  unfold Dev.discardExchange
  generalize d.count 2 1 1 = e at hcount hstate hoff htim
  rw [← hcount, ← hoff, ← hstate, ← htim]
  clear hcount hstate hoff htim
  dsimp only
  split
  · next hst =>
    split
    · next hbad =>
      obtain ⟨h3, hisr, hrd, hcnt⟩ := ({ e with tim := { e.tim with badRun := 0 } } : Dev).timeState_toHoldover
      exact ⟨hcnt, hrd, by rw [Dev.tide_toHoldover], fun _ _ => ⟨h3, hisr⟩, fun _ h => absurd hbad (by simp; omega)⟩
    · next hbad => exact ⟨rfl, rfl, rfl, fun _ h => absurd (show e.tim.badRun + 1 = 4 by omega) hbad, fun _ _ => ⟨hst, rfl⟩⟩
  · next hst => exact ⟨rfl, rfl, rfl, fun h => absurd h hst, fun h => absurd h hst⟩

theorem timeDiscards : Said.TimeDiscards := by
  refine ⟨fun t1 l s hoff hex hold hfreeze hlt => ?_, fun s hoff => onDev_ifPowered hoff Dev.tideHoldEnd⟩
  have hout : s.dev.exchangeTimeout = Dev.discardExchange { s.dev with tim := { s.dev.tim with exchange := l } } := by
    rw [Dev.exchangeTimeout, hex]
    exact if_pos hold
  obtain ⟨hcnt, -, hex', hfour, hfew⟩ := Dev.discardExchange_counts (d := { s.dev with tim := { s.dev.tim with exchange := l } }) hfreeze hlt
  refine next_keepsStore_dev (onDev_ifPowered hoff Dev.exchangeTimeout) ?_
  dsimp only
  rw [hout]
  exact ⟨hex', hcnt, hfour, hfew⟩

/-! ### A reply (R544 to R546) -/

theorem toSigned_ofSigned {i : Int} (hlo : -2 ^ 31 ≤ i) (hhi : i < 2 ^ 31) : toSigned 32 (ofSigned 32 i % 2 ^ 32) = i := by
  unfold toSigned ofSigned
  omega

theorem Dev.servo_rate {d : Dev} {limit : Nat} (hl : limit < 2 ^ 31) :
    -(limit : Int) ≤ toSigned 32 ((d.servo limit).rd F.TIME_RATE_RATE) ∧ toSigned 32 ((d.servo limit).rd F.TIME_RATE_RATE) ≤ limit := by
  have hmod : d.draw.1 % (2 * limit + 1) < 2 * limit + 1 := Nat.mod_lt _ (by omega)
  have hrate : (d.servo limit).rd F.TIME_RATE_RATE = ofSigned 32 ((d.draw.1 % (2 * limit + 1) : Nat) - (limit : Int)) % 2 ^ 32 :=
    Dev.rd_wr_same _ _ _ (by decide)
  generalize d.draw.1 % (2 * limit + 1) = v at hmod hrate
  rw [hrate, toSigned_ofSigned (by omega) (by omega)]
  omega

theorem ofSigned_lt (i : Int) : ofSigned 32 i < 2 ^ 32 := by
  unfold ofSigned
  omega

/-- The servo touches no counter and no register but TIME_RATE. -/
theorem Dev.counter_servo (d : Dev) (limit p i : Nat) : (d.servo limit).counter p i = d.counter p i :=
  Dev.counter_congr (by simp [Dev.servo, Dev.draw]) _ _

/-- An accepted exchange counted and reported, before the servo. -/
def Dev.exchangeNoted (off delay : Int) (d : Dev) : Dev :=
  let e := ((d.count 2 0 1).wr F.TIME_OFFSET_OFFSET (ofSigned 32 off)).wr F.TIME_DELAY_DELAY (ofSigned 32 delay)
  { e with tim := { e.tim with badRun := 0 } }

theorem Dev.exchangeNoted_notes {d : Dev} (off delay : Int) (hfreeze : d.rdp F.BLK_CTRL_CNT_FREEZE 2 = 0) (hlt : d.counter 2 0 < 2 ^ 63) :
    (d.exchangeNoted off delay).counter 2 0 = d.counter 2 0 + 1 ∧ (d.exchangeNoted off delay).rd F.TIME_OFFSET_OFFSET = ofSigned 32 off ∧
    (d.exchangeNoted off delay).rd F.TIME_DELAY_DELAY = ofSigned 32 delay ∧ (d.exchangeNoted off delay).timeState = d.timeState := by
  have hrd : ∀ f, (d.exchangeNoted off delay).rd f =
      (((d.count 2 0 1).wr F.TIME_OFFSET_OFFSET (ofSigned 32 off)).wr F.TIME_DELAY_DELAY (ofSigned 32 delay)).rd f := fun f => rfl
  refine ⟨?_, ?_, ?_, ?_⟩
  · exact (Dev.counter_congr (by simp [Dev.exchangeNoted]) _ _).trans (Dev.counter_count_one (by decide) hfreeze hlt)
  · rw [hrd, Dev.rd_wr_ne _ _ _ _ (by decide), Dev.rd_wr_same _ _ _ (by decide)]
    exact Nat.mod_eq_of_lt (ofSigned_lt off)
  · rw [hrd, Dev.rd_wr_same _ _ _ (by decide)]
    exact Nat.mod_eq_of_lt (ofSigned_lt delay)
  · rw [Dev.timeState, hrd, Dev.rd_wr_ne _ _ _ _ (by decide), Dev.rd_wr_ne _ _ _ _ (by decide), Dev.rd_count]
    rfl

/-- An exchange accepted in LOCKED. -/
theorem Dev.acceptExchange_locked {d : Dev} (off delay : Int) (hlocked : d.timeState = 2) (hfreeze : d.rdp F.BLK_CTRL_CNT_FREEZE 2 = 0)
    (hlt : d.counter 2 0 < 2 ^ 63) :
    (d.acceptExchange off delay).counter 2 0 = d.counter 2 0 + 1 ∧ (d.acceptExchange off delay).rd F.TIME_OFFSET_OFFSET = ofSigned 32 off ∧
    (d.acceptExchange off delay).rd F.TIME_DELAY_DELAY = ofSigned 32 delay ∧ (d.acceptExchange off delay).rd F.TIME_STAT_STATE = 2 ∧
    -500000 ≤ toSigned 32 ((d.acceptExchange off delay).rd F.TIME_RATE_RATE) ∧
    toSigned 32 ((d.acceptExchange off delay).rd F.TIME_RATE_RATE) ≤ 500000 := by
  obtain ⟨hcnt, hoff, hdelay, hstate⟩ := Dev.exchangeNoted_notes off delay hfreeze hlt
  have hst : (d.exchangeNoted off delay).timeState = 2 := hstate.trans hlocked
  have hacc : d.acceptExchange off delay = (d.exchangeNoted off delay).servo 500000 := by
    rw [show d.acceptExchange off delay = (let e := d.exchangeNoted off delay
      if e.timeState = 1 then e.acquireExchange off
      else if e.timeState = 2 then e.servo 500000
      else if e.timeState = 3 then
        if off.natAbs ≤ us 1 then (e.servo 500000).wr F.TIME_STAT_STATE 2
        else e.capture 2 .degraded 0 0x11 0x3F (ofSigned 32 off)
      else e) from rfl]
    dsimp only
    rw [if_neg (by omega), if_pos hst]
  rw [hacc, Dev.counter_servo, Dev.servo_rd _ _ _ (by decide), Dev.servo_rd _ _ _ (by decide), Dev.servo_rd _ _ _ (by decide)]
  exact ⟨hcnt, hoff, hdelay, hst, Dev.servo_rate (by decide)⟩

theorem timeReply : Said.TimeReply := by
  intro r s hrun hex hst hst3 hfreeze h0 h1
  have hin : s.dev.tim.exchange.contains r.t1 = true := by simpa using hex
  refine ⟨fun hrep => ?_, fun hrep hch hre hlocked => ?_⟩
  · have hreply : s.dev.timeSyncReply r = Dev.discardExchange { s.dev with tim := { s.dev.tim with exchange := s.dev.tim.exchange.erase r.t1 } } := by
      rw [Dev.timeSyncReply, if_pos ⟨hin, hst, hst3⟩]
      exact if_pos (.inl hrep)
    obtain ⟨hcnt, hoff, hex', -⟩ := Dev.discardExchange_counts
      (d := { s.dev with tim := { s.dev.tim with exchange := s.dev.tim.exchange.erase r.t1 } }) hfreeze h1
    refine next_keepsStore_dev (ifRuns_next (f := Dev.timeSyncReply r) rfl hrun) ?_
    dsimp only
    rw [hreply]
    exact ⟨hcnt, hoff, hex'⟩
  · have hreply : s.dev.timeSyncReply r = Dev.acceptExchange (syncOffset r (s.dev.rdi F.TIME_ASYM_ASYM s.dev.upstream)) (syncDelay r)
        { s.dev with tim := { s.dev.tim with exchange := s.dev.tim.exchange.erase r.t1 } } := by
      rw [Dev.timeSyncReply, if_pos ⟨hin, hst, hst3⟩]
      refine if_neg ?_
      rintro (h | h | h)
      · exact absurd (hrep.symm.trans h) (by decide)
      · omega
      · omega
    refine next_keepsStore_dev (ifRuns_next (f := Dev.timeSyncReply r) rfl hrun) ?_
    dsimp only
    rw [hreply]
    exact Dev.acceptExchange_locked (d := { s.dev with tim := { s.dev.tim with exchange := s.dev.tim.exchange.erase r.t1 } }) _ _ hlocked hfreeze h0

/-- Settles O19. -/
theorem timeExchanges : Obligations.TimeExchanges := ⟨timeExchange, timeReply, timeDiscards⟩

end Sys2Proof.Machine


/-!
SUPPORT. O18, a step on an empty queue (R449, R540, R595, log entry 3).
-/
namespace Sys2Proof.Machine

/-! ### What a package does of itself does not look at links, lanes and time -/

/-- The parts that the home and the boundaries look at. -/
def Dev.core (d : Dev) : Tbl W32 × Glb × Src × List Lnd × HostPort × Home × Pwr × Fry :=
  (d.regs, d.glb, d.src, d.lnd, d.host, d.home, d.pwr, d.fry)

section
variable {d e : Dev}

theorem Dev.core_iff : e.core = d.core ↔ e.regs = d.regs ∧ e.glb = d.glb ∧ e.src = d.src ∧ e.lnd = d.lnd ∧ e.host = d.host ∧
    e.home = d.home ∧ e.pwr = d.pwr ∧ e.fry = d.fry := by
  simp [Dev.core]

theorem quiet_core (h : e.core = d.core) (hq : quiet d) : quiet e := by
  obtain ⟨-, -, hsrc, hlnd, hhost, -, -, hfry⟩ := Dev.core_iff.1 h
  simpa [quiet, Dev.portQ, Dev.lndOf, Dev.jobReady, Dev.fop, Dev.job, Dev.jobLoaded, Dev.arr, hsrc, hlnd, hhost, hfry] using hq

theorem Dev.rdp_congr (h : e.regs = d.regs) (f : Fld) (p : Nat) : e.rdp f p = d.rdp f p := Dev.rdpi_congr h f p 0

theorem Dev.running_core (h : e.core = d.core) : e.running = d.running := by
  obtain ⟨-, hglb, -⟩ := Dev.core_iff.1 h
  rw [Dev.running, Dev.running, hglb]

theorem Dev.domOn_core (h : e.core = d.core) (i : Nat) : e.domOn i = d.domOn i :=
  Dev.domOn_congr (Dev.word_congr (Dev.core_iff.1 h).1 _) i

theorem Dev.powerHeld_core (h : e.core = d.core) (p : Nat) : e.powerHeld p = d.powerHeld p := by
  obtain ⟨hregs, -, -, -, -, -, hpwr, -⟩ := Dev.core_iff.1 h
  have hrd : ∀ f, e.rd f = d.rd f := Dev.rd_congr hregs
  have hrdp : ∀ f p i, e.rdpi f p i = d.rdpi f p i := fun f p i => Dev.rdpi_congr hregs f p i
  simp [Dev.powerHeld, Dev.domCond, Dev.groupEnabled, Dev.mirrorEnabled, Dev.capInForce, Dev.rdi, Dev.rdp, hrd, hrdp, hpwr]

theorem Dev.homeOn_core (h : e.core = d.core) : e.homeOn = d.homeOn := by
  have hregs := (Dev.core_iff.1 h).1
  simp [Dev.homeOn, Dev.booted, Dev.takes, Dev.pageOn, Dev.powerHeld_core h, Dev.domOn_core h, Dev.rd_congr hregs, Dev.rdp_congr hregs]

theorem Dev.homeIdle_core (h : e.core = d.core) : e.homeIdle = d.homeIdle := by
  obtain ⟨-, -, -, -, -, hhome, -, -⟩ := Dev.core_iff.1 h
  have hinfl : e.inflSum = d.inflSum := by rw [Dev.inflSum, Dev.inflSum, hhome]
  have hchan : e.chan1Held = d.chan1Held := by rw [Dev.chan1Held, Dev.chan1Held, hhome]
  rw [Dev.homeIdle, Dev.homeIdle, Dev.homeTakes, Dev.homeTakes, Dev.chan1Takes, Dev.chan1Takes, Dev.homeOn_core h, hinfl, hchan, hhome]

end

/-- A step on an empty queue, where what follows of itself is nothing. -/
theorem step_idle {s : State} (hp : s.pending = []) (hcore : s.dev.idle.core = s.dev.core)
    (hrest : s.dev.running = true → s.dev.domOn 11 = true → s.dev.homeIdle = true ∧ quiet s.dev) :
    step s = .next { s with dev := s.dev.idle } := by
  have hstep : step s = onAll (fun x => Pkg.ifRuns (fun x => Pkg.settle (Pkg.thenHome id x)) (Pkg.dev Dev.idle x)) s := by
    rw [step, hp]
  rw [hstep, onAll_eq, Pkg.ifRuns, Pkg.dev]
  dsimp only
  rw [Dev.running_core hcore, Dev.domOn_core hcore]
  split
  · next h =>
    obtain ⟨hrun, hdom⟩ : s.dev.running = true ∧ s.dev.domOn 11 = true := by simpa using h
    obtain ⟨hidle, hq⟩ := hrest hrun hdom
    rw [Pkg.thenHome, if_pos ((Dev.homeIdle_core hcore).trans hidle), id, settle_quiet (quiet_core hcore hq)]
  · rfl

/-! ### Frames of the landings -/

section
variable {d : Dev}

theorem Dev.landings_rest (h : ∀ n < 4, (d.lndOf n).outQ = [] ∧ d.timeDue n = none) :
    (List.range 4).foldl (fun d n => (d.timeMissed n).lndSends n) d = d := by
  refine List.foldl_fixed_of_mem fun n hn => ?_
  obtain ⟨hout, hdue⟩ := h n (List.mem_range.1 hn)
  have hmiss : d.timeMissed n = d := by rw [Dev.timeMissed, hdue]
  rw [hmiss, Dev.lndSends, hout]
  rfl

theorem Dev.returnGrants_none {p : Nat} (h : (d.link p).owed = []) : d.returnGrants p = d := by
  rw [Dev.returnGrants]
  exact if_neg (by simp [h])

theorem Dev.returnGrants_rest (h : ∀ p < 28, (d.link p).owed = []) : (List.range 28).foldl Dev.returnGrants d = d :=
  List.foldl_fixed_of_mem fun p hp => Dev.returnGrants_none (h p (List.mem_range.1 hp))

end

/-! ### The tick -/

theorem Dev.tick_still {d : Dev} (h : d.glb.off = true ∨ d.tim.holdFor.isSome = true) : d.tick = d := by
  rw [Dev.tick, Dev.ifPowered]
  split
  · rfl
  · next hoff =>
    obtain ⟨k, hk⟩ := Option.isSome_iff_exists.1 (h.resolve_left hoff)
    rw [Dev.advance, hk]

/-- What one period of the oscillator makes of the count. -/
def Dev.ticked (d : Dev) : Tim :=
  let n : Int := 10240 * (1000000000 + toSigned 32 (d.rd F.TIME_RATE_RATE)) + d.tim.rem
  { d.tim with tide := (d.tim.tide + (n / 1000000000).toNat) % 2 ^ 72, rem := n % 1000000000 }

theorem Dev.tick_goes {d : Dev} (hoff : d.glb.off = false) (hhold : d.tim.holdFor = none) : d.tick = { d with tim := d.ticked } := by
  rw [Dev.tick, Dev.ifPowered, hoff, if_neg (by decide), Dev.advance, hhold]
  rfl

theorem Dev.core_tick (d : Dev) : d.tick.core = d.core := by
  unfold Dev.tick Dev.ifPowered Dev.advance
  split
  · rfl
  · split <;> rfl

theorem Dev.ticked_rem (d : Dev) : 0 ≤ d.ticked.rem ∧ d.ticked.rem < 1000000000 :=
  ⟨Int.emod_nonneg _ (by decide), Int.emod_lt_of_pos _ (by decide)⟩

theorem Dev.ticked_even {d : Dev} (hrate : d.rd F.TIME_RATE_RATE = 0) (hrem : d.tim.rem = 0) (hlt : d.tim.tide + 10240 < 2 ^ 72) :
    d.ticked.tide = d.tim.tide + 10240 ∧ d.ticked.rem = 0 := by
  have hn : (10240 * (1000000000 + toSigned 32 0) + 0 : Int) = 10240 * 1000000000 := by decide
  unfold Dev.ticked
  rw [hrate, hrem, hn]
  dsimp only
  refine ⟨?_, by decide⟩
  rw [show ((10240 * 1000000000 : Int) / 1000000000).toNat = 10240 by decide]
  exact Nat.mod_eq_of_lt hlt

theorem Dev.idle_rest {d : Dev} (hlnd : d.running = true → ∀ n < 4, (d.lndOf n).outQ = [] ∧ d.timeDue n = none)
    (howed : ∀ p < 28, (d.link p).owed = []) : d.idle = d.tick := by
  rw [Dev.idle, Dev.ifRuns]
  split
  · next hrun => rw [Dev.landings_rest (hlnd hrun), Dev.returnGrants_rest howed]
  · rfl

/-! ### Grants returned (R449) -/

theorem List.foldl_once {α β : Type} {f : α → β → α} {a c : α} {p : β} {l : List β} (hnd : l.Nodup) (hp : p ∈ l) (h : f a p = c)
    (ha : ∀ q ∈ l, q ≠ p → f a q = a) (hc : ∀ q ∈ l, q ≠ p → f c q = c) : l.foldl f a = c := by
  induction l with
  | nil => cases hp
  | cons b l ih =>
    obtain ⟨hb, hnd⟩ := List.nodup_cons.1 hnd
    rw [List.foldl_cons]
    obtain rfl | hp := List.mem_cons.1 hp
    · rw [h]
      exact List.foldl_fixed_of_mem fun q hq => hc q (by simp [hq]) fun e => hb (e ▸ hq)
    · rw [ha b (by simp) fun e => hb (e ▸ hp)]
      exact ih hnd hp (fun q hq => ha q (by simp [hq])) (fun q hq => hc q (by simp [hq]))


theorem idleTick_rest {s : State} (hp : s.pending = [])
    (hrest : s.dev.running = true → (∀ n < 4, (s.dev.lndOf n).outQ = [] ∧ s.dev.timeDue n = none) ∧
      (s.dev.domOn 11 = true → s.dev.homeIdle = true ∧ quiet s.dev)) (howed : ∀ p < 28, (s.dev.link p).owed = []) :
    (s.dev.glb.off = true ∨ s.dev.tim.holdFor.isSome = true → step s = .next s) ∧
    (s.dev.glb.off = false → s.dev.tim.holdFor = none → ∃ t, step s = .next t ∧ t.store = s.store ∧ t.pending = [] ∧
      t.dev.regs = s.dev.regs ∧ t.dev.out = s.dev.out ∧ 0 ≤ t.dev.tim.rem ∧ t.dev.tim.rem < 1000000000 ∧
      (s.dev.rd F.TIME_RATE_RATE = 0 → s.dev.tim.rem = 0 → s.dev.tim.tide + 10240 < 2 ^ 72 →
        t.dev.tim.tide = s.dev.tim.tide + 10240 ∧ t.dev.tim.rem = 0)) := by
  have hidle := Dev.idle_rest (fun hrun => (hrest hrun).1) howed
  have hstep := step_idle hp (hidle ▸ s.dev.core_tick) fun hrun hdom => (hrest hrun).2 hdom
  refine ⟨fun h => hstep.trans ?_, fun hoff hhold => ⟨_, hstep, rfl, hp, ?_⟩⟩
  · rw [hidle, Dev.tick_still h]
  · rw [hidle, Dev.tick_goes hoff hhold]
    exact ⟨rfl, rfl, s.dev.ticked_rem.1, s.dev.ticked_rem.2, fun hrate hrem hlt => Dev.ticked_even hrate hrem hlt⟩

theorem nth_modAt {α : Type} (f : α → α) (l : List α) (i j : Nat) (a : α) :
    nth (modAt f l i) j a = if i = j ∧ i < l.length then f (nth l i a) else nth l j a := by
  induction l generalizing i j with
  | nil => simp [modAt]
  | cons x l ih =>
    cases i with
    | zero => cases j <;> simp [modAt, nth]
    | succ i =>
      cases j with
      | zero => simp [modAt, nth]
      | succ j => simpa [modAt, nth] using ih i j

theorem length_modAt {α : Type} (f : α → α) (l : List α) (i : Nat) : (modAt f l i).length = l.length := by
  induction l generalizing i with
  | nil => rfl
  | cons x l ih => cases i <;> simp [modAt, ih]

/-- A function of a link that the change of one does not touch reads the same off every link. -/
theorem nth_modAt_keep {α β : Type} {f : α → α} (g : α → β) (h : ∀ x, g (f x) = g x) (l : List α) (i j : Nat) (a : α) :
    g (nth (modAt f l i) j a) = g (nth l j a) := by
  rw [nth_modAt]
  split
  · next hij => rw [h, hij.1]
  · rfl

/-- What a block on a lane leaves: all but the lanes of its link. -/
structure Dev.LanesOnly (d e : Dev) : Prop where
  core : e.core = d.core
  out : e.out = d.out
  owed : ∀ q, (e.link q).owed = (d.link q).owed
  buffer : ∀ q, (e.link q).buffer = (d.link q).buffer

theorem Dev.LanesOnly.refl (d : Dev) : d.LanesOnly d := ⟨rfl, rfl, fun _ => rfl, fun _ => rfl⟩

theorem Dev.LanesOnly.trans {d e f : Dev} (h : d.LanesOnly e) (k : e.LanesOnly f) : d.LanesOnly f :=
  ⟨k.core.trans h.core, k.out.trans h.out, fun q => (k.owed q).trans (h.owed q), fun q => (k.buffer q).trans (h.buffer q)⟩

theorem Dev.lanesOnly_modAt {d e : Dev} {p : Nat} {f : Link → Link} (hcore : e.core = d.core) (hout : e.out = d.out)
    (hlinks : e.links = modAt f d.links p) (ho : ∀ l, (f l).owed = l.owed) (hb : ∀ l, (f l).buffer = l.buffer) : d.LanesOnly e := by
  refine ⟨hcore, hout, fun q => ?_, fun q => ?_⟩
  · rw [Dev.link, hlinks]
    exact nth_modAt_keep Link.owed ho _ _ _ _
  · rw [Dev.link, hlinks]
    exact nth_modAt_keep Link.buffer hb _ _ _ _

theorem Dev.lanesOnly_sendBlock (p : Nat) (d : Dev) (b : Nat) : d.LanesOnly (d.sendBlock p b) := by
  unfold Dev.sendBlock
  dsimp only
  split
  · exact .refl d
  · exact Dev.lanesOnly_modAt rfl rfl rfl (fun _ => rfl) (fun _ => rfl)

theorem Dev.lanesOnly_sendFlit (p : Nat) (bytes : List Byte) (d : Dev) : (d.emit (.flit p bytes)).LanesOnly (d.sendFlit p bytes) := by
  unfold Dev.sendFlit
  generalize List.range 8 = l
  generalize d.emit (.flit p bytes) = e
  induction l generalizing e with
  | nil => exact .refl e
  | cons i l ih => exact (Dev.lanesOnly_sendBlock p e _).trans (ih _)

/-- The DATA flit of pad slots that returns grants. -/
def Link.padFlit (l : Link) : Flit :=
  { seq := (l.txSeq + 1) % 4096, kind := 0, start := 15
    grants := ((l.owed.take 2).map (fun g => (g.1, min g.2 255))).map (fun g => (g.1 / 4, g.1 % 4, g.2)), slots := [] }

/-- The link once it has sent that flit. -/
def Link.padded (l : Link) (now : Nat) : Link :=
  let gs := (l.owed.take 2).map (fun g => (g.1, min g.2 255))
  { l with
    txSeq := l.padFlit.seq, flitsSinceAck := 0, buffer := l.buffer ++ [l.padFlit]
    owed := gs.foldl (fun t g => nset t g.1 (nget t g.1 - g.2)) l.owed
    lent := gs.foldl (fun t g => nset t g.1 (nget t g.1 + g.2)) l.lent
    progressAt := if l.txSeq = l.acked then now else l.progressAt }

theorem Dev.flitOut_pads {p : Nat} {d : Dev} (hroom : (d.link p).room = true) :
    ({ d with links := modAt (fun _ => (d.link p).padded d.tim.tide) d.links p } : Dev).emit
      (.flit p ((d.link p).padFlit.bytes (d.link p).rxSeq false)) |>.LanesOnly (d.flitOut p 0 false 15 []) := by
  have hsent := Dev.lanesOnly_sendFlit p ((d.link p).padFlit.bytes (d.link p).rxSeq false)
    { d with links := modAt (fun _ => (d.link p).padded d.tim.tide) d.links p }
  have hcount : ∀ e : Dev, e.LanesOnly (e.linkCount p 0 1) := fun e =>
    ⟨by simp [Dev.linkCount, Dev.core], by simp [Dev.linkCount], fun q => by simp [Dev.linkCount, Dev.link],
      fun q => by simp [Dev.linkCount, Dev.link]⟩
  have hswitch : ∀ (e : Dev) (w : Nat), e.LanesOnly { e with links := modAt (fun l => { l with txMask := w, txSwitch := none }) e.links p } :=
    fun e w => Dev.lanesOnly_modAt rfl rfl rfl (fun _ => rfl) (fun _ => rfl)
  have hkind : (if (nth d.links p {}).room then 0 else 1) = 0 := if_pos hroom
  refine (hsent.trans (hcount _)).trans ?_
  have hflit : d.flitOut p 0 false 15 [] = (let e := Dev.linkCount (Dev.sendFlit p ((d.link p).padFlit.bytes (d.link p).rxSeq false)
      { d with links := modAt (fun _ => (d.link p).padded d.tim.tide) d.links p }) p 0 1
    match (d.link p).txSwitch with
    | some w => if w.1 == (d.link p).padFlit.seq then { e with links := modAt (fun l => { l with txMask := w.2, txSwitch := none }) e.links p } else e
    | none => e) := by
    unfold Dev.flitOut
    dsimp only
    rw [hkind]
    rfl
  rw [hflit]
  dsimp only
  generalize Dev.linkCount _ p 0 1 = e
  split
  · split
    · exact hswitch e _
    · exact .refl e
  · exact .refl e

theorem idleTick_grants {p : Nat} {s : State} (hp : s.pending = [])
    (hrest : s.dev.running = true → (∀ n < 4, (s.dev.lndOf n).outQ = [] ∧ s.dev.timeDue n = none) ∧
      (s.dev.domOn 11 = true → s.dev.homeIdle = true ∧ quiet s.dev)) (hlt : p < 28) (hrun : s.dev.running = true) (hshape : shaped s.dev)
    (hup : s.dev.linkState p = 5) (howed : (s.dev.link p).owed ≠ []) (hroom : (s.dev.link p).room = true)
    (hwait : (s.dev.link p).lctlWait = []) (hclass : ∀ c < 4, s.dev.classReady p c = false)
    (hothers : ∀ q < 28, q ≠ p → (s.dev.link q).owed = []) :
    ∃ t f, step s = .next t ∧ t.store = s.store ∧ f.kind = 0 ∧ f.slots = [] ∧ f.seq = ((s.dev.link p).txSeq + 1) % 4096 ∧
      f.grants = ((s.dev.link p).owed.take 2).map (fun g => (g.1 / 4, g.1 % 4, min g.2 255)) ∧
      (t.dev.link p).buffer = (s.dev.link p).buffer ++ [f] ∧
      t.dev.out = s.dev.out ++ [.flit p (f.bytes (s.dev.link p).rxSeq false)] := by
  obtain ⟨-, -, hlinks, -⟩ := hshape
  obtain ⟨hcore, hout, howed', hbuf⟩ := Dev.flitOut_pads hroom
  have hreturn : s.dev.returnGrants p = s.dev.flitOut p 0 false 15 [] := by
    rw [Dev.returnGrants]
    refine if_pos ⟨hup, by simpa using howed, hroom, hwait, .inr ?_⟩
    simpa using hclass
  have hrest' : ∀ q < 28, q ≠ p → ((s.dev.flitOut p 0 false 15 []).link q).owed = [] := fun q hq hne => by
    refine (howed' q).trans ((congrArg Link.owed ?_).trans (hothers q hq hne))
    exact (nth_modAt _ _ _ _ _).trans (if_neg fun h => hne h.1.symm)
  have hfold : (List.range 28).foldl Dev.returnGrants s.dev = s.dev.flitOut p 0 false 15 [] :=
    List.foldl_once List.nodup_range (List.mem_range.2 hlt) hreturn
      (fun q hq hne => Dev.returnGrants_none (hothers q (List.mem_range.1 hq) hne))
      (fun q hq hne => Dev.returnGrants_none (hrest' q (List.mem_range.1 hq) hne))
  have hidle : s.dev.idle = (s.dev.flitOut p 0 false 15 []).tick := by
    rw [Dev.idle, Dev.ifRuns, if_pos hrun, Dev.landings_rest (hrest hrun).1, hfold]
  have hcore' : s.dev.idle.core = s.dev.core := by
    rw [hidle, Dev.core_tick, hcore]
    rfl
  have htick : ∀ d : Dev, d.tick.links = d.links ∧ d.tick.out = d.out := fun d => by
    unfold Dev.tick Dev.ifPowered Dev.advance
    split
    · exact ⟨rfl, rfl⟩
    · split <;> exact ⟨rfl, rfl⟩
  refine ⟨_, (s.dev.link p).padFlit, step_idle hp hcore' fun hrun hdom => (hrest hrun).2 hdom, rfl, rfl, rfl, rfl, ?_, ?_, ?_⟩
  · exact List.map_map
  · rw [hidle, Dev.link, (htick _).1]
    refine (hbuf p).trans ((congrArg Link.buffer (nth_modAt _ _ _ _ _)).trans ?_)
    rw [if_pos ⟨rfl, by omega⟩]
    rfl
  · rw [hidle, (htick _).2, hout]
    rfl

/-- Settles O18. -/
theorem idleTick : Obligations.IdleTick := fun _ hp hrest =>
  ⟨fun howed => idleTick_rest hp hrest howed, fun _ hlt hrun hshape hup howed hroom hwait hclass hothers =>
    idleTick_grants hp hrest hlt hrun hshape hup howed hroom hwait hclass hothers⟩

end Sys2Proof.Machine


/-!
SUPPORT. O22 and O23: RESET_N, the loss of VDD_AON, the power pins and PERST_N (R560, R583, R584, R587, R593, R594).
-/
namespace Sys2Proof.Machine

/-! ### RESET_N and VDD_AON -/

section
variable (aon : Bool) (d : Dev)

@[simp] theorem Dev.afterReset_frame : (d.afterReset aon).out = d.out ∧ (d.afterReset aon).tim = {} ∧ (d.afterReset aon).cnts = [] ∧
    (d.afterReset aon).home = {} ∧ (d.afterReset aon).rte = {} ∧ (d.afterReset aon).sec = { metaGen := d.sec.metaGen } ∧
    (d.afterReset aon).glb.off = true ∧ (d.afterReset aon).glb.vddAon = aon ∧ (d.afterReset aon).glb.vddMv = d.glb.vddMv ∧
    (d.afterReset aon).glb.hold = if aon ∧ d.glb.hold = Hold.coreUv then Hold.coreUv else .none := by
  simp [Dev.afterReset]

/-- After reset every register but the levels of the pins and what the fuses fix reads its reset value. -/
theorem Dev.word_afterReset {a : Nat} (hpin : a ≠ 0x114) (hbrake : a ≠ 0x1108) (hfuse : a ≠ 0x3164) :
    (d.afterReset aon).word a = (resetWord a).toNat := by
  unfold Dev.afterReset
  dsimp only
  rw [Dev.word_wr_ne _ _ _ _ hfuse, Dev.word_wr_ne _ _ _ _ hfuse, Dev.word_wr_ne _ _ _ _ hbrake, Dev.word_wr_ne _ _ _ _ hpin,
    Dev.word_wr_ne _ _ _ _ hpin]
  rfl

end

/-- The package once RESET_N is released over a core that CORE_UV does not hold. -/
def Dev.released (tray slot : Nat) (d : Dev) : Dev :=
  let d : Dev := { d with
    glb := { d.glb with off := false, vddAon := true, straps := (tray % 64, slot % 2), transmitters := true, hold := .none
                        uvSince := if d.glb.vddMv < 550 then some 0 else none }
    sec := { d.sec with metaGen := d.sec.metaGen + 1 } }
  (((d.wr F.BLK_STAT_BLOCK d.railLow).wr F.GLB_STRAP_TRAY tray).wr F.GLB_STRAP_SLOT slot).wr F.MGMT_SMB_ADDR (0x60 + slot % 2)

theorem Dev.resetRelease_free {tray slot : Nat} {d : Dev} (hoff : d.glb.off = true) (heoff : d.glb.hold ≠ .eoff)
    (hheld : ¬(d.glb.hold = .coreUv ∧ d.glb.vddMv < 600)) : d.resetRelease tray slot = d.released tray slot := by
  simp [Dev.resetRelease, hoff, heoff, hheld, Dev.released]

theorem Dev.released_stat {tray slot : Nat} {d : Dev} (htray : tray < 64) (hslot : slot < 2) :
    (d.released tray slot).rd F.GLB_STRAP_TRAY = tray ∧ (d.released tray slot).rd F.GLB_STRAP_SLOT = slot ∧
      (d.released tray slot).rd F.MGMT_SMB_ADDR = 0x60 + slot ∧
      (d.released tray slot).rd F.BLK_STAT_BLOCK = b2n (decide (d.glb.vddMv < 600)) := by
  have hb : b2n (decide (d.glb.vddMv < 600)) < 2 := by unfold b2n; split <;> decide
  unfold Dev.released
  dsimp only
  refine ⟨?_, ?_, ?_, ?_⟩
  · rw [Dev.rd_wr_ne _ _ _ _ (by decide), Dev.rd_wr_ne _ _ _ _ (by decide), Dev.rd_wr_same _ _ _ (by decide)]
    exact Nat.mod_eq_of_lt htray
  · rw [Dev.rd_wr_ne _ _ _ _ (by decide), Dev.rd_wr_same _ _ _ (by decide)]
    exact Nat.mod_eq_of_lt hslot
  · rw [Dev.rd_wr_same _ _ _ (by decide)]
    change (0x60 + slot % 2) % 2 ^ 7 = _
    omega
  · rw [Dev.rd_wr_ne _ _ _ _ (by decide), Dev.rd_wr_ne _ _ _ _ (by decide), Dev.rd_wr_ne _ _ _ _ (by decide),
      Dev.rd_wr_same _ _ _ (by decide)]
    change b2n _ % 2 ^ 24 = _
    exact Nat.mod_eq_of_lt (hb.trans (by decide))

theorem Dev.word_released {tray slot a : Nat} (d : Dev) (hstat : a ≠ 0x10) (hstrap : a ≠ 0x100) (hsmb : a ≠ 0x4108) :
    (d.released tray slot).word a = d.word a := by
  unfold Dev.released
  dsimp only
  rw [Dev.word_wr_ne _ _ _ _ hsmb, Dev.word_wr_ne _ _ _ _ hstrap, Dev.word_wr_ne _ _ _ _ hstrap, Dev.word_wr_ne _ _ _ _ hstat]
  rfl

/-- With the rail in range BLK_STAT of GLB reads its reset value too. -/
theorem Dev.word_released_stat {tray slot : Nat} {d : Dev} (hmv : 600 ≤ d.glb.vddMv) (h : d.word 0x10 = (resetWord 0x10).toNat) :
    (d.released tray slot).word 0x10 = (resetWord 0x10).toNat := by
  have hlow : ¬d.glb.vddMv < 600 := by omega
  unfold Dev.released
  dsimp only
  rw [Dev.word_wr_ne _ _ _ _ (by decide), Dev.word_wr_ne _ _ _ _ (by decide), Dev.word_wr_ne _ _ _ _ (by decide)]
  simp only [Dev.railLow, hlow, decide_false]
  refine (Dev.word_setWord_same _ _ _).trans ?_
  change putBits (d.word 0x10) 8 24 0 % 2 ^ 32 = _
  rw [h]
  decide

/-- The package in reset, CORE_UV not holding the core: `mv` is the rail, `gen` counts the metadata keys drawn. -/
structure Dev.InReset (mv gen : Nat) (e : Dev) : Prop where
  off : e.glb.off = true
  eoff : e.glb.hold ≠ .eoff
  held : ¬(e.glb.hold = .coreUv ∧ e.glb.vddMv < 600)
  rail : e.glb.vddMv = mv
  tim : e.tim = {}
  cnts : e.cnts = []
  home : e.home = {}
  rte : e.rte = {}
  sec : e.sec = { metaGen := gen }
  word : ∀ a, a ≠ 0x114 → a ≠ 0x1108 → a ≠ 0x3164 → e.word a = (resetWord a).toNat

theorem Dev.inReset_afterReset {aon : Bool} {d : Dev} (hheld : ¬(aon = true ∧ d.glb.hold = .coreUv ∧ d.glb.vddMv < 600)) (x : Emit) :
    ((d.afterReset aon).emit x).InReset d.glb.vddMv d.sec.metaGen := by
  obtain ⟨-, htim, hcnts, hhome, hrte, hsec, hoff, -, hmv, hhold⟩ := Dev.afterReset_frame aon d
  have hword := fun a hp hb hf => Dev.word_afterReset aon d (a := a) hp hb hf
  generalize d.afterReset aon = e at *
  refine ⟨hoff, ?_, ?_, hmv, htim, hcnts, hhome, hrte, hsec, hword⟩
  · rw [show (e.emit x).glb = e.glb from rfl, hhold]
    split <;> simp
  · rw [show (e.emit x).glb = e.glb from rfl, hhold, hmv]
    split
    · next h => exact fun h6 => hheld ⟨h.1, h.2, h6.2⟩
    · simp

/-- What a release of RESET_N makes of a package in reset. -/
theorem Dev.InReset.released {mv gen tray slot : Nat} {e : Dev} (h : e.InReset mv gen) (htray : tray < 64) (hslot : slot < 2) :
    (e.released tray slot).running = true ∧ (e.released tray slot).tim = {} ∧ (e.released tray slot).cnts = [] ∧
      (e.released tray slot).home = {} ∧ (e.released tray slot).rte = {} ∧ (e.released tray slot).sec = { metaGen := gen + 1 } ∧
      (e.released tray slot).rd F.GLB_STRAP_TRAY = tray ∧ (e.released tray slot).rd F.GLB_STRAP_SLOT = slot ∧
      (e.released tray slot).rd F.MGMT_SMB_ADDR = 0x60 + slot ∧ (e.released tray slot).rd F.GLB_BOOT_STAT_STAGE = 0 ∧
      (e.released tray slot).rd F.BLK_STAT_BLOCK = b2n (decide (mv < 600)) ∧
      ∀ a, (600 ≤ mv ∨ a ≠ 0x10) → a ≠ 0x100 → a ≠ 0x114 → a ≠ 0x1108 → a ≠ 0x4108 → a ≠ F.SEC_SVN_FLOOR_FLOOR.addr 3 0 →
        a ≠ F.SEC_SVN_FLOOR_REVOKED.addr 3 0 → (e.released tray slot).word a = (resetWord a).toNat := by
  obtain ⟨htr, hsl, hsmb, hlow⟩ := Dev.released_stat (d := e) htray hslot
  refine ⟨rfl, h.tim, h.cnts, h.home, h.rte, ?_, htr, hsl, hsmb, ?_, by rw [hlow, h.rail], fun a hstat hstrap hpin hbrake hadr hfuse _ => ?_⟩
  · change { e.sec with metaGen := e.sec.metaGen + 1 } = _
    rw [h.sec]
  · change bits ((e.released tray slot).word 0x104) 0 3 = 0
    rw [Dev.word_released _ (by decide) (by decide) (by decide), h.word _ (by decide) (by decide) (by decide)]
    decide
  · by_cases ha : a = 0x10
    · subst ha
      exact Dev.word_released_stat (by rw [h.rail]; exact hstat.resolve_right (fun h => h rfl)) (h.word _ hpin hbrake hfuse)
    · rw [Dev.word_released _ ha hstrap hadr, h.word _ hpin hbrake hfuse]

/-- What RESET_N makes of the package, and its release after (R583, R7, R49). -/
theorem resetClears : Said.ResetClears := by
  refine ⟨fun tray slot s hoff hhold hmv => ?_, fun s heoff hheld => ?_⟩
  · refine ⟨{ s with dev := s.dev.resetRelease tray slot }, rfl, rfl, ?_⟩
    simp [Dev.resetRelease, hoff, hhold, hmv, Dev.running]
  · have hassert : s.dev.resetAssert = (s.dev.afterReset s.dev.glb.vddAon).emit (.pin "TX_HIGHZ" 1) := if_neg heoff
    have hin : s.dev.resetAssert.InReset s.dev.glb.vddMv s.dev.sec.metaGen := hassert ▸ Dev.inReset_afterReset hheld _
    have hout : s.dev.resetAssert.out = s.dev.out ++ [.pin "TX_HIGHZ" 1] := by rw [hassert]; simp
    generalize hd : s.dev.resetAssert = d at hin hout
    refine ⟨{ s with dev := d }, by rw [← hd]; rfl, rfl, hin.off, by simp [Dev.running, hin.off], hout, fun tray slot htray hslot => ?_⟩
    refine ⟨{ s with dev := d.released tray slot }, ?_, rfl, hin.released htray hslot⟩
    rw [← Dev.resetRelease_free hin.off hin.eoff hin.held]
    rfl

/-! ### The power pins -/

theorem vddAonLoss_loses (s : State) : ∃ t, exec .vddAonLoss s = .next t ∧ t.store = {} ∧ t.dev.glb.off = true ∧
    t.dev.glb.vddAon = false ∧ t.dev.sec.active = none ∧ t.dev.tim = {} := by
  refine ⟨{ s with store := {}, dev := (s.dev.afterReset false).emit (.pin "TX_HIGHZ" 1) }, rfl, rfl, ?_⟩
  simp

theorem eoffN_holds {ns : Nat} {s : State} (haon : s.dev.glb.vddAon = true) (hne : s.dev.glb.hold ≠ .eoff) (hns : 50 ≤ ns) :
    ∃ t, exec (.eoffN ns) s = .next t ∧ t.store = s.store ∧ t.dev.glb.hold = .eoff ∧ t.dev.running = false ∧
      t.dev.rd F.ERR_FATAL_EOFF = 1 ∧ t.dev.out = s.dev.out ++ [.pin "TX_IDLE" 1] ∧ exec .resetNAssert t = .next t := by
  refine ⟨{ s with dev := s.dev.eoff ns }, rfl, rfl, ?_⟩
  have hdev : s.dev.eoff ns = (let d := (s.dev.fatalTime.wr F.ERR_FATAL_EOFF 1).wr F.GLB_PIN_STAT_EOFF 1
      ({ d with glb := { d.glb with hold := .eoff } } : Dev).txIdle) := by
    simp [Dev.eoff, hns, haon, hne]
  simp only [hdev, Dev.txIdle]
  refine ⟨by simp, by simp [Dev.running], ?_, by simp, ?_⟩
  · simp (disch := decide) [Dev.rd_wr_ne, Dev.rd_wr_same, F.ERR_FATAL_EOFF]
  · simp [exec, execResetNAssert, onDev, Dev.resetAssert]

theorem pwrfailN_records {s : State} (hoff : s.dev.glb.off = false) (hlow : s.dev.rd F.GLB_PIN_STAT_PWRFAIL = 0) :
    ∃ t, exec (.pwrfailN true) s = .next t ∧ t.store = s.store ∧ t.dev.rd F.GLB_PIN_STAT_PWRFAIL_SEEN = 1 ∧
      bit (t.dev.word 0x14) 0 = true ∧ t.dev.glb = s.dev.glb ∧ t.dev.home = s.dev.home ∧ t.dev.links = s.dev.links ∧
      exec (.pwrfailN false) t = .next { t with dev := t.dev.wr F.GLB_PIN_STAT_PWRFAIL 0 } := by
  have hdev : s.dev.pwrfail true =
      (((s.dev.wr F.GLB_PIN_STAT_PWRFAIL 1).wr F.GLB_PIN_STAT_PWRFAIL_SEEN 1).event 0 0).capture 0 .degraded 0 0x10 0x3F 0 := by
    simp [Dev.pwrfail, hlow]
  have hglb : (s.dev.pwrfail true).glb = s.dev.glb := by simp [hdev]
  refine ⟨{ s with dev := s.dev.pwrfail true }, by simp [exec, execPwrfailN, Dev.ifPowered, hoff], rfl, ?_, ?_, hglb, ?_, ?_, ?_⟩
  · simp only [hdev]
    rw [Dev.rd_capture _ _ _ _ _ _ _ _ (by decide), Dev.rd_event _ _ _ _ (by decide), Dev.rd_wr_same _ _ _ (by decide)]
    rfl
  · simp only [hdev]
    exact (Dev.isr_capture _ (by decide) _ _ _ _ _ (by decide)).trans (Dev.isr_event _ 0 (by decide))
  · simp [hdev]
  · simp [hdev]
  · change Host.Outcome.next { s with dev := Dev.ifPowered (Dev.pwrfail false) (s.dev.pwrfail true) } = _
    rw [Dev.ifPowered, hglb, hoff]
    rfl

theorem powerPins : Said.PowerPins :=
  ⟨vddAonLoss_loses, fun ns s haon hne => ⟨fun h => by simp [exec, execEoffN, onDev, Dev.eoff, show ¬50 ≤ ns by omega],
    eoffN_holds haon hne⟩, fun _ => pwrfailN_records⟩

/-- Settles O22. -/
theorem resetAndPins : Obligations.ResetAndPins := ⟨resetClears, powerPins⟩

/-! ### PERST_N and configuration requests -/

/-- A register that a reset of some others does not name keeps its value. -/
theorem Dev.word_tdrop {d e : Dev} {p : Nat → Bool} {a : Nat} (h : e.regs = tdrop p d.regs) (hp : p a = false) : e.word a = d.word a := by
  rw [Dev.word, h, tget_tdrop, hp]
  rfl

theorem perstNAssert_resets {s : State} (hoff : s.dev.glb.off = false) (hhigh : s.dev.rd F.GLB_PIN_STAT_PERST = 0) :
    ∃ t, exec .perstNAssert s = .next t ∧ t.store = s.store ∧ t.dev.rd F.GLB_PIN_STAT_PERST = 1 ∧
      t.dev.host.ops = [] ∧ t.dev.out = s.dev.out ++ [.pin "PCIE_TX_IDLE" 1] ∧ t.dev.home = s.dev.home ∧ t.dev.lnd = s.dev.lnd ∧
      t.dev.src = s.dev.src ∧ ∀ a, a / 0x1000 ≠ 0x18 → a ≠ 0x114 → t.dev.word a = s.dev.word a := by
  refine ⟨{ s with dev := s.dev.perstAssert }, by simp [exec, execPerstNAssert, Dev.ifPowered, hoff], rfl, ?_⟩
  simp only [Dev.perstAssert, hhigh, zero_ne_one, if_false]
  refine ⟨?_, by simp, by simp, by simp, by simp, by simp, fun a hpage hpin => ?_⟩
  · rw [Dev.rd_emit, Dev.rd_wr_same _ _ _ (by decide)]
    rfl
  · rw [Dev.word_emit, Dev.word_wr_ne _ _ _ _ hpin]
    exact Dev.word_tdrop (d := s.dev) (p := fun k => k / 4096 == 0x18 && !(decide (0x100 ≤ k % 4096) && decide (k % 4096 < 0x140) &&
      k % 16 != 0xC)) rfl (by simp [hpage])

theorem perstNRelease_trains {s : State} (hoff : s.dev.glb.off = false) (hlow : s.dev.rd F.GLB_PIN_STAT_PERST = 1) :
    ∃ t, exec .perstNRelease s = .next t ∧ t.store = s.store ∧ t.dev.rd F.GLB_PIN_STAT_PERST = 0 ∧
      t.dev.glb.pcieTraining = decide (s.dev.glb.hold = .none) ∧ t.dev.out = s.dev.out := by
  refine ⟨{ s with dev := s.dev.perstRelease }, by simp [exec, execPerstNRelease, Dev.ifPowered, hoff], rfl, ?_⟩
  simp only [Dev.perstRelease, hlow, one_ne_zero, if_false]
  refine ⟨?_, by simp [Bool.beq_eq_decide_eq], by simp⟩
  simp (disch := decide) [Dev.rd_wr_same]

section
variable {q : CfgReq} {d : Dev} (hstage : 2 ≤ d.rd F.GLB_BOOT_STAT_STAGE) (hhigh : d.rd F.GLB_PIN_STAT_PERST = 0)
  (hon : d.pageOn 0x18 = true)
include hhigh hon

theorem Dev.configRequest_early (hstage : d.rd F.GLB_BOOT_STAT_STAGE < 2) : d.configRequest q = (d.count 0x18 0 1).cpl q.id 2 [] := by
  have hs : (d.count 0x18 0 1).rd F.GLB_BOOT_STAT_STAGE = d.rd F.GLB_BOOT_STAT_STAGE := Dev.rdpi_count ..
  rw [Dev.configRequest, if_neg (by simp [hhigh, hon])]
  dsimp only
  rw [if_pos (by omega)]

include hstage

/-- A configuration request once the stage has reached MEMTRAIN completes with what the register's rules say. -/
theorem Dev.configRequest_reads (hq : q.write = none) : d.configRequest q =
    ((d.count 0x18 0 1).configRead q.reg).2.cpl q.id 0 ((d.count 0x18 0 1).configRead q.reg).1 := by
  have hs : (d.count 0x18 0 1).rd F.GLB_BOOT_STAT_STAGE = d.rd F.GLB_BOOT_STAT_STAGE := Dev.rdpi_count ..
  rw [Dev.configRequest, if_neg (by simp [hhigh, hon])]
  dsimp only
  rw [if_neg (by omega), hq]

theorem Dev.configRequest_writes {v : W32} (hq : q.write = some v) : d.configRequest q =
    ((d.count 0x18 0 1).configWrite q.reg v.toNat).cpl q.id 0 [] := by
  have hs : (d.count 0x18 0 1).rd F.GLB_BOOT_STAT_STAGE = d.rd F.GLB_BOOT_STAT_STAGE := Dev.rdpi_count ..
  rw [Dev.configRequest, if_neg (by simp [hhigh, hon])]
  dsimp only
  rw [if_neg (by omega), hq]

end

/-- A read of the configuration space changes nothing but what has been drawn. -/
theorem Dev.configRead_frame (d : Dev) (r : CfgReg) :
    (d.configRead r).2.regs = d.regs ∧ (d.configRead r).2.host = d.host ∧ (d.configRead r).2.out = d.out := by
  cases r <;> exact ⟨rfl, rfl, rfl⟩

theorem Dev.configWrite_frame (d : Dev) (r : CfgReg) (v : Nat) :
    (d.configWrite r v).regs = d.regs ∧ (d.configWrite r v).out = d.out := by
  unfold Dev.configWrite
  split
  · exact ⟨rfl, rfl⟩
  · split <;> exact ⟨rfl, rfl⟩
  · exact ⟨rfl, rfl⟩

@[simp] theorem Dev.cpl_frame (id status : Nat) (b : List Byte) (d : Dev) : (d.cpl id status b).regs = d.regs ∧
    (d.cpl id status b).host = d.host ∧ (d.cpl id status b).out = d.out ++ [.cpl id status b] := by
  simp [Dev.cpl]

theorem configurationRequest_answers {q : CfgReq} {s : State} (hrun : s.dev.running = true) (hhigh : s.dev.rd F.GLB_PIN_STAT_PERST = 0)
    (hon : s.dev.pageOn 0x18 = true) :
    ∃ t, exec (.configurationRequest q) s = .next t ∧ t.store = s.store ∧ t.dev.regs = s.dev.regs ∧
      (s.dev.rd F.GLB_BOOT_STAT_STAGE < 2 → t.dev.out = s.dev.out ++ [.cpl q.id 2 []] ∧ t.dev.host = s.dev.host) ∧
      (2 ≤ s.dev.rd F.GLB_BOOT_STAT_STAGE → ∃ b, t.dev.out = s.dev.out ++ [.cpl q.id 0 b] ∧
        (q.write = none → t.dev.host = s.dev.host ∧ (q.reg = .identity → b = natLE 2 Config.vendorId.toNat ++ natLE 2 0xD128) ∧
          (q.reg = .msix → b = natLE 2 2047)) ∧
        (∀ v, q.write = some v → q.reg = .power → v.toNat % 4 = 3 → t.dev.host = { s.dev.host with d3hot := true })) := by
  refine ⟨{ s with dev := s.dev.configRequest q }, ifRuns_next rfl hrun, rfl, ?_⟩
  dsimp only
  by_cases hstage : s.dev.rd F.GLB_BOOT_STAT_STAGE < 2
  · rw [Dev.configRequest_early hhigh hon hstage]
    exact ⟨by simp, fun _ => by simp, fun h => absurd h (by omega)⟩
  · have hge : 2 ≤ s.dev.rd F.GLB_BOOT_STAT_STAGE := by omega
    cases hq : q.write with
    | none =>
      obtain ⟨hregs, hhost, hout⟩ := Dev.configRead_frame (s.dev.count 0x18 0 1) q.reg
      rw [Dev.configRequest_reads hge hhigh hon hq]
      refine ⟨by simp [hregs], fun h => absurd h hstage, fun _ => ⟨_, (Dev.cpl_frame ..).2.2.trans (congrArg (· ++ [_]) (hout.trans (by simp))), fun _ => ⟨by simp [hhost], ?_, ?_⟩, by simp⟩⟩
      · intro h
        rw [h, Dev.configRead]
      · intro h
        rw [h, Dev.configRead]
    | some v =>
      obtain ⟨hregs, hout⟩ := Dev.configWrite_frame (s.dev.count 0x18 0 1) q.reg v.toNat
      rw [Dev.configRequest_writes hge hhigh hon hq]
      refine ⟨by simp [hregs], fun h => absurd h hstage, fun _ => ⟨[], by simp [hout], by simp, ?_⟩⟩
      intro w hw hpower h3
      obtain rfl : v = w := by simpa using hw
      simp [hpower, Dev.configWrite, h3]

/-- Settles O23. -/
theorem hostReset : Obligations.HostReset := fun _ hoff =>
  ⟨perstNAssert_resets hoff, perstNRelease_trains hoff, fun _ => configurationRequest_answers⟩

end Sys2Proof.Machine


/-!
SUPPORT. O24 and O25: the stages of start-up, the fail-stop of a FATAL error, and the domain join (R482, R483, R530, R531, R533, R586,
R588, R590–R592).
-/
namespace Sys2Proof.Machine

/-! ### The fail-stop -/

/-- `d` once a FATAL error of page `p` is captured and stands in ERR_FATAL. -/
def Dev.fatalNoted (p code det : Nat) (d : Dev) : Dev :=
  (((d.capture p .fatal 0 code 0x3F det).fatalTime.wr F.ERR_FATAL_INTERNAL 1).wr F.ERR_FATAL_PAGE (p % 256)).wr F.ERR_FATAL_CODE code

/-- `d` held by the fail-stop, its transmitters idle. -/
def Dev.stopped (d : Dev) : Dev := Dev.txIdle { d with glb := { d.glb with hold := .failStop } }

theorem Dev.fatalNoted_glb (p code det : Nat) (d : Dev) : (d.fatalNoted p code det).glb = d.glb ∧ (d.fatalNoted p code det).home = d.home := by
  simp [Dev.fatalNoted]

theorem Dev.failStop_eq {d : Dev} (hhold : d.glb.hold = .none) (p code det : Nat) :
    d.failStop p code det = (d.fatalNoted p code det).stopped := by
  have hglb : (d.fatalNoted p code det).glb.hold = .none := by rw [(d.fatalNoted_glb p code det).1, hhold]
  have hdev : d.failStop p code det = (if (d.fatalNoted p code det).glb.hold = .none then
      ({ d.fatalNoted p code det with glb := { (d.fatalNoted p code det).glb with hold := .failStop } } : Dev)
      else d.fatalNoted p code det).txIdle := rfl
  rw [hdev, if_pos hglb]
  rfl

theorem Dev.fatalNoted_record {p code : Nat} (det : Nat) (hp : p < 256) (hc : code < 256) (d : Dev) :
    (d.fatalNoted p code det).rd F.ERR_FATAL_INTERNAL = 1 ∧ (d.fatalNoted p code det).rd F.ERR_FATAL_PAGE = p ∧
      (d.fatalNoted p code det).rd F.ERR_FATAL_CODE = code := by
  unfold Dev.fatalNoted
  generalize (d.capture p .fatal 0 code 0x3F det).fatalTime = e
  refine ⟨?_, ?_, ?_⟩
  · rw [Dev.rd_wr_ne _ _ _ _ (by decide), Dev.rd_wr_ne _ _ _ _ (by decide), Dev.rd_wr_same _ _ _ (by decide)]
    rfl
  · rw [Dev.rd_wr_ne _ _ _ _ (by decide), Dev.rd_wr_same _ _ _ (by decide)]
    change p % 256 % 256 = p
    omega
  · rw [Dev.rd_wr_same _ _ _ (by decide)]
    exact Nat.mod_eq_of_lt hc

theorem Dev.rd_stopped (d : Dev) (f : Fld) : d.stopped.rd f = d.rd f := Dev.rd_congr rfl f

theorem Dev.stopped_frame (d : Dev) : d.stopped.home = d.home := by simp [Dev.stopped, Dev.txIdle]

/-- A FATAL error of a package that no other hold holds. -/
theorem Dev.failStop_stops {d : Dev} (hhold : d.glb.hold = .none) {p code : Nat} (det : Nat) (hp : p < 256) (hc : code < 256) :
    (d.failStop p code det).glb.hold = .failStop ∧ (d.failStop p code det).glb.transmitters = false ∧
      (d.failStop p code det).rd F.ERR_FATAL_INTERNAL = 1 ∧ (d.failStop p code det).rd F.ERR_FATAL_PAGE = p ∧
      (d.failStop p code det).rd F.ERR_FATAL_CODE = code ∧ (d.failStop p code det).home = d.home := by
  obtain ⟨hint, hpage, hcode⟩ := Dev.fatalNoted_record det hp hc d
  have hhome := (d.fatalNoted_glb p code det).2
  rw [Dev.failStop_eq hhold]
  generalize d.fatalNoted p code det = e at *
  exact ⟨rfl, rfl, (Dev.rd_stopped _ _).trans hint, (Dev.rd_stopped _ _).trans hpage, (Dev.rd_stopped _ _).trans hcode,
    (Dev.stopped_frame _).trans hhome⟩

theorem Dev.failStop_held {d : Dev} (hhold : d.glb.hold = .none) (p code det : Nat) : (d.failStop p code det).running = false := by
  simp [Dev.failStop, hhold, Dev.txIdle, Dev.running]

/-- What a fail-stop leaves of the registers outside the ERR page and the page's capture registers. -/
theorem Dev.word_failStop {d : Dev} {p a : Nat} (code det : Nat) (h : a / 0x1000 ≠ 0xC0) (ha : 0x40 ≤ a % 0x1000) :
    (d.failStop p code det).word a = d.word a := by
  have herr : ∀ (e : Dev) (f : Fld) (v : Nat), f.addr f.page 0 / 0x1000 = 0xC0 → (e.wr f v).word a = e.word a :=
    fun e f v hf => Dev.word_wr_ne _ _ _ _ fun hab => h (hab ▸ hf)
  have htime : ∀ e : Dev, e.fatalTime.word a = e.word a := fun e => by
    unfold Dev.fatalTime
    split
    · rw [herr _ _ _ (by decide), herr _ _ _ (by decide)]
    · rfl
  have hhold : ∀ e : Dev, (if e.glb.hold = .none then ({ e with glb := { e.glb with hold := .failStop } } : Dev) else e).word a = e.word a := by
    intro e
    split <;> rfl
  have hidle : ∀ e : Dev, e.txIdle.word a = e.word a := fun _ => rfl
  unfold Dev.failStop
  dsimp only
  rw [hidle, hhold, herr _ _ _ (by decide), herr _ _ _ (by decide), herr _ _ _ (by decide), htime, Dev.word_capture _ _ _ _ _ _ _ _ h ha]

theorem fatalFailStops : Said.FatalFailStops := fun p code s hrun hp hc =>
  have hhold : s.dev.glb.hold = .none := by simpa [Dev.running] using (Bool.and_eq_true_iff.mp hrun).2
  ⟨{ s with dev := s.dev.failStop p code 0 }, ifRuns_next (f := fun d => d.failStop p code 0) rfl hrun, rfl, Dev.failStop_stops hhold 0 hp hc⟩

/-! ### The stages of start-up -/

/-- The end of a stage's work, as the stage that stands says. -/
theorem bootStageComplete_stage {s : State} {w : BootWork} {y : Pkg} (hrun : s.dev.running = true) (h : bootStage w (s.store, s.dev) = y) :
    exec (.bootStageComplete w) s = .next (withPkg s y) := by
  change onAll (fun x => if x.2.running then bootStage w x else x) s = _
  simp only [onAll, hrun, if_true, h]
  rfl

@[simp] theorem Dev.deriveAlias_regs (i : ImageCheck) (d : Dev) : (d.deriveAlias i).regs = d.regs := by
  unfold Dev.deriveAlias
  split <;> rfl

/-- The alias key is derived while the identity key is not locked, and locks it (R533). -/
theorem Dev.deriveAlias_sec (i : ImageCheck) (d : Dev) : (d.deriveAlias i).sec.identityLocked = true ∧
    (d.deriveAlias i).sec.aliasKey = if d.sec.identityLocked then d.sec.aliasKey
      else some (Config.aliasKey (Config.identityKey Config.deviceSecret) i.digest i.svn) := by
  cases hlock : d.sec.identityLocked <;> simp [Dev.deriveAlias, Dev.identityKey, hlock]

theorem Dev.runImage_stage (i : ImageCheck) (which : Nat) (d : Dev) : (d.runImage i which).rd F.GLB_BOOT_STAT_STAGE = 2 ∧
    (d.runImage i which).rd F.SEC_BOOT_STAT_IMAGE = which % 4 := by
  simp (disch := decide) [Dev.runImage, Dev.rd_wr_ne, Dev.rd_wr_same, F.GLB_BOOT_STAT_STAGE, F.SEC_BOOT_STAT_IMAGE]

theorem Dev.runImage_sec (i : ImageCheck) (which : Nat) (d : Dev) : (d.runImage i which).sec.identityLocked = true ∧
    (d.runImage i which).sec.imageDigest = i.digest ∧ (d.runImage i which).sec.aliasKey = (d.deriveAlias i).sec.aliasKey := by
  simp [Dev.runImage, (d.deriveAlias_sec i).1]

theorem Dev.bootImage_primary {p q : ImageCheck} {d : Dev} (hp : d.imageOk p = true) : d.bootImage p q = d.runImage p 1 := if_pos hp

theorem Dev.bootImage_secondary {p q : ImageCheck} {d : Dev} (hp : d.imageOk p = false) (hq : d.imageOk q = true) :
    d.bootImage p q = d.runImage q 2 := by
  simp [Dev.bootImage, hp, hq]

theorem Dev.bootImage_verified {p q : ImageCheck} {d : Dev} (h : d.imageOk p = true ∨ d.imageOk q = true) :
    ∃ which, d.bootImage p q = d.runImage (if d.imageOk p = true then p else q) which := by
  by_cases hp : d.imageOk p = true
  · exact ⟨1, by rw [if_pos hp, Dev.bootImage_primary hp]⟩
  · exact ⟨2, by rw [if_neg hp, Dev.bootImage_secondary (by simpa using hp) (h.resolve_left hp)]⟩

/-- With neither image the core stays held, and IMAGE of SEC_BOOT_STAT says so (R531). -/
theorem Dev.bootImage_none {p q : ImageCheck} {d : Dev} (hp : d.imageOk p = false) (hq : d.imageOk q = false) :
    (d.bootImage p q).running = false ∧ (d.bootImage p q).rd F.SEC_BOOT_STAT_IMAGE = 3 ∧
      (d.bootImage p q).rd F.GLB_BOOT_STAT_STAGE = d.rd F.GLB_BOOT_STAT_STAGE := by
  simp (disch := decide) [Dev.bootImage, hp, hq, Dev.running, Dev.rd_wr_ne, Dev.rd_wr_same, F.SEC_BOOT_STAT_IMAGE]

theorem images_verified {p q : ImageCheck} {s : State} (hrun : s.dev.running = true) (hstage : s.dev.rd F.GLB_BOOT_STAT_STAGE = 1) :
    exec (.bootStageComplete (.images p q)) s = .next (withPkg s (s.store, s.dev.bootImage p q)) :=
  bootStageComplete_stage hrun (by simp [bootStage, hstage])

/-- READY (R586). -/
theorem Dev.ready_ready (d : Dev) : d.ready.rd F.GLB_BOOT_STAT_STAGE = 4 ∧ d.ready.rd F.GLB_BOOT_STAT_READY_MS = d.ns / 1000000 % 2 ^ 16 := by
  have hword : d.ready.word 0x104 = ((d.wr F.GLB_BOOT_STAT_STAGE 4).wr F.GLB_BOOT_STAT_READY_MS (d.ns / 1000000)).word 0x104 :=
    Dev.word_tryDetects_near (by decide) id _
  rw [Dev.rd_of_word F.GLB_BOOT_STAT_STAGE hword, Dev.rd_of_word F.GLB_BOOT_STAT_READY_MS hword, Dev.rd_wr_same _ _ _ (by decide),
    Dev.rd_wr_ne _ _ _ _ (by decide), Dev.rd_wr_same _ _ _ (by decide)]
  exact ⟨rfl, rfl⟩

theorem startUp : Said.StartUp := by
  intro s hrun
  refine ⟨fun h => ?_, fun p q h => ?_, fun h => ?_, fun h => ?_, fun g b h hhold => ?_, fun p q h hok => ?_⟩
  · exact bootStageComplete_stage (y := (s.store, s.dev.wr F.GLB_BOOT_STAT_STAGE 1)) hrun (by simp [bootStage, h])
  · refine ⟨_, images_verified hrun h, rfl, fun hp => ?_, fun hp hq => ?_, fun hp hq => ?_⟩
    · simp only [withPkg, Dev.bootImage_primary hp]
      exact Dev.runImage_stage p 1 s.dev
    · simp only [withPkg, Dev.bootImage_secondary hp hq]
      exact Dev.runImage_stage q 2 s.dev
    · exact h ▸ Dev.bootImage_none hp hq
  · exact bootStageComplete_stage (y := (s.store, s.dev.wr F.GLB_BOOT_STAT_STAGE 3)) hrun (by simp [bootStage, h])
  · exact ⟨_, bootStageComplete_stage (y := ({}, s.dev.ready)) hrun (by simp [bootStage, h]), rfl, s.dev.ready_ready⟩
  · refine ⟨_, bootStageComplete_stage (y := (s.store, s.dev.bootFail 0x29 0x10 (g % 4 + (b % 64) * 4))) hrun (by simp [bootStage, h]),
      rfl, ?_, ?_⟩
    · refine (Dev.rd_of_word F.GLB_BOOT_STAT_STAGE (Dev.word_failStop _ _ (by decide) (by decide))).trans ?_
      exact Dev.rd_wr_same _ _ _ (by decide)
    · exact Dev.failStop_held (by simpa using hhold) _ _ _
  · obtain ⟨which, himage⟩ := Dev.bootImage_verified hok
    obtain ⟨hlock, hdigest, halias⟩ := Dev.runImage_sec (if s.dev.imageOk p = true then p else q) which s.dev
    refine ⟨_, images_verified hrun h, ?_⟩
    simp only [withPkg, himage]
    exact ⟨if_pos hlock, hdigest, halias.trans (Dev.deriveAlias_sec _ _).2⟩

/-- Settles O24. -/
theorem startUpAndFailStop : Obligations.StartUpAndFailStop := ⟨startUp, fatalFailStops⟩

/-! ### The domain join -/

/-- `d` with the values of GLB_JOIN as its place: every manifest counter and source window afresh, BUFMODE fixed (R590, R591). -/
def Dev.placed (d : Dev) : Dev :=
  let e : Dev := { d with
    glb := { d.glb with join := some d.joinVals }
    src := { d.src with mani := [], win := [], winDec := [], winInit := d.rd F.CNG_WIN_MAX * 1024 } }
  ((e.wr F.GLB_JOIN_STAT_RESULT rDone).wr F.GLB_JOIN_STAT_JOINED 1).wr F.SWC_CFG_BUFMODE
    (b2n (decide (32 < d.joinVals.xDim * d.joinVals.yDim)))

theorem Dev.linkState_placed {p : Nat} (hp : p < 24) (d : Dev) : d.placed.linkState p = d.linkState p := by
  have haddr : ∀ q, F.PRT_STAT_STATE.addr q 0 = q * 0x1000 + 0x104 := fun _ => rfl
  have hword : d.placed.word (F.PRT_STAT_STATE.addr (0x80 + p) 0) = d.word (F.PRT_STAT_STATE.addr (0x80 + p) 0) := by
    rw [haddr]
    unfold Dev.placed
    dsimp only
    rw [Dev.word_wr_ne _ _ _ _ (show _ ≠ 0x60100 by omega), Dev.word_wr_ne _ _ _ _ (show _ ≠ 0x110 by omega),
      Dev.word_wr_ne _ _ _ _ (show _ ≠ 0x110 by omega)]
    rfl
  rw [Dev.linkState, if_pos hp, Dev.linkState, if_pos hp, Dev.rdp, Dev.rdp, Dev.rdpi, Dev.rdpi, hword]

/-- A join in order, while no fabric port is UP. -/
theorem Dev.joinCmd_places {d : Dev} (hnone : d.glb.join = none) (hstage : d.stage = 0) (hboot : d.booted = true)
    (hok : d.joinOk d.joinVals = true) (hup : ∀ p < 24, d.linkState p ≠ 5) : d.joinCmd = d.placed := by
  have hdev : d.joinCmd = (List.range 24).foldl (fun d p => if d.linkState p = 5 then d.sendParam p else d) d.placed := by
    simp only [Dev.joinCmd, hnone, hstage, hboot, hok]
    rfl
  rw [hdev]
  exact List.foldl_fixed_of_mem fun p hp =>
    if_neg (by rw [Dev.linkState_placed (List.mem_range.mp hp)]; exact hup p (List.mem_range.mp hp))

theorem Dev.placed_stat (d : Dev) : d.placed.glb.join = some d.joinVals ∧ d.placed.src.mani = [] ∧ d.placed.src.win = [] ∧
    d.placed.src.winInit = d.rd F.CNG_WIN_MAX * 1024 ∧ d.placed.rd F.GLB_JOIN_STAT_RESULT = rDone ∧
    d.placed.rd F.GLB_JOIN_STAT_JOINED = 1 ∧ d.placed.node = d.rd F.GLB_JOIN_NODE := by
  refine ⟨by simp [Dev.placed], by simp [Dev.placed], by simp [Dev.placed], by simp [Dev.placed], ?_, ?_,
    by simp [Dev.placed, Dev.node, Dev.joinVals]⟩
  · unfold Dev.placed
    dsimp only
    rw [Dev.rd_wr_ne _ _ _ _ (by decide), Dev.rd_wr_ne _ _ _ _ (by decide), Dev.rd_wr_same _ _ _ (by decide)]
    rfl
  · unfold Dev.placed
    dsimp only
    rw [Dev.rd_wr_ne _ _ _ _ (by decide), Dev.rd_wr_same _ _ _ (by decide)]
    rfl

theorem join_joins {m : Master} {v : W32} {s : State} (hopen : pageOpen s.dev m 0) (hown : s.dev.owns m 0 = true) :
    exec (.join m v) s = .next (withPkg s (Pkg.settle (s.store,
      ((tlp m s.dev).setWord 0x10C ((tlp m s.dev).newWord true 0 0x10C (putBit v.toNat 31 true))).joinCmd))) := by
  have hflds : fieldsAt 0 0x10C = [F.GLB_JOIN_CMD_GO] := by decide
  have hlt : putBit v.toNat 31 true < 2 ^ 32 := putBit_top_lt true v.isLt (by decide)
  have hwrite := aonWrite_taken (p := 0) (off := 0x10C) (v := putBit v.toNat 31 true) hopen (by decide) (by decide) (by decide) (by decide)
    (by decide) hlt (by decide) (mayWrite_owner hown (by decide)) (fun h => absurd h (by decide)) (by simp [hflds, Fld.accepts, F.GLB_JOIN_CMD_GO])
  have hgo : bit (putBit v.toNat 31 true) 31 = true := bit_putBit_same _ _ _
  refine (show exec (.join m v) s = regOut m (0 * 0x1000 + 0x10C) 4 (putBit v.toNat 31 true) s from rfl).trans (hwrite.trans ?_)
  rw [Pkg.aonWritten, if_pos rfl, hgo, if_pos ⟨rfl, rfl⟩]
  rfl

theorem trainedReached_trains {s : State} (hrun : s.dev.running = true) (hstage : s.dev.stage = 0) (hjoin : s.dev.glb.join.isSome = true)
    (hup : ∃ p < 24, s.dev.linkState p = 5) (htime : s.dev.timeState = 2 ∨ s.dev.timeState = 4) :
    exec .trainedReached s = .next { s with dev := s.dev.wr F.RCV_SLIPWAY_STAGE 1 } := by
  obtain ⟨p, hp, hstate⟩ := hup
  have hany : (List.range 24).any (fun p => s.dev.linkState p == 5) = true :=
    List.any_eq_true.mpr ⟨p, List.mem_range.mpr hp, beq_iff_eq.mpr hstate⟩
  refine (ifRuns_next (f := Dev.trainedReached) rfl hrun).trans ?_
  rw [Dev.trainedReached, if_pos ⟨hstage, hjoin, hany, htime⟩]

/-- Settles O25. -/
theorem domainJoin : Obligations.DomainJoin := by
  refine ⟨fun d hnone hstage hboot hok hup => ?_, fun d j hj => ⟨fun h => ?_, fun h => ?_⟩, fun _ _ _ => join_joins,
    fun _ => trainedReached_trains⟩
  · rw [Dev.joinCmd_places hnone hstage hboot hok hup]
    exact d.placed_stat
  · simp [Dev.joinCmd, hj, h]
  · simp [Dev.joinCmd, hj, Ne.symm h]

end Sys2Proof.Machine


/-!
SUPPORT. What the switch and the links leave of the package: the control and status words of every page header and the numbers of units
(R17, R603–R605).
-/
namespace Sys2Proof.Machine

/-- The numbers of units of the package, and whether every array has its stores and banks (R17, R85, R256, R274, R348, R349). -/
def Dev.shape (d : Dev) : List Nat × Bool :=
  ([d.lnd.length, d.xlt.ltb.length, d.links.length, d.fry.subs.length, d.fry.engs.length, d.fry.arrs.length],
    d.fry.arrs.all (fun r => decide (r.progs.length = 4) && decide (r.banks.length = 4)))

theorem shaped_iff {d : Dev} : shaped d ↔ d.shape = ([4, 4, 28, 64, 32, 16], true) := by
  simp only [shaped, Dev.shape, Prod.mk.injEq, List.cons.injEq, List.all_eq_true, Bool.and_eq_true, decide_eq_true_eq, and_assoc, and_true]

/-- From `d` to `e` no block has been quiesced, enabled or reset by a write, and the units of the package are as many as they were: the words of
BLK_CTRL and BLK_STAT of every page are as they were. -/
structure Dev.Steady (d e : Dev) : Prop where
  word : ∀ a, 0x0C ≤ a % 0x1000 → a % 0x1000 < 0x14 → e.word a = d.word a
  shape : e.shape = d.shape

namespace Dev.Steady

theorem refl (d : Dev) : d.Steady d := ⟨fun _ _ _ => rfl, rfl⟩

theorem trans {d e f : Dev} (h : d.Steady e) (k : e.Steady f) : d.Steady f :=
  ⟨fun a h1 h2 => (k.word a h1 h2).trans (h.word a h1 h2), k.shape.trans h.shape⟩

/-- What keeps the registers and the units. -/
theorem of_regs {d e : Dev} (h : e.regs = d.regs) (hs : e.shape = d.shape) : d.Steady e := ⟨fun a _ _ => Dev.word_congr h a, hs⟩

theorem foldl_mem {α : Type} {f : Dev → α → Dev} {l : List α} (h : ∀ x ∈ l, ∀ d : Dev, d.Steady (f d x)) (d : Dev) : d.Steady (l.foldl f d) := by
  induction l generalizing d with
  | nil => exact .refl d
  | cons x l ih => exact (h x (by simp) d).trans (ih (fun y hy => h y (by simp [hy])) _)

theorem foldl {α : Type} {f : Dev → α → Dev} (h : ∀ (d : Dev) (x : α), d.Steady (f d x)) (l : List α) (d : Dev) : d.Steady (l.foldl f d) :=
  foldl_mem (fun x _ d => h d x) d

theorem ite {d e f : Dev} {c : Prop} [Decidable c] (he : d.Steady e) (hf : d.Steady f) : d.Steady (if c then e else f) := by
  split
  · exact he
  · exact hf

end Dev.Steady

section
variable (d : Dev)

theorem Dev.steady_setWord {a : Nat} (h : a % 0x1000 < 0x0C ∨ 0x14 ≤ a % 0x1000) (v : Nat) : d.Steady (d.setWord a v) :=
  ⟨fun b h1 h2 => Dev.word_setWord_ne _ _ (by rintro rfl; omega), rfl⟩

/-- A field of a page's own register. -/
theorem Dev.steady_wrpi {f : Fld} {p i : Nat} (h : 0x14 ≤ f.off + f.stride * i) (h2 : f.off + f.stride * i < 0x1000) (v : Nat) :
    d.Steady (d.wrpi f p i v) :=
  d.steady_setWord (Or.inr (by unfold Fld.addr Fld.at; omega)) _

theorem Dev.steady_wrp {f : Fld} {p : Nat} (h : 0x14 ≤ f.off) (h2 : f.off < 0x1000) (v : Nat) : d.Steady (d.wrp f p v) :=
  d.steady_wrpi (by simpa using h) (by simpa using h2) v

theorem Dev.steady_wr {f : Fld} (h : 0x14 ≤ f.off) (h2 : f.off < 0x1000) (v : Nat) : d.Steady (d.wr f v) := d.steady_wrp h h2 v

theorem Dev.steady_emit (e : Emit) : d.Steady (d.emit e) := .of_regs rfl rfl

theorem Dev.steady_count (p i k : Nat) : d.Steady (d.count p i k) := .of_regs (by simp) (by unfold Dev.count; split <;> rfl)

theorem Dev.steady_hostWrite (a : Nat) (v : List Byte) : d.Steady (d.hostWrite a v) :=
  .ite (d.steady_count ..) ((d.steady_count ..).trans (Dev.steady_emit ..))

theorem Dev.steady_msix (n : Nat) : d.Steady (d.msix n) := .ite (d.steady_count ..) ((d.steady_count ..).trans (Dev.steady_emit ..))

theorem Dev.steady_event (p i : Nat) : d.Steady (d.event p i) :=
  (d.steady_setWord (by omega) _).trans (.ite (Dev.steady_msix ..) (.refl _))

theorem Dev.steady_errLog (p : Nat) : d.Steady (d.errLog p) := by
  refine .ite (.refl _) (.ite ?_ ((Dev.steady_wr _ (by decide) (by decide) _).trans (Dev.steady_event ..)))
  exact ((d.steady_hostWrite ..).trans (Dev.steady_wr _ (by decide) (by decide) _)).trans (.ite (Dev.steady_msix ..) (.refl _))

theorem Dev.steady_capture (p : Nat) (c : ECls) (st code port det : Nat) : d.Steady (d.capture p c st code port det) := by
  have hword : ∀ (e : Dev) (k v : Nat), 0x14 ≤ k → k < 0x1000 → e.Steady (e.setWord (p * 0x1000 + k) v) :=
    fun e k v h1 h2 => e.steady_setWord (by omega) v
  refine (d.steady_wrp (f := F.BLK_ERR_CNT_ERRORS) (by decide) (by decide) _).trans (.ite (Dev.steady_wrp _ (by decide) (by decide) _) ?_)
  exact (((((hword _ 0x20 _ (by decide) (by decide)).trans (hword _ 0x24 _ (by decide) (by decide))).trans
    (hword _ 0x28 _ (by decide) (by decide))).trans (hword _ 0x2C _ (by decide) (by decide))).trans (Dev.steady_event ..)).trans
    (Dev.steady_errLog ..)

/-! ### Links -/

/-- The page of a port's link registers, and a field of them. -/
theorem Dev.steady_lwr {f g : Fld} (hf : 0x14 ≤ f.off) (hf2 : f.off < 0x1000) (hg : 0x14 ≤ g.off) (hg2 : g.off < 0x1000) (p v : Nat) :
    d.Steady (d.lwr p f g v) := by
  unfold Dev.lwr
  split
  · exact d.steady_wrp hf hf2 v
  · exact d.steady_wrp hg hg2 v

theorem Dev.shape_modAt_links (f : Link → Link) (p : Nat) : ({ d with links := modAt f d.links p } : Dev).shape = d.shape := by
  simp [Dev.shape, length_modAt]

theorem Dev.shape_modAt_lnd (f : Lnd → Lnd) (n : Nat) : ({ d with lnd := modAt f d.lnd n } : Dev).shape = d.shape := by
  simp [Dev.shape, length_modAt]

theorem Dev.steady_setLink (p : Nat) (l : Link) : d.Steady (d.setLink p l) := .of_regs rfl (d.shape_modAt_links _ _)

theorem Dev.steady_setLnd (n : Nat) (f : Lnd → Lnd) : d.Steady (d.setLnd n f) := .of_regs rfl (d.shape_modAt_lnd f n)

theorem Dev.steady_setLinkState (p v : Nat) : d.Steady (d.setLinkState p v) :=
  d.steady_lwr (f := F.PRT_STAT_STATE) (g := F.LNDL_STAT_STATE) (by decide) (by decide) (by decide) (by decide) p v

theorem Dev.steady_setSlack (p mask : Nat) : d.Steady (d.setSlack p mask) :=
  (d.steady_setLink ..).trans (Dev.steady_lwr _ (f := F.PRT_STAT_SLACK_LANES) (g := F.LNDL_LANES_SLACK_LANES) (by decide) (by decide)
    (by decide) (by decide) ..)

theorem Dev.steady_eyeEnd (page : Nat) (aborted : Bool) : d.Steady (d.eyeEnd page aborted) := by
  unfold Dev.eyeEnd
  refine Dev.Steady.trans ?_ (Dev.steady_event ..)
  refine Dev.Steady.trans ?_ (Dev.steady_wrp _ (f := F.PHY_EYE_STAT_ABORTED) (by decide) (by decide) _)
  refine Dev.Steady.trans ?_ (Dev.steady_wrp _ (f := F.PHY_EYE_STAT_BUSY) (by decide) (by decide) _)
  exact .of_regs rfl rfl

theorem Dev.steady_eyeAbort (p mask : Nat) : d.Steady (d.eyeAbort p mask) := .ite (d.steady_eyeEnd ..) (.refl d)

theorem Dev.steady_setMap (p w mask : Nat) : d.Steady (d.setMap p w mask) :=
  (((d.steady_setSlack ..).trans (Dev.steady_eyeAbort ..)).trans
    (Dev.steady_lwr _ (f := F.PRT_STAT_WIDTH) (g := F.LNDL_STAT_WIDTH) (by decide) (by decide) (by decide) (by decide) ..)).trans
    (Dev.steady_lwr _ (f := F.PRT_STAT_LANE_MAP) (g := F.LNDL_STAT_LANE_MAP) (by decide) (by decide) (by decide) (by decide) ..)

theorem Dev.steady_sendTone (p : Nat) : d.Steady (d.sendTone p) :=
  ((d.steady_setSlack ..).trans (Dev.steady_emit ..)).trans (Dev.steady_emit ..)

theorem Dev.steady_tryDetect (p : Nat) : d.Steady (d.tryDetect p) :=
  .ite (((d.steady_setLinkState ..).trans (Dev.steady_setLink ..)).trans (Dev.steady_sendTone ..)) (.refl d)

theorem Dev.steady_linkCount (p k n : Nat) : d.Steady (d.linkCount p k n) := d.steady_count ..

theorem Dev.steady_linkDownEvent (p : Nat) : d.Steady (d.linkDownEvent p) := d.steady_event ..

theorem Dev.steady_timeLinkDown : d.Steady d.timeLinkDown :=
  .ite (((d.steady_wr (by decide) (by decide) _).trans (Dev.steady_capture ..)).trans (Dev.steady_event ..)) (.refl d)

theorem Dev.steady_swc (f : Swc) : d.Steady { d with swc := f } := .of_regs rfl rfl

theorem Dev.steady_setLinkDown (p : Nat) : d.Steady (d.setLinkDown p) := by
  have hlnd : ∀ (e : Dev) (f : Lnd → Lnd), e.Steady (if p < 24 then e else { e with lnd := modAt f e.lnd (p - 24) }) :=
    fun e f => .ite (.refl e) (.of_regs rfl (e.shape_modAt_lnd f _))
  unfold Dev.setLinkDown
  dsimp only
  exact (d.steady_swc _).trans ((hlnd _ _).trans (Dev.steady_setLink ..))

/-! ### The switch -/

end

/-- `R` holds over each change that the frames of the switch core make: its queues, its counters, the numbers of copies and what a full
mirror buffer raises, the slots to return to a partner. -/
structure SwitchKeeps (R : Dev → Dev → Prop) : Prop where
  refl : ∀ d, R d d
  trans : ∀ {d e f : Dev}, R d e → R e f → R d f
  swc : ∀ (d : Dev) (f : Swc), R d { d with swc := f }
  count : ∀ (d : Dev) (p i k : Nat), R d (d.count p i k)
  event : ∀ d : Dev, R d (d.event 0x69 0)
  seq : ∀ (d : Dev) (s v : Nat), s < 4 → R d (d.wri F.MIR_SESS_SEQ_SEQ s v)
  owed : ∀ (d : Dev) (p : Nat) (f : Tbl Nat → Tbl Nat), R d { d with links := modAt (fun l => { l with owed := f l.owed }) d.links p }

namespace SwitchKeeps
variable {R : Dev → Dev → Prop} (h : SwitchKeeps R) (d : Dev)
include h

omit h in
theorem ite (_h : SwitchKeeps R) {d e f : Dev} {c : Prop} [Decidable c] (he : R d e) (hf : R d f) : R d (if c then e else f) := by
  split
  · exact he
  · exact hf

theorem foldl_mem {α : Type} {f : Dev → α → Dev} {l : List α} (hf : ∀ x ∈ l, ∀ d : Dev, R d (f d x)) (d : Dev) : R d (l.foldl f d) := by
  induction l generalizing d with
  | nil => exact h.refl d
  | cons x l ih => exact h.trans (hf x (by simp) d) (ih (fun y hy => hf y (by simp [hy])) _)

theorem foldl {α : Type} {f : Dev → α → Dev} (hf : ∀ (d : Dev) (x : α), R d (f d x)) (l : List α) (d : Dev) : R d (l.foldl f d) :=
  h.foldl_mem (fun x _ d => hf d x) d

theorem setVoq (inp out cls : Nat) (q : List QFrame) : R d (d.setVoq inp out cls q) := h.swc d _

theorem spillAt (q : QFrame) : R d (d.spillAt q).2 := h.swc d _

theorem swcCount (p k n : Nat) : R d (d.swcCount p k n) := h.count d _ _ _

theorem recvWait (q : QFrame) : R d (d.recvWait q) := h.swc d _

theorem holdFrame (q : QFrame) : R d (d.holdFrame q) := h.swc d _

theorem mirCopy {s : Nat} (hs : s < 4) (p point : Nat) (f : Frame) : R d (d.mirCopy s p point f) := by
  unfold Dev.mirCopy
  dsimp only
  refine h.trans (h.seq d s _ hs) (h.ite ?_ (h.trans (h.count ..) (h.event _)))
  exact h.trans (h.swc _ _) (h.count ..)

theorem mirAt (p point : Nat) (f : Frame) : R d (d.mirAt p point f) := by
  unfold Dev.mirAt
  split
  · exact h.foldl_mem (fun s hs e => h.ite (h.mirCopy e (List.mem_range.mp hs) ..) (h.refl e)) d
  · exact h.refl d

theorem strayCount (q : QFrame) : R d (d.strayCount q).2 := by
  unfold Dev.strayCount
  split
  · exact h.refl d
  · exact h.count d ..

theorem enqueue (out : Nat) (q : QFrame) : R d (d.enqueue out q) := h.setVoq d ..

theorem freeSlots (inp cls ch slots : Nat) : R d (d.freeSlots inp cls ch slots) :=
  h.ite (h.owed d inp (fun t => nset t (4 * cls + ch) (nget t (4 * cls + ch) + slots))) (h.refl d)

theorem freeFrame (q : QFrame) : R d (d.freeFrame q) := h.ite (h.refl d) (h.freeSlots d ..)

theorem cacheFrame (out : Nat) (q : QFrame) : R d (d.cacheFrame out q) := h.trans (h.freeFrame d q) (h.enqueue ..)

theorem spillFrame (out : Nat) (q : QFrame) (room : Option Bool) : R d (d.spillFrame out q room) := by
  cases room with
  | none => exact h.recvWait d q
  | some fl => exact h.trans (h.trans (h.trans (h.freeFrame d q) (h.spillAt ..)) (h.enqueue ..)) (h.swcCount ..)

theorem evict (v : Voq) (x : QFrame) (rest : List QFrame) : R d (d.evict v x rest) :=
  h.trans (h.trans (h.trans (h.setVoq d ..) (h.foldl (fun e _ => h.mirAt e ..) _ _)) (h.swcCount ..)) (h.swcCount ..)

theorem makeRoom (n : Nat) (q : QFrame) (tie : Nat) : R d (d.makeRoom n q tie).2 := by
  induction n generalizing q d with
  | zero => exact h.refl d
  | succ n ih =>
    rw [Dev.makeRoom]
    split
    · exact h.refl d
    · split
      · split
        · exact h.refl d
        · split
          · exact h.refl d
          · refine h.trans ?_ (ih _ _)
            split
            · dsimp only
              split
              · exact h.trans (h.trans (h.evict d ..) (ih _ _)) (h.spillFrame ..)
              · exact h.trans (h.evict d ..) (h.cacheFrame ..)
            · exact h.trans (h.evict d ..) (h.holdFrame ..)
            · exact h.trans (h.evict d ..) (h.recvWait ..)
      · exact h.refl d

theorem place (out : Nat) (q : QFrame) (tie : Nat) : R d (d.place out q tie) :=
  h.ite (h.recvWait d q) (h.ite (h.trans (h.makeRoom d ..) (h.spillFrame ..)) (h.cacheFrame d ..))

theorem pairInVoq (v : Voq) (i : Nat) (q w : QFrame) (tie : Nat) : R d (d.pairInVoq v i q w tie) := by
  unfold Dev.pairInVoq
  dsimp only
  refine h.ite (h.recvWait d w) (h.ite ?_ (h.ite ?_ (h.recvWait d w)))
  · exact h.trans (h.trans (h.setVoq d ..) (h.freeFrame ..)) (h.setVoq ..)
  · have hroom := h.trans (h.setVoq d v.inp v.out v.cls (v.q.eraseIdx i)) (h.makeRoom _ d.placeFuel (q.pair w.f) tie)
    generalize (d.setVoq v.inp v.out v.cls (v.q.eraseIdx i)).makeRoom
      d.placeFuel (q.pair w.f) tie = r at *
    split
    · next fl _ =>
      have hspill := h.trans (h.trans hroom (h.freeFrame _ w)) (h.spillAt _ { q.pair w.f with inFloor := fl })
      generalize (r.2.freeFrame w).spillAt { q.pair w.f with inFloor := fl } = c at *
      exact h.trans (h.trans hspill (h.setVoq ..)) (h.swcCount ..)
    · exact h.trans (h.trans hroom (h.setVoq ..)) (h.recvWait ..)

theorem attachData (w : QFrame) (tie : Nat) : R d (d.attachData w tie) := by
  unfold Dev.attachData
  dsimp only
  refine h.ite (h.swc d _) (h.ite (h.trans (h.freeFrame d w) (h.swc ..)) ?_)
  split
  · split
    · exact h.pairInVoq d ..
    · exact h.refl d
  · split
    · exact h.freeFrame d w
    · exact h.ite (h.trans (h.freeFrame d w) (h.setVoq ..)) (h.recvWait d w)

theorem admitFrame (q : QFrame) (tie : Nat) : R d (d.admitFrame q tie) := by
  unfold Dev.admitFrame
  dsimp only
  refine h.ite (h.attachData d ..) (h.trans (h.strayCount d q) ?_)
  split
  · exact h.place ..
  · exact h.trans (h.freeFrame ..) (h.holdFrame ..)
  · exact h.recvWait ..

theorem retryRecv : R d d.retryRecv :=
  h.trans (h.swc d _) (h.foldl (fun e q => h.ite (h.recvWait e q) (h.admitFrame e q 0)) _ _)

theorem relook (a : Dev × List QFrame) (q : QFrame) : R a.1 (Dev.relook a q).1 := by
  unfold Dev.relook
  dsimp only
  refine h.trans (h.strayCount a.1 { q with credit := none, paid := true }) ?_
  split
  · split
    · exact h.refl _
    · exact h.setVoq ..
  · split
    · exact h.refl _
    · exact h.holdFrame ..
  · exact h.refl _

theorem relookAll (qs : List QFrame) : R d (d.relookAll qs) := by
  have hfold : ∀ (l : List QFrame) (a : Dev × List QFrame), R a.1 (l.foldl Dev.relook a).1 := by
    intro l
    induction l with
    | nil => exact fun a => h.refl a.1
    | cons q l ih => exact fun a => h.trans (h.relook a q) (ih _)
  exact h.trans (hfold qs (d, [])) (h.swc ..)

theorem requeue (out : Nat) : R d (d.requeue out) :=
  h.trans (h.trans (h.swc d _) (h.foldl (fun e _ => h.swcCount e ..) _ _)) (h.relookAll ..)

end SwitchKeeps

/-- The switch core leaves BLK_CTRL and the units as they are. -/
theorem steady_switch : SwitchKeeps Dev.Steady where
  refl := .refl
  trans := .trans
  swc := Dev.steady_swc
  count := Dev.steady_count
  event := fun d => d.steady_event ..
  seq := fun d s v hs => by
    have hseq : 0x14 ≤ F.MIR_SESS_SEQ_SEQ.off + F.MIR_SESS_SEQ_SEQ.stride * s ∧
        F.MIR_SESS_SEQ_SEQ.off + F.MIR_SESS_SEQ_SEQ.stride * s < 0x1000 := by
      simp only [F.MIR_SESS_SEQ_SEQ]; omega
    exact d.steady_wrpi hseq.1 hseq.2 _
  owed := fun d p f => .of_regs rfl (d.shape_modAt_links _ p)

section
variable (d : Dev)

theorem Dev.steady_linkGoDown (p : Nat) (record capture : Bool) : d.Steady (d.linkGoDown p record capture) := by
  unfold Dev.linkGoDown
  dsimp only
  refine Dev.Steady.trans (Dev.Steady.trans ?_ (Dev.steady_timeLinkDown _)) (Dev.steady_tryDetect ..)
  have hdown := (((d.steady_setLinkState p 0).trans (Dev.steady_setMap _ p 0 0)).trans (Dev.steady_setLinkDown _ p)).trans
    (Dev.steady_lwr _ (f := F.PRT_PARTNER_VALID) (g := F.LNDL_PARTNER_VALID) (by decide) (by decide) (by decide) (by decide) p 0)
  generalize ((setMap (d.setLinkState p 0) p 0 0).setLinkDown p).lwr p F.PRT_PARTNER_VALID F.LNDL_PARTNER_VALID 0 = e at *
  refine hdown.trans (.ite ?_ (.refl e))
  have hevent := (e.steady_linkDownEvent p).trans (Dev.steady_linkCount _ p 6 1)
  generalize (e.linkDownEvent p).linkCount p 6 1 = f at *
  have hcapture : e.Steady (if capture = true then f.capture (linkPage p) .degraded 0 0x08 (min p 0x3F) 0 else f) :=
    hevent.trans (.ite (f.steady_capture ..) (.refl f))
  generalize (if capture = true then f.capture (linkPage p) .degraded 0 0x08 (min p 0x3F) 0 else f) = g at *
  exact hcapture.trans (.ite ((steady_switch.requeue g p).trans (steady_switch.retryRecv _)) (.refl g))

end

end Sys2Proof.Machine


/-!
SUPPORT. O8: BLK_CTRL, the end of a drain and of a soft reset (R604, R605, R610).
-/
namespace Sys2Proof.Machine

/-! ### What a soft reset leaves of BLK_CTRL and BLK_STAT -/

section
variable (d : Dev) (p : Nat)

theorem Dev.steady_resetLink (holds : Bool) : d.Steady (d.resetLink p holds) := by
  unfold Dev.resetLink
  dsimp only
  have hcfg : d.Steady (if holds = true then d.lwr p F.PRT_CFG_ENABLE F.LNDL_CFG_ENABLE 0 else d) :=
    .ite (d.steady_lwr (by decide) (by decide) (by decide) (by decide) ..) (.refl d)
  generalize (if holds = true then d.lwr p F.PRT_CFG_ENABLE F.LNDL_CFG_ENABLE 0 else d) = e at *
  exact hcfg.trans (.ite (.refl e) (e.steady_linkGoDown ..))

theorem Dev.cmpVoids_frame (l : List Nat) : (l.foldl (fun (d : Dev) r => d.cmpVoid r) d).regs = d.regs ∧
    (l.foldl (fun (d : Dev) r => d.cmpVoid r) d).cnts = d.cnts := by
  induction l generalizing d with
  | nil => exact ⟨rfl, rfl⟩
  | cons r l ih => exact ih _

theorem Dev.fryFresh_frame (k : Nat) : (d.fryFresh k).regs = d.regs ∧ (d.fryFresh k).cnts = d.cnts := by
  unfold Dev.fryFresh
  exact d.cmpVoids_frame _

/-- What a page's block holds beside its registers is no register and no counter. -/
theorem Dev.blockFresh_frame : (d.blockFresh p).regs = d.regs ∧ (d.blockFresh p).cnts = d.cnts := by
  unfold Dev.blockFresh
  split_ifs
  · exact ⟨rfl, rfl⟩
  · exact ⟨rfl, rfl⟩
  · exact ⟨rfl, rfl⟩
  · exact ⟨rfl, rfl⟩
  · exact d.fryFresh_frame _
  · exact ⟨rfl, rfl⟩
  · exact ⟨rfl, rfl⟩
  · exact ⟨rfl, rfl⟩

/-- A soft reset takes a port's link DOWN, then resets the page. -/
theorem Dev.softReset_eq : ∃ e, d.Steady e ∧ d.softReset p = ((e.softRegs p).blockFresh p).wrp F.BLK_STAT_SRST_BUSY p 1 := by
  unfold Dev.softReset
  split
  · exact ⟨_, d.steady_resetLink _ _, rfl⟩
  · exact ⟨_, .refl d, rfl⟩

/-- A soft reset leaves BLK_CTRL, and of BLK_STAT all but SRST_BUSY. -/
theorem Dev.word_softReset {a : Nat} (h : 0x0C ≤ a % 0x1000) (h2 : a % 0x1000 < 0x14) (hstat : a ≠ p * 0x1000 + 0x10) :
    (d.softReset p).word a = d.word a := by
  obtain ⟨e, hlink, hreset⟩ := d.softReset_eq p
  have hregs : (e.softRegs p).word a = e.word a :=
    Dev.word_tdrop (p := fun a => a / 0x1000 == p && !softKeeps (a % 0x1000)) rfl (by simp [softKeeps, show a % 4096 < 0x14 from h2])
  rw [hreset, Dev.wrp, Dev.word_wrpi_ne _ _ _ _ _ _ (show a ≠ p * 0x1000 + 0x10 from hstat), Dev.word_congr (Dev.blockFresh_frame _ _).1,
    hregs, hlink.word a h h2]

theorem Dev.softReset_busy : (d.softReset p).rdp F.BLK_STAT_SRST_BUSY p = 1 := by
  obtain ⟨e, -, hreset⟩ := d.softReset_eq p
  rw [hreset]
  exact Dev.rdpi_wrpi_same _ _ _ _ _ (by decide)

theorem Dev.counter_softReset {i : Nat} (hi : i < 1024) : (d.softReset p).counter p i = 0 := by
  obtain ⟨e, -, hreset⟩ := d.softReset_eq p
  have hcnts : ((e.softRegs p).blockFresh p).cnts = tdrop (fun c => c / 1024 == p) e.cnts := (Dev.blockFresh_frame _ _).2
  rw [hreset, Dev.wrp, Dev.counter_congr (d := (e.softRegs p).blockFresh p) (by simp), Dev.counter, hcnts]
  refine (tget_tdrop _ _ _ _).trans (if_pos ?_)
  simp only [beq_iff_eq]
  omega

end

/-! ### A write of BLK_CTRL -/

section
variable (m : Master) (p w : Nat) (d : Dev)

/-- `d` with the ENABLE and QUIESCE parts of a write of BLK_CTRL, and SOFT_RESET where it is accepted. -/
def Dev.ctrlReset : Dev := if bit w 2 ∧ d.softOk p then (d.ctrlParts p w).2.softReset p else (d.ctrlParts p w).2

/-- `d` with CNT_CLEAR and CNT_FREEZE of a write of BLK_CTRL. -/
def Dev.ctrlCounters : Dev := (if bit w 4 then d.clearCounters p else d).wrp F.BLK_CTRL_CNT_FREEZE p (bits w 3 1)

/-- A write of BLK_CTRL is its parts one after the other; what is dropped of it is captured. -/
theorem Dev.ctrlWrite_eq : d.ctrlWrite m p w = if (d.ctrlParts p w).1 ∨ (bit w 2 ∧ !d.softOk p) then
    ((d.ctrlReset p w).ctrlCounters p w).dropWrite m p 0x0C w 3 else (d.ctrlReset p w).ctrlCounters p w := rfl

theorem Dev.steady_ctrlWrite : ((d.ctrlReset p w).ctrlCounters p w).Steady (d.ctrlWrite m p w) := by
  rw [Dev.ctrlWrite_eq]
  exact .ite (Dev.steady_capture ..) (.refl _)

theorem Dev.rdp_of_word {d e : Dev} {f : Fld} {p : Nat} (h : e.word (f.addr p 0) = d.word (f.addr p 0)) : e.rdp f p = d.rdp f p := by
  rw [Dev.rdp, Dev.rdp, Dev.rdpi, Dev.rdpi, h]

/-- A field of BLK_CTRL, or of BLK_STAT, after the counters' part of a write. -/
theorem Dev.rdp_ctrlCounters {f : Fld} (h : f.addr p 0 ≠ p * 0x1000 + 0x0C ∨ f.lo + f.w ≤ 3) :
    (d.ctrlCounters p w).rdp f p = d.rdp f p := by
  have hclear : ∀ e : Dev, e = (if bit w 4 then d.clearCounters p else d) → e.rdp f p = d.rdp f p := by
    rintro e rfl
    split <;> rfl
  unfold Dev.ctrlCounters
  refine (Dev.rdpi_wrpi_ne _ _ _ _ _ _ _ _ ?_).trans (hclear _ rfl)
  exact h.imp (fun h => h) (fun h => ⟨by omega, Or.inl (by simpa [F.BLK_CTRL_CNT_FREEZE] using h)⟩)

theorem Dev.freeze_ctrlCounters : (d.ctrlCounters p w).rdp F.BLK_CTRL_CNT_FREEZE p = bits w 3 1 := by
  refine (Dev.rdpi_wrpi_same _ _ _ _ _ (by decide)).trans ?_
  exact Nat.mod_eq_of_lt (bits_lt _ _ _)

theorem Dev.rdp_ctrlReset {f : Fld} (h : f.addr p 0 = p * 0x1000 + 0x0C) : (d.ctrlReset p w).rdp f p = (d.ctrlParts p w).2.rdp f p := by
  unfold Dev.ctrlReset
  split
  · rw [Dev.rdp, Dev.rdp, Dev.rdpi, Dev.rdpi, h, Dev.word_softReset _ _ (by omega) (by omega) (by omega)]
  · rfl

/-- ENABLE and QUIESCE after a write of BLK_CTRL. -/
theorem Dev.rdp_ctrlWrite {f : Fld} (h : f.addr p 0 = p * 0x1000 + 0x0C) (hlo : f.lo + f.w ≤ 3) :
    (d.ctrlWrite m p w).rdp f p = (d.ctrlParts p w).2.rdp f p := by
  have hword := (d.steady_ctrlWrite m p w).word (f.addr p 0) (by omega) (by omega)
  exact (Dev.rdp_of_word hword).trans ((Dev.rdp_ctrlCounters p w _ (Or.inr hlo)).trans (d.rdp_ctrlReset p w h))

theorem Dev.freeze_ctrlWrite : (d.ctrlWrite m p w).rdp F.BLK_CTRL_CNT_FREEZE p = bits w 3 1 := by
  have haddr : F.BLK_CTRL_CNT_FREEZE.addr p 0 = p * 0x1000 + 0x0C := rfl
  have hword := (d.steady_ctrlWrite m p w).word (F.BLK_CTRL_CNT_FREEZE.addr p 0) (by omega) (by omega)
  exact (Dev.rdp_of_word hword).trans (Dev.freeze_ctrlCounters p w _)

/-- BLK_STAT after a write of BLK_CTRL. -/
theorem Dev.stat_ctrlWrite {f : Fld} (h : f.addr p 0 = p * 0x1000 + 0x10) : (d.ctrlWrite m p w).rdp f p = (d.ctrlReset p w).rdp f p := by
  have hword := (d.steady_ctrlWrite m p w).word (f.addr p 0) (by omega) (by omega)
  exact (Dev.rdp_of_word hword).trans (Dev.rdp_ctrlCounters p w _ (Or.inl (by omega)))

/-! ### The parts of a write on a page that quiesces -/

/-- An ENABLE = 0 that is dropped (R604). -/
def Dev.disableDropped : Bool := !bit w 0 && d.rdp F.BLK_CTRL_ENABLE p == 1 && !(d.rdp F.BLK_STAT_QUIESCED p == 1)

/-- `d` with ENABLE, where it is taken, and QUIESCE as they are written. -/
def Dev.partsSet : Dev :=
  (if d.disableDropped p w then d else d.wrp F.BLK_CTRL_ENABLE p (bits w 0 1)).wrp F.BLK_CTRL_QUIESCE p (bits w 1 1)

variable {k : PageKind} (hk : pageKind p = some k)
include hk

theorem Dev.ctrlParts_plain (hq : k.quiesce = false) : d.ctrlParts p w = (bit w 1 || !bit w 0, d) := by
  rw [Dev.ctrlParts, hk]
  simp [hq]

/-- ENABLE takes the bit written, but a 0 while QUIESCED is not 1. -/
theorem Dev.ctrlParts_quiesce (hq : k.quiesce = true) : (d.ctrlParts p w).1 = d.disableDropped p w ∧
    (d.ctrlParts p w).2.rdp F.BLK_CTRL_QUIESCE p = bits w 1 1 ∧
    (d.ctrlParts p w).2.rdp F.BLK_CTRL_ENABLE p = if d.disableDropped p w then d.rdp F.BLK_CTRL_ENABLE p else bits w 0 1 := by
  have hparts : ∃ c, d.ctrlParts p w = (d.disableDropped p w, if c = true then (d.partsSet p w).wrp F.BLK_STAT_QUIESCED p 0 else d.partsSet p w) := by
    rw [Dev.ctrlParts, hk]
    dsimp only
    rw [if_neg (by simp [hq])]
    exact ⟨_, rfl⟩
  obtain ⟨c, hparts⟩ := hparts
  have hstat : ∀ f : Fld, f.addr p 0 = p * 0x1000 + 0x0C →
      (if c = true then (d.partsSet p w).wrp F.BLK_STAT_QUIESCED p 0 else d.partsSet p w).rdp f p = (d.partsSet p w).rdp f p := by
    intro f hf
    have haddr : F.BLK_STAT_QUIESCED.addr p 0 = p * 0x1000 + 0x10 := rfl
    split
    · exact Dev.rdpi_wrpi_ne _ _ _ _ _ _ _ _ (Or.inl (by omega))
    · rfl
  rw [hparts]
  refine ⟨rfl, (hstat _ rfl).trans ?_, (hstat _ rfl).trans ?_⟩
  · exact (Dev.rdpi_wrpi_same _ _ _ _ _ (by decide)).trans (Nat.mod_eq_of_lt (bits_lt _ _ _))
  · refine (Dev.rdpi_wrpi_ne _ _ _ _ _ _ _ _ (Or.inr (by decide))).trans ?_
    split
    · rfl
    · exact (Dev.rdpi_wrpi_same _ _ _ _ _ (by decide)).trans (Nat.mod_eq_of_lt (bits_lt _ _ _))

end

/-! ### The counters -/

section
variable {m : Master} {p w : Nat} {d : Dev} {k : PageKind} {i : Nat}

theorem Dev.counter_clearCounters (hi : i < 1024) : (d.clearCounters p).counter p i = 0 := by
  have hcnts : (d.clearCounters p).cnts = tdrop (fun c => c / 1024 == p) d.cnts := rfl
  rw [Dev.counter, hcnts]
  refine (tget_tdrop _ _ _ _).trans (if_pos ?_)
  simp only [beq_iff_eq]
  omega

theorem Dev.counter_ctrlCounters (hi : i < 1024) (h : bit w 4 = true ∨ d.counter p i = 0) : (d.ctrlCounters p w).counter p i = 0 := by
  unfold Dev.ctrlCounters
  refine (Dev.counter_congr (d := if bit w 4 then d.clearCounters p else d) (by simp [Dev.wrp]) p i).trans ?_
  split
  · exact Dev.counter_clearCounters hi
  · next h4 => exact h.resolve_left h4

theorem Dev.counter_cntClear (hk : pageKind p = some k) (h4 : bit w 4 = true) (h2 : bit w 2 = false) (h01 : bits w 0 2 = 1) (hi : i < 1024) :
    (d.ctrlWrite m p w).counter p i = 0 := by
  have h0 : bit w 0 = true := by simp [bit, bits] at *; omega
  have h1 : bit w 1 = false := by simp [bit, bits] at *; omega
  have hdrop : (d.ctrlParts p w).1 = false := by
    cases hq : k.quiesce with
    | false => rw [Dev.ctrlParts_plain _ _ _ hk hq]; simp [h0, h1]
    | true => rw [(Dev.ctrlParts_quiesce _ _ _ hk hq).1]; simp [Dev.disableDropped, h0]
  rw [Dev.ctrlWrite_eq, if_neg (by simp [hdrop, h2])]
  exact Dev.counter_ctrlCounters hi (Or.inl h4)

/-- A soft reset that is accepted clears the counters, and a part of the write that is dropped counts none of its page. -/
theorem Dev.softReset_ctrlWrite (hk : pageKind p = some k) (hok : d.softOk p = true) (h2 : bit w 2 = true) :
    (d.ctrlWrite m p w).rdp F.BLK_STAT_SRST_BUSY p = 1 ∧ ∀ i < 1024, (d.ctrlWrite m p w).counter p i = 0 := by
  have hreset : d.ctrlReset p w = (d.ctrlParts p w).2.softReset p := if_pos ⟨h2, hok⟩
  refine ⟨(d.stat_ctrlWrite m p w rfl).trans (by rw [hreset]; exact Dev.softReset_busy _ _), fun i hi => ?_⟩
  have hcount : ((d.ctrlReset p w).ctrlCounters p w).counter p i = 0 :=
    Dev.counter_ctrlCounters hi (Or.inr (by rw [hreset]; exact Dev.counter_softReset _ _ hi))
  rw [Dev.ctrlWrite_eq]
  split
  · next hdrop =>
    have hparts : (d.ctrlParts p w).1 = true := hdrop.resolve_right (by simp [hok])
    have hdisabled : d.rdp F.BLK_CTRL_ENABLE p = 0 := by simp [Dev.softOk] at hok; exact hok.1.2
    have hplain : k.quiesce = false := by
      by_contra hq
      rw [(Dev.ctrlParts_quiesce _ _ _ hk (by simpa using hq)).1, Dev.disableDropped, hdisabled] at hparts
      simp at hparts
    have hpage : p ≠ 0x18 := by
      rintro rfl
      have h18 : (pageKind 0x18).map (·.quiesce) = some true := by decide
      rw [hk, Option.map_some, hplain] at h18
      cases h18
    exact (Dev.counter_capture hpage hi _ _ _ _ _ _).trans hcount
  · exact hcount

/-! ### The commands -/

theorem ctrl_writes {v : Nat} {s : State} (hopen : pageOpen s.dev m p) (hown : s.dev.owns m p = true) (hv : v < 2 ^ 32) :
    regOut m (p * 0x1000 + 0x0C) 4 v s = .next (withPkg s (Pkg.released (s.store, (tlp m s.dev).ctrlWrite m p v))) := by
  have hrun : (tlp m s.dev).running = true := by simpa using hopen.1
  rw [regOut_header hopen (by decide) (by decide) (by decide) hv, mayWrite_header (by decide), hown]
  simp [Pkg.headerWrite, Pkg.dev, hrun]

theorem controlWrites : Said.ControlWrites := by
  intro m p v k s hopen hown hk
  refine ⟨⟨ctrl_writes hopen hown v.isLt, ctrl_writes hopen hown v.isLt, ctrl_writes hopen hown v.isLt,
    ctrl_writes hopen hown (putBit_top_lt true v.isLt (by decide)), ctrl_writes hopen hown (putBit_top_lt true v.isLt (by decide))⟩, fun d w => ?_⟩
  have hctrl : ∀ f : Fld, f.addr p 0 = p * 0x1000 + 0x0C → f.lo + f.w ≤ 3 → (d.ctrlWrite m p w).rdp f p = (d.ctrlParts p w).2.rdp f p :=
    fun f h hlo => d.rdp_ctrlWrite m p w h hlo
  have henable := hctrl F.BLK_CTRL_ENABLE rfl (by decide)
  have hquiesce := hctrl F.BLK_CTRL_QUIESCE rfl (by decide)
  refine ⟨fun hq => ?_, fun hq h0 hstat hen => ?_, fun hq h0 hstat => ?_, fun hq => ?_, d.freeze_ctrlWrite m p w,
    fun h4 h2 h01 i hi => Dev.counter_cntClear hk h4 h2 h01 hi, fun hok h2 => Dev.softReset_ctrlWrite hk hok h2⟩
  · rw [hquiesce, (Dev.ctrlParts_quiesce _ _ _ hk hq).2.1]
  · rw [henable, (Dev.ctrlParts_quiesce _ _ _ hk hq).2.2, if_pos (by simp [Dev.disableDropped, h0, hstat, hen]), hen]
  · rw [henable, (Dev.ctrlParts_quiesce _ _ _ hk hq).2.2, if_neg (by simp [Dev.disableDropped, hstat])]
    simpa [bit, bits] using h0
  · rw [henable, hquiesce, Dev.ctrlParts_plain _ _ _ hk hq]
    exact ⟨rfl, rfl⟩

theorem quiesceAndResetEnd : Said.QuiesceAndResetEnd := by
  intro p s hrun hon
  refine ⟨fun hk hasked => ?_, fun hbusy => ?_⟩
  · refine (ifRuns_next (f := Dev.quiesceComplete p) rfl hrun).trans ?_
    have hasked' : (s.dev.rdp F.BLK_CTRL_QUIESCE p == 1 || s.dev.rdp F.BLK_CTRL_ENABLE p == 0 || s.dev.powerHeld p) = true := by
      simpa [or_assoc] using hasked
    unfold Dev.quiesceComplete
    dsimp only
    cases hwork : s.dev.workInHand p with
    | false => rw [if_pos ⟨hon, hk, hasked', by simp⟩]; simp
    | true => rw [if_neg (by simp)]; rfl
  · refine (ifRuns_next (f := Dev.softResetDone p) rfl hrun).trans ?_
    rw [Dev.softResetDone, if_pos ⟨hon, hbusy⟩]

/-- Settles O8. -/
theorem blockControl : Obligations.BlockControl := ⟨controlWrites, quiesceAndResetEnd⟩

end

end Sys2Proof.Machine


/-!
SUPPORT. O60: the commands of the page headers, of power, reset and start-up, of tide time and of the management paths complete.
-/
namespace Sys2Proof.Machine

/-! ### What a flit leaves of the package -/

/-- The package without what a flit on its links touches: links, lanes, what has left, and the counters. -/
def Dev.offWire (d : Dev) : Dev := { d with links := [], line := [], out := [], epochs := [], cnts := [] }

section
variable (d : Dev)

theorem Dev.offWire_emit (e : Emit) : (d.emit e).offWire = d.offWire := rfl

theorem Dev.offWire_count (p i k : Nat) : (d.count p i k).offWire = d.offWire := by unfold Dev.count; split <;> rfl

theorem Dev.offWire_sendBlock (p b : Nat) : (d.sendBlock p b).offWire = d.offWire := by
  unfold Dev.sendBlock
  dsimp only
  split <;> rfl

theorem Dev.offWire_sendFlit (p : Nat) (bytes : List Byte) : (d.sendFlit p bytes).offWire = d.offWire := by
  have hblocks : ∀ (l : List Nat) (e : Dev), (l.foldl (fun (d : Dev) i => d.sendBlock p (leNat (sliceBytes bytes (32 * i) 32))) e).offWire = e.offWire := by
    intro l
    induction l with
    | nil => exact fun _ => rfl
    | cons i l ih => exact fun e => (ih _).trans (e.offWire_sendBlock p _)
  exact hblocks _ _

theorem Dev.offWire_flitOut (p kind : Nat) (nak : Bool) (start : Nat) (slots : List Byte) : (d.flitOut p kind nak start slots).offWire = d.offWire := by
  have hsent : ∀ (b : List Byte) (ls : List Link), (Dev.linkCount (Dev.sendFlit p b { d with links := ls }) p 0 1).offWire = d.offWire :=
    fun b ls => (Dev.offWire_count ..).trans (Dev.offWire_sendFlit ..)
  unfold Dev.flitOut
  dsimp only
  generalize hE : Dev.linkCount _ p 0 1 = e
  have he : e.offWire = d.offWire := hE ▸ hsent _ _
  clear hE
  generalize (nth d.links p {}).txSwitch = o
  cases o with
  | none => exact he
  | some w => exact (apply_ite Dev.offWire _ _ _).trans ((ite_self _).trans he)

theorem Dev.offWire_lctlOut (p : Nat) (slots : List Byte) : (d.lctlOut p slots).offWire = d.offWire := by
  unfold Dev.lctlOut
  dsimp only
  split
  · exact d.offWire_flitOut ..
  · rfl

theorem Dev.pwr_offWire {e : Dev} (h : e.offWire = d.offWire) : e.pwr = d.pwr :=
  (congrArg Dev.pwr h : e.offWire.pwr = d.offWire.pwr)

/-! ### Orders of the cap -/

theorem Dev.pwr_wakeLanes (p mask : Nat) : (d.wakeLanes p mask).pwr = d.pwr := by
  unfold Dev.wakeLanes
  split
  · rfl
  · rfl

theorem Dev.pwr_askWidth (p w mask : Nat) : (d.askWidth p w mask).pwr = d.pwr :=
  (Dev.pwr_wakeLanes ..).trans (d.pwr_offWire (Dev.offWire_lctlOut d p _))

theorem Dev.pwr_foldl {α : Type} {f : Dev → α → Dev} (h : ∀ d x, (f d x).pwr = d.pwr) (l : List α) (d : Dev) : (l.foldl f d).pwr = d.pwr := by
  induction l generalizing d with
  | nil => rfl
  | cons x l ih => exact (ih _).trans (h d x)

theorem Dev.order_narrowLinks : d.narrowLinks.pwr.order = d.pwr.order := by
  have hask : ∀ (e : Dev) (p : Nat), (if e.linkState p = 5 ∧ 2 < e.linkWidth p ∧ (e.link p).width = none then
      e.askWidth p 2 (lowestLanes (laneCount p) 2 (e.laneMap p)) else e).pwr = e.pwr := fun e p =>
    (apply_ite Dev.pwr _ _ _).trans (by rw [e.pwr_askWidth, ite_self])
  unfold Dev.narrowLinks
  split
  · exact (congrArg Pwr.order (Dev.pwr_foldl hask _ _)).trans rfl
  · rfl

theorem Dev.order_widenLinks : d.widenLinks.pwr.order = d.pwr.order := by
  unfold Dev.widenLinks
  split
  · exact (congrArg Pwr.order (Dev.pwr_foldl (fun e p => (apply_ite Dev.pwr _ _ _).trans (by rw [e.pwr_askWidth, ite_self])) _ _)).trans rfl
  · rfl

theorem Dev.pwr_wr (f : Fld) (v : Nat) : (d.wr f v).pwr = d.pwr := rfl

theorem Dev.order_arraysHeld (b : Bool) : ({ d with pwr := { d.pwr with arraysHeld := b } } : Dev).pwr.order = d.pwr.order := rfl

theorem Dev.order_measures {e : Dev} (he : e.pwr = d.pwr) :
    (({ e with pwr := { e.pwr with arraysHeld := true } } : Dev).wr F.PWR_STAT_THROTTLE 7).narrowLinks.pwr.order = d.pwr.order := by
  rw [Dev.order_narrowLinks, Dev.pwr_wr, Dev.order_arraysHeld, he]

theorem Dev.order_capUnreachable : d.capUnreachable.pwr.order = d.pwr.order := by
  have hstatus : (if d.rd F.PWR_STAT_CAP_STATUS = 0 then
      (((d.wr F.PWR_STAT_CAP_STATUS sCapUnreachable).event 1 1).count 1 4 1).capture 1 .degraded sCapUnreachable 0x10 0x3F d.capInForce
      else d).pwr = d.pwr := by
    split <;> simp
  exact d.order_measures hstatus

theorem Dev.order_capApply : d.capApply.pwr.order = d.pwr.order := by
  have hset : d.capSet.pwr.order = d.pwr.order := by
    unfold Dev.capSet
    split <;> simp
  have hthrottle : ∀ (e : Dev) (k c : Nat), (e.throttleFor k c).2.pwr = e.pwr := by
    intro e k c
    unfold Dev.throttleFor
    split <;> rfl
  rw [Dev.capApply_eq]
  split
  · rw [Dev.order_capUnreachable, hset]
  · dsimp only
    generalize hE : ite (500 ≤ d.capInForce) _ _ = e
    have he : e.pwr.order = d.pwr.order := by
      rw [← hE]
      split
      · rw [Dev.order_widenLinks, Dev.order_arraysHeld, Dev.pwr_wr, hset]
      · rw [Dev.pwr_wr, hset]
    split
    · rw [Dev.pwr_wr, hthrottle, he]
    · exact he

/-- An order by register is the most recent one, whether it acts or waits (R568). -/
theorem Dev.order_capOrder (w src : Nat) : (d.capOrder w src).pwr.order = w := by
  have hnow : d.capOrder w src = (d.ordered w src).capNow := rfl
  rw [hnow, Dev.capNow]
  split
  · simp
  · rw [Dev.order_capApply]; simp

end

end Sys2Proof.Machine


/-!
SUPPORT. O60, first part: the commands of a page header complete, and those of power, reset and start-up.
-/
namespace Sys2Proof.Machine

section
variable {m : Master} {p : Nat} {s : State}

theorem blkOwnerWrite_owner {v : W32} (hopen : pageOpen s.dev m p) (hown : s.dev.owns m p = true) (hlock : s.dev.rdp F.BLK_OWNER_OWNER p ≠ 3) :
    exec (.blkOwnerWrite m p v) s = .next (withPkg s (s.store, (tlp m s.dev).wrp F.BLK_OWNER_OWNER p v.toNat)) := by
  obtain ⟨-, hreach, hkind, hon⟩ := hopen
  have hmine : s.dev.rdp F.BLK_OWNER_OWNER p = masterCode m := by simpa [Dev.owns] using hown
  refine (regOut_four m p 8 v.toNat s (by decide) (by decide) (by have := pageKind_lt hkind; omega) hreach).trans ?_
  rw [write4_owner m p v.toNat _ hkind (by simpa using hon), Nat.mod_eq_of_lt v.isLt]
  have hmine' : (tlp m s.dev).rdp F.BLK_OWNER_OWNER p = masterCode m := by simpa [Dev.rdp] using hmine
  rw [Dev.ownerWrite, hmine']
  dsimp only
  rw [if_pos ⟨hmine ▸ hlock, Or.inl rfl⟩]

theorem headerCommandsComplete : Said.HeaderCommandsComplete := by
  intro m p v k s hopen hown hk
  dsimp only
  obtain ⟨⟨hquiesce, henable, hfreeze, hclear, hreset⟩, hparts⟩ := controlWrites m p v k s hopen hown hk
  obtain ⟨hrun, hreach, -, hon⟩ := id hopen
  have hsame : ∀ (d : Dev) (f : Fld) (x : Nat), f.lo + f.w ≤ 32 → (d.wrp f p x).rdp f p = x % 2 ^ f.w := fun d f x h => Dev.rdpi_wrpi_same d f p 0 x h
  refine ⟨fun hlock => next_keepsStore (blkOwnerWrite_owner hopen hown hlock) ?_, fun hq => ⟨hquiesce, (hparts _ _).1 hq⟩,
    fun hq hstat h2 => ⟨henable, ?_⟩, ⟨hfreeze, (hparts _ _).2.2.2.2.1⟩, fun h2 h01 => ⟨hclear, ?_⟩, fun hok => ⟨hreset, ?_⟩,
    fun hasked hwork => ?_, fun hbusy => ?_, fun i hi hread => ?_, ?_, ?_, ?_, next_keepsStore_dev (capRearm_rearms hopen v) ?_,
    next_keepsStore_dev (lowClr_sets hopen hown v) ?_⟩
  · exact (hsame _ _ _ (by decide)).trans (by simp [bits, F.BLK_OWNER_OWNER])
  · have hstat' : (tlp m s.dev).rdp F.BLK_STAT_QUIESCED p = 1 := by simpa [Dev.rdp] using hstat
    refine (Dev.rdp_ctrlWrite m p _ _ rfl (by decide)).trans ?_
    rw [(Dev.ctrlParts_quiesce _ _ _ hk hq).2.2, if_neg (by simp [Dev.disableDropped, hstat'])]
  · exact (hparts _ _).2.2.2.2.2.1 (bit_putBit_same _ _ _) ((bit_putBit_ne _ _ _ _ (by decide)).trans h2) ((bits_putBits_ne _ _ _ _ _ _ (by decide)).trans h01)
  · exact ((hparts _ _).2.2.2.2.2.2 hok (bit_putBit_same _ _ _)).1
  · refine next_keepsStore_dev (d := s.dev.wrp F.BLK_STAT_QUIESCED p 1) ?_ (hsame _ _ _ (by decide))
    rw [(quiesceAndResetEnd p s hrun hon).1 (by simp [hk]) (Or.inl hasked), hwork]
    rfl
  · exact next_keepsStore_dev ((quiesceAndResetEnd p s hrun hon).2 hbusy) (hsame _ _ _ (by decide))
  · obtain ⟨t, hexec, hstore, hout, -⟩ := counters.2 m p i s hread hon hi
    exact ⟨t, hexec, hstore, hout⟩
  · obtain ⟨t, hexec, hstore, hbits, -⟩ := blkIsrClear_clears hopen v
    exact ⟨t, hexec, hstore, hbits⟩
  · obtain ⟨t, hexec, hstore, hbits, -⟩ := blkItr_sets hopen hown v
    exact ⟨t, hexec, hstore, hbits⟩
  · obtain ⟨t, hexec, hstore, hbits, -⟩ := blkIerWrite_writes hopen hown v
    exact ⟨t, hexec, hstore, hbits⟩
  · exact (Dev.rdpi_wrpi_ne _ _ _ _ _ _ _ _ (Or.inr ⟨by decide, Or.inl (by decide)⟩)).trans (hsame _ _ _ (by decide))
  · exact hsame _ _ _ (by decide)

end

/-! ### Power, reset and start-up -/

/-- The commands of a running package. -/
theorem powerRunning (s : State) (hrun : s.dev.running = true) :
    (∀ (i : Fin 30), s.dev.awake = true → ¬(12 ≤ i.val ∧ i.val < 20) → bit (s.dev.rd F.PWR_DOM_STAT_ON) i.val = false →
      s.dev.domCond i.val = true → ∃ d, d.domOn i.val = true ∧
        exec (.domainOn i) s = .next (withPkg s (if d.domOn 11 then Pkg.released (s.store, d) else (s.store, d)))) ∧
    (s.dev.awake = true → s.dev.domOn 29 = true → s.dev.domCond 29 = false → (domainPages 29).any s.dev.workInHand = false →
      ∃ t, exec (.domainOff 29) s = .next t ∧ t.store = s.store ∧ t.dev.domOn 29 = false) ∧
    (∀ p code, p < 256 → code < 256 → ∃ t, exec (.fatalError p code) s = .next t ∧ t.store = s.store ∧ t.dev.glb.hold = .failStop ∧
      t.dev.rd F.ERR_FATAL_PAGE = p ∧ t.dev.rd F.ERR_FATAL_CODE = code) ∧
    (s.dev.stage = 0 → s.dev.glb.join.isSome = true → (∃ p < 24, s.dev.linkState p = 5) → s.dev.timeState = 2 ∨ s.dev.timeState = 4 →
      ∃ t, exec .trainedReached s = .next t ∧ t.store = s.store ∧ t.dev.stage = 1) ∧
    (∀ q : CfgReq, s.dev.rd F.GLB_PIN_STAT_PERST = 0 → s.dev.pageOn 0x18 = true → ∃ t v, exec (.configurationRequest q) s = .next t ∧
      t.store = s.store ∧ t.dev.out = s.dev.out ++ [.cpl q.id (if s.dev.rd F.GLB_BOOT_STAT_STAGE < 2 then 2 else 0) v]) ∧
    (s.dev.rd F.GLB_BOOT_STAT_STAGE = 0 → ∃ t, exec (.bootStageComplete .done) s = .next t ∧ t.store = s.store ∧
      t.dev.rd F.GLB_BOOT_STAT_STAGE = 1) ∧
    (s.dev.pwrState = 2 → s.dev.pwr.abort = false →
      (s.dev.pwr.step = .e1 → s.dev.drained = true → s.dev.tim.tide < s.dev.pwr.stepAt + us 10000 →
        ∃ t, exec .moorQuiesced s = .next t ∧ t.store = s.store ∧ t.dev.pwr.step = .e2) ∧
      (s.dev.pwr.step = .e4 → ∃ t, exec .moorStepComplete s = .next t ∧ t.store = s.store ∧ t.dev.pwr.step = .e5)) ∧
    (s.dev.pwrState = 2 → s.dev.pwr.step = .e1 → s.dev.glb.pcieIdle = false → s.dev.pwr.stepAt + us 10000 ≤ s.dev.tim.tide →
      s.dev.pwr.pendingOrder = false → ∃ d, d.rd F.PWR_STAT_STATE = 0 ∧ d.rd F.PWR_CMD_RESULT_STATUS = sTimeout ∧
        exec .moorEntryTimeout s = .next (withPkg s (Pkg.released (s.store, d)))) ∧
    (s.dev.pwrState = 4 → s.dev.pwr.pendingOrder = false → ∃ d, d.rd F.PWR_STAT_STATE = 0 ∧ d.home.prot = s.dev.pwr.savedProt ∧
      exec .moorExitComplete s = .next (withPkg s (Pkg.released (s.store, d)))) := by
  refine ⟨fun i hawake hpair hoff hcond => ?_, fun hawake hon hcond hwork => ?_, fun p code hp hc => ?_, fun hstage hjoin hup htime => ?_,
    fun q hhigh hon => ?_, fun hstage => ?_, fun hst habort => ⟨fun hstep hdr ht => ?_, fun hstep => ?_⟩, fun hst hstep hidle ht hord => ?_,
    fun hst hord => ?_⟩
  · exact (domainOn_turnsOn hrun hawake hpair hoff hcond).imp fun d ⟨hon, _, hexec⟩ => ⟨hon, hexec⟩
  · exact (domainOff_mirror hrun hawake hon hcond hwork).imp fun t ⟨hexec, hstore, hoff, _⟩ => ⟨hexec, hstore, hoff⟩
  · exact (fatalFailStops p code s hrun hp hc).imp fun t ⟨hexec, hstore, hhold, _, _, hpage, hcode, _⟩ => ⟨hexec, hstore, hhold, hpage, hcode⟩
  · exact next_keepsStore_dev (trainedReached_trains hrun hstage hjoin hup htime) (Dev.rd_wr_same _ _ _ (by decide))
  · obtain ⟨t, hexec, hstore, -, hearly, hlate⟩ := configurationRequest_answers (q := q) hrun hhigh hon
    split
    · next h => exact ⟨t, [], hexec, hstore, (hearly h).1⟩
    · next h =>
      obtain ⟨b, hout, -⟩ := hlate (Nat.not_lt.1 h)
      exact ⟨t, b, hexec, hstore, hout⟩
  · exact next_keepsStore_dev ((startUp s hrun).1 hstage) (Dev.rd_wr_same _ _ _ (by decide))
  · exact next_keepsStore_dev ((moorEntry s hrun hst habort).1 hstep hdr ht) rfl
  · exact next_keepsStore_dev ((moorEntry s hrun hst habort).2.2.2.1 hstep) rfl
  · exact (moorUndoneAndExit.1 s hrun hst hstep hidle ht hord).imp fun d ⟨hstate, hstatus, _, hexec⟩ => ⟨hstate, hstatus, hexec⟩
  · exact (moorUndoneAndExit.2 s hrun hst hord).imp fun d ⟨_, hprot, _, _, hstate, _, hexec⟩ => ⟨hstate, hprot, hexec⟩

/-- The commands of a package that is not off. -/
theorem powerPowered (s : State) (hoff : s.dev.glb.off = false) :
    (∀ mv, s.dev.glb.vddAon = true → 600 ≤ mv → ∃ t, exec (.vddCoreChange mv) s = .next t ∧ t.store = s.store ∧ t.dev.glb.vddMv = mv) ∧
    (∀ mv, s.dev.glb.vddAon = true → mv < 600 → s.dev.glb.hold ≠ .coreUv → ∃ t, exec (.vcoreLow mv) s = .next t ∧ t.store = s.store ∧
      t.dev.glb.vddMv = mv ∧ t.dev.rd F.BLK_STAT_BLOCK = 1) ∧
    (∀ t0, s.dev.glb.vddAon = true → s.dev.glb.uvSince = some t0 → t0 + us 1 ≤ s.dev.tim.tide → s.dev.glb.hold ≠ .coreUv →
      s.dev.glb.hold ≠ .eoff → ∃ t, exec .coreUv s = .next t ∧ t.store = s.store ∧ t.dev.glb.hold = .coreUv ∧ t.dev.rd F.ERR_FATAL_CORE_UV = 1) ∧
    (s.dev.rd F.GLB_PIN_STAT_PERST = 0 → ∃ t, exec .perstNAssert s = .next t ∧ t.store = s.store ∧ t.dev.rd F.GLB_PIN_STAT_PERST = 1) ∧
    (s.dev.rd F.GLB_PIN_STAT_PERST = 1 → ∃ t, exec .perstNRelease s = .next t ∧ t.store = s.store ∧ t.dev.rd F.GLB_PIN_STAT_PERST = 0) ∧
    (∀ c : Fin 64, s.dev.rd F.PWR_CFG_PIN_EN = 1 → exec (.limitStrobe c) s = .next { s with
      dev := s.dev.capOrder (if 60 ≤ c.val then 950 else 16 * c.val) 1 }) ∧
    (∃ t, exec .vsetReached s = .next t ∧ t.store = s.store ∧ t.dev.glb.vddMv = 750 - 50 * s.dev.rd F.PWR_STAT_VSET) ∧
    (∀ tj, s.dev.glb.thermtrip = false → tj < 115 → tj < s.dev.rd F.PWR_CFG_THROTTLE_C → s.dev.pwr.thermal = false →
      ∃ t, exec (.thermalReading tj) s = .next t ∧ t.store = s.store ∧ t.dev.rd F.PWR_TEMP_TJ = min tj 255) ∧
    (s.dev.rd F.PWR_STAT_BRAKE = 0 → ∃ t, exec .brakeAssert s = .next t ∧ t.store = s.store ∧ t.dev.braked = true) ∧
    (s.dev.pwr.pendingOrder = false → s.dev.running = false ∨ (quiet s.dev ∧ s.dev.src.held = [] ∧ s.dev.fry.colls = []) →
      exec .brakeRelease s = .next { s with dev := s.dev.wr F.PWR_STAT_BRAKE 0 }) ∧
    (∀ w, s.dev.domOn 29 = true → 950 ≤ s.dev.capInForce → s.dev.pwr.windowAt < s.dev.ns / (s.dev.rd F.PWR_CFG_AVG_100US * 100000) →
      ∃ t, exec (.telemetryWindowEnd w) s = .next t ∧ t.store = s.store ∧ t.dev.rd F.PWR_AVG_AVG_W = min w 2047) ∧
    (∀ m mj, mj < 2 ^ 64 → s.dev.pwr.mj < 2 ^ 64 → ∃ t, exec (.pwrEnergyLoRead m mj) s = .next t ∧ t.store = s.store ∧
      t.dev.out = s.dev.out ++ [.regData m 0 (natLE 4 (max s.dev.pwr.mj mj % 2 ^ 32))]) ∧
    (s.dev.rd F.PWR_WAKE_EN_PCIE = 1 → s.dev.pwrState = 3 → s.dev.pwr.wakeOpen = true → ∃ t, exec (.wakeSource .pcie) s = .next t ∧
      t.store = s.store ∧ t.dev.rd F.PWR_STAT_STATE = 4) ∧
    (s.dev.rd F.GLB_PIN_STAT_PWRFAIL = 0 → ∃ t, exec (.pwrfailN true) s = .next t ∧ t.store = s.store ∧
      t.dev.rd F.GLB_PIN_STAT_PWRFAIL_SEEN = 1) := by
  obtain ⟨hset, hbrake, -, hrelease, htemp⟩ := setpointBrakeAndThermal s hoff
  refine ⟨fun mv haon hmv => ?_, fun mv haon hmv _ => ?_, fun t0 _ huv ht hne heoff => ?_, fun hhigh => ?_, fun hlow => ?_, fun c hpin => ?_, ?_,
    fun tj htrip h115 hlimit hth => ?_, fun h0 => ?_, hrelease, fun w hdom hcap hat => ?_, fun m mj hmj hold => ?_, fun hen hst hopen => ?_,
    fun hlow => ?_⟩
  · exact next_keepsStore_dev ((coreVoltage.2 mv s hoff haon).1 hmv) rfl
  · exact (vcoreLow_low hoff haon hmv).imp fun t ⟨hexec, hstore, hstat, hrail, _⟩ => ⟨hexec, hstore, hrail, hstat⟩
  · exact (coreUv_holds hoff huv ht hne heoff).imp fun t ⟨hexec, hstore, hhold, _, _, hfatal, _⟩ => ⟨hexec, hstore, hhold, hfatal⟩
  · exact (perstNAssert_resets hoff hhigh).imp fun t ⟨hexec, hstore, hpin, _⟩ => ⟨hexec, hstore, hpin⟩
  · exact (perstNRelease_trains hoff hlow).imp fun t ⟨hexec, hstore, hpin, _⟩ => ⟨hexec, hstore, hpin⟩
  · exact (limitStrobe_orders hoff).trans (by rw [if_pos hpin])
  · exact hset.imp fun t ⟨hexec, hstore, hrail, _⟩ => ⟨hexec, hstore, hrail⟩
  · obtain ⟨t, hexec, hstore, -, hbelow⟩ := htemp tj htrip
    exact ⟨t, hexec, hstore, (hbelow h115 hlimit hth).1⟩
  · exact next_keepsStore_dev (hbrake h0).1 (hbrake h0).2
  · exact (telemetryWindowEnd_averages hoff hdom hcap hat).imp fun t ⟨hexec, hstore, havg, _⟩ => ⟨hexec, hstore, havg⟩
  · obtain ⟨t, hexec, hstore, hmax, -, -, hout⟩ := pwrEnergyLoRead_latches (m := m) hoff hmj hold
    exact ⟨t, hexec, hstore, hmax ▸ hout⟩
  · exact (wakeSource_host hoff hen hst hopen).imp fun t ⟨hexec, hstore, hstate, _⟩ => ⟨hexec, hstore, hstate⟩
  · exact (pwrfailN_records hoff hlow).imp fun t ⟨hexec, hstore, hseen, _⟩ => ⟨hexec, hstore, hseen⟩

theorem powerCommandsComplete : Said.PowerCommandsComplete := by
  refine ⟨fun s hpaced paces hat => ?_, powerRunning, powerPowered, fun m v s hopen hown => ⟨fun h1 h2 h3 => ?_, ?_, ?_, fun hawake => ?_, ?_⟩,
    fun v s hopen hst => ?_, fun m v s hopen hown => join_joins hopen hown, fun s heoff hheld => ?_, fun s => ⟨?_, fun ns haon hne hns => ?_⟩⟩
  · exact ((paceWindow paces s hpaced).2 hat).imp fun t ⟨hexec, hstore, hglb, _⟩ => ⟨hexec, hstore, by rw [hglb]⟩
  · exact (pwrDomReqWrite_writes hopen hown h1 h2 h3).imp fun t ⟨hexec, hstore, hreq, _⟩ => ⟨hexec, hstore, hreq⟩
  · exact next_keepsStore_dev (capWrite_orders hopen hown) (Dev.order_capOrder _ _ _)
  · exact (peakClr_clears hopen hown).imp fun t ⟨hexec, hstore, hpeak, _⟩ => ⟨hexec, hstore, hpeak⟩
  · exact (idle_asks hopen hown hawake).imp fun t ⟨hexec, hstore, _, hres⟩ => ⟨hexec, hstore, hres⟩
  · rintro rfl hawake hdev
    exact (moor_begins hopen hown hawake hdev).imp fun t ⟨hexec, hstore, hstate, hstep, _⟩ => ⟨hexec, hstore, hstate, hstep⟩
  · exact ((wake_over_sideband hopen).1 hst).imp fun t ⟨hexec, hstore, hstate, _⟩ => ⟨hexec, hstore, hstate⟩
  · obtain ⟨t, hexec, hstore, hoff, -, -, hrel⟩ := resetClears.2 s heoff hheld
    exact ⟨t, hexec, hstore, hoff, fun tray slot htray hslot =>
      (hrel tray slot htray hslot).imp fun u ⟨hexec, hstore, hrun, _⟩ => ⟨hexec, hstore, hrun⟩⟩
  · exact (vddAonLoss_loses s).imp fun t ⟨hexec, hstore, hoff, _⟩ => ⟨hexec, hstore, hoff⟩
  · exact (eoffN_holds haon hne hns).imp fun t ⟨hexec, hstore, hhold, _⟩ => ⟨hexec, hstore, hhold⟩

end Sys2Proof.Machine


/-!
SUPPORT. O60, second part: the commands of the TIME page and of the management paths complete.
-/
namespace Sys2Proof.Machine

/-! ### Tide time -/

section
variable {s : State}

theorem timeSyncSend_notes (hrun : s.dev.running = true) (hst : 1 ≤ s.dev.timeState) (hst3 : s.dev.timeState ≤ 3)
    (hup : s.dev.rd F.TIME_CFG_UP_EN = 1) (hcarry : s.dev.portCarries s.dev.upstream = true) (hdue : s.dev.tim.nextSync ≤ s.dev.tim.tide) :
    ∃ t, exec .timeSyncSend s = .next t ∧ t.store = s.store ∧ t.dev.tim.exchange = s.dev.tim.exchange ++ [s.dev.tim.tide] := by
  have hstate : s.dev.timeState = 1 ∨ s.dev.timeState = 2 ∨ s.dev.timeState = 3 := by omega
  refine next_keepsStore_dev (ifRuns_next (f := Dev.timeSyncSend) rfl hrun) ?_
  dsimp only
  rw [Dev.timeSyncSend, if_pos ⟨hstate, hup, hcarry, hdue⟩]
  simp

/-- An exchange accepted in LOCKED is noted, and steers the rate. -/
theorem Dev.acceptExchange_steers (d : Dev) (off delay : Int) (hlocked : d.timeState = 2) :
    d.acceptExchange off delay = (d.exchangeNoted off delay).servo 500000 := by
  have hst : (d.exchangeNoted off delay).timeState = 2 := by
    have hrd : ∀ f, (d.exchangeNoted off delay).rd f =
        (((d.count 2 0 1).wr F.TIME_OFFSET_OFFSET (ofSigned 32 off)).wr F.TIME_DELAY_DELAY (ofSigned 32 delay)).rd f := fun f => rfl
    rw [Dev.timeState, hrd, Dev.rd_wr_ne _ _ _ _ (by decide), Dev.rd_wr_ne _ _ _ _ (by decide), Dev.rd_count]
    exact hlocked
  rw [show d.acceptExchange off delay = (let e := d.exchangeNoted off delay
    if e.timeState = 1 then e.acquireExchange off
    else if e.timeState = 2 then e.servo 500000
    else if e.timeState = 3 then
      if off.natAbs ≤ us 1 then (e.servo 500000).wr F.TIME_STAT_STATE 2
      else e.capture 2 .degraded 0 0x11 0x3F (ofSigned 32 off)
    else e) from rfl]
  dsimp only
  rw [if_neg (by omega), if_pos hst]

theorem Dev.delay_acceptExchange {d : Dev} (off delay : Int) (hlocked : d.timeState = 2) :
    (d.acceptExchange off delay).rd F.TIME_DELAY_DELAY = ofSigned 32 delay := by
  rw [d.acceptExchange_steers off delay hlocked, Dev.servo_rd _ _ _ (by decide)]
  refine (Dev.rd_wr_same ((d.count 2 0 1).wr F.TIME_OFFSET_OFFSET (ofSigned 32 off)) F.TIME_DELAY_DELAY _ (by decide)).trans ?_
  exact Nat.mod_eq_of_lt (ofSigned_lt delay)

theorem timeSyncReply_delays {r : SyncReply} (hrun : s.dev.running = true) (hex : r.t1 ∈ s.dev.tim.exchange) (hlocked : s.dev.timeState = 2)
    (hrep : r.replayed = false) (hch : (nth s.dev.links s.dev.upstream {}).changedSince ≤ r.t1)
    (hre : (nth s.dev.links s.dev.upstream {}).replayedSince ≤ r.t1) :
    ∃ t, exec (.timeSyncReply r) s = .next t ∧ t.store = s.store ∧
      t.dev.rd F.TIME_DELAY_DELAY = ofSigned 32 (halfEven (((r.t2 : Int) - r.t1) + ((r.t4 : Int) - r.t3))) := by
  have hin : s.dev.tim.exchange.contains r.t1 = true := by simpa using hex
  have hreply : s.dev.timeSyncReply r = Dev.acceptExchange (syncOffset r (s.dev.rdi F.TIME_ASYM_ASYM s.dev.upstream)) (syncDelay r)
      { s.dev with tim := { s.dev.tim with exchange := s.dev.tim.exchange.erase r.t1 } } := by
    rw [Dev.timeSyncReply, if_pos ⟨hin, by omega, by omega⟩]
    refine if_neg ?_
    rintro (h | h | h)
    · exact absurd (hrep.symm.trans h) (by decide)
    · omega
    · omega
  refine next_keepsStore_dev (ifRuns_next (f := Dev.timeSyncReply r) rfl hrun) ?_
  dsimp only
  rw [hreply]
  exact Dev.delay_acceptExchange (d := { s.dev with tim := { s.dev.tim with exchange := s.dev.tim.exchange.erase r.t1 } }) _ _ hlocked

theorem Dev.exchange_discardExchange (d : Dev) : d.discardExchange.tim.exchange = d.tim.exchange := by
  have htim : (d.count 2 1 1).tim = d.tim := by simp
  unfold Dev.discardExchange
  generalize d.count 2 1 1 = e at htim
  rw [← htim]
  dsimp only
  split
  · split
    · rw [Dev.tide_toHoldover]
    · rfl
  · rfl

theorem exchangeTimeout_drops (hoff : s.dev.glb.off = false) {t1 : Nat} {l : List Nat} (hex : s.dev.tim.exchange = t1 :: l)
    (hold : t1 + us (32 * s.dev.rd F.TIME_CFG_SYNC_INTERVAL) ≤ s.dev.tim.tide) :
    ∃ t, exec .exchangeTimeout s = .next t ∧ t.store = s.store ∧ t.dev.tim.exchange = l := by
  have hout : s.dev.exchangeTimeout = Dev.discardExchange { s.dev with tim := { s.dev.tim with exchange := l } } := by
    rw [Dev.exchangeTimeout, hex]
    exact if_pos hold
  refine next_keepsStore_dev (onDev_ifPowered hoff Dev.exchangeTimeout) ?_
  dsimp only
  rw [hout, Dev.exchange_discardExchange]

theorem ppsInEdge_notes (hoff : s.dev.glb.off = false) (hst : s.dev.timeState = 4) (hen : s.dev.rd F.TIME_CFG_PPS_IN_EN = 1)
    (harm : s.dev.tim.ppsArmed = false) : ∃ t, exec .ppsInEdge s = .next t ∧ t.store = s.store ∧ t.dev.tim.ppsLast = some s.dev.tim.tide := by
  refine next_keepsStore_dev (onDev_ifPowered hoff Dev.ppsInEdge) ?_
  dsimp only
  rw [Dev.ppsInEdge_unarmed hst hen harm, Dev.servo_tim]

theorem timeNowLoRead_answers (hoff : s.dev.glb.off = false) (m : Master) : ∃ t, exec (.timeNowLoRead m) s = .next t ∧ t.store = s.store ∧
    t.dev.out = s.dev.out ++ [.regData m 0 (natLE 4 (s.dev.ns % 2 ^ 32))] := by
  refine next_keepsStore_dev (onDev_ifPowered hoff (fun d => (d.latchTime).regAnswer m 0 (natLE 4 (d.ns % 2 ^ 32)))) ?_
  dsimp only
  rw [Dev.regAnswer_out, Dev.latchTime_eq, (Dev.wrNow_frame ..).2]

end

theorem timeCommandsComplete : Said.TimeCommandsComplete := by
  refine ⟨fun s hrun => ⟨fun hst hst3 hup hcarry hdue => timeSyncSend_notes hrun hst hst3 hup hcarry hdue,
      fun p t1 hcarry hst hst4 => (timeExchange.2 p t1 s hrun hcarry).1 hst hst4,
      fun r hex hlocked hrep hch hre => timeSyncReply_delays hrun hex hlocked hrep hch hre⟩,
    fun s hoff => ⟨fun t1 l hex hold => exchangeTimeout_drops hoff hex hold, ?_,
      fun hst hen harm => ppsInEdge_notes hoff hst hen harm, fun t0 hst hen hlast hlate => ?_, fun hlow hen hsec => ?_,
      fun m => timeNowLoRead_answers hoff m, fun hstage hms => ?_⟩,
    fun m v s hopen hown => ⟨fun hst hval => ⟨?_, ?_⟩, fun hst => ?_, fun hroot hbit hport hsync => ?_⟩⟩
  · exact next_keepsStore_dev (onDev_ifPowered hoff Dev.tideHoldEnd) rfl
  · exact (ppsMissed_counts hoff hst hen hlast hlate).imp fun t ⟨hexec, hstore, hnone, _⟩ => ⟨hexec, hstore, hnone⟩
  · exact (ppsOutEdge_rises hoff hlow hen hsec).imp fun t ⟨hexec, hstore, hout, _⟩ => ⟨hexec, hstore, hout⟩
  · exact (mgmtHeartbeat_counts hoff hstage hms).imp fun t ⟨hexec, hstore, hbeat, _⟩ => ⟨hexec, hstore, hbeat⟩
  · exact (timeSet_done hopen hown ⟨hst, hval⟩ v).imp fun t ⟨hexec, hstore, hres, _⟩ => ⟨hexec, hstore, hres⟩
  · exact (timeSetAtPps_armed hopen hown ⟨hst, hval⟩ v).imp fun t ⟨hexec, hstore, htim, _⟩ => ⟨hexec, hstore, by rw [htim]⟩
  · exact (reacquire_done hopen hown hst v).imp fun t ⟨hexec, hstore, hst, _⟩ => ⟨hexec, hstore, hst⟩
  · exact (timeRootWrite_root hopen hown hroot hbit hport hsync).imp fun t ⟨hexec, hstore, hst, _⟩ => ⟨hexec, hstore, hst⟩

/-! ### Management -/

/-- A read of a plain register by the host (R602). -/
theorem hostRead_plain {s : State} {p off : Nat} (ho : off < 0x1000) (h4 : off % 4 = 0)
    (hread : s.dev.readReg (p * 0x1000 + off) = (s.dev.readWord (p * 0x1000 + off), s.dev)) (hbar : s.dev.barOpen = true) :
    exec (.counterLowRead .host p (.reg off 4)) s = .next { s with
      dev := s.dev.regAnswer .host 0 (natLE 4 (s.dev.readWord (p * 0x1000 + off))) } := by
  have hanswer : s.dev.hostRegRead (p * 0x1000 + off) 4 = s.dev.regAnswer .host 0 (natLE 4 (s.dev.readWord (p * 0x1000 + off))) := by
    have hok : accessOk (p * 0x1000 + off) 4 = true := accessOk_iff.2 (.inl ⟨rfl, by omega⟩)
    simp [Dev.hostRegRead, hbar, hok, Dev.readBytes_four hread]
  refine (onDev_eq (Dev.counterLowRead .host p (.reg off 4)) s).trans ?_
  simp only [Dev.counterLowRead, Nat.mod_eq_of_lt ho, hanswer]

theorem managementCommandsComplete : Said.ManagementCommandsComplete := by
  refine ⟨fun p off s hreg hcnt htime hmj hscrub hp => ?_, fun v s hopen hfm hslots hroom => ?_, fun b q s hrun hdom hq hother => ?_,
    fun b s hrun hperst hint hen hfree => ?_⟩
  · obtain ⟨-, ho, h4, -⟩ := id hreg
    have ha : p * 0x1000 + off < 2 ^ 24 := by omega
    have ha4 : (p * 0x1000 + off) % 4 = 0 := by omega
    have hread := s.dev.readReg_plain (a := p * 0x1000 + off) (by rwa [page_div p off ho, page_mod p off ho]) htime hmj hscrub
    refine ⟨fun hoff hreach => regRead_plain ha ha4 hread hoff (by rwa [page_div p off ho]), hostRead_plain ho h4 hread,
      fun src hrun hfm => fmRegRead_plain ha ha4 hread hrun hfm, fun v hv hopen htaken => ?_, fun src v hv hopen hfm htaken => ?_⟩
    · exact (registerWrites p off v s hreg hv).2.2.1 hopen htaken
    · exact (registerWrites p off v s hreg hv).2.2.2 src hopen hfm htaken
  · obtain ⟨t, hexec, hstore, -, hqueue, -⟩ := fmqGo_queues hopen hfm hslots
    obtain ⟨b, hb, -⟩ := hqueue hroom
    exact ⟨t, b, hexec, hstore, hb⟩
  · exact ⟨_, onPkg_leaves hrun hdom (fmqSend_leaves (x := (s.store, s.dev)) hq hother), rfl, by simp [withPkg]⟩
  · obtain ⟨t, hexec, hstore, hprod⟩ := fmqReceive_receives (b := b) hrun hperst hint
    rw [if_pos ⟨hen, hfree⟩] at hprod
    exact ⟨t, hexec, hstore, hprod.2⟩

/-- Settles O60. -/
theorem packageCommandsComplete : Obligations.PackageCommandsComplete :=
  ⟨headerCommandsComplete, powerCommandsComplete, timeCommandsComplete, managementCommandsComplete⟩

end Sys2Proof.Machine


/-!
SUPPORT. O27, a DATA frame for no request while a dispatch stands before its start (stage 4). The package goes on of itself after every
DATA frame, so the dispatch starts: `Said.DataFrames` has no such dispatch among what must not wait.
-/
namespace Sys2Proof.Machine

/-- A running dispatch of one choice among no experts. -/
def choiceOfNone : FOp where
  id := 1
  desc := List.replicate 112 0 ++ [1]
  kind := 5
  ctx := 0
  ticket := 5
  landing := none
  subRing := 0
  cmpRing := 0
  state := .running
  scored := false
  acceptAt := 0
  seq := 0

/-- A package that serves a tenant: every domain on, boot at READY, SERVING with ticket 5, node 22 of an 8 × 16 domain. -/
def inService : Dev :=
  let d := ((((State.reset.dev.wr F.PWR_DOM_STAT_ON (2 ^ 30 - 1)).wr F.GLB_BOOT_STAT_STAGE 4).wr F.RCV_SLIPWAY_STAGE 4).wr F.SEC_TENANT_STATE 1).wr
    F.SEC_TENANT_TICKET 5
  { d with glb := { d.glb with join := some ⟨8, 16, 6, 2, 22⟩ } }

/-- The package in service with that dispatch before its start, its expert table read. -/
def dispatchWaits : State := { State.reset with dev := { inService with fry := { inService.fry with
  ops := [choiceOfNone], disp := [{ op := 1, stage := 4, table := some [] }] } } }

/-- How many dispatches the package holds once a DATA frame has arrived at landing 0, whose crossing is empty. -/
def dispatchesAfterData : Option Nat :=
  match exec (.dataFrame 0 0 []) dispatchWaits with
  | .next t => some t.dev.fry.disp.length
  | _ => none

theorem dispatchesAfterData_eq : dispatchesAfterData = some 0 := by decide +kernel

/-- Refutes O27: from `dispatchWaits` a DATA frame that is not the first in its crossing ends the dispatch, with RIGHTS. -/
theorem not_landingData : ¬ Obligations.LandingData := by
  rintro ⟨-, h⟩
  have hsame := (h 0 0 [] ⟨0, 0, 0, {}, [], 0, [], 0, 0⟩ 0 dispatchWaits (by decide +kernel) (by decide +kernel) (by decide +kernel)
    (by decide +kernel) (by decide +kernel) (by decide +kernel) (by decide +kernel) (by decide +kernel) (by decide +kernel)
    (by decide +kernel)).1 (by decide +kernel) (by decide +kernel)
  have hafter : dispatchesAfterData = some 1 := by
    unfold dispatchesAfterData
    rw [hsame]
    rfl
  rw [dispatchesAfterData_eq] at hafter
  cases hafter

end Sys2Proof.Machine


/-!
SUPPORT. O31, a table walk of a context number that no landing can name. `Said.Walks` bounds no context: the address of its context entry
(`Dev.ctxGpa`) then has another node's number in it, one outside the domain, and the walk ends at once.
-/
namespace Sys2Proof.Machine

/-- A walk of context 2³⁶, whose entry lies 2⁴⁶ bytes, two nodes, past the first. -/
def farWalk : Walk := ⟨1, 2 ^ 36, 0, .ctx, false, []⟩

/-- A package that serves a tenant, the only node of its domain, with that walk queued. -/
def farWalkQueued : State := { State.reset with dev := { inService with
  glb := { inService.glb with join := some ⟨1, 1, 1, 1, 0⟩ }
  xlt := { inService.xlt with missQ := [farWalk] } } }

/-- How many walks the package holds once the walk has started. -/
def walksAfterStart : Option Nat :=
  match exec .walkStart farWalkQueued with
  | .next t => some t.dev.xlt.walks.length
  | _ => none

theorem walksAfterStart_eq : walksAfterStart = some 0 := by decide +kernel

/-- Refutes O31: from `farWalkQueued` the walk's read names no node of the domain, so that the walk is over, with RIGHTS, as it starts. -/
theorem not_translation : ¬ Obligations.Translation := by
  rintro ⟨⟨h, -, -⟩, -⟩
  obtain ⟨t, hexec, -, -, hwalks, -⟩ := h farWalk [] farWalkQueued (by decide +kernel) (by decide +kernel) (by decide +kernel)
    (by decide +kernel) (by decide +kernel) (by decide +kernel) (by decide +kernel) (by decide +kernel) (by decide +kernel)
  have hafter : walksAfterStart = some 1 := by
    unfold walksAfterStart
    rw [hexec]
    simp [hwalks]
  rw [walksAfterStart_eq] at hafter
  cases hafter

end Sys2Proof.Machine


/-!
SUPPORT. O42, a semaphore that lies on no node of the domain. `Said.Waits` does not say that the word an operation waits on is in the
package (R284, which `Pkg.opAccept` checks): the CAS tried again then names no node, and the operation ends at once.
-/
namespace Sys2Proof.Machine

/-- An operation that waits for one permit of the semaphore at GPA 2⁴⁶, of node 2. -/
def farSemWaiter : FOp where
  id := 1
  desc := [0, 16, 0, 0, 0, 0, 0, 0, 0, 0, 0, 0, 0, 0x40, 16, 0, 1]
  kind := 1
  ctx := 0
  ticket := 5
  landing := some 0
  subRing := 0
  cmpRing := 0
  state := .waiting
  scored := true
  acceptAt := 0
  seq := 0

/-- Its CAS, sent and not answered. -/
def farSemRequest : OutReq where
  acc := { eng := 6, ctx := 0, landing := 0, ticket := 5, kind := .atomic, purpose := .sem 1 0 }
  msg := .msix 0
  dest := 0
  tag := 0
  man := none
  bytes := 0
  lines := []
  firstAt := 0
  sentAt := 0
  bounces := 0

/-- A package that serves a tenant, the only node of its domain, with that operation. -/
def farSemWaits : State := { State.reset with dev := { inService with
  glb := { inService.glb with join := some ⟨1, 1, 1, 1, 0⟩ }
  fry := { inService.fry with ops := [farSemWaiter] }
  src := { inService.src with reqs := [farSemRequest] } } }

/-- Where the operation stands once its CAS is answered with 5 permits. -/
def stateAfterCas : Option OpState :=
  match exec (.semAcquireAnswer 1 0 { status := 0 } [5]) farSemWaits with
  | .next t => (t.dev.fop 1).map FOp.state
  | _ => none

theorem stateAfterCas_eq : stateAfterCas = some .complete := by decide +kernel

/-- Refutes O42: from `farSemWaits` the CAS is tried again at a node outside the domain, which completes the operation with RIGHTS. -/
theorem not_ferryman : ¬ Obligations.Ferryman := by
  rintro ⟨-, ⟨-, h, -⟩, -⟩
  obtain ⟨t, p, hexec, -, hop, hstate, -⟩ := (h 1 { status := 0 } [5] farSemWaiter farSemRequest farSemWaits (by decide +kernel) (by decide +kernel)
    (by decide +kernel) (by decide +kernel) (by decide +kernel) (by decide +kernel) (by decide +kernel) (by decide +kernel)
    (by decide +kernel) (by decide +kernel) (by decide +kernel) (by decide +kernel) (by decide +kernel)).2 (by decide +kernel)
    (by decide +kernel) (by decide +kernel) |>.2 0 (by decide +kernel) (by decide +kernel) (by decide +kernel) (by decide +kernel)
  have hafter : stateAfterCas = some .waiting := by
    unfold stateAfterCas
    rw [hexec]
    simp [hop, hstate]
  rw [stateAfterCas_eq] at hafter
  cases hafter

end Sys2Proof.Machine


/-!
SUPPORT. O55, an ASSIGN that forgets a retired operation's record. `Said.TenancyCommands` does not say that the numbers of operations
differ: here another operation bears the number of the record, and a job of that number becomes ready and fails, with an interrupt.
-/
namespace Sys2Proof.Machine

/-- A completed operation of a tenant that is gone, one of its translations without an outcome. -/
def forgottenOp : FOp where
  id := 1
  desc := []
  kind := 2
  ctx := 0
  ticket := 5
  landing := none
  subRing := 0
  cmpRing := 0
  state := .complete
  scored := false
  acceptAt := 0
  seq := 0
  retired := true
  pages := [⟨0, 0, none⟩]

/-- A running job of the same number: one row, one column, one element of K, its slots at GPA 0. -/
def sameNumberOp : FOp := { forgottenOp with
  desc := List.replicate 76 0 ++ [1, 0, 0, 0, 1, 0, 0, 0, 1]
  state := .running
  retired := false
  pages := [] }

/-- A program of one MAC. -/
def oneMac : List Byte := 1 :: List.replicate 70 0 ++ [0x20]

/-- A vacant package with a staged key, both operations, and array 0 at the start of the job's slice; an error of the ferryman's first page
interrupts. -/
def recordForgotten : State :=
  let d := (inService.wr F.SEC_TENANT_STATE 0).wrp F.BLK_IER_ERRCAP_EN 0x30 1
  { State.reset with dev := { d with
    sec := { d.sec with staged := some 1 }
    fry := { d.fry with
      ops := [forgottenOp, sameNumberOp]
      jobs := [⟨1, [], 1, false, [], 16⟩]
      arrs := { slice := some ⟨1, 0, 0, [0], 0, 1, 0, 0, [], false, [], 16, false, false⟩, progs := [some ⟨0, 0, oneMac, 0, false⟩, none, none, none] } ::
        d.fry.arrs.tail } } }

/-- How much the package has sent once the tenancy is assigned. -/
def sentOnAssign : Option Nat :=
  match exec (.assign (.msg 22 5)) recordForgotten with
  | .next t => some t.dev.out.length
  | _ => none

theorem sentOnAssign_eq : sentOnAssign = some 2 := by decide +kernel

/-- Refutes O55: from `recordForgotten` ASSIGN is answered, and the job's failure then sends an MSI-X message. -/
theorem not_tenancy : ¬ Obligations.Tenancy := by
  rintro ⟨⟨h, -⟩, -⟩
  obtain ⟨u, hexec, -, -, -, -, -, -, -, hout⟩ := ((h 22 recordForgotten (by decide +kernel) (by decide +kernel) (by decide +kernel)
    (by decide +kernel) (by decide +kernel)).1 5 (by decide)).1 (by decide +kernel) (by decide) (by decide +kernel) 1 (by decide +kernel)
  have hafter : sentOnAssign = some 1 := by
    unfold sentOnAssign
    rw [hexec]
    simp [hout (by decide +kernel)]
    rfl
  rw [sentOnAssign_eq] at hafter
  cases hafter

end Sys2Proof.Machine


/-!
SUPPORT. O52, manifest numbers, source windows and resynchronisation.
-/
namespace Sys2Proof.Machine

/-! ### The first element that a search finds -/

/-- A change of the first element found that keeps it findable is what the search finds after. -/
theorem List.find?_mapFirst {α : Type} {p : α → Bool} {f : α → α} (hf : ∀ x, p x = true → p (f x) = true) (l : List α) :
    (mapFirst p f l).find? p = (l.find? p).map f := by
  induction l with
  | nil => rfl
  | cons x xs ih =>
    by_cases hx : p x = true
    · simp [mapFirst, hx, hf x hx]
    · simp [mapFirst, hx, ih]

/-! ### Sending -/

theorem Dev.emitMsg_src (d : Dev) (m : Emit) : (d.emitMsg m).src = d.src := by
  unfold Dev.emitMsg
  split
  · split <;> rfl
  · rfl

theorem Dev.emitMsg_out (d : Dev) (m : Emit) : (d.emitMsg m).out = d.out ++ msgFrames m := by
  cases m with
  | req r =>
    simp only [Dev.emitMsg, msgFrames]
    split <;> simp
  | _ => rfl

/-- A request as it leaves: under its engine's next tag, with the manifest number `man`. -/
def Dev.sentAs (o : OutReq) (man : Option Nat) (d : Dev) : OutReq :=
  let tag := (d.nextTag o.acc.eng).getD 0
  { o with tag := tag, man := man, msg := fillMsg tag man (d.afterOf o) d.epochNow o.msg, firstAt := d.tim.tide, sentAt := d.tim.tide }

theorem Dev.sendOut_reqs (o : OutReq) (d : Dev) : (Dev.sendOut o d).src.reqs =
    d.src.reqs ++ [d.sentAs o (if o.acc.kind.isWrite then some (nget d.src.mani (pairKey o.acc.eng o.dest)) else none)] := by
  rw [Dev.sendOut, Dev.emitMsg_src]
  rfl

theorem Dev.sendOut_mani (o : OutReq) (d : Dev) : (Dev.sendOut o d).src.mani = if o.acc.kind.isWrite
    then nset d.src.mani (pairKey o.acc.eng o.dest) ((nget d.src.mani (pairKey o.acc.eng o.dest) + 1) % 65536) else d.src.mani := by
  rw [Dev.sendOut, Dev.emitMsg_src]

theorem Dev.sendOut_out (o : OutReq) (d : Dev) : ∃ m, (Dev.sendOut o d).out = d.out ++ msgFrames m := by
  rw [Dev.sendOut, Dev.emitMsg_out]
  exact ⟨_, rfl⟩

theorem sendOut_write (o : OutReq) (d : Dev) (hw : o.acc.kind.isWrite = true) :
    let k := pairKey o.acc.eng o.dest
    nget (Dev.sendOut o d).src.mani k = (nget d.src.mani k + 1) % 65536 ∧ (∃ m, (Dev.sendOut o d).out = d.out ++ msgFrames m) ∧
    (∃ r, (Dev.sendOut o d).src.reqs = d.src.reqs ++ [r] ∧ r.acc = o.acc ∧ r.man = some (nget d.src.mani k)) ∧
    (∀ j, j ≠ k → nget (Dev.sendOut o d).src.mani j = nget d.src.mani j) := by
  refine ⟨?_, Dev.sendOut_out o d, ⟨_, Dev.sendOut_reqs o d, rfl, ?_⟩, fun j hj => ?_⟩
  · rw [Dev.sendOut_mani, if_pos hw, nget_nset_same]
  · simp [Dev.sentAs, hw]
  · rw [Dev.sendOut_mani, if_pos hw]
    exact tget_tset_ne _ _ _ hj

/-- A write that a read's lines meet, outstanding or ended without an answer, gives the read its AFTER. -/
theorem Dev.afterOf_isSome {o : OutReq} {d : Dev} (hread : o.acc.kind.isWrite = false)
    (h : (∃ w ∈ d.src.lost, w.eng = o.acc.eng ∧ w.dest = o.dest ∧ meets w.lines o.lines = true) ∨
      ∃ p ∈ d.src.reqs, p.acc.kind.isWrite = true ∧ p.man.isSome = true ∧ p.acc.eng = o.acc.eng ∧ meets p.lines o.lines = true) :
    (d.afterOf o).isSome = true := by
  unfold Dev.afterOf
  rw [if_neg (by simp [hread])]
  dsimp only
  split
  · rfl
  · rfl
  · rename_i hopen
    rcases h with ⟨w, hw, heng, hdest, hmeets⟩ | ⟨p, hp, hwrite, hman, heng, hmeets⟩
    · cases hlost : (List.map (fun w : LostWrite => w.man)
          (d.src.lost.filter (fun w => w.eng == o.acc.eng && w.dest == o.dest && meets w.lines o.lines))).getLast? with
      | some _ => simp
      | none =>
        have hmem : w ∈ d.src.lost.filter (fun w => w.eng == o.acc.eng && w.dest == o.dest && meets w.lines o.lines) := by
          simp [hw, heng, hdest, hmeets]
        rw [List.getLast?_eq_none_iff, List.map_eq_nil_iff] at hlost
        rw [hlost] at hmem
        simp at hmem
    · exfalso
      obtain ⟨n, hn⟩ := Option.isSome_iff_exists.mp hman
      have hmem : n ∈ (d.src.reqs.filter (fun p => p.acc.kind.isWrite && p.acc.eng == o.acc.eng && meets p.lines o.lines)).filterMap (·.man) := by
        simp only [List.mem_filterMap, List.mem_filter]
        exact ⟨p, ⟨hp, by simp [hwrite, heng, hmeets]⟩, hn⟩
      rw [List.getLast?_eq_none_iff] at hopen
      rw [hopen] at hmem
      simp at hmem

theorem sendOut_read (o : OutReq) (r : Req) (d : Dev) (hmsg : o.msg = .req r) (hread : o.acc.kind.isWrite = false) :
    (∃ q m, (Dev.sendOut o d).src.reqs = d.src.reqs ++ [q] ∧ q.msg = .req m ∧ m.hdr.av = (d.afterOf o).isSome ∧
      m.hdr.after = (d.afterOf o).getD 0 ∧ m.hdr.mv = false ∧ m.hdr.epoch = d.epochNow) ∧
    (∀ w ∈ d.src.lost, w.eng = o.acc.eng → w.dest = o.dest → meets w.lines o.lines = true → (d.afterOf o).isSome = true) ∧
    (∀ p ∈ d.src.reqs, p.acc.kind.isWrite = true → p.man.isSome = true → p.acc.eng = o.acc.eng → meets p.lines o.lines = true →
      (d.afterOf o).isSome = true) := by
  refine ⟨?_, fun w hw heng hdest hm => Dev.afterOf_isSome hread (.inl ⟨w, hw, heng, hdest, hm⟩),
    fun p hp hwrite hman heng hm => Dev.afterOf_isSome hread (.inr ⟨p, hp, hwrite, hman, heng, hm⟩)⟩
  rw [Dev.sendOut_reqs, hread]
  have hmsg' : (d.sentAs o none).msg = fillMsg ((d.nextTag o.acc.eng).getD 0) none (d.afterOf o) d.epochNow (.req r) := by
    rw [← hmsg]
    rfl
  exact ⟨_, _, rfl, hmsg', rfl, rfl, rfl, rfl⟩

theorem mayIssue_limits (kept : List OutReq) (o : OutReq) (d : Dev) (h : d.mayIssue kept o = true) :
    (o.acc.eng = 5 ∨ d.outBytesTo o.acc.eng o.dest = 0 ∨ d.outBytesTo o.acc.eng o.dest + o.bytes ≤ d.window o.acc.eng o.dest) ∧
    (o.acc.kind.isWrite = true → d.unacked o.acc.eng o.dest < 256 ∧ d.unackedAll o.dest < 512 ∧
      ∀ r ∈ d.src.resyncs, r.eng = o.acc.eng → r.dest ≠ o.dest) := by
  simp only [Dev.mayIssue, Bool.and_eq_true] at h
  obtain ⟨⟨⟨-, hwin⟩, -⟩, hkind⟩ := h
  refine ⟨?_, fun hw => ?_⟩
  · simpa [Dev.windowOpen, Dev.windowRoom, or_assoc] using hwin
  · rw [if_pos hw] at hkind
    simp only [Bool.and_eq_true, decide_eq_true_eq, Bool.not_eq_true', List.any_eq_false] at hkind
    obtain ⟨⟨⟨-, hone⟩, hall⟩, hresync⟩ := hkind
    exact ⟨hone, hall, fun r hr heng hdest => hresync r hr (by simp [heng, hdest])⟩

/-! ### Windows -/

theorem Dev.window_of_win {e : Dev} {eng dest w : Nat} (h : nget e.src.win (pairKey eng dest) = w) (hw : 0 < w) :
    e.window eng dest = w := by
  rw [Dev.window, h, if_neg (by omega)]

theorem Dev.window_count (d : Dev) (p i k eng dest : Nat) : (d.count p i k).window eng dest = d.window eng dest := by
  rw [Dev.window, Dev.window]
  simp

/-- A decrease of level 1 to 3, outside HOLD_NS of the one before. -/
theorem Dev.window_windowCut {d : Dev} {eng dest w lvl : Nat} (hmin : 0 < d.rd F.CNG_WIN_MIN)
    (h : nget d.src.winDec (pairKey eng dest) = 0 ∨
      nget d.src.winDec (pairKey eng dest) - 1 + nsT (d.rd F.CNG_AIMD_HOLD_NS) ≤ d.tim.tide) :
    (d.windowCut (pairKey eng dest) w lvl).window eng dest = max w (d.rd F.CNG_WIN_MIN * 1024) := by
  have hset : ∀ e : Dev, e.src.win = nset d.src.win (pairKey eng dest) (max w (d.rd F.CNG_WIN_MIN * 1024)) →
      e.window eng dest = max w (d.rd F.CNG_WIN_MIN * 1024) := fun e he =>
    Dev.window_of_win (by rw [he, nget_nset_same]) (by omega)
  rw [Dev.windowCut, if_neg (by omega)]
  dsimp only
  split
  · exact hset _ rfl
  · rw [Dev.window_count]
    exact hset _ rfl

theorem windowAnswer_window (eng dest lvl bytes : Nat) (d : Dev) (heng : eng ≠ 5) (hmin : 0 < d.rd F.CNG_WIN_MIN) :
    let k := pairKey eng dest
    let w := d.window eng dest
    let least := d.rd F.CNG_WIN_MIN * 1024
    (lvl = 0 → (Dev.windowAnswer eng dest lvl bytes d).window eng dest =
      max (min (w + d.rd F.CNG_AIMD_ADD * 1024 * bytes / max w 1) (d.rd F.CNG_WIN_MAX * 1024)) least) ∧
    (nget d.src.winDec k = 0 ∨ nget d.src.winDec k - 1 + nsT (d.rd F.CNG_AIMD_HOLD_NS) ≤ d.tim.tide →
      (lvl = 1 → (Dev.windowAnswer eng dest lvl bytes d).window eng dest = max (w * 7 / 8) least) ∧
      (lvl = 2 → (Dev.windowAnswer eng dest lvl bytes d).window eng dest = max (w * 3 / 4) least) ∧
      (lvl = 3 → (Dev.windowAnswer eng dest lvl bytes d).window eng dest = max (w / 2) least)) ∧
    (nget d.src.winDec k ≠ 0 → d.tim.tide < nget d.src.winDec k - 1 + nsT (d.rd F.CNG_AIMD_HOLD_NS) → 1 ≤ lvl → lvl ≤ 3 →
      Dev.windowAnswer eng dest lvl bytes d = d) := by
  refine ⟨?_, fun hheld => ⟨?_, ?_, ?_⟩, fun hdec hsoon h1 h3 => ?_⟩
  · rintro rfl
    rw [Dev.windowAnswer, if_neg heng]
    exact Dev.window_of_win (by rw [nget_nset_same]) (by omega)
  · rintro rfl
    rw [Dev.windowAnswer, if_neg heng]
    exact Dev.window_windowCut hmin hheld
  · rintro rfl
    rw [Dev.windowAnswer, if_neg heng]
    exact Dev.window_windowCut hmin hheld
  · rintro rfl
    simp only [Dev.windowAnswer, if_neg heng]
    exact Dev.window_windowCut hmin hheld
  · have hcut : ∀ w l, d.windowCut (pairKey eng dest) w l = d := fun w l => by
      rw [Dev.windowCut, if_pos ⟨hdec, hsoon⟩]
    rcases (by omega : lvl = 1 ∨ lvl = 2 ∨ lvl = 3) with rfl | rfl | rfl <;> simp only [Dev.windowAnswer, if_neg heng, hcut]

theorem manifestsAndWindows : Said.ManifestsAndWindows :=
  ⟨sendOut_write, sendOut_read, mayIssue_limits, windowAnswer_window⟩

/-! ### Resynchronisation -/

theorem Dev.sendResync_resync {d : Dev} {eng dest : Nat} {r : Resync}
    (h : d.src.resyncs.find? (fun r => r.eng == eng && r.dest == dest) = some r) :
    (d.sendResync r).src.resyncs.find? (fun r => r.eng == eng && r.dest == dest) = some { r with sent := true, sentAt := d.tim.tide } := by
  obtain ⟨rfl, rfl⟩ : r.eng = eng ∧ r.dest = dest := by simpa using List.find?_some h
  simp only [Dev.sendResync, Dev.ctrl_frame, Dev.setResync]
  refine (List.find?_mapFirst ?_ _).trans ?_
  · exact fun _ hx => hx
  · rw [h]
    rfl

theorem Dev.sendResync_out {d : Dev} {r : Resync} (h : d.hasNode r.dest = true) :
    (d.sendResync r).out = d.out ++ [.ctrl r.dest (.orderResync r.eng r.rseq)] := by
  refine (Dev.ctrl_out ?_ _).trans rfl
  exact (Dev.hasNode_congr rfl _).trans h

theorem Dev.sendResync_rseq (d : Dev) (r : Resync) : (d.sendResync r).src.rseq = d.src.rseq := by
  simp only [Dev.sendResync, Dev.ctrl_frame]
  rfl

theorem resynchronise : Said.Resynchronise := by
  intro eng dest r s hrun hr
  have hruns : ∀ f : Dev → Dev, onDev (Dev.ifRuns f) s = .next { s with dev := f s.dev } := fun f => by simp [onDev, Dev.ifRuns, hrun]
  obtain ⟨heng, hdest⟩ : r.eng = eng ∧ r.dest = dest := by simpa using List.find?_some hr
  have hdrain : exec (.resyncDrainDone eng dest) s = .next { s with dev := s.dev.resyncDrained eng dest } := hruns _
  have hretry : exec (.orderResyncRetry eng dest) s = .next { s with dev := s.dev.resyncRetry eng dest } := hruns _
  have hdone : ∀ q, exec (.orderResyncDone eng dest q) s = .next { s with dev := s.dev.resyncDone eng dest q } := fun q => hruns _
  rw [hdrain, hretry]
  simp only [hdone, Dev.resyncDrained, Dev.resyncRetry, Dev.resyncDone, hr]
  refine ⟨fun hsent hacked => ?_, fun h => ?_, fun hsent hlate => ?_, fun h => ?_, fun hsent hheld => ?_, fun q h => ?_⟩
  · rw [if_neg (by simp [hsent, hacked])]
    refine ⟨_, rfl, rfl, fun hnode => ?_, ?_, ?_⟩
    · rw [← hdest, ← heng]
      exact Dev.sendResync_out ((Dev.hasNode_congr rfl _).trans (hdest.symm ▸ hnode))
    · rw [Dev.sendResync_rseq]
      exact nget_nset_same _ _ _
    · exact Dev.sendResync_resync hr
  · rw [if_pos h]
  · rw [if_pos ⟨hsent, hlate⟩]
    refine ⟨_, rfl, rfl, fun hnode => ?_, ?_⟩
    · rw [← hdest, ← heng]
      exact Dev.sendResync_out (hdest.symm ▸ hnode)
    · rw [Dev.sendResync_resync hr, ← hsent]
  · rw [if_neg (by simp only [not_and, not_le]; intro hs; exact h.resolve_left (by simp [hs]))]
  · rw [if_pos ⟨hsent, trivial⟩, Dev.pumpSrc_none]
    swap
    · exact hheld
    refine ⟨_, rfl, rfl, rfl, ?_, ?_, ?_, ?_⟩
    · simp
    · intro w hw he hd
      simp [he, hd] at hw
    · intro p hp he hd q hq
      obtain ⟨p', -, rfl⟩ := List.mem_map.mp hp
      split at hq
      · cases hm : p'.msg <;> simp_all [Emit.noAfter]
        rw [← hq]
      · rename_i hne
        simp_all
    · simp only [List.any_eq_false, List.mem_filter]
      rintro x ⟨-, hx⟩ hsame
      simp [hsame] at hx
  · rw [if_neg (by rintro ⟨hs, hq⟩; rcases h with h | h <;> simp_all)]

/-- Settles O52, by the lemmas on sending, on windows and on the resynchronisation of a pair. -/
theorem sourceWindows : Obligations.SourceWindows := ⟨manifestsAndWindows, resynchronise⟩

end Sys2Proof.Machine


/-!
SUPPORT. O54, KEY_LOAD and the SPDM responder: each request is one function of the device, run while the firmware runs.
-/
namespace Sys2Proof.Machine

section
variable {s : State} (hfw : s.dev.firmware = true)
include hfw

/-- While the firmware runs, its command is the function that it names. -/
theorem onDev_ifFirmware (f : Dev → Dev) : onDev (Dev.ifFirmware f) s = .next { s with dev := f s.dev } := by
  simp [onDev, Dev.ifFirmware, hfw]

omit hfw in
theorem Dev.reported_frame (d : Dev) (f g : Fld) (v w p i k : Nat) (m : Emit) :
    ((((d.wr f v).wr g w).count p i k).emit m).sec = d.sec ∧ ((((d.wr f v).wr g w).count p i k).emit m).out = d.out ++ [m] := by
  simp

theorem keyLoad_taken {k : KeyLoadMsg} (hok : s.dev.keyLoadOk k = true) : ∃ t, exec (.keyLoad k) s = .next t ∧ t.store = s.store ∧
    t.dev.sec = { s.dev.sec with staged := some (k.key % 2 ^ 512) } ∧ t.dev.rd F.SEC_STAGED_ID_STAGED_ID = k.keyId % 2 ^ 32 ∧
    t.dev.rd F.SEC_TENANT_STAGED = 1 ∧
    t.dev.out = s.dev.out ++ [.spdm (s.dev.sessionMctp k.session) "VENDOR_DEFINED_RESPONSE" [k.keyId]] := by
  refine ⟨_, onDev_ifFirmware hfw (Dev.keyLoad k), rfl, ?_⟩
  rw [Dev.keyLoad, if_pos hok]
  refine ⟨(Dev.reported_frame _ _ _ _ _ _ _ _ _).1, ?_, ?_, (Dev.reported_frame _ _ _ _ _ _ _ _ _).2⟩
  · rw [Dev.rd_emit, Dev.rd_count, Dev.rd_wr_ne _ _ _ _ (by decide), Dev.rd_wr_same _ _ _ (by decide)]
    rfl
  · rw [Dev.rd_emit, Dev.rd_count, Dev.rd_wr_same _ _ _ (by decide)]
    rfl

theorem keyLoad_refused {k : KeyLoadMsg} (hbad : s.dev.keyLoadOk k = false) : exec (.keyLoad k) s = .next { s with
    dev := (s.dev.count 3 1 1).emit (.spdm (s.dev.sessionMctp k.session) "ERROR" []) } := by
  refine (onDev_ifFirmware hfw (Dev.keyLoad k)).trans ?_
  rw [Dev.keyLoad, if_neg (by simp [hbad])]

/-- The answer is signed with the alias key, over one fresh draw. -/
def signsAnswer (s : State) (c : Instr) (mctp : Bool) (name : String) (args : List Nat) : Prop :=
  ∀ key, s.dev.sec.aliasKey = some key → ∃ t n, exec c s = .next t ∧ t.store = s.store ∧ t.dev.regs = s.dev.regs ∧
    t.dev.out = s.dev.out ++ [.spdm mctp name (args ++ [Config.signature key n args])]

omit hfw in
theorem signsAnswer_of {c : Instr} {mctp : Bool} {name : String} {args : List Nat}
    (h : exec c s = .next { s with dev := s.dev.spdmSigned mctp name args }) : signsAnswer s c mctp name args := by
  intro key hkey
  refine ⟨_, s.dev.draw.1, h, rfl, ?_⟩
  simp only [Dev.spdmSigned, hkey]
  exact ⟨rfl, rfl⟩

/-- A request before the algorithms are agreed on is an error. -/
theorem negotiated_error (mctp : Bool) (f : Dev → Dev) (halgs : s.dev.sec.spdmAlgs = false) :
    onDev (Dev.ifFirmware (Dev.negotiated mctp f)) s = .next { s with dev := s.dev.emit (.spdm mctp "ERROR" []) } := by
  rw [onDev_ifFirmware hfw, Dev.negotiated, halgs]
  rfl

/-- A request after that is carried out. -/
theorem negotiated_runs (mctp : Bool) (f : Dev → Dev) (halgs : s.dev.sec.spdmAlgs = true) :
    onDev (Dev.ifFirmware (Dev.negotiated mctp f)) s = .next { s with dev := f s.dev } := by
  rw [onDev_ifFirmware hfw, Dev.negotiated, if_pos halgs]

theorem getMeasurements_answers (mctp : Bool) (halgs : s.dev.sec.spdmAlgs = true) {i nonce : Nat} {l : List Nat}
    (hl : s.dev.measurement i = some l) : signsAnswer s (.getMeasurements mctp i nonce) mctp "MEASUREMENTS" (i :: l ++ [nonce]) := by
  refine signsAnswer_of ((negotiated_runs hfw mctp _ halgs).trans ?_)
  rw [Dev.getMeasurements, hl]

theorem getMeasurements_error (mctp : Bool) (halgs : s.dev.sec.spdmAlgs = true) {i : Nat} (nonce : Nat) (hi : i = 0 ∨ 6 < i) :
    exec (.getMeasurements mctp i nonce) s = .next { s with dev := s.dev.emit (.spdm mctp "ERROR" []) } := by
  have hnone : s.dev.measurement i = none := by
    rcases hi with rfl | hi
    · rfl
    · obtain ⟨j, rfl⟩ : ∃ j, i = j + 7 := ⟨i - 7, by omega⟩
      rfl
  refine (negotiated_runs hfw mctp _ halgs).trans ?_
  rw [Dev.getMeasurements, hnone]
  rfl

theorem keyExchange_opens (mctp : Bool) (halgs : s.dev.sec.spdmAlgs = true) (share root : Nat) (ma : Bool)
    (hroom : s.dev.sec.sessions.length < 2) (key : Nat) (hkey : s.dev.sec.aliasKey = some key) :
    ∃ t x n, exec (.keyExchange mctp share root ma true) s = .next t ∧ t.store = s.store ∧
      t.dev.sec = { s.dev.sec with sessions := s.dev.sec.sessions ++ [⟨s.dev.sec.nextSession, mctp, false, ma, root, 0⟩],
                                   nextSession := s.dev.sec.nextSession + 1 } ∧
      t.dev.out = s.dev.out ++ [.spdm mctp "KEY_EXCHANGE_RSP" ([s.dev.sec.nextSession, share, x] ++
        [Config.signature key n [s.dev.sec.nextSession, share, x]])] := by
  refine ⟨_, s.dev.draw.1, s.dev.draw.2.draw.1, negotiated_runs hfw mctp _ halgs, rfl, ?_⟩
  rw [Dev.keyExchange, if_pos ⟨rfl, hroom⟩]
  simp only [Dev.spdmSigned, Dev.draw, hkey]
  exact ⟨rfl, rfl⟩

theorem keyExchange_error (mctp : Bool) (halgs : s.dev.sec.spdmAlgs = true) (share root : Nat) (ma good : Bool)
    (h : good = false ∨ 2 ≤ s.dev.sec.sessions.length) :
    exec (.keyExchange mctp share root ma good) s = .next { s with dev := s.dev.emit (.spdm mctp "ERROR" []) } := by
  refine (negotiated_runs hfw mctp _ halgs).trans ?_
  rw [Dev.keyExchange, if_neg]
  · rfl
  · rintro ⟨hgood, hroom⟩
    rcases h with h | h
    · simp [h] at hgood
    · omega

/-! ### Sessions -/

section
variable {n : Nat} {x : Session} (hx : s.dev.sec.sessions.find? (fun x => x.id == n) = some x)
include hx

theorem onSession_runs {needs : Bool} {f : Session → Dev → Dev} (hneeds : needs = true → x.established = true) :
    onDev (Dev.ifFirmware (Dev.onSession n needs f)) s = .next { s with dev := f x s.dev } := by
  rw [onDev_ifFirmware hfw, Dev.onSession, hx]
  dsimp only
  rw [if_neg]
  cases needs <;> simp_all

theorem onSession_early {f : Session → Dev → Dev} (hest : x.established = false) :
    onDev (Dev.ifFirmware (Dev.onSession n true f)) s = .next { s with dev := s.dev.emit (.spdm x.mctp "ERROR" []) } := by
  rw [onDev_ifFirmware hfw, Dev.onSession, hx]
  simp [hest, Dev.spdmError]

omit hfw in
theorem Dev.setSession_find {f : Session → Session} (hf : ∀ y : Session, (f y).id = y.id) :
    (s.dev.setSession n f).sec.sessions.find? (fun x => x.id == n) = some (f x) := by
  refine (List.find?_mapFirst ?_ _).trans ?_
  · exact fun y hy => by simpa [hf y] using hy
  · rw [hx]
    rfl

theorem finish_good : ∃ t, exec (.finish n true) s = .next t ∧ t.store = s.store ∧ t.dev.regs = s.dev.regs ∧
    t.dev.sec.sessions.find? (fun x => x.id == n) = some { x with established := true } ∧
    t.dev.out = s.dev.out ++ [.spdm x.mctp "FINISH_RSP" [n]] :=
  ⟨_, onSession_runs hfw hx (by simp), rfl, rfl, Dev.setSession_find hx (fun _ => rfl), rfl⟩

theorem finish_bad : ∃ t, exec (.finish n false) s = .next t ∧ t.store = s.store ∧
    t.dev.sec.sessions = s.dev.sec.sessions.filter (fun x => x.id != n) ∧ t.dev.out = s.dev.out ++ [.spdm x.mctp "ERROR" []] :=
  ⟨_, onSession_runs hfw hx (by simp), rfl, rfl, rfl⟩

theorem keyUpdate_established (hest : x.established = true) : ∃ t, exec (.keyUpdate n) s = .next t ∧ t.store = s.store ∧
    t.dev.sec.sessions.find? (fun x => x.id == n) = some { x with keyGen := x.keyGen + 1 } ∧
    t.dev.out = s.dev.out ++ [.spdm x.mctp "KEY_UPDATE_ACK" [n]] :=
  ⟨_, onSession_runs hfw hx (fun _ => hest), rfl, Dev.setSession_find hx (fun _ => rfl), rfl⟩

theorem endSession_established (hest : x.established = true) : ∃ t, exec (.endSession n) s = .next t ∧ t.store = s.store ∧
    t.dev.sec.sessions = s.dev.sec.sessions.filter (fun x => x.id != n) ∧
    t.dev.out = s.dev.out ++ [.spdm x.mctp "END_SESSION_ACK" [n]] :=
  ⟨_, onSession_runs hfw hx (fun _ => hest), rfl, rfl, rfl⟩

end

theorem onSession_none {n : Nat} (hx : s.dev.sec.sessions.find? (fun x => x.id == n) = none) (needs : Bool) (f : Session → Dev → Dev) :
    onDev (Dev.ifFirmware (Dev.onSession n needs f)) s = .next { s with dev := s.dev.emit (.spdm false "ERROR" []) } := by
  rw [onDev_ifFirmware hfw, Dev.onSession, hx]
  rfl

end

/-- What a KEY_LOAD that is taken has met (R519). -/
theorem keyLoadOk_session (k : KeyLoadMsg) (d : Dev) (h : d.keyLoadOk k = true) : d.kaRoot ≠ 0 ∧ k.unwraps = true ∧
    bits k.key 0 256 ≠ bits k.key 256 256 ∧
    ∃ n x, k.session = some n ∧ x ∈ d.sec.sessions ∧ x.id = n ∧ x.established = true ∧ x.mutualAuth = true ∧ x.rootDigest = d.kaRoot := by
  unfold Dev.keyLoadOk at h
  split at h
  · cases h
  · rename_i n hn
    split at h
    · cases h
    · rename_i x hx
      simp only [Bool.and_eq_true, bne_iff_ne, ne_eq, beq_iff_eq] at h
      obtain ⟨⟨⟨⟨⟨hest, hma⟩, hroot⟩, hdig⟩, hunw⟩, hkey⟩ := h
      exact ⟨hroot, hunw, hkey, n, x, hn, List.mem_of_find?_eq_some hx, by simpa using List.find?_some hx, hest, hma, hdig⟩

/-- While the firmware does not run, its commands change nothing. -/
theorem onDev_noFirmware {s : State} (hfw : s.dev.firmware = false) (f : Dev → Dev) : onDev (Dev.ifFirmware f) s = .next s := by
  simp [onDev, Dev.ifFirmware, hfw]

/-- Settles O54, request by request. -/
theorem keysAndAttestation : Obligations.KeysAndAttestation := by
  refine ⟨keyLoadOk_session, fun s hfw => ⟨fun k => ⟨keyLoad_taken hfw, keyLoad_refused hfw⟩, fun mctp => ?_, fun n hn => ?_, fun n x hx => ?_,
    fun a b c d e f k => ?_⟩, fun s mctp k hfw => ?_⟩
  · refine ⟨onDev_ifFirmware hfw _, fun v => ⟨fun hv => ?_, fun h2 h3 => ?_⟩, fun o => ⟨fun hcaps ho => ?_, fun h => ?_⟩,
      fun halgs a b c root ma good => ?_, fun halgs => ?_⟩
    · refine (onDev_ifFirmware hfw (Dev.getCapabilities mctp v)).trans ?_
      rw [Dev.getCapabilities, if_pos hv]
    · refine (onDev_ifFirmware hfw (Dev.getCapabilities mctp v)).trans ?_
      rw [Dev.getCapabilities, if_neg (by omega)]
      rfl
    · refine (onDev_ifFirmware hfw (Dev.negotiate mctp o)).trans ?_
      rw [Dev.negotiate, if_pos ⟨hcaps, ho⟩]
    · refine (onDev_ifFirmware hfw (Dev.negotiate mctp o)).trans ?_
      rw [Dev.negotiate, if_neg (by rintro ⟨hc, ho⟩; rcases h with h | h <;> simp_all)]
      rfl
    · have herr := fun f => negotiated_error hfw mctp f halgs
      exact ⟨herr _, herr _, herr _, herr _, herr _⟩
    · have hrun := fun f => negotiated_runs hfw mctp f halgs
      refine ⟨hrun _, fun off len => hrun _, fun nonce => signsAnswer_of (hrun _), fun slot a b hslot => ?_, fun nonce => ?_,
        fun share root ma => ?_⟩
      · refine ⟨(hrun _).trans ?_, (hrun _).trans ?_⟩
        · rw [Dev.getCertificate, if_neg hslot]
          rfl
        · rw [Dev.challenge, if_neg hslot]
          rfl
      · have hanswer := fun {i : Nat} {l : List Nat} => getMeasurements_answers (i := i) (nonce := nonce) (l := l) hfw mctp halgs
        exact ⟨hanswer (l := [Config.romDigest]) rfl, hanswer (l := [s.dev.sec.imageDigest]) rfl,
          hanswer (l := [s.dev.glb.straps.1, s.dev.glb.straps.2]) rfl, hanswer (l := [s.dev.rd F.SEC_BOOT_STAT_SVN, s.dev.glb.fuseFloor]) rfl,
          hanswer (l := [s.dev.rd F.SEC_BOOT_STAT_DEBUG_UNLOCKED, s.dev.rd F.SEC_BOOT_STAT_KEY_INDEX, b2n s.dev.sec.secondary]) rfl,
          hanswer (l := [s.dev.tenancy, s.dev.ticket, s.dev.rd F.SEC_KEY_ID_ACTIVE_ID]) rfl,
          fun i hi => getMeasurements_error hfw mctp halgs nonce hi⟩
      · exact ⟨keyExchange_opens hfw mctp halgs share root ma, fun h => keyExchange_error hfw mctp halgs share root ma true (.inr h),
          keyExchange_error hfw mctp halgs share root ma false (.inl rfl)⟩
  · have herr := fun needs f => onSession_none hfw hn needs f
    exact ⟨herr _ _, herr _ _, herr _ _, herr _ _⟩
  · have hearly := fun (hest : x.established = false) f => onSession_early hfw hx (f := f) hest
    exact ⟨finish_good hfw hx, finish_bad hfw hx, fun hest => ⟨hearly hest _, hearly hest _, hearly hest _⟩,
      fun hest => ⟨onSession_runs hfw hx (fun _ => hest), keyUpdate_established hfw hx hest, endSession_established hfw hx hest⟩⟩
  · exact ⟨rfl, rfl, rfl, rfl, rfl, rfl, rfl, rfl, rfl, rfl, rfl, rfl, rfl, onDev_ifFirmware hfw _⟩
  · exact ⟨onDev_noFirmware hfw _, onDev_noFirmware hfw _, fun m => onDev_noFirmware hfw _⟩

end Sys2Proof.Machine


/-!
SUPPORT. O51, how a request ends: what a package at rest looks at, and the end of a request after which nothing goes on.
-/
namespace Sys2Proof.Machine

/-! ### The parts of a package at rest -/

/-- What decides whether a package is at rest. -/
def Dev.rest (d : Dev) : (List Xfer × List FOp × List Job × List DispReq × List Arr) ×
    List (List PortReq × List LWait) × (List PortReq × List HWait) × List OutReq :=
  ((d.fry.xfers, d.fry.ops, d.fry.jobs, d.fry.disp, d.fry.arrs), d.lnd.map (fun l => (l.inQ, l.gate)), (d.host.inQ, d.host.gate), d.src.noNode)

theorem Dev.lnd_rest {d e : Dev} (h : e.rest = d.rest) (n : Nat) : (e.lndOf n).inQ = (d.lndOf n).inQ ∧ (e.lndOf n).gate = (d.lndOf n).gate := by
  have hlnd : e.lnd.map (fun l => (l.inQ, l.gate)) = d.lnd.map (fun l => (l.inQ, l.gate)) := congrArg (fun r => r.2.1) h
  have hn := congrArg (fun l => (l[n]?).getD ([], [])) hlnd
  simp only [List.getElem?_map] at hn
  unfold Dev.lndOf nth
  cases he : e.lnd[n]? <;> cases hd : d.lnd[n]? <;> simp_all

theorem quiet_rest {d e : Dev} (h : e.rest = d.rest) (hq : quiet d) : quiet e := by
  have hlnd := Dev.lnd_rest h
  simp only [Dev.rest, Prod.mk.injEq] at h
  obtain ⟨⟨hxfers, hops, hjobs, hdisp, harrs⟩, -, ⟨hinQ, hgate⟩, hnoNode⟩ := h
  simpa [quiet, Dev.portQ, Dev.jobReady, Dev.fop, Dev.job, Dev.jobLoaded, Dev.arr, hlnd, hxfers, hops, hjobs, hdisp, harrs, hinQ, hgate,
    hnoNode] using hq

theorem map_modAt_keep {α β : Type} {f : α → α} {g : α → β} (h : ∀ x, g (f x) = g x) (l : List α) (i : Nat) :
    (modAt f l i).map g = l.map g := by
  induction l generalizing i with
  | nil => rfl
  | cons x xs ih =>
    cases i with
    | zero => simp [modAt, h]
    | succ i => simp [modAt, ih]

section
variable (d : Dev)

theorem Dev.rest_setLnd (n : Nat) {f : Lnd → Lnd} (h : ∀ l : Lnd, (f l).inQ = l.inQ ∧ (f l).gate = l.gate) :
    (d.setLnd n f).rest = d.rest := by
  have hmap := map_modAt_keep (g := fun l : Lnd => (l.inQ, l.gate)) (f := f) (by simp [h]) d.lnd n
  simp only [Dev.rest, Dev.setLnd, hmap]

@[simp] theorem Dev.rest_emit (m : Emit) : (d.emit m).rest = d.rest := rfl

@[simp] theorem Dev.rest_count (p i k : Nat) : (d.count p i k).rest = d.rest := by simp [Dev.rest]

@[simp] theorem Dev.rest_ctrl (n : Nat) (m : CtrlMsg) : (d.ctrl n m).rest = d.rest := by simp [Dev.rest]

@[simp] theorem Dev.rest_wr (f : Fld) (v : Nat) : (d.wr f v).rest = d.rest := by simp [Dev.rest]

@[simp] theorem Dev.rest_attach (n op tag status : Nat) (data : List Byte) : (d.attach n op tag status data).rest = d.rest := by
  refine (Dev.rest_setLnd (d.setLnd n _) n ?_).trans (d.rest_setLnd n ?_)
  · exact fun _ => ⟨rfl, rfl⟩
  · exact fun _ => ⟨rfl, rfl⟩

theorem Dev.attach_frame (n op tag status : Nat) (data : List Byte) : (d.attach n op tag status data).src = d.src ∧
    (d.attach n op tag status data).fry = d.fry ∧ (d.attach n op tag status data).home = d.home ∧
    (d.attach n op tag status data).out = d.out ++ [.attach n op tag status data] := ⟨rfl, rfl, rfl, rfl⟩

/-! ### A request leaves its engine -/

/-- The package once request `o` has ended with `st`, before its unit takes the outcome. -/
def Dev.ended (o : OutReq) (how st : Nat) : Dev := ((d.endOut o how).fenceNote o.acc st).resyncIf o st

theorem Dev.fenceNote_frame (a : Acc) (st : Nat) : (d.fenceNote a st).fry = d.fry ∧ (d.fenceNote a st).lnd = d.lnd ∧
    (d.fenceNote a st).host = d.host ∧ (d.fenceNote a st).home = d.home ∧ (d.fenceNote a st).out = d.out ∧
    (d.fenceNote a st).src.reqs = d.src.reqs ∧ (d.fenceNote a st).src.held = d.src.held ∧ (d.fenceNote a st).src.noNode = d.src.noNode ∧
    (d.fenceNote a st).src.ended = d.src.ended := by
  unfold Dev.fenceNote
  dsimp only
  split <;> exact ⟨rfl, rfl, rfl, rfl, rfl, rfl, rfl, rfl, rfl⟩

theorem Dev.resyncStart_frame (eng dest : Nat) : (d.resyncStart eng dest).fry = d.fry ∧ (d.resyncStart eng dest).lnd = d.lnd ∧
    (d.resyncStart eng dest).host = d.host ∧ (d.resyncStart eng dest).home = d.home ∧ (d.resyncStart eng dest).out = d.out ∧
    (d.resyncStart eng dest).src.reqs = d.src.reqs ∧ (d.resyncStart eng dest).src.held = d.src.held ∧
    (d.resyncStart eng dest).src.noNode = d.src.noNode ∧ (d.resyncStart eng dest).src.ended = d.src.ended := by
  unfold Dev.resyncStart
  split <;> simp

theorem Dev.resyncIf_frame (o : OutReq) (st : Nat) : (d.resyncIf o st).fry = d.fry ∧ (d.resyncIf o st).lnd = d.lnd ∧
    (d.resyncIf o st).host = d.host ∧ (d.resyncIf o st).home = d.home ∧ (d.resyncIf o st).out = d.out ∧
    (d.resyncIf o st).src.reqs = d.src.reqs ∧ (d.resyncIf o st).src.held = d.src.held ∧ (d.resyncIf o st).src.noNode = d.src.noNode ∧
    (d.resyncIf o st).src.ended = d.src.ended := by
  unfold Dev.resyncIf
  split
  · exact d.resyncStart_frame _ _
  · simp

theorem Dev.ended_frame (o : OutReq) (how st : Nat) : (d.ended o how st).fry = d.fry ∧ (d.ended o how st).lnd = d.lnd ∧
    (d.ended o how st).host = d.host ∧ (d.ended o how st).home = d.home ∧ (d.ended o how st).out = d.out ∧
    (d.ended o how st).src.reqs = d.src.reqs.filter (fun p => !(p.acc.eng == o.acc.eng && p.tag == o.tag)) ∧
    (d.ended o how st).src.held = d.src.held ∧ (d.ended o how st).src.noNode = d.src.noNode ∧
    (d.ended o how st).src.ended = nset d.src.ended (4096 * o.acc.eng + o.tag) how := by
  obtain ⟨hfry, hlnd, hhost, hhome, hout, hreqs, hheld, hnoNode, hended⟩ := ((d.endOut o how).fenceNote o.acc st).resyncIf_frame o st
  obtain ⟨hfry', hlnd', hhost', hhome', hout', hreqs', hheld', hnoNode', hended'⟩ := (d.endOut o how).fenceNote_frame o.acc st
  exact ⟨hfry.trans hfry', hlnd.trans hlnd', hhost.trans hhost', hhome.trans hhome', hout.trans hout', hreqs.trans hreqs', hheld.trans hheld',
    hnoNode.trans hnoNode', hended.trans hended'⟩

theorem Dev.rest_ended (o : OutReq) (how st : Nat) : (d.ended o how st).rest = d.rest := by
  obtain ⟨hfry, hlnd, hhost, -, -, -, -, hnoNode, -⟩ := d.ended_frame o how st
  simp only [Dev.rest, hfry, hlnd, hhost, hnoNode]

/-- No request stands under the tag any more. -/
theorem Dev.outOf_ended (o : OutReq) (how st : Nat) : (d.ended o how st).outOf o.acc.eng o.tag = none := by
  obtain ⟨-, -, -, -, -, hreqs, -⟩ := d.ended_frame o how st
  rw [Dev.outOf, hreqs, List.find?_eq_none]
  intro p hp hsame
  rw [List.mem_filter, hsame] at hp
  simp at hp

/-- A write that ended with ORDER_BROKEN, TIMEOUT or NODE_LOST has its pair resynchronised (R496). -/
theorem Dev.resyncs_ended {o : OutReq} {how st : Nat} (hw : o.acc.kind.isWrite = true) (hst : st = sOrderBroken ∨ st = sTimeout ∨ st = sNodeLost) :
    (d.ended o how st).src.resyncs.any (fun r => r.eng == o.acc.eng && r.dest == o.dest) = true := by
  rw [Dev.ended, Dev.resyncIf, if_pos ⟨hw, hst⟩, Dev.resyncStart]
  split
  · assumption
  · simp [List.any_append]

end

/-! ### The end of a request after which nothing goes on -/

theorem homeGo_noneAtHome {x : Pkg} (h : noneAtHome x.2) : x.homeGo = x := by
  obtain ⟨hgate, hstore, hrecons⟩ := h
  rw [Pkg.homeGo, hgate, hstore, hrecons]
  rfl

theorem thenHome_of {f : Pkg → Pkg} {x y : Pkg} (hf : f x = y) (h : x.2.homeIdle = true ∨ noneAtHome y.2) : Pkg.thenHome f x = y := by
  rw [Pkg.thenHome, hf]
  split
  · rfl
  · exact homeGo_noneAtHome (h.resolve_left ‹_›)

theorem Dev.collsGoOn_none {d : Dev} (h : d.fry.colls = []) : d.collsGoOn = d := by
  rw [Dev.collsGoOn, h]
  rfl

/-- The unit takes the outcome of request `o` as package `e`, in which nothing waits. -/
theorem requestEnds_of {o : OutReq} {how st : Nat} {data : List Byte} {x : Pkg} {e : Dev}
    (hdel : Pkg.deliver o.acc st data (x.1, x.2.ended o how st) = ([], (x.1, e))) (hheld : e.src.held = []) (hcolls : e.fry.colls = [])
    (hquiet : quiet e) (hhome : x.2.homeIdle = true ∨ noneAtHome e) : Pkg.requestEnds o how st data x = (x.1, e) := by
  have hdone : Pkg.takeXlt (([] : List (XReq × XRes)), Pkg.dev (fun d => d.pumpSrc.collsGoOn) (x.1, e)) = (x.1, e) := by
    simp only [Pkg.takeXlt, List.foldl_nil, Pkg.dev, Dev.pumpSrc_none hheld, Dev.collsGoOn_none hcolls]
    exact settle_quiet hquiet
  refine thenHome_of ?_ hhome
  dsimp only [Pkg.dev]
  rw [show ((x.2.endOut o how).fenceNote o.acc st).resyncIf o st = x.2.ended o how st from rfl, hdel]
  exact hdone

end Sys2Proof.Machine


/-!
SUPPORT. O51, answers, timeouts, retransmissions and bounces.
-/
namespace Sys2Proof.Machine

section
variable (d : Dev)

/-- Everything that a window leaves as it is, but the counters. -/
def Dev.offWindow : (Tbl W32 × Glb × List Lnd × HostPort × Home × Pwr × Fry) × (Tim × Rte × List Emit) ×
    (List OutReq × List OutReq × List OutReq) :=
  ((d.regs, d.glb, d.lnd, d.host, d.home, d.pwr, d.fry), (d.tim, d.rte, d.out), (d.src.reqs, d.src.held, d.src.noNode))

theorem Dev.offWindow_count (p i k : Nat) : (d.count p i k).offWindow = d.offWindow := by simp [Dev.offWindow]

theorem Dev.offWindow_windowCut (k w lvl : Nat) : (d.windowCut k w lvl).offWindow = d.offWindow := by
  unfold Dev.windowCut
  dsimp only
  split
  · rfl
  · split
    · rfl
    · exact Dev.offWindow_count _ _ _ _

/-- A window changes nothing but itself and its counters. -/
theorem Dev.offWindow_windowAnswer (eng dest lvl bytes : Nat) : (d.windowAnswer eng dest lvl bytes).offWindow = d.offWindow := by
  unfold Dev.windowAnswer
  dsimp only
  split
  · rfl
  · split
    · rfl
    all_goals exact d.offWindow_windowCut _ _ _

variable {d} {e : Dev}

theorem Dev.offWindow_iff : e.offWindow = d.offWindow ↔ (e.regs = d.regs ∧ e.glb = d.glb ∧ e.lnd = d.lnd ∧ e.host = d.host ∧
    e.home = d.home ∧ e.pwr = d.pwr ∧ e.fry = d.fry) ∧ (e.tim = d.tim ∧ e.rte = d.rte ∧ e.out = d.out) ∧ e.src.reqs = d.src.reqs ∧
    e.src.held = d.src.held ∧ e.src.noNode = d.src.noNode := by
  simp [Dev.offWindow]

theorem Dev.rest_offWindow (h : e.offWindow = d.offWindow) : e.rest = d.rest := by
  obtain ⟨⟨-, -, hlnd, hhost, -, -, hfry⟩, -, -, -, hnoNode⟩ := Dev.offWindow_iff.1 h
  simp only [Dev.rest, hfry, hlnd, hhost, hnoNode]

theorem Dev.epochNow_offWindow (h : e.offWindow = d.offWindow) : e.epochNow = d.epochNow := by
  obtain ⟨⟨hregs, -⟩, ⟨htim, hrte, -⟩, -⟩ := Dev.offWindow_iff.1 h
  have hflip : ∀ b, e.flipDue b = d.flipDue b := fun b => by
    simp only [Dev.flipDue, Dev.bankState, Dev.rd_congr hregs, htim, hrte]
  simp only [Dev.epochNow, hflip, Dev.activeBank, Dev.rd_congr hregs]

theorem Dev.homeIdle_offWindow (h : e.offWindow = d.offWindow) : e.homeIdle = d.homeIdle := by
  obtain ⟨⟨hregs, hglb, hlnd, hhost, hhome, hpwr, hfry⟩, -⟩ := Dev.offWindow_iff.1 h
  have hcore : e.core = ({ d with src := e.src } : Dev).core := by simp [Dev.core, hregs, hglb, hlnd, hhost, hhome, hpwr, hfry]
  exact (Dev.homeIdle_core hcore).trans rfl

variable (d)

/-- A request filled in keeps all but its tag, manifest number, AFTER and epoch. -/
theorem fillMsg_req (tag : Nat) (man after : Option Nat) (epoch : Bool) (r : Req) : ∃ q, fillMsg tag man after epoch (.req r) = .req q ∧
    q.opd = r.opd ∧ q.data = r.data ∧ q.hdr.bounces = r.hdr.bounces ∧ q.hdr.tag = tag ∧ q.hdr.manifest = man.getD 0 ∧
    q.hdr.mv = man.isSome ∧ q.hdr.epoch = epoch := ⟨_, rfl, rfl, rfl, rfl, rfl, rfl, rfl, rfl⟩

/-- The request of `o`'s tag replaced by `o`. -/
def Dev.putBack (o : OutReq) : Dev :=
  { d with src := { d.src with reqs := mapFirst (fun p => p.acc.eng == o.acc.eng && p.tag == o.tag) (fun _ => o) d.src.reqs } }

/-- A request sent again stands under its tag as it was sent. -/
theorem Dev.outOf_resend {o p : OutReq} (h : d.outOf o.acc.eng o.tag = some p) : (d.resend o).outOf o.acc.eng o.tag =
    some { p with sentAt := d.tim.tide, msg := fillMsg o.tag o.man (msgAfter o.msg) d.epochNow o.msg } := by
  rw [Dev.resend, Dev.outOf, Dev.emitMsg_src]
  refine (List.find?_mapFirst ?_ _).trans ?_
  · exact fun _ hq => hq
  · rw [show d.src.reqs.find? _ = some p from h]
    rfl

theorem Dev.resend_out (o : OutReq) : (d.resend o).out = d.out ++ msgFrames (fillMsg o.tag o.man (msgAfter o.msg) d.epochNow o.msg) := by
  rw [Dev.resend, Dev.emitMsg_out]

theorem Dev.outOf_key {eng tag : Nat} {o : OutReq} (h : d.outOf eng tag = some o) : o.acc.eng = eng ∧ o.tag = tag := by
  simpa using List.find?_some h

end

/-- A command of the device while its core runs. -/
theorem onDev_running {s : State} (hrun : s.dev.running = true) (f : Dev → Dev) : onDev (Dev.ifRuns f) s = .next { s with dev := f s.dev } := by
  simp [onDev, Dev.ifRuns, hrun]

/-! ### Answers -/

/-- An access of a landing whose answer carries no data, and the operation that it is answered as (R464). -/
def answeredPlain (n t0 op : Nat) (p : Purpose) : Prop :=
  (p = .lndStore n t0 ∧ op = 2) ∨ (p = .lndAtomic n t0 false ∧ op = 3) ∨ (p = .lndReduce n t0 ∧ op = 4) ∨ (p = .lndPte n t0 ∧ op = 0x11)

theorem deliver_answeredPlain {n t0 op : Nat} {a : Acc} (h : answeredPlain n t0 op a.purpose) (st : Nat) (data : List Byte) (x : Pkg) :
    Pkg.deliver a st data x = ([], (x.1, x.2.attach n op t0 st [])) := by
  rcases h with ⟨hp, rfl⟩ | ⟨hp, rfl⟩ | ⟨hp, rfl⟩ | ⟨hp, rfl⟩ <;> simp [Pkg.deliver, Pkg.dev, Dev.lndAnswer, hp]

theorem requestEnds_answeredPlain {n t0 op : Nat} {o : OutReq} (hp : answeredPlain n t0 op o.acc.purpose) {st how : Nat} {data : List Byte}
    {x : Pkg} (hq : quiet x.2) (hhome : x.2.homeIdle = true ∨ noneAtHome x.2) (hheld : x.2.src.held = []) (hcolls : x.2.fry.colls = []) :
    Pkg.requestEnds o how st data x = (x.1, (x.2.ended o how st).attach n op t0 st []) := by
  obtain ⟨hfry, -, -, hhome', -, -, hheld', -, -⟩ := x.2.ended_frame o how st
  obtain ⟨hsrcA, hfryA, hhomeA, -⟩ := (x.2.ended o how st).attach_frame n op t0 st []
  refine requestEnds_of (deliver_answeredPlain hp st data _) ?_ ?_ ?_ ?_
  · rw [hsrcA, hheld', hheld]
  · rw [hfryA, hfry, hcolls]
  · exact quiet_rest (((x.2.ended o how st).rest_attach n op t0 st []).trans (x.2.rest_ended o how st)) hq
  · simpa only [noneAtHome, hhomeA, hhome'] using hhome

section
variable {eng tag : Nat} {s : State}

theorem answerReceive_stray (hrun : s.dev.running = true) (hdom : s.dev.domOn 11 = true) (h : s.dev.outOf eng tag = none) (st lvl : Nat)
    (data : List Byte) : exec (.answerReceive ⟨eng, tag, st, lvl, data⟩) s = .next { s with dev := s.dev.strayAnswer eng tag } := by
  refine (onPkg_running hrun hdom (Pkg.answer ⟨eng, tag, st, lvl, data⟩)).trans ?_
  simp only [Pkg.answer, h]
  rfl

theorem requestTimeout_stray (hrun : s.dev.running = true) (hdom : s.dev.domOn 11 = true) (h : s.dev.outOf eng tag = none) :
    exec (.requestTimeout eng tag) s = .next s := by
  refine (onPkg_running hrun hdom (Pkg.requestTimeout eng tag)).trans ?_
  simp only [Pkg.requestTimeout, h]
  rfl

variable {o : OutReq} (ho : s.dev.outOf eng tag = some o)
include ho

theorem answerReceive_late (hrun : s.dev.running = true) (hdom : s.dev.domOn 11 = true) (hlate : s.dev.expired o = true) (st lvl : Nat)
    (data : List Byte) : exec (.answerReceive ⟨eng, tag, st, lvl, data⟩) s = .next { s with dev := s.dev.count 0xC1 1 1 } := by
  refine (onPkg_running hrun hdom (Pkg.answer ⟨eng, tag, st, lvl, data⟩)).trans ?_
  simp only [Pkg.answer, ho, Pkg.answered, if_pos hlate]
  rfl

theorem answerReceive_ends (hrun : s.dev.running = true) (hdom : s.dev.domOn 11 = true) (hopen : s.dev.expired o = false) (st lvl : Nat)
    (data : List Byte) : exec (.answerReceive ⟨eng, tag, st, lvl, data⟩) s =
      .next (withPkg s (Pkg.requestEnds o 1 st data (s.store, s.dev.windowAnswer o.acc.eng o.dest lvl o.bytes))) := by
  refine (onPkg_running hrun hdom (Pkg.answer ⟨eng, tag, st, lvl, data⟩)).trans ?_
  simp only [Pkg.answer, ho, Pkg.answered, if_neg (Bool.not_eq_true _ ▸ hopen)]
  rfl

/-- The answer of a landing's request without data, where nothing else goes on: it is handed on. -/
theorem answerReceive_attach (hrun : s.dev.running = true) (hdom : s.dev.domOn 11 = true) (hopen : s.dev.expired o = false) (hq : quiet s.dev)
    (hhome : s.dev.homeIdle = true ∨ noneAtHome s.dev) (hheld : s.dev.src.held = []) (hcolls : s.dev.fry.colls = []) (st lvl : Nat)
    (data : List Byte) {n t0 op : Nat} (hp : answeredPlain n t0 op o.acc.purpose) :
    ∃ t, exec (.answerReceive ⟨eng, tag, st, lvl, data⟩) s = .next t ∧ t.store = s.store ∧ t.dev.outOf eng tag = none ∧
      t.dev.out = s.dev.out ++ [.attach n op t0 st []] := by
  obtain ⟨heng, htag⟩ := s.dev.outOf_key ho
  have hwin := s.dev.offWindow_windowAnswer o.acc.eng o.dest lvl o.bytes
  refine ⟨_, answerReceive_ends ho hrun hdom hopen st lvl data, ?_⟩
  generalize s.dev.windowAnswer o.acc.eng o.dest lvl o.bytes = e at hwin
  obtain ⟨⟨-, -, -, -, hhome', -, hfry⟩, ⟨-, -, hout⟩, -, hheld', -⟩ := Dev.offWindow_iff.1 hwin
  rw [requestEnds_answeredPlain hp (quiet_rest (Dev.rest_offWindow hwin) hq)
    (by rw [Dev.homeIdle_offWindow hwin, noneAtHome, hhome']; exact hhome) (hheld'.trans hheld) (by rw [hfry, hcolls])]
  refine ⟨rfl, ?_, ?_⟩
  · rw [← heng, ← htag]
    exact e.outOf_ended o 1 st
  · obtain ⟨-, -, -, -, houtE, -⟩ := e.ended_frame o 1 st
    exact (((e.ended o 1 st).attach_frame n op t0 st []).2.2.2).trans (by rw [houtE, hout])

/-- The end of the request timeout (R485). -/
theorem requestTimeout_ends (hrun : s.dev.running = true) (hdom : s.dev.domOn 11 = true)
    (hlate : o.firstAt + us (s.dev.rd F.RCV_CFG_REQ_TIMEOUT_US) ≤ s.dev.tim.tide) :
    let lost := bit (s.dev.rdi F.RCV_LOST_LOST (o.dest / 32)) (o.dest % 32)
    exec (.requestTimeout eng tag) s = .next (withPkg s (Pkg.requestEnds o 2 (if lost then sNodeLost else sTimeout) []
      (s.store, (s.dev.count 0xC1 (if lost then 4 else 3) 1).windowMin eng o.dest))) := by
  refine (onPkg_running hrun hdom (Pkg.requestTimeout eng tag)).trans ?_
  simp only [Pkg.requestTimeout, ho, Dev.expired, decide_eq_true hlate]
  rfl

theorem requestTimeout_early (hrun : s.dev.running = true) (hdom : s.dev.domOn 11 = true)
    (hearly : s.dev.tim.tide < o.firstAt + us (s.dev.rd F.RCV_CFG_REQ_TIMEOUT_US)) : exec (.requestTimeout eng tag) s = .next s := by
  refine (onPkg_running hrun hdom (Pkg.requestTimeout eng tag)).trans ?_
  simp only [Pkg.requestTimeout, ho, Dev.expired, decide_eq_false (Nat.not_le.2 hearly)]
  rfl

/-! ### Retransmissions and bounces -/

theorem retransmitTimer_early (hrun : s.dev.running = true) (h : (o.acc.kind = .verRead ∨ o.acc.kind = .publish) ∨ s.dev.expired o = true ∨
    s.dev.tim.tide < o.sentAt + us (s.dev.rd F.RCV_RETX_RETX_US)) : exec (.retransmitTimer eng tag) s = .next s := by
  refine (onDev_running hrun (Dev.retransmit eng tag)).trans ?_
  simp only [Dev.retransmit, ho]
  rw [if_pos (by simpa only [or_assoc] using h)]

theorem retransmitTimer_resends (hrun : s.dev.running = true) (hread : o.acc.kind ≠ .verRead) (hpub : o.acc.kind ≠ .publish)
    (hdue : o.sentAt + us (s.dev.rd F.RCV_RETX_RETX_US) ≤ s.dev.tim.tide) (hopen : s.dev.expired o = false) :
    let msg := fillMsg o.tag o.man (msgAfter o.msg) s.dev.epochNow o.msg
    ∃ t, exec (.retransmitTimer eng tag) s = .next t ∧ t.store = s.store ∧ t.dev.out = s.dev.out ++ msgFrames msg ∧
      t.dev.outOf eng tag = some { o with sentAt := s.dev.tim.tide, msg := msg } := by
  obtain ⟨heng, htag⟩ := s.dev.outOf_key ho
  refine ⟨_, onDev_running hrun (Dev.retransmit eng tag), rfl, ?_⟩
  simp only [Dev.retransmit, ho]
  rw [if_neg (by simp [hread, hpub, hopen, Nat.not_lt.2 hdue])]
  have hcount := Dev.offWindow_iff.1 (s.dev.offWindow_count 0xC1 0 1)
  have hepoch := Dev.epochNow_offWindow (s.dev.offWindow_count 0xC1 0 1)
  generalize s.dev.count 0xC1 0 1 = e at hcount hepoch
  obtain ⟨-, ⟨htim, -, hout⟩, hreqs, -⟩ := hcount
  refine ⟨?_, ?_⟩
  · rw [Dev.resend_out, hout, hepoch]
  · have hstands : e.outOf o.acc.eng o.tag = some o := by rw [Dev.outOf, hreqs, heng, htag]; exact ho
    rw [← heng, ← htag, e.outOf_resend hstands, htim, hepoch]

omit ho in
theorem bounceReceive_stray (hrun : s.dev.running = true) {h : Hdr} (heng : h.srcEngine = eng) (htag : h.tag = tag)
    (hstray : ∀ o, s.dev.outOf eng tag = some o → s.dev.expired o = true) :
    exec (.bounceReceive ⟨h, none⟩) s = .next { s with dev := s.dev.count 0xC1 1 1 } := by
  refine (onDev_running hrun (Dev.bounceIn h none)).trans ?_
  simp only [Dev.bounceIn, Dev.bounced, heng, htag]
  cases ho : s.dev.outOf eng tag with
  | none => rfl
  | some o => simp only [hstray o ho, if_true]

theorem bounceReceive_resends (hrun : s.dev.running = true) {h : Hdr} (heng : h.srcEngine = eng) (htag : h.tag = tag)
    (hopen : s.dev.expired o = false) {r : Req} (hmsg : o.msg = .req r) : ∃ t q, exec (.bounceReceive ⟨h, none⟩) s = .next t ∧
    t.store = s.store ∧ t.dev.out = s.dev.out ++ msgFrames (.req q) ∧ q.opd = r.opd ∧ q.data = r.data ∧
    q.hdr.bounces = min 3 (h.bounces + 1) ∧ q.hdr.tag = o.tag ∧ q.hdr.manifest = o.man.getD 0 ∧ q.hdr.mv = o.man.isSome ∧
    q.hdr.epoch = s.dev.epochNow ∧
    ∃ o', t.dev.outOf eng tag = some o' ∧ o'.man = o.man ∧ o'.bounces = o.bounces + 1 ∧ o'.sentAt = s.dev.tim.tide := by
  obtain ⟨rfl, rfl⟩ := s.dev.outOf_key ho
  let r' : Req := { r with hdr := { r.hdr with bounces := min 3 (h.bounces + 1) } }
  have hexec : exec (.bounceReceive ⟨h, none⟩) s = .next { s with
      dev := ((s.dev.putBack { o with msg := .req r', bounces := o.bounces + 1 }).windowAnswer o.acc.eng o.dest 3 0).resend
        { o with msg := .req r', bounces := o.bounces + 1 } } := by
    refine (onDev_running hrun (Dev.bounceIn h none)).trans ?_
    simp only [Dev.bounceIn, Dev.bounced, heng, htag, ho, hopen, hmsg]
    rfl
  have hput : (s.dev.putBack { o with msg := .req r', bounces := o.bounces + 1 }).outOf o.acc.eng o.tag =
      some { o with msg := .req r', bounces := o.bounces + 1 } := by
    refine (List.find?_mapFirst ?_ _).trans ?_
    · exact fun _ _ => by simp
    · rw [show s.dev.src.reqs.find? _ = some o from ho]
      rfl
  have hwin := (s.dev.putBack { o with msg := .req r', bounces := o.bounces + 1 }).offWindow_windowAnswer o.acc.eng o.dest 3 0
  rw [hexec]
  generalize hp : s.dev.putBack { o with msg := .req r', bounces := o.bounces + 1 } = d at hwin hput
  generalize d.windowAnswer o.acc.eng o.dest 3 0 = e at hwin
  have hepoch : e.epochNow = s.dev.epochNow := (Dev.epochNow_offWindow hwin).trans (by rw [← hp]; rfl)
  obtain ⟨-, ⟨htim, -, hout⟩, hreqs, -⟩ := Dev.offWindow_iff.1 hwin
  obtain ⟨q, hq, hopd, hdata, hbounces, hqtag, hqman, hmv, hqepoch⟩ := fillMsg_req o.tag o.man (msgAfter (.req r')) s.dev.epochNow r'
  refine ⟨_, q, rfl, rfl, ?_, hopd, hdata, hbounces, hqtag, hqman, hmv, hqepoch, ?_⟩
  · rw [Dev.resend_out, hout, ← hp, hepoch, ← hq]
    rfl
  · have hstands : e.outOf o.acc.eng o.tag = some { o with msg := .req r', bounces := o.bounces + 1 } := by
      rw [Dev.outOf, hreqs]
      exact hput
    have htide : e.tim.tide = s.dev.tim.tide := by
      rw [htim, ← hp]
      rfl
    exact ⟨_, e.outOf_resend (o := { o with msg := .req r', bounces := o.bounces + 1 }) hstands, rfl, rfl, htide⟩

end

theorem retransmitTimer_stray {eng tag : Nat} {s : State} (hrun : s.dev.running = true) (h : s.dev.outOf eng tag = none) :
    exec (.retransmitTimer eng tag) s = .next s := by
  refine (onDev_running hrun (Dev.retransmit eng tag)).trans ?_
  simp only [Dev.retransmit, h]

/-- A bounced COLL_DATA frame of no collective is counted (R307). -/
theorem bounceReceive_noColl {s : State} (hrun : s.dev.running = true) (hcolls : s.dev.fry.colls = []) (h : Hdr) (c : Nat × Nat × Nat × Nat) :
    exec (.bounceReceive ⟨h, some c⟩) s = .next { s with dev := s.dev.count 0xC1 1 1 } := by
  refine (onDev_running hrun (Dev.bounceIn h (some c))).trans ?_
  simp only [Dev.bounceIn, Dev.collBounce, hcolls, List.findSome?_nil]

/-- A copy that was refused, or a semaphore given back: its unit does nothing with the outcome. -/
theorem requestEnds_ignored {x : Pkg} {o : OutReq} {how st : Nat} {data : List Byte} (hq : quiet x.2)
    (hhome : x.2.homeIdle = true ∨ noneAtHome x.2) (hheld : x.2.src.held = []) (hcolls : x.2.fry.colls = [])
    (hp : (o.acc.purpose = .copy ∧ st ≠ sOk) ∨ o.acc.purpose = .semBack) :
    Pkg.requestEnds o how st data x = (x.1, x.2.ended o how st) := by
  obtain ⟨hfry, -, -, hhome', -, -, hheld', -, -⟩ := x.2.ended_frame o how st
  refine requestEnds_of ?_ (hheld'.trans hheld) (by rw [hfry, hcolls]) (quiet_rest (x.2.rest_ended o how st) hq)
    (by simpa only [noneAtHome, hhome'] using hhome)
  rcases hp with ⟨hp, hst⟩ | hp
  · simp [Pkg.deliver, hp, hst]
  · simp [Pkg.deliver, hp]

/-- Settles O51: the answer, the timeout, the retransmission and the bounce of the request that stands under a tag, and of none. -/
theorem requestEnds : Obligations.RequestEnds := by
  refine fun eng tag s hrun => ⟨fun hnone hdom => ?_, fun o ho => ⟨fun hdom st lvl data => ?_, fun hdom => ?_, ?_, ?_⟩, fun h c hcolls => ?_,
    fun h heng htag => ⟨fun hnone => ?_, fun o ho hlate => ?_, fun o r ho hopen hmsg => ?_⟩, fun x o how st data ho hq hhome hheld hcolls hp => ?_⟩
  · exact ⟨answerReceive_stray hrun hdom hnone, requestTimeout_stray hrun hdom hnone, retransmitTimer_stray hrun hnone⟩
  · exact ⟨fun hlate => answerReceive_late ho hrun hdom hlate st lvl data, fun hopen => answerReceive_ends ho hrun hdom hopen st lvl data,
      fun hopen hq hhome hheld hcolls n t0 op hp => answerReceive_attach ho hrun hdom hopen hq hhome hheld hcolls st lvl data hp⟩
  · exact ⟨requestTimeout_early ho hrun hdom, requestTimeout_ends ho hrun hdom⟩
  · exact retransmitTimer_early ho hrun
  · exact fun hread hpub hdue hopen => retransmitTimer_resends ho hrun hread hpub hdue hopen
  · exact bounceReceive_noColl hrun hcolls h c
  · exact bounceReceive_stray hrun heng htag (fun o ho => by simp [hnone] at ho)
  · exact bounceReceive_stray hrun heng htag (fun p hp => by rw [ho] at hp; cases hp; exact hlate)
  · exact bounceReceive_resends ho hrun heng htag hopen hmsg
  · have hends := requestEnds_ignored (how := how) (data := data) hq hhome hheld hcolls hp
    rw [hends]
    refine ⟨rfl, x.2.outOf_ended o how st, ?_, x.2.resyncs_ended⟩
    obtain ⟨-, -, -, -, -, -, -, -, hended⟩ := x.2.ended_frame o how st
    rw [hended, nget_nset_same]

end Sys2Proof.Machine


/-!
SUPPORT. O53, lost and found nodes, source resets, the slipway, and the timeouts.
-/
namespace Sys2Proof.Machine

/-! ### Messages to a package at rest -/

theorem pump_nil {x : Pkg} (h : x.2.home.queue = []) : Pkg.pump x = x := by
  rw [Pkg.pump, h]
  show Pkg.pumpN 1 x = x
  simp only [Pkg.pumpN, Pkg.pumpPass_nil h, if_true]

/-- What a message changes in a package at rest, whose home has no request queued, is all that happens. -/
theorem settle_pump_quiet {x : Pkg} (hqueue : x.2.home.queue = []) (hq : quiet x.2) : Pkg.settle (Pkg.pump x) = x := by
  rw [pump_nil hqueue, settle_quiet hq]

/-! ### Folds over the pairs of a node -/

/-- A fold whose step establishes `P` of its element, and keeps what it has established, establishes `P` of every element. -/
theorem List.foldl_establish {α β : Type} {Inv : β → Prop} {P : α → β → Prop} {f : β → α → β} (hinv : ∀ b a, Inv b → Inv (f b a))
    (hstep : ∀ b a, Inv b → P a (f b a)) (hkeep : ∀ b a c, Inv b → P a b → P a (f b c)) (l : List α) :
    ∀ b, Inv b → Inv (l.foldl f b) ∧ ∀ a, a ∈ l ∨ P a b → P a (l.foldl f b) := by
  induction l with
  | nil => exact fun b hb => ⟨hb, fun a ha => ha.resolve_left (by simp)⟩
  | cons c l ih =>
    intro b hb
    obtain ⟨hend, hall⟩ := ih (f b c) (hinv b c hb)
    refine ⟨hend, fun a ha => hall a ?_⟩
    rcases ha with ha | ha
    · rcases List.mem_cons.1 ha with rfl | ha
      · exact .inr (hstep b a hb)
      · exact .inl ha
    · exact .inr (hkeep b a c hb ha)

/-- What the order tables are not: the rest of the package that the recovery commands leave as it is. -/
def Dev.offPairs (d : Dev) := (d.rest, d.regs, d.out, d.glb, d.tim, d.rcv, d.home.queue, d.home.store, d.home.aliases, d.fry.colls)

section
variable {d e : Dev}

theorem Dev.offPairs_iff : e.offPairs = d.offPairs ↔ e.rest = d.rest ∧ e.regs = d.regs ∧ e.out = d.out ∧ e.glb = d.glb ∧ e.tim = d.tim ∧
    e.rcv = d.rcv ∧ e.home.queue = d.home.queue ∧ e.home.store = d.home.store ∧ e.home.aliases = d.home.aliases ∧
    e.fry.colls = d.fry.colls := by
  simp [Dev.offPairs]

theorem Dev.node_congr (h : e.glb = d.glb) : e.node = d.node := by
  unfold Dev.node
  rw [h]

theorem Dev.ordKey_congr (h : e.glb = d.glb) (n src eng : Nat) : e.ordKey n src eng = d.ordKey n src eng := by
  rw [Dev.ordKey, Dev.ordKey, Dev.node_congr h]

theorem Dev.ord_setOrd (d : Dev) (j k : Nat) (o : OrdEnt) : (d.setOrd k o).ord j = if j = k then o else d.ord j := tget_tset _ _ _ _ _

/-- With no write held, none is refused. -/
theorem Dev.refuseHeld_none (h : d.home.store = []) (n src eng st : Nat) : d.refuseHeld n src eng st = d := by
  rw [Dev.refuseHeld, h]
  show ({ d with home := { d.home with store := [] } } : Dev) = d
  rw [← h]

theorem Dev.pairBroken_none (h : d.home.store = []) (n src eng : Nat) : d.pairBroken n src eng =
    d.setOrd (d.ordKey n src eng) { d.ord (d.ordKey n src eng) with st := .broken, holeAt := none } := by
  refine Dev.refuseHeld_none ?_ _ _ _ _
  exact h

theorem Dev.glb_offPairs (h : e.offPairs = d.offPairs) : e.glb = d.glb := by
  obtain ⟨-, -, -, hglb, -⟩ := Dev.offPairs_iff.1 h
  exact hglb

theorem Dev.store_offPairs (h : e.offPairs = d.offPairs) (hd : d.home.store = []) : e.home.store = [] := by
  obtain ⟨-, -, -, -, -, -, -, hstore, -⟩ := Dev.offPairs_iff.1 h
  exact hstore.trans hd

theorem pairsBroken (l : Nat) (hstore : d.home.store = []) : (d.pairsOf.foldl (fun (d : Dev) p => d.pairBroken p.1 l p.2) d).offPairs =
    d.offPairs ∧ ∀ p ∈ d.pairsOf, ((d.pairsOf.foldl (fun (d : Dev) p => d.pairBroken p.1 l p.2) d).ord (d.ordKey p.1 l p.2)).st = .broken := by
  have hfold := List.foldl_establish (Inv := fun b : Dev => b.offPairs = d.offPairs)
    (P := fun p b => (b.ord (d.ordKey p.1 l p.2)).st = .broken) (f := fun (d : Dev) p => d.pairBroken p.1 l p.2) ?_ ?_ ?_ d.pairsOf d rfl
  · exact ⟨hfold.1, fun p hp => hfold.2 p (.inl hp)⟩
  · intro b p hb
    rw [Dev.pairBroken_none (Dev.store_offPairs hb hstore)]
    exact hb
  · intro b p hb
    rw [Dev.pairBroken_none (Dev.store_offPairs hb hstore), Dev.ordKey_congr (Dev.glb_offPairs hb), Dev.ord_setOrd, if_pos rfl]
  · intro b p q hb hp
    rw [Dev.pairBroken_none (Dev.store_offPairs hb hstore), Dev.ord_setOrd]
    split
    · rfl
    · exact hp

/-- A pair as a source reset leaves it (R501). -/
def OrdEnt.fresh (o : OrdEnt) : Prop := o.st = .normal ∧ o.expect = 0 ∧ o.hist = []

theorem Dev.freshPair_ord (n src eng : Nat) (last : Option Nat) (k : Nat) : (d.freshPair n src eng last).ord k =
    if k = d.ordKey n src eng then { d.ord (d.ordKey n src eng) with expect := 0, st := .normal, hist := [], open_ := [], holeAt := none, lastRseq := last, quietEnd := 0, rseq := 0 }
    else d.ord k := Dev.ord_setOrd _ _ _ _

/-- One pair of a source reset (R501). -/
def Dev.pairReset (l : Nat) (d : Dev) (p : Nat × Nat) : Dev :=
  (d.refuseHeld p.1 l p.2 sOrderBroken).freshPair p.1 l p.2 (d.ord (d.ordKey p.1 l p.2)).lastRseq

theorem Dev.pairReset_none (h : d.home.store = []) (l : Nat) (p : Nat × Nat) :
    d.pairReset l p = d.freshPair p.1 l p.2 (d.ord (d.ordKey p.1 l p.2)).lastRseq := by
  rw [Dev.pairReset, Dev.refuseHeld_none h]

theorem pairsReset (l : Nat) (hstore : d.home.store = []) : (d.pairsOf.foldl (Dev.pairReset l) d).offPairs = d.offPairs ∧
    ∀ p ∈ d.pairsOf, ((d.pairsOf.foldl (Dev.pairReset l) d).ord (d.ordKey p.1 l p.2)).fresh := by
  have hfold := List.foldl_establish (Inv := fun b : Dev => b.offPairs = d.offPairs) (P := fun p b => (b.ord (d.ordKey p.1 l p.2)).fresh)
    (f := Dev.pairReset l) ?_ ?_ ?_ d.pairsOf d rfl
  · exact ⟨hfold.1, fun p hp => hfold.2 p (.inl hp)⟩
  · intro b p hb
    rw [Dev.pairReset_none (Dev.store_offPairs hb hstore)]
    exact hb
  · intro b p hb
    rw [Dev.pairReset_none (Dev.store_offPairs hb hstore), Dev.freshPair_ord, Dev.ordKey_congr (Dev.glb_offPairs hb), if_pos rfl]
    exact ⟨rfl, rfl, rfl⟩
  · intro b p q hb hp
    rw [Dev.pairReset_none (Dev.store_offPairs hb hstore), Dev.freshPair_ord]
    split
    · exact ⟨rfl, rfl, rfl⟩
    · exact hp

/-- The pairs of a source at the package's own node are among those of the command. -/
theorem Dev.mem_pairsOf_own {ev : Nat} (h : ev < 57) : (d.node, ev) ∈ d.pairsOf := by
  simp [Dev.pairsOf, Dev.ordNodes, engineNumbers, h]

/-! ### RCV_LOST -/

theorem Dev.lost_addr {i : Nat} : F.RCV_LOST_LOST.addr 0xC1 i = 0xC110C + 4 * i := by
  simp only [Fld.addr, Fld.at, F.RCV_LOST_LOST]
  omega

theorem Dev.isLost_setLost (d : Dev) (l : Nat) (v : Bool) : (d.setLost l v).isLost l = v := by
  have hlt : putBit (d.rdi F.RCV_LOST_LOST (l / 32)) (l % 32) v < 2 ^ 32 := putBit_lt v (bits_lt _ _ _) (by omega)
  rw [Dev.isLost, Dev.setLost, Dev.rdi, Dev.wri, Dev.rdpi_wrpi_same _ _ _ _ _ (by decide)]
  rw [show F.RCV_LOST_LOST.w = 32 from rfl, Nat.mod_eq_of_lt hlt, bit_putBit_same]

theorem Dev.isLost_setLost_ne (d : Dev) {k l : Nat} (h : k ≠ l) (v : Bool) : (d.setLost l v).isLost k = d.isLost k := by
  have hlt : putBit (d.rdi F.RCV_LOST_LOST (l / 32)) (l % 32) v < 2 ^ 32 := putBit_lt v (bits_lt _ _ _) (by omega)
  rw [Dev.isLost, Dev.isLost, Dev.setLost, Dev.rdi, Dev.wri]
  by_cases hword : k / 32 = l / 32
  · rw [hword, Dev.rdpi_wrpi_same _ _ _ _ _ (by decide), show F.RCV_LOST_LOST.w = 32 from rfl, Nat.mod_eq_of_lt hlt,
      bit_putBit_ne _ _ _ _ (by omega)]
  · have haddr : ∀ i, F.RCV_LOST_LOST.addr F.RCV_LOST_LOST.page i = 0xC110C + 4 * i := fun _ => Dev.lost_addr
    rw [Dev.rdpi_wrpi_ne _ _ _ _ _ _ _ _ (.inl (by rw [haddr, haddr]; omega))]
    rfl

theorem Dev.isLost_of_word {l : Nat} (h : ∀ i, e.word (0xC110C + 4 * i) = d.word (0xC110C + 4 * i)) : e.isLost l = d.isLost l := by
  simp only [Dev.isLost, Dev.rdi, Dev.rdpi, show F.RCV_LOST_LOST.page = 0xC1 from rfl, Dev.lost_addr, h]

/-! ### NODE_LOST, SOURCE_RESET -/

theorem Dev.shadowPairs_offPairs (d : Dev) (l ev : Nat) : (d.shadowPairs l ev).offPairs = d.offPairs := rfl

theorem Dev.shadowPairs_ord (d : Dev) (l ev k : Nat) : (d.shadowPairs l ev).ord k = d.ord k := rfl

/-- RCV_LOST and the memory of a lost node, before its pairs are broken. -/
def Dev.lostNoted (l : Nat) (d : Dev) : Dev :=
  let d := (d.setLost l true).event 0xC1 1
  { d with rcv := { d.rcv with lostAt := nset d.rcv.lostAt l (d.tim.tide + 1), done := d.rcv.done.filter (fun e => e.2.1 != l) } }

theorem Dev.lostNoted_frame (d : Dev) (l : Nat) : (d.lostNoted l).rest = d.rest ∧ (d.lostNoted l).glb = d.glb ∧ (d.lostNoted l).home = d.home ∧
    (d.lostNoted l).fry = d.fry ∧ (d.lostNoted l).regs = ((d.setLost l true).event 0xC1 1).regs := by
  simp [Dev.lostNoted, Dev.rest, Dev.setLost]

/-- NODE_LOST of a node that is not lost: its bit is set, the interrupt is raised, every pair of it is broken. -/
theorem nodeLost_breaks {l : Nat} (hlost : d.isLost l = false) (hstore : d.home.store = []) (hcolls : d.fry.colls = []) :
    ∃ e, d.nodeLost l = (rDone, e) ∧ e.rest = d.rest ∧ e.regs = ((d.setLost l true).event 0xC1 1).regs ∧ e.glb = d.glb ∧
      e.home.queue = d.home.queue ∧ ∀ ev < 57, (e.ord (e.ordKey e.node l ev)).st = .broken := by
  have hrun : d.nodeLost l = (rDone, (((d.lostNoted l).pairsOf.foldl (fun (d : Dev) p => d.pairBroken p.1 l p.2)
      (d.lostNoted l)).shadowPairs l 1).collNodeLost l) := by
    rw [Dev.nodeLost, if_neg (by simp [hlost])]
    rfl
  obtain ⟨hrest, hglb, hhome, hfry, hregs⟩ := d.lostNoted_frame l
  generalize d.lostNoted l = c at hrun hrest hglb hhome hfry hregs
  obtain ⟨hoff, hbroken⟩ := pairsBroken (d := c) l (by rw [hhome, hstore])
  generalize c.pairsOf.foldl (fun (d : Dev) p => d.pairBroken p.1 l p.2) c = b at hrun hoff hbroken
  rw [← b.shadowPairs_offPairs l 1] at hoff
  replace hbroken : ∀ p ∈ c.pairsOf, ((b.shadowPairs l 1).ord (c.ordKey p.1 l p.2)).st = .broken := hbroken
  generalize b.shadowPairs l 1 = e at hrun hoff hbroken
  obtain ⟨hrest', hregs', -, hglb', -, -, hqueue', -, -, hcolls'⟩ := Dev.offPairs_iff.1 hoff
  refine ⟨e, ?_, hrest'.trans hrest, hregs'.trans hregs, hglb'.trans hglb, hqueue'.trans (by rw [hhome]), fun ev hev => ?_⟩
  · rw [hrun, Dev.collNodeLost, hcolls', hfry, hcolls]
    rfl
  · rw [Dev.node_congr hglb', Dev.ordKey_congr hglb']
    exact hbroken _ (Dev.mem_pairsOf_own hev)

theorem sourceReset_freshens {l : Nat} (hat : nget d.rcv.lostAt l ≠ 0)
    (hdue : nget d.rcv.lostAt l - 1 + us (d.rd F.RCV_RETX_RESYNC_QUIET_US) ≤ d.tim.tide)
    (honce : d.rcv.done.any (fun e => e.2.1 == l) = false) (hstore : d.home.store = []) :
    ∃ e, d.sourceReset l = (rDone, e) ∧ e.rest = d.rest ∧ e.glb = d.glb ∧ e.home.queue = d.home.queue ∧
      ∀ ev < 57, (e.ord (e.ordKey e.node l ev)).fresh := by
  obtain ⟨hoff, hfresh⟩ := pairsReset (d := d) l hstore
  have hrun : d.sourceReset l = (rDone, { (d.pairsOf.foldl (Dev.pairReset l) d).shadowPairs l 2 with
      rcv := { ((d.pairsOf.foldl (Dev.pairReset l) d).shadowPairs l 2).rcv with
        done := ((d.pairsOf.foldl (Dev.pairReset l) d).shadowPairs l 2).rcv.done ++
          [(3, l, ((d.pairsOf.foldl (Dev.pairReset l) d).shadowPairs l 2).rd F.RCV_GEN_GEN)] } }) := by
    rw [Dev.sourceReset, if_neg hat, if_neg (by omega), honce]
    rfl
  generalize d.pairsOf.foldl (Dev.pairReset l) d = b at hrun hoff hfresh
  obtain ⟨hrest, -, -, hglb, -, -, hqueue, -⟩ := Dev.offPairs_iff.1 hoff
  refine ⟨_, hrun, hrest, hglb, hqueue, fun ev hev => ?_⟩
  have hkey := hfresh _ (Dev.mem_pairsOf_own hev)
  rw [← Dev.ordKey_congr hglb, ← Dev.node_congr hglb] at hkey
  exact hkey

end

/-! ### Writes of a page's own registers -/

section
variable {m : Master} {p off v : Nat} {d : Dev} {f : Fld} {s : State}

/-- What a taken write leaves in a field that its writer reaches. -/
theorem fieldsTaken_bits (h : fieldsTaken d m p off v) (hf : f ∈ fieldsAt p off) (hfix : ¬(p = 1 ∧ off = 0x114))
    (hopen : fieldOpen (d.mayWrite m p off) f = true) (hrw : f.acc ≠ .rw1c) (hmode : f ≠ F.RTE_CFG_MODE) :
    bits (d.newWord (d.mayWrite m p off) p off v) f.lo f.w = bits v f.lo f.w := by
  obtain ⟨⟨-, -, hheld⟩, hres⟩ := h
  rw [Dev.anyHeld, List.any_eq_false] at hheld
  rw [Dev.anyReserved, List.any_eq_false] at hres
  have hheld' : d.partHeld p off f = false := by simpa [hopen, hmode] using hheld f hf
  have hres' : d.reserved p off v f = false := by simpa [hopen] using hres f hf
  exact Dev.newWord_taken hf hfix hopen hrw hres' hheld'

theorem rd_setWord_of (hpage : f.addr f.page 0 = p * 0x1000 + off) (hw : f.lo + f.w ≤ 32) {w : Nat} :
    (d.setWord (p * 0x1000 + off) w).rd f = bits w f.lo f.w := by
  rw [Dev.rd, Dev.rdpi, hpage, Dev.word_setWord_same, bits_mod _ _ _ _ hw]

/-- A write refused whole is dropped and captured. -/
theorem regOut_refused {code detail : Nat} (hopen : pageOpen s.dev m p) (hreg : plainRegister s.dev p off) (hv : v < 2 ^ 32)
    (hown : (tlp m s.dev).mayWrite m p off = true) (hcode : code ≠ 0x10)
    (href : (tlp m s.dev).writeRefused ((tlp m s.dev).setWord (p * 0x1000 + off) ((tlp m s.dev).newWord true p off v)) p off =
      some (code, detail)) :
    regOut m (p * 0x1000 + off) 4 v s = .next { s with dev := (tlp m s.dev).dropWrite m p off v code } := by
  obtain ⟨-, hreach, hkind, hon⟩ := hopen
  obtain ⟨ho, ho2, h4, hroute, hcmd, -⟩ := hreg
  rw [regOut_four m p off v s ho2 h4 (by have := pageKind_lt hkind; omega) hreach,
    write4_plain m p off v _ hkind (by simpa using hon) ho ho2 hroute hcmd, Nat.mod_eq_of_lt hv, hown]
  simp only [Pkg.fieldsWrite, href]
  simp [withPkg, Pkg.dev]

end

/-! ### Fields without a rule of their own -/

section
variable {p off v : Nat} {f : Fld}

theorem Fld.beq_of_page {q : Nat} (hf : f.page ≠ q) {g : Fld} (hg : g.page = q) : (f == g) = false :=
  beq_false_of_ne fun e => hf (e ▸ hg)

/-- Outside the pages SEC, LND, BULK, FRY and RTE a field refuses only the values of its own code. -/
theorem Dev.reserved_of_page (d : Dev) (p off v : Nat) (hsec : f.page ≠ 3) (hlnd : f.page ≠ 0x10) (hfry : f.page ≠ 0x30) (hrte : f.page ≠ 0x61) :
    d.reserved p off v f = !f.accepts (bits v f.lo f.w) := by
  have hring : d.nearRing p f off = false := by
    simp [Dev.nearRing, beq_eq_false_iff_ne.1 (Fld.beq_of_page hfry (g := F.FRY_SUB_BASE_HI_BASE_HI) rfl),
      beq_eq_false_iff_ne.1 (Fld.beq_of_page hfry (g := F.FRY_CMP_BASE_HI_BASE_HI) rfl)]
  simp [Dev.reserved, hring, Fld.beq_of_page hrte (g := F.RTE_PORT_ROLE_ROLE) rfl, Fld.beq_of_page hrte (g := F.RTE_PORT_ROLE_GROUP) rfl,
    Fld.beq_of_page hlnd (g := F.LND_RANK_WIN_BASE) rfl, Fld.beq_of_page hlnd (g := F.LND_RANK_WIN_SIZE) rfl,
    Fld.beq_of_page hsec (g := F.SEC_CMD_OP) rfl]

/-- Outside the pages BULK, FRY and RTE no part of a register takes no value for a time. -/
theorem Dev.partHeld_of_page (d : Dev) (off : Nat) (hfry : p < 0x30 ∨ 0x34 ≤ p) (hbulk : f.page ≠ 0x2A) (hrte : f.page ≠ 0x61) :
    d.partHeld p off f = false := by
  have hp : 0x30 ≤ p → ¬p < 0x34 := by omega
  simp +contextual [Dev.partHeld, Fld.beq_of_page hbulk (g := F.BULK_CFG_INTERLEAVE) rfl, Fld.beq_of_page hrte (g := F.RTE_CFG_MODE) rfl, hp]

end

/-! ### A write of the timeouts (R494) -/

section
variable {m : Master} {s : State} {v : Nat}

theorem rcvPage_register {off : Nat} (hopen : pageOpen s.dev m 0xC1) (ho : 0x100 ≤ off) (ho2 : off < 0x1000) (h4 : off % 4 = 0) :
    plainRegister s.dev 0xC1 off := by
  obtain ⟨-, -, -, hon⟩ := hopen
  exact ⟨ho, ho2, h4, by simp [routeAt], by simp, hon⟩

theorem rcvPage_owner {off : Nat} (hown : s.dev.owns m 0xC1 = true) : (tlp m s.dev).mayWrite m 0xC1 off = true :=
  mayWrite_owner hown (by simp [isFmq])

/-- A taken write of RCV_CFG or RCV_RETX stores its word and sets nothing going. -/
theorem rcvWrite_taken {off : Nat} (hopen : pageOpen s.dev m 0xC1) (ho : off = 0x100 ∨ off = 0x104) (hv : v < 2 ^ 32)
    (h : fieldsTaken (tlp m s.dev) m 0xC1 off v) : regOut m (0xC1 * 0x1000 + off) 4 v s = .next { s with
      dev := (tlp m s.dev).setWord (0xC1 * 0x1000 + off) ((tlp m s.dev).newWord ((tlp m s.dev).mayWrite m 0xC1 off) 0xC1 off v) } := by
  refine (regOut_taken hopen (rcvPage_register hopen (by omega) (by omega) (by omega)) hv h).trans ?_
  rw [fieldsStored, Pkg.written]
  rcases ho with rfl | rfl <;> simp [withPkg]

/-- A timeout of the written register, and one of the other. -/
theorem rcvWrite_field {off : Nat} {f : Fld} (hown : s.dev.owns m 0xC1 = true) (h : fieldsTaken (tlp m s.dev) m 0xC1 off v)
    (hf : f ∈ fieldsAt 0xC1 off) (hpage : f.page = 0xC1) (haddr : f.addr f.page 0 = 0xC1 * 0x1000 + off) (hw : f.lo + f.w ≤ 32)
    (hacc : f.acc = .rwo) : (((tlp m s.dev).setWord (0xC1 * 0x1000 + off) ((tlp m s.dev).newWord ((tlp m s.dev).mayWrite m 0xC1 off) 0xC1 off v))).rd f =
      bits v f.lo f.w := by
  rw [rd_setWord_of haddr hw, fieldsTaken_bits h hf (by simp) (by rw [rcvPage_owner hown, fieldOpen, hacc]) (by simp [hacc]) ?_]
  rintro rfl
  exact absurd hpage (by decide)

/-- An accepted value of a timeout, in the word that a write forms. -/
theorem rcvWord_field {d : Dev} {off : Nat} {f : Fld} (hf : f ∈ fieldsAt 0xC1 off) (hpage : f.page = 0xC1)
    (haddr : f.addr f.page 0 = 0xC1 * 0x1000 + off) (hw : f.lo + f.w ≤ 32) (hacc : f.acc = .rwo)
    (hok : f.accepts (bits v f.lo f.w) = true) :
    (d.setWord (0xC1 * 0x1000 + off) (d.newWord true 0xC1 off v)).rd f = bits v f.lo f.w := by
  rw [rd_setWord_of haddr hw, Dev.newWord_taken hf (by simp) (by rw [fieldOpen, hacc]) (by simp [hacc])
    (by rw [Dev.reserved_of_page, hok]; rfl; all_goals omega) (Dev.partHeld_of_page d off (.inr (by decide)) (by omega) (by omega))]

/-- The timeouts refused: the write is dropped. -/
theorem rcvWrite_refused {off : Nat} (hopen : pageOpen s.dev m 0xC1) (hown : s.dev.owns m 0xC1 = true) (ho : off = 0x100 ∨ off = 0x104)
    (hv : v < 2 ^ 32) (hbad : ((tlp m s.dev).setWord (0xC1 * 0x1000 + off) ((tlp m s.dev).newWord true 0xC1 off v)).timeoutsOk = false) :
    regOut m (0xC1 * 0x1000 + off) 4 v s = .next { s with dev := (tlp m s.dev).dropWrite m 0xC1 off v 3 } := by
  refine regOut_refused (detail := 0) hopen (rcvPage_register hopen (by omega) (by omega) (by omega)) hv (rcvPage_owner hown) (by decide) ?_
  simp [Dev.writeRefused, ho, hbad]

end

theorem Fld.accepts_allow {f : Fld} {a b n : Nat} (hf : f.rsv = .allow a b) (ha : a ≤ n) (hb : n ≤ b) : f.accepts n = true := by
  simp [Fld.accepts, hf, ha, hb]

theorem timeoutsOk_broken {e : Dev} {a b r : Nat} (ha : e.rd F.RCV_CFG_REQ_TIMEOUT_US = a) (hb : e.rd F.RCV_CFG_ORDER_TIMEOUT_US = b)
    (hr : e.rd F.RCV_RETX_RETX_US = r) (hbad : a < 2 * b ∨ b < 4 * r) : e.timeoutsOk = false := by
  rw [Dev.timeoutsOk, ha, hb, hr, Bool.and_eq_false_iff, decide_eq_false_iff_not, decide_eq_false_iff_not]
  omega

theorem rcvCfgWrites (m : Master) (v : W32) (s : State) (hopen : pageOpen s.dev m 0xC1) (hown : s.dev.owns m 0xC1 = true) :
    let a := bits v.toNat 0 16
    let b := bits v.toNat 16 16
    (fieldsTaken (tlp m s.dev) m 0xC1 0x100 v.toNat → ∃ t, exec (.rcvCfgWrite m false v) s = .next t ∧ t.store = s.store ∧
      t.dev.rd F.RCV_CFG_REQ_TIMEOUT_US = a ∧ t.dev.rd F.RCV_CFG_ORDER_TIMEOUT_US = b) ∧
    (fieldsTaken (tlp m s.dev) m 0xC1 0x104 v.toNat → ∃ t, exec (.rcvCfgWrite m true v) s = .next t ∧ t.store = s.store ∧
      t.dev.rd F.RCV_RETX_RETX_US = a ∧ t.dev.rd F.RCV_RETX_RESYNC_QUIET_US = b) ∧
    (100 ≤ a → 1 ≤ b → a < 2 * b ∨ b < 4 * s.dev.rd F.RCV_RETX_RETX_US →
      exec (.rcvCfgWrite m false v) s = .next { s with dev := (tlp m s.dev).dropWrite m 0xC1 0x100 v.toNat 3 }) ∧
    (10 ≤ a → 1 ≤ b → s.dev.rd F.RCV_CFG_ORDER_TIMEOUT_US < 4 * a →
      exec (.rcvCfgWrite m true v) s = .next { s with dev := (tlp m s.dev).dropWrite m 0xC1 0x104 v.toNat 3 }) := by
  have hcfg : fieldsAt 0xC1 0x100 = [F.RCV_CFG_REQ_TIMEOUT_US, F.RCV_CFG_ORDER_TIMEOUT_US] := by decide
  have hretx : fieldsAt 0xC1 0x104 = [F.RCV_RETX_RETX_US, F.RCV_RETX_RESYNC_QUIET_US] := by decide
  have ha : bits v.toNat 0 16 ≤ 65535 := Nat.le_of_lt_succ (bits_lt _ _ _)
  have hb : bits v.toNat 16 16 ≤ 65535 := Nat.le_of_lt_succ (bits_lt _ _ _)
  refine ⟨fun h => ⟨_, rcvWrite_taken hopen (.inl rfl) v.isLt h, rfl, ?_, ?_⟩, fun h => ⟨_, rcvWrite_taken hopen (.inr rfl) v.isLt h, rfl, ?_, ?_⟩,
    fun h100 h1 hbad => rcvWrite_refused hopen hown (.inl rfl) v.isLt ?_, fun h10 h1 hbad => rcvWrite_refused hopen hown (.inr rfl) v.isLt ?_⟩
  · exact rcvWrite_field hown h (by simp [hcfg]) rfl rfl (by decide) rfl
  · exact rcvWrite_field hown h (by simp [hcfg]) rfl rfl (by decide) rfl
  · exact rcvWrite_field hown h (by simp [hretx]) rfl rfl (by decide) rfl
  · exact rcvWrite_field hown h (by simp [hretx]) rfl rfl (by decide) rfl
  · refine timeoutsOk_broken (rcvWord_field (f := F.RCV_CFG_REQ_TIMEOUT_US) (by simp [hcfg]) rfl rfl (by decide) rfl (Fld.accepts_allow rfl h100 ha))
      (rcvWord_field (f := F.RCV_CFG_ORDER_TIMEOUT_US) (by simp [hcfg]) rfl rfl (by decide) rfl (Fld.accepts_allow rfl h1 hb))
      ((Dev.rd_of_word _ (Dev.word_setWord_ne _ _ (by decide))).trans (tlp_rd m s.dev _)) hbad
  · refine timeoutsOk_broken (e := (tlp m s.dev).setWord (0xC1 * 0x1000 + 0x104) ((tlp m s.dev).newWord true 0xC1 0x104 v.toNat)) rfl
      ((Dev.rd_of_word _ (Dev.word_setWord_ne _ _ (by decide))).trans (tlp_rd m s.dev _))
      (rcvWord_field (f := F.RCV_RETX_RETX_US) (by simp [hretx]) rfl rfl (by decide) rfl (Fld.accepts_allow rfl h10 ha)) (.inr hbad)

/-! ### Recovery commands by message -/

/-- What a recovery command by message does in a package at rest, whose home has no request queued. -/
theorem recovery_said {s : State} {src g r : Nat} {name : String} {rule : Dev → Nat × Dev} {e : Dev} (hrun : s.dev.running = true)
    (hdom : s.dev.domOn 11 = true) (hfm : s.dev.fmAllowed src = true) (hrule : s.dev.recovery g rule = (r, e))
    (hqueue : e.home.queue = []) (hq : quiet e) :
    onPkg (Pkg.rcvMsg src name g rule) s = .next { s with dev := e.ctrl src (.result name r) } := by
  refine onPkg_leaves (x := (s.store, e.ctrl src (.result name r))) hrun hdom ?_
  rw [Pkg.rcvMsg, Pkg.dev, Dev.fromFm, if_pos hfm, Dev.recoveryMsg, hrule]
  refine settle_pump_quiet ?_ (quiet_rest (Dev.rest_ctrl (d := e) src _) hq)
  simpa using hqueue

section
variable {g : Nat} {rule : Dev → Nat × Dev} {d : Dev}

theorem Dev.recovery_lower (h : g < d.rd F.RCV_GEN_GEN) : d.recovery g rule = (rBadState, d) := if_pos h

theorem Dev.recovery_same (h : g = d.rd F.RCV_GEN_GEN) : d.recovery g rule = rule d := by
  rw [Dev.recovery, if_neg (by omega), if_neg (by omega)]

/-- The package to which a command of generation `g` is applied: an older rebuild stopped, RCV_GEN raised (R499). -/
def Dev.raised (g : Nat) (d : Dev) : Dev := if d.rd F.RCV_GEN_GEN < g then (d.stopLower g).wr F.RCV_GEN_GEN g else d

theorem Dev.recovery_raised (h : d.rd F.RCV_GEN_GEN ≤ g) : d.recovery g rule = rule (d.raised g) := by
  rw [Dev.recovery, if_neg (by omega), Dev.raised]
  split <;> rfl

theorem Dev.stopLower_frame (g : Nat) (d : Dev) : (d.stopLower g).rest = d.rest ∧ (d.stopLower g).home.queue = d.home.queue ∧
    (d.stopLower g).home.store = d.home.store ∧ (d.stopLower g).fry = d.fry ∧ (d.stopLower g).glb = d.glb ∧
    (∀ i, (d.stopLower g).word (0xC110C + 4 * i) = d.word (0xC110C + 4 * i)) := by
  unfold Dev.stopLower
  cases d.home.rebuild with
  | none => simp
  | some r =>
    by_cases h : r.gen < g
    · simp only [h, if_true]
      refine ⟨rfl, rfl, rfl, rfl, rfl, fun i => Dev.word_wr_ne _ _ _ _ ?_⟩
      rw [show F.PROT_REBUILD_STAT_PHASE.addr F.PROT_REBUILD_STAT_PHASE.page 0 = 0x2B118 from rfl]
      omega
    · simp [h]

theorem Dev.raised_frame (g : Nat) (d : Dev) : (d.raised g).rest = d.rest ∧ (d.raised g).home.queue = d.home.queue ∧
    (d.raised g).home.store = d.home.store ∧ (d.raised g).fry = d.fry ∧ (d.raised g).glb = d.glb ∧
    (∀ l, (d.raised g).isLost l = d.isLost l) := by
  obtain ⟨hrest, hqueue, hstore, hfry, hglb, hword⟩ := d.stopLower_frame g
  rw [Dev.raised]
  split
  · refine ⟨(Dev.rest_wr (d := d.stopLower g) _ _).trans hrest, hqueue, hstore, hfry, hglb, fun l => Dev.isLost_of_word fun i => ?_⟩
    rw [Dev.word_wr_ne _ _ _ _ (by rw [show F.RCV_GEN_GEN.addr F.RCV_GEN_GEN.page 0 = 0xC1108 from rfl]; omega), hword]
  · simp

theorem Dev.rd_gen_raised (h : d.rd F.RCV_GEN_GEN ≤ g) (hg : g < 2 ^ 32) : (d.raised g).rd F.RCV_GEN_GEN = g := by
  rw [Dev.raised]
  split
  · rw [Dev.rd_wr_same _ _ _ (by decide)]
    exact Nat.mod_eq_of_lt hg
  · omega

end

section
variable {s : State} {src : Nat} {name : String} {rule : Dev → Nat × Dev} {g r : Nat} {e : Dev}

/-- The answer that a command sends is the last thing that leaves. -/
theorem result_out (h : e.hasNode src = true) : (e.ctrl src (.result name r)).out.getLast? = some (.ctrl src (.result name r)) := by
  rw [Dev.ctrl_out h, List.getLast?_append]
  rfl

theorem recovery_refused (hrun : s.dev.running = true) (hdom : s.dev.domOn 11 = true) (hq : quiet s.dev) (hqueue : s.dev.home.queue = [])
    (hfm : s.dev.fmAllowed src = true) (h : s.dev.recovery g rule = (r, s.dev)) :
    onPkg (Pkg.rcvMsg src name g rule) s = .next { s with dev := s.dev.ctrl src (.result name r) } :=
  recovery_said hrun hdom hfm h hqueue hq

theorem gen_ne_lost (i : Nat) : F.RCV_GEN_GEN.addr F.RCV_GEN_GEN.page 0 ≠ F.RCV_LOST_LOST.addr F.RCV_LOST_LOST.page i := by
  rw [show F.RCV_LOST_LOST.page = 0xC1 from rfl, Dev.lost_addr, show F.RCV_GEN_GEN.addr F.RCV_GEN_GEN.page 0 = 0xC1108 from rfl]
  omega

theorem Dev.pair_ctrl (e : Dev) (n : Nat) (m : CtrlMsg) (l ev : Nat) :
    (e.ctrl n m).ord ((e.ctrl n m).ordKey (e.ctrl n m).node l ev) = e.ord (e.ordKey e.node l ev) := by
  obtain ⟨-, -, -, -, hglb, -, -, -, -, -, -, hhome, -⟩ := e.ctrl_frame n m
  rw [Dev.ordKey_congr hglb, Dev.node_congr hglb, Dev.ord, hhome]
  rfl

/-- NODE_LOST (R500). -/
theorem rcvNodeLost_breaks {a : NodeGen} (hrun : s.dev.running = true) (hdom : s.dev.domOn 11 = true) (hq : quiet s.dev)
    (hqueue : s.dev.home.queue = []) (hstore : s.dev.home.store = []) (hcolls : s.dev.fry.colls = []) (hfm : s.dev.fmAllowed src = true)
    (hnode : a.node < 128) (hgen : s.dev.rd F.RCV_GEN_GEN ≤ a.gen) (hlt : a.gen < 2 ^ 32) (hlost : s.dev.isLost a.node = false) :
    ∃ t, exec (.rcvNodeLost (.msg src a)) s = .next t ∧ (t.store = s.store ∧
        (s.dev.hasNode src = true → t.dev.out.getLast? = some (.ctrl src (.result "NODE_LOST" rDone)))) ∧
      t.dev.rd F.RCV_GEN_GEN = a.gen ∧ t.dev.isLost a.node = true ∧ (∀ l < 128, l ≠ a.node → t.dev.isLost l = s.dev.isLost l) ∧
      ∀ e < 57, (t.dev.ord (t.dev.ordKey t.dev.node a.node e)).st = .broken := by
  obtain ⟨hrest, hqueue', hstore', hfry, hglb, hlosts⟩ := s.dev.raised_frame a.gen
  have hgen' := Dev.rd_gen_raised hgen hlt
  have hrec := Dev.recovery_raised (rule := Dev.nodeLost (a.node % 128)) hgen
  rw [Nat.mod_eq_of_lt hnode] at hrec
  generalize s.dev.raised a.gen = c at hrest hqueue' hstore' hfry hglb hlosts hgen' hrec
  obtain ⟨e, hrule, hrest', hregs, hglb', hqueue'', hpairs⟩ := nodeLost_breaks (d := c) (l := a.node) (by rw [hlosts, hlost])
    (hstore'.trans hstore) (by rw [hfry, hcolls])
  have hword : ∀ k, k ≠ 0xC1014 → (e.ctrl src (.result "NODE_LOST" rDone)).word k = (c.setLost a.node true).word k := fun k hk => by
    rw [Dev.word_congr (by simp : _ = e.regs) k, Dev.word_congr hregs k, Dev.word_event, if_neg hk]
  have hkept : ∀ l, (e.ctrl src (.result "NODE_LOST" rDone)).isLost l = (c.setLost a.node true).isLost l := fun l =>
    Dev.isLost_of_word fun i => hword _ (by omega)
  refine ⟨_, recovery_said (r := rDone) (e := e) hrun hdom hfm ?_ (by rw [hqueue'', hqueue', hqueue]) (quiet_rest (hrest'.trans hrest) hq), ⟨rfl, fun hsrc => ?_⟩, ?_, ?_,
    fun l hl hne => ?_, ?_⟩
  · rw [Nat.mod_eq_of_lt hnode]
    exact hrec.trans hrule
  · exact result_out ((Dev.hasNode_congr (hglb'.trans hglb) _).trans hsrc)
  · refine Eq.trans (Dev.rd_of_word _ (hword _ (by decide))) (Eq.trans (Dev.rd_of_word _ ?_) hgen')
    exact Dev.word_wrpi_ne _ _ _ _ _ _ (gen_ne_lost _)
  · exact (hkept _).trans (Dev.isLost_setLost _ _ _)
  · exact (hkept _).trans ((Dev.isLost_setLost_ne _ hne _).trans (hlosts l))
  · intro ev hev
    rw [Dev.pair_ctrl]
    exact hpairs ev hev

/-- NODE_FOUND of a lost node (R500). -/
theorem rcvNodeFound_clears {a : NodeGen} (hrun : s.dev.running = true) (hdom : s.dev.domOn 11 = true) (hq : quiet s.dev)
    (hqueue : s.dev.home.queue = []) (hfm : s.dev.fmAllowed src = true) (hnode : a.node < 128) (hgen : a.gen = s.dev.rd F.RCV_GEN_GEN)
    (hlost : s.dev.isLost a.node = true) :
    ∃ t, exec (.rcvNodeFound (.msg src a)) s = .next t ∧ (t.store = s.store ∧
        (s.dev.hasNode src = true → t.dev.out.getLast? = some (.ctrl src (.result "NODE_FOUND" rDone)))) ∧
      t.dev.isLost a.node = false ∧ t.dev.home = s.dev.home := by
  have hrule : s.dev.recovery a.gen (Dev.nodeFound (a.node % 128)) = (rDone, s.dev.setLost a.node false) := by
    rw [Dev.recovery_same hgen, Nat.mod_eq_of_lt hnode, Dev.nodeFound, if_pos hlost]
  refine ⟨_, recovery_said hrun hdom hfm hrule hqueue (quiet_rest rfl hq), ⟨rfl, fun hsrc => result_out ?_⟩, ?_, ?_⟩
  · exact (Dev.hasNode_congr rfl _).trans hsrc
  · exact (Dev.isLost_of_word fun i => Dev.word_congr (by simp : _ = (s.dev.setLost a.node false).regs) _).trans (Dev.isLost_setLost _ _ _)
  · simp [Dev.setLost]

/-- SOURCE_RESET after the quiet window (R501). -/
theorem rcvSourceReset_freshens {a : NodeGen} (hrun : s.dev.running = true) (hdom : s.dev.domOn 11 = true) (hq : quiet s.dev)
    (hqueue : s.dev.home.queue = []) (hstore : s.dev.home.store = []) (hfm : s.dev.fmAllowed src = true) (hnode : a.node < 128)
    (hgen : a.gen = s.dev.rd F.RCV_GEN_GEN) (hat : nget s.dev.rcv.lostAt a.node ≠ 0)
    (hdue : nget s.dev.rcv.lostAt a.node - 1 + us (s.dev.rd F.RCV_RETX_RESYNC_QUIET_US) ≤ s.dev.tim.tide)
    (honce : s.dev.rcv.done.any (fun e => e.2.1 == a.node) = false) :
    ∃ t, exec (.rcvSourceReset (.msg src a)) s = .next t ∧ (t.store = s.store ∧
        (s.dev.hasNode src = true → t.dev.out.getLast? = some (.ctrl src (.result "SOURCE_RESET" rDone)))) ∧
      ∀ e < 57, let p := t.dev.ord (t.dev.ordKey t.dev.node a.node e)
        p.st = .normal ∧ p.expect = 0 ∧ p.hist = [] := by
  obtain ⟨e, hrun', hrest, hglb, hqueue', hpairs⟩ := sourceReset_freshens hat hdue honce hstore
  have hrule : s.dev.recovery a.gen (Dev.sourceReset (a.node % 128)) = (rDone, e) := by
    rw [Dev.recovery_same hgen, Nat.mod_eq_of_lt hnode, hrun']
  refine ⟨_, recovery_said hrun hdom hfm hrule (hqueue'.trans hqueue) (quiet_rest hrest hq), ⟨rfl, fun hsrc => result_out ?_⟩, fun ev hev => ?_⟩
  · exact (Dev.hasNode_congr hglb _).trans hsrc
  · show OrdEnt.fresh _
    rw [Dev.pair_ctrl]
    exact hpairs ev hev

/-- SLIPWAY(TRANSIT) that takes effect (R502). -/
theorem slipwayTransit_enters {g : Nat} (hrun : s.dev.running = true) (hdom : s.dev.domOn 11 = true) (hq : quiet s.dev)
    (hqueue : s.dev.home.queue = []) (hfm : s.dev.fmAllowed src = true) (hgen : g = s.dev.rd F.RCV_GEN_GEN)
    (hstage : s.dev.stage = 1 ∨ s.dev.stage = 3 ∨ (s.dev.stage = 4 ∧ s.dev.anyExt (fun st => st == 1) = false)) :
    ∃ t, exec (.slipwayTransit (.msg src g)) s = .next t ∧ (t.store = s.store ∧
        (s.dev.hasNode src = true → t.dev.out.getLast? = some (.ctrl src (.result "SLIPWAY" rDone)))) ∧
      t.dev.stage = 2 ∧ t.dev.rd F.PROT_CFG_ROLE = 1 := by
  have hno : ¬(s.dev.stage = 0 ∨ (s.dev.stage = 4 ∧ s.dev.anyExt (fun st => st == 1) = true)) := by
    rintro (h | ⟨h, hext⟩)
    · omega
    · obtain h' | h' | ⟨-, hext'⟩ := hstage
      · omega
      · omega
      · exact absurd (hext'.symm.trans hext) (by decide)
  have hrule := Dev.recovery_same (d := s.dev) (rule := Dev.slipTransit) hgen
  simp only [Dev.slipTransit, show s.dev.stage ≠ 2 by omega, if_false, if_neg hno] at hrule
  refine ⟨_, recovery_said hrun hdom hfm hrule hqueue (quiet_rest rfl hq), ⟨rfl, fun hsrc => result_out ?_⟩, ?_, ?_⟩
  · exact (Dev.hasNode_congr rfl _).trans hsrc
  · rw [Dev.stage, Dev.rd_ctrl, Dev.rd_wr_ne _ _ _ _ (by decide), Dev.rd_wr_same _ _ _ (by decide)]
    rfl
  · rw [Dev.rd_ctrl, Dev.rd_wr_same _ _ _ (by decide)]
    rfl

end

/-! ### SERVING_AT_T -/

theorem servingAtT_cases (s : State) (hrun : s.dev.running = true) :
    (∀ T, s.dev.rcv.servingAt = some T → T ≤ s.dev.ns → ∃ t, exec .servingAtT s = .next t ∧ t.store = s.store ∧ t.dev.stage = 4 ∧
      t.dev.rd F.PROT_CFG_ROLE = 0 ∧ t.dev.rcv.servingAt = none ∧ t.dev.out = s.dev.out) ∧
    (∀ T, s.dev.rcv.servingAt = some T → s.dev.ns < T → exec .servingAtT s = .next s) ∧
    (s.dev.rcv.servingAt = none → exec .servingAtT s = .next s) := by
  have hexec : exec .servingAtT s = .next { s with dev := s.dev.servingNow } := onDev_running hrun Dev.servingNow
  rw [hexec]
  unfold Dev.servingNow
  refine ⟨fun T hT hdue => ?_, fun T hT hearly => ?_, fun hnone => ?_⟩
  · rw [hT]
    refine ⟨_, rfl, rfl, ?_⟩
    simp only [hdue, if_true]
    refine ⟨?_, ?_, rfl, rfl⟩
    · rw [Dev.stage, Dev.rd_wr_ne _ _ _ _ (by decide), Dev.rd_wr_same _ _ _ (by decide)]
      rfl
    · rw [Dev.rd_wr_same _ _ _ (by decide)]
      rfl
  · rw [hT]
    simp only [show ¬T ≤ s.dev.ns by omega, if_false]
  · rw [hnone]

/-! ### The family -/

theorem recoveryMessages (src : Nat) (a : NodeGen) (s : State) (hrun : s.dev.running = true) (hdom : s.dev.domOn 11 = true) (hq : quiet s.dev)
    (hqueue : s.dev.home.queue = []) (hfm : s.dev.fmAllowed src = true) (hnode : a.node < 128) (hgen : a.gen = s.dev.rd F.RCV_GEN_GEN) :
    let said := fun (name : String) (r : Nat) => (.next { s with dev := s.dev.ctrl src (.result name r) } : Host.Outcome State Fault Refusal)
    let at_ := nget s.dev.rcv.lostAt a.node
    (s.dev.isLost a.node = true → (∀ p ∈ s.dev.pairsOf, (s.dev.ord (s.dev.ordKey p.1 a.node p.2)).st = .broken) →
      exec (.rcvNodeLost (.msg src a)) s = said "NODE_LOST" rNoChange) ∧
    (s.dev.isLost a.node = false → exec (.rcvNodeFound (.msg src a)) s = said "NODE_FOUND" rNoChange) ∧
    (at_ = 0 → exec (.rcvSourceReset (.msg src a)) s = said "SOURCE_RESET" (if s.dev.sourceFresh a.node then rNoChange else rBadState)) ∧
    (at_ ≠ 0 → s.dev.tim.tide < at_ - 1 + us (s.dev.rd F.RCV_RETX_RESYNC_QUIET_US) →
      exec (.rcvSourceReset (.msg src a)) s = said "SOURCE_RESET" rBadState) ∧
    (s.dev.stage = 2 → exec (.slipwayTransit (.msg src a.gen)) s = said "SLIPWAY" rNoChange) ∧
    (s.dev.stage = 0 ∨ (s.dev.stage = 4 ∧ s.dev.anyExt (fun st => st == 1) = true) →
      exec (.slipwayTransit (.msg src a.gen)) s = said "SLIPWAY" rBadState) := by
  refine ⟨fun hlost hall => ?_, fun hlost => ?_, fun hat => ?_, fun hat hearly => ?_, fun hstage => ?_, fun hstage => ?_⟩ <;>
    refine recovery_refused hrun hdom hq hqueue hfm ((Dev.recovery_same hgen).trans ?_)
  · rw [Nat.mod_eq_of_lt hnode, Dev.nodeLost, if_pos ⟨hlost, by simpa using hall⟩]
  · rw [Nat.mod_eq_of_lt hnode, Dev.nodeFound, if_neg (by simp [hlost])]
  · rw [Nat.mod_eq_of_lt hnode, Dev.sourceReset, if_pos hat]
  · rw [Nat.mod_eq_of_lt hnode, Dev.sourceReset, if_neg hat, if_pos hearly]
  · simp [Dev.slipTransit, hstage]
  · rw [Dev.slipTransit, if_neg (by omega), if_pos hstage]

theorem slipwayServings (src T : Nat) (s : State) {g : Nat} (hrun : s.dev.running = true) (hdom : s.dev.domOn 11 = true) (hq : quiet s.dev)
    (hqueue : s.dev.home.queue = []) (hfm : s.dev.fmAllowed src = true) (hgen : g = s.dev.rd F.RCV_GEN_GEN) (hT : T < 2 ^ 64) :
    let said := fun (name : String) (r : Nat) => (.next { s with dev := s.dev.ctrl src (.result name r) } : Host.Outcome State Fault Refusal)
    (s.dev.stage = 1 ∨ (s.dev.stage = 3 ∧ s.dev.home.rebuildSeen = 4) → s.dev.rcv.servingAt ≠ some T →
      exec (.slipwayServing (.msg src (g, T))) s = .next { s with
        dev := { s.dev with rcv := { s.dev.rcv with servingAt := some T } }.ctrl src (.result "SLIPWAY" rDone) }) ∧
    (s.dev.stage = 4 → exec (.slipwayServing (.msg src (g, T))) s = said "SLIPWAY" rNoChange) ∧
    (s.dev.stage = 0 ∨ s.dev.stage = 2 → s.dev.rcv.servingAt = none →
      exec (.slipwayServing (.msg src (g, T))) s = said "SLIPWAY" rBadState) := by
  have hrule := Dev.recovery_same (d := s.dev) (rule := Dev.slipServing (T % 2 ^ 64)) hgen
  rw [Nat.mod_eq_of_lt hT] at hrule
  have hmod : exec (.slipwayServing (.msg src (g, T))) s = onPkg (Pkg.rcvMsg src "SLIPWAY" g (Dev.slipServing T)) s := by
    show onPkg (Pkg.rcvMsg src "SLIPWAY" g (Dev.slipServing (T % 2 ^ 64))) s = _
    rw [Nat.mod_eq_of_lt hT]
  rw [hmod]
  refine ⟨fun hstage hT' => recovery_said hrun hdom hfm (hrule.trans ?_) hqueue (quiet_rest rfl hq),
    fun hstage => recovery_refused hrun hdom hq hqueue hfm (hrule.trans ?_),
    fun hstage hnone => recovery_refused hrun hdom hq hqueue hfm (hrule.trans ?_)⟩
  · rw [Dev.slipServing, if_neg (by simp [hT']; omega), if_pos hstage]
  · rw [Dev.slipServing, if_pos (.inl hstage)]
  · rw [Dev.slipServing, if_neg (by simp [hnone]; omega), if_neg (by omega)]

theorem recoveryLower (src : Nat) (a : NodeGen) (s : State) (hrun : s.dev.running = true) (hdom : s.dev.domOn 11 = true) (hq : quiet s.dev)
    (hqueue : s.dev.home.queue = []) (hfm : s.dev.fmAllowed src = true) (hgen : a.gen < s.dev.rd F.RCV_GEN_GEN) :
    let said := fun (name : String) (r : Nat) => (.next { s with dev := s.dev.ctrl src (.result name r) } : Host.Outcome State Fault Refusal)
    exec (.rcvNodeLost (.msg src a)) s = said "NODE_LOST" rBadState ∧ exec (.rcvNodeFound (.msg src a)) s = said "NODE_FOUND" rBadState ∧
    exec (.rcvSourceReset (.msg src a)) s = said "SOURCE_RESET" rBadState ∧
    exec (.slipwayTransit (.msg src a.gen)) s = said "SLIPWAY" rBadState ∧
    ∀ T, exec (.slipwayServing (.msg src (a.gen, T))) s = said "SLIPWAY" rBadState := by
  refine ⟨?_, ?_, ?_, ?_, fun T => ?_⟩ <;> exact recovery_refused hrun hdom hq hqueue hfm (Dev.recovery_lower hgen)

/-- Settles O53: messages by the generation they carry, the slipway by its stage, the timeouts as a write of their registers. -/
theorem recovery : Obligations.Recovery := by
  refine ⟨fun src a s hrun hdom hq hqueue hstore hcolls hfm hnode => ⟨recoveryLower src a s hrun hdom hq hqueue hfm,
    rcvNodeLost_breaks hrun hdom hq hqueue hstore hcolls hfm hnode, fun hgen => ?_⟩, fun s hrun => servingAtT_cases s hrun,
    fun m s => ⟨rfl, rfl, rfl, fun h => if_pos h, fun h => if_pos h⟩, fun m v s => rcvCfgWrites m v s⟩
  obtain ⟨hbroken, hfound, hnever, hearly, hin, hbad⟩ := recoveryMessages src a s hrun hdom hq hqueue hfm hnode hgen
  exact ⟨hbroken, rcvNodeFound_clears hrun hdom hq hqueue hfm hnode hgen, hfound,
    ⟨hnever, hearly, rcvSourceReset_freshens hrun hdom hq hqueue hstore hfm hnode hgen⟩,
    slipwayTransit_enters hrun hdom hq hqueue hfm hgen, hin, hbad, fun T hT => slipwayServings src T s hrun hdom hq hqueue hfm hgen hT⟩

end Sys2Proof.Machine


/-!
SUPPORT. O37, GRANT, WIDEN, REVOKE, RESERVE and RELEASE of extents.
-/
namespace Sys2Proof.Machine

section
variable {d e : Dev}

/-! ### Commands at a package without a partner -/

/-- Without a partner a change of the tables is reported at once. -/
theorem Dev.tableChanged_alone (h : d.rd F.PROT_CFG_PARTNER_EN = 0) (ls : List Nat) (k : HKind) (ext : Nat) (done : Dev → Dev) :
    d.tableChanged ls k ext done = done d := by
  rw [Dev.tableChanged, Dev.mirrorExt_alone h]

theorem Dev.endCommand_alone (h : d.rd F.PROT_CFG_PARTNER_EN = 0) (src : Nat) (name : String) (r gen : Nat) (ls : List Nat) :
    d.endCommand (some src) name r gen ls = d.ctrl src (.result name r) := by
  rw [Dev.endCommand, Dev.tableChanged_alone h, ite_self]
  rfl

/-- A message of the fabric manager to the home of a package at rest, whose home has no request queued. -/
theorem onFm_quiet {s : State} {src : Nat} {f : Dev → Dev} (hrun : s.dev.running = true) (hdom : s.dev.domOn 11 = true)
    (hfm : s.dev.fmAllowed src = true) (hf : f s.dev = e) (hqueue : e.home.queue = []) (hq : quiet e) :
    onFm src f s = .next { s with dev := e } := by
  refine onPkg_leaves (x := (s.store, e)) hrun hdom ?_
  rw [Pkg.dev, Dev.fromFm, if_pos hfm, hf]
  exact settle_pump_quiet hqueue hq

theorem Dev.ext_setExt (d : Dev) (j k : Nat) (x : ExtEnt) : (d.setExt k x).ext j = if j = k then x else d.ext j := tget_tset _ _ _ _ _

theorem Dev.ext_ctrl (d : Dev) (n : Nat) (m : CtrlMsg) (k : Nat) : (d.ctrl n m).ext k = d.ext k := by simp [Dev.ext]

/-! ### One command on an entry -/

theorem Dev.extCommand_fixed {op : ExtOp} {a : ExtArgs} (halone : d.rd F.PROT_CFG_PARTNER_EN = 0) (hk : a.index < 3232)
    (hfixed : isFixedExt a.index = true) (src : Nat) : d.extCommand op (some src) a = d.ctrl src (.result op.name rBadState) := by
  rw [Dev.extCommand, if_neg (by omega)]
  simp [hfixed, Dev.endCommand_alone halone, show rBadState ≠ rDone by decide]

theorem Dev.extCommand_step {op : ExtOp} {a : ExtArgs} (hrole : d.rd F.PROT_CFG_ROLE = 0) (hfixed : isFixedExt a.index = false) :
    (if isFixedExt a.index = true ∨ op = .grant ∧ d.rd F.PROT_CFG_ROLE = 1 then (rBadState, d.ext a.index)
      else extStep op a (d.ext a.index)) = extStep op a (d.ext a.index) := if_neg (by simp [hfixed, hrole])

/-- The package as REVOKE leaves the entry and notes who asked. -/
def Dev.revoking (k src : Nat) (x : ExtEnt) (d : Dev) : Dev :=
  { d.setExt k x with home := { (d.setExt k x).home with
      revs := d.home.revs ++ [(k, some src)], refused := nset d.home.refused k 0 } }

section
variable {op : ExtOp} {a : ExtArgs} {src r : Nat} {x : ExtEnt} (halone : d.rd F.PROT_CFG_PARTNER_EN = 0) (hrole : d.rd F.PROT_CFG_ROLE = 0)
  (hk : a.index < 3232) (hfixed : isFixedExt a.index = false)
include halone hrole hk hfixed

/-- A command that changes nothing is answered. -/
theorem Dev.extCommand_keeps (hstep : extStep op a (d.ext a.index) = (r, x)) (hr : r ≠ rDone) :
    d.extCommand op (some src) a = d.ctrl src (.result op.name r) := by
  rw [Dev.extCommand, if_neg (by omega)]
  dsimp only
  rw [Dev.extCommand_step hrole hfixed, hstep]
  simp only [if_neg hr]
  exact Dev.endCommand_alone halone _ _ _ _ _

/-- A command other than REVOKE changes its entry and is answered. -/
theorem Dev.extCommand_changes (hop : op ≠ .revoke) (hstep : extStep op a (d.ext a.index) = (rDone, x)) :
    d.extCommand op (some src) a = (d.setExt a.index x).ctrl src (.result op.name rDone) := by
  rw [Dev.extCommand, if_neg (by omega)]
  dsimp only
  rw [Dev.extCommand_step hrole hfixed, hstep]
  simp only [if_neg hop, if_true]
  exact Dev.endCommand_alone (d := d.setExt a.index x) halone _ _ _ _ _

theorem Dev.extCommand_revokes (hstep : extStep .revoke a (d.ext a.index) = (rDone, x)) :
    d.extCommand .revoke (some src) a = Dev.revocationComplete a.index ((d.revoking a.index src x).ctrl src (.result "EXT_REVOKE" rDone)) := by
  rw [Dev.extCommand, if_neg (by omega)]
  dsimp only
  rw [Dev.extCommand_step hrole hfixed, hstep]
  exact congrArg (Dev.revocationComplete a.index) (Dev.endCommand_alone (d := d.revoking a.index src x) halone _ _ _ _ _)

end
end

/-! ### REVOCATION_COMPLETE -/

/-- The entry FREE, with the issuer's note taken off (R121). -/
def Dev.revoked (k : Nat) (d : Dev) : Dev :=
  { d.setExt k { d.ext k with state := 0, region := 0, gen := nextGen (d.ext k).gen, bm := ⟨0, 0, 0, 0⟩ } with
    home := { (d.setExt k { d.ext k with state := 0, region := 0, gen := nextGen (d.ext k).gen, bm := ⟨0, 0, 0, 0⟩ }).home with
      revs := d.home.revs.filter (fun r => r.1 != k), refused := nset d.home.refused k 0 } }

theorem Dev.completeRevocation_alone {d : Dev} {k : Nat} (halone : d.rd F.PROT_CFG_PARTNER_EN = 0) : d.completeRevocation k =
    Dev.revocationRecord k (nextGen (d.ext k).gen) (nget d.home.refused k) d.ns ((d.home.revs.find? (fun r => r.1 == k)).map (·.2)).join
      (d.revoked k) := Dev.tableChanged_alone (d := d.revoked k) halone _ _ _ _

theorem Dev.ext_revoked (d : Dev) (k j : Nat) : (d.revoked k).ext j =
    if j = k then { d.ext k with state := 0, region := 0, gen := nextGen (d.ext k).gen, bm := ⟨0, 0, 0, 0⟩ } else d.ext j := tget_tset _ _ _ _ _

theorem Dev.ext_revocationRecord (d : Dev) (k gen refused ns : Nat) (src : Option Nat) (j : Nat) :
    (Dev.revocationRecord k gen refused ns src d).ext j = d.ext j := by
  cases src <;> simp [Dev.revocationRecord, Dev.ext]

theorem revocationComplete_cases (k : Nat) (s : State) (hrun : s.dev.running = true) (halone : s.dev.rd F.PROT_CFG_PARTNER_EN = 0) :
    ((s.dev.ext k).state = 2 → nget s.dev.home.infl k = 0 → ∃ t, exec (.revocationComplete k) s = .next t ∧ t.store = s.store ∧
      t.dev.ext k = { s.dev.ext k with state := 0, region := 0, gen := nextGen (s.dev.ext k).gen, bm := ⟨0, 0, 0, 0⟩ } ∧
      (∀ j, j ≠ k → t.dev.ext j = s.dev.ext j)) ∧
    ((s.dev.ext k).state ≠ 2 ∨ nget s.dev.home.infl k ≠ 0 → exec (.revocationComplete k) s = .next s) := by
  have hexec : exec (.revocationComplete k) s = .next { s with dev := s.dev.revocationComplete k } := onDev_running hrun _
  rw [hexec, Dev.revocationComplete]
  refine ⟨fun hst hinfl => ⟨_, rfl, rfl, ?_⟩, fun h => ?_⟩
  · simp only [if_pos (And.intro hst hinfl)]
    rw [Dev.completeRevocation_alone halone]
    refine ⟨?_, fun j hj => ?_⟩
    · rw [Dev.ext_revocationRecord, Dev.ext_revoked, if_pos rfl]
    · rw [Dev.ext_revocationRecord, Dev.ext_revoked, if_neg hj]
  · rw [if_neg (by tauto)]

/-! ### REVOKE -/

section
variable {d : Dev} {k src : Nat} {x : ExtEnt} {m : CtrlMsg}

/-- REVOKE answered, before the revocation completes: what its end reads. -/
theorem Dev.revoking_frame (d : Dev) (k src : Nat) (x : ExtEnt) (m : CtrlMsg) : ((d.revoking k src x).ctrl src m).ext k = x ∧
    ((d.revoking k src x).ctrl src m).home.infl = d.home.infl ∧ nget ((d.revoking k src x).ctrl src m).home.refused k = 0 ∧
    ((d.revoking k src x).ctrl src m).home.revs = d.home.revs ++ [(k, some src)] ∧ ((d.revoking k src x).ctrl src m).home.queue = d.home.queue ∧
    ((d.revoking k src x).ctrl src m).rest = d.rest ∧ ((d.revoking k src x).ctrl src m).rd F.PROT_CFG_PARTNER_EN = d.rd F.PROT_CFG_PARTNER_EN ∧
    ((d.revoking k src x).ctrl src m).ns = d.ns ∧ ((d.revoking k src x).ctrl src m).hasNode = d.hasNode := by
  have hglb : ((d.revoking k src x).ctrl src m).glb = d.glb := by simp [Dev.revoking, Dev.setExt]
  refine ⟨?_, by simp [Dev.revoking, Dev.setExt], by simp [Dev.revoking, Dev.setExt, nget_nset_same], by simp [Dev.revoking],
    by simp [Dev.revoking, Dev.setExt], Dev.rest_ctrl (d := d.revoking k src x) _ _, (Dev.rd_ctrl _ _ _ _).trans rfl,
    by simp [Dev.ns, Dev.revoking, Dev.setExt], funext fun n => Dev.hasNode_congr hglb n⟩
  rw [Dev.ext_ctrl]
  exact tget_tset_same _ _ _ _

theorem Dev.out_revoking (h : d.hasNode src = true) : ((d.revoking k src x).ctrl src m).out = d.out ++ [.ctrl src m] :=
  Dev.ctrl_out (d := d.revoking k src x) h m

/-- The answer and the record of a revocation leave one after the other. -/
theorem Dev.revocationRecord_out {gen refused ns : Nat} (h : d.hasNode src = true) :
    (Dev.revocationRecord k gen refused ns (some src) d).out =
      d.out ++ [.ctrl src (.revocation (natLE 2 k ++ natLE 2 gen ++ natLE 4 refused ++ natLE 8 ns))] := Dev.ctrl_out h _

theorem Dev.revocationRecord_frame (gen refused ns : Nat) (n : Option Nat) : (Dev.revocationRecord k gen refused ns n d).rest = d.rest ∧
    (Dev.revocationRecord k gen refused ns n d).home = d.home := by
  cases n <;> simp [Dev.revocationRecord, Dev.rest]

theorem Dev.revoked_frame (d : Dev) (k : Nat) : (d.revoked k).rest = d.rest ∧ (d.revoked k).home.queue = d.home.queue ∧
    (d.revoked k).hasNode = d.hasNode ∧ (d.revoked k).out = d.out := ⟨rfl, rfl, rfl, rfl⟩

end

/-! ### The commands by message -/

section
variable {s : State} {src : Nat} {a : ExtArgs} (hrun : s.dev.running = true) (hdom : s.dev.domOn 11 = true) (hq : quiet s.dev)
  (hqueue : s.dev.home.queue = []) (hfm : s.dev.fmAllowed src = true) (halone : s.dev.rd F.PROT_CFG_PARTNER_EN = 0) (hk : a.index < 3232)
include hrun hdom hq hqueue hfm halone hk

theorem extForm_fixed (op : ExtOp) (i : Nat) (hfixed : isFixedExt a.index = true) :
    extForm op i (.msg src a) s = .next { s with dev := s.dev.ctrl src (.result op.name rBadState) } :=
  onFm_quiet hrun hdom hfm (Dev.extCommand_fixed halone hk hfixed src) (by simpa using hqueue) (quiet_rest (Dev.rest_ctrl (d := s.dev) _ _) hq)

variable (hrole : s.dev.rd F.PROT_CFG_ROLE = 0) (hfixed : isFixedExt a.index = false)
include hrole hfixed

theorem extForm_keeps {op : ExtOp} {r : Nat} {x : ExtEnt} (i : Nat) (hstep : extStep op a (s.dev.ext a.index) = (r, x)) (hr : r ≠ rDone) :
    extForm op i (.msg src a) s = .next { s with dev := s.dev.ctrl src (.result op.name r) } :=
  onFm_quiet hrun hdom hfm (Dev.extCommand_keeps halone hrole hk hfixed hstep hr) (by simpa using hqueue) (quiet_rest (Dev.rest_ctrl (d := s.dev) _ _) hq)

theorem extForm_changes {op : ExtOp} {x : ExtEnt} (i : Nat) (hop : op ≠ .revoke) (hstep : extStep op a (s.dev.ext a.index) = (rDone, x)) :
    extForm op i (.msg src a) s = .next { s with dev := (s.dev.setExt a.index x).ctrl src (.result op.name rDone) } :=
  onFm_quiet hrun hdom hfm (Dev.extCommand_changes halone hrole hk hfixed hop hstep) (by simpa [Dev.setExt] using hqueue)
    (quiet_rest (Dev.rest_ctrl (d := s.dev.setExt a.index x) _ _) hq)

/-- REVOKE of a LIVE extent: REVOKING while a request is in flight, else FREE at once, with its record. -/
theorem extRevoke_live (hlive : (s.dev.ext a.index).state = 1) :
    let e := s.dev.ext a.index
    let g := nextGen e.gen
    ∃ t, exec (.extRevoke (.msg src a)) s = .next t ∧ t.store = s.store ∧
      (nget s.dev.home.infl a.index ≠ 0 → t.dev.ext a.index = { e with state := 2, gen := g }) ∧
      (nget s.dev.home.infl a.index ≠ 0 → s.dev.hasNode src = true → t.dev.out = s.dev.out ++ [.ctrl src (.result "EXT_REVOKE" rDone)]) ∧
      (nget s.dev.home.infl a.index = 0 → s.dev.hasNode src = true → s.dev.home.revs.find? (fun r => r.1 == a.index) = none →
        t.dev.ext a.index = { state := 0, region := 0, gen := nextGen g, bm := ⟨0, 0, 0, 0⟩ } ∧
        t.dev.out = s.dev.out ++ [.ctrl src (.result "EXT_REVOKE" rDone), .ctrl src (.revocation (natLE 2 a.index ++ natLE 2 (nextGen g) ++ natLE 4 0 ++
          natLE 8 s.dev.ns))]) := by
  have hstep : extStep .revoke a (s.dev.ext a.index) = (rDone, { s.dev.ext a.index with state := 2, gen := nextGen (s.dev.ext a.index).gen }) := by
    simp [extStep, hlive]
  have hcmd := Dev.extCommand_revokes (src := src) halone hrole hk hfixed hstep
  obtain ⟨hext, hinfl, href, hrevs, hqueue', hrest, hpart, hns, hnode⟩ :=
    s.dev.revoking_frame a.index src { s.dev.ext a.index with state := 2, gen := nextGen (s.dev.ext a.index).gen } (.result "EXT_REVOKE" rDone)
  have hout := Dev.out_revoking (d := s.dev) (k := a.index) (src := src)
    (x := { s.dev.ext a.index with state := 2, gen := nextGen (s.dev.ext a.index).gen }) (m := .result "EXT_REVOKE" rDone)
  generalize (s.dev.revoking a.index src _).ctrl src (.result "EXT_REVOKE" rDone) = c at hcmd hext hinfl href hrevs hqueue' hrest hpart hns hnode hout
  by_cases h0 : nget s.dev.home.infl a.index = 0
  · rw [Dev.revocationComplete, if_pos ⟨by rw [hext], by rw [hinfl, h0]⟩, Dev.completeRevocation_alone (hpart.trans halone), hext, href, hns,
      hrevs] at hcmd
    obtain ⟨hrest', hqueue'', hnode', hout'⟩ := c.revoked_frame a.index
    refine ⟨_, onFm_quiet hrun hdom hfm hcmd ?_ (quiet_rest ?_ hq), rfl, fun h => absurd h0 h, fun h => absurd h0 h, fun _ hsrc hnone => ?_⟩
    · rw [(Dev.revocationRecord_frame _ _ _ _).2, hqueue'', hqueue', hqueue]
    · rw [(Dev.revocationRecord_frame _ _ _ _).1, hrest', hrest]
    · refine ⟨?_, ?_⟩
      · rw [Dev.ext_revocationRecord, Dev.ext_revoked, if_pos rfl, hext]
      · rw [List.find?_append, hnone]
        simp only [Option.none_or, List.find?_cons, beq_self_eq_true, Option.map_some, Option.join_some]
        rw [Dev.revocationRecord_out (by rw [hnode', hnode, hsrc]), hout', hout hsrc, List.append_assoc]
        rfl
  · rw [Dev.revocationComplete, if_neg (by rw [hinfl]; tauto)] at hcmd
    refine ⟨_, onFm_quiet hrun hdom hfm hcmd (hqueue'.trans hqueue) (quiet_rest hrest hq), rfl, fun _ => hext, fun _ hsrc => hout hsrc,
      fun h => absurd h h0⟩

end

/-- Settles O37: an entry as its command's step leaves it, and REVOKE by the requests in flight. -/
theorem extentCommands : Obligations.ExtentCommands := by
  refine ⟨fun src a s hrun hdom hq hqueue hfm halone hrole hk => ⟨fun hfixed => ?_, fun hfixed => ?_⟩,
    fun k s hrun halone => revocationComplete_cases k s hrun halone, fun m s => ⟨rfl, rfl, rfl, rfl, rfl⟩⟩
  · refine ⟨fun h0 => ?_, fun h1 hmaps => ?_, extRevoke_live hrun hdom hq hqueue hfm halone hk hrole hfixed, fun h0 => ?_, fun h35 => ?_, fun h0 => ?_,
      fun h4 => ?_⟩
    · exact extForm_changes hrun hdom hq hqueue hfm halone hk hrole hfixed 1 (op := .grant) (by decide) (by simp [extStep, h0])
    · exact extForm_changes hrun hdom hq hqueue hfm halone hk hrole hfixed 2 (op := .widen) (by decide) (by simp only [extStep, h1, if_true, if_neg hmaps])
    · exact extForm_changes hrun hdom hq hqueue hfm halone hk hrole hfixed 4 (op := .reserve) (by decide) (by simp [extStep, h0])
    · exact extForm_changes hrun hdom hq hqueue hfm halone hk hrole hfixed 5 (op := .release) (by decide) (by simp only [extStep, if_pos h35])
    · exact extForm_keeps hrun hdom hq hqueue hfm halone hk hrole hfixed 3 (op := .revoke) (r := rNoChange) (by simp [extStep, h0]; rfl) (by decide)
    · exact extForm_keeps hrun hdom hq hqueue hfm halone hk hrole hfixed 1 (op := .grant) (r := rBadState) (by simp [extStep, h4]; rfl) (by decide)
  · intro c hc
    simp only [List.mem_cons, List.not_mem_nil, or_false] at hc
    have hform := fun op i => extForm_fixed hrun hdom hq hqueue hfm halone hk op i hfixed
    rcases hc with rfl | rfl | rfl | rfl | rfl
    · exact hform .grant 1
    · exact hform .widen 2
    · exact hform .revoke 3
    · exact hform .reserve 4
    · exact hform .release 5

end Sys2Proof.Machine


/-!
SUPPORT. O32, fault batches and their rings.
-/
namespace Sys2Proof.Machine

/-! ### Writes that every field accepts -/

section
variable {m : Master} {p off v : Nat} {d : Dev} {f : Fld}

theorem rdpi_setWord_of {a w q i : Nat} (haddr : f.addr q i = a) (hw : f.lo + f.w ≤ 32) : (d.setWord a w).rdpi f q i = bits w f.lo f.w := by
  rw [Dev.rdpi, haddr, Dev.word_setWord_same, bits_mod _ _ _ _ hw]

theorem fieldsTaken_of (hown : d.mayWrite m p off = true) (hfry : p < 0x30 ∨ 0x34 ≤ p)
    (href : d.writeRefused (d.setWord (p * 0x1000 + off) (d.newWord (d.mayWrite m p off) p off v)) p off = none)
    (hpages : ∀ f ∈ fieldsAt p off, f.page ≠ 3 ∧ f.page ≠ 0x10 ∧ f.page ≠ 0x2A ∧ f.page ≠ 0x30 ∧ f.page ≠ 0x61)
    (hacc : ∀ f ∈ fieldsAt p off, f.accepts (bits v f.lo f.w) = true) : fieldsTaken d m p off v := by
  refine ⟨⟨fun _ => hown, href, ?_⟩, ?_⟩
  · simp only [Dev.anyHeld, List.any_eq_false]
    intro f hf
    obtain ⟨-, -, hbulk, -, hrte⟩ := hpages f hf
    simp [Dev.partHeld_of_page d off hfry hbulk hrte]
  · simp only [Dev.anyReserved, List.any_eq_false]
    intro f hf
    obtain ⟨hsec, hlnd, -, hfry', hrte⟩ := hpages f hf
    simp [Dev.reserved_of_page d p off v hsec hlnd hfry' hrte, hacc f hf]

end

theorem rdi_setWord_of {d : Dev} {f : Fld} {a w i : Nat} (haddr : f.addr f.page i = a) (hw : f.lo + f.w ≤ 32) :
    (d.setWord a w).rdi f i = bits w f.lo f.w := rdpi_setWord_of haddr hw

theorem bits_word {v : Nat} (h : v < 2 ^ 32) : bits v 0 32 = v := by
  rw [bits, Nat.pow_zero, Nat.div_one, Nat.mod_eq_of_lt h]

theorem bit_eq_bits (v i : Nat) : bit v i = (bits v i 1 == 1) := rfl

/-! ### Registers of page FLT -/

section
variable {m : Master} {s : State} {off v : Nat}

theorem fltWrite_taken (hown : s.dev.owns m 0x21 = true)
    (hpages : ∀ f ∈ fieldsAt 0x21 off, f.page = 0x21) (hacc : ∀ f ∈ fieldsAt 0x21 off, f.accepts (bits v f.lo f.w) = true) :
    fieldsTaken (tlp m s.dev) m 0x21 off v := by
  refine fieldsTaken_of (mayWrite_owner hown (by simp [isFmq])) (.inl (by decide)) ?_ (fun f hf => ?_) hacc
  · simp [Dev.writeRefused]
  · rw [hpages f hf]
    decide

/-- Such a write as a command. -/
theorem fltRegister (hopen : pageOpen s.dev m 0x21) (hown : s.dev.owns m 0x21 = true) (ho : 0x100 ≤ off) (ho2 : off < 0x1000) (h4 : off % 4 = 0)
    (hv : v < 2 ^ 32) (hpages : ∀ f ∈ fieldsAt 0x21 off, f.page = 0x21)
    (hacc : ∀ f ∈ fieldsAt 0x21 off, f.accepts (bits v f.lo f.w) = true) :
    regOut m (0x21 * 0x1000 + off) 4 v s = .next { s with
      dev := Dev.fltWritten off (s.dev.word (0x21 * 0x1000 + off)) ((tlp m s.dev).newWord ((tlp m s.dev).mayWrite m 0x21 off) 0x21 off v)
        ((tlp m s.dev).setWord (0x21 * 0x1000 + off) ((tlp m s.dev).newWord ((tlp m s.dev).mayWrite m 0x21 off) 0x21 off v)) } := by
  have htaken := fltWrite_taken hown hpages hacc
  obtain ⟨-, -, -, hon⟩ := id hopen
  refine (regOut_taken hopen ⟨ho, ho2, h4, by simp [routeAt], by simp, hon⟩ hv htaken).trans ?_
  rw [fieldsStored, Pkg.written]
  simp [withPkg, Pkg.dev]

theorem tlp_flt (m : Master) (d : Dev) : (tlp m d).flt = d.flt := by
  unfold tlp
  split <;> simp

/-- What such a write leaves in a field. -/
theorem fltField {f : Fld} (hown : s.dev.owns m 0x21 = true) (hpages : ∀ f ∈ fieldsAt 0x21 off, f.page = 0x21)
    (hacc : ∀ f ∈ fieldsAt 0x21 off, f.accepts (bits v f.lo f.w) = true) (hf : f ∈ fieldsAt 0x21 off) (hrwo : f.acc = .rwo) :
    bits ((tlp m s.dev).newWord ((tlp m s.dev).mayWrite m 0x21 off) 0x21 off v) f.lo f.w = bits v f.lo f.w := by
  refine fieldsTaken_bits (fltWrite_taken hown hpages hacc) hf (by simp) ?_ (by simp [hrwo]) ?_
  · rw [mayWrite_owner hown (by simp [isFmq]), fieldOpen, hrwo]
  · rintro rfl
    exact absurd (hpages _ hf) (by decide)

theorem Dev.fltDeliver_none {d : Dev} (h : d.flt = []) (r : Nat) : d.fltDeliver r = d := by
  rw [Dev.fltDeliver, h]
  show ({ d with flt := [] } : Dev) = d
  rw [← h]

/-- CONS takes what its owner writes. -/
theorem fltRingCons_stores {ring : Fin 16} {v : W32} (hopen : pageOpen s.dev m 0x21) (hown : s.dev.owns m 0x21 = true) (hflt : s.dev.flt = []) :
    ∃ t, exec (.fltRingCons m ring v) s = .next t ∧ t.store = s.store ∧ t.dev.rdi F.FLT_RING_CONS_CONS ring.val = v.toNat := by
  have hflds : ∀ r : Fin 16, fieldsAt 0x21 (0x110 + 0x20 * r.val) = [F.FLT_RING_CONS_CONS] := by decide
  have haddr : ∀ r : Fin 16, F.FLT_RING_CONS_CONS.addr 0x21 r.val = 0x21 * 0x1000 + (0x110 + 0x20 * r.val) := by decide
  have hacc : ∀ f ∈ fieldsAt 0x21 (0x110 + 0x20 * ring.val), f.accepts (bits v.toNat f.lo f.w) = true := by
    simp [hflds, Fld.accepts, F.FLT_RING_CONS_CONS]
  have hpages : ∀ f ∈ fieldsAt 0x21 (0x110 + 0x20 * ring.val), f.page = 0x21 := by simp [hflds, F.FLT_RING_CONS_CONS]
  have hlt := ring.isLt
  have hwrite := fltRegister hopen hown (by omega) (by omega) (by omega) v.isLt hpages hacc
  have hoff : (0x110 + 0x20 * ring.val - 0x100) % 0x20 = 0x10 := by omega
  have hkind : ∀ (old w : Nat) (d : Dev), Dev.fltWritten (0x110 + 0x20 * ring.val) old w d = d.fltDeliver ((0x110 + 0x20 * ring.val - 0x100) / 0x20) :=
    fun old w d => by simp [Dev.fltWritten, hoff]
  rw [hkind, Dev.fltDeliver_none (d := (tlp m s.dev).setWord _ _) ((tlp_flt m s.dev).trans hflt)] at hwrite
  refine ⟨_, (show exec _ s = regOut m (0x21 * 0x1000 + (0x110 + 0x20 * ring.val)) 4 v.toNat s by
    rw [← Nat.add_assoc]; rfl).trans hwrite, rfl, ?_⟩
  exact (rdi_setWord_of (haddr ring) (by decide)).trans ((fltField hown hpages hacc (by simp [hflds]) rfl).trans (bits_word v.isLt))

/-- What is read after both counters of a ring were set to 0. -/
theorem fltEmptied_reads (d : Dev) (ring : Fin 16) :
    let e := (d.wri F.FLT_RING_PROD_PROD ring.val 0).wri F.FLT_RING_CONS_CONS ring.val 0
    e.rdi F.FLT_RING_CFG_ENABLE ring.val = d.rdi F.FLT_RING_CFG_ENABLE ring.val ∧
    e.rdi F.FLT_RING_CFG_LOG2_SIZE ring.val = d.rdi F.FLT_RING_CFG_LOG2_SIZE ring.val ∧
    e.rdi F.FLT_RING_PROD_PROD ring.val = 0 ∧ e.rdi F.FLT_RING_CONS_CONS ring.val = 0 := by
  have haddr : ∀ r : Fin 16, ∀ f ∈ [F.FLT_RING_CFG_ENABLE, F.FLT_RING_CFG_LOG2_SIZE],
      f.addr f.page r.val ≠ F.FLT_RING_PROD_PROD.addr 0x21 r.val ∧ f.addr f.page r.val ≠ F.FLT_RING_CONS_CONS.addr 0x21 r.val := by decide
  have hcounters : ∀ r : Fin 16, F.FLT_RING_PROD_PROD.addr 0x21 r.val ≠ F.FLT_RING_CONS_CONS.addr 0x21 r.val := by decide
  obtain ⟨henap, henac⟩ := haddr ring F.FLT_RING_CFG_ENABLE (by simp)
  obtain ⟨hsizep, hsizec⟩ := haddr ring F.FLT_RING_CFG_LOG2_SIZE (by simp)
  exact ⟨(Dev.rdpi_wrpi_ne _ _ _ _ _ _ _ _ (.inl henac)).trans (Dev.rdpi_wrpi_ne _ _ _ _ _ _ _ _ (.inl henap)),
    (Dev.rdpi_wrpi_ne _ _ _ _ _ _ _ _ (.inl hsizec)).trans (Dev.rdpi_wrpi_ne _ _ _ _ _ _ _ _ (.inl hsizep)),
    (Dev.rdpi_wrpi_ne _ _ _ _ _ _ _ _ (.inl (hcounters ring))).trans (Dev.rdpi_wrpi_same _ _ _ _ _ (by decide)),
    Dev.rdpi_wrpi_same _ _ _ _ _ (by decide)⟩

/-- ENABLE going to 1 starts the ring empty (R113). -/
theorem fltRingCfg_enables {ring : Fin 16} {v : W32} (hopen : pageOpen s.dev m 0x21) (hown : s.dev.owns m 0x21 = true) (hflt : s.dev.flt = [])
    (hoff : s.dev.rdi F.FLT_RING_CFG_ENABLE ring.val = 0) (hon : bit v.toNat 0 = true) (h6 : 6 ≤ bits v.toNat 4 5) (h16 : bits v.toNat 4 5 ≤ 16) :
    ∃ t, exec (.fltRingCfgWrite m ring v) s = .next t ∧ t.store = s.store ∧ t.dev.rdi F.FLT_RING_CFG_ENABLE ring.val = 1 ∧
      t.dev.rdi F.FLT_RING_CFG_LOG2_SIZE ring.val = bits v.toNat 4 5 ∧ t.dev.rdi F.FLT_RING_PROD_PROD ring.val = 0 ∧
      t.dev.rdi F.FLT_RING_CONS_CONS ring.val = 0 := by
  have hflds : ∀ r : Fin 16, fieldsAt 0x21 (0x108 + 0x20 * r.val) = [F.FLT_RING_CFG_ENABLE, F.FLT_RING_CFG_LOG2_SIZE, F.FLT_RING_CFG_VECTOR] := by
    decide
  have haddr : ∀ r : Fin 16, F.FLT_RING_CFG_ENABLE.addr 0x21 r.val = 0x21 * 0x1000 + (0x108 + 0x20 * r.val) ∧
      F.FLT_RING_CFG_LOG2_SIZE.addr 0x21 r.val = 0x21 * 0x1000 + (0x108 + 0x20 * r.val) := by decide
  have hacc : ∀ f ∈ fieldsAt 0x21 (0x108 + 0x20 * ring.val), f.accepts (bits v.toNat f.lo f.w) = true := by
    simp [hflds, Fld.accepts, F.FLT_RING_CFG_ENABLE, F.FLT_RING_CFG_LOG2_SIZE, F.FLT_RING_CFG_VECTOR, h6, h16]
  have hpages : ∀ f ∈ fieldsAt 0x21 (0x108 + 0x20 * ring.val), f.page = 0x21 := by
    simp [hflds, F.FLT_RING_CFG_ENABLE, F.FLT_RING_CFG_LOG2_SIZE, F.FLT_RING_CFG_VECTOR]
  obtain ⟨hena, hsize⟩ := haddr ring
  have hlt := ring.isLt
  have hwrite := fltRegister hopen hown (by omega) (by omega) (by omega) v.isLt hpages hacc
  have henaf : bits ((tlp m s.dev).newWord ((tlp m s.dev).mayWrite m 0x21 (0x108 + 0x20 * ring.val)) 0x21 (0x108 + 0x20 * ring.val) v.toNat) 0 1 = 1 :=
    (fltField (f := F.FLT_RING_CFG_ENABLE) hown hpages hacc (by simp [hflds]) rfl).trans (eq_of_beq hon)
  have hsizef := fltField (f := F.FLT_RING_CFG_LOG2_SIZE) hown hpages hacc (by simp [hflds]) rfl
  have hflt' := (tlp_flt m s.dev).trans hflt
  generalize (tlp m s.dev).newWord ((tlp m s.dev).mayWrite m 0x21 (0x108 + 0x20 * ring.val)) 0x21 (0x108 + 0x20 * ring.val) v.toNat = w
    at hwrite henaf hsizef
  have hold : bits (s.dev.word (0x21 * 0x1000 + (0x108 + 0x20 * ring.val))) 0 1 = 0 := by
    rw [← hena]
    exact hoff
  have hrises : Dev.fltWritten (0x108 + 0x20 * ring.val) (s.dev.word (0x21 * 0x1000 + (0x108 + 0x20 * ring.val))) w
      ((tlp m s.dev).setWord (0x21 * 0x1000 + (0x108 + 0x20 * ring.val)) w) =
      (((tlp m s.dev).setWord (0x21 * 0x1000 + (0x108 + 0x20 * ring.val)) w).wri F.FLT_RING_PROD_PROD ring.val 0).wri F.FLT_RING_CONS_CONS ring.val 0 := by
    rw [Dev.fltWritten, if_pos (by omega), if_pos (by simp [bit_eq_bits, hold, henaf]), Dev.fltEnabled, show (0x108 + 0x20 * ring.val - 0x100) / 0x20 = ring.val by omega]
    exact Dev.fltDeliver_none (d := Dev.wri (Dev.wri (Dev.setWord _ _ _) _ _ _) _ _ _) hflt' _
  rw [hrises] at hwrite
  refine ⟨_, (show exec _ s = regOut m (0x21 * 0x1000 + (0x108 + 0x20 * ring.val)) 4 v.toNat s by
    rw [← Nat.add_assoc]; rfl).trans hwrite, rfl, ?_⟩
  obtain ⟨henar, hsizer, hempty⟩ := fltEmptied_reads ((tlp m s.dev).setWord (0x21 * 0x1000 + (0x108 + 0x20 * ring.val)) w) ring
  exact ⟨henar.trans ((rdi_setWord_of hena (by decide)).trans henaf), hsizer.trans ((rdi_setWord_of hsize (by decide)).trans hsizef), hempty⟩

/-! ### A batch whose window has ended -/

section
variable {d : Dev} {b : Batch} {f : FRec}

theorem Dev.fltDue_none {p : Batch → Bool} (h : ∀ b ∈ d.flt, p b = false) : d.fltDue p = d := by
  have hfilter : d.flt.filter (fun b => !b.due && p b) = [] := List.filter_eq_nil_iff.2 fun b hb => by simp [h b hb]
  have hmap : d.flt.map (fun b => if p b then { b with due := true } else b) = d.flt :=
    (List.map_congr_left fun b hb => by rw [h b hb]; rfl).trans (List.map_id _)
  rw [Dev.fltDue, hfilter, hmap]
  rfl

/-- A batch of one record that becomes due is written, and the ring's message follows. -/
theorem Dev.fltDue_one {p : Batch → Bool} (hflt : d.flt = [b]) (hdue : b.due = false) (hp : p b = true) (hrecs : b.recs = [f])
    (hroom : d.fltRoom b.ring = true) : d.fltDue p =
      { (({ d with flt := [{ b with due := true }] } : Dev).fltWrite b.ring f).msix (d.rdi F.FLT_RING_CFG_VECTOR b.ring) with flt := [] } := by
  have hroom' : ∀ l, ({ d with flt := l } : Dev).fltRoom b.ring = true := fun _ => hroom
  rw [Dev.fltDue, hflt]
  simp only [List.filter_cons, List.filter_nil, hdue, hp, Bool.not_false, Bool.and_true, if_true, List.map_cons, List.map_nil]
  rw [show [b.ring].dedup = [b.ring] from rfl]
  simp only [List.foldl_cons, List.foldl_nil, Dev.fltDeliver, Bool.true_and, beq_self_eq_true, if_true, Dev.fltBatch, hrecs, List.isEmpty_nil, hroom']
  rfl

/-- The record, its ring's PROD and the message. -/
theorem Dev.fltWrite_out (hperst : d.rd F.GLB_PIN_STAT_PERST = 0) {r : Nat} (hr : r < 16) (v : Nat) :
    ((d.fltWrite r f).msix v).out = d.out ++ [.hostWrite (ringAddr (d.rdi F.FLT_RING_BASE_LO_BASE_LO r) (d.rdi F.FLT_RING_BASE_HI_BASE_HI r)
      (d.rdi F.FLT_RING_PROD_PROD r) (d.rdi F.FLT_RING_CFG_LOG2_SIZE r) 32) (frecBytes f (d.rdi F.FLT_RING_PROD_PROD r)), .msix v] ∧
    ((d.fltWrite r f).msix v).rdi F.FLT_RING_PROD_PROD r = (d.rdi F.FLT_RING_PROD_PROD r + 1) % 2 ^ 32 := by
  have haddr : ∀ r < 16, F.GLB_PIN_STAT_PERST.addr F.GLB_PIN_STAT_PERST.page 0 ≠ F.FLT_RING_PROD_PROD.addr F.FLT_RING_PROD_PROD.page r := by decide
  have hhost : ∀ (a : Nat) (bs : List Byte), (d.hostWrite a bs).out = d.out ++ [.hostWrite a bs] := fun a bs => by
    rw [Dev.hostWrite, if_neg (by simp [hperst]), Dev.emit_out]
    simp
  have hperst' : (d.fltWrite r f).rd F.GLB_PIN_STAT_PERST = 0 :=
    (Dev.rd_count _ _ _ _ _).trans ((Dev.rdpi_wrpi_ne _ _ _ _ _ _ _ _ (.inl (haddr r hr))).trans ((Dev.rd_hostWrite _ _ _ _).trans hperst))
  refine ⟨?_, ?_⟩
  · rw [Dev.msix_out hperst']
    simp [Dev.fltWrite, hhost, Dev.wri]
  · exact (Dev.rdpi_msix _ _ _ _ _).trans ((Dev.rdpi_count _ _ _ _ _ _ _).trans (Dev.rdpi_wrpi_same _ _ _ _ _ (by decide)))

end

/-- FAULT_BATCH_DUE of a context with one batch of one record. -/
theorem faultBatchDue_cases (b : Batch) (f : FRec) (s : State) (hrun : s.dev.running = true) (hflt : s.dev.flt = [b]) (hdue : b.due = false)
    (hrecs : b.recs = [f]) (hring : b.ring < 16) :
    (s.dev.tim.tide < b.opened + us b.timerUs → exec (.faultBatchDue b.ctx) s = .next s) ∧
    (b.opened + us b.timerUs ≤ s.dev.tim.tide → s.dev.fltRoom b.ring = true → s.dev.rd F.GLB_PIN_STAT_PERST = 0 →
      ∃ t, exec (.faultBatchDue b.ctx) s = .next t ∧ t.store = s.store ∧ t.dev.flt = [] ∧
        t.dev.rdi F.FLT_RING_PROD_PROD b.ring = (s.dev.rdi F.FLT_RING_PROD_PROD b.ring + 1) % 2 ^ 32 ∧
        t.dev.out = s.dev.out ++ [.hostWrite (ringAddr (s.dev.rdi F.FLT_RING_BASE_LO_BASE_LO b.ring) (s.dev.rdi F.FLT_RING_BASE_HI_BASE_HI b.ring)
            (s.dev.rdi F.FLT_RING_PROD_PROD b.ring) (s.dev.rdi F.FLT_RING_CFG_LOG2_SIZE b.ring) 32) (frecBytes f (s.dev.rdi F.FLT_RING_PROD_PROD b.ring)),
          .msix (s.dev.rdi F.FLT_RING_CFG_VECTOR b.ring)]) := by
  have hexec : exec (.faultBatchDue b.ctx) s = .next { s with dev := s.dev.fltDueCtx b.ctx } := onDev_running hrun _
  rw [hexec, Dev.fltDueCtx]
  refine ⟨fun hearly => ?_, fun hover hroom hperst => ⟨_, rfl, rfl, ?_⟩⟩
  · rw [Dev.fltDue_none fun c hc => ?_]
    rw [hflt, List.mem_singleton] at hc
    simp [hc, Dev.batchOver]
    omega
  · rw [Dev.fltDue_one hflt hdue (by simp [Dev.batchOver, hover]) hrecs hroom]
    obtain ⟨hout, hprod⟩ := Dev.fltWrite_out (d := { s.dev with flt := [{ b with due := true }] }) (f := f) hperst hring
      (s.dev.rdi F.FLT_RING_CFG_VECTOR b.ring)
    exact ⟨rfl, hprod, hout⟩

end

/-- Settles O32: a batch of one record by its window, and the two registers of a ring. -/
theorem faultRings : Obligations.FaultRings :=
  ⟨fun b f s hrun hflt hdue hrecs hring => faultBatchDue_cases b f s hrun hflt hdue hrecs hring,
    fun _ _ _ _ hopen hown hflt => ⟨fltRingCons_stores hopen hown hflt, fltRingCfg_enables hopen hown hflt⟩⟩

end Sys2Proof.Machine


/-!
SUPPORT. O43, ferries: a tile issued, the domain fence of a run, a run that is over.
-/
namespace Sys2Proof.Machine

/-! ### What an access that is issued can change -/

/-- `e` is `d` but for what has left and the package's own requests. -/
def Dev.Sends (d e : Dev) : Prop := ∃ out epochs src, e = { d with out := out, epochs := epochs, src := src }

namespace Dev.Sends

theorem refl (d : Dev) : d.Sends d := ⟨_, _, _, rfl⟩

theorem trans {d e f : Dev} (h : d.Sends e) (k : e.Sends f) : d.Sends f := by
  obtain ⟨_, _, _, rfl⟩ := h
  obtain ⟨_, _, _, rfl⟩ := k
  exact ⟨_, _, _, rfl⟩

theorem foldl {α : Type} {f : Dev → α → Dev} (h : ∀ (d : Dev) x, d.Sends (f d x)) (l : List α) : ∀ d : Dev, d.Sends (l.foldl f d) := by
  induction l with
  | nil => exact fun d => refl d
  | cons x l ih => exact fun d => (h d x).trans (ih _)

end Dev.Sends

section
variable (d : Dev)

theorem Dev.sends_emit (e : Emit) : d.Sends (d.emit e) := ⟨_, _, _, rfl⟩

theorem Dev.sends_emitMsg (e : Emit) : d.Sends (d.emitMsg e) := by
  cases e with
  | req r =>
    rw [Dev.emitMsg]
    split
    · exact d.sends_emit _
    · exact (d.sends_emit _).trans (Dev.sends_emit _ _)
  | _ => exact d.sends_emit _

theorem Dev.sends_sendOut (o : OutReq) : d.Sends (d.sendOut o) := Dev.Sends.trans ⟨_, _, _, rfl⟩ (Dev.sends_emitMsg _ _)

theorem Dev.sends_pumpSrc : d.Sends d.pumpSrc := by
  have hfold : ∀ (l : List OutReq) (a : Dev × List OutReq), d.Sends a.1 → d.Sends (l.foldl
      (fun (a : Dev × List OutReq) o => if a.1.mayIssue a.2 o then (a.1.sendOut o, a.2) else (a.1, a.2 ++ [o])) a).1 := by
    intro l
    induction l with
    | nil => exact fun _ ha => ha
    | cons o l ih =>
      intro a ha
      refine ih _ ?_
      dsimp only
      split
      · exact ha.trans (Dev.sends_sendOut _ _)
      · exact ha
  exact (hfold _ _ (.refl d)).trans ⟨_, _, _, rfl⟩

theorem Dev.sends_issue (o : OutReq) : d.Sends (d.issue o) := by
  rw [Dev.issue]
  split
  · exact Dev.Sends.trans ⟨_, _, _, rfl⟩ (Dev.sends_pumpSrc _)
  · exact ⟨_, _, _, rfl⟩

theorem Dev.sends_issueAcc (a : Acc) : d.Sends (d.issueAcc a) := by
  rw [Dev.issueAcc]
  split <;> exact d.sends_issue _

theorem Dev.sends_newId : d.Sends d.newId.2 := ⟨_, _, _, rfl⟩

/-! ### Transfers -/

/-- A transfer enters those in hand, and its accesses are issued. -/
theorem Dev.xferGo_xfers (o : FOp) (eng : Nat) (key : XKey) (kind : AKind) (mfmt cfmt : Nat) (parts : List XPart) :
    ∃ x : Xfer, (d.xferGo o eng key kind mfmt cfmt parts).fry = { d.fry with xfers := d.fry.xfers ++ [x] } ∧ x.op = o.id ∧ x.eng = eng ∧ x.key = key ∧
      x.parts.map (fun p => (p.gpa, p.len)) = parts.map (fun p => (p.gpa, p.len)) := by
  rw [Dev.xferGo]
  cases o.landing with
  | none => exact ⟨_, rfl, rfl, rfl, rfl, by simp⟩
  | some l =>
    refine ⟨⟨d.newId.1, o.id, eng, key, kind, parts⟩, ?_, rfl, rfl, rfl, rfl⟩
    obtain ⟨_, _, _, h⟩ := Dev.Sends.foldl (fun d (p : XPart × Nat) => d.sends_newId.trans (Dev.sends_issueAcc _ _)) parts.zipIdx
      { d.newId.2 with fry := { d.newId.2.fry with xfers := d.newId.2.fry.xfers ++ [⟨d.newId.1, o.id, eng, key, kind, parts⟩] } }
    refine (congrArg Dev.fry h).trans ?_
    rfl

end

/-! ### TILE_ISSUE -/

section
variable {e : Fin 32} {o : FOp} {op : Nat} {s : State}

theorem FOp.footprint_gpa {o : FOp} {k : Nat} (h : (o.side k).lva = false) (t : Nat) : o.footprint k t = [] := by
  have hunit : o.unitPages k = fun _ => [] := funext fun u => if_neg (by simp [h])
  rw [FOp.footprint, hunit, List.flatMap_eq_nil_iff.2 (fun _ _ => rfl)]
  simp

theorem rowPages_nil : rowPages [] = [] := by simp [rowPages]

/-- An engine that waits or has no tile left. -/
theorem tileIssue_waits (hrun : s.dev.running = true) (hdom : s.dev.domOn 11 = true) (hop : (s.dev.ferryEng e).op = some op)
    (ho : s.dev.fop op = some o) (hq : quiet s.dev)
    (h : (s.dev.ferryEng e).fencing = true ∨ (s.dev.ferryEng e).xlating = true ∨ (s.dev.ferryEng e).halted = true ∨ o.retired = true ∨
      o.tileNum ≤ (s.dev.ferryEng e).next) : exec (.tileIssue e) s = .next s := by
  refine (onPkg_leaves (x := (s.store, s.dev)) hrun hdom ?_).trans rfl
  rw [Pkg.tileIssue]
  simp only [hop, Option.bind_some, ho]
  rw [if_pos h]
  exact settle_quiet hq

theorem Dev.ferryEng_setFerryEng {d : Dev} {k : Nat} (hk : k < d.fry.engs.length) (f : FerryEng → FerryEng) :
    (d.setFerryEng k f).ferryEng k = f (d.ferryEng k) := by
  rw [Dev.ferryEng, Dev.setFerryEng, nth_modAt, if_pos ⟨rfl, hk⟩]
  rfl

/-- An engine once tile `t`, with no page that failed, has been issued. -/
def FerryEng.issued (t : Nat) (g : FerryEng) : FerryEng :=
  { g with next := t + 1, xlating := false, live := g.live ++ [{ t := t, srcMask := 0, dstMask := 0, bad := false }] }

/-- The next tile of a run between GPAs, its engine noted as translating. -/
theorem tileGo_reads {d : Dev} {k : Nat} (hop : (d.ferryEng k).op = some op) (ho : d.fop op = some o)
    (hx : (d.ferryEng k).xlating = true) (hh : (d.ferryEng k).halted = false) (hret : o.retired = false) (hsrc : (o.side 0).lva = false)
    (hdst : (o.side 1).lva = false) (hpages : o.pages = []) (hstreams : ∀ q ∈ d.xlt.streams, q.owner ≠ 1 + 2 * k ∧ q.owner ≠ 2 + 2 * k)
    (hreads : o.tileReads (d.ferryEng k).next ≠ []) :
    d.tileGo k = (d.setFerryEng k (FerryEng.issued (d.ferryEng k).next)).xferGo o (8 + k) (.tileRead (d.ferryEng k).next)
      (if o.migrates then .migRead else .read) 0 0 (o.tileReads (d.ferryEng k).next) := by
  have hfilter : ∀ f, (d.setFerryEng k f).xlt.streams.filter (fun s => s.owner == 1 + 2 * k || s.owner == 2 + 2 * k) = [] := fun f =>
    List.filter_eq_nil_iff.2 fun q hq => by simpa using hstreams q hq
  have hxl : o.xlated = true := by simp [FOp.xlated, hpages]
  have hempty : (o.tileReads (d.ferryEng k).next).isEmpty = false := by simpa using hreads
  rw [Dev.tileGo]
  simp only [hop, Option.bind_some, ho, hx, hxl, hh, hret, FOp.footprint_gpa hsrc, FOp.footprint_gpa hdst, hpages, hfilter, hempty, List.filter_nil,
    List.isEmpty_nil, List.any_nil, List.map_nil, List.foldl_nil]
  simp
  rfl

/-- With both sides given by GPA no page is asked for. -/
theorem tileIssue_gpa {x : Pkg} {k : Nat} (hop : (x.2.ferryEng k).op = some op) (ho : x.2.fop op = some o)
    (hgo : ¬((x.2.ferryEng k).fencing = true ∨ (x.2.ferryEng k).xlating = true ∨ (x.2.ferryEng k).halted = true ∨ o.retired = true ∨
      o.tileNum ≤ (x.2.ferryEng k).next)) (hsrc : (o.side 0).lva = false) (hdst : (o.side 1).lva = false) :
    x.tileIssue k = (x.1, (x.2.setFerryEng k (fun g => { g with xlating := true })).tileGo k) := by
  rw [Pkg.tileIssue]
  simp only [hop, Option.bind_some, ho, if_neg hgo, List.any_cons, List.any_nil, FOp.footprint_gpa hsrc, FOp.footprint_gpa hdst]
  simp [hsrc, hdst, rowPages_nil, Pkg.dev]

theorem tileIssue_reads (hrun : s.dev.running = true) (hdom : s.dev.domOn 11 = true) (hshape : shaped s.dev)
    (hop : (s.dev.ferryEng e).op = some op) (ho : s.dev.fop op = some o) (hf : (s.dev.ferryEng e).fencing = false)
    (hx : (s.dev.ferryEng e).xlating = false) (hh : (s.dev.ferryEng e).halted = false) (hret : o.retired = false)
    (hnext : (s.dev.ferryEng e).next < o.tileNum) (hsrc : (o.side 0).lva = false) (hdst : (o.side 1).lva = false) (hpages : o.pages = [])
    (hstreams : ∀ q ∈ s.dev.xlt.streams, q.owner ≠ 1 + 2 * e.val ∧ q.owner ≠ 2 + 2 * e.val) (hreads : o.tileReads (s.dev.ferryEng e).next ≠ []) :
    let g := s.dev.ferryEng e
    ∃ d, (d.ferryEng e).next = g.next + 1 ∧ (d.ferryEng e).live = g.live ++ [{ t := g.next, srcMask := 0, dstMask := 0, bad := false }] ∧
      (∃ x ∈ d.fry.xfers, x.op = op ∧ x.eng = 8 + e.val ∧ x.key = .tileRead g.next ∧
        x.parts.map (fun p => (p.gpa, p.len)) = (o.tileReads g.next).map (fun p => (p.gpa, p.len))) ∧
      exec (.tileIssue e) s = .next (withPkg s (Pkg.settle (s.store, d))) := by
  obtain ⟨-, -, -, -, hengs, -⟩ := hshape
  have hk : e.val < s.dev.fry.engs.length := by omega
  have heng := Dev.ferryEng_setFerryEng hk (fun g => { g with xlating := true })
  have hissue := tileIssue_gpa (x := (s.store, s.dev)) hop ho (by rw [hf, hx, hh, hret]; simpa using hnext) hsrc hdst
  have hgo := tileGo_reads (d := s.dev.setFerryEng e (fun g => { g with xlating := true })) (by rw [heng]; exact hop) ho (by rw [heng])
    (by rw [heng]; exact hh) hret hsrc hdst hpages hstreams (by rw [heng]; exact hreads)
  rw [heng] at hgo
  rw [hgo] at hissue
  obtain ⟨x, hfry, hxop, hxeng, hxkey, hxparts⟩ := ((s.dev.setFerryEng e (fun g => { g with xlating := true })).setFerryEng e
    (FerryEng.issued (s.dev.ferryEng e).next)).xferGo_xfers o (8 + e.val) (.tileRead (s.dev.ferryEng e).next) (if o.migrates then .migRead else .read)
    0 0 (o.tileReads (s.dev.ferryEng e).next)
  have hid : o.id = op := by simpa using List.find?_some ho
  have heng' := Dev.ferryEng_setFerryEng (d := s.dev.setFerryEng e (fun g => { g with xlating := true })) (by simpa [Dev.setFerryEng, length_modAt] using hk)
    (FerryEng.issued (s.dev.ferryEng e).next)
  rw [heng] at heng'
  generalize hd : Dev.xferGo .. = d at hissue hfry
  have hdeng : d.ferryEng e = FerryEng.issued (s.dev.ferryEng e).next { s.dev.ferryEng e with xlating := true } := by
    rw [← heng', Dev.ferryEng, hfry]
    rfl
  refine ⟨d, by rw [hdeng]; rfl, by rw [hdeng]; rfl, ⟨x, by rw [hfry]; simp, hxop.trans hid, hxeng, hxkey, hxparts⟩, ?_⟩
  exact onPkg_leaves hrun hdom (by rw [hissue])

end

/-! ### Operations by number -/

theorem List.find?_mapFirst_ne {α : Type} {p q : α → Bool} {f : α → α} (hf : ∀ x, p x = true → q x = false ∧ q (f x) = false) (l : List α) :
    (mapFirst p f l).find? q = l.find? q := by
  induction l with
  | nil => rfl
  | cons x xs ih =>
    by_cases hx : p x = true
    · simp [mapFirst, hx, hf x hx]
    · simp [mapFirst, hx, List.find?_cons, ih]

section
variable {d : Dev} {id : Nat} {f : FOp → FOp}

theorem Dev.fop_setFop (hf : ∀ o, (f o).id = o.id) (op : Nat) :
    (d.setFop id f).fop op = if op = id then (d.fop op).map f else d.fop op := by
  rw [Dev.fop, Dev.setFop]
  split
  · next h => rw [h, List.find?_mapFirst (fun o ho => by simpa [hf] using ho)]; rfl
  · next h =>
    refine List.find?_mapFirst_ne (fun o ho => ?_) _
    have ho' : o.id ≠ op := fun e => h (e.symm.trans (eq_of_beq ho))
    simp [hf, ho']

theorem Dev.jobReady_eq (op : Nat) (d : Dev) :
    d.jobReady op = ((d.fop op).any FOp.xlated && ((d.job op).any (fun j => !j.xlated) && !(d.jobLoaded op).isEmpty)) := by
  rw [Dev.jobReady]
  cases d.fop op <;> cases d.job op <;> simp [Bool.and_comm]

/-- What leaves an operation's number and translations as they are leaves a package at rest. -/
theorem quiet_setFop (hf : ∀ o, (f o).id = o.id) (hpages : ∀ o, (f o).pages = o.pages) (hq : quiet d) : quiet (d.setFop id f) := by
  obtain ⟨hxfers, hports, hgates, hhost, hnoNode, hjobs, hdisp⟩ := hq
  refine ⟨hxfers, hports, hgates, hhost, hnoNode, fun j hj => ?_, hdisp⟩
  have hxl : ((d.setFop id f).fop j.op).any FOp.xlated = (d.fop j.op).any FOp.xlated := by
    rw [Dev.fop_setFop hf]
    split
    · cases d.fop j.op <;> simp [FOp.xlated, hpages]
    · rfl
  rw [← hjobs j hj, Dev.jobReady_eq, Dev.jobReady_eq, hxl]
  rfl

end

/-! ### FERRY_FENCE_DONE -/

section
variable {e : Fin 32} {f : Fence} {s : State}

/-- The run of engine `k` takes note of an error that its fence has seen. -/
def Dev.fenceNoted (k : Nat) (seen : Bool) (d : Dev) : Dev :=
  match (d.ferryEng k).op with
  | some id => if seen then d.setFop id (fun o => { o with fenceErr := true }) else d
  | none => d

theorem Dev.fenceNoted_frame (d : Dev) (k : Nat) (seen : Bool) : (d.fenceNoted k seen).src = d.src ∧
    (d.fenceNoted k seen).fry.engs = d.fry.engs ∧ (quiet d → quiet (d.fenceNoted k seen)) ∧
    ∀ op o, (d.ferryEng k).op = some op → d.fop op = some o → (d.fenceNoted k seen).fop op = some { o with fenceErr := o.fenceErr || seen } := by
  rw [Dev.fenceNoted]
  cases hop : (d.ferryEng k).op with
  | none => exact ⟨rfl, rfl, fun h => h, fun _ _ h => by cases h⟩
  | some id =>
    cases seen with
    | false => refine ⟨rfl, rfl, fun h => h, fun op o _ ho => ?_⟩; simpa using ho
    | true =>
      refine ⟨rfl, rfl, fun h => quiet_setFop (fun _ => rfl) (fun _ => rfl) h, fun op o h ho => ?_⟩
      obtain rfl : id = op := Option.some.inj h
      simp only [if_true]
      refine Eq.trans (Dev.fop_setFop ?_ _) ?_
      · exact fun _ => rfl
      · rw [if_pos rfl, ho, Bool.or_true]
        rfl

/-- FERRY_FENCE_DONE while the fence is not over, or is another's. -/
theorem ferryFenceDone_waits (hrun : s.dev.running = true) (hdom : s.dev.domOn 11 = true) (hq : quiet s.dev) (hheld : s.dev.src.held = [])
    (hfence : s.dev.src.fences = [f]) (h : f.next ≠ .ferry e ∨ s.dev.fenceClear f = false) : exec (.ferryFenceDone e) s = .next s := by
  have hnone : s.dev.ferryFenced e = s.dev := by
    rw [Dev.ferryFenced, hfence]
    rcases h with h | h <;> simp [h]
  refine (onPkg_leaves (x := (s.store, s.dev)) hrun hdom ?_).trans rfl
  rw [Pkg.fenceEnds, Pkg.dev, hnone, Dev.pumpSrc_none hheld]
  exact settle_quiet hq

/-- FERRY_FENCE_DONE of the engine's own fence. -/
theorem ferryFenceDone_ends (hrun : s.dev.running = true) (hdom : s.dev.domOn 11 = true) (hq : quiet s.dev) (hshape : shaped s.dev)
    (hheld : s.dev.src.held = []) (hfence : s.dev.src.fences = [f]) (hnext : f.next = .ferry e) (hclear : s.dev.fenceClear f = true) :
    ∃ t, exec (.ferryFenceDone e) s = .next t ∧ t.store = s.store ∧ t.dev.src.fences = [] ∧ (t.dev.ferryEng e).fencing = false ∧
      ∀ op o, (s.dev.ferryEng e).op = some op → s.dev.fop op = some o → t.dev.fop op = some { o with fenceErr := o.fenceErr || f.errSeen } := by
  obtain ⟨-, -, -, -, hengs, -⟩ := hshape
  have hends : s.dev.ferryFenced e = (Dev.fenceNoted e f.errSeen { s.dev with src := { s.dev.src with fences := [] } }).setFerryEng e
      (fun g => { g with fencing := false }) := by
    rw [Dev.ferryFenced, hfence]
    simp only [List.find?_cons, hnext, hclear, beq_self_eq_true, Bool.and_self]
    simp [Dev.fenceNoted] <;> rfl
  have hq' : quiet { s.dev with src := { s.dev.src with fences := [] } } := hq
  obtain ⟨hsrc, hengs', hquiet, hfop⟩ := Dev.fenceNoted_frame { s.dev with src := { s.dev.src with fences := [] } } e f.errSeen
  generalize Dev.fenceNoted e f.errSeen _ = c at hends hsrc hengs' hquiet hfop
  refine ⟨_, onPkg_leaves (x := (s.store, c.setFerryEng e (fun g => { g with fencing := false }))) hrun hdom ?_, rfl, ?_, ?_, hfop⟩
  · rw [Pkg.fenceEnds, Pkg.dev, hends, Dev.pumpSrc_none (by simpa [Dev.setFerryEng, hsrc] using hheld)]
    exact settle_quiet (quiet_rest rfl (hquiet hq'))
  · simp [withPkg, Dev.setFerryEng, hsrc]
  · exact congrArg FerryEng.fencing (Dev.ferryEng_setFerryEng (d := c) (by rw [hengs', hengs]; exact e.isLt) _)

end

/-! ### FERRY_COMPLETE -/

/-- `e` has the engines of `d`, and its operations but for their watches. -/
structure Dev.Watched (d e : Dev) : Prop where
  engs : e.fry.engs = d.fry.engs
  fop : ∀ op o, d.fop op = some o → ∃ w, e.fop op = some { o with waits := w }

namespace Dev.Watched

theorem of_fry {d e : Dev} (h : e.fry = d.fry) : d.Watched e := ⟨by rw [h], fun op o ho => ⟨o.waits, by rw [Dev.fop, h]; exact ho⟩⟩

theorem refl (d : Dev) : d.Watched d := of_fry rfl

theorem trans {d e f : Dev} (h : d.Watched e) (k : e.Watched f) : d.Watched f := by
  refine ⟨k.engs.trans h.engs, fun op o ho => ?_⟩
  obtain ⟨w, hw⟩ := h.fop op o ho
  exact k.fop op { o with waits := w } hw

end Dev.Watched

theorem Dev.watched_watchNote (d : Dev) (p : Nat) : d.Watched (d.watchNote p) := by
  refine ⟨rfl, fun op o ho => ?_⟩
  rw [Dev.watchNote, Dev.fop, List.find?_map]
  rw [Dev.fop] at ho
  have hid : (fun q : FOp => q.id == op) ∘ (fun o : FOp => if o.state = .waiting then
      { o with waits := o.waits.zipIdx.map (fun (e : WaitSt × Nat) =>
          if e.1.armed && o.waitGpa e.2 / 64 % 2 ^ 39 == p then { e.1 with hit := true } else e.1) }
    else o) = fun q => q.id == op := by
    funext q
    simp only [Function.comp]
    split <;> rfl
  dsimp only
  rw [hid, ho]
  simp only [Option.map_some]
  split
  · exact ⟨_, rfl⟩
  · exact ⟨o.waits, rfl⟩

theorem Dev.checkBurst_fry (wr : Bool) (l : Nat) (d : Dev) : (d.checkBurst wr l).fry = d.fry := by
  unfold Dev.checkBurst
  split
  · rfl
  · dsimp only
    split
    · rfl
    · split <;> simp [Dev.draw]

theorem Dev.fixWritten_fry (l : Nat) (d : Dev) : (d.fixWritten l).fry = d.fry := rfl

theorem Pkg.watched_writeLine (x : Pkg) (l : Nat) (v : List Byte) (c : Cover) : x.2.Watched (x.writeLine l v c).2 := by
  have hfry : ((x.2.checkBurst true l).fixWritten l).fry = x.2.fry := (Dev.fixWritten_fry _ _).trans (Dev.checkBurst_fry true l x.2)
  rw [Pkg.writeLine, Pkg.dev, Pkg.setLine]
  exact (Dev.Watched.of_fry hfry).trans (Dev.watched_watchNote _ _)

theorem Pkg.watched_foldl {α : Type} {f : Pkg → α → Pkg} (h : ∀ (x : Pkg) a, x.2.Watched (f x a).2) (l : List α) :
    ∀ x : Pkg, x.2.Watched (l.foldl f x).2 := by
  induction l with
  | nil => exact fun x => .refl _
  | cons a l ih => exact fun x => (h x a).trans (ih _)

theorem Pkg.watched_freePart (o : FOp) (kind : AKind) (p : XPart) (x : Pkg) : x.2.Watched (x.freePart o kind p).2 := by
  rw [Pkg.freePart]
  split
  · exact .refl _
  · dsimp only
    split
    · exact .refl _
    · split
      · exact .refl _
      · have hfree : x.2.Watched (x.2.freeBytes p.len).2 := .of_fry rfl
        refine hfree.trans (Pkg.watched_foldl (fun x w => ?_) _ (x.1, (x.2.freeBytes p.len).2))
        split
        · exact x.watched_writeLine _ _ _
        · exact .refl _

theorem Pkg.watched_ferrySpoil (o : FOp) (x : Pkg) : x.2.Watched (x.ferrySpoil o).2 :=
  Pkg.watched_foldl (fun x _ => x.watched_freePart _ _ _) _ _

section
variable {e : Fin 32} {o : FOp} {op : Nat} {s : State}

/-- The tile at which a run stopped, and its masks (R366, R368). -/
def FerryEng.stop (g : FerryEng) : Nat :=
  match (g.failed.map (·.t)).min? with
  | some t => t
  | none => g.next

theorem FerryEng.stop_none {g : FerryEng} (h : g.failed = []) : g.stop = g.next := by simp [FerryEng.stop, h]

theorem FerryEng.stop_one {g : FerryEng} {f : FTile} (h : g.failed = [f]) : g.stop = f.t := by simp [FerryEng.stop, h]

theorem Dev.count_fry (d : Dev) (p i k : Nat) : (d.count p i k).fry = d.fry := by simp

theorem Dev.fop_congr {d e : Dev} (h : e.fry = d.fry) (op : Nat) : e.fop op = d.fop op := by rw [Dev.fop, h]; rfl

/-- An operation without a signal completes as it ends. -/
theorem Dev.opEnded_completes {d : Dev} {st : Nat} (ho : d.fop op = some o) (hret : o.retired = false) (hsig : o.fld 0 14 1 = 0) :
    (d.opEnded op st).fry.engs = d.fry.engs ∧
    (d.opEnded op st).fop op = some { o with state := .complete, status := st, seq := d.fry.seq, pages := [], waits := [{}, {}] } := by
  rw [Dev.opEnded, ho]
  dsimp only
  rw [if_neg (by simp [hret]), if_neg (by simp [hsig])]
  refine ⟨rfl, Eq.trans (Dev.fop_setFop (d := d.nextSeq.2) ?_ _) ?_⟩
  · exact fun _ => rfl
  · rw [if_pos rfl, show d.nextSeq.2.fop op = d.fop op from rfl, ho]
    rfl

/-- What a run that is over reports (R366–R368). -/
def FerryEng.report (g : FerryEng) (o : FOp) : FOp :=
  let tile := (g.failed.find? (fun t => t.t == g.stop)).getD { t := 0, srcMask := 0, dstMask := 0, bad := false }
  { o with result := g.done.length, stop := g.stop, srcMask := tile.srcMask, dstMask := tile.dstMask }

theorem ferryComplete_reports {d : Dev} {k : Nat} (hk : k < d.fry.engs.length) (hop : (d.ferryEng k).op = some op) (ho : d.fop op = some o)
    (hret : o.retired = false) (hsig : o.fld 0 14 1 = 0) : let g := d.ferryEng k
    ((d.ferryComplete k).ferryEng k).op = none ∧ ∃ n, (d.ferryComplete k).fop op =
      some { g.report o with state := .complete, status := g.status, seq := n, pages := [], waits := [{}, {}] } := by
  intro g
  have hid : o.id = op := by simpa using List.find?_some ho
  have hrun : d.ferryComplete k = ((((d.endStreams (fun s => s.owner == 1 + 2 * k || s.owner == 2 + 2 * k)).setFerryEng k (fun _ => {})).setFop op
      g.report).count (0x30 + k / 8) 6 1).opEnded op g.status := by
    rw [Dev.ferryComplete]
    simp only [hop, Option.bind_some, ho, hid]
    rfl
  have hfop : ((((d.endStreams (fun s => s.owner == 1 + 2 * k || s.owner == 2 + 2 * k)).setFerryEng k (fun _ => {})).setFop op
      g.report).count (0x30 + k / 8) 6 1).fop op = some (g.report o) := by
    rw [Dev.fop_congr (Dev.count_fry _ _ _ _), Dev.fop_setFop (f := g.report) (fun _ => rfl), if_pos rfl]
    exact congrArg (Option.map g.report) ho
  obtain ⟨hengs, hq⟩ := Dev.opEnded_completes hfop hret hsig (st := g.status)
  rw [hrun]
  refine ⟨?_, _, hq⟩
  rw [Dev.ferryEng, hengs, Dev.count_fry]
  exact congrArg FerryEng.op (Dev.ferryEng_setFerryEng (d := d.endStreams _) hk (fun _ => {}))

theorem Dev.ferryOver_iff {d : Dev} {k : Nat} (hop : (d.ferryEng k).op = some op) (ho : d.fop op = some o) (hret : o.retired = false) :
    let g := d.ferryEng k
    d.ferryOver k = !(g.fencing || !g.live.isEmpty || d.opBusy op || (g.xlating || (!g.halted && decide (g.next < o.tileNum)))) := by
  have hid : o.id = op := by simpa using List.find?_some ho
  rw [Dev.ferryOver]
  simp only [hop, Option.bind_some, ho, hret, hid, Bool.not_false, Bool.true_and]

theorem ferryComplete_cases (e : Fin 32) (o : FOp) (op : Nat) (s : State) (hrun : s.dev.running = true) (hdom : s.dev.domOn 11 = true)
    (hshape : shaped s.dev) (hop : (s.dev.ferryEng e).op = some op) (ho : s.dev.fop op = some o) (hret : o.retired = false) :
    let g := s.dev.ferryEng e
    (g.fencing = true ∨ g.live ≠ [] ∨ s.dev.opBusy op = true ∨ g.xlating = true ∨ (g.halted = false ∧ g.next < o.tileNum) →
      exec (.ferryComplete e) s = .next s) ∧
    (g.fencing = false → g.live = [] → s.dev.opBusy op = false → g.xlating = false → g.halted = true ∨ o.tileNum ≤ g.next →
      o.fld 0 14 1 = 0 → ∃ t q, exec (.ferryComplete e) s = .next t ∧ (o.meets = [] → t.store = s.store) ∧ (t.dev.ferryEng e).op = none ∧
        t.dev.fop op = some q ∧ q.state = .complete ∧ q.result = g.done.length ∧
        (g.failed = [] → g.low = 16 → q.status = sOk ∧ q.stop = g.next) ∧
        (g.failed ≠ [] → g.low = 16 → q.status = if g.moved then sPartial else sFault) ∧ (g.low ≠ 16 → q.status = g.low) ∧
        (∀ f, g.failed = [f] → q.stop = f.t ∧ q.srcMask = f.srcMask ∧ q.dstMask = f.dstMask)) := by
  intro g
  have hover := Dev.ferryOver_iff hop ho hret
  refine ⟨fun h => ?_, fun hf hlive hbusy hx hend hsig => ?_⟩
  · have hno : s.dev.ferryOver e = false := by
      rw [hover, Bool.not_eq_false']
      rcases h with h | h | h | h | ⟨h, h'⟩
      · simp [g] at h
        simp [h]
      · have hlive : (s.dev.ferryEng e).live.isEmpty = false := by simpa using h
        simp [hlive]
      · simp [h]
      · simp [g] at h
        simp [h]
      · simp [g] at h h'
        simp [h, h']
    refine (onPkg_leaves (x := (s.store, s.dev)) hrun hdom ?_).trans rfl
    rw [Pkg.ferryComplete, if_neg (by simp [hno])]
  · have hyes : s.dev.ferryOver e = true := by
      rw [hover]
      rcases hend with hend | hend <;> simp [g] at hf hlive hx hend <;> simp [hf, hlive, hbusy, hx, hend]
    obtain ⟨-, -, -, -, hengs, -⟩ := hshape
    obtain ⟨hsame, hfop⟩ := Pkg.watched_ferrySpoil o (s.store, s.dev)
    obtain ⟨w, hw⟩ := hfop op o ho
    have hg : (Pkg.ferrySpoil o (s.store, s.dev)).2.ferryEng e = g := by
      rw [Dev.ferryEng, hsame]
      rfl
    obtain ⟨hnone, n, hq⟩ := ferryComplete_reports (d := (Pkg.ferrySpoil o (s.store, s.dev)).2) (o := { o with waits := w }) (k := e)
      (by rw [hsame]; exact lt_of_lt_of_eq e.isLt hengs.symm) (by rw [hg]; exact hop) hw hret hsig
    rw [hg] at hq
    refine ⟨_, _, onPkg_leaves (x := (Pkg.ferrySpoil o (s.store, s.dev)).dev (Dev.ferryComplete e)) hrun hdom ?_, ?_, hnone, hq, rfl, rfl, ?_, ?_, ?_, ?_⟩
    · rw [Pkg.ferryComplete, if_pos hyes]
      simp only [hop, Option.bind_some, ho]
    · intro hmeets
      show (Pkg.ferrySpoil o (s.store, s.dev)).1 = s.store
      rw [Pkg.ferrySpoil, hmeets]
      rfl
    · intro hnone hlow
      exact ⟨by simp [FerryEng.status, hlow, hnone], FerryEng.stop_none hnone⟩
    · intro hfail hlow
      simp [FerryEng.status, hlow, hfail]
    · intro hlow
      exact if_pos hlow
    · intro f hfail
      have hstop : g.stop = f.t := FerryEng.stop_one hfail
      have htile : g.failed.find? (fun t => t.t == g.stop) = some f := by rw [hstop, hfail]; simp
      exact ⟨hstop, by simp [FerryEng.report, htile], by simp [FerryEng.report, htile]⟩

end

/-- Settles O43: a tile between GPAs as its transfer, the engine's own fence, a run that is over by what its engine has noted. -/
theorem ferries : Obligations.Ferries := by
  refine ⟨fun e o op s hrun hdom hshape hop ho => ⟨fun h hq => tileIssue_waits hrun hdom hop ho hq h,
      fun hf hx hh hret hnext hsrc hdst hpages hstreams hreads =>
        tileIssue_reads hrun hdom hshape hop ho hf hx hh hret hnext hsrc hdst hpages hstreams hreads⟩,
    fun e f s hrun hdom hq hshape hheld hfence => ⟨ferryFenceDone_waits hrun hdom hq hheld hfence,
      ferryFenceDone_ends hrun hdom hq hshape hheld hfence⟩,
    fun e o op s hrun hdom hshape hop ho hret => ferryComplete_cases e o op s hrun hdom hshape hop ho hret⟩

end Sys2Proof.Machine


/-!
SUPPORT. O36, the order table: held writes, broken pairs, repeats, quarantine.
-/
namespace Sys2Proof.Machine

/-! ### Answers -/

section
variable {d e : Dev}

/-- An answer depends on the node, the route-table epoch and the domain alone. -/
theorem Dev.respond_last_congr (hglb : e.glb = d.glb) (hepoch : e.epochNow = d.epochNow) {h : Hdr} (hn : d.hasNode h.srcNode = true)
    (st : Nat) (v : List Byte) : (e.respond h st v).out.getLast? = (d.respond h st v).out.getLast? := by
  have hne : e.hasNode h.srcNode = true := (Dev.hasNode_congr hglb _).trans hn
  simp only [Dev.respond, Dev.emitTo, hn, hne, if_true, Dev.emit_out, Dev.node_congr hglb, hepoch, List.getLast?_concat]

theorem Dev.partnerOn_alone (h : d.rd F.PROT_CFG_PARTNER_EN = 0) : d.partnerOn = false := by
  simp [Dev.partnerOn, h]

theorem Dev.notePair_alone (h : d.rd F.PROT_CFG_PARTNER_EN = 0) (n src eng ev : Nat) : d.notePair n src eng ev = d := by
  simp [Dev.notePair, Dev.partnerOn_alone h]

theorem Dev.ord_congr (h : e.home = d.home) (k : Nat) : e.ord k = d.ord k := by
  simp only [Dev.ord, h]

/-- What is left of a pair that breaks with no write held (R139, R495). -/
theorem Dev.breakPair_alone (hstore : d.home.store = []) (halone : d.rd F.PROT_CFG_PARTNER_EN = 0) (n src eng : Nat) :
    ((d.setOrd (d.ordKey n src eng) { d.ord (d.ordKey n src eng) with st := .broken, holeAt := none }).Kept (d.breakPair n src eng)) ∧
      (d.breakPair n src eng).home = (d.setOrd (d.ordKey n src eng) { d.ord (d.ordKey n src eng) with st := .broken, holeAt := none }).home := by
  unfold Dev.breakPair
  dsimp only
  generalize hx : d.setOrd (d.ordKey n src eng) { d.ord (d.ordKey n src eng) with st := .broken, holeAt := none } = x
  have hk := x.kept_capture 0x28 .degraded sOrderBroken 7 0x3F (src % 128 + eng % 64 * 256 + (d.ord (d.ordKey n src eng)).expect % 65536 * 65536)
  have hs : x.home.store = [] := by rw [← hx]; exact hstore
  have hp : x.rd F.PROT_CFG_PARTNER_EN = 0 := by rw [← hx]; exact halone
  rw [Dev.refuseHeld_none (by simpa using hs), Dev.notePair_alone ((hk.rd _ (by decide) (by decide)).trans hp)]
  exact ⟨hk, by simp⟩

end

/-! ### Writes as they arrive -/

section
variable {r : Req} {s : State}

/-- A pool write for the package's own node reaches its order table (R137). -/
theorem poolWrite_own (hup : homeUp s) {kind : AKind} {n : Nat} (hn : (if kind = .pteWrite then bits r.opd.addr 13 7 else gpaNode r.opd.addr) = n)
    (hnode : n = s.dev.node) (src : Nat) (media : List Media) :
    Pkg.poolWrite kind r src media (s.store, s.dev) = Pkg.orderWrite s.dev.node (.pool r kind media src) (s.store, s.dev) := by
  obtain ⟨⟨-, -, hopen, -⟩, hrole⟩ := hup
  subst hnode
  simp only [Pkg.poolWrite, hn, Pkg.arriveWrite, HArr.chan1, Bool.false_eq_true, if_false, hopen, if_true, Pkg.writeIn, Dev.homes_node hrole]

theorem exec_homeWrite (hup : homeUp s) (hn : gpaNode r.opd.addr = s.dev.node) :
    exec (.homeWrite r []) s = .next (withPkg s (Pkg.orderWrite s.dev.node (.pool r .write [] 0) (s.store, s.dev))) := by
  obtain ⟨⟨hrun, hdom, -⟩, -⟩ := id hup
  rw [← poolWrite_own hup (by rw [if_neg (by decide)]) hn]
  exact onPkg_running hrun hdom _

end

/-! ### How a write of a pair in order is classed (R137) -/

section
variable {d : Dev} {n src eng man : Nat}

theorem orderAct_take (hst : (d.ord (d.ordKey n src eng)).st = .normal) (h : manDiff man (d.ord (d.ordKey n src eng)).expect = 0) :
    d.orderAct n src eng man = .take := by
  simp [Dev.orderAct, hst, h]

theorem orderAct_hold (hst : (d.ord (d.ordKey n src eng)).st = .normal) (hstore : d.home.store = [])
    (hlow : 1 ≤ manDiff man (d.ord (d.ordKey n src eng)).expect) (hhigh : manDiff man (d.ord (d.ordKey n src eng)).expect < 256) :
    d.orderAct n src eng man = .hold := by
  simp [Dev.orderAct, hst, hstore, Nat.one_le_iff_ne_zero.1 hlow, hhigh]

theorem orderAct_outside (hst : (d.ord (d.ordKey n src eng)).st = .normal)
    (hlow : 256 ≤ manDiff man (d.ord (d.ordKey n src eng)).expect) (hhigh : manDiff man (d.ord (d.ordKey n src eng)).expect < 65280) :
    d.orderAct n src eng man = .outside := by
  unfold Dev.orderAct
  dsimp only
  rw [if_neg (by simp [hst]), if_neg (by omega), if_neg (by omega), if_neg (by omega)]

theorem orderAct_recorded {p : Nat × Nat} (hst : (d.ord (d.ordKey n src eng)).st = .normal)
    (hlow : 65280 ≤ manDiff man (d.ord (d.ordKey n src eng)).expect) (hopen : (d.ord (d.ordKey n src eng)).open_.contains man = false)
    (hhist : (d.ord (d.ordKey n src eng)).hist.find? (fun p => p.1 == man) = some p) : d.orderAct n src eng man = .dupAnswer p.2 := by
  unfold Dev.orderAct
  dsimp only
  rw [if_neg (by simp [hst]), if_neg (by omega), if_neg (by omega), if_pos hlow, if_neg (by rw [hopen]; decide), hhist]

end

/-! ### What becomes of it -/

section
variable {r : Req} {s : State}

theorem homeWrite_held (hup : homeUp s) (hn : gpaNode r.opd.addr = s.dev.node) :
    let k := s.dev.ordKey s.dev.node r.hdr.srcNode r.hdr.srcEngine
    let e := s.dev.ord k
    let diff := manDiff r.hdr.manifest e.expect
    e.st = .normal → 1 ≤ diff → diff < 256 → ∃ t, exec (.homeWrite r []) s = .next t ∧ t.store = s.store ∧
      t.dev.home.store = [⟨s.dev.node, r.hdr.srcNode, r.hdr.srcEngine, r.hdr.manifest, .pool r .write [] 0⟩] ∧
      (t.dev.ord k).expect = e.expect ∧ (t.dev.ord k).holeAt.isSome = true := by
  intro k e diff hst hlow hhigh
  obtain ⟨⟨-, -, -, -, -, -, -, hstore, -⟩, -⟩ := id hup
  have hexec := exec_homeWrite hup hn
  simp only [Pkg.orderWrite, Wr.hdr, orderAct_hold hst hstore hlow hhigh] at hexec
  have hord : (s.dev.holdEarly ⟨s.dev.node, r.hdr.srcNode, r.hdr.srcEngine, r.hdr.manifest, .pool r .write [] 0⟩).ord k =
      { e with holeAt := if e.holeAt.isNone then some s.dev.tim.tide else e.holeAt } := (Dev.ord_setOrd ..).trans (if_pos rfl)
  refine ⟨_, hexec, rfl, ?_, (congrArg OrdEnt.expect hord :), (congrArg (fun x : OrdEnt => x.holeAt.isSome) hord).trans ?_⟩
  · show s.dev.home.store ++ _ = _
    rw [hstore]
    rfl
  · cases e.holeAt <;> rfl

theorem homeWrite_outside (hup : homeUp s) (hn : gpaNode r.opd.addr = s.dev.node) :
    let k := s.dev.ordKey s.dev.node r.hdr.srcNode r.hdr.srcEngine
    let e := s.dev.ord k
    let diff := manDiff r.hdr.manifest e.expect
    e.st = .normal → 256 ≤ diff → diff < 65280 → ∃ t, exec (.homeWrite r []) s = .next t ∧ t.store = s.store ∧
      (t.dev.ord k).st = .broken ∧ t.dev.home.store = [] ∧
      (s.dev.hasNode r.hdr.srcNode = true → t.dev.out.getLast? = (s.dev.respond r.hdr sOrderBroken []).out.getLast?) := by
  intro k e diff hst hlow hhigh
  obtain ⟨⟨-, -, -, hqueue, -, -, -, hstore, -, -, halone⟩, -⟩ := id hup
  obtain ⟨hk, hhome⟩ := Dev.breakPair_alone hstore halone s.dev.node r.hdr.srcNode r.hdr.srcEngine
  have hkept := hk.trans (Dev.kept_homeRefused _ sOrderBroken r.opd.addr r.hdr.srcNode)
  have hexec := exec_homeWrite hup hn
  simp only [Pkg.orderWrite, Wr.hdr, orderAct_outside hst hlow hhigh] at hexec
  have hend : ((s.dev.breakPair s.dev.node r.hdr.srcNode r.hdr.srcEngine).refuseWr (.pool r .write [] 0) sOrderBroken).home =
      (s.dev.setOrd k { e with st := .broken, holeAt := none }).home := by
    simp only [Dev.refuseWr, Dev.respond_home, Dev.homeRefused_home, hhome]
    rfl
  rw [pump_nil (by exact (congrArg Home.queue hend).trans hqueue)] at hexec
  refine ⟨_, hexec, rfl, ?_, (congrArg Home.store hend).trans hstore, fun hsrc => ?_⟩
  · exact (congrArg OrdEnt.st ((Dev.ord_congr hend k).trans ((Dev.ord_setOrd ..).trans (if_pos rfl))))
  · refine (hkept.respond_last _ _ _ hsrc).trans (Dev.respond_last_congr ?_ ?_ hsrc _ _) <;> rfl

theorem homeWrite_repeated (hup : homeUp s) (hn : gpaNode r.opd.addr = s.dev.node) (st : Nat) :
    let k := s.dev.ordKey s.dev.node r.hdr.srcNode r.hdr.srcEngine
    let e := s.dev.ord k
    let diff := manDiff r.hdr.manifest e.expect
    e.st = .normal → 65280 ≤ diff → e.open_.contains r.hdr.manifest = false →
      e.hist.find? (fun p => p.1 == r.hdr.manifest) = some (r.hdr.manifest, st) →
      ∃ t, exec (.homeWrite r []) s = .next t ∧ t.store = s.store ∧ t.dev.home = s.dev.home ∧
        (s.dev.hasNode r.hdr.srcNode = true → t.dev.out.getLast? = (s.dev.respond r.hdr st []).out.getLast?) ∧
        (st ≠ sOrderBroken → t = { s with dev := s.dev.respond r.hdr st [] }) := by
  intro k e diff hst hlow hopen hhist
  have hexec := exec_homeWrite hup hn
  simp only [Pkg.orderWrite, Wr.hdr, orderAct_recorded hst hlow hopen hhist, Wr.fetch, Dev.answerDup, Bool.false_eq_true, false_and,
    if_false] at hexec
  refine ⟨_, hexec, rfl, ?_, fun hsrc => ?_, fun hne => ?_⟩
  · refine (Dev.respond_home ..).trans ?_
    split
    · simp [Dev.homeStatus]
    · rfl
  · have hk : s.dev.Kept (if st = sOrderBroken then s.dev.homeStatus st r.opd.addr r.hdr.srcNode else s.dev) := by
      split
      · exact Dev.kept_capture ..
      · exact .refl _
    exact hk.respond_last _ _ _ hsrc
  · simp only [Pkg.dev, if_neg hne]
    rfl

end

/-! ### The timers of a pair -/

section
variable {n src eng : Nat} {s : State}

/-- A command on a pair of a home where nothing waits. -/
theorem onHome_noneAtHome {f : Pkg → Pkg} {e : Dev} (hrun : s.dev.running = true) (hdom : s.dev.domOn 11 = true)
    (hf : f (s.store, s.dev) = (s.store, e)) (hhome : noneAtHome e) : onHome f s = .next { s with dev := e } := by
  refine (onPkg_running hrun hdom _).trans ?_
  rw [thenHome_of hf (.inr hhome)]
  rfl

/-- ORDER_HOLE_TIMEOUT at the end of the hole window (R495). -/
theorem orderHoleTimeout_breaks (hrun : s.dev.running = true) (hdom : s.dev.domOn 11 = true) (hqueue : s.dev.home.queue = [])
    (hhome : noneAtHome s.dev) (halone : s.dev.rd F.PROT_CFG_PARTNER_EN = 0) {t0 : Nat}
    (hhole : (s.dev.ord (s.dev.ordKey n src eng)).holeAt = some t0) (hst : (s.dev.ord (s.dev.ordKey n src eng)).st = .normal)
    (hdue : t0 + us (s.dev.rd F.RCV_CFG_ORDER_TIMEOUT_US) ≤ s.dev.tim.tide) :
    ∃ t, exec (.orderHoleTimeout n src eng) s = .next t ∧ t.store = s.store ∧ (t.dev.ord (s.dev.ordKey n src eng)).st = .broken ∧
      (t.dev.ord (s.dev.ordKey n src eng)).holeAt = none := by
  obtain ⟨-, hend⟩ := Dev.breakPair_alone hhome.2.1 halone n src eng
  have hnone : noneAtHome (s.dev.breakPair n src eng) := by
    rw [noneAtHome, hend]
    exact hhome
  have hbreak : Pkg.holeTimeout n src eng (s.store, s.dev) = (s.store, s.dev.breakPair n src eng) := by
    simp only [Pkg.holeTimeout, hhole, hst, hdue, and_self, if_true, Pkg.dev]
    exact pump_nil (by exact (congrArg Home.queue hend).trans hqueue)
  have hord := (Dev.ord_congr hend (s.dev.ordKey n src eng)).trans ((Dev.ord_setOrd ..).trans (if_pos rfl))
  exact ⟨_, onHome_noneAtHome hrun hdom hbreak hnone, rfl, congrArg OrdEnt.st hord, congrArg OrdEnt.holeAt hord⟩

/-- ORDER_RESYNC of a pair that is not in quarantine (R497). -/
theorem orderResync_quarantines (hrun : s.dev.running = true) (hdom : s.dev.domOn 11 = true) (hqueue : s.dev.home.queue = [])
    (hhome : noneAtHome s.dev) (halone : s.dev.rd F.PROT_CFG_PARTNER_EN = 0) {rseq : Nat} (hserved : (s.dev.serves n).isSome = true)
    (hst : (s.dev.ord (s.dev.ordKey n src eng)).st ≠ .quarantine) (hnew : some rseq ≠ (s.dev.ord (s.dev.ordKey n src eng)).lastRseq) :
    ∃ t, exec (.orderResync n src eng rseq) s = .next t ∧ t.store = s.store ∧ (t.dev.ord (s.dev.ordKey n src eng)).st = .quarantine ∧
      (t.dev.ord (s.dev.ordKey n src eng)).rseq = rseq ∧
      (t.dev.ord (s.dev.ordKey n src eng)).quietEnd = s.dev.tim.tide + us (s.dev.rd F.RCV_RETX_RESYNC_QUIET_US) := by
  let q : OrdEnt := { s.dev.ord (s.dev.ordKey n src eng) with
    st := .quarantine, rseq := rseq, quietEnd := s.dev.tim.tide + us (s.dev.rd F.RCV_RETX_RESYNC_QUIET_US), holeAt := none }
  have hresync : Pkg.orderResync n src eng rseq (s.store, s.dev) = (s.store, s.dev.setOrd (s.dev.ordKey n src eng) q) := by
    have hheld := Dev.refuseHeld_none (d := s.dev.setOrd (s.dev.ordKey n src eng) q) hhome.2.1 n src eng sOrderBroken
    have hnote := Dev.notePair_alone (d := s.dev.setOrd (s.dev.ordKey n src eng) q) halone n src eng 1
    have hserved' : (s.dev.serves n).isNone = false := by simpa [Option.isSome_iff_ne_none, Option.isNone_iff_eq_none] using hserved
    have hpump : Pkg.pump (s.store, s.dev.setOrd (s.dev.ordKey n src eng) q) = (s.store, s.dev.setOrd (s.dev.ordKey n src eng) q) :=
      pump_nil hqueue
    unfold Pkg.orderResync
    dsimp only
    rw [hserved', if_neg (by decide), show s.dev.setOrd _ _ = s.dev.setOrd (s.dev.ordKey n src eng) q from rfl, hheld, hnote, ite_self, hpump]
    split
    · next h => exact absurd h hst
    · rw [if_neg hnew]
  have hord : (s.dev.setOrd (s.dev.ordKey n src eng) q).ord (s.dev.ordKey n src eng) = q := (Dev.ord_setOrd ..).trans (if_pos rfl)
  exact ⟨_, onHome_noneAtHome hrun hdom hresync hhome, rfl, congrArg OrdEnt.st hord, congrArg OrdEnt.rseq hord, congrArg OrdEnt.quietEnd hord⟩

/-- QUARANTINE_END after the quiet window (R497). -/
theorem quarantineEnd_frees (hrun : s.dev.running = true) (hdom : s.dev.domOn 11 = true) (hqueue : s.dev.home.queue = [])
    (hhome : noneAtHome s.dev) (halone : s.dev.rd F.PROT_CFG_PARTNER_EN = 0)
    (hst : (s.dev.ord (s.dev.ordKey n src eng)).st = .quarantine)
    (hdue : (s.dev.ord (s.dev.ordKey n src eng)).quietEnd ≤ s.dev.tim.tide) (hsrc : s.dev.hasNode src = true) :
    ∃ t, exec (.quarantineEnd n src eng) s = .next t ∧ t.store = s.store ∧ (t.dev.ord (s.dev.ordKey n src eng)).st = .normal ∧
      (t.dev.ord (s.dev.ordKey n src eng)).expect = 0 ∧
      (t.dev.ord (s.dev.ordKey n src eng)).lastRseq = some (s.dev.ord (s.dev.ordKey n src eng)).rseq ∧
      t.dev.out = s.dev.out ++ [.ctrl src (.orderResyncDone eng (s.dev.ord (s.dev.ordKey n src eng)).rseq)] := by
  generalize hrseq : (s.dev.ord (s.dev.ordKey n src eng)).rseq = rseq
  have hfree : Pkg.quarantineEnd n src eng (s.store, s.dev) =
      (s.store, (s.dev.freshPair n src eng (some rseq)).ctrl src (.orderResyncDone eng rseq)) := by
    have hnote := Dev.notePair_alone (d := s.dev.freshPair n src eng (some rseq)) halone n src eng 2
    simp only [Pkg.quarantineEnd, hst, hdue, and_self, if_true, Pkg.dev, hrseq, hnote]
    exact pump_nil (by simp only [Dev.ctrl_frame]; exact hqueue)
  have hhome' : ((s.dev.freshPair n src eng (some rseq)).ctrl src (.orderResyncDone eng rseq)).home =
      (s.dev.freshPair n src eng (some rseq)).home := by simp only [Dev.ctrl_frame]
  have hord : ((s.dev.freshPair n src eng (some rseq)).ctrl src (.orderResyncDone eng rseq)).ord (s.dev.ordKey n src eng) = _ :=
    (Dev.ord_congr hhome' _).trans ((Dev.freshPair_ord ..).trans (if_pos rfl))
  refine ⟨_, onHome_noneAtHome hrun hdom hfree (by rw [noneAtHome, hhome']; exact hhome), rfl, congrArg OrdEnt.st hord,
    congrArg OrdEnt.expect hord, congrArg OrdEnt.lastRseq hord, ?_⟩
  exact Dev.ctrl_out (d := s.dev.freshPair n src eng (some rseq)) hsrc _

end

/-- Settles O36: each act of the order table, with no write held and no partner to tell. -/
theorem orderTable : Obligations.OrderTable := by
  refine ⟨fun r s hup hn => ?_, fun n src eng s hrun hdom hqueue hhome halone => ?_⟩
  · exact fun hst => ⟨homeWrite_held hup hn hst, homeWrite_outside hup hn hst, fun st => homeWrite_repeated hup hn st hst⟩
  · exact ⟨fun t0 hhole hst hdue => orderHoleTimeout_breaks hrun hdom hqueue hhome halone hhole hst hdue,
      fun rseq hserved hst hnew => orderResync_quarantines hrun hdom hqueue hhome halone hserved hst hnew,
      fun hst hdue hsrc => quarantineEnd_frees hrun hdom hqueue hhome halone hst hdue hsrc⟩

end Sys2Proof.Machine


/-!
SUPPORT. O38, region commands, staging, the patrols of the tiers, snapshots.
-/
namespace Sys2Proof.Machine

/-! ### Regions (R75) -/

section
variable {d : Dev} {src : Nat} {a : RegionArgs} {s : State}

theorem Dev.endCommand_said (h : d.rd F.PROT_CFG_PARTNER_EN = 0) {e : Dev} {r : Region} {i : Nat} (he : e = d.setRegion i r) (src : Nat) (name : String)
    (result gen : Nat) (ls : List Nat) : e.endCommand (some src) name result gen ls = e.ctrl src (.result name result) := by
  subst he
  exact Dev.endCommand_alone (by exact h) ..

theorem Dev.endCommand_refused (src : Nat) (name : String) (r gen : Nat) : d.endCommand (some src) name r gen [] = d.ctrl src (.result name r) := by
  simp [Dev.endCommand, Dev.commandResult]

/-- REGION_CREATE of a descriptor that is not VALID. -/
theorem Dev.regionCommand_create (halone : d.rd F.PROT_CFG_PARTNER_EN = 0) (hi : a.index < 8192) (hv : (d.region a.index).valid = false) :
    d.regionCommand true (some src) a = if d.regionOk a then
      (d.setRegion a.index { version := (d.region a.index).version, valid := true, cls := a.cls % 2, pages := a.pages, ptBase := a.ptBase % 2 ^ 52,
                             publish := a.publish % 2 ^ 512 }).ctrl src (.result "REGION_CREATE" rDone)
      else d.ctrl src (.result "REGION_CREATE" rBadState) := by
  have hne : ∀ r : Region, r.valid = true → d.region a.index ≠ r := by
    rintro r hr rfl
    simp [hv] at hr
  unfold Dev.regionCommand
  dsimp only
  rw [Nat.mod_eq_of_lt hi, if_pos rfl, if_neg (hne _ rfl), hv]
  by_cases hok : d.regionOk a = true
  · rw [hok, if_neg (by decide), if_pos rfl]
    exact Dev.endCommand_said halone rfl ..
  · rw [Bool.eq_false_iff.2 hok, if_pos (.inr rfl)]
    exact Dev.endCommand_refused ..

theorem Dev.regionCommand_destroy (halone : d.rd F.PROT_CFG_PARTNER_EN = 0) (hi : a.index < 8192) :
    d.regionCommand false (some src) a = if (d.region a.index).valid then
      (d.setRegion a.index { d.region a.index with valid := false }).ctrl src (.result "REGION_DESTROY" rDone)
      else d.ctrl src (.result "REGION_DESTROY" rNoChange) := by
  unfold Dev.regionCommand
  dsimp only
  rw [Nat.mod_eq_of_lt hi]
  split
  · next h => exact absurd h (by decide)
  · split
    · exact Dev.endCommand_said halone rfl ..
    · exact Dev.endCommand_refused ..

theorem quiet_ctrl {n : Nat} {m : CtrlMsg} (hq : quiet d) : quiet (d.ctrl n m) := quiet_rest (Dev.rest_ctrl _ _ _) hq

/-- What a region command leaves of the package is at rest where the package was. -/
theorem regionForm_msg (hrun : s.dev.running = true) (hdom : s.dev.domOn 11 = true) (hq : quiet s.dev) (hqueue : s.dev.home.queue = [])
    (hfm : s.dev.fmAllowed src = true) {create : Bool} (op : Nat) {m : CtrlMsg} {e : Dev}
    (he : e = s.dev ∨ ∃ r, e = s.dev.setRegion a.index r) (hcmd : s.dev.regionCommand create (some src) a = e.ctrl src m) :
    regionForm create op (.msg src a) s = .next { s with dev := e.ctrl src m } := by
  refine onFm_quiet hrun hdom hfm hcmd ?_ ?_
  · rcases he with rfl | ⟨r, rfl⟩ <;> simpa [Dev.setRegion] using hqueue
  · rcases he with rfl | ⟨r, rfl⟩
    · exact quiet_ctrl hq
    · exact quiet_ctrl (by exact hq)

theorem regionCommands (src : Nat) (a : RegionArgs) (s : State) (hrun : s.dev.running = true) (hdom : s.dev.domOn 11 = true) (hq : quiet s.dev)
    (hqueue : s.dev.home.queue = []) (hfm : s.dev.fmAllowed src = true) (halone : s.dev.rd F.PROT_CFG_PARTNER_EN = 0) (hi : a.index < 8192) :
    let e := s.dev.region a.index
    (e.valid = false → s.dev.regionOk a = true → exec (.regionCreate (.msg src a)) s = .next { s with
      dev := (s.dev.setRegion a.index { version := e.version, valid := true, cls := a.cls % 2, pages := a.pages, ptBase := a.ptBase % 2 ^ 52,
                                        publish := a.publish % 2 ^ 512 }).ctrl src (.result "REGION_CREATE" rDone) }) ∧
    (e.valid = false → s.dev.regionOk a = false → exec (.regionCreate (.msg src a)) s = .next { s with
      dev := s.dev.ctrl src (.result "REGION_CREATE" rBadState) }) ∧
    (e.valid = true → exec (.regionDestroy (.msg src a)) s = .next { s with
      dev := (s.dev.setRegion a.index { e with valid := false }).ctrl src (.result "REGION_DESTROY" rDone) }) ∧
    (e.valid = false → exec (.regionDestroy (.msg src a)) s = .next { s with dev := s.dev.ctrl src (.result "REGION_DESTROY" rNoChange) }) := by
  intro e
  refine ⟨fun hv hok => ?_, fun hv hok => ?_, fun hv => ?_, fun hv => ?_⟩
  · refine regionForm_msg hrun hdom hq hqueue hfm 6 (.inr ⟨_, rfl⟩) ?_
    rw [Dev.regionCommand_create halone hi hv, if_pos hok]
  · refine regionForm_msg hrun hdom hq hqueue hfm 6 (.inl rfl) ?_
    rw [Dev.regionCommand_create halone hi hv, if_neg (by simp [hok])]
  · refine regionForm_msg hrun hdom hq hqueue hfm 7 (.inr ⟨_, rfl⟩) ?_
    rw [Dev.regionCommand_destroy halone hi, if_pos hv]
  · refine regionForm_msg hrun hdom hq hqueue hfm 7 (.inl rfl) ?_
    rw [Dev.regionCommand_destroy halone hi, if_neg (by exact Bool.eq_false_iff.1 hv)]

end

/-! ### Commands of the registers of HOME and SMP (R190, R617) -/

section
variable {m : Master} {s : State} {p off v : Nat}

/-- A GO that its register takes sets going what it is for. -/
theorem homeRegister (hopen : pageOpen s.dev m p) (hown : s.dev.owns m p = true) (hp : p = 0x28 ∨ p = 0x2C) (ho : 0x100 ≤ off) (ho2 : off < 0x1000)
    (h4 : off % 4 = 0) (hv : v < 2 ^ 32) (hgo : bit v 31 = true) (hpages : ∀ f ∈ fieldsAt p off, f.page = p)
    (hacc : ∀ f ∈ fieldsAt p off, f.accepts (bits v f.lo f.w) = true) :
    regOut m (p * 0x1000 + off) 4 v s = .next (withPkg s (Pkg.homeWritten m p off (s.dev.word (p * 0x1000 + off)) v true (s.store,
      (tlp m s.dev).setWord (p * 0x1000 + off) ((tlp m s.dev).newWord ((tlp m s.dev).mayWrite m p off) p off v)))) := by
  have htaken : fieldsTaken (tlp m s.dev) m p off v := by
    refine fieldsTaken_of (mayWrite_owner hown ?_) ?_ ?_ (fun f hf => ?_) hacc
    · rcases hp with rfl | rfl <;> simp [isFmq]
    · omega
    · rcases hp with rfl | rfl <;> simp [Dev.writeRefused]
    · rw [hpages f hf]
      omega
  obtain ⟨-, -, -, hon⟩ := id hopen
  have hreg : plainRegister s.dev p off := ⟨ho, ho2, h4, by rcases hp with rfl | rfl <;> simp [routeAt], by omega, hon⟩
  refine (regOut_taken hopen hreg hv htaken).trans ?_
  rw [fieldsStored, Pkg.written, hgo]
  rcases hp with rfl | rfl <;> simp

theorem rdi_wri_fold (f : Fld) (hf : f.lo + f.w ≤ 32) (haddr : ∀ i j, i ≠ j → f.addr f.page i ≠ f.addr f.page j) (n : Nat) (d : Dev) (j : Nat) :
    (((List.range n).foldl (fun (d : Dev) i => d.wri f i 0) d).rdi f j = if j < n then 0 else d.rdi f j) ∧
      ((List.range n).foldl (fun (d : Dev) i => d.wri f i 0) d).home = d.home := by
  induction n with
  | zero => exact ⟨(if_neg (by omega)).symm, rfl⟩
  | succ n ih =>
    rw [List.range_succ, List.foldl_append]
    obtain ⟨hrd, hhome⟩ := ih
    generalize (List.range n).foldl (fun (d : Dev) i => d.wri f i 0) d = e at hrd hhome
    refine ⟨?_, hhome⟩
    show (e.wri f n 0).rdi f j = _
    by_cases hj : j = n
    · subst hj
      rw [if_pos (by omega)]
      exact (Dev.rdpi_wrpi_same _ _ _ _ _ hf).trans (Nat.zero_mod _)
    · rw [show (e.wri f n 0).rdi f j = e.rdi f j from Dev.rdpi_wrpi_ne _ _ _ _ _ _ _ _ (.inl (haddr _ _ hj)), hrd]
      exact if_congr (by omega) rfl rfl

theorem tlp_home (m : Master) (d : Dev) : (tlp m d).home = d.home := by
  unfold tlp
  split <;> simp

theorem homeBitmapClr_clears (hopen : pageOpen s.dev m 0x28) (hown : s.dev.owns m 0x28 = true) (v : W32) :
    ∃ t, exec (.homeBitmapClr m v) s = .next t ∧ t.store = s.store ∧ (∀ i < 64, t.dev.rdi F.HOME_BITMAP_BITS i = 0) ∧ t.dev.home = s.dev.home := by
  have hflds : fieldsAt 0x28 0x11C = [F.HOME_BITMAP_CLR_GO] := by decide
  have hwrite := homeRegister (s := s) (off := 0x11C) (v := putBit v.toNat 31 true) hopen hown (.inl rfl) (by decide) (by decide) (by decide)
    (putBit_lt true v.isLt (by decide)) (bit_putBit_same ..) (by simp [hflds, F.HOME_BITMAP_CLR_GO]) (by simp [hflds, Fld.accepts, F.HOME_BITMAP_CLR_GO])
  refine ⟨_, hwrite, rfl, fun i hi => ?_, ?_⟩
  · exact (rdi_wri_fold F.HOME_BITMAP_BITS (by decide) (fun i j hij => by simp only [Fld.addr, Fld.at, F.HOME_BITMAP_BITS]; omega) 64 _ i).1.trans (if_pos hi)
  · refine (rdi_wri_fold F.HOME_BITMAP_BITS (by decide) (fun i j hij => by simp only [Fld.addr, Fld.at, F.HOME_BITMAP_BITS]; omega) 64 _ 0).2.trans ?_
    exact tlp_home m s.dev

end

/-! ### The patrol of the near tier (R164, R165) -/

section
variable {d : Dev} {l b : Nat}

/-- A list without repetition that has one member has one place. -/
theorem List.length_eq_one_of_nodup {α : Type} {l : List α} {b : α} (hl : l.Nodup) (h : ∀ e, e ∈ l ↔ e = b) : l.length = 1 := by
  obtain ⟨n, rfl⟩ : ∃ n, l = List.replicate n b := ⟨_, List.eq_replicate_iff.2 ⟨rfl, fun e he => (h e).1 he⟩⟩
  have hle := List.nodup_replicate.1 hl
  have hne : n ≠ 0 := by
    rintro rfl
    exact absurd ((h b).2 rfl) (by simp)
  rw [List.length_replicate]
  omega

theorem Dev.partErr_word (hl : metaLine0 ≤ l) (w : Nat) : d.partErr l [w] = min 2 (d.wordErrs l w) := by
  rw [Dev.partErr, if_pos hl]
  exact Nat.zero_max _

theorem Dev.lineErr_near (hl : metaLine0 ≤ l) : d.lineErr l = 0 ↔ ∀ w < 8, d.wordErrs l w = 0 := by
  have h := le_foldl_max 1 ((List.range 8).map (fun w => min 2 (d.wordErrs l w))) 0
  rw [Dev.lineErr, Dev.partErr, if_pos hl, ← Nat.lt_one_iff, ← not_le]
  refine (not_congr h).trans ?_
  simp only [List.mem_map, List.mem_range]
  constructor
  · intro hno w hw
    by_contra hne
    exact hno (.inr ⟨_, ⟨w, hw, rfl⟩, by omega⟩)
  · rintro hall (h | ⟨x, ⟨w, hw, rfl⟩, hx⟩)
    · omega
    · rw [hall w hw] at hx
      omega

theorem Dev.errsOf_setErrs (es : List Nat) : (d.setErrs l es).errsOf l = es := (tget_tset _ _ _ _ _).trans (if_pos rfl)

/-- The errors of a good word's line once bit `b` of that word is struck. -/
theorem Dev.errsOf_strikeOne (hb : b ∉ d.errsOf l) : (d.strikeOne l ⟨[b]⟩).errsOf l = (d.errsOf l ++ [b]).dedup := by
  rw [Dev.strikeOne, if_neg (by simp), Dev.errsOf_setErrs]
  simp [hb]

theorem Dev.wordErrs_zero {w : Nat} : d.wordErrs l w = 0 ↔ ∀ e ∈ d.errsOf l, e / 72 ≠ w := by
  simp [Dev.wordErrs, List.countP_eq_zero]

/-- Of a line without error, one bit of which is struck, one word has one wrong bit. -/
theorem Dev.wordErrs_struck (hgood : ∀ w < 8, d.wordErrs l w = 0) (hb : b < 576) {w : Nat} (hw : w < 8) :
    (d.strikeOne l ⟨[b]⟩).wordErrs l w = if w = b / 72 then 1 else 0 := by
  have hno : b ∉ d.errsOf l := fun hmem => Dev.wordErrs_zero.1 (hgood (b / 72) (by omega)) b hmem rfl
  rw [Dev.wordErrs, Dev.errsOf_strikeOne hno]
  split
  · next h =>
    subst h
    have hmem : ∀ e, e ∈ (d.errsOf l ++ [b]).dedup.filter (fun e => e / 72 == b / 72) ↔ e = b := by
      intro e
      rw [List.mem_filter, List.mem_dedup, List.mem_append, List.mem_singleton, beq_iff_eq]
      refine ⟨fun ⟨he, hword⟩ => he.resolve_left fun he => Dev.wordErrs_zero.1 (hgood _ hw) e he hword, fun he => ⟨.inr he, he ▸ rfl⟩⟩
    rw [List.countP_eq_length_filter]
    exact List.length_eq_one_of_nodup ((List.nodup_dedup _).filter _) hmem
  · next h =>
    refine List.countP_eq_zero.2 fun e he => ?_
    rcases List.mem_append.1 (List.mem_dedup.1 he) with he | he
    · simpa using Dev.wordErrs_zero.1 (hgood w hw) e he
    · rw [List.mem_singleton.1 he]
      simpa using fun h' => h h'.symm

/-- Scrub of a near line without error, one bit of which is struck: the word is corrected, and counted. -/
theorem Dev.scrubLine_near (hl : metaLine0 ≤ l) (hgood : d.lineErr l = 0) (hb : b < 576) :
    d.scrubLine l ⟨[b]⟩ = (d.strikeOne l ⟨[b]⟩).mendWord l (b / 72) ∧ (d.scrubLine l ⟨[b]⟩).lineErr l = 0 := by
  have hword := fun w (hw : w < 8) => Dev.wordErrs_struck ((Dev.lineErr_near hl).1 hgood) hb hw
  have hone : (List.range 8).filter (fun w => (d.strikeOne l ⟨[b]⟩).partErr l [w] == 1) = [b / 72] := by
    have hpick : ∀ k < 8, (List.range 8).filter (fun w => w == k) = [k] := by decide
    rw [← hpick (b / 72) (by omega)]
    refine List.filter_congr fun w hw => ?_
    rw [Dev.partErr_word hl, hword w (List.mem_range.1 hw)]
    split
    · next h => simp [h]
    · next h => simp [h]
  have hfix : (d.strikeOne l ⟨[b]⟩).readFix l = (d.strikeOne l ⟨[b]⟩).mendWord l (b / 72) := by
    rw [Dev.readFix, Dev.readPart, if_pos hl, hone]
    rfl
  have hmended : ((d.strikeOne l ⟨[b]⟩).mendWord l (b / 72)).lineErr l = 0 := by
    refine (Dev.lineErr_near hl).2 fun w hw => ?_
    by_cases h : w = b / 72
    · subst h
      rw [Dev.wordErrs_zero, Dev.errsOf_mendWord, if_pos rfl]
      exact fun e he => by simpa using (List.mem_filter.1 he).2
    · rw [Dev.wordErrs_mendWord_ne _ _ _ (Ne.symm h), hword w hw, if_neg h]
  have hscrub : d.scrubLine l ⟨[b]⟩ = (d.strikeOne l ⟨[b]⟩).mendWord l (b / 72) := by
    rw [Dev.scrubLine, hfix, if_neg (by rw [hmended]; decide)]
  exact ⟨hscrub, hscrub ▸ hmended⟩

theorem Dev.counter_one {p i : Nat} (hi : i < 1024) (hfreeze : d.rdp F.BLK_CTRL_CNT_FREEZE p = 0) (hlow : d.counter p i < 2 ^ 63) :
    (d.count p i 1).counter p i = d.counter p i + 1 := by
  rw [Dev.counter_count _ _ _ _ _ _ hi hi, if_pos ⟨rfl, rfl, by omega⟩, satAdd]
  omega

end

section
variable {s : State}

theorem Dev.counter_mendWord {d : Dev} {l w : Nat} (hfreeze : d.rdp F.BLK_CTRL_CNT_FREEZE 0x29 = 0) (hlow : d.counter 0x29 0 < 2 ^ 63) :
    (d.mendWord l w).counter 0x29 0 = d.counter 0x29 0 + 1 :=
  (Dev.counter_congr (d := d.count 0x29 0 1) (by simp [Dev.mendWord, Dev.setErrs]) _ _).trans (Dev.counter_one (by decide) hfreeze hlow)

theorem Dev.mendWord_frame (d : Dev) (l w : Nat) : (d.mendWord l w).home.nearPatrol = d.home.nearPatrol ∧ (d.mendWord l w).tim = d.tim := by
  simp [Dev.mendWord, Dev.setErrs]

/-- The patrol of the near tier once its line `i` is corrected (R165). -/
def Dev.nearVisited (i : Nat) (d : Dev) : Dev :=
  let e : Dev := { d with home := { d.home with nearPatrol := d.patrolNext 0x2800000 d.home.nearPatrol } }
  if i = 0x2800000 - 1 then e.count 0x29 2 1 else e

theorem Dev.nearVisited_frame (d : Dev) (i : Nat) : (Dev.nearVisited i d).counter 0x29 0 = d.counter 0x29 0 ∧
    (∀ l, (Dev.nearVisited i d).errsOf l = d.errsOf l) ∧ (Dev.nearVisited i d).home.nearPatrol = d.patrolNext 0x2800000 d.home.nearPatrol := by
  unfold Dev.nearVisited
  dsimp only
  split
  · refine ⟨?_, fun l => (Dev.aside_count ..).errsOf l, by simp⟩
    exact Dev.counter_count_ne (q := 0x29) (by decide) (by decide) _ (.inr (by decide))
  · exact ⟨rfl, fun _ => rfl, rfl⟩

theorem nearScrub_cases (off b : Nat) (m : Media) (s : State) (hrun : s.dev.running = true) (hdom : s.dev.domOn 11 = true) (hb : b < 576) :
    let i := off % 0xA0000000 / 64
    let l := metaLine0 + i
    (s.dev.patrolDue i 1 s.dev.home.nearPatrol = false → exec (.nearScrub off m) s = .next s) ∧
    (s.dev.patrolDue i 1 s.dev.home.nearPatrol = true → s.dev.linePowered l = true → s.dev.lineErr l = 0 →
      s.dev.rdp F.BLK_CTRL_CNT_FREEZE 0x29 = 0 → s.dev.counter 0x29 0 < 2 ^ 63 →
      ∃ t, exec (.nearScrub off ⟨[b]⟩) s = .next t ∧ t.store = s.store ∧ t.dev.counter 0x29 0 = s.dev.counter 0x29 0 + 1 ∧
        t.dev.lineErr l = 0 ∧ t.dev.home.nearPatrol = s.dev.patrolNext 0x2800000 s.dev.home.nearPatrol) ∧
    (nearGroup l = off % 0xA0000000 / 0x28000000 ∧ nearBank l = off % 0xA0000000 % 0x28000000 / 256 % 64) := by
  intro i l
  refine ⟨fun hdue => ?_, fun hdue hpow hgood hfreeze hlow => ?_, ?_⟩
  · refine (onPkg_leaves (x := (s.store, s.dev)) hrun hdom ?_).trans rfl
    simp only [Pkg.nearScrub, show s.dev.patrolDue (off % 0xA0000000 / 64) 1 s.dev.home.nearPatrol = false from hdue, Bool.not_false, if_true]
  · obtain ⟨hscrub, hmended⟩ := Dev.scrubLine_near (d := s.dev) (l := l) (Nat.le_add_right _ _) hgood hb
    have hcnt := Dev.counter_mendWord (d := s.dev.strikeOne l ⟨[b]⟩) (l := l) (w := b / 72) hfreeze hlow
    obtain ⟨hpatrol, htim⟩ := Dev.mendWord_frame (s.dev.strikeOne l ⟨[b]⟩) l (b / 72)
    rw [← hscrub] at hcnt hpatrol htim
    have hvisit : Pkg.nearScrub off ⟨[b]⟩ (s.store, s.dev) = (s.store, Dev.nearVisited i (s.dev.scrubLine l ⟨[b]⟩)) := by
      simp only [Pkg.nearScrub, show s.dev.patrolDue (off % 0xA0000000 / 64) 1 s.dev.home.nearPatrol = true from hdue, Bool.not_true,
        Bool.false_eq_true, if_false, Pkg.dev, show s.dev.linePowered (metaLine0 + off % 0xA0000000 / 64) = true from hpow, if_true]
      rfl
    refine ⟨_, onPkg_leaves hrun hdom hvisit, rfl, ?_⟩
    generalize s.dev.scrubLine l ⟨[b]⟩ = e at hcnt hpatrol htim hmended
    obtain ⟨hcnt', herr', hnear'⟩ := Dev.nearVisited_frame e i
    refine ⟨hcnt'.trans hcnt, (Dev.partErr_congr (herr' l) _).trans hmended, hnear'.trans ?_⟩
    rw [hpatrol]
    simp only [Dev.patrolNext, htim]
    rfl
  · simp only [nearGroup, nearBank, l, i, Nat.add_sub_cancel_left]
    omega

end

/-! ### The patrol of the bulk tier (R172, R174, R175) -/

section
variable {d : Dev} {l b : Nat}

/-- What the use of a check burst leaves. -/
theorem Dev.checkBurst_frame (d : Dev) (wr : Bool) (l : Nat) : (d.checkBurst wr l).regs = d.regs ∧ (d.checkBurst wr l).tim = d.tim ∧
    (d.checkBurst wr l).home.fixes = d.home.fixes ∧ (d.checkBurst wr l).home.bulkPatrol = d.home.bulkPatrol ∧
    (d.checkBurst wr l).counter 0x2A 0 = d.counter 0x2A 0 := by
  unfold Dev.checkBurst
  dsimp only
  split
  · exact ⟨rfl, rfl, rfl, rfl, rfl⟩
  · split
    · exact ⟨rfl, rfl, rfl, rfl, rfl⟩
    · split
      all_goals
        refine ⟨by simp [Dev.draw], by simp [Dev.draw], by simp [Dev.draw], by simp [Dev.draw], ?_⟩
        exact Dev.counter_count_ne (q := 0x2A) (by decide) (by decide) _ (.inr (by decide))

theorem Dev.lineErr_bulk (hl : l < metaLine0) : d.lineErr l = min 2 (d.errsOf l).length := by
  rw [Dev.lineErr, Dev.partErr, if_neg (by omega)]

/-- A bulk line of which one byte is wrong is corrected where it lies only later: it is counted, and waits for its write-back. -/
theorem Dev.readFix_bulk (hl : l < metaLine0) (hone : d.lineErr l = 1) : d.readFix l =
    { (d.count 0x2A 0 1).corrected 0x2A with
      home := { ((d.count 0x2A 0 1).corrected 0x2A).home with
        fixes := ((d.count 0x2A 0 1).corrected 0x2A).home.fixes ++ [(((d.count 0x2A 0 1).corrected 0x2A).placeOf l, false)] } } := by
  rw [Dev.readFix, Dev.readPart, if_neg (by omega), if_pos hone]

/-- Scrub of a bulk line without error, one byte of which is struck. -/
theorem Dev.scrubLine_bulk (hl : l < metaLine0) (hgood : d.lineErr l = 0) (hfreeze : d.rdp F.BLK_CTRL_CNT_FREEZE 0x2A = 0)
    (hlow : d.counter 0x2A 0 < 2 ^ 63) : (d.scrubLine l ⟨[b]⟩).counter 0x2A 0 = d.counter 0x2A 0 + 1 ∧ (d.scrubLine l ⟨[b]⟩).lineErr l = 1 ∧
    (d.scrubLine l ⟨[b]⟩).home.fixes = d.home.fixes ++ [(d.placeOf l, false)] ∧
    (d.scrubLine l ⟨[b]⟩).home.bulkPatrol = d.home.bulkPatrol ∧ (d.scrubLine l ⟨[b]⟩).tim = d.tim := by
  have hnone : d.errsOf l = [] := by
    rw [Dev.lineErr_bulk hl] at hgood
    exact List.length_eq_zero_iff.1 (by omega)
  have hstruck : (d.strikeOne l ⟨[b]⟩).errsOf l = [b] := by
    rw [Dev.errsOf_strikeOne (by simp [hnone]), hnone]
    rfl
  have hone : (d.strikeOne l ⟨[b]⟩).lineErr l = 1 := by
    rw [Dev.lineErr_bulk hl, hstruck]
    rfl
  have haside := Dev.aside_readPart_bulk (d.strikeOne l ⟨[b]⟩) hl (List.range 8)
  have herr : ((d.strikeOne l ⟨[b]⟩).readFix l).lineErr l = 1 := (Dev.partErr_congr (haside.errsOf l) _).trans hone
  have hscrub : d.scrubLine l ⟨[b]⟩ = (d.strikeOne l ⟨[b]⟩).readFix l := by
    rw [Dev.scrubLine, herr, if_neg (by decide)]
  have hplace : (((d.strikeOne l ⟨[b]⟩).count 0x2A 0 1).corrected 0x2A).placeOf l = d.placeOf l :=
    ((Dev.aside_count ..).trans (Dev.aside_corrected _ 0x2A)).placeOf l
  refine ⟨?_, hscrub ▸ herr, ?_⟩
  · rw [hscrub, Dev.readFix_bulk hl hone]
    exact (Dev.counter_congr (d := (d.strikeOne l ⟨[b]⟩).count 0x2A 0 1) (by simp) _ _).trans (Dev.counter_one (by decide) hfreeze hlow)
  · rw [hscrub, Dev.readFix_bulk hl hone]
    simp only [hplace, Dev.corrected_frame, Dev.count_frame]
    exact ⟨rfl, rfl, rfl⟩

end

section
variable {s : State}

theorem bulkScrub_cases (off b : Nat) (m : Media) (s : State) (hrun : s.dev.running = true) (hdom : s.dev.domOn 11 = true)
    (hops : s.dev.home.ops = []) :
    let l := off % 0xC000000000 / 64
    let hours := s.dev.rd F.BULK_CFG_SCRUB_HOURS
    (hours = 0 ∨ s.dev.patrolDue l hours s.dev.home.bulkPatrol = false → exec (.bulkScrub off m) s = .next s) ∧
    (hours ≠ 0 → s.dev.patrolDue l hours s.dev.home.bulkPatrol = true → s.dev.linePowered l = true → s.dev.lineErr l = 0 →
      s.dev.rdp F.BLK_CTRL_CNT_FREEZE 0x2A = 0 → s.dev.counter 0x2A 0 < 2 ^ 63 →
      ∃ t, exec (.bulkScrub off ⟨[b]⟩) s = .next t ∧ t.store = s.store ∧ t.dev.counter 0x2A 0 = s.dev.counter 0x2A 0 + 1 ∧
        t.dev.lineErr l = 1 ∧ t.dev.home.fixes = s.dev.home.fixes ++ [(s.dev.placeOf l, false)] ∧
        t.dev.home.bulkPatrol = s.dev.patrolNext 0x300000000 s.dev.home.bulkPatrol) := by
  intro l hours
  have hl : l < metaLine0 := by
    simp only [l, metaLine0]
    omega
  refine ⟨fun hno => ?_, fun hhours hdue hpow hgood hfreeze hlow => ?_⟩
  · refine (onPkg_leaves (x := (s.store, s.dev)) hrun hdom ?_).trans rfl
    have hstop : hours = 0 ∨ (!s.dev.patrolDue l hours s.dev.home.bulkPatrol) = true ∨ (s.dev.opLines false).contains (s.dev.unitOf l) = true :=
      hno.imp_right fun h => .inl (by simp [h])
    exact if_pos hstop
  · have hgo : ¬(hours = 0 ∨ (!s.dev.patrolDue l hours s.dev.home.bulkPatrol) = true ∨
        (s.dev.opLines false).contains (s.dev.unitOf l) = true) := by
      simp [hhours, hdue, Dev.opLines, hops]
    obtain ⟨hregs, htim, hfixes, hpatrol, hcnt⟩ := s.dev.checkBurst_frame false l
    have haside := s.dev.aside_checkBurst false l
    have hscrub := Dev.scrubLine_bulk (b := b) hl ((Dev.partErr_congr (haside.errsOf l) _).trans hgood) ((Dev.rdpi_congr hregs _ _ _).trans hfreeze)
      (hcnt ▸ hlow)
    rw [hcnt, hfixes, hpatrol, htim, haside.placeOf] at hscrub
    have hvisit : Pkg.bulkScrub off ⟨[b]⟩ (s.store, s.dev) = (s.store, { (s.dev.checkBurst false l).scrubLine l ⟨[b]⟩ with
        home := { ((s.dev.checkBurst false l).scrubLine l ⟨[b]⟩).home with
          bulkPatrol := ((s.dev.checkBurst false l).scrubLine l ⟨[b]⟩).patrolNext 0x300000000
            ((s.dev.checkBurst false l).scrubLine l ⟨[b]⟩).home.bulkPatrol } }) := by
      refine (if_neg hgo).trans ?_
      simp only [Pkg.dev, show s.dev.linePowered (off % 0xC000000000 / 64) = true from hpow, if_true]
      rfl
    generalize (s.dev.checkBurst false l).scrubLine l ⟨[b]⟩ = e at hscrub hvisit
    obtain ⟨hcnt', herr', hfixes', hpatrol', htim'⟩ := hscrub
    refine ⟨_, onPkg_leaves hrun hdom hvisit, rfl, hcnt', herr', hfixes', ?_⟩
    show e.patrolNext 0x300000000 e.home.bulkPatrol = _
    rw [hpatrol', Dev.patrolNext, htim']
    rfl

/-- No correction of line `l` waits any more. -/
def Dev.unwait (l : Nat) (d : Dev) : Dev := { d with home := { d.home with fixes := d.home.fixes.filter (fun e => e.1 != d.placeOf l) } }

/-- A write-back with no operation in hand (R172, R175). -/
theorem correctionWriteback_idle (k : Nat) (hrun : s.dev.running = true) (hdom : s.dev.domOn 11 = true) (hops : s.dev.home.ops = []) :
    exec (.correctionWriteback k) s = .next (withPkg s (s.store, Dev.unwait k
      (if s.dev.home.fixes.contains (s.dev.placeOf k, false) ∧ s.dev.lineErr k = 1 then (s.dev.checkBurst true k).mend k else s.dev))) := by
  have hfree : ¬((s.dev.opLines false).contains (s.dev.unitOf k) = true) := by simp [Dev.opLines, hops]
  exact onPkg_leaves hrun hdom (if_neg hfree)

theorem correctionWriteback_cases (k : Nat) (s : State) (hrun : s.dev.running = true) (hdom : s.dev.domOn 11 = true) (hops : s.dev.home.ops = []) :
    (s.dev.lineErr k ≠ 1 → exec (.correctionWriteback k) s = .next { s with
      dev := { s.dev with home := { s.dev.home with fixes := s.dev.home.fixes.filter (fun e => e.1 != s.dev.placeOf k) } } }) ∧
    (s.dev.lineErr k = 1 → s.dev.home.fixes.contains (s.dev.placeOf k, false) = true → ∃ t, exec (.correctionWriteback k) s = .next t ∧
      t.store = s.store ∧ t.dev.lineErr k = 0 ∧ t.dev.home.fixes = s.dev.home.fixes.filter (fun e => e.1 != s.dev.placeOf k)) := by
  have hexec := correctionWriteback_idle k hrun hdom hops
  refine ⟨fun hgood => ?_, fun hone hwaits => ?_⟩
  · rw [if_neg (fun h => hgood h.2)] at hexec
    exact hexec
  · rw [if_pos ⟨hwaits, hone⟩] at hexec
    have haside := s.dev.aside_checkBurst true k
    obtain ⟨-, -, hfixes, -⟩ := s.dev.checkBurst_frame true k
    generalize s.dev.checkBurst true k = e at hexec haside hfixes
    refine ⟨_, hexec, rfl, ?_, ?_⟩
    · have hnone : (e.mend k).errsOf k = [] := Dev.errsOf_setErrs []
      refine (Dev.partErr_congr (d := e.mend k) (by rfl) _).trans ?_
      rw [Dev.partErr, hnone]
      split <;> rfl
    · show e.home.fixes.filter (fun p => p.1 != e.placeOf k) = _
      rw [hfixes, haside.placeOf]

theorem refresh_idle (device : Fin 12) (b : Nat) (s : State) (hrun : s.dev.running = true) (hops : s.dev.home.ops = []) :
    ∃ t, exec (.refresh device b) s = .next t ∧ t.store = s.store ∧ t.dev.regs = s.dev.regs ∧ t.dev.home = s.dev.home := by
  have hrefresh : Dev.refresh device s.dev = s.dev := by
    rw [Dev.refresh, hops]
    rfl
  refine ⟨_, onDev_running hrun (Dev.refresh device), rfl, ?_, ?_⟩ <;> rw [hrefresh]

end

/-! ### BULK_CFG (R169, R176) -/

section
variable {m : Master} {s : State} {v : W32}

theorem fieldsAt_bulkCfg : fieldsAt 0x2A 0x100 = [F.BULK_CFG_INTERLEAVE, F.BULK_CFG_SCRUB_HOURS] := by decide

theorem bulkCfg_register (hopen : pageOpen s.dev m 0x2A) : plainRegister s.dev 0x2A 0x100 := by
  obtain ⟨-, -, -, hon⟩ := hopen
  exact ⟨by decide, by decide, by decide, by simp [routeAt], by simp, hon⟩

/-- What the register's write sets going: the package goes on, which at rest it does not. -/
theorem bulkCfg_written {x : Pkg} (hq : quiet x.2) (old w v : Nat) (act : Bool) : Pkg.written m 0x2A 0x100 old w v act x = x := by
  rw [Pkg.written]
  exact settle_quiet hq

theorem bulkCfg_takes (hopen : pageOpen s.dev m 0x2A) (hq : quiet s.dev) (h : fieldsTaken (tlp m s.dev) m 0x2A 0x100 v.toNat)
    (hown : s.dev.owns m 0x2A = true) :
    ∃ t, exec (.bulkCfgWrite m v) s = .next t ∧ t.store = s.store ∧ t.dev.rd F.BULK_CFG_INTERLEAVE = bits v.toNat 0 1 := by
  have hmay : (tlp m s.dev).mayWrite m 0x2A 0x100 = true := mayWrite_owner hown (by simp [isFmq])
  have hfield := fieldsTaken_bits (f := F.BULK_CFG_INTERLEAVE) h (by simp [fieldsAt_bulkCfg]) (by simp) (by rw [hmay]; rfl) (by decide) (by decide)
  have hwrite := regOut_taken hopen (bulkCfg_register hopen) v.isLt h
  generalize hw : (tlp m s.dev).newWord ((tlp m s.dev).mayWrite m 0x2A 0x100) 0x2A 0x100 v.toNat = w at hfield
  rw [fieldsStored, hw] at hwrite
  have hq' : quiet ((tlp m s.dev).setWord (0x2A * 0x1000 + 0x100) w) := by
    unfold tlp
    split
    · exact quiet_rest (d := s.dev) (Dev.rest_count (d := s.dev) ..) hq
    · exact hq
  refine ⟨_, hwrite.trans (congrArg (fun x => Host.Outcome.next (withPkg s x)) (bulkCfg_written hq' ..)), rfl, ?_⟩
  exact (rd_setWord_of (by rfl) (by decide)).trans hfield

theorem Dev.rest_setWord {d : Dev} (a w : Nat) : (d.setWord a w).rest = d.rest := rfl

theorem tlp_rest (m : Master) (d : Dev) : (tlp m d).rest = d.rest := by
  unfold tlp
  split
  · exact Dev.rest_count (d := d) ..
  · rfl

/-- A write one of whose fields takes no value now: the others are stored, and it is captured with code 3. -/
theorem regOut_held {p off n : Nat} (hopen : pageOpen s.dev m p) (hreg : plainRegister s.dev p off) (hv : n < 2 ^ 32)
    (hown : (tlp m s.dev).mayWrite m p off = true)
    (href : (tlp m s.dev).writeRefused ((tlp m s.dev).setWord (p * 0x1000 + off) ((tlp m s.dev).newWord true p off n)) p off = none)
    (hres : (tlp m s.dev).anyReserved true p off n = false) (hheld : (tlp m s.dev).anyHeld true p off n = true) :
    regOut m (p * 0x1000 + off) 4 n s = .next (withPkg s (Pkg.written m p off ((tlp m s.dev).word (p * 0x1000 + off))
      ((tlp m s.dev).newWord true p off n) n true (s.store,
        ((tlp m s.dev).setWord (p * 0x1000 + off) ((tlp m s.dev).newWord true p off n)).dropWrite m p off n 3))) := by
  obtain ⟨hrun, hreach, hkind, hon⟩ := hopen
  obtain ⟨ho, ho2, h4, hroute, hcmd, -⟩ := hreg
  have hrun' : (tlp m s.dev).running = true := (tlp_running m s.dev).trans hrun
  rw [regOut_four m p off n s ho2 h4 (by have := pageKind_lt hkind; omega) hreach,
    write4_plain m p off n _ hkind (by simpa using hon) ho ho2 hroute hcmd, Nat.mod_eq_of_lt hv, hown]
  simp only [Pkg.fieldsWrite, href]
  simp [hres, hheld, hrun']

theorem quiet_dropWrite {d : Dev} (hq : quiet d) (m : Master) (p off v code : Nat) : quiet (d.dropWrite m p off v code) := by
  refine quiet_rest (d := d) ?_ hq
  simp [Dev.rest, Dev.dropWrite]

/-- INTERLEAVE while a bulk extent is in use (R169): captured, and not taken. -/
theorem bulkCfg_holds (hopen : pageOpen s.dev m 0x2A) (hown : s.dev.owns m 0x2A = true) (hq : quiet s.dev) (hused : s.dev.bulkFree = false)
    (hres : (tlp m s.dev).anyReserved true 0x2A 0x100 v.toNat = false) :
    ∃ t, exec (.bulkCfgWrite m v) s = .next t ∧ t.store = s.store ∧ t.dev.rd F.BULK_CFG_INTERLEAVE = s.dev.rd F.BULK_CFG_INTERLEAVE ∧
      t.dev.rdp F.BLK_ERR_CNT_ERRORS 0x2A = satAdd 16 (s.dev.rdp F.BLK_ERR_CNT_ERRORS 0x2A) 1 := by
  have hmay : (tlp m s.dev).mayWrite m 0x2A 0x100 = true := mayWrite_owner hown (by simp [isFmq])
  have hused' : (tlp m s.dev).bulkFree = false := by rw [Dev.bulkFree, tlp_home]; exact hused
  have hpart : (tlp m s.dev).partHeld 0x2A 0x100 F.BULK_CFG_INTERLEAVE = true := by simp [Dev.partHeld, hused']
  have hheld : (tlp m s.dev).anyHeld true 0x2A 0x100 v.toNat = true := by
    rw [Dev.anyHeld, fieldsAt_bulkCfg, List.any_cons, hpart]
    rfl
  have hword : bits ((tlp m s.dev).newWord true 0x2A 0x100 v.toNat) 0 1 = s.dev.rd F.BULK_CFG_INTERLEAVE := by
    refine (Dev.newWord_field (tlp m s.dev) true 0x2A 0x100 v.toNat F.BULK_CFG_INTERLEAVE (by simp [fieldsAt_bulkCfg]) (by simp)).trans ?_
    rw [Dev.fieldWord, if_neg (by decide), if_neg (by simp [hpart]), tlp_word]
    rfl
  have hwrite := regOut_held hopen (bulkCfg_register hopen) v.isLt hmay (by simp [Dev.writeRefused]) hres hheld
  generalize (tlp m s.dev).newWord true 0x2A 0x100 v.toNat = w at hword hwrite
  have hq' : quiet ((tlp m s.dev).setWord (0x2A * 0x1000 + 0x100) w) :=
    quiet_rest (d := tlp m s.dev) (Dev.rest_setWord _ _) (quiet_rest (tlp_rest m s.dev) hq)
  have hq'' := quiet_dropWrite hq' m 0x2A 0x100 v.toNat 3
  generalize hd : (tlp m s.dev).setWord (0x2A * 0x1000 + 0x100) w = d at hwrite hq''
  rw [bulkCfg_written hq''] at hwrite
  refine ⟨_, hwrite, rfl, ?_, ?_⟩
  · refine (Dev.rd_dropWrite d m 0x2A 0x100 v.toNat 3 F.BULK_CFG_INTERLEAVE (by decide)).trans ?_
    rw [← hd]
    exact (rd_setWord_of (by rfl) (by decide)).trans hword
  · refine (Dev.errors_capture _ (by decide) _ _ _ _ _).trans ?_
    rw [← hd, Dev.rdp, Dev.rdpi, Dev.word_setWord_ne _ _ (by decide), tlp_word]
    rfl

end

/-! ### Snapshots (R189–R191) -/

section
variable {d : Dev}

/-- Host writes while PERST_N is high leave as they are made. -/
theorem Dev.hostWrite_leaves (h : d.rd F.GLB_PIN_STAT_PERST = 0) (a : Nat) (v : List Byte) : (d.hostWrite a v).out = d.out ++ [.hostWrite a v] := by
  rw [Dev.hostWrite, if_neg (by omega), Dev.emit_out]
  simp

theorem Dev.smpRecord_congr {e : Dev} (hhome : e.home = d.home) (htim : e.tim = d.tim) (k : Nat) : e.smpRecord k = d.smpRecord k := by
  unfold Dev.smpRecord Dev.smpWindow Dev.ns
  rw [hhome, htim]

theorem Dev.smpRecord_hostWrite (a : Nat) (v : List Byte) (k : Nat) : (d.hostWrite a v).smpRecord k = d.smpRecord k := by
  refine Dev.smpRecord_congr ?_ ?_ k <;> simp

/-- The records of a snapshot on their way (R190). -/
def Dev.smpSent (base n : Nat) (d : Dev) : Dev := (List.range n).foldl (fun (d : Dev) k => d.hostWrite (base + 16 * k) (d.smpRecord k)) d

theorem Dev.smpSent_leaves (h : d.rd F.GLB_PIN_STAT_PERST = 0) (base n : Nat) : (d.smpSent base n).regs = d.regs ∧
    (∀ k, (d.smpSent base n).smpRecord k = d.smpRecord k) ∧
    (d.smpSent base n).out = d.out ++ (List.range n).map (fun k => .hostWrite (base + 16 * k) (d.smpRecord k)) := by
  induction n with
  | zero => exact ⟨rfl, fun _ => rfl, (List.append_nil _).symm⟩
  | succ n ih =>
    obtain ⟨hregs, hrec, hout⟩ := ih
    have hstep : d.smpSent base (n + 1) = (d.smpSent base n).hostWrite (base + 16 * n) ((d.smpSent base n).smpRecord n) := by
      rw [Dev.smpSent, List.range_succ, List.foldl_append]
      rfl
    rw [hstep]
    generalize d.smpSent base n = e at hregs hrec hout
    refine ⟨by simp [hregs], fun k => (Dev.smpRecord_hostWrite ..).trans (hrec k), ?_⟩
    rw [Dev.hostWrite_leaves ((Dev.rdpi_congr hregs _ _ _).trans h), hout, hrec, List.range_succ, List.map_append, List.append_assoc]
    rfl

/-- The instant of a snapshot and its BUSY bit are noted (R190). -/
def Dev.smpNoted (d : Dev) : Dev :=
  ((d.wr F.SMP_SNAP_TIME_LO_TIME_LO (d.ns % 2 ^ 32)).wr F.SMP_SNAP_TIME_HI_TIME_HI (d.ns / 2 ^ 32 % 2 ^ 32)).wr F.SMP_SNAP_STAT_BUSY 1

theorem Dev.smpNoted_rd (f : Fld) (h1 : f.addr f.page 0 ≠ 0x2C118) (h2 : f.addr f.page 0 ≠ 0x2C11C) (h3 : f.addr f.page 0 ≠ 0x2C110) :
    d.smpNoted.rd f = d.rd f :=
  (Dev.rd_wr_ne _ _ _ _ (.inl h3)).trans ((Dev.rd_wr_ne _ _ _ _ (.inl h2)).trans (Dev.rd_wr_ne _ _ _ _ (.inl h1)))

/-- Where the records of a snapshot go. -/
def Dev.smpBase (d : Dev) : Nat := d.rd F.SMP_SNAP_BASE_LO_BASE_LO * 4096 + d.rd F.SMP_SNAP_BASE_HI_BASE_HI * 2 ^ 32

theorem Dev.smpNoted_base : d.smpNoted.smpBase = d.smpBase := by
  rw [Dev.smpBase, Dev.smpNoted_rd _ (by decide) (by decide) (by decide), Dev.smpNoted_rd _ (by decide) (by decide) (by decide)]
  rfl

/-- The sampler starts its next window (R190). -/
def Dev.smpRestarted (d : Dev) : Dev :=
  let h := { d.home with logN := (d.rd F.SMP_CFG_LOG2_N_BULK, d.rd F.SMP_CFG_LOG2_N_NEAR) }
  let w := d.smpWindow
  let clear := d.rd F.SMP_SNAP_CMD_CLEAR == 1
  let h := if clear then { h with rdSmp := tblMinus h.rdSmp w.1, wrSmp := tblMinus h.wrSmp w.2.1 } else h
  { d with home := { h with smpPrev := (d.ns + 1, if clear then [] else w.1, if clear then [] else w.2.1, w.2.2) } }

theorem Dev.snapshot_idle (m : Master) (old v : Nat) (hidle : d.rd F.SMP_SNAP_STAT_BUSY = 0) :
    d.snapshot m old v = (d.smpNoted.smpSent d.smpNoted.smpBase 3232).smpRestarted := by
  have hbusy : ¬d.rd F.SMP_SNAP_STAT_BUSY = 1 := by omega
  unfold Dev.snapshot
  rw [if_neg hbusy]
  generalize 3232 = n
  rfl

theorem Dev.smpRestarted_frame (d : Dev) : d.smpRestarted.regs = d.regs ∧ d.smpRestarted.out = d.out := ⟨rfl, rfl⟩

theorem Dev.snapshot_frame (m : Master) (old v : Nat) (hidle : d.rd F.SMP_SNAP_STAT_BUSY = 0) :
    (d.snapshot m old v).regs = (d.smpNoted.smpSent d.smpNoted.smpBase 3232).regs ∧
      (d.snapshot m old v).out = (d.smpNoted.smpSent d.smpNoted.smpBase 3232).out := by
  rw [Dev.snapshot_idle m old v hidle]
  exact Dev.smpRestarted_frame _

theorem Dev.snapshot_sends (m : Master) (old v : Nat) (hidle : d.rd F.SMP_SNAP_STAT_BUSY = 0) (hperst : d.rd F.GLB_PIN_STAT_PERST = 0) :
    (d.snapshot m old v).rd F.SMP_SNAP_STAT_BUSY = 1 ∧
      (d.snapshot m old v).out = d.out ++ (List.range 3232).map (fun k => .hostWrite (d.smpBase + 16 * k) (d.smpRecord k)) := by
  obtain ⟨hregs, hout⟩ := Dev.snapshot_frame m old v hidle
  obtain ⟨hsr, -, hso⟩ := Dev.smpSent_leaves ((Dev.smpNoted_rd (d := d) _ (by decide) (by decide) (by decide)).trans hperst) d.smpNoted.smpBase 3232
  have hbusy : d.smpNoted.rd F.SMP_SNAP_STAT_BUSY = 1 := Dev.rd_wr_same _ _ _ (by decide)
  have hrec : ∀ k, d.smpNoted.smpRecord k = d.smpRecord k := Dev.smpRecord_congr rfl rfl
  have hkept : d.smpNoted.out = d.out := rfl
  refine ⟨(Dev.rdpi_congr (hregs.trans hsr) _ _ _).trans hbusy, hout.trans (hso.trans ?_)⟩
  simp only [Dev.smpNoted_base, hrec, hkept]

end

section
variable {m : Master} {s : State}

theorem snapshot_starts (hopen : pageOpen s.dev m 0x2C) (hown : s.dev.owns m 0x2C = true) (hidle : s.dev.rd F.SMP_SNAP_STAT_BUSY = 0)
    (hperst : s.dev.rd F.GLB_PIN_STAT_PERST = 0) (v : W32) :
    ∃ t, exec (.snapshot m v) s = .next t ∧ t.store = s.store ∧ t.dev.rd F.SMP_SNAP_STAT_BUSY = 1 ∧
      t.dev.out = s.dev.out ++ (List.range 3232).map (fun k => .hostWrite (s.dev.rd F.SMP_SNAP_BASE_LO_BASE_LO * 4096
        + s.dev.rd F.SMP_SNAP_BASE_HI_BASE_HI * 2 ^ 32 + 16 * k) (s.dev.smpRecord k)) := by
  have hflds : fieldsAt 0x2C 0x10C = [F.SMP_SNAP_CMD_CLEAR, F.SMP_SNAP_CMD_GO] := by decide
  have hwrite := homeRegister (s := s) (off := 0x10C) (v := putBit v.toNat 31 true) hopen hown (.inr rfl) (by decide) (by decide) (by decide)
    (putBit_lt true v.isLt (by decide)) (bit_putBit_same ..) (by simp [hflds, F.SMP_SNAP_CMD_CLEAR, F.SMP_SNAP_CMD_GO])
    (by simp [hflds, Fld.accepts, F.SMP_SNAP_CMD_CLEAR, F.SMP_SNAP_CMD_GO])
  generalize (tlp m s.dev).newWord ((tlp m s.dev).mayWrite m 0x2C 0x10C) 0x2C 0x10C (putBit v.toNat 31 true) = w at hwrite
  generalize s.dev.word (0x2C * 0x1000 + 0x10C) = old at hwrite
  have hother : ∀ f : Fld, f.addr f.page 0 ≠ 0x2C * 0x1000 + 0x10C → ((tlp m s.dev).setWord (0x2C * 0x1000 + 0x10C) w).rd f = s.dev.rd f :=
    fun f hf => (Dev.rd_of_word f (Dev.word_setWord_ne _ _ hf)).trans (tlp_rd m s.dev f)
  have hhome : ((tlp m s.dev).setWord (0x2C * 0x1000 + 0x10C) w).home = s.dev.home := tlp_home m s.dev
  have htim : ((tlp m s.dev).setWord (0x2C * 0x1000 + 0x10C) w).tim = s.dev.tim := tlp_tim m s.dev
  have hout : ((tlp m s.dev).setWord (0x2C * 0x1000 + 0x10C) w).out = s.dev.out := tlp_out m s.dev
  generalize (tlp m s.dev).setWord (0x2C * 0x1000 + 0x10C) w = d at hwrite hother hhome htim hout
  obtain ⟨hbusy, hsent⟩ := Dev.snapshot_sends m old (putBit v.toNat 31 true) ((hother _ (by decide)).trans hidle) ((hother _ (by decide)).trans hperst)
  have hgo : Pkg.homeWritten m 0x2C 0x10C old (putBit v.toNat 31 true) true (s.store, d) = (s.store, d.snapshot m old (putBit v.toNat 31 true)) := by
    simp [Pkg.homeWritten, F.SMP_SNAP_CMD_GO, Pkg.dev]
  rw [hgo] at hwrite
  refine ⟨_, hwrite, rfl, hbusy, ?_⟩
  refine hsent.trans ?_
  simp only [Dev.smpBase, hout, hother F.SMP_SNAP_BASE_LO_BASE_LO (by decide), hother F.SMP_SNAP_BASE_HI_BASE_HI (by decide), Dev.smpRecord_congr hhome htim]

theorem snapshotComplete_ends (hrun : s.dev.running = true) (hbusy : s.dev.rd F.SMP_SNAP_STAT_BUSY = 1) :
    ∃ t, exec .snapshotComplete s = .next t ∧ t.store = s.store ∧ t.dev.rd F.SMP_SNAP_STAT_BUSY = 0 ∧ bit (t.dev.word 0x2C014) 0 = true ∧
      t.dev.rd F.SMP_SNAP_STAT_DONE_COUNT = (s.dev.rd F.SMP_SNAP_STAT_DONE_COUNT + 1) % 65536 := by
  refine ⟨_, onDev_running hrun Dev.snapshotComplete, rfl, ?_⟩
  rw [show Dev.snapshotComplete s.dev = _ from if_pos hbusy]
  have hbusy' : F.SMP_SNAP_STAT_BUSY.addr 0x2C 0 ≠ 0x2C014 := by decide
  have hisr : ∀ e : Dev, bit ((e.event 0x2C 0).word (0x2C * 0x1000 + 0x14)) 0 = true := fun e => Dev.isr_event e 0x2C (by decide)
  refine ⟨?_, hisr _, ?_⟩
  · refine (Dev.rd_event _ _ _ _ (by decide)).trans ((Dev.rd_wr_ne _ _ _ _ (.inr (by decide))).trans ?_)
    exact (Dev.rd_wr_same _ _ _ (by decide)).trans rfl
  · refine (Dev.rd_event _ _ _ _ (by decide)).trans ((Dev.rd_wr_same _ _ _ (by decide)).trans ?_)
    rw [Dev.rd_wr_ne _ _ _ _ (.inr (by decide))]
    rfl

end
/-- Settles O38: the region commands at rest, and each patrol's next line, whose errors stand in the arrays until they are corrected. -/
theorem regionsAndUpkeep : Obligations.RegionsAndUpkeep := by
  refine ⟨fun src a s hrun hdom hq hqueue hfm halone hi => regionCommands src a s hrun hdom hq hqueue hfm halone hi,
    fun m v s hopen hown => homeBitmapClr_clears hopen hown v, fun off b m s hrun hdom hb => nearScrub_cases off b m s hrun hdom hb,
    fun off b m s hrun hdom hops => ?_, fun m v s hopen hown hq => ?_,
    fun m v s hopen hown hidle hperst => snapshot_starts hopen hown hidle hperst v, fun s hrun hbusy => snapshotComplete_ends hrun hbusy⟩
  · obtain ⟨hstop, hscrub⟩ := bulkScrub_cases off b m s hrun hdom hops
    exact ⟨hstop, hscrub, fun k => (correctionWriteback_cases k s hrun hdom hops).1, fun k => (correctionWriteback_cases k s hrun hdom hops).2,
      fun device bank => refresh_idle device bank s hrun hops⟩
  · exact ⟨fun h => bulkCfg_takes hopen hq h hown, fun hused hres => bulkCfg_holds hopen hown hq hused hres⟩

end Sys2Proof.Machine


/-!
SUPPORT. O35, the 64 bytes of a line: what AES-XTS makes of a line is a line (R184).
-/
namespace Sys2Proof.Machine.Aes

theorem length_xorAll {a b : List Nat} {n : Nat} (ha : a.length = n) (hb : b.length = n) : (xorAll a b).length = n := by
  simp [xorAll, ha, hb]

/-- The words of a key schedule so far: eight at least, each of four bytes. -/
def wordsOk (n : Nat) (ws : List (List Nat)) : Prop := ws.length = n ∧ ∀ w ∈ ws, w.length = 4

theorem nth_mem {ws : List (List Nat)} {i : Nat} (h : i < ws.length) : nth ws i [] ∈ ws := by
  rw [nth, List.getElem?_eq_getElem h]
  exact List.getElem_mem h

theorem nextWord_length {ws : List (List Nat)} {n : Nat} (h : wordsOk n ws) (hn : 8 ≤ n) (i : Nat) : (nextWord ws i).length = 4 := by
  obtain ⟨hlen, hall⟩ := h
  have hlast := hall _ (nth_mem (i := 0) (by omega))
  have hold := hall _ (nth_mem (i := 7) (by omega))
  unfold nextWord
  dsimp only
  split_ifs
  · exact length_xorAll hold (length_xorAll (by simp [hlast]) rfl)
  · exact length_xorAll hold (by simp [hlast])
  · exact length_xorAll hold hlast

theorem schedule_ok {w0 : List (List Nat)} (h : wordsOk 8 w0) (n : Nat) :
    wordsOk (8 + n) ((List.range n).foldl (fun ws i => nextWord ws (i + 8) :: ws) w0) := by
  induction n with
  | zero => exact h
  | succ n ih =>
    rw [List.range_succ, List.foldl_append]
    refine ⟨?_, fun w hw => ?_⟩
    · simp [ih.1]
      omega
    · rcases List.mem_cons.1 hw with rfl | hw
      · exact nextWord_length ih (by omega) _
      · exact ih.2 w hw

theorem flatten_length_four {l : List (List Nat)} (h : ∀ w ∈ l, w.length = 4) : l.flatten.length = 4 * l.length := by
  induction l with
  | nil => rfl
  | cons w l ih =>
    rw [List.flatten_cons, List.length_append, ih fun w hw => h w (List.mem_cons_of_mem _ hw), h w List.mem_cons_self, List.length_cons]
    omega

/-- A round key has 16 bytes. -/
theorem roundKey_length {key : List Nat} (hkey : key.length = 32) {r : Nat} (hr : r < 15) : (nth (roundKeys key) r []).length = 16 := by
  have hw0 : wordsOk 8 ((List.range 8).map (fun i => (key.drop (4 * i)).take 4)).reverse := by
    refine ⟨by simp, fun w hw => ?_⟩
    obtain ⟨i, hi, rfl⟩ := List.mem_map.1 (List.mem_reverse.1 hw)
    rw [List.length_take, List.length_drop, hkey]
    have := List.mem_range.1 hi
    omega
  obtain ⟨hlen, hall⟩ := schedule_ok hw0 52
  unfold roundKeys
  dsimp only
  generalize (List.range 52).foldl (fun ws i => nextWord ws (i + 8) :: ws) _ = ws at hlen hall ⊢
  rw [nth, List.getElem?_map, List.getElem?_range hr]
  show ((ws.reverse.drop (4 * r)).take 4).flatten.length = 16
  rw [flatten_length_four fun w hw => hall w (List.mem_reverse.1 (List.mem_of_mem_drop (List.mem_of_mem_take hw))), List.length_take,
    List.length_drop, List.length_reverse, hlen]
  omega

theorem encBlock_length {key : List Nat} (hkey : key.length = 32) (p : List Nat) : (encBlock (roundKeys key) p).length = 16 :=
  length_xorAll (by simp [permute]) (roundKey_length hkey (by decide))

theorem decBlock_length {key : List Nat} (hkey : key.length = 32) (p : List Nat) : (decBlock (roundKeys key) p).length = 16 :=
  length_xorAll (by simp [permute]) (roundKey_length hkey (by decide))

theorem xts_length {f : List (List Nat) → List Nat → List Nat} {key : List Nat}
    (hf : ∀ p, (f (roundKeys (key.take 32)) p).length = 16) (unit : Nat) (v : List Nat) : (xts f key unit v).length = 64 := by
  have hbytes : ∀ t, (toBytes 16 t).length = 16 := fun t => by simp [toBytes]
  have hblock : ∀ p t, (xorAll (f (roundKeys (key.take 32)) p) (toBytes 16 t)).length = 16 := fun p t => length_xorAll (hf p) (hbytes t)
  unfold xts
  rw [show List.range 4 = [0, 1, 2, 3] from rfl]
  simp only [List.foldl_cons, List.foldl_nil, List.length_append, hblock, List.length_nil]

end Sys2Proof.Machine.Aes

namespace Sys2Proof.Machine

theorem encLine_length (key unit : Nat) (v : List Byte) : (encLine key unit v).length = 64 := by
  rw [encLine, xtsLine, List.length_map]
  exact Aes.xts_length (Aes.encBlock_length (by simp [Aes.toBytes])) _ _

theorem decLine_length (key unit : Nat) (v : List Byte) : (decLine key unit v).length = 64 := by
  rw [decLine, xtsLine, List.length_map]
  exact Aes.xts_length (Aes.decBlock_length (by simp [Aes.toBytes])) _ _

theorem regionLine_length (r : Region) (i : Nat) : (regionLine r i).length = 64 := by
  unfold regionLine
  split <;> exact natLE_length _ _

theorem Dev.tableLine_length (d : Dev) (i : Nat) : (d.tableLine i).length = 64 := by
  unfold Dev.tableLine extEntLine
  split_ifs
  · split <;> exact natLE_length _ _
  · exact List.length_replicate
  · exact regionLine_length _ _

theorem Pkg.lineBytes_length (x : Pkg) (l : Nat) : (x.lineBytes l).length = 64 := by
  unfold Pkg.lineBytes
  split
  · exact Dev.tableLine_length _ _
  · simp [Store.bytes]

theorem Pkg.cipher_length (x : Pkg) (l : Nat) : (x.cipher l).length = 64 := by
  unfold Pkg.cipher
  split
  · exact x.lineBytes_length l
  · exact encLine_length _ _ _
  · exact encLine_length _ _ _
  · exact natLE_length _ _

/-- A line reads as 64 bytes, under any cover. -/
theorem Pkg.plain_length (x : Pkg) (l : Nat) (c : Cover) : (x.plain l c).length = 64 := by
  unfold Pkg.plain
  split
  · exact x.lineBytes_length l
  · split
    · exact x.cipher_length l
    · exact decLine_length _ _ _
    · exact decLine_length _ _ _
    · exact x.cipher_length l

end Sys2Proof.Machine


/-!
SUPPORT. O35 and O34, a write at its home from its admission to an operation that stands ready: its lines' old bytes overlaid with the new.
-/
namespace Sys2Proof.Machine

/-! ### Bytes of whole lines -/

theorem overlay_length (l : List Byte) (off : Nat) (v : List Byte) : (overlay l off v).length = l.length := by
  simp only [overlay, List.length_take, List.length_append, List.length_drop]
  omega

theorem sliceBytes_full {l : List Byte} {off len : Nat} (h : off + len ≤ l.length) : sliceBytes l off len = (l.drop off).take len := by
  have hlen : ((l.drop off).take len).length = len := by
    rw [List.length_take, List.length_drop]
    omega
  simp [sliceBytes, hlen]

/-- Bytes cut into lines. -/
theorem flatMap_lines (n : Nat) (l : List Byte) (h : l.length = 64 * n) : (List.range n).flatMap (fun i => sliceBytes l (64 * i) 64) = l := by
  induction n generalizing l with
  | zero => exact (List.length_eq_zero_iff.1 (by omega)).symm
  | succ n ih =>
    have hdrop : (l.drop 64).length = 64 * n := by rw [List.length_drop]; omega
    have hrest : ∀ i, sliceBytes l (64 * (i + 1)) 64 = sliceBytes (l.drop 64) (64 * i) 64 := fun i => by
      simp only [sliceBytes, List.drop_drop]
      rw [show 64 * (i + 1) = 64 + 64 * i by omega]
    rw [List.range_succ_eq_map, List.flatMap_cons, List.flatMap_map]
    simp only [Nat.succ_eq_add_one, hrest, ih _ hdrop]
    rw [sliceBytes_full (by omega), Nat.mul_zero, List.drop_zero, List.take_append_drop]

/-- What a slice of the bytes overlaid reads. -/
theorem slice_overlay {l v : List Byte} {off : Nat} (h : off + v.length ≤ l.length) : sliceBytes (overlay l off v) off v.length = v := by
  rw [sliceBytes_full (by rw [overlay_length]; exact h), overlay, List.drop_take, List.take_take, List.append_assoc]
  have hoff : (l.take off).length = off := by rw [List.length_take]; omega
  rw [List.drop_append_of_le_length (by omega), List.drop_of_length_le (by omega), List.nil_append, List.take_append_of_le_length (by omega),
    List.take_of_length_le (by omega)]

theorem flatten_length_of {l : List (List Byte)} (h : ∀ w ∈ l, w.length = 64) : l.flatten.length = 64 * l.length := by
  induction l with
  | nil => rfl
  | cons w l ih =>
    rw [List.flatten_cons, List.length_append, ih fun w hw => h w (List.mem_cons_of_mem _ hw), h w List.mem_cons_self, List.length_cons]
    omega

/-! ### An operation with its lines -/

section
variable {d : Dev} {o : HOp}

theorem Dev.setOp_alone {p : HOp} (h : d.home.ops = [p]) (hid : p.id = o.id) : (d.setOp o).home.ops = [o] := by
  simp [Dev.setOp, h, mapFirst, hid]

/-- Forming the new bytes draws free values and counts at most. -/
theorem Dev.aside_newBytes (d : Dev) (o : HOp) (old : List Byte) : d.Aside (d.newBytes o old).2 := by
  unfold Dev.newBytes
  dsimp only
  split
  · exact .refl d
  · exact (d.aside_freeCtr _).trans (List.foldlRecOn (motive := fun e : Dev => Dev.Aside _ e) _ _ (.refl _) fun e he ev _ => he.trans (Dev.aside_count ..))
  · split <;> exact .refl d
  · exact .refl d

/-- The lines that an operation writes once their bytes are formed (R183, R185). -/
theorem Dev.newLines_ws {olds : List (List Byte)} (d : Dev) (o : HOp) (holds : ∀ w ∈ olds, w.length = 64) (hlen : olds.length = o.ws.length) :
    let span := spanBytes o.gpa o.len olds
    let q := (d.newLines o olds).1
    (d.newLines o olds).2 = (d.newBytes o span).2 ∧ q.ws.map (·.line) = o.ws.map (·.line) ∧
      q.ws.flatMap (·.bytes) = overlay olds.flatten (o.gpa % 64) (d.newBytes o span).1 ∧ q.id = o.id ∧ q.gpa = o.gpa ∧ q.kind = o.kind ∧ q.req = o.req ∧
      q.status = o.status ∧ q.node = o.node ∧ q.ext = o.ext ∧ q.akind = o.akind := by
  intro span q
  refine ⟨rfl, ?_, ?_, rfl, rfl, rfl, rfl, rfl, rfl, rfl, rfl⟩
  · simp only [q, Dev.newLines, List.map_map, Function.comp_def]
    exact (List.map_map (f := Prod.fst) (g := LineW.line) (l := o.ws.zipIdx)).symm.trans (by rw [List.zipIdx_map_fst])
  · have hflat : (overlay olds.flatten (o.gpa % 64) (d.newBytes o span).1).length = 64 * o.ws.length := by
      rw [overlay_length, flatten_length_of holds, hlen]
    have hindex : ∀ g : Nat → List Byte, o.ws.zipIdx.flatMap (fun p => g p.2) = (List.range o.ws.length).flatMap g := fun g => by
      rw [← List.flatMap_map (f := Prod.snd), List.zipIdx_map_snd, List.range_eq_range']
    rw [← flatMap_lines _ _ hflat]
    simp only [q, Dev.newLines, List.flatMap_map]
    exact hindex (fun i => sliceBytes (overlay olds.flatten (o.gpa % 64) (d.newBytes o span).1) (64 * i) 64)

end

/-! ### Stage 5 without a partner -/

section
variable {x : Pkg} {o : HOp}

theorem Pkg.protect_alone (halone : x.2.rd F.PROT_CFG_PARTNER_EN = 0) (hmode : (x.2.protOf o.node o.ext).mode ≠ 1) :
    x.protect o = (x.1, x.2.setOp { o with phase := .ready }) := by
  unfold Pkg.protect
  dsimp only
  rw [Dev.mirrorExt_alone halone, Dev.partnerOn_alone halone]
  simp only [Bool.false_eq_true, false_and, if_false, Dev.pastJournal, hmode]

end

/-! ### Stage 4 (R164, R170, R183, R199) -/

/-- A line that an operation writes, before its bytes are formed, under the key `c` of its line. -/
def lineOf (c : Option (Nat × Nat) × Bool) (l : Nat) : LineW := ⟨l, some (l % 2 ^ 39), c.1, c.2, [], none⟩

/-- The lines of `len` bytes at `gpa` as they read, each under its own key. -/
def Pkg.olds (x : Pkg) (key : Nat → Option (Nat × Nat) × Bool) (gpa len : Nat) : List (List Byte) :=
  (linesOf gpa len).map (fun l => x.plain (l % 2 ^ 39) ((lineOf (key l) l).cover (l % 2 ^ 39)))

/-- Reading whole lines leaves what the home looks at, and makes no line worse. -/
theorem Dev.silent_readFixes (d : Dev) (ls : List Nat) :
    d.Silent (ls.foldl (fun (d : Dev) l => (d.checkBurst false l).readFix l) d) :=
  List.foldlRecOn (motive := fun e : Dev => d.Silent e) _ _ (.refl d) fun e he l _ => he.trans (e.silent_readBurst (l, List.range 8))

/-- A write of one's own memory outside a parity group, whose new lines are formed, stands ready. -/
theorem Pkg.formLines_alone {x : Pkg} {o p : HOp} {olds : List (List Byte)} (hst : x.2.stands o.node = false)
    (halone : x.2.rd F.PROT_CFG_PARTNER_EN = 0) (hmode : (x.2.prot o.ext).mode ≠ 1) (hops : x.2.home.ops = [p]) (hid : p.id = o.id)
    (holds : ∀ w ∈ olds, w.length = 64) (hlen : olds.length = o.ws.length) :
    ∃ (d : Dev) (q : HOp), Pkg.formLines o olds x = (x.1, d) ∧ d.home.ops = [q] ∧ q.phase = .ready ∧ q.req = o.req ∧ q.status = o.status ∧
      q.kind = o.kind ∧ q.gpa = o.gpa ∧ q.ws.map (·.line) = o.ws.map (·.line) ∧
      q.ws.flatMap (·.bytes) = overlay olds.flatten (o.gpa % 64) (x.2.newBytes o (spanBytes o.gpa o.len olds)).1 ∧
      d.home.ord = x.2.home.ord ∧ d.home.store = x.2.home.store ∧ d.home.queue = x.2.home.queue := by
  obtain ⟨hdev, hlines, hbytes, hqid, hqgpa, hqkind, hqreq, hqst, hqnode, hqext, -⟩ := x.2.newLines_ws o holds hlen
  have hk := (x.2.aside_newBytes o (spanBytes o.gpa o.len olds)).toKept
  rw [← hdev] at hk
  unfold Pkg.formLines
  dsimp only
  generalize x.2.newLines o olds = r at hdev hlines hbytes hqid hqgpa hqkind hqreq hqst hqnode hqext hk ⊢
  have hset : (r.2.setOp r.1).home.ops = [r.1] := Dev.setOp_alone (hk.ops.trans hops) (hid.trans hqid.symm)
  have hprot : ((r.2.setOp r.1).protOf r.1.node r.1.ext).mode ≠ 1 := by
    have hown : r.2.protOf r.1.node r.1.ext = x.2.prot o.ext := by
      rw [hqnode, hqext, Dev.protOf_own ((hk.stands _).trans hst), hk.prot]
    exact (congrArg (fun p : ProtEnt => p.mode ≠ 1) hown).mpr hmode
  have hen : (r.2.setOp r.1).rd F.PROT_CFG_PARTNER_EN = 0 := (hk.rd _ (by decide) (by decide)).trans halone
  rw [Pkg.protect_alone (x := (x.1, r.2.setOp r.1)) hen hprot]
  exact ⟨_, _, rfl, Dev.setOp_alone hset rfl, rfl, hqreq, hqst, hqkind, hqgpa, hlines, hbytes, hk.home Home.ord fun _ => rfl,
    hk.home Home.store fun _ => rfl, hk.queue⟩

section
variable {x : Pkg} {n gpa len k srcGpa st : Nat} {r : Req} {kind : AKind} {hk : HKind} {key : Nat → Option (Nat × Nat) × Bool}

/-- An admitted write to the package's own memory outside a parity group stands ready, with its lines formed. -/
theorem Pkg.startWrite_ready (hst : x.2.stands n = false) (hext : (x.2.ext k).state = st) (hkey : ∀ l, x.lineKey st l = some (key l))
    (hset : ¬((st = 1 ∨ st = 2) ∧ (x.2.prot k).mode = 0)) (hmode : (x.2.prot k).mode ≠ 1) (halone : x.2.rd F.PROT_CFG_PARTNER_EN = 0)
    (hops : x.2.home.ops = []) (hgood : ∀ l ∈ linesOf gpa len, x.2.lineErr (l % 2 ^ 39) ≠ 2) :
    ∃ (d e : Dev) (o : HOp), x.startWrite n r kind [] srcGpa gpa len k hk = (x.1, d) ∧ d.home.ops = [o] ∧ o.phase = .ready ∧ o.req = r ∧ o.status = sOk ∧
      o.kind = hk ∧ o.gpa = gpa ∧ o.ws.map (·.line) = linesOf gpa len ∧ e.sec = x.2.sec ∧
      o.ws.flatMap (·.bytes) = overlay (x.olds key gpa len).flatten (gpa % 64)
        (e.newBytes (blankOp n r kind srcGpa gpa len k) (spanBytes gpa len (x.olds key gpa len))).1 ∧
      d.home.ord = x.2.home.ord ∧ d.home.store = x.2.home.store ∧ d.home.queue = x.2.home.queue := by
  have hprot : x.2.protOf n k = x.2.prot k := Dev.protOf_own hst k
  have hstrike : ∀ ls, Dev.strike ls [] x.2 = x.2 := fun ls => by simp [Dev.strike]
  have hpart : ((x.2.prot k).mode == 1) = false := by simp [hmode]
  have hline : ∀ l, (⟨l, some (l % 2 ^ 39), (key l).1, (key l).2, [], none⟩ : LineW) = lineOf (key l) l := fun _ => rfl
  have hnone : ((((linesOf gpa len).map (fun l => lineOf (key l) l)).filter (fun w => !coversLine r gpa len kind w.line)).filterMap
      (·.phys)).find? (fun l => x.2.lineErr l == 2) = none := by
    refine List.find?_eq_none.2 fun q hq => ?_
    obtain ⟨w, hw, hwq⟩ := List.mem_filterMap.1 hq
    obtain ⟨l, hl, rfl⟩ := List.mem_map.1 (List.mem_filter.1 hw).1
    obtain rfl : l % 2 ^ 39 = q := Option.some.inj hwq
    simpa using hgood l hl
  unfold Pkg.startWrite
  rw [Pkg.extOf_own hst, hprot, hext]
  simp only [hkey, if_neg hset, hst, Dev.physOf_own hst, Bool.false_eq_true, false_and, if_false, Pkg.dev, hstrike, hpart, Bool.false_and,
    Option.getD_some, hline, hnone]
  have hkept := (x.2.silent_readFixes (((((linesOf gpa len).map (fun l => lineOf (key l) l)).filter (fun w => !coversLine r gpa len kind w.line)).filterMap
      (·.phys)))).toKept
  generalize List.foldl (fun (d : Dev) l => (d.checkBurst false l).readFix l) x.2 _ = c at hkept ⊢
  generalize hws : List.map (fun (w : LineW) => ({ w with old := some ((Option.map (Pkg.cipher (x.1, c)) w.phys).getD []) } : LineW))
    ((linesOf gpa len).map (fun l => lineOf (key l) l)) = ws
  have holds : ws.map (fun w => (Option.map (fun q => Pkg.plain (x.1, c) q (w.cover q)) w.phys).getD (List.replicate 64 0)) =
      x.olds key gpa len := by
    rw [← hws, List.map_map, List.map_map, Pkg.olds]
    exact List.map_congr_left fun l _ => hkept.plain _ _ _
  have hlines : ws.map (·.line) = linesOf gpa len := by
    rw [← hws]
    simp [lineOf, Function.comp_def]
  have hlen : ∀ w ∈ x.olds key gpa len, w.length = 64 := by
    intro w hw
    obtain ⟨l, -, rfl⟩ := List.mem_map.1 hw
    exact x.plain_length _ _
  have hcount : (x.olds key gpa len).length = ws.length := by
    rw [← List.length_map (as := ws) (f := fun w => w.line), hlines, Pkg.olds, List.length_map]
  rw [holds]
  have hadd : (c.addOp { blankOp n r kind srcGpa gpa len k with kind := hk, ws := ws }).2.home.ops =
      [{ blankOp n r kind srcGpa gpa len k with id := c.home.nextOp, kind := hk, ws := ws }] := by
    rw [Dev.addOp, hkept.ops, hops]
    rfl
  obtain ⟨d, q, hform, hqops, hphase, hreq, hstat, hkind, hgpa, hline', hbytes, hord, hstore, hqueue⟩ := Pkg.formLines_alone
    (x := (x.1, (c.addOp { blankOp n r kind srcGpa gpa len k with kind := hk, ws := ws }).2))
    (o := (c.addOp { blankOp n r kind srcGpa gpa len k with kind := hk, ws := ws }).1) (olds := x.olds key gpa len)
    ((hkept.stands n).trans hst) ((hkept.rd _ (by decide) (by decide)).trans halone) ((congrArg ProtEnt.mode (hkept.prot k)).trans_ne hmode) hadd rfl hlen hcount
  exact ⟨d, (c.addOp { blankOp n r kind srcGpa gpa len k with kind := hk, ws := ws }).2, q, hform, hqops, hphase, hreq, hstat, hkind, hgpa,
    hline'.trans hlines, hkept.sec, hbytes, hord.trans (hkept.home Home.ord fun _ => rfl),
    hstore.trans (hkept.home Home.store fun _ => rfl), hqueue.trans hkept.queue⟩

end

/-! ### Through the queue (R127) -/

section
variable {x : Pkg} {i : HItem}

/-- A pass over the one item that nothing holds starts it. -/
theorem Pkg.pumpPass_item (hq : x.2.home.queue = [i]) (hread : i.isRead = false) (hwait : (x.withQueue []).2.itemWaits [] i = false) :
    x.pumpPass = ((x.withQueue []).startItem i).withQueue ((x.withQueue []).startItem i).2.home.queue := by
  unfold Pkg.pumpPass
  rw [hq]
  simp only [List.foldl_cons, List.foldl_nil]
  simp only [Pkg.withQueue] at hwait
  cases i with
  | read => exact absurd hread (by simp [HItem.isRead])
  | page => exact absurd hread (by simp [HItem.isRead])
  | _ =>
    simp only [hwait, HItem.isPage]
    rfl

/-- An item that nothing holds is started at once. -/
theorem Pkg.enqueue_item (hq : x.2.home.queue = []) (hread : i.isRead = false) (hwait : x.2.itemWaits [] i = false)
    (hkeep : (x.startItem i).2.home.queue = []) : Pkg.enqueue i x = x.startItem i := by
  have hstart : (x.withQueue [i]).withQueue [] = x := Pkg.withQueue_self hq
  have hpass : (x.withQueue [i]).pumpPass = x.startItem i := by
    rw [Pkg.pumpPass_item rfl hread (by rw [hstart]; exact hwait), hstart]
    exact Pkg.withQueue_self rfl
  rw [Pkg.enqueue_eq, hq, List.nil_append]
  change Pkg.pumpN (10 + 1) _ = _
  unfold Pkg.pumpN
  dsimp only
  rw [hpass, hkeep, if_neg (by simp [Pkg.withQueue])]
  unfold Pkg.pumpN
  dsimp only
  rw [Pkg.pumpPass_nil hkeep, if_pos rfl]

/-- Nothing holds an item of a home with nothing in hand whose lines have power. -/
theorem Dev.itemWaits_alone {d : Dev} (hops : d.home.ops = []) (hholds : d.home.rcHolds = []) (hrecons : d.home.recons = [])
    (hpow : ∀ l ∈ i.lines d, ∀ q, d.physOf (i.node d) l = some q → d.linePowered q = true) : d.itemWaits [] i = false := by
  simp only [Dev.itemWaits, Dev.opLines, hops, Dev.rcLines, hholds, hrecons, meets, List.filter_nil, List.flatMap_nil, List.map_nil,
    List.append_nil, List.contains_nil, List.any_nil, Bool.or_eq_false_iff, List.any_eq_false]
  refine ⟨by simp, fun l hl => ?_⟩
  split
  · next q hq => simp [hpow l hl q hq]
  · simp

end

/-! ### The grant check of a write (R64, R67) -/

section
variable {x : Pkg} {h : Hdr} {gpa : Nat} {k : AKind}

theorem Pkg.grantCheck_ok (hgpa : gpaOk gpa = true) (htable : isTableLine (gpa / 64 % 2 ^ 39) = false) (hk : k ≠ .table)
    (ht : x.2.ticketOk h.ticket = true) (he : (x.2.ext (gpaExt gpa)).state = 1)
    (hb : bit (rightMap k (x.2.ext (gpaExt gpa)).bm) h.reqLanding = true) : x.grantCheck x.2.node h k gpa = (sOk, x.2) := by
  unfold Pkg.grantCheck
  simp only [Pkg.extOf_own x.2.stands_node, htable]
  simp [hgpa, hk, ht, he, hb]

end

/-! ### A write taken from its pair -/

section
variable {r : Req} {s : State} {kind : AKind} {len src key : Nat}

theorem manDiff_self (a : Nat) : manDiff a a = 0 := by
  simp only [manDiff]
  omega

/-- What a manifest number leaves that is taken with no write held (R137). -/
theorem Dev.takeMan_frame {d : Dev} (hstore : d.home.store = []) (n src eng : Nat) :
    (d.takeMan n src eng).home.store = [] ∧ (d.takeMan n src eng).home.queue = d.home.queue ∧ (d.takeMan n src eng).home.ops = d.home.ops ∧
    (d.takeMan n src eng).home.rcHolds = d.home.rcHolds ∧ (d.takeMan n src eng).home.recons = d.home.recons ∧
    ((d.takeMan n src eng).ord (d.ordKey n src eng)).expect = ((d.ord (d.ordKey n src eng)).expect + 1) % 65536 := by
  refine ⟨?_, rfl, rfl, rfl, rfl, ?_⟩
  · exact (congrArg (List.filter _) hstore).trans rfl
  · exact congrArg OrdEnt.expect ((Dev.ord_setOrd ..).trans (if_pos rfl))

/-- What a write needs to stand ready at once: the rules and the grant check pass (R64, R67), nothing else is in hand at the home, its lines
have power and good words, and its extent is in no parity group. -/
structure Pkg.Grants (x : Pkg) (r : Req) (kind : AKind) (len : Nat) : Prop where
  pte : kind ≠ .pteWrite
  tab : kind ≠ .table
  rule : ruleBroken r kind = none
  bytes : len = if kind = .reduce then reduceBytes r.opd.mfmt r.opd.cfmt (opdLen r.opd) else opdLen r.opd
  gpa : gpaOk r.gpa = true
  table : isTableLine (r.gpa / 64 % 2 ^ 39) = false
  ticket : x.2.ticketOk r.hdr.ticket = true
  live : (x.2.ext r.ext).state = 1
  right : bit (rightMap kind (x.2.ext r.ext).bm) r.hdr.reqLanding = true
  queue : x.2.home.queue = []
  ops : x.2.home.ops = []
  holds : x.2.home.rcHolds = []
  recons : x.2.home.recons = []
  power : ∀ l ∈ linesOf r.gpa len, x.2.linePowered (l % 2 ^ 39) = true
  good : ∀ l ∈ linesOf r.gpa len, x.2.lineErr (l % 2 ^ 39) ≠ 2
  mode : (x.2.prot r.ext).mode = 3 ∨ (x.2.prot r.ext).mode = 4
  alone : x.2.rd F.PROT_CFG_PARTNER_EN = 0

/-- Such a write passes the rules, the grant check and the queue (R64, R67, R118, R127). -/
theorem Pkg.takePool_admits {x : Pkg} (h : x.Grants r kind len) {y : Pkg}
    (hy : Pkg.startWrite x.2.node r kind [] src r.gpa len r.ext .write (x.1, x.2.admitted x.2.node r.hdr r.image kind r.gpa) = y)
    (hkeep : y.2.home.queue = []) : x.takePool x.2.node r kind [] src = y := by
  have hk := (x.2.admitted_kept x.2.node r.hdr r.image kind r.gpa).1
  have hwait : (x.2.admitted x.2.node r.hdr r.image kind r.gpa).itemWaits [] (.write x.2.node r kind [] src r.gpa len r.ext) = false := by
    refine Dev.itemWaits_alone (hk.ops.trans h.ops) ((hk.home Home.rcHolds fun _ => rfl).trans h.holds)
      ((hk.home Home.recons fun _ => rfl).trans h.recons) fun l hl q hlq => ?_
    obtain rfl := Option.some.inj ((Dev.physOf_own ((hk.stands _).trans x.2.stands_node) l).symm.trans hlq)
    exact (hk.linePowered _).trans (h.power l hl)
  subst hy
  refine Eq.trans ?_ (Pkg.enqueue_item (x := (x.1, x.2.admitted x.2.node r.hdr r.image kind r.gpa))
    (i := .write x.2.node r kind [] src r.gpa len r.ext) (hk.queue.trans h.queue) rfl hwait hkeep)
  unfold Pkg.takePool
  rw [if_neg h.pte, h.rule]
  dsimp only
  rw [show r.opd.addr % 2 ^ 52 = r.gpa from rfl, Pkg.grantCheck_ok h.gpa h.table h.tab h.ticket h.live h.right, if_neg (by simp), ← h.bytes]
  rfl

/-- It stands ready, its lines overlaid with its new bytes. -/
theorem Pkg.takePool_ready {x : Pkg} (h : x.Grants r kind len) (hact : x.2.sec.active = some key) :
    ∃ (d e : Dev) (o : HOp), x.takePool x.2.node r kind [] src = (x.1, d) ∧ d.home.ops = [o] ∧ o.phase = .ready ∧ o.req = r ∧ o.status = sOk ∧
      o.ws.map (·.line) = linesOf r.gpa len ∧ e.sec = x.2.sec ∧
      o.ws.flatMap (·.bytes) = overlay (x.olds (fun l => (some (key, l), false)) r.gpa len).flatten (r.gpa % 64)
        (e.newBytes (blankOp x.2.node r kind src r.gpa len r.ext)
          (spanBytes r.gpa len (x.olds (fun l => (some (key, l), false)) r.gpa len))).1 ∧
      d.home.ord = x.2.home.ord ∧ d.home.store = x.2.home.store ∧ d.home.queue = [] := by
  obtain ⟨hk, herr⟩ := x.2.admitted_kept x.2.node r.hdr r.image kind r.gpa
  have holds : Pkg.olds (x.1, x.2.admitted x.2.node r.hdr r.image kind r.gpa) (fun l => (some (key, l), false)) r.gpa len =
      x.olds (fun l => (some (key, l), false)) r.gpa len := List.map_congr_left fun l _ => hk.plain _ _ _
  have hmode := h.mode
  rw [← hk.prot] at hmode
  have hadmit := fun y => Pkg.takePool_admits (src := src) (y := y) h
  generalize x.2.admitted x.2.node r.hdr r.image kind r.gpa = a at hk herr holds hmode hadmit
  obtain ⟨d, e, o, hstart, hops, hphase, hreq, hstat, -, -, hlines, hsec, hbytes, hord, hstore, hqueue⟩ :=
    Pkg.startWrite_ready (x := (x.1, a)) (n := x.2.node) (gpa := r.gpa) (len := len) (k := r.ext) (srcGpa := src) (st := 1) (r := r) (kind := kind)
      (hk := .write) (key := fun l => (some (key, l), false)) ((hk.stands _).trans x.2.stands_node)
      ((congrArg ExtEnt.state (hk.ext _)).trans h.live) (fun l => by simp [Pkg.lineKey, hk.sec, hact]) (by rcases hmode with hm | hm <;> simp [hm])
      (by rcases hmode with hm | hm <;> simp [hm])
      ((hk.rd _ (by decide) (by decide)).trans h.alone) (hk.ops.trans h.ops) (fun l hl => (herr _ _).trans_ne (h.good l hl))
  rw [holds] at hbytes
  exact ⟨d, e, o, hadmit _ hstart (hqueue.trans (hk.queue.trans h.queue)), hops, hphase, hreq, hstat, hlines, hsec.trans hk.sec, hbytes,
    hord.trans (hk.home Home.ord fun _ => rfl), hstore.trans (hk.home Home.store fun _ => rfl), hqueue.trans (hk.queue.trans h.queue)⟩

/-- As far as the rules and the grant check go, the taking of the manifest number changes nothing. -/
theorem Dev.grants_takeMan {d : Dev} {m : Store} (n eng sn : Nat) (h : Pkg.Grants (m, d) r kind len) :
    Pkg.Grants (m, d.takeMan n sn eng) r kind len :=
  ⟨h.pte, h.tab, h.rule, h.bytes, h.gpa, h.table, h.ticket, h.live, h.right, h.queue, h.ops, h.holds, h.recons, h.power, h.good, h.mode, h.alone⟩

theorem exec_poolWrite {f : Pkg → Pkg} (hup : homeUp s) {i : Instr} (hi : exec i s = onPkg f s) {d : Dev} (hf : f (s.store, s.dev) = (s.store, d)) :
    exec i s = .next { s with dev := d } := by
  obtain ⟨⟨hrun, hdom, -⟩, -⟩ := hup
  exact hi.trans (onPkg_leaves hrun hdom hf)

/-- A granted write that is the next of its pair stands ready at once, its lines overlaid with its new bytes. -/
theorem poolWrite_ready (hup : homeUp s) (hnext : nextOfPair r s) (hact : s.dev.sec.active = some key) (hn : gpaNode r.opd.addr = s.dev.node)
    (h : Pkg.Grants (s.store, s.dev) r kind len) :
    ∃ (d e : Dev) (o : HOp), Pkg.poolWrite kind r src [] (s.store, s.dev) = (s.store, d) ∧
      (d.ord (s.dev.ordKey s.dev.node r.hdr.srcNode r.hdr.srcEngine)).expect = (r.hdr.manifest + 1) % 65536 ∧
      d.home.ops = [o] ∧ o.phase = .ready ∧ o.req = r ∧ o.status = sOk ∧ o.ws.map (·.line) = linesOf r.gpa len ∧ e.sec = s.dev.sec ∧
      o.ws.flatMap (·.bytes) = overlay (oldLines r len key s).flatten (r.gpa % 64)
        (e.newBytes (blankOp s.dev.node r kind src r.gpa len r.ext) (spanBytes r.gpa len (oldLines r len key s))).1 := by
  obtain ⟨⟨-, -, -, -, -, -, -, hstore, -⟩, -⟩ := id hup
  obtain ⟨hst, hexp, -⟩ := hnext
  obtain ⟨hmstore, -, -, -, -, hmexp⟩ := Dev.takeMan_frame hstore s.dev.node r.hdr.srcNode r.hdr.srcEngine
  have hact' : s.dev.orderAct s.dev.node r.hdr.srcNode r.hdr.srcEngine r.hdr.manifest = .take :=
    orderAct_take hst (by rw [hexp]; exact manDiff_self _)
  have hgrants := Dev.grants_takeMan s.dev.node r.hdr.srcEngine r.hdr.srcNode h
  have holds : Pkg.olds (s.store, s.dev.takeMan s.dev.node r.hdr.srcNode r.hdr.srcEngine) (fun l => (some (key, l), false)) r.gpa len =
      oldLines r len key s := rfl
  have hnode : (s.dev.takeMan s.dev.node r.hdr.srcNode r.hdr.srcEngine).node = s.dev.node := rfl
  have hsec' : (s.dev.takeMan s.dev.node r.hdr.srcNode r.hdr.srcEngine).sec = s.dev.sec := rfl
  have hwr : Pkg.takeWr s.dev.node (.pool r kind [] src) (s.store, s.dev) =
      Pkg.takePool s.dev.node r kind [] src (s.store, s.dev.takeMan s.dev.node r.hdr.srcNode r.hdr.srcEngine) := rfl
  have horder := poolWrite_own hup (kind := kind) (by rw [if_neg h.pte]) hn src []
  generalize s.dev.takeMan s.dev.node r.hdr.srcNode r.hdr.srcEngine = m at hmstore hmexp hgrants holds hnode hsec' hwr
  obtain ⟨d, e, o, htake, hops, hphase, hreq, hstat, hlines, hsec, hbytes, hord, hs, hq⟩ :=
    Pkg.takePool_ready (src := src) hgrants ((congrArg Sec.active hsec').trans hact)
  rw [holds, hnode] at hbytes
  rw [hnode] at htake
  refine ⟨d, e, o, horder.trans ?_, (congrArg OrdEnt.expect (?_ : d.ord _ = m.ord _)).trans (hmexp.trans (by rw [hexp])), hops, hphase, hreq, hstat,
    hlines, hsec.trans hsec', hbytes⟩
  · simp only [Pkg.orderWrite, Wr.hdr, hact', hwr, htake, hs, hmstore, List.length_nil, Pkg.releaseEarly]
    exact pump_nil hq
  · simp only [Dev.ord, hord]

end

/-! ### The writes of O35 -/

section
variable {r : Req} {s : State} {kind : AKind} {len key src : Nat}

theorem grants_of (hup : homeUp s) (hmode : (s.dev.prot r.ext).mode = 3 ∨ (s.dev.prot r.ext).mode = 4)
    (htable : isTableLine (r.gpa / 64 % 2 ^ 39) = false) (hpte : kind ≠ .pteWrite) (htab : kind ≠ .table) (hrule : ruleBroken r kind = none)
    (hlen : len = if kind = .reduce then reduceBytes r.opd.mfmt r.opd.cfmt (opdLen r.opd) else opdLen r.opd) (hat : atHome r len s)
    (hgrant : granted r kind s) : Pkg.Grants (s.store, s.dev) r kind len := by
  obtain ⟨⟨-, -, -, hqueue, hops, hholds, hrecons, -, -, -, halone⟩, -⟩ := hup
  obtain ⟨⟨-, hgpa, hpow⟩, hgood⟩ := hat
  obtain ⟨ht, he, hb⟩ := hgrant
  exact ⟨hpte, htab, hrule, hlen, hgpa, htable, ht, he, hb, hqueue, hops, hholds, hrecons, hpow, hgood, hmode, halone⟩

/-- A granted write stands ready, and memory has not changed. -/
theorem homeWrite_taken (hup : homeUp s) (hnext : nextOfPair r s) (hact : s.dev.sec.active = some key)
    (hmode : (s.dev.prot r.ext).mode = 3 ∨ (s.dev.prot r.ext).mode = 4) (htable : isTableLine (r.gpa / 64 % 2 ^ 39) = false)
    (hpte : kind ≠ .pteWrite) (htab : kind ≠ .table) (hrule : ruleBroken r kind = none)
    (hlen : len = if kind = .reduce then reduceBytes r.opd.mfmt r.opd.cfmt (opdLen r.opd) else opdLen r.opd) (hat : atHome r len s)
    (hgrant : granted r kind s) {i : Instr} (hi : exec i s = onPkg (Pkg.poolWrite kind r src []) s) :
    ∃ (t : State) (e : Dev), exec i s = .next t ∧ t.store = s.store ∧
      (t.dev.ord (s.dev.ordKey s.dev.node r.hdr.srcNode r.hdr.srcEngine)).expect = (r.hdr.manifest + 1) % 65536 ∧
      e.sec = s.dev.sec ∧ ∃ o, t.dev.home.ops = [o] ∧ o.phase = .ready ∧ o.req = r ∧ o.status = sOk ∧ o.ws.map (·.line) = linesOf r.gpa len ∧
        o.ws.flatMap (·.bytes) = overlay (oldLines r len key s).flatten (r.gpa % 64)
          (e.newBytes (blankOp s.dev.node r kind src r.gpa len r.ext) (spanBytes r.gpa len (oldLines r len key s))).1 := by
  obtain ⟨d, e, o, hpool, hexp, hops, hphase, hreq, hstat, hlines, hsec, hbytes⟩ :=
    poolWrite_ready (src := src) hup hnext hact hat.1.1 (grants_of hup hmode htable hpte htab hrule hlen hat hgrant)
  exact ⟨_, e, exec_poolWrite hup hi hpool, rfl, hexp, hsec, o, hops, hphase, hreq, hstat, hlines, hbytes⟩

theorem Dev.newBytes_write (d : Dev) (n k : Nat) (old : List Byte) (hholes : r.holes = []) :
    (d.newBytes (blankOp n r .write src r.gpa len k) old).1 = sliceBytes r.data 0 (opdLen r.opd) := by
  have hfst : ∀ v : List Byte, v.zipIdx.map (fun b => if r.holes.contains b.2 then (old[b.2]?).getD 0 else b.1) = v := fun v => by
    rw [hholes]
    exact List.zipIdx_map_fst ..
  exact hfst _

theorem homeWrites : Said.HomeWrites := by
  intro r key s hup hnext hact hmode htable len taken
  refine ⟨fun hat hholes hgrant => ?_, fun hat hok hgrant => ?_, fun hat hok hgrant => ?_, fun src hat hgrant => ?_⟩
  · obtain ⟨t, e, hexec, hstore, hexp, hsec, o, hops, hphase, hreq, hstat, hlines, hbytes⟩ := homeWrite_taken (kind := .write) (src := 0) hup hnext hact
      hmode htable (by decide) (by decide) rfl (by simp [len]) hat hgrant (i := .homeWrite r []) rfl
    rw [Dev.newBytes_write _ _ _ _ hholes] at hbytes
    exact ⟨t, hexec, hstore, hexp, o, hops, hphase, hreq, hstat, hlines, hbytes⟩
  · obtain ⟨t, e, hexec, hstore, hexp, hsec, o, hops, hphase, hreq, hstat, hlines, hbytes⟩ := homeWrite_taken (kind := .atomic) (src := 0) hup hnext hact
      hmode htable (by decide) (by decide) (if_pos hok) (by simp [len]) hat hgrant (i := .homeAtomic r []) rfl
    exact ⟨t, hexec, hstore, hexp, o, hops, hphase, hreq, hstat, hlines, hbytes⟩
  · obtain ⟨t, e, hexec, hstore, hexp, hsec, o, hops, hphase, hreq, hstat, hlines, hbytes⟩ := homeWrite_taken (kind := .reduce) (src := 0) hup hnext hact
      hmode htable (by decide) (by decide) (if_pos hok) (by simp [len]) hat hgrant (i := .homeReduceWrite r []) rfl
    exact ⟨t, e.freeCtr, hexec, hstore, hexp, o, hops, hphase, hreq, hstat, hlines, hbytes⟩
  · obtain ⟨t, e, hexec, hstore, hexp, hsec, o, hops, hphase, hreq, hstat, hlines, hbytes⟩ := homeWrite_taken (kind := .migWrite) (src := src) hup hnext
      hact hmode htable (by decide) (by decide) rfl (by simp [len]) hat hgrant (i := .homeMigrationWrite r src []) rfl
    refine ⟨t, hexec, hstore, hexp, o, hops, hphase, hreq, hstat, hlines, hbytes.trans ?_⟩
    congr 1
    simp only [Dev.newBytes, blankOp, hsec, hact]

end

end Sys2Proof.Machine


/-!
SUPPORT. O35, the moment a write is performed.
-/
namespace Sys2Proof.Machine

/-! ### Memory -/

theorem tget_putMem (v : List Byte) (m : List Host.Cell) {a b : Nat} (h : b < a ∨ a + v.length ≤ b) :
    tget zeroByte (putMem m a v) b = tget zeroByte m b := by
  induction v generalizing m a with
  | nil => rfl
  | cons x v ih =>
    rw [List.length_cons] at h
    rw [putMem, ih _ (by omega), tget_tset_ne _ _ _ (by omega)]

/-- The write of a line changes no byte of another place. -/
theorem Pkg.writeLine_mem (x : Pkg) (l : Nat) {v : List Byte} (hv : v.length = 64) (c : Cover) {a : Nat} (h : x.2.placeOf l ≠ a / 64) :
    tget zeroByte (x.writeLine l v c).1.mem a = tget zeroByte x.1.mem a :=
  tget_putMem v x.1.mem (by omega)

/-- What a line's write leaves of the package: what the home looks at, every register, and what has left. -/
structure Dev.Stored (d e : Dev) : Prop extends Dev.Kept d e where
  regs : e.regs = d.regs
  out : e.out = d.out

theorem Dev.Stored.refl (d : Dev) : d.Stored d := ⟨.refl d, rfl, rfl⟩

theorem Dev.Stored.trans {d e f : Dev} (h : d.Stored e) (k : e.Stored f) : d.Stored f :=
  ⟨h.toKept.trans k.toKept, k.regs.trans h.regs, k.out.trans h.out⟩

theorem Dev.stored_written (d : Dev) (l : Nat) : d.Stored ((d.fixWritten l).watchNote l) := ⟨⟨rfl, rfl, rfl, rfl, rfl, fun _ _ _ => rfl⟩, rfl, rfl⟩

theorem Pkg.stored_writeLine (x : Pkg) (l : Nat) (v : List Byte) (c : Cover) : x.2.Stored (x.writeLine l v c).2 := by
  have hburst := x.2.aside_checkBurst true l
  have hread : x.2.Stored (x.2.checkBurst true l) := ⟨hburst.toKept, (x.2.checkBurst_frame true l).1, hburst.out⟩
  exact hread.trans (Dev.stored_written _ l)

theorem Pkg.stored_applyLine (w : LineW) (x : Pkg) : x.2.Stored (x.applyLine w).2 := by
  unfold Pkg.applyLine
  split
  · exact x.stored_writeLine _ _ _
  · exact .refl _

theorem Pkg.stored_applyLines (ws : List LineW) (x : Pkg) : x.2.Stored (x.applyLines ws).2 :=
  List.foldlRecOn (motive := fun y : Pkg => x.2.Stored y.2) _ _ (.refl _) fun y hy w _ => hy.trans (y.stored_applyLine w)

/-- Lines that are written leave every byte of the other places. -/
theorem Pkg.applyLines_mem {ws : List LineW} {a : Nat} (x : Pkg) (hlen : ∀ w ∈ ws, w.bytes.length = 64)
    (h : ∀ w ∈ ws, ∀ p, w.phys = some p → x.2.placeOf p ≠ a / 64) : tget zeroByte (x.applyLines ws).1.mem a = tget zeroByte x.1.mem a := by
  refine (List.foldlRecOn (motive := fun y : Pkg => x.2.Stored y.2 ∧ tget zeroByte y.1.mem a = tget zeroByte x.1.mem a) ws _ ⟨.refl _, rfl⟩ ?_).2
  rintro y ⟨hk, hmem⟩ w hw
  refine ⟨hk.trans (y.stored_applyLine w), ?_⟩
  unfold Pkg.applyLine
  split
  · next p hp => exact (y.writeLine_mem p (hlen w hw) _ (by rw [hk.placeOf]; exact h w hw p hp)).trans hmem
  · exact hmem

/-! ### What the home notes of a write that has ended -/

/-- `e` is `d` but for notes in the home: nothing that waits there has changed, nor the operations in hand. -/
def Dev.Noted (d e : Dev) : Prop := ∃ h : Home, e = { d with home := h } ∧ h.ops = d.home.ops ∧ h.queue = d.home.queue ∧ h.gate = d.home.gate ∧
  h.store = d.home.store ∧ h.recons = d.home.recons ∧ h.dups = d.home.dups

theorem Dev.Noted.refl (d : Dev) : d.Noted d := ⟨d.home, rfl, rfl, rfl, rfl, rfl, rfl, rfl⟩

theorem Dev.Noted.trans {d e f : Dev} (h : d.Noted e) (k : e.Noted f) : d.Noted f := by
  obtain ⟨a, rfl, h1, h2, h3, h4, h5, h6⟩ := h
  obtain ⟨b, rfl, k1, k2, k3, k4, k5, k6⟩ := k
  exact ⟨b, rfl, k1.trans h1, k2.trans h2, k3.trans h3, k4.trans h4, k5.trans h5, k6.trans h6⟩

theorem Dev.noted_inflSub (d : Dev) (n k : Nat) : d.Noted (d.inflSub n k) := ⟨_, rfl, rfl, rfl, rfl, rfl, rfl, rfl⟩

theorem Dev.noted_staleDrop (d : Dev) (l : Nat) : d.Noted (d.staleDrop l) := ⟨_, rfl, rfl, rfl, rfl, rfl, rfl, rfl⟩

theorem Dev.noted_logFetch (d : Dev) (f : FetchEnt) : d.Noted (d.logFetch f) := ⟨_, rfl, rfl, rfl, rfl, rfl, rfl, rfl⟩

/-- The status of a write is recorded; with no repeat waiting, none is answered. -/
theorem Dev.recordStatus_alone {d : Dev} (hdups : d.home.dups = []) (n src eng man st : Nat) (fetch : Bool) :
    d.recordStatus n src eng man st fetch = d.setOrd (d.ordKey n src eng) { d.ord (d.ordKey n src eng) with
      hist := keepHist (d.ord (d.ordKey n src eng)).expect ((man, st) :: (d.ord (d.ordKey n src eng)).hist),
      open_ := (d.ord (d.ordKey n src eng)).open_.filter (· != man) } := by
  unfold Dev.recordStatus
  dsimp only
  rw [show ∀ k o, (d.setOrd k o).home.dups = [] from fun _ _ => hdups]
  generalize hx : d.setOrd (d.ordKey n src eng) _ = x
  have hx' : x.home.dups = [] := by rw [← hx]; exact hdups
  show ({ x with home := { x.home with dups := [] } } : Dev) = x
  rw [← hx']

theorem Dev.noted_recordStatus {d : Dev} (hdups : d.home.dups = []) (n src eng man st : Nat) (fetch : Bool) :
    d.Noted (d.recordStatus n src eng man st fetch) := by
  rw [Dev.recordStatus_alone hdups]
  exact ⟨_, rfl, rfl, rfl, rfl, rfl, rfl, rfl⟩

theorem Dev.noted_staleDrops (d : Dev) (ws : List LineW) : d.Noted (ws.foldl (fun (d : Dev) w => d.staleDrop w.line) d) :=
  List.foldlRecOn (motive := fun e : Dev => d.Noted e) _ _ (.refl _) fun e he w _ => he.trans (e.noted_staleDrop w.line)

theorem Dev.noted_ite {d e f : Dev} {c : Prop} [Decidable c] (h : d.Noted e) (k : d.Noted f) : d.Noted (if c then e else f) := by
  split
  · exact h
  · exact k

/-! ### A write is performed (R127, R137, R493) -/

section
variable {d : Dev} {o : HOp}

/-- What the end of a write notes before it is answered. -/
def Dev.writeNoted (o : HOp) (d : Dev) : Dev :=
  let d := d.dropOp o.id
  let d := if o.counted then d.inflSub o.node o.ext else d
  let d := if o.status = sOk ∧ (d.protOf o.node o.ext).mode ≠ 1 then o.ws.foldl (fun (d : Dev) w => d.staleDrop w.line) d else d
  let fetch := o.akind == .atomic && o.req.opd.fetch
  let h := o.req.hdr
  let d := if fetch ∧ o.status = sOk then d.logFetch ⟨o.node, h.srcNode, h.srcEngine, h.manifest, o.status, o.oldData⟩ else d
  d.recordStatus o.node h.srcNode h.srcEngine h.manifest o.status fetch

theorem Dev.writeNoted_frame (hops : d.home.ops = [o]) (hdups : d.home.dups = []) :
    ∃ h : Home, d.writeNoted o = { d with home := h } ∧ h.ops = [] ∧ h.queue = d.home.queue ∧ h.gate = d.home.gate ∧ h.store = d.home.store ∧
      h.recons = d.home.recons := by
  have hdrop : (d.dropOp o.id).home.ops = [] := by simp [Dev.dropOp, hops]
  have hnoted : (d.dropOp o.id).Noted (d.writeNoted o) := by
    unfold Dev.writeNoted
    dsimp only
    have h1 := Dev.noted_ite (c := o.counted = true) ((d.dropOp o.id).noted_inflSub o.node o.ext) (.refl (d.dropOp o.id))
    generalize (if o.counted = true then (d.dropOp o.id).inflSub o.node o.ext else d.dropOp o.id) = a at h1 ⊢
    have h2 := h1.trans (Dev.noted_ite (c := o.status = sOk ∧ (a.protOf o.node o.ext).mode ≠ 1) (a.noted_staleDrops o.ws) (.refl a))
    generalize (if o.status = sOk ∧ (a.protOf o.node o.ext).mode ≠ 1 then o.ws.foldl (fun (d : Dev) w => d.staleDrop w.line) a else a) = b at h2 ⊢
    have h3 := h2.trans (Dev.noted_ite (c := (o.akind == .atomic && o.req.opd.fetch) = true ∧ o.status = sOk)
      (b.noted_logFetch ⟨o.node, o.req.hdr.srcNode, o.req.hdr.srcEngine, o.req.hdr.manifest, o.status, o.oldData⟩) (.refl b))
    generalize (if (o.akind == .atomic && o.req.opd.fetch) = true ∧ o.status = sOk then _ else b) = c at h3 ⊢
    obtain ⟨k, hk, -, -, -, -, -, hkd⟩ := id h3
    exact h3.trans (Dev.noted_recordStatus (by rw [hk]; exact hkd.trans hdups) ..)
  obtain ⟨h, he, h1, h2, h3, h4, h5, -⟩ := hnoted
  exact ⟨h, he, h1.trans hdrop, h2, h3, h4, h5⟩

end

section
variable {o : HOp} {s : State}

/-- A write whose lines still have to reach the tier. -/
theorem Pkg.finishOp_write {x : Pkg} (hkind : o.kind = .write) (happ : o.applied = false) :
    x.finishOp o = ((x.applyLines o.ws).1, ((x.applyLines o.ws).2.writeNoted o).respond o.req.hdr o.status
      (if (o.akind == .atomic && o.req.opd.fetch) = true ∧ o.status = sOk then o.oldData else [])) := by
  unfold Pkg.finishOp
  rw [if_neg (by simp [happ]), hkind]
  rfl

theorem Dev.emitTo_out (d : Dev) (n : Nat) (m : Emit) : (d.emitTo n m).out = if d.hasNode n then d.out ++ [m] else d.out := by
  unfold Dev.emitTo
  split <;> rfl

/-- An answer tells nothing of the home's work. -/
theorem Dev.respond_out_home (d : Dev) (k : Home) (h : Hdr) (st : Nat) (v : List Byte) :
    (({ d with home := k } : Dev).respond h st v).out = (d.respond h st v).out := by
  have hnode : ({ d with home := k } : Dev).node = d.node := rfl
  have hhas : ({ d with home := k } : Dev).hasNode h.srcNode = d.hasNode h.srcNode := rfl
  have hepoch : ({ d with home := k } : Dev).epochNow = d.epochNow := rfl
  refine (Dev.emitTo_out ..).trans (Eq.trans ?_ (Dev.emitTo_out ..).symm)
  rw [hnode, hhas, hepoch]

theorem writePerformed : Said.WritePerformed := by
  intro o s hrun hdom hops hqueue hdups hnone hstands hmirror hphase hkind happ hlen
  have hperform : Pkg.performNext o (s.store, s.dev) = Pkg.finishOp o (s.store, s.dev) := by
    have hforward : Pkg.forwardTo o (s.store, s.dev) = none := by simp [Pkg.forwardTo, hstands]
    rw [Pkg.performNext, hforward]
    simp [hmirror]
  have hst := Pkg.stored_applyLines o.ws (s.store, s.dev)
  have hmem := fun a => Pkg.applyLines_mem (a := a) (s.store, s.dev) hlen
  rw [Pkg.finishOp_write hkind happ] at hperform
  generalize Pkg.applyLines o.ws (s.store, s.dev) = y at hst hmem hperform ⊢
  obtain ⟨h, hnoted, hends, hq, hgate, hstore, hrecons⟩ :=
    Dev.writeNoted_frame (d := y.2) (hst.ops.trans hops) ((hst.home Home.dups fun _ => rfl).trans hdups)
  rw [hnoted] at hperform
  have hhome := Dev.respond_home { y.2 with home := h } o.req.hdr o.status
    (if (o.akind == .atomic && o.req.opd.fetch) = true ∧ o.status = sOk then o.oldData else [])
  have hout := hst.toKept.respond_out_eq hst.out o.req.hdr o.status
    (if (o.akind == .atomic && o.req.opd.fetch) = true ∧ o.status = sOk then o.oldData else [])
  have hregs := Dev.respond_regs { y.2 with home := h } o.req.hdr o.status
    (if (o.akind == .atomic && o.req.opd.fetch) = true ∧ o.status = sOk then o.oldData else [])
  have hsame : (({ y.2 with home := h } : Dev).respond o.req.hdr o.status
    (if (o.akind == .atomic && o.req.opd.fetch) = true ∧ o.status = sOk then o.oldData else [])).out = (y.2.respond o.req.hdr o.status
    (if (o.akind == .atomic && o.req.opd.fetch) = true ∧ o.status = sOk then o.oldData else [])).out := Dev.respond_out_home ..
  generalize ({ y.2 with home := h } : Dev).respond o.req.hdr o.status _ = e at hperform hhome hregs hsame
  have hf : Pkg.writePerformed o.id (s.store, s.dev) = (y.1, e) := by
    have hop : s.dev.opOf o.id = some o := by simp [Dev.opOf, hops]
    have hidle : e.home.queue = [] := by rw [hhome]; exact hq.trans (hst.queue.trans hqueue)
    simp only [Pkg.writePerformed, hop, hphase, if_true, hperform]
    exact pump_nil hidle
  have hrest : noneAtHome e := by
    rw [noneAtHome, hhome]
    exact ⟨hgate.trans ((hst.home Home.gate fun _ => rfl).trans hnone.1), hstore.trans ((hst.home Home.store fun _ => rfl).trans hnone.2.1),
      hrecons.trans ((hst.home Home.recons fun _ => rfl).trans hnone.2.2)⟩
  refine ⟨_, (onPkg_running hrun hdom _).trans (by rw [thenHome_of hf (.inr hrest)]), rfl, ?_, hregs.trans hst.regs, ?_, hmem⟩
  · exact (congrArg Home.ops hhome).trans hends
  · refine hsame.trans (hout.trans ?_)
    simp only [Bool.and_eq_true, beq_iff_eq, and_assoc]

/-- Settles O35: a granted write stands ready with the bytes it forms, and its performance is what brings them into its lines. -/
theorem homeWritesDone : Obligations.HomeWritesDone := ⟨homeWrites, writePerformed⟩

end

end Sys2Proof.Machine


/-!
SUPPORT. O34, the entry of a page table: one line of a SYSTEM extent, which holds no tenant's bytes (R64, R77).
-/
namespace Sys2Proof.Machine

section
variable {gpa : Nat}

/-- Eight bytes at a multiple of eight lie in one line. -/
theorem linesOf_eight (h : gpa % 8 = 0) : linesOf gpa 8 = [gpa / 64] := by
  have hone : (gpa + 7) / 64 - gpa / 64 + 1 = 1 := by omega
  simp [linesOf, hone]

/-- What the span reads of one line that holds `v` there. -/
theorem spanBytes_overlay {ws : List LineW} {olds : List (List Byte)} {v : List Byte} (h : gpa % 8 = 0) (hv : v.length = 8)
    (hlen : olds.flatten.length = 64) (hbytes : ws.flatMap (·.bytes) = overlay olds.flatten (gpa % 64) v) :
    spanBytes gpa 8 (ws.map (·.bytes)) = v := by
  have hfit : gpa % 64 + v.length ≤ olds.flatten.length := by omega
  have hslice := slice_overlay hfit
  rw [hv] at hslice
  rw [spanBytes, List.flatten_eq_flatMap, List.flatMap_map]
  exact (congrArg (fun l => sliceBytes l (gpa % 64) 8) hbytes).trans hslice

end

/-! ### An entry's write stands ready -/

/-- A home with nothing in hand, and at `gpa` the place of an entry: a good line with power, in a SYSTEM extent outside a parity group. -/
structure Pkg.EntryAt (x : Pkg) (gpa : Nat) : Prop where
  place : gpa % 8 = 0
  system : (x.2.ext (gpaExt gpa)).state = 3
  power : x.2.linePowered (gpa / 64 % 2 ^ 39) = true
  good : x.2.lineErr (gpa / 64 % 2 ^ 39) ≠ 2
  mode : (x.2.prot (gpaExt gpa)).mode ≠ 1
  alone : x.2.rd F.PROT_CFG_PARTNER_EN = 0
  queue : x.2.home.queue = []
  ops : x.2.home.ops = []
  holds : x.2.home.rcHolds = []
  recons : x.2.home.recons = []

section
variable {x : Pkg} {i : HItem} {gpa n : Nat} {r : Req} {kind : AKind} {hk : HKind} {v : List Byte}

/-- An item that writes the 8 bytes `v` of an entry stands ready with them. -/
theorem Pkg.EntryAt.ready (h : x.EntryAt gpa) (hread : i.isRead = false) (hlines : i.lines x.2 = linesOf gpa 8) (hnode : i.node x.2 = x.2.node)
    (hstart : x.startItem i = x.startWrite x.2.node r kind [] 0 gpa 8 (gpaExt gpa) hk)
    (hnew : ∀ (e : Dev) (old : List Byte), (e.newBytes (blankOp x.2.node r kind 0 gpa 8 (gpaExt gpa)) old).1 = v) (hv : v.length = 8) :
    ∃ (d : Dev) (o : HOp), Pkg.enqueue i x = (x.1, d) ∧ d.home.ops = [o] ∧ o.phase = .ready ∧ o.gpa = gpa ∧ o.kind = hk ∧
      spanBytes gpa 8 (o.ws.map (·.bytes)) = v ∧ d.home.store = x.2.home.store ∧ d.home.queue = [] := by
  have hone := linesOf_eight h.place
  obtain ⟨d, e, o, hdone, hops, hphase, -, -, hkind, hgpa, -, -, hbytes, -, hstore, hqueue⟩ :=
    Pkg.startWrite_ready (x := x) (n := x.2.node) (gpa := gpa) (len := 8) (k := gpaExt gpa) (srcGpa := 0) (st := 3) (r := r) (kind := kind) (hk := hk)
      (key := fun _ => (none, true)) x.2.stands_node h.system (fun _ => rfl) (by simp) h.mode h.alone h.ops (by rw [hone]; simpa using h.good)
  have hwait : x.2.itemWaits [] i = false := by
    refine Dev.itemWaits_alone h.ops h.holds h.recons fun l hl q hq => ?_
    rw [hlines, hone, List.mem_singleton] at hl
    rw [hnode, Dev.physOf_own x.2.stands_node, hl] at hq
    obtain rfl := Option.some.inj hq
    exact h.power
  have hkeep : (x.startItem i).2.home.queue = [] := by
    rw [hstart, hdone]
    exact hqueue.trans h.queue
  refine ⟨d, o, (Pkg.enqueue_item h.queue hread hwait hkeep).trans (hstart.trans hdone), hops, hphase, hgpa, hkind, ?_, hstore, hqueue.trans h.queue⟩
  rw [hnew] at hbytes
  refine spanBytes_overlay h.place hv ?_ hbytes
  simp [Pkg.olds, hone, Pkg.plain_length]

/-- A device that keeps what the home looks at, and the errors of its lines, still has the entry's place. -/
theorem Pkg.EntryAt.of_kept {m : Store} {d e : Dev} (h : Pkg.EntryAt (m, d) gpa) (hk : d.Kept e) (hgood : ∀ l, e.lineErr l = d.lineErr l) :
    Pkg.EntryAt (m, e) gpa where
  place := h.place
  system := (congrArg ExtEnt.state (hk.ext _)).trans h.system
  power := (hk.linePowered _).trans h.power
  good := (hgood _).trans_ne h.good
  mode := (congrArg ProtEnt.mode (hk.prot _)).trans_ne h.mode
  alone := (hk.rd _ (by decide) (by decide)).trans h.alone
  queue := hk.queue.trans h.queue
  ops := hk.ops.trans h.ops
  holds := (hk.home Home.rcHolds fun _ => rfl).trans h.holds
  recons := (hk.home Home.recons fun _ => rfl).trans h.recons

end

theorem Dev.newBytes_plain {r : Req} {kind : AKind} (d : Dev) (n gpa k : Nat) (old : List Byte) (hkind : kind = .write ∨ kind = .pteWrite)
    (hholes : r.holes = []) (hlen : opdLen r.opd = 8) : (d.newBytes (blankOp n r kind 0 gpa 8 k) old).1 = sliceBytes r.data 0 8 := by
  have hfst : ∀ v : List Byte, v.zipIdx.map (fun b => if r.holes.contains b.2 then (old[b.2]?).getD 0 else b.1) = v := fun v => by
    rw [hholes]
    exact List.zipIdx_map_fst ..
  have hpay : payload r kind = sliceBytes r.data 0 8 := by rcases hkind with rfl | rfl <;> simp [payload, hlen]
  rw [← hpay]
  rcases hkind with rfl | rfl
  · exact hfst _
  · exact hfst _

/-! ### REGION_PTE of the fabric manager -/

section
variable {s : State} {src region page entry : Nat}

theorem exec_regionPte (hup : homeUp s) :
    exec (.regionPte src region page entry []) s = .next (withPkg s (Pkg.regionPteIn src region page entry [] (s.store, s.dev))) := by
  obtain ⟨⟨hrun, hdom, hopen, -⟩, -⟩ := hup
  exact (onPkg_running hrun hdom _).trans (by rw [Pkg.regionPte, if_pos hopen])

theorem regionPte_refused (hup : homeUp s) (hfm : s.dev.fmAllowed src = true)
    (h : region / 8192 % 128 ≠ s.dev.node ∨ (s.dev.region (region % 8192)).valid = false ∨ (s.dev.region (region % 8192)).pages ≤ page) :
    exec (.regionPte src region page entry []) s = .next { s with dev := s.dev.ctrl src (.result "REGION_PTE" rBadState) } := by
  rw [exec_regionPte hup]
  unfold Pkg.regionPteIn
  by_cases hn : region / 8192 % 128 = s.dev.node
  · have hnone : Pkg.ptePlace (s.store, s.dev) s.dev.node region page = none := by
      rw [Pkg.ptePlace, Pkg.regionOf_own s.dev.stands_node]
      rcases h with h | h | h
      · exact absurd hn h
      · simp [h]
      · simp [h]
    simp [hfm, hn, hnone, withPkg, Pkg.dev]
  · simp [hfm, hn, withPkg, Pkg.dev]

/-- What the home's idleness gives at the place of an entry. -/
theorem entryAt_of (hup : homeUp s) {gpa : Nat} (hplace : gpa % 8 = 0) (hsys : (s.dev.ext (gpaExt gpa)).state = 3)
    (hpow : s.dev.linePowered (gpa / 64 % 2 ^ 39) = true) (hgood : s.dev.lineErr (gpa / 64 % 2 ^ 39) ≠ 2)
    (hmode : (s.dev.prot (gpaExt gpa)).mode ≠ 1) : Pkg.EntryAt (s.store, s.dev) gpa := by
  obtain ⟨⟨-, -, -, hqueue, hops, hholds, hrecons, -, -, -, halone⟩, -⟩ := hup
  exact ⟨hplace, hsys, hpow, hgood, hmode, halone, hqueue, hops, hholds, hrecons⟩

theorem Pkg.pteOk_of {x : Pkg} {gpa : Nat} (hn : gpaNode gpa = x.2.node) (hgpa : gpaOk gpa = true) (hsys : (x.2.ext (gpaExt gpa)).state = 3)
    (htable : isTableLine (gpa / 64 % 2 ^ 39) = false) : x.pteOk x.2.node gpa = true := by
  simp only [Pkg.pteOk, Pkg.extOf_own x.2.stands_node, hn, hgpa, hsys, htable]
  simp

theorem Pkg.ptePlace_of {x : Pkg} (hvalid : (x.2.region (region % 8192)).valid = true) (hpage : page < (x.2.region (region % 8192)).pages) :
    x.ptePlace x.2.node region page = some ((x.2.region (region % 8192)).ptBase + page * 8) := by
  rw [Pkg.ptePlace, Pkg.regionOf_own x.2.stands_node]
  exact if_pos ⟨hvalid, hpage⟩

/-- An entry that a package's manager gives, in place of another, stands ready. -/
theorem Pkg.EntryAt.pte {x : Pkg} {gpa v : Nat} (hat : x.EntryAt gpa) (hnew : x.readData x.2.node .read 3 gpa 8 ≠ natLE 8 v) :
    ∃ (d : Dev) (o : HOp), Pkg.enqueue (.pte src x.2.node region gpa v []) x = (x.1, d) ∧ d.home.ops = [o] ∧ o.phase = .ready ∧ o.gpa = gpa ∧
      o.kind = .regionPte src ∧ spanBytes gpa 8 (o.ws.map (·.bytes)) = natLE 8 v := by
  have hlen := natLE_length 8 v
  have hstart : x.startItem (.pte src x.2.node region gpa v []) = x.startWrite x.2.node
      { hdr := { srcNode := src }, opd := { addr := gpa, lengthM1 := 7 }, data := natLE 8 v } .write [] 0 gpa 8 (gpaExt gpa) (.regionPte src) :=
    if_neg fun h => hnew h.1
  generalize natLE 8 v = w at hlen hstart
  obtain ⟨d, o, henq, hops, hphase, hgpa, hkind, hspan, -⟩ := hat.ready (v := w) rfl rfl rfl hstart
    (fun f old => (Dev.newBytes_plain f _ _ _ _ (.inl rfl) rfl rfl).trans (by
      rw [sliceBytes_full (by simp [hlen]), List.drop_zero, List.take_of_length_le (by simp [hlen])])) hlen
  exact ⟨d, o, henq, hops, hphase, hgpa, hkind, hspan⟩

/-- A page-table write is counted, and its request in flight; the errors of the lines stay. -/
theorem Dev.lineErr_inflAdd_count (d : Dev) (n k p i m l : Nat) : ((d.inflAdd n k).count p i m).lineErr l = d.lineErr l :=
  Dev.partErr_congr ((Dev.aside_count (d.inflAdd n k) p i m).errsOf l) _

theorem regionPte_ready (hup : homeUp s) (hfm : s.dev.fmAllowed src = true) (hregion : region / 8192 % 128 = s.dev.node) {gpa : Nat}
    (hplace : Pkg.ptePlace (s.store, s.dev) s.dev.node region page = some gpa) (hok : Pkg.pteOk (s.store, s.dev) s.dev.node gpa = true)
    (hat : Pkg.EntryAt (s.store, s.dev) gpa)
    (hnew : Pkg.readData (s.store, s.dev) s.dev.node .read 3 gpa 8 ≠ natLE 8 (entry % 2 ^ 64)) :
    ∃ t o, exec (.regionPte src region page entry []) s = .next t ∧ t.store = s.store ∧ t.dev.home.ops = [o] ∧ o.phase = .ready ∧
      o.gpa = gpa ∧ o.kind = .regionPte src ∧ spanBytes gpa 8 (o.ws.map (·.bytes)) = natLE 8 (entry % 2 ^ 64) := by
  rw [exec_regionPte hup]
  have hin : Pkg.regionPteIn src region page entry [] (s.store, s.dev) =
      Pkg.enqueue (.pte src s.dev.node region gpa (entry % 2 ^ 64) []) (s.store, (s.dev.inflAdd s.dev.node (gpaExt gpa)).count 0x28 0 1) := by
    unfold Pkg.regionPteIn
    simp [hfm, hregion, hplace, hok]
  rw [hin]
  generalize entry % 2 ^ 64 = v at hnew
  have hk : s.dev.Kept ((s.dev.inflAdd s.dev.node (gpaExt gpa)).count 0x28 0 1) :=
    (s.dev.kept_inflAdd ..).trans (Dev.aside_count ..).toKept
  have hat' := hat.of_kept hk fun _ => Dev.lineErr_inflAdd_count ..
  generalize (s.dev.inflAdd s.dev.node (gpaExt gpa)).count 0x28 0 1 = e at hk hat'
  have hdata : Pkg.readData (s.store, e) e.node .read 3 gpa 8 = Pkg.readData (s.store, s.dev) s.dev.node .read 3 gpa 8 := by
    rw [Pkg.readData_system (x := (s.store, e)) e.stands_node (by decide), Pkg.readData_system (x := (s.store, s.dev)) s.dev.stands_node (by decide)]
    congr 1
    exact List.map_congr_left fun l _ => hk.plain ..
  obtain ⟨d, o, henq, hops, hphase, hgpa, hkind, hspan⟩ := hat'.pte (src := src) (region := region) (hdata.trans_ne hnew)
  rw [hk.node] at henq
  exact ⟨withPkg s (s.store, d), o, by rw [henq], rfl, hops, hphase, hgpa, hkind, hspan⟩

end

/-! ### PTE_WRITE, taken from its pair -/

section
variable {r : Req} {s : State}

theorem exec_homePteWrite (hup : homeUp s) (hn : bits r.opd.addr 13 7 = s.dev.node) :
    exec (.homePteWrite r []) s = .next (withPkg s (Pkg.orderWrite s.dev.node (.pool r .pteWrite [] 0) (s.store, s.dev))) := by
  obtain ⟨⟨hrun, hdom, -⟩, -⟩ := id hup
  rw [← poolWrite_own hup (by rw [if_pos rfl]) hn]
  exact onPkg_running hrun hdom _

/-- The entry's write as it is taken, with no write held that it could release. -/
theorem homePteWrite_takes (hup : homeUp s) (hnext : nextOfPair r s) (hn : bits r.opd.addr 13 7 = s.dev.node) {d : Dev}
    (htake : Pkg.takePte s.dev.node r [] (s.store, s.dev.takeMan s.dev.node r.hdr.srcNode r.hdr.srcEngine) = (s.store, d))
    (hstore : d.home.store = []) (hqueue : d.home.queue = []) : exec (.homePteWrite r []) s = .next { s with dev := d } := by
  obtain ⟨hst, hexp, -⟩ := hnext
  have hact : s.dev.orderAct s.dev.node r.hdr.srcNode r.hdr.srcEngine r.hdr.manifest = .take :=
    orderAct_take hst (by rw [hexp]; exact manDiff_self _)
  have hwr : Pkg.takeWr s.dev.node (.pool r .pteWrite [] 0) (s.store, s.dev) = (s.store, d) := htake
  rw [exec_homePteWrite hup hn]
  simp only [Pkg.orderWrite, Wr.hdr, hact, hwr, hstore, List.length_nil, Pkg.releaseEarly]
  rw [pump_nil hqueue]
  rfl

/-- A refused write at a home alone: its status is recorded, and it is answered (R137). -/
theorem Dev.refuseTaken_alone {d : Dev} {kind : AKind} {n : Nat} (hdups : d.home.dups = []) (halone : d.rd F.PROT_CFG_PARTNER_EN = 0)
    (hst : d.stands n = false) (st : Nat) : ∃ h : Home, d.refuseTaken n r kind st =
      ({ d.homeRefused st r.opd.addr r.hdr.srcNode with home := h } : Dev).respond r.hdr st [] ∧ h.ops = d.home.ops ∧ h.queue = d.home.queue ∧
      h.store = d.home.store := by
  have hk := d.kept_homeRefused st r.opd.addr r.hdr.srcNode
  have hoff : (d.homeRefused st r.opd.addr r.hdr.srcNode).partnerOn = false :=
    Dev.partnerOn_alone ((hk.rd _ (by decide) (by decide)).trans halone)
  have hstands := (hk.stands n).trans hst
  have hhome := d.homeRefused_home st r.opd.addr r.hdr.srcNode
  unfold Dev.refuseTaken
  generalize d.homeRefused st r.opd.addr r.hdr.srcNode = e at hoff hstands hhome
  obtain ⟨h, hrec, hops, hqueue, -, hstore, -⟩ := Dev.noted_recordStatus (d := e) (by rw [hhome]; exact hdups) n r.hdr.srcNode r.hdr.srcEngine
    r.hdr.manifest st (kind == .atomic && r.opd.fetch)
  refine ⟨h, ?_, hops.trans (congrArg Home.ops hhome), hqueue.trans (congrArg Home.queue hhome), hstore.trans (congrArg Home.store hhome)⟩
  unfold Dev.endUnapplied
  simp only [hoff, hstands, hrec, Bool.false_eq_true, if_false, false_and]

theorem homePteWrite_refused (hup : homeUp s) (hnext : nextOfPair r s) (hn : bits r.opd.addr 13 7 = s.dev.node)
    (hticket : s.dev.ticketOk r.hdr.ticket = true)
    (h : (s.dev.region (bits r.opd.addr 0 20 % 8192)).valid = false ∨ bit (s.dev.region (bits r.opd.addr 0 20 % 8192)).publish r.hdr.reqLanding = false) :
    ∃ t, exec (.homePteWrite r []) s = .next t ∧ t.store = s.store ∧ t.dev.home.ops = [] ∧
      (s.dev.hasNode r.hdr.srcNode = true → t.dev.out.getLast? = (s.dev.respond r.hdr sRights []).out.getLast?) := by
  obtain ⟨⟨-, -, -, hqueue, hops, -, -, hstore, hdups, -, halone⟩, -⟩ := id hup
  obtain ⟨hmstore, hmqueue, hmops, -⟩ := Dev.takeMan_frame hstore s.dev.node r.hdr.srcNode r.hdr.srcEngine
  have htake : Pkg.takePte s.dev.node r [] (s.store, s.dev.takeMan s.dev.node r.hdr.srcNode r.hdr.srcEngine) =
      (s.store, (s.dev.takeMan s.dev.node r.hdr.srcNode r.hdr.srcEngine).refuseTaken s.dev.node r .pteWrite sRights) := by
    have hregion : ∀ k, Pkg.regionOf (s.store, s.dev.takeMan s.dev.node r.hdr.srcNode r.hdr.srcEngine) s.dev.node k = s.dev.region k := fun k =>
      Pkg.regionOf_own (x := (s.store, s.dev.takeMan s.dev.node r.hdr.srcNode r.hdr.srcEngine)) (Dev.stands_node _) k
    have ht : (s.dev.takeMan s.dev.node r.hdr.srcNode r.hdr.srcEngine).ticketOk r.hdr.ticket = true := hticket
    unfold Pkg.takePte Pkg.ptePlace
    rcases h with h | h
    · simp [ht, hregion, h, Pkg.dev]
    · simp [ht, hregion, h, Pkg.dev]
  have hkept := (s.dev.takeMan s.dev.node r.hdr.srcNode r.hdr.srcEngine).kept_homeRefused sRights r.opd.addr r.hdr.srcNode
  obtain ⟨k, href, hrops, hrqueue, hrstore⟩ := Dev.refuseTaken_alone (r := r) (kind := .pteWrite)
    (d := s.dev.takeMan s.dev.node r.hdr.srcNode r.hdr.srcEngine) hdups halone (Dev.stands_node _) sRights
  rw [show (s.dev.takeMan s.dev.node r.hdr.srcNode r.hdr.srcEngine).node = s.dev.node from rfl] at href
  rw [href] at htake
  have hhome := Dev.respond_home { (s.dev.takeMan s.dev.node r.hdr.srcNode r.hdr.srcEngine).homeRefused sRights r.opd.addr r.hdr.srcNode with home := k }
    r.hdr sRights []
  have hout := fun hs => Dev.respond_last_congr (d := s.dev)
    (e := { (s.dev.takeMan s.dev.node r.hdr.srcNode r.hdr.srcEngine).homeRefused sRights r.opd.addr r.hdr.srcNode with home := k })
    hkept.glb hkept.epochNow (h := r.hdr) hs sRights []
  generalize ({ (s.dev.takeMan s.dev.node r.hdr.srcNode r.hdr.srcEngine).homeRefused sRights r.opd.addr r.hdr.srcNode with home := k } : Dev).respond
    r.hdr sRights [] = e at htake hhome hout
  refine ⟨_, homePteWrite_takes hup hnext hn htake ?_ ?_, rfl, ?_, hout⟩
  · exact (congrArg Home.store hhome).trans (hrstore.trans hmstore)
  · exact (congrArg Home.queue hhome).trans (hrqueue.trans (hmqueue.trans hqueue))
  · exact (congrArg Home.ops hhome).trans (hrops.trans (hmops.trans hops))

/-- A PTE_WRITE that R77 allows joins the queue. -/
theorem Pkg.takePte_queues {x : Pkg} {gpa : Nat} (hhome : bits r.opd.addr 0 20 / 8192 = x.2.node) (hticket : x.2.ticketOk r.hdr.ticket = true)
    (hpublish : bit (x.2.region (bits r.opd.addr 0 20 % 8192)).publish r.hdr.reqLanding = true)
    (hplace : x.ptePlace x.2.node (bits r.opd.addr 0 20) (bits r.opd.addr 20 23) = some gpa) (hok : x.pteOk x.2.node gpa = true) :
    x.takePte x.2.node r [] = Pkg.enqueue (.write x.2.node { r with opd := { addr := gpa, lengthM1 := 7 } } .pteWrite [] 0 gpa 8 (gpaExt gpa))
      (x.1, x.2.admitted x.2.node r.hdr false .pteWrite gpa) := by
  unfold Pkg.takePte
  simp [hticket, Pkg.regionOf_own x.2.stands_node, hplace, hok, hhome, hpublish]

theorem homePteWrite_ready (hup : homeUp s) (hnext : nextOfPair r s) (hn : bits r.opd.addr 13 7 = s.dev.node)
    (hticket : s.dev.ticketOk r.hdr.ticket = true) {e : Region} (he : s.dev.region (bits r.opd.addr 0 20 % 8192) = e)
    (hpublish : bit e.publish r.hdr.reqLanding = true) (hvalid : e.valid = true) (hpage : bits r.opd.addr 20 23 < e.pages) {gpa : Nat}
    (hgpa : e.ptBase + bits r.opd.addr 20 23 * 8 = gpa) (hnode : gpaNode gpa = s.dev.node) (hrange : gpaOk gpa = true)
    (htable : isTableLine (gpa / 64 % 2 ^ 39) = false) (hat : Pkg.EntryAt (s.store, s.dev) gpa) (hholes : r.holes = []) :
    ∃ t o, exec (.homePteWrite r []) s = .next t ∧ t.store = s.store ∧ t.dev.home.ops = [o] ∧ o.phase = .ready ∧ o.gpa = gpa ∧
      spanBytes gpa 8 (o.ws.map (·.bytes)) = sliceBytes r.data 0 8 := by
  obtain ⟨⟨-, -, -, hqueue, hops, hholds, hrecons, hstore, -⟩, -⟩ := id hup
  have hhome : bits r.opd.addr 0 20 / 8192 = s.dev.node := by
    rw [← hn]
    simp only [bits]
    omega
  obtain ⟨hmstore, -⟩ := Dev.takeMan_frame hstore s.dev.node r.hdr.srcNode r.hdr.srcEngine
  have hat' : Pkg.EntryAt (s.store, s.dev.takeMan s.dev.node r.hdr.srcNode r.hdr.srcEngine) gpa :=
    ⟨hat.place, hat.system, hat.power, hat.good, hat.mode, hat.alone, hqueue, hops, hholds, hrecons⟩
  have htakes := fun d => homePteWrite_takes (d := d) hup hnext hn
  have hmnode : (s.dev.takeMan s.dev.node r.hdr.srcNode r.hdr.srcEngine).node = s.dev.node := rfl
  have hmticket : (s.dev.takeMan s.dev.node r.hdr.srcNode r.hdr.srcEngine).ticketOk r.hdr.ticket = true := hticket
  have hmregion : (s.dev.takeMan s.dev.node r.hdr.srcNode r.hdr.srcEngine).region (bits r.opd.addr 0 20 % 8192) = e := he
  generalize s.dev.takeMan s.dev.node r.hdr.srcNode r.hdr.srcEngine = m at hmstore hat' htakes hmnode hmticket hmregion
  rw [← hmnode] at hhome hnode htakes
  have htake := Pkg.takePte_queues (x := (s.store, m)) hhome hmticket (by rw [hmregion]; exact hpublish)
    ((Pkg.ptePlace_of (x := (s.store, m)) (by rw [hmregion]; exact hvalid) (by rw [hmregion]; exact hpage)).trans (by rw [hmregion, hgpa]))
    (Pkg.pteOk_of (x := (s.store, m)) hnode hrange hat'.system htable)
  obtain ⟨hk, herr⟩ := m.admitted_kept m.node r.hdr false .pteWrite gpa
  dsimp only at htake
  generalize m.admitted m.node r.hdr false .pteWrite gpa = a at htake hk herr
  have hadm : Pkg.EntryAt (s.store, a) gpa := hat'.of_kept hk fun l => herr l (List.range 8)
  have hastore := hk.home Home.store fun _ => rfl
  obtain ⟨d, o, henq, hdops, hphase, hogpa, -, hspan, hdstore, hdqueue⟩ := hadm.ready (v := sliceBytes r.data 0 8)
    (r := { r with opd := { addr := gpa, lengthM1 := 7 } }) (kind := .pteWrite) (hk := .write)
    (i := .write a.node { r with opd := { addr := gpa, lengthM1 := 7 } } .pteWrite [] 0 gpa 8 (gpaExt gpa)) rfl rfl rfl rfl
    (fun f old => Dev.newBytes_plain f _ _ _ _ (.inr rfl) hholes rfl) (sliceBytes_length ..)
  rw [hk.node] at henq
  exact ⟨{ s with dev := d }, o, htakes d (htake.trans henq) (hdstore.trans (hastore.trans hmstore)) hdqueue, rfl, hdops, hphase, hogpa, hspan⟩

/-- Settles O34: REGION_PTE and PTE_WRITE bring the entry into an operation that stands ready, or are refused. -/
theorem pageTableWrites : Obligations.PageTableWrites := by
  refine ⟨fun src region page entry s hup hfm => ⟨regionPte_refused hup hfm, ?_⟩, fun r s hup hnext hn => ⟨homePteWrite_refused hup hnext hn, ?_⟩⟩
  · intro hregion hvalid hpage hnode hgpa _ hsys htable hpow hgood hbase hmode
    exact regionPte_ready hup hfm hregion (Pkg.ptePlace_of (x := (s.store, s.dev)) hvalid hpage)
      (Pkg.pteOk_of (x := (s.store, s.dev)) hnode hgpa hsys htable) (entryAt_of hup (by omega) hsys hpow hgood hmode)
  · intro hticket hvalid hpublish hpage hnode hgpa _ hsys htable hpow hgood hbase hmode hholes
    exact homePteWrite_ready hup hnext hn hticket rfl hpublish hvalid hpage rfl hnode hgpa htable
      (entryAt_of hup (by omega) hsys hpow hgood hmode) hholes

end

end Sys2Proof.Machine


/-!
SUPPORT. Accesses that the package issues of itself: those in hand, those of streams (R94), and the package at rest but for accesses of
streams that name no node of the domain (R32).
-/
namespace Sys2Proof.Machine

/-! ### The accesses in hand -/

section
variable (d : Dev)

/-- What sending a request leaves of the engines. -/
theorem Dev.sendOut_src (o : OutReq) : (d.sendOut o).src.fences = d.src.fences ∧ (d.sendOut o).src.noNode = d.src.noNode ∧
    (d.sendOut o).src.nextId = d.src.nextId ∧ (d.sendOut o).src.held = d.src.held ∧
    (d.sendOut o).src.reqs.map (·.acc) = d.src.reqs.map (·.acc) ++ [o.acc] := by
  refine ⟨?_, ?_, ?_, ?_, ?_⟩
  · rw [Dev.sendOut, Dev.emitMsg_src]
  · rw [Dev.sendOut, Dev.emitMsg_src]
  · rw [Dev.sendOut, Dev.emitMsg_src]
  · rw [Dev.sendOut, Dev.emitMsg_src]
  · rw [Dev.sendOut_reqs, List.map_append]
    rfl

/-- The requests held are sent, or held still. -/
theorem Dev.pumpSrc_fold (l : List OutReq) : ∀ a : Dev × List OutReq,
    let r := l.foldl (fun (a : Dev × List OutReq) o => if a.1.mayIssue a.2 o then (a.1.sendOut o, a.2) else (a.1, a.2 ++ [o])) a
    r.1.src.fences = a.1.src.fences ∧ r.1.src.noNode = a.1.src.noNode ∧ r.1.src.nextId = a.1.src.nextId ∧
      ∀ q, q ∈ r.1.src.reqs.map (·.acc) ++ r.2.map (·.acc) ↔ q ∈ a.1.src.reqs.map (·.acc) ++ a.2.map (·.acc) ++ l.map (·.acc) := by
  induction l with
  | nil => simp
  | cons o l ih =>
    intro a
    obtain ⟨hf, hn, hi, hm⟩ := ih (if a.1.mayIssue a.2 o then (a.1.sendOut o, a.2) else (a.1, a.2 ++ [o]))
    obtain ⟨sf, sn, si, -, sm⟩ := a.1.sendOut_src o
    rw [List.foldl_cons]
    by_cases h : a.1.mayIssue a.2 o = true
    · rw [if_pos h] at hf hn hi hm ⊢
      refine ⟨hf.trans sf, hn.trans sn, hi.trans si, fun q => (hm q).trans ?_⟩
      rw [sm]
      simp only [List.mem_append, List.map_cons, List.mem_cons, List.not_mem_nil, or_false]
      tauto
    · rw [if_neg h] at hf hn hi hm ⊢
      refine ⟨hf, hn, hi, fun q => (hm q).trans ?_⟩
      simp only [List.mem_append, List.map_append, List.map_cons, List.map_nil, List.mem_cons, List.not_mem_nil, or_false]
      tauto

theorem Dev.pumpSrc_live : d.pumpSrc.src.fences = d.src.fences ∧ d.pumpSrc.src.noNode = d.src.noNode ∧ d.pumpSrc.src.nextId = d.src.nextId ∧
    ∀ a, a ∈ d.pumpSrc.liveAccs ↔ a ∈ d.liveAccs := by
  obtain ⟨hf, hn, hi, hm⟩ := Dev.pumpSrc_fold d.src.held (d, [])
  refine ⟨hf, hn, hi, fun a => ?_⟩
  have hm' := hm a
  simp only [Dev.liveAccs, Dev.pumpSrc, List.mem_append, List.map_nil, List.not_mem_nil, or_false, hn] at hm' ⊢
  tauto

/-- A request that is issued is in hand. -/
theorem Dev.issue_live (o : OutReq) : (d.issue o).src.fences = d.src.fences ∧ (d.issue o).src.nextId = d.src.nextId ∧
    (d.issue o).src.noNode = (if d.hasNode o.dest then d.src.noNode else d.src.noNode ++ [o]) ∧
    ∀ a, a ∈ (d.issue o).liveAccs ↔ a ∈ d.liveAccs ∨ a = o.acc := by
  unfold Dev.issue
  by_cases h : d.hasNode o.dest = true
  · obtain ⟨hf, hn, hi, hm⟩ := Dev.pumpSrc_live { d with src := { d.src with held := d.src.held ++ [o] } }
    rw [if_pos h, if_pos h]
    refine ⟨hf, hi, hn, fun a => (hm a).trans ?_⟩
    simp only [Dev.liveAccs, List.map_append, List.mem_append, List.map_cons, List.map_nil, List.mem_cons, List.not_mem_nil, or_false]
    tauto
  · rw [if_neg h, if_neg h]
    refine ⟨rfl, rfl, rfl, fun a => ?_⟩
    simp only [Dev.liveAccs, List.map_append, List.mem_append, List.map_cons, List.map_nil, List.mem_cons, List.not_mem_nil, or_false]
    tauto

/-- The request that carries an access. -/
theorem Dev.issueAcc_eq (a : Acc) : ∃ o : OutReq, o.acc = a ∧ o.dest = a.dest ∧ d.issueAcc a = d.issue o := by
  unfold Dev.issueAcc
  exact ⟨_, rfl, rfl, rfl⟩

/-- An access of a node of the domain is in hand once it is issued. -/
theorem Dev.issueAcc_live {a : Acc} (h : d.hasNode a.dest = true) : (d.issueAcc a).src.fences = d.src.fences ∧
    (d.issueAcc a).src.nextId = d.src.nextId ∧ (d.issueAcc a).src.noNode = d.src.noNode ∧
    ∀ b, b ∈ (d.issueAcc a).liveAccs ↔ b ∈ d.liveAccs ∨ b = a := by
  obtain ⟨o, rfl, hdest, ho⟩ := d.issueAcc_eq a
  rw [ho]
  obtain ⟨hf, hi, hn, hm⟩ := d.issue_live o
  rw [hdest, if_pos h] at hn
  exact ⟨hf, hi, hn, hm⟩

end

/-! ### Accesses of streams (R94, R469) -/

/-- The access reads a table for a stream. -/
def Acc.ofStream (a : Acc) : Prop := ∃ id, a.purpose = .prefetch id

/-- Nothing waits to go on but accesses of streams that name no node of the domain. -/
def Dev.Calm (d : Dev) : Prop := quiet { d with src := { d.src with noNode := [] } } ∧ ∀ o ∈ d.src.noNode, o.acc.ofStream

/-- `e` is `d` but for the caches of translations, counters, and reads of tables that were issued for streams. -/
structure Dev.Fetches (d e : Dev) : Prop where
  frame : ∃ out epochs cnts src xlt, e = { d with out := out, epochs := epochs, cnts := cnts, src := src, xlt := xlt }
  fences : e.src.fences = d.src.fences
  live : ∀ a ∈ d.liveAccs, a ∈ e.liveAccs
  new : ∀ a ∈ e.liveAccs, a ∈ d.liveAccs ∨ a.ofStream
  away : ∀ o ∈ e.src.noNode, o ∈ d.src.noNode ∨ o.acc.ofStream

namespace Dev.Fetches

theorem refl (d : Dev) : d.Fetches d := ⟨⟨_, _, _, _, _, rfl⟩, rfl, fun _ h => h, fun _ h => .inl h, fun _ h => .inl h⟩

theorem trans {d e f : Dev} (h : d.Fetches e) (k : e.Fetches f) : d.Fetches f where
  frame := by
    obtain ⟨_, _, _, _, _, rfl⟩ := h.frame
    obtain ⟨_, _, _, _, _, rfl⟩ := k.frame
    exact ⟨_, _, _, _, _, rfl⟩
  fences := k.fences.trans h.fences
  live a ha := k.live a (h.live a ha)
  new a ha := (k.new a ha).elim (h.new a) .inr
  away o ho := (k.away o ho).elim (h.away o) .inr

theorem foldl {α : Type} {f : Dev → α → Dev} (h : ∀ (d : Dev) x, d.Fetches (f d x)) (l : List α) : ∀ d : Dev, d.Fetches (l.foldl f d) := by
  induction l with
  | nil => exact fun d => refl d
  | cons x l ih => exact fun d => (h d x).trans (ih _)

/-- What of `d` no access of a stream concerns. -/
theorem same {d e : Dev} (h : d.Fetches e) : e.host = d.host ∧ e.lnd = d.lnd ∧ e.fry = d.fry ∧ e.regs = d.regs ∧ e.glb = d.glb := by
  obtain ⟨_, _, _, _, _, rfl⟩ := h.frame
  exact ⟨rfl, rfl, rfl, rfl, rfl⟩

theorem hasNode {d e : Dev} (h : d.Fetches e) (n : Nat) : e.hasNode n = d.hasNode n := by
  obtain ⟨_, _, _, _, _, rfl⟩ := h.frame
  rfl

/-- A package at rest is at rest but for them. -/
theorem calm {d e : Dev} (h : d.Fetches e) (hq : quiet d) : e.Calm := by
  have haway := h.away
  obtain ⟨_, _, _, src, _, rfl⟩ := h.frame
  obtain ⟨-, -, -, -, hnone, -⟩ := id hq
  refine ⟨quiet_rest (d := d) ?_ hq, fun o ho => (haway o ho).resolve_left fun hd => ?_⟩
  · simp only [Dev.rest, hnone]
  · rw [hnone] at hd
    exact List.not_mem_nil hd

end Dev.Fetches

section
variable (d : Dev)

theorem Dev.fetches_xlt (x : Xlt) : d.Fetches { d with xlt := x } :=
  ⟨⟨_, _, _, _, _, rfl⟩, rfl, fun _ h => h, fun _ h => .inl h, fun _ h => .inl h⟩

theorem Dev.fetches_newId : d.Fetches d.newId.2 :=
  ⟨⟨_, _, _, _, _, rfl⟩, rfl, fun _ h => h, fun _ h => .inl h, fun _ h => .inl h⟩

theorem Dev.fetches_count (p i k : Nat) : d.Fetches (d.count p i k) := by
  unfold Dev.count
  split
  · exact .refl d
  · exact ⟨⟨_, _, _, _, _, rfl⟩, rfl, fun _ h => h, fun _ h => .inl h, fun _ h => .inl h⟩

theorem Dev.fetches_issueAcc {a : Acc} (h : a.ofStream) : d.Fetches (d.issueAcc a) := by
  obtain ⟨out, epochs, src, hsend⟩ := d.sends_issueAcc a
  obtain ⟨o, rfl, -, ho⟩ := d.issueAcc_eq a
  obtain ⟨hf, -, hn, hm⟩ := d.issue_live o
  rw [ho] at hsend ⊢
  refine ⟨⟨out, epochs, d.cnts, src, d.xlt, hsend⟩, hf, fun b hb => (hm b).2 (.inl hb), fun b hb => ?_, fun p hp => ?_⟩
  · exact ((hm b).1 hb).imp_right fun hb => by rw [hb]; exact h
  · rw [hn] at hp
    split at hp
    · exact .inl hp
    · exact (List.mem_append.1 hp).imp_right fun hp => by rw [List.mem_singleton.1 hp]; exact h

theorem Dev.fetches_tableRead (id ctx landing ticket gpa len : Nat) : d.Fetches (d.tableRead (.prefetch id) ctx landing ticket gpa len) :=
  d.fetches_newId.trans (Dev.fetches_issueAcc _ ⟨id, rfl⟩)

theorem Dev.fetches_prefetchStep (p : Prefetch) (st : XStep) : d.Fetches (d.prefetchStep p st) := by
  unfold Dev.prefetchStep
  dsimp only
  split
  · exact d.fetches_xlt _
  · split
    · exact d.fetches_xlt _
    · refine Dev.Fetches.trans ?_ (Dev.fetches_tableRead ..)
      split
      · exact (d.fetches_xlt _).trans (Dev.fetches_count ..)
      · exact d.fetches_xlt _

theorem Dev.fetches_prefetchPage (ctx page : Nat) : d.Fetches (d.prefetchPage ctx page) := by
  unfold Dev.prefetchPage
  split
  · exact .refl d
  · exact d.fetches_newId.trans (Dev.fetches_prefetchStep ..)

theorem Dev.fetches_streamTile (num t : Nat) : d.Fetches (d.streamTile num t) := by
  unfold Dev.streamTile
  split
  · exact .refl d
  · split
    · exact .refl d
    · exact (d.fetches_xlt _).trans (Dev.Fetches.foldl (fun d p => d.fetches_prefetchPage _ p) _ _)

theorem Dev.fetches_streamTouch (ctx lva len : Nat) : d.Fetches (d.streamTouch ctx lva len) := by
  unfold Dev.streamTouch
  refine Dev.Fetches.foldl (fun e s => ?_) _ d
  exact Dev.Fetches.foldl (fun e t => e.fetches_streamTile _ t) _ e

end

/-- A port's request whose page its landing's translation buffer holds, with the permission, is translated at once (R85). -/
theorem Pkg.translate_hit {x : Pkg} {r : XReq} {e : TEntry} (hbar : x.2.ctxBarred r = false) (hport : r.port = true)
    (hfind : findT r.ctx (r.lva / 2 ^ 21) (nth x.2.xlt.ltb r.landing []) = some e) (hland : e.landing = r.landing)
    (hperm : bit e.perm (permBit r.kind) = true) :
    ∃ d, x.translate r = (some (.hit e.gpaPage e.landing), (x.1, d)) ∧ x.2.Fetches d := by
  refine ⟨(x.2.ltbPut r.landing e).streamTouch r.ctx r.lva r.len, ?_, (x.2.fetches_xlt _).trans (Dev.fetches_streamTouch ..)⟩
  simp only [Pkg.translate, Pkg.translateOn, hbar, hport, hfind, Dev.xltLookup, if_true, hperm]
  simp [hland]

/-! ### A package at rest but for accesses of streams (R32) -/

theorem Dev.Calm.of_rest {d e : Dev} (h : d.Calm) (hrest : Dev.rest { e with src := { e.src with noNode := [] } } =
    Dev.rest { d with src := { d.src with noNode := [] } }) (haway : ∀ o ∈ e.src.noNode, o.acc.ofStream) : e.Calm :=
  ⟨quiet_rest hrest h.1, haway⟩

/-- All that a package at rest but for accesses of no node does of itself is to end them. -/
theorem settleOne_idle {x : Pkg} (h : quiet { x.2 with src := { x.2.src with noNode := [] } }) : x.settleOne = x.noNodeStep := by
  obtain ⟨hxfers, hports, hgates, hhost, -, hjobs, hdisp⟩ := h
  have htake : x.2.xferTake = none := by rw [Dev.xferTake, show x.2.fry.xfers = [] from hxfers]; rfl
  have hdock : (List.range 4).findSome? (fun n => x.dockStep n) = none := by
    rw [List.findSome?_eq_none_iff]
    exact fun n hn => dockStep_none (hports n (by simp at hn; omega))
  have hport : (List.range 5).findSome? (fun p => x.portStep p) = none := by
    rw [List.findSome?_eq_none_iff]
    exact fun n hn => portStep_none (hports n (by simpa using hn))
  have hgate : (List.range 4).findSome? (fun n => x.lndGateStep n) = none := by
    rw [List.findSome?_eq_none_iff]
    exact fun n hn => lndGateStep_none (hgates n (by simpa using hn))
  unfold Pkg.settleOne
  rw [htake, hdock, hport, hgate, hostGateStep_none hhost, jobStep_none hjobs, dispStep_none hdisp]
  cases x.noNodeStep <;> rfl

theorem settleOne_calm {x : Pkg} (h : x.2.Calm) : x.settleOne = x.noNodeStep := settleOne_idle h.1

theorem Dev.live_fenceNote (d : Dev) (a : Acc) (st : Nat) : (d.fenceNote a st).liveAccs = d.liveAccs := by
  obtain ⟨-, -, -, -, -, hreqs, hheld, hnoNode, -⟩ := d.fenceNote_frame a st
  rw [Dev.liveAccs, hreqs, hheld, hnoNode]
  rfl

theorem Dev.prefetchAnswer_failed {st : Nat} (d : Dev) (id : Nat) (v : List Byte) (h : st ≠ sOk) :
    ∃ xlt, d.prefetchAnswer id st v = { d with xlt := xlt } := by
  unfold Dev.prefetchAnswer
  split
  · exact ⟨_, rfl⟩
  · dsimp only
    rw [if_pos (.inr h)]
    exact ⟨_, rfl⟩

/-- The end of such an access leaves memory and every other access in hand. -/
theorem noNodeStep_calm {x y : Pkg} (h : x.2.Calm) (hy : x.noNodeStep = some y) :
    y.1 = x.1 ∧ y.2.Calm ∧ ∀ a ∈ x.2.liveAccs, ¬a.ofStream → a ∈ y.2.liveAccs := by
  unfold Pkg.noNodeStep at hy
  split at hy
  · cases hy
  · next o l hl =>
    obtain ⟨id, hp⟩ := h.2 o (by rw [hl]; exact List.mem_cons_self)
    simp only [Pkg.deliver, hp, Option.some.injEq] at hy
    subst hy
    obtain ⟨hfry, hlnd, hhost, -, -, -, -, hnoNode, -⟩ := ({ x.2 with src := { x.2.src with noNode := l } } : Dev).fenceNote_frame o.acc sRights
    have hlive := ({ x.2 with src := { x.2.src with noNode := l } } : Dev).live_fenceNote o.acc sRights
    generalize ({ x.2 with src := { x.2.src with noNode := l } } : Dev).fenceNote o.acc sRights = e at hfry hlnd hhost hnoNode hlive
    obtain ⟨-, hpaway, -, hplive⟩ := e.pumpSrc_live
    obtain ⟨out, epochs, src, hsend⟩ := e.sends_pumpSrc
    obtain ⟨xlt, hans⟩ := e.pumpSrc.prefetchAnswer_failed id [] (st := sRights) (by decide)
    have hcalm : e.pumpSrc.Calm := by
      refine h.of_rest ?_ fun p hp => h.2 p ?_
      · rw [hsend]
        simp only [Dev.rest, hfry, hlnd, hhost]
      · rw [hpaway, hnoNode] at hp
        rw [hl]
        exact List.mem_cons_of_mem _ hp
    rw [Pkg.dev, hans]
    refine ⟨rfl, hcalm, fun a ha hno => (hplive a).2 ?_⟩
    rw [hlive]
    simp only [Dev.liveAccs, hl, List.map_cons, List.mem_append, List.mem_cons] at ha ⊢
    obtain ha | rfl | ha := ha
    · exact .inl ha
    · exact absurd ⟨id, hp⟩ hno
    · exact .inr ha

/-- A package at rest but for such accesses goes on until they have ended. -/
theorem settleFor_calm (n : Nat) : ∀ x : Pkg, x.2.Calm → (Pkg.settleFor n x).1 = x.1 ∧
    ∀ a ∈ x.2.liveAccs, ¬a.ofStream → a ∈ (Pkg.settleFor n x).2.liveAccs := by
  induction n with
  | zero => exact fun x _ => ⟨rfl, fun a ha _ => ha⟩
  | succ n ih =>
    intro x hx
    unfold Pkg.settleFor
    split
    · next y hy =>
      obtain ⟨hstore, hcalm, hlive⟩ := noNodeStep_calm hx ((settleOne_calm hx).symm.trans hy)
      obtain ⟨hs, hl⟩ := ih y hcalm
      exact ⟨hs.trans hstore, fun a ha hno => hl a (hlive a ha hno) hno⟩
    · exact ⟨rfl, fun a ha _ => ha⟩

/-- One thing to do of itself: it is done first. -/
theorem settle_first {x y : Pkg} (h : x.settleOne = some y) : Pkg.settle x = Pkg.settleFor (settleFuel - 1) y := by
  have hsucc : Pkg.settleFor (1048575 + 1) x = Pkg.settleFor 1048575 y := by rw [Pkg.settleFor, h]
  exact hsucc

end Sys2Proof.Machine


/-!
SUPPORT. O30, a TLP through the host port: an access where its window lets it through (R477, R478), a doorbell, or a completion at once.
-/
namespace Sys2Proof.Machine

/-! ### A request in the host port's queue -/

section
variable {d : Dev} {m : Store} {r : PortReq} {e : TEntry}

/-- A request of one page that its landing's translation buffer answers joins its port's queue translated (R85). -/
theorem Pkg.portEnter_hit {p : Nat} (hp : p ≤ 4) (hop : opTranslates r.op = true) (haddr : r.o.addr < 2 ^ 57)
    (hpage : r.pages = [r.o.addr / 2 ^ 21]) (hbar : d.ctxBarred (r.xreq p 0 (r.o.addr / 2 ^ 21)) = false)
    (hfind : findT r.o.ctx (r.o.addr / 2 ^ 21) (nth d.xlt.ltb (portLanding p) []) = some e) (hland : e.landing = portLanding p)
    (hperm : bit e.perm (permBit (opKind r.op)) = true) :
    ∃ f, Pkg.portEnter p r (m, d) = (m, f.setPortQ p (f.portQ p ++ [{ r with xl := [some (.hit e.gpaPage e.landing)] }])) ∧ d.Fetches f := by
  have hlva : (r.xreq p 0 (r.o.addr / 2 ^ 21)).lva = r.o.addr := by
    simp only [PortReq.xreq]
    omega
  obtain ⟨f, htr, hf⟩ := Pkg.translate_hit (x := (m, d)) (r := r.xreq p 0 (r.o.addr / 2 ^ 21)) hbar (by simp [XReq.port, PortReq.xreq, hp])
    (by rw [hlva]; exact hfind) hland hperm
  refine ⟨f, ?_, hf⟩
  simp only [Pkg.portEnter, hop, if_true, hpage, List.zipIdx_cons, List.zipIdx_nil, List.foldl_cons, List.foldl_nil, htr, List.nil_append, Pkg.dev]

/-- Whose access a request of the host port becomes. -/
def PortReq.hostPurpose (r : PortReq) : Purpose :=
  match r.op with
  | 1 => .bar2Read r.tag r.part r.win
  | 2 => .bar2Write r.win
  | _ => .bar2Atomic r.tag r.win

/-- Nothing holds a request back where no fence holds its port or context, and no acquire its context. -/
theorem portHeld_unheld {p : Nat} (h : unheld d p r.o.ctx) : d.portHeld p r = false := by
  obtain ⟨hfence, hacquire⟩ := h
  simp only [Dev.portHeld, Dev.acquireHolds, Bool.or_eq_false_iff, Bool.and_eq_false_iff, List.any_eq_false]
  refine ⟨fun f hf hheld => ?_, .inr fun l hl hheld => ?_⟩
  · simp [hfence f hf] at hheld
  · obtain ⟨q, hq, hctx⟩ := List.any_eq_true.1 hheld
    simp [hacquire l hl q hq] at hctx

/-- A write of BAR2 is none of the accesses that streams bring. -/
theorem Dev.Fetches.hostWriting {f : Dev} (h : d.Fetches f) (hd : d.hostWriting = false) : f.hostWriting = false := by
  rw [Dev.hostWriting, List.any_eq_false] at hd ⊢
  intro a ha
  obtain hold | ⟨id, hid⟩ := h.new a ha
  · exact hd a hold
  · simp [hid]

/-- The access that a translated request of the host port becomes. -/
def PortReq.hostAcc (r : PortReq) (gpaPage : Nat) : Acc := r.acc 4 r.id (gpaIn gpaPage r.o.addr) (opKind r.op) r.hostPurpose

theorem Dev.hostIssue_hit {g l : Nat} (hop : r.op = 1 ∨ r.op = 2 ∨ r.op = 3) (hwriting : r.op = 1 → d.hostWriting = false)
    (hxl : r.xl = [some (.hit g l)]) : d.hostIssue r = some (d.issueAcc (r.hostAcc g)) := by
  unfold Dev.hostIssue
  rw [if_neg (by rintro ⟨h, hw⟩; simp [hwriting h] at hw), hxl]
  rcases hop with h | h | h
  · simp only [h, PortReq.hostAcc, PortReq.hostPurpose]
  · simp only [h, PortReq.hostAcc, PortReq.hostPurpose]
  · simp only [h, PortReq.hostAcc, PortReq.hostPurpose]

theorem PortReq.hostAcc_dest {g : Nat} (hop : r.op = 1 ∨ r.op = 2 ∨ r.op = 3) : (r.hostAcc g).dest = gpaNode (gpaIn g r.o.addr) := by
  rcases hop with h | h | h <;> simp [PortReq.hostAcc, PortReq.acc, Acc.dest, h, opKind, AKind.byRegion]

theorem PortReq.hostAcc_own {g : Nat} : ¬(r.hostAcc g).ofStream := by
  rintro ⟨id, h⟩
  simp only [PortReq.hostAcc, PortReq.acc, PortReq.hostPurpose] at h
  split at h <;> cases h

/-- The queue of the host port, with the one request `q`. -/
def Dev.hostQueued (q : PortReq) (d : Dev) : Dev := { d with host := { d.host with inQ := [q] } }

theorem Dev.hostQueued_back {q : PortReq} (h : d.host.inQ = []) : (d.hostQueued q).setPortQ 4 [] = d := by
  have hk : ({ d.host with inQ := [] } : HostPort) = d.host := by rw [← h]
  show ({ d with host := { d.host with inQ := [] } } : Dev) = d
  rw [hk]

/-- A request that is the only one in the port's queue, and which nothing holds, is issued once it is translated. -/
theorem Pkg.portStep_host {q : PortReq} {g l : Nat} (hinQ : d.host.inQ = []) (hop : q.op = 1 ∨ q.op = 2 ∨ q.op = 3) (hxl : q.xl = [some (.hit g l)])
    (hfree : unheld d 4 q.o.ctx) (hwriting : q.op = 1 → d.hostWriting = false) :
    Pkg.portStep 4 (m, d.hostQueued q) = some (m, d.issueAcc (q.hostAcc g)) := by
  have hqueue : (d.hostQueued q).portQ 4 = [q] := rfl
  have hheld : (d.hostQueued q).portHeld 4 q = false := portHeld_unheld (d := d.hostQueued q) hfree
  have hbell : ¬q.op = 0x0F := by omega
  unfold Pkg.portStep
  simp only [hqueue, hheld, Bool.false_eq_true, if_false, if_true, hbell, Dev.hostQueued_back hinQ, Dev.hostIssue_hit hop hwriting hxl, Option.map_some]

/-- The package rests, but for accesses of streams, once an access of a node of the domain is issued. -/
theorem Dev.Calm.issueAcc {a : Acc} (h : d.Calm) (hnode : d.hasNode a.dest = true) : (d.issueAcc a).Calm := by
  obtain ⟨-, -, hnone, -⟩ := d.issueAcc_live hnode
  obtain ⟨_, _, _, hsend⟩ := d.sends_issueAcc a
  refine h.of_rest ?_ (by rw [hnone]; exact h.2)
  rw [hsend]
  rfl

/-- A translated request that is the only one in the port's queue is issued. -/
theorem hostQueue_issues {q : PortReq} {g l : Nat} (hcalm : d.Calm) (hop : q.op = 1 ∨ q.op = 2 ∨ q.op = 3) (hxl : q.xl = [some (.hit g l)])
    (hfree : unheld d 4 q.o.ctx) (hwriting : q.op = 1 → d.hostWriting = false) (hnode : d.hasNode (gpaNode (gpaIn g q.o.addr)) = true) :
    (Pkg.settle (m, d.hostQueued q)).1 = m ∧ q.hostAcc g ∈ (Pkg.settle (m, d.hostQueued q)).2.liveAccs := by
  obtain ⟨⟨hxfers, hports, -⟩, -⟩ := id hcalm
  have hlnds : ∀ n < 4, (d.hostQueued q).portQ n = [] := fun n hn => by
    have h := hports n (by omega)
    rw [Dev.portQ, if_pos hn] at h ⊢
    exact h
  have hdest : d.hasNode (q.hostAcc g).dest = true := by rw [PortReq.hostAcc_dest hop]; exact hnode
  obtain ⟨-, -, -, hin⟩ := d.issueAcc_live hdest
  have hinQ : d.host.inQ = [] := hports 4 (by omega)
  have hstep := Pkg.portStep_host (m := m) hinQ hop hxl hfree hwriting
  obtain ⟨hstore, hlive⟩ := settleFor_calm (settleFuel - 1) (m, d.issueAcc (q.hostAcc g)) (hcalm.issueAcc hdest)
  rw [settle_first (settleOne_port (p := 4) hxfers (fun n hn => dockStep_none (hlnds n hn)) (by omega) hlnds hstep)]
  exact ⟨hstore, hlive _ ((hin _).2 (.inr rfl)) PortReq.hostAcc_own⟩

/-- A translated request of the host port that nothing holds is issued at once. -/
theorem hostEnter_issues (hq : quiet d) (hop : r.op = 1 ∨ r.op = 2 ∨ r.op = 3) (haddr : r.o.addr < 2 ^ 57)
    (hpage : r.pages = [r.o.addr / 2 ^ 21]) (hbar : d.ctxBarred (r.xreq 4 0 (r.o.addr / 2 ^ 21)) = false)
    (hfind : findT r.o.ctx (r.o.addr / 2 ^ 21) (nth d.xlt.ltb 0 []) = some e) (hland : e.landing = 0)
    (hperm : bit e.perm (permBit (opKind r.op)) = true) (hfree : unheld d 4 r.o.ctx) (hwriting : r.op = 1 → d.hostWriting = false)
    (hnode : d.hasNode (gpaNode (gpaIn e.gpaPage r.o.addr)) = true) :
    (Pkg.settle (Pkg.portEnter 4 r (m, d))).1 = m ∧
      r.hostAcc e.gpaPage ∈ (Pkg.settle (Pkg.portEnter 4 r (m, d))).2.liveAccs := by
  obtain ⟨f, henter, hf⟩ := Pkg.portEnter_hit (m := m) (p := 4) (by omega) (by rcases hop with h | h | h <;> simp [h, opTranslates]) haddr hpage hbar
    hfind hland hperm
  have hfree' : unheld f 4 r.o.ctx := by
    obtain ⟨-, hlnd, -⟩ := hf.same
    rw [unheld, hf.fences, hlnd]
    exact hfree
  have hwriting' := fun h => hf.hostWriting (hwriting h)
  have hcalm := hf.calm hq
  have hnode' : f.hasNode (gpaNode (gpaIn e.gpaPage r.o.addr)) = true := (hf.hasNode _).trans hnode
  have hset : f.setPortQ 4 (f.portQ 4 ++ [{ r with xl := [some (.hit e.gpaPage e.landing)] }]) =
      f.hostQueued { r with xl := [some (.hit e.gpaPage e.landing)] } := by
    have hinQ : f.portQ 4 = [] := hcalm.1.2.1 4 (by omega)
    rw [hinQ]
    rfl
  rw [henter, hset]
  exact hostQueue_issues (q := { r with xl := [some (.hit e.gpaPage e.landing)] }) hcalm hop rfl hfree' hwriting' hnode'

end

/-! ### A TLP that the port takes -/

/-- The package once the host port has counted a TLP. -/
def Dev.tlpCounted (d : Dev) : Dev := d.count 0x18 0 1

theorem Dev.tlpCounted_eq (d : Dev) : ∃ c, d.tlpCounted = { d with cnts := c } := by
  unfold Dev.tlpCounted Dev.count
  split
  · exact ⟨_, rfl⟩
  · exact ⟨_, rfl⟩

theorem Dev.tlpWaits_counted (d : Dev) (t : HTlp) (v : HWin) : d.tlpCounted.tlpWaits t v = d.tlpWaits t v := by
  obtain ⟨c, h⟩ := d.tlpCounted_eq
  rw [h]
  rfl

theorem Dev.tlpWin_counted (d : Dev) (t : HTlp) : d.tlpCounted.tlpWin t = d.tlpWin t := by
  obtain ⟨c, h⟩ := d.tlpCounted_eq
  rw [h]
  rfl

theorem Dev.winStop_counted (d : Dev) (v : HWin) : d.tlpCounted.winStop v = d.winStop v := by
  obtain ⟨c, h⟩ := d.tlpCounted_eq
  rw [h]
  rfl

theorem quiet_counted {d : Dev} (h : quiet d) : quiet d.tlpCounted := by
  obtain ⟨c, hc⟩ := d.tlpCounted_eq
  rw [hc]
  exact h

section
variable {s : State}

/-- A TLP that need not wait is taken at once, and the package goes on. -/
theorem hostTlp_takes (hup : hostUp s) {i : Instr} {t : HTlp} (hi : exec i s = onPkg (Pkg.hostTlp t) s)
    (hwait : s.dev.tlpWaits t (s.dev.tlpWin t) = false) :
    exec i s = .next (withPkg s (Pkg.settle (Pkg.tlpIn t (s.dev.tlpWin t) (s.store, s.dev.tlpCounted)))) := by
  obtain ⟨hrun, hdom, hopen, hawake, -, ⟨-, -, -, hgate, -⟩, -⟩ := hup
  have hperst : ¬s.dev.rd F.GLB_PIN_STAT_PERST = 1 := by
    intro h
    simp [Dev.hostOpen, h] at hopen
  rw [hi, onPkg_running hrun hdom]
  congr 2
  unfold Pkg.hostTlp
  rw [if_neg hperst]
  have hcount : s.dev.count 0x18 0 1 = s.dev.tlpCounted := rfl
  have hhost : s.dev.tlpCounted.host = s.dev.host := by
    obtain ⟨c, h⟩ := s.dev.tlpCounted_eq
    rw [h]
  simp only [Pkg.dev, hcount, Dev.tlpWin_counted, Dev.tlpWaits_counted, hwait, hhost, hawake, hgate]
  rfl

/-- A TLP that names a stopped window, or none, does not wait. -/
theorem tlpWaits_stopped (hup : hostUp s) {t : HTlp} {v : HWin} (h : t.span = none ∨ (s.dev.winStop v).isSome = true) :
    s.dev.tlpWaits t v = false := by
  obtain ⟨-, -, hopen, -, hroom, -⟩ := hup
  unfold Dev.tlpWaits
  rcases h with h | h
  · simp [hopen, h, Nat.not_le.2 hroom]
  · rcases ht : t.span with _ | ⟨off, len⟩
    · simp [hopen, Nat.not_le.2 hroom]
    · simp [hopen, Nat.not_le.2 hroom, Option.isSome_iff_ne_none.1 h]

/-- A TLP that is completed at once leaves the package at rest. -/
theorem hostTlp_ends (hup : hostUp s) {i : Instr} {t : HTlp} (hi : exec i s = onPkg (Pkg.hostTlp t) s)
    (hwait : s.dev.tlpWaits t (s.dev.tlpWin t) = false) {e : Dev} (hin : Pkg.tlpIn t (s.dev.tlpWin t) (s.store, s.dev.tlpCounted) = (s.store, e))
    (hrest : e.rest = s.dev.tlpCounted.rest) : exec i s = .next { s with dev := e } := by
  obtain ⟨-, -, -, -, -, hq, -⟩ := id hup
  rw [hostTlp_takes hup hi hwait, hin, settle_quiet (quiet_rest hrest (quiet_counted hq))]
  rfl

theorem Dev.rest_cpl (d : Dev) (id st : Nat) (v : List Byte) : (d.cpl id st v).rest = d.rest := by
  rw [Dev.cpl, Dev.rest_emit, Dev.rest_count]

theorem Dev.tlpCounted_frame (d : Dev) : d.tlpCounted.out = d.out ∧ d.tlpCounted.regs = d.regs ∧ d.tlpCounted.src = d.src := by
  obtain ⟨c, h⟩ := d.tlpCounted_eq
  rw [h]
  exact ⟨rfl, rfl, rfl⟩

theorem bar2Read_notReady (hup : hostUp s) (id off len : Nat) (hboot : s.dev.booted = false) :
    ∃ t, exec (.bar2Read id off len) s = .next t ∧ t.store = s.store ∧ t.dev.out = s.dev.out ++ [.cpl id 4 []] ∧ t.dev.regs = s.dev.regs := by
  have hstop : s.dev.winStop (s.dev.tlpWin (.read id off len)) = some none := by simp [Dev.winStop, hboot]
  obtain ⟨hregs, -, hout⟩ := s.dev.tlpCounted.cpl_frame id 4 []
  obtain ⟨hcout, hcregs, -⟩ := s.dev.tlpCounted_frame
  refine ⟨_, hostTlp_ends hup (t := .read id off len) rfl (tlpWaits_stopped hup (.inr (by rw [hstop]; rfl))) ?_ (Dev.rest_cpl _ id 4 []), rfl,
    hout.trans (by rw [hcout]), hregs.trans hcregs⟩
  simp only [Pkg.tlpIn, Pkg.bar2Read, Dev.winStop_counted, hstop, Pkg.dev]

theorem Dev.winFail_stat (d : Dev) {w st : Nat} (hst : st < 16) : (d.winFail w st).rdi F.PCIE_WIN_STAT_LAST_STATUS w = st ∧
    (d.winFail w st).rdi F.PCIE_WIN_STAT_ERRORS w = satAdd 16 (d.rdi F.PCIE_WIN_STAT_ERRORS w) 1 := by
  have hsat : satAdd 16 (d.rdi F.PCIE_WIN_STAT_ERRORS w) 1 < 2 ^ 16 := by
    unfold satAdd
    omega
  refine ⟨?_, ?_⟩
  · refine (Dev.rdpi_wrpi_ne _ _ _ _ _ _ _ _ (.inr (by decide))).trans ((Dev.rdpi_wrpi_same _ _ _ _ _ (by decide)).trans ?_)
    exact Nat.mod_eq_of_lt hst
  · exact (Dev.rdpi_wrpi_same _ _ _ _ _ (by decide)).trans (Nat.mod_eq_of_lt hsat)

theorem bar2Read_closed (hup : hostUp s) (id off len : Nat) (hboot : s.dev.booted = true) (htenant : s.dev.tenantOpen = true)
    (hoff : s.dev.rdi F.PCIE_WIN_CFG_ENABLE (winOf off) = 0) : ∃ t, exec (.bar2Read id off len) s = .next t ∧ t.store = s.store ∧
      t.dev.out = s.dev.out ++ [.cpl id 4 []] ∧ t.dev.rdi F.PCIE_WIN_STAT_LAST_STATUS (winOf off) = sFault ∧
      t.dev.rdi F.PCIE_WIN_STAT_ERRORS (winOf off) = satAdd 16 (s.dev.rdi F.PCIE_WIN_STAT_ERRORS (winOf off)) 1 := by
  have hstop : s.dev.winStop (s.dev.tlpWin (.read id off len)) = some (some sFault) := by
    have henable : (s.dev.tlpWin (.read id off len)).enable = false := by
      show (s.dev.rdi F.PCIE_WIN_CFG_ENABLE (winOf off) == 1) = false
      rw [hoff]
      rfl
    simp [Dev.winStop, hboot, htenant, henable]
  obtain ⟨hregs, -, hout⟩ := (s.dev.tlpCounted.winFail (winOf off) sFault).cpl_frame id 4 []
  obtain ⟨hstat, herrs⟩ := s.dev.tlpCounted.winFail_stat (w := winOf off) (st := sFault) (by decide)
  obtain ⟨hcout, hcregs, -⟩ := s.dev.tlpCounted_frame
  refine ⟨_, hostTlp_ends hup (t := .read id off len) rfl (tlpWaits_stopped hup (.inr (by rw [hstop]; rfl)))
    (e := (s.dev.tlpCounted.winFail (winOf off) sFault).cpl id 4 []) ?_ ?_, rfl, hout.trans (by rw [← hcout]; rfl), ?_, ?_⟩
  · simp only [Pkg.tlpIn, Pkg.bar2Read, Dev.winStop_counted, hstop, Pkg.dev]
    rfl
  · rw [Dev.rest_cpl]
    rfl
  · exact (Dev.rdpi_congr hregs _ _ _).trans hstat
  · exact (Dev.rdpi_congr hregs _ _ _).trans (herrs.trans (congrArg (satAdd 16 · 1) (Dev.rdpi_congr hcregs _ _ _)))

/-- An AtomicOp of three bytes (R474). -/
theorem bar2Atomic_size (hup : hostUp s) (id off : Nat) {data : List Byte} (hlen : data.length = 3)
    (hwait : s.dev.tlpWaits (.atomic id off 0 data) (s.dev.winAt off) = false) :
    ∃ t, exec (.bar2Atomic id off 0 data) s = .next t ∧ t.store = s.store ∧ t.dev.out = s.dev.out ++ [.cpl id 1 []] := by
  obtain ⟨-, -, hout⟩ := s.dev.tlpCounted.cpl_frame id 1 []
  obtain ⟨hcout, -⟩ := s.dev.tlpCounted_frame
  refine ⟨_, hostTlp_ends hup (t := .atomic id off 0 data) rfl hwait ?_ (Dev.rest_cpl _ id 1 []), rfl, hout.trans (by rw [hcout])⟩
  simp [Pkg.tlpIn, Pkg.bar2Atomic, hlen, Pkg.dev]

/-- A BAR4 write that names no doorbell (R353). -/
theorem bar4Doorbell_elsewhere (hup : hostUp s) (off : Nat) (v : W32) (h : 0x40000 ≤ off ∨ (off % 0x1000 ≠ 0 ∧ off % 0x1000 ≠ 8)) :
    exec (.bar4Doorbell off v) s = .next { s with dev := s.dev.count 0x18 0 1 } := by
  refine hostTlp_ends hup (t := .bell off v.toNat) rfl (tlpWaits_stopped hup (.inl rfl)) ?_ rfl
  rw [Pkg.tlpIn, Pkg.bar4, if_pos h]
  rfl

end

/-! ### A TLP through an open window -/

/-- Bytes within one block of 256 make one part. -/
theorem tlpParts_one {lva len : Nat} (hlen : 1 ≤ len) (hblock : lva % 256 + len ≤ 256) : tlpParts lva len = [(0, len)] := by
  have hone : (lva + len - 1) / 256 - lva / 256 + 1 = 1 := by omega
  have hlow : max lva (lva / 256 * 256) = lva := by omega
  have hhigh : min (lva + len) ((lva / 256 + 1) * 256) - lva = len := by omega
  simp [tlpParts, bulkParts, hone, hlow, hhigh]

/-- They lie in one page. -/
theorem PortReq.pages_one {r : PortReq} (hop : r.op ≠ 4) (haddr : r.o.addr < 2 ^ 57) (hblock : r.o.addr % 256 + opdLen r.o ≤ 256) :
    r.pages = [r.o.addr / 2 ^ 21] := by
  have hlen : 1 ≤ opdLen r.o := by simp [opdLen]
  have hlow : r.o.addr % 2 ^ 57 = r.o.addr := Nat.mod_eq_of_lt haddr
  have hone : (r.o.addr + opdLen r.o - 1) / 2 ^ 21 - r.o.addr / 2 ^ 21 + 1 = 1 := by omega
  rw [PortReq.pages, if_neg hop, hlow, hone]
  simp

section
variable {s : State} {off len : Nat} {e : TEntry}

theorem winAddr_lt (off : Nat) (s : State) : winAddr off s < 2 ^ 57 := Nat.mod_lt _ (by decide)

/-- A TLP through an open window does not wait: its page is in the translation buffer (R90). -/
theorem tlpWaits_mapped (hup : hostUp s) (hmap : winMapped off len e s) {t : HTlp} (ht : t.span = some (off, len)) :
    s.dev.tlpWaits t (s.dev.winAt off) = false := by
  obtain ⟨-, -, hopen, -, hroom, -⟩ := hup
  obtain ⟨-, hpos, hblock, hfind, -⟩ := hmap
  have hpages : ((s.dev.winAt off).probe len s.dev.ticket).pages = [winAddr off s / 2 ^ 21] :=
    PortReq.pages_one (r := (s.dev.winAt off).probe len s.dev.ticket) (by simp [HWin.probe]) (winAddr_lt off s)
      (show winAddr off s % 256 + (len - 1 + 1) ≤ 256 by omega)
  have hmiss : s.dev.missWaits 4 ((s.dev.winAt off).probe len s.dev.ticket) = false := by
    have hhit : findT ((s.dev.winAt off).probe len s.dev.ticket).o.ctx (winAddr off s / 2 ^ 21) (nth s.dev.xlt.ltb (portLanding 4) []) = some e := hfind
    simp only [Dev.missWaits, hpages, List.filter_cons, hhit]
    simp
  simp [Dev.tlpWaits, hopen, Nat.not_le.2 hroom, ht, hmiss]

/-- Its one part is issued at once: an access at the translated address. -/
theorem mapped_issues (hup : hostUp s) (hmap : winMapped off len e s) {r : PortReq} (hop : r.op = 1 ∨ r.op = 2 ∨ r.op = 3)
    (haddr : r.o.addr = winAddr off s) (hctx : r.o.ctx = winCtx off s) (hlen : opdLen r.o = len)
    (hperm : bit e.perm (permBit (opKind r.op)) = true) (hwriting : r.op = 1 → s.dev.hostWriting = false) (ops : List Bar2) :
    let d := { s.dev.tlpCounted.newId.2 with host := { s.dev.host with ops := ops } }
    (Pkg.settle (Pkg.portEnter 4 r (s.store, d))).1 = s.store ∧
      r.hostAcc e.gpaPage ∈ (Pkg.settle (Pkg.portEnter 4 r (s.store, d))).2.liveAccs := by
  obtain ⟨-, -, -, -, -, hq, -⟩ := hup
  obtain ⟨-, hpos, hblock, hfind, hland, hstage, hrole, hnode, hctxs, hfree⟩ := hmap
  rw [← haddr] at hfind hnode hblock
  rw [← hctx] at hfind hctxs hfree
  have hlow : r.o.addr < 2 ^ 57 := by rw [haddr]; exact winAddr_lt off s
  have hpage := PortReq.pages_one (r := r) (by omega) hlow (by rw [hlen]; exact hblock)
  obtain ⟨c, hc⟩ := s.dev.tlpCounted_eq
  rw [hc]
  refine hostEnter_issues ?_ hop hlow hpage ?_ hfind hland hperm hfree hwriting hnode
  · obtain ⟨hxfers, hports, hgates, hgate, hrest⟩ := hq
    exact ⟨hxfers, hports, hgates, hgate, hrest⟩
  · have hbar : s.dev.ctxBarred (r.xreq 4 0 (r.o.addr / 2 ^ 21)) = false := by
      unfold Dev.ctxBarred
      simp only [PortReq.xreq]
      simp only [hstage]
      simp [Nat.not_lt.2 hctxs]
      exact fun _ => hrole
    exact hbar

/-- The first part of a TLP as it enters the queue (R477). -/
def hostReq (op tag id ticket len : Nat) (data : List Byte) (v : HWin) (w : Nat) : PortReq :=
  { id := id, op := op, tag := tag, o := { addr := (v.lva + 0) % 2 ^ 57, ctx := v.ctx, lengthM1 := len - 1 }
    data := if data.isEmpty then [] else sliceBytes data 0 len, ticket := ticket, part := 0, win := w }

/-- A TLP of one part enters the queue whole. -/
theorem Pkg.hostEnter_one {v : HWin} (hparts : tlpParts v.lva len = [(0, len)]) (x : Pkg) (op tag w : Nat) (data : List Byte) :
    x.hostEnter op tag w v len data =
      Pkg.portEnter 4 (hostReq op tag x.2.src.nextId x.2.newId.2.ticket len data v w) (x.1, x.2.newId.2) := by
  unfold Pkg.hostEnter
  rw [hparts]
  rfl

/-- What `hostReq` asks for. -/
theorem hostReq_span (op tag id ticket : Nat) {v : HWin} (hpos : 1 ≤ len) (hlva : v.lva < 2 ^ 57) (data : List Byte) (w : Nat) :
    (hostReq op tag id ticket len data v w).o.addr = v.lva ∧ opdLen (hostReq op tag id ticket len data v w).o = len := by
  refine ⟨Nat.mod_eq_of_lt hlva, ?_⟩
  show len - 1 + 1 = len
  omega

theorem Pkg.bar2Read_enters {v : HWin} {x : Pkg} (hstop : x.2.winStop v = none) (hpos : 1 ≤ len) (hparts : tlpParts v.lva len = [(0, len)]) (tag : Nat) :
    ∃ ops, x.bar2Read tag off len v = Pkg.portEnter 4 (hostReq 1 tag x.2.src.nextId x.2.newId.2.ticket len [] v (winOf off))
      (x.1, { x.2.newId.2 with host := { x.2.host with ops := ops } }) := by
  unfold Pkg.bar2Read
  rw [hstop]
  dsimp only
  rw [if_neg (by omega), Pkg.hostEnter_one hparts]
  exact ⟨_, rfl⟩

/-- Its access is in hand, once the window has let it through. -/
theorem mapped_taken (hup : hostUp s) (hmap : winMapped off len e s) {i : Instr} (t : HTlp) {r : PortReq} (hop : r.op = 1 ∨ r.op = 2 ∨ r.op = 3)
    (hi : exec i s = onPkg (Pkg.hostTlp t) s) (ht : t.span = some (off, len)) (haddr : r.o.addr = winAddr off s) (hctx : r.o.ctx = winCtx off s)
    (hlen : opdLen r.o = len) (hin : ∃ ops, Pkg.tlpIn t (s.dev.winAt off) (s.store, s.dev.tlpCounted) =
      Pkg.portEnter 4 r (s.store, { s.dev.tlpCounted.newId.2 with host := { s.dev.host with ops := ops } }))
    (hperm : bit e.perm (permBit (opKind r.op)) = true) (hwriting : r.op = 1 → s.dev.hostWriting = false) :
    ∃ u, exec i s = .next u ∧ u.store = s.store ∧ r.hostAcc e.gpaPage ∈ u.dev.liveAccs := by
  obtain ⟨ops, hin⟩ := hin
  have hwin : s.dev.tlpWin t = s.dev.winAt off := by simp [Dev.tlpWin, ht]
  have htakes := hostTlp_takes hup hi (by rw [hwin]; exact tlpWaits_mapped hup hmap ht)
  obtain ⟨hstore, hlive⟩ := mapped_issues hup hmap hop haddr hctx hlen hperm hwriting ops
  rw [hwin, hin] at htakes
  exact ⟨_, htakes, hstore, hlive⟩

theorem bar2Read_mapped (hup : hostUp s) (hmap : winMapped off len e s) (tag : Nat) (hperm : bit e.perm 0 = true)
    (hwriting : s.dev.hostWriting = false) : ∃ t, exec (.bar2Read tag off len) s = .next t ∧ t.store = s.store ∧
      ∃ a ∈ t.dev.liveAccs, a.id = s.dev.src.nextId ∧ a.eng = 4 ∧ a.ctx = winCtx off s ∧ a.kind = .read ∧
        a.gpa = gpaIn e.gpaPage (winAddr off s) ∧ a.len = len ∧ a.purpose = .bar2Read tag 0 (winOf off) := by
  obtain ⟨hstop, hpos, hblock, -⟩ := id hmap
  obtain ⟨haddr, hlen⟩ := hostReq_span 1 tag s.dev.src.nextId s.dev.tlpCounted.newId.2.ticket (v := s.dev.winAt off) hpos (winAddr_lt off s) [] (winOf off)
  have henter := Pkg.bar2Read_enters (off := off) (x := (s.store, s.dev.tlpCounted)) ((Dev.winStop_counted ..).trans hstop) hpos
    (tlpParts_one hpos hblock) tag
  obtain ⟨c, hc⟩ := s.dev.tlpCounted_eq
  obtain ⟨t, hexec, hstore, hlive⟩ := mapped_taken hup hmap (i := .bar2Read tag off len) (.read tag off len)
    (r := hostReq 1 tag s.dev.src.nextId s.dev.tlpCounted.newId.2.ticket len [] (s.dev.winAt off) (winOf off)) (.inl rfl) rfl rfl haddr rfl hlen
    (by rw [hc] at henter ⊢; exact henter) hperm fun _ => hwriting
  exact ⟨t, hexec, hstore, _, hlive, rfl, rfl, rfl, rfl, congrArg (gpaIn e.gpaPage) haddr, hlen, rfl⟩

theorem bar2Write_mapped {data : List Byte} (hup : hostUp s) (hmap : winMapped off data.length e s) (hperm : bit e.perm 1 = true) :
    ∃ t, exec (.bar2Write off data) s = .next t ∧ t.store = s.store ∧ ∃ a ∈ t.dev.liveAccs, a.id = s.dev.src.nextId ∧ a.eng = 4 ∧
      a.ctx = winCtx off s ∧ a.kind = .write ∧ a.gpa = gpaIn e.gpaPage (winAddr off s) ∧ a.len = data.length ∧ a.data = data ∧
      a.purpose = .bar2Write (winOf off) := by
  obtain ⟨hstop, hpos, hblock, -⟩ := id hmap
  have hsome : data.isEmpty = false := by
    cases data with
    | nil => simp at hpos
    | cons => rfl
  have hdata : (if data.isEmpty then [] else sliceBytes data 0 data.length) = data := by
    rw [hsome, sliceBytes_full (by omega)]
    simp
  obtain ⟨haddr, hlen⟩ := hostReq_span 2 0 s.dev.src.nextId s.dev.tlpCounted.newId.2.ticket (v := s.dev.winAt off) hpos (winAddr_lt off s) data (winOf off)
  obtain ⟨c, hc⟩ := s.dev.tlpCounted_eq
  have henter : Pkg.bar2Write off data (s.dev.winAt off) (s.store, s.dev.tlpCounted) =
      Pkg.portEnter 4 (hostReq 2 0 s.dev.src.nextId s.dev.tlpCounted.newId.2.ticket data.length data (s.dev.winAt off) (winOf off))
        (s.store, s.dev.tlpCounted.newId.2) := by
    have hone := Pkg.hostEnter_one (tlpParts_one hpos hblock) (v := s.dev.winAt off) (s.store, s.dev.tlpCounted) 2 0 (winOf off) data
    rw [hc] at hone ⊢
    unfold Pkg.bar2Write
    rw [show ({ s.dev with cnts := c } : Dev).winStop (s.dev.winAt off) = none from hstop, hsome]
    exact hone
  obtain ⟨t, hexec, hstore, hlive⟩ := mapped_taken hup hmap (i := .bar2Write off data) (.write off data)
    (r := hostReq 2 0 s.dev.src.nextId s.dev.tlpCounted.newId.2.ticket data.length data (s.dev.winAt off) (winOf off)) (.inr (.inl rfl)) rfl rfl haddr rfl
    hlen ⟨s.dev.host.ops, by rw [hc] at henter ⊢; exact henter⟩ hperm fun h => absurd (show 2 = 1 from h) (by decide)
  exact ⟨t, hexec, hstore, _, hlive, rfl, rfl, rfl, rfl, congrArg (gpaIn e.gpaPage) haddr, hlen, hdata, rfl⟩

/-- FetchAdd as it enters the queue (R474). -/
def hostFetchAdd (tag id ticket : Nat) (data : List Byte) (v : HWin) (w : Nat) : PortReq :=
  { id := id, op := 3, tag := tag, o := { addr := v.lva, ctx := v.ctx, lengthM1 := data.length - 1, aop := 0, fetch := true }, data := data
    ticket := ticket, win := w }

theorem Pkg.bar2Atomic_enters {v : HWin} {x : Pkg} {data : List Byte} (hstop : x.2.winStop v = none) (hlen : data.length = 4 ∨ data.length = 8)
    (halign : v.lva % data.length = 0) (tag : Nat) : ∃ ops, x.bar2Atomic tag off 0 data v =
      Pkg.portEnter 4 (hostFetchAdd tag x.2.src.nextId x.2.newId.2.ticket data v (winOf off))
        (x.1, { x.2.newId.2 with host := { x.2.host with ops := ops } }) := by
  have hsize : sizeBroken 3 { addr := v.lva, ctx := v.ctx, lengthM1 := data.length - 1, aop := 0, fetch := true } = none := by
    rcases hlen with h | h
    · rw [h] at halign
      simp [sizeBroken, opdLen, h, halign]
    · rw [h] at halign
      simp [sizeBroken, opdLen, h, halign]
  unfold Pkg.bar2Atomic
  dsimp only
  rw [if_neg (by decide : ¬(0 : Nat) = 1), if_neg (by rcases hlen with h | h <;> simp [h]), hstop]
  dsimp only
  rw [hsize]
  exact ⟨_, rfl⟩

theorem bar2Atomic_mapped {data : List Byte} (hup : hostUp s) (hmap : winMapped off data.length e s) (tag : Nat) (hperm : bit e.perm 2 = true)
    (hlen : data.length = 4 ∨ data.length = 8) (halign : winAddr off s % data.length = 0) :
    ∃ t, exec (.bar2Atomic tag off 0 data) s = .next t ∧ t.store = s.store ∧ ∃ a ∈ t.dev.liveAccs, a.id = s.dev.src.nextId ∧ a.eng = 4 ∧
      a.kind = .atomic ∧ a.aop = 0 ∧ a.fetch = true ∧ a.data = data ∧ a.gpa = gpaIn e.gpaPage (winAddr off s) ∧
      a.purpose = .bar2Atomic tag (winOf off) := by
  obtain ⟨hstop, hpos, -⟩ := id hmap
  obtain ⟨c, hc⟩ := s.dev.tlpCounted_eq
  have henter := Pkg.bar2Atomic_enters (off := off) (x := (s.store, s.dev.tlpCounted)) ((Dev.winStop_counted ..).trans hstop) hlen halign tag
  obtain ⟨t, hexec, hstore, hlive⟩ := mapped_taken hup hmap (i := .bar2Atomic tag off 0 data) (.atomic tag off 0 data)
    (r := hostFetchAdd tag s.dev.src.nextId s.dev.tlpCounted.newId.2.ticket data (s.dev.winAt off) (winOf off)) (.inr (.inr rfl)) rfl rfl rfl rfl
    (Nat.sub_add_cancel hpos) (by rw [hc] at henter ⊢; exact henter) hperm fun h => absurd (show 3 = 1 from h) (by decide)
  exact ⟨t, hexec, hstore, _, hlive, rfl, rfl, rfl, rfl, rfl, rfl, rfl, rfl⟩

/-- A doorbell as it enters the queue (R353). -/
def hostBell (id ticket off v : Nat) : PortReq :=
  { id := id, op := 0x0F, tag := 0, o := { addr := v }, data := [], ticket := ticket, part := off / 0x1000, win := if off % 0x1000 = 8 then 1 else 0 }

/-- It names no context, so that only a fence of its port holds it. -/
theorem portHeld_bell {d : Dev} {id ticket v : Nat} (h : ∀ f ∈ d.src.fences, f.holdEng ≠ some 4) :
    d.portHeld 4 (hostBell id ticket off v) = false := by
  simp only [Dev.portHeld, hostBell]
  simp only [beq_self_eq_true, Bool.and_self, Bool.not_true, Bool.false_and, Bool.or_false, List.any_eq_false]
  intro f hf
  simp [h f hf]

/-- It is rung where no BAR2 write awaits its acknowledgement (R354). -/
theorem Pkg.portStep_bell {m : Store} {d : Dev} {id ticket v : Nat} (hinQ : d.host.inQ = []) (hfree : ∀ f ∈ d.src.fences, f.holdEng ≠ some 4)
    (hwriting : d.hostWriting = false) : Pkg.portStep 4 (m, d.hostQueued (hostBell id ticket off v)) =
      some (Pkg.doorbell 1 (d.ring F.FRY_SUB_CFG_DB_HOST (off / 0x1000) == 1) (off / 0x1000) (off % 0x1000 == 8) v (m, d)) := by
  have hqueue : (d.hostQueued (hostBell id ticket off v)).portQ 4 = [hostBell id ticket off v] := rfl
  have hheld : (d.hostQueued (hostBell id ticket off v)).portHeld 4 (hostBell id ticket off v) = false :=
    portHeld_bell (d := d.hostQueued (hostBell id ticket off v)) hfree
  have hidle : (d.hostQueued (hostBell id ticket off v)).hostWriting = false := hwriting
  have hwin : ((hostBell id ticket off v).win == 1) = (off % 0x1000 == 8) := by
    by_cases h : off % 0x1000 = 8 <;> simp [hostBell, h]
  have hbell : (hostBell id ticket off v).op = 0x0F := rfl
  unfold Pkg.portStep
  simp only [hqueue, hheld, hidle, hbell, hwin, Bool.false_eq_true, if_false, if_true, Dev.hostQueued_back hinQ]
  rfl

/-- A doorbell waits in the port's queue for the BAR2 writes before it, and is rung (R353, R354). -/
theorem bar4Doorbell_rings (hup : hostUp s) (v : W32) (hoff : off < 0x40000) (hreg : off % 0x1000 = 0 ∨ off % 0x1000 = 8)
    (hwriting : s.dev.hostWriting = false) (hfree : ∀ f ∈ s.dev.src.fences, f.holdEng ≠ some 4) :
    ∃ d, d.regs = s.dev.regs ∧ d.fry = s.dev.fry ∧ d.out = s.dev.out ∧ exec (.bar4Doorbell off v) s = .next (withPkg s (Pkg.settleFor (settleFuel - 1)
      (Pkg.doorbell 1 (s.dev.ring F.FRY_SUB_CFG_DB_HOST (off / 0x1000) == 1) (off / 0x1000) (off % 0x1000 == 8) v.toNat (s.store, d)))) := by
  obtain ⟨-, -, -, -, -, ⟨hxfers, hports, -⟩, -⟩ := id hup
  obtain ⟨c, hc⟩ := s.dev.tlpCounted_eq
  have hinQ : s.dev.host.inQ = [] := hports 4 (by omega)
  have htakes := hostTlp_takes hup (i := .bar4Doorbell off v) (t := .bell off v.toNat) rfl (tlpWaits_stopped hup (.inl rfl))
  have hin : ∀ d : Dev, d.host.inQ = [] → Pkg.tlpIn (.bell off v.toNat) (s.dev.tlpWin (.bell off v.toNat)) (s.store, d) =
      (s.store, d.newId.2.hostQueued (hostBell d.src.nextId d.ticket off v.toNat)) := fun d hd => by
    have hport : d.newId.2.portQ 4 = [] := hd
    rw [Pkg.tlpIn, Pkg.bar4, if_neg (by omega)]
    dsimp only
    rw [hport]
    rfl
  rw [hc, hin { s.dev with cnts := c } hinQ] at htakes
  have hlnds : ∀ n < 4, (({ s.dev with cnts := c } : Dev).newId.2.hostQueued (hostBell s.dev.src.nextId s.dev.ticket off v.toNat)).portQ n = [] :=
    fun n hn => by
      have h := hports n (by omega)
      rw [Dev.portQ, if_pos hn] at h ⊢
      exact h
  have hstep := Pkg.portStep_bell (m := s.store) (d := ({ s.dev with cnts := c } : Dev).newId.2) (off := off) (id := s.dev.src.nextId)
    (ticket := s.dev.ticket) (v := v.toNat) hinQ hfree hwriting
  refine ⟨({ s.dev with cnts := c } : Dev).newId.2, rfl, rfl, rfl, htakes.trans ?_⟩
  exact congrArg (fun x => Host.Outcome.next (withPkg s x))
    (settle_first (settleOne_port (p := 4) hxfers (fun n hn => dockStep_none (hlnds n hn)) (by omega) hlnds hstep))

/-- Settles O30: each TLP is completed at once, is an access of its window's context, or rings its doorbell. -/
theorem hostPort : Obligations.HostPort := by
  intro s hup
  refine ⟨bar2Read_notReady hup, bar2Read_closed hup, fun id off len e hmap hperm hwriting => bar2Read_mapped hup hmap id hperm hwriting,
    fun off data e hmap hperm => bar2Write_mapped hup hmap hperm, fun id off data e hmap hperm hlen halign => bar2Atomic_mapped hup hmap id hperm hlen halign,
    fun id off data hlen hwait => bar2Atomic_size hup id off hlen hwait, bar4Doorbell_elsewhere hup,
    fun off v hoff hreg hwriting hfree => bar4Doorbell_rings hup v hoff hreg hwriting hfree⟩

end

end Sys2Proof.Machine


/-!
SUPPORT. O26, O28 and O29, a request of a landing from its frame to its turn in the queue (R43, R131, R462–R467).
-/
namespace Sys2Proof.Machine

/-! ### One landing of the four -/

theorem modAt_modAt {α : Type} (f g : α → α) (l : List α) (i : Nat) : modAt f (modAt g l i) i = modAt (fun x => f (g x)) l i := by
  induction l generalizing i with
  | nil => rfl
  | cons x l ih =>
    cases i with
    | zero => rfl
    | succ i => simp only [modAt, ih]

theorem modAt_self {α : Type} {f : α → α} {l : List α} {i : Nat} (a : α) (h : f (nth l i a) = nth l i a) : modAt f l i = l := by
  induction l generalizing i with
  | nil => rfl
  | cons x l ih =>
    cases i with
    | zero => exact congrArg (· :: l) h
    | succ i => exact congrArg (x :: ·) (ih h)

section
variable (d : Dev)

/-- What a change of one landing leaves of them all. -/
theorem Dev.lndOf_setLnd_keep {α : Type} {f : Lnd → Lnd} (g : Lnd → α) (h : ∀ l, g (f l) = g l) (n k : Nat) :
    g ((d.setLnd n f).lndOf k) = g (d.lndOf k) := nth_modAt_keep g h _ _ _ _

theorem Dev.lndOf_setLnd_same {n : Nat} (f : Lnd → Lnd) (h : n < d.lnd.length) : (d.setLnd n f).lndOf n = f (d.lndOf n) := by
  show nth (modAt f d.lnd n) n {} = f (nth d.lnd n {})
  rw [nth_modAt, if_pos ⟨rfl, h⟩]

theorem Dev.setLnd_setLnd (n : Nat) (f g : Lnd → Lnd) : (d.setLnd n f).setLnd n g = d.setLnd n (fun l => g (f l)) := by
  show ({ d with lnd := modAt g (modAt f d.lnd n) n } : Dev) = _
  rw [modAt_modAt]
  rfl

/-- The request at the head of an otherwise empty queue leaves it as it was. -/
theorem Dev.setPortQ_back {n : Nat} (hn : n < 4) (h : d.portQ n = []) (q : List PortReq) : (d.setPortQ n q).setPortQ n [] = d := by
  rw [Dev.portQ, if_pos hn] at h
  simp only [Dev.setPortQ, if_pos hn, Dev.setLnd_setLnd]
  have hsame : modAt (fun l : Lnd => { l with inQ := [] }) d.lnd n = d.lnd := modAt_self {} (by
    show ({ d.lndOf n with inQ := [] } : Lnd) = d.lndOf n
    rw [← h])
  exact congrArg (fun l => ({ d with lnd := l } : Dev)) hsame

theorem Dev.portQ_setPortQ {n : Nat} (hn : n < d.lnd.length) (h4 : n < 4) (q : List PortReq) : (d.setPortQ n q).portQ n = q := by
  simp only [Dev.portQ, Dev.setPortQ, if_pos h4]
  rw [Dev.lndOf_setLnd_same d _ hn]

theorem Dev.portQ_setPortQ_ne {n k : Nat} (h4 : n < 4) (hk : k ≠ n) (q : List PortReq) : (d.setPortQ n q).portQ k = d.portQ k := by
  simp only [Dev.setPortQ, if_pos h4, Dev.portQ]
  split
  · show (nth (modAt _ d.lnd n) k {}).inQ = (nth d.lnd k {}).inQ
    rw [nth_modAt, if_neg fun h => hk h.1.symm]
  · rfl

end

/-! ### A request that is accepted -/

/-- The package once request `q` has left the crossing, its TAG taken; `links` are the links after that. -/
def Dev.arrived (links : List Link) (q : LReq) (d : Dev) : Dev :=
  { d with links := links, lnd := modAt (fun l => { l with tags := l.tags ++ [q.tag] }) d.lnd q.n.val }

section
variable {d : Dev} {links : List Link} {q : LReq}

theorem Dev.rest_arrived : (d.arrived links q).rest = d.rest :=
  Dev.rest_setLnd { d with links := links } q.n.val (f := fun l => { l with tags := l.tags ++ [q.tag] }) fun _ => ⟨rfl, rfl⟩

/-- Of the landings, only the TAG has changed. -/
theorem Dev.lndOf_arrived {α : Type} (g : Lnd → α) (h : ∀ (l : Lnd) t, g { l with tags := t } = g l) (k : Nat) :
    g ((d.arrived links q).lndOf k) = g (d.lndOf k) :=
  nth_modAt_keep (f := fun l : Lnd => { l with tags := l.tags ++ [q.tag] }) g (fun l => h l _) d.lnd q.n.val k {}

end

/-- A request as its landing accepts it, before it has a number (R515). -/
def lndReq (op : Nat) (q : LReq) (d : Dev) : PortReq := { id := 0, op := op, tag := q.tag, o := q.o, data := q.data, ticket := d.ticket }

section
variable {q : LReq} {s : State} {op : Nat}

/-- The first frame of the crossing brings the request, and leaves it (R43, R462). -/
theorem lndCross_offered (h : offered op q s) : ∃ slots links, s.dev.lndCross q.n.val (broughtBy op q) = some (slots, { s.dev with links := links }) := by
  unfold offered Dev.lndCross at h
  unfold Dev.lndCross
  dsimp only at h ⊢
  cases hrx : (s.dev.link (24 + q.n.val)).rx with
  | nil => simp [hrx] at h
  | cons f rest =>
    simp only [hrx] at h ⊢
    by_cases hp : broughtBy op q f = true
    · rw [if_pos hp]
      exact ⟨_, _, rfl⟩
    · rw [if_neg hp] at h
      cases h

/-- A request of a free TAG whose frames are all there is offered to its landing, which goes on. -/
theorem landingOp_offers (hrun : s.dev.running = true) (hdom : s.dev.domOn 11 = true) (hoff : offered op q s)
    (htag : (s.dev.lndOf q.n.val).tags.contains q.tag = false) (hlen : opDataLen op q.o ≤ 240) {i : Instr}
    (hi : exec i s = onPkg (Pkg.landingOp op q) s) : ∃ slots links, exec i s =
      .next (withPkg s (Pkg.settle (Pkg.lndOffer { op := op, q := q, slots := slots } (s.store, s.dev.arrived links q)))) := by
  obtain ⟨slots, links, hcross⟩ := lndCross_offered hoff
  refine ⟨slots, links, ?_⟩
  rw [hi, onPkg_running hrun hdom]
  unfold Pkg.landingOp Pkg.lndRequest
  dsimp only
  rw [hcross]
  dsimp only
  rw [htag, if_neg (by simp), if_neg (by omega)]
  rfl

end

section
variable {m : Store} {d : Dev} {w : LWait}

theorem Dev.returnSlots_links (n : Nat) (slots : List (Nat × Nat)) (d : Dev) : ∃ links, d.returnSlots n slots = { d with links := links } := by
  unfold Dev.returnSlots
  dsimp only
  split
  · exact ⟨_, rfl⟩
  · exact ⟨_, rfl⟩

/-- A landing that takes none leaves the request at its boundary (R604). -/
theorem Pkg.lndOffer_closed (hopen : d.lndOpen w.q.n.val = false) : Pkg.lndOffer w (m, d) =
    (m, d.newId.2.setLnd w.q.n.val (fun l => { l with gate := l.gate ++ [{ w with id := some d.src.nextId }] })) := by
  unfold Pkg.lndOffer Pkg.lndTake
  simp only [hopen, Bool.not_false, Bool.true_or, if_true]
  rfl

section
variable (hopen : d.lndOpen w.q.n.val = true) (hgate : (d.lndOf w.q.n.val).gate = [])
include hopen hgate

/-- Without an open tenancy (R521). -/
theorem Pkg.lndOffer_retired (hid : w.id = none) (htenant : d.tenantOpen = false) : Pkg.lndOffer w (m, d) =
    (m, (d.returnSlots w.q.n.val w.slots).lndEnd w.q.n.val (lndReq w.op w.q d) sRetired) := by
  unfold Pkg.lndOffer Pkg.lndTake
  simp only [hopen, hgate, htenant, hid]
  simp [Pkg.dev, lndReq, LWait.request]

/-- A size or alignment out of order (R465). -/
theorem Pkg.lndOffer_broken {code : Nat} (hid : w.id = none) (htenant : d.tenantOpen = true) (hsize : sizeBroken w.op w.q.o = some code) :
    ∃ det, Pkg.lndOffer w (m, d) = (m, ((d.returnSlots w.q.n.val w.slots).capture (lndPage w.q.n.val) .request sRights code 0x3F det).lndEnd w.q.n.val
      (lndReq w.op w.q d) sRights) := by
  refine ⟨w.op % 256 + w.q.o.lengthM1 % 65536 * 2 ^ 8 + w.q.o.addr % 2 ^ 40 * 2 ^ 24, ?_⟩
  unfold Pkg.lndOffer Pkg.lndTake
  simp only [hopen, hgate, htenant, hid, hsize]
  simp [Pkg.dev, lndReq, LWait.request]

/-- One that is in order, and misses no page that has no room, is taken. -/
theorem Pkg.lndOffer_enters (htenant : d.tenantOpen = true) (hsize : sizeBroken w.op w.q.o = none)
    (hmiss : d.missWaits w.q.n.val (lndReq w.op w.q d) = false) : Pkg.lndOffer w (m, d) =
    Pkg.lndEnter w.q.n.val w.id (lndReq w.op w.q d) (m, d.returnSlots w.q.n.val w.slots) := by
  have hmiss' : d.missWaits w.q.n.val (w.request d.ticket) = false := hmiss
  unfold Pkg.lndOffer Pkg.lndTake
  simp only [hopen, hgate, htenant, hsize, hmiss']
  simp [Pkg.dev, lndReq, LWait.request]

end

end

/-! ### An operation that names no address (R79) -/

section
variable {m : Store} {d : Dev} {n : Nat} {r : PortReq}

/-- One whose context does not serve the landing. -/
theorem Pkg.lndEnter_unserved (hplain : opTranslates r.op = false) (h : (d.ctxBarred (r.xreq n 0 0) || !(Pkg.ctxEntry (m, d) r.o.ctx).valid ||
    (Pkg.ctxEntry (m, d) r.o.ctx).landing != n) = true) : Pkg.lndEnter n none r (m, d) = Pkg.plainFault n fNoContext r (m, d) := by
  unfold Pkg.lndEnter
  simp only [hplain, h]
  rfl

section
variable (hplain : opTranslates r.op = false) (hbar : d.ctxBarred (r.xreq n 0 0) = false) (hvalid : (Pkg.ctxEntry (m, d) r.o.ctx).valid = true)
  (hland : (Pkg.ctxEntry (m, d) r.o.ctx).landing = n)
include hplain hbar hvalid hland

/-- One that names a region of no node of the domain (R57). -/
theorem Pkg.lndEnter_away (haway : d.regionAway r = true) : Pkg.lndEnter n none r (m, d) = Pkg.plainFault n fBadNode r (m, d) := by
  unfold Pkg.lndEnter
  simp only [hplain, hbar, hvalid, hland, haway]
  simp

/-- Any other joins the landing's queue, after the fence that it brings. -/
theorem Pkg.lndEnter_queues (haway : d.regionAway r = false) : Pkg.lndEnter n none r (m, d) =
    (m, ((d.newId.2.fenceIn n { r with id := d.src.nextId }).setPortQ n
      ((d.newId.2.fenceIn n { r with id := d.src.nextId }).portQ n ++ [{ r with id := d.src.nextId }]))) := by
  unfold Pkg.lndEnter Pkg.portEnter
  simp only [hplain, hbar, hvalid, hland, haway]
  simp [Pkg.dev, Dev.newId]

end

/-- From the boundary to the queue. -/
theorem Pkg.lndOffer_queues {w : LWait} (hid : w.id = none) (hplain : opTranslates w.op = false) (hopen : d.lndOpen w.q.n.val = true)
    (hgate : (d.lndOf w.q.n.val).gate = []) (htenant : d.tenantOpen = true) (hsize : sizeBroken w.op w.q.o = none)
    (hbar : d.ctxBarred ((lndReq w.op w.q d).xreq w.q.n.val 0 0) = false) (hvalid : (Pkg.ctxEntry (m, d) w.q.o.ctx).valid = true)
    (hland : (Pkg.ctxEntry (m, d) w.q.o.ctx).landing = w.q.n.val) (haway : d.regionAway (lndReq w.op w.q d) = false) :
    ∃ links, Pkg.lndOffer w (m, d) = (m, ((({ d with links := links } : Dev).newId.2.fenceIn w.q.n.val { lndReq w.op w.q d with id := d.src.nextId }).setPortQ
      w.q.n.val ((({ d with links := links } : Dev).newId.2.fenceIn w.q.n.val { lndReq w.op w.q d with id := d.src.nextId }).portQ w.q.n.val ++
        [{ lndReq w.op w.q d with id := d.src.nextId }]))) := by
  have hmiss : d.missWaits w.q.n.val (lndReq w.op w.q d) = false := by simp [Dev.missWaits, lndReq, hplain]
  obtain ⟨links, hslots⟩ := Dev.returnSlots_links w.q.n.val w.slots d
  rw [Pkg.lndOffer_enters hopen hgate htenant hsize hmiss, hid, hslots]
  have henter := Pkg.lndEnter_queues (m := m) (d := { d with links := links }) (n := w.q.n.val) (r := lndReq w.op w.q d) hplain hbar hvalid hland haway
  exact ⟨links, henter⟩

end

/-! ### The one request of a landing's queue has its turn (R131) -/

section
variable {m : Store} {d f : Dev} {n : Nat} {r : PortReq}

/-- The package goes on with the one request that is queued. -/
theorem settleOne_lnd (hn : n < 4) (hq : quiet d) (hlen : d.lnd.length = 4) (hop : r.op ≠ 0x10) {y : Pkg}
    (hstep : Pkg.portStep n (m, d.setPortQ n [r]) = some y) : Pkg.settleOne (m, d.setPortQ n [r]) = some y := by
  obtain ⟨hxfers, hports, -⟩ := hq
  have hfry : (d.setPortQ n [r]).fry = d.fry := by
    unfold Dev.setPortQ
    rw [if_pos hn]
    rfl
  refine settleOne_port (by rw [hfry]; exact hxfers) (fun k hk => ?_) (by omega) (fun k hk => ?_) hstep
  · by_cases hkn : k = n
    · subst hkn
      have hqueue : (d.setPortQ k [r]).portQ k = [r] := d.portQ_setPortQ (by omega) hn [r]
      simp [Pkg.dockStep, hqueue, takeFirst, hop]
    · exact dockStep_none ((d.portQ_setPortQ_ne hn hkn [r]).trans (hports k (by omega)))
  · exact (d.portQ_setPortQ_ne hn (by omega) [r]).trans (hports k (by omega))

/-- Nor the queues of the landings nor their TAGs say what is held. -/
theorem Dev.portHeld_congr {e : Dev} (hfences : e.src.fences = d.src.fences) (hacq : e.lnd.map (·.acquiring) = d.lnd.map (·.acquiring)) :
    e.portHeld n r = d.portHeld n r := by
  have hany : ∀ l : List Lnd, l.any (fun l => l.acquiring.any (fun e => e.1 == r.o.ctx && decide (e.2 < r.id))) =
      (l.map (·.acquiring)).any (fun q => q.any (fun e => e.1 == r.o.ctx && decide (e.2 < r.id))) := fun l => by
    rw [List.any_map]
    rfl
  simp only [Dev.portHeld, Dev.acquireHolds, hfences, hany, hacq]

theorem Dev.portHeld_setPortQ (hn : n < 4) (q : List PortReq) : (d.setPortQ n q).portHeld n r = d.portHeld n r := by
  unfold Dev.setPortQ
  rw [if_pos hn]
  exact Dev.portHeld_congr rfl (map_modAt_keep (f := fun l : Lnd => { l with inQ := q }) (g := Lnd.acquiring) (fun _ => rfl) d.lnd n)

/-- What is at the head of the queue is carried out where nothing holds it. -/
theorem portStep_lnd (hn : n < 4) (hq : quiet d) (hlen : d.lnd.length = 4) (hop : r.op ≠ 0x0F) (hheld : d.portHeld n r = false)
    (hissue : d.lndIssue n r = some f) : Pkg.portStep n (m, d.setPortQ n [r]) = some (m, f) := by
  have hqueue : (d.setPortQ n [r]).portQ n = [r] := d.portQ_setPortQ (by omega) hn [r]
  have hheld' : (d.setPortQ n [r]).portHeld n r = false := (Dev.portHeld_setPortQ hn [r]).trans hheld
  have hback := d.setPortQ_back hn (hq.2.1 n (by omega)) [r]
  unfold Pkg.portStep
  simp only [hqueue, hheld', hback, hissue, hop]
  rw [if_neg (by simp), if_neg (by omega)]
  rfl

end

/-! ### From its frame to its turn -/

section
variable {q : LReq} {s : State} {op : Nat} {i : Instr}

/-- The package that has accepted `q`, and given it a number. -/
def State.accepts (s : State) (links : List Link) (q : LReq) : Dev := (s.dev.arrived links q).newId.2

theorem accepts_rest (links : List Link) : (s.accepts links q).rest = s.dev.rest := by
  have h : (s.accepts links q).rest = (s.dev.arrived links q).rest := rfl
  rw [h, Dev.rest_arrived]

/-- A fence that a request brings is its own. -/
theorem Dev.portHeld_fenceIn {d : Dev} {n : Nat} {r : PortReq} (h : unheld d n r.o.ctx) : (d.fenceIn n r).portHeld n r = false := by
  have hopen : ∀ f : Fence, f.id = r.id → (d.openFence f).portHeld n r = false := fun f hf => by
    have hheld := portHeld_unheld (r := r) h
    simp only [Dev.portHeld, Bool.or_eq_false_iff] at hheld ⊢
    refine ⟨?_, hheld.2⟩
    rw [show (d.openFence f).src.fences = d.src.fences ++ [f] from rfl, List.any_append, hheld.1]
    simp [hf]
  unfold Dev.fenceIn Dev.domainFence Dev.localFence
  split
  · split
    · exact hopen _ rfl
    · exact hopen _ rfl
  · split
    · exact hopen _ rfl
    · exact portHeld_unheld h

theorem Dev.fenceIn_frame (d : Dev) (n : Nat) (r : PortReq) : ∃ fences, d.fenceIn n r = { d with src := { d.src with fences := fences } } := by
  unfold Dev.fenceIn
  split
  · split
    · exact ⟨_, rfl⟩
    · exact ⟨_, rfl⟩
  · split
    · exact ⟨_, rfl⟩
    · exact ⟨_, rfl⟩

theorem accepts_acquiring (links : List Link) : (s.accepts links q).lnd.map (·.acquiring) = s.dev.lnd.map (·.acquiring) :=
  map_modAt_keep (f := fun l : Lnd => { l with tags := l.tags ++ [q.tag] }) (g := Lnd.acquiring) (fun _ => rfl) s.dev.lnd q.n.val

theorem accepts_unheld {eng c : Nat} (h : unheld s.dev eng c) (links : List Link) : unheld (s.accepts links q) eng c := by
  refine ⟨h.1, fun l hl e he => ?_⟩
  have hmem : l.acquiring ∈ (s.accepts links q).lnd.map (·.acquiring) := List.mem_map_of_mem hl
  rw [accepts_acquiring] at hmem
  obtain ⟨k, hk, hacq⟩ := List.mem_map.1 hmem
  rw [← hacq] at he
  exact h.2 k hk e he

theorem landing_queues (hready : lndReady q s) (hserved : served q s) (hoff : offered op q s) (hplain : opTranslates op = false)
    (hsize : sizeBroken op q.o = none) (haway : s.dev.regionAway (landed op q [] s) = false) (hi : exec i s = onPkg (Pkg.landingOp op q) s) :
    ∃ links, exec i s = .next (withPkg s (Pkg.settle (s.store,
      ((s.accepts links q).fenceIn q.n.val (landed op q [] s)).setPortQ q.n.val [landed op q [] s]))) := by
  obtain ⟨⟨hrun, hdom, hopen, hq, hshape⟩, -, htag, htenant, -⟩ := hready
  obtain ⟨hbar, hvalid, hland⟩ := hserved
  have hdata : opDataLen op q.o ≤ 240 := by
    rw [opDataLen, if_neg]
    · omega
    · rintro (rfl | rfl) <;> cases hplain
  obtain ⟨slots, links, hexec⟩ := landingOp_offers hrun hdom hoff htag hdata hi
  have hgate : ((s.dev.arrived links q).lndOf q.n.val).gate = [] :=
    (Dev.lndOf_arrived (fun l => l.gate) (fun _ _ => rfl) _).trans (hq.2.2.1 _ q.n.isLt)
  obtain ⟨links', hoffer⟩ := Pkg.lndOffer_queues (m := s.store) (d := s.dev.arrived links q) (w := { op := op, q := q, slots := slots }) rfl hplain hopen hgate
    htenant hsize hbar hvalid hland haway
  have hdev : ({ s.dev.arrived links q with links := links' } : Dev).newId.2 = s.accepts links' q := rfl
  have hreq : ({ lndReq op q (s.dev.arrived links q) with id := (s.dev.arrived links q).src.nextId } : PortReq) = landed op q [] s := rfl
  have hqueue : ((s.accepts links' q).fenceIn q.n.val (landed op q [] s)).portQ q.n.val = [] := by
    obtain ⟨fences, hf⟩ := (s.accepts links' q).fenceIn_frame q.n.val (landed op q [] s)
    have hquiet : quiet (s.accepts links' q) := quiet_rest (accepts_rest links') hq
    have hnone := hquiet.2.1 q.n.val (by omega)
    rw [hf]
    exact hnone
  dsimp only at hoffer
  rw [hdev, hreq, hqueue, List.nil_append] at hoffer
  exact ⟨links', hexec.trans (by rw [hoffer])⟩

/-- It has its turn at once, where nothing holds it. -/
theorem landing_turn (hready : lndReady q s) (hserved : served q s) (hoff : offered op q s) (hplain : opTranslates op = false)
    (hsize : sizeBroken op q.o = none) (haway : s.dev.regionAway (landed op q [] s) = false) (hi : exec i s = onPkg (Pkg.landingOp op q) s)
    (hop : op ≠ 0x0F ∧ op ≠ 0x10) {C : Dev → Prop}
    (hissue : ∀ links, ∃ f, ((s.accepts links q).fenceIn q.n.val (landed op q [] s)).lndIssue q.n.val (landed op q [] s) = some f ∧ quiet f ∧ C f) :
    ∃ t, exec i s = .next t ∧ t.store = s.store ∧ C t.dev := by
  obtain ⟨⟨-, -, -, hq, hshape⟩, -, -, -, hfree, -⟩ := id hready
  obtain ⟨links, hexec⟩ := landing_queues hready hserved hoff hplain hsize haway hi
  obtain ⟨f, hf, hquiet, hC⟩ := hissue links
  have hqa : quiet (s.accepts links q) := quiet_rest (accepts_rest links) hq
  have hlen : (s.accepts links q).lnd.length = 4 := (length_modAt ..).trans hshape.1
  have hunheld : unheld (s.accepts links q) q.n.val q.o.ctx := accepts_unheld hfree links
  have hheld : ((s.accepts links q).fenceIn q.n.val (landed op q [] s)).portHeld q.n.val (landed op q [] s) = false :=
    Dev.portHeld_fenceIn hunheld
  obtain ⟨fences, hframe⟩ := (s.accepts links q).fenceIn_frame q.n.val (landed op q [] s)
  rw [hframe] at hexec hf hheld
  have hstep := portStep_lnd (m := s.store) (d := { s.accepts links q with src := { (s.accepts links q).src with fences := fences } }) (n := q.n.val)
    (r := landed op q [] s) q.n.isLt hqa hlen hop.1 hheld hf
  rw [settle_one (settleOne_lnd q.n.isLt (d := { s.accepts links q with src := { (s.accepts links q).src with fences := fences } }) hqa hlen hop.2 hstep)
    hquiet] at hexec
  exact ⟨_, hexec, rfl, hC⟩

end

end Sys2Proof.Machine


/-!
SUPPORT. O26 and O28, requests that a landing turns away with a fault record (R57, R79, R105).
-/
namespace Sys2Proof.Machine

/-- The landings, the source engines, the ferryman and the host port. -/
def Dev.works (d : Dev) : List Lnd × Src × Fry × HostPort := (d.lnd, d.src, d.fry, d.host)

theorem Dev.rest_of_works {d e : Dev} (h : e.works = d.works) : e.rest = d.rest := by
  obtain ⟨hlnd, hsrc, hfry, hhost⟩ : e.lnd = d.lnd ∧ e.src = d.src ∧ e.fry = d.fry ∧ e.host = d.host := by simpa [Dev.works] using h
  simp only [Dev.rest, hlnd, hsrc, hfry, hhost]

/-- What a fold's steps keep the fold keeps. -/
theorem List.foldl_keeps {α β γ : Type} {f : α → β → α} (g : α → γ) (h : ∀ a b, g (f a b) = g a) (l : List β) : ∀ a, g (l.foldl f a) = g a := by
  induction l with
  | nil => exact fun _ => rfl
  | cons b l ih => exact fun a => (ih (f a b)).trans (h a b)

section
variable (d : Dev)

theorem Dev.works_count (p i k : Nat) : (d.count p i k).works = d.works := by simp [Dev.works]

theorem Dev.works_event (p i : Nat) : (d.event p i).works = d.works := by simp [Dev.works]

theorem Dev.works_msix (v : Nat) : (d.msix v).works = d.works := by simp [Dev.works]

theorem Dev.works_capture (p : Nat) (c : ECls) (st code port det : Nat) : (d.capture p c st code port det).works = d.works := by simp [Dev.works]

theorem Dev.works_fltWrite (r : Nat) (f : FRec) : (d.fltWrite r f).works = d.works := by
  unfold Dev.fltWrite
  dsimp only
  rw [Dev.works_count]
  simp [Dev.works]

theorem Dev.works_fltBatch (b : Batch) : (d.fltBatch b).2.works = d.works := by
  unfold Dev.fltBatch
  dsimp only
  have hfold := List.foldl_keeps (f := fun (a : List FRec × Dev) (f : FRec) =>
    if a.1.isEmpty && a.2.fltRoom b.ring then (a.1, a.2.fltWrite b.ring f) else (a.1 ++ [f], a.2)) (fun a => a.2.works) (fun a f => by
      split
      · exact a.2.works_fltWrite _ _
      · rfl) b.recs ([], d)
  split
  · exact (Dev.works_msix _ _).trans hfold
  · exact hfold

theorem Dev.works_fltDeliver (r : Nat) : (d.fltDeliver r).works = d.works := by
  have hfold := List.foldl_keeps (f := fun (a : List Batch × Dev) (b : Batch) =>
    if b.due && b.ring == r then
      let q := a.2.fltBatch b
      (if q.1.isEmpty then a.1 else a.1 ++ [{ b with recs := q.1 }], q.2)
    else (a.1 ++ [b], a.2)) (fun a => a.2.works) (fun a b => by
      dsimp only
      split
      · exact a.2.works_fltBatch b
      · rfl) d.flt ([], d)
  exact hfold

theorem Dev.works_fltDue (p : Batch → Bool) : (d.fltDue p).works = d.works :=
  List.foldl_keeps (f := fun (d : Dev) r => d.fltDeliver r) Dev.works (fun d r => d.works_fltDeliver r) _ _

theorem Dev.works_fltMakeRoom : d.fltMakeRoom.works = d.works :=
  List.foldl_keeps (f := fun (d : Dev) b => if d.fltCount < 1024 then d else d.fltDue (fun c => c == b)) Dev.works (fun d b => by
    split
    · rfl
    · exact d.works_fltDue _) _ _

theorem Dev.works_fltAdd (a : FltIn) : (d.fltAdd a).works = d.works := by
  have hfirst : ((d.count 0x21 0 1).fltDue (fun b => b.ctx == a.rec_.ctx && decide (b.opened + us b.timerUs ≤ a.at_))).works = d.works :=
    (Dev.works_fltDue _ _).trans (d.works_count ..)
  unfold Dev.fltAdd
  dsimp only
  generalize (d.count 0x21 0 1).fltDue _ = e at hfirst ⊢
  rw [← hfirst]
  have hroom : (if e.fltCount < 1024 then e else e.fltMakeRoom).works = e.works := by
    split
    · rfl
    · exact e.works_fltMakeRoom
  generalize (if e.fltCount < 1024 then e else e.fltMakeRoom) = f at hroom ⊢
  rw [← hroom]
  split
  · exact hroom.symm
  · split
    · rw [Dev.works_count, Dev.works_event]
      simp [Dev.works]
    · split
      · exact Dev.works_fltDue _ _
      · exact Dev.works_fltDue _ _

end

/-! ### A fault of a landing's request -/

section
variable {m : Store} {d : Dev}

/-- A fault changes nothing that works, and no memory. -/
theorem Pkg.fault_works (r : XReq) (cause seg region : Nat) : ∃ e, Pkg.fault r cause seg region (m, d) = (m, e) ∧ e.works = d.works := by
  unfold Pkg.fault
  dsimp only [Pkg.dev]
  split
  · exact ⟨_, rfl, d.works_fltAdd _⟩
  · exact ⟨_, rfl, rfl⟩

/-- A quiesced FLT block leaves the fault at its boundary (R604). -/
theorem Pkg.fault_waits (r : XReq) (cause seg region : Nat) (htakes : d.takes 0x21 = false) : ∃ a, a.rec_.cause = cause ∧ a.rec_.ctx = r.ctx ∧
    a.rec_.landing = r.landing ∧ Pkg.fault r cause seg region (m, d) = (m, { d with fltWait := d.fltWait ++ [a] }) := by
  unfold Pkg.fault
  dsimp only [Pkg.dev]
  rw [htakes, if_neg (by simp)]
  split
  · exact ⟨_, rfl, rfl, rfl, rfl⟩
  · exact ⟨_, rfl, rfl, rfl, rfl⟩

theorem length_freeBytes (d : Dev) (k : Nat) : (d.freeBytes k).1.length = k := by simp [Dev.freeBytes]

/-- A request that ends leaves its answer last, with data of the operation's length. -/
theorem Dev.lndEnd_frame (d : Dev) (n : Nat) (r : PortReq) (status : Nat) : ∃ v, v.length = rspLen r.op r.o ∧
    (d.lndEnd n r status).out = d.out ++ [.attach n r.op r.tag status v] ∧ (d.lndEnd n r status).src = d.src ∧
    (d.lndEnd n r status).regs = d.regs ∧ (d.lndEnd n r status).fltWait = d.fltWait ∧ (d.lndEnd n r status).rest = d.rest :=
  ⟨_, length_freeBytes d _, rfl, rfl, rfl, rfl, Dev.rest_attach _ ..⟩

theorem Pkg.plainFault_ends (n cause : Nat) (r : PortReq) : ∃ e v, Pkg.plainFault n cause r (m, d) = (m, e) ∧ v.length = rspLen r.op r.o ∧
    e.src = d.src ∧ e.rest = d.rest ∧ e.out.getLast? = some (.attach n r.op r.tag sFault v) := by
  obtain ⟨e, hfault, hworks⟩ := Pkg.fault_works (m := m) (d := d) { r.xreq n 0 0 with lva := if r.op = 0x0D then r.o.addr % 2 ^ 57 else 0 } cause 0
    (if cause = fBadNode then r.o.addr % 2 ^ 20 else 0)
  obtain ⟨v, hv, hout, hsrc, -, -, hrest⟩ := e.lndEnd_frame n r sFault
  refine ⟨e.lndEnd n r sFault, v, ?_, hv, hsrc.trans (congrArg (fun w => w.2.1) hworks), hrest.trans (Dev.rest_of_works hworks), ?_⟩
  · unfold Pkg.plainFault
    dsimp only
    rw [hfault]
    rfl
  · rw [hout, List.getLast?_append]
    rfl

/-- As `Pkg.plainFault_ends`, with a quiesced FLT block. -/
theorem Pkg.plainFault_waits {n : Nat} (hn : n < 4) (cause : Nat) (r : PortReq) (htakes : d.takes 0x21 = false) : ∃ e v a,
    Pkg.plainFault n cause r (m, d) = (m, e) ∧ v.length = rspLen r.op r.o ∧ e.src = d.src ∧ e.rest = d.rest ∧
    e.out = d.out ++ [.attach n r.op r.tag sFault v] ∧ e.fltWait = d.fltWait ++ [a] ∧ a.rec_.cause = cause ∧ a.rec_.ctx = r.o.ctx ∧
    a.rec_.landing = n := by
  obtain ⟨a, hcause, hctx, hland, hfault⟩ := Pkg.fault_waits (m := m) (d := d) { r.xreq n 0 0 with lva := if r.op = 0x0D then r.o.addr % 2 ^ 57 else 0 }
    cause 0 (if cause = fBadNode then r.o.addr % 2 ^ 20 else 0) htakes
  obtain ⟨v, hv, hout, hsrc, -, hwait, hrest⟩ := ({ d with fltWait := d.fltWait ++ [a] } : Dev).lndEnd_frame n r sFault
  refine ⟨({ d with fltWait := d.fltWait ++ [a] } : Dev).lndEnd n r sFault, v, a, ?_, hv, hsrc, hrest, hout, hwait, hcause, hctx,
    hland.trans (if_pos hn)⟩
  unfold Pkg.plainFault
  dsimp only
  rw [hfault]
  rfl

end

end Sys2Proof.Machine


/-!
SUPPORT. O28, the operations of a landing that name no address (R57, R79, R152–R157, R353, R375, R464, R469).
-/
namespace Sys2Proof.Machine

section
variable {q : LReq} {s : State} {op : Nat} {i : Instr}

/-- A request in order that misses no page is taken. -/
theorem landing_enters (hup : lndUp q s) (htag : (s.dev.lndOf q.n.val).tags.contains q.tag = false) (htenant : s.dev.tenantOpen = true)
    (hoff : offered op q s) (hlen : opDataLen op q.o ≤ 240) (hsize : sizeBroken op q.o = none)
    (hmiss : s.dev.missWaits q.n.val (lndReq op q s.dev) = false) (hi : exec i s = onPkg (Pkg.landingOp op q) s) :
    ∃ links, exec i s = .next (withPkg s (Pkg.settle (Pkg.lndEnter q.n.val none (lndReq op q s.dev) (s.store, s.dev.arrived links q)))) := by
  obtain ⟨hrun, hdom, hopen, hq, -⟩ := hup
  obtain ⟨slots, links, hexec⟩ := landingOp_offers hrun hdom hoff htag hlen hi
  have hgate : ((s.dev.arrived links q).lndOf q.n.val).gate = [] :=
    (Dev.lndOf_arrived (fun l => l.gate) (fun _ _ => rfl) _).trans (hq.2.2.1 _ q.n.isLt)
  have henters := Pkg.lndOffer_enters (m := s.store) (d := s.dev.arrived links q) (w := { op := op, q := q, slots := slots }) hopen hgate htenant
    hsize hmiss
  obtain ⟨links', hslots⟩ := Dev.returnSlots_links q.n.val slots (s.dev.arrived links q)
  refine ⟨links', hexec.trans ?_⟩
  rw [henters]
  dsimp only
  rw [hslots]
  rfl

/-- An operation that names no address misses no page. -/
theorem missWaits_plain {d : Dev} {n : Nat} {r : PortReq} (h : opTranslates r.op = false) : d.missWaits n r = false := by
  simp [Dev.missWaits, h]

theorem opDataLen_plain (h : opTranslates op = false) : opDataLen op q.o ≤ 240 := by
  rw [opDataLen, if_neg]
  · omega
  · rintro (rfl | rfl) <;> cases h

/-- R57. -/
theorem landing_away (hready : lndReady q s) (hserved : served q s) (hoff : offered op q s) (hplain : opTranslates op = false)
    (hsize : sizeBroken op q.o = none) (haway : s.dev.regionAway (lndReq op q s.dev) = true) (hi : exec i s = onPkg (Pkg.landingOp op q) s) :
    ∃ t v, v.length = rspLen op q.o ∧ exec i s = .next t ∧ t.store = s.store ∧ t.dev.src = s.dev.src ∧
      t.dev.out.getLast? = some (.attach q.n.val op q.tag sFault v) := by
  obtain ⟨hup, -, htag, htenant, -⟩ := hready
  obtain ⟨hbar, hvalid, hland⟩ := hserved
  obtain ⟨links, hexec⟩ := landing_enters hup htag htenant hoff (opDataLen_plain hplain) hsize (missWaits_plain hplain) hi
  obtain ⟨-, -, -, hq, -⟩ := hup
  have henter := Pkg.lndEnter_away (m := s.store) (d := s.dev.arrived links q) (n := q.n.val) (r := lndReq op q s.dev) hplain hbar hvalid hland haway
  obtain ⟨e, v, hfault, hv, hsrc, hrest, hout⟩ := Pkg.plainFault_ends (m := s.store) (d := s.dev.arrived links q) q.n.val fBadNode (lndReq op q s.dev)
  rw [henter, hfault, settle_quiet (quiet_rest (d := s.dev) (hrest.trans Dev.rest_arrived) hq)] at hexec
  exact ⟨_, v, hv, hexec, rfl, hsrc, hout⟩

end

/-- O28, the first part. -/
theorem regionAway_fault : Said.RegionAway := by
  intro q s hready hserved haway hlen e he hoff
  have hrow : ∀ op i, op ∈ [0x0B, 0x0C, 0x11] → exec i s = onPkg (Pkg.landingOp op q) s → offered op q s →
      ∃ t v, v.length = rspLen op q.o ∧ exec i s = .next t ∧ t.store = s.store ∧ t.dev.src = s.dev.src ∧
        t.dev.out.getLast? = some (.attach q.n.val op q.tag sFault v) := by
    intro op i hop hi ho
    have hcases : op = 0x0B ∨ op = 0x0C ∨ op = 0x11 := by simpa using hop
    refine landing_away hready hserved ho ?_ ?_ ?_ hi
    · rcases hcases with rfl | rfl | rfl <;> rfl
    · rcases hcases with rfl | rfl | rfl
      · rfl
      · rfl
      · exact if_pos hlen
    · simp only [Dev.regionAway, lndReq, haway]
      rcases hcases with rfl | rfl | rfl <;> rfl
  have hmem : e = ((0x0B : Nat), Instr.versionRead q) ∨ e = (0x0C, .publish q) ∨ e = (0x11, .pteWrite q) := by simpa using he
  rcases hmem with rfl | rfl | rfl
  · exact hrow _ _ (by simp) rfl hoff
  · exact hrow _ _ (by simp) rfl hoff
  · exact hrow _ _ (by simp) rfl hoff

end Sys2Proof.Machine


/-!
SUPPORT. O28 and O29, accesses of nodes of the domain that leave a landing, and its open blocks (R129, R142).
-/
namespace Sys2Proof.Machine

/-- `e` is `d` once accesses of nodes of the domain have left its landings. -/
structure Dev.Leaves (d e : Dev) : Prop where
  frame : ∃ lnd cnts out epochs src, e = { d with lnd := lnd, cnts := cnts, out := out, epochs := epochs, src := src }
  rest : e.rest = d.rest
  fences : e.src.fences = d.src.fences
  live : ∀ a ∈ d.liveAccs, a ∈ e.liveAccs

section
variable {d e f : Dev}

theorem Dev.Leaves.refl (d : Dev) : d.Leaves d := ⟨⟨_, _, _, _, _, rfl⟩, rfl, rfl, fun _ h => h⟩

theorem Dev.Leaves.trans (h : d.Leaves e) (k : e.Leaves f) : d.Leaves f := by
  obtain ⟨lnd, cnts, out, epochs, src, he⟩ := h.frame
  obtain ⟨lnd', cnts', out', epochs', src', hf⟩ := k.frame
  refine ⟨⟨lnd', cnts', out', epochs', src', ?_⟩, k.rest.trans h.rest, k.fences.trans h.fences, fun a ha => k.live a (h.live a ha)⟩
  rw [hf, he]

theorem Dev.Leaves.hasNode (h : d.Leaves e) (n : Nat) : e.hasNode n = d.hasNode n := by
  obtain ⟨_, _, _, _, _, rfl⟩ := h.frame
  rfl

theorem Dev.Leaves.quiet (h : d.Leaves e) (hq : quiet d) : Sys2Proof.quiet e := quiet_rest h.rest hq

/-- A fold of such steps, where each goes on as long as `P` holds of the element. -/
theorem Dev.Leaves.foldl {α : Type} {g : Dev → α → Dev} {P : α → Prop} (l : List α) : ∀ {d : Dev}, (∀ x ∈ l, P x) →
    (∀ e : Dev, d.Leaves e → ∀ x, P x → e.Leaves (g e x)) → d.Leaves (l.foldl g d) := by
  induction l with
  | nil => exact fun {d} _ _ => .refl d
  | cons x l ih =>
    intro d hP hstep
    have hx := hstep d (.refl d) x (hP x (by simp))
    exact hx.trans (ih (fun y hy => hP y (by simp [hy])) fun e he y hy => hstep e (hx.trans he) y hy)

variable (d) in
theorem Dev.leaves_newId : d.Leaves d.newId.2 := ⟨⟨_, _, _, _, _, rfl⟩, rfl, rfl, fun _ h => h⟩

variable (d) in
theorem Dev.leaves_count (p i k : Nat) : d.Leaves (d.count p i k) := by
  obtain ⟨c, hc⟩ : ∃ c, d.count p i k = { d with cnts := c } := by
    unfold Dev.count
    split
    · exact ⟨_, rfl⟩
    · exact ⟨_, rfl⟩
  rw [hc]
  exact ⟨⟨_, _, _, _, _, rfl⟩, rfl, rfl, fun _ h => h⟩

variable (d) in
/-- A change of a landing that leaves its queue and its boundary. -/
theorem Dev.leaves_setLnd (n : Nat) {g : Lnd → Lnd} (h : ∀ l : Lnd, (g l).inQ = l.inQ ∧ (g l).gate = l.gate) : d.Leaves (d.setLnd n g) :=
  ⟨⟨_, _, _, _, _, rfl⟩, d.rest_setLnd n h, rfl, fun _ h => h⟩

theorem Dev.leaves_issueAcc {a : Acc} (h : d.hasNode a.dest = true) : d.Leaves (d.issueAcc a) := by
  obtain ⟨hfences, -, hnone, hlive⟩ := d.issueAcc_live h
  obtain ⟨out, epochs, src, hsend⟩ := d.sends_issueAcc a
  refine ⟨⟨_, _, out, epochs, src, hsend⟩, ?_, hfences, fun b hb => (hlive b).2 (.inl hb)⟩
  have hrest : (d.issueAcc a).rest = { d.rest with snd := (d.rest.2.1, d.rest.2.2.1, (d.issueAcc a).src.noNode) } := by
    rw [hsend]
    rfl
  rw [hrest, hnone]
  rfl

/-- The access that is issued is live. -/
theorem Dev.issueAcc_mem {a : Acc} (h : d.hasNode a.dest = true) : a ∈ (d.issueAcc a).liveAccs := ((d.issueAcc_live h).2.2.2 a).2 (.inr rfl)

/-- A block whose bytes lie at a node of the domain leaves. -/
theorem Dev.leaves_closeBlock {n : Nat} {b : WcBlock} (h : d.hasNode (blockWrite n 0 b).dest = true) : d.Leaves (d.closeBlock n b) := by
  have hfirst := ((d.leaves_setLnd n (g := fun l => { l with wc := l.wc.erase b }) fun _ => ⟨rfl, rfl⟩).trans (Dev.leaves_count _ (lndPage n) 3 1)).trans
    (Dev.leaves_newId _)
  exact hfirst.trans (Dev.leaves_issueAcc ((hfirst.hasNode _).trans h))

theorem Dev.leaves_closeBlocks {n : Nat} (p : WcBlock → Bool) (h : blocksAtNodes d n) : d.Leaves (d.closeBlocks n p) :=
  Dev.Leaves.foldl (P := fun b => d.hasNode (blockWrite n 0 b).dest = true) _ (fun b hb => h b (List.mem_of_mem_filter hb))
    fun _ he _ hb => Dev.leaves_closeBlock ((he.hasNode _).trans hb)

/-- Without an open block nothing leaves. -/
theorem Dev.closeBlocks_none {n : Nat} (p : WcBlock → Bool) (h : (d.lndOf n).wc = []) : d.closeBlocks n p = d := by
  unfold Dev.closeBlocks
  rw [h]
  rfl

end

/-! ### The request accepted, and its landing's blocks -/

section
variable {q : LReq} {s : State}

theorem accepts_lnd {α : Type} (g : Lnd → α) (h : ∀ (l : Lnd) t, g { l with tags := t } = g l) (links : List Link) (k : Nat) :
    g ((s.accepts links q).lndOf k) = g (s.dev.lndOf k) := Dev.lndOf_arrived (d := s.dev) (links := links) (q := q) g h k

theorem accepts_blocks {n : Nat} (h : blocksAtNodes s.dev n) (links : List Link) : blocksAtNodes (s.accepts links q) n := fun b hb =>
  h b (by rwa [← accepts_lnd (fun l => l.wc) (fun _ _ => rfl) links n])

end

end Sys2Proof.Machine


/-!
SUPPORT. O28, each operation of a landing that names no address, when it has its turn.
-/
namespace Sys2Proof.Machine

section
variable {q : LReq} {s : State}

/-- A request that is no fence and no release brings no fence. -/
theorem Dev.fenceIn_plain {d : Dev} {n : Nat} {r : PortReq} (h : r.op ≠ 8) (hrel : ¬(r.op = 0x0C ∧ r.o.order % 2 = 1)) : d.fenceIn n r = d := by
  rw [Dev.fenceIn, if_neg h, if_neg hrel]

theorem accepts_quiet (hq : quiet s.dev) (links : List Link) : quiet (s.accepts links q) := quiet_rest (accepts_rest links) hq

theorem accepts_hasNode (links : List Link) (n : Nat) : (s.accepts links q).hasNode n = s.dev.hasNode n := rfl

/-- The node of an operation's region is that of its operand. -/
theorem bits_region (a : Nat) : bits (a % 2 ^ 20) 13 7 = bits a 13 7 := bits_mod a 20 13 7 (by norm_num)

theorem regionAway_here (op : Nat) (hnode : s.dev.hasNode (bits q.o.addr 13 7) = true) : s.dev.regionAway (landed op q [] s) = false := by
  simp [Dev.regionAway, landed, hnode]

/-- An operation that names no region is not away. -/
theorem regionAway_none {op : Nat} (h : op ≠ 0x0B ∧ op ≠ 0x0C ∧ op ≠ 0x11) : s.dev.regionAway (landed op q [] s) = false := by
  simp [Dev.regionAway, landed, h]

/-! ### VERSION_READ, PUBLISH and PTE_WRITE -/

/-- The context waits for the answer of an acquire (R156). -/
def Dev.acquires (n ctx id : Nat) (acquire : Bool) (d : Dev) : Dev :=
  if acquire then d.setLnd n (fun l => { l with acquiring := l.acquiring ++ [(ctx, id)] }) else d

theorem Dev.leaves_acquires (n ctx id : Nat) (acquire : Bool) (d : Dev) : d.Leaves (d.acquires n ctx id acquire) := by
  unfold Dev.acquires
  split
  · exact d.leaves_setLnd n (g := fun l => { l with acquiring := l.acquiring ++ [(ctx, id)] }) fun _ => ⟨rfl, rfl⟩
  · exact .refl d

/-- The access of a VERSION_READ. -/
def versionAcc (q : LReq) (s : State) : Acc :=
  let r := landed 0x0B { q with o := { q.o with order := q.o.order / 2 * 2 } } [] s
  { r.acc q.n.val r.id 0 .verRead (.lndVersion q.n.val q.tag r.o.order) with len := 4, data := [], region := q.o.addr % 2 ^ 20 }

theorem lndIssue_versionRead (d : Dev) : d.lndIssue q.n.val (landed 0x0B q [] s) =
    some ((d.acquires q.n.val q.o.ctx s.dev.src.nextId (decide (q.o.order / 2 * 2 = 2))).issueAcc (versionAcc q s)) := by
  unfold Dev.acquires
  simp only [decide_eq_true_eq]
  rfl

theorem versionRead_completes : Said.VersionReadCompletes := by
  intro q s hready hserved hoff hnode
  obtain ⟨⟨-, -, -, hq, -⟩, -⟩ := id hready
  refine landing_turn hready hserved hoff rfl rfl (regionAway_here _ hnode) rfl (by decide)
    (C := fun d => ∃ a ∈ d.liveAccs, a.id = s.dev.src.nextId ∧ a.kind = .verRead ∧ a.eng = q.n.val ∧ a.region = q.o.addr % 2 ^ 20 ∧ a.len = 4 ∧
      a.data = [] ∧ a.purpose = .lndVersion q.n.val q.tag (q.o.order / 2 * 2)) fun links => ?_
  rw [Dev.fenceIn_plain (by simp [landed]) (by simp [landed]), lndIssue_versionRead]
  have hwait := (s.accepts links q).leaves_acquires q.n.val q.o.ctx s.dev.src.nextId (decide (q.o.order / 2 * 2 = 2))
  have hdest : ((s.accepts links q).acquires q.n.val q.o.ctx s.dev.src.nextId (decide (q.o.order / 2 * 2 = 2))).hasNode (versionAcc q s).dest = true := by
    rw [hwait.hasNode, accepts_hasNode, show (versionAcc q s).dest = bits (q.o.addr % 2 ^ 20) 13 7 from rfl, bits_region, hnode]
  exact ⟨_, rfl, (hwait.trans (Dev.leaves_issueAcc hdest)).quiet (accepts_quiet hq links),
    _, Dev.issueAcc_mem hdest, rfl, rfl, rfl, rfl, rfl, rfl, rfl⟩

/-- The access of a PUBLISH. -/
def publishAcc (q : LReq) (s : State) : Acc :=
  let r := landed 0x0C q [] s
  { r.acc q.n.val r.id 0 .publish (.lndPublish q.n.val q.tag q.o.order) with
    len := 8, data := sliceBytes q.data 0 8, region := q.o.addr % 2 ^ 20 }

theorem lndIssue_publish (d : Dev) : d.lndIssue q.n.val (landed 0x0C q [] s) = some (if q.o.order % 2 = 1 then
    (d.acquires q.n.val q.o.ctx s.dev.src.nextId (decide (2 ≤ q.o.order))).closeBlocks q.n.val (fun _ => true)
    else (d.acquires q.n.val q.o.ctx s.dev.src.nextId (decide (2 ≤ q.o.order))).issueAcc (publishAcc q s)) := by
  unfold Dev.acquires
  simp only [decide_eq_true_eq]
  rfl

theorem acquires_blocks {n ctx id : Nat} {acquire : Bool} {d : Dev} {k : Nat} (h : blocksAtNodes d k) : blocksAtNodes (d.acquires n ctx id acquire) k := by
  unfold Dev.acquires
  split
  · intro b hb
    exact h b (by rwa [← d.lndOf_setLnd_keep (f := fun l => { l with acquiring := l.acquiring ++ [(ctx, id)] }) (fun l => l.wc) (fun _ => rfl) n k])
  · exact h

theorem publish_completes : Said.PublishCompletes := by
  intro q s hready hserved hoff hnode
  obtain ⟨⟨-, -, -, hq, -⟩, -, -, -, -, hblocks⟩ := id hready
  refine landing_turn hready hserved hoff rfl rfl (regionAway_here _ hnode) rfl (by decide)
    (C := fun d => (q.o.order % 2 = 0 → ∃ a ∈ d.liveAccs, a.id = s.dev.src.nextId ∧ a.kind = .publish ∧ a.eng = q.n.val ∧
        a.region = q.o.addr % 2 ^ 20 ∧ a.data = sliceBytes q.data 0 8 ∧ a.purpose = .lndPublish q.n.val q.tag q.o.order) ∧
      (q.o.order % 2 = 1 → ∃ f ∈ d.src.fences, f.id = s.dev.src.nextId ∧ f.holdCtx = some q.o.ctx ∧
        f.next = .publish q.n.val (landed 0x0C q [] s))) fun links => ?_
  rw [lndIssue_publish]
  by_cases hrel : q.o.order % 2 = 1
  · rw [if_pos hrel]
    obtain ⟨fences, hfence⟩ := (s.accepts links q).fenceIn_frame q.n.val (landed 0x0C q [] s)
    have hbrought : ∃ f ∈ ((s.accepts links q).fenceIn q.n.val (landed 0x0C q [] s)).src.fences, f.id = s.dev.src.nextId ∧
        f.holdCtx = some q.o.ctx ∧ f.next = .publish q.n.val (landed 0x0C q [] s) := by
      rw [Dev.fenceIn, if_neg (by simp [landed]), if_pos ⟨rfl, hrel⟩]
      exact ⟨_, List.mem_append_right _ (List.mem_singleton_self _), rfl, rfl, rfl⟩
    have hblocks' : blocksAtNodes ((s.accepts links q).fenceIn q.n.val (landed 0x0C q [] s)) q.n.val := by
      rw [hfence]
      exact accepts_blocks hblocks links
    have hquiet : quiet ((s.accepts links q).fenceIn q.n.val (landed 0x0C q [] s)) := by
      rw [hfence]
      exact accepts_quiet hq links
    generalize (s.accepts links q).fenceIn q.n.val (landed 0x0C q [] s) = d at hbrought hblocks' hquiet ⊢
    have hleaves := (d.leaves_acquires q.n.val q.o.ctx s.dev.src.nextId (decide (2 ≤ q.o.order))).trans
      (Dev.leaves_closeBlocks (fun _ => true) (acquires_blocks hblocks'))
    refine ⟨_, rfl, hleaves.quiet hquiet, fun h => absurd hrel (by omega), fun _ => ?_⟩
    rw [hleaves.fences]
    exact hbrought
  · rw [if_neg hrel, Dev.fenceIn_plain (by simp [landed]) (fun h => hrel h.2)]
    have hwait := (s.accepts links q).leaves_acquires q.n.val q.o.ctx s.dev.src.nextId (decide (2 ≤ q.o.order))
    have hdest : ((s.accepts links q).acquires q.n.val q.o.ctx s.dev.src.nextId (decide (2 ≤ q.o.order))).hasNode (publishAcc q s).dest = true := by
      rw [hwait.hasNode, accepts_hasNode, show (publishAcc q s).dest = bits (q.o.addr % 2 ^ 20) 13 7 from rfl, bits_region, hnode]
    exact ⟨_, rfl, (hwait.trans (Dev.leaves_issueAcc hdest)).quiet (accepts_quiet hq links),
      fun _ => ⟨_, Dev.issueAcc_mem hdest, rfl, rfl, rfl, rfl, rfl, rfl⟩, fun h => absurd h hrel⟩

/-- The access of a PTE_WRITE. -/
def pteAcc (q : LReq) (s : State) : Acc :=
  let r := landed 0x11 q [] s
  { r.acc q.n.val r.id 0 .pteWrite (.lndPte q.n.val q.tag) with
    len := 8, data := sliceBytes q.data 0 8, region := q.o.addr % 2 ^ 20, page := bits q.o.addr 20 23 }

theorem lndIssue_pteWrite (d : Dev) : d.lndIssue q.n.val (landed 0x11 q [] s) =
    some ((d.closeNode q.n.val (bits q.o.addr 13 7)).issueAcc (pteAcc q s)) := rfl

theorem pteWrite_completes : Said.PteWriteCompletes := by
  intro q s hready hserved hoff hnode hlen
  obtain ⟨⟨-, -, -, hq, -⟩, -, -, -, -, hblocks⟩ := id hready
  refine landing_turn hready hserved hoff rfl (if_pos hlen) (regionAway_here _ hnode) rfl (by decide)
    (C := fun d => ∃ a ∈ d.liveAccs, a.id = s.dev.src.nextId ∧ a.kind = .pteWrite ∧ a.eng = q.n.val ∧ a.region = q.o.addr % 2 ^ 20 ∧
      a.page = bits q.o.addr 20 23 ∧ a.data = sliceBytes q.data 0 8) fun links => ?_
  rw [Dev.fenceIn_plain (by simp [landed]) (by simp [landed]), lndIssue_pteWrite]
  have hclosed : (s.accepts links q).Leaves ((s.accepts links q).closeNode q.n.val (bits q.o.addr 13 7)) :=
    Dev.leaves_closeBlocks _ (accepts_blocks hblocks links)
  have hdest : ((s.accepts links q).closeNode q.n.val (bits q.o.addr 13 7)).hasNode (pteAcc q s).dest = true := by
    rw [hclosed.hasNode, accepts_hasNode, show (pteAcc q s).dest = bits (q.o.addr % 2 ^ 20) 13 7 from rfl, bits_region, hnode]
  exact ⟨_, rfl, (hclosed.trans (Dev.leaves_issueAcc hdest)).quiet (accepts_quiet hq links), _, Dev.issueAcc_mem hdest, rfl, rfl, rfl, rfl, rfl, rfl⟩

/-! ### STREAM_DECLARE and STREAM_END -/

/-- A stream is opened: it stands under the number that is given. -/
theorem Dev.openStream_stands (d : Dev) (st : Stream) : ∃ k xlt, d.openStream st = (k, { d with xlt := xlt }) ∧
    ∃ o ∈ xlt.streams, o.num = k ∧ o.ctx = st.ctx ∧ o.base = st.base ∧ o.owner = st.owner := by
  unfold Dev.openStream
  dsimp only
  split
  · exact ⟨_, _, rfl, _, List.mem_append_right _ (List.mem_singleton_self _), rfl, rfl, rfl, rfl⟩
  · split
    · exact ⟨_, _, rfl, _, List.mem_append_right _ (List.mem_singleton_self _), rfl, rfl, rfl, rfl⟩
    · exact ⟨_, _, rfl, _, List.mem_append_right _ (List.mem_singleton_self _), rfl, rfl, rfl, rfl⟩

/-- What a STREAM_DECLARE does. -/
theorem Dev.streamDeclare_does (d : Dev) (n : Nat) (r : PortReq) (hop : r.op = 0x0D) : ∃ k v, (d.streamDeclare n r).rest = d.rest ∧ v.length = 1 ∧
    ((d.streamDeclare n r).out = d.out ++ [.attach n 0x0D r.tag sOk (natLE 1 k)] ∧
      (∃ st ∈ (d.streamDeclare n r).xlt.streams, st.num = k ∧ st.ctx = r.o.ctx ∧ st.base = r.o.addr % 2 ^ 57 ∧ st.owner = 0) ∨
    (d.streamDeclare n r).out = d.out ++ [.attach n 0x0D r.tag sRights v] ∧ (d.streamDeclare n r).xlt = d.xlt) := by
  unfold Dev.streamDeclare
  dsimp only
  split
  · obtain ⟨k, xlt, hopen, st, hst, hnum, hctx, hbase, howner⟩ := d.openStream_stands ⟨0, r.o.ctx, r.o.addr % 2 ^ 57,
      (List.range 4).map (fun i => leNat (sliceBytes r.data (4 * i) 4)), (List.range 3).map (fun i => leNat (sliceBytes r.data (16 + 8 * i) 8) % 2 ^ 48),
      (List.range 4).map (fun i => leNat (sliceBytes r.data (40 + 4 * i) 4)), 8,
      if leNat (sliceBytes r.data 56 1) = 0 then 8 else leNat (sliceBytes r.data 56 1), [], 0, 0⟩
    rw [hopen]
    exact ⟨k, [0], Dev.rest_attach _ .., rfl, .inl ⟨rfl, st, hst, hnum, hctx, hbase, howner⟩⟩
  · obtain ⟨v, hv, hout, -, -, -, hrest⟩ := d.lndEnd_frame n r sRights
    rw [hop] at hv hout
    exact ⟨0, v, hrest, hv, .inr ⟨hout, rfl⟩⟩

theorem streamDeclare_completes : Said.StreamDeclareCompletes := by
  intro q s hready hserved hoff
  obtain ⟨⟨-, -, -, hq, -⟩, -⟩ := id hready
  have hturn := landing_turn hready hserved hoff rfl rfl (regionAway_none (by decide)) (i := .streamDeclare q) rfl (by decide)
    (C := fun d => ∃ k v, v.length = 1 ∧
      (d.out = s.dev.out ++ [.attach q.n.val 0x0D q.tag sOk (natLE 1 k)] ∧ (∃ st ∈ d.xlt.streams, st.num = k ∧ st.ctx = q.o.ctx ∧
          st.base = lvaOf q ∧ st.owner = 0) ∨
        d.out = s.dev.out ++ [.attach q.n.val 0x0D q.tag sRights v] ∧ d.xlt = s.dev.xlt)) fun links => by
    rw [Dev.fenceIn_plain (by simp [landed]) (by simp [landed])]
    obtain ⟨k, v, hrest, hv, hdoes⟩ := (s.accepts links q).streamDeclare_does q.n.val (landed 0x0D q [] s) rfl
    exact ⟨_, rfl, quiet_rest hrest (accepts_quiet hq links), k, v, hv, hdoes⟩
  obtain ⟨t, hexec, hstore, k, v, hv, hdoes⟩ := hturn
  exact ⟨t, k, v, hexec, hstore, hv, hdoes⟩

/-- What a STREAM_END does. -/
theorem Dev.streamEnd_does (d : Dev) (n : Nat) (r : PortReq) : (d.streamEnd n r).rest = d.rest ∧
    (d.streamEnd n r).out = d.out ++ [.attach n 0x0E r.tag sOk []] ∧
    ∀ st ∈ (d.streamEnd n r).xlt.streams, ¬(st.num = r.o.addr % 64 ∧ st.owner = 0 ∧ st.ctx = r.o.ctx) := by
  have hstreams : (d.streamEnd n r).xlt.streams =
      d.xlt.streams.filter (fun st => !(st.num == r.o.addr % 64 && st.owner == 0 && st.ctx == r.o.ctx)) := rfl
  refine ⟨Dev.rest_attach _ .., rfl, fun st hst hnamed => ?_⟩
  obtain ⟨hnum, howner, hctx⟩ := hnamed
  rw [hstreams, List.mem_filter] at hst
  simp [hnum, howner, hctx] at hst

theorem streamEnd_completes : Said.StreamEndCompletes := by
  intro q s hready hserved hoff
  obtain ⟨⟨-, -, -, hq, -⟩, -⟩ := id hready
  refine landing_turn hready hserved hoff rfl rfl (regionAway_none (by decide)) (i := .streamEnd q) rfl (by decide)
    (C := fun d => d.out = s.dev.out ++ [.attach q.n.val 0x0E q.tag sOk []] ∧
      ∀ st ∈ d.xlt.streams, ¬(st.num = q.o.addr % 64 ∧ st.owner = 0 ∧ st.ctx = q.o.ctx)) fun links => ?_
  rw [Dev.fenceIn_plain (by simp [landed]) (by simp [landed])]
  obtain ⟨hrest, hout, hends⟩ := (s.accepts links q).streamEnd_does q.n.val (landed 0x0E q [] s)
  exact ⟨_, rfl, quiet_rest hrest (accepts_quiet hq links), hout, hends⟩

/-! ### DOORBELL and DOCK_READ -/

theorem doorbell_completes : Said.DoorbellCompletes := by
  intro q s hready hserved hoff hwc hwrites
  obtain ⟨⟨-, -, -, hq, hshape⟩, -, -, -, hfree, -⟩ := id hready
  obtain ⟨links, hexec⟩ := landing_queues hready hserved hoff rfl rfl (regionAway_none (by decide)) (i := .doorbell q) rfl
  rw [Dev.fenceIn_plain (by simp [landed]) (by simp [landed])] at hexec
  have hqa : quiet (s.accepts links q) := accepts_quiet hq links
  have hlen : (s.accepts links q).lnd.length = 4 := (length_modAt ..).trans hshape.1
  have hnone : ((s.accepts links q).lndOf q.n.val).wc = [] := (accepts_lnd (fun l => l.wc) (fun _ _ => rfl) links _).trans hwc
  have hlive : (s.accepts links q).liveAccs.any (fun a => a.eng == q.n.val && a.kind.isWrite) = false := by
    rw [List.any_eq_false]
    intro a ha
    have hnot := hwrites a ha
    simpa [Classical.or_iff_not_imp_left] using hnot
  have hstep : Pkg.portStep q.n.val (s.store, (s.accepts links q).setPortQ q.n.val [landed 0x0F q [] s]) =
      some ((Pkg.lndDoorbell q.n.val (bits q.o.addr 32 7) (bits q.o.addr 39 6) (bit q.o.addr 45) (bits q.o.addr 0 32) s.dev.ticket
        (s.store, s.accepts links q)).dev (Dev.attach q.n.val 0x0F q.tag sOk [])) := by
    have hn := q.n.isLt
    have hqueue : ((s.accepts links q).setPortQ q.n.val [landed 0x0F q [] s]).portQ q.n.val = [landed 0x0F q [] s] :=
      Dev.portQ_setPortQ _ (by omega) hn _
    have hheld : ((s.accepts links q).setPortQ q.n.val [landed 0x0F q [] s]).portHeld q.n.val (landed 0x0F q [] s) = false :=
      (Dev.portHeld_setPortQ hn _).trans (portHeld_unheld (accepts_unheld hfree links))
    have hback := (s.accepts links q).setPortQ_back hn (hqa.2.1 _ (by omega)) [landed 0x0F q [] s]
    have hblocks : (((s.accepts links q).setPortQ q.n.val [landed 0x0F q [] s]).lndOf q.n.val).wc = [] := by
      unfold Dev.setPortQ
      rw [if_pos hn]
      exact (Dev.lndOf_setLnd_keep _ (f := fun l => { l with inQ := [landed 0x0F q [] s] }) (fun l => l.wc) (fun _ => rfl) ..).trans hnone
    have haccs : ((s.accepts links q).setPortQ q.n.val [landed 0x0F q [] s]).liveAccs = (s.accepts links q).liveAccs := by
      unfold Dev.setPortQ
      rw [if_pos hn]
      rfl
    unfold Pkg.portStep
    simp only [hqueue, hheld, hback]
    rw [if_neg (by simp), if_neg (by omega), if_pos (by rfl)]
    unfold Pkg.doorbellStep
    simp only [hblocks, haccs, hlive, Pkg.dev, hback]
    rfl
  refine ⟨_, s.accepts links q, ?_, rfl, rfl, rfl, rfl⟩
  rw [hexec, settle_first (settleOne_lnd q.n.isLt hqa hlen (by simp [landed]) hstep)]

/-- A DOCK_READ that waits at a landing is answered before all else. -/
theorem settleOne_dock {m : Store} {d : Dev} {n : Nat} {r : PortReq} (hn : n < 4) (hq : quiet d) (hlen : d.lnd.length = 4) (hop : r.op = 0x10)
    {o : Opd} {tag : Nat} (ho : r.o = o) (htag : r.tag = tag) :
    Pkg.settleOne (m, d.setPortQ n [r]) = some (m, d.attach n 0x10 tag sOk (Pkg.dockRead n (bits o.addr 0 11) (opdLen o) (m, d.setPortQ n [r]))) := by
  subst ho htag
  obtain ⟨hxfers, hports, -⟩ := hq
  have hdocks : (List.range 4).findSome? (fun k => Pkg.dockStep k (m, d.setPortQ n [r])) =
      some (m, d.attach n 0x10 r.tag sOk (Pkg.dockRead n (bits r.o.addr 0 11) (opdLen r.o) (m, d.setPortQ n [r]))) := by
    have hmine : Pkg.dockStep n (m, d.setPortQ n [r]) =
        some (m, d.attach n 0x10 r.tag sOk (Pkg.dockRead n (bits r.o.addr 0 11) (opdLen r.o) (m, d.setPortQ n [r]))) := by
      have hqueue : (d.setPortQ n [r]).portQ n = [r] := d.portQ_setPortQ (by omega) hn [r]
      unfold Pkg.dockStep
      simp only [hqueue, takeFirst, hop, Pkg.dev]
      simp [d.setPortQ_back hn (hports n (by omega)) [r]]
    have hother : ∀ k < 4, k ≠ n → Pkg.dockStep k (m, d.setPortQ n [r]) = none := fun k hk hkn =>
      dockStep_none ((d.portQ_setPortQ_ne hn hkn [r]).trans (hports k (by omega)))
    rw [show List.range 4 = [0, 1, 2, 3] from rfl]
    simp only [List.findSome?_cons, List.findSome?_nil]
    interval_cases n <;> simp [hmine, hother]
  have hxfer : (d.setPortQ n [r]).xferTake = none := by
    have hfry : (d.setPortQ n [r]).fry = d.fry := by
      unfold Dev.setPortQ
      rw [if_pos hn]
      rfl
    simp [Dev.xferTake, hfry, hxfers, takeFirst]
  unfold Pkg.settleOne
  simp only [hxfer, hdocks]

/-- The dock's bytes are not those of the landings' queues. -/
theorem Pkg.dockRead_lnd (m : Store) (d : Dev) (links : List Link) (src : Src) (lnd : List Lnd) (n off len : Nat) :
    Pkg.dockRead n off len (m, { d with links := links, src := src, lnd := lnd }) = Pkg.dockRead n off len (m, d) := by
  unfold Pkg.dockRead Pkg.dockWord
  rfl

theorem accepts_dock (links : List Link) (r : PortReq) {n : Nat} (hn : n < 4) (off len : Nat) :
    Pkg.dockRead n off len (s.store, (s.accepts links q).setPortQ n [r]) = Pkg.dockRead n off len (s.store, s.dev) := by
  obtain ⟨lnd, hdev⟩ : ∃ lnd, (s.accepts links q).setPortQ n [r] = { s.dev with links := links, src := (s.accepts links q).src, lnd := lnd } := by
    unfold Dev.setPortQ
    rw [if_pos hn]
    exact ⟨_, rfl⟩
  rw [hdev, Pkg.dockRead_lnd]

/-- The answer of a DOCK_READ, once it has been accepted. -/
theorem accepts_dockAnswer (links : List Link) (v : List Byte) : ((s.accepts links q).attach q.n.val 0x10 q.tag sOk v).regs = s.dev.regs ∧
    ((s.accepts links q).attach q.n.val 0x10 q.tag sOk v).out = s.dev.out ++ [.attach q.n.val 0x10 q.tag sOk v] :=
  ⟨rfl, ((s.accepts links q).attach_frame q.n.val 0x10 q.tag sOk v).2.2.2⟩

theorem dockRead_completes : Said.DockReadCompletes := by
  intro q s hready hserved hoff hsize
  obtain ⟨⟨-, -, -, hq, hshape⟩, -⟩ := id hready
  obtain ⟨links, hexec⟩ := landing_queues hready hserved hoff rfl hsize (regionAway_none (by decide)) (i := .dockRead q) rfl
  rw [Dev.fenceIn_plain (by simp [landed]) (by simp [landed])] at hexec
  have hqa : quiet (s.accepts links q) := accepts_quiet hq links
  have hdock := settleOne_dock (m := s.store) q.n.isLt hqa ((length_modAt ..).trans hshape.1) (r := landed 0x10 q [] s) rfl rfl rfl
  rw [accepts_dock links _ q.n.isLt] at hdock
  obtain ⟨hregs, hout⟩ := accepts_dockAnswer (q := q) (s := s) links (Pkg.dockRead q.n.val (bits q.o.addr 0 11) (opdLen q.o) (s.store, s.dev))
  rw [settle_one hdock (quiet_rest (Dev.rest_attach _ ..) hqa)] at hexec
  exact ⟨_, hexec, rfl, hregs, hout⟩

end

end Sys2Proof.Machine

namespace Sys2Proof
open Sys2Proof.Machine

/-- Settles O28: a request in order joins its landing's queue and has its turn at once, as nothing else waits there. -/
theorem landingOperations : Obligations.LandingOperations :=
  ⟨regionAway_fault, versionRead_completes, publish_completes, pteWrite_completes, streamDeclare_completes, streamEnd_completes,
    doorbell_completes, dockRead_completes⟩

end Sys2Proof


/-!
SUPPORT. O26, a LOAD without the permission of its page, beside a held request that may go and two streams of one number. The page that the
wrong one of them wants lies at no node of the domain, so the request held goes out after the answer: `lndUp` does not say that the streams
have numbers of their own.
-/
namespace Sys2Proof.Machine

/-- A stream of `n` tiles at address 0 with number 0. -/
def streamAt0 (ctx n : Nat) : Stream := ⟨0, ctx, 0, [256 * n, 1, 1, 1], [0, 0, 0], [256, 1, 1, 1], 8, 1, [], 0, 0⟩

/-- A read of landing 2 that is held, with nothing before it. -/
def readHeld : OutReq where
  acc := { eng := 2, ctx := 0, landing := 2, ticket := 5, kind := .read, len := 64, purpose := .lndLoad 2 9 }
  msg := .msix 7
  dest := 0
  tag := 0
  man := none
  bytes := 64
  lines := [0]
  firstAt := 0
  sentAt := 0
  bounces := 0

/-- A LOAD of one byte at address 0, of landing 1. -/
def loadAt0 : LReq := ⟨1, 0, {}, []⟩

/-- The translation of page 0 for landing 1, without any permission. -/
def pageBarred : TEntry := ⟨0, 0, 0, 0, 0, 0, 0, 1, false⟩

/-- The only package of its domain, to which landing 1 brings that LOAD. -/
def barredLoad : State := { State.reset with dev := { inService with
  glb := { inService.glb with join := some ⟨1, 1, 0, 0, 0⟩ }
  links := modAt (fun l => { l with rx := [⟨{ opcode := 1 }, List.replicate 16 0⟩] }) inService.links 25
  xlt := { inService.xlt with
    streams := [streamAt0 (2 ^ 35) 2, streamAt0 0 1]
    ltb := modAt (fun _ => [pageBarred]) inService.xlt.ltb 1 }
  src := { inService.src with held := [readHeld] } } }

/-- The last that has left the package once the LOAD has arrived. -/
def lastAfterLoad : Option Emit :=
  match exec (.load loadAt0) barredLoad with
  | .next t => t.dev.out.getLast?
  | _ => none

theorem lastAfterLoad_eq : lastAfterLoad = some (.msix 7) := by decide +kernel

/-- Refutes O26: from `barredLoad` the answer with FAULT is not the last that leaves the package. -/
theorem not_landingRefusals : ¬ Obligations.LandingRefusals := by
  rintro ⟨-, h⟩
  have hrow : (1, id, Instr.load) ∈ landingRows := List.mem_cons_self
  have hall := (h (1, id, .load) hrow loadAt0 barredLoad (by decide +kernel) (by decide +kernel)).2 (by decide +kernel) (by decide +kernel)
  obtain ⟨t, v, -, hexec, -, hlast⟩ := hall.2.2.2 pageBarred (by decide +kernel) (by decide) (by decide) (by decide +kernel) (by decide)
  have hafter : lastAfterLoad = some (.attach loadAt0.n.val 1 loadAt0.tag sFault v) := by
    rw [← hlast]
    unfold lastAfterLoad
    rw [show exec (.load loadAt0) barredLoad = .next t from hexec]
  rw [lastAfterLoad_eq] at hafter
  cases hafter

end Sys2Proof.Machine


/-!
SUPPORT. O29, fences and cache operations of a landing when they have their turn, and fences that are over (R142–R147, R331).
-/
namespace Sys2Proof.Machine

/-! ### What a fence covers -/

section
variable {d e : Dev}

/-- The accesses that are not complete are those in hand, in the queues, in open blocks and behind a release. -/
theorem opens_congr (hlive : e.liveAccs = d.liveAccs) (hports : ∀ p < 5, e.portQ p = d.portQ p)
    (hwc : ∀ n < 4, (e.lndOf n).wc = (d.lndOf n).wc) (hfences : e.src.fences = d.src.fences) : e.opens = d.opens := by
  have hq : (List.range 5).flatMap (fun p => ((e.portQ p).filter (fun r => opAccess r.op)).map (fun r => (r.id, p, r.o.ctx))) =
      (List.range 5).flatMap (fun p => ((d.portQ p).filter (fun r => opAccess r.op)).map (fun r => (r.id, p, r.o.ctx))) :=
    List.flatMap_congr fun p hp => by rw [hports p (by simpa using hp)]
  have hblocks : (List.range 4).flatMap (fun n => (e.lndOf n).wc.flatMap (fun b => b.stores.map (fun s => (s.2.2, n, s.2.1)))) =
      (List.range 4).flatMap (fun n => (d.lndOf n).wc.flatMap (fun b => b.stores.map (fun s => (s.2.2, n, s.2.1)))) :=
    List.flatMap_congr fun n hn => by rw [hwc n (by simpa using hn)]
  unfold Dev.opens
  rw [hlive, hq, hblocks, hfences]

/-- Nothing waits at a boundary. -/
theorem atBoundary_none (hq : quiet d) : d.atBoundary = [] := by
  obtain ⟨-, -, hgates, hhost, -⟩ := hq
  unfold Dev.atBoundary
  rw [hhost]
  simp only [List.filter_nil, List.map_nil, List.append_nil, List.flatMap_eq_nil_iff]
  intro n hn
  rw [hgates n (by simpa using hn)]
  rfl

end

section
variable {q : LReq} {s : State}

theorem accepts_opens (hq : quiet s.dev) (links : List Link) : (s.accepts links q).opens = s.dev.opens := by
  refine opens_congr rfl (fun p hp => ?_) (fun n _ => accepts_lnd (fun l => l.wc) (fun _ _ => rfl) links n) rfl
  have hqueue := (accepts_quiet (q := q) hq links).2.1 p hp
  rw [hqueue, hq.2.1 p hp]

/-! ### FENCE, RC_INV and WC_FLUSH -/

theorem localFence_opens (hready : lndReady q s) (hserved : served q s) (hoff : offered 8 (q.fence 0) s) :
    ∃ t, exec (.localFence q) s = .next t ∧ t.store = s.store ∧ t.dev.src.fences = s.dev.src.fences ++
      [⟨s.dev.src.nextId, ((s.dev.opens.filter (fun (e : Open) => e.2.1 == q.n.val)).map (·.1)).dedup, some q.n.val, none, false, 16,
        .lndFence q.n.val q.tag, []⟩] := by
  obtain ⟨⟨-, -, -, hq, -⟩, -, -, -, -, hblocks⟩ := id hready
  refine landing_turn (q := q.fence 0) (i := .localFence q) hready hserved hoff rfl rfl (regionAway_none (by decide)) rfl (by decide)
    (C := fun d => d.src.fences = s.dev.src.fences ++ [⟨s.dev.src.nextId,
      ((s.dev.opens.filter (fun (e : Open) => e.2.1 == q.n.val)).map (·.1)).dedup, some q.n.val, none, false, 16, .lndFence q.n.val q.tag, []⟩])
    fun links => ?_
  have hfence : (s.accepts links (q.fence 0)).fenceIn q.n.val (landed 8 (q.fence 0) [] s) =
      (s.accepts links (q.fence 0)).localFence s.dev.src.nextId q.n.val (.lndFence q.n.val q.tag) := by
    rw [Dev.fenceIn, if_pos (by rfl), if_neg (by simp [landed, LReq.fence])]
    rfl
  have hopens : (s.accepts links (q.fence 0)).opens = s.dev.opens := accepts_opens hq links
  have hleaves : ((s.accepts links (q.fence 0)).localFence s.dev.src.nextId q.n.val (.lndFence q.n.val q.tag)).Leaves
      (((s.accepts links (q.fence 0)).localFence s.dev.src.nextId q.n.val (.lndFence q.n.val q.tag)).closeBlocks q.n.val fun _ => true) :=
    Dev.leaves_closeBlocks _ (accepts_blocks (q := q.fence 0) hblocks links)
  refine ⟨_, congrArg (fun d : Dev => d.lndIssue q.n.val (landed 8 (q.fence 0) [] s)) hfence,
    hleaves.quiet (quiet_rest (d := s.accepts links (q.fence 0)) rfl (accepts_quiet hq links)), ?_⟩
  rw [hleaves.fences]
  show (s.accepts links (q.fence 0)).src.fences ++ [_] = _
  rw [hopens]
  rfl

theorem domainFence_opens (hready : lndReady q s) (hserved : served q s) (hoff : offered 8 (q.fence 1) s) :
    ∃ t, exec (.domainFence q) s = .next t ∧ t.store = s.store ∧ t.dev.src.fences = s.dev.src.fences ++
      [⟨s.dev.src.nextId, ((s.dev.opens.filter (fun (e : Open) => e.2.2 == q.o.ctx)).map (·.1)).dedup, none, some q.o.ctx, false, 16,
        .lndFence q.n.val q.tag, s.dev.attnOf q.o.ctx⟩] := by
  obtain ⟨⟨-, -, -, hq, -⟩, -, -, -, -, hblocks⟩ := id hready
  refine landing_turn (q := q.fence 1) (i := .domainFence q) hready hserved hoff rfl rfl (regionAway_none (by decide)) rfl (by decide)
    (C := fun d => d.src.fences = s.dev.src.fences ++ [⟨s.dev.src.nextId,
      ((s.dev.opens.filter (fun (e : Open) => e.2.2 == q.o.ctx)).map (·.1)).dedup, none, some q.o.ctx, false, 16, .lndFence q.n.val q.tag,
      s.dev.attnOf q.o.ctx⟩]) fun links => ?_
  have hfence : (s.accepts links (q.fence 1)).fenceIn q.n.val (landed 8 (q.fence 1) [] s) =
      (s.accepts links (q.fence 1)).domainFence s.dev.src.nextId q.o.ctx (.lndFence q.n.val q.tag) := by
    rw [Dev.fenceIn, if_pos (by rfl), if_pos (by rfl)]
    rfl
  have hopens : (s.accepts links (q.fence 1)).opens ++ (s.accepts links (q.fence 1)).atBoundary = s.dev.opens := by
    rw [accepts_opens hq links, atBoundary_none (accepts_quiet hq links), List.append_nil]
  have hleaves : ((s.accepts links (q.fence 1)).domainFence s.dev.src.nextId q.o.ctx (.lndFence q.n.val q.tag)).Leaves
      (((s.accepts links (q.fence 1)).domainFence s.dev.src.nextId q.o.ctx (.lndFence q.n.val q.tag)).closeBlocks q.n.val fun _ => true) :=
    Dev.leaves_closeBlocks _ (accepts_blocks (q := q.fence 1) hblocks links)
  refine ⟨_, congrArg (fun d : Dev => d.lndIssue q.n.val (landed 8 (q.fence 1) [] s)) hfence,
    hleaves.quiet (quiet_rest (d := s.accepts links (q.fence 1)) rfl (accepts_quiet hq links)), ?_⟩
  rw [hleaves.fences]
  show (s.accepts links (q.fence 1)).src.fences ++ [_] = _
  rw [hopens]
  rfl

theorem rcInv_empties (hready : lndReady q s) (hserved : served q s) (hoff : offered 9 q s) :
    ∃ t, exec (.rcInv q) s = .next t ∧ t.store = s.store ∧ t.dev.out = s.dev.out ++ [.attach q.n.val 9 q.tag sOk []] ∧
      (t.dev.lndOf q.n.val).rc = [] := by
  obtain ⟨⟨-, -, -, hq, hshape⟩, -⟩ := id hready
  refine landing_turn hready hserved hoff rfl rfl (regionAway_none (by decide)) (i := .rcInv q) rfl (by decide)
    (C := fun d => d.out = s.dev.out ++ [.attach q.n.val 9 q.tag sOk []] ∧ (d.lndOf q.n.val).rc = []) fun links => ?_
  rw [Dev.fenceIn_plain (by simp [landed]) (by simp [landed])]
  have hclear : ((s.accepts links q).rcClear q.n.val).rest = (s.accepts links q).rest :=
    (s.accepts links q).rest_setLnd q.n.val (f := fun l => { l with rc := [], noFill := l.noFill ++ (s.accepts links q).fillsOf q.n.val })
      fun _ => ⟨rfl, rfl⟩
  have hlen : q.n.val < (s.accepts links q).lnd.length := by
    rw [show (s.accepts links q).lnd.length = s.dev.lnd.length from length_modAt .., hshape.1]
    exact q.n.isLt
  refine ⟨((s.accepts links q).rcClear q.n.val).attach q.n.val 9 q.tag sOk [], rfl,
    quiet_rest ((Dev.rest_attach _ ..).trans hclear) (accepts_quiet hq links), (Dev.attach_frame _ ..).2.2.2, ?_⟩
  have hgone : (((s.accepts links q).rcClear q.n.val).lndOf q.n.val).rc = [] := by
    unfold Dev.rcClear
    dsimp only
    rw [Dev.lndOf_setLnd_same _ _ hlen]
  have hattach : ((((s.accepts links q).rcClear q.n.val).attach q.n.val 9 q.tag sOk []).lndOf q.n.val).rc =
      (((s.accepts links q).rcClear q.n.val).lndOf q.n.val).rc :=
    (Dev.lndOf_setLnd_keep _ (f := fun l => { l with outQ := l.outQ ++ [lndFrame 9 q.tag sOk []] }) (fun l => l.rc) (fun _ => rfl) ..).trans
      (Dev.lndOf_setLnd_keep _ (f := fun l => { l with tags := l.tags.erase q.tag }) (fun l => l.rc) (fun _ => rfl) ..)
  exact hattach.trans hgone

/-- WC_FLUSH with nothing to wait for is answered as it is accepted. -/
theorem Dev.flushDone_alone {d : Dev} {f : Fence} {n tag : Nat} (hfences : d.src.fences = [f]) (hcov : f.covered = []) (hnext : f.next = .wcFlush n tag) :
    d.flushDone = ({ d with src := { d.src with fences := [] } } : Dev).attach n 0x0A tag sOk [] := by
  unfold Dev.flushDone
  simp [hfences, hcov, hnext]

theorem wcFlush_answers (hready : lndReady q s) (hserved : served q s) (hoff : offered 0x0A q s) (hwc : (s.dev.lndOf q.n.val).wc = [])
    (hfences : s.dev.src.fences = []) (hlive : ∀ a ∈ s.dev.liveAccs, ofBlock q.n.val a.purpose = false) :
    ∃ t, exec (.wcFlush q) s = .next t ∧ t.store = s.store ∧ t.dev.out = s.dev.out ++ [.attach q.n.val 0x0A q.tag sOk []] ∧
      t.dev.src.fences = [] := by
  obtain ⟨⟨-, -, -, hq, -⟩, -⟩ := id hready
  refine landing_turn hready hserved hoff rfl rfl (regionAway_none (by decide)) (i := .wcFlush q) rfl (by decide)
    (C := fun d => d.out = s.dev.out ++ [.attach q.n.val 0x0A q.tag sOk []] ∧ d.src.fences = []) fun links => ?_
  rw [Dev.fenceIn_plain (by simp [landed]) (by simp [landed])]
  have hnone : ((s.accepts links q).lndOf q.n.val).wc = [] := (accepts_lnd (fun l => l.wc) (fun _ _ => rfl) links _).trans hwc
  have hids : ((s.accepts links q).liveAccs.filter (fun a => ofBlock q.n.val a.purpose)).map (·.id) = [] := by
    rw [List.map_eq_nil_iff, List.filter_eq_nil_iff]
    exact fun a ha => Bool.eq_false_iff.1 (hlive a ha)
  have hissue : (s.accepts links q).lndIssue q.n.val (landed 0x0A q [] s) =
      some ((((s.accepts links q).closeBlocks q.n.val (fun _ => true)).openFence ⟨s.dev.src.nextId,
        ((((s.accepts links q).closeBlocks q.n.val (fun _ => true)).liveAccs.filter (fun a => ofBlock q.n.val a.purpose)).map (·.id)),
        none, none, false, 16, .wcFlush q.n.val q.tag, []⟩).flushDone) := rfl
  rw [Dev.closeBlocks_none _ hnone, hids] at hissue
  have hopen : ((s.accepts links q).openFence ⟨s.dev.src.nextId, [], none, none, false, 16, .wcFlush q.n.val q.tag, []⟩).src.fences =
      [⟨s.dev.src.nextId, [], none, none, false, 16, .wcFlush q.n.val q.tag, []⟩] := by
    show s.dev.src.fences ++ [_] = _
    rw [hfences]
    rfl
  rw [hissue, Dev.flushDone_alone hopen rfl rfl]
  exact ⟨_, rfl, quiet_rest (d := s.accepts links q) (Dev.rest_attach _ ..) (accepts_quiet hq links), (Dev.attach_frame _ ..).2.2.2,
    congrArg Src.fences (Dev.attach_frame _ ..).1⟩

end

/-! ### A fence is over -/

section
variable {s : State} {f : Fence} {n : Fin 4} {tag : Nat}

/-- FENCE_COMPLETE of the one fence there is. -/
theorem fenceComplete_ends (hrun : s.dev.running = true) (hdom : s.dev.domOn 11 = true) (hq : quiet s.dev) (hfence : s.dev.src.fences = [f])
    (hclear : s.dev.fenceClear f = true) (hnext : f.next = .lndFence n tag ∨ f.next = .lndReg n) {e : Dev}
    (he : Dev.lndFenced f { s.dev with src := { s.dev.src with fences := [] } } = e) (hheld : e.src.held = []) (hqe : quiet e) :
    exec (.fenceComplete f.id) s = .next { s with dev := e } := by
  have hqueued : s.dev.fenceQueued f = false := by
    unfold Dev.fenceQueued
    rw [List.any_eq_false]
    intro k hk
    rw [hq.2.1 k (by simp at hk; omega)]
    simp
  have hover : s.dev.fenceOver f.id = e := by
    unfold Dev.fenceOver
    rw [hfence]
    simp only [List.find?_cons, hclear, hqueued, beq_self_eq_true, Bool.not_false, Bool.and_self]
    rw [← he]
    rcases hnext with h | h
    · simp [h]
    · simp [h]
  refine (onPkg_leaves (x := (s.store, e)) hrun hdom ?_).trans rfl
  rw [Pkg.fenceEnds, Pkg.dev, hover, Dev.pumpSrc_none hheld]
  exact settle_quiet hqe

theorem fenceComplete_answers (hrun : s.dev.running = true) (hdom : s.dev.domOn 11 = true) (hq : quiet s.dev) (hfence : s.dev.src.fences = [f])
    (hclear : s.dev.fenceClear f = true) (hheld : s.dev.src.held = []) (hnext : f.next = .lndFence n tag) :
    ∃ t, exec (.fenceComplete f.id) s = .next t ∧ t.store = s.store ∧ t.dev.src.fences = [] ∧
      t.dev.out = s.dev.out ++ [.attach n.val 8 tag sOk [if f.errSeen then 1 else 0]] := by
  have hframe := ({ s.dev with src := { s.dev.src with fences := [] } } : Dev).attach_frame n.val 8 tag sOk [if f.errSeen then 1 else 0]
  obtain ⟨hsrc, -, -, hout⟩ := hframe
  refine ⟨_, fenceComplete_ends (n := n) (tag := tag) hrun hdom hq hfence hclear (.inl hnext)
    (e := ({ s.dev with src := { s.dev.src with fences := [] } } : Dev).attach n.val 8 tag sOk [if f.errSeen then 1 else 0]) ?_ ?_ ?_, rfl, ?_, hout⟩
  · unfold Dev.lndFenced
    rw [hnext]
  · rw [hsrc]
    exact hheld
  · exact quiet_rest (d := s.dev) (Dev.rest_attach _ ..) hq
  · rw [hsrc]

/-- An event leaves the fields of other registers. -/
theorem Dev.rdp_event (d : Dev) (p i : Nat) {f : Fld} {q : Nat} (h : f.addr q 0 ≠ p * 0x1000 + 0x14) : (d.event p i).rdp f q = d.rdp f q := by
  unfold Dev.rdp Dev.rdpi
  rw [Dev.word_event, if_neg h]

/-- The registers once a fence of theirs is over. -/
def Dev.regFenced (n : Nat) (seen : Bool) (d : Dev) : Dev :=
  let d := if seen then d.wrp F.LND_FENCE_STAT_ERR_SEEN (lndPage n) 1 else d
  (d.wrp F.LND_FENCE_STAT_DONE_COUNT (lndPage n) (d.rdp F.LND_FENCE_STAT_DONE_COUNT (lndPage n) + 1)).event (lndPage n) 0

/-- R147: what the end of a fence of the registers leaves in them. -/
theorem regFenced_counts (d : Dev) (n : Nat) (seen : Bool) (hcount : d.rdp F.LND_FENCE_STAT_DONE_COUNT (lndPage n) < 255) :
    bit ((d.regFenced n seen).word (lndPage n * 0x1000 + 0x14)) 0 = true ∧
      (d.regFenced n seen).rdp F.LND_FENCE_STAT_DONE_COUNT (lndPage n) = d.rdp F.LND_FENCE_STAT_DONE_COUNT (lndPage n) + 1 ∧
      (seen = true → (d.regFenced n seen).rdp F.LND_FENCE_STAT_ERR_SEEN (lndPage n) = 1) := by
  have haddr : F.LND_FENCE_STAT_DONE_COUNT.addr (lndPage n) 0 = lndPage n * 0x1000 + 0x184 := rfl
  have haddr' : F.LND_FENCE_STAT_ERR_SEEN.addr (lndPage n) 0 = lndPage n * 0x1000 + 0x184 := rfl
  have hseen : ∀ e : Dev, (e.wrp F.LND_FENCE_STAT_ERR_SEEN (lndPage n) 1).rdp F.LND_FENCE_STAT_DONE_COUNT (lndPage n) =
      e.rdp F.LND_FENCE_STAT_DONE_COUNT (lndPage n) := fun e => e.rdpi_wrpi_ne _ _ _ _ _ _ _ (.inr ⟨by decide, by decide⟩)
  have hdone : (if seen then d.wrp F.LND_FENCE_STAT_ERR_SEEN (lndPage n) 1 else d).rdp F.LND_FENCE_STAT_DONE_COUNT (lndPage n) =
      d.rdp F.LND_FENCE_STAT_DONE_COUNT (lndPage n) := by
    split
    · exact hseen d
    · rfl
  unfold Dev.regFenced
  dsimp only
  rw [hdone]
  refine ⟨?_, ?_, fun hs => ?_⟩
  · rw [Dev.word_event, if_pos rfl, bit_mod _ (by omega), bit_putBit_same]
  · rw [Dev.rdp_event _ _ _ (by omega)]
    refine (Dev.rdpi_wrpi_same _ _ _ _ _ (by decide)).trans (Nat.mod_eq_of_lt ?_)
    exact lt_trans (by omega : _ < 256) (by decide)
  · rw [Dev.rdp_event _ _ _ (by omega), hs, if_pos rfl]
    refine (Dev.rdpi_wrpi_ne _ _ _ _ _ _ _ _ (.inr ⟨by decide, by decide⟩)).trans ?_
    exact Dev.rdpi_wrpi_same _ _ _ _ _ (by decide)

theorem Dev.regFenced_frame (d : Dev) (n : Nat) (seen : Bool) : (d.regFenced n seen).src = d.src ∧ (d.regFenced n seen).rest = d.rest := by
  have hseen : (if seen then d.wrp F.LND_FENCE_STAT_ERR_SEEN (lndPage n) 1 else d).works = d.works := by
    split
    · rfl
    · rfl
  unfold Dev.regFenced
  dsimp only
  generalize (if seen then d.wrp F.LND_FENCE_STAT_ERR_SEEN (lndPage n) 1 else d) = e at hseen ⊢
  have hworks : ((e.wrp F.LND_FENCE_STAT_DONE_COUNT (lndPage n) (e.rdp F.LND_FENCE_STAT_DONE_COUNT (lndPage n) + 1)).event (lndPage n) 0).works =
      d.works := (Dev.works_event _ _ _).trans hseen
  exact ⟨congrArg (fun w => w.2.1) hworks, Dev.rest_of_works hworks⟩

theorem fenceComplete_counts (hrun : s.dev.running = true) (hdom : s.dev.domOn 11 = true) (hq : quiet s.dev) (hfence : s.dev.src.fences = [f])
    (hclear : s.dev.fenceClear f = true) (hheld : s.dev.src.held = []) (hnext : f.next = .lndReg n.val)
    (hcount : s.dev.rdp F.LND_FENCE_STAT_DONE_COUNT (lndPage n.val) < 255) :
    ∃ t, exec (.fenceComplete f.id) s = .next t ∧ t.store = s.store ∧ t.dev.src.fences = [] ∧
      bit (t.dev.word (lndPage n.val * 0x1000 + 0x14)) 0 = true ∧
      t.dev.rdp F.LND_FENCE_STAT_DONE_COUNT (lndPage n.val) = s.dev.rdp F.LND_FENCE_STAT_DONE_COUNT (lndPage n.val) + 1 ∧
      (f.errSeen = true → t.dev.rdp F.LND_FENCE_STAT_ERR_SEEN (lndPage n.val) = 1) := by
  obtain ⟨hsrc, hrest⟩ := ({ s.dev with src := { s.dev.src with fences := [] } } : Dev).regFenced_frame n.val f.errSeen
  obtain ⟨hbit, hdone, hseen⟩ := regFenced_counts { s.dev with src := { s.dev.src with fences := [] } } n.val f.errSeen hcount
  refine ⟨_, fenceComplete_ends (n := n) (tag := 0) hrun hdom hq hfence hclear (.inr hnext)
    (e := Dev.regFenced n.val f.errSeen { s.dev with src := { s.dev.src with fences := [] } }) ?_ ?_ (quiet_rest (d := s.dev) hrest hq), rfl, ?_, hbit,
      hdone, hseen⟩
  · unfold Dev.lndFenced
    rw [hnext]
    rfl
  · rw [hsrc]
    exact hheld
  · exact congrArg Src.fences hsrc

end

end Sys2Proof.Machine


/-!
SUPPORT. O29, writes of open blocks that lie at no node of the domain: they end with RIGHTS, and the registers and read caches stand (R57, R142).
-/
namespace Sys2Proof.Machine

/-- The registers, the read caches, and what may go on of itself. -/
def Dev.seen (d : Dev) := (d.regs, d.lnd.map (·.rc), d.rest)

/-- The same, but for accesses of no node of the domain. -/
def Dev.stays (d : Dev) := Dev.seen { d with src := { d.src with noNode := [] } }

/-- The access writes a block. -/
def Acc.ofBlocks (a : Acc) : Prop := ∃ n stores, a.purpose = .wcBlock n stores

/-- The package rests, but for writes of blocks at nodes outside the domain, which have not ended yet. -/
def Dev.CalmBlocks (d : Dev) : Prop := quiet { d with src := { d.src with noNode := [] } } ∧ ∀ o ∈ d.src.noNode, o.acc.ofBlocks

section
variable {d e : Dev}

theorem Dev.stays_of_seen (h : e.seen = d.seen) : e.stays = d.stays ∧ e.src.noNode = d.src.noNode :=
  ⟨congrArg (fun t => (t.1, t.2.1, (t.2.2.1, t.2.2.2.1, t.2.2.2.2.1, ([] : List OutReq)))) h,
    congrArg (fun t => t.2.2.2.2.2) h⟩

theorem Dev.CalmBlocks.of_stays (h : d.CalmBlocks) (hstays : e.stays = d.stays) (hnone : ∀ o ∈ e.src.noNode, o.acc.ofBlocks) : e.CalmBlocks :=
  ⟨quiet_rest (d := { d with src := { d.src with noNode := [] } }) (congrArg (fun t => t.2.2) hstays) h.1, hnone⟩

theorem Dev.rc_of_stays (h : e.stays = d.stays) (n : Nat) : (e.lndOf n).rc = (d.lndOf n).rc := by
  have hlnd : e.lnd.map (·.rc) = d.lnd.map (·.rc) := congrArg (fun t => t.2.1) h
  have hn := congrArg (fun l => (l[n]?).getD []) hlnd
  simp only [List.getElem?_map] at hn
  unfold Dev.lndOf nth
  cases he : e.lnd[n]? <;> cases hd : d.lnd[n]? <;> simp_all

section
variable (d)

theorem Dev.seen_setLnd (n : Nat) {f : Lnd → Lnd} (h : ∀ l : Lnd, (f l).inQ = l.inQ ∧ (f l).gate = l.gate) (hrc : ∀ l : Lnd, (f l).rc = l.rc) :
    (d.setLnd n f).seen = d.seen := by
  have hrest := d.rest_setLnd n h
  have hlnd : (d.setLnd n f).lnd.map (·.rc) = d.lnd.map (·.rc) := map_modAt_keep (f := f) (g := Lnd.rc) hrc d.lnd n
  rw [Dev.seen, hrest, hlnd]
  rfl

theorem Dev.seen_attach (n op tag status : Nat) (data : List Byte) : (d.attach n op tag status data).seen = d.seen :=
  ((d.setLnd n (fun l => { l with tags := l.tags.erase tag })).seen_setLnd n (f := fun l => { l with outQ := l.outQ ++ [lndFrame op tag status data] })
    (fun _ => ⟨rfl, rfl⟩) (fun _ => rfl)).trans
    (d.seen_setLnd n (f := fun l => { l with tags := l.tags.erase tag }) (fun _ => ⟨rfl, rfl⟩) (fun _ => rfl))

theorem Dev.seen_flushDone : d.flushDone.seen = d.seen := by
  unfold Dev.flushDone
  dsimp only
  refine (List.foldl_keeps (f := fun (d : Dev) (f : Fence) => match f.next with
    | .wcFlush n tag => d.attach n 0x0A tag sOk []
    | _ => d) Dev.seen (fun d f => ?_) _ _).trans rfl
  split
  · exact d.seen_attach ..
  · rfl

/-- The answer to the write of a block ends its stores. -/
theorem Dev.seen_lndAnswer {a : Acc} (h : a.ofBlocks) (status : Nat) (data : List Byte) : (d.lndAnswer a status data).seen = d.seen := by
  obtain ⟨n, stores, hp⟩ := h
  unfold Dev.lndAnswer
  rw [hp]
  refine (Dev.seen_flushDone _).trans (List.foldl_keeps (f := fun (d : Dev) (e : Nat × Nat × Nat) =>
    (d.fenceNoteId e.2.2 true status).attach n 2 e.1 status []) Dev.seen (fun d e => ?_) _ _)
  exact (Dev.seen_attach _ ..).trans rfl

theorem Dev.stays_pumpSrc : d.pumpSrc.stays = d.stays := by
  obtain ⟨_, _, _, hsend⟩ := d.sends_pumpSrc
  rw [hsend]
  rfl

theorem Dev.stays_issueAcc (a : Acc) : (d.issueAcc a).stays = d.stays := by
  obtain ⟨_, _, _, hsend⟩ := d.sends_issueAcc a
  rw [hsend]
  rfl

theorem Dev.stays_count (p i k : Nat) : (d.count p i k).stays = d.stays := by
  obtain ⟨_, _, _, _, _, hc⟩ := (d.leaves_count p i k).frame
  have hrest := (d.leaves_count p i k).rest
  have hseen : (d.count p i k).seen = d.seen := by
    rw [Dev.seen, hrest]
    simp [Dev.seen]
  exact (Dev.stays_of_seen hseen).1

/-- A block that closes. -/
theorem Dev.stays_closeBlock (n : Nat) (b : WcBlock) : (d.closeBlock n b).stays = d.stays := by
  have hopen : (d.setLnd n (fun l => { l with wc := l.wc.erase b })).stays = d.stays :=
    (Dev.stays_of_seen (d.seen_setLnd n (f := fun l => { l with wc := l.wc.erase b }) (fun _ => ⟨rfl, rfl⟩) (fun _ => rfl))).1
  have hcount := ((d.setLnd n (fun l => { l with wc := l.wc.erase b })).stays_count (lndPage n) 3 1).trans hopen
  have hnew : ((d.setLnd n (fun l => { l with wc := l.wc.erase b })).count (lndPage n) 3 1).newId.2.stays = d.stays := hcount
  exact (Dev.stays_issueAcc _ _).trans hnew

end

theorem Dev.noNode_issueAcc {a : Acc} (h : a.ofBlocks) (hd : ∀ o ∈ d.src.noNode, o.acc.ofBlocks) : ∀ o ∈ (d.issueAcc a).src.noNode, o.acc.ofBlocks := by
  obtain ⟨p, hacc, -, hissue⟩ := d.issueAcc_eq a
  obtain ⟨-, -, hnone, -⟩ := d.issue_live p
  rw [hissue, hnone]
  split
  · exact hd
  · intro o ho
    obtain ho | ho := List.mem_append.1 ho
    · exact hd o ho
    · rw [List.mem_singleton.1 ho, hacc]
      exact h

/-- A package whose blocks close rests, but for their writes. -/
theorem Dev.CalmBlocks.closeBlock (h : d.CalmBlocks) (n : Nat) (b : WcBlock) : (d.closeBlock n b).CalmBlocks := by
  refine h.of_stays (d.stays_closeBlock n b) (Dev.noNode_issueAcc ⟨n, _, rfl⟩ ?_)
  have hcount : ((d.setLnd n (fun l => { l with wc := l.wc.erase b })).count (lndPage n) 3 1).src = d.src := by simp [Dev.setLnd]
  show ∀ o ∈ ((d.setLnd n (fun l => { l with wc := l.wc.erase b })).count (lndPage n) 3 1).newId.2.src.noNode, _
  show ∀ o ∈ ((d.setLnd n (fun l => { l with wc := l.wc.erase b })).count (lndPage n) 3 1).src.noNode, _
  rw [hcount]
  exact h.2

theorem Dev.CalmBlocks.closeBlocks (h : d.CalmBlocks) (n : Nat) (p : WcBlock → Bool) : (d.closeBlocks n p).CalmBlocks ∧ (d.closeBlocks n p).stays = d.stays := by
  have hfold : ∀ (l : List WcBlock) (e : Dev), e.CalmBlocks → (l.foldl (fun (d : Dev) b => d.closeBlock n b) e).CalmBlocks ∧
      (l.foldl (fun (d : Dev) b => d.closeBlock n b) e).stays = e.stays := by
    intro l
    induction l with
    | nil => exact fun e he => ⟨he, rfl⟩
    | cons b l ih =>
      intro e he
      obtain ⟨hcalm, hstays⟩ := ih (e.closeBlock n b) (he.closeBlock n b)
      exact ⟨hcalm, hstays.trans (e.stays_closeBlock n b)⟩
  exact hfold _ d h

end

/-- The end of such a write. -/
theorem noNodeStep_blocks {x y : Pkg} (h : x.2.CalmBlocks) (hy : x.noNodeStep = some y) : y.1 = x.1 ∧ y.2.CalmBlocks ∧ y.2.stays = x.2.stays := by
  unfold Pkg.noNodeStep at hy
  split at hy
  · cases hy
  · next o l hl =>
    have hblock := h.2 o (by rw [hl]; exact List.mem_cons_self)
    obtain ⟨n, stores, hp⟩ := id hblock
    simp only [Pkg.deliver, hp, Option.some.injEq] at hy
    subst hy
    have hnote : (({ x.2 with src := { x.2.src with noNode := l } } : Dev).fenceNote o.acc sRights).seen =
        Dev.seen { x.2 with src := { x.2.src with noNode := l } } := rfl
    obtain ⟨hstays, hnone⟩ := Dev.stays_of_seen hnote
    generalize ({ x.2 with src := { x.2.src with noNode := l } } : Dev).fenceNote o.acc sRights = e at hstays hnone
    obtain ⟨hans, hansNone⟩ := Dev.stays_of_seen (e.pumpSrc.seen_lndAnswer hblock sRights [])
    have hend : (e.pumpSrc.lndAnswer o.acc sRights []).stays = x.2.stays := (hans.trans e.stays_pumpSrc).trans hstays
    refine ⟨rfl, h.of_stays hend fun p hpm => h.2 p ?_, hend⟩
    obtain ⟨-, hpump, -⟩ := e.pumpSrc_live
    have hmem : p ∈ l := by
      rw [Pkg.dev] at hpm
      rw [hansNone, hpump, hnone] at hpm
      exact hpm
    rw [hl]
    exact List.mem_cons_of_mem _ hmem

/-- The package goes on until every one of them has ended. -/
theorem settleFor_blocks (n : Nat) : ∀ x : Pkg, x.2.CalmBlocks → (Pkg.settleFor n x).1 = x.1 ∧ (Pkg.settleFor n x).2.stays = x.2.stays := by
  induction n with
  | zero => exact fun x _ => ⟨rfl, rfl⟩
  | succ n ih =>
    intro x hx
    unfold Pkg.settleFor
    split
    · next y hy =>
      obtain ⟨hstore, hcalm, hstays⟩ := noNodeStep_blocks hx ((settleOne_idle hx.1).symm.trans hy)
      obtain ⟨hs, hst⟩ := ih y hcalm
      exact ⟨hs.trans hstore, hst.trans hstays⟩
    · exact ⟨rfl, rfl⟩

end Sys2Proof.Machine


/-!
SUPPORT. O29, the registers of a landing: LND_CFG, LND_FENCE_CMD and LND_RANK_DATA (R147, R295, R471, R480).
-/
namespace Sys2Proof.Machine

/-! ### A write of a landing's register -/

section
variable {s : State} {m : Master} {n : Fin 4} {off v : Nat}

theorem tlp_counts (m : Master) (d : Dev) : ∃ c, tlp m d = { d with cnts := c } := by
  unfold tlp
  split
  · unfold Dev.count
    split
    · exact ⟨_, rfl⟩
    · exact ⟨_, rfl⟩
  · exact ⟨_, rfl⟩

/-- A write that the landing's page takes stores the new word and goes on as the register's rules say. -/
theorem lndRegister (hopen : pageOpen s.dev m (lndPage n.val)) (ho : 0x100 ≤ off) (ho2 : off < 0x1000) (h4 : off % 4 = 0) (hv : v < 2 ^ 32)
    (htaken : fieldsTaken (tlp m s.dev) m (lndPage n.val) off v) :
    regOut m (lndPage n.val * 0x1000 + off) 4 v s = .next (withPkg s (Pkg.lndWritten m n.val off (s.dev.word (lndPage n.val * 0x1000 + off))
      ((tlp m s.dev).newWord ((tlp m s.dev).mayWrite m (lndPage n.val) off) (lndPage n.val) off v) v true (bit v 31) (s.store,
        (tlp m s.dev).setWord (lndPage n.val * 0x1000 + off)
          ((tlp m s.dev).newWord ((tlp m s.dev).mayWrite m (lndPage n.val) off) (lndPage n.val) off v)))) := by
  have hn := n.isLt
  have hp : lndPage n.val = 0x10 + n.val := rfl
  obtain ⟨-, -, -, hon⟩ := id hopen
  have hroute : routeAt (lndPage n.val) off = none := by
    rw [routeAt, if_neg (by omega)]
  refine (regOut_taken hopen ⟨ho, ho2, h4, hroute, by omega, hon⟩ hv htaken).trans ?_
  rw [fieldsStored, Pkg.written]
  dsimp only
  rw [if_neg (by omega), if_pos (by omega), Bool.true_and, if_pos rfl, tlp_word, show lndPage n.val - 0x10 = n.val by omega]

theorem mayWrite_lnd (hown : s.dev.owns m (lndPage n.val) = true) : (tlp m s.dev).mayWrite m (lndPage n.val) off = true := by
  refine mayWrite_owner hown ?_
  have hp : lndPage n.val = 0x10 + n.val := rfl
  have hn := n.isLt
  simp [isFmq]
  omega

/-- A field of the register as it has been written. -/
theorem lndField_written {d : Dev} {f : Fld} (htaken : fieldsTaken d m (lndPage n.val) off v) (hf : f ∈ fieldsAt (lndPage n.val) off)
    (hopen : fieldOpen (d.mayWrite m (lndPage n.val) off) f = true) (hrw : f.acc ≠ .rw1c) (hmode : f ≠ F.RTE_CFG_MODE)
    (haddr : f.addr (lndPage n.val) 0 = lndPage n.val * 0x1000 + off) (hw : f.lo + f.w ≤ 32) (e : Dev) :
    (e.setWord (lndPage n.val * 0x1000 + off) (d.newWord (d.mayWrite m (lndPage n.val) off) (lndPage n.val) off v)).rdp f (lndPage n.val) =
      bits v f.lo f.w := by
  have hp : lndPage n.val = 0x10 + n.val := rfl
  rw [Dev.rdp, rdpi_setWord_of haddr hw]
  exact fieldsTaken_bits htaken hf (by omega) hopen hrw hmode

/-! ### LND_CFG -/

theorem lndCfg_fields (n : Fin 4) : F.LND_CFG_RC_EN ∈ fieldsAt (lndPage n.val) 0x100 ∧ F.LND_CFG_WC_EN ∈ fieldsAt (lndPage n.val) 0x100 := by
  revert n
  decide

/-- What LND_CFG brings about leaves every register. -/
theorem lndCfgWritten_does {d : Dev} (hq : quiet d) (n rc wc : Nat) : (d.lndCfgWritten n rc wc).CalmBlocks ∧ (d.lndCfgWritten n rc wc).regs = d.regs ∧
    (rc = 1 → d.rdp F.LND_CFG_RC_EN (lndPage n) = 0 → ((d.lndCfgWritten n rc wc).lndOf n).rc = []) := by
  obtain ⟨e, he, hqe, hregs, hrc⟩ : ∃ e, e = (if rc = 1 ∧ d.rdp F.LND_CFG_RC_EN (lndPage n) = 0 then d.rcClear n else d) ∧ quiet e ∧ e.regs = d.regs ∧
      (rc = 1 → d.rdp F.LND_CFG_RC_EN (lndPage n) = 0 → (e.lndOf n).rc = []) := by
    refine ⟨_, rfl, ?_, ?_, fun h1 h0 => ?_⟩
    · split
      · exact quiet_rest (d.rest_setLnd n (f := fun l => { l with rc := [], noFill := l.noFill ++ d.fillsOf n }) fun _ => ⟨rfl, rfl⟩) hq
      · exact hq
    · split
      · rfl
      · rfl
    · rw [if_pos ⟨h1, h0⟩]
      show (nth (modAt (fun l : Lnd => { l with rc := [], noFill := l.noFill ++ d.fillsOf n }) d.lnd n) n {}).rc = []
      rw [nth_modAt]
      split
      · rfl
      · next h =>
        have hlen : ¬n < d.lnd.length := fun hlt => h ⟨rfl, hlt⟩
        rw [nth, List.getElem?_eq_none (by omega)]
        rfl
  have hcalm : e.CalmBlocks := ⟨quiet_rest (d := e) (by rw [Dev.rest, Dev.rest, hqe.2.2.2.2.1]) hqe, by rw [hqe.2.2.2.2.1]; simp⟩
  unfold Dev.lndCfgWritten
  dsimp only
  rw [← he]
  split
  · obtain ⟨hclosed, hstays⟩ := hcalm.closeBlocks n (fun _ => true)
    exact ⟨hclosed, (congrArg (fun t => t.1) hstays).trans hregs, fun h1 h0 => (Dev.rc_of_stays hstays n).trans (hrc h1 h0)⟩
  · exact ⟨hcalm, hregs, hrc⟩

theorem lndCfgWrite_takes (hopen : pageOpen s.dev m (lndPage n.val)) (hown : s.dev.owns m (lndPage n.val) = true) (hq : quiet s.dev) {v : W32}
    (htaken : fieldsTaken (tlp m s.dev) m (lndPage n.val) 0x100 v.toNat) :
    ∃ t, exec (.lndCfgWrite m n v) s = .next t ∧ t.store = s.store ∧ t.dev.rdp F.LND_CFG_RC_EN (lndPage n.val) = bits v.toNat 0 1 ∧
      t.dev.rdp F.LND_CFG_WC_EN (lndPage n.val) = bits v.toNat 1 1 ∧
      (s.dev.rdp F.LND_CFG_RC_EN (lndPage n.val) = 1 → bit v.toNat 0 = false → (t.dev.lndOf n.val).rc = []) := by
  have hwrite : exec (.lndCfgWrite m n v) s = regOut m (lndPage n.val * 0x1000 + 0x100) 4 v.toNat s := by
    show regOut m (0x10100 + 0x1000 * n.val) 4 v.toNat s = _
    rw [show 0x10100 + 0x1000 * n.val = lndPage n.val * 0x1000 + 0x100 by rw [lndPage]; omega]
  obtain ⟨hrcField, hwcField⟩ := lndCfg_fields n
  have hmay : (tlp m s.dev).mayWrite m (lndPage n.val) 0x100 = true := mayWrite_lnd hown
  have hrcNew := lndField_written htaken hrcField (by rw [hmay]; rfl) (by decide) (by decide) rfl (by decide) (tlp m s.dev)
  have hwcNew := lndField_written htaken hwcField (by rw [hmay]; rfl) (by decide) (by decide) rfl (by decide) (tlp m s.dev)
  have hreg := lndRegister hopen (by omega) (by omega) (by omega) v.isLt htaken
  have hq' : quiet ((tlp m s.dev).setWord (lndPage n.val * 0x1000 + 0x100)
      ((tlp m s.dev).newWord ((tlp m s.dev).mayWrite m (lndPage n.val) 0x100) (lndPage n.val) 0x100 v.toNat)) :=
    quiet_rest ((Dev.rest_setWord ..).trans (tlp_rest m s.dev)) hq
  generalize (tlp m s.dev).setWord _ _ = d at hrcNew hwcNew hreg hq'
  obtain ⟨hcalm, hregs, hrc⟩ := lndCfgWritten_does hq' n.val (bits (s.dev.word (lndPage n.val * 0x1000 + 0x100)) 0 1)
    (bits (s.dev.word (lndPage n.val * 0x1000 + 0x100)) 1 1)
  have hend : Pkg.lndWritten m n.val 0x100 (s.dev.word (lndPage n.val * 0x1000 + 0x100))
      ((tlp m s.dev).newWord ((tlp m s.dev).mayWrite m (lndPage n.val) 0x100) (lndPage n.val) 0x100 v.toNat) v.toNat true (bit v.toNat 31)
      (s.store, d) = Pkg.settleFor settleFuel (s.store, d.lndCfgWritten n.val (bits (s.dev.word (lndPage n.val * 0x1000 + 0x100)) 0 1)
        (bits (s.dev.word (lndPage n.val * 0x1000 + 0x100)) 1 1)) := by
    rw [Pkg.lndWritten, if_pos rfl]
    rfl
  obtain ⟨hstore, hstays⟩ := settleFor_blocks settleFuel (s.store, d.lndCfgWritten n.val (bits (s.dev.word (lndPage n.val * 0x1000 + 0x100)) 0 1)
    (bits (s.dev.word (lndPage n.val * 0x1000 + 0x100)) 1 1)) hcalm
  rw [hend] at hreg
  generalize Pkg.settleFor settleFuel _ = y at hreg hstore hstays
  have hregs' : y.2.regs = d.regs := (congrArg (fun t => t.1) hstays).trans hregs
  refine ⟨withPkg s y, hwrite.trans hreg, hstore, (Dev.rdpi_congr hregs' ..).trans hrcNew, (Dev.rdpi_congr hregs' ..).trans hwcNew, fun h1 h0 => ?_⟩
  have hzero : bits v.toNat 0 1 = 0 := by
    have hlt := bits_lt v.toNat 0 1
    have hne : bits v.toNat 0 1 ≠ 1 := by simpa [bit_eq_bits] using h0
    omega
  exact (Dev.rc_of_stays hstays n.val).trans (hrc h1 (hrcNew.trans hzero))

end

end Sys2Proof.Machine


/-!
SUPPORT. O29, LND_RANK_DATA, LND_FENCE_CMD, blocks whose time is over, and TIME frames (R142, R147, R295, R472).
-/
namespace Sys2Proof.Machine

/-! ### LND_RANK_DATA -/

section
variable {s : State} {m : Master} {n : Fin 4}

/-- What a write of LND_RANK_DATA does. -/
theorem rankDataSet_does (d : Dev) {n : Nat} (hn : n < d.lnd.length) (v : Nat) :
    let i := d.rdp F.LND_RANK_ADDR_INDEX (lndPage n)
    nget ((d.rankDataSet n v).lndOf n).ranks i = Nat.land v 0x81FF ∧
      (∀ j, j ≠ i → nget ((d.rankDataSet n v).lndOf n).ranks j = nget (d.lndOf n).ranks j) ∧
      (d.rankDataSet n v).rdp F.LND_RANK_ADDR_INDEX (lndPage n) = (i + 1) % 16384 := by
  intro i
  have hlnd : ((d.rankDataSet n v).lndOf n).ranks = nset (d.lndOf n).ranks i (Nat.land v 0x81FF) :=
    congrArg Lnd.ranks (d.lndOf_setLnd_same (fun l => { l with ranks := nset l.ranks i (Nat.land v 0x81FF) }) hn)
  refine ⟨?_, fun j hj => ?_, ?_⟩
  · rw [hlnd, nget_nset_same]
  · rw [hlnd, nget_nset_ne _ _ hj]
  · have hindex := Dev.rdpi_wrpi_same (d.setLnd n (fun l => { l with ranks := nset l.ranks i (Nat.land v 0x81FF) })) F.LND_RANK_ADDR_INDEX (lndPage n) 0
      ((i + 1) % 16384) (by decide)
    refine hindex.trans (Nat.mod_eq_of_lt ?_)
    have hlt := Nat.mod_lt (i + 1) (show 0 < 16384 by decide)
    exact hlt

theorem lndRankDataWrite_sets (hopen : pageOpen s.dev m (lndPage n.val)) (hlen : n.val < s.dev.lnd.length) {v : W32}
    (htaken : fieldsTaken (tlp m s.dev) m (lndPage n.val) 0x20C v.toNat) :
    let i := s.dev.rdp F.LND_RANK_ADDR_INDEX (lndPage n.val)
    ∃ t, exec (.lndRankDataWrite m n v) s = .next t ∧ t.store = s.store ∧
      nget (t.dev.lndOf n.val).ranks i = Nat.land v.toNat 0x81FF ∧
      (∀ j, j ≠ i → nget (t.dev.lndOf n.val).ranks j = nget (s.dev.lndOf n.val).ranks j) ∧
      t.dev.rdp F.LND_RANK_ADDR_INDEX (lndPage n.val) = (i + 1) % 16384 := by
  have hwrite : exec (.lndRankDataWrite m n v) s = regOut m (lndPage n.val * 0x1000 + 0x20C) 4 v.toNat s := by
    show regOut m (0x1020C + 0x1000 * n.val) 4 v.toNat s = _
    rw [show 0x1020C + 0x1000 * n.val = lndPage n.val * 0x1000 + 0x20C by rw [lndPage]; omega]
  have hreg := lndRegister hopen (by omega) (by omega) (by omega) v.isLt htaken
  generalize hw : (tlp m s.dev).newWord ((tlp m s.dev).mayWrite m (lndPage n.val) 0x20C) (lndPage n.val) 0x20C v.toNat = w at hreg
  obtain ⟨c, hc⟩ := tlp_counts m s.dev
  have hindex : ((tlp m s.dev).setWord (lndPage n.val * 0x1000 + 0x20C) w).rdp F.LND_RANK_ADDR_INDEX (lndPage n.val) =
      s.dev.rdp F.LND_RANK_ADDR_INDEX (lndPage n.val) := by
    have haddr : F.LND_RANK_ADDR_INDEX.addr (lndPage n.val) 0 = lndPage n.val * 0x1000 + 0x208 := rfl
    rw [Dev.rdp, Dev.rdpi, Dev.word_setWord_ne _ _ (by omega), tlp_word]
    rfl
  have hlnd : ((tlp m s.dev).setWord (lndPage n.val * 0x1000 + 0x20C) w).lnd = s.dev.lnd := by
    rw [hc]
    rfl
  generalize (tlp m s.dev).setWord (lndPage n.val * 0x1000 + 0x20C) w = d at hreg hindex hlnd
  have hend : Pkg.lndWritten m n.val 0x20C (s.dev.word (lndPage n.val * 0x1000 + 0x20C)) w v.toNat true (bit v.toNat 31) (s.store, d) =
      (s.store, d.rankDataSet n.val v.toNat) := by
    rw [Pkg.lndWritten]
    rfl
  rw [hend] at hreg
  obtain ⟨hsame, hother, hnext⟩ := rankDataSet_does d (n := n.val) (by rw [hlnd]; exact hlen) v.toNat
  rw [hindex] at hsame hother hnext
  refine ⟨_, hwrite.trans hreg, rfl, hsame, fun j hj => (hother j hj).trans ?_, hnext⟩
  rw [Dev.lndOf, Dev.lndOf, hlnd]

/-! ### LND_FENCE_CMD -/

theorem lndFence_fields (n : Fin 4) : fieldsAt (lndPage n.val) 0x180 = [F.LND_FENCE_CMD_CONTEXT, F.LND_FENCE_CMD_GO] := by
  revert n
  decide

theorem lndFence_taken (hown : s.dev.owns m (lndPage n.val) = true) (v : Nat) : fieldsTaken (tlp m s.dev) m (lndPage n.val) 0x180 v := by
  have hn := n.isLt
  have hp : lndPage n.val = 0x10 + n.val := rfl
  have hmay : (tlp m s.dev).mayWrite m (lndPage n.val) 0x180 = true := mayWrite_lnd hown
  refine ⟨⟨fun _ => hmay, ?_, ?_⟩, ?_⟩
  · unfold Dev.writeRefused
    dsimp only
    iterate 12 rw [if_neg (by omega)]
  · have hheld : ∀ f ∈ [F.LND_FENCE_CMD_CONTEXT, F.LND_FENCE_CMD_GO], (tlp m s.dev).partHeld (lndPage n.val) 0x180 f = false := fun f hf => by
      have hpage : f.page = 0x10 := by
        revert f
        decide
      exact Dev.partHeld_of_page _ _ (by omega) (by omega) (by omega)
    rw [Dev.anyHeld, lndFence_fields, List.any_eq_false]
    intro f hf
    simp [hheld f hf]
  · have hres : ∀ f ∈ [F.LND_FENCE_CMD_CONTEXT, F.LND_FENCE_CMD_GO], (tlp m s.dev).reserved (lndPage n.val) 0x180 v f = false := fun f hf => by
      have hother : f ≠ F.RTE_PORT_ROLE_ROLE ∧ f ≠ F.RTE_PORT_ROLE_GROUP ∧ f ≠ F.LND_RANK_WIN_BASE ∧ f ≠ F.LND_RANK_WIN_SIZE ∧
          f ≠ F.SEC_CMD_OP ∧ f ≠ F.FRY_SUB_BASE_HI_BASE_HI ∧ f ≠ F.FRY_CMP_BASE_HI_BASE_HI ∧ f.rsv = .none := by
        revert f
        decide
      obtain ⟨h1, h2, h3, h4, h5, h6, h7, hrsv⟩ := hother
      simp [Dev.reserved, Dev.nearRing, Fld.accepts, h1, h2, h3, h4, h5, h6, h7, hrsv]
    rw [Dev.anyReserved, lndFence_fields, List.any_eq_false]
    intro f hf
    simp [hres f hf]

/-- The context entry is the same where the tables, their keys and the interleave are. -/
theorem ctxEntry_congr (st : Store) {d e : Dev} (hxlt : e.xlt = d.xlt) (hhome : e.home = d.home) (hsec : e.sec = d.sec) (hglb : e.glb = d.glb)
    (hbulk : e.contiguous = d.contiguous) (c : Nat) : Pkg.ctxEntry (st, e) c = Pkg.ctxEntry (st, d) c := by
  have hplain : ∀ l k, Pkg.plain (st, e) l k = Pkg.plain (st, d) l k := fun l k => by
    unfold Pkg.plain Pkg.cipher Pkg.lineBytes Pkg.cover Dev.metaKey Dev.unitOf Dev.tableLine Dev.ext Dev.region Dev.node Dev.placeOf
    simp only [hhome, hsec, hglb, hbulk]
  unfold Pkg.ctxEntry Pkg.ctxTable
  simp only [hxlt, hplain]

theorem ctxEntry_setWord (st : Store) (d : Dev) {a : Nat} (w : Nat) (ha : a / 0x1000 ≠ 0x2A) (c : Nat) :
    Pkg.ctxEntry (st, d.setWord a w) c = Pkg.ctxEntry (st, d) c := by
  have hpage : F.BULK_CFG_INTERLEAVE.addr F.BULK_CFG_INTERLEAVE.page 0 / 0x1000 = 0x2A := by decide
  have hword : (d.setWord a w).word (F.BULK_CFG_INTERLEAVE.addr F.BULK_CFG_INTERLEAVE.page 0) =
      d.word (F.BULK_CFG_INTERLEAVE.addr F.BULK_CFG_INTERLEAVE.page 0) := Dev.word_setWord_ne _ _ (by rintro rfl; exact ha hpage)
  have hbulk : (d.setWord a w).contiguous = d.contiguous := by
    unfold Dev.contiguous
    rw [Dev.rd_of_word _ hword]
  exact ctxEntry_congr (d := d) (e := d.setWord a w) st rfl rfl rfl rfl hbulk c

theorem ctxEntry_tlp (st : Store) (m : Master) (d : Dev) (c : Nat) : Pkg.ctxEntry (st, tlp m d) c = Pkg.ctxEntry (st, d) c := by
  obtain ⟨k, hk⟩ := tlp_counts m d
  rw [hk]
  exact ctxEntry_congr (d := d) (e := { d with cnts := k }) st rfl rfl rfl rfl rfl c

/-- GO of LND_FENCE_CMD without a context of its own or without room. -/
theorem Pkg.lndFenceGo_barred {st : Store} {d : Dev} {n c : Nat} (old : Nat) (hc : d.rdp F.LND_FENCE_CMD_CONTEXT (lndPage n) = c)
    (h : ¬((Pkg.ctxEntry (st, d) c).valid = true ∧ (Pkg.ctxEntry (st, d) c).landing = n ∧ d.regFences n < 4)) :
    Pkg.lndFenceGo n old (st, d) = (st, (d.setWord (lndPage n * 0x1000 + 0x180) old).capture (lndPage n) .config 0 0x13 0x3F
      (c + 256 * b2n (decide (4 ≤ d.regFences n)))) := by
  unfold Pkg.lndFenceGo
  dsimp only
  rw [hc, if_pos]
  · rfl
  · by_contra hno
    refine h ?_
    simpa [and_assoc] using hno

/-- GO of LND_FENCE_CMD in order. -/
theorem Pkg.lndFenceGo_opens {st : Store} {d : Dev} {n c : Nat} (old : Nat) (hc : d.rdp F.LND_FENCE_CMD_CONTEXT (lndPage n) = c)
    (h : (Pkg.ctxEntry (st, d) c).valid = true ∧ (Pkg.ctxEntry (st, d) c).landing = n ∧ d.regFences n < 4) :
    Pkg.lndFenceGo n old (st, d) = (st, (d.newId.2.closeBlocks n (fun _ => true)).domainFence d.src.nextId c (.lndReg n)) := by
  obtain ⟨hvalid, hland, hroom⟩ := h
  unfold Pkg.lndFenceGo
  dsimp only
  rw [hc, hvalid, hland, if_neg (by simpa using hroom)]
  rfl

theorem lndFenceGo_does (hopen : pageOpen s.dev m (lndPage n.val)) (hown : s.dev.owns m (lndPage n.val) = true) (hq : quiet s.dev)
    (hblocks : blocksAtNodes s.dev n.val) (v : W32) : ∃ t, exec (.lndFenceGo m n v) s = .next t ∧ t.store = s.store ∧
      let c := bits v.toNat 0 8
      let e := Pkg.ctxEntry (s.store, s.dev) c
      ((e.valid = true ∧ e.landing = n ∧ s.dev.regFences n.val < 4 → ∃ f, f.next = .lndReg n ∧ f.holdCtx = some c ∧
          t.dev.src.fences = s.dev.src.fences ++ [f]) ∧
        (¬(e.valid = true ∧ e.landing = n ∧ s.dev.regFences n.val < 4) → t.dev.src = s.dev.src ∧
          t.dev.rdp F.BLK_ERR_CNT_ERRORS (lndPage n.val) = satAdd 16 (s.dev.rdp F.BLK_ERR_CNT_ERRORS (lndPage n.val)) 1)) := by
  have hp : lndPage n.val = 0x10 + n.val := rfl
  have hn := n.isLt
  have hwrite : exec (.lndFenceGo m n v) s = regOut m (lndPage n.val * 0x1000 + 0x180) 4 (putBit v.toNat 31 true) s := by
    show regOut m (0x10180 + 0x1000 * n.val) 4 (putBit v.toNat 31 true) s = _
    rw [show 0x10180 + 0x1000 * n.val = lndPage n.val * 0x1000 + 0x180 by rw [lndPage]; omega]
  have htaken := lndFence_taken (s := s) hown (putBit v.toNat 31 true)
  have hreg := lndRegister hopen (by omega) (by omega) (by omega) (putBit_top_lt true v.isLt (by decide)) htaken
  have hcontext := lndField_written htaken (f := F.LND_FENCE_CMD_CONTEXT) (by rw [lndFence_fields]; simp)
    (by rw [mayWrite_lnd hown]; rfl) (by decide) (by decide) rfl (by decide) (tlp m s.dev)
  generalize hw : (tlp m s.dev).newWord ((tlp m s.dev).mayWrite m (lndPage n.val) 0x180) (lndPage n.val) 0x180 (putBit v.toNat 31 true) = w at hreg hcontext
  obtain ⟨k, hk⟩ := tlp_counts m s.dev
  have hc : ((tlp m s.dev).setWord (lndPage n.val * 0x1000 + 0x180) w).rdp F.LND_FENCE_CMD_CONTEXT (lndPage n.val) = bits v.toNat 0 8 :=
    hcontext.trans (bits_putBits_ne _ _ _ _ _ _ (.inl (by decide)))
  have hentry : Pkg.ctxEntry (s.store, (tlp m s.dev).setWord (lndPage n.val * 0x1000 + 0x180) w) (bits v.toNat 0 8) =
      Pkg.ctxEntry (s.store, s.dev) (bits v.toNat 0 8) := by
    rw [ctxEntry_setWord _ _ _ (by omega), ctxEntry_tlp]
  have herrors : ∀ o, (((tlp m s.dev).setWord (lndPage n.val * 0x1000 + 0x180) w).setWord (lndPage n.val * 0x1000 + 0x180) o).rdp
      F.BLK_ERR_CNT_ERRORS (lndPage n.val) = s.dev.rdp F.BLK_ERR_CNT_ERRORS (lndPage n.val) := fun o => by
    have haddr : F.BLK_ERR_CNT_ERRORS.addr (lndPage n.val) 0 = lndPage n.val * 0x1000 + 0x30 := rfl
    rw [Dev.rdp, Dev.rdpi, Dev.word_setWord_ne _ _ (by omega), Dev.word_setWord_ne _ _ (by omega), tlp_word]
    rfl
  have hsrc : ((tlp m s.dev).setWord (lndPage n.val * 0x1000 + 0x180) w).src = s.dev.src := by
    rw [hk]
    rfl
  have hqd : quiet ((tlp m s.dev).setWord (lndPage n.val * 0x1000 + 0x180) w) := quiet_rest ((Dev.rest_setWord ..).trans (tlp_rest m s.dev)) hq
  have hbl : blocksAtNodes ((tlp m s.dev).setWord (lndPage n.val * 0x1000 + 0x180) w) n.val := by
    rw [hk]
    exact hblocks
  generalize (tlp m s.dev).setWord (lndPage n.val * 0x1000 + 0x180) w = d at hreg hc hentry herrors hsrc hqd hbl
  have hend : Pkg.lndWritten m n.val 0x180 (s.dev.word (lndPage n.val * 0x1000 + 0x180)) w (putBit v.toNat 31 true) true
      (bit (putBit v.toNat 31 true) 31) (s.store, d) = Pkg.settle (Pkg.lndFenceGo n.val (s.dev.word (lndPage n.val * 0x1000 + 0x180)) (s.store, d)) := by
    rw [Pkg.lndWritten, if_neg (by decide), if_pos rfl, bit_putBit_same, if_pos rfl]
  have hfences : d.regFences n.val = s.dev.regFences n.val := by rw [Dev.regFences, Dev.regFences, hsrc]
  rw [hend] at hreg
  by_cases hgood : (Pkg.ctxEntry (s.store, s.dev) (bits v.toNat 0 8)).valid = true ∧
      (Pkg.ctxEntry (s.store, s.dev) (bits v.toNat 0 8)).landing = n.val ∧ s.dev.regFences n.val < 4
  · have hleaves := d.leaves_newId.trans (Dev.leaves_closeBlocks (d := d.newId.2) (n := n.val) (fun _ => true) hbl)
    rw [Pkg.lndFenceGo_opens _ hc (by rw [hentry, hfences]; exact hgood)] at hreg
    generalize d.newId.2.closeBlocks n.val (fun _ => true) = e at hreg hleaves
    rw [settle_quiet (quiet_rest (d := e) rfl (hleaves.quiet hqd))] at hreg
    have hf : ∃ f : Fence, f.next = .lndReg n.val ∧ f.holdCtx = some (bits v.toNat 0 8) ∧
        (e.domainFence d.src.nextId (bits v.toNat 0 8) (.lndReg n.val)).src.fences = s.dev.src.fences ++ [f] := by
      rw [← hsrc, ← show e.src.fences = d.src.fences from hleaves.fences]
      exact ⟨_, rfl, rfl, rfl⟩
    exact ⟨_, hwrite.trans hreg, rfl, fun _ => hf, fun hno => absurd hgood hno⟩
  · rw [Pkg.lndFenceGo_barred _ hc (by rw [hentry, hfences]; exact hgood)] at hreg
    have hworks := Dev.works_capture (d.setWord (lndPage n.val * 0x1000 + 0x180) (s.dev.word (lndPage n.val * 0x1000 + 0x180))) (lndPage n.val) .config 0 0x13 0x3F
      (bits v.toNat 0 8 + 256 * b2n (decide (4 ≤ d.regFences n.val)))
    rw [settle_quiet (quiet_rest ((Dev.rest_of_works hworks).trans (Dev.rest_setWord ..)) hqd)] at hreg
    refine ⟨_, hwrite.trans hreg, rfl, fun hyes => absurd hyes hgood, fun _ => ⟨?_, ?_⟩⟩
    · exact (congrArg (fun w => w.2.1) hworks).trans hsrc
    · refine (Dev.errors_capture _ (by omega) ..).trans ?_
      rw [herrors]

end

end Sys2Proof.Machine


/-!
SUPPORT. O29, blocks whose time is over, and TIME frames (R142, R472).
-/
namespace Sys2Proof.Machine

/-! ### WC_BLOCK_TIMEOUT -/

/-- An access is in hand once it is issued, also one of no node of the domain. -/
theorem Dev.issueAcc_mem_any (d : Dev) (a : Acc) : a ∈ (d.issueAcc a).liveAccs := by
  obtain ⟨o, hacc, -, hissue⟩ := d.issueAcc_eq a
  rw [hissue]
  exact ((d.issue_live o).2.2.2 a).2 (.inr hacc.symm)

theorem wcBlockTimeout_writes {n : Fin 4} {b : WcBlock} {s : State} (hrun : s.dev.running = true) (hwc : (s.dev.lndOf n.val).wc = [b])
    (hover : b.openedAt + nsT 50 ≤ s.dev.tim.tide) : ∃ t, exec (.wcBlockTimeout n b.node) s = .next t ∧ t.store = s.store ∧
      (t.dev.lndOf n.val).wc = [] ∧ blockWrite n.val s.dev.src.nextId b ∈ t.dev.liveAccs := by
  have hlen : n.val < s.dev.lnd.length := by
    by_contra hge
    rw [Dev.lndOf, nth, List.getElem?_eq_none (by omega)] at hwc
    cases hwc
  have hcloses : s.dev.wcTimeout n.val b.node = s.dev.closeBlock n.val b := by
    unfold Dev.wcTimeout Dev.closeBlocks
    rw [hwc]
    simp [hover]
  have hexec : exec (.wcBlockTimeout n b.node) s = .next { s with dev := s.dev.closeBlock n.val b } :=
    (onDev_running hrun _).trans (by rw [hcloses])
  refine ⟨_, hexec, rfl, ?_, ?_⟩
  · obtain ⟨c, hc⟩ : ∃ c, (s.dev.setLnd n.val (fun l => { l with wc := l.wc.erase b })).count (lndPage n.val) 3 1 =
        { s.dev.setLnd n.val (fun l => { l with wc := l.wc.erase b }) with cnts := c } := by
      unfold Dev.count
      split
      · exact ⟨_, rfl⟩
      · exact ⟨_, rfl⟩
    have hlnd : (s.dev.closeBlock n.val b).lnd = (s.dev.setLnd n.val (fun l => { l with wc := l.wc.erase b })).lnd := by
      unfold Dev.closeBlock
      dsimp only
      rw [hc]
      generalize s.dev.setLnd n.val (fun l => { l with wc := l.wc.erase b }) = e
      obtain ⟨_, _, _, hsend⟩ := Dev.sends_issueAcc (d := ({ e with cnts := c } : Dev).newId.2) (blockWrite n.val ({ e with cnts := c } : Dev).newId.1 b)
      rw [hsend]
      rfl
    show ((s.dev.closeBlock n.val b).lndOf n.val).wc = []
    rw [Dev.lndOf, hlnd]
    show ((s.dev.setLnd n.val (fun l => { l with wc := l.wc.erase b })).lndOf n.val).wc = []
    rw [Dev.lndOf_setLnd_same _ _ hlen]
    simp [hwc]
  · have hid : ((s.dev.setLnd n.val (fun l => { l with wc := l.wc.erase b })).count (lndPage n.val) 3 1).newId.1 = s.dev.src.nextId := by
      simp [Dev.newId, Dev.setLnd]
    have hmem := Dev.issueAcc_mem_any ((s.dev.setLnd n.val (fun l => { l with wc := l.wc.erase b })).count (lndPage n.val) 3 1).newId.2
      (blockWrite n.val ((s.dev.setLnd n.val (fun l => { l with wc := l.wc.erase b })).count (lndPage n.val) 3 1).newId.1 b)
    rw [hid] at hmem
    show _ ∈ (s.dev.closeBlock n.val b).liveAccs
    unfold Dev.closeBlock
    dsimp only
    rw [hid]
    exact hmem

/-! ### TIME frames -/

/-- What a flit puts on its link. -/
theorem Dev.flitOut_out (d : Dev) (p kind : Nat) (nak : Bool) (start : Nat) (slots : List Byte) :
    ∃ b, (d.flitOut p kind nak start slots).out = d.out ++ [.flit p b] := by
  have hsent : ∀ (b : List Byte) (ls : List Link), (Dev.linkCount (Dev.sendFlit p b { d with links := ls }) p 0 1).out = d.out ++ [.flit p b] :=
    fun b ls => by
      have h := (Dev.lanesOnly_sendFlit p b { d with links := ls }).out
      have hcount : ∀ e : Dev, (e.linkCount p 0 1).out = e.out := fun e => by simp [Dev.linkCount]
      rw [hcount, h]
      rfl
  unfold Dev.flitOut
  dsimp only
  generalize hE : Dev.linkCount _ p 0 1 = e
  have he : ∃ b, e.out = d.out ++ [.flit p b] := hE ▸ ⟨_, hsent _ _⟩
  split
  · obtain ⟨b, hb⟩ := he
    exact ⟨b, (apply_ite Dev.out ..).trans ((ite_self _).trans hb)⟩
  · exact he

/-- At most 15 slots leave in one flit. -/
theorem Dev.sendRun_one (d : Dev) (p cls ch : Nat) {slots : List Byte} (start : Nat → Nat) (hpos : 1 ≤ slots.length / 16) (hmax : slots.length / 16 ≤ 15) :
    ∃ links b, d.sendRun p cls ch slots start = Dev.flitOut p 0 false (start 0) b { d with links := links } := by
  have hone : ceilDiv (slots.length / 16) 15 = 1 := by
    unfold ceilDiv
    omega
  unfold Dev.sendRun
  dsimp only
  rw [hone]
  exact ⟨_, _, rfl⟩

/-- The two slots of a TIME frame leave in one flit. -/
theorem lndSend_time (d : Dev) (n c : Nat) {data : List Byte} (hdata : data.length = 16) :
    ∃ b, (d.lndSend n (lndFrame 0x20 0 0 data) c).out = d.out ++ [.flit (24 + n) b] ∧ (d.lndSend n (lndFrame 0x20 0 0 data) c).lnd = d.lnd := by
  have hlen : (lndFrame 0x20 0 0 data).hdr.len = 2 := by
    rw [lndFrame, hdata]
    rfl
  have hslots : ∀ f : Frame, f.hdr.len = 2 → (f.slots ++ ((none : Option Frame).map Frame.slots).getD []).length = 32 := fun f hf => by
    simp [Frame.slots, hdrBytes, hf, length_sliceBytes, natLE_length]
  unfold Dev.lndSend Dev.sendSlots
  generalize hf : ({ hdr := { (lndFrame 0x20 0 0 data).hdr with channel := c }, pay := (lndFrame 0x20 0 0 data).pay } : Frame) = f
  have hflen : f.hdr.len = 2 := by rw [← hf]; exact hlen
  obtain ⟨links, sl, hrun⟩ := d.sendRun_one (24 + n) (lndFrame 0x20 0 0 data).hdr.cls c (slots := f.slots ++ ((none : Option Frame).map Frame.slots).getD [])
    (fun i => if i = 0 then 0 else if (none : Option Frame).isSome ∧ f.hdr.len / 15 = i then f.hdr.len % 15 else 15)
    (by rw [hslots f hflen]; decide) (by rw [hslots f hflen]; decide)
  rw [hrun]
  obtain ⟨b, hb⟩ := Dev.flitOut_out { d with links := links } (24 + n) 0 false 0 sl
  have hlnd := congrArg (fun e : Dev => e.lnd) (Dev.offWire_flitOut { d with links := links } (24 + n) 0 false 0 sl)
  exact ⟨b, hb, hlnd⟩

theorem timeFrame_sends {s : State} {n : Fin 4} (hrun : s.dev.running = true) (hen : s.dev.rdp F.LND_CFG_TIME_EN (lndPage n.val) = 1)
    (hon : s.dev.pageOn (lndPage n.val) = true) (hdue : (s.dev.lndOf n.val).timeAt < s.dev.ns / 1000) (hearly : s.dev.tim.tide % us 1 < nsT 40)
    (hup : s.dev.linkState (24 + n.val) = 5) (hlen : s.dev.lnd.length = 4) (hroom : (s.dev.link (24 + n.val)).room = true)
    (hwait : (s.dev.link (24 + n.val)).lctlWait = []) (hcredit : 2 ≤ nget (s.dev.link (24 + n.val)).credits 12) :
    ∃ t b, exec (.timeFrameSend n) s = .next t ∧ t.store = s.store ∧
      t.dev.out = s.dev.out ++ [.attach n.val 0x20 0 0 (natLE 8 (s.dev.ns / 1000 * 1000) ++ natLE 8 0), .flit (24 + n.val) b] ∧
      (t.dev.lndOf n.val).timeAt = s.dev.ns / 1000 := by
  have hdata : (natLE 8 (s.dev.ns / 1000 * 1000) ++ natLE 8 0).length = 16 := by simp [natLE_length]
  have hchannel : (s.dev.setLnd n.val (fun l => { l with timeAt := s.dev.ns / 1000 })).lndChannel n.val
      (lndFrame 0x20 0 0 (natLE 8 (s.dev.ns / 1000 * 1000) ++ natLE 8 0)) = some 0 := by
    have hflen : (lndFrame 0x20 0 0 (natLE 8 (s.dev.ns / 1000 * 1000) ++ natLE 8 0)).hdr.len = 2 := by
      rw [lndFrame, hdata]
      rfl
    have hup' : (s.dev.setLnd n.val (fun l => { l with timeAt := s.dev.ns / 1000 })).linkState (24 + n.val) = 5 := hup
    have hroom' : ((s.dev.link (24 + n.val)).txSeq + 4096 - (s.dev.link (24 + n.val)).acked) % 4096 < 1024 := of_decide_eq_true hroom
    have hfits : ((s.dev.link (24 + n.val)).txSeq + 4096 - (s.dev.link (24 + n.val)).acked) % 4096 + ceilDiv 2 15 ≤ 1024 := by
      rw [show ceilDiv 2 15 = 1 from rfl]
      omega
    unfold Dev.lndChannel
    dsimp only
    rw [hflen, if_pos ⟨hup', hfits, hwait⟩]
    exact List.find?_cons_of_pos (decide_eq_true hcredit)
  have hframe : s.dev.timeFrame n.val = (((s.dev.setLnd n.val (fun l => { l with timeAt := s.dev.ns / 1000 })).count (lndPage n.val) 4 1).emit
      (.attach n.val 0x20 0 0 (natLE 8 (s.dev.ns / 1000 * 1000) ++ natLE 8 0))).lndSend n.val
        (lndFrame 0x20 0 0 (natLE 8 (s.dev.ns / 1000 * 1000) ++ natLE 8 0)) 0 := by
    have hdue' : s.dev.timeDue n.val = some (s.dev.ns / 1000) := if_pos hdue
    have htime : s.dev.timeOn n.val = true := by simp [Dev.timeOn, hen, hon, hup]
    unfold Dev.timeFrame
    rw [hdue']
    dsimp only
    rw [if_pos htime, show (s.dev.setLnd n.val (fun l => { l with timeAt := s.dev.ns / 1000 })).tim = s.dev.tim from rfl, if_pos hearly, hchannel]
  obtain ⟨b, hout, hlnd⟩ := lndSend_time (((s.dev.setLnd n.val (fun l => { l with timeAt := s.dev.ns / 1000 })).count (lndPage n.val) 4 1).emit
    (.attach n.val 0x20 0 0 (natLE 8 (s.dev.ns / 1000 * 1000) ++ natLE 8 0))) n.val 0 hdata
  have hexec : exec (.timeFrameSend n) s = .next { s with dev := _ } := (onDev_running hrun _).trans (by rw [hframe])
  refine ⟨_, b, hexec, rfl, ?_, ?_⟩
  · refine hout.trans ?_
    simp [Dev.emit, Dev.setLnd]
  · have htime := congrArg Lnd.timeAt (s.dev.lndOf_setLnd_same (n := n.val) (fun l => { l with timeAt := s.dev.ns / 1000 }) (by rw [hlen]; exact n.isLt))
    refine Eq.trans ?_ htime
    show Lnd.timeAt (nth (Dev.lnd _) n.val {}) = _
    rw [hlnd]
    simp [Dev.emit, Dev.lndOf]

theorem timeFrame_skips {s : State} {n : Fin 4} (hrun : s.dev.running = true) (hdue : (s.dev.lndOf n.val).timeAt < s.dev.ns / 1000)
    (hlate : s.dev.linkState (24 + n.val) = 6 ∨ nsT 40 ≤ s.dev.tim.tide % us 1) :
    ∃ t, exec (.timeFrameSend n) s = .next t ∧ t.store = s.store ∧ t.dev.out = s.dev.out := by
  have hnone : (if (s.dev.setLnd n.val (fun l => { l with timeAt := s.dev.ns / 1000 })).tim.tide % us 1 < nsT 40 then
      (s.dev.setLnd n.val (fun l => { l with timeAt := s.dev.ns / 1000 })).lndChannel n.val
        (lndFrame 0x20 0 0 (natLE 8 (s.dev.ns / 1000 * 1000) ++ natLE 8 0)) else none) = none := by
    rcases hlate with hdown | hlate
    · have hdown' : (s.dev.setLnd n.val (fun l => { l with timeAt := s.dev.ns / 1000 })).linkState (24 + n.val) = 6 := hdown
      have hchannel : (s.dev.setLnd n.val (fun l => { l with timeAt := s.dev.ns / 1000 })).lndChannel n.val
          (lndFrame 0x20 0 0 (natLE 8 (s.dev.ns / 1000 * 1000) ++ natLE 8 0)) = none := by
        unfold Dev.lndChannel
        dsimp only
        rw [hdown', if_neg (by omega)]
      rw [hchannel, ite_self]
    · exact if_neg (by rw [show (s.dev.setLnd n.val (fun l => { l with timeAt := s.dev.ns / 1000 })).tim = s.dev.tim from rfl]; omega)
  have hout : (s.dev.timeFrame n.val).out = s.dev.out := by
    have hdue' : s.dev.timeDue n.val = some (s.dev.ns / 1000) := if_pos hdue
    unfold Dev.timeFrame
    rw [hdue']
    dsimp only
    rw [hnone]
    split
    · simp [Dev.setLnd]
    · rfl
  have hexec : exec (.timeFrameSend n) s = .next { s with dev := s.dev.timeFrame n.val } := onDev_running hrun _
  exact ⟨_, hexec, rfl, hout⟩

end Sys2Proof.Machine

namespace Sys2Proof
open Sys2Proof.Machine

theorem fencesAndCaches : Said.FencesAndCaches := by
  refine ⟨fun q s hready hserved => ⟨localFence_opens hready hserved, domainFence_opens hready hserved, rcInv_empties hready hserved,
    wcFlush_answers hready hserved⟩, fun f n tag s hrun hdom hq hfence hclear hheld =>
      ⟨fenceComplete_answers hrun hdom hq hfence hclear hheld, fenceComplete_counts hrun hdom hq hfence hclear hheld⟩, ?_, ?_⟩
  · exact fun m n v s hopen hown _ hq hblocks => lndFenceGo_does hopen hown hq hblocks v
  · exact fun n b s hrun hwc hover => wcBlockTimeout_writes hrun hwc hover

theorem landingRegisters : Said.LandingRegisters := by
  refine ⟨fun m n v s hopen hown hq htaken => lndCfgWrite_takes hopen hown hq htaken,
    fun m n v s hopen _ hlen htaken => lndRankDataWrite_sets hopen hlen htaken, fun n s hrun hen hon hdue => ⟨?_, ?_⟩⟩
  · exact fun hearly hup _ hlen hroom hwait hcredit => timeFrame_sends hrun hen hon hdue hearly hup hlen hroom hwait hcredit
  · exact fun _ hlate => timeFrame_skips hrun hdue hlate

/-- Settles O29: each request has its turn at once, and each register write does what its rule says. -/
theorem landingControl : Obligations.LandingControl := ⟨fencesAndCaches, landingRegisters⟩

end Sys2Proof


/-!
SUPPORT. O40, loss of a member, the stand-in and the restoration: the recovery commands of the protection engine (R219, R220, R224, R225).
-/
namespace Sys2Proof.Machine

section
variable {d : Dev} {s : State} {src p : Nat} {a : NodeGen} {name : String} {rule : Dev → Nat × Dev}

/-! ### A recovery command at the generation in force (R499) -/

/-- A message of the fabric manager is acted on, and its result goes back. -/
theorem fromFm_recovery (hrun : s.dev.running = true) (hfm : s.dev.fmAllowed src = true) {r : Nat} {e : Dev} {g : Nat}
    (h : s.dev.recovery g rule = (r, e)) :
    onDev (Dev.ifRuns (fun d => d.fromFm src (Dev.recoveryMsg src name g rule))) s = .next { s with dev := e.ctrl src (.result name r) } := by
  rw [onDev_running hrun, Dev.fromFm, if_pos hfm, Dev.recoveryMsg, h]

/-! ### PROT_MEMBER_LOST (R219) -/

theorem Dev.positionOf_lt {n : Nat} (h : d.positionOf n = some p) : p < 9 := by
  unfold Dev.positionOf at h
  split at h
  · exact List.mem_range.1 (List.mem_of_find?_eq_some h)
  · exact nomatch h

/-- Marking extents DEGRADED changes no register but the header's and the error record. -/
theorem Dev.rd_degrade (d : Dev) (ks : List Nat) (code detail : Nat) (first : Nat → Nat) (f : Fld)
    (h : f.addr f.page 0 / 0x1000 ≠ 0xC0 ∧ 0x40 ≤ f.addr f.page 0 % 0x1000) :
    (d.degrade ks code detail first).rd f = d.rd f ∧ (d.degrade ks code detail first).glb = d.glb := by
  unfold Dev.degrade
  dsimp only
  generalize ks.filter (fun k => !(d.prot k).degraded) = new
  split
  · exact ⟨rfl, rfl⟩
  · next new k l =>
    have hfold : ∀ (l : List Nat) (e : Dev), (l.foldl (fun (d : Dev) k => d.setProt k { d.prot k with degraded := true }) e).regs = e.regs ∧
        (l.foldl (fun (d : Dev) k => d.setProt k { d.prot k with degraded := true }) e).glb = e.glb := by
      intro l
      induction l with
      | nil => exact fun e => ⟨rfl, rfl⟩
      | cons k l ih => exact fun e => ih _
    obtain ⟨hregs, hglb⟩ := hfold (k :: l) d
    generalize List.foldl _ d (k :: l) = e at hregs hglb
    refine ⟨(Dev.rd_capture _ _ _ _ _ _ _ f h).trans ((Dev.rd_event _ _ _ f ?_).trans (Dev.rd_congr hregs f)), ?_⟩
    · omega
    · simpa using hglb

/-- The loss of a member sets its bit (R219). -/
theorem Dev.peerLost_bit {n : Nat} (hp : d.positionOf n = some p) :
    bit ((d.peerLost n).rd F.PROT_GROUP_LOST) p = true ∧ (d.peerLost n).glb = d.glb := by
  have hlt := Dev.positionOf_lt hp
  have hset : bit ((d.wr F.PROT_GROUP_LOST (putBit (d.rd F.PROT_GROUP_LOST) p true)).rd F.PROT_GROUP_LOST) p = true := by
    rw [Dev.rd_wr_same _ _ _ (by decide), show F.PROT_GROUP_LOST.w = 9 from rfl, bit_eq_testBit, Nat.testBit_mod_two_pow,
      ← bit_eq_testBit, bit_putBit_same]
    simpa using hlt
  have hglb : (d.wr F.PROT_GROUP_LOST (putBit (d.rd F.PROT_GROUP_LOST) p true)).glb = d.glb := rfl
  unfold Dev.peerLost
  rw [hp]
  dsimp only
  by_cases hpart : ((d.wr F.PROT_GROUP_LOST (putBit (d.rd F.PROT_GROUP_LOST) p true)).rd F.PROT_CFG_PARTNER_EN == 1 &&
      (d.wr F.PROT_GROUP_LOST (putBit (d.rd F.PROT_GROUP_LOST) p true)).partner == n) = true
  all_goals
    simp only [hpart, if_true, if_false, Bool.false_eq_true]
    refine ⟨?_, (Dev.rd_degrade _ _ _ _ _ F.PROT_GROUP_LOST (by decide)).2.trans hglb⟩
    rw [(Dev.rd_degrade _ _ _ _ _ F.PROT_GROUP_LOST (by decide)).1]
    exact hset

theorem memberLost_marks (hrun : s.dev.running = true) (hfm : s.dev.fmAllowed src = true) (hgen : a.gen = s.dev.rd F.RCV_GEN_GEN)
    (hp : s.dev.positionOf a.node = some p) (hbit : bit (s.dev.rd F.PROT_GROUP_LOST) p = false) :
    ∃ t, exec (.protMemberLost src a) s = .next t ∧ t.store = s.store ∧ bit (t.dev.rd F.PROT_GROUP_LOST) p = true ∧
      (s.dev.hasNode src = true → t.dev.out.getLast? = some (.ctrl src (.result "PROT_MEMBER_LOST" rDone))) := by
  obtain ⟨hset, hglb⟩ := Dev.peerLost_bit hp
  have hrule : s.dev.recovery a.gen (Dev.memberLost a) = (rDone, s.dev.peerLost a.node) := by
    rw [Dev.recovery_same hgen, Dev.memberLost, hp]
    simp only [hbit, Bool.false_and, Bool.false_eq_true, if_false]
  refine ⟨_, fromFm_recovery hrun hfm hrule, rfl, by rw [Dev.rd_ctrl]; exact hset, fun hn => ?_⟩
  exact result_out ((Dev.hasNode_congr hglb src).trans hn)

/-! ### PROT_STANDIN (R220) -/

theorem Dev.showAlias_last {n : Nat} {stand : Bool} (h : d.home.aliases.getLast? = some (n, stand)) :
    d.showAlias = (d.wr F.PROT_CFG_ALIAS_NODE n).wr F.PROT_CFG_ALIAS_EN 1 := by
  rw [Dev.showAlias, h]

/-- The ALIAS registers show the last served node (R221). -/
theorem Dev.addAlias_shows {n : Nat} {stand : Bool} (hn : n < 128) :
    (d.addAlias n stand).home.aliases = d.home.aliases ++ [(n, stand)] ∧ (d.addAlias n stand).rd F.PROT_CFG_ALIAS_EN = 1 ∧
      (d.addAlias n stand).rd F.PROT_CFG_ALIAS_NODE = n ∧ (d.addAlias n stand).out = d.out ∧ (d.addAlias n stand).glb = d.glb := by
  have hshow : d.addAlias n stand = _ := Dev.showAlias_last (d := { d with home := { d.home with aliases := d.home.aliases ++ [(n, stand)] } })
    (n := n) (stand := stand) (by rw [List.getLast?_append]; rfl)
  rw [hshow]
  refine ⟨by simp only [Dev.wr_frame], ?_, ?_, by simp only [Dev.wr_frame], by simp only [Dev.wr_frame]⟩
  · exact (Dev.rd_wr_same _ _ _ (by decide)).trans rfl
  · exact ((Dev.rd_wr_ne _ _ _ _ (by decide)).trans (Dev.rd_wr_same _ _ _ (by decide))).trans (Nat.mod_eq_of_lt hn)

theorem standin_serves (hrun : s.dev.running = true) (hfm : s.dev.fmAllowed src = true) (hgen : a.gen = s.dev.rd F.RCV_GEN_GEN)
    (hnode : a.node < 128) {sh : Shadow} (hnew : s.dev.home.aliases.any (fun e => e.1 == a.node) = false) (hstage : s.dev.stage ≠ 3)
    (hshadow : s.dev.home.shadows.find? (fun h => h.ward == a.node) = some sh) :
    ∃ t, exec (.protStandin src a) s = .next t ∧ t.store = s.store ∧ t.dev.home.aliases = s.dev.home.aliases ++ [(a.node, true)] ∧
      t.dev.rd F.PROT_CFG_ALIAS_EN = 1 ∧ t.dev.rd F.PROT_CFG_ALIAS_NODE = a.node ∧
      (s.dev.hasNode src = true → t.dev.out = s.dev.out ++ [.ctrl src (.result "PROT_STANDIN" rDone)]) := by
  have hfold : ∀ (l : List (Nat × OrdEnt)) (e : Dev),
      (l.foldl (fun (d : Dev) q => d.setOrd (8192 * (1 + a.node) + q.1) q.2) e).home.aliases = e.home.aliases ∧
      (l.foldl (fun (d : Dev) q => d.setOrd (8192 * (1 + a.node) + q.1) q.2) e).out = e.out ∧
      (l.foldl (fun (d : Dev) q => d.setOrd (8192 * (1 + a.node) + q.1) q.2) e).glb = e.glb := by
    intro l
    induction l with
    | nil => exact fun e => ⟨rfl, rfl, rfl⟩
    | cons q l ih => exact fun e => ih _
  obtain ⟨haliases, hout, hglb⟩ := hfold sh.ord s.dev
  have hrule : s.dev.recovery a.gen (Dev.standin a) =
      (rDone, (sh.ord.foldl (fun (d : Dev) q => d.setOrd (8192 * (1 + a.node) + q.1) q.2) s.dev).addAlias a.node true) := by
    rw [Dev.recovery_same hgen, Dev.standin, if_neg (by simp [hnew]), if_neg hstage, hshadow]
  generalize List.foldl (fun (d : Dev) q => d.setOrd (8192 * (1 + a.node) + q.1) q.2) s.dev sh.ord = e at haliases hout hglb hrule
  obtain ⟨h1, h2, h3, h4, h5⟩ := Dev.addAlias_shows (d := e) (stand := true) hnode
  refine ⟨_, fromFm_recovery hrun hfm hrule, rfl, ?_, by rw [Dev.rd_ctrl]; exact h2, by rw [Dev.rd_ctrl]; exact h3, fun hn => ?_⟩
  · simp only [Dev.ctrl_frame, h1, haliases]
  · have hhas : (e.addAlias a.node true).hasNode src = true := (Dev.hasNode_congr (h5.trans hglb) src).trans hn
    rw [Dev.ctrl_out hhas, h4, hout]

/-! ### PROT_MEMBER_RESTORE (R224) -/

theorem memberRestore_resumes (hrun : s.dev.running = true) (hgen : a.gen = s.dev.rd F.RCV_GEN_GEN) (hp : s.dev.positionOf a.node = some p)
    (hnew : s.dev.home.resumed.contains p = false) :
    ∃ t, exec (.protMemberRestore src a) s = .next t ∧ t.store = s.store ∧
      t.dev.home = { s.dev.home with resumed := s.dev.home.resumed ++ [p] } ∧
      (s.dev.hasNode src = true → t.dev.out = s.dev.out ++ [.ctrl src (.result "PROT_MEMBER_RESTORE" rDone)]) := by
  have hrule : s.dev.recovery a.gen (Dev.memberRestore a) =
      (rDone, { s.dev with home := { s.dev.home with resumed := s.dev.home.resumed ++ [p] } }) := by
    rw [Dev.recovery_same hgen, Dev.memberRestore, hp]
    simp only [hnew, Bool.false_eq_true, if_false]
  refine ⟨_, onDev_running hrun _, rfl, ?_, fun hn => ?_⟩
  · rw [Dev.recoveryMsg, hrule]
    simp
  · rw [Dev.recoveryMsg, hrule]
    exact Dev.ctrl_out (d := { s.dev with home := { s.dev.home with resumed := s.dev.home.resumed ++ [p] } }) hn _

/-- A recovery command of a lower generation (R499). -/
theorem memberRestore_lower (hrun : s.dev.running = true) (hgen : a.gen < s.dev.rd F.RCV_GEN_GEN) :
    exec (.protMemberRestore src a) s = .next { s with dev := s.dev.ctrl src (.result "PROT_MEMBER_RESTORE" rBadState) } := by
  refine (onDev_running hrun _).trans ?_
  rw [Dev.recoveryMsg, Dev.recovery_lower hgen]

/-! ### ALIAS_CLEAR (R225) -/

theorem aliasClear_none {node : Nat} (hrun : s.dev.running = true) (hfm : s.dev.fmAllowed src = true)
    (h : s.dev.home.aliases.any (fun e => e.1 == node) = false) :
    exec (.aliasClear src node) s = .next { s with dev := s.dev.ctrl src (.result "ALIAS_CLEAR" rNoChange) } := by
  refine (onDev_running hrun _).trans ?_
  rw [Dev.aliasClear, if_neg (by simp [hfm]), if_pos (by simp [h])]

theorem Dev.dropAlias_frame (n : Nat) : (d.dropAlias n).home.aliases = d.home.aliases.filter (fun e => e.1 != n) ∧
    (d.dropAlias n).home.rebuild = d.home.rebuild ∧ (d.dropAlias n).out = d.out ∧ (d.dropAlias n).glb = d.glb := by
  unfold Dev.dropAlias Dev.showAlias
  dsimp only
  split <;> simp only [Dev.wr_frame, and_self]

theorem aliasClear_drops {node : Nat} (hrun : s.dev.running = true) (hfm : s.dev.fmAllowed src = true)
    (h : s.dev.home.aliases.any (fun e => e.1 == node) = true) (hnone : s.dev.home.rebuild = none) :
    ∃ t, exec (.aliasClear src node) s = .next t ∧ t.store = s.store ∧ t.dev.home.aliases = s.dev.home.aliases.filter (fun e => e.1 != node) ∧
      (s.dev.hasNode src = true → t.dev.out = s.dev.out ++ [.ctrl src (.result "ALIAS_CLEAR" rDone)]) := by
  obtain ⟨haliases, hrebuild, hout, hglb⟩ := Dev.dropAlias_frame (d := s.dev) node
  have hclear : s.dev.aliasClear src node = (s.dev.dropAlias node).ctrl src (.result "ALIAS_CLEAR" rDone) := by
    rw [Dev.aliasClear, if_neg (by simp [hfm]), if_neg (by simp [h])]
    dsimp only
    rw [hrebuild, hnone]
  refine ⟨_, onDev_running hrun _, rfl, ?_, fun hn => ?_⟩
  · simp only [hclear, Dev.ctrl_frame, haliases]
  · rw [hclear, Dev.ctrl_out ((Dev.hasNode_congr hglb src).trans hn), hout]

end

end Sys2Proof.Machine


/-!
SUPPORT. O40, the takeover by a spare: its phases, and the wards that take the spare for their partner (R223–R226).
-/
namespace Sys2Proof.Machine

/-! ### What a request that is issued leaves -/

section
variable (d : Dev)

theorem Dev.out_emit (e : Emit) : d.out <+: (d.emit e).out := ⟨[e], rfl⟩

theorem Dev.out_event (p i : Nat) : d.out <+: (d.event p i).out := by
  unfold Dev.event Dev.ifPending Dev.msix
  split
  · split
    · simp
    · simp
  · simp

theorem Dev.out_sendOut (o : OutReq) : d.out <+: (d.sendOut o).out := by
  obtain ⟨m, hm⟩ := Dev.sendOut_out o d
  exact ⟨_, hm.symm⟩

theorem Dev.out_pumpSrc : d.out <+: d.pumpSrc.out := by
  have hfold : ∀ (l : List OutReq) (a : Dev × List OutReq), d.out <+: a.1.out → d.out <+: (l.foldl
      (fun (a : Dev × List OutReq) o => if a.1.mayIssue a.2 o then (a.1.sendOut o, a.2) else (a.1, a.2 ++ [o])) a).1.out := by
    intro l
    induction l with
    | nil => exact fun _ ha => ha
    | cons o l ih =>
      intro a ha
      refine ih _ ?_
      dsimp only
      split
      · exact ha.trans (Dev.out_sendOut _ _)
      · exact ha
  exact hfold _ _ (List.prefix_refl _)

theorem Dev.out_issue (o : OutReq) : d.out <+: (d.issue o).out := by
  unfold Dev.issue
  split
  · exact Dev.out_pumpSrc { d with src := { d.src with held := d.src.held ++ [o] } }
  · exact List.prefix_refl _

/-- A request as it was issued, or as it was sent under its tag. -/
def OutReq.Sent (o q : OutReq) : Prop :=
  q.acc = o.acc ∧ q.dest = o.dest ∧ (q.msg = o.msg ∨ ∃ tag man after epoch, q.msg = fillMsg tag man after epoch o.msg)

/-- What waits at a source is sent, or waits on. -/
theorem Dev.pumpSrc_mem {o : OutReq} (h : o ∈ d.src.held) : ∃ q ∈ d.pumpSrc.src.reqs ++ d.pumpSrc.src.held, o.Sent q := by
  have hfold : ∀ (l : List OutReq) (a : Dev × List OutReq), (o ∈ l ∨ ∃ q ∈ a.1.src.reqs ++ a.2, o.Sent q) →
      let r := l.foldl (fun (a : Dev × List OutReq) o => if a.1.mayIssue a.2 o then (a.1.sendOut o, a.2) else (a.1, a.2 ++ [o])) a
      ∃ q ∈ r.1.src.reqs ++ r.2, o.Sent q := by
    intro l
    induction l with
    | nil => exact fun _ h => h.resolve_left (by simp)
    | cons p l ih =>
      intro a h
      refine ih _ ?_
      dsimp only
      rcases h with hmem | ⟨q, hq, hsent⟩
      · rcases List.mem_cons.1 hmem with rfl | hmem
        · right
          split
          · refine ⟨a.1.sentAs o (if o.acc.kind.isWrite then some (nget a.1.src.mani (pairKey o.acc.eng o.dest)) else none),
              List.mem_append_left _ ?_, ?_⟩
            · rw [Dev.sendOut_reqs]
              exact List.mem_append_right _ List.mem_cons_self
            · exact ⟨rfl, rfl, .inr ⟨_, _, _, _, rfl⟩⟩
          · exact ⟨_, List.mem_append_right _ (List.mem_append_right _ List.mem_cons_self), rfl, rfl, .inl rfl⟩
        · exact .inl hmem
      · right
        refine ⟨q, ?_, hsent⟩
        split
        · rw [Dev.sendOut_reqs]
          simp only [List.mem_append] at hq ⊢
          tauto
        · simp only [List.mem_append] at hq ⊢
          tauto
  exact hfold _ _ (.inl h)

/-- A request to a node of the domain is sent, or waits to be. -/
theorem Dev.issue_mem {o : OutReq} (h : d.hasNode o.dest = true) : ∃ q ∈ (d.issue o).src.reqs ++ (d.issue o).src.held, o.Sent q := by
  unfold Dev.issue
  rw [if_pos h]
  exact Dev.pumpSrc_mem _ (List.mem_append_right _ List.mem_cons_self)

/-! ### Rebuild copies -/

theorem Dev.sends_sendRebuild (dest node gen : Nat) (i : RebuildItem) (p : Purpose) : d.Sends (d.sendRebuild dest node gen i p) :=
  d.sends_newId.trans (Dev.sends_issue _ _)

theorem Dev.out_sendRebuild (dest node gen : Nat) (i : RebuildItem) (p : Purpose) : d.out <+: (d.sendRebuild dest node gen i p).out :=
  Dev.out_issue d.newId.2 _

/-- A copy for a node of the domain is in hand. -/
theorem Dev.sendRebuild_mem {dest : Nat} (h : d.hasNode dest = true) (node gen : Nat) (i : RebuildItem) (p : Purpose) :
    ∃ o ∈ (d.sendRebuild dest node gen i p).src.reqs ++ (d.sendRebuild dest node gen i p).src.held, o.acc.eng = 5 ∧ o.dest = dest ∧
      ∃ m, o.msg = .rebuild dest m ∧ m.node = node ∧ m.gen = gen ∧ m.item = i := by
  obtain ⟨o, ho, heng, hdst, m, hm, hfields⟩ : ∃ o : OutReq, d.sendRebuild dest node gen i p = Dev.issue o d.newId.2 ∧ o.acc.eng = 5 ∧ o.dest = dest ∧
      ∃ m, o.msg = .rebuild dest m ∧ m.node = node ∧ m.gen = gen ∧ m.item = i := ⟨_, rfl, rfl, rfl, _, rfl, rfl, rfl, rfl⟩
  obtain ⟨q, hq, hacc, hdest, hmsg⟩ := Dev.issue_mem d.newId.2 (o := o) (hdst ▸ h)
  rw [← ho] at hq
  refine ⟨q, hq, (congrArg Acc.eng hacc).trans heng, hdest.trans hdst, ?_⟩
  rcases hmsg with hmsg | ⟨_, _, _, _, hmsg⟩
  · exact ⟨m, hmsg.trans hm, hfields⟩
  · exact ⟨_, hmsg.trans (congrArg _ hm), hfields⟩

end

/-! ### The phases of a takeover (R223, R230) -/

section
variable {d : Dev} {s : State} {src : Nat} {a : NodeGen} {r : Rebuild}

theorem Dev.setPhase_does (hp : p < 8) : (d.setPhase p).rd F.PROT_REBUILD_STAT_PHASE = p ∧ (d.setPhase p).home = d.home ∧
    (d.setPhase p).glb = d.glb ∧ d.out <+: (d.setPhase p).out := by
  refine ⟨?_, by simp [Dev.setPhase], by simp [Dev.setPhase], (d.wr F.PROT_REBUILD_STAT_PHASE p).out_event 0x2B 1⟩
  exact (Dev.rd_event _ _ _ _ (by decide)).trans ((Dev.rd_wr_same _ _ _ (by decide)).trans (Nat.mod_eq_of_lt hp))

theorem Dev.setProgress_frame : d.setProgress.home = d.home ∧ d.setProgress.glb = d.glb ∧ d.setProgress.out = d.out ∧
    d.setProgress.rd F.PROT_REBUILD_STAT_PHASE = d.rd F.PROT_REBUILD_STAT_PHASE := by
  have hwr : ∀ v, (d.wr F.PROT_REBUILD_STAT_PROGRESS v).home = d.home ∧ (d.wr F.PROT_REBUILD_STAT_PROGRESS v).glb = d.glb ∧
      (d.wr F.PROT_REBUILD_STAT_PROGRESS v).out = d.out ∧
      (d.wr F.PROT_REBUILD_STAT_PROGRESS v).rd F.PROT_REBUILD_STAT_PHASE = d.rd F.PROT_REBUILD_STAT_PHASE :=
    fun v => ⟨by simp, by simp, by simp, Dev.rd_wr_ne _ _ _ _ (by decide)⟩
  unfold Dev.setProgress
  split
  · dsimp only
    split <;> exact hwr _
  · exact ⟨rfl, rfl, rfl, rfl⟩

/-- A takeover in phase `r.phase`, with these extents to rebuild and this many items to send. -/
def Rebuild.started (r : Rebuild) (todo : List Nat) (items : Nat) : Rebuild :=
  { r with todo := todo, next := 0, total := (todo.map extSize).sum / 64, items := items, acked := 0 }

theorem Dev.startPhase_does (hp : r.phase < 8) (todo : List Nat) (items : Nat) :
    (d.startPhase r todo items).rd F.PROT_REBUILD_STAT_PHASE = r.phase ∧ (d.startPhase r todo items).home.rebuild = some (r.started todo items) ∧
      (d.startPhase r todo items).glb = d.glb ∧ d.out <+: (d.startPhase r todo items).out := by
  obtain ⟨h1, h2, h3, h4⟩ := Dev.setPhase_does (d := { d with home := { d.home with rebuild := some (r.started todo items) } }) hp
  obtain ⟨k1, k2, k3, k4⟩ := Dev.setProgress_frame (d := Dev.setPhase r.phase { d with home := { d.home with rebuild := some (r.started todo items) } })
  have hstart : d.startPhase r todo items =
      (Dev.setPhase r.phase { d with home := { d.home with rebuild := some (r.started todo items) } }).setProgress := rfl
  rw [hstart]
  exact ⟨k4.trans h1, (congrArg Home.rebuild (k1.trans h2)).trans rfl, k2.trans h3, by rw [k3]; exact h4⟩

/-- Phase 1 sends what the stand-in holds, and its end after it. -/
theorem Pkg.beginPhase_one {x : Pkg} (hp : r.phase = 1) (hn : x.2.hasNode r.spare = true) :
    (x.beginPhase r).1 = x.1 ∧ (x.beginPhase r).2.rd F.PROT_REBUILD_STAT_PHASE = 1 ∧
      (∃ q, (x.beginPhase r).2.home.rebuild = some q ∧ q.lost = r.lost ∧ q.spare = r.spare ∧ q.phase = 1 ∧ q.fm = r.fm) ∧
      (∃ o ∈ (x.beginPhase r).2.src.reqs ++ (x.beginPhase r).2.src.held, o.acc.eng = 5 ∧ o.dest = r.spare ∧
        ∃ m, o.msg = .rebuild r.spare m ∧ m.node = r.lost ∧ m.gen = r.gen ∧ m.item = .phaseEnd 1) ∧ x.2.out <+: (x.beginPhase r).2.out := by
  obtain ⟨hrd, hre, hglb, hout⟩ := Dev.startPhase_does (d := x.2) (r := r) (by omega) [] (x.phaseItems r).length
  unfold Pkg.beginPhase
  rw [hp] at hrd ⊢
  simp only [Pkg.dev]
  generalize Dev.startPhase r [] (x.phaseItems r).length x.2 = d at hrd hre hglb hout
  have hsends : d.Sends ((x.phaseItems r).foldl (fun (d : Dev) i => d.sendRebuild r.spare r.lost r.gen i .copy) d) :=
    Dev.Sends.foldl (fun d _ => d.sends_sendRebuild ..) _ _
  have houts : d.out <+: ((x.phaseItems r).foldl (fun (d : Dev) i => d.sendRebuild r.spare r.lost r.gen i .copy) d).out :=
    List.foldlRecOn (motive := fun e : Dev => d.out <+: e.out) _ _ (List.prefix_refl _) fun e he i _ => he.trans (e.out_sendRebuild ..)
  generalize List.foldl _ d (x.phaseItems r) = e at hsends houts
  have hlast := hsends.trans (e.sends_sendRebuild r.spare r.lost r.gen (.phaseEnd 1) .copy)
  have hlastout := e.out_sendRebuild r.spare r.lost r.gen (.phaseEnd 1) .copy
  have hmem := e.sendRebuild_mem (dest := r.spare) (by
    obtain ⟨_, _, _, rfl⟩ := hsends
    exact (Dev.hasNode_congr hglb _).trans hn) r.lost r.gen (.phaseEnd 1) .copy
  generalize e.sendRebuild r.spare r.lost r.gen (.phaseEnd 1) .copy = f at hlast hlastout hmem
  refine ⟨?_, ?_, ⟨r.started [] (x.phaseItems r).length, ?_, rfl, rfl, hp, rfl⟩, hmem, (hout.trans houts).trans hlastout⟩
  · trivial
  · obtain ⟨_, _, _, rfl⟩ := hlast
    exact hrd
  · obtain ⟨_, _, _, rfl⟩ := hlast
    exact hre

/-! ### REBUILD_START (R223) -/

theorem rebuildStart_refused (hrun : s.dev.running = true) (hdom : s.dev.domOn 11 = true) (hfm : s.dev.fmAllowed src = true)
    (hgen : a.gen = s.dev.rd F.RCV_GEN_GEN) (hnone : s.dev.home.rebuild = none) (spare st lt : Nat) :
    exec (.rebuildStart src a spare false st lt) s = .next { s with dev := s.dev.ctrl src (.result "REBUILD_START" rBadState) } := by
  refine onPkg_leaves (x := (s.store, s.dev.ctrl src (.result "REBUILD_START" rBadState))) hrun hdom ?_
  simp only [hfm, if_true, Pkg.rebuildStart, hgen, Nat.lt_irrefl, if_false, hnone]
  simp [Pkg.dev]

theorem rebuildStart_begins (hrun : s.dev.running = true) (hdom : s.dev.domOn 11 = true) (hfm : s.dev.fmAllowed src = true)
    (hgen : a.gen = s.dev.rd F.RCV_GEN_GEN) (hnone : s.dev.home.rebuild = none) (hstands : s.dev.stands a.node = true)
    (hgroup : s.dev.rd F.PROT_GROUP_GROUP_EN = 0) (hmodes : ∀ e ∈ (s.dev.shadow a.node).prot, e.2.mode ≠ 1 ∧ e.2.mode ≠ 2) {spare : Nat}
    (htray : s.dev.trayOf spare ≠ s.dev.trayOf s.dev.node) (hspare : s.dev.hasNode spare = true) (st : Nat) :
    ∃ t r, exec (.rebuildStart src a spare true st st) s = .next t ∧ t.store = s.store ∧
        t.dev.rd F.PROT_REBUILD_STAT_PHASE = 1 ∧ t.dev.home.rebuild = some r ∧ r.lost = a.node ∧ r.spare = spare ∧ r.phase = 1 ∧ r.fm = src ∧
        (∃ o ∈ t.dev.src.reqs ++ t.dev.src.held, o.acc.eng = 5 ∧ o.dest = spare ∧ ∃ m, o.msg = .rebuild spare m ∧ m.node = a.node ∧
          m.gen = a.gen ∧ m.item = .phaseEnd 1) ∧
        (s.dev.hasNode src = true → .ctrl src (.result "REBUILD_START" rDone) ∈ t.dev.out) := by
  have hpos : s.dev.positionOf a.node = none := by
    rw [Dev.positionOf, if_neg (by omega)]
  have hshadow : (s.dev.shadow a.node).prot.any (fun e => e.2.mode == 1 || e.2.mode == 2) = false :=
    List.any_eq_false.2 fun e he => by simpa using hmodes e he
  obtain ⟨hstore, hrd, ⟨q, hq, hlost, hsp, hphase, hfm'⟩, hmem, hout⟩ := Pkg.beginPhase_one
    (x := (s.store, s.dev.ctrl src (.result "REBUILD_START" rDone)))
    (r := { lost := a.node, spare := spare, gen := a.gen, phase := 1, todo := [], next := 0, total := 0, wards := [], fm := src }) rfl
    ((Dev.hasNode_congr (by simp) _).trans hspare)
  have hstart : Pkg.rebuildStart src a spare true st st (s.store, s.dev) = Pkg.beginPhase
      { lost := a.node, spare := spare, gen := a.gen, phase := 1, todo := [], next := 0, total := 0, wards := [], fm := src }
      (s.store, s.dev.ctrl src (.result "REBUILD_START" rDone)) := by
    simp only [Pkg.rebuildStart, hgen, Nat.lt_irrefl, if_false, hnone, hpos, hshadow, hstands]
    simp [Pkg.dev, htray]
  refine ⟨_, q, onPkg_running hrun hdom _, ?_⟩
  simp only [hfm, if_true, hstart]
  refine ⟨hstore, hrd, hq, hlost, hsp, hphase, hfm', hmem, fun hn => hout.subset ?_⟩
  rw [Dev.ctrl_out hn]
  simp

/-! ### REBUILD_PHASE_ACK, REBUILD_DONE (R223–R226) -/

theorem rebuildPhaseAck_idle (hrun : s.dev.running = true) (hdom : s.dev.domOn 11 = true) (hqueue : s.dev.home.queue = []) 
    {p : Nat} (hack : Pkg.phaseAck p (s.store, s.dev) = (s.store, e)) (hsame : e.home.queue = s.dev.home.queue ∧ noneAtHome e) :
    exec (.rebuildPhaseAck p) s = .next { s with dev := e } := by
  refine onPkg_leaves (x := (s.store, e)) hrun hdom ?_
  simp only [hack]
  rw [pump_nil (hsame.1.trans hqueue)]
  exact homeGo_noneAtHome hsame.2

theorem rebuildPhaseAck_other (hrun : s.dev.running = true) (hdom : s.dev.domOn 11 = true) (hqueue : s.dev.home.queue = []) (hhome : noneAtHome s.dev)
    (hr : s.dev.home.rebuild = some r) {p : Nat} (hp : p ≠ r.phase) : exec (.rebuildPhaseAck p) s = .next s :=
  rebuildPhaseAck_idle hrun hdom hqueue (by rw [Pkg.phaseAck, hr]; exact if_pos (.inl (Ne.symm hp))) ⟨rfl, hhome⟩

theorem rebuildPhaseAck_ready (hrun : s.dev.running = true) (hdom : s.dev.domOn 11 = true) (hqueue : s.dev.home.queue = []) (hhome : noneAtHome s.dev)
    (hr : s.dev.home.rebuild = some r) (hp : r.phase = 4) (htodo : r.todo = []) :
    ∃ t, exec (.rebuildPhaseAck 4) s = .next t ∧ t.store = s.store ∧ t.dev.rd F.PROT_REBUILD_STAT_PHASE = 6 ∧
      t.dev.home.rebuild = some { r with phase := 6 } ∧
      (s.dev.hasNode r.fm = true → t.dev.out.getLast? = some (.ctrl r.fm (.rebuildReady r.lost))) := by
  obtain ⟨hrd, hhm, hglb, -⟩ := Dev.setPhase_does (d := { s.dev with home := { s.dev.home with rebuild := some { r with phase := 6 } } }) (p := 6) (by omega)
  have hack : Pkg.phaseAck 4 (s.store, s.dev) = (s.store,
      (Dev.setPhase 6 { s.dev with home := { s.dev.home with rebuild := some { r with phase := 6 } } }).ctrl r.fm (.rebuildReady r.lost)) := by
    rw [Pkg.phaseAck, hr]
    simp [hp, htodo, Pkg.dev]
  generalize Dev.setPhase 6 { s.dev with home := { s.dev.home with rebuild := some { r with phase := 6 } } } = e at hrd hhm hglb hack
  have hctrl : (e.ctrl r.fm (.rebuildReady r.lost)).home = { s.dev.home with rebuild := some { r with phase := 6 } } := by
    simp only [Dev.ctrl_frame, hhm]
  refine ⟨_, rebuildPhaseAck_idle hrun hdom hqueue hack ⟨by rw [hctrl], by rw [noneAtHome, hctrl]; exact hhome⟩, rfl, ?_, by rw [hctrl], fun hn => ?_⟩
  · rw [Dev.rd_ctrl]
    exact hrd
  · rw [Dev.ctrl_out ((Dev.hasNode_congr hglb _).trans hn), List.getLast?_append]
    rfl

theorem rebuildDone_waits (hrun : s.dev.running = true) (hr : s.dev.home.rebuild = some r) (hp : r.phase = 5)
    (hleft : r.wards.filter (fun w => w != src) ≠ []) : ∃ t, exec (.rebuildDone ⟨src, r.lost⟩) s = .next t ∧
      t.store = s.store ∧ t.dev.out = s.dev.out ∧ t.dev.home.rebuild = some { r with
        wards := r.wards.filter (fun w => w != src), acked := r.items - (r.wards.filter (fun w => w != src)).length } := by
  generalize hl : r.wards.filter (fun w => w != src) = left at hleft
  obtain ⟨hhm, -, hout, -⟩ := Dev.setProgress_frame
    (d := { s.dev with home := { s.dev.home with rebuild := some { r with wards := left, acked := r.items - left.length } } })
  have hdone : s.dev.rebuildDone src r.lost =
      (Dev.setProgress { s.dev with home := { s.dev.home with rebuild := some { r with wards := left, acked := r.items - left.length } } }).rebuildOver := by
    rw [Dev.rebuildDone, hr]
    dsimp only
    rw [if_pos ⟨rfl, hp⟩, ← hl]
  generalize Dev.setProgress { s.dev with home := { s.dev.home with rebuild := some { r with wards := left, acked := r.items - left.length } } } = e
    at hhm hout hdone
  have hre : e.home.rebuild = some { r with wards := left, acked := r.items - left.length } := by rw [hhm]
  have hover : e.rebuildOver = e := by
    rw [Dev.rebuildOver, hre]
    exact if_neg fun h => hleft (List.isEmpty_iff.1 h.2)
  exact ⟨_, onDev_running hrun _, rfl, by rw [hdone, hover]; exact hout, by rw [hdone, hover]; exact hre⟩

theorem rebuildDone_clears {lost p : Nat} (hrun : s.dev.running = true) (hnone : s.dev.home.rebuild = none) (hp : s.dev.positionOf lost = some p) :
    ∃ t, exec (.rebuildDone ⟨src, lost⟩) s = .next t ∧ t.store = s.store ∧ bit (t.dev.rd F.PROT_GROUP_LOST) p = false ∧
      t.dev.home.resumed.contains p = false := by
  have hlt := Dev.positionOf_lt hp
  have hdone : s.dev.rebuildDone src lost = s.dev.memberClear lost := by rw [Dev.rebuildDone, hnone]
  refine ⟨_, onDev_running hrun _, rfl, ?_⟩
  rw [hdone, Dev.memberClear, hp]
  dsimp only
  generalize List.foldl _ s.dev _ = e
  refine ⟨?_, by simp⟩
  rw [Dev.rd_wr_same _ _ _ (by decide), show F.PROT_GROUP_LOST.w = 9 from rfl, bit_eq_testBit, Nat.testBit_mod_two_pow, ← bit_eq_testBit,
    bit_putBit_same, Bool.and_false]

/-! ### WARDS_PHASE (R226) -/

/-- A ward with its new partner. -/
def Dev.wardOf (spare : Nat) (d : Dev) : Dev := { d with home := { d.home with partnerLost := false } }.wr F.PROT_CFG_PARTNER spare

/-- The copies that a ward sends its new partner, each with the place it is listed under. -/
def Pkg.wardItems (x : Pkg) : List (Nat × RebuildItem) :=
  (x.2.home.ord.filter (fun e => e.1 / 8192 == 0)).map
      (fun e => (4095, RebuildItem.orderEntry (e.1 % 8192 / 64) (e.1 % 64) e.2.expect e.2.hist)) ++
    [(3072, x.metaItem)] ++
    (x.2.extsOfMode (fun e => e.mode == 3)).map (fun k => (k, x.extentItem (x.2.prot k).peerExt k ((x.2.ext k).state == 3)))

/-- The ward's part of phase 5 under way. -/
def Pkg.wardBegun (src lost : Nat) (x : Pkg) : Dev :=
  { x.2 with home := { x.2.home with wardRun := some ⟨src, lost, x.wardItems.map (·.1), x.2.extsOfMode (fun e => e.mode == 3)⟩ } }

/-- A ward sends its copies. -/
def Pkg.wardCopies (src lost spare : Nat) (x : Pkg) : Pkg :=
  (x.1, x.wardItems.foldl (fun (d : Dev) i => d.sendRebuild spare d.node (d.rd F.RCV_GEN_GEN) i.2 (.wardCopy i.1)) (x.wardBegun src lost))

theorem Pkg.wardCopies_sends (src lost spare : Nat) (x : Pkg) :
    (x.wardCopies src lost spare).1 = x.1 ∧ (x.wardBegun src lost).Sends (x.wardCopies src lost spare).2 :=
  ⟨rfl, Dev.Sends.foldl (fun d _ => d.sends_sendRebuild ..) _ _⟩

variable {lost spare : Nat}

theorem wardsPhase_none (hrun : s.dev.running = true) (hdom : s.dev.domOn 11 = true) (h : s.dev.rd F.PROT_CFG_PARTNER_EN = 0) :
    exec (.wardsPhase src lost spare) s = .next s :=
  onPkg_leaves (x := (s.store, s.dev)) hrun hdom (if_pos (.inl h))

theorem wardsPhase_takes (hrun : s.dev.running = true) (hdom : s.dev.domOn 11 = true) (hspare : spare < 128)
    (hen : s.dev.rd F.PROT_CFG_PARTNER_EN = 1) (hlost : s.dev.partner = lost) :
    ∃ t, exec (.wardsPhase src lost spare) s = .next t ∧ t.store = s.store ∧
      t.dev.partner = spare ∧ t.dev.home.partnerLost = false ∧ ∃ w, t.dev.home.wardRun = some w ∧ w.standin = src ∧ w.lost = lost ∧
        3072 ∈ w.left ∧ ∀ e ∈ s.dev.home.prot, e.2.mode = 3 → e.1 ∈ w.left := by
  have hpartner : (s.dev.wardOf spare).partner = spare := (Dev.rd_wr_same _ _ _ (by decide)).trans (Nat.mod_eq_of_lt hspare)
  have hhome : (s.dev.wardOf spare).home = { s.dev.home with partnerLost := false } := by simp [Dev.wardOf]
  have hwards : Pkg.wardsPhase src lost spare (s.store, s.dev) = Pkg.wardCopies src lost spare (s.store, s.dev.wardOf spare) :=
    if_neg (by simp [hen, hlost])
  refine ⟨_, onPkg_running hrun hdom _, ?_⟩
  rw [hwards]
  generalize s.dev.wardOf spare = d at hpartner hhome
  obtain ⟨hstore, hsends⟩ := Pkg.wardCopies_sends src lost spare (s.store, d)
  generalize Pkg.wardCopies src lost spare (s.store, d) = y at hstore hsends
  obtain ⟨_, _, _, hy⟩ := hsends
  have hdev : (withPkg s y).dev = y.2 := rfl
  rw [hdev, hy]
  refine ⟨hstore, hpartner, congrArg Home.partnerLost hhome, _, rfl, rfl, rfl, ?_, fun e he hmode => ?_⟩
  · simp [Pkg.wardItems]
  · have hk : e.1 ∈ d.extsOfMode (fun e => e.mode == 3) := by
      rw [Dev.extsOfMode, hhome]
      exact List.mem_map.2 ⟨e, List.mem_filter.2 ⟨he, by simp [hmode]⟩, rfl⟩
    exact List.mem_map.2 ⟨_, List.mem_append_right _ (List.mem_map.2 ⟨e.1, hk, rfl⟩), rfl⟩

end

end Sys2Proof.Machine


/-!
SUPPORT. O40, a rebuild copy at the spare: the first takes it to RESYNC, and its line replaces the one that stood (R126, R223, R502).
-/
namespace Sys2Proof.Machine

section
variable {d e : Dev} {s : State} {m : RebuildMsg} {k off : Nat} {v : List Byte}

/-! ### A copy arrives -/

/-- A copy that is the next of its pair is taken at once. -/
theorem rebuildCopy_taken (hup : homeIdle s) (hst : (s.dev.ord (s.dev.ordKey s.dev.node m.src 5)).st = .normal)
    (hexp : (s.dev.ord (s.dev.ordKey s.dev.node m.src 5)).expect = m.manifest) (hb : m.bounces = 0) {y : Pkg}
    (hy : Pkg.takeRebuild m (s.store, s.dev.takeMan s.dev.node m.src 5) = y) (hstore : y.2.home.store = []) (hqueue : y.2.home.queue = []) :
    exec (.rebuildCopy m.src m.node m.gen ⟨m.item, m.ticket, m.tag, m.manifest, m.cmark⟩) s = .next (withPkg s y) := by
  obtain ⟨hrun, hdom, hopen, -⟩ := hup
  have hact : s.dev.orderAct s.dev.node m.src 5 m.manifest = .take := orderAct_take hst (by rw [hexp]; exact manDiff_self _)
  have hserves : s.dev.serves s.dev.node = some .own := if_pos rfl
  refine (onPkg_running hrun hdom _).trans (congrArg (fun z => Host.Outcome.next (withPkg s z)) ?_)
  have harrive : Pkg.arriveWrite s.dev.node (.rebuild m) (s.store, s.dev) = Pkg.orderWrite s.dev.node (.rebuild m) (s.store, s.dev) := by
    simp only [Pkg.arriveWrite, HArr.chan1, Bool.false_eq_true, if_false, hopen, if_true, Pkg.writeIn, hserves]
  have htake : Pkg.takeWr s.dev.node (.rebuild m) (s.store, s.dev) = y := hy
  obtain ⟨_, _, _, _, _, _, _, _, _⟩ := m
  cases hb
  refine harrive.trans ?_
  simp only [Pkg.orderWrite, Wr.hdr, protHdr, hact, htake, hstore, List.length_nil, Pkg.releaseEarly]
  exact pump_nil hqueue

theorem Dev.respond_out_congr (hglb : e.glb = d.glb) (hepoch : e.epochNow = d.epochNow) (hout : e.out = d.out) (h : Hdr) (st : Nat) (v : List Byte) :
    (e.respond h st v).out = (d.respond h st v).out := by
  refine (Dev.emitTo_out ..).trans (Eq.trans ?_ (Dev.emitTo_out ..).symm)
  rw [Dev.hasNode_congr hglb, hout, hepoch, Dev.node_congr hglb]

/-! ### A copy that the spare does not take -/

/-- A spare of another role takes none (R196). -/
theorem Dev.rebuildFits_role (hstage : d.stage = 2) (hrole : d.rd F.PROT_CFG_ROLE ≠ 1) : d.rebuildFits m = false := by
  unfold Dev.rebuildFits
  dsimp only
  rw [if_pos (.inl hstage), show (d.rd F.PROT_CFG_ROLE == 1) = false from beq_false_of_ne hrole, Bool.and_false]

theorem rebuildCopy_refused (hup : homeIdle s) (hst : (s.dev.ord (s.dev.ordKey s.dev.node m.src 5)).st = .normal)
    (hexp : (s.dev.ord (s.dev.ordKey s.dev.node m.src 5)).expect = m.manifest) (hb : m.bounces = 0) (hstage : s.dev.stage = 2)
    (h : m.gen < s.dev.rd F.RCV_GEN_GEN ∨ s.dev.rd F.PROT_CFG_ROLE ≠ 1) :
    ∃ t, exec (.rebuildCopy m.src m.node m.gen ⟨m.item, m.ticket, m.tag, m.manifest, m.cmark⟩) s = .next t ∧ t.store = s.store ∧
      t.dev.stage = 2 ∧ (s.dev.hasNode m.src = true →
        t.dev.out.getLast? = (s.dev.respond (protHdr m.src m.tag m.manifest m.ticket m.cmark) sRights []).out.getLast?) := by
  obtain ⟨-, -, -, hqueue, -, -, -, hstore, hdups, haliases, halone⟩ := id hup
  obtain ⟨hmstore, hmqueue, -⟩ := Dev.takeMan_frame hstore s.dev.node m.src 5
  have htake : Pkg.takeRebuild m (s.store, s.dev.takeMan s.dev.node m.src 5) =
      (s.store, (s.dev.takeMan s.dev.node m.src 5).refuseTaken s.dev.node (protReq (.rebuild m) []) .write sRights) := by
    refine if_pos (h.imp id fun hrole => ?_)
    rw [Dev.rebuildFits_role (d := s.dev.takeMan s.dev.node m.src 5) hstage hrole]
    rfl
  have hcopy := fun y => rebuildCopy_taken (y := y) hup hst hexp hb
  have hmdups : (s.dev.takeMan s.dev.node m.src 5).home.dups = [] := hdups
  have hmstage : (s.dev.takeMan s.dev.node m.src 5).stage = 2 := hstage
  have hmalone : (s.dev.takeMan s.dev.node m.src 5).rd F.PROT_CFG_PARTNER_EN = 0 := halone
  have hmstands : (s.dev.takeMan s.dev.node m.src 5).stands s.dev.node = false := s.dev.stands_node
  have hmglb : (s.dev.takeMan s.dev.node m.src 5).glb = s.dev.glb := rfl
  have hmepoch : (s.dev.takeMan s.dev.node m.src 5).epochNow = s.dev.epochNow := rfl
  generalize s.dev.takeMan s.dev.node m.src 5 = a at *
  obtain ⟨hm, hrefuse, -, hrqueue, hrstore⟩ := Dev.refuseTaken_alone (r := protReq (.rebuild m) []) (kind := .write) hmdups hmalone hmstands sRights
  have hk := a.kept_homeRefused sRights (protReq (.rebuild m) []).opd.addr (protReq (.rebuild m) []).hdr.srcNode
  rw [hrefuse] at htake
  generalize a.homeRefused sRights (protReq (.rebuild m) []).opd.addr (protReq (.rebuild m) []).hdr.srcNode = b at hk htake
  have hhome := Dev.respond_home ({ b with home := hm } : Dev) (protReq (.rebuild m) []).hdr sRights []
  have hregs := Dev.respond_regs ({ b with home := hm } : Dev) (protReq (.rebuild m) []).hdr sRights []
  refine ⟨_, hcopy _ htake ?_ ?_, rfl, ?_, fun hn => ?_⟩
  · exact (congrArg Home.store hhome).trans (hrstore.trans hmstore)
  · exact (congrArg Home.queue hhome).trans (hrqueue.trans (hmqueue.trans hqueue))
  · exact (Dev.rd_congr (e := b) hregs F.RCV_SLIPWAY_STAGE).trans ((hk.rd F.RCV_SLIPWAY_STAGE (by decide) (by decide)).trans hmstage)
  · exact Dev.respond_last_congr (e := { b with home := hm }) (hk.glb.trans hmglb) (hk.epochNow.trans hmepoch) (h := protHdr m.src m.tag m.manifest m.ticket m.cmark) hn _ _

/-! ### A line that the spare takes -/

/-- The first copy takes the spare to RESYNC (R502). -/
def Dev.resyncs (m : RebuildMsg) (d : Dev) : Dev :=
  let d := { d with home := { d.home with rebuildSeen := 0 } }.wr F.RCV_SLIPWAY_STAGE 3
  { d with home := { d.home with
    rebuildFrom := some m.src, rebuildSeen := if d.home.rebuildGen < m.gen then 0 else d.home.rebuildSeen
    rebuildGen := max d.home.rebuildGen m.gen } }

theorem Dev.resyncs_frame (m : RebuildMsg) (d : Dev) : (d.resyncs m).stage = 3 ∧ (d.resyncs m).glb = d.glb ∧ (d.resyncs m).out = d.out ∧
    (d.resyncs m).epochNow = d.epochNow ∧ (d.resyncs m).home.rebuildFrom = some m.src ∧
    (∀ f : Fld, f.addr f.page 0 ≠ 0xC111C → (d.resyncs m).rd f = d.rd f) := by
  have hrd : ∀ f : Fld, f.addr f.page 0 ≠ 0xC111C → (d.resyncs m).rd f = d.rd f := fun f hf => Dev.rd_wr_ne _ _ _ _ (.inl hf)
  refine ⟨(Dev.rd_wr_same _ _ _ (by decide)).trans (by decide), ?_, ?_, ?_, rfl, hrd⟩
  · simp [Dev.resyncs]
  · simp [Dev.resyncs]
  · have htim : (d.resyncs m).tim = d.tim := by simp [Dev.resyncs]
    have hrte : (d.resyncs m).rte = d.rte := by simp [Dev.resyncs]
    unfold Dev.epochNow Dev.flipDue Dev.bankState Dev.activeBank
    simp only [hrd F.RTE_BANK_STATE_A (by decide), hrd F.RTE_BANK_STATE_B (by decide), hrd F.RTE_BANK_ACTIVE (by decide), htim, hrte]

theorem Dev.resyncs_home (m : RebuildMsg) (d : Dev) : ∃ n g, (d.resyncs m).home =
    { d.home with rebuildSeen := n, rebuildFrom := some m.src, rebuildGen := g } := by
  simp only [Dev.resyncs, Dev.wr_frame]
  exact ⟨_, _, rfl⟩

/-- The operation that a line of a copy becomes. -/
def copyOp (node : Nat) (m : RebuildMsg) (l : Nat) : HOp :=
  { blankOp node (protReq (.rebuild m) []) .write 0 0 0 3072 with
    kind := .rebuildIn m, counted := false, ws := [LineW.mk l none none false [] none] }

theorem Dev.rebuildFits_line (hstage : d.stage = 2) (hrole : d.rd F.PROT_CFG_ROLE = 1) (hitem : m.item = .line k off v) (hk : k < 3232)
    (htable : isTableLine (extBase k / 64 + off / 64) = false) : d.rebuildFits m = true := by
  have hoff : (k == 3072 && decide (off < 0x200000)) = false := by
    by_contra hne
    simp only [Bool.not_eq_false, Bool.and_eq_true, beq_iff_eq, decide_eq_true_eq] at hne
    obtain ⟨rfl, hlow⟩ := hne
    have hbase : extBase 3072 / 64 = metaLine0 := by decide
    rw [isTableLine, hbase] at htable
    simp only [Bool.and_eq_false_iff, decide_eq_false_iff_not] at htable
    omega
  unfold Dev.rebuildFits rebuildTable
  dsimp only
  rw [if_pos (.inl hstage), hrole, hitem]
  simp [rebuildLines, hk, hoff]

/-- A line that its code and its extent allow takes the place of the one that stood. -/
theorem Pkg.takeItem_line (x : Pkg) (src node : Nat) (hoff : off < extSize k) (htable : isTableLine (extBase k / 64 + off / 64) = false) :
    x.takeItem src node (.line k off v) = x.writeLine (extBase k / 64 + off / 64) (sliceBytes v 0 64) .raw := by
  simp only [Pkg.takeItem, rebuildLines, Option.map_some, Option.getD_some, Pkg.takeLines, List.foldl_cons, List.foldl_nil]
  rw [if_neg (by omega), if_neg (by simp [htable])]
  rfl

theorem Dev.writeNoted_from {o : HOp} (hdups : d.home.dups = []) (hcounted : o.counted = false) (hkind : o.akind = .write) :
    (d.writeNoted o).home.rebuildFrom = d.home.rebuildFrom := by
  have hfold : ∀ (l : List LineW) (e : Dev), e.home.dups = [] → (l.foldl (fun (d : Dev) w => d.staleDrop w.line) e).home.dups = [] ∧
      (l.foldl (fun (d : Dev) w => d.staleDrop w.line) e).home.rebuildFrom = e.home.rebuildFrom := by
    intro l
    induction l with
    | nil => exact fun e he => ⟨he, rfl⟩
    | cons w l ih => exact fun e he => ih _ he
  have hmid : ∀ c : Prop, [Decidable c] → (if c then o.ws.foldl (fun (d : Dev) w => d.staleDrop w.line) (d.dropOp o.id) else d.dropOp o.id).home.dups = [] ∧
      (if c then o.ws.foldl (fun (d : Dev) w => d.staleDrop w.line) (d.dropOp o.id) else d.dropOp o.id).home.rebuildFrom = d.home.rebuildFrom := by
    intro c _
    split
    · exact hfold _ _ hdups
    · exact ⟨hdups, rfl⟩
  unfold Dev.writeNoted
  simp only [hcounted, hkind, Bool.false_eq_true, if_false, show (AKind.write == AKind.atomic) = false from rfl, Bool.false_and, false_and]
  obtain ⟨h1, h2⟩ := hmid (o.status = sOk ∧ ((d.dropOp o.id).protOf o.node o.ext).mode ≠ 1)
  generalize (if o.status = sOk ∧ ((d.dropOp o.id).protOf o.node o.ext).mode ≠ 1 then
    o.ws.foldl (fun (d : Dev) w => d.staleDrop w.line) (d.dropOp o.id) else d.dropOp o.id) = e at h1 h2
  rw [Dev.recordStatus_alone h1]
  exact h2

/-- A line of a copy is performed at once, and answered (R127, R217). -/
theorem Pkg.protStart_line {x : Pkg} {node l : Nat} (hitem : m.item = .line k off v) (hoff : off < extSize k)
    (htable : isTableLine (extBase k / 64 + off / 64) = false) (hops : x.2.home.ops = []) (hdups : x.2.home.dups = [])
    (hnode : node = x.2.node) (halone : x.2.rd F.PROT_CFG_PARTNER_EN = 0) :
    let y := x.protStart (copyOp node m l)
    y.1 = x.1.setLine (x.2.placeOf (extBase k / 64 + off / 64)) (sliceBytes v 0 64) .raw ∧ y.2.regs = x.2.regs ∧ y.2.home.rebuildFrom = x.2.home.rebuildFrom ∧
      y.2.home.queue = x.2.home.queue ∧ y.2.home.store = x.2.home.store ∧
      y.2.out = (x.2.respond (protHdr m.src m.tag m.manifest m.ticket m.cmark) sOk []).out := by
  intro y
  subst hnode
  generalize hadd : x.2.addOp (copyOp x.2.node m l) = r
  have hr1 : r.1.kind = .rebuildIn m ∧ r.1.applied = false ∧ r.1.akind = .write ∧ r.1.status = sOk ∧ r.1.counted = false ∧
      r.1.req.hdr = protHdr m.src m.tag m.manifest m.ticket m.cmark ∧ r.1.node = x.2.node ∧ r.1.fwd = false := by
    rw [← hadd]
    exact ⟨rfl, rfl, rfl, rfl, rfl, rfl, rfl, rfl⟩
  obtain ⟨hkind, happ, hak, hstat, hcounted, hhdr, hrnode, hfwd⟩ := hr1
  have hr2 : r.2.home.ops = [r.1] ∧ r.2.home.dups = [] ∧ r.2.home.rebuildFrom = x.2.home.rebuildFrom ∧ r.2.home.queue = x.2.home.queue ∧
      r.2.home.store = x.2.home.store ∧ r.2.placeOf (extBase k / 64 + off / 64) = x.2.placeOf (extBase k / 64 + off / 64) ∧ r.2.regs = x.2.regs := by
    rw [← hadd]
    exact ⟨by simp [Dev.addOp, hops], hdups, rfl, rfl, rfl, rfl, rfl⟩
  obtain ⟨hrops, hrdups, hrfrom, hrqueue, hrstore, hrplace, hrregs⟩ := hr2
  have hrout : (r.2.respond (protHdr m.src m.tag m.manifest m.ticket m.cmark) sOk []).out =
      (x.2.respond (protHdr m.src m.tag m.manifest m.ticket m.cmark) sOk []).out := by
    rw [← hadd]
    exact Dev.respond_out_congr (d := x.2) (e := (x.2.addOp (copyOp x.2.node m l)).2) rfl rfl rfl _ _ _
  have hstands : r.2.stands r.1.node = false := by
    rw [hrnode, ← hadd]
    exact x.2.stands_node
  have hpartner : r.2.partnerOn = false := Dev.partnerOn_alone ((Dev.rd_congr hrregs _).trans halone)
  have hforward : Pkg.forwardTo r.1 (x.1, r.2) = none := by simp [Pkg.forwardTo, hstands]
  have hstart : y = Pkg.finishOp r.1 (x.1, r.2) := by
    have hk : (copyOp x.2.node m l).kind = .rebuildIn m := rfl
    show Pkg.protStart _ _ = _
    unfold Pkg.protStart
    simp only [hk, Option.any_none, Bool.false_eq_true, if_false, hadd, hpartner, Pkg.recorded, hforward]
  have hstored := Pkg.stored_writeLine (x.1, r.2) (extBase k / 64 + off / 64) (sliceBytes v 0 64) .raw
  have hwrite : (Pkg.writeLine (x.1, r.2) (extBase k / 64 + off / 64) (sliceBytes v 0 64) .raw).1 =
      x.1.setLine (r.2.placeOf (extBase k / 64 + off / 64)) (sliceBytes v 0 64) .raw := rfl
  have hfinish : Pkg.finishOp r.1 (x.1, r.2) = ((Pkg.writeLine (x.1, r.2) (extBase k / 64 + off / 64) (sliceBytes v 0 64) .raw).1,
      ((Pkg.writeLine (x.1, r.2) (extBase k / 64 + off / 64) (sliceBytes v 0 64) .raw).2.writeNoted r.1).respond
        (protHdr m.src m.tag m.manifest m.ticket m.cmark) sOk []) := by
    unfold Pkg.finishOp
    rw [if_neg (by simp [happ])]
    simp only [hkind, hitem, Pkg.takeItem_line _ _ _ hoff htable]
    simp only [Pkg.dev, Dev.writeNoted, hak, hstat, hhdr, show (AKind.write == AKind.atomic) = false from rfl, Bool.false_and, Bool.false_eq_true,
      false_and, if_false]
  rw [hstart, hfinish]
  generalize Pkg.writeLine (x.1, r.2) (extBase k / 64 + off / 64) (sliceBytes v 0 64) .raw = z at hstored hwrite
  have hzdups : z.2.home.dups = [] := (hstored.home Home.dups fun _ => rfl).trans hrdups
  have hfrom := Dev.writeNoted_from (o := r.1) hzdups hcounted hak
  obtain ⟨h, hnoted, -, hq, -, hs, -⟩ := Dev.writeNoted_frame (d := z.2) (hstored.ops.trans hrops) hzdups
  have hout := Dev.respond_out_congr hstored.glb hstored.toKept.epochNow hstored.out (protHdr m.src m.tag m.manifest m.ticket m.cmark) sOk []
  have hsame := Dev.respond_out_home z.2 h (protHdr m.src m.tag m.manifest m.ticket m.cmark) sOk []
  rw [hnoted] at hfrom ⊢
  have hhome := Dev.respond_home ({ z.2 with home := h } : Dev) (protHdr m.src m.tag m.manifest m.ticket m.cmark) sOk []
  have hregs := Dev.respond_regs ({ z.2 with home := h } : Dev) (protHdr m.src m.tag m.manifest m.ticket m.cmark) sOk []
  refine ⟨hwrite.trans (by rw [hrplace]), hregs.trans (hstored.regs.trans hrregs), ?_, ?_, ?_, hsame.trans (hout.trans hrout)⟩
  · exact (congrArg Home.rebuildFrom hhome).trans (hfrom.trans ((hstored.home Home.rebuildFrom fun _ => rfl).trans hrfrom))
  · exact (congrArg Home.queue hhome).trans (hq.trans (hstored.queue.trans hrqueue))
  · exact (congrArg Home.store hhome).trans (hs.trans ((hstored.home Home.store fun _ => rfl).trans hrstore))

theorem rebuildCopy_line (hup : homeIdle s) (hst : (s.dev.ord (s.dev.ordKey s.dev.node m.src 5)).st = .normal)
    (hexp : (s.dev.ord (s.dev.ordKey s.dev.node m.src 5)).expect = m.manifest) (hb : m.bounces = 0) (hstage : s.dev.stage = 2)
    (hrole : s.dev.rd F.PROT_CFG_ROLE = 1) (hgen : s.dev.rd F.RCV_GEN_GEN ≤ m.gen) (hitem : m.item = .line k off v) (hk : k < 3232)
    (hoff : off < extSize k) (htable : isTableLine (extBase k / 64 + off / 64) = false)
    (hpow : s.dev.linePowered (extGpa s.dev.node k off / 64 % 2 ^ 39) = true) :
    ∃ t, exec (.rebuildCopy m.src m.node m.gen ⟨m.item, m.ticket, m.tag, m.manifest, m.cmark⟩) s = .next t ∧ t.dev.stage = 3 ∧
      t.dev.home.rebuildFrom = some m.src ∧ t.store = s.store.setLine (s.dev.placeOf (extBase k / 64 + off / 64)) (sliceBytes v 0 64) .raw ∧
      t.dev.out = (s.dev.respond (protHdr m.src m.tag m.manifest m.ticket m.cmark) sOk []).out := by
  obtain ⟨-, -, -, hqueue, hops, hholds, hrecons, hstore, hdups, haliases, halone⟩ := id hup
  obtain ⟨hmstore, -, -, -, -, -⟩ := Dev.takeMan_frame hstore s.dev.node m.src 5
  have hcopy := fun y => rebuildCopy_taken (y := y) hup hst hexp hb
  have hman : ∃ h : Home, s.dev.takeMan s.dev.node m.src 5 = { s.dev with home := h } ∧ h.queue = [] ∧ h.ops = [] ∧ h.rcHolds = [] ∧ h.recons = [] ∧
      h.store = [] ∧ h.dups = [] ∧ h.aliases = [] := ⟨_, rfl, hqueue, hops, hholds, hrecons, hmstore, hdups, haliases⟩
  obtain ⟨h, hman, gqueue, gops, gholds, grecons, gstore, gdups, galiases⟩ := hman
  rw [hman] at hcopy
  obtain ⟨kstage, kglb, kout, kepoch, kfrom, krd⟩ := Dev.resyncs_frame m { s.dev with home := h }
  obtain ⟨n, g, khome⟩ := Dev.resyncs_home m { s.dev with home := h }
  have hfits := Dev.rebuildFits_line (d := { s.dev with home := h }) (m := m) hstage hrole hitem hk htable
  have htake : Pkg.takeRebuild m (s.store, { s.dev with home := h }) = Pkg.enqueue (.prot (copyOp (Dev.resyncs m { s.dev with home := h }).node m
      (extGpa (Dev.resyncs m { s.dev with home := h }).node k off / 64))) (s.store, Dev.resyncs m { s.dev with home := h }) := by
    have hstep : (if Dev.stage { s.dev with home := h } = 2 then
        Dev.wr { s.dev with home := { h with rebuildSeen := 0 } } F.RCV_SLIPWAY_STAGE 3 else { s.dev with home := h }).stage = 3 := by
      rw [if_pos (show Dev.stage { s.dev with home := h } = 2 from hstage)]
      exact (Dev.rd_wr_same _ _ _ (by decide)).trans (by decide)
    have hlow : ¬ (m.gen < Dev.rd { s.dev with home := h } F.RCV_GEN_GEN ∨ (!Dev.rebuildFits m { s.dev with home := h }) = true) := by
      rw [hfits]
      rintro (h | h)
      · exact absurd h (not_lt.2 hgen)
      · exact nomatch h
    have hlines : ∀ d : Dev, Dev.itemLines m d = [extGpa d.node k off / 64] := fun d => by
      rw [Dev.itemLines, hitem]
      rfl
    unfold Pkg.takeRebuild
    dsimp only
    rw [if_neg hlow]
    simp only [Pkg.dev, hstep, if_true, hlines]
    rw [if_pos (show Dev.stage { s.dev with home := h } = 2 from hstage)]
    rfl
  generalize Dev.resyncs m { s.dev with home := h } = d at kstage kglb kout kepoch kfrom krd khome htake
  have hnode : d.node = s.dev.node := Dev.node_congr kglb
  have hcontig : d.contiguous = s.dev.contiguous := by rw [Dev.contiguous, krd F.BULK_CFG_INTERLEAVE (by decide)]; rfl
  have hplace : ∀ l, d.placeOf l = s.dev.placeOf l := fun l => by simp only [Dev.placeOf, hcontig]
  have hdomOn : ∀ i, d.domOn i = s.dev.domOn i := fun i => by rw [Dev.domOn, krd F.PWR_DOM_STAT_ON (by decide)]; rfl
  have hpowered : ∀ l, d.linePowered l = s.dev.linePowered l := fun l => by
    simp only [Dev.linePowered, Dev.bulkDevice, hdomOn, hcontig, hplace]
  obtain ⟨hst', hregs, hfrom, hq, hs, hout⟩ := Pkg.protStart_line (x := (s.store, d)) (node := d.node) (l := extGpa d.node k off / 64) hitem hoff htable
    (by rw [khome]; exact gops) (by rw [khome]; exact gdups) rfl
    ((krd F.PROT_CFG_PARTNER_EN (by decide)).trans halone)
  have hqueue' : d.home.queue = [] := by rw [khome]; exact gqueue
  have hwait : d.itemWaits [] (.prot (copyOp d.node m (extGpa d.node k off / 64))) = false := by
    refine Dev.itemWaits_alone (by rw [khome]; exact gops) (by rw [khome]; exact gholds) (by rw [khome]; exact grecons) fun l hl q hlq => ?_
    obtain rfl := List.mem_singleton.1 (show l ∈ [extGpa d.node k off / 64] from hl)
    obtain rfl := Option.some.inj ((Dev.physOf_own d.stands_node _).symm.trans hlq)
    rw [hpowered, hnode]
    exact hpow
  have henq := Pkg.enqueue_item (x := (s.store, d)) (i := .prot (copyOp d.node m (extGpa d.node k off / 64))) hqueue' rfl hwait
    (hq.trans hqueue')
  refine ⟨_, hcopy _ (htake.trans henq) (hs.trans (by rw [khome]; exact gstore)) (hq.trans hqueue'), ?_, hfrom.trans kfrom, ?_, ?_⟩
  · exact (Dev.rd_congr hregs F.RCV_SLIPWAY_STAGE).trans kstage
  · exact hst'.trans (by rw [hplace])
  · exact hout.trans ((Dev.respond_out_congr kglb kepoch kout _ _ _).trans (Dev.respond_out_home ..))

end

end Sys2Proof.Machine


/-!
SUPPORT. O40, the configuration registers of the protection engine (R196, R230).
-/
namespace Sys2Proof.Machine

section
variable {s : State} {m : Master} {off : Nat} {v : W32}

/-- A write of the configuration stores the new word and starts nothing. -/
theorem protRegister (hopen : pageOpen s.dev m 0x2B) (hoff : off = 0x100 ∨ off = 0x104 ∨ off = 0x108)
    (h : fieldsTaken (tlp m s.dev) m 0x2B off v.toNat) :
    regOut m (0x2B * 0x1000 + off) 4 v.toNat s = .next (withPkg s (s.store, (tlp m s.dev).setWord (0x2B * 0x1000 + off)
      ((tlp m s.dev).newWord ((tlp m s.dev).mayWrite m 0x2B off) 0x2B off v.toNat))) := by
  obtain ⟨-, -, -, hon⟩ := id hopen
  have hreg : plainRegister s.dev 0x2B off := ⟨by omega, by omega, by omega, by simp [routeAt], by omega, hon⟩
  refine (regOut_taken hopen hreg v.isLt h).trans ?_
  have hnone : ∀ old go x, Pkg.homeWritten m 0x2B off old v.toNat go x = x := fun old go x => by
    unfold Pkg.homeWritten
    split
    · rfl
    · rw [if_neg (by omega), if_neg (by omega), if_neg (by omega), if_neg (by omega)]
  rw [fieldsStored, Pkg.written]
  simp only [hnone]
  rcases hoff with rfl | rfl | rfl <;> rfl

/-- A field of the owner's reads as written. -/
theorem protField (hown : s.dev.owns m 0x2B = true) (h : fieldsTaken (tlp m s.dev) m 0x2B off v.toNat) (f : Fld) (hf : f ∈ fieldsAt 0x2B off)
    (hmode : f ≠ F.RTE_CFG_MODE) (hacc : f.acc = .rwo) (haddr : f.addr f.page 0 = 0x2B * 0x1000 + off) (hw : f.lo + f.w ≤ 32) :
    ((tlp m s.dev).setWord (0x2B * 0x1000 + off) ((tlp m s.dev).newWord ((tlp m s.dev).mayWrite m 0x2B off) 0x2B off v.toNat)).rd f =
      bits v.toNat f.lo f.w := by
  have hmay : (tlp m s.dev).mayWrite m 0x2B off = true := mayWrite_owner hown (by simp [isFmq])
  refine (rd_setWord_of haddr hw).trans (fieldsTaken_bits h hf (by simp) (by rw [hmay, fieldOpen, hacc]) (by rw [hacc]; decide) hmode)

/-- A field that no write reaches keeps its value. -/
theorem protField_ro (f : Fld) (hf : f ∈ fieldsAt 0x2B off) (hacc : f.acc = .ro) (haddr : f.addr f.page 0 = 0x2B * 0x1000 + off)
    (hw : f.lo + f.w ≤ 32) (own : Bool) :
    ((tlp m s.dev).setWord (0x2B * 0x1000 + off) ((tlp m s.dev).newWord own 0x2B off v.toNat)).rd f = s.dev.rd f := by
  refine (rd_setWord_of haddr hw).trans ?_
  rw [Dev.newWord_field _ _ _ _ _ f hf (by omega), Dev.fieldWord, hacc, if_neg (by decide), if_neg (by simp [fieldOpen, hacc]), tlp_word, ← haddr]
  rfl

theorem protCfg_takes (hopen : pageOpen s.dev m 0x2B) (hown : s.dev.owns m 0x2B = true) (h : fieldsTaken (tlp m s.dev) m 0x2B 0x100 v.toNat) :
    ∃ t, exec (.protCfgWrite m v) s = .next t ∧ t.store = s.store ∧
      t.dev.rd F.PROT_CFG_PARTNER = bits v.toNat 0 7 ∧ t.dev.rd F.PROT_CFG_PARTNER_EN = bits v.toNat 7 1 ∧
      t.dev.rd F.PROT_CFG_META_COPY = bits v.toNat 24 8 ∧
      t.dev.rd F.PROT_CFG_ALIAS_EN = s.dev.rd F.PROT_CFG_ALIAS_EN ∧ t.dev.home = s.dev.home := by
  have hfield := protField hown h
  have hexec : exec (.protCfgWrite m v) s = regOut m (0x2B * 0x1000 + 0x100) 4 v.toNat s := rfl
  refine ⟨_, hexec.trans (protRegister hopen (.inl rfl) h), rfl, ?_, ?_, ?_, ?_, tlp_home m s.dev⟩
  · exact hfield F.PROT_CFG_PARTNER (by decide) (by decide) rfl (by decide) (by decide)
  · exact hfield F.PROT_CFG_PARTNER_EN (by decide) (by decide) rfl (by decide) (by decide)
  · exact hfield F.PROT_CFG_META_COPY (by decide) (by decide) rfl (by decide) (by decide)
  · exact protField_ro F.PROT_CFG_ALIAS_EN (by decide) rfl (by decide) (by decide) _

theorem protGroup_takes (hopen : pageOpen s.dev m 0x2B) (hown : s.dev.owns m 0x2B = true) (h : fieldsTaken (tlp m s.dev) m 0x2B 0x104 v.toNat) :
    ∃ t, exec (.protGroupWrite m 0 v) s = .next t ∧ t.store = s.store ∧
      t.dev.rd F.PROT_GROUP_GROUP_EN = bits v.toNat 0 1 ∧ t.dev.rd F.PROT_GROUP_POSITION = bits v.toNat 1 4 ∧
      t.dev.rd F.PROT_GROUP_LOST = s.dev.rd F.PROT_GROUP_LOST := by
  have hfield := protField hown h
  have hexec : exec (.protGroupWrite m 0 v) s = regOut m (0x2B * 0x1000 + 0x104) 4 v.toNat s := rfl
  refine ⟨_, hexec.trans (protRegister hopen (.inr (.inl rfl)) h), rfl, ?_, ?_, ?_⟩
  · exact hfield F.PROT_GROUP_GROUP_EN (by decide) (by decide) rfl (by decide) (by decide)
  · exact hfield F.PROT_GROUP_POSITION (by decide) (by decide) rfl (by decide) (by decide)
  · exact protField_ro F.PROT_GROUP_LOST (by decide) rfl (by decide) (by decide) _

theorem protMembers_take (hopen : pageOpen s.dev m 0x2B) (hown : s.dev.owns m 0x2B = true) (h : fieldsTaken (tlp m s.dev) m 0x2B 0x108 v.toNat) :
    ∃ t, exec (.protGroupWrite m 1 v) s = .next t ∧ t.store = s.store ∧ (∀ p < 4, t.dev.member p = bits v.toNat (8 * p) 7) := by
  have hfield := protField hown h
  have hexec : exec (.protGroupWrite m 1 v) s = regOut m (0x2B * 0x1000 + 0x108) 4 v.toNat s := rfl
  refine ⟨_, hexec.trans (protRegister hopen (.inr (.inr rfl)) h), rfl, fun p hp => ?_⟩
  match p, hp with
  | 0, _ => exact hfield F.PROT_MEMBERS0_M0 (by decide) (by decide) rfl (by decide) (by decide)
  | 1, _ => exact hfield F.PROT_MEMBERS0_M1 (by decide) (by decide) rfl (by decide) (by decide)
  | 2, _ => exact hfield F.PROT_MEMBERS0_M2 (by decide) (by decide) rfl (by decide) (by decide)
  | 3, _ => exact hfield F.PROT_MEMBERS0_M3 (by decide) (by decide) rfl (by decide) (by decide)

end

/-- Settles O40: each command's own rule, its messages, and the registers as they take what is written. -/
theorem takeover : Obligations.Takeover := by
  refine ⟨?_, ?_, ?_, ?_, ?_, ?_⟩
  · intro src a s hrun hdom hfm hnode
    refine ⟨fun hlow => ⟨?_, ?_, memberRestore_lower hrun hlow⟩, fun hgen => ⟨?_, ?_, ?_, ?_, ?_⟩, aliasClear_none hrun hfm, aliasClear_drops hrun hfm⟩
    · exact fromFm_recovery hrun hfm (Dev.recovery_lower hlow)
    · exact fromFm_recovery hrun hfm (Dev.recovery_lower hlow)
    · exact fun p hp hbit => memberLost_marks hrun hfm hgen hp hbit
    · exact fun p hp hnew => memberRestore_resumes hrun hgen hp hnew
    · exact fun sh hnew hstage hshadow => standin_serves hrun hfm hgen hnode hnew hstage hshadow
    · exact fun spare st lt hnone => rebuildStart_refused hrun hdom hfm hgen hnone spare st lt
    · exact fun spare st hnone hstands hgroup hmodes htray hspare => rebuildStart_begins hrun hdom hfm hgen hnone hstands hgroup hmodes htray hspare st
  · intro m s hup _ hst hexp hstage
    refine ⟨fun k off v hrole hgen hitem hk hoff htable hpow => ?_, fun h => ?_⟩
    · exact rebuildCopy_line (m := { m with bounces := 0 }) hup hst hexp rfl hstage hrole hgen hitem hk hoff htable hpow
    · exact rebuildCopy_refused (m := { m with bounces := 0 }) hup hst hexp rfl hstage h
  · intro r s hrun hdom hr hqueue hhome
    refine ⟨fun p hp => rebuildPhaseAck_other hrun hdom hqueue hhome hr hp, fun hp htodo => ?_, fun src hp hleft => rebuildDone_waits hrun hr hp hleft⟩
    exact rebuildPhaseAck_ready hrun hdom hqueue hhome hr hp htodo
  · exact fun src lost spare s hrun hdom hspare => ⟨wardsPhase_none hrun hdom, wardsPhase_takes hrun hdom hspare⟩
  · exact fun src lost p s hrun hnone hp => rebuildDone_clears hrun hnone hp
  · exact fun m v s hopen hown => ⟨protCfg_takes hopen hown, protGroup_takes hopen hown, protMembers_take hopen hown⟩

end Sys2Proof.Machine


/-!
SUPPORT. O50, the second part: eye scans (R453, R454, R461), and the registers of the fabric's pages.
-/
namespace Sys2Proof.Machine

section
variable {d : Dev} {s : State} {m : Master} {p off v : Nat}

/-! ### Registers of the pages of the fabric's ports and lanes -/

/-- A write of a register of a port's or a lane's page that its page accepts. -/
theorem fabricRegister (hopen : pageOpen s.dev m p) (hp : 0x80 ≤ p) (hp2 : p < 0xBC) (ho : 0x100 ≤ off) (ho2 : off < 0x1000) (h4 : off % 4 = 0)
    (hv : v < 2 ^ 32) (htaken : fieldsTaken (tlp m s.dev) m p off v) :
    regOut m (p * 0x1000 + off) 4 v s = .next (withPkg s (Pkg.settle (s.store,
      ((tlp m s.dev).setWord (p * 0x1000 + off) ((tlp m s.dev).newWord ((tlp m s.dev).mayWrite m p off) p off v)).fabricWritten m p off
        (s.dev.word (p * 0x1000 + off)) ((tlp m s.dev).newWord ((tlp m s.dev).mayWrite m p off) p off v) v (bit v 31)))) := by
  obtain ⟨-, -, -, hon⟩ := id hopen
  have hroute : routeAt p off = none := by rw [routeAt, if_neg (by omega)]
  refine (regOut_taken hopen ⟨ho, ho2, h4, hroute, by omega, hon⟩ hv htaken).trans ?_
  rw [fieldsStored, Pkg.written]
  dsimp only
  rw [if_neg (by omega), if_neg (by omega), if_neg (by omega), if_neg (by omega), if_neg (by omega), if_neg (by omega), if_neg (by omega),
    if_neg (by omega), if_neg (by omega), Bool.true_and, if_pos rfl, tlp_word]
  rfl

theorem mayWrite_fabric (hp : 0x80 ≤ p) (hown : s.dev.owns m p = true) : (tlp m s.dev).mayWrite m p off = true := by
  refine mayWrite_owner hown ?_
  simp only [isFmq, Bool.and_eq_false_iff, beq_eq_false_iff_ne]
  exact .inl (.inl (by omega))

/-! ### The command register of an eye scan -/

/-- The fields of PHY_EYE_CMD, in each page that has one. -/
theorem eyeCmd_fields : ∀ p < 0xBC, 0xA0 ≤ p → ∀ f ∈ fieldsAt p 0x210, f.rsv = .none ∧ f.acc = .wo ∧ 0xA0 ≤ f.page := by decide +kernel

theorem eyeCmd_taken (hp : 0xA0 ≤ p) (hp2 : p < 0xBC) (hown : s.dev.owns m p = true) (v : Nat) : fieldsTaken (tlp m s.dev) m p 0x210 v := by
  refine fieldsTaken_of (mayWrite_fabric (by omega) hown) (.inr (by omega)) ?_ (fun f hf => ?_) (fun f hf => ?_)
  · unfold Dev.writeRefused
    simp (disch := omega) only [if_neg]
  · have hpage := (eyeCmd_fields p hp2 hp f hf).2.2
    omega
  · rw [Fld.accepts, (eyeCmd_fields p hp2 hp f hf).1]

/-- Words that a write of PHY_EYE_CMD leaves. -/
theorem eyeCmd_word {a w : Nat} (h : a ≠ p * 0x1000 + 0x210) : ((tlp m s.dev).setWord (p * 0x1000 + 0x210) w).word a = s.dev.word a := by
  rw [Dev.word_setWord_ne _ _ h, tlp_word]

/-- A write of PHY_EYE_CMD. -/
theorem eyeCmd_written (hp : 0xA0 ≤ p) (hp2 : p < 0xBC) (hopen : pageOpen s.dev m p) (hown : s.dev.owns m p = true) (hv : v < 2 ^ 32) :
    ∃ e : Dev, regOut m (p * 0x1000 + 0x210) 4 v s = .next (withPkg s (Pkg.settle (s.store, e.eyeCmd m p v))) ∧ e.rest = s.dev.rest ∧
      e.eyes = s.dev.eyes ∧ ∀ a, a ≠ p * 0x1000 + 0x210 → e.word a = s.dev.word a := by
  have hwrite := fabricRegister hopen (by omega) hp2 (off := 0x210) (by omega) (by omega) (by omega) hv (eyeCmd_taken hp hp2 hown v)
  rw [Dev.fabricWritten, if_neg (by omega), if_neg (by omega), if_neg (by omega), if_neg (by omega), if_pos (by omega)] at hwrite
  obtain ⟨c, hc⟩ := tlp_counts m s.dev
  refine ⟨_, hwrite, (Dev.rest_setWord ..).trans (tlp_rest m s.dev), ?_, fun a ha => eyeCmd_word ha⟩
  rw [hc]
  rfl

/-! ### The end of a scan -/

theorem Dev.rest_event (d : Dev) (p i : Nat) : (d.event p i).rest = d.rest := by simp [Dev.rest]

theorem Dev.rest_capture (d : Dev) (p : Nat) (c : ECls) (st code port det : Nat) : (d.capture p c st code port det).rest = d.rest := by
  simp [Dev.rest]

theorem Dev.rest_wrp (d : Dev) (f : Fld) (p v : Nat) : (d.wrp f p v).rest = d.rest := rfl

theorem Dev.eyeEnd_does (d : Dev) (p : Nat) (ab : Bool) : (d.eyeEnd p ab).rdp F.PHY_EYE_STAT_BUSY p = 0 ∧
    (d.eyeEnd p ab).rdp F.PHY_EYE_STAT_ABORTED p = b2n ab ∧ bit ((d.eyeEnd p ab).word (p * 0x1000 + 0x14)) 0 = true ∧
    (d.eyeEnd p ab).eyes = d.eyes.filter (fun e => e.page != p) ∧ (d.eyeEnd p ab).rest = d.rest ∧ d.out <+: (d.eyeEnd p ab).out := by
  have hbusy : ∀ q, F.PHY_EYE_STAT_BUSY.addr q 0 = q * 0x1000 + 0x214 := fun _ => rfl
  have hab : ∀ q, F.PHY_EYE_STAT_ABORTED.addr q 0 = q * 0x1000 + 0x214 := fun _ => rfl
  have hstat : ∀ q, F.PHY_EYE_STAT_BUSY.addr q 0 ≠ p * 0x1000 + 0x14 := fun q => by rw [hbusy]; omega
  have hstat' : ∀ q, F.PHY_EYE_STAT_ABORTED.addr q 0 ≠ p * 0x1000 + 0x14 := fun q => by rw [hab]; omega
  have hend : d.eyeEnd p ab = ((({ d with eyes := d.eyes.filter (fun e => e.page != p) } : Dev).wrp F.PHY_EYE_STAT_BUSY p 0).wrp
    F.PHY_EYE_STAT_ABORTED p (b2n ab)).event p 0 := rfl
  have hrest : ∀ e : Dev, ((e.wrp F.PHY_EYE_STAT_BUSY p 0).wrp F.PHY_EYE_STAT_ABORTED p (b2n ab)).rest = e.rest := fun _ => rfl
  have hb : ∀ e : Dev, ((e.wrp F.PHY_EYE_STAT_BUSY p 0).wrp F.PHY_EYE_STAT_ABORTED p (b2n ab)).rdp F.PHY_EYE_STAT_BUSY p = 0 := fun e =>
    (Dev.rdpi_wrpi_ne _ _ _ _ _ _ _ _ (.inr (by decide))).trans (Dev.rdpi_wrpi_same _ _ _ _ _ (by decide))
  have ha : ∀ e : Dev, (e.wrp F.PHY_EYE_STAT_ABORTED p (b2n ab)).rdp F.PHY_EYE_STAT_ABORTED p = b2n ab := fun e =>
    (Dev.rdpi_wrpi_same _ _ _ _ _ (by decide)).trans (by cases ab <;> rfl)
  have heyes : ∀ e : Dev, ((e.wrp F.PHY_EYE_STAT_BUSY p 0).wrp F.PHY_EYE_STAT_ABORTED p (b2n ab)).eyes = e.eyes := fun _ => rfl
  have hout : ∀ e : Dev, ((e.wrp F.PHY_EYE_STAT_BUSY p 0).wrp F.PHY_EYE_STAT_ABORTED p (b2n ab)).out = e.out := fun _ => rfl
  rw [hend]
  refine ⟨?_, ?_, Dev.isr_event _ p (by decide), ?_, (Dev.rest_event ..).trans (hrest _), ?_⟩
  · exact (Dev.rdp_event _ _ _ (hstat p)).trans (hb _)
  · exact (Dev.rdp_event _ _ _ (hstat' p)).trans (ha _)
  · simp only [Dev.event_frame, heyes]
  · exact (hout { d with eyes := d.eyes.filter (fun e => e.page != p) }) ▸ Dev.out_event _ p 0

theorem Fld.addr_ne {f g : Fld} (h : f.at 0 ≠ g.at 0) (p : Nat) : f.addr p 0 ≠ g.addr p 0 := fun e => h (Nat.add_left_cancel e)

/-- A field of another register of the page. -/
theorem Dev.rdp_wrp_other (d : Dev) {f g : Fld} (h : f.at 0 ≠ g.at 0) (p x : Nat) : (d.wrp g p x).rdp f p = d.rdp f p :=
  Dev.rdpi_wrpi_ne _ _ _ _ _ _ _ _ (.inl (Fld.addr_ne h p))

/-! ### The commands GO and STOP -/

/-- The registers of a page as a scan begins. -/
def Dev.eyeBegins (p : Nat) (d : Dev) : Dev :=
  ((d.wrp F.PHY_EYE_STAT_BUSY p 1).wrp F.PHY_EYE_STAT_ABORTED p 0).wrp F.PHY_EYE_STAT_POINTS_DONE p 0

theorem Dev.eyeBegins_does (p : Nat) (d : Dev) : (d.eyeBegins p).rdp F.PHY_EYE_STAT_BUSY p = 1 ∧
    (d.eyeBegins p).rdp F.PHY_EYE_STAT_POINTS_DONE p = 0 ∧ (d.eyeBegins p).eyes = d.eyes ∧ (d.eyeBegins p).rest = d.rest ∧
    ∀ f : Fld, f.at 0 ≠ 0x214 → (d.eyeBegins p).rdp f p = d.rdp f p := by
  refine ⟨?_, Dev.rdpi_wrpi_same _ _ _ _ _ (by decide), rfl, rfl, fun f hf => ?_⟩
  · refine (Dev.rdpi_wrpi_ne _ _ _ _ _ _ _ _ (.inr (by decide))).trans ((Dev.rdpi_wrpi_ne _ _ _ _ _ _ _ _ (.inr (by decide))).trans ?_)
    exact Dev.rdpi_wrpi_same _ _ _ _ _ (by decide)
  · exact (Dev.rdp_wrp_other _ hf p _).trans ((Dev.rdp_wrp_other _ hf p _).trans (Dev.rdp_wrp_other _ hf p _))

theorem Dev.eyeOf_congr {e : Dev} (h : ∀ f : Fld, f.at 0 = 0x208 ∨ f.at 0 = 0x20C → e.rdp f p = d.rdp f p) : e.eyeOf p = d.eyeOf p := by
  unfold Dev.eyeOf
  rw [h F.PHY_EYE_CFG0_LANE (by decide), h F.PHY_EYE_CFG0_EYE (by decide), h F.PHY_EYE_CFG0_DWELL_LOG2 (by decide),
    h F.PHY_EYE_CFG0_ERR_LIMIT (by decide), h F.PHY_EYE_CFG1_V_LAST (by decide), h F.PHY_EYE_CFG1_P_FIRST (by decide),
    h F.PHY_EYE_CFG1_P_LAST (by decide), h F.PHY_EYE_CFG1_V_FIRST (by decide)]

/-- GO while no scan runs: the scan begins at its first point (R453). -/
theorem Dev.eyeCmd_starts (hgo : bit v 31 = true) (hidle : d.rdp F.PHY_EYE_STAT_BUSY p = 0)
    (hv : d.rdp F.PHY_EYE_CFG1_V_FIRST p ≤ d.rdp F.PHY_EYE_CFG1_V_LAST p) (hp : d.rdp F.PHY_EYE_CFG1_P_FIRST p ≤ d.rdp F.PHY_EYE_CFG1_P_LAST p) :
    d.eyeCmd m p v = { d.eyeBegins p with eyes := d.eyes ++ [d.eyeOf p] } := by
  obtain ⟨-, -, heyes, -, hrd⟩ := d.eyeBegins_does p
  have hstart : d.eyeCmd m p v = if (d.eyeBegins p).rdp F.PHY_EYE_CFG1_V_LAST p < d.rdp F.PHY_EYE_CFG1_V_FIRST p ∨
      (d.eyeBegins p).rdp F.PHY_EYE_CFG1_P_LAST p < d.rdp F.PHY_EYE_CFG1_P_FIRST p then (d.eyeBegins p).eyeEnd p false
      else { d.eyeBegins p with eyes := (d.eyeBegins p).eyes ++ [(d.eyeBegins p).eyeOf p] } := by
    unfold Dev.eyeCmd
    simp only [hidle, hgo, Bool.and_eq_true, beq_iff_eq, Nat.zero_ne_one, and_false, if_false, if_true]
    rfl
  rw [hstart, hrd _ (by decide), hrd _ (by decide), if_neg (by omega), heyes, Dev.eyeOf_congr fun f hf => hrd f (by omega)]

/-- GO while a scan runs is dropped. -/
theorem Dev.eyeCmd_busy (hgo : bit v 31 = true) (hstop : bit v 0 = false) (hbusy : d.rdp F.PHY_EYE_STAT_BUSY p = 1) :
    d.eyeCmd m p v = d.dropWrite m p 0x210 v 3 := by
  unfold Dev.eyeCmd
  simp only [hbusy, hgo, hstop, Bool.false_and, Bool.false_eq_true, if_false, if_true]

/-- STOP ends the scan that runs as aborted. -/
theorem Dev.eyeCmd_stops (hgo : bit v 31 = false) (hstop : bit v 0 = true) (hbusy : d.rdp F.PHY_EYE_STAT_BUSY p = 1) :
    d.eyeCmd m p v = d.eyeEnd p true := by
  unfold Dev.eyeCmd
  simp only [hbusy, hgo, hstop, Bool.true_and, Bool.false_eq_true, if_false, beq_self_eq_true, if_true]

end

section
variable {s : State} {m : Master} {p : Nat} {v : W32}

/-- What of the package a write of PHY_EYE_CMD leads to, where nothing waits. -/
theorem eyeCmd_leads (hp : 0xA0 ≤ p) (hp2 : p < 0xBC) (hopen : pageOpen s.dev m p) (hown : s.dev.owns m p = true) (hq : quiet s.dev) {n : Nat}
    (hn : n < 2 ^ 32) : ∃ e : Dev, e.rest = s.dev.rest ∧ e.eyes = s.dev.eyes ∧ (∀ f : Fld, f.at 0 ≠ 0x210 → e.rdp f p = s.dev.rdp f p) ∧
      ((e.eyeCmd m p n).rest = e.rest → regOut m (p * 0x1000 + 0x210) 4 n s = .next (withPkg s (s.store, e.eyeCmd m p n))) := by
  obtain ⟨e, hwrite, hrest, heyes, hword⟩ := eyeCmd_written hp hp2 hopen hown hn
  refine ⟨e, hrest, heyes, fun f hf => ?_, fun hkeep => hwrite.trans ?_⟩
  · unfold Dev.rdp Dev.rdpi
    rw [hword (f.addr p 0) fun h => hf (Nat.add_left_cancel h)]
  · rw [settle_quiet (x := (s.store, e.eyeCmd m p n)) (quiet_rest (hkeep.trans hrest) hq)]

theorem eyeScanGo_starts (hp : 0xA0 ≤ p) (hp2 : p < 0xBC) (hopen : pageOpen s.dev m p) (hown : s.dev.owns m p = true) (hq : quiet s.dev)
    (hidle : s.dev.rdp F.PHY_EYE_STAT_BUSY p = 0) (hv : s.dev.rdp F.PHY_EYE_CFG1_V_FIRST p ≤ s.dev.rdp F.PHY_EYE_CFG1_V_LAST p)
    (hph : s.dev.rdp F.PHY_EYE_CFG1_P_FIRST p ≤ s.dev.rdp F.PHY_EYE_CFG1_P_LAST p) :
    ∃ t, exec (.eyeScanGo m p v) s = .next t ∧ t.store = s.store ∧ t.dev.rdp F.PHY_EYE_STAT_BUSY p = 1 ∧
      t.dev.rdp F.PHY_EYE_STAT_POINTS_DONE p = 0 ∧ t.dev.eyes = s.dev.eyes ++ [s.dev.eyeOf p] := by
  obtain ⟨e, hrest, heyes, hrd, hwrite⟩ := eyeCmd_leads hp hp2 hopen hown hq (putBit_top_lt true v.isLt (i := 31) (by decide))
  have hstart := Dev.eyeCmd_starts (d := e) (m := m) (p := p) (bit_putBit_same v.toNat 31 true) ((hrd _ (by decide)).trans hidle)
    (by rw [hrd _ (by decide), hrd _ (by decide)]; exact hv) (by rw [hrd _ (by decide), hrd _ (by decide)]; exact hph)
  obtain ⟨hbusy, hdone, -, hkeep, -⟩ := e.eyeBegins_does p
  have hexec := hwrite (by rw [hstart]; exact hkeep)
  rw [hstart, Dev.eyeOf_congr (d := s.dev) fun f hf => hrd f (by omega), heyes] at hexec
  exact ⟨_, hexec, rfl, hbusy, hdone, rfl⟩

theorem eyeScanGo_dropped (hp : 0xA0 ≤ p) (hp2 : p < 0xBC) (hopen : pageOpen s.dev m p) (hown : s.dev.owns m p = true) (hq : quiet s.dev)
    (hbusy : s.dev.rdp F.PHY_EYE_STAT_BUSY p = 1) (hv : bit v.toNat 0 = false) :
    ∃ t, exec (.eyeScanGo m p v) s = .next t ∧ t.store = s.store ∧ t.dev.eyes = s.dev.eyes ∧ t.dev.rdp F.PHY_EYE_STAT_BUSY p = 1 ∧
      t.dev.rdp F.BLK_ERR_CNT_ERRORS p = min (s.dev.rdp F.BLK_ERR_CNT_ERRORS p + 1) 0xFFFF := by
  obtain ⟨e, hrest, heyes, hrd, hwrite⟩ := eyeCmd_leads hp hp2 hopen hown hq (putBit_top_lt true v.isLt (i := 31) (by decide))
  have hdrop := Dev.eyeCmd_busy (d := e) (m := m) (p := p) (bit_putBit_same v.toNat 31 true)
    ((bit_putBit_ne v.toNat _ _ true (by decide)).trans hv) ((hrd _ (by decide)).trans hbusy)
  have hexec := hwrite (by rw [hdrop]; exact Dev.rest_capture ..)
  rw [hdrop] at hexec
  refine ⟨_, hexec, rfl, ?_, ?_, ?_⟩
  · exact heyes ▸ (by simp [Dev.dropWrite, withPkg])
  · have hstat : F.PHY_EYE_STAT_BUSY.addr p 0 = p * 0x1000 + 0x214 := rfl
    refine Eq.trans ?_ ((hrd _ (by decide)).trans hbusy)
    exact congrArg (bits · 0 1) (Dev.word_capture e p _ _ _ _ _ _ (by rw [hstat]; omega) (by rw [hstat]; omega))
  · rw [← hrd F.BLK_ERR_CNT_ERRORS (by decide)]
    exact Dev.errors_capture e (by omega) ..

theorem eyeScanStop_aborts (hp : 0xA0 ≤ p) (hp2 : p < 0xBC) (hopen : pageOpen s.dev m p) (hown : s.dev.owns m p = true) (hq : quiet s.dev)
    (hbusy : s.dev.rdp F.PHY_EYE_STAT_BUSY p = 1) (hv : bit v.toNat 31 = false) :
    ∃ t, exec (.eyeScanStop m p v) s = .next t ∧ t.store = s.store ∧ t.dev.rdp F.PHY_EYE_STAT_BUSY p = 0 ∧
      t.dev.rdp F.PHY_EYE_STAT_ABORTED p = 1 ∧ bit (t.dev.word (p * 0x1000 + 0x14)) 0 = true ∧ ∀ e ∈ t.dev.eyes, e.page ≠ p := by
  obtain ⟨e, hrest, heyes, hrd, hwrite⟩ := eyeCmd_leads hp hp2 hopen hown hq (putBit_top_lt true v.isLt (i := 0) (by decide))
  have hstop := Dev.eyeCmd_stops (d := e) (m := m) (p := p) ((bit_putBit_ne v.toNat _ _ true (by decide)).trans hv) (bit_putBit_same v.toNat 0 true)
    ((hrd _ (by decide)).trans hbusy)
  obtain ⟨hb, hab, hisr, hleft, hkeep, -⟩ := e.eyeEnd_does p true
  have hexec := hwrite (by rw [hstop]; exact hkeep)
  rw [hstop] at hexec
  refine ⟨_, hexec, rfl, hb, hab, hisr, fun x hx => ?_⟩
  rw [show (withPkg s (s.store, e.eyeEnd p true)).dev.eyes = _ from hleft, List.mem_filter] at hx
  exact bne_iff_ne.1 hx.2

end

/-! ### A point of a scan -/

section
variable {d : Dev} {p errors compared : Nat} {e : Eye}

theorem Eye.ends_iff (e : Eye) : e.ends errors compared = true ↔
    ((compared = 2 ^ e.dwell ∧ errors ≤ e.limit ∨ errors = e.limit ∧ compared ≤ 2 ^ e.dwell) ∧ errors ≤ compared) := by
  simp only [Eye.ends, Bool.and_eq_true, Bool.or_eq_true, decide_eq_true_eq, beq_iff_eq]
  omega

/-- The record of a point goes to host memory, and POINTS_DONE counts it (R454). -/
def Dev.eyeSent (p errors compared : Nat) (e : Eye) (d : Dev) : Dev :=
  let base := d.rdp F.PHY_EYE_BASE_LO_BASE_LO p * 4096 + d.rdp F.PHY_EYE_BASE_HI_BASE_HI p * 2 ^ 32
  let d := d.hostWrite (base + (e.v * 128 + e.p) * 4) (natLE 4 (min errors 0xFFFF + (min (Nat.log2 compared) 40) * 2 ^ 16 + 2 ^ 31))
  d.wrp F.PHY_EYE_STAT_POINTS_DONE p (d.rdp F.PHY_EYE_STAT_POINTS_DONE p + 1)

theorem Dev.eyeSent_does (hperst : d.rd F.GLB_PIN_STAT_PERST = 0) :
    (d.eyeSent p errors compared e).eyes = d.eyes ∧
    (d.eyeSent p errors compared e).out = d.out ++ [.hostWrite (d.rdp F.PHY_EYE_BASE_LO_BASE_LO p * 4096 +
      d.rdp F.PHY_EYE_BASE_HI_BASE_HI p * 2 ^ 32 + (e.v * 128 + e.p) * 4)
      (natLE 4 (min errors 0xFFFF + (min (Nat.log2 compared) 40) * 2 ^ 16 + 2 ^ 31))] ∧
    (d.eyeSent p errors compared e).rdp F.PHY_EYE_STAT_POINTS_DONE p = (d.rdp F.PHY_EYE_STAT_POINTS_DONE p + 1) % 65536 := by
  refine ⟨?_, ?_, ?_⟩
  · unfold Dev.eyeSent
    simp only [Dev.wrp, Dev.wrpi_frame, Dev.hostWrite_frame]
  · exact Dev.hostWrite_leaves hperst ..
  · refine (Dev.rdpi_wrpi_same _ _ _ _ _ (by decide)).trans ?_
    have hregs : ∀ a v, (d.hostWrite a v).rdp F.PHY_EYE_STAT_POINTS_DONE p = d.rdp F.PHY_EYE_STAT_POINTS_DONE p := fun a v =>
      congrArg (bits · 16 16) (d.word_hostWrite a v _)
    rw [hregs]
    rfl

theorem Dev.eyePoint_none (h : d.eyes.find? (fun e => e.page == p) = none) : d.eyePoint p errors compared = d := by
  rw [Dev.eyePoint, h]

theorem Dev.eyePoint_goesOn (h : d.eyes.find? (fun e => e.page == p) = some e) (hends : e.ends errors compared = false) :
    d.eyePoint p errors compared = d := by
  unfold Dev.eyePoint
  simp only [h, hends, Bool.not_false, if_true]

/-- After a point the scan goes on with the next one, or is over. -/
theorem Dev.eyePoint_ends (h : d.eyes.find? (fun e => e.page == p) = some e) (hends : e.ends errors compared = true) :
    d.eyePoint p errors compared =
      if e.p < e.pLast then { d.eyeSent p errors compared e with
        eyes := mapFirst (fun x => x.page == p) (fun x => { x with p := x.p + 1 }) (d.eyeSent p errors compared e).eyes }
      else if e.v < e.vLast then { d.eyeSent p errors compared e with
        eyes := mapFirst (fun x => x.page == p) (fun x => { x with v := x.v + 1, p := x.pFirst }) (d.eyeSent p errors compared e).eyes }
      else (d.eyeSent p errors compared e).eyeEnd p false := by
  unfold Dev.eyePoint
  simp only [h, hends, Bool.not_true, Bool.false_eq_true, if_false]
  rfl

/-- The next point stands in the scan's place. -/
theorem Dev.find?_eyes_next (f : Eye → Eye) (hf : ∀ x, (f x).page = x.page) (h : d.eyes.find? (fun e => e.page == p) = some e) :
    (mapFirst (fun x => x.page == p) f d.eyes).find? (fun e => e.page == p) = some (f e) := by
  rw [List.find?_mapFirst (fun x hx => by rw [hf]; exact hx), h]
  rfl

end

theorem eyeScans : Said.EyeScans := by
  intro p s hp hp2
  refine ⟨fun m v hopen hown hq => ⟨fun hidle hv hph => ?_, fun hbusy hv => eyeScanGo_dropped hp hp2 hopen hown hq hbusy hv,
    fun hbusy hv => eyeScanStop_aborts hp hp2 hopen hown hq hbusy hv⟩, fun errors compared hrun => ⟨fun h => ?_, fun e h hno => ?_,
    fun e h hperst hlim hle => ?_⟩⟩
  · exact eyeScanGo_starts hp hp2 hopen hown hq hidle hv hph
  · refine (onDev_running hrun _).trans ?_
    rw [Dev.eyePoint_none h]
  · refine (onDev_running hrun _).trans ?_
    rw [Dev.eyePoint_goesOn h (by rw [← Bool.not_eq_true, Eye.ends_iff]; exact hno)]
  · have hends := Dev.eyePoint_ends h (e.ends_iff.2 ⟨hlim, hle⟩)
    obtain ⟨heyes, hout, hdone⟩ := Dev.eyeSent_does (p := p) (errors := errors) (compared := compared) (e := e) hperst
    have hexec := onDev_running hrun (Dev.eyePoint p errors compared)
    generalize s.dev.eyeSent p errors compared e = d at hends heyes hout hdone
    rw [hends] at hexec
    refine ⟨fun hnext => ?_, fun hlast hnext => ?_, fun hlast hlastv => ?_⟩
    · rw [if_pos hnext] at hexec
      exact ⟨_, hexec, rfl, hout, Dev.find?_eyes_next _ (fun _ => rfl) (heyes.symm ▸ h), hdone⟩
    · rw [if_neg (by omega), if_pos hnext] at hexec
      exact ⟨_, hexec, rfl, hout, Dev.find?_eyes_next _ (fun _ => rfl) (heyes.symm ▸ h)⟩
    · rw [if_neg (by omega), if_neg (by omega)] at hexec
      obtain ⟨hb, hab, hisr, -, -, hprefix⟩ := d.eyeEnd_does p false
      exact ⟨_, hexec, rfl, hprefix.subset (by rw [hout]; simp), hb, hab, hisr⟩

end Sys2Proof.Machine


/-!
SUPPORT. What is beside a link: the changes of the package that leave the registers of the port's link, what its ISR bits say, and what is
asked of its link, as they were (R431–R452).
-/
namespace Sys2Proof.Machine

/-- A word of a register, none of a header, in a page of a port or in RTE. -/
def linkSide (a : Nat) : Prop :=
  0x40 ≤ a % 0x1000 ∧ (a / 0x1000 = 0x61 ∨ (0x80 ≤ a / 0x1000 ∧ a / 0x1000 < 0x98) ∨ (0x10 ≤ a / 0x1000 ∧ a / 0x1000 < 0x14))

/-- From `d` to `e` the words `W` of link registers are as they were, no bit of BLK_ISR of port `p` was cleared, and `g` says the same of
its link. What has left has left. -/
structure Dev.Beside {α : Type} (W : Nat → Prop) (g : Link → α) (p : Nat) (d e : Dev) : Prop where
  word : ∀ a, linkSide a → W a → e.word a = d.word a
  isr : ∀ i < 32, bit (d.word (linkPage p * 0x1000 + 0x14)) i = true → bit (e.word (linkPage p * 0x1000 + 0x14)) i = true
  link : g (e.link p) = g (d.link p)
  len : e.links.length = d.links.length
  glb : e.glb = d.glb
  tide : e.tim.tide = d.tim.tide
  out : d.out <+: e.out
  rests : quiet d → quiet e

/-- Every word. -/
def anyWord : Nat → Prop := fun _ => True

namespace Dev.Beside
variable {α : Type} {W : Nat → Prop} {g : Link → α} {p : Nat}

theorem refl (d : Dev) : Beside W g p d d := ⟨fun _ _ _ => rfl, fun _ _ h => h, rfl, rfl, rfl, rfl, List.prefix_refl _, id⟩

theorem trans {d e f : Dev} (h : Beside W g p d e) (k : Beside W g p e f) : Beside W g p d f :=
  ⟨fun a ha hw => (k.word a ha hw).trans (h.word a ha hw), fun i hi hb => k.isr i hi (h.isr i hi hb), k.link.trans h.link, k.len.trans h.len,
    k.glb.trans h.glb, k.tide.trans h.tide, h.out.trans k.out, fun hq => k.rests (h.rests hq)⟩

theorem ite {d e f : Dev} {c : Prop} [Decidable c] (he : Beside W g p d e) (hf : Beside W g p d f) : Beside W g p d (if c then e else f) := by
  split
  · exact he
  · exact hf

theorem foldl {β : Type} {f : Dev → β → Dev} (h : ∀ (d : Dev) (x : β), Beside W g p d (f d x)) (l : List β) (d : Dev) :
    Beside W g p d (l.foldl f d) := by
  induction l generalizing d with
  | nil => exact refl d
  | cons x l ih => exact (h d x).trans (ih _)

/-- What is beside the link for more of its words, and for more of it. -/
theorem weaken {β : Type} {V : Nat → Prop} {k : Link → β} {d e : Dev} (h : Beside W g p d e) (hV : ∀ a, V a → W a)
    (hk : ∀ l l', g l = g l' → k l = k l') : Beside V k p d e :=
  ⟨fun a ha hv => h.word a ha (hV a hv), h.isr, hk _ _ h.link, h.len, h.glb, h.tide, h.out, h.rests⟩

/-- What keeps the registers and the links. -/
theorem of_regs {d e : Dev} (hregs : e.regs = d.regs) (hlinks : e.links = d.links) (hglb : e.glb = d.glb) (htide : e.tim.tide = d.tim.tide)
    (hout : d.out <+: e.out) (hrest : quiet d → quiet e) : Beside W g p d e :=
  ⟨fun a _ _ => Dev.word_congr hregs a, fun i _ hb => by rw [Dev.word_congr hregs]; exact hb, by rw [Dev.link, Dev.link, hlinks], by rw [hlinks],
    hglb, htide, hout, hrest⟩

end Dev.Beside

section
variable {α : Type} {W : Nat → Prop} {g : Link → α} {p : Nat} (d : Dev)

/-! ### Registers -/

/-- A word of no page of a link, or one that is not asked for, and none of BLK_ISR of the port. -/
theorem Dev.beside_setWord {a : Nat} (hW : linkSide a → ¬W a) (hisr : a ≠ linkPage p * 0x1000 + 0x14) (v : Nat) : Beside W g p d (d.setWord a v) :=
  ⟨fun b hb hw => Dev.word_setWord_ne _ _ (by rintro rfl; exact hW hb hw),
    fun i _ hb => by rw [Dev.word_setWord_ne _ _ (Ne.symm hisr)]; exact hb, rfl, rfl, rfl, rfl, List.prefix_refl _, quiet_rest rfl⟩

theorem linkPage_range (hp : p < 28) : linkPage p ≠ 0xC0 ∧ (0x10 ≤ linkPage p ∧ linkPage p < 0x14 ∨ 0x80 ≤ linkPage p ∧ linkPage p < 0x98) := by
  unfold linkPage
  split <;> omega

theorem Dev.beside_emit (e : Emit) : Beside W g p d (d.emit e) := .of_regs rfl rfl rfl rfl (d.out_emit e) (quiet_rest rfl)

theorem Dev.beside_count (q i k : Nat) : Beside W g p d (d.count q i k) :=
  .of_regs (by simp) (by simp) (by simp) (by simp) (by simp) (quiet_rest (d.rest_count q i k))

theorem Dev.beside_draw : Beside W g p d d.draw.2 := .of_regs rfl rfl rfl rfl (List.prefix_refl _) (quiet_rest rfl)

theorem Dev.beside_hostWrite (a : Nat) (v : List Byte) : Beside W g p d (d.hostWrite a v) :=
  .ite (d.beside_count ..) ((d.beside_count ..).trans (beside_emit ..))

theorem Dev.beside_msix (n : Nat) : Beside W g p d (d.msix n) := .ite (d.beside_count ..) ((d.beside_count ..).trans (beside_emit ..))

/-- A bit of BLK_ISR is set, and the page's message goes out. -/
theorem Dev.beside_event (q i : Nat) : Beside W g p d (d.event q i) := by
  have hlink : (d.event q i).link p = d.link p := by simp only [Dev.link, Dev.event_frame]
  refine ⟨fun a ha _ => ?_, fun j hj hb => ?_, congrArg g hlink, by simp, by simp, by simp, d.out_event q i, quiet_rest (d.rest_event q i)⟩
  · obtain ⟨ha, -⟩ := ha
    rw [Dev.word_event, if_neg (by omega)]
  · rw [Dev.word_event]
    split
    · rw [bit_mod _ hj]
      by_cases hij : j = i
      · subst hij
        rw [bit_putBit_same]
      · rw [bit_putBit_ne _ _ _ _ hij]
        exact hb
    · exact hb

/-- A register of page ERR. -/
theorem Dev.beside_wr_err (hp : p < 28) {f : Fld} (hpage : f.page = 0xC0) (hoff : f.at 0 < 0x1000) (v : Nat) : Beside W g p d (d.wr f v) := by
  obtain ⟨hne, -⟩ := linkPage_range hp
  refine d.beside_setWord (fun h _ => ?_) ?_ _
  · obtain ⟨-, h⟩ := h
    rw [Fld.addr, hpage] at h
    omega
  · rw [Fld.addr, hpage]
    omega

theorem Dev.beside_errLog (hp : p < 28) (q : Nat) : Beside W g p d (d.errLog q) := by
  have hwr : ∀ (e : Dev) {f : Fld} (v : Nat), f.page = 0xC0 → f.at 0 < 0x1000 → Beside W g p e (e.wr f v) := fun e _ v h k => e.beside_wr_err hp h k v
  refine .ite (.refl _) (.ite ?_ ((hwr _ _ rfl (by decide)).trans (beside_event ..)))
  exact ((d.beside_hostWrite ..).trans (hwr _ _ rfl (by decide))).trans (.ite (beside_msix ..) (.refl _))

/-- An error is captured in any page. -/
theorem Dev.beside_capture (hp : p < 28) (q : Nat) (c : ECls) (st code port det : Nat) : Beside W g p d (d.capture q c st code port det) := by
  have hword : ∀ (e : Dev) (k v : Nat), 0x20 ≤ k → k < 0x40 → Beside W g p e (e.setWord (q * 0x1000 + k) v) := fun e k v h1 h2 =>
    e.beside_setWord (fun h _ => by obtain ⟨h, -⟩ := h; omega) (by omega) v
  refine .trans (hword d 0x30 _ (by decide) (by decide)) (.ite (hword _ 0x20 _ (by decide) (by decide)) ?_)
  exact (((((hword _ 0x20 _ (by decide) (by decide)).trans (hword _ 0x24 _ (by decide) (by decide))).trans
    (hword _ 0x28 _ (by decide) (by decide))).trans (hword _ 0x2C _ (by decide) (by decide))).trans (beside_event ..)).trans
    (beside_errLog _ hp _)

theorem Dev.beside_corrected (q : Nat) : Beside W g p d (d.corrected q) :=
  d.beside_setWord (fun h _ => by
    obtain ⟨h, -⟩ := h
    have haddr : F.BLK_ERR_CNT_CORRECTED.addr q 0 = q * 0x1000 + 0x30 := rfl
    omega) (by
    have haddr : F.BLK_ERR_CNT_CORRECTED.addr q 0 = q * 0x1000 + 0x30 := rfl
    omega) _

/-- A register that is no link's. -/
theorem Dev.beside_wrp {f : Fld} {q : Nat} (hoff : 0x40 ≤ f.at 0) (hoff2 : f.at 0 < 0x1000)
    (hq : q ≠ 0x61 ∧ (q < 0x80 ∨ 0x98 ≤ q) ∧ (q < 0x10 ∨ 0x14 ≤ q)) (v : Nat) : Beside W g p d (d.wrp f q v) :=
  d.beside_setWord (fun h _ => by
    obtain ⟨-, h⟩ := h
    rw [Fld.addr] at h
    omega) (by
    rw [Fld.addr]
    omega) _

/-! ### Scans and tide time -/

theorem Dev.beside_eyeEnd {q : Nat} (hq : 0xA0 ≤ q) (ab : Bool) : Beside W g p d (d.eyeEnd q ab) := by
  have heyes : ∀ l, Beside W g p d { d with eyes := l } := fun l => .of_regs rfl rfl rfl rfl (List.prefix_refl _) (quiet_rest rfl)
  have hq' : q ≠ 0x61 ∧ (q < 0x80 ∨ 0x98 ≤ q) ∧ (q < 0x10 ∨ 0x14 ≤ q) := by omega
  exact (((heyes _).trans (beside_wrp _ (f := F.PHY_EYE_STAT_BUSY) (by decide) (by decide) hq' _)).trans
    (beside_wrp _ (f := F.PHY_EYE_STAT_ABORTED) (by decide) (by decide) hq' _)).trans (beside_event ..)

theorem phyPage_le (p : Nat) : 0xA0 ≤ phyPage p := by
  unfold phyPage
  split <;> omega

theorem Dev.beside_eyeAbort (q mask : Nat) : Beside W g p d (d.eyeAbort q mask) := .ite (d.beside_eyeEnd (phyPage_le q) true) (.refl d)

theorem Dev.beside_linkCount (q k n : Nat) : Beside W g p d (d.linkCount q k n) := d.beside_count ..

theorem Dev.beside_timeLinkDown (hp : p < 28) : Beside W g p d d.timeLinkDown :=
  .ite (((d.beside_wrp (f := F.TIME_STAT_STATE) (q := 2) (by decide) (by decide) (by decide) _).trans (beside_capture _ hp ..)).trans
    (beside_event ..)) (.refl d)

theorem Dev.beside_timeLinkUp : Beside W g p d d.timeLinkUp := by
  have htim : ∀ (e : Dev) (t : Tim), t.tide = e.tim.tide → Beside W g p e { e with tim := t } := fun e t h =>
    .of_regs rfl rfl rfl h (List.prefix_refl _) (quiet_rest rfl)
  exact .ite ((d.beside_wrp (f := F.TIME_STAT_STATE) (q := 2) (by decide) (by decide) (by decide) _).trans
    (htim _ _ (by simp))) (.refl d)

/-! ### The link -/

/-- What of a link its lanes' transmitters and the times of SLACK leave aside. -/
def Link.bare (l : Link) : Link := { l with lanes := [], blockAt := 0, slackAt := [] }

theorem Link.of_bare {β : Type} (k : Link → β) (hk : ∀ l, k l.bare = k l) {l l' : Link} (h : l.bare = l'.bare) : k l = k l' :=
  (hk l).symm.trans ((congrArg k h).trans (hk l'))

/-- And the slots to return. -/
def Link.core (l : Link) : Link := { l.bare with owed := [] }

theorem Dev.link_setLink {l : Link} (hp : p < d.links.length) : (d.setLink p l).link p = l := by
  rw [Dev.link, Dev.setLink]
  simp only [nth_modAt, hp, and_self, if_true]

/-- The link as its view has it. -/
theorem Dev.beside_setLink {l : Link} (hp : p < d.links.length) (h : g l = g (d.link p)) : Beside W g p d (d.setLink p l) :=
  ⟨fun _ _ _ => rfl, fun _ _ hb => hb, by rw [link_setLink _ hp]; exact h, length_modAt .., rfl, rfl, List.prefix_refl _, quiet_rest rfl⟩

/-- A link changes where its view does not see it. -/
theorem Dev.beside_modAt {f : Link → Link} (h : ∀ l, g (f l) = g l) (q : Nat) : Beside W g p d { d with links := modAt f d.links q } :=
  ⟨fun _ _ _ => rfl, fun _ _ hb => hb, nth_modAt_keep g h _ _ _ _, length_modAt .., rfl, rfl, List.prefix_refl _, quiet_rest rfl⟩

theorem Dev.beside_sendBlock (hg : ∀ l, g l.bare = g l) (block q : Nat) : Beside W g p d (d.sendBlock q block) := by
  unfold Dev.sendBlock
  dsimp only
  split
  · exact .refl d
  · refine .trans (d.beside_modAt (f := fun l => { l with lanes := _, blockAt := _ }) (fun l => ?_) q) (.of_regs rfl rfl rfl rfl (List.prefix_refl _) (quiet_rest rfl))
    exact (hg _).symm.trans (hg l)

theorem Dev.beside_sendFlit (hg : ∀ l, g l.bare = g l) (q : Nat) (bytes : List Byte) : Beside W g p d (d.sendFlit q bytes) :=
  (d.beside_emit _).trans (.foldl (fun d _ => d.beside_sendBlock hg _ q) _ _)

/-- The switch leaves a link but for the slots to return, which it frees (R449). -/
theorem beside_switch (hp : p < 28) (hg : ∀ l, g l.core = g l) : SwitchKeeps (Dev.Beside W g p) where
  refl := .refl
  trans h k := h.trans k
  swc _ _ := .of_regs rfl rfl rfl rfl (List.prefix_refl _) (quiet_rest rfl)
  count d q i k := d.beside_count q i k
  event d := d.beside_event 0x69 0
  seq d s v hs := by
    obtain ⟨hne, hpage⟩ := linkPage_range hp
    have haddr : F.MIR_SESS_SEQ_SEQ.addr F.MIR_SESS_SEQ_SEQ.page s = 0x69 * 0x1000 + F.MIR_SESS_SEQ_SEQ.at s := rfl
    have hat : F.MIR_SESS_SEQ_SEQ.at s < 0x1000 ∧ 0x40 ≤ F.MIR_SESS_SEQ_SEQ.at s := by
      simp only [Fld.at, F.MIR_SESS_SEQ_SEQ]
      omega
    refine d.beside_setWord (fun h _ => ?_) ?_ _
    · obtain ⟨-, h⟩ := h
      rw [haddr] at h
      omega
    · rw [haddr]
      omega
  owed d q f := d.beside_modAt (f := fun l => { l with owed := f l.owed }) (fun l => (hg _).symm.trans (hg l)) q

theorem Dev.Beside.relink {d e : Dev} (h : Beside W (fun _ => ()) p d e) (hg : g (e.link p) = g (d.link p)) : Beside W g p d e :=
  ⟨h.word, h.isr, hg, h.len, h.glb, h.tide, h.out, h.rests⟩

/-! ### A flit leaves -/

/-- The grants that a sequenced flit returns (R449). -/
def Link.grants (l : Link) (kind : Nat) : List (Nat × Nat) := if kind == 1 then [] else (l.owed.take 2).map (fun g => (g.1, min g.2 255))

/-- KIND of a flit that leaves: IDLE where the replay buffer is full (R450). -/
def Link.kind (l : Link) (kind : Nat) : Nat := if l.room then kind else 1

/-- The flit of KIND `kind` that leaves. -/
def Link.flit (l : Link) (kind start : Nat) (slots : List Byte) : Flit :=
  { seq := if kind == 1 then l.txSeq else (l.txSeq + 1) % 4096, kind := kind, start := if kind == 1 then 15 else start
    grants := (l.grants kind).map (fun g => (g.1 / 4, g.1 % 4, g.2)), slots := if kind == 1 then [] else slots }

/-- The link once it has left, but for the lane map. -/
def Link.sent (l : Link) (now kind start : Nat) (slots : List Byte) : Link :=
  { l with
    txSeq := (l.flit kind start slots).seq, flitsSinceAck := 0
    buffer := if kind == 1 then l.buffer else l.buffer ++ [l.flit kind start slots]
    owed := (l.grants kind).foldl (fun t g => nset t g.1 (nget t g.1 - g.2)) l.owed
    lent := (l.grants kind).foldl (fun t g => nset t g.1 (nget t g.1 + g.2)) l.lent
    progressAt := if l.txSeq = l.acked then now else l.progressAt }

/-- The transmitter takes the lane map of its WIDTH_ACK after the flit of that number (R441). -/
def Link.switched (l : Link) (kind seq : Nat) : Link :=
  match l.txSwitch with
  | some w => if !(kind == 1) && w.1 == seq then { l with txMask := w.2, txSwitch := none } else l
  | none => l

/-- The link once a flit has left. -/
def Link.sends (l : Link) (now kind start : Nat) (slots : List Byte) : Link :=
  (l.sent now (l.kind kind) start slots).switched (l.kind kind) (l.flit (l.kind kind) start slots).seq

/-- The lane map is switched on port `p`. -/
def Dev.switchMap (p kind seq : Nat) (w : Option (Nat × Nat)) (d : Dev) : Dev :=
  match w with
  | some w => if !(kind == 1) && w.1 == seq then { d with links := modAt (fun l => { l with txMask := w.2, txSwitch := none }) d.links p } else d
  | none => d

theorem Dev.flitOut_eq (p kind : Nat) (nak : Bool) (start : Nat) (slots : List Byte) (d : Dev) :
    d.flitOut p kind nak start slots =
      (((d.setLink p ((d.link p).sent d.tim.tide ((d.link p).kind kind) start slots)).sendFlit p
        (((d.link p).flit ((d.link p).kind kind) start slots).bytes (d.link p).rxSeq nak)).linkCount p 0 1).switchMap p ((d.link p).kind kind)
        ((d.link p).flit ((d.link p).kind kind) start slots).seq (d.link p).txSwitch := rfl

theorem Dev.out_sendFlit (p : Nat) (bytes : List Byte) (d : Dev) : (d.sendFlit p bytes).out = d.out ++ [.flit p bytes] := by
  have hblock : ∀ (e : Dev) i, (e.sendBlock p (leNat (sliceBytes bytes (32 * i) 32))).out = e.out := by
    intro e i
    unfold Dev.sendBlock
    dsimp only
    split <;> rfl
  exact List.foldl_keeps (g := Dev.out) hblock _ _

theorem Dev.switchMap_does (hp : p < d.links.length) (k q : Nat) (w : Option (Nat × Nat)) (hw : (d.link p).txSwitch = w) :
    (d.switchMap p k q w).out = d.out ∧ (d.switchMap p k q w).link p = (d.link p).switched k q ∧ Beside W (fun _ => ()) p d (d.switchMap p k q w) := by
  subst hw
  unfold Dev.switchMap Link.switched
  split
  · split
    · refine ⟨rfl, ?_, d.beside_modAt (f := fun l => { l with txMask := _, txSwitch := none }) (fun _ => rfl) p⟩
      rw [Dev.link, nth_modAt, if_pos ⟨rfl, hp⟩]
      rfl
    · exact ⟨rfl, rfl, .refl d⟩
  · exact ⟨rfl, rfl, .refl d⟩

theorem Link.switched_bare {l l' : Link} (h : l.bare = l'.bare) (k q : Nat) : (l.switched k q).bare = (l'.switched k q).bare := by
  unfold Link.switched
  rw [Link.of_bare Link.txSwitch (fun _ => rfl) h]
  split
  · split
    · exact Link.of_bare (fun x : Link => ({ x with txMask := _, txSwitch := none } : Link).bare) (fun _ => rfl) h
    · exact h
  · exact h

/-- What has left, and the link of the port. -/
theorem Dev.flitOut_does (hp : p < d.links.length) (kind : Nat) (nak : Bool) (start : Nat) (slots : List Byte) :
    (d.flitOut p kind nak start slots).out = d.out ++ [.flit p (((d.link p).flit ((d.link p).kind kind) start slots).bytes (d.link p).rxSeq nak)] ∧
    ((d.flitOut p kind nak start slots).link p).bare = ((d.link p).sends d.tim.tide kind start slots).bare ∧
    Beside W (fun _ => ()) p d (d.flitOut p kind nak start slots) := by
  rw [Dev.flitOut_eq]
  generalize hf : ((d.link p).flit ((d.link p).kind kind) start slots).bytes (d.link p).rxSeq nak = bytes
  have hset := d.beside_setLink (W := W) (g := fun _ => ()) (l := (d.link p).sent d.tim.tide ((d.link p).kind kind) start slots) hp rfl
  have hlink := d.link_setLink (l := (d.link p).sent d.tim.tide ((d.link p).kind kind) start slots) hp
  have hout : (d.setLink p ((d.link p).sent d.tim.tide ((d.link p).kind kind) start slots)).out = d.out := rfl
  generalize d.setLink p ((d.link p).sent d.tim.tide ((d.link p).kind kind) start slots) = a at hset hlink hout
  have hsent := ((a.beside_sendFlit (W := W) (g := Link.bare) (p := p) (fun _ => rfl) p bytes).trans (beside_linkCount _ p 0 1))
  have hsout : ((a.sendFlit p bytes).linkCount p 0 1).out = d.out ++ [.flit p bytes] := by
    rw [← hout, ← Dev.out_sendFlit]
    simp [Dev.linkCount]
  generalize (a.sendFlit p bytes).linkCount p 0 1 = b at hsent hsout
  have hbare : (b.link p).bare = ((d.link p).sent d.tim.tide ((d.link p).kind kind) start slots).bare := by rw [hsent.link, hlink]
  have hsw : (b.link p).txSwitch = (d.link p).txSwitch := (Link.of_bare Link.txSwitch (fun _ => rfl) hbare).trans rfl
  have hlen : p < b.links.length := by rw [hsent.len, hset.len]; exact hp
  obtain ⟨hwout, hwlink, hwbeside⟩ := b.switchMap_does (W := W) hlen ((d.link p).kind kind)
    ((d.link p).flit ((d.link p).kind kind) start slots).seq (d.link p).txSwitch hsw
  refine ⟨hwout.trans hsout, ?_, hset.trans ((hsent.weaken (fun _ h => h) fun _ _ _ => rfl).trans hwbeside)⟩
  rw [hwlink]
  exact Link.switched_bare hbare _ _

theorem Dev.beside_flitOut (hp : p < d.links.length) (hg : ∀ l, g l.bare = g l) {kind start : Nat} {slots : List Byte}
    (hs : ∀ (l : Link) now, g (l.sends now kind start slots) = g l) (nak : Bool) : Beside W g p d (d.flitOut p kind nak start slots) := by
  obtain ⟨-, hlink, h⟩ := d.flitOut_does (W := W) hp kind nak start slots
  exact h.relink ((hg _).symm.trans ((congrArg g hlink).trans ((hg _).trans (hs _ _))))

end

end Sys2Proof.Machine


/-!
SUPPORT. The status registers of a link, fabric or attach: its state, width and lanes (R439, R455, R459, R460).
-/
namespace Sys2Proof.Machine

/-- Fields of which neither takes a bit of the other. -/
abbrev Fld.disjoint (f f' : Fld) : Prop := f.at 0 ≠ f'.at 0 ∨ f.lo + f.w ≤ 32 ∧ (f.lo + f.w ≤ f'.lo ∨ f'.lo + f'.w ≤ f.lo)

/-- A word that holds no status of a link. -/
abbrev settingWord (a : Nat) : Prop := a % 0x1000 ≠ 0x104 ∧ a % 0x1000 ≠ 0x108 ∧ a % 0x1000 ≠ 0x304 ∧ a % 0x1000 ≠ 0x308 ∧ a % 0x1000 ≠ 0x31C

section
variable {α : Type} {W : Nat → Prop} {k : Link → α} {p v : Nat} {f g f' g' : Fld} (d : Dev)

/-! ### One field -/

theorem Dev.lrd_lwr_same (hf : p < 24 → v < 2 ^ f.w ∧ f.lo + f.w ≤ 32) (hg : 24 ≤ p → v < 2 ^ g.w ∧ g.lo + g.w ≤ 32) : (d.lwr p f g v).lrd p f g = v := by
  unfold Dev.lrd Dev.lwr
  split
  · next h => exact (Dev.rdpi_wrpi_same _ _ _ _ _ (hf h).2).trans (Nat.mod_eq_of_lt (hf h).1)
  · next h => exact (Dev.rdpi_wrpi_same _ _ _ _ _ (hg (by omega)).2).trans (Nat.mod_eq_of_lt (hg (by omega)).1)

theorem Dev.lrd_lwr_ne (hf : f.disjoint f') (hg : g.disjoint g') : (d.lwr p f' g' v).lrd p f g = d.lrd p f g := by
  have hne : ∀ (f f' : Fld), f.disjoint f' → (d.wrp f' (linkPage p) v).rdp f (linkPage p) = d.rdp f (linkPage p) := by
    intro f f' h
    refine Dev.rdpi_wrpi_ne _ _ _ _ _ _ _ _ (h.imp_left fun h => Fld.addr_ne h _)
  unfold Dev.lrd Dev.lwr
  split
  · exact hne f f' hf
  · exact hne g g' hg

/-- A field of a word that stands as it was. -/
theorem Dev.Beside.lrd {d e : Dev} (h : Beside W k p d e) (hp : p < 28) (hf : 0x40 ≤ f.at 0 ∧ f.at 0 < 0x1000) (hg : 0x40 ≤ g.at 0 ∧ g.at 0 < 0x1000)
    (hW : p < 24 → W (f.addr (linkPage p) 0)) (hW' : 24 ≤ p → W (g.addr (linkPage p) 0)) : e.lrd p f g = d.lrd p f g := by
  obtain ⟨-, hpage⟩ := linkPage_range hp
  have hside : ∀ f : Fld, 0x40 ≤ f.at 0 ∧ f.at 0 < 0x1000 → linkSide (f.addr (linkPage p) 0) := fun f hf => by
    rw [linkSide, Fld.addr]
    omega
  unfold Dev.lrd Dev.rdp Dev.rdpi
  split
  · next h24 => rw [h.word _ (hside f hf) (hW h24)]
  · next h24 => rw [h.word _ (hside g hg) (hW' (by omega))]

theorem Dev.beside_lwr (hp : p < 28) (hf : f.at 0 < 0x1000 ∧ f.at 0 ≠ 0x14) (hg : g.at 0 < 0x1000 ∧ g.at 0 ≠ 0x14)
    (hW : p < 24 → ¬W (f.addr (linkPage p) 0)) (hW' : 24 ≤ p → ¬W (g.addr (linkPage p) 0)) (v : Nat) : Beside W k p d (d.lwr p f g v) := by
  have hset : ∀ f : Fld, f.at 0 < 0x1000 ∧ f.at 0 ≠ 0x14 → ¬W (f.addr (linkPage p) 0) → Beside W k p d (d.wrp f (linkPage p) v) := fun f hf hW =>
    d.beside_setWord (fun _ => hW) (by rw [Fld.addr]; omega) _
  unfold Dev.lwr
  split
  · next h => exact hset f hf (hW h)
  · next h => exact hset g hg (hW' (by omega))

theorem Dev.lwr_frame : (d.lwr p f g v).links = d.links ∧ (d.lwr p f g v).out = d.out ∧ (d.lwr p f g v).tim = d.tim ∧ (d.lwr p f g v).eyes = d.eyes ∧
    (d.lwr p f g v).glb = d.glb ∧ (d.lwr p f g v).pwr = d.pwr ∧ (d.lwr p f g v).rest = d.rest := by
  unfold Dev.lwr
  split
  · exact ⟨rfl, rfl, rfl, rfl, rfl, rfl, rfl⟩
  · exact ⟨rfl, rfl, rfl, rfl, rfl, rfl, rfl⟩

theorem Dev.link_lwr (q : Nat) : (d.lwr p f g v).link q = d.link q := by rw [Dev.link, (d.lwr_frame).1, Dev.link]

theorem Dev.lrd_setLink (q : Nat) (l : Link) : (d.setLink q l).lrd p f g = d.lrd p f g := rfl

/-- A status register of the link. -/
theorem Dev.beside_status (hp : p < 28) (hf : f.at 0 ∈ [0x104, 0x108]) (hg : g.at 0 ∈ [0x304, 0x308, 0x31C]) (v : Nat) :
    Beside settingWord k p d (d.lwr p f g v) := by
  have hno : ∀ f : Fld, f.at 0 ∈ [0x104, 0x108, 0x304, 0x308, 0x31C] → f.at 0 < 0x1000 ∧ f.at 0 ≠ 0x14 ∧ ¬settingWord (f.addr (linkPage p) 0) := by
    intro f hf
    simp only [List.mem_cons, List.not_mem_nil, or_false] at hf
    rw [settingWord, Fld.addr]
    omega
  have hf' := hno f (by simp only [List.mem_cons, List.not_mem_nil, or_false] at hf ⊢; omega)
  have hg' := hno g (by simp only [List.mem_cons, List.not_mem_nil, or_false] at hg ⊢; omega)
  exact d.beside_lwr hp ⟨hf'.1, hf'.2.1⟩ ⟨hg'.1, hg'.2.1⟩ (fun _ => hf'.2.2) (fun _ => hg'.2.2) v

/-! ### Masks of lanes -/

theorem allLanes_lt (hp : p < 28) {f g : Fld} (hf : f.w = 8) (hg : g.w = 16) {v : Nat} (hv : v ≤ allLanes p) (hlo : f.lo + 8 ≤ 32 ∧ g.lo + 16 ≤ 32) :
    (p < 24 → v < 2 ^ f.w ∧ f.lo + f.w ≤ 32) ∧ (24 ≤ p → v < 2 ^ g.w ∧ g.lo + g.w ≤ 32) := by
  unfold allLanes laneCount at hv
  rw [hf, hg]
  refine ⟨fun h => ?_, fun h => ?_⟩
  · rw [if_pos h] at hv
    omega
  · rw [if_neg (by omega)] at hv
    omega

theorem maskMinus_le (a b : Nat) : maskMinus a b ≤ a := Nat.sub_le ..

/-! ### SLACK -/

theorem Dev.setSlack_does (hp : p < 28) (hlen : p < d.links.length) {mask : Nat} (hmask : mask ≤ allLanes p) :
    (d.setSlack p mask).out = d.out ∧ (d.setSlack p mask).eyes = d.eyes ∧ (d.setSlack p mask).slackLanes p = mask ∧
    (∀ f g : Fld, f.disjoint F.PRT_STAT_SLACK_LANES → g.disjoint F.LNDL_LANES_SLACK_LANES → (d.setSlack p mask).lrd p f g = d.lrd p f g) ∧
    Beside settingWord Link.bare p d (d.setSlack p mask) := by
  unfold Dev.setSlack
  dsimp only
  have hset := d.beside_setLink (W := settingWord) (g := Link.bare) (l := { d.link p with
    slackAt := (lanesOf (maskMinus mask (d.slackLanes p))).foldl (fun t i => nset t i (d.tim.tide + 1)) (d.link p).slackAt }) hlen rfl
  generalize hl : ({ d.link p with
    slackAt := (lanesOf (maskMinus mask (d.slackLanes p))).foldl (fun t i => nset t i (d.tim.tide + 1)) (d.link p).slackAt } : Link) = l at hset ⊢
  have hmask' := allLanes_lt hp (f := F.PRT_STAT_SLACK_LANES) (g := F.LNDL_LANES_SLACK_LANES) rfl rfl hmask (by decide)
  obtain ⟨-, hout, -, heyes, -⟩ := (d.setLink p l).lwr_frame (p := p) (f := F.PRT_STAT_SLACK_LANES) (g := F.LNDL_LANES_SLACK_LANES) (v := mask)
  refine ⟨hout.trans rfl, heyes.trans rfl, Dev.lrd_lwr_same _ hmask'.1 hmask'.2, fun f g hf hg => ?_, hset.trans ?_⟩
  · exact (Dev.lrd_lwr_ne _ hf hg).trans (d.lrd_setLink ..)
  · exact Dev.beside_status _ hp (by decide) (by decide) mask

theorem Dev.eyeAbort_none (h : ∀ e ∈ d.eyes, e.page ≠ phyPage p) (mask : Nat) : d.eyeAbort p mask = d := by
  unfold Dev.eyeAbort
  rw [if_neg]
  simp only [List.any_eq_true, Bool.and_eq_true, beq_iff_eq, not_exists, not_and]
  exact fun e he hpage => absurd hpage (h e he)

/-! ### Width and lane map -/

/-- Fields that the lane map leaves: what shares no bit with WIDTH, LANE_MAP and SLACK_LANES. -/
abbrev besideMap (f g : Fld) : Prop :=
  f.disjoint F.PRT_STAT_SLACK_LANES ∧ g.disjoint F.LNDL_LANES_SLACK_LANES ∧ f.disjoint F.PRT_STAT_WIDTH ∧ g.disjoint F.LNDL_STAT_WIDTH ∧
  f.disjoint F.PRT_STAT_LANE_MAP ∧ g.disjoint F.LNDL_STAT_LANE_MAP ∧ (0x40 ≤ f.at 0 ∧ f.at 0 < 0x1000) ∧ (0x40 ≤ g.at 0 ∧ g.at 0 < 0x1000)

theorem Dev.lrd_any {d e : Dev} (hp : p < 28) (h : Beside anyWord k p d e) (hf : 0x40 ≤ f.at 0 ∧ f.at 0 < 0x1000)
    (hg : 0x40 ≤ g.at 0 ∧ g.at 0 < 0x1000) : e.lrd p f g = d.lrd p f g :=
  h.lrd hp hf hg (fun _ => trivial) fun _ => trivial

theorem laneCount_lt (hp : p < 28) {w : Nat} (hw : w ≤ laneCount p) : (p < 24 → w < 2 ^ F.PRT_STAT_WIDTH.w ∧ F.PRT_STAT_WIDTH.lo + F.PRT_STAT_WIDTH.w ≤ 32) ∧
    (24 ≤ p → w < 2 ^ F.LNDL_STAT_WIDTH.w ∧ F.LNDL_STAT_WIDTH.lo + F.LNDL_STAT_WIDTH.w ≤ 32) := by
  unfold laneCount at hw
  refine ⟨fun h => ⟨?_, by decide⟩, fun h => ⟨?_, by decide⟩⟩
  · rw [if_pos h] at hw
    exact hw.trans_lt (by decide)
  · rw [if_neg (by omega)] at hw
    exact hw.trans_lt (by decide)

theorem Dev.setMap_does (hp : p < 28) (hlen : p < d.links.length) {w mask : Nat} (hw : w ≤ laneCount p) (hmask : mask ≤ allLanes p) :
    (d.setMap p w mask).linkWidth p = w ∧ (d.setMap p w mask).laneMap p = mask ∧ (d.setMap p w mask).slackLanes p = maskMinus (allLanes p) mask ∧
    (∀ f g : Fld, besideMap f g → (d.setMap p w mask).lrd p f g = d.lrd p f g) ∧ Beside settingWord Link.bare p d (d.setMap p w mask) ∧
    ((∀ e ∈ d.eyes, e.page ≠ phyPage p) → (d.setMap p w mask).out = d.out) := by
  obtain ⟨hsout, hseyes, hsslack, hslrd, hsbeside⟩ := d.setSlack_does hp hlen (mask := maskMinus (allLanes p) mask) (maskMinus_le ..)
  have heye := (d.setSlack p (maskMinus (allLanes p) mask)).beside_eyeAbort (W := anyWord) (g := Link.bare) (p := p) p (maskMinus (allLanes p) mask)
  have hquiet : (∀ e ∈ d.eyes, e.page ≠ phyPage p) → ((d.setSlack p (maskMinus (allLanes p) mask)).eyeAbort p (maskMinus (allLanes p) mask)).out = d.out :=
    fun h => by rw [Dev.eyeAbort_none _ (by rw [hseyes]; exact h), hsout]
  unfold Dev.setMap
  dsimp only
  have hlanes := allLanes_lt hp (f := F.PRT_STAT_LANE_MAP) (g := F.LNDL_STAT_LANE_MAP) rfl rfl hmask (by decide)
  have hwidth := laneCount_lt hp hw
  generalize d.setSlack p (maskMinus (allLanes p) mask) = a at hsslack hslrd hsbeside heye hquiet
  generalize a.eyeAbort p (maskMinus (allLanes p) mask) = b at heye hquiet
  have hb1 : Beside settingWord Link.bare p b (b.lwr p F.PRT_STAT_WIDTH F.LNDL_STAT_WIDTH w) := Dev.beside_status _ hp (by decide) (by decide) w
  have hb2 : Beside settingWord Link.bare p (b.lwr p F.PRT_STAT_WIDTH F.LNDL_STAT_WIDTH w)
      ((b.lwr p F.PRT_STAT_WIDTH F.LNDL_STAT_WIDTH w).lwr p F.PRT_STAT_LANE_MAP F.LNDL_STAT_LANE_MAP mask) :=
    Dev.beside_status _ hp (by decide) (by decide) mask
  refine ⟨?_, Dev.lrd_lwr_same _ hlanes.1 hlanes.2, ?_, fun f g h => ?_, ?_, fun h => ?_⟩
  · exact (Dev.lrd_lwr_ne _ (by decide) (by decide)).trans (Dev.lrd_lwr_same _ hwidth.1 hwidth.2)
  · refine (Dev.lrd_lwr_ne _ (by decide) (by decide)).trans ((Dev.lrd_lwr_ne _ (by decide) (by decide)).trans ?_)
    exact (Dev.lrd_any hp heye (by decide) (by decide)).trans hsslack
  · obtain ⟨hfs, hgs, hfw, hgw, hfm, hgm, hf, hg⟩ := h
    exact (Dev.lrd_lwr_ne _ hfm hgm).trans ((Dev.lrd_lwr_ne _ hfw hgw).trans ((Dev.lrd_any hp heye hf hg).trans (hslrd f g hfs hgs)))
  · exact hsbeside.trans ((heye.weaken (fun _ _ => trivial) fun _ _ h => h).trans (hb1.trans hb2))
  · exact ((b.lwr p F.PRT_STAT_WIDTH F.LNDL_STAT_WIDTH w).lwr_frame.2.1).trans ((b.lwr_frame.2.1).trans (hquiet h))

/-! ### The state of a link -/

/-- Fields that share no bit with STATE. -/
abbrev besideState (f g : Fld) : Prop := f.disjoint F.PRT_STAT_STATE ∧ g.disjoint F.LNDL_STAT_STATE

theorem Dev.linkState_eq : d.linkState p = d.lrd p F.PRT_STAT_STATE F.LNDL_STAT_STATE := by
  unfold Dev.linkState Dev.lrd linkPage
  split <;> rfl

theorem Dev.setLinkState_does (hp : p < 28) {st : Nat} (hst : st < 8) : (d.setLinkState p st).linkState p = st ∧
    (∀ f g : Fld, besideState f g → (d.setLinkState p st).lrd p f g = d.lrd p f g) ∧ Beside settingWord Link.bare p d (d.setLinkState p st) ∧
    (d.setLinkState p st).links = d.links ∧ (d.setLinkState p st).out = d.out ∧ (d.setLinkState p st).eyes = d.eyes := by
  obtain ⟨hlinks, hout, -, heyes, -⟩ := d.lwr_frame (p := p) (f := F.PRT_STAT_STATE) (g := F.LNDL_STAT_STATE) (v := st)
  refine ⟨?_, fun f g h => Dev.lrd_lwr_ne _ h.1 h.2, Dev.beside_status _ hp (by decide) (by decide) st, hlinks, hout, heyes⟩
  rw [Dev.linkState_eq]
  exact Dev.lrd_lwr_same _ (fun _ => ⟨hst, by decide⟩) fun _ => ⟨hst, by decide⟩

/-- The state of a link whose registers stand. -/
theorem Dev.Beside.linkState {d e : Dev} (h : Beside anyWord k p d e) (hp : p < 28) : e.linkState p = d.linkState p := by
  rw [Dev.linkState_eq, Dev.linkState_eq, Dev.lrd_any hp h (by decide) (by decide)]

end

end Sys2Proof.Machine


/-!
SUPPORT. O50, the first part: a link that goes DOWN, and one that enters DETECT (R436, R452, R621).
-/
namespace Sys2Proof.Machine

section
variable {p : Nat} (d : Dev)

/-! ### DETECT -/

theorem Dev.disabledLanes_le : d.disabledLanes p ≤ allLanes p := Nat.and_le_right

/-- A setting of the link, which no status register holds. -/
theorem Dev.lrd_setting {α : Type} {k : Link → α} {d e : Dev} {f g : Fld} (hp : p < 28) (h : Beside settingWord k p d e)
    (hf : f.at 0 ∈ [0x100, 0x10C, 0x110, 0x114, 0x118]) (hg : g.at 0 ∈ [0x300, 0x30C, 0x310, 0x314, 0x318]) : e.lrd p f g = d.lrd p f g := by
  simp only [List.mem_cons, List.not_mem_nil, or_false] at hf hg
  refine h.lrd hp (by omega) (by omega) (fun _ => ?_) fun _ => ?_
  · rw [settingWord, Fld.addr]
    omega
  · rw [settingWord, Fld.addr]
    omega

theorem Dev.disabledLanes_setting {α : Type} {k : Link → α} {d e : Dev} (hp : p < 28) (h : Beside settingWord k p d e) :
    e.disabledLanes p = d.disabledLanes p := by
  rw [Dev.disabledLanes, Dev.disabledLanes, Dev.lrd_setting hp h (by decide) (by decide)]

theorem Dev.sendTone_does (hp : p < 28) (hlen : p < d.links.length) : (d.sendTone p).out = d.out ++ toneSent d p ∧
    (d.sendTone p).slackLanes p = d.disabledLanes p ∧ (d.sendTone p).linkState p = d.linkState p ∧
    Beside settingWord Link.bare p d (d.sendTone p) := by
  obtain ⟨hout, -, hslack, hlrd, hbeside⟩ := d.setSlack_does hp hlen d.disabledLanes_le
  have hemit : ∀ (e : Dev) (x y : Emit), Beside anyWord Link.bare p e ((e.emit x).emit y) := fun e x y => (e.beside_emit x).trans (beside_emit _ y)
  have hrd : ∀ (e : Dev) (x y : Emit) (f g : Fld), ((e.emit x).emit y).lrd p f g = e.lrd p f g := fun _ _ _ _ _ => rfl
  unfold Dev.sendTone
  dsimp only
  refine ⟨?_, (hrd _ _ _ _ _).trans hslack, ?_, hbeside.trans ((hemit _ _ _).weaken (fun _ _ => trivial) fun _ _ h => h)⟩
  · rw [Dev.emit_out, Dev.emit_out, hout, List.append_assoc]
    rfl
  · rw [Dev.linkState_eq, Dev.linkState_eq, hrd]
    exact hlrd _ _ (by decide) (by decide)

/-- What of a link its place in training leaves aside. -/
def Link.timeless (l : Link) : Link := { l.bare with since := 0 }

/-- A link enters DETECT (R436). -/
def Dev.detects (p : Nat) (d : Dev) : Dev := ((d.setLinkState p 1).setLink p { d.link p with since := d.tim.tide }).sendTone p

theorem Dev.detects_does (hp : p < 28) (hlen : p < d.links.length) : (d.detects p).linkState p = 1 ∧ (d.detects p).out = d.out ++ toneSent d p ∧
    (d.detects p).slackLanes p = d.disabledLanes p ∧ Beside settingWord Link.timeless p d (d.detects p) := by
  obtain ⟨hst, -, hbeside, hlinks, hout, -⟩ := d.setLinkState_does hp (st := 1) (by decide)
  unfold Dev.detects
  have hlink : (d.setLinkState p 1).link p = d.link p := by rw [Dev.link, hlinks, Dev.link]
  have hset := (d.setLinkState p 1).beside_setLink (W := settingWord) (g := Link.timeless) (l := { d.link p with since := d.tim.tide })
    (by rw [hlinks]; exact hlen) (by rw [hlink]; rfl)
  have hsetst : ((d.setLinkState p 1).setLink p { d.link p with since := d.tim.tide }).linkState p = 1 :=
    (Dev.linkState_eq _).trans ((Dev.linkState_eq _).symm.trans hst)
  have hsetout : ((d.setLinkState p 1).setLink p { d.link p with since := d.tim.tide }).out = d.out := hout
  have hto := (hbeside.weaken (V := settingWord) (k := Link.timeless) (fun _ h => h) fun l l' h =>
    congrArg (fun x : Link => { x with since := 0 }) h).trans hset
  generalize (d.setLinkState p 1).setLink p { d.link p with since := d.tim.tide } = a at hset hsetst hsetout hto
  obtain ⟨htout, htslack, htst, htbeside⟩ := a.sendTone_does hp (by rw [hto.len]; exact hlen)
  have hdis := Dev.disabledLanes_setting hp hto
  refine ⟨htst.trans hsetst, ?_, htslack.trans hdis, hto.trans (htbeside.weaken (fun _ h => h) fun l l' h =>
    congrArg (fun x : Link => { x with since := 0 }) h)⟩
  rw [htout, hsetout, toneSent, toneSent, hdis]

theorem Dev.tryDetect_does (hp : p < 28) (hlen : p < d.links.length) (hst : d.linkState p = 0) : (d.tryDetect p).linkState p ≤ 1 ∧
    (d.linkEnabled p = false → d.tryDetect p = d) ∧ Beside settingWord Link.timeless p d (d.tryDetect p) := by
  obtain ⟨hone, -, -, hbeside⟩ := d.detects_does hp hlen
  unfold Dev.tryDetect
  split
  · next h =>
    obtain ⟨-, hen, -⟩ := h
    exact ⟨hone.le, fun h => by simp [h] at hen, hbeside⟩
  · exact ⟨by omega, fun _ => rfl, .refl d⟩

/-! ### DOWN -/

/-- A change of a landing that leaves its queue, and its gate empty where it is. -/
theorem quiet_setLnd {d : Dev} {n : Nat} {f : Lnd → Lnd} (hin : ∀ l, (f l).inQ = l.inQ) (hgate : ∀ l, (f l).gate.isEmpty = l.gate.isEmpty)
    (hq : quiet d) : quiet (d.setLnd n f) := by
  obtain ⟨hxfers, hport, hgates, hhost, hnoNode, hjobs, hdisp⟩ := hq
  refine ⟨hxfers, fun q hq => ?_, fun q hq => ?_, hhost, hnoNode, hjobs, hdisp⟩
  · have hqueue := hport q hq
    unfold Dev.portQ at hqueue ⊢
    rwa [d.lndOf_setLnd_keep Lnd.inQ hin]
  · rw [← List.isEmpty_iff, d.lndOf_setLnd_keep (fun l => l.gate.isEmpty) hgate, List.isEmpty_iff]
    exact hgates q hq

/-- The link forgets what it holds but for the frames it has (R452). -/
theorem Dev.setLinkDown_does (hlen : p < d.links.length) : (d.setLinkDown p).link p = { rx := (d.link p).rx, rxFree := (d.link p).rx.length } ∧
    Beside anyWord (fun _ => ()) p d (d.setLinkDown p) := by
  have hlnd : ∀ e : Dev, Beside anyWord (fun _ => ()) p e (if p < 24 then e else { e with lnd := modAt (fun l =>
      { l with gate := l.gate.map (fun w => { w with slots := [] }), halves := l.halves.map (fun w => { w with slots := [] }) }) e.lnd (p - 24) }) := by
    intro e
    refine .ite (.refl e) (.of_regs rfl rfl rfl rfl (List.prefix_refl _) (quiet_setLnd (fun _ => rfl) fun l => ?_))
    exact List.isEmpty_map
  have hswc : ∀ (e : Dev) f, Beside anyWord (fun _ => ()) p e { e with swc := f } := fun e f =>
    .of_regs rfl rfl rfl rfl (List.prefix_refl _) (quiet_rest rfl)
  have hlinks : ∀ (e : Dev) f, (if p < 24 then e else { e with lnd := modAt f e.lnd (p - 24) }).links = e.links := by
    intro e f
    split <;> rfl
  unfold Dev.setLinkDown
  dsimp only
  have hto := (hswc d { d.swc with recvSpace := d.swc.recvSpace.map (fun q => if q.inp = p then { q with paid := true } else q) }).trans (hlnd _)
  refine ⟨?_, hto.trans (Dev.beside_setLink _ ?_ rfl)⟩
  · rw [Dev.link_setLink _ (by rw [hto.len]; exact hlen), Dev.link, hlinks]
    rfl
  · rw [hto.len]
    exact hlen

/-- What a link that has gone down is recorded with (R436, R452, R621). -/
def Dev.downRecorded (p : Nat) (record capture : Bool) (d : Dev) : Dev :=
  if record then
    let d := (d.linkDownEvent p).linkCount p 6 1
    let d := if capture then d.capture (linkPage p) .degraded 0 0x08 (min p 0x3F) 0 else d
    if p < 24 then (d.requeue p).retryRecv else d
  else d

theorem Dev.downRecorded_does (hp : p < 28) (record capture : Bool) : Beside anyWord Link.core p d (d.downRecorded p record capture) ∧
    (record = true → bit ((d.downRecorded p record capture).word (linkPage p * 0x1000 + 0x14)) (if p < 24 then 1 else 2) = true) := by
  have hbit : (if p < 24 then 1 else 2) < 32 := by split <;> decide
  have hevent := Dev.isr_event d (linkPage p) hbit
  have hdown : Beside anyWord Link.core p d (d.linkDownEvent p) := d.beside_event ..
  have hswitch := beside_switch (W := anyWord) (g := Link.core) hp fun _ => rfl
  have hrest : Beside anyWord Link.core p (d.linkDownEvent p) (d.downRecorded p true capture) := by
    unfold Dev.downRecorded
    rw [if_pos rfl]
    dsimp only
    refine (Dev.beside_linkCount _ p 6 1).trans (.trans (.ite (Dev.beside_capture _ hp ..) (.refl _)) (.ite ?_ (.refl _)))
    exact (hswitch.requeue _ p).trans (hswitch.retryRecv _)
  cases record with
  | false => exact ⟨.refl d, fun h => absurd h (by decide)⟩
  | true => exact ⟨hdown.trans hrest, fun _ => hrest.isr _ hbit hevent⟩

/-- A link that goes DOWN (R436): whatever its state, its lanes are in SLACK and it holds no credit and nothing unacknowledged. -/
theorem Dev.linkGoDown_does (hp : p < 28) (hlen : p < d.links.length) (record capture : Bool) :
    let e := d.linkGoDown p record capture
    e.linkState p ≤ 1 ∧ (record = true → bit (e.word (linkPage p * 0x1000 + 0x14)) (if p < 24 then 1 else 2) = true) ∧
    (e.link p).credits = [] ∧ (e.link p).txSeq = (e.link p).acked ∧ (quiet d → quiet e) ∧
    (d.linkEnabled p = false → e.linkState p = 0 ∧ e.linkWidth p = 0) := by
  obtain ⟨hst, -, hsbeside, -⟩ := d.setLinkState_does hp (st := 0) (by decide)
  obtain ⟨hwidth, -, -, hmlrd, hmbeside, -⟩ := (d.setLinkState p 0).setMap_does hp (by rw [hsbeside.len]; exact hlen) (w := 0) (mask := 0)
    (Nat.zero_le _) (Nat.zero_le _)
  have hstate : ((d.setLinkState p 0).setMap p 0 0).linkState p = 0 := by
    rw [Dev.linkState_eq, hmlrd _ _ (by decide), ← Dev.linkState_eq, hst]
  have hto := hsbeside.trans hmbeside
  intro e
  have he : e = (((((d.setLinkState p 0).setMap p 0 0).setLinkDown p).lwr p F.PRT_PARTNER_VALID F.LNDL_PARTNER_VALID 0).downRecorded p record
    capture).timeLinkDown.tryDetect p := rfl
  generalize (d.setLinkState p 0).setMap p 0 0 = a at hwidth hstate hto he
  have halen : p < a.links.length := by rw [hto.len]; exact hlen
  obtain ⟨hlink, hdbeside⟩ := a.setLinkDown_does halen
  generalize a.setLinkDown p = b at hlink hdbeside he
  have hvalid := b.beside_status (k := fun _ => ()) hp (f := F.PRT_PARTNER_VALID) (g := F.LNDL_PARTNER_VALID) (by decide) (by decide) 0
  have hvst := Dev.lrd_lwr_ne b (p := p) (v := 0) (f := F.PRT_STAT_STATE) (g := F.LNDL_STAT_STATE) (f' := F.PRT_PARTNER_VALID)
    (g' := F.LNDL_PARTNER_VALID) (by decide) (by decide)
  have hvw := Dev.lrd_lwr_ne b (p := p) (v := 0) (f := F.PRT_STAT_WIDTH) (g := F.LNDL_STAT_WIDTH) (f' := F.PRT_PARTNER_VALID)
    (g' := F.LNDL_PARTNER_VALID) (by decide) (by decide)
  have hvlink := b.link_lwr (p := p) (f := F.PRT_PARTNER_VALID) (g := F.LNDL_PARTNER_VALID) (v := 0) p
  generalize b.lwr p F.PRT_PARTNER_VALID F.LNDL_PARTNER_VALID 0 = c at hvalid hvst hvw hvlink he
  have hcst : c.linkState p = 0 := by
    rw [Dev.linkState_eq, hvst, Dev.lrd_any hp hdbeside (by decide) (by decide), ← Dev.linkState_eq, hstate]
  have hcwidth : c.linkWidth p = 0 := by
    rw [Dev.linkWidth, hvw, Dev.lrd_any hp hdbeside (by decide) (by decide)]
    exact hwidth
  have hclen : p < c.links.length := by rw [hvalid.len, hdbeside.len]; exact halen
  have hclink : c.link p = { rx := (a.link p).rx, rxFree := (a.link p).rx.length } := hvlink.trans hlink
  have hcen : c.linkEnabled p = d.linkEnabled p := by
    unfold Dev.linkEnabled
    rw [Dev.lrd_setting hp hvalid (by decide) (by decide), Dev.lrd_any hp hdbeside (by decide) (by decide), Dev.lrd_setting hp hto (by decide) (by decide)]
  have hcquiet : quiet d → quiet c := fun hq => hvalid.rests (hdbeside.rests (hto.rests hq))
  obtain ⟨hrbeside, hrisr⟩ := c.downRecorded_does hp record capture
  have htime := (c.downRecorded p record capture).beside_timeLinkDown (W := anyWord) (g := Link.core) hp
  have hisr : record = true → bit ((c.downRecorded p record capture).timeLinkDown.word (linkPage p * 0x1000 + 0x14)) (if p < 24 then 1 else 2) = true :=
    fun h => htime.isr _ (by split <;> decide) (hrisr h)
  have hboth := hrbeside.trans htime
  generalize (c.downRecorded p record capture).timeLinkDown = r at hisr hboth he
  have hrst : r.linkState p = 0 := (hboth.linkState hp).trans hcst
  obtain ⟨hle, hoff, htry⟩ := r.tryDetect_does hp (by rw [hboth.len]; exact hclen) hrst
  rw [← he] at hle htry hoff
  have hlinks : ∀ {β : Type} (k : Link → β), (∀ l, k l.core = k l) → (∀ l, k l.timeless = k l) → k (e.link p) = k (c.link p) := by
    intro β k hcore htimeless
    refine (htimeless _).symm.trans ((congrArg k htry.link).trans ((htimeless _).trans ?_))
    exact (hcore _).symm.trans ((congrArg k hboth.link).trans (hcore _))
  refine ⟨hle, fun h => htry.isr _ (by split <;> decide) (hisr h), ?_, ?_, fun hq => htry.rests (hboth.rests (hcquiet hq)), fun hen => ?_⟩
  · rw [hlinks Link.credits (fun _ => rfl) fun _ => rfl, hclink]
  · rw [hlinks Link.txSeq (fun _ => rfl) fun _ => rfl, hlinks Link.acked (fun _ => rfl) fun _ => rfl, hclink]
  · have hren : r.linkEnabled p = false := by
      unfold Dev.linkEnabled at hen hcen ⊢
      rw [Dev.lrd_any hp hboth (by decide) (by decide), hcen, hen]
    rw [hoff hren]
    exact ⟨hrst, (Dev.lrd_any hp hboth (by decide) (by decide)).trans hcwidth⟩

end

end Sys2Proof.Machine


/-!
SUPPORT. O50, the first part: ENABLE of a link, DETECT and TRAIN (R432, R436, R440, R621).
-/
namespace Sys2Proof.Machine

section
variable {s : State} {m : Master} {p : Fin 28} {n : Nat}

/-! ### The configuration register of a link -/

theorem fabricCfg_enable : ∀ q < 24, F.PRT_CFG_ENABLE ∈ fieldsAt (0x80 + q) 0x100 := by decide +kernel

theorem lndlCfg_enable : ∀ q < 4, F.LNDL_CFG_ENABLE ∈ fieldsAt (0x10 + q) 0x300 := by decide +kernel

/-- ENABLE as it has been written. -/
theorem enable_written {q off : Nat} {f : Fld} (htaken : fieldsTaken (tlp m s.dev) m q off n) (hf : f ∈ fieldsAt q off) (hq : q ≠ 1)
    (hown : (tlp m s.dev).mayWrite m q off = true) (hacc : f.acc = .rwo) (hmode : f ≠ F.RTE_CFG_MODE) (haddr : f.addr q 0 = q * 0x1000 + off)
    (hw : f.lo + f.w ≤ 32) (e : Dev) :
    (e.setWord (q * 0x1000 + off) ((tlp m s.dev).newWord ((tlp m s.dev).mayWrite m q off) q off n)).rdp f q = bits n f.lo f.w := by
  refine (rdpi_setWord_of haddr hw).trans (fieldsTaken_bits htaken hf (fun h => hq h.1) ?_ (by rw [hacc]; decide) hmode)
  rw [fieldOpen, hacc]
  exact hown

/-- What a write of the configuration of a link sets going. -/
theorem linkCfg_written (hopen : pageOpen s.dev m (linkPage p)) (hown : s.dev.owns m (linkPage p) = true) (hn : n < 2 ^ 32)
    (htaken : fieldsTaken (tlp m s.dev) m (linkPage p) (if p.val < 24 then 0x100 else 0x300) n) :
    ∃ e : Dev, regOut m (linkCfgAddr p) 4 n s = .next (withPkg s (Pkg.settle (s.store, e.linkCfgWritten p))) ∧ e.rest = s.dev.rest ∧
      e.links = s.dev.links ∧ e.out = s.dev.out ∧ e.tim = s.dev.tim ∧ e.linkEnabled p = bit n 0 ∧
      ∀ a, a ≠ linkPage p * 0x1000 + (if p.val < 24 then 0x100 else 0x300) → e.word a = s.dev.word a := by
  obtain ⟨c, hc⟩ := tlp_counts m s.dev
  have hp := p.isLt
  have hframe : ∀ a w, ((tlp m s.dev).setWord a w).rest = s.dev.rest ∧ ((tlp m s.dev).setWord a w).links = s.dev.links ∧
      ((tlp m s.dev).setWord a w).out = s.dev.out ∧ ((tlp m s.dev).setWord a w).tim = s.dev.tim := fun a w => by
    rw [hc]
    exact ⟨rfl, rfl, rfl, rfl⟩
  have hword : ∀ a b w, b ≠ a → ((tlp m s.dev).setWord a w).word b = s.dev.word b := fun a b w h => by
    rw [Dev.word_setWord_ne _ _ h, tlp_word]
  by_cases h24 : p.val < 24
  · have hpage : linkPage p = 0x80 + p.val := if_pos h24
    have haddr : linkCfgAddr p = (0x80 + p.val) * 0x1000 + 0x100 := by
      rw [linkCfgAddr, if_pos h24]
      omega
    rw [if_pos h24] at htaken ⊢
    rw [hpage] at hopen hown htaken ⊢
    rw [haddr]
    have hwrite := fabricRegister hopen (by omega) (by omega) (off := 0x100) (by omega) (by omega) (by omega) hn htaken
    rw [Dev.fabricWritten, if_neg (by omega), if_neg (by omega), if_neg (by omega), if_pos (by omega), if_pos rfl, Nat.add_sub_cancel_left] at hwrite
    obtain ⟨hrest, hlinks, hout, htim⟩ := hframe ((0x80 + p.val) * 0x1000 + 0x100) ((tlp m s.dev).newWord ((tlp m s.dev).mayWrite m (0x80 + p.val) 0x100)
      (0x80 + p.val) 0x100 n)
    refine ⟨_, hwrite, hrest, hlinks, hout, htim, ?_, fun a ha => hword _ _ _ ha⟩
    rw [Dev.linkEnabled, Dev.lrd, if_pos h24, hpage]
    rw [enable_written htaken (fabricCfg_enable p h24) (by omega) (mayWrite_fabric (by omega) hown) rfl (by decide) rfl (by decide)]
    exact (bit_eq_bits n 0).symm
  · obtain ⟨q, hq⟩ : ∃ q : Fin 4, p.val = 24 + q.val := ⟨⟨p.val - 24, by omega⟩, by simp only; omega⟩
    have hpage : linkPage p = lndPage q.val := by
      rw [linkPage, if_neg h24, lndPage]
      omega
    have haddr : linkCfgAddr p = lndPage q.val * 0x1000 + 0x300 := by
      rw [linkCfgAddr, if_neg h24, lndPage]
      omega
    rw [if_neg h24] at htaken ⊢
    rw [hpage] at hopen hown htaken ⊢
    rw [haddr]
    have hwrite := lndRegister (n := q) (off := 0x300) hopen (by omega) (by omega) (by omega) hn htaken
    rw [Pkg.lndWritten, if_neg (by omega), if_neg (by omega), if_neg (by omega), if_neg (by omega), if_pos rfl, ← hq] at hwrite
    obtain ⟨hrest, hlinks, hout, htim⟩ := hframe (lndPage q.val * 0x1000 + 0x300) ((tlp m s.dev).newWord ((tlp m s.dev).mayWrite m (lndPage q.val) 0x300)
      (lndPage q.val) 0x300 n)
    refine ⟨_, hwrite, hrest, hlinks, hout, htim, ?_, fun a ha => hword _ _ _ ha⟩
    rw [Dev.linkEnabled, Dev.lrd, if_neg h24, hpage]
    rw [enable_written htaken (lndlCfg_enable q q.isLt) (by rw [lndPage]; omega) (mayWrite_lnd hown) rfl (by decide) rfl (by decide)]
    exact (bit_eq_bits n 0).symm

/-- A field that lies elsewhere. -/
theorem rdi_of_word {d e : Dev} {a : Nat} (h : ∀ b, b ≠ a → e.word b = d.word b) {f : Fld} {i : Nat} (hf : f.addr f.page i ≠ a) :
    e.rdi f i = d.rdi f i := congrArg (bits · f.lo f.w) (h _ hf)

/-- What a write of a link's configuration leaves of what DETECT asks for. -/
theorem linkCfg_leaves {d e : Dev} (hword : ∀ a, a ≠ linkPage p * 0x1000 + (if p.val < 24 then 0x100 else 0x300) → e.word a = d.word a) :
    e.linkState p = d.linkState p ∧ e.linkPowered p = d.linkPowered p ∧ e.booted = d.booted ∧ (p.val < 24 → e.role p = d.role p) ∧
    e.rd F.PWR_STAT_STATE = d.rd F.PWR_STAT_STATE := by
  have hp := p.isLt
  obtain ⟨-, hpage⟩ := linkPage_range hp
  have hoff : (if p.val < 24 then 0x100 else 0x300) = 0x100 ∨ (if p.val < 24 then 0x100 else 0x300) = 0x300 := by
    split
    · exact .inl rfl
    · exact .inr rfl
  have hrd : ∀ (f : Fld) i, f.page ≠ linkPage p → f.at i < 0x1000 → e.rdi f i = d.rdi f i := fun f i hq hi =>
    rdi_of_word hword (by rw [Fld.addr]; omega)
  refine ⟨?_, ?_, ?_, fun h => hrd _ _ ?_ ?_, hrd F.PWR_STAT_STATE 0 ?_ (by decide)⟩
  · rw [Dev.linkState_eq, Dev.linkState_eq]
    unfold Dev.lrd Dev.rdp Dev.rdpi
    split
    · next h => rw [hword _ (by rw [Fld.addr, if_pos h]; exact fun h => absurd (Nat.add_left_cancel h) (by decide))]
    · next h => rw [hword _ (by rw [Fld.addr, if_neg h]; exact fun h => absurd (Nat.add_left_cancel h) (by decide))]
  · exact Dev.domOn_congr (hword _ (by omega)) _
  · exact congrArg (· == 4) (hrd F.GLB_BOOT_STAT_STAGE 0 (by simp only [F.GLB_BOOT_STAT_STAGE]; omega) (by decide))
  · simp only [F.RTE_PORT_ROLE_ROLE]
    omega
  · simp only [F.RTE_PORT_ROLE_ROLE, Fld.at]
    omega
  · simp only [F.PWR_STAT_STATE]
    omega

theorem linkEnable_detects {v : W32} (hopen : pageOpen s.dev m (linkPage p)) (hown : s.dev.owns m (linkPage p) = true) (hq : quiet s.dev)
    (hlen : s.dev.links.length = 28)
    (htaken : fieldsTaken (tlp m s.dev) m (linkPage p) (if p.val < 24 then 0x100 else 0x300) (putBit v.toNat 0 true))
    (hst : s.dev.linkState p.val = 0) (hboot : s.dev.booted = true) (hrole : 24 ≤ p.val ∨ s.dev.role p.val ≠ 0) (hpwr : s.dev.rd F.PWR_STAT_STATE ≤ 1) :
    ∃ t, exec (.linkEnable m p v) s = .next t ∧ t.store = s.store ∧ t.dev.linkState p.val = 1 ∧ t.dev.out = s.dev.out ++ toneSent t.dev p.val ∧
      t.dev.slackLanes p.val = t.dev.disabledLanes p.val := by
  have hp := p.isLt
  obtain ⟨-, -, -, hon⟩ := id hopen
  obtain ⟨e, hwrite, hrest, hlinks, hout, -, hen, hword⟩ := linkCfg_written hopen hown (putBit_top_lt true v.isLt (i := 0) (by decide)) htaken
  rw [bit_putBit_same] at hen
  obtain ⟨hlst, hlon, hlboot, hlrole, hlpwr⟩ := linkCfg_leaves hword
  have hrole' : 24 ≤ p.val ∨ e.role p.val ≠ 0 := by
    by_cases h24 : p.val < 24
    · exact .inr (by rw [hlrole h24]; omega)
    · exact .inl (by omega)
  have hdet : e.linkCfgWritten p = e.detects p := by
    have htry : e.tryDetect p = e.detects p :=
      if_pos ⟨hlst.trans hst, hen, hlon.trans hon, hlboot.trans hboot, hrole', .inl (hlpwr ▸ hpwr)⟩
    rw [Dev.linkCfgWritten, if_pos hen, htry]
  obtain ⟨hdst, hdout, hdslack, hdbeside⟩ := e.detects_does hp (by rw [hlinks, hlen]; exact hp)
  rw [hdet, settle_quiet (x := (s.store, e.detects p)) (hdbeside.rests (quiet_rest hrest hq))] at hwrite
  have hdis := Dev.disabledLanes_setting hp hdbeside
  refine ⟨_, hwrite, rfl, hdst, ?_, hdslack.trans hdis.symm⟩
  refine hdout.trans ?_
  rw [hout, toneSent, toneSent]
  exact congrArg (fun x => s.dev.out ++ [Emit.tone p.val (maskMinus (allLanes p.val) x), .pattern p.val (maskMinus (allLanes p.val) x)]) hdis.symm

theorem linkDisable_downs {v : W32} (hopen : pageOpen s.dev m (linkPage p)) (hown : s.dev.owns m (linkPage p) = true) (hq : quiet s.dev)
    (hlen : s.dev.links.length = 28)
    (htaken : fieldsTaken (tlp m s.dev) m (linkPage p) (if p.val < 24 then 0x100 else 0x300) (putBit v.toNat 0 false))
    (hst : s.dev.linkState p.val ≠ 0) : ∃ t, exec (.linkDisable m p v) s = .next t ∧ t.store = s.store ∧ t.dev.linkState p.val = 0 ∧
      t.dev.linkWidth p.val = 0 ∧ (5 ≤ s.dev.linkState p.val → bit (t.dev.word (linkPage p * 0x1000 + 0x14)) (if p.val < 24 then 1 else 2) = true) := by
  have hp := p.isLt
  obtain ⟨e, hwrite, hrest, hlinks, hout, -, hen, hword⟩ := linkCfg_written hopen hown (putBit_top_lt false v.isLt (i := 0) (by decide)) htaken
  rw [bit_putBit_same] at hen
  obtain ⟨hlst, -⟩ := linkCfg_leaves hword
  have hdown : e.linkCfgWritten p = e.linkGoDown p (decide (5 ≤ s.dev.linkState p)) false := by
    rw [Dev.linkCfgWritten, hen, if_neg (by decide), hlst, if_neg hst]
  obtain ⟨-, hisr, -, -, hquiet, hoff⟩ := e.linkGoDown_does hp (by rw [hlinks, hlen]; exact hp) (decide (5 ≤ s.dev.linkState p)) false
  rw [hdown, settle_quiet (x := (s.store, e.linkGoDown p (decide (5 ≤ s.dev.linkState p)) false)) (hquiet (quiet_rest hrest hq))] at hwrite
  exact ⟨_, hwrite, rfl, (hoff hen).1, (hoff hen).2, fun h => hisr (decide_eq_true h)⟩

/-! ### DETECT -/

theorem detectTimer_sends (hrun : s.dev.running = true) (hlen : s.dev.links.length = 28) (hst : s.dev.linkState p.val = 1)
    (hdue : (s.dev.link p.val).since + us 1000 ≤ s.dev.tim.tide) : ∃ t, exec (.detectTimer p) s = .next t ∧ t.store = s.store ∧
      (t.dev.link p.val).since = s.dev.tim.tide ∧ t.dev.linkState p.val = 1 ∧ t.dev.out = s.dev.out ++ toneSent s.dev p.val := by
  have hp := p.isLt
  have hplen : p.val < s.dev.links.length := by rw [hlen]; exact hp
  have hexec := onDev_running hrun (Dev.detectTimer p)
  rw [Dev.detectTimer, if_pos ⟨hst, hdue⟩] at hexec
  have hlink := s.dev.link_setLink (l := { s.dev.link p with since := s.dev.tim.tide }) hplen
  obtain ⟨hout, -, htst, hbeside⟩ := (s.dev.setLink p { s.dev.link p with since := s.dev.tim.tide }).sendTone_does hp
    (by rw [Dev.setLink]; simp only [length_modAt]; exact hplen)
  refine ⟨_, hexec, rfl, (Link.of_bare Link.since (fun _ => rfl) hbeside.link).trans (by rw [hlink]), htst.trans ?_, hout⟩
  rw [Dev.linkState_eq, Dev.lrd_setLink, ← Dev.linkState_eq]
  exact hst

theorem detectTimer_waits (hrun : s.dev.running = true) (h : s.dev.linkState p.val ≠ 1 ∨ s.dev.tim.tide < (s.dev.link p.val).since + us 1000) :
    exec (.detectTimer p) s = .next s := by
  refine (onDev_running hrun _).trans ?_
  rw [Dev.detectTimer, if_neg (by omega)]

theorem partnerDetected_trains (hrun : s.dev.running = true) (hst : s.dev.linkState p.val = 1) : exec (.partnerDetected p) s = .next { s with
    dev := (s.dev.setLinkState p.val 2).setLink p.val { s.dev.link p.val with since := s.dev.tim.tide } } := by
  refine (onDev_running hrun _).trans ?_
  rw [Dev.partnerDetected, if_pos hst]

end

end Sys2Proof.Machine


/-!
SUPPORT. Sets of lanes as masks, and the map that a link takes (R439).
-/
namespace Sys2Proof.Machine

/-! ### Sums of powers of two -/

/-- The lanes of a mask are those of the list that it was made of. -/
theorem testBit_sum_desc {l : List Nat} (h : l.Pairwise (· > ·)) (n : Nat) (hn : ∀ x ∈ l, x < n) :
    (l.map (fun i => 2 ^ i)).sum < 2 ^ n ∧ ∀ i, (l.map (fun i => 2 ^ i)).sum.testBit i = decide (i ∈ l) := by
  induction l generalizing n with
  | nil => exact ⟨Nat.two_pow_pos n, fun i => by simp⟩
  | cons x l ih =>
    obtain ⟨hx, hl⟩ := List.pairwise_cons.1 h
    obtain ⟨hlt, hbit⟩ := ih hl x hx
    have hxn := hn x (by simp)
    have hsum : ((x :: l).map (fun i => 2 ^ i)).sum = 2 ^ x + (l.map (fun i => 2 ^ i)).sum := rfl
    have hsucc : 2 ^ (x + 1) ≤ 2 ^ n := Nat.pow_le_pow_right (by decide) hxn
    have htwo : 2 ^ x + (l.map (fun i => 2 ^ i)).sum < 2 ^ (x + 1) := by
      rw [Nat.pow_succ]
      omega
    rw [hsum]
    refine ⟨by omega, fun i => ?_⟩
    rcases Nat.lt_trichotomy i x with hi | rfl | hi
    · rw [Nat.testBit_two_pow_add_gt hi, hbit]
      simp [hi.ne]
    · rw [Nat.testBit_two_pow_add_eq, Nat.testBit_lt_two_pow hlt]
      simp
    · have hno : i ∉ l := fun hm => by
        have := hx i hm
        omega
      rw [Nat.testBit_lt_two_pow (htwo.trans_le (Nat.pow_le_pow_right (by decide) hi))]
      simp [hi.ne', hno]

/-- A sublist of the lanes. -/
theorem lanes_sum {l : List Nat} {n : Nat} (h : l.Sublist (List.range n)) :
    (l.map (fun i => 2 ^ i)).sum < 2 ^ n ∧ ∀ i, bit (l.map (fun i => 2 ^ i)).sum i = decide (i ∈ l) := by
  have hdesc : l.reverse.Pairwise (· > ·) := List.pairwise_reverse.2 (List.pairwise_lt_range.sublist h)
  have hperm : (l.map (fun i => 2 ^ i)).sum = (l.reverse.map (fun i => 2 ^ i)).sum := by rw [List.map_reverse, List.sum_reverse]
  obtain ⟨hlt, hbit⟩ := testBit_sum_desc hdesc n fun x hx => List.mem_range.1 (h.subset (List.mem_reverse.1 hx))
  rw [hperm]
  exact ⟨hlt, fun i => by rw [bit_eq_testBit, hbit]; simp⟩

theorem bit_lanes_filter {n i : Nat} {on : Nat → Bool} (hi : i < n) : bit ((((List.range n).filter on).map (fun i => 2 ^ i)).sum) i = on i := by
  rw [(lanes_sum List.filter_sublist).2]
  simp [hi]

theorem bit_allLanes {p i : Nat} (hi : i < laneCount p) : bit (allLanes p) i = true := by
  rw [bit_eq_testBit, allLanes, Nat.testBit_two_pow_sub_one, decide_eq_true hi]

theorem bit_and (a b i : Nat) : bit (Nat.land a b) i = (bit a i && bit b i) := by
  rw [bit_eq_testBit, bit_eq_testBit, bit_eq_testBit]
  exact Nat.testBit_and ..

theorem bit_or (a b i : Nat) : bit (Nat.lor a b) i = (bit a i || bit b i) := by
  rw [bit_eq_testBit, bit_eq_testBit, bit_eq_testBit]
  exact Nat.testBit_or ..

/-! ### The map that a link takes -/

theorem popCount_le (w n : Nat) : popCount w n ≤ w := by
  induction w generalizing n with
  | zero => exact Nat.le_refl 0
  | succ w ih =>
    have hrest := ih (n / 2)
    simp only [popCount]
    omega

theorem pow2Below_le (n : Nat) : pow2Below n ≤ n := by
  unfold pow2Below
  split
  · exact Nat.zero_le _
  · next h => exact Nat.log2_self_le h

theorem lowestLanes_does (n w mask : Nat) : lowestLanes n w mask < 2 ^ n ∧ ∀ i, bit (lowestLanes n w mask) i = true → bit mask i = true := by
  obtain ⟨hlt, hbit⟩ := lanes_sum (l := ((List.range n).filter (fun i => bit mask i)).take w) ((List.take_sublist ..).trans List.filter_sublist)
  refine ⟨hlt, fun i hi => ?_⟩
  rw [lowestLanes, hbit, decide_eq_true_eq] at hi
  exact (List.mem_filter.1 (List.mem_of_mem_take hi)).2

theorem chosenMap_does (p w h : Nat) : (chosenMap p w h).1 ≤ laneCount p ∧ (chosenMap p w h).1 ≤ w ∧ (chosenMap p w h).2 ≤ allLanes p ∧
    ∀ i, bit (chosenMap p w h).2 i = true → bit h i = true := by
  obtain ⟨hlt, hbit⟩ := lowestLanes_does (laneCount p) (chosenMap p w h).1 h
  refine ⟨(Nat.min_le_right ..).trans ((pow2Below_le _).trans (popCount_le ..)), Nat.min_le_left .., ?_, hbit⟩
  exact Nat.le_sub_one_of_lt hlt

end Sys2Proof.Machine


/-!
SUPPORT. What the operations of a link do: a message that goes out, a replay, a new map, the entry into RETRAIN (R436, R441, R447, R450).
-/
namespace Sys2Proof.Machine

section
variable {p : Nat} (d : Dev)

/-! ### Messages -/

/-- The link once a message of the slots `sl` has left, or waits. -/
def Link.lctl (l : Link) (now : Nat) (sl : List Byte) : Link :=
  if l.room = true ∧ l.lctlWait = [] then l.sends now 2 15 sl else { l with lctlWait := l.lctlWait ++ [sl] }

theorem Dev.lctlOut_does (hlen : p < d.links.length) (sl : List Byte) : (d.lctlOut p sl).out = d.out ++ lctlSent d p sl ∧
    ((d.lctlOut p sl).link p).bare = ((d.link p).lctl d.tim.tide sl).bare ∧ Beside anyWord (fun _ => ()) p d (d.lctlOut p sl) := by
  unfold Dev.lctlOut lctlSent Link.lctl
  dsimp only
  split
  · next h =>
    obtain ⟨hout, hlink, hbeside⟩ := d.flitOut_does (W := anyWord) hlen 2 false 15 sl
    have hkind : (d.link p).kind 2 = 2 := if_pos h.1
    refine ⟨?_, hlink, hbeside⟩
    rw [hout, hkind]
    simp [Link.flit, Link.grants, Function.comp_def]
  · refine ⟨(List.append_nil _).symm, ?_, d.beside_setLink hlen rfl⟩
    rw [Dev.link_setLink _ hlen]

/-! ### Replay -/

/-- Flits are sent again. -/
theorem Dev.resent_does (rx : Nat) (fs : List Flit) :
    let e := fs.foldl (fun (d : Dev) f => ((d.sendFlit p (f.bytes rx false)).linkCount p 0 1).corrected (linkPage p)) d
    e.out = d.out ++ fs.map (fun f => .flit p (f.bytes rx false)) ∧ Beside anyWord Link.bare p d e := by
  induction fs generalizing d with
  | nil => exact ⟨(List.append_nil _).symm, .refl d⟩
  | cons f fs ih =>
    have hone : Beside anyWord Link.bare p d (((d.sendFlit p (f.bytes rx false)).linkCount p 0 1).corrected (linkPage p)) :=
      ((d.beside_sendFlit (fun _ => rfl) p _).trans (beside_linkCount _ p 0 1)).trans (beside_corrected _ _)
    have hout : (((d.sendFlit p (f.bytes rx false)).linkCount p 0 1).corrected (linkPage p)).out = d.out ++ [.flit p (f.bytes rx false)] := by
      rw [← Dev.out_sendFlit]
      simp [Dev.linkCount]
    obtain ⟨hrest, hbeside⟩ := ih (((d.sendFlit p (f.bytes rx false)).linkCount p 0 1).corrected (linkPage p))
    refine ⟨?_, hone.trans hbeside⟩
    rw [List.foldl_cons, hrest, hout, List.append_assoc]
    rfl

/-- What of a link a replay leaves. -/
def Link.unreplayed (l : Link) : Link := { l.bare with replayedSince := 0 }

theorem Dev.replay_does (hlen : p < d.links.length) :
    (d.replay p).out = d.out ++ (d.link p).buffer.map (fun f => .flit p (f.bytes (d.link p).rxSeq false)) ∧
    Beside anyWord Link.unreplayed p d (d.replay p) := by
  unfold Dev.replay
  dsimp only
  split
  · next h => exact ⟨by rw [List.isEmpty_iff.1 h]; exact (List.append_nil _).symm, .refl d⟩
  · obtain ⟨hout, hbeside⟩ := d.resent_does (p := p) (d.link p).rxSeq (d.link p).buffer
    generalize (d.link p).buffer.foldl _ d = e at hout hbeside ⊢
    have hcount : Beside anyWord Link.unreplayed p d (e.linkCount p 4 1) :=
      (hbeside.trans (beside_linkCount _ p 4 1)).weaken (fun _ h => h) fun _ _ h => congrArg (fun l : Link => { l with replayedSince := 0 }) h
    refine ⟨?_, hcount.trans (Dev.beside_setLink _ (by rw [hcount.len]; exact hlen) rfl)⟩
    rw [← hout]
    show (e.linkCount p 4 1).out = e.out
    simp [Dev.linkCount]

/-! ### A new map -/

/-- What a new map leaves of a link's registers. -/
theorem Dev.newMap_does (hp : p < 28) (hlen : p < d.links.length) {w mask : Nat} (hw : w ≤ laneCount p) (hmask : mask ≤ allLanes p) :
    (d.newMap p w mask).linkWidth p = w ∧ (d.newMap p w mask).laneMap p = mask ∧ (d.newMap p w mask).slackLanes p = maskMinus (allLanes p) mask ∧
    (d.newMap p w mask).linkState p = d.linkState p ∧
    ((d.newMap p w mask).link p).bare =
      { (d.link p).bare with width := none, txMask := mask, txSwitch := none, changedSince := d.tim.tide + 1 } ∧
    Beside settingWord (fun _ => ()) p d (d.newMap p w mask) := by
  obtain ⟨hwidth, hmap, hslack, hlrd, hbeside, -⟩ := d.setMap_does hp hlen hw hmask
  have hst : (d.setMap p w mask).linkState p = d.linkState p := by rw [Dev.linkState_eq, Dev.linkState_eq, hlrd _ _ (by decide)]
  unfold Dev.newMap
  dsimp only
  generalize d.setMap p w mask = a at hwidth hmap hslack hbeside hst
  generalize maskMinus (d.failedLanes p) mask = failed
  have hfbeside : Beside settingWord Link.bare p a (a.setFailed p failed) :=
    Dev.beside_status (f := F.PRT_STAT_FAILED_LANES) (g := F.LNDL_LANES_FAILED_LANES) _ hp (by decide) (by decide) _
  have hf : ∀ f g : Fld, f.disjoint F.PRT_STAT_FAILED_LANES → g.disjoint F.LNDL_LANES_FAILED_LANES → (a.setFailed p failed).lrd p f g = a.lrd p f g :=
    fun f g h k => Dev.lrd_lwr_ne _ h k
  have hfst : (a.setFailed p failed).linkState p = a.linkState p := by rw [Dev.linkState_eq, Dev.linkState_eq, hf _ _ (by decide) (by decide)]
  have hfw : (a.setFailed p failed).linkWidth p = a.linkWidth p := hf _ _ (by decide) (by decide)
  have hfm : (a.setFailed p failed).laneMap p = a.laneMap p := hf _ _ (by decide) (by decide)
  have hfs : (a.setFailed p failed).slackLanes p = a.slackLanes p := hf _ _ (by decide) (by decide)
  generalize a.setFailed p failed = b at hfbeside hfst hfw hfm hfs
  have hblen : p < b.links.length := by rw [hfbeside.len, hbeside.len]; exact hlen
  have hbare : (b.link p).bare = (d.link p).bare := hfbeside.link.trans hbeside.link
  have htide : b.tim.tide = d.tim.tide := hfbeside.tide.trans hbeside.tide
  have hlink := b.link_setLink (l := { b.link p with
    width := none, txMask := mask, txSwitch := none, changedSince := b.tim.tide + 1
    lanes := (b.link p).lanes.zipIdx.map (fun t => if bit mask t.2 then t.1 else {}) }) hblen
  have hset := b.beside_setLink (W := anyWord) (g := fun _ => ()) (l := { b.link p with
    width := none, txMask := mask, txSwitch := none, changedSince := b.tim.tide + 1
    lanes := (b.link p).lanes.zipIdx.map (fun t => if bit mask t.2 then t.1 else {}) }) hblen rfl
  have hbare' : ({ b.link p with
      width := none, txMask := mask, txSwitch := none, changedSince := b.tim.tide + 1
      lanes := (b.link p).lanes.zipIdx.map (fun t => if bit mask t.2 then t.1 else {}) } : Link).bare =
      { (d.link p).bare with width := none, txMask := mask, txSwitch := none, changedSince := d.tim.tide + 1 } := by
    rw [← hbare, ← htide]
    rfl
  rw [← hlink] at hbare'
  generalize b.setLink p _ = c at hset hbare'
  have hcount : ∀ x : Dev, Beside anyWord Link.bare p x (if p < 24 then (x.linkCount p 7 1).event (linkPage p) 2 else x.linkCount p 7 1) := fun x =>
    .ite ((x.beside_linkCount p 7 1).trans (beside_event ..)) (x.beside_linkCount p 7 1)
  have hend : Beside anyWord Link.bare p c (if d.linkWidth p = w then c else if p < 24 then (c.linkCount p 7 1).event (linkPage p) 2 else c.linkCount p 7 1) :=
    .ite (.refl c) (hcount c)
  generalize (if d.linkWidth p = w then c else if p < 24 then (c.linkCount p 7 1).event (linkPage p) 2 else c.linkCount p 7 1) = e at hend ⊢
  have hall : Beside anyWord (fun _ => ()) p b e := hset.trans (hend.weaken (fun _ h => h) fun _ _ _ => rfl)
  refine ⟨?_, ?_, ?_, ?_, hend.link.trans hbare', ?_⟩
  · exact (Dev.lrd_any hp hall (by decide) (by decide)).trans (hfw.trans hwidth)
  · exact (Dev.lrd_any hp hall (by decide) (by decide)).trans (hfm.trans hmap)
  · exact (Dev.lrd_any hp hall (by decide) (by decide)).trans (hfs.trans hslack)
  · exact (hall.linkState hp).trans (hfst.trans hst)
  · exact ((hbeside.trans hfbeside).weaken (fun _ h => h) fun _ _ _ => rfl).trans (hall.weaken (fun _ _ => trivial) fun _ _ _ => rfl)

/-! ### RETRAIN -/

/-- What the entry into RETRAIN leaves of a link's registers: what shares no bit with STATE and SLACK_LANES. -/
abbrev besideRetrain (f g : Fld) : Prop :=
  f.disjoint F.PRT_STAT_STATE ∧ g.disjoint F.LNDL_STAT_STATE ∧ f.disjoint F.PRT_STAT_SLACK_LANES ∧ g.disjoint F.LNDL_LANES_SLACK_LANES ∧
  (0x40 ≤ f.at 0 ∧ f.at 0 < 0x1000) ∧ (0x40 ≤ g.at 0 ∧ g.at 0 < 0x1000)

theorem Dev.mustReadapt_congr {d e : Dev} (hmax : e.maxWidth p = d.maxWidth p) (hfailed : e.failedLanes p = d.failedLanes p)
    (hmap : e.laneMap p = d.laneMap p) (hlink : (e.link p).usable = (d.link p).usable) : e.mustReadapt p = d.mustReadapt p := by
  unfold Dev.mustReadapt Dev.healthy
  rw [hmax, hfailed, hmap, hlink]

theorem Dev.toRetrain_does (hp : p < 28) (hlen : p < d.links.length) : (d.toRetrain p).linkState p = 6 ∧
    (∀ f g : Fld, besideRetrain f g → (d.toRetrain p).lrd p f g = d.lrd p f g) ∧
    (∃ r, ((d.toRetrain p).link p).bare = { (d.link p).bare with
      since := d.tim.tide, readapt := r, width := none, txSwitch := none, changedSince := d.tim.tide + 1 } ∧ r = (d.toRetrain p).mustReadapt p) ∧
    Beside settingWord (fun _ => ()) p d (d.toRetrain p) := by
  obtain ⟨hst, hslrd, hsbeside, -⟩ := d.setLinkState_does hp (st := 6) (by decide)
  unfold Dev.toRetrain
  dsimp only
  generalize d.setLinkState p 6 = a at hst hslrd hsbeside
  have hcount : Beside anyWord Link.bare p a ((a.eyeAbort p (allLanes p)).linkCount p 5 1) := (a.beside_eyeAbort ..).trans (beside_linkCount _ p 5 1)
  generalize (a.eyeAbort p (allLanes p)).linkCount p 5 1 = b at hcount
  have hblen : p < b.links.length := by rw [hcount.len, hsbeside.len]; exact hlen
  obtain ⟨-, -, -, hlrd, hbeside⟩ := b.setSlack_does hp hblen (mask := maskMinus (allLanes p) (d.laneMap p)) (maskMinus_le ..)
  generalize b.setSlack p (maskMinus (allLanes p) (d.laneMap p)) = c at hlrd hbeside
  have hclen : p < c.links.length := by rw [hbeside.len]; exact hblen
  have hlink := c.link_setLink (l := { c.link p with
    since := c.tim.tide, readapt := c.mustReadapt p, width := none, txSwitch := none, changedSince := c.tim.tide + 1 }) hclen
  have hbare : (c.link p).bare = (d.link p).bare := hbeside.link.trans (hcount.link.trans hsbeside.link)
  have htide : c.tim.tide = d.tim.tide := hbeside.tide.trans (hcount.tide.trans hsbeside.tide)
  have hset := c.beside_setLink (W := settingWord) (g := fun _ => ()) (l := { c.link p with
    since := c.tim.tide, readapt := c.mustReadapt p, width := none, txSwitch := none, changedSince := c.tim.tide + 1 }) hclen rfl
  have hfield : ∀ f g : Fld, besideRetrain f g → c.lrd p f g = d.lrd p f g := by
    rintro f g ⟨hfst, hgst, hfs, hgs, hf, hg⟩
    exact (hlrd f g hfs hgs).trans ((Dev.lrd_any hp hcount hf hg).trans (hslrd f g ⟨hfst, hgst⟩))
  refine ⟨?_, fun f g h => (c.lrd_setLink ..).trans (hfield f g h), ⟨c.mustReadapt p, ?_, ?_⟩, ?_⟩
  · rw [Dev.linkState_eq, Dev.lrd_setLink, hlrd _ _ (by decide) (by decide), Dev.lrd_any hp hcount (by decide) (by decide), ← Dev.linkState_eq, hst]
  · rw [hlink, ← hbare, ← htide]
    rfl
  · refine (Dev.mustReadapt_congr ?_ ?_ ?_ ?_).symm
    · rfl
    · rfl
    · rfl
    · rw [hlink]
  · exact ((hsbeside.weaken (V := settingWord) (k := fun _ => ()) (fun _ h => h) fun _ _ _ => rfl).trans
      (hcount.weaken (fun _ _ => trivial) fun _ _ _ => rfl)).trans ((hbeside.weaken (fun _ h => h) fun _ _ _ => rfl).trans hset)

end

end Sys2Proof.Machine


/-!
SUPPORT. O50, the first part: TRAIN, ALIGN, PARAM, and how a link goes DOWN (R432, R436–R440, R448, R452, R621).
-/
namespace Sys2Proof.Machine

section
variable {s : State} {p : Fin 28}

/-! ### DOWN -/

/-- A step that takes the link DOWN and records it. -/
theorem goDown_said {c : Instr} {d : Dev} {capture : Bool} (hexec : exec c s = .next { s with dev := d.linkGoDown p.val true capture })
    (hlen : d.links.length = 28) : ∃ t, exec c s = .next t ∧ t.store = s.store ∧ t.dev.linkState p.val ≤ 1 ∧
      bit (t.dev.word (linkPage p * 0x1000 + 0x14)) (if p.val < 24 then 1 else 2) = true ∧ (t.dev.link p.val).credits = [] ∧
      (t.dev.link p.val).txSeq = (t.dev.link p.val).acked := by
  obtain ⟨hst, hisr, hcredits, hseq, -⟩ := d.linkGoDown_does p.isLt (by rw [hlen]; exact p.isLt) true capture
  exact ⟨_, hexec, rfl, hst, hisr rfl, hcredits, hseq⟩

theorem boundExceeded_trains (hrun : s.dev.running = true) (hst : 2 ≤ s.dev.linkState p.val ∧ s.dev.linkState p.val ≤ 4)
    (hdue : (s.dev.link p.val).since + us 50000 ≤ s.dev.tim.tide) :
    exec (.trainingBoundExceeded p) s = .next { s with dev := s.dev.linkGoDown p.val true false } := by
  refine (onDev_running hrun _).trans ?_
  rw [Dev.boundExceeded]
  rw [if_pos ⟨hst.1, hst.2, hdue⟩]

theorem boundExceeded_retrains (hrun : s.dev.running = true) (hst : s.dev.linkState p.val = 6)
    (hdue : (s.dev.link p.val).since + us (if (s.dev.link p.val).readapt then 5000 else 20) ≤ s.dev.tim.tide) :
    exec (.trainingBoundExceeded p) s = .next { s with dev := s.dev.linkGoDown p.val true true } := by
  refine (onDev_running hrun _).trans ?_
  rw [Dev.boundExceeded]
  rw [if_neg (by omega), if_pos ⟨hst, hdue⟩]

theorem boundExceeded_waits (hrun : s.dev.running = true) (hst : 2 ≤ s.dev.linkState p.val ∧ s.dev.linkState p.val ≤ 4)
    (hdue : s.dev.tim.tide < (s.dev.link p.val).since + us 50000) : exec (.trainingBoundExceeded p) s = .next s := by
  refine (onDev_running hrun _).trans ?_
  rw [Dev.boundExceeded]
  rw [if_neg (by omega), if_neg (by omega)]

theorem lossOfSignal_downs (hrun : s.dev.running = true) (hst : 5 ≤ s.dev.linkState p.val) :
    exec (.lossOfSignal p) s = .next { s with dev := s.dev.linkGoDown p.val true true } := by
  refine (onDev_running hrun _).trans ?_
  rw [Dev.lossOfSignal, if_pos hst]

theorem lossOfSignal_idle (hrun : s.dev.running = true) (hst : s.dev.linkState p.val < 5) : exec (.lossOfSignal p) s = .next s := by
  refine (onDev_running hrun _).trans ?_
  rw [Dev.lossOfSignal, if_neg (by omega)]

/-! ### TRAIN -/

/-- The registers once TRAIN has been judged. -/
def Dev.trained (p failed : Nat) (reversed : Bool) (d : Dev) : Dev :=
  (d.setFailed p failed).lwr p F.PRT_STAT_REVERSED F.LNDL_STAT_REVERSED (b2n reversed)

theorem Dev.trained_does {q : Nat} (hq : q < 28) (d : Dev) (failed : Nat) (reversed : Bool) :
    (failed ≤ allLanes q → (d.trained q failed reversed).failedLanes q = failed) ∧
    (d.trained q failed reversed).lrd q F.PRT_STAT_REVERSED F.LNDL_STAT_REVERSED = b2n reversed ∧
    (d.trained q failed reversed).links = d.links ∧ Beside settingWord Link.bare q d (d.trained q failed reversed) := by
  have hbool : b2n reversed < 2 := by cases reversed <;> decide
  have hf := d.beside_status (k := Link.bare) hq (f := F.PRT_STAT_FAILED_LANES) (g := F.LNDL_LANES_FAILED_LANES) (by decide) (by decide) failed
  have hr := (d.setFailed q failed).beside_status (k := Link.bare) hq (f := F.PRT_STAT_REVERSED) (g := F.LNDL_STAT_REVERSED) (by decide) (by decide)
    (b2n reversed)
  refine ⟨fun h => ?_, Dev.lrd_lwr_same _ (fun _ => ⟨hbool, by decide⟩) fun _ => ⟨hbool, by decide⟩, ?_, hf.trans hr⟩
  · refine (Dev.lrd_lwr_ne _ (by decide) (by decide)).trans ?_
    have hlt := allLanes_lt hq (f := F.PRT_STAT_FAILED_LANES) (g := F.LNDL_LANES_FAILED_LANES) rfl rfl h (by decide)
    exact Dev.lrd_lwr_same _ hlt.1 hlt.2
  · exact (Dev.lwr_frame _).1.trans (Dev.lwr_frame _).1

theorem precodeRequest_bit (d : Dev) {q wish i : Nat} (hi : i < laneCount q) : bit (d.precodeRequest q wish) i =
    (match d.rdpi F.PHY_LANE_CFG_PRECODE (phyPage q) i with
      | 0 => bit wish i
      | 1 => true
      | _ => false) := by
  unfold Dev.precodeRequest
  dsimp only
  rw [bit_lanes_filter hi]
  generalize d.rdpi F.PHY_LANE_CFG_PRECODE (phyPage q) i = x
  match x with
  | 0 => rfl
  | 1 => rfl
  | x + 2 => rfl

/-- A register of another page. -/
theorem Dev.word_lwr_ne (d : Dev) {q a v : Nat} {f g : Fld} (hf : f.at 0 < 0x1000) (hg : g.at 0 < 0x1000) (ha : a / 0x1000 ≠ linkPage q) :
    (d.lwr q f g v).word a = d.word a := by
  unfold Dev.lwr
  split
  · exact Dev.word_wrpi_ne _ _ _ _ _ _ (by rw [Fld.addr]; omega)
  · exact Dev.word_wrpi_ne _ _ _ _ _ _ (by rw [Fld.addr]; omega)

theorem Dev.precode_trained (d : Dev) {q i : Nat} (hq : q < 28) (hi : i < laneCount q) (failed : Nat) (reversed : Bool) :
    (d.trained q failed reversed).rdpi F.PHY_LANE_CFG_PRECODE (phyPage q) i = d.rdpi F.PHY_LANE_CFG_PRECODE (phyPage q) i := by
  obtain ⟨-, hpage⟩ := linkPage_range hq
  have hphy := phyPage_le q
  have hi16 : i < 16 := hi.trans_le (by unfold laneCount; split <;> decide)
  have hat : F.PHY_LANE_CFG_PRECODE.at i < 0x1000 := by
    simp only [Fld.at, F.PHY_LANE_CFG_PRECODE]
    omega
  have ha : F.PHY_LANE_CFG_PRECODE.addr (phyPage q) i / 0x1000 ≠ linkPage q := by
    rw [Fld.addr]
    omega
  refine congrArg (bits · 0 2) ?_
  exact (Dev.word_lwr_ne _ (by decide) (by decide) ha).trans (Dev.word_lwr_ne _ (by decide) (by decide) ha)

theorem trainComplete_aligns (hrun : s.dev.running = true) (hlen : s.dev.links.length = 28) (hst : s.dev.linkState p.val = 2) (r : Trained) (rev : Bool) :
    let use := maskMinus (allLanes p.val) (s.dev.disabledLanes p.val)
    let failed := Nat.lor (s.dev.failedLanes p.val) (maskMinus use r.passed)
    (maskMinus use failed ≠ 0 → ∃ t, exec (.trainComplete p r rev) s = .next t ∧ t.store = s.store ∧ t.dev.linkState p.val = 3 ∧
        (failed ≤ allLanes p.val → t.dev.failedLanes p.val = failed) ∧ (t.dev.link p.val).usable = use ∧
        t.dev.lrd p.val F.PRT_STAT_REVERSED F.LNDL_STAT_REVERSED = b2n rev ∧
        (∀ i < laneCount p.val,
          bit (t.dev.link p.val).precTx i = bit r.asked i ∧
          bit (t.dev.link p.val).precRx i = (match s.dev.rdpi F.PHY_LANE_CFG_PRECODE (phyPage p.val) i with
            | 0 => bit r.wish i
            | 1 => true
            | _ => false))) ∧
    (maskMinus use failed = 0 → exec (.trainComplete p r rev) s =
      .next { s with dev := (s.dev.trained p.val failed rev).linkGoDown p.val true false }) := by
  intro use failed
  have hp := p.isLt
  have hplen : p.val < s.dev.links.length := by rw [hlen]; exact hp
  have hdev : s.dev.trainComplete p r rev = if maskMinus use failed = 0 then (s.dev.trained p failed rev).linkGoDown p true false
      else ((s.dev.trained p failed rev).setLinkState p 3).setLink p { (s.dev.trained p failed rev).link p with
        usable := use, precRx := (s.dev.trained p failed rev).precodeRequest p r.wish, precTx := Nat.land r.asked (allLanes p) } := if_pos hst
  have hexec := onDev_running hrun (Dev.trainComplete p r rev)
  rw [hdev] at hexec
  refine ⟨fun hsome => ?_, fun hnone => hexec.trans (by rw [if_pos hnone])⟩
  rw [if_neg hsome] at hexec
  obtain ⟨hfailed, hrev, hlinks, hbeside⟩ := s.dev.trained_does hp failed rev
  have hprec : ∀ i < laneCount p.val, (s.dev.trained p failed rev).rdpi F.PHY_LANE_CFG_PRECODE (phyPage p) i =
      s.dev.rdpi F.PHY_LANE_CFG_PRECODE (phyPage p) i := fun i hi => s.dev.precode_trained hp hi failed rev
  generalize s.dev.trained p failed rev = a at hexec hfailed hrev hlinks hbeside hprec
  obtain ⟨h3, h3lrd, -, h3links, -⟩ := a.setLinkState_does hp (st := 3) (by decide)
  have hlink := (a.setLinkState p 3).link_setLink (l := { a.link p with
    usable := use, precRx := a.precodeRequest p r.wish, precTx := Nat.land r.asked (allLanes p) }) (by rw [h3links, hlinks]; exact hplen)
  refine ⟨_, hexec, rfl, ?_, fun h => ?_, ?_, ?_, fun i hi => ⟨?_, ?_⟩⟩
  · show ((a.setLinkState p 3).setLink p _).linkState p = 3
    rw [Dev.linkState_eq, Dev.lrd_setLink, ← Dev.linkState_eq, h3]
  · exact (Dev.lrd_setLink ..).trans ((h3lrd _ _ (by decide)).trans (hfailed h))
  · exact congrArg Link.usable hlink
  · exact (Dev.lrd_setLink ..).trans ((h3lrd _ _ (by decide)).trans hrev)
  · refine (congrArg (fun l : Link => bit l.precTx i) hlink).trans ?_
    show bit (Nat.land r.asked (allLanes p)) i = bit r.asked i
    rw [bit_and, bit_allLanes hi, Bool.and_true]
  · refine (congrArg (fun l : Link => bit l.precRx i) hlink).trans ?_
    rw [← hprec i hi]
    exact precodeRequest_bit a hi

end

end Sys2Proof.Machine


/-!
SUPPORT. O50, the first part: ALIGN and PARAM (R436, R438, R439, R447–R449, R591).
-/
namespace Sys2Proof.Machine

section
variable {s : State} {p : Fin 28}

/-! ### ALIGN -/

/-- A table of the members of a list. -/
theorem nget_zipIdx (l : List Nat) (j : Nat) (t : Tbl Nat) (k : Nat) : nget ((l.zipIdx j).foldl (fun t a => nset t a.2 a.1) t) k =
    if j ≤ k ∧ k < j + l.length then nth l (k - j) 0 else nget t k := by
  induction l generalizing j t with
  | nil => simp
  | cons x l ih =>
    rw [List.zipIdx_cons, List.foldl_cons, ih]
    by_cases hk : k = j
    · subst hk
      simp [nth]
    · rw [nget_nset_ne _ _ hk]
      by_cases hin : j + 1 ≤ k ∧ k < j + 1 + l.length
      · rw [if_pos hin, if_pos (by simp only [List.length_cons]; omega), nth, nth, show k - j = (k - (j + 1)) + 1 by omega, List.getElem?_cons_succ]
      · rw [if_neg hin, if_neg (by simp only [List.length_cons]; omega)]

theorem Dev.ownParam_congr {α : Type} {k : Link → α} {d e : Dev} {q : Nat} (hq : q < 28) (h : Beside settingWord k q d e) : e.ownParam q = d.ownParam q := by
  have hrte : ∀ (f : Fld) i, f.page = 0x61 → f.at i < 0x300 → 0x40 ≤ f.at i → f.at i ≠ 0x104 → f.at i ≠ 0x108 → e.rdi f i = d.rdi f i := by
    intro f i hpage hi hi' h4 h8
    have haddr : f.addr f.page i = 0x61 * 0x1000 + f.at i := by rw [Fld.addr, hpage]
    refine congrArg (bits · f.lo f.w) (h.word _ ?_ ?_)
    · rw [linkSide, haddr]
      omega
    · rw [settingWord, haddr]
      omega
  have hrole : ∀ f : Fld, f.page = 0x61 → f.off = 0x200 → f.stride = 4 → q < 24 → e.rdi f q = d.rdi f q := fun f hpage hoff hstride h24 => by
    have hat : f.at q = 0x200 + 4 * q := by rw [Fld.at, hoff, hstride]
    exact hrte f q hpage (by omega) (by omega) (by omega) (by omega)
  have hnode := Dev.node_congr h.glb
  have htow : e.towpath = d.towpath := congrArg (· == 1) (hrte F.RTE_CFG_MODE 0 rfl (by decide) (by decide) (by decide) (by decide))
  have hset : ∀ f g : Fld, f.at 0 ∈ [0x100, 0x10C, 0x110, 0x114, 0x118] → g.at 0 ∈ [0x300, 0x30C, 0x310, 0x314, 0x318] → e.lrd q f g = d.lrd q f g :=
    fun f g hf hg => Dev.lrd_setting hq h hf hg
  unfold Dev.ownParam
  rw [hnode, htow, hset F.PRT_CREDIT1_TOW _ (by decide) (by decide), hset F.PRT_CREDIT0_REQ _ (by decide) (by decide),
    hset F.PRT_CREDIT0_RSP _ (by decide) (by decide), hset F.PRT_CREDIT1_BULK _ (by decide) (by decide), hset F.PRT_CREDIT1_CTRL _ (by decide) (by decide)]
  by_cases h24 : q < 24
  · have hr : e.role q = d.role q := hrole _ rfl rfl rfl h24
    have hg : e.group q = d.group q := hrole _ rfl rfl rfl h24
    simp only [h24, if_true, hr, hg]
  · simp only [h24, if_false]

theorem length_ownParam (d : Dev) (q : Nat) : ((d.ownParam q).drop 4).length = 16 := rfl

/-- The link as ALIGN leaves it, before PARAM goes out. -/
def Link.aligned (l : Link) (adv : List Nat) (mask now : Nat) : Link :=
  { l with
    txSeq := 4095, acked := 4095, rxSeq := 4095, adv := adv
    lent := adv.zipIdx.foldl (fun t a => nset t a.2 a.1) ([] : Tbl Nat), txMask := mask, progressAt := now }

/-- Without a flit that awaits its acknowledgement there is room. -/
theorem Link.room_of_acked {l : Link} (h : l.txSeq = l.acked) : l.room = true := by
  rw [Link.room, h, Nat.add_sub_cancel_left]
  decide

theorem Link.room_aligned (l : Link) (adv : List Nat) (mask now : Nat) : (l.aligned adv mask now).room = true := Link.room_of_acked rfl

/-- PARAM is the first sequenced flit of the link (R438, R447). -/
theorem Link.lctl_aligned (l : Link) (adv : List Nat) (mask now : Nat) (sl : List Byte) :
    (((l.aligned adv mask now).lctl now sl).adv = adv) ∧
    (l.owed = [] → ((l.aligned adv mask now).lctl now sl).lent = adv.zipIdx.foldl (fun t a => nset t a.2 a.1) ([] : Tbl Nat)) ∧
    (l.lctlWait = [] → l.owed = [] → ((l.aligned adv mask now).lctl now sl).buffer = l.buffer ++ [{ seq := 0, kind := 2, slots := sl }]) := by
  have hroom := l.room_aligned adv mask now
  have hwait : (l.aligned adv mask now).lctlWait = l.lctlWait := rfl
  have hkind : (l.aligned adv mask now).kind 2 = 2 := if_pos hroom
  have hswitch : ∀ (x : Link) k q, (x.switched k q).adv = x.adv ∧ (x.switched k q).lent = x.lent ∧ (x.switched k q).buffer = x.buffer := by
    intro x k q
    unfold Link.switched
    split
    · split
      · exact ⟨rfl, rfl, rfl⟩
      · exact ⟨rfl, rfl, rfl⟩
    · exact ⟨rfl, rfl, rfl⟩
  have hgrants : l.owed = [] → (l.aligned adv mask now).grants 2 = [] := fun h => by
    show ((l.owed.take 2).map _) = []
    rw [h]
    rfl
  unfold Link.lctl
  rw [hwait]
  split
  · unfold Link.sends
    rw [hkind]
    obtain ⟨hadv, hlent, hbuf⟩ := hswitch ((l.aligned adv mask now).sent now 2 15 sl) 2 ((l.aligned adv mask now).flit 2 15 sl).seq
    rw [hadv, hlent, hbuf]
    refine ⟨rfl, fun h => ?_, fun _ h => ?_⟩
    · unfold Link.sent
      rw [hgrants h]
      rfl
    · unfold Link.sent Link.flit
      rw [hgrants h]
      simp [Link.aligned]
  · next h => exact ⟨rfl, fun _ => rfl, fun hw => absurd ⟨hroom, hw⟩ h⟩

theorem lctlSent_aligned {d : Dev} {q mask now : Nat} {l : Link} {adv : List Nat} {sl : List Byte} (hd : d.link q = l.aligned adv mask now)
    (howed : l.owed = []) (hwait : l.lctlWait = []) : lctlSent d q sl = [.flit q (Flit.bytes { seq := 0, kind := 2, slots := sl } 4095 false)] := by
  have hseq : (l.aligned adv mask now).txSeq = 4095 := rfl
  have hrx : (l.aligned adv mask now).rxSeq = 4095 := rfl
  have hgs : (l.aligned adv mask now).owed = [] := howed
  unfold lctlSent
  dsimp only
  rw [hd, if_pos ⟨Link.room_aligned .., hwait⟩, hseq, hrx, hgs]
  rfl

theorem alignComplete_params (hrun : s.dev.running = true) (hlen : s.dev.links.length = 28) (hst : s.dev.linkState p.val = 3) (healthy pmax : Nat) :
    let l := s.dev.link p.val
    let c := chosenMap p.val (min (s.dev.maxWidth p.val) (2 ^ pmax)) (s.dev.healthy p.val healthy)
    (c.1 ≠ 0 → ∃ t, exec (.alignComplete p healthy pmax) s = .next t ∧ t.store = s.store ∧ t.dev.linkState p.val = 4 ∧
        t.dev.linkWidth p.val = c.1 ∧ t.dev.laneMap p.val = c.2 ∧ t.dev.slackLanes p.val = maskMinus (allLanes p.val) c.2 ∧
        (t.dev.link p.val).adv = (s.dev.ownParam p.val).drop 4 ∧
        (l.owed = [] → ∀ k, nget (t.dev.link p.val).lent k = nth ((s.dev.ownParam p.val).drop 4) k 0) ∧
        (l.lctlWait = [] → l.owed = [] → (∀ e ∈ s.dev.eyes, e.page ≠ phyPage p.val) → ∃ f : Flit, f.seq = 0 ∧ f.kind = 2 ∧
          f.slots = paramSlots (s.dev.ownParam p.val) ∧ (t.dev.link p.val).buffer = l.buffer ++ [f] ∧
          t.dev.out = s.dev.out ++ [.flit p.val (f.bytes 4095 false)])) ∧
    (c.1 = 0 → exec (.alignComplete p healthy pmax) s = .next { s with dev := s.dev.linkGoDown p.val true false }) := by
  intro l c
  have hp := p.isLt
  have hplen : p.val < s.dev.links.length := by rw [hlen]; exact hp
  obtain ⟨hcw, -, hcm, -⟩ := chosenMap_does p.val (min (s.dev.maxWidth p.val) (2 ^ pmax)) (s.dev.healthy p.val healthy)
  have hexec := onDev_running hrun (Dev.alignComplete p healthy pmax)
  have hdev : s.dev.alignComplete p healthy pmax = if c.1 = 0 then s.dev.linkGoDown p true false else
      (((s.dev.setLinkState p 4).setMap p c.1 c.2).setLink p ((((s.dev.setLinkState p 4).setMap p c.1 c.2).link p).aligned
        ((((s.dev.setLinkState p 4).setMap p c.1 c.2).ownParam p).drop 4) c.2 ((s.dev.setLinkState p 4).setMap p c.1 c.2).tim.tide)).sendParam p :=
    if_pos hst
  rw [hdev] at hexec
  refine ⟨fun hsome => ?_, fun hnone => hexec.trans (by rw [if_pos hnone])⟩
  rw [if_neg hsome] at hexec
  obtain ⟨h4, -, h4beside, h4links, h4out, h4eyes⟩ := s.dev.setLinkState_does hp (st := 4) (by decide)
  obtain ⟨hw, hm, hs, hlrd, hbeside, hout⟩ := (s.dev.setLinkState p 4).setMap_does hp (by rw [h4links]; exact hplen) hcw hcm
  have hast : ((s.dev.setLinkState p 4).setMap p c.1 c.2).linkState p = 4 := by rw [Dev.linkState_eq, hlrd _ _ (by decide), ← Dev.linkState_eq, h4]
  rw [h4eyes, h4out] at hout
  have hto := h4beside.trans hbeside
  generalize (s.dev.setLinkState p 4).setMap p c.1 c.2 = a at hexec hw hm hs hout hto hast
  have hparam := Dev.ownParam_congr hp hto
  have halen : p.val < a.links.length := by rw [hto.len]; exact hplen
  rw [hparam] at hexec
  have hset := a.beside_setLink (W := anyWord) (g := fun _ => ()) (l := (a.link p).aligned ((s.dev.ownParam p).drop 4) c.2 a.tim.tide) halen rfl
  have hlink := a.link_setLink (l := (a.link p).aligned ((s.dev.ownParam p).drop 4) c.2 a.tim.tide) halen
  have hbparam := (Dev.ownParam_congr hp (hset.weaken (V := settingWord) (k := fun _ => ()) (fun _ _ => trivial) fun _ _ _ => rfl)).trans hparam
  have hbout : (a.setLink p ((a.link p).aligned ((s.dev.ownParam p).drop 4) c.2 a.tim.tide)).out = a.out := rfl
  have hbtide : (a.setLink p ((a.link p).aligned ((s.dev.ownParam p).drop 4) c.2 a.tim.tide)).tim.tide = a.tim.tide := rfl
  generalize a.setLink p ((a.link p).aligned ((s.dev.ownParam p).drop 4) c.2 a.tim.tide) = b at hexec hset hlink hbparam hbout hbtide
  unfold Dev.sendParam at hexec
  rw [hbparam] at hexec
  obtain ⟨hlout, hllink, hlbeside⟩ := b.lctlOut_does (by rw [hset.len]; exact halen) (paramSlots (s.dev.ownParam p))
  have hall := hset.trans hlbeside
  rw [hlink, hbtide] at hllink
  have howed : (a.link p).owed = l.owed := Link.of_bare Link.owed (fun _ => rfl) hto.link
  have hwait : (a.link p).lctlWait = l.lctlWait := Link.of_bare Link.lctlWait (fun _ => rfl) hto.link
  have hbuf : (a.link p).buffer = l.buffer := Link.of_bare Link.buffer (fun _ => rfl) hto.link
  obtain ⟨hadv, hlent, hbuffer⟩ := (a.link p).lctl_aligned ((s.dev.ownParam p).drop 4) c.2 a.tim.tide (paramSlots (s.dev.ownParam p))
  refine ⟨_, hexec, rfl, (hall.linkState hp).trans hast, (Dev.lrd_any hp hall (by decide) (by decide)).trans hw,
    (Dev.lrd_any hp hall (by decide) (by decide)).trans hm, (Dev.lrd_any hp hall (by decide) (by decide)).trans hs,
    (Link.of_bare Link.adv (fun _ => rfl) hllink).trans hadv, fun ho k => ?_, fun hwt ho heyes => ?_⟩
  · show nget ((b.lctlOut p (paramSlots (s.dev.ownParam p))).link p).lent k = _
    rw [Link.of_bare Link.lent (fun _ => rfl) hllink, hlent (howed.trans ho), nget_zipIdx]
    split
    · rfl
    · next h =>
      rw [nth, List.getElem?_eq_none (by omega)]
      rfl
  · refine ⟨{ seq := 0, kind := 2, slots := paramSlots (s.dev.ownParam p) }, rfl, rfl, rfl, ?_, ?_⟩
    · exact (Link.of_bare Link.buffer (fun _ => rfl) hllink).trans ((hbuffer (hwait.trans hwt) (howed.trans ho)).trans (by rw [hbuf]))
    · refine hlout.trans ?_
      rw [hbout, hout heyes, lctlSent_aligned hlink (howed.trans ho) (hwait.trans hwt)]

end

end Sys2Proof.Machine


/-!
SUPPORT. O50: PARAM, a failed lane, the end of RETRAIN; and the two parts together (R436, R438–R440, R449, R450, R591).
-/
namespace Sys2Proof.Machine

section
variable {s : State} {p : Fin 28} {q : Nat}

/-! ### Messages of accepted flits -/

theorem Dev.withLctl_other {d : Dev} {m : Lctl} (h : (d.link q).lctlIn.head? ≠ some m) (f : Dev → Dev) : d.withLctl q m f = d := by
  unfold Dev.withLctl
  split
  · rfl
  · next x rest hl =>
    rw [if_neg]
    rintro rfl
    exact h (by rw [hl]; rfl)

theorem Dev.withLctl_first {d : Dev} {m : Lctl} {rest : List Lctl} (h : (d.link q).lctlIn = m :: rest) (f : Dev → Dev) :
    d.withLctl q m f = f (d.setLink q { d.link q with lctlIn := rest }) := by
  unfold Dev.withLctl
  rw [h]
  exact if_pos rfl

/-! ### PARAM -/

/-- Fields that PRT_PARTNER does not hold. -/
abbrev besidePartner (f g : Fld) : Prop := f.at 0 ≠ 0x108 ∧ g.at 0 ≠ 0x308

theorem Dev.setPartner_does (hq : q < 28) (a : ParamMsg) (d : Dev) :
    (d.setPartner q a).lrd q F.PRT_PARTNER_NODE F.LNDL_PARTNER_NODE = a.node % 4096 ∧
    (d.setPartner q a).lrd q F.PRT_PARTNER_PORT F.LNDL_PARTNER_PORT = a.port % 32 ∧
    (d.setPartner q a).lrd q F.PRT_PARTNER_VALID F.LNDL_PARTNER_VALID = 1 ∧
    (∀ f g : Fld, besidePartner f g → (d.setPartner q a).lrd q f g = d.lrd q f g) ∧ (d.setPartner q a).links = d.links ∧
    Beside settingWord Link.bare q d (d.setPartner q a) := by
  have hsame : ∀ (e : Dev) (f g : Fld) v, f.w = g.w → f.lo + f.w ≤ 32 → g.lo + g.w ≤ 32 → (e.lwr q f g v).lrd q f g = v % 2 ^ f.w := by
    intro e f g v hw hf hg
    unfold Dev.lrd Dev.lwr
    split
    · exact Dev.rdpi_wrpi_same _ _ _ _ _ hf
    · exact (Dev.rdpi_wrpi_same _ _ _ _ _ hg).trans (by rw [hw])
  have hstat : ∀ (e : Dev) (f g : Fld) v, f.at 0 = 0x108 → g.at 0 = 0x308 → Beside settingWord Link.bare q e (e.lwr q f g v) := fun e f g v hf hg =>
    e.beside_status hq (by simp [hf]) (by simp [hg]) v
  unfold Dev.setPartner
  dsimp only
  refine ⟨?_, ?_, ?_, fun f g h => ?_, ?_, ?_⟩
  · simp (disch := decide) only [Dev.lrd_lwr_ne, hsame]
    rfl
  · simp (disch := decide) only [Dev.lrd_lwr_ne, hsame]
    rfl
  · simp (disch := decide) only [hsame]
    rfl
  · have hne : ∀ (e : Dev) (f' g' : Fld) v, f'.at 0 = 0x108 → g'.at 0 = 0x308 → (e.lwr q f' g' v).lrd q f g = e.lrd q f g := fun e f' g' v hf hg =>
      Dev.lrd_lwr_ne e (.inl (by rw [hf]; exact h.1)) (.inl (by rw [hg]; exact h.2))
    simp (disch := decide) only [hne]
  · simp only [Dev.lwr_frame]
  · exact ((((hstat _ _ _ _ rfl rfl).trans (hstat _ _ _ _ rfl rfl)).trans (hstat _ _ _ _ rfl rfl)).trans (hstat _ _ _ _ rfl rfl)).trans
      (hstat _ _ _ _ rfl rfl)

/-- A table of numbers. -/
theorem nget_table (f : Nat → Nat) (n k : Nat) (t : Tbl Nat) : nget ((List.range n).foldl (fun t k => nset t k (f k)) t) k =
    if k < n then f k else nget t k := by
  induction n with
  | zero => simp
  | succ n ih =>
    rw [List.range_succ, List.foldl_append, List.foldl_cons, List.foldl_nil, nget_nset, ih]
    by_cases hk : k = n
    · simp [hk]
    · rw [if_neg hk]
      exact if_congr (by omega) rfl rfl

theorem linkParam_up (hrun : s.dev.running = true) (hlen : s.dev.links.length = 28) (hst : s.dev.linkState p.val = 4) (a : ParamMsg) {rest : List Lctl}
    (hin : (s.dev.link p.val).lctlIn = .param a :: rest) :
    let l := s.dev.link p.val
    ∃ t, exec (.linkParam p a) s = .next t ∧ t.store = s.store ∧ t.dev.linkState p.val = 5 ∧
          bit (t.dev.word (linkPage p.val * 0x1000 + 0x14)) (if p.val < 24 then 0 else 1) = true ∧
          (t.dev.link p.val).txSeq = l.txSeq ∧ (t.dev.link p.val).acked = l.acked ∧ (t.dev.link p.val).rxSeq = l.rxSeq ∧
          (∀ k < 16, nget (t.dev.link p.val).credits k = nth a.credits k 0) ∧ (t.dev.link p.val).lent = l.lent ∧
          (t.dev.link p.val).buffer = l.buffer ∧ (t.dev.link p.val).lctlIn = rest ∧
          t.dev.lrd p.val F.PRT_PARTNER_NODE F.LNDL_PARTNER_NODE = a.node % 4096 ∧
          t.dev.lrd p.val F.PRT_PARTNER_PORT F.LNDL_PARTNER_PORT = a.port % 32 ∧
          t.dev.lrd p.val F.PRT_PARTNER_VALID F.LNDL_PARTNER_VALID = 1 := by
  intro l
  have hp := p.isLt
  have hplen : p.val < s.dev.links.length := by rw [hlen]; exact hp
  have hexec := onDev_running hrun (Dev.withLctl p (.param a) (Dev.paramArrive p a))
  rw [Dev.withLctl_first hin] at hexec
  have hlink := s.dev.link_setLink (l := { l with lctlIn := rest }) hplen
  have hlst : (s.dev.setLink p { l with lctlIn := rest }).linkState p = 4 := by rw [Dev.linkState_eq, Dev.lrd_setLink, ← Dev.linkState_eq, hst]
  have hset := s.dev.beside_setLink (W := anyWord) (g := fun _ => ()) (l := { l with lctlIn := rest }) hplen rfl
  generalize s.dev.setLink p { l with lctlIn := rest } = b at hexec hlink hlst hset
  obtain ⟨hnode, hport, hvalid, -, hplinks, -⟩ := Dev.setPartner_does hp a b
  obtain ⟨h5, h5lrd, -, h5links, -⟩ := (b.setPartner p a).setLinkState_does hp (st := 5) (by decide)
  have hdev : b.paramArrive p a = (((((b.setPartner p a).setLinkState p 5).setLink p { ((b.setPartner p a).setLinkState p 5).link p with
      credits := (List.range 16).foldl (fun t k => nset t k (nth a.credits k 0)) []
      upAt := ((b.setPartner p a).setLinkState p 5).tim.tide }).linkUpEvent p).timeLinkUp) := if_pos hlst
  rw [hdev] at hexec
  have hclink : ((b.setPartner p a).setLinkState p 5).link p = { l with lctlIn := rest } := by rw [Dev.link, h5links, hplinks, ← hlink, Dev.link]
  have hclen : p.val < ((b.setPartner p a).setLinkState p 5).links.length := by rw [h5links, hplinks, hset.len]; exact hplen
  have hn := (h5lrd F.PRT_PARTNER_NODE F.LNDL_PARTNER_NODE (by decide)).trans hnode
  have hpo := (h5lrd F.PRT_PARTNER_PORT F.LNDL_PARTNER_PORT (by decide)).trans hport
  have hva := (h5lrd F.PRT_PARTNER_VALID F.LNDL_PARTNER_VALID (by decide)).trans hvalid
  generalize (b.setPartner p a).setLinkState p 5 = c at hexec h5 hclink hclen hn hpo hva
  have hdlink := c.link_setLink (l := { c.link p with credits := (List.range 16).foldl (fun t k => nset t k (nth a.credits k 0)) [], upAt := c.tim.tide }) hclen
  have hcset := c.beside_setLink (W := anyWord) (g := fun _ => ())
    (l := { c.link p with credits := (List.range 16).foldl (fun t k => nset t k (nth a.credits k 0)) [], upAt := c.tim.tide }) hclen rfl
  generalize c.setLink p { c.link p with credits := (List.range 16).foldl (fun t k => nset t k (nth a.credits k 0)) [], upAt := c.tim.tide } = e at hexec hdlink hcset
  have hbit : (if p.val < 24 then 0 else 1) < 32 := by split <;> decide
  have hisr := Dev.isr_event e (linkPage p) hbit
  have hevent : Dev.Beside anyWord Link.bare p e (e.linkUpEvent p) := e.beside_event ..
  have htime := (e.linkUpEvent p).beside_timeLinkUp (W := anyWord) (g := Link.bare) (p := p)
  have hend := hevent.trans htime
  have hall := hcset.trans (hend.weaken (k := fun _ => ()) (fun _ h => h) fun _ _ _ => rfl)
  have hview : ∀ {β : Type} (k : Link → β), (∀ l, k l.bare = k l) → k ((e.linkUpEvent p).timeLinkUp.link p) = k { l with
      lctlIn := rest, credits := (List.range 16).foldl (fun t k => nset t k (nth a.credits k 0)) [], upAt := c.tim.tide } := fun k hk => by
    rw [Link.of_bare k hk hend.link, hdlink, hclink]
  refine ⟨_, hexec, rfl, (hall.linkState hp).trans h5, htime.isr _ hbit hisr, hview Link.txSeq fun _ => rfl, hview Link.acked fun _ => rfl,
    hview Link.rxSeq fun _ => rfl, fun k hk => ?_, hview Link.lent fun _ => rfl, hview Link.buffer fun _ => rfl, hview Link.lctlIn fun _ => rfl,
    (Dev.lrd_any hp hall (by decide) (by decide)).trans hn, (Dev.lrd_any hp hall (by decide) (by decide)).trans hpo,
    (Dev.lrd_any hp hall (by decide) (by decide)).trans hva⟩
  exact (congrArg (nget · k) (hview Link.credits fun _ => rfl)).trans ((nget_table (fun k => nth a.credits k 0) 16 k []).trans (if_pos hk))

theorem linkParam_early (hrun : s.dev.running = true) (hst : s.dev.linkState p.val < 4) (a : ParamMsg) {rest : List Lctl}
    (hin : (s.dev.link p.val).lctlIn = .param a :: rest) :
    exec (.linkParam p a) s = .next { s with dev := s.dev.setLink p.val { s.dev.link p.val with lctlIn := rest } } := by
  refine (onDev_running hrun _).trans ?_
  rw [Dev.withLctl_first hin]
  have hlst : ∀ l, (s.dev.setLink p l).linkState p < 4 := fun l => by rw [Dev.linkState_eq, Dev.lrd_setLink, ← Dev.linkState_eq]; exact hst
  have hdev : ∀ d : Dev, d.linkState p < 4 → d.paramArrive p a = d := fun d h => by rw [Dev.paramArrive, if_neg (by omega), if_neg (by omega)]
  rw [hdev _ (hlst _)]

theorem linkParam_late (hrun : s.dev.running = true) (hst : 4 < s.dev.linkState p.val) (a : ParamMsg) {rest : List Lctl}
    (hin : (s.dev.link p.val).lctlIn = .param a :: rest) :
    exec (.linkParam p a) s = .next { s with dev := (s.dev.setLink p.val { s.dev.link p.val with lctlIn := rest }).setPartner p.val a } := by
  refine (onDev_running hrun _).trans ?_
  rw [Dev.withLctl_first hin]
  have hlst : ∀ l, 4 < (s.dev.setLink p l).linkState p := fun l => by rw [Dev.linkState_eq, Dev.lrd_setLink, ← Dev.linkState_eq]; exact hst
  have hdev : ∀ d : Dev, 4 < d.linkState p → d.paramArrive p a = d.setPartner p a := fun d h => by
    rw [Dev.paramArrive, if_neg (by omega), if_pos (by omega)]
  rw [hdev _ (hlst _)]

/-! ### A lane that fails -/

/-- A failed lane as it is marked and captured (R440, R482). -/
def Dev.laneMarked (q lane : Nat) (d : Dev) : Dev :=
  (d.draw.2.setFailed q (Nat.lor (d.failedLanes q) (2 ^ lane))).capture (linkPage q) .degraded 0 (d.draw.1 % 256) (min q 0x3F) lane

theorem Dev.failedLanes_lt {d : Dev} : d.failedLanes q < 2 ^ laneCount q := by
  unfold Dev.failedLanes Dev.lrd laneCount
  split
  · exact bits_lt ..
  · exact bits_lt ..

theorem Dev.laneMarked_does (hq : q < 28) {lane : Nat} (hlane : lane < laneCount q) (d : Dev) :
    bit ((d.laneMarked q lane).failedLanes q) lane = true ∧ (d.laneMarked q lane).linkState q = d.linkState q ∧
    (d.laneMarked q lane).rdp F.BLK_ERR_CNT_ERRORS (linkPage q) = min (d.rdp F.BLK_ERR_CNT_ERRORS (linkPage q) + 1) 0xFFFF ∧
    (d.laneMarked q lane).links = d.links ∧ Beside settingWord Link.bare q d (d.laneMarked q lane) := by
  obtain ⟨hne, -⟩ := linkPage_range hq
  have hle : Nat.lor (d.failedLanes q) (2 ^ lane) < 2 ^ laneCount q := Nat.or_lt_two_pow d.failedLanes_lt (Nat.pow_lt_pow_right (by decide) hlane)
  have hlt := allLanes_lt hq (f := F.PRT_STAT_FAILED_LANES) (g := F.LNDL_LANES_FAILED_LANES) rfl rfl (Nat.le_sub_one_of_lt hle) (by decide)
  have hfailed : (d.draw.2.setFailed q (Nat.lor (d.failedLanes q) (2 ^ lane))).failedLanes q = Nat.lor (d.failedLanes q) (2 ^ lane) :=
    Dev.lrd_lwr_same _ hlt.1 hlt.2
  have hst : (d.draw.2.setFailed q (Nat.lor (d.failedLanes q) (2 ^ lane))).linkState q = d.linkState q := by
    rw [Dev.linkState_eq, Dev.linkState_eq]
    exact Dev.lrd_lwr_ne _ (by decide) (by decide)
  have herr : (d.draw.2.setFailed q (Nat.lor (d.failedLanes q) (2 ^ lane))).rdp F.BLK_ERR_CNT_ERRORS (linkPage q) =
      d.rdp F.BLK_ERR_CNT_ERRORS (linkPage q) := by
    unfold Dev.setFailed Dev.lwr
    split
    · exact Dev.rdp_wrp_other _ (by decide) _ _
    · exact Dev.rdp_wrp_other _ (by decide) _ _
  have hset : Beside settingWord Link.bare q d (d.draw.2.setFailed q (Nat.lor (d.failedLanes q) (2 ^ lane))) :=
    d.beside_draw.trans (Dev.beside_status (f := F.PRT_STAT_FAILED_LANES) (g := F.LNDL_LANES_FAILED_LANES) _ hq (by decide) (by decide) _)
  have hlinks : (d.draw.2.setFailed q (Nat.lor (d.failedLanes q) (2 ^ lane))).links = d.links := (Dev.lwr_frame _).1
  unfold Dev.laneMarked
  generalize d.draw.2.setFailed q (Nat.lor (d.failedLanes q) (2 ^ lane)) = a at hfailed hst herr hset hlinks
  have hcap : Beside anyWord Link.bare q a (a.capture (linkPage q) .degraded 0 (d.draw.1 % 256) (min q 0x3F) lane) := a.beside_capture hq ..
  refine ⟨?_, (hcap.linkState hq).trans hst, ?_, ?_, hset.trans (hcap.weaken (fun _ _ => trivial) fun _ _ h => h)⟩
  · rw [Dev.failedLanes, Dev.lrd_any hq hcap (by decide) (by decide)]
    refine (congrArg (bit · lane) hfailed).trans ?_
    rw [bit_or, bit_eq_testBit (2 ^ lane), Nat.testBit_two_pow_self, Bool.or_true]
  · rw [Dev.errors_capture _ hne, herr]
    rfl
  · simpa using hlinks

/-- A header register of the link's page, beside one of its own. -/
theorem Dev.rdp_lwr_other (d : Dev) {f g h : Fld} {v : Nat} (hf : h.at 0 ≠ f.at 0) (hg : h.at 0 ≠ g.at 0) :
    (d.lwr q f g v).rdp h (linkPage q) = d.rdp h (linkPage q) := by
  unfold Dev.lwr
  split
  · exact Dev.rdp_wrp_other _ hf _ _
  · exact Dev.rdp_wrp_other _ hg _ _

theorem Dev.word_eyeAbort (d : Dev) {a mask : Nat} (ha : a / 0x1000 < 0xA0) : (d.eyeAbort q mask).word a = d.word a := by
  have hphy := phyPage_le q
  have hend : (d.eyeEnd (phyPage q) true).word a = d.word a := by
    have hbusy : F.PHY_EYE_STAT_BUSY.addr (phyPage q) 0 = phyPage q * 0x1000 + 0x214 := rfl
    have hab : F.PHY_EYE_STAT_ABORTED.addr (phyPage q) 0 = phyPage q * 0x1000 + 0x214 := rfl
    unfold Dev.eyeEnd
    rw [Dev.word_event, if_neg (by omega)]
    exact (Dev.word_wrpi_ne _ _ _ _ _ _ (by rw [hab]; omega)).trans (Dev.word_wrpi_ne _ _ _ _ _ _ (by rw [hbusy]; omega))
  unfold Dev.eyeAbort
  split
  · exact hend
  · rfl

theorem Dev.errors_toRetrain (hq : q < 28) (d : Dev) : (d.toRetrain q).rdp F.BLK_ERR_CNT_ERRORS (linkPage q) = d.rdp F.BLK_ERR_CNT_ERRORS (linkPage q) := by
  obtain ⟨-, hpage⟩ := linkPage_range hq
  have hcount : ∀ (e : Dev) k, (e.linkCount q k 1).rdp F.BLK_ERR_CNT_ERRORS (linkPage q) = e.rdp F.BLK_ERR_CNT_ERRORS (linkPage q) := fun e k =>
    Dev.rdpi_congr (by simp [Dev.linkCount]) ..
  have hslack : ∀ (e : Dev) mask, (e.setSlack q mask).rdp F.BLK_ERR_CNT_ERRORS (linkPage q) = e.rdp F.BLK_ERR_CNT_ERRORS (linkPage q) := fun e mask =>
    (Dev.rdp_lwr_other _ (by decide) (by decide)).trans rfl
  have heye : ∀ (e : Dev) mask, (e.eyeAbort q mask).rdp F.BLK_ERR_CNT_ERRORS (linkPage q) = e.rdp F.BLK_ERR_CNT_ERRORS (linkPage q) := fun e mask =>
    congrArg (bits · F.BLK_ERR_CNT_ERRORS.lo F.BLK_ERR_CNT_ERRORS.w) (e.word_eyeAbort (by
      have haddr : F.BLK_ERR_CNT_ERRORS.addr (linkPage q) 0 = linkPage q * 0x1000 + 0x30 := rfl
      rw [haddr]
      omega))
  have hset : ∀ (e : Dev) l, (e.setLink q l).rdp F.BLK_ERR_CNT_ERRORS (linkPage q) = e.rdp F.BLK_ERR_CNT_ERRORS (linkPage q) := fun _ _ => rfl
  unfold Dev.toRetrain
  dsimp only
  rw [hset, hslack, hcount, heye]
  exact Dev.rdp_lwr_other _ (by decide) (by decide)

theorem laneFailure_retrains (hrun : s.dev.running = true) (hlen : s.dev.links.length = 28) {lane : Nat}
    (hst : s.dev.linkState p.val = 5 ∨ s.dev.linkState p.val = 6) (hlane : lane < laneCount p.val) (hmap : bit (s.dev.laneMap p.val) lane = true) :
    let l := s.dev.link p.val
    ∃ t, exec (.laneFailure p lane) s = .next t ∧ (t.store = s.store ∧ (t.dev.link p.val).credits = l.credits ∧
      (t.dev.link p.val).txSeq = l.txSeq ∧ (t.dev.link p.val).acked = l.acked) ∧ t.dev.linkState p.val = 6 ∧ bit (t.dev.failedLanes p.val) lane = true ∧
      (t.dev.link p.val).readapt = t.dev.mustReadapt p.val ∧
      t.dev.rdp F.BLK_ERR_CNT_ERRORS (linkPage p.val) = min (s.dev.rdp F.BLK_ERR_CNT_ERRORS (linkPage p.val) + 1) 0xFFFF := by
  intro l
  have hp := p.isLt
  have hplen : p.val < s.dev.links.length := by rw [hlen]; exact hp
  have hexec := onDev_running hrun (Dev.laneFailure p lane)
  have hdev : s.dev.laneFailure p lane = if (s.dev.laneMarked p lane).linkState p = 5 then (s.dev.laneMarked p lane).toRetrain p
      else (s.dev.laneMarked p lane).setLink p { (s.dev.laneMarked p lane).link p with readapt := (s.dev.laneMarked p lane).mustReadapt p } :=
    if_pos ⟨hst, hmap⟩
  obtain ⟨hfailed, hmst, herr, hlinks, hbeside⟩ := s.dev.laneMarked_does hp hlane
  rw [hdev, hmst] at hexec
  generalize s.dev.laneMarked p lane = a at hexec hfailed hmst herr hlinks hbeside
  have halink : a.link p = l := by rw [Dev.link, hlinks, ← Dev.link]
  have halen : p.val < a.links.length := by rw [hlinks]; exact hplen
  by_cases h5 : s.dev.linkState p.val = 5
  · rw [if_pos h5] at hexec
    obtain ⟨h6, hlrd, ⟨r, hlink, hr⟩, -⟩ := a.toRetrain_does hp halen
    rw [halink] at hlink
    have hview : ∀ {β : Type} (k : Link → β), (∀ l, k l.bare = k l) → k ((a.toRetrain p).link p) = k { l.bare with
        since := a.tim.tide, readapt := r, width := none, txSwitch := none, changedSince := a.tim.tide + 1 } := fun k hk => by rw [← hk, hlink]
    refine ⟨_, hexec, ⟨rfl, hview Link.credits fun _ => rfl, hview Link.txSeq fun _ => rfl, hview Link.acked fun _ => rfl⟩, h6, ?_,
      (hview Link.readapt fun _ => rfl).trans hr, (Dev.errors_toRetrain hp a).trans herr⟩
    exact (congrArg (bit · lane) (hlrd _ _ (by decide))).trans hfailed
  · rw [if_neg h5] at hexec
    have hlink := a.link_setLink (l := { a.link p with readapt := a.mustReadapt p }) halen
    have hview : ∀ {β : Type} (k : Link → β), k ((a.setLink p { a.link p with readapt := a.mustReadapt p }).link p) = k { l with readapt := a.mustReadapt p } :=
      fun k => by rw [hlink, halink]
    refine ⟨_, hexec, ⟨rfl, hview Link.credits, hview Link.txSeq, hview Link.acked⟩, ?_, hfailed, (hview Link.readapt).trans ?_, herr⟩
    · show (a.setLink p _).linkState p = 6
      rw [Dev.linkState_eq, Dev.lrd_setLink, ← Dev.linkState_eq, hmst]
      omega
    · exact (Dev.mustReadapt_congr (d := a) (e := a.setLink p { a.link p with readapt := a.mustReadapt p }) rfl rfl rfl (by rw [hlink])).symm

theorem laneFailure_idle (hrun : s.dev.running = true) {lane : Nat}
    (h : (s.dev.linkState p.val ≠ 5 ∧ s.dev.linkState p.val ≠ 6) ∨ bit (s.dev.laneMap p.val) lane = false) : exec (.laneFailure p lane) s = .next s := by
  refine (onDev_running hrun _).trans ?_
  rw [Dev.laneFailure, if_neg]
  rintro ⟨hst, hmap⟩
  rcases h with h | h
  · omega
  · rw [h] at hmap
    cases hmap

end

end Sys2Proof.Machine


/-!
SUPPORT. O50: the end of RETRAIN, and the statement (R432–R440, R449–R454, R461, R621).
-/
namespace Sys2Proof.Machine

section
variable {s : State} {p : Fin 28}

theorem retrainComplete_replays (hrun : s.dev.running = true) (hlen : s.dev.links.length = 28) (hst : s.dev.linkState p.val = 6) (far : FarLanes) :
    let l := s.dev.link p.val
    let c := chosenMap p.val (min (s.dev.maxWidth p.val) (2 ^ far.maxWidth)) (s.dev.healthy p.val far.healthy)
    (c.1 ≠ 0 → ∃ t, exec (.retrainComplete p far) s = .next t ∧ (t.store = s.store ∧ (t.dev.link p.val).credits = l.credits ∧
        (t.dev.link p.val).txSeq = l.txSeq ∧ (t.dev.link p.val).acked = l.acked) ∧ t.dev.linkState p.val = 5 ∧ t.dev.linkWidth p.val = c.1 ∧
        t.dev.laneMap p.val = c.2 ∧ (t.dev.link p.val).txMask = c.2 ∧
        (t.dev.link p.val).buffer = l.buffer ∧ (∀ g ∈ l.buffer, Emit.flit p.val (g.bytes l.rxSeq false) ∈ t.dev.out)) ∧
    (c.1 = 0 → exec (.retrainComplete p far) s = .next { s with dev := s.dev.linkGoDown p.val true true }) := by
  intro l c
  have hp := p.isLt
  have hplen : p.val < s.dev.links.length := by rw [hlen]; exact hp
  obtain ⟨hcw, -, hcm, -⟩ := chosenMap_does p.val (min (s.dev.maxWidth p.val) (2 ^ far.maxWidth)) (s.dev.healthy p.val far.healthy)
  have hexec := onDev_running hrun (Dev.retrainComplete p far)
  have hdev : s.dev.retrainComplete p far = if c.1 = 0 then s.dev.linkGoDown p true true else
      (((((s.dev.setLinkState p 5).newMap p c.1 c.2).setLink p { ((s.dev.setLinkState p 5).newMap p c.1 c.2).link p with
        progressAt := ((s.dev.setLinkState p 5).newMap p c.1 c.2).tim.tide }).replay p).retryRecv) := if_pos hst
  rw [hdev] at hexec
  refine ⟨fun hsome => ?_, fun hnone => hexec.trans (by rw [if_pos hnone])⟩
  rw [if_neg hsome] at hexec
  obtain ⟨h5, -, -, h5links, -⟩ := s.dev.setLinkState_does hp (st := 5) (by decide)
  have h5link : (s.dev.setLinkState p 5).link p = l := by rw [Dev.link, h5links, ← Dev.link]
  obtain ⟨hw, hm, -, hnst, hnlink, hnbeside⟩ := (s.dev.setLinkState p 5).newMap_does hp (by rw [h5links]; exact hplen) hcw hcm
  rw [h5] at hnst
  rw [h5link] at hnlink
  have hnlen : p.val < ((s.dev.setLinkState p 5).newMap p c.1 c.2).links.length := by rw [hnbeside.len, h5links]; exact hplen
  generalize (s.dev.setLinkState p 5).newMap p c.1 c.2 = a at hexec hw hm hnst hnlink hnlen
  have halink := a.link_setLink (l := { a.link p with progressAt := a.tim.tide }) hnlen
  have hset := a.beside_setLink (W := anyWord) (g := fun _ => ()) (l := { a.link p with progressAt := a.tim.tide }) hnlen rfl
  generalize a.setLink p { a.link p with progressAt := a.tim.tide } = b at hexec halink hset
  have hview : ∀ {β : Type} (k : Link → β), (∀ l, k l.bare = k l) → (∀ (l : Link) n, k { l with progressAt := n } = k l) →
      k (b.link p) = k { l.bare with width := none, txMask := c.2, txSwitch := none, changedSince := (s.dev.setLinkState p 5).tim.tide + 1 } :=
    fun k hk hnow => by rw [halink, hnow, ← hk, hnlink]
  obtain ⟨hout, hrbeside⟩ := b.replay_does (by rw [hset.len]; exact hnlen)
  have hswitch := (beside_switch (W := anyWord) (g := Link.core) hp fun _ => rfl).retryRecv (b.replay p)
  have hrlen := hrbeside.len
  generalize b.replay p = e at hexec hout hrbeside hswitch
  have hall := hset.trans ((hrbeside.weaken (k := fun _ => ()) (fun _ h => h) fun _ _ _ => rfl).trans
    (hswitch.weaken (k := fun _ => ()) (fun _ h => h) fun _ _ _ => rfl))
  have hend : ∀ {β : Type} (k : Link → β), (∀ l, k l.core = k l) → (∀ l, k l.unreplayed = k l) → k (e.retryRecv.link p) = k (b.link p) := by
    intro β k hcore hun
    refine (hcore _).symm.trans ((congrArg k hswitch.link).trans ((hcore _).trans ?_))
    exact (hun _).symm.trans ((congrArg k hrbeside.link).trans (hun _))
  refine ⟨_, hexec, ⟨rfl, ?_, ?_, ?_⟩, (hall.linkState hp).trans hnst, (Dev.lrd_any hp hall (by decide) (by decide)).trans hw,
    (Dev.lrd_any hp hall (by decide) (by decide)).trans hm, ?_, ?_, fun g hg => ?_⟩
  · exact (hend Link.credits (fun _ => rfl) fun _ => rfl).trans (hview Link.credits (fun _ => rfl) fun _ _ => rfl)
  · exact (hend Link.txSeq (fun _ => rfl) fun _ => rfl).trans (hview Link.txSeq (fun _ => rfl) fun _ _ => rfl)
  · exact (hend Link.acked (fun _ => rfl) fun _ => rfl).trans (hview Link.acked (fun _ => rfl) fun _ _ => rfl)
  · exact (hend Link.txMask (fun _ => rfl) fun _ => rfl).trans (hview Link.txMask (fun _ => rfl) fun _ _ => rfl)
  · exact (hend Link.buffer (fun _ => rfl) fun _ => rfl).trans (hview Link.buffer (fun _ => rfl) fun _ _ => rfl)
  · refine hswitch.out.subset ?_
    rw [hout, hview Link.buffer (fun _ => rfl) fun _ _ => rfl, hview Link.rxSeq (fun _ => rfl) fun _ _ => rfl]
    exact List.mem_append_right _ (List.mem_map_of_mem hg)

end

theorem linkTraining : Said.LinkTraining := by
  intro p s hrun hshape
  obtain ⟨-, -, hlen, -⟩ := hshape
  dsimp only
  refine ⟨fun m v hopen hown hq => ⟨fun htaken hst hboot hrole hpwr => linkEnable_detects hopen hown hq hlen htaken hst hboot hrole hpwr,
    fun htaken hst => linkDisable_downs hopen hown hq hlen htaken hst⟩, fun hst hdue => detectTimer_sends hrun hlen hst hdue,
    fun h => detectTimer_waits hrun h, fun hst => partnerDetected_trains hrun hst, fun r rev hst => ?_, fun healthy pmax hst => ?_, fun a => ⟨fun h => ?_,
    fun rest hin => ⟨fun hst => linkParam_up hrun hlen hst a hin, fun hst => linkParam_early hrun hst a hin, fun hst => linkParam_late hrun hst a hin⟩⟩,
    fun hst hdue => goDown_said (boundExceeded_trains hrun hst hdue) hlen, fun hst hdue => goDown_said (boundExceeded_retrains hrun hst hdue) hlen,
    fun hst hdue => boundExceeded_waits hrun hst hdue, fun hst => goDown_said (lossOfSignal_downs hrun hst) hlen,
    fun hst => lossOfSignal_idle hrun hst, fun lane => ⟨fun hst hlane hmap => laneFailure_retrains hrun hlen hst hlane hmap,
    fun h => laneFailure_idle hrun h⟩, fun far hst => ?_⟩
  · obtain ⟨hgood, hnone⟩ := trainComplete_aligns (p := p) hrun hlen hst r rev
    exact ⟨hgood, fun h => goDown_said (hnone h) (by rw [(s.dev.trained_does p.isLt _ _).2.2.1, hlen])⟩
  · obtain ⟨hgood, hnone⟩ := alignComplete_params (p := p) hrun hlen hst healthy pmax
    exact ⟨hgood, fun h => goDown_said (hnone h) hlen⟩
  · refine (onDev_running hrun _).trans ?_
    rw [Dev.withLctl_other h]
  · obtain ⟨hgood, hnone⟩ := retrainComplete_replays (p := p) hrun hlen hst far
    exact ⟨hgood, fun h => goDown_said (hnone h) hlen⟩

/-- Settles O50: the training of a link, through what each of its operations leaves of the link's registers and its queues; and its eye
scans. -/
theorem linkBringUp : Obligations.LinkBringUp := ⟨linkTraining, eyeScans⟩

end Sys2Proof.Machine


/-!
SUPPORT. O49, the first part: what flits leave of a link's reception, and the answers to flits that are lost (R43–R45, R440, R450, R461).
-/
namespace Sys2Proof.Machine

/-- What of a link the flits that leave it, its replays and its lane map do not touch. -/
structure Reception where
  rxSeq : Nat
  acked : Nat
  credits : Tbl Nat
  rx : List Frame
  rxPart : List Byte
  lctlIn : List Lctl
  nakWait : Bool

def Link.reception (l : Link) : Reception := ⟨l.rxSeq, l.acked, l.credits, l.rx, l.rxPart, l.lctlIn, l.nakWait⟩

/-- What of a link the entry into RETRAIN and a bad codeword leave. -/
def Link.traffic (l : Link) : Link :=
  { l.bare with since := 0, readapt := false, width := none, txSwitch := none, changedSince := 0, badWords := [] }

/-- A part of the link that its view says as well. -/
theorem Dev.Beside.view {β : Type} {W : Nat → Prop} {g : Link → Link} {p : Nat} {d e : Dev} (h : Beside W g p d e) (k : Link → β)
    (hk : ∀ l, k (g l) = k l) : k (e.link p) = k (d.link p) :=
  (hk _).symm.trans ((congrArg k h.link).trans (hk _))

theorem Link.of_traffic {α : Type} {g : Link → α} (hg : ∀ l, g l.traffic = g l) {l l' : Link} (h : l.traffic = l'.traffic) : g l = g l' :=
  (hg l).symm.trans ((congrArg g h).trans (hg l'))

/-- What of a link a new lane map leaves. -/
def Link.unmapped (l : Link) : Link := { l.bare with width := none, txMask := 0, txSwitch := none, changedSince := 0 }

theorem Link.switched_keeps {β : Type} (k : Link → β) (h : ∀ (l : Link) m w, k { l with txMask := m, txSwitch := w } = k l) (l : Link) (kind seq : Nat) :
    k (l.switched kind seq) = k l := by
  unfold Link.switched
  split
  · split
    · exact h l _ _
    · rfl
  · rfl

theorem Link.reception_sends (l : Link) (now kind start : Nat) (sl : List Byte) : (l.sends now kind start sl).reception = l.reception :=
  Link.switched_keeps Link.reception (fun _ _ _ => rfl) _ _ _

theorem Link.reception_lctl (l : Link) (now : Nat) (sl : List Byte) : (l.lctl now sl).reception = l.reception := by
  unfold Link.lctl
  split
  · exact l.reception_sends ..
  · rfl

section
variable {α : Type} {g : Link → α} {p : Nat} (d : Dev)

/-! ### Codewords -/

theorem Dev.beside_toRetrain (hp : p < 28) (hlen : p < d.links.length) (hg : ∀ l, g l.traffic = g l) : Beside settingWord g p d (d.toRetrain p) := by
  obtain ⟨-, -, ⟨r, hlink, -⟩, h⟩ := d.toRetrain_does hp hlen
  have htraffic : ((d.toRetrain p).link p).bare.traffic = (d.link p).bare.traffic := by
    rw [hlink]
    rfl
  exact h.relink (Link.of_traffic hg htraffic)

theorem Dev.beside_laneMarked (hp : p < 28) (lane : Nat) : Beside settingWord Link.bare p d (d.laneMarked p lane) :=
  (d.beside_draw.trans (Dev.beside_status (f := F.PRT_STAT_FAILED_LANES) (g := F.LNDL_LANES_FAILED_LANES) _ hp (by decide) (by decide) _)).trans
    (Dev.beside_capture _ hp ..)

theorem Dev.beside_laneFailure (hp : p < 28) (hlen : p < d.links.length) (hg : ∀ l, g l.traffic = g l) (lane : Nat) :
    Beside settingWord g p d (d.laneFailure p lane) := by
  have hmark := d.beside_laneMarked hp lane
  have hmark' : Beside settingWord g p d (d.laneMarked p lane) :=
    hmark.weaken (fun _ h => h) fun _ _ h => Link.of_traffic hg (Link.of_bare Link.traffic (fun _ => rfl) h)
  have hmlen : p < (d.laneMarked p lane).links.length := by rw [hmark.len]; exact hlen
  refine .ite (hmark'.trans (.ite (Dev.beside_toRetrain _ hp hmlen hg) (Dev.beside_setLink _ hmlen (Link.of_traffic hg rfl)))) (.refl d)

theorem Dev.beside_fecCount (hp : p < 28) (hlen : p < d.links.length) (hg : ∀ l, g l.traffic = g l) (w : FecWord) :
    Beside settingWord g p d (d.fecCount p w) := by
  unfold Dev.fecCount
  refine .ite (.refl d) (.ite ((d.beside_count ..).trans (beside_corrected ..)) ?_)
  have hcount : Beside settingWord g p d (d.count (phyPage p) (2 * w.lane + 1) 1) := d.beside_count ..
  dsimp only
  generalize d.count (phyPage p) (2 * w.lane + 1) 1 = a at hcount
  have hset : ∀ b, Beside settingWord g p a (a.setLink p { a.link p with badWords := b }) := fun b =>
    a.beside_setLink (by rw [hcount.len]; exact hlen) (Link.of_traffic hg rfl)
  refine hcount.trans ((hset _).trans (.ite (Dev.beside_laneFailure _ hp ?_ hg _) (.refl _)))
  rw [(hset _).len, hcount.len]
  exact hlen

theorem Dev.beside_fecCounts (hp : p < 28) (hg : ∀ l, g l.traffic = g l) (ws : List FecWord) (hlen : p < d.links.length) :
    Beside settingWord g p d (ws.foldl (Dev.fecCount p) d) := by
  induction ws generalizing d with
  | nil => exact .refl d
  | cons w ws ih =>
    have hone := d.beside_fecCount hp hlen hg w
    exact hone.trans (ih _ (by rw [hone.len]; exact hlen))

/-- Codewords that could be corrected leave every register of the link. -/
theorem Dev.beside_fecCorrected (ws : List FecWord) (hok : ∀ w ∈ ws, w.bad = false) : Beside anyWord g p d (ws.foldl (Dev.fecCount p) d) := by
  induction ws generalizing d with
  | nil => exact .refl d
  | cons w ws ih =>
    refine .trans ?_ (ih _ fun x hx => hok x (by simp [hx]))
    unfold Dev.fecCount
    simp only [hok w (by simp), Bool.not_false, if_true]
    exact .ite (.refl d) ((d.beside_count ..).trans (beside_corrected ..))

theorem Dev.fecCounts_later (ws : List FecWord) (h : ∀ w ∈ ws, w.first = false) : ws.foldl (Dev.fecCount p) d = d :=
  List.foldl_fixed_of_mem fun w hw => by
    unfold Dev.fecCount
    simp [h w hw]

/-! ### NAK and ACK -/

/-- What of a link a NAK leaves. -/
def Link.unasked (l : Link) : Link := { l.bare with flitsSinceAck := 0, progressAt := 0, nakWait := false, nakAt := 0 }

theorem Dev.sendNak_does (hlen : p < d.links.length) : (d.sendNak p).out = d.out ++ [nakSent d p] ∧
    ((d.sendNak p).link p).nakWait = true ∧ ((d.sendNak p).link p).flitsSinceAck = 0 ∧ ((d.sendNak p).link p).nakAt = d.tim.tide ∧
    Beside anyWord Link.unasked p d (d.sendNak p) := by
  obtain ⟨hout, hlink, hbeside⟩ := d.flitOut_does (W := anyWord) hlen 1 true 15 []
  have hkind : (d.link p).kind 1 = 1 := by
    unfold Link.kind
    split <;> rfl
  have hsends : (d.link p).sends d.tim.tide 1 15 [] = (d.link p).sent d.tim.tide 1 15 [] := by
    unfold Link.sends Link.switched
    rw [hkind]
    split <;> rfl
  rw [hkind] at hout
  rw [hsends] at hlink
  unfold Dev.sendNak
  dsimp only
  have hcount : Beside anyWord Link.bare p (d.flitOut p 1 true 15 []) ((d.flitOut p 1 true 15 []).linkCount p 3 1) := Dev.beside_linkCount ..
  have hcout : ((d.flitOut p 1 true 15 []).linkCount p 3 1).out = (d.flitOut p 1 true 15 []).out := by simp [Dev.linkCount]
  generalize d.flitOut p 1 true 15 [] = a at hout hlink hbeside hcount hcout
  generalize a.linkCount p 3 1 = b at hcount hcout
  have hblen : p < b.links.length := by rw [hcount.len, hbeside.len]; exact hlen
  have hset := b.link_setLink (l := { b.link p with nakWait := true, nakAt := b.tim.tide }) hblen
  have hbare : (b.link p).bare = ((d.link p).sent d.tim.tide 1 15 []).bare := hcount.link.trans hlink
  refine ⟨hcout.trans hout, by rw [hset], ?_, ?_, ?_⟩
  · rw [hset]
    exact (Link.of_bare Link.flitsSinceAck (fun _ => rfl) hbare).trans rfl
  · rw [hset]
    exact hcount.tide.trans hbeside.tide
  · refine ((hbeside.trans (hcount.weaken (fun _ h => h) fun _ _ _ => rfl)).trans (Dev.beside_setLink (g := fun _ => ()) _ hblen rfl)).relink ?_
    rw [hset]
    have hsame : (b.link p).unasked = ((d.link p).sent d.tim.tide 1 15 []).unasked := Link.of_bare Link.unasked (fun _ => rfl) hbare
    exact (show _ = (b.link p).unasked from rfl).trans (hsame.trans rfl)

/-- What a flit that may go for ACK leaves. -/
theorem Dev.ackDue_does (hlen : p < d.links.length) : Beside anyWord Link.reception p d (d.ackDue p) ∧
    ((d.link p).flitsSinceAck = 0 → (d.ackDue p).out = d.out) := by
  unfold Dev.ackDue
  dsimp only
  have hset := d.link_setLink (l := { d.link p with flitsSinceAck := (d.link p).flitsSinceAck + 1 }) hlen
  have hbeside := d.beside_setLink (W := anyWord) (g := Link.reception) (l := { d.link p with flitsSinceAck := (d.link p).flitsSinceAck + 1 }) hlen rfl
  have hout : (d.setLink p { d.link p with flitsSinceAck := (d.link p).flitsSinceAck + 1 }).out = d.out := rfl
  generalize d.setLink p { d.link p with flitsSinceAck := (d.link p).flitsSinceAck + 1 } = a at hset hbeside hout
  refine ⟨hbeside.trans (.ite ?_ (.refl a)), fun h => ?_⟩
  · exact a.beside_flitOut (by rw [hbeside.len]; exact hlen) (fun _ => rfl) (fun _ _ => Link.reception_sends ..) _
  · rw [if_neg (by rw [hset]; simp only; omega), hout]

end

end Sys2Proof.Machine


/-!
SUPPORT. O49, the first part: flits that are lost, codewords that are counted, and NAK (R434, R440, R450, R461).
-/
namespace Sys2Proof.Machine

section
variable {p q j : Nat} (d : Dev) (hq : 0xA0 ≤ q) (hj : j < 1024) (hp : p < 28)
include hq hj

/-! ### Counters of a lane's page -/

theorem Dev.counter_lwr {f g : Fld} {v : Nat} : (d.lwr p f g v).counter q j = d.counter q j := by
  have _ := hq
  have _ := hj
  refine Dev.counter_congr ?_ _ _
  unfold Dev.lwr
  split <;> rfl

include hp

theorem Dev.counter_linkCount {k : Nat} (hk : k < 16) (n : Nat) : (d.linkCount p k n).counter q j = d.counter q j := by
  obtain ⟨-, hpage⟩ := linkPage_range hp
  exact Dev.counter_count_ne hj (by split <;> omega) n (.inl (by omega))

theorem Dev.counter_flitOut (kind : Nat) (nak : Bool) (start : Nat) (sl : List Byte) : (d.flitOut p kind nak start sl).counter q j = d.counter q j := by
  have hswitch : ∀ (e : Dev) k n w, (e.switchMap p k n w).counter q j = e.counter q j := fun e k n w => by
    refine Dev.counter_congr ?_ _ _
    unfold Dev.switchMap
    split
    · split <;> rfl
    · rfl
  have hblock : ∀ (e : Dev) b, (e.sendBlock p b).cnts = e.cnts := fun e b => by
    unfold Dev.sendBlock
    dsimp only
    split <;> rfl
  have hflit : ∀ (e : Dev) b, (e.sendFlit p b).counter q j = e.counter q j := fun e b =>
    Dev.counter_congr ((List.foldl_keeps (g := Dev.cnts) (fun e _ => hblock e _) _ _).trans rfl) _ _
  rw [Dev.flitOut_eq, hswitch, Dev.counter_linkCount _ hq hj hp (by decide), hflit]
  rfl

theorem Dev.counter_toRetrain : (d.toRetrain p).counter q j = d.counter q j := by
  have heye : ∀ (e : Dev) mask, (e.eyeAbort p mask).counter q j = e.counter q j := fun e mask => by
    unfold Dev.eyeAbort Dev.eyeEnd
    split
    · exact (Dev.counter_event (by omega) hj _ _).trans (Dev.counter_congr rfl _ _)
    · rfl
  have hset : ∀ (e : Dev) l, (e.setLink p l).counter q j = e.counter q j := fun _ _ => rfl
  unfold Dev.toRetrain Dev.setSlack
  dsimp only
  rw [hset, Dev.counter_lwr _ hq hj, hset, Dev.counter_linkCount _ hq hj hp (by decide), heye]
  exact Dev.counter_lwr _ hq hj

theorem Dev.counter_laneFailure (lane : Nat) : (d.laneFailure p lane).counter q j = d.counter q j := by
  have hmark : (d.laneMarked p lane).counter q j = d.counter q j :=
    (Dev.counter_capture (by omega) hj ..).trans ((Dev.counter_lwr _ hq hj).trans rfl)
  unfold Dev.laneFailure
  split
  · show (if _ then _ else _ : Dev).counter q j = _
    split
    · exact (Dev.counter_toRetrain _ hq hj hp).trans hmark
    · exact hmark
  · rfl

theorem Dev.counter_sendNak : (d.sendNak p).counter q j = d.counter q j :=
  (Dev.counter_linkCount _ hq hj hp (by decide) 1).trans (Dev.counter_flitOut _ hq hj hp ..)

theorem Dev.counter_ackDue : (d.ackDue p).counter q j = d.counter q j := by
  unfold Dev.ackDue
  dsimp only
  split
  · exact (Dev.counter_flitOut _ hq hj hp ..).trans rfl
  · rfl

end

section
variable {s : State} {p : Fin 28}

/-! ### A flit that is lost -/

/-- A flit of which no word stood in the crossing (R450). -/
def Dev.flitLost (p : Nat) (ws : List FecWord) (d : Dev) : Dev :=
  let d := (ws.foldl (Dev.fecCount p) (d.linkCount p 1 1)).linkCount p 2 1
  (if (d.link p).nakWait then d else d.sendNak p).ackDue p

theorem flitReceive_lost (hrun : s.dev.running = true) {f : FlitMsg} (hst : 4 ≤ s.dev.linkState p.val) (hbad : f.good = false) :
    exec (.flitReceive p f) s = .next { s with dev := s.dev.flitLost p.val f.words } := by
  refine (onDev_running hrun _).trans ?_
  unfold Dev.flitReceive
  simp only [hbad, Bool.false_eq_true, false_and, or_false, Nat.not_lt.2 hst, if_false, Bool.not_false, if_true]
  rfl

theorem Link.reception_of_unasked {l m : Link} (h : m.unasked = l.unasked) (hnak : m.nakWait = true) :
    m.reception = { l.reception with nakWait := true } := by
  have hsame := congrArg (fun l : Link => { l.reception with nakWait := true }) h
  have hnak' : m.reception = { m.reception with nakWait := true } := by rw [Link.reception, hnak]
  exact hnak'.trans hsame

theorem Dev.flitLost_does {q : Nat} (hq : q < 28) {d : Dev} (hlen : q < d.links.length) (ws : List FecWord) :
    ((d.flitLost q ws).link q).reception = { (d.link q).reception with nakWait := true } ∧
    ((d.link q).nakWait = false → (∀ w ∈ ws, w.first = false) → (d.flitLost q ws).out = d.out ++ [nakSent d q]) := by
  have hview : ∀ l : Link, l.traffic.reception = l.reception := fun _ => rfl
  have hin : Beside settingWord Link.reception q d ((ws.foldl (Dev.fecCount q) (d.linkCount q 1 1)).linkCount q 2 1) := by
    have h1 : Beside settingWord Link.reception q d (d.linkCount q 1 1) := d.beside_linkCount ..
    exact (h1.trans (Dev.beside_fecCounts _ hq hview ws (by rw [h1.len]; exact hlen))).trans (Dev.beside_linkCount ..)
  have hplain : (∀ w ∈ ws, w.first = false) → ((ws.foldl (Dev.fecCount q) (d.linkCount q 1 1)).linkCount q 2 1).out = d.out ∧
      ((ws.foldl (Dev.fecCount q) (d.linkCount q 1 1)).linkCount q 2 1).links = d.links := fun h => by
    rw [Dev.fecCounts_later _ ws h]
    simp [Dev.linkCount]
  unfold Dev.flitLost
  dsimp only
  generalize (ws.foldl (Dev.fecCount q) (d.linkCount q 1 1)).linkCount q 2 1 = a at hin hplain
  have halen : q < a.links.length := by rw [hin.len]; exact hlen
  obtain ⟨hnout, hnak, hnone, -, hnbeside⟩ := a.sendNak_does halen
  have hnrec := Link.reception_of_unasked hnbeside.link hnak
  have hack : ∀ e : Dev, q < e.links.length → ((e.ackDue q).link q).reception = (e.link q).reception := fun e he => (e.ackDue_does he).1.link
  refine ⟨?_, fun hwait hfirst => ?_⟩
  · split
    · next hw =>
      rw [hack _ halen, hin.link, Link.reception, ← show (a.link q).nakWait = (d.link q).nakWait from congrArg Reception.nakWait hin.link, hw]
    · rw [hack _ (by rw [hnbeside.len]; exact halen), hnrec, hin.link]
  · obtain ⟨hout, hlinks⟩ := hplain hfirst
    have hlink : a.link q = d.link q := by rw [Dev.link, hlinks, ← Dev.link]
    have hno : ¬(a.link q).nakWait = true := by rw [hlink]; exact Bool.eq_false_iff.1 hwait
    have hsent : nakSent a q = nakSent d q := by rw [nakSent, nakSent, hlink]
    rw [if_neg hno, (Dev.ackDue_does _ (by rw [hnbeside.len]; exact halen)).2 hnone, hnout, hout, hsent]

theorem flitReceive_bad (hrun : s.dev.running = true) (hlen : s.dev.links.length = 28) {f : FlitMsg} (hst : 4 ≤ s.dev.linkState p.val) (hbad : f.good = false) :
    let l := s.dev.link p.val
    ∃ t, exec (.flitReceive p f) s = .next t ∧ t.store = s.store ∧ (t.dev.link p.val).rxSeq = l.rxSeq ∧
        (t.dev.link p.val).credits = l.credits ∧ (t.dev.link p.val).acked = l.acked ∧ (t.dev.link p.val).nakWait = true ∧
        (t.dev.link p.val).rx = l.rx ∧
        (l.nakWait = false → (∀ w ∈ f.words, w.first = false) → t.dev.out = s.dev.out ++ [nakSent s.dev p.val]) := by
  intro l
  obtain ⟨hrec, hout⟩ := Dev.flitLost_does p.isLt (by rw [hlen]; exact p.isLt) f.words
  exact ⟨_, flitReceive_lost hrun hst hbad, rfl, congrArg Reception.rxSeq hrec, congrArg Reception.credits hrec, congrArg Reception.acked hrec,
    congrArg Reception.nakWait hrec, congrArg Reception.rx hrec, hout⟩

/-- An uncorrectable codeword counts for its lane (R461). -/
theorem flitReceive_counts (hrun : s.dev.running = true) {f : FlitMsg} {w : FecWord} (hw : f.words = [w]) (hfirst : w.first = true)
    (hlane : w.lane < laneCount p.val) (hst : 4 ≤ s.dev.linkState p.val) (hbad : f.good = false) (herr : 15 < w.errors)
    (hfreeze : s.dev.rdp F.BLK_CTRL_CNT_FREEZE (phyPage p.val) = 0) (hlt : s.dev.counter (phyPage p.val) (2 * w.lane + 1) < 2 ^ 63) :
    ∃ t, exec (.flitReceive p f) s = .next t ∧
      t.dev.counter (phyPage p.val) (2 * w.lane + 1) = s.dev.counter (phyPage p.val) (2 * w.lane + 1) + 1 := by
  have hp := p.isLt
  have hphy := phyPage_le p
  have hlane16 : w.lane < 16 := hlane.trans_le (by unfold laneCount; split <;> decide)
  have hj : 2 * w.lane + 1 < 1024 := by omega
  refine ⟨_, flitReceive_lost hrun hst hbad, ?_⟩
  have hcount : ((s.dev.linkCount p 1 1).fecCount p w).counter (phyPage p) (2 * w.lane + 1) = s.dev.counter (phyPage p) (2 * w.lane + 1) + 1 := by
    have hone := Dev.counter_linkCount s.dev hphy hj hp (k := 1) (by decide) 1
    have hbeside : Dev.Beside anyWord (fun _ => ()) p s.dev (s.dev.linkCount p 1 1) := s.dev.beside_linkCount ..
    have hregs : (s.dev.linkCount p 1 1).regs = s.dev.regs := by simp [Dev.linkCount]
    have hfr := (Dev.rdpi_congr hregs F.BLK_CTRL_CNT_FREEZE (phyPage p) 0).trans hfreeze
    generalize s.dev.linkCount p 1 1 = a at hone hfr
    have hadd := Dev.counter_count_one (d := a) (p := phyPage p) hj hfr (by rw [hone]; exact hlt)
    unfold Dev.fecCount
    have hwbad : w.bad = true := decide_eq_true herr
    simp only [hfirst, hwbad, Bool.not_true, Bool.false_eq_true, Nat.not_le.2 hlane, show w.errors ≠ 0 by omega, or_self, if_false]
    rw [← hone, ← hadd]
    split
    · exact (Dev.counter_laneFailure _ hphy hj hp _).trans rfl
    · rfl
  unfold Dev.flitLost
  dsimp only
  rw [hw, List.foldl_cons, List.foldl_nil, Dev.counter_ackDue _ hphy hj hp, ← hcount]
  split
  · exact Dev.counter_linkCount _ hphy hj hp (by decide) 1
  · exact (Dev.counter_sendNak _ hphy hj hp).trans (Dev.counter_linkCount _ hphy hj hp (by decide) 1)

/-! ### NAK again -/

theorem nakRepeat_sends (hrun : s.dev.running = true) (hlen : s.dev.links.length = 28) (hst : 4 ≤ s.dev.linkState p.val)
    (hwait : (s.dev.link p.val).nakWait = true) (hdue : (s.dev.link p.val).nakAt + us 1 ≤ s.dev.tim.tide) :
    let l := s.dev.link p.val
    ∃ t, exec (.nakRepeat p) s = .next t ∧ (t.store = s.store ∧ (t.dev.link p.val).credits = l.credits ∧ (t.dev.link p.val).txSeq = l.txSeq ∧
      (t.dev.link p.val).acked = l.acked) ∧ t.dev.out = s.dev.out ++ [nakSent s.dev p.val] := by
  intro l
  have hexec := onDev_running hrun (Dev.nakRepeat p)
  rw [Dev.nakRepeat, if_pos ⟨hst, hwait, hdue⟩] at hexec
  obtain ⟨hout, -, -, -, hbeside⟩ := s.dev.sendNak_does (p := p) (by rw [hlen]; exact p.isLt)
  exact ⟨_, hexec, ⟨rfl, hbeside.view Link.credits fun _ => rfl, hbeside.view Link.txSeq fun _ => rfl,
    hbeside.view Link.acked fun _ => rfl⟩, hout⟩

theorem nakRepeat_waits (hrun : s.dev.running = true) (h : (s.dev.link p.val).nakWait = false ∨ s.dev.tim.tide < (s.dev.link p.val).nakAt + us 1) :
    exec (.nakRepeat p) s = .next s := by
  refine (onDev_running hrun _).trans ?_
  rw [Dev.nakRepeat, if_neg]
  rintro ⟨-, hwait, hdue⟩
  rcases h with h | h
  · rw [h] at hwait
    cases hwait
  · omega

end

end Sys2Proof.Machine


/-!
SUPPORT. O49, the first part: acknowledgements, replays, and flits in sequence (R43, R445, R447–R451).
-/
namespace Sys2Proof.Machine

section
variable {α : Type} {g : Link → α} {p : Nat} (d : Dev)

/-! ### The lane map, whatever it is -/

theorem Dev.beside_setMap (hp : p < 28) (hlen : p < d.links.length) (w mask : Nat) : Beside settingWord Link.bare p d (d.setMap p w mask) := by
  obtain ⟨-, -, -, -, hbeside⟩ := d.setSlack_does hp hlen (mask := maskMinus (allLanes p) mask) (maskMinus_le ..)
  exact ((hbeside.trans (Dev.beside_eyeAbort ..)).trans
    (Dev.beside_status (f := F.PRT_STAT_WIDTH) (g := F.LNDL_STAT_WIDTH) _ hp (by decide) (by decide) w)).trans
    (Dev.beside_status (f := F.PRT_STAT_LANE_MAP) (g := F.LNDL_STAT_LANE_MAP) _ hp (by decide) (by decide) mask)

theorem Dev.beside_newMap (hp : p < 28) (hlen : p < d.links.length) (w mask : Nat) : Beside settingWord Link.unmapped p d (d.newMap p w mask) := by
  have hmap := (d.beside_setMap hp hlen w mask).trans
    (Dev.beside_status (f := F.PRT_STAT_FAILED_LANES) (g := F.LNDL_LANES_FAILED_LANES) _ hp (by decide) (by decide) (maskMinus (d.failedLanes p) mask))
  have hun : Beside settingWord Link.unmapped p d ((d.setMap p w mask).setFailed p (maskMinus (d.failedLanes p) mask)) :=
    hmap.weaken (fun _ h => h) fun _ _ h => Link.of_bare Link.unmapped (fun _ => rfl) h
  unfold Dev.newMap
  dsimp only
  generalize (d.setMap p w mask).setFailed p (maskMinus (d.failedLanes p) mask) = a at hun
  refine hun.trans (.trans (Dev.beside_setLink (g := Link.unmapped) a (l := { a.link p with
    width := none, txMask := mask, txSwitch := none, changedSince := a.tim.tide + 1
    lanes := (a.link p).lanes.zipIdx.map (fun t => if bit mask t.2 then t.1 else {}) }) (by rw [hun.len]; exact hlen) rfl) (.ite (.refl _) ?_))
  exact .ite ((Dev.beside_linkCount _ p 7 1).trans (beside_event ..)) (Dev.beside_linkCount _ p 7 1)

theorem Dev.beside_widthDone (hp : p < 28) (hlen : p < d.links.length) : Beside settingWord Link.unmapped p d (d.widthDone p) := by
  unfold Dev.widthDone
  dsimp only
  split
  · exact .ite (d.beside_newMap hp hlen _ _) (.refl d)
  · exact .refl d

/-! ### Acknowledgement -/

theorem Dev.beside_lctlOut (hlen : p < d.links.length) (sl : List Byte) : Beside anyWord Link.reception p d (d.lctlOut p sl) := by
  obtain ⟨-, hlink, h⟩ := d.lctlOut_does hlen sl
  exact h.relink ((Link.of_bare Link.reception (fun _ => rfl) hlink).trans (Link.reception_lctl ..))

theorem Dev.beside_lctlOuts (ms : List (List Byte)) (hlen : p < d.links.length) :
    Beside anyWord Link.reception p d (ms.foldl (fun (d : Dev) m => d.lctlOut p m) d) := by
  induction ms generalizing d with
  | nil => exact .refl d
  | cons m ms ih =>
    have hone := d.beside_lctlOut hlen m
    exact hone.trans (ih _ (by rw [hone.len]; exact hlen))

/-- The sequence number acknowledged once an ACK field has been taken, and the flits that stay in the replay buffer (R450). -/
def Link.ackTaken (l : Link) (ack : Nat) : Nat × List Flit :=
  let k := (ack + 4096 - l.acked) % 4096
  if 0 < k ∧ k ≤ (l.txSeq + 4096 - l.acked) % 4096 then (ack % 4096, l.buffer.drop k) else (l.acked, l.buffer)

/-- An ACK field is taken. -/
theorem Dev.takeAck_does (hp : p < 28) (hlen : p < d.links.length) (ack : Nat) :
    Beside settingWord (fun _ => ()) p d (d.takeAck p ack) ∧
    ((d.takeAck p ack).link p).reception = { (d.link p).reception with acked := ((d.link p).ackTaken ack).1 } ∧
    ((d.link p).lctlWait = [] → ((d.takeAck p ack).link p).buffer = ((d.link p).ackTaken ack).2 ∧
      ((d.takeAck p ack).link p).replays = (if ((d.link p).ackTaken ack).1 = (d.link p).acked then (d.link p).replays else 0)) := by
  unfold Dev.takeAck Link.ackTaken
  dsimp only
  split
  · next h =>
    have hnew : ack % 4096 ≠ (d.link p).acked := by omega
    have hset := d.link_setLink (l := { d.link p with
      acked := ack % 4096, replays := 0, progressAt := d.tim.tide, buffer := (d.link p).buffer.drop ((ack + 4096 - (d.link p).acked) % 4096)
      lctlWait := [] }) hlen
    have hbeside := d.beside_setLink (W := settingWord) (g := fun _ => ()) (l := { d.link p with
      acked := ack % 4096, replays := 0, progressAt := d.tim.tide, buffer := (d.link p).buffer.drop ((ack + 4096 - (d.link p).acked) % 4096)
      lctlWait := [] }) hlen rfl
    generalize d.setLink p _ = a at hset hbeside ⊢
    have halen : p < a.links.length := by rw [hbeside.len]; exact hlen
    have hsent := a.beside_lctlOuts (d.link p).lctlWait halen
    have hslen : p < ((d.link p).lctlWait.foldl (fun (d : Dev) m => d.lctlOut p m) a).links.length := by rw [hsent.len]; exact halen
    have hdone := Dev.beside_widthDone _ hp hslen
    refine ⟨(hbeside.trans (hsent.weaken (fun _ _ => trivial) fun _ _ _ => rfl)).trans (hdone.weaken (fun _ h => h) fun _ _ _ => rfl), ?_, fun hwait => ?_⟩
    · rw [hdone.view Link.reception fun _ => rfl, hsent.link, hset]
      rfl
    · rw [if_neg hnew]
      rw [hwait] at hdone ⊢
      exact ⟨(hdone.view Link.buffer fun _ => rfl).trans (congrArg Link.buffer hset), (hdone.view Link.replays fun _ => rfl).trans (congrArg Link.replays hset)⟩
  · exact ⟨.refl d, rfl, fun _ => ⟨rfl, (if_pos rfl).symm⟩⟩

/-! ### Replay -/

theorem Dev.beside_askRetrain (hp : p < 28) (hlen : p < d.links.length) : Beside settingWord Link.reception p d (d.askRetrain p) := by
  have hsent := d.beside_lctlOut hlen retrainSlots
  exact (hsent.weaken (fun _ _ => trivial) fun _ _ h => h).trans (Dev.beside_toRetrain _ hp (by rw [hsent.len]; exact hlen) fun _ => rfl)

theorem Dev.beside_replay (hlen : p < d.links.length) : Beside anyWord Link.reception p d (d.replay p) := by
  obtain ⟨-, h⟩ := d.replay_does hlen
  exact (h.weaken (k := fun _ => ()) (fun _ h => h) fun _ _ _ => rfl).relink (h.view Link.reception fun _ => rfl)

theorem Dev.replayAgain_does (hp : p < 28) (hlen : p < d.links.length) : Beside settingWord Link.reception p d (d.replayAgain p) ∧
    ((d.link p).replays < d.lrd p F.PRT_REPLAY_CFG_REPLAY_MAX F.LNDL_REPLAY_CFG_REPLAY_MAX →
      ∀ f ∈ (d.link p).buffer, Emit.flit p (f.bytes (d.link p).rxSeq false) ∈ (d.replayAgain p).out) := by
  have hset : ∀ n, Beside settingWord Link.reception p d (d.setLink p { d.link p with replays := n }) := fun n => d.beside_setLink hlen rfl
  have hslen : ∀ n, p < (d.setLink p { d.link p with replays := n }).links.length := fun n => by rw [(hset n).len]; exact hlen
  have hagain : Beside settingWord Link.reception p d ((d.setLink p { d.link p with replays := (d.link p).replays + 1 }).replay p) :=
    (hset _).trans ((Dev.beside_replay _ (hslen _)).weaken (fun _ _ => trivial) fun _ _ h => h)
  unfold Dev.replayAgain
  dsimp only
  refine ⟨.ite (.refl d) (.ite ((hset _).trans (Dev.beside_askRetrain _ hp (hslen _))) hagain), fun hfew f hf => ?_⟩
  rw [if_neg (by rw [List.isEmpty_iff]; rintro h; rw [h] at hf; cases hf), if_neg (by omega), (Dev.replay_does _ (hslen _)).1, Dev.link_setLink _ hlen]
  exact List.mem_append_right _ (List.mem_map_of_mem hf)

/-! ### A flit in sequence -/

/-- What a link that has accepted a flit has received. -/
def Dev.received (p : Nat) (f : FlitMsg) (d : Dev) : Reception :=
  { (d.link p).reception with
    rxSeq := f.seq, nakWait := false
    rxPart := if f.kind = 0 then (d.accepted p f).2 else (d.link p).rxPart
    rx := (d.link p).rx ++ if f.kind = 0 then (d.accepted p f).1 else []
    lctlIn := if f.kind = 2 then (d.link p).lctlIn ++ f.lctl.toList else (d.link p).lctlIn
    credits := f.grants.foldl (fun (c : Tbl Nat) (g : Nat × Nat × Nat) => nset c (4 * g.1 + g.2.1) (nget c (4 * g.1 + g.2.1) + g.2.2)) (d.link p).credits }

theorem Dev.takeGrants_does (hp : p < 28) (hlen : p < d.links.length) (gs : List (Nat × Nat × Nat)) : Beside anyWord (fun _ => ()) p d (d.takeGrants p gs) ∧
    ((d.takeGrants p gs).link p).reception = { (d.link p).reception with
      credits := gs.foldl (fun (c : Tbl Nat) (g : Nat × Nat × Nat) => nset c (4 * g.1 + g.2.1) (nget c (4 * g.1 + g.2.1) + g.2.2)) (d.link p).credits } := by
  unfold Dev.takeGrants
  dsimp only
  have hset := d.link_setLink (l := { d.link p with
    credits := gs.foldl (fun t g => nset t (4 * g.1 + g.2.1) (nget t (4 * g.1 + g.2.1) + g.2.2)) (d.link p).credits }) hlen
  have hbeside := d.beside_setLink (W := anyWord) (g := fun _ => ()) (l := { d.link p with
    credits := gs.foldl (fun t g => nset t (4 * g.1 + g.2.1) (nget t (4 * g.1 + g.2.1) + g.2.2)) (d.link p).credits }) hlen rfl
  generalize d.setLink p { d.link p with
    credits := gs.foldl (fun t g => nset t (4 * g.1 + g.2.1) (nget t (4 * g.1 + g.2.1) + g.2.2)) (d.link p).credits } = a at hset hbeside
  have hretry : Beside anyWord Link.core p a (if p < 24 ∧ a.towpath then a.retryRecv else a) :=
    .ite ((beside_switch hp fun _ => rfl).retryRecv a) (.refl a)
  refine ⟨hbeside.trans (hretry.weaken (fun _ h => h) fun _ _ _ => rfl), ?_⟩
  rw [hretry.view Link.reception fun _ => rfl, hset]
  rfl

theorem Dev.flitAccept_does (hp : p < 28) (hlen : p < d.links.length) (f : FlitMsg) : Beside settingWord (fun _ => ()) p d (d.flitAccept p f) ∧
    ((d.flitAccept p f).link p).reception = d.received p f := by
  unfold Dev.flitAccept
  dsimp only
  generalize hr : (if f.kind = 0 then d.accepted p f else ([], (d.link p).rxPart)) = r
  generalize hl : ({ d.link p with
    rxSeq := f.seq, nakWait := false, rxPart := r.2
    lent := (List.range 16).foldl (fun t k => nset t k (nget t k - slotsBy r.1 k)) (d.link p).lent, rx := (d.link p).rx ++ r.1
    lctlIn := if f.kind = 2 then (d.link p).lctlIn ++ f.lctl.toList else (d.link p).lctlIn } : Link) = l
  have hset := d.link_setLink (l := l) hlen
  have hbeside := d.beside_setLink (W := settingWord) (g := fun _ => ()) (l := l) hlen rfl
  generalize d.setLink p l = a at hset hbeside
  have halen : p < a.links.length := by rw [hbeside.len]; exact hlen
  obtain ⟨hgrants, hrec⟩ := a.takeGrants_does hp halen f.grants
  have hdone := Dev.beside_widthDone (a.takeGrants p f.grants) hp (by rw [hgrants.len]; exact halen)
  refine ⟨(hbeside.trans (hgrants.weaken (fun _ _ => trivial) fun _ _ h => h)).trans (hdone.weaken (fun _ h => h) fun _ _ _ => rfl), ?_⟩
  rw [hdone.view Link.reception fun _ => rfl, hrec, hset, ← hl, ← hr]
  unfold Dev.received
  by_cases h0 : f.kind = 0
  · simp only [h0, if_true]
    rfl
  · simp only [h0, if_false]
    rfl

end

end Sys2Proof.Machine


/-!
SUPPORT. O49, the first part: a good flit, the replay timer, RETRAIN_REQ (R43–R45, R444, R445, R447–R451).
-/
namespace Sys2Proof.Machine

section
variable {s : State} {p : Fin 28}

/-! ### A good flit -/

/-- The flit is the next in sequence. -/
def nextFlit (f : FlitMsg) (rxSeq : Nat) : Bool := decide ((f.seq + 4096 - rxSeq) % 4096 = 1) && f.kind != 1 && f.kind != 3

theorem nextFlit_iff (f : FlitMsg) (rx : Nat) : nextFlit f rx = true ↔ f.kind ≠ 1 ∧ f.kind ≠ 3 ∧ (f.seq + 4096 - rx) % 4096 = 1 := by
  rw [nextFlit, Bool.and_eq_true, Bool.and_eq_true, decide_eq_true_eq, bne_iff_ne, bne_iff_ne]
  tauto

/-- A good flit takes effect: the ACK field, NAK, and what it carries. -/
def Dev.flitTaken (p : Nat) (f : FlitMsg) (next : Bool) (d : Dev) : Dev :=
  let d := (f.words.foldl (Dev.fecCount p) (d.linkCount p 1 1)).takeAck p f.ack
  let d := if f.nak then d.replayAgain p else d
  let ahead := (f.seq + 4096 - (d.link p).rxSeq) % 4096
  let d := if f.kind = 1 then (if 0 < ahead ∧ ahead < 2048 ∧ !(d.link p).nakWait then d.sendNak p else d) else if next then d.flitAccept p f else d
  d.ackDue p

theorem flitReceive_skips (hrun : s.dev.running = true) {f : FlitMsg}
    (h : s.dev.linkState p.val < 4 ∨ (f.good = true ∧ nextFlit f (s.dev.link p.val).rxSeq = true ∧ s.dev.flitFits p.val f = false)) :
    exec (.flitReceive p f) s = .next s := by
  have hdev : s.dev.flitReceive p f = s.dev := if_pos (h.imp id fun ⟨hg, hn, hf⟩ => ⟨hg, hn, by rw [hf]; rfl⟩)
  exact (onDev_running hrun _).trans (by rw [hdev])

theorem flitReceive_good (hrun : s.dev.running = true) {f : FlitMsg} (hst : 4 ≤ s.dev.linkState p.val) (hgood : f.good = true)
    (hfits : ¬(nextFlit f (s.dev.link p.val).rxSeq = true ∧ s.dev.flitFits p.val f = false)) :
    exec (.flitReceive p f) s = .next { s with dev := s.dev.flitTaken p.val f (nextFlit f (s.dev.link p.val).rxSeq) } := by
  have hno : ¬(s.dev.linkState p < 4 ∨ (f.good = true ∧ nextFlit f (s.dev.link p).rxSeq = true ∧ (!s.dev.flitFits p f) = true)) := by
    rintro (h | ⟨-, hn, hf⟩)
    · omega
    · exact hfits ⟨hn, by simpa using hf⟩
  have hdev : s.dev.flitReceive p f = s.dev.flitTaken p f (nextFlit f (s.dev.link p).rxSeq) := by
    refine (if_neg hno).trans ?_
    simp only [hgood, Bool.not_true, Bool.false_eq_true, if_false]
    rfl
  exact (onDev_running hrun _).trans (by rw [hdev])

theorem Dev.received_congr {q : Nat} {d e : Dev} {a : Nat} (h : (e.link q).reception = { (d.link q).reception with acked := a }) (f : FlitMsg) :
    e.received q f = { d.received q f with acked := a } := by
  have hpart : (e.link q).rxPart = (d.link q).rxPart := congrArg Reception.rxPart h
  have hrx : (e.link q).rx = (d.link q).rx := congrArg Reception.rx h
  have hin : (e.link q).lctlIn = (d.link q).lctlIn := congrArg Reception.lctlIn h
  have hcredits : (e.link q).credits = (d.link q).credits := congrArg Reception.credits h
  have hacc : e.accepted q f = d.accepted q f := by rw [Dev.accepted, Dev.accepted, hpart]
  unfold Dev.received
  rw [h, hpart, hrx, hin, hcredits, hacc]

/-- What a good flit leaves of the link's reception, and the flits that a NAK brings. -/
theorem Dev.flitTaken_does {q : Nat} (hq : q < 28) {d : Dev} (hlen : q < d.links.length) {f : FlitMsg} (hgood : f.good = true)
    {next : Bool} (hnext : next = nextFlit f (d.link q).rxSeq) :
    let e := d.flitTaken q f next
    let ahead := (f.seq + 4096 - (d.link q).rxSeq) % 4096
    let acked := ((d.link q).ackTaken f.ack).1
    (next = true → (e.link q).reception = { d.received q f with acked := acked }) ∧
    (next = false → ∃ w, (e.link q).reception = { (d.link q).reception with acked := acked, nakWait := w } ∧
      (f.kind = 1 → 0 < ahead → ahead < 2048 → w = true)) ∧
    (f.nak = true → (d.link q).lctlWait = [] →
      (if acked = (d.link q).acked then (d.link q).replays else 0) < d.lrd q F.PRT_REPLAY_CFG_REPLAY_MAX F.LNDL_REPLAY_CFG_REPLAY_MAX →
      ∀ g ∈ ((d.link q).ackTaken f.ack).2, Emit.flit q (g.bytes (d.link q).rxSeq false) ∈ e.out) := by
  have hok : ∀ w ∈ f.words, w.bad = false := by
    have hun : f.uncorrectable = false := by
      rw [FlitMsg.good, Bool.and_eq_true] at hgood
      simpa using hgood.1
    exact fun w hw => by
      rw [FlitMsg.uncorrectable, List.any_eq_false] at hun
      simpa using hun w hw
  intro e ahead acked
  obtain ⟨a, ha⟩ : ∃ a, a = f.words.foldl (Dev.fecCount q) (d.linkCount q 1 1) := ⟨_, rfl⟩
  have hwords : Beside anyWord Link.bare q d a := by
    rw [ha]
    exact (d.beside_linkCount ..).trans (Dev.beside_fecCorrected _ f.words hok)
  have halen : q < a.links.length := by rw [hwords.len]; exact hlen
  have htaken : (a.link q).ackTaken f.ack = (d.link q).ackTaken f.ack := hwords.view (fun l => l.ackTaken f.ack) fun _ => rfl
  obtain ⟨htb, htrec, htbuf⟩ := a.takeAck_does hq halen f.ack
  rw [htaken, hwords.view Link.reception fun _ => rfl] at htrec
  rw [htaken, hwords.view Link.lctlWait fun _ => rfl, hwords.view Link.acked fun _ => rfl, hwords.view Link.replays fun _ => rfl] at htbuf
  have hmax := (Dev.lrd_setting (f := F.PRT_REPLAY_CFG_REPLAY_MAX) (g := F.LNDL_REPLAY_CFG_REPLAY_MAX) hq htb (by decide) (by decide)).trans
    (Dev.lrd_any hq hwords (by decide) (by decide))
  have he : e = (fun d : Dev => (if f.kind = 1 then (if 0 < (f.seq + 4096 - (d.link q).rxSeq) % 4096 ∧ (f.seq + 4096 - (d.link q).rxSeq) % 4096 < 2048 ∧
      !(d.link q).nakWait then d.sendNak q else d) else if next then d.flitAccept q f else d).ackDue q)
      (if f.nak then (a.takeAck q f.ack).replayAgain q else a.takeAck q f.ack) := by rw [ha]; rfl
  generalize a.takeAck q f.ack = b at htb htrec htbuf hmax he
  have hblen : q < b.links.length := by rw [htb.len]; exact halen
  obtain ⟨hrb, hrout⟩ := b.replayAgain_does hq hblen
  have hagain : Beside settingWord Link.reception q b (if f.nak then b.replayAgain q else b) := .ite hrb (.refl b)
  have hsent : f.nak = true → (d.link q).lctlWait = [] → (if acked = (d.link q).acked then (d.link q).replays else 0) <
      d.lrd q F.PRT_REPLAY_CFG_REPLAY_MAX F.LNDL_REPLAY_CFG_REPLAY_MAX → ∀ g ∈ ((d.link q).ackTaken f.ack).2,
      Emit.flit q (g.bytes (d.link q).rxSeq false) ∈ (if f.nak then b.replayAgain q else b).out := by
    intro hnak hwait hfew g hg
    obtain ⟨hbuf, hrep⟩ := htbuf hwait
    have hrx : (b.link q).rxSeq = (d.link q).rxSeq := congrArg Reception.rxSeq htrec
    rw [if_pos hnak, ← hrx]
    exact hrout (by rw [hrep, hmax]; exact hfew) g (by rw [hbuf]; exact hg)
  generalize (if f.nak then b.replayAgain q else b) = c at hagain hsent he
  have hclen : q < c.links.length := by rw [hagain.len]; exact hblen
  have hcrec : (c.link q).reception = { (d.link q).reception with acked := acked } := hagain.link.trans htrec
  have hcrx : (c.link q).rxSeq = (d.link q).rxSeq := congrArg Reception.rxSeq hcrec
  have hack : ∀ x : Dev, q < x.links.length → Beside anyWord Link.reception q x (x.ackDue q) := fun x hx => (x.ackDue_does hx).1
  dsimp only at he
  rw [hcrx] at he
  have hkind : next = true → f.kind ≠ 1 := fun h => by
    have hnow := hnext.symm.trans h
    rw [nextFlit, Bool.and_eq_true, Bool.and_eq_true] at hnow
    exact bne_iff_ne.1 hnow.1.2
  obtain ⟨hab, harec⟩ := c.flitAccept_does hq hclen f
  obtain ⟨-, hnak, -, -, hnb⟩ := c.sendNak_does hclen
  have hnrec : ((c.sendNak q).link q).reception = { (c.link q).reception with nakWait := true } := by
    have hsame := hnb.view (fun l : Link => { l.reception with nakWait := true }) fun _ => rfl
    have hself : ((c.sendNak q).link q).reception = { ((c.sendNak q).link q).reception with nakWait := true } := by rw [Link.reception, hnak]
    exact hself.trans hsame
  refine ⟨fun hn => ?_, fun hn => ?_, fun h1 h2 h3 g hg => ?_⟩
  · rw [if_neg (hkind hn), if_pos hn] at he
    rw [he, (hack _ (by rw [hab.len]; exact hclen)).link, harec, Dev.received_congr hcrec]
  · have hstay : ((c.ackDue q).link q).reception = { (d.link q).reception with acked := acked } := (hack c hclen).link.trans hcrec
    by_cases h1 : f.kind = 1
    · rw [if_pos h1] at he
      by_cases hask : 0 < (f.seq + 4096 - (d.link q).rxSeq) % 4096 ∧ (f.seq + 4096 - (d.link q).rxSeq) % 4096 < 2048 ∧ (!(c.link q).nakWait) = true
      · rw [if_pos hask] at he
        refine ⟨true, ?_, fun _ _ _ => rfl⟩
        rw [he, (hack _ (by rw [hnb.len]; exact hclen)).link, hnrec, hcrec]
      · rw [if_neg hask] at he
        refine ⟨(d.link q).nakWait, by rw [he]; exact hstay, fun _ h0 h2048 => ?_⟩
        have hwait : (c.link q).nakWait = (d.link q).nakWait := congrArg Reception.nakWait hcrec
        by_contra hne
        exact hask ⟨h0, h2048, by rw [hwait, Bool.eq_false_of_not_eq_true hne]; rfl⟩
    · rw [if_neg h1, if_neg (by rw [hn]; decide)] at he
      exact ⟨(d.link q).nakWait, by rw [he]; exact hstay, fun h => absurd h h1⟩
  · have hmem := hsent h1 h2 h3 g hg
    rw [he]
    have hstep : Beside settingWord (fun _ => ()) q c (if f.kind = 1 then (if 0 < (f.seq + 4096 - (d.link q).rxSeq) % 4096 ∧
        (f.seq + 4096 - (d.link q).rxSeq) % 4096 < 2048 ∧ !(c.link q).nakWait then c.sendNak q else c) else if next then c.flitAccept q f else c) :=
      .ite (.ite (hnb.weaken (fun _ _ => trivial) fun _ _ _ => rfl) (.refl c)) (.ite hab (.refl c))
    exact (hack _ (by rw [hstep.len]; exact hclen)).out.subset (hstep.out.subset hmem)

/-! ### The replay timer -/

/-- The link as the replay timer leaves it before it acts. -/
def Link.timed (l : Link) (now n : Nat) : Link := { l with progressAt := now, replays := n }

/-- What the replay timer does once it has run out. -/
def Dev.replayTimed (p : Nat) (d : Dev) : Dev :=
  if d.lrd p F.PRT_REPLAY_CFG_REPLAY_MAX F.LNDL_REPLAY_CFG_REPLAY_MAX ≤ (d.link p).replays then
    (d.setLink p ((d.link p).timed d.tim.tide 0)).askRetrain p
  else (d.setLink p ((d.link p).timed d.tim.tide ((d.link p).replays + 1))).replay p

theorem replayTimer_ends (hrun : s.dev.running = true) (hlen : s.dev.links.length = 28) (hst : s.dev.linkState p.val = 5)
    (hwaits : (s.dev.link p.val).txSeq ≠ (s.dev.link p.val).acked) (hbuf : (s.dev.link p.val).buffer ≠ [])
    (hdue : (s.dev.link p.val).progressAt + nsT (10 * s.dev.lrd p.val F.PRT_REPLAY_CFG_TIMER_NS F.LNDL_REPLAY_CFG_TIMER_NS) ≤ s.dev.tim.tide) :
    exec (.replayTimer p) s = .next { s with dev := s.dev.replayTimed p.val } := by
  obtain ⟨l, hl⟩ : ∃ l, l = s.dev.link p := ⟨_, rfl⟩
  have hplen : p.val < s.dev.links.length := by rw [hlen]; exact p.isLt
  have hset := s.dev.link_setLink (l := { l with progressAt := s.dev.tim.tide }) hplen
  have htwice : ∀ x, (s.dev.setLink p { l with progressAt := s.dev.tim.tide }).setLink p x = s.dev.setLink p x := fun x => by
    rw [Dev.setLink, Dev.setLink, Dev.setLink]
    simp only [modAt_modAt]
  have hst' : (s.dev.setLink p { l with progressAt := s.dev.tim.tide }).linkState p = 5 := by rw [Dev.linkState_eq, Dev.lrd_setLink, ← Dev.linkState_eq, hst]
  have hagain : (s.dev.setLink p { l with progressAt := s.dev.tim.tide }).replayAgain p = s.dev.replayTimed p := by
    unfold Dev.replayAgain Dev.replayTimed
    dsimp only
    rw [hset, if_neg (by rw [List.isEmpty_iff, hl]; exact hbuf), htwice, htwice, Dev.lrd_setLink, ← hl]
    exact if_congr (and_iff_right hst') rfl rfl
  refine (onDev_running hrun _).trans ?_
  rw [Dev.replayTimer, if_pos ⟨.inr hst, hwaits, hdue⟩, ← hl, hagain]

theorem replayTimer_replays (hrun : s.dev.running = true) (hlen : s.dev.links.length = 28) (hst : s.dev.linkState p.val = 5)
    (hwaits : (s.dev.link p.val).txSeq ≠ (s.dev.link p.val).acked) (hbuf : (s.dev.link p.val).buffer ≠ [])
    (hdue : (s.dev.link p.val).progressAt + nsT (10 * s.dev.lrd p.val F.PRT_REPLAY_CFG_TIMER_NS F.LNDL_REPLAY_CFG_TIMER_NS) ≤ s.dev.tim.tide)
    (hfew : (s.dev.link p.val).replays < s.dev.lrd p.val F.PRT_REPLAY_CFG_REPLAY_MAX F.LNDL_REPLAY_CFG_REPLAY_MAX) :
    let l := s.dev.link p.val
    ∃ t, exec (.replayTimer p) s = .next t ∧ (t.store = s.store ∧ (t.dev.link p.val).credits = l.credits ∧ (t.dev.link p.val).txSeq = l.txSeq ∧
      (t.dev.link p.val).acked = l.acked) ∧ t.dev.linkState p.val = 5 ∧ (t.dev.link p.val).replays = l.replays + 1 ∧
      t.dev.out = s.dev.out ++ l.buffer.map (fun g => .flit p.val (g.bytes l.rxSeq false)) := by
  intro l
  have hp := p.isLt
  have hplen : p.val < s.dev.links.length := by rw [hlen]; exact hp
  have hexec := replayTimer_ends hrun hlen hst hwaits hbuf hdue
  rw [Dev.replayTimed, if_neg (by omega)] at hexec
  have hset := s.dev.link_setLink (l := l.timed s.dev.tim.tide (l.replays + 1)) hplen
  have hbeside := s.dev.beside_setLink (W := anyWord) (g := fun _ => ()) (l := l.timed s.dev.tim.tide (l.replays + 1)) hplen rfl
  have hout : (s.dev.setLink p (l.timed s.dev.tim.tide (l.replays + 1))).out = s.dev.out := rfl
  generalize s.dev.setLink p (l.timed s.dev.tim.tide (l.replays + 1)) = a at hexec hset hbeside hout
  obtain ⟨hrout, hrb⟩ := a.replay_does (by rw [hbeside.len]; exact hplen)
  have hview : ∀ {β : Type} (k : Link → β), (∀ l, k l.unreplayed = k l) → k ((a.replay p).link p) = k (l.timed s.dev.tim.tide (l.replays + 1)) :=
    fun k hk => (hrb.view k hk).trans (congrArg k hset)
  refine ⟨_, hexec, ⟨rfl, hview Link.credits fun _ => rfl, hview Link.txSeq fun _ => rfl, hview Link.acked fun _ => rfl⟩, ?_,
    hview Link.replays fun _ => rfl, ?_⟩
  · exact (hrb.linkState hp).trans ((hbeside.linkState hp).trans hst)
  · exact hrout.trans (by rw [hset, hout]; rfl)

theorem replayTimer_retrains (hrun : s.dev.running = true) (hlen : s.dev.links.length = 28) (hst : s.dev.linkState p.val = 5)
    (hwaits : (s.dev.link p.val).txSeq ≠ (s.dev.link p.val).acked) (hbuf : (s.dev.link p.val).buffer ≠ [])
    (hdue : (s.dev.link p.val).progressAt + nsT (10 * s.dev.lrd p.val F.PRT_REPLAY_CFG_TIMER_NS F.LNDL_REPLAY_CFG_TIMER_NS) ≤ s.dev.tim.tide)
    (hmany : s.dev.lrd p.val F.PRT_REPLAY_CFG_REPLAY_MAX F.LNDL_REPLAY_CFG_REPLAY_MAX ≤ (s.dev.link p.val).replays) :
    let l := s.dev.link p.val
    ∃ t, exec (.replayTimer p) s = .next t ∧ t.store = s.store ∧ t.dev.linkState p.val = 6 ∧ (t.dev.link p.val).credits = l.credits ∧
      (t.dev.link p.val).acked = l.acked ∧ (∀ e ∈ lctlSent s.dev p.val retrainSlots, e ∈ t.dev.out) ∧
      (lctlSent s.dev p.val retrainSlots = [] → (t.dev.link p.val).lctlWait = l.lctlWait ++ [retrainSlots]) := by
  intro l
  have hp := p.isLt
  have hplen : p.val < s.dev.links.length := by rw [hlen]; exact hp
  have hexec := replayTimer_ends hrun hlen hst hwaits hbuf hdue
  rw [Dev.replayTimed, if_pos hmany] at hexec
  have hset := s.dev.link_setLink (l := l.timed s.dev.tim.tide 0) hplen
  have hbeside := s.dev.beside_setLink (W := anyWord) (g := fun _ => ()) (l := l.timed s.dev.tim.tide 0) hplen rfl
  generalize s.dev.setLink p (l.timed s.dev.tim.tide 0) = a at hexec hset hbeside
  have halen : p.val < a.links.length := by rw [hbeside.len]; exact hplen
  obtain ⟨hlout, hllink, hlb⟩ := a.lctlOut_does halen retrainSlots
  have hsame : lctlSent a p retrainSlots = lctlSent s.dev p retrainSlots := by
    unfold lctlSent
    rw [hset]
    rfl
  have hlreception := (Link.of_bare Link.reception (fun _ => rfl) hllink).trans (Link.reception_lctl ..)
  rw [hsame] at hlout
  rw [hset] at hllink hlreception
  have hask : a.askRetrain p = (a.lctlOut p retrainSlots).toRetrain p := rfl
  rw [hask] at hexec
  generalize a.lctlOut p retrainSlots = b at hexec hlout hllink hlb hlreception
  have hblen : p.val < b.links.length := by rw [hlb.len]; exact halen
  obtain ⟨h6, -⟩ := b.toRetrain_does hp hblen
  have htb := b.beside_toRetrain (g := Link.traffic) hp hblen fun _ => rfl
  refine ⟨_, hexec, rfl, h6, ?_, ?_, fun e he => htb.out.subset (by rw [hlout]; exact List.mem_append_right _ he), fun hnone => ?_⟩
  · exact (htb.view Link.credits fun _ => rfl).trans (congrArg Reception.credits hlreception)
  · exact (htb.view Link.acked fun _ => rfl).trans (congrArg Reception.acked hlreception)
  · refine (htb.view Link.lctlWait fun _ => rfl).trans ((Link.of_bare Link.lctlWait (fun _ => rfl) hllink).trans ?_)
    have hno : ¬((l.timed s.dev.tim.tide 0).room = true ∧ (l.timed s.dev.tim.tide 0).lctlWait = []) := fun h => by
      have h' : (s.dev.link p).room = true ∧ (s.dev.link p).lctlWait = [] := h
      rw [lctlSent, if_pos h'] at hnone
      cases hnone
    rw [Link.lctl, if_neg hno]
    rfl

theorem replayTimer_waits (hrun : s.dev.running = true) (h : (s.dev.link p.val).txSeq = (s.dev.link p.val).acked ∨
    s.dev.tim.tide < (s.dev.link p.val).progressAt + nsT (10 * s.dev.lrd p.val F.PRT_REPLAY_CFG_TIMER_NS F.LNDL_REPLAY_CFG_TIMER_NS)) :
    exec (.replayTimer p) s = .next s := by
  refine (onDev_running hrun _).trans ?_
  rw [Dev.replayTimer, if_neg]
  rintro ⟨-, hwaits, hdue⟩
  rcases h with h | h
  · exact hwaits h
  · omega

/-! ### RETRAIN_REQ -/

theorem retrainReq_retrains (hrun : s.dev.running = true) (hlen : s.dev.links.length = 28) {rest : List Lctl}
    (hin : (s.dev.link p.val).lctlIn = .retrainReq :: rest) (hst : s.dev.linkState p.val = 5) :
    let l := s.dev.link p.val
    ∃ t, exec (.retrainReq p) s = .next t ∧ (t.store = s.store ∧ (t.dev.link p.val).credits = l.credits ∧ (t.dev.link p.val).txSeq = l.txSeq ∧
      (t.dev.link p.val).acked = l.acked) ∧ t.dev.linkState p.val = 6 ∧ (t.dev.link p.val).width = none ∧ (t.dev.link p.val).lctlIn = rest := by
  intro l
  have hp := p.isLt
  have hplen : p.val < s.dev.links.length := by rw [hlen]; exact hp
  have hexec := onDev_running hrun (Dev.withLctl p .retrainReq (fun d => if d.linkState p = 5 then d.toRetrain p else d))
  have hset := s.dev.link_setLink (l := { l with lctlIn := rest }) hplen
  have hbeside := s.dev.beside_setLink (W := anyWord) (g := fun _ => ()) (l := { l with lctlIn := rest }) hplen rfl
  rw [Dev.withLctl_first hin] at hexec
  generalize s.dev.setLink p { l with lctlIn := rest } = a at hexec hset hbeside
  rw [if_pos ((hbeside.linkState hp).trans hst)] at hexec
  obtain ⟨h6, -, ⟨r, hlink, -⟩, -⟩ := a.toRetrain_does hp (by rw [hbeside.len]; exact hplen)
  rw [hset] at hlink
  have hview : ∀ {β : Type} (k : Link → β), (∀ l, k l.bare = k l) → k ((a.toRetrain p).link p) = k { l.bare with
      lctlIn := rest, since := a.tim.tide, readapt := r, width := none, txSwitch := none, changedSince := a.tim.tide + 1 } := fun k hk => by
    rw [← hk, hlink]
    rfl
  exact ⟨_, hexec, ⟨rfl, hview Link.credits fun _ => rfl, hview Link.txSeq fun _ => rfl, hview Link.acked fun _ => rfl⟩, h6, hview Link.width fun _ => rfl,
    hview Link.lctlIn fun _ => rfl⟩

theorem retrainReq_idle (hrun : s.dev.running = true) {rest : List Lctl} (hin : (s.dev.link p.val).lctlIn = .retrainReq :: rest)
    (hst : s.dev.linkState p.val ≠ 5) :
    exec (.retrainReq p) s = .next { s with dev := s.dev.setLink p.val { s.dev.link p.val with lctlIn := rest } } := by
  have hst' : ∀ l, (s.dev.setLink p l).linkState p ≠ 5 := fun l => by rw [Dev.linkState_eq, Dev.lrd_setLink, ← Dev.linkState_eq]; exact hst
  refine (onDev_running hrun _).trans ?_
  rw [Dev.withLctl_first hin, if_neg (hst' _)]

theorem retrainReq_other (hrun : s.dev.running = true) (h : (s.dev.link p.val).lctlIn.head? ≠ some .retrainReq) : exec (.retrainReq p) s = .next s := by
  refine (onDev_running hrun _).trans ?_
  rw [Dev.withLctl_other h]

end

theorem linkFlits : Said.LinkFlits := by
  intro p s hrun hshape
  obtain ⟨-, -, hlen, -⟩ := hshape
  have hp := p.isLt
  have hplen : p.val < s.dev.links.length := by rw [hlen]; exact hp
  dsimp only
  refine ⟨fun f => ⟨rfl, fun hst => flitReceive_skips hrun (.inl hst), fun hgood hnext hfits => ?_, fun hst hbad => flitReceive_bad hrun hlen hst hbad,
    fun w hw hfirst hlane hst hbad herr hfreeze hlt => flitReceive_counts hrun hw hfirst hlane hst hbad herr hfreeze hlt, fun hst hgood hok => ?_⟩,
    fun hst hwait hdue => nakRepeat_sends hrun hlen hst hwait hdue, fun h => nakRepeat_waits hrun h,
    ⟨fun hst hwaits hbuf hdue hfew => replayTimer_replays hrun hlen hst hwaits hbuf hdue hfew,
      fun hst hwaits hbuf hdue hmany => replayTimer_retrains hrun hlen hst hwaits hbuf hdue hmany, fun h => replayTimer_waits hrun h⟩,
    fun rest hin => ⟨fun hst => retrainReq_retrains hrun hlen hin hst, fun hst => retrainReq_idle hrun hin hst⟩, fun h => retrainReq_other hrun h⟩
  · exact flitReceive_skips hrun (.inr ⟨hgood, (nextFlit_iff f _).2 hnext, hfits⟩)
  · have hexec := flitReceive_good hrun hst hgood (fun h => hok ⟨(nextFlit_iff f _).1 h.1, h.2⟩)
    obtain ⟨hyes, hno, hsent⟩ := Dev.flitTaken_does hp hplen hgood rfl
    have hacked : ((s.dev.link p).ackTaken f.ack).1 = if 0 < (f.ack + 4096 - (s.dev.link p).acked) % 4096 ∧
        (f.ack + 4096 - (s.dev.link p).acked) % 4096 ≤ ((s.dev.link p).txSeq + 4096 - (s.dev.link p).acked) % 4096 then f.ack % 4096
        else (s.dev.link p).acked := apply_ite Prod.fst _ _ _
    have hrest : ((s.dev.link p).ackTaken f.ack).2 = if 0 < (f.ack + 4096 - (s.dev.link p).acked) % 4096 ∧
        (f.ack + 4096 - (s.dev.link p).acked) % 4096 ≤ ((s.dev.link p).txSeq + 4096 - (s.dev.link p).acked) % 4096 then
        (s.dev.link p).buffer.drop ((f.ack + 4096 - (s.dev.link p).acked) % 4096) else (s.dev.link p).buffer := apply_ite Prod.snd _ _ _
    rw [hacked, hrest] at hsent
    rw [hacked] at hyes hno
    generalize s.dev.flitTaken p f (nextFlit f (s.dev.link p).rxSeq) = e at hexec hyes hno hsent
    cases hn : nextFlit f (s.dev.link p).rxSeq with
    | true =>
      have hrec := hyes hn
      have hnext := (nextFlit_iff f _).1 hn
      refine ⟨_, hexec, rfl, congrArg Reception.acked hrec, hsent, fun _ => ⟨congrArg Reception.rxSeq hrec, congrArg Reception.nakWait hrec, fun h0 => ?_,
        fun h0 => ?_, congrArg Reception.credits hrec⟩, fun h => absurd hnext h, fun h1 => absurd h1 hnext.1⟩
      · refine ⟨(congrArg Reception.rxPart hrec).trans (if_pos h0), (congrArg Reception.rx hrec).trans ?_, (congrArg Reception.lctlIn hrec).trans ?_⟩
        · exact congrArg ((s.dev.link p).rx ++ ·) (if_pos h0)
        · exact if_neg (by omega)
      · have hkind : f.kind < 2 ^ 2 := bits_lt ..
        obtain ⟨hk1, hk3, -⟩ := hnext
        have hk2 : f.kind = 2 := by omega
        refine ⟨(congrArg Reception.rx hrec).trans ?_, (congrArg Reception.rxPart hrec).trans (if_neg h0), (congrArg Reception.lctlIn hrec).trans (if_pos hk2)⟩
        exact (congrArg ((s.dev.link p).rx ++ ·) (if_neg h0)).trans (List.append_nil _)
    | false =>
      obtain ⟨w, hrec, hw⟩ := hno hn
      have hnext : ¬(f.kind ≠ 1 ∧ f.kind ≠ 3 ∧ (f.seq + 4096 - (s.dev.link p).rxSeq) % 4096 = 1) := fun h => by
        rw [(nextFlit_iff f _).2 h] at hn
        cases hn
      exact ⟨_, hexec, rfl, congrArg Reception.acked hrec, hsent, fun h => absurd h hnext, fun _ => ⟨congrArg Reception.rxSeq hrec,
        congrArg Reception.credits hrec, congrArg Reception.rx hrec, congrArg Reception.lctlIn hrec⟩,
        fun h1 h2 h3 => (congrArg Reception.nakWait hrec).trans (hw h1 h2 h3)⟩

end Sys2Proof.Machine


/-!
SUPPORT. O49, the second part: what the operations of a width exchange do (R434, R441, R442, R455).
-/
namespace Sys2Proof.Machine

section
variable {p : Nat} (d : Dev)

/-! ### Messages of an exchange -/

/-- What of a link says which message leaves it. -/
def Link.outgoing (l : Link) : Bool × List (List Byte) × Tbl Nat × Nat × Nat := (l.room, l.lctlWait, l.owed, l.txSeq, l.rxSeq)

theorem lctlSent_congr {d e : Dev} (h : (e.link p).outgoing = (d.link p).outgoing) (sl : List Byte) : lctlSent e p sl = lctlSent d p sl := by
  simp only [Link.outgoing, Prod.mk.injEq] at h
  obtain ⟨hroom, hwait, howed, htx, hrx⟩ := h
  unfold lctlSent
  dsimp only
  rw [hroom, hwait, howed, htx, hrx]

/-- What of a link a message that goes out leaves. -/
structure Exchanging where
  reception : Reception
  width : Option WidthEx
  usable : Nat

def Link.exchanging (l : Link) : Exchanging := ⟨l.reception, l.width, l.usable⟩

theorem Link.exchanging_lctl (l : Link) (now : Nat) (sl : List Byte) : (l.lctl now sl).exchanging = l.exchanging := by
  unfold Link.lctl
  split
  · exact Link.switched_keeps Link.exchanging (fun _ _ _ => rfl) _ _ _
  · rfl

theorem Dev.lctlOut_exchanging (hlen : p < d.links.length) (sl : List Byte) : Beside anyWord Link.exchanging p d (d.lctlOut p sl) := by
  obtain ⟨-, hlink, h⟩ := d.lctlOut_does hlen sl
  exact h.relink ((Link.of_bare Link.exchanging (fun _ => rfl) hlink).trans (Link.exchanging_lctl ..))

/-- The sequence number of the next message. -/
def Link.nextLctl (l : Link) : Nat := (l.txSeq + 1 + l.lctlWait.length) % 4096

theorem Link.acked_switch {l : Link} {mask now : Nat} (hroom : l.room = true) (hwait : l.lctlWait = []) (sl : List Byte) :
    (({ l with txSwitch := some (l.nextLctl, mask) } : Link).lctl now sl).txMask = mask ∧
    (({ l with txSwitch := some (l.nextLctl, mask) } : Link).lctl now sl).txSwitch = none := by
  have hroom' : ({ l with txSwitch := some (l.nextLctl, mask) } : Link).room = true := hroom
  have hkind : ({ l with txSwitch := some (l.nextLctl, mask) } : Link).kind 2 = 2 := if_pos hroom'
  have hseq : (l.txSeq + 1) % 4096 = l.nextLctl := by
    rw [Link.nextLctl, hwait]
    rfl
  have hsends : ({ l with txSwitch := some (l.nextLctl, mask) } : Link).lctl now sl =
      { ({ l with txSwitch := some (l.nextLctl, mask) } : Link).sent now 2 15 sl with txMask := mask, txSwitch := none } := by
    unfold Link.lctl
    rw [if_pos ⟨hroom', hwait⟩]
    unfold Link.sends Link.switched
    rw [hkind]
    show (if (!(2 == 1) && l.nextLctl == (l.txSeq + 1) % 4096) = true then _ else _) = _
    rw [hseq, if_pos (by rw [beq_self_eq_true]; rfl)]
  rw [hsends]
  exact ⟨rfl, rfl⟩

/-- WIDTH_ACK goes out (R441). -/
theorem Dev.sendWidthAck_does (hlen : p < d.links.length) (w mask : Nat) :
    (d.sendWidthAck p w mask).out = d.out ++ lctlSent d p (widthSlots 3 w mask (some (d.link p).nextLctl)) ∧
    Beside anyWord Link.exchanging p d (d.sendWidthAck p w mask) ∧
    ((d.link p).room = true → (d.link p).lctlWait = [] →
      ((d.sendWidthAck p w mask).link p).txMask = mask ∧ ((d.sendWidthAck p w mask).link p).txSwitch = none) := by
  have hset := d.link_setLink (l := { d.link p with txSwitch := some ((d.link p).nextLctl, mask) }) hlen
  have hbeside := d.beside_setLink (W := anyWord) (g := Link.exchanging) (l := { d.link p with txSwitch := some ((d.link p).nextLctl, mask) }) hlen rfl
  have hout : (d.setLink p { d.link p with txSwitch := some ((d.link p).nextLctl, mask) }).out = d.out := rfl
  have heq : d.sendWidthAck p w mask = (d.setLink p { d.link p with txSwitch := some ((d.link p).nextLctl, mask) }).lctlOut p
    (widthSlots 3 w mask (some (d.link p).nextLctl)) := rfl
  have hsent := lctlSent_congr (d := d) (e := d.setLink p { d.link p with txSwitch := some ((d.link p).nextLctl, mask) }) (p := p)
    (by rw [hset]; rfl) (widthSlots 3 w mask (some (d.link p).nextLctl))
  rw [heq]
  generalize d.setLink p { d.link p with txSwitch := some ((d.link p).nextLctl, mask) } = a at hset hbeside hout hsent
  have halen : p < a.links.length := by rw [hbeside.len]; exact hlen
  obtain ⟨hlout, hllink, -⟩ := a.lctlOut_does halen (widthSlots 3 w mask (some (d.link p).nextLctl))
  refine ⟨by rw [hlout, hout, hsent], hbeside.trans (a.lctlOut_exchanging halen _), fun hroom hwait => ?_⟩
  rw [hset] at hllink
  obtain ⟨hmask, hswitch⟩ := Link.acked_switch (mask := mask) (now := a.tim.tide) hroom hwait (widthSlots 3 w mask (some (d.link p).nextLctl))
  exact ⟨(Link.of_bare Link.txMask (fun _ => rfl) hllink).trans hmask, (Link.of_bare Link.txSwitch (fun _ => rfl) hllink).trans hswitch⟩

/-! ### Lanes that leave SLACK -/

theorem Dev.slackLanes_le : d.slackLanes p ≤ allLanes p := by
  refine Nat.le_sub_one_of_lt ?_
  unfold Dev.slackLanes Dev.lrd laneCount
  split
  · exact bits_lt ..
  · exact bits_lt ..

theorem Dev.wakeLanes_does (hp : p < 28) (hlen : p < d.links.length) (mask : Nat) :
    (d.wakeLanes p mask).out = d.out ++ (if mask = 0 then [] else [Emit.pattern p mask]) ∧
    Beside settingWord Link.bare p d (d.wakeLanes p mask) := by
  unfold Dev.wakeLanes
  split
  · exact ⟨(List.append_nil _).symm, .refl d⟩
  · obtain ⟨hout, -, -, -, hbeside⟩ := d.setSlack_does hp hlen (mask := maskMinus (d.slackLanes p) mask) ((maskMinus_le ..).trans d.slackLanes_le)
    exact ⟨by rw [Dev.emit_out, hout], hbeside.trans (Dev.beside_emit ..)⟩

/-! ### The exchange -/

/-- WIDTH_REQ goes out (R441). -/
theorem Dev.askWidth_does (hp : p < 28) (hlen : p < d.links.length) (w mask : Nat) :
    (d.askWidth p w mask).out = d.out ++ lctlSent d p (widthSlots 2 w mask none) ++
      (if maskMinus mask (d.laneMap p) = 0 then [] else [Emit.pattern p (maskMinus mask (d.laneMap p))]) ∧
    (∃ e, ((d.askWidth p w mask).link p).width = some e ∧ e.width = w ∧ e.mask = mask ∧ e.askedByUs = true) ∧
    Beside settingWord (fun _ => ()) p d (d.askWidth p w mask) := by
  obtain ⟨hlout, -, hlb⟩ := d.lctlOut_does hlen (widthSlots 2 w mask none)
  unfold Dev.askWidth
  dsimp only
  generalize d.lctlOut p (widthSlots 2 w mask none) = a at hlout hlb
  have halen : p < a.links.length := by rw [hlb.len]; exact hlen
  have hset := a.link_setLink (l := { a.link p with width := some ⟨w, mask, decide (a.linkWidth p < w), false, true, false, none, a.tim.tide⟩ }) halen
  have hbeside := a.beside_setLink (W := anyWord) (g := fun _ => ())
    (l := { a.link p with width := some ⟨w, mask, decide (a.linkWidth p < w), false, true, false, none, a.tim.tide⟩ }) halen rfl
  have hout : (a.setLink p { a.link p with width := some ⟨w, mask, decide (a.linkWidth p < w), false, true, false, none, a.tim.tide⟩ }).out = a.out := rfl
  generalize a.setLink p { a.link p with width := some ⟨w, mask, decide (a.linkWidth p < w), false, true, false, none, a.tim.tide⟩ } = b at hset hbeside hout
  have hmap : b.laneMap p = d.laneMap p := Dev.lrd_any hp (hlb.trans hbeside) (by decide) (by decide)
  obtain ⟨hwout, hwb⟩ := b.wakeLanes_does hp (by rw [hbeside.len]; exact halen) (maskMinus mask (b.laneMap p))
  rw [hmap] at hwout hwb ⊢
  refine ⟨by rw [hwout, hout, hlout], ⟨_, (hwb.view Link.width fun _ => rfl).trans (by rw [hset]), rfl, rfl, rfl⟩, ?_⟩
  exact ((hlb.trans hbeside).weaken (fun _ _ => trivial) fun _ _ _ => rfl).trans (hwb.weaken (fun _ h => h) fun _ _ _ => rfl)

/-- The other lanes of the present map go back to SLACK (R441, R455). -/
theorem Dev.abandon_does (hp : p < 28) (hlen : p < d.links.length) :
    let e := (d.setLink p { d.link p with width := none }).setSlack p (maskMinus (allLanes p) (d.laneMap p))
    e.out = d.out ∧ (e.link p).width = none ∧ e.linkWidth p = d.linkWidth p ∧ e.laneMap p = d.laneMap p ∧
    e.slackLanes p = maskMinus (allLanes p) (d.laneMap p) := by
  have hset := d.link_setLink (l := { d.link p with width := none }) hlen
  have hbeside := d.beside_setLink (W := anyWord) (g := fun _ => ()) (l := { d.link p with width := none }) hlen rfl
  have hout : (d.setLink p { d.link p with width := none }).out = d.out := rfl
  generalize d.setLink p { d.link p with width := none } = a at hset hbeside hout
  obtain ⟨hsout, -, hslack, hlrd, hsb⟩ := a.setSlack_does hp (by rw [hbeside.len]; exact hlen) (mask := maskMinus (allLanes p) (d.laneMap p)) (maskMinus_le ..)
  refine ⟨hsout.trans hout, (hsb.view Link.width fun _ => rfl).trans (by rw [hset]), ?_, ?_, hslack⟩
  · exact (hlrd _ _ (by decide) (by decide)).trans (Dev.lrd_any hp hbeside (by decide) (by decide))
  · exact (hlrd _ _ (by decide) (by decide)).trans (Dev.lrd_any hp hbeside (by decide) (by decide))

/-- An exchange is abandoned, and named to the partner (R441). -/
theorem Dev.dropExchange_does (hp : p < 28) (hlen : p < d.links.length) (tell : Bool) :
    let e := d.dropExchange p tell
    e.out = d.out ++ (if tell = true then lctlSent d p (widthSlots 3 (d.linkWidth p) (d.laneMap p) (some (d.link p).nextLctl)) else []) ∧
    (e.link p).width = none ∧ e.linkWidth p = d.linkWidth p ∧ e.laneMap p = d.laneMap p ∧ e.slackLanes p = maskMinus (allLanes p) (d.laneMap p) := by
  obtain ⟨hout, hbeside, -⟩ := d.sendWidthAck_does hlen (d.linkWidth p) (d.laneMap p)
  cases tell with
  | false =>
    obtain ⟨haout, hrest⟩ := d.abandon_does hp hlen
    exact ⟨haout.trans (List.append_nil _).symm, hrest⟩
  | true =>
    have hdrop : d.dropExchange p true = ((d.sendWidthAck p (d.linkWidth p) (d.laneMap p)).setLink p
      { (d.sendWidthAck p (d.linkWidth p) (d.laneMap p)).link p with width := none }).setSlack p
        (maskMinus (allLanes p) ((d.sendWidthAck p (d.linkWidth p) (d.laneMap p)).laneMap p)) := rfl
    intro e
    rw [if_pos rfl, show e = _ from hdrop]
    generalize d.sendWidthAck p (d.linkWidth p) (d.laneMap p) = a at hout hbeside
    obtain ⟨haout, hwidth, hlw, hmap, hslack⟩ := a.abandon_does hp (by rw [hbeside.len]; exact hlen)
    have hamap : a.laneMap p = d.laneMap p := Dev.lrd_any hp hbeside (by decide) (by decide)
    have haw : a.linkWidth p = d.linkWidth p := Dev.lrd_any hp hbeside (by decide) (by decide)
    rw [hamap] at hmap hslack
    exact ⟨haout.trans hout, hwidth, hlw.trans haw, by rw [hamap]; exact hmap, by rw [hamap]; exact hslack⟩

end

end Sys2Proof.Machine


/-!
SUPPORT. O49, the second part: WIDTH_REQ and WIDTH_ACK (R441, R442, R447, R455).
-/
namespace Sys2Proof.Machine

section
variable {s : State} {p : Fin 28}

/-! ### A message takes effect -/

/-- The package as a message of the link has been taken from the first place. -/
theorem lctl_taken (hlen : s.dev.links.length = 28) (rest : List Lctl) :
    let d := s.dev.setLink p.val { s.dev.link p.val with lctlIn := rest }
    d.link p.val = { s.dev.link p.val with lctlIn := rest } ∧ d.out = s.dev.out ∧ d.tim = s.dev.tim ∧ d.links.length = 28 ∧
    d.linkState p.val = s.dev.linkState p.val ∧ d.linkWidth p.val = s.dev.linkWidth p.val ∧ d.laneMap p.val = s.dev.laneMap p.val ∧
    ∀ sl, lctlSent d p.val sl = lctlSent s.dev p.val sl := by
  have hplen : p.val < s.dev.links.length := by rw [hlen]; exact p.isLt
  have hlink := s.dev.link_setLink (l := { s.dev.link p with lctlIn := rest }) hplen
  refine ⟨hlink, rfl, rfl, ?_, ?_, rfl, rfl, lctlSent_congr (by rw [hlink]; rfl)⟩
  · rw [Dev.setLink]
    simp only [length_modAt, hlen]
  · rw [Dev.linkState_eq, Dev.lrd_setLink, ← Dev.linkState_eq]

/-- The map that both sides ask for, or that the partner asks for, and whether this side has asked. -/
def Dev.exchangeOf (q w mask : Nat) (d : Dev) : (Nat × Nat) × Bool :=
  match (d.link q).width with
  | some e => if e.askedByUs && !e.ackSent then (bothAsked q e.width e.mask w mask, true) else ((w, mask), e.askedByUs)
  | none => ((w, mask), false)

/-- The exchange that WIDTH_REQ begins. -/
def Dev.exchangeAt (q : Nat) (x : (Nat × Nat) × Bool) (d : Dev) : WidthEx :=
  ⟨x.1.1, x.1.2, decide (d.linkWidth q < x.1.1), false, x.2, !decide (d.linkWidth q < x.1.1), none, d.tim.tide⟩

/-- WIDTH_REQ begins an exchange (R441, R442). -/
theorem Dev.widthReq_begins {q w mask : Nat} (hq : q < 28) {d : Dev} (hlen : q < d.links.length) (hst : d.linkState q = 5)
    (hpop : popCount 16 mask = w) (hmask : mask ≤ allLanes q) (hw : w ≠ 0) (hx : (d.exchangeOf q w mask).1.1 ≠ 0) :
    let x := d.exchangeOf q w mask
    let e := d.widthReq q w mask
    (e.link q).width = some (d.exchangeAt q x) ∧
    (¬d.linkWidth q < x.1.1 → e.out = d.out ++ lctlSent d q (widthSlots 3 x.1.1 x.1.2 (some (d.link q).nextLctl)) ∧
      ((d.link q).room = true → (d.link q).lctlWait = [] → (e.link q).txMask = x.1.2)) ∧
    (d.linkWidth q < x.1.1 → e.out = d.out ++ [.pattern q (maskMinus x.1.2 (d.laneMap q))] ∧
      (x.1.2 ≤ allLanes q → e.slackLanes q = maskMinus (allLanes q) (Nat.lor (d.laneMap q) x.1.2))) := by
  intro x e
  obtain ⟨l, hl⟩ : ∃ l : Link, l = { d.link q with width := some (d.exchangeAt q x) } := ⟨_, rfl⟩
  have he : e = (fun a : Dev => if decide (d.linkWidth q < x.1.1) = true then a.emit (.pattern q (maskMinus x.1.2 (a.laneMap q))) else
      a.sendWidthAck q x.1.1 x.1.2) ((d.setLink q l).setSlack q (maskMinus (allLanes q) (Nat.lor ((d.setLink q l).laneMap q)
        (if decide (d.linkWidth q < x.1.1) = true then x.1.2 else 0)))) := by
    rw [hl]
    exact (if_pos ⟨hst, hpop, hmask, hw⟩).trans (if_neg hx)
  have hset := d.link_setLink (l := l) hlen
  have hbeside := d.beside_setLink (W := anyWord) (g := fun _ => ()) (l := l) hlen rfl
  have hout : (d.setLink q l).out = d.out := rfl
  have hmap : (d.setLink q l).laneMap q = d.laneMap q := rfl
  have hsent : ∀ sl, lctlSent (d.setLink q l) q sl = lctlSent d q sl := lctlSent_congr (by rw [hset, hl]; rfl)
  generalize d.setLink q l = a at hset hbeside hout hmap hsent he
  rw [hmap] at he
  obtain ⟨hsout, -, hslack, hlrd, hsb⟩ := a.setSlack_does hq (by rw [hbeside.len]; exact hlen) (mask := maskMinus (allLanes q) (Nat.lor (d.laneMap q)
    (if decide (d.linkWidth q < x.1.1) = true then x.1.2 else 0))) (maskMinus_le ..)
  have hbmap : (a.setSlack q (maskMinus (allLanes q) (Nat.lor (d.laneMap q) (if decide (d.linkWidth q < x.1.1) = true then x.1.2 else 0)))).laneMap q =
      d.laneMap q := (hlrd _ _ (by decide) (by decide)).trans hmap
  generalize a.setSlack q (maskMinus (allLanes q) (Nat.lor (d.laneMap q) (if decide (d.linkWidth q < x.1.1) = true then x.1.2 else 0))) = b
    at hsout hslack hsb hbmap he
  have hblen : q < b.links.length := by rw [hsb.len, hbeside.len]; exact hlen
  have hview : ∀ {β : Type} (k : Link → β), (∀ l, k l.bare = k l) → k (b.link q) = k l := fun k hk => (hsb.view k hk).trans (congrArg k hset)
  have hlview : ∀ {β : Type} (k : Link → β), (∀ (l : Link) w, k { l with width := w } = k l) → k l = k (d.link q) := fun k hk => by rw [hl, hk]
  obtain ⟨haout, hab, htake⟩ := b.sendWidthAck_does hblen x.1.1 x.1.2
  have hbwidth : (b.link q).width = some (d.exchangeAt q x) := (hview Link.width fun _ => rfl).trans (by rw [hl])
  have hbnext : (b.link q).nextLctl = (d.link q).nextLctl := (hview Link.nextLctl fun _ => rfl).trans (hlview Link.nextLctl fun _ _ => rfl)
  have hbsent : ∀ sl, lctlSent b q sl = lctlSent d q sl := fun sl => (lctlSent_congr (hsb.view Link.outgoing fun _ => rfl) sl).trans (hsent sl)
  refine ⟨?_, fun hno => ?_, fun hyes => ?_⟩
  · rw [he]
    dsimp only
    split
    · exact hbwidth
    · exact (congrArg Exchanging.width hab.link).trans hbwidth
  · dsimp only at he
    rw [if_neg (by simpa using hno)] at he
    rw [he]
    refine ⟨by rw [haout, hsout, hout, hbsent, hbnext], fun hroom hwait => (htake ?_ ?_).1⟩
    · exact ((hview Link.room fun _ => rfl).trans (hlview Link.room fun _ _ => rfl)).trans hroom
    · exact ((hview Link.lctlWait fun _ => rfl).trans (hlview Link.lctlWait fun _ _ => rfl)).trans hwait
  · dsimp only at he
    rw [if_pos (decide_eq_true hyes), hbmap] at he
    rw [if_pos (decide_eq_true hyes)] at hslack
    rw [he]
    exact ⟨by rw [Dev.emit_out, hsout, hout], fun _ => hslack⟩

theorem Dev.widthReq_drops {q w mask : Nat} {d : Dev} (hst : d.linkState q = 5) (hpop : popCount 16 mask = w) (hmask : mask ≤ allLanes q) (hw : w ≠ 0)
    (hx : (d.exchangeOf q w mask).1.1 = 0) : d.widthReq q w mask = d.dropExchange q false :=
  (if_pos ⟨hst, hpop, hmask, hw⟩).trans (if_pos hx)

/-- WIDTH_REQ, first among the messages that flits have brought. -/
theorem widthReq_said (hrun : s.dev.running = true) (hlen : s.dev.links.length = 28) {w mask : Nat} {rest : List Lctl}
    (hin : (s.dev.link p.val).lctlIn = .widthReq w mask :: rest) (hst : s.dev.linkState p.val = 5) (hpop : popCount 16 mask = w)
    (hmask : mask ≤ allLanes p.val) (hw : w ≠ 0) :
    let l := s.dev.link p.val
    (l.width = none → w ≤ s.dev.linkWidth p.val → ∃ t, exec (.widthReq p w mask) s = .next t ∧ t.store = s.store ∧
      (t.dev.link p.val).width = some ⟨w, mask, false, false, false, true, none, s.dev.tim.tide⟩ ∧
      t.dev.out = s.dev.out ++ lctlSent s.dev p.val (widthSlots 3 w mask (some l.nextLctl)) ∧
      (l.room = true → l.lctlWait = [] → (t.dev.link p.val).txMask = mask)) ∧
    (l.width = none → s.dev.linkWidth p.val < w → ∃ t, exec (.widthReq p w mask) s = .next t ∧ t.store = s.store ∧
      (t.dev.link p.val).width = some ⟨w, mask, true, false, false, false, none, s.dev.tim.tide⟩ ∧
      t.dev.out = s.dev.out ++ [.pattern p.val (maskMinus mask (s.dev.laneMap p.val))] ∧
      t.dev.slackLanes p.val = maskMinus (allLanes p.val) (Nat.lor (s.dev.laneMap p.val) mask)) ∧
    (∀ e, l.width = some e → e.askedByUs = true → e.ackSent = false →
      let c := chosenMap p.val (min e.width w) (Nat.land e.mask mask)
      (c.1 ≠ 0 → ∃ t x, exec (.widthReq p w mask) s = .next t ∧ t.store = s.store ∧ (t.dev.link p.val).width = some x ∧
        x.width = c.1 ∧ x.mask = c.2 ∧ x.width ≤ min e.width w ∧ (∀ i, bit x.mask i = true → bit e.mask i = true ∧ bit mask i = true) ∧
        x.askedByUs = true) ∧
      (c.1 = 0 → ∃ t, exec (.widthReq p w mask) s = .next t ∧ t.store = s.store ∧ (t.dev.link p.val).width = none ∧
        t.dev.laneMap p.val = s.dev.laneMap p.val ∧ t.dev.linkWidth p.val = s.dev.linkWidth p.val)) := by
  intro l
  have hp := p.isLt
  have hexec := onDev_running hrun (Dev.withLctl p (.widthReq w mask) (Dev.widthReq p w mask))
  rw [Dev.withLctl_first hin] at hexec
  obtain ⟨hlink, hout, htim, hdlen, hdst, hdw, hdmap, hsent⟩ := lctl_taken (p := p) hlen rest
  dsimp only at hlink hout htim hdlen hdst hdw hdmap hsent
  generalize s.dev.setLink p { s.dev.link p with lctlIn := rest } = d at hexec hlink hout htim hdlen hdst hdw hdmap hsent
  have hplen : p.val < d.links.length := by rw [hdlen]; exact hp
  have hbegin := fun hx => Dev.widthReq_begins hp hplen (hdst.trans hst) hpop hmask hw hx
  have hwidth : (d.link p).width = l.width := by rw [hlink]
  have hnext : (d.link p).nextLctl = l.nextLctl := by rw [hlink]; rfl
  have hex : ∀ x, x = d.exchangeOf p w mask → d.exchangeAt p x = ⟨x.1.1, x.1.2, decide (s.dev.linkWidth p < x.1.1), false, x.2,
      !decide (s.dev.linkWidth p < x.1.1), none, s.dev.tim.tide⟩ := fun x _ => by rw [Dev.exchangeAt, hdw, htim]
  refine ⟨fun hnone hle => ?_, fun hnone hlt => ?_, fun e he hours hack => ?_⟩
  · have hx : d.exchangeOf p w mask = ((w, mask), false) := by
      unfold Dev.exchangeOf
      rw [hwidth, hnone]
    rw [hx] at hbegin hex
    obtain ⟨hw', hno, -⟩ := hbegin hw
    obtain ⟨hnout, hmask'⟩ := hno (by rw [hdw]; exact Nat.not_lt.2 hle)
    rw [hex _ rfl] at hw'
    refine ⟨_, hexec, rfl, hw'.trans ?_, ?_, fun hroom hwait => hmask' (by rw [hlink]; exact hroom) (by rw [hlink]; exact hwait)⟩
    · simp only [Nat.not_lt.2 hle, decide_false, Bool.not_false]
    · exact hnout.trans (by rw [hout, hsent, hnext])
  · have hx : d.exchangeOf p w mask = ((w, mask), false) := by
      unfold Dev.exchangeOf
      rw [hwidth, hnone]
    rw [hx] at hbegin hex
    obtain ⟨hw', -, hyes⟩ := hbegin hw
    obtain ⟨hyout, hslack⟩ := hyes (by rw [hdw]; exact hlt)
    rw [hex _ rfl] at hw'
    refine ⟨_, hexec, rfl, hw'.trans ?_, ?_, (hslack hmask).trans (by rw [hdmap])⟩
    · simp only [hlt, decide_true, Bool.not_true]
    · exact hyout.trans (by rw [hout, hdmap])
  · have hx : d.exchangeOf p w mask = (chosenMap p (min e.width w) (Nat.land e.mask mask), true) := by
      unfold Dev.exchangeOf
      rw [hwidth, he]
      dsimp only
      rw [hours, hack]
      rfl
    obtain ⟨-, hcw, -, hcbits⟩ := chosenMap_does p (min e.width w) (Nat.land e.mask mask)
    rw [hx] at hbegin hex
    refine ⟨fun hc => ?_, fun hc => ?_⟩
    · obtain ⟨hw', -, -⟩ := hbegin hc
      refine ⟨_, _, hexec, rfl, hw', rfl, rfl, hcw, fun i hi => ?_, rfl⟩
      have hboth := hcbits i hi
      rw [bit_and, Bool.and_eq_true] at hboth
      exact hboth
    · rw [Dev.widthReq_drops (hdst.trans hst) hpop hmask hw (by rw [hx]; exact hc)] at hexec
      obtain ⟨-, hnone, hlw, hmap, -⟩ := d.dropExchange_does hp hplen false
      exact ⟨_, hexec, rfl, hnone, hmap.trans hdmap, hlw.trans hdw⟩

end

end Sys2Proof.Machine


/-!
SUPPORT. O49, the second part: the end of a width exchange, and what begins one at this side (R441, R442, R455–R457).
-/
namespace Sys2Proof.Machine

section
variable {q a : Nat} {d : Dev} {x : WidthEx}

/-! ### The end of an exchange -/

theorem Dev.widthDone_takes (hw : (d.link q).width = some x) (hack : x.ackSent = true) (hsw : (d.link q).txSwitch = none) (hat : x.atSeq = some a)
    (hreached : ((d.link q).rxSeq + 4096 - a) % 4096 < 2048) : d.widthDone q = d.newMap q x.width x.mask := by
  unfold Dev.widthDone
  dsimp only
  rw [hw]
  exact if_pos ⟨hack, hsw, by rw [hat]; exact decide_eq_true hreached⟩

theorem Dev.widthDone_waits (hw : (d.link q).width = some x)
    (h : x.ackSent = false ∨ (d.link q).txSwitch ≠ none ∨ ∀ a, x.atSeq = some a → ¬((d.link q).rxSeq + 4096 - a) % 4096 < 2048) :
    d.widthDone q = d := by
  unfold Dev.widthDone
  dsimp only
  rw [hw]
  refine if_neg fun ⟨hack, hsw, hat⟩ => ?_
  obtain ⟨a, hx, hreached⟩ := (Option.any_eq_true ..).1 hat
  obtain hno | hno | hno := h
  · exact absurd hack (by rw [hno]; decide)
  · exact hno hsw
  · exact hno a hx (of_decide_eq_true hreached)

/-- An exchange of which both flits have gone over: the link takes the new map (R442, R455). -/
theorem Dev.widthDone_map (hq : q < 28) (hlen : q < d.links.length) (hack : x.ackSent = true) (hsw : (d.link q).txSwitch = none)
    (hat : x.atSeq = some a) (hreached : ((d.link q).rxSeq + 4096 - a) % 4096 < 2048) (hfits : x.width ≤ laneCount q ∧ x.mask ≤ allLanes q) :
    let t := (d.setLink q { d.link q with width := some x }).widthDone q
    (t.linkState q = d.linkState q ∧ t.linkWidth q = x.width ∧ t.laneMap q = x.mask ∧ t.slackLanes q = maskMinus (allLanes q) x.mask ∧
      (t.link q).txMask = x.mask ∧ (t.link q).width = none) ∧ d.out <+: t.out := by
  have hset := d.link_setLink (l := { d.link q with width := some x }) hlen
  have hbeside := d.beside_setLink (W := anyWord) (g := fun _ => ()) (l := { d.link q with width := some x }) hlen rfl
  have hst := hbeside.linkState hq
  intro t
  have ht : t = _ := Dev.widthDone_takes (d := d.setLink q { d.link q with width := some x }) (by rw [hset]) hack (by rw [hset]; exact hsw) hat
    (by rw [hset]; exact hreached)
  generalize d.setLink q { d.link q with width := some x } = b at hset hbeside hst ht
  obtain ⟨hwidth, hmap, hslack, hlst, hlink, hnew⟩ := b.newMap_does hq (by rw [hbeside.len]; exact hlen) hfits.1 hfits.2
  rw [ht]
  exact ⟨⟨hlst.trans hst, hwidth, hmap, hslack, congrArg Link.txMask hlink, congrArg Link.width hlink⟩, hbeside.out.trans hnew.out⟩

/-- The answer of this side, and with it the new map (R442, R455). -/
theorem Dev.answered_map (hq : q < 28) (hlen : q < d.links.length) (hack : x.ackSent = true) (hroom : (d.link q).room = true)
    (hwait : (d.link q).lctlWait = []) (hat : x.atSeq = some a) (hreached : ((d.link q).rxSeq + 4096 - a) % 4096 < 2048)
    (hfits : x.width ≤ laneCount q ∧ x.mask ≤ allLanes q) :
    let e := d.sendWidthAck q x.width x.mask
    let t := (e.setLink q { e.link q with width := some x }).widthDone q
    (t.linkState q = d.linkState q ∧ t.linkWidth q = x.width ∧ t.laneMap q = x.mask ∧ t.slackLanes q = maskMinus (allLanes q) x.mask ∧
      (t.link q).txMask = x.mask ∧ (t.link q).width = none) ∧
    ∀ y ∈ lctlSent d q (widthSlots 3 x.width x.mask (some (d.link q).nextLctl)), y ∈ t.out := by
  intro e
  obtain ⟨hout, hbeside, htake⟩ := d.sendWidthAck_does hlen x.width x.mask
  obtain ⟨-, hsw⟩ := htake hroom hwait
  have hst : e.linkState q = d.linkState q := (hbeside.weaken (k := fun _ => ()) (fun _ h => h) fun _ _ _ => rfl).linkState hq
  have hrx : (e.link q).rxSeq = (d.link q).rxSeq := congrArg (fun l : Exchanging => l.reception.rxSeq) hbeside.link
  have hmap := Dev.widthDone_map hq (d := e) (by rw [hbeside.len]; exact hlen) hack hsw hat (by rw [hrx]; exact hreached) hfits
  obtain ⟨⟨hst', hrest⟩, hpre⟩ := hmap
  exact ⟨⟨hst'.trans hst, hrest⟩, fun y hy => hpre.subset (by rw [hout]; exact List.mem_append_right _ hy)⟩

end

section
variable {s : State} {p : Fin 28} {e : WidthEx} {a : Nat} {rest : List Lctl}

/-- What a link answers with the flits of both sides over: it runs on the new map. -/
def Link.tookMap (s t : State) (p : Nat) (e : WidthEx) : Prop :=
  t.store = s.store ∧ t.dev.linkState p = 5 ∧ t.dev.linkWidth p = e.width ∧ t.dev.laneMap p = e.mask ∧
    t.dev.slackLanes p = maskMinus (allLanes p) e.mask ∧ (t.dev.link p).txMask = e.mask ∧ (t.dev.link p).width = none

/-- What a link answers with an exchange abandoned: it keeps the old map and says so. -/
def Link.keptMap (s t : State) (p : Nat) : Prop :=
  t.store = s.store ∧ (t.dev.link p).width = none ∧ t.dev.linkWidth p = s.dev.linkWidth p ∧ t.dev.laneMap p = s.dev.laneMap p ∧
    t.dev.slackLanes p = maskMinus (allLanes p) (s.dev.laneMap p) ∧
    t.dev.out = s.dev.out ++ lctlSent s.dev p (widthSlots 3 (s.dev.linkWidth p) (s.dev.laneMap p) (some (s.dev.link p).nextLctl))

/-- WIDTH_ACK with the old map (R441). -/
theorem widthAck_keeps (hrun : s.dev.running = true) (hlen : s.dev.links.length = 28) (hst : s.dev.linkState p.val = 5)
    (he : (s.dev.link p.val).width = some e)
    (hin : (s.dev.link p.val).lctlIn = .widthAck (s.dev.linkWidth p.val) (s.dev.laneMap p.val) a :: rest) :
    ∃ t, exec (.widthAck p (s.dev.linkWidth p.val) (s.dev.laneMap p.val) a) s = .next t ∧ Link.keptMap s t p.val := by
  have hexec := onDev_running hrun (Dev.withLctl p (.widthAck (s.dev.linkWidth p) (s.dev.laneMap p) a)
    (Dev.widthAck p (s.dev.linkWidth p) (s.dev.laneMap p) a))
  rw [Dev.withLctl_first hin] at hexec
  obtain ⟨hlink, hout, -, hdlen, hdst, hdw, hdmap, hsent⟩ := lctl_taken (p := p) hlen rest
  dsimp only at hlink hout hdlen hdst hdw hdmap hsent
  generalize s.dev.setLink p { s.dev.link p with lctlIn := rest } = d at hexec hlink hout hdlen hdst hdw hdmap hsent
  have hdrop : d.widthAck p (s.dev.linkWidth p) (s.dev.laneMap p) a = d.dropExchange p true := by
    unfold Dev.widthAck
    rw [show (d.link p).width = some e by rw [hlink]; exact he]
    exact (if_neg fun h => h (hdst.trans hst)).trans (if_pos ⟨hdw.symm, hdmap.symm⟩)
  obtain ⟨hdout, hnone, hlw, hmap, hslack⟩ := d.dropExchange_does p.isLt (by rw [hdlen]; exact p.isLt) true
  rw [hdrop] at hexec
  have hnext : (d.link p).nextLctl = (s.dev.link p).nextLctl := by rw [hlink]; rfl
  refine ⟨_, hexec, rfl, hnone, hlw.trans hdw, hmap.trans hdmap, hslack.trans (by rw [hdmap]), ?_⟩
  exact hdout.trans (by rw [if_pos rfl, hout, hsent, hdw, hdmap, hnext])

/-- What WIDTH_ACK with the map asked for does: this side answers, where it has not, and the partner's flit is noted. -/
theorem widthAck_notes (hrun : s.dev.running = true) (hlen : s.dev.links.length = 28) (hst : s.dev.linkState p.val = 5)
    (he : (s.dev.link p.val).width = some e) (hin : (s.dev.link p.val).lctlIn = .widthAck e.width e.mask a :: rest)
    (hnew : e.width ≠ s.dev.linkWidth p.val ∨ e.mask ≠ s.dev.laneMap p.val) :
    let d := s.dev.setLink p.val { s.dev.link p.val with lctlIn := rest }
    let send := !e.ackSent && (!e.widening || e.lanesReady)
    let b := if send then d.sendWidthAck p.val e.width e.mask else d
    exec (.widthAck p e.width e.mask a) s = .next { s with
      dev := (b.setLink p.val { b.link p.val with width := some { e with atSeq := some a, ackSent := e.ackSent || send } }).widthDone p.val } := by
  have hexec := onDev_running hrun (Dev.withLctl p (.widthAck e.width e.mask a) (Dev.widthAck p e.width e.mask a))
  rw [Dev.withLctl_first hin] at hexec
  obtain ⟨hlink, -, -, -, hdst, hdw, hdmap, -⟩ := lctl_taken (p := p) hlen rest
  intro d send b
  refine hexec.trans (congrArg (fun x : Dev => Host.Outcome.next { s with dev := x }) ?_)
  unfold Dev.widthAck
  rw [show ((s.dev.setLink p { s.dev.link p with lctlIn := rest }).link p).width = some e by rw [hlink]; exact he]
  have hno : ¬(e.width = d.linkWidth p ∧ e.mask = d.laneMap p) := fun ⟨hw, hm⟩ =>
    hnew.elim (fun h => h (hw.trans hdw)) fun h => h (hm.trans hdmap)
  have hsame : ¬(e.width ≠ e.width ∨ e.mask ≠ e.mask) := fun h => h.elim (fun h => h rfl) fun h => h rfl
  exact (if_neg fun h => h (hdst.trans hst)).trans ((if_neg hno).trans (if_neg hsame))

theorem widthAck_takes (hrun : s.dev.running = true) (hlen : s.dev.links.length = 28) (hst : s.dev.linkState p.val = 5)
    (he : (s.dev.link p.val).width = some e) (hin : (s.dev.link p.val).lctlIn = .widthAck e.width e.mask a :: rest)
    (hnew : e.width ≠ s.dev.linkWidth p.val ∨ e.mask ≠ s.dev.laneMap p.val) :
    let l := s.dev.link p.val
    let reached := fun (a : Nat) => (l.rxSeq + 4096 - a) % 4096 < 2048
    let fits := e.width ≤ laneCount p.val ∧ e.mask ≤ allLanes p.val
    (e.ackSent = true → l.txSwitch = none → reached a → fits → ∃ t, exec (.widthAck p e.width e.mask a) s = .next t ∧ Link.tookMap s t p.val e) ∧
    (e.ackSent = true → l.txSwitch ≠ none ∨ ¬reached a → ∃ t, exec (.widthAck p e.width e.mask a) s = .next t ∧ t.store = s.store ∧
      (t.dev.link p.val).width = some { e with atSeq := some a } ∧ t.dev.laneMap p.val = s.dev.laneMap p.val) ∧
    (e.ackSent = false → e.widening = false ∨ e.lanesReady = true → l.room = true → l.lctlWait = [] → reached a → fits →
      ∃ t, exec (.widthAck p e.width e.mask a) s = .next t ∧ Link.tookMap s t p.val e ∧
        ∀ x ∈ lctlSent s.dev p.val (widthSlots 3 e.width e.mask (some l.nextLctl)), x ∈ t.dev.out) ∧
    (e.ackSent = false → e.widening = true → e.lanesReady = false → exec (.widthAck p e.width e.mask a) s = .next { s with
      dev := s.dev.setLink p.val { l with lctlIn := rest, width := some { e with atSeq := some a } } }) := by
  intro l reached fits
  have hp := p.isLt
  have hexec := widthAck_notes hrun hlen hst he hin hnew
  obtain ⟨hlink, -, -, hdlen, hdst, -, hdmap, hsent⟩ := lctl_taken (p := p) hlen rest
  have hback : ∀ w, (s.dev.setLink p { s.dev.link p with lctlIn := rest }).setLink p
      { (s.dev.setLink p { s.dev.link p with lctlIn := rest }).link p with width := w } = s.dev.setLink p { l with lctlIn := rest, width := w } :=
    fun w => by rw [hlink, Dev.setLink, Dev.setLink, Dev.setLink, modAt_modAt]
  dsimp only at hexec hlink hdlen hdst hdmap hsent hback
  generalize s.dev.setLink p { s.dev.link p with lctlIn := rest } = d at hexec hlink hdlen hdst hdmap hsent hback
  have hplen : p.val < d.links.length := by rw [hdlen]; exact hp
  have hsw : (d.link p).txSwitch = l.txSwitch := by rw [hlink]
  have hrx : (d.link p).rxSeq = l.rxSeq := by rw [hlink]
  have hnext : (d.link p).nextLctl = l.nextLctl := by rw [hlink]; rfl
  refine ⟨fun hack hno hreached hfits => ?_, fun hack hyes => ?_, fun hack hready hroom hwait hreached hfits => ?_, fun hack hwid hno => ?_⟩
  · have hend := Dev.widthDone_map (x := { e with atSeq := some a, ackSent := true }) hp hplen rfl (hsw.trans hno) rfl
      (by rw [hrx]; exact hreached) hfits
    obtain ⟨⟨htst, htrest⟩, -⟩ := hend
    simp only [hack, Bool.not_true, Bool.false_and, Bool.false_eq_true, if_false, Bool.or_false] at hexec
    exact ⟨_, hexec, rfl, htst.trans (hdst.trans hst), htrest⟩
  · have hset := d.link_setLink (l := { d.link p with width := some { e with atSeq := some a, ackSent := true } }) hplen
    have hwait := Dev.widthDone_waits (d := d.setLink p { d.link p with width := some { e with atSeq := some a, ackSent := true } })
      (q := p) (by rw [hset]) (.inr (hyes.imp (fun h => by rw [hset]; exact fun h' => h (hsw.symm.trans h'))
        fun h b hb => by rw [hset, ← Option.some.inj hb]; dsimp only; rw [hrx]; exact h))
    simp only [hack, Bool.not_true, Bool.false_and, Bool.false_eq_true, if_false, Bool.or_false] at hexec
    rw [hwait] at hexec
    refine ⟨_, hexec, rfl, ?_, hdmap⟩
    exact (congrArg Link.width hset).trans (by rw [← hack])
  · have hend := Dev.answered_map (x := { e with atSeq := some a, ackSent := true }) hp hplen rfl (by rw [hlink]; exact hroom)
      (by rw [hlink]; exact hwait) rfl (by rw [hrx]; exact hreached) hfits
    obtain ⟨⟨htst, htrest⟩, hsends⟩ := hend
    have hsend : (!e.widening || e.lanesReady) = true := by
      obtain h | h := hready <;> simp [h]
    simp only [hack, hsend, Bool.not_false, Bool.and_self, if_true, Bool.or_true] at hexec
    rw [hsent, hnext] at hsends
    exact ⟨_, hexec, ⟨rfl, htst.trans (hdst.trans hst), htrest⟩, hsends⟩
  · have hsend : (!e.ackSent && (!e.widening || e.lanesReady)) = false := by rw [hack, hwid, hno]; rfl
    rw [hsend, if_neg Bool.false_ne_true, Bool.or_false] at hexec
    have hset := d.link_setLink (l := { d.link p with width := some { e with atSeq := some a } }) hplen
    rw [Dev.widthDone_waits (x := { e with atSeq := some a }) (by rw [hset]) (.inl hack), hback] at hexec
    exact hexec

/-- The lanes of a widening are ready (R441). -/
theorem wideningLanesReady_said (hrun : s.dev.running = true) (hlen : s.dev.links.length = 28) (hst : s.dev.linkState p.val = 5)
    (he : (s.dev.link p.val).width = some e) (hwid : e.widening = true) (hno : e.lanesReady = false) :
    let l := s.dev.link p.val
    let reached := fun (a : Nat) => (l.rxSeq + 4096 - a) % 4096 < 2048
    let fits := e.width ≤ laneCount p.val ∧ e.mask ≤ allLanes p.val
    let ackOf := lctlSent s.dev p.val (widthSlots 3 e.width e.mask (some l.nextLctl))
    (∀ a, e.atSeq = some a → reached a → l.room = true → l.lctlWait = [] → fits → ∃ t, exec (.wideningLanesReady p) s = .next t ∧
      Link.tookMap s t p.val e ∧ ∀ x ∈ ackOf, x ∈ t.dev.out) ∧
    (e.atSeq = none → ∃ t, exec (.wideningLanesReady p) s = .next t ∧ t.store = s.store ∧
      (t.dev.link p.val).width = some { e with lanesReady := true, ackSent := true } ∧ t.dev.out = s.dev.out ++ ackOf) := by
  intro l reached fits ackOf
  have hp := p.isLt
  have hplen : p.val < s.dev.links.length := by rw [hlen]; exact hp
  have hready : s.dev.wideningReady p = ((s.dev.sendWidthAck p e.width e.mask).setLink p
      { (s.dev.sendWidthAck p e.width e.mask).link p with width := some { e with lanesReady := true, ackSent := true } }).widthDone p := by
    unfold Dev.wideningReady
    rw [he]
    exact if_pos ⟨hst, hwid, by rw [hno]; rfl⟩
  have hexec := onDev_running hrun (Dev.wideningReady p)
  rw [hready] at hexec
  refine ⟨fun a hat hreached hroom hwait hfits => ?_, fun hat => ?_⟩
  · obtain ⟨⟨htst, htrest⟩, hsends⟩ := Dev.answered_map (x := { e with lanesReady := true, ackSent := true }) hp hplen rfl hroom hwait hat hreached hfits
    exact ⟨_, hexec, ⟨rfl, htst.trans hst, htrest⟩, hsends⟩
  · obtain ⟨hout, hbeside, -⟩ := s.dev.sendWidthAck_does hplen e.width e.mask
    generalize s.dev.sendWidthAck p e.width e.mask = b at hexec hout hbeside
    have hset := b.link_setLink (l := { b.link p with width := some { e with lanesReady := true, ackSent := true } })
      (by rw [hbeside.len]; exact hplen)
    rw [Dev.widthDone_waits (x := { e with lanesReady := true, ackSent := true }) (by rw [hset])
      (.inr (.inr fun a ha => by rw [show _ = e.atSeq from rfl, hat] at ha; exact absurd ha (by simp)))] at hexec
    exact ⟨_, hexec, rfl, congrArg Link.width hset, hout⟩

/-- A widening that takes too long (R441). -/
theorem widenAbandon_said (hrun : s.dev.running = true) (hlen : s.dev.links.length = 28) (he : (s.dev.link p.val).width = some e)
    (hwid : e.widening = true) (hno : e.lanesReady = false) :
    (e.since + us 50 ≤ s.dev.tim.tide → ∃ t, exec (.widenAbandon p) s = .next t ∧ Link.keptMap s t p.val) ∧
    (s.dev.tim.tide < e.since + us 50 → exec (.widenAbandon p) s = .next s) := by
  have hexec := onDev_running hrun (Dev.widenAbandon p)
  unfold Dev.widenAbandon at hexec
  rw [he] at hexec
  refine ⟨fun hdue => ?_, fun hnot => hexec.trans ?_⟩
  · obtain ⟨hout, hnone, hlw, hmap, hslack⟩ := s.dev.dropExchange_does p.isLt (by rw [hlen]; exact p.isLt) true
    dsimp only at hexec
    rw [if_pos ⟨hwid, by rw [hno]; rfl, hdue⟩] at hexec
    exact ⟨_, hexec, rfl, hnone, hlw, hmap, hslack, hout⟩
  · dsimp only
    rw [if_neg fun h => absurd h.2.2 (Nat.not_le.2 hnot)]

end

end Sys2Proof.Machine


/-!
SUPPORT. O49, the second part: GO of the width command, AUTO_WIDEN and wake tones (R441, R442, R456, R457).
-/
namespace Sys2Proof.Machine

section
variable {s : State} {m : Master} {p : Fin 28} {n : Nat}

/-! ### The width command -/

theorem fabricWidth_fields : ∀ q < 24, F.PRT_WIDTH_CMD_WIDTH ∈ fieldsAt (0x80 + q) 0x10C ∧ F.PRT_WIDTH_CMD_LANE_MASK ∈ fieldsAt (0x80 + q) 0x10C := by
  decide +kernel

theorem lndlWidth_fields : ∀ q < 4, F.LNDL_WIDTH_CMD_WIDTH ∈ fieldsAt (0x10 + q) 0x30C ∧ F.LNDL_WIDTH_CMD_LANE_MASK ∈ fieldsAt (0x10 + q) 0x30C := by
  decide +kernel

theorem quiet_widthCmd {d : Dev} (hp : p.val < d.links.length) (hq : quiet d) : quiet (d.widthCmd m p n) := by
  unfold Dev.widthCmd
  dsimp only
  split
  · exact (d.askWidth_does p.isLt hp ..).2.2.rests hq
  · exact quiet_dropWrite hq ..

/-- What a write of the width command sets going. -/
theorem widthCmd_written (hopen : pageOpen s.dev m (linkPage p)) (hown : s.dev.owns m (linkPage p) = true) (hn : n < 2 ^ 32) (hgo : bit n 31 = true)
    (hlen : s.dev.links.length = 28) (hq : quiet s.dev) (htaken : fieldsTaken (tlp m s.dev) m (linkPage p) (if p.val < 24 then 0x10C else 0x30C) n) :
    ∃ e : Dev, regOut m (widthCmdAddr p) 4 n s = .next { s with dev := e.widthCmd m p n } ∧ e.links = s.dev.links ∧ e.out = s.dev.out ∧
      e.lrd p F.PRT_WIDTH_CMD_WIDTH F.LNDL_WIDTH_CMD_WIDTH = (if p.val < 24 then bits n 0 4 else bits n 0 5) ∧
      e.lrd p F.PRT_WIDTH_CMD_LANE_MASK F.LNDL_WIDTH_CMD_LANE_MASK = (if p.val < 24 then bits n 8 8 else bits n 15 16) ∧
      ∀ a, a ≠ linkPage p * 0x1000 + (if p.val < 24 then 0x10C else 0x30C) → e.word a = s.dev.word a := by
  obtain ⟨c, hc⟩ := tlp_counts m s.dev
  have hp := p.isLt
  have hframe : ∀ a w, ((tlp m s.dev).setWord a w).rest = s.dev.rest ∧ ((tlp m s.dev).setWord a w).links = s.dev.links ∧
      ((tlp m s.dev).setWord a w).out = s.dev.out := fun a w => by
    rw [hc]
    exact ⟨rfl, rfl, rfl⟩
  have hword : ∀ a b w, b ≠ a → ((tlp m s.dev).setWord a w).word b = s.dev.word b := fun a b w h => by
    rw [Dev.word_setWord_ne _ _ h, tlp_word]
  by_cases h24 : p.val < 24
  · have hpage : linkPage p = 0x80 + p.val := if_pos h24
    have haddr : widthCmdAddr p = (0x80 + p.val) * 0x1000 + 0x10C := by
      rw [widthCmdAddr, linkCfgAddr, if_pos h24]
      omega
    rw [if_pos h24] at htaken ⊢
    rw [hpage] at hopen hown htaken ⊢
    rw [haddr, if_pos h24, if_pos h24]
    have hwrite := fabricRegister hopen (by omega) (by omega) (off := 0x10C) (by omega) (by omega) (by omega) hn htaken
    rw [Dev.fabricWritten, if_neg (by omega), if_neg (by omega), if_neg (by omega), if_pos (by omega), if_neg (by omega), if_pos ⟨rfl, hgo⟩,
      Nat.add_sub_cancel_left] at hwrite
    obtain ⟨hrest, hlinks, hout⟩ := hframe ((0x80 + p.val) * 0x1000 + 0x10C) ((tlp m s.dev).newWord ((tlp m s.dev).mayWrite m (0x80 + p.val) 0x10C)
      (0x80 + p.val) 0x10C n)
    rw [settle_quiet (quiet_widthCmd (by rw [hlinks, hlen]; exact hp) (quiet_rest hrest hq))] at hwrite
    obtain ⟨hfw, hfm⟩ := fabricWidth_fields p h24
    have hmay := mayWrite_fabric (s := s) (m := m) (p := 0x80 + p.val) (off := 0x10C) (by omega) hown
    refine ⟨_, hwrite, hlinks, hout, ?_, ?_, fun a ha => hword _ _ _ ha⟩
    · rw [Dev.lrd, if_pos h24, hpage, enable_written htaken hfw (by omega) hmay rfl (by decide) rfl (by decide)]
      rfl
    · rw [Dev.lrd, if_pos h24, hpage, enable_written htaken hfm (by omega) hmay rfl (by decide) rfl (by decide)]
      rfl
  · obtain ⟨q, hqp⟩ : ∃ q : Fin 4, p.val = 24 + q.val := ⟨⟨p.val - 24, by omega⟩, by simp only; omega⟩
    have hpage : linkPage p = lndPage q.val := by
      rw [linkPage, if_neg h24, lndPage]
      omega
    have haddr : widthCmdAddr p = lndPage q.val * 0x1000 + 0x30C := by
      rw [widthCmdAddr, linkCfgAddr, if_neg h24, lndPage]
      omega
    rw [if_neg h24] at htaken ⊢
    rw [hpage] at hopen hown htaken ⊢
    rw [haddr, if_neg h24, if_neg h24]
    have hwrite := lndRegister (n := q) (off := 0x30C) hopen (by omega) (by omega) (by omega) hn htaken
    rw [Pkg.lndWritten, if_neg (by omega), if_neg (by omega), if_neg (by omega), if_neg (by omega), if_neg (by omega), if_pos rfl, if_pos hgo,
      ← hqp] at hwrite
    obtain ⟨-, hlinks, hout⟩ := hframe (lndPage q.val * 0x1000 + 0x30C) ((tlp m s.dev).newWord ((tlp m s.dev).mayWrite m (lndPage q.val) 0x30C)
      (lndPage q.val) 0x30C n)
    obtain ⟨hfw, hfm⟩ := lndlWidth_fields q q.isLt
    have hmay := mayWrite_lnd (s := s) (m := m) (n := q) (off := 0x30C) hown
    refine ⟨_, hwrite, hlinks, hout, ?_, ?_, fun a ha => hword _ _ _ ha⟩
    · rw [Dev.lrd, if_neg h24, hpage, enable_written htaken hfw (by rw [lndPage]; omega) hmay rfl (by decide) rfl (by decide)]
      rfl
    · rw [Dev.lrd, if_neg h24, hpage, enable_written htaken hfm (by rw [lndPage]; omega) hmay rfl (by decide) rfl (by decide)]
      rfl

/-- A field of the link's page that stands in another register. -/
theorem lrd_of_word {d e : Dev} {x y : Nat} {f g : Fld} (hword : ∀ a, a ≠ linkPage p * 0x1000 + (if p.val < 24 then x else y) → e.word a = d.word a)
    (hf : f.at 0 ≠ x) (hg : g.at 0 ≠ y) : e.lrd p f g = d.lrd p f g := by
  unfold Dev.lrd Dev.rdp Dev.rdpi
  split
  · next h => rw [hword _ (by rw [Fld.addr, if_pos h]; exact fun h => hf (Nat.add_left_cancel h))]
  · next h => rw [hword _ (by rw [Fld.addr, if_neg h]; exact fun h => hg (Nat.add_left_cancel h))]

theorem prtWidthCmd_said {v : W32} (hlen : s.dev.links.length = 28) (hopen : pageOpen s.dev m (linkPage p)) (hown : s.dev.owns m (linkPage p) = true)
    (hq : quiet s.dev) (htaken : fieldsTaken (tlp m s.dev) m (linkPage p) (if p.val < 24 then 0x10C else 0x30C) (putBit v.toNat 31 true)) :
    let l := s.dev.link p.val
    let w := if p.val < 24 then bits v.toNat 0 4 else bits v.toNat 0 5
    let mask := if p.val < 24 then bits v.toNat 8 8 else bits v.toNat 15 16
    (s.dev.linkState p.val = 5 → l.width = none → popCount (laneCount p.val) mask = w → w ≠ 0 → ∃ t e, exec (.prtWidthCmd m p v) s = .next t ∧
      t.store = s.store ∧ t.dev.out = s.dev.out ++ lctlSent s.dev p.val (widthSlots 2 w mask none) ++
        (if maskMinus mask (s.dev.laneMap p.val) = 0 then [] else [Emit.pattern p.val (maskMinus mask (s.dev.laneMap p.val))]) ∧
      (t.dev.link p.val).width = some e ∧ e.width = w ∧ e.mask = mask ∧ e.askedByUs = true) ∧
    (s.dev.linkState p.val ≠ 5 ∨ l.width ≠ none ∨ popCount (laneCount p.val) mask ≠ w → ∃ t, exec (.prtWidthCmd m p v) s = .next t ∧ t.store = s.store ∧
      t.dev.links = s.dev.links ∧ t.dev.rdp F.BLK_ERR_CNT_ERRORS (linkPage p.val) = min (s.dev.rdp F.BLK_ERR_CNT_ERRORS (linkPage p.val) + 1) 0xFFFF) := by
  intro l w mask
  have hp := p.isLt
  obtain ⟨e, hwrite, hlinks, hout, hw, hmask, hword⟩ := widthCmd_written hopen hown (putBit_top_lt true v.isLt (i := 31) (by decide))
    (bit_putBit_same ..) hlen hq htaken
  have hbits : ∀ lo wd, lo + wd ≤ 31 → bits (putBit v.toNat 31 true) lo wd = bits v.toNat lo wd := fun lo wd h => bits_putBits_ne v.toNat 31 1 1 lo wd (.inl h)
  rw [hbits 0 4 (by decide), hbits 0 5 (by decide)] at hw
  rw [hbits 8 8 (by decide), hbits 15 16 (by decide)] at hmask
  have hst : e.linkState p = s.dev.linkState p := by
    rw [Dev.linkState_eq, Dev.linkState_eq]
    exact lrd_of_word hword (by decide) (by decide)
  have hmap : e.laneMap p = s.dev.laneMap p := lrd_of_word hword (by decide) (by decide)
  have hlink : e.link p = l := by rw [Dev.link, hlinks, ← Dev.link]
  have hexec : exec (.prtWidthCmd m p v) s = .next { s with dev := e.widthCmd m p (putBit v.toNat 31 true) } := hwrite
  unfold Dev.widthCmd at hexec
  rw [hw, hmask, hst, hlink] at hexec
  refine ⟨fun h5 hnone hpop hw0 => ?_, fun hno => ?_⟩
  · dsimp only at hexec
    rw [if_pos ⟨h5, hnone, hpop, hw0⟩] at hexec
    obtain ⟨haout, ⟨x, hx, hxw, hxm, hours⟩, -⟩ := e.askWidth_does hp (by rw [hlinks, hlen]; exact hp) w mask
    have hsent := lctlSent_congr (d := s.dev) (e := e) (congrArg Link.outgoing hlink) (widthSlots 2 w mask none)
    exact ⟨_, x, hexec, rfl, haout.trans (by rw [hout, hsent, hmap]), hx, hxw, hxm, hours⟩
  · dsimp only at hexec
    rw [if_neg fun ⟨h5, hnone, hpop, _⟩ => hno.elim (· h5) fun h => h.elim (· hnone) (· hpop)] at hexec
    obtain ⟨h80, hpage⟩ := linkPage_range hp
    have herr : e.rdp F.BLK_ERR_CNT_ERRORS (linkPage p) = s.dev.rdp F.BLK_ERR_CNT_ERRORS (linkPage p) := by
      refine congrArg (bits · _ _) (hword _ ?_)
      rw [Fld.addr]
      exact fun h => by
        have := Nat.add_left_cancel h
        split at this <;> exact absurd this (by decide)
    refine ⟨_, hexec, rfl, ?_, (Dev.errors_capture _ (by omega) ..).trans (by rw [herr]; rfl)⟩
    refine Eq.trans ?_ hlinks
    simp [Dev.dropWrite]

/-! ### AUTO_WIDEN and wake tones -/

theorem lanesDue_iff {d : Dev} {i : Nat} (hi : i < laneCount p) : bit (d.lanesDue p) i = true ↔
    bit (d.failedLanes p) i = true ∧ bit (d.slackLanes p) i = true ∧ nget (d.link p).slackAt i + us 1000000 ≤ d.tim.tide + 1 := by
  unfold Dev.lanesDue
  rw [bit_lanes_filter hi, bit_and, Bool.and_eq_true, Bool.and_eq_true, decide_eq_true_iff, and_assoc]

theorem autoWiden_said (hrun : s.dev.running = true) (hlen : s.dev.links.length = 28) :
    let l := s.dev.link p.val
    let due := s.dev.lanesDue p.val
    let c := chosenMap p.val (s.dev.maxWidth p.val) (Nat.lor (maskMinus l.usable (s.dev.failedLanes p.val)) (Nat.land due l.usable))
    let on := s.dev.lrd p.val F.PRT_CFG_AUTO_WIDEN F.LNDL_CFG_AUTO_WIDEN
    (on = 1 → s.dev.linkState p.val = 5 → l.width = none → s.dev.pwr.narrowed = false → s.dev.linkWidth p.val < c.1 → Nat.land c.2 due ≠ 0 →
      ∃ t, exec (.autoWidenTimer p) s = .next t ∧ t.store = s.store ∧ (t.dev.link p.val).width.isSome = true ∧
        t.dev.out = s.dev.out ++ lctlSent s.dev p.val (widthSlots 2 c.1 c.2 none) ++
          (if maskMinus c.2 (s.dev.laneMap p.val) = 0 then [] else [Emit.pattern p.val (maskMinus c.2 (s.dev.laneMap p.val))])) ∧
    (on = 0 ∨ due = 0 → exec (.autoWidenTimer p) s = .next s) := by
  intro l due c on
  have hexec := onDev_running hrun (Dev.autoWiden p)
  refine ⟨fun hon h5 hnone hnar hlt hc => ?_, fun hoff => hexec.trans ?_⟩
  · obtain ⟨hout, ⟨x, hx, -⟩, -⟩ := s.dev.askWidth_does p.isLt (by rw [hlen]; exact p.isLt) c.1 c.2
    have hwide : s.dev.autoWiden p = s.dev.askWidth p c.1 c.2 := if_pos ⟨hon, h5, hnone, by rw [hnar]; rfl, hlt, hc⟩
    exact ⟨_, hexec, rfl, by rw [hwide, hx]; rfl, by rw [hwide]; exact hout⟩
  · have hsame : s.dev.autoWiden p = s.dev := if_neg fun ⟨hon, _, _, _, _, hc⟩ => hoff.elim
      (fun h => absurd (h.symm.trans hon) (by decide)) fun h => hc (by rw [show s.dev.lanesDue p = 0 from h]; exact Nat.and_zero _)
    rw [hsame]

theorem wakeTone_said (hrun : s.dev.running = true) (hlen : s.dev.links.length = 28) (lane : Nat) :
    (s.dev.linkState p.val ≤ 1 → s.dev.linkEnabled p.val = true → s.dev.linkPowered p.val = true → 24 ≤ p.val ∨ s.dev.role p.val ≠ 0 →
      s.dev.booted = true → ∃ t, exec (.wakeToneDetect p lane) s = .next t ∧ t.store = s.store ∧ t.dev.out = s.dev.out ∧
        t.dev.linkState p.val = 2 ∧ (t.dev.link p.val).since = s.dev.tim.tide ∧
        t.dev.slackLanes p.val = if s.dev.linkState p.val = 0 then s.dev.disabledLanes p.val else s.dev.slackLanes p.val) ∧
    (s.dev.linkState p.val = 5 → (s.dev.link p.val).width = none → bit (s.dev.slackLanes p.val) lane = true →
      exec (.wakeToneDetect p lane) s = .next { s with dev := s.dev.linkCount p.val 8 1 }) := by
  have hp := p.isLt
  have hexec := onDev_running hrun (Dev.wakeTone p lane)
  refine ⟨fun h1 hen hon hrole hboot => ?_, fun h5 hnone hslack => hexec.trans ?_⟩
  · obtain ⟨hsout, -, hsslack, -, hsb⟩ := s.dev.setSlack_does hp (by rw [hlen]; exact hp) s.dev.disabledLanes_le
    obtain ⟨a, ha⟩ : ∃ a : Dev, a = if s.dev.linkState p = 0 then s.dev.setSlack p (s.dev.disabledLanes p) else s.dev := ⟨_, rfl⟩
    have hwake : s.dev.wakeTone p lane = (a.setLinkState p 2).setLink p { a.link p with since := a.tim.tide } := by
      rw [ha]
      exact if_pos ⟨h1, hen, hon, hrole, hboot⟩
    have haout : a.out = s.dev.out ∧ a.links.length = 28 ∧ a.tim.tide = s.dev.tim.tide ∧
        a.slackLanes p = if s.dev.linkState p = 0 then s.dev.disabledLanes p else s.dev.slackLanes p := by
      rw [ha]
      split
      · exact ⟨hsout, hsb.len.trans hlen, hsb.tide, hsslack⟩
      · exact ⟨rfl, hlen, rfl, rfl⟩
    obtain ⟨haout, halen, hatim, haslack⟩ := haout
    obtain ⟨hst, hlrd, hbeside, hlinks, hout, -⟩ := a.setLinkState_does hp (st := 2) (by decide)
    have hslack : (a.setLinkState p 2).slackLanes p = a.slackLanes p := hlrd _ _ (by decide)
    rw [hwake] at hexec
    generalize a.setLinkState p 2 = b at hexec hst hbeside hlinks hout hslack
    have hset := b.link_setLink (p := p) (l := { a.link p with since := a.tim.tide }) (by rw [hlinks, halen]; exact hp)
    refine ⟨_, hexec, rfl, hout.trans haout, ?_, ?_, hslack.trans haslack⟩
    · rw [Dev.linkState_eq, Dev.lrd_setLink, ← Dev.linkState_eq]
      exact hst
    · exact (congrArg Link.since hset).trans hatim
  · have hcount : s.dev.wakeTone p lane = s.dev.linkCount p 8 1 := by
      unfold Dev.wakeTone
      dsimp only
      rw [if_neg fun h => absurd h.1 (by omega), if_pos h5, hnone]
      exact if_pos hslack
    rw [hcount]

end

theorem linkWidth : Said.LinkWidth := by
  intro p s hrun ⟨_, _, hlen, _⟩ st l pg off all map next ackOf patterns
  refine ⟨fun m v hopen hown hq htaken => prtWidthCmd_said hlen hopen hown hq htaken, fun w mask => ⟨fun hin => ?_, ?_⟩, ?_, ?_, ?_, ?_⟩
  · exact (onDev_running hrun _).trans (by rw [Dev.withLctl_other hin])
  · exact fun rest hin hst hpop hmask hw => widthReq_said hrun hlen hin hst hpop hmask hw
  · refine fun e he hst => ⟨fun a rest hin => widthAck_keeps hrun hlen hst he hin,
      fun a rest hin hnew => widthAck_takes hrun hlen hst he hin hnew, fun hwid hno => ?_⟩
    obtain ⟨htakes, hwaits⟩ := wideningLanesReady_said hrun hlen hst he hwid hno
    exact ⟨htakes, hwaits, widenAbandon_said hrun hlen he hwid hno⟩
  · exact fun w mask a hin => (onDev_running hrun _).trans (by rw [Dev.withLctl_other hin])
  · exact ⟨fun i hi => lanesDue_iff hi, autoWiden_said hrun hlen⟩
  · exact wakeTone_said hrun hlen

/-- Settles O49: a flit is taken, refused or sent again by the rules of R447–R450, and a width exchange ends with the new map or the old one
(R441, R442, R455–R457). -/
theorem linkTraffic : Obligations.LinkTraffic := by
  unfold Obligations.LinkTraffic
  exact ⟨linkFlits, linkWidth⟩

end Sys2Proof.Machine


/-!
SUPPORT. O48, the first part: the choice of an output (R404–R417).
-/
namespace Sys2Proof.Machine

section
variable {d : Dev}

/-! ### The port that wins -/

theorem Dev.bestOf_mem {cls p : Nat} {cs : List (Nat × Bool)} (h : p ∈ d.bestOf cls cs) :
    ∃ e, (p, e) ∈ cs ∧ ∀ x ∈ cs, d.score cls (p, e) ≤ d.score cls x := by
  unfold Dev.bestOf at h
  obtain ⟨c, hc, rfl⟩ := List.mem_map.1 h
  obtain ⟨hmem, hscore⟩ := List.mem_filter.1 hc
  refine ⟨c.2, hmem, fun x hx => ?_⟩
  obtain ⟨m, hm⟩ : ∃ m, (cs.map (d.score cls)).min? = some m := Option.isSome_iff_exists.1 (List.isSome_min?_of_mem (List.mem_map_of_mem hx))
  rw [hm, Option.getD_some, beq_iff_eq] at hscore
  exact hscore.le.trans ((List.min?_eq_some_iff.1 hm).2 _ (List.mem_map_of_mem hx))

theorem Dev.bestOf_ne_nil {cls : Nat} {cs : List (Nat × Bool)} (h : cs ≠ []) : d.bestOf cls cs ≠ [] := by
  obtain ⟨m, hm⟩ : ∃ m, (cs.map (d.score cls)).min? = some m := by
    obtain ⟨x, l, rfl⟩ := List.exists_cons_of_ne_nil h
    exact Option.isSome_iff_exists.1 (List.isSome_min?_of_mem (List.mem_map_of_mem (List.mem_cons_self ..)))
  obtain ⟨c, hc, hscore⟩ := List.mem_map.1 (List.min?_eq_some_iff.1 hm).1
  refine List.ne_nil_of_mem (a := c.1) (List.mem_map.2 ⟨c, List.mem_filter.2 ⟨hc, ?_⟩, rfl⟩)
  rw [hm, Option.getD_some, hscore, beq_self_eq_true]

theorem Dev.winner_none {cls tie : Nat} {cs : List (Nat × Bool)} : d.winner cls tie cs = none ↔ cs = [] := by
  unfold Dev.winner
  split
  · rw [List.min?_eq_none_iff, List.map_eq_nil_iff]
  · refine ⟨fun h => ?_, fun h => by rw [h]; rfl⟩
    by_contra hne
    have hlen := List.length_pos_of_ne_nil (d.bestOf_ne_nil (cls := cls) hne)
    exact absurd (List.getElem?_eq_none_iff.1 h) (Nat.not_le.2 (Nat.mod_lt _ hlen))

/-- The winner is a candidate: for CTRL the lowest port, else of the lowest score (R410, R411). -/
theorem Dev.winner_some {cls tie p : Nat} {cs : List (Nat × Bool)} (h : d.winner cls tie cs = some p) :
    ∃ e, (p, e) ∈ cs ∧ (cls = 3 → ∀ x ∈ cs, p ≤ x.1) ∧ (cls ≠ 3 → ∀ x ∈ cs, d.score cls (p, e) ≤ d.score cls x) := by
  unfold Dev.winner at h
  split at h
  · next h3 =>
    obtain ⟨hmem, hle⟩ := List.min?_eq_some_iff.1 h
    obtain ⟨c, hc, rfl⟩ := List.mem_map.1 hmem
    exact ⟨c.2, hc, fun _ x hx => hle _ (List.mem_map_of_mem hx), fun hne => absurd h3 hne⟩
  · next h3 =>
    obtain ⟨e, he, hscore⟩ := Dev.bestOf_mem (List.mem_of_getElem? h)
    exact ⟨e, he, fun h => absurd h h3, fun _ => hscore⟩

/-! ### Candidates -/

theorem bit_field_true {n lo w i : Nat} (h : bit (bits n lo w) i = true) : bit n (lo + i) = true := by
  rw [bit_eq_testBit, testBit_bits] at h
  rw [bit_eq_testBit]
  exact (Bool.and_eq_true_iff.1 h).2

theorem Dev.candidates_mem {b : Bool} {dest cls p : Nat} {e : Bool} (h : (p, e) ∈ d.candidates b dest cls) :
    bit (d.routeEntry b dest cls) 55 = true ∧ p < 24 ∧ d.live b p = true ∧
    ((d.role p = 1 ∧ e = false ∧ bit (d.routeEntry b dest cls) p = true) ∨
      (d.role p = 2 ∧ e = true ∧ bit (d.routeEntry b dest cls) (24 + p) = true) ∨
      (d.role p = 3 ∧ d.spareSet (bits (d.routeEntry b dest cls) (if e then 24 else 0) 24) p = true)) := by
  unfold Dev.candidates at h
  dsimp only at h
  split at h
  · exact absurd h (by simp)
  · next h55 =>
    obtain ⟨hmem, hlive⟩ := List.mem_filter.1 h
    obtain ⟨q, hq, hqp⟩ := List.mem_filterMap.1 hmem
    have h24 : q < 24 := List.mem_range.1 hq
    have h55' : bit (d.routeEntry b dest cls) 55 = true := by simpa using h55
    split at hqp
    · next h1 =>
      obtain ⟨hbit, hx⟩ := Option.ite_none_right_eq_some.1 hqp
      obtain ⟨rfl, rfl⟩ := Prod.mk.inj (Option.some.inj hx)
      exact ⟨h55', h24, hlive, .inl ⟨h1, rfl, by simpa using bit_field_true hbit⟩⟩
    · split at hqp
      · next h2 =>
        obtain ⟨hbit, hx⟩ := Option.ite_none_right_eq_some.1 hqp
        obtain ⟨rfl, rfl⟩ := Prod.mk.inj (Option.some.inj hx)
        exact ⟨h55', h24, hlive, .inr (.inl ⟨h2, rfl, bit_field_true hbit⟩)⟩
      · split at hqp
        · next h3 =>
          split at hqp
          · next hs =>
            obtain ⟨rfl, rfl⟩ := Prod.mk.inj (Option.some.inj hqp)
            exact ⟨h55', h24, hlive, .inr (.inr ⟨h3, hs⟩)⟩
          · obtain ⟨hs, hx⟩ := Option.ite_none_right_eq_some.1 hqp
            obtain ⟨rfl, rfl⟩ := Prod.mk.inj (Option.some.inj hx)
            exact ⟨h55', h24, hlive, .inr (.inr ⟨h3, hs⟩)⟩
        · exact absurd hqp (by simp)

/-- The towpath stays in the group of TOW (R416, R417). -/
theorem Dev.towPort_some {b : Bool} {dest cls p : Nat} (h : d.towPort b dest cls = some p) :
    p < 24 ∧ d.group p = d.group (bits (d.routeEntry b dest cls) 48 5) ∧ d.live b p = true ∧ bit (d.routeEntry b dest cls) 55 = true ∧
    (d.role p = 1 ∨ d.role p = 2 ∨ (d.role p = 3 ∧ d.downOf (d.group p) ≠ [])) := by
  unfold Dev.towPort at h
  dsimp only at h
  split at h
  · next h55 =>
    obtain ⟨e, hmem, -⟩ := Dev.winner_some h
    obtain ⟨q, hq, hqp⟩ := List.mem_map.1 hmem
    obtain ⟨rfl, -⟩ := Prod.mk.inj hqp
    obtain ⟨h24, hcond⟩ := List.mem_filter.1 hq
    simp only [Bool.and_eq_true, Bool.or_eq_true, beq_iff_eq, Bool.not_eq_true', List.isEmpty_eq_false_iff] at hcond
    obtain ⟨⟨hgroup, hrole⟩, hlive⟩ := hcond
    refine ⟨List.mem_range.1 h24, hgroup, hlive, h55, ?_⟩
    rw [hgroup]
    exact or_assoc.1 hrole
  · exact absurd h (by simp)

theorem Dev.takeCredit_some {p n ch : Nat} {h : Hdr} (hc : d.takeCredit p h n = some ch) : ch ∈ h.ordinary ∧ n ≤ d.freeCredit p h.cls ch :=
  ⟨List.mem_of_find?_eq_some hc, by simpa using List.find?_some hc⟩

/-! ### The choice -/

theorem Lookup.ofPort_none_iff {o : Option Nat} {credit : Nat → Option Nat} : Lookup.ofPort o credit = .held ↔ o = none := by
  cases o <;> simp [Lookup.ofPort]

theorem Lookup.ofPort_some {o : Option Nat} {credit : Nat → Option Nat} {p : Nat} {c : Option Nat} (h : Lookup.ofPort o credit = .to p c) :
    o = some p ∧ c = credit p := by
  cases o with
  | none => exact absurd h (by simp [Lookup.ofPort])
  | some q =>
    obtain ⟨rfl, rfl⟩ := Lookup.to.inj h
    exact ⟨rfl, rfl⟩

theorem Lookup.ofPort_ne_wait {o : Option Nat} {credit : Nat → Option Nat} : Lookup.ofPort o credit ≠ .wait := by
  cases o <;> simp [Lookup.ofPort]

variable {q : QFrame} {tie : Nat}

theorem Dev.lookup_local (h : d.takenLocally q.f.hdr = true) (hp : q.f.hdr.dstPort < 35) : d.lookup q tie = .to q.f.hdr.dstPort none :=
  (if_pos h).trans (if_pos hp)

/-- BUBBLE mode (R410, R411, R414). -/
theorem Dev.lookup_bubble (h : d.takenLocally q.f.hdr = false) (ht : d.towpath = false) :
    let h := q.f.hdr
    let cs := (d.candidates (d.bankFor h.epoch) h.dest h.cls).filter (fun c => decide (d.framePhase q.inp ≤ groupPhase (d.group c.1)))
    (d.lookup q tie = .held ↔ cs = []) ∧ d.lookup q tie ≠ .wait ∧
    (∀ p c, d.lookup q tie = .to p c → c = none ∧ ∃ e, (p, e) ∈ cs ∧
      (h.cls = 3 → ∀ x ∈ cs, p ≤ x.1) ∧ (h.cls ≠ 3 → ∀ x ∈ cs, d.score h.cls (p, e) ≤ d.score h.cls x)) := by
  intro hd cs
  have hlook : d.lookup q tie = .ofPort (d.winner hd.cls tie cs) (fun _ => none) :=
    (if_neg (by rw [h]; decide)).trans (if_neg (by rw [ht]; decide))
  rw [hlook]
  refine ⟨Lookup.ofPort_none_iff.trans Dev.winner_none, Lookup.ofPort_ne_wait, fun p c hp => ?_⟩
  obtain ⟨hwin, hc⟩ := Lookup.ofPort_some hp
  exact ⟨hc, Dev.winner_some hwin⟩

/-- A frame of the towpath (R416, R417). -/
theorem Dev.lookup_towpath (h : d.takenLocally q.f.hdr = false) (ht : d.towpath = true) (hch : 2 ≤ q.arrChan) :
    d.lookup q tie = .ofPort (d.towPort (d.bankFor q.f.hdr.epoch) q.f.hdr.dest q.f.hdr.cls) (fun _ => none) :=
  (if_neg (by rw [h]; decide)).trans ((if_pos ht).trans (if_pos hch))

/-- A frame of an ordinary channel in TOWPATH mode (R416). -/
theorem Dev.lookup_credit (h : d.takenLocally q.f.hdr = false) (ht : d.towpath = true) (hch : q.arrChan < 2) :
    let h := q.f.hdr
    let b := d.bankFor h.epoch
    let cs := (d.candidates b h.dest h.cls).filter (fun c => (d.takeCredit c.1 h q.slots).isSome)
    (∀ p ch, d.lookup q tie = .to p (some ch) → ch < 2 ∧ q.slots ≤ d.freeCredit p h.cls ch ∧ (∃ e, (p, e) ∈ cs) ∧
      (h.cls = 3 → ∀ x ∈ cs, p ≤ x.1)) ∧
    (∀ p, d.lookup q tie = .to p none → cs = [] ∧ d.towPort b h.dest h.cls = some p) ∧
    (d.lookup q tie = .wait → cs = [] ∧ d.towPort b h.dest h.cls = none ∧ d.candidates b h.dest h.cls ≠ []) ∧
    (d.lookup q tie = .held → d.towPort b h.dest h.cls = none ∧ d.candidates b h.dest h.cls = []) := by
  intro hd b cs
  have hlook : d.lookup q tie = match d.winner hd.cls tie cs with
      | some p => .to p (d.takeCredit p hd q.slots)
      | none => match d.towPort b hd.dest hd.cls with
        | some p => .to p none
        | none => if (d.candidates b hd.dest hd.cls).isEmpty then .held else .wait :=
    (if_neg (by rw [h]; decide)).trans ((if_pos ht).trans (if_neg (Nat.not_le.2 hch)))
  have hchan : ∀ ch ∈ hd.ordinary, ch < 2 := fun ch hm => by
    unfold Hdr.ordinary at hm
    split at hm
    · split at hm <;> simp at hm <;> omega
    · simp at hm
      omega
  rw [hlook]
  cases hwin : d.winner hd.cls tie cs with
  | some p =>
    obtain ⟨e, he, h3, -⟩ := Dev.winner_some hwin
    obtain ⟨ch, hch⟩ := Option.isSome_iff_exists.1 (List.mem_filter.1 he).2
    refine ⟨fun p' ch' hp => ?_, fun p' hp => ?_, fun hp => absurd hp (by simp), fun hp => absurd hp (by simp)⟩
    · obtain ⟨rfl, hcr⟩ := Lookup.to.inj hp
      obtain ⟨hord, hfree⟩ := Dev.takeCredit_some hcr
      exact ⟨hchan _ hord, hfree, ⟨e, he⟩, h3⟩
    · obtain ⟨rfl, hcr⟩ := Lookup.to.inj hp
      exact absurd (hch.symm.trans hcr) (by simp)
  | none =>
    have hnil : cs = [] := Dev.winner_none.1 hwin
    cases htow : d.towPort b hd.dest hd.cls with
    | some t =>
      refine ⟨fun p ch hp => absurd (Lookup.to.inj hp).2 (by simp), fun p hp => ?_, fun hp => absurd hp (by simp), fun hp => absurd hp (by simp)⟩
      obtain ⟨rfl, -⟩ := Lookup.to.inj hp
      exact ⟨hnil, rfl⟩
    | none =>
      dsimp only
      split
      · next hall =>
        exact ⟨fun p ch hp => absurd hp (by simp), fun p hp => absurd hp (by simp), fun hp => absurd hp (by simp),
          fun _ => ⟨rfl, List.isEmpty_iff.1 hall⟩⟩
      · next hall =>
        exact ⟨fun p ch hp => absurd hp (by simp), fun p hp => absurd hp (by simp), fun _ => ⟨hnil, rfl, fun h => hall (List.isEmpty_iff.2 h)⟩,
          fun hp => absurd hp (by simp)⟩

end

theorem routeChoice : Said.RouteChoice := by
  refine ⟨fun d b dest cls p e h => Dev.candidates_mem h, fun d q tie => ⟨Dev.lookup_local, Dev.lookup_bubble, fun h ht hch p c hp => ?_,
    Dev.lookup_credit⟩⟩
  rw [Dev.lookup_towpath h ht hch] at hp
  obtain ⟨htow, hc⟩ := Lookup.ofPort_some hp
  exact ⟨hc, Dev.towPort_some htow⟩

end Sys2Proof.Machine


/-!
SUPPORT. O48, the second part: the two banks, RTE_LOAD, ARM, DISARM, flips and retirements (R422–R425).
-/
namespace Sys2Proof.Machine

section
variable {d : Dev} {b : Bool}

/-! ### The entries of a bank -/

/-- The entries of a bank. -/
def Dev.bankEntries (d : Dev) (b : Bool) : Tbl Nat := if b then d.rte.bankB else d.rte.bankA

theorem Dev.routeEntry_key (d : Dev) (b : Bool) (k : Nat) : d.routeEntry b (k / 4) (k % 4) = nget (d.bankEntries b) k := by
  rw [Dev.routeEntry, Nat.div_add_mod]
  rfl

theorem Dev.bank_setRoute (d : Dev) (b c : Bool) (k v : Nat) : (d.setRoute b k v).bankEntries c = if c = b then nset (d.bankEntries b) k v else d.bankEntries c := by
  cases b <;> cases c <;> rfl

theorem Dev.setRoute_does (d : Dev) (b : Bool) (k v : Nat) : ∃ r, d.setRoute b k v = { d with rte := r } := by
  unfold Dev.setRoute
  split <;> exact ⟨_, rfl⟩

/-- One entry of RTE_LOAD. -/
def Dev.loadEntry (b : Bool) (d : Dev) (e : Nat × Nat) : Dev :=
  if e.1 < 512 then d.setRoute b e.1 (routeMerge (d.routeEntry b (e.1 / 4) (e.1 % 4)) e.2) else d

theorem Dev.loadEntry_does (b : Bool) (d : Dev) (e : Nat × Nat) : ∃ r, d.loadEntry b e = { d with rte := r } := by
  unfold Dev.loadEntry
  split
  · exact d.setRoute_does ..
  · exact ⟨_, rfl⟩

theorem Dev.loadEntry_get (b : Bool) (d : Dev) (e : Nat × Nat) (c : Bool) (k : Nat) : nget ((d.loadEntry b e).bankEntries c) k =
    if c = b ∧ k = e.1 ∧ e.1 < 512 then routeMerge (nget (d.bankEntries b) k) e.2 else nget (d.bankEntries c) k := by
  unfold Dev.loadEntry
  split
  · next hlt =>
    rw [Dev.bank_setRoute, Dev.routeEntry_key]
    by_cases hc : c = b
    · rw [if_pos hc, nget_nset]
      by_cases hk : k = e.1
      · rw [if_pos hk, if_pos ⟨hc, hk, hlt⟩, hk]
      · rw [if_neg hk, if_neg fun h => hk h.2.1, hc]
    · rw [if_neg hc, if_neg fun h => hc h.1]
  · next hge => rw [if_neg fun h => hge h.2.2]

/-- RTE_LOAD touches the entries of its bank alone. -/
theorem Dev.loadEntries_does (b : Bool) (es : List (Nat × Nat)) (d : Dev) : ∃ r, es.foldl (Dev.loadEntry b) d = { d with rte := r } := by
  induction es generalizing d with
  | nil => exact ⟨_, rfl⟩
  | cons e es ih =>
    obtain ⟨r, hr⟩ := d.loadEntry_does b e
    obtain ⟨q, hq⟩ := ih (d.loadEntry b e)
    exact ⟨q, hq.trans (by rw [hr])⟩

theorem Dev.loadEntries_other (b : Bool) (es : List (Nat × Nat)) (d : Dev) {c : Bool} {k : Nat} (h : c = b → k ∉ es.map (·.1)) :
    nget ((es.foldl (Dev.loadEntry b) d).bankEntries c) k = nget (d.bankEntries c) k := by
  induction es generalizing d with
  | nil => rfl
  | cons e es ih =>
    rw [List.foldl_cons, ih _ (fun hc hm => h hc (List.mem_cons_of_mem _ hm)), Dev.loadEntry_get,
      if_neg fun hk => h hk.1 (by rw [hk.2.1]; exact List.mem_cons_self ..)]

theorem Dev.loadEntries_same (b : Bool) (es : List (Nat × Nat)) (d : Dev) (hdup : (es.map (·.1)).Nodup) {e : Nat × Nat} (he : e ∈ es)
    (hlt : e.1 < 512) : nget ((es.foldl (Dev.loadEntry b) d).bankEntries b) e.1 = routeMerge (nget (d.bankEntries b) e.1) e.2 := by
  induction es generalizing d with
  | nil => exact absurd he (List.not_mem_nil)
  | cons x es ih =>
    rw [List.map_cons, List.nodup_cons] at hdup
    obtain rfl | hmem := List.mem_cons.1 he
    · rw [List.foldl_cons, Dev.loadEntries_other b es _ (fun _ => hdup.1), Dev.loadEntry_get, if_pos ⟨rfl, rfl, hlt⟩]
    · have hne : ¬(b = b ∧ e.1 = x.1 ∧ x.1 < 512) := fun h => hdup.1 (by rw [← h.2.1]; exact List.mem_map_of_mem hmem)
      rw [List.foldl_cons, ih _ hdup.2 hmem, Dev.loadEntry_get, if_neg hne]

section
variable {s : State} {src : Nat}

theorem rteLoad_said (hrun : s.dev.running = true) (hfm : s.dev.fmAllowed src = true) (es : List (Nat × Nat)) :
    (s.dev.bankState b = 0 → (es.map (·.1)).Nodup → ∃ t, exec (.rteLoad src b es) s = .next t ∧ t.store = s.store ∧ t.dev.regs = s.dev.regs ∧
      (s.dev.hasNode src = true → t.dev.out = s.dev.out ++ [.ctrl src (.result "RTE_LOAD" rDone)]) ∧
      (∀ e ∈ es, e.1 < 512 → t.dev.routeEntry b (e.1 / 4) (e.1 % 4) = routeMerge (s.dev.routeEntry b (e.1 / 4) (e.1 % 4)) e.2) ∧
      (∀ k, k ∉ es.map (·.1) → t.dev.routeEntry b (k / 4) (k % 4) = s.dev.routeEntry b (k / 4) (k % 4)) ∧
      (∀ dest cls, t.dev.routeEntry (!b) dest cls = s.dev.routeEntry (!b) dest cls)) ∧
    (s.dev.bankState b ≠ 0 → ∃ t, exec (.rteLoad src b es) s = .next t ∧ t.store = s.store ∧ t.dev.rte = s.dev.rte ∧
      t.dev.rdp F.BLK_ERR_CNT_ERRORS 0x61 = min (s.dev.rdp F.BLK_ERR_CNT_ERRORS 0x61 + 1) 0xFFFF) := by
  have hexec : exec (.rteLoad src b es) s = .next { s with dev := s.dev.rteLoad src b es } :=
    (onDev_running hrun _).trans (by rw [Dev.fromFm, if_pos hfm])
  refine ⟨fun h0 hdup => ?_, fun hne => ?_⟩
  · have hload : s.dev.rteLoad src b es = (es.foldl (Dev.loadEntry b) s.dev).ctrl src (.result "RTE_LOAD" rDone) := if_pos h0
    obtain ⟨r, hr⟩ := Dev.loadEntries_does b es s.dev
    have hother := fun c k => Dev.loadEntries_other b es s.dev (c := c) (k := k)
    have hsame := fun e he => Dev.loadEntries_same b es s.dev hdup (e := e) he
    rw [hload] at hexec
    generalize es.foldl (Dev.loadEntry b) s.dev = a at hexec hr hother hsame
    have hregs : a.regs = s.dev.regs := by rw [hr]
    have hout : a.out = s.dev.out := by rw [hr]
    have hnode : a.hasNode src = s.dev.hasNode src := by rw [hr]; rfl
    have hbank : ∀ c, (a.ctrl src (.result "RTE_LOAD" rDone)).bankEntries c = a.bankEntries c := fun c => by
      rw [Dev.bankEntries, Dev.bankEntries]
      simp only [Dev.ctrl_frame]
    have hkey : ∀ dest cls, (a.ctrl src (.result "RTE_LOAD" rDone)).routeEntry (!b) dest cls = s.dev.routeEntry (!b) dest cls := fun dest cls => by
      have h := hother (!b) (4 * dest + cls) (fun h => absurd h (by cases b <;> decide))
      rw [← hbank] at h
      exact h
    refine ⟨_, hexec, rfl, ?_, fun hn => ?_, fun e he hlt => ?_, fun k hk => ?_, hkey⟩
    · simp only [Dev.ctrl_frame, hregs]
    · dsimp only
      rw [Dev.ctrl_out (hnode.trans hn), hout]
    · rw [Dev.routeEntry_key, Dev.routeEntry_key, hbank, hsame e he hlt]
    · rw [Dev.routeEntry_key, Dev.routeEntry_key, hbank, hother b k fun _ => hk]
  · have hdrop : s.dev.rteLoad src b es = s.dev.dropWrite .fm 0x61 0 0 3 := if_neg hne
    rw [hdrop] at hexec
    refine ⟨_, hexec, rfl, ?_, Dev.errors_capture _ (by decide) ..⟩
    simp [Dev.dropWrite]

end

/-! ### What the switch leaves of the banks -/

theorem SwitchKeeps.and {R Q : Dev → Dev → Prop} (h : SwitchKeeps R) (k : SwitchKeeps Q) : SwitchKeeps (fun d e => R d e ∧ Q d e) where
  refl d := ⟨h.refl d, k.refl d⟩
  trans h1 h2 := ⟨h.trans h1.1 h2.1, k.trans h1.2 h2.2⟩
  swc d f := ⟨h.swc d f, k.swc d f⟩
  count d p i n := ⟨h.count d p i n, k.count d p i n⟩
  event d := ⟨h.event d, k.event d⟩
  seq d s v hs := ⟨h.seq d s v hs, k.seq d s v hs⟩
  owed d p f := ⟨h.owed d p f, k.owed d p f⟩

/-- Route words, flip times and entries stand, tide time stands, and a package at rest stays so. -/
def Dev.RouteKept (d e : Dev) : Prop := Dev.Beside anyWord (fun _ => ()) 0 d e ∧ e.rte = d.rte

theorem routeKept_switch : SwitchKeeps Dev.RouteKept :=
  (beside_switch (by decide) fun _ => rfl).and
    { refl := fun _ => rfl, trans := fun h k => k.trans h, swc := fun _ _ => rfl, count := fun d p i k => by simp only [Dev.count_frame],
      event := fun d => by simp only [Dev.event_frame], seq := fun _ _ _ _ => rfl, owed := fun _ _ _ => rfl }

theorem Dev.routeKept_releaseHeld (d : Dev) : d.RouteKept d.releaseHeld :=
  routeKept_switch.trans (routeKept_switch.trans (routeKept_switch.swc d _) (routeKept_switch.relookAll _ _)) (routeKept_switch.retryRecv _)

theorem Dev.releaseHeld_idle (hheld : d.swc.heldFrames = []) (hrecv : d.swc.recvSpace = []) : d.releaseHeld = d := by
  unfold Dev.releaseHeld Dev.relookAll Dev.retryRecv
  simp only [hheld, List.filter_nil, List.foldl_nil, List.nil_append, hrecv]
  obtain ⟨_, _, _, _, _, _, _, _, _, _, _, _, _, _, _, swc, _⟩ := d
  cases swc
  simp only at hheld hrecv
  subst hheld hrecv
  rfl

namespace Dev.RouteKept
variable {e f : Dev}

theorem word (h : d.RouteKept e) {a : Nat} (ha : a / 0x1000 = 0x61) (ha' : 0x40 ≤ a % 0x1000) : e.word a = d.word a :=
  h.1.word a ⟨ha', .inl ha⟩ trivial

theorem rd (h : d.RouteKept e) {g : Fld} (hg : g.page = 0x61) (hat : 0x40 ≤ g.at 0 ∧ g.at 0 < 0x1000) : e.rd g = d.rd g := by
  refine congrArg (bits · g.lo g.w) (h.word ?_ ?_)
  · rw [Fld.addr, hg]
    omega
  · rw [Fld.addr, hg]
    omega

theorem bankState (h : d.RouteKept e) (c : Bool) : e.bankState c = d.bankState c := by
  unfold Dev.bankState
  rw [h.rd (g := F.RTE_BANK_STATE_A) rfl (by decide), h.rd (g := F.RTE_BANK_STATE_B) rfl (by decide)]

theorem activeBank (h : d.RouteKept e) : e.activeBank = d.activeBank := by
  unfold Dev.activeBank
  rw [h.rd (g := F.RTE_BANK_ACTIVE) rfl (by decide)]

theorem flipDue (h : d.RouteKept e) (c : Bool) : e.flipDue c = d.flipDue c := by
  unfold Dev.flipDue
  rw [h.bankState, h.2, h.1.tide]

end Dev.RouteKept

/-! ### The states of the banks -/

theorem Dev.bankState_set (d : Dev) (b c : Bool) {v : Nat} (hv : v < 4) : (d.setBankState b v).bankState c = if c = b then v else d.bankState c := by
  have hmod : v % 2 ^ 2 = v := Nat.mod_eq_of_lt hv
  cases b <;> cases c
  · exact (Dev.rd_wr_same _ F.RTE_BANK_STATE_A v (by decide)).trans hmod
  · exact Dev.rd_wr_ne _ F.RTE_BANK_STATE_A F.RTE_BANK_STATE_B v (by decide)
  · exact Dev.rd_wr_ne _ F.RTE_BANK_STATE_B F.RTE_BANK_STATE_A v (by decide)
  · exact (Dev.rd_wr_same _ F.RTE_BANK_STATE_B v (by decide)).trans hmod

end

end Sys2Proof.Machine


/-!
SUPPORT. O48, the second part: ARM, DISARM, flips and retirements of a bank (R422–R425).
-/
namespace Sys2Proof.Machine

section
variable {d : Dev} {b : Bool} {t : Nat}

/-! ### A bank becomes ACTIVE -/

/-- What a flip leaves: the entries and flip times of both banks, tide time, the frames of the switch, and what the package is at work on. -/
def Dev.unflipped (d : Dev) := ((d.rte.bankA, d.rte.bankB, d.rte.flipA, d.rte.flipB), d.tim, d.swc, d.glb, d.rest)

/-- The other bank, where it was ACTIVE, drains from `t`. -/
def Dev.drainFrom (b : Bool) (t : Nat) (d : Dev) : Dev :=
  if d.bankState (!b) = 2 then
    let d := d.setBankState (!b) 3
    if b then { d with rte := { d.rte with drainA := t } } else { d with rte := { d.rte with drainB := t } }
  else d

/-- The bank is ACTIVE from now on. -/
def Dev.activate (b : Bool) (d : Dev) : Dev :=
  let d := (d.setBankState b 2).wr F.RTE_BANK_ACTIVE (b2n b)
  if b then { d with rte := { d.rte with sinceB := d.tim.tide } } else { d with rte := { d.rte with sinceA := d.tim.tide } }

theorem Dev.flipBank_eq (b : Bool) (t : Nat) (d : Dev) : d.flipBank b t = ((d.drainFrom b t).activate b).event 0x61 0 := rfl

/-- The time from which a bank drains. -/
def Dev.drainAt (d : Dev) (b : Bool) : Nat := if b then d.rte.drainB else d.rte.drainA

theorem Dev.bankState_regs {e : Dev} (h : e.regs = d.regs) (c : Bool) : e.bankState c = d.bankState c := by
  rw [Dev.bankState, Dev.bankState, Dev.rd_congr h, Dev.rd_congr h]

theorem Dev.drainFrom_does (b : Bool) (t : Nat) (d : Dev) : (d.drainFrom b t).unflipped = d.unflipped ∧
    (d.drainFrom b t).bankState b = d.bankState b ∧
    (d.drainFrom b t).bankState (!b) = (if d.bankState (!b) = 2 then 3 else d.bankState (!b)) ∧
    (d.bankState (!b) = 2 → (d.drainFrom b t).drainAt (!b) = t) := by
  have hset := fun c => d.bankState_set (!b) c (v := 3) (by decide)
  have hkeep : (d.setBankState (!b) 3).unflipped = d.unflipped := by cases b <;> rfl
  unfold Dev.drainFrom
  dsimp only
  generalize d.setBankState (!b) 3 = a at hset hkeep
  split
  · have hregs : ∀ c, (if b = true then { a with rte := { a.rte with drainA := t } } else { a with rte := { a.rte with drainB := t } }).bankState c =
        a.bankState c := fun c => Dev.bankState_regs (by split <;> rfl) c
    refine ⟨?_, ?_, ?_, fun _ => by cases b <;> rfl⟩
    · rw [← hkeep]
      cases b <;> rfl
    · rw [hregs, hset, if_neg (by cases b <;> decide)]
    · rw [hregs, hset, if_pos rfl]
  · next h => exact ⟨rfl, rfl, rfl, fun h' => absurd h' h⟩

theorem Dev.activate_does (b : Bool) (d : Dev) : (d.activate b).unflipped = d.unflipped ∧ (d.activate b).bankState b = 2 ∧
    (d.activate b).activeBank = b ∧ (d.activate b).bankState (!b) = d.bankState (!b) ∧ ∀ c, (d.activate b).drainAt c = d.drainAt c := by
  have hset := fun c => d.bankState_set b c (v := 2) (by decide)
  have hkeep : ((d.setBankState b 2).wr F.RTE_BANK_ACTIVE (b2n b)).unflipped = d.unflipped ∧
      ∀ c, ((d.setBankState b 2).wr F.RTE_BANK_ACTIVE (b2n b)).drainAt c = d.drainAt c := by cases b <;> exact ⟨rfl, fun _ => rfl⟩
  have hact : ((d.setBankState b 2).wr F.RTE_BANK_ACTIVE (b2n b)).activeBank = b := by
    rw [Dev.activeBank, Dev.rd_wr_same _ _ _ (by decide)]
    cases b <;> rfl
  have hstate : ∀ c, ((d.setBankState b 2).wr F.RTE_BANK_ACTIVE (b2n b)).bankState c = (d.setBankState b 2).bankState c := fun c => by
    rw [Dev.bankState, Dev.bankState, Dev.rd_wr_ne _ _ _ _ (by decide), Dev.rd_wr_ne _ _ _ _ (by decide)]
  unfold Dev.activate
  dsimp only
  generalize (d.setBankState b 2).wr F.RTE_BANK_ACTIVE (b2n b) = a at hkeep hact hstate
  have hregs : (if b = true then { a with rte := { a.rte with sinceB := a.tim.tide } } else { a with rte := { a.rte with sinceA := a.tim.tide } }).regs =
      a.regs := by split <;> rfl
  refine ⟨?_, ?_, ?_, ?_, fun c => ?_⟩
  · rw [← hkeep.1]
    cases b <;> rfl
  · rw [Dev.bankState_regs hregs, hstate, hset, if_pos rfl]
  · exact (congrArg (· == 1) (Dev.rd_congr hregs F.RTE_BANK_ACTIVE)).trans hact
  · rw [Dev.bankState_regs hregs, hstate, hset, if_neg (by cases b <;> decide)]
  · rw [← hkeep.2]
    cases b <;> rfl

theorem Dev.flipBank_does (b : Bool) (t : Nat) (d : Dev) : (d.flipBank b t).unflipped = d.unflipped ∧ (d.flipBank b t).bankState b = 2 ∧
    (d.flipBank b t).activeBank = b ∧
    (d.flipBank b t).bankState (!b) = (if d.bankState (!b) = 2 then 3 else d.bankState (!b)) ∧
    (d.bankState (!b) = 2 → (d.flipBank b t).drainAt (!b) = t) := by
  obtain ⟨hkeep, -, hother, hdrain⟩ := d.drainFrom_does b t
  rw [Dev.flipBank_eq]
  generalize d.drainFrom b t = a at hkeep hother hdrain
  obtain ⟨hakeep, hstate, hact, haother, hadrain⟩ := a.activate_does b
  generalize a.activate b = e at hakeep hstate hact haother hadrain
  have hev : (e.event 0x61 0).unflipped = e.unflipped ∧ ∀ c, (e.event 0x61 0).drainAt c = e.drainAt c := by
    simp only [Dev.unflipped, Dev.drainAt, Dev.event_frame, Dev.rest_event, implies_true, and_self]
  have hrd : ∀ f : Fld, f.addr f.page 0 ≠ 0x61 * 0x1000 + 0x14 → (e.event 0x61 0).rd f = e.rd f := fun f hf => by
    rw [Dev.rd, Dev.rd, Dev.rdpi, Dev.rdpi, Dev.word_event, if_neg hf]
  have hbank : ∀ c, (e.event 0x61 0).bankState c = e.bankState c := fun c => by
    rw [Dev.bankState, Dev.bankState, hrd _ (by decide), hrd _ (by decide)]
  refine ⟨hev.1.trans (hakeep.trans hkeep), (hbank _).trans hstate, ?_, (hbank _).trans (haother.trans hother),
    fun h => (hev.2 _).trans ((hadrain _).trans (hdrain h))⟩
  rw [Dev.activeBank, hrd _ (by decide)]
  exact hact

/-! ### ARM -/

/-- The time at which a bank flips. -/
def Dev.flipAt (d : Dev) (b : Bool) : Nat := if b then d.rte.flipB else d.rte.flipA

/-- A bank armed for `t`. -/
def Dev.armAt (b : Bool) (t : Nat) (d : Dev) : Dev :=
  let d := d.setBankState b 1
  if b then { d with rte := { d.rte with flipB := t } } else { d with rte := { d.rte with flipA := t } }

theorem Dev.armAt_does (b : Bool) (t : Nat) (d : Dev) : (d.armAt b t).bankState b = 1 ∧ (d.armAt b t).bankState (!b) = d.bankState (!b) ∧
    (d.armAt b t).flipAt b = t ∧ (d.armAt b t).tim = d.tim ∧ (d.armAt b t).glb = d.glb ∧ (d.armAt b t).rest = d.rest := by
  have hset := fun c => d.bankState_set b c (v := 1) (by decide)
  have hregs : (d.armAt b t).regs = (d.setBankState b 1).regs := by cases b <;> rfl
  refine ⟨?_, ?_, ?_⟩
  · rw [Dev.bankState_regs hregs, hset, if_pos rfl]
  · rw [Dev.bankState_regs hregs, hset, if_neg (by cases b <;> decide)]
  · cases b <;> exact ⟨rfl, rfl, rfl, rfl⟩

/-- A bank armed too late flips at once (R423). -/
def Dev.armLate (b : Bool) (t : Nat) (d : Dev) : Dev := (((d.armAt b t).count 0x61 2 1).event 0x61 1).flipBank b t |>.releaseHeld

theorem Dev.armLate_does (b : Bool) (t : Nat) (d : Dev) : (d.armLate b t).bankState b = 2 ∧ (d.armLate b t).activeBank = b ∧
    (d.bankState (!b) = 2 → (d.armLate b t).bankState (!b) = 3) ∧ (d.armLate b t).flipAt b = t ∧ (d.armLate b t).glb = d.glb ∧
    (quiet d → quiet (d.armLate b t)) := by
  obtain ⟨-, hother, hflip, -, hglb, hrest⟩ := d.armAt_does b t
  unfold Dev.armLate
  generalize d.armAt b t = a at hother hflip hglb hrest
  obtain ⟨e, he⟩ : ∃ e, e = (a.count 0x61 2 1).event 0x61 1 := ⟨_, rfl⟩
  have hkeep : e.rte = a.rte ∧ e.glb = a.glb ∧ e.rest = a.rest := by
    rw [he]
    simp only [Dev.event_frame, Dev.count_frame, Dev.rest_event, Dev.rest_count, and_self]
  have hcount : ∀ n, (a.count 0x61 2 1).word n = a.word n := Dev.word_congr (by simp only [Dev.count_frame])
  have hrd : ∀ f : Fld, f.addr f.page 0 ≠ 0x61 * 0x1000 + 0x14 → e.rd f = a.rd f := fun f hf => by
    rw [he, Dev.rd, Dev.rd, Dev.rdpi, Dev.rdpi, Dev.word_event, if_neg hf, hcount]
  have hbank : ∀ c, e.bankState c = a.bankState c := fun c => by
    rw [Dev.bankState, Dev.bankState, hrd _ (by decide), hrd _ (by decide)]
  obtain ⟨hrte, heglb, herest⟩ := hkeep
  rw [← he]
  obtain ⟨hunf, hst, hact, hfother, -⟩ := e.flipBank_does b t
  generalize e.flipBank b t = f at hunf hst hact hfother
  simp only [Dev.unflipped, Prod.mk.injEq] at hunf
  obtain ⟨⟨-, -, hflipA, hflipB⟩, -, -, hfglb, hfrest⟩ := hunf
  have hrel := f.routeKept_releaseHeld
  refine ⟨(hrel.bankState b).trans hst, hrel.activeBank.trans hact, fun h2 => ?_, ?_, ?_, fun hq => ?_⟩
  · rw [hrel.bankState, hfother, hbank, hother, if_pos h2]
  · rw [Dev.flipAt, hrel.2, hflipA, hflipB, hrte]
    exact hflip
  · exact hrel.1.glb.trans (hfglb.trans (heglb.trans hglb))
  · exact hrel.1.rests (quiet_rest (hfrest.trans (herest.trans hrest)) hq)

/-- RTE_FLIP_TIME takes T. -/
def Dev.keepTime (t : Nat) (d : Dev) : Dev := (d.wr F.RTE_FLIP_TIME_LO_T_LO (t % 2 ^ 32)).wr F.RTE_FLIP_TIME_HI_T_HI (t / 2 ^ 32)

theorem Dev.keepTime_does (ht : t < 2 ^ 64) (d : Dev) : (d.keepTime t).rd F.RTE_FLIP_TIME_LO_T_LO = t % 2 ^ 32 ∧
    (d.keepTime t).rd F.RTE_FLIP_TIME_HI_T_HI = t / 2 ^ 32 ∧ (∀ c, (d.keepTime t).bankState c = d.bankState c) ∧
    (d.keepTime t).activeBank = d.activeBank := by
  have hother : ∀ f : Fld, f.addr f.page 0 ≠ 0x61108 → f.addr f.page 0 ≠ 0x6110C → (d.keepTime t).rd f = d.rd f := fun f h1 h2 =>
    (Dev.rd_wr_ne _ _ _ _ (.inl h2)).trans (Dev.rd_wr_ne _ _ _ _ (.inl h1))
  refine ⟨?_, ?_, fun c => ?_, ?_⟩
  · exact (Dev.rd_wr_ne _ _ _ _ (.inl (by decide))).trans ((Dev.rd_wr_same _ _ _ (by decide)).trans (Nat.mod_mod _ _))
  · exact (Dev.rd_wr_same _ _ _ (by decide)).trans (Nat.mod_eq_of_lt (Nat.div_lt_of_lt_mul ht))
  · rw [Dev.bankState, Dev.bankState, hother _ (by decide) (by decide), hother _ (by decide) (by decide)]
  · rw [Dev.activeBank, Dev.activeBank, hother _ (by decide) (by decide)]

section
variable {s : State} {src : Nat}

theorem arm_exec (hrun : s.dev.running = true) (hdom : s.dev.domOn 11 = true) (hfm : s.dev.fmAllowed src = true) (ht : t < 2 ^ 64)
    (hq : quiet (s.dev.armMsg src b t)) : exec (.arm (.msg src (b, t))) s = .next { s with dev := s.dev.armMsg src b t } := by
  refine onPkg_leaves (x := (s.store, s.dev.armMsg src b t)) hrun hdom ?_
  rw [Pkg.dev, Dev.fromFm, if_pos hfm]
  dsimp only
  rw [Nat.mod_eq_of_lt ht]
  exact settle_quiet hq

theorem arm_said (hrun : s.dev.running = true) (hdom : s.dev.domOn 11 = true) (hq : quiet s.dev) (hfm : s.dev.fmAllowed src = true) (ht : t < 2 ^ 64)
    (hst : s.dev.bankState b = 0 ∨ (s.dev.bankState b = 1 ∧ s.dev.flipAt b ≠ t)) :
    ∃ u, exec (.arm (.msg src (b, t))) s = .next u ∧ u.store = s.store ∧
      (s.dev.hasNode src = true → u.dev.out.getLast? = some (.ctrl src (.result "ARM" rDone))) ∧
      u.dev.rd F.RTE_FLIP_TIME_LO_T_LO = t % 2 ^ 32 ∧ u.dev.rd F.RTE_FLIP_TIME_HI_T_HI = t / 2 ^ 32 ∧ u.dev.flipAt b = t ∧
      (s.dev.tim.tide ≤ t * 256 → u.dev.bankState b = 1 ∧ u.dev.bankState (!b) = s.dev.bankState (!b)) ∧
      (t * 256 < s.dev.tim.tide → u.dev.bankState b = 2 ∧ u.dev.activeBank = b ∧ (s.dev.bankState (!b) = 2 → u.dev.bankState (!b) = 3)) := by
  obtain ⟨harmed, hother, hflip, htim, hglb, hrest⟩ := s.dev.armAt_does b t
  obtain ⟨hlst, hlact, hlother, hlflip, hlglb, hlq⟩ := s.dev.armLate_does b t
  obtain ⟨e, he⟩ : ∃ e, e = if t * 256 < (s.dev.armAt b t).tim.tide then s.dev.armLate b t else s.dev.armAt b t := ⟨_, rfl⟩
  have harm : s.dev.arm b t .fm 0 = (rDone, e) := by
    unfold Dev.arm
    rw [if_neg (by omega), if_neg (by rintro ⟨h1, h2⟩; exact hst.elim (by omega) fun h => h.2 h2), he]
    exact (apply_ite (Prod.mk rDone) ..).symm
  have hmsg : s.dev.armMsg src b t = (e.keepTime t).ctrl src (.result "ARM" rDone) := by
    unfold Dev.armMsg
    rw [harm]
    exact congrArg (fun x : Dev => x.ctrl src (.result "ARM" rDone)) (if_pos rfl)
  have hefacts : e.flipAt b = t ∧ e.glb = s.dev.glb ∧ (quiet s.dev → quiet e) ∧
      (s.dev.tim.tide ≤ t * 256 → e.bankState b = 1 ∧ e.bankState (!b) = s.dev.bankState (!b)) ∧
      (t * 256 < s.dev.tim.tide → e.bankState b = 2 ∧ e.activeBank = b ∧ (s.dev.bankState (!b) = 2 → e.bankState (!b) = 3)) := by
    rw [he, htim]
    split
    · next hlate => exact ⟨hlflip, hlglb, hlq, fun h => absurd hlate (Nat.not_lt.2 h), fun _ => ⟨hlst, hlact, hlother⟩⟩
    · next hin => exact ⟨hflip, hglb, quiet_rest hrest, fun _ => ⟨harmed, hother⟩, fun h => absurd h hin⟩
  obtain ⟨heflip, heglb, heq, hein, helate⟩ := hefacts
  obtain ⟨hlo, hhi, hkst, hkact⟩ := Dev.keepTime_does ht e
  have hkq : quiet (e.keepTime t) := quiet_wr _ _ (quiet_wr _ _ (heq hq))
  have hkglb : (e.keepTime t).glb = s.dev.glb := heglb
  have hkflip : (e.keepTime t).flipAt b = t := heflip
  generalize e.keepTime t = k at hmsg hlo hhi hkst hkact hkq hkglb hkflip
  have hexec := arm_exec hrun hdom hfm ht (b := b) (by rw [hmsg]; exact quiet_ctrl hkq)
  rw [hmsg] at hexec
  have hregs : (k.ctrl src (.result "ARM" rDone)).regs = k.regs := by simp only [Dev.ctrl_frame]
  have hst' : ∀ c, (k.ctrl src (.result "ARM" rDone)).bankState c = e.bankState c := fun c => (Dev.bankState_regs hregs c).trans (hkst c)
  refine ⟨_, hexec, rfl, fun hn => ?_, (Dev.rd_congr hregs _).trans hlo, (Dev.rd_congr hregs _).trans hhi, ?_, fun h => ?_, fun h => ?_⟩
  · rw [Dev.ctrl_out ((Dev.hasNode_congr hkglb src).trans hn), List.getLast?_concat]
  · dsimp only
    rw [Dev.flipAt]
    simp only [Dev.ctrl_frame]
    exact hkflip
  · rw [hst', hst']
    exact hein h
  · obtain ⟨h1, h2, h3⟩ := helate h
    rw [hst', hst']
    refine ⟨h1, ?_, h3⟩
    rw [Dev.activeBank, Dev.rd_congr hregs]
    exact hkact.trans h2

theorem arm_noChange (hrun : s.dev.running = true) (hdom : s.dev.domOn 11 = true) (hq : quiet s.dev) (hfm : s.dev.fmAllowed src = true) (ht : t < 2 ^ 64)
    (hst : s.dev.bankState b = 1) (hat : s.dev.flipAt b = t) :
    exec (.arm (.msg src (b, t))) s = .next { s with dev := s.dev.ctrl src (.result "ARM" rNoChange) } := by
  have harm : s.dev.arm b t .fm 0 = (rNoChange, s.dev) := (if_neg (by omega)).trans (if_pos ⟨hst, hat⟩)
  have hmsg : s.dev.armMsg src b t = s.dev.ctrl src (.result "ARM" rNoChange) := by
    unfold Dev.armMsg
    rw [harm]
    exact congrArg (fun x : Dev => x.ctrl src (.result "ARM" rNoChange)) (if_neg (show ¬rNoChange = rDone by decide))
  rw [arm_exec hrun hdom hfm ht (by rw [hmsg]; exact quiet_ctrl hq), hmsg]

theorem arm_badState (hrun : s.dev.running = true) (hdom : s.dev.domOn 11 = true) (hq : quiet s.dev) (hfm : s.dev.fmAllowed src = true) (ht : t < 2 ^ 64)
    (hst : 2 ≤ s.dev.bankState b) : ∃ u, exec (.arm (.msg src (b, t))) s = .next u ∧ u.store = s.store ∧ u.dev.rte = s.dev.rte ∧
      u.dev.bankState b = s.dev.bankState b ∧ (s.dev.hasNode src = true → u.dev.out.getLast? = some (.ctrl src (.result "ARM" rBadState))) := by
  have harm : s.dev.arm b t .fm 0 = (rBadState, s.dev.dropWrite .fm 0x61 0x110 0 3) := if_pos hst
  have hmsg : s.dev.armMsg src b t = (s.dev.dropWrite .fm 0x61 0x110 0 3).ctrl src (.result "ARM" rBadState) := by
    unfold Dev.armMsg
    rw [harm]
    exact congrArg (fun x : Dev => x.ctrl src (.result "ARM" rBadState)) (if_neg (show ¬rBadState = rDone by decide))
  have hrte : (s.dev.dropWrite .fm 0x61 0x110 0 3).rte = s.dev.rte := by simp [Dev.dropWrite]
  have hglb : (s.dev.dropWrite .fm 0x61 0x110 0 3).glb = s.dev.glb := by simp [Dev.dropWrite]
  have hbank : (s.dev.dropWrite .fm 0x61 0x110 0 3).bankState b = s.dev.bankState b := by
    rw [Dev.bankState, Dev.bankState, Dev.rd_dropWrite _ _ _ _ _ _ _ (by decide), Dev.rd_dropWrite _ _ _ _ _ _ _ (by decide)]
  have hexec := arm_exec hrun hdom hfm ht (b := b) (by rw [hmsg]; exact quiet_ctrl (quiet_dropWrite hq ..))
  rw [hmsg] at hexec
  generalize s.dev.dropWrite .fm 0x61 0x110 0 3 = k at hexec hrte hglb hbank
  refine ⟨_, hexec, rfl, ?_, ?_, fun hn => ?_⟩
  · dsimp only
    rw [← hrte]
    simp only [Dev.ctrl_frame]
  · exact (Dev.bankState_regs (by simp only [Dev.ctrl_frame]) b).trans hbank
  · rw [Dev.ctrl_out ((Dev.hasNode_congr hglb src).trans hn), List.getLast?_concat]

/-! ### DISARM -/

theorem disarm_said (hrun : s.dev.running = true) (hdom : s.dev.domOn 11 = true) (hq : quiet s.dev) (hfm : s.dev.fmAllowed src = true) :
    (s.dev.bankState b = 1 → exec (.disarm (.msg src b)) s = .next { s with dev := (s.dev.setBankState b 0).ctrl src (.result "DISARM" rDone) }) ∧
    (s.dev.bankState b = 0 → exec (.disarm (.msg src b)) s = .next { s with dev := s.dev.ctrl src (.result "DISARM" rNoChange) }) ∧
    (2 ≤ s.dev.bankState b → exec (.disarm (.msg src b)) s = .next { s with dev := s.dev.ctrl src (.result "DISARM" rBadState) }) := by
  have hmsg : ∀ {r : Nat} {e : Dev}, s.dev.disarm b = (r, e) → quiet e →
      exec (.disarm (.msg src b)) s = .next { s with dev := e.ctrl src (.result "DISARM" r) } := fun {r e} h he => by
    refine onPkg_leaves (x := (s.store, e.ctrl src (.result "DISARM" r))) hrun hdom ?_
    rw [Pkg.dev, Dev.fromFm, if_pos hfm, Dev.disarmMsg, h]
    exact settle_quiet (quiet_ctrl he)
  have hset : quiet (s.dev.setBankState b 0) := by cases b <;> exact quiet_wr _ _ hq
  refine ⟨fun h => hmsg (by rw [Dev.disarm, h]; rfl) hset, fun h => hmsg (by rw [Dev.disarm, h]; rfl) hq, fun h => hmsg ?_ hq⟩
  unfold Dev.disarm
  split
  · omega
  · omega
  · rfl

/-! ### Flips and retirements that are due -/

/-- The flip of one bank, where it is due. -/
def Dev.flipOne (b : Bool) (d : Dev) : Dev := if d.flipDue b then (d.flipBank b (d.flipAt b)).releaseHeld else d

/-- The retirement of one bank, where it is due. -/
def Dev.retireOne (b : Bool) (d : Dev) : Dev := if d.retireDue b then (d.setBankState b 0).releaseHeld else d

theorem Dev.bankFlip_eq (d : Dev) : d.bankFlip = (d.flipOne false).flipOne true := rfl

theorem Dev.bankRetire_eq (d : Dev) : d.bankRetire = (d.retireOne false).retireOne true := rfl

theorem Dev.flipOne_not {c : Bool} (h : d.flipDue c = false) : d.flipOne c = d := if_neg (by rw [h]; exact Bool.false_ne_true)

theorem Dev.retireOne_not {c : Bool} (h : d.retireDue c = false) : d.retireOne c = d := if_neg (by rw [h]; exact Bool.false_ne_true)

/-- The bank whose flip is due flips, and that of the other is not due then. -/
theorem Dev.bankFlip_one (hone : d.flipDue b = true) (hother : d.flipDue (!b) = false) (hheld : d.swc.heldFrames = []) (hrecv : d.swc.recvSpace = []) :
    d.bankFlip = d.flipBank b (d.flipAt b) := by
  obtain ⟨hunf, -, -, hst, -⟩ := d.flipBank_does b (d.flipAt b)
  simp only [Dev.unflipped, Prod.mk.injEq] at hunf
  obtain ⟨⟨-, -, hflipA, hflipB⟩, htim, hswc, -⟩ := hunf
  have hflip : d.flipOne b = d.flipBank b (d.flipAt b) := (if_pos hone).trans (Dev.releaseHeld_idle (by rw [hswc, hheld]) (by rw [hswc, hrecv]))
  have hnot : (d.flipBank b (d.flipAt b)).flipDue (!b) = false := by
    rw [Dev.flipDue] at hother ⊢
    rw [hst, hflipA, hflipB, htim]
    split
    · rfl
    · exact hother
  cases b with
  | true => rw [Dev.bankFlip_eq, Dev.flipOne_not (c := false) hother, hflip]
  | false => rw [Dev.bankFlip_eq, hflip, Dev.flipOne_not (c := true) hnot]

/-- The bank whose interval is over retires, and that of the other is not over then. -/
theorem Dev.bankRetire_one (hone : d.retireDue b = true) (hother : d.retireDue (!b) = false) (hheld : d.swc.heldFrames = [])
    (hrecv : d.swc.recvSpace = []) : d.bankRetire = d.setBankState b 0 := by
  have hswc : (d.setBankState b 0).swc = d.swc := by cases b <;> rfl
  have hret : d.retireOne b = d.setBankState b 0 := (if_pos hone).trans (Dev.releaseHeld_idle (by rw [hswc, hheld]) (by rw [hswc, hrecv]))
  have hnot : (d.setBankState b 0).retireDue (!b) = false := by
    have hset := d.bankState_set b (!b) (v := 0) (by decide)
    have hus : (d.setBankState b 0).rd F.RTE_CFG_DRAIN_US = d.rd F.RTE_CFG_DRAIN_US := by cases b <;> exact Dev.rd_wr_ne _ _ _ _ (by decide)
    have hrte : (d.setBankState b 0).rte = d.rte := by cases b <;> rfl
    have htim : (d.setBankState b 0).tim = d.tim := by cases b <;> rfl
    rw [Dev.retireDue] at hother ⊢
    rw [hset, if_neg (by cases b <;> decide), hus, hrte, htim, hother]
  cases b with
  | true => rw [Dev.bankRetire_eq, Dev.retireOne_not (c := false) hother, hret]
  | false => rw [Dev.bankRetire_eq, hret, Dev.retireOne_not (c := true) hnot]

theorem bankFlip_said (hrun : s.dev.running = true) (hheld : s.dev.swc.heldFrames = []) (hrecv : s.dev.swc.recvSpace = []) :
    (s.dev.flipDue b = true → s.dev.flipDue (!b) = false → ∃ u, exec .bankFlip s = .next u ∧ u.store = s.store ∧ u.dev.bankState b = 2 ∧
      u.dev.activeBank = b ∧ u.dev.bankState (!b) = (if s.dev.bankState (!b) = 2 then 3 else s.dev.bankState (!b)) ∧
      (s.dev.bankState (!b) = 2 → u.dev.drainAt (!b) = s.dev.flipAt b) ∧
      u.dev.rte.bankA = s.dev.rte.bankA ∧ u.dev.rte.bankB = s.dev.rte.bankB) ∧
    (s.dev.flipDue b = false → s.dev.flipDue (!b) = false → exec .bankFlip s = .next s) ∧
    (s.dev.retireDue b = true → s.dev.retireDue (!b) = false → exec .bankRetire s = .next { s with dev := s.dev.setBankState b 0 }) ∧
    (s.dev.retireDue b = false → s.dev.retireDue (!b) = false → exec .bankRetire s = .next s) := by
  have hboth : ∀ {f : Bool → Bool}, f b = false → f (!b) = false → f true = false ∧ f false = false := fun h h' => by
    cases b
    · exact ⟨h', h⟩
    · exact ⟨h, h'⟩
  refine ⟨fun hone hother => ?_, fun h h' => ?_, fun hone hother => ?_, fun h h' => ?_⟩
  · obtain ⟨hunf, hst, hact, hother', hdrain⟩ := s.dev.flipBank_does b (s.dev.flipAt b)
    simp only [Dev.unflipped, Prod.mk.injEq] at hunf
    have hexec := onDev_running hrun Dev.bankFlip
    rw [Dev.bankFlip_one hone hother hheld hrecv] at hexec
    exact ⟨_, hexec, rfl, hst, hact, hother', hdrain, hunf.1.1, hunf.1.2.1⟩
  · obtain ⟨h1, h2⟩ := hboth (f := s.dev.flipDue) h h'
    exact (onDev_running hrun _).trans (by rw [Dev.bankFlip_eq, Dev.flipOne_not h2, Dev.flipOne_not h1])
  · exact (onDev_running hrun _).trans (by rw [Dev.bankRetire_one hone hother hheld hrecv])
  · obtain ⟨h1, h2⟩ := hboth (f := s.dev.retireDue) h h'
    exact (onDev_running hrun _).trans (by rw [Dev.bankRetire_eq, Dev.retireOne_not h2, Dev.retireOne_not h1])

end

end

end Sys2Proof.Machine


/-!
SUPPORT. O48, the second part: writes of route entries, port roles and RTE_CFG (R405, R407, R422, R429).
-/
namespace Sys2Proof.Machine

section
variable {s : State} {m : Master} {p off : Nat}

/-! ### Half an entry -/

/-- A write of half a route entry (R407, R429). -/
theorem routeEntry_written {v : W32} {b hi : Bool} {key : Nat} (hopen : pageOpen s.dev m p) (ho : off < 0x1000) (h4 : off % 4 = 0)
    (hat : routeAt p off = some (b, key, hi)) : exec (.routeEntryWrite m p off v) s =
      .next (withPkg s (Pkg.routeWrite m p off v.toNat ((tlp m s.dev).mayWrite m p off) (b, key, hi) (s.store, tlp m s.dev)).2) := by
  obtain ⟨-, hreach, hkind, hon⟩ := hopen
  have hp : 0x61 ≤ p ∧ p < 0x65 ∧ 0x800 ≤ off := by
    by_contra h
    rw [routeAt, if_neg h] at hat
    exact absurd hat (by simp)
  refine (regOut_four m p off v.toNat s ho h4 (by omega) hreach).trans ?_
  have hkind' : (pageKind p).isNone = false := by simpa using hkind
  have hon' : (tlp m s.dev).pageOn p = true := (tlp_pageOn ..).trans hon
  unfold Pkg.write4
  simp only [page_div p off ho, page_mod p off ho, Nat.mod_eq_of_lt v.isLt]
  rw [hkind', if_neg Bool.false_ne_true, if_neg (by rw [hon']; simp), if_neg (by omega), if_neg (by omega), if_neg (by omega), hat]

theorem routeEntry_said {v : W32} {b hi : Bool} {key : Nat} (hopen : pageOpen s.dev m p) (hown : s.dev.owns m p = true) (ho : off < 0x1000)
    (h4 : off % 4 = 0) (hat : routeAt p off = some (b, key, hi)) :
    let old := nget (s.dev.bankEntries b) key
    let new := if hi then old % 2 ^ 32 + v.toNat * 2 ^ 32 else old / 2 ^ 32 * 2 ^ 32 + v.toNat
    (s.dev.bankState b = 0 → ¬(hi = true ∧ 24 ≤ bits new 48 5) →
      exec (.routeEntryWrite m p off v) s = .next { s with dev := (tlp m s.dev).setRoute b key (routeMerge old new) }) ∧
    (s.dev.bankState b ≠ 0 → exec (.routeEntryWrite m p off v) s = .next { s with dev := (tlp m s.dev).dropWrite m p off v.toNat 3 }) := by
  intro old new
  have hp : 0x61 ≤ p ∧ p < 0x65 := by
    by_contra h
    rw [routeAt, if_neg fun h' => h ⟨h'.1, h'.2.1⟩] at hat
    exact absurd hat (by simp)
  have hmay : (tlp m s.dev).mayWrite m p off = true := by
    refine mayWrite_owner hown ?_
    simp only [isFmq, Bool.and_eq_false_iff, beq_eq_false_iff_ne]
    exact .inl (.inl (by omega))
  have hstate : (tlp m s.dev).bankState b = s.dev.bankState b := Dev.bankState_regs (by simp) b
  have hrte : (tlp m s.dev).rte = s.dev.rte := by
    obtain ⟨c, hc⟩ := tlp_counts m s.dev
    rw [hc]
  have hexec := routeEntry_written (v := v) hopen ho h4 hat
  rw [hmay, Pkg.routeWrite, if_neg (by decide)] at hexec
  dsimp only at hexec
  rw [hstate, hrte] at hexec
  refine ⟨fun h0 hok => ?_, fun hne => ?_⟩
  · rw [if_neg (by omega)] at hexec
    exact hexec.trans (congrArg (fun d : Dev => Host.Outcome.next { s with dev := d }) (if_neg hok))
  · rw [if_pos hne] at hexec
    exact hexec

/-! ### Registers of page 0x61 -/

/-- What stands in page 0x61 and what the package is at work on stand. -/
def Dev.RolesKept (d e : Dev) : Prop := (∀ a, a / 0x1000 = 0x61 → e.word a = d.word a) ∧ e.rest = d.rest

theorem Dev.rolesKept_lwr (d : Dev) {q : Nat} (hq : q < 24) {f g : Fld} (hf : f.at 0 < 0x1000) (v : Nat) : d.RolesKept (d.lwr q f g v) := by
  refine ⟨fun a ha => Dev.word_wrpi_ne _ _ _ _ _ _ ?_, rfl⟩
  rw [Fld.addr, if_pos hq, linkPage, if_pos hq]
  omega

/-- DETECT of a port begins beside the routes (R436). -/
theorem Dev.rolesKept_tryDetect (d : Dev) {q : Nat} (hq : q < 24) : d.RolesKept (d.tryDetect q) := by
  unfold Dev.tryDetect
  split
  · have hst : d.RolesKept (d.setLinkState q 1) := d.rolesKept_lwr hq (by decide) 1
    generalize d.setLinkState q 1 = a at hst
    have hslack := Dev.rolesKept_lwr ((a.setLink q { d.link q with since := d.tim.tide }).setLink q
      { (a.setLink q { d.link q with since := d.tim.tide }).link q with
        slackAt := (lanesOf (maskMinus ((a.setLink q { d.link q with since := d.tim.tide }).disabledLanes q)
          ((a.setLink q { d.link q with since := d.tim.tide }).slackLanes q))).foldl (fun t i =>
            nset t i ((a.setLink q { d.link q with since := d.tim.tide }).tim.tide + 1)) ((a.setLink q { d.link q with since := d.tim.tide }).link q).slackAt })
      hq (f := F.PRT_STAT_SLACK_LANES) (g := F.LNDL_LANES_SLACK_LANES) (by decide) ((a.setLink q { d.link q with since := d.tim.tide }).disabledLanes q)
    exact ⟨fun n hn => (hslack.1 n hn).trans (hst.1 n hn), hslack.2.trans hst.2⟩
  · exact ⟨fun _ _ => rfl, rfl⟩

theorem mayWrite_route (hown : s.dev.owns m 0x61 = true) : (tlp m s.dev).mayWrite m 0x61 off = true := mayWrite_owner hown (by simp [isFmq])

theorem routeRegister_plain (hopen : pageOpen s.dev m 0x61) (ho : 0x100 ≤ off) (ho2 : off < 0x800) (h4 : off % 4 = 0) : plainRegister s.dev 0x61 off :=
  ⟨ho, by omega, h4, by rw [routeAt, if_neg (by omega)], by omega, hopen.2.2.2⟩

/-- What a write of page 0x61 sets going. -/
theorem route_written {old w v : Nat} {act : Bool} {x : Pkg} :
    Pkg.written m 0x61 off old w v act x = Pkg.settle (x.dev (Dev.fabricWritten m 0x61 off old w (if act then v else 0) (act && bit v 31))) := by
  unfold Pkg.written
  simp (disch := decide) only [if_neg]

/-- The role register of each port. -/
theorem roleFields : ∀ q < 24, F.RTE_PORT_ROLE_ROLE ∈ fieldsAt 0x61 (0x200 + 4 * q) ∧ F.RTE_PORT_ROLE_GROUP ∈ fieldsAt 0x61 (0x200 + 4 * q) ∧
    F.RTE_PORT_ROLE_DATELINE ∈ fieldsAt 0x61 (0x200 + 4 * q) := by decide +kernel

theorem portRole_said {q : Fin 24} {v : W32} (hopen : pageOpen s.dev m 0x61) (hown : s.dev.owns m 0x61 = true) (hq : quiet s.dev) :
    (fieldsTaken (tlp m s.dev) m 0x61 (0x200 + 4 * q.val) v.toNat → ∃ t, exec (.rtePortRoleWrite m q v) s = .next t ∧ t.store = s.store ∧
      t.dev.role q.val = bits v.toNat 0 3 ∧ t.dev.group q.val = bits v.toNat 4 3 ∧
      t.dev.rdi F.RTE_PORT_ROLE_DATELINE q.val = bits v.toNat 7 1) ∧
    (s.dev.linkState q.val ≠ 0 → exec (.rtePortRoleWrite m q v) s = .next { s with
      dev := (tlp m s.dev).dropWrite m 0x61 (0x200 + 4 * q.val) v.toNat 3 }) := by
  have hqlt := q.isLt
  have haddr : 0x61200 + 4 * q.val = 0x61 * 0x1000 + (0x200 + 4 * q.val) := by omega
  have hplain := routeRegister_plain hopen (off := 0x200 + 4 * q.val) (by omega) (by omega) (by omega)
  have hmay := mayWrite_route (m := m) (off := 0x200 + 4 * q.val) hown
  refine ⟨fun htaken => ?_, fun hup => ?_⟩
  · have hwrite : exec (.rtePortRoleWrite m q v) s = _ := (congrArg (regOut m · 4 v.toNat s) haddr).trans (regOut_taken hopen hplain v.isLt htaken)
    rw [fieldsStored, route_written] at hwrite
    obtain ⟨a, ha⟩ : ∃ a, a = (tlp m s.dev).setWord (0x61 * 0x1000 + (0x200 + 4 * q.val))
      ((tlp m s.dev).newWord ((tlp m s.dev).mayWrite m 0x61 (0x200 + 4 * q.val)) 0x61 (0x200 + 4 * q.val) v.toNat) := ⟨_, rfl⟩
    simp only [if_true, ← ha, Pkg.dev] at hwrite
    rw [Dev.fabricWritten, if_neg (by decide), if_pos rfl, if_neg (by omega), if_pos (by omega),
      show (0x200 + 4 * q.val - 0x200) / 4 = q.val by omega] at hwrite
    have harest : a.rest = s.dev.rest := by rw [ha]; exact (Dev.rest_setWord _ _).trans (tlp_rest m s.dev)
    obtain ⟨hword, hrest⟩ := a.rolesKept_tryDetect hqlt
    rw [settle_quiet (x := (s.store, a.tryDetect q)) (quiet_rest (hrest.trans harest) hq)] at hwrite
    obtain ⟨hrole, hgroup, hdate⟩ := roleFields q hqlt
    have hfield : ∀ f ∈ fieldsAt 0x61 (0x200 + 4 * q.val), f.page = 0x61 → f.at q.val = 0x200 + 4 * q.val → f.acc = .rwo → f ≠ F.RTE_CFG_MODE →
        f.lo + f.w ≤ 32 → (a.tryDetect q).rdi f q = bits v.toNat f.lo f.w := fun f hf hpage hat hacc hmode hw => by
      have hfa : f.addr f.page q.val = 0x61 * 0x1000 + (0x200 + 4 * q.val) := by rw [Fld.addr, hpage, hat]
      rw [Dev.rdi, Dev.rdpi, hword _ (by rw [hfa]; omega), hfa, ha, Dev.word_setWord_same, bits_mod _ _ _ _ hw]
      refine fieldsTaken_bits htaken hf (by omega) ?_ (by rw [hacc]; decide) hmode
      rw [fieldOpen, hacc]
      exact hmay
    exact ⟨_, hwrite, rfl, hfield _ hrole rfl rfl rfl (by decide) (by decide), hfield _ hgroup rfl rfl rfl (by decide) (by decide),
      hfield _ hdate rfl rfl rfl (by decide) (by decide)⟩
  · refine (congrArg (regOut m · 4 v.toNat s) haddr).trans (regOut_refused (code := 3) (detail := 0) hopen hplain v.isLt hmay (by decide) ?_)
    have hst : (tlp m s.dev).linkState q.val = s.dev.linkState q.val := by
      rw [Dev.linkState_eq, Dev.linkState_eq, Dev.lrd, Dev.lrd, Dev.rdp, Dev.rdp, tlp_rdpi]
    rw [Dev.writeRefused, if_neg (by omega), if_neg (by omega), if_pos ⟨rfl, by omega, by omega⟩,
      show (0x200 + 4 * q.val - 0x200) / 4 = q.val by omega, hst]
    exact if_neg (by simpa using hup)

/-! ### RTE_CFG -/

theorem fieldsAt_rteCfg : fieldsAt 0x61 0x100 = [F.RTE_CFG_MODE, F.RTE_CFG_EXP_BIAS, F.RTE_CFG_DRAIN_US] := by decide

/-- RTE_CFG, written. -/
theorem rteCfg_written {old w v : Nat} {act : Bool} {e : Dev} (hq : quiet e) :
    Pkg.written m 0x61 0x100 old w v act (s.store, e) = (s.store, e) := by
  have hfab : ∀ w v go, e.fabricWritten m 0x61 0x100 old w v go = e := fun w v go => by
    rw [Dev.fabricWritten, if_neg (by decide), if_pos rfl, if_neg (by decide), if_neg (by decide)]
  rw [route_written, Pkg.dev, hfab]
  exact settle_quiet hq

theorem rteCfg_takes {v : W32} (hopen : pageOpen s.dev m 0x61) (hown : s.dev.owns m 0x61 = true) (hq : quiet s.dev)
    (htaken : fieldsTaken (tlp m s.dev) m 0x61 0x100 v.toNat) : ∃ t, exec (.rteCfgWrite m v) s = .next t ∧ t.store = s.store ∧
      t.dev.rd F.RTE_CFG_MODE = bits v.toNat 0 1 ∧ t.dev.rd F.RTE_CFG_EXP_BIAS = bits v.toNat 4 4 ∧
      t.dev.rd F.RTE_CFG_DRAIN_US = bits v.toNat 16 16 := by
  have hmay := mayWrite_route (m := m) (off := 0x100) hown
  have haddr : F.RTE_CFG_MODE.addr F.RTE_CFG_MODE.page 0 = 0x61 * 0x1000 + 0x100 := by decide
  have hwrite : exec (.rteCfgWrite m v) s = _ := (congrArg (regOut m · 4 v.toNat s) haddr).trans <| regOut_taken hopen (routeRegister_plain hopen (by decide) (by decide) (by decide)) v.isLt htaken
  have hfield : ∀ f ∈ fieldsAt 0x61 0x100, f.acc = .rwo → f ≠ F.RTE_CFG_MODE →
      bits ((tlp m s.dev).newWord ((tlp m s.dev).mayWrite m 0x61 0x100) 0x61 0x100 v.toNat) f.lo f.w = bits v.toNat f.lo f.w :=
    fun f hf hacc hmode => fieldsTaken_bits htaken hf (by decide) (by rw [fieldOpen, hacc]; exact hmay) (by rw [hacc]; decide) hmode
  have hmode : bits ((tlp m s.dev).newWord ((tlp m s.dev).mayWrite m 0x61 0x100) 0x61 0x100 v.toNat) 0 1 = bits v.toNat 0 1 := by
    obtain ⟨⟨-, -, hheld⟩, hres⟩ := htaken
    rw [Dev.anyHeld, fieldsAt_rteCfg, List.any_cons, Bool.or_eq_false_iff, hmay] at hheld
    rw [Dev.anyReserved, fieldsAt_rteCfg, List.any_cons, Bool.or_eq_false_iff, hmay] at hres
    have hopenf : fieldOpen true F.RTE_CFG_MODE = true := rfl
    have hres' : (tlp m s.dev).reserved 0x61 0x100 v.toNat F.RTE_CFG_MODE = false := by simpa only [hopenf, Bool.true_and] using hres.1
    rw [hmay]
    by_cases hpart : (tlp m s.dev).partHeld 0x61 0x100 F.RTE_CFG_MODE = true
    · have hsame := hheld.1
      rw [hopenf, hpart] at hsame
      have hsame' : bits v.toNat F.RTE_CFG_MODE.lo F.RTE_CFG_MODE.w =
          bits ((tlp m s.dev).word (0x61 * 0x1000 + 0x100)) F.RTE_CFG_MODE.lo F.RTE_CFG_MODE.w := by simpa using hsame
      refine (Dev.newWord_field _ true 0x61 0x100 v.toNat F.RTE_CFG_MODE (by simp [fieldsAt_rteCfg]) (by decide)).trans ?_
      rw [Dev.fieldWord, if_neg (by decide), if_neg (by simp [hpart])]
      exact hsame'.symm
    · exact Dev.newWord_taken (f := F.RTE_CFG_MODE) (by simp [fieldsAt_rteCfg]) (by decide) hopenf (by decide) hres' (by simpa using hpart)
  have hbias := hfield F.RTE_CFG_EXP_BIAS (by simp [fieldsAt_rteCfg]) rfl (by decide)
  have hdrain := hfield F.RTE_CFG_DRAIN_US (by simp [fieldsAt_rteCfg]) rfl (by decide)
  rw [fieldsStored] at hwrite
  dsimp only at hwrite
  generalize (tlp m s.dev).newWord ((tlp m s.dev).mayWrite m 0x61 0x100) 0x61 0x100 v.toNat = w at hwrite hmode hbias hdrain
  have hq' : quiet ((tlp m s.dev).setWord (0x61 * 0x1000 + 0x100) w) :=
    quiet_rest (d := tlp m s.dev) (Dev.rest_setWord _ _) (quiet_rest (tlp_rest m s.dev) hq)
  rw [if_pos rfl, rteCfg_written hq'] at hwrite
  exact ⟨_, hwrite, rfl, (rd_setWord_of (p := 0x61) (off := 0x100) (by decide) (by decide)).trans hmode, (rd_setWord_of (p := 0x61) (off := 0x100) (by decide) (by decide)).trans hbias,
    (rd_setWord_of (p := 0x61) (off := 0x100) (by decide) (by decide)).trans hdrain⟩

/-! MODE while a link is up (R405). -/

/-- A dropped part of a write, noted. -/
def Dev.noted (c : Bool) (m : Master) (p off v code : Nat) (d : Dev) : Dev := if c then d.dropWrite m p off v code else d

theorem quiet_noted {c : Bool} {v code : Nat} {d : Dev} (hq : quiet d) : quiet (d.noted c m p off v code) := by
  unfold Dev.noted
  split
  · exact quiet_dropWrite hq ..
  · exact hq

/-- What the owner's write stores where no part of it is refused whole. -/
theorem regOut_stores {n : Nat} (hopen : pageOpen s.dev m p) (hreg : plainRegister s.dev p off) (hv : n < 2 ^ 32)
    (hown : (tlp m s.dev).mayWrite m p off = true)
    (href : (tlp m s.dev).writeRefused ((tlp m s.dev).setWord (p * 0x1000 + off) ((tlp m s.dev).newWord true p off n)) p off = none) :
    regOut m (p * 0x1000 + off) 4 n s = .next (withPkg s (Pkg.written m p off ((tlp m s.dev).word (p * 0x1000 + off))
      ((tlp m s.dev).newWord true p off n) n (!(tlp m s.dev).anyReserved true p off n) (s.store,
        (((tlp m s.dev).setWord (p * 0x1000 + off) ((tlp m s.dev).newWord true p off n)).noted ((tlp m s.dev).anyReserved true p off n)
          m p off n 2).noted ((tlp m s.dev).anyHeld true p off n) m p off n 3))) := by
  obtain ⟨hrun, hreach, hkind, hon⟩ := hopen
  obtain ⟨ho, ho2, h4, hroute, hcmd, -⟩ := hreg
  have hrun' : (tlp m s.dev).running = true := (tlp_running m s.dev).trans hrun
  rw [regOut_four m p off n s ho2 h4 (by have := pageKind_lt hkind; omega) hreach,
    write4_plain m p off n _ hkind (by simpa using hon) ho ho2 hroute hcmd, Nat.mod_eq_of_lt hv, hown]
  simp only [Pkg.fieldsWrite, href, hrun', Bool.not_true, Bool.false_eq_true, and_false, if_false, if_true, Dev.noted]

theorem rteCfg_keepsMode {v : W32} (hopen : pageOpen s.dev m 0x61) (hown : s.dev.owns m 0x61 = true) (hq : quiet s.dev)
    (hup : s.dev.linksDown = false) : ∃ t, exec (.rteCfgWrite m v) s = .next t ∧ t.store = s.store ∧
      t.dev.rd F.RTE_CFG_MODE = s.dev.rd F.RTE_CFG_MODE := by
  have hmay := mayWrite_route (m := m) (off := 0x100) hown
  have hup' : (tlp m s.dev).linksDown = false := by
    refine Eq.trans ?_ hup
    unfold Dev.linksDown
    simp only [Dev.linkState_eq, Dev.lrd, Dev.rdp, tlp_rdpi]
  have hpart : (tlp m s.dev).partHeld 0x61 0x100 F.RTE_CFG_MODE = true := by
    rw [Dev.partHeld, hup']
    rfl
  have haddr : F.RTE_CFG_MODE.addr F.RTE_CFG_MODE.page 0 = 0x61 * 0x1000 + 0x100 := by decide
  have hwrite : exec (.rteCfgWrite m v) s = _ := (congrArg (regOut m · 4 v.toNat s) haddr).trans <| regOut_stores hopen (routeRegister_plain hopen (by decide) (by decide) (by decide)) v.isLt hmay (by
    unfold Dev.writeRefused
    simp (disch := decide) only [if_neg])
  have hmode : bits ((tlp m s.dev).newWord true 0x61 0x100 v.toNat) 0 1 = s.dev.rd F.RTE_CFG_MODE := by
    refine (Dev.newWord_field _ true 0x61 0x100 v.toNat F.RTE_CFG_MODE (by simp [fieldsAt_rteCfg]) (by decide)).trans ?_
    rw [Dev.fieldWord, if_neg (by decide), if_neg (by simp [hpart]), tlp_word]
    rfl
  generalize (tlp m s.dev).newWord true 0x61 0x100 v.toNat = w at hwrite hmode
  have hq' : quiet ((tlp m s.dev).setWord (0x61 * 0x1000 + 0x100) w) :=
    quiet_rest (d := tlp m s.dev) (Dev.rest_setWord _ _) (quiet_rest (tlp_rest m s.dev) hq)
  rw [rteCfg_written (quiet_noted (quiet_noted hq'))] at hwrite
  have hnoted : ∀ (d : Dev) c code, (d.noted c m 0x61 0x100 v.toNat code).rd F.RTE_CFG_MODE = d.rd F.RTE_CFG_MODE := fun d c code => by
    unfold Dev.noted
    split
    · exact Dev.rd_dropWrite _ _ _ _ _ _ _ (by decide)
    · rfl
  exact ⟨_, hwrite, rfl, (hnoted _ _ _).trans ((hnoted _ _ _).trans ((rd_setWord_of (p := 0x61) (off := 0x100) (by decide) (by decide)).trans hmode))⟩

end

/-! ### The statement -/

theorem routeTables : Said.RouteTables := by
  refine ⟨fun src b es s hrun hfm => rteLoad_said hrun hfm es, fun m p off v b hi key s hopen hown ho h4 hat => routeEntry_said hopen hown ho h4 hat,
    fun src b T s hrun hdom hq hfm hT => ⟨arm_said hrun hdom hq hfm hT, arm_noChange hrun hdom hq hfm hT, arm_badState hrun hdom hq hfm hT,
      disarm_said hrun hdom hq hfm⟩, fun m s => ⟨rfl, rfl⟩, fun b s hrun hheld hrecv => by cases b <;> exact bankFlip_said hrun hheld hrecv,
    fun m v s hopen hown hq => ⟨fun p => portRole_said hopen hown hq, rteCfg_takes hopen hown hq, rteCfg_keepsMode hopen hown hq⟩⟩

/-- Settles O48: the port a frame leaves by is a candidate of its entry (R404–R417), and the banks change by their commands alone
(R405, R421–R429). -/
theorem routes : Obligations.Routes := by
  unfold Obligations.Routes
  exact ⟨routeChoice, routeTables⟩

end Sys2Proof.Machine


/-!
SUPPORT. O45, a page whose line has two errors of one place, and a strike at that place. What a line has taken is a list, and a strike lists
each place once, so the line then has one error, which its code corrects: the statement does not say that no place is listed twice.
-/
namespace Sys2Proof.Machine

/-- A group of one page of one position at GPA 0 of this package, with no query row. -/
def onePage : AttnQuery where
  src := 3
  op := 1
  grp := 0
  node := 22
  ticket := 5
  landing := 12
  t := 32
  d := 1
  kvFmt := 0x14
  group := false
  scale := 0
  nq := 0
  elems := []
  scales := []
  pages := [(0, 1)]

/-- The package in service, array 0 serving that group, whose page waits; line 0 has an error at place 5, listed twice. -/
def struckTwice : State := { State.reset with dev :=
  let d := inService.wr F.ATTN_CFG_SERVE_MASK 1
  { d with
    fry := { d.fry with serve := [{ q := onePage, status := [sOk] }] }
    home := { d.home with
      queue := [.page 3 1 0 0 22 0 (queryPageBytes onePage)]
      damage := tset (fun _ => []) d.home.damage (d.placeOf 0) [5, 5] } } }

/-- The status of the group's page once array 0 has read it, and line 0 was struck at place 5 again. -/
def statusAfterStrike : Option (List Nat) :=
  match exec (.attnPageServed 3 1 0 0 0 [] [⟨0, ⟨[5]⟩⟩]) struckTwice with
  | .next t => (t.dev.serveOf 3 1 0).map (·.status)
  | _ => none

theorem statusAfterStrike_eq : statusAfterStrike = some [sOk] := by decide +kernel

/-- Refutes O45: from `struckTwice` the page whose line no code could correct is scored, and not answered DATA_ERROR. -/
theorem not_attention : ¬ Obligations.Attention := by
  rintro ⟨-, -, h, -⟩
  have hserved := (h 3 1 0 0 0 1 0 [] [⟨0, ⟨[5]⟩⟩] { q := onePage, status := [sOk] } struckTwice (by decide +kernel) (by decide +kernel)
    (by decide +kernel) (by decide +kernel) (by decide +kernel) (by decide) (by decide +kernel) (by decide +kernel) (by decide +kernel)).2
    (by decide +kernel) (by decide +kernel) (by decide +kernel) (by decide +kernel) (by decide +kernel) (by decide +kernel) (by decide +kernel)
  obtain ⟨t, hexec, -, hserve⟩ := (hserved.2 (by decide +kernel)).2.1 ⟨0, by decide +kernel, by decide +kernel⟩ (by decide +kernel)
  have hafter : statusAfterStrike = some [sDataError] := by
    unfold statusAfterStrike
    rw [hexec]
    exact congrArg (Option.map ServeGroup.status) hserve
  rw [statusAfterStrike_eq] at hafter
  cases hafter

end Sys2Proof.Machine


/-!
SUPPORT. O44, the ring: what a rank expects at a step is what its predecessor has at that step.
-/
namespace Sys2Proof.Machine

/-- The chunks that ranks further round the ring hold: places are counted modulo the number of ranks. -/
theorem FOp.rankAt_next {p q : FOp} (hp : q.collP = p.collP) (hr : q.collRank = (p.collRank + 1) % p.collP) (k : Nat) :
    q.rankAt k = p.rankAt (k + 1) := by
  rw [FOp.rankAt, FOp.rankAt, hp, hr]
  by_cases h0 : p.collP = 0
  · rw [h0]
    simp [Nat.mod_one]
  · rw [Nat.max_eq_left (by omega), Nat.mod_add_mod]
    congr 1
    omega

theorem FOp.rankAt_round (p : FOp) (hp : 1 ≤ p.collP) (k : Nat) : p.rankAt (k + p.collP) = p.rankAt k := by
  rw [FOp.rankAt, FOp.rankAt, Nat.max_eq_left hp, ← Nat.add_assoc, Nat.add_mod_right]

theorem FOp.rankAt_self (p : FOp) (h : p.collRank < p.collP) : p.rankAt 0 = p.collRank := by
  rw [FOp.rankAt, Nat.max_eq_left (by omega), Nat.add_zero, Nat.mod_eq_of_lt h]

/-- The chunks of a reduce-scatter, step by step. -/
def FOp.scattered (o : FOp) : List (Nat × Nat) := (List.range (o.collP - 1)).map (fun s => (s, o.rankAt (2 * o.collP - s - 2)))

/-- The chunks of an all-gather from step `base` on. -/
def FOp.gathered (o : FOp) (base : Nat) : List (Nat × Nat) :=
  (List.range (o.collP - 1)).map (fun s => (base + s, o.rankAt (o.collP - 1 + o.collP - s)))

theorem FOp.expects_ring (o : FOp) (h : o.collOp ≤ 2) : o.expects =
    (if o.collOp ≤ 1 then o.scattered else []) ++ (if o.collOp = 1 then [] else o.gathered (if o.collOp = 0 then o.collP - 1 else 0)) := by
  rw [FOp.expects]
  match hop : o.collOp, h with
  | 0, _ => rfl
  | 1, _ => simp [FOp.scattered]
  | 2, _ => simp [FOp.gathered]

theorem FOp.sources_ring (o : FOp) (h : o.collOp ≤ 2) :
    o.sources = if o.collOp = 2 then [(0, o.collRank)] else [(0, o.rankAt (o.collP - 1))] := by
  rw [FOp.sources]
  match hop : o.collOp, h with
  | 0, _ | 1, _ | 2, _ => rfl

theorem collectiveRing : Said.CollectiveRing := by
  intro p q hop hqop hqP hP hrank hqrank s c hmem
  have hnext := FOp.rankAt_next hqP hqrank
  have hround := p.rankAt_round (by omega)
  rw [FOp.expects_ring q (by omega), hqop, List.mem_append] at hmem
  rw [FOp.sources_ring p hop, FOp.expects_ring p hop]
  rcases hmem with hmem | hmem
  · have hle : p.collOp ≤ 1 := by
      by_contra h
      simp [h] at hmem
    rw [if_pos hle] at hmem ⊢
    simp only [FOp.scattered, List.mem_map, List.mem_range, hqP, Prod.mk.injEq] at hmem
    obtain ⟨i, hi, rfl, rfl⟩ := hmem
    rw [if_neg (by omega), hnext]
    rcases Nat.eq_zero_or_pos i with rfl | hpos
    · left
      refine ⟨rfl, ?_⟩
      rw [show 2 * p.collP - 0 - 2 + 1 = p.collP - 1 + p.collP by omega, hround]
      exact List.mem_singleton_self _
    · right
      refine ⟨hpos, List.mem_append_left _ ?_⟩
      simp only [FOp.scattered, List.mem_map, List.mem_range, Prod.mk.injEq]
      exact ⟨i - 1, by omega, rfl, by congr 1; omega⟩
  · have hne : p.collOp ≠ 1 := by
      intro h
      simp [h] at hmem
    rw [if_neg hne] at hmem
    simp only [FOp.gathered, List.mem_map, List.mem_range, hqP, Prod.mk.injEq] at hmem
    obtain ⟨i, hi, rfl, rfl⟩ := hmem
    rw [hnext, show p.collP - 1 + p.collP - i + 1 = p.collP - i + p.collP by omega, hround]
    rcases Nat.eq_zero_or_pos i with rfl | hpos
    · rw [Nat.sub_zero, ← Nat.zero_add p.collP, hround, p.rankAt_self hrank, Nat.zero_add]
      by_cases h0 : p.collOp = 0
      · right
        rw [if_pos h0, if_pos (by omega : p.collOp ≤ 1)]
        refine ⟨by omega, List.mem_append_left _ ?_⟩
        simp only [FOp.scattered, List.mem_map, List.mem_range, Prod.mk.injEq]
        refine ⟨p.collP - 2, by omega, by omega, ?_⟩
        rw [show 2 * p.collP - (p.collP - 2) - 2 = 0 + p.collP by omega, hround, p.rankAt_self hrank]
      · left
        rw [if_neg h0, if_pos (by omega : p.collOp = 2)]
        exact ⟨rfl, List.mem_singleton_self _⟩
    · right
      refine ⟨by omega, List.mem_append_right _ ?_⟩
      rw [if_neg hne]
      simp only [FOp.gathered, List.mem_map, List.mem_range, Prod.mk.injEq]
      exact ⟨i - 1, by omega, by omega, by rw [show p.collP - 1 + p.collP - (i - 1) = p.collP - i + p.collP by omega, hround]⟩

end Sys2Proof.Machine


/-!
SUPPORT. O44, collectives: the unit's state, and what an abort does.
-/
namespace Sys2Proof.Machine

/-! ### The unit's state -/

section
variable {d e : Dev} {op : Nat} {c : Coll} {o : FOp}

/-- Collectives and operations are read off the ferryman's state. -/
theorem Dev.coll_congr (h : e.fry = d.fry) (op : Nat) : e.coll op = d.coll op := by rw [Dev.coll, Dev.coll, h]

theorem Dev.coll_setColl {f : Coll → Coll} (hf : ∀ c, (f c).op = c.op) (h : d.coll op = some c) : (d.setColl op f).coll op = some (f c) := by
  have hfind := List.find?_mapFirst (p := fun c : Coll => c.op == op) (f := f) (fun c hc => by simpa [hf] using hc) d.fry.colls
  exact hfind.trans (congrArg (Option.map f) h)

theorem Dev.coll_setColl_none {f : Coll → Coll} (hf : ∀ c, (f c).op = c.op) (h : d.coll op = none) : (d.setColl op f).coll op = none := by
  have hfind := List.find?_mapFirst (p := fun c : Coll => c.op == op) (f := f) (fun c hc => by simpa [hf] using hc) d.fry.colls
  exact hfind.trans (congrArg (Option.map f) h)

theorem Dev.rest_setColl (op : Nat) (f : Coll → Coll) : (d.setColl op f).rest = d.rest := rfl

/-- A collective whose step window goes on does not time out. -/
theorem Dev.collTimeout_within (hc : d.coll op = some c) (hover : d.collOver c = false) : d.collTimeout op = d := by
  rw [Dev.collTimeout, hc]
  simp [hover]

theorem Dev.collOver_aborting (habort : c.abort.isSome = true) : d.collOver c = false := by
  rw [Dev.collOver]
  cases h : c.abort with
  | none => rw [h] at habort; cases habort
  | some _ => rfl

section
variable (hcolls : d.fry.colls = [c]) (hop : c.op = op)

include hcolls in
theorem Dev.coll_only (hop : c.op = op) : d.coll op = some c := by
  rw [Dev.coll, hcolls]
  simp [hop]

include hcolls in
/-- The only collective has its window. -/
theorem Dev.collsLate_only (hover : d.collOver c = false) : d.collsLate = d := by
  rw [Dev.collsLate, hcolls, List.foldl_cons, List.foldl_nil, Dev.collTimeout_within (Dev.coll_only hcolls rfl) hover]

include hcolls hop in
theorem Dev.collOf_only {dst : Nat} (ho : d.fop op = some o) (hdst : dst / 4 = d.node) (hl : o.landing = some (dst % 4)) (habort : c.abort = none) :
    d.collOf o.collId dst = some (o, c) := by
  rw [Dev.collOf, if_neg (by simpa using hdst), hcolls]
  simp [hop, ho, hl, habort]

include hcolls hop in
theorem Dev.collOf_other {id dst : Nat} (ho : d.fop op = some o) (hid : id ≠ o.collId) : d.collOf id dst = none := by
  rw [Dev.collOf, hcolls]
  simp [hop, ho, Ne.symm hid]

end

end

/-! ### Aborts -/

/-- A collective that aborts with (status, rank, step): nothing of it is sent or worked on any more. -/
def Coll.aborting (a : Nat × Nat × Nat) (c : Coll) : Coll :=
  { c with abort := some a, stage := [], ready := [], sent := [], work := [], again := [], tails := [], pieces := [] }

/-- The registers tell the abort of collective `id`. -/
def Dev.abortNoted (id : Nat) (a : Nat × Nat × Nat) (origin : Bool) (d : Dev) : Dev :=
  let d := ((d.wr F.COLL_ABORT_ID_ID id).wr F.COLL_ABORT_INFO_STATUS a.1).wr F.COLL_ABORT_INFO_FAILED_RANK a.2.1
  let d := (d.wr F.COLL_ABORT_INFO_FAILED_STEP a.2.2).wr F.COLL_ABORT_INFO_ORIGIN (b2n origin)
  (d.count 0x50 3 1).event 0x50 0

section
variable {d : Dev} {op : Nat} {c : Coll} {o : FOp} (a : Nat × Nat × Nat) (origin : Bool)

theorem Dev.abortNoted_fry (id : Nat) : (d.abortNoted id a origin).fry = d.fry := by simp [Dev.abortNoted, Dev.wr, Dev.wrpi]

theorem Dev.abortNoted_rest (id : Nat) : (d.abortNoted id a origin).rest = d.rest := by
  unfold Dev.abortNoted
  dsimp only
  rw [Dev.rest_event, Dev.rest_count, Dev.rest_wr, Dev.rest_wr, Dev.rest_wr, Dev.rest_wr, Dev.rest_wr]

theorem Dev.rdp_count (d : Dev) (p i k : Nat) (f : Fld) (q : Nat) : (d.count p i k).rdp f q = d.rdp f q := Dev.rdpi_count ..

theorem Dev.abortNoted_errors (id : Nat) : (d.abortNoted id a origin).rdp F.BLK_ERR_CNT_ERRORS 0x50 = d.rdp F.BLK_ERR_CNT_ERRORS 0x50 := by
  have hne : ∀ (e : Dev) (f : Fld) (v : Nat), f.addr f.page 0 ≠ F.BLK_ERR_CNT_ERRORS.addr 0x50 0 →
      (e.wr f v).rdp F.BLK_ERR_CNT_ERRORS 0x50 = e.rdp F.BLK_ERR_CNT_ERRORS 0x50 := fun e f v h =>
    Dev.rdpi_wrpi_ne _ _ _ _ _ _ _ _ (.inl (Ne.symm h))
  unfold Dev.abortNoted
  dsimp only
  rw [Dev.rdp_event _ _ _ (by decide), Dev.rdp_count, hne _ _ _ (by decide), hne _ _ _ (by decide), hne _ _ _ (by decide),
    hne _ _ _ (by decide), hne _ _ _ (by decide)]

theorem Dev.abortNoted_status (id : Nat) : (d.abortNoted id a origin).rd F.COLL_ABORT_INFO_STATUS = a.1 % 16 := by
  unfold Dev.abortNoted
  dsimp only
  rw [Dev.rd_event _ _ _ _ (by decide), Dev.rd_count, Dev.rd_wr_ne _ _ _ _ (by decide), Dev.rd_wr_ne _ _ _ _ (by decide),
    Dev.rd_wr_ne _ _ _ _ (by decide), Dev.rd_wr_same _ _ _ (by decide)]
  rfl

theorem Dev.collAbort_eq (hc : d.coll op = some c) (ho : d.fop op = some o) (habort : c.abort = none) (to_ : List Nat) :
    d.collAbort op a origin to_ = to_.foldl (fun d r => d.abortTo o c a r) ((d.setColl op (Coll.aborting a)).abortNoted o.collId a origin) := by
  rw [Dev.collAbort, hc, ho]
  simp only [habort, Option.isSome_none]
  rfl

/-- A collective aborts, and ranks are told. -/
theorem Dev.collAbort_does (hc : d.coll op = some c) (ho : d.fop op = some o) (habort : c.abort = none) (to_ : List Nat) :
    (d.collAbort op a origin to_).fry = (d.setColl op (Coll.aborting a)).fry ∧ (d.collAbort op a origin to_).rest = d.rest ∧
    (d.collAbort op a origin to_).rdp F.BLK_ERR_CNT_ERRORS 0x50 = d.rdp F.BLK_ERR_CNT_ERRORS 0x50 ∧
    (d.collAbort op a origin to_).rd F.COLL_ABORT_INFO_STATUS = a.1 % 16 := by
  rw [Dev.collAbort_eq a origin hc ho habort]
  have hfold : ∀ (l : List Nat) (e : Dev), (l.foldl (fun d r => d.abortTo o c a r) e).fry = e.fry ∧
      (l.foldl (fun d r => d.abortTo o c a r) e).regs = e.regs ∧ (l.foldl (fun d r => d.abortTo o c a r) e).rest = e.rest := by
    intro l
    induction l with
    | nil => exact fun e => ⟨rfl, rfl, rfl⟩
    | cons r l ih =>
      intro e
      have hone : (e.abortTo o c a r).fry = e.fry ∧ (e.abortTo o c a r).regs = e.regs ∧ (e.abortTo o c a r).rest = e.rest := by
        rw [Dev.abortTo]
        split
        · exact ⟨by simp only [Dev.ctrl_frame], by simp only [Dev.ctrl_frame], Dev.rest_ctrl ..⟩
        · exact ⟨rfl, rfl, rfl⟩
      obtain ⟨h1, h2, h3⟩ := ih (e.abortTo o c a r)
      exact ⟨h1.trans hone.1, h2.trans hone.2.1, h3.trans hone.2.2⟩
  obtain ⟨hfry, hregs, hrest⟩ := hfold to_ ((d.setColl op (Coll.aborting a)).abortNoted o.collId a origin)
  refine ⟨hfry.trans (Dev.abortNoted_fry ..), hrest.trans ((Dev.abortNoted_rest ..).trans (Dev.rest_setColl ..)), ?_, ?_⟩
  · exact (Dev.rdp_congr hregs _ _).trans ((Dev.abortNoted_errors ..).trans (Dev.rdp_congr rfl _ _))
  · exact (Dev.rd_congr hregs _).trans (Dev.abortNoted_status ..)

end

end Sys2Proof.Machine


/-!
SUPPORT. O44, what reaches a collective: segments, credits, aborts, the end of its step window.
-/
namespace Sys2Proof.Machine

/-- A command that changes the package alone. -/
theorem onDev_leaves {s : State} (hrun : s.dev.running = true) {f : Dev → Dev} {e : Dev} (h : f s.dev = e) :
    onDev (Dev.ifRuns f) s = .next { s with dev := e } := h ▸ onDev_running hrun f

/-! ### COLL_DATA -/

section
variable {op : Nat} {o : FOp} {c : Coll} {m : CollData} {s : State}

/-- A segment is taken in, and the package goes on. -/
theorem collData_takes (hrun : s.dev.running = true) (hdom : s.dev.domOn 11 = true) {e : Dev} (he : s.dev.collData m = e) :
    exec (.collData m) s = .next (withPkg s (Pkg.settle (s.store, e))) :=
  onPkg_leaves (x := Pkg.settle (s.store, e)) hrun hdom (by rw [Pkg.dev, he])

/-- A segment that only a counter tells of. -/
theorem collData_counted (h : collRuns op o c s) {k : Nat} (he : s.dev.collData m = s.dev.count 0x50 k 1) :
    exec (.collData m) s = .next { s with dev := s.dev.count 0x50 k 1 } := by
  obtain ⟨hrun, hdom, hq, -⟩ := h
  rw [collData_takes hrun hdom he, settle_quiet (quiet_rest (Dev.rest_count ..) hq)]
  rfl

theorem collData_ticket (h : collRuns op o c s) (ht : m.ticket ≠ s.dev.ticket) :
    exec (.collData m) s = .next { s with dev := s.dev.count 0x50 2 1 } := by
  refine collData_counted h ?_
  obtain ⟨-, -, -, hcolls, -, -, -, -, -, hover⟩ := h
  rw [Dev.collData, Dev.collsLate_only hcolls hover]
  exact if_pos (.inr ht)

theorem collData_late (h : collRuns op o c s) (ht : m.ticket = s.dev.ticket) (h0 : s.dev.ticket ≠ 0) (hid : m.collId ≠ o.collId) :
    exec (.collData m) s = .next { s with dev := s.dev.count 0x50 1 1 } := by
  refine collData_counted h ?_
  obtain ⟨-, -, -, hcolls, hop, ho, -, -, -, hover⟩ := h
  rw [Dev.collData, Dev.collsLate_only hcolls hover]
  dsimp only
  rw [if_neg (by simp [ht, h0]), Dev.collOf_other hcolls hop ho hid]

theorem collData_again (h : collRuns op o c s) (ht : m.ticket = s.dev.ticket) (h0 : s.dev.ticket ≠ 0) (hid : m.collId = o.collId)
    (hdst : m.dst / 4 = s.dev.node) (hl : o.landing = some (m.dst % 4)) (hseen : c.seen.contains (m.step, m.chunk, m.seg) = true) :
    exec (.collData m) s = .next { s with dev := s.dev.count 0x50 0 1 } := by
  refine collData_counted h ?_
  obtain ⟨-, -, -, hcolls, hop, ho, -, -, habort, hover⟩ := h
  rw [Dev.collData, Dev.collsLate_only hcolls hover]
  dsimp only
  rw [if_neg (by simp [ht, h0]), hid, Dev.collOf_only hcolls hop ho hdst hl habort]
  exact if_pos hseen

/-- A segment as it enters the stage. -/
def stagedSeg (m : CollData) : CSeg := ⟨m.step, m.chunk, m.seg, m.data, m.cmark⟩

/-- The collective with a new segment in its stage. -/
def Coll.staging (o : FOp) (m : CollData) (c : Coll) : Coll :=
  { c with stage := c.stage ++ [stagedSeg m], seen := c.seen ++ [(m.step, m.chunk, m.seg)], tails := c.tails ++ o.tailOf (stagedSeg m) }

/-- A progress event opens the step window again. -/
theorem Dev.coll_collProgress {d : Dev} (h : d.coll op = some c) (n : Nat) : (d.collProgress op n).coll op =
    some { c with progressAt := d.tim.tide, window := d.rd F.COLL_CFG_STEP_TIMEOUT_US, step := max c.step n } :=
  Dev.coll_setColl (by exact fun _ => rfl) h

theorem collData_new (h : collRuns op o c s) (ht : m.ticket = s.dev.ticket) (h0 : s.dev.ticket ≠ 0) (hid : m.collId = o.collId)
    (hdst : m.dst / 4 = s.dev.node) (hl : o.landing = some (m.dst % 4)) (hseen : c.seen.contains (m.step, m.chunk, m.seg) = false)
    (hexp : o.expects.contains (m.step, m.chunk) = true) (hseg : m.seg < o.segNum m.chunk)
    (hsrc : nth c.ranks (o.fromRank m.step) 0 % 512 = m.src) : ∃ d, d.coll op = some { c.at m.step s with
        stage := c.stage ++ [⟨m.step, m.chunk, m.seg, m.data, m.cmark⟩], seen := c.seen ++ [(m.step, m.chunk, m.seg)]
        tails := c.tails ++ o.tailOf ⟨m.step, m.chunk, m.seg, m.data, m.cmark⟩ } ∧
      exec (.collData m) s = .next (withPkg s (Pkg.settle (s.store, Dev.collGoOn op d))) := by
  obtain ⟨hrun, hdom, -, hcolls, hop, ho, -, -, habort, hover⟩ := h
  have hoid : o.id = op := by simpa using List.find?_some ho
  have hstage : (s.dev.setColl op (Coll.staging o m)).coll op = some (Coll.staging o m c) :=
    Dev.coll_setColl (by exact fun _ => rfl) (Dev.coll_only hcolls hop)
  refine ⟨(s.dev.setColl op (Coll.staging o m)).collProgress op m.step, ?_, collData_takes hrun hdom ?_⟩
  · rw [Dev.coll_collProgress hstage, Dev.rd_congr (d := s.dev.setColl op (Coll.staging o m)) (e := s.dev) rfl]
    rfl
  · rw [Dev.collData, Dev.collsLate_only hcolls hover]
    dsimp only
    rw [if_neg (by simp [ht, h0]), hid, Dev.collOf_only hcolls hop ho hdst hl habort]
    dsimp only
    rw [if_neg (by rw [hseen]; decide), if_neg (by rw [hexp]; simp [hsrc, hseg]), hoid]
    rfl

end

/-! ### COLL_CREDIT -/

section
variable {op r : Nat} {o : FOp} {c : Coll} {m : CollCredit} {s : State}

theorem collCredit_takes (hrun : s.dev.running = true) (hdom : s.dev.domOn 11 = true) {e : Dev} (he : s.dev.collCredit m = e) :
    exec (.collCredit m) s = .next (withPkg s (Pkg.settle (s.store, e))) :=
  onPkg_leaves (x := Pkg.settle (s.store, e)) hrun hdom (by rw [Pkg.dev, he])

/-- A credit for a collective that is not here yet is kept. -/
theorem collCredit_early (hrun : s.dev.running = true) (hdom : s.dev.domOn 11 = true) (hq : quiet s.dev) (hcolls : s.dev.fry.colls = [])
    (hdst : m.dst / 4 = s.dev.node) : exec (.collCredit m) s = .next { s with
      dev := { s.dev with fry := { s.dev.fry with early := s.dev.fry.early ++ [m] } } } := by
  have he : s.dev.collCredit m = { s.dev with fry := { s.dev.fry with early := s.dev.fry.early ++ [m] } } := by
    have hlate : s.dev.collsLate = s.dev := by rw [Dev.collsLate, hcolls]; rfl
    have hof : s.dev.collOf m.collId m.dst = none := by rw [Dev.collOf, hcolls]; simp
    rw [Dev.collCredit, hlate, hof]
    dsimp only
    rw [if_neg (by simp [hdst, Dev.collKnown, hcolls])]
  rw [collCredit_takes hrun hdom he, settle_quiet (quiet_rest rfl hq)]
  rfl

/-- What the first credits of a step agree on (R309). -/
abbrev FOp.digest (o : FOp) : List Nat := [o.collOp, o.collRed, o.collP, o.collCount, o.wireFmt, o.segLog]

/-- Another digest aborts. -/
theorem collCredit_differs (h : collRuns op o c s) (hid : m.collId = o.collId) (hdst : m.dst / 4 = s.dev.node)
    (hl : o.landing = some (m.dst % 4)) (hr : (List.range o.collP).find? (fun r => nth c.ranks r 0 % 512 == m.src) = some r) {g : List Nat}
    (hg : m.digest = some g) (hne : g ≠ o.digest) : ∃ t q, exec (.collCredit m) s = .next t ∧ t.store = s.store ∧ t.dev.coll op = some q ∧
      q.abort = some (sRights, o.collRank, c.step) ∧
      t.dev.rdp F.BLK_ERR_CNT_ERRORS 0x50 = satAdd 16 (s.dev.rdp F.BLK_ERR_CNT_ERRORS 0x50) 1 := by
  obtain ⟨hrun, hdom, hq, hcolls, hop, ho, -, -, habort, hover⟩ := h
  have hoid : o.id = op := by simpa using List.find?_some ho
  have herr := s.dev.errors_capture (p := 0x50) (by decide) .request sRights 0x11 0x3F o.collId
  have hrest := Dev.rest_capture s.dev 0x50 .request sRights 0x11 0x3F o.collId
  have hfry : (s.dev.capture 0x50 .request sRights 0x11 0x3F o.collId).fry = s.dev.fry := by simp
  have htim : (s.dev.capture 0x50 .request sRights 0x11 0x3F o.collId).tim = s.dev.tim := by simp
  have hdev : s.dev.collCredit m = (s.dev.capture 0x50 .request sRights 0x11 0x3F o.collId).collFail op sRights := by
    rw [Dev.collCredit, Dev.collsLate_only hcolls hover]
    dsimp only
    rw [hid, Dev.collOf_only hcolls hop ho hdst hl habort]
    dsimp only
    rw [hr]
    dsimp only
    rw [if_pos (by simpa [hg] using hne), hoid]
  generalize s.dev.capture 0x50 .request sRights 0x11 0x3F o.collId = k at hdev herr hrest hfry htim
  have hkc : k.coll op = some c := (Dev.coll_congr hfry op).trans (Dev.coll_only hcolls hop)
  have hkover : k.collOver c = false := by rw [Dev.collOver, htim]; exact hover
  have hfail : k.collFail op sRights = k.collAbort op (sRights, o.collRank, c.step) true o.abortRanks := by
    rw [Dev.collFail, hkc, (Dev.fop_congr hfry op).trans ho]
    simp [hkover]
  obtain ⟨hafry, harest, haerr, -⟩ := Dev.collAbort_does (sRights, o.collRank, c.step) true hkc ((Dev.fop_congr hfry op).trans ho) habort o.abortRanks
  rw [hfail] at hdev
  refine ⟨_, Coll.aborting (sRights, o.collRank, c.step) c, collCredit_takes hrun hdom hdev, ?_⟩
  rw [settle_quiet (quiet_rest (harest.trans hrest) hq)]
  exact ⟨rfl, (Dev.coll_congr hafry op).trans (Dev.coll_setColl (by exact fun _ => rfl) hkc), rfl, haerr.trans herr⟩

/-- The collective once rank `r` has given it credits, those of an acknowledged segment's place among them. -/
def Coll.credited (r : Nat) (m : CollCredit) (c : Coll) : Coll :=
  { c with credits := nset c.credits r (nget c.credits r + m.slots)
           sent := c.sent.filter (fun x => !(x.peer == r && m.ack == some (x.s.step, x.s.chunk, x.s.seg))) }

theorem collCredit_counts (h : collRuns op o c s) (hid : m.collId = o.collId) (hdst : m.dst / 4 = s.dev.node)
    (hl : o.landing = some (m.dst % 4)) (hr : (List.range o.collP).find? (fun r => nth c.ranks r 0 % 512 == m.src) = some r)
    (hg : m.digest = none ∨ m.digest = some o.digest) : ∃ d, d.coll op = some { c.at 0 s with
        credits := nset c.credits r (nget c.credits r + m.slots)
        sent := c.sent.filter (fun x => !(x.peer == r && m.ack == some (x.s.step, x.s.chunk, x.s.seg))) } ∧
      exec (.collCredit m) s = .next (withPkg s (Pkg.settle (s.store, ((Dev.collGoOn op d).pumpSrc).collsGoOn))) := by
  obtain ⟨hrun, hdom, -, hcolls, hop, ho, -, -, habort, hover⟩ := h
  have hoid : o.id = op := by simpa using List.find?_some ho
  have hcred : (s.dev.setColl op (Coll.credited r m)).coll op = some (Coll.credited r m c) :=
    Dev.coll_setColl (by exact fun _ => rfl) (Dev.coll_only hcolls hop)
  have hfold : ∀ l : List CSent, (l.foldl (fun (d : Dev) q => d.windowAnswer q.eng (m.src / 4) (max m.echo m.cmark) q.s.data.length)
      (s.dev.setColl op (Coll.credited r m))).offWindow = (s.dev.setColl op (Coll.credited r m)).offWindow := fun l =>
    List.foldl_keeps Dev.offWindow (fun a q => Dev.offWindow_windowAnswer (d := a) _ _ _ _) l _
  have hdev : s.dev.collCredit m = ((((c.sent.filter (fun q => !!(q.peer == r && m.ack == some (q.s.step, q.s.chunk, q.s.seg)))).foldl
      (fun (d : Dev) q => d.windowAnswer q.eng (m.src / 4) (max m.echo m.cmark) q.s.data.length)
      (s.dev.setColl op (Coll.credited r m))).collProgress op 0).collGoOn op).pumpSrc.collsGoOn := by
    rw [Dev.collCredit, Dev.collsLate_only hcolls hover]
    dsimp only
    rw [hid, Dev.collOf_only hcolls hop ho hdst hl habort]
    dsimp only
    rw [hr]
    dsimp only
    rw [if_neg (by rcases hg with hg | hg <;> simp [hg]), hoid]
    rfl
  have hoff := hfold (c.sent.filter (fun q => !!(q.peer == r && m.ack == some (q.s.step, q.s.chunk, q.s.seg))))
  generalize List.foldl _ (s.dev.setColl op (Coll.credited r m)) _ = k at hdev hoff
  obtain ⟨⟨hregs, -, -, -, -, -, hfry⟩, ⟨htim, -⟩, -⟩ := Dev.offWindow_iff.1 hoff
  refine ⟨k.collProgress op 0, ?_, collCredit_takes hrun hdom hdev⟩
  rw [Dev.coll_collProgress ((Dev.coll_congr hfry op).trans hcred), Dev.rd_congr (d := k) hregs, htim,
    Dev.rd_congr (d := s.dev.setColl op (Coll.credited r m)) (e := s.dev) rfl]
  rfl

end

/-! ### COLL_SEGMENT_RETRY -/

section
variable {op : Nat} {o : FOp} {c : Coll} {q : CSent} {s : State}

theorem collRetry_of {d : Dev} (ho : d.fop op = some o) (hc : d.coll op = some c) (hsent : c.sent = [q]) :
    d.collRetry op q.s.step q.s.chunk q.s.seg =
      if d.tim.tide < q.sentAt + us (d.rd F.RCV_CFG_REQ_TIMEOUT_US) ∨ d.braked then d else d.collResend o q := by
  rw [Dev.collRetry, ho, hc]
  simp only [hsent, List.find?_cons, beq_self_eq_true, Bool.and_self]

theorem collSegmentRetry_early (h : collRuns op o c s) (hsent : c.sent = [q])
    (hw : s.dev.tim.tide < q.sentAt + us (s.dev.rd F.RCV_CFG_REQ_TIMEOUT_US) ∨ s.dev.braked = true) :
    exec (.collSegmentRetry op q.s.step q.s.chunk q.s.seg) s = .next s := by
  obtain ⟨hrun, -, -, hcolls, hop, ho, -⟩ := h
  refine (onDev_running hrun _).trans ?_
  rw [collRetry_of ho (Dev.coll_only hcolls hop) hsent, if_pos hw]

/-- The collective whose only segment sent goes out again at `t`. -/
def Coll.resent (t : Nat) (q : CSent) (c : Coll) : Coll := { c with sent := c.sent.map (fun x => if x = q then { x with sentAt := t } else x) }

/-- The message that carries a segment. -/
def Dev.segMsg (d : Dev) (o : FOp) (c : Coll) (q : CSent) : CollData :=
  { collId := o.collId, src := globalLanding d.node (o.landing.getD 0), dst := nth c.ranks q.peer 0 % 512, step := q.s.step, chunk := q.s.chunk,
    seg := q.s.seg, ticket := o.ticket, eng := q.eng, data := q.s.data, bounces := q.bounces }

theorem collSegmentRetry_again (h : collRuns op o c s) (hsent : c.sent = [q])
    (hdue : q.sentAt + us (s.dev.rd F.RCV_CFG_REQ_TIMEOUT_US) ≤ s.dev.tim.tide) (hbrake : s.dev.braked = false)
    (hnode : s.dev.hasNode (nth c.ranks q.peer 0 % 512 / 4) = true) : ∃ t m,
      exec (.collSegmentRetry op q.s.step q.s.chunk q.s.seg) s = .next t ∧ t.store = s.store ∧
      t.dev.coll op = some { c.at q.s.step s with sent := [{ q with sentAt := s.dev.tim.tide }] } ∧
      t.dev.out = s.dev.out ++ [.coll (nth c.ranks q.peer 0 % 512 / 4) m] ∧ m.collId = o.collId ∧ m.step = q.s.step ∧ m.chunk = q.s.chunk ∧
      m.seg = q.s.seg ∧ m.ticket = o.ticket ∧ m.data = q.s.data := by
  obtain ⟨hrun, -, -, hcolls, hop, ho, -, -, -, hover⟩ := h
  have hc := Dev.coll_only hcolls hop
  have hoid : o.id = op := by simpa using List.find?_some ho
  have hres : (s.dev.setColl op (Coll.resent s.dev.tim.tide q)).coll op = some (Coll.resent s.dev.tim.tide q c) :=
    Dev.coll_setColl (by exact fun _ => rfl) hc
  have hsend : (s.dev.setColl op (Coll.resent s.dev.tim.tide q)).collSend o c q =
      (s.dev.setColl op (Coll.resent s.dev.tim.tide q)).emit (.coll (nth c.ranks q.peer 0 % 512 / 4) (s.dev.segMsg o c q)) := by
    rw [Dev.collSend, Dev.emitTo]
    exact if_pos hnode
  have hdev : s.dev.collRetry op q.s.step q.s.chunk q.s.seg =
      ((s.dev.setColl op (Coll.resent s.dev.tim.tide q)).collSend o c q).collProgress op q.s.step := by
    rw [collRetry_of ho hc hsent, if_neg (by rw [hbrake]; simpa using hdue), Dev.collResend, hoid, Dev.collTimeout_within hc hover]
    simp only [hc, hsent, List.contains_cons, beq_self_eq_true, Bool.true_or]
    rfl
  rw [hsend] at hdev
  refine ⟨_, s.dev.segMsg o c q, onDev_leaves hrun hdev, rfl, ?_, rfl, rfl, rfl, rfl, rfl, rfl, rfl⟩
  have hemit : ((s.dev.setColl op (Coll.resent s.dev.tim.tide q)).emit (.coll (nth c.ranks q.peer 0 % 512 / 4) (s.dev.segMsg o c q))).coll op =
      some (Coll.resent s.dev.tim.tide q c) := hres
  have hmap : (Coll.resent s.dev.tim.tide q c).sent = [{ q with sentAt := s.dev.tim.tide }] := by simp [Coll.resent, hsent]
  refine (Dev.coll_collProgress hemit _).trans ?_
  rw [Dev.rd_congr (d := (s.dev.setColl op _).emit _) (e := s.dev) rfl, ← hmap]
  rfl

end

/-! ### COLL_ABORT and COLL_STEP_TIMEOUT -/

section
variable {op : Nat} {o : FOp} {c : Coll} {m : CollAbort} {s : State}

theorem collAbort_other (h : collRuns op o c s) (hid : m.collId ≠ o.collId) : exec (.collAbort m) s = .next s := by
  obtain ⟨hrun, -, -, hcolls, hop, ho, -, -, -, hover⟩ := h
  refine (onDev_running hrun _).trans ?_
  rw [Dev.collAbortIn, Dev.collsLate_only hcolls hover, Dev.collOf_other hcolls hop ho hid]

theorem collAbort_aborts (h : collRuns op o c s) (hid : m.collId = o.collId) (hdst : m.dst / 4 = s.dev.node)
    (hl : o.landing = some (m.dst % 4)) : ∃ t q, exec (.collAbort m) s = .next t ∧ t.store = s.store ∧ t.dev.coll op = some q ∧
      q.abort = some (m.status, m.rank, m.step) ∧ q.stage = [] ∧ q.ready = [] ∧ q.sent = [] := by
  obtain ⟨hrun, -, -, hcolls, hop, ho, -, -, habort, hover⟩ := h
  have hoid : o.id = op := by simpa using List.find?_some ho
  have hc := Dev.coll_only hcolls hop
  have hdev : s.dev.collAbortIn m = s.dev.collAbort op (m.status, m.rank, m.step) false (o.neighbours.filter (fun r =>
      some r != (List.range o.collP).find? (fun r => nth c.ranks r 0 % 512 == m.src))) := by
    rw [Dev.collAbortIn, Dev.collsLate_only hcolls hover, hid, Dev.collOf_only hcolls hop ho hdst hl habort, ← hoid]
  obtain ⟨hfry, -⟩ := Dev.collAbort_does (m.status, m.rank, m.step) false hc ho habort (o.neighbours.filter (fun r =>
      some r != (List.range o.collP).find? (fun r => nth c.ranks r 0 % 512 == m.src)))
  refine ⟨_, _, onDev_leaves hrun hdev, rfl, (Dev.coll_congr hfry op).trans (Dev.coll_setColl (by exact fun _ => rfl) hc),
    rfl, rfl, rfl, rfl⟩

theorem collStepTimeout_within (h : collRuns op o c s) : exec (.collStepTimeout op) s = .next s := by
  obtain ⟨hrun, -, -, hcolls, hop, -, -, -, -, hover⟩ := h
  refine (onDev_running hrun _).trans ?_
  rw [Dev.collTimeout_within (Dev.coll_only hcolls hop) hover]

theorem collStepTimeout_over (hrun : s.dev.running = true) (hcolls : s.dev.fry.colls = [c]) (hop : c.op = op) (ho : s.dev.fop op = some o)
    (habort : c.abort = none) (hover : c.progressAt + us c.window ≤ s.dev.tim.tide) : ∃ t q, exec (.collStepTimeout op) s = .next t ∧
      t.store = s.store ∧ t.dev.coll op = some q ∧ q.abort = some (sTimeout, o.collRank, c.step) := by
  have hc := Dev.coll_only hcolls hop
  have hend : s.dev.collOver c = true := by simp [Dev.collOver, habort, hover]
  have hdev : s.dev.collTimeout op = s.dev.collAbort op (sTimeout, o.collRank, c.step) true o.abortRanks := by
    rw [Dev.collTimeout, hc]
    simp only [hend, if_true]
    rw [Dev.collFail, hc, ho]
    simp only [hend, if_true]
  obtain ⟨hfry, -⟩ := Dev.collAbort_does (sTimeout, o.collRank, c.step) true hc ho habort o.abortRanks
  exact ⟨_, _, onDev_leaves hrun hdev, rfl, (Dev.coll_congr hfry op).trans (Dev.coll_setColl (by exact fun _ => rfl) hc), rfl⟩

end

end Sys2Proof.Machine


/-!
SUPPORT. O44 and O46, a package that has nothing to do but jobs that are ready: it goes on with those, and with nothing else.
-/
namespace Sys2Proof.Machine

/-! ### What the home's checks leave -/

section
variable (d : Dev)

theorem Dev.works_homeRefused (st addr src : Nat) : (d.homeRefused st addr src).works = d.works := by
  rw [Dev.homeRefused, Dev.homeStatus, Dev.works_capture, Dev.works_count]

theorem Dev.works_drawCountdown (k : Nat) : (d.drawCountdown k).2.works = d.works := rfl

theorem Dev.works_sample (wr : Bool) (k page landing : Nat) : (d.sample wr k page landing).works = d.works := by
  rw [Dev.sample]
  split
  · rfl
  · by_cases hc : nget d.home.cntdn k = 0
    all_goals
      simp only [hc, if_true, if_false]
      rw [apply_ite Dev.works, Dev.works_count]
      exact ite_eq_iff'.2 ⟨fun _ => rfl, fun _ => rfl⟩

theorem Dev.works_admitted (n : Nat) (h : Hdr) (image : Bool) (k : AKind) (gpa : Nat) : (d.admitted n h image k gpa).works = d.works := by
  have hadd : ((d.inflAdd n (gpaExt gpa)).count 0x28 0 1).works = d.works := Dev.works_count ..
  rw [Dev.admitted]
  split
  · exact (Dev.works_sample _ _ _ _ _).trans hadd
  · exact hadd

theorem Pkg.works_grantCheck (x : Pkg) (n : Nat) (h : Hdr) (k : AKind) (gpa : Nat) : (x.grantCheck n h k gpa).2.works = x.2.works := by
  unfold Pkg.grantCheck
  dsimp only
  split_ifs
  iterate 3 rfl
  · exact Dev.works_count ..
  iterate 6 rfl

end

/-! ### Jobs that are ready -/

/-- What jobs leave as it is as they go on: landings, requests, the host port, transfers, dispatches, operations. -/
def Dev.offJobs (d : Dev) : List Lnd × Src × HostPort × List Xfer × List DispReq × List FOp :=
  (d.lnd, d.src, d.host, d.fry.xfers, d.fry.disp, d.fry.ops)

section
variable {d e : Dev}

theorem Dev.offJobs_of_works (h : e.works = d.works) : e.offJobs = d.offJobs := by
  obtain ⟨hlnd, hsrc, hfry, hhost⟩ : e.lnd = d.lnd ∧ e.src = d.src ∧ e.fry = d.fry ∧ e.host = d.host := by simpa [Dev.works] using h
  simp only [Dev.offJobs, hlnd, hsrc, hfry, hhost]

theorem Dev.offJobs_jobFail (op st : Nat) : (d.jobFail op st).offJobs = d.offJobs := rfl

theorem Dev.offJobs_sliceStart (a : Nat) : (d.sliceStart a).offJobs = d.offJobs :=
  Dev.offJobs_of_works (d := Dev.setArr ..) (Dev.works_count ..)

theorem Pkg.spanAccess_frame (o : FOp) (ks : List Nat) (x : Pkg) :
    (x.spanAccess o ks).2.2.1 = x.1 ∧ (x.spanAccess o ks).2.2.2.works = x.2.works := by
  rw [Pkg.spanAccess]
  refine List.foldlRecOn (motive := fun (a : Nat × List (Nat × Nat) × Pkg) => a.2.2.1 = x.1 ∧ a.2.2.2.works = x.2.works) ks _ ⟨rfl, rfl⟩ fun a ha k _ => ?_
  dsimp only
  have hgrant : (if o.landing.isNone = true then (sRights, a.2.2.2)
      else a.2.2.grantCheck a.2.2.2.node (a.2.2.2.spanHdr o) .spanRead (extGpa a.2.2.2.node k 0)).2.works = x.2.works := by
    split
    · exact ha.2
    · exact (Pkg.works_grantCheck ..).trans ha.2
  generalize (if o.landing.isNone = true then (sRights, a.2.2.2)
      else a.2.2.grantCheck a.2.2.2.node (a.2.2.2.spanHdr o) .spanRead (extGpa a.2.2.2.node k 0)) = g at hgrant ⊢
  split
  · exact ha
  · split
    · exact ⟨ha.1, (Dev.works_admitted ..).trans hgrant⟩
    · exact ⟨ha.1, (Dev.works_homeRefused ..).trans hgrant⟩

theorem Pkg.jobXlated_frame (op : Nat) (x : Pkg) : (x.jobXlated op).1 = x.1 ∧ (x.jobXlated op).2.offJobs = x.2.offJobs := by
  rw [Pkg.jobXlated]
  split
  · exact ⟨rfl, rfl⟩
  · next o ho =>
    split
    · exact ⟨rfl, rfl⟩
    · split
      · next e he =>
        refine ⟨rfl, ?_⟩
        rw [Pkg.dev, Dev.offJobs_jobFail]
        split
        · exact Dev.offJobs_of_works (Dev.works_capture ..)
        · rfl
      · next ks hks =>
        split
        · exact ⟨rfl, rfl⟩
        · obtain ⟨hstore, hworks⟩ := Pkg.spanAccess_frame o ks x
          have hset : ∀ f, (Dev.setJob op f (x.spanAccess o ks).2.2.2).offJobs = x.2.offJobs := fun _ => Dev.offJobs_of_works (e := (x.spanAccess o ks).2.2.2) hworks
          dsimp only
          split
          · exact List.foldlRecOn (motive := fun (y : Pkg) => y.1 = x.1 ∧ y.2.offJobs = x.2.offJobs) _ _ ⟨hstore, hset _⟩
              fun y hy a _ => ⟨hy.1, (Dev.offJobs_sliceStart a).trans hy.2⟩
          · exact ⟨hstore, (Dev.offJobs_jobFail ..).trans (hset _)⟩

/-- The package waits for something from outside, jobs that are ready apart. -/
def Dev.awaits (d : Dev) : Prop :=
  d.fry.xfers = [] ∧ (∀ p < 5, d.portQ p = []) ∧ (∀ n < 4, (d.lndOf n).gate = []) ∧ d.host.gate = [] ∧ d.src.noNode = [] ∧
  ∀ a ∈ d.fry.disp, a.stage ≠ 4

theorem Dev.awaits_congr (h : e.offJobs = d.offJobs) (hd : d.awaits) : e.awaits := by
  obtain ⟨hlnd, hsrc, hhost, hxfers, hdisp, -⟩ : e.lnd = d.lnd ∧ e.src = d.src ∧ e.host = d.host ∧ e.fry.xfers = d.fry.xfers ∧
    e.fry.disp = d.fry.disp ∧ e.fry.ops = d.fry.ops := by simpa [Dev.offJobs] using h
  have hof : ∀ n, e.lndOf n = d.lndOf n := fun n => by rw [Dev.lndOf, Dev.lndOf, hlnd]
  have hport : ∀ p, e.portQ p = d.portQ p := fun p => by rw [Dev.portQ, Dev.portQ, hof, hhost]
  obtain ⟨h1, h2, h3, h4, h5, h6⟩ := hd
  exact ⟨hxfers.trans h1, fun p hp => (hport p).trans (h2 p hp), fun n hn => by rw [hof]; exact h3 n hn, by rw [hhost]; exact h4,
    by rw [hsrc]; exact h5, by rw [hdisp]; exact h6⟩

theorem Dev.awaits_of_quiet (h : quiet d) : d.awaits := by
  obtain ⟨h1, h2, h3, h4, h5, -, h7⟩ := h
  exact ⟨h1, h2, h3, h4, h5, h7⟩

end

theorem settleOne_awaits {x : Pkg} (h : x.2.awaits) : x.settleOne = x.jobStep := by
  obtain ⟨hxfers, hports, hgates, hhost, hnoNode, hdisp⟩ := h
  have h1 : x.2.xferTake = none := by simp [Dev.xferTake, hxfers, takeFirst]
  have h2 : (List.range 4).findSome? (fun n => x.dockStep n) = none :=
    List.findSome?_eq_none_iff.2 fun n hn => dockStep_none (hports n (by simp at hn; omega))
  have h3 : (List.range 5).findSome? (fun p => x.portStep p) = none :=
    List.findSome?_eq_none_iff.2 fun n hn => portStep_none (hports n (by simpa using hn))
  have h4 : (List.range 4).findSome? (fun n => x.lndGateStep n) = none :=
    List.findSome?_eq_none_iff.2 fun n hn => lndGateStep_none (hgates n (by simpa using hn))
  rw [Pkg.settleOne, h1, h2, h3, h4, hostGateStep_none hhost, noNodeStep_none hnoNode]
  cases x.jobStep with
  | none => exact dispStep_none hdisp
  | some y => rfl

theorem jobStep_frame {x y : Pkg} (h : x.jobStep = some y) : y.1 = x.1 ∧ y.2.offJobs = x.2.offJobs := by
  obtain ⟨l, j, r, -, hj, -⟩ := List.findSome?_eq_some_iff.1 h
  split at hj
  · obtain ⟨-, hy⟩ := Option.ite_none_right_eq_some.1 hj
    cases hy
    exact Pkg.jobXlated_frame ..
  · cases hj

/-- Such a package goes on with its jobs alone. -/
theorem settleFor_awaits (n : Nat) : ∀ x : Pkg, x.2.awaits → (Pkg.settleFor n x).1 = x.1 ∧ (Pkg.settleFor n x).2.offJobs = x.2.offJobs := by
  induction n with
  | zero => exact fun x _ => ⟨rfl, rfl⟩
  | succ n ih =>
    intro x hx
    rw [Pkg.settleFor, settleOne_awaits hx]
    split
    · next y hy =>
      obtain ⟨hstore, hoff⟩ := jobStep_frame hy
      obtain ⟨h1, h2⟩ := ih y (Dev.awaits_congr hoff hx)
      exact ⟨h1.trans hstore, h2.trans hoff⟩
    · exact ⟨rfl, rfl⟩

theorem settle_awaits {x : Pkg} (h : x.2.awaits) : x.settle.1 = x.1 ∧ x.settle.2.offJobs = x.2.offJobs := settleFor_awaits _ x h

theorem Dev.fop_offJobs {d e : Dev} (h : e.offJobs = d.offJobs) (op : Nat) : e.fop op = d.fop op := by
  have hops : e.fry.ops = d.fry.ops := congrArg (fun t => t.2.2.2.2.2) h
  rw [Dev.fop, Dev.fop, hops]

end Sys2Proof.Machine


/-!
SUPPORT. O44, how a collective ends: OUT left undefined, its arrays free again, its operation complete.
-/
namespace Sys2Proof.Machine

/-! ### Undefined bytes in memory -/

/-- `e` is `d` but for the home, counters and draws, and for what the watches of its operations have seen. -/
structure Dev.Spoilt (d e : Dev) : Prop extends Dev.Watched d e where
  fry : e.fry = { d.fry with ops := e.fry.ops }
  lnd : e.lnd = d.lnd
  src : e.src = d.src
  host : e.host = d.host

namespace Dev.Spoilt

theorem of_works {d e : Dev} (h : e.works = d.works) : d.Spoilt e := by
  obtain ⟨hlnd, hsrc, hfry, hhost⟩ : e.lnd = d.lnd ∧ e.src = d.src ∧ e.fry = d.fry ∧ e.host = d.host := by simpa [Dev.works] using h
  exact ⟨.of_fry hfry, by rw [hfry], hlnd, hsrc, hhost⟩

theorem refl (d : Dev) : d.Spoilt d := of_works rfl

theorem trans {d e f : Dev} (h : d.Spoilt e) (k : e.Spoilt f) : d.Spoilt f :=
  ⟨h.toWatched.trans k.toWatched, k.fry.trans (by rw [h.fry]), k.lnd.trans h.lnd, k.src.trans h.src, k.host.trans h.host⟩

theorem awaits {d e : Dev} (h : d.Spoilt e) (hd : d.awaits) : e.awaits := by
  have hof : ∀ n, e.lndOf n = d.lndOf n := fun n => by rw [Dev.lndOf, Dev.lndOf, h.lnd]
  have hport : ∀ p, e.portQ p = d.portQ p := fun p => by rw [Dev.portQ, Dev.portQ, hof, h.host]
  obtain ⟨h1, h2, h3, h4, h5, h6⟩ := hd
  exact ⟨by rw [h.fry]; exact h1, fun p hp => (hport p).trans (h2 p hp), fun n hn => by rw [hof]; exact h3 n hn, by rw [h.host]; exact h4,
    by rw [h.src]; exact h5, by rw [h.fry]; exact h6⟩

theorem coll {d e : Dev} (h : d.Spoilt e) (op : Nat) : e.coll op = d.coll op := by rw [Dev.coll, h.fry]; rfl

theorem opBusy {d e : Dev} (h : d.Spoilt e) (op : Nat) : e.opBusy op = d.opBusy op := by
  rw [Dev.opBusy, Dev.opBusy, Dev.liveAccs, Dev.liveAccs, h.src, h.fry]

end Dev.Spoilt

theorem Dev.works_checkBurst (wr : Bool) (l : Nat) (d : Dev) : (d.checkBurst wr l).works = d.works := by
  unfold Dev.checkBurst
  split
  · rfl
  · dsimp only
    split
    · rfl
    · rw [Dev.works_count]
      split <;> rfl

theorem Pkg.spoilt_writeLine (x : Pkg) (l : Nat) (v : List Byte) (c : Cover) : x.2.Spoilt (x.writeLine l v c).2 := by
  have hworks : ((x.2.checkBurst true l).fixWritten l).works = x.2.works := Dev.works_checkBurst true l x.2
  rw [Pkg.writeLine, Pkg.dev, Pkg.setLine]
  exact (Dev.Spoilt.of_works hworks).trans ⟨Dev.watched_watchNote _ _, rfl, rfl, rfl, rfl⟩

theorem Pkg.spoilt_freePart (o : FOp) (kind : AKind) (p : XPart) (x : Pkg) : x.2.Spoilt (x.freePart o kind p).2 := by
  rw [Pkg.freePart]
  split
  · exact .refl _
  · dsimp only
    split
    · exact .refl _
    · split
      · exact .refl _
      · have hfree : x.2.Spoilt (x.2.freeBytes p.len).2 := .of_works rfl
        refine List.foldlRecOn (motive := fun (y : Pkg) => x.2.Spoilt y.2) _ _ hfree fun y hy w _ => ?_
        split
        · exact hy.trans (y.spoilt_writeLine _ _ _)
        · exact hy

/-- What leaves OUT undefined touches memory, and what watches it. -/
theorem Pkg.spoilt_collSpoil (o : FOp) (x : Pkg) : x.2.Spoilt (x.collSpoil o).2 := by
  rw [Pkg.collSpoil]
  refine List.foldlRecOn (motive := fun (y : Pkg) => x.2.Spoilt y.2) _ _ (.refl _) fun y hy p _ => ?_
  dsimp only
  split
  · exact hy.trans (y.spoilt_freePart _ _ _)
  · exact hy

/-- A rank without OUT leaves none undefined. -/
theorem Pkg.collSpoil_none {o : FOp} (h : o.outLen = 0) (x : Pkg) : x.collSpoil o = x := by
  rw [Pkg.collSpoil, h, FOp.outRuns, vecRuns, if_pos rfl]
  rfl

/-! ### Arrays and slot -/

section
variable {d : Dev} {op : Nat} {o : FOp} {c : Coll}

/-- A collective that has ended holds no array. -/
theorem Dev.collFree_does (hcolls : d.fry.colls = [c]) (hop : c.op = op) : (d.collFree op).fry.colls = [] ∧ (d.collFree op).fop op = d.fop op ∧
    (d.collFree op).arr = fun a => nth (d.fry.arrs.map (fun r => if r.heldBy = some op then { r with heldBy := none, lastRun := d.tim.tide } else r)) a {} := by
  refine ⟨?_, rfl, rfl⟩
  rw [Dev.collFree, hcolls]
  simp [Dev.bump, Dev.wr, Dev.wrpi, hop]

theorem nth_map_lt {α β : Type} (f : α → β) (l : List α) {i : Nat} (h : i < l.length) (a : α) (b : β) : nth (l.map f) i b = f (nth l i a) := by
  simp [nth, h]

/-- An array held by the collective is free once it has ended. -/
theorem Dev.heldBy_collFree (hcolls : d.fry.colls = [c]) (hop : c.op = op) {a : Nat} (ha : a < d.fry.arrs.length) (hheld : (d.arr a).heldBy = some op) :
    ((d.collFree op).arr a).heldBy = none := by
  rw [(Dev.collFree_does hcolls hop).2.2]
  dsimp only
  rw [nth_map_lt _ _ ha {}, if_pos (show (nth d.fry.arrs a {}).heldBy = some op from hheld)]

end

/-! ### COLL_COMPLETE and COLL_ABORT_DONE -/

section
variable {op st r n : Nat} {o : FOp} {c : Coll} {s : State}

/-- Everything that the rank owes and expects is there. -/
def Coll.whole (o : FOp) (c : Coll) : Bool :=
  o.owes.all c.final.contains && o.expects.all (fun q => (List.range (o.segNum q.2)).all (fun j => c.seen.contains (q.1, q.2, j)))

theorem Dev.collComplete_of {d : Dev} (hc : d.coll op = some c) (hover : d.collOver c = false) (ho : d.fop op = some o) :
    d.collComplete op = if c.running ∧ c.abort.isNone ∧ c.whole o ∧ c.stage.isEmpty ∧ c.work.isEmpty ∧ c.ready.isEmpty ∧ c.sent.isEmpty ∧
      !d.opBusy op then (d.collFree op).opEnded op sOk else d := by
  rw [Dev.collComplete, Dev.collTimeout_within hc hover, ho, hc]
  rfl

theorem collComplete_waits (h : collRuns op o c s)
    (hw : c.whole o = false ∨ c.stage ≠ [] ∨ c.work ≠ [] ∨ c.ready ≠ [] ∨ c.sent ≠ [] ∨ s.dev.opBusy op = true) :
    exec (.collComplete op) s = .next s := by
  obtain ⟨hrun, -, -, hcolls, hop, ho, -, -, -, hover⟩ := h
  refine (onDev_leaves hrun (Dev.collComplete_of (Dev.coll_only hcolls hop) hover ho)).trans ?_
  rw [if_neg]
  rintro ⟨-, -, hwhole, hstage, hwork, hready, hsent, hbusy⟩
  rcases hw with hw | hw | hw | hw | hw | hw
  · rw [hw] at hwhole; cases hwhole
  · exact hw (List.isEmpty_iff.1 hstage)
  · exact hw (List.isEmpty_iff.1 hwork)
  · exact hw (List.isEmpty_iff.1 hready)
  · exact hw (List.isEmpty_iff.1 hsent)
  · rw [hw] at hbusy; cases hbusy

theorem collComplete_ends (h : collRuns op o c s) (hshape : shaped s.dev) (hsig : o.fld 0 14 1 = 0) (hwhole : c.whole o = true) (hstage : c.stage = [])
    (hwork : c.work = []) (hready : c.ready = []) (hsent : c.sent = []) (hbusy : s.dev.opBusy op = false) : ∃ t q,
      exec (.collComplete op) s = .next t ∧ t.store = s.store ∧ t.dev.fry.colls = [] ∧ t.dev.fop op = some q ∧ q.state = .complete ∧
      q.status = sOk ∧ ∀ a < 16, (s.dev.arr a).heldBy = some op → (t.dev.arr a).heldBy = none := by
  obtain ⟨hrun, -, -, hcolls, hop, ho, hret, hgo, habort, hover⟩ := h
  obtain ⟨-, -, -, -, -, harrs, -⟩ := hshape
  have hdev := Dev.collComplete_of (Dev.coll_only hcolls hop) hover ho
  rw [if_pos (by simp [hgo, habort, hwhole, hstage, hwork, hready, hsent, hbusy])] at hdev
  obtain ⟨hfree, hfop, -⟩ := Dev.collFree_does hcolls hop
  have hheld := fun a (ha : a < 16) => Dev.heldBy_collFree (d := s.dev) hcolls hop (a := a) (by omega)
  generalize s.dev.collFree op = e at hdev hfree hfop hheld
  obtain ⟨-, hend⟩ := Dev.opEnded_completes (st := sOk) (hfop.trans ho) hret hsig
  have hfry : (e.opEnded op sOk).fry.colls = e.fry.colls ∧ (e.opEnded op sOk).arr = e.arr := by
    rw [Dev.opEnded, hfop, ho]
    dsimp only
    rw [if_neg (by simp [hret]), if_neg (by simp [hsig])]
    exact ⟨rfl, rfl⟩
  refine ⟨_, _, onDev_leaves hrun hdev, rfl, hfry.1.trans hfree, hend, rfl, rfl, fun a ha hh => ?_⟩
  rw [hfry.2]
  exact hheld a ha hh

theorem collAbortDone_runs (h : collRuns op o c s) : exec (.collAbortDone op) s = .next s := by
  obtain ⟨hrun, hdom, -, hcolls, hop, ho, -, -, habort, -⟩ := h
  refine (onPkg_leaves (x := (s.store, s.dev)) hrun hdom ?_).trans rfl
  rw [Pkg.collAbortDone]
  simp only [Dev.coll_only hcolls hop, ho, habort]
  exact if_pos (.inl rfl)

theorem collAbortDone_busy (hrun : s.dev.running = true) (hdom : s.dev.domOn 11 = true) (hcolls : s.dev.fry.colls = [c]) (hop : c.op = op)
    (ho : s.dev.fop op = some o) (hbusy : s.dev.opBusy op = true) : exec (.collAbortDone op) s = .next s := by
  refine (onPkg_leaves (x := (s.store, s.dev)) hrun hdom ?_).trans rfl
  rw [Pkg.collAbortDone]
  simp only [Dev.coll_only hcolls hop, ho, hbusy]
  exact if_pos (.inr trivial)

theorem collAbortDone_ends (hrun : s.dev.running = true) (hdom : s.dev.domOn 11 = true) (hcolls : s.dev.fry.colls = [c]) (hop : c.op = op)
    (ho : s.dev.fop op = some o) (hret : o.retired = false) (hsig : o.fld 0 14 1 = 0) (habort : c.abort = some (st, r, n))
    (hbusy : s.dev.opBusy op = false) : ∃ t q, exec (.collAbortDone op) s = .next t ∧ t.store = (Pkg.collSpoil o (s.store, s.dev)).1 ∧
      (o.outLen = 0 → t.store = s.store) ∧ t.dev.fry.colls = [] ∧
      t.dev.fop op = some q ∧ q.state = .complete ∧ q.status = st ∧ q.stop = r % 512 + n % 1024 * 512 := by
  have hsp := Pkg.spoilt_collSpoil o (s.store, s.dev)
  have hdone : Pkg.collAbortDone op (s.store, s.dev) = (Pkg.collSpoil o (s.store, s.dev)).dev (Dev.collAborted op) := by
    rw [Pkg.collAbortDone]
    simp only [Dev.coll_only hcolls hop, ho, hbusy, habort]
    exact if_neg (by simp)
  have hzero : o.outLen = 0 → (Pkg.collSpoil o (s.store, s.dev)).1 = s.store := fun h => by rw [Pkg.collSpoil_none h]
  generalize Pkg.collSpoil o (s.store, s.dev) = y at hsp hdone hzero
  obtain ⟨w, hw⟩ := hsp.fop op o ho
  have hycolls : y.2.fry.colls = [c] := by rw [hsp.fry]; exact hcolls
  obtain ⟨hfree, hfop, -⟩ := Dev.collFree_does hycolls hop
  have habt : y.2.collAborted op = ((y.2.collFree op).setFop op (fun o => { o with stop := r % 512 + n % 1024 * 512 })).opEnded op st := by
    rw [Dev.collAborted, Dev.coll_only hycolls hop]
    dsimp only
    rw [habort]
    dsimp only
    rw [if_neg (by rw [hsp.opBusy, hbusy]; decide)]
  generalize y.2.collFree op = e at hfree hfop habt
  have hstop : (e.setFop op (fun o => { o with stop := r % 512 + n % 1024 * 512 })).fop op =
      some { o with waits := w, stop := r % 512 + n % 1024 * 512 } := by
    refine (Dev.fop_setFop ?_ _).trans ?_
    · exact fun _ => rfl
    · rw [if_pos rfl, hfop, hw]
      rfl
  obtain ⟨-, hend⟩ := Dev.opEnded_completes (st := st) hstop hret hsig
  have hcollsEnd : ((e.setFop op (fun o => { o with stop := r % 512 + n % 1024 * 512 })).opEnded op st).fry.colls = e.fry.colls := by
    rw [Dev.opEnded, hstop]
    dsimp only
    rw [if_neg (by simp [hret]), if_neg (by exact fun h => absurd (h.1.symm.trans hsig) (by decide))]
    rfl
  refine ⟨_, _, onPkg_leaves hrun hdom hdone, rfl, hzero, ?_, (congrArg (Dev.fop · op) habt).trans hend, rfl, rfl, rfl⟩
  exact (congrArg (fun d => d.fry.colls) habt).trans (hcollsEnd.trans hfree)

end

end Sys2Proof.Machine


/-!
SUPPORT. O44, whatever a collective does: one that runs goes on running, or aborts, and the arrays it holds are held.
-/
namespace Sys2Proof.Machine

/-- What the collectives of `d` may become while they go on: those that run are still there, running or aborting, and their arrays are
what they were. -/
structure Dev.CollsOn (d e : Dev) : Prop where
  runs : ∀ op, (d.coll op).any (·.running) = true → (e.coll op).any (·.running) = true
  arrs : e.fry.arrs = d.fry.arrs

namespace Dev.CollsOn

theorem of_arrs {d e : Dev} (h : e.fry.colls = d.fry.colls) (ha : e.fry.arrs = d.fry.arrs) : d.CollsOn e :=
  ⟨fun op hr => by rw [Dev.coll, h]; exact hr, ha⟩

theorem of_fry {d e : Dev} (h : e.fry = d.fry) : d.CollsOn e := of_arrs (by rw [h]) (by rw [h])

theorem of_sends {d e : Dev} (h : d.Sends e) : d.CollsOn e := by
  obtain ⟨_, _, _, rfl⟩ := h
  exact of_fry rfl

theorem refl (d : Dev) : d.CollsOn d := of_fry rfl

theorem trans {d e f : Dev} (h : d.CollsOn e) (k : e.CollsOn f) : d.CollsOn f :=
  ⟨fun op hr => k.runs op (h.runs op hr), k.arrs.trans h.arrs⟩

theorem ite {d e f : Dev} {c : Prop} [Decidable c] (he : d.CollsOn e) (hf : d.CollsOn f) : d.CollsOn (if c then e else f) := by
  split
  · exact he
  · exact hf

theorem foldl {α : Type} {f : Dev → α → Dev} (h : ∀ (d : Dev) x, d.CollsOn (f d x)) (l : List α) : ∀ d : Dev, d.CollsOn (l.foldl f d) := by
  induction l with
  | nil => exact fun d => .refl d
  | cons a l ih => exact fun d => (h d a).trans (ih _)

end Dev.CollsOn

section
variable (d : Dev)

theorem Dev.collsOn_setColl (op : Nat) {f : Coll → Coll} (hop : ∀ c, (f c).op = c.op) (hrun : ∀ c, c.running = true → (f c).running = true) :
    d.CollsOn (d.setColl op f) := by
  refine ⟨fun n hn => ?_, rfl⟩
  obtain ⟨c, hc, hr⟩ := (Option.any_eq_true _ _).1 hn
  by_cases h : n = op
  · subst h
    rw [Dev.coll_setColl hop hc]
    exact hrun c hr
  · have hsame : (d.setColl op f).coll n = d.coll n := by
      refine List.find?_mapFirst_ne (fun c hc => ?_) _
      rw [hop, beq_iff_eq.1 hc]
      simp [Ne.symm h]
    rw [hsame]
    exact hn

theorem Dev.collsOn_collAbort (op : Nat) (a : Nat × Nat × Nat) (origin : Bool) (to_ : List Nat) : d.CollsOn (d.collAbort op a origin to_) := by
  cases hc : d.coll op with
  | none => rw [Dev.collAbort, hc]; exact .refl d
  | some c =>
    cases ho : d.fop op with
    | none => rw [Dev.collAbort, hc, ho]; exact .refl d
    | some o =>
      cases habort : c.abort with
      | some b => rw [Dev.collAbort, hc, ho]; dsimp only; rw [habort]; exact .refl d
      | none =>
        exact (d.collsOn_setColl op (f := Coll.aborting a) (fun _ => rfl) (fun _ h => h)).trans
          (.of_fry (Dev.collAbort_does a origin hc ho habort to_).1)

theorem Dev.collsOn_collFail (op st : Nat) : d.CollsOn (d.collFail op st) := by
  rw [Dev.collFail]
  split
  · exact d.collsOn_collAbort ..
  · exact .refl d

theorem Dev.collsOn_collTimeout (op : Nat) : d.CollsOn (d.collTimeout op) := by
  rw [Dev.collTimeout]
  split
  · split
    · exact d.collsOn_collFail ..
    · exact .refl d
  · exact .refl d

theorem Dev.collsOn_collsLate : d.CollsOn d.collsLate := .foldl (fun d (c : Coll) => d.collsOn_collTimeout c.op) _ _

theorem Dev.collsOn_collProgress (op step : Nat) : d.CollsOn (d.collProgress op step) :=
  d.collsOn_setColl op (fun _ => rfl) (fun _ h => h)

theorem Dev.collsOn_xferGo (o : FOp) (eng : Nat) (key : XKey) (kind : AKind) (mfmt cfmt : Nat) (parts : List XPart) :
    d.CollsOn (d.xferGo o eng key kind mfmt cfmt parts) := by
  obtain ⟨x, hfry, -⟩ := Dev.xferGo_xfers (d := d) o eng key kind mfmt cfmt parts
  exact .of_arrs (by rw [hfry]) (by rw [hfry])

theorem Dev.collsOn_count (p i k : Nat) : d.CollsOn (d.count p i k) := .of_fry (by simp)

theorem Dev.collsOn_collWork (a n : Nat) (evs : List Ev) : d.CollsOn (d.collWork a n evs) :=
  ((Dev.CollsOn.foldl (fun d _ => d.collsOn_count ..) _ _).trans (.foldl (fun d _ => d.collsOn_count ..) _ _)).trans
    (Dev.collsOn_count _ _ _ _)

theorem Dev.collsOn_collFinal (o : FOp) (c j : Nat) : d.CollsOn (d.collFinal o c j) := by
  rw [Dev.collFinal]
  have hfinal : d.CollsOn (d.setColl o.id (fun x => { x with final := x.final ++ [(c, j)] })) :=
    d.collsOn_setColl _ (fun _ => rfl) (fun _ h => h)
  dsimp only
  split
  · exact hfinal
  · split
    · have hcounted := hfinal.trans (Dev.collsOn_setColl _ o.id (f := fun x => { x with counted := x.counted ++ [c] }) (fun _ => rfl) (fun _ h => h))
      split
      · exact hcounted.trans (Dev.collsOn_xferGo ..)
      · exact hcounted
    · exact hfinal

theorem Dev.collsOn_collWrite (o : FOp) (c j n : Nat) (v : FConv) : d.CollsOn (d.collWrite o c j n v) := by
  rw [Dev.collWrite]
  split
  dsimp only
  rename_i v' d' hv
  have hd : d.CollsOn d' := by
    split at hv
    all_goals
      obtain ⟨-, rfl⟩ := Prod.mk.inj hv
      exact .of_fry rfl
  exact hd.trans (.ite (Dev.collsOn_collFinal ..) (Dev.collsOn_xferGo ..))

theorem Dev.collsOn_collStore (o : FOp) (c j n : Nat) (wire : List Byte) : d.CollsOn (d.collStore o c j n wire) := by
  rw [Dev.collStore]
  have hctr : ∀ n, d.CollsOn { d with freeCtr := n } := fun n => .of_fry rfl
  dsimp only
  generalize convertVec (fmtWord o.wireFmt) { fmtWord o.outFmt with stoch := false } n (o.wireParts n wire).1 (o.wireParts n wire).2 d.freeCtr = v
  exact ((hctr v.ctr).trans (Dev.collsOn_collWork _ _ _ _)).trans (Dev.collsOn_collWrite _ _ _ _ _ _)

theorem Dev.collsOn_ctrl (n : Nat) (m : CtrlMsg) : d.CollsOn (d.ctrl n m) := .of_fry (by simp)

theorem Dev.collsOn_collGrant (o : FOp) (r step slots : Nat) (ack : Option (Nat × Nat × Nat)) (echo : Nat) :
    d.CollsOn (d.collGrant o r step slots ack echo) := by
  rw [Dev.collGrant]
  split
  · exact .refl d
  · dsimp only
    refine Dev.CollsOn.trans ?_ (Dev.collsOn_ctrl ..)
    exact d.collsOn_setColl _ (fun _ => rfl) (fun _ h => h)

theorem Dev.collsOn_collSend (o : FOp) (c : Coll) (g : CSent) : d.CollsOn (d.collSend o c g) := by
  rw [Dev.collSend, Dev.emitTo]
  exact .ite (.of_sends (d.sends_emit _)) (.refl d)

theorem Dev.collsOn_collResend (o : FOp) (s : CSent) : d.CollsOn (d.collResend o s) := by
  rw [Dev.collResend]
  have hlate := d.collsOn_collTimeout o.id
  generalize d.collTimeout o.id = e at hlate
  dsimp only
  split
  · exact hlate
  · split
    · exact hlate
    · refine (Dev.CollsOn.trans (hlate.trans ?_) (Dev.collsOn_collSend ..)).trans (Dev.collsOn_collProgress ..)
      exact e.collsOn_setColl _ (fun _ => rfl) (fun _ h => h)

theorem Dev.collsOn_collQueue (o : FOp) (s : CSeg) : d.CollsOn (d.collQueue o s) := d.collsOn_setColl _ (fun _ => rfl) (fun _ h => h)

theorem Dev.collsOn_collRead (o : FOp) (step c j : Nat) : d.CollsOn (d.collRead o step c j) := d.collsOn_xferGo ..

theorem Dev.collsOn_collSends (o : FOp) : d.CollsOn (d.collSends o) := by
  rw [Dev.collSends]
  have hlate := d.collsOn_collTimeout o.id
  generalize d.collTimeout o.id = e at hlate
  dsimp only
  split
  · exact hlate
  · refine hlate.trans (List.foldlRecOn (motive := fun (y : Dev × List (Nat × Nat)) => e.CollsOn y.1) _ _ (.refl e) fun y hy q _ => ?_)
    split
    · exact hy
    · split
      · exact hy
      · split
        · exact hy
        · refine (Dev.CollsOn.trans (hy.trans ?_) (Dev.collsOn_collSend ..)).trans (Dev.collsOn_collProgress ..)
          exact y.1.collsOn_setColl _ (fun _ => rfl) (fun _ h => h)

theorem Dev.collsOn_collTake (o : FOp) (s q : CSeg) : d.CollsOn (d.collTake o s q) := by
  rw [Dev.collTake]
  have hgrant : d.CollsOn ((d.setColl o.id (fun c => { c with stage := c.stage.erase s })).collGrant o (o.fromRank s.step) s.step 1
      (some (s.step, s.chunk, s.seg)) s.cmark) := by
    refine Dev.CollsOn.trans ?_ (Dev.collsOn_collGrant ..)
    exact d.collsOn_setColl _ (fun _ => rfl) (fun _ h => h)
  generalize (d.setColl o.id (fun c => { c with stage := c.stage.erase s })).collGrant o (o.fromRank s.step) s.step 1
      (some (s.step, s.chunk, s.seg)) s.cmark = e at hgrant
  dsimp only
  split
  · refine Dev.CollsOn.trans (hgrant.trans ?_) (Dev.collsOn_collRead ..)
    exact e.collsOn_setColl _ (fun _ => rfl) (fun _ h => h)
  · have hqueue : d.CollsOn (if o.forwards s.step then (e.collStore o (if o.collOp = 3 then o.fromRank s.step else s.chunk) s.seg
        (o.segLen s.chunk s.seg) q.data).collQueue o { s with step := s.step + 1 }
        else e.collStore o (if o.collOp = 3 then o.fromRank s.step else s.chunk) s.seg (o.segLen s.chunk s.seg) q.data) := by
      split
      · exact (hgrant.trans (e.collsOn_collStore ..)).trans (Dev.collsOn_collQueue ..)
      · exact hgrant.trans (e.collsOn_collStore ..)
    generalize (if o.forwards s.step then (e.collStore o (if o.collOp = 3 then o.fromRank s.step else s.chunk) s.seg
        (o.segLen s.chunk s.seg) q.data).collQueue o { s with step := s.step + 1 }
        else e.collStore o (if o.collOp = 3 then o.fromRank s.step else s.chunk) s.seg (o.segLen s.chunk s.seg) q.data) = f at hqueue
    split
    · exact hqueue
    · split
      · have hstep := hqueue.trans (f.collsOn_setColl o.id (f := fun c => { c with exchange := c.exchange + 1 }) (fun _ => rfl) (fun _ h => h))
        split
        · exact hstep.trans (Dev.collsOn_collGrant ..)
        · exact hstep
      · exact hqueue

theorem Dev.collsOn_collGoOn (op : Nat) : d.CollsOn (d.collGoOn op) := by
  rw [Dev.collGoOn]
  have hlate := d.collsOn_collTimeout op
  generalize d.collTimeout op = e at hlate
  dsimp only
  split
  · split
    · exact hlate
    · refine (hlate.trans (e.collsOn_setColl op (f := fun c => { c with again := [] }) (fun _ => rfl) (fun _ h => h))).trans ?_
      refine ((Dev.CollsOn.foldl (fun d s => d.collsOn_collResend ..) _ _).trans (Dev.CollsOn.foldl (fun d s => ?_) _ _)).trans
        (Dev.collsOn_collSends ..)
      split
      · exact d.collsOn_collTake ..
      · exact .refl d
  · exact hlate

theorem Dev.collsOn_collsGoOn : d.CollsOn d.collsGoOn := .foldl (fun d (c : Coll) => d.collsOn_collGoOn c.op) _ _

theorem Dev.collsOn_windowAnswer (eng dest lvl bytes : Nat) : d.CollsOn (d.windowAnswer eng dest lvl bytes) := by
  exact .of_fry (congrArg (fun x => x.1.2.2.2.2.2.2) (d.offWindow_windowAnswer eng dest lvl bytes))

theorem Dev.collsOn_collCredit (m : CollCredit) : d.CollsOn (d.collCredit m) := by
  rw [Dev.collCredit]
  have hlate := d.collsOn_collsLate
  generalize d.collsLate = e at hlate
  dsimp only
  split
  · split
    · exact hlate
    · exact hlate.trans (.of_arrs rfl rfl)
  · split
    · exact hlate
    · split
      · exact (hlate.trans (.of_fry (by simp))).trans (Dev.collsOn_collFail ..)
      · refine ((((Dev.CollsOn.trans (hlate.trans ?_) (.foldl (fun d _ => d.collsOn_windowAnswer ..) _ _)).trans
          (Dev.collsOn_collProgress ..)).trans (Dev.collsOn_collGoOn ..)).trans (.of_sends (Dev.sends_pumpSrc _))).trans (Dev.collsOn_collsGoOn _)
        exact e.collsOn_setColl _ (fun _ => rfl) (fun _ h => h)

theorem Dev.collsOn_collEarly (o : FOp) : d.CollsOn (d.collEarly o) := by
  rw [Dev.collEarly]
  have hearly : ∀ l, d.CollsOn { d with fry := { d.fry with early := l } } := fun _ => .of_arrs rfl rfl
  refine (hearly _).trans (Dev.CollsOn.foldl (fun d m => ?_) _ _)
  split
  · exact d.collsOn_collCredit m
  · exact .refl d

theorem Dev.collsOn_collStart (o : FOp) : (d.setColl o.id (fun c => { c with running := true })).CollsOn (d.collStart o) := by
  rw [Dev.collStart]
  refine Dev.CollsOn.trans ?_ (Dev.CollsOn.foldl (fun d q => d.collsOn_collRead ..) _ _)
  cases o.expects with
  | nil => exact .refl _
  | cons q l => exact Dev.collsOn_collGrant ..

/-- A collective whose translations are made runs, with the arrays that it has. -/
theorem Dev.collXlated_runs {op : Nat} {o : FOp} {c : Coll} (ho : d.fop op = some o) (hpages : o.pages = []) (hc : d.coll op = some c)
    (hrun : c.running = false) (habort : c.abort = none) (hover : d.collOver c = false) :
    ((d.collXlated op).coll op).any (·.running) = true ∧ (d.collXlated op).fry.arrs = d.fry.arrs := by
  have hid : o.id = op := beq_iff_eq.1 (List.find?_some (p := fun q : FOp => q.id == op) ho)
  have hgo : d.collXlated op = (d.collStart o).collGoOn op := by
    rw [Dev.collXlated, Dev.collTimeout_within hc hover, ho, hc]
    dsimp only
    rw [if_neg (by simp [hrun, habort, FOp.xlated, hpages]), if_neg (by simp [hpages])]
  have hon := (d.collsOn_collStart o).trans (Dev.collsOn_collGoOn _ op)
  rw [hgo]
  refine ⟨hon.runs op ?_, hon.arrs⟩
  rw [hid, Dev.coll_setColl (by exact fun _ => rfl) hc]
  rfl

end

end Sys2Proof.Machine


/-!
SUPPORT. O44, a collective enters RUNNING, waits for its arrays, or is refused.
-/
namespace Sys2Proof.Machine

/-! ### The operation that is issued -/

/-- An operation as it is issued. -/
def FOp.begun (o : FOp) : FOp := { o with state := .running, waits := [{}, {}] }

section
variable {d : Dev} {op : Nat} {o : FOp}

theorem Dev.id_of_fop (ho : d.fop op = some o) : o.id = op := by
  have h := List.find?_some (p := fun q : FOp => q.id == op) ho
  exact beq_iff_eq.1 h

theorem List.mapFirst_congr {α : Type} {p : α → Bool} {f g : α → α} (l : List α) (h : ∀ x, l.find? p = some x → f x = g x) :
    mapFirst p f l = mapFirst p g l := by
  induction l with
  | nil => rfl
  | cons a l ih =>
    rw [mapFirst, mapFirst]
    cases ha : p a with
    | true => simp [h a (by simp [ha])]
    | false => simp [ih fun x hx => h x (by simpa [ha] using hx)]

/-- Setting an operation to what it becomes is changing it. -/
theorem Dev.setFop_const {f : FOp → FOp} (ho : d.fop op = some o) : d.setFop op (fun _ => f o) = d.setFop op f := by
  have h := List.mapFirst_congr (f := fun _ => f o) (g := f) d.fry.ops fun x hx => congrArg f (Option.some.inj (ho.symm.trans hx))
  rw [Dev.setFop, h]
  rfl

theorem Dev.fop_begun (ho : d.fop op = some o) : (d.setFop op (fun _ => o.begun)).fop op = some o.begun := by
  rw [Dev.setFop_const (f := FOp.begun) ho, Dev.fop_setFop (by exact fun _ => rfl), if_pos rfl, ho]
  rfl

theorem quiet_begun (ho : d.fop op = some o) (hq : quiet d) : quiet (d.setFop op (fun _ => o.begun)) := by
  rw [Dev.setFop_const (f := FOp.begun) ho]
  exact quiet_setFop (by exact fun _ => rfl) (by exact fun _ => rfl) hq

/-- Issuing an operation leaves the other operations' messages as they are. -/
theorem Dev.rankBad_begun (ho : d.fop op = some o) (p : FOp) : (d.setFop op (fun _ => o.begun)).rankBad p = d.rankBad p := by
  have hmsg : ∀ n, ((d.setFop op (fun _ => o.begun)).fop n).any (fun q => q.landing == p.landing && q.collId == p.collId) =
      (d.fop n).any (fun q => q.landing == p.landing && q.collId == p.collId) := fun n => by
    rw [Dev.setFop_const (f := FOp.begun) ho, Dev.fop_setFop (by exact fun _ => rfl)]
    split
    · cases d.fop n <;> rfl
    · rfl
  simp only [Dev.rankBad, hmsg]
  rfl

end

/-! ### Entry -/

section
variable {d : Dev} {o : FOp}

/-- A collective as it enters RUNNING, before its rank table has been looked at. -/
def Dev.newColl (o : FOp) (d : Dev) : Coll :=
  { op := o.id, ranks := d.rankEntries o, progressAt := d.tim.tide, window := d.rd F.COLL_CFG_STEP_TIMEOUT_US }

/-- The collective has its slot and its arrays. -/
def Dev.entered (o : FOp) (d : Dev) : Dev :=
  { d with fry := { d.fry with
      colls := d.fry.colls ++ [d.newColl o]
      arrs := d.fry.arrs.zipIdx.map (fun r => if bit o.collMask r.2 then { r.1 with heldBy := some o.id } else r.1) } }

theorem Dev.coll_entered (h : d.coll o.id = none) : (d.entered o).coll o.id = some (d.newColl o) := by
  refine (List.find?_append ..).trans ?_
  rw [show List.find? (fun c : Coll => c.op == o.id) d.fry.colls = none from h]
  simp [Dev.newColl]

theorem Dev.collOver_newColl (hwin : 0 < d.rd F.COLL_CFG_STEP_TIMEOUT_US) : (d.entered o).collOver (d.newColl o) = false := by
  have h : ¬ d.tim.tide + us (d.rd F.COLL_CFG_STEP_TIMEOUT_US) ≤ d.tim.tide := by unfold us; omega
  simpa [Dev.collOver, Dev.newColl, Dev.entered] using h

theorem Dev.arrs_entered (o : FOp) (d : Dev) : (d.entered o).fry.arrs.map (·.slice) = d.fry.arrs.map (·.slice) := by
  rw [Dev.entered, List.map_map]
  conv_rhs => rw [← List.zipIdx_map_fst 0 d.fry.arrs, List.map_map]
  refine List.map_congr_left fun r _ => ?_
  simp only [Function.comp]
  split <;> rfl

theorem Dev.heldBy_entered (hshape : d.fry.arrs.length = 16) {a : Nat} (ha : a < 16) (hbit : bit o.collMask a = true) :
    ((d.entered o).arr a).heldBy = some o.id := by
  have hlen : a < d.fry.arrs.zipIdx.length := by simpa [hshape] using ha
  have hsnd : (nth d.fry.arrs.zipIdx a ({}, 0)).2 = a := by simp [nth, hshape, ha]
  rw [Dev.arr, Dev.entered]
  rw [nth_map_lt _ _ hlen ({}, 0), hsnd, if_pos hbit]

theorem nth_map {α β : Type} (f : α → β) (l : List α) (i : Nat) (a : α) : nth (l.map f) i (f a) = f (nth l i a) := by
  rw [nth, nth, List.getElem?_map, Option.getD_map]

/-- Arrays that have the same slices, and any collectives, leave a package at rest. -/
theorem quiet_entered (o : FOp) (hq : quiet d) : quiet (d.entered o) := by
  obtain ⟨hxfers, hports, hgates, hhost, hnoNode, hjobs, hdisp⟩ := hq
  refine ⟨hxfers, hports, hgates, hhost, hnoNode, fun j hj => ?_, hdisp⟩
  have hslice : ∀ a, ((d.entered o).arr a).slice = (d.arr a).slice := fun a => by
    have h := congrArg (fun l => nth l a (Arr.slice {})) (d.arrs_entered o)
    exact (nth_map ..).symm.trans (h.trans (nth_map ..))
  have hload : (d.entered o).jobLoaded j.op = d.jobLoaded j.op := by simp only [Dev.jobLoaded, hslice]
  rw [← hjobs j hj, Dev.jobReady_eq, Dev.jobReady_eq, hload]
  rfl

theorem Pkg.collGo_bad {x : Pkg} {b : Nat × Nat} (h : x.2.rankBad o = some b) :
    x.collGo o = (x.1, ((x.2.entered o).capture 0x50 .request sRights 0x10 0x3F (b.1 + b.2 * 8)).collFail o.id sRights) := by
  rw [Pkg.collGo, h]
  rfl

theorem Pkg.collGo_gpa {x : Pkg} (h : x.2.rankBad o = none) (hin : o.inLva = false) (hout : o.outLva = false) :
    x.collGo o = (x.1, ((x.2.entered o).collXlated o.id).collEarly o) := by
  rw [Pkg.collGo, h, hin, hout]
  rfl

end

end Sys2Proof.Machine


/-!
O44: COLL_RUNNING, and the obligation assembled.
-/
namespace Sys2Proof.Machine

theorem Dev.awaits_opEnded {d : Dev} {op st : Nat} {o : FOp} (ho : d.fop op = some o) (hret : o.retired = false) (hsig : o.fld 0 14 1 = 0)
    (h : d.awaits) : (d.opEnded op st).awaits := by
  rw [Dev.opEnded, ho]
  dsimp only
  rw [if_neg (by simp [hret]), if_neg (by simp [hsig])]
  exact h

section
variable {op : Nat} {o : FOp} {s : State}

theorem FOp.issuable_iff : o.issuable = true ↔ o.state = .ready ∧ o.retired = false := by simp [FOp.issuable]

/-- What makes a collective an operation that the ferryman may issue now. -/
def Dev.offers (op : Nat) (o : FOp) (d : Dev) : Prop :=
  d.fop op = some o ∧ o.kind = 3 ∧ o.issuable = true ∧ d.braked = false

theorem issueKind_of {x : Pkg} (h : x.2.offers op o) : Pkg.issueKind 3 op x = if !x.2.enginesFree o then x.dev (Dev.askAll o.collMask)
    else if !x.2.firstReady o then x
    else (let y := x.dev (Dev.setFop op (fun _ => o.begun))
      if o.collOk then y.collGo o.begun
      else (y.collSpoil o.begun).dev (fun d => (d.bump F.COLL_STAT_DONE_COUNT 1).opEnded op sRights)).settle := by
  obtain ⟨ho, hkind, hissue, hbrake⟩ := h
  have hnot : ¬((!o.issuable) = true ∨ x.2.braked = true) := by simp [hissue, hbrake]
  rw [Pkg.issueKind, if_pos (by simp [ho, hkind]), Pkg.operationIssue, ho]
  dsimp only
  rw [if_neg hnot, if_pos hkind]
  split
  · rfl
  · split
    · rfl
    · have hbegun : ({ o with state := .running, waits := [{}, {}] } : FOp) = o.begun := rfl
      simp only [hbegun]
      simp only [hkind]
      rfl

/-- A collective that its rank table does not admit aborts at once. -/
theorem Dev.collFail_enters {d : Dev} {c : Coll} (st : Store) (hq : quiet d) (hc : d.coll op = some c) (hfop : d.fop op = some o) (habort : c.abort = none)
    (hover : d.collOver c = false) (code detail : Nat) :
    let x := Pkg.settle (st, (d.capture 0x50 .request sRights code 0x3F detail).collFail op sRights)
    x.1 = st ∧ x.2.coll op = some (c.aborting (sRights, o.collRank, c.step)) ∧ x.2.rd F.COLL_ABORT_INFO_STATUS = sRights := by
  dsimp only
  have hcap : (d.capture 0x50 .request sRights code 0x3F detail).fry = d.fry := by simp
  have hover' : (d.capture 0x50 .request sRights code 0x3F detail).collOver c = false := by
    have htim : (d.capture 0x50 .request sRights code 0x3F detail).tim = d.tim := by simp
    rw [Dev.collOver, htim]
    exact hover
  have hrest : (d.capture 0x50 .request sRights code 0x3F detail).rest = d.rest := Dev.rest_capture ..
  have hc' := (Dev.coll_congr hcap op).trans hc
  have hfop' := (Dev.fop_congr hcap op).trans hfop
  generalize d.capture 0x50 .request sRights code 0x3F detail = e at *
  have hfail : e.collFail op sRights = e.collAbort op (sRights, o.collRank, c.step) true o.abortRanks := by
    rw [Dev.collFail, hc', hfop']
    dsimp only
    rw [hover']
    rfl
  obtain ⟨hfry, hrest', -, hstat⟩ := Dev.collAbort_does (sRights, o.collRank, c.step) true hc' hfop' habort o.abortRanks
  have hquiet : quiet (e.collFail op sRights) := quiet_rest (hfail ▸ hrest'.trans hrest) hq
  rw [settle_quiet (x := (st, e.collFail op sRights)) hquiet, hfail]
  exact ⟨rfl, (Dev.coll_congr hfry op).trans (Dev.coll_setColl (by exact fun _ => rfl) hc'), hstat⟩

theorem Dev.enginesFree_coll {d : Dev} (hkind : o.kind = 3) :
    d.enginesFree o = (!o.collOk || (d.collRoom o && (maskArrays o.collMask).all (d.arrTurn o.seq))) := by
  rw [Dev.enginesFree, hkind]
  rfl

section
variable (hrun : s.dev.running = true) (hdom : s.dev.domOn 11 = true)
include hrun hdom

theorem collRunning_otherKind (ho : s.dev.fop op = some o) (hkind : o.kind ≠ 3) : exec (.collRunning op) s = .next s := by
  refine (onPkg_leaves (x := (s.store, s.dev)) hrun hdom ?_).trans rfl
  rw [Pkg.issueKind, if_neg (by simp [ho, hkind])]

theorem collRunning_waits (h : s.dev.offers op o) (hok : o.collOk = true) (hroom : s.dev.collRoom o = false) :
    exec (.collRunning op) s = .next { s with dev := s.dev.askAll o.collMask } := by
  refine (onPkg_leaves (x := (s.store, s.dev.askAll o.collMask)) hrun hdom ?_).trans rfl
  rw [issueKind_of h, if_pos (by rw [Dev.enginesFree_coll h.2.1, hok, hroom]; rfl)]
  rfl

theorem collRunning_refused (h : s.dev.offers op o) (hq : quiet s.dev) (hok : o.collOk = false) (hfirst : s.dev.firstReady o = true)
    (hsig : o.fld 0 14 1 = 0) : ∃ t q, exec (.collRunning op) s = .next t ∧
      t.store = (Pkg.collSpoil o.begun (s.store, s.dev.setFop op (fun _ => o.begun))).1 ∧ (o.outLen = 0 → t.store = s.store) ∧
      t.dev.fop op = some q ∧ q.state = .complete ∧ q.status = sRights := by
  have hgo : Pkg.issueKind 3 op (s.store, s.dev) = Pkg.settle ((Pkg.collSpoil o.begun (s.store, s.dev.setFop op (fun _ => o.begun))).dev
      (fun d => (d.bump F.COLL_STAT_DONE_COUNT 1).opEnded op sRights)) := by
    rw [issueKind_of h, if_neg (by rw [Dev.enginesFree_coll h.2.1, hok]; simp), if_neg (by simp [hfirst]), if_neg (by simp [hok])]
    rfl
  obtain ⟨ho, -, hissue, -⟩ := h
  have hret : o.begun.retired = false := (FOp.issuable_iff.1 hissue).2
  have hfop := Dev.fop_begun ho
  have hawaits := Dev.awaits_of_quiet (quiet_begun ho hq)
  generalize s.dev.setFop op (fun _ => o.begun) = d at hgo hfop hawaits ⊢
  have hsp := Pkg.spoilt_collSpoil o.begun (s.store, d)
  have hnone : o.outLen = 0 → (Pkg.collSpoil o.begun (s.store, d)).1 = s.store := fun h => by
    rw [Pkg.collSpoil_none (show o.begun.outLen = 0 from h)]
  generalize Pkg.collSpoil o.begun (s.store, d) = y at hgo hsp hnone ⊢
  obtain ⟨w, hw⟩ := hsp.fop op _ hfop
  have hbump : (y.2.bump F.COLL_STAT_DONE_COUNT 1).fop op = some { o.begun with waits := w } := hw
  have hready : (y.2.bump F.COLL_STAT_DONE_COUNT 1).awaits := hsp.awaits hawaits
  obtain ⟨-, hend⟩ := Dev.opEnded_completes (st := sRights) hbump hret hsig
  obtain ⟨hstore, hoff⟩ := settle_awaits (x := y.dev (fun d => (d.bump F.COLL_STAT_DONE_COUNT 1).opEnded op sRights))
    (Dev.awaits_opEnded hbump hret hsig hready)
  exact ⟨_, _, onPkg_leaves hrun hdom hgo, hstore, fun h0 => hstore.trans (hnone h0), (Dev.fop_offJobs hoff op).trans hend, rfl, rfl⟩

section
variable (h : s.dev.offers op o) (hok : o.collOk = true) (hroom : s.dev.collRoom o = true)
  (hturn : ∀ a ∈ maskArrays o.collMask, s.dev.arrTurn o.seq a = true) (hfirst : s.dev.firstReady o = true)
include h hok hroom hturn hfirst

/-- With its arrays free and its turn come, a collective enters. -/
theorem collRunning_goes : exec (.collRunning op) s =
    .next (withPkg s (Pkg.settle (Pkg.collGo o.begun (s.store, s.dev.setFop op (fun _ => o.begun))))) := by
  refine onPkg_leaves hrun hdom ?_
  rw [issueKind_of h, if_neg (by rw [Dev.enginesFree_coll h.2.1, hroom, List.all_eq_true.2 hturn]; simp), if_neg (by simp [hfirst]), if_pos hok]
  rfl

theorem collRunning_aborts (hq : quiet s.dev) (hcoll : s.dev.coll op = none) (hwin : 0 < s.dev.rd F.COLL_CFG_STEP_TIMEOUT_US) {b : Nat × Nat}
    (hbad : s.dev.rankBad o.begun = some b) : ∃ t c, exec (.collRunning op) s = .next t ∧ t.store = s.store ∧ t.dev.coll op = some c ∧
      c.abort = some (sRights, o.collRank, 0) ∧ t.dev.rd F.COLL_ABORT_INFO_STATUS = sRights := by
  have hgo := collRunning_goes hrun hdom h hok hroom hturn hfirst
  obtain ⟨ho, -⟩ := h
  have hid := Dev.id_of_fop ho
  have hfop := Dev.fop_begun ho
  have hquiet := quiet_begun ho hq
  have hbad' := (Dev.rankBad_begun ho o.begun).trans hbad
  have hcoll' : (s.dev.setFop op (fun _ => o.begun)).coll o.begun.id = none := (congrArg s.dev.coll hid).trans hcoll
  have hwin' : 0 < (s.dev.setFop op (fun _ => o.begun)).rd F.COLL_CFG_STEP_TIMEOUT_US := hwin
  generalize s.dev.setFop op (fun _ => o.begun) = d at hgo hfop hquiet hbad' hcoll' hwin'
  have hc := Dev.coll_entered (d := d) (o := o.begun) hcoll'
  rw [show o.begun.id = op from hid] at hc
  have hover := Dev.collOver_newColl (o := o.begun) hwin'
  have hq2 := quiet_entered o.begun hquiet
  have hfop2 : (d.entered o.begun).fop op = some o.begun := hfop
  have habort : (d.newColl o.begun).abort = none := rfl
  have hstep : (d.newColl o.begun).step = 0 := rfl
  rw [Pkg.collGo_bad (x := (s.store, d)) (o := o.begun) hbad'] at hgo
  dsimp only at hgo
  rw [show o.begun.id = op from hid] at hgo
  generalize d.newColl o.begun = c at hc hover habort hstep
  generalize d.entered o.begun = e at hgo hc hover hq2 hfop2
  obtain ⟨hstore, hcoll2, hstat⟩ := Dev.collFail_enters s.store hq2 hc hfop2 habort hover 0x10 (b.1 + b.2 * 8)
  exact ⟨_, _, hgo, hstore, hcoll2, by rw [← hstep]; rfl, hstat⟩

theorem collRunning_starts (hshape : shaped s.dev) (hcoll : s.dev.coll op = none) (hwin : 0 < s.dev.rd F.COLL_CFG_STEP_TIMEOUT_US)
    (hgood : s.dev.rankBad o.begun = none) (hin : o.inLva = false) (hout : o.outLva = false) (hpages : o.pages = []) :
    ∃ d c, d.coll op = some c ∧ c.running = true ∧ (∀ a < 16, bit o.collMask a = true → (d.arr a).heldBy = some op) ∧
      exec (.collRunning op) s = .next (withPkg s (Pkg.settle (s.store, d))) := by
  have hgo := collRunning_goes hrun hdom h hok hroom hturn hfirst
  obtain ⟨ho, -⟩ := h
  have hid : o.begun.id = op := Dev.id_of_fop (Dev.fop_begun ho)
  have hfop := Dev.fop_begun ho
  have hgood' := (Dev.rankBad_begun ho o.begun).trans hgood
  have hcoll' : (s.dev.setFop op (fun _ => o.begun)).coll op = none := hcoll
  have hwin' : 0 < (s.dev.setFop op (fun _ => o.begun)).rd F.COLL_CFG_STEP_TIMEOUT_US := hwin
  have harrs : (s.dev.setFop op (fun _ => o.begun)).fry.arrs.length = 16 := by
    obtain ⟨-, -, -, -, -, harrs, -⟩ := hshape
    exact harrs
  generalize s.dev.setFop op (fun _ => o.begun) = d at hgo hfop hgood' hcoll' hwin' harrs
  rw [Pkg.collGo_gpa (x := (s.store, d)) (o := o.begun) hgood' hin hout, hid] at hgo
  have hheld := fun a (ha : a < 16) (hb : bit o.collMask a = true) => Dev.heldBy_entered (o := o.begun) harrs ha hb
  have hc := Dev.coll_entered (d := d) (o := o.begun) (by rw [hid]; exact hcoll')
  rw [hid] at hheld hc
  obtain ⟨hruns, hkept⟩ := Dev.collXlated_runs (d.entered o.begun) hfop hpages hc rfl rfl (Dev.collOver_newColl hwin')
  have hearly := Dev.collsOn_collEarly (Dev.collXlated op (d.entered o.begun)) o.begun
  obtain ⟨c, hcoll2, hcrun⟩ := (Option.any_eq_true _ _).1 (hearly.runs op hruns)
  refine ⟨_, c, hcoll2, hcrun, fun a ha hb => ?_, hgo⟩
  rw [Dev.arr, hearly.arrs, hkept]
  exact hheld a ha hb

end

end

end

/-! ### The obligation -/

theorem collRunning_cases (op : Nat) (o : FOp) (s : State) (hrun : s.dev.running = true) (hdom : s.dev.domOn 11 = true) (hq : quiet s.dev)
    (hshape : shaped s.dev) (ho : s.dev.fop op = some o) (hcoll : s.dev.coll op = none) :
    let o' : FOp := { o with state := .running, waits := [{}, {}] }
    (o.kind ≠ 3 → exec (.collRunning op) s = .next s) ∧
    (o.kind = 3 → o.issuable = true → s.dev.braked = false →
      (o.collOk = true → s.dev.collRoom o = false → exec (.collRunning op) s = .next { s with dev := s.dev.askAll o.collMask }) ∧
      (o.collOk = false → s.dev.firstReady o = true → o.fld 0 14 1 = 0 → ∃ t q, exec (.collRunning op) s = .next t ∧
        t.store = (Pkg.collSpoil o' (s.store, s.dev.setFop op (fun _ => o'))).1 ∧ (o.outLen = 0 → t.store = s.store) ∧
        t.dev.fop op = some q ∧ q.state = .complete ∧ q.status = sRights) ∧
      (o.collOk = true → s.dev.collRoom o = true → (∀ a ∈ maskArrays o.collMask, s.dev.arrTurn o.seq a = true) → s.dev.firstReady o = true →
        0 < s.dev.rd F.COLL_CFG_STEP_TIMEOUT_US →
        (∀ b, s.dev.rankBad o' = some b → ∃ t c, exec (.collRunning op) s = .next t ∧
          t.store = s.store ∧ t.dev.coll op = some c ∧ c.abort = some (sRights, o.collRank, 0) ∧
          t.dev.rd F.COLL_ABORT_INFO_STATUS = sRights) ∧
        (s.dev.rankBad o' = none → o.inLva = false → o.outLva = false → o.pages = [] →
          ∃ d c, d.coll op = some c ∧ c.running = true ∧ (∀ a < 16, bit o.collMask a = true → (d.arr a).heldBy = some op) ∧
            exec (.collRunning op) s = .next (withPkg s (Pkg.settle (s.store, d)))))) := by
  refine ⟨collRunning_otherKind hrun hdom ho, fun hkind hissue hbrake => ?_⟩
  have h : s.dev.offers op o := ⟨ho, hkind, hissue, hbrake⟩
  exact ⟨collRunning_waits hrun hdom h, collRunning_refused hrun hdom h hq, fun hok hroom hturn hfirst hwin =>
    ⟨fun b hbad => collRunning_aborts hrun hdom h hok hroom hturn hfirst hq hcoll hwin hbad,
      collRunning_starts hrun hdom h hok hroom hturn hfirst hshape hcoll hwin⟩⟩

/-- Settles O44: entry to RUNNING, what arrives, retries, aborts and ends, and the ring. -/
theorem collectives : Obligations.Collectives := by
  refine ⟨⟨collRunning_cases, fun op o c m s h => ?_, fun m s hrun hdom hq hcolls hdst => collCredit_early hrun hdom hq hcolls hdst,
    fun op r o c m s h hid hdst hl hr => ?_, fun op o c q s h hsent => ?_, fun op o c m s h => ?_, ?_, fun op o c s h hshape hsig => ?_, ?_⟩,
    collectiveRing⟩
  · exact ⟨collData_ticket h, collData_late h, fun ht h0 hid hdst hl =>
      ⟨collData_again h ht h0 hid hdst hl, collData_new h ht h0 hid hdst hl⟩⟩
  · exact ⟨fun g hg hne => collCredit_differs h hid hdst hl hr hg hne, collCredit_counts h hid hdst hl hr⟩
  · exact ⟨collSegmentRetry_early h hsent, collSegmentRetry_again h hsent⟩
  · exact ⟨collAbort_other h, collAbort_aborts h, collStepTimeout_within h⟩
  · exact fun op o c s hrun hcolls hop ho habort hover => collStepTimeout_over hrun hcolls hop ho habort hover
  · exact ⟨collComplete_waits h, collComplete_ends h hshape hsig, collAbortDone_runs h⟩
  · exact fun op st r n o c s hrun hdom hcolls hop ho hret hsig habort =>
      ⟨collAbortDone_busy hrun hdom hcolls hop ho, collAbortDone_ends hrun hdom hcolls hop ho hret hsig habort⟩

end Sys2Proof.Machine


/-!
SUPPORT. O39, protection traffic of channel 1 at its home: deltas, mirror writes, journal messages (R127, R204, R211, R217, R412).
-/
namespace Sys2Proof.Machine

/-! ### Arrival -/

section
variable {s : State} {w : Wr} {y : Pkg}

theorem chan1Open_of_homeIdle (hup : homeIdle s) : s.dev.chan1Open = true := by
  obtain ⟨-, -, hopen, hqueue, hops, -⟩ := hup
  simp only [Dev.homeOpen, Dev.homeTakes, Bool.and_eq_true, List.isEmpty_iff] at hopen
  obtain ⟨⟨hon, -⟩, hgate⟩ := hopen
  simp [Dev.chan1Open, Dev.chan1Takes, Dev.chan1Held, hon, hgate, hqueue, hops]

/-- Traffic of channel 1 that is the next of its pair is taken at once. -/
theorem arriveWrite_taken (hup : homeIdle s) (hchan : HArr.chan1 (.write s.dev.node w) = true)
    (hst : (s.dev.ord (s.dev.ordKey s.dev.node w.hdr.srcNode w.hdr.srcEngine)).st = .normal)
    (hexp : (s.dev.ord (s.dev.ordKey s.dev.node w.hdr.srcNode w.hdr.srcEngine)).expect = w.hdr.manifest)
    (hy : Pkg.takeWr s.dev.node w (s.store, s.dev) = y) (hstore : y.2.home.store = []) (hqueue : y.2.home.queue = []) :
    Pkg.arriveWrite s.dev.node w (s.store, s.dev) = y := by
  have hact : s.dev.orderAct s.dev.node w.hdr.srcNode w.hdr.srcEngine w.hdr.manifest = .take := orderAct_take hst (by rw [hexp]; exact manDiff_self _)
  have hserves : s.dev.serves s.dev.node = some .own := if_pos rfl
  have harrive : Pkg.arriveWrite s.dev.node w (s.store, s.dev) = Pkg.orderWrite s.dev.node w (s.store, s.dev) := by
    have hopen := chan1Open_of_homeIdle hup
    unfold Pkg.arriveWrite
    dsimp only
    rw [hchan]
    simp only [if_true, hopen]
    cases w with
    | pool => cases hchan
    | rebuild => cases hchan
    | _ => simp only [Pkg.writeIn, hserves]
  rw [harrive, Pkg.orderWrite, hact]
  dsimp only
  rw [hy, hstore, List.length_nil, Pkg.releaseEarly]
  exact pump_nil hqueue

end

/-! ### Performance -/

section
variable {x : Pkg} {o : HOp}

/-- The bytes of incoming protection traffic reach their lines. -/
def Pkg.reach (o : HOp) (x : Pkg) : Pkg :=
  match o.kind with
  | .deltaIn k off => x.writeLine (extBase k / 64 + off / 64) (xorBytes (x.cipher (extBase k / 64 + off / 64)) o.req.data) .raw
  | _ => x.applyLines o.ws

theorem Pkg.stored_reach (o : HOp) (x : Pkg) : x.2.Stored (x.reach o).2 := by
  unfold Pkg.reach
  split
  · exact x.stored_writeLine _ _ _
  · exact x.stored_applyLines _

theorem Pkg.finishOp_incoming (hchan : o.kind.chan1 = true) (happ : o.applied = false) (hak : o.akind = .write) :
    x.finishOp o = ((x.reach o).1, ((x.reach o).2.writeNoted o).respond o.req.hdr o.status []) := by
  have hfetch : (o.akind == .atomic && o.req.opd.fetch) = false := by rw [hak]; rfl
  unfold Pkg.finishOp Pkg.reach
  rw [if_neg (by simp [happ])]
  cases hkind : o.kind with
  | deltaIn | mirrorIn => simp only [Pkg.dev, Dev.writeNoted, hfetch, Bool.false_eq_true, false_and, if_false]
  | _ => rw [hkind] at hchan; cases hchan

/-- What is noted and answered once the lines stand (R127, R217). -/
theorem Dev.answered_after {d e : Dev} (hst : d.Stored e) (hops : d.home.ops = [o]) (hdups : d.home.dups = []) (h : Hdr) (st : Nat) :
    let f := (e.writeNoted o).respond h st []
    f.home.queue = d.home.queue ∧ f.home.store = d.home.store ∧ f.out = (d.respond h st []).out := by
  obtain ⟨k, hnoted, -, hq, -, hs, -⟩ := Dev.writeNoted_frame (d := e) (hst.ops.trans hops) ((hst.home Home.dups fun _ => rfl).trans hdups)
  rw [hnoted]
  have hhome := Dev.respond_home ({ e with home := k } : Dev) h st []
  exact ⟨(congrArg Home.queue hhome).trans (hq.trans hst.queue),
    (congrArg Home.store hhome).trans (hs.trans (hst.home Home.store fun _ => rfl)),
    (Dev.respond_out_home e k h st []).trans (hst.toKept.respond_out_eq hst.out h st [])⟩

theorem Pkg.protStart_plain {x : Pkg} {o : HOp} (happ : o.applied = false) (hchan : o.kind.chan1 = true) (hak : o.akind = .write) (hnode : o.node = x.2.node)
    (hops : x.2.home.ops = []) (hdups : x.2.home.dups = []) :
    let y := Pkg.recorded (x.2.addOp o).1 (x.1, (x.2.addOp o).2)
    ∃ d : Dev, d.placeOf = x.2.placeOf ∧ (∀ l, Pkg.cipher (x.1, d) l = x.cipher l) ∧ y.1 = (Pkg.reach o (x.1, d)).1 ∧
      y.2.home.queue = x.2.home.queue ∧ y.2.home.store = x.2.home.store ∧ y.2.out = (x.2.respond o.req.hdr o.status []).out := by
  have hstands : (x.2.addOp o).2.stands o.node = false := by rw [hnode]; exact x.2.stands_node
  have hforward : Pkg.forwardTo (x.2.addOp o).1 (x.1, (x.2.addOp o).2) = none := by
    have hn : (x.2.addOp o).1.node = o.node := rfl
    simp [Pkg.forwardTo, hn, hstands]
  have hfin : Pkg.recorded (x.2.addOp o).1 (x.1, (x.2.addOp o).2) = ((Pkg.reach o (x.1, (x.2.addOp o).2)).1,
      ((Pkg.reach o (x.1, (x.2.addOp o).2)).2.writeNoted (x.2.addOp o).1).respond o.req.hdr o.status []) := by
    rw [Pkg.recorded, hforward]
    exact Pkg.finishOp_incoming (o := (x.2.addOp o).1) hchan happ hak
  have haops : (x.2.addOp o).2.home.ops = [(x.2.addOp o).1] := by simp [Dev.addOp, hops]
  have hst := Pkg.stored_reach o (x.1, (x.2.addOp o).2)
  obtain ⟨hq, hs, hout⟩ := Dev.answered_after hst haops hdups o.req.hdr o.status
  rw [hfin]
  exact ⟨(x.2.addOp o).2, rfl, fun _ => rfl, rfl, hq, hs, hout.trans (Dev.respond_out_home ..)⟩

/-- An item of incoming traffic is performed at once where its partner keeps no records. -/
theorem Pkg.protStart_mirror {x : Pkg} {m : MirrorMsg} (hkind : o.kind = .mirrorIn m) (halone : x.2.rd F.PROT_CFG_PARTNER_EN = 0) :
    x.protStart o = Pkg.recorded (x.2.addOp o).1 (x.1, (x.2.addOp o).2) := by
  have hpartner : (x.2.addOp o).2.partnerOn = false := Dev.partnerOn_alone halone
  unfold Pkg.protStart
  simp only [hkind, Option.any_none, Bool.false_eq_true, if_false, hpartner]

theorem Pkg.protStart_delta {x : Pkg} {k off : Nat} (hkind : o.kind = .deltaIn k off) (hnode : o.node = x.2.node) (halone : x.2.rd F.PROT_CFG_PARTNER_EN = 0)
    (hgood : x.2.lineErr (extBase k / 64 + off / 64) ≠ 2) : ∃ d : Dev, x.2.Silent d ∧
      x.protStart o = Pkg.recorded (d.addOp o).1 (x.1, (d.addOp o).2) := by
  have hstands : x.2.stands o.node = false := by rw [hnode]; exact x.2.stands_node
  have hsilent := x.2.silent_readBurst (extBase k / 64 + off / 64, List.range 8)
  have hsub := x.2.errsOf_readBursts_sublist [(extBase k / 64 + off / 64, List.range 8)] (extBase k / 64 + off / 64)
  have herr : (x.2.readBurst (extBase k / 64 + off / 64, List.range 8)).lineErr (extBase k / 64 + off / 64) ≠ 2 :=
    Dev.partErr_ne_two hsub (List.Subset.refl _) hgood
  have hpartner : ((x.2.readBurst (extBase k / 64 + off / 64, List.range 8)).addOp o).2.partnerOn = false :=
    Dev.partnerOn_alone ((hsilent.toKept.rd _ (by decide) (by decide)).trans halone)
  refine ⟨_, hsilent, ?_⟩
  unfold Pkg.protStart
  simp only [hkind, hstands, Bool.false_eq_true, if_false, Option.any_some]
  change (if ((x.2.readBurst (extBase k / 64 + off / 64, List.range 8)).lineErr (extBase k / 64 + off / 64) == 2) = true then _ else _) = _
  rw [if_neg (by simpa using herr)]
  change (if ((x.2.readBurst (extBase k / 64 + off / 64, List.range 8)).addOp o).2.partnerOn = true then _ else _) = _
  rw [if_neg (by rw [hpartner]; decide)]
  rfl

end

/-! ### The commands -/

theorem Pkg.protIn_starts {x : Pkg} {o : HOp} (hqueue : x.2.home.queue = []) (hops : x.2.home.ops = []) (hholds : x.2.home.rcHolds = [])
    (hrecons : x.2.home.recons = []) (hnode : o.node = x.2.node) (hpow : ∀ w ∈ o.ws, x.2.linePowered (w.line % 2 ^ 39) = true)
    (hkeep : (x.protStart o).2.home.queue = []) : x.protIn o = x.protStart o := by
  refine Pkg.enqueue_item (i := .prot o) hqueue rfl (Dev.itemWaits_alone hops hholds hrecons fun l hl q hlq => ?_) hkeep
  obtain ⟨w, hw, rfl⟩ := List.mem_map.1 (show l ∈ o.ws.map (·.line) from hl)
  have hst : x.2.stands (HItem.node x.2 (.prot o)) = false := by
    rw [show HItem.node x.2 (.prot o) = x.2.node from hnode]
    exact x.2.stands_node
  obtain rfl := Option.some.inj ((Dev.physOf_own hst _).symm.trans hlq)
  exact hpow w hw

/-- A home with nothing in hand, whatever else it has noted. -/
def Home.bareOf (h : Home) : Prop :=
  h.queue = [] ∧ h.ops = [] ∧ h.rcHolds = [] ∧ h.recons = [] ∧ h.store = [] ∧ h.dups = []

section
variable {s : State} {d : Dev} {st : Store}

theorem bareOf_takeMan (hup : homeIdle s) (n src eng : Nat) : ∃ h, s.dev.takeMan n src eng = { s.dev with home := h } ∧ h.bareOf ∧
    h.prot = s.dev.home.prot ∧ h.ext = s.dev.home.ext ∧ h.shadows = s.dev.home.shadows ∧ h.aliases = s.dev.home.aliases ∧ h.region = s.dev.home.region ∧
    h.damage = s.dev.home.damage := by
  obtain ⟨-, -, -, hqueue, hops, hholds, hrecons, hstore, hdups, -⟩ := hup
  obtain ⟨hmstore, -⟩ := Dev.takeMan_frame hstore n src eng
  exact ⟨_, rfl, ⟨hqueue, hops, hholds, hrecons, hmstore, hdups⟩, rfl, rfl, rfl, rfl, rfl, rfl⟩

/-- The operation of a mirror write of one line. -/
def mirrorOp (m : MirrorMsg) (system : Bool) : HOp :=
  { blankOp m.forNode (protReq (.mirror m) m.bytes) .write 0 (extGpa m.forNode m.ext m.off) m.bytes.length m.ext with
    kind := .mirrorIn m, counted := false
    ws := (List.range (m.bytes.length / 64)).map (fun i =>
      let l := extGpa m.forNode m.ext m.off / 64 + i
      LineW.mk l (some (l % 2 ^ 39)) none system (sliceBytes m.bytes (64 * i) 64) none) }

theorem mirrorOp_ws {m : MirrorMsg} (hlen : m.bytes.length = 64) (system : Bool) : (mirrorOp m system).ws =
    [LineW.mk (extGpa m.forNode m.ext m.off / 64) (some (extGpa m.forNode m.ext m.off / 64 % 2 ^ 39)) none system m.bytes none] := by
  have hslice : sliceBytes m.bytes 0 64 = m.bytes := by rw [sliceBytes_full (by omega), List.drop_zero, List.take_of_length_le (by omega)]
  simp only [mirrorOp, hlen]
  simp [hslice]

theorem takeMirror_goes {m : MirrorMsg} (hbare : d.home.bareOf) (hfor : m.forNode = d.node) (hext : m.ext < 3232)
    (hgpa : gpaOk (extGpa m.forNode m.ext m.off) = true) (hsys : (d.ext m.ext).state ≠ 3) (htick : d.ticketOk m.ticket = true)
    (hmode : (d.prot m.ext).mode = 4) (hpeer : (d.prot m.ext).peerNode = m.ward) (hpext : (d.prot m.ext).peerExt = m.wardExt)
    (hroom : d.shadowRoom m.ward = true) : ∃ h : Home, h.bareOf ∧
      Pkg.takeMirror m (st, d) = Pkg.protIn (mirrorOp m false) (st, { d with home := h }) := by
  have hstands : d.stands m.forNode = false := by rw [hfor]; exact d.stands_node
  have hnot : ((d.ext m.ext).state == 3) = false := beq_false_of_ne hsys
  have hgo : Pkg.takeMirror m (st, d) = Pkg.protIn (mirrorOp m false) (match m.record with
      | some q => Pkg.dev (fun d => d.setShadow m.ward (fun s => s.record q)) (st, d)
      | none => (st, d)) := by
    unfold Pkg.takeMirror
    dsimp only
    rw [hstands, if_neg (by decide), if_pos ⟨hgpa, hext, .inr htick, hmode, hpeer, hpext, hroom⟩, hnot]
    rfl
  rw [hgo]
  cases m.record with
  | none => exact ⟨d.home, hbare, rfl⟩
  | some q => exact ⟨(d.setShadow m.ward (fun s => s.record q)).home, hbare, rfl⟩

theorem mirrorWrite_taken {m : MirrorMsg} (h : homeUp s) (hfor : m.forNode = s.dev.node) (hext : m.ext < 3232)
    (hst : (s.dev.ord (s.dev.ordKey s.dev.node m.src 5)).st = .normal) (hexp : (s.dev.ord (s.dev.ordKey s.dev.node m.src 5)).expect = m.manifest)
    (hgpa : gpaOk (extGpa m.forNode m.ext m.off) = true) (hsys : (s.dev.ext m.ext).state ≠ 3) (htick : s.dev.ticketOk m.ticket = true)
    (hmode : (s.dev.prot m.ext).mode = 4) (hpeer : (s.dev.prot m.ext).peerNode = m.ward) (hpext : (s.dev.prot m.ext).peerExt = m.wardExt)
    (hroom : s.dev.shadowRoom m.ward = true) (hlen : m.bytes.length = 64)
    (hpow : s.dev.linePowered (extGpa m.forNode m.ext m.off / 64 % 2 ^ 39) = true) : ∃ t, exec (.mirrorWrite m) s = .next t ∧
      t.store = s.store.setLine (s.dev.placeOf (extGpa m.forNode m.ext m.off / 64 % 2 ^ 39)) m.bytes .raw ∧
      t.dev.out = (s.dev.respond (protHdr m.src m.tag m.manifest m.ticket m.cmark) sOk []).out := by
  obtain ⟨hup, -⟩ := h
  obtain ⟨hrun, hdom, -, -, -, -, -, -, -, -, halone⟩ := id hup
  obtain ⟨h0, hman, hbare, hprot, hexts, hshadows, -⟩ := bareOf_takeMan hup s.dev.node m.src 5
  obtain ⟨k, hk, htake⟩ := takeMirror_goes (st := s.store) (d := { s.dev with home := h0 }) (m := m) hbare hfor hext hgpa
    (by rw [Dev.ext, hexts]; exact hsys) htick (by rw [Dev.prot, hprot]; exact hmode) (by rw [Dev.prot, hprot]; exact hpeer)
    (by rw [Dev.prot, hprot]; exact hpext) (by rw [Dev.shadowRoom, hshadows]; exact hroom)
  obtain ⟨hq, hops, hholds, hrecons, hs, hdups⟩ := hk
  have hws := mirrorOp_ws hlen false
  have hstart := Pkg.protStart_mirror (x := (s.store, { s.dev with home := k })) (o := mirrorOp m false) rfl halone
  obtain ⟨d, hplace, -, hmem, hqueue, hstore, hout⟩ := Pkg.protStart_plain (x := (s.store, { s.dev with home := k })) (o := mirrorOp m false) rfl rfl rfl
    hfor hops hdups
  rw [← hstart] at hmem hqueue hstore hout
  have hin := Pkg.protIn_starts (x := (s.store, { s.dev with home := k })) (o := mirrorOp m false) hq hops hholds hrecons hfor
    (by rw [hws]; exact List.forall_mem_singleton.2 hpow) (hqueue.trans hq)
  have hwr : Pkg.takeWr s.dev.node (.mirror m) (s.store, s.dev) = Pkg.protStart (mirrorOp m false) (s.store, { s.dev with home := k }) := by
    refine Eq.trans ?_ (htake.trans hin)
    rw [← hman]
    rfl
  have harrive := arriveWrite_taken (w := .mirror m) hup rfl hst hexp hwr (hstore.trans hs) (hqueue.trans hq)
  refine ⟨_, onPkg_leaves (x := Pkg.protStart (mirrorOp m false) (s.store, { s.dev with home := k })) hrun hdom (by rw [hfor]; exact harrive), ?_, ?_⟩
  · refine hmem.trans ?_
    rw [Pkg.reach, hws]
    show s.store.setLine (d.placeOf _) m.bytes .raw = _
    rw [hplace]
    rfl
  · exact hout.trans (Dev.respond_out_home ..)

/-- The ciphertext of a line reads the same. -/
theorem Dev.Kept.cipher {d e : Dev} (h : d.Kept e) (m : Store) (l : Nat) : Pkg.cipher (m, e) l = Pkg.cipher (m, d) l := by
  unfold Pkg.cipher Pkg.lineBytes Pkg.cover Dev.metaKey Dev.unitOf
  simp only [h.placeOf, h.tableLine, h.sec, h.node]

theorem Pkg.writeLine_fst (x : Pkg) (l : Nat) (v : List Byte) (c : Cover) : (x.writeLine l v c).1 = x.1.setLine (x.2.placeOf l) v c := rfl

theorem cipher_home {h : Home} (hext : h.ext = d.home.ext) (hregion : h.region = d.home.region) (l : Nat) :
    Pkg.cipher (st, { d with home := h }) l = Pkg.cipher (st, d) l := by
  have hplace : Dev.placeOf { d with home := h } = d.placeOf := rfl
  have hunit : Dev.unitOf { d with home := h } = d.unitOf := rfl
  have htable : ∀ i, Dev.tableLine { d with home := h } i = d.tableLine i := fun i => by
    unfold Dev.tableLine Dev.ext Dev.region
    simp only [hext, hregion]
  unfold Pkg.cipher Pkg.lineBytes Pkg.cover Dev.metaKey
  simp only [hplace, htable, hunit]

/-- The operation of a parity delta. -/
def deltaOp (m : DeltaMsg) : HOp :=
  { blankOp m.forNode (protReq (.delta m) (sliceBytes m.bytes 0 64)) .write 0 (extGpa m.forNode m.ext m.off) 64 m.ext with
    kind := .deltaIn m.ext m.off, counted := false, ws := [LineW.mk (extGpa m.forNode m.ext m.off / 64) none none false [] none] }

theorem parityDelta_taken {m : DeltaMsg} (h : homeUp s) (hfor : m.forNode = s.dev.node) (hext : m.ext < 3232)
    (hst : (s.dev.ord (s.dev.ordKey s.dev.node m.src 5)).st = .normal) (hexp : (s.dev.ord (s.dev.ordKey s.dev.node m.src 5)).expect = m.manifest)
    (hgpa : gpaOk (extGpa m.forNode m.ext m.off) = true) (hmode : (s.dev.prot m.ext).mode = 2) (hmember : (s.dev.positionOf m.member).isSome = true)
    (hpow : s.dev.linePowered (extGpa m.forNode m.ext m.off / 64 % 2 ^ 39) = true) (hgood : s.dev.lineErr (extBase m.ext / 64 + m.off / 64) ≠ 2) :
    ∃ t, exec (.parityDelta m) s = .next t ∧
      t.store = s.store.setLine (s.dev.placeOf (extBase m.ext / 64 + m.off / 64))
        (xorBytes (Pkg.cipher (s.store, s.dev) (extBase m.ext / 64 + m.off / 64)) (sliceBytes m.bytes 0 64)) .raw ∧
      t.dev.out = (s.dev.respond (protHdr m.src m.tag m.manifest m.ticket m.cmark) sOk []).out := by
  obtain ⟨hup, -⟩ := h
  obtain ⟨hrun, hdom, -, -, -, -, -, -, -, -, halone⟩ := id hup
  obtain ⟨h0, hman, ⟨hq, hops, hholds, hrecons, hs, hdups⟩, hprot, hexts, -, -, hregion, hdam⟩ := bareOf_takeMan hup s.dev.node m.src 5
  have hstands : Dev.stands { s.dev with home := h0 } m.forNode = false := by
    rw [show m.forNode = Dev.node { s.dev with home := h0 } from hfor]
    exact Dev.stands_node _
  have hmode' : (Dev.protOf { s.dev with home := h0 } m.forNode m.ext).mode = 2 := by
    rw [Dev.protOf_own hstands, Dev.prot, hprot]
    exact hmode
  have hgroup : Dev.inGroup { s.dev with home := h0 } m.forNode m.member = true := (if_pos hfor).trans hmember
  have htake : Pkg.takeDelta m (s.store, { s.dev with home := h0 }) = Pkg.protIn (deltaOp m) (s.store, { s.dev with home := h0 }) := by
    unfold Pkg.takeDelta
    dsimp only
    rw [if_neg (by simp [hgpa, hmode', hgroup]; omega), hstands, if_neg (by decide)]
    rfl
  have hgood' : Dev.lineErr { s.dev with home := h0 } (extBase m.ext / 64 + m.off / 64) ≠ 2 := by
    rw [Dev.lineErr, Dev.partErr_congr (d := s.dev) (by rw [Dev.errsOf, Dev.errsOf, hdam]; rfl)]
    exact hgood
  obtain ⟨e, hsilent, hstart⟩ := Pkg.protStart_delta (x := (s.store, { s.dev with home := h0 })) (o := deltaOp m) rfl hfor halone hgood'
  obtain ⟨d, hplace, hcipher, hmem, hqueue, hstore, hout⟩ := Pkg.protStart_plain (x := (s.store, e)) (o := deltaOp m) rfl rfl rfl
    (hfor.trans hsilent.toKept.node.symm) (hsilent.toKept.ops.trans hops) ((hsilent.toKept.home Home.dups fun _ => rfl).trans hdups)
  rw [← hstart] at hmem hqueue hstore hout
  have hqueue' := hqueue.trans (hsilent.toKept.queue.trans hq)
  have hin := Pkg.protIn_starts (x := (s.store, { s.dev with home := h0 })) (o := deltaOp m) hq hops hholds hrecons hfor
    (List.forall_mem_singleton.2 hpow) hqueue'
  have hwr : Pkg.takeWr s.dev.node (.delta m) (s.store, s.dev) = Pkg.protStart (deltaOp m) (s.store, { s.dev with home := h0 }) := by
    refine Eq.trans ?_ (htake.trans hin)
    rw [← hman]
    rfl
  have harrive := arriveWrite_taken (w := .delta m) hup rfl hst hexp hwr
    (hstore.trans ((hsilent.toKept.home Home.store fun _ => rfl).trans hs)) hqueue'
  refine ⟨_, onPkg_leaves (x := Pkg.protStart (deltaOp m) (s.store, { s.dev with home := h0 })) hrun hdom (by rw [hfor]; exact harrive), ?_, ?_⟩
  · refine hmem.trans ?_
    rw [show Pkg.reach (deltaOp m) (s.store, d) = Pkg.writeLine (s.store, d) (extBase m.ext / 64 + m.off / 64)
      (xorBytes (Pkg.cipher (s.store, d) (extBase m.ext / 64 + m.off / 64)) (sliceBytes m.bytes 0 64)) .raw from rfl, hcipher]
    have hsame : Dev.placeOf { s.dev with home := h0 } = s.dev.placeOf := rfl
    rw [Pkg.writeLine_fst, hplace, hsilent.toKept.placeOf, hsilent.toKept.cipher, hsame, cipher_home hexts hregion]
  · exact hout.trans ((hsilent.toKept.respond_out_eq hsilent.out _ _ _).trans (Dev.respond_out_home ..))

theorem Dev.shadow_setShadow (d : Dev) (n : Nat) {f : Shadow → Shadow} (hf : ∀ s, (f s).ward = s.ward) : (d.setShadow n f).shadow n = f (d.shadow n) := by
  have hmap : ∀ l : List Shadow, (l.map (fun s => if s.ward = n then f s else s)).find? (fun s => s.ward == n) =
      (l.find? (fun s => s.ward == n)).map f := fun l => by
    induction l with
    | nil => rfl
    | cons s l ih =>
      by_cases hs : s.ward = n
      · simp [hs, hf]
      · simp [hs, ih]
  rw [Dev.shadow, Dev.setShadow]
  simp only [hmap]
  split
  · next hany =>
    obtain ⟨w, hw, hn⟩ := List.any_eq_true.1 hany
    obtain ⟨v, hv⟩ := Option.isSome_iff_exists.1 (List.find?_isSome (p := fun s : Shadow => s.ward == n) |>.2 ⟨w, hw, hn⟩)
    rw [Dev.shadow, hv]
    rfl
  · next hany =>
    have hnone : d.home.shadows.find? (fun s => s.ward == n) = none := by
      refine List.find?_eq_none.2 fun s hs hn => hany (List.any_eq_true.2 ⟨s, hs, hn⟩)
    rw [Dev.shadow, List.find?_append, hnone]
    simp

theorem journalMessage_taken {m : JournalMsg} (h : homeUp s) (hfor : m.forNode = s.dev.node)
    (hst : (s.dev.ord (s.dev.ordKey s.dev.node m.src 5)).st = .normal) (hexp : (s.dev.ord (s.dev.ordKey s.dev.node m.src 5)).expect = m.manifest)
    (hroom : s.dev.shadowRoom m.ward = true) : ∃ t, exec (.journalMessage m) s = .next t ∧ t.store = s.store ∧
      t.dev.shadow m.ward = (s.dev.shadow m.ward).record m.record ∧
      t.dev.out = (s.dev.respond (protHdr m.src m.tag m.manifest m.ticket m.cmark) sOk []).out := by
  obtain ⟨hup, -⟩ := h
  obtain ⟨hrun, hdom, -⟩ := id hup
  obtain ⟨h0, hman, ⟨hq, hops, hholds, hrecons, hs, hdups⟩, -, -, hshadows, -⟩ := bareOf_takeMan hup s.dev.node m.src 5
  have hstands : Dev.stands { s.dev with home := h0 } m.forNode = false := by
    rw [show m.forNode = Dev.node { s.dev with home := h0 } from hfor]
    exact Dev.stands_node _
  have hroom' : Dev.shadowRoom { s.dev with home := h0 } m.ward = true := by rw [Dev.shadowRoom, hshadows]; exact hroom
  have hset : Dev.shadow ((Dev.setShadow { s.dev with home := h0 } m.ward (fun s => s.record m.record)).recordStatus m.forNode m.src 5 m.manifest sOk false)
      m.ward = (s.dev.shadow m.ward).record m.record := by
    rw [Dev.recordStatus_alone (d := Dev.setShadow { s.dev with home := h0 } m.ward (fun s => s.record m.record)) hdups]
    refine (Dev.shadow_setShadow { s.dev with home := h0 } m.ward (f := fun s => s.record m.record) (by exact fun _ => rfl)).trans ?_
    rw [Dev.shadow, hshadows]
    rfl
  have hrec : ∃ k : Home, (Dev.setShadow { s.dev with home := h0 } m.ward (fun s => s.record m.record)).recordStatus m.forNode m.src 5 m.manifest sOk false =
      { s.dev with home := k } ∧ k.queue = [] ∧ k.store = [] := by
    rw [Dev.recordStatus_alone (d := Dev.setShadow { s.dev with home := h0 } m.ward (fun s => s.record m.record)) hdups]
    exact ⟨_, rfl, hq, hs⟩
  obtain ⟨k, hk, hkq, hks⟩ := hrec
  have hwr : Pkg.takeWr s.dev.node (.journal m) (s.store, s.dev) =
      (s.store, Dev.respond { s.dev with home := k } (protHdr m.src m.tag m.manifest m.ticket m.cmark) sOk []) := by
    have hgo : Pkg.takeWr s.dev.node (.journal m) (s.store, s.dev) = (s.store, Dev.takeJournal m (s.dev.takeMan s.dev.node m.src 5)) := rfl
    rw [hgo, hman, Dev.takeJournal]
    dsimp only
    simp only [hstands, hroom', Bool.false_eq_true, if_false, if_true]
    rw [hk]
  have hhome := Dev.respond_home ({ s.dev with home := k } : Dev) (protHdr m.src m.tag m.manifest m.ticket m.cmark) sOk []
  have harrive := arriveWrite_taken (w := .journal m) hup rfl hst hexp hwr ((congrArg Home.store hhome).trans hks) ((congrArg Home.queue hhome).trans hkq)
  refine ⟨_, onPkg_leaves (x := (s.store, Dev.respond { s.dev with home := k } (protHdr m.src m.tag m.manifest m.ticket m.cmark) sOk [])) hrun hdom
    (by rw [hfor]; exact harrive), rfl, ?_, Dev.respond_out_home ..⟩
  refine Eq.trans ?_ hset
  rw [hk]
  exact congrArg (fun h : Home => (h.shadows.find? (fun s => s.ward == m.ward)).getD { ward := m.ward }) hhome

end

end Sys2Proof.Machine


/-!
SUPPORT. O39, binds: what PROT_BIND sets going, and the end of a holder's bind (R198, R203).
-/
namespace Sys2Proof.Machine

section
variable {d : Dev} {src k word : Nat} {s : State}

/-- The entry that a bind sets: that of the word, the extent as degraded as it was. -/
def Dev.boundEntry (k word : Nat) (d : Dev) : ProtEnt := { protOfWord word with degraded := (d.prot k).degraded }

/-- An operand that PROT_BIND takes and that differs from the entry (R198). -/
structure Dev.BindFits (k word : Nat) (d : Dev) : Prop where
  index : k < 3232
  mode : (protOfWord word).mode ≤ 4
  top : bit word 15 = false
  high : bits word 28 4 = 0
  differs : d.boundEntry k word ≠ d.prot k

theorem Dev.protBind_of (h : d.BindFits k word) (src : Option Nat) : d.protBind src k word =
    if (d.ext k).state ≠ 0 ∧ (d.ext k).state ≠ 5 then d.bindResult src rBadState
    else if (protOfWord word).mode = 2 then
      { d.setProt k (d.boundEntry k word) with home :=
        { (d.setProt k (d.boundEntry k word)).home with bindBusy := some (k, src, 0, false) } }.wr F.PROT_BIND_RESULT_BUSY 1
    else ((d.setProt k (d.boundEntry k word)).passBind k).bindResult src rDone := by
  have hindex := h.index
  have hmode := h.mode
  have hnot : ¬ (3232 ≤ k ∨ 4 < (protOfWord word).mode ∨ bit word 15 = true ∨ bits word 28 4 ≠ 0) := by
    rw [h.top, h.high]
    rintro (h | h | h | h)
    · omega
    · omega
    · exact nomatch h
    · exact h rfl
  rw [Dev.protBind]
  dsimp only
  have hdiff : ¬ ({ protOfWord word with degraded := (d.prot k).degraded } : ProtEnt) = d.prot k := h.differs
  rw [if_neg hnot, if_neg hdiff]
  rfl

theorem Dev.passBind_alone (halone : d.rd F.PROT_CFG_PARTNER_EN = 0) (k : Nat) : d.passBind k = d := by
  rw [Dev.passBind, Dev.partnerOn_alone halone, if_neg (by decide)]

theorem Pkg.bindNext_none {x : Pkg} (h : x.2.home.bindBusy = none) : x.bindNext = x := by rw [Pkg.bindNext, h]

/-- A bind by message that ends at once. -/
theorem protBind_ends {e : Dev} (hrun : s.dev.running = true) (hdom : s.dev.domOn 11 = true) (hq : quiet s.dev)
    (hfm : s.dev.fmAllowed src = true) (hbusy : s.dev.home.bindBusy = none) (hrest : e.rest = s.dev.rest) (hequeue : e.home.queue = [])
    (hebusy : e.home.bindBusy = none) (he : s.dev.protBind (some src) k word = e) :
    exec (.protBind (.msg src ⟨k, word, false⟩)) s = .next { s with dev := e } := by
  refine (onPkg_leaves (x := (s.store, e)) hrun hdom ?_).trans rfl
  have hbind : Dev.protBindMsg src ⟨k, word, false⟩ s.dev = e := by
    rw [Dev.protBindMsg, if_neg (by exact Bool.false_ne_true), if_pos hfm, if_neg (by rw [hbusy]; decide)]
    exact he
  have hx : Pkg.binding (Dev.protBindMsg src ⟨k, word, false⟩) (s.store, s.dev) = (s.store, e) := by
    rw [Pkg.binding, Pkg.dev, hbind]
    exact Pkg.bindNext_none hebusy
  rw [hx]
  exact settle_pump_quiet hequeue (quiet_rest hrest hq)

/-- A message to another package leaves the home as it is. -/
theorem Dev.home_ctrl (d : Dev) (n : Nat) (m : CtrlMsg) : (d.ctrl n m).home = d.home := by simp

theorem protBind_badState (hrun : s.dev.running = true) (hdom : s.dev.domOn 11 = true) (hq : quiet s.dev) (hqueue : s.dev.home.queue = [])
    (hfm : s.dev.fmAllowed src = true) (hbusy : s.dev.home.bindBusy = none) (hfits : s.dev.BindFits k word) (hstate : (s.dev.ext k).state = 1) :
    exec (.protBind (.msg src ⟨k, word, false⟩)) s = .next { s with dev := s.dev.ctrl src (.result "PROT_BIND" rBadState) } := by
  refine protBind_ends hrun hdom hq hfm hbusy (Dev.rest_ctrl _ _ _) ?_ ?_ ?_
  · rw [Dev.home_ctrl, hqueue]
  · rw [Dev.home_ctrl, hbusy]
  · rw [Dev.protBind_of hfits, hstate, if_pos (by decide)]
    rfl

theorem protBind_done (hrun : s.dev.running = true) (hdom : s.dev.domOn 11 = true) (hq : quiet s.dev) (hqueue : s.dev.home.queue = [])
    (hfm : s.dev.fmAllowed src = true) (hbusy : s.dev.home.bindBusy = none) (halone : s.dev.rd F.PROT_CFG_PARTNER_EN = 0)
    (hfits : s.dev.BindFits k word) (hstate : (s.dev.ext k).state = 0) (hmode : (protOfWord word).mode ≠ 2) :
    exec (.protBind (.msg src ⟨k, word, false⟩)) s =
      .next { s with dev := (s.dev.setProt k (s.dev.boundEntry k word)).ctrl src (.result "PROT_BIND" rDone) } := by
  refine protBind_ends hrun hdom hq hfm hbusy (Dev.rest_ctrl (s.dev.setProt k _) _ _) ?_ ?_ ?_
  · rw [Dev.home_ctrl]
    exact hqueue
  · rw [Dev.home_ctrl]
    exact hbusy
  · rw [Dev.protBind_of hfits, hstate, if_neg (by decide), if_neg hmode, Dev.passBind_alone (d := s.dev.setProt k _) halone]
    rfl

/-! ### A holder's bind -/

/-- `e` is `d` but for what has been asked of other packages, or of this one's own queue. -/
def Dev.Asked (d e : Dev) : Prop := ∃ out epochs src q, e = { d with out := out, epochs := epochs, src := src, home := { d.home with queue := q } }

theorem Dev.Asked.of_sends {d e : Dev} (h : d.Sends e) : d.Asked e := by
  obtain ⟨out, epochs, src, rfl⟩ := h
  exact ⟨out, epochs, src, d.home.queue, rfl⟩

theorem Dev.Asked.trans {d e f : Dev} (h : d.Asked e) (k : e.Asked f) : d.Asked f := by
  obtain ⟨_, _, _, _, rfl⟩ := h
  obtain ⟨_, _, _, _, rfl⟩ := k
  exact ⟨_, _, _, _, rfl⟩

theorem Dev.asked_rcAsk (d : Dev) (id n k off p : Nat) (parity : Bool) : d.Asked (d.rcAsk id n k off p parity) := by
  rw [Dev.rcAsk]
  dsimp only
  split
  · exact ⟨_, _, _, _, rfl⟩
  · rw [Dev.protSend]
    exact .of_sends ((Dev.sends_newId (d := d)).trans (Dev.sends_issue _ _))

/-- The record of a reconstruction as it starts. -/
def Dev.newRecon (n k off m holder : Nat) (why : ReconFor) (d : Dev) : Recon :=
  let ps := (List.range 9).filter (fun p => p != m && p != holder)
  let bad := (n == d.node && d.rd F.PROT_GROUP_GROUP_EN == 0) || (List.range 9).any (fun p => p != m && d.positionLost n p)
  { id := d.home.nextOp, node := n, ext := k, off := off, missing := m, waiting := ps, held := ps, parityDone := m == holder, acc := List.replicate 64 0, failed := bad, why := why }

/-- A reconstruction that starts is recorded, and asks for its lines. -/
theorem Pkg.startRecon_asks (n k off m holder : Nat) (why : ReconFor) (x : Pkg) : ∃ d, x.startRecon n k off m holder why = (x.1, d) ∧
    Dev.Asked ({ x.2 with home := { x.2.home with recons := x.2.home.recons ++ [x.2.newRecon n k off m holder why], nextOp := x.2.home.nextOp + 1 } }.count
      0x2B 3 1) d := by
  refine ⟨_, rfl, List.foldlRecOn (motive := fun y : Dev => Dev.Asked _ y) _ _ ⟨_, _, _, _, rfl⟩ fun y hy p _ => hy.trans (y.asked_rcAsk ..)⟩

theorem Pkg.startRecon_frame (n k off m holder : Nat) (why : ReconFor) (x : Pkg) :
    (x.startRecon n k off m holder why).1 = x.1 ∧ (x.startRecon n k off m holder why).2.regs = x.2.regs ∧
    (x.startRecon n k off m holder why).2.glb = x.2.glb ∧
    (x.startRecon n k off m holder why).2.home.bindBusy = x.2.home.bindBusy ∧
    (x.startRecon n k off m holder why).2.home.recons = x.2.home.recons ++ [x.2.newRecon n k off m holder why] := by
  obtain ⟨d, hd, out, epochs, src, q, rfl⟩ := x.startRecon_asks n k off m holder why
  rw [hd]
  exact ⟨rfl, by simp, by simp, by simp, by simp⟩

/-- What a holder's bind leaves before its first line is asked for. -/
def Dev.bindBegun (k word : Nat) (src : Option Nat) (d : Dev) : Dev :=
  { d.setProt k (d.boundEntry k word) with home := { (d.setProt k (d.boundEntry k word)).home with bindBusy := some (k, src, 0, false) } }.wr
    F.PROT_BIND_RESULT_BUSY 1

theorem Dev.bindBegun_frame (k word : Nat) (src : Option Nat) (d : Dev) : (d.bindBegun k word src).home.bindBusy = some (k, src, 0, false) ∧
    (d.bindBegun k word src).home.recons = d.home.recons ∧ (d.bindBegun k word src).node = d.node ∧
    (d.bindBegun k word src).rd F.PROT_BIND_RESULT_BUSY = 1 ∧
    (d.bindBegun k word src).ownPosition (d.bindBegun k word src).node = d.ownPosition d.node := by
  generalize hx : ({ d.setProt k (d.boundEntry k word) with
    home := { (d.setProt k (d.boundEntry k word)).home with bindBusy := some (k, src, 0, false) } } : Dev) = e
  have hb : d.bindBegun k word src = e.wr F.PROT_BIND_RESULT_BUSY 1 := by rw [Dev.bindBegun, hx]
  have hbusy : e.home.bindBusy = some (k, src, 0, false) := by rw [← hx]
  have hrecons : e.home.recons = d.home.recons := by rw [← hx]; rfl
  have hregs : e.regs = d.regs := by rw [← hx]; rfl
  have hglb : e.glb = d.glb := by rw [← hx]; rfl
  have hrd : ∀ f : Fld, f.addr f.page 0 ≠ F.PROT_BIND_RESULT_BUSY.addr F.PROT_BIND_RESULT_BUSY.page 0 → (e.wr F.PROT_BIND_RESULT_BUSY 1).rd f = d.rd f :=
    fun f hf => (Dev.rd_wr_ne _ _ _ _ (.inl hf)).trans (Dev.rd_congr hregs f)
  rw [hb]
  refine ⟨?_, ?_, ?_, (Dev.rd_wr_same _ _ _ (by decide)).trans (by decide), ?_⟩
  · simpa only [Dev.wr_frame] using hbusy
  · simpa only [Dev.wr_frame] using hrecons
  · exact Dev.node_congr ((by simp : (e.wr F.PROT_BIND_RESULT_BUSY 1).glb = e.glb).trans hglb)
  · rw [Dev.ownPosition, if_pos rfl, Dev.ownPosition, if_pos rfl]
    exact hrd _ (by decide)

theorem protBind_holder (hrun : s.dev.running = true) (hdom : s.dev.domOn 11 = true) (hfm : s.dev.fmAllowed src = true)
    (hbusy : s.dev.home.bindBusy = none) (hfits : s.dev.BindFits k word) (hstate : (s.dev.ext k).state = 0) (hmode : (protOfWord word).mode = 2)
    (hrecons : ∀ c ∈ s.dev.home.recons, c.why ≠ .bind) :
    let y := Pkg.startRecon s.dev.node k 0 (s.dev.ownPosition s.dev.node) (s.dev.ownPosition s.dev.node) .bind (s.store, s.dev.bindBegun k word (some src))
    exec (.protBind (.msg src ⟨k, word, false⟩)) s = .next (withPkg s (Pkg.settle (Pkg.pump y))) ∧ y.1 = s.store ∧
      y.2.rd F.PROT_BIND_RESULT_BUSY = 1 ∧ y.2.home.bindBusy = some (k, some src, 0, false) ∧
      ∃ c, y.2.home.recons = s.dev.home.recons ++ [c] ∧ c.ext = k ∧ c.off = 0 ∧ c.why = .bind ∧
        c.waiting = (List.range 9).filter (fun q => q != s.dev.ownPosition s.dev.node) := by
  intro y
  obtain ⟨hbegun, hrec, hnode, hone, hpos⟩ := Dev.bindBegun_frame k word (some src) s.dev
  have hbind : Dev.protBindMsg src ⟨k, word, false⟩ s.dev = s.dev.bindBegun k word (some src) := by
    rw [Dev.protBindMsg, if_neg (by exact Bool.false_ne_true), if_pos hfm, if_neg (by rw [hbusy]; decide)]
    refine (Dev.protBind_of hfits (some src)).trans ?_
    rw [hstate, if_neg (by decide), if_pos hmode]
    rfl
  have hx : Pkg.binding (Dev.protBindMsg src ⟨k, word, false⟩) (s.store, s.dev) = y := by
    have hsize : ¬ extSize k ≤ 0 := by unfold extSize; split <;> simp
    have hnone : (s.dev.bindBegun k word (some src)).home.recons.any (fun r => r.why == .bind) = false := by
      rw [hrec, List.any_eq_false]
      exact fun c hc => by simpa using hrecons c hc
    rw [Pkg.binding, Pkg.dev, hbind, Pkg.bindNext]
    simp only [hbegun]
    rw [if_neg (by rw [hnone]; exact fun h => h.elim Bool.false_ne_true hsize), hpos, hnode]
  have hstart := Pkg.startRecon_frame s.dev.node k 0 (s.dev.ownPosition s.dev.node) (s.dev.ownPosition s.dev.node) .bind
    (s.store, s.dev.bindBegun k word (some src))
  obtain ⟨hstore, hregs, -, hb, hr⟩ := hstart
  refine ⟨onPkg_leaves hrun hdom (by rw [hx]), hstore, (Dev.rd_congr hregs _).trans hone, hb.trans hbegun,
    _, hr.trans (congrArg (· ++ _) hrec), rfl, rfl, rfl, ?_⟩
  exact List.filter_congr fun q _ => Bool.and_self _

end

end Sys2Proof.Machine


/-!
SUPPORT. O39, the last line of a holder's bind (R203).
-/
namespace Sys2Proof.Machine

section
variable {d : Dev} {k n i off : Nat} {bad : Bool} {who : Option Nat} {s : State}

/-- The bind in progress is over. -/
def Dev.bindOver (d : Dev) : Dev := { d with home := { d.home with bindBusy := none } }.wr F.PROT_BIND_RESULT_BUSY 0

theorem Dev.bindOver_frame (d : Dev) : d.bindOver.home.bindBusy = none ∧ d.bindOver.rd F.PROT_BIND_RESULT_BUSY = 0 ∧
    d.bindOver.rd F.PROT_CFG_PARTNER_EN = d.rd F.PROT_CFG_PARTNER_EN := by
  unfold Dev.bindOver
  generalize hx : ({ d with home := { d.home with bindBusy := none } } : Dev) = e
  have hregs : e.regs = d.regs := by rw [← hx]
  have hbusy : e.home.bindBusy = none := by rw [← hx]
  refine ⟨by simpa only [Dev.wr_frame] using hbusy, Dev.rd_wr_same _ _ _ (by decide), ?_⟩
  exact (Dev.rd_wr_ne _ _ _ _ (.inl (by decide))).trans (Dev.rd_congr hregs _)

theorem Dev.parityDone_idle (h : d.home.bindBusy = none) : d.parityDone k n = d := by rw [Dev.parityDone, h]

theorem Dev.parityDone_other (h : d.home.bindBusy = some (i, who, off, bad)) (hne : off < extSize i ∨ i ≠ k ∨ off ≠ 64 * n) :
    d.parityDone k n = d := by
  rw [Dev.parityDone, h]
  exact if_pos hne

theorem Dev.parityDone_last (h : d.home.bindBusy = some (k, who, 64 * n, bad)) (hsize : extSize k ≤ 64 * n)
    (halone : d.rd F.PROT_CFG_PARTNER_EN = 0) : d.parityDone k n = d.bindOver.bindResult who (if bad then rBadState else rDone) := by
  have hgo : d.parityDone k n = if bad then d.bindOver.bindResult who rBadState else (d.bindOver.passBind k).bindResult who rDone := by
    rw [Dev.parityDone, h]
    exact if_neg (by omega)
  rw [hgo, Dev.passBind_alone (d.bindOver_frame.2.2.trans halone)]
  cases bad <;> rfl

/-- What the registers tell of a bind of theirs. -/
theorem Dev.bindResult_tells (d : Dev) {r : Nat} (hr : r < 4) : (d.bindResult none r).home = d.home ∧
    (d.bindResult none r).rd F.PROT_BIND_RESULT_BUSY = 0 ∧ (d.bindResult none r).rd F.PROT_BIND_RESULT_RESULT = r ∧
    bit ((d.bindResult none r).word 0x2B014) 0 = true := by
  have hisr := Dev.isr_event ((d.wr F.PROT_BIND_RESULT_RESULT r).wr F.PROT_BIND_RESULT_BUSY 0) 0x2B (i := 0) (by decide)
  refine ⟨by simp [Dev.bindResult], ?_, ?_, hisr⟩
  · rw [Dev.bindResult, Dev.rd_event _ _ _ _ (by decide)]
    exact Dev.rd_wr_same _ _ _ (by decide)
  · rw [Dev.bindResult, Dev.rd_event _ _ _ _ (by decide), Dev.rd_wr_ne _ _ _ _ (.inr (by decide))]
    exact (Dev.rd_wr_same _ _ _ (by decide)).trans (Nat.mod_eq_of_lt hr)

end

theorem parityComputeDone_cases (k n : Nat) (bad : Bool) (s : State) (hrun : s.dev.running = true) (hdom : s.dev.domOn 11 = true)
    (halone : s.dev.rd F.PROT_CFG_PARTNER_EN = 0) :
    (s.dev.home.bindBusy = none → exec (.parityComputeDone k n) s = .next s) ∧
    (∀ who i m, s.dev.home.bindBusy = some (i, who, m, bad) → m < extSize i ∨ i ≠ k ∨ m ≠ 64 * n →
      exec (.parityComputeDone k n) s = .next s) ∧
    (∀ src, s.dev.home.bindBusy = some (k, some src, 64 * n, bad) → extSize k ≤ 64 * n → exec (.parityComputeDone k n) s = .next { s with
      dev := ({ s.dev with home := { s.dev.home with bindBusy := none } }.wr F.PROT_BIND_RESULT_BUSY 0).ctrl src
        (.result "PROT_BIND" (if bad then rBadState else rDone)) }) ∧
    (s.dev.home.bindBusy = some (k, none, 64 * n, bad) → extSize k ≤ 64 * n → ∃ t, exec (.parityComputeDone k n) s = .next t ∧ t.store = s.store ∧
      t.dev.home.bindBusy = none ∧ t.dev.rd F.PROT_BIND_RESULT_BUSY = 0 ∧
      t.dev.rd F.PROT_BIND_RESULT_RESULT = (if bad then rBadState else rDone) ∧ bit (t.dev.word 0x2B014) 0 = true) := by
  have hexec : ∀ {e : Dev}, s.dev.parityDone k n = e → exec (.parityComputeDone k n) s = .next { s with dev := e } := fun {e} he =>
    (onPkg_leaves (f := Pkg.dev (Dev.parityDone k n)) (x := (s.store, e)) hrun hdom (by rw [Pkg.dev, he])).trans rfl
  refine ⟨fun h => hexec (Dev.parityDone_idle h), fun who i m h hne => hexec (Dev.parityDone_other h hne),
    fun src h hsize => hexec (Dev.parityDone_last h hsize halone), fun h hsize => ?_⟩
  obtain ⟨hhome, hbusy, hres, hbit⟩ := s.dev.bindOver.bindResult_tells (r := if bad then rBadState else rDone) (by cases bad <;> decide)
  exact ⟨_, hexec (Dev.parityDone_last h hsize halone), rfl, (congrArg Home.bindBusy hhome).trans s.dev.bindOver_frame.1, hbusy, hres, hbit⟩

end Sys2Proof.Machine


/-!
SUPPORT. O39, the answers to deltas, mirror writes and journal messages (R205, R207, R213, R622).
-/
namespace Sys2Proof.Machine

section
variable {d : Dev} {o : HOp} {w : LineW} {q : OutReq} {s : State} {p : Purpose}

/-- The only request of the protection engine has its answer in time: it ends, and the answer is taken. -/
theorem Pkg.protAnswer_taken {st : Store} (f : Pkg → Pkg) (hreqs : d.src.reqs = [q]) (heng : q.acc.eng = 5) (hpur : q.acc.purpose = p)
    (hin : d.expired q = false) (hheld : d.src.held = []) : ∃ r : Src, Pkg.protAnswer p f (st, d) = f (st, { d with src := r }) ∧
      r.reqs = [] ∧ r.held = [] ∧ r.resyncs = d.src.resyncs ∧ r.mani = d.src.mani ∧ r.win = d.src.win ∧ r.noNode = d.src.noNode := by
  have hfind : d.src.reqs.find? (fun o => o.acc.eng == 5 && o.acc.purpose == p) = some q := by simp [hreqs, heng, hpur]
  have hended : Dev.protEnded p d = d.endOut q 1 := by
    rw [Dev.protEnded, hfind]
    exact Dev.pumpSrc_none hheld
  have hanswer : Pkg.protAnswer p f (st, d) = f (st, d.endOut q 1) := by
    rw [Pkg.protAnswer, hfind]
    dsimp only
    rw [hin, if_neg (by decide), Pkg.dev, hended]
  exact ⟨(d.endOut q 1).src, hanswer, by simp [Dev.endOut, hreqs], hheld, rfl, rfl, rfl, rfl⟩

/-- The answer that lets a write of this package's own go on leaves it ready to be performed. -/
theorem Pkg.settleOp_ready {x : Pkg} (hkind : o.kind = .write) (hdeltas : o.deltas = []) (hcopies : o.copies = 0) :
    x.settleOp o = (x.1, x.2.setOp { o with phase := .ready }) := by
  rw [Pkg.settleOp, if_pos ⟨by rw [hdeltas]; rfl, hcopies⟩, hkind]
  rfl

end

/-- The home has one write of the package's own in hand, and the protection engine one request that awaits its answer. -/
structure Dev.Awaited (o : HOp) (q : OutReq) (d : Dev) : Prop where
  running : d.running = true
  powered : d.domOn 11 = true
  ops : d.home.ops = [o]
  queue : d.home.queue = []
  none : noneAtHome d
  reqs : d.src.reqs = [q]
  eng : q.acc.eng = 5
  inTime : d.expired q = false
  held : d.src.held = []
  node : o.node = d.node
  kind : o.kind = .write
  status : o.status = sOk

section
variable {d : Dev} {o : HOp} {w : LineW} {q : OutReq} {s : State} {p : Purpose}

/-- What the home does with an answer in time is all that follows from it. -/
theorem Dev.Awaited.answer (h : s.dev.Awaited o q) (hpur : q.acc.purpose = p) {f : Pkg → Pkg} {y : Src → Pkg}
    (hf : ∀ r, f (s.store, { s.dev with src := r }) = y r) (hy : ∀ r, noneAtHome (y r).2) :
    ∃ r, onHome (Pkg.protAnswer p f) s = .next (withPkg s (y r)) := by
  obtain ⟨r, hr, -⟩ := Pkg.protAnswer_taken (st := s.store) f h.reqs h.eng hpur h.inTime h.held
  exact ⟨r, onPkg_leaves h.running h.powered (thenHome_of (hr.trans (hf r)) (.inr (hy r)))⟩

theorem Dev.Awaited.opOf (h : d.Awaited o q) (r : Src) : Dev.opOf { d with src := r } o.id = some o := by simp [Dev.opOf, h.ops]

theorem Dev.Awaited.stands (h : d.Awaited o q) (r : Src) : Dev.stands { d with src := r } o.node = false := by
  rw [show o.node = Dev.node { d with src := r } from h.node]
  exact Dev.stands_node _

/-- An operation that is set aside for its performance leaves what waits at the home. -/
theorem noneAtHome_setOp {e : Dev} (h : noneAtHome e) (o : HOp) : noneAtHome (e.setOp o) := h

/-- The delta's answer lets the line be written (R205). -/
theorem Pkg.deltaAnswer_ok {x : Pkg} (hop : x.2.opOf o.id = some o) (hstands : (x.applyLine w).2.stands o.node = false) (hkind : o.kind = .write)
    (hdeltas : o.deltas = [w.line]) (hcopies : o.copies = 0) (happ : o.applied = false) (hws : o.ws = [w]) (hqueue : (x.applyLine w).2.home.queue = []) :
    x.deltaAnswer o.id w.line sOk = ((x.applyLine w).1, (x.applyLine w).2.setOp { o with deltas := [], applied := true, phase := .ready }) := by
  have hfind : o.ws.find? (fun v => v.line == w.line) = some w := by simp [hws]
  have hleft : o.deltas.filter (fun v => v != w.line) = [] := by simp [hdeltas]
  have hlost : ¬ sOk = sNodeLost := by decide
  rw [Pkg.deltaAnswer, hop]
  dsimp only
  rw [if_neg (by simp [hdeltas])]
  have hbad : (sOk != sOk && sOk != sNodeLost && o.status == sOk) = false := by simp
  simp only [hlost, if_false, ne_eq, not_true, hfind, happ, hstands, Bool.false_eq_true, hleft, hbad]
  have hready := Pkg.settleOp_ready (o := { o with deltas := [], applied := true }) (x := x.applyLine w) hkind rfl hcopies
  exact (congrArg Pkg.pump hready).trans (pump_nil hqueue)

theorem deltaAnswer_applies (h : s.dev.Awaited o q) (hpur : q.acc.purpose = .delta o.id w.line) (hdeltas : o.deltas = [w.line])
    (hcopies : o.copies = 0) (happ : o.applied = false) (hws : o.ws = [w]) : ∃ t, exec (.deltaAnswer o.id w.line sOk) s = .next t ∧
      t.store = (Pkg.applyLine w (s.store, s.dev)).1 ∧ t.dev.home.ops = [{ o with deltas := [], applied := true, phase := .ready }] := by
  have hst := fun r : Src => Pkg.stored_applyLine w (s.store, { s.dev with src := r })
  have hmem : ∀ r : Src, (Pkg.applyLine w (s.store, { s.dev with src := r })).1 = (Pkg.applyLine w (s.store, s.dev)).1 := fun r => by
    rw [Pkg.applyLine, Pkg.applyLine]
    cases w.phys <;> rfl
  have hf : ∀ r : Src, Pkg.deltaAnswer o.id w.line sOk (s.store, { s.dev with src := r }) =
      ((Pkg.applyLine w (s.store, { s.dev with src := r })).1, (Pkg.applyLine w (s.store, { s.dev with src := r })).2.setOp
        { o with deltas := [], applied := true, phase := .ready }) := fun r =>
    Pkg.deltaAnswer_ok (h.opOf r) ((hst r).toKept.stands o.node |>.trans (h.stands r)) h.kind hdeltas hcopies happ hws ((hst r).queue.trans h.queue)
  obtain ⟨r, hr⟩ := h.answer hpur hf fun r => noneAtHome_setOp (by
    obtain ⟨hgate, hstore, hrecons⟩ := h.none
    exact ⟨((hst r).home Home.gate fun _ => rfl).trans hgate, ((hst r).home Home.store fun _ => rfl).trans hstore,
      ((hst r).home Home.recons fun _ => rfl).trans hrecons⟩) _
  exact ⟨_, hr, hmem r, Dev.setOp_alone ((hst r).ops.trans h.ops) rfl⟩

/-! ### Mirror writes and journal messages -/

/-- Once its answer has come in, a mirrored write is ready. -/
theorem Pkg.mirrorAnswer_goes {x : Pkg} {st : Nat} (hop : x.2.opOf o.id = some o) (hstands : x.2.stands o.node = false) (hkind : o.kind = .write)
    (hphase : o.phase = .protect) (hdeltas : o.deltas = []) (hcopies : o.copies = 1) (hst : st = sOk ∨ st = sNodeLost) {e : Dev}
    (he : (if st = sOk then o.ws.foldl (fun (d : Dev) w => d.staleDrop w.line) x.2 else x.2.peerLost x.2.partner) = e) (hqueue : e.home.queue = []) :
    x.mirrorAnswer o.id st = (x.1, e.setOp { o with copies := 0, phase := .ready }) := by
  have hbad : (!false && st != sOk && st != sNodeLost) = false := by rcases hst with rfl | rfl <;> rfl
  have hready := Pkg.settleOp_ready (o := { o with copies := 0 }) (x := (x.1, e)) hkind hdeltas rfl
  have hdev : (if st = sOk then x.dev (fun d => (o.ws.map (·.line)).foldl (fun (d : Dev) l => d.staleDrop l) d)
      else if st = sNodeLost then x.dev (fun d => d.peerLost d.partner)
      else x.dev (fun d => (o.ws.map (·.line)).foldl (fun (d : Dev) l => d.staleAdd l) d)) = (x.1, e) := by
    rw [← he]
    rcases hst with rfl | rfl
    · rw [if_pos rfl, if_pos rfl, Pkg.dev, List.foldl_map]
    · rw [if_neg (show ¬ sNodeLost = sOk by decide), if_neg (show ¬ sNodeLost = sOk by decide), if_pos rfl]
      rfl
  rw [Pkg.mirrorAnswer, hop]
  dsimp only
  rw [if_neg (by rw [hcopies, hphase]; decide)]
  simp only [hstands, Bool.false_eq_true, if_false, hbad, hdev, hcopies]
  exact (congrArg Pkg.pump hready).trans (pump_nil hqueue)

/-- Lines off the stale-line log leave what waits at the home, and what it has in hand. -/
theorem Dev.Noted.waits {d e : Dev} (h : d.Noted e) : e.home.ops = d.home.ops ∧ e.home.queue = d.home.queue ∧ (noneAtHome d → noneAtHome e) := by
  obtain ⟨k, rfl, hops, hqueue, hgate, hstore, hrecons, -⟩ := h
  exact ⟨hops, hqueue, fun ⟨h1, h2, h3⟩ => ⟨hgate.trans h1, hstore.trans h2, hrecons.trans h3⟩⟩

theorem mirrorAnswer_ok (h : s.dev.Awaited o q) (hpur : q.acc.purpose = .mirrorCopy o.id) (hphase : o.phase = .protect) (hdeltas : o.deltas = [])
    (hcopies : o.copies = 1) : ∃ t, exec (.mirrorAnswer o.id sOk) s = .next t ∧ t.store = s.store ∧
      t.dev.home.ops = [{ o with copies := 0, phase := .ready }] := by
  have hnoted := fun r : Src => (Dev.noted_staleDrops { s.dev with src := r } o.ws).waits
  obtain ⟨r, hr⟩ := h.answer hpur (fun r => Pkg.mirrorAnswer_goes (h.opOf r) (h.stands r) h.kind hphase hdeltas hcopies (.inl rfl) (if_pos rfl)
    ((hnoted r).2.1.trans h.queue)) fun r => noneAtHome_setOp ((hnoted r).2.2 h.none) _
  exact ⟨_, hr, rfl, Dev.setOp_alone ((hnoted r).1.trans h.ops) rfl⟩

theorem journalAnswer_ok (h : s.dev.Awaited o q) (hpur : q.acc.purpose = .journal o.id) (hphase : o.phase = .journal)
    (hmode : (s.dev.prot o.ext).mode ≠ 1) : ∃ t, exec (.journalAnswer o.id sOk) s = .next t ∧ t.store = s.store ∧
      t.dev.home.ops = [{ o with phase := .ready }] := by
  have hf : ∀ r : Src, Pkg.journalAnswer o.id sOk (s.store, { s.dev with src := r }) =
      (s.store, Dev.setOp { s.dev with src := r } { o with phase := .ready }) := fun r => by
    have hprot : (Dev.protOf { s.dev with src := r } o.node o.ext).mode ≠ 1 := by
      rw [Dev.protOf_own (h.stands r)]
      exact hmode
    have hpast : Dev.pastJournal o { s.dev with src := r } = Dev.setOp { s.dev with src := r } { o with phase := .ready } := if_neg fun hne => hprot hne.1
    have hlost : ¬ sOk = sNodeLost := by decide
    rw [Pkg.journalAnswer, h.opOf r]
    dsimp only
    rw [if_neg (by rw [hphase]; decide)]
    simp only [hlost, if_false, true_or, if_true, h.kind, Pkg.dev, hpast]
    exact pump_nil h.queue
  obtain ⟨r, hr⟩ := h.answer hpur hf fun r => noneAtHome_setOp (e := { s.dev with src := r }) h.none _
  exact ⟨_, hr, rfl, Dev.setOp_alone (d := { s.dev with src := r }) h.ops rfl⟩

/-- Extents that become degraded change their entries in the protection table alone. -/
theorem Dev.home_degrade (d : Dev) (ks : List Nat) (code detail : Nat) (first : Nat → Nat) :
    ∃ pr, (d.degrade ks code detail first).home = { d.home with prot := pr } := by
  rw [Dev.degrade]
  dsimp only
  split
  · exact ⟨_, rfl⟩
  · have hout : ∀ (e : Dev) (k : Nat), ((e.event 0x2B 2).capture 0x2B .degraded 0 code 0x3F k).home = e.home := fun e k => by simp
    simp only [hout]
    exact List.foldlRecOn (motive := fun e : Dev => ∃ pr, e.home = { d.home with prot := pr }) _ _ ⟨_, rfl⟩ fun e he k _ => by
      obtain ⟨pr, he⟩ := he
      exact ⟨_, by rw [Dev.setProt, he]⟩

/-- The extents of package `n`, lost, in the group at `pos`, become degraded. -/
def Dev.lostAt (pos : Option Nat) (n : Nat) (d : Dev) : Dev :=
  let isPartner := d.rd F.PROT_CFG_PARTNER_EN == 1 && d.partner == n
  let d := if isPartner then { d with home := { d.home with partnerLost := true } } else d
  let ks := d.extsOfMode (fun e => (isPartner && e.mode == 3) || (e.mode == 1 && pos == some e.holder))
  d.degrade ks 0x13 (n % 128) (fun k => k % 4096 * 65536)

theorem Dev.lostAt_partner (d : Dev) (pos : Option Nat) (hen : d.rd F.PROT_CFG_PARTNER_EN = 1) : ∃ pr,
    (d.lostAt pos d.partner).home = { d.home with partnerLost := true, prot := pr } := by
  have hme : (d.rd F.PROT_CFG_PARTNER_EN == 1 && d.partner == d.partner) = true := by rw [hen]; simp
  rw [Dev.lostAt]
  dsimp only
  rw [hme]
  exact Dev.home_degrade { d with home := { d.home with partnerLost := true } } _ _ _ _

/-- What the loss of the partner leaves of the home. -/
theorem Dev.peerLost_partner (d : Dev) (hen : d.rd F.PROT_CFG_PARTNER_EN = 1) : (d.peerLost d.partner).home.partnerLost = true ∧
    (d.peerLost d.partner).home.ops = d.home.ops ∧ (d.peerLost d.partner).home.queue = d.home.queue ∧
    (noneAtHome d → noneAtHome (d.peerLost d.partner)) := by
  have hgo : ∃ pr, (d.peerLost d.partner).home = { d.home with partnerLost := true, prot := pr } := by
    cases hpos : d.positionOf d.partner with
    | none =>
      have heq : d.peerLost d.partner = d.lostAt none d.partner := by rw [Dev.peerLost, hpos]; rfl
      rw [heq]
      exact d.lostAt_partner none hen
    | some p =>
      have heq : d.peerLost d.partner = (d.wr F.PROT_GROUP_LOST (putBit (d.rd F.PROT_GROUP_LOST) p true)).lostAt (some p) d.partner := by
        rw [Dev.peerLost, hpos]; rfl
      have hpart : (d.wr F.PROT_GROUP_LOST (putBit (d.rd F.PROT_GROUP_LOST) p true)).partner = d.partner := Dev.rd_wr_ne _ _ _ _ (.inl (by decide))
      have hhome : (d.wr F.PROT_GROUP_LOST (putBit (d.rd F.PROT_GROUP_LOST) p true)).home = d.home := by simp
      have hen' := (Dev.rd_wr_ne d F.PROT_GROUP_LOST F.PROT_CFG_PARTNER_EN (putBit (d.rd F.PROT_GROUP_LOST) p true) (.inl (by decide))).trans hen
      rw [heq, ← hpart, ← hhome]
      exact Dev.lostAt_partner _ _ hen'
  obtain ⟨pr, hhome⟩ := hgo
  refine ⟨by rw [hhome], by rw [hhome], by rw [hhome], fun h => ?_⟩
  rw [noneAtHome, hhome]
  exact h

theorem mirrorAnswer_lost (h : s.dev.Awaited o q) (hpur : q.acc.purpose = .mirrorCopy o.id) (hphase : o.phase = .protect) (hdeltas : o.deltas = [])
    (hcopies : o.copies = 1) (hen : s.dev.rd F.PROT_CFG_PARTNER_EN = 1) : ∃ t, exec (.mirrorAnswer o.id sNodeLost) s = .next t ∧ t.store = s.store ∧
      t.dev.home.partnerLost = true ∧ t.dev.home.ops = [{ o with copies := 0, phase := .ready }] := by
  have hlost := fun r : Src => Dev.peerLost_partner { s.dev with src := r } hen
  obtain ⟨r, hr⟩ := h.answer hpur (fun r => Pkg.mirrorAnswer_goes (h.opOf r) (h.stands r) h.kind hphase hdeltas hcopies (.inr rfl) (if_neg (by decide))
    ((hlost r).2.2.1.trans h.queue)) fun r => noneAtHome_setOp ((hlost r).2.2.2 h.none) _
  exact ⟨_, hr, rfl, (hlost r).1, Dev.setOp_alone ((hlost r).2.1.trans h.ops) rfl⟩

end

end Sys2Proof.Machine


/-!
SUPPORT. O39, a survivor's line: RC_READ, and the end of the hold that it leaves (R208, R209).
-/
namespace Sys2Proof.Machine

section
variable {d : Dev} {s : State}

/-! ### RC_READ -/

/-- Reading a line corrects no error that the code only detects, and makes none. -/
theorem Dev.lineErr_readBurst (d : Dev) (l : Nat) : (d.readBurst (l, List.range 8)).lineErr l = 2 ↔ d.lineErr l = 2 := by
  constructor
  · exact fun h => by_contra fun hne => Dev.partErr_ne_two (d.errsOf_readBursts_sublist [(l, List.range 8)] l) (List.Subset.refl _) hne h
  · intro h
    have hcheck := Dev.partErr_congr ((d.aside_checkBurst false l).errsOf l) (List.range 8)
    rw [Dev.lineErr, ← hcheck] at h
    rw [Dev.lineErr, Dev.readBurst]
    generalize d.checkBurst false l = e at h ⊢
    by_cases hl : metaLine0 ≤ l
    · rw [Dev.partErr_eq_two, if_pos hl] at h ⊢
      obtain ⟨w, hw, hc⟩ := h
      exact ⟨w, hw, e.wordErrs_readPart _ _ l w hl hc⟩
    · rwa [Dev.partErr_congr ((e.aside_readPart_bulk (by omega) _).errsOf l)]

/-- Line `off` of extent `k` is held for `by_`. -/
def Dev.heldFor (k off by_ : Nat) (d : Dev) : Dev :=
  { d with home := { d.home with rcHolds := d.home.rcHolds ++ [RcHold.mk k off by_ d.tim.tide] } }

/-- What a survivor answers, and the hold it takes. -/
theorem Pkg.rcLine_holds {x : Pkg} {k off : Nat} (by_ : Nat) (hholds : x.2.home.rcHolds = []) : ∃ (v : List Byte) (e : Dev),
    x.rcLine by_ k off false = ((x.2.home.stale.contains (extGpa x.2.node k off / 64), x.2.lineErr (extBase k / 64 + off / 64) == 2, v), (x.1, e)) ∧
    e.home.rcHolds = [⟨k, off, by_, x.2.tim.tide⟩] ∧ e.home.queue = x.2.home.queue ∧ e.glb = x.2.glb ∧ e.epochNow = x.2.epochNow ∧
    (x.2.lineErr (extBase k / 64 + off / 64) = 2 → v.length = 64) ∧
    (x.2.lineErr (extBase k / 64 + off / 64) ≠ 2 → v = x.cipher (extBase k / 64 + off / 64)) := by
  have hk := (x.2.silent_readBurst (extBase k / 64 + off / 64, List.range 8)).toKept
  have herr := x.2.lineErr_readBurst (extBase k / 64 + off / 64)
  have hcipher := hk.cipher x.1 (extBase k / 64 + off / 64)
  have hgo : ∃ y : Dev, y = x.2.readBurst (extBase k / 64 + off / 64, List.range 8) ∧ x.rcLine by_ k off false =
      if Dev.lineErr (y.heldFor k off by_) (extBase k / 64 + off / 64) = 2 then
        ((x.2.home.stale.contains (extGpa x.2.node k off / 64), true, (((y.heldFor k off by_).mediaBad (extBase k / 64 + off / 64) 0).freeBytes 64).1),
          (x.1, (((y.heldFor k off by_).mediaBad (extBase k / 64 + off / 64) 0).freeBytes 64).2))
      else ((x.2.home.stale.contains (extGpa x.2.node k off / 64), false, Pkg.cipher (x.1, y.heldFor k off by_) (extBase k / 64 + off / 64)),
        (x.1, y.heldFor k off by_)) := ⟨_, rfl, rfl⟩
  obtain ⟨y, hy, hgo⟩ := hgo
  rw [← hy] at hk herr hcipher
  have hheld : (y.heldFor k off by_).home.rcHolds = [⟨k, off, by_, x.2.tim.tide⟩] := by
    rw [Dev.heldFor, (hk.home Home.rcHolds fun _ => rfl).trans hholds, hk.tim]
    rfl
  have herr' : Dev.lineErr (y.heldFor k off by_) (extBase k / 64 + off / 64) = 2 ↔ x.2.lineErr (extBase k / 64 + off / 64) = 2 := herr
  have hsame : Pkg.cipher (x.1, y.heldFor k off by_) (extBase k / 64 + off / 64) = x.cipher (extBase k / 64 + off / 64) :=
    (cipher_home (h := (y.heldFor k off by_).home) rfl rfl _).trans hcipher
  have hqueue : (y.heldFor k off by_).home.queue = x.2.home.queue := hk.queue
  have hglb : (y.heldFor k off by_).glb = x.2.glb := hk.glb
  have hepoch : (y.heldFor k off by_).epochNow = x.2.epochNow := hk.epochNow
  generalize y.heldFor k off by_ = e at hgo hheld herr' hsame hqueue hglb hepoch
  by_cases h2 : x.2.lineErr (extBase k / 64 + off / 64) = 2
  · rw [if_pos (herr'.2 h2)] at hgo
    have hbad := e.kept_badPart (extBase k / 64 + off / 64) (List.range 8) 0
    have hhome : (e.mediaBad (extBase k / 64 + off / 64) 0).home = e.home := Dev.badPart_home ..
    refine ⟨_, ((e.mediaBad (extBase k / 64 + off / 64) 0).freeBytes 64).2, by rw [hgo, h2]; rfl, (congrArg Home.rcHolds hhome).trans hheld, (congrArg Home.queue hhome).trans hqueue, hbad.glb.trans hglb,
      hbad.epochNow.trans hepoch, fun _ => length_freeBytes _ _, fun h => absurd h2 h⟩
  · rw [if_neg fun h => h2 (herr'.1 h)] at hgo
    exact ⟨_, _, by rw [hgo, beq_false_of_ne h2], hheld, hqueue, hglb, hepoch, fun h => absurd h h2, fun _ => hsame⟩

theorem rcRead_held {m : RcMsg} (h : homeUp s) (hext : m.ext < 3232) (hpar : m.parity = false)
    (hpow : s.dev.linePowered (extGpa s.dev.node m.ext m.off / 64 % 2 ^ 39) = true) :
    let l := extBase m.ext / 64 + m.off / 64
    ∃ t v, exec (.rcRead m) s = .next t ∧ t.store = s.store ∧
      t.dev.home.rcHolds = [⟨m.ext, m.off, m.src, s.dev.tim.tide⟩] ∧ (s.dev.lineErr l = 2 → v.length = 64) ∧
      (s.dev.lineErr l ≠ 2 → v = Pkg.cipher (s.store, s.dev) l) ∧
      (s.dev.hasNode m.src = true → t.dev.out.getLast? = (s.dev.respond (protHdr m.src m.tag 0 m.ticket m.cmark)
        (if s.dev.lineErr l = 2 then sDataError else sOk)
        (natLE 1 (b2n (s.dev.home.stale.contains (extGpa s.dev.node m.ext m.off / 64))) ++ v)).out.getLast?) := by
  intro l
  obtain ⟨hup, -⟩ := h
  obtain ⟨hrun, hdom, -, hqueue, hops, hholds, hrecons, -⟩ := id hup
  obtain ⟨v, e, hrc, hheld, hq, hglb, hepoch, hlen, hsame⟩ := Pkg.rcLine_holds (x := (s.store, s.dev)) (k := m.ext) (off := m.off) m.src hholds
  have hserve : Pkg.serveRc m (s.store, s.dev) = (s.store, e.respond (protHdr m.src m.tag 0 m.ticket m.cmark)
      (if s.dev.lineErr l = 2 then sDataError else sOk) (natLE 1 (b2n (s.dev.home.stale.contains (extGpa s.dev.node m.ext m.off / 64))) ++ v)) := by
    rw [Pkg.serveRc, hpar, hrc]
    simp only [Pkg.dev, beq_iff_eq]
    rfl
  have hhome := Dev.respond_home e (protHdr m.src m.tag 0 m.ticket m.cmark) (if s.dev.lineErr l = 2 then sDataError else sOk)
    (natLE 1 (b2n (s.dev.home.stale.contains (extGpa s.dev.node m.ext m.off / 64))) ++ v)
  have hwait : s.dev.itemWaits [] (.rc m) = false := by
    refine Dev.itemWaits_alone hops hholds hrecons fun l hl q hlq => ?_
    obtain rfl := List.mem_singleton.1 (show l ∈ [extGpa s.dev.node m.ext m.off / 64] from hl)
    obtain rfl := Option.some.inj ((Dev.physOf_own s.dev.stands_node _).symm.trans hlq)
    exact hpow
  have henq := Pkg.enqueue_item (x := (s.store, s.dev)) (i := .rc m) hqueue hpar hwait (by
    rw [show Pkg.startItem (.rc m) (s.store, s.dev) = Pkg.serveRc m (s.store, s.dev) from rfl, hserve]
    exact (congrArg Home.queue hhome).trans (hq.trans hqueue))
  have hgo : Pkg.rcRead m (s.store, s.dev) = Pkg.serveRc m (s.store, s.dev) := by
    rw [Pkg.rcRead, if_pos (chan1Open_of_homeIdle hup), Pkg.rcIn, if_neg (by omega), if_neg (by simp [hholds])]
    exact henq
  refine ⟨_, v, onPkg_leaves hrun hdom (hgo.trans hserve), rfl, (congrArg Home.rcHolds hhome).trans hheld, hlen, hsame, fun hn => ?_⟩
  exact Dev.respond_last_congr hglb hepoch hn _ _

/-! ### The end of a hold -/

section
variable {h : RcHold} {m : RcMsg} (hrun : s.dev.running = true) (hdom : s.dev.domOn 11 = true) (hqueue : s.dev.home.queue = [])
  (hnone : noneAtHome s.dev) (hholds : s.dev.home.rcHolds = [h])
include hrun hdom hqueue hnone hholds

theorem rcRelease_drops (hext : m.ext = h.ext) (hoff : m.off = h.off) (hsrc : m.src = h.by_) :
    ∃ t, exec (.rcRelease m) s = .next t ∧ t.store = s.store ∧ t.dev.home.rcHolds = [] := by
  have hf : Pkg.rcRelease m (s.store, s.dev) = (s.store, s.dev.dropHold m.ext m.off m.src) := pump_nil hqueue
  refine ⟨_, onHome_noneAtHome hrun hdom hf hnone, rfl, ?_⟩
  simp [Dev.dropHold, hholds, hext, hoff, hsrc]

theorem rcRelease_other (hsrc : m.src ≠ h.by_) : exec (.rcRelease m) s = .next s := by
  have hsame : s.dev.dropHold m.ext m.off m.src = s.dev := by
    have hkeep : s.dev.home.rcHolds.filter (fun r => !(r.ext == m.ext && r.off == m.off && r.by_ == m.src)) = s.dev.home.rcHolds := by
      simp [hholds, Ne.symm hsrc]
    rw [Dev.dropHold, hkeep]
  have hf : Pkg.rcRelease m (s.store, s.dev) = (s.store, s.dev) := by
    rw [Pkg.rcRelease, Pkg.dev, hsame]
    exact pump_nil hqueue
  exact onHome_noneAtHome hrun hdom hf hnone

omit hqueue in
theorem rcHoldTimeout_within (htime : s.dev.tim.tide < h.since + us (s.dev.rd F.RCV_CFG_REQ_TIMEOUT_US)) :
    exec (.rcHoldTimeout h.ext h.off) s = .next s := by
  have hf : Pkg.rcTimeout h.ext h.off (s.store, s.dev) = (s.store, s.dev) := by
    rw [Pkg.rcTimeout, hholds]
    by_cases hby : h.by_ = s.dev.node
    · simp [hby]
    · simp [hby, htime]
  exact onHome_noneAtHome hrun hdom hf hnone

theorem rcHoldTimeout_drops (hby : h.by_ ≠ s.dev.node) (htime : h.since + us (s.dev.rd F.RCV_CFG_REQ_TIMEOUT_US) ≤ s.dev.tim.tide) :
    ∃ t, exec (.rcHoldTimeout h.ext h.off) s = .next t ∧ t.store = s.store ∧ t.dev.home.rcHolds = [] := by
  have hfind : s.dev.home.rcHolds.find? (fun r => r.ext == h.ext && r.off == h.off && r.by_ != s.dev.node) = some h := by simp [hholds, hby]
  have hf : Pkg.rcTimeout h.ext h.off (s.store, s.dev) = (s.store,
      ({ s.dev with home := { s.dev.home with rcHolds := s.dev.home.rcHolds.filter (fun q => q != h) } } : Dev).count 0x2B 4 1) := by
    rw [Pkg.rcTimeout]
    dsimp only
    rw [hfind]
    dsimp only
    rw [if_pos htime]
    exact pump_nil (by simpa [Pkg.dev] using hqueue)
  refine ⟨_, onHome_noneAtHome hrun hdom hf (by simpa [noneAtHome] using hnone), rfl, ?_⟩
  simp [hholds]

end

end

end Sys2Proof.Machine


/-!
SUPPORT. O39, the last answer of a reconstruction (R203, R207, R208).
-/
namespace Sys2Proof.Machine

section
variable {d : Dev} {c : Recon} {p : Nat} {s : State}

/-! ### A copy leaves -/

/-- With nothing else of the package's own under way, a copy leaves at once (R129, R134). -/
theorem Dev.sendRebuild_leaves {dest node gen : Nat} {i : RebuildItem} {q : Purpose} (hn : d.hasNode dest = true) (hreqs : d.src.reqs = [])
    (hheld : d.src.held = []) (hres : d.src.resyncs = []) : ∃ tag src epochs, d.sendRebuild dest node gen i q =
      { d with src := src, epochs := epochs, out := d.out ++ [.rebuild dest ⟨d.node, node, gen, i, d.ticket, tag, nget d.src.mani (pairKey 5 dest), 0, 0⟩] } := by
  obtain ⟨o, ho, heng, hdst, hw, hb, hmsg⟩ : ∃ o : OutReq, d.sendRebuild dest node gen i q = Dev.issue o d.newId.2 ∧ o.acc.eng = 5 ∧ o.dest = dest ∧
    o.acc.kind.isWrite = true ∧ o.bytes = 0 ∧ o.msg = .rebuild dest ⟨d.node, node, gen, i, d.ticket, 0, 0, 0, 0⟩ := ⟨_, rfl, rfl, rfl, rfl, rfl, rfl⟩
  have hmay : Dev.mayIssue { d.newId.2 with src := { d.newId.2.src with held := d.newId.2.src.held ++ [o] } } [] o = true := by
    have hr : d.newId.2.src.reqs = [] := hreqs
    have hs : d.newId.2.src.resyncs = [] := hres
    have htag : (Dev.nextTag { d.newId.2 with src := { d.newId.2.src with held := d.newId.2.src.held ++ [o] } } 5).isSome = true := by
      rw [Dev.nextTag]
      dsimp only
      rw [hr, Option.isSome_map]
      exact List.find?_isSome.2 ⟨0, by simp, by simp⟩
    unfold Dev.mayIssue Dev.readRoom Dev.fenced Dev.bulkBraked Dev.windowOpen Dev.windowRoom Dev.unacked Dev.unackedAll
    rw [heng, htag]
    simp only [hr, hs, hw]
    simp
  have hissue : Dev.issue o d.newId.2 = { Dev.sendOut o { d.newId.2 with src := { d.newId.2.src with held := d.newId.2.src.held ++ [o] } } with
      src := { (Dev.sendOut o { d.newId.2 with src := { d.newId.2.src with held := d.newId.2.src.held ++ [o] } }).src with held := [] } } := by
    have hh : d.newId.2.src.held = [] := hheld
    rw [Dev.issue, if_pos (by rw [hdst]; exact hn), Dev.pumpSrc]
    simp only [hh, List.nil_append, List.foldl_cons, List.foldl_nil] at hmay ⊢
    rw [if_pos hmay]
  rw [ho, hissue, Dev.sendOut, hmsg]
  simp only [fillMsg, hw, if_true, Option.getD_some, heng, hdst]
  exact ⟨_, _, _, rfl⟩

/-! ### The answer is taken -/

/-- The reconstruction as its last answer leaves it. -/
def Recon.given (data : List Byte) (c : Recon) : Recon := { c with waiting := [], acc := xorBytes c.acc (sliceBytes data 0 64) }

theorem Pkg.reconAnswer_last {x : Pkg} {data : List Byte} (hrecons : x.2.home.recons = [c]) (hwait : c.waiting = [p]) (hpar : c.parityDone = true)
    (hfail : c.failed = false) : x.reconAnswer c.id p sOk false data =
      Pkg.reconDone (c.given data) (x.1, { x.2 with home := { x.2.home with recons := [c.given data] } }) := by
  have hfind : x.2.home.recons.find? (fun r => r.id == c.id) = some c := by simp [hrecons]
  have hleft : c.waiting.filter (· != p) = [] := by simp [hwait]
  have hbad : (false || sOk != sOk) = false := rfl
  rw [Pkg.reconAnswer, hbad, Pkg.reconTake, hfind]
  dsimp only
  rw [if_neg (by simp [hwait])]
  simp only [hleft, hpar, hfail, List.isEmpty_nil, Bool.not_true, Bool.and_false, Bool.or_false, Bool.false_eq_true, if_false, if_true, Pkg.dev, hrecons,
    List.map_cons, List.map_nil]
  rw [Recon.given, hfail, hpar]

/-- A repair's line goes to the parity's holder, and its own line is off the log (R207). -/
theorem Pkg.reconDone_repair {x : Pkg} {line : Nat} (hrecons : x.2.home.recons = [c]) (hheld : c.held = []) (hwhy : c.why = .repair line)
    (hfail : c.failed = false) (hqueue : x.2.home.queue = []) :
    let d : Dev := { x.2 with home := { x.2.home with recons := [] } }
    x.reconDone c = (x.1, (d.staleDrop line).sendRebuild (d.groupOf c.node (d.protOf c.node c.ext).holder) d.node (d.rd F.RCV_GEN_GEN)
      (.line c.ext c.off c.acc) .copy) := by
  intro d
  have hfilter : x.2.home.recons.filter (fun r => r.id != c.id) = [] := by simp [hrecons]
  have hsends := (d.staleDrop line).sends_sendRebuild (d.groupOf c.node (d.protOf c.node c.ext).holder) d.node (d.rd F.RCV_GEN_GEN)
    (.line c.ext c.off c.acc) .copy
  obtain ⟨_, _, _, hsent⟩ := hsends
  have hq : ((d.staleDrop line).sendRebuild (d.groupOf c.node (d.protOf c.node c.ext).holder) d.node (d.rd F.RCV_GEN_GEN)
      (.line c.ext c.off c.acc) .copy).home.queue = [] := by
    rw [hsent]
    exact hqueue
  unfold Pkg.reconDone
  simp only [hwhy, hfail, hheld, Dev.releaseHolds, List.foldl_nil, Pkg.dev, hfilter, Bool.false_eq_true, if_false]
  exact pump_nil hq

theorem Pkg.bindLine_last {x : Pkg} {who : Option Nat} {bad : Bool} (hbusy : x.2.home.bindBusy = some (c.ext, who, c.off, bad)) (hfail : c.failed = false)
    (hlast : extSize c.ext ≤ c.off + 64) : let y := x.writeLine (extBase c.ext / 64 + c.off / 64) c.acc .raw
    x.bindLine c = (y.1, { y.2 with home := { y.2.home with bindBusy := some (c.ext, who, c.off + 64, bad) } }) := by
  intro y
  rw [Pkg.bindLine, hbusy]
  dsimp only
  rw [if_pos ⟨rfl, rfl⟩, hfail, if_neg Bool.false_ne_true, Bool.or_false, Pkg.bindNext]
  exact if_pos (.inr hlast)

/-- The last line of a holder's bind is written (R203). -/
theorem Pkg.reconDone_bind {x : Pkg} {who : Option Nat} {bad : Bool} (hrecons : x.2.home.recons = [c]) (hheld : c.held = []) (hwhy : c.why = .bind)
    (hfail : c.failed = false) (hbusy : x.2.home.bindBusy = some (c.ext, who, c.off, bad)) (hlast : extSize c.ext ≤ c.off + 64)
    (hqueue : x.2.home.queue = []) :
    let y := Pkg.writeLine (x.1, { x.2 with home := { x.2.home with recons := [] } }) (extBase c.ext / 64 + c.off / 64) c.acc .raw
    x.reconDone c = (y.1, { y.2 with home := { y.2.home with bindBusy := some (c.ext, who, c.off + 64, bad) } }) := by
  intro y
  have hfilter : x.2.home.recons.filter (fun r => r.id != c.id) = [] := by simp [hrecons]
  have hst := Pkg.stored_writeLine (x.1, { x.2 with home := { x.2.home with recons := [] } }) (extBase c.ext / 64 + c.off / 64) c.acc .raw
  have hline := Pkg.bindLine_last (x := (x.1, { x.2 with home := { x.2.home with recons := [] } })) hbusy hfail hlast
  unfold Pkg.reconDone
  simp only [hwhy, hheld, Dev.releaseHolds, List.foldl_nil, Pkg.dev, hfilter, Bool.false_eq_true, if_false, hline]
  exact pump_nil (hst.queue.trans hqueue)

end

/-! ### The command -/

/-- One reconstruction of this package's own awaits its last answer, and nothing else is under way at the home. -/
structure Dev.LastAwaited (c : Recon) (p : Nat) (q : OutReq) (d : Dev) : Prop where
  running : d.running = true
  powered : d.domOn 11 = true
  queue : d.home.queue = []
  gate : d.home.gate = []
  store : d.home.store = []
  recons : d.home.recons = [c]
  waiting : c.waiting = [p]
  parity : c.parityDone = true
  sound : c.failed = false
  unheld : c.held = []
  reqs : d.src.reqs = [q]
  eng : q.acc.eng = 5
  purpose : q.acc.purpose = .rcRead c.id p
  inTime : d.expired q = false
  held : d.src.held = []
  resyncs : d.src.resyncs = []

section
variable {c : Recon} {p : Nat} {q : OutReq} {data : List Byte} {s : State}

theorem Dev.LastAwaited.taken (h : s.dev.LastAwaited c p q) : ∃ r : Src, r.reqs = [] ∧ r.held = [] ∧ r.resyncs = [] ∧ r.mani = s.dev.src.mani ∧
    ∀ y, Pkg.reconDone (c.given data) (s.store, { s.dev with src := r, home := { s.dev.home with recons := [c.given data] } }) = y → noneAtHome y.2 →
      exec (.reconstructAnswer c.id p sOk false data) s = .next (withPkg s y) := by
  obtain ⟨r, hr, hreqs, hheld, hres, hmani, -⟩ := Pkg.protAnswer_taken (st := s.store) (Pkg.reconAnswer c.id p sOk false data) h.reqs h.eng h.purpose
    h.inTime h.held
  refine ⟨r, hreqs, hheld, hres.trans h.resyncs, hmani, fun y hy hnone => ?_⟩
  have hlast := Pkg.reconAnswer_last (x := (s.store, { s.dev with src := r })) (data := data) h.recons h.waiting h.parity h.sound
  exact onPkg_leaves h.running h.powered (thenHome_of (hr.trans (hlast.trans hy)) (.inr hnone))

theorem reconstructAnswer_repair (h : s.dev.LastAwaited c p q) {line : Nat} (hwhy : c.why = .repair line)
    (hn : s.dev.hasNode (s.dev.groupOf c.node (s.dev.protOf c.node c.ext).holder) = true) : ∃ t tag,
      exec (.reconstructAnswer c.id p sOk false data) s = .next t ∧
      t.store = s.store ∧ t.dev.home.recons = [] ∧ t.dev.home.stale = s.dev.home.stale.filter (fun l => l != line) ∧
      t.dev.out = s.dev.out ++ [.rebuild (s.dev.groupOf c.node (s.dev.protOf c.node c.ext).holder) ⟨s.dev.node, s.dev.node, s.dev.rd F.RCV_GEN_GEN,
        .line c.ext c.off (xorBytes c.acc (sliceBytes data 0 64)), s.dev.ticket, tag,
        nget s.dev.src.mani (pairKey 5 (s.dev.groupOf c.node (s.dev.protOf c.node c.ext).holder)), 0, 0⟩] := by
  obtain ⟨r, hreqs, hheld, hres, hmani, hgo⟩ := h.taken (data := data)
  have hdone := Pkg.reconDone_repair (x := (s.store, { s.dev with src := r, home := { s.dev.home with recons := [c.given data] } })) (c := c.given data)
    rfl h.unheld hwhy h.sound h.queue
  obtain ⟨tag, src, epochs, hsent⟩ := Dev.sendRebuild_leaves (d := Dev.staleDrop line { s.dev with src := r, home := { s.dev.home with recons := [] } }) (dest := s.dev.groupOf c.node (s.dev.protOf c.node c.ext).holder) (node := s.dev.node)
    (gen := s.dev.rd F.RCV_GEN_GEN) (i := .line c.ext c.off (xorBytes c.acc (sliceBytes data 0 64))) (q := .copy) hn hreqs hheld hres
  refine ⟨_, tag, hgo _ (hdone.trans (congrArg (Prod.mk s.store) hsent)) ⟨h.gate, h.store, rfl⟩, rfl, rfl, rfl, ?_⟩
  rw [← hmani]
  rfl

theorem reconstructAnswer_bind (h : s.dev.LastAwaited c p q) {who : Option Nat} {bad : Bool} (hwhy : c.why = .bind)
    (hbusy : s.dev.home.bindBusy = some (c.ext, who, c.off, bad)) (hlast : extSize c.ext ≤ c.off + 64) : ∃ t,
      exec (.reconstructAnswer c.id p sOk false data) s = .next t ∧ t.dev.home.recons = [] ∧
      t.store = s.store.setLine (s.dev.placeOf (extBase c.ext / 64 + c.off / 64)) (xorBytes c.acc (sliceBytes data 0 64)) .raw ∧
      t.dev.home.bindBusy = some (c.ext, who, c.off + 64, bad) := by
  obtain ⟨r, -, -, -, -, hgo⟩ := h.taken (data := data)
  have hdone := Pkg.reconDone_bind (x := (s.store, { s.dev with src := r, home := { s.dev.home with recons := [c.given data] } })) (c := c.given data)
    rfl h.unheld hwhy h.sound hbusy hlast h.queue
  have hst := Pkg.stored_writeLine (s.store, { s.dev with src := r, home := { s.dev.home with recons := [] } }) (extBase c.ext / 64 + c.off / 64)
    (xorBytes c.acc (sliceBytes data 0 64)) .raw
  refine ⟨_, hgo _ hdone ⟨(hst.home Home.gate fun _ => rfl).trans h.gate, (hst.home Home.store fun _ => rfl).trans h.store,
    (hst.home Home.recons fun _ => rfl)⟩, (hst.home Home.recons fun _ => rfl), rfl, rfl⟩

end

end Sys2Proof.Machine


/-!
SUPPORT. O39, PROT_REPAIR: the reconstruction of a stale line of this package starts, and waits for the other members (R208).
-/
namespace Sys2Proof.Machine

/-! ### A repair that waits for another package -/

/-- `c` is reconstruction `id`, which repairs `line`, has its parity, and awaits the line of position `p₀`. -/
structure Recon.Repairs (id k off p₀ line : Nat) (c : Recon) : Prop where
  id : c.id = id
  why : c.why = .repair line
  ext : c.ext = k
  off : c.off = off
  parity : c.parityDone = true
  waits : p₀ ∈ c.waiting
  own : ∀ v ∈ c.own, v.1 ≠ p₀

/-- A repair is all that the home has in hand, and position `p₀`, which it awaits, is not asked of this package. -/
structure Home.Repairing (id k off p₀ line : Nat) (h : Home) : Prop where
  gate : h.gate = []
  store : h.store = []
  asked : ∀ i ∈ h.queue, ∃ p, i = HItem.rcOwn id p k off false ∧ p ≠ p₀
  recon : ∃ c : Recon, h.recons = [c] ∧ c.Repairs id k off p₀ line

section
variable {id k off p p₀ line : Nat} {x y : Pkg}

theorem Home.Repairing.congr {g h : Home} (hr : g.Repairing id k off p₀ line) (hgate : h.gate = g.gate) (hstore : h.store = g.store)
    (hqueue : h.queue = g.queue) (hrecons : h.recons = g.recons) : h.Repairing id k off p₀ line :=
  ⟨hgate.trans hr.gate, hstore.trans hr.store, hqueue ▸ hr.asked, hrecons ▸ hr.recon⟩

/-- What reading a line of this package's own keeps of the home. -/
theorem Pkg.rcLine_frame (by_ k off : Nat) (x : Pkg) : (x.rcLine by_ k off false).2.1 = x.1 ∧
    (x.rcLine by_ k off false).2.2.home.gate = x.2.home.gate ∧ (x.rcLine by_ k off false).2.2.home.store = x.2.home.store ∧
    (x.rcLine by_ k off false).2.2.home.queue = x.2.home.queue ∧ (x.rcLine by_ k off false).2.2.home.recons = x.2.home.recons ∧
    (x.rcLine by_ k off false).2.2.glb = x.2.glb := by
  have hk := (x.2.silent_readBurst (extBase k / 64 + off / 64, List.range 8)).toKept
  have hgo : ∃ y : Dev, y = x.2.readBurst (extBase k / 64 + off / 64, List.range 8) ∧ (x.rcLine by_ k off false).2 =
      (if Dev.lineErr (y.heldFor k off by_) (extBase k / 64 + off / 64) = 2 then
        (((false, true, (((y.heldFor k off by_).mediaBad (extBase k / 64 + off / 64) 0).freeBytes 64).1) : Bool × Bool × List Byte),
          (x.1, (((y.heldFor k off by_).mediaBad (extBase k / 64 + off / 64) 0).freeBytes 64).2))
      else ((false, false, []), (x.1, y.heldFor k off by_))).2 := by
    refine ⟨_, rfl, ?_⟩
    rw [apply_ite Prod.snd]
    exact apply_ite Prod.snd _ _ _
  obtain ⟨y, hy, hgo⟩ := hgo
  rw [← hy] at hk
  have hgate : (y.heldFor k off by_).home.gate = x.2.home.gate := hk.home Home.gate fun _ => rfl
  have hstore : (y.heldFor k off by_).home.store = x.2.home.store := hk.home Home.store fun _ => rfl
  have hqueue : (y.heldFor k off by_).home.queue = x.2.home.queue := hk.queue
  have hrecons : (y.heldFor k off by_).home.recons = x.2.home.recons := hk.home Home.recons fun _ => rfl
  have hglb : (y.heldFor k off by_).glb = x.2.glb := hk.glb
  rw [hgo]
  generalize y.heldFor k off by_ = e at hgate hstore hqueue hrecons hglb
  split
  · have hhome : (e.mediaBad (extBase k / 64 + off / 64) 0).home = e.home := Dev.badPart_home ..
    have hfree : ((e.mediaBad (extBase k / 64 + off / 64) 0).freeBytes 64).2.home = e.home := hhome
    dsimp only
    rw [hfree]
    exact ⟨rfl, hgate, hstore, hqueue, hrecons, (e.kept_badPart (extBase k / 64 + off / 64) (List.range 8) 0).glb.trans hglb⟩
  · exact ⟨rfl, hgate, hstore, hqueue, hrecons, hglb⟩

/-- A line of its own joins what the repair has been given. -/
theorem Pkg.serveOwn_repairing (h : x.2.home.Repairing id k off p₀ line) (hp : p ≠ p₀) :
    (x.serveOwn id p k off false).1 = x.1 ∧ (x.serveOwn id p k off false).2.glb = x.2.glb ∧
      (x.serveOwn id p k off false).2.home.Repairing id k off p₀ line := by
  obtain ⟨hst, hgate, hstore, hqueue, hrecons, hglb⟩ := x.rcLine_frame x.2.node k off
  obtain ⟨c, hc, hr⟩ := h.recon
  rw [Pkg.serveOwn]
  generalize x.rcLine x.2.node k off false = r at hst hgate hstore hqueue hrecons hglb
  refine ⟨hst, hglb, hgate.trans h.gate, hstore.trans h.store, ?_, _, (congrArg (List.map _) (hrecons.trans hc)).trans (congrArg (fun e => [e]) (if_pos hr.id)), ?_⟩
  · exact fun i hi => h.asked i (hqueue ▸ hi)
  · refine ⟨hr.id, hr.why, hr.ext, hr.off, hr.parity, hr.waits, fun v hv => ?_⟩
    rcases List.mem_append.1 hv with hv | hv
    · exact hr.own v hv
    · rw [List.mem_singleton.1 hv]
      exact hp

theorem Pkg.pumpPass_repairing (h : x.2.home.Repairing id k off p₀ line) : x.pumpPass.1 = x.1 ∧ x.pumpPass.2.glb = x.2.glb ∧
    x.pumpPass.2.home.Repairing id k off p₀ line := by
  have hstart : ({ x.2.home with queue := [] } : Home).Repairing id k off p₀ line := ⟨h.gate, h.store, fun i hi => absurd hi List.not_mem_nil, h.recon⟩
  have hfold := List.foldlRecOn (motive := fun (a : Pkg × List HItem) => a.1.1 = x.1 ∧ a.1.2.glb = x.2.glb ∧
      a.1.2.home.Repairing id k off p₀ line ∧
      ∀ i ∈ a.2, ∃ p, i = HItem.rcOwn id p k off false ∧ p ≠ p₀) x.2.home.queue
    (fun (a : Pkg × List HItem) i =>
      if i.isPage || a.1.2.itemWaits a.2 i then (a.1, a.2 ++ [i]) else (a.1.startItem i, a.2)) (b := ((x.1, { x.2 with home := { x.2.home with queue := [] } }), []))
    ⟨rfl, rfl, hstart, fun i hi => absurd hi List.not_mem_nil⟩ (by
      rintro a ⟨hst, hglb, hr, hkept⟩ i hi
      obtain ⟨p, rfl, hp⟩ := h.asked i hi
      split
      · refine ⟨hst, hglb, hr, fun j hj => ?_⟩
        rcases List.mem_append.1 hj with hj | hj
        · exact hkept j hj
        · exact ⟨p, List.mem_singleton.1 hj, hp⟩
      · obtain ⟨hst', hglb', hr'⟩ := Pkg.serveOwn_repairing hr hp
        exact ⟨hst'.trans hst, hglb'.trans hglb, hr', hkept⟩)
  obtain ⟨r, hr, hpass⟩ : ∃ r, r = x.2.home.queue.foldl (fun (a : Pkg × List HItem) i =>
      if i.isPage || a.1.2.itemWaits a.2 i then (a.1, a.2 ++ [i]) else (a.1.startItem i, a.2)) ((x.1, { x.2 with home := { x.2.home with queue := [] } }), []) ∧
      x.pumpPass = (r.1.1, { r.1.2 with home := { r.1.2.home with queue := r.2 ++ r.1.2.home.queue } }) := by
    refine ⟨_, rfl, ?_⟩
    rw [Pkg.pumpPass]
    dsimp only
    rw [List.foldl_ext _ _ _ fun a i hi => ?_]
    obtain ⟨p, rfl, -⟩ := h.asked i hi
    rfl
  rw [← hr] at hfold
  obtain ⟨hst, hglb, hrep, hkept⟩ := hfold
  rw [hpass]
  refine ⟨hst, hglb, hrep.gate, hrep.store, fun i hi => ?_, hrep.recon⟩
  rcases List.mem_append.1 hi with hi | hi
  · exact hkept i hi
  · exact hrep.asked i hi

theorem Pkg.pumpN_repairing (n : Nat) (x : Pkg) (h : x.2.home.Repairing id k off p₀ line) :
    (Pkg.pumpN n x).1 = x.1 ∧ (Pkg.pumpN n x).2.glb = x.2.glb ∧ (Pkg.pumpN n x).2.home.Repairing id k off p₀ line := by
  induction n generalizing x with
  | zero => exact ⟨rfl, rfl, h⟩
  | succ n ih =>
    obtain ⟨hst, hglb, hr⟩ := Pkg.pumpPass_repairing h
    rw [Pkg.pumpN]
    split
    · exact ⟨hst, hglb, hr⟩
    · obtain ⟨hst', hglb', hr'⟩ := ih _ hr
      exact ⟨hst'.trans hst, hglb'.trans hglb, hr'⟩

/-! ### What the home then takes -/

/-- The answer of one of this package's own positions leaves the repair waiting, and sends nothing. -/
theorem Pkg.reconTake_repairing {bad : Bool} {data : List Byte} (h : x.2.home.Repairing id k off p₀ line) (hp : p ≠ p₀) :
    (x.reconTake id p bad data).1 = x.1 ∧ (x.reconTake id p bad data).2.out = x.2.out ∧ (x.reconTake id p bad data).2.home.Repairing id k off p₀ line := by
  obtain ⟨c, hc, hr⟩ := h.recon
  have hfind : x.2.home.recons.find? (fun r => r.id == id) = some c := by simp [hc, hr.id]
  rw [Pkg.reconTake, hfind]
  dsimp only
  split
  · exact ⟨rfl, rfl, h⟩
  · have hleft : p₀ ∈ c.waiting.filter (· != p) := List.mem_filter.2 ⟨hr.waits, by simpa using hp.symm⟩
    have hne : (c.waiting.filter (· != p)).isEmpty = false := by
      rw [List.isEmpty_eq_false_iff_exists_mem]
      exact ⟨p₀, hleft⟩
    simp only [hne, Bool.false_and, Bool.false_eq_true, if_false]
    refine ⟨rfl, rfl, h.gate, h.store, h.asked, _, (congrArg (List.map _) hc).trans (congrArg (fun e => [e]) (if_pos hr.id)), ?_⟩
    exact ⟨hr.id, hr.why, hr.ext, hr.off, hr.parity, hleft, hr.own⟩

theorem Pkg.homeStep_repairing (h : x.2.home.Repairing id k off p₀ line) (hy : x.homeStep = some y) :
    y.1 = x.1 ∧ y.2.out = x.2.out ∧ y.2.home.Repairing id k off p₀ line := by
  obtain ⟨c, hc, hr⟩ := h.recon
  have hown := hr.own
  obtain rfl := hr.id
  rw [Pkg.homeStep, Pkg.reconStep, hc, List.findSome?_cons] at hy
  cases hl : c.own with
  | nil =>
    have hdue : x.2.dueEarly = none := by rw [Dev.dueEarly, h.store]; rfl
    have hpick : x.2.gatePick = none := by rw [Dev.gatePick, h.gate]; rfl
    simp [hl, hdue, hpick] at hy
  | cons v l =>
    rw [hl] at hy hown
    simp only [Option.some.injEq] at hy
    have hgiven : ({ x.2.home with recons := x.2.home.recons.map (fun r => if r.id = c.id then { r with own := l } else r) } : Home).Repairing
        c.id k off p₀ line := by
      refine ⟨h.gate, h.store, h.asked, { c with own := l }, (congrArg (List.map _) hc).trans (congrArg (fun e => [e]) (if_pos rfl)), ?_⟩
      exact ⟨rfl, hr.why, hr.ext, hr.off, hr.parity, hr.waits, fun w hw => hown w (List.mem_cons_of_mem _ hw)⟩
    rw [← hy]
    exact Pkg.reconTake_repairing (x := (x.1, { x.2 with home := { x.2.home with
      recons := x.2.home.recons.map (fun r => if r.id = c.id then { r with own := l } else r) } })) hgiven (hown v List.mem_cons_self)

theorem Pkg.homeGoFor_repairing (n : Nat) (x : Pkg) (h : x.2.home.Repairing id k off p₀ line) : (Pkg.homeGoFor n x).1 = x.1 ∧
    (Pkg.homeGoFor n x).2.out = x.2.out ∧ (Pkg.homeGoFor n x).2.home.Repairing id k off p₀ line := by
  induction n generalizing x with
  | zero => exact ⟨rfl, rfl, h⟩
  | succ n ih =>
    rw [Pkg.homeGoFor]
    split
    · next y hy =>
      obtain ⟨hst, hout, hr⟩ := Pkg.homeStep_repairing h hy
      obtain ⟨hst', hout', hr'⟩ := ih y hr
      exact ⟨hst'.trans hst, hout'.trans hout, hr'⟩
    · exact ⟨rfl, rfl, h⟩

/-! ### It starts -/

theorem Dev.member_congr {d e : Dev} (h : e.regs = d.regs) (p : Nat) : e.member p = d.member p := by
  unfold Dev.member
  split <;> exact Dev.rd_congr h _

/-- Of this package's own lines, a repair asks for none of a position that another package holds. -/
theorem Dev.asked_others {b : Dev} {ps : List Nat} (hqueue : b.home.queue = []) (hother : b.member p₀ ≠ b.node) :
    ∃ out epochs src q, ps.foldl (fun (d : Dev) p => d.rcAsk id b.node k off p false) b =
      { b with out := out, epochs := epochs, src := src, home := { b.home with queue := q } } ∧
      ∀ i ∈ q, ∃ p, i = HItem.rcOwn id p k off false ∧ p ≠ p₀ := by
  refine List.foldlRecOn (motive := fun y : Dev => ∃ out epochs src q, y =
    { b with out := out, epochs := epochs, src := src, home := { b.home with queue := q } } ∧
      ∀ i ∈ q, ∃ p, i = HItem.rcOwn id p k off false ∧ p ≠ p₀) _ _
    ⟨b.out, b.epochs, b.src, [], by rw [← hqueue], fun i hi => absurd hi List.not_mem_nil⟩ ?_
  rintro y ⟨out, epochs, src, q, hy, hq⟩ p -
  have hnode : y.node = b.node := by rw [hy]; rfl
  have hgroup : y.groupOf b.node p = b.member p := by
    rw [Dev.groupOf, if_pos (.inl hnode.symm)]
    exact Dev.member_congr (by rw [hy]) p
  rw [Dev.rcAsk, hgroup]
  dsimp only
  split
  · next hown =>
    refine ⟨out, epochs, src, q ++ [.rcOwn id p k off false], by rw [hy], fun i hi => ?_⟩
    rcases List.mem_append.1 hi with hi | hi
    · exact hq i hi
    · exact ⟨p, List.mem_singleton.1 hi, fun hpp => hother (hpp ▸ hown.trans hnode)⟩
  · rw [Dev.protSend]
    obtain ⟨out', epochs', src', hsent⟩ := (Dev.sends_newId y).trans (Dev.sends_issue _ _)
    exact ⟨out', epochs', src', q, hsent.trans (by rw [hy]), hq⟩

/-- The reconstruction is recorded, and has asked for nothing yet. -/
def Dev.reconNoted (n k off m : Nat) (why : ReconFor) (d : Dev) : Dev :=
  { d with home := { d.home with recons := d.home.recons ++ [d.newRecon n k off m m why], nextOp := d.home.nextOp + 1 } }

/-- A reconstruction starts with what it awaits of other packages not asked of this one. -/
theorem Pkg.startRecon_repairing {m : Nat} (hnone : noneAtHome x.2) (hqueue : x.2.home.queue = []) (hp : p₀ < 9) (hm : p₀ ≠ m)
    (hother : x.2.member p₀ ≠ x.2.node) : (x.startRecon x.2.node k off m m (.repair line)).1 = x.1 ∧
      (x.startRecon x.2.node k off m m (.repair line)).2.home.Repairing x.2.home.nextOp k off p₀ line := by
  obtain ⟨hgate, hstore, hrecons⟩ := hnone
  obtain ⟨b, hb⟩ : ∃ b : Dev, b = (x.2.reconNoted x.2.node k off m (.repair line)).count 0x2B 3 1 := ⟨_, rfl⟩
  have hhome : b.home = (x.2.reconNoted x.2.node k off m (.repair line)).home := by
    rw [hb]
    simp only [Dev.count_frame]
  have hregs : b.regs = x.2.regs := by
    rw [hb]
    simp only [Dev.count_frame]
    rfl
  have hnode : b.node = x.2.node := Dev.node_congr (by rw [hb]; simp only [Dev.count_frame]; rfl)
  obtain ⟨out, epochs, src, q, hasked, hq⟩ := Dev.asked_others (id := x.2.home.nextOp) (k := k) (off := off)
    (ps := (List.range 9).filter (fun p => p != m && p != m)) (b := b) (p₀ := p₀) (by rw [hhome]; exact hqueue)
    (by rw [hnode, Dev.member_congr hregs]; exact hother)
  have hstart : x.startRecon x.2.node k off m m (.repair line) = (x.1, ((List.range 9).filter (fun p => p != m && p != m)).foldl
      (fun (d : Dev) p => d.rcAsk x.2.home.nextOp b.node k off p false) b) := by
    rw [hnode, hb]
    rfl
  rw [hstart, hasked]
  refine ⟨rfl, (congrArg Home.gate hhome).trans hgate, (congrArg Home.store hhome).trans hstore, hq, x.2.newRecon x.2.node k off m m (.repair line),
    (congrArg Home.recons hhome).trans (by rw [Dev.reconNoted, hrecons]; rfl), rfl, rfl, rfl, rfl, beq_self_eq_true m, ?_, fun v hv => absurd hv List.not_mem_nil⟩
  exact List.mem_filter.2 ⟨List.mem_range.2 hp, by simpa using hm⟩

end

/-! ### The command -/

section
variable {src line : Nat} {s : State}

theorem protRepair_leaves {x y : Pkg} (hrun : s.dev.running = true) (hdom : s.dev.domOn 11 = true)
    (hx : Pkg.protRepair src line (s.store, s.dev) = x) (hy : x.homeGo = y) : exec (.protRepair src line) s = .next (withPkg s y) :=
  onPkg_leaves (f := fun x => (x.protRepair src line).homeGo) hrun hdom ((congrArg Pkg.homeGo hx).trans hy)

variable (hrun : s.dev.running = true) (hdom : s.dev.domOn 11 = true) (hfm : s.dev.fmAllowed src = true)
  (hnone : noneAtHome s.dev)
include hrun hdom hfm hnone

theorem protRepair_noChange (hclean : s.dev.home.stale.contains line = false) :
    exec (.protRepair src line) s = .next { s with dev := s.dev.ctrl src (.result "PROT_REPAIR" rNoChange) } := by
  have hx : Pkg.protRepair src line (s.store, s.dev) = (s.store, s.dev.ctrl src (.result "PROT_REPAIR" rNoChange)) := by
    unfold Pkg.protRepair
    simp only [hfm, hclean, Bool.not_true, Bool.not_false, Bool.false_eq_true, if_false, if_true, Pkg.dev]
  exact protRepair_leaves hrun hdom hx <| homeGo_noneAtHome (by simpa only [noneAtHome, Dev.home_ctrl] using hnone)

theorem protRepair_starts (hstale : s.dev.home.stale.contains line = true) (hmode : (s.dev.prot (gpaExt (line * 64))).mode = 1)
    (hqueue : s.dev.home.queue = []) (hother : ∃ p < 9, p ≠ (s.dev.prot (gpaExt (line * 64))).holder ∧ s.dev.member p ≠ s.dev.node) :
    ∃ t c, exec (.protRepair src line) s = .next t ∧ t.store = s.store ∧ t.dev.home.recons = [c] ∧ c.why = .repair line ∧
      c.ext = gpaExt (line * 64) ∧ c.off = lineOff line ∧
      (s.dev.hasNode src = true → t.dev.out.getLast? = some (.ctrl src (.result "PROT_REPAIR" rDone))) := by
  obtain ⟨p₀, hp, hm, hother⟩ := hother
  obtain ⟨hst, hr⟩ := Pkg.startRecon_repairing (x := (s.store, s.dev)) (k := gpaExt (line * 64)) (off := lineOff line) (line := line) hnone hqueue hp hm hother
  generalize hy : Pkg.startRecon s.dev.node (gpaExt (line * 64)) (lineOff line) (s.dev.prot (gpaExt (line * 64))).holder
    (s.dev.prot (gpaExt (line * 64))).holder (.repair line) (s.store, s.dev) = y at hst hr
  obtain ⟨hst', hglb', hr'⟩ := Pkg.pumpN_repairing (10 * y.2.home.queue.length + 1) y hr
  have hglb : y.2.glb = s.dev.glb := by
    rw [← hy]
    exact (Pkg.startRecon_frame ..).2.2.1
  obtain ⟨z, hz⟩ : ∃ z, z = y.pump := ⟨_, rfl⟩
  have hx : Pkg.protRepair src line (s.store, s.dev) = (z.1, z.2.ctrl src (.result "PROT_REPAIR" rDone)) := by
    unfold Pkg.protRepair
    simp only [hfm, hstale, hmode, Bool.not_true, Bool.false_eq_true, if_false, if_true, hy, Pkg.dev, hz]
  rw [← Pkg.pump, ← hz] at hst' hglb' hr'
  have hend := Pkg.homeGoFor_repairing ((z.2.ctrl src (.result "PROT_REPAIR" rDone)).home.gate.length +
    (z.2.ctrl src (.result "PROT_REPAIR" rDone)).home.store.length + 10 * (z.2.ctrl src (.result "PROT_REPAIR" rDone)).home.recons.length)
    (z.1, z.2.ctrl src (.result "PROT_REPAIR" rDone)) (by rw [Dev.home_ctrl]; exact hr')
  obtain ⟨hst₂, hout, hr₂⟩ := hend
  obtain ⟨c, hc, hrep⟩ := hr₂.recon
  refine ⟨_, c, protRepair_leaves hrun hdom hx rfl, hst₂.trans (hst'.trans hst), hc, hrep.why, hrep.ext, hrep.off, fun hn => ?_⟩
  refine (congrArg List.getLast? hout).trans ?_
  rw [Dev.ctrl_out ((Dev.hasNode_congr (hglb'.trans hglb) src).trans hn), List.getLast?_concat]

end

end Sys2Proof.Machine


/-!
SUPPORT. O39, protection: the statement from its clauses.
-/
namespace Sys2Proof.Machine

theorem protectionIn : Said.ProtectionIn := by
  refine ⟨fun src k word s hrun hdom hq hqueue hfm hbusy halone hk hmode htop hhigh hne => ?_, parityComputeDone_cases,
    fun m s h hfor _ hext hst hexp hgpa hmode hmember hpow hgood => parityDelta_taken h hfor hext hst hexp hgpa hmode hmember hpow hgood,
    fun m s h hfor _ hext hst hexp hgpa hsys htick hmode hpeer hpext hroom hlen hpow =>
      mirrorWrite_taken h hfor hext hst hexp hgpa hsys htick hmode hpeer hpext hroom hlen hpow,
    fun m s h hfor _ hst hexp hroom => journalMessage_taken h hfor hst hexp hroom⟩
  have hfits : s.dev.BindFits k word := ⟨hk, hmode, htop, hhigh, hne⟩
  exact ⟨fun hfree hplain => protBind_done hrun hdom hq hqueue hfm hbusy halone hfits hfree hplain,
    fun hfree hparity hrecons => protBind_holder hrun hdom hfm hbusy hfits hfree hparity hrecons,
    fun hlive => protBind_badState hrun hdom hq hqueue hfm hbusy hfits hlive⟩

theorem protectionAnswers : Said.ProtectionAnswers := by
  refine ⟨fun o w q s hrun hdom hops hqueue hnone _ hreqs heng hin hheld hnode hkind hstatus => ?_,
    fun m s h hext hpar hpow => rcRead_held h hext hpar hpow,
    fun h m s hrun hdom hqueue hnone hholds => ⟨fun hext hoff hsrc => rcRelease_drops hrun hdom hqueue hnone hholds hext hoff hsrc,
      fun hsrc => rcRelease_other hrun hdom hqueue hnone hholds hsrc, fun hby htime => rcHoldTimeout_drops hrun hdom hqueue hnone hholds hby htime,
      fun htime => rcHoldTimeout_within hrun hdom hnone hholds htime⟩,
    fun c p data q s hrun hdom hqueue hgate hstore hrecons hwait _ hpar hfail hheldPos hreqs heng hpur hin hheld hres => ?_,
    fun src line s hrun hdom hfm hnone => ⟨fun hclean => protRepair_noChange hrun hdom hfm hnone hclean,
      fun hstale hmode hqueue hother => protRepair_starts hrun hdom hfm hnone hstale hmode hqueue hother⟩⟩
  · have h : s.dev.Awaited o q := ⟨hrun, hdom, hops, hqueue, hnone, hreqs, heng, hin, hheld, hnode, hkind, hstatus⟩
    exact ⟨fun hpur _ hdeltas hcopies happ hws => deltaAnswer_applies h hpur hdeltas hcopies happ hws,
      fun hpur hphase hdeltas hcopies => mirrorAnswer_ok h hpur hphase hdeltas hcopies,
      fun hpur hphase hdeltas hcopies hen => mirrorAnswer_lost h hpur hphase hdeltas hcopies hen,
      fun hpur hphase hmode => journalAnswer_ok h hpur hphase hmode⟩
  · have h : s.dev.LastAwaited c p q :=
      ⟨hrun, hdom, hqueue, hgate, hstore, hrecons, hwait, hpar, hfail, hheldPos, hreqs, heng, hpur, hin, hheld, hres⟩
    exact ⟨fun line hwhy hn => reconstructAnswer_repair h hwhy hn, fun who bad hwhy hbusy hlast => reconstructAnswer_bind h hwhy hbusy hlast⟩

/-- Settles O39: a message is taken alone by an idle home, and an answer is the only one that its operation still awaits. -/
theorem protection : Obligations.Protection := ⟨protectionIn, protectionAnswers⟩

end Sys2Proof.Machine


/-!
SUPPORT. O41, what the operations on an array leave: the array's own state, beside counters and free draws (R255–R257).
-/
namespace Sys2Proof.Machine

/-! ### Cells -/

theorem length_cellsGo (f : Nat → Nat → Nat → Conv) (k i ctr : Nat) : (cellsGo f k i ctr).1.length = k := by
  induction k generalizing i ctr with
  | zero => rfl
  | succ k ih => rw [cellsGo, List.length_cons, ih]

theorem nth_cellsGo (f : Nat → Nat → Nat → Conv) (k i ctr : Nat) {j : Nat} (hj : j < k) :
    ∃ x, nth (cellsGo f k i ctr).1 j 0 = (f ((i + j) / 64) ((i + j) % 64) x).code := by
  induction k generalizing i ctr j with
  | zero => omega
  | succ k ih =>
    cases j with
    | zero => exact ⟨ctr, rfl⟩
    | succ j =>
      obtain ⟨x, hx⟩ := ih (i + 1) (f (i / 64) (i % 64) ctr).ctr (j := j) (by omega)
      exact ⟨x, by rw [show i + (j + 1) = i + 1 + j by omega, ← hx]; rfl⟩

/-- Cell (r, c) of a bank of 64 × 64 is what the function makes of it. -/
theorem cell_cellsGo (f : Nat → Nat → Nat → Conv) (ctr : Nat) {r c : Nat} (hr : r < 64) (hc : c < 64) :
    ∃ x, cell (cellsGo f 4096 0 ctr).1 r c = (f r c x).code := by
  obtain ⟨x, hx⟩ := nth_cellsGo f 4096 0 ctr (j := 64 * r + c) (by omega)
  rw [show (0 + (64 * r + c)) / 64 = r by omega, show (0 + (64 * r + c)) % 64 = c by omega] at hx
  exact ⟨x, hx⟩

theorem cell_cellsGo_of {f : Nat → Nat → Nat → Conv} {ctr r c v : Nat} (hr : r < 64) (hc : c < 64) (h : ∀ x, (f r c x).code = v) :
    cell (cellsGo f 4096 0 ctr).1 r c = v := by
  obtain ⟨x, hx⟩ := cell_cellsGo f ctr hr hc
  exact hx.trans (h x)

/-! ### The array alone -/

section
variable {a b : Nat} {r : Arr} {d e : Dev}

/-- `e` is `d` with array `a` as `r`, but for counters and free draws. -/
def Dev.ArrayTo (a : Nat) (r : Arr) (d e : Dev) : Prop :=
  ∃ cnts free, e = { d with cnts := cnts, freeCtr := free, fry := { d.fry with arrs := modAt (fun _ => r) d.fry.arrs a } }

theorem Dev.arrayTo_self (a : Nat) (d : Dev) : d.ArrayTo a (d.arr a) d := by
  refine ⟨d.cnts, d.freeCtr, ?_⟩
  have h : modAt (fun _ => d.arr a) d.fry.arrs a = d.fry.arrs := modAt_self {} rfl
  rw [h]

theorem Dev.ArrayTo.arr (h : d.ArrayTo a r e) (ha : a < d.fry.arrs.length) : e.arr a = r := by
  obtain ⟨_, _, rfl⟩ := h
  rw [Dev.arr, nth_modAt, if_pos ⟨rfl, ha⟩]

theorem Dev.ArrayTo.count (h : d.ArrayTo a r e) (p i k : Nat) : d.ArrayTo a r (e.count p i k) := by
  obtain ⟨_, _, rfl⟩ := h
  rw [Dev.count]
  split
  · exact ⟨_, _, rfl⟩
  · exact ⟨_, _, rfl⟩

theorem Dev.ArrayTo.countEvs (h : d.ArrayTo a r e) (p base : Nat) (l : List Ev) : d.ArrayTo a r (e.countEvs p base l) :=
  List.foldlRecOn (motive := fun y : Dev => d.ArrayTo a r y) l _ h fun _ hy _ _ => hy.count _ _ _

theorem Dev.ArrayTo.arrEvs (h : d.ArrayTo a r e) (l : List Ev) : d.ArrayTo a r (e.arrEvs a l) := (h.countEvs _ _ _).countEvs _ _ _

theorem Dev.ArrayTo.draws (h : d.ArrayTo a r e) (n : Nat) : d.ArrayTo a r { e with freeCtr := n } := by
  obtain ⟨_, _, rfl⟩ := h
  exact ⟨_, _, rfl⟩

theorem Dev.ArrayTo.setArr (h : d.ArrayTo a r e) (f : Arr → Arr) : d.ArrayTo a (f r) (e.setArr a f) := by
  obtain ⟨cnts, free, rfl⟩ := h
  refine ⟨cnts, free, ?_⟩
  rw [Dev.setArr, modAt_modAt]

theorem Dev.ArrayTo.setBank (h : d.ArrayTo a r e) (b : Nat) (f : Nat → Nat → Nat → Conv) :
    d.ArrayTo a { r with banks := modAt (fun _ => (cellsGo f 4096 0 e.freeCtr).1) r.banks b } (e.setBank a b f) :=
  ((h.draws _).setArr fun x => { x with banks := modAt (fun _ => (cellsGo f 4096 0 e.freeCtr).1) x.banks b }).arrEvs _

theorem Dev.ArrayTo.arrNext (h : d.ArrayTo a r e) (pc : Nat) (push : List (Nat × Nat × Nat)) (hs : Nat) : d.ArrayTo a { r with
    slice := r.slice.map (fun s => { s with pc := (loopNext (push ++ s.loops) pc).1, loops := (loopNext (push ++ s.loops) pc).2 }) }
      (e.arrNext a pc push hs) := (h.setArr _).count _ _ _

/-! ### Open pairs of blocks -/

/-- Sums that reach their banks change those banks alone (R248). -/
theorem Dev.arrayTo_macFlush (a : Nat) (banks : List Nat) (d : Dev) : ∃ bs ps, d.ArrayTo a { d.arr a with banks := bs, pend := ps } (d.macFlush a banks) ∧
    bs.length = (d.arr a).banks.length ∧ ∀ b ∉ banks, nth bs b [] = nth (d.arr a).banks b [] := by
  refine List.foldlRecOn (motive := fun y : Dev => ∃ bs ps, d.ArrayTo a { d.arr a with banks := bs, pend := ps } y ∧
    bs.length = (d.arr a).banks.length ∧ ∀ b ∉ banks, nth bs b [] = nth (d.arr a).banks b []) _ _
    ⟨_, _, d.arrayTo_self a, rfl, fun _ _ => rfl⟩ ?_
  rintro y ⟨bs, ps, hy, hlen, hsame⟩ p hp
  have hmem : p.1 ∈ banks := by simpa using (List.mem_filter.1 hp).2
  refine ⟨_, _, (hy.setBank p.1 _).setArr fun r => { r with pend := r.pend.filter (fun q => q.1 != p.1) }, ?_, fun b hb => ?_⟩
  · rw [length_modAt, hlen]
  · rw [nth_modAt, if_neg (fun h : p.1 = b ∧ _ => hb (h.1 ▸ hmem)), hsame b hb]

/-- With no pair open for them, the banks are as they are. -/
theorem Dev.macFlush_none {banks : List Nat} (h : ∀ b ∈ banks, ¬ ∃ p ∈ (d.arr a).pend, p.1 = b) : d.macFlush a banks = d := by
  have hnone : (d.arr a).pend.filter (fun p => banks.contains p.1) = [] :=
    List.filter_eq_nil_iff.2 fun p hp hin => h p.1 (by simpa using hin) ⟨p, hp, rfl⟩
  rw [Dev.macFlush, hnone]
  rfl

/-! ### The instruction at hand -/

/-- What holds of an array whose next instruction is at hand. -/
structure Dev.AtIns (a op : Nat) (n : ArrNow) (d : Dev) : Prop where
  slice : (d.arr a).slice = some n.s
  fop : d.fop n.s.op = some n.o
  prog : ∃ p, nth (d.arr a).progs n.s.store none = some p ∧ n.image = p.image
  ins : n.i = progIns n.image n.s.pc
  op : n.i.op = op

theorem Dev.atIns_of {op : Nat} {n : ArrNow} (h : d.arrNow a op = some n) : d.AtIns a op n := by
  unfold Dev.arrNow at h
  split at h
  · cases h
  · next s hs =>
    split at h
    · next o p ho hp =>
      dsimp only at h
      split at h
      · next hgo =>
        cases h
        exact ⟨hs, ho, ⟨p, hp, rfl⟩, rfl, hgo.2.1⟩
      · cases h
    · cases h

theorem AIns.bank_lt (image : List Byte) (k : Nat) : (progIns image k).bank < 4 := bits_lt _ _ 2

theorem AIns.sub_lt (image : List Byte) (k : Nat) : (progIns image k).sub < 16 := bits_lt _ _ 4

end

end Sys2Proof.Machine


/-!
SUPPORT. O41, INT32 accumulators: their order, their larger one, and the reductions of a row (R250, R269, R272).
-/
namespace Sys2Proof.Machine

/-! ### Order -/

theorem signedMant_natAbs (i : Int) : signedMant (decide (i < 0)) i.natAbs = i := by
  unfold signedMant
  split
  · next h => have := of_decide_eq_true h; omega
  · next h => have := of_decide_eq_false (Bool.not_eq_true _ ▸ h); omega

theorem XVal.lt_intValue (p q : Nat) : (intValue 32 p).lt (intValue 32 q) = decide (toSigned 32 p < toSigned 32 q) := by
  unfold intValue XVal.lt
  simp only [Int.sub_self, min_self, Int.toNat_zero, Nat.pow_zero, Nat.mul_one, signedMant_natAbs]

theorem XVal.toInt_intValue (p : Nat) : (intValue 32 p).toInt = toSigned 32 p := by
  unfold intValue XVal.toInt
  simp only [Int.toNat_zero, Nat.pow_zero, Nat.mul_one, signedMant_natAbs]

/-- The larger of two INT32 accumulators is one of them. -/
theorem maxCode_int (p q ctr : Nat) : ((maxCode true p q ctr).code = p ∨ (maxCode true p q ctr).code = q) ∧
    toSigned 32 (maxCode true p q ctr).code = max (toSigned 32 p) (toSigned 32 q) := by
  have hp : (intValue 32 p).isNaN = false := rfl
  have hq : (intValue 32 q).isNaN = false := rfl
  unfold maxCode
  simp only [if_true, hp, hq, Bool.or_self, Bool.false_eq_true, if_false, XVal.lt_intValue, decide_eq_true_eq]
  split
  · next h => exact ⟨.inr rfl, (max_eq_right h.le).symm⟩
  · next h =>
    split
    · exact ⟨.inl rfl, (max_eq_left (not_lt.1 h)).symm⟩
    · next h' =>
      have heq : toSigned 32 p = toSigned 32 q := le_antisymm (not_lt.1 fun hlt => h' (.inl hlt)) (not_lt.1 h)
      dsimp only
      split
      · exact ⟨.inl rfl, by rw [heq, max_self]⟩
      · exact ⟨.inr rfl, by rw [heq, max_self]⟩

/-- Columns exchange only where that puts the larger value, or the smaller, first. -/
theorem cmpxSwaps_int (smaller : Bool) (p q ctr : Nat) :
    (cmpxSwaps true smaller p q ctr = true → if smaller then toSigned 32 q ≤ toSigned 32 p else toSigned 32 p ≤ toSigned 32 q) ∧
    (cmpxSwaps true smaller p q ctr = false → if smaller then toSigned 32 p ≤ toSigned 32 q else toSigned 32 q ≤ toSigned 32 p) := by
  unfold cmpxSwaps
  simp only [if_true, XVal.lt_intValue, decide_eq_true_eq]
  by_cases hlt : toSigned 32 p < toSigned 32 q
  · rw [if_pos hlt]
    cases smaller
    · exact ⟨fun _ => hlt.le, fun h => absurd h (by decide)⟩
    · exact ⟨fun h => absurd h (by decide), fun _ => hlt.le⟩
  · rw [if_neg hlt]
    by_cases hgt : toSigned 32 q < toSigned 32 p
    · rw [if_pos hgt]
      cases smaller
      · exact ⟨fun h => absurd h (by decide), fun _ => hgt.le⟩
      · exact ⟨fun _ => hgt.le, fun h => absurd h (by decide)⟩
    · have heq : toSigned 32 p = toSigned 32 q := le_antisymm (not_lt.1 hgt) (not_lt.1 hlt)
      rw [heq]
      cases smaller <;> exact ⟨fun _ => le_refl _, fun _ => le_refl _⟩

/-! ### The largest of a row -/

theorem rowReduce_max {row : List Nat} (hrow : row ≠ []) (ctr : Nat) : (rowReduce true true row ctr).code ∈ row ∧
    ∀ v ∈ row, toSigned 32 v ≤ toSigned 32 (rowReduce true true row ctr).code := by
  obtain ⟨p, l, rfl⟩ := List.exists_cons_of_ne_nil hrow
  have hfold : ∀ (l : List Nat) (q : Conv), ∃ y : Conv, l.foldl (fun (q : Conv) v =>
      let w := maxCode true q.code v (q.ctr + 0)
      ({ w with evs := q.evs ++ [] ++ w.evs } : Conv)) q = y ∧ y.code ∈ q.code :: l ∧ ∀ v ∈ q.code :: l, toSigned 32 v ≤ toSigned 32 y.code := by
    intro l
    induction l with
    | nil => exact fun q => ⟨q, rfl, List.mem_cons_self, fun v hv => (List.mem_singleton.1 hv) ▸ le_refl _⟩
    | cons v l ih =>
      intro q
      obtain ⟨hone, hmax⟩ := maxCode_int q.code v (q.ctr + 0)
      obtain ⟨y, hy, hmem, hle⟩ := ih { maxCode true q.code v (q.ctr + 0) with evs := q.evs ++ [] ++ (maxCode true q.code v (q.ctr + 0)).evs }
      dsimp only at hmem hle
      have htop := hle _ List.mem_cons_self
      rw [hmax] at htop
      refine ⟨y, hy, ?_, fun u hu => ?_⟩
      · rcases List.mem_cons.1 hmem with h | h
        · rw [h]
          rcases hone with h1 | h1
          · exact List.mem_cons.2 (.inl h1)
          · exact List.mem_cons_of_mem _ (List.mem_cons.2 (.inl h1))
        · simp [h]
      · rcases List.mem_cons.1 hu with rfl | hu
        · exact (le_max_left _ _).trans htop
        · rcases List.mem_cons.1 hu with rfl | hu
          · exact (le_max_right _ _).trans htop
          · exact hle u (List.mem_cons_of_mem _ hu)
  obtain ⟨y, hy, hmem, hle⟩ := hfold l ⟨p, [], ctr⟩
  have hcode : (rowReduce true true (p :: l) ctr).code = y.code := congrArg Conv.code hy
  rw [hcode]
  exact ⟨hmem, hle⟩

/-! ### The sum of a row -/

/-- The sum of the accumulators of a list, as signed integers. -/
def signedTotal (l : List Conv) : Int := (l.map (fun c => toSigned 32 c.code)).sum

/-- The sum of their magnitudes. -/
def weight (l : List Conv) : Nat := (l.map (fun c => (toSigned 32 c.code).natAbs)).sum

theorem signedTotal_le_weight (l : List Conv) : (signedTotal l).natAbs ≤ weight l := by
  induction l with
  | nil => exact le_refl _
  | cons c l ih =>
    have h : signedTotal (c :: l) = toSigned 32 c.code + signedTotal l := List.sum_cons
    have hw : weight (c :: l) = (toSigned 32 c.code).natAbs + weight l := List.sum_cons
    rw [h, hw]
    omega

/-- A sum that stays in range is exact. -/
theorem int32Add_exact (p q : Nat) (h : (toSigned 32 p).natAbs + (toSigned 32 q).natAbs < 2 ^ 31) :
    (int32Add p (toSigned 32 q)).1 = ofSigned 32 (toSigned 32 p + toSigned 32 q) ∧
    toSigned 32 (int32Add p (toSigned 32 q)).1 = toSigned 32 p + toSigned 32 q := by
  have hcode : (int32Add p (toSigned 32 q)).1 = ofSigned 32 (toSigned 32 p + toSigned 32 q) := by
    unfold int32Add
    dsimp only
    rw [if_neg (by omega), if_neg (by omega)]
  refine ⟨hcode, ?_⟩
  rw [hcode]
  exact (congrArg (toSigned 32) (Nat.mod_eq_of_lt (ofSigned_lt _)).symm).trans (toSigned_ofSigned (by omega) (by omega))

section
variable {join : Conv → Conv → Conv} (hjoin : ∀ p q, (join p q).code = (int32Add p.code (toSigned 32 q.code)).1)
include hjoin

/-- One level of the tree keeps the sum and halves the list. -/
theorem treeLevel_keeps (l : List Conv) (hw : weight l < 2 ^ 31) (n : Nat) (hn : l.length = 2 * n) : (treeLevel join l).length = n ∧
    signedTotal (treeLevel join l) = signedTotal l ∧ weight (treeLevel join l) ≤ weight l := by
  induction n generalizing l with
  | zero =>
    rw [List.eq_nil_of_length_eq_zero hn]
    exact ⟨rfl, rfl, le_refl _⟩
  | succ n ih =>
    match l, hn with
    | p :: q :: l, hn =>
      have hweight : weight (p :: q :: l) = (toSigned 32 p.code).natAbs + ((toSigned 32 q.code).natAbs + weight l) := by
        simp only [weight, List.map_cons, List.sum_cons]
      have htotal : signedTotal (p :: q :: l) = toSigned 32 p.code + (toSigned 32 q.code + signedTotal l) := by
        simp only [signedTotal, List.map_cons, List.sum_cons]
      obtain ⟨hlen, hsum, hle⟩ := ih l (by omega) (by simpa [Nat.mul_succ] using hn)
      obtain ⟨-, hval⟩ := int32Add_exact p.code q.code (by omega)
      have hlevel : treeLevel join (p :: q :: l) = join p q :: treeLevel join l := rfl
      have hweight' : weight (join p q :: treeLevel join l) = (toSigned 32 p.code + toSigned 32 q.code).natAbs + weight (treeLevel join l) := by
        simp only [weight, List.map_cons, List.sum_cons, hjoin, hval]
      have htotal' : signedTotal (join p q :: treeLevel join l) = toSigned 32 p.code + toSigned 32 q.code + signedTotal (treeLevel join l) := by
        simp only [signedTotal, List.map_cons, List.sum_cons, hjoin, hval]
      rw [hlevel, hweight', htotal', hweight, htotal]
      exact ⟨congrArg Nat.succ hlen, by omega, by omega⟩

/-- The levels of a tree leave one accumulator, the sum. -/
theorem treeLevels_sum {α : Type} (ks : List α) (l : List Conv) (hks : ks ≠ []) (hlen : l.length = 2 ^ ks.length) (hw : weight l < 2 ^ 31) :
    ∃ c, ks.foldl (fun (l : List Conv) _ => treeLevel join l) l = [c] ∧ c.code = ofSigned 32 (signedTotal l) := by
  induction ks generalizing l with
  | nil => exact absurd rfl hks
  | cons k ks ih =>
    rw [List.foldl_cons]
    cases ks with
    | nil =>
      match l, hlen with
      | [p, q], _ =>
        have hpq : (toSigned 32 p.code).natAbs + (toSigned 32 q.code).natAbs < 2 ^ 31 := by
          simpa [weight] using hw
        refine ⟨join p q, rfl, ?_⟩
        rw [hjoin, (int32Add_exact p.code q.code hpq).1]
        simp [signedTotal]
    | cons k' ks =>
      obtain ⟨hlen', hsum, hle⟩ := treeLevel_keeps hjoin l hw (2 ^ (k' :: ks).length) (by rw [hlen]; simp only [List.length_cons]; omega)
      obtain ⟨c, hc, hcode⟩ := ih _ (List.cons_ne_nil _ _) hlen' (hle.trans_lt hw)
      exact ⟨c, hc, hcode.trans (by rw [hsum])⟩

end

/-- The leaves of the tree are the cells of the row, each once. -/
theorem sum_rowLeaf {M : Type} [AddCommMonoid M] {row : List Nat} (hrow : row.length = 64) (f : Nat → M) :
    ((List.finRange 64).map (fun i => f (nth row (Config.rowLeaf i) 0))).sum = (row.map f).sum := by
  have hlist : row.map f = (List.finRange 64).map (fun i : Fin 64 => f (nth row i 0)) := by
    refine List.ext_getElem (by simp [hrow]) fun i hi _ => ?_
    have hi' : i < row.length := by simpa using hi
    simp [nth, List.getElem?_eq_getElem hi']
  rw [hlist, ← Fin.sum_univ_def, ← Fin.sum_univ_def]
  exact Equiv.sum_comp Config.rowLeaf (fun i : Fin 64 => f (nth row i 0))

theorem rowReduce_sum {row : List Nat} (hrow : row.length = 64) (hsmall : (row.map (fun v => (toSigned 32 v).natAbs)).sum < 2 ^ 31) (ctr : Nat) :
    (rowReduce true false row ctr).code = ofSigned 32 (row.map (toSigned 32)).sum := by
  have htotal : signedTotal ((List.finRange 64).map (fun i => Conv.mk (nth row (Config.rowLeaf i) 0) [] 0)) = (row.map (toSigned 32)).sum := by
    rw [signedTotal, List.map_map]
    exact sum_rowLeaf hrow (toSigned 32)
  have hweight : weight ((List.finRange 64).map (fun i => Conv.mk (nth row (Config.rowLeaf i) 0) [] 0)) < 2 ^ 31 := by
    rw [weight, List.map_map]
    exact (sum_rowLeaf hrow (fun v => (toSigned 32 v).natAbs)).trans_lt hsmall
  obtain ⟨c, hc, hcode⟩ := treeLevels_sum (join := fun p q => ⟨(addCode true p.code q.code).1, p.evs ++ q.evs ++ (addCode true p.code q.code).2, 0⟩)
    (fun _ _ => rfl) (List.range 6) _ (by decide) (by simp) hweight
  rw [htotal] at hcode
  have hfold : (rowReduce true false row ctr).code = (((List.range 6).foldl (fun (l : List Conv) _ => treeLevel
      (fun p q => ⟨(addCode true p.code q.code).1, p.evs ++ q.evs ++ (addCode true p.code q.code).2, 0⟩) l)
      ((List.finRange 64).map (fun i => Conv.mk (nth row (Config.rowLeaf i) 0) [] 0))).headD ⟨0, [], 0⟩).code := by
    unfold rowReduce
    simp only [Bool.false_eq_true, if_false]
  rw [hfold, hc]
  exact hcode

end Sys2Proof.Machine


/-!
SUPPORT. O41, LOOP, ROWRED, CMPX, IDX and END (R269, R272).
-/
namespace Sys2Proof.Machine

section
variable {a : Fin 16} {n : ArrNow} {s : State}

/-! ### Of an array that runs -/

theorem arr_lt (hsh : shaped s.dev) (a : Fin 16) : a.val < s.dev.fry.arrs.length := by
  obtain ⟨-, -, -, -, -, harrs, -⟩ := hsh
  rw [harrs]
  exact a.isLt

theorem arr_mem (hsh : shaped s.dev) (a : Fin 16) : s.dev.arr a ∈ s.dev.fry.arrs := by
  have h := arr_lt hsh a
  rw [Dev.arr, nth, List.getElem?_eq_getElem h]
  exact List.getElem_mem h

theorem length_banks (hsh : shaped s.dev) (a : Fin 16) : (s.dev.arr a).banks.length = 4 := by
  have hmem := arr_mem hsh a
  obtain ⟨-, -, -, -, -, -, hall⟩ := hsh
  exact (hall _ hmem).2

theorem Dev.ArrayTo.bank {a : Nat} {r : Arr} {d e : Dev} (h : d.ArrayTo a r e) (ha : a < d.fry.arrs.length) (b : Nat) : e.bank a b = nth r.banks b [] := by
  rw [Dev.bank, h.arr ha]

theorem Dev.AtIns.bank_lt {a op : Nat} {d : Dev} (h : d.AtIns a op n) : n.i.bank < 4 := h.ins ▸ AIns.bank_lt _ _

theorem Dev.AtIns.sub_lt {a op : Nat} {d : Dev} (h : d.AtIns a op n) : n.i.sub < 16 := h.ins ▸ AIns.sub_lt _ _

/-- The slice that an array holds, past the instruction. -/
theorem Dev.AtIns.past {a op : Nat} {d : Dev} (h : d.AtIns a op n) : (d.arr a).slice.map (fun s => { s with
    pc := (loopNext ([] ++ s.loops) (n.s.pc + 1)).1, loops := (loopNext ([] ++ s.loops) (n.s.pc + 1)).2 }) = some n.past := by
  rw [h.slice]
  rfl

/-! ### LOOP -/

theorem arrLoop_leaves (h : arrRuns a opLoop n s) : ∃ t, exec (.arrLoop a) s = .next t ∧ t.store = s.store ∧
    (t.dev.arr a).banks = (s.dev.arr a).banks ∧ (t.dev.arr a).slice = some { n.s with
      pc := (loopNext ((n.i.loop n.s.pc).2 ++ n.s.loops) (n.i.loop n.s.pc).1).1
      loops := (loopNext ((n.i.loop n.s.pc).2 ++ n.s.loops) (n.i.loop n.s.pc).1).2 } := by
  obtain ⟨hrun, -, hsh, hnow⟩ := h
  have hins := Dev.atIns_of hnow
  have hto := ((s.dev.arrayTo_self a).arrNext (n.i.loop n.s.pc).1 (n.i.loop n.s.pc).2 0).arr (arr_lt hsh a)
  have hgo : s.dev.arrLoop a = s.dev.arrNext a (n.i.loop n.s.pc).1 (n.i.loop n.s.pc).2 0 := by rw [Dev.arrLoop, hnow]
  refine ⟨_, onDev_leaves hrun hgo, rfl, (congrArg Arr.banks hto).trans rfl, (congrArg Arr.slice hto).trans ?_⟩
  rw [hins.slice]
  rfl

theorem arrLoop_opens (h : arrRuns a opLoop n s) (hcount : 1 ≤ n.i.count) (hbody : 1 ≤ n.i.imm % 256) : ∃ t, exec (.arrLoop a) s = .next t ∧
    t.store = s.store ∧ (t.dev.arr a).banks = (s.dev.arr a).banks ∧ (t.dev.arr a).slice = some { n.s with
      pc := n.s.pc + 1, loops := (n.s.pc + 1, n.s.pc + 1 + n.i.imm % 256, n.i.count) :: n.s.loops } := by
  obtain ⟨t, ht, hst, hbanks, hslice⟩ := arrLoop_leaves h
  refine ⟨t, ht, hst, hbanks, hslice.trans ?_⟩
  rw [AIns.loop]
  dsimp only
  rw [if_neg (by omega), List.singleton_append, loopNext, if_pos (by omega)]

theorem arrLoop_skips (h : arrRuns a opLoop n s) (hcount : n.i.count = 0) : ∃ t, exec (.arrLoop a) s = .next t ∧ t.store = s.store ∧
    (t.dev.arr a).banks = (s.dev.arr a).banks ∧ (t.dev.arr a).slice = some { n.s with
      pc := (loopNext n.s.loops (n.s.pc + 1 + n.i.imm % 256)).1, loops := (loopNext n.s.loops (n.s.pc + 1 + n.i.imm % 256)).2 } := by
  obtain ⟨t, ht, hst, hbanks, hslice⟩ := arrLoop_leaves h
  refine ⟨t, ht, hst, hbanks, hslice.trans ?_⟩
  rw [AIns.loop]
  dsimp only
  rw [if_pos (.inl hcount), List.nil_append]

/-! ### IDX -/

theorem arrIdx_loads (h : arrRuns a opIdx n s) : ∃ t, exec (.arrIdx a) s = .next t ∧ t.store = s.store ∧ (t.dev.arr a).slice = some n.past ∧
    (t.dev.arr a).banks = (s.dev.arr a).banks ∧ ∀ r < 64, ∀ c < 64, cell (t.dev.arr a).index r c = if n.i.sub % 2 = 0 then c else r := by
  obtain ⟨hrun, -, hsh, hnow⟩ := h
  have hins := Dev.atIns_of hnow
  obtain ⟨l, hl⟩ : ∃ l, l = (cellsGo (fun r c ctr => ⟨if n.i.sub % 2 = 0 then c else r, [], ctr⟩) 4096 0 0).1 := ⟨_, rfl⟩
  have hgo : s.dev.arrIdx a = (s.dev.setArr a fun r => { r with index := l }).arrNext a (n.s.pc + 1) [] n.i.handshakes := by
    rw [Dev.arrIdx, hnow, hl]
  have hto := (((s.dev.arrayTo_self a).setArr fun r => { r with index := l }).arrNext (n.s.pc + 1) [] n.i.handshakes).arr (arr_lt hsh a)
  have hcells : ∀ r < 64, ∀ c < 64, cell l r c = if n.i.sub % 2 = 0 then c else r := fun r hr c hc => by
    rw [hl]
    exact cell_cellsGo_of (f := fun r c ctr => ⟨if n.i.sub % 2 = 0 then c else r, [], ctr⟩) hr hc fun _ => rfl
  exact ⟨_, onDev_leaves hrun hgo, rfl, (congrArg Arr.slice hto).trans hins.past, (congrArg Arr.banks hto).trans rfl,
    fun r hr c hc => (congrArg (fun x : Arr => cell x.index r c) hto).trans (hcells r hr c hc)⟩

/-! ### An instruction that makes a bank anew -/

/-- What follows the flush of an instruction's banks. -/
theorem Dev.flushed (d : Dev) {a : Nat} (banks : List Nat) (ha : a < d.fry.arrs.length) (hlen : (d.arr a).banks.length = 4) : ∃ r : Arr,
    d.ArrayTo a r (d.macFlush a banks) ∧ (d.macFlush a banks).arr a = r ∧ r.slice = (d.arr a).slice ∧ r.index = (d.arr a).index ∧
    r.banks.length = 4 ∧ ∀ k ∉ banks, nth r.banks k [] = d.bank a k := by
  obtain ⟨bs, ps, hto, hbs, hsame⟩ := d.arrayTo_macFlush a banks
  exact ⟨_, hto, hto.arr ha, rfl, rfl, hbs.trans hlen, hsame⟩

theorem nth_modAt_made {bs : List (List Nat)} {b : Nat} {l : List Nat} (h : b < bs.length) : nth (modAt (fun _ => l) bs b) b [] = l := by
  rw [nth_modAt, if_pos ⟨rfl, h⟩]

theorem nth_modAt_other {bs : List (List Nat)} {b k : Nat} {l : List Nat} (h : k ≠ b) : nth (modAt (fun _ => l) bs b) k [] = nth bs k [] := by
  rw [nth_modAt, if_neg fun hk => h hk.1.symm]

/-! ### CMPX -/

/-- Where CMPX takes the new value of column `c` of row `r` from. -/
def cmpxFrom (int smaller : Bool) (dist : Nat) (old : List Nat) (free r c : Nat) : Nat :=
  if cmpxSwaps int smaller (cell old r (min c (Nat.xor c dist))) (cell old r (max c (Nat.xor c dist))) (free + 64 * r + min c (Nat.xor c dist)) then
    Nat.xor c dist
  else c

theorem xor_xor_cancel (c d : Nat) : Nat.xor (Nat.xor c d) d = c := Nat.xor_xor_cancel_right c d

/-- Both columns of a pair are taken from the pair, and from the two of it. -/
theorem cmpxFrom_pair (int smaller : Bool) (dist : Nat) (old : List Nat) (free r c : Nat) :
    (cmpxFrom int smaller dist old free r c = c ∧ cmpxFrom int smaller dist old free r (Nat.xor c dist) = Nat.xor c dist) ∨
    (cmpxFrom int smaller dist old free r c = Nat.xor c dist ∧ cmpxFrom int smaller dist old free r (Nat.xor c dist) = c) := by
  unfold cmpxFrom
  rw [xor_xor_cancel, min_comm (Nat.xor c dist) c, max_comm (Nat.xor c dist) c]
  split
  · exact .inr ⟨rfl, rfl⟩
  · exact .inl ⟨rfl, rfl⟩

/-- The lower column takes the larger INT32 value, or the smaller. -/
theorem cmpxFrom_order (smaller : Bool) {dist : Nat} (old : List Nat) (free r : Nat) {c : Nat} (hlt : c < Nat.xor c dist) :
    if smaller then toSigned 32 (cell old r (cmpxFrom true smaller dist old free r c)) ≤
        toSigned 32 (cell old r (cmpxFrom true smaller dist old free r (Nat.xor c dist)))
    else toSigned 32 (cell old r (cmpxFrom true smaller dist old free r (Nat.xor c dist))) ≤
        toSigned 32 (cell old r (cmpxFrom true smaller dist old free r c)) := by
  unfold cmpxFrom
  rw [xor_xor_cancel, min_comm (Nat.xor c dist) c, max_comm (Nat.xor c dist) c, min_eq_left hlt.le, max_eq_right hlt.le]
  have h := cmpxSwaps_int smaller (cell old r c) (cell old r (Nat.xor c dist)) (free + 64 * r + c)
  generalize cmpxSwaps true smaller (cell old r c) (cell old r (Nat.xor c dist)) (free + 64 * r + c) = swaps at h ⊢
  cases swaps
  · simpa using h.2 rfl
  · simpa using h.1 rfl

theorem xor_lt_64 {c d : Nat} (hc : c < 64) (hd : d < 64) : Nat.xor c d < 64 := Nat.xor_lt_two_pow (n := 6) hc hd

/-- Cells taken from the columns that `g` names. -/
def movedCells (old : List Nat) (g : Nat → Nat → Nat) (r c ctr : Nat) : Conv := ⟨cell old r (g r c), [], ctr⟩

theorem cell_movedCells (old : List Nat) (g : Nat → Nat → Nat) (ctr : Nat) {r c : Nat} (hr : r < 64) (hc : c < 64) :
    cell (cellsGo (movedCells old g) 4096 0 ctr).1 r c = cell old r (g r c) := cell_cellsGo_of hr hc fun _ => rfl

/-- CMPX moves the cells of its bank, and the index registers with them. -/
theorem Dev.arrCmpx_eq {d x : Dev} {a : Nat} (hnow : d.arrNow a opCmpx = some n) (hx : d.macFlush a [n.i.bank] = x) {g : Nat → Nat → Nat}
    (hg : g = cmpxFrom (progInt n.image) (n.i.sub % 2 == 1) (n.i.imm % 64) (x.bank a n.i.bank) x.freeCtr) :
    d.arrCmpx a = (((({ x with freeCtr := x.freeCtr + 4096 } : Dev).setBank a n.i.bank (movedCells (x.bank a n.i.bank) g)).setArr a
      (fun r => { r with index := (cellsGo (movedCells (x.arr a).index g) 4096 0 0).1 })).arrNext a (n.s.pc + 1) [] n.i.handshakes) := by
  subst hg
  subst hx
  rw [Dev.arrCmpx, hnow]
  rfl

theorem arrCmpx_orders (h : arrRuns a opCmpx n s) : ∃ t, exec (.arrCmpx a) s = .next t ∧ t.store = s.store ∧ (t.dev.arr a).slice = some n.past ∧
    (∀ b, b ≠ n.i.bank → t.dev.bank a b = s.dev.bank a b) ∧ ∀ r < 64, ∀ c < 64,
      let e := Nat.xor c (n.i.imm % 64)
      let p := fun (k : Nat) => (cell ((s.dev.macFlush a [n.i.bank]).bank a n.i.bank) r k, cell (s.dev.arr a).index r k)
      let q := fun (k : Nat) => (cell (t.dev.bank a n.i.bank) r k, cell (t.dev.arr a).index r k)
      ((q c = p c ∧ q e = p e) ∨ (q c = p e ∧ q e = p c)) ∧
      (progInt n.image = true → c < e → if n.i.sub % 2 = 0 then toSigned 32 (q e).1 ≤ toSigned 32 (q c).1
        else toSigned 32 (q c).1 ≤ toSigned 32 (q e).1) := by
  obtain ⟨hrun, -, hsh, hnow⟩ := h
  have hins := Dev.atIns_of hnow
  have ha := arr_lt hsh a
  obtain ⟨r₁, hto, harr, hslice, hindex, hlen, hother⟩ := s.dev.flushed [n.i.bank] ha (length_banks hsh a)
  generalize hd : s.dev.macFlush a [n.i.bank] = d at hto harr
  obtain ⟨g, hg⟩ : ∃ g, g = cmpxFrom (progInt n.image) (n.i.sub % 2 == 1) (n.i.imm % 64) (d.bank a n.i.bank) d.freeCtr := ⟨_, rfl⟩
  have hgo := Dev.arrCmpx_eq hnow hd hg
  have hu := hto.draws (d.freeCtr + 4096)
  generalize ({ d with freeCtr := d.freeCtr + 4096 } : Dev) = u at hgo hu
  have hto' := ((hu.setBank n.i.bank (movedCells (d.bank a n.i.bank) g)).setArr
    (fun r => { r with index := (cellsGo (movedCells (d.arr a).index g) 4096 0 0).1 })).arrNext (n.s.pc + 1) [] n.i.handshakes
  rw [← hgo] at hto'
  have harr' := hto'.arr ha
  have hbank := hto'.bank ha
  have hmade := nth_modAt_made (bs := r₁.banks) (b := n.i.bank)
    (l := (cellsGo (movedCells (d.bank a n.i.bank) g) 4096 0 u.freeCtr).1) (by rw [hlen]; exact hins.bank_lt)
  refine ⟨{ s with dev := s.dev.arrCmpx a }, onDev_running hrun _, rfl, (congrArg Arr.slice harr').trans ?_, fun b hb => (hbank b).trans ?_,
    fun r hr c hc => ?_⟩
  · exact (congrArg _ hslice).trans hins.past
  · exact (nth_modAt_other hb).trans (hother b (by simpa using hb))
  · intro e p q
    have hq : ∀ k < 64, q k = p (g r k) := fun k hk => Prod.ext
      ((congrArg (cell · r k) (hbank n.i.bank)).trans ((congrArg (cell · r k) hmade).trans (cell_movedCells _ g _ hr hk)))
      ((congrArg (fun x : Arr => cell x.index r k) harr').trans ((cell_movedCells _ g _ hr hk).trans (by rw [harr, hindex])))
    have he : e < 64 := xor_lt_64 hc (Nat.mod_lt _ (by decide))
    rw [hq c hc, hq e he]
    refine ⟨?_, fun hint hlt => ?_⟩
    · rcases cmpxFrom_pair (progInt n.image) (n.i.sub % 2 == 1) (n.i.imm % 64) (d.bank a n.i.bank) d.freeCtr r c with ⟨h1, h2⟩ | ⟨h1, h2⟩
      · exact .inl ⟨congrArg p (by rw [hg]; exact h1), congrArg p (by rw [hg]; exact h2)⟩
      · exact .inr ⟨congrArg p (by rw [hg]; exact h1), congrArg p (by rw [hg]; exact h2)⟩
    · have hord := cmpxFrom_order (n.i.sub % 2 == 1) (d.bank a n.i.bank) d.freeCtr r hlt
      rw [← hint, ← hg] at hord
      rcases Nat.mod_two_eq_zero_or_one n.i.sub with h0 | h1
      · rw [if_pos h0]
        rw [h0] at hord
        rwa [if_neg (by rw [hint]; decide)] at hord
      · rw [if_neg (by omega)]
        rw [h1] at hord
        rwa [if_pos (by rw [hint]; decide)] at hord

end

end Sys2Proof.Machine


/-!
SUPPORT. O41, ROWRED and END (R269, R272).
-/
namespace Sys2Proof.Machine

/-! ### ROWRED -/

/-- The reductions of the first `k` rows of `old`, in turn, and the draws after them. -/
def rowsReduced (int max : Bool) (old : List Nat) (k ctr : Nat) : List Conv × Nat :=
  (List.range k).foldl (fun (q : List Conv × Nat) r =>
    let v := rowReduce int max ((List.range 64).map (fun c => cell old r c)) q.2
    (q.1 ++ [v], v.ctr)) ([], ctr)

theorem rowsReduced_nth (int max : Bool) (old : List Nat) (k ctr : Nat) : (rowsReduced int max old k ctr).1.length = k ∧
    ∀ r < k, ∃ x, nth (rowsReduced int max old k ctr).1 r ⟨0, [], 0⟩ = rowReduce int max ((List.range 64).map (fun c => cell old r c)) x := by
  induction k with
  | zero => exact ⟨rfl, fun r hr => absurd hr (Nat.not_lt_zero r)⟩
  | succ k ih =>
    obtain ⟨hlen, hnth⟩ := ih
    have hstep : (rowsReduced int max old (k + 1) ctr).1 = (rowsReduced int max old k ctr).1 ++
        [rowReduce int max ((List.range 64).map (fun c => cell old k c)) (rowsReduced int max old k ctr).2] := by
      rw [rowsReduced, List.range_succ (n := k), List.foldl_append]
      rfl
    rw [hstep]
    refine ⟨by simp [hlen], fun r hr => ?_⟩
    rcases Nat.lt_succ_iff_lt_or_eq.1 hr with hlt | rfl
    · obtain ⟨x, hx⟩ := hnth r hlt
      refine ⟨x, ?_⟩
      rw [← hx, nth, nth, List.getElem?_append_left (by omega)]
    · refine ⟨(rowsReduced int max old r ctr).2, ?_⟩
      rw [nth, List.getElem?_append_right (by omega), hlen, Nat.sub_self]
      rfl

/-- A row's reduction, in all its cells. -/
def rowCells (rows : List Conv) (r _c ctr : Nat) : Conv := ⟨(nth rows r ⟨0, [], 0⟩).code, [], ctr⟩

theorem cell_rowCells (rows : List Conv) (ctr : Nat) {r c : Nat} (hr : r < 64) (hc : c < 64) :
    cell (cellsGo (rowCells rows) 4096 0 ctr).1 r c = (nth rows r ⟨0, [], 0⟩).code := cell_cellsGo_of hr hc fun _ => rfl

section
variable {a : Fin 16} {n : ArrNow} {s : State}

theorem Dev.arrRowred_eq {d x : Dev} {a : Nat} (hnow : d.arrNow a opRowred = some n) (hx : d.macFlush a [n.i.bank] = x) {q : List Conv × Nat}
    (hq : q = rowsReduced (progInt n.image) (n.i.sub == 1) (x.bank a n.i.bank) 64 x.freeCtr) :
    d.arrRowred a = ((({ x with freeCtr := q.2 } : Dev).setBank a n.i.bank (rowCells q.1)).arrEvs a (q.1.flatMap (·.evs))).arrNext a (n.s.pc + 1) []
      n.i.handshakes := by
  subst hq
  subst hx
  rw [Dev.arrRowred, hnow]
  rfl

theorem arrRowred_reduces (h : arrRuns a opRowred n s) : ∃ t, exec (.arrRowred a) s = .next t ∧ t.store = s.store ∧
    (t.dev.arr a).slice = some n.past ∧ (∀ b, b ≠ n.i.bank → t.dev.bank a b = s.dev.bank a b) ∧
    ∀ r < 64, ∃ x, ∀ c < 64, cell (t.dev.bank a n.i.bank) r c = (rowReduce (progInt n.image) (n.i.sub == 1)
      ((List.range 64).map (fun k => cell ((s.dev.macFlush a [n.i.bank]).bank a n.i.bank) r k)) x).code := by
  obtain ⟨hrun, -, hsh, hnow⟩ := h
  have hins := Dev.atIns_of hnow
  have ha := arr_lt hsh a
  obtain ⟨r₁, hto, harr, hslice, hindex, hlen, hother⟩ := s.dev.flushed [n.i.bank] ha (length_banks hsh a)
  generalize hd : s.dev.macFlush a [n.i.bank] = d at hto harr
  obtain ⟨q, hq⟩ : ∃ q, q = rowsReduced (progInt n.image) (n.i.sub == 1) (d.bank a n.i.bank) 64 d.freeCtr := ⟨_, rfl⟩
  obtain ⟨-, hrows⟩ := rowsReduced_nth (progInt n.image) (n.i.sub == 1) (d.bank a n.i.bank) 64 d.freeCtr
  rw [← hq] at hrows
  have hgo := Dev.arrRowred_eq hnow hd hq
  have hu := hto.draws q.2
  generalize ({ d with freeCtr := q.2 } : Dev) = u at hgo hu
  have hto' := ((hu.setBank n.i.bank (rowCells q.1)).arrEvs (q.1.flatMap (·.evs))).arrNext (n.s.pc + 1) [] n.i.handshakes
  rw [← hgo] at hto'
  have hbank := hto'.bank ha
  have hmade := nth_modAt_made (bs := r₁.banks) (b := n.i.bank) (l := (cellsGo (rowCells q.1) 4096 0 u.freeCtr).1) (by rw [hlen]; exact hins.bank_lt)
  refine ⟨{ s with dev := s.dev.arrRowred a }, onDev_running hrun _, rfl, (congrArg Arr.slice (hto'.arr ha)).trans ?_, fun b hb => (hbank b).trans ?_,
    fun r hr => ?_⟩
  · exact (congrArg _ hslice).trans hins.past
  · exact (nth_modAt_other hb).trans (hother b (by simpa using hb))
  · obtain ⟨x, hx⟩ := hrows r hr
    refine ⟨x, fun c hc => (congrArg (cell · r c) (hbank n.i.bank)).trans ((congrArg (cell · r c) hmade).trans ?_)⟩
    rw [cell_rowCells _ _ hr hc, hx]

theorem arrRowred_row (h : arrRuns a opRowred n s) : ∃ t, exec (.arrRowred a) s = .next t ∧ t.store = s.store ∧ (t.dev.arr a).slice = some n.past ∧
    (∀ b, b ≠ n.i.bank → t.dev.bank a b = s.dev.bank a b) ∧ ∀ r < 64,
      (∀ c < 64, cell (t.dev.bank a n.i.bank) r c = cell (t.dev.bank a n.i.bank) r 0) ∧
      (progInt n.image = true → n.i.sub = 1 →
        (∃ c < 64, cell (t.dev.bank a n.i.bank) r 0 = cell ((s.dev.macFlush a [n.i.bank]).bank a n.i.bank) r c) ∧
        ∀ c < 64, toSigned 32 (cell ((s.dev.macFlush a [n.i.bank]).bank a n.i.bank) r c) ≤ toSigned 32 (cell (t.dev.bank a n.i.bank) r 0)) ∧
      (progInt n.image = true → n.i.sub = 0 →
        ((List.range 64).map (fun c => (toSigned 32 (cell ((s.dev.macFlush a [n.i.bank]).bank a n.i.bank) r c)).natAbs)).sum < 2 ^ 31 →
        cell (t.dev.bank a n.i.bank) r 0 =
          ofSigned 32 ((List.range 64).map (fun c => toSigned 32 (cell ((s.dev.macFlush a [n.i.bank]).bank a n.i.bank) r c))).sum) := by
  obtain ⟨t, ht, hst, hslice, hother, hrows⟩ := arrRowred_reduces h
  refine ⟨t, ht, hst, hslice, hother, fun r hr => ?_⟩
  obtain ⟨x, hx⟩ := hrows r hr
  generalize (s.dev.macFlush a [n.i.bank]).bank a n.i.bank = old at hx
  have h0 := hx 0 (by decide)
  refine ⟨fun c hc => (hx c hc).trans h0.symm, fun hint hsub => ?_, fun hint hsub hsmall => ?_⟩
  · have hmax := rowReduce_max (row := (List.range 64).map (fun k => cell old r k)) (by simp) x
    rw [h0, hint, hsub]
    obtain ⟨hmem, hle⟩ := hmax
    obtain ⟨c, hc, hcell⟩ := List.mem_map.1 hmem
    exact ⟨⟨c, List.mem_range.1 hc, hcell.symm⟩, fun c hc => hle _ (List.mem_map.2 ⟨c, List.mem_range.2 hc, rfl⟩)⟩
  · have hsum := rowReduce_sum (row := (List.range 64).map (fun k => cell old r k)) (by simp) (by rw [List.map_map]; exact hsmall) x
    rw [h0, hint, hsub]
    refine Eq.trans hsum ?_
    rw [List.map_map]
    rfl

/-! ### END -/

/-- What a change of the array alone keeps. -/
theorem Dev.ArrayTo.keeps {a : Nat} {r : Arr} {d e : Dev} (h : d.ArrayTo a r e) : e.fry.jobs = d.fry.jobs ∧ e.fry.ops = d.fry.ops ∧
    e.fry.xfers = d.fry.xfers ∧ e.tim = d.tim := by
  obtain ⟨_, _, rfl⟩ := h
  exact ⟨rfl, rfl, rfl, rfl⟩

/-- The job that is changed is the one that is found. -/
theorem Dev.job_setJob {d : Dev} {op : Nat} {f : Job → Job} (hf : ∀ j, (f j).op = j.op) : (d.setJob op f).job op = (d.job op).map f :=
  List.find?_mapFirst (fun j hj => by rw [hf]; exact hj) d.fry.jobs

theorem endSlice_frees (h : arrRuns a opEnd n s) : ∃ t, exec (.endSlice a) s = .next t ∧ t.store = s.store ∧ (t.dev.arr a).slice = none ∧
    (t.dev.arr a).banks = ((s.dev.macFlushAll a).arr a).banks ∧ (t.dev.arr a).lastRun = s.dev.tim.tide ∧
    ∀ j, s.dev.job n.s.op = some j → t.dev.job n.s.op = some { j with left := j.left - 1 } := by
  obtain ⟨hrun, -, hsh, hnow⟩ := h
  have hins := Dev.atIns_of hnow
  have ha := arr_lt hsh a
  obtain ⟨r₁, hto, harr, hslice, -⟩ := s.dev.flushed [0, 1, 2, 3] ha (length_banks hsh a)
  rw [← Dev.macFlushAll] at hto harr
  have hgo : s.dev.arrEnd a = (((s.dev.macFlushAll a).setArr a fun r => { r.leave with lastRun := (s.dev.macFlushAll a).tim.tide }).setJob n.s.op
      fun j => { j with left := j.left - 1 }) := by
    rw [Dev.arrEnd, hnow, Option.isSome_some, if_pos rfl, Dev.sliceEnd, harr, hslice, hins.slice]
  generalize s.dev.macFlushAll a = d at hto harr hgo ⊢
  obtain ⟨hjobs, -, -, htim⟩ := hto.keeps
  have hto' := hto.setArr fun r => { r.leave with lastRun := d.tim.tide }
  have harr' : ((((d.setArr a fun r => { r.leave with lastRun := d.tim.tide }).setJob n.s.op fun j => { j with left := j.left - 1 }) : Dev).arr a) =
      { r₁.leave with lastRun := d.tim.tide } := hto'.arr ha
  refine ⟨_, onDev_leaves hrun hgo, rfl, (congrArg Arr.slice harr').trans rfl, (congrArg Arr.banks harr').trans (congrArg Arr.banks harr).symm,
    (congrArg Arr.lastRun harr').trans (congrArg Tim.tide htim), fun j hj => ?_⟩
  have hfind : Dev.job (d.setArr a fun r => { r.leave with lastRun := d.tim.tide }) n.s.op = some j := by
    rw [Dev.job] at hj ⊢
    exact (congrArg (List.find? _) hjobs).trans hj
  exact (Dev.job_setJob (f := fun j => { j with left := j.left - 1 }) fun _ => rfl).trans (congrArg _ hfind)

end

end Sys2Proof.Machine


/-!
SUPPORT. O41, what an array reads from memory (R164, R263, R264), and ELT (R269, R272).
-/
namespace Sys2Proof.Machine

/-! ### Lines read for an array -/

section
variable {d e : Dev}

theorem Dev.works_corrected (p : Nat) (d : Dev) : (d.corrected p).works = d.works := by
  rw [Dev.corrected]
  simp [Dev.works]

theorem Dev.works_setErrs (l : Nat) (v : List Nat) (d : Dev) : (d.setErrs l v).works = d.works := rfl

theorem Dev.works_fixes (v : List (Nat × Bool)) (d : Dev) : Dev.works { d with home := { d.home with fixes := v } } = d.works := rfl

theorem Dev.works_readPart (l : Nat) (ws : List Nat) (d : Dev) : (d.readPart l ws).works = d.works := by
  unfold Dev.readPart
  split
  · refine List.foldlRecOn (motive := fun y : Dev => y.works = d.works) _ _ rfl fun y hy w _ => ?_
    rw [Dev.mendWord, Dev.works_setErrs, Dev.works_corrected, Dev.works_count, hy]
  · split
    · exact (Dev.works_fixes _ _).trans ((Dev.works_corrected ..).trans (Dev.works_count ..))
    · rfl

theorem Dev.works_readLines (ls : List Nat) (ms : List LineMedia) (d : Dev) : (d.readLines ls ms).works = d.works := by
  have hstrike : ∀ (l : Nat) (m : Media) (e : Dev), (e.strikeOne l m).works = e.works := fun l m e => by
    rw [Dev.strikeOne]
    split <;> rfl
  refine List.foldlRecOn (motive := fun y : Dev => y.works = d.works) _ _ rfl fun y hy l _ => ?_
  have hstruck := List.foldlRecOn (motive := fun z : Dev => z.works = y.works) (ms.filter (fun m => m.line == l))
    (fun (d : Dev) m => d.strikeOne l m.media) rfl fun z hz m _ => (hstrike l m.media z).trans hz
  exact (Dev.works_readPart ..).trans ((Dev.works_checkBurst ..).trans (hstruck.trans hy))

/-- Reading lines changes nothing of the arrays. -/
theorem Dev.arrs_spanMedia (op : Nat) (lines : List Nat) (ms : List LineMedia) (d : Dev) : (d.spanMedia op lines ms).fry.arrs = d.fry.arrs := by
  have hread := Dev.works_readLines lines ms d
  have hbad := List.foldlRecOn (motive := fun y : Dev => y.works = (d.readLines lines ms).works) ((d.readLines lines ms).badLines lines)
    (fun (d : Dev) l => d.mediaBad l 0) rfl fun y hy l _ => ((Dev.works_capture ..).trans (Dev.works_count ..)).trans hy
  have hfry : (((d.readLines lines ms).badLines lines).foldl (fun (d : Dev) l => d.mediaBad l 0) (d.readLines lines ms)).fry = d.fry :=
    congrArg (fun w => w.2.2.1) (hbad.trans hread)
  unfold Dev.spanMedia
  dsimp only
  split
  · exact congrArg _ hfry
  · exact congrArg (fun f => f.arrs) hfry

theorem Dev.spanMedia_none (op : Nat) (ms : List LineMedia) (d : Dev) : d.spanMedia op [] ms = d := rfl

/-- Where no line of them has an error that the code cannot correct, reading them finds none and keeps all that a later read depends on. -/
theorem Dev.spanMedia_sound (op : Nat) {lines : List Nat} (hgood : ∀ l ∈ lines, d.lineErr l ≠ 2) :
    d.Kept (d.spanMedia op lines []) ∧ (d.spanMedia op lines []).badLines lines = [] := by
  have hread : d.readLines lines [] = (lines.dedup.map (fun l => (l, List.range 8))).foldl Dev.readBurst d := by
    rw [Dev.readLines, List.foldl_map]
    rfl
  have hbad : (d.readLines lines []).badLines lines = [] := by
    refine List.filter_eq_nil_iff.2 fun l hl => ?_
    have hne := Dev.partErr_ne_two (d.errsOf_readBursts_sublist (lines.dedup.map (fun l => (l, List.range 8))) l) (List.Subset.refl _)
      (hgood l (List.mem_dedup.1 hl))
    rw [hread]
    exact fun hl => hne (beq_iff_eq.1 hl)
  have hall : d.spanMedia op lines [] = d.readLines lines [] := by
    unfold Dev.spanMedia
    simp only [hbad, List.foldl_nil, List.isEmpty_nil, if_true]
  rw [hall]
  exact ⟨hread ▸ (d.silent_readBursts _).toKept, hbad⟩

/-! ### Elements -/

section
variable (h : d.Kept e) (m : Store)
include h

theorem Dev.Kept.readData_own (st gpa len : Nat) : Pkg.readData (m, e) e.node .spanRead st gpa len = Pkg.readData (m, d) d.node .spanRead st gpa len := by
  have hkind : ¬ AKind.spanRead = .migRead := by decide
  unfold Pkg.readData
  simp only [h.lineKey, Dev.physOf_own e.stands_node, Dev.physOf_own d.stands_node, hkind, if_false, h.plain]

theorem Dev.Kept.spanCode (o : FOp) (k row j : Nat) (bad : List Nat) : Pkg.spanCode o k row j bad (m, e) = Pkg.spanCode o k row j bad (m, d) := by
  unfold Pkg.spanCode Pkg.spanRead
  simp only [h.readData_own m]

theorem Dev.Kept.spanElem (o : FOp) (k row j : Nat) (bad : List Nat) : Pkg.spanElem o k row j bad (m, e) = Pkg.spanElem o k row j bad (m, d) := by
  unfold Pkg.spanElem
  rw [h.spanCode m]

end

/-- Where no line is bad every element has its value. -/
theorem Pkg.spanElem_some (o : FOp) (k row j : Nat) (x : Pkg) : x.spanElem o k row j [] = some ((x.spanElem o k row j []).getD .nan) := by
  have hsome : (x.spanElem o k row j []).isSome = true := by
    unfold Pkg.spanElem Pkg.spanCode ASlot.runs
    simp
  obtain ⟨v, hv⟩ := Option.isSome_iff_exists.1 hsome
  rw [hv]
  rfl

theorem Dev.ArrayTo.kept {a : Nat} {r : Arr} (h : d.ArrayTo a r e) : d.Kept e := by
  obtain ⟨_, _, rfl⟩ := h
  exact ⟨rfl, rfl, rfl, rfl, rfl, fun _ _ _ => rfl⟩

theorem Dev.ArrayTo.badLines {a : Nat} {r : Arr} (h : d.ArrayTo a r e) (ls : List Nat) : e.badLines ls = d.badLines ls := by
  obtain ⟨_, _, rfl⟩ := h
  rfl

end

/-! ### ELT -/

/-- What ELT makes of a cell (R269, R272). -/
def eltCell (sub : Nat) (int : Bool) (imm : XVal) (other : Nat) (vr vc : Option XVal) (p ctr : Nat) : Conv :=
  let by_ := fun (f : Nat → XVal → Nat × List Ev) (v : Option XVal) (p ctr : Nat) => match v with
    | some v => conv2 ctr (f p v)
    | none => freeCode ctr
  match sub with
  | 0 => Conv.mk 0 [] ctr
  | 1 => conv2 ctr (fp32Add p imm)
  | 2 => conv2 ctr (fp32Mul p imm)
  | 3 => by_ fp32Add vr p ctr
  | 4 => by_ fp32Add vc p ctr
  | 5 => by_ fp32Mul vr p ctr
  | 6 => expCode p ctr
  | 7 => rcpCode p ctr
  | 8 => maxCode int p other ctr
  | 9 => conv2 ctr (addCode int p other)
  | 10 => conv2 ctr (if int then int32Add p (-(toSigned 32 other)) else fp32Add p (fp32.value other).negate)
  | _ => Conv.mk other [] ctr

/-- The banks whose cells ELT uses. -/
def ArrNow.eltBanks (n : ArrNow) : List Nat := n.i.bank :: (if 8 ≤ n.i.sub then [n.i.imm % 4] else [])

/-- Cells that ELT makes, its bank and the other one being `old` and `other`. -/
def ArrNow.eltCells (n : ArrNow) (old other : List Nat) (vec : Nat → Option XVal) (r c ctr : Nat) : Conv :=
  eltCell n.i.sub (progInt n.image) (fp32.value n.i.imm) (cell other r c) (vec r) (vec c) (cell old r c) ctr

theorem Pkg.arrElt_eq {m : Store} {d x : Dev} {a : Nat} {n : ArrNow} {near bulk : List LineMedia} (hnow : d.arrNow a opElt = some n)
    (hpow : ∀ l ∈ n.eltLines, d.linePowered l = true) (hx : (d.spanMedia n.s.op n.eltLines (near ++ bulk)).macFlush a n.eltBanks = x) :
    Pkg.arrElt a near bulk (m, d) = (m, (x.setBank a n.i.bank (n.eltCells (x.bank a n.i.bank) (x.bank a (n.i.imm % 4))
      (fun i => Pkg.spanElem n.o n.i.slot 0 i (x.badLines n.eltLines) (m, x)))).arrNext a (n.s.pc + 1) [] n.i.handshakes) := by
  subst hx
  have hno : n.eltLines.any (fun l => !d.linePowered l) = false := by
    rw [List.any_eq_false]
    exact fun l hl => by simp [hpow l hl]
  unfold Pkg.arrElt
  rw [hnow]
  dsimp only
  rw [hno, if_neg Bool.false_ne_true]
  rfl

section
variable {a : Fin 16} {n : ArrNow} {s : State} {near bulk : List LineMedia}

theorem arrElt_makes (h : arrRuns a opElt n s) (hpow : ∀ l ∈ n.eltLines, s.dev.linePowered l = true) : ∃ t x, exec (.arrElt a near bulk) s = .next t ∧
    t.store = s.store ∧ (t.dev.arr a).slice = some n.past ∧
    (∀ b, b ≠ n.i.bank → (8 ≤ n.i.sub → b ≠ n.i.imm % 4) → t.dev.bank a b = s.dev.bank a b) ∧
    x = (s.dev.spanMedia n.s.op n.eltLines (near ++ bulk)).macFlush a n.eltBanks ∧
    ∀ r < 64, ∀ c < 64, ∃ k, cell (t.dev.bank a n.i.bank) r c = (n.eltCells (x.bank a n.i.bank) (x.bank a (n.i.imm % 4))
      (fun i => Pkg.spanElem n.o n.i.slot 0 i (x.badLines n.eltLines) (s.store, x)) r c k).code := by
  obtain ⟨hrun, hdom, hsh, hnow⟩ := h
  have hins := Dev.atIns_of hnow
  have hread := Dev.arrs_spanMedia n.s.op n.eltLines (near ++ bulk) s.dev
  generalize hd : s.dev.spanMedia n.s.op n.eltLines (near ++ bulk) = d at hread
  have ha : a.val < d.fry.arrs.length := by
    rw [hread]
    exact arr_lt hsh a
  have harr : d.arr a = s.dev.arr a := by rw [Dev.arr, Dev.arr, hread]
  obtain ⟨r₁, hto, harr₁, hslice, hindex, hlen, hother⟩ := d.flushed n.eltBanks ha (by rw [harr]; exact length_banks hsh a)
  obtain ⟨x, hx⟩ : ∃ x, x = d.macFlush a n.eltBanks := ⟨_, rfl⟩
  have hgo := Pkg.arrElt_eq (m := s.store) (near := near) (bulk := bulk) hnow hpow (by rw [hd, ← hx])
  rw [← hx] at hto
  generalize hf : n.eltCells (x.bank a n.i.bank) (x.bank a (n.i.imm % 4)) (fun i => Pkg.spanElem n.o n.i.slot 0 i (x.badLines n.eltLines) (s.store, x)) = f
    at hgo
  have hto' := (hto.setBank n.i.bank f).arrNext (n.s.pc + 1) [] n.i.handshakes
  have hbank := hto'.bank ha
  have hmade := nth_modAt_made (bs := r₁.banks) (b := n.i.bank) (l := (cellsGo f 4096 0 x.freeCtr).1) (by rw [hlen]; exact hins.bank_lt)
  refine ⟨_, x, onPkg_leaves hrun hdom hgo, rfl, (congrArg Arr.slice (hto'.arr ha)).trans ?_, fun b hb hb' => (hbank b).trans ?_, hx, fun r hr c hc => ?_⟩
  · exact (congrArg _ (hslice.trans (congrArg Arr.slice harr))).trans hins.past
  · have hnot : b ∉ n.eltBanks := by
      rw [ArrNow.eltBanks, List.mem_cons, not_or]
      refine ⟨hb, ?_⟩
      split
      · next h8 => simpa using hb' h8
      · exact List.not_mem_nil
    refine (nth_modAt_other hb).trans ((hother b hnot).trans ?_)
    rw [Dev.bank, harr, Dev.bank]
  · obtain ⟨k, hk⟩ := cell_cellsGo f x.freeCtr hr hc
    exact ⟨k, (congrArg (cell · r c) (hbank n.i.bank)).trans ((congrArg (cell · r c) hmade).trans (by rw [hk, hf]))⟩

end

end Sys2Proof.Machine


/-!
SUPPORT. O41, ELT: the value of each cell (R269, R272).
-/
namespace Sys2Proof.Machine

section
variable {a : Fin 16} {n : ArrNow} {s : State} {near bulk : List LineMedia}

/-- An ELT that reads a vector uses its own bank alone. -/
theorem ArrNow.eltBanks_of_lines (h : n.eltLines ≠ []) : n.eltBanks = [n.i.bank] := by
  have hvec : eltVector n.i.sub = true := by
    by_contra hne
    exact h (if_neg hne)
  have hsub : n.i.sub ≤ 5 := by
    rw [eltVector, Bool.and_eq_true, decide_eq_true_eq, decide_eq_true_eq] at hvec
    exact hvec.2
  rw [ArrNow.eltBanks, if_neg (by omega)]

/-- Where its lines are read before an open pair of its bank is closed, nothing is lost: there is no vector, or no pair. -/
theorem eltBanks_same {op : Nat} {ms : List LineMedia} (hcase : n.eltLines = [] ∨ ¬ ∃ p ∈ (s.dev.arr a).pend, p.1 = n.i.bank) (b : Nat) :
    ((s.dev.spanMedia op n.eltLines ms).macFlush a n.eltBanks).bank a b = (s.dev.macFlush a n.eltBanks).bank a b := by
  by_cases hl : n.eltLines = []
  · rw [hl, Dev.spanMedia_none]
  · have harr : (s.dev.spanMedia op n.eltLines ms).arr a = s.dev.arr a := by
      rw [Dev.arr, Dev.arr, Dev.arrs_spanMedia]
    have hpair : ∀ b ∈ n.eltBanks, ¬ ∃ p ∈ (s.dev.arr a).pend, p.1 = b := by
      rw [ArrNow.eltBanks_of_lines hl]
      intro b hb
      rw [List.mem_singleton.1 hb]
      exact hcase.resolve_left hl
    rw [Dev.macFlush_none (d := s.dev) hpair, Dev.macFlush_none (by rw [harr]; exact hpair), Dev.bank, Dev.bank, harr]

/-- An element of a vector whose lines are sound. -/
theorem eltVector_sound {op i : Nat} {x : Dev} (hgood : ∀ l ∈ n.eltLines, s.dev.lineErr l ≠ 2)
    (hx : x = (s.dev.spanMedia op n.eltLines ([] ++ [])).macFlush a n.eltBanks) :
    Pkg.spanElem n.o n.i.slot 0 i (x.badLines n.eltLines) (s.store, x) = some ((Pkg.spanElem n.o n.i.slot 0 i [] (s.store, s.dev)).getD .nan) := by
  obtain ⟨hkept, hbad⟩ := s.dev.spanMedia_sound op hgood
  rw [List.append_nil] at hx
  obtain ⟨_, _, hto, -⟩ := Dev.arrayTo_macFlush a n.eltBanks (s.dev.spanMedia op n.eltLines [])
  rw [← hx] at hto
  rw [hto.badLines, hbad, (hkept.trans hto.kept).spanElem]
  exact Pkg.spanElem_some ..

theorem arrElt_cells (h : arrRuns a opElt n s) (hpow : ∀ l ∈ n.eltLines, s.dev.linePowered l = true) : ∃ t, exec (.arrElt a near bulk) s = .next t ∧
    t.store = s.store ∧ (t.dev.arr a).slice = some n.past ∧
    (∀ b, b ≠ n.i.bank → (8 ≤ n.i.sub → b ≠ n.i.imm % 4) → t.dev.bank a b = s.dev.bank a b) ∧
    (n.eltLines = [] ∨ ¬ (∃ p ∈ (s.dev.arr a).pend, p.1 = n.i.bank) → ∀ r < 64, ∀ c < 64,
      let e := s.dev.macFlush a (n.i.bank :: (if 8 ≤ n.i.sub then [n.i.imm % 4] else []))
      let sound := near = [] ∧ bulk = [] ∧ ∀ l ∈ n.eltLines, s.dev.lineErr l ≠ 2
      let p := cell (e.bank a n.i.bank) r c
      let q := cell (e.bank a (n.i.imm % 4)) r c
      let v := cell (t.dev.bank a n.i.bank) r c
      let int := progInt n.image
      let vec := fun (i : Nat) => (Pkg.spanElem n.o n.i.slot 0 i [] (s.store, s.dev)).getD .nan
      (n.i.sub = 0 → v = 0) ∧ (n.i.sub = 1 → v = (fp32Add p (fp32.value n.i.imm)).1) ∧
      (n.i.sub = 2 → v = (fp32Mul p (fp32.value n.i.imm)).1) ∧ (n.i.sub = 3 → sound → v = (fp32Add p (vec r)).1) ∧
      (n.i.sub = 4 → sound → v = (fp32Add p (vec c)).1) ∧ (n.i.sub = 5 → sound → v = (fp32Mul p (vec r)).1) ∧
      (n.i.sub = 6 ∨ n.i.sub = 7 → fp32.value p = .nan → v = fp32.nan) ∧
      (n.i.sub = 8 → int = true → (v = p ∨ v = q) ∧ toSigned 32 v = max (toSigned 32 p) (toSigned 32 q)) ∧
      (n.i.sub = 9 → v = if int then (int32Add p (toSigned 32 q)).1 else (fp32Add p (fp32.value q)).1) ∧
      (n.i.sub = 10 → int = true → v = (int32Add p (-(toSigned 32 q))).1) ∧ (n.i.sub = 11 → v = q)) := by
  obtain ⟨t, x, ht, hst, hslice, hother, hx, hcells⟩ := arrElt_makes (near := near) (bulk := bulk) h hpow
  refine ⟨t, ht, hst, hslice, hother, fun hcase r hr c hc => ?_⟩
  intro e sound p q v int vec
  obtain ⟨k, hk⟩ := hcells r hr c hc
  have hsame : ∀ b, x.bank a b = e.bank a b := fun b => by
    rw [hx]
    exact eltBanks_same hcase b
  rw [hsame, hsame] at hk
  obtain ⟨w, hw⟩ : ∃ w, w = fun i => Pkg.spanElem n.o n.i.slot 0 i (x.badLines n.eltLines) (s.store, x) := ⟨_, rfl⟩
  have hv : v = (eltCell n.i.sub int (fp32.value n.i.imm) q (w r) (w c) p k).code := by
    rw [hw]
    exact hk
  have hsound : sound → ∀ i, w i = some (vec i) := by
    rintro ⟨rfl, rfl, hgood⟩ i
    rw [hw]
    exact eltVector_sound hgood hx
  refine ⟨fun hs => ?_, fun hs => ?_, fun hs => ?_, fun hs hso => ?_, fun hs hso => ?_, fun hs hso => ?_, fun hs hnan => ?_, fun hs hint => ?_,
    fun hs => ?_, fun hs hint => ?_, fun hs => ?_⟩
  · rw [hv, hs, eltCell]
  · rw [hv, hs]; rfl
  · rw [hv, hs]; rfl
  · rw [hv, hs, hsound hso]; rfl
  · rw [hv, hs, hsound hso c]; rfl
  · rw [hv, hs, hsound hso]; rfl
  · rcases hs with hs | hs
    · rw [hv, hs, eltCell, expCode, hnan]
    · rw [hv, hs, eltCell, rcpCode, hnan]
  · rw [hv, hs, hint]
    exact maxCode_int p q k
  · rw [hv, hs, eltCell]
    rw [conv2, addCode, apply_ite Prod.fst]
  · rw [hv, hs, hint]; rfl
  · rw [hv, hs]; rfl

end

end Sys2Proof.Machine


/-!
SUPPORT. O41, MAC: the sums of its handshakes reach the accumulators of its bank (R247–R250, R257, R271).
-/
namespace Sys2Proof.Machine

/-! ### A cell -/

/-- What a MAC makes of a cell: `groups` of K positions, each closed with one rounding, and those left open (R248). -/
def macCell (int : Bool) (groups : List (List Nat) × List Nat) (start : MacSum) (pairs : List Nat → List (Option XVal × Option XVal)) (acc ctr : Nat) :
    Conv :=
  let lost := (groups.2 :: groups.1).any (fun g => (pairs g).any (fun p => p.1.isNone || p.2.isNone)) || start.lost
  if lost then freeCode ctr
  else
    let s := groups.1.foldl (fun (q : Conv × MacSum) g =>
      let v := macStep int q.2 q.1.code q.1.ctr (pairs g)
      ({ v with evs := q.1.evs ++ v.evs }, {})) (⟨acc, [], ctr⟩, start)
    s.1

/-- With INT32 accumulators and sound operands each group adds the exact sum of its products. -/
theorem macCell_int {gs : List (List Nat)} {pairs : List Nat → List (Option XVal × Option XVal)} {x y : Nat → XVal}
    (hpairs : ∀ g, pairs g = g.map (fun k => (some (x k), some (y k)))) (acc ctr : Nat) : (macCell true (gs, []) {} pairs acc ctr).code =
      gs.foldl (fun (acc : Nat) g => (int32Add acc ((g.map (fun k => (x k).toInt * (y k).toInt)).sum)).1) acc := by
  have hsome : ∀ g, (pairs g).any (fun p => p.1.isNone || p.2.isNone) = false := fun g => by
    rw [hpairs, List.any_map, List.any_eq_false]
    simp
  have hstep : ∀ (t : MacSum) (acc ctr : Nat) (g : List Nat), (macStep true t acc ctr (pairs g)).code =
      (int32Add acc ((g.map (fun k => (x k).toInt * (y k).toInt)).sum)).1 := fun t acc ctr g => by
    rw [macStep, if_pos rfl, hsome, if_neg Bool.false_ne_true, hpairs, List.map_map]
    rfl
  have hfold : ∀ (gs : List (List Nat)) (q : Conv × MacSum), (gs.foldl (fun (q : Conv × MacSum) g =>
      let v := macStep true q.2 q.1.code q.1.ctr (pairs g)
      (({ v with evs := q.1.evs ++ v.evs } : Conv), ({} : MacSum))) q).1.code =
        gs.foldl (fun (acc : Nat) g => (int32Add acc ((g.map (fun k => (x k).toInt * (y k).toInt)).sum)).1) q.1.code := by
    intro gs
    induction gs with
    | nil => exact fun q => rfl
    | cons g gs ih =>
      intro q
      rw [List.foldl_cons, List.foldl_cons, ih, ← hstep q.2 q.1.code q.1.ctr g]
  have hlost : (([] : List Nat) :: gs).any (fun g => (pairs g).any (fun p => p.1.isNone || p.2.isNone)) = false := by
    rw [List.any_eq_false]
    exact fun g _ => by simp [hsome g]
  unfold macCell
  dsimp only
  rw [hlost, Bool.or_false, if_neg Bool.false_ne_true]
  exact hfold gs _

/-! ### The operands of a tile -/

/-- The value that the feeder of row `r` gives at K position `k`. -/
def ArrNow.aElem (n : ArrNow) (bad : List Nat) (x : Pkg) (r k : Nat) : Option XVal :=
  n.feed (some (.fin false 0 0)) (x.spanElem n.o n.i.slot (n.feedAt true r k).1 (n.feedAt true r k).2 bad) true r k

/-- The value that the feeder of column `c` gives at K position `k`. -/
def ArrNow.bElem (n : ArrNow) (bad : List Nat) (x : Pkg) (k c : Nat) : Option XVal :=
  n.feed (some (.fin false 0 0)) (x.spanElem n.o (n.i.imm % 8) (n.feedAt false c k).1 (n.feedAt false c k).2 bad) false c k

section
variable {n : ArrNow} {tm tn : Nat}

/-- A feeder's value is an element within its slot, or zero. -/
theorem ArrNow.aElem_int (ht : n.tile = some (tm, tn)) (x : Pkg) (r k : Nat) : ∃ v, n.aElem [] x r k = some v ∧
    v.toInt = n.int x n.i.slot n.o.rowsM n.s.k1 (64 * tm + r) k := by
  have hat : n.feedAt true r k = (64 * tm + r, k) := by rw [ArrNow.feedAt, ht]; rfl
  unfold ArrNow.aElem ArrNow.feed ArrNow.int
  rw [hat, ht]
  dsimp only
  by_cases hin : 64 * tm + r < n.o.rowsM ∧ k < n.s.k1
  · rw [if_pos (by simpa using hin), if_pos hin]
    exact ⟨_, Pkg.spanElem_some .., rfl⟩
  · rw [if_neg (by simpa using hin), if_neg hin]
    exact ⟨_, rfl, rfl⟩

theorem ArrNow.bElem_int (ht : n.tile = some (tm, tn)) (x : Pkg) (k c : Nat) : ∃ v, n.bElem [] x k c = some v ∧
    v.toInt = n.int x (n.i.imm % 8) n.s.k1 n.o.colsN k (64 * tn + c) := by
  have hat : n.feedAt false c k = (k, 64 * tn + c) := by rw [ArrNow.feedAt, ht]; rfl
  unfold ArrNow.bElem ArrNow.feed ArrNow.int
  rw [hat, ht]
  dsimp only
  by_cases hin : k < n.s.k1 ∧ 64 * tn + c < n.o.colsN
  · rw [if_pos (by simpa using hin.symm), if_pos hin]
    exact ⟨_, Pkg.spanElem_some .., rfl⟩
  · rw [if_neg (by simpa [and_comm] using hin), if_neg hin]
    exact ⟨_, rfl, rfl⟩

end

/-! ### The instruction -/

/-- A MAC goes on with the pair of blocks that it finds open for its bank (R248). -/
def ArrNow.goesOn (n : ArrNow) (a : Nat) (d : Dev) : Bool :=
  (fmtWord (progA n.image)).mx && (fmtWord (progB n.image)).mx && n.s.kpos % 32 != 0 && n.i.sub % 2 == 0 &&
    (d.openPair a n.i.bank).any (fun p => p.1 == n.s.kpos / 32)

/-- The sums that a MAC starts from. -/
def ArrNow.macStart (n : ArrNow) (a : Nat) (d : Dev) (r c : Nat) : MacSum :=
  if n.goesOn a d then nth (((d.openPair a n.i.bank).map (·.2)).getD []) (64 * r + c) {} else {}

/-- The groups of K positions of a MAC. -/
def ArrNow.groups (n : ArrNow) : List (List Nat) × List Nat :=
  macGroups n.s.kpos n.i.count n.per ((fmtWord (progA n.image)).mx && (fmtWord (progB n.image)).mx)

/-- The cells that a MAC makes, its bank being `old` and its operands read from `x`. -/
def ArrNow.macCells (n : ArrNow) (a : Nat) (old : List Nat) (x : Pkg) (r c ctr : Nat) : Conv :=
  macCell (progInt n.image) n.groups (n.macStart a x.2 r c)
    (fun g => g.map (fun k => (n.aElem (x.2.badLines n.macLines) x r k, n.bElem (x.2.badLines n.macLines) x k c)))
    (if n.i.sub % 2 = 1 then 0 else cell old r c) ctr

/-- The rest of its array that a MAC changes: the slice's K position, the pair of blocks that it leaves open, the latches (R248, R257, R271). -/
def ArrNow.macRest (n : ArrNow) (a free : Nat) (x : Pkg) (r : Arr) : Arr :=
  let bad := x.2.badLines n.macLines
  let pairs := fun (r c : Nat) (g : List Nat) => g.map (fun k => (n.aElem bad x r k, n.bElem bad x k c))
  let open_ := fun (i : Nat) => (pairs (i / 64) (i % 64) n.groups.2).foldl MacSum.add
    (if n.groups.1.isEmpty then n.macStart a x.2 (i / 64) (i % 64) else {})
  let last := n.s.kpos + (n.i.count - 1) * n.per
  let word := fun (isA : Bool) (i : Nat) => x.latchWord n isA bad free last (if isA then i / 64 else i % 64)
  let cells := fun (f : Nat → Nat) => (List.range 4096).map f
  { r with
    slice := r.slice.map (fun s => { s with kpos := s.kpos + n.i.count * n.per })
    pend := if n.goesOn a x.2 ∧ n.i.count = 0 then r.pend else r.pend.filter (fun p => p.1 != n.i.bank) ++
      (if n.groups.2.isEmpty then [] else [(n.i.bank, (n.s.kpos + n.i.count * n.per) / 32, (List.range 4096).map open_)])
    latchA := if n.i.count = 0 then r.latchA else cells (word true)
    latchB := if n.i.count = 0 then r.latchB else cells (word false) }

theorem Pkg.arrMac_eq {m : Store} {d x y : Dev} {a : Nat} {n : ArrNow} {near bulk : List LineMedia} (hnow : d.arrNow a opMac = some n)
    (hpow : ∀ l ∈ n.macLines, d.linePowered l = true)
    (hx : Dev.spanMedia n.s.op n.macLines (near ++ bulk) { d with freeCtr := d.freeCtr + 1024 } = x)
    (hy : (if n.goesOn a x then x else x.macFlush a [n.i.bank]) = y) :
    Pkg.arrMac a near bulk (m, d) = (m, ((y.setBank a n.i.bank (n.macCells a (y.bank a n.i.bank) (m, x))).setArr a (n.macRest a d.freeCtr (m, x))).arrNext
      a (n.s.pc + 1) [] n.i.handshakes) := by
  have hno : n.macLines.any (fun l => !d.linePowered l) = false := by
    rw [List.any_eq_false]
    exact fun l hl => by simp [hpow l hl]
  unfold Pkg.arrMac
  rw [hnow]
  dsimp only [Pkg.dev]
  rw [hno, if_neg Bool.false_ne_true, hx]
  have hgo : ((fmtWord (progA n.image)).mx && (fmtWord (progB n.image)).mx && n.s.kpos % 32 != 0 && n.i.sub % 2 == 0 &&
    (x.openPair a n.i.bank).any (fun p => p.1 == n.s.kpos / 32)) = n.goesOn a x := rfl
  rw [hgo, hy]
  rfl

end Sys2Proof.Machine


/-!
SUPPORT. O41, MAC: what it leaves, and its INT32 sums (R249, R250).
-/
namespace Sys2Proof.Machine

section
variable {a : Fin 16} {n : ArrNow} {s : State} {near bulk : List LineMedia}

/-- The package as a MAC has read its lines. -/
def ArrNow.macRead (n : ArrNow) (near bulk : List LineMedia) (d : Dev) : Dev :=
  Dev.spanMedia n.s.op n.macLines (near ++ bulk) { d with freeCtr := d.freeCtr + 1024 }

theorem ArrNow.arr_macRead (n : ArrNow) (near bulk : List LineMedia) (d : Dev) : (n.macRead near bulk d).fry.arrs = d.fry.arrs :=
  Dev.arrs_spanMedia ..

theorem arrMac_makes (h : arrRuns a opMac n s) (hpow : ∀ l ∈ n.macLines, s.dev.linePowered l = true) : ∃ t old, exec (.arrMac a near bulk) s = .next t ∧
    t.store = s.store ∧ (t.dev.arr a).slice = some { n.past with kpos := n.s.kpos + n.i.count * n.per } ∧
    (∀ b, b ≠ n.i.bank → t.dev.bank a b = s.dev.bank a b) ∧
    ((¬ ∃ p ∈ (s.dev.arr a).pend, p.1 = n.i.bank) → old = s.dev.bank a n.i.bank) ∧
    ∀ r < 64, ∀ c < 64, ∃ k, cell (t.dev.bank a n.i.bank) r c = (n.macCells a old (s.store, n.macRead near bulk s.dev) r c k).code := by
  obtain ⟨hrun, hdom, hsh, hnow⟩ := h
  have hins := Dev.atIns_of hnow
  have hread := n.arr_macRead near bulk s.dev
  obtain ⟨x, hx⟩ : ∃ x, x = n.macRead near bulk s.dev := ⟨_, rfl⟩
  rw [← hx] at hread ⊢
  have ha : a.val < x.fry.arrs.length := by
    rw [hread]
    exact arr_lt hsh a
  have harr : x.arr a = s.dev.arr a := by rw [Dev.arr, Dev.arr, hread]
  have hbank : ∀ b, x.bank a b = s.dev.bank a b := fun b => by rw [Dev.bank, Dev.bank, harr]
  have hlen : (x.arr a).banks.length = 4 := by rw [harr]; exact length_banks hsh a
  obtain ⟨y, hy⟩ : ∃ y, (if n.goesOn a x then x else x.macFlush a [n.i.bank]) = y := ⟨_, rfl⟩
  have hgo := Pkg.arrMac_eq (m := s.store) (near := near) (bulk := bulk) hnow hpow hx.symm hy
  obtain ⟨r₁, hto, hslice, hlen₁, hother⟩ : ∃ r₁, x.ArrayTo a r₁ y ∧ r₁.slice = (x.arr a).slice ∧ r₁.banks.length = 4 ∧
      ∀ k, k ≠ n.i.bank → nth r₁.banks k [] = x.bank a k := by
    rw [← hy]
    split
    · exact ⟨_, x.arrayTo_self a, rfl, hlen, fun _ _ => rfl⟩
    · obtain ⟨r₁, hto, -, hslice, -, hlen₁, hother⟩ := x.flushed [n.i.bank] ha hlen
      exact ⟨r₁, hto, hslice, hlen₁, fun k hk => hother k (by simpa using hk)⟩
  generalize hf : n.macCells a (y.bank a n.i.bank) (s.store, x) = f at hgo
  have hto' := ((hto.setBank n.i.bank f).setArr (n.macRest a s.dev.freeCtr (s.store, x))).arrNext (n.s.pc + 1) [] n.i.handshakes
  have hb := hto'.bank ha
  have hmade := nth_modAt_made (bs := r₁.banks) (b := n.i.bank) (l := (cellsGo f 4096 0 y.freeCtr).1) (by rw [hlen₁]; exact hins.bank_lt)
  refine ⟨_, y.bank a n.i.bank, onPkg_leaves hrun hdom hgo, rfl, (congrArg Arr.slice (hto'.arr ha)).trans ?_, fun b hne => (hb b).trans ?_, fun hpair => ?_,
    fun r hr c hc => ?_⟩
  · have hs : r₁.slice = some n.s := hslice.trans ((congrArg Arr.slice harr).trans hins.slice)
    rw [ArrNow.macRest]
    dsimp only
    rw [hs]
    rfl
  · exact (nth_modAt_other hne).trans ((hother b hne).trans (hbank b))
  · have hsame : y = x := by
      rw [← hy]
      split
      · rfl
      · refine Dev.macFlush_none fun b hb => ?_
        rw [List.mem_singleton.1 hb, harr]
        exact hpair
    rw [hsame, hbank]
  · obtain ⟨k, hk⟩ := cell_cellsGo f y.freeCtr hr hc
    exact ⟨k, (congrArg (cell · r c) (hb n.i.bank)).trans ((congrArg (cell · r c) hmade).trans (by rw [hk, hf]))⟩

/-- With no MX on the B side no pair of blocks is left open, and each handshake is a group. -/
theorem ArrNow.groups_plain (hmx : (fmtWord (progB n.image)).mx = false) : n.groups =
    ((List.range n.i.count).map (fun h => List.range' (n.s.kpos + h * n.per) n.per), []) := by
  rw [ArrNow.groups, hmx, Bool.and_false, macGroups]
  rfl

theorem ArrNow.goesOn_plain (hmx : (fmtWord (progB n.image)).mx = false) (d : Dev) : n.goesOn a d = false := by
  rw [ArrNow.goesOn, hmx]
  simp

theorem ArrNow.macCells_int {old : List Nat} {x : Pkg} {m : Pkg} (hint : progInt n.image = true) (hmx : (fmtWord (progB n.image)).mx = false)
    {tm tn : Nat} (ht : n.tile = some (tm, tn)) (hbad : x.2.badLines n.macLines = [])
    (hsame : ∀ k row j, x.spanElem n.o k row j [] = m.spanElem n.o k row j []) (r c k : Nat) : (n.macCells a old x r c k).code =
      (List.range n.i.count).foldl (fun (acc : Nat) (h : Nat) => (int32Add acc ((List.range' (n.s.kpos + h * n.per) n.per).map (fun k =>
        n.int m n.i.slot n.o.rowsM n.s.k1 (64 * tm + r) k * n.int m (n.i.imm % 8) n.s.k1 n.o.colsN k (64 * tn + c))).sum).1)
        (if n.i.sub % 2 = 1 then 0 else cell old r c) := by
  have hm : ∀ (slot rows cols i j : Nat), n.int x slot rows cols i j = n.int m slot rows cols i j := fun slot rows cols i j => by
    rw [ArrNow.int, ArrNow.int, hsame]
  obtain ⟨u, hu⟩ : ∃ u : Nat → XVal, ∀ k, n.aElem [] x r k = some (u k) ∧ (u k).toInt = n.int m n.i.slot n.o.rowsM n.s.k1 (64 * tm + r) k :=
    ⟨fun k => (n.aElem_int ht x r k).choose, fun k => ⟨(n.aElem_int ht x r k).choose_spec.1, (n.aElem_int ht x r k).choose_spec.2.trans (hm ..)⟩⟩
  obtain ⟨v, hv⟩ : ∃ v : Nat → XVal, ∀ k, n.bElem [] x k c = some (v k) ∧ (v k).toInt = n.int m (n.i.imm % 8) n.s.k1 n.o.colsN k (64 * tn + c) :=
    ⟨fun k => (n.bElem_int ht x k c).choose, fun k => ⟨(n.bElem_int ht x k c).choose_spec.1, (n.bElem_int ht x k c).choose_spec.2.trans (hm ..)⟩⟩
  have hstart : n.macStart a x.2 r c = {} := by rw [ArrNow.macStart, ArrNow.goesOn_plain hmx, if_neg Bool.false_ne_true]
  rw [ArrNow.macCells, hbad, hstart, ArrNow.groups_plain hmx, hint, macCell_int (x := u) (y := v)
    fun g => List.map_congr_left fun k _ => by rw [(hu k).1, (hv k).1], List.foldl_map]
  refine List.foldl_ext _ _ _ fun acc h _ => ?_
  rw [List.map_congr_left fun k _ => by rw [(hu k).2, (hv k).2]]

theorem ArrNow.macRead_sound (n : ArrNow) {d : Dev} (hgood : ∀ l ∈ n.macLines, d.lineErr l ≠ 2) : d.Kept (n.macRead [] [] d) ∧
    (n.macRead [] [] d).badLines n.macLines = [] := by
  have hdraws := (d.aside_freeCtr (d.freeCtr + 1024)).toSilent.toKept
  obtain ⟨e, he⟩ : ∃ e : Dev, e = { d with freeCtr := d.freeCtr + 1024 } := ⟨_, rfl⟩
  have hgood' : ∀ l ∈ n.macLines, e.lineErr l ≠ 2 := fun l hl => by
    rw [he]
    exact hgood l hl
  rw [ArrNow.macRead, List.append_nil, ← he]
  rw [← he] at hdraws
  obtain ⟨hkept, hbad⟩ := Dev.spanMedia_sound n.s.op hgood'
  exact ⟨hdraws.trans hkept, hbad⟩

theorem arrMac_sums (h : arrRuns a opMac n s) (hpow : ∀ l ∈ n.macLines, s.dev.linePowered l = true) : ∃ t, exec (.arrMac a near bulk) s = .next t ∧
    t.store = s.store ∧ (t.dev.arr a).slice = some { n.past with kpos := n.s.kpos + n.i.count * n.per } ∧
    (∀ b, b ≠ n.i.bank → t.dev.bank a b = s.dev.bank a b) ∧
    (near = [] → bulk = [] → (∀ l ∈ n.macLines, s.dev.lineErr l ≠ 2) → ¬ (∃ p ∈ (s.dev.arr a).pend, p.1 = n.i.bank) → progInt n.image = true →
      (fmtWord (progB n.image)).mx = false → ∀ tm tn, n.tile = some (tm, tn) → ∀ r < 64, ∀ c < 64,
        cell (t.dev.bank a n.i.bank) r c = (List.range n.i.count).foldl (fun (acc : Nat) (h : Nat) => (int32Add acc
            ((List.range' (n.s.kpos + h * n.per) n.per).map (fun k =>
              n.int (s.store, s.dev) n.i.slot n.o.rowsM n.s.k1 (64 * tm + r) k *
              n.int (s.store, s.dev) (n.i.imm % 8) n.s.k1 n.o.colsN k (64 * tn + c))).sum).1)
          (if n.i.sub % 2 = 1 then 0 else cell (s.dev.bank a n.i.bank) r c)) := by
  obtain ⟨t, old, ht, hst, hslice, hother, hold, hcells⟩ := arrMac_makes (near := near) (bulk := bulk) h hpow
  refine ⟨t, ht, hst, hslice, hother, ?_⟩
  rintro rfl rfl hgood hpair hint hmx tm tn htile r hr c hc
  obtain ⟨k, hk⟩ := hcells r hr c hc
  obtain ⟨hkept, hbad⟩ := n.macRead_sound hgood
  rw [hold hpair] at hk
  rw [hk, ArrNow.macCells_int (x := (s.store, n.macRead [] [] s.dev)) (m := (s.store, s.dev)) hint hmx htile hbad
    (fun _ _ _ => hkept.spanElem ..) r c k]

end

end Sys2Proof.Machine


/-!
SUPPORT. O41, DRAIN: the writes of a tile (R265, R269, R271).
-/
namespace Sys2Proof.Machine

/-! ### A transfer -/

section
variable {d e : Dev} {o : FOp}

/-- A transfer that is begun is the last of those in hand. -/
theorem Dev.xferGo_begins (o : FOp) (eng : Nat) (key : XKey) (kind : AKind) (mfmt cfmt : Nat) (parts : List XPart) (d : Dev) : ∃ x : Xfer,
    (d.xferGo o eng key kind mfmt cfmt parts).fry = { d.fry with xfers := d.fry.xfers ++ [x] } ∧ x.op = o.id ∧ x.key = key ∧ x.kind = kind ∧
    (x.parts.head?).map (·.gpa) = (parts.head?).map (·.gpa) := by
  rw [Dev.xferGo]
  cases o.landing with
  | none => exact ⟨_, rfl, rfl, rfl, rfl, by rw [List.head?_map, Option.map_map]; rfl⟩
  | some l =>
    obtain ⟨_, _, _, h⟩ := Dev.Sends.foldl (fun d (p : XPart × Nat) => d.sends_newId.trans (Dev.sends_issueAcc _ _)) parts.zipIdx
      { d.newId.2 with fry := { d.newId.2.fry with xfers := d.newId.2.fry.xfers ++ [⟨d.newId.1, o.id, eng, key, kind, parts⟩] } }
    exact ⟨⟨d.newId.1, o.id, eng, key, kind, parts⟩, congrArg Dev.fry h, rfl, rfl, rfl, rfl⟩

/-! ### Rows that are written -/

/-- The write of a row that holds a byte or more starts at its address (R265). -/
theorem FOp.rowWrite_head (o : FOp) (side a : Nat) {v : List Byte} (hv : v ≠ []) : ((o.rowWrite side false a v).head?).map (·.gpa) = some (a % 2 ^ 52) := by
  have hlen : 0 < v.length := List.length_pos_iff.2 hv
  have hk : 0 < min v.length (2 ^ 21 - a % 2 ^ 21) := lt_min hlen (by have := Nat.mod_lt a (show 0 < 2 ^ 21 by decide); omega)
  have hne : (v.take (min v.length (2 ^ 21 - a % 2 ^ 21))).isEmpty = false := by
    rw [List.isEmpty_eq_false_iff, ← List.length_pos_iff, List.length_take]
    omega
  unfold FOp.rowWrite
  dsimp only
  rw [List.filterMap_cons, hne]
  rfl

/-- INT32 codes, each in four bytes. -/
theorem encodeRow_index {codes : List Nat} (hcodes : codes ≠ []) (ctr : Nat) : (encodeRow 8 (fmtWord 8) codes ctr).1 ≠ [] := by
  have hfold : ∀ (l : List Nat) (q : List Nat × List Ev × Nat), (l.foldl (fun (q : List Nat × List Ev × Nat) v =>
      let c := convertElem ⟨8, false, false, false⟩ (fmtWord 8) q.2.2 v
      (q.1 ++ [c.code], q.2.1 ++ c.evs, c.ctr)) q).1.length = q.1.length + l.length := by
    intro l
    induction l with
    | nil => exact fun q => rfl
    | cons v l ih =>
      intro q
      rw [List.foldl_cons, ih]
      simp only [List.length_append, List.length_cons, List.length_nil]
      omega
  have hmx : ¬ (fmtWord 8).mx = true := by decide
  have hbits : fmtBits (fmtWord 8).fmt = 32 := by decide
  rw [encodeRow, if_neg hmx]
  dsimp only
  rw [packRow, hbits]
  dsimp only
  rw [← List.length_pos_iff, natLE_length, hfold, List.length_nil, Nat.zero_add]
  have hpos := List.length_pos_iff.2 hcodes
  unfold ceilDiv
  omega

end

/-! ### DRAIN -/

/-- A row of a DRAIN of tile `t`, as its writes, and the draws after it. -/
def ArrNow.drainRow (n : ArrNow) (vals : List Nat) (t : Nat × Nat) (r ctr : Nat) : List XPart × List Ev × Nat :=
  let sl := n.o.slot n.i.slot
  let f := fmtWord (drainFmt n.i sl)
  let side := useSide (n.i.slot, if n.i.sub = 1 then 4 else 3)
  let cols := min (min n.i.count 64) (n.o.colsN - 64 * t.2)
  let e := encodeRow (if n.i.sub = 2 ∨ progInt n.image then 8 else 0) f ((List.range cols).map (fun c => cell vals r c)) ctr
  let m := 64 * t.1 + r
  (n.o.rowWrite side sl.lva (sl.addr + m * sl.stride + 64 * t.2 * fmtBits f.fmt / 8) e.1
    ++ n.o.rowWrite side sl.lva (sl.scale + m * sl.sstride + 2 * t.2) e.2.1, e.2.2.1, e.2.2.2)

/-- The writes of a DRAIN, from the cells `vals` and the draws `ctr`. -/
def ArrNow.drained (n : ArrNow) (vals : List Nat) (ctr : Nat) : List XPart × List Ev × Nat :=
  let t := n.tile.getD (0, 0)
  (List.range (if n.tile.isNone then 0 else min 64 (n.o.rowsM - 64 * t.1))).foldl (fun (q : List XPart × List Ev × Nat) r =>
    let v := n.drainRow vals t r q.2.2
    (q.1 ++ v.1, q.2.1 ++ v.2.1, v.2.2)) ([], [], ctr)

/-- The array once its slice has moved to its next tile. -/
def Arr.nextTile (r : Arr) : Arr := { r with slice := r.slice.map (fun s => { s with tiles := s.tiles.drop 1, kpos := s.k0 }) }

theorem Dev.arrDrain_eq {d x : Dev} {a : Nat} {n : ArrNow} (hnow : d.arrNow a opDrain = some n) (hx : d.macFlushAll a = x)
    {q : List XPart × List Ev × Nat} (hq : q = n.drained (if n.i.sub = 2 then (x.arr a).index else x.bank a n.i.bank) x.freeCtr) {y : Dev}
    (hy : y = (({ x with freeCtr := q.2.2 } : Dev).arrEvs a q.2.1).setArr a Arr.nextTile) :
    d.arrDrain a = (if q.1.isEmpty then y else y.xferGo n.o (0x28 + a) (.drain a) (if n.i.sub = 1 then .reduce else .write)
      (drainFmt n.i (n.o.slot n.i.slot)) (drainFmt n.i (n.o.slot n.i.slot)) q.1).arrNext a (n.s.pc + 1) [] n.i.handshakes := by
  subst hy
  subst hq
  subst hx
  rw [Dev.arrDrain, hnow]
  rfl

theorem ArrNow.drained_none {n : ArrNow} (ht : n.s.tiles = []) (vals : List Nat) (ctr : Nat) : (n.drained vals ctr).1 = [] := by
  have htile : n.tile = none := by rw [ArrNow.tile, ht]; rfl
  rw [ArrNow.drained, htile]
  rfl

/-- The first write of a tile of index registers. -/
theorem ArrNow.drained_head {n : ArrNow} {tm tn : Nat} (ht : n.tile = some (tm, tn)) (hrow : 64 * tm < n.o.rowsM) (hcol : 64 * tn < n.o.colsN)
    (hcount : 1 ≤ n.i.count) (hsub : n.i.sub = 2) (hlva : (n.o.slot n.i.slot).lva = false) (vals : List Nat) (ctr : Nat) :
    (((n.drained vals ctr).1.head?).map (·.gpa)) = some (((n.o.slot n.i.slot).addr + 64 * tm * (n.o.slot n.i.slot).stride + 256 * tn) % 2 ^ 52) := by
  have hrow0 : ((n.drainRow vals (tm, tn) 0 ctr).1.head?).map (·.gpa) =
      some (((n.o.slot n.i.slot).addr + 64 * tm * (n.o.slot n.i.slot).stride + 256 * tn) % 2 ^ 52) := by
    have hfmt : drainFmt n.i (n.o.slot n.i.slot) = 8 := by rw [drainFmt, if_pos hsub]
    have hbits : fmtBits (fmtWord 8).fmt = 32 := by decide
    have hv := encodeRow_index (codes := (List.range (min (min n.i.count 64) (n.o.colsN - 64 * tn))).map (fun c => cell vals 0 c))
      (by rw [Ne, List.map_eq_nil_iff, List.range_eq_nil]; omega) ctr
    have hhead := n.o.rowWrite_head (useSide (n.i.slot, if n.i.sub = 1 then 4 else 3))
      ((n.o.slot n.i.slot).addr + (64 * tm + 0) * (n.o.slot n.i.slot).stride + 64 * tn * 32 / 8) hv
    rw [ArrNow.drainRow]
    dsimp only
    rw [hfmt, hbits, hlva, show (if n.i.sub = 2 ∨ progInt n.image = true then 8 else 0) = 8 from if_pos (.inl hsub), List.head?_append]
    obtain ⟨p, hp, hgpa⟩ := Option.map_eq_some_iff.1 hhead
    rw [hp, Option.some_or, Option.map_some, hgpa, Nat.add_zero]
    congr 3
    omega
  have hkeep : ∀ (l : List Nat) (q : List XPart × List Ev × Nat) (p : XPart), q.1.head? = some p → (l.foldl (fun (q : List XPart × List Ev × Nat) r =>
      let v := n.drainRow vals (tm, tn) r q.2.2
      (q.1 ++ v.1, q.2.1 ++ v.2.1, v.2.2)) q).1.head? = some p := by
    intro l
    induction l with
    | nil => exact fun q p hp => hp
    | cons r l ih =>
      intro q p hp
      rw [List.foldl_cons]
      exact ih _ p (by rw [List.head?_append, hp, Option.some_or])
  obtain ⟨p, hp, hgpa⟩ := Option.map_eq_some_iff.1 hrow0
  obtain ⟨k, hk⟩ := Nat.exists_eq_succ_of_ne_zero (show min 64 (n.o.rowsM - 64 * tm) ≠ 0 by omega)
  rw [ArrNow.drained, ht, Option.isNone_some, if_neg Bool.false_ne_true, Option.getD_some, hk, Nat.succ_eq_add_one, List.range_succ_eq_map, List.foldl_cons]
  exact (congrArg _ (hkeep _ _ p hp)).trans (congrArg some hgpa)

section
variable {a : Fin 16} {n : ArrNow} {s : State}

theorem arrDrain_writes (h : arrRuns a opDrain n s) : ∃ e, (e.arr a).slice = some { n.past with tiles := n.s.tiles.drop 1, kpos := n.s.k0 } ∧
    (e.arr a).banks = ((s.dev.macFlushAll a).arr a).banks ∧ (n.s.tiles = [] → e.fry.xfers = s.dev.fry.xfers) ∧
    (∀ tm tn, n.tile = some (tm, tn) → 64 * tm < n.o.rowsM → 64 * tn < n.o.colsN → 1 ≤ n.i.count → n.i.sub = 2 →
      (n.o.slot n.i.slot).lva = false → ∃ x ∈ e.fry.xfers, x.op = n.s.op ∧ x.key = .drain a ∧ x.kind = .write ∧
        ((x.parts.head?).map (·.gpa)) = some (((n.o.slot n.i.slot).addr + 64 * tm * (n.o.slot n.i.slot).stride + 256 * tn) % 2 ^ 52)) ∧
    exec (.arrDrain a) s = .next (withPkg s (Pkg.settle (s.store, e))) := by
  obtain ⟨hrun, hdom, hsh, hnow⟩ := h
  have hins := Dev.atIns_of hnow
  have ha := arr_lt hsh a
  obtain ⟨r₁, hto, harr, hslice, -⟩ := s.dev.flushed [0, 1, 2, 3] ha (length_banks hsh a)
  rw [← Dev.macFlushAll] at hto harr
  generalize hx : s.dev.macFlushAll a = x at hto harr
  obtain ⟨q, hq⟩ : ∃ q, q = n.drained (if n.i.sub = 2 then (x.arr a).index else x.bank a n.i.bank) x.freeCtr := ⟨_, rfl⟩
  obtain ⟨y, hy⟩ : ∃ y, y = (({ x with freeCtr := q.2.2 } : Dev).arrEvs a q.2.1).setArr a Arr.nextTile := ⟨_, rfl⟩
  have hgo := Dev.arrDrain_eq hnow hx hq hy
  have hto' := ((hto.draws q.2.2).arrEvs q.2.1).setArr Arr.nextTile
  rw [← hy] at hto'
  obtain ⟨z, hz⟩ : ∃ z, z = if q.1.isEmpty then y else y.xferGo n.o (0x28 + a) (.drain a) (if n.i.sub = 1 then .reduce else .write)
      (drainFmt n.i (n.o.slot n.i.slot)) (drainFmt n.i (n.o.slot n.i.slot)) q.1 := ⟨_, rfl⟩
  rw [← hz] at hgo
  have hnext := (z.arrayTo_self a).arrNext (n.s.pc + 1) [] n.i.handshakes
  rw [← hgo] at hnext
  obtain ⟨-, -, hxfers, -⟩ := hnext.keeps
  obtain ⟨-, -, hxfersy, -⟩ := hto'.keeps
  have hzarrs : z.fry.arrs = y.fry.arrs := by
    rw [hz]
    split
    · rfl
    · obtain ⟨w, hw, -⟩ := Dev.xferGo_begins n.o (0x28 + a) (.drain a) (if n.i.sub = 1 then .reduce else .write)
        (drainFmt n.i (n.o.slot n.i.slot)) (drainFmt n.i (n.o.slot n.i.slot)) q.1 y
      rw [hw]
  have hzarr : z.arr a = r₁.nextTile := by
    rw [Dev.arr, hzarrs]
    exact hto'.arr ha
  have hlen : a.val < z.fry.arrs.length := by
    have hyarrs : y.fry.arrs.length = s.dev.fry.arrs.length := by
      obtain ⟨_, _, rfl⟩ := hto'
      exact length_modAt ..
    rw [hzarrs, hyarrs]
    exact ha
  have hend := hnext.arr hlen
  refine ⟨s.dev.arrDrain a, (congrArg Arr.slice hend).trans ?_, (congrArg Arr.banks hend).trans ?_, fun ht => hxfers.trans ?_,
    fun tm tn ht hrow hcol hcount hsub hlva => ?_, onPkg_running hrun hdom _⟩
  · rw [hzarr, Arr.nextTile, hslice, hins.slice]
    rfl
  · rw [harr]
    exact (congrArg Arr.banks hzarr :)
  · have hnone : q.1 = [] := by rw [hq, ArrNow.drained_none ht]
    rw [hz, hnone]
    exact hxfersy
  · have hhead := ArrNow.drained_head ht hrow hcol hcount hsub hlva (if n.i.sub = 2 then (x.arr a).index else x.bank a n.i.bank) x.freeCtr
    rw [← hq] at hhead
    have hne : q.1.isEmpty = false := by
      cases hl : q.1 with
      | nil => rw [hl] at hhead; cases hhead
      | cons => rfl
    rw [hne, if_neg Bool.false_ne_true] at hz
    obtain ⟨w, hw, hop, hkey, hkind, hparts⟩ := Dev.xferGo_begins n.o (0x28 + a) (.drain a) (if n.i.sub = 1 then .reduce else .write)
      (drainFmt n.i (n.o.slot n.i.slot)) (drainFmt n.i (n.o.slot n.i.slot)) q.1 y
    rw [← hz] at hw
    refine ⟨w, ?_, hop.trans (Dev.id_of_fop hins.fop), hkey, hkind.trans (if_neg (by omega)), hparts.trans hhead⟩
    rw [hxfers, hw]
    exact List.mem_append_right _ List.mem_cons_self

end

end Sys2Proof.Machine


/-!
SUPPORT. O41, SLICE_ISSUE (R274, R277, R278).
-/
namespace Sys2Proof.Machine

/-! ### Jobs that are ready -/

section
variable {d e : Dev}

theorem Dev.jobReady_congr {k : Nat} (hfop : e.fop k = d.fop k) (hjob : e.job k = d.job k) (hload : e.jobLoaded k = d.jobLoaded k) :
    e.jobReady k = d.jobReady k := by
  unfold Dev.jobReady
  rw [hfop, hjob, hload]

/-- A job whose translations have their outcome is not ready once more. -/
theorem Dev.jobReady_xlated {k : Nat} {j : Job} (hjob : d.job k = some j) (hx : j.xlated = true) : d.jobReady k = false := by
  unfold Dev.jobReady
  rw [hjob]
  cases d.fop k with
  | none => rfl
  | some o => simp [hx]

theorem Dev.jobReady_unloaded {k : Nat} (h : d.jobLoaded k = []) : d.jobReady k = false := by
  unfold Dev.jobReady
  rw [h]
  cases d.fop k with
  | none => rfl
  | some o => cases d.job k with
    | none => rfl
    | some j => simp

/-- An array's slice is a loaded one of operation `k`. -/
def Arr.loadedFor (k : Nat) (r : Arr) : Bool := match r.slice with | some s => s.op == k && !s.loading && !s.started | none => false

theorem Dev.jobLoaded_congr {k : Nat} (h : ∀ a < 16, (e.arr a).loadedFor k = (d.arr a).loadedFor k) : e.jobLoaded k = d.jobLoaded k := by
  have hof : ∀ d : Dev, d.jobLoaded k = (List.range 16).filter (fun a => (d.arr a).loadedFor k) := fun _ => rfl
  rw [hof, hof]
  exact List.filter_congr fun a ha => h a (List.mem_range.1 ha)

/-- Nothing waits in a package that differs in jobs and arrays alone and in which no job is ready. -/
theorem quiet_of_jobs (hq : quiet d) (hlnd : e.lnd = d.lnd) (hhost : e.host = d.host) (hsrc : e.src = d.src) (hxfers : e.fry.xfers = d.fry.xfers)
    (hdisp : e.fry.disp = d.fry.disp) (hjobs : ∀ j ∈ e.fry.jobs, e.jobReady j.op = false) : quiet e := by
  obtain ⟨hx, hport, hgate, hh, hnone, -, hd⟩ := hq
  have hof : ∀ n, e.lndOf n = d.lndOf n := fun n => by rw [Dev.lndOf, Dev.lndOf, hlnd]
  have hpq : ∀ p, e.portQ p = d.portQ p := fun p => by rw [Dev.portQ, Dev.portQ, hof, hhost]
  exact ⟨hxfers.trans hx, fun p hp => (hpq p).trans (hport p hp), fun n hn => by rw [hof]; exact hgate n hn, by rw [hhost]; exact hh,
    by rw [hsrc]; exact hnone, hjobs, by rw [hdisp]; exact hd⟩

/-- The operations of the jobs stay. -/
theorem Dev.mem_setJob {op : Nat} {f : Job → Job} (hf : ∀ j, (f j).op = j.op) {j : Job} (hj : j ∈ (d.setJob op f).fry.jobs) :
    ∃ k ∈ d.fry.jobs, k.op = j.op := by
  have hmap : ∀ l : List Job, (mapFirst (fun j => j.op == op) f l).map (·.op) = l.map (·.op) := by
    intro l
    induction l with
    | nil => rfl
    | cons x l ih =>
      rw [mapFirst]
      split
      · rw [List.map_cons, List.map_cons, hf]
      · rw [List.map_cons, List.map_cons, ih]
  have hmem : j.op ∈ d.fry.jobs.map (·.op) := by
    rw [← hmap d.fry.jobs]
    exact List.mem_map_of_mem hj
  exact List.mem_map.1 hmem

theorem Dev.job_setJob_ne {op k : Nat} {f : Job → Job} (hf : ∀ j, (f j).op = j.op) (hk : k ≠ op) : (d.setJob op f).job k = d.job k :=
  List.find?_mapFirst_ne (fun j hj => by
    have hop : j.op = op := beq_iff_eq.1 hj
    exact ⟨by rw [hop]; exact beq_false_of_ne hk.symm, by rw [hf, hop]; exact beq_false_of_ne hk.symm⟩) d.fry.jobs

end

theorem Dev.ArrayTo.arr_ne {d e : Dev} {a : Nat} {r : Arr} (h : d.ArrayTo a r e) {k : Nat} (hk : k ≠ a) : d.arr k = e.arr k := by
  obtain ⟨_, _, rfl⟩ := h
  rw [Dev.arr, Dev.arr, nth_modAt, if_neg fun hak => hk hak.1.symm]

/-! ### A slice goes to an array -/

/-- The accesses of a byte run start at its address. -/
theorem FOp.parts_head (o : FOp) (side a : Nat) {len : Nat} (hlen : 0 < len) : ((o.parts side false a len).head?).map (·.gpa) = some (a % 2 ^ 52) := by
  have hmax : max a ((a / 256 + 0) * 256) = a := by omega
  rw [FOp.parts, cut256, if_neg (by omega), List.range_succ_eq_map, List.map_cons, List.filterMap_cons]
  dsimp only
  rw [hmax]
  rfl

section
variable {a : Fin 16} {op num : Nat} {rest : List Nat} {o : FOp} {j : Job} {s : State}

/-- Slice `num` of a job as an array takes it (R277). -/
def FOp.sliceOf (o : FOp) (op num : Nat) : ArrSlice :=
  { op := op, num := num, store := 0, tiles := o.sliceTiles num, k0 := (o.sliceK num).1, k1 := (o.sliceK num).2, kpos := (o.sliceK num).1 }

/-- The array with slice `sl`, its program store `sl.store` used now, or to be loaded. -/
def Arr.withSlice (sl : ArrSlice) (clock : Nat) (r : Arr) : Arr :=
  { r with slice := some sl, clock := r.clock + 1
           progs := modAt (fun (p : Option ArrProg) => if sl.loading then none else p.map (fun q => { q with used := clock })) r.progs sl.store }

/-- The package once array `a` has the slice. -/
def Dev.sliceGiven (op a : Nat) (rest : List Nat) (sl : ArrSlice) (d : Dev) : Dev :=
  (d.setJob op (fun j => { j with toIssue := rest })).setArr a (Arr.withSlice sl (d.arr a).clock)

theorem Dev.sliceGiven_slice {d : Dev} {a : Nat} (ha : a < d.fry.arrs.length) (sl : ArrSlice) :
    (d.sliceGiven op a rest sl).arr a = Arr.withSlice sl (d.arr a).clock (d.arr a) :=
  (((d.setJob op (fun j => { j with toIssue := rest })).arrayTo_self a).setArr (Arr.withSlice sl (d.arr a).clock)).arr ha

theorem Dev.sliceGiven_job {d : Dev} {a : Nat} (hj : d.job op = some j) (sl : ArrSlice) :
    (d.sliceGiven op a rest sl).job op = some { j with toIssue := rest } :=
  (Dev.job_setJob (f := fun j => { j with toIssue := rest }) fun _ => rfl).trans (congrArg _ hj)

/-- What SLICE_ISSUE asks of the array and the operation. -/
structure Dev.MayIssue (op a : Nat) (o : FOp) (j : Job) (num : Nat) (rest : List Nat) (d : Dev) : Prop where
  fop : d.fop op = some o
  job : d.job op = some j
  next : j.toIssue = num :: rest
  masked : bit o.arrayMask a = true
  free : d.arrFree a = true
  turn : d.arrTurn o.seq a = true
  stands : o.retired = false

/-- An array that holds the program takes the slice at once. -/
theorem Pkg.sliceIssue_resident {m : Store} {d : Dev} {st : Nat} {a : Nat} (h : d.MayIssue op a o j num rest) (hload : o.reload = false)
    (hres : (d.arr a).resident o.ctx o.progAddr = some st) : Pkg.sliceIssue op a (m, d) =
      Pkg.sliceReady a (m, d.sliceGiven op a rest { o.sliceOf op num with store := st }) := by
  have hgo : ¬ (!bit o.arrayMask a ∨ !d.arrFree a ∨ !d.arrTurn o.seq a ∨ o.retired) := by simp [h.masked, h.free, h.turn, h.stands]
  unfold Pkg.sliceIssue
  rw [h.fop, h.job]
  dsimp only
  rw [h.next]
  dsimp only
  rw [if_neg hgo, hload, if_neg Bool.false_ne_true, hres]
  rfl

/-- Another array takes it and reads the program first (R274). -/
theorem Pkg.sliceIssue_loads {m : Store} {d : Dev} {a : Nat} (h : d.MayIssue op a o j num rest)
    (hload : o.reload = true ∨ (d.arr a).resident o.ctx o.progAddr = none) : Pkg.sliceIssue op a (m, d) =
      (m, (d.sliceGiven op a rest { o.sliceOf op num with store := (d.arr a).storeFor o.ctx o.progAddr, loading := true }).xferGo o (0x28 + a) (.image a)
        .read 0 0 (o.parts 0 false o.progAddr (256 - o.progAddr % 256))) := by
  have hgo : ¬ (!bit o.arrayMask a ∨ !d.arrFree a ∨ !d.arrTurn o.seq a ∨ o.retired) := by simp [h.masked, h.free, h.turn, h.stands]
  have hat : (if o.reload then none else (d.arr a).resident o.ctx o.progAddr) = none := by
    rcases hload with hl | hl
    · rw [if_pos hl]
    · rw [hl, ite_self]
  unfold Pkg.sliceIssue
  rw [h.fop, h.job]
  dsimp only
  rw [h.next]
  dsimp only
  rw [if_neg hgo, hat]
  rfl

theorem sliceIssue_waits (hrun : s.dev.running = true) (hdom : s.dev.domOn 11 = true) (hfop : s.dev.fop op = some o) (hjob : s.dev.job op = some j)
    (hno : s.dev.arrFree a = false ∨ s.dev.arrTurn o.seq a = false) (hq : quiet s.dev) : exec (.sliceIssue op a) s = .next s := by
  have hgo : (!bit o.arrayMask a ∨ !s.dev.arrFree a ∨ !s.dev.arrTurn o.seq a ∨ o.retired) := by
    rcases hno with h | h <;> simp [h]
  have hx : Pkg.sliceIssue op a (s.store, s.dev) = (s.store, s.dev) := by
    unfold Pkg.sliceIssue
    rw [hfop, hjob]
    dsimp only
    split
    · rfl
    · rw [if_pos hgo]
  refine (onPkg_leaves (f := fun x => (x.sliceIssue op a).settle) (x := (s.store, s.dev)) hrun hdom ?_).trans rfl
  rw [hx]
  exact settle_quiet hq

section
variable (hrun : s.dev.running = true) (hdom : s.dev.domOn 11 = true) (hsh : shaped s.dev) (h : s.dev.MayIssue op a o j num rest)
include hrun hdom hsh h

theorem sliceIssue_resident {st : Nat} (hload : o.reload = false) (hres : (s.dev.arr a).resident o.ctx o.progAddr = some st) : ∃ d : Dev,
    (d.arr a).slice = some { o.sliceOf op num with store := st } ∧ d.job op = some { j with toIssue := rest } ∧
    exec (.sliceIssue op a) s = .next (withPkg s (Pkg.settle (Pkg.sliceReady a (s.store, d)))) := by
  refine ⟨_, congrArg Arr.slice (Dev.sliceGiven_slice (arr_lt hsh a) _), Dev.sliceGiven_job h.job _, ?_⟩
  exact onPkg_leaves (f := fun x => (x.sliceIssue op a).settle) hrun hdom (congrArg Pkg.settle (Pkg.sliceIssue_resident h hload hres))

theorem sliceIssue_loads (hload : o.reload = true ∨ (s.dev.arr a).resident o.ctx o.progAddr = none) : ∃ d : Dev,
    (d.arr a).slice = some { o.sliceOf op num with store := (s.dev.arr a).storeFor o.ctx o.progAddr, loading := true } ∧
    d.job op = some { j with toIssue := rest } ∧ (∃ x ∈ d.fry.xfers, x.op = op ∧ x.key = .image a ∧ x.kind = .read ∧
      (x.parts.head?).map (·.gpa) = some o.progAddr) ∧ exec (.sliceIssue op a) s = .next (withPkg s (Pkg.settle (s.store, d))) := by
  obtain ⟨d, hd⟩ : ∃ d, d = s.dev.sliceGiven op a rest { o.sliceOf op num with store := (s.dev.arr a).storeFor o.ctx o.progAddr, loading := true } := ⟨_, rfl⟩
  have hslice := congrArg Arr.slice (Dev.sliceGiven_slice (op := op) (rest := rest) (arr_lt hsh a)
    { o.sliceOf op num with store := (s.dev.arr a).storeFor o.ctx o.progAddr, loading := true })
  have hjob := Dev.sliceGiven_job (a := a) (rest := rest) h.job
    { o.sliceOf op num with store := (s.dev.arr a).storeFor o.ctx o.progAddr, loading := true }
  have hgo := Pkg.sliceIssue_loads (m := s.store) h hload
  rw [← hd] at hslice hjob hgo
  obtain ⟨w, hw, hop, hkey, hkind, hparts⟩ := Dev.xferGo_begins o (0x28 + a) (.image a) .read 0 0 (o.parts 0 false o.progAddr (256 - o.progAddr % 256)) d
  have hfirst : ((o.parts 0 false o.progAddr (256 - o.progAddr % 256)).head?).map (·.gpa) = some o.progAddr := by
    rw [FOp.parts_head o 0 o.progAddr (by omega), Nat.mod_eq_of_lt (show o.progAddr < 2 ^ 52 from bits_lt _ _ 52)]
  refine ⟨_, ?_, ?_, ⟨w, ?_, hop.trans (Dev.id_of_fop h.fop), hkey, hkind, hparts.trans hfirst⟩,
    onPkg_leaves (f := fun x => (x.sliceIssue op a).settle) hrun hdom (congrArg Pkg.settle hgo)⟩
  · rw [Dev.arr, hw]
    exact hslice
  · rw [Dev.job, hw]
    exact hjob
  · rw [hw]
    exact List.mem_append_right _ List.mem_cons_self

theorem sliceIssue_starts {st : Nat} {p : ArrProg} (hload : o.reload = false) (hres : (s.dev.arr a).resident o.ctx o.progAddr = some st)
    (hprog : nth (s.dev.arr a).progs st none = some p) (hfits : o.slotsFit p.image = true) (hx : j.xlated = true) (hq : quiet s.dev) : ∃ t,
      exec (.sliceIssue op a) s = .next t ∧ t.store = s.store ∧ (t.dev.arr a).slice = some { o.sliceOf op num with store := st, started := true } := by
  have ha := arr_lt hsh a
  obtain ⟨b, hb⟩ : ∃ b, b = s.dev.setJob op (fun j => { j with toIssue := rest }) := ⟨_, rfl⟩
  obtain ⟨d, hd⟩ : ∃ d, d = s.dev.sliceGiven op a rest { o.sliceOf op num with store := st } := ⟨_, rfl⟩
  have harr := Dev.sliceGiven_slice (op := op) (rest := rest) ha { o.sliceOf op num with store := st }
  have hjob := Dev.sliceGiven_job (a := a) (rest := rest) h.job { o.sliceOf op num with store := st }
  have hgo := Pkg.sliceIssue_resident (m := s.store) h hload hres
  have hto := (b.arrayTo_self a).setArr (Arr.withSlice { o.sliceOf op num with store := st } (s.dev.arr a).clock)
  have hd' : d = b.setArr a (Arr.withSlice { o.sliceOf op num with store := st } (s.dev.arr a).clock) := by rw [hd, hb]; rfl
  rw [← hd] at harr hjob hgo
  rw [← hd'] at hto
  have hst : st < (s.dev.arr a).progs.length := by
    by_contra hge
    rw [nth, List.getElem?_eq_none (by omega)] at hprog
    cases hprog
  have hslice : (d.arr a).slice = some { o.sliceOf op num with store := st } := congrArg Arr.slice harr
  have hprog' : nth (d.arr a).progs st none = some { p with used := (s.dev.arr a).clock } := by
    rw [harr, Arr.withSlice]
    dsimp only
    rw [nth_modAt, if_pos ⟨rfl, hst⟩, hprog]
    rfl
  have hfop : d.fop op = some o := by
    rw [hd', hb]
    exact h.fop
  have hready : Pkg.sliceReady a (s.store, d) = (s.store, d.sliceStart a) := by
    unfold Pkg.sliceReady
    dsimp only
    rw [hslice]
    dsimp only [FOp.sliceOf]
    rw [hfop, hjob]
    dsimp only
    rw [hprog', Option.map_some, Option.getD_some, hfits, if_neg (by decide), hx, if_pos rfl]
    rfl
  have hstart := (hto.setArr (fun r => { r with slice := r.slice.map (fun s => { s with started := true, kpos := s.k0, pc := 0, loops := [], image := [] }) })).count
    (0x40 + a) 7 1
  rw [show Dev.count (d.setArr a _) (0x40 + a) 7 1 = d.sliceStart a from rfl] at hstart
  have hb' : b.fry.arrs = s.dev.fry.arrs := by rw [hb]; rfl
  have hend := hstart.arr (by rw [hb']; exact ha)
  have hquiet : quiet (d.sliceStart a) := by
    generalize d.sliceStart a = e at hstart hend
    have harrs : ∀ k, k ≠ a.val → e.arr k = s.dev.arr k := fun k hk => by
      rw [← hstart.arr_ne hk, Dev.arr, hb']
      rfl
    obtain ⟨cnts, free, he⟩ := hstart
    have hjobs : e.fry.jobs = b.fry.jobs := by rw [he]
    have hops : e.fry.ops = s.dev.fry.ops := by rw [he, hb]; rfl
    refine quiet_of_jobs hq (by rw [he, hb]; rfl) (by rw [he, hb]; rfl) (by rw [he, hb]; rfl) (by rw [he, hb]; rfl) (by rw [he, hb]; rfl) fun i hi => ?_
    rw [hjobs, hb] at hi
    obtain ⟨k, hk, hkop⟩ := Dev.mem_setJob (f := fun j => { j with toIssue := rest }) (fun _ => rfl) hi
    have hejob : ∀ m, e.job m = b.job m := fun m => by rw [Dev.job, Dev.job, hjobs]
    by_cases hop : i.op = op
    · refine Dev.jobReady_xlated (j := { j with toIssue := rest }) ?_ hx
      rw [hop, hejob, hb]
      exact (Dev.job_setJob (f := fun j => { j with toIssue := rest }) fun _ => rfl).trans (congrArg _ h.job)
    · rw [Dev.jobReady_congr (d := s.dev) (by rw [Dev.fop, Dev.fop, hops]) ((hejob _).trans (by rw [hb]; exact Dev.job_setJob_ne (f := fun j => { j with toIssue := rest }) (fun _ => rfl) hop))
        (Dev.jobLoaded_congr fun m _ => ?_), ← hkop]
      · exact hq.2.2.2.2.2.1 k hk
      · by_cases hm : m = a.val
        · have hnone : (s.dev.arr a).slice = none := by
            have hfree := h.free
            simp only [Dev.arrFree, Bool.and_eq_true, Option.isNone_iff_eq_none] at hfree
            exact hfree.1.1.2
          rw [hm, hend, Arr.loadedFor, Arr.loadedFor, hnone, Arr.withSlice]
          dsimp only [Option.map_some]
          simp
        · rw [harrs m hm]
  refine ⟨_, onPkg_leaves (f := fun x => (x.sliceIssue op a).settle) hrun hdom ((congrArg Pkg.settle (hgo.trans hready)).trans (settle_quiet hquiet)), rfl,
    (congrArg Arr.slice hend).trans rfl⟩

end

end

end Sys2Proof.Machine


/-!
SUPPORT. O41, PROGRAM_LOAD (R273, R274).
-/
namespace Sys2Proof.Machine

/-! ### A job that fails -/

section
variable {d : Dev} {op : Nat}

/-- A slice of operation `op` that has not started leaves its array. -/
def Arr.dropped (op : Nat) (r : Arr) : Arr := if r.slice.any (fun s => s.op == op && !s.started) then r.leave else r

theorem Arr.dropped_loaded (op k : Nat) (r : Arr) : (r.dropped op).loadedFor k = if k = op then false else r.loadedFor k := by
  unfold Arr.dropped Arr.loadedFor Arr.leave
  cases hs : r.slice with
  | none => simp [hs]
  | some s =>
    by_cases hop : s.op = op
    · subst hop
      cases hst : s.started <;> by_cases hk : k = s.op <;> simp [hs, hst, hk, Ne.symm]
    · have hno : (s.op == op) = false := beq_false_of_ne hop
      by_cases hk : k = op
      · simp [hs, hno, hk]
      · simp [hs, hno, hk]

theorem Dev.jobFail_arr (st : Nat) (a : Nat) : (d.jobFail op st).arr a = (d.arr a).dropped op := nth_map (Arr.dropped op) d.fry.arrs a {}

/-- A job that issues no further slice, `left` of its slices running. -/
def Job.failed (left st : Nat) (j : Job) : Job := { j with toIssue := [], left := left, low := min j.low st }

theorem Dev.jobFail_jobs (st : Nat) : (d.jobFail op st).fry.jobs = (d.setJob op
    (Job.failed ((d.jobFail op st).fry.arrs.filter (fun r => r.slice.any (fun q => q.op == op))).length st)).fry.jobs := rfl

/-- The job of a slice that fails keeps only what runs. -/
theorem Dev.jobFail_job {j : Job} (st : Nat) (hj : d.job op = some j) : (d.jobFail op st).job op = some { j with
    toIssue := [], left := ((d.jobFail op st).fry.arrs.filter (fun r => r.slice.any (fun q => q.op == op))).length, low := min j.low st } :=
  (Dev.job_setJob (f := Job.failed _ st) fun _ => rfl).trans (congrArg _ hj)

theorem quiet_jobFail (st : Nat) (hq : quiet d) : quiet (d.jobFail op st) := by
  refine quiet_of_jobs hq rfl rfl rfl rfl rfl fun i hi => ?_
  rw [Dev.jobFail_jobs] at hi
  obtain ⟨k, hk, hkop⟩ := Dev.mem_setJob (f := Job.failed _ st) (fun _ => rfl) hi
  have hload : ∀ a < 16, ((d.jobFail op st).arr a).loadedFor i.op = if i.op = op then false else (d.arr a).loadedFor i.op := fun a _ => by
    rw [Dev.jobFail_arr, Arr.dropped_loaded]
  by_cases hop : i.op = op
  · refine Dev.jobReady_unloaded (List.filter_eq_nil_iff.2 fun a ha => ?_)
    have h := hload a (List.mem_range.1 ha)
    rw [if_pos hop] at h
    exact Bool.eq_false_iff.1 h
  · rw [Dev.jobReady_congr (d := d) (e := d.jobFail op st) rfl (Dev.job_setJob_ne (f := Job.failed _ st) (fun _ => rfl) hop) (Dev.jobLoaded_congr fun a ha => by rw [hload a ha, if_neg hop]), ← hkop]
    exact hq.2.2.2.2.2.1 k hk

end

/-! ### PROGRAM_LOAD -/

section
variable {a : Fin 16} {sl : ArrSlice} {o : FOp} {j : Job} {s : State}

/-- An image has arrived at array `a`, and its slice waits for it. -/
structure Dev.Arrived (a : Nat) (sl : ArrSlice) (o : FOp) (j : Job) (d : Dev) : Prop where
  slice : (d.arr a).slice = some sl
  fop : d.fop sl.op = some o
  job : d.job sl.op = some j
  loaded : sl.loading = false
  waits : sl.started = false
  image : sl.image ≠ []
  stands : o.retired = false

theorem Pkg.programLoad_eq {m : Store} {d : Dev} {a : Nat} (h : d.Arrived a sl o j) : Pkg.programLoad a (m, d) =
    if sl.bad ≠ 16 then (m, d.jobFail sl.op sl.bad)
    else match progBad sl.image with
      | some (reason, i) => (m, (d.capture (0x40 + a) .request sRights 0x10 0x3F (i % 256 + reason * 256)).jobFail sl.op sRights)
      | none => Pkg.sliceReady a (m, d.setArr a (fun r => { r with
          clock := r.clock + 1
          progs := modAt (fun _ => some { ctx := o.ctx, gpa := o.progAddr, image := sl.image.take (imageBytes sl.image), used := (d.arr a).clock,
                                          drop := sl.drop }) r.progs sl.store
          slice := some { sl with image := [] } })) := by
  have hgo : ¬ (sl.loading ∨ sl.started ∨ (sl.image.isEmpty ∧ sl.bad = 16) ∨ o.retired) := by
    simp [h.loaded, h.waits, h.stands, List.isEmpty_iff, h.image]
  unfold Pkg.programLoad
  dsimp only
  rw [h.slice]
  dsimp only
  rw [h.fop]
  dsimp only
  rw [if_neg hgo]
  split
  · rfl
  · cases progBad sl.image <;> rfl

theorem Dev.Arrived.dropped {d : Dev} {a : Nat} (h : d.Arrived a sl o j) : ((d.arr a).dropped sl.op).slice = none := by
  rw [Arr.dropped, h.slice, if_pos (by simp [h.waits])]
  rfl

section
variable (hrun : s.dev.running = true) (hdom : s.dev.domOn 11 = true) (hsh : shaped s.dev) (h : s.dev.Arrived a sl o j)
include hrun hdom h

theorem programLoad_fails (hbad : sl.bad ≠ 16) (hq : quiet s.dev) : ∃ t, exec (.programLoad a) s = .next t ∧ t.store = s.store ∧
    (t.dev.arr a).slice = none ∧ (t.dev.job sl.op).map (·.low) = some (min j.low sl.bad) := by
  have hgo : Pkg.programLoad a (s.store, s.dev) = (s.store, s.dev.jobFail sl.op sl.bad) := by rw [Pkg.programLoad_eq h, if_pos hbad]
  refine ⟨_, onPkg_leaves (f := fun x => (x.programLoad a).settle) hrun hdom ((congrArg Pkg.settle hgo).trans (settle_quiet (quiet_jobFail _ hq))), rfl,
    (congrArg Arr.slice (Dev.jobFail_arr _ a)).trans h.dropped, ?_⟩
  exact (congrArg _ (Dev.jobFail_job sl.bad h.job)).trans rfl

theorem programLoad_refused {reason i : Nat} (hgood : sl.bad = 16) (hprog : progBad sl.image = some (reason, i)) (hq : quiet s.dev) : ∃ t,
    exec (.programLoad a) s = .next t ∧ t.store = s.store ∧ (t.dev.arr a).slice = none ∧
    t.dev.job sl.op = some { j with toIssue := [], left := (t.dev.fry.arrs.filter (fun r => r.slice.any (fun q => q.op == sl.op))).length
                                    low := min j.low sRights } ∧
    t.dev.rdp F.BLK_ERR_CNT_ERRORS (0x40 + a.val) = satAdd 16 (s.dev.rdp F.BLK_ERR_CNT_ERRORS (0x40 + a.val)) 1 := by
  obtain ⟨e, he⟩ : ∃ e, e = s.dev.capture (0x40 + a.val) .request sRights 0x10 0x3F (i % 256 + reason * 256) := ⟨_, rfl⟩
  have hgo : Pkg.programLoad a (s.store, s.dev) = (s.store, e.jobFail sl.op sRights) := by
    rw [Pkg.programLoad_eq h, if_neg (by omega), hprog, he]
  have hfry : e.fry = s.dev.fry := by
    rw [he]
    simp
  have hqe : quiet e := quiet_rest (by rw [he]; exact Dev.rest_capture ..) hq
  have harr : e.arr a = s.dev.arr a := by rw [Dev.arr, Dev.arr, hfry]
  have hjob : e.job sl.op = some j := by
    rw [Dev.job, hfry]
    exact h.job
  refine ⟨_, onPkg_leaves (f := fun x => (x.programLoad a).settle) hrun hdom ((congrArg Pkg.settle hgo).trans (settle_quiet (quiet_jobFail _ hqe))), rfl,
    (congrArg Arr.slice (Dev.jobFail_arr _ a)).trans ?_, Dev.jobFail_job sRights hjob, ?_⟩
  · rw [harr]
    exact h.dropped
  · rw [he]
    exact s.dev.errors_capture (by have := a.isLt; omega) ..

include hsh

/-- A good image becomes resident. -/
theorem programLoad_resident (hgood : sl.bad = 16) (hprog : progBad sl.image = none) (hstore : sl.store < 4) : ∃ d : Dev,
    (∃ p, nth (d.arr a).progs sl.store none = some p ∧ p.ctx = o.ctx ∧ p.gpa = o.progAddr ∧ p.image = sl.image.take (64 + 8 * progLen sl.image)) ∧
    (d.arr a).slice = some { sl with image := [] } ∧
    exec (.programLoad a) s = .next (withPkg s (Pkg.settle (Pkg.sliceReady a (s.store, d)))) := by
  have ha := arr_lt hsh a
  have hgo := Pkg.programLoad_eq (m := s.store) h
  rw [if_neg (by omega), hprog] at hgo
  have hlen : (s.dev.arr a).progs.length = 4 := by
    have hmem := arr_mem hsh a
    obtain ⟨-, -, -, -, -, -, hall⟩ := hsh
    exact (hall _ hmem).1
  have hbytes : imageBytes sl.image = 64 + 8 * progLen sl.image := by
    have hn : ¬ (progLen sl.image = 0 ∨ 256 < progLen sl.image ∨ (List.range (progLen sl.image)).all fun i => (progIns sl.image i).op != opEnd) := by
      intro hbad
      unfold progBad at hprog
      dsimp only at hprog
      rw [if_pos hbad] at hprog
      split at hprog
      · cases hprog
      · split at hprog <;> cases hprog
    rw [not_or, not_or] at hn
    rw [imageBytes]
    omega
  refine ⟨_, ?_, congrArg Arr.slice (((s.dev.arrayTo_self a).setArr _).arr ha),
    onPkg_leaves (f := fun x => (x.programLoad a).settle) hrun hdom (congrArg Pkg.settle hgo)⟩
  rw [((s.dev.arrayTo_self a).setArr _).arr ha, hbytes]
  dsimp only
  rw [nth_modAt, if_pos ⟨rfl, by omega⟩]
  exact ⟨_, rfl, rfl, rfl, rfl⟩

end

end

end Sys2Proof.Machine


/-!
SUPPORT. O41, the end of a job, and PNT_PROG_INV (R262, R279, R291).
-/
namespace Sys2Proof.Machine

/-! ### The end of a job -/

section
variable {op : Nat} {o : FOp} {j : Job} {s : State}

/-- The array without a slice of operation `op`. -/
def Arr.freed (op tide : Nat) (r : Arr) : Arr := if r.slice.any (fun s => s.op == op) then { r.leave with lastRun := tide } else r

/-- The package without the job of operation `op`. -/
def Dev.jobGone (op : Nat) (d : Dev) : Dev :=
  { d with fry := { d.fry with jobs := d.fry.jobs.filter (fun k => k.op != op), arrs := d.fry.arrs.map (Arr.freed op d.tim.tide) } }

theorem Dev.fry_spansEnd (l : List (Nat × Nat)) (d : Dev) : (d.spansEnd l).fry = d.fry :=
  List.foldlRecOn (motive := fun y : Dev => y.fry = d.fry) l _ rfl fun _ hy _ _ => hy

theorem Dev.opEnded_jobs {d : Dev} {st : Nat} (ho : d.fop op = some o) (hret : o.retired = false) (hsig : o.fld 0 14 1 = 0) :
    (d.opEnded op st).fry.jobs = d.fry.jobs := by
  rw [Dev.opEnded, ho]
  dsimp only
  rw [if_neg (by simp [hret]), if_neg (by simp [hsig])]
  rfl

section
variable (hrun : s.dev.running = true) (hfop : s.dev.fop op = some o) (hjob : s.dev.job op = some j) (hret : o.retired = false)
include hrun hfop hjob hret

theorem jobComplete_waits (h : j.left ≠ 0 ∨ s.dev.opBusy op = true) : exec (.arrayJobComplete op) s = .next s := by
  have hno : ¬ ((j.left = 0 ∨ o.retired = true) ∧ (!s.dev.opBusy op) = true) := by
    rintro ⟨hleft, hbusy⟩
    rw [hret] at hleft
    rcases h with h | h
    · exact h (hleft.resolve_right Bool.false_ne_true)
    · rw [h] at hbusy
      cases hbusy
  refine (onDev_leaves hrun (e := s.dev) ?_).trans rfl
  rw [Dev.jobComplete, hfop, hjob]
  exact if_neg hno

theorem jobComplete_ends (hleft : j.left = 0) (hbusy : s.dev.opBusy op = false) (hsig : o.fld 0 14 1 = 0) : ∃ t q,
    exec (.arrayJobComplete op) s = .next t ∧ t.store = s.store ∧ t.dev.job op = none ∧ t.dev.fop op = some q ∧ q.state = .complete ∧
    q.status = if j.low = 16 then sOk else j.low := by
  obtain ⟨e, he⟩ : ∃ e, e = (s.dev.jobGone op).spansEnd j.spans := ⟨_, rfl⟩
  have hgo : s.dev.jobComplete op = e.opEnded op (if j.low = 16 then sOk else j.low) := by
    rw [Dev.jobComplete, hfop, hjob, he]
    exact if_pos ⟨.inl hleft, by rw [hbusy]; rfl⟩
  have hfry : e.fry = (s.dev.jobGone op).fry := by
    rw [he]
    exact Dev.fry_spansEnd ..
  have hop : e.fop op = some o := by
    rw [Dev.fop, hfry]
    exact hfop
  obtain ⟨-, hend⟩ := Dev.opEnded_completes (st := if j.low = 16 then sOk else j.low) hop hret hsig
  have hjobs := Dev.opEnded_jobs (st := if j.low = 16 then sOk else j.low) hop hret hsig
  refine ⟨_, _, onDev_leaves hrun hgo, rfl, ?_, hend, rfl, rfl⟩
  have hnone : (s.dev.fry.jobs.filter (fun k => k.op != op)).find? (fun k => k.op == op) = none := by
    rw [List.find?_eq_none]
    intro k hk
    have := (List.mem_filter.1 hk).2
    simpa using this
  refine (congrArg (List.find? _) (hjobs.trans (congrArg Fry.jobs hfry))).trans hnone

end

end

/-! ### PNT_PROG_INV -/

section
variable {m : Master} {a : Fin 16} {v : W32} {s : State}

/-- The fields of PNT_PROG_INV, in the page of each array. -/
theorem progInv_fields : ∀ a < 16, ∀ f ∈ fieldsAt (0x40 + a) 0x104, f.rsv = .none ∧ f.acc ≠ .rw1c ∧ f.page = 0x40 := by decide +kernel

theorem progInv_field : ∀ a < 16, F.PNT_PROG_INV_ALL ∈ fieldsAt (0x40 + a) 0x104 ∧ F.PNT_PROG_INV_CONTEXT ∈ fieldsAt (0x40 + a) 0x104 := by
  decide +kernel

theorem progInv_taken (a : Fin 16) (hown : s.dev.owns m (0x40 + a.val) = true) (v : Nat) : fieldsTaken (tlp m s.dev) m (0x40 + a.val) 0x104 v := by
  have ha := a.isLt
  have hfmq : isFmq (0x40 + a.val) 0x104 = false := by
    simp only [isFmq, Bool.and_eq_false_iff, beq_eq_false_iff_ne]
    exact .inl (.inl (by omega))
  refine fieldsTaken_of (mayWrite_owner hown hfmq) (.inr (by omega)) ?_ (fun f hf => ?_) (fun f hf => ?_)
  · unfold Dev.writeRefused
    simp (disch := omega) only [if_neg]
  · rw [(progInv_fields a ha f hf).2.2]
    decide
  · rw [Fld.accepts, (progInv_fields a ha f hf).1]

theorem pntProgInv_written (hopen : pageOpen s.dev m (0x40 + a.val)) (hown : s.dev.owns m (0x40 + a.val) = true) : ∃ e : Dev,
    exec (.pntProgInv m a v) s = .next (withPkg s (s.store, e.progInv a)) ∧ e.fry = s.dev.fry ∧
    e.rdp F.PNT_PROG_INV_ALL (0x40 + a.val) = bits v.toNat 8 1 ∧ e.rdp F.PNT_PROG_INV_CONTEXT (0x40 + a.val) = bits v.toNat 0 8 := by
  have ha := a.isLt
  have hroute : routeAt (0x40 + a.val) 0x104 = none := by rw [routeAt, if_neg (by omega)]
  have htaken := progInv_taken a hown (putBit v.toNat 31 true)
  obtain ⟨-, hon⟩ := hopen.2.2
  have hwrite := regOut_taken hopen ⟨by omega, by omega, by omega, hroute, by omega, hon⟩ (putBit_top_lt true v.isLt (i := 31) (by decide)) htaken
  have hbit : bit (putBit v.toNat 31 true) 31 = true := bit_putBit_same ..
  rw [fieldsStored, Pkg.written] at hwrite
  dsimp only at hwrite
  rw [if_neg (by omega), if_neg (by omega), if_neg (by omega), if_neg (by omega), if_neg (by omega), if_neg (by omega), if_pos (by omega),
    hbit, if_pos ⟨rfl, rfl⟩, if_pos rfl, Nat.add_sub_cancel_left] at hwrite
  have hexec : exec (.pntProgInv m a v) s = regOut m ((0x40 + a.val) * 0x1000 + 0x104) 4 (putBit v.toNat 31 true) s := by
    refine congrArg (fun n => regOut m n 4 (putBit v.toNat 31 true) s) ?_
    omega
  have hmay : (tlp m s.dev).mayWrite m (0x40 + a.val) 0x104 = true :=
    mayWrite_owner hown (by simp only [isFmq, Bool.and_eq_false_iff, beq_eq_false_iff_ne]; exact .inl (.inl (by omega)))
  obtain ⟨hall, hctx⟩ := progInv_field a ha
  have hfield : ∀ f ∈ fieldsAt (0x40 + a.val) 0x104, f.addr (0x40 + a.val) 0 = (0x40 + a.val) * 0x1000 + 0x104 → f.lo + f.w ≤ 31 → fieldOpen true f = true →
      ((tlp m s.dev).setWord ((0x40 + a.val) * 0x1000 + 0x104) ((tlp m s.dev).newWord ((tlp m s.dev).mayWrite m (0x40 + a.val) 0x104)
        (0x40 + a.val) 0x104 (putBit v.toNat 31 true))).rdp f (0x40 + a.val) = bits v.toNat f.lo f.w := by
    intro f hf haddr hw hopened
    obtain ⟨hrsv, hacc, hpage⟩ := progInv_fields a ha f hf
    refine (rdpi_setWord_of haddr (by omega)).trans ?_
    rw [hmay, Dev.newWord_taken hf (by omega) hopened hacc ?_ (Dev.partHeld_of_page _ _ (by omega) (by omega) (by omega)),
      putBit, bits_putBits_ne _ _ _ _ _ _ (.inl hw)]
    rw [Dev.reserved_of_page _ _ _ _ (by omega) (by omega) (by omega) (by omega), Fld.accepts, hrsv]
    rfl
  obtain ⟨c, hc⟩ := tlp_counts m s.dev
  refine ⟨_, hexec.trans hwrite, ?_, hfield _ hall rfl (by decide) rfl, hfield _ hctx rfl (by decide) rfl⟩
  rw [hc]
  rfl

end

end Sys2Proof.Machine


/-!
SUPPORT. O41, the programs that PNT_PROG_INV names, and the pairs of arrays (R291, R559, R560).
-/
namespace Sys2Proof.Machine

/-! ### The programs that PNT_PROG_INV names -/

section
variable {m : Master} {a : Fin 16} {v : W32} {s : State}

/-- An array without a slice keeps of its programs those that are not named. -/
theorem Dev.progInv_drops {d : Dev} {a : Nat} (ha : a < d.fry.arrs.length) (hidle : (d.arr a).slice = none) (i : Nat) :
    nth ((d.progInv a).arr a).progs i none = (nth (d.arr a).progs i none).bind (fun q =>
      if (d.rdp F.PNT_PROG_INV_ALL (0x40 + a) == 1) = true ∨ q.ctx = d.rdp F.PNT_PROG_INV_CONTEXT (0x40 + a) then none else some q) := by
  obtain ⟨r, hr⟩ : ∃ r, nth d.fry.arrs a {} = r := ⟨_, rfl⟩
  have harr : d.arr a = r := hr
  rw [harr] at hidle ⊢
  rw [Dev.progInv, Dev.arr, Dev.setArr]
  dsimp only
  rw [nth_modAt, if_pos ⟨rfl, ha⟩, hr, nth, nth, List.getElem?_map, List.getElem?_zipIdx]
  cases r.progs[i]? with
  | none => rfl
  | some p =>
    change p.bind _ = p.bind _
    simp [hidle]

theorem pntProgInv_drops (hopen : pageOpen s.dev m (0x40 + a.val)) (hown : s.dev.owns m (0x40 + a.val) = true) (hsh : shaped s.dev)
    (hidle : (s.dev.arr a).slice = none) : ∃ t, exec (.pntProgInv m a v) s = .next t ∧ t.store = s.store ∧ ∀ i,
      nth (t.dev.arr a).progs i none = (nth (s.dev.arr a).progs i none).bind (fun q =>
        if bit v.toNat 8 = true ∨ q.ctx = bits v.toNat 0 8 then none else some q) := by
  obtain ⟨e, hexec, hfry, hall, hctx⟩ := pntProgInv_written (v := v) hopen hown
  have harr : e.arr a = s.dev.arr a := by rw [Dev.arr, hfry, ← Dev.arr]
  refine ⟨_, hexec, rfl, fun i => ?_⟩
  have hdrop := e.progInv_drops (a := a.val) (hfry ▸ arr_lt hsh a) (harr ▸ hidle) i
  rw [hall, hctx, harr] at hdrop
  exact hdrop

end

/-! ### Pairs -/

section
variable {k : Fin 8} {s : State} {d : Dev}

theorem pairOn_waits (hrun : s.dev.running = true) (hask : bit s.dev.fry.pairReq k = false) : exec (.arrayPairOn k) s = .next s := by
  refine (onDev_leaves hrun (e := s.dev) ?_).trans rfl
  rw [Dev.pairOn, if_neg (by simp [hask])]

theorem pairOff_waits (hrun : s.dev.running = true) (hbusy : s.dev.pairBusy k = true) : exec (.arrayPairIdleOff k) s = .next s := by
  refine (onDev_leaves hrun (e := s.dev) ?_).trans rfl
  rw [Dev.pairOff]
  dsimp only
  rw [if_neg (by simp [hbusy])]

/-- The package with both arrays of pair `k` as `r`. -/
def Dev.pairAs (k : Nat) (r : Arr) (d : Dev) : Dev := (d.setArr (2 * k) (fun _ => r)).setArr (2 * k + 1) (fun _ => r)

theorem Dev.arr_pairAs {k : Nat} {r : Arr} (hk : k < 8) (harrs : d.fry.arrs.length = 16) :
    (d.pairAs k r).arr (2 * k) = r ∧ (d.pairAs k r).arr (2 * k + 1) = r := by
  have hlen : (modAt (fun _ => r) d.fry.arrs (2 * k)).length = 16 := by rw [length_modAt, harrs]
  constructor
  · refine (nth_modAt _ _ _ _ _).trans ?_
    rw [if_neg (by omega)]
    refine (nth_modAt _ _ _ _ _).trans ?_
    rw [if_pos ⟨rfl, harrs ▸ (by omega)⟩]
  · refine (nth_modAt _ _ _ _ _).trans ?_
    rw [if_pos ⟨rfl, hlen ▸ (by omega)⟩]

theorem Dev.arrs_askPair (mask : Nat) (d : Dev) : (d.askPair mask).fry.arrs = d.fry.arrs ∧ (d.askPair mask).regs = d.regs := by
  rw [Dev.askPair]
  split
  · exact ⟨rfl, rfl⟩
  · split <;> exact ⟨rfl, rfl⟩

theorem Dev.arrs_askPairs (d : Dev) : d.askPairs.fry.arrs = d.fry.arrs ∧ d.askPairs.regs = d.regs := by
  refine List.foldlRecOn (motive := fun y : Dev => y.fry.arrs = d.fry.arrs ∧ y.regs = d.regs) d.fry.jobs _ ⟨rfl, rfl⟩ fun y hy j _ => ?_
  obtain ⟨harrs, hregs⟩ := hy
  split
  · exact ⟨harrs, hregs⟩
  · exact ⟨(Dev.arrs_askPair ..).1.trans harrs, (Dev.arrs_askPair ..).2.trans hregs⟩

theorem Dev.arr_arrs {d e : Dev} (h : e.fry.arrs = d.fry.arrs) (a : Nat) : e.arr a = d.arr a := by rw [Dev.arr, h, ← Dev.arr]

theorem Dev.rd_regs {d e : Dev} (h : e.regs = d.regs) (f : Fld) : e.rd f = d.rd f := by
  rw [Dev.rd, Dev.rdpi, Dev.word, h]
  rfl

theorem Dev.domOn_regs {d e : Dev} (h : e.regs = d.regs) (i : Nat) : e.domOn i = d.domOn i := by
  rw [Dev.domOn, Dev.rd_regs h, ← Dev.domOn]

theorem pairOn_turnsOn (hrun : s.dev.running = true) (hsh : shaped s.dev) (hask : bit s.dev.fry.pairReq k = true)
    (hreq : bit (s.dev.rd F.PWR_DOM_REQ_REQ) (12 + k.val) = true) (hcap : s.dev.pwr.arraysHeld = false) (hawake : s.dev.awake = true)
    (hoff : s.dev.domOn (12 + k.val) = false) : ∃ t, exec (.arrayPairOn k) s = .next t ∧ t.store = s.store ∧ t.dev.domOn (12 + k.val) = true ∧
      t.dev.rd F.PWR_STAT_STATE = 0 ∧ t.dev.arr (2 * k.val) = { lastRun := s.dev.tim.tide } ∧
      t.dev.arr (2 * k.val + 1) = { lastRun := s.dev.tim.tide } := by
  have hk := k.isLt
  obtain ⟨-, -, -, -, -, harrs, -⟩ := hsh
  obtain ⟨e, he⟩ : ∃ e : Dev, e = { s.dev with fry := { s.dev.fry with pairReq := putBit s.dev.fry.pairReq k false } } := ⟨_, rfl⟩
  have hgo : s.dev.pairOn k = ((e.pairAs k { lastRun := s.dev.tim.tide }).setDom (12 + k) true).wr F.PWR_STAT_STATE 0 := by
    rw [Dev.pairOn, if_pos (by simp [hask, hreq, hcap, hawake, hoff]), he]
    rfl
  have hlen : e.fry.arrs.length = 16 := by rw [he]; exact harrs
  obtain ⟨heven, hodd⟩ := Dev.arr_pairAs (r := { lastRun := s.dev.tim.tide }) hk hlen
  refine ⟨_, onDev_leaves hrun hgo, rfl, ?_, Dev.rd_wr_same _ _ _ (by decide), heven, hodd⟩
  refine (Dev.domOn_congr (Dev.word_wr_ne _ _ _ _ (by decide)) _).trans ?_
  rw [Dev.domOn_setDom (by omega), if_pos rfl, Bool.or_true]

theorem bits_eq_zero {n lo w : Nat} (h : ∀ i < w, bit n (lo + i) = false) : bits n lo w = 0 := by
  refine Nat.eq_of_testBit_eq fun i => ?_
  rw [testBit_bits, Nat.zero_testBit]
  by_cases hi : i < w
  · rw [← bit_eq_testBit, h i hi, Bool.and_false]
  · simp [hi]

/-- The package with pair `k` idle, its arrays fresh and their registers reset. -/
def Dev.pairFresh (k : Nat) (d : Dev) : Dev :=
  let d := ((d.pageReset (0x40 + 2 * k)).pageReset (0x41 + 2 * k)).pairAs k {}
  { d with pwr := { d.pwr with idleReq := putBit d.pwr.idleReq k false } }

theorem Dev.word_pageReset {p a : Nat} (h : a / 0x1000 ≠ p) : (d.pageReset p).word a = d.word a :=
  Dev.word_tdrop (p := fun a => a / 0x1000 == p && a % 0x1000 != 8) rfl (by simp [h])

theorem Dev.word_pairFresh {k a : Nat} (h : a < 0x40000) : (d.pairFresh k).word a = d.word a :=
  (Dev.word_pageReset (d := d.pageReset (0x40 + 2 * k)) (p := 0x41 + 2 * k) (by omega)).trans (Dev.word_pageReset (by omega))

theorem Dev.domOn_low {d : Dev} {i : Nat} (hi : i < 26) (h : d.domOn i = false) : bit (d.rd F.PWR_DOM_STAT_ON) i = false := by
  rw [Dev.domOn, beq_eq_false_iff_ne.2 (by omega)] at h
  exact h

theorem pairOff_turnsOff (hrun : s.dev.running = true) (hsh : shaped s.dev) (hon : s.dev.domOn (12 + k.val) = true)
    (hbusy : s.dev.pairBusy k = false) (hidle : s.dev.rd F.PWR_CFG_ARR_IDLE_US ≠ 0)
    (heven : (s.dev.arr (2 * k.val)).lastRun + us (s.dev.rd F.PWR_CFG_ARR_IDLE_US) ≤ s.dev.tim.tide)
    (hodd : (s.dev.arr (2 * k.val + 1)).lastRun + us (s.dev.rd F.PWR_CFG_ARR_IDLE_US) ≤ s.dev.tim.tide) : ∃ t,
      exec (.arrayPairIdleOff k) s = .next t ∧ t.store = s.store ∧ t.dev.domOn (12 + k.val) = false ∧ t.dev.arr (2 * k.val) = {} ∧
      t.dev.arr (2 * k.val + 1) = {} ∧ ((∀ i < 8, i ≠ k.val → s.dev.domOn (12 + i) = false) → s.dev.pwrState = 0 →
        t.dev.rd F.PWR_STAT_STATE = 1) := by
  have hk := k.isLt
  obtain ⟨-, -, -, -, -, harrs, -⟩ := hsh
  obtain ⟨e, he⟩ : ∃ e : Dev, e = (s.dev.pairFresh k).setDom (12 + k) false := ⟨_, rfl⟩
  obtain ⟨g, hg⟩ : ∃ g : Dev, g = if bits (e.rd F.PWR_DOM_STAT_ON) 12 8 = 0 ∧ e.pwrState = 0 then e.wr F.PWR_STAT_STATE 1 else e := ⟨_, rfl⟩
  have hgo : s.dev.pairOff k = g.askPairs := by
    rw [Dev.pairOff]
    dsimp only
    rw [if_pos ⟨hon, by rw [hbusy]; rfl, .inl ⟨hidle, by simp [heven, hodd]⟩⟩, hg, he]
    rfl
  obtain ⟨hask, hregs⟩ := g.arrs_askPairs
  have hset : ∀ j, e.domOn j = if j = 12 + k.val then false else s.dev.domOn j := by
    intro j
    rw [he, Dev.domOn_setDom (by omega), Dev.domOn_congr (Dev.word_pairFresh (by decide))]
    split
    · next h => simp [h]; omega
    · rfl
  have hdom : ∀ j, g.domOn j = if j = 12 + k.val then false else s.dev.domOn j := by
    intro j
    rw [hg, ← hset]
    split
    · exact Dev.domOn_congr (Dev.word_wr_ne _ _ _ _ (by decide)) _
    · rfl
  have harr : g.fry.arrs = (s.dev.pairFresh k).fry.arrs := by
    rw [hg, he]
    split <;> rfl
  obtain ⟨hfresh, hfresh'⟩ := Dev.arr_pairAs (d := (s.dev.pageReset (0x40 + 2 * k)).pageReset (0x41 + 2 * k)) (r := {}) hk harrs
  refine ⟨_, onDev_leaves hrun hgo, rfl, ?_, ?_, ?_, fun hothers hactive => ?_⟩
  · rw [Dev.domOn_regs hregs, hdom, if_pos rfl]
  · exact (Dev.arr_arrs (hask.trans harr) _).trans hfresh
  · exact (Dev.arr_arrs (hask.trans harr) _).trans hfresh'
  · have hnone : bits (e.rd F.PWR_DOM_STAT_ON) 12 8 = 0 := bits_eq_zero fun i hi => by
      refine Dev.domOn_low (by omega) ?_
      rw [hset]
      split
      · rfl
      · next hne => exact hothers i hi (by omega)
    have hstate : e.pwrState = 0 := by
      rw [he, Dev.pwrState, Dev.setDom, Dev.rd_wr_ne _ _ _ _ (by decide)]
      refine Eq.trans ?_ hactive
      rw [Dev.pwrState, Dev.rd, Dev.rd, Dev.rdpi, Dev.rdpi]
      exact congrArg (bits · _ _) (Dev.word_pairFresh (by decide))
    rw [if_pos ⟨hnone, hstate⟩] at hg
    rw [Dev.rd_regs hregs, hg, Dev.rd_wr_same _ _ _ (by decide)]
    rfl

end

end Sys2Proof.Machine


/-!
SUPPORT. O41, assembled: the instructions of an array program, and the jobs that run them.
-/
namespace Sys2Proof.Machine

theorem arrayInstructions : Said.ArrayInstructions := fun _ _ _ =>
  ⟨fun _ hnone => Dev.macFlush_none hnone,
    fun h => ⟨arrLoop_opens h, arrLoop_skips h⟩,
    fun h hpow _ _ => arrMac_sums h hpow,
    fun h hpow _ _ => arrElt_cells h hpow,
    arrRowred_row, arrCmpx_orders, arrIdx_loads, arrDrain_writes, endSlice_frees⟩

theorem arrayJobs : Said.ArrayJobs := by
  refine ⟨fun op a o j num rest s hrun hdom hsh hfop hjob hnext => ⟨sliceIssue_waits hrun hdom hfop hjob, fun hmask hfree hturn hret => ?_⟩,
    fun a sl o j s hrun hdom hsh hslice hfop hjob hload hwait himage hret => ?_,
    fun op o j s hrun hfop hjob hret => ⟨jobComplete_waits hrun hfop hjob hret, jobComplete_ends hrun hfop hjob hret⟩,
    fun m a v s => pntProgInv_drops, fun k s hrun hsh => ⟨pairOn_turnsOn hrun hsh, pairOn_waits hrun, pairOff_waits hrun, pairOff_turnsOff hrun hsh⟩⟩
  · have h : s.dev.MayIssue op a o j num rest := ⟨hfop, hjob, hnext, hmask, hfree, hturn, hret⟩
    exact ⟨fun st => sliceIssue_resident hrun hdom hsh h, fun st p => sliceIssue_starts hrun hdom hsh h, sliceIssue_loads hrun hdom hsh h⟩
  · have h : s.dev.Arrived a sl o j := ⟨hslice, hfop, hjob, hload, hwait, himage, hret⟩
    exact ⟨fun reason i => programLoad_refused hrun hdom h, programLoad_fails hrun hdom h, programLoad_resident hrun hdom hsh h⟩

/-- Settles O41: each instruction changes its own array alone, whose cells come from `cellsGo`, and each command of a job is a case of its
model function, whose outcome the support lemmas say. -/
theorem arrays : Obligations.Arrays := ⟨arrayInstructions, arrayJobs⟩

end Sys2Proof.Machine


/-!
SUPPORT. O47, the queues of the switch core: what is in them, and what the placing of a frame looks at (R382–R391).
-/
namespace Sys2Proof.Machine

section
variable {d e : Dev} {inp out cls i p k : Nat} {l : List QFrame}

/-! ### Queues -/

/-- The entry of a queue. -/
def Voq.isFor (inp out cls : Nat) (v : Voq) : Bool := v.inp == inp && v.out == out && v.cls == cls

theorem Voq.isFor_iff {v : Voq} : v.isFor inp out cls = true ↔ (v.inp, v.out, v.cls) = (inp, out, cls) := by
  simp [Voq.isFor, and_assoc]

theorem Dev.voq_eq (d : Dev) (inp out cls : Nat) : d.voq inp out cls = ((d.swc.voqs.find? (Voq.isFor inp out cls)).map (·.q)).getD [] := rfl

theorem Dev.voq_swc (h : e.swc.voqs = d.swc.voqs) (i p k : Nat) : e.voq i p k = d.voq i p k := by rw [Dev.voq, h, ← Dev.voq]

theorem Dev.voqs_setVoq (d : Dev) (inp out cls : Nat) (l : List QFrame) : (d.setVoq inp out cls l).swc.voqs =
    if l.isEmpty then d.swc.voqs.filter (fun v => !v.isFor inp out cls)
    else d.swc.voqs.filter (fun v => !v.isFor inp out cls) ++ [⟨inp, out, cls, l⟩] := rfl

/-- Entries of a queue among those that are not of it. -/
theorem find?_isFor_same (vs : List Voq) : (vs.filter (fun v => !v.isFor inp out cls)).find? (Voq.isFor inp out cls) = none := by
  rw [List.find?_eq_none]
  intro v hv
  simpa using (List.mem_filter.1 hv).2

theorem find?_isFor_other (vs : List Voq) (h : (i, p, k) ≠ (inp, out, cls)) :
    (vs.filter (fun v => !v.isFor inp out cls)).find? (Voq.isFor i p k) = vs.find? (Voq.isFor i p k) := by
  rw [List.find?_filter]
  congr 1
  funext v
  by_cases hv : v.isFor i p k = true
  · have hne : v.isFor inp out cls = false := by
      rw [Bool.eq_false_iff]
      exact fun hw => h ((Voq.isFor_iff.1 hv).symm.trans (Voq.isFor_iff.1 hw))
    simp [hv, hne]
  · simp [hv]

@[simp] theorem Dev.voq_setVoq_same (d : Dev) (inp out cls : Nat) (l : List QFrame) : (d.setVoq inp out cls l).voq inp out cls = l := by
  rw [Dev.voq_eq, Dev.voqs_setVoq]
  cases l with
  | nil => rw [List.isEmpty_nil, if_pos rfl, find?_isFor_same]; rfl
  | cons q l =>
    rw [List.isEmpty_cons, if_neg Bool.false_ne_true, List.find?_append, find?_isFor_same]
    simp [Voq.isFor]

theorem Dev.voq_setVoq_other (d : Dev) (l : List QFrame) (h : (i, p, k) ≠ (inp, out, cls)) : (d.setVoq inp out cls l).voq i p k = d.voq i p k := by
  have hlast : Voq.isFor i p k ⟨inp, out, cls, l⟩ = false := by
    rw [Bool.eq_false_iff]
    exact fun hv => h (Voq.isFor_iff.1 hv).symm
  rw [Dev.voq_eq, Dev.voqs_setVoq, Dev.voq_eq]
  split
  · rw [find?_isFor_other _ h]
  · rw [List.find?_append, find?_isFor_other _ h]
    simp [hlast]

/-! ### A new frame of its input and class -/

/-- A frame that no DATA frame follows any more. -/
def QFrame.closed (inp cls : Nat) (q : QFrame) : QFrame := if q.leads inp cls then { q with last := false } else q

/-- The entry of a queue whose frames are changed by `g`. -/
def Voq.mapped (g : QFrame → QFrame) (v : Voq) : Voq := { v with q := v.q.map g }

theorem QFrame.closed_last (inp cls : Nat) (q : QFrame) : ∃ b, q.closed inp cls = { q with last := b } := by
  unfold QFrame.closed
  split
  · exact ⟨_, rfl⟩
  · exact ⟨q.last, rfl⟩

theorem Dev.swc_newLast (d : Dev) (inp cls : Nat) : (d.newLast inp cls).swc = { d.swc with
    voqs := d.swc.voqs.map (Voq.mapped (QFrame.closed inp cls)), heldFrames := d.swc.heldFrames.map (QFrame.closed inp cls)
    recvSpace := d.swc.recvSpace.map (QFrame.closed inp cls), lastOut := nset d.swc.lastOut (4 * inp + cls) 0 } := rfl

/-! ### What the placing of a frame looks at -/

/-- What the placing of a frame looks at is in `e` as it is in `d`: the queues but for which of their frames a DATA frame may follow, the
credits and the room of the links, and everything outside the switch core, the links and the counters. -/
structure Dev.Resembles (d e : Dev) : Prop where
  rest : ∃ ls w c, e = { d with links := ls, swc := w, cnts := c }
  credits : ∀ p, (e.link p).credits = (d.link p).credits
  adv : ∀ p, (e.link p).adv = (d.link p).adv
  upAt : ∀ p, (e.link p).upAt = (d.link p).upAt
  queues : ∃ g : QFrame → QFrame, (∀ q, ∃ b, g q = { q with last := b }) ∧ e.swc.voqs = d.swc.voqs.map (Voq.mapped g)

theorem Dev.resembles_refl (d : Dev) : d.Resembles d := by
  refine ⟨⟨_, _, _, rfl⟩, fun _ => rfl, fun _ => rfl, fun _ => rfl, id, fun q => ⟨q.last, rfl⟩, ?_⟩
  have hid : Voq.mapped id = id := by
    funext v
    simp [Voq.mapped]
  rw [hid, List.map_id]

theorem Dev.resembles_newLast (d : Dev) (inp cls : Nat) : d.Resembles (d.newLast inp cls) :=
  ⟨⟨_, _, _, rfl⟩, fun _ => rfl, fun _ => rfl, fun _ => rfl, _, QFrame.closed_last inp cls, rfl⟩

/-- Links that differ in other things than credits and times. -/
theorem Dev.Resembles.links {ls : List Link} (h : d.Resembles e) (hc : ∀ p, (nth ls p {}).credits = (e.link p).credits)
    (ha : ∀ p, (nth ls p {}).adv = (e.link p).adv) (hu : ∀ p, (nth ls p {}).upAt = (e.link p).upAt) : d.Resembles { e with links := ls } := by
  obtain ⟨⟨_, _, _, rfl⟩, hcredits, hadv, hup, hqueues⟩ := h
  exact ⟨⟨_, _, _, rfl⟩, fun p => (hc p).trans (hcredits p), fun p => (ha p).trans (hadv p), fun p => (hu p).trans (hup p), hqueues⟩

theorem Dev.Resembles.modLink (h : d.Resembles e) (f : Link → Link) (hc : ∀ l, (f l).credits = l.credits) (ha : ∀ l, (f l).adv = l.adv)
    (hu : ∀ l, (f l).upAt = l.upAt) (p : Nat) : d.Resembles { e with links := modAt f e.links p } :=
  h.links (fun q => nth_modAt_keep Link.credits hc e.links p q {}) (fun q => nth_modAt_keep Link.adv ha e.links p q {})
    (fun q => nth_modAt_keep Link.upAt hu e.links p q {})

theorem Dev.Resembles.count (h : d.Resembles e) (p i k : Nat) : d.Resembles (e.count p i k) := by
  obtain ⟨⟨_, _, _, rfl⟩, hcredits, hadv, hup, hqueues⟩ := h
  unfold Dev.count
  split
  · exact ⟨⟨_, _, _, rfl⟩, hcredits, hadv, hup, hqueues⟩
  · exact ⟨⟨_, _, _, rfl⟩, hcredits, hadv, hup, hqueues⟩

theorem Dev.Resembles.voqSum (h : d.Resembles e) {s : Voq → Bool} {f : QFrame → Nat} (hs : ∀ (v : Voq) l, s { v with q := l } = s v)
    (hf : ∀ (q : QFrame) b, f { q with last := b } = f q) : e.voqSum s f = d.voqSum s f := by
  obtain ⟨g, hg, hvoqs⟩ := h.queues
  have hfg : ∀ q, f (g q) = f q := fun q => by
    obtain ⟨b, hb⟩ := hg q
    rw [hb, hf]
  have hsg : (s ∘ Voq.mapped g) = s := funext fun v => hs v _
  have hsum : ((fun v : Voq => (v.q.map f).sum) ∘ Voq.mapped g) = fun v => (v.q.map f).sum := by
    funext v
    simp only [Function.comp_apply, Voq.mapped, List.map_map, Function.comp_def, hfg]
  rw [Dev.voqSum, Dev.voqSum, hvoqs, List.filter_map, hsg, List.map_map, hsum]

theorem Dev.Resembles.outBytes (h : d.Resembles e) (out cls : Nat) : e.outBytes out cls = d.outBytes out cls :=
  h.voqSum (fun _ _ => rfl) fun _ _ => rfl

theorem Dev.Resembles.headBytes (h : d.Resembles e) (inp : Nat) : e.headBytes inp = d.headBytes inp :=
  h.voqSum (fun _ _ => rfl) fun _ _ => rfl

theorem Dev.Resembles.headLimit (h : d.Resembles e) (inp : Nat) : e.headLimit inp = d.headLimit inp :=
  congrArg (fun l : List Nat => 2 * 1024 * 1024 - 16 * l.sum) (h.adv inp)

theorem Dev.Resembles.headRoom (h : d.Resembles e) (inp n : Nat) : e.headRoom inp n = d.headRoom inp n := by
  rw [Dev.headRoom, h.headBytes, h.headLimit, ← Dev.headRoom]

theorem Dev.Resembles.spilledOf (h : d.Resembles e) (inp cls : Nat) : e.spilledOf inp cls = d.spilledOf inp cls :=
  h.voqSum (fun _ _ => rfl) fun _ _ => rfl

theorem Dev.Resembles.pushout (h : d.Resembles e) : e.pushout = d.pushout := by
  obtain ⟨⟨_, _, _, rfl⟩, -⟩ := h
  rfl

theorem Dev.Resembles.atLimit (h : d.Resembles e) (q : QFrame) : e.atLimit q = d.atLimit q := by
  have hstatic : ∀ i c, e.staticLimit i c = d.staticLimit i c := by
    obtain ⟨⟨_, _, _, rfl⟩, -⟩ := h
    exact fun _ _ => rfl
  simp only [Dev.atLimit, h.spilledOf, h.pushout, hstatic]

theorem Dev.Resembles.spillRoom (h : d.Resembles e) (q : QFrame) : e.spillRoom q = d.spillRoom q := by
  have hstatic : ∀ i c, e.staticLimit i c = d.staticLimit i c := by
    obtain ⟨⟨_, _, _, rfl⟩, -⟩ := h
    exact fun _ _ => rfl
  have havail : e.partAvail = d.partAvail := by
    obtain ⟨⟨_, _, _, rfl⟩, -⟩ := h
    rfl
  have hfloor : ∀ c, e.floorLimit c = d.floorLimit c := by
    obtain ⟨⟨_, _, _, rfl⟩, -⟩ := h
    exact fun _ => rfl
  have hbytes : e.spilledBytes = d.spilledBytes := h.voqSum (fun _ _ => rfl) fun _ _ => rfl
  have hof : ∀ i c, e.floorOf i c = d.floorOf i c := fun _ _ => h.voqSum (fun _ _ => rfl) fun _ _ => rfl
  have hshared : e.sharedBytes = d.sharedBytes := h.voqSum (fun _ _ => rfl) fun _ _ => rfl
  have hlimit : e.sharedLimit = d.sharedLimit := by rw [Dev.sharedLimit, Dev.sharedLimit, havail, hfloor, hfloor, hfloor, hfloor]
  simp only [Dev.spillRoom, h.pushout, h.spilledOf, hstatic, havail, hfloor, hbytes, hof, hshared, hlimit]

/-! ### The lookup -/

theorem Dev.Resembles.freeCredit (h : d.Resembles e) (p cls ch : Nat) : e.freeCredit p cls ch = d.freeCredit p cls ch := by
  have hsum := h.voqSum (s := fun v => v.out == p && v.cls == cls) (f := fun q => if q.credit == some ch then q.slots else 0)
    (fun _ _ => rfl) fun _ _ => rfl
  have hcredits : (nth e.links p {}).credits = (nth d.links p {}).credits := h.credits p
  rw [Dev.freeCredit, Dev.freeCredit, hcredits, hsum]

theorem Dev.Resembles.winner (h : d.Resembles e) (cls tie : Nat) (cs : List (Nat × Bool)) : e.winner cls tie cs = d.winner cls tie cs := by
  have hscore : e.score cls = d.score cls := by
    funext c
    have hbias : e.rd F.RTE_CFG_EXP_BIAS = d.rd F.RTE_CFG_EXP_BIAS := by
      obtain ⟨⟨_, _, _, rfl⟩, -⟩ := h
      rfl
    rw [Dev.score, Dev.score, h.outBytes, hbias]
  simp only [Dev.winner, Dev.bestOf, hscore]

theorem Dev.Resembles.live (h : d.Resembles e) (b : Bool) (p : Nat) : e.live b p = d.live b p := by
  have hup : (nth e.links p {}).upAt = (nth d.links p {}).upAt := h.upAt p
  have hcarries : e.portCarries p = d.portCarries p := by
    obtain ⟨⟨_, _, _, rfl⟩, -⟩ := h
    rfl
  have hsince : e.bankSince b = d.bankSince b := by
    obtain ⟨⟨_, _, _, rfl⟩, -⟩ := h
    rfl
  rw [Dev.live, Dev.live, hup, hcarries, hsince]

theorem Dev.Resembles.candidates (h : d.Resembles e) (b : Bool) (dest cls : Nat) : e.candidates b dest cls = d.candidates b dest cls := by
  have hlive : ∀ p, e.live b p = d.live b p := h.live b
  have hrole : ∀ p, e.role p = d.role p := by
    obtain ⟨⟨_, _, _, rfl⟩, -⟩ := h
    exact fun _ => rfl
  have hspare : ∀ m p, e.spareSet m p = d.spareSet m p := by
    obtain ⟨⟨_, _, _, rfl⟩, -⟩ := h
    exact fun _ _ => rfl
  have hentry : e.routeEntry b dest cls = d.routeEntry b dest cls := by
    obtain ⟨⟨_, _, _, rfl⟩, -⟩ := h
    rfl
  simp only [Dev.candidates, hlive, hrole, hspare, hentry]

theorem Dev.Resembles.towPort (h : d.Resembles e) (b : Bool) (dest cls : Nat) : e.towPort b dest cls = d.towPort b dest cls := by
  have hlive : ∀ p, e.live b p = d.live b p := h.live b
  have hrole : ∀ p, e.role p = d.role p := by
    obtain ⟨⟨_, _, _, rfl⟩, -⟩ := h
    exact fun _ => rfl
  have hgroup : ∀ p, e.group p = d.group p := by
    obtain ⟨⟨_, _, _, rfl⟩, -⟩ := h
    exact fun _ => rfl
  have hdown : ∀ g, e.downOf g = d.downOf g := by
    obtain ⟨⟨_, _, _, rfl⟩, -⟩ := h
    exact fun _ => rfl
  have hentry : e.routeEntry b dest cls = d.routeEntry b dest cls := by
    obtain ⟨⟨_, _, _, rfl⟩, -⟩ := h
    rfl
  simp only [Dev.towPort, hlive, hrole, hgroup, hdown, hentry, h.winner]

theorem Dev.Resembles.lookup (h : d.Resembles e) (q : QFrame) (tie : Nat) : e.lookup q tie = d.lookup q tie := by
  have hlocal : ∀ x, e.takenLocally x = d.takenLocally x := by
    obtain ⟨⟨_, _, _, rfl⟩, -⟩ := h
    exact fun _ => rfl
  have hbank : ∀ b, e.bankFor b = d.bankFor b := by
    obtain ⟨⟨_, _, _, rfl⟩, -⟩ := h
    exact fun _ => rfl
  have htow : e.towpath = d.towpath := by
    obtain ⟨⟨_, _, _, rfl⟩, -⟩ := h
    rfl
  have hphase : ∀ p, e.framePhase p = d.framePhase p := by
    obtain ⟨⟨_, _, _, rfl⟩, -⟩ := h
    exact fun _ => rfl
  have hgroup : ∀ p, e.group p = d.group p := by
    obtain ⟨⟨_, _, _, rfl⟩, -⟩ := h
    exact fun _ => rfl
  have htake : ∀ p x n, e.takeCredit p x n = d.takeCredit p x n := fun p x n => by simp only [Dev.takeCredit, h.freeCredit]
  simp only [Dev.lookup, hlocal, hbank, htow, hphase, hgroup, htake, h.candidates, h.towPort, h.winner]

end

end Sys2Proof.Machine


/-!
SUPPORT. O47, a frame that leaves its receive crossing, up to its lookup (R382, R383, R408).
-/
namespace Sys2Proof.Machine

section
variable {d e : Dev} {f : Frame} {tie : Nat}

/-! ### More of what the placing of a frame looks at -/

theorem Dev.Resembles.evictable (h : d.Resembles e) (q : QFrame) : e.evictable q = d.evictable q := by
  obtain ⟨⟨_, _, _, rfl⟩, -⟩ := h
  rfl

/-- Bytes of a queue in the shared space. -/
def Voq.shared (v : Voq) : Nat := (v.q.map (fun q => if q.spilled && !q.inFloor then q.bytes else 0)).sum

/-- The queues of BULK that hold a victim. -/
def Dev.victims (d : Dev) : List Voq := d.swc.voqs.filter (fun v => v.cls == 2 && v.q.any d.evictable)

theorem Dev.victimVoq_eq (d : Dev) (tie : Nat) : d.victimVoq tie =
    (d.victims.filter (fun v => v.shared == (d.victims.map Voq.shared).max?.getD 0))[
      tie % (d.victims.filter (fun v => v.shared == (d.victims.map Voq.shared).max?.getD 0)).length]? := rfl

theorem Dev.Resembles.victimVoq (h : d.Resembles e) (hnone : d.victimVoq tie = none) : e.victimVoq tie = none := by
  obtain ⟨g, hg, hvoqs⟩ := id h.queues
  have hkeep : ∀ q, e.evictable (g q) = d.evictable q := fun q => by
    obtain ⟨b, hb⟩ := hg q
    rw [h.evictable, hb]
    rfl
  have hshared : Voq.shared ∘ Voq.mapped g = Voq.shared := by
    funext v
    have hq : ∀ q, (if (g q).spilled && !(g q).inFloor then (g q).bytes else 0) = if q.spilled && !q.inFloor then q.bytes else 0 := fun q => by
      obtain ⟨b, hb⟩ := hg q
      rw [hb]
      rfl
    simp only [Function.comp_apply, Voq.shared, Voq.mapped, List.map_map, Function.comp_def, hq]
  have hvictims : e.victims = d.victims.map (Voq.mapped g) := by
    rw [Dev.victims, Dev.victims, hvoqs, List.filter_map]
    congr 2
    funext v
    simp only [Function.comp_apply, Voq.mapped, List.any_map, Function.comp_def, hkeep]
  have hbest : ∀ m, (fun v : Voq => v.shared == m) ∘ Voq.mapped g = fun v => v.shared == m := fun m =>
    funext fun v => congrArg (· == m) (congrFun hshared v)
  rw [Dev.victimVoq_eq, hvictims, List.map_map, hshared, List.filter_map, hbest, List.length_map, List.getElem?_map]
  rw [Dev.victimVoq_eq] at hnone
  rw [hnone]
  rfl

theorem Dev.Resembles.usedCells (h : d.Resembles e) : e.usedCells = d.usedCells := by
  obtain ⟨g, hg, hvoqs⟩ := h.queues
  have hcells : (fun q => (g q).cells) = fun q => q.cells := funext fun q => by
    obtain ⟨b, hb⟩ := hg q
    rw [hb]
  rw [Dev.usedCells, Dev.usedCells, hvoqs, List.flatMap_map]
  simp only [Voq.mapped, List.flatMap_map, hcells]

theorem Dev.Resembles.groupsOn (h : d.Resembles e) : e.groupsOn = d.groupsOn := by
  obtain ⟨⟨_, _, _, rfl⟩, -⟩ := h
  rfl

/-- A frame that is routed by another bank than its own is counted, and nothing else is done (R424). -/
theorem Dev.Resembles.strayCount (h : d.Resembles e) (q : QFrame) : (e.strayCount q).1 = (d.strayCount q).1 ∧ d.Resembles (e.strayCount q).2 ∧
    (e.strayCount q).2.swc = e.swc ∧ (e.strayCount q).2.out = e.out := by
  have hcond : (q.stray ∨ e.takenLocally q.f.hdr ∨ 2 ≤ e.bankNow q.f.hdr.epoch) ↔ (q.stray ∨ d.takenLocally q.f.hdr ∨ 2 ≤ d.bankNow q.f.hdr.epoch) := by
    obtain ⟨⟨_, _, _, rfl⟩, -⟩ := h
    exact Iff.rfl
  unfold Dev.strayCount
  by_cases hc : q.stray ∨ d.takenLocally q.f.hdr ∨ 2 ≤ d.bankNow q.f.hdr.epoch
  · rw [if_pos hc, if_pos (hcond.2 hc)]
    exact ⟨rfl, h, rfl, rfl⟩
  · rw [if_neg hc, if_neg (fun hn => hc (hcond.1 hn))]
    exact ⟨rfl, h.count .., by simp only [Dev.count_frame], by simp⟩

/-- It is the same frame. -/
theorem Dev.strayCount_last (d : Dev) (q : QFrame) : ∃ b, (d.strayCount q).1 = { q with stray := b } := by
  unfold Dev.strayCount
  split
  · exact ⟨q.stray, rfl⟩
  · exact ⟨_, rfl⟩

/-! ### Copies that no session takes -/

theorem Dev.mirAt_off (hoff : mirrorsOff d) (p point : Nat) (f : Frame) : d.mirAt p point f = d := by
  rw [Dev.mirAt]
  split
  · refine List.foldlRecOn (motive := fun y : Dev => y = d) _ _ rfl fun y hy i hi => ?_
    have hen := hoff i (List.mem_range.1 hi)
    have hno : y.mirMatch i p f = false := by
      rw [hy]
      simp [Dev.mirMatch, hen]
    rw [hno]
    exact (if_neg (by simp)).trans hy
  · rfl

/-! ### The frame leaves its crossing -/

/-- The package once the first frame of `inp` has left its crossing. -/
def Dev.taken (inp : Nat) (d : Dev) : Dev := if inp < 24 then d.crossed inp (d.link inp).rx.tail else d

/-- The package with a frame of (`inp`, `cls`) at hand. -/
def Dev.atHand (inp cls : Nat) (d : Dev) : Dev := (d.taken inp).newLast inp cls

theorem Dev.frameArrive_taken {inp : Nat} (h : inp < 24 → (d.link inp).rx.head? = some f ∧ (d.link inp).rxFree = 0) :
    d.frameArrive inp f tie = (d.taken inp).frameIn inp f tie false := by
  rw [Dev.frameArrive, Dev.taken]
  by_cases hinp : inp < 24
  · obtain ⟨hhead, hfree⟩ := h hinp
    have hfree' : (nth d.links inp {}).rxFree = 0 := hfree
    rw [if_neg (by omega), if_pos hinp, Dev.link]
    change (nth d.links inp {}).rx.head? = some f at hhead
    cases hrx : (nth d.links inp {}).rx with
    | nil => rw [hrx] at hhead; cases hhead
    | cons g rest =>
      rw [hrx] at hhead
      cases hhead
      dsimp only
      rw [if_pos rfl, hfree', List.tail_cons]
      rfl
  · rw [if_pos (by omega), if_neg hinp]

theorem Dev.taken_links (inp : Nat) (d : Dev) : ∃ ls, d.taken inp = { d with links := ls } := by
  unfold Dev.taken
  split
  · exact ⟨_, rfl⟩
  · exact ⟨d.links, rfl⟩

theorem Dev.resembles_atHand (inp cls : Nat) (d : Dev) : d.Resembles (d.atHand inp cls) := by
  unfold Dev.atHand Dev.taken
  split
  · exact (d.resembles_newLast inp cls).modLink (fun l => { l with rx := _, rxFree := l.rxFree - 1 }) (fun _ => rfl) (fun _ => rfl) (fun _ => rfl) inp
  · exact d.resembles_newLast inp cls

theorem Dev.atHand_keeps (inp cls : Nat) (d : Dev) : (d.atHand inp cls).swc = (d.newLast inp cls).swc ∧ (d.atHand inp cls).out = d.out := by
  unfold Dev.atHand
  obtain ⟨ls, hls⟩ := d.taken_links inp
  rw [hls]
  exact ⟨rfl, rfl⟩

/-- A frame that is no DATA frame comes in: it waits behind an older one of its input and class, or is placed. -/
theorem Dev.frameArrive_admits {inp : Nat} (hoff : mirrorsOff d) (h : inp < 24 → (d.link inp).rx.head? = some f ∧ (d.link inp).rxFree = 0)
    (hdest : ¬ (inp < 24 ∧ d.badDest f.hdr.dest = true)) (hop : f.hdr.opcode ≠ 0x07) :
    d.frameArrive inp f tie = if (d.atHand inp f.hdr.cls).behind { Sys2Proof.arrived f inp with last := true }
      then (d.atHand inp f.hdr.cls).recvWait { Sys2Proof.arrived f inp with last := true }
      else (d.atHand inp f.hdr.cls).admitFrame { Sys2Proof.arrived f inp with last := true } tie := by
  rw [Dev.frameArrive_taken h, Dev.atHand]
  obtain ⟨ls, hls⟩ := d.taken_links inp
  rw [hls]
  have hoff' : mirrorsOff { d with links := ls } := hoff
  rw [Dev.frameIn]
  dsimp only
  rw [if_neg (show ¬ (inp < 24 ∧ ({ d with links := ls } : Dev).badDest f.hdr.dest = true) from hdest), Dev.mirAt_off hoff', if_neg hop]
  rfl

/-- A DATA frame comes in. -/
theorem Dev.frameArrive_data {inp : Nat} (hoff : mirrorsOff d) (h : inp < 24 → (d.link inp).rx.head? = some f ∧ (d.link inp).rxFree = 0)
    (hdest : ¬ (inp < 24 ∧ d.badDest f.hdr.dest = true)) (hop : f.hdr.opcode = 0x07) :
    d.frameArrive inp f tie = if (d.taken inp).behind (Sys2Proof.arrived f inp) ∧ !(d.taken inp).swc.recvSpace.any (QFrame.leads inp f.hdr.cls)
      then (d.taken inp).recvWait (Sys2Proof.arrived f inp) else (d.taken inp).attachData (Sys2Proof.arrived f inp) tie := by
  rw [Dev.frameArrive_taken h]
  obtain ⟨ls, hls⟩ := d.taken_links inp
  rw [hls]
  have hoff' : mirrorsOff { d with links := ls } := hoff
  rw [Dev.frameIn]
  dsimp only
  rw [if_neg (show ¬ (inp < 24 ∧ ({ d with links := ls } : Dev).badDest f.hdr.dest = true) from hdest), Dev.mirAt_off hoff', if_pos hop]
  rfl

end

end Sys2Proof.Machine


/-!
SUPPORT. O47, the place of a frame in a queue: in the head cache, in the partition, or in receive space (R384, R385, R389–R391).
-/
namespace Sys2Proof.Machine

/-! ### Free slots of the partition -/

theorem mem_freeCells {used : List Nat} {g k y : Nat} (hy : y ∈ freeCells used g k) : y / 2 ^ 22 = g ∧ y ∉ used := by
  obtain ⟨hmem, hfree⟩ := List.mem_filter.1 (List.mem_of_mem_take hy)
  obtain ⟨i, hi, rfl⟩ := List.mem_map.1 hmem
  have hlt : i < 2 ^ 22 := by
    have := List.mem_range.1 hi
    omega
  have hgroup : (g * 2 ^ 22 + i) / 2 ^ 22 = g := by omega
  refine ⟨hgroup, fun hused => ?_⟩
  have hin : g * 2 ^ 22 + i ∈ used.filter (fun c => c / 2 ^ 22 == g) := List.mem_filter.2 ⟨hused, beq_iff_eq.2 hgroup⟩
  rw [List.contains_iff_mem.2 hin] at hfree
  cases hfree

theorem mem_cutCells {gs : List Nat} {y : Nat} : ∀ {fuel : Nat} {used : List Nat} {next n : Nat}, y ∈ (cutCells gs fuel used next n).1 →
    y / 2 ^ 22 ∈ gs ∧ y ∉ used
  | 0, _, _, _, h => absurd h (List.not_mem_nil)
  | fuel + 1, used, next, n, h => by
    rw [cutCells] at h
    split at h
    · cases h
    · dsimp only at h
      rcases List.mem_append.1 h with h | h
      · obtain ⟨g, hg, hy⟩ := List.mem_flatMap.1 (List.mem_of_mem_take h)
        obtain ⟨hgroup, hfree⟩ := mem_freeCells hy
        refine ⟨?_, hfree⟩
        rw [hgroup]
        rcases List.mem_append.1 hg with hg | hg
        · exact (List.mem_filter.1 hg).1
        · exact (List.mem_filter.1 hg).1
      · obtain ⟨hgroup, hfree⟩ := mem_cutCells h
        exact ⟨hgroup, fun hu => hfree (List.mem_append_left _ hu)⟩

section
variable {d e : Dev} {o tie : Nat} {q y : QFrame}

/-- The slots that a frame takes are free, in bank groups in power. -/
theorem Dev.spillAt_takes (q : QFrame) (d : Dev) : ∃ cs next, d.spillAt q = ({ q with spilled := true, cells := q.cells ++ cs },
    { d with swc := { d.swc with spillNext := next } }) ∧ ∀ c ∈ cs, c ∉ d.usedCells ∧ c ∉ q.cells ∧ d.domOn (20 + c / 2 ^ 22) = true := by
  refine ⟨_, _, rfl, fun c hc => ?_⟩
  obtain ⟨hgroup, hfree⟩ := mem_cutCells hc
  rw [List.mem_append, not_or] at hfree
  exact ⟨hfree.1, hfree.2, (List.mem_filter.1 hgroup).2⟩

/-! ### The place of a frame -/

theorem Dev.place_caches (hlim : e.atLimit y = false) (hroom : e.mustSpill o y = false) : e.place o y tie = e.cacheFrame o y := by
  rw [Dev.place, hlim, hroom, if_neg Bool.false_ne_true, if_neg Bool.false_ne_true]

theorem Dev.place_limit (hlim : e.atLimit y = true) : e.place o y tie = e.recvWait y := by
  rw [Dev.place, if_pos hlim]

/-- Where the partition has room, none is made. -/
theorem Dev.makeRoom_room {fl : Bool} {n : Nat} (h : e.spillRoom y = some fl) : e.makeRoom (n + 1) y tie = (some fl, e) := by
  rw [Dev.makeRoom, h]

/-- Where none can be made, nothing is evicted. -/
theorem Dev.makeRoom_none {n : Nat} (h : e.spillRoom y = none) (hno : e.pushout = false ∨ y.f.hdr.cls = 2 ∨ e.victimVoq tie = none) :
    e.makeRoom (n + 1) y tie = (none, e) := by
  rw [Dev.makeRoom, h]
  dsimp only
  split
  · next hgo =>
    rcases hno with hno | hno | hno
    · exact absurd hgo.1 (by simp [hno])
    · exact absurd hno hgo.2
    · rw [hno]
  · rfl

theorem Dev.place_spills {fl : Bool} (hlim : e.atLimit y = false) (hspill : e.mustSpill o y = true) (h : e.spillRoom y = some fl) :
    e.place o y tie = e.spillFrame o y (some fl) := by
  rw [Dev.place, hlim, hspill, if_neg Bool.false_ne_true, if_pos rfl, Dev.placeFuel, Dev.makeRoom_room h]

theorem Dev.place_waits (hlim : e.atLimit y = false) (hspill : e.mustSpill o y = true) (h : e.spillRoom y = none)
    (hno : e.pushout = false ∨ y.f.hdr.cls = 2 ∨ e.victimVoq tie = none) : e.place o y tie = e.recvWait y := by
  rw [Dev.place, hlim, hspill, if_neg Bool.false_ne_true, if_pos rfl, Dev.placeFuel, Dev.makeRoom_none h hno]
  rfl

/-! ### What the places leave -/

theorem Dev.freeFrame_links (q : QFrame) (d : Dev) : ∃ ls, d.freeFrame q = { d with links := ls } := by
  unfold Dev.freeFrame Dev.freeSlots
  split
  · exact ⟨d.links, rfl⟩
  · split
    · exact ⟨_, rfl⟩
    · exact ⟨d.links, rfl⟩

/-- A frame at the tail of its queue. -/
theorem Dev.enqueue_adds (o : Nat) (q : QFrame) (d : Dev) : (d.enqueue o q).voq q.inp o q.f.hdr.cls = d.voq q.inp o q.f.hdr.cls ++ [q] ∧
    ∀ i p k, (i, p, k) ≠ (q.inp, o, q.f.hdr.cls) → (d.enqueue o q).voq i p k = d.voq i p k :=
  ⟨Dev.voq_setVoq_same .., fun _ _ _ h => Dev.voq_setVoq_other d _ h⟩

theorem Dev.cacheFrame_adds (o : Nat) (q : QFrame) (d : Dev) :
    (d.cacheFrame o q).voq q.inp o q.f.hdr.cls = d.voq q.inp o q.f.hdr.cls ++ [{ q with paid := true }] ∧
    (∀ i p k, (i, p, k) ≠ (q.inp, o, q.f.hdr.cls) → (d.cacheFrame o q).voq i p k = d.voq i p k) ∧
    (d.cacheFrame o q).swc.recvSpace = d.swc.recvSpace ∧ (d.cacheFrame o q).swc.heldFrames = d.swc.heldFrames ∧
    (d.cacheFrame o q).out = d.out := by
  obtain ⟨ls, hls⟩ := d.freeFrame_links q
  rw [Dev.cacheFrame, hls]
  obtain ⟨hsame, hother⟩ := Dev.enqueue_adds o { q with paid := true } { d with links := ls }
  exact ⟨hsame, hother, rfl, rfl, rfl⟩

theorem Dev.spillFrame_adds (o : Nat) (q : QFrame) (fl : Bool) (d : Dev) : ∃ cs,
    (∀ c ∈ cs, c ∉ d.usedCells ∧ c ∉ q.cells ∧ d.domOn (20 + c / 2 ^ 22) = true) ∧
    (d.spillFrame o q (some fl)).voq q.inp o q.f.hdr.cls =
      d.voq q.inp o q.f.hdr.cls ++ [{ q with spilled := true, inFloor := fl, cells := q.cells ++ cs, paid := true }] ∧
    ∀ i p k, (i, p, k) ≠ (q.inp, o, q.f.hdr.cls) → (d.spillFrame o q (some fl)).voq i p k = d.voq i p k := by
  obtain ⟨ls, hls⟩ := d.freeFrame_links q
  obtain ⟨cs, next, hspill, hcs⟩ := Dev.spillAt_takes { q with inFloor := fl, paid := true } { d with links := ls }
  have hframe : d.spillFrame o q (some fl) = (({ d with links := ls, swc := { d.swc with spillNext := next } } : Dev).enqueue o
      { q with spilled := true, inFloor := fl, cells := q.cells ++ cs, paid := true }).swcCount q.inp 1 q.frames.length := by
    rw [Dev.spillFrame, hls]
    dsimp only
    rw [hspill]
  obtain ⟨hsame, hother⟩ := Dev.enqueue_adds o { q with spilled := true, inFloor := fl, cells := q.cells ++ cs, paid := true }
    { d with links := ls, swc := { d.swc with spillNext := next } }
  have hcount : ∀ (g : Dev) i p k, (g.swcCount q.inp 1 q.frames.length).voq i p k = g.voq i p k := fun g i p k =>
    Dev.voq_swc (by simp [Dev.swcCount]) i p k
  refine ⟨cs, hcs, ?_, fun i p k h => ?_⟩
  · rw [hframe, hcount]
    exact hsame
  · rw [hframe, hcount]
    exact hother i p k h

end

end Sys2Proof.Machine


/-!
SUPPORT. O47, a frame that comes first in its input and class: where it stands then (R382, R384, R389, R391, R395).
-/
namespace Sys2Proof.Machine

section
variable {d e : Dev} {f : Frame} {inp tie : Nat} {q x : QFrame}

/-- A frame that no other of its input and class has followed. -/
def leading (f : Frame) (inp : Nat) : QFrame := { Sys2Proof.arrived f inp with last := true }

/-- The package with the frame in hand, its lookup to be acted on. -/
structure Dev.Hand (inp cls : Nat) (d e : Dev) : Prop where
  like : d.Resembles e
  swc : e.swc = (d.newLast inp cls).swc
  out : e.out = d.out

/-- The frame goes where its lookup says. -/
def Dev.goes (l : Lookup) (x : QFrame) (tie : Nat) (d : Dev) : Dev :=
  match l with
  | .to o c => d.place o { x with credit := c } tie
  | .held => (d.freeFrame x).holdFrame { x with paid := true }
  | .wait => d.recvWait x

theorem Dev.admitFrame_goes (hlike : d.Resembles e) (hop : q.f.hdr.opcode ≠ 0x07) :
    e.admitFrame q tie = (e.strayCount q).2.goes (d.lookup q tie) (d.strayCount q).1 tie := by
  obtain ⟨hframe, hlike', -⟩ := hlike.strayCount q
  obtain ⟨b, hb⟩ := d.strayCount_last q
  have hlook : d.lookup (d.strayCount q).1 tie = d.lookup q tie := by
    rw [hb]
    rfl
  rw [Dev.admitFrame, if_neg hop]
  dsimp only
  rw [hlike'.lookup, hframe, hlook]
  rfl

theorem Dev.frameArrive_goes (hoff : mirrorsOff d) (h : inp < 24 → (d.link inp).rx.head? = some f ∧ (d.link inp).rxFree = 0)
    (hdest : ¬ (inp < 24 ∧ d.badDest f.hdr.dest = true)) (hop : f.hdr.opcode ≠ 0x07) (hrecv : d.swc.recvSpace = []) :
    ∃ e, d.Hand inp f.hdr.cls e ∧ d.frameArrive inp f tie = e.goes (d.lookup (leading f inp) tie) (d.strayCount (leading f inp)).1 tie := by
  have hlike := d.resembles_atHand inp f.hdr.cls
  obtain ⟨hswc, hout⟩ := d.atHand_keeps inp f.hdr.cls
  obtain ⟨-, hlike', hswc', hout'⟩ := hlike.strayCount (leading f inp)
  refine ⟨_, ⟨hlike', hswc'.trans hswc, hout'.trans hout⟩, ?_⟩
  have hbehind : (d.atHand inp f.hdr.cls).behind (leading f inp) = false := by
    rw [Dev.behind, hswc, Dev.swc_newLast, hrecv]
    rfl
  refine (Dev.frameArrive_admits hoff h hdest hop).trans ?_
  change (if (d.atHand inp f.hdr.cls).behind (leading f inp) = true then _ else (d.atHand inp f.hdr.cls).admitFrame (leading f inp) tie) = _
  rw [hbehind, if_neg Bool.false_ne_true]
  exact Dev.admitFrame_goes hlike hop

namespace Dev.Hand
variable {cls : Nat} (h : d.Hand inp cls e)
include h

theorem voq (i p k : Nat) : e.voq i p k = (d.newLast inp cls).voq i p k := Dev.voq_swc (congrArg Swc.voqs h.swc) i p k

theorem recvSpace (hrecv : d.swc.recvSpace = []) : e.swc.recvSpace = [] := by rw [h.swc, Dev.swc_newLast, hrecv]; rfl

theorem heldFrames : e.swc.heldFrames = (d.newLast inp cls).swc.heldFrames := congrArg Swc.heldFrames h.swc

theorem voqs : e.swc.voqs = (d.newLast inp cls).swc.voqs := congrArg Swc.voqs h.swc

/-- Whether the frame must spill. -/
theorem mustSpill_eq {o n : Nat} {y : QFrame} (hi : y.inp = inp) (hc : y.f.hdr.cls = cls) (hn : y.bytes = n) : e.mustSpill o y =
    (((d.newLast inp cls).voq inp o cls).any (·.spilled) || !decide (d.headBytes inp + n ≤ d.headLimit inp)) := by
  rw [Dev.mustSpill, hi, hc, hn, h.voq, h.like.headRoom, Dev.headRoom]

end Dev.Hand

end

section
variable {inp : Fin 35} {f : Frame} {tie : Nat} {s : State} {o : Nat} {c : Option Nat}

section
variable (hrun : s.dev.running = true) (hoff : mirrorsOff s.dev)
  (hcross : inp.val < 24 → (s.dev.link inp.val).rx.head? = some f ∧ (s.dev.link inp.val).rxFree = 0)
  (hdest : ¬ (inp.val < 24 ∧ s.dev.badDest f.hdr.dest = true)) (hop : f.hdr.opcode ≠ 0x07)
include hrun hoff hcross hdest hop

section
variable (hrecv : s.dev.swc.recvSpace = [])
include hrecv

theorem frameArrive_cached (hl : s.dev.lookup (leading f inp) tie = .to o c) (hlim : s.dev.atLimit (leading f inp) = false)
    (hhead : ((s.dev.newLast inp f.hdr.cls).voq inp o f.hdr.cls).any (·.spilled) = false)
    (hroom : s.dev.headBytes inp + (leading f inp).bytes ≤ s.dev.headLimit inp) : ∃ t, exec (.frameArrive inp f tie) s = .next t ∧
      t.store = s.store ∧ t.dev.out = s.dev.out ∧ t.dev.voq inp o f.hdr.cls = (s.dev.newLast inp f.hdr.cls).voq inp o f.hdr.cls ++
        [{ (s.dev.strayCount (leading f inp)).1 with credit := c, paid := true }] ∧ t.dev.swc.recvSpace = [] ∧
      t.dev.swc.heldFrames = (s.dev.newLast inp f.hdr.cls).swc.heldFrames ∧
      (∀ i p k, (i, p, k) ≠ (inp.val, o, f.hdr.cls) → t.dev.voq i p k = (s.dev.newLast inp f.hdr.cls).voq i p k) := by
  obtain ⟨e, h, hgo⟩ := Dev.frameArrive_goes (tie := tie) hoff hcross hdest hop hrecv
  obtain ⟨b, hb⟩ := s.dev.strayCount_last (leading f inp)
  rw [hl, hb] at hgo
  have hplace := Dev.place_caches (e := e) (o := o) (tie := tie) (y := { leading f inp with stray := b, credit := c })
    ((h.like.atLimit _).trans hlim) ((h.mustSpill_eq (n := (leading f inp).bytes) rfl rfl rfl).trans (by rw [hhead, decide_eq_true hroom]; rfl))
  obtain ⟨hadd, hother, hrecv', hheld, hout⟩ := Dev.cacheFrame_adds o { leading f inp with stray := b, credit := c } e
  refine ⟨_, onDev_leaves hrun (hgo.trans hplace), rfl, hout.trans h.out, ?_, hrecv'.trans (h.recvSpace hrecv), hheld.trans h.heldFrames,
    fun i p k hne => (hother i p k hne).trans (h.voq i p k)⟩
  rw [hb, ← h.voq]
  exact hadd

theorem frameArrive_spilled (hl : s.dev.lookup (leading f inp) tie = .to o c) (hlim : s.dev.atLimit (leading f inp) = false)
    (hspill : ((s.dev.newLast inp f.hdr.cls).voq inp o f.hdr.cls).any (·.spilled) = true ∨
      s.dev.headLimit inp < s.dev.headBytes inp + (leading f inp).bytes) {fl : Bool} (hroom : s.dev.spillRoom (leading f inp) = some fl) :
    ∃ t cs, exec (.frameArrive inp f tie) s = .next t ∧ t.store = s.store ∧
      (∀ y ∈ cs, y ∉ s.dev.usedCells ∧ s.dev.domOn (20 + y / 2 ^ 22) = true) ∧
      t.dev.voq inp o f.hdr.cls = (s.dev.newLast inp f.hdr.cls).voq inp o f.hdr.cls ++
        [{ (s.dev.strayCount (leading f inp)).1 with credit := c, spilled := true, inFloor := fl, cells := cs, paid := true }] ∧
      (∀ i p k, (i, p, k) ≠ (inp.val, o, f.hdr.cls) → t.dev.voq i p k = (s.dev.newLast inp f.hdr.cls).voq i p k) := by
  obtain ⟨e, h, hgo⟩ := Dev.frameArrive_goes (tie := tie) hoff hcross hdest hop hrecv
  obtain ⟨b, hb⟩ := s.dev.strayCount_last (leading f inp)
  rw [hl, hb] at hgo
  have hplace := Dev.place_spills (e := e) (o := o) (tie := tie) (y := { leading f inp with stray := b, credit := c })
    ((h.like.atLimit _).trans hlim) ((h.mustSpill_eq (n := (leading f inp).bytes) rfl rfl rfl).trans
      (Bool.or_eq_true_iff.2 (hspill.imp id fun hlt => by rw [decide_eq_false (Nat.not_le.2 hlt)]; rfl))) ((h.like.spillRoom _).trans hroom)
  obtain ⟨cs, hcs, hadd, hother⟩ := Dev.spillFrame_adds o { leading f inp with stray := b, credit := c } fl e
  refine ⟨_, cs, onDev_leaves hrun (hgo.trans hplace), rfl, fun y hy => ?_, ?_, fun i p k hne => (hother i p k hne).trans (h.voq i p k)⟩
  · obtain ⟨hused, -, hon⟩ := hcs y hy
    rw [h.like.usedCells] at hused
    refine ⟨hused, ?_⟩
    obtain ⟨⟨_, _, _, rfl⟩, -⟩ := h.like
    exact hon
  · rw [hb, ← h.voq]
    exact hadd

/-- What waits in receive space stands there alone. -/
theorem frameArrive_waits {y : QFrame} (hwait : ∀ e, s.dev.Hand inp f.hdr.cls e →
      e.goes (s.dev.lookup (leading f inp) tie) (s.dev.strayCount (leading f inp)).1 tie = e.recvWait y) :
    ∃ t, exec (.frameArrive inp f tie) s = .next t ∧ t.store = s.store ∧ t.dev.swc.recvSpace = [y] ∧
      t.dev.swc.voqs = (s.dev.newLast inp f.hdr.cls).swc.voqs := by
  obtain ⟨e, h, hgo⟩ := Dev.frameArrive_goes (tie := tie) hoff hcross hdest hop hrecv
  refine ⟨_, onDev_leaves hrun (hgo.trans (hwait e h)), rfl, ?_, h.voqs⟩
  change e.swc.recvSpace ++ [y] = [y]
  rw [h.recvSpace hrecv]
  rfl

theorem frameArrive_roomless (hl : s.dev.lookup (leading f inp) tie = .to o c) (hlim : s.dev.atLimit (leading f inp) = false)
    (hspill : ((s.dev.newLast inp f.hdr.cls).voq inp o f.hdr.cls).any (·.spilled) = true ∨
      s.dev.headLimit inp < s.dev.headBytes inp + (leading f inp).bytes) (hroom : s.dev.spillRoom (leading f inp) = none)
    (hno : s.dev.pushout = false ∨ f.hdr.cls = 2 ∨ s.dev.victimVoq tie = none) : ∃ t, exec (.frameArrive inp f tie) s = .next t ∧
      t.store = s.store ∧ t.dev.swc.recvSpace = [{ (s.dev.strayCount (leading f inp)).1 with credit := c }] ∧
      t.dev.swc.voqs = (s.dev.newLast inp f.hdr.cls).swc.voqs := by
  refine frameArrive_waits hrun hoff hcross hdest hop hrecv fun e h => ?_
  obtain ⟨b, hb⟩ := s.dev.strayCount_last (leading f inp)
  rw [hl, hb]
  refine Dev.place_waits (e := e) (o := o) (tie := tie) (y := { leading f inp with stray := b, credit := c })
    ((h.like.atLimit _).trans hlim) ?_ ((h.like.spillRoom _).trans hroom) (hno.imp h.like.pushout.trans fun hc => hc.imp_right h.like.victimVoq)
  exact (h.mustSpill_eq (n := (leading f inp).bytes) rfl rfl rfl).trans
    (Bool.or_eq_true_iff.2 (hspill.imp id fun hlt => by rw [decide_eq_false (Nat.not_le.2 hlt)]; rfl))

theorem frameArrive_limited (hl : s.dev.lookup (leading f inp) tie = .to o c) (hlim : s.dev.atLimit (leading f inp) = true) :
    ∃ t, exec (.frameArrive inp f tie) s = .next t ∧ t.store = s.store ∧
      t.dev.swc.recvSpace = [{ (s.dev.strayCount (leading f inp)).1 with credit := c }] ∧
      t.dev.swc.voqs = (s.dev.newLast inp f.hdr.cls).swc.voqs := by
  refine frameArrive_waits hrun hoff hcross hdest hop hrecv fun e h => ?_
  obtain ⟨b, hb⟩ := s.dev.strayCount_last (leading f inp)
  rw [hl, hb]
  exact Dev.place_limit ((h.like.atLimit _).trans hlim)

theorem frameArrive_held (hl : s.dev.lookup (leading f inp) tie = .held) : ∃ t, exec (.frameArrive inp f tie) s = .next t ∧ t.store = s.store ∧
    t.dev.swc.heldFrames = (s.dev.newLast inp f.hdr.cls).swc.heldFrames ++ [{ (s.dev.strayCount (leading f inp)).1 with paid := true }] ∧
    t.dev.swc.voqs = (s.dev.newLast inp f.hdr.cls).swc.voqs := by
  obtain ⟨e, h, hgo⟩ := Dev.frameArrive_goes (tie := tie) hoff hcross hdest hop hrecv
  rw [hl] at hgo
  obtain ⟨ls, hls⟩ := e.freeFrame_links (s.dev.strayCount (leading f inp)).1
  have hgo' := hgo.trans (congrArg (Dev.holdFrame { (s.dev.strayCount (leading f inp)).1 with paid := true }) hls)
  refine ⟨_, onDev_leaves hrun hgo', rfl, ?_, h.voqs⟩
  rw [← h.heldFrames]
  rfl

theorem frameArrive_lookupWaits (hl : s.dev.lookup (leading f inp) tie = .wait) : ∃ t, exec (.frameArrive inp f tie) s = .next t ∧
    t.store = s.store ∧ t.dev.swc.recvSpace = [(s.dev.strayCount (leading f inp)).1] ∧
    t.dev.swc.voqs = (s.dev.newLast inp f.hdr.cls).swc.voqs :=
  frameArrive_waits hrun hoff hcross hdest hop hrecv fun e _ => by rw [hl]; rfl

end

/-- A frame behind an older one of its input and class waits too (R383). -/
theorem frameArrive_behind (hbehind : s.dev.swc.recvSpace.any (fun w => w.inp == inp.val && w.f.hdr.cls == f.hdr.cls) = true) :
    ∃ t, exec (.frameArrive inp f tie) s = .next t ∧ t.store = s.store ∧
      t.dev.swc.recvSpace = (s.dev.newLast inp f.hdr.cls).swc.recvSpace ++ [leading f inp] ∧
      t.dev.swc.voqs = (s.dev.newLast inp f.hdr.cls).swc.voqs := by
  obtain ⟨hswc, -⟩ := s.dev.atHand_keeps inp f.hdr.cls
  have hin : (s.dev.atHand inp f.hdr.cls).behind (leading f inp) = true := by
    rw [Dev.behind, hswc, Dev.swc_newLast, List.any_map, ← hbehind]
    congr 1
    funext w
    obtain ⟨b, hb⟩ := QFrame.closed_last inp f.hdr.cls w
    rw [Function.comp_apply, hb]
    rfl
  have hgo : s.dev.frameArrive inp f tie = (s.dev.atHand inp f.hdr.cls).recvWait (leading f inp) :=
    (Dev.frameArrive_admits hoff hcross hdest hop).trans (if_pos hin)
  refine ⟨_, onDev_leaves hrun hgo, rfl, ?_, (congrArg Swc.voqs hswc :)⟩
  change (s.dev.atHand inp f.hdr.cls).swc.recvSpace ++ _ = _
  rw [hswc]

end

end

end Sys2Proof.Machine


/-!
SUPPORT. O47, what an arrival leaves: the receive crossing, the queues of other classes, and a frame with an impossible destination
(R32, R43, R391).
-/
namespace Sys2Proof.Machine

section
variable {d e : Dev} {f : Frame} {inp tie : Nat}

/-! ### The receive crossings -/

/-- The frames in the receive crossings are as they were. -/
structure Dev.RxKept (d e : Dev) : Prop where
  rx : ∀ p, (e.link p).rx = (d.link p).rx

theorem Dev.rxKept_links (h : e.links = d.links) : d.RxKept e := ⟨fun p => by rw [Dev.link, h, ← Dev.link]⟩

theorem rxKept_switch : SwitchKeeps Dev.RxKept where
  refl d := Dev.rxKept_links rfl
  trans h k := ⟨fun p => (k.rx p).trans (h.rx p)⟩
  swc d f := Dev.rxKept_links rfl
  count d p i k := Dev.rxKept_links (by simp)
  event d := Dev.rxKept_links (by simp)
  seq d s v _ := Dev.rxKept_links (by simp)
  owed d p f := ⟨fun q => nth_modAt_keep (f := fun l : Link => { l with owed := f l.owed }) Link.rx (fun _ => rfl) d.links p q {}⟩

theorem Dev.rxKept_capture (d : Dev) (p : Nat) (c : ECls) (st code port det : Nat) : d.RxKept (d.capture p c st code port det) :=
  Dev.rxKept_links (by simp)

theorem Dev.rxKept_frameIn (d : Dev) (inp : Nat) (f : Frame) (tie : Nat) (paid : Bool) : d.RxKept (d.frameIn inp f tie paid) := by
  have h := rxKept_switch
  unfold Dev.frameIn
  dsimp only
  refine h.ite ?_ (h.trans (h.mirAt d ..) (h.ite (h.ite (h.recvWait ..) (h.attachData ..)) (h.trans (h.swc _ _) (h.ite (h.recvWait ..) (h.admitFrame ..)))))
  exact h.trans (h.trans (h.count d ..) (h.freeFrame ..)) (Dev.rxKept_capture ..)

/-- The first frame alone leaves its crossing (R43). -/
theorem Dev.frameArrive_crosses (hinp : inp < 24) (h : (d.link inp).rx.head? = some f) (hfree : (d.link inp).rxFree = 0) :
    ((d.frameArrive inp f tie).link inp).rx = (d.link inp).rx.tail := by
  have hlen : inp < d.links.length := by
    by_contra hge
    rw [Dev.link, nth, List.getElem?_eq_none (by omega)] at h
    cases h
  rw [Dev.frameArrive_taken fun _ => ⟨h, hfree⟩, (Dev.rxKept_frameIn ..).rx, Dev.taken, if_pos hinp, Dev.link, Dev.crossed, nth_modAt, if_pos ⟨rfl, hlen⟩]

theorem Dev.frameArrive_stays (hinp : inp < 24) (h : (d.link inp).rx.head? ≠ some f) : d.frameArrive inp f tie = d := by
  rw [Dev.frameArrive, if_neg (by omega)]
  change (nth d.links inp {}).rx.head? ≠ some f at h
  cases hrx : (nth d.links inp {}).rx with
  | nil => rfl
  | cons g rest =>
    rw [hrx] at h
    exact if_neg fun hg => h (congrArg some hg)

/-! ### An impossible destination -/

theorem Dev.frameArrive_discards (hinp : inp < 24) (h : (d.link inp).rx.head? = some f) (hfree : (d.link inp).rxFree = 0)
    (hbad : d.badDest f.hdr.dest = true) : (d.frameArrive inp f tie).swc = d.swc ∧
      (d.frameArrive inp f tie).rdp F.BLK_ERR_CNT_ERRORS (0x80 + inp) = min (d.rdp F.BLK_ERR_CNT_ERRORS (0x80 + inp) + 1) 0xFFFF ∧
      nget ((d.frameArrive inp f tie).link inp).owed (4 * f.hdr.cls + f.hdr.channel) =
        nget (d.link inp).owed (4 * f.hdr.cls + f.hdr.channel) + f.hdr.len := by
  have hlen : inp < d.links.length := by
    by_contra hge
    rw [Dev.link, nth, List.getElem?_eq_none (by omega)] at h
    cases h
  obtain ⟨k, hk⟩ : ∃ k, k = 4 * f.hdr.cls + f.hdr.channel := ⟨_, rfl⟩
  obtain ⟨c, hc⟩ : ∃ c, (d.taken inp).count (0x80 + inp) 9 1 = { d.taken inp with cnts := c } := by
    unfold Dev.count
    split
    · exact ⟨_, rfl⟩
    · exact ⟨_, rfl⟩
  have htaken : d.taken inp = d.crossed inp (d.link inp).rx.tail := if_pos hinp
  obtain ⟨g, hg⟩ : ∃ g : Dev, g = ({ d.taken inp with cnts := c } : Dev).freeSlots inp f.hdr.cls f.hdr.channel (f.hdr.len + 0) := ⟨_, rfl⟩
  have hgo : d.frameArrive inp f tie = g.capture (0x80 + inp) .config 0 0x10 inp
      (f.hdr.dest % 4096 + (f.hdr.srcNode % 4096) * 4096 + f.hdr.cls * 2 ^ 24) := by
    rw [Dev.frameArrive_taken fun _ => ⟨h, hfree⟩, Dev.frameIn]
    dsimp only
    rw [if_pos ⟨hinp, by rw [htaken]; exact hbad⟩, hc, hg]
    rfl
  have hfields : g.swc = d.swc ∧ g.regs = d.regs ∧ g.links = modAt (fun l => { l with owed := nset l.owed k (nget l.owed k + f.hdr.len) })
      (d.crossed inp (d.link inp).rx.tail).links inp := by
    rw [hg, htaken, Dev.freeSlots, if_pos hinp, hk]
    exact ⟨rfl, rfl, rfl⟩
  obtain ⟨hswc, hregs, hlinks⟩ := hfields
  rw [hgo]
  refine ⟨by rw [← hswc]; simp, ?_, ?_⟩
  · rw [Dev.errors_capture g (by omega), Dev.rdp, Dev.rdpi, Dev.word, hregs]
    rfl
  · have hsame : (g.capture (0x80 + inp) .config 0 0x10 inp (f.hdr.dest % 4096 + (f.hdr.srcNode % 4096) * 4096 + f.hdr.cls * 2 ^ 24)).links = g.links := by
      simp
    rw [Dev.link, hsame, hlinks, ← hk, nth_modAt, if_pos ⟨rfl, by rw [Dev.crossed]; simpa [length_modAt] using hlen⟩]
    dsimp only
    rw [nget_nset_same, Dev.crossed, nth_modAt, if_pos ⟨rfl, hlen⟩]
    rfl

/-! ### Queues that only grow -/

/-- No frame of a queue of the classes `K` leaves or changes place. -/
structure Dev.Grows (K : Nat → Prop) (d e : Dev) : Prop where
  grows : ∀ i o k, K k → d.voq i o k <+: e.voq i o k

variable {K : Nat → Prop}

theorem Dev.Grows.of_voqs (h : e.swc.voqs = d.swc.voqs) : d.Grows K e := ⟨fun i o k _ => by rw [Dev.voq_swc h]⟩

theorem Dev.Grows.trans {g : Dev} (h : d.Grows K e) (h' : e.Grows K g) : d.Grows K g :=
  ⟨fun i o k hk => (h.grows i o k hk).trans (h'.grows i o k hk)⟩

theorem Dev.Grows.of_adds {inp o cls : Nat} {l : List QFrame} (hsame : e.voq inp o cls = d.voq inp o cls ++ l)
    (hother : ∀ i p k, (i, p, k) ≠ (inp, o, cls) → e.voq i p k = d.voq i p k) : d.Grows K e := by
  refine ⟨fun i p k _ => ?_⟩
  by_cases h : (i, p, k) = (inp, o, cls)
  · cases h
    exact ⟨l, hsame.symm⟩
  · rw [hother i p k h]

theorem Dev.grows_enqueue (o : Nat) (q : QFrame) (d : Dev) : d.Grows K (d.enqueue o q) := .of_adds (Dev.enqueue_adds o q d).1 (Dev.enqueue_adds o q d).2

theorem Dev.grows_freeFrame (q : QFrame) (d : Dev) : d.Grows K (d.freeFrame q) := by
  obtain ⟨ls, hls⟩ := d.freeFrame_links q
  rw [hls]
  exact .of_voqs rfl

theorem Dev.grows_cacheFrame (o : Nat) (q : QFrame) (d : Dev) : d.Grows K (d.cacheFrame o q) := (Dev.grows_freeFrame q d).trans (Dev.grows_enqueue ..)

theorem Dev.grows_spillFrame (o : Nat) (q : QFrame) (room : Option Bool) (d : Dev) : d.Grows K (d.spillFrame o q room) := by
  cases room with
  | none => exact .of_voqs rfl
  | some fl =>
    obtain ⟨cs, -, hsame, hother⟩ := Dev.spillFrame_adds o q fl d
    exact .of_adds hsame hother

theorem Dev.voqs_mirAt (p point : Nat) (f : Frame) (d : Dev) : (d.mirAt p point f).swc.voqs = d.swc.voqs := by
  have hcopy : ∀ (e : Dev) s, (e.mirCopy s p point f).swc.voqs = e.swc.voqs := by
    intro e s
    unfold Dev.mirCopy
    dsimp only
    split
    · simp only [Dev.count_frame, Dev.wri_frame]
    · simp only [Dev.event_frame, Dev.count_frame, Dev.wri_frame]
  unfold Dev.mirAt
  split
  · refine List.foldl_keeps (g := fun e : Dev => e.swc.voqs) (fun e i => ?_) _ _
    refine (apply_ite (fun e : Dev => e.swc.voqs) ..).trans ?_
    rw [hcopy, ite_self]
  · rfl

/-- An eviction changes one queue. -/
theorem Dev.voqs_evict (v : Voq) (x : QFrame) (rest : List QFrame) (d : Dev) :
    (d.evict v x rest).swc.voqs = (d.setVoq v.inp v.out v.cls rest).swc.voqs := by
  have hfold : ∀ (l : List Frame) (e : Dev), (l.foldl (fun (d : Dev) f => d.mirAt x.inp 2 f) e).swc.voqs = e.swc.voqs := fun l e =>
    List.foldlRecOn (motive := fun y : Dev => y.swc.voqs = e.swc.voqs) l _ rfl fun y hy g _ => (Dev.voqs_mirAt ..).trans hy
  unfold Dev.evict
  simp only [Dev.swcCount, Dev.count_frame, hfold]

theorem Dev.victimVoq_bulk {v : Voq} (h : d.victimVoq tie = some v) : v ∈ d.swc.voqs ∧ v.cls = 2 ∧ v.q.any d.evictable = true := by
  rw [Dev.victimVoq_eq] at h
  obtain ⟨hmem, hsel⟩ := List.mem_filter.1 (List.mem_filter.1 (List.mem_of_getElem? h)).1
  rw [Bool.and_eq_true, beq_iff_eq] at hsel
  exact ⟨hmem, hsel.1, hsel.2⟩

/-- Making room evicts from BULK queues alone. -/
theorem Dev.grows_makeRoom : ∀ (n : Nat) (q : QFrame) (tie : Nat) (d : Dev), d.Grows (· ≠ 2) (d.makeRoom n q tie).2
  | 0, _, _, d => .of_voqs rfl
  | n + 1, q, tie, d => by
    rw [Dev.makeRoom]
    split
    · exact .of_voqs rfl
    · split
      · split
        · exact .of_voqs rfl
        · next v hv =>
          split
          · exact .of_voqs rfl
          · next x rest _ =>
            have hevict : d.Grows (· ≠ 2) (d.evict v x rest) := by
              refine ⟨fun i o k hk => ?_⟩
              rw [Dev.voq_swc (Dev.voqs_evict v x rest d), Dev.voq_setVoq_other]
              obtain ⟨-, hcls, -⟩ := Dev.victimVoq_bulk hv
              rw [hcls]
              rintro ⟨⟩
              exact hk rfl
            refine Dev.Grows.trans ?_ (Dev.grows_makeRoom n q tie _)
            split
            · dsimp only
              split
              · exact (hevict.trans (Dev.grows_makeRoom n _ tie _)).trans (Dev.grows_spillFrame ..)
              · exact hevict.trans (Dev.grows_cacheFrame ..)
            · exact hevict.trans (.of_voqs rfl)
            · exact hevict.trans (.of_voqs rfl)
      · exact .of_voqs rfl

theorem Dev.makeRoom_static {n : Nat} {q : QFrame} (h : d.pushout = false) : (d.makeRoom n q tie).2 = d := by
  cases n with
  | zero => rfl
  | succ n =>
    cases hroom : d.spillRoom q with
    | some fl => rw [Dev.makeRoom_room hroom]
    | none => rw [Dev.makeRoom_none hroom (.inl h)]

theorem Dev.grows_place (o : Nat) (q : QFrame) (tie : Nat) {k : Nat} (h : d.pushout = false ∨ k ≠ 2) : d.Grows (· = k) (d.place o q tie) := by
  unfold Dev.place
  split
  · exact .of_voqs rfl
  · split
    · refine Dev.Grows.trans ?_ (Dev.grows_spillFrame ..)
      rcases h with h | h
      · exact .of_voqs (by rw [Dev.makeRoom_static h])
      · exact ⟨fun i p j hj => (Dev.grows_makeRoom ..).grows i p j (hj ▸ h)⟩
    · exact Dev.grows_cacheFrame ..

end

end Sys2Proof.Machine


/-!
SUPPORT. O47, a DATA frame goes directly behind its request frame (R466), and the arrival of a frame, assembled.
-/
namespace Sys2Proof.Machine

/-! ### The request frame -/

theorem mapFirst_at {α : Type} {p : α → Bool} {g : α → α} {l r : List α} {y : α} (hl : l.any p = false) (hy : p y = true) :
    mapFirst p g (l ++ y :: r) = l ++ g y :: r := by
  induction l with
  | nil => simp [mapFirst, hy]
  | cons a l ih =>
    rw [List.any_cons, Bool.or_eq_false_iff] at hl
    rw [List.cons_append, mapFirst, hl.1, if_neg Bool.false_ne_true, ih hl.2, List.cons_append]

theorem find?_zipIdx_at {p : QFrame → Bool} {l : List QFrame} {y : QFrame} (hl : l.any p = false) (hy : p y = true) :
    (l ++ [y]).zipIdx.find? (fun e => p e.1) = some (y, l.length) := by
  rw [List.zipIdx_append, List.find?_append, List.find?_eq_none.2 fun e he hp => ?_]
  · simp [hy]
  · have hmem : e.1 ∈ l := by
      obtain ⟨a, i⟩ := e
      exact (List.mem_zipIdx' he).2 ▸ List.getElem_mem ..
    rw [List.any_eq_false] at hl
    exact hl e.1 hmem hp

section
variable {d : Dev} {f : Frame} {inp o tie : Nat} {l r : List QFrame} {y : QFrame}

/-- The queue in which the request frame stands is found. -/
theorem Dev.find?_leads {cls : Nat} (hy : y.leads inp cls = true) (hqueue : d.voq inp o cls = l ++ [y])
    (hothers : ∀ v ∈ d.swc.voqs, (v.inp, v.out, v.cls) ≠ (inp, o, cls) → v.q.any (QFrame.leads inp cls) = false) :
    d.swc.voqs.find? (fun v => v.q.any (QFrame.leads inp cls)) = some ⟨inp, o, cls, l ++ [y]⟩ := by
  rw [Dev.voq_eq] at hqueue
  cases hfind : d.swc.voqs.find? (Voq.isFor inp o cls) with
  | none => rw [hfind] at hqueue; simp at hqueue
  | some v =>
    rw [hfind, Option.map_some, Option.getD_some] at hqueue
    obtain ⟨hfor, as, bs, hvoqs, has⟩ := List.find?_eq_some_iff_append.1 hfind
    have hv : v = ⟨inp, o, cls, l ++ [y]⟩ := by
      obtain ⟨vi, vo, vc, vq⟩ := v
      obtain ⟨rfl, rfl, rfl⟩ : vi = inp ∧ vo = o ∧ vc = cls := by simpa using Voq.isFor_iff.1 hfor
      rw [← show vq = l ++ [y] from hqueue]
    rw [hv] at hvoqs
    refine List.find?_eq_some_iff_append.2 ⟨by simp [hy], as, bs, hvoqs, fun a ha => ?_⟩
    rw [hothers a (hvoqs ▸ List.mem_append_left _ ha) fun hk => ?_]
    · rfl
    · have := has a ha
      rw [Voq.isFor_iff.2 hk] at this
      cases this

/-- The DATA frame. -/
def dataFrame (f : Frame) (inp : Nat) : QFrame := Sys2Proof.arrived f inp

theorem Dev.attachData_recv (hy : y.leads inp f.hdr.cls = true) (hl : l.any (QFrame.leads inp f.hdr.cls) = false)
    (h : d.swc.recvSpace = l ++ y :: r) :
    d.attachData (dataFrame f inp) tie = { d with swc := { d.swc with recvSpace := l ++ y.pair f :: r } } := by
  have hany : d.swc.recvSpace.any (QFrame.leads inp f.hdr.cls) = true := by rw [h]; simp [hy]
  have hmap : mapFirst (QFrame.leads inp f.hdr.cls) (QFrame.pair f) d.swc.recvSpace = l ++ y.pair f :: r := by rw [h, mapFirst_at hl hy]
  rw [← hmap]
  exact if_pos hany

theorem Dev.attachData_held (hy : y.leads inp f.hdr.cls = true) (hl : l.any (QFrame.leads inp f.hdr.cls) = false)
    (hrecv : d.swc.recvSpace = []) (h : d.swc.heldFrames = l ++ y :: r) :
    ∃ ls, d.attachData (dataFrame f inp) tie = { d with links := ls, swc := { d.swc with heldFrames := l ++ y.pair f :: r } } := by
  have hnone : ¬ d.swc.recvSpace.any (QFrame.leads inp f.hdr.cls) = true := by rw [hrecv]; exact Bool.false_ne_true
  have hany : d.swc.heldFrames.any (QFrame.leads inp f.hdr.cls) = true := by rw [h]; simp [hy]
  have hmap : mapFirst (QFrame.leads inp f.hdr.cls) (QFrame.pair f) d.swc.heldFrames = l ++ y.pair f :: r := by rw [h, mapFirst_at hl hy]
  obtain ⟨ls, hls⟩ := d.freeFrame_links (dataFrame f inp)
  refine ⟨ls, ?_⟩
  rw [← hmap]
  refine (if_neg hnone).trans ((if_pos hany).trans ?_)
  rw [hls]
  rfl

/-- The request frame stands last in a queue. -/
theorem Dev.attachData_queue (hy : y.leads inp f.hdr.cls = true) (hl : l.any (QFrame.leads inp f.hdr.cls) = false)
    (hrecv : d.swc.recvSpace = []) (hheld : d.swc.heldFrames.any (QFrame.leads inp f.hdr.cls) = false)
    (hothers : ∀ v ∈ d.swc.voqs, (v.inp, v.out, v.cls) ≠ (inp, o, f.hdr.cls) → v.q.any (QFrame.leads inp f.hdr.cls) = false)
    (hqueue : d.voq inp o f.hdr.cls = l ++ [y]) :
    d.attachData (dataFrame f inp) tie = d.pairInVoq ⟨inp, o, f.hdr.cls, l ++ [y]⟩ l.length y (dataFrame f inp) tie := by
  have hnone : ¬ d.swc.recvSpace.any (QFrame.leads inp f.hdr.cls) = true := by rw [hrecv]; exact Bool.false_ne_true
  refine (if_neg hnone).trans ((if_neg (Bool.eq_false_iff.1 hheld)).trans ?_)
  change (match d.swc.voqs.find? (fun v => v.q.any (QFrame.leads inp f.hdr.cls)) with
    | some v => _
    | none => _) = _
  rw [Dev.find?_leads hy hqueue hothers]
  dsimp only
  change (match (l ++ [y]).zipIdx.find? (fun e => QFrame.leads inp f.hdr.cls e.1) with
    | some e => _
    | none => _) = _
  rw [find?_zipIdx_at hl hy]

/-! ### The pair in its queue -/

/-- The queue with frame `q` at its end. -/
def Dev.putLast (inp o cls : Nat) (q : QFrame) (d : Dev) : Dev := d.setVoq inp o cls (d.voq inp o cls ++ [q])

/-- The package with the request frame taken out of its queue. -/
def Dev.bare (inp o cls : Nat) (l : List QFrame) (d : Dev) : Dev := d.setVoq inp o cls l

theorem Dev.pairInVoq_last {cls : Nat} {w : QFrame} : d.pairInVoq ⟨inp, o, cls, l ++ [y]⟩ l.length y w tie =
    if d.atLimit w then d.recvWait w
    else if !y.spilled ∧ d.headRoom inp w.bytes then
      (let b := (d.bare inp o cls l).freeFrame w
       b.setVoq inp o cls ((b.voq inp o cls).take l.length ++ y.pair w.f :: (b.voq inp o cls).drop l.length))
    else
      let r := (d.bare inp o cls l).makeRoom d.placeFuel (y.pair w.f) tie
      match r.1 with
      | some fl =>
        let c := (r.2.freeFrame w).spillAt { y.pair w.f with inFloor := fl }
        (c.2.setVoq inp o cls ((c.2.voq inp o cls).take l.length ++ c.1 :: (c.2.voq inp o cls).drop l.length)).swcCount inp 1 (if y.spilled then 1 else 2)
      | none => (r.2.setVoq inp o cls ((r.2.voq inp o cls).take l.length ++ y :: (r.2.voq inp o cls).drop l.length)).recvWait w := by
  have hbare : (l ++ [y]).eraseIdx l.length = l := by
    rw [List.eraseIdx_append_of_length_le (le_refl _), Nat.sub_self]
    simp
  unfold Dev.pairInVoq
  dsimp only
  rw [hbare, if_pos (show y.spilled = true ∨ l.length + 1 = (l ++ [y]).length from .inr (by simp))]
  rfl

end

end Sys2Proof.Machine


/-!
SUPPORT. O47, the arrival of a frame, assembled.
-/
namespace Sys2Proof.Machine

section
variable {inp : Fin 35} {f : Frame} {tie o : Nat} {s : State} {l r : List QFrame} {y : QFrame}

theorem Dev.resembles_taken (inp : Nat) (d : Dev) : ∃ ls, d.taken inp = { d with links := ls } ∧ ∀ w, ({ d with swc := w } : Dev).Resembles { d with swc := w, links := ls } := by
  unfold Dev.taken
  split
  · exact ⟨_, rfl, fun w => ({ d with swc := w } : Dev).resembles_refl.modLink (fun l => { l with rx := _, rxFree := l.rxFree - 1 })
      (fun _ => rfl) (fun _ => rfl) (fun _ => rfl) inp⟩
  · exact ⟨d.links, rfl, fun w => ({ d with swc := w } : Dev).resembles_refl⟩

/-- The pair at the end of its queue. -/
theorem Dev.putBack_does {d : Dev} {inp o cls n : Nat} {q : QFrame} (hvoq : d.voq inp o cls = l) :
    ((d.setVoq inp o cls ((d.voq inp o cls).take l.length ++ q :: (d.voq inp o cls).drop l.length)).swcCount inp 1 n).voq inp o cls = l ++ [q] ∧
    ((d.setVoq inp o cls ((d.voq inp o cls).take l.length ++ q :: (d.voq inp o cls).drop l.length)).swcCount inp 1 n).swc.recvSpace =
      d.swc.recvSpace := by
  rw [hvoq, List.take_length, List.drop_length]
  have hswc : ((d.setVoq inp o cls (l ++ [q])).swcCount inp 1 n).swc = (d.setVoq inp o cls (l ++ [q])).swc := by simp [Dev.swcCount]
  exact ⟨(Dev.voq_swc (congrArg Swc.voqs hswc) ..).trans (Dev.voq_setVoq_same ..), (congrArg Swc.recvSpace hswc :)⟩

section
variable (hrun : s.dev.running = true) (hoff : mirrorsOff s.dev)
  (hcross : inp.val < 24 → (s.dev.link inp.val).rx.head? = some f ∧ (s.dev.link inp.val).rxFree = 0)
  (hdest : ¬ (inp.val < 24 ∧ s.dev.badDest f.hdr.dest = true))
include hrun hoff hcross hdest

/-- No queued frame leaves or changes place, unless a BULK frame is evicted. -/
theorem frameArrive_grows (hop : f.hdr.opcode ≠ 0x07) {t : State} (ht : exec (.frameArrive inp f tie) s = .next t) (i o k : Nat)
    (hk : s.dev.pushout = false ∨ k ≠ 2) : (s.dev.newLast inp f.hdr.cls).voq i o k <+: t.dev.voq i o k := by
  cases (onDev_running hrun (Dev.frameArrive inp f tie)).symm.trans ht
  have hlike := s.dev.resembles_atHand inp f.hdr.cls
  obtain ⟨hswc, -⟩ := s.dev.atHand_keeps inp f.hdr.cls
  obtain ⟨-, hlike', hswc', -⟩ := hlike.strayCount (leading f inp)
  refine Dev.Grows.grows (K := (· = k)) ?_ i o k rfl
  have hgo := Dev.frameArrive_admits (tie := tie) hoff hcross hdest hop
  change s.dev.frameArrive inp f tie = if (s.dev.atHand inp f.hdr.cls).behind (leading f inp) = true then
    (s.dev.atHand inp f.hdr.cls).recvWait (leading f inp) else (s.dev.atHand inp f.hdr.cls).admitFrame (leading f inp) tie at hgo
  change (s.dev.newLast inp f.hdr.cls).Grows (· = k) (s.dev.frameArrive inp f tie)
  rw [hgo]
  split
  · exact .of_voqs (congrArg Swc.voqs hswc :)
  · rw [Dev.admitFrame_goes hlike hop]
    refine Dev.Grows.trans (.of_voqs (congrArg Swc.voqs (hswc'.trans hswc) :)) ?_
    unfold Dev.goes
    split
    · exact Dev.grows_place _ _ _ (hk.imp hlike'.pushout.trans id)
    · exact (Dev.grows_freeFrame ..).trans (.of_voqs rfl)
    · exact .of_voqs rfl

section
variable (hop : f.hdr.opcode = 0x07)
include hop

omit hrun in
/-- A DATA frame goes to its request frame, unless an older frame waits and its request frame is not among those that wait. -/
theorem frameArrive_attaches (h : s.dev.swc.recvSpace = [] ∨ s.dev.swc.recvSpace.any (QFrame.leads inp f.hdr.cls) = true) :
    ∃ ls, (∀ w, ({ s.dev with swc := w } : Dev).Resembles { s.dev with swc := w, links := ls }) ∧
      s.dev.frameArrive inp f tie = ({ s.dev with links := ls } : Dev).attachData (dataFrame f inp) tie := by
  obtain ⟨ls, hls, hlike⟩ := s.dev.resembles_taken inp
  refine ⟨ls, hlike, (Dev.frameArrive_data (tie := tie) hoff hcross hdest hop).trans ?_⟩
  rw [hls]
  refine if_neg fun hc => ?_
  obtain ⟨hbehind, hno⟩ := hc
  rcases h with h | h
  · rw [Dev.behind, show ({ s.dev with links := ls } : Dev).swc.recvSpace = [] from h] at hbehind
    cases hbehind
  · rw [show ({ s.dev with links := ls } : Dev).swc.recvSpace.any (QFrame.leads inp f.hdr.cls) = true from h] at hno
    cases hno

variable (hl : l.any (QFrame.leads inp f.hdr.cls) = false) (hy : y.leads inp f.hdr.cls = true)
include hl hy

theorem dataArrive_recv (h : s.dev.swc.recvSpace = l ++ y :: r) : ∃ t, exec (.frameArrive inp f tie) s = .next t ∧ t.store = s.store ∧
    t.dev.swc.recvSpace = l ++ y.pair f :: r ∧ t.dev.swc.voqs = s.dev.swc.voqs := by
  obtain ⟨ls, -, hgo⟩ := frameArrive_attaches (tie := tie) hoff hcross hdest hop (.inr (by rw [h]; simp [hy]))
  have hdone := Dev.attachData_recv (d := { s.dev with links := ls }) (tie := tie) hy hl h
  exact ⟨_, onDev_leaves hrun (hgo.trans hdone), rfl, rfl, rfl⟩

section
variable (hrecv : s.dev.swc.recvSpace = [])
include hrecv

theorem dataArrive_held (h : s.dev.swc.heldFrames = l ++ y :: r) : ∃ t, exec (.frameArrive inp f tie) s = .next t ∧ t.store = s.store ∧
    t.dev.swc.heldFrames = l ++ y.pair f :: r ∧ t.dev.swc.voqs = s.dev.swc.voqs := by
  obtain ⟨ls, -, hgo⟩ := frameArrive_attaches (tie := tie) hoff hcross hdest hop (.inl hrecv)
  obtain ⟨ls', hdone⟩ := Dev.attachData_held (d := { s.dev with links := ls }) (tie := tie) hy hl hrecv h
  exact ⟨_, onDev_leaves hrun (hgo.trans hdone), rfl, rfl, rfl⟩

variable (hheld : s.dev.swc.heldFrames.any (QFrame.leads inp f.hdr.cls) = false)
  (hothers : ∀ v ∈ s.dev.swc.voqs, (v.inp, v.out, v.cls) ≠ (inp.val, o, f.hdr.cls) → v.q.any (QFrame.leads inp f.hdr.cls) = false)
  (hqueue : s.dev.voq inp o f.hdr.cls = l ++ [y])
include hheld hothers hqueue

omit hrun in
theorem dataArrive_pairs : ∃ ls, (∀ w, ({ s.dev with swc := w } : Dev).Resembles { s.dev with swc := w, links := ls }) ∧
    s.dev.frameArrive inp f tie = ({ s.dev with links := ls } : Dev).pairInVoq ⟨inp, o, f.hdr.cls, l ++ [y]⟩ l.length y (dataFrame f inp) tie := by
  obtain ⟨ls, hlike, hgo⟩ := frameArrive_attaches (tie := tie) hoff hcross hdest hop (.inl hrecv)
  exact ⟨ls, hlike, hgo.trans (Dev.attachData_queue (d := { s.dev with links := ls }) hy hl hrecv hheld hothers hqueue)⟩

theorem dataArrive_limited (hlim : s.dev.atLimit (dataFrame f inp) = true) : ∃ t, exec (.frameArrive inp f tie) s = .next t ∧ t.store = s.store ∧
    t.dev.swc.voqs = s.dev.swc.voqs ∧ t.dev.swc.recvSpace = [dataFrame f inp] := by
  obtain ⟨ls, hlike, hgo⟩ := dataArrive_pairs (tie := tie) hoff hcross hdest hop hl hy hrecv hheld hothers hqueue
  have hlim' : ({ s.dev with links := ls } : Dev).atLimit (dataFrame f inp) = true := ((hlike s.dev.swc).atLimit _).trans hlim
  have hdone := hgo.trans (Dev.pairInVoq_last.trans (if_pos hlim'))
  refine ⟨_, onDev_leaves hrun hdone, rfl, rfl, ?_⟩
  change s.dev.swc.recvSpace ++ _ = _
  rw [hrecv]
  rfl

theorem dataArrive_cached (hlim : s.dev.atLimit (dataFrame f inp) = false) (hcache : y.spilled = false)
    (hroom : s.dev.headBytes inp + (dataFrame f inp).bytes ≤ s.dev.headLimit inp) : ∃ t, exec (.frameArrive inp f tie) s = .next t ∧
      t.store = s.store ∧ t.dev.voq inp o f.hdr.cls = l ++ [y.pair f] ∧ t.dev.swc.recvSpace = [] := by
  obtain ⟨ls, hlike, hgo⟩ := dataArrive_pairs (tie := tie) hoff hcross hdest hop hl hy hrecv hheld hothers hqueue
  have hlim' : ({ s.dev with links := ls } : Dev).atLimit (dataFrame f inp) = false := ((hlike s.dev.swc).atLimit _).trans hlim
  have hroom' : ({ s.dev with links := ls } : Dev).headRoom inp (dataFrame f inp).bytes = true :=
    ((hlike s.dev.swc).headRoom ..).trans (decide_eq_true hroom)
  obtain ⟨ls', hls'⟩ := (({ s.dev with links := ls } : Dev).bare inp o f.hdr.cls l).freeFrame_links (dataFrame f inp)
  have hvoq : (({ ({ s.dev with links := ls } : Dev).bare inp o f.hdr.cls l with links := ls' }) : Dev).voq inp o f.hdr.cls = l :=
    Dev.voq_setVoq_same ({ s.dev with links := ls } : Dev) inp o f.hdr.cls l
  have hdone := hgo.trans (Dev.pairInVoq_last.trans ((if_neg (Bool.eq_false_iff.1 hlim')).trans (if_pos ⟨by rw [hcache]; rfl, hroom'⟩)))
  dsimp only at hdone
  rw [hls', hvoq, List.take_length, List.drop_length] at hdone
  exact ⟨_, onDev_leaves hrun hdone, rfl, Dev.voq_setVoq_same .., hrecv⟩

section
variable (hlim : s.dev.atLimit (dataFrame f inp) = false)
  (hspill : y.spilled = true ∨ s.dev.headLimit inp < s.dev.headBytes inp + (dataFrame f inp).bytes)
include hlim hspill

omit hrun in
/-- The pair goes into the partition, or stays apart. -/
theorem dataArrive_makesRoom : ∃ ls, (∀ w, ({ s.dev with swc := w } : Dev).Resembles { s.dev with swc := w, links := ls }) ∧
    s.dev.frameArrive inp f tie =
      (let r := (({ s.dev with links := ls } : Dev).bare inp o f.hdr.cls l).makeRoom (Dev.placeFuel { s.dev with links := ls }) (y.pair f) tie
       match r.1 with
       | some fl =>
         let c := (r.2.freeFrame (dataFrame f inp)).spillAt { y.pair f with inFloor := fl }
         (c.2.setVoq inp o f.hdr.cls ((c.2.voq inp o f.hdr.cls).take l.length ++ c.1 :: (c.2.voq inp o f.hdr.cls).drop l.length)).swcCount inp 1
           (if y.spilled then 1 else 2)
       | none => (r.2.setVoq inp o f.hdr.cls ((r.2.voq inp o f.hdr.cls).take l.length ++ y :: (r.2.voq inp o f.hdr.cls).drop l.length)).recvWait
           (dataFrame f inp)) := by
  obtain ⟨ls, hlike, hgo⟩ := dataArrive_pairs (tie := tie) hoff hcross hdest hop hl hy hrecv hheld hothers hqueue
  have hlim' : ({ s.dev with links := ls } : Dev).atLimit (dataFrame f inp) = false := ((hlike s.dev.swc).atLimit _).trans hlim
  refine ⟨ls, hlike, hgo.trans (Dev.pairInVoq_last.trans ((if_neg (Bool.eq_false_iff.1 hlim')).trans (if_neg fun hc => ?_)))⟩
  obtain ⟨hcache, hroom⟩ := hc
  have hroom' := ((hlike s.dev.swc).headRoom inp (dataFrame f inp).bytes).symm.trans hroom
  rcases hspill with h | h
  · rw [h] at hcache
    cases hcache
  · exact absurd (of_decide_eq_true hroom') (Nat.not_le.2 h)

theorem dataArrive_spilled {fl : Bool} (hroom : (s.dev.setVoq inp o f.hdr.cls l).spillRoom (y.pair f) = some fl) :
    ∃ t cs, exec (.frameArrive inp f tie) s = .next t ∧ t.store = s.store ∧
      (∀ c ∈ cs, c ∉ (s.dev.setVoq inp o f.hdr.cls l).usedCells ∧ c ∉ y.cells) ∧ t.dev.swc.recvSpace = [] ∧
      t.dev.voq inp o f.hdr.cls = l ++ [{ y.pair f with spilled := true, inFloor := fl, cells := y.cells ++ cs }] := by
  obtain ⟨ls, hlike, hgo⟩ := dataArrive_makesRoom (tie := tie) hoff hcross hdest hop hl hy hrecv hheld hothers hqueue hlim hspill
  obtain ⟨b, hb⟩ : ∃ b : Dev, b = ({ s.dev with links := ls } : Dev).bare inp o f.hdr.cls l := ⟨_, rfl⟩
  have hlikeb : (s.dev.setVoq inp o f.hdr.cls l).Resembles b := hb ▸ hlike (s.dev.setVoq inp o f.hdr.cls l).swc
  have hvoq : b.voq inp o f.hdr.cls = l := hb ▸ Dev.voq_setVoq_same ..
  have hrecvb : b.swc.recvSpace = [] := hb ▸ hrecv
  obtain ⟨ls', hls'⟩ := b.freeFrame_links (dataFrame f inp)
  obtain ⟨cs, next, hspilled, hcs⟩ := Dev.spillAt_takes { y.pair f with inFloor := fl } { b with links := ls' }
  rw [← hb, Dev.placeFuel, Dev.makeRoom_room ((hlikeb.spillRoom _).trans hroom)] at hgo
  dsimp only at hgo
  rw [hls', hspilled] at hgo
  obtain ⟨hput, hkeep⟩ := Dev.putBack_does (d := { b with links := ls', swc := { b.swc with spillNext := next } }) (n := if y.spilled then 1 else 2)
    (q := { y.pair f with spilled := true, inFloor := fl, cells := y.cells ++ cs }) hvoq
  refine ⟨_, cs, onDev_leaves hrun hgo, rfl, fun c hc => ?_, hkeep.trans hrecvb, hput⟩
  obtain ⟨hused, hcells, -⟩ := hcs c hc
  exact ⟨fun h => hused (hlikeb.usedCells ▸ h), hcells⟩

theorem dataArrive_roomless (hroom : (s.dev.setVoq inp o f.hdr.cls l).spillRoom (y.pair f) = none) (hno : s.dev.pushout = false ∨ f.hdr.cls = 2) :
    ∃ t, exec (.frameArrive inp f tie) s = .next t ∧ t.store = s.store ∧ t.dev.voq inp o f.hdr.cls = l ++ [y] ∧
      t.dev.swc.recvSpace = [dataFrame f inp] := by
  obtain ⟨ls, hlike, hgo⟩ := dataArrive_makesRoom (tie := tie) hoff hcross hdest hop hl hy hrecv hheld hothers hqueue hlim hspill
  obtain ⟨b, hb⟩ : ∃ b : Dev, b = ({ s.dev with links := ls } : Dev).bare inp o f.hdr.cls l := ⟨_, rfl⟩
  have hlikeb : (s.dev.setVoq inp o f.hdr.cls l).Resembles b := hb ▸ hlike (s.dev.setVoq inp o f.hdr.cls l).swc
  have hvoq : b.voq inp o f.hdr.cls = l := hb ▸ Dev.voq_setVoq_same ..
  have hrecvb : b.swc.recvSpace = [] := hb ▸ hrecv
  have hcls : (y.pair f).f.hdr.cls = f.hdr.cls := by
    have hkey := hy
    rw [QFrame.leads, Bool.and_eq_true, beq_iff_eq] at hkey
    exact hkey.2
  have hnone : b.pushout = false ∨ (y.pair f).f.hdr.cls = 2 ∨ b.victimVoq tie = none :=
    hno.imp hlikeb.pushout.trans fun h => .inl (hcls.trans h)
  rw [← hb, Dev.placeFuel, Dev.makeRoom_none ((hlikeb.spillRoom _).trans hroom) hnone] at hgo
  dsimp only at hgo
  rw [hvoq, List.take_length, List.drop_length] at hgo
  refine ⟨_, onDev_leaves hrun hgo, rfl, Dev.voq_setVoq_same b inp o f.hdr.cls (l ++ [y]), ?_⟩
  change b.swc.recvSpace ++ _ = _
  rw [hrecvb]
  rfl

end

end

end

end

end

end Sys2Proof.Machine


/-!
SUPPORT. O47, Said.FrameArrival.
-/
namespace Sys2Proof.Machine

theorem frameArrival : Said.FrameArrival := by
  intro inp f tie s hrun hoff
  dsimp only
  refine ⟨fun hinp h => (onDev_leaves hrun (Dev.frameArrive_stays hinp h)).trans rfl, fun hcross => ⟨fun hinp t ht => ?_, fun hinp hbad _ => ?_,
    fun hdest => ⟨fun hop hrecv => ⟨fun o c hl => ⟨frameArrive_cached hrun hoff hcross hdest hop hrecv hl, fun hlim hspill =>
      ⟨fun fl => frameArrive_spilled hrun hoff hcross hdest hop hrecv hl hlim hspill,
        frameArrive_roomless hrun hoff hcross hdest hop hrecv hl hlim hspill⟩, frameArrive_limited hrun hoff hcross hdest hop hrecv hl⟩,
      frameArrive_held hrun hoff hcross hdest hop hrecv, frameArrive_lookupWaits hrun hoff hcross hdest hop hrecv⟩,
    fun hop => frameArrive_behind hrun hoff hcross hdest hop, fun hop t ht i o k => frameArrive_grows hrun hoff hcross hdest hop ht i o k,
    fun hop l y r hl hy => ⟨dataArrive_recv hrun hoff hcross hdest hop hl hy, dataArrive_held hrun hoff hcross hdest hop hl hy,
      fun o hrecv hheld hothers hqueue => ?_⟩⟩⟩⟩
  · obtain ⟨hhead, hfree⟩ := hcross hinp
    cases (onDev_running hrun (Dev.frameArrive inp f tie)).symm.trans ht
    exact Dev.frameArrive_crosses hinp hhead hfree
  · obtain ⟨hhead, hfree⟩ := hcross hinp
    obtain ⟨hswc, herr, howed⟩ := Dev.frameArrive_discards (tie := tie) hinp hhead hfree hbad
    exact ⟨_, onDev_leaves hrun rfl, rfl, hswc, herr, howed⟩
  · exact ⟨dataArrive_cached hrun hoff hcross hdest hop hl hy hrecv hheld hothers hqueue, fun hlim hspill =>
      ⟨fun fl => dataArrive_spilled hrun hoff hcross hdest hop hl hy hrecv hheld hothers hqueue hlim hspill,
        dataArrive_roomless hrun hoff hcross hdest hop hl hy hrecv hheld hothers hqueue hlim hspill⟩,
      dataArrive_limited hrun hoff hcross hdest hop hl hy hrecv hheld hothers hqueue⟩

end Sys2Proof.Machine


/-!
SUPPORT. O47, a run of flits over a link (R443, R445, R449, R450).
-/
namespace Sys2Proof.Machine

/-! ### Room in the replay buffer -/

/-- Sequenced flits that are not acknowledged. -/
def Link.unacked (l : Link) : Nat := (l.txSeq + 4096 - l.acked) % 4096

theorem Link.room_of {l : Link} (h : l.unacked < 1024) : l.room = true := decide_eq_true h

/-- One more flit is one more to be acknowledged. -/
theorem unacked_next (t a : Nat) : ((t + 1) % 4096 + 4096 - a) % 4096 ≤ (t + 4096 - a) % 4096 + 1 := by omega

/-- What a flit leaves of its link. -/
theorem Link.sends_does {l : Link} (h : l.room = true) (now start : Nat) (sl : List Byte) :
    (l.sends now 0 start sl).txSeq = (l.txSeq + 1) % 4096 ∧ (l.sends now 0 start sl).acked = l.acked ∧ (l.sends now 0 start sl).rxSeq = l.rxSeq ∧
    (l.sends now 0 start sl).credits = l.credits ∧ (l.sends now 0 start sl).buffer = l.buffer ++ [l.flit 0 start sl] := by
  have hsw : ∀ (k : Link) n, (k.switched 0 n).txSeq = k.txSeq ∧ (k.switched 0 n).acked = k.acked ∧ (k.switched 0 n).rxSeq = k.rxSeq ∧
      (k.switched 0 n).credits = k.credits ∧ (k.switched 0 n).buffer = k.buffer := by
    intro k n
    unfold Link.switched
    split
    · split <;> exact ⟨rfl, rfl, rfl, rfl, rfl⟩
    · exact ⟨rfl, rfl, rfl, rfl, rfl⟩
  have hkind : l.kind 0 = 0 := if_pos h
  obtain ⟨hseq, hack, hrx, hcredits, hbuffer⟩ := hsw (l.sent now 0 start sl) (l.flit 0 start sl).seq
  rw [Link.sends, hkind]
  exact ⟨hseq, hack, hrx, hcredits, hbuffer⟩

section
variable {d : Dev} {p : Nat}

/-- What a flit leaves of its port. -/
theorem Dev.flitOut_sent (hp : p < d.links.length) (hroom : (d.link p).room = true) (start : Nat) (sl : List Byte) :
    ((d.flitOut p 0 false start sl).link p).buffer = (d.link p).buffer ++ [(d.link p).flit 0 start sl] ∧
    ((d.flitOut p 0 false start sl).link p).credits = (d.link p).credits ∧ ((d.flitOut p 0 false start sl).link p).rxSeq = (d.link p).rxSeq ∧
    ((d.flitOut p 0 false start sl).link p).unacked ≤ (d.link p).unacked + 1 ∧ (d.flitOut p 0 false start sl).links.length = d.links.length ∧
    (d.flitOut p 0 false start sl).out = d.out ++ [.flit p (((d.link p).flit 0 start sl).bytes (d.link p).rxSeq false)] := by
  obtain ⟨hout, hbare, hbeside⟩ := d.flitOut_does (W := anyWord) hp 0 false start sl
  obtain ⟨hseq, hack, hrx, hcredits, hbuffer⟩ := Link.sends_does hroom d.tim.tide start sl
  have hkind : (d.link p).kind 0 = 0 := if_pos hroom
  rw [hkind] at hout
  refine ⟨(Link.of_bare Link.buffer (fun _ => rfl) hbare).trans hbuffer, (Link.of_bare Link.credits (fun _ => rfl) hbare).trans hcredits,
    (Link.of_bare Link.rxSeq (fun _ => rfl) hbare).trans hrx, ?_, hbeside.len, hout⟩
  rw [Link.unacked, (Link.of_bare Link.txSeq (fun _ => rfl) hbare).trans hseq, (Link.of_bare Link.acked (fun _ => rfl) hbare).trans hack]
  exact unacked_next ..

/-- What a run of flits of the slots `cs` leaves of its port: each is sent and kept. -/
structure Dev.Ran (p : Nat) (cs : List (Nat × List Byte)) (d e : Dev) : Prop where
  flits : ∃ fs : List Flit, (e.link p).buffer = (d.link p).buffer ++ fs ∧ fs.flatMap (·.slots) = cs.flatMap (·.2) ∧
    ∀ g ∈ fs, g.kind = 0 ∧ g.slots ∈ cs.map (·.2) ∧ .flit p (g.bytes (d.link p).rxSeq false) ∈ e.out
  credits : (e.link p).credits = (d.link p).credits
  len : e.links.length = d.links.length
  out : d.out <+: e.out
  rest : e.offWire = d.offWire

theorem Dev.flits_run : ∀ (cs : List (Nat × List Byte)) {d : Dev}, p < d.links.length → (d.link p).unacked + cs.length ≤ 1024 →
    d.Ran p cs (cs.foldl (fun d c => d.flitOut p 0 false c.1 c.2) d)
  | [], d, _, _ => ⟨⟨[], by simp, rfl, fun _ h => absurd h (List.not_mem_nil)⟩, rfl, rfl, List.prefix_refl _, rfl⟩
  | c :: cs, d, hp, hroom => by
    rw [List.length_cons] at hroom
    obtain ⟨hbuffer, hcredits, hrx, hun, hlen, hout⟩ := d.flitOut_sent hp (Link.room_of (by omega)) c.1 c.2
    obtain ⟨⟨fs, hfs, hslots, hall⟩, hcredits', hlen', hout', hrest⟩ := Dev.flits_run cs (d := d.flitOut p 0 false c.1 c.2) (hlen ▸ hp) (by omega)
    have hpre : d.out <+: (d.flitOut p 0 false c.1 c.2).out := ⟨_, hout.symm⟩
    refine ⟨⟨(d.link p).flit 0 c.1 c.2 :: fs, ?_, ?_, ?_⟩, hcredits'.trans hcredits, hlen'.trans hlen, hpre.trans hout',
      hrest.trans (d.offWire_flitOut ..)⟩
    · rw [List.foldl_cons, hfs, hbuffer, List.append_assoc]
      rfl
    · rw [List.flatMap_cons, hslots, List.flatMap_cons]
      rfl
    · intro g hg
      rcases List.mem_cons.1 hg with rfl | hg
      · refine ⟨rfl, List.mem_map.2 ⟨c, List.mem_cons_self, rfl⟩, hout'.subset ?_⟩
        rw [hout]
        exact List.mem_append_right _ (List.mem_singleton.2 rfl)
      · obtain ⟨hkind, hin, hleft⟩ := hall g hg
        rw [hrx] at hleft
        exact ⟨hkind, List.mem_cons_of_mem _ hin, hleft⟩

/-- The slots of a run, cut into flits. -/
theorem flatMap_flits (sl : List Byte) (k : Nat) : (List.range k).flatMap (fun i => (sl.drop (240 * i)).take 240) = sl.take (240 * k) := by
  induction k with
  | zero => simp
  | succ k ih => rw [List.range_succ, List.flatMap_append, ih, List.flatMap_singleton, Nat.mul_succ, List.take_add]

/-- A run of slots on a channel: its credits are consumed, and flits of at most 15 slots carry it. -/
theorem Dev.sendRun_does {cls ch : Nat} {sl : List Byte} (start : Nat → Nat) (hp : p < d.links.length) (hwhole : sl.length % 16 = 0)
    (hroom : (d.link p).unacked + ceilDiv (sl.length / 16) 15 ≤ 1024) :
    (∃ fs : List Flit, ((d.sendRun p cls ch sl start).link p).buffer = (d.link p).buffer ++ fs ∧ fs.flatMap (·.slots) = sl ∧
      ∀ g ∈ fs, g.kind = 0 ∧ g.slots.length ≤ 240 ∧ .flit p (g.bytes (d.link p).rxSeq false) ∈ (d.sendRun p cls ch sl start).out) ∧
    (d.sendRun p cls ch sl start).creditOf p cls ch = d.creditOf p cls ch - sl.length / 16 ∧
    (d.sendRun p cls ch sl start).offWire = d.offWire ∧ d.out <+: (d.sendRun p cls ch sl start).out := by
  obtain ⟨k, hk⟩ : ∃ k, k = 4 * cls + ch := ⟨_, rfl⟩
  obtain ⟨n, hn⟩ : ∃ n, n = ceilDiv (sl.length / 16) 15 := ⟨_, rfl⟩
  obtain ⟨e, he⟩ : ∃ e : Dev, e = { d with links := modAt (fun l => { l with credits := nset l.credits k (nget l.credits k - sl.length / 16) }) d.links p } :=
    ⟨_, rfl⟩
  have hlink : e.link p = { d.link p with credits := nset (d.link p).credits k (nget (d.link p).credits k - sl.length / 16) } := by
    rw [he, Dev.link, nth_modAt, if_pos ⟨rfl, hp⟩]
    rfl
  have hlen : p < e.links.length := by rw [he]; simpa [length_modAt] using hp
  obtain ⟨cs, hcs⟩ : ∃ cs, cs = (List.range n).map (fun i => (start i, (sl.drop (240 * i)).take 240)) := ⟨_, rfl⟩
  have hrun : d.sendRun p cls ch sl start = cs.foldl (fun d c => d.flitOut p 0 false c.1 c.2) e := by
    rw [hcs, List.foldl_map, he, hk, hn]
    rfl
  have hun : (e.link p).unacked = (d.link p).unacked := by rw [hlink]; rfl
  obtain ⟨⟨fs, hbuffer, hslots, hall⟩, hcredits, -, hout, hrest⟩ := Dev.flits_run cs hlen (by rw [hun, hcs, List.length_map, List.length_range, hn]; exact hroom)
  rw [hrun]
  refine ⟨⟨fs, ?_, ?_, fun g hg => ?_⟩, ?_, hrest.trans (he ▸ rfl), ?_⟩
  · rw [hbuffer, hlink]
  · rw [hslots, hcs, List.flatMap_map, flatMap_flits, List.take_of_length_le]
    rw [hn, ceilDiv]
    omega
  · obtain ⟨hkind, hin, hleft⟩ := hall g hg
    rw [hlink] at hleft
    refine ⟨hkind, ?_, hleft⟩
    rw [hcs, List.map_map] at hin
    obtain ⟨i, -, hi⟩ := List.mem_map.1 hin
    rw [← hi]
    exact List.length_take_le ..
  · change nget ((cs.foldl _ e).link p).credits (4 * cls + ch) = nget (d.link p).credits (4 * cls + ch) - _
    rw [hcredits, hlink, ← hk]
    exact nget_nset_same ..
  · rw [he] at hout
    exact he ▸ hout

end

end Sys2Proof.Machine


/-!
SUPPORT. O47, a frame that departs: what its parts leave (R383, R386, R415, R426).
-/
namespace Sys2Proof.Machine

section
variable {d e : Dev} {out inp cls ch lvl : Nat} {q : QFrame}

/-! ### Counters of other pages -/

theorem Dev.counter_flitOut_other {p r j : Nat} (d : Dev) (hr : r ≠ linkPage p) (hj : j < 1024) (kind : Nat) (nak : Bool) (start : Nat) (sl : List Byte) :
    (d.flitOut p kind nak start sl).counter r j = d.counter r j := by
  have hswitch : ∀ (e : Dev) k n w, (e.switchMap p k n w).counter r j = e.counter r j := fun e k n w => by
    refine Dev.counter_congr ?_ _ _
    unfold Dev.switchMap
    split
    · split <;> rfl
    · rfl
  have hblock : ∀ (e : Dev) b, (e.sendBlock p b).cnts = e.cnts := fun e b => by
    unfold Dev.sendBlock
    dsimp only
    split <;> rfl
  have hflit : ∀ (e : Dev) b, (e.sendFlit p b).counter r j = e.counter r j := fun e b =>
    Dev.counter_congr ((List.foldl_keeps (g := Dev.cnts) (fun e _ => hblock e _) _ _).trans rfl) _ _
  have hlink : ∀ e : Dev, (e.linkCount p 0 1).counter r j = e.counter r j := fun e =>
    Dev.counter_count_ne hj (by split <;> omega) 1 (.inl hr)
  rw [Dev.flitOut_eq, hswitch, hlink, hflit]
  rfl

theorem Dev.counter_sendRun {p r j : Nat} (d : Dev) (hr : r ≠ linkPage p) (hj : j < 1024) (cls ch : Nat) (sl : List Byte) (start : Nat → Nat) :
    (d.sendRun p cls ch sl start).counter r j = d.counter r j :=
  (List.foldl_keeps (g := fun e : Dev => e.counter r j) (fun e i => e.counter_flitOut_other hr hj 0 false (start i) _) _ _).trans rfl

/-- A run of slots touches links, counters and what has left. -/
theorem Dev.offWire_sendRun (d : Dev) (p cls ch : Nat) (sl : List Byte) (start : Nat → Nat) : (d.sendRun p cls ch sl start).offWire = d.offWire :=
  (List.foldl_keeps (g := Dev.offWire) (fun e i => e.offWire_flitOut p 0 false (start i) _) _ _).trans rfl

theorem Dev.swc_offWire (h : e.offWire = d.offWire) : e.swc = d.swc := (congrArg Dev.swc h : e.offWire.swc = d.offWire.swc)

theorem Dev.regs_offWire (h : e.offWire = d.offWire) : e.regs = d.regs := (congrArg Dev.regs h : e.offWire.regs = d.offWire.regs)

theorem mirrorsOff_regs (h : e.regs = d.regs) (hoff : mirrorsOff d) : mirrorsOff e := fun i hi => by
  rw [← hoff i hi]
  exact congrArg (bits · _ _) (Dev.word_congr h _)

/-! ### The parts of a departure -/

/-- The frame as it leaves (R426). -/
def outgoing (ch lvl : Nat) (f : Frame) : Frame := { f with hdr := { f.hdr with channel := ch, cmark := max f.hdr.cmark lvl } }

/-- The heads passed over and the frames marked are counted. -/
def Dev.departCounts (out inp cls lvl : Nat) (q : QFrame) (d : Dev) : Dev :=
  let waits := ((d.passedOver out inp cls).filter (d.bubbleWaits out)).length
  let d := if waits = 0 then d else d.count 0x61 0 waits
  let marked := (q.frames.filter (fun f => decide (f.hdr.cmark < lvl))).length
  if marked = 0 then d else d.count 0x68 (2 * (lvl - 1)) marked

/-- The slots of the frame and its DATA frame go out. -/
def Dev.departSlots (out cls ch lvl : Nat) (q : QFrame) (d : Dev) : Dev :=
  let d := (if out < 24 then d.sendSlots out cls ch (outgoing ch lvl q.f) (q.tail.map (outgoing ch lvl)) else d).swcCount out 0 q.frames.length
  if 2 ≤ ch then d.count 0x61 (3 + cls) q.frames.length else d

/-- The turns and shares of the output, and where a DATA frame would follow. -/
def Dev.departTurns (out inp cls : Nat) (served : Tbl Nat) (q : QFrame) (d : Dev) : Dev :=
  { d with swc := { d.swc with
    ctrlRun := nset d.swc.ctrlRun out (if cls = 3 then nget d.swc.ctrlRun out + 1 else 0), served := served,
    lastGrant := nset d.swc.lastGrant (4 * out + cls) (inp + 1)
    lastOut := if q.last then nset d.swc.lastOut (4 * inp + cls) (out + 1) else d.swc.lastOut } }

/-- The frames have left. -/
def Dev.departOut (out ch lvl : Nat) (q : QFrame) (d : Dev) : Dev :=
  let d := d.emit (.depart out ch (outgoing ch lvl q.f))
  match q.tail with
  | some t => (d.mirAt out 1 (outgoing ch lvl t)).emit (.depart out ch (outgoing ch lvl t))
  | none => d

/-- The level that the output marks with. -/
def Dev.markOf (d : Dev) (out cls : Nat) : Nat := if cls = 3 then 0 else d.markLevel out cls

/-- The bytes that the classes of the output have had then. -/
def Dev.servedThen (d : Dev) (out cls : Nat) (q : QFrame) : Tbl Nat := if cls = 3 then d.swc.served else d.serve out cls q.bytes

theorem Dev.frameDepart_goes (hq : d.headOf inp out cls = some q) (hmay : d.mayDepart out ch q = true) (hcls : d.classMayGo out cls = true)
    (hturn : d.turn out cls = some inp) : d.frameDepart out inp cls ch =
      ((((((d.departCounts out inp cls (d.markOf out cls) q).setVoq inp out cls ((d.departCounts out inp cls (d.markOf out cls) q).voq inp out cls).tail).mirAt
        out 1 (outgoing ch (d.markOf out cls) q.f)).departSlots out cls ch (d.markOf out cls) q).departTurns out inp cls (d.servedThen out cls q) q).departOut
          out ch (d.markOf out cls) q).retryRecv := by
  rw [Dev.frameDepart, hq]
  exact if_pos ⟨hmay, hcls, hturn⟩

theorem Dev.departCounts_cnts (out inp cls lvl : Nat) (q : QFrame) (d : Dev) : ∃ c, d.departCounts out inp cls lvl q = { d with cnts := c } := by
  have hcount : ∀ (e : Dev) (p i k : Nat), ∃ c, e.count p i k = { e with cnts := c } := by
    intro e p i k
    unfold Dev.count
    split
    · exact ⟨_, rfl⟩
    · exact ⟨_, rfl⟩
  have hwaits : ∃ c, (if ((d.passedOver out inp cls).filter (d.bubbleWaits out)).length = 0 then d
      else d.count 0x61 0 ((d.passedOver out inp cls).filter (d.bubbleWaits out)).length) = { d with cnts := c } := by
    split
    · exact ⟨_, rfl⟩
    · exact hcount ..
  obtain ⟨c, hc⟩ := hwaits
  unfold Dev.departCounts
  dsimp only
  rw [hc]
  split
  · exact ⟨_, rfl⟩
  · exact hcount { d with cnts := c } ..

theorem satAdd_of {n w a : Nat} (h : a + n < 2 ^ w) : satAdd w a n = a + n := by
  unfold satAdd
  omega

theorem Dev.counter_departCounts (hfree : d.rdp F.BLK_CTRL_CNT_FREEZE 0x61 = 0)
    (hlt : d.counter 0x61 0 + ((d.passedOver out inp cls).filter (d.bubbleWaits out)).length < 2 ^ 64) (hlvl : lvl ≤ 3) (q : QFrame) :
    (d.departCounts out inp cls lvl q).counter 0x61 0 = d.counter 0x61 0 + ((d.passedOver out inp cls).filter (d.bubbleWaits out)).length := by
  have hmark : ∀ (e : Dev) n, (if n = 0 then e else e.count 0x68 (2 * (lvl - 1)) n).counter 0x61 0 = e.counter 0x61 0 := by
    intro e n
    split
    · rfl
    · exact Dev.counter_count_ne (by decide) (by omega) n (.inl (by decide))
  unfold Dev.departCounts
  dsimp only
  rw [hmark]
  split
  · next h => rw [h, Nat.add_zero]
  · rw [Dev.counter_count _ _ _ _ _ _ (by decide) (by decide), if_pos ⟨rfl, rfl, by rw [hfree]; decide⟩, satAdd_of hlt]

theorem Dev.offWire_departSlots (out cls ch lvl : Nat) (q : QFrame) (d : Dev) : (d.departSlots out cls ch lvl q).offWire = d.offWire := by
  have hsend : (if out < 24 then d.sendSlots out cls ch (outgoing ch lvl q.f) (q.tail.map (outgoing ch lvl)) else d).offWire = d.offWire := by
    split
    · exact Dev.offWire_sendRun ..
    · rfl
  unfold Dev.departSlots
  dsimp only
  split
  · exact (Dev.offWire_count ..).trans ((Dev.offWire_count ..).trans hsend)
  · exact (Dev.offWire_count ..).trans hsend

theorem Dev.counter_departSlots (hout : out < 35) (hch : ch < 2) (d : Dev) (q : QFrame) :
    (d.departSlots out cls ch lvl q).counter 0x61 0 = d.counter 0x61 0 := by
  have hcount : ∀ e : Dev, (e.swcCount out 0 q.frames.length).counter 0x61 0 = e.counter 0x61 0 := fun e =>
    Dev.counter_count_ne (by decide) (by omega) _ (.inl (by decide))
  unfold Dev.departSlots
  dsimp only
  rw [if_neg (by omega), hcount]
  split
  · refine Dev.counter_sendRun _ ?_ (by decide) ..
    unfold linkPage
    split <;> omega
  · rfl

theorem Dev.retryRecv_none (h : d.swc.recvSpace = []) : d.retryRecv = d := by
  unfold Dev.retryRecv
  dsimp only
  rw [h, List.foldl_nil, ← h]

end

end Sys2Proof.Machine


/-!
SUPPORT. O47, a frame that departs, and one that waits (R383, R384, R386, R415).
-/
namespace Sys2Proof.Machine

section
variable {d e : Dev} {out inp cls ch lvl : Nat} {q : QFrame}

/-- What leaves at a departure. -/
def departures (out ch lvl : Nat) (q : QFrame) : List Emit :=
  .depart out ch (outgoing ch lvl q.f) :: (q.tail.map (fun t => .depart out ch (outgoing ch lvl t))).toList

theorem Dev.departOut_does (hoff : mirrorsOff e) (out ch lvl : Nat) (q : QFrame) : (e.departOut out ch lvl q).out = e.out ++ departures out ch lvl q ∧
    (e.departOut out ch lvl q).swc = e.swc ∧ (e.departOut out ch lvl q).links = e.links ∧ (e.departOut out ch lvl q).cnts = e.cnts := by
  have hoff' : mirrorsOff (e.emit (.depart out ch (outgoing ch lvl q.f))) := hoff
  unfold Dev.departOut departures
  dsimp only
  cases q.tail with
  | none => exact ⟨rfl, rfl, rfl, rfl⟩
  | some t =>
    dsimp only
    rw [Dev.mirAt_off hoff']
    refine ⟨?_, rfl, rfl, rfl⟩
    change (e.out ++ [_]) ++ [_] = e.out ++ [_, _]
    rw [List.append_assoc]
    rfl

theorem Frame.length_slots {f : Frame} (h : 0 < f.hdr.len) : f.slots.length = 16 * f.hdr.len := by
  rw [Frame.slots, List.length_append, hdrBytes, natLE_length, length_sliceBytes]
  omega

/-- The slots of a frame and its DATA frame as they leave. -/
def QFrame.wire (ch lvl : Nat) (q : QFrame) : List Byte := (outgoing ch lvl q.f).slots ++ ((q.tail.map (outgoing ch lvl)).map Frame.slots).getD []

theorem QFrame.length_wire (hlen : 0 < q.f.hdr.len) (htail : ∀ t, q.tail = some t → 0 < t.hdr.len) : (q.wire ch lvl).length = 16 * q.slots := by
  have hf : (outgoing ch lvl q.f).slots.length = 16 * q.f.hdr.len := Frame.length_slots hlen
  unfold QFrame.wire QFrame.slots
  rw [List.length_append, hf]
  cases ht : q.tail with
  | none => rfl
  | some t =>
    have hg : (outgoing ch lvl t).slots.length = 16 * t.hdr.len := Frame.length_slots (htail t ht)
    simp only [Option.map_some, Option.getD_some, hg]
    omega

/-- The slots of a frame leave on their channel. -/
theorem Dev.departSlots_does (hout : out < 24) (hp : out < d.links.length) (hlen : 0 < q.f.hdr.len) (htail : ∀ t, q.tail = some t → 0 < t.hdr.len)
    (hroom : (d.link out).unacked + ceilDiv q.slots 15 ≤ 1024) :
    (d.departSlots out cls ch lvl q).creditOf out cls ch = d.creditOf out cls ch - q.slots ∧
    ∃ fs : List Flit, ((d.departSlots out cls ch lvl q).link out).buffer = (d.link out).buffer ++ fs ∧
      (∀ g ∈ fs, g.kind = 0 ∧ g.slots.length ≤ 240 ∧ .flit out (g.bytes (d.link out).rxSeq false) ∈ (d.departSlots out cls ch lvl q).out) ∧
      fs.flatMap (·.slots) = q.wire ch lvl := by
  obtain ⟨e, he⟩ : ∃ e, e = d.sendSlots out cls ch (outgoing ch lvl q.f) (q.tail.map (outgoing ch lvl)) := ⟨_, rfl⟩
  have hkeep : (d.departSlots out cls ch lvl q).links = e.links ∧ (d.departSlots out cls ch lvl q).out = e.out := by
    unfold Dev.departSlots
    dsimp only
    rw [if_pos hout, ← he]
    split
    · exact ⟨by simp [Dev.swcCount], by simp [Dev.swcCount]⟩
    · exact ⟨by simp [Dev.swcCount], by simp [Dev.swcCount]⟩
  obtain ⟨hlinks, hleft⟩ := hkeep
  have hwire := QFrame.length_wire (ch := ch) (lvl := lvl) hlen htail
  have hdiv : (q.wire ch lvl).length / 16 = q.slots := by omega
  obtain ⟨⟨fs, hbuffer, hslots, hall⟩, hcredit, -⟩ := d.sendRun_does (cls := cls) (ch := ch) (sl := q.wire ch lvl)
    (fun i => if i = 0 then 0 else if (q.tail.map (outgoing ch lvl)).isSome ∧ (outgoing ch lvl q.f).hdr.len / 15 = i
      then (outgoing ch lvl q.f).hdr.len % 15 else 15) hp (by omega) (by rw [hdiv]; exact hroom)
  rw [hdiv] at hcredit
  refine ⟨?_, fs, ?_, fun g hg => ?_, hslots⟩
  · rw [Dev.creditOf, hlinks, he]
    exact hcredit
  · rw [Dev.link, hlinks, he]
    exact hbuffer
  · obtain ⟨hkind, hle, hsent⟩ := hall g hg
    refine ⟨hkind, hle, ?_⟩
    rw [hleft, he]
    exact hsent

/-- The room of the replay buffer that a departure needs. -/
theorem Dev.mayDepart_room (hout : out < 24) (h : d.mayDepart out ch q = true) : (d.link out).unacked + ceilDiv q.slots 15 ≤ 1024 := by
  rw [Dev.mayDepart, if_pos hout, Bool.and_eq_true, Bool.and_eq_true] at h
  have hroom := h.1.2
  rw [Dev.flitRoom, Bool.and_eq_true, decide_eq_true_eq] at hroom
  exact hroom.1

theorem Dev.markOf_le (d : Dev) (out cls : Nat) : d.markOf out cls ≤ 3 := by
  unfold Dev.markOf Dev.markLevel
  dsimp only
  split
  · omega
  · split
    · omega
    · split
      · omega
      · split <;> omega

/-! ### A head that waits -/

/-- A head that can go has its credit. -/
theorem Dev.bubbleWaits_ready (hq : d.headOf inp out cls = some q) (h : d.headReady inp out cls = true) : d.bubbleWaits out q = false := by
  rw [Dev.headReady, hq] at h
  obtain ⟨k, -, hmay⟩ := List.any_eq_true.1 h
  unfold Dev.bubbleWaits
  by_cases hout : out < 24
  · cases htow : d.towpath with
    | true => simp
    | false =>
      rw [Dev.mayDepart, if_pos hout, htow, if_neg Bool.false_ne_true] at hmay
      simp only [Bool.and_eq_true] at hmay
      obtain ⟨-, hord, hcredit⟩ := hmay
      have hany : q.f.hdr.ordinary.any (fun ch => d.bubbleCredit out ch q) = true :=
        List.any_eq_true.2 ⟨k, List.contains_iff_mem.1 hord, hcredit⟩
      simp [hany]
  · simp [hout]

theorem Dev.frameDepart_turnWaits (hq : d.headOf inp out cls = some q) (h : d.headReady inp out cls = true) (hno : d.classMayGo out cls = false)
    (ch : Nat) : d.frameDepart out inp cls ch = d := by
  rw [Dev.frameDepart, hq]
  dsimp only
  rw [if_neg (fun hc => Bool.false_ne_true (hno.symm.trans hc.2.1)), Dev.bubbleWaits_ready hq h, if_neg Bool.false_ne_true]

theorem Hdr.ordinary_lt {h : Hdr} {k : Nat} (hk : k ∈ h.ordinary) : k < 2 := by
  unfold Hdr.ordinary at hk
  split at hk
  · split at hk <;> simp at hk <;> omega
  · simp at hk
    omega

/-- A head without its credit in BUBBLE mode is counted, and nothing else is done. -/
theorem Dev.frameDepart_lacks (hq : d.headOf inp out cls = some q) (htow : d.towpath = false) (hout : out < 24) (hup : d.linkState out = 5)
    (hno : ∀ k < 2, d.bubbleCredit out k q = false) (ch : Nat) : d.frameDepart out inp cls ch = d.count 0x61 0 1 := by
  have hmay : ¬ d.mayDepart out ch q = true := by
    intro hmay
    rw [Dev.mayDepart, if_pos hout, htow, if_neg Bool.false_ne_true] at hmay
    simp only [Bool.and_eq_true] at hmay
    obtain ⟨-, hord, hcredit⟩ := hmay
    rw [hno ch (Hdr.ordinary_lt (List.contains_iff_mem.1 hord))] at hcredit
    cases hcredit
  have hany : q.f.hdr.ordinary.any (fun k => d.bubbleCredit out k q) = false :=
    List.any_eq_false.2 fun k hk => by rw [hno k (Hdr.ordinary_lt hk)]; exact Bool.false_ne_true
  have hwaits : d.bubbleWaits out q = true := by simp [Dev.bubbleWaits, htow, hout, hup, hany]
  rw [Dev.frameDepart, hq]
  dsimp only
  rw [if_neg (fun hc => hmay hc.1), if_pos hwaits]

/-! ### Spilled frames return -/

theorem Dev.spillReturn_none (h : (d.voq inp out cls).any (·.spilled) = false) : d.spillReturn inp out cls = d := by
  rw [Dev.spillReturn, List.find?_eq_none.2 (fun x hx => by simpa using List.any_eq_false.1 h x hx)]

theorem Dev.spillReturn_returns {l r : List QFrame} (hrecv : d.swc.recvSpace = []) (h : d.voq inp out cls = l ++ q :: r)
    (hl : l.any (·.spilled) = false) (hq : q.spilled = true) (hroom : d.headBytes inp + q.bytes ≤ d.headLimit inp) :
    d.spillReturn inp out cls = d.setVoq inp out cls (l ++ { q with spilled := false, inFloor := false, cells := [] } :: r) := by
  have hfind : (l ++ q :: r).find? (·.spilled) = some q := by
    rw [List.find?_append, List.find?_eq_none.2 (fun x hx => by simpa using List.any_eq_false.1 hl x hx)]
    simp [hq]
  rw [Dev.spillReturn, h, hfind]
  dsimp only
  rw [if_pos (show d.headRoom inp q.bytes = true from decide_eq_true hroom), mapFirst_at hl hq]
  exact Dev.retryRecv_none hrecv

end

end Sys2Proof.Machine


/-!
SUPPORT. O47, the departure of a frame, assembled.
-/
namespace Sys2Proof.Machine

section
variable {out inp : Fin 35} {cls : Fin 4} {ch : Nat} {s : State} {q : QFrame}

section
variable (hoff : mirrorsOff s.dev) (hrecv : s.dev.swc.recvSpace = []) (hq : s.dev.headOf inp out cls = some q)
  (hmay : s.dev.mayDepart out ch q = true) (hcls : s.dev.classMayGo out cls = true) (hturn : s.dev.turn out cls = some inp.val)
include hoff hrecv hq hmay hcls hturn

/-- The package once the frame has left its queue and its slots are on the wire; then the turns, and what leaves. -/
theorem frameDepart_parts : ∃ a b : Dev,
    (∃ c, a = { s.dev.setVoq inp out cls (s.dev.voq inp out cls).tail with cnts := c } ∧
      (s.dev.rdp F.BLK_CTRL_CNT_FREEZE 0x61 = 0 →
        s.dev.counter 0x61 0 + ((s.dev.passedOver out inp cls).filter (s.dev.bubbleWaits out)).length < 2 ^ 64 →
        a.counter 0x61 0 = s.dev.counter 0x61 0 + ((s.dev.passedOver out inp cls).filter (s.dev.bubbleWaits out)).length)) ∧
    b = a.departSlots out cls ch (s.dev.markOf out cls) q ∧
    b.swc = (s.dev.setVoq inp out cls (s.dev.voq inp out cls).tail).swc ∧
    ∃ t : Dev, s.dev.frameDepart out inp cls ch = t ∧ t.out = b.out ++ departures out ch (s.dev.markOf out cls) q ∧
      t.swc = (b.departTurns out inp cls (s.dev.servedThen out cls q) q).swc ∧ t.links = b.links ∧ t.cnts = b.cnts := by
  obtain ⟨c, hc⟩ := s.dev.departCounts_cnts out inp cls (s.dev.markOf out cls) q
  obtain ⟨a, ha⟩ : ∃ a : Dev, a = { s.dev.setVoq inp out cls (s.dev.voq inp out cls).tail with cnts := c } := ⟨_, rfl⟩
  obtain ⟨b, hb⟩ : ∃ b : Dev, b = a.departSlots out cls ch (s.dev.markOf out cls) q := ⟨_, rfl⟩
  have hoffa : mirrorsOff a := mirrorsOff_regs (d := s.dev) (ha ▸ rfl) hoff
  have hwire : b.offWire = a.offWire := hb ▸ Dev.offWire_departSlots ..
  have hswc : b.swc = (s.dev.setVoq inp out cls (s.dev.voq inp out cls).tail).swc := (Dev.swc_offWire hwire).trans (ha ▸ rfl)
  have hoffb : mirrorsOff (b.departTurns out inp cls (s.dev.servedThen out cls q) q) :=
    mirrorsOff_regs (d := a) (e := b.departTurns ..) (Dev.regs_offWire (e := b) hwire :) hoffa
  obtain ⟨hout, hswct, hlinks, hcnts⟩ := Dev.departOut_does hoffb out ch (s.dev.markOf out cls) q
  have hgo := Dev.frameDepart_goes hq hmay hcls hturn
  have hqueue : (s.dev.departCounts out inp cls (s.dev.markOf out cls) q).setVoq inp out cls
      ((s.dev.departCounts out inp cls (s.dev.markOf out cls) q).voq inp out cls).tail = a := by
    rw [hc, ha]
    rfl
  have hnone : ((b.departTurns out inp cls (s.dev.servedThen out cls q) q).departOut out ch (s.dev.markOf out cls) q).swc.recvSpace = [] := by
    rw [hswct]
    exact (congrArg Swc.recvSpace hswc : b.swc.recvSpace = _).trans hrecv
  rw [hqueue, Dev.mirAt_off hoffa, ← hb, Dev.retryRecv_none hnone] at hgo
  refine ⟨a, b, ⟨c, ha, fun hfree hlt => ?_⟩, hb, hswc, _, hgo, hout, hswct, hlinks, hcnts⟩
  rw [← Dev.counter_departCounts (lvl := s.dev.markOf out cls) hfree hlt (s.dev.markOf_le out cls) q, hc, ha]
  rfl

end

/-- The head of a queue departs. -/
theorem frameDepart_departs (hrun : s.dev.running = true) (hoff : mirrorsOff s.dev) (hrecv : s.dev.swc.recvSpace = [])
    (hq : s.dev.headOf inp out cls = some q) (hmay : s.dev.mayDepart out ch q = true) (hcls : s.dev.classMayGo out cls = true)
    (hturn : s.dev.turn out cls = some inp.val) : ∃ t, exec (.frameDepart out inp cls ch) s = .next t ∧ t.store = s.store ∧
      t.dev.voq inp out cls = (s.dev.voq inp out cls).tail ∧
      (∀ i p k, (i, p, k) ≠ (inp.val, out.val, cls.val) → t.dev.voq i p k = s.dev.voq i p k) ∧
      (∃ l, t.dev.out = l ++ departures out ch (s.dev.markOf out cls) q) ∧
      ((cls.val = 3 → nget t.dev.swc.ctrlRun out = nget s.dev.swc.ctrlRun out + 1) ∧
        (cls.val ≠ 3 → nget t.dev.swc.ctrlRun out = 0 ∧ (s.dev.allReady out = true →
          nget t.dev.swc.served (4 * out + cls) = nget s.dev.swc.served (4 * out + cls) + q.bytes))) ∧
      nget t.dev.swc.lastGrant (4 * out + cls) = inp + 1 ∧
      (s.dev.rdp F.BLK_CTRL_CNT_FREEZE 0x61 = 0 →
        s.dev.counter 0x61 0 + ((s.dev.passedOver out inp cls).filter (s.dev.bubbleWaits out)).length < 2 ^ 64 → ch < 2 →
        t.dev.counter 0x61 0 = s.dev.counter 0x61 0 + ((s.dev.passedOver out inp cls).filter (s.dev.bubbleWaits out)).length) ∧
      (out.val < 24 → shaped s.dev → 0 < q.f.hdr.len → (∀ d, q.tail = some d → 0 < d.hdr.len) →
        t.dev.creditOf out cls ch = s.dev.creditOf out cls ch - q.slots ∧
        ∃ fs : List Flit, (t.dev.link out).buffer = (s.dev.link out).buffer ++ fs ∧
          (∀ g ∈ fs, g.kind = 0 ∧ g.slots.length ≤ 240 ∧ .flit out.val (g.bytes (s.dev.link out).rxSeq false) ∈ t.dev.out) ∧
          fs.flatMap (·.slots) = q.wire ch (s.dev.markOf out cls)) := by
  obtain ⟨a, b, ⟨c, ha, hcount⟩, hb, hswc, t, hgo, hout, hswct, hlinks, hcnts⟩ := frameDepart_parts hoff hrecv hq hmay hcls hturn
  have hvoqs : t.swc.voqs = (s.dev.setVoq inp out cls (s.dev.voq inp out cls).tail).swc.voqs := by
    rw [hswct]
    exact (congrArg Swc.voqs hswc :)
  have hturns : t.swc.ctrlRun = nset s.dev.swc.ctrlRun out (if cls.val = 3 then nget s.dev.swc.ctrlRun out + 1 else 0) ∧
      t.swc.served = s.dev.servedThen out cls q ∧ t.swc.lastGrant = nset s.dev.swc.lastGrant (4 * out + cls) (inp + 1) := by
    rw [hswct, Dev.departTurns, hswc]
    exact ⟨rfl, rfl, rfl⟩
  obtain ⟨hrun', hserved, hgrant⟩ := hturns
  refine ⟨_, onDev_leaves hrun hgo, rfl, (Dev.voq_swc hvoqs ..).trans (Dev.voq_setVoq_same ..),
    fun i p k h => (Dev.voq_swc hvoqs ..).trans (Dev.voq_setVoq_other _ _ h), ⟨_, hout⟩, ⟨fun h => ?_, fun h => ⟨?_, fun hall => ?_⟩⟩, ?_,
    fun hfree hlt hch => ?_, fun hfab hsh hlen htail => ?_⟩
  · change nget t.swc.ctrlRun out = _
    rw [hrun', nget_nset_same, if_pos h]
  · change nget t.swc.ctrlRun out = _
    rw [hrun', nget_nset_same, if_neg h]
  · change nget t.swc.served _ = _
    rw [hserved, Dev.servedThen, if_neg h, Dev.serve, if_pos hall, nget_nset_same]
  · change nget t.swc.lastGrant _ = _
    rw [hgrant, nget_nset_same]
  · refine (Dev.counter_congr hcnts _ _).trans ?_
    rw [hb, Dev.counter_departSlots out.isLt hch, hcount hfree hlt]
  · obtain ⟨-, -, hlen28, -⟩ := id hsh
    have hlinksa : a.links = s.dev.links := ha ▸ rfl
    have hlinka : a.link out = s.dev.link out := by rw [Dev.link, hlinksa, ← Dev.link]
    obtain ⟨hcredit, fs, hbuffer, hall, hslots⟩ := Dev.departSlots_does (d := a) (out := out) (cls := cls) (ch := ch) (lvl := s.dev.markOf out cls)
      hfab (by rw [hlinksa]; omega) hlen htail (by rw [hlinka]; exact Dev.mayDepart_room hfab hmay)
    rw [← hb] at hcredit hbuffer hall
    rw [hlinka] at hbuffer hall
    refine ⟨?_, fs, ?_, fun g hg => ?_, hslots⟩
    · change nget (nth t.links out {}).credits _ = _
      rw [hlinks]
      refine hcredit.trans ?_
      rw [Dev.creditOf, hlinksa, ← Dev.creditOf]
    · change (nth t.links out {}).buffer = _
      rw [hlinks]
      exact hbuffer
    · obtain ⟨hkind, hle, hsent⟩ := hall g hg
      refine ⟨hkind, hle, ?_⟩
      change _ ∈ t.out
      rw [hout]
      exact List.mem_append_left _ hsent

end

end Sys2Proof.Machine


/-!
SUPPORT. O47, Said.FrameDeparture.
-/
namespace Sys2Proof.Machine

/-- A class that has had more than its share waits while all three can go (R386). -/
theorem Dev.classMayGo_share {d : Dev} {out cls : Nat} (hcls : cls ≠ 3) (hall : d.allReady out = true)
    (h : ∃ o < 3, nget d.swc.served (4 * out + o) * d.weight cls < nget d.swc.served (4 * out + cls) * d.weight o) :
    d.classMayGo out cls = false := by
  obtain ⟨o, ho, hlt⟩ := h
  have hshare : d.shareDue out cls = false := by
    have hmem : o ∈ [0, 1, 2] := by
      simp only [List.mem_cons, List.not_mem_nil, or_false]
      omega
    rw [Dev.shareDue, hall, Bool.not_true, Bool.false_or, List.all_eq_false]
    exact ⟨o, hmem, by simp only [decide_eq_true_eq]; omega⟩
  rw [Dev.classMayGo, if_neg hcls, hshare, Bool.and_false]

theorem Dev.classMayGo_ctrl {d : Dev} {out cls : Nat} (hcls : cls ≠ 3) (hready : d.classReady out 3 = true)
    (hrun : nget d.swc.ctrlRun out < 16) : d.classMayGo out cls = false := by
  rw [Dev.classMayGo, if_neg hcls, hready, decide_eq_false (Nat.not_le.2 hrun)]
  rfl

theorem departures_last {l : List Emit} {out ch lvl : Nat} {q : QFrame} (h : q.tail = none) :
    (l ++ departures out ch lvl q).getLast? = some (.depart out ch (outgoing ch lvl q.f)) := by
  rw [departures, h]
  simp

theorem departures_pair {out ch lvl : Nat} {q : QFrame} {d : Frame} (h : q.tail = some d) :
    departures out ch lvl q = [.depart out ch (outgoing ch lvl q.f), .depart out ch (outgoing ch lvl d)] := by
  rw [departures, h]
  rfl

theorem frameDeparture : Said.FrameDeparture := by
  intro out inp cls s hrun hoff hrecv
  refine ⟨fun ch hq => (onDev_leaves hrun (e := s.dev) ?_).trans rfl, fun ch q hq => ⟨fun hmay hcls hturn => ?_, fun htow hout hup hno => ?_,
    fun hne hready hfew hhead => ?_, fun hne hall hhead hmore => ?_⟩, fun h => ?_, fun l q r hqueue hl hq hroom => ?_⟩
  · rw [Dev.frameDepart, hq]
  · obtain ⟨t, hgo, hstore, hqueue, hothers, ⟨l, hout⟩, hturns, hgrant, hwaits, hlink⟩ := frameDepart_departs hrun hoff hrecv hq hmay hcls hturn
    refine ⟨t, hgo, hstore, hqueue, hothers, fun htail => ?_, fun d htail => ⟨l, ?_⟩, hturns, hgrant, fun _ => hwaits, hlink⟩
    · rw [hout]
      exact departures_last htail
    · rw [hout]
      exact congrArg (l ++ ·) (departures_pair htail)
  · exact onDev_leaves hrun (Dev.frameDepart_lacks hq htow hout hup hno ch)
  · exact (onDev_leaves hrun (Dev.frameDepart_turnWaits hq hhead (Dev.classMayGo_ctrl hne hready hfew) ch)).trans rfl
  · exact (onDev_leaves hrun (Dev.frameDepart_turnWaits hq hhead (Dev.classMayGo_share hne hall hmore) ch)).trans rfl
  · exact (onDev_leaves hrun (Dev.spillReturn_none h)).trans rfl
  · exact ⟨_, onDev_leaves hrun (Dev.spillReturn_returns hrecv hqueue hl hq hroom), rfl, rfl, Dev.voq_setVoq_same ..,
      fun i p k h => Dev.voq_setVoq_other _ _ h⟩

end Sys2Proof.Machine


/-!
SUPPORT. O47, capture records, victims, requeued frames and bank groups that go off (R385, R391, R393, R395, R398–R400).
-/
namespace Sys2Proof.Machine

section
variable {d : Dev} {c : Capture} {l r : List Capture}

/-! ### Capture records leave -/

theorem Dev.mirFirsts_mem (h : c ∈ d.mirFirsts) : c ∈ d.swc.mirror := by
  obtain ⟨e, he, hsome⟩ := List.mem_filterMap.1 h
  split at hsome
  · cases hsome
  · cases hsome
    obtain ⟨a, i⟩ := e
    exact (List.mem_zipIdx' he).2 ▸ List.getElem_mem ..

theorem Dev.mirrorSend_none (h : ∀ c ∈ d.swc.mirror, d.mirTakes c = false) : d.mirrorSend = d := by
  rw [Dev.mirrorSend, List.find?_eq_none.2 fun c hc => by rw [h c (Dev.mirFirsts_mem hc)]; exact Bool.false_ne_true]

/-- The oldest record of a destination that takes it. -/
theorem Dev.mirFirsts_find (h : d.swc.mirror = l ++ c :: r) (hl : ∀ x ∈ l, x.dest ≠ c.dest ∧ d.mirTakes x = false) (hc : d.mirTakes c = true) :
    d.mirFirsts.find? d.mirTakes = some c := by
  have hfirsts : ∀ {y : Capture} {g : Capture × Nat → Option Capture}, (∀ e z, g e = some z → z = e.1) → y ∈ l.zipIdx.filterMap g → y ∈ l := by
    intro y g hg hy
    obtain ⟨⟨a, i⟩, he, hsome⟩ := List.mem_filterMap.1 hy
    rw [hg _ _ hsome]
    exact (List.mem_zipIdx' he).2 ▸ List.getElem_mem ..
  unfold Dev.mirFirsts
  rw [h, List.zipIdx_append, List.filterMap_append, List.find?_append, List.find?_eq_none.2 fun y hy => ?_]
  · have hno : l.any (fun x => x.dest == c.dest) = false := List.any_eq_false.2 fun x hx => by simpa using (hl x hx).1
    rw [List.zipIdx_cons, Nat.zero_add, List.filterMap_cons, List.take_left]
    rw [if_neg (by rw [hno]; exact Bool.false_ne_true)]
    simp [hc]
  · rw [(hl y (hfirsts (fun e z hz => by split at hz <;> simp_all) hy)).2]
    exact Bool.false_ne_true

theorem erase_first (hl : ∀ x ∈ l, x.dest ≠ c.dest) : (l ++ c :: r).erase c = l ++ r := by
  rw [List.erase_append_right _ fun hc => hl c hc rfl, List.erase_cons_head]

/-- The package without the record. -/
def Dev.mirTaken (c : Capture) (d : Dev) : Dev := { d with swc := { d.swc with mirror := d.swc.mirror.erase c } }

theorem Dev.mirrorSend_port (h : d.mirFirsts.find? d.mirTakes = some c) (hdest : c.dest = 0) : d.mirrorSend =
    ((d.mirTaken c).emit (.analysis (d.rd F.MIR_DEST_PORT) c.bytes)).sendRun (d.rd F.MIR_DEST_PORT) c.cls ((d.mirChannel c).getD 0) c.bytes
      (fun i => if i = 0 then 0 else 15) := by
  rw [Dev.mirrorSend, h]
  exact if_pos hdest

theorem Dev.mirChannel_some {ch : Nat} (h : d.mirChannel c = some ch) : ch < 2 ∧ ceilDiv c.bytes.length 16 ≤ d.creditOf (d.rd F.MIR_DEST_PORT) c.cls ch ∧
    (d.link (d.rd F.MIR_DEST_PORT)).unacked + ceilDiv (ceilDiv c.bytes.length 16) 15 ≤ 1024 := by
  rw [Dev.mirChannel] at h
  split at h
  · next hready =>
    have hle := List.find?_some h
    have hmem := List.mem_of_find?_eq_some h
    simp only [List.mem_cons, List.not_mem_nil, or_false] at hmem
    simp only [Bool.and_eq_true] at hready
    obtain ⟨-, hroom⟩ := hready
    rw [Dev.flitRoom, Bool.and_eq_true, decide_eq_true_eq] at hroom
    exact ⟨by omega, of_decide_eq_true hle, hroom.1⟩
  · cases h

/-- A record leaves by the analysis port. -/
theorem Dev.mirrorSend_analysis (h : d.mirFirsts.find? d.mirTakes = some c) (hdest : c.dest = 0) (htakes : d.mirTakes c = true)
    (hlen : d.rd F.MIR_DEST_PORT < d.links.length) (hwhole : c.bytes.length % 16 = 0) : ∃ ch, ch < 2 ∧ .analysis (d.rd F.MIR_DEST_PORT) c.bytes ∈ d.mirrorSend.out ∧
      d.mirrorSend.swc = (d.mirTaken c).swc ∧
      d.mirrorSend.creditOf (d.rd F.MIR_DEST_PORT) c.cls ch + c.bytes.length / 16 = d.creditOf (d.rd F.MIR_DEST_PORT) c.cls ch ∧
      ∃ fs : List Flit, (d.mirrorSend.link (d.rd F.MIR_DEST_PORT)).buffer = (d.link (d.rd F.MIR_DEST_PORT)).buffer ++ fs ∧
        fs.flatMap (·.slots) = c.bytes ∧ ∀ g ∈ fs, g.kind = 0 ∧
          .flit (d.rd F.MIR_DEST_PORT) (g.bytes (d.link (d.rd F.MIR_DEST_PORT)).rxSeq false) ∈ d.mirrorSend.out := by
  obtain ⟨p, hp⟩ : ∃ p, p = d.rd F.MIR_DEST_PORT := ⟨_, rfl⟩
  obtain ⟨ch, hch⟩ : ∃ ch, d.mirChannel c = some ch := by
    rw [Dev.mirTakes, if_pos hdest] at htakes
    exact Option.isSome_iff_exists.1 htakes
  obtain ⟨hlt, hcredit, hroom⟩ := Dev.mirChannel_some hch
  have hgo := Dev.mirrorSend_port h hdest
  have hdiv : ceilDiv c.bytes.length 16 = c.bytes.length / 16 := by
    unfold ceilDiv
    omega
  rw [hch, Option.getD_some, ← hp] at hgo
  rw [← hp] at hcredit hroom hlen ⊢
  rw [hdiv] at hcredit hroom
  obtain ⟨⟨fs, hbuffer, hslots, hall⟩, hused, hwire, hout⟩ := ((d.mirTaken c).emit (.analysis p c.bytes)).sendRun_does (cls := c.cls) (ch := ch)
    (fun i => if i = 0 then 0 else 15) hlen hwhole hroom
  rw [← hgo] at hbuffer hall hused hwire hout
  refine ⟨ch, hlt, hout.subset (List.mem_append_right _ (List.mem_singleton.2 rfl)), Dev.swc_offWire hwire, ?_, fs, hbuffer, hslots, fun g hg => ?_⟩
  · rw [hused]
    change d.creditOf p c.cls ch - _ + _ = _
    omega
  · obtain ⟨hkind, -, hsent⟩ := hall g hg
    exact ⟨hkind, hsent⟩

/-- A record is written to the ring in host memory. -/
theorem Dev.mirrorSend_ring (h : d.mirFirsts.find? d.mirTakes = some c) (hdest : c.dest = 1) (hperst : d.rd F.GLB_PIN_STAT_PERST = 0)
    (hint : d.rd F.MIR_RING_CFG_INT_EN = 0) : d.mirrorSend.swc = (d.mirTaken c).swc ∧
      d.mirrorSend.rd F.MIR_RING_PROD_PROD = (d.rd F.MIR_RING_PROD_PROD + 1) % 2 ^ 32 ∧
      d.mirrorSend.out = d.out ++ [.hostWrite (ringAddr (d.rd F.MIR_RING_BASE_LO_BASE_LO) (d.rd F.MIR_RING_BASE_HI_BASE_HI)
        (d.rd F.MIR_RING_PROD_PROD) (d.rd F.MIR_RING_CFG_LOG2_SIZE) 320) (sliceBytes c.bytes 0 320)] := by
  obtain ⟨a, ha⟩ : ∃ a, a = ringAddr (d.rd F.MIR_RING_BASE_LO_BASE_LO) (d.rd F.MIR_RING_BASE_HI_BASE_HI) (d.rd F.MIR_RING_PROD_PROD)
      (d.rd F.MIR_RING_CFG_LOG2_SIZE) 320 := ⟨_, rfl⟩
  obtain ⟨e, he⟩ : ∃ e, e = (d.mirTaken c).hostWrite a (sliceBytes c.bytes 0 320) := ⟨_, rfl⟩
  have hwrite : e.swc = (d.mirTaken c).swc ∧ e.regs = d.regs ∧ e.out = d.out ++ [.hostWrite a (sliceBytes c.bytes 0 320)] := by
    have hlow : ¬ (d.mirTaken c).rd F.GLB_PIN_STAT_PERST = 1 := by
      change ¬ d.rd F.GLB_PIN_STAT_PERST = 1
      rw [hperst]
      decide
    obtain ⟨k, hk⟩ : ∃ k, (d.mirTaken c).count 0x18 1 1 = { d.mirTaken c with cnts := k } := by
      unfold Dev.count
      split
      · exact ⟨_, rfl⟩
      · exact ⟨_, rfl⟩
    rw [he, Dev.hostWrite, if_neg hlow, hk]
    exact ⟨rfl, rfl, rfl⟩
  obtain ⟨hswc, hregs, hout⟩ := hwrite
  have hrd : ∀ f : Fld, e.rd f = d.rd f := Dev.rd_regs hregs
  have hgoes : d.mirrorSend = if (e.bump F.MIR_RING_PROD_PROD 1).rd F.MIR_RING_CFG_INT_EN = 1
      then (e.bump F.MIR_RING_PROD_PROD 1).msix ((e.bump F.MIR_RING_PROD_PROD 1).rd F.MIR_RING_CFG_VECTOR) else e.bump F.MIR_RING_PROD_PROD 1 := by
    rw [Dev.mirrorSend, h, he, ha]
    exact if_neg (by omega)
  have hgo : d.mirrorSend = e.bump F.MIR_RING_PROD_PROD 1 := by
    rw [hgoes, if_neg]
    rw [Dev.bump, Dev.rd_wr_ne _ _ _ _ (by decide), hrd, hint]
    decide
  rw [hgo, Dev.bump]
  refine ⟨by simp [hswc], ?_, by simp [hout, ha]⟩
  rw [Dev.rd_wr_same _ _ _ (by decide), hrd]
  rfl

/-! ### Copies -/

theorem Dev.mirCopy_seq {i p point : Nat} {f : Frame} (hi : i < 4) :
    (Dev.mirCopy i p point f d).rdi F.MIR_SESS_SEQ_SEQ i = (d.rdi F.MIR_SESS_SEQ_SEQ i + 1) % 2 ^ 32 := by
  have hseq : ∀ v, (d.wri F.MIR_SESS_SEQ_SEQ i v).rdi F.MIR_SESS_SEQ_SEQ i = v % 2 ^ 32 := fun v => Dev.rdpi_wrpi_same _ _ _ _ _ (by decide)
  have haddr : F.MIR_SESS_SEQ_SEQ.addr 0x69 i ≠ 0x69 * 0x1000 + 0x14 := by
    simp only [Fld.addr, Fld.at, F.MIR_SESS_SEQ_SEQ]
    omega
  unfold Dev.mirCopy
  dsimp only
  split
  · refine Eq.trans ?_ (hseq _)
    exact congrArg (bits · _ _) (Dev.word_congr (by simp) _)
  · refine Eq.trans ?_ (hseq _)
    refine congrArg (bits · _ _) ((Dev.word_event ..).trans ((if_neg haddr).trans (Dev.word_congr (by simp) _)))

theorem Dev.mirCopy_dest {i v : Nat} : (d.wri F.MIR_SESS_SEQ_SEQ i v).rdi F.MIR_SESS_CFG_DEST i = d.rdi F.MIR_SESS_CFG_DEST i := by
  refine Dev.rdpi_wrpi_ne _ _ _ _ _ _ _ _ (.inl ?_)
  simp only [Fld.addr, Fld.at, F.MIR_SESS_SEQ_SEQ, F.MIR_SESS_CFG_DEST]
  omega

end

end Sys2Proof.Machine


/-!
SUPPORT. O47, victims, requeued frames and bank groups that go off (R385, R391, R395), and the whole obligation.
-/
namespace Sys2Proof.Machine

/-! ### Victims -/

theorem takeFirst_some {α : Type} {p : α → Bool} {l : List α} (h : l.any p = true) : ∃ a x b, l = a ++ x :: b ∧ takeFirst p l = some (x, a ++ b) ∧
    p x = true ∧ ∀ y ∈ a, p y = false := by
  induction l with
  | nil => cases h
  | cons y l ih =>
    cases hy : p y with
    | true => exact ⟨[], y, l, rfl, by rw [takeFirst, hy]; rfl, hy, fun _ h => absurd h (List.not_mem_nil)⟩
    | false =>
      rw [List.any_cons, hy, Bool.false_or] at h
      obtain ⟨a, x, b, hl, htake, hx, hall⟩ := ih h
      refine ⟨y :: a, x, b, by rw [hl]; rfl, ?_, hx, fun z hz => ?_⟩
      · rw [takeFirst, hy, if_neg Bool.false_ne_true, htake]
        rfl
      · rcases List.mem_cons.1 hz with rfl | hz
        · exact hy
        · exact hall z hz

theorem takeLastFrom_some {p : QFrame → Bool} {l : List QFrame} (h : l.any p = true) : ∃ a x b, l = a ++ x :: b ∧
    takeLastFrom p l = some (x, a ++ b) ∧ p x = true ∧ ∀ y ∈ b, p y = false := by
  obtain ⟨a, x, b, hl, htake, hx, hall⟩ := takeFirst_some (l := l.reverse) (p := p) (by rw [List.any_reverse]; exact h)
  refine ⟨b.reverse, x, a.reverse, ?_, ?_, hx, fun y hy => hall y (List.mem_reverse.1 hy)⟩
  · rw [← List.reverse_reverse l, hl]
    simp
  · rw [takeLastFrom, htake]
    simp

/-! ### Requeued frames -/

section
variable {q w : QFrame} {a : Dev × List QFrame}

/-- The frame of `q`, and its DATA frame, are in the package: held, waiting, or queued. -/
def StillIn (q : QFrame) (a : Dev × List QFrame) : Prop :=
  ∃ w : QFrame, w.f = q.f ∧ w.tail = q.tail ∧ (w ∈ a.1.swc.heldFrames ∨ w ∈ a.2 ∨ ∃ i o k, w ∈ a.1.voq i o k)

/-- What a frame that is looked up afresh becomes. -/
def relooked (a : Dev × List QFrame) (q : QFrame) : QFrame := (a.1.strayCount { q with credit := none, paid := true }).1

theorem relooked_same (a : Dev × List QFrame) (q : QFrame) : (relooked a q).f = q.f ∧ (relooked a q).tail = q.tail := by
  obtain ⟨b, hb⟩ := a.1.strayCount_last { q with credit := none, paid := true }
  rw [relooked, hb]
  exact ⟨rfl, rfl⟩

/-- A frame looked up afresh joins a queue, those held or those that wait. -/
theorem relook_cases (a : Dev × List QFrame) (q : QFrame) : ∃ d : Dev, d.swc = a.1.swc ∧
    ((∃ o c, Dev.relook a q = (d.enqueue o { relooked a q with credit := c }, a.2)) ∨ Dev.relook a q = (d.holdFrame (relooked a q), a.2) ∨
      Dev.relook a q = (d, a.2 ++ [relooked a q])) := by
  obtain ⟨-, -, hswc, -⟩ := a.1.resembles_refl.strayCount { q with credit := none, paid := true }
  refine ⟨_, hswc, ?_⟩
  unfold Dev.relook
  dsimp only
  split
  · next o c _ =>
    split
    · exact .inr (.inr rfl)
    · exact .inl ⟨o, c, rfl⟩
  · split
    · exact .inr (.inr rfl)
    · exact .inr (.inl rfl)
  · exact .inr (.inr rfl)

theorem StillIn.relook (h : StillIn w a) (q : QFrame) : StillIn w (Dev.relook a q) := by
  obtain ⟨x, hf, ht, hin⟩ := h
  refine ⟨x, hf, ht, ?_⟩
  obtain ⟨d, hswc, ⟨o, c, hgo⟩ | hgo | hgo⟩ := relook_cases a q
  · rw [hgo]
    refine hin.imp (fun h => (hswc ▸ h : x ∈ d.swc.heldFrames)) (Or.imp id fun ⟨i, p, k, hx⟩ => ⟨i, p, k, ?_⟩)
    rw [← Dev.voq_swc (congrArg Swc.voqs hswc)] at hx
    exact ((Dev.grows_enqueue (K := fun _ => True) o { relooked a q with credit := c } d).grows i p k trivial).subset hx
  · rw [hgo]
    refine hin.imp (fun h => List.mem_append_left _ (hswc ▸ h : x ∈ d.swc.heldFrames)) (Or.imp id fun ⟨i, p, k, hx⟩ => ⟨i, p, k, ?_⟩)
    rw [← Dev.voq_swc (congrArg Swc.voqs hswc)] at hx
    exact hx
  · rw [hgo]
    refine hin.imp (fun h => (hswc ▸ h : x ∈ d.swc.heldFrames)) (Or.imp (List.mem_append_left _) fun ⟨i, p, k, hx⟩ => ⟨i, p, k, ?_⟩)
    rw [← Dev.voq_swc (congrArg Swc.voqs hswc)] at hx
    exact hx

theorem stillIn_relook (a : Dev × List QFrame) (q : QFrame) : StillIn q (Dev.relook a q) := by
  obtain ⟨hf, ht⟩ := relooked_same a q
  obtain ⟨d, hswc, ⟨o, c, hgo⟩ | hgo | hgo⟩ := relook_cases a q
  · refine ⟨{ relooked a q with credit := c }, hf, ht, .inr (.inr ⟨(relooked a q).inp, o, (relooked a q).f.hdr.cls, ?_⟩)⟩
    rw [hgo]
    dsimp only
    rw [(Dev.enqueue_adds o { relooked a q with credit := c } d).1]
    exact List.mem_append_right _ (List.mem_singleton.2 rfl)
  · refine ⟨relooked a q, hf, ht, .inl ?_⟩
    rw [hgo]
    exact List.mem_append_right _ (List.mem_singleton.2 rfl)
  · refine ⟨relooked a q, hf, ht, .inr (.inl ?_)⟩
    rw [hgo]
    exact List.mem_append_right _ (List.mem_singleton.2 rfl)

theorem stillIn_relooks : ∀ {qs : List QFrame} {a : Dev × List QFrame}, (StillIn q a ∨ q ∈ qs) → StillIn q (qs.foldl Dev.relook a)
  | [], _, h => h.resolve_right (List.not_mem_nil)
  | x :: qs, a, h => by
    refine stillIn_relooks (qs := qs) (a := Dev.relook a x) ?_
    rcases h with h | h
    · exact .inl (h.relook x)
    · rcases List.mem_cons.1 h with rfl | h
      · exact .inl (stillIn_relook a q)
      · exact .inr h

theorem Dev.voq_mem {d : Dev} {i o k : Nat} (h : w ∈ d.voq i o k) : ∃ u ∈ d.swc.voqs, w ∈ u.q := by
  rw [Dev.voq_eq] at h
  cases hfind : d.swc.voqs.find? (Voq.isFor i o k) with
  | none => rw [hfind] at h; cases h
  | some u =>
    rw [hfind] at h
    exact ⟨u, List.mem_of_find?_eq_some hfind, h⟩

/-- Frames looked up afresh stay in the package. -/
theorem Dev.relookAll_keeps {qs : List QFrame} (d : Dev) (h : q ∈ qs) : ∃ w : QFrame, w.f = q.f ∧ w.tail = q.tail ∧
    (w ∈ (d.relookAll qs).swc.heldFrames ∨ w ∈ (d.relookAll qs).swc.recvSpace ∨ ∃ u ∈ (d.relookAll qs).swc.voqs, w ∈ u.q) := by
  obtain ⟨w, hf, ht, hin⟩ := stillIn_relooks (a := (d, [])) (.inr h)
  exact ⟨w, hf, ht, hin.imp id (Or.imp (List.mem_append_left _) fun ⟨_, _, _, hw⟩ => Dev.voq_mem hw)⟩

end

/-! ### A bank group that goes off -/

/-- No place in bank group `g`. -/
def offGroup (g : Nat) (q : QFrame) : Prop := ∀ c ∈ q.cells, c / 2 ^ 22 ≠ g

/-- A frame moves to the groups `gs`. -/
def moveFrame (g : Nat) (gs : List Nat) (a : List QFrame × List Nat × Nat) (q : QFrame) : List QFrame × List Nat × Nat :=
  let stay := q.cells.filter (fun c => c / 2 ^ 22 != g)
  let n := q.cells.length - stay.length
  let r := cutCells gs n a.2.1 a.2.2 n
  (a.1 ++ [{ q with cells := stay ++ r.1 }], a.2.1 ++ r.1, r.2)

theorem moveFrame_off {g : Nat} {gs : List Nat} (hgs : g ∉ gs) {a : List QFrame × List Nat × Nat} (h : ∀ q ∈ a.1, offGroup g q) (q : QFrame) :
    ∀ x ∈ (moveFrame g gs a q).1, offGroup g x := by
  intro x hx
  rcases List.mem_append.1 hx with hx | hx
  · exact h x hx
  · rw [List.mem_singleton.1 hx]
    intro c hc
    rcases List.mem_append.1 hc with hc | hc
    · simpa using (List.mem_filter.1 hc).2
    · exact fun hg => hgs (hg ▸ (mem_cutCells hc).1)

/-- The frames of a queue move. -/
def moveVoq (g : Nat) (gs : List Nat) (a : List Voq × List Nat × Nat) (v : Voq) : List Voq × List Nat × Nat :=
  let r := v.q.foldl (moveFrame g gs) ([], a.2.1, a.2.2)
  (a.1 ++ [{ v with q := r.1 }], r.2.1, r.2.2)

theorem Dev.moveSpilled_voqs (g : Nat) (d : Dev) : (d.moveSpilled g).swc.voqs =
    (d.swc.voqs.foldl (moveVoq g (d.groupsOn.filter (· != g))) ([], d.usedCells, d.swc.spillNext)).1 := rfl

theorem moveVoqs_off {g : Nat} {gs : List Nat} (hgs : g ∉ gs) (vs : List Voq) (a : List Voq × List Nat × Nat) (h : ∀ v ∈ a.1, ∀ q ∈ v.q, offGroup g q) :
    ∀ v ∈ (vs.foldl (moveVoq g gs) a).1, ∀ q ∈ v.q, offGroup g q := by
  refine List.foldlRecOn (motive := fun y : List Voq × List Nat × Nat => ∀ v ∈ y.1, ∀ q ∈ v.q, offGroup g q) vs _ h fun y hy v _ => ?_
  intro u hu
  rcases List.mem_append.1 hu with hu | hu
  · exact hy u hu
  · rw [List.mem_singleton.1 hu]
    exact List.foldlRecOn (motive := fun z : List QFrame × List Nat × Nat => ∀ q ∈ z.1, offGroup g q) v.q _
      (fun _ h => absurd h (List.not_mem_nil)) fun z hz q _ => moveFrame_off hgs hz q

/-! ### The obligation -/

theorem mirrorAndRequeue : Said.MirrorAndRequeue := by
  refine ⟨fun s hrun => ⟨fun h => (onDev_leaves hrun (Dev.mirrorSend_none h)).trans rfl, fun l c r hmir hl hc => ⟨fun hdest => ?_, fun hdest hperst hint => ?_⟩⟩,
    fun i p point f d hi => ⟨Dev.mirCopy_seq hi, fun hfits => ?_, fun hfull => ?_⟩, fun f d => ⟨rfl, rfl, rfl, rfl, rfl, rfl⟩,
    fun tie d v hv => ?_, fun out d v q hv hout hq => ?_, fun g d => ?_⟩
  · dsimp only
    intro hp hsh hwhole
    obtain ⟨-, -, hlen, -⟩ := hsh
    have hfind := Dev.mirFirsts_find hmir hl hc
    obtain ⟨ch, hch, han, hswc, hcredit, fs, hbuffer, hslots, hall⟩ := Dev.mirrorSend_analysis hfind hdest hc (by omega) hwhole
    refine ⟨_, ch, onDev_leaves hrun rfl, rfl, ?_, han, hch, hcredit, fs, hbuffer, hslots, hall⟩
    change s.dev.mirrorSend.swc.mirror = _
    rw [hswc, Dev.mirTaken, hmir]
    exact erase_first fun x hx => (hl x hx).1
  · obtain ⟨hswc, hprod, hout⟩ := Dev.mirrorSend_ring (Dev.mirFirsts_find hmir hl hc) hdest hperst hint
    refine ⟨_, onDev_leaves hrun rfl, rfl, ?_, hprod, hout⟩
    change s.dev.mirrorSend.swc.mirror = _
    rw [hswc, Dev.mirTaken, hmir]
    exact erase_first fun x hx => (hl x hx).1
  · rw [Dev.mirCopy]
    dsimp only
    rw [if_pos (by simpa using hfits), Dev.mirCopy_dest]
    simp
  · rw [Dev.mirCopy]
    dsimp only
    rw [if_neg (by simpa using hfull)]
    simp
  · obtain ⟨hmem, hcls, hany⟩ := Dev.victimVoq_bulk hv
    obtain ⟨l, x, r, hqueue, htake, hx, hr⟩ := takeLastFrom_some hany
    exact ⟨hmem, hcls, l, x, r, hqueue, htake, hx, hr, (Dev.voq_swc (Dev.voqs_evict ..) ..).trans (Dev.voq_setVoq_same ..)⟩
  · refine Dev.relookAll_keeps _ (List.mem_flatMap.2 ⟨v, List.mem_filter.2 ⟨hv, beq_iff_eq.2 hout⟩, hq⟩)
  · rw [Dev.moveSpilled_voqs]
    exact moveVoqs_off (by simp) _ _ fun _ h => absurd h (List.not_mem_nil)

/-- Settles O47: an arriving frame is looked up and placed as in `goes`, with a device that resembles the one before it; a departure is the
parts of `frameDepart_goes`, whose flits `flits_run` follows one by one; copies, victims and requeued frames by the lists they stand in. -/
theorem switchFrames : Obligations.SwitchFrames := ⟨frameArrival, frameDeparture, mirrorAndRequeue⟩

end Sys2Proof.Machine
